-- ==== Sys2Proof/Word.lean ====
section
/-! DEFINITION. The plain data every file shares: bytes, Faval requests and messages, the frames that
cross the device's buses, the sampled quantities of a lock cycle, and the sparse-table type. -/
namespace Sys2Proof

/-- One byte of a message, a frame or a memory. -/
abbrev Byte := BitVec 8

/-- A table keyed by number. A key that is not listed reads as the reset record of that key; the
operations are in `Machine/Tbl.lean`. -/
abbrev Tbl (α : Type) := List (Nat × α)

/-- A Faval command whose header passed steps 1 to 6 of R396: the fields of R391 the device uses after
that. The class and the verb are those of the row that carries it. -/
structure Req where
  pound   : Nat            -- sender (R391 bytes 12-13), equal to the transport's pound
  tag     : Nat := 0       -- echoed in the response
  posted  : Bool := false  -- R392 bit 2
  tow     : Nat := 0       -- handle bits 31:26
  inst    : Nat := 0       -- handle bits 17:0
  payload : List Byte := []
  deriving DecidableEq, Repr

/-- A message as a transport delivers it, before any check: sixteen header bytes, the payload bytes and the
four trailer bytes in one list (R391). -/
structure RawMsg where
  bytes : List Byte
  deriving DecidableEq, Repr

/-- One sample set of a power channel taken in the fill phase (R130, R131). -/
structure ChanSample where
  iMean : Int := 0         -- mean in µA; negative for reverse current
  iMeanW : Int := 0        -- the same mean over the wide range, µA
  iSq   : Nat := 0         -- mean square over the oversamples, 2^-24 A²
  iPeak : Nat := 0         -- µA
  vOut  : Nat := 0         -- µV
  eSw   : Nat := 0         -- switching energy of the cycle, µJ
  iSat  : Bool := false    -- a sample saturated the converter
  vDs   : Nat := 0         -- µV across the channel
  iSeg  : List Nat := []   -- current of each active segment, µA
  coarse : List Nat := []  -- coarse-sense currents of the fallback integrator at 64 kHz, µA (R148)
  deriving DecidableEq, Repr

/-- Everything the fill phase captures (R41, R130-R132, R143, R192). Lists are in unit order; a missing
entry reads as the unit's previous sample. -/
structure Samples where
  chan    : List ChanSample := []   -- channels 0-75 in instance order
  group   : List Nat := []          -- VBAT_A, VBAT_B in µV
  cluster : List Int := []          -- die temperature of C0-C9, 2^-24 °C
  lid     : List Int := []          -- two lid sensors, m°C
  di      : List (List Nat) := []   -- eight samples of each DI, µV
  ai      : List (List Nat) := []   -- eight pin voltages of each AI, µV
  supV    : List Nat := []          -- SUP voltages, µV
  supI    : List Nat := []          -- SUP currents, µA
  foV     : List Nat := []          -- field output voltages V_OUT, µV
  foI     : List Nat := []          -- field output currents, µA
  foLim   : List Bool := []         -- field outputs held in current limit for more than 50 µs (R206)
  xMean   : List Int := []          -- mean of the shadowed channel by the spare ADC, per digitiser group, µA (R132)
  refs    : List Nat := []          -- reference error of ADC0-ADC4, then of ADC0S-ADC4S, 0.01 % of wide full scale (R132)
  deriving DecidableEq, Repr

/-- A CAN frame (R237, R248). -/
structure CanFrame where
  id    : Nat := 0          -- 11 or 29 bits; for XL the priority identifier
  ide   : Bool := false     -- extended identifier
  kind  : Nat := 0          -- 0 classical, 1 FD, 2 XL
  rtr   : Bool := false
  brs   : Bool := false
  esi   : Bool := false
  sdt   : Nat := 0          -- XL SDU type
  sec   : Bool := false     -- XL simple extended content
  vcid  : Nat := 0          -- XL virtual CAN network
  af    : Nat := 0          -- XL acceptance field
  dlc   : Nat := 0          -- CC and FD data length code
  data  : List Byte := []
  deriving DecidableEq, Repr

/-- A CAN protocol error (R267, ISO 11898-1). `exempt` marks an error the standard excepts from counting,
`again` a further error of the same error or overload signalling (the counting rules of weight 8). -/
structure CanErr where
  tx     : Bool             -- this controller transmits
  kind   : Nat              -- 0 bit, 1 stuff, 2 form, 3 acknowledgement, 4 CRC, 5 protocol exception
  exempt : Bool := false
  again  : Bool := false
  xlData : Bool := false    -- in the data phase of an XL frame
  deriving DecidableEq, Repr

/-- What an armed CAN wake detector sees (R282, R284); durations in ns. -/
inductive CanStim
  | wup (dom1 rec1 dom2 total : Nat)
  | activity (dom : Nat)
  | frame (f : CanFrame)
  | badFrame
  deriving DecidableEq, Repr

/-- An Ethernet frame without preamble and FCS (R334). -/
structure EthFrame where
  dst     : Nat := 0
  src     : Nat := 0
  tagged  : Bool := false
  vid     : Nat := 0
  pcp     : Nat := 0
  dei     : Bool := false
  etype   : Nat := 0
  rtag    : Option Nat := none   -- R-TAG sequence number (R383)
  payload : List Byte := []
  deriving DecidableEq, Repr

/-- A message on its way out to a pound: a response (R394, R395). -/
structure Msg where
  opcode  : Nat
  tag     : Nat
  handle  : Nat
  pound   : Nat
  status  : Nat
  cyc     : Option Nat      -- effective cycle of the CYC prefix
  desync  : Bool := false
  posted  : Bool := false   -- it answers a posted command (R399)
  payload : List Byte := []
  deriving DecidableEq, Repr

/-- An event (R441): the prefix fields, the extension fields in the order of R444, and the sequence number
it carries once it is in a queue. -/
structure Evt where
  code   : Nat
  handle : Nat
  cycle  : Nat
  cause  : Nat := 0
  flags  : Nat := 0
  value  : Int := 0
  ext    : List Nat := []
  supp   : Nat := 0
  seq    : Nat := 0
  deriving DecidableEq, Repr

end Sys2Proof
end

