-- ==== Sys2Proof/Machine/RegsBus.lean ====
section
/-! DEFINITION. CAN channels and controllers, LIN channels, network management and the Aqueduct (chapters
"CAN controllers", "Transceivers, LIN, and network sleep and wake", "Aqueduct gateway"). -/
namespace Sys2Proof.Machine

/-! ### CAN -/

/-- Configuration of a CAN channel, in the codes of its record (R246). -/
structure CanCfg where
  mode   : Nat := 0
  fdEn   : Bool := false
  xlEn   : Bool := false
  xlFast : Bool := false
  sigOff : Bool := false
  pexEn  : Bool := true
  txOrder : Nat := 0            -- 0 ID, 1 SLOT
  boffAuto : Bool := true
  tdcEn  : Bool := true
  nbrp   : Nat := 1
  ntseg1 : Nat := 126
  ntseg2 : Nat := 31
  nsjw   : Nat := 31
  dbrp   : Nat := 0
  dtseg1 : Nat := 58
  dtseg2 : Nat := 19
  dsjw   : Nat := 19
  xbrp   : Nat := 0
  xtseg1 : Nat := 10
  xtseg2 : Nat := 3
  xsjw   : Nat := 3
  tdco   : Nat := 60
  xtdco  : Nat := 12
  pwms   : Nat := 5
  pwml   : Nat := 11
  pwmo   : Nat := 0
  tBoff  : Nat := 100
  boffMax : Nat := 8
  fltFirst : Nat := 0
  fltCount : Nat := 0
  rxCells : Nat := 64
  txCells : Nat := 64
  txDeadline : Nat := 0
  deriving DecidableEq, Repr

/-- Who put a frame into a transmit queue. -/
inductive TxSrc
  | route (idx : Nat)
  | pound (p tag : Nat)
  | nm
  | sched (k : Nat)
  deriving DecidableEq, Repr

/-- A frame waiting to be sent (R256-R262). -/
structure CanTx where
  frame   : CanFrame
  src     : TxSrc
  oneShot : Bool := false
  confirm : Bool := false
  enq     : Nat := 0            -- counter at its enqueue (R262)
  deriving DecidableEq, Repr

/-- A CAN channel (R246, R256-R274). -/
structure CanCh where
  cfg     : CanCfg := {}
  live    : Nat := 0            -- mode the controller runs in (R244)
  ctrl    : Nat
  err     : Nat := 0            -- 0 active, 1 passive, 2 bus-off, 3 recovering
  tec     : Nat := 0
  recv    : Nat := 0
  boffManual : Bool := false
  boffRun : Nat := 0
  stateCycle : Nat := 0
  seq     : Nat := 0            -- of the next accepted frame
  counters : Tbl Nat := []      -- R274
  nobufRead : Bool := true      -- rx_nobuf has been read since the last drop (R253)
  queue   : List CanTx := []
  slot0   : Option CanTx := none
  slot1   : Option CanTx := none
  slot2   : Option CanTx := none
  line    : List CanTx := []    -- due schedule entries behind slot 0 (R264)
  onBus   : Option Nat := none  -- slot whose frame is on the bus
  fastTx  : Option (Nat × Nat × Nat) := none  -- FAST TX: short phase, long phase and offset of its PWM symbols; none in SIC (R242)
  integ   : Bool := false       -- bus integration done (R244)
  byCommand : Bool := false     -- the recovery in progress was requested by RECOVER
  waitRep : Bool := false       -- the wait of R269 has been reported
  swap    : Nat := 0            -- swap to C12: 0 none, 1 waits for a boundary, 2 for an intermission
  swapCause : Nat := 0
  stuck   : Bool := false       -- transmitter released by R280
  deriving DecidableEq, Repr
def can0 (c : Nat) : CanCh := { ctrl := c }

/-- Filter element (R247). -/
structure CanFilter where
  kind  : Nat := 0
  ide   : Bool := false
  cc    : Bool := false
  fd    : Bool := false
  xl    : Bool := false
  rtr   : Bool := false
  reject : Bool := false
  route : Nat := 0
  id1   : Nat := 0
  id2   : Nat := 0
  vcid  : Nat := 0
  vcidMask : Nat := 0
  sdt   : Nat := 0
  sdtMask : Nat := 0
  bad   : Bool := false         -- disabled by TABLE_ECC until reloaded (R553 0x053)
  deriving DecidableEq, Repr
def filter0 (_ : Nat) : CanFilter := {}

/-- Schedule entry (R263); `frame` holds the 96 bytes of the frame record. -/
structure CanSched where
  en     : Bool := false
  skip   : Bool := false
  stale  : Nat := 0
  every  : Nat := 4
  offset : Nat := 0
  owner  : Nat := 0
  written : Nat := 0
  miss   : Nat := 0
  frame  : List Nat := List.replicate 96 0
  deriving DecidableEq, Repr
def csched0 (_ : Nat) : CanSched := {}

/-- The CAN block. -/
structure Can where
  chs     : Tbl CanCh := []
  filters : Tbl CanFilter := []
  scheds  : Tbl CanSched := []
  deferred : List Nat := []     -- schedule entries deferred by an overrun, in their order (R50)
  shadow  : Nat := 0            -- channel the spare shadows (R271)
  mism    : Nat := 0            -- mismatches on that channel
  again   : Bool := false       -- the further period after a mismatch runs
  passed  : Bool := false       -- its last self-test passed
  testCycle : Nat := 0          -- cycle of that test
  bad     : List Nat := []      -- condemned controllers
  rail5   : Bool := true        -- the 5 V rail is within its operating range (R280)
  deriving DecidableEq, Repr

/-! ### LIN -/

/-- A LIN channel (R288-R298). -/
structure LinCh where
  role    : Nat := 0
  wakeEn  : Bool := true
  term    : Bool := true
  nad     : Nat := 0x7F
  rate    : Nat := 19200
  breakLen : Nat := 13
  busIdle : Nat := 4
  wakePulse : Nat := 1000
  wakeFilter : Nat := 10
  table   : Nat := 0
  resolving : Bool := false
  state   : Nat := 0            -- 0 off, 1 operational, 2 sleep, 3 waking
  entry   : Nat := 0
  stateCycle : Nat := 0
  left    : Nat := 0            -- boundaries left in the slot in progress
  first   : Bool := true        -- the next slot is the first of the table
  due     : Bool := false       -- a slot has begun whose header is to be sent
  running : Bool := false       -- the schedule runs
  switchTo : Option Nat := none -- table that starts at the next slot boundary (R292)
  resolve : Option Nat := none  -- resolution table that starts at the next slot boundary
  resume  : Option (Nat × Nat) := none  -- table and entry to resume after a resolution
  header  : Option Nat := none  -- identifier whose response is awaited or sent
  event   : Bool := false       -- the header in progress belongs to an EVENT slot
  rateSeen : Nat := 0           -- rate measured from the sync field (R288)
  diag    : Bool := false       -- a diagnostic request was sent and awaits its response
  seq     : Nat := 0            -- of delivered frames (R318)
  signals : Nat := 0            -- wake-up signals sent in the present block (R298)
  wakeFail : Bool := false      -- LIN_WAKE_FAIL raised for this wake
  armed   : Bool := true        -- its wake detector is armed
  goSleep : Bool := false       -- a go-to-sleep frame is being sent (R297)
  out     : List Byte := []     -- the last response sent: data and checksum
  deriving DecidableEq, Repr
def lin0 (_ : Nat) : LinCh := {}

/-- A LIN frame entry (R289). -/
structure LinFrame where
  dir     : Nat := 0
  enhanced : Bool := true
  updated : Bool := false
  len     : Nat := 8
  owner   : Nat := 0
  route   : Nat := 0
  noResp  : Nat := 0
  data    : List Nat := List.replicate 8 0
  cycle   : Nat := 0
  deriving DecidableEq, Repr
def linFrame0 (_ : Nat) : LinFrame := {}

/-- A LIN schedule entry (R290). -/
structure LinSlot where
  en      : Bool := false
  table   : Nat := 0
  kind    : Nat := 0
  pid     : Nat := 0
  resolve : Nat := 0
  slot    : Nat := 40
  sporadic : Nat := 0
  deriving DecidableEq, Repr
def linSlot0 (_ : Nat) : LinSlot := {}

/-- The LIN block. -/
structure Lin where
  chs    : Tbl LinCh := []
  frames : Tbl LinFrame := []
  slots  : Tbl LinSlot := []
  deriving DecidableEq, Repr

/-! ### Network management -/

/-- NM cluster states (R296). -/
inductive NmState | moored | castingOff | underway | mooring
  deriving DecidableEq, Repr

/-- What a cluster has seen of a node in the keep-watch window (R301). -/
structure NmSeen where
  node : Nat
  pdus : Nat := 0
  sent : Nat := 0
  deriving DecidableEq, Repr

/-- An NM cluster (R293-R301). Events wait for the boundary at which the state may change. -/
structure NmCluster where
  en      : Bool := false
  kind    : Nat := 0            -- 0 CAN, 1 LIN, 2 Ethernet
  central : Bool := false
  bus     : Nat := 0
  node    : Nat := 0
  tMsg    : Nat := 8
  tTimeout : Nat := 1200
  tRepeat : Nat := 1000
  tWait   : Nat := 750
  tWatch  : Nat := 60
  pduId   : Nat := 0x6A0
  pduIde  : Bool := false
  pn      : Nat := 0
  state   : NmState := .moored
  claims  : Nat := 0
  stateCycle : Nat := 0
  sent    : Nat := 0            -- PDUs sent since the last entry to Casting off, saturating
  byClaim : Bool := false       -- Casting off was entered by a claim
  repOut  : Bool := false       -- PDUs carry repeat_req after a REPEAT
  pduNow  : Bool := false       -- a PDU is due at the next boundary
  evPdu   : Bool := false       -- events since the last boundary
  evRepeatPdu : Bool := false
  evRepeat : Bool := false
  evWake  : Bool := false
  evRepeatEnd : Bool := false
  evTimeout : Bool := false
  evWait  : Bool := false
  evSleep : Bool := false       -- LIN responder: go-to-sleep frame
  evIdle  : Bool := false       -- LIN responder: bus idle
  seen    : List NmSeen := []
  repeaters : Nat := 0
  group   : Nat := 0            -- multicast group of an Ethernet cluster, set by the chart (R294)
  deriving DecidableEq, Repr
def nmCluster0 (_ : Nat) : NmCluster := {}

/-- CAN wake settings (R282). -/
structure CanWakeCfg where
  en      : Bool := true
  kind    : Nat := 0
  fdPassive : Bool := true
  ide     : Bool := false
  dlcEn   : Bool := false
  rate    : Nat := 2
  tFilter : Nat := 4
  tWup    : Nat := 2
  dlc     : Nat := 8
  id      : Nat := 0
  idMask  : Nat := 0
  dataMask : Nat := 0
  deriving DecidableEq, Repr

/-- A CAN wake detector: its settings, those in force since the last arming (R283), and its error counter. -/
structure CanWake where
  cfg     : CanWakeCfg := {}
  live    : CanWakeCfg := {}
  err     : Nat := 0
  armed   : Bool := true
  deriving DecidableEq, Repr
def canWake0 (_ : Nat) : CanWake := {}

/-- T1 port sleep settings (R302); keys 0-7 are U0, U1, E0-E5. -/
structure T1 where
  en      : Bool := true
  fwd     : Bool := true
  accept  : Bool := true
  rej     : Nat := 0
  asking  : Bool := false       -- a sleep request awaits its acknowledgement
  deriving DecidableEq, Repr
def t10 (_ : Nat) : T1 := {}

/-- Keep-awake report (R301). -/
structure KaReport where
  cluster : Nat := 0xFF
  pounds  : Nat := 0
  cycle   : Nat := 0
  nodes   : List NmSeen := []
  deriving DecidableEq, Repr

/-- Network management. -/
structure Nm where
  cls     : Tbl NmCluster := []
  wakes   : Tbl CanWake := []
  t1s     : Tbl T1 := []
  sleepPath : Nat := 10
  isoHold : Nat := 30
  holdOn  : Bool := false       -- the implicit claim of isolation is held (R300)
  report  : KaReport := {}
  log     : List KaReport := [] -- reports in the eMRAM event log
  deriving DecidableEq, Repr

/-! ### Aqueduct -/

/-- A bus event record (R319). -/
structure BusEv where
  ev   : Nat
  info : Nat
  tec  : Nat
  recv : Nat
  deriving DecidableEq, Repr

/-- A frame or bus event record on its way through the Aqueduct (R254, R304, R318). -/
structure AqFrame where
  frame  : CanFrame := {}
  ev     : Option BusEv := none
  chan   : Nat := 0             -- 0-11 CAN, 0x40 + LIN channel, 0x80 + listener
  kind   : Nat := 0             -- 0 CAN, 1 LIN, 2 tunnel, 3 towline
  tow    : Nat := 0             -- device where it arrived
  route  : Nat := 0
  filter : Nat := 0
  sec    : Nat := 0
  ns     : Nat := 0
  seq    : Nat := 0
  authOk : Bool := false
  authFail : Bool := false
  deriving DecidableEq, Repr

/-- Destination descriptor (R306). -/
structure Dest where
  kind   : Nat := 0
  latest : Bool := false
  idRw   : Bool := false
  fmtTo  : Nat := 0
  target : Nat := 0
  sub    : Nat := 0
  newId  : Nat := 0
  newIde : Bool := false
  deriving DecidableEq, Repr

/-- Route entry (R306, R321). Tokens in 10^-9 of a token. -/
structure Route where
  en     : Bool := false
  cont   : Bool := false
  auth   : Bool := false
  rateEn : Bool := false
  chain  : Bool := false
  ndest  : Nat := 0
  next   : Nat := 0
  ctx    : Nat := 0
  rate   : Nat := 1000
  burst  : Nat := 16
  owner  : Nat := 0
  dests  : List Dest := [{}, {}, {}, {}]
  hits   : Nat := 0
  drops  : Nat := 0
  tokens : Nat := 16000000000
  filled : Nat := 0             -- counter of the last refill
  rateRep : Bool := false       -- ROUTE_RATE raised
  bad    : Bool := false        -- disabled by TABLE_ECC until reloaded
  deriving DecidableEq, Repr
def route0 (_ : Nat) : Route := {}

/-- Talker tunnel (R312-R315). Messages are ACF bytes. -/
structure Talker where
  en     : Bool := false
  ext    : Bool := false
  tv     : Bool := true
  brief  : Bool := false
  pcp    : Nat := 3
  vid    : Nat := 0
  dst    : Nat := 0
  cells  : Nat := 16
  stream : Nat := 0
  seq    : Nat := 0
  pdus   : Nat := 0
  msgs   : Nat := 0
  octets : Nat := 0
  oversize : Nat := 0
  full   : Nat := 0
  overRep : Bool := false
  fullRep : Bool := false
  batch  : List (List Byte) := []
  held   : List (List (List Byte)) := []   -- batches of overrun cycles (R50)
  deriving DecidableEq, Repr
def talker0 (_ : Nat) : Talker := {}

/-- Listener tunnel (R317). -/
structure Listener where
  en     : Bool := false
  present : Bool := false
  last   : Nat := 0
  base   : Nat := 0
  stream : Nat := 0
  pdus   : Nat := 0
  msgs   : Nat := 0
  octets : Nat := 0
  gap    : Nat := 0
  unsupported : Nat := 0
  malformed : Nat := 0
  gapRep : Bool := false
  deriving DecidableEq, Repr
def listener0 (_ : Nat) : Listener := {}

/-- Source record of a bus (R319). -/
structure BusSrc where
  route : Nat := 0
  en    : Bool := false
  mask  : Nat := 0x000F
  deriving DecidableEq, Repr
def busSrc0 (_ : Nat) : BusSrc := {}

/-- Authentication context (R322-R326). `stored` is the value the Lighthouse keeps. -/
structure Ctx where
  mode   : Nat := 0
  failPass : Bool := false
  strip  : Bool := true
  resume : Nat := 0
  revoked : Bool := false
  macLen : Nat := 8
  fvBits : Nat := 8
  key    : Nat := 0
  dataId : Nat := 0
  gap    : Nat := 256
  fv     : Nat := 0
  window : Nat := 16
  payLen : Nat := 8
  ok     : Nat := 0
  fail   : Nat := 0
  stored : Nat := 0
  deriving DecidableEq, Repr
def ctx0 (_ : Nat) : Ctx := {}

/-- A frame in the Aqueduct's CMAC queue (R325), or behind it: a frame of one source never passes an earlier one of
the same source (R312, R319). -/
structure CmacReq where
  frame : AqFrame
  act   : Nat := 0              -- 0 a CMAC request, 1 delivered in its turn, 2 failed in its turn
  deriving DecidableEq, Repr

/-- An offer that waits for a boundary (`present`, R317). -/
structure AqOffer where
  dest  : Dest
  frame : AqFrame
  deriving DecidableEq, Repr

/-- The Aqueduct. -/
structure Aq where
  routes  : Tbl Route := []
  talkers : Tbl Talker := []
  listeners : Tbl Listener := []
  srcs    : Tbl BusSrc := []
  ctxs    : Tbl Ctx := []
  counters : Tbl Nat := []
  inq     : List AqFrame := []   -- arrivals, oldest first
  cmac    : List CmacReq := []  -- frames in the CMAC queue, oldest first, and those behind them
  offers  : List AqOffer := []
  rx      : Tbl (List (List Byte)) := []  -- pound receive queues, key 4 × pound + queue (R318)
  poundRep : List Nat := []      -- pounds whose ROUTE_POUND_DROP is latched
  typeXl  : Nat := 0x7C          -- device message types (R316)
  typeSt  : Nat := 0x7D
  fromBasin : List EthFrame := []  -- frames the Basin has delivered to port 13
  deriving DecidableEq, Repr
def rxq0 (_ : Nat) : List (List Byte) := []

end Sys2Proof.Machine
end

