-- ==== Sys2Proof/Machine/RegsCycle.lean ====
section
/-! DEFINITION. The state of the lock cycle and the Tide clock (chapter "Lock cycle and tide clock"). -/
namespace Sys2Proof.Machine

/-- Cycle-timer state (R55, `TSNAP_PHASE`). -/
inductive TimerState | phased | slewing | rephase
  deriving DecidableEq, Repr

/-- Phase window the cycle is in (R41). -/
inductive Phase | fill | level | apply | sealing
  deriving DecidableEq, Repr

/-- What an accepted cycle-bound command does at its boundary: write fields of a record (bit position and
code), or run an action with its argument. -/
inductive StagedOp
  | set (part : Nat) (fields : List (Nat × Nat))
  | act (code : Nat) (arg : List Byte)
  deriving DecidableEq, Repr

/-- An accepted cycle-bound command waiting for its boundary (R45). `due` counts boundaries that pass
first; `outside` marks a chart commit, which takes no place in the fold capacity (R609); `reply` is false
for staging the device makes itself and for a pound whose responses are discarded (R457). -/
structure Staged where
  due     : Nat
  cls     : Nat
  req     : Req
  op      : StagedOp
  outside : Bool := false
  reply   : Bool := true
  deriving DecidableEq, Repr

/-- A period change that waits for its boundary (R59). Times in ns of working time. -/
structure PeriodChange where
  period  : Nat
  bound   : Nat
  cycle   : Nat
  req     : Option Req
  confirm : List Nat := []      -- barges that have yet to confirm (R62)
  deriving DecidableEq, Repr

/-- A change of period that was cancelled or replaced at a tug, until every barge has taken that (R62): `reqs` are
then answered. -/
structure PeriodEnd where
  bound   : Nat
  confirm : List Nat
  reqs    : List Req
  deriving DecidableEq, Repr

/-- The lock cycle (R40-R63). Times in ns. -/
structure Cyc where
  running    : Bool := false          -- cycle timer started (R63)
  period     : Nat := 250000          -- P (R40)
  number     : Nat := 0               -- cycle number, 48 bits (R54)
  inCycle    : Nat := 0               -- time since the last boundary (R72)
  length     : Nat := 250000          -- length of the present cycle after correction (R55)
  phase      : Phase := .fill
  timer      : TimerState := .phased
  pastCutoff : Bool := false
  doneSluice : Bool := false          -- level-phase completion signals (R42)
  doneFio    : Bool := false
  doneAq     : Bool := false
  sealed     : Bool := false
  overMask   : Nat := 0               -- cause mask of the present cycle's overrun (R51); 0 none
  overruns   : Nat := 0               -- consecutive overruns (R52)
  change     : Option PeriodChange := none
  ended      : List PeriodEnd := []   -- changes cancelled or replaced, not yet so on every barge (R62)
  staged     : List Staged := []      -- shadow state (R43, R45), in order of acceptance
  deriving DecidableEq, Repr

/-- Servo state (R78, `TSNAP_SERVO`). -/
inductive ServoState | freeRun | acquiring | locked | holdover
  deriving DecidableEq, Repr

/-- One servo instance (R76-R81). Rates in 2^-48, offsets in ns. -/
structure Servo where
  state   : ServoState := .freeRun
  rBase   : Int := 0            -- rate at the end of acquisition
  integ   : Int := 0            -- I
  good    : Nat := 0            -- consecutive samples within the lock threshold
  bad     : Nat := 0            -- consecutive non-spike samples above the unlock threshold
  spikes  : Nat := 0
  first   : Bool := true        -- the next sample is the first of an acquisition
  lastE   : Int := 0
  lastAt  : Nat := 0            -- counter at the last accepted sample
  gm      : Nat := 0            -- grandmaster identity (R81)
  gmVec   : List Nat := []      -- best priority vector taken by the BMCA (R74)
  gmPort  : Nat := 0
  deriving DecidableEq, Repr

/-- Application time domain d = 1-8 (R68, R436). -/
structure Dom where
  offset : Int := 0
  frac   : Nat := 0             -- part of O below 1 ns, 2^-48, that changes of r leave (R69)
  rate   : Int := 0             -- signed, 2^-48
  gptp   : Bool := false
  number : Nat := 1             -- gPTP domainNumber
  owner  : Nat := 0
  deriving DecidableEq, Repr

/-- A pound's copy of the snapshot registers (R72). -/
structure Snap where
  valid : Bool := false
  servo : Nat := 0
  phase : Nat := 0
  ctr   : Nat := 0
  sec   : Nat := 0
  ns    : Nat := 0
  inCyc : Nat := 0
  cycle : Nat := 0
  dom   : List Int := []
  deriving DecidableEq, Repr

/-- Entry of a two-step timestamp queue (R84). -/
structure TsEntry where
  seqId   : Nat
  msgType : Nat
  domain  : Nat
  owner   : Nat
  sec     : Nat
  ns      : Nat
  deriving DecidableEq, Repr

/-- Timestamp queue of a port: 64 entries, drop counter, first lost sequence identifier (R84, R85). -/
structure Tsq where
  queue : List TsEntry := []
  drops : Nat := 0
  first : Nat := 0
  deriving DecidableEq, Repr

/-- gPTP settings and link measurements of a port (R74, R75). -/
structure GPort where
  role        : Nat := 0         -- 0 disabled, 1 master, 2 slave, 3 passive
  twoStep     : Bool := false
  logSync     : Int := -3
  logPdelay   : Int := 0
  pdelayOn    : Bool := true
  rcptTimeout : Nat := 3
  nrrManaged  : Bool := false
  delayManaged : Bool := false
  nrr         : Int := 0         -- neighbour rate ratio less 1, 2^-48
  delay       : Nat := 0         -- mean link delay, ns
  thresh      : Nat := 800       -- neighborPropDelayThresh, ns
  asCapable   : Bool := false
  nbrCapable  : Bool := false    -- the neighbour's gPTP capable TLV has been received
  baseSync    : Option Int := none    -- the chart's interval while a message interval request has another in force
  basePdelay  : Option Int := none
  syncSeq     : Nat := 0
  pdelaySeq   : Nat := 0
  pdelayOpen  : Bool := false    -- a Pdelay_Req awaits its response
  lastT3      : Nat := 0         -- previous responder and requester times, for the rate ratio
  lastT4      : Nat := 0
  deriving DecidableEq, Repr

/-- Settings of a TIDE_OUT (R87, R437). -/
structure TOutCfg where
  mode     : Nat := 0            -- 0 OFF, 1 ONCE, 2 PERIODIC, 3 BOUNDARY
  polarity : Nat := 0
  scale    : Nat := 0
  every    : Nat := 1
  start    : Nat := 0             -- raw 80-bit field of R437
  period   : Nat := 1000000000
  width    : Nat := 1000
  deriving DecidableEq, Repr

/-- A TIDE_OUT (R87-R91). -/
structure TOut where
  cfg     : TOutCfg := {}
  next    : Option Int := none      -- next rising edge, ns of the scale
  pulse   : Bool := false           -- pulse in progress
  endAt   : Nat := 0                -- counter at the end of the last pulse begun
  waiting : Option TOutCfg := none  -- a SET that waits for the end of the pulse (R89)
  first   : Option Int := none      -- its first edge, as acceptance gave it (R88)
  deriving DecidableEq, Repr

/-- A capture of a TIDE_IN (R92, R438). -/
structure Cap where
  sec  : Nat
  ns   : Nat
  edge : Nat                     -- 1 rising, 2 falling
  ctr  : Nat
  deriving DecidableEq, Repr

/-- A TIDE_IN (R92, R438). -/
structure TIn where
  edge     : Nat := 0            -- 0 rising, 1 falling, 2 both
  glitch   : Nat := 20
  fifo     : List Cap := []
  overflow : Nat := 0
  reported : Bool := false
  lastCtr  : Option Nat := none  -- counter of the last capture, for the 100 ns merge
  deriving DecidableEq, Repr

/-- The Tide clock (R64-R92, R435). -/
structure Tide where
  on        : Bool := false          -- started (R63)
  counter   : Nat := 0               -- free-running counter, 64 bits (R67)
  sec       : Nat := 0
  ns        : Nat := 0
  frac      : Nat := 0               -- fraction of a ns, 2^-48
  rate      : Int := 0               -- r_w (R64)
  source    : Nat := 0               -- R76: 0 GPTP, 1 TOWLINE, 2 PPS, 3 NONE
  kp        : Nat := 0x8000
  ki        : Nat := 0x1000
  stepThr   : Nat := 100000
  lockThr   : Nat := 500
  unlockThr : Nat := 2000
  holdover  : Nat := 60
  ppsOn     : Bool := false          -- TIDE_IN0 selected as PPS by the chart (R92)
  priority1 : Nat := 255
  clockClass : Nat := 248
  extPorts  : Bool := true           -- external port configuration (R74)
  servos    : Tbl Servo := []        -- 0-8
  doms      : Tbl Dom := []          -- 1-8
  snaps     : Tbl Snap := []         -- per pound
  tsqs      : Tbl Tsq := []          -- per Basin port
  gports    : Tbl GPort := []        -- per Basin port
  touts     : Tbl TOut := []
  tins      : Tbl TIn := []
  deriving DecidableEq, Repr

/-- Reset records of the Tide clock's tables. -/
def servo0 (_ : Nat) : Servo := {}
def dom0 (_ : Nat) : Dom := {}
def snap0 (_ : Nat) : Snap := {}
def tsq0 (_ : Nat) : Tsq := {}
/-- S0-S3 (Basin ports 8-11) always use a management-set link delay (R74, R75). -/
def gport0 (p : Nat) : GPort :=
  if 8 ≤ p ∧ p < 12 then { delayManaged := true, pdelayOn := false } else {}
def tout0 (_ : Nat) : TOut := {}
def tin0 (_ : Nat) : TIn := {}

end Sys2Proof.Machine
end

