-- ==== Sys2Proof/Machine/RegsFaval.lean ====
section
/-! DEFINITION. The state of the Faval transports, of the catalogue and of the pounds (chapters "Faval:
transports, messages and queues", "Faval command and event catalogue", "Pounds: sharing among clients"). -/
namespace Sys2Proof.Machine

/-- A packet descriptor as the host or a partition posts it (R342, R345); R345 gives the bits of byte 10. -/
structure Desc where
  addr  : Nat := 0
  len   : Nat := 0
  flags : Nat := 0        -- byte 10 of a transmit descriptor
  tag   : Nat := 0
  off   : Nat := 0        -- transmit: insertion offset
  data  : List Byte := [] -- transmit: the bytes the buffer holds
  deriving DecidableEq, Repr

/-- A descriptor as it is written back, and what is written into its buffer. -/
structure Written where
  back : List Byte
  data : List Byte
  addr : Nat
  deriving DecidableEq, Repr

/-- Ring block of a mailbox window (R400, R401, R403). -/
structure Ring where
  base : Nat := 0
  log2 : Nat := 0
  head : Nat := 0
  tail : Nat := 0
  deriving DecidableEq, Repr

/-- One MSI-X vector or mailbox interrupt source of a window (R408, R420). -/
structure Vec where
  last     : Option Nat := none   -- counter at the last interrupt sent
  deferred : Bool := false
  sent     : Nat := 0             -- interrupts sent, 32 bits, wrapping (the model's record of the line)
  deriving DecidableEq, Repr

/-- A mailbox window: one per PCIe function, one per partition (R400, R420). -/
structure Win where
  run      : Bool := false
  running  : Bool := false
  cfgErr   : Bool := false
  dmaFault : Bool := false
  cause    : Nat := 0
  causeEn  : Nat := 0
  vec      : Nat := 0
  mod      : Nat := 0
  errCode  : Nat := 0
  errRing  : Nat := 0
  errCount : Nat := 0
  evtLost  : Nat := 0
  rings    : Tbl Ring := []
  vecs     : Tbl Vec := []
  lastMsg  : List Byte := []     -- the message last written to a response or event slot (the model's record)
  deriving DecidableEq, Repr

/-- Pound state (R454). -/
inductive PoundState | absent | stopped | running | resetting | removed
  deriving DecidableEq, Repr

/-- Object list entry (R455). -/
structure ObjEntry where
  first : Nat := 0
  count : Nat := 0
  own   : Bool := false
  deriving DecidableEq, Repr

/-- The pound record and object list (R454, R455). -/
structure Pound where
  kind       : Nat := 0
  func       : Nat := 0
  state      : PoundState := .absent
  central    : Bool := false
  onReset    : Bool := false
  cmdSlots   : Nat := 64
  evtQueue   : Nat := 256
  evtRate    : Nat := 400
  foldMax    : Nat := 64
  keySlots   : Nat := 0
  rxCells    : Nat := 1024
  txCells    : Nat := 256
  sramUnits  : Nat := 0
  storeUnits : Nat := 0
  ddrMib     : Nat := 0
  sramBase   : Nat := 0
  storeBase  : Nat := 0
  ddrBase    : Nat := 0
  resetCycle : Nat := 0
  reason     : Nat := 0
  resets     : Nat := 0
  objs       : Tbl ObjEntry := []
  deriving DecidableEq, Repr

/-- Where the messages of an Ethernet pound go (R414): IP address, UDP port, MAC address and IP interface. -/
structure EthDest where
  ip    : Nat
  port  : Nat
  mac   : Nat := 0
  iface : Nat := 0
  deriving DecidableEq, Repr

/-- Reassembly of a segmented Ethernet message (R412). -/
structure Reasm where
  segs  : Nat
  nextSeg : Nat
  fresh : Nat
  bytes : List Byte
  src   : EthDest           -- sender of segment 0
  deriving DecidableEq, Repr

/-- The SPI slave (R415-R418): the error flag, and the model's record of the last status word and of the
bytes the last READ clocked out. -/
structure SpiState where
  lines : Nat := 4               -- width of the bytes after the instruction (R415)
  err  : Bool := false
  word : Nat := 0
  out  : List Byte := []
  deriving DecidableEq, Repr

/-- A pound's queues and transport state (R394, R404-R418, R452). -/
structure PoundQ where
  rsp        : List Msg := []
  evt        : List Evt := []
  seq        : Nat := 0
  unanswered : Nat := 0
  reserved   : Nat := 0
  lost       : Nat := 0            -- events discarded since the last SYS_EVENTS_LOST
  rateCount  : Nat := 0            -- events of the present 10 ms window
  counters   : Tbl Nat := []       -- R422, index 0-9
  ethKey     : Option Nat := none  -- KEY instance (R411)
  ethRevoked : Bool := false
  fresh      : Nat := 0            -- F (R413)
  bitmap     : Nat := 0
  floor      : Nat := 0
  txFresh    : Nat := 0
  freshStore : Nat := 0            -- value the Lighthouse stored (R413)
  txStore    : Nat := 0
  reasm      : Option Reasm := none
  dest       : Option EthDest := none
  asked      : List (Nat × EthDest) := []  -- tag and sender of unanswered commands (R414)
  destFixed  : Bool := false       -- destination fixed by the chart (R414)
  spi        : SpiState := {}
  purgeDue   : Bool := false       -- a removal completed; ownership passes at the next boundary (R458)
  removing   : Bool := false
  safeDue    : Bool := false       -- owned outputs take their safe entries at the next boundary (R457)
  deriving DecidableEq, Repr

/-- An event subscription (R428). -/
structure Sub where
  id    : Nat
  pound : Nat
  first : Nat                -- handle
  count : Nat
  mask  : Nat
  remote : Option Nat := none  -- number the barge gave it, for an object of a barge (R514)
  deriving DecidableEq, Repr

/-- An open rate window of an event code for a pound and an object (R442). -/
structure RateWin where
  pound    : Nat
  code     : Nat
  handle   : Nat
  withheld : Nat := 0
  last     : Option Evt := none
  deriving DecidableEq, Repr

/-- IP interface of the Ethernet transport (R410). -/
structure IpIface where
  en   : Bool := false
  v6   : Bool := false
  addr : Nat := 0
  vid  : Nat := 0
  port : Nat := 47124
  deriving DecidableEq, Repr

/-- The Faval message state of the device. -/
structure Fv where
  fw       : Bool := false        -- Lockkeeper firmware runs
  started  : Bool := false        -- start complete (R590)
  devState : Nat := 0             -- R400: 0 starting, 1 running, 2 Lock-through, 3 recovery
  pounds   : Tbl Pound := []
  qs       : Tbl PoundQ := []
  wins     : Tbl Win := []        -- 0-31 PCIe functions, 32-63 partitions
  subs     : List Sub := []
  nextSub  : Nat := 0
  rateWins : List RateWin := []
  latched  : List Evt := []       -- R640
  ifaces   : Tbl IpIface := []
  bargeRsp : List Msg := []       -- on a barge: responses on their way to the tug (R512)
  bargeEvt : List Evt := []       -- on a barge: events on their way to the tug as NOTEs (R514)
  deferred : List (Nat × Nat) := []  -- resets that wait for the end of a handover (R462): pound, reason
  chipPound0 : Bool := true       -- no valid chart: pound 0 has both endpoints (R447)
  deriving DecidableEq, Repr

/-- Reset records. Without a valid chart pound 0 is bound to the PCIe physical function and to the SPI
slave (R447); the others do not exist. -/
def pound0 (p : Nat) : Pound := if p = 0 then { kind := 1, state := .stopped } else {}
def pq0 (_ : Nat) : PoundQ := {}
def win0 (_ : Nat) : Win := {}
def ring0 (_ : Nat) : Ring := {}
def vec0 (_ : Nat) : Vec := {}
def obj0 (_ : Nat) : ObjEntry := {}
def iface0 (_ : Nat) : IpIface := {}
/-- Reset record of a counter. -/
def ctr0 (_ : Nat) : Nat := 0

end Sys2Proof.Machine
end

