-- ==== Sys2Proof/Machine/RegsKey.lean ====
section
/-! DEFINITION. The state of the Lighthouse, its mailboxes and the key slots (chapter "Lighthouse and key
storage"), and of the application cores, partitions and memories (chapter "Cores, memory and Ebb/Flood
checking"). -/
namespace Sys2Proof.Machine

/-! ### Keys -/

/-- A key slot (R534, R535). `mat` is the model's name of the key material, which nothing can read; the
material's own value is free (log entry 4). -/
structure Key where
  state     : Nat := 0          -- 0 EMPTY, 1 ACTIVE, 3 INVALID; STALE is computed (R536)
  type      : Nat := 0
  use       : Nat := 0
  bind      : Nat := 0
  persist   : Bool := false
  parent    : Nat := 0xFFFF
  depth     : Nat := 0
  gen       : Nat := 0
  parentGen : Nat := 0
  notAfter  : Nat := 0
  mat       : Nat := 0
  pub       : List Byte := []   -- public point of an imported public key
  madeCycle : Nat := 0
  uses      : Nat := 0
  seq       : Nat := 0          -- sequence of the committed record (R538)
  deriving DecidableEq, Repr
/-- Device slots 0-4 hold the device's own keys (R534). -/
def key0 (k : Nat) : Key :=
  if k < 2 then { state := 1, type := 5, use := 8, persist := true, mat := k + 1 }
  else if k < 5 then { state := 1, type := 7, use := 16, persist := true, mat := k + 1 }
  else {}

/-- Registers of a partition's Lighthouse mailbox (R525). -/
structure LhRegs where
  mode : Nat := 0
  key  : Nat := 0
  src  : Nat := 0
  dst  : Nat := 0
  len  : Nat := 0
  aad  : Nat := 0
  cmp  : Nat := 16
  iv   : Nat := 0
  result : List Byte := []      -- what the partition wrote to LH_RESULT
  deriving DecidableEq, Repr

/-- A partition's Lighthouse mailbox with its request (R525-R528). -/
structure LhBox where
  op     : Nat := 0
  regs   : LhRegs := {}
  busy   : Bool := false
  done   : Bool := false
  stat   : Nat := 0
  out    : Nat := 0
  result : List Byte := []      -- LH_RESULT; empty is all zero
  iv     : Nat := 0             -- LH_IV
  deriving DecidableEq, Repr
def lhBox0 (_ : Nat) : LhBox := {}

/-- An open debug challenge (R546). -/
structure Challenge where
  scope  : Nat
  nonce  : Nat
  cycle  : Nat
  at_    : Nat                  -- counter at the issue
  deriving DecidableEq, Repr

/-- The Lighthouse (R523-R549). -/
structure Light where
  state     : Nat := 0          -- 0 running, 1 restarting, 2 held in reset
  restarts  : Nat := 0
  restartAt : List Nat := []    -- counters of the latest restarts, newest first
  claims    : Nat := 0
  held      : Nat := 4
  scope     : Nat := 0
  dbgFail   : Nat := 0
  dbgSince  : Bool := false
  restarted : Bool := false
  mismatch  : Bool := false
  notAfter  : Nat := 0
  aborted   : Nat := 0
  revoked   : Nat := 0
  challenge : Option Challenge := none
  start     : List Nat := []    -- digests measured at the device start (R545), index order
  again     : List (Nat × Nat) := []  -- digests that differed at a re-measurement
  log       : List (Nat × Nat) := []  -- measurement log: index and digest (R551)
  keys      : Tbl Key := []
  boxes     : Tbl LhBox := []
  freeze    : Bool := false     -- TRNG output withheld (R553)
  retired   : List Nat := []    -- SHA-384 of keys retired from slots 3 and 4, at most 64 (R597)
  tap       : List Byte := []   -- what the TAP's AUTH data register reads (R546)
  deriving DecidableEq, Repr

/-! ### Cores -/

/-- Entry of a slot table (R488). -/
structure SlotEntry where
  start : Nat := 0
  pound : Nat := 0
  idle  : Bool := false
  deriving DecidableEq, Repr
def slotEntry0 (_ : Nat) : SlotEntry := {}

/-- Slot table of a logical core (R467). -/
structure SlotTable where
  frame   : Nat := 1
  slots   : Nat := 1
  entries : Tbl SlotEntry := []
  deriving DecidableEq, Repr

/-- Slot table as set and as in force: a new table waits for a frame start. -/
structure Logical where
  set  : SlotTable := {}
  live : SlotTable := {}
  deriving DecidableEq, Repr
def logical0 (_ : Nat) : Logical := {}

/-- A physical core (R488). -/
structure Core where
  role    : Nat := 0            -- 0 active, 1 spare, 2 condemned, 3 failed spare
  logical : Nat := 7
  halted  : Bool := false
  replay  : Bool := false       -- debug_mode
  transMax : Nat := 3
  mmT     : Nat := 0
  mmP     : Nat := 0
  mmI     : Nat := 0
  mmCycle : Nat := 0
  lbist   : Nat := 0
  running : Option Nat := none  -- partition pound in its slot
  checked : Bool := true        -- checking mode of the running partition (R473)
  times   : List Nat := []      -- counters of transient mismatches within the last second
  testing : Bool := false       -- self-test after a permanent mismatch (R480)
  stopped : Bool := false       -- stopped for a swap (R485)
  hpm     : Tbl Nat := []       -- hpmcounter3-10 by number (R465)
  mcounteren : Nat := 0         -- counters S-mode may read, and U-mode, as the monitor sets them (R465)
  scounteren : Nat := 0
  pchk    : Nat := 1            -- identity CSR of the running partition (R463)
  ways    : Nat := 0xFFFF       -- L2 way mask in force (R468, R472)
  pmp     : List (Nat × Nat) := []  -- base and length of the ranges the monitor's PMP entries open (R466)
  deriving DecidableEq, Repr
/-- AP0-AP3 serve logical cores 0-3, AP4 is the spare (R463). -/
def core0 (k : Nat) : Core := if k < 4 then { logical := k } else { role := 1 }

/-- A swap that waits for its boundary (R485). -/
structure SwapCore where
  out    : Nat
  cmd    : Bool                 -- by command
  left   : Nat                  -- boundaries still to pass
  pound  : Nat                  -- pound running at the instant of the swap
  deriving DecidableEq, Repr

/-- A partition (R489). -/
structure Part where
  run      : Bool := false
  checked  : Bool := true
  faultStop : Bool := false
  core     : Nat := 0
  l2Ways   : Nat := 0xFFFF
  entry    : Nat := 0
  warm     : Bool := false
  runCycle : Nat := 0
  restarts : Nat := 0
  mmCount  : Nat := 0
  memFaults : Nat := 0
  warmNext : Bool := false      -- stopped for STANDBY: the next entry is WARM (R471)
  info     : List Byte := []    -- the information block as last written, to byte 87 (R470)
  startPc  : Nat := 0           -- pc and a0 of the last entry; its other registers are zero but a1 (R469)
  startA0  : Nat := 0
  startA1  : Nat := 0           -- address of the information block (R469, R470)
  ctxCycle : Option Nat := none -- cycle in which the monitor last saved its context (R468)
  irqSeen  : Tbl Nat := []      -- mailbox interrupts of source v delivered to its S-mode (R420, R468)
  homeless : Bool := false      -- no core serves its logical core (R486)
  deriving DecidableEq, Repr
def partition0 (_ : Nat) : Part := {}

/-- Cores, partitions and memory health (R463-R490). -/
structure Aps where
  cores    : Tbl Core := []
  logicals : Tbl Logical := []
  parts    : Tbl Part := []
  swap     : Option SwapCore := none
  sramCorr : Nat := 0
  sramUncorr : Nat := 0
  l2Corr   : Nat := 0
  l2Uncorr : Nat := 0
  l1Err    : Nat := 0
  scrubCycle : Nat := 0
  deriving DecidableEq, Repr

end Sys2Proof.Machine
end

