-- ==== Sys2Proof/Machine/RegsNet.lean ====
section
/-! DEFINITION. The state of the Ethernet ports and of the Basin (chapters "Ethernet ports and MACs" and
"Basin switch"). -/
namespace Sys2Proof.Machine

/-! ### Frames in the Basin -/

/-- What a pound asked for its frame (R345): the requests travel with it (R337). -/
structure TxMark where
  ipCsum : Bool := false
  l4Csum : Bool := false
  ts2    : Bool := false
  ins    : Bool := false
  insFmt : Bool := false
  insOff : Nat := 0
  tag    : Nat := 0
  ring   : Option Nat := none   -- ring of the completion: 8 × pound + ring
  id     : Nat := 0             -- its place among the ring's completions
  deriving DecidableEq, Repr

/-- A frame held whole (R358): its bytes, where and when it came in, and what is known of it. -/
structure NetFrame where
  fid     : Nat := 0            -- one number for one stored frame (R366)
  f       : EthFrame := {}
  ing     : Nat := 12
  pound   : Nat := 32           -- sending pound; 32 when no pound sent it
  arr     : Nat := 0            -- ingress timestamp, ns of working time (R82)
  secured : Bool := false
  ipc     : Nat := 0            -- R339: 0 not checked, 1 good, 2 bad
  l4c     : Nat := 0
  mark    : TxMark := {}
  direct  : Option Nat := none  -- a frame of the Lockkeeper for one port
  relay   : Bool := false       -- a Sync the Basin relays (R83)
  deriving DecidableEq, Repr

/-- An egress copy: a packet descriptor (R366, R367). -/
structure Copy where
  fr     : NetFrame := {}
  vid    : Nat := 1
  ce     : Bool := false        -- leaves with ECN 11 (R369)
  ovf    : Bool := false        -- held in overflow (R371)
  filter : Nat := 0             -- port 12: matching entry and ring (R340)
  ring   : Nat := 0
  deriving DecidableEq, Repr

/-! ### Ports -/

/-- What an egress MAC put on the line: the model's record of the last frame sent. -/
structure Wire where
  f    : EthFrame := {}
  an   : Option Nat := none     -- association that protected it (R350)
  pn   : Nat := 0
  sci  : Option Nat := none     -- SCI in its SecTAG (R349)
  enc  : Bool := false          -- confidentiality as well as integrity
  fcsOk : Bool := true          -- false for a frame that the loss of the link ended (R331)
  deriving DecidableEq, Repr

/-- Port record and the port's egress side (R332, R337, R375-R379). -/
structure Port where
  speed     : Nat := 0
  en        : Bool := false
  role      : Bool := false
  aneg      : Bool := false
  extEn     : Bool := false
  macsec    : Bool := false
  plcaId    : Nat := 0
  plcaEn    : Bool := true
  plcaCount : Nat := 7
  toTimer   : Nat := 32
  burstCount : Nat := 0
  burstTimer : Nat := 128
  station   : Nat := 0
  link      : Nat := 0
  plcaUp    : Bool := false
  sqi       : Nat := 0
  speedNow  : Nat := 0
  linkCycle : Nat := 0
  sending   : Option (Nat × Copy) := none  -- class and copy in transmission
  wire      : Option Wire := none
  deriving DecidableEq, Repr
/-- Reset record: the speed by class of port (R332). -/
def port0 (p : Nat) : Port :=
  if p < 2 then { speed := 2 } else if p < 8 then { speed := 4 } else { speed := 5 }

/-- Host-port address filter (R340). -/
structure HostFilter where
  en     : Bool := false
  vidAny : Bool := true
  keeper : Bool := false
  pound  : Nat := 0
  ring   : Nat := 0
  vid    : Nat := 0
  mac    : Nat := 0
  bad    : Bool := false        -- disabled by TABLE_ECC until reloaded
  deriving DecidableEq, Repr
def hostFilter0 (_ : Nat) : HostFilter := {}

/-- A transmit frame whose completion is due (R346). -/
structure TxDone where
  id     : Nat
  tag    : Nat
  ndesc  : Nat
  status : Option Nat := none
  sec    : Nat := 0
  ns     : Nat := 0
  gone   : Bool := false        -- a descriptor the device gave up (R406): the head passes it, nothing is written
  deriving DecidableEq, Repr

/-- Ring record of a pound's packet ring (R341), with the descriptors the host has posted and the device has
not used, and what the device has written back: the descriptor and the buffer of each slot. -/
structure HostRing where
  en      : Bool := false
  scatter : Bool := true
  truncOk : Bool := false
  discards : Nat := 0
  rep     : Bool := false       -- PORT_RX_DISCARD raised since `discards` was read
  posted  : List Desc := []
  cur     : List Desc := []     -- fetched descriptors of a frame whose EOP is not posted (R345)
  done    : List TxDone := []
  nextId  : Nat := 0
  back    : Tbl (List Byte) := []
  bufs    : Tbl (List Byte) := []
  deriving DecidableEq, Repr
def hostRing0 (_ : Nat) : HostRing := {}
def slotBytes0 (_ : Nat) : List Byte := []

/-- SA record (R349). -/
structure Sa where
  en      : Bool := false
  dir     : Bool := false
  an      : Nat := 0
  revoked : Bool := false
  exhausted : Bool := false
  port    : Nat := 0
  key     : Nat := 0
  sci     : Nat := 0
  nextPn  : Nat := 1
  window  : Nat := 0
  frames  : Nat := 0
  bad     : Nat := 0
  octets  : Nat := 0
  warned  : Bool := false       -- MACSEC_PN raised for passing `pn_warn`
  deriving DecidableEq, Repr
def sa0 (_ : Nat) : Sa := {}

/-- SecY record (R349). -/
structure SecY where
  validate : Nat := 2
  replay   : Bool := true
  sci      : Bool := true
  encrypt  : Bool := true
  bypass   : Bool := true
  encAn    : Nat := 0
  pound    : Nat := 0
  ring     : Nat := 0
  pnWarn   : Nat := 0xC0000000
  deriving DecidableEq, Repr
def secy0 (_ : Nat) : SecY := {}

/-- SecTAG of a received frame and the outcome of the cipher over it (R352). `raw` is the frame as it came,
SecTAG and ICV included. -/
structure SecTag where
  sci       : Option Nat
  an        : Nat
  pn        : Nat
  encrypted : Bool
  icvOk     : Bool
  raw       : EthFrame
  deriving DecidableEq, Repr

/-! ### Basin -/

/-- Switch port record (R362). -/
structure SwPort where
  pvid   : Nat := 1
  defPcp : Nat := 0
  strict : Bool := true
  pcpTc  : Nat := 0x00FAC688
  guard  : Bool := true
  floodUc : Bool := false
  floodMc : Bool := true
  ecnEn  : Bool := true
  deriving DecidableEq, Repr
def swPort0 (_ : Nat) : SwPort := {}

/-- VLAN entry (R362). -/
structure Vlan where
  member : Nat := 0
  untag  : Nat := 0
  bad    : Bool := false
  deriving DecidableEq, Repr
def vlan0 (v : Nat) : Vlan := if v = 1 then { member := 0xFFFF, untag := 0x3FFF } else {}

/-- Forwarding entry (R363). -/
structure Fdb where
  kind   : Nat := 0
  drop   : Bool := false
  prioEn : Bool := false
  prio   : Nat := 0
  stream : Nat := 0
  mask   : Nat := 0
  vid    : Nat := 0
  mac    : Nat := 0
  inMask : Nat := 0
  bad    : Bool := false
  deriving DecidableEq, Repr
def fdb0 (_ : Nat) : Fdb := {}

/-- Egress queue (R374, R375). Credit in 10^-6 bit. -/
structure Queue where
  cbs    : Bool := false
  be     : Bool := false
  qMin   : Nat := 16
  qMax   : Nat := 2048
  markTh : Nat := 512
  dropTh : Nat := 1024
  slope  : Nat := 0
  maxRes : Nat := 100000
  ovfMax : Nat := 0
  credit : Int := 0
  credAt : Nat := 0
  copies : List Copy := []
  counters : Tbl Nat := []
  dropRep : Bool := false
  agedRep : Bool := false
  deriving DecidableEq, Repr
/-- Reset record of queue 8 × port + class: classes 0 and 1 are best-effort. -/
def queue0 (q : Nat) : Queue := if q % 8 < 2 then { be := true } else {}

/-- A gate list as set (R377). -/
structure GateList where
  en    : Bool := false
  mul   : Bool := false
  n     : Nat := 0              -- n − 1
  count : Nat := 1
  gates : Tbl Nat := []         -- per entry
  ivals : Tbl Nat := []
  deriving DecidableEq, Repr
def gates0 (_ : Nat) : Nat := 0xFF

/-- Gate list of a port: as set, as in force, and where it stands (R377, R378). -/
structure Gate where
  set   : GateList := {}
  live  : GateList := {}
  idx   : Nat := 0
  since : Int := 0              -- counter at the start of the present entry
  operCycle : Nat := 0
  deriving DecidableEq, Repr
def gate0 (_ : Nat) : Gate := {}

/-- A frame on its way to admission (R360): VID, priority, stream and destinations. -/
structure Routed where
  fr    : NetFrame := {}
  vid   : Nat := 1
  pcp   : Nat := 0
  mask  : Nat := 0
  drop  : Bool := false         -- an FDB entry drops it (R363)
  deriving DecidableEq, Repr

/-- A frame held by a resequencer (R385). -/
structure Held where
  seq : Nat
  at_ : Nat                      -- counter when it was held
  r   : Routed
  deriving DecidableEq, Repr

/-- Stream context (R380-R385). Tokens in 10^-6 bit. -/
structure Stream where
  en       : Bool := false
  sduBlock : Bool := false
  blocked  : Bool := false
  meterEn  : Bool := false
  dropYellow : Bool := false
  redLatch : Bool := false
  redLatched : Bool := false
  recover  : Bool := false
  gen      : Bool := false
  popRtag  : Bool := true
  takeNoSeq : Bool := false
  reseq    : Bool := false
  maxSdu   : Nat := 2304
  cir      : Nat := 0
  cbs      : Nat := 0
  eir      : Nat := 0
  ebs      : Nat := 0
  histLen  : Nat := 8
  depth    : Nat := 4
  resetMs  : Nat := 100
  wait     : Nat := 200
  genSeq   : Nat := 0
  recSeq   : Nat := 0
  takeAny  : Bool := true
  hist     : Nat := 0
  cTok     : Nat := 0
  eTok     : Nat := 0
  filled   : Nat := 0
  next     : Option Nat := none   -- number the resequencer releases next; none after a reset
  held     : List Held := []      -- in order of arrival
  counters : Tbl Nat := []
  redRep   : Bool := false
  rogueRep : Bool := false
  deriving DecidableEq, Repr
def stream0 (_ : Nat) : Stream := {}

/-- Ethernet ports and Basin. -/
structure Net where
  ports    : Tbl Port := []
  counters : Tbl Nat := []       -- 32 × port + index (R347)
  filters  : Tbl HostFilter := []
  rings    : Tbl HostRing := []  -- 8 × pound + ring
  sas      : Tbl Sa := []
  secys    : Tbl SecY := []
  toBasin  : List NetFrame := [] -- frames held whole, in order of arrival (R384)
  nextFid  : Nat := 0
  loaded   : Bool := false       -- the chart's tables are loaded (R361)
  sw       : Tbl SwPort := []
  vlans    : Tbl Vlan := []
  fdb      : Tbl Fdb := []
  queues   : Tbl Queue := []     -- 8 × port + class
  gatesT   : Tbl Gate := []
  streams  : Tbl Stream := []
  hostq    : Tbl (List Copy) := []  -- port 12: one queue per pound (R386); 32 the Lockkeeper
  turn     : Nat := 0            -- pound whose queue is served
  deficit  : Tbl Nat := []
  hostMaxRes : Nat := 100000
  globals  : Tbl Nat := []       -- global counters (R387)
  ovfFull  : Bool := false       -- overflow reported full
  ovfOn    : Bool := false       -- overflow reported ready (R372)
  keeperRx : List NetFrame := [] -- frames delivered to the Lockkeeper
  deriving DecidableEq, Repr
def hostq0 (_ : Nat) : List Copy := []

end Sys2Proof.Machine
end

