-- ==== Sys2Proof/Machine/RegsField.lean ====
section
/-! DEFINITION. Field inputs and outputs (chapter "Field inputs and outputs"). -/
namespace Sys2Proof.Machine

/-- Digital input (R194-R201). Voltages of the record in mV. -/
structure Di where
  thr     : Nat := 20
  hyst    : Nat := 4
  wet     : Nat := 3
  wetDown : Bool := false
  clsEn   : Bool := false
  invert  : Bool := false
  wakeEn  : Bool := false
  limit   : Nat := 8
  pulse   : Nat := 10
  faultVal : Nat := 2
  t1      : Nat := 650
  t2      : Nat := 2950
  t3      : Nat := 6050
  t4      : Nat := 8200
  q       : Bool := false
  cls     : Nat := 7
  count   : Nat := 0
  changed : Nat := 0
  vLast   : Nat := 0
  level   : Bool := false       -- comparator output, for the hysteresis
  cand    : Nat := 7            -- pending candidate class and the samples it has been assigned
  candN   : Nat := 0
  wakeRef : Bool := false       -- q at the instant of arming (R201)
  wakeN   : Nat := 0            -- consecutive polls that differ
  deriving DecidableEq, Repr
def di0 (_ : Nat) : Di := {}

/-- Field output (R205-R212). -/
structure Fo where
  demand  : Nat := 0
  safe    : Nat := 0
  keep    : Bool := false
  offDiag : Bool := false
  silence : Nat := 4
  out     : Bool := false
  readback : Bool := false
  silent  : Bool := false
  located : Bool := false
  faultOff : Bool := false
  current : Nat := 0            -- µA
  changed : Nat := 0
  thermal : Bool := false       -- in thermal shutdown
  cond    : Bool := false       -- a condition of R206 holds
  offAt   : Nat := 0            -- counter when the output last turned off (R206)
  held    : Bool := false       -- state at the expiry (R209, HOLD)
  armed   : Bool := false       -- refreshed since the keeper domain left reset (R209)
  fresh   : Bool := false       -- refreshed since the expiry
  last    : Nat := 0            -- cycle of the last refresh
  expiry  : Nat := 0            -- the same, latched at the expiry
  deriving DecidableEq, Repr
def fo0 (_ : Nat) : Fo := {}

/-- A location run (R207): the set under test, the sets that follow, the outputs found. -/
structure FoRun where
  cur   : Nat
  todo  : List Nat := []
  found : Nat := 0
  deriving DecidableEq, Repr

/-- A bank of field outputs (R206-R208). -/
structure FoBank where
  auto   : Bool := true
  fault  : Bool := false        -- the sampled bank bit
  cycle  : Nat := 0
  run    : Option FoRun := none
  deriving DecidableEq, Repr
def bank0 (_ : Nat) : FoBank := {}

/-- Analogue input (R213-R216). -/
structure Ai where
  ref    : Nat := 0
  bias   : Nat := 0
  conv   : Nat := 0
  tab    : Nat := 0
  lo     : Nat := 41
  hi     : Nat := 4054
  code   : Nat := 0
  value  : Int := 0
  range  : Bool := false
  refBad : Bool := false
  cycle  : Nat := 0
  run    : Nat := 0             -- consecutive cycles on the other side of the limits
  band   : Bool := false        -- code outside [lo, hi] by the 4-cycle count
  deriving DecidableEq, Repr
def ai0 (_ : Nat) : Ai := {}

/-- Sensor supply (R217). -/
structure Sup where
  en      : Bool := false
  standby : Bool := false
  tRetry  : Nat := 10
  on      : Bool := false
  limit   : Bool := false
  short   : Bool := false
  thermal : Bool := false
  latched : Bool := false
  retries : Nat := 0
  wait    : Bool := false       -- turned off and waiting for its retry (R217)
  v       : Nat := 0            -- µV
  i       : Nat := 0            -- µA
  bad     : Bool := true        -- off or faulted at some instant of the present cycle
  badWas  : Bool := true        -- the same of the cycle sampled
  deriving DecidableEq, Repr
def sup0 (_ : Nat) : Sup := {}

/-- Reset record of a temperature table: 32 points of zero (R215). -/
def temp0 (_ : Nat) : List (Nat × Int) := List.replicate 32 (0, 0)

/-- The field I/O block. -/
structure Fio where
  dis     : Tbl Di := []
  wakePoll : Nat := 50
  wakeConf : Nat := 2
  fos     : Tbl Fo := []
  banks   : Tbl FoBank := []
  ais     : Tbl Ai := []
  sups    : Tbl Sup := []
  temps   : Tbl (List (Nat × Int)) := []
  clsHold : Bool := false       -- R200
  clsFrom : Nat := 0            -- counter at the end of the last hold: earlier samples do not count (R200)
  di      : List (List Nat) := []   -- samples collected in the fill phase
  ai      : List (List Nat) := []
  at0     : Nat := 0            -- counter at the start of the present cycle
  at0Was  : Nat := 0            -- the same of the cycle sampled
  start   : Nat := 0            -- working time in ns at the start of the present cycle
  startWas : Nat := 0           -- the same of the cycle sampled
  pWas    : Nat := 250000       -- P of the cycle sampled
  pNow    : Nat := 250000
  deriving DecidableEq, Repr

end Sys2Proof.Machine
end

