-- ==== Sys2Proof/Machine/RegsTowpath.lean ====
section
/-! DEFINITION. The Towpath (chapter "Towpath operation"). -/
namespace Sys2Proof.Machine

/-- A Towpath table entry (R227). -/
structure TpEntry where
  target : Nat := 0
  causes : Nat := 0
  inA    : Nat := 0x7F
  invA   : Bool := false
  inB    : Nat := 0x7F
  invB   : Bool := false
  op     : Nat := 0
  blink  : Nat := 0
  value  : Nat := 0
  duty   : Nat := 0xFF
  deriving DecidableEq, Repr

/-- A Towpath table (R227); eMRAM holds it as the bytes of a copy (R226). -/
structure TpTable where
  sequence   : Nat := 0
  limpFilter : Nat := 1000
  pulldown   : Nat := 0
  blinks     : List (Nat × Nat) := [(167, 84), (167, 84), (167, 84), (167, 84)]
  dflt       : Tbl Nat := []      -- 0 OFF, 1 ON, 2 HOLD, 3 POUND
  count      : Nat := 0           -- entry_count
  entries    : List TpEntry := []
  deriving DecidableEq, Repr

/-- What the Towpath decides for a target: drive it with a value and an on-fraction, hold the state at
engagement, or leave it to its pound (R224, R227). -/
inductive TpOut
  | drive (value duty : Nat)
  | hold
  | pound
  deriving DecidableEq, Repr
def tpOut0 (_ : Nat) : TpOut := .drive 0 0xFF

/-- Progress of the hand-back (R233). -/
inductive HandBack | none | found | folding | switching
  deriving DecidableEq, Repr

/-- The Towpath (R221-R235). -/
structure Tp where
  causes    : Nat := 1                 -- R221; START after reset
  governs   : Bool := true             -- the outputs follow the Towpath
  copy      : Nat := 0
  noTable   : Bool := false
  table     : TpTable := {}            -- copy in use
  badA      : Bool := false            -- eMRAM delivers copy A with errors (R226, R553)
  badB      : Bool := false
  adopt     : Bool := false            -- a new copy waits for a step without engagement (R227)
  results   : Tbl TpOut := []          -- evaluated for the coming step (R224)
  evaluated : Bool := false
  applied   : Tbl TpOut := []          -- in force at the outputs
  fresh     : Bool := false            -- engaged since the state for HOLD was last taken
  held      : Tbl Nat := []            -- value of each target at engagement (HOLD)
  heldDuty  : Tbl Nat := []            -- its duty_now
  stepAt    : Nat := 0                 -- wake block time at the last RC step (R223)
  unkicked  : Nat := 0                 -- boundaries since the Lockkeeper last kicked the watch (R222), saturating
  rcSteps   : Nat := 0                 -- steps since engagement (R225)
  handBack  : HandBack := .none
  hbCycle   : Nat := 0                 -- m of R233
  waiting   : List Nat := []           -- channels that wait for their switch-on (R233)
  bridgeOut : Tbl Nat := []            -- value after a stall or pinch, until it changes (R230): value + 1
  engagedCycle : Nat := 0
  isoTime   : Nat := 500               -- isolation_time, ms (R221)
  isoTowpath : Bool := false           -- isolated_rule TOWPATH
  isolated  : Bool := false            -- isolation in force (R300)
  centralMsg : Bool := false           -- a message from a central pound has been accepted
  deriving DecidableEq, Repr

end Sys2Proof.Machine
end

