-- ==== Sys2Proof/Machine/RegsPwr.lean ====
section
/-! DEFINITION. Supplies, performance levels, power states, wake reasons, starts, images and charts
(chapters "Supplies, performance levels and sleep", "Start-up, images and updates"). -/
namespace Sys2Proof.Machine

/-- A change of level in progress (R576, R577). -/
structure Avs where
  target   : Nat
  attempts : Nat := 1
  restore  : Bool := false       -- the return of VCORE at PL0 comes first (R581)
  low      : Bool := false       -- PL0 is confirmed and the level is being restored
  req      : Option Req := none  -- the SET that waits for its response (R579)
  deriving DecidableEq, Repr

/-- A power-state transition in progress (R581, R582). -/
structure Trans where
  target  : Nat
  auto    : Bool := false        -- by R583
  claimed : Bool := false        -- waits for a VCORE claim (R533)
  deriving DecidableEq, Repr

/-- An AWAKE input (R587). -/
structure Awake where
  thr    : Nat := 34
  hyst   : Nat := 4
  arm    : Bool := true
  above  : Bool := false
  filter : Nat := 10
  vIn    : Nat := 0
  deriving DecidableEq, Repr
def awake0 (_ : Nat) : Awake := {}

/-- Settings of the wake detectors as last armed by the Lockkeeper (R287): digital inputs, LIN channels, AWAKE inputs
and the wake timer. A CAN channel keeps its own. -/
structure ArmSet where
  dis    : Tbl Di := []
  poll   : Nat := 50
  conf   : Nat := 2
  lins   : List Nat := List.range 8
  awakes : Tbl Awake := []
  timer  : Nat := 0
  deriving DecidableEq, Repr

/-- Supplies and power states (R574-R587). -/
structure Pwr where
  pwrEn    : Bool := false       -- PWR_EN
  vcoreEn  : Bool := false       -- VCORE_EN
  keeper   : Bool := false       -- the keeper domain is out of reset
  pll      : Bool := false       -- the keeper domain runs on the PLLs
  state    : Nat := 0            -- R587
  want     : Nat := 0            -- state commanded, which returns when a forced cut clears (R583)
  forced   : Bool := false
  auto     : Bool := false
  level    : Nat := 0
  clk      : Nat := 0            -- level of the core clock (R577)
  startLevel : Nat := 0          -- the chart's start level (R586)
  change   : Option Avs := none
  trans    : Option Trans := none
  hold     : Nat := 2000
  wakeMask : Nat := 0x007F
  vcoreMv  : Nat := 0
  timer    : Nat := 0
  avsFails : Nat := 0
  awakes   : Tbl Awake := []
  armed    : Bool := false       -- wake sources armed for SLEEP (R582)
  lastArm  : ArmSet := {}        -- settings last armed (R287)
  latched  : Option (Nat × Nat) := none   -- wake latched since the arming: source and detail
  source   : Nat := 0            -- wake record
  sleepPath : Bool := false
  detail   : Nat := 0
  sleepS   : Nat := 0
  starts   : Nat := 0
  cause    : Option (Nat × Nat) := some (0, 0)  -- a start has been caused: source and detail (R586)
  slept    : Bool := false       -- in SLEEP
  age      : Nat := 0            -- ns the wake block has counted, whatever its domain sleeps (the model's own; R286)
  sleptAt  : Nat := 0            -- `age` at SLEEP entry
  beat     : Bool := false       -- the heartbeat is present (R285)
  beatAt   : Nat := 0            -- `age` at the last heartbeat
  deafAt   : Nat := 0            -- `age` since which firmware has been unresponsive, while it is (R285, R287)
  reasonAt : Nat := 0            -- `age` at which LIMP_N or an AWAKE input last ceased to be a wake reason (R287)
  quietAt  : Option Nat := none  -- counter at the boundary since which the conditions of R583 have held
  lastWake : Option Nat := none  -- `age` at the last registered wake (R286)
  vmonAt   : Option Nat := none  -- `age` at the last VCORE_MON detection (R555)
  vcoreBar : Bool := false       -- VCORE stays off until the next start (R555)
  rails    : List Nat := []      -- rails outside their range: 0 VKEEP, 1 VCORE, 2 VIO18, 3 VIO33, 4 V5
  deriving DecidableEq, Repr

/-- Boot record (R598); the model keeps the copy that stands. -/
structure Boot where
  active   : Nat := 0
  trial    : Bool := false
  chart    : Nat := 0
  chartTrial : Bool := false
  triesA   : Nat := 0
  triesB   : Nat := 0
  seq      : Nat := 0
  minSec   : Nat := 0
  backoff  : Nat := 0
  lastFail : Nat := 0
  trialS   : Nat := 0
  starts   : Nat := 0
  fails    : Nat := 0
  deriving DecidableEq, Repr

/-- What the header of an image or chart says (R595, R608). -/
structure ImgHead where
  keySel   : Nat := 0
  retire3  : Bool := false
  retire4  : Bool := false
  install  : Bool := false
  recovery : Bool := false
  major    : Nat := 0
  minor    : Nat := 0
  patch    : Nat := 0
  secVer   : Nat := 0
  ltMajor  : Nat := 0xFF
  ltMinor  : Nat := 0
  handoff  : Nat := 0
  sluice   : Nat := 0
  chMajor  : Nat := 0
  chMinor  : Nat := 0
  migrate  : Nat := 0
  deriving DecidableEq, Repr

/-- An image bank: 0 A, 1 B, 2 the xSPI recovery image (R599). -/
structure Bank where
  state  : Nat := 0
  fail   : Nat := 0
  cycle  : Nat := 0
  deriving DecidableEq, Repr
def bankImg0 (_ : Nat) : Bank := {}

/-- Chart-held parameters that stand in no record: which, as the chapters name them (R13, R594). -/
inductive ChartParam
  | ddrMib | xspiMib | overflowMib | ppsOn | priority1 | clockClass | externalPorts
  | isolationTime | isolatedTowpath | typeXl | typeStatus | nmGroup | startLevel
  | ifaceOn | ifaceV6 | ifaceAddr | ifaceVid | ifacePort | ethKey | destAddr | destPort
  | bargeId | swapDrift
  | budgetLimit | budgetPeak | budgetTau | budgetMargin | budgetRestore | fullCool | startMargin
  | clusterLimit | clusterHyst | spiLines
  | gptpRole | gptpTwoStep | gptpLogSync | gptpLogPdelay | gptpPdelay | gptpTimeout
  | gptpNrrManaged | gptpNrr | gptpDelayManaged | gptpDelay | gptpThresh
  deriving DecidableEq, Repr

/-- What a chart says, item by item: fields of a record (bit position and code), the Towpath table, or a
parameter with its index and value. How a chart's blocks encode them is not the spec's (log entry 60). -/
inductive ChartItem
  | record (cls inst part : Nat) (fields : List (Nat × Nat))
  | towpath (t : TpTable)
  | param (p : ChartParam) (index value : Nat)
  | barge (a : Nat) (i : ChartItem)     -- an item of the part that goes to barge `a` (R517)
  | bargeTable (a : Nat) (t : TpTable)  -- its Towpath table
  deriving DecidableEq, Repr

/-- A chart slot (R608, R609). -/
structure Slot where
  state  : Nat := 0               -- as a bank; 3 in force
  head   : ImgHead := {}
  items  : List ChartItem := []   -- its records
  digest : Bool := false          -- a migrated chart, which the Lighthouse's record of its digest vouches for (R610)
  cycle  : Nat := 0
  deriving DecidableEq, Repr
def slot0 (_ : Nat) : Slot := {}

/-- An activation in progress (R600-R607). -/
structure Activation where
  bank     : Nat
  mode     : Nat                  -- 0 RESTART, 1 LOCK_THROUGH, 2 HIGH_WATER
  trialS   : Nat
  time     : Nat := 0             -- T in ns of working time
  req      : Option Req := none
  verb     : Nat := 3             -- action to answer: 3 ACTIVATE, 4 ROLLBACK
  revert   : Bool := false        -- it ends a trial by reverting
  prepared : Bool := false
  handed   : Bool := false        -- the handover has happened and awaits its ready flag
  moves    : Nat := 0             -- postponements (R604)
  named    : Bool := false        -- a boundary has been named for the tow (R607)
  confirm  : List Nat := []       -- barges that have yet to confirm (R607)
  due      : Bool := false        -- the present cycle is n of R604
  handoff  : Bool := false        -- its hand-off block is written
  deriving DecidableEq, Repr

/-- A chart commit that waits for its instant (R609). -/
structure Commit where
  slot   : Nat
  mode   : Nat                    -- 0 NEXT_START, 1 BOUNDARY, 2 HIGH_WATER
  cycles : Nat := 0               -- boundaries still to pass
  time   : Nat := 0
  req    : Option Req := none
  verb   : Nat := 2
  deriving DecidableEq, Repr

/-- Starts, images and charts. -/
structure Img where
  boot     : Boot := {}
  banks    : Tbl Bank := []
  slots    : Tbl Slot := []
  running  : Option Nat := none   -- bank the firmware runs from; 2 recovery
  act      : Option Activation := none
  commit   : Option Commit := none
  rollback : Bool := false        -- the image may go back after a commit (R602)
  shut     : Bool := false        -- commands wait unread for the end of a handover (R604)
  first    : Nat := 0             -- first cycle under the image that runs (R612)
  alive    : Bool := false        -- the first alive word since the start
  clean    : Bool := false        -- a cycle has ended without overrun since the start
  held     : Bool := false        -- a start failed: held in reset (R592)
  heldAt   : Nat := 0             -- `Pwr.age` at that failure (R593)
  trialNs  : Nat := 0             -- running time of the trial within its present second, ns (R602)
  recovery : Bool := false
  lkReset  : Bool := false        -- a Lockkeeper restart runs (R591)
  chartVer : Nat × Nat := (0, 0)  -- version of the chart in force
  chartOn  : Bool := false        -- a chart is in force
  deriving DecidableEq, Repr

end Sys2Proof.Machine
end

