-- ==== Sys2Proof/Machine/RegsTow.lean ====
section
/-! DEFINITION. The state of the towline and of the tow (chapter "Tows and the towline"). -/
namespace Sys2Proof.Machine

/-- BEAT payload (R503). `corr` in ns × 2^-16. -/
structure Beat where
  op       : Nat := 0           -- 0 BEAT, 1 ENUM, 2 ENUM_ACK, 3 ASSIGN, 4 TOPO, 5 CREDIT
  up       : Bool := false
  stranded : Bool := false
  ready    : Bool := false
  last     : Bool := false      -- `end`
  aux1     : Nat := 0
  aux2     : Nat := 0
  aux3     : Nat := 0
  cycle    : Nat := 0
  origin   : Nat := 0
  corr     : Int := 0
  txTime   : Nat := 0
  echoTx   : Nat := 0
  echoRx   : Nat := 0
  identity : Nat := 0
  deriving DecidableEq, Repr

/-- What a towline frame carries (R498). -/
inductive TowBody
  | eth (tc : Nat) (x : NetFrame)                 -- DATA, kind 0
  | record (route : Nat) (a : AqFrame)            -- DATA, kind 1
  | cmd (cls verb : Nat) (r : Req)                -- FAVAL or POST: a command
  | rsp (m : Msg)                                 -- FAVAL: a response
  | note (e : Evt)
  | late (tag opcode handle status cycle : Nat)
  | block (k n : Nat)                             -- POST: 2 KiB frame k of the n of the barge image set (R517)
  | chart (l : List ChartItem) (t : TpTable)      -- FAVAL: a barge's part of the chart, its Towpath table
  | beat (b : Beat)
  deriving DecidableEq, Repr

/-- A towline frame (R498). -/
structure TowFrame where
  vc      : Nat := 0
  bcast   : Bool := false
  reroute : Bool := false
  src     : Nat := 0
  dst     : Nat := 0
  seq     : Nat := 0
  hops    : Nat := 0
  crVc    : Nat := 0
  crCells : Nat := 0
  via     : Option Nat := none  -- the port it came in on, when this device forwards it
  bad     : Bool := false       -- an image block that fails its check here (R517)
  body    : TowBody
  deriving DecidableEq, Repr

/-- A block of the line code (R495): its sync header and its 64 scrambled bits, the first sent lowest. -/
structure LineBlock where
  sync : Nat
  bits : Nat
  deriving DecidableEq, Repr

/-- A towline port: 0 TA, 1 TB (R496-R502, R518, R519). -/
structure TowPort where
  en       : Bool := true
  link     : Nat := 0           -- 0 down, 1 up, 2 held, 3 training
  blocked  : Bool := false
  samples  : List Int := []     -- last 16 delay samples, ns (R509)
  linkCycle : Nat := 0
  counters : Tbl Nat := []
  credit   : Tbl Nat := []      -- cells the peer has granted, per VC
  owed     : Tbl Nat := []      -- cells to return, per VC
  reserve  : Nat := 0           -- cells of ours in the peer's reserve (R502)
  backedOff : Bool := false     -- the waiting frame has been counted as a back-off
  wait     : List TowFrame := []  -- frames that wait for credit, oldest first
  last     : Option TowFrame := none  -- the last frame put on the line
  line     : List LineBlock := []  -- its blocks, a SKIP before them included (R495)
  scrambler : Nat := 0          -- the last 58 bits sent, the newest lowest
  sinceSkip : Nat := 0          -- blocks sent since the last SKIP
  lineEnd  : Nat := 0           -- counter at the end of the last block
  gaps     : Nat := 0           -- idle gaps between frames (the model's count)
  echoTx   : Nat := 0           -- of the last BEAT received
  echoRx   : Nat := 0
  edge     : Option Nat := none -- last device reachable this way after a break (R507)
  crcFrom  : Nat := 0           -- counter at the start of the second in which trailer failures are counted (R553)
  crcN     : Nat := 0
  healed   : Bool := false      -- the broken link is up again and waits for `revert_hold`
  deriving DecidableEq, Repr
def towPort0 (_ : Nat) : TowPort := {}

/-- A command the tug has relayed (R512, R513). -/
structure Relay where
  tag    : Nat                  -- relay tag
  cls    : Nat
  verb   : Nat
  req    : Req                  -- as the pound sent it
  at_    : Nat                  -- counter when it left
  sub    : Option Nat := none   -- subscription recorded at the tug for it (R514)
  own    : Bool := false        -- a command of the tug itself (RESYNC)
  mute   : Bool := false        -- the sender was reset since: the response is discarded (R457)
  deriving DecidableEq, Repr

/-- A posted command relayed to a barge (R514). -/
structure Posted where
  tag    : Nat
  cls    : Nat
  verb   : Nat
  req    : Req
  cycle  : Nat
  deriving DecidableEq, Repr

/-- A barge as the tug knows it (R505, R518). -/
structure Barge where
  state    : Nat := 0
  identity : Nat := 0
  expect   : Nat := 0           -- identity the chart declares, 0 any
  evtDropped : Nat := 0
  stateCycle : Nat := 0
  loads    : Nat := 0
  late     : Nat := 0
  timeouts : Nat := 0
  nextTag  : Nat := 0
  out      : List Relay := []
  posted   : List Posted := []  -- at most 256, newest last
  beats    : Nat := 0           -- consecutive BEATs since they returned (R516)
  missed   : Nat := 0           -- boundaries since its last BEAT (R515)
  lost     : Bool := false      -- its link went down during the load (R522)
  tries    : Tbl Nat := []      -- times a 4 KiB block of the load has been sent again
  resync   : Option (Option Req) := none  -- RESYNC in progress with the command that waits
  leaveAt  : Option Nat := none -- cycle whose boundary ends stranding (R516)
  deriving DecidableEq, Repr
def barge0 (_ : Nat) : Barge := {}

/-- Resequencer of a source and virtual channel (R508). -/
structure TowReseq where
  next : Option Nat := none
  held : List TowFrame := []
  deriving DecidableEq, Repr
def towReseq0 (_ : Nat) : TowReseq := {}

/-- The tow (R493-R522). -/
structure Tow where
  topology  : Nat := 0          -- 0 none, 1 chain, 2 ring, 3 broken ring
  enumerating : Bool := false
  autoResync : Bool := false
  vc1Min    : Nat := 4
  expected  : Nat := 0
  found     : Nat := 0
  taCount   : Nat := 0
  strandHold : Nat := 500
  relayTimeout : Nat := 10
  revertHold : Nat := 1000
  enumCycle : Nat := 0
  ports     : Tbl TowPort := []
  barges    : Tbl Barge := []
  seqs      : Tbl Nat := []     -- next sequence number, 4 × destination + VC
  reseqs    : Tbl TowReseq := []  -- 4 × source + VC
  ringHops  : Nat := 0          -- links the tug's own TA ENUM crossed to its TB; 0 not seen
  tbSent    : Bool := false     -- ENUM has left on TB
  acks      : List (Nat × Nat × Nat × Bool) := []  -- ENUM_ACKs: tug port, hops, identity, end
  upPort    : Nat := 0          -- barge: port towards the tug
  upHops    : Nat := 0          -- barge: hops at the ENUM
  upSide    : Bool := false     -- barge: the ENUM left the tug on TB
  answered  : Bool := false
  stranded  : Bool := false
  missed    : Nat := 0          -- barge: boundaries since the last tug BEAT
  holdOn    : Bool := false     -- `strand_hold` runs
  evtDropped : Nat := 0
  diffs     : Nat := 0          -- consecutive tug BEATs with another cycle number (R511)
  adopt     : Option Nat := none -- number to adopt at the next boundary
  leaveAt   : Option Nat := none -- barge: cycle at whose boundary stranding ends
  loaded    : Bool := false     -- barge: its part of the chart and its table have come (R517)
  setSize   : Nat := 0          -- barge: frames of the image set that its tug sends; 0 none has come
  gotBlocks : List Nat := []    -- barge: frames of the image set stored
  badBlocks : List Nat := []    -- barge: blocks whose check failed
  deriving DecidableEq, Repr

end Sys2Proof.Machine
end

