-- ==== Sys2Proof/Syntax.lean ====
section
/-! DEFINITION. The commands the device takes from outside: one constructor per row of the command table, with
what the outside supplies as its operands (a unit number, a measured value, a frame, a Faval request). Where a
summary names no rule of its own the rule stands in front of it. -/
namespace Sys2Proof

open Machine

/-- A command of the device. -/
inductive Instr
  /-- R41: At the start of each lock cycle, every input, current and temperature is sampled and the values of
  the previous cycle are captured. -/
  | fillPhase (x : Samples)
  /-- R41: The Sluice runs its models, the input filters run and the Aqueduct prepares its schedule. -/
  | levelPhase
  /-- R42: The Sluice, the field I/O filters or the Aqueduct scheduler signals completion of its level-phase
  work. -/
  | levelCompletionSignal (k : Nat)
  /-- R43: The Lockkeeper folds accepted cycle-bound commands into the shadow state up to the fold capacity. -/
  | applyPhase
  /-- R45: At 80 % of P, acceptances start counting for the next boundary and level completion is judged. -/
  | cutoff
  /-- R41: The Lockkeeper transfers the sealed shadow state to the boundary registers of each block. -/
  | sealingWindow (handoff : Bool)
  /-- R48: At 2 µs before the boundary, sealing not finished makes the cycle an overrun. -/
  | sealingDeadline
  /-- R210: In a stretched cycle, the Lockkeeper refreshes the silence timers again 10–2 µs before the stretched
  boundary. -/
  | stretchRefresh
  /-- R41: Sealed outputs, Paddle duties, field outputs, schedules, gate lists and the batch flush take effect
  at one instant, and the next cycle starts. -/
  | boundary (interval : Bool)
  /-- R59: CYCLE SET schedules, cancels or replaces a change of the lock-cycle period. -/
  | cycleSet (r : Req)
  /-- R66: TIME SET sets the working clock, a domain, the servo parameters, a TIDE_OUT or a TIDE_IN. -/
  | timeSet (r : Req)
  /-- R438: A GET of a TIDE_IN returns and removes the waiting captures and re-arms the overflow event. -/
  | tideInRead (r : Req)
  /-- R438: TIME ACT CLEAR_TS_DROP clears a timestamp queue's drop count and re-arms TS_OVERFLOW. -/
  | clearTsDrop (r : Req)
  /-- R72: A write of 1 captures counter, working clock, cycle, in-cycle time and domain values. -/
  | tsnapTake (p : Nat) (bit : Bool)
  /-- R77: An accepted Sync gives an offset sample to the servo, which slews, steps or discards it. -/
  | syncReceived (i : Nat) (e : Int) (tau : Nat) (nrr : Int)
  /-- R78: Missing Syncs for syncReceiptTimeout move the servo to HOLDOVER. -/
  | syncReceiptTimeout (i : Nat)
  /-- R78: The holdover limit expires and the servo enters FREE_RUN. -/
  | holdoverLimit (i : Nat)
  /-- R74: At each sync interval a grandmaster or relay port sends Sync. -/
  | gptpSyncTransmit (p d : Nat)
  /-- R74: At each Pdelay interval a port sends Pdelay_Req. -/
  | pdelayReqTransmit (p : Nat)
  /-- R74: A Pdelay message is taken and the link delay and rate ratio are updated. -/
  | pdelayMessageReceived (p : Nat) (isReq : Bool) (seq t1 t2 t3 t4 : Nat)
  /-- R84: The Lockkeeper takes a gPTP two-step entry and sends Follow_Up or Pdelay_Resp_Follow_Up. -/
  | followUp (p : Nat)
  /-- R89: A scheduled TIDE_OUT rising edge fires. -/
  | tideOutEdge (i : Nat)
  /-- R90: A TIDE_OUT pulse ends, and a ONCE output returns to OFF. -/
  | tideOutPulseEnd (i : Nat)
  /-- R92: A filtered TIDE_IN edge captures working clock, counter and edge type into the FIFO. -/
  | tideInCapture (i : Nat) (rising : Bool) (width : Nat)
  /-- R98: A group falls below V_OFF; its channels turn off within 10 µs and enter UV_OFF. -/
  | groupFallVOff (g v : Nat)
  /-- R114: A group rises through V_OFF; UV_OFF channels with demand off enter OFF. -/
  | groupRiseVOff (g v : Nat)
  /-- R98: A group falls below V_FULL and switch-ons are deferred. -/
  | groupFallVFull (g v : Nat)
  /-- R99: A group rises through V_FULL; UV_OFF channels and deferred switch-ons are restored. -/
  | groupRiseVFull (g v : Nat)
  /-- R98: A group rises above V_OV and switch-ons are deferred. -/
  | groupRiseVOv (g v : Nat)
  /-- R98: A group falls below V_OV and full function returns. -/
  | groupFallVOv (g v : Nat)
  /-- R102: A segment fails with no spare left, and the channel is derated or latched off. -/
  | segmentFailure (i g : Nat)
  /-- R103: 100 µs after opening the blocking switches, the output is judged a stuck segment or a short to
  battery. -/
  | stuckTestEnd (i v g : Nat)
  /-- R104: The inrush window ends and I_LIM and t_LIM apply. -/
  | inrushWindowEnd (i : Nat)
  /-- R105: V_OUT has stayed at V_group − 0.5 V for 2 µs and the channel enters ON. -/
  | chargeComplete (i : Nat)
  /-- R105: T_CHG is reached and the channel turns off with CHARGE_FAIL. -/
  | chargeTimeLimit (i e : Nat)
  /-- R105: E_CHG is reached and the channel turns off with CHARGE_FAIL. -/
  | chargeEnergyLimit (i e : Nat)
  /-- R106: Current crosses I_SC and the analogue trip turns the channel off within 4 µs. -/
  | shortTrip (i e : Nat) (cur : Int)
  /-- R106: Current crosses I_LIM or I_INRUSH and the channel regulates. -/
  | currentLimitOnset (i cur : Nat)
  /-- R106: Accumulated regulation time reaches t_LIM and the channel turns off with LIMIT. -/
  | limitTimerExpiry (i e : Nat) (cur : Int)
  /-- R106: The limit timer clears after 1 ms without regulation. -/
  | limitTimerClear (i : Nat)
  /-- R106: The die sensor exceeds the set threshold; the channel turns off and the latch sets. -/
  | cliffLatchSet (i e : Nat) (cur : Int)
  /-- R106: The die sensor falls below the re-arm threshold and the latch clears. -/
  | cliffLatchRearm (i : Nat)
  /-- R107: Reverse current above the rating for 100 µs turns an F or M channel off with REVERSE. -/
  | reverseTrip (i e : Nat) (cur : Int)
  /-- R107: Reverse current above 5 % for 8 cycles sets REVERSE without turning off. -/
  | reverseFlag (i : Nat)
  /-- R108: A channel below its open-load threshold for N_OL cycles sets OPEN_LOAD_ON. -/
  | openLoadOn (i : Nat)
  /-- R109: A channel off for 1 ms with diagnosis enabled or requested gets the pull-up applied. -/
  | offDiagStart (i : Nat)
  /-- R109: After 4 cycles the off-state diagnosis judges open load and stuck output. -/
  | offDiagEnd (i vPull vFree : Nat)
  /-- R114: A channel's retry delay ends and it retries, waits for the latch or cools. -/
  | retryDelayEnd (i : Nat)
  /-- R111: A channel has been ON for T_CLEAN and its retry count returns to zero. -/
  | cleanTimeElapsed (i : Nat)
  /-- R115: T_PATIENCE elapses with the cliff latch set and the channel enters LATCHED_OFF. -/
  | patienceElapsed (i : Nat)
  /-- R125: CHAN SET stages a channel's demand or protection parameters. -/
  | chanSet (r : Req)
  /-- R127: CHAN ACT RESTART takes a channel out of LATCHED_OFF. -/
  | chanRestart (r : Req)
  /-- R127: CHAN ACT CLEAR_FLAGS clears the named sticky flags. -/
  | chanClearFlags (r : Req)
  /-- R127: CHAN ACT OFF_DIAG requests one off-state diagnosis. -/
  | chanOffDiag (r : Req)
  /-- R133: An ADC fails its reference check in 2 consecutive cycles, and the spare takes over or fallback
  follows. -/
  | adcReferenceFailure (g : Nat) (spare : Bool) (err : Nat)
  /-- R133: A second disagreement confirms a sense-path fault, and the channel's current is substituted. -/
  | adcCrossCheckFailure (i : Nat)
  /-- R138: At every 4,096th boundary the Sluice writes the node state to a rotating copy. -/
  | modelStateStore
  /-- R143: The lid sensors differ by more than 8 K for 8 cycles. -/
  | lidSensorMismatch
  /-- R144: amb_host not written for host_stale; the bundle uses amb_fixed. -/
  | hostAmbientStale (b : Nat)
  /-- R142: WIRE SET writes amb_host of a bundle. -/
  | wireSet (r : Req)
  /-- R157: WIRE SUB on 0x0300 creates a telemetry subscription. -/
  | wireSub (r : Req)
  /-- R148: An engaged I²t integrator reaches K and trips its channel with cause FALLBACK. -/
  | fallbackTrip (i e : Nat) (cur : Int)
  /-- R150: The Sluice writes its first alive word after a silence; models reseed and fallback disengages. -/
  | sluiceResume
  /-- R155: A budget's restore hold T_RESTORE ends and one ready shed channel is restored. -/
  | budgetRestore (b : Nat)
  /-- R156: With every candidate shed, F stays over L for 2 × τ and WIRE_BUDGET_FAIL is raised. -/
  | budgetFail (b : Nat)
  /-- R168: PADDLE SET stages Paddle or spread-group settings under their commit mode. -/
  | paddleSet (r : Req)
  /-- R175: BRIDGE SET pairs, unpairs or drives a bridge, or sets its parameter record. -/
  | bridgeSet (r : Req)
  /-- R178: The BRAKE_LOW of a direction change ends and the new direction starts at the next boundary. -/
  | reversalBrakeEnd (b : Nat)
  /-- R179: Bridge current exceeds i_reg after blanking and the on-phase ends. -/
  | regulationChop (b : Nat)
  /-- R180: A ripple crossing within the gate is accepted, and pos and speed update. -/
  | rippleCrossing (b iv : Nat) (cur : Int) (exc mean : Nat)
  /-- R180: No ripple by gate_hi of the predicted interval inserts one; the fourth in a row sets RIPPLE_LOST. -/
  | rippleInsertion (b : Nat) (cur : Int)
  /-- R182: The terminal difference stays below 0.3 V for 20 ms; speed becomes 0 and counting stops. -/
  | backEmfStop (b : Nat)
  /-- R184: Low speed under load for t_stall brakes the bridge and sets STALLED. -/
  | stall (b : Nat) (cur : Int)
  /-- R186: t_pinch_brake ends and the bridge drives the opening direction. -/
  | pinchBrakeEnd (b : Nat)
  /-- R186: The t_rev_brake hold after a stall or reversal ends and the bridge goes to COAST. -/
  | brakeHoldEnd (b : Nat) (cur : Int)
  /-- R183: BRIDGE ACT SET_POS writes pos and sets POS_VALID. -/
  | bridgeSetPos (r : Req)
  /-- R189: BRIDGE ACT CLEAR clears the named sticky flags. -/
  | bridgeClear (r : Req)
  /-- R197: DIN SET stages input or DI wake settings and presets the filter counter. -/
  | dinSet (r : Req)
  /-- R201: In SLEEP the harbour master pulses and compares each armed input and counts confirmations. -/
  | diWakePoll (v : List Nat)
  /-- R200: VBAT_B falls below 9.0 V; classification holds and pending candidates are discarded. -/
  | clsHoldEnter
  /-- R200: VBAT_B rises above 9.3 V and classification counting restarts. -/
  | clsHoldExit
  /-- R212: FOUT SET stages an output's demand or the output and bank settings. -/
  | foutSet (r : Req)
  /-- R207: FOUT ACT LOCATE starts a location run on a bank. -/
  | foutLocate (r : Req)
  /-- R208: FOUT ACT CLEAR removes LOCATED and FAULT_OFF and unmasks outputs. -/
  | foutClear (r : Req)
  /-- R206: A field output exceeds its thermal set point and shuts down. -/
  | foThermalShutdown (k : Nat)
  /-- R206: A shut-down field output cools below the restart threshold and restarts in hardware. -/
  | foThermalRestart (k : Nat)
  /-- R206: A field output stays in current limit for more than 50 µs and sets the bank bit. -/
  | foLimitHeld (k : Nat)
  /-- R209: A field output's silence timer expires; the output goes to safe within 10 µs. -/
  | silenceExpiry (k : Nat)
  /-- R216: AIN SET stages an analogue input or sensor supply configuration. -/
  | ainSet (r : Req)
  /-- R217: A sensor supply held in current limit for 10 ms turns off with LIMIT. -/
  | supLimit (j : Nat)
  /-- R217: A sensor supply above 5.6 V for 10 µs turns off with SHORT_BAT. -/
  | supShortBat (j : Nat)
  /-- R217: A sensor supply over-temperature turns it off with THERMAL. -/
  | supThermal (j : Nat)
  /-- R217: t_retry ends and the supply retries, or latches on the sixth turn-off. -/
  | supRetry (j : Nat)
  /-- R217: A supply on for 1 s resets its retries. -/
  | supClean (j : Nat)
  /-- R221: LIMP_N low for limp_filter sets Towpath cause LIMP. -/
  | limpSet
  /-- R221: LIMP_N high for limp_filter clears cause LIMP. -/
  | limpClear
  /-- R222: No kick for 2.25 × P latches Towpath cause WATCH. -/
  | watchExpiry
  /-- R300: No central message for isolation_time enters isolation and may set cause ISOLATED. -/
  | isolationTimeout
  /-- R235: TOWPATH ACT ENGAGE sets cause MANUAL. -/
  | towpathEngage (r : Req)
  /-- R235: TOWPATH ACT RELEASE clears cause MANUAL. -/
  | towpathRelease (r : Req)
  /-- R223: Without the cycle timer, the Towpath steps every 250 µs on the RC oscillator. -/
  | towpathRcStep (x : Samples)
  /-- R226: At keeper power-up the hardware reads both table copies and chooses the valid newer one. -/
  | towpathTableRead
  /-- R553: Every 100 ms the Towpath copies are checked and a failing copy replaced by the other. -/
  | towpathTableCheck (badA badB : Bool)
  /-- R249: A frame received without error is filtered and handed to the Aqueduct or dropped. -/
  | canFrameReceived (c : Nat) (f : CanFrame) (sec ns : Nat) (spare : Option (CanFrame × Int))
  /-- R257: At a transmit opportunity one slot is offered, with priority-inversion reload. -/
  | canTransmitOpportunity (c : Nat) (fromIdle : Bool) (loopDelay : Nat)
  /-- R260: A frame is sent successfully and CAN_TX_CONFIRM is raised when requested. -/
  | canTxSuccess (c sec ns : Nat)
  /-- R257: A frame loses arbitration and competes again, or a one-shot fails. -/
  | canArbitrationLost (c : Nat)
  /-- R267: A protocol error updates TEC and REC and the error state. -/
  | canError (c : Nat) (e : CanErr)
  /-- R262: A frame not started within tx_deadline fails with DEADLINE. -/
  | canTxDeadline (c : Nat)
  /-- R259: CAN ACT SEND queues a pound frame. -/
  | canSend (r : Req)
  /-- R269: CAN ACT RECOVER requests bus-off recovery at its boundary. -/
  | canRecover (r : Req)
  /-- R274: CAN ACT CLEAR_COUNTERS clears a channel's counters. -/
  | canClearCounters (r : Req)
  /-- R272: CAN ACT SWAP requests that the spare replace a controller. -/
  | canSwap (r : Req)
  /-- R246: CAN SET stages channel, filter or schedule entry fields. -/
  | canSet (r : Req)
  /-- R244: At the first intermission after the boundary the controller enters its new mode. -/
  | canModeChange (c : Nat)
  /-- R244: 11 consecutive recessive bits complete integration before transmission. -/
  | busIntegration (c : Nat)
  /-- R269: The automatic bus-off recovery delay ends and monitoring starts. -/
  | recoveryRequest (c : Nat)
  /-- R269: 128 × 11 recessive bits clear the counters and the channel is error-active. -/
  | recoveryComplete (c : Nat)
  /-- R269: Recovery not complete 1 s after monitoring starts is reported once. -/
  | recoveryWaitReport (c : Nat)
  /-- R270: 10 s error-active returns boff_run to 0. -/
  | boffRunReset (c : Nat)
  /-- R271: The spare's 256-cycle shadow ends; it moves on, stays, or condemns. -/
  | spareShadowPeriodEnd
  /-- R271: The spare's 80 µs offline self-test completes. -/
  | spareSelfTest (pass : Bool)
  /-- R272: At an intermission the crossbar moves the channel to C12 with its state. -/
  | controllerSwap (c : Nat)
  /-- R280: A transmitter dominant for 4 ms is released to recessive. -/
  | canDominantTimeout (c : Nat)
  /-- R282: An armed CAN detector registers a WUP, activity or selective wake. -/
  | canWake (c : Nat) (x : CanStim)
  /-- R282: An armed LIN detector sees dominant for wake_filter. -/
  | linWake (c dom : Nat)
  /-- R285: The Lockkeeper writes the harbour master's heartbeat. -/
  | heartbeat
  /-- R285: No heartbeat for 1 s judges firmware unresponsive. -/
  | heartbeatTimeout
  /-- R287: Unresponsive with no wake reason for sleep_path; outputs off, detectors armed, SLEEP entered. -/
  | sleepPath
  /-- R290: A schedule slot begins and the commander sends its header. -/
  | linSlotStart (c : Nat)
  /-- R289: A LIN frame response ends and is checked, stored and routed. -/
  | linResponseReceived (c err : Nat) (data : List Byte) (chk sec ns : Nat)
  /-- R292: A header gets no response; no_resp increments and LIN_ERROR is raised. -/
  | linNoResponse (c : Nat)
  /-- R292: LIN ACT SWITCH names the schedule table to run. -/
  | linSwitch (r : Req)
  /-- R289: LIN SET stages channel, frame or schedule entry fields. -/
  | linSet (r : Req)
  /-- R296: A responder receives go-to-sleep and its cluster enters Mooring. -/
  | linGoToSleepReceived (c : Nat)
  /-- R296: No LIN bus activity for bus_idle. -/
  | linBusIdle (c : Nat)
  /-- R298: No header after a wake-up signal; the responder repeats it. -/
  | linWakeRetry (c : Nat)
  /-- R298: 100 ms after a wake-up signal the commander resumes its schedule. -/
  | linScheduleResume (c : Nat)
  /-- R293: NM ACT REQUEST sets the pound's claim on a cluster. -/
  | nmRequest (r : Req)
  /-- R293: NM ACT RELEASE clears the pound's claim. -/
  | nmRelease (r : Req)
  /-- R296: NM ACT REPEAT returns the cluster to Casting off. -/
  | nmRepeat (r : Req)
  /-- R302: NM ACT LINK_SLEEP requests TC10 sleep on a T1 port. -/
  | nmLinkSleep (r : Req)
  /-- R293: NM SET stages cluster, wake, T1 port or global NM fields. -/
  | nmSet (r : Req)
  /-- R296: A valid NM PDU drives the cluster state machine. -/
  | nmPduReceived (k id : Nat) (ide : Bool) (b : List Byte)
  /-- R296: t_repeat elapses and the cluster goes from Casting off to Underway. -/
  | repeatTimeEnd (k : Nat)
  /-- R296: Unclaimed Underway without PDUs for t_timeout enters Mooring. -/
  | nmTimeout (k : Nat)
  /-- R297: t_wait ends; the cluster is Moored and the sleep sequence runs. -/
  | waitTimeEnd (k : Nat)
  /-- R301: Unclaimed Underway for t_keep_watch writes a keep-awake report. -/
  | keepWatch (k : Nat)
  /-- R300: The implicit isolated claim lapses after isolated_hold. -/
  | isolatedHoldEnd
  /-- R302: The peer acknowledges the port's sleep request and both ends enter low power. -/
  | tc10SleepAck (k : Nat)
  /-- R302: No acknowledgement within 16 ms; the link stays up and the refusal is reported. -/
  | tc10AckTimeout (k : Nat)
  /-- R302: A peer's sleep request is acknowledged or not. -/
  | tc10PeerSleepRequest (k : Nat)
  /-- R302: A wake-up on the line registers a bus wake. -/
  | tc10Wake (k : Nat)
  /-- R308: A frame arrives with its route index and is offered to its destinations. -/
  | aqueductArrival
  /-- R306: ROUTE SET stages route, tunnel, source or context fields. -/
  | routeSet (r : Req)
  /-- R328: ROUTE ACT CLEAR_COUNTERS clears the named instance's counters. -/
  | routeClearCounters (r : Req)
  /-- R317: An AVTPDU at port 13 is checked and parsed into frame records. -/
  | tunnelAvtpduReceived
  /-- R325: The Lighthouse returns a frame's CMAC result and routing continues. -/
  | cmacCompletion
  /-- R331: A PHY reports loss or gain of link and PORT_LINK is raised. -/
  | portLinkChange (p : Nat) (up : Bool) (sqi speed : Nat)
  /-- R334: A port's MAC takes a frame, checks length, FCS and MACsec, and passes it on. -/
  | ethFrameReceived (p : Nat) (f : EthFrame) (len : Nat) (fcsOk : Bool) (tag : Option SecTag)
  /-- R333: A non-coordinator sees no beacon and falls back to CSMA/CD. -/
  | plcaBeaconTimeout (p : Nat)
  /-- R333: A PLCA beacon sets PLCA_UP, or marks a dual coordinator. -/
  | plcaBeaconReceived (p : Nat)
  /-- R337: An egress MAC inserts timestamps, checksums, MACsec and FCS and sends the frame. -/
  | ethFrameTransmit (p collisions : Nat) (ecc : Bool)
  /-- R342: A frame at port 12 is matched and written into a pound's receive ring. -/
  | hostPortDelivery
  /-- R345: The device fetches a pound's transmit descriptors into the Basin as share permits. -/
  | txFrameFetch (p r : Nat)
  /-- R345: No EOP posted within 1 ms; the partial frame is discarded. -/
  | eopTimeout (p r : Nat)
  /-- R346: A ts2 frame's timestamp not captured within 10 ms completes with TS_LOST. -/
  | ts2Timeout (p r id : Nat)
  /-- R332: PORT SET sets port, filter, ring, SA or SecY records. -/
  | portSet (r : Req)
  /-- R347: PORT ACT CLEAR_COUNTERS clears a port's counters. -/
  | portClearCounters (r : Req)
  /-- R360: A whole frame is classified, stream-processed and admitted to its egress queues. -/
  | basinIngress (full : Bool)
  /-- R376: At a transmission opportunity the port ages head copies and sends the highest eligible class. -/
  | transmissionSelection (p : Nat)
  /-- R377: A gate-list interval ends and the next entry's gates apply. -/
  | gateIntervalEnd (p : Nat)
  /-- R371: The oldest overflow frames move back into cells when room allows. -/
  | overflowFetchBack (q : Nat)
  /-- R383: No frame accepted for reset_ms sets take_any. -/
  | streamRecoveryReset (i : Nat)
  /-- R385: Held frames waiting reseq_wait are released in order. -/
  | resequencerTimeout (i : Nat)
  /-- R363: BASIN SET stages forwarding, port, queue, gate or VLAN records. -/
  | basinSet (r : Req)
  /-- R389: BASIN ACT CLEAR_COUNTERS clears a queue's or the global counters. -/
  | basinClearCounters (r : Req)
  /-- R380: STREAM SET sets a stream context and refills its meter. -/
  | streamSet (r : Req)
  /-- R389: STREAM ACT UNBLOCK clears BLOCKED and RED_LATCHED. -/
  | streamUnblock (r : Req)
  /-- R389: STREAM ACT CLEAR_COUNTERS clears a context's counters. -/
  | streamClearCounters (r : Req)
  /-- R383: STREAM ACT RESET_SEQ sets take_any and releases held frames. -/
  | streamResetSeq (r : Req)
  /-- R398: A message with a failed hcrc or a delivery shorter than a header is answered with DESYNC. -/
  | desyncResponse (p : Nat) (b : List Byte)
  /-- R402: A write of 1 to MBX_CTRL.run checks the rings and starts service. -/
  | runSet (e : Nat)
  /-- R402: A write of 0 to MBX_CTRL.run stops command fetching. -/
  | runClear (e : Nat)
  /-- R404: A host write of the command ring tail announces new commands. -/
  | commandDoorbell (e tail : Nat)
  /-- R404: With a response slot reserved, the device reads one command slot and advances the head. -/
  | commandFetch (e : Nat) (b : List Byte)
  /-- R405: The host advances the response ring head and frees slots. -/
  | responseHeadWrite (e head : Nat)
  /-- R405: The host advances the event ring head and frees slots. -/
  | eventHeadWrite (e head : Nat)
  /-- R342: The host posts receive descriptors by writing a receive ring tail. -/
  | receiveRingPost (e r tail : Nat) (l : List Desc)
  /-- R345: The host posts transmit descriptors by writing a transmit ring tail. -/
  | transmitRingDoorbell (e r tail : Nat) (l : List Desc)
  /-- R408: A W1C write to MBX_CAUSE clears bits and may re-send an interrupt. -/
  | causeClear (e mask same : Nat)
  /-- R400: A write to a window register without behaviour of its own stores the value or is recorded as an
  error. -/
  | registerWrite (e off val : Nat) (word : Bool)
  /-- R405: The device writes a response or event, advances the tail and signals. -/
  | outboundDoorbell (p : Nat)
  /-- R408: A deferred interrupt is sent when MBX_MOD's interval ends. -/
  | interruptModerationEnd (e v : Nat)
  /-- R406: A slot or descriptor read without completion for 1 ms is abandoned with E_TRUNC. -/
  | dmaReadTimeout (e k : Nat) (got : List Byte)
  /-- R406: An error or poisoned completion answers the command with E_CHECK. -/
  | dmaReadError (e k : Nat) (got : List Byte)
  /-- R406: A failed response or event write sets dma_fault and resets the pound. -/
  | dmaWriteFailure (e ring : Nat)
  /-- R456: A PCIe function-level reset resets the bound pound. -/
  | functionLevelReset (f : Nat)
  /-- R412: A Faval UDP datagram is authenticated, replay-checked and reassembled. -/
  | ethTransportDatagram
  /-- R412: A missing next segment for 10 ms discards the partial message with E_TRUNC. -/
  | segmentTimeout (p : Nat)
  /-- R416: An SPI WRITE transaction delivers one Faval message. -/
  | spiWrite (b : List Byte)
  /-- R415: An SPI STATUS transaction returns the status word. -/
  | spiStatus
  /-- R417: An SPI READ clocks out the oldest response or event. -/
  | spiRead (n : Nat)
  /-- R415: An unknown SPI instruction is ignored and counted. -/
  | spiUnknownInstruction
  /-- R418: A gap above 100 µs in a WRITE ends the message with E_TRUNC. -/
  | spiByteGap (b : List Byte)
  /-- R424: GET returns the selected bytes of an object's record part. -/
  | favalGet (cls : Nat) (r : Req)
  /-- R428: SUB subscribes the pound to events of a range of objects. -/
  | favalSub (cls : Nat) (r : Req)
  /-- R429: UNSUB deletes a subscription. -/
  | favalUnsub (cls : Nat) (r : Req)
  /-- R430: LIST enumerates the class's instances in the pound's share. -/
  | favalList (cls : Nat) (r : Req)
  /-- R422: SYS ACT CLEAR_COUNTERS clears a pound's transport counters. -/
  | sysClearCounters (r : Req)
  /-- R442: An event rate window closes and the last withheld occurrence is delivered. -/
  | suppressionWindowClose (p code handle : Nat)
  /-- R452: A 10 ms evt_rate window ends and a new one begins. -/
  | eventRateWindow
  /-- R454: POUND SET changes a pound's binding, quantities or object list. -/
  | poundSet (r : Req)
  /-- R457: POUND ACT RESET starts a pound's reset. -/
  | poundReset (r : Req)
  /-- R458: POUND ACT REMOVE resets a pound and unbinds it. -/
  | poundRemove (r : Req)
  /-- R457: At t0 + 1 ms the pound's queues are emptied and it becomes STOPPED. -/
  | poundResetComplete (p : Nat)
  /-- R458: At the first boundary after a removal, ownership passes to pound 0 and the pound becomes REMOVED. -/
  | ownershipTransfer (p : Nat)
  /-- R488: CORE SET stages core, slot-table or partition records. -/
  | coreSet (r : Req)
  /-- R485: CORE ACT SWAP requests that the spare replace a core. -/
  | coreSwap (r : Req)
  /-- R485: At the first boundary a cycle after t0 the spare takes the logical core. -/
  | spareTakeover
  /-- R468: The monitor switches the core to the incoming partition at a slot start. -/
  | slotStart (k j : Nat)
  /-- R479: A failed comparison flushes, retries once and judges the mismatch transient or permanent. -/
  | coreMismatch (k : Nat) (second mon injected : Bool)
  /-- R480: A core's 2 ms self-test completes; the core resumes or is condemned. -/
  | lbistComplete (k : Nat) (pass : Bool)
  /-- R485: The spare core's 100 ms self-test runs. -/
  | spareLbist (pass : Bool)
  /-- R472: The scrubber completes a pass over SRAM and counts stuck cells. -/
  | scrubPass (corrected l2 l1 : Nat) (stuck uncorr : List Nat)
  /-- R472: An uncorrectable SRAM read faults the reader and poisons the word. -/
  | sramUncorrectable (addr : Nat) (p : Option Nat) (mon : Bool) (place : Nat) (recurs : Bool)
  /-- R36: A core access outside its map or share raises an access fault. -/
  | accessFault (p addr kind : Nat)
  /-- R496: A towline port gains block lock and declares the link up. -/
  | towlineLinkUp (x : Nat)
  /-- R496: A towline port loses lock or sync headers and declares the link down. -/
  | towlineLinkDown (x : Nat)
  /-- R497: A partial frame without blocks for 2 µs is discarded. -/
  | towlineFrameGap (x : Nat) (noise : Bool) (cmd : Option (Nat × Nat × Req))
  /-- R499: A DATA frame enters the Basin or the Aqueduct, or is forwarded. -/
  | dataFrameReceived (x chk : Nat) (f : TowFrame)
  /-- R512: A FAVAL frame brings a relayed command to a barge or a response to the tug. -/
  | favalFrameReceived (x chk : Nat) (f : TowFrame)
  /-- R512: A POST frame brings a posted command or a load block to a barge. -/
  | postFrameReceived (x chk : Nat) (f : TowFrame) (bad : Bool)
  /-- R514: A NOTE brings a barge event to the tug for delivery. -/
  | noteFrameReceived (x chk : Nat) (f : TowFrame)
  /-- R514: A LATE record raises POSTED_WRITE_FAILED or triggers a block resend. -/
  | lateFrameReceived (x chk : Nat) (f : TowFrame)
  /-- R510: A BEAT updates link delay, servo, cycle number and beat watching. -/
  | beatReceived (x chk : Nat) (f : TowFrame) (locked : Bool)
  /-- R504: A barge answers and forwards an ENUM, or a tug sees its own or a peer tug's. -/
  | enumReceived (x chk : Nat) (f : TowFrame) (peer quiet : Bool)
  /-- R504: The tug records a barge's ENUM_ACK. -/
  | enumAckReceived (x chk : Nat) (f : TowFrame)
  /-- R504: A barge takes its tow address from ASSIGN. -/
  | assignReceived (x chk : Nat) (f : TowFrame)
  /-- R507: A device marks a link broken or repaired and recomputes paths. -/
  | topoReceived (x chk : Nat) (f : TowFrame)
  /-- R501: Returned credit lets waiting VC frames start. -/
  | creditReceived (x chk : Nat) (f : TowFrame)
  /-- R504: TOW ACT ENUMERATE starts enumeration on TA. -/
  | towEnumerate (r : Req)
  /-- R504: 2 ms after TA, the tug sends ENUM on TB. -/
  | enumTbDelay
  /-- R505: Every 100 ms the running tug repeats ENUM. -/
  | enumRepeat
  /-- R515: A barge missing 8 tug BEATs becomes STRANDED. -/
  | bargeStranded
  /-- R515: The tug missing 8 BEATs from a barge declares it stranded. -/
  | tugStrandDeclare (a : Nat)
  /-- R515: strand_hold ends and Towpath cause STRAND is set. -/
  | strandHoldEnd
  /-- R513: No barge response within relay_timeout; the tug answers E_TIMEOUT. -/
  | relayTimeout (a tag : Nat)
  /-- R516: TOW ACT RESYNC starts resynchronisation of a stranded barge. -/
  | towResync (r : Req)
  /-- R516: The barge not LOCKED within 2 s answers RESYNC with E_TIMEOUT. -/
  | resyncTimeout (a : Nat)
  /-- R516: At the named boundary the barge leaves STRANDED and STRAND clears. -/
  | resyncExit (a dropped : Nat)
  /-- R520: TOW ACT PORT_RELEASE releases a held towline port. -/
  | towPortRelease (r : Req)
  /-- R517: TOW ACT RELOAD reloads a barge. -/
  | towReload (r : Req)
  /-- R518: TOW SET changes the tow or towline port record. -/
  | towSet (r : Req)
  /-- R507: A repaired link up for revert_hold reverts paths and BLOCKED. -/
  | revertHoldEnd (x : Nat)
  /-- R508: A towline resequencer's 50 µs wait ends and a gap is skipped. -/
  | towlineReseqTimeout (src v : Nat)
  /-- R517: A failed barge load is retried after back-off. -/
  | bargeLoadRetry (a : Nat)
  /-- R526: LH_GO with LH_OP ENCRYPT encrypts the source. -/
  | lhEncrypt (p : Nat) (r : LhRegs)
  /-- R526: LH_GO with LH_OP DECRYPT decrypts the source. -/
  | lhDecrypt (p : Nat) (r : LhRegs)
  /-- R526: LH_GO with LH_OP MAC_GEN computes a CMAC or HMAC. -/
  | lhMacGen (p : Nat) (r : LhRegs)
  /-- R526: LH_GO with LH_OP MAC_VERIFY checks a MAC. -/
  | lhMacVerify (p : Nat) (r : LhRegs)
  /-- R526: LH_GO with LH_OP HASH computes a digest. -/
  | lhHash (p : Nat) (r : LhRegs)
  /-- R526: LH_GO with LH_OP SIGN signs the source. -/
  | lhSign (p : Nat) (r : LhRegs)
  /-- R526: LH_GO with LH_OP VERIFY checks a signature. -/
  | lhVerify (p : Nat) (r : LhRegs)
  /-- R526: LH_GO with LH_OP AGREE performs ECDH. -/
  | lhAgree (p : Nat) (r : LhRegs)
  /-- R526: LH_GO with LH_OP RANDOM writes random bytes. -/
  | lhRandom (p : Nat) (r : LhRegs)
  /-- R528: LH_CLEAR zeroises LH_IV and LH_RESULT. -/
  | lhClear (p : Nat)
  /-- R527: A mailbox request ends, sets LH_DONE and zeroises on failure. -/
  | lhRequestComplete (p got : Nat) (trunc : Bool)
  /-- R529: The island watchdog expires and the Lighthouse resets and zeroises. -/
  | lhWatchdogExpiry
  /-- R529: Tests, key scan and re-measurement end and the Lighthouse serves again. -/
  | lhRestartComplete (kat : Bool) (lost bad : List Nat) (again : List (Nat × Nat))
  /-- R532: The Lighthouse requests a block and the Lockkeeper hands it over. -/
  | blockHandover (b claims : Nat)
  /-- R532: The Lighthouse returns a block, which is reset and switched back. -/
  | blockReturn (b : Nat)
  /-- R533: A cut deferred 10 ms for a claim proceeds as forced. -/
  | claimDeferralTimeout
  /-- R541: KEY ACT GENERATE makes a root key from the TRNG. -/
  | keyGenerate (r : Req)
  /-- R541: KEY ACT IMPORT unwraps and stores a key. -/
  | keyImport (r : Req)
  /-- R542: KEY ACT DERIVE derives a child key by SP 800-108. -/
  | keyDerive (r : Req)
  /-- R541: KEY ACT UPDATE replaces a key and bumps its generation. -/
  | keyUpdate (r : Req)
  /-- R537: KEY ACT INVALIDATE invalidates a key and broadcasts its new generation. -/
  | keyInvalidate (r : Req)
  /-- R544: LIGHT ACT ATTEST returns a signed report of measurements. -/
  | lightAttest (r : Req)
  /-- R546: A debug challenge is issued, or a scope of 0 ends authorisation. -/
  | lightDebugChallenge (r : Req) (tap : Bool)
  /-- R546: A signed debug response grants the scope or counts a failure. -/
  | lightDebugResponse (r : Req) (tap : Bool)
  /-- R546: An unanswered debug challenge expires after 60 s. -/
  | challengeExpiry
  /-- R547: not_after of a debug authorisation passes and DEBUG is taken back. -/
  | debugAuthExpiry
  /-- R557: SAFE ACT ENTER enters the safe state with cause COMMAND. -/
  | safeEnter (r : Req)
  /-- R559: SAFE ACT RELEASE clears causes and latches and hands the outputs back. -/
  | safeRelease (r : Req)
  /-- R556: SAFE SET changes a safe entry or a detector configuration. -/
  | safeSet (r : Req)
  /-- R557: At t_d + 700 µs between boundaries, outputs switch to their safe set. -/
  | safeStrobe
  /-- R564: BREACH ACT RUN schedules a breach point injection. -/
  | breachRun (r : Req)
  /-- R565: The detection window of a run ends and the run is judged. -/
  | breachResultWindowEnd (bp : Nat) (reaction : Option Nat)
  /-- R565: Each latent interval the Lockkeeper runs a breach point in PROBE mode. -/
  | latentTestRun (bp inst : Nat) (first second : Option Nat)
  /-- R570: POND ACT BRING_IN brings a spare in for a unit. -/
  | pondBringIn (r : Req)
  /-- R568: The copy to a spare SRAM bank ends and the map switches. -/
  | sramBankCopyComplete
  /-- R555: A logic die or lid over its limit removes VCORE at once. -/
  | thermalEmergency
  /-- R555: VKEEP out of range for 10 µs resets the keeper domain. -/
  | vkeepMon
  /-- R555: VCORE out of range removes and re-requests it. -/
  | vcoreMon
  /-- R555: An I/O rail out of range holds its I/O inactive. -/
  | vioMon (rail : Nat) (low : Bool)
  /-- R553: PLL unlock or a bad reference moves keeper logic to the RC oscillator and restarts the Lockkeeper.
  -/
  | clockMon
  /-- R553: An interconnect transaction unanswered for 10 µs gets an error response. -/
  | busTimeout
  /-- R553: An uncorrectable eMRAM read fails and the other copy is used. -/
  | emramEcc (kind off : Nat)
  /-- R553: An uncorrectable table word disables the entry until reloaded. -/
  | tableEcc (kind i : Nat) (reload : Bool)
  /-- R553: The FAULT_N level differs from its drive for 100 µs. -/
  | faultNReadback
  /-- R554: No alive word for 4.25 × P declares the Sluice silent and engages fallback. -/
  | sluiceSilent
  /-- R553: A microcode parity error declares the Sluice silent. -/
  | sluiceCode
  /-- R553: A TRNG health test failure withholds output. -/
  | trngHealth (pass : Bool)
  /-- R579: POWER SET changes level or other power fields. -/
  | powerSet (r : Req)
  /-- R581: POWER ACT ENTER moves the device to a power state at its boundary. -/
  | powerEnter (r : Req)
  /-- R576: A good status and Read Vout acknowledge a VCORE request. -/
  | avsAcknowledge (mv : Nat)
  /-- R576: An attempt unacknowledged after 1 ms is repeated or the request fails. -/
  | avsAttemptTimeout
  /-- R581: A power-state transition's sequence completes. -/
  | transitionComplete
  /-- R582: The harbour master drops PWR_EN and SLEEP begins. -/
  | sleepEntry
  /-- R583: auto_sleep_hold ends with all conditions held and SLEEP is issued. -/
  | autoSleep
  /-- R585: An AWAKE input crosses its filtered threshold. -/
  | awakeThreshold (i v : Nat) (above : Bool)
  /-- R585: The wake timer registers a wake after wake_timer seconds. -/
  | wakeTimer
  /-- R585: LIMP_N low for 1 ms in SLEEP registers a wake. -/
  | limpWake
  /-- R575: The higher group below V_OFF for 10 µs drops the enables and resets the keeper domain. -/
  | boardnetLoss
  /-- R575: The supply below 3.0 V resets the wake domain. -/
  | wakeDomainReset
  /-- R631: RST_N low resets the keeper, core and security domains and turns outputs off. -/
  | resetAssert
  /-- R586: A start runs the clock start order: enables, reset release, table read, PLLs, firmware. -/
  | start (tugSel ref : Bool)
  /-- R586: No valid reference by t0 + 10 ms; CLOCK_MON detects and the start retries. -/
  | referenceTimeout
  /-- R590: Lockkeeper firmware runs, reads the latches and loads microcode and chart. -/
  | firmwareRun (ddr xspi : Nat) (lost bad : List Nat)
  /-- R590: Verification, the first alive word and a clean cycle complete the start and clear START. -/
  | startComplete
  /-- R592: A start fails and the keeper domain is held in reset. -/
  | startFailure (cause : Nat)
  /-- R593: The back-off delay ends and a new start attempt begins. -/
  | startRetry (ref : Bool)
  /-- R591: The Lockkeeper is held in reset, START set, and restarts while the keeper domain runs. -/
  | lockkeeperRestart (mem clock ref : Bool)
  /-- R599: IMAGE ACT WRITE writes 2 KiB into a bank. -/
  | imageWrite (r : Req)
  /-- R599: IMAGE ACT VERIFY checks a bank's blocks and signature. -/
  | imageVerify (r : Req)
  /-- R600: IMAGE ACT ACTIVATE activates a verified bank by restart, Lock-through or high water. -/
  | imageActivate (r : Req)
  /-- R602: IMAGE ACT ROLLBACK cancels, reverts or activates the other bank. -/
  | imageRollback (r : Req)
  /-- R602: The trial seconds run out and the bank is committed. -/
  | trialEnd
  /-- R604: The new firmware and microcode are in the idle chamber and bank. -/
  | lockThroughPrepared
  /-- R605: The new firmware not ready at the cutoff of n + 1 returns to the old chamber. -/
  | readyFlagTimeout
  /-- R606: Preparation not complete by T − 2P cancels the high-water activation. -/
  | highWaterCancel
  /-- R609: CHART ACT WRITE writes part of a chart slot. -/
  | chartWrite (r : Req)
  /-- R609: CHART ACT COMMIT checks a slot and schedules its taking effect. -/
  | chartCommit (r : Req)
  /-- R609: CHART ACT ROLLBACK returns to the rollback chart. -/
  | chartRollback (r : Req)
  /-- R81: A gPTP Announce taken whole feeds the BMCA and may change the grandmaster identity, sending the servo
  instance to HOLDOVER. -/
  | gptpAnnounceReceived (i p gm : Nat) (vec : List Nat)
  /-- R288: A LIN responder takes a break, sync field and protected identifier, measures the rate, and sends or
  awaits the response for that identifier. -/
  | linHeaderReceived (c pid rate : Nat)
  /-- R555: Logic dies fall below 115 °C and the lid below 110 °C, FORCED clears and the commanded state returns
  by the STANDBY exit row. -/
  | thermalEmergencyClear
  /-- R555: A monitored VKEEP, VCORE or I/O rail returns within its limits, the detector condition ends and the
  rail's I/O or domain is released. -/
  | supplyRailRecovery (rail : Nat)
  /-- R501: Credit owed to a towline peer has waited 1 µs with no frame to carry it, so a BEAT with op CREDIT is
  sent. -/
  | creditWaitExpiry (x : Nat)
  /-- R410: An ARP request or neighbour solicitation for one of the device's IP interfaces reaches the
  Lockkeeper and is answered. -/
  | addressResolutionRequest (i mac ip : Nat)
  /-- R484: An authorised debugger or trigger halts an application core, which stops its slot table and sets
  HALTED. -/
  | debugHalt (k : Nat)
  /-- R484: A halted core is resumed or single-stepped and each partition continues at its next slot. -/
  | debugResume (k : Nat)
  /-- R548: An authorised boundary-scan instruction on the TAP takes effect only while both VBAT groups lie
  below V_OFF, and otherwise acts as BYPASS. -/
  | boundaryScanInstruction (code : Nat)
  /-- R375: A credit-based shaper's negative credit rises back to zero on an idle port, and its waiting copy
  becomes eligible and starts. -/
  | shaperCreditRecovery (p c : Nat)
  deriving DecidableEq, Repr

end Sys2Proof
end

