-- ==== Sys2Proof/Config.lean ====
section
/-! DEFINITION. The free values: what the spec leaves open, as constants without a body, so that a statement
about them holds whatever they are. Each is applied to the operands it depends on, or to `State.free`, a
counter each use advances. -/
namespace Sys2Proof.Config

/-- A value the spec does not fix, fresh at each value of `State.free` (assumption log entry 4). -/
opaque freeValue : Nat → Nat

/-- Code of an analogue conversion of a pin voltage against a reference of 0 V, which R213 does not state. -/
opaque aiNoRef : Nat → Nat

/-- What an idle towline leaves in a port's scrambler (R495), by port, gap and counter. -/
opaque idleScrambler : (port gap counter : Nat) → Nat

/-- Bytes of a control block of a kind that R495 does not give. -/
opaque lineFill : (kind index : Nat) → Byte

/-- The Faval messages of a barge load (R517): frame `k` of the `n` of the image set, and a barge's part of the chart
with its Towpath table. Their layout is not the spec's. -/
opaque blockBytes : (k n : Nat) → List Byte
opaque chartBytes : List Machine.ChartItem → Machine.TpTable → List Byte

/-- A cryptographic function the spec names and does not define (log entry 61): service, mode, key material
and input give the bytes of the output, as a number. -/
opaque cipher : (service mode material : Nat) → List Byte → Nat

/-- Which of the lengths 32 to 64 a derived secret key takes; R541 gives `DERIVE` no argument for it. -/
opaque secretLen : Nat

/-- The device identity of R503, fixed at manufacture (log entry 62). -/
opaque identity : Nat

/-- Version of the recovery firmware in the boot ROM and of the firmware a tug loads into a barge: major and
minor (R432; the spec gives no value). -/
opaque romVersion : Nat × Nat
opaque bargeVersion : Nat × Nat

/-- What the bytes of a chart slot spell, and the refusal that the compiler's rules (R608, codes 3 and 4) find in
them: code and handle. How a chart's blocks encode its records is not the spec's (log entry 60). -/
opaque chartItems : List Byte → List Machine.ChartItem
opaque chartRefusal : List Byte → Option (Nat × Nat)

end Sys2Proof.Config
end

