-- ==== Sys2Proof/Machine/Bits.lean ====
section
/-! DEFINITION. Bit fields, two's complement, byte order, saturating and wrapping counters, and the two
check codes of R393. -/
namespace Sys2Proof.Machine

/-- Field of `w` bits at bit `pos` of `n`. -/
def fieldOf (pos w n : Nat) : Nat := (n >>> pos) % 2 ^ w

/-- Bit `k` of `n`. -/
def bitOf (k n : Nat) : Bool := (n >>> k) % 2 = 1

/-- A Bool as a one-bit code. -/
def b2n (b : Bool) : Nat := if b then 1 else 0

/-- The bit `k` set when `b`. -/
def flag (k : Nat) (b : Bool) : Nat := if b then 2 ^ k else 0

/-- Two's complement reading of a `w`-bit code. -/
def toS (w n : Nat) : Int :=
  let m := n % 2 ^ w
  if m < 2 ^ (w - 1) then (m : Int) else (m : Int) - (2 ^ w : Nat)

/-- Two's complement code of `i` in `w` bits. -/
def ofS (w : Nat) (i : Int) : Nat := (i % ((2 ^ w : Nat) : Int)).toNat

/-- Saturating value of a `w`-bit counter. -/
def sat (w n : Nat) : Nat := min n (2 ^ w - 1)

/-- `x` held within `lo` and `hi`. -/
def clampI (lo hi x : Int) : Int := if x < lo then lo else if hi < x then hi else x

/-- Little-endian value of bytes (R8). -/
def leNat : List Byte → Nat
  | [] => 0
  | b :: bs => b.toNat + 256 * leNat bs

/-- `k` little-endian bytes of `n` (R8). -/
def leBytes : Nat → Nat → List Byte
  | 0, _ => []
  | k + 1, n => BitVec.ofNat 8 n :: leBytes k (n / 256)

/-- The `w`-byte little-endian field at byte `off` of `bs`; bytes that are not there read zero. -/
def leAt (bs : List Byte) (off w : Nat) : Nat := leNat ((bs.drop off).take w)

/-- One bit step of the CRC-8 of R393. -/
def crc8Bit (c : Nat) : Nat := if c ≥ 128 then ((2 * c) % 256) ^^^ 0x2F else 2 * c

/-- One byte of the CRC-8 of R393. -/
def crc8Byte (c : Nat) (b : Byte) : Nat :=
  let x := c ^^^ b.toNat
  crc8Bit (crc8Bit (crc8Bit (crc8Bit (crc8Bit (crc8Bit (crc8Bit (crc8Bit x)))))))

/-- `hcrc` (R393): polynomial 0x2F, initial value 0xFF, no reflection, final XOR 0xFF. -/
def crc8 (bs : List Byte) : Nat := (bs.foldl crc8Byte 0xFF) ^^^ 0xFF

/-- One bit step of the reflected CRC-32C. -/
def crc32cBit (c : Nat) : Nat := if c % 2 = 1 then (c / 2) ^^^ 0x82F63B78 else c / 2

/-- One byte of the CRC-32C. -/
def crc32cByte (c : Nat) (b : Byte) : Nat :=
  let x := c ^^^ b.toNat
  crc32cBit (crc32cBit (crc32cBit (crc32cBit (crc32cBit (crc32cBit (crc32cBit (crc32cBit x)))))))

/-- CRC-32C (R393): polynomial 0x1EDC6F41 reflected, initial value and final XOR 0xFFFFFFFF. -/
def crc32c (bs : List Byte) : Nat := (bs.foldl crc32cByte 0xFFFFFFFF) ^^^ 0xFFFFFFFF

/-- Element `i` of a list, or `d` when the list is shorter. -/
def elemOr {α : Type} (d : α) (l : List α) (i : Nat) : α := l.getD i d

end Sys2Proof.Machine
end

