-- ==== Sys2Proof/Machine/RegsPower.lean ====
section
/-! DEFINITION. The power channels, the Sluice, the Paddles and the motor bridges (chapters "Protected power
channels", "Sluice: wire protection, telemetry and load shedding", "Paddles and motor bridges"). -/
namespace Sys2Proof.Machine

/-- Class of a power channel (R100). -/
inductive ChClass | feeder | main | light | half
  deriving DecidableEq, Repr

/-- Class of CHAN instance `i` (R123). -/
def chClass (i : Nat) : ChClass :=
  if i < 8 then .feeder else if i < 32 then .main else if i < 64 then .light else .half

/-- Restart state (R114, R124). -/
inductive ChState
  | off | inrush | charging | on | retryWait | latchWait | cooling | shed | latchedOff | uvOff
  deriving DecidableEq, Repr

/-- Protection settings of a channel, in the codes of its control record (R433). -/
structure ChanCfg where
  shedPrio  : Nat := 128
  iLim      : Nat
  tLim      : Nat := 200
  iInrush   : Nat
  tInrush   : Nat
  iChg      : Nat
  tChg      : Nat := 100
  tRetry    : Nat := 100
  tClean    : Nat := 100
  tPatience : Nat := 20
  nRetry    : Nat := 3
  offDiagEn : Bool
  nOl       : Nat := 8
  olThr     : Nat
  deriving DecidableEq, Repr

/-- Defaults per class (R433). -/
def chanCfg0 (i : Nat) : ChanCfg :=
  match chClass i with
  | .feeder => { iLim := 120, iInrush := 180, tInrush := 10000, iChg := 20, offDiagEn := true, olThr := 500 }
  | .main => { iLim := 90, iInrush := 160, tInrush := 40000, iChg := 16, offDiagEn := true, olThr := 200 }
  | .light => { iLim := 96, iInrush := 160, tInrush := 5000, iChg := 0, offDiagEn := false, olThr := 5 }
  | .half => { iLim := 120, iInrush := 180, tInrush := 100000, iChg := 0, offDiagEn := false, olThr := 100 }

/-- An analogue trip (R106): its cause and the energy and current the event carries. `captured` once a fill
phase has taken it, `recorded` once the level phase has. -/
structure Trip where
  cause    : Nat
  energy   : Nat := 0
  current  : Int := 0
  captured : Bool := false
  recorded : Bool := false
  breach   : Bool := false      -- a FULL breach run made it (R563)
  deriving DecidableEq, Repr

/-- A power channel (R96-R128). -/
structure Chan where
  cfg        : ChanCfg
  demand     : Nat := 0         -- 0 off, 1 on, 2 ON_CHARGE
  state      : ChState := .off
  gate       : Bool := false    -- the channel may conduct (its Paddle then times the switch)
  hb         : Nat := 0         -- half-bridge output: 0 OFF, 1 HIGH, 2 LOW
  actor      : Nat := 1
  retry      : Nat := 0
  lastCause  : Nat := 0
  olOn       : Bool := false
  olOff      : Bool := false
  shortBat   : Bool := false
  reverse    : Bool := false
  cliff      : Bool := false
  defUv      : Bool := false
  defOv      : Bool := false
  derated    : Bool := false
  spareUsed  : Bool := false
  stuckOn    : Bool := false
  inrushCut  : Bool := false
  windowCut  : Bool := false    -- the window that runs was shortened (R119)
  changed    : Nat := 0
  window     : Nat := 0         -- inrush window remaining from the start of the present cycle, ns (R104, R119)
  edgeWait   : Bool := false    -- the inrush window waits for the first on-edge of the Paddle (R104)
  limiting   : Bool := false    -- regulating at a limit (R106)
  trip       : Option Trip := none
  wireTrip   : Bool := false    -- a wire trip decided for the coming boundary (R145)
  shedWait   : Option Nat := none  -- a shed decided for the coming boundary, by cause
  shedBy     : Nat := 0         -- budget that shed it (R153), plus 1; 0 none
  shedCause  : Nat := 0
  shedCur    : Nat := 0         -- current recorded at shedding, Q24.24 A or J (R153, R154)
  offer      : Bool := false    -- a restore is offered at the coming boundary (R120, R155)
  restoreUv  : Bool := false    -- restore or deferred switch-on due after R99
  breach     : Bool := false    -- tripped by a FULL breach run: its retry is not counted (R563)
  byTrip     : Bool := false    -- LATCH_WAIT or COOLING entered by a trip
  delayRun   : Bool := false    -- retry delay running
  delayEnd   : Bool := false    -- retry delay ended
  patience   : Bool := false    -- T_PATIENCE running
  patienceUp : Bool := false    -- T_PATIENCE elapsed with the latch set
  cleanUp    : Bool := false    -- T_CLEAN elapsed in ON
  lvEnd      : Bool := false    -- delay, latch, patience and clean time as the last level phase found them (R111)
  lvCliff    : Bool := false
  lvPat      : Bool := false
  lvClean    : Bool := false
  restartReq : Bool := false
  rampOff    : Bool := false    -- demand off while duty_now ramps down (R171)
  padDue     : Bool := false    -- charged: fully on until the boundary at which its Paddle begins (R105, R170)
  deadEnd    : Nat := 0         -- counter at the end of the half-bridge's dead time (R177)
  active     : Nat              -- active segments
  spareOk    : Bool             -- spare segment available
  barred     : Bool := false    -- RESTART rejected until the next start (R102)
  offAt      : Nat := 0         -- counter when the channel turned off (R109)
  diag       : Nat := 0         -- off-state diagnosis: cycles run plus 1; 0 none
  diagReq    : Bool := false
  stuckObs   : Nat := 0         -- consecutive fill phases of R103
  stuckTest  : Bool := false    -- blocking switches opened (R103)
  deriving DecidableEq, Repr

/-- Reset record of channel `i`: 8 or 4 active segments (R101). -/
def chan0 (i : Nat) : Chan :=
  { cfg := chanCfg0 i
    active := match chClass i with | .feeder => 8 | .main => 4 | _ => 0
    spareOk := decide (i < 32) }

/-- Band of a supply group's voltage (R98). -/
inductive Band | belowOff | hold | full | above
  deriving DecidableEq, Repr

/-- A supply group (R96-R99). -/
structure Grp where
  band : Band := .belowOff
  v    : Nat := 0               -- µV
  deriving DecidableEq, Repr
def grp0 (_ : Nat) : Grp := {}

/-- A die cluster (R117-R120); temperatures Q24.24 °C. -/
structure Cluster where
  tcl    : Int := 0
  sensor : Int := 0
  limit  : Nat := 160           -- T_CL_LIMIT, °C
  hyst   : Nat := 10            -- K
  sensorBad : Nat := 0          -- cycles the sensor disagreed with its neighbours (R553 0x009)
  deriving DecidableEq, Repr
def cluster0 (_ : Nat) : Cluster := {}

/-- Channels, groups and clusters. -/
structure Pow where
  chans : Tbl Chan := []
  grps  : Tbl Grp := []
  cls   : Tbl Cluster := []
  deriving DecidableEq, Repr

/-! ### Sluice -/

/-- Harness wire type (R139), in the units of its fields. -/
structure WireType where
  valid : Bool := false
  r20   : Nat := 0
  alpha : Nat := 0
  cCond : Nat := 0
  cIns  : Nat := 0
  gCi   : Nat := 0
  gIb   : Nat := 0
  rated : Nat := 0
  deriving DecidableEq, Repr
def wireType0 (_ : Nat) : WireType := {}

/-- Bundle entry (R140) and node; `stale` and `ainBad` hold the substitution conditions of R144. -/
structure Bundle where
  src     : Nat := 0
  ain     : Nat := 0
  fixed   : Int := 85000
  cap     : Nat := 0
  gBa     : Nat := 0
  host    : Int := 85000
  staleS  : Nat := 10
  tb      : Int := 0            -- Q24.24
  stale   : Bool := false
  ainBad  : Bool := false
  deriving DecidableEq, Repr
def bundle0 (_ : Nat) : Bundle := {}

/-- Per-channel wire record and nodes (R141), sample of the last fill phase (R130), fallback (R148). -/
structure WireCh where
  wireType : Nat := 0
  bundle   : Nat := 0
  fbUnsafe : Bool := false
  tTrip    : Option Int := none -- m°C; none where the chart leaves it at its default (R141)
  tWarn    : Option Int := none
  tCool    : Option Int := none
  onNow    : Bool := false      -- the channel could conduct in the present cycle
  onWas    : Bool := false      -- and in the sampled one (R136)
  tc       : Int := 0           -- Q24.24 °C
  ti       : Int := 0
  tb       : Int := 0           -- private bundle
  cycle    : Nat := 0           -- sampled cycle of the nodes
  warned   : Bool := false
  subst    : Bool := false      -- SENSE_SUBST (R133)
  fallback : Bool := true       -- trip of the integrator engaged (R142: without a chart)
  onInSilence : Bool := false   -- on at any time during the silence (R150)
  integ    : Nat := 0           -- fallback integrator A, µA² per 64 kHz step (R148)
  deriv    : Nat := 0           -- the same from i_sq, for detector 0x00A
  i2tNs    : Nat := 0           -- time the two have differed by more than 20 %
  i2tBad   : Bool := false      -- treated as FB_UNSAFE at the next engagement (R553 0x00A)
  sample   : ChanSample := {}
  deriving DecidableEq, Repr
def wireCh0 (_ : Nat) : WireCh := {}

/-- A current-digitiser group (R129, R132, R133). -/
structure Adc where
  swapped   : Bool := false     -- the spare has taken the group
  spareBad  : Bool := false
  failed    : Bool := false     -- no healthy ADC: the group is under fallback
  xcheck    : Bool := true      -- cross-checking goes on
  pos       : Nat := 0          -- channel the spare shadows
  prev      : Nat := 0          -- channel it shadowed in the sampled cycle
  dis       : Bool := false     -- the means disagreed in the last cycle
  conf      : Option Nat := none  -- channel whose second disagreement confirmed a fault (R132)
  refBad    : Nat := 0          -- consecutive cycles in which the working ADC failed its reference check
  refBadS   : Nat := 0          -- and the spare
  err       : Nat := 0          -- last reference error found, 0.01 % of full scale (R566)
  deriving DecidableEq, Repr
def adc0 (_ : Nat) : Adc := {}

/-- A budget (R151-R156): 0 group A, 1 group B, 2 module, 3 dissipation. Limit in A, or W for the
dissipation; sums Q24.24. -/
structure Budget where
  limit     : Nat
  peak      : Nat := 125        -- percent of L
  tau       : Nat               -- ms
  margin    : Nat := 10         -- percent
  tRestore  : Nat := 500        -- ms
  sum       : Int := 0
  filt      : Int := 0
  fresh     : Bool := true      -- F takes S in the next level phase
  holdDone  : Bool := false     -- T_RESTORE has ended with both sums within the margin
  allShed   : Bool := false
  reported  : Bool := false
  deriving DecidableEq, Repr
def budget0 (b : Nat) : Budget :=
  if b = 0 then { limit := 200, tau := 1000 } else if b = 1 then { limit := 160, tau := 1000 }
  else if b = 2 then { limit := 360, tau := 1000 } else { limit := 38, tau := 2000 }

/-- A telemetry subscription (R157-R159). -/
structure TeleSub where
  id      : Nat
  pound   : Nat
  kind    : Nat
  mask    : Nat
  every   : Nat
  offset  : Nat
  skipped : Nat := 0
  deriving DecidableEq, Repr

/-- A stored copy of the node state (R138), with the bridge positions stored beside it (R183). -/
structure NodeCopy where
  seq    : Nat := 0
  sleep  : Bool := false        -- written on entry to SLEEP
  ok     : Bool := true         -- its CRC-32C holds; false once an uncorrectable read has hit it
  tc     : List Int := []
  ti     : List Int := []
  tb     : List Int := []
  tbs    : List Int := []
  pos    : List (Int × Bool) := []
  deriving DecidableEq, Repr
def nodeCopy0 (_ : Nat) : NodeCopy := {}

/-- The Sluice (R129-R159). -/
structure Slu where
  types    : Tbl WireType := []
  bundles  : Tbl Bundle := []
  wires    : Tbl WireCh := []
  adcs     : Tbl Adc := []
  budgets  : Tbl Budget := []
  subs     : List TeleSub := []
  copies   : Tbl NodeCopy := []
  copySeq  : Nat := 0
  modelOn  : Bool := false      -- a valid chart: the wire models run (R142)
  silent   : Bool := false      -- declared silent (R554)
  unalive  : Nat := 0           -- boundaries since the last alive word (R554), saturating
  lid      : List Int := [0, 0] -- sensors, m°C
  lidBad   : Nat := 0           -- consecutive cycles in which the sensors differ by more than 8 K, to 8 (R143)
  lidRep   : Bool := false
  boundaries : Nat := 0         -- boundaries modulo 4,096 (R138)
  storeDue : Bool := false      -- a 4,096th boundary has come and no copy of it is written
  coolMin  : Nat := 30          -- full-cool time, min (R138)
  margin   : Nat := 20          -- start margin, K
  deriving DecidableEq, Repr

/-! ### Paddles and bridges -/

/-- Settings of a Paddle (R172). -/
structure PadCfg where
  n        : Nat := 0           -- n_code
  mul      : Nat := 0
  commit   : Nat := 0
  hbOffLow : Nat := 0
  duty     : Nat := 0xFFFF
  phase    : Nat := 0
  spread   : Nat := 0
  rampUp   : Nat := 0
  rampDown : Nat := 0
  deriving DecidableEq, Repr

/-- A pending Paddle SET (R168): the merged settings and the requests to answer. -/
structure PadPend where
  cfg  : PadCfg
  reqs : List Req := []
  deriving DecidableEq, Repr

/-- A Paddle (R162-R174). -/
structure Pad where
  cfg     : PadCfg := {}
  now     : Nat := 0            -- duty_now
  phaseSet : Nat := 0           -- phase auto-spread gives a member (R174)
  phaseNow : Nat := 0           -- that phase, in force under the member's commit
  clamped : Bool := false
  pend    : Option PadPend := none
  level   : Bool := false       -- output at the end of the cycle before (R166)
  since   : Option Nat := none  -- ns from its last edge to the last boundary; none without an edge to respect
  deriving DecidableEq, Repr
def pad0 (_ : Nat) : Pad := {}

/-- Phase of a bridge's own sequence (R178, R184, R186). -/
inductive BrSeq
  | none
  | dirBrake (next : Nat)       -- BRAKE_LOW before a change of direction
  | dirReady (next : Nat)       -- the brake ended; the direction starts at the next boundary
  | stallHold                   -- BRAKE_LOW, then COAST
  | pinchBrake                  -- both LOW before the reversal
  | reversing                   -- driving the opening direction
  | revHold                     -- BRAKE_LOW after the reversal
  deriving DecidableEq, Repr

/-- Bridge control and parameter records (R188, R189) and the ripple counter (R180-R186). -/
structure Br where
  hbA      : Nat := 0xF
  hbB      : Nat := 0xF
  drive    : Nat := 0
  decay    : Nat := 0
  rippleEn : Bool := false
  pinchEn  : Bool := false
  dead     : Nat := 25
  blank    : Nat := 2
  iReg     : Nat := 0
  tRev     : Nat := 20
  pos      : Int := 0
  speed    : Int := 0
  posValid : Bool := false
  stalled  : Bool := false
  pinched  : Bool := false
  regAct   : Bool := false
  ripLost  : Bool := false
  posRest  : Bool := false
  inserted : Nat := 0
  deriving DecidableEq, Repr

/-- Bridge parameters (R189). -/
structure BrPar where
  fMin    : Nat := 50
  fMax    : Nat := 2000
  hyst    : Nat := 6
  gateLo  : Nat := 60
  gateHi  : Nat := 160
  close   : Nat := 1
  pinchLo : Int := 0
  pinchHi : Int := 0
  iPinch  : Nat := 8
  slow    : Nat := 130
  tPinch  : Nat := 5
  revRip  : Nat := 120
  stallSp : Nat := 20
  tStall  : Nat := 100
  revDuty : Nat := 0xFFFF
  deriving DecidableEq, Repr

/-- What a bridge does beside its records. Intervals in ns, currents in µA. -/
structure BrDyn where
  seq      : BrSeq := .none
  lastDir  : Nat := 1           -- last direction driven
  ivals    : List Nat := []     -- last accepted intervals, newest first, up to 4
  accepted : Nat := 0           -- ripples accepted since motion began, saturating at 4
  hist     : List (Nat × Int) := []  -- last 16 intervals in the zone: length, mean current
  revFrom  : Int := 0           -- pos at the reversal's start
  counting : Bool := false
  was      : Nat := 0           -- drive in force at the last boundary or step (R178)
  chopEnd  : Nat := 0           -- counter at the end of the off-phase that regulation began (R179)
  chopMin  : Nat := 0           -- counter at the end of that off-phase's minimum
  deriving DecidableEq, Repr
def br0 (_ : Nat) : Br := {}
def brPar0 (_ : Nat) : BrPar := {}
def brDyn0 (_ : Nat) : BrDyn := {}

/-- The Paddles and bridges. -/
structure Mot where
  pads   : Tbl Pad := []
  bases  : Tbl Nat := []        -- spread groups 1-15 (R173)
  spreadDue : Bool := false     -- phases are recomputed at the next boundary
  brs    : Tbl Br := []
  pars   : Tbl BrPar := []
  dyns   : Tbl BrDyn := []
  deriving DecidableEq, Repr

end Sys2Proof.Machine
end

