-- ==== Sys2Proof/Machine/RegsSafety.lean ====
section
/-! DEFINITION. Detectors, the chart safe state, breach points and side ponds (chapter "Fault detection,
breach points and side ponds"). -/
namespace Sys2Proof.Machine

/-- Escalation of a detector (R552). -/
inductive Esc | fixed | yes | no | never
  deriving DecidableEq, Repr

/-- The detector table (R553): breach point and escalation; no other number is a detector. -/
def detectorTable : List (Nat × Esc) :=
  [(0x001, .no), (0x002, .no), (0x003, .no), (0x004, .no), (0x005, .yes), (0x006, .no), (0x007, .no),
   (0x008, .no), (0x009, .no), (0x00A, .no), (0x00B, .no), (0x00C, .yes), (0x00D, .no), (0x00E, .no),
   (0x00F, .no), (0x010, .no), (0x011, .no), (0x012, .yes), (0x013, .yes), (0x014, .no)] ++
  [(0x018, .fixed), (0x019, .fixed), (0x01A, .yes), (0x01B, .fixed), (0x01C, .never), (0x01D, .no),
   (0x01E, .no), (0x01F, .no), (0x020, .no), (0x021, .fixed), (0x022, .yes), (0x023, .fixed),
   (0x024, .yes), (0x025, .fixed), (0x026, .fixed), (0x027, .no)] ++
  [(0x030, .no), (0x031, .no), (0x032, .no), (0x033, .no), (0x034, .no), (0x035, .fixed), (0x036, .fixed),
   (0x037, .no), (0x040, .no), (0x041, .no), (0x042, .no), (0x043, .no), (0x044, .no), (0x045, .yes)] ++
  [(0x050, .no), (0x051, .no), (0x052, .no), (0x053, .no), (0x054, .no), (0x055, .no), (0x056, .no),
   (0x057, .no), (0x060, .no), (0x061, .no), (0x062, .no), (0x063, .no)]

/-- Escalation kind of a breach point; reserved numbers have none. -/
def escOf (bp : Nat) : Option Esc := (detectorTable.find? (fun e => decide (e.1 = bp))).map (·.2)

/-- Detector configuration record (R560). -/
structure Det where
  escalate    : Bool := false
  faultN      : Bool := true
  active      : Bool := false
  latched     : Bool := false
  latentFail  : Bool := false
  latentMs    : Nat := 100
  count       : Nat := 0
  lastCycle   : Nat := 0
  latentCycle : Nat := 0
  deriving DecidableEq, Repr

/-- Reset record of a detector: its escalation by R553. -/
def det0 (bp : Nat) : Det :=
  match escOf bp with
  | some .fixed => { escalate := true }
  | some .yes => { escalate := true }
  | _ => {}

/-- Safe entry of a target (R556). -/
structure SafeEntry where
  action : Nat := 0
  duty   : Nat := 0
  deriving DecidableEq, Repr
def safeEntry0 (_ : Nat) : SafeEntry := {}

/-- A commanded breach run whose fault is injected (R564, R565). -/
structure BreachRun where
  bp    : Nat
  full  : Bool
  inst  : Nat
  count : Nat                     -- detections counted when the fault was injected (R572)
  deriving DecidableEq, Repr

/-- Breach point record (R565). -/
structure BreachRec where
  mode     : Bool := false
  detected : Bool := false
  latent   : Bool := false
  inst     : Nat := 0
  reaction : Nat := 0
  cycle    : Nat := 0
  runs     : Nat := 0
  fails    : Nat := 0
  deriving DecidableEq, Repr
def breach0 (_ : Nat) : BreachRec := {}

/-- Segment wear of an F or M channel (R567, R571). Resistances in µΩ, drift in 0.01 %. -/
structure SegWear where
  spare     : Nat := 0             -- 0 unused, 1 in use, 2 failed
  failed    : Nat := 0             -- bit per segment
  swapCycle : Nat := 0
  baseSum   : List Nat := []       -- sum of the first qualifying cycles, per segment
  baseN     : List Nat := []       -- qualifying cycles counted into the baseline, up to 1,000
  hist      : List (List Nat) := []  -- last 4,096 qualifying resistances, per segment
  drift     : List Int := []
  quarter   : Nat := 0             -- quarters of the threshold already reported (R566)
  lastTcl   : Option Int := none   -- T_cl of the previous cycle
  swapDue   : Option Nat := none   -- segment whose swap follows at the next boundary
  deriving DecidableEq, Repr
def seg0 (_ : Nat) : SegWear := {}

/-- Entry of the wear log (R571): what happened to a unit, when. -/
structure WearEntry where
  kind  : Nat                      -- R566
  unit  : Nat
  what  : Nat                      -- 1 brought in, 2 derated, 3 condemned, 4 failed as a spare
  cycle : Nat
  deriving DecidableEq, Repr

/-- The side ponds (R566-R571). -/
structure Pond where
  segs     : Tbl SegWear := []
  adcUsed  : Nat := 0
  canSpare : Nat := 0              -- 0 available, 1 in use, 2 failed
  coreSpare : Nat := 0
  sramUsed : Nat := 0              -- spare banks in use, 0-2
  sramIn   : List Nat := []        -- banks a spare stands in for
  sramCopy : Option Nat := none    -- bank being copied (R568)
  sramWait : List Nat := []        -- banks that wait for the copy (R572)
  stuck    : Tbl Nat := []         -- stuck cells per SRAM bank
  rows     : Nat := 0              -- eMRAM spare rows in use
  rowIn    : List Nat := []        -- eMRAM rows that are remapped (R569)
  swapDrift : Nat := 2000          -- 0.01 %, default 20 %
  log      : List WearEntry := []
  repCycle : Nat := 0
  deriving DecidableEq, Repr

/-- The safe state, the detectors and the breach points (R552-R565). -/
structure Saf where
  causes     : Nat := 0            -- R559 [4:0]
  strobed    : Bool := false
  releasing  : Bool := false
  inForce    : Bool := false
  faultN     : Bool := true        -- FAULT_N asserted (reset 1)
  faultAt    : Nat := 0            -- counter when FAULT_N fell, for the 1 ms minimum
  firstBp    : Nat := 0
  entryCycle : Nat := 0
  relCycle   : Nat := 0
  reaction   : Nat := 0
  latentFails : Nat := 0
  atBoundary : Nat := 0            -- causes that apply at the next boundary (R557)
  atStrobe   : Nat := 0            -- causes that apply at the strobe
  tD         : Nat := 0            -- counter at the first detection
  relPend    : Bool := false       -- a RELEASE is accepted for its boundary (R572)
  mute       : List Nat := []      -- classes whose events a FULL breach run withholds (R563)
  dets       : Tbl Det := []
  entries    : Tbl SafeEntry := []
  runs       : List BreachRun := []
  breach     : Tbl BreachRec := []
  hold       : Tbl Nat := []       -- physical state of HOLD targets at entry: duty_now + 1, 0 off
  pond       : Pond := {}
  deriving DecidableEq, Repr

end Sys2Proof.Machine
end

