-- ==== Sys2Proof/Machine/RegsSys.lean ====
section
/-! DEFINITION. The device's role, its strap and status lands, and what core software sees of its memories
(chapters "Scope" and "A zone in one package", and R631-R634). -/
namespace Sys2Proof.Machine

/-- Role of the device (R29-R31). -/
inductive Role | standalone | tug | barge
  deriving DecidableEq, Repr

/-- Role, straps and the parts of the address map that a start decides. -/
structure Sys where
  role      : Role := .standalone
  tow       : Nat := 0            -- tow address (R29)
  tugSelN   : Bool := false       -- TUGSEL_N land; the internal pull-down holds it low (R628)
  rstN      : Bool := true        -- RST_N land
  limpN     : Bool := true        -- LIMP_N land
  ddrDecl   : Nat := 0            -- LPDDR4X the chart declares, MiB (R38)
  ddrMib    : Nat := 0            -- mapped
  xspiDecl  : Nat := 0            -- xSPI NOR, MiB (R38)
  xspiMib   : Nat := 0
  ovfDecl   : Nat := 0            -- overflow area the chart sets (R39), MiB
  ovfMib    : Nat := 0            -- overflow area as cut to the mapped size
  poison    : List Nat := []      -- poisoned SRAM words (R472), rising
  faults    : Tbl Nat := []       -- access faults per pound (R36)
  tapReg    : Nat := 0            -- boundary-scan instruction in force, 0 BYPASS (R548)
  deriving DecidableEq, Repr

end Sys2Proof.Machine
end

