-- ==== Sys2Proof/Machine/State.lean ====
section
/-! DEFINITION. The state of the JZ640: everything the spec gives the device, the queue of commands that
wait, and the two ways a step can end without a next state. -/
namespace Sys2Proof.Machine

/-- The state. Each field is one part of the device; `pending` is the queue of waiting commands, first in,
first out. -/
structure State where
  sys     : Sys := {}
  cyc     : Cyc := {}
  tide    : Tide := {}
  fv      : Fv := {}
  saf     : Saf := {}
  tp      : Tp := {}
  pow     : Pow := {}
  slu     : Slu := {}
  mot     : Mot := {}
  fio     : Fio := {}
  can     : Can := {}
  lin     : Lin := {}
  nm      : Nm := {}
  aq      : Aq := {}
  net     : Net := {}
  tow     : Tow := {}
  light   : Light := {}
  aps     : Aps := {}
  pwr     : Pwr := {}
  img     : Img := {}
  mem     : List Host.Cell := []   -- bytes of the address map of R34 that commands write
  free    : Nat := 0               -- the model's own: index of the next free value (log entry 4)
  pending : List Instr := []
  deriving DecidableEq, Repr

/-- Why the machine stops. -/
inductive Fault
  /-- Raised by a meaning whose operand names a unit the device does not have (a channel above 75, a port
  above 15). Safe: no hardware event carries such a number. -/
  | noSuchUnit
  deriving DecidableEq, Repr

/-- Why a command has no meaning. -/
inductive Refusal
  /-- Raised by an arm of `exec` whose command is not modelled yet. Safe. -/
  | notModelled (mnemonic : String)
  deriving DecidableEq, Repr

/-- The outcome type of the machine. -/
abbrev Out := Host.Outcome State Fault Refusal

/-- The device right after reset: the wake domain keeps nothing from before, no start has begun, and every
field holds its reset record (R63, R221, R447, R587; the log names the values the spec does not state). -/
def State.reset : State := {}

end Sys2Proof.Machine
end

