-- ==== Sys2Proof/Machine/Tbl.lean ====
section
/-! DEFINITION. Sparse tables in one canonical form: keys rising, no entry equal to the reset record of its
key, so that equal tables are equal data. -/
namespace Sys2Proof.Machine

variable {α : Type}

/-- The record at key `i`; `d` gives the reset records. -/
def tget (d : Nat → α) : Tbl α → Nat → α
  | [], i => d i
  | (k, v) :: r, i => if k = i then v else tget d r i

/-- The table without key `i`. -/
def tdel (i : Nat) (t : Tbl α) : Tbl α := t.filter (fun e => e.1 ≠ i)

/-- Insertion in key order. -/
def tins (i : Nat) (v : α) : Tbl α → Tbl α
  | [] => [(i, v)]
  | (k, w) :: r => if i < k then (i, v) :: (k, w) :: r else (k, w) :: tins i v r

/-- The table with record `v` at key `i`, in canonical form. -/
def tput [DecidableEq α] (d : Nat → α) (i : Nat) (v : α) (t : Tbl α) : Tbl α :=
  if v = d i then tdel i t else tins i v (tdel i t)

/-- The table with the record at key `i` changed by `f`. -/
def tmod [DecidableEq α] (d : Nat → α) (i : Nat) (f : α → α) (t : Tbl α) : Tbl α :=
  tput d i (f (tget d t i)) t

/-- Every key from 0 to `n - 1` changed by `f`. -/
def tmap [DecidableEq α] (d : Nat → α) (n : Nat) (f : Nat → α → α) (t : Tbl α) : Tbl α :=
  (List.range n).foldl (fun t i => tmod d i (f i) t) t

/-- Keys strictly rising from above `lo`. -/
def risingFrom : Option Nat → Tbl α → Bool
  | _, [] => true
  | none, (k, _) :: r => risingFrom (some k) r
  | some b, (k, _) :: r => decide (b < k) && risingFrom (some k) r

/-- The canonical form of a table. -/
def twf [DecidableEq α] (d : Nat → α) (t : Tbl α) : Bool :=
  risingFrom none t && t.all (fun e => decide (e.2 ≠ d e.1))

end Sys2Proof.Machine
end

