-- ==== Sys2Proof/Machine/Ops.lean ====
section
/-! DEFINITION. The named operations over the state: reading and changing the record of one unit, memory,
time, counters, and the guard of a meaning whose operand names a unit. -/
namespace Sys2Proof.Machine

/-- A meaning whose operand names a unit: the next state when the unit exists, else the fault. -/
def guardUnit (ok : Bool) (s : State) : Out := if ok then .next s else .fault .noSuchUnit

/-! ### Parts of the state -/

def modSys (f : Sys → Sys) (s : State) : State := { s with sys := f s.sys }
def modCyc (f : Cyc → Cyc) (s : State) : State := { s with cyc := f s.cyc }
def modTide (f : Tide → Tide) (s : State) : State := { s with tide := f s.tide }
def modFv (f : Fv → Fv) (s : State) : State := { s with fv := f s.fv }
def modSaf (f : Saf → Saf) (s : State) : State := { s with saf := f s.saf }
def modTp (f : Tp → Tp) (s : State) : State := { s with tp := f s.tp }
def modPow (f : Pow → Pow) (s : State) : State := { s with pow := f s.pow }
def modSlu (f : Slu → Slu) (s : State) : State := { s with slu := f s.slu }
def modMot (f : Mot → Mot) (s : State) : State := { s with mot := f s.mot }
def modFio (f : Fio → Fio) (s : State) : State := { s with fio := f s.fio }
def modCan (f : Can → Can) (s : State) : State := { s with can := f s.can }
def modLin (f : Lin → Lin) (s : State) : State := { s with lin := f s.lin }
def modNm (f : Nm → Nm) (s : State) : State := { s with nm := f s.nm }
def modAq (f : Aq → Aq) (s : State) : State := { s with aq := f s.aq }
def modPwr (f : Pwr → Pwr) (s : State) : State := { s with pwr := f s.pwr }
def modImg (f : Img → Img) (s : State) : State := { s with img := f s.img }
def modLight (f : Light → Light) (s : State) : State := { s with light := f s.light }
def modAps (f : Aps → Aps) (s : State) : State := { s with aps := f s.aps }
def modTow (f : Tow → Tow) (s : State) : State := { s with tow := f s.tow }
def modNet (f : Net → Net) (s : State) : State := { s with net := f s.net }

/-! ### Records of units -/

def poundAt (s : State) (p : Nat) : Pound := tget pound0 s.fv.pounds p
def modPound (p : Nat) (f : Pound → Pound) (s : State) : State :=
  modFv (fun v => { v with pounds := tmod pound0 p f v.pounds }) s
def pqAt (s : State) (p : Nat) : PoundQ := tget pq0 s.fv.qs p
def modPq (p : Nat) (f : PoundQ → PoundQ) (s : State) : State :=
  modFv (fun v => { v with qs := tmod pq0 p f v.qs }) s
def winAt (s : State) (e : Nat) : Win := tget win0 s.fv.wins e
def modWin (e : Nat) (f : Win → Win) (s : State) : State :=
  modFv (fun v => { v with wins := tmod win0 e f v.wins }) s
def servoAt (s : State) (i : Nat) : Servo := tget servo0 s.tide.servos i
def modServo (i : Nat) (f : Servo → Servo) (s : State) : State :=
  modTide (fun t => { t with servos := tmod servo0 i f t.servos }) s
def domAt (s : State) (d : Nat) : Dom := tget dom0 s.tide.doms d
def modDom (d : Nat) (f : Dom → Dom) (s : State) : State :=
  modTide (fun t => { t with doms := tmod dom0 d f t.doms }) s
/-- A pound that starts has taken no snapshot (R72, `TSNAP_VALID`). -/
def clearSnap (p : Nat) (s : State) : State := modTide (fun t => { t with snaps := tput snap0 p {} t.snaps }) s
def toutAt (s : State) (i : Nat) : TOut := tget tout0 s.tide.touts i
def modTout (i : Nat) (f : TOut → TOut) (s : State) : State :=
  modTide (fun t => { t with touts := tmod tout0 i f t.touts }) s
def tinAt (s : State) (i : Nat) : TIn := tget tin0 s.tide.tins i
def modTin (i : Nat) (f : TIn → TIn) (s : State) : State :=
  modTide (fun t => { t with tins := tmod tin0 i f t.tins }) s
def gportAt (s : State) (p : Nat) : GPort := tget gport0 s.tide.gports p
def modGport (p : Nat) (f : GPort → GPort) (s : State) : State :=
  modTide (fun t => { t with gports := tmod gport0 p f t.gports }) s
def tsqAt (s : State) (p : Nat) : Tsq := tget tsq0 s.tide.tsqs p
def modTsq (p : Nat) (f : Tsq → Tsq) (s : State) : State :=
  modTide (fun t => { t with tsqs := tmod tsq0 p f t.tsqs }) s
def detAt (s : State) (bp : Nat) : Det := tget det0 s.saf.dets bp
def modDet (bp : Nat) (f : Det → Det) (s : State) : State :=
  modSaf (fun v => { v with dets := tmod det0 bp f v.dets }) s
def segAt (s : State) (i : Nat) : SegWear := tget seg0 s.saf.pond.segs i
def modSeg (i : Nat) (f : SegWear → SegWear) (s : State) : State :=
  modSaf (fun v => { v with pond := { v.pond with segs := tmod seg0 i f v.pond.segs } }) s
def modPond (f : Pond → Pond) (s : State) : State := modSaf (fun v => { v with pond := f v.pond }) s
def chanAt (s : State) (i : Nat) : Chan := tget chan0 s.pow.chans i
def modChan (i : Nat) (f : Chan → Chan) (s : State) : State :=
  modPow (fun v => { v with chans := tmod chan0 i f v.chans }) s
def grpAt (s : State) (i : Nat) : Grp := tget grp0 s.pow.grps i
def modGrp (i : Nat) (f : Grp → Grp) (s : State) : State :=
  modPow (fun v => { v with grps := tmod grp0 i f v.grps }) s
def clusterAt (s : State) (i : Nat) : Cluster := tget cluster0 s.pow.cls i
def modCluster (i : Nat) (f : Cluster → Cluster) (s : State) : State :=
  modPow (fun v => { v with cls := tmod cluster0 i f v.cls }) s
def wireTypeAt (s : State) (i : Nat) : WireType := tget wireType0 s.slu.types i
def modWireType (i : Nat) (f : WireType → WireType) (s : State) : State :=
  modSlu (fun v => { v with types := tmod wireType0 i f v.types }) s
def bundleAt (s : State) (i : Nat) : Bundle := tget bundle0 s.slu.bundles i
def modBundle (i : Nat) (f : Bundle → Bundle) (s : State) : State :=
  modSlu (fun v => { v with bundles := tmod bundle0 i f v.bundles }) s
def wireAt (s : State) (i : Nat) : WireCh := tget wireCh0 s.slu.wires i
def modWire (i : Nat) (f : WireCh → WireCh) (s : State) : State :=
  modSlu (fun v => { v with wires := tmod wireCh0 i f v.wires }) s
def adcAt (s : State) (i : Nat) : Adc := tget adc0 s.slu.adcs i
def modAdc (i : Nat) (f : Adc → Adc) (s : State) : State :=
  modSlu (fun v => { v with adcs := tmod adc0 i f v.adcs }) s
def budgetAt (s : State) (i : Nat) : Budget := tget budget0 s.slu.budgets i
def modBudget (i : Nat) (f : Budget → Budget) (s : State) : State :=
  modSlu (fun v => { v with budgets := tmod budget0 i f v.budgets }) s
def padAt (s : State) (i : Nat) : Pad := tget pad0 s.mot.pads i
def modPad (i : Nat) (f : Pad → Pad) (s : State) : State :=
  modMot (fun v => { v with pads := tmod pad0 i f v.pads }) s
def brAt (s : State) (i : Nat) : Br := tget br0 s.mot.brs i
def modBr (i : Nat) (f : Br → Br) (s : State) : State :=
  modMot (fun v => { v with brs := tmod br0 i f v.brs }) s
def brParAt (s : State) (i : Nat) : BrPar := tget brPar0 s.mot.pars i
def modBrPar (i : Nat) (f : BrPar → BrPar) (s : State) : State :=
  modMot (fun v => { v with pars := tmod brPar0 i f v.pars }) s
def brDynAt (s : State) (i : Nat) : BrDyn := tget brDyn0 s.mot.dyns i
def modBrDyn (i : Nat) (f : BrDyn → BrDyn) (s : State) : State :=
  modMot (fun v => { v with dyns := tmod brDyn0 i f v.dyns }) s
def diAt (s : State) (i : Nat) : Di := tget di0 s.fio.dis i
def modDi (i : Nat) (f : Di → Di) (s : State) : State :=
  modFio (fun v => { v with dis := tmod di0 i f v.dis }) s
def foAt (s : State) (i : Nat) : Fo := tget fo0 s.fio.fos i
def modFo (i : Nat) (f : Fo → Fo) (s : State) : State :=
  modFio (fun v => { v with fos := tmod fo0 i f v.fos }) s
def bankAt (s : State) (i : Nat) : FoBank := tget bank0 s.fio.banks i
def modBank (i : Nat) (f : FoBank → FoBank) (s : State) : State :=
  modFio (fun v => { v with banks := tmod bank0 i f v.banks }) s
def aiAt (s : State) (i : Nat) : Ai := tget ai0 s.fio.ais i
def modAi (i : Nat) (f : Ai → Ai) (s : State) : State :=
  modFio (fun v => { v with ais := tmod ai0 i f v.ais }) s
def supAt (s : State) (i : Nat) : Sup := tget sup0 s.fio.sups i
def modSup (i : Nat) (f : Sup → Sup) (s : State) : State :=
  modFio (fun v => { v with sups := tmod sup0 i f v.sups }) s
def tempAt (s : State) (i : Nat) : List (Nat × Int) := tget temp0 s.fio.temps i
def modTemp (i : Nat) (f : List (Nat × Int) → List (Nat × Int)) (s : State) : State :=
  modFio (fun v => { v with temps := tmod temp0 i f v.temps }) s
def canAt (s : State) (i : Nat) : CanCh := tget can0 s.can.chs i
def modCanCh (i : Nat) (f : CanCh → CanCh) (s : State) : State :=
  modCan (fun v => { v with chs := tmod can0 i f v.chs }) s
def filterAt (s : State) (i : Nat) : CanFilter := tget filter0 s.can.filters i
def modFilter (i : Nat) (f : CanFilter → CanFilter) (s : State) : State :=
  modCan (fun v => { v with filters := tmod filter0 i f v.filters }) s
def cschedAt (s : State) (i : Nat) : CanSched := tget csched0 s.can.scheds i
def modCsched (i : Nat) (f : CanSched → CanSched) (s : State) : State :=
  modCan (fun v => { v with scheds := tmod csched0 i f v.scheds }) s
def linAt (s : State) (i : Nat) : LinCh := tget lin0 s.lin.chs i
def modLinCh (i : Nat) (f : LinCh → LinCh) (s : State) : State :=
  modLin (fun v => { v with chs := tmod lin0 i f v.chs }) s
def linFrameAt (s : State) (i : Nat) : LinFrame := tget linFrame0 s.lin.frames i
def modLinFrame (i : Nat) (f : LinFrame → LinFrame) (s : State) : State :=
  modLin (fun v => { v with frames := tmod linFrame0 i f v.frames }) s
def linSlotAt (s : State) (i : Nat) : LinSlot := tget linSlot0 s.lin.slots i
def modLinSlot (i : Nat) (f : LinSlot → LinSlot) (s : State) : State :=
  modLin (fun v => { v with slots := tmod linSlot0 i f v.slots }) s
def nmcAt (s : State) (i : Nat) : NmCluster := tget nmCluster0 s.nm.cls i
def modNmc (i : Nat) (f : NmCluster → NmCluster) (s : State) : State :=
  modNm (fun v => { v with cls := tmod nmCluster0 i f v.cls }) s
def canWakeAt (s : State) (i : Nat) : CanWake := tget canWake0 s.nm.wakes i
def modCanWake (i : Nat) (f : CanWake → CanWake) (s : State) : State :=
  modNm (fun v => { v with wakes := tmod canWake0 i f v.wakes }) s
def t1At (s : State) (i : Nat) : T1 := tget t10 s.nm.t1s i
def modT1 (i : Nat) (f : T1 → T1) (s : State) : State :=
  modNm (fun v => { v with t1s := tmod t10 i f v.t1s }) s
def routeAt (s : State) (i : Nat) : Route := tget route0 s.aq.routes i
def modRoute (i : Nat) (f : Route → Route) (s : State) : State :=
  modAq (fun v => { v with routes := tmod route0 i f v.routes }) s
def talkerAt (s : State) (i : Nat) : Talker := tget talker0 s.aq.talkers i
def modTalker (i : Nat) (f : Talker → Talker) (s : State) : State :=
  modAq (fun v => { v with talkers := tmod talker0 i f v.talkers }) s
def listenerAt (s : State) (i : Nat) : Listener := tget listener0 s.aq.listeners i
def modListener (i : Nat) (f : Listener → Listener) (s : State) : State :=
  modAq (fun v => { v with listeners := tmod listener0 i f v.listeners }) s
def busSrcAt (s : State) (i : Nat) : BusSrc := tget busSrc0 s.aq.srcs i
def modBusSrc (i : Nat) (f : BusSrc → BusSrc) (s : State) : State :=
  modAq (fun v => { v with srcs := tmod busSrc0 i f v.srcs }) s
def ctxAt (s : State) (i : Nat) : Ctx := tget ctx0 s.aq.ctxs i
def modCtx (i : Nat) (f : Ctx → Ctx) (s : State) : State :=
  modAq (fun v => { v with ctxs := tmod ctx0 i f v.ctxs }) s
def awakeAt (s : State) (i : Nat) : Awake := tget awake0 s.pwr.awakes i
def modAwake (i : Nat) (f : Awake → Awake) (s : State) : State :=
  modPwr (fun v => { v with awakes := tmod awake0 i f v.awakes }) s
def bankImgAt (s : State) (i : Nat) : Bank := tget bankImg0 s.img.banks i
def modBankImg (i : Nat) (f : Bank → Bank) (s : State) : State :=
  modImg (fun v => { v with banks := tmod bankImg0 i f v.banks }) s
def slotImgAt (s : State) (i : Nat) : Slot := tget slot0 s.img.slots i
def modSlotImg (i : Nat) (f : Slot → Slot) (s : State) : State :=
  modImg (fun v => { v with slots := tmod slot0 i f v.slots }) s
def portAt (s : State) (i : Nat) : Port := tget port0 s.net.ports i
def modPort (i : Nat) (f : Port → Port) (s : State) : State :=
  modNet (fun v => { v with ports := tmod port0 i f v.ports }) s
def hfAt (s : State) (i : Nat) : HostFilter := tget hostFilter0 s.net.filters i
def modHf (i : Nat) (f : HostFilter → HostFilter) (s : State) : State :=
  modNet (fun v => { v with filters := tmod hostFilter0 i f v.filters }) s
def hringAt (s : State) (i : Nat) : HostRing := tget hostRing0 s.net.rings i
def modHring (i : Nat) (f : HostRing → HostRing) (s : State) : State :=
  modNet (fun v => { v with rings := tmod hostRing0 i f v.rings }) s
def saAt (s : State) (i : Nat) : Sa := tget sa0 s.net.sas i
def modSa (i : Nat) (f : Sa → Sa) (s : State) : State :=
  modNet (fun v => { v with sas := tmod sa0 i f v.sas }) s
def secyAt (s : State) (i : Nat) : SecY := tget secy0 s.net.secys i
def modSecy (i : Nat) (f : SecY → SecY) (s : State) : State :=
  modNet (fun v => { v with secys := tmod secy0 i f v.secys }) s
def swAt (s : State) (i : Nat) : SwPort := tget swPort0 s.net.sw i
def modSw (i : Nat) (f : SwPort → SwPort) (s : State) : State :=
  modNet (fun v => { v with sw := tmod swPort0 i f v.sw }) s
def vlanAt (s : State) (i : Nat) : Vlan := tget vlan0 s.net.vlans i
def modVlan (i : Nat) (f : Vlan → Vlan) (s : State) : State :=
  modNet (fun v => { v with vlans := tmod vlan0 i f v.vlans }) s
def fdbAt (s : State) (i : Nat) : Fdb := tget fdb0 s.net.fdb i
def modFdb (i : Nat) (f : Fdb → Fdb) (s : State) : State :=
  modNet (fun v => { v with fdb := tmod fdb0 i f v.fdb }) s
def queueAt (s : State) (i : Nat) : Queue := tget queue0 s.net.queues i
def modQueue (i : Nat) (f : Queue → Queue) (s : State) : State :=
  modNet (fun v => { v with queues := tmod queue0 i f v.queues }) s
def gateAt (s : State) (i : Nat) : Gate := tget gate0 s.net.gatesT i
def modGate (i : Nat) (f : Gate → Gate) (s : State) : State :=
  modNet (fun v => { v with gatesT := tmod gate0 i f v.gatesT }) s
def streamAt (s : State) (i : Nat) : Stream := tget stream0 s.net.streams i
def modStream (i : Nat) (f : Stream → Stream) (s : State) : State :=
  modNet (fun v => { v with streams := tmod stream0 i f v.streams }) s
def hostqAt (s : State) (i : Nat) : List Copy := tget hostq0 s.net.hostq i
def modHostq (i : Nat) (f : (List Copy) → (List Copy)) (s : State) : State :=
  modNet (fun v => { v with hostq := tmod hostq0 i f v.hostq }) s
def keyAt (s : State) (i : Nat) : Key := tget key0 s.light.keys i
def modKey (i : Nat) (f : Key → Key) (s : State) : State :=
  modLight (fun v => { v with keys := tmod key0 i f v.keys }) s
def boxAt (s : State) (i : Nat) : LhBox := tget lhBox0 s.light.boxes i
def modBox (i : Nat) (f : LhBox → LhBox) (s : State) : State :=
  modLight (fun v => { v with boxes := tmod lhBox0 i f v.boxes }) s
def coreAt (s : State) (i : Nat) : Core := tget core0 s.aps.cores i
def modCore (i : Nat) (f : Core → Core) (s : State) : State :=
  modAps (fun v => { v with cores := tmod core0 i f v.cores }) s
def logicalAt (s : State) (i : Nat) : Logical := tget logical0 s.aps.logicals i
def modLogical (i : Nat) (f : Logical → Logical) (s : State) : State :=
  modAps (fun v => { v with logicals := tmod logical0 i f v.logicals }) s
def partAt (s : State) (i : Nat) : Part := tget partition0 s.aps.parts i
def modPart (i : Nat) (f : Part → Part) (s : State) : State :=
  modAps (fun v => { v with parts := tmod partition0 i f v.parts }) s
def tpAt (s : State) (i : Nat) : TowPort := tget towPort0 s.tow.ports i
def modTpt (i : Nat) (f : TowPort → TowPort) (s : State) : State :=
  modTow (fun v => { v with ports := tmod towPort0 i f v.ports }) s
def bargeAt (s : State) (i : Nat) : Barge := tget barge0 s.tow.barges i
def modBarge (i : Nat) (f : Barge → Barge) (s : State) : State :=
  modTow (fun v => { v with barges := tmod barge0 i f v.barges }) s
def towReseqAt (s : State) (i : Nat) : TowReseq := tget towReseq0 s.tow.reseqs i
def modTowReseq (i : Nat) (f : TowReseq → TowReseq) (s : State) : State :=
  modTow (fun v => { v with reseqs := tmod towReseq0 i f v.reseqs }) s

/-- The rail lies within its limits (R555): 0 VKEEP, 1 VCORE, 2 VIO18, 3 VIO33, 4 V5. -/
def railOk (s : State) (r : Nat) : Bool := !(decide (r ∈ s.pwr.rails))

/-! ### Free values -/

/-- A free value and the state after it: the counter advances, so each use has a value of its own. -/
def takeFree (s : State) : Nat × State := (Config.freeValue s.free, { s with free := s.free + 1 })

/-! ### Memory (R34): a list of address and byte pairs in canonical form -/

/-- What an address that is not listed reads as (log entry 5). -/
def memDefault : Byte := 0

/-- Reading one byte. -/
def memRead : List Host.Cell → Nat → Byte
  | [], _ => memDefault
  | (a, b) :: r, i => if a = i then b else memRead r i

/-- `n` bytes from address `i`. -/
def memBytes (m : List Host.Cell) (i n : Nat) : List Byte := (List.range n).map (fun k => memRead m (i + k))

/-- Insertion of a listed byte in address order. -/
def memIns (i : Nat) (b : Byte) : List Host.Cell → List Host.Cell
  | [] => [(i, b)]
  | (a, c) :: r => if i < a then (i, b) :: (a, c) :: r else (a, c) :: memIns i b r

/-- Writing one byte: the default byte is not listed. -/
def memWrite (i : Nat) (b : Byte) (m : List Host.Cell) : List Host.Cell :=
  let m' := m.filter (fun c => c.1 ≠ i)
  if b = memDefault then m' else memIns i b m'

/-- Writing consecutive bytes from address `i`. -/
def memWriteBytes (i : Nat) (bs : List Byte) (m : List Host.Cell) : List Host.Cell :=
  match bs with
  | [] => m
  | b :: r => memWriteBytes (i + 1) r (memWrite i b m)

/-- Bytes written from address `i`; a poisoned 64-bit word written whole is sound again (R472). -/
def storeBytes (i : Nat) (bs : List Byte) (s : State) : State :=
  { s with
    mem := memWriteBytes i bs s.mem
    sys := { s.sys with poison := s.sys.poison.filter (fun w => !decide (i ≤ w ∧ w + 8 ≤ i + bs.length)) } }

/-- Addresses strictly rising from above `lo`. -/
def memRising : Option Nat → List Host.Cell → Bool
  | _, [] => true
  | none, (a, _) :: r => memRising (some a) r
  | some l, (a, _) :: r => decide (l < a) && memRising (some a) r

/-- The canonical form of memory. -/
def Memory.wf (m : List Host.Cell) : Bool :=
  memRising none m && m.all (fun c => decide (c.2 ≠ memDefault))

/-! ### Time -/

/-- One second in ns, and the modulus of the seconds field. -/
def nsPerSec : Nat := 1000000000

/-- Working time in ns (R53). -/
def workNs (s : State) : Nat := s.tide.sec * nsPerSec + s.tide.ns

/-- The working clock set to `t` ns (R64: ns below 10^9, 48-bit seconds). -/
def setWorkNs (t : Nat) (s : State) : State :=
  modTide (fun d => { d with sec := (t / nsPerSec) % 2 ^ 48, ns := t % nsPerSec }) s

/-- `t + e`, not below 0. -/
def addNs (t : Nat) (e : Int) : Nat := ((t : Int) + e).toNat

/-- Value of domain `d` at the present counter (R68): O + C × (1 + r), truncated towards negative
infinity, 64 bits signed. -/
def domValue (s : State) (d : Nat) : Int :=
  let m := domAt s d
  let c : Int := s.tide.counter
  toS 64 (ofS 64 (m.offset + c + (c * m.rate + (m.frac : Int)) / ((2 ^ 48 : Nat) : Int)))

/-- Time of a TIDE_OUT scale: the working clock or a domain (R87). -/
def scaleNow (s : State) (scale : Nat) : Int := if scale = 0 then (workNs s : Int) else domValue s scale

/-- Number of the cycle that begins at working time `t` (R54): the nearest multiple of P, the later one
at a tie, 48 bits. -/
def cycleNumberAt (t p : Nat) : Nat := ((t + p / 2) / p) % 2 ^ 48

/-- Two ns of the 500 MHz clock (R64, R67): the counter, which runs while the keeper domain has power, and, at its rate,
the working clock. The wake block's own time runs always. -/
def tick (s : State) : State :=
  modCyc (fun c => if c.running then { c with inCycle := c.inCycle + 2 } else c) <|
  modPwr (fun p => { p with age := p.age + 2 }) <|
  modTide (fun t =>
    if !s.pwr.keeper then t
    else if t.on then
      let inc : Int := ((2 * 2 ^ 48 : Nat) : Int) + 2 * t.rate + (t.frac : Int)
      let whole := (inc / ((2 ^ 48 : Nat) : Int)).toNat
      let rest := (inc % ((2 ^ 48 : Nat) : Int)).toNat
      let n := t.ns + whole
      { t with
        counter := (t.counter + 2) % 2 ^ 64
        frac := rest
        ns := n % nsPerSec
        sec := (t.sec + n / nsPerSec) % 2 ^ 48 }
    else { t with counter := (t.counter + 2) % 2 ^ 64 }) s

/-! ### Handles -/

/-- Handle of an object of this device (R391): tow address, class, instance. -/
def handleOf (s : State) (cls inst : Nat) : Nat := s.sys.tow * 2 ^ 26 + cls * 2 ^ 18 + inst

/-- Class of a handle. -/
def handleCls (h : Nat) : Nat := (h / 2 ^ 18) % 256

/-- An object list entry covers a handle (R455): consecutive instances of one class. -/
def covers (e : ObjEntry) (h : Nat) : Bool :=
  decide (e.first ≤ h ∧ h < e.first + e.count ∧ e.first / 2 ^ 18 = h / 2 ^ 18)

/-- The pound's object list covers the handle. -/
def lists (s : State) (p h : Nat) : Bool := (poundAt s p).objs.any (fun e => covers e.2 h)

/-- The pound holds the object in its share (R450): pound 0 holds every object. -/
def holds (s : State) (p h : Nat) : Bool := decide (p = 0) || lists s p h

/-- The object's owning pound by the object lists (R450); 0 when no list owns it. -/
def ownerOf (s : State) (h : Nat) : Nat :=
  ((List.range 32).find? (fun p => (poundAt s p).objs.any (fun e => e.2.own && covers e.2 h))).getD 0

/-- The pound owns the object, or is pound 0. -/
def ownerOr0 (s : State) (p h : Nat) : Bool := decide (p = 0) || decide (ownerOf s h = p)

/-- The endpoint window of a pound: its PCIe function, or 32 plus its partition (R400, R420). -/
def winOf (s : State) (p : Nat) : Option Nat :=
  let r := poundAt s p
  if r.kind = 1 then some r.func else if r.kind = 4 then some (32 + r.func) else none

/-- The pound bound to a window, if any (R446). -/
def poundOfWin (s : State) (e : Nat) : Option Nat :=
  (List.range 32).find? (fun p => decide (winOf s p = some e))

end Sys2Proof.Machine
end

