-- ==== Sys2Proof/Machine/Flags.lean ====
section
/-! DEFINITION. What the device reports: events with their rate limits, recipients and queues (R409,
R441-R443, R452, R640), interrupt causes (R408), transport counters (R422) and responses (R394-R399). -/
namespace Sys2Proof.Machine

/-! ### Rate limits -/

/-- Rate limit of an event code (R442). -/
inductive Limit | none | cycle | ms (k : Nat)
  deriving DecidableEq, Repr

/-- Codes limited to one per lock cycle (R444, limit C). -/
def limitC : List Nat :=
  [0x0201, 0x0204, 0x1001, 0x1003, 0x1007, 0x100A, 0x1105, 0x1106]
/-- Codes limited to one per 10 ms (R444, limit M10). -/
def limitM10 : List Nat := [0x1008, 0x1009, 0x2001, 0x2101, 0x2102, 0x2305, 0x2401]
/-- Codes limited to one per 100 ms (R444, limit M100). -/
def limitM100 : List Nat := [0x0102, 0x1402, 0x1601, 0x2006, 0x2206, 0x2307, 0x2402]
/-- Codes limited to one per second (R444, limit S1). -/
def limitS1 : List Nat :=
  [0x0103, 0x0303, 0x1004, 0x1005, 0x1006, 0x2009, 0x2309, 0x2404, 0x2505, 0x2604]

/-- The limit of R444's tables; every other code is delivered at each occurrence. -/
def evtLimit (code : Nat) : Limit :=
  if code ∈ limitC then .cycle
  else if code ∈ limitM10 then .ms 10
  else if code ∈ limitM100 then .ms 100
  else if code ∈ limitS1 then .ms 1000
  else .none

/-! ### Counters and interrupt causes -/

/-- A pound's transport counter `k` plus one, wrapping at 32 bits (R422). -/
def countPq (p k : Nat) (s : State) : State :=
  modPq p (fun q => { q with counters := tmod ctr0 k (fun n => (n + 1) % 2 ^ 32) q.counters }) s

/-- Bit `k` of a window's MBX_CAUSE is set; when it was clear and is enabled, its vector is signalled, or
deferred while MBX_MOD's interval runs (R408). -/
def signalVec (v : Nat) (now : Nat) (w : Win) : Win :=
  let x := tget vec0 w.vecs v
  let early := match x.last with
    | some t => decide (now < t + w.mod * 1000)
    | none => false
  if early then { w with vecs := tput vec0 v { x with deferred := true } w.vecs }
  else
    let y : Vec := { last := some now, deferred := false, sent := (x.sent + 1) % 2 ^ 32 }
    { w with vecs := tput vec0 v y w.vecs }

/-- Setting a cause bit (R408). -/
def setCause (k : Nat) (now : Nat) (w : Win) : Win :=
  let was := bitOf k w.cause
  let w' := { w with cause := w.cause ||| 2 ^ k }
  if !was && bitOf k w.causeEn then signalVec (fieldOf (2 * k) 2 w.vec) now w' else w'

/-- Recording an error in MBX_ERR (R400): the last code and ring, the saturating count, cause bit 4. -/
def recordErr (code ring now : Nat) (w : Win) : Win :=
  setCause 4 now { w with errCode := code, errRing := ring, errCount := sat 16 (w.errCount + 1) }

/-- Entries waiting in ring `k` of a window. -/
def ringUsed (w : Win) (k : Nat) : Nat :=
  let r := tget ring0 w.rings k
  (r.tail + 2 ^ 16 - r.head) % 2 ^ 16

/-! ### Placing an event in a pound's queue -/

/-- Events of the pound that wait, in the device and in its event ring (R409, R452). -/
def evtWaiting (s : State) (p : Nat) : Nat :=
  (pqAt s p).evt.length + (match winOf s p with
    | some e => if (winAt s e).running then ringUsed (winAt s e) 2 else 0
    | none => 0)

/-- The pound's event ring has no room for `n` more messages (R405, R409). -/
def evtRingFull (s : State) (p n : Nat) : Bool :=
  match winOf s p with
  | some e => (winAt s e).running &&
      decide (2 ^ (tget ring0 (winAt s e).rings 2).log2 < ringUsed (winAt s e) 2 + (pqAt s p).evt.length + n)
  | none => false

/-- The pound can be given messages: it has an endpoint. -/
def pThere (s : State) (p : Nat) : Bool :=
  match (poundAt s p).state with
  | .absent => false
  | .removed => false
  | _ => true

/-- An event is placed in the pound's queue, or discarded (R394, R409, R452). A discard counts in
MBX_EVT_LOST and `evt_lost` and uses a sequence number; when space exists again SYS_EVENTS_LOST, with the
number discarded, goes ahead of the event. SYS_COUNTER_HALF of `evt_lost` (R422) finds the queue as it was and is
discarded with it. A barge sends the event to the tug as a NOTE instead (R514). -/
def place (p : Nat) (e : Evt) (s : State) : State :=
  if s.sys.role = .barge then modFv (fun v => { v with bargeEvt := v.bargeEvt ++ [e] }) s else
  if !pThere s p then s else
  let q := pqAt s p
  let need := if q.lost = 0 then 1 else 2
  if (poundAt s p).evtRate ≤ q.rateCount ∨ (poundAt s p).evtQueue < evtWaiting s p + need ∨
      evtRingFull s p need = true then
    let n := if tget ctr0 q.counters 9 + 1 = 2 ^ 31 then 2 else 1
    let s1 := modPq p (fun q => { q with
      lost := q.lost + n, seq := (q.seq + n) % 2 ^ 16
      counters := tmod ctr0 9 (fun c => (c + n) % 2 ^ 32) q.counters }) s
    match winOf s p with
    | some w => modWin w (fun x => { x with evtLost := sat 32 (x.evtLost + n) }) s1
    | none => s1
  else
    let pre : List Evt :=
      if q.lost = 0 then []
      else [{ code := 0x0101, handle := handleOf s 1 (0x200 + p), cycle := s.cyc.number,
              value := q.lost, seq := q.seq }]
    let sq := (q.seq + pre.length) % 2 ^ 16
    modPq p (fun q => { q with
      evt := q.evt ++ pre ++ [{ e with seq := sq }]
      seq := (sq + 1) % 2 ^ 16
      lost := 0
      rateCount := q.rateCount + 1 }) s

/-- Delivery of an occurrence to one pound under the code's limit (R442). -/
def deliver (e : Evt) (p : Nat) (s : State) : State :=
  match evtLimit e.code with
  | .none => place p e s
  | _ =>
    let here := fun (w : RateWin) => decide (w.pound = p ∧ w.code = e.code ∧ w.handle = e.handle)
    if s.fv.rateWins.any here then
      modFv (fun v => { v with rateWins := v.rateWins.map (fun w =>
        if here w then { w with withheld := w.withheld + 1, last := some e } else w) }) s
    else
      place p e (modFv (fun v => { v with
        rateWins := v.rateWins ++ [{ pound := p, code := e.code, handle := e.handle }] }) s)

/-- A rate window closes (R442): when occurrences were withheld, the last is delivered with the number of
the others in `suppressed` and a new window opens; otherwise the window is gone. -/
def closeWin (w : RateWin) (s : State) : State :=
  let rest := s.fv.rateWins.filter (fun x => decide (¬(x.pound = w.pound ∧ x.code = w.code ∧ x.handle = w.handle)))
  match w.last with
  | none => modFv (fun v => { v with rateWins := rest }) s
  | some e =>
    place w.pound { e with supp := sat 16 (w.withheld - 1) }
      (modFv (fun v => { v with rateWins := rest ++ [{ pound := w.pound, code := w.code, handle := w.handle }] }) s)

/-! ### Raising an event -/

/-- Classes whose every event goes to pound 0 (R443). -/
def pound0Classes : List Nat :=
  [0x01, 0x02, 0x17, 0x30, 0x31, 0x40, 0x50, 0x51, 0x60, 0x61, 0x62, 0x70, 0x80, 0x81]

/-- The pound subscribes to the event (R428, R443). -/
def subscribed (s : State) (p : Nat) (e : Evt) : Bool :=
  s.fv.subs.any (fun b => decide (b.pound = p ∧ b.first ≤ e.handle ∧ e.handle < b.first + b.count ∧
    b.first / 2 ^ 18 = e.handle / 2 ^ 18 ∧ handleCls e.handle = e.code / 256) &&
    bitOf (e.code % 256 - 1) b.mask)

/-- The pounds that receive an event (R443): subscribers, the directed pound, and pound 0 for its classes
and for objects that no other pound's list covers. Each receives it once. -/
def recipients (s : State) (e : Evt) (dest : Option Nat) : List Nat :=
  (List.range 32).filter (fun p =>
    subscribed s p e || decide (dest = some p) ||
    (decide (p = 0) && (decide (e.code / 256 ∈ pound0Classes) ||
      !((List.range 32).any (fun k => decide (k ≠ 0) && lists s k e.handle)))))

/-- Codes whose condition leaves a latch while the firmware does not run (R640): detectors, Towpath,
channel trips and records, field output faults and expiries, wakes, counters, and a revert of the
image, which the firmware that then runs reports (R602). -/
def latchable (code : Nat) : Bool :=
  decide (code / 256 ∈ [0x10, 0x17, 0x60]) ||
  decide (code ∈ [0x1501, 0x1502, 0x7003, 0x8001, 0x0103, 0x2009, 0x2309, 0x2404, 0x2505, 0x2604])

/-- The cycle number of a latched event while the cycle timer is stopped: the first cycle after it restarts takes
its place (R640). -/
def noCycle : Nat := 2 ^ 48

/-- An event raised for its recipients; a FULL breach run withholds its own class (R563). A barge applies its rate limits
once for the tug (R514). -/
def raiseEvt (e : Evt) (dest : Option Nat) (s : State) : State :=
  if e.code / 256 ∈ s.saf.mute then s
  else if s.fv.fw then (if s.sys.role = .barge then [0] else recipients s e dest).foldl (fun s p => deliver e p s) s
  else if latchable e.code then modFv (fun v => { v with latched := v.latched ++ [{ e with cycle := if s.cyc.running then e.cycle else noCycle }] }) s
  else s

/-- An event of an object of this device, with the prefix fields of R441. -/
def emit (code inst : Nat) (s : State) (cause : Nat := 0) (flags : Nat := 0) (value : Int := 0)
    (ext : List Nat := []) (dest : Option Nat := none) : State :=
  raiseEvt { code := code, handle := handleOf s (code / 256) inst, cycle := s.cyc.number,
             cause := cause, flags := flags, value := value, ext := ext } dest s

/-- A transport counter of a pound plus one; SYS_COUNTER_HALF when its top bit sets (R422). -/
def bumpPq (p k : Nat) (s : State) : State :=
  let s1 := countPq p k s
  if tget ctr0 (pqAt s1 p).counters k = 2 ^ 31 then emit 0x0103 (0x200 + p) s1 (cause := k) else s1

/-- A wrapping counter plus one and whether its top bit has just set (R274, R328, R347, R389, R422). -/
def bump (w n : Nat) : Nat × Bool := ((n + 1) % 2 ^ w, decide (n + 1 = 2 ^ (w - 1)))

/-- SYS_TRANSPORT for a pound's window (R409, R444): the code recorded, 0x10 or 0x11. -/
def emitTransport (p cause : Nat) (s : State) : State :=
  emit 0x0102 (0x200 + p) s (cause := cause) (dest := some p)

/-! ### Responses -/

/-- A response enters the response queue of pound `p` (R394, R395). A pound that is resetting has its responses
discarded (R457); on a barge the response goes to the tug (R512). -/
def respondTo (p : Nat) (m : Msg) (s : State) : State :=
  if s.sys.role = .barge then
    modPq p (fun q => { q with unanswered := q.unanswered - 1 }) (modFv (fun v => { v with bargeRsp := v.bargeRsp ++ [m] }) s)
  else if (poundAt s p).state = .resetting then modPq p (fun q => { q with unanswered := q.unanswered - 1 }) s
  else modPq p (fun q => { q with rsp := q.rsp ++ [m], unanswered := q.unanswered - 1 }) s

/-- A response enters the queue of the pound it names. -/
def respond (m : Msg) (s : State) : State := respondTo m.pound m s

end Sys2Proof.Machine
end

