-- ==== Sys2Proof/Machine/Detect.lean ====
section
/-! DEFINITION. Detection (R552), FAULT_N (R562), the causes of the safe state (R557) and of the Towpath
(R221): what every chapter's detectors share. -/
namespace Sys2Proof.Machine

/-! ### FAULT_N -/

/-- A source of R562 holds. -/
def faultSource (s : State) : Bool :=
  s.saf.inForce || s.saf.dets.any (fun e => e.2.latched && e.2.faultN) ||
  bitOf 0 s.tp.causes || bitOf 2 s.tp.causes || bitOf 3 s.tp.causes || !s.sys.rstN

/-- FAULT_N falls with the first source, whether or not the Lockkeeper runs (R562). -/
def faultFall (s : State) : State :=
  if faultSource s && !s.saf.faultN then
    modSaf (fun v => { v with faultN := true, faultAt := s.tide.counter }) s
  else s

/-- FAULT_N rises only at a boundary at which no source holds, and not within 1 ms of its fall (R562). -/
def faultRise (s : State) : State :=
  if !faultSource s && s.saf.faultN && decide (s.saf.faultAt + 1000000 ≤ s.tide.counter) then
    modSaf (fun v => { v with faultN := false }) s
  else s

/-! ### Safe-state causes -/

/-- Time to the next boundary (ns). -/
def toBoundary (s : State) : Nat := s.cyc.length - s.cyc.inCycle

/-- A request for the safe state by cause bit `k` (R557). In force already, the cause is added and no
output changes; a release that waits is withdrawn (R572). `OVERRUN` and `COMMAND` name their boundary themselves; for the other causes the boundary
serves when it lies within 700 µs, else the strobe. -/
def safeRequest (k bp : Nat) (s : State) : State :=
  let s := if s.saf.causes = 0 ∧ s.saf.atBoundary = 0 ∧ s.saf.atStrobe = 0 then
      modSaf (fun v => { v with firstBp := bp, tD := s.tide.counter }) s else s
  let s := modSaf (fun v => { v with relPend := false }) s
  if s.saf.inForce then modSaf (fun v => { v with causes := v.causes ||| 2 ^ k }) s
  else if s.cyc.running && decide (toBoundary s ≤ 700000) then
    modSaf (fun v => { v with atBoundary := v.atBoundary ||| 2 ^ k }) s
  else modSaf (fun v => { v with atStrobe := v.atStrobe ||| 2 ^ k }) s

/-- Cause bit of an escalated detection: THERMAL, SUPPLY or DETECTOR (R555, R557). -/
def causeBit (bp : Nat) : Nat := if bp = 0x026 then 3 else if bp ∈ [0x023, 0x024, 0x025] then 4 else 1

/-! ### Detection -/

/-- A detection is counted and latched, reported by SAFE_DETECT, and asserts FAULT_N (R552). `live` marks a
condition that stays present until `detectEnd`. -/
def detectLatch (bp : Nat) (live : Bool) (s : State) : State :=
  let s := modDet bp (fun d => { d with
    count := sat 32 (d.count + 1), latched := true, active := live, lastCycle := s.cyc.number }) s
  let s := emit 0x6001 (0x100 + bp) s (cause := bp) (flags := 1) (value := s.tide.counter % 2 ^ 47)
  faultFall s

/-- A detection (R552): with the escalation in force it requests the safe state. `CYCLE_OVERRUN` escalates by
R52 alone. The detection that a breach run injects has no such consequence (R563). -/
def detect (bp : Nat) (live : Bool) (s : State) : State :=
  if s.saf.mute ≠ [] then s else
  let s := detectLatch bp live s
  if (detAt s bp).escalate && decide (bp ≠ 0x019) then safeRequest (causeBit bp) bp s else s

/-- The condition of a detector ends (R573): SAFE_DETECT without ENTRY. -/
def detectEnd (bp : Nat) (s : State) : State :=
  if (detAt s bp).active then
    emit 0x6001 (0x100 + bp) (modDet bp (fun d => { d with active := false }) s) (cause := bp)
  else s

/-! ### Towpath causes -/

/-- Towpath causes set and cleared together; the events of R236. A new engagement is recorded with its cycle
and starts the step count; a cause set during a hand-back cancels it (R234). -/
def setTpCauses (new : Nat) (s : State) : State :=
  let old := s.tp.causes
  if new = old then s else
  let s := modTp (fun t => { t with causes := new }) s
  let s :=
    if old = 0 then
      emit 0x1701 0 (modTp (fun t => { t with
          engagedCycle := s.cyc.number, rcSteps := 0, handBack := .none, fresh := true }) s) (cause := new)
    else emit 0x1704 0 (if new ≠ 0 then modTp (fun t => { t with handBack := .none }) s else s)
           (cause := new) (flags := old)
  faultFall s

/-- Cause bit `k` is set. -/
def tpSet (k : Nat) (s : State) : State := setTpCauses (s.tp.causes ||| 2 ^ k) s

/-- Cause bit `k` is cleared. -/
def tpClear (k : Nat) (s : State) : State :=
  setTpCauses (if bitOf k s.tp.causes then s.tp.causes - 2 ^ k else s.tp.causes) s

/-! ### Access to the pond log -/

/-- An entry of the wear log (R571). -/
def wearLog (kind unit what : Nat) (s : State) : State :=
  modPond (fun p => { p with log := p.log ++ [⟨kind, unit, what, s.cyc.number⟩], repCycle := s.cyc.number }) s

/-- POND_WEAR (R566, R573): `none` marks a kind without a spare left. -/
def pondWear (kind unit : Nat) (fig : Int) (empty : Bool) (s : State) : State :=
  emit 0x6202 unit s (cause := kind) (flags := flag 1 empty) (value := fig)

/-- Quarters of the threshold a figure has reached. -/
def quarters (fig : Int) (thr : Nat) : Nat := min 4 ((4 * fig.toNat) / thr)

/-- Every spare of a kind is in use or failed (R566). -/
def kindEmpty (s : State) (kind : Nat) : Bool :=
  let p := s.saf.pond
  match kind with
  | 1 => (List.range 32).all (fun i => decide ((segAt s i).spare ≠ 0))
  | 2 => (List.range 5).all (fun g => (adcAt s g).swapped || (adcAt s g).spareBad)
  | 3 => decide (p.canSpare ≠ 0)
  | 4 => decide (p.coreSpare ≠ 0)
  | 5 => decide (2 ≤ p.sramUsed)
  | _ => decide (512 ≤ p.rows)

/-- A unit of a side pond is brought in: the log, POND_IN, and POND_WEAR when the kind has no spare left
(R566, R571, R573). -/
def pondIn (kind unit : Nat) (fig : Int) (s : State) : State :=
  let s := emit 0x6201 unit (wearLog kind unit 1 s) (cause := kind) (value := fig)
  if kindEmpty s kind then pondWear kind unit fig true s else s

end Sys2Proof.Machine
end

