-- ==== Sys2Proof/Machine/Frames.lean ====
section
/-! DEFINITION. Ethernet frames as bytes, the frame parser of R337, Internet checksums, datagrams the
Lockkeeper builds (R410, R294), port counters (R347), the link state of a port, and the Lockkeeper's way
into the Basin. -/
namespace Sys2Proof.Machine

/-! ### Bytes -/

/-- `k` big-endian bytes of `n`: network byte order. -/
def beBytes (k n : Nat) : List Byte := (leBytes k n).reverse

/-- Big-endian value of bytes. -/
def beNat (bs : List Byte) : Nat := leNat bs.reverse

/-- The `w`-byte big-endian field at byte `off`. -/
def beAt (bs : List Byte) (off w : Nat) : Nat := beNat ((bs.drop off).take w)

/-- Tag control information of the outer tag. -/
def tciOf (f : EthFrame) : Nat :=
  if f.tagged then f.pcp * 8192 + (if f.dei then 4096 else 0) + f.vid else 0

/-- The frame from the destination address to the last data byte, without FCS. -/
def frameBytes (f : EthFrame) : List Byte :=
  beBytes 6 f.dst ++ beBytes 6 f.src ++
  (if f.tagged then beBytes 2 0x8100 ++ beBytes 2 (tciOf f) else []) ++
  (match f.rtag with | some q => beBytes 2 0xF1C1 ++ beBytes 2 0 ++ beBytes 2 q | none => []) ++
  beBytes 2 f.etype ++ f.payload

/-- Frame length from destination address to FCS (R334), padding to 64 bytes included. -/
def frameLen (f : EthFrame) : Nat := max 64 ((frameBytes f).length + 4)

/-- The R-TAG and EtherType that follow the tags (R383). -/
def parseAfterTag (f : EthFrame) (b : List Byte) : EthFrame :=
  if beAt b 0 2 = 0xF1C1 ∧ 8 ≤ b.length then
    { f with rtag := some (beAt b 4 2), etype := beAt b 6 2, payload := b.drop 8 }
  else { f with etype := beAt b 0 2, payload := b.drop 2 }

/-- Reading a frame from its bytes without FCS. -/
def parseEth (b : List Byte) : EthFrame :=
  let f : EthFrame := { dst := beAt b 0 6, src := beAt b 6 6 }
  if beAt b 12 2 = 0x8100 then
    let t := beAt b 14 2
    parseAfterTag { f with tagged := true, pcp := t / 8192, dei := bitOf 12 t, vid := t % 4096 } (b.drop 16)
  else parseAfterTag f (b.drop 12)

/-- The first byte's lowest bit marks a group address. -/
def isGroup (mac : Nat) : Bool := bitOf 40 mac

/-- The broadcast address. -/
def isBroadcast (mac : Nat) : Bool := decide (mac = 0xFFFFFFFFFFFF)

/-! ### IP (R337) -/

/-- What the parser of R337 finds: offsets count from the start of the payload. -/
structure IpInfo where
  v6     : Bool
  at_    : Nat            -- IP header
  hdr    : Nat            -- IPv4 header bytes
  l4     : Nat            -- TCP or UDP header
  l4Len  : Nat            -- its length with data, from the IP header
  proto  : Nat
  frag   : Bool           -- IPv4 fragment or IPv6 fragment header
  deriving DecidableEq, Repr

/-- IPv6 extension headers 0, 43 and 60, at most two. -/
def skipExt (b : List Byte) : Nat → Nat → Nat → Nat × Nat
  | 0, next, off => (next, off)
  | n + 1, next, off =>
    if next = 0 ∨ next = 43 ∨ next = 60 then skipExt b n (beAt b off 1) (off + 8 + 8 * beAt b (off + 1) 1)
    else (next, off)

/-- A second VLAN tag ahead of the IP header: its bytes and the EtherType behind it. -/
def innerTag (f : EthFrame) : Nat × Nat :=
  if (f.etype = 0x8100 ∨ f.etype = 0x88A8) ∧ f.tagged = true then (4, beAt f.payload 2 2) else (0, f.etype)

/-- The structure of R337, and only it. A frame with an R-TAG is outside it. -/
def parseIp (f : EthFrame) : Option IpInfo :=
  let (o, et) := innerTag f
  let b := f.payload
  if f.rtag.isSome then none
  else if et = 0x0800 then
    let ihl := beAt b o 1 % 16
    let tot := beAt b (o + 2) 2
    if beAt b o 1 / 16 = 4 ∧ 5 ≤ ihl ∧ 4 * ihl ≤ tot ∧ o + tot ≤ b.length then
      some { v6 := false, at_ := o, hdr := 4 * ihl, l4 := o + 4 * ihl, l4Len := tot - 4 * ihl
             proto := beAt b (o + 9) 1, frag := decide (beAt b (o + 6) 2 % 16384 ≠ 0) }
    else none
  else if et = 0x86DD then
    let tot := beAt b (o + 4) 2
    if beAt b o 1 / 16 = 6 ∧ o + 40 + tot ≤ b.length then
      let (p, l4) := skipExt b 2 (beAt b (o + 6) 1) (o + 40)
      if l4 ≤ o + 40 + tot then
        some { v6 := true, at_ := o, hdr := 40, l4 := l4, l4Len := o + 40 + tot - l4, proto := p
               frag := decide (p = 44) }
      else none
    else none
  else none

/-- One's complement sum of bytes taken as 16-bit words. -/
def sum16 : List Byte → Nat
  | [] => 0
  | [a] => a.toNat * 256
  | a :: b :: r => a.toNat * 256 + b.toNat + sum16 r

/-- The Internet checksum over a sum of words. -/
def inetCheck (n : Nat) : Nat :=
  let a := n % 65536 + n / 65536
  let b := a % 65536 + a / 65536
  65535 - (b % 65536 + b / 65536) % 65536

/-- Pseudo-header sum: addresses, protocol and length from the IP header. -/
def pseudoSum (b : List Byte) (i : IpInfo) : Nat :=
  (if i.v6 then sum16 ((b.drop (i.at_ + 8)).take 32) else sum16 ((b.drop (i.at_ + 12)).take 8)) + i.proto + i.l4Len

/-- Sum over the TCP or UDP header and data with the pseudo-header. -/
def l4Sum (b : List Byte) (i : IpInfo) : Nat := pseudoSum b i + sum16 ((b.drop i.l4).take i.l4Len)

/-- The protocol has a checksum the device handles: TCP or UDP, whole. -/
def hasL4 (i : IpInfo) : Bool :=
  !i.frag && (decide (i.proto = 6 ∧ 20 ≤ i.l4Len) || decide (i.proto = 17 ∧ 8 ≤ i.l4Len))

/-- Result of verifying the IPv4 header checksum (R339): 0 not checked, 1 good, 2 bad. -/
def checkIp (f : EthFrame) : Nat :=
  match parseIp f with
  | some i => if i.v6 then 0 else if inetCheck (sum16 ((f.payload.drop i.at_).take i.hdr)) = 0 then 1 else 2
  | none => 0

/-- Result of verifying the TCP or UDP checksum (R339). An IPv4 UDP checksum of 0 is not checked. -/
def checkL4 (f : EthFrame) : Nat :=
  match parseIp f with
  | some i =>
    if !hasL4 i then 0
    else if i.proto = 17 ∧ i.v6 = false ∧ beAt f.payload (i.l4 + 6) 2 = 0 then 0
    else if inetCheck (l4Sum f.payload i) = 0 then 1 else 2
  | none => 0

/-- Bytes written over others at an offset; what does not fit is not written. -/
def overlay (b : List Byte) (off : Nat) (w : List Byte) : List Byte :=
  (b.take off ++ w ++ b.drop (off + w.length)).take (max b.length off)

/-- Position of the checksum in the TCP or UDP header. -/
def l4CsumAt (i : IpInfo) : Nat := if i.proto = 6 then i.l4 + 16 else i.l4 + 6

/-- The IPv4 header checksum computed and written. -/
def putIpCsum (b : List Byte) (i : IpInfo) : List Byte :=
  if i.v6 then b
  else
    let z := overlay b (i.at_ + 10) (beBytes 2 0)
    overlay z (i.at_ + 10) (beBytes 2 (inetCheck (sum16 ((z.drop i.at_).take i.hdr))))

/-- The TCP or UDP checksum computed and written; a computed UDP checksum of 0 is sent as 0xFFFF. -/
def putL4Csum (b : List Byte) (i : IpInfo) : List Byte :=
  let z := overlay b (l4CsumAt i) (beBytes 2 0)
  let c := inetCheck (l4Sum z i)
  overlay z (l4CsumAt i) (beBytes 2 (if i.proto = 17 ∧ c = 0 then 0xFFFF else c))

/-- The frame carries an ECN-capable transport: ECN field 01, 10 or 11 (R368). -/
def ecnOf (f : EthFrame) : Nat :=
  match parseIp f with
  | some i => if i.v6 then (beAt f.payload i.at_ 2 / 16) % 4 else beAt f.payload (i.at_ + 1) 1 % 4
  | none => 0

/-- ECN set to 11, the IPv4 header checksum adjusted with it (R369). -/
def markEcn (f : EthFrame) : EthFrame :=
  match parseIp f with
  | some i =>
    if i.v6 then
      { f with payload := overlay f.payload i.at_ (beBytes 2 (beAt f.payload i.at_ 2 ||| 0x30)) }
    else
      let old := beAt f.payload i.at_ 2
      let new := old ||| 3
      let c := beAt f.payload (i.at_ + 10) 2
      let b := overlay f.payload i.at_ (beBytes 2 new)
      { f with payload := overlay b (i.at_ + 10) (beBytes 2 (inetCheck ((65535 - c) + (65535 - old) + new))) }
  | none => f

/-! ### Datagrams of the Lockkeeper -/

/-- Destination address of an IP multicast group. -/
def groupMac (v6 : Bool) (ip : Nat) : Nat :=
  if v6 then 0x333300000000 + ip % 2 ^ 32 else 0x01005E000000 + ip % 2 ^ 23

/-- A UDP datagram in an Ethernet frame. Hop limit 64. -/
def udpFrame (v6 : Bool) (mac vid srcIp dstIp srcPort dstPort : Nat) (data : List Byte) : EthFrame :=
  let len := 8 + data.length
  let udp := beBytes 2 srcPort ++ beBytes 2 dstPort ++ beBytes 2 len ++ beBytes 2 0 ++ data
  let ip :=
    if v6 then beBytes 4 0x60000000 ++ beBytes 2 len ++ beBytes 1 17 ++ beBytes 1 64 ++ beBytes 16 srcIp ++ beBytes 16 dstIp
    else beBytes 2 0x4500 ++ beBytes 2 (20 + len) ++ beBytes 4 0x4000 ++ beBytes 1 64 ++ beBytes 1 17 ++ beBytes 2 0 ++
      beBytes 4 srcIp ++ beBytes 4 dstIp
  let f : EthFrame := { dst := mac, tagged := decide (vid ≠ 0), vid := vid
                        etype := if v6 then 0x86DD else 0x0800, payload := ip ++ udp }
  match parseIp f with
  | some i => { f with payload := putL4Csum (putIpCsum f.payload i) i }
  | none => f

/-! ### Frame records of the Aqueduct -/

/-- `n` bytes rounded up to a multiple of `m`. -/
def roundUp (m n : Nat) : Nat := (n + m - 1) / m * m

/-- Data padded with zero bytes to a multiple of `m`. -/
def padTo (m : Nat) (d : List Byte) : List Byte := d ++ List.replicate (roundUp m d.length - d.length) 0

/-- The record of an accepted frame (R254), or the bus event record (R319). -/
def recBytes (r : AqFrame) : List Byte :=
  let f := r.frame
  match r.ev with
  | some e =>
    leBytes 1 r.chan ++ leBytes 1 3 ++ leBytes 2 e.ev ++ leBytes 4 e.info ++ leBytes 2 e.tec ++ leBytes 2 e.recv ++
      leBytes 4 0 ++ leBytes 6 r.sec ++ leBytes 2 0 ++ leBytes 4 r.ns ++ leBytes 2 0 ++ leBytes 2 r.seq
  | none =>
    leBytes 1 r.chan ++
      leBytes 1 (f.kind % 4 + flag 2 f.ide + flag 3 f.rtr + flag 4 f.brs + flag 5 f.esi + flag 6 f.sec) ++
      leBytes 2 f.data.length ++ leBytes 4 f.id ++ leBytes 1 f.dlc ++ leBytes 1 f.sdt ++ leBytes 1 f.vcid ++
      leBytes 1 0 ++ leBytes 4 f.af ++ leBytes 6 r.sec ++ leBytes 2 r.filter ++ leBytes 4 r.ns ++
      leBytes 2 r.route ++ leBytes 2 r.seq ++ padTo 8 f.data

/-! ### Into the Basin -/

/-- A frame held whole joins the frames that wait for classification. -/
def toBasin (x : NetFrame) (s : State) : State :=
  modNet (fun n => { n with toBasin := n.toBasin ++ [{ x with fid := n.nextFid }], nextFid := n.nextFid + 1 }) s

/-- The Lockkeeper sends a frame: on one port, or through forwarding as a frame of port 12. A frame for one
port carries that port's station address (R332). -/
def keeperSend (port : Option Nat) (f : EthFrame) (s : State) : State :=
  let src := match port with | some p => (portAt s p).station | none => f.src
  toBasin { f := { f with src := src }, ing := 12, arr := workNs s, direct := port } s

/-! ### Forwarding lookup (R364, R365) -/

/-- Enabled entries of the table that match: kind, address, VID and ingress port. -/
def fdbFind (s : State) (kind mac vid inp : Nat) : Option Fdb :=
  (s.net.fdb.find? (fun e => decide (e.2.kind = kind ∧ e.2.mac = mac ∧ e.2.vid = vid) && !e.2.bad &&
    (decide (kind = 1) || decide (e.2.inMask = 0) || bitOf inp e.2.inMask))).map (·.2)

/-- Ports that are members of a VID. -/
def members16 (s : State) (vid : Nat) : Nat := let v := vlanAt s vid; if v.bad then 0 else v.member

/-- Ports of a mask that satisfy `f`, as a mask. -/
def portMask (f : Nat → Bool) : Nat := (List.range 16).foldl (fun n p => n + flag p (f p)) 0

/-- FDB lookup (R364, R365): the mask, the replacement priority, and whether the entry drops. -/
def fdbLookup (s : State) (dst vid inp : Nat) : Nat × Option Nat × Bool :=
  match fdbFind s 1 dst vid inp with
  | some e => (e.mask, if e.prioEn then some e.prio else none, e.drop)
  | none =>
    if isBroadcast dst then (0xFFFF, none, false)
    else if isGroup dst then (portMask (fun p => (swAt s p).floodMc), none, false)
    else (portMask (fun p => (swAt s p).floodUc), none, false)

/-- Ports an extended tunnel may egress: those its destination address leads to. -/
def extOk (t : State) (k : Talker) : Bool :=
  !(k.en && k.ext) ||
  (let vid := if k.vid ≠ 0 then k.vid else (swAt t 13).pvid
   let m := (fdbLookup t k.dst vid 13).1 &&& members16 t vid
   (List.range 12).all (fun p => !bitOf p m || (portAt t p).extEn))

/-- Every extended tunnel keeps to ports on which extended frames are enabled (R307). -/
def extFine (t : State) : Bool := (List.range 64).all (fun i => extOk t (talkerAt t i))

/-- A SET that leads from `s` to `t` would let an extended tunnel egress another port (R307). -/
def breaksExt (s t : State) : Bool := extFine s && !extFine t

/-! ### Port counters and link -/

/-- A port counter plus `n` (R347): octet counters are 48 bits wide, frame counters 32. -/
def countPort (p k n : Nat) (s : State) : State :=
  let w := if k = 0 ∨ k = 10 then 48 else 32
  let old := tget ctr0 s.net.counters (32 * p + k)
  let s1 := modNet (fun v => { v with counters := tput ctr0 (32 * p + k) ((old + n) % 2 ^ w) v.counters }) s
  if old < 2 ^ (w - 1) ∧ 2 ^ (w - 1) ≤ old + n then emit 0x2404 (0x100 + p) s1 (cause := k) else s1

/-- The link of a port takes a value; PORT_LINK on each change (R331). A transition to down is counted, and
the frame on the wire is ended with an invalid FCS and counted in `tx_link_down`. -/
def setLink (p l : Nat) (s : State) : State :=
  if (portAt s p).link = l then s
  else
    let s := modPort p (fun x => { x with link := l, linkCycle := s.cyc.number }) s
    let s := if l = 0 then countPort p 18 1 s else s
    let s := match (portAt s p).sending with
      | some c => if l = 1 then s else countPort p 15 1 (modPort p (fun x => { x with
          sending := none, wire := some { f := c.2.fr.f, fcsOk := false } }) s)
      | none => s
    emit 0x2401 p s (cause := l) (value := (portAt s p).speedNow)

end Sys2Proof.Machine
end

