-- ==== Sys2Proof/Machine/TowLine.lean ====
section
/-! DEFINITION. Faval messages as bytes (R391-R395), the towline frame as bytes (R8, R498) and as the blocks of its
line code (R495). -/
namespace Sys2Proof.Machine

/-! ### Lengths (R498, R499, R501) -/

/-- Widths in bytes of an event's extension fields with the reserved bytes after each (R444). -/
def extWidths (code : Nat) : List (Nat × Nat) :=
  if code ∈ [0x0203, 0x1007, 0x100A] then [(6, 2)]
  else if code = 0x1001 then [(6, 0), (1, 1)]
  else if code ∈ [0x1105, 0x1106] then [(10, 6)]
  else if code ∈ [0x1301, 0x1302, 0x1303, 0x1304] then [(4, 0), (4, 0)]
  else if code = 0x1401 then [(6, 2), (4, 4)]
  else if code ∈ [0x2001, 0x2002] then [(2, 0), (2, 0)]
  else if code = 0x2004 then [(2, 2)]
  else if code = 0x2005 then [(2, 2), (6, 2), (4, 0)]
  else if code = 0x2301 then [(2, 0), (1, 1)]
  else if code = 0x2305 then [(2, 6)]
  else if code = 0x4002 then [(2, 0), (1, 1), (4, 0)]
  else []

/-- Bytes of an event's extension. -/
def extBytes (e : Evt) : List Byte :=
  (extWidths e.code).zipIdx.flatMap (fun w => leBytes w.1.1 (elemOr 0 e.ext w.2) ++ leBytes w.1.2 0)

/-- Payload of an event (R441); WIRE_TELEMETRY has the payload of R158. DESIGN CHOICE: a quantity beyond ±(2^47 − 1) of
its unit (R9), such as the TIME_STEP of a step over 39 h, is taken modulo 2^48. -/
def evtPayload (e : Evt) : List Byte :=
  if e.code = 0x1109 then e.ext.map (BitVec.ofNat 8)
  else leBytes 6 e.cycle ++ leBytes 1 e.cause ++ leBytes 1 e.flags ++ leBytes 6 (ofS 48 e.value) ++ leBytes 2 e.supp ++ extBytes e

/-- Payload bytes of a towline frame. -/
def bodyLen : TowBody → Nat
  | .eth _ x => 16 + (frameBytes x.f).length
  | .record _ a => 16 + (recBytes a).length
  | .cmd _ _ r => 20 + r.payload.length
  | .rsp m => 20 + (if m.cyc.isSome then 8 else 0) + m.payload.length
  | .note e => 20 + (evtPayload e).length
  | .late .. => 16
  | .block _ _ => 2068
  | .chart l _ => min 4100 (20 + 16 * l.length)
  | .beat _ => 64

/-- Largest payload of the frame's type. -/
def bodyMax : TowBody → Nat
  | .eth .. | .record .. => 2320
  | .late .. => 16
  | .beat _ => 64
  | _ => 4100

/-- Bytes of a frame with header and trailer. -/
def towBytes (f : TowFrame) : Nat := 20 + bodyLen f.body

/-- Cells of a frame (R501). -/
def towCells (f : TowFrame) : Nat := (towBytes f + 127) / 128

/-- Cells granted at link up: the buffers of R501 less the VC0 reserve of 33. -/
def vcGrant (v : Nat) : Nat := if v = 0 then 63 else if v = 1 then 128 else if v = 2 then 256 else 0

/-! ### Messages as bytes (R391-R395) -/

/-- Fifteen header bytes with their `hcrc`. -/
def withHcrc (b : List Byte) : List Byte := b ++ leBytes 1 (crc8 b)

/-- A message on its way out: header, payload, trailer. -/
def wireBytes (flags opcode tag handle pound status : Nat) (pl : List Byte) : List Byte :=
  let h := withHcrc (leBytes 1 2 ++ leBytes 1 flags ++ leBytes 2 opcode ++ leBytes 2 tag ++ leBytes 2 pl.length ++
    leBytes 4 handle ++ leBytes 2 pound ++ leBytes 1 status)
  h ++ pl ++ leBytes 4 (crc32c (h ++ pl))

/-- A response as bytes: `RESP`, with the effective-cycle prefix where it carries one (R395). -/
def rspBytes (m : Msg) : List Byte :=
  let pre := match m.cyc with | some c => leBytes 6 c ++ leBytes 2 0 | none => []
  wireBytes (1 + flag 3 m.cyc.isSome + flag 4 m.desync) m.opcode m.tag m.handle m.pound m.status (pre ++ m.payload)

/-- An event as bytes for its pound (R394, R441). -/
def evtBytes (p : Nat) (e : Evt) : List Byte := wireBytes 2 e.code e.seq e.handle p 0 (evtPayload e)

/-- A command as bytes, as the tug relays it (R391, R392, R512). -/
def cmdBytes (cls verb tow : Nat) (r : Req) : List Byte :=
  wireBytes (flag 2 r.posted) (cls * 256 + verb) r.tag (tow * 2 ^ 26 + cls * 2 ^ 18 + r.inst) r.pound 0 r.payload

/-! ### Towline frames as bytes (R8, R498, R499, R503, R514) -/

/-- Bytes cut or filled with zeros to length `n`. -/
def toLength (n : Nat) (b : List Byte) : List Byte := b.take n ++ List.replicate (n - b.length) 0

/-- `type` of a frame's header. -/
def towType : TowBody → Nat
  | .eth .. | .record .. => 1
  | .cmd _ _ r => if r.posted then 3 else 2
  | .rsp _ | .chart .. => 2
  | .note _ => 4
  | .late .. => 5
  | .block .. => 3
  | .beat _ => 6

/-- DATA sub-header (R498): `in_sec` and `in_ns` from a time of `arr` ns. -/
def subHeader (kind pcp route arr : Nat) : List Byte :=
  beBytes 1 (kind + 4 * (pcp % 8)) ++ beBytes 1 0 ++ beBytes 2 (route % 2 ^ 14) ++ beBytes 6 (arr / nsPerSec) ++
    beBytes 2 0 ++ beBytes 4 (arr % nsPerSec)

/-- A BEAT payload in network byte order (R503). -/
def beatBytes (b : Beat) : List Byte :=
  beBytes 1 (b.op % 16 + flag 4 b.up + flag 5 b.stranded + flag 6 b.ready + flag 7 b.last) ++ beBytes 1 b.aux1 ++
    beBytes 1 b.aux2 ++ beBytes 1 b.aux3 ++ beBytes 6 b.cycle ++ beBytes 2 0 ++ beBytes 8 b.origin ++
    beBytes 8 (ofS 64 b.corr) ++ beBytes 8 b.txTime ++ beBytes 8 b.echoTx ++ beBytes 8 b.echoRx ++ beBytes 8 b.identity ++
    beBytes 4 0

/-- Payload of a frame to device `dst`. The DATA sub-header, LATE and BEAT are in network byte order, and a Faval
message keeps its own. The messages of a load (R517) have no layout in the spec: their bytes are free values. -/
def bodyBytes (dst : Nat) : TowBody → List Byte
  | .eth tc x => subHeader 0 tc 0 x.arr ++ frameBytes x.f
  | .record route a => subHeader 1 0 route 0 ++ recBytes a
  | .cmd cls verb r => cmdBytes cls verb dst r
  | .rsp m => rspBytes m
  | .note e => evtBytes 0 e
  | .late tag opcode handle status cycle =>
    beBytes 2 tag ++ beBytes 2 opcode ++ beBytes 4 handle ++ beBytes 1 status ++ beBytes 1 0 ++ beBytes 6 cycle
  | .block k n => toLength 2068 (Config.blockBytes k n)
  | .chart l t => toLength (bodyLen (.chart l t)) (Config.chartBytes l t)
  | .beat b => beatBytes b

/-- The 16-byte header in network byte order (R498). -/
def towHeader (f : TowFrame) : List Byte :=
  beBytes 1 (16 * towType f.body + 1) ++ beBytes 1 (f.vc % 4 + flag 2 f.bcast + flag 3 f.reroute) ++
    beBytes 1 (f.src % 64) ++ beBytes 1 (f.dst % 64) ++ beBytes 2 f.seq ++ beBytes 2 (bodyLen f.body) ++
    beBytes 1 (f.crVc % 4) ++ beBytes 1 f.hops ++ beBytes 2 f.crCells ++ beBytes 4 0

/-- The frame: header, payload, and the CRC-32C over both in network byte order. -/
def towFrameBytes (f : TowFrame) : List Byte :=
  let b := towHeader f ++ bodyBytes f.dst f.body
  b ++ beBytes 4 (crc32c b)

/-! ### The line code (R495) -/

/-- A block before scrambling: its sync header and eight bytes. -/
abbrev PlainBlock := Nat × List Byte

/-- A control block: its kind, then bytes of the frame; the bytes after them are free values. -/
def controlBlock (kind : Nat) (b : List Byte) : PlainBlock :=
  (2, BitVec.ofNat 8 kind :: b ++ (List.range (7 - b.length)).map (fun i => Config.lineFill kind (b.length + i)))

/-- Data blocks of eight bytes, then END with the last ones. -/
def dataBlocks : Nat → List Byte → List PlainBlock
  | 0, b => [controlBlock (0x87 + b.length % 8) (b.take (b.length % 8))]
  | n + 1, b => (1, b.take 8) :: dataBlocks n (b.drop 8)

/-- A frame as blocks: START with its first seven bytes, data blocks, END. -/
def frameBlocks (b : List Byte) : List PlainBlock :=
  let r := b.drop 7
  controlBlock 0x78 (b.take 7) :: dataBlocks (r.length / 8) r

/-- The SKIP block. -/
def skipBlock : PlainBlock := controlBlock 0x4B []

/-- One bit through the scrambler x^58 + x^39 + 1: the bit sent, and the register with the last 58 bits sent, the
newest lowest. -/
def scrambleBit (r : Nat) (b : Bool) : Bool × Nat :=
  let o := (b != bitOf 38 r) != bitOf 57 r
  (o, (2 * r + b2n o) % 2 ^ 58)

/-- `n` bits of a number through the scrambler, the lowest first. -/
def scrambleBits : Nat → Nat → Nat → Nat × Nat
  | 0, _, r => (0, r)
  | n + 1, w, r =>
    let (o, r) := scrambleBit r (bitOf 0 w)
    let (v, r) := scrambleBits n (w / 2) r
    (b2n o + 2 * v, r)

/-- Blocks as they go onto the line, and the register after them. The sync header is not scrambled. -/
def scrambleBlocks (l : List PlainBlock) (r : Nat) : List LineBlock × Nat :=
  l.foldl (fun a p =>
    let (v, r) := scrambleBits 64 (leNat p.2) a.2
    (a.1 ++ [{ sync := p.1, bits := v }], r)) ([], r)

/-- A frame leaves as blocks (R495). One that follows another without a gap continues its scrambler and its count of
blocks since the last SKIP, and a SKIP stands before it where that count would pass 4,096. After a gap the register
holds what the idle line left, a free value, and the gap held a SKIP. -/
def sendLine (x : Nat) (f : TowFrame) (s : State) : State :=
  let t := tpAt s x
  let gap := decide (t.lineEnd + 16 ≤ s.tide.counter)
  let fb := frameBlocks (towFrameBytes f)
  let skip := !gap && decide (4096 < t.sinceSkip + fb.length)
  let blocks := if skip then skipBlock :: fb else fb
  let out := scrambleBlocks blocks (if gap then Config.idleScrambler x t.gaps s.tide.counter % 2 ^ 58 else t.scrambler)
  modTpt x (fun t => { t with
    line := out.1, scrambler := out.2
    gaps := if gap then t.gaps + 1 else t.gaps
    sinceSkip := if gap || skip then fb.length else t.sinceSkip + fb.length
    lineEnd := max t.lineEnd s.tide.counter + 16 * blocks.length }) s

end Sys2Proof.Machine
end

