-- ==== Sys2Proof/Machine/TowLink.lean ====
section
/-! DEFINITION. The towline: virtual channels and credit (R500-R502), paths (R506, R507), and the sending of tow-addressed frames, relayed commands and a barge's responses and NOTEs
(R512-R515). -/
namespace Sys2Proof.Machine

/-! ### Counters -/

/-- Towline counter `k` of port `x` plus `n` (R519). -/
def countTow (x k n : Nat) (s : State) : State :=
  let w := if k = 1 ∨ k = 3 then 48 else 32
  let old := tget ctr0 (tpAt s x).counters k
  let s1 := modTpt x (fun t => { t with counters := tput ctr0 k ((old + n) % 2 ^ w) t.counters }) s
  if old < 2 ^ (w - 1) ∧ 2 ^ (w - 1) ≤ old + n then
    raiseEvt { code := 0x0103, handle := handleOf s 0x40 (0x40 + x), cycle := s.cyc.number, cause := k } none s1
  else s1

/-! ### Paths (R506, R507) -/

/-- The tow is a ring, whole or broken. -/
def isRing (s : State) : Bool := decide (s.tow.topology = 2 ∨ s.tow.topology = 3)

/-- Addresses met through a port of this device, nearest first, were every link up. -/
def along (s : State) (x : Nat) : List Nat :=
  let n := s.tow.found
  let ta := s.tow.taCount
  let a := s.sys.tow
  let up := decide (x = s.tow.upPort)
  let down := fun (hi lo : Nat) => (List.range' lo (hi + 1 - lo)).reverse
  if s.tow.topology = 0 then []
  else if s.sys.role ≠ .barge then
    if x = 0 then List.range' 1 (if isRing s then n else ta)
    else if isRing s then down n 1 else List.range' (ta + 1) (n - ta)
  else if isRing s then
    if up then down (a - 1) 0 ++ down n (a + 1) else List.range' (a + 1) (n - a) ++ List.range a
  else if a ≤ ta then
    if up then down (a - 1) 0 ++ List.range' (ta + 1) (n - ta) else List.range' (a + 1) (ta - a)
  else if up then down (a - 1) (ta + 1) ++ List.range (ta + 1)
  else List.range' (a + 1) (n - a)

/-- A way cut after the device `e`; a device that is not on it cuts all of it. -/
def cutAfter (e : Nat) (l : List Nat) : List Nat := if e ∈ l then l.take (l.idxOf e + 1) else []

/-- Devices reachable through a port now. -/
def reach (s : State) (x : Nat) : List Nat :=
  let t := tpAt s x
  if t.link ≠ 1 then []
  else match t.edge with
    | some e => cutAfter e (along s x)
    | none => along s x

/-- Links to a device through a port; none when it is not reachable that way. -/
def hopsVia (s : State) (x d : Nat) : Option Nat :=
  (reach s x).findIdx? (fun k => decide (k = d)) |>.map (· + 1)

/-- The port the path to a device takes (R506). -/
def towPortTo (s : State) (d : Nat) : Option Nat :=
  match hopsVia s 0 d, hopsVia s 1 d with
  | none, none => none
  | some _, none => some 0
  | none, some _ => some 1
  | some a, some b =>
    if s.sys.role = .barge ∧ d ≠ 0 then
      -- barge to barge: not through the tug
      match hopsVia s 0 0 with
      | some t => some (if a < t then 0 else 1)
      | none => some 0
    else if a = b then some (if s.sys.role = .barge then s.tow.upPort else 0)
    else some (if a < b then 0 else 1)

/-- This end of the link at port `x` is the upstream end (R502). -/
def upstream (s : State) (x : Nat) : Bool :=
  if s.sys.role ≠ .barge then true
  else match (along s x) with
    | [] => false
    | 0 :: _ => false
    | n :: _ =>
      if s.tow.topology = 2 then
        let far := fun (k : Nat) => min k (s.tow.found + 1 - k)
        decide (far s.sys.tow < far n) || (decide (far s.sys.tow = far n) && decide (s.sys.tow < n))
      else decide (towPortTo s 0 ≠ some x)

/-! ### Credit and transmission (R500-R502) -/

/-- The frame may start on the port: credit covers it, or the upstream end's reserve does. -/
def mayStart (s : State) (x : Nat) (f : TowFrame) : Bool :=
  let t := tpAt s x
  decide (t.link = 1) &&
  (decide (f.vc = 3) || decide (towCells f ≤ tget ctr0 t.credit f.vc) ||
   (decide (f.vc = 0 ∧ t.reserve = 0 ∧ towCells f ≤ 33) && upstream s x))

/-- Credit owed to the peer that the next frame carries: one virtual channel. -/
def owedNext (t : TowPort) : Option (Nat × Nat) :=
  ([0, 1, 2].find? (fun v => decide (tget ctr0 t.owed v ≠ 0))).map (fun v => (v, tget ctr0 t.owed v))

/-- Cells of virtual channel `v` become free at port `x` and are owed to the peer. -/
def owe (x v n : Nat) (s : State) : State :=
  if v < 3 then modTpt x (fun t => { t with owed := tmod ctr0 v (· + n) t.owed }) s else s

/-- A frame goes onto the line: credit is spent, owed credit returned with it, and the frame counted. A frame
passed on frees its cells at the port it came in on. -/
def putOnLine (x : Nat) (f : TowFrame) (s : State) : State :=
  let t := tpAt s x
  let need := if f.vc = 3 then 0 else towCells f
  let have_ := tget ctr0 t.credit f.vc
  let g := match owedNext t with | some (v, n) => ({ f with crVc := v, crCells := n, via := none, bad := false } : TowFrame) | none => { f with via := none, bad := false }
  let s := modTpt x (fun t => { t with
    credit := if f.vc = 3 then t.credit else if need ≤ have_ then tput ctr0 f.vc (have_ - need) t.credit else t.credit
    reserve := if f.vc ≠ 3 ∧ have_ < need then need else t.reserve
    owed := match owedNext t with | some (v, _) => tput ctr0 v 0 t.owed | none => t.owed
    last := some g }) s
  let s := sendLine x g s
  let s := if f.vc ≠ 3 ∧ have_ < need then countTow x 10 1 s else s
  let s := match f.via with | some y => owe y f.vc (towCells f) s | none => s
  countTow x 1 (towBytes f) (countTow x 0 1 s)

/-- Waiting frames start in the order of R500 while credit allows. -/
def pumpTow (x : Nat) : Nat → State → State
  | 0, s => s
  | n + 1, s =>
    let w := (tpAt s x).wait
    let head := fun v => w.find? (fun f => decide (f.vc = v))
    match [0, 1, 2].find? (fun v => match head v with | some f => mayStart s x f | none => false) with
    | none => s
    | some v => match head v with
      | none => s
      | some f => pumpTow x n (putOnLine x f (modTpt x (fun t => { t with wait := t.wait.erase f, backedOff := false }) s))

/-- Waiting frames of a port start as far as they can. -/
def pump (x : Nat) (s : State) : State := pumpTow x (tpAt s x).wait.length s

/-- A frame is to leave by a port. -/
def towPut (x : Nat) (f : TowFrame) (s : State) : State :=
  if f.vc = 3 then (if (tpAt s x).link = 1 then putOnLine x f s else s)
  else pump x (modTpt x (fun t => { t with wait := t.wait ++ [f] }) s)

/-- The next sequence number of a flow (R498). -/
def takeSeq (d v : Nat) (s : State) : Nat × State :=
  let k := 4 * d + v
  let n := tget ctr0 s.tow.seqs k
  (n, modTow (fun t => { t with seqs := tput ctr0 k ((n + 1) % 65536) t.seqs }) s)

/-- A tow-addressed frame of this device: whether a path took it. -/
def towSend (v d : Nat) (body : TowBody) (s : State) : Bool × State :=
  match towPortTo s d with
  | none => (false, s)
  | some x =>
    let (q, s) := takeSeq d v s
    (true, towPut x { vc := v, src := s.sys.tow, dst := d, seq := q, body := body } s)

/-- A kind 0 frame leaves by a port for the neighbour there (R499, R500). -/
def towEth (x tc : Nat) (f : NetFrame) (s : State) : State :=
  if (tpAt s x).link ≠ 1 ∨ (tpAt s x).blocked = true then s
  else
    let v := if s.tow.vc1Min ≤ tc then 1 else 2
    let d := elemOr 0 (along s x) 0
    let (q, s) := takeSeq d v s
    towPut x { vc := v, src := s.sys.tow, dst := d, seq := q, body := .eth tc f } s

/-- A frame for every device: on both ports, in a whole ring on TA alone. -/
def towCast (body : TowBody) (s : State) : State :=
  let ports := if s.tow.topology = 2 ∧ (tpAt s 0).link = 1 then [0] else [0, 1]
  ports.foldl (fun s x =>
    if (tpAt s x).link = 1 then towPut x { vc := 0, bcast := true, src := s.sys.tow, dst := 63, body := body } s else s) s

/-- A BEAT on a port with what R503 inserts at departure: the time, and the echo of the last BEAT. One passed on
keeps its sender and its `hops`. -/
def sendBeat (x src hops : Nat) (b : Beat) (s : State) : State :=
  let t := tpAt s x
  if t.link ≠ 1 then s
  else putOnLine x { vc := 3, src := src, hops := hops, body := .beat { b with
    txTime := workNs s % 2 ^ 64, echoTx := t.echoTx, echoRx := t.echoRx } } s

/-! ### Relayed commands (R512-R514) -/

/-- A relay tag no unanswered command of the barge has. -/
def freshTag (b : Barge) : Nat → Nat → Nat
  | 0, n => n
  | k + 1, n => if b.out.any (fun r => decide (r.tag = n)) then freshTag b k ((n + 1) % 65536) else n

/-- A command leaves for barge `b`: it is remembered until its answer, a posted one in the history of the last
256. -/
def relaySend (b cls verb : Nat) (r : Req) (own : Bool) (sub : Option Nat) (s : State) : State :=
  let x := bargeAt s b
  let tag := freshTag x x.out.length x.nextTag
  let s := modBarge b (fun x => { x with
    nextTag := (tag + 1) % 65536
    out := if r.posted then x.out
      else x.out ++ [{ tag := tag, cls := cls, verb := verb, req := r, at_ := s.tide.counter, sub := sub, own := own }]
    posted := if r.posted then
        (x.posted ++ [({ tag := tag, cls := cls, verb := verb, req := r, cycle := s.cyc.number } : Posted)]).drop (x.posted.length - 255)
      else x.posted }) s
  (towSend 0 b (.cmd cls verb { r with tag := tag, pound := 0 }) s).2

/-- What a barge has queued for the tug leaves: responses, then NOTEs; a failed posted command goes as a LATE
record behind them (R512, R514). While stranded the barge holds at most 256 events and counts the others
(R515). -/
def bargeFlush (s : State) : State :=
  if s.sys.role ≠ .barge then s else
  let rsp := s.fv.bargeRsp
  let s := modFv (fun v => { v with bargeRsp := [] }) s
  let s := (rsp.filter (fun m => !m.posted)).foldl (fun s m => (towSend 0 0 (.rsp m) s).2) s
  let s :=
    if s.tow.stranded then
      let n := s.fv.bargeEvt.length - 256
      modTow (fun t => { t with evtDropped := sat 16 (t.evtDropped + n) })
        (modFv (fun v => { v with bargeEvt := v.bargeEvt.take 256 }) s)
    else
      let ev := s.fv.bargeEvt
      ev.foldl (fun s e => (towSend 0 0 (.note e) s).2) (modFv (fun v => { v with bargeEvt := [] }) s)
  (rsp.filter (·.posted)).foldl (fun s m =>
    (towSend 0 0 (.late m.tag m.opcode m.handle m.status s.cyc.number) s).2) s

end Sys2Proof.Machine
end

