-- ==== Sys2Proof/Machine/Operands.lean ====
section
/-! DEFINITION. The operand forms of Faval: records as fields at byte and bit positions, the selector of GET
and SET, actions, and the order of checks (R396, R423-R431). A class is a value of `ClassSpec`; the chapters
define theirs beside the objects they own. -/
namespace Sys2Proof.Machine

/-! ### Status codes -/

/-- Status codes (R440). -/
inductive Status
  | ok | eLength | eHandle | eOpcode | eShare | eAuthority | eState | eRange | eAuth | eRevoked
  | eAborted | eTrunc | eTimeout | eOversize | eVersion | eBusy | eCheck
  deriving DecidableEq, Repr

/-- The code sent (R440). -/
def Status.code : Status → Nat
  | .ok => 0 | .eLength => 1 | .eHandle => 2 | .eOpcode => 3 | .eShare => 4 | .eAuthority => 5
  | .eState => 6 | .eRange => 7 | .eAuth => 8 | .eRevoked => 9 | .eAborted => 10 | .eTrunc => 11
  | .eTimeout => 12 | .eOversize => 13 | .eVersion => 14 | .eBusy => 15 | .eCheck => 16

/-! ### Records -/

/-- A field of a record: its bit position (8 × byte offset + bit), its width, whether a SET writes it, the
codes it accepts, and its home in the state. -/
structure Fld where
  pos : Nat
  w   : Nat
  rw  : Bool
  ok  : Nat → Bool
  get : State → Nat
  set : Nat → State → State

/-- A record part: its bytes, its fields, and the counters or entries read with it (R424, R639). -/
structure Rec where
  len  : Nat
  flds : List Fld
  more : State → List Byte := fun _ => []

/-- A field of one unit's record type. -/
structure UFld (α : Type) where
  pos : Nat
  w   : Nat
  rw  : Bool
  ok  : Nat → Bool
  get : α → Nat
  set : Nat → α → α

/-- A read-write field: byte offset, lowest bit, width. -/
def rwF {α : Type} (byte bit w : Nat) (get : α → Nat) (set : Nat → α → α) (ok : Nat → Bool := fun _ => true) :
    UFld α := ⟨8 * byte + bit, w, true, ok, get, set⟩

/-- A read-only field. -/
def roF {α : Type} (byte bit w : Nat) (get : α → Nat) : UFld α :=
  ⟨8 * byte + bit, w, false, fun _ => true, get, fun _ x => x⟩

/-- A field a pound only reads and the chart sets. -/
def chF {α : Type} (byte bit w : Nat) (get : α → Nat) (set : Nat → α → α) : UFld α :=
  ⟨8 * byte + bit, w, false, fun _ => true, get, set⟩

/-- A one-bit read-write field. -/
def rwB {α : Type} (byte bit : Nat) (get : α → Bool) (set : Bool → α → α) : UFld α :=
  rwF byte bit 1 (fun x => b2n (get x)) (fun n x => set (n = 1) x)

/-- A one-bit read-only field. -/
def roB {α : Type} (byte bit : Nat) (get : α → Bool) : UFld α := roF byte bit 1 (fun x => b2n (get x))

/-- A range of codes. -/
def rng (lo hi : Nat) (n : Nat) : Bool := decide (lo ≤ n ∧ n ≤ hi)

/-- Fields of a unit's record as fields of the state. -/
def lift {α : Type} (get : State → α) (mod : (α → α) → State → State) (l : List (UFld α)) : List Fld :=
  l.map (fun f => ⟨f.pos, f.w, f.rw, f.ok, fun s => f.get (get s), fun n => mod (f.set n)⟩)

/-- A read-only field computed from the whole state. -/
def liveF (byte bit w : Nat) (get : State → Nat) : Fld :=
  ⟨8 * byte + bit, w, false, fun _ => true, get, fun _ s => s⟩

/-- Bytes of the record part at processing: each field in its place, reserved bits zero, then what is read
with it. -/
def encodeRec (r : Rec) (s : State) : List Byte :=
  leBytes r.len (r.flds.foldl (fun n f => n + (f.get s % 2 ^ f.w) * 2 ^ f.pos) 0) ++ r.more s

/-- The field lies wholly in the bytes from `off` to `off + cnt`. -/
def fldIn (off cnt : Nat) (f : Fld) : Bool := decide (8 * off ≤ f.pos ∧ f.pos + f.w ≤ 8 * (off + cnt))

/-- The field shares no bit with those bytes. -/
def fldOut (off cnt : Nat) (f : Fld) : Bool := decide (f.pos + f.w ≤ 8 * off ∨ 8 * (off + cnt) ≤ f.pos)

/-- The code that data written from byte `off` holds for a field. -/
def fldVal (off : Nat) (d : Nat) (f : Fld) : Nat := fieldOf (f.pos - 8 * off) f.w d

/-- Writing fields by position. -/
def writeFlds (r : Rec) (ws : List (Nat × Nat)) (s : State) : State :=
  ws.foldl (fun s w => match r.flds.find? (fun f => decide (f.pos = w.1)) with
    | some f => f.set w.2 s
    | none => s) s

/-! ### Classes -/

/-- An action of a class (R427, R439). -/
structure ActSpec where
  code   : Nat
  cyc    : Bool
  insts  : Nat → Bool := fun _ => true        -- instances that take the action
  argOk  : Nat → Bool                         -- bytes of argument
  auth   : State → Nat → Nat → List Byte → Bool   -- pound, instance, argument
  check  : State → Nat → Nat → List Byte → Status
  run    : Nat → Nat → List Byte → State → State   -- pound, instance, argument
  result : Nat → List Byte → State → List Byte := fun _ _ _ => []   -- instance, argument
  argFit : List Byte → Bool := fun _ => true       -- a length inside the argument agrees with its bytes
  -- the accepted command waits for its response: the state that keeps the request
  held   : Req → State → Option State := fun _ _ => none
  -- what acceptance of a cycle-bound action does at once
  taken  : State → State := fun s => s
  -- what a refused action leaves: status, argument
  refuse : Status → List Byte → State → State := fun _ _ s => s

/-- A class: its instances as ranges, its records, its verbs, and the rules of its SET and actions. -/
structure ClassSpec where
  code   : Nat
  ranges : List (Nat × Nat)                     -- first instance, number
  record : Nat → Nat → Option Rec               -- instance, part
  verbs  : List Nat                             -- codes of R423 the class takes
  events : Nat                                  -- number of its event codes
  -- pound, instance, part, field position; pound 0 where the chapter names no other (R423)
  setAuth  : State → Nat → Nat → Nat → Nat → Bool := fun _ p _ _ _ => decide (p = 0)
  setCheck : State → Nat → Nat → Nat → List (Nat × Nat) → Status := fun _ _ _ _ _ => .ok
  -- what is judged at the effective boundary (R175, R246)
  bound  : State → Nat → Nat → List (Nat × Nat) → Status := fun _ _ _ _ => .ok
  setCyc : Nat → Nat → Bool := fun _ _ => false  -- instance, part: cycle-bound
  waiting : State → Nat → Nat → Nat → Option Nat := fun _ _ _ _ => none  -- code of a field that still waits (R168)
  -- state before, instance, part, fields: what follows from the new fields
  after  : State → Nat → Nat → List (Nat × Nat) → State → State := fun _ _ _ _ s => s
  acts   : List ActSpec := []
  -- what a GET of bytes does beside answering: instance, part, first byte, bytes
  onRead : Nat → Nat → Nat → Nat → State → State := fun _ _ _ _ s => s
  -- an instance of the ranges that exists only at times (R489)
  there  : State → Nat → Bool := fun _ _ => true
  open0  : State → Nat → Nat → Nat → Bool := fun _ _ _ _ => false  -- pound, verb, instance: step 9 passes
  askAll : Bool := false   -- a SET means every field it names, changed or not (R59)
  shut   : State → Nat → Nat → Nat → Bool := fun _ _ _ _ => false  -- pound, verb, instance: step 9 fails
  -- a SET whose response waits: request, part, fields; the state that keeps the request
  held   : Req → Nat → List (Nat × Nat) → State → Option State := fun _ _ _ _ => none

/-- The class has the instance. -/
def ClassSpec.has (k : ClassSpec) (i : Nat) : Bool := k.ranges.any (fun r => decide (r.1 ≤ i ∧ i < r.1 + r.2))

/-- The instance exists at present. -/
def ClassSpec.exists_ (k : ClassSpec) (s : State) (i : Nat) : Bool := k.has i && k.there s i

/-- All instances, ascending. -/
def ClassSpec.all (k : ClassSpec) : List Nat := k.ranges.flatMap (fun r => List.range' r.1 r.2)

/-! ### Answering -/

/-- The command is answered (R394, R395, R399): a posted command that succeeds gets no response. -/
def answer (cls verb : Nat) (r : Req) (st : Status) (eff : Option Nat) (pl : List Byte) (s : State) : State :=
  if r.posted && decide (st = .ok) then
    modPq r.pound (fun q => { q with unanswered := q.unanswered - 1, reserved := q.reserved - 1 }) s
  else respond { opcode := cls * 256 + verb, tag := r.tag, handle := r.tow * 2 ^ 26 + cls * 2 ^ 18 + r.inst,
                 pound := r.pound, status := st.code, cyc := eff, posted := r.posted, payload := pl } s

/-- A message from a central pound has been accepted (R221, R300): cause ISOLATED and the implicit claims
end. -/
def centralHeard (p : Nat) (s : State) : State :=
  if !(poundAt s p).central then s else
  let s := modTp (fun t => { t with centralMsg := true }) s
  if !s.tp.isolated then s else
  emit 0x2204 0x200 (tpClear 5 (modNm (fun n => { n with holdOn := false }) (modTp (fun t => { t with isolated := false }) s)))

/-- A command is accepted (R422). -/
def accepted (p : Nat) (s : State) : State := centralHeard p (bumpPq p 1 s)

/-! ### Staging (R43, R45) -/

/-- Commands folded per apply phase, all pounds together (R43). -/
def foldCap (p : Nat) : Nat := if p = 125000 then 32 else if p = 250000 then 64 else 128

/-- Staged commands that wait for the boundary `d` boundaries ahead. -/
def dueCount (s : State) (d : Nat) : Nat :=
  (s.cyc.staged.filter (fun x => decide (x.due = d) && !x.outside && x.reply)).length

/-- The same of one pound. -/
def dueCountOf (s : State) (p d : Nat) : Nat :=
  (s.cyc.staged.filter (fun x => decide (x.due = d ∧ x.req.pound = p) && !x.outside && x.reply)).length

/-- The first boundary from `d` on whose apply phase still has room for the pound (R43, R452). -/
def roomFrom (s : State) (p : Nat) : Nat → Nat → Nat
  | 0, d => d
  | n + 1, d =>
    if dueCount s d < foldCap s.cyc.period ∧ dueCountOf s p d < (poundAt s p).foldMax then d
    else roomFrom s p n (d + 1)

/-- Boundaries that pass before a command accepted now takes effect (R45): 0 before the cutoff, 1 at or
after it, later when the fold capacity is used up. -/
def dueNow (s : State) (p : Nat) : Nat :=
  roomFrom s p s.cyc.staged.length (if s.cyc.pastCutoff then 1 else 0)

/-- An accepted cycle-bound command enters the shadow state. -/
def stage (cls : Nat) (r : Req) (op : StagedOp) (s : State) : State :=
  modCyc (fun c => { c with staged := c.staged ++ [{ due := dueNow s r.pound, cls := cls, req := r, op := op }] }) s

/-- The state with every accepted SET of class `cls` written, in order of acceptance: what a further SET
merges into (R47). -/
def withStaged (cls : Nat) (record : Nat → Nat → Option Rec) (s : State) : State :=
  s.cyc.staged.foldl (fun t x =>
    if x.cls = cls then (match x.op with
      | .set part ws => match record x.req.inst part with
        | some rc => writeFlds rc ws t
        | none => t
      | .act _ _ => t)
    else t) s

/-- The state a SET would lead to: accepted SETs of its class, then its own fields. -/
def asSet (cls : Nat) (record : Nat → Nat → Option Rec) (inst part : Nat) (ws : List (Nat × Nat)) (s : State) : State :=
  match record inst part with
  | some rc => writeFlds rc ws (withStaged cls record s)
  | none => s

/-- The present period and the one a pending change would bring (R60). -/
def periods (s : State) : List Nat := s.cyc.period :: (match s.cyc.change with | some c => [c.period] | none => [])

/-! ### Checks -/

/-- Classes served before the start is complete (R590), and by a recovery image (R598). -/
def earlyClass (cls verb : Nat) (pl : List Byte) : Bool :=
  decide (cls ∈ [0x01, 0x80, 0x81]) ||
  (decide (cls = 0x50 ∧ verb = 3) && decide (leAt pl 0 1 = 1))

/-- `KEY` and `LIGHT` commands while the Lighthouse restarts or is held in reset (R529, R530). -/
def lightGate (cls : Nat) (s : State) : Status :=
  if cls ≠ 0x50 ∧ cls ≠ 0x51 then .ok
  else if s.light.state = 1 then .eBusy else if s.light.state = 2 then .eAborted else .ok

/-- Step 12 of R396 for the device itself: the Lighthouse serves (R529), the start is complete (R590). -/
def late (k : ClassSpec) (verb : Nat) (r : Req) (s : State) : Status :=
  match lightGate k.code s with
  | .ok => if !s.fv.started && !earlyClass k.code verb r.payload then .eState else .ok
  | st => st

/-- The status of a command once step 12 has looked at the device too. A Lighthouse that is away looks at no key
and no signature. -/
def orLate (k : ClassSpec) (verb : Nat) (r : Req) (s : State) (st : Status) : Status :=
  if st = .ok then late k verb r s
  else if lightGate k.code s ≠ .ok ∧ st ∈ [.eState, .eAuth, .eRevoked, .eBusy] then lightGate k.code s
  else st

/-- The action a payload names, for the instance (R427). -/
def actOf (k : ClassSpec) (r : Req) : Option ActSpec :=
  k.acts.find? (fun a => decide (a.code = leAt r.payload 0 1) && a.insts r.inst)

/-- Steps 7 to 9 of R396 for a command on this device, with the lengths of the verb and of the action (R423, R427). -/
def gate (k : ClassSpec) (verb : Nat) (r : Req) (s : State) : Status :=
  if !k.exists_ s r.inst then .eHandle
  else if !(decide (verb ∈ k.verbs)) then .eOpcode
  else if r.posted && decide (verb ≠ 2 ∧ verb ≠ 3) then .eOpcode
  else if !(match verb with
      | 1 => decide (r.payload.length = 0 ∨ r.payload.length = 8)
      | 2 => decide (9 ≤ r.payload.length ∧ r.payload.length ≤ 4080)
      | 3 => decide (4 ≤ r.payload.length ∧ r.payload.length ≤ 4080)
      | 4 => decide (r.payload.length = if k.code = 0x11 ∧ r.inst = 0x300 then 24 else 8)
      | 5 => decide (r.payload.length = 4)
      | _ => decide (r.payload.length = 8)) then .eLength
  else if verb = 2 ∧ r.payload.length ≠ 8 + leAt r.payload 4 2 then .eLength
  else if verb = 3 ∧ (actOf k r).isNone = true then .eOpcode
  else if verb = 3 ∧ (actOf k r).any (fun a => !a.argOk (r.payload.length - 4) || !a.argFit (r.payload.drop 4)) = true then .eLength
  else if verb ≠ 5 ∧ verb ≠ 6 ∧ (k.shut s r.pound verb r.inst || !(holds s r.pound (r.tow * 2 ^ 26 + k.code * 2 ^ 18 + r.inst) ||
      k.open0 s r.pound verb r.inst)) then .eShare
  else .ok

/-! ### GET (R424) -/

/-- The bytes GET selects, or the status that refuses it. -/
def getBytes (k : ClassSpec) (r : Req) (s : State) : Except Status (List Byte) :=
  let part := leAt r.payload 0 1
  let off := leAt r.payload 2 2
  let cnt := leAt r.payload 4 2
  if leAt r.payload 1 1 ≠ 0 ∨ leAt r.payload 6 2 ≠ 0 then .error .eRange else
  match k.record r.inst part with
  | none => .error .eRange
  | some rc =>
    let bs := encodeRec rc s
    if bs = [] ∨ bs.length < off + cnt ∨ bs.length < off then .error .eRange
    else match late k 1 r s with
      | .ok => .ok (if cnt = 0 then bs.drop off else (bs.drop off).take cnt)
      | st => .error st

/-! ### SET (R424-R426) -/

/-- What a SET asks for: the record, the part, and the RW fields it would write (R425). -/
structure SetAsk where
  part   : Nat
  writes : List (Nat × Nat)
  bad    : Bool          -- selector, partial field, reserved field or code out of range

/-- A staged code of the same field for the boundary `due` or one before it, when one exists: the value the field has once
that boundary comes (R47, R425). -/
def stagedCode (s : State) (cls inst part pos due : Nat) : Option Nat :=
  s.cyc.staged.foldl (fun acc x =>
    if x.cls = cls ∧ x.req.inst = inst ∧ x.due ≤ due then
      match x.op with
      | .set q fs => if q = part then (match fs.find? (fun w => decide (w.1 = pos)) with
          | some w => some w.2
          | none => acc) else acc
      | .act _ _ => acc
    else acc) none

/-- Reading a SET's payload against the record. -/
def askSet (k : ClassSpec) (r : Req) (s : State) : SetAsk :=
  let part := leAt r.payload 0 1
  let off := leAt r.payload 2 2
  let cnt := leAt r.payload 4 2
  let d := leNat (r.payload.drop 8)
  match k.record r.inst part with
  | none => ⟨part, [], true⟩
  | some rc =>
    let ins := rc.flds.filter (fldIn off cnt)
    let due := dueNow s r.pound
    let ws := ins.filter (fun f => f.rw && (k.askAll || decide (fldVal off d f ≠ f.get s % 2 ^ f.w) ||
      (match stagedCode s k.code r.inst part f.pos due with
        | some v => decide (v ≠ fldVal off d f)
        | none => false) ||
      (match k.waiting s r.inst part f.pos with
        | some v => decide (v ≠ fldVal off d f)
        | none => false)))
    -- counters and entries read with the record are read-only
    let d := d % 2 ^ (8 * (rc.len - off))
    let covered := ins.foldl (fun n f => n + fldVal off d f * 2 ^ (f.pos - 8 * off)) 0
    ⟨part, ws.map (fun f => (f.pos, fldVal off d f)),
      decide (leAt r.payload 1 1 ≠ 0 ∨ leAt r.payload 6 2 ≠ 0 ∨ cnt = 0 ∨ 4072 < cnt ∨
              (encodeRec rc s).length < off + cnt ∨ covered ≠ d) ||
      rc.flds.any (fun f => !fldIn off cnt f && !fldOut off cnt f) ||
      !(rc.flds.any (fun f => f.rw)) ||
      ws.any (fun f => !f.ok (fldVal off d f))⟩

/-- Steps 10 to 12 of R396 for a SET. -/
def setStatus (k : ClassSpec) (r : Req) (a : SetAsk) (s : State) : Status :=
  if a.writes.any (fun w => !k.setAuth s r.pound r.inst a.part w.1) then .eAuthority
  else if a.bad then .eRange
  else k.setCheck s r.pound r.inst a.part a.writes

/-- The fields of an accepted SET take effect (R425). -/
def applySet (k : ClassSpec) (inst part : Nat) (ws : List (Nat × Nat)) (s : State) : State :=
  match k.record inst part with
  | some rc => k.after s inst part ws (writeFlds rc ws s)
  | none => s

/-- Part 0 of the object (R426). -/
def part0 (k : ClassSpec) (inst : Nat) (s : State) : List Byte :=
  match k.record inst 0 with
  | some rc => encodeRec rc s
  | none => []

/-- SET on this device. -/
def doSet (k : ClassSpec) (r : Req) (s : State) : State :=
  let a := askSet k r s
  match orLate k 2 r s (setStatus k r a s) with
  | .ok =>
    let s := accepted r.pound s
    if k.setCyc r.inst a.part then stage k.code r (.set a.part a.writes) s
    else match k.held r a.part a.writes s with
    | some s => s
    | none =>
      let s := applySet k r.inst a.part a.writes s
      answer k.code 2 r .ok none (part0 k r.inst s) s
  | st => answer k.code 2 r st none [] s

/-! ### ACT (R427) -/

/-- Steps 10 to 12 of R396 for an ACT that the class lists. -/
def actStatus (a : ActSpec) (r : Req) (s : State) : Status :=
  if !a.auth s r.pound r.inst (r.payload.drop 4) then .eAuthority
  else if leAt r.payload 1 3 ≠ 0 then .eRange
  else a.check s r.pound r.inst (r.payload.drop 4)

/-- ACT on this device. -/
def doAct (k : ClassSpec) (r : Req) (s : State) : State :=
  match actOf k r with
  | none => answer k.code 3 r .eOpcode none [] s
  | some a =>
    match orLate k 3 r s (actStatus a r s) with
    | .ok =>
      let s := accepted r.pound s
      if a.cyc then stage k.code r (.act a.code (r.payload.drop 4)) (a.taken s)
      else match a.held r s with
      | some s => s
      | none =>
        let s := a.run r.pound r.inst (r.payload.drop 4) s
        answer k.code 3 r .ok none (a.result r.inst (r.payload.drop 4) s) s
    | st => answer k.code 3 r st none [] (a.refuse st (r.payload.drop 4) s)

/-! ### SUB, UNSUB, LIST (R428-R430) -/

/-- The next unused subscription number (R428). -/
def freshSub (s : State) : Nat → Nat → Nat
  | 0, n => n
  | f + 1, n =>
    if s.fv.subs.any (fun b => decide (b.id = n)) || s.slu.subs.any (fun b => decide (b.id = n)) then
      freshSub s f ((n + 1) % 2 ^ 16)
    else n

/-- A number of its own for a new subscription. -/
def newSub (s : State) : Nat := freshSub s (s.fv.subs.length + s.slu.subs.length) s.fv.nextSub

/-- Steps 7, 9, 11 and 12 of a SUB to events (R428). -/
def subStatus (k : ClassSpec) (r : Req) (s : State) : Status :=
  let mask := leAt r.payload 0 4
  let cnt := leAt r.payload 4 2
  let base := r.tow * 2 ^ 26 + k.code * 2 ^ 18
  let is := List.range' r.inst cnt
  if is.any (fun i => !k.exists_ s i) then .eHandle
  else if is.any (fun i => !(holds s r.pound (base + i))) then .eShare
  else if cnt = 0 ∨ 1024 < cnt ∨ leAt r.payload 6 2 ≠ 0 ∨ 2 ^ k.events ≤ mask then .eRange
  else if 64 ≤ (s.fv.subs.filter (fun b => decide (b.pound = r.pound))).length then .eBusy
  else .ok

/-- The subscription a SUB asks for: objects and events. A telemetry SUB on a barge's object covers that
object's telemetry event. -/
def subAsked (k : ClassSpec) (r : Req) : Nat × Nat :=
  if k.code = 0x11 ∧ r.inst = 0x300 then (1, 2 ^ 8) else (leAt r.payload 4 2, leAt r.payload 0 4)

/-- A subscription is recorded: its number and the state with it. -/
def addSub (k : ClassSpec) (r : Req) (s : State) : Nat × State :=
  let id := newSub s
  let (cnt, mask) := subAsked k r
  (id, modFv (fun v => { v with
    subs := v.subs ++ [{ id := id, pound := r.pound, first := r.tow * 2 ^ 26 + k.code * 2 ^ 18 + r.inst, count := cnt, mask := mask }]
    nextSub := (id + 1) % 2 ^ 16 }) s)

/-- SUB to events (R428). -/
def doSub (k : ClassSpec) (r : Req) (s : State) : State :=
  match orLate k 4 r s (subStatus k r s) with
  | .ok =>
    let (id, s) := addSub k r s
    answer k.code 4 r .ok none (leBytes 2 id) (accepted r.pound s)
  | st => answer k.code 4 r st none [] s

/-- LIST (R430). -/
def doList (k : ClassSpec) (r : Req) (s : State) : State :=
  let first := leAt r.payload 0 4
  let max := leAt r.payload 4 2
  if 2 ^ 18 ≤ first ∨ max = 0 ∨ 1019 < max ∨ leAt r.payload 6 2 ≠ 0 then
    answer k.code 6 r .eRange none [] s
  else if late k 6 r s ≠ .ok then answer k.code 6 r (late k 6 r s) none [] s
  else
    let base := r.tow * 2 ^ 26 + k.code * 2 ^ 18
    let is := k.all.filter (fun i => decide (first ≤ i) && k.there s i && holds s r.pound (base + i))
    let out := is.take max
    answer k.code 6 r .ok none
      (leBytes 2 out.length ++ leBytes 2 (b2n (decide (max < is.length))) ++ out.flatMap (fun i => leBytes 4 (base + i)))
      (accepted r.pound s)

/-- GET (R424). -/
def doGet (k : ClassSpec) (r : Req) (s : State) : State :=
  match getBytes k r s with
  | .ok bs =>
    let off := leAt r.payload 2 2
    k.onRead r.inst (leAt r.payload 0 1) off bs.length (answer k.code 1 r .ok none bs (accepted r.pound s))
  | .error st => answer k.code 1 r st none [] s

/-! ### Commands for another device of the tow -/

/-- Step 10 of R396 at the tug (R512): the pound's authority for the verb, and for every field the command
names, since the tug does not know which of them change. -/
def relayAuth (k : ClassSpec) (verb : Nat) (r : Req) (s : State) : Bool :=
  if verb = 2 then
    match k.record r.inst (leAt r.payload 0 1) with
    | some rc => (rc.flds.filter (fun f => f.rw && fldIn (leAt r.payload 2 2) (leAt r.payload 4 2) f)).all
        (fun f => k.setAuth s r.pound r.inst (leAt r.payload 0 1) f.pos)
    | none => true
  else if verb = 3 then
    match k.acts.find? (fun a => decide (a.code = leAt r.payload 0 1) && a.insts r.inst) with
    | some a => a.auth s r.pound r.inst (r.payload.drop 4)
    | none => true
  else true

/-- The tug's checks of a command for barge `r.tow` (R512): steps 7 to 10, and step 12 by the barge's state. -/
def relayStatus (k : ClassSpec) (verb : Nat) (r : Req) (s : State) : Status :=
  let t := modSys (fun v => { v with tow := r.tow }) s
  let b := bargeAt s r.tow
  if s.sys.role ≠ .tug ∨ 64 ≤ r.tow ∨ r.tow = 0 ∨ b.state = 0 then .eHandle
  else match gate k verb r t with
    | .ok =>
      if !relayAuth k verb r t then .eAuthority
      else if b.state ≠ 3 then .eState
      else if verb = 4 ∧ ¬(k.code = 0x11 ∧ r.inst = 0x300) then subStatus k r s
      else .ok
    | st => st

/-- A command for a barge (R512): relayed when the tug's checks pass. A SUB is recorded at the tug and passed
on (R514); an UNSUB names at the barge the number the barge gave. -/
def relayTo (k : ClassSpec) (verb : Nat) (r : Req) (s : State) : State :=
  match relayStatus k verb r s with
  | .ok =>
    if verb = 4 then
      let (id, s) := addSub k r s
      relaySend r.tow k.code verb r false (some id) (accepted r.pound s)
    else if verb = 5 then
      match s.fv.subs.find? (fun b => decide (b.id = leAt r.payload 0 2)) with
      | some b =>
        if b.pound = r.pound ∨ r.pound = 0 then
          let s := accepted r.pound (modFv (fun v => { v with subs := v.subs.erase b }) s)
          match b.remote with
          | some n => relaySend r.tow k.code verb { r with payload := leBytes 4 n } false none s
          | none => answer k.code verb r .ok none [] s
        else answer k.code verb r .eRange none [] s
      | none => answer k.code verb r .eRange none [] s
    else
      let s := relaySend r.tow k.code verb r false none (accepted r.pound s)
      if r.posted then modPq r.pound (fun q => { q with unanswered := q.unanswered - 1, reserved := q.reserved - 1 }) s else s
  | st => answer k.code verb r st none [] s

/-! ### A command received whole -/

/-- The Lockkeeper takes a command that passed steps 1 to 6 of R396: it is counted, and the pound has one
more unanswered command. -/
def received (p : Nat) (s : State) : State :=
  bumpPq p 0 (modPq p (fun q => { q with unanswered := q.unanswered + 1 }) s)

/-- A command received whole runs through the checks of R396 and its verb. While the firmware does not run
or while a handover closes the transports it waits unread (R591, R604), and a pound that is not running has no command taken (R457); a removed pound's
endpoint fails step 6 (R458). `body` is the verb on this device; a command for another device of the tow is
passed on (R512). -/
def serve (k : ClassSpec) (verb : Nat) (r : Req) (body : State → State) (s : State) : State :=
  if !s.fv.fw || s.img.shut then s else
  match (poundAt s r.pound).state with
  | .absent | .removed => answer k.code verb r .eAuthority none [] (received r.pound s)
  | .stopped | .resetting => s
  | .running =>
    if r.tow ≠ s.sys.tow then relayTo k verb r (received r.pound s)
    else match gate k verb r s with
      | .ok => body (received r.pound s)
      | st => answer k.code verb r st none [] (received r.pound s)

/-- A SET command: selector and data as payload. -/
def cmdSet (k : ClassSpec) (r : Req) (s : State) : State := serve k 2 r (doSet k r) s

/-- The ACT payload of R427: the action code, three reserved bytes, the argument. -/
def actReq (code : Nat) (r : Req) : Req := { r with payload := leBytes 4 code ++ r.payload }

/-- An ACT command whose row names the action: the request's payload is the argument. -/
def cmdAct (k : ClassSpec) (code : Nat) (r : Req) (s : State) : State :=
  serve k 3 (actReq code r) (doAct k (actReq code r)) s

end Sys2Proof.Machine
end

