-- ==== Sys2Proof/Machine/Keys.lean ====
section
/-! DEFINITION. Keys and partition mailboxes as their consumers see them: usability (R536), attributes (R535), and what a broken
generation does to consumers (R537). -/
namespace Sys2Proof.Machine

/-- Slot a `KEY` handle of this device names. -/
def keySlot (s : State) (h : Nat) : Option Nat :=
  if h / 2 ^ 26 = s.sys.tow ∧ handleCls h = 0x51 ∧ h % 2 ^ 18 < 1024 then some (h % 2 ^ 18) else none

/-- The check of R536 up the chain; depth is at most 7. -/
def usableIn (keys : Tbl Key) : Nat → Nat → Bool
  | 0, _ => false
  | n + 1, k =>
    let r := tget key0 keys k
    if r.state ≠ 1 then false
    else if r.parent = 0xFFFF then true
    else decide ((tget key0 keys r.parent).gen = r.parentGen) && usableIn keys n r.parent

/-- The key is usable. -/
def keyUsable (s : State) (k : Nat) : Bool := usableIn s.light.keys 9 k

/-- `state` as read: STALE shows an active key whose chain is broken. -/
def keyState (s : State) (k : Nat) : Nat :=
  let r := keyAt s k
  if r.state = 1 ∧ !keyUsable s k then 2 else r.state

/-- The key has run out (R535). -/
def keyExpired (s : State) (k : Nat) : Bool :=
  let r := keyAt s k
  decide (r.notAfter ≠ 0 ∧ r.notAfter ≤ s.tide.sec)

/-- A handle names a key fit for a consumer: its binding and every use bit (R535). -/
def keyFits (s : State) (h bind use : Nat) : Bool :=
  match keySlot s h with
  | some k =>
    let r := keyAt s k
    decide (r.state ≠ 0) && bitOf bind r.bind && decide (r.use &&& use = use)
  | none => false

/-- An operation on a key may start (R535, R536). -/
def keyReady (s : State) (h : Nat) : Bool :=
  match keySlot s h with
  | some k => keyUsable s k && !keyExpired s k
  | none => false

/-- Counting an operation started. -/
def keyUse (h : Nat) (s : State) : State :=
  match keySlot s h with
  | some k => modKey k (fun r => { r with uses := sat 32 (r.uses + 1) }) s
  | none => s

/-- Consumers observe a broken generation (R537): SAs are REVOKED (R353) and transport keys drop datagrams
(R411). An authentication context learns it at its next CMAC (R325). -/
def revokeConsumers (s : State) : State :=
  let s := (List.range 64).foldl (fun s i =>
    let a := saAt s i
    match keySlot s a.key with
    | some k => if a.en && !a.revoked && !keyUsable s k && decide (a.key ≠ 0) then
        emit 0x2406 (0x400 + i) (modSa i (fun a => { a with revoked := true }) s)
      else s
    | none => s) s
  (List.range 32).foldl (fun s p =>
    match (pqAt s p).ethKey with
    | some h => match keySlot s h with
      | some k => if !keyUsable s k && !(pqAt s p).ethRevoked then modPq p (fun q => { q with ethRevoked := true, reasm := none }) s else s
      | none => s
    | none => s) s

/-! ### Partition mailboxes -/

/-- The request writes a destination in memory (R526). -/
def lhHasDst (op : Nat) : Bool := decide (op ∈ [1, 2, 9])

/-- Bytes the request writes to its destination: GCM's leading bytes are authenticated only (R525, R526). -/
def lhDstLen (b : LhBox) : Nat :=
  if !lhHasDst b.op then 0
  else if b.op = 9 ∨ b.regs.mode ≠ 2 then b.regs.len
  else b.regs.len - b.regs.aad

/-- The first `n` destination bytes of a failed request are zeroised (R527). -/
def lhScrub (b : LhBox) (n : Nat) (s : State) : State :=
  storeBytes b.regs.dst (List.replicate (min n (lhDstLen b)) 0) s

/-- A request stopped from outside has written an open number of destination bytes. -/
def lhScrubOpen (b : LhBox) (s : State) : State :=
  let (n, s) := takeFree s
  lhScrub b (n % (lhDstLen b + 1)) s

end Sys2Proof.Machine
end

