-- ==== Sys2Proof/Machine/Channels.lean ====
section
/-! DEFINITION. The protected power channels: classes, who governs an output (R28), switching on and off, the
restart state machine (R111-R116), protective events (R102-R109), class CHAN (R123-R128, R433). -/
namespace Sys2Proof.Machine

/-! ### Fixed facts of a channel -/

/-- Supply group of a channel (R96): 0 VBAT_A, 1 VBAT_B. -/
def chGroup (i : Nat) : Nat := if i < 20 then 0 else 1

/-- Die cluster of a channel (R117). -/
def chCluster (i : Nat) : Nat :=
  if i < 8 then i / 4 else if i < 32 then 2 + (i - 8) / 6 else if i < 64 then 6 + (i - 32) / 16
  else 8 + (i - 64) / 6

/-- Class unit of the current codes (R433), µA. -/
def chUnit (i : Nat) : Nat :=
  match chClass i with | .feeder => 1000000 | .main => 500000 | .light => 125000 | .half => 250000

/-- Continuous rating (R100), A. -/
def chRating (i : Nat) : Nat :=
  match chClass i with | .feeder => 40 | .main => 15 | .light => 4 | .half => 10

/-- Nominal active segments (R101). -/
def chNominal (i : Nat) : Nat := match chClass i with | .feeder => 8 | .main => 4 | _ => 0

/-- Fewest active segments a derated channel runs with (R102). -/
def chFewest (i : Nat) : Nat := match chClass i with | .feeder => 6 | .main => 3 | _ => 0

/-- Scaling of a rating, `I_LIM` or `I_INRUSH` of a derated channel (R102), µA. -/
def derate (s : State) (i n : Nat) : Nat :=
  if (chanAt s i).derated then n * (chanAt s i).active / chNominal i else n

/-- `I_LIM` in force, µA. -/
def iLimUa (s : State) (i : Nat) : Nat := derate s i ((chanAt s i).cfg.iLim * chUnit i)

/-- `I_INRUSH` in force, µA (R102, R104). -/
def iInrushUa (s : State) (i : Nat) : Nat := derate s i ((chanAt s i).cfg.iInrush * chUnit i)

/-- The current at which the channel regulates now, µA (R104-R106): `I_CHG` while it charges, `I_INRUSH` inside the inrush
window, else `I_LIM`. `I_CHG` counts in quarters of the class unit (R433). -/
def limitUa (s : State) (i : Nat) : Nat :=
  match (chanAt s i).state with
  | .charging => (chanAt s i).cfg.iChg * chUnit i / 4
  | .inrush => iInrushUa s i
  | _ => iLimUa s i

/-- The channel is in a state in which it conducts (R114). -/
def isOn : ChState → Bool
  | .inrush | .charging | .on => true
  | _ => false

/-- Codes of the restart states (R124). -/
def chCode : ChState → Nat
  | .off => 0 | .inrush => 1 | .charging => 2 | .on => 3 | .retryWait => 4 | .latchWait => 5
  | .cooling => 6 | .shed => 7 | .latchedOff => 8 | .uvOff => 9

/-- Last mean current of a channel, µA, for its events (R128). -/
def chCur (s : State) (i : Nat) : Int := (wireAt s i).sample.iMean

/-! ### Who governs an output (R28, R221-R232, R556) -/

/-- Bridge that a half-bridge channel is paired in, with its terminal (`true` for A). -/
def bridgeOf (s : State) (i : Nat) : Option (Nat × Bool) :=
  if i < 64 then none else
    match (List.range 6).find? (fun b => decide ((brAt s b).hbA = i - 64 ∨ (brAt s b).hbB = i - 64)) with
    | some b => some (b, decide ((brAt s b).hbA = i - 64))
    | none => none

/-- The bridge is formed. -/
def paired (s : State) (b : Nat) : Bool := decide ((brAt s b).hbA < 12 ∧ (brAt s b).hbB < 12)

/-- What the Towpath does with a target while it governs. -/
def tpOutOf (s : State) (t : Nat) : TpOut := if s.tp.governs then tget tpOut0 s.tp.applied t else .pound

/-- Drive in force at a bridge: its own sequence first (R187), then the Towpath, the safe entry, the
staged drive. -/
def effDrive (s : State) (b : Nat) : Nat :=
  match (brDynAt s b).seq with
  | .dirBrake _ | .dirReady _ | .stallHold | .pinchBrake | .revHold => 3
  | .reversing => if (brParAt s b).close = 1 then 2 else 1
  | .none =>
    match tpOutOf s (0x60 + b) with
    | .drive v _ => if tget ctr0 s.tp.bridgeOut b = v + 1 then 0 else v
    | .hold => tget ctr0 s.tp.held (0x60 + b)
    | .pound =>
      if s.saf.inForce then (if (tget safeEntry0 s.saf.entries (0x60 + b)).action = 1 then 3 else 0)
      else (brAt s b).drive

/-- The Towpath's table holds bridge `b` off (R28 entry 3, R187). -/
def tpHoldsOff (s : State) (b : Nat) : Bool :=
  match tpOutOf s (0x60 + b) with
  | .drive v _ => decide (v = 0)
  | .hold => decide (tget ctr0 s.tp.held (0x60 + b) = 0)
  | .pound => false

/-- Output state of terminal A or B for a drive (R176): 0 OFF, 1 HIGH, 2 LOW. -/
def terminal (drive : Nat) (a : Bool) : Nat :=
  match drive with
  | 1 => if a then 1 else 2
  | 2 => if a then 2 else 1
  | 3 => 2
  | 4 => 1
  | _ => 0

/-- Terminal A or B of bridge `b` in an on-phase; a pinch reversal drives HIGH only where the Towpath does not hold the
bridge off (R187). -/
def terminalOf (s : State) (b : Nat) (a : Bool) : Nat :=
  let t := terminal (effDrive s b) a
  if (brDynAt s b).seq = .reversing ∧ t = 1 ∧ tpHoldsOff s b = true then 0 else t

/-- What governs a channel's output: the demand, the half-bridge output, a duty that replaces the Paddle's own (a pinch
reversal's, the Towpath's or the safe state's; `duty_now` units), whether its period is the 4 ms of R230, and the actor of
R124. -/
structure Gov where
  on    : Nat
  hb    : Nat := 1
  duty  : Option Nat := none
  slow  : Bool := false
  actor : Nat := 0

/-- Demand below the Towpath: the safe entry while the safe state is in force, else the pound's (R558). -/
def govPound (s : State) (i : Nat) : Gov :=
  if s.saf.inForce then
    let e := tget safeEntry0 s.saf.entries i
    match e.action with
    | 1 => { on := 1, duty := some 0xFFFF, slow := true, actor := 2 }
    | 2 => if tget ctr0 s.saf.hold i = 0 then { on := 0, actor := 2 }
           else { on := 1, duty := some (tget ctr0 s.saf.hold i - 1), actor := 2 }
    | 3 => { on := 1, duty := some (e.duty * 257), slow := true, actor := 2 }
    | _ => { on := 0, actor := 2 }
  else { on := (chanAt s i).demand }

/-- The governing source of a channel (R28 entries 3 and 4). A paired half-bridge has its demand from the bridge's drive, so
that a RESTART finds the drive's demand although LATCHED_OFF had set its own to off (R113, R175; DESIGN CHOICE: the spec
does not say how the two meet). -/
def govern (s : State) (i : Nat) : Gov :=
  match bridgeOf s i with
  | some (b, a) =>
    let t := terminalOf s b a
    let rev := decide ((brDynAt s b).seq = .reversing)
    { on := if t = 0 then 0 else 1, hb := t
      duty := if rev then some (brParAt s b).revDuty else match tpOutOf s (0x60 + b) with
        | .drive _ d => some (d * 257)
        | .hold => some (tget ctr0 s.tp.heldDuty (0x60 + b))
        | .pound => none
      slow := !rev && (match tpOutOf s (0x60 + b) with | .drive _ _ => true | _ => false)
      actor := if tpOutOf s (0x60 + b) ≠ .pound then 1 else if s.saf.inForce then 2 else 0 }
  | none =>
    match tpOutOf s i with
    | .drive v d => { on := if v = 0 then 0 else 1, hb := v, duty := some (d * 257), slow := true, actor := 1 }
    | .hold =>
      let v := tget ctr0 s.tp.held i
      { on := if v = 0 then 0 else 1, hb := v, duty := some (tget ctr0 s.tp.heldDuty i), actor := 1 }
    | .pound => govPound s i

/-! ### The Paddle's waveform (R162-R167, R176-R179, R230) -/

/-- n of a Paddle. -/
def padN (c : PadCfg) : Nat := c.n + 1

/-- T in ns for period `p` (R162), exact as the quotient `padNum / padDen`. -/
def padNum (c : PadCfg) (p : Nat) : Nat := if c.mul = 0 then p else p * padN c
def padDen (c : PadCfg) : Nat := if c.mul = 0 then padN c else 1

/-- Scale of phases and on-fractions: it holds the 65,536ths of a Paddle and the 255ths of the Towpath exactly. -/
def padFull : Nat := 65536 * 255

/-- Paddle whose waveform a channel's switch follows: a bridge's terminals follow the Paddle of `hb_a` (R175, R176). -/
def padIdx (s : State) (i : Nat) : Nat :=
  match bridgeOf s i with
  | some (b, _) => if paired s b then 64 + (brAt s b).hbA else i
  | none => i

/-- The bridge's off-phase as `decay` gives it, SLOW_LOW under the Towpath (R176, R230). -/
def decayOf (s : State) (b : Nat) : Nat :=
  if tpOutOf s (0x60 + b) ≠ .pound ∧ (brDynAt s b).seq ≠ .reversing then 0 else (brAt s b).decay

/-- Dead time of a half-bridge between HIGH and LOW, ns (R177). -/
def hbDead (s : State) (i : Nat) : Nat :=
  match bridgeOf s i with
  | some (b, _) => if paired s b then (brAt s b).dead * 20 else 500
  | none => 500

/-- Dead time in force when the off-phase changes between HIGH and LOW, ns (R163, R177). -/
def deadNs (s : State) (i : Nat) : Nat :=
  match bridgeOf s i with
  | some (b, _) => if paired s b && decide (decayOf s b ≠ 2) then hbDead s i else 0
  | none => if 64 ≤ i ∧ (padAt s i).cfg.hbOffLow = 1 then hbDead s i else 0

/-- Minimum on-time and off-time, ns (R163). -/
def padMin (s : State) (i : Nat) : Nat :=
  match chClass i with
  | .feeder => 100000 | .main => 40000 | .light => 10000 | .half => 2000 + deadNs s i

/-- Phase in force (R172, R174). -/
def padPhase (x : Pad) : Nat := if x.cfg.spread = 0 then x.cfg.phase else x.phaseNow

/-- A Paddle's waveform in one cycle: period `num / den` ns of which `base / den` have passed at the boundary, phase and
on-fraction in `padFull`ths. -/
structure Wave where
  num   : Nat
  den   : Nat
  base  : Nat
  phase : Nat
  frac  : Nat

/-- On-fraction after R166: raised to the minimum on-time `m`, or cut to leave the minimum off-time; both rounded so that
the minimum holds. -/
def fracClamp (m num den frac : Nat) : Nat :=
  if frac = 0 then 0 else if padFull ≤ frac then padFull
  else
    let k := (m * den * padFull + num - 1) / num
    min (max frac k) (padFull - k)

/-- On-fraction of `duty_now` units (R165); under the Towpath's period 257ths are 255ths of full duty (R227). -/
def fracOf (slow : Bool) (now : Nat) : Nat :=
  if now = 0xFFFF then padFull else if slow then now / 257 * 65536 else now * 255

/-- Period and number of the present cycle, and the time since its start (R164, R230): in RC mode a step serves as a cycle
of 250 µs. -/
def waveTime (s : State) : Nat × Nat × Nat :=
  if s.cyc.running then (s.cyc.period, s.cyc.number, s.cyc.inCycle) else (250000, s.tp.rcSteps, s.pwr.age - s.tp.stepAt)

/-- Settings of the waveform of Paddle `j`: under the Towpath's or the safe state's duty the period is 4 ms from the
boundaries whose working time is a multiple of it, with no phase (R230, R556); else the Paddle's own. -/
def waveCfg (s : State) (j : Nat) : PadCfg × Nat :=
  if (govern s j).slow then ({ (padAt s j).cfg with n := 4000000 / (waveTime s).1 - 1, mul := 1 }, 0)
  else ((padAt s j).cfg, padPhase (padAt s j) * 255)

/-- Waveform of Paddle `j` in the present cycle (R164, R166). A channel that has just charged is fully on until its
boundary (R105, R170). -/
def waveOf (s : State) (j : Nat) : Wave :=
  let (p, c, _) := waveTime s
  let (k, ph) := waveCfg s j
  { num := padNum k p, den := padDen k, base := if k.mul = 0 then 0 else c % padN k * p, phase := ph
    frac := if (chanAt s j).padDue then padFull
      else fracClamp (padMin s j) (padNum k p) (padDen k) (fracOf (govern s j).slow (padAt s j).now) }

/-- An edge instant, in `1 / k` ns, to the nearest 5 ns tick (R164). Halfway goes up (DESIGN CHOICE). -/
def padTick (e k : Nat) : Nat := (2 * e + 5 * k) / (10 * k) * 5

/-- Edges from instant `e` on, in `1 / k` ns, before `lim` ns: `lvl` is the output before the first, `on` and `off` the
lengths that alternate. -/
def edgesFrom (k lim on off : Nat) : Nat → Bool → Nat → List Nat
  | 0, _, _ => []
  | f + 1, lvl, e => if lim * k ≤ e then [] else padTick e k :: edgesFrom k lim on off f (!lvl) (e + if lvl then off else on)

/-- R164 in a cycle: the output at its boundary, and its edges in the first `len` ns. The fuel exceeds the edges of 256
periods in a cycle stretched to twice its length. -/
def waveRaw (w : Wave) (len : Nat) : Bool × List Nat :=
  if w.frac = 0 then (false, []) else if padFull ≤ w.frac then (true, [])
  else
    let x := (w.base * padFull * w.den + (padFull - w.phase) * w.num) % (padFull * w.num)
    let lvl := decide (x < w.frac * w.num)
    (lvl, edgesFrom (padFull * w.den) len (w.frac * w.num) ((padFull - w.frac) * w.num) 1100 lvl
      (if lvl then w.frac * w.num - x else padFull * w.num - x))

/-- Each edge is delayed until the interval before it has lasted the minimum `m` (R166); `r` is the first instant at which
the next may fall. -/
def delayEdges (m : Nat) : Nat → List Nat → List Nat
  | _, [] => []
  | r, e :: t => max e r :: delayEdges m (max e r + m) t

/-- The edges R164 asks for in the first `len` ns of the present cycle, one at the boundary where the output it gives there
is not the one the cycle before ended with. -/
def padAsked (s : State) (j len : Nat) : List Nat :=
  let (b, es) := waveRaw (waveOf s j) len
  if (padAt s j).level = b then es else 0 :: es

/-- Edges of Paddle `j` in the first `len` ns of the present cycle, with every interval kept to its minimum (R166). -/
def padEdges (s : State) (j len : Nat) : List Nat :=
  (delayEdges (padMin s j) (match (padAt s j).since with | some k => padMin s j - k | none => 0) (padAsked s j len)).filter
    (fun e => decide (e < len))

/-- A list of edges leaves the output toggled. -/
def toggled (l : List Nat) : Bool := decide (l.length % 2 = 1)

/-- Output of Paddle `j` at the present instant. -/
def padOut (s : State) (j : Nat) : Bool := (padAt s j).level != toggled (padEdges s j ((waveTime s).2.2 + 1))

/-- Time since the last edge of Paddle `j`, ns; none without one. -/
def padAge (s : State) (j : Nat) : Option Nat :=
  let t := (waveTime s).2.2
  match (padEdges s j (t + 1)).getLast? with
  | some e => some (t - e)
  | none => (padAt s j).since.map (· + t)

/-- Regulation holds bridge `b` in its off-phase (R179). -/
def chopped (s : State) (b : Nat) : Bool := decide (s.tide.counter < (brDynAt s b).chopEnd)

/-- State of a half-bridge in the Paddle's on-phase or off-phase (R172, R176): a bridge's off-phase is as `decay` gives it;
an unpaired one's is LOW or OFF. -/
def hbPhase (s : State) (i : Nat) (onPhase : Bool) : Nat :=
  if !(chanAt s i).gate then 0 else
  match bridgeOf s i with
  | some (b, a) =>
    let d := effDrive s b
    if (d = 1 ∨ d = 2) ∧ onPhase = false then (match decayOf s b with | 0 => 2 | 1 => 1 | _ => 0) else terminalOf s b a
  | none => if onPhase ∨ (chanAt s i).hb = 2 then (chanAt s i).hb
            else if (padAt s i).cfg.hbOffLow = 1 ∧ (govern s i).slow = false then 2 else 0

/-- The present phase of a half-bridge: on unless its Paddle is off or regulation has ended the on-phase. -/
def hbOnPhase (s : State) (i : Nat) : Bool :=
  padOut s (padIdx s i) && !(match bridgeOf s i with | some (b, _) => chopped s b | none => false)

/-- HIGH and LOW exchanged: the change passes through OFF (R177). -/
def hbSwaps (a b : Nat) : Bool := decide ((a = 1 ∧ b = 2) ∨ (a = 2 ∧ b = 1))

/-- Output of a half-bridge at the present instant (R124 `hb_out`): OFF for the dead time after a change between HIGH and
LOW (R177). -/
def hbNow (s : State) (i : Nat) : Nat :=
  if i < 64 then 0
  else if s.tide.counter < (chanAt s i).deadEnd then 0
  else if hbSwaps (hbPhase s i true) (hbPhase s i false) && (match padAge s (padIdx s i) with
      | some k => decide (k < hbDead s i)
      | none => false) then 0
  else hbPhase s i (hbOnPhase s i)

/-- The dead time begins where a half-bridge has changed between HIGH and LOW since state `s0` (R177). -/
def deadMark (s0 : State) (i : Nat) (s : State) : State :=
  if hbSwaps (hbPhase s0 i (hbOnPhase s0 i)) (hbPhase s i (hbOnPhase s i)) then
    modChan i (fun c => { c with deadEnd := s.tide.counter + hbDead s i }) s
  else s

/-- The channel's Paddle drives its switch (R169): that of a bridge's terminal A times both, terminal B's none (R175). -/
def padDrives (s : State) (i : Nat) : Bool :=
  let runs := fun (j : Nat) => (chanAt s j).gate && decide ((chanAt s j).state = .inrush ∨ (chanAt s j).state = .on)
  !(chanAt s i).padDue &&
  match bridgeOf s i with
  | some (b, a) => if paired s b then a && (runs i || runs (64 + (brAt s b).hbB)) else runs i
  | none => runs i

/-! ### Ready (R114) -/

/-- Trip, warning and cooled temperatures of channel `i`, m°C, with their defaults (R141). -/
def tripOf (s : State) (i : Nat) : Int := (wireAt s i).tTrip.getD ((wireTypeAt s (wireAt s i).wireType).rated : Int)
def warnOf (s : State) (i : Nat) : Int := (wireAt s i).tWarn.getD (tripOf s i - 10000)
def coolOf (s : State) (i : Nat) : Int := (wireAt s i).tCool.getD (tripOf s i - 20000)

/-- The channel's wire model has cooled (R147); with no model running nothing holds it. -/
def cooled (s : State) (i : Nat) : Bool :=
  !s.slu.modelOn || decide ((wireAt s i).tc ≤ coolOf s i * 2 ^ 24 / 1000)

/-- The group lies between `V_FULL` and `V_OV`. -/
def groupFull (s : State) (i : Nat) : Bool := decide ((grpAt s (chGroup i)).band = .full)

/-- No restart of the channel is judged (R116): the Sluice is silent, or the channel's digitiser group has no
healthy converter and the channel is treated as if it were (R133). -/
def chSilent (s : State) (i : Nat) : Bool := s.slu.silent || (adcAt s (i / 16)).failed

/-- The cliff latch holds the channel: set now, or when the last level phase judged it (R28, R111). -/
def cliffHeld (c : Chan) : Bool := c.cliff || c.lvCliff

/-- Ready to switch on, the shed apart. -/
def ready (s : State) (i : Nat) : Bool :=
  !cliffHeld (chanAt s i) && cooled s i && groupFull s i && (!(wireAt s i).fbUnsafe || !chSilent s i)

/-- A budget has shed the channel and not yet ended its shed: in SHED, or in a wait for a retry that a trip in the
cycle of the shed began (R122). -/
def shedHeld (s : State) (b i : Nat) : Bool :=
  decide ((chanAt s i).shedBy = b + 1 ∧ (chanAt s i).state ∈ [ChState.shed, .retryWait, .latchWait, .cooling])

/-- Inrush window in ns: the whole lock cycles that do not exceed `T_INRUSH` (R104, R433). -/
def windowNs (s : State) (i : Nat) : Nat :=
  (chanAt s i).cfg.tInrush * 1000 / s.cyc.period * s.cyc.period

/-! ### Switching -/

/-- `duty_now` at a switch-on: the governing duty of R230, else 0 with a ramp and the target at once without (R170,
R171). Terminal B of a bridge has no Paddle of its own. -/
def startPad (i : Nat) (s : State) : State :=
  if padIdx s i ≠ i then s else
  modPad i (fun p => { p with now := match (govern s i).duty with
    | some d => d
    | none => if p.cfg.rampUp = 0 then p.cfg.duty else 0 }) s

/-- The channel switches on at this boundary (R104, R105, R114); `count` consumes a retry (R112), of which the 4-bit count
holds 15. A diagnosis that it aborts has been run for its request no more than in part, so a request of OFF_DIAG stays for
the next off period (R109; DESIGN CHOICE: the spec does not say). -/
def switchOn (i : Nat) (count : Bool) (s : State) : State :=
  let g := govern s i
  let w := windowNs s i
  let charge := decide (g.on = 2 ∧ i < 32)
  let st : ChState := if charge then .charging else if w = 0 then .on else .inrush
  let s := modChan i (fun c => { c with
    state := st, gate := true, hb := if i < 64 then 0 else g.hb, window := if charge then 0 else w, windowCut := false
    edgeWait := !charge && decide (w ≠ 0)
    retry := if count && !c.breach then min 15 (c.retry + 1) else c.retry, breach := false
    defUv := false, defOv := false, limiting := false, trip := none, wireTrip := false
    shedWait := none, shedBy := 0, shedCause := 0, offer := false, restoreUv := false
    byTrip := false, delayRun := false, delayEnd := false, lvEnd := false, rampOff := false
    cleanUp := false, lvClean := false, diag := 0, stuckObs := 0, padDue := false, changed := s.cyc.number }) s
  let s := modWire i (fun w => { w with onInSilence := w.onInSilence || s.slu.silent }) s
  let s := if charge then s else startPad i s
  if count then emit 0x1003 i s (flags := (chanAt s i).retry) (value := chCur s i) else s

/-- The channel is off, in state `st`. -/
def switchOff (i : Nat) (st : ChState) (s : State) : State :=
  modChan i (fun c => { c with
    state := st, gate := false, hb := 0, window := 0, windowCut := false, edgeWait := false, limiting := false
    rampOff := false, cleanUp := false, lvClean := false, padDue := false
    offAt := if c.gate then s.tide.counter else c.offAt
    changed := if c.state = st then c.changed else s.cyc.number }) s

/-- The gate goes off at once, and a half-bridge with both its switches (R110); the restart state follows at a
boundary. -/
def gateOff (i : Nat) (s : State) : State :=
  modChan i (fun c => { c with gate := false, hb := 0, limiting := false,
                               offAt := if c.gate then s.tide.counter else c.offAt }) s

/-- Partner of a paired half-bridge. -/
def partner (s : State) (i : Nat) : Option Nat :=
  match bridgeOf s i with
  | some (b, a) => if paired s b then some (64 + if a then (brAt s b).hbB else (brAt s b).hbA) else none
  | none => none

/-- A bridge's `drive` sets both demands (R175). -/
def setDemands (b : Nat) (s : State) : State :=
  if paired s b then
    [(brAt s b).hbA, (brAt s b).hbB].foldl (fun s h =>
      modChan (64 + h) (fun c => { c with demand := if (brAt s b).drive = 0 then 0 else 1 }) s) s
  else s

/-- A trip that no level phase has recorded yet stays to be recorded (R122, R128). -/
def keepTrip (c : Chan) : Option Trip := c.trip.filter (fun t => !t.recorded)

/-- Entry to LATCHED_OFF: the demand becomes off and CHAN_LATCHED_OFF is raised (R113, R114). -/
def latchOff (i : Nat) (s : State) : State :=
  let s := switchOff i .latchedOff s
  let s := modChan i (fun c => { c with
    demand := 0, trip := keepTrip c, wireTrip := false, delayRun := false, delayEnd := false, lvEnd := false,
    patience := false, patienceUp := false, lvPat := false, byTrip := false, shedWait := none, offer := false }) s
  emit 0x1002 i s (cause := (chanAt s i).lastCause) (value := chCur s i)

/-- A trip enters the restart state machine at a boundary (R112, R114): RETRY_WAIT with the delay running
(frozen while the Sluice is silent, where no trip latches the channel off, R116), or LATCHED_OFF when the count is used up. A partner in an
H-bridge enters SHED with cause BRIDGE (R110). An analogue trip that no level phase has recorded yet stays to be
recorded (R122). -/
def enterTrip (i : Nat) (s : State) : State :=
  let s := match partner s i with
    | some j => if isOn (chanAt s j).state then
        modChan j (fun c => { c with shedCause := 9, lastCause := 9 }) (switchOff j .shed s) else s
    | none => s
  let full := (chanAt s i).trip.any (·.breach)
  if !full && !chSilent s i && decide ((chanAt s i).cfg.nRetry ≤ (chanAt s i).retry) then latchOff i s
  else modChan i (fun c => { c with
    breach := full, trip := keepTrip c, wireTrip := false, delayRun := !chSilent s i
    delayEnd := false, lvEnd := false }) (switchOff i .retryWait s)

/-- The channel switches on, and its partner with it where the bridge holds that one in SHED (R110). Of the partner's own
conditions the cliff latch alone, which nothing overrides (R28), is asked (DESIGN CHOICE: the spec restores the partner with
the tripped channel and names no condition). -/
def switchOnPair (i : Nat) (count : Bool) (s : State) : State :=
  let s := switchOn i count s
  match partner s i with
  | some j => if (chanAt s j).state = .shed ∧ (chanAt s j).shedCause = 9 ∧ cliffHeld (chanAt s j) = false then switchOn j false s else s
  | none => s

/-- The deferral flags follow the group's band (R98, R124). -/
def deferMark (i : Nat) (s : State) : State :=
  let b := (grpAt s (chGroup i)).band
  modChan i (fun c => { c with defUv := decide (b = .hold ∨ b = .belowOff), defOv := decide (b = .above) }) s

/-- The channel waits in state `st`, with nothing deferred. -/
def waitIn (st : ChState) (i : Nat) (s : State) : State :=
  modChan i (fun c => { c with state := st, defUv := false, defOv := false, changed := s.cyc.number }) s

/-- A channel in OFF whose governing demand is on, or one in UV_OFF that is restored (R98, R99, R114, R116, R154). -/
def demandOn (i : Nat) (s : State) : State :=
  let c := chanAt s i
  if cliffHeld c then waitIn .latchWait i (modChan i (fun c => { c with byTrip := false }) s)
  else if !chSilent s i && !cooled s i then waitIn .cooling i (modChan i (fun c => { c with byTrip := false }) s)
  else if !groupFull s i then deferMark i s
  else if chSilent s i && (wireAt s i).fbUnsafe then s
  else
    -- R154: a budget that has shed a channel of at least this priority keeps it in SHED
    let scopes := if s.slu.silent then [] else
      (if i < 20 then [0, 2, 3] else [1, 2, 3]).filter (fun b =>
        (List.range 76).any (fun j => decide ((chanAt s j).state = .shed ∧ (chanAt s j).shedBy = b + 1 ∧
          c.cfg.shedPrio ≤ (chanAt s j).cfg.shedPrio)))
    match scopes with
    | b :: _ => modChan i (fun c => { c with
        state := .shed, shedBy := b + 1, shedCause := 0x0A, defUv := false, defOv := false, changed := s.cyc.number
        shedCur := if b = 3 then 0 else derate s i (chRating i * 2 ^ 24) }) s
    | [] => switchOnPair i false s

/-- One channel at a boundary that is not overrun, as the last level phase judged it (R111): trips, sheds and the restart state machine (R114), under
the demand that governs it. `go` holds the channels whose deferred or restored switch-on comes now (R99);
`wait` those that wait for their turn in a hand-back (R233). DESIGN CHOICE: T_PATIENCE latches a channel off from
RETRY_WAIT and LATCH_WAIT; R114 lists no such row for COOLING and SHED, where R115 could be read so. -/
def chanBoundary (go wait : List Nat) (i : Nat) (s : State) : State :=
  let g := govern s i
  let s := modChan i (fun c => { c with actor := g.actor }) s
  let c := chanAt s i
  let tripped := match c.trip with | some t => t.recorded | none => false
  -- the trips of the cycle
  let s := if (isOn c.state && (tripped || c.wireTrip)) || (tripped && decide (c.state = .shed)) then
      (if c.wireTrip && c.trip.isNone then
        emit 0x1001 i (modChan i (fun c => { c with lastCause := 4 }) s) (cause := 4) (value := chCur s i)
          (ext := [0, c.retry])
      else s) |> enterTrip i
    else match c.shedWait with
      | some k => if isOn c.state then
          let s := modChan i (fun c => { c with shedWait := none, shedCause := k, lastCause := k }) (switchOff i .shed s)
          if k = 8 then emit 0x1007 i s (cause := chCluster i) (value := chCur s i)
            (ext := [ofS 48 ((clusterAt s (chCluster i)).tcl * 1000 / 2 ^ 24)]) else s
        else modChan i (fun c => { c with shedWait := none }) s
      | none => s
  let s := if tripped then modChan i (fun c => { c with trip := c.trip.filter (fun t => !t.recorded) }) s else s
  let c := chanAt s i
  let on := decide (g.on ≠ 0) && !(decide (i ∈ wait))
  -- restart requested by a pound (R127): a group below V_OFF takes the channel on to UV_OFF (R98)
  let s := if c.restartReq then
      (if c.state = .latchedOff then
        modChan i (fun c => { c with restartReq := false, retry := 0, lastCause := 0 })
          (switchOff i (if (grpAt s (chGroup i)).band = .belowOff then .uvOff else .off) s)
      else modChan i (fun c => { c with restartReq := false }) s) else s
  -- the clean time has elapsed (R111)
  let s := if (chanAt s i).lvClean then modChan i (fun c => { c with lvClean := false, cleanUp := false, retry := 0 }) s else s
  let c := chanAt s i
  match c.state with
  | .latchedOff => s
  | .uvOff =>
    if !on || decide ((grpAt s (chGroup i)).band = .belowOff) then modChan i (fun c => { c with defUv := false, defOv := false }) s
    else if chSilent s i then s
    else if decide (i ∈ go) then demandOn i s
    else if groupFull s i then s else deferMark i s
  | st =>
    if !on then
      if isOn st && c.gate && decide (g.actor = 0) && decide ((padAt s i).cfg.rampDown ≠ 0 ∧ (padAt s i).now ≠ 0) &&
          decide (bridgeOf s i = none ∧ st ≠ .charging) then
        modChan i (fun c => { c with rampOff := true }) s
      else modChan i (fun c => { c with
        byTrip := false, delayRun := false, delayEnd := false, lvEnd := false, shedBy := 0, shedCause := 0, offer := false
        defUv := false, defOv := false, restoreUv := false }) (switchOff i .off s)
    else
      let s := modChan i (fun c => { c with rampOff := false, hb := if i < 64 ∨ !c.gate then c.hb else g.hb }) s
      if s.saf.inForce && decide (st ≠ .off ∧ st ≠ .inrush ∧ st ≠ .on ∧ st ≠ .charging) then s else
      match st with
      | .off =>
        if (c.defUv || c.defOv) && !(decide (i ∈ go)) then (if groupFull s i then s else deferMark i s)
        else demandOn i s
      | .retryWait =>
        if c.lvPat then latchOff i s
        else if !c.lvEnd || chSilent s i then s
        else if cliffHeld c then waitIn .latchWait i (modChan i (fun c => { c with byTrip := true, delayEnd := false, lvEnd := false }) s)
        else if !cooled s i then waitIn .cooling i (modChan i (fun c => { c with byTrip := true, delayEnd := false, lvEnd := false }) s)
        else if ready s i && decide (c.shedBy = 0) then switchOnPair i true s
        else deferMark i s
      | .latchWait =>
        if c.lvPat then latchOff i s
        else if cliffHeld c then s
        else if ready s i && !chSilent s i && decide (c.shedBy = 0) then switchOnPair i c.byTrip s
        else deferMark i s
      | .cooling =>
        if ready s i && !chSilent s i && decide (c.shedBy = 0) then switchOnPair i c.byTrip s
        else if cooled s i then deferMark i s else s
      | .shed =>
        -- the partner of a bridge whose other channel is on (R110)
        if c.shedCause = 9 ∧ cliffHeld c = false ∧ (match partner s i with | some j => isOn (chanAt s j).state | none => false) = true then
          switchOn i false s
        else if c.offer && ready s i && !chSilent s i then switchOn i false s
        else
          let s := if c.offer then deferMark i s else modChan i (fun c => { c with defUv := false, defOv := false }) s
          modChan i (fun c => { c with offer := false }) s
      | _ => s

/-- A list ordered by `less`, by insertion. -/
def insertBy (less : Nat → Nat → Bool) (x : Nat) : List Nat → List Nat
  | [] => [x]
  | y :: r => if less x y then x :: y :: r else y :: insertBy less x r
def sortBy (less : Nat → Nat → Bool) (l : List Nat) : List Nat := l.foldr (insertBy less) []

/-- Descending shed priority, ties in ascending instance order (R99, R120, R155, R233). -/
def prioDown (s : State) (a b : Nat) : Bool :=
  decide ((chanAt s b).cfg.shedPrio < (chanAt s a).cfg.shedPrio) ||
  (decide ((chanAt s b).cfg.shedPrio = (chanAt s a).cfg.shedPrio) && decide (a ≤ b))

/-- Ascending shed priority, ties in descending instance order (R120, R153). -/
def prioUp (s : State) (a b : Nat) : Bool :=
  decide ((chanAt s a).cfg.shedPrio < (chanAt s b).cfg.shedPrio) ||
  (decide ((chanAt s b).cfg.shedPrio = (chanAt s a).cfg.shedPrio) && decide (b ≤ a))

/-- The at most 8 restores and deferred switch-ons of this boundary (R99). DESIGN CHOICE: the spec gives the limit per
boundary and does not say whether each group has it; the model takes it over both groups, and counts the switch-ons that
V_OV deferred among them. -/
def uvGo (s : State) : List Nat :=
  (sortBy (prioDown s) ((List.range 76).filter (fun i =>
    (chanAt s i).restoreUv && decide ((chanAt s i).state ∈ [ChState.off, .uvOff]) && groupFull s i &&
    decide ((govern s i).on ≠ 0)))).take 8

/-- Every channel at a boundary that is not overrun. -/
def chansBoundary (s : State) : State :=
  let go := uvGo s
  let now := if s.tp.handBack = .switching then s.tp.waiting.take 8 else []
  let s := modTp (fun t => { t with waiting := t.waiting.filter (fun i => !(decide (i ∈ now))) }) s
  (List.range 76).foldl (fun s i => chanBoundary go s.tp.waiting i s) s

/-! ### Trips -/

/-- The partner of a half-bridge that trips turns off too (R110). -/
def partnerOff (i : Nat) (s : State) : State := match partner s i with | some j => gateOff j s | none => s

/-- A trip of a half-bridge ends a reversal of its bridge (R190). -/
def reversalOff (i : Nat) (s : State) : State :=
  match bridgeOf s i with
  | some (b, _) =>
    match (brDynAt s b).seq with
    | .pinchBrake | .reversing | .revHold =>
      setDemands b (modBr b (fun x => { x with drive := 0 }) (modBrDyn b (fun d => { d with seq := .none }) s))
    | _ => s
  | none => s

/-- An analogue protection turns the channel off and latches the trip (R106); a FULL breach run marks its own (R563). A trip of a half-bridge turns
its partner off too (R110), and ends a reversal of the bridge (R190). A channel that is off has nothing to
trip. -/
def analogTrip (i cause energy : Nat) (cur : Int) (bp : Nat) (s : State) : State :=
  if !(chanAt s i).gate then s else
  let s := modChan i (fun c => { c with trip := some {
    cause := cause, energy := energy, current := cur, breach := decide (s.saf.mute ≠ []) } }) (gateOff i s)
  let s := reversalOff i (partnerOff i s)
  if bp = 0 then s else detect bp false s

/-- The level phase, or the Lockkeeper while the Sluice is silent, records a captured trip: `last_cause` and
CHAN_TRIP (R106, R116, R128). -/
def recordTrip (i : Nat) (s : State) : State :=
  match (chanAt s i).trip with
  | some t =>
    if t.captured && !t.recorded && t.breach then
      modChan i (fun c => { c with lastCause := t.cause, trip := some { t with recorded := true } }) s
    else if t.captured && !t.recorded then
      emit 0x1001 i (modChan i (fun c => { c with
          lastCause := t.cause, trip := some { t with recorded := true } }) s)
        (cause := t.cause) (value := t.current) (ext := [t.energy, (chanAt s i).retry])
    else s
  | none => s

/-! ### Segments (R101-R103) -/

/-- One active segment fewer (R102): derated, or LATCHED_OFF below the fewest. -/
def loseSegment (i : Nat) (s : State) : State :=
  let s := modChan i (fun c => { c with active := c.active - 1, derated := true }) s
  let s := emit 0x100B i s (cause := 3) (flags := (chanAt s i).active) (value := chCur s i)
  let s := wearLog 1 i 2 s
  if (chanAt s i).active < chFewest i then
    emit 0x100B i (latchOff i (modChan i (fun c => { c with barred := true }) s)) (cause := 4)
      (flags := (chanAt s i).active) (value := chCur s i)
  else s

/-- The spare segment replaces segment `g` (R101). -/
def swapSegment (i g : Nat) (s : State) : State :=
  let s := modChan i (fun c => { c with spareOk := false, spareUsed := true }) s
  let s := modSeg i (fun w => { w with
    spare := 1, failed := w.failed ||| 2 ^ g, swapCycle := s.cyc.number, swapDue := none }) s
  pondIn 1 i (elemOr 0 (segAt s i).drift g) (emit 0x100B i s (cause := 1) (flags := (chanAt s i).active) (value := chCur s i))

/-- The spare of a channel already waits for the boundary at which it replaces a failed segment. -/
def sparePromised (s : State) (i : Nat) : Bool :=
  match (segAt s i).swapDue with | some k => bitOf k (segAt s i).failed | none => false

/-- A failed segment (R102): at the next boundary the spare replaces it where one remains (R101), else the channel is
derated. A spare in use that fails is in use no more. -/
def failSegment (i g : Nat) (s : State) : State :=
  let promised := sparePromised s i
  let s := modSeg i (fun w => { w with failed := w.failed ||| 2 ^ g }) s
  if (chanAt s i).spareOk && !promised then modSeg i (fun w => { w with swapDue := some g }) s
  else
    loseSegment i (if g = chNominal i then modChan i (fun c => { c with spareUsed := false }) s else s)

/-- The observation of R103 on a channel whose demand is off: Feeder and Main open the blocking switches,
Light and half-bridge set SHORT_BAT_OFF. -/
def stuckSeen (i : Nat) (s : State) : State :=
  if i < 32 then modChan i (fun c => { c with stuckTest := true }) s
  else emit 0x1005 i (modChan i (fun c => { c with shortBat := true }) s) (value := chCur s i)

/-! ### Class CHAN -/

/-- Channel status record (R124). -/
def chanRec (i : Nat) : Rec :=
  { len := 16
    flds := lift (fun s => chanAt s i) (modChan i) [
        roF 0 0 8 (fun c => chCode c.state), roF 1 0 2 (·.demand), roF 1 2 2 (·.actor),
        roF 2 0 4 (·.retry), roF 2 4 4 (·.cfg.nRetry), roF 3 0 8 (·.lastCause),
        roB 4 0 (·.olOn), roB 4 1 (·.olOff), roB 4 2 (·.shortBat), roB 4 3 (·.reverse), roB 4 4 (·.cliff),
        roB 4 5 (·.defUv), roB 4 6 (·.defOv), roB 4 7 (·.derated), roB 5 0 (·.spareUsed),
        roB 5 1 (·.stuckOn), roB 5 2 (·.inrushCut)] ++
      [liveF 1 4 2 (hbNow · i), liveF 5 3 1 (fun s => b2n s.slu.silent), liveF 6 0 8 (fun _ => chCluster i)] ++
      lift (fun s => chanAt s i) (modChan i) [roF 7 0 8 (·.cfg.shedPrio), roF 8 0 48 (·.changed)] }

/-- A field of a channel's settings. -/
def cfgF (byte bit w : Nat) (get : ChanCfg → Nat) (set : Nat → ChanCfg → ChanCfg) (ok : Nat → Bool) : UFld Chan :=
  rwF byte bit w (fun c => get c.cfg) (fun n c => { c with cfg := set n c.cfg }) ok

/-- Codes `i_lim` and `i_inrush` accept (R433). -/
def limRange (i : Nat) : Nat → Bool :=
  match chClass i with
  | .feeder => rng 40 183 | .main => rng 30 168 | .light => rng 32 183 | .half => rng 40 183

/-- Codes `i_chg` accepts (R433). -/
def chgRange (i : Nat) : Nat → Bool :=
  match chClass i with | .feeder => rng 4 80 | .main => rng 4 64 | _ => rng 0 0

/-- Open-load thresholds (R108), mA. -/
def olRange (i : Nat) : Nat → Bool :=
  match chClass i with
  | .feeder => rng 100 4000 | .main => rng 50 1500 | .light => rng 1 400 | .half => rng 50 1000

/-- Channel control record (R433). -/
def chanCtl (i : Nat) : Rec :=
  { len := 32
    flds := lift (fun s => chanAt s i) (modChan i) [
      rwF 0 0 2 (·.demand) (fun n c => { c with demand := n }) (if i < 32 then rng 0 2 else rng 0 1),
      cfgF 1 0 8 (·.shedPrio) (fun n c => { c with shedPrio := n }) (fun _ => true),
      cfgF 2 0 16 (·.iLim) (fun n c => { c with iLim := n }) (limRange i),
      cfgF 4 0 16 (·.tLim) (fun n c => { c with tLim := n }) (rng 10 10000),
      cfgF 6 0 16 (·.iInrush) (fun n c => { c with iInrush := n }) (limRange i),
      cfgF 8 0 32 (·.tInrush) (fun n c => { c with tInrush := n }) (rng 0 500000),
      cfgF 12 0 16 (·.iChg) (fun n c => { c with iChg := n }) (chgRange i),
      cfgF 14 0 16 (·.tChg) (fun n c => { c with tChg := n }) (rng 1 500),
      cfgF 16 0 16 (·.tRetry) (fun n c => { c with tRetry := n }) (rng 1 10000),
      cfgF 18 0 16 (·.tClean) (fun n c => { c with tClean := n }) (rng 1 6000),
      cfgF 20 0 16 (·.tPatience) (fun n c => { c with tPatience := n }) (rng 1 600),
      cfgF 22 0 4 (·.nRetry) (fun n c => { c with nRetry := n }) (fun _ => true),
      cfgF 22 4 1 (fun c => b2n c.offDiagEn) (fun n c => { c with offDiagEn := decide (n = 1) }) (fun _ => true),
      cfgF 23 0 8 (·.nOl) (fun n c => { c with nOl := n }) (rng 1 255),
      cfgF 24 0 16 (·.olThr) (fun n c => { c with olThr := n }) (olRange i)] }

/-- The value a SET would give a field: written, else in force. -/
def wouldBe (ws : List (Nat × Nat)) (pos dflt : Nat) : Nat :=
  match ws.find? (fun w => decide (w.1 = pos)) with
  | some w => w.2
  | none => dflt

/-- Records of class CHAN. Groups and clusters have none of their own in the spec. -/
def chanRecord (i part : Nat) : Option Rec :=
  if i < 76 then (if part = 0 then some (chanRec i) else if part = 1 then some (chanCtl i) else none) else none

/-- Range across fields and state of a CHAN SET (R114, R125, R175, R433), over what accepted SETs will have
written. -/
def chanCheck (s : State) (_p i part : Nat) (ws : List (Nat × Nat)) : Status :=
  let w := (chanAt (withStaged 0x10 chanRecord s) i).cfg
  if part ≠ 1 then .ok
  else if wouldBe ws 48 w.iInrush < wouldBe ws 16 w.iLim then .eRange
  else if ws.any (fun w => decide (w.1 = 0)) && (match bridgeOf s i with | some (b, _) => paired s b | none => false)
    then .eState
  else if (chanAt s i).state = .latchedOff ∧ ws.any (fun w => decide (w.1 = 0 ∧ w.2 ≠ 0)) = true then .eState
  else .ok

/-- A demand on that takes effect in LATCHED_OFF is refused there (R114, R126). -/
def chanBound (s : State) (i part : Nat) (ws : List (Nat × Nat)) : Status :=
  if part = 1 ∧ (chanAt s i).state = .latchedOff ∧ (chanAt s i).restartReq = false ∧
      ws.any (fun w => decide (w.1 = 0 ∧ w.2 ≠ 0)) = true then .eState else .ok

/-- Sticky flags cleared by a mask over bytes 4-5 (R127). -/
def clearChanFlags (m : Nat) (c : Chan) : Chan :=
  { c with
    olOn := c.olOn && !bitOf 0 m, olOff := c.olOff && !bitOf 1 m, shortBat := c.shortBat && !bitOf 2 m
    reverse := c.reverse && !bitOf 3 m, stuckOn := c.stuckOn && !bitOf 9 m
    inrushCut := c.inrushCut && !bitOf 10 m }

/-- The channel has been off for 1 ms (R109). -/
def offLong (s : State) (i : Nat) : Bool :=
  !(chanAt s i).gate && decide ((chanAt s i).offAt + 1000000 ≤ s.tide.counter)

/-- Class CHAN (R123-R127, R433, R439). -/
def chanClass : ClassSpec :=
  { code := 0x10
    ranges := [(0, 76), (0x100, 2), (0x110, 10)]
    record := chanRecord
    verbs := [1, 2, 3, 4, 5, 6]
    events := 12
    setAuth := fun s p i part pos =>
      decide (p = 0) || (decide (part = 1 ∧ pos = 0) && ownerOr0 s p (handleOf s 0x10 i))
    setCheck := chanCheck
    bound := chanBound
    setCyc := fun _ _ => true
    acts := [
      { code := 1, cyc := true, insts := fun i => decide (i < 76), argOk := fun n => decide (n = 0)
        auth := fun s p i _ => ownerOr0 s p (handleOf s 0x10 i)
        check := fun s _ i _ => if (chanAt s i).state = .latchedOff ∧ (chanAt s i).cliff = false ∧
                                  (chanAt s i).barred = false then .ok else .eState
        run := fun _ i _ => modChan i (fun c => { c with restartReq := true })
        result := fun i _ s => encodeRec (chanRec i) s },
      { code := 2, cyc := false, insts := fun i => decide (i < 76), argOk := fun n => decide (n = 2)
        auth := fun _ _ _ _ => true, check := fun _ _ _ _ => .ok
        run := fun _ i a => modChan i (clearChanFlags (leAt a 0 2))
        result := fun i _ s => encodeRec (chanRec i) s },
      { code := 3, cyc := true, insts := fun i => decide (i < 76), argOk := fun n => decide (n = 0)
        auth := fun s p i _ => ownerOr0 s p (handleOf s 0x10 i)
        check := fun s _ i _ => if offLong s i then .ok else .eState
        run := fun _ i _ => modChan i (fun c => { c with diagReq := true })
        result := fun i _ s => encodeRec (chanRec i) s }] }

/-! ### Meanings: Faval -/

/-- CHAN_SET (R125, R126, R433): cycle-bound. -/
def execChanSet (r : Req) (s : State) : Out := .next (cmdSet chanClass r s)
/-- CHAN_RESTART (R127). -/
def execChanRestart (r : Req) (s : State) : Out := .next (cmdAct chanClass 1 r s)
/-- CHAN_CLEAR_FLAGS (R127). -/
def execChanClearFlags (r : Req) (s : State) : Out := .next (cmdAct chanClass 2 r s)
/-- CHAN_OFF_DIAG (R109, R127). -/
def execChanOffDiag (r : Req) (s : State) : Out := .next (cmdAct chanClass 3 r s)

/-! ### Meanings: supply groups (R97-R99) -/

/-- Channels of a group. -/
def groupChans (g : Nat) : List Nat := (List.range 76).filter (fun i => decide (chGroup i = g))

/-- The group takes band `b` at voltage `v`. -/
def setBand (g : Nat) (b : Band) (v : Nat) (s : State) : State :=
  modGrp g (fun x => { x with band := b, v := v }) s

/-- The condition of GROUP_UV or GROUP_OV ends when no group is in it (R553). -/
def groupEnd (bp : Nat) (s : State) : State :=
  let bad : Band → Bool := fun b => if bp = 0x007 then decide (b = .belowOff ∨ b = .hold) else decide (b = .above)
  if [0, 1].any (fun g => bad (grpAt s g).band) then s else detectEnd bp s

/-- A field output takes a state. -/
def foSet (k : Nat) (v : Bool) (s : State) : State :=
  if (foAt s k).out = v then s
  else modFo k (fun f => { f with out := v, changed := s.cyc.number, offAt := if v then f.offAt else s.tide.counter }) s

/-- Classification holds (R200): pending candidates are discarded. -/
def clsHoldOn (s : State) : State :=
  (List.range 32).foldl (fun s i => modDi i (fun d => { d with cand := 7, candN := 0 }) s)
    (modFio (fun f => { f with clsHold := true }) s)

/-- GROUP_FALL_V_OFF (R98, R205): the group's channels turn off and enter UV_OFF with their demand kept;
below `V_OFF` of VBAT_B the field outputs are off too. -/
def execGroupFallVOff (g v : Nat) (s : State) : Out :=
  guardUnit (decide (g < 2))
    (let s := setBand g .belowOff v s
     let s := (groupChans g).foldl (fun s i =>
       if (chanAt s i).state = .latchedOff then s
       else modChan i (fun c => { c with
         trip := keepTrip c, wireTrip := false, shedWait := none, delayRun := false, delayEnd := false, lvEnd := false,
         defUv := false, defOv := false, restoreUv := false }) (switchOff i .uvOff s)) s
     let s := if g = 1 then clsHoldOn ((List.range 16).foldl (fun s k => foSet k false s) s) else s
     detect 0x007 true (emit 0x1008 (0x100 + g) s (cause := 1) (flags := 1) (value := v)))

/-- GROUP_RISE_V_OFF (R98, R114): UV_OFF channels with demand off enter OFF; the group is in the hold band, where the
restores of the others are deferred. -/
def execGroupRiseVOff (g v : Nat) (s : State) : Out :=
  guardUnit (decide (g < 2))
    (let s := setBand g .hold v s
     let s := (groupChans g).foldl (fun s i =>
       if (chanAt s i).state ≠ .uvOff then s
       else if (govern s i).on = 0 then switchOff i .off s else deferMark i s) s
     emit 0x1008 (0x100 + g) s (cause := 1) (value := v))

/-- GROUP_FALL_V_FULL (R98): switch-ons are deferred; channels that are on stay on. -/
def execGroupFallVFull (g v : Nat) (s : State) : Out :=
  guardUnit (decide (g < 2))
    (detect 0x007 true (emit 0x1008 (0x100 + g) (setBand g .hold v s) (flags := 1) (value := v)))

/-- GROUP_RISE_V_FULL (R99): UV_OFF channels and deferred switch-ons are restored from the next boundary on,
at most 8 per boundary. -/
def execGroupRiseVFull (g v : Nat) (s : State) : Out :=
  guardUnit (decide (g < 2))
    (let s := setBand g .full v s
     let s := (groupChans g).foldl (fun s i =>
       if (chanAt s i).state = .uvOff ∨ (chanAt s i).defUv = true then
         modChan i (fun c => { c with restoreUv := true }) s else s) s
     groupEnd 0x007 (emit 0x1008 (0x100 + g) s (value := v)))

/-- GROUP_RISE_V_OV (R98): switch-ons are deferred. -/
def execGroupRiseVOv (g v : Nat) (s : State) : Out :=
  guardUnit (decide (g < 2))
    (detect 0x008 true (emit 0x1009 (0x100 + g) (setBand g .above v s) (flags := 1) (value := v)))

/-- GROUP_FALL_V_OV (R98): full function returns; what was deferred is performed. -/
def execGroupFallVOv (g v : Nat) (s : State) : Out :=
  guardUnit (decide (g < 2))
    (let s := setBand g .full v s
     let s := (groupChans g).foldl (fun s i =>
       if (chanAt s i).defOv = true then modChan i (fun c => { c with restoreUv := true }) s else s) s
     groupEnd 0x008 (emit 0x1009 (0x100 + g) s (value := v)))

/-! ### Meanings: segments and diagnosis -/

/-- SEGMENT_FAILURE (R102): a segment with no current share; with no spare left the channel is derated or
latched off. -/
def execSegmentFailure (i g : Nat) (s : State) : Out :=
  guardUnit (decide (i < 32 ∧ g ≤ chNominal i)) (if !s.pwr.keeper then s else
    detect 0x006 false (failSegment i g s))

/-- STUCK_TEST_END (R103): 100 µs after the blocking switches opened, `v` (µV) judges the cause; `g` is the
segment found. -/
def execStuckTestEnd (i v g : Nat) (s : State) : Out :=
  guardUnit (decide (i < 32 ∧ g ≤ chNominal i))
    (if !(chanAt s i).stuckTest then s else
     let s := modChan i (fun c => { c with stuckTest := false }) s
     let s := if 10 * v < (grpAt s (chGroup i)).v then
         failSegment i g (emit 0x100C i (modChan i (fun c => { c with stuckOn := true }) s) (cause := g)
           (value := chCur s i))
       else emit 0x1005 i (modChan i (fun c => { c with shortBat := true }) s) (value := chCur s i)
     detect 0x005 false s)

/-- OFF_DIAG_START (R109): the pull-up is applied to a channel off for 1 ms with the diagnosis enabled or
requested. -/
def execOffDiagStart (i : Nat) (s : State) : Out :=
  guardUnit (decide (i < 76))
    (if offLong s i && ((chanAt s i).cfg.offDiagEn || (chanAt s i).diagReq) && decide ((chanAt s i).diag = 0) then
      modChan i (fun c => { c with diag := 1 }) s else s)

/-- OFF_DIAG_END (R109): `vPull` with the pull-up and `vFree` after it is removed, µV. -/
def execOffDiagEnd (i vPull vFree : Nat) (s : State) : Out :=
  guardUnit (decide (i < 76))
    (if (chanAt s i).diag = 0 then s else
     let s := modChan i (fun c => { c with diag := 0, diagReq := false }) s
     let s := if 2000000 < vPull then
         emit 0x1004 i (modChan i (fun c => { c with olOff := true }) s) (cause := 2) (value := chCur s i) else s
     if (grpAt s (chGroup i)).v < 2 * vFree then stuckSeen i s else s)

/-! ### Meanings: switching on -/

/-- The boundary that ends the present cycle, or one before it, ends the inrush window: the first at or after its
end, or, for a window that R119 shortened, the last at or before the end of `remaining` (R104). -/
def windowLast (s : State) (i : Nat) : Bool :=
  let w := (chanAt s i).window
  if (chanAt s i).windowCut then decide (w < 2 * s.cyc.period) else decide (w ≤ s.cyc.period)

/-- INRUSH_WINDOW_END (R104, R119): at the boundary that ends the window `I_LIM` and `t_LIM` apply. -/
def execInrushWindowEnd (i : Nat) (s : State) : Out :=
  guardUnit (decide (i < 76))
    (if (chanAt s i).state = .inrush ∧ (chanAt s i).edgeWait = false ∧ windowLast s i = true then
      modChan i (fun c => { c with state := .on, window := 0, changed := s.cyc.number }) s else s)

/-- CHARGE_COMPLETE (R105): the channel turns fully on and enters ON without an inrush window. -/
def execChargeComplete (i : Nat) (s : State) : Out :=
  guardUnit (decide (i < 76))
    (if (chanAt s i).state = .charging ∧ (chanAt s i).gate = true then
      modChan i (fun c => { c with state := .on, padDue := true, changed := s.cyc.number }) s else s)

/-- The charge fails (R105): cause CHARGE_FAIL. The energy its CHAN_TRIP carries is `e`, what E_CHG has integrated
(DESIGN CHOICE: R444 has an energy in every CHAN_TRIP, and no rule says which for this cause). -/
def chargeFail (i e : Nat) (s : State) : State :=
  if (chanAt s i).state = .charging then analogTrip i 5 e (chCur s i) 0 s else s

/-- CHARGE_TIME_LIMIT (R105). -/
def execChargeTimeLimit (i e : Nat) (s : State) : Out := guardUnit (decide (i < 32)) (chargeFail i e s)
/-- CHARGE_ENERGY_LIMIT (R105). -/
def execChargeEnergyLimit (i e : Nat) (s : State) : Out := guardUnit (decide (i < 32)) (chargeFail i e s)

/-! ### Meanings: analogue protections (R106, R107) -/

/-- SHORT_TRIP: the current crossed `I_SC`; `e` is the energy of the event, `cur` the peak current. -/
def execShortTrip (i e : Nat) (cur : Int) (s : State) : Out :=
  guardUnit (decide (i < 76)) (analogTrip i 1 e cur 0x001 s)

/-- CURRENT_LIMIT_ONSET: a current of `cur` µA at or above the limit in force: the channel regulates. -/
def execCurrentLimitOnset (i cur : Nat) (s : State) : Out :=
  guardUnit (decide (i < 76))
    (if (chanAt s i).gate && decide (limitUa s i ≤ cur) then modChan i (fun c => { c with limiting := true }) s else s)

/-- LIMIT_TIMER_EXPIRY: outside the inrush window the channel turns off with cause LIMIT. -/
def execLimitTimerExpiry (i e : Nat) (cur : Int) (s : State) : Out :=
  guardUnit (decide (i < 76))
    (if (chanAt s i).state = .inrush then s else analogTrip i 2 e cur 0x002 s)

/-- LIMIT_TIMER_CLEAR: 1 ms without regulation. -/
def execLimitTimerClear (i : Nat) (s : State) : Out :=
  guardUnit (decide (i < 76)) (modChan i (fun c => { c with limiting := false }) s)

/-- CLIFF_LATCH_SET: the latch sets, T_PATIENCE starts, and a channel that is on turns off. -/
def execCliffLatchSet (i e : Nat) (cur : Int) (s : State) : Out :=
  guardUnit (decide (i < 76))
    (if !s.pwr.keeper then s else
     detect 0x003 true (analogTrip i 3 e cur 0
      (modChan i (fun c => { c with cliff := true, patience := true, patienceUp := false }) s)))

/-- CLIFF_LATCH_REARM: the latch clears. -/
def execCliffLatchRearm (i : Nat) (s : State) : Out :=
  guardUnit (decide (i < 76))
    (let s := modChan i (fun c => { c with cliff := false, patience := false, patienceUp := false }) s
     if (List.range 76).any (fun j => (chanAt s j).cliff) then s else detectEnd 0x003 s)

/-- REVERSE_TRIP: a Feeder or Main channel turns off with cause REVERSE and blocks. -/
def execReverseTrip (i e : Nat) (cur : Int) (s : State) : Out :=
  guardUnit (decide (i < 32))
    (if (chanAt s i).gate then
      emit 0x1006 i (modChan i (fun c => { c with reverse := true }) (analogTrip i 6 e cur 0x004 s))
        (flags := 1) (value := cur)
     else s)

/-- REVERSE_FLAG: the flag sets without turning the channel off. -/
def execReverseFlag (i : Nat) (s : State) : Out :=
  guardUnit (decide (i < 76))
    (if !s.pwr.keeper then s else
    emit 0x1006 i (modChan i (fun c => { c with reverse := true }) s) (value := chCur s i))

/-- OPEN_LOAD_ON (R108): a channel in ON below its threshold for `N_OL` cycles. -/
def execOpenLoadOn (i : Nat) (s : State) : Out :=
  guardUnit (decide (i < 76))
    (if (chanAt s i).state = .on then
      emit 0x1004 i (modChan i (fun c => { c with olOn := true }) s) (cause := 1) (value := chCur s i)
     else s)

/-! ### Meanings: restart timers (R111-R115); their state changes follow at a boundary -/

/-- RETRY_DELAY_END: the delay of a channel in RETRY_WAIT ends; a frozen delay does not (R116). -/
def execRetryDelayEnd (i : Nat) (s : State) : Out :=
  guardUnit (decide (i < 76))
    (if (chanAt s i).state = .retryWait ∧ (chanAt s i).delayRun = true then
      modChan i (fun c => { c with delayRun := false, delayEnd := true }) s else s)

/-- CLEAN_TIME_ELAPSED: the retry count returns to zero at the boundary after the level phase that finds it (R111). -/
def execCleanTimeElapsed (i : Nat) (s : State) : Out :=
  guardUnit (decide (i < 76))
    (if (chanAt s i).state = .on then modChan i (fun c => { c with cleanUp := true }) s else s)

/-- PATIENCE_ELAPSED: with the cliff latch still set the channel enters LATCHED_OFF at the boundary; the time
does not run while the safe state is in force (R558). -/
def execPatienceElapsed (i : Nat) (s : State) : Out :=
  guardUnit (decide (i < 76))
    (if (chanAt s i).cliff = true ∧ (chanAt s i).patience = true ∧ s.saf.inForce = false then
      modChan i (fun c => { c with patience := false, patienceUp := true }) s else s)

end Sys2Proof.Machine
end

