-- ==== Sys2Proof/Machine/Sluice.lean ====
section
/-! DEFINITION. The Sluice: the digitiser's captures (R129-R133), the wire and cluster models (R134-R147),
fallback (R148-R150), budgets (R151-R156), telemetry (R157-R159), class WIRE (R139-R142, R160). -/
namespace Sys2Proof.Machine

/-! ### Arithmetic (R134): Q24.24 words and Q0.48 coefficients -/

/-- A Q24.24 sum saturates. -/
def qsat (x : Int) : Int := clampI (-(2 ^ 47 : Int)) (2 ^ 47 - 1) x

/-- Product of two Q24.24 words, truncated towards negative infinity. One that leaves the Q24.24 range saturates (DESIGN
CHOICE: R134 says so of sums and keeps every result a 48-bit word). -/
def qmul (a b : Int) : Int := qsat ((a * b) / (2 ^ 24 : Int))

/-- Product of a Q0.48 coefficient and a Q24.24 word, truncated towards negative infinity. -/
def cmul (c : Nat) (a : Int) : Int := ((c : Int) * a) / (2 ^ 48 : Int)

/-- A rational rounded to the nearest Q0.48 value, a half rounding up (R135). With a zero denominator no value bounds it:
it reads as 1, which R135 refuses. -/
def coef (num den : Nat) : Nat := if den = 0 then 2 ^ 48 else (2 ^ 49 * num + den) / (2 * den)

/-- A quantity of `num / den` units as a Q24.24 word, truncated; one outside its range saturates (R134). -/
def q24 (num : Int) (den : Nat) : Int := qsat (num * (2 ^ 24 : Int) / (den : Int))

/-- A Q24.24 word in thousandths, truncated towards negative infinity (R158). -/
def milli (q : Int) : Int := q * 1000 / (2 ^ 24 : Int)

/-! ### Coefficients (R135, R137): `p` is the period in ns -/

def cfHc (w : WireType) (p : Nat) : Nat := coef (p * w.r20) (w.cCond * 10 ^ 12)
def cfAlpha (w : WireType) : Nat := coef w.alpha (10 ^ 9)
def cfCi (w : WireType) (p : Nat) : Nat := coef (p * w.gCi) (w.cCond * 10 ^ 9)
def cfIc (w : WireType) (p : Nat) : Nat := coef (p * w.gCi) (w.cIns * 10 ^ 9)
def cfIb (w : WireType) (p : Nat) : Nat := coef (p * w.gIb) (w.cIns * 10 ^ 9)
def cfBi (w : WireType) (b : Bundle) (p : Nat) : Nat := coef (p * w.gIb) (b.cap * 10 ^ 9)
def cfBa (b : Bundle) (p : Nat) : Nat := coef (p * b.gBa) (b.cap * 10 ^ 9)

/-- Wire type and bundle of channel `i`. -/
def typeOf (s : State) (i : Nat) : WireType := wireTypeAt s (wireAt s i).wireType
def bundleOfCh (s : State) (i : Nat) : Bundle := bundleAt s (wireAt s i).bundle

/-- Every coefficient of channel `i` rounds below 1 at period `p` (R135). -/
def coefOk (s : State) (p i : Nat) : Bool :=
  let w := typeOf s i
  let b := bundleOfCh s i
  [cfHc w p, cfAlpha w, cfCi w p, cfIc w p, cfIb w p, cfBi w b p, cfBa b p].all (fun c => decide (c < 2 ^ 48))

/-- Channels of bundle `b` that share its node. -/
def bundleChans (s : State) (b : Nat) : List Nat :=
  (List.range 76).filter (fun i => decide ((wireAt s i).bundle = b))

/-- The stability bound of R142 for channel `i`: no sum of coefficients above 0.25. -/
def stableOk (s : State) (p i : Nat) : Bool :=
  let w := typeOf s i
  let b := bundleOfCh s i
  let shared := if (wireAt s i).bundle = 0 then [i] else bundleChans s (wireAt s i).bundle
  let bi := shared.foldl (fun n j => n + cfBi (typeOf s j) b p) 0
  decide (cfCi w p + cfIb w p ≤ 2 ^ 46) && decide (cfIc w p + cfIb w p ≤ 2 ^ 46) && decide (cfBa b p + bi ≤ 2 ^ 46)

/-- The wire record of channel `i` keeps R142 at period `p`. -/
def wireFine (s : State) (p i : Nat) : Bool :=
  (typeOf s i).valid &&
  decide (coolOf s i < warnOf s i ∧ warnOf s i < tripOf s i ∧ 60000 ≤ tripOf s i ∧ tripOf s i ≤ 250000) &&
  coefOk s p i && stableOk s p i

/-! ### Ambients (R143, R144) -/

/-- T_lid: the higher of the two lid sensors, Q24.24. -/
def tLid (s : State) : Int := q24 (max (elemOr 0 s.slu.lid 0) (elemOr 0 s.slu.lid 1)) 1000

/-- Ambient of bundle `b` in m°C. `ain` answers the temperature an analogue input reports, or nothing on a
fault. -/
def ambient (ain : Nat → Option Int) (s : State) (b : Nat) : Int :=
  let x := bundleAt s b
  match x.src with
  | 0 => max (elemOr 0 s.slu.lid 0) (elemOr 0 s.slu.lid 1)
  | 1 => (ain x.ain).getD x.fixed
  | 2 => x.fixed
  | _ => if x.stale then x.fixed else x.host

/-- WIRE_AMBIENT for the AIN bundles whose input's fault has come or gone (R144). -/
def ambientEvents (ain : Nat → Option Int) (s : State) : State :=
  (List.range 32).foldl (fun s b =>
    let x := bundleAt s b
    let bad := decide (x.src = 1) && (ain x.ain).isNone
    if bad = x.ainBad then s
    else
      let s := modBundle b (fun x => { x with ainBad := bad }) s
      emit 0x1104 (0x100 + b) s (cause := 0) (flags := b2n bad) (value := ambient ain s b)) s

/-! ### Wire models (R136) -/

/-- The channel is placed under its fallback curve (R133, R148). -/
def underFallback (s : State) (i : Nat) : Bool := (wireAt s i).fallback

/-- `i_sq` the model uses: zero when the channel was off in the sampled cycle (R136), the substitute while its sense path is
faulty and it is on (R133). -/
def modelSq (s : State) (i : Nat) : Int :=
  let w := wireAt s i
  let lim := iLimUa s i
  if !w.onWas then 0
  else if w.subst && isOn (chanAt s i).state then max (w.sample.iSq : Int) (q24 ((lim * lim : Nat) : Int) (10 ^ 12))
  else (w.sample.iSq : Int)

/-- T_b of the channel's bundle. -/
def tbOf (s : State) (i : Nat) : Int :=
  if (wireAt s i).bundle = 0 then (wireAt s i).tb else (bundleAt s (wireAt s i).bundle).tb

/-- New T_c and T_i of channel `i` and the heat its bundle gains. -/
def stepWire (s : State) (i : Nat) : Int × Int × Int :=
  let w := wireAt s i
  let t := typeOf s i
  let p := s.cyc.period
  let dci := qsat (w.tc - w.ti)
  let dib := qsat (w.ti - tbOf s i)
  let f := qsat (2 ^ 24 + cmul (cfAlpha t) (qsat (w.tc - 20 * 2 ^ 24)))
  let heat := cmul (cfHc t p) (qmul (modelSq s i) f)
  (qsat (qsat (w.tc + heat) - cmul (cfCi t p) dci),
   qsat (qsat (w.ti + cmul (cfIc t p) dci) - cmul (cfIb t p) dib),
   cmul (cfBi t (bundleOfCh s i) p) dib)

/-- T_b after its gain and its loss to the ambient. -/
def stepBundle (s : State) (b : Nat) (amb tb gain : Int) : Int :=
  qsat (qsat (tb + gain) - cmul (cfBa (bundleAt s b) s.cyc.period) (qsat (tb - amb)))

/-- Every channel, whatever its state, then every bundle, from the values before the update (R136). `n` is the sampled
cycle. -/
def wireModels (ain : Nat → Option Int) (n : Nat) (s0 : State) : State :=
  let live := List.range 76
  let s := live.foldl (fun s i =>
    let (tc, ti, gain) := stepWire s0 i
    modWire i (fun w => { w with
      tc := tc, ti := ti, cycle := n
      tb := if w.bundle = 0 then stepBundle s0 0 (q24 (ambient ain s0 0) 1000) w.tb gain else w.tb }) s) s0
  (List.range 32).foldl (fun s b =>
    let cs := live.filter (fun i => decide ((wireAt s0 i).bundle = b))
    if b = 0 ∨ cs = [] then s
    else
      let gain := cs.foldl (fun g i => qsat (g + (stepWire s0 i).2.2)) 0
      modBundle b (fun x => { x with tb := stepBundle s0 b (q24 (ambient ain s0 b) 1000) x.tb gain }) s) s

/-- Trips and warnings of one channel after the update (R145, R146). WIRE_WARN is armed again strictly below t_warn − 5 K
(DESIGN CHOICE: the spec does not say whether T_c at that value has fallen 5 K below). -/
def wireJudge (i : Nat) (s : State) : State :=
  let w := wireAt s i
  let hot := decide (warnOf s i * 2 ^ 24 ≤ w.tc * 1000)
  let s := if isOn (chanAt s i).state && (chanAt s i).trip.isNone && !w.fallback &&
      decide (tripOf s i * 2 ^ 24 ≤ w.tc * 1000) then
    modChan i (fun c => { c with wireTrip := true }) s else s
  if hot && !w.warned then
    emit 0x1101 (0x200 + i) (modWire i (fun w => { w with warned := true }) s) (value := milli w.tc)
  else if w.warned && decide (w.tc * 1000 < (warnOf s i - 5000) * 2 ^ 24) then
    modWire i (fun w => { w with warned := false }) s
  else s

/-! ### Cluster estimates (R117-R120, R137) -/

/-- C_cl in mJ/K and R_cl in mK/W (R117). -/
def clCap (k : Nat) : Nat := if k < 2 then 1600 else if k < 6 then 600 else if k < 8 then 400 else 500
def clRes (k : Nat) : Nat := if k < 2 then 250 else if k < 6 then 500 else if k < 8 then 800 else 600

/-- Channels of cluster `k`. -/
def clChans (k : Nat) : List Nat := (List.range 76).filter (fun i => decide (chCluster i = k))

/-- Energy of one channel's switches in the sampled cycle, µJ: `e_sw`, of which a trip's energy is a part (R106, R130). -/
def chEnergy (s : State) (i : Nat) : Nat := (wireAt s i).sample.eSw

/-- Energy of a cluster, Q24.24 J. -/
def clEnergy (s : State) (k : Nat) : Int :=
  q24 (((clChans k).foldl (fun n i => n + chEnergy s i) 0 : Nat) : Int) (10 ^ 6)

/-- The same without the channels that step 1 of R152 trips, which count towards no later step. -/
def clLeft (s : State) (k : Nat) : Int :=
  q24 ((((clChans k).filter (fun i => !(chanAt s i).wireTrip)).foldl (fun n i => n + chEnergy s i) 0 : Nat) : Int) (10 ^ 6)

/-- The two neighbours of a cluster's sensor. -/
def clNear (k : Nat) : Nat × Nat := if k = 0 then (1, 2) else if k = 9 then (7, 8) else (k - 1, k + 1)

/-- Mean of the neighbours' sensors. -/
def nearMean (s : State) (k : Nat) : Int :=
  ((clusterAt s (clNear k).1).sensor + (clusterAt s (clNear k).2).sensor) / 2

/-- The sensor check of R553 0x009: 8 cycles more than 20 K from the neighbours' mean. -/
def sensorCheck (k : Nat) (s : State) : State :=
  let d := (clusterAt s k).sensor - nearMean s k
  let far := decide (20 * 2 ^ 24 < d ∨ d < -(20 * 2 ^ 24))
  let n := (clusterAt s k).sensorBad
  let s := modCluster k (fun c => { c with sensorBad := if far then min 8 (n + 1) else 0 }) s
  if far && decide (n = 7) then detect 0x009 true s
  else if !far && decide (n = 8) then
    (if (List.range 10).any (fun j => decide ((clusterAt s j).sensorBad = 8)) then s else detectEnd 0x009 s)
  else s

/-- T_cl advanced by the cycle's energy less the flow to the lid, and never below the sensor (R137). -/
def clusterStep (k : Nat) (s : State) : State :=
  let c := clusterAt s k
  let e := clEnergy s k
  let g := coef s.cyc.period (clCap k * clRes k * 1000)
  let t := qsat (qsat (c.tcl + e * 1000 / (clCap k : Int)) - cmul g (qsat (c.tcl - tLid s)))
  let floor := if c.sensorBad = 8 then nearMean s k + 10 * 2 ^ 24 else c.sensor
  modCluster k (fun c => { c with tcl := max t floor }) s

/-- P_net of R119, scaled by the period in ns times R_cl in mK/W. -/
def pNet (s : State) (k : Nat) (e : Int) : Int :=
  e * (10 ^ 9) * (clRes k : Int) - ((clusterAt s k).tcl - tLid s) * 1000 * (s.cyc.period : Int)

/-- Time to the cluster limit in ns, or none (R119). -/
def tReach (s : State) (k : Nat) : Option Nat :=
  let d := pNet s k (clLeft s k)
  if d ≤ 0 then none
  else some ((((clusterAt s k).limit : Int) * 2 ^ 24 - (clusterAt s k).tcl) * (clCap k : Int) * (10 ^ 6) *
    (s.cyc.period : Int) * (clRes k : Int) / d).toNat

/-- A cluster's inrush windows longer than `t` cut to it, each told once (R119). -/
def cutTo (k t : Nat) (s : State) : State :=
  (clChans k).foldl (fun s i =>
    if (chanAt s i).state = .inrush ∧ t < (chanAt s i).window then
      emit 0x100A i (modChan i (fun c => { c with window := t, edgeWait := false, inrushCut := true, windowCut := true }) s)
        (value := chCur s i) (ext := [t])
    else s) s

/-- Inrush windows of the cluster shortened to the time to the limit (R119). -/
def cutWindows (k : Nat) (s : State) : State := (tReach s k).toList.foldl (fun s t => cutTo k t s) s

/-- The channel still conducts at the coming boundary: on, and no earlier step sheds or trips it (R152). -/
def stillOn (s : State) (i : Nat) : Bool :=
  isOn (chanAt s i).state && !(chanAt s i).wireTrip && (chanAt s i).trip.isNone && (chanAt s i).shedWait.isNone

/-- Sheds of a cluster at its limit: in ascending priority, at least one, until what remains no longer heats
it (R120). `left` is the energy that remains. -/
def shedCluster (k : Nat) : List Nat → Int → State → State
  | [], _, s => s
  | i :: r, left, s =>
    let left' := left - q24 (chEnergy s i : Int) (10 ^ 6)
    let s := modChan i (fun c => { c with shedWait := some 8 }) s
    if pNet s k left' ≤ 0 then s else shedCluster k r left' s

/-- R119 and R120 for one cluster. -/
def clusterJudge (k : Nat) (s : State) : State :=
  let s := cutWindows k s
  let c := clusterAt s k
  if (c.limit : Int) * 2 ^ 24 ≤ c.tcl then
    shedCluster k (sortBy (prioUp s) ((clChans k).filter (stillOn s))) (clLeft s k) s
  else if c.tcl < ((c.limit : Int) - (c.hyst : Int)) * 2 ^ 24 then
    match sortBy (prioDown s) ((clChans k).filter (fun i =>
        decide ((chanAt s i).state = .shed ∧ (chanAt s i).shedCause = 8) && ready s i)) with
    | i :: _ => modChan i (fun c => { c with offer := true }) s
    | [] => s
  else s

/-! ### Budgets (R151-R156) -/

/-- Channels in a budget's scope. -/
def budgetChans (b : Nat) : List Nat :=
  (List.range 76).filter (fun i => decide (b ≥ 2 ∨ (b = 0 ∧ i < 20) ∨ (b = 1 ∧ 20 ≤ i)))

/-- L, or a percentage of it, as a Q24.24 word: A, or J per cycle for the dissipation budget. -/
def budgetL (s : State) (b pct : Nat) : Int :=
  if b = 3 then q24 (((budgetAt s b).limit * s.cyc.period * pct : Nat) : Int) (10 ^ 11)
  else q24 (((budgetAt s b).limit * pct : Nat) : Int) 100

/-- A channel's share of a budget, Q24.24: its current of R131 and R133, or its energy. -/
def budgetPart (s : State) (b i : Nat) : Int :=
  let w := wireAt s i
  if b = 3 then q24 (chEnergy s i : Int) (10 ^ 6)
  else
    let x := if w.sample.iSat then w.sample.iMeanW else w.sample.iMean
    q24 (if w.subst && isOn (chanAt s i).state then max x (iLimUa s i : Int) else x) (10 ^ 6)

/-- S of a budget (R151): what an earlier step sheds or trips no longer counts (R152). `fo` is the current of
the field outputs in µA, counted in group B and in the module. -/
def budgetSum (s : State) (fo : Int) (b : Nat) : Int :=
  let out := fun i => (chanAt s i).wireTrip || (chanAt s i).shedWait.isSome
  let cs := (budgetChans b).filter (fun i => !out i)
  qsat (cs.foldl (fun n i => qsat (n + budgetPart s b i)) (if b = 1 ∨ b = 2 then q24 fo (10 ^ 6) else 0))

/-- A budget quantity in µA or µJ. -/
def micro (q : Int) : Int := q * 10 ^ 6 / (2 ^ 24 : Int)

/-- Shedding in order until S is within L; answers S and the channels shed (R153). -/
def shedBudget (b : Nat) : List Nat → Int → List Nat → State → Int × List Nat × State
  | [], sum, out, s => (sum, out, s)
  | i :: r, sum, out, s =>
    if sum ≤ budgetL s b 100 then (sum, out, s)
    else
      let x := budgetPart s b i
      shedBudget b r (sum - x) (out ++ [i])
        (modChan i (fun c => { c with shedWait := some 0x0A, shedBy := b + 1, shedCur := x.toNat }) s)

/-- Candidates of a budget (R153). -/
def candidates (s : State) (b : Nat) : List Nat :=
  sortBy (prioUp s) ((budgetChans b).filter (fun i => stillOn s i && decide ((chanAt s i).cfg.shedPrio < 255)))

/-- Mask of channels (R444 0x1105). -/
def chanMask (l : List Nat) : Nat := l.foldl (fun n i => n ||| 2 ^ i) 0

/-- WIRE_BUDGET_FAIL, raised once (R156). -/
def budgetFail (b : Nat) (s : State) : State :=
  if (budgetAt s b).reported then s
  else detect 0x014 true (emit 0x1107 (0x301 + b) (modBudget b (fun x => { x with reported := true }) s)
    (cause := b) (value := micro (budgetAt s b).filt))

/-- One budget in the level phase: S, F, shedding and the failure of R156. -/
def budgetStep (fo : Int) (b : Nat) (s : State) : State :=
  let x := budgetAt s b
  let sum := budgetSum s fo b
  let filt := if x.fresh then sum else qsat (x.filt + cmul (coef s.cyc.period (x.tau * 10 ^ 6)) (qsat (sum - x.filt)))
  let s := modBudget b (fun x => { x with sum := sum, filt := filt, fresh := false }) s
  let lim := budgetL s b 100
  let peak := budgetL s b x.peak
  let (left, out, s) :=
    if (lim < filt ∧ lim < sum) ∨ peak < sum then shedBudget b (candidates s b) sum [] s else (sum, [], s)
  let s := if out = [] then s
    else emit 0x1105 (0x301 + b) s (cause := b) (value := micro left) (ext := [chanMask out])
  let s := modBudget b (fun x => { x with allShed := decide (candidates s b = []) }) s
  if (budgetAt s b).allShed && decide (peak < left) then budgetFail b s
  else if filt ≤ lim ∧ sum ≤ lim ∧ (budgetAt s b).reported = true then
    let s := modBudget b (fun x => { x with reported := false }) s
    if (List.range 4).any (fun j => (budgetAt s j).reported) then s else detectEnd 0x014 s
  else s

/-- Restore of one channel of a budget (R155): with both sums within L × (1 - m) for T_RESTORE, the ready shed
channel of highest priority when it fits. -/
def budgetRestore (b : Nat) (s : State) : State :=
  let x := budgetAt s b
  let lim := budgetL s b (100 - x.margin)
  if lim < x.sum ∨ lim < x.filt then modBudget b (fun x => { x with holdDone := false }) s
  else if !x.holdDone then s
  else
    let mine := (List.range 76).filter (shedHeld s b)
    if mine.any (fun i => (chanAt s i).offer) then s
    else match sortBy (prioDown s) (mine.filter (ready s)) with
      | [] => s
      | i :: _ =>
        let after := x.sum + ((chanAt s i).shedCur : Int)
        if lim < after then s
        else emit 0x1106 (0x301 + b)
          (modChan i (fun c => if c.state = .shed then { c with offer := true } else { c with shedBy := 0 }) s)
          (cause := b) (value := micro after) (ext := [chanMask [i]])

/-! ### Telemetry (R157-R159) -/

/-- Floor of a square root by bisection. -/
def sqrtUp (n : Nat) : Nat → Nat → Nat → Nat
  | 0, lo, _ => lo
  | f + 1, lo, hi =>
    let m := (lo + hi + 1) / 2
    if hi ≤ lo then lo else if m * m ≤ n then sqrtUp n f m hi else sqrtUp n f lo (m - 1)

/-- `i_rms` (R158): the floor in µA of the exact square root of `i_sq`. -/
def iRms (sq : Nat) : Nat := sqrtUp (sq * 10 ^ 12 / 2 ^ 24) 96 0 (2 ^ 48)

/-- Signed value in 6 bytes. -/
def s6 (x : Int) : List Byte := leBytes 6 (ofS 48 x)

/-- Channel record of a telemetry report. -/
def teleChan (s : State) (n i : Nat) : List Byte :=
  let w := wireAt s i
  let x := w.sample
  encodeRec (chanRec i) s ++ s6 (if x.iSat then x.iMeanW else x.iMean) ++ leBytes 6 (iRms x.iSq) ++
  leBytes 6 x.iPeak ++ leBytes 6 x.vOut ++ s6 (milli w.tc) ++ s6 (milli w.ti) ++ s6 (milli (tbOf s i)) ++
  leBytes 6 x.eSw ++ leBytes 6 n ++
  leBytes 2 (flag 0 x.iSat + flag 1 w.subst + flag 2 (decide (warnOf s i * 2 ^ 24 ≤ w.tc * 1000)) + flag 3 w.fallback)

/-- Channels a budget has shed. -/
def shedCount (s : State) (b : Nat) : Nat :=
  ((List.range 76).filter (fun i => decide ((chanAt s i).state = .shed ∧ (chanAt s i).shedBy = b + 1))).length

/-- Budget record (R158). -/
def budgetRec (b : Nat) : Rec :=
  { len := 32
    flds := [liveF 0 0 8 (fun _ => b), liveF 1 0 8 (fun s => shedCount s b),
      liveF 4 0 48 (fun s => if b < 2 then (grpAt s b).v else 0),
      liveF 10 0 48 (fun s => ofS 48 (micro (budgetAt s b).sum)),
      liveF 16 0 48 (fun s => ofS 48 (micro (budgetAt s b).filt)),
      liveF 22 0 48 (fun s => ofS 48 (micro (budgetL s b 100)))] }

/-- A list in runs of at most `k`. -/
def chunks (k : Nat) : Nat → List (List Byte) → List (List (List Byte))
  | 0, _ => []
  | f + 1, l => if l = [] then [] else l.take k :: chunks k f (l.drop k)

/-- The messages of a report: header and records (R158). -/
def teleParts (s : State) (u : TeleSub) (n : Nat) : List (List Byte) :=
  let recs := if u.kind = 0 then ((List.range 76).filter (fun i => bitOf i u.mask)).map (teleChan s n)
              else (List.range 4).map (fun b => encodeRec (budgetRec b) s)
  let cs := chunks (if u.kind = 0 then 56 else 4) 2 recs
  (List.range cs.length).map (fun k =>
    let c := elemOr [] cs k
    leBytes 2 u.id ++ leBytes 1 k ++ leBytes 1 cs.length ++ leBytes 1 c.length ++ leBytes 1 u.kind ++
      leBytes 2 u.skipped ++ c.flatten)

/-- A due report enters the pound's queue whole, or is replaced by the next one (R159). -/
def teleReport (n : Nat) (u : TeleSub) (s : State) : State :=
  let parts := teleParts s u n
  let k := parts.length + (if (pqAt s u.pound).lost = 0 then 0 else 1)
  let fits := s.fv.fw && pThere s u.pound &&
    decide ((pqAt s u.pound).rateCount + k ≤ (poundAt s u.pound).evtRate) &&
    decide (evtWaiting s u.pound + k ≤ (poundAt s u.pound).evtQueue) && !evtRingFull s u.pound k
  let set := fun x => modSlu (fun v => { v with subs := v.subs.map (fun t =>
    if t.id = u.id then { t with skipped := x } else t) })
  if s.sys.role = .barge then
    set 0 (modFv (fun v => { v with bargeEvt := v.bargeEvt ++ parts.map (fun bs =>
      { code := 0x1109, handle := handleOf s 0x11 0x300, cycle := s.cyc.number, ext := bs.map BitVec.toNat }) }) s)
  else if fits then
    set 0 (parts.foldl (fun s bs => place u.pound
      { code := 0x1109, handle := handleOf s 0x11 0x300, cycle := s.cyc.number, ext := bs.map BitVec.toNat } s) s)
  else set (sat 16 (u.skipped + 1)) s

/-- The reports due for sampled cycle `n` (R157). -/
def telemetry (n : Nat) (s : State) : State :=
  (s.slu.subs.filter (fun u => decide (n % u.every = u.offset))).foldl (fun s u => teleReport n u s) s

/-- Two subscriptions have a cycle in which both are due. -/
def meet (a b : TeleSub) : Bool :=
  decide (a.offset % Nat.gcd a.every b.every = b.offset % Nat.gcd a.every b.every)

/-- Number of channel records of a subscription. -/
def teleWeight (u : TeleSub) : Nat := if u.kind = 0 then ((List.range 76).filter (fun i => bitOf i u.mask)).length else 0

/-- Most channel records due in any one cycle, over the choices of subscriptions that can fall due together
with those chosen (a cycle common to all exists when every two have one). -/
def teleMost : List TeleSub → List TeleSub → Nat
  | [], _ => 0
  | u :: r, chosen =>
    let skip := teleMost r chosen
    if chosen.all (meet u) then max skip (teleWeight u + teleMost r (u :: chosen)) else skip

/-! ### Fallback (R148-R150) -/

/-- I_n in A and K in A²s of a class (R148). -/
def fbIn (i : Nat) : Nat := chRating i
def fbK (i : Nat) : Nat := match chClass i with | .feeder => 4000 | .main => 600 | .light => 40 | .half => 250

/-- K in the integrator's unit: µA² per step of 1/64,000 s. -/
def fbKu (i : Nat) : Nat := fbK i * 64000 * 10 ^ 12

/-- One integrator step with a current in µA. -/
def fbStep (i : Nat) (a cur : Nat) : Nat := a + cur * cur - (fbIn i * 10 ^ 6) ^ 2

/-- Fallback is engaged for a channel: `FB_UNSAFE` channels that are on shed, and one whose integrator already
stands at K trips at once (R148, R149). -/
def engage (i : Nat) (s : State) : State :=
  let w := wireAt s i
  let s := modWire i (fun w => { w with fallback := true, i2tBad := false }) s
  if (w.fbUnsafe || w.i2tBad) && isOn (chanAt s i).state then
    modChan i (fun c => { c with shedCause := 7, lastCause := 7, trip := keepTrip c, wireTrip := false, shedWait := none })
      (switchOff i .shed s)
  else if fbKu i ≤ w.integ then analogTrip i 7 0 (chCur s i) 0 s
  else s

/-- Channels of a digitiser group (R129). -/
def adcChans (g : Nat) : List Nat :=
  (List.range 76).filter (fun i => decide (
    if g = 0 then i < 16 else if g = 1 then 16 ≤ i ∧ i < 32 else if g = 2 then 32 ≤ i ∧ i < 48
    else if g = 3 then 48 ≤ i ∧ i < 64 else 64 ≤ i))

/-- Digitiser group of a channel. -/
def adcOf (i : Nat) : Nat := i / 16

/-- The Sluice is declared silent (R554): fallback for every channel, Towpath cause SLUICE, retry delays
frozen (R116). -/
def declareSilent (s : State) : State :=
  if s.slu.silent then s else
  let s := modSlu (fun v => { v with silent := true }) s
  let s := (List.range 76).foldl (fun s i =>
    modWire i (fun w => { w with onInSilence := isOn (chanAt s i).state }) (engage i
      (modChan i (fun c => { c with
        delayRun := false, delayEnd := false, lvEnd := false, lvCliff := false, lvPat := false, lvClean := false }) s))) s
  let s := emit 0x1108 0x300 s (cause := 0) (flags := 1)
  if s.fv.fw then tpSet 3 s else s

/-- The newest valid copy of the node state (R138). -/
def newestCopy (s : State) : Option NodeCopy :=
  s.slu.copies.foldl (fun acc e => match acc with
    | none => if e.2.seq = 0 ∨ e.2.ok = false then none else some e.2
    | some c => if c.seq < e.2.seq ∧ e.2.ok = true then some e.2 else some c) none

/-- Nodes of one channel set. -/
def setNodes (i : Nat) (tc ti tb : Int) (s : State) : State :=
  modWire i (fun w => { w with tc := tc, ti := ti, tb := tb }) s

/-- Node temperatures at start (R138): at the ambients after a full-cool SLEEP, at the stored values
otherwise, at the ambients plus the start margin when no copy is valid. -/
def startNodes (ain : Nat → Option Int) (sleepS : Nat) (s : State) : State :=
  let amb := fun b => q24 (ambient ain s b) 1000
  let bOf := fun i => (wireAt s i).bundle
  let put := fun (f : Nat → Int × Int × Int) (g : Nat → Int) (s : State) =>
    let s := (List.range 76).foldl (fun s i => setNodes i (f i).1 (f i).2.1 (f i).2.2 s) s
    (List.range 32).foldl (fun s b => if b = 0 then s else modBundle b (fun x => { x with tb := g b }) s) s
  match newestCopy s with
  | none =>
    let m := (s.slu.margin : Int) * 2 ^ 24
    let warm := fun b => qsat (amb b + m)
    put (fun i => (warm (bOf i), warm (bOf i), warm (bOf i))) warm s
  | some c =>
    if c.sleep && decide (s.slu.coolMin * 60 ≤ sleepS) then
      put (fun i => (amb (bOf i), amb (bOf i), amb (bOf i))) amb s
    else put (fun i => (elemOr 0 c.tc i, elemOr 0 c.ti i, elemOr 0 c.tb i)) (fun b => elemOr 0 c.tbs b) s

/-- The node state is written to the next of eight copies (R138); on entry to SLEEP the bridge positions with
it, marked restorable when valid and at speed 0 (R183). -/
def storeNodes (sleep : Bool) (s : State) : State :=
  let n := s.slu.copySeq + 1
  let c : NodeCopy := {
    seq := n, sleep := sleep
    tc := (List.range 76).map (fun i => (wireAt s i).tc)
    ti := (List.range 76).map (fun i => (wireAt s i).ti)
    tb := (List.range 76).map (fun i => (wireAt s i).tb)
    tbs := (List.range 32).map (fun b => (bundleAt s b).tb)
    pos := (List.range 6).map (fun b => ((brAt s b).pos, sleep && (brAt s b).posValid && decide ((brAt s b).speed = 0))) }
  modSlu (fun v => { v with copies := tput nodeCopy0 (n % 8) c v.copies, copySeq := n }) s

/-- Fallback of the channels of a silence ends; nodes are reseeded (R150). -/
def resume (ain : Nat → Option Int) (s : State) : State :=
  let old := newestCopy s
  let s := (List.range 76).foldl (fun s i =>
    let w := wireAt s i
    let amb := q24 (ambient ain s w.bundle) 1000
    let pick := fun (f : NodeCopy → List Int) => match old with | some c => max (elemOr 0 (f c) i) amb | none => amb
    let cool := q24 (coolOf s i) 1000
    let up := fun x => if w.onInSilence then max x cool else x
    let s := if s.slu.modelOn then setNodes i (up (pick (·.tc))) (up (pick (·.ti))) (pick (·.tb)) s else s
    let s := modWire i (fun w => { w with
      fallback := !s.slu.modelOn || (adcAt s (adcOf i)).failed, onInSilence := false }) s
    -- R116: a frozen delay restarts from the beginning
    if (chanAt s i).state = .retryWait ∧ (adcAt s (adcOf i)).failed = false then
      modChan i (fun c => { c with delayRun := true, delayEnd := false }) s else s) s
  let s := if s.slu.modelOn then (List.range 32).foldl (fun s b =>
      if b = 0 then s else modBundle b (fun x => { x with tb := match old with
        | some c => max (elemOr 0 c.tbs b) (q24 (ambient ain s b) 1000)
        | none => q24 (ambient ain s b) 1000 }) s) s else s
  let s := (List.range 4).foldl (fun s b => modBudget b (fun x => { x with fresh := true }) s) s
  emit 0x1108 0x300 (modSlu (fun v => { v with silent := false }) s) (cause := 0)

/-! ### Fill phase: captures (R103, R106, R130, R131, R143) -/

/-- Limit of the `i_mean` range, µA (R130). -/
def meanMax (i : Nat) : Int :=
  match chClass i with | .feeder => 65534000 | .main => 32767000 | .light => 8191750 | .half => 16383500

/-- LSB of `i_mean`, µA; the wide LSB is eight of them (R130). -/
def meanLsb (i : Nat) : Nat :=
  match chClass i with | .feeder => 2000 | .main => 1000 | .light => 250 | .half => 500

/-- `x` in units of `l`, to the nearest, a half away from zero (R130). -/
def toLsb (l : Nat) (x : Int) : Int :=
  let n : Nat := (2 * x.natAbs + l) / (2 * l) * l
  if x < 0 then -(n : Int) else (n : Int)

/-- The digitiser's values: each mean and the peak in its LSB, `i_mean` clamped to its range with `I_SAT` (R130, R131). -/
def digitise (i : Nat) (x : ChanSample) : ChanSample :=
  { x with iMean := clampI (-(meanMax i)) (meanMax i) (toLsb (meanLsb i) x.iMean)
           iMeanW := toLsb (8 * meanLsb i) x.iMeanW
           iPeak := (toLsb (8 * meanLsb i) x.iPeak).toNat
           iSat := decide (meanMax i < x.iMean ∨ x.iMean < -(meanMax i)), coarse := [] }

/-- Detector 0x00A: the integrator differs by more than 20 % from the value derived from `i_sq` for 100 ms. -/
def i2tCheck (i : Nat) (s : State) : State :=
  let w := wireAt s i
  let gap := if w.integ ≤ w.deriv then w.deriv - w.integ else w.integ - w.deriv
  let ns := if w.deriv < 5 * gap then min 100000000 (w.i2tNs + s.cyc.period) else 0
  let s := modWire i (fun w => { w with i2tNs := ns }) s
  if ns = 100000000 ∧ w.i2tNs < 100000000 then detect 0x00A false (modWire i (fun w => { w with i2tBad := true }) s)
  else s

/-- An engaged channel whose integrator has reached K trips (R148). -/
def fallbackCheck (i : Nat) (s : State) : State :=
  if underFallback s i && decide (fbKu i ≤ (wireAt s i).integ) then analogTrip i 7 0 (chCur s i) 0 s else s

/-- The stuck check of R103: the second consecutive fill phase that shows the output above 50 % of the group voltage. -/
def stuckCheck (i v : Nat) (s : State) : State :=
  if (govern s i).on = 0 ∧ (chanAt s i).gate = false ∧ (chanAt s i).stuckTest = false ∧ (grpAt s (chGroup i)).v < 2 * v then
    if (chanAt s i).stuckObs = 0 then modChan i (fun c => { c with stuckObs := 1 }) s
    else if (chanAt s i).stuckObs = 1 then stuckSeen i (modChan i (fun c => { c with stuckObs := 2 }) s)
    else s
  else modChan i (fun c => { c with stuckObs := 0 }) s

/-- Capture of one channel: its sample, the integrators' steps, its latched trip, the stuck check of R103. -/
def fillChan (x : Samples) (i : Nat) (s : State) : State :=
  let smp := elemOr (wireAt s i).sample x.chan i
  let steps := s.cyc.period * 64 / 1000000
  let cur := smp.iSq * 10 ^ 12 / 2 ^ 24
  let lim := (fbIn i * 10 ^ 6) ^ 2
  let s := modWire i (fun w => { w with
    integ := smp.coarse.foldl (fbStep i) w.integ
    deriv := w.deriv + cur * steps - lim * steps
    sample := digitise i smp }) s
  let s := modChan i (fun c => { c with trip := c.trip.map (fun t => { t with captured := true }) }) s
  stuckCheck i smp.vOut (fallbackCheck i s)

/-- The supply groups' voltages. -/
def fillGroups (x : Samples) (s : State) : State :=
  (List.range 2).foldl (fun s g => modGrp g (fun y => { y with v := elemOr y.v x.group g }) s) s

/-- The die sensors of the clusters. -/
def fillClusters (x : Samples) (s : State) : State :=
  (List.range 10).foldl (fun s k => modCluster k (fun c => { c with sensor := elemOr c.sensor x.cluster k }) s) s

/-- The lid sensors, with the consecutive cycles in which they differ by more than 8 K; a mismatch ends once they agree
again (R143). -/
def fillLid (x : Samples) (s : State) : State :=
  let s := modSlu (fun v => { v with lid := [elemOr (elemOr 0 v.lid 0) x.lid 0, elemOr (elemOr 0 v.lid 1) x.lid 1] }) s
  let d := elemOr 0 s.slu.lid 0 - elemOr 0 s.slu.lid 1
  let apart := decide (8000 < d ∨ d < -8000)
  let s := modSlu (fun v => { v with lidBad := if apart then min 8 (v.lidBad + 1) else 0 }) s
  if !apart && s.slu.lidRep then detectEnd 0x00B (modSlu (fun v => { v with lidRep := false }) s) else s

/-- Channel that position `pos` of digitiser group `g` is. -/
def adcChan (g pos : Nat) : Nat := 16 * g + pos

/-- Fixed and proportional accuracy of `i_mean`, µA and 0.1 % of reading (R130). -/
def meanAcc (i : Nat) : Nat × Nat :=
  match chClass i with | .feeder => (40000, 10) | .main => (20000, 10) | .light => (4000, 15) | .half => (10000, 15)

/-- Two means of channel `i` differ by more than the sum of their accuracies plus 1 % of reading (R132); the working ADC's
is the reading. -/
def meansDiffer (i : Nat) (m sp : Int) : Bool :=
  let (fix, pm) := meanAcc i
  decide (2000 * fix + (2 * pm + 10) * m.natAbs < 1000 * (m - sp).natAbs)

/-- The checks of digitiser group `g` (R132): both ADCs against their references, and the means of the channel that the
spare shadowed in the sampled cycle. A first disagreement keeps the spare on that channel, a second confirms a fault. -/
def fillAdc (x : Samples) (g : Nat) (a : Adc) : Adc :=
  let count := fun (k n : Nat) => if 50 < elemOr 0 x.refs k then min 2 (n + 1) else 0
  let i := adcChan g a.prev
  let m := (elemOr {} x.chan i).iMean
  let differ := a.xcheck && meansDiffer i m (elemOr m x.xMean g)
  let a := { a with refBad := count g a.refBad, refBadS := count (5 + g) a.refBadS }
  if !differ then { a with dis := false }
  else if a.dis then { a with dis := false, conf := some i }
  else { a with dis := true, pos := a.prev }

/-- The checks of every digitiser group. -/
def fillAdcs (x : Samples) (s : State) : State := (List.range 5).foldl (fun s g => modAdc g (fillAdc x g) s) s

/-- Every channel's capture. -/
def fillChans (x : Samples) (s : State) : State := (List.range 76).foldl (fun s i => i2tCheck i (fillChan x i s)) s

/-- Every captured trip is recorded. -/
def recordTrips (s : State) : State := (List.range 76).foldl (fun s i => recordTrip i s) s

/-- The Sluice's and the channels' captures of a fill phase. While the Sluice is silent the Lockkeeper records
the trips (R116). -/
def fillPower (x : Samples) (s : State) : State :=
  let s := fillChans x (fillAdcs x (fillLid x (fillClusters x (fillGroups x s))))
  if s.slu.silent then recordTrips s else s

/-! ### Level phase (R152) -/

/-- What the restart state machines go by at the coming boundary, as this level phase finds it (R111). -/
def levelChan (c : Chan) : Chan := { c with lvEnd := c.delayEnd, lvCliff := c.cliff, lvPat := c.patienceUp, lvClean := c.cleanUp }

/-- The same for every channel. -/
def levelChans (s : State) : State := (List.range 76).foldl (fun s i => modChan i levelChan s) s

/-- The Sluice's work of a level phase, in the order of R152: trips recorded, wire models, clusters, the four
budgets, restores, telemetry. Silent, it does nothing. -/
def levelSluice (ain : Nat → Option Int) (fo : Int) (s : State) : State :=
  if s.slu.silent then s else
  let s := levelChans s
  let n := (s.cyc.number + 2 ^ 48 - 1) % 2 ^ 48
  let s := ambientEvents ain s
  let s := if s.slu.modelOn then (List.range 76).foldl (fun s i => wireJudge i s) (wireModels ain n s) else s
  let s := (List.range 10).foldl (fun s k => clusterStep k (sensorCheck k s)) s
  let s := recordTrips s
  let s := (List.range 10).foldl (fun s k => clusterJudge k s) s
  let s := (List.range 4).foldl (fun s b => budgetStep fo b s) s
  let s := (List.range 4).foldl (fun s b => budgetRestore b s) s
  -- R150: channels shed by the fallback are offered their restore
  let s := (List.range 76).foldl (fun s i =>
    if (chanAt s i).state = .shed ∧ (chanAt s i).shedCause = 7 ∧ (wireAt s i).fallback = false then
      modChan i (fun c => { c with offer := true }) s else s) s
  telemetry n s

/-- Which channels can conduct in the cycle that begins, and could in the one that ended (R136). -/
def boundaryOn (s : State) : State :=
  (List.range 76).foldl (fun s i => modWire i (fun w => { w with onWas := w.onNow, onNow := (chanAt s i).gate }) s) s

/-- At a boundary the spare of each group that still cross-checks moves to the next channel (R132), and a 4,096th boundary
calls for a copy of the node state (R138). -/
def boundarySluice (s : State) : State :=
  let s := (List.range 5).foldl (fun s g => modAdc g (fun a =>
    if a.xcheck then { a with prev := a.pos, pos := (a.pos + 1) % (if g = 4 then 12 else 16) } else a) s) s
  modSlu (fun v => { v with
    boundaries := (v.boundaries + 1) % 4096, storeDue := v.storeDue || decide (v.boundaries = 4095) }) (boundaryOn s)

/-! ### Class WIRE -/

/-- A signed 48-bit field that only the chart sets. -/
def chS {α : Type} (byte : Nat) (get : α → Int) (set : Int → α → α) : UFld α :=
  chF byte 0 48 (fun x => ofS 48 (get x)) (fun n => set (toS 48 n))

/-- A field that only the chart sets, in the range `ok`. -/
def chR {α : Type} (byte bit w : Nat) (get : α → Nat) (set : Nat → α → α) (ok : Nat → Bool) : UFld α :=
  { chF byte bit w get set with ok := ok }

/-- A temperature that only the chart sets. -/
def chT (byte i : Nat) (get : State → Int) (set : Int → WireCh → WireCh) : Fld :=
  ⟨8 * byte, 48, false, fun _ => true, fun s => ofS 48 (get s), fun n => modWire i (set (toS 48 n))⟩

/-- Wire type entry (R139). -/
def wireTypeRec (i : Nat) : Rec :=
  { len := 64
    flds := lift (fun s => wireTypeAt s i) (modWireType i) [
      chF 0 0 1 (fun w => b2n w.valid) (fun n w => { w with valid := decide (n = 1) }),
      chF 2 0 48 (·.r20) (fun n w => { w with r20 := n }), chF 8 0 48 (·.alpha) (fun n w => { w with alpha := n }),
      chF 14 0 48 (·.cCond) (fun n w => { w with cCond := n }), chF 20 0 48 (·.cIns) (fun n w => { w with cIns := n }),
      chF 26 0 48 (·.gCi) (fun n w => { w with gCi := n }), chF 32 0 48 (·.gIb) (fun n w => { w with gIb := n }),
      chF 38 0 48 (·.rated) (fun n w => { w with rated := n })] }

/-- Bundle entry (R140). -/
def bundleRec (i : Nat) : Rec :=
  { len := 32
    flds := lift (fun s => bundleAt s i) (modBundle i) [
      chF 0 0 3 (·.src) (fun n b => { b with src := n }), chF 1 0 3 (·.ain) (fun n b => { b with ain := n }),
      chS 2 (·.fixed) (fun n b => { b with fixed := n }), chF 8 0 48 (·.cap) (fun n b => { b with cap := n }),
      chF 14 0 48 (·.gBa) (fun n b => { b with gBa := n }),
      rwF 20 0 48 (fun b => ofS 48 b.host) (fun n b => { b with host := toS 48 n }),
      chR 26 0 16 (·.staleS) (fun n b => { b with staleS := n }) (rng 1 600)] }

/-- Channel wire record (R141). -/
def wireChRec (i : Nat) : Rec :=
  { len := 56
    flds := lift (fun s => wireAt s i) (modWire i) [
        chF 0 0 8 (·.wireType) (fun n w => { w with wireType := n }),
        chF 1 0 5 (·.bundle) (fun n w => { w with bundle := n }),
        chF 1 5 1 (fun w => b2n w.fbUnsafe) (fun n w => { w with fbUnsafe := decide (n = 1) }),
        roF 32 0 48 (fun w => ofS 48 (milli w.tc)), roF 38 0 48 (fun w => ofS 48 (milli w.ti))] ++
      [liveF 44 0 48 (fun s => ofS 48 (milli (tbOf s i))),
       chT 2 i (tripOf · i) (fun n w => { w with tTrip := some n }), chT 8 i (warnOf · i) (fun n w => { w with tWarn := some n }),
       chT 14 i (coolOf · i) (fun n w => { w with tCool := some n })] ++
      lift (fun s => wireAt s i) (modWire i) [roF 50 0 48 (·.cycle)] }

/-- A write of `amb_host` restarts its staleness (R144). -/
def wireAfter (_ : State) (i _ : Nat) (ws : List (Nat × Nat)) (s : State) : State :=
  let b := i - 0x100
  if ws.any (fun w => decide (w.1 = 160)) && (bundleAt s b).stale then
    let s := modBundle b (fun x => { x with stale := false }) s
    if (bundleAt s b).src = 3 then emit 0x1104 i s (cause := 1) (value := (bundleAt s b).host) else s
  else s

/-- Class WIRE (R139-R142, R160). -/
def wireClass : ClassSpec :=
  { code := 0x11
    ranges := [(0, 256), (0x100, 32), (0x200, 76), (0x300, 5)]
    record := fun i part =>
      if part ≠ 0 then none
      else if i < 0x100 then some (wireTypeRec i) else if i < 0x120 then some (bundleRec (i - 0x100))
      else if i < 0x24C then some (wireChRec (i - 0x200))
      else if 0x301 ≤ i then some (budgetRec (i - 0x301)) else none
    verbs := [1, 2, 3, 4, 5, 6]
    events := 10
    after := wireAfter }

/-- A telemetry SUB (R157). -/
def teleSub (r : Req) (s : State) : State :=
  let kind := leAt r.payload 0 1
  let every := leAt r.payload 2 2
  let off := leAt r.payload 4 2
  let mask := leAt r.payload 8 10
  let base := handleOf s 0x10 0
  let u : TeleSub := { id := newSub s, pound := r.pound, kind := kind, mask := mask, every := every, offset := off }
  let st : Status :=
    if (List.range 76).any (fun i => bitOf i mask && !(holds s r.pound (base + i))) then .eShare
    else if 1 < kind ∨ leAt r.payload 1 1 ≠ 0 ∨ leAt r.payload 6 2 ≠ 0 ∨ leAt r.payload 18 6 ≠ 0 ∨ every = 0 ∨
        every ≤ off ∨ (kind = 1 ∧ mask ≠ 0) ∨ 2 ^ 76 ≤ mask then .eRange
    else if 8 ≤ (s.slu.subs.filter (fun b => decide (b.pound = r.pound))).length then .eBusy
    else if 152 < teleMost (u :: s.slu.subs) [] then .eBusy
    else .ok
  match orLate wireClass 4 r s st with
  | .ok =>
    let s := accepted r.pound (modFv (fun v => { v with nextSub := (u.id + 1) % 2 ^ 16 })
      (modSlu (fun v => { v with subs := v.subs ++ [u] }) s))
    answer 0x11 4 r .ok none (leBytes 2 u.id) s
  | st => answer 0x11 4 r st none [] s

/-- SUB on class WIRE: telemetry on 0x0300, events elsewhere (R428). -/
def wireSubBody (r : Req) (s : State) : State :=
  if r.inst = 0x300 then teleSub r s else doSub wireClass r s

/-! ### Meanings -/

/-- WIRE_SET (R142, R144): `amb_host` of a bundle, immediate. -/
def execWireSet (r : Req) (s : State) : Out := .next (cmdSet wireClass r s)
/-- WIRE_SUB (R157, R428). -/
def execWireSub (r : Req) (s : State) : Out := .next (serve wireClass 4 r (wireSubBody r) s)

/-- The spare converter of a digitiser group takes it (R133). -/
def bringAdc (g err : Nat) (s : State) : State :=
  let s := modAdc g (fun a => { a with swapped := true, xcheck := false }) s
  pondIn 2 g err (emit 0x1103 0x300 (modPond (fun p => { p with adcUsed := p.adcUsed ||| 2 ^ g }) s) (cause := g))

/-- ADC_REFERENCE_FAILURE (R132, R133): group `g`, whose converter has failed its reference check in two consecutive cycles;
`spare` when the spare converter is the one; `err` the reference error in 0.01 % of full scale (R566). -/
def execAdcReferenceFailure (g : Nat) (spare : Bool) (err : Nat) (s : State) : Out :=
  guardUnit (decide (g < 5))
    (if !s.pwr.keeper then s else
     let a := adcAt s g
     if (if spare then a.refBadS else a.refBad) < 2 then s else
     let s := detect 0x010 false (modAdc g (fun a => { a with err := err }) s)
     let s := if spare = a.swapped ∧ quarters a.err 50 < quarters err 50 then pondWear 2 g err false s else s
     if spare = a.swapped then
       -- the converter in service fails
       if !a.swapped && !a.spareBad then
         bringAdc g err s
       else if a.failed then s
       else
         let s := modAdc g (fun a => { a with failed := true, xcheck := false }) s
         (adcChans g).foldl (fun s i => modChan i (fun c => { c with delayRun := false, delayEnd := false })
           (if underFallback s i then s else engage i s))
           (emit 0x1108 0x300 (wearLog 2 g 3 s) (cause := g + 1) (flags := 1))
     else if spare && !a.spareBad then
       let s := modAdc g (fun a => { a with spareBad := true, xcheck := false }) (wearLog 2 g 3 s)
       let s := if kindEmpty s 2 then pondWear 2 g err true s else s
       emit 0x1103 0x300 s (cause := g) (flags := 1)
     else s)

/-- ADC_CROSS_CHECK_FAILURE (R132, R133): the second disagreement on channel `i` has confirmed that its sense path is
faulty. -/
def execAdcCrossCheckFailure (i : Nat) (s : State) : Out :=
  guardUnit (decide (i < 76))
    (if !s.pwr.keeper then s else
     if !(adcAt s (adcOf i)).xcheck || (wireAt s i).subst || decide ((adcAt s (adcOf i)).conf ≠ some i) then s else
     let s := modAdc (adcOf i) (fun a => { a with conf := none }) s
     let s := modWire i (fun w => { w with subst := true }) s
     detect 0x011 false (emit 0x1102 (0x200 + i) s (value := max (chCur s i) (iLimUa s i : Int))))

/-- MODEL_STATE_STORE (R138): once at every 4,096th boundary. -/
def execModelStateStore (s : State) : Out := .next (if !s.pwr.keeper then s else
    if s.slu.storeDue then storeNodes false (modSlu (fun v => { v with storeDue := false }) s) else s)

/-- LID_SENSOR_MISMATCH (R143): after 8 consecutive cycles more than 8 K apart, raised once; T_lid stays the higher reading. -/
def execLidSensorMismatch (s : State) : Out :=
  .next (if !s.pwr.keeper then s else
    if s.slu.lidRep || decide (s.slu.lidBad < 8) then s else
    let d := elemOr 0 s.slu.lid 0 - elemOr 0 s.slu.lid 1
    detect 0x00B true (emit 0x110A 0x300 (modSlu (fun v => { v with lidRep := true }) s) (value := d.natAbs)))

/-- HOST_AMBIENT_STALE (R144): bundle `b` uses `amb_fixed`. -/
def execHostAmbientStale (b : Nat) (s : State) : Out :=
  guardUnit (decide (b < 32))
    (if !s.pwr.keeper then s else
     if (bundleAt s b).stale then s else
     let s := modBundle b (fun x => { x with stale := true }) s
     if (bundleAt s b).src = 3 then emit 0x1104 (0x100 + b) s (cause := 1) (flags := 1) (value := (bundleAt s b).fixed)
     else s)

/-- FALLBACK_TRIP (R148): the integrator of channel `i`, where it stands at K and is engaged, trips the channel. `e` and
`cur` are the energy and the current of the event. -/
def execFallbackTrip (i e : Nat) (cur : Int) (s : State) : Out :=
  guardUnit (decide (i < 76))
    (if !s.pwr.keeper then s else
     if underFallback s i && decide (fbKu i ≤ (wireAt s i).integ) then analogTrip i 7 e cur 0 s else s)

/-- BUDGET_RESTORE (R155): `T_RESTORE` of budget `b` has ended with both sums within the margin. -/
def execBudgetRestore (b : Nat) (s : State) : Out :=
  guardUnit (decide (b < 4))
    (if !s.pwr.keeper then s else
    if s.slu.silent then s else budgetRestore b (modBudget b (fun x => { x with holdDone := true }) s))

/-- BUDGET_FAIL (R156): F has stayed over L for 2 × τ since every candidate was shed. -/
def execBudgetFail (b : Nat) (s : State) : Out :=
  guardUnit (decide (b < 4))
    (if (budgetAt s b).allShed && decide (budgetL s b 100 < (budgetAt s b).filt) && !s.slu.silent then budgetFail b s
     else s)

end Sys2Proof.Machine
end

