-- ==== Sys2Proof/Machine/Paddles.lean ====
section
/-! DEFINITION. The Paddles (R162-R174), auto-spread, the motor bridges with ripple counting, stall and pinch
(R175-R191), classes PADDLE and BRIDGE. -/
namespace Sys2Proof.Machine

/-! ### Limits (R163) -/

/-- Shortest period of a class, ns (R163). -/
def padTmin (i : Nat) : Nat :=
  match chClass i with | .feeder => 1000000 | .main => 250000 | .light => 40000 | .half => 40000

/-- The frequency lies within the class's range at period `p` (R163). -/
def padFreqOk (i : Nat) (c : PadCfg) (p : Nat) : Bool := decide (padTmin i * padDen c ≤ padNum c p)

/-! ### Auto-spread (R173, R174) -/

/-- Members of a spread group by their settings in force. -/
def members (s : State) (g : Nat) : List Nat :=
  (List.range 76).filter (fun i => decide ((padAt s i).cfg.spread = g))

/-- Clamped on-time of a duty in units of T / 65,536, rounded up (R166, R174). -/
def onUnits (s : State) (i : Nat) (c : PadCfg) : Nat :=
  if c.duty = 0 then 0 else if c.duty = 0xFFFF then 65536
  else
    let t := padNum c s.cyc.period
    let m := padMin s i * padDen c * 65536
    min (max c.duty ((m + t - 1) / t)) (65536 - m / t)

/-- Phases of one group in ascending instance order (R174). -/
def spreadFrom (s : State) : Nat → List Nat → List (Nat × Nat)
  | _, [] => []
  | phi, i :: r => (i, phi) :: spreadFrom s ((phi + onUnits s i (padAt s i).cfg) % 65536) r

/-- Every group's phases are recomputed. -/
def respread (s : State) : State :=
  if !s.mot.spreadDue then s else
  let s := (List.range' 1 15).foldl (fun s g =>
    (spreadFrom s (tget ctr0 s.mot.bases g) (members s g)).foldl (fun s e =>
      modPad e.1 (fun p => { p with phaseSet := e.2 }) s) s) s
  modMot (fun m => { m with spreadDue := false }) s

/-- The member's commit lets a new phase take effect at the boundary that begins cycle `c` (R168, R174). -/
def padFree (x : PadCfg) (commit c : Nat) : Bool :=
  decide (commit = 0 ∨ x.mul = 0 ∨ c % padN x = 0)

/-! ### Class PADDLE -/

/-- Settings a SET merges into (R168). -/
def padBase (p : Pad) : PadCfg := match p.pend with | some d => d.cfg | none => p.cfg

/-- A field of the settings: read in force, written into the pending settings. -/
def padF (byte bit w : Nat) (get : PadCfg → Nat) (set : Nat → PadCfg → PadCfg) (ok : Nat → Bool := fun _ => true) :
    UFld Pad :=
  rwF byte bit w (fun p => get p.cfg)
    (fun n p => { p with pend := some { cfg := set n (padBase p), reqs := match p.pend with | some d => d.reqs | none => [] } }) ok

/-- Paddle record (R172). -/
def padRec (i : Nat) : Rec :=
  { len := 16
    flds := lift (fun s => padAt s i) (modPad i) [
      padF 0 0 8 (·.n) (fun n c => { c with n := n }), padF 1 0 1 (·.mul) (fun n c => { c with mul := n }),
      padF 1 1 1 (·.commit) (fun n c => { c with commit := n }),
      padF 1 2 1 (·.hbOffLow) (fun n c => { c with hbOffLow := n }) (if 64 ≤ i then rng 0 1 else rng 0 0),
      padF 2 0 16 (·.duty) (fun n c => { c with duty := n }),
      { padF 4 0 16 (·.phase) (fun n c => { c with phase := n }) with get := padPhase },
      padF 6 0 4 (·.spread) (fun n c => { c with spread := n }),
      padF 8 0 16 (·.rampUp) (fun n c => { c with rampUp := n }) (rng 0 2000),
      padF 10 0 16 (·.rampDown) (fun n c => { c with rampDown := n }) (rng 0 2000),
      roF 12 0 16 (·.now), roB 14 0 (·.clamped), roB 14 1 (fun p => decide (p.now ≠ p.cfg.duty))] }

/-- Base phase of a spread group (R173); its place in the record is the model's (log). -/
def spreadRec (g : Nat) : Rec :=
  { len := 2
    flds := [⟨0, 16, true, fun _ => true, fun s => tget ctr0 s.mot.bases g,
              fun n s => modMot (fun m => { m with bases := tput ctr0 g n m.bases, spreadDue := true }) s⟩] }

/-- One written field over settings. -/
def padWrite (c : PadCfg) (w : Nat × Nat) : PadCfg :=
  match w.1 with
  | 0 => { c with n := w.2 } | 8 => { c with mul := w.2 } | 9 => { c with commit := w.2 }
  | 10 => { c with hbOffLow := w.2 } | 16 => { c with duty := w.2 } | 32 => { c with phase := w.2 }
  | 48 => { c with spread := w.2 } | 64 => { c with rampUp := w.2 } | 80 => { c with rampDown := w.2 }
  | _ => c

/-- Code of the field at bit position `pos` of settings. -/
def padCode (c : PadCfg) (pos : Nat) : Nat :=
  match pos with
  | 0 => c.n | 8 => c.mul | 9 => c.commit | 10 => c.hbOffLow | 16 => c.duty | 32 => c.phase
  | 48 => c.spread | 64 => c.rampUp | 80 => c.rampDown
  | _ => 0

/-- Settings of a Paddle with every accepted SET merged in. -/
def padMerged (s : State) (i : Nat) : PadCfg :=
  s.cyc.staged.foldl (fun c x =>
    if x.cls = 0x12 ∧ x.req.inst = i then (match x.op with | .set _ ws => ws.foldl padWrite c | .act _ _ => c) else c)
    (padBase (padAt s i))

/-- The ripple counter's bound on the Paddle of its bridge (R181). -/
def rippleOk (c : PadCfg) (p : Nat) : Bool :=
  decide (c.duty = 0xFFFF) || decide (2 * padNum c p ≤ 125000 * padDen c)

/-- Checks of a Paddle SET (R163, R172, R173, R181). -/
def padCheck (s : State) (_p i _part : Nat) (ws : List (Nat × Nat)) : Status :=
  if 76 ≤ i then .ok else
  let c := ws.foldl padWrite (padMerged s i)
  let mates := (List.range 76).filter (fun j => decide (j ≠ i ∧ (padMerged s j).spread = c.spread))
  let br := bridgeOf s i
  let pairedB := match br with | some (b, false) => some (paired s b) | _ => none
  match pairedB with
  | some locked => if locked then .eState else .ok
  | none =>
    -- a SET of the duty alone to a duty without PWM is not checked (R163)
    let still := ws.all (fun w => decide (w.1 = 16)) && decide (c.duty = 0 ∨ c.duty = 0xFFFF)
    if !still && (periods s).any (fun p => !padFreqOk i c p) then .eRange
    else if (match br with | some (b, _) => (brAt s b).rippleEn && (periods s).any (fun p => !rippleOk c p) | none => false)
      then .eRange
    else if c.spread = 0 then .ok
    else if mates.any (fun j => decide ((padMerged s j).n ≠ c.n ∨ (padMerged s j).mul ≠ c.mul)) then .eRange
    else if 16 ≤ mates.length then .eBusy
    else .ok

/-- Class PADDLE (R172, R173). -/
def padClass : ClassSpec :=
  { code := 0x12
    ranges := [(0, 76), (0x101, 15)]
    record := fun i part => if part ≠ 0 then none else if i < 76 then some (padRec i) else some (spreadRec (i - 0x100))
    verbs := [1, 2, 4, 6]
    events := 1
    setAuth := fun s p i _ pos =>
      decide (p = 0) || (decide (i < 76 ∧ pos ≠ 48) && decide (ownerOf s (handleOf s 0x10 i) = p))
    setCheck := padCheck
    waiting := fun s i part pos => if part = 0 ∧ i < 76 then (padAt s i).pend.map (fun d => padCode d.cfg pos) else none
    setCyc := fun _ _ => true }

/-! ### Boundary work of the Paddles -/

/-- Towpath target of a channel (R227). -/
def padTarget (s : State) (i : Nat) : Nat := match bridgeOf s i with | some (b, _) => 0x60 + b | none => i

/-- A pending setting whose boundary has come, and which the Towpath does not hold (R169), takes effect and its requests are answered (R168). `c` is the
number of the cycle that begins. -/
def padCommit (c i : Nat) (s : State) : State :=
  match (padAt s i).pend with
  | none => s
  | some d =>
    if tpOutOf s (padTarget s i) ≠ .pound || s.cyc.staged.any (fun x => decide (x.cls = 0x12 ∧ x.req.inst = i)) ||
       !padFree (padAt s i).cfg d.cfg.commit c then s
    else
      let old := (padAt s i).cfg
      let new := if d.cfg.spread = 0 then d.cfg else { d.cfg with phase := old.phase }
      let s := modPad i (fun p => { p with cfg := new, pend := none }) s
      let s := if old.spread = 0 ∧ new.spread = 0 then s else modMot (fun m => { m with spreadDue := true }) s
      d.reqs.foldl (fun s r => answer 0x12 2 r .ok (some s.cyc.number) (part0 padClass i s) s) s

/-- Commits, then the phases of the groups that changed, each under its member's commit. -/
def padsCommit (c : Nat) (s : State) : State :=
  let s := respread ((List.range 76).foldl (fun s i => padCommit c i s) s)
  (List.range 76).foldl (fun s i => modPad i (fun p =>
    if p.cfg.spread ≠ 0 ∧ padFree p.cfg p.cfg.commit c = true then { p with phaseNow := p.phaseSet } else p) s) s

/-- Step of a ramp with time `tr` ms (R170): 0 makes the change in one step. -/
def rampSize (p tr : Nat) : Nat := if tr = 0 then 65535 else (65535 * p + tr * 1000000 - 1) / (tr * 1000000)

/-- `duty_now` one boundary on, towards `target`. -/
def rampTo (c : PadCfg) (p cyc now target : Nat) : Nat :=
  let slow := decide (c.mul = 1 ∧ c.commit = 1)
  let k := if slow then padN c else 1
  if slow && decide (cyc % padN c ≠ 0) then now
  else if now < target then min target (now + k * rampSize p c.rampUp)
  else max target (now - k * rampSize p c.rampDown)

/-- Duty of a channel for the cycle that begins: the governing one (R186, R227, R556), or the Paddle's with its ramps. -/
def dutyNext (s : State) (c i : Nat) : Nat :=
  let p := padAt s i
  match (govern s i).duty with
  | some d => d
  | none => rampTo p.cfg s.cyc.period c p.now (if (chanAt s i).rampOff then 0 else p.cfg.duty)

/-- A ramp step of a Paddle that drove its switch before this boundary and still does (R170, R171). -/
def padStep (c i : Nat) (s : State) : State :=
  if !padDrives s i then s else
  let s := modPad i (fun p => { p with now := dutyNext s c i }) s
  if (chanAt s i).rampOff && decide ((padAt s i).now = 0) then switchOff i .off s else s

/-- A channel that has charged hands over to its Paddle at the boundary (R105, R170, R171). -/
def padBegin (s : State) : State :=
  (List.range 76).foldl (fun s i =>
    if (chanAt s i).padDue then startPad i (modChan i (fun c => { c with padDue := false }) s) else s) s

/-- The Paddle at the end of a cycle of `len` ns that began in the state's settings: its output and the time since its last
edge (R166, R167). -/
def padEnd (s : State) (len i : Nat) : Bool × Option Nat :=
  if (chanAt s (padIdx s i)).padDue then (true, none)
  else if !padDrives s i then (false, none)
  else
    let es := padEdges s i len
    ((padAt s i).level != toggled es,
     match es.getLast? with
     | some e => some (len - e)
     | none => (padAt s i).since.map (· + len))

/-- Where each Paddle's output stands at the boundary that ends a cycle of `len` ns; `s0` is the state before it. -/
def padsLatch (s0 : State) (len : Nat) (s : State) : State :=
  (List.range 76).foldl (fun s i =>
    let e := padEnd s0 len i
    modPad i (fun p => { p with level := e.1, since := e.2 }) s) s

/-- R166 in the cycle that begins: the duty is corrected, or an edge is delayed. -/
def padShort (s : State) (i : Nat) : Bool :=
  let (p, _, _) := waveTime s
  decide ((waveOf s i).frac ≠ fracOf (govern s i).slow (padAt s i).now) || decide (padEdges s i p ≠ padAsked s i p)

/-- CLAMPED and PADDLE_CLAMP for one Paddle (R166). -/
def padMark (i : Nat) (s : State) : State :=
  let x := padDrives s i && padShort s i
  let was := (padAt s i).clamped
  let s := modPad i (fun p => { p with clamped := x }) s
  if x && !was then emit 0x1201 i s (value := (padAt s i).now) else s

/-- CLAMPED and the dead times in the cycle or step that begins; `s0` is the state before it (R166, R177). -/
def settleWaves (s0 s : State) : State :=
  let s := (List.range 76).foldl (fun s i => padMark i s) s
  (List.range' 64 12).foldl (fun s i => deadMark s0 i s) s

/-! ### Bridges: states (R175-R179, R187) -/

/-- The bridge is in its pinch reaction (R186). -/
def reversing (d : BrDyn) : Bool :=
  match d.seq with
  | .pinchBrake | .reversing | .revHold => true
  | _ => false

/-- Events of a bridge (R191): mean current as value, `pos` and `speed` as extension. -/
def bridgeEvt (code b : Nat) (cur : Int) (s : State) : State :=
  emit code b s (value := cur) (ext := [ofS 32 (brAt s b).pos, ofS 32 (brAt s b).speed])

/-- The terminals follow the drive in force at once, for channels that conduct, through dead time (R177, R184, R186); `s0`
is the state before the change. -/
def driveNow (s0 : State) (b : Nat) (s : State) : State :=
  if !paired s b then s else
  [((brAt s b).hbA, true), ((brAt s b).hbB, false)].foldl (fun s e =>
    deadMark s0 (64 + e.1) (modChan (64 + e.1) (fun c => if c.gate then { c with hb := terminalOf s b e.2 } else c) s)) s

/-- What the Towpath drove is not driven again until its value changes (R230). -/
def tpSpent (b : Nat) (s : State) : State :=
  match tpOutOf s (0x60 + b) with
  | .drive v _ => modTp (fun t => { t with bridgeOut := tput ctr0 b (v + 1) t.bridgeOut }) s
  | .hold => modTp (fun t => { t with bridgeOut := tput ctr0 b (tget ctr0 t.held (0x60 + b) + 1) t.bridgeOut }) s
  | .pound => s

/-- The stop of R184: BRAKE_LOW for `t_rev_brake`, then COAST; `drive` becomes COAST. -/
def bridgeStop (b : Nat) (s : State) : State :=
  driveNow s b (setDemands b (tpSpent b (modBr b (fun x => { x with drive := 0 })
    (modBrDyn b (fun d => { d with seq := .stallHold, hist := [] }) s))))

/-- The reaction of R186, step 1. -/
def pinch (b : Nat) (cur : Int) (s0 : State) : State :=
  let s := tpSpent b s0
  let s := modBr b (fun x => { x with pinched := true, drive := 3 - (brParAt s b).close }) s
  let s := modBrDyn b (fun d => { d with seq := .pinchBrake, hist := [], revFrom := (brAt s b).pos }) s
  detect 0x00D false (bridgeEvt 0x1301 b cur (driveNow s0 b (setDemands b s)))

/-- Pinch detection is armed (R185). -/
def armed (s : State) (b : Nat) : Bool :=
  let x := brAt s b
  let p := brParAt s b
  x.pinchEn && x.rippleEn && decide (effDrive s b = p.close) && x.posValid &&
    decide (p.pinchLo ≠ p.pinchHi ∧ p.pinchLo ≤ x.pos ∧ x.pos ≤ p.pinchHi) && !reversing (brDynAt s b)

/-- Direction of motion: the drive's, or the last one driven (R180, R182). -/
def motion (s : State) (b : Nat) : Int :=
  let d := effDrive s b
  if (if d = 1 ∨ d = 2 then d else (brDynAt s b).lastDir) = 2 then -1 else 1

/-- Sum of a list. -/
def sumN (l : List Nat) : Nat := l.foldl (· + ·) 0
def sumI (l : List Int) : Int := l.foldl (· + ·) 0

/-- The judgement of R185 at a ripple of interval `iv` with mean current `cur`, and the history it keeps. -/
def pinchJudge (b iv : Nat) (cur : Int) (s : State) : State :=
  if !armed s b then modBrDyn b (fun d => { d with hist := [] }) s else
  let h := (brDynAt s b).hist
  if h.length = 16 ∧
      (sumI (h.map (·.2)) + 16 * 250000 * ((brParAt s b).iPinch : Int) < 16 * cur ∨
       (brParAt s b).slow * sumN (h.map (·.1)) < 1600 * iv) then pinch b cur s
  else modBrDyn b (fun d => { d with hist := ((iv, cur) :: d.hist).take 16 }) s

/-- A reversal that has moved `rev_ripples` in the opening direction ends (R186, step 3). -/
def reversalMoved (b : Nat) (s : State) : State :=
  let d := brDynAt s b
  if d.seq = .reversing ∧ (brParAt s b).revRip ≤ (((brAt s b).pos - d.revFrom) * motion s b).toNat then
    driveNow s b (modBrDyn b (fun d => { d with seq := .revHold }) s)
  else s

/-- `pos` moves by one ripple. -/
def countRipple (b : Nat) (s : State) : State :=
  modBr b (fun x => { x with pos := toS 32 (ofS 32 (x.pos + motion s b)) }) s

/-! ### Class BRIDGE -/

/-- Bridge control record (R188). -/
def brRec (b : Nat) : Rec :=
  { len := 20
    flds := lift (fun s => brAt s b) (modBr b) [
        rwF 0 0 4 (·.hbA) (fun n x => { x with hbA := n }) (fun n => decide (n < 12 ∨ n = 15)),
        rwF 0 4 4 (·.hbB) (fun n x => { x with hbB := n }) (fun n => decide (n < 12 ∨ n = 15)),
        rwF 1 0 3 (·.drive) (fun n x => { x with drive := n }) (rng 0 4),
        rwF 1 3 2 (·.decay) (fun n x => { x with decay := n }) (rng 0 2),
        rwB 1 5 (·.rippleEn) (fun v x => { x with rippleEn := v }),
        rwB 1 6 (·.pinchEn) (fun v x => { x with pinchEn := v }),
        rwF 2 0 8 (·.dead) (fun n x => { x with dead := n }) (rng 5 100),
        rwF 3 0 8 (·.blank) (fun n x => { x with blank := n }) (rng 1 10),
        rwF 4 0 16 (·.iReg) (fun n x => { x with iReg := n }),
        rwF 6 0 16 (·.tRev) (fun n x => { x with tRev := n }) (rng 0 1000),
        roF 8 0 32 (fun x => ofS 32 x.pos), roF 12 0 32 (fun x => ofS 32 x.speed),
        roB 16 0 (·.posValid), roB 16 1 (·.stalled), roB 16 2 (·.pinched)] ++
      [liveF 16 3 1 (fun s => b2n (reversing (brDynAt s b)))] ++
      lift (fun s => brAt s b) (modBr b) [
        roB 16 4 (·.regAct), roB 16 5 (·.ripLost), roB 16 6 (·.posRest), roF 17 0 8 (·.inserted)] }

/-- Bridge parameter record (R189). -/
def brParRec (b : Nat) : Rec :=
  { len := 32
    flds := lift (fun s => brParAt s b) (modBrPar b) [
      rwF 0 0 16 (·.fMin) (fun n x => { x with fMin := n }) (rng 20 5000),
      rwF 2 0 16 (·.fMax) (fun n x => { x with fMax := n }) (rng 20 5000),
      rwF 4 0 8 (·.hyst) (fun n x => { x with hyst := n }) (rng 1 25),
      rwF 5 0 8 (·.gateLo) (fun n x => { x with gateLo := n }) (rng 30 90),
      rwF 6 0 8 (·.gateHi) (fun n x => { x with gateHi := n }) (rng 110 200),
      rwF 7 0 8 (·.close) (fun n x => { x with close := n }) (rng 1 2),
      rwF 8 0 32 (fun x => ofS 32 x.pinchLo) (fun n x => { x with pinchLo := toS 32 n }),
      rwF 12 0 32 (fun x => ofS 32 x.pinchHi) (fun n x => { x with pinchHi := toS 32 n }),
      rwF 16 0 16 (·.iPinch) (fun n x => { x with iPinch := n }) (rng 1 200),
      rwF 18 0 8 (·.slow) (fun n x => { x with slow := n }) (rng 110 250),
      rwF 19 0 8 (·.tPinch) (fun n x => { x with tPinch := n }) (rng 1 50),
      rwF 20 0 16 (·.revRip) (fun n x => { x with revRip := n }) (rng 1 65535),
      rwF 22 0 16 (·.stallSp) (fun n x => { x with stallSp := n }) (rng 1 5000),
      rwF 24 0 16 (·.tStall) (fun n x => { x with tStall := n }) (rng 10 500),
      rwF 26 0 16 (·.revDuty) (fun n x => { x with revDuty := n })] }

/-- Positions of the fields pound 0 alone sets: `hb_a`, `hb_b`, `ripple_en`, `pinch_en`, `dead_time`. -/
def brZero : List Nat := [0, 4, 13, 14, 16]

/-- Pairing that a SET asks for, in the order of R175. -/
def pairCheck (s : State) (b na nb : Nat) : Status :=
  let x := brAt s b
  if na = x.hbA ∧ nb = x.hbB then .ok
  else if na = 15 ∧ nb = 15 then (if x.drive ≠ 0 then .eState else .ok)
  else if na = nb ∨ na = 15 ∨ nb = 15 then .eRange
  else if (List.range 6).any (fun j => decide (j ≠ b ∧ ((brAt s j).hbA = na ∨ (brAt s j).hbA = nb ∨
      (brAt s j).hbB = na ∨ (brAt s j).hbB = nb))) then .eState
  else if ownerOf s (handleOf s 0x10 (64 + na)) ≠ ownerOf s (handleOf s 0x10 (64 + nb)) then .eShare
  else if paired s b && decide (x.drive ≠ 0) then .eState
  else .ok

/-- `i_reg` within 0.85 of both half-bridges' `I_LIM` (R179). -/
def iRegOk (s : State) (a b n : Nat) : Bool :=
  [a, b].all (fun h => decide (12 ≤ h ∨ n * 25000000 ≤ iLimUa s (64 + h) * 85))

/-- Records of class BRIDGE (R188, R189). -/
def bridgeRecord (i part : Nat) : Option Rec :=
  if part ≠ 0 then none else if i < 0x10 then some (brRec i) else some (brParRec (i - 0x10))

/-- Checks of a BRIDGE SET (R175, R179, R181, R187, R189), over the values in force with every accepted SET of the
cycle merged in. -/
def brCheck (s : State) (_p i _part : Nat) (ws : List (Nat × Nat)) : Status :=
  let sd := withStaged 0x13 bridgeRecord s
  if i < 0x10 then
    let x := brAt sd i
    let na := wouldBe ws 0 x.hbA
    let nb := wouldBe ws 4 x.hbB
    if !iRegOk s na nb (wouldBe ws 32 x.iReg) then .eRange
    else if na < 12 ∧ wouldBe ws 13 (b2n x.rippleEn) = 1 ∧
        (periods s).any (fun p => !rippleOk (padMerged s (64 + na)) p) = true then .eRange
    else if pairCheck s i na nb = .eRange then .eRange
    else if ws.any (fun w => decide (w.1 = 8)) && reversing (brDynAt s i) then .eState
    else pairCheck s i na nb
  else
    let p := brParAt sd (i - 0x10)
    if wouldBe ws 16 p.fMax ≤ wouldBe ws 0 p.fMin then .eRange else .ok

/-- At the effective boundary both channels must be in OFF (R175). -/
def brBound (s : State) (i _part : Nat) (ws : List (Nat × Nat)) : Status :=
  if 0x10 ≤ i then .ok else
  let x := brAt s i
  let na := wouldBe ws 0 x.hbA
  let nb := wouldBe ws 4 x.hbB
  if na = x.hbA ∧ nb = x.hbB then .ok
  else if [x.hbA, x.hbB, na, nb].any (fun h => decide (h < 12 ∧ (chanAt s (64 + h)).state ≠ .off)) then .eState
  else pairCheck s i na nb

/-- What a SET of the control record brings (R175, R190): `drive` sets both demands, also of half-bridges that are paired
while it stands; a new `drive` ends a brake. A drive staged before a pinch is discarded. -/
def brAfter (s0 : State) (i _part : Nat) (ws : List (Nat × Nat)) (s : State) : State :=
  if 0x10 ≤ i then s
  else
    let drv := ws.any (fun w => decide (w.1 = 8))
    if drv && reversing (brDynAt s0 i) then setDemands i (modBr i (fun x => { x with drive := (brAt s0 i).drive }) s)
    else
      let s := if drv then modBrDyn i (fun d => { d with seq := .none }) s else s
      if drv || ws.any (fun w => decide (w.1 = 0 ∨ w.1 = 4)) then setDemands i s else s

/-- Class BRIDGE (R188, R189, R439). -/
def brClass : ClassSpec :=
  { code := 0x13
    ranges := [(0, 6), (0x10, 6)]
    record := bridgeRecord
    verbs := [1, 2, 3, 4, 5, 6]
    events := 4
    setAuth := fun s p i _ pos =>
      decide (p = 0) || (decide (i < 0x10 ∧ ¬ pos ∈ brZero) && decide (ownerOf s (handleOf s 0x13 i) = p))
    setCheck := brCheck
    bound := brBound
    after := brAfter
    setCyc := fun _ _ => true
    acts := [
      { code := 1, cyc := false, insts := fun i => decide (i < 6), argOk := fun n => decide (n = 4)
        auth := fun s p i _ => ownerOr0 s p (handleOf s 0x13 i), check := fun _ _ _ _ => .ok
        run := fun _ i a => modBr i (fun x => { x with pos := toS 32 (leAt a 0 4), posValid := true }) },
      { code := 2, cyc := false, insts := fun i => decide (i < 6), argOk := fun n => decide (n = 1)
        auth := fun s p i _ => ownerOr0 s p (handleOf s 0x13 i), check := fun _ _ _ _ => .ok
        run := fun _ i a => modBr i (fun x =>
          let m := leAt a 0 1
          { x with stalled := x.stalled && !bitOf 1 m, pinched := x.pinched && !bitOf 2 m
                   ripLost := x.ripLost && !bitOf 5 m, posRest := x.posRest && !bitOf 6 m }) }] }

/-! ### Boundary work of the bridges -/

/-- Drive in force apart from a brake between directions (R178). -/
def driveAsked (s : State) (b : Nat) : Nat :=
  match (brDynAt s b).seq with
  | .dirBrake _ | .dirReady _ => effDrive (modBrDyn b (fun d => { d with seq := .none }) s) b
  | _ => effDrive s b

/-- A change of drive between FORWARD and REVERSE, whoever governs, begins with its brake; one whose brake has ended starts;
any other change of drive ends the brake (R178, R190). -/
def bridgeTurn (b : Nat) (s : State) : State :=
  let d := brDynAt s b
  let new := driveAsked s b
  let seq := match d.seq with
    | .none => if decide (d.was ≠ new) && hbSwaps d.was new && decide ((brAt s b).tRev ≠ 0) then BrSeq.dirBrake new else .none
    | .dirBrake n => if new = n then .dirBrake n
        else if hbSwaps n new && decide ((brAt s b).tRev ≠ 0) then .dirBrake new else .none
    | .dirReady n => if new ≠ n ∧ hbSwaps n new = true ∧ (brAt s b).tRev ≠ 0 then .dirBrake new else .none
    | q => q
  modBrDyn b (fun d => { d with seq := seq, was := new }) s

/-- A period of the Paddle that times bridge `b` starts at the boundary that begins cycle `c`: regulation's off-phase ends
there, its minimum kept (R179). -/
def chopBoundary (c b : Nat) (s : State) : State :=
  let k := (waveCfg s (64 + (brAt s b).hbA)).1
  let s := modBr b (fun x => { x with regAct := false }) s
  if k.mul = 0 ∨ c % padN k = 0 then
    modBrDyn b (fun d => { d with chopEnd := min d.chopEnd (max s.tide.counter d.chopMin) }) s
  else s

/-- A bridge at a boundary or step (R178, R182): the turn of its direction, and counting that resumes with the drive. -/
def bridgeBoundary (b : Nat) (s : State) : State :=
  let s := bridgeTurn b s
  let e := effDrive s b
  if e = 1 ∨ e = 2 then
    modBrDyn b (fun d => if d.counting then { d with lastDir := e }
      else { d with lastDir := e, counting := true, accepted := 0, ivals := [] }) s
  else s

/-- Positions at a start (R183). -/
def startPositions (s : State) : State :=
  (List.range 6).foldl (fun s b =>
    match newestCopy s with
    | some c =>
      let e := elemOr (0, false) c.pos b
      modBr b (fun x => { x with pos := if c.sleep then e.1 else x.pos, posValid := c.sleep && e.2
                                 posRest := x.posRest || (c.sleep && e.2), speed := 0 }) s
    | none => modBr b (fun x => { x with posValid := false }) s) s

/-! ### Meanings -/

/-- PADDLE_SET (R168, R172, R173). -/
def execPaddleSet (r : Req) (s : State) : Out := .next (cmdSet padClass r s)
/-- BRIDGE_SET (R175, R188, R189). -/
def execBridgeSet (r : Req) (s : State) : Out := .next (cmdSet brClass r s)
/-- BRIDGE_SET_POS (R183). -/
def execBridgeSetPos (r : Req) (s : State) : Out := .next (cmdAct brClass 1 r s)
/-- BRIDGE_CLEAR (R189). -/
def execBridgeClear (r : Req) (s : State) : Out := .next (cmdAct brClass 2 r s)

/-- REVERSAL_BRAKE_END (R178): the new direction starts at the next boundary. -/
def execReversalBrakeEnd (b : Nat) (s : State) : Out :=
  guardUnit (decide (b < 6))
    (modBrDyn b (fun d => { d with seq := match d.seq with | .dirBrake n => .dirReady n | q => q }) s)

/-- Time from the present instant to the next period start of Paddle `j`, ns (R162, R179). -/
def toPeriod (s : State) (j : Nat) : Nat :=
  let (p, c, t) := waveTime s
  let k := (waveCfg s j).1
  if k.mul = 0 then (p - t * padN k % p + padN k - 1) / padN k else padN k * p - (c % padN k * p + t) % (padN k * p)

/-- The present on-phase of bridge `b` has lasted `blank` (R179). -/
def blanked (s : State) (b : Nat) : Bool :=
  let j := 64 + (brAt s b).hbA
  padOut s j && !chopped s b && decide ((brDynAt s b).chopEnd + (brAt s b).blank * 1000 ≤ s.tide.counter) &&
  (match padAge s j with | some k => decide ((brAt s b).blank * 1000 ≤ k) | none => true)

/-- REGULATION_CHOP (R179): the bridge current exceeds `i_reg` in an on-phase past its blanking. The on-phase ends; the
off-phase runs to the next period start, for no less than the minimum off-time. -/
def execRegulationChop (b : Nat) (s : State) : Out :=
  guardUnit (decide (b < 6))
    (let e := effDrive s b
     let j := 64 + (brAt s b).hbA
     if (brAt s b).iReg ≠ 0 ∧ paired s b = true ∧ (e = 1 ∨ e = 2) ∧ blanked s b = true then
       let low := s.tide.counter + padMin s j
       modBrDyn b (fun d => { d with chopMin := low, chopEnd := max low (s.tide.counter + toPeriod s j) })
         (modBr b (fun x => { x with regAct := true }) s)
     else s)

/-- The predicted interval's sum over the intervals kept, and their number. -/
def gateOk (p : BrPar) (d : BrDyn) (iv : Nat) : Bool :=
  if d.accepted < 4 then decide (10 ^ 9 ≤ iv * p.fMax ∧ iv * p.fMin ≤ 10 ^ 9)
  else decide (p.gateLo * sumN d.ivals ≤ 100 * d.ivals.length * iv ∧
               100 * d.ivals.length * iv ≤ p.gateHi * sumN d.ivals)

/-- The counter works on the back-EMF (R182): in COAST and in FAST off-phases. -/
def onBackEmf (s : State) (b : Nat) : Bool :=
  let e := effDrive s b
  decide (e = 0) || (decide (e = 1 ∨ e = 2) && decide (decayOf s b = 2) && !hbOnPhase s (64 + (brAt s b).hbA))

/-- A falling excursion that lets the next rising crossing count (R180 step 2, R182): larger than `rip_hyst` of the mean,
and on the back-EMF larger than 20 mV as well. -/
def excursionOk (s : State) (b exc mean : Nat) : Bool :=
  decide ((brParAt s b).hyst * mean < 100 * exc) && (!onBackEmf s b || decide (20000 < exc))

/-- RIPPLE_CROSSING (R180, R182): the mean-free signal behind the 8 kHz low-pass rises through zero, `iv` ns after the last
accepted ripple, with the mean current `cur` over that interval, after a falling excursion of `exc` from a mean of magnitude
`mean`: in µA on the current, in µV on the terminal voltage difference. The order of the low-pass is not the spec's, so the
command brings what stands behind it. -/
def execRippleCrossing (b iv : Nat) (cur : Int) (exc mean : Nat) (s : State) : Out :=
  guardUnit (decide (b < 6))
    (if !((brAt s b).rippleEn && paired s b && (brDynAt s b).counting) || !excursionOk s b exc mean ||
        !gateOk (brParAt s b) (brDynAt s b) iv then s else
     let s := modBrDyn b (fun d => { d with ivals := (iv :: d.ivals).take 4, accepted := min 4 (d.accepted + 1) }) s
     let l := (brDynAt s b).ivals
     let sp : Int := ((16000000000 * l.length / sumN l : Nat) : Int) * motion s b
     let s := modBr b (fun x => { x with inserted := 0, speed := toS 32 (ofS 32 sp) }) s
     reversalMoved b (pinchJudge b iv cur (countRipple b s)))

/-- RIPPLE_INSERTION (R180): no ripple by `gate_hi` of the predicted interval. The fourth in a row loses the
position; while pinch detection is armed the bridge stops (R185). -/
def execRippleInsertion (b : Nat) (cur : Int) (s : State) : Out :=
  guardUnit (decide (b < 6))
    (let d := brDynAt s b
     if !((brAt s b).rippleEn && paired s b && d.counting) || decide (d.accepted < 4) then s else
     let iv := (brParAt s b).gateHi * sumN d.ivals / (100 * d.ivals.length)
     let s := modBr b (fun x => { x with inserted := sat 8 (x.inserted + 1) }) (countRipple b s)
     if (brAt s b).inserted = 4 then
       let stop := armed s b
       let s := modBr b (fun x => { x with ripLost := true, posValid := false }) s
       let s := detect 0x00E false (bridgeEvt 0x1304 b cur s)
       if stop then bridgeStop b s else reversalMoved b s
     else reversalMoved b (pinchJudge b iv cur s))

/-- BACK_EMF_STOP (R182): the terminal voltage difference on which the counter works has stayed below 0.3 V for 20 ms;
counting stops until the drive resumes. -/
def execBackEmfStop (b : Nat) (s : State) : Out :=
  guardUnit (decide (b < 6))
    (let e := effDrive s b
     if !((brAt s b).rippleEn && paired s b) || !(decide (e = 0) || (decide (e = 1 ∨ e = 2) && decide (decayOf s b = 2))) then s else
     modBrDyn b (fun d => { d with counting := false, accepted := 0, ivals := [] })
      (modBr b (fun x => { x with speed := 0 }) s))

/-- STALL (R184): low speed under the mean current `cur` for `t_stall`. During a reversal it ends that
(R186, R190). -/
def execStall (b : Nat) (cur : Int) (s : State) : Out :=
  guardUnit (decide (b < 6))
    (let e := effDrive s b
     let x := brAt s b
     let load : Int := if x.iReg = 0 then 2000000 else (x.iReg : Int) * 125000
     if (e = 1 ∨ e = 2) ∧ x.rippleEn = true ∧ x.speed.natAbs < 16 * (brParAt s b).stallSp ∧ load < cur then
       let s := modBr b (fun x => { x with stalled := true }) s
       let s := if (brDynAt s b).seq = .reversing then
           driveNow s b (modBrDyn b (fun d => { d with seq := .revHold }) s)
         else bridgeStop b s
       detect 0x00F false (bridgeEvt 0x1303 b cur s)
     else s)

/-- PINCH_BRAKE_END (R186, step 2): the bridge drives the opening direction, where nothing above holds the
switch off (R187). -/
def execPinchBrakeEnd (b : Nat) (s : State) : Out :=
  guardUnit (decide (b < 6))
    (if (brDynAt s b).seq = .pinchBrake then
      let s := driveNow s b (modBrDyn b (fun d => { d with seq := .reversing }) s)
      if paired s b then modPad (64 + (brAt s b).hbA) (fun p => { p with now := (brParAt s b).revDuty }) s else s
     else s)

/-- BRAKE_HOLD_END (R184, R186): the hold after a stall or a reversal ends in COAST. -/
def execBrakeHoldEnd (b : Nat) (cur : Int) (s : State) : Out :=
  guardUnit (decide (b < 6))
    (match (brDynAt s b).seq with
     | .stallHold => driveNow s b (modBrDyn b (fun d => { d with seq := .none }) s)
     | .revHold =>
       let t := setDemands b (modBr b (fun x => { x with drive := 0 }) (modBrDyn b (fun d => { d with seq := .none }) s))
       bridgeEvt 0x1302 b cur (driveNow s b t)
     | _ => s)

end Sys2Proof.Machine
end

