-- ==== Sys2Proof/Machine/FieldIo.lean ====
section
/-! DEFINITION. Field inputs and outputs: binary inputs and classification (R194-R200), field outputs with
their bank bits, location runs and silence timers (R203-R212), analogue inputs and sensor supplies
(R213-R217), classes DIN, FOUT and AIN. -/
namespace Sys2Proof.Machine

/-! ### Digital inputs -/

/-- Comparator of R194 with its hysteresis, on a voltage in µV. -/
def diCompare (d : Di) (v : Nat) : Bool :=
  if 1000000 + 250000 * d.thr ≤ v then true
  else if v < 1000000 + 250000 * (d.thr - d.hyst) then false
  else d.level

/-- Working time of sample `k` of the sampled cycle, as seconds and ns (R192). -/
def sampleTime (s : State) (k : Nat) : List Nat :=
  let t := s.fio.startWas + k * s.fio.pWas / 8
  [t / nsPerSec % 2 ^ 48, t % nsPerSec]

/-- Number of the cycle the samples belong to (R192). -/
def sampledCycle (s : State) : Nat := (s.cyc.number + 2 ^ 48 - 1) % 2 ^ 48

/-- A change away from the reference between arming and SLEEP is latched by the armed detector (R202); it wakes the
device once SLEEP takes effect (R286, R582). -/
def latchDi (i : Nat) (s : State) : State :=
  if s.pwr.armed && !s.pwr.slept && bitOf 3 s.pwr.wakeMask && (diAt s i).wakeEn &&
      decide ((diAt s i).q ≠ (diAt s i).wakeRef) && s.pwr.latched.isNone
  then modPwr (fun p => { p with latched := some (6, i) }) s else s

/-- q takes a value; DIN_CHANGE at each change (R196). -/
def setQ (i k : Nat) (v : Bool) (s : State) : State :=
  if (diAt s i).q = v then s
  else emit 0x1401 i (latchDi i (modDi i (fun d => { d with q := v, changed := sampledCycle s }) s)) (flags := b2n v)
    (ext := sampleTime s k)

/-- One sample through the integrating counter (R196). -/
def diBinary (i k v : Nat) (s : State) : State :=
  let d := diAt s i
  let lv := diCompare d v
  let c := if lv != d.invert then min (d.count + 1) d.limit else d.count - 1
  let s := modDi i (fun d => { d with level := lv, count := c }) s
  if c = d.limit then setQ i k true s else if c = 0 then setQ i k false s else s

/-- Candidate class of a voltage in mV (R198). -/
def diClass (d : Di) (v : Nat) : Nat :=
  if v < d.t1 then 0 else if v < d.t2 then 1 else if v < d.t3 then 2 else if v < d.t4 then 3 else 4

/-- SHORT_GND, BROKEN and SHORT_BAT. -/
def faultClass (c : Nat) : Bool := decide (c = 0 ∨ c = 3 ∨ c = 4)

/-- Logical value of a class, or none for a hold (R198, R199). -/
def classValue (d : Di) (c : Nat) : Option Bool :=
  if c = 1 then some (!d.invert) else if c = 2 then some d.invert
  else if d.faultVal = 0 then some false else if d.faultVal = 1 then some true else none

/-- A class that has been assigned on `limit` consecutive samples is taken (R199). -/
def takeClass (i k c : Nat) (s : State) : State :=
  let old := (diAt s i).cls
  let s := modDi i (fun d => { d with cls := c, cand := 7, candN := 0, changed := sampledCycle s }) s
  let uv : Int := ((diAt s i).vLast * 1000 : Nat)
  let s := if faultClass old then emit 0x1402 i s (cause := old) (value := uv) else s
  let s := if faultClass c then detect 0x042 true (emit 0x1402 i s (cause := c) (flags := 1) (value := uv)) else s
  let s := if faultClass old && !faultClass c && !((List.range 32).any (fun j => (diAt s j).clsEn && faultClass (diAt s j).cls))
    then detectEnd 0x042 s else s
  match classValue (diAt s i) c with
  | some v => setQ i k v s
  | none => s

/-- Counter at the instant of sample `k` of the sampled cycle (R192). -/
def sampleAt (s : State) (k : Nat) : Nat := s.fio.at0Was + k * s.fio.pWas / 8

/-- The classification measurement of R193 in mV: LSB 10 mV, 0-40.95 V. The spec names no rounding: DESIGN CHOICE,
to nearest, and a voltage beyond the range measures 40.95 V. -/
def diMeasure (v : Nat) : Nat := min ((v + 5000) / 10000 * 10) 40950

/-- One sample through the classification (R198-R200). A sample taken before the end of a hold does not count. -/
def diClassify (i k v : Nat) (s : State) : State :=
  let mv := diMeasure v
  let s := modDi i (fun d => { d with vLast := mv }) s
  if s.fio.clsHold || decide (sampleAt s k < s.fio.clsFrom) then s else
  let d := diAt s i
  let c := diClass d mv
  if c = d.cls then modDi i (fun d => { d with cand := 7, candN := 0 }) s
  else
    let n := if c = d.cand then d.candN + 1 else 1
    let s := modDi i (fun d => { d with cand := c, candN := n }) s
    if d.limit ≤ n then takeClass i k c s else s

/-- The samples of one input, in order. -/
def diSamples (i : Nat) : Nat → List Nat → State → State
  | _, [], s => s
  | k, v :: r, s =>
    diSamples i (k + 1) r (if (diAt s i).clsEn then diClassify i k v s else diBinary i k v s)

/-- Wetting current sum at period `p` (R195), µA times the period in ns. -/
def wetLoad (s : State) : Nat :=
  (List.range 32).foldl (fun n i =>
    n + (elemOr 0 [0, 1, 2, 5, 10, 20] (diAt s i).wet) * (diAt s i).pulse * 8000) 0

/-- Wetting currents within 200 mA (R195). -/
def wetOk (s : State) (p : Nat) : Bool := decide (wetLoad s ≤ 200 * p)

/-- Digital input record (R197). -/
def diRec (i : Nat) : Rec :=
  { len := 24
    flds := lift (fun s => diAt s i) (modDi i) [
        rwF 0 0 8 (·.thr) (fun n d => { d with thr := n }) (rng 0 156),
        rwF 1 0 4 (·.hyst) (fun n d => { d with hyst := n }) (rng 0 8),
        rwF 2 0 3 (·.wet) (fun n d => { d with wet := n }) (rng 0 5),
        rwB 2 3 (·.wetDown) (fun v d => { d with wetDown := v }), rwB 2 4 (·.clsEn) (fun v d => { d with clsEn := v }),
        rwB 2 5 (·.invert) (fun v d => { d with invert := v }), rwB 2 6 (·.wakeEn) (fun v d => { d with wakeEn := v }),
        rwF 3 0 8 (·.limit) (fun n d => { d with limit := n }) (rng 1 255),
        rwF 4 0 4 (·.pulse) (fun n d => { d with pulse := n }) (rng 2 14),
        rwF 4 4 2 (·.faultVal) (fun n d => { d with faultVal := n }) (rng 0 2),
        rwF 6 0 16 (·.t1) (fun n d => { d with t1 := n }), rwF 8 0 16 (·.t2) (fun n d => { d with t2 := n }),
        rwF 10 0 16 (·.t3) (fun n d => { d with t3 := n }), rwF 12 0 16 (·.t4) (fun n d => { d with t4 := n }),
        roB 14 0 (·.q), roF 14 1 3 (·.cls)] ++
      [liveF 14 4 1 (fun s => b2n (s.fio.clsHold && (diAt s i).clsEn))] ++
      lift (fun s => diAt s i) (modDi i) [roF 15 0 8 (·.count), roF 16 0 48 (·.changed), roF 22 0 16 (·.vLast)] }

/-- DI wake settings (R202). -/
def diWakeRec : Rec :=
  { len := 4
    flds := [⟨0, 16, true, rng 10 1000, fun s => s.fio.wakePoll, fun n => modFio (fun f => { f with wakePoll := n })⟩,
             ⟨16, 4, true, rng 1 8, fun s => s.fio.wakeConf, fun n => modFio (fun f => { f with wakeConf := n })⟩] }

def dinRecord (i part : Nat) : Option Rec :=
  if part ≠ 0 then none else if i < 32 then some (diRec i) else some diWakeRec

/-- Checks of a DIN SET (R194, R195, R198). -/
def dinCheck (s : State) (_p i part : Nat) (ws : List (Nat × Nat)) : Status :=
  if 32 ≤ i then .ok else
  let t := asSet 0x14 dinRecord i part ws s
  let d := diAt t i
  if d.thr < d.hyst then .eRange
  else if d.clsEn && decide (d.wetDown = true ∨ d.wet = 0 ∨ d.t2 ≤ d.t1 ∨ d.t3 ≤ d.t2 ∨ d.t4 ≤ d.t3 ∨
      6600 ≤ d.t3 ∨ d.t4 ≤ 7400) then .eRange
  else if (periods s).any (fun p => !wetOk t p) then .eBusy
  else .ok

/-- Settings whose change presets the counter (R197). -/
def presetKey (d : Di) : List Nat := [d.thr, d.hyst, d.wet, b2n d.wetDown, b2n d.invert, b2n d.clsEn, d.limit]

/-- The counter is preset from q when a setting changes (R197); an input whose classification is switched off has no
class. -/
def dinAfter (s0 : State) (i _part : Nat) (_ws : List (Nat × Nat)) (s : State) : State :=
  if 32 ≤ i ∨ presetKey (diAt s0 i) = presetKey (diAt s i) then s
  else
    let s := modDi i (fun d => { d with count := if d.q then d.limit else 0, cand := 7, candN := 0
                                        cls := if d.clsEn then d.cls else 7 }) s
    if (diAt s0 i).clsEn && faultClass (diAt s0 i).cls && !((List.range 32).any (fun j => faultClass (diAt s j).cls))
    then detectEnd 0x042 s else s

/-- Class DIN (R219). -/
def dinClass : ClassSpec :=
  { code := 0x14
    ranges := [(0, 32), (0x100, 1)]
    record := dinRecord
    verbs := [1, 2, 4, 6]
    events := 2
    setCheck := dinCheck
    after := dinAfter
    setCyc := fun _ _ => true }

/-! ### Field outputs -/

/-- Outputs of a bank. -/
def bankOuts (b : Nat) : List Nat := List.range' (8 * b) 8

/-- Outputs of a bank with a property, as a mask. -/
def foMask (s : State) (b : Nat) (p : Fo → Bool) : Nat :=
  (List.range 8).foldl (fun n j => if p (foAt s (8 * b + j)) then n ||| 2 ^ j else n) 0

/-- Outputs excluded from the bank bit: located ones, and during a run every one not under test (R207). -/
def bankMasked (s : State) (b : Nat) : Nat :=
  foMask s b (·.located) ||| (match (bankAt s b).run with
    | some r => (255 - r.cur % 256) ||| r.found
    | none => 0)

/-- The bank bit (R206). -/
def bankBit (s : State) (b : Nat) : Bool :=
  (List.range 8).any (fun j => (foAt s (8 * b + j)).cond && !bitOf j (bankMasked s b))

/-- The demand that governs an output below its own protections (R28, R211). -/
def foGov (s : State) (k : Nat) : Bool :=
  let f := foAt s k
  if s.saf.inForce then
    match (tget safeEntry0 s.saf.entries (0x50 + k)).action with
    | 1 => true
    | 2 => decide (tget ctr0 s.saf.hold (0x50 + k) ≠ 0)
    | _ => false
  else match tpOutOf s (0x50 + k) with
    | .drive v _ => decide (v ≠ 0)
    | .hold => decide (tget ctr0 s.tp.held (0x50 + k) ≠ 0)
    | .pound => decide (f.demand = 1)

/-- State of an output by R211 and the VBAT_B bands (R205). -/
def foWant (s : State) (k : Nat) : Bool :=
  let f := foAt s k
  let want := if f.silent then (if f.safe = 0 then false else if f.safe = 1 then true else f.held)
    else if f.faultOff then false else f.armed && foGov s k
  want && !f.thermal && (match (grpAt s 1).band with
    | .belowOff => false
    | .full => true
    | _ => f.out)

/-- A refresh (R210). -/
def foRefresh (k : Nat) (s : State) : State :=
  modFo k (fun f => { f with armed := true, fresh := true, last := s.cyc.number }) s

/-- Every output at a boundary that is not overrun (R210, R211). -/
def fosBoundary (s : State) : State :=
  (List.range 16).foldl (fun s k =>
    let f := foAt s k
    let s := if f.silent && f.fresh then
        emit 0x1502 k (modFo k (fun f => { f with silent := false }) s) (value := f.expiry) else s
    foSet k (foWant s k) s) s

/-- Mean current of the field outputs, µA (R205). -/
def foCurrent (s : State) : Int := ((List.range 16).foldl (fun n k => n + (foAt s k).current) 0 : Nat)

/-- Elements of a mask of eight. -/
def elems (m : Nat) : List Nat := (List.range 8).filter (fun j => bitOf j m)
/-- Mask of elements. -/
def maskOf (l : List Nat) : Nat := l.foldl (fun n j => n ||| 2 ^ j) 0

/-- The halves a positive test goes on with (R207). -/
def halves (m : Nat) : List Nat :=
  let l := elems m
  [maskOf (l.take ((l.length + 1) / 2)), maskOf (l.drop ((l.length + 1) / 2))]

/-- The end of a location run (R208). -/
def runEnd (b found : Nat) (s : State) : State :=
  let s := modBank b (fun x => { x with run := none }) s
  let s := (elems found).foldl (fun s j => modFo (8 * b + j) (fun f => { f with
    located := true, faultOff := f.faultOff || !f.keep }) s) s
  detect 0x041 false (emit 0x1501 (0x100 + b) s (cause := found) (flags := b2n (decide (found = 0))))

/-- One test read in the fill phase (R207): `bit` is the bank bit under the test's mask. -/
def runRead (b : Nat) (bit : Bool) (s : State) : State :=
  match (bankAt s b).run with
  | none => s
  | some r =>
    let single := decide ((elems r.cur).length = 1)
    let found := if bit && single then r.found ||| r.cur else r.found
    let todo := if bit && !single then halves r.cur ++ r.todo else r.todo
    match todo with
    | [] => runEnd b found s
    | m :: rest => modBank b (fun x => { x with run := some { cur := m, todo := rest, found := found } }) s

/-- Off-state open load (R206): `off_diag` set, off for at least 1 ms, V_OUT above 2.0 V. -/
def foOpen (s : State) (f : Fo) (v : Nat) : Bool :=
  f.offDiag && !f.out && decide (f.offAt + 1000000 ≤ s.tide.counter) && decide (2000000 < v)

/-- One field output as the fill phase finds it (R205, R206, R212): readback, current, the conditions of R206. -/
def foSeen (x : Samples) (s : State) (k : Nat) (f : Fo) : Fo :=
  let vb := elemOr (grpAt s 1).v x.group 1
  { f with
    readback := match x.foV[k]? with | some v => decide (vb < 2 * v) | none => f.readback
    current := elemOr f.current x.foI k
    cond := elemOr f.cond x.foLim k || f.thermal || (match x.foV[k]? with | some v => foOpen s f v | none => false) }

/-- The bank's bit is read in the fill phase (R206, R207): a running test takes it under its own mask, otherwise it is
the bank's; the cycle in which it last set is kept. The Lockkeeper reads a test. -/
def fillBank (b : Nat) (s : State) : State :=
  let bit := bankBit s b
  if (bankAt s b).run.isSome then (if s.fv.fw then runRead b bit s else s)
  else modBank b (fun y => { y with fault := bit, cycle := if bit && !y.fault then s.cyc.number else y.cycle }) s

/-- Fill phase of the field outputs: readback, currents, conditions, bank bits, running tests. -/
def fillFo (x : Samples) (s : State) : State :=
  let s := (List.range 16).foldl (fun s k => modFo k (foSeen x s k) s) s
  fillBank 1 (fillBank 0 s)

/-- Apply phase: the Lockkeeper starts a run on a bank whose bit is set (R207). -/
def autoLocate (s : State) : State :=
  if !s.fv.fw then s else
  (List.range 2).foldl (fun s b =>
    if (bankAt s b).auto && bankBit s b && (bankAt s b).run.isNone then
      modBank b (fun x => { x with run := some { cur := 255 } }) s else s) s

/-- Field output record (R212). -/
def foRec (k : Nat) : Rec :=
  { len := 16
    flds := lift (fun s => foAt s k) (modFo k) [
      rwF 0 0 2 (·.demand) (fun n f => { f with demand := n }) (rng 0 1),
      rwF 0 2 2 (·.safe) (fun n f => { f with safe := n }) (rng 0 2),
      rwB 0 4 (·.keep) (fun v f => { f with keep := v }), rwB 0 5 (·.offDiag) (fun v f => { f with offDiag := v }),
      rwF 1 0 8 (·.silence) (fun n f => { f with silence := n }) (rng 1 255),
      roB 2 0 (·.out), roB 2 1 (·.readback), roB 2 2 (·.silent), roB 2 3 (·.located), roB 2 4 (·.faultOff),
      roF 4 0 48 (·.current), roF 10 0 48 (·.changed)] }

/-- Bank record (R212). -/
def bankRec (b : Nat) : Rec :=
  { len := 10
    flds := lift (fun s => bankAt s b) (modBank b) [
        roB 0 1 (fun x => x.run.isSome), rwB 0 2 (·.auto) (fun v x => { x with auto := v })] ++
      [liveF 0 0 1 (fun s => b2n (bankBit s b)), liveF 1 0 8 (fun s => foMask s b (·.located)), liveF 2 0 8 (fun s => bankMasked s b)] ++
      lift (fun s => bankAt s b) (modBank b) [roF 4 0 48 (·.cycle)] }

/-- The pound owns some output of the bank. -/
def ownsInBank (s : State) (p b : Nat) : Bool :=
  decide (p = 0) || (bankOuts b).any (fun k => decide (ownerOf s (handleOf s 0x15 k) = p))

/-- Class FOUT (R212, R219, R439). -/
def foutClass : ClassSpec :=
  { code := 0x15
    ranges := [(0, 16), (0x100, 2)]
    record := fun i part => if part ≠ 0 then none else if i < 16 then some (foRec i) else some (bankRec (i - 0x100))
    verbs := [1, 2, 3, 4, 5, 6]
    events := 2
    setAuth := fun s p i _ pos => decide (p = 0) ||
      (decide (i < 16 ∧ pos = 0) && decide (ownerOf s (handleOf s 0x15 i) = p))
    setCyc := fun _ _ => true
    open0 := fun s p verb i => decide (verb = 3 ∧ 0x100 ≤ i) && ownsInBank s p (i - 0x100)
    acts := [
      { code := 1, cyc := false, insts := fun i => decide (0x100 ≤ i), argOk := fun n => decide (n = 1)
        auth := fun s p i _ => ownsInBank s p (i - 0x100)
        check := fun s _ i _ => if (bankAt s (i - 0x100)).run.isSome then .eBusy else .ok
        run := fun _ i a => modBank (i - 0x100) (fun x => { x with run := some { cur := leAt a 0 1 } }) },
      { code := 2, cyc := false, insts := fun i => decide (0x100 ≤ i), argOk := fun n => decide (n = 1)
        auth := fun s p i a => (elems (leAt a 0 1)).all (fun j => ownerOr0 s p (handleOf s 0x15 (8 * (i - 0x100) + j)))
        check := fun _ _ _ _ => .ok
        run := fun _ i a s => (elems (leAt a 0 1)).foldl (fun s j =>
          modFo (8 * (i - 0x100) + j) (fun f => { f with located := false, faultOff := false }) s) s }] }

/-! ### Analogue inputs and sensor supplies -/

/-- Points of a table ascend strictly (R215). -/
def ascending : List (Nat × Int) → Bool
  | [] => true
  | [_] => true
  | a :: b :: r => decide (a.1 < b.1) && ascending (b :: r)

/-- Linear interpolation, rounded towards zero to whole m°C; none outside the points (R214, R215). -/
def interpolate : List (Nat × Int) → Nat → Option Int
  | [], _ => none
  | [a], c => if c = a.1 then some a.2 else none
  | a :: b :: r, c =>
    if c < a.1 then none
    else if c ≤ b.1 then
      some (Int.tdiv (a.2 * ((b.1 : Int) - a.1) + (b.2 - a.2) * ((c : Int) - a.1)) ((b.1 : Int) - a.1))
    else interpolate (b :: r) c

/-- V_ref of an input in µV (R213). -/
def vRef (s : State) (a : Ai) : Nat := if a.ref < 4 then (supAt s a.ref).v else 5000000

/-- One conversion (R213): round(4,095 × V_in / V_ref), half up, within 12 bits; `v` is the voltage at the pin with the
bias resistor acting. Against a reference of 0 V the spec states no code: a free value. -/
def aiCode (s : State) (a : Ai) (v : Nat) : Nat :=
  let r := vRef s a
  if r = 0 then Sys2Proof.Config.aiNoRef v % 4096 else min ((2 * 4095 * v + r) / (2 * r)) 4095

/-- AIN_FAULT at each setting and clearing of a flag (R216). -/
def ainFault (k cause : Nat) (was now : Bool) (s : State) : State :=
  if was = now then s else
  let s := emit 0x1601 k s (cause := cause) (flags := b2n now) (value := ((aiAt s k).code : Int))
  if now then detect 0x043 true s
  else if (List.range 8).any (fun j => (aiAt s j).range || (aiAt s j).refBad) then s else detectEnd 0x043 s

/-- One analogue input in the level phase (R213-R216). `n` is the sampled cycle. -/
def aiStep (n k : Nat) (s : State) : State :=
  let a := aiAt s k
  let l := elemOr [] s.fio.ai k
  let cs := l.map (aiCode s a)
  let code := if l = [] then a.code else (2 * sumN cs + l.length) / (2 * l.length)
  let out := decide (code < a.lo ∨ a.hi < code)
  let run := if out = a.band then 0 else a.run + 1
  let band := if run = 4 then out else a.band
  let tmp := interpolate (tempAt s a.tab) code
  let range := band || (decide (a.conv = 2) && tmp.isNone)
  let ref := decide (a.ref < 4) && (supAt s a.ref).badWas
  let v : Int := if a.conv = 0 then (code : Int) else if a.conv = 1 then ((code * vRef s a / 4095 : Nat) : Int) else tmp.getD a.value
  let s := modAi k (fun a => { a with
    code := code, run := if run = 4 then 0 else run, band := band, range := range, refBad := ref, cycle := n
    value := if range || ref then a.value else v }) s
  ainFault k 2 a.refBad ref (ainFault k 1 a.range range s)

/-- The temperature an input reports for a bundle (R144): none on a fault or without a temperature. -/
def ainTemp (s : State) (k : Nat) : Option Int :=
  let a := aiAt s k
  if a.range || a.refBad || decide (a.conv ≠ 2) then none else some a.value

/-- Fill phase of the inputs and supplies. -/
def fillIn (x : Samples) (s : State) : State :=
  let s := modFio (fun f => { f with di := x.di, ai := x.ai }) s
  (List.range 4).foldl (fun s j => modSup j (fun y => { y with
    v := elemOr y.v x.supV j, i := elemOr y.i x.supI j, badWas := y.bad, bad := !y.on }) s) s

/-- Level phase of the field I/O block (R192): every input's samples in order. -/
def levelField (s : State) : State :=
  let n := sampledCycle s
  let s := (List.range 32).foldl (fun s i => diSamples i 0 ((elemOr [] s.fio.di i).take 8) s) s
  (List.range 8).foldl (fun s k => aiStep n k s) s

/-- At a boundary the start of the new cycle is noted (R192). -/
def boundaryField (s : State) : State :=
  modFio (fun f => { f with
    at0Was := f.at0, at0 := s.tide.counter, startWas := f.start, start := workNs s, pWas := f.pNow, pNow := s.cyc.period }) s

/-- Analogue input record (R216). -/
def aiRec (k : Nat) : Rec :=
  { len := 24
    flds := lift (fun s => aiAt s k) (modAi k) [
      rwF 0 0 3 (·.ref) (fun n a => { a with ref := n }) (rng 0 4),
      rwF 0 3 2 (·.bias) (fun n a => { a with bias := n }) (rng 0 2),
      rwF 0 5 2 (·.conv) (fun n a => { a with conv := n }) (rng 0 2),
      rwF 1 0 3 (·.tab) (fun n a => { a with tab := n }),
      rwF 2 0 16 (·.lo) (fun n a => { a with lo := n }), rwF 4 0 16 (·.hi) (fun n a => { a with hi := n }),
      roF 6 0 16 (·.code), roF 8 0 48 (fun a => ofS 48 a.value), roB 14 0 (·.range), roB 14 1 (·.refBad),
      roF 16 0 48 (·.cycle)] }

/-- Sensor supply record (R217). -/
def supRec (j : Nat) : Rec :=
  { len := 16
    flds := lift (fun s => supAt s j) (modSup j) [
      rwB 0 0 (·.en) (fun v x => { x with en := v }), rwB 0 1 (·.standby) (fun v x => { x with standby := v }),
      rwF 1 0 8 (·.tRetry) (fun n x => { x with tRetry := n }) (rng 1 255),
      roB 2 0 (·.on), roB 2 1 (·.limit), roB 2 2 (·.short), roB 2 3 (·.thermal), roB 2 4 (·.latched),
      roF 3 0 8 (·.retries), roF 4 0 48 (·.v), roF 10 0 48 (·.i)] }

/-- Point `j` of a table changed. -/
def setPoint (j : Nat) (f : Nat × Int → Nat × Int) (l : List (Nat × Int)) : List (Nat × Int) :=
  (List.range 32).map (fun k => if k = j then f (elemOr (0, 0) l k) else elemOr (0, 0) l k)

/-- Temperature table (R215). -/
def tempRec (t : Nat) : Rec :=
  { len := 256
    flds := (List.range 32).flatMap (fun j => lift (fun s => tempAt s t) (modTemp t) [
      chF (8 * j) 0 12 (fun l => (elemOr (0, 0) l j).1) (fun n => setPoint j (fun e => (n, e.2))),
      chF (8 * j + 2) 0 48 (fun l => ofS 48 (elemOr (0, 0) l j).2) (fun n => setPoint j (fun e => (e.1, toS 48 n)))]) }

/-- Records of class AIN. -/
def ainRecord (i part : Nat) : Option Rec :=
  if part ≠ 0 then none else if i < 8 then some (aiRec i)
  else if i < 0x14 then some (supRec (i - 0x10)) else some (tempRec (i - 0x20))

/-- An input with `conv` TEMP names an ascending table (R215). -/
def ainCheck (s : State) (_p i part : Nat) (ws : List (Nat × Nat)) : Status :=
  let a := aiAt (asSet 0x16 ainRecord i part ws s) i
  if i < 8 ∧ a.conv = 2 ∧ ascending (tempAt s a.tab) = false then .eRange else .ok

/-- The device state lets an enabled supply be on: not in SLEEP, and in STANDBY with `standby_on` alone (R217). -/
def supAllowed (s : State) (x : Sup) : Bool :=
  x.en && !x.latched && decide (s.pwr.state ≠ 3) && (x.standby || decide (s.pwr.state ≠ 2))

/-- A supply as its settings and the power state have it (R217): `en` written 0 clears the sticky flags and the latch;
a supply waiting for its retry keeps waiting. -/
def supSettle (s : State) (x : Sup) : Sup :=
  if !x.en then { x with
    on := false, limit := false, short := false, thermal := false, latched := false, retries := 0, wait := false, bad := true }
  else if supAllowed s x then (if x.wait then x else { x with on := true })
  else { x with on := false, bad := true }

/-- A SET of a sensor supply takes effect (R217). -/
def ainAfter (_s0 : State) (i _part : Nat) (_ws : List (Nat × Nat)) (s : State) : State :=
  if 0x10 ≤ i ∧ i < 0x14 then modSup (i - 0x10) (supSettle s) s else s

/-- Class AIN (R216, R217, R219). -/
def ainClass : ClassSpec :=
  { code := 0x16
    ranges := [(0, 8), (0x10, 4), (0x20, 8)]
    record := ainRecord
    verbs := [1, 2, 4, 6]
    events := 2
    setCheck := ainCheck
    after := ainAfter
    setCyc := fun _ _ => true }

/-- A supply turns off for a fault (R217): the sixth consecutive turn-off latches. -/
def supOff (j cause : Nat) (mark : Sup → Sup) (s : State) : State :=
  if !(supAt s j).on then s else
  let s := modSup j (fun x =>
    let y := mark x
    { y with on := false, wait := true, bad := true, retries := sat 8 (x.retries + 1), latched := x.latched || decide (6 ≤ x.retries + 1) }) s
  detect 0x044 false (emit 0x1602 (0x10 + j) s (cause := cause) (flags := flag 1 (supAt s j).latched)
    (value := ((supAt s j).i : Int)))

/-! ### Meanings -/

/-- DIN_SET (R194-R198, R202). -/
def execDinSet (r : Req) (s : State) : Out := .next (cmdSet dinClass r s)
/-- FOUT_SET (R212). -/
def execFoutSet (r : Req) (s : State) : Out := .next (cmdSet foutClass r s)
/-- FOUT_LOCATE (R207). -/
def execFoutLocate (r : Req) (s : State) : Out := .next (cmdAct foutClass 1 r s)
/-- FOUT_CLEAR (R208). -/
def execFoutClear (r : Req) (s : State) : Out := .next (cmdAct foutClass 2 r s)
/-- AIN_SET (R213-R217). -/
def execAinSet (r : Req) (s : State) : Out := .next (cmdSet ainClass r s)

/-- CLS_HOLD_ENTER (R200): VBAT_B below 9.0 V. The comparator stands whatever domain has power. -/
def execClsHoldEnter (s : State) : Out := .next (clsHoldOn s)

/-- CLS_HOLD_EXIT (R200): VBAT_B has risen above 9.3 V; counting restarts at the next sample taken. -/
def execClsHoldExit (s : State) : Out :=
  .next (modFio (fun f => { f with clsHold := false, clsFrom := s.tide.counter }) s)

/-- FO_THERMAL_SHUTDOWN (R206): output `k` shuts down and the bank bit's condition holds. -/
def execFoThermalShutdown (k : Nat) (s : State) : Out :=
  guardUnit (decide (k < 16)) (if !s.pwr.keeper then s else
    foSet k false (modFo k (fun f => { f with thermal := true, cond := true }) s))

/-- FO_THERMAL_RESTART (R206): the output restarts in hardware. -/
def execFoThermalRestart (k : Nat) (s : State) : Out :=
  guardUnit (decide (k < 16))
    (let s := modFo k (fun f => { f with thermal := false, cond := false }) s
     foSet k (foWant s k) s)

/-- FO_LIMIT_HELD (R206): the current limit has held for more than 50 µs. -/
def execFoLimitHeld (k : Nat) (s : State) : Out :=
  guardUnit (decide (k < 16)) (if !s.pwr.keeper then s else
    modFo k (fun f => { f with cond := true }) s)

/-- SILENCE_EXPIRY (R209): the output goes to `safe` at once; a timer that was never refreshed cannot
expire. -/
def execSilenceExpiry (k : Nat) (s : State) : Out :=
  guardUnit (decide (k < 16))
    (if !(foAt s k).armed || (foAt s k).silent then s else
     let s := modFo k (fun f => { f with silent := true, fresh := false, expiry := f.last, held := f.out }) s
     detect 0x040 false (foSet k (foWant s k) s))

/-- SUP_LIMIT (R217). -/
def execSupLimit (j : Nat) (s : State) : Out :=
  guardUnit (decide (j < 4)) (supOff j 1 (fun x => { x with limit := true }) s)
/-- SUP_SHORT_BAT (R217). -/
def execSupShortBat (j : Nat) (s : State) : Out :=
  guardUnit (decide (j < 4)) (supOff j 2 (fun x => { x with short := true }) s)
/-- SUP_THERMAL (R217). -/
def execSupThermal (j : Nat) (s : State) : Out :=
  guardUnit (decide (j < 4)) (supOff j 3 (fun x => { x with thermal := true }) s)

/-- SUP_RETRY (R217): `t_retry` after a turn-off the supply turns on again, unless it has latched. -/
def execSupRetry (j : Nat) (s : State) : Out :=
  guardUnit (decide (j < 4))
    (modSup j (fun x => { x with wait := false, on := x.on || (x.wait && supAllowed s x) }) s)

/-- SUP_CLEAN (R217): on for 1 s. -/
def execSupClean (j : Nat) (s : State) : Out :=
  guardUnit (decide (j < 4)) (if (supAt s j).on then modSup j (fun x => { x with retries := 0 }) s else s)

/-- SLUICE_RESUME (R150, R554): the first alive word after a silence. -/
def execSluiceResume (s : State) : Out :=
  .next (if s.slu.silent then detectEnd 0x013 (detectEnd 0x012 (tpClear 3 (resume (ainTemp s) (modSlu (fun v => { v with unalive := 0 }) s)))) else s)

end Sys2Proof.Machine
end

