-- ==== Sys2Proof/Machine/Routes.lean ====
section
/-! DEFINITION. What a route table must obey (R307): chains, the sources that name entries, destinations. -/
namespace Sys2Proof.Machine

/-- Entries of the chain from `e`, until a revisit or more than 8: whether the chain obeys R307. -/
def chainFine (t : State) : Nat → List Nat → Nat → Bool
  | 0, _, _ => false
  | n + 1, seen, e =>
    let r := routeAt t e
    if !r.chain then true
    else !(decide (r.next ∈ e :: seen)) && (routeAt t r.next).cont && chainFine t n (e :: seen) r.next

/-- Route indices that sources name: filters, LIN entries, bus events, listeners (R304). -/
def namedBySource (t : State) (i : Nat) : Bool :=
  t.can.filters.any (fun e => decide (e.2.kind ≠ 0 ∧ e.2.route = i)) ||
  t.lin.frames.any (fun e => decide (e.2.dir = 2 ∧ e.2.route = i)) ||
  t.aq.srcs.any (fun e => e.2.en && decide (e.2.route = i)) ||
  t.aq.listeners.any (fun e => e.2.en && decide (e.2.base ≤ i ∧ i < e.2.base + 32))

/-- Buses whose frames a source sends to route `i`: handles of CAN and LIN channels. -/
def sourceBuses (t : State) (i : Nat) : List Nat :=
  ((List.range 12).filter (fun c => let g := (canAt t c).cfg
    (List.range' g.fltFirst g.fltCount).any (fun k => decide ((filterAt t k).kind ≠ 0 ∧ (filterAt t k).route = i)) ||
    ((busSrcAt t c).en && decide ((busSrcAt t c).route = i)))).map (fun c => handleOf t 0x20 c) ++
  ((List.range 8).filter (fun c =>
    t.lin.frames.any (fun e => decide (e.1 / 64 = c ∧ e.2.dir = 2 ∧ e.2.route = i)) ||
    ((busSrcAt t (12 + c)).en && decide ((busSrcAt t (12 + c)).route = i)))).map (fun c => handleOf t 0x21 c)

/-- A filter element of a channel that receives XL frames sends them to route `i`. -/
def xlNamed (t : State) (i : Nat) : Bool :=
  (List.range 12).any (fun c => let g := (canAt t c).cfg
    g.xlEn && (List.range' g.fltFirst g.fltCount).any (fun k =>
      let e := filterAt t k
      decide (e.kind ≠ 0 ∧ e.route = i) && e.xl && !e.reject))

/-- A new identifier for an XL frame that stays one has 11 bits (R306, R311). -/
def newIdOk (t : State) (i : Nat) (d : Dest) : Bool :=
  !(d.idRw && decide (d.fmtTo = 0) && (d.newIde || decide (0x7FF < d.newId)) && xlNamed t i)

/-- A destination obeys R307 and its ranges. -/
def destOk (t : State) (i : Nat) (r : Route) (d : Dest) : Bool :=
  newIdOk t i d &&
  match d.kind with
  | 1 => decide (d.target < 12)
  | 2 => decide (d.target < 12 ∧ d.sub < 64) &&
      (let o := (cschedAt t (64 * d.target + d.sub)).owner; decide (o = 0 ∨ o = r.owner))
  | 3 => decide (d.target < 8 ∧ d.sub < 64) &&
      (let e := linFrameAt t (64 * d.target + d.sub); decide (e.dir = 1 ∧ (e.owner = 0 ∨ e.owner = r.owner)))
  | 4 => decide (d.target < 32 ∧ d.sub < 4) && (sourceBuses t i).all (fun h => holds t d.target h)
  | 5 => decide (d.target < 64 ∧ d.sub < 32)
  | 6 => decide (d.target < 64)
  | _ => true

/-- An entry obeys R307. -/
def entryFine (t : State) (i : Nat) (r : Route) : Bool :=
  (r.dests.take r.ndest).all (destOk t i r) && chainFine t 8 [] i && !(r.cont && r.en && namedBySource t i)

/-- Every entry in use obeys R307. -/
def routesFine (t : State) : Bool := t.aq.routes.all (fun e => !e.2.en || entryFine t e.1 e.2)

/-- A SET that leads from `s` to `t` would create a condition of R307. -/
def breaksRoutes (s t : State) : Bool := routesFine s && !routesFine t

end Sys2Proof.Machine
end

