-- ==== Sys2Proof/Machine/Can.lean ====
section
/-! DEFINITION. CAN controllers: the channel record and its checks (R239-R248), filters and receive FIFOs
(R249-R255), transmission (R256-R262), the lock-cycle schedule (R263-R266), errors and bus-off
(R267-R270), the spare controller (R271-R273), counters (R274) and class CAN (R276, R277). -/
namespace Sys2Proof.Machine

/-! ### Frames and records -/

/-- Data lengths of the FD codes 0-15. -/
def fdLens : List Nat := [0, 1, 2, 3, 4, 5, 6, 7, 8, 12, 16, 20, 24, 32, 48, 64]

/-- Code of a data length: its place among the FD lengths; 0 for XL (R254). -/
def dlcOf (kind len : Nat) : Nat := if kind = 2 then 0 else (fdLens.findIdx? (fun n => decide (len ≤ n))).getD 15

/-- The length is one the format carries (R254), as a data length of the format (R311). -/
def lenOk (kind len : Nat) : Bool :=
  match kind with
  | 0 => decide (len ≤ 8)
  | 1 => decide (len ∈ fdLens)
  | 2 => decide (1 ≤ len ∧ len ≤ 2048)
  | _ => false

/-- `dlc` agrees with `len` (R259): the code of the length; in CC the codes above 8 also stand for 8 bytes,
and a remote frame carries a code without data. -/
def dlcAgrees (f : CanFrame) : Bool :=
  let n := f.data.length
  match f.kind with
  | 0 => decide (f.dlc = n) || decide (n = 8 ∧ 8 ≤ f.dlc) || (f.rtr && decide (n = 0))
  | 1 => decide (f.dlc = dlcOf 1 n)
  | _ => decide (f.dlc = 0)

/-- 128-byte cells of a frame record (R252). -/
def cellsOf (len : Nat) : Nat := (32 + roundUp 8 len + 127) / 128

/-- The frame a record holds (R254, R259). -/
def parseFrame (b : List Byte) : CanFrame :=
  let x := leAt b 1 1
  { kind := x % 4, ide := bitOf 2 x, rtr := bitOf 3 x, brs := bitOf 4 x, esi := bitOf 5 x, sec := bitOf 6 x
    id := leAt b 4 4, dlc := leAt b 8 1, sdt := leAt b 9 1, vcid := leAt b 10 1, af := leAt b 12 4
    data := (b.drop 32).take (leAt b 2 2) }

/-- Fields a submitted record must leave zero: reserved bits, timestamps, filter and route; the identifier
within its width; and the rules of R259 that need no channel. -/
def recordOk (b : List Byte) : Bool :=
  let f := parseFrame b
  let len := leAt b 2 2
  decide (leAt b 1 1 < 128 ∧ f.kind < 3 ∧ leAt b 8 1 < 16 ∧ leAt b 11 1 < 4 ∧ leAt b 16 14 = 0) &&
  decide (f.id < (if f.ide then 2 ^ 29 else 2 ^ 11)) && lenOk f.kind len && decide (f.data.length = len) &&
  dlcAgrees f && !(f.rtr && decide (f.kind ≠ 0)) && !(f.kind = 2 && f.ide) &&
  decide (leNat (b.drop (32 + len)) = 0)

/-- Arbitration key (R256): the arbitration field as it is sent, dominant as the lower value. -/
def arbKey (f : CanFrame) : Nat :=
  if f.ide then (f.id / 2 ^ 18) % 2 ^ 11 * 2 ^ 21 + 2 ^ 20 + 2 ^ 19 + (f.id % 2 ^ 18) * 2 + b2n f.rtr
  else f.id % 2 ^ 11 * 2 ^ 21 + (if f.rtr then 2 ^ 20 else 0)

/-! ### Counters and events -/

/-- A wrapping counter of `w` bits plus `n`, and whether its top bit has just set (R274, R328). -/
def addHalf (w n old : Nat) : Nat × Bool :=
  let v := (old + n) % 2 ^ w
  (v, decide (old < 2 ^ (w - 1) ∧ 2 ^ (w - 1) ≤ v))

/-- Counter `k` of a CAN channel plus `n` (R274). -/
def countCan (c k n : Nat) (s : State) : State :=
  let r := addHalf (if k = 1 ∨ k = 3 then 48 else 32) n (tget ctr0 (canAt s c).counters k)
  let s := modCanCh c (fun x => { x with counters := tput ctr0 k r.1 x.counters }) s
  if r.2 then emit 0x2009 (0x10 + c) s (cause := k) else s

/-- A bus event enters the data stream behind the frames of its bus (R319). `src` is the source record,
`bit` its mask bit. -/
def busEvent (src bit : Nat) (a : AqFrame) (s : State) : State :=
  let b := busSrcAt s src
  if b.en && bitOf bit b.mask then
    modAq (fun q => { q with inq := q.inq ++ [{ a with
      route := b.route, sec := s.tide.sec, ns := s.tide.ns, tow := s.sys.tow }] }) s
  else s

/-- The same of a CAN channel, with its error counters. -/
def canBusEvent (c bit ev info : Nat) (s : State) : State :=
  let x := canAt s c
  busEvent c bit { chan := c, kind := 0, seq := (x.seq + 2 ^ 16 - 1) % 2 ^ 16,
                   ev := some { ev := ev, info := info, tec := x.tec, recv := x.recv } } s

/-- Error-state warning (R246). -/
def canWarn (x : CanCh) : Bool := decide (96 ≤ x.tec ∨ 96 ≤ x.recv)

/-- CAN_STATE (R267, R269). -/
def canState (c : Nat) (waiting : Bool) (s : State) : State :=
  let x := canAt s c
  canBusEvent c 0 0x2001 x.err
    (emit 0x2001 c s (cause := x.err) (flags := b2n (canWarn x) + flag 1 waiting) (ext := [x.tec, x.recv]))

/-- The error state takes a value; a change raises CAN_STATE (R267). -/
def setCanErr (c e : Nat) (s : State) : State :=
  if (canAt s c).err = e then s
  else canState c false (modCanCh c (fun x => { x with err := e, stateCycle := s.cyc.number }) s)

/-! ### Queues -/

/-- Cells of a list of waiting frames. -/
def txCellsOf (l : List CanTx) : Nat := l.foldl (fun n t => n + cellsOf t.frame.data.length) 0

/-- Cells of the receive FIFO in use: accepted frames of the channel the Aqueduct has yet to take. -/
def rxCellsUsed (s : State) (c : Nat) : Nat :=
  s.aq.inq.foldl (fun n a => if a.chan = c ∧ a.ev = none then n + cellsOf a.frame.data.length else n) 0

/-- Insertion behind every frame whose key is not higher (R256). -/
def insertKey (t : CanTx) : List CanTx → List CanTx
  | [] => [t]
  | x :: r => if arbKey t.frame < arbKey x.frame then t :: x :: r else x :: insertKey t r

/-- The queue with a frame added (R256). -/
def queued (x : CanCh) (t : CanTx) : List CanTx := if x.cfg.txOrder = 0 then insertKey t x.queue else x.queue ++ [t]

/-- A frame goes back in front of the frames with keys not lower: it was their head (R258). -/
def requeue (x : CanCh) (t : CanTx) : List CanTx :=
  (x.queue.takeWhile (fun y => decide (arbKey y.frame < arbKey t.frame))) ++ t ::
    (x.queue.dropWhile (fun y => decide (arbKey y.frame < arbKey t.frame)))

/-- An empty slot 0 takes the head of the wait line (R264). -/
def fill0 (x : CanCh) : CanCh :=
  match x.slot0, x.line with
  | none, t :: r => { x with slot0 := some t, line := r }
  | _, _ => x

/-- An empty slot 1 takes the head of the queue (R257). -/
def fill1 (x : CanCh) : CanCh :=
  match x.slot1, x.queue with
  | none, t :: r => { x with slot1 := some t, queue := r }
  | _, _ => x

/-- An empty slot 2 takes the head of the queue (R257). -/
def fill2 (x : CanCh) : CanCh :=
  match x.slot2, x.queue with
  | none, t :: r => { x with slot2 := some t, queue := r }
  | _, _ => x

/-- Empty slots take the head of the queue; slot 0 takes the head of the wait line (R257, R264). -/
def fillSlots (x : CanCh) : CanCh := fill2 (fill1 (fill0 x))

/-- The frame in a slot. -/
def slotAt (x : CanCh) (k : Nat) : Option CanTx := if k = 0 then x.slot0 else if k = 1 then x.slot1 else x.slot2

/-- A slot given a value. -/
def setSlot (k : Nat) (v : Option CanTx) (x : CanCh) : CanCh :=
  if k = 0 then { x with slot0 := v } else if k = 1 then { x with slot1 := v } else { x with slot2 := v }

/-- A frame enters the transmit queue (R256). -/
def enqueueCan (c : Nat) (t : CanTx) (s : State) : State :=
  modCanCh c (fun x => fillSlots { x with queue := queued x t }) s

/-- A frame of the queue that a slot with a higher key should give way to (R258): at most one per slot. A
frame younger than 2 µs at the end of an intermission stays out. -/
def invert1 (young : CanTx → Bool) (x : CanCh) : CanCh :=
  match x.queue with
  | [] => x
  | h :: r =>
    if young h then x else
    let worse := fun k => match slotAt x k with
      | some t => decide (x.onBus ≠ some k ∧ arbKey h.frame < arbKey t.frame)
      | none => false
    let key : Nat → Nat := fun k => match slotAt x k with
      | some t => arbKey t.frame
      | none => 0
    let k : Nat := if worse 1 && worse 2 then (if key 1 < key 2 then 2 else 1) else if worse 1 then 1 else 2
    if worse k then
      match slotAt x k with
      | some t => let y := setSlot k (some h) { x with queue := r }
                  { y with queue := requeue y t }
      | none => x
    else x

/-- A pound frame that fails is reported; a route frame is counted (R260). -/
def txFail (c cause : Nat) (t : CanTx) (s : State) : State :=
  match t.src with
  | .pound p tag => emit 0x2004 c s (cause := cause) (ext := [tag, 0]) (dest := some p)
  | .route _ => countCan c 9 1 s
  | .nm => s
  | .sched _ => s

/-- Several frames fail. -/
def txFailAll (c cause : Nat) (l : List CanTx) (s : State) : State := l.foldl (fun s t => txFail c cause t s) s

/-- Frames of slots 1 and 2. -/
def slotFrames (x : CanCh) : List CanTx := x.slot1.toList ++ x.slot2.toList

/-- The network-management cluster of a CAN channel is Moored (R281). -/
def canMoored (s : State) (c : Nat) : Bool :=
  (List.range 32).any (fun k => let n := nmcAt s k
    n.en && decide (n.kind = 0 ∧ n.bus = c ∧ n.state = .moored))

/-- Mode the channel is to run in (R281). -/
def canTarget (s : State) (c : Nat) : Nat := if canMoored s c then 0 else (canAt s c).cfg.mode

/-- Frames past `tx_deadline`, off the bus, fail (R262). -/
def deadlineCan (c : Nat) (s : State) : State :=
  let x := canAt s c
  if x.cfg.txDeadline = 0 then s else
  let late := fun (t : CanTx) => decide (t.enq + x.cfg.txDeadline * 1000000 ≤ s.tide.counter)
  let drop := fun k => match slotAt x k with
    | some t => late t && decide (x.onBus ≠ some k)
    | none => false
  let out := (if drop 1 then x.slot1.toList else []) ++ (if drop 2 then x.slot2.toList else []) ++ x.queue.filter late
  let s := modCanCh c (fun x => fillSlots { x with
    slot1 := if drop 1 then none else x.slot1
    slot2 := if drop 2 then none else x.slot2
    queue := x.queue.filter (fun t => !late t) }) s
  txFailAll c 7 out s

/-! ### Reception (R249-R255) -/

/-- The frame matches the element (R249). -/
def filterMatch (e : CanFilter) (f : CanFrame) : Bool :=
  let id := match e.kind with
    | 1 => decide (e.id1 ≤ f.id ∧ f.id ≤ e.id2)
    | 2 => decide (f.id = e.id1 ∨ f.id = e.id2)
    | 3 => decide (f.id &&& e.id2 = e.id1 &&& e.id2)
    | _ => false
  let fmt := match f.kind with
    | 0 => e.cc
    | 1 => e.fd
    | _ => e.xl
  !e.bad && decide (e.kind ≠ 0) && fmt && (e.ide == f.ide) && (e.rtr == f.rtr) && id &&
    (decide (f.kind ≠ 2) ||
      decide (f.vcid &&& e.vcidMask = e.vcid &&& e.vcidMask ∧ f.sdt &&& e.sdtMask = e.sdt &&& e.sdtMask))

/-- The first element of the channel's window that matches. -/
def firstMatch (s : State) (x : CanCh) (f : CanFrame) : Option Nat :=
  (List.range' x.cfg.fltFirst x.cfg.fltCount).find? (fun i => filterMatch (filterAt s i) f)

/-- The frame's format is one the channel receives (R246). -/
def fmtEnabled (g : CanCfg) (f : CanFrame) : Bool :=
  decide (f.kind = 0) || (decide (f.kind = 1) && g.fdEn) || (decide (f.kind = 2) && g.xlEn)

/-- A frame received without error (R249, R252-R255). -/
def receiveCan (c : Nat) (f : CanFrame) (sec ns : Nat) (s : State) : State :=
  let s := countCan c 1 f.data.length (countCan c 0 1 s)
  let x := canAt s c
  if x.cfg.rxCells < rxCellsUsed s c + cellsOf f.data.length then
    let first := x.nobufRead || decide (tget ctr0 x.counters 6 = 0)
    let s := modCanCh c (fun x => { x with nobufRead := false }) (countCan c 6 1 s)
    let n := tget ctr0 (canAt s c).counters 6
    if first then canBusEvent c 3 0x2007 n (emit 0x2007 c s (value := n)) else s
  else match firstMatch s x f with
    | none => countCan c 5 1 s
    | some i =>
      let e := filterAt s i
      if e.reject then countCan c 4 1 s
      else
        modCanCh c (fun x => { x with seq := (x.seq + 1) % 2 ^ 16 })
          (modAq (fun q => { q with inq := q.inq ++ [{
            frame := f, chan := c, kind := 0, tow := s.sys.tow, route := e.route, filter := i
            sec := sec, ns := ns, seq := x.seq }] }) s)

/-! ### Errors (R245, R267-R270) -/

/-- Entry to bus-off (R268, R270, R261). -/
def enterBusOff (c : Nat) (s : State) : State :=
  let x := canAt s c
  let shots := (slotFrames x ++ x.queue).filter (fun t => t.oneShot)
  let keep := fun (o : Option CanTx) => o.filter (fun t => !t.oneShot)
  let manual := decide (x.cfg.boffMax ≤ x.boffRun) && !x.boffManual
  let s := modCanCh c (fun x => { x with
    slot0 := none, line := [], onBus := none, fastTx := none, byCommand := false, waitRep := false
    slot1 := keep x.slot1, slot2 := keep x.slot2, queue := x.queue.filter (fun t => !t.oneShot)
    boffManual := x.boffManual || manual }) s
  let s := setCanErr c 2 (countCan c 16 1 s)
  let s := txFailAll c 6 shots s
  let y := canAt s c
  let s := canBusEvent c 1 0x2002 2 (emit 0x2002 c s (ext := [y.tec, y.recv]))
  let s := if manual then emit 0x200A c s (value := y.boffRun) else s
  detect 0x052 true s

/-- The error state that the counters give (R267). -/
def applyCounters (c : Nat) (s : State) : State :=
  let x := canAt s c
  if 2 ≤ x.err then s
  else if 255 < x.tec then enterBusOff c s
  else setCanErr c (if 128 ≤ x.tec ∨ 128 ≤ x.recv then 1 else 0) s

/-- Counter of an error kind (R274). -/
def errCounter (k : Nat) : Nat := if k = 0 then 10 else if k = 1 then 11 else if k = 2 then 12 else if k = 3 then 13 else 14

/-- TEC or REC moves by the standard's rules (R267): +8 for a transmitter and for further errors of the
signalling, +1 for a receiver; held within the fields of R246. RESTRICTED mode counts nothing. -/
def errCount (e : CanErr) (x : CanCh) : CanCh :=
  if e.exempt || decide (x.live = 2) then x
  else if e.tx then { x with tec := min 256 (x.tec + 8) }
  else { x with recv := min 255 (x.recv + (if e.again then 8 else 1)) }

/-- The frame on the bus ends with an error: a one-shot frame fails, any other stays in its slot (R257,
R261). `off`: the error has led to bus-off, which has reported it. -/
def endOnBus (c cause : Nat) (s : State) : State :=
  let x := canAt s c
  match x.onBus with
  | none => s
  | some k =>
    let s := modCanCh c (fun x => { x with onBus := none, fastTx := none }) s
    match slotAt x k with
    | some t => if t.oneShot then txFail c cause t (modCanCh c (fun x => fillSlots (setSlot k none x)) s) else s
    | none => s

/-- A protocol error (R245, R267). -/
def canError (c : Nat) (e : CanErr) (s : State) : State :=
  let x := canAt s c
  if x.live = 0 ∨ 2 ≤ x.err then s else
  let pex := decide (e.kind = 5) && x.cfg.pexEn
  if pex then countCan c 15 1 (modCanCh c (fun x => { x with integ := false }) s) else
  let kind := if e.kind = 5 then 2 else e.kind
  let s := countCan c (errCounter kind) 1 s
  let s := if e.tx || e.again then s else countCan c 7 1 s
  if x.cfg.sigOff && e.xlData then endOnBus c (kind + 2) (modCanCh c (fun x => { x with integ := false }) s)
  else
    let s := modCanCh c (errCount e) s
    let off := decide (255 < (canAt s c).tec)
    let s := if off || e.again || !e.tx then s else endOnBus c (kind + 2) s
    applyCounters c s

/-! ### The spare controller (R271-R273) -/

/-- A CAN wake detector is armed with its settings, when they enable it (R279, R283, R284). -/
def armCan (c : Nat) (s : State) : State :=
  modNm (fun v => { v with wakes := tmod canWake0 c (fun w => { w with
    live := w.cfg, err := 0, armed := w.cfg.en }) v.wakes }) s

/-- The transceiver leaves STANDBY: its wake detector is off (R279). -/
def disarmCan (c : Nat) (s : State) : State :=
  modCanWake c (fun w => { w with armed := false }) s

/-- A channel enters OFF: every frame in slots and queue is discarded (R244). -/
def discardCan (c : Nat) (s : State) : State :=
  let x := canAt s c
  let all := slotFrames x ++ x.queue
  txFailAll c 8 all (modCanCh c (fun x => { x with
    slot0 := none, slot1 := none, slot2 := none, queue := [], line := [], onBus := none, fastTx := none, integ := false, live := 0 }) s)

/-- A condemned controller without a healthy spare: its channel enters OFF (R273). -/
def condemnOff (c : Nat) (s : State) : State :=
  let k := (canAt s c).ctrl
  let s := modCan (fun v => { v with bad := if k ∈ v.bad then v.bad else v.bad ++ [k] }) s
  emit 0x2008 c (discardCan c (modCanCh c (fun x => { x with cfg := { x.cfg with mode := 0 }, swap := 0 }) s))
    (cause := 4) (flags := k)

/-- The swap to C12 begins (R272): `cause` 1 condemned, 2 by command. -/
def startSwap (c cause : Nat) (s : State) : State :=
  if s.saf.pond.canSpare ≠ 0 ∨ (List.range 12).any (fun k => decide ((canAt s k).swap ≠ 0)) then s
  else modCanCh c (fun x => { x with swap := 1, swapCause := cause }) s

/-- A swap can be taken: C12 is a healthy spare and no other swap has begun. -/
def canSwapFree (s : State) : Bool :=
  decide (s.saf.pond.canSpare = 0) && (List.range 12).all (fun k => decide ((canAt s k).swap = 0))

/-- The working controller of channel `c` is condemned (R271). -/
def condemn (c : Nat) (s : State) : State :=
  let s := wearLog 3 c 3 (detect 0x050 false s)
  if canSwapFree s then startSwap c 1 s else condemnOff c s

/-- The spare's frame differs from the working controller's (R271, R566). -/
def spareMismatch (c : Nat) (s : State) : State :=
  if s.can.shadow ≠ c ∨ s.saf.pond.canSpare ≠ 0 ∨ (canAt s c).swap ≠ 0 then s else
  let n := s.can.mism + 1
  let s := pondWear 3 c n false (modCan (fun v => { v with mism := n }) s)
  if 2 ≤ n && s.can.passed then condemn c s else s

/-! ### Schedule (R263-R266) -/

/-- One due entry at the boundary that starts cycle `n`; it is stale when `stale` whole cycles have passed since the cycle
its last write took effect in (R266). A frame of a format the channel has not enabled is not sent (R246) and counts as a miss, as in bus-off
(DESIGN CHOICE: the spec does not say what its entry does). -/
def schedDue (n : Nat) (e : Nat) (s : State) : State :=
  let c := e / 64
  let k := e % 64
  let x := canAt s c
  let q := cschedAt s e
  if !(decide (x.live = 1 ∨ x.live = 4)) then s
  else if decide (2 ≤ x.err) || !fmtEnabled x.cfg (parseFrame (q.frame.map (BitVec.ofNat 8))) then
    modCsched e (fun q => { q with miss := sat 16 (q.miss + 1) }) s
  else if q.skip && decide (q.stale ≠ 0 ∧ q.written + q.stale < n) then
    let s := modCsched e (fun q => { q with miss := sat 16 (q.miss + 1) }) s
    emit 0x2006 c s (cause := k) (flags := 1) (value := (cschedAt s e).miss)
  else
    let b := q.frame.map (BitVec.ofNat 8)
    let t : CanTx := { frame := parseFrame b, src := .sched k, oneShot := bitOf 0 (leAt b 11 1), enq := s.tide.counter }
    let mine := fun (y : CanTx) => decide (y.src = .sched k)
    let inSlot := x.slot0.any mine && decide (x.onBus ≠ some 0)
    let inLine := x.line.any mine
    if inSlot || inLine then
      let s := modCanCh c (fun x => { x with
        slot0 := if inSlot then some t else x.slot0
        line := if inSlot then x.line else x.line.map (fun y => if mine y then t else y) }) s
      let s := modCsched e (fun q => { q with miss := sat 16 (q.miss + 1) }) s
      emit 0x2006 c s (cause := k) (value := (cschedAt s e).miss)
    else modCanCh c (fun x => fillSlots { x with line := x.line ++ [t] }) s

/-- Entries due at the boundary that starts cycle `n`, in index order. -/
def schedDueAt (s : State) (n : Nat) : List Nat :=
  (List.range 768).filter (fun e => let q := cschedAt s e
    q.en && decide (n % q.every = q.offset))

/-- Schedule at a boundary that is not overrun (R264): deferred entries first (R50). -/
def schedBoundary (s : State) : State :=
  let l := s.can.deferred ++ schedDueAt s s.cyc.number
  l.foldl (fun s e => schedDue s.cyc.number e s) (modCan (fun v => { v with deferred := [] }) s)

/-- Schedule at the boundary that ends an overrun cycle: what is due is deferred (R50). -/
def schedOverrun (s : State) : State :=
  modCan (fun v => { v with deferred := v.deferred ++ schedDueAt s s.cyc.number }) s

/-- A swap that waited for a boundary now waits for an intermission (R272). Before the staged commands. -/
def swapBoundary (s : State) : State :=
  (List.range 12).foldl (fun s c => modCanCh c (fun x => if x.swap = 1 then { x with swap := 2 } else x) s) s

/-! ### Class CAN -/

/-- Clock periods of a bit (R239). -/
def bitClocks (brp t1 t2 : Nat) : Nat := (brp + 1) * (1 + (t1 + 1) + (t2 + 1))

/-- The bit timing of a configuration is one the device accepts (R237, R239, R242). `c` is the channel. -/
def timingOk (c : Nat) (g : CanCfg) : Bool :=
  let n := bitClocks g.nbrp g.ntseg1 g.ntseg2
  let d := bitClocks g.dbrp g.dtseg1 g.dtseg2
  let x := bitClocks g.xbrp g.xtseg1 g.xtseg2
  decide (160 ≤ n ∧ n ≤ 16000 ∧ g.nsjw ≤ g.ntseg1 ∧ g.nsjw ≤ g.ntseg2) &&
  decide (g.dsjw ≤ g.dtseg1 ∧ g.dsjw ≤ g.dtseg2 ∧ g.xsjw ≤ g.xtseg1 ∧ g.xsjw ≤ g.xtseg2) &&
  (!g.fdEn || decide (20 ≤ d ∧ d ≤ n)) &&
  (!g.xlEn || (decide (x ≤ n) && (if g.xlFast then decide (8 ≤ x ∧ x ≤ 80) else decide (20 ≤ x)))) &&
  (!g.xlFast || (g.sigOff && decide (c < 4 ∧ g.pwms + g.pwml = x)))

/-- Windows of filter memory (R247) and cells (R252) of all channels. -/
def canPlanOk (s : State) : Bool :=
  let g := fun c => (canAt s c).cfg
  (List.range 12).all (fun c =>
    decide ((g c).fltFirst + (g c).fltCount ≤ 4096) && (decide ((g c).mode = 0) || decide ((g c).fltCount ≠ 0)) &&
    (!(g c).xlEn || decide (17 ≤ (g c).rxCells ∧ 17 ≤ (g c).txCells)) &&
    (List.range c).all (fun e => decide ((g e).fltCount = 0 ∨ (g c).fltCount = 0 ∨
      (g e).fltFirst + (g e).fltCount ≤ (g c).fltFirst ∨ (g c).fltFirst + (g c).fltCount ≤ (g e).fltFirst))) &&
  decide ((List.range 12).foldl (fun n c => n + (g c).rxCells + (g c).txCells) 0 ≤ 4096)

/-- A configuration field of a channel. -/
def ccF (byte bit w : Nat) (get : CanCfg → Nat) (set : Nat → CanCfg → CanCfg) (ok : Nat → Bool := fun _ => true) :
    UFld CanCh :=
  rwF byte bit w (fun x => get x.cfg) (fun n x => { x with cfg := set n x.cfg }) ok

/-- The same of one bit. -/
def ccB (byte bit : Nat) (get : CanCfg → Bool) (set : Bool → CanCfg → CanCfg) : UFld CanCh :=
  ccF byte bit 1 (fun g => b2n (get g)) (fun n g => set (n = 1) g)

/-- Channel record (R246). -/
def canRec (c : Nat) : Rec :=
  { len := 48
    flds := lift (fun s => canAt s c) (modCanCh c) ([
      ccF 0 0 3 (·.mode) (fun n g => { g with mode := n }) (rng 0 4),
      ccB 0 3 (·.fdEn) (fun v g => { g with fdEn := v }), ccB 0 4 (·.xlEn) (fun v g => { g with xlEn := v }),
      ccB 0 5 (·.xlFast) (fun v g => { g with xlFast := v }), ccB 0 6 (·.sigOff) (fun v g => { g with sigOff := v }),
      ccB 0 7 (·.pexEn) (fun v g => { g with pexEn := v }),
      ccF 1 0 1 (·.txOrder) (fun n g => { g with txOrder := n }), ccB 1 1 (·.boffAuto) (fun v g => { g with boffAuto := v }),
      ccB 1 2 (·.tdcEn) (fun v g => { g with tdcEn := v }),
      ccF 2 0 8 (·.nbrp) (fun n g => { g with nbrp := n }),
      ccF 3 0 8 (·.ntseg1) (fun n g => { g with ntseg1 := n }) (rng 1 255),
      ccF 4 0 7 (·.ntseg2) (fun n g => { g with ntseg2 := n }), ccF 5 0 7 (·.nsjw) (fun n g => { g with nsjw := n }),
      ccF 6 0 5 (·.dbrp) (fun n g => { g with dbrp := n }), ccF 7 0 6 (·.dtseg1) (fun n g => { g with dtseg1 := n }),
      ccF 8 0 5 (·.dtseg2) (fun n g => { g with dtseg2 := n }), ccF 9 0 5 (·.dsjw) (fun n g => { g with dsjw := n })] ++ [
      ccF 10 0 5 (·.xbrp) (fun n g => { g with xbrp := n }), ccF 11 0 6 (·.xtseg1) (fun n g => { g with xtseg1 := n }),
      ccF 12 0 5 (·.xtseg2) (fun n g => { g with xtseg2 := n }), ccF 13 0 5 (·.xsjw) (fun n g => { g with xsjw := n }),
      ccF 14 0 7 (·.tdco) (fun n g => { g with tdco := n }), ccF 15 0 7 (·.xtdco) (fun n g => { g with xtdco := n }),
      ccF 16 0 6 (·.pwms) (fun n g => { g with pwms := n }) (rng 1 63),
      ccF 17 0 6 (·.pwml) (fun n g => { g with pwml := n }) (rng 1 63),
      ccF 18 0 6 (·.pwmo) (fun n g => { g with pwmo := n }),
      ccF 20 0 16 (·.tBoff) (fun n g => { g with tBoff := n }) (rng 0 10000),
      ccF 22 0 8 (·.boffMax) (fun n g => { g with boffMax := n }) (rng 1 255),
      ccF 24 0 12 (·.fltFirst) (fun n g => { g with fltFirst := n }),
      ccF 26 0 13 (·.fltCount) (fun n g => { g with fltCount := n }) (rng 0 4096),
      ccF 28 0 16 (·.rxCells) (fun n g => { g with rxCells := n }) (rng 4 2048),
      ccF 30 0 16 (·.txCells) (fun n g => { g with txCells := n }) (rng 4 2048),
      ccF 32 0 16 (·.txDeadline) (fun n g => { g with txDeadline := n }) (rng 0 60000),
      roF 34 0 4 (·.ctrl), roF 35 0 2 (·.err), roB 35 2 canWarn, roB 35 3 (·.boffManual),
      roF 36 0 16 (·.tec), roF 38 0 16 (·.recv), roF 40 0 8 (·.boffRun), roF 42 0 48 (·.stateCycle)]) }

/-- Counters of an instance in the layout of R639: (index, width in bytes). -/
def counterBytes (t : Tbl Nat) (l : List (Nat × Nat)) : List Byte := l.flatMap (fun k => leBytes k.2 (tget ctr0 t k.1))

/-- Indices 0 to n - 1, six bytes where listed. -/
def ctrLayout (n : Nat) (wide : List Nat) : List (Nat × Nat) :=
  (List.range n).map (fun k => (k, if k ∈ wide then 6 else 4))

/-- Channel counters (R274). -/
def canCtrRec (c : Nat) : Rec :=
  { len := 0, flds := [], more := fun s => counterBytes (canAt s c).counters (ctrLayout 18 [1, 3]) }

/-- Channel a controller serves, 0xFF for none (R276). -/
def servedBy (s : State) (k : Nat) : Nat := ((List.range 12).find? (fun c => decide ((canAt s c).ctrl = k))).getD 0xFF

/-- Controller record (R276 names its content; the layout is the model's, log entry 40). -/
def ctrlRec (k : Nat) : Rec :=
  { len := 8
    flds := [liveF 0 0 1 (fun s => b2n (decide (k ∈ s.can.bad) || decide (k = 12 ∧ s.saf.pond.canSpare = 2))),
             liveF 1 0 8 (fun s => servedBy s k),
             liveF 2 0 48 (fun s => if k = 12 then s.can.testCycle else 0)] }

/-- Filter element (R247). -/
def filterRec (i : Nat) : Rec :=
  { len := 16
    flds := lift (fun s => filterAt s i) (modFilter i) [
      rwF 0 0 2 (·.kind) (fun n e => { e with kind := n }), rwB 0 2 (·.ide) (fun v e => { e with ide := v }),
      rwB 0 3 (·.cc) (fun v e => { e with cc := v }), rwB 0 4 (·.fd) (fun v e => { e with fd := v }),
      rwB 0 5 (·.xl) (fun v e => { e with xl := v }), rwB 0 6 (·.rtr) (fun v e => { e with rtr := v }),
      rwB 0 7 (·.reject) (fun v e => { e with reject := v }), rwF 2 0 14 (·.route) (fun n e => { e with route := n }),
      rwF 4 0 29 (·.id1) (fun n e => { e with id1 := n }), rwF 8 0 29 (·.id2) (fun n e => { e with id2 := n }),
      rwF 12 0 8 (·.vcid) (fun n e => { e with vcid := n }), rwF 13 0 8 (·.vcidMask) (fun n e => { e with vcidMask := n }),
      rwF 14 0 8 (·.sdt) (fun n e => { e with sdt := n }), rwF 15 0 8 (·.sdtMask) (fun n e => { e with sdtMask := n })] }

/-- Rules of an element (R248). -/
def filterOk (e : CanFilter) : Bool :=
  !(decide (e.kind = 1 ∧ e.id2 < e.id1)) && !(e.xl && e.ide) && !(e.rtr && (e.fd || e.xl)) &&
  (e.ide || decide (e.id1 ≤ 0x7FF ∧ e.id2 ≤ 0x7FF))

/-- Schedule entry (R263). -/
def schedRec (e : Nat) : Rec :=
  { len := 112
    flds := lift (fun s => cschedAt s e) (modCsched e) ([
        rwB 0 0 (·.en) (fun v q => { q with en := v }), rwB 0 1 (·.skip) (fun v q => { q with skip := v }),
        rwF 1 0 8 (·.stale) (fun n q => { q with stale := n }), rwF 2 0 16 (·.every) (fun n q => { q with every := n }) (rng 1 65535),
        rwF 4 0 16 (·.offset) (fun n q => { q with offset := n }), chF 6 0 8 (·.owner) (fun n q => { q with owner := n }),
        roF 8 0 48 (·.written), roF 14 0 16 (·.miss)] ++
      (List.range 96).map (fun j => rwF (16 + j) 0 8 (fun q => elemOr 0 q.frame j)
        (fun n q => { q with frame := q.frame.set j n }))) }

def canRecord (i part : Nat) : Option Rec :=
  if part ≠ 0 then none
  else if i < 12 then some (canRec i)
  else if 0x10 ≤ i ∧ i < 0x1C then some (canCtrRec (i - 0x10))
  else if 0x20 ≤ i ∧ i < 0x2D then some (ctrlRec (i - 0x20))
  else if 0x1000 ≤ i ∧ i < 0x2000 then some (filterRec (i - 0x1000))
  else if 0x2000 ≤ i ∧ i < 0x2300 then some (schedRec (i - 0x2000))
  else none

/-- Fields that change only in OFF (R240). -/
def timingField (pos : Nat) : Bool := decide (3 ≤ pos ∧ pos ≤ 6) || decide (16 ≤ pos ∧ pos < 160)

/-- Checks of a CAN SET (R239, R240, R242, R246-R248, R252, R263). -/
def canCheck (s : State) (_p i part : Nat) (ws : List (Nat × Nat)) : Status :=
  let t := asSet 0x20 canRecord i part ws s
  if i < 12 then
    if !timingOk i (canAt t i).cfg || !canPlanOk t || breaksRoutes s t then .eRange
    else if ws.any (fun w => timingField w.1) && decide ((canAt s i).cfg.mode ≠ 0) then .eState
    else .ok
  else if i < 0x2000 then (if !filterOk (filterAt t (i - 0x1000)) || breaksRoutes s t then .eRange else .ok)
  else
    let q := cschedAt t (i - 0x2000)
    if q.every ≤ q.offset then .eRange
    else if ws.any (fun w => decide (128 ≤ w.1)) && !recordOk (q.frame.map (BitVec.ofNat 8)) then .eRange
    else .ok

/-- A buffer write is dated; a filter element is whole again (R263, R553). -/
def canAfter (_ : State) (i _part : Nat) (ws : List (Nat × Nat)) (s : State) : State :=
  if 0x2000 ≤ i then
    if ws.any (fun w => decide (128 ≤ w.1)) then modCsched (i - 0x2000) (fun q => { q with written := s.cyc.number }) s else s
  else if 0x1000 ≤ i then modFilter (i - 0x1000) (fun e => { e with bad := false }) s
  else s

/-- A SEND record fits the channel (R256, R259, R440). -/
def sendCheck (s : State) (_p c : Nat) (a : List Byte) : Status :=
  let f := parseFrame a
  let x := canAt s c
  if a.length ≠ 32 + roundUp 8 (leAt a 2 2) then .eLength
  else if !recordOk a || !fmtEnabled x.cfg f then .eRange
  else if canTarget s c = 0 then .eState
  else if x.cfg.txCells < cellsOf f.data.length then .eOversize
  else if x.cfg.txCells < txCellsOf x.queue + cellsOf f.data.length then .eBusy
  else .ok

/-- A pound frame enters the queue (R259). -/
def sendRun (p c : Nat) (a : List Byte) (s : State) : State :=
  enqueueCan c { frame := parseFrame a, src := .pound p (leAt a 30 2), oneShot := bitOf 0 (leAt a 11 1)
                 confirm := bitOf 1 (leAt a 11 1), enq := s.tide.counter } s

/-- The Aqueduct writes the frame of a schedule entry (R309, R310): it counts for staleness (R266). -/
def schedRouteWrite (i : Nat) (a : List Byte) (s : State) : State :=
  modCsched (i - 0x2000) (fun q => { q with
    frame := ((a ++ List.replicate (96 - a.length) (0 : Byte)).take 96).map BitVec.toNat, written := s.cyc.number }) s

/-- Recovery begins (R269). -/
def startRecovery (c : Nat) (byCommand : Bool) (s : State) : State :=
  setCanErr c 3 (modCanCh c (fun x => { x with
    byCommand := byCommand, waitRep := false
    boffRun := if byCommand then x.boffRun else min 255 (x.boffRun + 1) }) s)

/-- Class CAN (R246-R248, R263, R276, R277). Action 256 is the Aqueduct's write; no payload can name it. -/
def canClass : ClassSpec :=
  { code := 0x20
    ranges := [(0, 12), (0x10, 12), (0x20, 13), (0x1000, 4096), (0x2000, 768)]
    record := canRecord
    verbs := [1, 2, 3, 4, 5, 6]
    events := 10
    setAuth := fun s p i _ pos =>
      decide (p = 0) || decide (0x2000 ≤ i ∧ 128 ≤ pos ∧ (cschedAt s (i - 0x2000)).owner = p)
    setCheck := canCheck
    setCyc := fun _ _ => true
    after := canAfter
    onRead := fun i _ off n s =>
      if 0x10 ≤ i ∧ i < 0x1C ∧ off < 32 ∧ 28 < off + n then modCanCh (i - 0x10) (fun x => { x with nobufRead := true }) s else s
    acts := [
      { code := 1, cyc := false, insts := fun i => decide (i < 12)
        argOk := fun n => decide (32 ≤ n ∧ n ≤ 2080 ∧ n % 8 = 0)
        auth := fun _ _ _ _ => true, check := sendCheck, run := sendRun },
      { code := 2, cyc := true, insts := fun i => decide (i < 12), argOk := fun n => decide (n = 0)
        auth := fun s p i _ => ownerOr0 s p (handleOf s 0x20 i)
        check := fun s _ i _ => if (canAt s i).err = 2 then .ok else .eState
        run := fun _ i _ s => if (canAt s i).err = 2 then startRecovery i true s else s },
      { code := 3, cyc := false, insts := fun i => decide (i < 12), argOk := fun n => decide (n = 0)
        auth := fun _ p _ _ => decide (p = 0), check := fun _ _ _ _ => .ok
        run := fun _ i _ => modCanCh i (fun x => { x with counters := [], nobufRead := true }) },
      { code := 4, cyc := true, insts := fun i => decide (i < 12), argOk := fun n => decide (n = 0)
        auth := fun _ p _ _ => decide (p = 0)
        check := fun s _ _ _ => if canSwapFree s then .ok else .eState
        run := fun _ i _ => startSwap i 2 },
      { code := 256, cyc := true, insts := fun i => decide (0x2000 ≤ i), argOk := fun _ => true
        auth := fun _ _ _ _ => true, check := fun _ _ _ _ => .ok
        run := fun _ i a => schedRouteWrite i a }] }

/-! ### Meanings -/

/-- CAN_SET (R246). -/
def execCanSet (r : Req) (s : State) : Out := .next (cmdSet canClass r s)
/-- CAN_SEND (R259). -/
def execCanSend (r : Req) (s : State) : Out := .next (cmdAct canClass 1 r s)
/-- CAN_RECOVER (R269). -/
def execCanRecover (r : Req) (s : State) : Out := .next (cmdAct canClass 2 r s)
/-- CAN_CLEAR_COUNTERS (R274). -/
def execCanClearCounters (r : Req) (s : State) : Out := .next (cmdAct canClass 3 r s)
/-- CAN_SWAP (R272). -/
def execCanSwap (r : Req) (s : State) : Out := .next (cmdAct canClass 4 r s)

/-- What the shadowing spare received is not what the working controller did (R271): identifier, data, flags, or SOF
timestamps more than one nominal time quantum, (nbrp + 1) / 160 MHz, apart. -/
def spareDiffers (g : CanCfg) (f : CanFrame) (spare : CanFrame × Int) : Bool :=
  decide (spare.1 ≠ f ∨ 25 * (g.nbrp + 1) < 4 * spare.2.natAbs)

/-- CAN_FRAME_RECEIVED (R249-R255): a frame received without error, with the working time of its SOF; `spare` is the
frame the shadowing spare received and how many ns later its SOF timestamp is (R271). A successful reception takes one from REC, and a
REC above 127 falls into 119-127. -/
def execCanFrameReceived (c : Nat) (f : CanFrame) (sec ns : Nat) (spare : Option (CanFrame × Int)) (s : State) : Out :=
  guardUnit (decide (c < 12))
    (let x := canAt s c
     if !(decide (x.live = 1 ∨ x.live = 2 ∨ x.live = 3)) || decide (2 ≤ x.err) || !fmtEnabled x.cfg f || !s.can.rail5 then s
     else
       let v := takeFree s
       let s := if x.live = 2 ∨ x.recv = 0 then s
         else if x.recv ≤ 127 then modCanCh c (fun x => { x with recv := x.recv - 1 }) s
         else modCanCh c (fun x => { x with recv := 119 + v.1 % 9 }) v.2
       let s := receiveCan c f sec ns (applyCounters c s)
       if spare.any (spareDiffers x.cfg f) then spareMismatch c s else s)

/-- A frame younger than 2 µs at the end of an intermission stays out (R258). -/
def tooYoung (fromIdle : Bool) (s : State) (t : CanTx) : Bool := !fromIdle && decide (s.tide.counter < t.enq + 2000)

/-- The slot may send: slot 0 at once, the others with a frame that is old enough (R257, R258). -/
def slotMay (fromIdle : Bool) (s : State) (x : CanCh) (k : Nat) : Bool :=
  match slotAt x k with
  | some t => decide (k = 0) || !tooYoung fromIdle s t
  | none => false

/-- Arbitration key of the frame in a slot. -/
def slotKey (x : CanCh) (k : Nat) : Nat := match slotAt x k with | some t => arbKey t.frame | none => 0

/-- The slot that sends: by key, or in order with `txOrder` 1 (R257). -/
def pickSlot (fromIdle : Bool) (s : State) (x : CanCh) : Option Nat :=
  match (List.range 3).filter (slotMay fromIdle s x) with
  | [] => none
  | k :: r => if x.cfg.txOrder = 0 then some (r.foldl (fun b k => if slotKey x k < slotKey x b then k else b) k) else some k

/-- The frame of slot `k` goes on the bus (R241, R257). An XL frame of a FAST channel is sent in FAST TX, its data phase as
PWM symbols, until the frame leaves the bus (R242): from ADH to DAH, which the command takes in one. -/
def sendSlot (c k loopDelay : Nat) (s : State) : State :=
  let x := canAt s c
  let f : CanFrame := ((slotAt x k).map (·.frame)).getD {}
  let off := if f.kind = 2 then x.cfg.xtdco else x.cfg.tdco
  let s := modCanCh c (fun x => { x with
    onBus := some k
    fastTx := if f.kind = 2 ∧ x.cfg.xlFast = true then some (x.cfg.pwms, x.cfg.pwml, x.cfg.pwmo) else none }) s
  if x.cfg.tdcEn && (decide (f.kind = 2) || (decide (f.kind = 1) && f.brs)) && decide (127 < loopDelay + off)
  then countCan c 17 1 s else s

/-- CAN_TRANSMIT_OPPORTUNITY (R257, R258, R241): `fromIdle` when the bus is idle and no intermission has
just ended; `loopDelay` the measured transmitter delay in clock periods. -/
def execCanTransmitOpportunity (c : Nat) (fromIdle : Bool) (loopDelay : Nat) (s : State) : Out :=
  guardUnit (decide (c < 12))
    (let x := canAt s c
     if !(decide (x.live = 4) || (decide (x.live = 1) && x.integ && s.can.rail5)) || decide (2 ≤ x.err ∨ x.onBus ≠ none) then s
     else
       let young := tooYoung fromIdle s
       let s := if x.stuck then detectEnd 0x051 (modCanCh c (fun x => { x with stuck := false }) s) else s
       let s := modCanCh c (fun x =>
         let x := fillSlots x
         if x.cfg.txOrder = 0 then invert1 young (invert1 young x) else x) s
       match pickSlot fromIdle s (canAt s c) with
       | none => s
       | some k => sendSlot c k loopDelay s)

/-- CAN_TX_SUCCESS (R260, R267): the frame on the bus is sent; `sec` and `ns` the working time of its SOF.
In LOOPBACK the controller receives it (R243). -/
def execCanTxSuccess (c sec ns : Nat) (s : State) : Out :=
  guardUnit (decide (c < 12))
    (let x := canAt s c
     match x.onBus with
     | none => s
     | some k =>
       match slotAt x k with
       | none => s
       | some t =>
         let s := modCanCh c (fun x => fillSlots (setSlot k none { x with onBus := none, fastTx := none, tec := x.tec - 1 })) s
         let s := countCan c 3 t.frame.data.length (countCan c 2 1 s)
         let s := match t.src with
           | .pound p tag => if t.confirm then emit 0x2005 c s (ext := [tag, sec, ns]) (dest := some p) else s
           | .route _ => s
           | .nm => s
           | .sched _ => s
         let s := applyCounters c s
         if x.live = 4 then receiveCan c t.frame sec ns s else s)

/-- CAN_ARBITRATION_LOST (R257, R261). -/
def execCanArbitrationLost (c : Nat) (s : State) : Out :=
  guardUnit (decide (c < 12))
    (if (canAt s c).onBus = none then s else endOnBus c 1 (countCan c 8 1 s))

/-- CAN_ERROR (R245, R267, R268). -/
def execCanError (c : Nat) (e : CanErr) (s : State) : Out := guardUnit (decide (c < 12)) (canError c e s)

/-- CAN_TX_DEADLINE (R262). -/
def execCanTxDeadline (c : Nat) (s : State) : Out := guardUnit (decide (c < 12)) (deadlineCan c s)

/-- CAN_MODE_CHANGE (R244): at an intermission the controller enters the mode that applies. Leaving a
recovery for OFF, the error counters return to 0 at the next entry to NORMAL (R275). -/
def execCanModeChange (c : Nat) (s : State) : Out :=
  guardUnit (decide (c < 12))
    (let x := canAt s c
     let m := canTarget s c
     if x.live = m ∨ x.onBus ≠ none then s
     else if m = 0 then
       let s := discardCan c s
       if (canWakeAt s c).armed then s else armCan c s
     else
       let s := disarmCan c (modCanCh c (fun x => { x with live := m, integ := false }) s)
       if m = 1 ∧ 2 ≤ x.err then
         setCanErr c 0 (modCanCh c (fun x => { x with tec := 0, recv := 0, byCommand := false, waitRep := false }) s)
       else s)

/-- BUS_INTEGRATION (R244, R245): 11 consecutive recessive bits. -/
def execBusIntegration (c : Nat) (s : State) : Out :=
  guardUnit (decide (c < 12))
    (if (canAt s c).live = 0 ∨ (canAt s c).live = 4 then s else modCanCh c (fun x => { x with integ := true }) s)

/-- RECOVERY_REQUEST (R269, R270): the automatic recovery delay has ended. -/
def execRecoveryRequest (c : Nat) (s : State) : Out :=
  guardUnit (decide (c < 12))
    (let x := canAt s c
     if x.err = 2 && x.cfg.boffAuto && !x.boffManual then startRecovery c false s else s)

/-- RECOVERY_COMPLETE (R269, R270). -/
def execRecoveryComplete (c : Nat) (s : State) : Out :=
  guardUnit (decide (c < 12))
    (let x := canAt s c
     if x.err ≠ 3 ∨ x.live = 0 then s else
     let s := modCanCh c (fun x => { x with
       tec := 0, recv := 0, integ := true, waitRep := false, byCommand := false
       boffManual := x.boffManual && !x.byCommand, boffRun := if x.byCommand then 0 else x.boffRun }) s
     let s := setCanErr c 0 s
     let s := canBusEvent c 2 0x2003 0 (emit 0x2003 c s)
     let s := if (List.range 12).any (fun k => decide (2 ≤ (canAt s k).err)) then s else detectEnd 0x052 s
     deadlineCan c s)

/-- RECOVERY_WAIT_REPORT (R269): reported once. -/
def execRecoveryWaitReport (c : Nat) (s : State) : Out :=
  guardUnit (decide (c < 12))
    (if (canAt s c).err = 3 && !(canAt s c).waitRep then
       canState c true (modCanCh c (fun x => { x with waitRep := true }) s) else s)

/-- BOFF_RUN_RESET (R270): 10 s error-active. -/
def execBoffRunReset (c : Nat) (s : State) : Out :=
  guardUnit (decide (c < 12)) (if (canAt s c).err = 0 then modCanCh c (fun x => { x with boffRun := 0 }) s else s)

/-- SPARE_SHADOW_PERIOD_END (R271): after a first mismatch the spare stays for a further period, else it
moves to the next channel. -/
def execSpareShadowPeriodEnd (s : State) : Out :=
  .next (if !s.pwr.keeper then s else
    if s.saf.pond.canSpare ≠ 0 then s
    else modCan (fun v =>
      if v.mism ≠ 0 ∧ v.again = false then { v with again := true }
      else { v with shadow := (v.shadow + 1) % 12, mism := 0, again := false }) s)

/-- SPARE_SELF_TEST (R271): a failure marks the spare failed; a controller condemned meanwhile has no spare
left (R273). -/
def execSpareSelfTest (pass : Bool) (s : State) : Out :=
  .next (if !s.pwr.keeper then s else
    if s.saf.pond.canSpare ≠ 0 then s else
    let s := modCan (fun v => { v with passed := pass, testCycle := s.cyc.number }) s
    if pass then s else
    let s := pondWear 3 12 s.can.mism true (wearLog 3 12 3 (modPond (fun p => { p with canSpare := 2 }) s))
    let s := emit 0x2008 0x2C s (cause := 3) (flags := 12)
    (List.range 12).foldl (fun s c =>
      if (canAt s c).swap = 0 then s
      else if (canAt s c).swapCause = 1 then condemnOff c s
      else modCanCh c (fun x => { x with swap := 0 }) s) s)

/-- CONTROLLER_SWAP (R272): at an intermission the crossbar moves the channel to C12 with its counters,
error state, slots and queue. -/
def execControllerSwap (c : Nat) (s : State) : Out :=
  guardUnit (decide (c < 12))
    (let x := canAt s c
     if x.swap ≠ 2 ∨ x.onBus ≠ none then s else
     let s := modCanCh c (fun x => { x with ctrl := 12, swap := 0 }) s
     let s := modPond (fun p => { p with canSpare := 1 }) s
     let s := if x.swapCause = 1 then modCan (fun v => { v with bad := v.bad ++ [x.ctrl] }) s else s
     pondIn 3 c s.can.mism (emit 0x2008 c s (cause := x.swapCause) (flags := x.ctrl)))

/-- CAN_DOMINANT_TIMEOUT (R280): the transmitter is released. -/
def execCanDominantTimeout (c : Nat) (s : State) : Out :=
  guardUnit (decide (c < 12)) (if !s.pwr.keeper then s else
    detect 0x051 true (modCanCh c (fun x => { x with stuck := true }) s))

end Sys2Proof.Machine
end

