-- ==== Sys2Proof/Machine/Lin.lean ====
section
/-! DEFINITION. LIN channels: frame and schedule entries, headers and responses, table switching and
collision resolution (R288-R292), wake-up signals (R298) and class LIN. -/
namespace Sys2Proof.Machine

/-! ### Channel state -/

/-- `lin_state` takes a value (R288). -/
def setLinState (c st : Nat) (s : State) : State :=
  if (linAt s c).state = st then s
  else modLinCh c (fun x => { x with state := st, stateCycle := s.cyc.number }) s

/-- NM clusters bound to a LIN channel. -/
def linClusters (s : State) (c : Nat) : List Nat :=
  (List.range 32).filter (fun k => let n := nmcAt s k
    n.en && decide (n.kind = 1 ∧ n.bus = c))

/-- The channel's cluster is Moored (R279). -/
def linMoored (s : State) (c : Nat) : Bool :=
  (linClusters s c).any (fun k => decide ((nmcAt s k).state = .moored))

/-- A channel follows its role and its cluster (R279): off, asleep, or operational from the first slot of its
table. -/
def linSync (c : Nat) (s : State) : State :=
  let x := linAt s c
  if x.role = 0 then
    setLinState c 0 (modLinCh c (fun x => { x with
      running := false, due := false, header := none, armed := if x.state = 0 then x.armed else x.wakeEn }) s)
  else if x.state = 0 then
    if linMoored s c then setLinState c 2 s
    else setLinState c 1 (modLinCh c (fun x => { x with running := true, first := true, left := 0, armed := false }) s)
  else if linMoored s c && !x.goSleep then
    setLinState c 2 (modLinCh c (fun x => { x with running := false, due := false, header := none }) s)
  else s

/-- Bus event of a LIN channel (R319). -/
def linBusEvent (c bit ev info : Nat) (s : State) : State :=
  busEvent (12 + c) bit { chan := 0x40 + c, kind := 1, seq := ((linAt s c).seq + 2 ^ 16 - 1) % 2 ^ 16,
                          ev := some { ev := ev, info := info, tec := 0, recv := 0 } } s

/-- LIN_ERROR (R292). -/
def linError (c cause id : Nat) (s : State) : State :=
  linBusEvent c 4 0x2101 cause (emit 0x2101 c s (cause := cause) (value := id))

/-- LIN_SLEEP (R303): 0 sent, 1 received, 2 bus idle. -/
def linSleep (c cause : Nat) (s : State) : State :=
  linBusEvent c 5 0x2103 cause (emit 0x2103 c s (cause := cause))

/-! ### Schedule (R290-R292) -/

/-- Enabled entries of a table, ascending. -/
def linTable (s : State) (c t : Nat) : List Nat :=
  (List.range 256).filter (fun k => (linSlotAt s (256 * c + k)).en && decide ((linSlotAt s (256 * c + k)).table = t))

/-- The slot at position `p` of table `t` begins. -/
def linBegin (c t p : Nat) (s : State) : State :=
  match (linTable s c t)[p]? with
  | some k => modLinCh c (fun x => { x with
      table := t, entry := p, first := false, left := (linSlotAt s (256 * c + k)).slot, due := true }) s
  | none => modLinCh c (fun x => { x with table := t, entry := 0, first := true, left := 0 }) s

/-- A slot boundary (R292): a switch first, then a collision resolution, then the next entry; a resolution
table that has run once gives way to the interrupted table. -/
def linSlotBoundary (c : Nat) (s : State) : State :=
  let x := linAt s c
  match x.switchTo with
  | some t =>
    emit 0x2102 c (linBegin c t 0 (modLinCh c (fun x => { x with
      switchTo := none, resolving := false, resume := none, resolve := none }) s)) (cause := t)
  | none => match x.resolve with
    | some t =>
      emit 0x2102 c (linBegin c t 0 (modLinCh c (fun x => { x with
        resolve := none, resolving := true, resume := some (x.table, x.entry + 1) }) s)) (cause := t) (flags := 1)
    | none =>
      let p := if x.first then 0 else x.entry + 1
      if p < (linTable s c x.table).length then linBegin c x.table p s
      else match x.resume with
        | some (t, q) =>
          linBegin c t (if q < (linTable s c t).length then q else 0)
            (modLinCh c (fun x => { x with resolving := false, resume := none }) s)
        | none => linBegin c x.table 0 s

/-- A LIN channel at a boundary that is not overrun. -/
def linBoundary (s : State) : State :=
  (List.range 8).foldl (fun s c =>
    let s := linSync c s
    let x := linAt s c
    if x.role ≠ 1 ∨ x.state ≠ 1 ∨ x.running = false then s
    else if 1 < x.left then modLinCh c (fun x => { x with left := x.left - 1 }) s
    else linSlotBoundary c s) s

/-- Frame entry of an identifier. -/
def linEntry (c id : Nat) : Nat := 64 * c + id

/-- Parity bits of a protected identifier (ISO 17987): bit 6 and bit 7 over the identifier's bits. -/
def pidOk (pid : Nat) : Bool :=
  let b := fun k => bitOf k pid
  ((b 0 ^^ b 1 ^^ b 2 ^^ b 4) == b 6) && ((!(b 1 ^^ b 3 ^^ b 4 ^^ b 5)) == b 7)

/-- The protected identifier of an identifier. -/
def pidOf (id : Nat) : Nat := (([0, 64, 128, 192].map (fun p => p + id)).find? pidOk).getD id

/-- The checksum of a frame (R288, R289; PRESUMED: the sum of ISO 17987, an inverted sum of bytes with its carries
added in, over the data and, where enhanced, the protected identifier; classic for 0x3C and 0x3D). -/
def linChecksum (enhanced : Bool) (id : Nat) (d : List Byte) : Nat :=
  let head := if enhanced && decide (id ≠ 0x3C ∧ id ≠ 0x3D) then pidOf id else 0
  255 - d.foldl (fun n b => let m := n + b.toNat; if 255 < m then m - 255 else m) head

/-- A published frame is sent, its data with the checksum: it is no longer updated. -/
def linSent (c id : Nat) (s : State) : State :=
  let f := linFrameAt s (linEntry c id)
  if f.dir = 1 then
    let d := (f.data.take f.len).map (BitVec.ofNat 8)
    modLinCh c (fun x => { x with out := d ++ leBytes 1 (linChecksum f.enhanced id d) })
      (modLinFrame (linEntry c id) (fun f => { f with updated := false }) s)
  else s

/-- The identifier a slot sends, if any (R290). A diagnostic request is pending while a published 0x3C is
updated; its response is awaited until 0x3D has been received (log entry 43). -/
def slotId (s : State) (c : Nat) (e : LinSlot) : Option Nat :=
  match e.kind with
  | 0 => some e.pid
  | 1 => some e.pid
  | 2 => (List.range 64).find? (fun i => bitOf i e.sporadic &&
      decide ((linFrameAt s (linEntry c i)).dir = 1) && (linFrameAt s (linEntry c i)).updated)
  | 3 => if (linFrameAt s (linEntry c 0x3C)).dir = 1 && (linFrameAt s (linEntry c 0x3C)).updated then some 0x3C else none
  | _ => if (linAt s c).diag then some 0x3D else none

/-! ### Class LIN -/

/-- The frame time of R291 fits the slot at period `p` (ns). -/
def slotFits (s : State) (c k p : Nat) : Bool :=
  let e := linSlotAt s (256 * c + k)
  let x := linAt s c
  let len := if e.kind < 2 then (linFrameAt s (linEntry c e.pid)).len else 8
  decide (14 * (34 + (x.breakLen - 13) + 10 * (len + 1)) * nsPerSec ≤ 10 * e.slot * p * x.rate)

/-- Every enabled entry of a channel fits (R291). -/
def linSlotsOk (s : State) (c p : Nat) : Bool :=
  (List.range 256).all (fun k => !(linSlotAt s (256 * c + k)).en || slotFits s c k p)

/-- LIN channel record (R288). -/
def linRec (c : Nat) : Rec :=
  { len := 18
    flds := lift (fun s => linAt s c) (modLinCh c) [
      rwF 0 0 2 (·.role) (fun n x => { x with role := n }) (rng 0 2),
      rwB 0 2 (·.wakeEn) (fun v x => { x with wakeEn := v }), rwB 0 3 (·.term) (fun v x => { x with term := v }),
      rwF 1 0 8 (·.nad) (fun n x => { x with nad := n }) (rng 1 0x7F),
      rwF 2 0 16 (·.rate) (fun n x => { x with rate := n }) (rng 1000 20000),
      rwF 4 0 5 (·.breakLen) (fun n x => { x with breakLen := n }) (rng 13 26),
      rwF 5 0 4 (·.busIdle) (fun n x => { x with busIdle := n }) (rng 4 10),
      rwF 6 0 16 (·.wakePulse) (fun n x => { x with wakePulse := n }) (rng 250 5000),
      rwF 8 0 4 (·.wakeFilter) (fun n x => { x with wakeFilter := n }) (rng 3 15),
      roF 9 0 3 (·.table), roB 9 3 (·.resolving), roF 9 4 2 (·.state), roF 10 0 8 (·.entry), roF 12 0 48 (·.stateCycle)] }

/-- Eight bytes as one code, byte 0 lowest, and back. -/
def dataCode (l : List Nat) : Nat := leNat (l.map (BitVec.ofNat 8))
def codeData (n : Nat) : List Nat := (leBytes 8 n).map (·.toNat)

/-- LIN frame entry (R289). -/
def linFrameRec (e : Nat) : Rec :=
  { len := 22
    flds := lift (fun s => linFrameAt s e) (modLinFrame e) [
      rwF 0 0 2 (·.dir) (fun n f => { f with dir := n }) (rng 0 2), rwB 0 2 (·.enhanced) (fun v f => { f with enhanced := v }),
      roB 0 3 (·.updated), rwF 0 4 4 (·.len) (fun n f => { f with len := n }) (rng 1 8),
      chF 1 0 8 (·.owner) (fun n f => { f with owner := n }), rwF 2 0 14 (·.route) (fun n f => { f with route := n }),
      roF 4 0 16 (·.noResp), rwF 8 0 64 (fun f => dataCode f.data) (fun n f => { f with data := codeData n }),
      roF 16 0 48 (·.cycle)] }

/-- LIN schedule entry (R290). -/
def linSlotRec (k : Nat) : Rec :=
  { len := 16
    flds := lift (fun s => linSlotAt s k) (modLinSlot k) [
      rwB 0 0 (·.en) (fun v e => { e with en := v }), rwF 0 1 3 (·.table) (fun n e => { e with table := n }),
      rwF 0 4 3 (·.kind) (fun n e => { e with kind := n }) (rng 0 4), rwF 1 0 6 (·.pid) (fun n e => { e with pid := n }),
      rwF 2 0 3 (·.resolve) (fun n e => { e with resolve := n }), rwF 4 0 16 (·.slot) (fun n e => { e with slot := n }) (rng 1 65535),
      rwF 8 0 64 (·.sporadic) (fun n e => { e with sporadic := n })] }

def linRecord (i part : Nat) : Option Rec :=
  if part ≠ 0 then none
  else if i < 8 then some (linRec i)
  else if 0x1000 ≤ i ∧ i < 0x1800 then some (linSlotRec (i - 0x1000))
  else if 0x2000 ≤ i ∧ i < 0x2200 then some (linFrameRec (i - 0x2000))
  else none

/-- Checks of a LIN SET (R289, R291). -/
def linCheck (s : State) (_p i part : Nat) (ws : List (Nat × Nat)) : Status :=
  let c := if i < 8 then i else if i < 0x2000 then (i - 0x1000) / 256 else (i - 0x2000) / 64
  let t := asSet 0x21 linRecord i part ws s
  if !(periods s).all (linSlotsOk t c) || breaksRoutes s t then .eRange
  else if decide (i < 8) && ws.any (fun w => decide (w.1 ∈ [0, 3, 16, 32])) && decide ((linAt s c).role ≠ 0) then .eState
  else .ok

/-- A data write sets UPDATED and is dated (R289). -/
def linAfter (_ : State) (i _part : Nat) (ws : List (Nat × Nat)) (s : State) : State :=
  if 0x2000 ≤ i && ws.any (fun w => decide (w.1 = 64)) then
    modLinFrame (i - 0x2000) (fun f => { f with updated := true, cycle := s.cyc.number }) s
  else s

/-- A route write takes effect (R309, R310): the first bytes of `data`. -/
def linRouteWrite (i : Nat) (a : List Byte) (s : State) : State :=
  modLinFrame (i - 0x2000) (fun f =>
    let d := (a.take f.len).map (·.toNat)
    { f with data := d ++ f.data.drop d.length, updated := true, cycle := s.cyc.number }) s

/-- Class LIN (R288-R290, R292). Action 256 is the Aqueduct's write; no payload can name it. -/
def linClass : ClassSpec :=
  { code := 0x21
    ranges := [(0, 8), (0x1000, 2048), (0x2000, 512)]
    record := linRecord
    verbs := [1, 2, 3, 4, 5, 6]
    events := 4
    setAuth := fun s p i _ pos =>
      decide (p = 0) || (decide (0x2000 ≤ i ∧ pos = 64) &&
        decide ((linFrameAt s (i - 0x2000)).owner = p ∧ (linFrameAt s (i - 0x2000)).dir = 1))
    setCheck := linCheck
    setCyc := fun _ _ => true
    after := linAfter
    acts := [
      { code := 1, cyc := true, insts := fun i => decide (i < 8), argOk := fun n => decide (n = 1)
        auth := fun s p i _ => ownerOr0 s p (handleOf s 0x21 i)
        check := fun _ _ _ a => if leAt a 0 1 < 8 then .ok else .eRange
        run := fun _ i a => modLinCh i (fun x => { x with switchTo := some (leAt a 0 1) }) },
      { code := 256, cyc := true, insts := fun i => decide (0x2000 ≤ i), argOk := fun _ => true
        auth := fun _ _ _ _ => true, check := fun _ _ _ _ => .ok
        run := fun _ i a => linRouteWrite i a }] }

/-! ### Meanings -/

/-- LIN_SET (R289). -/
def execLinSet (r : Req) (s : State) : Out := .next (cmdSet linClass r s)
/-- LIN_SWITCH (R292). -/
def execLinSwitch (r : Req) (s : State) : Out := .next (cmdAct linClass 1 r s)

/-- The transceivers work (R280): with the 5 V rail out of range it behaves as in STANDBY. -/
def linLive (s : State) : Bool := s.can.rail5

/-- LIN_SLOT_START (R290): the commander sends the header of the slot that has begun. -/
def execLinSlotStart (c : Nat) (s : State) : Out :=
  guardUnit (decide (c < 8))
    (let x := linAt s c
     if !linLive s then modLinCh c (fun x => { x with due := false }) s
     else if !x.due || decide (x.role ≠ 1 ∨ x.state ≠ 1) then s else
     match (linTable s c x.table)[x.entry]? with
     | none => modLinCh c (fun x => { x with due := false }) s
     | some k =>
       let e := linSlotAt s (256 * c + k)
       let id := slotId s c e
       let s := modLinCh c (fun x => { x with
         due := false, header := id, event := decide (e.kind = 1), diag := x.diag || decide (e.kind = 3 ∧ id.isSome = true) }) s
       match id with
       | some i => linSent c i s
       | none => s)

/-- The response in progress ends in an error that starts a collision resolution (R292). -/
def linCollision (c cause : Nat) (s : State) : State :=
  let x := linAt s c
  match (linTable s c x.table)[x.entry]? with
  | some k => if x.event && decide (cause ∈ [2, 3, 4]) && x.resolve.isNone && !x.resolving then
      modLinCh c (fun x => { x with resolve := some (linSlotAt s (256 * c + k)).resolve }) s else s
  | none => s

/-- LIN_RESPONSE_RECEIVED (R289, R292, R297): a response ends; `err` 0, or the cause of LIN_ERROR 3 to 6 that ended it.
The checksum byte `chk` of a subscribed frame is judged here (cause 2). `sec` and `ns` date the start of the break. The end of the commander's own go-to-sleep frame lets the
transceiver sleep. -/
def execLinResponseReceived (c err : Nat) (data : List Byte) (chk sec ns : Nat) (s : State) : Out :=
  guardUnit (decide (c < 8))
    (let x := linAt s c
     if !linLive s then modLinCh c (fun x => { x with header := none, event := false, goSleep := false }) s else
     match x.header with
     | none => s
     | some id =>
       let e := linFrameAt s (linEntry c id)
       let err := if err = 0 ∧ e.dir = 2 ∧ chk ≠ linChecksum e.enhanced id (data.take e.len) then 2 else err
       let s := modLinCh c (fun x => { x with header := none, event := false, goSleep := false }) s
       if x.goSleep then setLinState c 2 (modLinCh c (fun x => { x with running := false, due := false }) (linSleep c 0 s))
       else if err ≠ 0 then
         linError c err id (linCollision c err (modLinCh c (fun y => { y with event := x.event }) s))
       else
         if e.dir ≠ 2 then s else
         let d := data.take e.len
         let n := d.map (·.toNat)
         let s := modLinFrame (linEntry c id) (fun f => { f with data := n ++ f.data.drop n.length, cycle := s.cyc.number }) s
         let s := modLinCh c (fun y => { y with
           seq := (y.seq + 1) % 2 ^ 16, diag := y.diag && decide (id ≠ 0x3D) }) s
         modAq (fun q => { q with inq := q.inq ++ [{
           frame := { id := id, dlc := d.length, data := d }, chan := 0x40 + c, kind := 1, tow := s.sys.tow
           route := e.route, sec := sec, ns := ns, seq := x.seq }] }) s)

/-- LIN_NO_RESPONSE (R292). -/
def execLinNoResponse (c : Nat) (s : State) : Out :=
  guardUnit (decide (c < 8))
    (match (linAt s c).header with
     | none => s
     | some id =>
       let s := modLinCh c (fun x => { x with header := none, event := false }) s
       if (linFrameAt s (linEntry c id)).dir = 2 then
         linError c 1 id (modLinFrame (linEntry c id) (fun f => { f with noResp := sat 16 (f.noResp + 1) }) s)
       else s)

/-- LIN_HEADER_RECEIVED (R288, R296, R298): a responder takes a header whose sync field gives `rate`. -/
def execLinHeaderReceived (c pid rate : Nat) (s : State) : Out :=
  guardUnit (decide (c < 8))
    (let x := linAt s c
     if x.role ≠ 2 ∨ x.state = 2 ∨ x.state = 0 ∨ linLive s = false then s
     else if 115 * x.rate < 100 * rate ∨ 100 * rate < 85 * x.rate then s
     else if !pidOk pid then linError c 5 (pid % 64) s
     else
       let s := setLinState c 1 (modLinCh c (fun x => { x with
         rateSeen := rate, header := some (pid % 64), event := false, signals := 0, wakeFail := false }) s)
       let s := (linClusters s c).foldl (fun s k => modNmc k (fun n => { n with evPdu := true }) s) s
       linSent c (pid % 64) s)

/-- LIN_GO_TO_SLEEP_RECEIVED (R296, R303). -/
def execLinGoToSleepReceived (c : Nat) (s : State) : Out :=
  guardUnit (decide (c < 8))
    (if (linAt s c).role ≠ 2 ∨ (linAt s c).state = 2 ∨ linLive s = false then s else
     (linClusters s c).foldl (fun s k => modNmc k (fun n => { n with evSleep := true }) s) (linSleep c 1 s))

/-- LIN_BUS_IDLE (R296, R303): no activity for `bus_idle` at a responder. -/
def execLinBusIdle (c : Nat) (s : State) : Out :=
  guardUnit (decide (c < 8))
    (if (linAt s c).role ≠ 2 ∨ (linAt s c).state = 2 then s else
     (linClusters s c).foldl (fun s k => modNmc k (fun n => { n with evIdle := true }) s) (linSleep c 2 s))

/-- `claimed` of a cluster (R293, R300): a pound's claim or the isolated hold. -/
def nmClaimed (s : State) (k : Nat) : Bool :=
  decide ((nmcAt s k).claims ≠ 0) || ((nmcAt s k).central && s.nm.holdOn)

/-- The channel's cluster is claimed. -/
def linClaimed (s : State) (c : Nat) : Bool := (linClusters s c).any (nmClaimed s)

/-- LIN_WAKE_RETRY (R298): no header after a wake-up signal, or 1.5 s after a block of three. -/
def execLinWakeRetry (c : Nat) (s : State) : Out :=
  guardUnit (decide (c < 8))
    (let x := linAt s c
     if x.role ≠ 2 ∨ x.state ≠ 3 ∨ linClaimed s c = false then s
     else if x.signals < 3 then modLinCh c (fun x => { x with signals := x.signals + 1 }) s
     else
       let s := modLinCh c (fun x => { x with signals := 1, wakeFail := true }) s
       if x.wakeFail then s else emit 0x2104 c s)

/-- LIN_SCHEDULE_RESUME (R298): 100 ms after a wake-up signal. -/
def execLinScheduleResume (c : Nat) (s : State) : Out :=
  guardUnit (decide (c < 8))
    (if (linAt s c).role ≠ 1 ∨ (linAt s c).state ≠ 3 then s
     else setLinState c 1 (modLinCh c (fun x => { x with running := true, left := 0 }) s))

end Sys2Proof.Machine
end

