-- ==== Sys2Proof/Machine/Towpath.lean ====
section
/-! DEFINITION. The Towpath (R221-R236): tables, evaluation, steps, hand-back, class TOWPATH. -/
namespace Sys2Proof.Machine

/-! ### Tables (R226-R228) -/

/-- Targets of R227. -/
def isTarget (t : Nat) : Bool := decide (t < 76 ∨ (0x50 ≤ t ∧ t < 0x60) ∨ (0x60 ≤ t ∧ t < 0x66))
def targets : List Nat := (List.range 76) ++ (List.range' 0x50 16) ++ (List.range' 0x60 6)

/-- Address of copy A (0) or B (1) in eMRAM (R226). -/
def tpBase (c : Nat) : Nat := 0x317B0000 + 0x8000 * c

/-- The eight bytes of an entry (R227). -/
def entryBytes (e : TpEntry) : List Byte :=
  leBytes 1 e.target ++ leBytes 1 e.causes ++ leBytes 1 (e.inA + flag 7 e.invA) ++ leBytes 1 (e.inB + flag 7 e.invB) ++
  leBytes 1 (e.op + 4 * e.blink) ++ leBytes 1 e.value ++ leBytes 1 e.duty ++ [0]

/-- An entry of eight bytes. -/
def bytesEntry (b : List Byte) : TpEntry :=
  { target := leAt b 0 1, causes := leAt b 1 1 % 128, inA := leAt b 2 1 % 128, invA := decide (128 ≤ leAt b 2 1)
    inB := leAt b 3 1 % 128, invB := decide (128 ≤ leAt b 3 1), op := leAt b 4 1 % 4, blink := leAt b 4 1 / 4 % 8
    value := leAt b 5 1, duty := leAt b 6 1 }

/-- Bytes filled up with zeros to `n`. -/
def fillTo (n : Nat) (b : List Byte) : List Byte := b ++ List.replicate (n - b.length) 0

/-- Bytes 0x0000-0x7FFB of a table (R227). -/
def tableBody (t : TpTable) : List Byte :=
  let head := leBytes 1 1 ++ leBytes 1 0 ++ leBytes 2 t.entries.length ++ leBytes 4 t.sequence ++ leBytes 2 t.limpFilter ++
    leBytes 2 0 ++ leBytes 4 t.pulldown ++
    (List.range 4).flatMap (fun g => let b := elemOr (167, 84) t.blinks g; leBytes 2 b.1 ++ leBytes 2 b.2)
  let dflt := (List.range 256).flatMap (fun k => leBytes 1 (if isTarget k then tget ctr0 t.dflt k % 4 else 0))
  fillTo 0x7FFC (fillTo 0x100 head ++ dflt ++ t.entries.flatMap entryBytes)

/-- The bytes of a copy, CRC-32C included (R226). -/
def tableBytes (t : TpTable) : List Byte := tableBody t ++ leBytes 4 (crc32c (tableBody t))

/-- The table that the bytes of copy `c` spell (R227). -/
def copyTable (s : State) (c : Nat) : TpTable :=
  let w := fun (off n : Nat) => leNat (memBytes s.mem (tpBase c + off) n)
  { sequence := w 4 4, limpFilter := w 8 2, pulldown := w 12 4
    blinks := (List.range 4).map (fun g => (w (16 + 4 * g) 2, w (18 + 4 * g) 2))
    dflt := targets.foldl (fun r k => tput ctr0 k (w (0x100 + k) 1 % 4) r) []
    count := w 2 2
    entries := (List.range (w 2 2)).map (fun k => bytesEntry (memBytes s.mem (tpBase c + 0x200 + 8 * k) 8)) }

/-- A copy is valid (R226). -/
def copyOk (s : State) (c : Nat) : Bool :=
  let w := fun (off n : Nat) => leNat (memBytes s.mem (tpBase c + off) n)
  !(if c = 0 then s.tp.badA else s.tp.badB) && decide (w 0 1 = 1) && decide (w 2 2 ≤ 4000) &&
  decide (crc32c (memBytes s.mem (tpBase c) 0x7FFC) = w 0x7FFC 4)

/-- The copy the hardware uses: the valid one of higher sequence, A when equal (R226). -/
def newerCopy (s : State) : Option Nat :=
  match copyOk s 0, copyOk s 1 with
  | true, true => if (copyTable s 0).sequence < (copyTable s 1).sequence then some 1 else some 0
  | true, false => some 0
  | false, true => some 1
  | false, false => none

/-- The chosen copy is taken into use; with none every target takes OFF, and the Lockkeeper reports it while it runs
(R226, R236). -/
def useCopies (s : State) : State :=
  match newerCopy s with
  | some c => modTp (fun t => { t with copy := c, noTable := false, table := copyTable s c, adopt := false }) s
  | none =>
    let tell := s.fv.fw && !s.tp.noTable
    let s := modTp (fun t => { t with noTable := true, table := {}, adopt := false }) s
    if tell then emit 0x1703 0 s else s

/-- Copy `c` holds `b` from now on. -/
def writeCopy (c : Nat) (b : List Byte) (s : State) : State :=
  storeBytes (tpBase c) b (modTp (fun t => if c = 0 then { t with badA := false } else { t with badB := false }) s)

/-- A new table goes into the copy that is not in use, with the next sequence (R227). -/
def writeTable (n : TpTable) (s : State) : State :=
  let n := { n with sequence := (s.tp.table.sequence + 1) % 2 ^ 32 }
  modTp (fun t => { t with adopt := true }) (writeCopy (if s.tp.noTable then 0 else 1 - s.tp.copy) (tableBytes n) s)

/-- Highest value of a target (R227). -/
def maxValue (t : Nat) : Nat := if 0x60 ≤ t then 3 else if 64 ≤ t ∧ t < 76 then 2 else 1

/-- Input codes (R227). -/
def inputOk (n : Nat) : Bool := decide (n ≤ 0x20 ∨ (0x28 ≤ n ∧ n ≤ 0x2B) ∨ n = 0x7F)

/-- `blink_on` < `blink_period` of a generator. -/
def blinkOk (t : TpTable) (g : Nat) : Bool :=
  let b := elemOr (167, 84) t.blinks g
  decide (b.2 < b.1)

/-- An entry keeps the rules of R228; the hardware skips one that does not. -/
def entryOk (t : TpTable) (e : TpEntry) : Bool :=
  isTarget e.target && decide (e.value ≤ maxValue e.target) && decide (e.value = 0 ∨ 1 ≤ e.duty) &&
  decide (e.op ≤ 2 ∧ e.blink ≤ 4) && inputOk e.inA && inputOk e.inB && (decide (e.blink = 0) || blinkOk t (e.blink - 1))

/-- A table the Lockkeeper accepts from a chart (R228). -/
def tableChecked (t : TpTable) : Bool :=
  decide (t.entries.length ≤ 4000) && t.entries.all (entryOk t) && (List.range 4).all (blinkOk t) &&
  decide (100 ≤ t.limpFilter ∧ t.limpFilter ≤ 10000)

/-! ### Evaluation (R224, R225, R227) -/

/-- Blink generator `g` at time `t` in ns (R225). -/
def blinkHigh (s : State) (t g : Nat) : Bool :=
  let b := elemOr (167, 84) s.tp.table.blinks g
  decide (t / 4000000 % b.1 < b.2)

/-- Value of an input code. -/
def tpInput (s : State) (t n : Nat) : Bool :=
  if n < 0x20 then (diAt s n).q
  else if n = 0x20 then bitOf 1 s.tp.causes
  else if 0x28 ≤ n ∧ n ≤ 0x2B then blinkHigh s t (n - 0x28)
  else true

/-- Condition of an entry. -/
def tpCond (s : State) (t : Nat) (e : TpEntry) : Bool :=
  let a := tpInput s t e.inA != e.invA
  let b := tpInput s t e.inB != e.invB
  if e.op = 0 then a else if e.op = 1 then a && b else a || b

/-- The entry applies to `target` now. -/
def tpHit (s : State) (t target : Nat) (e : TpEntry) : Bool :=
  decide (e.target = target) && entryOk s.tp.table e && decide (e.causes &&& s.tp.causes ≠ 0) && tpCond s t e &&
  (decide (target < 0x60) || paired s (target - 0x60))

/-- The default of a target under the cause set (R227). -/
def tpDefault (s : State) (target : Nat) : TpOut :=
  let start := bitOf 0 s.tp.causes
  match tget ctr0 s.tp.table.dflt target with
  | 0 => .drive 0 0xFF
  | 1 => .drive 1 0xFF
  | 2 => if start then .drive 0 0xFF else .hold
  | _ => if start || bitOf 2 s.tp.causes then .drive 0 0xFF else if bitOf 4 s.tp.causes then .hold else .pound

/-- What the Towpath decides for a target at time `t` (R224). -/
def tpDecide (s : State) (t target : Nat) : TpOut :=
  if s.tp.noTable then .drive 0 0xFF
  else match s.tp.table.entries.find? (tpHit s t target) with
    | some e => .drive (if e.blink = 0 ∨ blinkHigh s t (e.blink - 1) = true then e.value else 0) e.duty
    | none => tpDefault s target

/-- Every target is evaluated for the step at time `t`. -/
def tpEvaluate (t : Nat) (s : State) : State :=
  let r := targets.foldl (fun r k => tput tpOut0 k (tpDecide s t k) r) []
  modTp (fun x => { x with results := r, evaluated := true }) s

/-- The Towpath's work at a cutoff (R224, R233): evaluation while a cause is set; with none set and the
Lockkeeper running, the hand-back begins. -/
def tpCutoff (s : State) : State :=
  if s.tp.causes ≠ 0 then
    tpEvaluate (workNs s + toBoundary s) (modTp (fun t => { t with handBack := .none }) s)
  else if s.tp.governs && s.fv.fw && decide (s.tp.handBack = .none) then
    modTp (fun t => { t with handBack := .found, hbCycle := s.cyc.number }) s
  else s

/-! ### Steps (R223, R229-R233) -/

/-- Value of a target at engagement (HOLD, R227). -/
def heldValue (s : State) (t : Nat) : Nat :=
  if t < 64 then b2n (isOn (chanAt s t).state)
  else if t < 76 then (if isOn (chanAt s t).state then (chanAt s t).hb else 0)
  else if t < 0x60 then b2n (foAt s (t - 0x50)).out
  else effDrive s (t - 0x60)

/-- Its `duty_now` (R227, R230). -/
def heldDuty (s : State) (t : Nat) : Nat :=
  if t < 76 then (padAt s t).now
  else if t < 0x60 then 0
  else if paired s (t - 0x60) then (padAt s (64 + (brAt s (t - 0x60)).hbA)).now else 0

/-- Takeover: the state at engagement is kept for HOLD, also where the engagement cancels a hand-back (R234); channels
that a hand-back left waiting are the Towpath's. -/
def takeOver (s : State) : State :=
  if s.tp.governs && !s.tp.fresh then s else
  let h := targets.foldl (fun h t => tput ctr0 t (heldValue s t) h) []
  let d := targets.foldl (fun h t => tput ctr0 t (heldDuty s t) h) []
  modTp (fun t => { t with held := h, heldDuty := d, governs := true, fresh := false, waiting := [] }) s

/-- Field outputs that some entry names (R231). -/
def tpNames (s : State) (k : Nat) : Bool := s.tp.table.entries.any (fun e => decide (e.target = 0x50 + k))

/-- The `value` a result drives its target with. -/
def outValue : TpOut → Option Nat
  | .drive v _ => some v
  | .hold | .pound => none

/-- A step: the evaluated results take effect, the named field outputs are refreshed, and a new copy is
adopted while no cause is set. -/
def tpStep (s : State) : State :=
  let s := if s.tp.evaluated then
      let s := takeOver s
      let old := s.tp.applied
      let s := modTp (fun t => { t with applied := t.results, evaluated := false, rcSteps := t.rcSteps + 1 }) s
      (List.range 6).foldl (fun s b =>
        if outValue (tget tpOut0 old (0x60 + b)) = outValue (tget tpOut0 s.tp.applied (0x60 + b)) then s
        else modTp (fun t => { t with bridgeOut := tdel b t.bridgeOut }) s) s
    else s
  let s := if s.tp.governs then
      (List.range 16).foldl (fun s k => if tpNames s k then foRefresh k s else s) s
    else s
  if s.tp.adopt && decide (s.tp.causes = 0) then useCopies s else s

/-- The outputs of governed targets follow the Towpath at a step at which nothing staged takes effect (R223): their
restarts follow R114 with the Towpath's value as the demand (R229), their duty is the Towpath's (R230). -/
def tpOutputs (c : Nat) (s : State) : State :=
  if !s.tp.governs then s else
  let s := (List.range 6).foldl (fun s b => if tpOutOf s (0x60 + b) = .pound then s else bridgeBoundary b s) s
  let go := uvGo s
  let s := (List.range 76).foldl (fun s i =>
    if tpOutOf s (padTarget s i) = .pound then s
    else
      let drove := padDrives s i
      let s := chanBoundary go [] i s
      if drove && (govern s i).duty.isSome then padStep c i s else s) s
  (List.range 16).foldl (fun s k => if tpOutOf s (0x50 + k) = .pound then s else foSet k (foWant s k) s) s

/-- Channels a hand-back has to switch on, in its order (R233). -/
def handBackList (s : State) : List Nat :=
  let t := modTp (fun t => { t with governs := false }) s
  sortBy (prioDown s) ((List.range 76).filter (fun i =>
    decide ((govern t i).on ≠ 0) && decide ((chanAt s i).state = .off)))

/-- While the Lockkeeper runs, governance passes to the pounds at a boundary that is not overrun, a cycle after the empty cause set was
found (R233). -/
def handOver (s : State) : State :=
  if !s.fv.fw then s else
  match s.tp.handBack with
  | .folding =>
    let s := modTp (fun t => { t with governs := false, handBack := .switching, applied := [], held := [], heldDuty := [], bridgeOut := [] }) s
    let s := modTp (fun t => { t with waiting := handBackList s }) s
    emit 0x1702 0 s
  | .switching => if s.tp.waiting = [] then modTp (fun t => { t with handBack := .none }) s else s
  | _ => s

/-! ### Class TOWPATH (R235) -/

/-- Status record. -/
def tpRec : Rec :=
  { len := 16
    flds := [liveF 0 0 7 (·.tp.causes), liveF 0 7 1 (fun s => b2n (decide (s.tp.causes ≠ 0))),
      liveF 1 0 1 (fun s => b2n (!s.cyc.running)), liveF 1 1 1 (·.tp.copy), liveF 1 2 1 (fun s => b2n s.tp.noTable),
      liveF 1 3 1 (fun s => b2n (decide (s.tp.handBack ≠ .none))), liveF 2 0 16 (·.tp.table.count),
      liveF 4 0 32 (·.tp.table.sequence), liveF 8 0 48 (·.tp.engagedCycle)] }

/-- Class TOWPATH (R235, R439). -/
def tpClass : ClassSpec :=
  { code := 0x17
    ranges := [(0, 1)]
    record := fun _ part => if part = 0 then some tpRec else none
    verbs := [1, 3, 4]
    events := 4
    acts := [
      { code := 1, cyc := false, argOk := fun n => decide (n = 0)
        auth := fun _ p _ _ => decide (p = 0), check := fun _ _ _ _ => .ok
        run := fun _ _ _ => tpSet 6 },
      { code := 2, cyc := false, argOk := fun n => decide (n = 0)
        auth := fun _ p _ _ => decide (p = 0)
        check := fun s _ _ _ => if bitOf 6 s.tp.causes then .ok else .eState
        run := fun _ _ _ => tpClear 6 }] }

/-! ### Meanings -/

/-- TOWPATH_ENGAGE (R235). -/
def execTowpathEngage (r : Req) (s : State) : Out := .next (cmdAct tpClass 1 r s)
/-- TOWPATH_RELEASE (R235). -/
def execTowpathRelease (r : Req) (s : State) : Out := .next (cmdAct tpClass 2 r s)

/-- LIMP_SET (R221): LIMP_N has been low for `limp_filter`. The Lockkeeper sets the cause while it runs (R222); one that
starts finds the level (`completeStart`). -/
def execLimpSet (s : State) : Out :=
  .next (let s := modSys (fun y => { y with limpN := false }) s
         if s.pwr.keeper && s.fv.fw then tpSet 1 s else s)
/-- LIMP_CLEAR (R221): LIMP_N has been high for `limp_filter`. -/
def execLimpClear (s : State) : Out :=
  .next (let s := modPwr (fun p => { p with reasonAt := if s.sys.limpN then p.reasonAt else p.age }) (modSys (fun y => { y with limpN := true }) s)
         if s.pwr.keeper then tpClear 1 s else s)

/-- Wetting direction in force at an input: `di_pulldown` gives it in RC mode before a chart is loaded, else the input's
record (R223). -/
def wetDownNow (s : State) (k : Nat) : Bool :=
  if !s.cyc.running && !s.img.chartOn then bitOf k s.tp.table.pulldown else (diAt s k).wetDown

/-- TOWPATH_RC_STEP (R223): a step without the cycle timer. The field I/O block samples and filters on it, trips of the
step are taken (R229), and the Paddles run on steps as on cycles of 250 µs (R230). -/
def execTowpathRcStep (x : Samples) (s : State) : Out :=
  .next (if !s.pwr.keeper then s else
    if s.cyc.running then s else
    let s0 := s
    let s := padsLatch s0 (s.pwr.age - s.tp.stepAt) s
    let s := levelField (fillFo x (fillIn x s))
    let s := levelChans (recordTrips s)
    let s := if s.tp.causes ≠ 0 then tpEvaluate (s.tp.rcSteps * 250000) s else s
    let s := modTp (fun t => { t with stepAt := s.pwr.age }) (tpStep s)
    settleWaves s0 (fosBoundary (tpOutputs s.tp.rcSteps s)))

/-- TOWPATH_TABLE_READ (R226): both copies are read and the valid newer one is used; without one every target
takes OFF. -/
def execTowpathTableRead (s : State) : Out := .next (if !s.pwr.keeper then s else
    useCopies s)

/-- The copies that fail are marked. -/
def spoilCopies (badA badB : Bool) (s : State) : State :=
  modTp (fun t => { t with badA := t.badA || badA, badB := t.badB || badB }) s

/-- A failing copy is replaced by the other; with none valid NO_TABLE is set (R226). -/
def repairCopies (s : State) : State :=
  let mend := fun (a b : Nat) => useCopies (writeCopy a (memBytes s.mem (tpBase b) 0x8000) s)
  match copyOk s 0, copyOk s 1 with
  | true, false => mend 1 0
  | false, true => mend 0 1
  | true, true => s
  | false, false => useCopies s

/-- TOWPATH_TABLE_CHECK (R553 0x045): `badA` and `badB` are the copies that fail now. A failing copy is
replaced by the other; with none valid NO_TABLE is set. -/
def execTowpathTableCheck (badA badB : Bool) (s : State) : Out :=
  .next (
    let was := newerCopy s
    let s := spoilCopies badA badB s
    if !(badA || badB) || was.isNone then s else repairCopies (detect 0x045 false s))

end Sys2Proof.Machine
end

