-- ==== Sys2Proof/Machine/Wake.lean ====
section
/-! DEFINITION. Wake reasons and the registration of a wake (R282-R286, R302, R582, R585, R589). -/
namespace Sys2Proof.Machine

/-- An AWAKE input lies above its threshold (R585). -/
def awakeAbove (s : State) : Bool := (awakeAt s 0).above || (awakeAt s 1).above

/-- A wake reason of R286 is present. -/
def wakeReason (s : State) : Bool :=
  !s.sys.limpN || awakeAbove s ||
  (match s.pwr.lastWake with
   | some t => decide (s.pwr.age < t + s.nm.sleepPath * nsPerSec)
   | none => false)

/-- The conditions of R583: every enabled NM cluster Moored, no claim, no wake reason. -/
def autoQuiet (s : State) : Bool :=
  s.pwr.auto && s.fv.started && decide (s.pwr.state < 3) && !wakeReason s &&
  (List.range 32).all (fun k => let n := nmcAt s k; !n.en || (decide (n.state = .moored) && decide (n.claims = 0)))

/-- The conditions are looked at on every boundary; `quietAt` keeps since when they have held. -/
def quietBoundary (s : State) : State :=
  let ok := autoQuiet s
  modPwr (fun p => { p with quietAt := if ok then some (p.quietAt.getD s.tide.counter) else none }) s

/-- Sleeping T1 ports with `wake_fwd` send a wake-up (R302). -/
def forwardWake (s : State) : State :=
  (List.range 8).foldl (fun s k =>
    if (portAt s k).link = 2 && (t1At s k).fwd then setLink k 3 s else s) s

/-- The power state takes a value; POWER_STATE (R588). -/
def setPowerState (n : Nat) (auto : Bool) (s : State) : State :=
  if s.pwr.state = n then s
  else
    let old := s.pwr.state
    emit 0x7002 0 (modPwr (fun p => { p with state := n }) s) (cause := n) (flags := old + flag 2 auto)

/-- POWER_WAKE (R588) with its record. -/
def wakeRecord (src det : Nat) (s : State) : State := modPwr (fun p => { p with source := src, detail := det }) s

/-- VCORE returns at PL0 and `level` is restored from there (R581). -/
def vcoreReturn (t : Nat) (s : State) : State :=
  modPwr (fun p => { p with
    vcoreEn := true, clk := 0, change := some { target := p.level, restore := true }, trans := some { target := t } }) s

/-- An entry into SLEEP is aborted (R582): ACTIVE, POWER_WAKE, and the outputs come back as at a hand-back
(R233, step 3). With VCORE off the way to ACTIVE is the exit from STANDBY (R581), once nothing keeps VCORE off. -/
def abortSleep (src det : Nat) (s : State) : State :=
  let s := modPwr (fun p => { p with trans := none, armed := false, latched := none, want := 0 }) s
  let s := wakeRecord src det s
  let s := if s.pwr.vcoreEn then setPowerState 0 false s
    else if s.pwr.forced || s.pwr.vcoreBar then setPowerState 2 false s
    else vcoreReturn 0 (setPowerState 2 false s)
  let s := modTp (fun t => { t with handBack := if t.governs then t.handBack else .switching, waiting := handBackList s }) s
  emit 0x7003 0x20 s (cause := src) (value := det)

/-- A wake is registered (R286, R582, R586, R589): in SLEEP it causes a start, whose source reads 10 within
200 µs of SLEEP entry; an entry in progress is aborted; otherwise it is a wake reason for `sleep_path`. -/
def regWake (src det : Nat) (s : State) : State :=
  let s := forwardWake (modPwr (fun p => { p with lastWake := some s.pwr.age }) s)
  if s.pwr.slept then
    if s.pwr.cause.isSome then s
    else
      let src := if s.pwr.age < s.pwr.sleptAt + 200000 then 10 else src
      wakeRecord src det (modPwr (fun p => { p with cause := some (src, det) }) s)
  else if s.pwr.state = 3 then abortSleep src det s
  else if s.pwr.armed then modPwr (fun p => { p with latched := if p.latched.isSome then p.latched else some (src, det) }) s
  else s

end Sys2Proof.Machine
end

