-- ==== Sys2Proof/Machine/Nm.lean ====
section
/-! DEFINITION. Network management: wake detectors (R282-R284), the cluster state machine and its PDUs
(R293-R299), isolation and keep-awake reports (R300, R301), TC10 (R302) and class NM. -/
namespace Sys2Proof.Machine

/-! ### Wake detectors -/

/-- A wake detector of a bus is armed (R279, R297): 0 CAN, 1 LIN. T1 ports arm with their sleep. -/
def armBus (kind bus : Nat) (s : State) : State :=
  if kind = 0 then armCan bus s
  else if kind = 1 then modLinCh bus (fun x => { x with armed := x.wakeEn }) s
  else s

/-- A bus is in NORMAL: its wake detector is off. -/
def disarmBus (kind bus : Nat) (s : State) : State :=
  if kind = 0 then disarmCan bus s else if kind = 1 then modLinCh bus (fun x => { x with armed := false }) s else s

/-- A bus wake is registered (R282, R302): NM_WAKE, the clusters of the bus, and the device. `src` is the
source of the wake record. -/
def busWake (kind bus src : Nat) (selective : Bool) (s : State) : State :=
  let s := (List.range 32).foldl (fun s k =>
    let n := nmcAt s k
    if n.en && decide (n.kind = kind ∧ n.bus = bus) then modNmc k (fun n => { n with evWake := true }) s else s) s
  let inst := if kind = 0 then 0x100 + bus else if kind = 1 then 0x200 else 0x120 + bus
  regWake src bus (emit 0x2202 inst s (cause := kind) (flags := b2n selective) (value := bus))

/-- A CAN detector registers its wake: one per arming. -/
def canWakes (c : Nat) (selective : Bool) (s : State) : State :=
  busWake 0 c 3 selective (modNm (fun v => { v with wakes := tmod canWake0 c (fun w => { w with armed := false }) v.wakes }) s)

/-- Wake-frame match (R284). Data bytes beyond the DLC count as zero. -/
def wakeFrame (g : CanWakeCfg) (f : CanFrame) : Bool :=
  (f.ide == g.ide) && decide (f.id &&& g.idMask = g.id &&& g.idMask) && (!g.dlcEn || decide (f.dlc = g.dlc)) &&
  (decide (leNat (f.data.take (min f.dlc 8)) &&& g.dataMask ≠ 0) || decide (g.dataMask = 0))

/-- The selective-wake error counter moves; at 32 it wakes (R284). -/
def wakeErr (c : Nat) (up : Bool) (s : State) : State :=
  let s := modNm (fun v => { v with wakes := tmod canWake0 c (fun w => { w with
    err := if up then min 32 (w.err + 1) else w.err - 1 }) v.wakes }) s
  if up && decide ((canWakeAt s c).err = 32) then canWakes c false s else s

/-- An armed detector judges a stimulus (R282, R284). -/
def canStimulus (c : Nat) (x : CanStim) (s : State) : State :=
  let g := (canWakeAt s c).live
  match x with
  | .wup a b d t =>
    if g.kind = 0 ∧ 250 * g.tFilter ≤ a ∧ 250 * g.tFilter ≤ b ∧ 250 * g.tFilter ≤ d ∧ t ≤ 1000000 * g.tWup then canWakes c false s
    else if g.kind = 2 ∧ (250 * g.tFilter ≤ a ∨ 250 * g.tFilter ≤ d) then canWakes c false s else s
  | .activity a => if g.kind = 2 ∧ 250 * g.tFilter ≤ a then canWakes c false s else s
  | .frame f =>
    if g.kind ≠ 1 then s
    else if f.kind ≠ 0 then (if g.fdPassive then s else wakeErr c true s)
    else
      let s := wakeErr c false s
      if !f.rtr && wakeFrame g f then canWakes c true s else s
  | .badFrame => if g.kind = 1 then wakeErr c true s else s

/-! ### Cluster state machine (R293-R298) -/

/-- Code of a cluster state. -/
def NmState.code : NmState → Nat
  | .moored => 0 | .castingOff => 1 | .underway => 2 | .mooring => 3

/-- A change of state with NM_STATE (R296). -/
def nmEnter (k : Nat) (n : NmState) (cause : Nat) (s : State) : State :=
  let old := (nmcAt s k).state
  emit 0x2201 k (modNmc k (fun c => { c with state := n, stateCycle := s.cyc.number }) s) (cause := cause)
    (flags := n.code + 4 * old.code)

/-- The NM PDU of a cluster (R294), with `sent` already counted. -/
def nmPdu (s : State) (k : Nat) : List Byte :=
  let n := nmcAt s k
  leBytes 1 1 ++ leBytes 1 n.node ++
    leBytes 1 (b2n (nmClaimed s k) + flag 1 n.repOut + flag 2 n.byClaim + flag 3 (decide (n.pn ≠ 0))) ++
    leBytes 1 n.sent ++ (leBytes 4 n.pn).reverse

/-- A PDU is queued (R294, R295). LIN clusters carry none. -/
def nmSend (k : Nat) (s : State) : State :=
  let n := nmcAt s k
  if n.kind = 1 then s else
  let s := modNmc k (fun c => { c with sent := min 255 (c.sent + 1) }) s
  let b := nmPdu s k
  if n.kind = 0 then
    enqueueCan n.bus { frame := { id := (n.pduId + n.node) % 2 ^ 29, ide := n.pduIde, dlc := 8, data := b }, src := .nm
                       enq := s.tide.counter } s
  else
    let own := (List.range 4).find? (fun i => (tget iface0 s.fv.ifaces i).en &&
      decide ((tget iface0 s.fv.ifaces i).v6 = decide (2 ^ 32 ≤ n.group)))
    let src := match own with | some i => (tget iface0 s.fv.ifaces i).addr | none => 0
    let v6 := decide (2 ^ 32 ≤ n.group)
    keeperSend (some n.bus) (udpFrame v6 (groupMac v6 n.group) 0 src n.group (n.pduId % 2 ^ 16) (n.pduId % 2 ^ 16) b) s

/-- A LIN channel follows its cluster out of Moored (R296, R298): a commander sends a wake-up signal; a
responder does when its cluster is claimed. -/
def linCastOff (c : Nat) (claimed : Bool) (s : State) : State :=
  let x := linAt s c
  if x.role = 1 then setLinState c 3 (modLinCh c (fun x => { x with goSleep := false, header := none }) s)
  else if x.role = 2 then
    if claimed then setLinState c 3 (modLinCh c (fun x => { x with signals := 1, wakeFail := false }) s)
    else setLinState c 1 s
  else s

/-- Entry to Casting off (R296); `next` has a PDU sent at the next boundary. -/
def nmCastOff (k cause : Nat) (next : Bool) (s : State) : State :=
  let n := nmcAt s k
  let s := modNmc k (fun c => { c with
    sent := 0, byClaim := decide (n.state = .moored ∧ (cause = 0 ∨ cause = 5)), repOut := decide (cause = 4), pduNow := next }) s
  let s := if n.state = .moored then
      let s := disarmBus n.kind n.bus s
      if n.kind = 1 then linCastOff n.bus (nmClaimed s k) s
      else if n.kind = 2 ∧ (portAt s n.bus).link = 2 then setLink n.bus 3 s
      else s
    else s
  forwardWake (nmEnter k .castingOff cause s)

/-- A port asks its peer for sleep when every cluster bound to it is Moored (R302). -/
def portSleep (port : Nat) (s : State) : State :=
  let t := t1At s port
  if t.en && decide ((portAt s port).link = 1) && (List.range 32).all (fun k => let n := nmcAt s k
      !(n.en && decide (n.kind = 2 ∧ n.bus = port)) || decide (n.state = .moored))
  then modT1 port (fun t => { t with asking := true }) s else s

/-- Entry to Moored and the sleep sequence (R297): CAN follows by R281, a LIN commander sends go-to-sleep
first, a T1 port with TC10 asks for sleep, and a PHY without is off with its cluster (R302). -/
def nmMoor (k : Nat) (s : State) : State :=
  let n := nmcAt s k
  let s := nmEnter k .moored 3 (modNmc k (fun c => { c with repOut := false, byClaim := false, seen := [], repeaters := 0 }) s)
  if n.kind = 1 then
    if (linAt s n.bus).role = 1 then
      modLinCh n.bus (fun x => { x with goSleep := true, header := some 0x3C, running := false, due := false }) s
    else if (linAt s n.bus).role = 2 then setLinState n.bus 2 s
    else s
  else if n.kind = 2 ∧ n.bus < 8 then portSleep n.bus s
  else if n.kind = 2 then setLink n.bus 0 s
  else s

/-- The cluster is a LIN responder's (R296). -/
def nmResponder (s : State) (n : NmCluster) : Bool := decide (n.kind = 1) && decide ((linAt s n.bus).role = 2)

/-- A wake comes after the arming of the sleep sequence (R297, R299): its PDU is queued at the boundary itself. -/
def nmArmed (s : State) (n : NmCluster) : Bool := decide (n.kind = 0) && (canWakeAt s n.bus).armed

/-- Mooring is left for Underway; `late` when the detector was armed already (R296, R299). -/
def nmBack (k cause : Nat) (s : State) : Bool × State :=
  let n := nmcAt s k
  let late := nmArmed s n
  (late, nmEnter k .underway cause (modNmc k (fun c => { c with pduNow := !late }) (disarmBus n.kind n.bus s)))

/-- The state machine of one cluster at a boundary (R296, R299), from its record `n`, and whether a PDU is queued
there. -/
def nmMove (n : NmCluster) (k : Nat) (s : State) : Bool × State :=
  let claimed := nmClaimed s k
  let why := if n.claims ≠ 0 then 0 else 5
  let resp := nmResponder s n
  match n.state with
  | .moored =>
    if claimed then (true, nmCastOff k why false s)
    else if n.evWake then (true, nmCastOff k 2 false s)
    else (false, s)
  | .castingOff =>
    (n.pduNow, if n.evRepeatEnd then nmEnter k .underway 3 (modNmc k (fun c => { c with repOut := false, byClaim := false }) s)
      else s)
  | .underway =>
    if n.evRepeatPdu then (n.pduNow, nmCastOff k 1 false s)
    else if n.evRepeat then (n.pduNow, nmCastOff k 4 false s)
    else if resp then
      (n.pduNow, if n.evSleep then nmEnter k .mooring 1 s else if n.evIdle then nmEnter k .mooring 3 s else s)
    else (n.pduNow, if !claimed && n.evTimeout && !n.evPdu then nmEnter k .mooring 3 s else s)
  | .mooring =>
    if claimed then nmBack k why s
    else if n.evRepeatPdu then (false, nmCastOff k 1 true (disarmBus n.kind n.bus s))
    else if n.evPdu then nmBack k 1 s
    else if n.evWake then (true, nmEnter k .underway 2 (disarmBus n.kind n.bus s))
    else if resp || n.evWait then (false, nmMoor k s)
    else (false, s)

/-- One cluster at a boundary (R295, R296, R299). -/
def nmStep (k : Nat) (s : State) : State :=
  let n := nmcAt s k
  if !n.en then s else
  let (pdu, s) := nmMove n k (modNmc k (fun c => { c with pduNow := false }) s)
  let m := n.tMsg * 10000000 / s.cyc.period
  let st := (nmcAt s k).state
  let turn := decide (s.cyc.number % m = n.node % m) &&
    (decide (st = .castingOff) || (decide (st = .underway) && nmClaimed s k))
  let s := if pdu || turn then nmSend k s else s
  modNmc k (fun c => { c with
    evPdu := false, evRepeatPdu := false, evRepeat := false, evWake := false, evRepeatEnd := false
    evTimeout := false, evWait := false, evSleep := false, evIdle := false
    seen := if nmClaimed s k then [] else c.seen, repeaters := if nmClaimed s k then 0 else c.repeaters }) s

/-- Every cluster at a boundary. -/
def nmBoundary (s : State) : State := (List.range 32).foldl (fun s k => nmStep k s) s

/-- Apply phase (R297): the detectors of clusters whose `t_wait` ends at the coming boundary are armed. -/
def nmApply (s : State) : State :=
  (List.range 32).foldl (fun s k =>
    let n := nmcAt s k
    if n.en && decide (n.state = .mooring) && (n.evWait || nmResponder s n) &&
        !(nmClaimed s k || n.evPdu || n.evRepeatPdu) then armBus n.kind n.bus s else s) s

/-! ### Class NM -/

/-- Cluster record (R293). -/
def nmcRec (k : Nat) : Rec :=
  { len := 32
    flds := lift (fun s => nmcAt s k) (modNmc k) [
        rwB 0 0 (·.en) (fun v n => { n with en := v }), rwF 0 1 2 (·.kind) (fun v n => { n with kind := v }) (rng 0 2),
        rwB 0 3 (·.central) (fun v n => { n with central := v }), rwF 1 0 8 (·.bus) (fun v n => { n with bus := v }) (rng 0 11),
        rwF 2 0 8 (·.node) (fun v n => { n with node := v }), rwF 3 0 8 (·.tMsg) (fun v n => { n with tMsg := v }) (rng 1 200),
        rwF 4 0 16 (·.tTimeout) (fun v n => { n with tTimeout := v }) (rng 100 10000),
        rwF 6 0 16 (·.tRepeat) (fun v n => { n with tRepeat := v }) (rng 0 10000),
        rwF 8 0 16 (·.tWait) (fun v n => { n with tWait := v }) (rng 100 10000),
        rwF 10 0 16 (·.tWatch) (fun v n => { n with tWatch := v }) (rng 10 3600),
        rwF 12 0 29 (·.pduId) (fun v n => { n with pduId := v }), rwB 12 29 (·.pduIde) (fun v n => { n with pduIde := v }),
        rwF 16 0 32 (·.pn) (fun v n => { n with pn := v }), roF 20 0 2 (fun n => n.state.code)] ++
      [liveF 20 2 1 (fun s => b2n (nmClaimed s k))] ++
      lift (fun s => nmcAt s k) (modNmc k) [roF 22 0 32 (·.claims), roF 26 0 48 (·.stateCycle)] }

/-- A setting of a wake detector. -/
def wkF (byte bit w : Nat) (get : CanWakeCfg → Nat) (set : Nat → CanWakeCfg → CanWakeCfg) (ok : Nat → Bool := fun _ => true) :
    UFld CanWake :=
  rwF byte bit w (fun x => get x.cfg) (fun n x => { x with cfg := set n x.cfg }) ok

/-- A CAN wake detector changed. -/
def modWake (c : Nat) (f : CanWake → CanWake) (s : State) : State :=
  modNm (fun v => { v with wakes := tmod canWake0 c f v.wakes }) s

/-- CAN wake settings (R282). -/
def wakeRec (c : Nat) : Rec :=
  { len := 24
    flds := lift (fun s => canWakeAt s c) (modWake c) [
      wkF 0 0 1 (fun g => b2n g.en) (fun n g => { g with en := decide (n = 1) }),
      wkF 0 1 2 (·.kind) (fun n g => { g with kind := n }) (rng 0 2),
      wkF 0 3 1 (fun g => b2n g.fdPassive) (fun n g => { g with fdPassive := decide (n = 1) }),
      wkF 0 4 1 (fun g => b2n g.ide) (fun n g => { g with ide := decide (n = 1) }),
      wkF 0 5 1 (fun g => b2n g.dlcEn) (fun n g => { g with dlcEn := decide (n = 1) }),
      wkF 0 6 2 (·.rate) (fun n g => { g with rate := n }), wkF 1 0 5 (·.tFilter) (fun n g => { g with tFilter := n }) (rng 2 20),
      wkF 2 0 4 (·.tWup) (fun n g => { g with tWup := n }) (rng 1 10), wkF 2 4 4 (·.dlc) (fun n g => { g with dlc := n }) (rng 0 8),
      wkF 4 0 29 (·.id) (fun n g => { g with id := n }), wkF 8 0 29 (·.idMask) (fun n g => { g with idMask := n }),
      wkF 12 0 64 (·.dataMask) (fun n g => { g with dataMask := n }), roF 20 0 8 (·.err)] }

/-- T1 port settings (R302). -/
def t1Rec (k : Nat) : Rec :=
  { len := 4
    flds := lift (fun s => t1At s k) (modT1 k) [
      rwB 0 0 (·.en) (fun v t => { t with en := v }), rwB 0 1 (·.fwd) (fun v t => { t with fwd := v }),
      rwB 0 2 (·.accept) (fun v t => { t with accept := v }), roF 2 0 16 (·.rej)] ++
      [liveF 1 0 2 (fun s => (portAt s k).link)] }

/-- Global record (R301). -/
def nmGlobalRec : Rec :=
  { len := 52
    flds := [⟨0, 16, true, rng 1 600, (·.nm.sleepPath), fun n => modNm (fun v => { v with sleepPath := n })⟩,
        ⟨16, 16, true, rng 0 600, (·.nm.isoHold), fun n => modNm (fun v => { v with isoHold := n })⟩,
        liveF 4 0 8 (·.nm.report.cluster), liveF 5 0 8 (·.nm.report.nodes.length),
        liveF 8 0 32 (·.nm.report.pounds), liveF 12 0 48 (·.nm.report.cycle)] ++
      (List.range 8).flatMap (fun k => [
        liveF (20 + 4 * k) 0 8 (fun s => (elemOr ⟨0, 0, 0⟩ s.nm.report.nodes k).node),
        liveF (21 + 4 * k) 0 8 (fun s => (elemOr ⟨0, 0, 0⟩ s.nm.report.nodes k).sent),
        liveF (22 + 4 * k) 0 16 (fun s => (elemOr ⟨0, 0, 0⟩ s.nm.report.nodes k).pdus)]) }

def nmRecord (i part : Nat) : Option Rec :=
  if part ≠ 0 then none
  else if i < 32 then some (nmcRec i)
  else if 0x100 ≤ i ∧ i < 0x10C then some (wakeRec (i - 0x100))
  else if 0x120 ≤ i ∧ i < 0x128 then some (t1Rec (i - 0x120))
  else if i = 0x200 then some nmGlobalRec
  else none

/-- Nominal bit of `sw_rate` in clock periods (R283). -/
def swClocks (rate : Nat) : Nat := 1280 / 2 ^ rate

/-- The cluster's own rules (R293, R294). -/
def nmcOk (n : NmCluster) : Bool :=
  decide (20 * n.tMsg ≤ n.tTimeout) && (n.kind ≠ 1 || decide (n.bus < 8)) &&
  (n.kind ≠ 0 || n.pduIde || decide (n.pduId ≤ 0x700))

/-- Checks of an NM SET (R283, R293, R294). -/
def nmCheck (s : State) (_p i part : Nat) (ws : List (Nat × Nat)) : Status :=
  let t := asSet 0x22 nmRecord i part ws s
  if i < 32 then
    let n := nmcAt t i
    if !nmcOk n then .eRange
    else if n.en && (List.range 32).any (fun k => decide (k ≠ i) && (nmcAt t k).en &&
        decide ((nmcAt t k).kind = n.kind ∧ (nmcAt t k).bus = n.bus)) then .eRange
    else .ok
  else if 0x100 ≤ i ∧ i < 0x10C then
    let g := (canWakeAt t (i - 0x100)).cfg
    let c := (canAt s (i - 0x100)).cfg
    if g.kind = 1 ∧ bitClocks c.nbrp c.ntseg1 c.ntseg2 ≠ swClocks g.rate then .eRange else .ok
  else .ok

/-- A claim of a pound is set or cleared (R293). -/
def setClaim (k p : Nat) (on : Bool) (s : State) : State :=
  modNmc k (fun n => { n with claims :=
    if on then n.claims ||| 2 ^ p else if bitOf p n.claims then n.claims - 2 ^ p else n.claims }) s

/-- Class NM (R293, R439). -/
def nmClass : ClassSpec :=
  { code := 0x22
    ranges := [(0, 32), (0x100, 12), (0x120, 8), (0x200, 1)]
    record := nmRecord
    verbs := [1, 2, 3, 4, 5, 6]
    events := 6
    setCheck := nmCheck
    setCyc := fun _ _ => true
    acts := [
      { code := 1, cyc := true, insts := fun i => decide (i < 32), argOk := fun n => decide (n = 0)
        auth := fun _ _ _ _ => true, check := fun _ _ _ _ => .ok, run := fun p i _ => setClaim i p true },
      { code := 2, cyc := true, insts := fun i => decide (i < 32), argOk := fun n => decide (n = 0)
        auth := fun _ _ _ _ => true, check := fun _ _ _ _ => .ok, run := fun p i _ => setClaim i p false },
      { code := 3, cyc := true, insts := fun i => decide (i < 32), argOk := fun n => decide (n = 0)
        auth := fun _ _ _ _ => true, check := fun _ _ _ _ => .ok
        run := fun p i _ => modNmc i (fun n => { n with evRepeat := true, repeaters := n.repeaters ||| 2 ^ p }) },
      { code := 4, cyc := true, insts := fun i => decide (0x120 ≤ i ∧ i < 0x128), argOk := fun n => decide (n = 0)
        auth := fun _ p _ _ => decide (p = 0), check := fun _ _ _ _ => .ok
        run := fun _ i _ s => if (t1At s (i - 0x120)).en && decide ((portAt s (i - 0x120)).link = 1) then
          modT1 (i - 0x120) (fun t => { t with asking := true }) s else s }] }

/-! ### Meanings -/

/-- NM_REQUEST (R293). -/
def execNmRequest (r : Req) (s : State) : Out := .next (cmdAct nmClass 1 r s)
/-- NM_RELEASE (R293). -/
def execNmRelease (r : Req) (s : State) : Out := .next (cmdAct nmClass 2 r s)
/-- NM_REPEAT (R296). -/
def execNmRepeat (r : Req) (s : State) : Out := .next (cmdAct nmClass 3 r s)
/-- NM_LINK_SLEEP (R302). -/
def execNmLinkSleep (r : Req) (s : State) : Out := .next (cmdAct nmClass 4 r s)
/-- NM_SET (R293). -/
def execNmSet (r : Req) (s : State) : Out := .next (cmdSet nmClass r s)

/-- CAN_WAKE (R282, R284): what the detector of channel `c` sees. -/
def execCanWake (c : Nat) (x : CanStim) (s : State) : Out :=
  guardUnit (decide (c < 12)) (if (canWakeAt s c).armed then canStimulus c x s else s)

/-- LIN_WAKE (R282): the bus of channel `c` stays dominant for `dom` µs. -/
def execLinWake (c dom : Nat) (s : State) : Out :=
  guardUnit (decide (c < 8))
    (let x := linAt s c
     if x.armed && decide (10 * x.wakeFilter ≤ dom) then
       busWake 1 c 4 false (modLinCh c (fun x => { x with armed := false }) s) else s)

/-- What a cluster has seen, with one more PDU of a node (R301). -/
def addSeen (node sent : Nat) : List NmSeen → List NmSeen
  | [] => [⟨node, 1, sent⟩]
  | x :: r => if x.node = node then { x with pdus := sat 16 (x.pdus + 1), sent := max x.sent sent } :: r
              else x :: addSeen node sent r

/-- The cluster receives PDUs on CAN identifiers `pdu_id` to `pdu_id` + 255, or on its UDP port (R294). -/
def nmListens (n : NmCluster) (id : Nat) (ide : Bool) : Bool :=
  match n.kind with
  | 0 => (ide == n.pduIde) && rng n.pduId (n.pduId + 255) id
  | 1 => false
  | _ => decide (id = n.pduId % 2 ^ 16)

/-- NM_PDU_RECEIVED (R294, R296, R301): eight bytes on the cluster's bus, in a CC frame with identifier `id` or a UDP
datagram to port `id`. -/
def execNmPduReceived (k id : Nat) (ide : Bool) (b : List Byte) (s : State) : Out :=
  guardUnit (decide (k < 32))
    (let n := nmcAt s k
     if !n.en || !nmListens n id ide ||
         decide (n.state = .moored ∨ b.length ≠ 8 ∨ leAt b 0 1 ≠ 1 ∨ 16 ≤ leAt b 2 1) then s
     else
       let rep := bitOf 1 (leAt b 2 1)
       modNmc k (fun n => { n with
         evPdu := n.evPdu || !rep, evRepeatPdu := n.evRepeatPdu || rep
         seen := addSeen (leAt b 1 1) (leAt b 3 1) n.seen }) s)

/-- REPEAT_TIME_END (R296). -/
def execRepeatTimeEnd (k : Nat) (s : State) : Out :=
  guardUnit (decide (k < 32))
    (if (nmcAt s k).state = .castingOff then modNmc k (fun n => { n with evRepeatEnd := true }) s else s)

/-- NM_TIMEOUT (R296). -/
def execNmTimeout (k : Nat) (s : State) : Out :=
  guardUnit (decide (k < 32))
    (if (nmcAt s k).state = .underway then modNmc k (fun n => { n with evTimeout := true }) s else s)

/-- WAIT_TIME_END (R296, R297): `t_wait` ends at the coming boundary. When its apply phase has passed the
detector is armed now. -/
def execWaitTimeEnd (k : Nat) (s : State) : Out :=
  guardUnit (decide (k < 32))
    (let n := nmcAt s k
     if n.state ≠ .mooring then s else
     let s := modNmc k (fun n => { n with evWait := true }) s
     if s.cyc.phase = .apply ∨ s.cyc.phase = .sealing then armBus n.kind n.bus s else s)

/-- One node before another in a report (R301): more PDUs first, ties by identifier. -/
def seenBefore (a b : NmSeen) : Bool := decide (b.pdus < a.pdus) || (decide (a.pdus = b.pdus) && decide (a.node ≤ b.node))

/-- Insertion sort of a report's nodes. -/
def insSeen (x : NmSeen) : List NmSeen → List NmSeen
  | [] => [x]
  | y :: r => if seenBefore x y then x :: y :: r else y :: insSeen x r

/-- KEEP_WATCH (R301). -/
def execKeepWatch (k : Nat) (s : State) : Out :=
  guardUnit (decide (k < 32))
    (let n := nmcAt s k
     if n.state ≠ .underway ∨ n.kind = 1 ∨ nmClaimed s k = true then s else
     let r : KaReport := { cluster := k, pounds := n.repeaters, cycle := s.cyc.number
                           nodes := (n.seen.foldr insSeen []).take 8 }
     let s := modNm (fun v => { v with report := r, log := v.log ++ [r] })
       (modNmc k (fun n => { n with seen := [], repeaters := 0 }) s)
     emit 0x2203 k s (value := r.nodes.length))

/-- ISOLATION_TIMEOUT (R221, R300): no message from a central pound for `isolation_time`. -/
def execIsolationTimeout (s : State) : Out :=
  .next (if !s.fv.started || s.tp.isolated || !((List.range 32).any (fun p => (poundAt s p).central && pThere s p)) then s else
    let s := modNm (fun v => { v with holdOn := decide (v.isoHold ≠ 0) }) (modTp (fun t => { t with isolated := true }) s)
    let s := emit 0x2204 0x200 s (flags := 1)
    if s.tp.isoTowpath then tpSet 5 s else s)

/-- ISOLATED_HOLD_END (R300). -/
def execIsolatedHoldEnd (s : State) : Out := .next (modNm (fun v => { v with holdOn := false }) s)

/-- NM_TC10 (R302): 1 refused, 2 asleep, 3 woken. -/
def tc10 (k cause : Nat) (s : State) : State := emit 0x2206 (0x120 + k) s (cause := cause)

/-- TC10_SLEEP_ACK (R302): the peer acknowledges. -/
def execTc10SleepAck (k : Nat) (s : State) : Out :=
  guardUnit (decide (k < 8))
    (if (t1At s k).asking then tc10 k 2 (setLink k 2 (modT1 k (fun t => { t with asking := false }) s)) else s)

/-- TC10_ACK_TIMEOUT (R302): no acknowledgement within 16 ms. -/
def execTc10AckTimeout (k : Nat) (s : State) : Out :=
  guardUnit (decide (k < 8))
    (if (t1At s k).asking then tc10 k 1 (modT1 k (fun t => { t with asking := false, rej := sat 16 (t.rej + 1) }) s) else s)

/-- TC10_PEER_SLEEP_REQUEST (R302). -/
def execTc10PeerSleepRequest (k : Nat) (s : State) : Out :=
  guardUnit (decide (k < 8))
    (let t := t1At s k
     if t.en && t.accept && decide ((portAt s k).link = 1) && !((List.range 32).any (fun j => let n := nmcAt s j
         n.en && decide (n.kind = 2 ∧ n.bus = k) && decide (n.state = .castingOff ∨ n.state = .underway)))
     then tc10 k 2 (setLink k 2 (modT1 k (fun t => { t with asking := false }) s)) else s)

/-- TC10_WAKE (R302, R582): a wake-up on the line of a sleeping port; in SLEEP only when `wake_mask` arms TC10. -/
def execTc10Wake (k : Nat) (s : State) : Out :=
  guardUnit (decide (k < 8))
    (if (t1At s k).en && decide ((portAt s k).link = 2) && (!s.pwr.slept || bitOf 2 s.pwr.wakeMask) then
       busWake 2 k 5 false (tc10 k 3 (setLink k 3 s)) else s)

end Sys2Proof.Machine
end

