-- ==== Sys2Proof/Machine/Pounds.lean ====
section
/-! DEFINITION. Reset and removal of pounds (R456-R458): how a reset begins, what its completion empties, and
the passing of ownership. -/
namespace Sys2Proof.Machine

/-- The device is between a handover and its ready flag (R462). -/
def inHandover (s : State) : Bool := match s.img.act with | some a => a.handed | none => false

/-- The responses that a reset of pound `p` discards (R457): those of the cycle-bound commands accepted before it, and
of the pound's commands that wait for a barge, a level, a period change, an activation or a chart commit. The
commands themselves go on. -/
def muteWaiting (p : Nat) (s : State) : State :=
  let keep := fun (r : Req) => decide (r.pound ≠ p)
  let one := fun (r : Option Req) => r.filter keep
  let s := modCyc (fun c => { c with staged := c.staged.map (fun x => if x.req.pound = p then { x with reply := false } else x) }) s
  let s := modCyc (fun c => { c with change := c.change.map (fun y => { y with req := one y.req }) }) s
  let s := modCyc (fun c => { c with ended := c.ended.map (fun y => { y with reqs := y.reqs.filter keep }) }) s
  let s := s.mot.pads.foldl (fun s e => modPad e.1 (fun d => { d with
    pend := d.pend.map (fun y => { y with reqs := y.reqs.filter keep }) }) s) s
  let s := s.tow.barges.foldl (fun s e => modBarge e.1 (fun b => { b with
    out := b.out.map (fun q => if q.req.pound = p ∧ q.own = false then { q with mute := true } else q)
    resync := b.resync.map one }) s) s
  let s := modPwr (fun w => { w with change := w.change.map (fun a => { a with req := one a.req }) }) s
  let s := modImg (fun g => { g with act := g.act.map (fun a => { a with req := one a.req }) }) s
  modImg (fun g => { g with commit := g.commit.map (fun c => { c with req := one c.req }) }) s

/-- A reset begins (R456, R457 steps 1 and 2): a reset in progress absorbs a further reason, and one that is
detected during a handover begins at its end. -/
def startReset (p reason : Nat) (s : State) : State :=
  let r := poundAt s p
  match r.state with
  | .absent | .removed | .resetting => s
  | _ =>
    if inHandover s then modFv (fun v => { v with deferred := v.deferred ++ [(p, reason)] }) s
    else
      let s := modPound p (fun r => { r with
        state := .resetting, reason := reason, resetCycle := s.cyc.number, resets := sat 8 (r.resets + 1) }) s
      let s := match winOf s p with
        | some e => modWin e (fun w =>
            let w' := { w with run := false, running := false }
            if w.running then setCause 5 s.tide.counter w' else w') s
        | none => s
      let s := (List.range 5).foldl (fun s k =>
        if (coreAt s k).running = some p then modCore k (fun c => { c with running := none }) s else s) (muteWaiting p s)
      let s := modPq p (fun q => { q with
        safeDue := q.safeDue || r.onReset, unanswered := 0, reserved := 0, reasm := none, spi := {}
        removing := q.removing || decide (reason = 6) }) s
      emit 0x3001 p s (cause := reason) (dest := some 0)

/-- The pound's waiting SEND frames of one channel are discarded (R457): `tx_dropped`, no event. -/
def dropSends (p c : Nat) (s : State) : State :=
  let isP := fun (t : CanTx) => match t.src with | .pound q _ => decide (q = p) | _ => false
  let gone := (canAt s c).queue.filter isP
  if gone.isEmpty then s
  else gone.foldl (fun s _ => countCan c 9 1 s)
    (modCanCh c (fun x => { x with queue := x.queue.filter (fun t => !isP t) }) s)

/-- A Lighthouse request in progress is abandoned, and its output and mailbox scrubbed (R457, R528, R550). -/
def abandonLh (p : Nat) (s : State) : State :=
  let s := if (boxAt s p).busy then lhScrubOpen (boxAt s p) s else s
  modBox p (fun b => { b with busy := false, result := [], iv := 0, out := 0 }) s

/-- Steps 3 and 4 of R457: the pound's queues, subscriptions, claims and frames go; it is STOPPED, and an
ETHERNET or SPI pound runs at once. -/
def completeReset (p : Nat) (s : State) : State :=
  let s := modPq p (fun q => { q with rsp := [], evt := [], lost := 0, seq := 0, unanswered := 0, reserved := 0 }) s
  let s := match winOf s p with | some e => modWin e (fun w => { w with evtLost := 0, dmaFault := false }) s | none => s
  let s := modFv (fun v => { v with subs := v.subs.filter (fun b => decide (b.pound ≠ p))
                                    rateWins := v.rateWins.filter (fun w => decide (w.pound ≠ p)) }) s
  let s := modSlu (fun v => { v with subs := v.subs.filter (fun b => decide (b.pound ≠ p)) }) s
  let s := (List.range 32).foldl (fun s k =>
    if bitOf p (nmcAt s k).claims then setClaim k p false s else s) s
  let s := (List.range 12).foldl (fun s c => dropSends p c s) s
  let s := clearSnap p (abandonLh p s)
  let s := modHostq p (fun _ => []) s
  let kind := (poundAt s p).kind
  let s := modPound p (fun r => { r with
    state := if (pqAt s p).removing then .stopped else if kind = 2 ∨ kind = 3 then .running else .stopped }) s
  if (pqAt s p).removing then modPq p (fun q => { q with purgeDue := true }) s else s

/-- Ownership passes to pound 0 and the endpoint is unbound (R458). -/
def purgePound (p : Nat) (s : State) : State :=
  modPq p (fun q => { q with purgeDue := false, removing := false })
    (modPound p (fun r => { pound0 32 with
      state := .removed, resetCycle := r.resetCycle, reason := r.reason, resets := r.resets
      central := r.central, onReset := r.onReset
      cmdSlots := 0, evtQueue := 0, evtRate := 0, foldMax := 0, rxCells := 0, txCells := 0 }) s)

/-- Resets that waited for the end of a handover begin (R462). -/
def runDeferred (s : State) : State :=
  s.fv.deferred.foldl (fun s e => startReset e.1 e.2 s) (modFv (fun v => { v with deferred := [] }) s)

/-! ### Meanings -/

/-- POUND_RESET_COMPLETE (R457). -/
def execPoundResetComplete (p : Nat) (s : State) : Out :=
  guardUnit (decide (p < 32)) (if (poundAt s p).state = .resetting then completeReset p s else s)

/-- OWNERSHIP_TRANSFER (R458): at the first boundary after a removal's completion. -/
def execOwnershipTransfer (p : Nat) (s : State) : Out :=
  guardUnit (decide (p < 32)) (if (pqAt s p).purgeDue then purgePound p s else s)

/-- FUNCTION_LEVEL_RESET (R456): the pound bound to the function is reset. -/
def execFunctionLevelReset (f : Nat) (s : State) : Out :=
  guardUnit (decide (f < 32)) (match poundOfWin s f with
    | some p => startReset p 3 s
    | none => s)

/-- EVENT_RATE_WINDOW (R452): a 10 ms window ends and a new one begins. -/
def execEventRateWindow (s : State) : Out :=
  .next ((List.range 32).foldl (fun s p => modPq p (fun q => { q with rateCount := 0 }) s) s)

/-- SUPPRESSION_WINDOW_CLOSE (R442): the window of a code for a pound and an object ends. -/
def execSuppressionWindowClose (p code handle : Nat) (s : State) : Out :=
  guardUnit (decide (p < 32)) (match s.fv.rateWins.find? (fun w => decide (w.pound = p ∧ w.code = code ∧ w.handle = handle)) with
    | some w => closeWin w s
    | none => s)

end Sys2Proof.Machine
end

