-- ==== Sys2Proof/Machine/Ports.lean ====
section
/-! DEFINITION. Ethernet ports: link and PLCA, received frames and MACsec (R334-R339, R349-R353), host-port
filters and receive rings (R340-R344), transmit rings and completions (R345, R346), class PORT. -/
namespace Sys2Proof.Machine

/-! ### Rings of a pound -/

/-- Key of ring `r` of pound `p`. -/
def ringKey (p r : Nat) : Nat := 8 * p + r

/-- The pound's packet ring is in use (R341). -/
def ringOn (s : State) (p r : Nat) : Bool :=
  (hringAt s (ringKey p r)).en && (winOf s p).isSome && decide ((poundAt s p).state = .running)

/-- Window ring block of packet ring `r` (R401). -/
def blockOf (r : Nat) : Nat := 3 + r

/-- Entries of a window ring. -/
def ringSize (w : Win) (k : Nat) : Nat := 2 ^ (tget ring0 w.rings k).log2

/-- Changing a ring block of a window. -/
def modRing (k : Nat) (f : Ring → Ring) (w : Win) : Win := { w with rings := tmod ring0 k f w.rings }

/-- The device writes `l` back into consecutive slots from the ring's head and passes them (R342, R346). -/
def writeBack (p r : Nat) (l : List Written) (s : State) : State :=
  match winOf s p with
  | none => s
  | some e =>
    let h := (tget ring0 (winAt s e).rings (blockOf r)).head
    let base := (tget ring0 (winAt s e).rings (blockOf r)).base
    let n := ringSize (winAt s e) (blockOf r)
    let s := (l.zipIdx).foldl (fun s x => modHring (ringKey p r) (fun g => { g with
      back := tput slotBytes0 ((h + x.2) % n) x.1.back g.back
      bufs := tput slotBytes0 ((h + x.2) % n) x.1.data g.bufs }) s) s
    let s := if 32 ≤ e then (l.zipIdx).foldl (fun s x => storeBytes (base + (h + x.2) % n * 32) x.1.back
        (if x.1.data.isEmpty then s else storeBytes x.1.addr x.1.data s)) s else s
    modWin e (fun w => setCause (if r < 4 then 2 else 3) s.tide.counter
      (modRing (blockOf r) (fun g => { g with head := (g.head + l.length) % 2 ^ 16 }) w)) s

/-- An address range lies within the pound's SRAM or LPDDR4X shares (R420, R453). -/
def inShare (s : State) (p addr len : Nat) : Bool :=
  let r := poundAt s p
  decide (r.sramBase ≤ addr ∧ addr + len ≤ r.sramBase + r.sramUnits * 65536 ∧ r.sramUnits ≠ 0 ∧
    0x10000000 ≤ addr ∧ addr + len ≤ 0x10800000) ||
  decide (r.ddrBase ≤ addr ∧ addr + len ≤ r.ddrBase + r.ddrMib * 1048576 ∧ r.ddrMib ≠ 0 ∧
    0x1000000000 ≤ addr ∧ addr + len ≤ 0x1000000000 + (s.sys.ddrMib - s.sys.ovfMib) * 1048576)

/-- A buffer the pound may name: any for a PCIe pound, one in its shares for a partition. -/
def bufOk (s : State) (p : Nat) (d : Desc) : Bool := decide ((poundAt s p).kind ≠ 4) || inShare s p d.addr d.len

/-- An error of a pound's window: MBX_ERR with its cause bit, and SYS_TRANSPORT (R400, R422). -/
def mbxError (p code ring : Nat) (s : State) : State :=
  match winOf s p with
  | some e => emitTransport p code (modWin e (recordErr code ring s.tide.counter) s)
  | none => s

/-! ### Receive rings (R342-R344) -/

/-- A receive descriptor as written back (R342). -/
def rxBack (len : Nat) (first last disc trunc : Bool) (x : NetFrame) (full filter : Nat) : List Byte :=
  leBytes 2 len ++ leBytes 1 (1 + flag 1 first + flag 2 last + flag 3 disc + flag 4 trunc + flag 5 x.secured) ++
  leBytes 1 (x.ipc + 4 * x.l4c) ++ leBytes 2 (if last then full else 0) ++ leBytes 1 x.ing ++ leBytes 1 filter ++
  leBytes 6 (if first then x.arr / nsPerSec else 0) ++ leBytes 2 0 ++
  leBytes 4 (if first then x.arr % nsPerSec else 0) ++ leBytes 2 (tciOf x.f) ++ leBytes 10 0

/-- Data laid into buffers in order: the buffers used with their bytes, and what did not fit. -/
def fillBufs : List Desc → List Byte → List (Desc × List Byte) × List Byte
  | [], data => ([], data)
  | d :: ds, data =>
    if data.isEmpty then ([], [])
    else
      let r := fillBufs ds (data.drop d.len)
      ((d, data.take d.len) :: r.1, r.2)

/-- The buffers of a whole frame as written back. -/
def rxParts (x : NetFrame) (filter full : Nat) (l : List (Desc × List Byte)) : List Written :=
  l.zipIdx.map (fun e =>
    ⟨rxBack e.1.2.length (decide (e.2 = 0)) (decide (e.2 + 1 = l.length)) false false x full filter, e.1.2, e.1.1.addr⟩)

/-- A frame dropped after its first buffer (R344): the `n` descriptors taken are written back DISCARDED, the drop is
counted, and PORT_RX_DISCARD is raised once until `discards` is read. -/
def discardRx (p r filter n : Nat) (x : NetFrame) (s : State) : State :=
  let k := ringKey p r
  let told := (hringAt s k).rep
  let s := modHring k (fun g => { g with posted := g.posted.drop n, discards := (g.discards + 1) % 2 ^ 32, rep := true }) s
  let s := countPort 12 21 1 (writeBack p r (List.replicate n ⟨rxBack 0 false false true false x 0 filter, [], 0⟩) s)
  if told then s else emit 0x2403 (0x300 + k) s (value := (hringAt s k).discards) (dest := some p)

/-- A frame for ring `r` of pound `p` (R340, R342-R344). Its contents are those after egress changes. -/
def deliverRing (p r filter : Nat) (x : NetFrame) (s : State) : State :=
  if !ringOn s p r then countPort 12 20 1 s else
  let k := ringKey p r
  let g := hringAt s k
  let data := frameBytes x.f
  match g.posted with
  | [] => countPort 12 20 1 s
  | d :: ds =>
    if g.scatter then
      let (l, left) := fillBufs g.posted data
      let bad := l.findIdx (fun e => !bufOk s p e.1)
      -- a buffer outside the partition's shares (R420): the frame is dropped as in R344
      if bad < l.length then discardRx p r filter (bad + 1) x (mbxError p 8 (blockOf r) s)
      else if left.isEmpty then
        writeBack p r (rxParts x filter data.length l) (modHring k (fun g => { g with posted := g.posted.drop l.length }) s)
      else discardRx p r filter l.length x s
    else if !bufOk s p d then discardRx p r filter 1 x (mbxError p 8 (blockOf r) s)
    else if data.length ≤ d.len then
      writeBack p r [⟨rxBack data.length true true false false x data.length filter, data, d.addr⟩] (modHring k (fun g => { g with posted := ds }) s)
    else if g.truncOk then
      countPort 12 22 1 (writeBack p r [⟨rxBack d.len true true false true x data.length filter, data.take d.len, d.addr⟩]
        (modHring k (fun g => { g with posted := ds }) s))
    else countPort 12 23 1 s

/-! ### Address filters (R340) -/

/-- The frame matches the entry. -/
def filterHits (h : HostFilter) (f : EthFrame) : Bool :=
  h.en && !h.bad && decide (h.mac = f.dst) && (h.vidAny || decide (h.vid = if f.tagged then f.vid else 0))

/-- Entries a frame matches: the first for an individual destination, every one for a group. -/
def hostMatches (s : State) (f : EthFrame) : List Nat :=
  let l := (List.range 128).filter (fun i => filterHits (hfAt s i) f)
  if isGroup f.dst then
    l.foldl (fun acc i =>
      let key := fun j => let h := hfAt s j; (h.keeper, if h.keeper then 0 else h.pound, if h.keeper then 0 else h.ring)
      if acc.any (fun j => decide (key j = key i)) then acc else acc ++ [i]) []
  else l.take 1

/-! ### Transmit rings (R345, R346) -/

/-- `SOP`, `EOP` and the requests of a descriptor's byte 10. -/
def isSop (d : Desc) : Bool := bitOf 0 d.flags
def isEop (d : Desc) : Bool := bitOf 1 d.flags

/-- A completion as written back (R346). -/
def txBack (x : TxDone) : List Byte :=
  leBytes 2 x.tag ++ leBytes 1 1 ++ leBytes 1 (x.status.getD 0) ++ leBytes 4 0 ++ leBytes 6 x.sec ++ leBytes 2 0 ++
  leBytes 4 x.ns ++ leBytes 12 0

/-- Completions at the front of the ring that are known: they leave in ring order. -/
def readyDone : List TxDone → List TxDone
  | [] => []
  | x :: r => if x.status.isSome then x :: readyDone r else []

/-- Completions are written and the head advances in ring order (R346). -/
def flushDone (k : Nat) (s : State) : State :=
  let l := readyDone (hringAt s k).done
  if l.isEmpty then s
  else
    let parts := l.flatMap (fun x => if x.gone then [⟨[], [], 0⟩] else
      ⟨txBack x, [], 0⟩ :: List.replicate (x.ndesc - 1) ⟨leBytes 2 0 ++ leBytes 1 1 ++ leBytes 29 0, [], 0⟩)
    writeBack (k / 8) (k % 8) parts (modHring k (fun g => { g with done := g.done.drop l.length }) s)

/-- The completion of a frame becomes known: of several statuses the highest stands. -/
def complete (k id st sec ns : Nat) (s : State) : State :=
  flushDone k (modHring k (fun g => { g with done := g.done.map (fun x =>
    if x.id = id then { x with status := some (max st (x.status.getD 0)), sec := sec, ns := ns } else x) }) s)

/-- What the next descriptors of a transmit ring hold: nothing yet, a frame not all posted, descriptors to
be refused with `LENGTH`, or a frame. -/
inductive TxNext
  | idle
  | part
  | refuse (n : Nat)
  | frame (l : List Desc)
  deriving DecidableEq, Repr

/-- Reading a transmit ring's descriptors (R345). -/
def txNext (l : List Desc) : TxNext :=
  match l with
  | [] => .idle
  | d :: _ =>
    if !isSop d then .refuse 1
    else
      let n := l.findIdx isEop
      if n < l.length then
        let fr := l.take (n + 1)
        let len : Nat := fr.foldl (fun a x => a + x.len) 0
        if 16 < n + 1 ∨ 2300 < len ∨ len = 0 then .refuse (n + 1) else .frame fr
      else if 16 < l.length then .refuse l.length
      else .part

/-- A completion joins the ring's list. -/
def pushDone (k tag n : Nat) (st : Option Nat) (s : State) : State :=
  flushDone k (modHring k (fun g => { g with
    done := g.done ++ [{ id := g.nextId, tag := tag, ndesc := n, status := st }], nextId := g.nextId + 1 }) s)

/-- Cells of a frame (R366). -/
def frameCells (f : EthFrame) : Nat := (frameLen f + 127) / 128

/-- Frames the Basin holds, each once: those waiting for classification and those with an egress copy. -/
def heldFrames (s : State) : List NetFrame :=
  let all := s.net.toBasin ++ s.net.queues.flatMap (fun e => e.2.copies.map (·.fr)) ++
    s.net.hostq.flatMap (fun e => e.2.map (·.fr)) ++
    s.net.ports.flatMap (fun e => match e.2.sending with | some x => [x.2.fr] | none => []) ++
    s.net.streams.flatMap (fun e => e.2.held.map (·.r.fr))
  all.foldl (fun acc x => if acc.any (fun y => decide (y.fid = x.fid)) then acc else acc ++ [x]) []

/-- Cells of the pound's frames held in the Basin (R386). -/
def txCellsHeld (s : State) (p : Nat) : Nat :=
  (heldFrames s).foldl (fun n x => if x.pound = p then n + frameCells x.f else n) 0

/-! ### MACsec (R349-R353) -/

/-- Enabled SA of a port, direction and association, for the secure channel when one is named. -/
def findSa (s : State) (port an : Nat) (tx : Bool) (sci : Option Nat) : Option Nat :=
  (List.range 64).find? (fun i => let a := saAt s i
    a.en && decide (a.port = port ∧ a.dir = tx ∧ a.an = an) &&
    (match sci with | some c => decide (a.sci = c) | none => true))

/-- Secure channels of a port's enabled receive SAs. -/
def rxScis (s : State) (port : Nat) : List Nat :=
  (List.range 64).foldl (fun l i => let a := saAt s i
    if a.en && !a.dir && decide (a.port = port) && !(decide (a.sci ∈ l)) then l ++ [a.sci] else l) []

/-- A gPTP frame (R336). -/
def isGptp (f : EthFrame) : Bool := decide (f.dst = 0x0180C200000E ∧ f.etype = 0x88F7)

/-- A frame of the key agreement. -/
def isEapol (f : EthFrame) : Bool := decide (f.etype = 0x888E)

/-- The outcome of the receive table of R352: the frame to deliver, when one is, whether it is verified, and
the state after counting. -/
def macsecRx (p : Nat) (f : EthFrame) (tag : Option SecTag) (s : State) : Option (EthFrame × Bool) × State :=
  let y := secyAt s p
  match tag with
  | none =>
    if isEapol f || (isGptp f && y.bypass) then (some (f, false), s)
    else if y.validate = 2 then (none, countPort p 25 1 s)
    else if y.validate = 1 then (some (f, false), countPort p 25 1 s)
    else (some (f, false), s)
  | some t =>
    if y.validate = 0 then (some (t.raw, false), s) else
    let sci := match t.sci with
      | some c => some c
      | none => match rxScis s p with | [c] => some c | _ => none
    let sa := match sci with | some c => findSa s p t.an false (some c) | none => none
    let ok := match sa with | some i => !(saAt s i).revoked && t.icvOk | none => false
    if !ok then
      let s := match sa with
        | some i => modSa i (fun a => { a with bad := (a.bad + 1) % 2 ^ 32 }) s
        | none => s
      if y.validate = 2 ∨ (y.validate = 1 ∧ t.encrypted = true) then (none, countPort p 26 1 s)
      else (some (f, false), countPort p 26 1 s)
    else match sa with
      | none => (none, s)
      | some i =>
        let a := saAt s i
        if y.replay && decide (t.pn + a.window < a.nextPn) then (none, countPort p 27 1 s)
        else (some (f, true), countPort p 24 1 (modSa i (fun a => { a with
          frames := (a.frames + 1) % 2 ^ 32, octets := (a.octets + (frameBytes f).length) % 2 ^ 48
          nextPn := max a.nextPn (min (t.pn + 1) (2 ^ 32 - 1)) }) s))

/-! ### Rate -/

/-- Bit rate of a speed code, kbit/s (R332). -/
def rateOf (code : Nat) : Nat :=
  match code with
  | 0 => 2500000 | 1 => 5000000 | 2 => 10000000 | 3 => 100000 | 4 => 1000000 | _ => 10000

/-- Rate of a Basin port: `speed_now` of a PHY port with its link up, its set speed otherwise; 4.0 Gbit/s
of payload for a towline port (R494), 10 Gbit/s for ports 12 and 13. -/
def portRate (s : State) (p : Nat) : Nat :=
  if p < 12 then rateOf (if (portAt s p).link = 1 then (portAt s p).speedNow else (portAt s p).speed)
  else if p = 14 ∨ p = 15 then 4000000 else 10000000

/-- The idle slopes of a port stay within 75 % of its rate (R375). -/
def slopesFit (s : State) (p : Nat) : Bool :=
  decide (100 * ((List.range 8).foldl (fun n c => n + (queueAt s (8 * p + c)).slope) 0) ≤ 75 * portRate s p)

/-! ### Class PORT (R355) -/

/-- Speeds of a port's class (R332). -/
def speedOk (p v : Nat) : Bool :=
  if p < 2 then decide (v ≤ 2) else if p < 8 then decide (v = 3 ∨ v = 4) else decide (v = 5)

/-- A field that applies only to some ports: elsewhere no other value than the one in force is taken. -/
def onlyFor (yes : Bool) (_ : Nat) : Bool := yes

/-- Port record (R332). -/
def portRec (p : Nat) : Rec :=
  let ue := decide (p < 8)
  let t1s := decide (8 ≤ p)
  { len := 24
    flds := lift (fun s => portAt s p) (modPort p) [
      rwF 0 0 3 (·.speed) (fun n x => { x with speed := n }) (speedOk p),
      rwB 0 3 (·.en) (fun v x => { x with en := v }),
      rwF 0 4 1 (fun x => b2n x.role) (fun n x => { x with role := decide (n = 1) }) (onlyFor ue),
      rwF 0 5 1 (fun x => b2n x.aneg) (fun n x => { x with aneg := decide (n = 1) }) (onlyFor ue),
      rwB 0 6 (·.extEn) (fun v x => { x with extEn := v }),
      rwF 0 7 1 (fun x => b2n x.macsec) (fun n x => { x with macsec := decide (n = 1) }) (onlyFor ue),
      rwF 1 0 3 (·.plcaId) (fun n x => { x with plcaId := n }) (onlyFor t1s),
      rwF 1 3 1 (fun x => b2n x.plcaEn) (fun n x => { x with plcaEn := decide (n = 1) }) (onlyFor t1s),
      rwF 1 4 4 (·.plcaCount) (fun n x => { x with plcaCount := n }) (fun n => t1s && rng 0 7 n),
      rwF 2 0 8 (·.toTimer) (fun n x => { x with toTimer := n }) (fun n => t1s && rng 1 255 n),
      rwF 3 0 8 (·.burstCount) (fun n x => { x with burstCount := n }) (onlyFor t1s),
      rwF 4 0 8 (·.burstTimer) (fun n x => { x with burstTimer := n }) (fun n => t1s && rng 1 255 n),
      rwF 6 0 48 (·.station) (fun n x => { x with station := n }),
      roF 12 0 2 (·.link), roB 12 2 (·.plcaUp), roF 12 3 3 (·.sqi), roF 13 0 3 (·.speedNow), roF 16 0 48 (·.linkCycle)] }

/-- Counters of a port (R347, R639). -/
def portCtrRec (p : Nat) : Rec :=
  { len := 0, flds := []
    more := fun s => (List.range 30).flatMap (fun k =>
      leBytes (if k = 0 ∨ k = 10 then 6 else 4) (tget ctr0 s.net.counters (32 * p + k))) }

/-- Address filter entry (R340). -/
def hostFilterRec (i : Nat) : Rec :=
  { len := 16
    flds := lift (fun s => hfAt s i) (modHf i) [
      rwB 0 0 (·.en) (fun v h => { h with en := v }), rwB 0 1 (·.vidAny) (fun v h => { h with vidAny := v }),
      rwB 0 2 (·.keeper) (fun v h => { h with keeper := v }), rwF 1 0 5 (·.pound) (fun n h => { h with pound := n }),
      rwF 1 5 2 (·.ring) (fun n h => { h with ring := n }), rwF 2 0 12 (·.vid) (fun n h => { h with vid := n }),
      rwF 4 0 48 (·.mac) (fun n h => { h with mac := n })] }

/-- Ring record (R341). -/
def hostRingRec (i : Nat) : Rec :=
  { len := 8
    flds := lift (fun s => hringAt s i) (modHring i) [
      rwB 0 0 (·.en) (fun v g => { g with en := v }), rwB 0 1 (·.scatter) (fun v g => { g with scatter := v }),
      rwB 0 2 (·.truncOk) (fun v g => { g with truncOk := v }), roF 4 0 32 (·.discards)] }

/-- SA record (R349). -/
def saRec (i : Nat) : Rec :=
  { len := 48
    flds := lift (fun s => saAt s i) (modSa i) [
      rwB 0 0 (·.en) (fun v a => { a with en := v }), rwB 0 1 (·.dir) (fun v a => { a with dir := v }),
      rwF 0 2 2 (·.an) (fun n a => { a with an := n }), roB 0 4 (·.revoked), roB 0 5 (·.exhausted),
      rwF 1 0 3 (·.port) (fun n a => { a with port := n }), rwF 4 0 32 (·.key) (fun n a => { a with key := n }),
      rwF 8 0 64 (·.sci) (fun n a => { a with sci := n }), rwF 16 0 32 (·.nextPn) (fun n a => { a with nextPn := n }),
      rwF 20 0 32 (·.window) (fun n a => { a with window := n }), roF 24 0 32 (·.frames), roF 28 0 32 (·.bad),
      roF 32 0 48 (·.octets)] }

/-- SecY record (R349). -/
def secyRec (i : Nat) : Rec :=
  { len := 8
    flds := lift (fun s => secyAt s i) (modSecy i) [
      rwF 0 0 2 (·.validate) (fun n y => { y with validate := n }) (rng 0 2),
      rwB 0 2 (·.replay) (fun v y => { y with replay := v }), rwB 0 3 (·.sci) (fun v y => { y with sci := v }),
      rwB 0 4 (·.encrypt) (fun v y => { y with encrypt := v }), rwB 0 5 (·.bypass) (fun v y => { y with bypass := v }),
      rwF 0 6 2 (·.encAn) (fun n y => { y with encAn := n }), rwF 1 0 5 (·.pound) (fun n y => { y with pound := n }),
      rwF 1 5 2 (·.ring) (fun n y => { y with ring := n }), rwF 2 0 32 (·.pnWarn) (fun n y => { y with pnWarn := n })] }

def portRecord (i part : Nat) : Option Rec :=
  if part ≠ 0 then none
  else if i < 12 then some (portRec i)
  else if 0x100 ≤ i ∧ i < 0x10D then some (portCtrRec (i - 0x100))
  else if 0x200 ≤ i ∧ i < 0x280 then some (hostFilterRec (i - 0x200))
  else if 0x300 ≤ i ∧ i < 0x400 then some (hostRingRec (i - 0x300))
  else if 0x400 ≤ i ∧ i < 0x440 then some (saRec (i - 0x400))
  else if 0x440 ≤ i ∧ i < 0x448 then some (secyRec (i - 0x440))
  else none

/-- Field position of `station` and of the fields free to change while `en` is 1 (R332). -/
def portFree (pos : Nat) : Bool := decide (pos = 3 ∨ pos = 48)

/-- Checks of a PORT SET (R332, R333, R336, R341, R349, R535). -/
def portCheck (s : State) (_p i part : Nat) (ws : List (Nat × Nat)) : Status :=
  let t := match portRecord i part with | some rc => writeFlds rc ws s | none => s
  if i < 12 then
    let x := portAt t i
    if (decide (8 ≤ i) && x.plcaEn && decide (x.plcaCount + 1 ≤ x.plcaId)) || breaksExt s t then .eRange
    else if (portAt s i).en && ws.any (fun w => !portFree w.1) then .eState
    else .ok
  else if 0x300 ≤ i ∧ i < 0x400 then
    if (hringAt s (i - 0x300)).en && ws.any (fun w => decide (w.1 = 1 ∨ w.1 = 2)) then .eState else .ok
  else if 0x400 ≤ i ∧ i < 0x440 then
    let a := saAt t (i - 0x400)
    if ws.any (fun w => decide (w.1 = 32)) && decide (a.key ≠ 0) && !keyFits s a.key 2 3 then .eAuth
    else if (saAt s (i - 0x400)).en && ws.any (fun w => decide (w.1 ∈ [1, 2, 8, 32, 64])) then .eState
    else .ok
  else if 0x440 ≤ i ∧ i < 0x448 then
    let y := secyAt t (i - 0x440)
    let k := (poundAt s y.pound).kind
    if ws.any (fun w => decide (w.1 = 8)) && (portAt s (i - 0x440)).macsec && decide (k ≠ 1 ∧ k ≠ 4) then .eRange else .ok
  else .ok

/-- What follows a PORT SET: a port enabled trains and one disabled goes down; a ring enabled starts empty; a
new key clears REVOKED, a new PN clears EXHAUSTED (R331, R348, R351-R353, R402). -/
def portAfter (s0 : State) (i _part : Nat) (ws : List (Nat × Nat)) (s : State) : State :=
  if i < 12 then
    if (portAt s0 i).en = (portAt s i).en then s
    else if (portAt s i).en then setLink i 3 s
    else setLink i 0 (modPort i (fun x => { x with plcaUp := false }) s)
  else if 0x300 ≤ i ∧ i < 0x400 then
    let k := i - 0x300
    if !(hringAt s0 k).en && (hringAt s k).en then
      let s := modHring k (fun g => { g with posted := [], cur := [], done := [] }) s
      match winOf s (k / 8) with
      | some e => modWin e (modRing (blockOf (k % 8)) (fun g => { g with head := 0, tail := 0 })) s
      | none => s
    else s
  else if 0x400 ≤ i ∧ i < 0x440 then
    let s := if ws.any (fun w => decide (w.1 = 32)) then modSa (i - 0x400) (fun a => { a with revoked := false, warned := false }) s else s
    if ws.any (fun w => decide (w.1 = 128)) then modSa (i - 0x400) (fun a => { a with exhausted := false, warned := false }) s else s
  else s

/-- Class PORT (R355, R439). -/
def portClass : ClassSpec :=
  { code := 0x24
    ranges := [(0, 12), (0x100, 13), (0x200, 128), (0x300, 256), (0x400, 64), (0x440, 8)]
    record := portRecord
    verbs := [1, 2, 3, 4, 5, 6]
    events := 6
    setAuth := fun _ p i _ _ => decide (p = 0) || (decide (0x300 ≤ i ∧ i < 0x400) && decide (p = (i - 0x300) / 8))
    setCheck := portCheck
    setCyc := fun i _ => decide (0x200 ≤ i ∧ i < 0x280)
    after := portAfter
    acts := [{ code := 1, cyc := false, insts := fun i => decide (0x100 ≤ i ∧ i < 0x10D), argOk := fun n => decide (n = 0)
               auth := fun _ p _ _ => decide (p = 0), check := fun _ _ _ _ => .ok
               run := fun _ i _ => modNet (fun v => { v with
                 counters := v.counters.filter (fun e => decide (e.1 / 32 ≠ i - 0x100)) }) }]
    onRead := fun i _ off n s =>
      if 0x300 ≤ i ∧ i < 0x400 ∧ off ≤ 4 ∧ 8 ≤ off + n then modHring (i - 0x300) (fun g => { g with rep := false }) s else s }

/-! ### Meanings -/

/-- PORT_SET (R332, R333, R336, R340, R341, R349). -/
def execPortSet (r : Req) (s : State) : Out := .next (cmdSet portClass r s)

/-- PORT_CLEAR_COUNTERS (R347). -/
def execPortClearCounters (r : Req) (s : State) : Out := .next (cmdAct portClass 1 r s)

/-- The port's cluster is Moored (R302): a PHY without sleep signalling is off with it. -/
def portMoored (s : State) (p : Nat) : Bool :=
  (List.range 32).any (fun k => let n := nmcAt s k
    n.en && decide (n.kind = 2 ∧ n.bus = p ∧ n.state = .moored))

/-- The node's PLCA state with its link up: a coordinator sends beacons, so it is up with it (R332, R333). -/
def plcaStart (p : Nat) (x : Port) : Bool := x.plcaUp || (decide (8 ≤ p) && x.plcaEn && decide (x.plcaId = 0))

/-- PORT_LINK_CHANGE (R331): the PHY reports the loss or gain of link, its signal quality and the speed in
use. A loss is a detection of PORT_LINK (R553), which ends with the gain. An asleep port wakes by TC10. -/
def execPortLinkChange (p : Nat) (up : Bool) (sqi speed : Nat) (s : State) : Out :=
  guardUnit (decide (p < 12))
    (let x := portAt s p
     if !x.en || (decide (8 ≤ p) && portMoored s p) then s
     else if up then
       let s := modPort p (fun x => { x with sqi := sqi % 8, speedNow := speed % 8, plcaUp := plcaStart p x }) s
       let s := detectEnd 0x054 (setLink p 1 s)
       if slopesFit s p then s else emit 0x2503 (0x2200 + p) s (cause := 2) (value := s.cyc.number)
     else if x.link = 0 ∨ x.link = 2 then s
     else detect 0x054 true (setLink p 0 (modPort p (fun x => { x with plcaUp := false, sqi := 0 }) s)))

/-- PLCA is in force on a port. -/
def plcaOn (x : Port) : Bool := x.en && x.plcaEn

/-- PLCA_BEACON_TIMEOUT (R333): a node that is not the coordinator falls back to CSMA/CD. -/
def execPlcaBeaconTimeout (p : Nat) (s : State) : Out :=
  guardUnit (decide (8 ≤ p ∧ p < 12))
    (let x := portAt s p
     if plcaOn x && decide (x.plcaId ≠ 0) && x.plcaUp then
       emit 0x2402 p (modPort p (fun x => { x with plcaUp := false }) s) (cause := 1)
     else s)

/-- PLCA_BEACON_RECEIVED (R333): a node hears the coordinator; a coordinator that receives a beacon it did
not send counts a second one. -/
def execPlcaBeaconReceived (p : Nat) (s : State) : Out :=
  guardUnit (decide (8 ≤ p ∧ p < 12))
    (let x := portAt s p
     if !plcaOn x then s
     else if x.plcaId = 0 then emit 0x2402 p (countPort p 17 1 s) (cause := 3)
     else if x.plcaUp then s
     else emit 0x2402 p (modPort p (fun x => { x with plcaUp := true }) s) (cause := 2))

/-- Largest frame of a port (R334, R335). -/
def portLimit (s : State) (p : Nat) : Nat := if p < 12 then (if (portAt s p).extEn then 2304 else 1522) else 2304

/-- A good frame is counted (R347). -/
def countRx (p : Nat) (f : EthFrame) (len : Nat) (s : State) : State :=
  let s := countPort p 1 1 (countPort p 0 len s)
  if isBroadcast f.dst then countPort p 3 1 s else if isGroup f.dst then countPort p 2 1 s else s

/-- A gPTP Sync that a slave port receives is relayed to every master port (R74, R83). -/
def relaySync (p : Nat) (f : EthFrame) (s : State) : State :=
  if (gportAt s p).role = 2 ∧ beAt f.payload 0 1 % 16 = 0 then
    (List.range 12).foldl (fun s q =>
      if (gportAt s q).role = 1 then
        toBasin { f := { f with src := (portAt s q).station }, ing := p, arr := workNs s, direct := some q, relay := true } s
      else s) s
  else s

/-- A requested message interval (R74): −128 changes nothing, 126 returns to the port's own, 127 stops the messages, and
a value outside the port's range is not taken. Answers the interval and the port's own while another is in force. -/
def askedInterval (lo hi v cur : Int) (own : Option Int) : Int × Option Int :=
  if v = 126 then (own.getD cur, none)
  else if v = 127 ∨ (lo ≤ v ∧ v ≤ hi) then (v, some (own.getD cur))
  else (cur, own)

/-- A gPTP Signaling message (R74): its message interval request TLV or gPTP capable TLV. PRESUMED: their layout is that of
IEEE 802.1AS-2020, 10.6.4, which the spec cites and does not repeat. -/
def signalling (p : Nat) (f : EthFrame) (s : State) : State :=
  if beAt f.payload 44 2 ≠ 3 ∨ beAt f.payload 48 3 ≠ 0x0080C2 then s
  else if beAt f.payload 51 3 = 4 then modGport p (fun g => { g with nbrCapable := true }) s
  else if beAt f.payload 51 3 = 2 then
    modGport p (fun g =>
      let l := askedInterval (-3) 3 (toS 8 (beAt f.payload 54 1)) g.logPdelay g.basePdelay
      let y := askedInterval (-5) 0 (toS 8 (beAt f.payload 55 1)) g.logSync g.baseSync
      { g with logPdelay := l.1, basePdelay := l.2, logSync := y.1, baseSync := y.2 }) s
  else s

/-- Frames handed to the Lockkeeper (R336): EAPOL and MKA frames go on to their receive ring. -/
def toKeeper (p : Nat) (x : NetFrame) (s : State) : State :=
  if isEapol x.f then
    let y := secyAt s p
    let (q, r) := if p < 8 then (y.pound, y.ring) else (0, 0)
    deliverRing q r 0 x s
  else if isGptp x.f && decide (beAt x.f.payload 0 1 % 16 = 12) then signalling p x.f s
  else relaySync p x.f s

/-- ETH_FRAME_RECEIVED (R82, R334-R339, R352): the MAC of port `p` takes a frame of `len` bytes, with its FCS
verdict, and the SecTAG when it carried one. -/
def execEthFrameReceived (p : Nat) (f : EthFrame) (len : Nat) (fcsOk : Bool) (tag : Option SecTag) (s : State) : Out :=
  guardUnit (decide (p < 12))
    (if !(portAt s p).en || decide ((portAt s p).link ≠ 1) then s
     else if len < 64 then countPort p (if fcsOk then 5 else 6) 1 s
     else if portLimit s p < len then countPort p 7 1 s
     else if !fcsOk then countPort p 4 1 s
     else if f.etype = 0x8808 then countPort p 9 1 s
     else
       let s := countRx p f len s
       let (res, s) := if (portAt s p).macsec then macsecRx p f tag s
         else ((some (match tag with | some t => t.raw | none => f, false) : Option (EthFrame × Bool)), s)
       match res with
       | none => s
       | some (g, sec) =>
         let x : NetFrame := { f := g, ing := p, arr := workNs s, secured := sec, ipc := checkIp g, l4c := checkL4 g }
         if isGptp g || isEapol g then toKeeper p x s else toBasin x s)

/-- A frame fetched whole: its bytes as one frame with the requests of its first descriptor (R345). -/
def txFrame (p k id : Nat) (l : List Desc) (s : State) : NetFrame :=
  let d := elemOr {} l 0
  let f := parseEth (l.flatMap (fun x => x.data.take x.len ++ List.replicate (x.len - x.data.length) 0))
  { f := f, ipc := checkIp f, l4c := checkL4 f
    ing := 12, pound := p, arr := workNs s
    mark := { ipCsum := bitOf 2 d.flags, l4Csum := bitOf 3 d.flags, ts2 := bitOf 4 d.flags, ins := bitOf 5 d.flags
              insFmt := bitOf 6 d.flags, insOff := d.off, tag := d.tag, ring := some k, id := id } }

/-- TX_FRAME_FETCH (R345, R386): the next frame of transmit ring `r` (4-7) of pound `p`, while the pound's
cells held, plus 18, stay within its transmit share. -/
def execTxFrameFetch (p r : Nat) (s : State) : Out :=
  guardUnit (decide (p < 32 ∧ 4 ≤ r ∧ r < 8))
    (let k := ringKey p r
     let g := hringAt s k
     if !ringOn s p r then s
     else match txNext (g.cur ++ g.posted) with
       | .idle => s
       | .part => modHring k (fun g => { g with cur := g.cur ++ g.posted, posted := [] }) s
       | .refuse n =>
         let all := g.cur ++ g.posted
         let tag := (elemOr {} all 0).tag
         pushDone k tag n (some 5) (modHring k (fun g => { g with cur := [], posted := all.drop n }) s)
       | .frame l =>
         if (poundAt s p).txCells < txCellsHeld s p + 18 then s
         else
           let all := g.cur ++ g.posted
           let s := modHring k (fun g => { g with cur := [], posted := all.drop l.length }) s
           if l.any (fun d => !bufOk s p d) then
             pushDone k (elemOr {} l 0).tag l.length (some 5) (mbxError p 8 (blockOf r) s)
           else toBasin (txFrame p k g.nextId l s) (pushDone k (elemOr {} l 0).tag l.length none s))

/-- EOP_TIMEOUT (R345): the frame in progress is discarded and every descriptor fetched completes with TRUNC. -/
def execEopTimeout (p r : Nat) (s : State) : Out :=
  guardUnit (decide (p < 32 ∧ 4 ≤ r ∧ r < 8))
    (let k := ringKey p r
     let g := hringAt s k
     if g.cur.isEmpty then s
     else g.cur.foldl (fun s d => pushDone k d.tag 1 (some 6) s) (modHring k (fun g => { g with cur := [] }) s))

/-- TS2_TIMEOUT (R346): the timestamp of frame `id` of the ring has not been captured within 10 ms. -/
def execTs2Timeout (p r id : Nat) (s : State) : Out :=
  guardUnit (decide (p < 32 ∧ 4 ≤ r ∧ r < 8))
    (if (hringAt s (ringKey p r)).done.any (fun x => decide (x.id = id) && x.status.isNone) then
      complete (ringKey p r) id 3 0 0 s else s)

end Sys2Proof.Machine
end

