-- ==== Sys2Proof/Machine/Basin.lean ====
section
/-! DEFINITION. The Basin: classification (R360-R365), cell memory, admission and overflow (R366-R372),
ageing and transmission selection (R373-R379), stream contexts (R380-R385), the host port (R386), what an
egress MAC does (R337, R350), classes BASIN and STREAM. -/
namespace Sys2Proof.Machine

/-! ### Counters (R390) -/

/-- Queue counter `k` plus `n`; octet counters are 48 bits wide. -/
def countQ (q k n : Nat) (s : State) : State :=
  let w := if k = 1 ∨ k = 3 then 48 else 32
  let old := tget ctr0 (queueAt s q).counters k
  let s1 := modQueue q (fun x => { x with counters := tput ctr0 k ((old + n) % 2 ^ w) x.counters }) s
  if old < 2 ^ (w - 1) ∧ 2 ^ (w - 1) ≤ old + n then emit 0x2505 (0x2100 + q) s1 (cause := k) else s1

/-- Global counter `k` plus one. -/
def countG (k : Nat) (s : State) : State :=
  let (n, half) := bump 32 (tget ctr0 s.net.globals k)
  let s1 := modNet (fun v => { v with globals := tput ctr0 k n v.globals }) s
  if half then emit 0x2505 0x4000 s1 (cause := k) else s1

/-- Stream counter `k` plus `n`; `in_octets` is 48 bits wide. -/
def countS (i k n : Nat) (s : State) : State :=
  let w := if k = 1 then 48 else 32
  let old := tget ctr0 (streamAt s i).counters k
  let s1 := modStream i (fun x => { x with counters := tput ctr0 k ((old + n) % 2 ^ w) x.counters }) s
  if old < 2 ^ (w - 1) ∧ 2 ^ (w - 1) ≤ old + n then emit 0x2604 i s1 (cause := k) else s1

/-! ### Cell memory (R366, R368) -/

/-- The Basin pool: packet memory less the CAN cells and the batches of enabled talkers. -/
def poolCells (s : State) : Nat :=
  32768 - (List.range 12).foldl (fun n c => n + (canAt s c).cfg.rxCells + (canAt s c).cfg.txCells) 0 -
  (List.range 64).foldl (fun n t => n + if (talkerAt s t).en then (talkerAt s t).cells else 0) 0

/-- Sum of `q_min` over all queues; port 12 has none. -/
def qMinSum (s : State) : Nat :=
  (List.range 128).foldl (fun n q => n + if q / 8 = 12 then 0 else (queueAt s q).qMin) 0

/-- Cells of a copy. -/
def copyCells (c : Copy) : Nat := frameCells c.fr.f

/-- On-chip cells of a queue. -/
def qCells (q : Queue) : Nat := q.copies.foldl (fun n c => if c.ovf then n else n + copyCells c) 0

/-- Cells of a queue in overflow. -/
def qOvf (q : Queue) : Nat := q.copies.foldl (fun n c => if c.ovf then n + copyCells c else n) 0

/-- Cells in overflow, all queues. -/
def ovfCells (s : State) : Nat := s.net.queues.foldl (fun n e => n + qOvf e.2) 0

/-- Cells of a pound's queue at port 12. -/
def hostCells (s : State) (p : Nat) : Nat := (hostqAt s p).foldl (fun n c => n + copyCells c) 0

/-- Free cells of the shared part of the pool. -/
def sharedFree (s : State) : Nat :=
  poolCells s - qMinSum s - s.net.queues.foldl (fun n e => n + (qCells e.2 - e.2.qMin)) 0 -
  s.net.hostq.foldl (fun n e => n + e.2.foldl (fun m c => m + copyCells c) 0) 0

/-- Free cells of the pool: each stored frame counts once. -/
def poolFree (s : State) : Nat :=
  poolCells s - (heldFrames s).foldl (fun n x => n + frameCells x.f) 0 + ovfCells s

/-- Descriptors in use. -/
def descUsed (s : State) : Nat :=
  s.net.queues.foldl (fun n e => n + e.2.copies.length) 0 + s.net.hostq.foldl (fun n e => n + e.2.length) 0

/-- Overflow is possible (R371): an area, the LPDDR4X, and VCORE in IDLE or ACTIVE. -/
def ovfReady (s : State) : Bool :=
  decide (s.sys.ovfMib ≠ 0 ∧ s.sys.ddrMib ≠ 0 ∧ s.pwr.state < 2) && s.pwr.vcoreEn

/-- Cells of the overflow area. -/
def ovfArea (s : State) : Nat := s.sys.ovfMib * 8192

/-- BASIN_OVERFLOW when the total reaches the area and when it falls below 90 % of it (R372). -/
def ovfReport (s : State) : State :=
  let n := ovfCells s
  if !s.net.ovfFull && decide (ovfArea s ≤ n ∧ s.sys.ovfMib ≠ 0) then
    emit 0x2504 0x4000 (modNet (fun v => { v with ovfFull := true }) s) (cause := 3) (value := n)
  else if s.net.ovfFull && decide (10 * n < 9 * ovfArea s) then
    emit 0x2504 0x4000 (modNet (fun v => { v with ovfFull := false }) s) (cause := 4) (value := n)
  else s

/-- Overflow stops on entry to STANDBY and is ready on return (R372). -/
def ovfGate (s : State) : State :=
  if s.sys.ovfMib = 0 ∨ ovfReady s = s.net.ovfOn then s
  else emit 0x2504 0x4000 (modNet (fun v => { v with ovfOn := ovfReady s }) s)
    (cause := if ovfReady s then 2 else 1) (value := ovfCells s)

/-! ### Gates and credit (R375, R377) -/

/-- Length of the gate cycle in ns, when it is whole. -/
def gateCycle (g : GateList) (p : Nat) : Option Nat :=
  if g.mul then some (p * (g.n + 1)) else if p % (g.n + 1) = 0 then some (p / (g.n + 1)) else none

/-- A list obeys R377 at period `p`. -/
def gateListOk (g : GateList) (p : Nat) : Bool :=
  (g.mul || decide (g.n < 8)) && decide (1 ≤ g.count ∧ g.count ≤ 64) &&
  (List.range g.count).all (fun k => decide (100 ≤ tget ctr0 g.ivals k)) &&
  decide (gateCycle g p = some ((List.range g.count).foldl (fun n k => n + tget ctr0 g.ivals k) 0))

/-- Every enabled list obeys R377 at period `p` (R378). -/
def gatesFit (s : State) (p : Nat) : Bool :=
  (List.range 16).all (fun i => let g := gateAt s i
    (!g.live.en || gateListOk g.live p) && (!g.set.en || gateListOk g.set p))

/-- Gates of a port now: bit c is class c open. -/
def gatesNow (s : State) (p : Nat) : Nat :=
  let g := gateAt s p
  if g.live.en then tget gates0 g.live.gates g.idx else 0xFF

/-- Time from entry `i` over `n` entries to the closing of class `c`; none when it stays open. -/
def openFor (l : GateList) (c : Nat) : Nat → Nat → Nat → Option Nat
  | 0, _, _ => none
  | n + 1, i, acc =>
    if bitOf c (tget gates0 l.gates i) then openFor l c n ((i + 1) % l.count) (acc + tget ctr0 l.ivals i)
    else some acc

/-- Time to the next closing of class `c` on port `p` (R379). -/
def untilClose (s : State) (p c : Nat) : Option Nat :=
  let g := gateAt s p
  if !g.live.en then none
  else if !bitOf c (gatesNow s p) then some 0
  else
    let rest := ((tget ctr0 g.live.ivals g.idx : Nat) - ((s.tide.counter : Int) - g.since)).toNat
    openFor g.live c g.live.count ((g.idx + 1) % g.live.count) rest

/-- The class is transmitting. -/
def sendingIs (s : State) (p c : Nat) : Bool :=
  match (portAt s p).sending with | some x => decide (x.1 = c) | none => false

/-- Credits of a port brought up to now (R375). -/
def settle (p : Nat) (s : State) : State :=
  (List.range 8).foldl (fun s c =>
    let q := queueAt s (8 * p + c)
    if !q.cbs then s
    else
      let dt : Int := ((s.tide.counter - q.credAt : Nat) : Int)
      let up := !q.copies.isEmpty && !sendingIs s p c && bitOf c (gatesNow s p)
      modQueue (8 * p + c) (fun q => { q with
        credit := if up then q.credit + dt * q.slope else q.credit, credAt := s.tide.counter }) s) s

/-! ### Admission (R366-R370) -/

/-- A drop at a queue, reported once (R370): cause 0 `drop_full`, 1 `early_drop`. -/
def dropCopy (q cause : Nat) (s : State) : State :=
  let s := countQ q (4 + cause) 1 s
  if (queueAt s q).dropRep then s
  else emit 0x2501 (0x2100 + q) (modQueue q (fun x => { x with dropRep := true }) s) (cause := cause)

/-- A copy joins its queue. -/
def linkCopy (q : Nat) (c : Copy) (s : State) : State :=
  let s := settle (q / 8) s
  let s := modQueue q (fun x => { x with copies := x.copies ++ [c] }) s
  let s := countQ q 1 (frameLen c.fr.f) (countQ q 0 1 s)
  let s := if c.ovf then ovfReport (countQ q 8 1 s) else s
  if c.ce then countQ q 6 1 s else s

/-- One copy at one queue (R368): whether it was admitted. `full` says that the overflow write buffer is
full (R371). -/
def enqueueCopy (q : Nat) (c : Copy) (full : Bool) (s : State) : Bool × State :=
  if 16384 ≤ descUsed s then (false, countG 3 s) else
  let x := queueAt s q
  let need := copyCells c
  let n := qCells x + need
  let ect := decide (ecnOf c.fr.f ≠ 0)
  let spilled :=
    if x.be && ovfReady s && decide (qOvf x + need ≤ x.ovfMax ∧ ovfCells s + need ≤ ovfArea s) then
      if full then (false, countQ q 9 1 s) else (true, linkCopy q { c with ovf := true } s)
    else (false, dropCopy q 0 s)
  if decide (0 < qOvf x) && x.be then spilled
  else if n ≤ x.qMin then (true, linkCopy q c s)
  else if x.qMax < n ∨ sharedFree s < need then spilled
  else if !ect && decide (x.dropTh < n) then (false, dropCopy q 1 s)
  else (true, linkCopy q { c with
    ce := ect && decide (x.markTh < n) && (swAt s (q / 8)).ecnEn && decide (ecnOf c.fr.f ≠ 3) } s)

/-- Cells the Aqueduct holds for a pound (R452). -/
def aqCells (s : State) (p : Nat) : Nat :=
  (List.range 4).foldl (fun n k => n + (tget rxq0 s.aq.rx (4 * p + k)).foldl (fun m r => m + (r.length + 127) / 128) 0) 0

/-- Copies of a frame for port 12 (R340, R386): whether any was admitted. -/
def admitHost (c : Copy) (s : State) : Bool × State :=
  let l := hostMatches s c.fr.f
  if l.isEmpty then (false, countPort 12 19 1 s)
  else l.foldl (fun (acc : Bool × State) i =>
    let h := hfAt acc.2 i
    let s := acc.2
    if h.keeper then (true, modNet (fun v => { v with keeperRx := v.keeperRx ++ [c.fr] }) s)
    else if h.pound = c.fr.pound then acc
    else if 16384 ≤ descUsed s then (acc.1, countG 3 s)
    else if (poundAt s h.pound).rxCells < hostCells s h.pound + aqCells s h.pound + copyCells c then (acc.1, countG 4 s)
    else (true, modHostq h.pound (fun l => l ++ [{ c with filter := i, ring := h.ring }]) s)) (false, s)

/-! ### Classification (R360-R365) -/

/-- VID and priority of a frame at ingress (R360). -/
def ingressTag (s : State) (f : EthFrame) (inp : Nat) : Nat × Nat :=
  let w := swAt s inp
  (if f.tagged && decide (f.vid ≠ 0) then f.vid else w.pvid, if f.tagged then f.pcp else w.defPcp)

/-- Where a frame goes (R360, R364). -/
def routeFrame (s : State) (x : NetFrame) (vid pcp : Nat) (st : Option Fdb) : Routed :=
  let base := fdbLookup s x.f.dst vid x.ing
  let own := match st with | some e => decide (e.mask ≠ 0) | none => false
  let (mask, prio, drop) := if own then ((st.getD {}).mask, none, false) else base
  let prio := match st with | some e => if e.prioEn then some e.prio else prio | none => prio
  let mask := mask &&& members16 s vid
  let mask := if x.ing ≠ 12 ∧ bitOf x.ing mask = true then mask - 2 ^ x.ing else mask
  { fr := x, vid := vid, pcp := prio.getD pcp, mask := mask, drop := drop }

/-! ### What the egress MAC does (R337, R338, R350) -/

/-- Egress MAC protects the frame (R350). -/
def protects (s : State) (p : Nat) (f : EthFrame) : Bool :=
  decide (p < 8) && (portAt s p).macsec && !isEapol f && !(isGptp f && (secyAt s p).bypass)

/-- The checksum request cannot be met (R338). -/
def csumSkip (x : NetFrame) : Bool :=
  (x.mark.ipCsum || x.mark.l4Csum) && (match parseIp x.f with
    | some i => i.frag || (x.mark.l4Csum && !hasL4 i)
    | none => true)

/-- Bytes of an insertion (R83). -/
def insBytes (m : TxMark) (s : State) : List Byte :=
  if m.insFmt then beBytes 8 s.tide.counter else beBytes 6 s.tide.sec ++ beBytes 4 s.tide.ns

/-- The insertion lies beyond the end of the leaving frame `f`, as the tag work leaves it (R83). -/
def insBeyond (m : TxMark) (f : EthFrame) : Bool :=
  m.ins && decide ((frameBytes f).length < m.insOff + (if m.insFmt then 8 else 10))

/-- Status of a frame sent, from the ports it goes to and what leaves there (R83, R338, R346, R350). -/
def sentStatus (s : State) (x : NetFrame) (out : List (Nat × EthFrame)) : Nat :=
  if csumSkip x then 2
  else if x.mark.ins && out.any (fun q => insBeyond x.mark q.2 || protects s q.1 q.2) then 1 else 0

/-- The tag of a copy at egress (R362). -/
def egressTag (s : State) (p : Nat) (c : Copy) : EthFrame :=
  let f := c.fr.f
  if c.fr.direct.isSome then f
  else if p < 14 ∧ bitOf p (vlanAt s c.vid).untag = true then { f with tagged := false, vid := 0, pcp := 0, dei := false }
  else { f with tagged := true, vid := c.vid }

/-- The 80-bit time of a gPTP domain (R74): domain 0 is the working clock, another the application domain bound to it. -/
def stamp80 (s : State) (dom : Nat) : List Byte :=
  match (if dom = 0 then none else (List.range' 1 8).find? (fun d => (domAt s d).gptp && decide ((domAt s d).number = dom))) with
  | some d => beBytes 6 ((domValue s d).toNat / nsPerSec) ++ beBytes 4 ((domValue s d).toNat % nsPerSec)
  | none => beBytes 6 s.tide.sec ++ beBytes 4 s.tide.ns

/-- Steps 1 and 2 of R337 on a leaving frame, after the tag and the ECN mark: insertion, then checksums. -/
def egressBytes (s : State) (p : Nat) (c : Copy) : EthFrame :=
  let f := egressTag s p c
  let f := if c.ce then markEcn f else f
  let m := c.fr.mark
  let f := if m.ins && !insBeyond m f && !protects s p f then parseEth (overlay (frameBytes f) m.insOff (insBytes m s)) else f
  let f :=
    if isGptp f && decide (c.fr.pound = 32) && !(gportAt s p).twoStep then
      if c.fr.relay then
        let corr : Int := toS 64 (beAt f.payload 8 8)
        let add : Int := ((workNs s - c.fr.arr + (gportAt s c.fr.ing).delay : Nat) : Int)
        { f with payload := overlay f.payload 8 (beBytes 8 (ofS 64 (corr + add * 65536))) }
      else if beAt f.payload 0 1 % 16 = 0 then
        { f with payload := overlay f.payload 34 (stamp80 s (beAt f.payload 4 1)) }
      else f
    else f
  if csumSkip c.fr then f
  else match parseIp f with
    | some i =>
      let b := if m.ipCsum then putIpCsum f.payload i else f.payload
      { f with payload := if m.l4Csum && hasL4 i then putL4Csum b i else b }
    | none => f

/-! ### Ingress -/

/-- The completion of a pound frame once its copies are decided (R346): none while one copy waits for its
timestamp. -/
def ingressDone (x : NetFrame) (ports : List Nat) (any : Bool) (s : State) (vid : Nat := 1) : State :=
  match x.mark.ring with
  | none => s
  | some k =>
    if !any then complete k x.mark.id 7 0 0 s
    else if x.mark.ts2 then
      if 1 < ports.length then complete k x.mark.id 4 0 0 s else s
    else complete k x.mark.id (sentStatus s x (ports.map (fun p => (p, egressTag s p { fr := x, vid := vid })))) 0 0 s

/-- Ports of a mask, ascending. -/
def portsOf (mask : Nat) : List Nat := (List.range 16).filter (fun p => bitOf p mask)

/-- Admission of a classified frame at every destination (R360). -/
def admitAll (r : Routed) (full : Bool) (s : State) : State :=
  if r.drop then ingressDone r.fr [] false (countG 2 s)
  else if r.mask = 0 then ingressDone r.fr [] false (countG 0 s)
  else
    let f := { r.fr.f with pcp := r.pcp }
    let ports := portsOf r.mask
    let (any, s) := ports.foldl (fun (acc : Bool × State) p =>
      let c : Copy := { fr := { r.fr with f := f }, vid := r.vid }
      let (ok, s) := if p = 12 then admitHost c acc.2
        else enqueueCopy (8 * p + fieldOf (3 * r.pcp) 3 (swAt acc.2 p).pcpTc) c full acc.2
      (acc.1 || ok, s)) (false, s)
    ingressDone r.fr ports any s (vid := r.vid)

/-! ### Stream contexts (R380-R385) -/

/-- Tokens of a bucket after `dt` ns at `rate` kbit/s, not above the burst (R382). -/
def refill (tok rate burst dt : Nat) : Nat := min (burst * 8000000) (tok + rate * dt)

/-- The meter (R382): the colour, 0 green, 1 yellow, 2 red, and the state after it. -/
def meterFrame (i len : Nat) (s : State) : Nat × State :=
  let x := streamAt s i
  if !x.meterEn then (0, countS i 4 1 s)
  else
    let dt := s.tide.counter - x.filled
    let c := refill x.cTok x.cir x.cbs dt
    let e := refill x.eTok x.eir x.ebs dt
    let need := len * 8000000
    let s := modStream i (fun x => { x with cTok := c, eTok := e, filled := s.tide.counter }) s
    let red := fun (s : State) =>
      let s := countS i 6 1 (modStream i (fun x => { x with redLatched := x.redLatched || x.redLatch }) s)
      if (streamAt s i).redRep then s
      else emit 0x2602 i (modStream i (fun x => { x with redRep := true }) s) (value := len)
    if x.redLatched && x.redLatch then (2, red s)
    else if need ≤ c then (0, countS i 4 1 (modStream i (fun x => { x with cTok := c - need }) s))
    else if need ≤ e then (1, countS i 5 1 (modStream i (fun x => { x with eTok := e - need }) s))
    else (2, red s)

/-- Sequence recovery (R383): whether the number is accepted. -/
def recoverSeq (i seq : Nat) (s : State) : Bool × State :=
  let x := streamAt s i
  let d := toS 16 (ofS 16 ((seq : Int) - (x.recSeq : Int)))
  if x.takeAny then (true, modStream i (fun x => { x with hist := 1, recSeq := seq, takeAny := false }) s)
  else if d ≥ (x.histLen : Int) ∨ d ≤ -(x.histLen : Int) then
    let s := countS i 8 1 s
    (false, if x.rogueRep then s
      else emit 0x2603 i (modStream i (fun x => { x with rogueRep := true }) s) (cause := 2) (value := x.recSeq))
  else if d > 0 then
    (true, modStream i (fun x => { x with hist := (x.hist * 2 ^ d.toNat) % 2 ^ 32 ||| 1, recSeq := seq }) s)
  else if bitOf (-d).toNat x.hist then (false, countS i 7 1 s)
  else (true, modStream i (fun x => { x with hist := x.hist ||| 2 ^ (-d).toNat }) s)

/-- Distance of a number ahead of another, modulo 65,536. -/
def seqAhead (a b : Nat) : Nat := (a + 65536 - b) % 65536

/-- Held frames in ascending sequence order from `b`. -/
def heldSorted (b : Nat) (l : List Held) : List Held :=
  l.foldl (fun acc h =>
    let k := toS 16 (ofS 16 ((h.seq : Int) - (b : Int)))
    let before := acc.takeWhile (fun g => decide (toS 16 (ofS 16 ((g.seq : Int) - (b : Int))) < k))
    before ++ [h] ++ acc.drop before.length) []

/-- Held frames that follow the next number in order leave (R385). -/
def releaseRun (i : Nat) (full : Bool) : Nat → State → State
  | 0, s => s
  | n + 1, s =>
    let x := streamAt s i
    match x.next with
    | none => s
    | some q => match x.held.find? (fun h => decide (h.seq = q)) with
      | some h => releaseRun i full n (admitAll h.r full (modStream i (fun x => { x with
          held := x.held.erase h, next := some ((q + 1) % 65536) }) s))
      | none => s

/-- Every held frame leaves in ascending sequence order; each missing number skipped is counted (R385). -/
def releaseAll (i : Nat) (full : Bool) (s : State) : State :=
  let x := streamAt s i
  let l := heldSorted (x.next.getD (elemOr { seq := 0, at_ := 0, r := {} } x.held 0).seq) x.held
  let s := modStream i (fun x => { x with held := [] }) s
  l.foldl (fun s h =>
    let q := ((streamAt s i).next).getD h.seq
    let ahead := seqAhead h.seq q
    let s := if ahead < 32768 then
        let s := if 0 < ahead then countS i 12 ahead s else s
        modStream i (fun x => { x with next := some ((h.seq + 1) % 65536) }) s
      else s
    admitAll h.r full s) s

/-- The resequencer (R385). -/
def resequence (i seq : Nat) (r : Routed) (full : Bool) (s : State) : State :=
  let x := streamAt s i
  let now := match x.next with | some q => decide (seq = q) | none => true
  if now then
    releaseRun i full x.held.length (admitAll r full (modStream i (fun x => { x with next := some ((seq + 1) % 65536) }) s))
  else
    let s := if x.depth < x.held.length + 1 then releaseAll i full s else s
    let again := match (streamAt s i).next with | some q => decide (seq = q) | none => true
    if again then
      releaseRun i full x.held.length (admitAll r full (modStream i (fun x => { x with next := some ((seq + 1) % 65536) }) s))
    else countS i 11 1 (modStream i (fun x => { x with held := x.held ++ [{ seq := seq, at_ := s.tide.counter, r := r }] }) s)

/-- A frame of a stream (R380-R385). A frame that a step drops is refused. -/
def streamFrame (i : Nat) (r : Routed) (full : Bool) (s : State) : State :=
  let x := streamAt s i
  let refuse := fun (s : State) => ingressDone r.fr [] false s
  if !x.en then admitAll r full s
  else
    let len := frameLen r.fr.f
    let s := countS i 1 len (countS i 0 1 s)
    if x.blocked then refuse (countS i 3 1 s)
    else if x.maxSdu < len then
      let s := countS i 2 1 s
      refuse (if x.sduBlock then emit 0x2601 i (modStream i (fun x => { x with blocked := true }) s) (value := len) else s)
    else
      let (colour, s) := meterFrame i len s
      if colour = 2 ∨ (colour = 1 ∧ x.dropYellow = true) then refuse s
      else
        let f := if colour = 1 then { r.fr.f with dei := true } else r.fr.f
        if x.gen then
          let f := { f with rtag := some x.genSeq }
          admitAll { r with fr := { r.fr with f := f } } full
            (modStream i (fun x => { x with genSeq := (x.genSeq + 1) % 65536 }) s)
        else if x.recover then
          match f.rtag with
          | none =>
            if x.takeNoSeq then admitAll { r with fr := { r.fr with f := f } } full s
            else refuse (countS i 9 1 s)
          | some q =>
            let (ok, s) := recoverSeq i q s
            if !ok then refuse s
            else
              let f := if x.popRtag then { f with rtag := none } else f
              let r := { r with fr := { r.fr with f := f } }
              if x.reseq then resequence i q r full s else admitAll r full s
        else admitAll { r with fr := { r.fr with f := f } } full s

/-! ### Classes BASIN and STREAM -/

/-- Counters of a queue (R374, R639). -/
def queueCtrs (t : Tbl Nat) : List Byte :=
  (List.range 10).flatMap (fun k => leBytes (if k = 1 ∨ k = 3 then 6 else 4) (tget ctr0 t k))

/-- Forwarding entry (R363). -/
def fdbRec (i : Nat) : Rec :=
  { len := 16
    flds := lift (fun s => fdbAt s i) (modFdb i) [
      rwF 0 0 2 (·.kind) (fun n e => { e with kind := n }), rwB 0 2 (·.drop) (fun v e => { e with drop := v }),
      rwB 0 3 (·.prioEn) (fun v e => { e with prioEn := v }), rwF 0 4 3 (·.prio) (fun n e => { e with prio := n }),
      rwF 1 0 8 (·.stream) (fun n e => { e with stream := n }), rwF 2 0 16 (·.mask) (fun n e => { e with mask := n }),
      rwF 4 0 12 (·.vid) (fun n e => { e with vid := n }) (rng 1 4094), rwF 6 0 48 (·.mac) (fun n e => { e with mac := n }),
      rwF 12 0 16 (·.inMask) (fun n e => { e with inMask := n })] }

/-- Switch port record (R362). -/
def swRec (p : Nat) : Rec :=
  { len := 8
    flds := lift (fun s => swAt s p) (modSw p) [
      rwF 0 0 12 (·.pvid) (fun n w => { w with pvid := n }) (rng 1 4094), rwF 0 12 3 (·.defPcp) (fun n w => { w with defPcp := n }),
      rwB 0 15 (·.strict) (fun v w => { w with strict := v }), rwF 2 0 24 (·.pcpTc) (fun n w => { w with pcpTc := n }),
      rwB 5 0 (·.guard) (fun v w => { w with guard := v }), rwB 5 1 (·.floodUc) (fun v w => { w with floodUc := v }),
      rwB 5 2 (·.floodMc) (fun v w => { w with floodMc := v }), rwB 5 3 (·.ecnEn) (fun v w => { w with ecnEn := v })] }

/-- Credit in 1/256 bit (R374). -/
def creditCode (c : Int) : Nat := ofS 48 (c * 256 / 1000000)

/-- Queue record (R374). -/
def queueRec (q : Nat) : Rec :=
  { len := 40
    flds := lift (fun s => queueAt s q) (modQueue q) [
      rwB 0 0 (·.cbs) (fun v x => { x with cbs := v }), rwB 0 1 (·.be) (fun v x => { x with be := v }),
      rwF 2 0 16 (·.qMin) (fun n x => { x with qMin := n }) (rng 0 4096),
      rwF 4 0 16 (·.qMax) (fun n x => { x with qMax := n }) (rng 18 32768),
      rwF 6 0 16 (·.markTh) (fun n x => { x with markTh := n }), rwF 8 0 16 (·.dropTh) (fun n x => { x with dropTh := n }),
      rwF 12 0 32 (·.slope) (fun n x => { x with slope := n }),
      rwF 16 0 32 (·.maxRes) (fun n x => { x with maxRes := n }) (rng 0 10000000),
      rwF 20 0 32 (·.ovfMax) (fun n x => { x with ovfMax := n }),
      roF 24 0 16 qCells, roF 26 0 16 (·.copies.length), roF 28 0 32 qOvf] ++
      [liveF 32 0 48 (fun s => creditCode (queueAt (settle (q / 8) s) q).credit)]
    more := fun s => queueCtrs (queueAt s q).counters }

/-- A field of a gate list as set. -/
def gateF (byte bit w : Nat) (get : GateList → Nat) (set : Nat → GateList → GateList) (ok : Nat → Bool := fun _ => true) : UFld Gate :=
  rwF byte bit w (fun g => get g.set) (fun n g => { g with set := set n g.set }) ok

/-- Gate list (R377). -/
def gateRec (p : Nat) : Rec :=
  { len := 528
    flds := lift (fun s => gateAt s p) (modGate p) ([
      gateF 0 0 1 (fun g => b2n g.en) (fun n g => { g with en := decide (n = 1) }),
      gateF 0 1 1 (fun g => b2n g.mul) (fun n g => { g with mul := decide (n = 1) }),
      roB 0 2 (fun g => decide (g.set ≠ g.live)),
      gateF 1 0 8 (·.n) (fun n g => { g with n := n }), gateF 2 0 7 (·.count) (fun n g => { g with count := n }) (rng 1 64),
      roF 4 0 48 (·.operCycle)] ++
      (List.range 64).flatMap (fun k => [
        gateF (16 + 8 * k) 0 8 (fun g => tget gates0 g.gates k) (fun n g => { g with gates := tput gates0 k n g.gates }),
        gateF (20 + 8 * k) 0 32 (fun g => tget ctr0 g.ivals k) (fun n g => { g with ivals := tput ctr0 k n g.ivals })
          (rng 100 (2 ^ 32 - 1))])) }

/-- VLAN entry (R362). -/
def vlanRec (v : Nat) : Rec :=
  { len := 4
    flds := lift (fun s => vlanAt s v) (modVlan v) [
      rwF 0 0 16 (·.member) (fun n x => { x with member := n }), rwF 2 0 16 (·.untag) (fun n x => { x with untag := n }) (rng 0 0x3FFF)] }

/-- Global record (R387). -/
def basinGlobalRec : Rec :=
  { len := 20
    flds := [liveF 0 0 16 poolCells, liveF 2 0 16 poolFree, liveF 4 0 16 (fun s => 16384 - descUsed s),
      liveF 6 0 1 (fun s => b2n (ovfReady s)), liveF 8 0 32 ovfCells,
      ⟨96, 32, true, rng 0 10000000, (·.net.hostMaxRes), fun n => modNet (fun v => { v with hostMaxRes := n })⟩]
    more := fun s => (List.range 6).flatMap (fun k => leBytes 4 (tget ctr0 s.net.globals k)) }

def basinRecord (i part : Nat) : Option Rec :=
  if part ≠ 0 then none
  else if i < 0x2000 then some (fdbRec i)
  else if i < 0x2010 then some (swRec (i - 0x2000))
  else if 0x2100 ≤ i ∧ i < 0x2180 then some (queueRec (i - 0x2100))
  else if 0x2200 ≤ i ∧ i < 0x2210 then some (gateRec (i - 0x2200))
  else if 0x3001 ≤ i ∧ i ≤ 0x3FFE then some (vlanRec (i - 0x3000))
  else if i = 0x4000 then some basinGlobalRec
  else none

/-- Two forwarding entries that may not coexist (R363). -/
def fdbClash (a b : Fdb) : Bool :=
  decide (a.kind ≠ 0 ∧ a.kind = b.kind ∧ a.mac = b.mac ∧ a.vid = b.vid) &&
  (decide (a.kind = 1 ∨ a.inMask = 0 ∨ b.inMask = 0) || decide (a.inMask &&& b.inMask ≠ 0))

/-- The rules of a queue (R368, R371, R375) in state `t`. -/
def queueOk (t : State) (q : Nat) : Bool :=
  let x := queueAt t q
  decide (x.qMin ≤ x.markTh ∧ x.markTh ≤ x.dropTh ∧ x.dropTh ≤ x.qMax) &&
  decide (2 * qMinSum t ≤ poolCells t) && (!x.be || decide (x.ovfMax = 0) || decide (36 ≤ x.qMin)) &&
  slopesFit t (q / 8)

/-- Checks of a BASIN SET. -/
def basinCheck (s : State) (_p i part : Nat) (ws : List (Nat × Nat)) : Status :=
  let t := asSet 0x25 basinRecord i part ws s
  if breaksExt s t then .eRange
  else if i < 0x2000 then
    if t.net.fdb.any (fun e => decide (e.1 ≠ i) && fdbClash e.2 (fdbAt t i)) then .eState else .ok
  else if 0x2100 ≤ i ∧ i < 0x2180 then
    if queueOk t (i - 0x2100) then .ok else .eRange
  else if 0x2200 ≤ i ∧ i < 0x2210 then
    let g := (gateAt t (i - 0x2200)).set
    if (periods s).all (fun p => gateListOk g p) then .ok else .eRange
  else .ok

/-- What follows a BASIN SET: credits run from here when a shaper changes, and lost copies do not return. -/
def basinAfter (s0 : State) (i _part : Nat) (_ws : List (Nat × Nat)) (s : State) : State :=
  if i < 0x2000 then modFdb i (fun e => { e with bad := false }) s
  else if 0x2100 ≤ i ∧ i < 0x2180 then
    let was := (queueAt (settle ((i - 0x2100) / 8) s0) (i - 0x2100)).credit
    modQueue (i - 0x2100) (fun q => { q with credAt := s.tide.counter, credit := if q.cbs then was else 0 }) s
  else if 0x3001 ≤ i ∧ i ≤ 0x3FFE then modVlan (i - 0x3000) (fun v => { v with bad := false }) s
  else s

/-- Class BASIN (R389, R439). -/
def basinClass : ClassSpec :=
  { code := 0x25
    ranges := [(0, 0x2000), (0x2000, 16), (0x2100, 128), (0x2200, 16), (0x3001, 4094), (0x4000, 1)]
    record := basinRecord
    verbs := [1, 2, 3, 4, 5, 6]
    events := 5
    setCheck := basinCheck
    setCyc := fun _ _ => true
    after := basinAfter
    open0 := fun _ _ verb i => decide (verb = 1 ∧ 0x2100 ≤ i ∧ i < 0x2180)
    acts := [{ code := 1, cyc := false, insts := fun i => decide (0x2100 ≤ i ∧ i < 0x2180 ∨ i = 0x4000)
               argOk := fun n => decide (n = 0), auth := fun _ p _ _ => decide (p = 0), check := fun _ _ _ _ => .ok
               run := fun _ i _ s =>
                 if i = 0x4000 then modNet (fun v => { v with globals := [] }) s
                 else modQueue (i - 0x2100) (fun q => { q with counters := [], dropRep := false, agedRep := false }) s }] }

/-- Stream context (R380). -/
def streamRec (i : Nat) : Rec :=
  { len := 32
    flds := lift (fun s => streamAt s i) (modStream i) [
      rwB 0 0 (·.en) (fun v x => { x with en := v }), rwB 0 1 (·.sduBlock) (fun v x => { x with sduBlock := v }),
      roB 0 2 (·.blocked), rwB 0 3 (·.meterEn) (fun v x => { x with meterEn := v }),
      rwB 0 4 (·.dropYellow) (fun v x => { x with dropYellow := v }), rwB 0 5 (·.redLatch) (fun v x => { x with redLatch := v }),
      roB 0 6 (·.redLatched),
      rwB 1 0 (·.recover) (fun v x => { x with recover := v }), rwB 1 1 (·.gen) (fun v x => { x with gen := v }),
      rwB 1 2 (·.popRtag) (fun v x => { x with popRtag := v }), rwB 1 3 (·.takeNoSeq) (fun v x => { x with takeNoSeq := v }),
      rwB 1 4 (·.reseq) (fun v x => { x with reseq := v }),
      rwF 2 0 16 (·.maxSdu) (fun n x => { x with maxSdu := n }) (rng 64 2304),
      rwF 4 0 32 (·.cir) (fun n x => { x with cir := n }), rwF 8 0 32 (·.cbs) (fun n x => { x with cbs := n }),
      rwF 12 0 32 (·.eir) (fun n x => { x with eir := n }), rwF 16 0 32 (·.ebs) (fun n x => { x with ebs := n }),
      rwF 20 0 6 (·.histLen) (fun n x => { x with histLen := n }) (rng 2 32),
      rwF 21 0 5 (·.depth) (fun n x => { x with depth := n }) (rng 1 16),
      rwF 22 0 16 (·.resetMs) (fun n x => { x with resetMs := n }) (rng 1 10000),
      rwF 24 0 16 (·.wait) (fun n x => { x with wait := n }) (rng 1 10000),
      roF 26 0 16 (·.genSeq), roF 28 0 16 (·.recSeq)]
    more := fun s => (List.range 13).flatMap (fun k => leBytes (if k = 1 then 6 else 4) (tget ctr0 (streamAt s i).counters k)) }

def streamRecord (i part : Nat) : Option Rec := if part = 0 ∧ i < 256 then some (streamRec i) else none

/-- Checks of a STREAM SET (R380, R385). -/
def streamCheck (s : State) (_p i part : Nat) (ws : List (Nat × Nat)) : Status :=
  let t := match streamRecord i part with | some rc => writeFlds rc ws s | none => s
  let x := streamAt t i
  if (x.recover && x.gen) || (x.reseq && !x.recover) then .eRange
  else if 32 < ((List.range 256).filter (fun k => (streamAt t k).reseq)).length then .eBusy
  else .ok

/-- Class STREAM (R389, R439). -/
def streamClass : ClassSpec :=
  { code := 0x26
    ranges := [(0, 256)]
    record := streamRecord
    verbs := [1, 2, 3, 4, 5, 6]
    events := 4
    setCheck := streamCheck
    after := fun _ i _ _ s =>
      let s := if (streamAt s i).reseq then s else releaseAll i false s
      modStream i (fun x => { x with
        cTok := x.cbs * 8000000, eTok := x.ebs * 8000000, filled := s.tide.counter
        next := if x.reseq then x.next else none }) s
    acts := [
      { code := 1, cyc := false, argOk := fun n => decide (n = 0), auth := fun _ p _ _ => decide (p = 0)
        check := fun _ _ _ _ => .ok, run := fun _ i _ => modStream i (fun x => { x with blocked := false, redLatched := false }) },
      { code := 2, cyc := false, argOk := fun n => decide (n = 0), auth := fun _ p _ _ => decide (p = 0)
        check := fun _ _ _ _ => .ok
        run := fun _ i _ => modStream i (fun x => { x with counters := [], redRep := false, rogueRep := false }) },
      { code := 3, cyc := false, argOk := fun n => decide (n = 0), auth := fun _ p _ _ => decide (p = 0)
        check := fun _ _ _ _ => .ok
        run := fun _ i _ s =>
          let s := modStream i (fun x => { x with next := none }) (releaseAll i false s)
          let s := countS i 10 1 (modStream i (fun x => { x with takeAny := true }) s)
          emit 0x2603 i s (cause := 1) (value := (streamAt s i).recSeq) }] }

/-! ### Gate lists at boundaries (R378) -/

/-- The entry of a list at position `t` of its gate cycle, and how far into it: the first whose cumulative end
exceeds `t` (R377). -/
def gatePos (l : GateList) : Nat → Nat → Nat → Nat × Nat
  | 0, i, t => (i, t)
  | n + 1, i, t => if t < tget ctr0 l.ivals i then (i, t) else gatePos l n (i + 1) (t - tget ctr0 l.ivals i)

/-- The list in force stands where R164 and R167 place it at the boundary just made: at the start of its cycle for
P ÷ n, by the cycle number for P × n. -/
def placeGate (g : Gate) (s : State) : Gate :=
  let x := gatePos g.live (g.live.count - 1) 0 (if g.live.mul then s.cyc.number % (g.live.n + 1) * s.cyc.period else 0)
  { g with idx := x.1, since := (s.tide.counter : Int) - (x.2 : Int) }

/-- The boundary that ends cycle `eff` and begins the present one: a waiting list starts at a gate-cycle start
unless the boundary is overrun; a list in force follows its cycle. -/
def gateBoundary (eff : Nat) (overran : Bool) (s : State) : State :=
  (List.range 16).foldl (fun s p =>
    let g := gateAt s p
    let starts := fun (l : GateList) => !l.mul || decide (s.cyc.number % (l.n + 1) = 0)
    if g.set ≠ g.live ∧ !overran ∧ starts g.set then
      let s := modGate p (fun g => placeGate { g with live := g.set, operCycle := eff } s) (settle p s)
      emit 0x2503 (0x2200 + p) s (cause := 1) (value := eff)
    else if g.live.en then modGate p (fun g => placeGate g s) (settle p s)
    else s) s

/-! ### Selection (R373-R376, R379) -/

/-- Copies at the head of a queue that have been held too long are discarded (R373). -/
def ageQueue (q : Nat) : Nat → State → State
  | 0, s => s
  | n + 1, s =>
    let x := queueAt s q
    match x.copies with
    | [] => s
    | c :: r =>
      let age := workNs s - c.fr.arr
      if x.maxRes ≠ 0 ∧ x.maxRes * 1000 < age then
        let s := countQ q 7 1 (modQueue q (fun x => { x with
          copies := r, credit := if r.isEmpty ∧ x.credit > 0 then 0 else x.credit }) s)
        let s := if x.agedRep then s
          else emit 0x2502 (0x2100 + q) (modQueue q (fun x => { x with agedRep := true }) s) (value := age)
        ageQueue q n s
      else s

/-- Transmission time of a copy in ns, rounded up (R379). -/
def txTime (s : State) (p : Nat) (c : Copy) : Nat :=
  let len := frameLen (egressTag s p c) + 20 + (if protects s p c.fr.f then 32 else 0)
  (len * 8 * 1000000 + portRate s p - 1) / portRate s p

/-- A class whose head copy may start (R376). -/
def eligible (s : State) (p c : Nat) : Bool :=
  let q := queueAt s (8 * p + c)
  match q.copies with
  | [] => false
  | x :: _ =>
    !x.ovf && bitOf c (gatesNow s p) && (!q.cbs || decide (0 ≤ q.credit)) &&
    (!(swAt s p).guard || (match untilClose s p c with | some t => decide (txTime s p x ≤ t) | none => true))

/-- A transmission opportunity (R376): nothing while the port sends. -/
def selectTx (p : Nat) (s : State) : State :=
  if (portAt s p).sending.isSome then s
  else
    let s := (List.range 8).foldl (fun s c => ageQueue (8 * p + c) (queueAt s (8 * p + c)).copies.length s) (settle p s)
    match (List.range 8).reverse.find? (fun c => eligible s p c) with
    | none => s
    | some c => match (queueAt s (8 * p + c)).copies with
      | [] => s
      | x :: r => modPort p (fun v => { v with sending := some (c, x) }) (modQueue (8 * p + c) (fun q => { q with copies := r }) s)

/-- Credit after a transmission of class `c` (R375). -/
def sentCredit (p c ns : Nat) (s : State) : State :=
  modQueue (8 * p + c) (fun q =>
    if !q.cbs then q
    else
      let x := q.credit - ((portRate s p : Int) - (q.slope : Int)) * ns
      { q with credit := if q.copies.isEmpty ∧ x > 0 then 0 else x }) s

/-! ### Departure (R82-R85, R346) -/

/-- A departure time enters the port's two-step queue (R84, R85): whether there was room. -/
def pushTs (p : Nat) (e : TsEntry) (s : State) : Bool × State :=
  let q := tsqAt s p
  if q.queue.length < 64 then (true, modTsq p (fun q => { q with queue := q.queue ++ [e] }) s)
  else
    let s := modTsq p (fun q => { q with drops := (q.drops + 1) % 2 ^ 32, first := if q.drops = 0 then e.seqId else q.first }) s
    (false, if q.drops = 0 then emit 0x0304 (0x40 + p) s (value := e.seqId) else s)

/-- The timestamp of a leaving frame goes where it is asked for (R84, R86, R346). -/
def departure (p : Nat) (x : NetFrame) (f : EthFrame) (s : State) : State :=
  let s :=
    if p < 12 ∧ isGptp f = true ∧ x.pound = 32 ∧ (gportAt s p).twoStep = true ∧ beAt f.payload 0 1 % 16 < 4 then
      (pushTs p { seqId := beAt f.payload 30 2, msgType := beAt f.payload 0 1 % 16, domain := beAt f.payload 4 1
                  owner := 0xFFFF, sec := s.tide.sec, ns := s.tide.ns } s).2
    else s
  match x.mark.ring with
  | some k =>
    if x.mark.ts2 && decide (12 ≤ p ∨ (gportAt s p).twoStep = false) then
      if (hringAt s k).done.any (fun d => decide (d.id = x.mark.id) && d.status.isNone) then
        complete k x.mark.id (sentStatus s x [(p, f)]) 0 0 s
      else s
    else if x.mark.ts2 ∧ (hringAt s k).done.any (fun d => decide (d.id = x.mark.id) && d.status.isNone) then
      if (tsqAt s p).queue.length < 64 then complete k x.mark.id (sentStatus s x [(p, f)]) s.tide.sec s.tide.ns s
      else complete k x.mark.id 3 0 0 (pushTs p { seqId := x.mark.tag, msgType := 15, domain := 0, owner := x.pound, sec := 0, ns := 0 } s).2
    else s
  | none => s

/-- A sent frame is counted (R347, R374). -/
def countTx (p q : Nat) (f : EthFrame) (s : State) : State :=
  let len := frameLen f
  let s := countQ q 3 len (countQ q 2 1 s)
  if 12 ≤ p then s
  else
    let s := countPort p 11 1 (countPort p 10 len s)
    if isBroadcast f.dst then countPort p 13 1 s else if isGroup f.dst then countPort p 12 1 s else s

/-- The transmit SA of a protected frame (R349-R351): the frame as it goes on the line, or none when it is dropped. -/
def macsecTx (p : Nat) (f : EthFrame) (s : State) : Option Wire × State :=
  let y := secyAt s p
  match findSa s p y.encAn true none with
  | none => (none, countPort p 29 1 s)
  | some i =>
    let a := saAt s i
    if a.exhausted || a.revoked then (none, countPort p 29 1 s)
    else
      let last := decide (a.nextPn = 2 ^ 32 - 1)
      let warn := !a.warned && decide (y.pnWarn < a.nextPn + 1)
      let s := modSa i (fun a => { a with
        nextPn := (a.nextPn + 1) % 2 ^ 32, frames := (a.frames + 1) % 2 ^ 32, warned := a.warned || warn
        octets := (a.octets + (frameBytes f).length) % 2 ^ 48, exhausted := last }) s
      let s := countPort p 28 1 s
      let s := if warn || last then emit 0x2405 (0x400 + i) s (flags := b2n last) (value := (saAt s i).nextPn) else s
      (some { f := f, an := some y.encAn, pn := a.nextPn, sci := if y.sci then some a.sci else none, enc := y.encrypt }, s)

/-! ### Meanings -/

/-- BASIN_INGRESS (R358-R370): the oldest frame held whole is classified and admitted. `full` says that the
overflow write buffer is full. -/
def execBasinIngress (full : Bool) (s : State) : Out :=
  .next (match s.net.toBasin with
    | [] => s
    | x :: rest =>
      let s := modNet (fun v => { v with toBasin := rest }) s
      match x.direct with
      | some p =>
        (enqueueCopy (8 * p + fieldOf (3 * (swAt s 12).defPcp) 3 (swAt s p).pcpTc) { fr := x } full s).2
      | none =>
        if !s.net.loaded then ingressDone x [] false s
        else
          let (vid, pcp) := ingressTag s x.f x.ing
          if (swAt s x.ing).strict && !bitOf x.ing (members16 s vid) then ingressDone x [] false (countG 1 s)
          else
            let st := match fdbFind s 3 x.f.src vid x.ing with
              | some e => some e
              | none => fdbFind s 2 x.f.dst vid x.ing
            let r := routeFrame s x vid pcp st
            match st with
            | some e => streamFrame e.stream r full s
            | none => admitAll r full s)

/-- TRANSMISSION_SELECTION (R373, R375, R376, R379). Port 12 serves its pounds by HOST_PORT_DELIVERY. -/
def execTransmissionSelection (p : Nat) (s : State) : Out :=
  guardUnit (decide (p < 16)) (if p = 12 then s else selectTx p s)

/-- SHAPER_CREDIT_RECOVERY (R375, R376): the credit of class `c` is back at 0 and its copy may start. -/
def execShaperCreditRecovery (p c : Nat) (s : State) : Out :=
  guardUnit (decide (p < 16 ∧ c < 8))
    (if p = 12 then s
     else
       let s := settle p s
       if (queueAt s (8 * p + c)).cbs && decide (0 ≤ (queueAt s (8 * p + c)).credit) then selectTx p s else s)

/-- ETH_FRAME_TRANSMIT (R83-R86, R331, R334, R337, R350, R351): the egress MAC sends the copy selected, with
the collisions the port met under CSMA/CD. With `ecc` a cell of it reads uncorrectable: PACKET_ECC (R553) drops the
frame whole. -/
def execEthFrameTransmit (p collisions : Nat) (ecc : Bool) (s : State) : Out :=
  guardUnit (decide (p < 16))
    (match (portAt s p).sending with
     | none => s
     | some (c, x) =>
       let q := 8 * p + c
       let s := modPort p (fun v => { v with sending := none }) (settle p s)
       let f := egressBytes s p x
       if ecc then detect 0x020 false s
       else if p < 12 ∧ ((portAt s p).link ≠ 1 ∨ (portAt s p).en = false) then countPort p 15 1 s
       else if portLimit s p < frameLen f then countPort p 14 1 s
       else
         let ns := txTime s p x
         let s := if 8 ≤ p ∧ p < 12 ∧ !(portAt s p).plcaUp ∧ 0 < collisions then countPort p 16 collisions s else s
         let s := sentCredit p c ns s
         if protects s p f then
           let (w, s) := macsecTx p f s
           match w with
           | none => countQ q 3 (frameLen f) (countQ q 2 1 s)
           | some w => departure p x.fr f (countTx p q f (modPort p (fun v => { v with wire := some w }) s))
         else
           let s := departure p x.fr f (countTx p q f s)
           if p = 13 then modAq (fun a => { a with fromBasin := a.fromBasin ++ [f] }) s
           else if 14 ≤ p then towEth (p - 14) c { x.fr with f := f } s
           else modPort p (fun v => { v with wire := some { f := f } }) s)

/-- GATE_INTERVAL_END (R377): the next entry's gates apply. -/
def execGateIntervalEnd (p : Nat) (s : State) : Out :=
  guardUnit (decide (p < 16))
    (if (gateAt s p).live.en then
       modGate p (fun g => { g with idx := if g.idx + 1 < g.live.count then g.idx + 1 else 0, since := (s.tide.counter : Int) }) (settle p s)
     else s)

/-- Oldest overflow copies of a queue move back while the on-chip part lies below `q_min` (R371). -/
def fetchBack (q : Nat) : Nat → State → State
  | 0, s => s
  | n + 1, s =>
    let x := queueAt s q
    match x.copies.findIdx? (·.ovf) with
    | none => s
    | some i =>
      let c := elemOr {} x.copies i
      if qCells x < x.qMin ∧ (qCells x + copyCells c ≤ x.qMin ∨ copyCells c ≤ sharedFree s) then
        fetchBack q n (modQueue q (fun x => { x with copies := x.copies.set i { c with ovf := false } }) s)
      else s

/-- OVERFLOW_FETCH_BACK (R371, R372). -/
def execOverflowFetchBack (q : Nat) (s : State) : Out :=
  guardUnit (decide (q < 128))
    (if ovfReady s then ovfReport (fetchBack q (queueAt s q).copies.length s) else s)

/-- STREAM_RECOVERY_RESET (R383): no frame has been accepted for `reset_ms`. -/
def execStreamRecoveryReset (i : Nat) (s : State) : Out :=
  guardUnit (decide (i < 256))
    (let x := streamAt s i
     if x.en && x.recover then
       let s := countS i 10 1 (modStream i (fun x => { x with takeAny := true, next := none }) s)
       emit 0x2603 i s (cause := 1) (value := (streamAt s i).recSeq)
     else s)

/-- RESEQUENCER_TIMEOUT (R385): held frames leave in ascending order. -/
def execResequencerTimeout (i : Nat) (s : State) : Out :=
  guardUnit (decide (i < 256)) (if (streamAt s i).held.isEmpty then s else releaseAll i false s)

/-- BASIN_SET (R362, R363, R368, R371, R374, R375, R377). -/
def execBasinSet (r : Req) (s : State) : Out := .next (cmdSet basinClass r s)
/-- BASIN_CLEAR_COUNTERS (R389). -/
def execBasinClearCounters (r : Req) (s : State) : Out := .next (cmdAct basinClass 1 r s)
/-- STREAM_SET (R380, R382, R385). -/
def execStreamSet (r : Req) (s : State) : Out := .next (cmdSet streamClass r s)
/-- STREAM_UNBLOCK (R389). -/
def execStreamUnblock (r : Req) (s : State) : Out := .next (cmdAct streamClass 1 r s)
/-- STREAM_CLEAR_COUNTERS (R389). -/
def execStreamClearCounters (r : Req) (s : State) : Out := .next (cmdAct streamClass 2 r s)
/-- STREAM_RESET_SEQ (R383, R389). -/
def execStreamResetSeq (r : Req) (s : State) : Out := .next (cmdAct streamClass 3 r s)

/-! ### Host port -/

/-- The oldest copy for pound `p` fits what the pound may still send in its turn (R386). -/
def hostAhead (s : State) (p : Nat) : Bool :=
  match hostqAt s p with
  | c :: _ => decide (frameLen c.fr.f ≤ tget ctr0 s.net.deficit p)
  | [] => false

/-- The pound whose queue port 12 serves next: round robin in ascending number, quantum 2,304 bytes (R386). -/
def nextHost (s : State) : Option (Nat × State) :=
  let t := s.net.turn
  if hostAhead s t then some (t, s)
  else
    match ((List.range 32).map (fun k => (t + 1 + k) % 32)).find? (fun p => !(hostqAt s p).isEmpty) with
    | none => none
    | some p => some (p, modNet (fun v => { v with
        turn := p, deficit := tput ctr0 p (tget ctr0 v.deficit p + 2304) v.deficit }) s)

/-- HOST_PORT_DELIVERY (R340-R344, R386): port 12 serves the next pound queue; a copy held longer than
`host_max_res` is discarded. DESIGN CHOICE: a `ts2` frame that leaves by port 12 completes with TS_LOST (R86), without
an entry in a queue and without a drop counted. -/
def execHostPortDelivery (s : State) : Out :=
  .next (match nextHost s with
    | none => s
    | some (p, s) => match hostqAt s p with
      | [] => s
      | c :: r =>
        let s := modHostq p (fun _ => r) s
        let s := modNet (fun v => { v with
          deficit := tput ctr0 p (if r.isEmpty then 0 else tget ctr0 v.deficit p - frameLen c.fr.f) v.deficit }) s
        if s.net.hostMaxRes ≠ 0 ∧ s.net.hostMaxRes * 1000 < workNs s - c.fr.arr then countG 5 s
        else
          let f := egressBytes s 12 c
          let s := deliverRing p c.ring c.filter { c.fr with f := f } s
          match c.fr.mark.ring with
          | some k => if c.fr.mark.ts2 && (hringAt s k).done.any (fun d => decide (d.id = c.fr.mark.id) && d.status.isNone)
              then complete k c.fr.mark.id 3 0 0 s else s
          | none => s)

end Sys2Proof.Machine
end

