-- ==== Sys2Proof/Machine/Aqueduct.lean ====
section
/-! DEFINITION. The Aqueduct: lookup and destinations (R304-R311), talker and listener tunnels (R312-R317),
pound receive queues (R318), rate limits (R321), authenticated routes (R322-R326), class ROUTE (R306, R328). -/
namespace Sys2Proof.Machine

/-! ### Counters (R328) -/

/-- ROUTE_COUNTER_HALF of an instance. -/
def routeHalf (inst k : Nat) (half : Bool) (s : State) : State :=
  if half then emit 0x2309 inst s (cause := k) else s

/-- Global counter `k` plus `n`. -/
def countA (k n : Nat) (s : State) : State :=
  let r := addHalf (if k = 1 then 48 else 32) n (tget ctr0 s.aq.counters k)
  routeHalf 0x4800 k r.2 (modAq (fun a => { a with counters := tput ctr0 k r.1 a.counters }) s)

/-- Talker counter: 0 AVTPDUs, 1 messages, 2 octets, 3 oversize, 4 batch full. -/
def countTalker (i k n : Nat) (s : State) : State :=
  let t := talkerAt s i
  let r := addHalf (if k = 2 then 48 else 32) n
    (match k with | 0 => t.pdus | 1 => t.msgs | 2 => t.octets | 3 => t.oversize | _ => t.full)
  routeHalf (0x4000 + i) k r.2 (modTalker i (fun t =>
    match k with
    | 0 => { t with pdus := r.1 } | 1 => { t with msgs := r.1 } | 2 => { t with octets := r.1 }
    | 3 => { t with oversize := r.1 } | _ => { t with full := r.1 }) s)

/-- Listener counter: 0 AVTPDUs, 1 messages, 2 octets, 3 gap, 4 unsupported, 5 malformed. -/
def countListener (i k n : Nat) (s : State) : State :=
  let t := listenerAt s i
  let r := addHalf (if k = 2 then 48 else 32) n
    (match k with | 0 => t.pdus | 1 => t.msgs | 2 => t.octets | 3 => t.gap | 4 => t.unsupported | _ => t.malformed)
  routeHalf (0x4100 + i) k r.2 (modListener i (fun t =>
    match k with
    | 0 => { t with pdus := r.1 } | 1 => { t with msgs := r.1 } | 2 => { t with octets := r.1 }
    | 3 => { t with gap := r.1 } | 4 => { t with unsupported := r.1 } | _ => { t with malformed := r.1 }) s)

/-- Context counter: 0 `auth_ok`, 1 `auth_fail`. -/
def countCtx (i k : Nat) (s : State) : State :=
  let c := ctxAt s i
  let r := addHalf 32 1 (if k = 0 then c.ok else c.fail)
  routeHalf (0x4400 + i) k r.2 (modCtx i (fun c => if k = 0 then { c with ok := r.1 } else { c with fail := r.1 }) s)

/-- Route counter: 0 `hits`, 1 `drops`. -/
def countRoute (i k : Nat) (s : State) : State :=
  let e := routeAt s i
  let r := addHalf 32 1 (if k = 0 then e.hits else e.drops)
  routeHalf i k r.2 (modRoute i (fun e => if k = 0 then { e with hits := r.1 } else { e with drops := r.1 }) s)

/-! ### Conversion (R311) -/

/-- An FD frame padded to the next valid length. -/
def padFd (f : CanFrame) : CanFrame :=
  let n := elemOr 64 fdLens (dlcOf 1 f.data.length)
  { f with dlc := dlcOf 1 f.data.length, data := f.data ++ List.replicate (n - f.data.length) 0 }

/-- XL content given up. -/
def plainXl (f : CanFrame) : CanFrame :=
  if f.kind = 2 then { f with id := f.id % 2 ^ 11, ide := false, sdt := 0, sec := false, vcid := 0, af := 0 } else f

/-- `fmt_to`; none is an impossible conversion, one to a length the format does not carry among them. -/
def convFmt (fmt : Nat) (f : CanFrame) : Option CanFrame :=
  Option.filter (fun g => lenOk g.kind g.data.length) <|
  let n := f.data.length
  if fmt = 0 then some (if f.kind = 1 ∧ n ≤ 64 then padFd f else f)
  else if f.rtr then none
  else if fmt = 1 then
    if f.kind ≠ 0 ∧ n ≤ 8 then some { plainXl f with kind := 0, brs := false, esi := false, dlc := n } else
    if f.kind = 0 then some f else none
  else if f.kind = 1 then some { padFd f with brs := decide (fmt = 3) }
  else if n ≤ 64 then some (padFd { plainXl f with kind := 1, brs := decide (fmt = 3), esi := false })
  else none

/-- Conversion with the identifier of the destination. -/
def convert (d : Dest) (f : CanFrame) : Option CanFrame :=
  (convFmt d.fmtTo f).map (fun g =>
    if d.idRw then { g with id := if g.kind = 2 then d.newId % 2 ^ 11 else d.newId, ide := if g.kind = 2 then false else d.newIde }
    else g)

/-! ### CAN, LIN and schedule destinations (R309, R310) -/

/-- A frame of the same route and arbitration key. -/
def sameRoute (idx : Nat) (f : CanFrame) (t : CanTx) : Bool :=
  decide (t.src = .route idx ∧ arbKey t.frame = arbKey f)

/-- Overwriting a waiting frame in place (R309): in the queue, or in a slot that is not on the bus. -/
def overwrite (idx : Nat) (f : CanFrame) (enq : Nat) (x : CanCh) : Option CanCh :=
  let new := fun (t : CanTx) => { t with frame := f, enq := enq }
  let hit := fun (k : Nat) (o : Option CanTx) =>
    match o with | some t => sameRoute idx f t && decide (x.onBus ≠ some k) | none => false
  if hit 1 x.slot1 then some { x with slot1 := x.slot1.map new }
  else if hit 2 x.slot2 then some { x with slot2 := x.slot2.map new }
  else
    let n := x.queue.findIdx (sameRoute idx f)
    match x.queue[n]? with
    | some t => some { x with queue := x.queue.set n (new t) }
    | none => none

/-- An offer to a CAN channel. -/
def offerCan (idx : Nat) (d : Dest) (a : AqFrame) (s : State) : State :=
  let c := d.target
  let x := canAt s c
  if a.ev.isSome then s
  else match convert d a.frame with
    | none => countA 9 1 s
    | some f =>
      if x.live = 0 ∨ canTarget s c = 0 then countA 7 1 s
      else if !fmtEnabled x.cfg f then countA 9 1 s
      else
        match (if d.latest then overwrite idx f s.tide.counter x else none) with
        | some y => modCanCh c (fun _ => y) s
        | none =>
          if x.cfg.txCells < txCellsOf x.queue + cellsOf f.data.length then countA 6 1 s
          else enqueueCan c { frame := f, src := .route idx, enq := s.tide.counter } s

/-- A write of the Aqueduct waits for its boundary (R310). -/
def stageWrite (cls inst : Nat) (b : List Byte) (s : State) : State :=
  modCyc (fun c => { c with staged := c.staged ++ [{
    due := if c.pastCutoff then 1 else 0, cls := cls, req := { pound := 0, tow := s.sys.tow, inst := inst }
    op := .act 256 b, outside := true, reply := false }] }) s

/-- An offer to a schedule entry of channel `target`. -/
def offerSched (d : Dest) (a : AqFrame) (s : State) : State :=
  if a.ev.isSome then s
  else match convert d a.frame with
    | none => countA 9 1 s
    | some f => if 64 < f.data.length then countA 9 1 s
      else stageWrite 0x20 (0x2000 + 64 * d.target + d.sub) (recBytes { frame := f }) s

/-- An offer to a LIN frame entry. -/
def offerLin (d : Dest) (a : AqFrame) (s : State) : State :=
  if a.ev.isSome then s else stageWrite 0x21 (0x2000 + 64 * d.target + d.sub) a.frame.data s

/-! ### Pound receive queues (R318) -/

/-- A record with its delivery header: `len` bytes of it. -/
def deliveryBytes (a : AqFrame) (len : Nat) : List Byte :=
  let r := recBytes a
  leBytes 2 a.route ++
    leBytes 1 (flag 0 (decide (len < r.length)) + flag 1 a.authOk + flag 2 a.authFail + flag 3 a.ev.isSome) ++
    leBytes 1 (a.kind + 4 * a.tow) ++ leBytes 2 len ++ leBytes 2 r.length ++ r.take len

/-- A record is lost (R318): counted, and reported once until the counters are cleared. -/
def poundDrop (p : Nat) (full : Bool) (s : State) : State :=
  let s := countA 10 1 s
  if p ∈ s.aq.poundRep then s
  else emit 0x2304 0x4800 (modAq (fun a => { a with poundRep := a.poundRep ++ [p] }) s) (cause := p) (flags := b2n full)

/-- A queued delivery as it enters a buffer of `n` bytes: header and record cut, `TRUNC` set. -/
def cutDelivery (b : List Byte) (n : Nat) : List Byte :=
  b.take 2 ++ leBytes 1 (leAt b 2 1 ||| 1) ++ (b.drop 3).take 1 ++ leBytes 2 (n - 8) ++ (b.drop 6).take (n - 6)

/-- Descriptors of a record, written back as those of a frame of port 13. -/
def recParts (full : Nat) (trunc : Bool) (l : List (Desc × List Byte)) : List Written :=
  l.zipIdx.map (fun e =>
    ⟨rxBack e.1.2.length (decide (e.2 = 0)) (decide (e.2 + 1 = l.length)) false trunc { ing := 13 } full 0, e.1.2, e.1.1.addr⟩)

/-- Queued records go into the posted buffers of their ring while buffers last. -/
def drainRx (p q : Nat) : Nat → State → State
  | 0, s => s
  | n + 1, s =>
    let k := ringKey p q
    let g := hringAt s k
    if !ringOn s p q then s
    else match tget rxq0 s.aq.rx (4 * p + q), g.posted with
      | b :: rest, d :: ds =>
        let take := modAq (fun a => { a with rx := tput rxq0 (4 * p + q) rest a.rx })
        if g.scatter then
          let (l, left) := fillBufs g.posted b
          if !left.isEmpty then s
          else drainRx p q n (writeBack p q (recParts b.length false l)
            (modHring k (fun g => { g with posted := g.posted.drop l.length }) (take s)))
        else if b.length ≤ d.len then
          drainRx p q n (writeBack p q (recParts b.length false [(d, b)]) (modHring k (fun g => { g with posted := ds }) (take s)))
        else if g.truncOk then
          drainRx p q n (writeBack p q (recParts b.length true [(d, cutDelivery b d.len)]) (modHring k (fun g => { g with posted := ds }) (take s)))
        else drainRx p q n (poundDrop p false (take s))
      | _, _ => s

/-- Draining a queue as far as it goes. -/
def drainQueue (p q : Nat) (s : State) : State := drainRx p q (tget rxq0 s.aq.rx (4 * p + q)).length s

/-- An offer to a pound (R318): its queue holds at most its share (R452). Only a running pound on PCIe or in a
partition has such a queue. -/
def offerPound (d : Dest) (a : AqFrame) (s : State) : State :=
  let p := d.target
  let k := (poundAt s p).kind
  if ¬(k = 1 ∨ k = 4) ∨ (poundAt s p).state ≠ .running then countA 10 1 s
  else
    let b := deliveryBytes a (recBytes a).length
    if (poundAt s p).rxCells < hostCells s p + aqCells s p + (b.length + 127) / 128 then poundDrop p true s
    else drainQueue p d.sub (modAq (fun v => { v with rx := tmod rxq0 (4 * p + d.sub) (· ++ [b]) v.rx }) s)

/-! ### Tunnels (R312-R316) -/

/-- `message_timestamp`. -/
def msgTime (a : AqFrame) : List Byte := beBytes 8 ((a.sec * nsPerSec + a.ns) % 2 ^ 64)

/-- Type and length of a message whose bytes after the first two are `b`, padded to whole quadlets. -/
def acfWrap (type : Nat) (b : List Byte) : List Byte :=
  let q := (b.length + 2 + 3) / 4
  beBytes 2 (type * 512 + q) ++ b ++ List.replicate (4 * q - (b.length + 2)) 0

/-- Pad bytes after `n` data bytes. -/
def padOf (n : Nat) : Nat := (4 - n % 4) % 4

/-- The ACF message of a record on bus identifier `bus` (R316, R320). -/
def acfMessage (s : State) (t : Talker) (bus : Nat) (a : AqFrame) : List Byte :=
  let f := a.frame
  let n := f.data.length
  match a.ev with
  | some _ =>
    let r := recBytes a
    acfWrap s.aq.typeSt (leBytes 1 0 ++ leBytes 1 (bus % 32) ++ msgTime a ++ (r.drop 2).take 6 ++ beBytes 2 0 ++
      beBytes 2 (leAt r 8 2) ++ beBytes 2 (leAt r 10 2) ++ beBytes 8 0)
  | none =>
    if 0x40 ≤ a.chan ∧ a.chan < 0x80 then
      acfWrap 3 (leBytes 1 (padOf n * 64 + 32 + bus % 32) ++ leBytes 1 (f.id % 256) ++ msgTime a ++ f.data)
    else if f.kind = 2 then
      acfWrap s.aq.typeXl (leBytes 1 (padOf n * 64 + 32 + flag 4 f.sec) ++ leBytes 1 (bus % 32) ++ msgTime a ++ leBytes 1 f.sdt ++
        leBytes 1 f.vcid ++ beBytes 2 (f.id % 2048) ++ beBytes 4 f.af ++ f.data)
    else
      acfWrap (if t.brief then 2 else 1)
        (leBytes 1 (padOf n * 64 + flag 5 (!t.brief) + flag 4 f.rtr + flag 3 f.ide + flag 2 f.brs + flag 1 (decide (f.kind = 1)) + flag 0 f.esi) ++
         leBytes 1 (bus % 32) ++ (if t.brief then [] else msgTime a) ++ beBytes 4 f.id ++ f.data)

/-- Largest XL payload of a tunnel, ACF bytes of one AVTPDU (R314). -/
def xlLimit (t : Talker) : Nat := if t.ext then 2024 else 1456
def acfLimit (t : Talker) : Nat := if t.ext then 2258 else 1476

/-- Bytes of messages together. -/
def msgBytes (l : List (List Byte)) : Nat := l.foldl (fun n m => n + m.length) 0

/-- An offer to a talker tunnel (R313, R314). -/
def offerTunnel (d : Dest) (a : AqFrame) (s : State) : State :=
  let i := d.target
  let t := talkerAt s i
  if !t.en then s
  else if a.ev = none ∧ a.frame.kind = 2 ∧ xlLimit t < a.frame.data.length then
    let s := countTalker i 3 1 s
    if (talkerAt s i).overRep then s
    else emit 0x2301 (0x4000 + i) (modTalker i (fun t => { t with overRep := true }) s)
      (value := a.frame.data.length) (ext := [a.route, i])
  else
    let m := acfMessage s t d.sub a
    if 128 * t.cells < msgBytes t.batch + m.length then
      let s := countTalker i 4 1 s
      if (talkerAt s i).fullRep then s
      else emit 0x2302 (0x4000 + i) (modTalker i (fun t => { t with fullRep := true }) s)
    else modTalker i (fun t => { t with batch := t.batch ++ [m] }) s

/-- Messages packed into AVTPDUs in order (R315). -/
def packMsgs (limit : Nat) : List Byte → List (List Byte) → List (List Byte)
  | cur, [] => if cur.isEmpty then [] else [cur]
  | cur, m :: r =>
    if cur.isEmpty then packMsgs limit m r
    else if limit < cur.length + m.length then cur :: packMsgs limit m r
    else packMsgs limit (cur ++ m) r

/-- One AVTPDU leaves through port 13 (R315). -/
def sendAvtpdu (i : Nat) (acf : List Byte) (s : State) : State :=
  let t := talkerAt s i
  let b := beBytes 1 5 ++ beBytes 1 (128 + b2n t.tv) ++ beBytes 1 t.seq ++ beBytes 1 0 ++ beBytes 8 t.stream ++
    beBytes 4 (if t.tv then workNs s % 2 ^ 32 else 0) ++ beBytes 4 0 ++ beBytes 2 acf.length ++ beBytes 2 0 ++ acf
  let f : EthFrame := { dst := t.dst, src := (portAt s 13).station, tagged := decide (t.vid ≠ 0), vid := t.vid
                        pcp := if t.vid ≠ 0 then t.pcp else 0, etype := 0x22F0, payload := b }
  let s := modTalker i (fun t => { t with seq := (t.seq + 1) % 256 }) s
  toBasin { f := f, ing := 13, arr := workNs s } (countTalker i 2 b.length (countTalker i 0 1 s))

/-- A batch is flushed. -/
def flushBatch (i : Nat) (l : List (List Byte)) (s : State) : State :=
  (packMsgs (acfLimit (talkerAt s i)) [] l).foldl (fun s acf => sendAvtpdu i acf s) (countTalker i 1 l.length s)

/-- The flush at a boundary (R315); at an overrun boundary the batch is held, to be flushed ahead of the batch
of the later cycle (R50). -/
def flushTalkers (overran : Bool) (s : State) : State :=
  (List.range 64).foldl (fun s i =>
    let t := talkerAt s i
    if t.batch.isEmpty && t.held.isEmpty then s
    else if overran then modTalker i (fun t => { t with batch := [], held := t.held ++ [t.batch] }) s
    else
      let s := modTalker i (fun t => { t with batch := [], held := [] }) s
      (t.held ++ [t.batch]).foldl (fun s l => flushBatch i l s) s) s

/-! ### Offers -/

/-- A device takes a record (R309): it is running as far as the tug knows, and a path leads to it. -/
def towTakes (s : State) (d : Nat) : Bool :=
  (towPortTo s d).isSome && (s.sys.role ≠ .tug || decide ((bargeAt s d).state ≠ 0 ∧ (bargeAt s d).state ≠ 4 ∧ (bargeAt s d).state ≠ 5))

/-- An offer to another device of the tow. -/
def offerTow (d : Dest) (a : AqFrame) (s : State) : State :=
  let conv := if a.ev.isSome then some a.frame else convert d a.frame
  match conv with
  | none => countA 9 1 s
  | some f =>
    if towTakes s d.target then (towSend 1 d.target (.record d.sub { a with frame := f }) s).2 else countA 8 1 s

/-- One destination at once (R309). -/
def offerNow (idx : Nat) (d : Dest) (a : AqFrame) (s : State) : State :=
  match d.kind with
  | 1 => offerCan idx d a s
  | 2 => offerSched d a s
  | 3 => offerLin d a s
  | 4 => offerPound d a s
  | 5 => offerTunnel d a s
  | 6 => offerTow d a s
  | _ => s

/-- One destination: CAN and TOW offers of a listener with `present` wait for a boundary (R317). -/
def offer (idx : Nat) (d : Dest) (a : AqFrame) (s : State) : State :=
  if (d.kind = 1 ∨ d.kind = 6) ∧ a.kind = 2 ∧ (listenerAt s (a.chan - 0x80)).present = true then
    modAq (fun v => { v with offers := v.offers ++ [{ dest := d, frame := a }] }) s
  else offerNow idx d a s

/-- The waiting offers are made in arrival order at a boundary (R317). -/
def presentOffers (s : State) : State :=
  s.aq.offers.foldl (fun s o => offerNow o.frame.route o.dest o.frame s) (modAq (fun v => { v with offers := [] }) s)

/-- The chain of entries (R308). `only` restricts the offers to `POUND` destinations. -/
def followChain (idx : Nat) (only : Bool) (a : AqFrame) : Nat → Nat → State → State
  | 0, _, s => s
  | n + 1, e, s =>
    let r := routeAt s e
    let s := (r.dests.take r.ndest).foldl (fun s d => if only && decide (d.kind ≠ 4) then s else offer idx d a s) s
    if !r.chain then s
    else
      let x := routeAt s r.next
      if !x.en || !x.cont || x.bad || decide (n = 0) then emit 0x2307 idx (countA 3 1 s)
      else followChain idx only a n r.next s

/-- A frame that passed the rate and authentication steps. -/
def deliverRoute (idx : Nat) (a : AqFrame) (s : State) : State := followChain idx false a 8 idx (countRoute idx 0 s)

/-! ### Rate and authentication (R321-R326) -/

/-- The token bucket (R321): whether a token was present. -/
def takeToken (idx : Nat) (s : State) : Bool × State :=
  let e := routeAt s idx
  let dt := s.tide.counter - e.filled
  let tok := min (e.burst * 1000000000) (e.tokens + e.rate * dt)
  if 1000000000 ≤ tok then (true, modRoute idx (fun e => { e with tokens := tok - 1000000000, filled := s.tide.counter }) s)
  else
    let s := countRoute idx 1 (countA 4 1 (modRoute idx (fun e => { e with tokens := tok, filled := s.tide.counter }) s))
    (false, if (routeAt s idx).rateRep then s
      else emit 0x2303 idx (modRoute idx (fun e => { e with rateRep := true }) s))

/-- Trailer bytes of a context (R322). -/
def fvBytes (c : Ctx) : Nat := (c.fvBits + 7) / 8
def trailerLen (c : Ctx) : Nat := fvBytes c + c.macLen

/-- A frame fails in its context (R323, R324). The event names the route as its object and carries the context. -/
def authFailed (idx i : Nat) (a : AqFrame) (s : State) : State :=
  let s := countRoute idx 1 (countCtx i 1 s)
  let s := emit 0x2305 idx s (value := (ctxAt s i).fail) (ext := [i])
  if (ctxAt s i).failPass then followChain idx true { a with authFail := true } 8 idx s else s

/-- The MAC of R322: AES-CMAC of data identifier, payload and full freshness, its leftmost bytes. -/
def ctxMac (s : State) (c : Ctx) (pay : List Byte) (fv : Nat) : List Byte :=
  let mat := match keySlot s c.key with | some k => (keyAt s k).mat | none => 0
  (beBytes 16 (Config.cipher 3 0 mat (beBytes 2 c.dataId ++ pay ++ beBytes 8 fv))).take c.macLen

/-- `fv` takes a value; the Lighthouse stores it whenever it crosses a multiple of `gap` (R326). -/
def setFv (i v : Nat) (s : State) : State :=
  modCtx i (fun c => { c with fv := v, stored := if c.fv / c.gap < v / c.gap then v else c.stored }) s

/-- The candidate of R324. -/
def fvCandidate (c : Ctx) (t : Nat) : Nat :=
  let m := 2 ^ c.fvBits
  let x := c.fv / m * m + t
  if x ≤ c.fv then x + m else x

/-- Two frames come from one source (R312). -/
def oneSource (a b : AqFrame) : Bool := decide (a.kind = b.kind ∧ a.chan = b.chan ∧ a.tow = b.tow)

/-- A frame of the same source waits in the CMAC queue or behind it. -/
def heldBack (s : State) (a : AqFrame) : Bool := s.aq.cmac.any (fun q => oneSource q.frame a)

/-- A frame joins the CMAC queue, or takes its turn behind it. -/
def pushCmac (act : Nat) (a : AqFrame) (s : State) : State :=
  modAq (fun v => { v with cmac := v.cmac ++ [{ frame := a, act := act }] }) s

/-- A frame that needs no CMAC is delivered, in its turn. -/
def deliverTurn (idx : Nat) (a : AqFrame) (s : State) : State :=
  if heldBack s a then pushCmac 1 a s else deliverRoute idx a s

/-- A frame enters its context: short frames and revoked contexts fail without a CMAC, the others wait for theirs
in a queue of 64 (R323-R325). -/
def authStart (idx i : Nat) (a : AqFrame) (s : State) : State :=
  let c := ctxAt s i
  let need := if c.mode = 1 then c.payLen + trailerLen c else c.payLen
  if c.mode = 0 then deliverTurn idx a s
  else if c.revoked || decide (a.frame.data.length < need) then
    if heldBack s a then pushCmac 2 a s else authFailed idx i a s
  else if 64 ≤ (s.aq.cmac.filter (fun q => decide (q.act = 0))).length then countRoute idx 1 (countA 5 1 s)
  else pushCmac 0 a s

/-- The CMAC of a frame is returned (R323-R325). -/
def authDone (idx i : Nat) (a : AqFrame) (s : State) : State :=
  let c := ctxAt s i
  if !keyReady s c.key then
    countRoute idx 1 (emit 0x2306 (0x4400 + i) (modCtx i (fun c => { c with revoked := true }) s))
  else
    let s := keyUse c.key s
    let data := a.frame.data
    let pay := data.take c.payLen
    if c.mode = 2 then
      let fv := (c.fv + 1) % 2 ^ 64
      let t := beBytes (fvBytes c) (fv % 2 ^ c.fvBits)
      let f : CanFrame := { a.frame with data := pay ++ t ++ ctxMac s c pay fv }
      let f := if f.kind = 1 ∧ f.data.length ≤ 64 then padFd f else { f with dlc := if f.kind = 2 then 0 else f.data.length }
      deliverRoute idx { a with frame := f } (countCtx i 0 (setFv i fv s))
    else
      let t := beAt data c.payLen (fvBytes c) % 2 ^ c.fvBits
      let cand := fvCandidate c t
      let mac := (data.drop (c.payLen + fvBytes c)).take c.macLen
      if cand - c.fv ≤ c.window ∧ mac = ctxMac s c pay cand then
        let rest := data.drop (c.payLen + trailerLen c)
        let f := if c.strip then { a.frame with data := pay ++ rest, dlc := if a.frame.kind = 2 then 0 else dlcOf a.frame.kind (pay ++ rest).length }
          else a.frame
        deliverRoute idx { a with frame := f, authOk := true } (countCtx i 0 (setFv i cand s))
      else authFailed idx i a s

/-- An arrival (R308). -/
def arrive (a : AqFrame) (s : State) : State :=
  let idx := a.route
  let e := routeAt s idx
  let s := countA 1 a.frame.data.length (countA 0 1 s)
  if !e.en || e.cont || e.bad then countRoute idx 1 (countA 2 1 s)
  else if a.ev.isSome then deliverTurn idx a s
  else
    let (ok, s) := if e.rateEn then takeToken idx s else (true, s)
    if !ok then s
    else if e.auth then authStart idx e.ctx a s
    else deliverTurn idx a s

/-- A frame whose turn has come. -/
def takeTurn (q : CmacReq) (s : State) : State :=
  let idx := q.frame.route
  let i := (routeAt s idx).ctx
  match q.act with
  | 0 => authDone idx i q.frame s
  | 1 => deliverRoute idx q.frame s
  | _ => authFailed idx i q.frame s

/-- Frames behind the queue go on as far as no earlier one of their source waits; what still waits. -/
def settleTurns (l : List CmacReq) (s : State) : List CmacReq × State :=
  l.foldl (fun (acc : List CmacReq × State) q =>
    if q.act = 0 ∨ acc.1.any (fun k => oneSource k.frame q.frame) = true then (acc.1 ++ [q], acc.2)
    else (acc.1, takeTurn q acc.2)) ([], s)

/-! ### Listeners (R317) -/

/-- What one ACF message holds: none is of another type, `inr false` impossible content, else the record. -/
def acfRecord (s : State) (m : List Byte) (sec ns : Nat) : Option (Option (Nat × AqFrame)) :=
  let type := beAt m 0 1 / 2
  let b2 := beAt m 2 1
  let pad := b2 / 64
  let bus := beAt m 3 1 % 32
  let t := beAt m 4 8
  let at_ := if bitOf 5 b2 then (t / nsPerSec % 2 ^ 48, t % nsPerSec) else (sec, ns)
  let can := fun (hdr : Nat) (tm : Nat × Nat) =>
    let d := ((m.drop hdr).take (m.length - hdr - pad))
    let fd := bitOf 1 b2
    let rtr := bitOf 4 b2
    if m.length < hdr + pad ∨ (fd && !decide (d.length ∈ fdLens)) = true ∨ (!fd && decide (8 < d.length)) = true ∨ (rtr && fd) = true then some none
    else some (some (bus, ({ frame := { id := beAt m (hdr - 4) 4 % 2 ^ 29, ide := bitOf 3 b2, kind := b2n fd, rtr := rtr, brs := bitOf 2 b2
                                        esi := bitOf 0 b2, dlc := dlcOf (b2n fd) d.length, data := d }
                             sec := tm.1, ns := tm.2 } : AqFrame)))
  if type = 1 then can 16 at_
  else if type = 2 then can 8 (sec, ns)
  else if type = 3 then
    let d := (m.drop 12).take (m.length - 12 - pad)
    if m.length < 12 + pad then some none
    else some (some (beAt m 2 1 % 32, { frame := { id := beAt m 3 1, dlc := d.length, data := d }, sec := at_.1, ns := at_.2 }))
  else if type = s.aq.typeXl then
    let d := (m.drop 20).take (m.length - 20 - pad)
    if m.length ≤ 20 + pad then some none
    else some (some (bus, { frame := { id := beAt m 14 2 % 2048, kind := 2, sec := bitOf 4 b2, sdt := beAt m 12 1, vcid := beAt m 13 1
                                       af := beAt m 16 4, data := d }, sec := at_.1, ns := at_.2 }))
  else if type = s.aq.typeSt then
    if m.length ≠ 32 then some none
    else some (some (bus, { ev := some { ev := leAt m 12 2, info := leAt m 14 4, tec := beAt m 20 2, recv := beAt m 22 2 }
                            sec := t / nsPerSec % 2 ^ 48, ns := t % nsPerSec }))
  else none

/-- The messages of an AVTPDU in order. -/
def parseAcf (l sec ns : Nat) : Nat → List Byte → State → State
  | 0, _, s => s
  | n + 1, b, s =>
    if b.isEmpty then s
    else
      let q := beAt b 0 2 % 512
      if q = 0 ∨ b.length < 4 * q then countListener l 5 1 s
      else
        let s := match acfRecord s (b.take (4 * q)) sec ns with
          | none => countListener l 4 1 s
          | some none => countListener l 5 1 s
          | some (some (bus, a)) =>
            modAq (fun v => { v with inq := v.inq ++ [{ a with
              chan := 0x80 + l, kind := 2, tow := s.sys.tow, route := (listenerAt s l).base + bus }] }) (countListener l 1 1 s)
        parseAcf l sec ns n (b.drop (4 * q)) s

/-- An AVTPDU at port 13 (R317). An NTSCF header is 12 bytes long and gives its length in 11 bits. -/
def avtpdu (b : List Byte) (s : State) : State :=
  let sub := beAt b 0 1
  let b1 := beAt b 1 1
  if ¬(sub = 5 ∨ sub = 0x82) ∨ (b1 / 16) % 8 ≠ 0 ∨ b1 / 128 ≠ 1 then countA 11 1 s
  else
    let ts := decide (sub = 5)
    let sid := beAt b 4 8
    match (List.range 64).find? (fun i => (listenerAt s i).en && decide ((listenerAt s i).stream = sid)) with
    | none => countA 11 1 s
    | some l =>
      let seq := if ts then beAt b 2 1 else beAt b 3 1
      let len := if ts then beAt b 20 2 else beAt b 1 2 % 2048
      let acf := ((b.drop (if ts then 24 else 12)).take len)
      let gap := (seq + 511 - (listenerAt s l).last) % 256
      let s := if gap = 0 then s else
        let s := countListener l 3 gap s
        if (listenerAt s l).gapRep then s
        else emit 0x2308 (0x4100 + l) (modListener l (fun x => { x with gapRep := true }) s) (value := gap)
      let s := modListener l (fun x => { x with last := seq }) s
      let s := countListener l 2 b.length (countListener l 0 1 s)
      let s := parseAcf l s.tide.sec s.tide.ns acf.length acf s
      if acf.length < len then countListener l 5 1 s else s

/-! ### Class ROUTE -/

/-- A field of destination `k` of a route. -/
def destF (k byte bit w : Nat) (get : Dest → Nat) (set : Nat → Dest → Dest) (ok : Nat → Bool := fun _ => true) : UFld Route :=
  rwF (16 + 12 * k + byte) bit w (fun r => get (elemOr {} r.dests k)) (fun n r => { r with dests := r.dests.set k (set n (elemOr {} r.dests k)) }) ok

/-- Route entry (R306). -/
def routeRec (i : Nat) : Rec :=
  { len := 64
    flds := lift (fun s => routeAt s i) (modRoute i) ([
      rwB 0 0 (·.en) (fun v r => { r with en := v }), rwB 0 1 (·.cont) (fun v r => { r with cont := v }),
      rwB 0 2 (·.auth) (fun v r => { r with auth := v }), rwB 0 3 (·.rateEn) (fun v r => { r with rateEn := v }),
      rwB 0 4 (·.chain) (fun v r => { r with chain := v }), rwF 1 0 3 (·.ndest) (fun n r => { r with ndest := n }) (rng 0 4),
      rwF 2 0 14 (·.next) (fun n r => { r with next := n }), rwF 4 0 9 (·.ctx) (fun n r => { r with ctx := n }),
      rwF 6 0 16 (·.rate) (fun n r => { r with rate := n }) (rng 1 65535),
      rwF 8 0 8 (·.burst) (fun n r => { r with burst := n }) (rng 1 255), rwF 9 0 8 (·.owner) (fun n r => { r with owner := n }) (rng 0 31)] ++
      (List.range 4).flatMap (fun k => [
        destF k 0 0 4 (·.kind) (fun n d => { d with kind := n }) (rng 0 6),
        destF k 0 4 1 (fun d => b2n d.latest) (fun n d => { d with latest := decide (n = 1) }),
        destF k 0 5 1 (fun d => b2n d.idRw) (fun n d => { d with idRw := decide (n = 1) }),
        destF k 0 6 2 (·.fmtTo) (fun n d => { d with fmtTo := n }),
        destF k 1 0 8 (·.target) (fun n d => { d with target := n }), destF k 2 0 14 (·.sub) (fun n d => { d with sub := n }),
        destF k 4 0 29 (·.newId) (fun n d => { d with newId := n }),
        destF k 4 29 1 (fun d => b2n d.newIde) (fun n d => { d with newIde := decide (n = 1) })]))
    more := fun s => leBytes 4 (routeAt s i).hits ++ leBytes 4 (routeAt s i).drops }

/-- Talker record (R312). -/
def talkerRec (i : Nat) : Rec :=
  { len := 48
    flds := lift (fun s => talkerAt s i) (modTalker i) [
      rwB 0 0 (·.en) (fun v t => { t with en := v }), rwB 0 1 (·.ext) (fun v t => { t with ext := v }),
      rwB 0 2 (·.tv) (fun v t => { t with tv := v }), rwB 0 3 (·.brief) (fun v t => { t with brief := v }),
      rwF 1 0 3 (·.pcp) (fun n t => { t with pcp := n }), rwF 2 0 12 (·.vid) (fun n t => { t with vid := n }) (rng 0 4094),
      rwF 4 0 48 (·.dst) (fun n t => { t with dst := n }), rwF 10 0 16 (·.cells) (fun n t => { t with cells := n }) (rng 1 512),
      rwF 12 0 64 (·.stream) (fun n t => { t with stream := n }), roF 20 0 8 (·.seq), roF 24 0 32 (·.pdus), roF 28 0 32 (·.msgs),
      roF 32 0 48 (·.octets), roF 38 0 32 (·.oversize), roF 42 0 32 (·.full)] }

/-- Listener record (R317). -/
def listenerRec (i : Nat) : Rec :=
  { len := 40
    flds := lift (fun s => listenerAt s i) (modListener i) [
      rwB 0 0 (·.en) (fun v t => { t with en := v }), rwB 0 1 (·.present) (fun v t => { t with present := v }),
      roF 1 0 8 (·.last), rwF 2 0 14 (·.base) (fun n t => { t with base := n }) (rng 0 (16383 - 31)),
      rwF 4 0 64 (·.stream) (fun n t => { t with stream := n }), roF 12 0 32 (·.pdus), roF 16 0 32 (·.msgs), roF 20 0 48 (·.octets),
      roF 26 0 32 (·.gap), roF 30 0 32 (·.unsupported), roF 34 0 32 (·.malformed)] }

/-- Source record (R319). -/
def busSrcRec (i : Nat) : Rec :=
  { len := 8
    flds := lift (fun s => busSrcAt s i) (modBusSrc i) [
      rwF 0 0 14 (·.route) (fun n b => { b with route := n }), rwB 0 15 (·.en) (fun v b => { b with en := v }),
      rwF 2 0 16 (·.mask) (fun n b => { b with mask := n }) (rng 0 63)] }

/-- Authentication context (R322). -/
def ctxRec (i : Nat) : Rec :=
  { len := 36
    flds := lift (fun s => ctxAt s i) (modCtx i) [
      rwF 0 0 2 (·.mode) (fun n c => { c with mode := n }) (rng 0 2), rwB 0 2 (·.failPass) (fun v c => { c with failPass := v }),
      rwB 0 3 (·.strip) (fun v c => { c with strip := v }), rwF 0 4 1 (·.resume) (fun n c => { c with resume := n }),
      roB 0 5 (·.revoked), rwF 1 0 8 (·.macLen) (fun n c => { c with macLen := n }) (rng 4 16),
      rwF 2 0 6 (·.fvBits) (fun n c => { c with fvBits := n }) (rng 0 32), rwF 4 0 32 (·.key) (fun n c => { c with key := n }),
      rwF 8 0 16 (·.dataId) (fun n c => { c with dataId := n }), rwF 10 0 16 (·.gap) (fun n c => { c with gap := n }) (rng 16 4096),
      roF 12 0 64 (·.fv), rwF 20 0 32 (·.window) (fun n c => { c with window := n }) (fun n => decide (1 ≤ n)),
      rwF 24 0 16 (·.payLen) (fun n c => { c with payLen := n }) (rng 0 2024), roF 28 0 32 (·.ok), roF 32 0 32 (·.fail)] }

/-- Global counters (R328). -/
def aqCtrRec : Rec :=
  { len := 0, flds := []
    more := fun s => (List.range 12).flatMap (fun k => leBytes (if k = 1 then 6 else 4) (tget ctr0 s.aq.counters k)) }

def routeRecord (i part : Nat) : Option Rec :=
  if part ≠ 0 then none
  else if i < 0x4000 then some (routeRec i)
  else if i < 0x4040 then some (talkerRec (i - 0x4000))
  else if 0x4100 ≤ i ∧ i < 0x4140 then some (listenerRec (i - 0x4100))
  else if 0x4200 ≤ i ∧ i < 0x4214 then some (busSrcRec (i - 0x4200))
  else if 0x4400 ≤ i ∧ i < 0x4600 then some (ctxRec (i - 0x4400))
  else if i = 0x4800 then some aqCtrRec
  else none

/-- Longest payload that the sources of route `i` bring, 0 where none names it: XL where a channel carries it, LIN 8, a
listener tunnel 2,024. -/
def routeMax (t : State) (i : Nat) : Nat :=
  let can := (List.range 12).foldl (fun m c => let g := (canAt t c).cfg
    if handleOf t 0x20 c ∈ sourceBuses t i then max m (if g.xlEn then 2048 else if g.fdEn then 64 else 8) else m) 0
  let lin := if (List.range 8).any (fun c => decide (handleOf t 0x21 c ∈ sourceBuses t i)) then 8 else 0
  let tun := if t.aq.listeners.any (fun e => e.2.en && decide (e.2.base ≤ i ∧ i < e.2.base + 32)) then 2024 else 0
  max can (max lin tun)

/-- The same over the routes that use context `i` (R322). -/
def sourceMax (t : State) (i : Nat) : Nat :=
  (t.aq.routes.filter (fun e => e.2.auth && decide (e.2.ctx = i))).foldl (fun n e => max n (routeMax t e.1)) 0

/-- Checks of a ROUTE SET (R307, R313, R322, R535). -/
def routeCheck (s : State) (_p i part : Nat) (ws : List (Nat × Nat)) : Status :=
  let t := asSet 0x23 routeRecord i part ws s
  if i < 0x4000 then
    let r := routeAt t i
    if !entryFine t i r || breaksRoutes s t then .eRange else .ok
  else if i < 0x4040 then
    let cells := (List.range 64).foldl (fun n k => n + if (talkerAt t k).en then (talkerAt t k).cells else 0) 0
    if !extOk t (talkerAt t (i - 0x4000)) || (periods s).any (fun p => decide (750 * p < 128 * cells * 1000)) then .eRange else .ok
  else if 0x4400 ≤ i then
    let c := ctxAt t (i - 0x4400)
    if ws.any (fun w => decide (w.1 = 32)) && decide (c.key ≠ 0) && !keyFits s c.key 1 4 then .eAuth
    else if 2 ^ c.fvBits < c.window then .eRange
    else if c.mode ≠ 0 ∧ sourceMax t (i - 0x4400) ≠ 0 ∧ sourceMax t (i - 0x4400) < c.payLen + trailerLen c then .eRange
    else .ok
  else if breaksRoutes s t then .eRange
  else .ok

/-- What follows a ROUTE SET: a full bucket (R321), and a new key clears `REVOKED` (R325). -/
def routeAfter (_ : State) (i _part : Nat) (ws : List (Nat × Nat)) (s : State) : State :=
  if i < 0x4000 then modRoute i (fun e => { e with tokens := e.burst * 1000000000, filled := s.tide.counter, bad := false }) s
  else if 0x4400 ≤ i ∧ ws.any (fun w => decide (w.1 = 32)) = true then modCtx (i - 0x4400) (fun c => { c with revoked := false }) s
  else s

/-- CLEAR_COUNTERS of an instance (R313, R314, R317, R318, R321, R328). -/
def clearRoute (i : Nat) (s : State) : State :=
  if i < 0x4000 then modRoute i (fun e => { e with hits := 0, drops := 0, rateRep := false }) s
  else if i < 0x4040 then modTalker (i - 0x4000) (fun t => { t with
    pdus := 0, msgs := 0, octets := 0, oversize := 0, full := 0, overRep := false, fullRep := false }) s
  else if 0x4100 ≤ i ∧ i < 0x4140 then modListener (i - 0x4100) (fun t => { t with
    pdus := 0, msgs := 0, octets := 0, gap := 0, unsupported := 0, malformed := 0, gapRep := false }) s
  else if 0x4400 ≤ i ∧ i < 0x4600 then modCtx (i - 0x4400) (fun c => { c with ok := 0, fail := 0 }) s
  else if i = 0x4800 then modAq (fun a => { a with counters := [], poundRep := [] }) s
  else s

/-- Class ROUTE (R329, R439). -/
def routeClass : ClassSpec :=
  { code := 0x23
    ranges := [(0, 0x4000), (0x4000, 64), (0x4100, 64), (0x4200, 20), (0x4400, 512), (0x4800, 1)]
    record := routeRecord
    verbs := [1, 2, 3, 4, 5, 6]
    events := 9
    setCheck := routeCheck
    setCyc := fun _ _ => true
    after := routeAfter
    acts := [{ code := 1, cyc := false, argOk := fun n => decide (n = 0), auth := fun _ p _ _ => decide (p = 0)
               check := fun _ _ _ _ => .ok, run := fun _ i _ => clearRoute i }] }

/-! ### Meanings -/

/-- ROUTE_SET (R306, R307). -/
def execRouteSet (r : Req) (s : State) : Out := .next (cmdSet routeClass r s)
/-- ROUTE_CLEAR_COUNTERS (R328). -/
def execRouteClearCounters (r : Req) (s : State) : Out := .next (cmdAct routeClass 1 r s)

/-- AQUEDUCT_ARRIVAL (R308): the oldest frame that arrived is looked up and offered. -/
def execAqueductArrival (s : State) : Out :=
  .next (match s.aq.inq with
    | [] => s
    | a :: r => arrive a (modAq (fun v => { v with inq := r }) s))

/-- CMAC_COMPLETION (R323-R325): the oldest request of the Aqueduct's queue ends. -/
def execCmacCompletion (s : State) : Out :=
  .next (match s.aq.cmac with
    | [] => s
    | q :: r =>
      let (kept, s) := settleTurns r (takeTurn q s)
      modAq (fun v => { v with cmac := kept }) s)

/-- TUNNEL_AVTPDU_RECEIVED (R317): the oldest frame the Basin delivered to port 13. -/
def execTunnelAvtpduReceived (s : State) : Out :=
  .next (match s.aq.fromBasin with
    | [] => s
    | f :: r =>
      let s := modAq (fun v => { v with fromBasin := r }) s
      if f.etype = 0x22F0 then avtpdu f.payload s else s)

end Sys2Proof.Machine
end

