-- ==== Sys2Proof/Machine/Transport.lean ====
section
/-! DEFINITION. The transports: the window registers and rings (R400-R408,
R420), the way out (R405, R407, R412-R414), and the SPI slave's reads (R415-R417). What a received message
does is in `Machine/Intake.lean`. -/
namespace Sys2Proof.Machine

/-! ### Rings (R401-R403) -/

/-- Entries between head and tail. -/
def used (r : Ring) : Nat := (r.tail + 65536 - r.head) % 65536

/-- An error of a window, with the event for its pound (R400, R422). -/
def winError (e code ring : Nat) (s : State) : State :=
  match poundOfWin s e with
  | some p => mbxError p code ring s
  | none => modWin e (recordErr code ring s.tide.counter) s

/-- A write of a ring's tail by its producer on the host's side (R403): refused when the ring would hold more
than its entries. Answers how many entries are new and how many are withdrawn. -/
def tailWrite (e k tail : Nat) (s : State) : Option (Nat × Nat) × State :=
  let r := tget ring0 (winAt s e).rings k
  let t := tail % 65536
  if ringSize (winAt s e) k < (t + 65536 - r.head) % 65536 then (none, winError e 1 k s)
  else
    let n := (t + 65536 - r.head) % 65536
    (some (n - used r, used r - n), modWin e (modRing k (fun r => { r with tail := t })) s)

/-- A write of a ring's head by its consumer on the host's side (R403): it may not pass the tail. -/
def headWrite (e k head : Nat) (s : State) : State :=
  let r := tget ring0 (winAt s e).rings k
  let h := head % 65536
  if used r < (h + 65536 - r.head) % 65536 then winError e 1 k s
  else modWin e (modRing k (fun r => { r with head := h })) s

/-- Where the entries of a ring lie within the pound's shares (R420). -/
def ringInShare (s : State) (e k : Nat) : Bool :=
  match poundOfWin s e with
  | some p =>
    let r := tget ring0 (winAt s e).rings k
    inShare s p r.base (ringSize (winAt s e) k * (if k < 3 then 4160 else 32))
  | none => false

/-- The code and ring of the first fault a `run` write finds in ring blocks 0-2 (R401, R402, R420). -/
def runFault (s : State) (e : Nat) : Option (Nat × Nat) :=
  let w := winAt s e
  let r := fun k => tget ring0 w.rings k
  let bad := fun (k : Nat) =>
    if (r k).base % 64 ≠ 0 then some (2, k)
    else if (r k).log2 = 0 ∨ (if k < 2 then 6 else 10) < (r k).log2 ∨ (k = 1 ∧ (r 1).log2 < (r 0).log2) then some (3, k)
    else if 32 ≤ e ∧ ringInShare s e k = false then some (8, k)
    else none
  [0, 1, 2].findSome? bad

/-- `running` clears when the last response has been written (R402). -/
def stopIfDone (p e : Nat) (s : State) : State :=
  let w := winAt s e
  if w.running && !w.run && decide ((pqAt s p).unanswered = 0) && (pqAt s p).rsp.isEmpty then
    modWin e (fun w => setCause 5 s.tide.counter { w with running := false }) s
  else s

/-! ### The way out (R405, R412-R414) -/

/-- A message into slot `tail` of ring `k`, the tail past it, and the cause bit. A partition's rings lie in the
device's memory; of a host's, the model keeps the last message written. -/
def writeSlot (e k : Nat) (b : List Byte) (s : State) : State :=
  let r := tget ring0 (winAt s e).rings k
  let at_ := r.base + r.tail % ringSize (winAt s e) k * 4160
  let s := if 32 ≤ e then storeBytes at_ b s else s
  modWin e (fun w => setCause (k - 1) s.tide.counter
    (modRing k (fun r => { r with tail := (r.tail + 1) % 65536 }) { w with lastMsg := b })) s

/-- One message to the window of a PCIe or partition pound: the oldest response first, else the oldest event
when the event ring has room. -/
def sendWindow (p e : Nat) (s : State) : State :=
  let q := pqAt s p
  let w := winAt s e
  if !w.running then s
  else match q.rsp, q.evt with
    | m :: r, _ =>
      if ringUsed w 1 < ringSize w 1 then
        stopIfDone p e (writeSlot e 1 (rspBytes m) (modPq p (fun q => { q with rsp := r, reserved := q.reserved - 1 }) s))
      else s
    | [], v :: r =>
      if ringUsed w 2 < ringSize w 2 then writeSlot e 2 (evtBytes p v) (modPq p (fun q => { q with evt := r }) s) else s
    | [], [] => s

/-- Segments of a message (R412). -/
def segments : Nat → List Byte → List (List Byte)
  | 0, _ => []
  | n + 1, b => if b.length ≤ 1400 then [b] else b.take 1400 :: segments n (b.drop 1400)

/-- The AES-CMAC of a transport key (R410, R411). -/
def ethMac (s : State) (p : Nat) (b : List Byte) : List Byte :=
  let mat := match (pqAt s p).ethKey with
    | some h => (match keySlot s h with | some k => (keyAt s k).mat | none => 0)
    | none => 0
  beBytes 16 (Config.cipher 3 0 mat b)

/-- Freshness of the next datagram; the Lighthouse stores it at every multiple of 4,096 (R413). -/
def takeFresh (p : Nat) (s : State) : Nat × State :=
  let n := ((pqAt s p).txFresh + 1) % 2 ^ 64
  (n, modPq p (fun q => { q with txFresh := n, txStore := if n % 4096 = 0 then n else q.txStore }) s)

/-- One datagram of an Ethernet pound. -/
def sendDatagram (p : Nat) (d : EthDest) (seg segs : Nat) (b : List Byte) (s : State) : State :=
  let (n, s) := takeFresh p (keyUse ((pqAt s p).ethKey.getD 0) s)
  let i := tget iface0 s.fv.ifaces d.iface
  let h := leBytes 1 1 ++ leBytes 1 (seg + 16 * segs) ++ leBytes 2 p ++ leBytes 8 n ++ leBytes 2 b.length ++ leBytes 2 1 ++ b
  let f := udpFrame i.v6 d.mac i.vid i.addr d.ip i.port d.port (h ++ ethMac s p h)
  keeperSend none { f with src := (portAt s 12).station } s

/-- A message to an Ethernet pound: its segments, in order. -/
def sendMessage (p : Nat) (d : EthDest) (b : List Byte) (s : State) : State :=
  let l := segments 3 b
  l.zipIdx.foldl (fun s x => sendDatagram p d x.2 l.length x.1 s) s

/-- One message of an Ethernet pound (R411, R414): a response goes to the sender of its command, an event to
the pound's destination. With its key revoked nothing leaves. -/
def sendEth (p : Nat) (s : State) : State :=
  let q := pqAt s p
  let usable := !q.ethRevoked && (match q.ethKey with | some h => keyReady s h | none => false)
  match q.rsp, q.evt with
  | m :: r, _ =>
    let dst := (q.asked.find? (fun x => decide (x.1 = m.tag))).map (·.2)
    let s := modPq p (fun q => { q with rsp := r, reserved := q.reserved - 1, asked := q.asked.eraseP (fun x => decide (x.1 = m.tag)) }) s
    match (if dst.isSome then dst else q.dest) with
    | some d => if usable then sendMessage p d (rspBytes m) s else s
    | none => s
  | [], v :: r =>
    match q.dest with
    | some d =>
      let s := modPq p (fun q => { q with evt := r }) s
      if usable then sendMessage p d (evtBytes p v) s else s
    | none => s
  | [], [] => s

/-! ### SPI (R415-R417) -/

/-- The pound of the SPI slave (R446, R447); its lands are inactive with VIO33 out of range (R555). -/
def spiPound (s : State) : Option Nat :=
  if !railOk s 3 then none
  else if s.fv.chipPound0 then some 0 else (List.range 32).find? (fun p => decide ((poundAt s p).kind = 3))

/-- `ready` (R416, R449): fewer commands unanswered than the limit. -/
def spiReady (s : State) (p : Nat) : Bool :=
  decide ((pqAt s p).unanswered < min 64 (poundAt s p).cmdSlots ∧ (poundAt s p).state = .running) && s.fv.fw

/-- The message READ would return. -/
def spiHead (s : State) (p : Nat) : List Byte :=
  match (pqAt s p).rsp, (pqAt s p).evt with
  | m :: _, _ => rspBytes m
  | [], e :: _ => evtBytes p e
  | [], [] => []

/-- The status word (R415). -/
def spiWord (s : State) (p : Nat) : Nat :=
  let q := pqAt s p
  flag 0 (spiReady s p) + flag 1 (!q.rsp.isEmpty) + flag 2 (!q.evt.isEmpty) + flag 3 q.spi.err + (spiHead s p).length * 65536

/-- A transport error of the SPI slave. -/
def spiErr (p : Nat) (s : State) : State := modPq p (fun q => { q with spi := { q.spi with err := true } }) s

/-! ### Meanings: window registers -/

/-- Windows exist for functions 0-31 and partitions 0-31. -/
def winOk (e : Nat) : Bool := decide (e < 64)

/-- A window can be written: the keeper domain is powered, and for a partition's the cores are too (R23, R25). -/
def winLive (s : State) (e : Nat) : Bool := s.pwr.keeper && (decide (e < 32) || s.pwr.vcoreEn)

/-- RUN_SET (R402, R457): the rings are checked; with no fault the message rings are in service and the pound
of a PCIe function runs. -/
def execRunSet (e : Nat) (s : State) : Out :=
  guardUnit (winOk e) (if !winLive s e then s else
    match poundOfWin s e with
    | none => s
    | some p =>
      if (poundAt s p).state = .resetting ∨ (winAt s e).running = true then modWin e (fun w => { w with run := true }) s
      else match runFault s e with
        | some (code, k) => emitTransport p 0x10 (mbxError p code k (modWin e (fun w => { w with cfgErr := true, run := true }) s))
        | none =>
          let s := modWin e (fun w => setCause 5 s.tide.counter
            ([0, 1, 2].foldl (fun w k => modRing k (fun r => { r with head := 0, tail := 0 }) w)
              { w with run := true, running := true, cfgErr := false, errCount := 0 })) s
          if (poundAt s p).kind = 1 ∧ (poundAt s p).state = .stopped then clearSnap p (modPound p (fun r => { r with state := .running }) s) else s)

/-- RUN_CLEAR (R402). -/
def execRunClear (e : Nat) (s : State) : Out :=
  guardUnit (winOk e)
    (if !winLive s e then s else
     let s := modWin e (fun w => { w with run := false, cfgErr := false }) s
     match poundOfWin s e with
     | some p => stopIfDone p e s
     | none => modWin e (fun w => { w with running := false }) s)

/-- COMMAND_DOORBELL (R403, R404): the host writes the command ring's tail. -/
def execCommandDoorbell (e tail : Nat) (s : State) : Out :=
  guardUnit (winOk e) (if !winLive s e then s else (tailWrite e 0 tail s).2)

/-- RESPONSE_HEAD_WRITE (R403, R405). -/
def execResponseHeadWrite (e head : Nat) (s : State) : Out :=
  guardUnit (winOk e) (if !winLive s e then s else headWrite e 1 head s)

/-- EVENT_HEAD_WRITE (R403, R405). -/
def execEventHeadWrite (e head : Nat) (s : State) : Out :=
  guardUnit (winOk e) (if !winLive s e then s else headWrite e 2 head s)

/-- RECEIVE_RING_POST (R342, R403): the host writes the tail of receive ring `r` (0-3); `l` are the descriptors
posted, which the device uses while the ring is on. -/
def execReceiveRingPost (e r tail : Nat) (l : List Desc) (s : State) : Out :=
  guardUnit (decide (e < 64 ∧ r < 4))
    (if !winLive s e then s else
     match tailWrite e (blockOf r) tail s with
     | (none, s) => s
     | (some (n, b), s) => match poundOfWin s e with
       | none => s
       | some p =>
         if ringOn s p r then
           drainQueue p r (modHring (ringKey p r) (fun g => { g with posted := g.posted.take (g.posted.length - b) ++ l.take n }) s)
         else s)

/-- TRANSMIT_RING_DOORBELL (R345, R403): the same of transmit ring `r` (4-7). -/
def execTransmitRingDoorbell (e r tail : Nat) (l : List Desc) (s : State) : Out :=
  guardUnit (decide (e < 64 ∧ 4 ≤ r ∧ r < 8))
    (if !winLive s e then s else
     match tailWrite e (blockOf r) tail s with
     | (none, s) => s
     | (some (n, b), s) => match poundOfWin s e with
       | none => s
       | some p =>
         if ringOn s p r then
           modHring (ringKey p r) (fun g => { g with posted := g.posted.take (g.posted.length - b) ++ l.take n }) s
         else s)

/-- CAUSE_CLEAR (R11, R408): bits written 1 clear but for those of `same`, which hardware sets in the clock cycle of
the write; an enabled bit still set signals its vector again. -/
def execCauseClear (e mask same : Nat) (s : State) : Out :=
  guardUnit (winOk e) (if !winLive s e then s else
    modWin e (fun w =>
    let w := { w with cause := w.cause - (w.cause &&& (mask - (mask &&& same))) }
    let vs := (List.range 4).filter (fun v => (List.range 6).any (fun k =>
      bitOf k w.cause && bitOf k w.causeEn && decide (fieldOf (2 * k) 2 w.vec = v)))
    vs.foldl (fun w v => signalVec v s.tide.counter w) w) s)

/-- A ring register of a window (R400, R402): ignored, with code 4, while the ring is in service. -/
def ringRegister (e k r val : Nat) (s : State) : State :=
  let busy := if k < 3 then (winAt s e).running
    else match poundOfWin s e with | some p => (hringAt s (ringKey p (k - 3))).en | none => false
  let f : Option (Ring → Ring) :=
    if r = 0 then some (fun g => { g with base := g.base / 2 ^ 32 * 2 ^ 32 + val % 2 ^ 32 })
    else if r = 4 then some (fun g => { g with base := g.base % 2 ^ 32 + val % 2 ^ 32 * 2 ^ 32 })
    else if r = 8 then some (fun g => { g with log2 := val % 16 })
    else none
  match f with
  | some f => if busy then winError e 4 k s else modWin e (modRing k f) s
  | none => s

/-- REGISTER_WRITE (R400, R402): a write at byte offset `off`; `word` says that it was an aligned 32-bit access.
Registers with a behaviour of their own have their own commands, and the others are read-only. -/
def execRegisterWrite (e off val : Nat) (word : Bool) (s : State) : Out :=
  guardUnit (winOk e)
    (if !winLive s e then s else
     if !word || decide (off % 4 ≠ 0) then winError e 7 0 s
     else if off = 0x010 then modWin e (fun w => { w with causeEn := val % 64 }) s
     else if off = 0x014 then modWin e (fun w => { w with vec := val % 4096 }) s
     else if off = 0x018 then modWin e (fun w => { w with mod := val % 65536 }) s
     else if 0x100 ≤ off ∧ off < 0x260 then ringRegister e ((off - 0x100) / 32) (off % 32) val s
     else s)

/-- OUTBOUND_DOORBELL (R405, R407, R414): one response or event of pound `p` leaves. An SPI pound's wait for a
READ. -/
def execOutboundDoorbell (p : Nat) (s : State) : Out :=
  guardUnit (decide (p < 32))
    (if !pThere s p then s
     else match winOf s p with
       | some e => sendWindow p e s
       | none => if (poundAt s p).kind = 2 then sendEth p s else s)

/-- INTERRUPT_MODERATION_END (R408): a deferred interrupt of vector `v` is sent. -/
def execInterruptModerationEnd (e v : Nat) (s : State) : Out :=
  guardUnit (decide (e < 64 ∧ v < 4))
    (modWin e (fun w =>
      let x := tget vec0 w.vecs v
      let y : Vec := { last := some s.tide.counter, deferred := false, sent := (x.sent + 1) % 2 ^ 32 }
      if x.deferred then { w with vecs := tput vec0 v y w.vecs } else w) s)

/-- DMA_WRITE_FAILURE (R406, R456): a response or event could not be written. -/
def execDmaWriteFailure (e ring : Nat) (s : State) : Out :=
  guardUnit (decide (e < 64 ∧ ring < 11)) (match poundOfWin s e with
    | none => s
    | some p =>
      let s := mbxError p 6 ring (modWin e (fun w => { w with dmaFault := true }) s)
      startReset p 4 (emitTransport p 0x11 s))

/-! ### Meanings: SPI and address resolution -/

/-- SPI_STATUS (R415): the status word is sent and the error flag cleared. -/
def execSpiStatus (s : State) : Out :=
  .next (match spiPound s with
    | none => s
    | some p => modPq p (fun q => { q with spi := { q.spi with word := spiWord s p, err := false } }) s)

/-- SPI_READ (R415, R417): the host clocks out `n` bytes. The message leaves its queue with its last byte. -/
def execSpiRead (n : Nat) (s : State) : Out :=
  .next (if !s.pwr.keeper then s else
    match spiPound s with
    | none => s
    | some p =>
      let b := spiHead s p
      let out := (if b.isEmpty then List.replicate 16 0 else b).take n
      let s := modPq p (fun q => { q with spi := { q.spi with out := out } }) s
      if b.isEmpty ∨ n < b.length then s
      else modPq p (fun q => if q.rsp.isEmpty then { q with evt := q.evt.drop 1 }
        else { q with rsp := q.rsp.drop 1, reserved := q.reserved - 1 }) s)

/-- SPI_UNKNOWN_INSTRUCTION (R415). -/
def execSpiUnknownInstruction (s : State) : Out :=
  .next (if !s.pwr.keeper then s else
    match spiPound s with
    | none => s
    | some p => spiErr p (bumpPq p 5 s))

/-- An ARP reply for an IPv4 interface. -/
def arpReply (mac ip dstMac dstIp : Nat) : EthFrame :=
  { dst := dstMac, src := mac, etype := 0x0806
    payload := beBytes 2 1 ++ beBytes 2 0x0800 ++ beBytes 1 6 ++ beBytes 1 4 ++ beBytes 2 2 ++ beBytes 6 mac ++ beBytes 4 ip ++
      beBytes 6 dstMac ++ beBytes 4 dstIp }

/-- A neighbour advertisement for an IPv6 interface. -/
def neighbourReply (mac ip dstMac dstIp : Nat) : EthFrame :=
  let body := fun (c : Nat) => beBytes 1 136 ++ beBytes 1 0 ++ beBytes 2 c ++ beBytes 4 0x60000000 ++ beBytes 16 ip ++
    beBytes 1 2 ++ beBytes 1 1 ++ beBytes 6 mac
  let sum := sum16 (beBytes 16 ip ++ beBytes 16 dstIp) + 32 + 58 + sum16 (body 0)
  { dst := dstMac, src := mac, etype := 0x86DD
    payload := beBytes 4 0x60000000 ++ beBytes 2 32 ++ beBytes 1 58 ++ beBytes 1 255 ++ beBytes 16 ip ++ beBytes 16 dstIp ++
      body (inetCheck sum) }

/-- ADDRESS_RESOLUTION_REQUEST (R410): station `mac`, `ip` asks for the address of IP interface `i`. -/
def execAddressResolutionRequest (i mac ip : Nat) (s : State) : Out :=
  guardUnit (decide (i < 4))
    (let x := tget iface0 s.fv.ifaces i
     if !x.en || !s.fv.fw then s
     else
       let own := (portAt s 12).station
       let f := if x.v6 then neighbourReply own x.addr mac ip else arpReply own x.addr mac ip
       keeperSend none { f with tagged := decide (x.vid ≠ 0), vid := x.vid } s)

end Sys2Proof.Machine
end

