-- ==== Sys2Proof/Machine/Lighthouse.lean ====
section
/-! DEFINITION. The Lighthouse: partition mailboxes (R525-R528), watchdog restart (R529, R530), hand-over and
claims (R531-R533), key slots and their actions (R534-R543), attestation (R544, R545), debug authorisation
(R546-R548). Cryptographic functions are `Config.cipher`, whose services are the codes of R526 and: 10 the
public point of a private key, 11 a GCM tag, 12 HMAC, 13 the SHA-256 of a public point. -/
namespace Sys2Proof.Machine

/-! ### Partition mailboxes -/

/-- The `use` bit a service needs (R526). -/
def lhUse (op : Nat) : Nat :=
  match op with | 1 => 1 | 2 => 2 | 3 => 4 | 4 => 4 | 6 => 8 | 7 => 16 | 8 => 32 | _ => 0

/-- HASH and RANDOM take no key. -/
def lhKeyed (op : Nat) : Bool := decide (op ≠ 5 ∧ op ≠ 9)

/-- The record of the key a request names. -/
def lhKey (s : State) (r : LhRegs) : Key := keyAt s ((keySlot s r.key).getD 0)

/-- Mode, lengths and addresses within their ranges (R525, R527). -/
def lhRangeOk (s : State) (p op : Nat) (r : LhRegs) : Bool :=
  let mode :=
    if op = 1 ∨ op = 2 then decide (r.mode ≤ 2)
    else if op = 5 ∨ ((op = 3 ∨ op = 4) ∧ (lhKey s r).type = 3) then decide (r.mode ≤ 1)
    else true
  let src := decide (op ∈ [8, 9]) || decide (r.len = 0) || inShare s p r.src r.len
  let dst := !lhHasDst op || decide (r.len = 0) || inShare s p r.dst r.len
  mode && src && dst &&
  (if op = 9 then rng 1 65536 r.len else decide (r.len ≤ 16777216)) &&
  (decide (op ≠ 4) || rng 4 64 r.cmp) &&
  (decide (¬(op = 1 ∨ op = 2) ∨ r.mode ≠ 2 ∨ r.aad ≤ r.len))

/-- What stops a request at its start, in the order of R527's table. -/
def lhStatus (s : State) (p op : Nat) (r : LhRegs) : Status :=
  if s.light.state = 2 then .eAborted
  else if lhKeyed op && (match keySlot s r.key with | some k => decide ((keyAt s k).state = 0) | none => true) then .eHandle
  else if lhKeyed op && !holds s p r.key then .eShare
  else if lhKeyed op && !keyFits s r.key 0 (lhUse op) then .eAuth
  else if !lhRangeOk s p op r then .eRange
  else if lhKeyed op && !keyReady s r.key then .eRevoked
  else if decide (op = 9) && s.light.freeze then .eBusy
  else .ok

/-- The status zeroises what was written (R527). -/
def lhZeroises (op : Nat) (st : Status) : Bool :=
  match st with
  | .eAuth => decide (op = 2)
  | .eRevoked => true
  | .eAborted => true
  | .eTrunc => true
  | _ => false

/-- Counters of ended operations (R549). -/
def lhCount (st : Status) (s : State) : State :=
  match st with
  | .eAborted => modLight (fun l => { l with aborted := sat 32 (l.aborted + 1) }) s
  | .eRevoked => modLight (fun l => { l with revoked := sat 32 (l.revoked + 1) }) s
  | _ => s

/-- A request ends without a result. -/
def lhFail (p : Nat) (st : Status) (s : State) : State :=
  lhCount st (modBox p (fun b => { b with busy := false, done := true, stat := st.code, out := 0, result := [] }) s)

/-- LH_GO with service `op` (R525-R527): the registers hold what the partition wrote. LH_RESULT and LH_IV are
taken and zeroised. -/
def lhGo (op p : Nat) (r : LhRegs) (s : State) : State :=
  if (poundAt s p).kind ≠ 4 || !s.pwr.vcoreEn then s
  else if (boxAt s p).busy then modBox p (fun b => { b with stat := Status.eBusy.code }) s
  else
    let s := modBox p (fun _ => { op := op, regs := r, busy := true }) s
    match lhStatus s p op r with
    | .ok => if lhKeyed op then keyUse r.key s else s
    | st => lhFail p st s

/-- Output length of a hash (R523). -/
def hashLen (mode : Nat) : Nat := if mode = 0 then 32 else 48

/-- Curve of an ECC key type: 0 P-256, 1 P-384. -/
def curveOf (type : Nat) : Nat := if type = 4 ∨ type = 6 then 0 else 1

/-- Bytes of a coordinate on the curve. -/
def coordLen (type : Nat) : Nat := if curveOf type = 0 then 32 else 48

/-- The MAC of a key: CMAC of an AES key, HMAC of a secret key. -/
def macOf (k : Key) (mode : Nat) (b : List Byte) : List Byte :=
  if k.type = 3 then beBytes (hashLen mode) (Config.cipher 12 mode k.mat b) else beBytes 16 (Config.cipher 3 0 k.mat b)

/-- The GCM tag over the authenticated bytes and the ciphertext. -/
def gcmTag (mat : Nat) (iv aad ct : List Byte) : List Byte :=
  beBytes 16 (Config.cipher 11 2 mat (iv ++ leBytes 2 aad.length ++ aad ++ ct))

/-- A signature verifies under a key. -/
def sigOk (k : Key) (sig msg : List Byte) : Bool :=
  decide (Config.cipher 7 (curveOf k.type) k.mat (sig ++ msg) % 2 = 1)

/-- A signature, which takes a random number of its own (free value). -/
def signWith (k : Key) (msg : List Byte) (fresh : Nat) : List Byte :=
  beBytes (2 * coordLen k.type) (Config.cipher 6 (curveOf k.type) k.mat (msg ++ leBytes 8 fresh))

/-- What a service answers: status, destination bytes, LH_RESULT (R526). -/
def lhResult (s : State) (b : LhBox) : Status × List Byte × List Byte :=
  let r := b.regs
  let k := lhKey s r
  let src := memBytes s.mem r.src (if b.op = 8 ∨ b.op = 9 then 0 else r.len)
  let iv := beBytes 16 r.iv
  let n := lhDstLen b
  let aad := if r.mode = 2 then src.take r.aad else []
  match b.op with
  | 1 =>
    let out := beBytes n (Config.cipher 1 r.mode k.mat (iv ++ leBytes 2 aad.length ++ src))
    (.ok, out, if r.mode = 2 then gcmTag k.mat iv aad out else [])
  | 2 =>
    if r.mode = 2 ∧ gcmTag k.mat iv aad (src.drop r.aad) ≠ r.result.take 16 then (.eAuth, [], [])
    else (.ok, beBytes n (Config.cipher 2 r.mode k.mat (iv ++ leBytes 2 aad.length ++ src)), [])
  | 3 => (.ok, [], macOf k r.mode src)
  | 4 =>
    let m := macOf k r.mode src
    (if (m ++ List.replicate 64 0).take r.cmp = (r.result ++ List.replicate 64 0).take r.cmp then .ok else .eAuth, [], [])
  | 5 => (.ok, [], beBytes (hashLen r.mode) (Config.cipher 5 r.mode 0 src))
  | 6 => (.ok, [], signWith k src (Config.freeValue s.free))
  | 7 => (if sigOk k (r.result.take (2 * coordLen k.type)) src then .ok else .eAuth, [], [])
  | 8 => (.ok, [], beBytes (coordLen k.type) (Config.cipher 8 (curveOf k.type) k.mat (r.result.take (2 * coordLen k.type))))
  | _ => (.ok, beBytes n (Config.freeValue s.free), [])

/-- The key of the request has been lost since it started (R527, R536). -/
def lhBroken (s : State) (b : LhBox) : Bool :=
  lhKeyed b.op && !(match keySlot s b.regs.key with | some k => keyUsable s k | none => false)

/-- The end of a request (R526, R527). -/
def lhEnd (p got : Nat) (trunc : Bool) (s : State) : State :=
  let b := boxAt s p
  if !b.busy || decide (s.light.state ≠ 0) then s
  else if trunc then lhFail p .eTrunc (lhScrub b got s)
  else if lhBroken s b then
    lhFail p .eRevoked (lhScrub b got s)
  else
    match lhResult s b with
    | (.ok, out, res) =>
      let s := (takeFree s).2
      let s := storeBytes b.regs.dst out s
      modBox p (fun x => { x with busy := false, done := true, stat := 0
                                  out := if lhHasDst b.op then out.length else res.length, result := res }) s
    | (st, _, _) => lhFail p st (if lhZeroises b.op st then lhScrub b (lhDstLen b) s else s)

/-- A request in progress is aborted (R529, R533). -/
def lhAbort (p : Nat) (s : State) : State :=
  if (boxAt s p).busy then lhFail p .eAborted (lhScrubOpen (boxAt s p) s) else s

/-- Every request in progress is aborted. -/
def lhAbortAll (s : State) : State := (List.range 32).foldl (fun s p => lhAbort p s) s

/-! ### Claims and blocks (R531-R533) -/

/-- The claim map: what the held blocks need, and VCORE while a mailbox request reads the core domain. -/
def claimsNow (s : State) : Nat :=
  s.light.claims ||| b2n ((List.range 32).any (fun p => (boxAt s p).busy))

/-- A block goes back to the normal world with its claims. -/
def returnBlock (b : Nat) (s : State) : State :=
  modLight (fun l =>
    let held := if bitOf b l.held then l.held - 2 ^ b else l.held
    { l with held := held, claims := if held % 4 = 0 then 0 else l.claims }) s

/-- A forced cut of the resources `bits` (R533): the operation that claims one ends with E_ABORTED, its blocks
return, and LIGHT_ABORT is raised. A cut of what is not claimed does nothing here. -/
def forceCut (bits cause : Nat) (s : State) : State :=
  let hit := claimsNow s &&& bits
  if hit = 0 then s
  else
    let own := s.light.claims &&& bits
    let s := if bitOf 0 hit then lhAbortAll s else s
    let s := if own ≠ 0 then lhCount .eAborted (returnBlock 1 (returnBlock 0 s)) else s
    emit 0x5002 0 s (cause := cause) (value := hit)

/-- Resources that entering a power state cuts (R581, R582). -/
def cutBits (target : Nat) : Nat := if target = 3 then 31 else if target = 2 then 3 else 0

/-! ### Debug authorisation (R546-R548) -/

/-- An authorisation ends (R547): DEBUG is taken back and halted cores resume. -/
def endDebug (s : State) : State :=
  if s.light.scope = 0 then s
  else
    let s := modLight (fun l => { l with scope := 0, notAfter := 0, held := l.held ||| 4 }) s
    let s := if 1 < s.sys.tapReg then modSys (fun v => { v with tapReg := 0 }) s else s
    (List.range 5).foldl (fun s k => if (coreAt s k).halted then modCore k (fun c => { c with halted := false }) s else s) s

/-- Bytes of an open challenge (R546). -/
def challengeBytes (c : Challenge) : List Byte :=
  leBytes 8 Config.identity ++ leBytes 6 c.cycle ++ leBytes 2 c.scope ++ beBytes 32 c.nonce

/-- DEBUG_CHALLENGE (R546): a new challenge voids the former, and scope 0 ends the authorisation. -/
def openChallenge (scope : Nat) (s : State) : State :=
  let (n, s) := takeFree s
  let s := modLight (fun l => { l with
    challenge := some { scope := scope, nonce := n, cycle := s.cyc.number, at_ := s.tide.counter } }) s
  if scope = 0 then endDebug s else s

/-- Reserved bits of a response are zero (R12, R546): in a Faval payload others are refused before anything executes. -/
def responseFields (a : List Byte) : Bool := decide (leAt a 0 2 < 128 ∧ leAt a 2 2 = 0 ∧ leAt a 10 2 = 0)

/-- A debug response meets every condition of R546: scope, limit and signature. -/
def responseOk (s : State) (a : List Byte) : Bool :=
  match s.light.challenge with
  | none => false
  | some c =>
    let scope := leAt a 0 2
    decide (scope &&& c.scope = scope ∧ s.tide.sec < leAt a 4 6 ∧
            s.tide.counter < c.at_ + 60 * nsPerSec) &&
    sigOk (keyAt s 2) (a.drop 12) (challengeBytes c ++ a.take 12)

/-- The third failure since the start has closed both paths (R547). -/
def debugClosed (s : State) : Bool := decide (3 ≤ s.light.dbgFail)

/-- A verified response puts its scope in force and uses the challenge up. -/
def grantDebug (a : List Byte) (s : State) : State :=
  modLight (fun l => { l with
    keys := tmod key0 2 (fun r => { r with uses := sat 32 (r.uses + 1) }) l.keys
    challenge := none, scope := leAt a 0 2, notAfter := leAt a 4 6, dbgSince := true
    held := if leAt a 0 2 = 0 then l.held else if bitOf 2 l.held then l.held - 4 else l.held }) s

/-- A response that fails (R547). -/
def failDebug (s : State) : State :=
  modLight (fun l => { l with
    keys := tmod key0 2 (fun r => { r with uses := sat 32 (r.uses + 1) }) l.keys
    challenge := none, dbgFail := sat 8 (l.dbgFail + 1) }) s

/-! ### Key records (R534) -/

/-- The public point of an ECC key. -/
def pointOf (k : Key) : List Byte :=
  if k.pub ≠ [] then k.pub else beBytes (2 * coordLen k.type) (Config.cipher 10 (curveOf k.type) k.mat [])

/-- The check value: first three bytes of the key's CMAC, HMAC or point hash. -/
def kcvOf (k : Key) : Nat :=
  if k.state = 0 then 0
  else if k.type = 1 ∨ k.type = 2 then leAt (macOf k 0 (List.replicate 16 0)) 0 3
  else if k.type = 3 then leAt (macOf k 0 [0]) 0 3
  else leAt (beBytes 32 (Config.cipher 13 0 0 (pointOf k))) 0 3

/-- Key record, part 0. -/
def keyRec (k : Nat) : Rec :=
  { len := 40
    flds := liveF 0 0 2 (keyState · k) :: liveF 3 0 5 (fun s => ownerOf s (handleOf s 0x51 k)) ::
      liveF 22 0 24 (fun s => kcvOf (keyAt s k)) :: lift (keyAt · k) (modKey k) [
      roF 0 2 4 (·.type), roF 1 0 8 (·.use), roF 2 0 4 (·.bind), roB 2 4 (·.persist),
      roF 4 0 16 (·.parent), roF 6 0 3 (·.depth), roF 8 0 32 (·.gen), roF 12 0 32 (·.parentGen),
      roF 16 0 48 (·.notAfter), roF 26 0 48 (·.madeCycle), roF 32 0 32 (·.uses)] }

/-- Records of class KEY: part 1 exists for ECC keys only, and is empty for the others. -/
def keyRecord (k part : Nat) : Option Rec :=
  if 1024 ≤ k then none
  else match part with
  | 0 => some (keyRec k)
  | 1 => some { len := 0, flds := [], more := fun s =>
      let r := keyAt s k
      if r.state ≠ 0 ∧ 4 ≤ r.type then pointOf r else [] }
  | _ => none

/-! ### Key actions (R541) -/

/-- The slot an argument names, and its handle on this device. -/
def argSlot (a : List Byte) : Nat := leAt a 0 2
def slotHandle (s : State) (k : Nat) : Nat := handleOf s 0x51 k

/-- Authority over the target slot (R541). -/
def keyAuth (s : State) (p : Nat) (a : List Byte) : Bool :=
  let k := argSlot a
  decide (64 ≤ k) && (decide (1024 ≤ k) || (holds s p (slotHandle s k) && ownerOr0 s p (slotHandle s k)))

/-- The attribute bytes are legal and suit the type (R535). -/
def attrsOk (a : List Byte) : Bool :=
  let t := leAt a 2 1
  let u := leAt a 3 1
  decide (argSlot a < 1024 ∧ 1 ≤ t ∧ t ≤ 7 ∧ leAt a 4 1 < 32 ∧ leAt a 5 1 = 0 ∧ leAt a 12 4 = 0) &&
  (!bitOf 6 u || decide (t = 2)) && (!bitOf 7 u || decide (t = 2)) &&
  (!bitOf 3 u || decide (t = 4 ∨ t = 5)) && (!bitOf 5 u || decide (t = 4 ∨ t = 5)) &&
  (!bitOf 4 u || decide (4 ≤ t)) && (!bitOf 2 u || decide (t ≤ 3))

/-- Persistent keys of the pound slots (R535). -/
def persistCount (s : State) : Nat :=
  (s.light.keys.filter (fun e => decide (64 ≤ e.1 ∧ e.2.state = 1) && e.2.persist)).length

/-- Checks every new key of an empty or invalid slot meets, after the attributes (R535, R541). -/
def slotStatus (s : State) (a : List Byte) : Status :=
  if (keyAt s (argSlot a)).state = 1 then .eState
  else if bitOf 4 (leAt a 4 1) && decide (640 ≤ persistCount s) then .eBusy
  else .ok

/-- Bytes of material a type takes (R534, R538). -/
def materialOk (type n : Nat) : Bool :=
  match type with
  | 1 => decide (n = 16) | 2 => decide (n = 32) | 3 => rng 32 64 n | 4 => decide (n = 32) | 5 => decide (n = 48)
  | 6 => decide (n = 64) | _ => decide (n = 96)

/-- Checks of an import: `b` is wrapping slot, blob length, blob (R541). -/
def importStatus (s : State) (a b : List Byte) : Status :=
  let type := leAt a 2 1
  let w := leAt b 0 2
  let blob := b.drop 4
  let n := blob.length - 28
  let k := keyAt s w
  if w = 0xFFFF then (if 6 ≤ type && materialOk type blob.length then .ok else .eRange)
  else if 1024 ≤ w ∨ blob.length < 28 ∨ !materialOk type n then .eRange
  else if !keyUsable s w || keyExpired s w then .eRevoked
  else if k.type ≠ 2 ∨ !bitOf 7 k.use then .eAuth
  else if gcmTag k.mat (blob.take 12) (a.take 16) ((blob.drop 12).take n) ≠ blob.drop (12 + n) then .eAuth
  else .ok

/-- Material and public point an import brings. -/
def importMaterial (s : State) (a b : List Byte) : Nat × List Byte :=
  let type := leAt a 2 1
  let blob := b.drop 4
  if leAt b 0 2 = 0xFFFF then (beNat blob, blob)
  else
    let n := blob.length - 28
    let m := beBytes n (Config.cipher 2 2 (keyAt s (leAt b 0 2)).mat (blob.take 12 ++ a.take 16 ++ (blob.drop 12).take n))
    (beNat m, if 6 ≤ type then m else [])

/-- Label and context of a derivation: `b` is parent, lengths, label, context (R541). -/
def deriveLabel (b : List Byte) : List Byte := (b.drop 4).take (leAt b 2 1)
def deriveContext (b : List Byte) : List Byte := (b.drop (4 + leAt b 2 1)).take (leAt b 3 1)

/-- Checks of a derivation under parent `q` (R535, R536, R541). -/
def deriveStatus (s : State) (a b : List Byte) (q : Nat) : Status :=
  let k := keyAt s q
  let bind := leAt a 4 1 % 16
  let na := leAt a 6 6
  if 1024 ≤ q ∨ 32 < leAt b 2 1 ∨ 64 < leAt b 3 1 ∨ 6 ≤ leAt a 2 1 then .eRange
  else if !keyUsable s q || keyExpired s q then .eRevoked
  else if k.type ≠ 2 ∨ !bitOf 6 k.use then .eAuth
  else if 7 ≤ k.depth ∨ bind &&& k.bind ≠ bind ∨ (k.notAfter ≠ 0 ∧ (na = 0 ∨ k.notAfter < na)) ∨
      (bitOf 4 (leAt a 4 1) && !k.persist) = true then .eRange
  else .ok

/-- The record a new key of the argument starts from; generation and sequence carry on from the slot. -/
def freshKey (s : State) (a : List Byte) : Key :=
  let o := keyAt s (argSlot a)
  { state := 1, type := leAt a 2 1, use := leAt a 3 1, bind := leAt a 4 1 % 16, persist := bitOf 4 (leAt a 4 1)
    notAfter := leAt a 6 6, gen := o.gen, madeCycle := s.cyc.number, seq := o.seq + b2n (bitOf 4 (leAt a 4 1)) }

/-- The record commits (R539). -/
def commitKey (a : List Byte) (k : Key) (s : State) : State := modKey (argSlot a) (fun _ => k) s

/-- A generated key: a root with material of the TRNG. -/
def generated (s : State) (a : List Byte) : Key := { freshKey s a with mat := Config.freeValue s.free }

/-- An imported key: a root. -/
def imported (s : State) (a b : List Byte) : Key :=
  let m := importMaterial s a b
  { freshKey s a with mat := m.1, pub := m.2 }

/-- Order of the P-256 and P-384 groups. PRESUMED: NIST FIPS 186, which gives the curves their parameters. -/
def curveOrder (type : Nat) : Nat :=
  if curveOf type = 0 then 0xFFFFFFFF00000000FFFFFFFFFFFFFFFFBCE6FAADA7179E84F3B9CAC2FC632551
  else 0xFFFFFFFFFFFFFFFFFFFFFFFFFFFFFFFFFFFFFFFFFFFFFFFFC7634D81F4372DDF581A0DB248B0A77AECEC196ACCC52973

/-- Bytes that a derivation takes from the PRF (R542): an ECC child takes 64 bits more than its curve order has. -/
def kdfLen (type : Nat) : Nat :=
  match type with
  | 1 => 16 | 2 => 32 | 3 => 32 + Config.secretLen % 33 | 4 => 40 | _ => 56

/-- The first `n` bytes of SP 800-108 in counter mode under AES-CMAC of `mat`: a 32-bit counter from 1, then label,
a zero byte, context and the output length in bits (R542). -/
def kdf (mat n : Nat) (label context : List Byte) : List Byte :=
  ((List.range ((n + 15) / 16)).flatMap (fun i =>
    beBytes 16 (Config.cipher 3 0 mat (beBytes 4 (i + 1) ++ label ++ [0] ++ context ++ beBytes 4 (8 * n))))).take n

/-- Material of a child of a type (R542). -/
def deriveMat (mat type : Nat) (label context : List Byte) : Nat :=
  let m := beNat (kdf mat (kdfLen type) label context)
  if type = 4 ∨ type = 5 then m % (curveOrder type - 1) + 1 else m

/-- A derived key: a child of slot `q` as its generation stands (R536, R542). -/
def derived (s : State) (a b : List Byte) (q : Nat) (label : List Byte) : Key :=
  let k := keyAt s q
  { freshKey s a with parent := q, depth := k.depth + 1, parentGen := k.gen
                      mat := deriveMat k.mat (leAt a 2 1) label (deriveContext b) }

/-- Checks of UPDATE (R541): `b` starts at byte 22. -/
def updateStatus (s : State) (a : List Byte) : Status :=
  let k := keyAt s (argSlot a)
  let b := a.drop 18
  let src := leAt a 16 1
  if !attrsOk a || decide (2 < src ∨ leAt a 17 1 ≠ 0) then .eRange
  else if k.state ≠ 1 then .eState
  else if leAt a 2 1 ≠ k.type ∨ leAt a 3 1 ≠ k.use ∨ leAt a 4 1 ≠ k.bind + 16 * b2n k.persist then .eRange
  else if src = 0 then (if 6 ≤ k.type then .eRange else if s.light.freeze then .eBusy else .ok)
  else if src = 1 then importStatus s a b
  else if k.parent = 0xFFFF then .eRange
  else deriveStatus s a b k.parent

/-- The length of an argument fits the lengths inside it. -/
def importFit (b : List Byte) : Bool := decide (4 ≤ b.length ∧ b.length = 4 + leAt b 2 2)
def deriveFit (b : List Byte) : Bool := decide (4 ≤ b.length ∧ b.length = 4 + leAt b 2 1 + leAt b 3 1)

/-- The new generation is broadcast (R537). -/
def broadcast (a : List Byte) (s : State) : State :=
  revokeConsumers (emit 0x5102 (argSlot a) s (value := (keyAt s (argSlot a)).gen))

/-- UPDATE commits: the new key has the slot's next generation. -/
def updateKey (a : List Byte) (s : State) : State :=
  let b := a.drop 18
  let o := keyAt s (argSlot a)
  let (k, with_) := match leAt a 16 1 with
    | 0 => (generated s a, 0xFFFF)
    | 1 => (imported s a b, leAt b 0 2)
    | _ => (derived s a b o.parent (deriveLabel b), o.parent)
  broadcast a (commitKey a { k with gen := (o.gen + 1) % 2 ^ 32 } (keyUse (slotHandle s with_) (takeFree s).2))

/-- INVALIDATE commits (R537). -/
def invalidateKey (a : List Byte) (s : State) : State :=
  let o := keyAt s (argSlot a)
  broadcast a (commitKey a { o with state := 3, gen := (o.gen + 1) % 2 ^ 32, mat := 0, pub := []
                                    madeCycle := s.cyc.number, seq := o.seq + b2n o.persist } s)

/-- A key action: its checks after the length are `check`, its effect `run`; it answers the target's record. -/
def keyAct (code : Nat) (argOk : Nat → Bool) (fit : List Byte → Bool) (auth : State → Nat → List Byte → Bool)
    (check : State → List Byte → Status) (run : List Byte → State → State) : ActSpec :=
  { code := code, cyc := false, argOk := argOk, argFit := fit
    auth := fun s p _ a => keyAuth s p a && auth s p a
    check := fun s _ _ a => check s a
    run := fun _ _ a => run a
    result := fun _ a s => encodeRec (keyRec (argSlot a)) s }

/-- Class KEY (R439, R534, R541). -/
def keyClass : ClassSpec :=
  { code := 0x51
    ranges := [(0, 1024)]
    record := keyRecord
    verbs := [1, 2, 3, 4, 5, 6]
    events := 2
    acts := [
      keyAct 1 (fun n => decide (n = 16)) (fun _ => true) (fun _ _ _ => true)
        (fun s a => if !attrsOk a || decide (6 ≤ leAt a 2 1) then .eRange
                    else match slotStatus s a with
                      | .ok => if s.light.freeze then .eBusy else .ok
                      | st => st)
        (fun a s => commitKey a (generated s a) (takeFree s).2),
      keyAct 2 (fun n => decide (20 ≤ n)) (fun a => importFit (a.drop 16)) (fun _ _ _ => true)
        (fun s a => if !attrsOk a then .eRange else match slotStatus s a with
          | .ok => importStatus s a (a.drop 16)
          | st => st)
        (fun a s => commitKey a (imported s a (a.drop 16)) (keyUse (slotHandle s (leAt a 16 2)) s)),
      keyAct 3 (fun n => decide (20 ≤ n)) (fun a => deriveFit (a.drop 16))
        (fun s p a => decide (1024 ≤ leAt a 16 2) || holds s p (slotHandle s (leAt a 16 2)))
        (fun s a => if !attrsOk a then .eRange else match slotStatus s a with
          | .ok => deriveStatus s a (a.drop 16) (leAt a 16 2)
          | st => st)
        (fun a s => commitKey a (derived s a (a.drop 16) (leAt a 16 2) (deriveLabel (a.drop 16)))
          (keyUse (slotHandle s (leAt a 16 2)) s)),
      keyAct 4 (fun n => decide (18 ≤ n))
        (fun a => match leAt a 16 1 with
          | 0 => decide (a.length = 18)
          | 1 => importFit (a.drop 18)
          | 2 => deriveFit (a.drop 18)
          | _ => true)
        (fun _ _ _ => true) updateStatus updateKey,
      keyAct 5 (fun n => decide (n = 16)) (fun _ => true) (fun _ _ _ => true)
        (fun s a => if 1024 ≤ argSlot a ∨ leAt a 2 14 ≠ 0 then .eRange
                    else if (keyAt s (argSlot a)).state ≠ 1 then .eState else .ok)
        invalidateKey] }

/-! ### Class LIGHT -/

/-- Entries of the attestation report: the measurements selected, a differing one twice (R544, R545). -/
def reportEntries (s : State) (select : Nat) : List (Nat × Nat) :=
  ((List.range 8).filter (fun i => bitOf i select)).flatMap (fun i =>
    (i, elemOr 0 s.light.start i) :: (s.light.again.filter (fun e => decide (e.1 = i))))

/-- The attestation report (R544). `a` is select, three bytes, nonce. -/
def reportBytes (s : State) (a : List Byte) : List Byte :=
  let es := reportEntries s (leAt a 0 1)
  leBytes 1 1 ++ leBytes 1 es.length ++ leBytes 2 0 ++ leBytes 8 Config.identity ++ leBytes 6 s.cyc.number ++
  leBytes 2 (flag 0 s.light.dbgSince + flag 1 s.light.restarted + flag 2 s.light.mismatch) ++
  leBytes 6 s.tide.sec ++ leBytes 4 s.tide.ns ++ leBytes 2 0 ++ (a.drop 4).take 32 ++
  es.flatMap (fun e => leBytes 1 e.1 ++ leBytes 3 0 ++ beBytes 48 e.2)

/-- The attestation certificate (R545). -/
def certificate (s : State) : List Byte :=
  pointOf (keyAt s 1) ++ signWith (keyAt s 0) (pointOf (keyAt s 1)) 0 ++ pointOf (keyAt s 0)

/-- The Lighthouse record (R549). -/
def lightRec : Rec :=
  { len := 28
    flds := liveF 2 0 5 claimsNow ::
      liveF 14 0 16 (fun s => 960 - (s.light.keys.filter (fun e => decide (64 ≤ e.1 ∧ e.2.state = 1))).length) ::
      liveF 16 0 16 (fun s => 640 - persistCount s) ::
      lift (·.light) modLight [
      roF 0 0 2 (·.state), roF 1 0 8 (·.restarts), roF 3 0 3 (·.held), roF 4 0 16 (·.scope), roF 6 0 8 (·.dbgFail),
      roB 7 0 (·.dbgSince), roB 7 1 (·.mismatch), roF 8 0 48 (·.notAfter), roF 20 0 32 (·.aborted), roF 24 0 32 (·.revoked)] }

/-- Class LIGHT (R439, R544-R549). -/
def lightClass : ClassSpec :=
  { code := 0x50
    ranges := [(0, 1)]
    record := fun i part => if i = 0 ∧ part = 0 then some lightRec
      else if i = 0 ∧ part = 1 then some { len := 0, flds := [], more := certificate } else none
    verbs := [1, 2, 3, 4, 5, 6]
    events := 2
    open0 := fun _ _ verb _ => decide (verb = 3)
    acts := [
      { code := 1, cyc := false, argOk := fun n => decide (n = 36), auth := fun _ _ _ _ => true
        check := fun _ _ _ a => if leAt a 1 3 ≠ 0 then .eRange else .ok
        run := fun _ _ _ s => (takeFree (keyUse (slotHandle s 1) s)).2
        result := fun _ a s => reportBytes s a ++ signWith (keyAt s 1) (reportBytes s a) s.free },
      { code := 2, cyc := false, argOk := fun n => decide (n = 2), auth := fun _ p _ _ => decide (p = 0)
        check := fun s _ _ a => if 128 ≤ leAt a 0 2 then .eRange else if debugClosed s then .eAuth
          else if s.light.freeze then .eBusy else .ok
        run := fun _ _ a => openChallenge (leAt a 0 2)
        result := fun _ _ s => match s.light.challenge with | some c => challengeBytes c | none => [] },
      { code := 3, cyc := false, argOk := fun n => decide (n = 108), auth := fun _ p _ _ => decide (p = 0)
        check := fun s _ _ a => if !responseFields a then .eRange
          else if !debugClosed s && responseOk s a then .ok else .eAuth
        run := fun _ _ a => grantDebug a
        refuse := fun st _ s => if st = .eAuth then failDebug s else s }] }

/-! ### Restart (R529, R530) -/

/-- The island resets: requests abort, blocks return, claims and the challenge go, debug ends; the third
restart within 60 s holds it in reset. -/
def lightReset (s : State) : State :=
  if s.light.state = 2 then s
  else
    let s := endDebug (returnBlock 1 (returnBlock 0 (lhAbortAll s)))
    let s := modLight (fun l => { l with
      state := 1, claims := 0, challenge := none, restarted := true, restartAt := s.tide.counter :: l.restartAt.take 2 }) s
    match s.light.restartAt[2]? with
    | some t =>
      if s.tide.counter ≤ t + 60 * nsPerSec then
        let s := modLight (fun l => { l with state := 2, restarts := sat 8 (l.restarts + 1) }) s
        emit 0x5001 0 s (cause := 2) (value := s.light.restarts)
      else s
    | none => s

/-- The scan of the key store (R540): an accepted update that was not committed is lost; a failed commit word
makes the slot INVALID. -/
def keyScan (lost bad : List Nat) (s : State) : State :=
  let s := lost.foldl (fun s k => if k < 1024 then emit 0x5101 k s (value := (keyAt s k).gen) else s) s
  bad.foldl (fun s k =>
    if k < 1024 then
      detect 0x063 false (emit 0x5101 k (modKey k (fun r => { r with state := 3 }) s) (value := (keyAt s k).gen))
    else s) s

/-- Volatile keys become INVALID and their generations increment (R530). -/
def dropVolatile (s : State) : State :=
  (List.range 1024).foldl (fun s k =>
    let r := keyAt s k
    if r.state = 1 ∧ r.persist = false then
      modKey k (fun r => { r with state := 3, gen := (r.gen + 1) % 2 ^ 32, mat := 0, pub := [] }) s
    else s) s

/-- Digests of a re-measurement: the start values, with those that differed replaced. -/
def remeasured (s : State) (again : List (Nat × Nat)) : List (Nat × Nat) :=
  (s.light.start.zipIdx).map (fun e => (e.2, match again.find? (fun x => decide (x.1 = e.2)) with
    | some x => x.2
    | none => e.1))

/-! ### Meanings -/

/-- LH_ENCRYPT to LH_RANDOM (R525-R527): partition `p` starts service with the registers it wrote. -/
def execLhEncrypt (p : Nat) (r : LhRegs) (s : State) : Out := guardUnit (decide (p < 32)) (lhGo 1 p r s)
def execLhDecrypt (p : Nat) (r : LhRegs) (s : State) : Out := guardUnit (decide (p < 32)) (lhGo 2 p r s)
def execLhMacGen (p : Nat) (r : LhRegs) (s : State) : Out := guardUnit (decide (p < 32)) (lhGo 3 p r s)
def execLhMacVerify (p : Nat) (r : LhRegs) (s : State) : Out := guardUnit (decide (p < 32)) (lhGo 4 p r s)
def execLhHash (p : Nat) (r : LhRegs) (s : State) : Out := guardUnit (decide (p < 32)) (lhGo 5 p r s)
def execLhSign (p : Nat) (r : LhRegs) (s : State) : Out := guardUnit (decide (p < 32)) (lhGo 6 p r s)
def execLhVerify (p : Nat) (r : LhRegs) (s : State) : Out := guardUnit (decide (p < 32)) (lhGo 7 p r s)
def execLhAgree (p : Nat) (r : LhRegs) (s : State) : Out := guardUnit (decide (p < 32)) (lhGo 8 p r s)
def execLhRandom (p : Nat) (r : LhRegs) (s : State) : Out := guardUnit (decide (p < 32)) (lhGo 9 p r s)

/-- LH_CLEAR (R528). -/
def execLhClear (p : Nat) (s : State) : Out :=
  guardUnit (decide (p < 32)) (modBox p (fun b => { b with iv := 0, result := [] }) s)

/-- LH_REQUEST_COMPLETE (R527): `got` destination bytes were written before a source read had no completion
(`trunc`) or the key chain broke. -/
def execLhRequestComplete (p got : Nat) (trunc : Bool) (s : State) : Out :=
  guardUnit (decide (p < 32)) (lhEnd p got trunc s)

/-- LH_WATCHDOG_EXPIRY (R529, R530). -/
def execLhWatchdogExpiry (s : State) : Out :=
  .next (if !s.pwr.keeper then s else
    if s.light.state = 2 then s else lightReset (detect 0x060 false s))

/-- LH_RESTART_COMPLETE (R529): tests (`kat` false: a known-answer test failed), key scan and re-measurement
are done, with the digests that differ. -/
def execLhRestartComplete (kat : Bool) (lost bad : List Nat) (again : List (Nat × Nat)) (s : State) : Out :=
  .next (if s.light.state ≠ 1 then s
    else if !kat then
      let s := detect 0x061 false (modLight (fun l => { l with state := 2 }) s)
      emit 0x5001 0 s (cause := 2) (value := s.light.restarts)
    else
      let s := keyScan lost bad (dropVolatile s)
      let s := modLight (fun l => { l with
        state := 0, restarts := sat 8 (l.restarts + 1), mismatch := l.mismatch || !again.isEmpty
        again := l.again ++ again.filter (fun e => !l.again.contains e)
        log := l.log ++ remeasured s again }) s
      revokeConsumers (emit 0x5001 0 s (cause := 1) (value := s.light.restarts)))

/-- BLOCK_HANDOVER (R532): block `b` goes to the Lighthouse, with the claims of the operation that uses it. A
block of the core domain waits for VCORE. -/
def execBlockHandover (b claims : Nat) (s : State) : Out :=
  guardUnit (decide (b < 3))
    (if s.light.state ≠ 0 ∨ b = 2 ∨ (b = 0 ∧ s.pwr.vcoreEn = false) then s
     else modLight (fun l => { l with held := l.held ||| 2 ^ b, claims := l.claims ||| (claims % 32) }) s)

/-- BLOCK_RETURN (R532). DEBUG returns by an authorisation alone (R546). -/
def execBlockReturn (b : Nat) (s : State) : Out :=
  guardUnit (decide (b < 3)) (if b = 2 ∨ bitOf b s.light.held = false then s else returnBlock b s)

/-- CLAIM_DEFERRAL_TIMEOUT (R533): a cut deferred for 10 ms proceeds as forced. -/
def execClaimDeferralTimeout (s : State) : Out :=
  .next (match s.pwr.trans with
    | some t => if t.claimed then
        modPwr (fun p => { p with trans := some { t with claimed := false } }) (forceCut (cutBits t.target) 2 s)
      else s
    | none => s)

/-- KEY_GENERATE to KEY_INVALIDATE (R541, R542). -/
def execKeyGenerate (r : Req) (s : State) : Out := .next (cmdAct keyClass 1 r s)
def execKeyImport (r : Req) (s : State) : Out := .next (cmdAct keyClass 2 r s)
def execKeyDerive (r : Req) (s : State) : Out := .next (cmdAct keyClass 3 r s)
def execKeyUpdate (r : Req) (s : State) : Out := .next (cmdAct keyClass 4 r s)
def execKeyInvalidate (r : Req) (s : State) : Out := .next (cmdAct keyClass 5 r s)

/-- LIGHT_ATTEST (R544). -/
def execLightAttest (r : Req) (s : State) : Out := .next (cmdAct lightClass 1 r s)

/-- LIGHT_DEBUG_CHALLENGE (R546): through Faval, or through the TAP's AUTH register. -/
def execLightDebugChallenge (r : Req) (tap : Bool) (s : State) : Out :=
  .next (if !tap then cmdAct lightClass 2 r s
    else if s.light.state ≠ 0 ∨ debugClosed s ∨ 128 ≤ leAt r.payload 0 2 then s
    else
      let s := openChallenge (leAt r.payload 0 2) s
      modLight (fun l => { l with tap := match l.challenge with | some c => challengeBytes c | none => [] }) s)

/-- LIGHT_DEBUG_RESPONSE (R546, R547). -/
def execLightDebugResponse (r : Req) (tap : Bool) (s : State) : Out :=
  .next (if !tap then cmdAct lightClass 3 r s
    else if s.light.state ≠ 0 then s
    else if !debugClosed s && decide (r.payload.length = 108) && responseFields r.payload && responseOk s r.payload then grantDebug r.payload s
    else failDebug s)

/-- CHALLENGE_EXPIRY (R546): 60 s after its issue. -/
def execChallengeExpiry (s : State) : Out :=
  .next (match s.light.challenge with
    | some c => if s.tide.counter < c.at_ + 60 * nsPerSec then s else modLight (fun l => { l with challenge := none }) s
    | none => s)

/-- DEBUG_AUTH_EXPIRY (R547): working time has come to `not_after`. -/
def execDebugAuthExpiry (s : State) : Out := .next (if s.tide.sec < s.light.notAfter then s else endDebug s)

/-- BOUNDARY_SCAN_INSTRUCTION (R546, R548): 0 BYPASS, 1 IDCODE, 2 SAMPLE, others drive. -/
def execBoundaryScanInstruction (code : Nat) (s : State) : Out :=
  let low := decide ((grpAt s 0).band = .belowOff ∧ (grpAt s 1).band = .belowOff)
  let open_ := bitOf 0 s.light.scope
  .next (modSys (fun v => { v with tapReg :=
    if code ≤ 1 then code else if open_ && (decide (code = 2) || low) then code else 0 }) s)

end Sys2Proof.Machine
end

