-- ==== Sys2Proof/Machine/Keeper.lean ====
section
/-! DEFINITION. What starts, restarts and power states share: `dev_state` (R400), the removal of VCORE (R471,
R555), a Lockkeeper restart (R591), the revert of a trial (R602), and the keeper domain in reset (R575, R594,
R631). -/
namespace Sys2Proof.Machine

/-! ### dev_state -/

/-- `dev_state` takes a value, and every bound window sees `MBX_CAUSE.state` (R400). -/
def setDevState (d : Nat) (s : State) : State :=
  if s.fv.devState = d then s
  else (List.range 32).foldl (fun s p => match winOf s p with
    | some e => modWin e (setCause 5 s.tide.counter) s
    | none => s) (modFv (fun v => { v with devState := d }) s)

/-! ### VCORE -/

/-- Running partitions stop without a reset (R471, R555); `warm` says that the monitor saved them. -/
def stopPartitions (warm : Bool) (s : State) : State :=
  let s := (List.range 32).foldl (fun s p =>
    if (poundAt s p).kind = 4 ∧ (poundAt s p).state = .running then
      modPart p (fun r => { r with warmNext := warm }) (modPound p (fun r => { r with state := .stopped }) s)
    else s) s
  (List.range 5).foldl (fun s k => if (coreAt s k).running = none then s else modCore k (fun c => { c with running := none }) s) s

/-- VCORE is removed (R574, R581): LPDDR4X keeps its contents in self-refresh and the Basin's overflow stops
(R39, R372). -/
def vcoreOff (s : State) : State :=
  ovfGate (modPwr (fun p => { p with vcoreEn := false, vcoreMv := 0 }) s)

/-! ### Lockkeeper restart (R591) -/

/-- Requests that await a response are forgotten with the Lockkeeper's memories. -/
def forgetRequests (s : State) : State :=
  let s := modMot (fun m => { m with pads := m.pads.foldl (fun t e =>
    tput pad0 e.1 { e.2 with pend := none } t) [] }) s
  let s := modPwr (fun p => { p with change := p.change.map (fun c => { c with req := none }) }) s
  let s := modImg (fun i => { i with act := none, commit := i.commit.bind (fun c => if c.mode = 0 then some { c with req := none } else none) }) s
  let s := modTow (fun t => { t with barges := t.barges.foldl (fun r e =>
    tput barge0 e.1 { e.2 with out := [], resync := e.2.resync.map (fun _ => none) } r) [] }) s
  modFv (fun v => { v with qs := v.qs.foldl (fun t e =>
    tput pq0 e.1 { e.2 with unanswered := 0, reserved := e.2.rsp.length, reasm := none, asked := [] } t) [] }) s

/-- The Lockkeeper is held in reset while the keeper domain runs: START is set, staged state, subscriptions and
rate windows go with its private memories, and `dev_state` reads 0 (R591). DESIGN CHOICE: what
holds "until the next start" in hardware that keeps running (a towline port that R32 holds, the port counters of R519, a
channel that R102 closes, an authorisation of R547, VCORE kept off by R555) outlasts it, and a location run of the field outputs (R207) ends with the firmware. -/
def lkRestart (s : State) : State :=
  let s := modFio (fun f => { f with banks := tmap bank0 4 (fun _ b => { b with run := none }) f.banks }) s
  let s := modCyc (fun c => { c with staged := [], change := none, ended := [] }) (forgetRequests s)
  let s := modFv (fun v => { v with fw := false, started := false, subs := [], rateWins := [], deferred := [], bargeRsp := [], bargeEvt := [] }) s
  let s := modTow (fun t => { t with loaded := false, setSize := 0, gotBlocks := [], badBlocks := [] }) s
  let s := modSlu (fun v => { v with subs := [] }) s
  let s := modImg (fun i => { i with lkReset := true, shut := false, alive := false, clean := false }) s
  tpSet 0 (setDevState 0 s)

/-- The cycle timer starts (R63): the cycle that begins carries the number of R54, and the events latched without a
cycle number take it (R640). -/
def startTimer (s : State) : State :=
  let s := modCyc (fun c => { c with
    running := true, number := cycleNumberAt (workNs s) c.period, inCycle := 0, length := c.period, phase := .fill }) s
  let s := modFio (fun f => { f with at0 := s.tide.counter, start := workNs s, pNow := s.cyc.period }) s
  modFv (fun v => { v with latched := v.latched.map (fun e => if e.cycle = noCycle then { e with cycle := s.cyc.number } else e) }) s

/-! ### Images on trial (R602) -/

/-- Where a bank's blocks lie: A, B, the xSPI recovery image (R36, R598). -/
def bankBase (b : Nat) : Nat := if b < 2 then 0x30000000 + 0x800000 * b else 0x100000000

/-- Where a chart slot's blocks lie (R36). -/
def slotBase (k : Nat) : Nat := 0x31000000 + 0x100000 * k

/-- The header in block 0 (R595). -/
def headOf (s : State) (base : Nat) : ImgHead :=
  let n := fun (off w : Nat) => leNat (memBytes s.mem (base + off) w)
  { keySel := n 5 1, retire3 := bitOf 0 (n 6 1), recovery := bitOf 1 (n 6 1), retire4 := bitOf 2 (n 6 1)
    install := bitOf 3 (n 6 1), major := n 8 1, minor := n 9 1, patch := n 10 2, secVer := n 12 4
    ltMajor := n 20 1, ltMinor := n 21 1, handoff := n 22 2, sluice := n 24 2, chMajor := n 26 1, chMinor := n 27 1
    migrate := n 28 1 }

/-- The header of a bank. -/
def bankHead (s : State) (b : Nat) : ImgHead := headOf s (bankBase b)

/-- The other of two banks or slots. -/
def other (b : Nat) : Nat := 1 - b

/-- A bank takes a state (R599). -/
def setBankState (b st : Nat) (s : State) : State :=
  if (bankImgAt s b).state = st then s
  else modBankImg b (fun x => { x with state := st, cycle := s.cyc.number }) s

/-- A chart slot takes a state. -/
def setSlotState (k st : Nat) (s : State) : State :=
  if (slotImgAt s k).state = st then s
  else modSlotImg k (fun x => { x with state := st, cycle := s.cyc.number }) s

/-- The boot record is rewritten (R598). -/
def writeBoot (f : Boot → Boot) (s : State) : State :=
  modImg (fun i => { i with boot := { f i.boot with seq := (i.boot.seq + 1) % 2 ^ 32 } }) s

/-- A trial ends by a revert (R602, R610): the other bank is active, a migrated chart's slot becomes EMPTY. -/
def revertTrial (s : State) : State :=
  if !s.img.boot.trial then s
  else
    let b := s.img.boot.active
    let s := if s.img.boot.chartTrial then
        setSlotState s.img.boot.chart 0 (writeBoot (fun r => { r with chart := other r.chart, chartTrial := false }) s)
      else s
    let s := writeBoot (fun r => { r with active := other b, trial := false, trialS := 0 }) s
    let s := setBankState (other b) 3 (setBankState b 2 s)
    emit 0x8001 (other b) s (cause := other b) (flags := 2) (value := (s.cyc.number + 1) % 2 ^ 48)

/-- A pending activation ends without a handover, its command answered (R604-R607, R611); one that waited for a
high water reports its cancellation. -/
def cancelAct (st : Status) (s : State) : State :=
  match s.img.act with
  | none => s
  | some a =>
    let s := modImg (fun i => { i with act := none }) s
    let s := if (bankImgAt s a.bank).state = 6 then setBankState a.bank 2 s else s
    let s := if s.fv.devState = 2 then setDevState 1 s else s
    let s := if a.mode = 2 ∨ a.named = true then
        emit 0x8003 a.bank s (cause := a.bank) (flags := 2) (value := (a.time / s.cyc.period - 1 : Nat)) else s
    match a.req with
    | some r => answer 0x80 a.verb r st none [] s
    | none => s

/-! ### The keeper domain in reset -/

/-- The table with every listed record changed. -/
def tkeep {α : Type} [DecidableEq α] (d : Nat → α) (f : Nat → α → α) (t : Tbl α) : Tbl α :=
  t.foldl (fun r e => tput d e.1 (f e.1 e.2) r) []

/-- Addresses whose contents live without the keeper and core domains: eMRAM and xSPI NOR (R34, R39). -/
def survives (a : Nat) : Bool :=
  decide ((0x30000000 ≤ a ∧ a < 0x31800000) ∨ (0x100000000 ≤ a ∧ a < 0x120000000))

/-- The wear log's marks on a channel survive every start (R571). -/
def keepChan (i : Nat) (c : Chan) : Chan :=
  { chan0 i with active := c.active, spareOk := c.spareOk, spareUsed := c.spareUsed, derated := c.derated }

/-- The keeper, core and security domains lie in reset or without supply (R23-R26, R575, R594, R631). What
stays: the wake domain (armed detectors, AWAKE inputs, group comparators, the power record), the lands, and
what eMRAM holds: boot record, banks, charts, Towpath copies, logs, stored node state, persistent keys and
freshness values. Volatile keys are gone but for their generations (R535, R537). -/
def keeperDown (s : State) : State :=
  { s with
    sys := { s.sys with tow := 0, poison := [], faults := [], tapReg := 0, ddrMib := 0, xspiMib := 0, ovfMib := 0 }
    cyc := {}
    tide := {}
    fv := { qs := tkeep pq0 (fun _ q => { freshStore := q.freshStore, txStore := q.txStore }) s.fv.qs }
    saf := { pond := { s.saf.pond with sramCopy := none, sramWait := [], stuck := [], swapDrift := 2000
                                       sramUsed := if s.saf.pond.sramCopy.isSome then s.saf.pond.sramUsed - 1 else s.saf.pond.sramUsed
                                       segs := tkeep seg0 (fun _ g => { g with hist := [], lastTcl := none, swapDue := none }) s.saf.pond.segs } }
    tp := { badA := s.tp.badA, badB := s.tp.badB }
    pow := { chans := tkeep chan0 keepChan s.pow.chans, grps := s.pow.grps }
    slu := { copies := s.slu.copies, copySeq := s.slu.copySeq
             adcs := tkeep adc0 (fun _ a => { a with pos := 0, prev := 0, dis := false, conf := none, refBad := 0, refBadS := 0 }) s.slu.adcs }
    mot := {}
    fio := { dis := s.fio.dis, wakePoll := s.fio.wakePoll, wakeConf := s.fio.wakeConf, clsHold := s.fio.clsHold }
    can := { chs := tkeep can0 (fun c x => { can0 c with ctrl := x.ctrl }) s.can.chs, bad := s.can.bad }
    lin := { chs := tkeep lin0 (fun _ x => { wakeEn := x.wakeEn, wakeFilter := x.wakeFilter, armed := x.armed }) s.lin.chs }
    nm := { wakes := s.nm.wakes, t1s := s.nm.t1s, sleepPath := s.nm.sleepPath, log := s.nm.log }
    aq := { ctxs := tkeep ctx0 (fun _ c => { stored := c.stored }) s.aq.ctxs }
    net := { ports := tkeep port0 (fun k x => if x.link = 2 then { port0 k with link := 2 } else port0 k) s.net.ports }
    tow := {}
    light := { retired := s.light.retired, keys := tkeep key0 (fun _ k => if k.persist then k else { gen := k.gen }) s.light.keys, log := s.light.log }
    aps := {}
    pwr := { s.pwr with
      keeper := false, pll := false, vcoreEn := false, state := 0, want := 0, forced := false, clk := 0
      change := none, trans := none, vcoreMv := 0, beat := false, rails := []
      deafAt := if s.pwr.beat then s.pwr.age else s.pwr.deafAt, quietAt := none }
    img := { s.img with running := none, act := none, shut := false, alive := false, clean := false
                        held := false, recovery := false, lkReset := false, chartOn := false
                        commit := s.img.commit.bind (fun c => if c.mode = 0 then some { c with req := none } else none) }
    mem := s.mem.filter (fun c => survives c.1) }

/-! ### Outputs at SLEEP (R26, R582) -/

/-- Every power channel, Paddle, field output and sensor supply turns off; bridges coast. -/
def outputsOff (s : State) : State :=
  let s := (List.range 76).foldl (fun s i =>
    if (chanAt s i).state = .latchedOff ∨ (chanAt s i).state = .uvOff then s else switchOff i .off s) s
  let s := (List.range 6).foldl (fun s b => modBrDyn b (fun d => { d with seq := .none }) s) s
  let s := (List.range 16).foldl (fun s k => foSet k false s) s
  (List.range 4).foldl (fun s k => modSup k (fun x => { x with on := false, bad := true }) s) s

end Sys2Proof.Machine
end

