-- ==== Sys2Proof/Machine/Cores.lean ====
section
/-! DEFINITION. Application cores, partitions and memories (R463-R492): slot tables, entries, mismatches,
self-tests, swaps, memory errors, debug, and class CORE. The instructions that software runs on the cores are
not this model's. -/
namespace Sys2Proof.Machine

/-! ### Slot tables (R467) -/

/-- The table is legal at period `p` for logical core `l`. -/
def slotTableOk (s : State) (l : Nat) (t : SlotTable) (p : Nat) : Bool :=
  let frame := t.frame * p / 1000
  let at_ := fun k => (tget slotEntry0 t.entries k).start
  let next := fun k => if k + 1 < t.slots then at_ (k + 1) else frame
  decide (at_ 0 = 0) && (List.range t.slots).all (fun k =>
    let e := tget slotEntry0 t.entries k
    decide (at_ k < frame ∧ at_ k + 20 ≤ next k) &&
    (e.idle || (decide ((poundAt s e.pound).kind = 4) && decide ((partAt s e.pound).core = l))))

/-- New tables take effect at a frame start (R467). -/
def coreBoundary (s : State) : State :=
  let s := (List.range 4).foldl (fun s l =>
    let x := logicalAt s l
    if x.set ≠ x.live ∧ s.cyc.number % x.live.frame = 0 then modLogical l (fun y => { y with live := y.set }) s else s) s
  modAps (fun a => { a with swap := a.swap.map (fun w => { w with left := w.left - 1 }) }) s

/-! ### Partitions -/

/-- The pound's LPDDR4X share lies in the mapped size, below the overflow area (R38). -/
def ddrMapped (s : State) (p : Nat) : Bool :=
  let r := poundAt s p
  decide (r.ddrMib = 0) ||
  decide (0x1000000000 ≤ r.ddrBase ∧ r.ddrBase + r.ddrMib * 1048576 ≤ 0x1000000000 + (s.sys.ddrMib - s.sys.ovfMib) * 1048576)

/-- Period code (R434). -/
def periodCode (p : Nat) : Nat :=
  if p = 125000 then 0 else if p = 250000 then 1 else if p = 500000 then 2 else if p = 1000000 then 3 else 4

/-- The information block as the device writes it before an entry (R470), to byte 87; the rest is zero. -/
def infoBlock (s : State) (p : Nat) (warm : Bool) : List Byte :=
  let r := poundAt s p
  let x := partAt s p
  leBytes 1 1 ++ leBytes 1 p ++ leBytes 1 (flag 0 warm + flag 1 x.checked) ++ leBytes 1 x.core ++
  leBytes 1 (periodCode s.cyc.period) ++ leBytes 1 (logicalAt s x.core).live.frame ++ leBytes 2 x.restarts ++
  leBytes 8 r.sramBase ++ leBytes 8 (r.sramUnits * 65536) ++ leBytes 8 r.storeBase ++ leBytes 8 (r.storeUnits * 4096) ++
  leBytes 8 r.ddrBase ++ leBytes 8 (r.ddrMib * 1048576) ++
  leBytes 8 0x020D0000 ++ leBytes 8 0x020E0000 ++ leBytes 8 0x020F0000 ++ leBytes 6 s.cyc.number

/-- The partition may enter (R38, R469, R486). -/
def mayEnter (s : State) (p : Nat) : Bool :=
  decide ((poundAt s p).state = .stopped) && (partAt s p).run && !(partAt s p).homeless && ddrMapped s p

/-- A partition enters at its slot (R469, R471): RUNNING, with its information block written. Where in the SRAM units
kept for partition mailboxes the block lies is a free value. -/
def enterPart (p : Nat) (s : State) : State :=
  let warm := (partAt s p).warmNext
  let (a, s) := takeFree s
  let s := modPart p (fun x => { x with
    warm := warm, warmNext := false, runCycle := s.cyc.number, restarts := sat 16 (x.restarts + 1)
    startPc := x.entry, startA0 := p, startA1 := 0x10000000 + a % 0x7FF001 }) s
  let s := modPart p (fun x => { x with info := infoBlock s p warm }) s
  clearSnap p (modPound p (fun r => { r with state := .running }) s)

/-- A fatal fault of a partition (R456, R469). -/
def fatalFault (p : Nat) (s : State) : State :=
  let s := if (partAt s p).faultStop then modPart p (fun x => { x with run := false }) s else s
  startReset p 5 s

/-- Pounds placed on a logical core. -/
def poundsOn (s : State) (l : Nat) : List Nat :=
  (List.range 32).filter (fun p => decide ((poundAt s p).kind = 4 ∧ (partAt s p).core = l))

/-- The cores run slots: ACTIVE, VCORE on, and no other state being entered (R581). -/
def coresRun (s : State) : Bool :=
  decide (s.pwr.state = 0) && s.pwr.vcoreEn && (match s.pwr.trans with | some t => decide (t.target = 0) | none => true)

/-! ### Slots (R465, R468) -/

/-- Base and length of a partition's memory shares, which the monitor's PMP entries open (R453, R466). -/
def shareRanges (s : State) (p : Nat) : List (Nat × Nat) :=
  let r := poundAt s p
  [(r.sramBase, r.sramUnits * 65536), (r.storeBase, r.storeUnits * 4096), (r.ddrBase, r.ddrMib * 1048576)]

/-- The fixed event of a performance counter (R465). -/
def mhpmevent (n : Nat) : Nat := if 3 ≤ n ∧ n ≤ 10 then n - 2 else 0

/-- A performance counter of a physical core plus one, 64 bits wide (R465). -/
def countHpm (k n : Nat) (s : State) : State :=
  modCore k (fun c => { c with hpm := tmod ctr0 n (fun v => (v + 1) % 2 ^ 64) c.hpm }) s

/-- The `time` CSR (R71). -/
def timeCsr (s : State) : Nat := s.tide.counter

/-- Mailbox interrupts that a partition's window has sent on source `v` (R420). -/
def irqSent (s : State) (p v : Nat) : Nat :=
  match winOf s p with
  | some e => (tget vec0 (winAt s e).vecs v).sent
  | none => 0

/-- Every mailbox interrupt sent so far is delivered to a partition: it is, or was until now, in its slot (R468). -/
def deliverIrqs (p : Nat) (s : State) : State :=
  modPart p (fun x => { x with irqSeen := (List.range 4).foldl (fun t v => tput ctr0 v (irqSent s p v) t) x.irqSeen }) s

/-- Interrupt controller sources held pending for a partition that is not in its slot (R420, R468). -/
def irqPending (s : State) (p : Nat) : List Nat :=
  if (List.range 5).any (fun k => decide ((coreAt s k).running = some p)) then []
  else (List.range 4).filterMap (fun v =>
    if tget ctr0 (partAt s p).irqSeen v = irqSent s p v then none else some (64 + 4 * p + v))

/-- The monitor switches core `k` to a partition or to none (R468): the outgoing context is saved, the incoming
partition's PMP entries, way mask and checking mode are loaded, and the switch counts. The partition that runs
already is not switched; a change of its `checked` applies (R473). -/
def switchTo (k : Nat) (nw : Option Nat) (s : State) : State :=
  let out := (coreAt s k).running
  let checked := match nw with | some p => (partAt s p).checked | none => true
  let s := modCore k (fun c => { c with
    running := nw, checked := checked
    pchk := match nw with | some p => b2n checked + 256 * p | none => 1 }) s
  let s := match nw with | some p => deliverIrqs p s | none => s
  if out = nw then s
  else
    let s := match out with
      | some p => deliverIrqs p (modPart p (fun x => { x with ctxCycle := some s.cyc.number }) s)
      | none => s
    let s := modCore k (fun c => { c with mcounteren := 0x7FF, scounteren := 0x7FF }) s
    let s := match nw with
      | some p => modCore k (fun c => { c with ways := (partAt s p).l2Ways, pmp := shareRanges s p }) s
      | none => s
    countHpm k 10 s

/-- The partition of a slot runs on its core: it is a partition pound, RUNNING. -/
def slotPound (s : State) (e : SlotEntry) : Option Nat :=
  if !e.idle && decide ((poundAt s e.pound).kind = 4 ∧ (poundAt s e.pound).state = .running) then some e.pound else none

/-- The slot in force of a table at this instant (R467): the last whose start has come. -/
def slotInForce (s : State) (t : SlotTable) : SlotEntry :=
  let now := (s.cyc.number % t.frame * s.cyc.period + s.cyc.inCycle) / 1000
  tget slotEntry0 t.entries (((List.range t.slots).filter (fun j => decide ((tget slotEntry0 t.entries j).start ≤ now))).getLastD 0)

/-! ### Spare core (R485, R486) -/

/-- The healthy spare. -/
def spareCore (s : State) : Option Nat :=
  (List.range 5).find? (fun k => decide ((coreAt s k).role = 1) && !(coreAt s k).testing)

/-- CORE_SPARE (R492). -/
def coreSpare (k flags pound : Nat) (s : State) : State := emit 0x3102 k s (cause := k) (flags := flags) (value := pound)

/-- A core is condemned (R480, R486): the spare takes its place, or every pound on it is reset and waits for
another logical core. -/
def condemnCore (k : Nat) (s : State) : State :=
  let pound := ((coreAt s k).running).getD 0
  let free := match s.aps.swap with | none => true | some w => decide (w.out = k)
  let s := wearLog 4 k 3 (modCore k (fun c => { c with testing := false, stopped := true, running := none }) s)
  match spareCore s with
  | some _ =>
    if free then modAps (fun a => { a with swap := some { out := k, cmd := false, left := 2, pound := pound } }) s
    else
      let l := (coreAt s k).logical
      let s := (poundsOn s l).foldl (fun s p => fatalFault p (modPart p (fun x => { x with homeless := true }) s)) s
      coreSpare k 4 pound (modCore k (fun c => { c with role := 2, logical := 7 }) s)
  | none =>
    let l := (coreAt s k).logical
    let s := (poundsOn s l).foldl (fun s p => fatalFault p (modPart p (fun x => { x with homeless := true }) s)) s
    coreSpare k 4 pound (modCore k (fun c => { c with role := 2, logical := 7 }) s)

/-- The spare takes the logical core and enters the slot in force (R485). -/
def takeOverCore (w : SwapCore) (k : Nat) (s : State) : State :=
  let l := (coreAt s w.out).logical
  let s := modCore k (fun c => { c with role := 0, logical := l, stopped := false, running := none }) s
  let s := if coresRun s then switchTo k (slotPound s (slotInForce s (logicalAt s l).live)) s else s
  let s := modCore w.out (fun c => { c with
    role := if w.cmd then 1 else 2, logical := 7, stopped := false, running := none, testing := w.cmd }) s
  let s := modPond (fun p => { p with coreSpare := 1 }) (modAps (fun a => { a with swap := none }) s)
  pondIn 4 w.out ((coreAt s w.out).times.length) (coreSpare w.out (if w.cmd then 2 else 1) w.pound s)

/-- The spare that was to take a core over has failed (R486): a condemned core's pounds are reset and wait for another
logical core. DESIGN CHOICE: a core stopped for a commanded swap serves on. -/
def swapLost (w : SwapCore) (s : State) : State :=
  let s := modAps (fun a => { a with swap := none }) s
  if w.cmd then modCore w.out (fun c => { c with stopped := false }) s
  else
    let s := (poundsOn s (coreAt s w.out).logical).foldl
      (fun s p => fatalFault p (modPart p (fun x => { x with homeless := true }) s)) s
    coreSpare w.out 4 w.pound (modCore w.out (fun c => { c with role := 2, logical := 7 }) s)

/-- A spare fails its self-test (R485). -/
def failSpare (k : Nat) (s : State) : State :=
  let s := modPond (fun p => { p with coreSpare := 2 }) (modCore k (fun c => { c with role := 3, testing := false }) s)
  let s := pondWear 4 k 0 true (coreSpare k 3 0 (wearLog 4 k 4 (detect 0x037 false s)))
  match s.aps.swap with
  | some w => if (spareCore s).isNone then swapLost w s else s
  | none => s

/-! ### Mismatch (R479, R480, R487) -/

/-- Counters of the transient mismatches within the last second (R479), this one included unless it is permanent by
its retry. -/
def transients (k : Nat) (second : Bool) (s : State) : List Nat :=
  if second then (coreAt s k).times
  else s.tide.counter :: (coreAt s k).times.filter (fun t => decide (s.tide.counter < t + nsPerSec))

/-- A mismatch on AP `k`: `second` when the retry mismatched too, `mon` while the monitor runs. -/
def coreMismatch (k : Nat) (second mon : Bool) (s : State) : State :=
  let c := coreAt s k
  let pound := c.running.getD 0
  let times := transients k second s
  let perm := second || decide (c.transMax < times.length)
  let s := modCore k (fun c => { c with
    mmCycle := s.cyc.number, times := times
    mmT := if second then c.mmT else sat 32 (c.mmT + 1)
    mmP := if perm then sat 32 (c.mmP + 1) else c.mmP }) s
  let s := countHpm k 9 s
  let s := match c.running with
    | some p => if mon then s else modPart p (fun x => { x with mmCount := sat 32 (x.mmCount + 1) }) s
    | none => s
  let s := detect (0x030 + k) false s
  let s := if quarters c.times.length (c.transMax + 1) < quarters times.length (c.transMax + 1) then
      pondWear 4 k times.length false s else s
  let s := emit 0x3101 k s (cause := k) (flags := if !perm then 0 else if mon then 3 else 1) (value := pound)
  if !perm then s
  else if mon then condemnCore k ((poundsOn s c.logical).foldl (fun s p => fatalFault p s) s)
  else
    let s := match c.running with | some p => fatalFault p s | none => s
    modCore k (fun c => { c with testing := true, running := none }) s

/-- A mismatch of the Lockkeeper (5) or of the Sluice (6), retried once as on a core (R479, R487): entries 5 and 6
of the core table hold their transient counts, and `trans_max` is the default. -/
def keeperMismatch (k : Nat) (second : Bool) (s : State) : State :=
  let times := transients k second s
  let s := modCore k (fun c => { c with times := times, mmCycle := s.cyc.number }) s
  if !second && decide (times.length ≤ (coreAt s k).transMax) then s
  else if k = 5 then revertTrial (detect 0x035 false (modFv (fun v => { v with fw := false }) s))
  else declareSilent (detect 0x036 false s)

/-- Core `k` executes under comparison (R473): it is active and in no self-test or swap, the cores are clocked, and
the monitor or a checked partition runs on it. -/
def compares (s : State) (k : Nat) (mon : Bool) : Bool :=
  let c := coreAt s k
  decide (c.role = 0 ∧ s.pwr.state = 0) && !c.testing && !c.stopped && (mon || (c.running.isSome && c.checked))

/-! ### Memory (R472, R568) -/

/-- Base and bank of application SRAM. -/
def sramBank (addr : Nat) : Nat := (addr - 0x10000000) / 524288

/-- The copy of a worn bank to a spare begins, or waits for the copy in progress (R568, R572). -/
def bringSram (b : Nat) (s : State) : State :=
  let p := s.saf.pond
  if b ∈ p.sramIn ∨ p.sramCopy = some b ∨ b ∈ p.sramWait ∨ 2 ≤ p.sramUsed + p.sramWait.length then s
  else if p.sramCopy = none then modPond (fun p => { p with sramCopy := some b, sramUsed := p.sramUsed + 1 }) s
  else modPond (fun p => { p with sramWait := p.sramWait ++ [b] }) s

/-- A word turns poisoned. -/
def poisonWord (addr : Nat) (s : State) : State :=
  let w := addr / 8 * 8
  if w ∈ s.sys.poison then s
  else modSys (fun v => { v with poison := v.poison.filter (fun x => decide (x < w)) ++ w :: v.poison.filter (fun x => decide (w < x)) }) s

/-- An uncorrectable word is counted, left poisoned and detected. -/
def sramUncorrectable (addr : Nat) (s : State) : State :=
  detect 0x01E false (poisonWord addr (modAps (fun a => { a with sramUncorr := sat 32 (a.sramUncorr + 1) }) s))

/-- An access fault of a pound's core (R36). -/
def accessFault (p : Nat) (s : State) : State :=
  modSys (fun v => { v with faults := tmod ctr0 p (fun n => sat 32 (n + 1)) v.faults }) s

/-- Kinds of access: a read, a write, a fetch. The map lets ROM and xSPI NOR be read and executed only (R34). -/
def isWrite (kind : Nat) : Bool := decide (kind = 1)

/-- The pound's cores may reach the address (R34, R36, R37, R453, R470, R532): within a range of the map, within the
pound's share, within the fitted size. The information block is read-only. -/
def mapped (s : State) (p a kind : Nat) : Bool :=
  let r := poundAt s p
  let x := partAt s p
  (decide (a < 0x4000) && !isWrite kind) || decide (0x02000000 ≤ a ∧ a < 0x02100000) || inShare s p a 1 ||
  (decide (x.startA1 ≠ 0 ∧ x.startA1 ≤ a ∧ a < x.startA1 + 4096) && !isWrite kind) ||
  decide (r.storeUnits ≠ 0 ∧ r.storeBase ≤ a ∧ a < r.storeBase + r.storeUnits * 4096 ∧ 0x31400000 ≤ a ∧ a < 0x317A0000) ||
  (decide (0x100000000 ≤ a ∧ a < 0x100000000 + s.sys.xspiMib * 1048576) && !isWrite kind && !bitOf 0 s.light.held)

/-! ### Class CORE (R488-R490) -/

/-- Table as set of the logical core that core `k` serves. -/
def setTable (k : Nat) (f : SlotTable → SlotTable) (s : State) : State :=
  modLogical (coreAt s k).logical (fun x => { x with set := f x.set }) s

/-- Core record. -/
def coreRec (k : Nat) : Rec :=
  { len := 32
    flds := lift (coreAt · k) (modCore k) [
      roF 0 0 2 (·.role), roB 0 2 (·.halted), roF 1 0 3 (·.logical),
      rwB 2 0 (·.replay) (fun v x => { x with replay := v }),
      rwF 3 0 8 (·.transMax) (fun n x => { x with transMax := n }) (rng 1 15),
      roF 8 0 32 (·.mmT), roF 12 0 32 (·.mmP), roF 16 0 32 (·.mmI), roF 20 0 48 (·.mmCycle), roF 26 0 2 (·.lbist)] ++
    lift (fun s => (logicalAt s (coreAt s k).logical).set) (setTable k) [
      rwF 4 0 16 (·.frame) (fun n x => { x with frame := n }) (rng 1 64),
      rwF 6 0 8 (·.slots) (fun n x => { x with slots := n }) (rng 1 16)] }

/-- Slot table of the logical core a core serves. -/
def slotRec (k : Nat) : Rec :=
  { len := 128
    flds := (List.range 16).flatMap (fun j =>
      let f := fun (g : SlotEntry → SlotEntry) => setTable k (fun t => { t with entries := tmod slotEntry0 j g t.entries })
      lift (fun s => tget slotEntry0 (logicalAt s (coreAt s k).logical).set.entries j) f [
        rwF (8 * j) 0 32 (·.start) (fun n x => { x with start := n }),
        rwF (8 * j + 4) 0 5 (·.pound) (fun n x => { x with pound := n }),
        rwB (8 * j + 4) 5 (·.idle) (fun v x => { x with idle := v })]) }

/-- Partition record. -/
def partRec (p : Nat) : Rec :=
  { len := 32
    flds := lift (partAt · p) (modPart p) [
      rwB 0 0 (·.run) (fun v x => { x with run := v }), rwB 0 1 (·.checked) (fun v x => { x with checked := v }),
      rwB 0 2 (·.faultStop) (fun v x => { x with faultStop := v }),
      rwF 1 0 2 (·.core) (fun n x => { x with core := n }),
      rwF 2 0 16 (·.l2Ways) (fun n x => { x with l2Ways := n }) (fun n => decide (n ≠ 0)),
      rwF 4 0 64 (·.entry) (fun n x => { x with entry := n }),
      roB 12 0 (·.warm), roF 16 0 48 (·.runCycle), roF 22 0 16 (·.restarts), roF 24 0 32 (·.mmCount), roF 28 0 32 (·.memFaults)] }

/-- Memory record. -/
def memRec : Rec :=
  { len := 32
    flds := liveF 20 0 2 (fun s => 2 - s.saf.pond.sramUsed) :: lift (·.aps) modAps [
      roF 0 0 32 (·.sramCorr), roF 4 0 32 (·.sramUncorr), roF 8 0 32 (·.l2Corr), roF 12 0 32 (·.l2Uncorr),
      roF 16 0 32 (·.l1Err), roF 24 0 48 (·.scrubCycle)] }

def coreRecord (i part : Nat) : Option Rec :=
  if i < 5 then (if part = 0 then some (coreRec i) else if part = 1 then some (slotRec i) else none)
  else if part ≠ 0 then none
  else if i = 0x20 then some memRec
  else if 0x100 ≤ i ∧ i < 0x120 then some (partRec (i - 0x100))
  else none

/-- Checks of a CORE SET (R467, R484, R489). -/
def coreCheck (s : State) (_p i part : Nat) (ws : List (Nat × Nat)) : Status :=
  let names := fun (l : List Nat) => ws.any (fun w => decide (w.1 ∈ l))
  if i < 5 then
    let l := (coreAt s i).logical
    let t := asSet 0x31 coreRecord i part ws s
    let table := decide (part = 1) || names [32, 48]
    if table && decide (l < 4) && !(periods s).all (fun p => slotTableOk t l (logicalAt t l).set p) then .eRange
    else if part = 0 ∧ names [16] = true ∧ (coreAt s i).halted = true then .eState
    else if table && decide (4 ≤ l) then .eState
    else .ok
  else if 0x100 ≤ i ∧ names [8, 16, 32] = true ∧ (poundAt s (i - 0x100)).state ≠ .stopped then .eState
  else .ok

/-- A SWAP may be accepted (R486). -/
def swapStatus (s : State) (k : Nat) : Status :=
  if 5 ≤ k then .eRange
  else if spareCore s = none ∨ s.aps.swap ≠ none ∨ (coreAt s k).role ≠ 0 ∨ (coreAt s k).halted = true then .eState
  else .ok

/-- The outgoing core of a commanded swap stops, its running context saved (R485). A core condemned meanwhile
keeps its own swap (R491). -/
def startSwapCore (k : Nat) (s : State) : State :=
  if (coreAt s k).role ≠ 0 ∨ s.aps.swap ≠ none ∨ (coreAt s k).stopped = true then s
  else
    let pound := (coreAt s k).running.getD 0
    modAps (fun a => { a with swap := some { out := k, cmd := true, left := 2, pound := pound } })
      (modCore k (fun c => { c with stopped := true, running := none }) s)

/-- Class CORE. -/
def coreClass : ClassSpec :=
  { code := 0x31
    ranges := [(0, 5), (0x20, 1), (0x100, 32)]
    record := coreRecord
    verbs := [1, 2, 3, 4, 5, 6]
    events := 2
    there := fun s i => decide (i < 0x100) || decide ((poundAt s (i - 0x100)).kind = 4)
    setCheck := coreCheck
    setCyc := fun _ _ => true
    after := fun _ i _ ws s =>
      if 0x100 ≤ i ∧ ws.any (fun w => decide (w.1 = 8)) = true then modPart (i - 0x100) (fun x => { x with homeless := false }) s else s
    acts := [{ code := 1, cyc := true, insts := fun i => decide (i < 5), argOk := fun n => decide (n = 1)
               auth := fun _ p _ _ => decide (p = 0)
               check := fun s _ _ a => swapStatus s (leAt a 0 1)
               run := fun _ _ a => startSwapCore (leAt a 0 1) }] }

/-! ### Meanings -/

/-- CORE_SET (R467, R488, R489). -/
def execCoreSet (r : Req) (s : State) : Out := .next (cmdSet coreClass r s)

/-- CORE_SWAP (R485). -/
def execCoreSwap (r : Req) (s : State) : Out := .next (cmdAct coreClass 1 r s)

/-- SPARE_TAKEOVER (R485): at the first boundary at least one lock cycle after the swap began. -/
def execSpareTakeover (s : State) : Out :=
  .next (match s.aps.swap, spareCore s with
    | some w, some k => if w.left = 0 then takeOverCore w k s else s
    | _, _ => s)

/-- SLOT_START (R468-R470, R473): slot `j` of the table of core `k` begins. -/
def execSlotStart (k j : Nat) (s : State) : Out :=
  guardUnit (decide (k < 5 ∧ j < 16))
    (let c := coreAt s k
     let t := (logicalAt s c.logical).live
     if c.role ≠ 0 ∨ 4 ≤ c.logical ∨ t.slots ≤ j ∨ (c.halted || c.testing || c.stopped || !coresRun s) = true then s
     else
       let e := tget slotEntry0 t.entries j
       let s := if !e.idle && mayEnter s e.pound && decide ((partAt s e.pound).core = c.logical) then enterPart e.pound s else s
       switchTo k (slotPound s e) s)

/-- CORE_MISMATCH (R479, R480, R483, R487): of AP0-AP4, of the Lockkeeper (5) or of the Sluice (6). An injected
mismatch whose retry compares equal counts as injected only; its retry counts too (R465). An unpowered core, or an
unpowered keeper domain, asserts nothing (R25), and code that runs unchecked is not compared (R473). -/
def execCoreMismatch (k : Nat) (second mon injected : Bool) (s : State) : Out :=
  guardUnit (decide (k < 7))
    (if !s.pwr.keeper || (decide (k < 5) && !s.pwr.vcoreEn) then s
     else if injected && !second then
       (if k < 5 then countHpm k 9 (modCore k (fun c => { c with mmI := sat 32 (c.mmI + 1), mmCycle := s.cyc.number }) s) else s)
     else if 5 ≤ k then keeperMismatch k second s
     else if compares s k mon then coreMismatch k second mon s
     else s)

/-- LBIST_COMPLETE (R480, R485): the self-test of a core that left its slot table ends. -/
def execLbistComplete (k : Nat) (pass : Bool) (s : State) : Out :=
  guardUnit (decide (k < 5))
    (if !(coreAt s k).testing || !s.pwr.vcoreEn then s
     else
       let s := modCore k (fun c => { c with lbist := if pass then 1 else 2 }) s
       if (coreAt s k).role = 1 then
         (if pass then modPond (fun p => { p with coreSpare := 0 }) (modCore k (fun c => { c with testing := false }) s)
          else failSpare k s)
       else if pass then modCore k (fun c => { c with testing := false }) s
       else condemnCore k (detect 0x037 false s))

/-- SPARE_LBIST (R485). Without VCORE nothing runs (R23, R25). -/
def execSpareLbist (pass : Bool) (s : State) : Out :=
  .next (if !s.pwr.vcoreEn then s else match spareCore s with
    | some k =>
      let s := modCore k (fun c => { c with lbist := if pass then 1 else 2 }) s
      if pass then s else failSpare k s
    | none => s)

/-- A word found stuck counts for its bank; the first four of a bank are reported, and the fourth brings a spare in
(R566, R568). -/
def stuckWord (w : Nat) (s : State) : State :=
  let b := sramBank w
  if 16 ≤ b ∨ w < 0x10000000 then s
  else
    let s := modPond (fun p => { p with stuck := tmod ctr0 b (· + 1) p.stuck }) s
    let n := tget ctr0 s.saf.pond.stuck b
    let s := if n ≤ 4 then pondWear 5 b n false s else s
    if 4 ≤ n then bringSram b s else s

/-- SCRUB_PASS (R472, R490, R566, R568): words corrected in SRAM, in the L2 and in the L1 caches since the last
pass, words found stuck by a third consecutive correction, and uncorrectable words. The caches have words to
correct while VCORE is on (R23). -/
def execScrubPass (corrected l2 l1 : Nat) (stuck uncorr : List Nat) (s : State) : Out :=
  .next (if !s.pwr.keeper then s else
    let s := modAps (fun a => { a with
      sramCorr := sat 32 (a.sramCorr + corrected)
      l2Corr := if s.pwr.vcoreEn then sat 32 (a.l2Corr + l2) else a.l2Corr
      l1Err := if s.pwr.vcoreEn then sat 32 (a.l1Err + l1) else a.l1Err
      scrubCycle := s.cyc.number }) s
    let s := stuck.foldl (fun s w => stuckWord w s) s
    uncorr.foldl (fun s w => sramUncorrectable w s) s)

/-- SRAM_UNCORRECTABLE (R472): the reading pound's partition, the monitor running for it, the memory (0 SRAM,
1 the L2, 2 an L1 data cache), and a recurrence after the word was rewritten. -/
def execSramUncorrectable (addr : Nat) (p : Option Nat) (mon : Bool) (place : Nat) (recurs : Bool) (s : State) : Out :=
  guardUnit (decide (place < 3)) (
    if !s.pwr.keeper || ((decide (place ≠ 0) || p.isSome) && !s.pwr.vcoreEn) then s else
    let s := if place = 1 then detect 0x01F false (modAps (fun a => { a with l2Uncorr := sat 32 (a.l2Uncorr + 1) }) s)
             else if place = 2 then detect 0x01F false (modAps (fun a => { a with l1Err := sat 32 (a.l1Err + 1) }) s)
             else sramUncorrectable addr s
    let s := if recurs && decide (place = 0) && decide (0x10000000 ≤ addr ∧ sramBank addr < 16) then bringSram (sramBank addr) s else s
    match p with
    | none => s
    | some p =>
      if mon then fatalFault p s
      else modPart p (fun x => { x with memFaults := sat 32 (x.memFaults + 1) }) (accessFault p s))

/-- ACCESS_FAULT (R34, R36, R37, R472): a core of partition `p` reads (`kind` 0), writes (1) or fetches (2) at an
address. A read of a poisoned word of its share faults, and the error is delivered to the partition. -/
def execAccessFault (p addr kind : Nat) (s : State) : Out :=
  guardUnit (decide (p < 32 ∧ kind < 3))
    (if !s.pwr.vcoreEn then s
     else if !mapped s p addr kind then accessFault p s
     else if !isWrite kind ∧ addr / 8 * 8 ∈ s.sys.poison then
       modPart p (fun x => { x with memFaults := sat 32 (x.memFaults + 1) }) (accessFault p s)
     else s)

/-- DEBUG_HALT (R484): an authorised core halts. -/
def execDebugHalt (k : Nat) (s : State) : Out :=
  guardUnit (decide (k < 5))
    (if s.pwr.vcoreEn && bitOf (k + 1) s.light.scope then modCore k (fun c => { c with halted := true }) s else s)

/-- DEBUG_RESUME (R484). -/
def execDebugResume (k : Nat) (s : State) : Out :=
  guardUnit (decide (k < 5)) (if (coreAt s k).halted then modCore k (fun c => { c with halted := false }) s else s)

end Sys2Proof.Machine
end

