-- ==== Sys2Proof/Machine/Power.lean ====
section
/-! DEFINITION. Supplies, performance levels and power states (R574-R589) and the path to sleep (R285-R287). -/
namespace Sys2Proof.Machine

/-! ### AVSBus (R576, R577) -/

/-- VCORE of a level, mV (R578). -/
def levelMv (l : Nat) : Nat := 650 + 50 * l

/-- The level the present request writes: PL0 first on a return of VCORE (R581). -/
def avsTarget (c : Avs) : Nat := if c.restore then 0 else c.target

/-- A Read Vout within 2 % of the target. -/
def avsGood (c : Avs) (mv : Nat) : Bool :=
  decide (98 * levelMv (avsTarget c) ≤ 100 * mv ∧ 100 * mv ≤ 102 * levelMv (avsTarget c))

/-- A change of level begins (R577): lowering, the clock goes first. -/
def startChange (l : Nat) (req : Option Req) (s : State) : State :=
  modPwr (fun p => { p with change := some { target := l, req := req }, clk := min p.clk l }) s

/-! ### Records (R587) -/

/-- Power record. -/
def powerRec : Rec :=
  { len := 16
    flds := liveF 1 3 1 (fun s => b2n s.pwr.change.isSome) :: lift (·.pwr) modPwr [
      roF 0 0 2 (·.state), roB 0 2 (·.forced), rwB 0 3 (·.auto) (fun v x => { x with auto := v }),
      rwF 1 0 3 (·.level) (fun n x => { x with level := n }) (rng 0 5),
      rwF 2 0 16 (·.hold) (fun n x => { x with hold := n }) (rng 100 60000),
      rwF 4 0 7 (·.wakeMask) (fun n x => { x with wakeMask := n ||| 64 }),
      roF 6 0 16 (·.vcoreMv), rwF 8 0 32 (·.timer) (fun n x => { x with timer := n }) (rng 0 604800),
      roF 12 0 32 (·.avsFails)] }

/-- AWAKE record. -/
def awakeRec (i : Nat) : Rec :=
  { len := 12
    flds := lift (awakeAt · i) (modAwake i) [
      rwF 0 0 8 (·.thr) (fun n x => { x with thr := n }) (rng 0 158),
      rwF 1 0 4 (·.hyst) (fun n x => { x with hyst := n }) (rng 0 8),
      rwB 1 4 (·.arm) (fun v x => { x with arm := v }), roB 1 5 (·.above),
      rwF 2 0 8 (·.filter) (fun n x => { x with filter := n }) (rng 1 255), roF 4 0 48 (·.vIn)] }

/-- Wake record. -/
def wakeRec0 : Rec :=
  { len := 12
    flds := lift (·.pwr) modPwr [
      roF 0 0 4 (·.source), roB 0 4 (·.sleepPath), roF 1 0 8 (·.detail), roF 4 0 32 (·.sleepS), roF 8 0 32 (·.starts)] }

def powerRecord (i part : Nat) : Option Rec :=
  if part ≠ 0 then none
  else if i = 0 then some powerRec
  else if i = 0x10 ∨ i = 0x11 then some (awakeRec (i - 0x10))
  else if i = 0x20 then some wakeRec0
  else none

/-- A SET names the field at bit position `pos`. -/
def named (ws : List (Nat × Nat)) (pos : Nat) : Bool := ws.any (fun w => decide (w.1 = pos))

/-- Checks of a POWER SET (R579, R585). -/
def powerCheck (s : State) (_p i _part : Nat) (ws : List (Nat × Nat)) : Status :=
  if i = 0 then (if named ws 8 && s.pwr.change.isSome then .eBusy else .ok)
  else if i = 0x10 ∨ i = 0x11 then
    let a := awakeAt (writeFlds (awakeRec (i - 0x10)) ws s) (i - 0x10)
    if a.hyst ≤ a.thr then .ok else .eRange
  else .ok

/-- A SET of `level` with VCORE on waits for the change to complete (R579). -/
def levelHeld (r : Req) (_part : Nat) (ws : List (Nat × Nat)) (s : State) : Option State :=
  if r.inst = 0 && named ws 8 && s.pwr.vcoreEn && decide (s.pwr.state < 2) then
    some (startChange (wouldBe ws 8 0) (some r) (writeFlds powerRec (ws.filter (fun w => decide (w.1 ≠ 8))) s))
  else none

/-! ### Power states (R580-R582) -/

/-- Every wake source that `wake_mask` enables is armed, its latch cleared; the others are not (R582). -/
def armWake (s : State) : State :=
  let m := s.pwr.wakeMask
  let s := (List.range 12).foldl (fun s c => if bitOf 0 m then armCan c s else disarmCan c s) s
  let s := (List.range 8).foldl (fun s c => modLinCh c (fun x => { x with armed := bitOf 1 m && x.wakeEn }) s) s
  let s := (List.range 32).foldl (fun s k => if (diAt s k).wakeEn then modDi k (fun d => { d with wakeRef := d.q, wakeN := 0 }) s else s) s
  modPwr (fun p => { p with
    armed := true, latched := none
    lastArm := {
      dis := s.fio.dis, poll := s.fio.wakePoll, conf := s.fio.wakeConf
      lins := (List.range 8).filter (fun c => (linAt s c).wakeEn), awakes := p.awakes, timer := p.timer } }) s

/-- Every wake detector is armed with its last armed settings, an input's reference being its present q (R201, R287). -/
def armLast (s : State) : State :=
  let a := s.pwr.lastArm
  let s := modNm (fun v => { v with wakes := (List.range 12).foldl (fun t c =>
    tmod canWake0 c (fun w => { w with armed := w.live.en }) t) v.wakes }) s
  let s := (List.range 8).foldl (fun s c => modLinCh c (fun x => { x with armed := decide (c ∈ a.lins) }) s) s
  let s := (List.range 32).foldl (fun s k => modDi k (fun d =>
    { tget di0 a.dis k with q := d.q, level := d.level, wakeRef := d.q, wakeN := 0 }) s) s
  let s := modFio (fun f => { f with wakePoll := a.poll, wakeConf := a.conf }) s
  let s := (List.range 2).foldl (fun s i => modAwake i (fun w =>
    { tget awake0 a.awakes i with above := w.above, vIn := w.vIn }) s) s
  modPwr (fun p => { p with armed := true, latched := none, wakeMask := 0x7F, timer := a.timer }) s

/-- Sensor supplies on entry to STANDBY and on its exit (R217). -/
def supsStandby (on : Bool) (s : State) : State :=
  (List.range 4).foldl (fun s j =>
    let x := supAt s j
    if on then (if x.en && !x.latched && !x.on && !x.wait then modSup j (fun x => { x with on := true, bad := true }) s else s)
    else if x.standby || !x.on then s else modSup j (fun x => { x with on := false, bad := true }) s) s

/-- SLEEP begins at t0 (R582, steps 1 to 3). -/
def sleepBegin (auto : Bool) (s : State) : State :=
  let s := if s.pwr.armed then s else armWake s
  let s := setPowerState 3 auto s
  let s := outputsOff s
  let s := (List.range 32).foldl (fun s k => if (nmcAt s k).en && decide ((nmcAt s k).state ≠ .moored) then nmMoor k s else s) s
  let s := storeNodes true s
  let s := if s.pwr.vcoreEn then stopPartitions true s else s
  modPwr (fun p => { p with want := 3, trans := some { target := 3, auto := auto, claimed := decide (claimsNow s ≠ 0) } }) s

/-- A power state is entered at its boundary (R581, R589). -/
def enterPower (t : Nat) (auto : Bool) (s : State) : State :=
  if s.pwr.state = 3 then s
  else if s.pwr.state = t ∧ s.pwr.trans = none then modPwr (fun p => { p with want := t }) s
  else if t = 3 then
    if !s.sys.limpN then abortSleep 9 0 s
    else if awakeAbove s then abortSleep 7 (if (awakeAt s 0).above then 0 else 1) s
    else sleepBegin auto s
  else
    let s := modPwr (fun p => { p with want := t }) s
    if s.pwr.forced then s
    else if t = 2 then
      if s.pwr.state = 2 then s
      else
        let s := stopPartitions true s
        modPwr (fun p => { p with trans := some { target := 2, claimed := decide (claimsNow s &&& cutBits 2 ≠ 0) } }) s
    else if s.pwr.state = 2 then vcoreReturn t s
    else modPwr (fun p => { p with trans := some { target := t } }) s

/-- Class POWER (R439, R581, R587). The second byte of an argument marks the entry by R583. -/
def powerClass : ClassSpec :=
  { code := 0x70
    ranges := [(0, 1), (0x10, 2), (0x20, 1)]
    record := powerRecord
    verbs := [1, 2, 3, 4, 5, 6]
    events := 3
    setCheck := powerCheck
    held := levelHeld
    acts := [{ code := 1, cyc := true, insts := fun i => decide (i = 0), argOk := fun n => decide (n = 1)
               auth := fun _ p _ _ => decide (p = 0)
               check := fun s _ _ a =>
                 if 3 < leAt a 0 1 then .eRange
                 else if leAt a 0 1 = 3 ∧ (!s.sys.limpN || awakeAbove s) = true then .eState else .ok
               run := fun _ _ a => enterPower (leAt a 0 1) (decide (leAt a 1 1 = 1)) }] }

/-- A claim still holds the cut of the transition back (R533). -/
def cutWaits (s : State) (t : Trans) : Bool := t.claimed && decide (claimsNow s &&& cutBits t.target ≠ 0)

/-- SLEEP: PWR_EN falls, the keeper domain is off (R582). -/
def enterSleep (s : State) : State :=
  let s := keeperDown s
  modPwr (fun p => { p with
    pwrEn := false, slept := true, sleptAt := s.pwr.age
    cause := match p.latched with | some (_, d) => some (10, d) | none => none }) s

/-! ### Meanings: levels -/

/-- POWER_SET (R579, R587). -/
def execPowerSet (r : Req) (s : State) : Out := .next (cmdSet powerClass r s)

/-- AVS_ACKNOWLEDGE (R576, R577): good status, and a Read Vout of `mv`. -/
def execAvsAcknowledge (mv : Nat) (s : State) : Out :=
  .next (match s.pwr.change with
    | none => s
    | some c =>
      let s := modPwr (fun p => { p with vcoreMv := mv % 2 ^ 16 }) s
      if !avsGood c mv then s
      else if c.restore then
        modPwr (fun p => { p with change := if c.target = 0 then none else some { target := c.target, low := true, req := c.req } }) s
      else
        let s := modPwr (fun p => { p with change := none, level := c.target, clk := c.target }) s
        match c.req with
        | some r => answer 0x70 2 r .ok none (encodeRec powerRec s) s
        | none => s)

/-- AVS_ATTEMPT_TIMEOUT (R576, R577): an attempt failed; after the fourth the request fails. A level that could not
be restored leaves PL0 in force. -/
def execAvsAttemptTimeout (s : State) : Out :=
  .next (match s.pwr.change with
    | none => s
    | some c =>
      if c.attempts < 4 then modPwr (fun p => { p with change := some { c with attempts := c.attempts + 1 } }) s
      else
        let s := modPwr (fun p => { p with
          change := none, avsFails := sat 32 (p.avsFails + 1), level := if c.restore || c.low then 0 else p.level }) s
        let s := emit 0x7001 0 s (cause := avsTarget c)
        match c.req with
        | some r => answer 0x70 2 r .eTimeout none [] s
        | none => s)

/-! ### Meanings: power states -/

/-- POWER_ENTER (R581). -/
def execPowerEnter (r : Req) (s : State) : Out := .next (cmdAct powerClass 1 r s)

/-- TRANSITION_COMPLETE (R581): the sequence of a transition other than to SLEEP ends. -/
def execTransitionComplete (s : State) : Out :=
  .next (match s.pwr.trans with
    | none => s
    | some t =>
      if t.target = 3 ∨ s.pwr.change ≠ none ∨ cutWaits s t = true ∨ (t.target < 2 ∧ s.pwr.forced = true) then s
      else
        let s := modPwr (fun p => { p with trans := none }) s
        if t.target = 2 then vcoreOff (supsStandby false (setPowerState 2 t.auto (storeNodes false s)))
        else
          let s := setPowerState t.target t.auto s
          ovfGate (supsStandby true s))

/-- SLEEP_ENTRY (R582, step 4). -/
def execSleepEntry (s : State) : Out :=
  .next (match s.pwr.trans with
    | some t => if t.target = 3 ∧ s.pwr.state = 3 ∧ cutWaits s t = false then enterSleep s else s
    | none => s)

/-- AUTO_SLEEP (R583): `auto_sleep_hold` ends; SLEEP is staged as a command of the device itself. -/
def execAutoSleep (s : State) : Out :=
  .next (if autoQuiet s && (match s.pwr.quietAt with | some t => decide (t + s.pwr.hold * 1000000 ≤ s.tide.counter) | none => false) then
    modCyc (fun c => { c with staged := c.staged ++
      [{ due := if c.pastCutoff then 1 else 0, cls := 0x70, req := { pound := 0 }, op := .act 1 [3, 1], outside := true, reply := false }] }) s
    else s)

/-! ### Meanings: wake inputs -/

/-- Input voltages, µV, at which an AWAKE input may cross: a rise from the least, a fall to the greatest that the
threshold accuracy of ±(2 % + 0.1 V) leaves (R585). -/
def awakeRise (a : Awake) : Nat := ((500000 + 250000 * a.thr) * 98 - 10000000) / 100
def awakeFall (a : Awake) : Nat := ((500000 + 250000 * a.thr - 250000 * a.hyst) * 102 + 10000000) / 100

/-- AWAKE_THRESHOLD (R585): input `i` has been past a threshold for its filter time, now at `v` µV. A voltage on the
other side of it is no crossing. -/
def execAwakeThreshold (i v : Nat) (above : Bool) (s : State) : Out :=
  guardUnit (decide (i < 2))
    (if (if above then decide (v < awakeRise (awakeAt s i)) else decide (awakeFall (awakeAt s i) < v)) then s else
     let s := if !above && (awakeAt s i).above then modPwr (fun p => { p with reasonAt := p.age }) s else s
     let s := modAwake i (fun a => { a with above := above, vIn := if s.pwr.slept then a.vIn else v }) s
     if !above then s
     else if s.pwr.slept then (if bitOf 4 s.pwr.wakeMask && (awakeAt s i).arm then regWake 7 i s else s)
     else if s.pwr.state = 3 then regWake 7 i s
     else s)

/-- WAKE_TIMER (R585): `wake_timer` seconds after SLEEP entry. -/
def execWakeTimer (s : State) : Out :=
  .next (if s.pwr.slept && bitOf 5 s.pwr.wakeMask &&
      decide (s.pwr.timer ≠ 0 ∧ s.pwr.sleptAt + s.pwr.timer * nsPerSec ≤ s.pwr.age) then regWake 8 0 s else s)

/-- LIMP_WAKE (R585, R589): LIMP_N low for 1 ms in SLEEP or on the way there. -/
def execLimpWake (s : State) : Out :=
  .next (
    let s := modSys (fun v => { v with limpN := false }) s
    if s.pwr.slept ∨ s.pwr.state = 3 then regWake 9 0 s else s)

/-- One input of a wake poll (R201). -/
def pollInput (v : List Nat) (s : State) (k : Nat) : State :=
  let d := diAt s k
  if !d.wakeEn then s
  else
    let lv := diCompare d (elemOr 0 v k)
    let q := (lv != d.invert)
    let s := modDi k (fun d => { d with level := lv }) s
    if q = d.wakeRef then modDi k (fun d => { d with wakeN := 0 }) s
    else
      let s := modDi k (fun d => { d with wakeN := d.wakeN + 1 }) s
      if (diAt s k).wakeN = s.fio.wakeConf then regWake 6 k s else s

/-- DI_WAKE_POLL (R201): the harbour master compares each armed input, at `v` µV, with its reference. -/
def execDiWakePoll (v : List Nat) (s : State) : Out :=
  .next (if !s.pwr.slept ∨ bitOf 3 s.pwr.wakeMask = false then s else
    (List.range 32).foldl (pollInput v) s)

/-! ### Meanings: the path to sleep -/

/-- HEARTBEAT (R285): the Lockkeeper writes it while its start sequence is complete. -/
def execHeartbeat (s : State) : Out :=
  .next (if s.fv.started then modPwr (fun p => { p with beat := true, beatAt := s.pwr.age }) s else s)

/-- HEARTBEAT_TIMEOUT (R285): no heartbeat has come for 1 s, so firmware is unresponsive. -/
def execHeartbeatTimeout (s : State) : Out :=
  .next (
    let p := s.pwr
    if !p.keeper || decide (p.age < (if p.beat then p.beatAt else p.deafAt) + nsPerSec) then s
    else detect 0x01C false (modPwr (fun q => { q with beat := false, deafAt := if p.beat then p.age else p.deafAt }) s))

/-- Firmware has been unresponsive and no wake reason present for `sleep_path` (R287); a registered wake is a reason
for as long itself (R286). -/
def sleepPathDue (s : State) : Bool :=
  let p := s.pwr
  let n := s.nm.sleepPath * nsPerSec
  !p.beat && !p.slept && !wakeReason s && decide (p.deafAt + n ≤ p.age ∧ p.reasonAt + n ≤ p.age) &&
  (match p.lastWake with | some t => decide (t + n + n ≤ p.age) | none => true)

/-- SLEEP_PATH (R287): unresponsive with no wake reason for `sleep_path`. -/
def execSleepPath (s : State) : Out :=
  .next (if !sleepPathDue s then s
    else
      enterSleep (storeNodes true (armLast (modPwr (fun p => { p with sleepPath := true }) (outputsOff s)))))

/-! ### Meanings: boardnet -/

/-- BOARDNET_LOSS (R575): the higher group, and so both, below falling `V_OFF` for 10 µs. -/
def execBoardnetLoss (s : State) : Out :=
  .next (if (grpAt s 0).band = .belowOff ∧ (grpAt s 1).band = .belowOff then
    keeperDown (modPwr (fun p => { p with pwrEn := false }) s) else s)

/-- WAKE_DOMAIN_RESET (R575): below 3.0 V the wake domain resets; the next start counts as a power-on. -/
def execWakeDomainReset (s : State) : Out :=
  .next (
    let s := keeperDown s
    let s := { s with pwr := { startLevel := s.pwr.startLevel }, fio := { clsHold := s.fio.clsHold }, lin := {}, nm := { log := s.nm.log } }
    modImg (fun i => { i with boot := { i.boot with triesA := 0, triesB := 0 } }) s)

/-- RESET_ASSERT (R631): RST_N low resets the keeper, core and security domains. -/
def execResetAssert (s : State) : Out :=
  .next (
    let s := keeperDown s
    faultFall (modPwr (fun p => { p with cause := some (1, 0), slept := false }) (modSys (fun v => { v with rstN := false }) s)))

end Sys2Proof.Machine
end

