-- ==== Sys2Proof/Machine/Safe.lean ====
section
/-! DEFINITION. The chart safe state (R556-R559), detector configuration (R560), supply and hardware detectors
(R553-R555), and the wear of segments, memories and side ponds (R566-R571). -/
namespace Sys2Proof.Machine

/-! ### Entering and releasing the safe state -/

/-- Outputs below the Towpath switch to their safe set at once (R557). A trip or shed in force stays above it
(R558). -/
def safeOutputs (s : State) : State :=
  let s0 := s
  let s := (List.range 76).foldl (fun s i =>
    let t := match bridgeOf s i with | some (b, _) => 0x60 + b | none => i
    if tpOutOf s t ≠ .pound then s
    else
      let g := govern s i
      let s := modChan i (fun c => { c with actor := g.actor }) s
      if g.on = 0 then (if isOn (chanAt s i).state then switchOff i .off s else s)
      else if (chanAt s i).state = .off then demandOn i s
      else if 64 ≤ i ∧ (chanAt s i).gate = true then deadMark s0 i (modChan i (fun c => { c with hb := g.hb }) s)
      else s) s
  (List.range 16).foldl (fun s k => foSet k (foWant s k) s) s

/-- Physical state of the outputs at entry, for HOLD (R556). -/
def holdTable (s : State) : Tbl Nat :=
  let t := (List.range 76).foldl (fun t i =>
    tput ctr0 i (if isOn (chanAt s i).state then (padAt s i).now + 1 else 0) t) []
  (List.range 16).foldl (fun t k => tput ctr0 (0x50 + k) (b2n (foAt s k).out) t) t

/-- An activation that waits for a high water ends (R557, R605). -/
def endWaterWait (s : State) : State :=
  match s.img.act with
  | some a => if a.mode ≠ 0 ∧ a.handed = false ∧ a.prepared = false then cancelAct .eState s else s
  | none => s

/-- The safe state is entered with causes `bits` (R557, R558): the register sets switch, `T_PATIENCE` stops
(R122), an activation in preparation ends (R611), and SAFE_STATE is raised. -/
def enterSafe (bits : Nat) (strobe : Bool) (s : State) : State :=
  if s.saf.inForce then modSaf (fun v => { v with causes := v.causes ||| bits, relPend := false }) s
  else
    let s := modSaf (fun v => { v with
      inForce := true, releasing := false, strobed := strobe, causes := bits, relPend := false
      entryCycle := s.cyc.number, reaction := sat 32 (s.tide.counter - v.tD), hold := holdTable s
      atBoundary := 0, atStrobe := 0 }) s
    let s := if s.tp.governs then s else modTp (fun t => { t with handBack := .none, waiting := [] }) s
    let s := safeOutputs s
    let s := endWaterWait s
    let v := s.saf
    faultFall (emit 0x6002 0 s (cause := v.firstBp) (flags := 2 * bits)
      (value := if v.firstBp = 0 then 0 else v.tD % 2 ^ 47))

/-- A cause condition is still present (R559). -/
def safePresent (s : State) : Bool :=
  s.saf.dets.any (fun e => e.2.active && (e.2.escalate || decide (e.1 ∈ [0x023, 0x024, 0x025, 0x026]))) ||
  decide (s.cyc.overMask ≠ 0)

/-- RELEASE takes effect at its boundary (R559): the causes and latches clear, and the outputs come back by
step 3 of R233. A release withdrawn by a later cause does nothing (R572). -/
def releaseSafe (s : State) : State :=
  if !s.saf.relPend then s
  else
    let was := s.saf
    let s := modSaf (fun v => { v with
      relPend := false, causes := 0, inForce := false, releasing := was.inForce, relCycle := s.cyc.number, hold := []
      atBoundary := 0, atStrobe := 0
      dets := v.dets.foldl (fun t e => tput det0 e.1 { e.2 with latched := false } t) [] }) s
    let s := if was.inForce && !s.tp.governs then
        modTp (fun t => { t with handBack := .switching, waiting := handBackList s }) s else s
    emit 0x6003 0 s (cause := was.firstBp) (flags := 2 * was.causes)
      (value := if was.firstBp = 0 then 0 else was.tD % 2 ^ 47)

/-- The hand-back after a release has ended. -/
def settleRelease (s : State) : State :=
  if s.saf.releasing && decide (s.tp.handBack = .none) then modSaf (fun v => { v with releasing := false }) s else s

/-! ### Class SAFE -/

/-- Status record (R559). -/
def safeRec : Rec :=
  { len := 24
    flds := lift (·.saf) modSaf [
      roF 0 0 5 (·.causes), roB 0 5 (·.strobed), roB 0 6 (·.releasing), roB 0 7 (·.inForce), roB 1 0 (·.faultN),
      roF 2 0 8 (·.firstBp), roF 4 0 48 (·.entryCycle), roF 10 0 48 (·.relCycle), roF 16 0 32 (·.reaction),
      roF 20 0 32 (·.latentFails)] }

/-- Escalation cannot be changed. -/
def escFixed (bp : Nat) : Bool := decide (escOf bp = some .fixed ∨ escOf bp = some .never)

/-- Detector configuration (R560). -/
def detRec (bp : Nat) : Rec :=
  { len := 20
    flds := lift (detAt · bp) (modDet bp) [
      rwB 0 0 (·.escalate) (fun v d => { d with escalate := v }), rwB 0 1 (·.faultN) (fun v d => { d with faultN := v }),
      roB 0 2 (fun _ => escFixed bp), roB 0 3 (·.active), roB 0 4 (·.latched), roB 0 5 (·.latentFail),
      rwF 2 0 16 (·.latentMs) (fun n d => { d with latentMs := n }) (rng 10 100),
      roF 4 0 32 (·.count), roF 8 0 48 (·.lastCycle), roF 14 0 48 (·.latentCycle)] }

/-- Actions a target takes (R556). -/
def safeActionOk (t n : Nat) : Bool := decide (n ≤ if t < 76 then 3 else if t < 0x60 then 2 else 1)

/-- A safe entry (R556). -/
def safeEntryRec (t : Nat) : Rec :=
  { len := 2
    flds := lift (fun s => tget safeEntry0 s.saf.entries t)
        (fun f => modSaf (fun v => { v with entries := tmod safeEntry0 t f v.entries })) [
      rwF 0 0 2 (·.action) (fun n e => { e with action := n }) (safeActionOk t),
      rwF 1 0 8 (·.duty) (fun n e => { e with duty := n })] }

def safeRecord (i part : Nat) : Option Rec :=
  if part ≠ 0 then none
  else if i = 0 then some safeRec
  else if 0x100 ≤ i ∧ i < 0x200 then some (detRec (i - 0x100))
  else if 0x1000 ≤ i then some (safeEntryRec (i - 0x1000))
  else none

/-- Checks of a SAFE SET (R556, R560): the duty of a DUTY entry is 1 to 255, else 0. -/
def safeCheck (s : State) (_p i part : Nat) (ws : List (Nat × Nat)) : Status :=
  if 0x100 ≤ i ∧ i < 0x200 then (if escFixed (i - 0x100) && named ws 0 then .eState else .ok)
  else if 0x1000 ≤ i then
    let e := tget safeEntry0 (asSet 0x60 safeRecord i part ws s).saf.entries (i - 0x1000)
    if (e.action = 3 ∧ e.duty = 0) ∨ (e.action ≠ 3 ∧ e.duty ≠ 0) then .eRange
    else if s.saf.inForce then .eState else .ok
  else .ok

/-- Class SAFE (R439, R556-R560). -/
def safeClass : ClassSpec :=
  { code := 0x60
    ranges := (0, 1) :: detectorTable.map (fun e => (0x100 + e.1, 1)) ++ [(0x1000, 76), (0x1050, 16), (0x1060, 6)]
    record := safeRecord
    verbs := [1, 2, 3, 4, 5, 6]
    events := 3
    setCheck := safeCheck
    setCyc := fun i _ => decide (0x1000 ≤ i)
    acts := [
      { code := 1, cyc := true, insts := fun i => decide (i = 0), argOk := fun n => decide (n = 0)
        auth := fun _ p _ _ => decide (p = 0)
        check := fun s _ _ _ =>
          if !s.saf.inForce && !(s.saf.dets.any (fun e => e.2.latched)) then .eState
          else if safePresent s then .eState else .ok
        taken := modSaf (fun v => { v with relPend := true })
        run := fun _ _ _ => releaseSafe },
      { code := 2, cyc := true, insts := fun i => decide (i = 0), argOk := fun n => decide (n = 0)
        auth := fun _ p _ _ => decide (p = 0), check := fun _ _ _ _ => .ok
        taken := fun s => if s.saf.causes = 0 ∧ s.saf.atBoundary = 0 ∧ s.saf.atStrobe = 0 then
            modSaf (fun v => { v with firstBp := 0, tD := s.tide.counter }) s else s
        run := fun _ _ _ => enterSafe 4 false }] }

/-! ### VCORE taken by force (R555, R583) -/

/-- The SET of `level` that waits for a change of level fails (R579, R583). -/
def refuseLevel (s : State) : State :=
  match s.pwr.change with
  | some { req := some r, .. } => answer 0x70 2 r .eTimeout none [] s
  | _ => s

/-- A forced cut of VCORE: the Lighthouse's operation is aborted, partitions stop unsaved, the state reads
STANDBY with FORCED. -/
def forcedOff (s : State) : State :=
  let s := stopPartitions false (forceCut (cutBits 2) 1 s)
  let s := refuseLevel s
  let s := modPwr (fun p => { p with
    change := none, forced := true, trans := p.trans.bind (fun t => if t.target = 3 then some t else none) }) s
  let s := vcoreOff s
  if s.pwr.state = 3 then s else supsStandby false (setPowerState 2 false (storeNodes false s))

/-- The commanded state returns when no condition of a forced cut is left (R583). -/
def forcedEnd (s : State) : State :=
  if !s.pwr.forced ∨ (detAt s 0x026).active = true ∨ (detAt s 0x024).active = true ∨ s.pwr.vcoreBar = true then s
  else
    let s := modPwr (fun p => { p with forced := false }) s
    if s.pwr.state = 2 ∧ s.pwr.want < 2 ∧ s.pwr.vcoreEn = false then vcoreReturn s.pwr.want s else s

/-! ### Segment wear (R566, R567) -/

/-- Resistance of a segment normalised to 25 °C, µΩ: V_DS in µV over the segment's current in µA, with the
class coefficient per kelvin. -/
def segR25 (i : Nat) (vDs cur : Nat) (tcl : Int) : Nat :=
  let a : Int := if i < 8 then 571 else 576
  let den := ((100000 * 2 ^ 24 : Nat) : Int) + a * (tcl - ((25 * 2 ^ 24 : Nat) : Int))
  ((vDs * 1000000 / cur * 100000 * 2 ^ 24 : Nat) / den.toNat : Nat)

/-- The channel has a qualifying cycle. -/
def segQualifies (s : State) (i : Nat) : Bool :=
  let w := segAt s i
  let t := (clusterAt s (chCluster i)).tcl
  decide ((chanAt s i).state = .on ∧ (padAt s i).now = 0xFFFF) &&
  decide (((chRating i * 1000000 : Nat) : Int) ≤ 4 * chCur s i) &&
  (match w.lastTcl with | some l => decide (t - l < 2 ^ 24 ∧ l - t < 2 ^ 24) | none => false)

/-- One resistance joins a segment's baseline and history; the drift follows, 0.01 % rounded to nearest. -/
def segSample (k r : Nat) (w : SegWear) : SegWear :=
  let n := elemOr 0 w.baseN k
  let grow := fun (l : List Nat) (v : Nat) => (List.range 9).map (fun j => if j = k then v else elemOr 0 l j)
  let h := (r :: elemOr [] w.hist k).take 4096
  let w := { w with
    baseSum := if n < 1000 then grow w.baseSum (elemOr 0 w.baseSum k + r) else w.baseSum
    baseN := if n < 1000 then grow w.baseN (n + 1) else w.baseN
    hist := (List.range 9).map (fun j => if j = k then h else elemOr [] w.hist j) }
  if elemOr 0 w.baseN k < 1000 then w
  else
    let num : Int := ((sumN h * 1000 * 10000 : Nat) : Int)
    let den : Int := ((h.length * elemOr 0 w.baseSum k : Nat) : Int)
    let d := (2 * num + den) / (2 * den) - 10000
    { w with drift := (List.range 9).map (fun j => if j = k then d else elemOr 0 w.drift j) }

/-- Segments of a channel that still serve. -/
def segsLive (s : State) (i : Nat) : List Nat := (List.range 9).filter (fun k => !bitOf k (segAt s i).failed)

/-- The segment of highest drift, the lowest at a tie, with its drift. -/
def segWorst (s : State) (i : Nat) : Nat × Int :=
  (segsLive s i).foldl (fun b k => let d := elemOr 0 (segAt s i).drift k; if b.2 < d then (k, d) else b) (0, 0)

/-- A channel's wear decision in the level phase. -/
def segJudge (i : Nat) (s : State) : State :=
  let t := (clusterAt s (chCluster i)).tcl
  if !segQualifies s i then modSeg i (fun w => { w with lastTcl := some t }) s
  else
    let x := (wireAt s i).sample
    let s := modSeg i (fun w =>
      (segsLive s i).foldl (fun w k =>
        let c := elemOr 0 x.iSeg k
        if c = 0 then w else segSample k (segR25 i x.vDs c t) w) { w with lastTcl := some t }) s
    let (k, d) := segWorst s i
    let sd := s.saf.pond.swapDrift
    let q := quarters d sd
    let s := if (segAt s i).quarter < q then pondWear 1 i d false (modSeg i (fun w => { w with quarter := q }) s) else s
    if (sd : Int) ≤ d ∧ (chanAt s i).spareOk = true then
      if (segAt s i).swapDue = none then
        modSeg i (fun w => { w with swapDue := some k }) (if ((2 * sd : Nat) : Int) ≤ d then detect 0x006 false s else s)
      else s
    else if ((2 * sd : Nat) : Int) ≤ d then detect 0x006 false (failSegment i k s)
    else s

/-- Segment wear of F and M channels in the level phase. -/
def segWear (s : State) : State := if s.slu.silent then s else (List.range 32).foldl (fun s i => segJudge i s) s

/-- Swaps due at a boundary; a channel with a trip pending waits (R572). -/
def segBoundary (s : State) : State :=
  (List.range 32).foldl (fun s i => match (segAt s i).swapDue with
    | some k => if (chanAt s i).trip = none then modSeg i (fun w => { w with quarter := 0 }) (swapSegment i k s) else s
    | none => s) s

/-! ### Class POND (R570, R571) -/

/-- Segment wear record. -/
def segRec (i : Nat) : Rec :=
  { len := 32
    flds := liveF 0 0 4 (fun s => (chanAt s i).active) :: lift (segAt · i) (modSeg i)
      ([roF 0 4 2 (·.spare), roF 20 0 9 (·.failed), roF 24 0 48 (·.swapCycle)] ++
       (List.range 9).map (fun k => roF (2 + 2 * k) 0 16 (fun w => ofS 16 (clampI (-32768) 32767 (elemOr 0 w.drift k))))) }

/-- Wear figures over all units: kind, unit, and 0.01 % of the threshold. -/
def wearFigures (s : State) : List (Nat × Nat × Nat) :=
  let p := s.saf.pond
  (List.range 32).map (fun i => (1, i, (segWorst s i).2.toNat * 10000 / p.swapDrift)) ++
  (List.range 5).map (fun g => (2, g, (adcAt s g).err * 10000 / 50)) ++
  [(3, s.can.shadow, s.can.mism * 10000 / 2)] ++
  (List.range 5).map (fun k => (4, k, ((coreAt s k).times.filter (fun t => decide (s.tide.counter < t + nsPerSec))).length * 10000 / ((coreAt s k).transMax + 1))) ++
  (List.range 16).map (fun b => (5, b, tget ctr0 p.stuck b * 10000 / 4)) ++
  [(6, 0, p.rows * 10000 / 512)]

/-- The highest of them, the first at a tie. -/
def wearWorst (s : State) : Nat × Nat × Nat :=
  (wearFigures s).foldl (fun b x => if b.2.2 < x.2.2 then x else b) (0, 0, 0)

/-- Wear report. -/
def wearRec : Rec :=
  { len := 20
    flds := [liveF 0 0 8 (fun s => ((List.range 32).filter (fun i => decide ((segAt s i).spare = 1))).length),
      liveF 1 0 8 (fun s => ((List.range 32).filter (fun i => (chanAt s i).derated)).length),
      liveF 2 0 8 (fun s => ((List.range 5).filter (fun g => bitOf g s.saf.pond.adcUsed)).length),
      liveF 6 0 16 (fun s => sat 16 (wearWorst s).2.2), liveF 8 0 8 (fun s => (wearWorst s).1),
      liveF 10 0 16 (fun s => (wearWorst s).2.1)] ++
    lift (·.saf.pond) modPond [roF 3 0 2 (·.canSpare), roF 3 2 2 (·.coreSpare), roF 3 4 2 (·.sramUsed),
      roF 4 0 16 (·.rows), roF 12 0 48 (·.repCycle)] }

/-- A row of eMRAM is remapped to a spare row (R569). -/
def remapRow (row : Nat) (s : State) : State :=
  let s := modPond (fun p => { p with rows := p.rows + 1, rowIn := row :: p.rowIn }) s
  let s := if s.saf.pond.rows % 128 = 0 ∧ s.saf.pond.rows < 512 then pondWear 6 row s.saf.pond.rows false s else s
  pondIn 6 row s.saf.pond.rows s

/-- A BRING_IN may be accepted (R570). -/
def bringStatus (s : State) (kind unit : Nat) : Status :=
  match kind with
  | 1 => if 32 ≤ unit then .eRange else if (chanAt s unit).spareOk then .ok else .eState
  | 2 => if 5 ≤ unit then .eRange else if (adcAt s unit).swapped || (adcAt s unit).spareBad then .eState else .ok
  | 3 => if 12 ≤ unit then .eRange else if canSwapFree s then .ok else .eState
  | 4 => swapStatus s unit
  | 5 => if 16 ≤ unit then .eRange
         else if unit ∈ s.saf.pond.sramIn ∨ s.saf.pond.sramCopy = some unit ∨ unit ∈ s.saf.pond.sramWait ∨
           2 ≤ s.saf.pond.sramUsed + s.saf.pond.sramWait.length then .eState else .ok
  | 6 => if 49152 ≤ unit then .eRange else if 512 ≤ s.saf.pond.rows ∨ unit ∈ s.saf.pond.rowIn then .eState else .ok
  | _ => .eRange

/-- A spare is brought in for a unit (R570). Of a channel it takes the segment of highest drift. -/
def bringIn (kind unit : Nat) (s : State) : State :=
  if bringStatus s kind unit ≠ .ok then s
  else match kind with
  | 1 => swapSegment unit (segWorst s unit).1 s
  | 2 => bringAdc unit (adcAt s unit).err s
  | 3 => startSwap unit 2 s
  | 4 => startSwapCore unit s
  | 5 => bringSram unit s
  | _ => remapRow unit s

/-- Class POND (R439, R570, R571). -/
def pondClass : ClassSpec :=
  { code := 0x62
    ranges := [(0, 32), (0x100, 1)]
    record := fun i part => if part ≠ 0 then none else if i < 32 then some (segRec i) else some wearRec
    verbs := [1, 2, 3, 4, 5, 6]
    events := 2
    acts := [{ code := 1, cyc := true, argOk := fun n => decide (n = 4)
               auth := fun _ p _ _ => decide (p = 0)
               check := fun s _ _ a => if leAt a 1 1 ≠ 0 then .eRange else bringStatus s (leAt a 0 1) (leAt a 2 2)
               run := fun _ _ a => bringIn (leAt a 0 1) (leAt a 2 2) }] }

/-! ### Meanings: the safe state -/

/-- SAFE_ENTER (R557, R559). -/
def execSafeEnter (r : Req) (s : State) : Out := .next (cmdAct safeClass 2 r s)
/-- SAFE_RELEASE (R559). -/
def execSafeRelease (r : Req) (s : State) : Out := .next (cmdAct safeClass 1 r s)
/-- SAFE_SET (R556, R560). -/
def execSafeSet (r : Req) (s : State) : Out := .next (cmdSet safeClass r s)

/-- SAFE_STROBE (R557): 700 µs after t_d. -/
def execSafeStrobe (s : State) : Out :=
  .next (if s.saf.atStrobe = 0 ∨ s.tide.counter < s.saf.tD + 700000 then s else enterSafe (s.saf.atStrobe ||| s.saf.atBoundary) true s)

/-! ### Meanings: side ponds -/

/-- POND_BRING_IN (R570). -/
def execPondBringIn (r : Req) (s : State) : Out := .next (cmdAct pondClass 1 r s)

/-- SRAM_BANK_COPY_COMPLETE (R568, R572): the map points at the spare; a bank that waits is copied next. -/
def execSramBankCopyComplete (s : State) : Out :=
  .next (match s.saf.pond.sramCopy with
    | none => s
    | some b =>
      let s := modPond (fun p => { p with sramCopy := none, sramIn := b :: p.sramIn, stuck := tdel b p.stuck }) s
      let s := pondIn 5 b (4 : Nat) s
      match s.saf.pond.sramWait with
      | [] => s
      | w :: r => modPond (fun p => { p with sramCopy := some w, sramUsed := p.sramUsed + 1, sramWait := r }) s)

/-! ### Meanings: supplies, temperature and clocks -/

/-- THERMAL_EMERGENCY (R555). -/
def execThermalEmergency (s : State) : Out :=
  .next (if !s.pwr.keeper ∨ (detAt s 0x026).active = true then s else forcedOff (detect 0x026 true s))

/-- THERMAL_EMERGENCY_CLEAR (R555, R583). -/
def execThermalEmergencyClear (s : State) : Out :=
  .next (if (detAt s 0x026).active then forcedEnd (detectEnd 0x026 s) else s)

/-- A rail leaves its limits. -/
def railOut (r : Nat) (s : State) : State :=
  if r ∈ s.pwr.rails then s else modPwr (fun p => { p with rails := r :: p.rails }) s

/-- With the 5 V rail out of range every CAN and LIN transceiver is as in STANDBY, its wake detector armed (R279, R280). -/
def busesStandby (s : State) : State :=
  let s := (List.range 12).foldl (fun s c => if (canWakeAt s c).armed then s else armCan c s) s
  (List.range 8).foldl (fun s c => modLinCh c (fun x => { x with armed := x.wakeEn }) s) s

/-- With the rail back a transceiver in NORMAL turns its wake detector off. -/
def busesBack (s : State) : State :=
  let s := (List.range 12).foldl (fun s c => if (canAt s c).live = 0 then s else disarmCan c s) s
  (List.range 8).foldl (fun s c =>
    if (linAt s c).role = 0 ∨ linMoored s c = true then s else modLinCh c (fun x => { x with armed := false }) s) s

/-- VKEEP_MON (R555): the keeper domain is reset, the detection stays latched (R640), and a start follows when
the rail is back. -/
def execVkeepMon (s : State) : Out :=
  .next (if !s.pwr.keeper then s
    else
      let s := keeperDown s
      railOut 0 (detectLatch 0x023 true (modPwr (fun p => { p with cause := some (p.source, p.detail) }) s)))

/-- A detection of the core rail monitor with VCORE on: the rail is removed; `again`: it came within 1 s of the
last one. -/
def vcoreLost (again : Bool) (s : State) : State :=
  modPwr (fun p => { p with vmonAt := some s.pwr.age, vcoreBar := p.vcoreBar || again })
    (forcedOff (railOut 1 (detect 0x024 true s)))

/-- The request of VCORE after its removal, unless it stays off until the next start. -/
def vcoreReturnUnless (again : Bool) (s : State) : State :=
  if again then s
  else if s.pwr.state = 3 then s
  else if 2 ≤ s.pwr.want then s
  else vcoreReturn s.pwr.want s

/-- The last detection of the core rail monitor is less than 1 s old. -/
def vcoreAgain (s : State) : Bool :=
  match s.pwr.vmonAt with
  | some t => decide (s.pwr.age < t + nsPerSec)
  | none => false

/-- VCORE_MON (R555): VCORE is removed and requested again once; a second detection within 1 s keeps it off
until the next start. -/
def execVcoreMon (s : State) : Out :=
  .next (if !s.pwr.vcoreEn then s else vcoreReturnUnless (vcoreAgain s) (vcoreLost (vcoreAgain s) s))

/-- VIO_MON (R555, R280, R631): rail 2 VIO18, 3 VIO33 or 4 V5; `low` says on which side. VIO33 below its range
holds the keeper domain in reset. -/
def execVioMon (rail : Nat) (low : Bool) (s : State) : Out :=
  guardUnit (decide (2 ≤ rail ∧ rail < 5))
    (if !s.pwr.keeper then s
     else
       let s := if rail = 3 ∧ low = true then
           detectLatch 0x025 true (modPwr (fun p => { p with cause := some (p.source, p.detail) }) (keeperDown s))
         else detect 0x025 true s
       let s := if rail = 4 then busesStandby (modCan (fun c => { c with rail5 := false }) s) else s
       railOut rail s)

/-- SUPPLY_RAIL_RECOVERY (R555): the rail is within its limits again. -/
def execSupplyRailRecovery (rail : Nat) (s : State) : Out :=
  guardUnit (decide (rail < 5))
    (if !(decide (rail ∈ s.pwr.rails)) then s
     else
       let s := modPwr (fun p => { p with rails := p.rails.erase rail }) s
       let s := if rail = 4 then busesBack (modCan (fun c => { c with rail5 := true }) s) else s
       if rail = 0 then detectEnd 0x023 s
       else if rail = 1 then (if s.pwr.vcoreBar then s else forcedEnd (detectEnd 0x024 s))
       else if railOk s 2 && railOk s 3 && railOk s 4 then detectEnd 0x025 s else s)

/-- CLOCK_MON (R553, R591): keeper logic runs on the RC oscillator, and Towpath cause WATCH is set; the restart
it names is a command of its own. -/
def execClockMon (s : State) : Out :=
  .next (if !s.pwr.keeper then s else tpSet 2 (detect 0x01B false (modPwr (fun p => { p with pll := false }) s)))

/-! ### Meanings: memories and readback -/

/-- BUS_TIMEOUT (R553): the requester receives an error response. -/
def execBusTimeout (s : State) : Out := .next (if s.pwr.keeper then detect 0x022 false s else s)

/-- An uncorrectable read in the log region may hit a copy of the node state, which then fails its CRC (R138). Which, if
any, is a free value: the spec gives the copies no places there. -/
def nodeCopyLost (s : State) : State :=
  let (v, s) := takeFree s
  if v % 9 = 8 then s
  else modSlu (fun u => { u with copies := tmod nodeCopy0 (v % 9) (fun c => { c with ok := false }) u.copies }) s

/-- EMRAM_ECC (R553, R569): `kind` 0 is an uncorrectable read at offset `off` of the eMRAM, 1 a row that a write
condemns, 2 a row that a read correcting 2 bits condemns. Of the Towpath copies the other is used. -/
def execEmramEcc (kind off : Nat) (s : State) : Out :=
  .next (
    let copy := if 0x17B0000 ≤ off ∧ off < 0x17B8000 then some 0 else if 0x17B8000 ≤ off ∧ off < 0x17C0000 then some 1 else none
    if kind = 0 then
      let s := detect 0x01D false s
      match copy with
      | some c =>
        let s := spoilCopies (decide (c = 0)) (decide (c = 1)) s
        if s.tp.copy = c ∧ s.tp.noTable = false then useCopies s else s
      | none => if 0x1200000 ≤ off ∧ off < 0x1400000 then nodeCopyLost s else s
    else if off / 512 ∈ s.saf.pond.rowIn then s
    else if 512 ≤ s.saf.pond.rows then (if kind = 1 then detect 0x01D false s else s)
    else remapRow (off / 512) s)

/-- TABLE_ECC (R553): an entry of the CAN filters (0), the routes (1), the forwarding table (2) or the VLAN table
(3) is disabled, and enabled again by its reload from the chart. -/
def execTableEcc (kind i : Nat) (reload : Bool) (s : State) : Out :=
  guardUnit (decide ((kind = 0 ∧ i < 4096) ∨ (kind = 1 ∧ i < 0x4000) ∨ (kind = 2 ∧ i < 0x2000) ∨ (kind = 3 ∧ 1 ≤ i ∧ i < 4095)))
    (let s := if reload then s else detect 0x053 false s
     match kind with
     | 0 => modFilter i (fun e => { e with bad := !reload }) s
     | 1 => modRoute i (fun e => { e with bad := !reload }) s
     | 2 => modFdb i (fun e => { e with bad := !reload }) s
     | _ => modVlan i (fun e => { e with bad := !reload }) s)

/-- FAULT_N_READBACK (R553). -/
def execFaultNReadback (s : State) : Out := .next (if s.pwr.keeper then detect 0x027 false s else s)

/-! ### Meanings: Sluice and watch -/

/-- SLUICE_SILENT (R554, R602): a trial ends by its revert before the microcode is reloaded. The RC oscillator times the
4.25 P; while the cycle timer runs, at least four boundaries have passed since the last alive word. -/
def execSluiceSilent (s : State) : Out :=
  .next (if s.slu.silent || !s.pwr.keeper || (s.cyc.running && decide (s.slu.unalive < 4)) then s else revertTrial (declareSilent (detect 0x012 false s)))

/-- SLUICE_CODE (R553, R554, R602). -/
def execSluiceCode (s : State) : Out :=
  .next (if s.pwr.keeper then revertTrial (declareSilent (detect 0x013 false s)) else s)

/-- TRNG_HEALTH (R553): output is withheld until the tests pass. -/
def execTrngHealth (pass : Bool) (s : State) : Out :=
  .next (if !s.pwr.keeper then s else
    if pass then modLight (fun l => { l with freeze := false }) s
    else detect 0x062 false (modLight (fun l => { l with freeze := true }) s))

/-- WATCH_EXPIRY (R222, R553, R602): cause WATCH is latched. The RC oscillator times the 2.25 P; while the cycle timer runs,
at least two boundaries have passed since the last kick. -/
def execWatchExpiry (s : State) : Out :=
  .next (if s.pwr.keeper && (!s.cyc.running || decide (2 ≤ s.tp.unkicked)) then revertTrial (detect 0x018 false (tpSet 2 s)) else s)

end Sys2Proof.Machine
end

