-- ==== Sys2Proof/Machine/Tide.lean ====
section
/-! DEFINITION. The Tide clock: class TIME (R435-R438), servo (R76-R81), gPTP (R74, R84-R86), TIDE_OUT and
TIDE_IN (R87-R92), snapshots (R72). -/
namespace Sys2Proof.Machine

/-! ### TIDE_OUT -/

/-- `start` of a TIDE_OUT in ns of its scale (R437). -/
def startNs (c : TOutCfg) : Int :=
  if c.scale = 0 then (((c.start % 2 ^ 48) * nsPerSec + c.start / 2 ^ 48 : Nat) : Int)
  else toS 64 (c.start % 2 ^ 64)

/-- The first instant start + k × period, k ≥ 0, at or after `t`. -/
def periodicFrom (c : TOutCfg) (t : Int) : Int :=
  let s := startNs c
  if t ≤ s then s else s + ((t - s + c.period - 1) / c.period) * c.period

/-- First edge of ONCE or PERIODIC settings accepted now (R88). -/
def firstEdge (s : State) (c : TOutCfg) : Option Int :=
  match c.mode with
  | 1 => some (startNs c)
  | 2 => some (periodicFrom c (scaleNow s c.scale + 10000))
  | _ => none

/-- Settings take effect: the output is armed for its first edge (R88, R90). A time scale stepped while PERIODIC settings
waited moves theirs on (R91). -/
def armTout (s : State) (c : TOutCfg) (o : TOut) : TOut :=
  { o with
    cfg := c
    waiting := none
    first := none
    next := if c.mode = 2 then o.first.map (fun t => if t < scaleNow s c.scale then periodicFrom c (scaleNow s c.scale) else t)
            else o.first }

/-- The time from now to the first edge of settings `c`, in ns of their scale or, for BOUNDARY, to the first boundary whose
number is a multiple of `every`; none for OFF. -/
def edgeIn (s : State) (c : TOutCfg) : Option Int :=
  if c.mode = 3 then
    some ((toBoundary s + (c.every - 1 - s.cyc.number % c.every) * s.cyc.period : Nat) : Int)
  else (firstEdge s c).map (fun t => t - scaleNow s c.scale)

/-- The first edge would fall before the pulse in progress has ended (R88). -/
def edgeEarly (s : State) (o : TOut) (c : TOutCfg) : Bool :=
  o.pulse && (match edgeIn s c with
    | some d => decide (d < (o.endAt : Int) - (s.tide.counter : Int))
    | none => false)

/-- A pulse of output `i` begins, where the rail lets it; without it a ONCE output has had its edge all the same, and is
OFF (R90, R555). -/
def startPulse (i : Nat) (nxt : Option Int) (s : State) : State :=
  if railOk s 3 then
    modTout i (fun o => { o with pulse := true, endAt := s.tide.counter + o.cfg.width, next := nxt }) s
  else modTout i (fun o => { o with next := nxt, cfg := if o.cfg.mode = 1 then { o.cfg with mode := 0 } else o.cfg }) s

/-- A waiting SET takes effect when the output is idle (R89). -/
def settleTout (i : Nat) (s : State) : State :=
  match (toutAt s i).waiting with
  | some c => if (toutAt s i).pulse then s else modTout i (armTout s c) s
  | none => s

/-- A step of time scale `scale` from `old` to `new` seen by one TIDE_OUT (R91): a passed edge fires at
once and is reported late; a backward step fires no past edge again; PERIODIC continues after the step. -/
def stepTout (scale : Nat) (old new : Int) (i : Nat) (s : State) : State :=
  let o := toutAt s i
  if o.cfg.scale ≠ scale then s else
  match o.next with
  | none => s
  | some t =>
    let nxt := if o.cfg.mode = 2 then some (periodicFrom o.cfg (new + 1)) else none
    if old < new ∧ t ≤ new then
      emit 0x0305 (0x10 + i) (startPulse i nxt s) (value := new - t)
    else if new < old ∧ o.cfg.mode = 2 then modTout i (fun o => { o with next := nxt }) s
    else s

/-- What a step of a time scale does beside the clock itself: TIME_STEP (R94) and the TIDE_OUTs (R91). The
cycle timer measures the new phase error at the next boundary (R58). -/
def stepped (scale : Nat) (old new : Int) (s : State) : State :=
  (List.range 4).foldl (fun s i => stepTout scale old new i s) (emit 0x0302 scale s (value := new - old))

/-- An evt_rate window ends for every pound (R452). -/
def rateWindowEnd (s : State) : State :=
  modFv (fun v => { v with qs := tmap pq0 32 (fun _ q => { q with rateCount := 0 }) v.qs }) s

/-- The working clock is stepped by `e` ns (R58, R77, R91, R452). -/
def stepWork (e : Int) (s : State) : State :=
  let old := workNs s
  let new := addNs old e
  stepped 0 old new (rateWindowEnd (setWorkNs new s))

/-- A domain is stepped by `e` ns. -/
def stepDom (d : Nat) (e : Int) (s : State) : State :=
  let old := domValue s d
  let s := modDom d (fun m => { m with offset := toS 64 (ofS 64 (m.offset + e)) }) s
  stepped d old (domValue s d) s

/-! ### Records of class TIME -/

/-- Code of a servo state (R72). -/
def servoCode : ServoState → Nat
  | .freeRun => 0 | .acquiring => 1 | .locked => 2 | .holdover => 3

/-- ±1,000 ppm and ±200 ppm in 2^-48. -/
def ppm1000 : Int := 281474976710
def ppm200 : Int := 56294995342

/-- Working clock and servo record (R435). On a barge `source` reads 1 and ignores writes. -/
def timeRec0 : Rec :=
  { len := 48
    flds := [
      ⟨0, 2, true, rng 0 3, fun s => if s.sys.role = .barge then 1 else s.tide.source,
        fun n s => if s.sys.role = .barge then s else modTide (fun t => { t with source := n }) s⟩,
      liveF 0 2 3 (fun s => servoCode (servoAt s 0).state)] ++
      lift (fun s => s.tide) modTide [
        rwF 2 0 16 (·.kp) (fun n t => { t with kp := n }),
        rwF 4 0 16 (·.ki) (fun n t => { t with ki := n }),
        rwF 8 0 32 (·.stepThr) (fun n t => { t with stepThr := n }) (rng 1000 1000000000),
        rwF 12 0 32 (·.lockThr) (fun n t => { t with lockThr := n }) (rng 20 100000),
        rwF 16 0 32 (·.unlockThr) (fun n t => { t with unlockThr := n }) (rng 40 1000000),
        rwF 20 0 32 (·.holdover) (fun n t => { t with holdover := n }) (rng 1 86400),
        roF 24 0 48 (·.sec), roF 30 0 30 (·.ns),
        roF 34 0 48 (fun t => ofS 48 t.rate)] ++
      [liveF 40 0 48 (fun s => ofS 48 (servoAt s 0).lastE)] }

/-- Part 1 of instance 0: the working time (R435, R66, R10). -/
def timeRec0Set : Rec :=
  { len := 12
    flds := lift (fun s => s.tide) modTide [
      rwF 0 0 48 (·.sec) (fun n t => { t with sec := n }) (fun n => decide (n < 0xFFFF00000000)),
      rwF 8 0 32 (·.ns) (fun n t => { t with ns := n, frac := 0 }) (fun n => decide (n < nsPerSec))] }

/-- Application domain record (R436). -/
def timeRecDom (d : Nat) : Rec :=
  { len := 32
    flds := lift (fun s => domAt s d) (modDom d) [
        rwB 0 0 (·.gptp) (fun b m => { m with gptp := b }),
        rwF 1 0 8 (·.number) (fun n m => { m with number := n }) (rng 1 127),
        chF 2 0 8 (·.owner) (fun n m => { m with owner := n }),
        rwF 4 0 64 (fun m => ofS 64 m.offset) (fun n m => { m with offset := toS 64 n, frac := 0 }),
        rwF 12 0 48 (fun m => ofS 48 m.rate) (fun n m => { m with rate := toS 48 n })
          (fun n => decide (-ppm1000 ≤ toS 48 n ∧ toS 48 n ≤ ppm1000))] ++
      [liveF 0 1 3 (fun s => if (domAt s d).gptp then servoCode (servoAt s d).state else 0),
       liveF 20 0 64 (fun s => ofS 64 (domValue s d))] }

/-- Settings a TIDE_OUT SET works on: those waiting, else those in force. -/
def wanted (o : TOut) : TOutCfg := o.waiting.getD o.cfg

/-- A field of a TIDE_OUT: read from the settings in force, written to the settings wanted. -/
def toutF (i byte bit w : Nat) (get : TOutCfg → Nat) (set : Nat → TOutCfg → TOutCfg) (ok : Nat → Bool) : Fld :=
  ⟨8 * byte + bit, w, true, ok, fun s => get (toutAt s i).cfg,
    fun n => modTout i (fun o => { o with waiting := some (set n (wanted o)) })⟩

/-- TIDE_OUT record (R437). -/
def timeRecTout (i : Nat) : Rec :=
  { len := 24
    flds := [
      toutF i 0 0 2 (·.mode) (fun n c => { c with mode := n }) (rng 0 3),
      toutF i 0 2 1 (·.polarity) (fun n c => { c with polarity := n }) (rng 0 1),
      toutF i 1 0 4 (·.scale) (fun n c => { c with scale := n }) (rng 0 8),
      toutF i 2 0 16 (·.every) (fun n c => { c with every := n }) (rng 1 65535),
      toutF i 4 0 80 (·.start) (fun n c => { c with start := n }) (fun _ => true),
      toutF i 14 0 32 (·.period) (fun n c => { c with period := n }) (rng 100 4000000000),
      toutF i 18 0 32 (·.width) (fun n c => { c with width := n }) (rng 8 1000000000)] }

/-- One capture as GET returns it (R438). -/
def capBytes (c : Cap) : List Byte :=
  leBytes 6 c.sec ++ leBytes 2 c.edge ++ leBytes 4 c.ns ++ leBytes 8 c.ctr ++ leBytes 4 0

/-- TIDE_IN record and its waiting captures (R438). -/
def timeRecTin (i : Nat) : Rec :=
  { len := 12
    flds := lift (fun s => tinAt s i) (modTin i) [
      rwF 0 0 2 (·.edge) (fun n t => { t with edge := n }) (rng 0 2),
      rwF 2 0 16 (·.glitch) (fun n t => { t with glitch := n }) (rng 0 1000),
      roF 4 0 8 (fun t => t.fifo.length),
      roF 8 0 32 (·.overflow)]
    more := fun s => (tinAt s i).fifo.flatMap capBytes }

/-- Timestamp queue record (R438). -/
def timeRecTsq (p : Nat) : Rec :=
  { len := 8
    flds := lift (fun s => tsqAt s p) (modTsq p) [
      roF 0 0 32 (·.drops), roF 4 0 16 (·.first), roF 6 0 8 (fun t => t.queue.length)] }

/-- Domain `o` takes rate `r` at counter value `c` without a jump (R69): O becomes O + C × (r_old − r_new). Its part
below 1 ns is kept, so that the value goes on where it was. -/
def rebase (c : Nat) (o : Dom) (r : Int) (m : Dom) : Dom :=
  let q : Int := (o.frac : Int) + (c : Int) * (o.rate - r)
  { m with
    rate := r
    offset := toS 64 (ofS 64 (o.offset + q / ((2 ^ 48 : Nat) : Int)))
    frac := (q % ((2 ^ 48 : Nat) : Int)).toNat }

/-- The rate a servo sets: the working clock's, limited to ±200 ppm (R64), or its domain's, limited to ±1,000 ppm
(R68). -/
def setRate (i : Nat) (r : Int) (s : State) : State :=
  if i = 0 then modTide (fun t => { t with rate := clampI (-ppm200) ppm200 r }) s
  else modDom i (fun m => rebase s.tide.counter m (clampI (-ppm1000) ppm1000 r) m) s

/-- The holdover rate r_base − I, without the proportional term (R79). -/
def holdRate (s : State) (i : Nat) : Int := (servoAt s i).rBase - (servoAt s i).integ

/-- Records of class TIME (R93). -/
def timeRecord (i part : Nat) : Option Rec :=
  if i = 0 then (if part = 0 then some timeRec0 else if part = 1 then some timeRec0Set else none)
  else if part ≠ 0 then none
  else if i ≤ 8 then some (timeRecDom i)
  else if 0x10 ≤ i ∧ i ≤ 0x13 then some (timeRecTout (i - 0x10))
  else if 0x20 ≤ i ∧ i ≤ 0x21 then some (timeRecTin (i - 0x20))
  else if 0x40 ≤ i ∧ i ≤ 0x4F then some (timeRecTsq (i - 0x40))
  else none

/-- Range and state rules of a TIME SET (R66, R70, R87, R88). -/
def timeCheck (s : State) (_p i part : Nat) (ws : List (Nat × Nat)) : Status :=
  if i = 0 ∧ part = 1 then (if s.tide.source = 3 ∧ s.sys.role ≠ .barge then .ok else .eState)
  else if 1 ≤ i ∧ i ≤ 8 then
    (if (domAt s i).gptp && ws.any (fun w => decide (w.1 = 32 ∨ w.1 = 96)) then .eState else .ok)
  else if 0x10 ≤ i ∧ i ≤ 0x13 then
    let c := wanted (toutAt (writeFlds (timeRecTout (i - 0x10)) ws s) (i - 0x10))
    let bad :=
      (if c.scale = 0 then decide (nsPerSec ≤ c.start / 2 ^ 48) else decide (2 ^ 64 ≤ c.start)) ||
      decide (c.period < c.width + 8) ||
      (decide (c.mode = 3) && decide (c.every * s.cyc.period < c.width)) ||
      edgeEarly s (toutAt s (i - 0x10)) c ||
      (decide (c.mode = 1) && decide (startNs c < scaleNow s c.scale + 10000))
    if bad then .eRange else .ok
  else .ok

/-- What follows from a TIME SET: steps, the rate change without a jump (R69), TIDE_OUT settings (R89). -/
def timeAfter (old : State) (i part : Nat) (ws : List (Nat × Nat)) (s : State) : State :=
  if i = 0 ∧ part = 1 then
    (if workNs old = workNs s then s else stepped 0 (workNs old) (workNs s) (rateWindowEnd s))
  else if i = 0 then
    -- source NONE is a FREE_RUN servo (R78)
    (if s.tide.source = 3 ∧ (servoAt s 0).state ≠ .freeRun then
      setRate 0 (holdRate s 0) (emit 0x0301 0 (modServo 0 (fun v => { v with state := .freeRun }) s)
        (flags := servoCode (servoAt s 0).state) (value := (servoAt s 0).lastE))
    else s)
  else if 1 ≤ i ∧ i ≤ 8 then
    if ws.any (fun w => decide (w.1 = 32)) then stepped i (domValue old i) (domValue s i) s
    else modDom i (rebase s.tide.counter (domAt old i) (domAt s i).rate) s
  else if 0x10 ≤ i ∧ i ≤ 0x13 then
    settleTout (i - 0x10) (modTout (i - 0x10) (fun o => { o with first := firstEdge s (wanted o) }) s)
  else s

/-- Class TIME (R93, R431, R435-R439). -/
def timeClass : ClassSpec :=
  { code := 0x03
    ranges := [(0, 9), (0x10, 4), (0x20, 2), (0x40, 16)]
    record := timeRecord
    verbs := [1, 2, 3, 4, 5, 6]
    events := 6
    setAuth := fun s p i _ _ =>
      decide (p = 0) || (decide (1 ≤ i ∧ i ≤ 8) && decide ((domAt s i).owner = p))
    setCheck := timeCheck
    after := timeAfter
    acts := [{ code := 1, cyc := false, insts := fun i => rng 0x40 0x4F i, argOk := fun n => decide (n = 0),
               auth := fun _ p _ _ => decide (p = 0), check := fun _ _ _ _ => .ok,
               run := fun _ i _ => modTsq (i - 0x40) (fun t => { t with drops := 0 }) }] }

/-- GET of a TIDE_IN returns the captures, removes them and re-arms the overflow event (R438). -/
def tideInRead (r : Req) (s : State) : State :=
  let i := r.inst - 0x20
  match getBytes timeClass r s with
  | .ok bs =>
    answer 0x03 1 r .ok none bs
      (modTin i (fun t => if leAt r.payload 0 1 = 0 then { t with fifo := [], reported := false } else t)
        (accepted r.pound s))
  | .error st => answer 0x03 1 r st none [] s

/-! ### Snapshot (R72) -/

/-- A write of 1 to TSNAP_TAKE: the pound's copy holds one instant's values. -/
def takeSnap (p : Nat) (s : State) : State :=
  let v : Snap :=
    { valid := true
      servo := servoCode (servoAt s 0).state
      phase := match s.cyc.timer with | .phased => 0 | .slewing => 1 | .rephase => 2
      ctr := s.tide.counter
      sec := s.tide.sec
      ns := s.tide.ns
      inCyc := s.cyc.inCycle
      cycle := s.cyc.number
      dom := (List.range 8).map (fun d => domValue s (d + 1)) }
  modTide (fun t => { t with snaps := tput snap0 p v t.snaps }) s

/-! ### Servo (R76-R81) -/

/-- A servo changes state: TIME_STATE with the new state, the old state and the last offset (R81). -/
def servoTo (i : Nat) (n : ServoState) (s : State) : State :=
  let o := (servoAt s i).state
  if o = n then s else
    emit 0x0301 i (modServo i (fun v => { v with
        state := n, good := 0, bad := 0, spikes := 0, first := if n = .acquiring then true else v.first }) s)
      (cause := servoCode n) (flags := servoCode o) (value := (servoAt s i).lastE)

/-- A step by −e of the clock a servo disciplines. -/
def servoStep (i : Nat) (e : Int) (s : State) : State := if i = 0 then stepWork (-e) s else stepDom i (-e) s

/-- Clamping of a rate to ±200 ppm, with TIME_RATE_LIMIT (R77). -/
def clampRate (i : Nat) (r : Int) (s : State) : State :=
  let c := clampI (-ppm200) ppm200 r
  setRate i c (if c = r then s else emit 0x0303 i s (value := r))

/-- The proportional-integral update of R77 for offset `e` over interval `tau`, exact to 2^-48. -/
def servoPI (i : Nat) (e : Int) (tau : Nat) (s : State) : State :=
  let v := servoAt s i
  let g : Int := ((2 ^ 32 : Nat) : Int)
  let t : Int := (tau : Int)
  let integ := v.integ + (s.tide.ki : Int) * e * g / t
  let r := v.rBase - ((s.tide.kp : Int) * e * g / t + integ)
  clampRate i r (modServo i (fun v => { v with integ := integ }) s)

/-- A sample outside LOCKED (R77). -/
def servoAcquire (i : Nat) (e : Int) (tau : Nat) (nrr : Int) (s : State) : State :=
  let far := decide ((s.tide.stepThr : Int) < e.natAbs)
  if (servoAt s i).first then
    let s := setRate i nrr (modServo i (fun v => { v with first := false, rBase := nrr }) s)
    if far then servoStep i e s
    else servoPI i e tau (modServo i (fun v => { v with integ := 0 }) s)
  else if far then servoStep i e (modServo i (fun v => { v with integ := 0 }) s)
  else servoPI i e tau s

/-- Counting of samples within the lock threshold (R78): the eighth in a row locks. -/
def servoCount (i : Nat) (e : Int) (s : State) : State :=
  if e.natAbs ≤ s.tide.lockThr then
    if 8 ≤ (servoAt s i).good + 1 then servoTo i .locked s
    else modServo i (fun v => { v with good := v.good + 1 }) s
  else modServo i (fun v => { v with good := 0 }) s

/-- One accepted sample of servo `i` (R77, R78): offset `e` (local minus master, ns), interval `tau` since
the previous accepted sample, rate from the neighbour and cumulative rate ratio. -/
def servoSample (i : Nat) (e : Int) (tau : Nat) (nrr : Int) (s : State) : State :=
  let s := modServo i (fun v => { v with lastE := e, lastAt := s.tide.counter }) s
  match (servoAt s i).state with
  | .freeRun | .holdover => servoCount i e (servoAcquire i e tau nrr (servoTo i .acquiring s))
  | .acquiring => servoCount i e (servoAcquire i e tau nrr s)
  | .locked =>
    if 4 * s.tide.unlockThr < e.natAbs then
      if (servoAt s i).spikes < 2 then modServo i (fun v => { v with spikes := v.spikes + 1 }) s
      else servoCount i e (servoAcquire i e tau nrr (servoTo i .acquiring s))
    else
      let s := servoPI i e tau (modServo i (fun v => { v with spikes := 0 }) s)
      if s.tide.unlockThr < e.natAbs then
        if 3 ≤ (servoAt s i).bad + 1 then servoTo i .acquiring s
        else modServo i (fun v => { v with bad := v.bad + 1 }) s
      else modServo i (fun v => { v with bad := 0 }) s

/-- The servo takes samples of a source (R70, R76): instance 0 from the source set (a barge's is TOWLINE),
instances 1-8 from gPTP when their domain is disciplined. `src` is 0 GPTP, 1 TOWLINE, 2 PPS. -/
def servoTakes (s : State) (i src : Nat) : Bool :=
  if i = 0 then decide ((if s.sys.role = .barge then 1 else s.tide.source) = src)
  else decide (src = 0) && (domAt s i).gptp

/-- HOLDOVER: the rate becomes the holdover rate (R79). -/
def servoHold (i : Nat) (s : State) : State := setRate i (holdRate s i) (servoTo i .holdover s)

/-! ### Meanings -/

/-- TIME_SET (R66, R70, R87, R425, R435-R438). -/
def execTimeSet (r : Req) (s : State) : Out :=
  .next (cmdSet timeClass r s)

/-- GET on class TIME: reading a TIDE_IN takes its oldest capture (R438). -/
def timeGetBody (r : Req) (s : State) : State := if rng 0x20 0x21 r.inst then tideInRead r s else doGet timeClass r s

/-- TIDE_IN_READ (R438). -/
def execTideInRead (r : Req) (s : State) : Out :=
  .next (serve timeClass 1 r (timeGetBody r) s)

/-- CLEAR_TS_DROP (R85, R438). -/
def execClearTsDrop (r : Req) (s : State) : Out :=
  .next (cmdAct timeClass 1 r s)

/-- TSNAP_TAKE (R72): writing 1 captures, writing 0 has no effect. -/
def execTsnapTake (p : Nat) (bit : Bool) (s : State) : Out :=
  guardUnit (decide (p < 32)) (if !s.pwr.keeper || (decide ((poundAt s p).kind = 4) && !s.pwr.vcoreEn) then s else
    if bit then takeSnap p s else s)

/-- SYNC_RECEIVED (R77, R78): a gPTP Sync gives servo `i` a sample. -/
def execSyncReceived (i : Nat) (e : Int) (tau : Nat) (nrr : Int) (s : State) : Out :=
  guardUnit (decide (i ≤ 8)) (if servoTakes s i 0 then servoSample i e tau nrr s else s)

/-- SYNC_RECEIPT_TIMEOUT (R78, R79, R553 0x057). -/
def execSyncReceiptTimeout (i : Nat) (s : State) : Out :=
  guardUnit (decide (i ≤ 8))
    (if (servoAt s i).state = .locked ∨ (servoAt s i).state = .acquiring then detect 0x057 false (servoHold i s) else s)

/-- HOLDOVER_LIMIT (R78): the instance enters FREE_RUN and keeps the holdover rate (R79). -/
def execHoldoverLimit (i : Nat) (s : State) : Out :=
  guardUnit (decide (i ≤ 8)) (if (servoAt s i).state = .holdover then servoTo i .freeRun s else s)

/-- A gPTP message (R74) with the common header of IEEE 802.1AS: message type, sequence number, correction; `log` is the
logMessageInterval, 0x7F where the message has none. -/
def gptpMsg (msgType seq dom : Nat) (corr log : Int) (body : List Byte) : EthFrame :=
  { dst := 0x0180C200000E, etype := 0x88F7,
    payload := beBytes 1 (16 + msgType) ++ beBytes 1 2 ++ beBytes 2 (34 + body.length) ++ beBytes 1 dom ++ beBytes 3 0 ++
      beBytes 8 (ofS 64 (corr * 65536)) ++ beBytes 14 0 ++ beBytes 2 seq ++ beBytes 1 0 ++ beBytes 1 (ofS 8 log) ++ body }

/-- A gPTP message whose body is a 10-byte time. -/
def gptpFrame (msgType seq dom : Nat) (corr : Int) (time : Nat) (log : Int := 127) : EthFrame :=
  gptpMsg msgType seq dom corr log (beBytes 6 (time / nsPerSec) ++ beBytes 4 (time % nsPerSec))

/-- An Announce of this device as grandmaster (R74): its priority1 and clockClass from the chart. PRESUMED from IEEE
802.1AS: the layout, clockAccuracy 0xFE, variance 0x436A, priority2 248, timeSource 0xA0, and the identity from the port's
station address. -/
def announceFrame (s : State) (p dom : Nat) : EthFrame :=
  let a := (portAt s p).station
  gptpMsg 11 (gportAt s p).syncSeq dom 0 0
    (beBytes 13 0 ++ beBytes 1 s.tide.priority1 ++ beBytes 1 s.tide.clockClass ++ beBytes 1 0xFE ++ beBytes 2 0x436A ++
     beBytes 1 248 ++ beBytes 3 (a / 2 ^ 24) ++ beBytes 2 0xFFFE ++ beBytes 3 (a % 2 ^ 24) ++ beBytes 2 0 ++ beBytes 1 0xA0)

/-- Number of the gPTP domain that servo `d` serves, when it serves one (R74): 0 for the working clock. -/
def gptpDomain (s : State) (d : Nat) : Option Nat :=
  if d = 0 then some 0 else if (domAt s d).gptp then some (domAt s d).number else none

/-- GPTP_SYNC_TRANSMIT (R74, R75, R83): a master port of a grandmaster sends Sync for servo `d`'s domain, and with every
2^-logSyncInterval-th Sync, once a second, an Announce (PRESUMED interval); a two-step port's departure time goes to the
port's queue when the frame leaves. Where a slave port exists, master ports send the Sync the Basin relays; with priority1
255 the device is not grandmaster-capable and originates none. -/
def execGptpSyncTransmit (p d : Nat) (s : State) : Out :=
  guardUnit (decide (p < 16 ∧ d ≤ 8))
    (let g := gportAt s p
     match gptpDomain s d with
     | none => s
     | some dom =>
       if g.role = 1 ∧ s.tide.priority1 ≠ 255 ∧ g.logSync ≤ 0 ∧ !((List.range 12).any (fun q => decide ((gportAt s q).role = 2))) then
         let s := if g.syncSeq % 2 ^ g.logSync.natAbs = 0 then keeperSend (some p) (announceFrame s p dom) s else s
         keeperSend (some p) (gptpFrame 0 g.syncSeq dom 0 0 g.logSync)
           (modGport p (fun g => { g with syncSeq := (g.syncSeq + 1) % 2 ^ 16 }) s)
       else s)

/-- PDELAY_REQ_TRANSMIT (R74, R75): not on S0-S3, where the link delay is management-set. -/
def execPdelayReqTransmit (p : Nat) (s : State) : Out :=
  guardUnit (decide (p < 16))
    (if !s.pwr.keeper then s else
     if (gportAt s p).pdelayOn && decide ((gportAt s p).logPdelay ≤ 3) && !(rng 8 11 p) then
      keeperSend (some p) (gptpFrame 2 (gportAt s p).pdelaySeq 0 0 0 (gportAt s p).logPdelay)
        (modGport p (fun g => { g with pdelaySeq := (g.pdelaySeq + 1) % 2 ^ 16, pdelayOpen := true }) s)
    else s)

/-- PDELAY_MESSAGE_RECEIVED (R74): a request is answered; a response with its four times gives the mean
link delay and the neighbour rate ratio, unless they are management-set. -/
def execPdelayMessageReceived (p : Nat) (isReq : Bool) (seq t1 t2 t3 t4 : Nat) (s : State) : Out :=
  guardUnit (decide (p < 16))
    (if !s.pwr.keeper then s else
     if isReq then keeperSend (some p) (gptpFrame 3 seq 0 0 t2) s
     else if (gportAt s p).pdelayOpen && decide ((seq + 1) % 2 ^ 16 = (gportAt s p).pdelaySeq) then
      let turn : Int := (t4 : Int) - (t1 : Int) - ((t3 : Int) - (t2 : Int))
      modGport p (fun g =>
        let dr : Int := (t3 : Int) - (g.lastT3 : Int)
        let dl : Int := (t4 : Int) - (g.lastT4 : Int)
        let nrr := if g.nrrManaged ∨ g.lastT3 = 0 ∨ dl ≤ 0 then g.nrr
                   else (dr - dl) * ((2 ^ 48 : Nat) : Int) / dl
        let delay := if g.delayManaged then g.delay else (turn / 2).toNat
        { g with pdelayOpen := false, lastT3 := t3, lastT4 := t4, nrr := nrr, delay := delay,
                 asCapable := decide (delay ≤ g.thresh) }) s
     else s)

/-- FOLLOW_UP (R84): the Lockkeeper takes the oldest gPTP entry of a port's two-step queue and sends the
Follow_Up (of a Sync) or Pdelay_Resp_Follow_Up (of a Pdelay_Resp). The entry of its own Pdelay_Req is its own departure
time and brings no message. -/
def execFollowUp (p : Nat) (s : State) : Out :=
  guardUnit (decide (p < 16))
    (match (tsqAt s p).queue.find? (fun e => decide (e.owner = 0xFFFF)) with
     | some e =>
       if e.msgType ≠ 0 ∧ e.msgType ≠ 3 then modTsq p (fun q => { q with queue := q.queue.erase e }) s
       else
       keeperSend (some p) (gptpFrame (if e.msgType = 0 then 8 else 10) e.seqId e.domain 0 (e.sec * nsPerSec + e.ns)
         (if e.msgType = 0 then (gportAt s p).logSync else 127))
         (modTsq p (fun q => { q with queue := q.queue.erase e }) s)
     | none => s)

/-- TIDE_OUT_EDGE (R89, R90): the scheduled edge starts the pulse, while VIO33 is in range (R555). -/
def execTideOutEdge (i : Nat) (s : State) : Out :=
  guardUnit (decide (i < 4))
    (match (toutAt s i).next with
     | some t => startPulse i (if (toutAt s i).cfg.mode = 2 then some (t + (toutAt s i).cfg.period) else none) s
     | none => s)

/-- TIDE_OUTs in BOUNDARY mode at the boundary that begins cycle `n` (R87, R89): a pulse where `n` is a multiple of
`every`, while VIO33 is in range. -/
def boundaryTouts (n : Nat) (s : State) : State :=
  (List.range 4).foldl (fun s i =>
    let c := (toutAt s i).cfg
    if c.mode = 3 ∧ n % c.every = 0 then startPulse i none s else s) s

/-- TIDE_OUT_PULSE_END (R89, R90): the output is inactive, ONCE returns to OFF, a waiting SET takes effect. -/
def execTideOutPulseEnd (i : Nat) (s : State) : Out :=
  guardUnit (decide (i < 4))
    (if (toutAt s i).pulse then
      settleTout i (modTout i (fun o => { o with
        pulse := false, cfg := if o.cfg.mode = 1 then { o.cfg with mode := 0 } else o.cfg }) s)
     else s)

/-- Offset of a PPS edge to the nearest second (R76). -/
def ppsOffset (s : State) : Int :=
  if s.tide.ns < nsPerSec / 2 then (s.tide.ns : Int) else (s.tide.ns : Int) - nsPerSec

/-- The edge follows the last capture by less than 100 ns. -/
def tinMerged (s : State) (t : TIn) : Bool :=
  match t.lastCtr with
  | some c => decide (s.tide.counter < c + 100)
  | none => false

/-- TIDE_IN_CAPTURE (R92): an edge of the chosen kind, after which the level lasts `width` ns, enters the FIFO unless the
glitch filter rejects that pulse or the edge follows the last capture by less than 100 ns; a full FIFO drops it, counts and
reports once. TIDE_IN0 also serves a PPS servo (R76). DESIGN CHOICE: the spec does not say which edge is the pulse, nor the
interval and the neighbour rate its sample has; the model takes a captured rising edge, 1 s and 0. -/
def execTideInCapture (i : Nat) (rising : Bool) (width : Nat) (s : State) : Out :=
  guardUnit (decide (i < 2))
    (if !s.pwr.keeper then s else
     let t := tinAt s i
     let chosen := decide (t.edge = 2) || decide (t.edge = if rising then 0 else 1)
     if !chosen || decide (width < t.glitch) || tinMerged s t || !railOk s 3 then s else
     let c : Cap := { sec := s.tide.sec, ns := s.tide.ns, edge := if rising then 1 else 2, ctr := s.tide.counter }
     let s1 :=
       if t.fifo.length < 16 then modTin i (fun t => { t with fifo := t.fifo ++ [c], lastCtr := some s.tide.counter }) s
       else
         let s' := modTin i (fun t => { t with
           overflow := (t.overflow + 1) % 2 ^ 32, reported := true, lastCtr := some s.tide.counter }) s
         if t.reported then s' else emit 0x0306 (0x20 + i) s' (value := (tinAt s' i).overflow)
     if i = 0 ∧ rising ∧ s.tide.ppsOn = true ∧ servoTakes s1 0 2 = true then
       servoSample 0 (ppsOffset s1) nsPerSec 0 s1
     else s1)

/-- Lexicographic order of priority vectors (BMCA). -/
def vecLess : List Nat → List Nat → Bool
  | [], [] => false
  | [], _ :: _ => true
  | _ :: _, [] => false
  | a :: as, b :: bs => decide (a < b) || (decide (a = b) && vecLess as bs)

/-- The device's own clock is better than an announced vector, which begins with priority1 and clockClass (R74); never where
priority1 is 255. Clocks equal in both are not better than the announced one (DESIGN CHOICE: the spec gives the device no
further terms). -/
def ownBetter (s : State) (vec : List Nat) : Bool :=
  decide (s.tide.priority1 ≠ 255) && vecLess [s.tide.priority1, s.tide.clockClass] (vec.take 2)

/-- GPTP_ANNOUNCE_RECEIVED (R74, R81): with the BMCA selected, a priority vector better than the device's own and than the
one held changes the grandmaster; with external port configuration the announced identity is taken from a slave port. A changed
identity sends the instance to HOLDOVER, and the next Sync acquires. -/
def execGptpAnnounceReceived (i p gm : Nat) (vec : List Nat) (s : State) : Out :=
  guardUnit (decide (i ≤ 8 ∧ p < 16))
    (let v := servoAt s i
     let take := if s.tide.extPorts then decide ((gportAt s p).role = 2)
                 else !ownBetter s vec && (decide (v.gmVec = []) || vecLess vec v.gmVec || decide (v.gmPort = p))
     if !take then s else
     let s := if s.tide.extPorts then s else modGport p (fun g => { g with role := 2 }) s
     let s := modServo i (fun v => { v with gm := gm, gmVec := vec, gmPort := p }) s
     if v.gm ≠ gm ∧ v.gm ≠ 0 ∧ servoTakes s i 0 = true ∧ v.state ≠ .freeRun then servoHold i s else s)

end Sys2Proof.Machine
end

