-- ==== Sys2Proof/Machine/Tow.lean ====
section
/-! DEFINITION. The tow (R493-R522): links, arriving frames, BEATs and time, enumeration, rerouting, stranding
and rejoining, loading of barges, and class TOW. What FAVAL, POST, NOTE and LATE frames bring is in
`TowFaval.lean`. -/
namespace Sys2Proof.Machine

/-! ### Barges -/

/-- The barge takes a state (R518). -/
def bargeTo (a st : Nat) (s : State) : State :=
  if (bargeAt s a).state = st then s
  else modBarge a (fun b => { b with state := st, stateCycle := s.cyc.number }) s

/-- The other port. -/
def otherPort (x : Nat) : Nat := 1 - x

/-- Its start is complete: `ready` in a BEAT (R503). -/
def towReady (s : State) : Bool := s.fv.started

/-- The port of a barge that leads to the tug: by its paths, or where the ENUM came in (R506, R510). -/
def tugPort (s : State) : Nat := (towPortTo s 0).getD s.tow.upPort

/-! ### Loading (R517) -/

/-- Frames of the barge image set in the active bank: component 4 of the image header (R36, R595). -/
def setBlocks (s : State) : Nat :=
  let base := bankBase (s.img.running.getD s.img.boot.active)
  (leNat (memBytes s.mem (base + 100) 4) + 2047) / 2048

/-- The tug's chart part for barge `a`. -/
def bargeItems (s : State) (a : Nat) : List ChartItem :=
  (slotImgAt s s.img.boot.chart).items.filterMap (fun i => match i with
    | .barge b j => if b = a then some j else none
    | _ => none)

/-- The chart's Towpath table for barge `a`. -/
def bargeTable (s : State) (a : Nat) : TpTable :=
  ((slotImgAt s s.img.boot.chart).items.findSome? (fun i => match i with
    | .bargeTable b t => if b = a then some t else none
    | _ => none)).getD {}

/-- The barge is to be loaded: it is held in its boot ROM, and TOW_RELOAD reports the start. -/
def loadBegin (a : Nat) (s : State) : State :=
  emit 0x4006 a (bargeTo a 2 (modBarge a (fun b => { b with
    loads := sat 16 (b.loads + 1), tries := [], lost := false, beats := 0, missed := 0 })
    (modTowReseq (4 * a) (fun _ => {}) (modTowReseq (4 * a + 1) (fun _ => {}) s)))) (cause := a) (flags := 1)

/-- The image set leaves for every device, then each barge's part of the chart and its Towpath table. -/
def loadSend (as_ : List Nat) (s : State) : State :=
  if as_.isEmpty then s else
  let s := (List.range (setBlocks s)).foldl (fun s k => towCast (.block k (setBlocks s)) s) s
  as_.foldl (fun s a => (towSend 0 a (.chart (bargeItems s a) (bargeTable s a)) s).2) s

/-- One barge is loaded. -/
def startLoad (a : Nat) (s : State) : State := loadSend [a] (loadBegin a s)

/-- A load fails (R517, R522): retried after back-off, or when a barge that was lost is found again. -/
def loadFailed (a : Nat) (lost : Bool) (s : State) : State :=
  emit 0x4006 a (bargeTo a 6 (modBarge a (fun b => { b with lost := lost }) s)) (cause := a) (flags := 3)

/-! ### Links (R496, R501, R507) -/

/-- A queued frame of a port whose link has gone: moved to the other port when its path leads to the destination,
else discarded (R507). -/
def moveFrame (y : Nat) (f : TowFrame) (s : State) : State :=
  let kind0 := match f.body with | .eth .. => true | _ => false
  if !kind0 && !f.bcast && decide (f.dst ∈ reach s y) then towPut y { f with reroute := true } s
  else match f.via with | some z => owe z f.vc (towCells f) s | none => s

/-- The tow has a broken link: a ring is a broken ring, and the tug's TB carries Ethernet frames (R507). -/
def ringBroken (s : State) : State :=
  if s.tow.topology = 2 then
    modTpt 1 (fun t => { t with blocked := false }) (modTow (fun t => { t with topology := 3 }) s)
  else s

/-- A load whose barge is out of reach has failed (R522). -/
def lostLoads (s : State) : State :=
  if s.sys.role ≠ .tug then s else
  (List.range' 1 63).foldl (fun s a =>
    if (bargeAt s a).state = 2 ∧ towPortTo s a = none then loadFailed a true s else s) s

/-- The link of port `x` ends with a new value of `link`: credit is void, TOPO goes out on the other port, and
the queued frames move. -/
def linkDown (x v : Nat) (s : State) : State :=
  let was := (tpAt s x).link
  let w := (tpAt s x).wait
  let s := modTpt x (fun t => { t with
    link := v, linkCycle := s.cyc.number, credit := [], owed := [], reserve := 0, backedOff := false, wait := []
    samples := [], echoTx := 0, echoRx := 0 }) s
  let s := emit 0x4005 (0x40 + x) s (cause := x) (flags := v)
  if was ≠ 1 then s else
  let s := countTow x 13 1 (modTpt x (fun t => { t with edge := some s.sys.tow, healed := false }) s)
  let s := ringBroken s
  let s := sendBeat (otherPort x) s.sys.tow 0 { op := 4, aux1 := 0, aux2 := s.sys.tow, aux3 := x } s
  lostLoads (w.foldl (fun s f => moveFrame (otherPort x) f s) s)

/-- TOWLINE_LINK_UP (R496, R501): credit is granted afresh; a broken link that is up again waits for
`revert_hold` (R507). -/
def execTowlineLinkUp (x : Nat) (s : State) : Out :=
  guardUnit (decide (x < 2)) (
    let t := tpAt s x
    if s.sys.role = .standalone ∨ t.link = 1 ∨ t.link = 2 ∨ t.en = false then s
    else
      let s := modTpt x (fun t => { t with
        link := 1, linkCycle := s.cyc.number, credit := [(0, vcGrant 0), (1, vcGrant 1), (2, vcGrant 2)]
        owed := [], reserve := 0 }) s
      let s := emit 0x4005 (0x40 + x) s (cause := x) (flags := 1)
      let s := if (tpAt s x).edge = some s.sys.tow then
          sendBeat (otherPort x) s.sys.tow 0 { op := 4, aux1 := 1, aux2 := s.sys.tow, aux3 := x }
            (modTpt x (fun t => { t with healed := true }) s)
        else s
      pump x s)

/-- TOWLINE_LINK_DOWN (R496, R501, R507). -/
def execTowlineLinkDown (x : Nat) (s : State) : Out :=
  guardUnit (decide (x < 2)) (if (tpAt s x).link = 1 then linkDown x 0 s else s)

/-- REVERT_HOLD_END (R507): a repaired link has stayed up; paths and BLOCKED revert. -/
def execRevertHoldEnd (x : Nat) (s : State) : Out :=
  guardUnit (decide (x < 2)) (
    if !(tpAt s x).healed then s
    else
      let s := modTpt x (fun t => { t with edge := none, healed := false }) s
      if s.tow.topology = 3 ∧ (tpAt s (otherPort x)).edge = none then
        let s := modTow (fun t => { t with topology := 2 }) s
        if s.sys.role = .tug then modTpt 1 (fun t => { t with blocked := true }) s else s
      else s)

/-! ### Arrival -/

/-- Credit that a frame returns (R501, R502): ordinary credit up to the grant first, the rest frees the reserve. -/
def takeCredit (x v n : Nat) (s : State) : State :=
  if 3 ≤ v then s else
  let c := tget ctr0 (tpAt s x).credit v + n
  modTpt x (fun t => { t with
    credit := tput ctr0 v (min (vcGrant v) c) t.credit
    reserve := if v = 0 then t.reserve - (c - vcGrant v) else t.reserve }) s

/-- A bad trailer (R498); more than 100 in one second are a detection of TOW_CRC (R553). -/
def badTrailer (x : Nat) (s : State) : State :=
  let s := countTow x 4 1 s
  let fresh := decide ((tpAt s x).crcFrom + nsPerSec ≤ s.tide.counter)
  let s := modTpt x (fun t => if fresh then { t with crcFrom := s.tide.counter, crcN := 1 } else { t with crcN := t.crcN + 1 }) s
  if (tpAt s x).crcN = 101 then detect 0x056 false s else s

/-- A frame arrives whole at port `x`: `chk` is 0 when its trailer and header are good, 1 with a bad trailer, 2
with a bad header (R498). What goes on is the frame with its hop counted and the port it came in on. -/
def towArrive (x chk : Nat) (f : TowFrame) (s : State) : Option TowFrame × State :=
  if s.sys.role = .standalone ∨ (tpAt s x).link ≠ 1 then (none, s)
  else if chk = 1 then (none, owe x f.vc (towCells f) (badTrailer x s))
  else if chk ≠ 0 ∨ bodyMax f.body < bodyLen f.body then (none, owe x f.vc (towCells f) (countTow x 5 1 s))
  else
    let s := countTow x 3 (towBytes f) (countTow x 2 1 s)
    let s := pump x (takeCredit x f.crVc f.crCells s)
    if 63 < f.hops + 1 then (none, owe x f.vc (towCells f) (countTow x 8 1 s))
    else
      let t := tpAt s x
      let s :=
        if f.vc = 0 ∧ t.backedOff = false ∧ upstream s x = false ∧ t.wait.any (fun g => decide (g.vc = 0)) = true then
          countTow x 9 1 (modTpt x (fun t => { t with backedOff := true }) s)
        else s
      (some { f with hops := f.hops + 1, via := some x }, s)

/-- TOWLINE_FRAME_GAP (R497): the partial frame is gone; `noise` says that data blocks followed before the next
START. `cmd` is the command of a FAVAL or POST frame whose headers had arrived. -/
def execTowlineFrameGap (x : Nat) (noise : Bool) (cmd : Option (Nat × Nat × Req)) (s : State) : Out :=
  guardUnit (decide (x < 2)) (
    if s.sys.role = .standalone ∨ (tpAt s x).link ≠ 1 then s
    else
      let s := countTow x 6 1 s
      let s := if noise then countTow x 7 1 s else s
      match cmd with
      | some (cls, verb, r) =>
        if s.sys.role = .barge ∧ s.fv.fw = true then answer cls verb { r with posted := false, payload := [] } .eTrunc none [] s else s
      | none => s)

/-! ### BEATs (R503, R509, R510) -/

/-- The mean of the delay samples, ns (R509). -/
def linkDelay (t : TowPort) : Int := if t.samples = [] then 0 else t.samples.foldl (· + ·) 0 / (t.samples.length : Int)

/-- A BEAT's times are taken: the delay sample of R509 and the echo for the next BEAT. -/
def beatTimes (x : Nat) (b : Beat) (s : State) : State :=
  let now : Nat := workNs s % 2 ^ 64
  let t := tpAt s x
  let d := (((now : Int) - b.echoTx) - ((b.txTime : Int) - b.echoRx)) / 2
  let ok := decide (b.echoTx ≠ 0 ∨ b.echoRx ≠ 0) && (decide (t.samples = []) || decide ((d - linkDelay t).natAbs ≤ 50))
  modTpt x (fun t => { t with
    samples := if ok then (t.samples ++ [d]).drop (t.samples.length - 15) else t.samples
    echoTx := b.txTime, echoRx := now }) s

/-- A BEAT frame at port `x`, its checks passed and its times taken. -/
def beatArrive (x chk : Nat) (f : TowFrame) (s : State) : Option (TowFrame × Beat) × State :=
  match f.body with
  | .beat b =>
    match towArrive x chk f s with
    | (some g, s) => (some (g, b), beatTimes x b s)
    | (none, s) => (none, s)
  | _ => (none, s)

/-- The meaning of a BEAT row: it acts on a frame with its `op` only. -/
def onBeat (x chk op : Nat) (f : TowFrame) (act : TowFrame → Beat → State → State) (s : State) : Out :=
  guardUnit (decide (x < 2)) (
    match f.body with
    | .beat b =>
      if b.op ≠ op then s
      else match beatArrive x chk f s with
        | (some (g, b), s) => act g b s
        | (none, s) => s
    | _ => s)

/-- The BEATs due at a boundary (R503): the tug's on each enabled port, a barge's towards the tug. -/
def beatBoundary (s : State) : State :=
  let b : Beat := { ready := towReady s, stranded := s.tow.stranded, cycle := s.cyc.number }
  match s.sys.role with
  | .standalone => s
  | .tug => [0, 1].foldl (fun s x => sendBeat x 0 0 { b with origin := workNs s % 2 ^ 64 } s) s
  | .barge => if s.fv.fw then sendBeat (tugPort s) s.sys.tow 0 { b with up := true } s else s

/-- Boundaries since the last BEAT are counted (R515, R516): a cycle without one breaks a run of BEATs. -/
def beatWatch (s : State) : State :=
  match s.sys.role with
  | .standalone => s
  | .barge => modTow (fun t => { t with missed := t.missed + 1 }) s
  | .tug => (List.range' 1 63).foldl (fun s a =>
      if (bargeAt s a).state ∈ [3, 4, 5] then
        modBarge a (fun b => { b with missed := b.missed + 1, beats := if b.missed = 0 then b.beats else 0 }) s
      else s) s

/-- Resynchronisation of a barge begins (R516); `r` is the command that waits. -/
def resyncBegin (a : Nat) (r : Option Req) (s : State) : State :=
  modBarge a (fun b => { b with resync := some r, leaveAt := none }) s

/-- A barge whose start is complete runs (R517). -/
def bargeReady (a : Nat) (s : State) : State :=
  if (bargeAt s a).state = 2 then emit 0x4006 a (bargeTo a 3 s) (cause := a) (flags := 2) else s

/-- A barge's BEAT at the tug (R515-R517); `locked` is what the barge reports of its servo. -/
def bargeBeat (a : Nat) (b : Beat) (locked : Bool) (s : State) : State :=
  let s := modBarge a (fun x => { x with missed := 0, beats := x.beats + 1 }) s
  let s := if b.ready then bargeReady a s else s
  let s :=
    if (bargeAt s a).state = 4 ∧ 8 ≤ (bargeAt s a).beats then
      let s := emit 0x4004 a (bargeTo a 5 s) (cause := a)
      if s.tow.autoResync ∧ (bargeAt s a).resync = none then resyncBegin a none s else s
    else s
  let x := bargeAt s a
  if locked && x.resync.isSome && x.leaveAt.isNone && decide (x.missed = 0) then
    modBarge a (fun x => { x with leaveAt := some ((s.cyc.number + 3) % 2 ^ 48) }) s
  else s

/-- The tug's BEAT at a barge (R63, R510, R511): a servo sample, the cycle timer's start once the servo has the
tug's time, the watch on beats, the cycle number. -/
def tugBeat (x : Nat) (b : Beat) (s : State) : State :=
  let s := modTow (fun t => { t with missed := 0 }) s
  let m := (b.origin : Int) + b.corr / 65536 + linkDelay (tpAt s x)
  let e := ((workNs s % 2 ^ 64 : Nat) : Int) - m
  let s := if s.tide.on then servoSample 0 e s.cyc.period 0 s else s
  if !s.cyc.running then (if s.tide.on then startTimer s else s)
  else if b.cycle = s.cyc.number then modTow (fun t => { t with diffs := 0 }) s
  else if s.tow.diffs = 0 then modTow (fun t => { t with diffs := 1 }) s
  else modTow (fun t => { t with diffs := 0, adopt := some b.cycle }) s

/-- BEAT_RECEIVED (R503, R509-R511, R515-R517). A barge takes the tug's BEAT on the port towards the tug and
relays it downstream with its own delay added; another barge's BEAT goes on towards the tug. -/
def execBeatReceived (x chk : Nat) (f : TowFrame) (locked : Bool) (s : State) : Out :=
  onBeat x chk 0 f (fun f b s =>
    match s.sys.role with
    | .standalone => s
    | .tug => if b.up && rng 1 63 f.src then bargeBeat f.src b locked s else s
    | .barge =>
      if b.up then (if x = tugPort s then s else sendBeat (otherPort x) f.src f.hops b s)
      else if x ≠ tugPort s then s
      else
        let s := if s.fv.fw then tugBeat x b s else s
        sendBeat (otherPort x) f.src f.hops { b with corr := b.corr + 65536 * linkDelay (tpAt s x) } s) s

/-- CREDIT_RECEIVED (R501): the credit in the header lets waiting frames start. -/
def execCreditReceived (x chk : Nat) (f : TowFrame) (s : State) : Out := onBeat x chk 5 f (fun _ _ s => s) s

/-- CREDIT_WAIT_EXPIRY (R501): credit that has waited 1 µs leaves in a BEAT. -/
def execCreditWaitExpiry (x : Nat) (s : State) : Out :=
  guardUnit (decide (x < 2)) (if (owedNext (tpAt s x)).isSome then sendBeat x s.sys.tow 0 { op := 5 } s else s)

/-! ### Rerouting (R507) -/

/-- TOPO_RECEIVED (R507): the link beyond the reporter is broken, or up again. -/
def execTopoReceived (x chk : Nat) (f : TowFrame) (s : State) : Out :=
  onBeat x chk 4 f (fun f b s =>
    let s := sendBeat (otherPort x) f.src f.hops b s
    let w := along s x
    let nearer := match (tpAt s x).edge with | some e => decide (w.idxOf b.aux2 ≤ w.idxOf e) | none => true
    if b.aux1 = 0 then
      lostLoads (ringBroken (if nearer then modTpt x (fun t => { t with edge := some b.aux2, healed := false }) s else s))
    else if (tpAt s x).edge = some b.aux2 then modTpt x (fun t => { t with healed := true }) s
    else s) s

/-! ### Enumeration (R504, R505) -/

/-- ENUM leaves on a port of the tug. -/
def sendEnum (x : Nat) (s : State) : State := sendBeat x 0 0 { op := 1, aux1 := x } s

/-- Enumeration begins: ENUM on TA. -/
def enumBegin (s : State) : State :=
  sendEnum 0 (modTow (fun t => { t with enumerating := true, acks := [], ringHops := 0, tbSent := false }) s)

/-- Answers of one side, and whether that side is complete: its last device has answered, or it has no link. -/
def sideDone (s : State) (x : Nat) : Bool :=
  let l := s.tow.acks.filter (fun a => decide (a.1 = x))
  decide ((tpAt s x).link ≠ 1) || l.any (fun a => a.2.2.2 && decide (l.length = a.2.1))

/-- Every device has answered. -/
def enumDone (s : State) : Bool :=
  s.tow.tbSent &&
  (if s.tow.ringHops = 0 then sideDone s 0 && sideDone s 1
   else decide ((s.tow.acks.filter (fun a => decide (a.1 = 0))).length = s.tow.ringHops - 1))

/-- Barges that answered through TA. -/
def taSide (s : State) : Nat := (s.tow.acks.filter (fun a => decide (a.1 = 0))).length

/-- Address of an answer: hops through TA, or behind the TA side. -/
def ackAddr (ring : Bool) (ta : Nat) (a : Nat × Nat × Nat × Bool) : Nat :=
  if ring ∨ a.1 = 0 then a.2.1 else ta + a.2.1

/-- The chart accepts the identity at the address. -/
def accepts (s : State) (a id : Nat) : Bool :=
  decide (a ≤ s.tow.expected) && (decide ((bargeAt s a).expect = 0) || decide ((bargeAt s a).expect = id))

/-- Outcome of an address after an enumeration (R505); answers whether the barge is to be loaded. -/
def enumOutcome (a : Nat) (ack : Option (Nat × Nat × Nat × Bool)) (s : State) : Bool × State :=
  match ack with
  | none => (false, bargeTo a 0 (modBarge a (fun b => { b with identity := 0 }) s))
  | some k =>
    let id := k.2.2.1
    let keep := decide ((bargeAt s a).state ∈ [3, 4, 5] ∧ (bargeAt s a).identity = id)
    let s := modBarge a (fun b => { b with identity := id }) s
    if accepts s a id then (!keep, if keep then s else loadBegin a (bargeTo a 1 s))
    else
      let s := bargeTo a 7 s
      (false, if a ≤ s.tow.expected then emit 0x4005 a s (cause := a) (flags := 0x84) else s)

/-- Enumeration ends: topology, addresses, ASSIGN, and the loads of R517. -/
def enumFinish (s : State) : State :=
  let ring := decide (s.tow.ringHops ≠ 0)
  let ta := taSide s
  let n := min 63 (if ring then s.tow.ringHops - 1 else s.tow.acks.length)
  let s := modTow (fun t => { t with
    topology := if ring then 2 else 1, enumerating := false, found := n, taCount := if ring then n else ta, enumCycle := s.cyc.number }) s
  let s := [0, 1].foldl (fun s x => modTpt x (fun t => { t with edge := none, healed := false, blocked := ring && decide (x = 1) }) s) s
  let b : Beat := { op := 3, aux1 := if ring then 2 else 1, aux2 := s.tow.taCount, aux3 := n }
  let s := (if ring then [0] else [0, 1]).foldl (fun s x => sendBeat x 0 0 b s) s
  let acks := s.tow.acks
  let r := (List.range' 1 63).foldl (fun (r : List Nat × State) a =>
    let (go, s) := enumOutcome a (acks.find? (fun k => decide (ackAddr ring ta k = a))) r.2
    (if go then r.1 ++ [a] else r.1, s)) ([], s)
  loadSend r.1 r.2

/-- Enumeration ends when every device has answered. -/
def enumCheck (s : State) : State := if s.tow.enumerating && enumDone s then enumFinish s else s

/-- An answer while the tow runs (R505): nothing changes for a running barge; one in its boot ROM is loaded, a
device at a new position reported. -/
def ackRunning (x hops id : Nat) (ready : Bool) (s : State) : State :=
  let a := ackAddr (isRing s) s.tow.taCount (x, hops, id, false)
  if a = 0 ∨ 63 < a ∨ (isRing s = true ∧ x = 1) then s
  else
    let b := bargeAt s a
    if b.state = 0 ∨ (b.state ≠ 7 ∧ b.identity ≠ id) then emit 0x4005 a s (cause := a) (flags := 0x88)
    else if ready then s
    else if b.state ∈ [1, 3, 4, 5] ∨ (b.state = 6 ∧ b.lost = true) then startLoad a s
    else s

/-- ENUM_RECEIVED (R32, R504). `peer` says that it is another tug's; `quiet` that the other port has had no link
for 2 ms. -/
def execEnumReceived (x chk : Nat) (f : TowFrame) (peer quiet : Bool) (s : State) : Out :=
  onBeat x chk 1 f (fun f b s =>
    match s.sys.role with
    | .standalone => s
    | .tug =>
      if peer then emit 0x4001 (0x40 + x) (linkDown x 2 s) (cause := x)
      else if x = 1 ∧ b.aux1 = 0 ∧ s.tow.enumerating = true then
        enumCheck (modTow (fun t => { t with ringHops := f.hops }) s)
      else s
    | .barge =>
      let t := tpAt s s.tow.upPort
      if s.tow.answered ∧ x ≠ s.tow.upPort ∧ t.link = 1 ∧ t.edge = none then s
      else
        let s := if s.fv.started ∧ s.tow.answered then s
          else modTow (fun t => { t with answered := true, upPort := x, upHops := f.hops, upSide := decide (b.aux1 = 1) }) s
        let s := sendBeat x s.sys.tow 0 { op := 2, up := true, ready := towReady s
                                          last := quiet && decide ((tpAt s (otherPort x)).link ≠ 1)
                                          aux2 := f.hops, identity := Config.identity } s
        sendBeat (otherPort x) f.src f.hops b s) s

/-- ENUM_ACK_RECEIVED (R504, R505). -/
def execEnumAckReceived (x chk : Nat) (f : TowFrame) (s : State) : Out :=
  onBeat x chk 2 f (fun f b s =>
    match s.sys.role with
    | .standalone => s
    | .barge => sendBeat (otherPort x) f.src f.hops b s
    | .tug =>
      if s.tow.enumerating then
        enumCheck (modTow (fun t => { t with acks := t.acks ++ [(x, b.aux2, b.identity, b.last)] }) s)
      else ackRunning x b.aux2 b.identity b.ready s) s

/-- ASSIGN_RECEIVED (R504): a barge takes its address from its position. -/
def execAssignReceived (x chk : Nat) (f : TowFrame) (s : State) : Out :=
  onBeat x chk 3 f (fun f b s =>
    if s.sys.role ≠ .barge then s
    else
      let s := if s.tow.answered then
          modTow (fun t => { t with topology := b.aux1, taCount := b.aux2, found := b.aux3 })
            (modSys (fun v => { v with tow :=
              if b.aux1 = 2 ∨ s.tow.upSide = false then s.tow.upHops else b.aux2 + s.tow.upHops }) s)
        else s
      sendBeat (otherPort x) f.src f.hops b s) s

/-- ENUM_TB_DELAY (R504): 2 ms after TA the tug sends ENUM on TB. -/
def execEnumTbDelay (s : State) : Out :=
  .next (if s.sys.role = .tug ∧ s.tow.tbSent = false ∧ (s.tow.enumerating = true ∨ s.tow.topology ≠ 0) then
    enumCheck (sendEnum 1 (modTow (fun t => { t with tbSent := true }) s)) else s)

/-- ENUM_REPEAT (R505): every 100 ms. An enumeration that still lacks an answer ends with those it has. -/
def execEnumRepeat (s : State) : Out :=
  .next (if s.sys.role ≠ .tug ∨ s.fv.started = false then s
    else
      let s := if s.tow.enumerating && s.tow.tbSent then enumFinish s else s
      if s.tow.enumerating then s
      else sendEnum 0 (modTow (fun t => { t with tbSent := false }) s))

/-! ### Stranding and rejoining (R515, R516) -/

/-- BARGE_STRANDED (R515): at the boundary that ends the eighth cycle without a tug BEAT. -/
def execBargeStranded (s : State) : Out :=
  .next (if s.sys.role = .barge ∧ s.fv.fw = true ∧ s.tow.stranded = false ∧ 8 < s.tow.missed then
    detect 0x055 false (modTow (fun t => { t with stranded := true, holdOn := true }) s) else s)

/-- POSTED_WRITE_FAILED for a posted command of barge `a` (R514, R521). -/
def postedFailed (a st : Nat) (p : Posted) (s : State) : State :=
  emit 0x4002 a s (cause := a) (ext := [p.req.tag, st, a * 2 ^ 26 + p.cls * 2 ^ 18 + p.req.inst]) (dest := some p.req.pound)

/-- TUG_STRAND_DECLARE (R514, R515): posted commands of the last 8 cycles have an unknown outcome. -/
def execTugStrandDeclare (a : Nat) (s : State) : Out :=
  guardUnit (rng 1 63 a) (
    let b := bargeAt s a
    if s.sys.role = .tug ∧ b.state ∈ [3, 5] ∧ 8 < b.missed then
      let s := detect 0x055 false (emit 0x4003 a (bargeTo a 4 (modBarge a (fun b => { b with beats := 0 }) s)) (cause := a))
      let recent := fun (p : Posted) => decide (s.cyc.number ≤ p.cycle + 8)
      let s := (b.posted.filter recent).foldl (fun s p => postedFailed a Status.eTimeout.code p s) s
      modBarge a (fun b => { b with posted := b.posted.filter (fun p => !recent p) }) s
    else s)

/-- STRAND_HOLD_END (R515). -/
def execStrandHoldEnd (s : State) : Out :=
  .next (if s.sys.role = .barge ∧ s.tow.holdOn = true then
    tpSet 4 (modTow (fun t => { t with holdOn := false }) s) else s)

/-- RESYNC answered: the request of barge `a` is answered when no other barge still works for it, or at once
when it fails. -/
def resyncAnswer (a : Nat) (st : Status) (s : State) : State :=
  match (bargeAt s a).resync with
  | none => s
  | some q =>
    let s := modBarge a (fun b => { b with resync := none, leaveAt := none }) s
    match q with
    | none => s
    | some r =>
      let others := (List.range' 1 63).filter (fun k => decide ((bargeAt s k).resync = some (some r)))
      if st = .ok ∧ others ≠ [] then s
      else answer 0x40 3 r st none [] (others.foldl (fun s k => modBarge k (fun b => { b with resync := some none }) s) s)

/-- RESYNC_TIMEOUT (R516): the barge has not been LOCKED within 2 s. -/
def execResyncTimeout (a : Nat) (s : State) : Out :=
  guardUnit (rng 1 63 a) (if (bargeAt s a).leaveAt.isNone then resyncAnswer a .eTimeout s else s)

/-- RESYNC_EXIT (R516): at the boundary the tug named, the barge leaves STRANDED. At the tug it names the barge
and what that barge reports of dropped events; at the barge its own address. -/
def execResyncExit (a dropped : Nat) (s : State) : Out :=
  guardUnit (rng 1 63 a) (
    match s.sys.role with
    | .standalone => s
    | .barge =>
      if s.tow.stranded then
        bargeFlush (tpClear 4 (modTow (fun t => { t with stranded := false, holdOn := false, evtDropped := 0 }) s))
      else s
    | .tug =>
      match (bargeAt s a).leaveAt with
      | some n =>
        if n ≤ s.cyc.number ∧ (bargeAt s a).state ∈ [4, 5] then
          resyncAnswer a .ok (bargeTo a 3 (modBarge a (fun b => { b with
            evtDropped := sat 16 (b.evtDropped + dropped) }) s))
        else s
      | none => s)

/-- RELAY_TIMEOUT (R513): the command with relay tag `tag` to barge `a` has no response. -/
def execRelayTimeout (a tag : Nat) (s : State) : Out :=
  guardUnit (rng 1 63 a) (
    match (bargeAt s a).out.find? (fun r => decide (r.tag = tag)) with
    | none => s
    | some q =>
      let s := modBarge a (fun b => { b with out := b.out.erase q }) s
      let s := match q.sub with
        | some id => modFv (fun v => { v with subs := v.subs.filter (fun b => decide (b.id ≠ id)) }) s
        | none => s
      if q.own || q.mute then s else answer q.cls q.verb q.req .eTimeout none [] s)

/-- BARGE_LOAD_RETRY (R517). -/
def execBargeLoadRetry (a : Nat) (s : State) : Out :=
  guardUnit (rng 1 63 a) (
    if s.sys.role = .tug ∧ (bargeAt s a).state = 6 ∧ (bargeAt s a).lost = false then startLoad a s else s)

/-! ### Class TOW (R518-R520) -/

/-- The tow record. -/
def towRec : Rec :=
  { len := 20
    flds := lift (·.tow) modTow [
      roF 0 0 2 (·.topology), roB 0 2 (·.enumerating),
      rwB 0 3 (·.autoResync) (fun v x => { x with autoResync := v }),
      rwF 0 4 3 (·.vc1Min) (fun n x => { x with vc1Min := n }),
      chF 1 0 6 (·.expected) (fun n x => { x with expected := n }),
      roF 2 0 6 (·.found), roF 3 0 6 (·.taCount),
      rwF 4 0 16 (·.strandHold) (fun n x => { x with strandHold := n }) (rng 0 60000),
      rwF 6 0 16 (·.relayTimeout) (fun n x => { x with relayTimeout := n }) (rng 1 1000),
      rwF 8 0 16 (·.revertHold) (fun n x => { x with revertHold := n }) (rng 100 60000),
      roF 12 0 48 (·.enumCycle)] }

/-- A barge record. -/
def bargeRec (a : Nat) : Rec :=
  { len := 28
    flds := liveF 0 3 1 (fun s => b2n (decide (towPortTo s a = some 1))) ::
      liveF 1 0 6 (fun s => match towPortTo s a with | some x => (hopsVia s x a).getD 0 | none => 0) ::
      lift (bargeAt · a) (modBarge a) [
        roF 0 0 3 (·.state), roF 2 0 64 (·.identity), roF 10 0 16 (·.evtDropped), roF 12 0 48 (·.stateCycle),
        roF 18 0 16 (·.loads), roF 20 0 32 (·.late), roF 24 0 32 (·.timeouts)] }

/-- A towline port record, its counters behind it (R518, R519). -/
def towPortRec (x : Nat) : Rec :=
  { len := 16
    flds := liveF 4 0 32 (fun s => (linkDelay (tpAt s x)).toNat) ::
      lift (tpAt · x) (modTpt x) [
        roF 0 0 2 (·.link), roB 0 2 (·.blocked), rwB 0 3 (·.en) (fun v t => { t with en := v }), roF 8 0 48 (·.linkCycle)]
    more := fun s => counterBytes (tpAt s x).counters (ctrLayout 14 [1, 3]) }

def towRecord (i part : Nat) : Option Rec :=
  if part ≠ 0 then none
  else if i = 0 then some towRec
  else if i < 0x40 then some (bargeRec i)
  else if i < 0x42 then some (towPortRec (i - 0x40))
  else none

/-- A port's `en` takes effect (R496): off, the link ends; on, the port trains. -/
def towAfter (s0 : State) (i _part : Nat) (_ws : List (Nat × Nat)) (s : State) : State :=
  if i < 0x40 then s
  else
    let x := i - 0x40
    if (tpAt s x).en = (tpAt s0 x).en then s
    else if !(tpAt s x).en then (if (tpAt s x).link = 1 then linkDown x 0 s else modTpt x (fun t => { t with link := if t.link = 2 then 2 else 0 }) s)
    else if (tpAt s x).link = 0 ∧ s.sys.role ≠ .standalone then modTpt x (fun t => { t with link := 3 }) s
    else s

/-- Barges a RESYNC names. -/
def resyncList (s : State) (a : List Byte) : List Nat :=
  if bitOf 6 (leAt a 0 1) then (List.range' 1 63).filter (fun k => decide ((bargeAt s k).state ∈ [4, 5]))
  else [leAt a 0 1 % 64]

/-- Class TOW. -/
def towClass : ClassSpec :=
  { code := 0x40
    ranges := [(0, 0x42)]
    record := towRecord
    verbs := [1, 2, 3, 4, 5, 6]
    events := 6
    after := towAfter
    acts := [
      { code := 1, cyc := false, insts := fun i => decide (i = 0), argOk := fun n => decide (n = 0)
        auth := fun _ p _ _ => decide (p = 0)
        check := fun s _ _ _ => if s.sys.role = .tug then .ok else .eState
        run := fun _ _ _ => enumBegin },
      { code := 2, cyc := true, insts := fun i => decide (i = 0), argOk := fun n => decide (n = 1)
        auth := fun _ p _ _ => decide (p = 0)
        check := fun s _ _ a =>
          if 128 ≤ leAt a 0 1 then .eRange
          else if resyncList s a ≠ [] ∧ (resyncList s a).all (fun k => decide ((bargeAt s k).state ∈ [4, 5])) = true then .ok
          else .eState
        run := fun _ _ a s => (resyncList s a).foldl (fun s k => resyncBegin k none s) s
        held := fun r s =>
          some ((resyncList s (r.payload.drop 4)).foldl (fun s k => resyncBegin k (some r) s) s) },
      { code := 3, cyc := false, insts := fun i => decide (i = 0), argOk := fun n => decide (n = 1)
        auth := fun _ p _ _ => decide (p = 0)
        check := fun s _ _ a =>
          if 1 < leAt a 0 1 then .eRange else if (tpAt s (leAt a 0 1)).link = 2 then .ok else .eState
        run := fun _ _ a => modTpt (leAt a 0 1) (fun t => { t with link := if t.en then 3 else 0 }) },
      { code := 4, cyc := false, insts := fun i => decide (i = 0), argOk := fun n => decide (n = 1)
        auth := fun _ p _ _ => decide (p = 0)
        check := fun s _ _ a =>
          if 64 ≤ leAt a 0 1 ∨ leAt a 0 1 = 0 then .eRange
          else if (bargeAt s (leAt a 0 1)).state ∈ [0, 7] then .eState else .ok
        run := fun _ _ a => startLoad (leAt a 0 1) }] }

/-- TOW_ENUMERATE (R504, R520). -/
def execTowEnumerate (r : Req) (s : State) : Out := .next (cmdAct towClass 1 r s)
/-- TOW_RESYNC (R516, R520). -/
def execTowResync (r : Req) (s : State) : Out := .next (cmdAct towClass 2 r s)
/-- TOW_PORT_RELEASE (R32, R520). -/
def execTowPortRelease (r : Req) (s : State) : Out := .next (cmdAct towClass 3 r s)
/-- TOW_RELOAD (R517, R520). -/
def execTowReload (r : Req) (s : State) : Out := .next (cmdAct towClass 4 r s)
/-- TOW_SET (R518). -/
def execTowSet (r : Req) (s : State) : Out := .next (cmdSet towClass r s)

end Sys2Proof.Machine
end

