-- ==== Sys2Proof/Machine/Breach.lean ====
section
/-! DEFINITION. Breach points (R563-R565): class BREACH, commanded runs and latent tests, and the local reaction
that a FULL run lets take effect. -/
namespace Sys2Proof.Machine

/-- First instance and number of instances of a detector, as its class numbers them (R564). -/
def detRange (bp : Nat) : Nat × Nat :=
  if bp ∈ [0x001, 0x002, 0x003, 0x005] then (0, 76)
  else if bp ∈ [0x004, 0x006] then (0, 32)
  else if bp ∈ [0x007, 0x008] then (0x100, 2)
  else if bp = 0x009 then (0x110, 10)
  else if bp ∈ [0x00A, 0x011] then (0x200, 76)
  else if bp = 0x00C then (64, 12)
  else if bp ∈ [0x00D, 0x00E, 0x00F] then (0, 6)
  else if bp = 0x010 then (0, 5)
  else if bp = 0x014 then (0x301, 4)
  else if bp = 0x040 then (0, 16)
  else if bp = 0x041 then (0x100, 2)
  else if bp = 0x042 then (0, 32)
  else if bp = 0x043 then (0, 8)
  else if bp = 0x044 then (0x10, 4)
  else if bp ∈ [0x050, 0x051, 0x052, 0x054] then (0, 12)
  else if bp ∈ [0x055, 0x056] then (0x40, 2)
  else if bp = 0x057 then (0, 9)
  else if bp = 0x063 then (0, 1024)
  else (0, 1)

/-- The unit an instance names, counted from 0; instance 0 names the first. -/
def detUnit (bp x : Nat) : Option Nat :=
  let r := detRange bp
  if r.1 ≤ x ∧ x < r.1 + r.2 then some (x - r.1) else if x = 0 then some 0 else none

/-- Class of a detector's object, whose events a run withholds (R563). -/
def detClass (bp : Nat) : Nat :=
  if bp ≤ 0x009 ∨ bp = 0x00C then 0x10
  else if bp ∈ [0x00A, 0x00B, 0x010, 0x011, 0x012, 0x013, 0x014, 0x036] then 0x11
  else if bp ≤ 0x00F then 0x13
  else if bp ∈ [0x018, 0x045] then 0x17
  else if bp ∈ [0x019, 0x01A] then 0x02
  else if bp = 0x01B ∨ bp = 0x01C ∨ (0x023 ≤ bp ∧ bp ≤ 0x026) then 0x70
  else if bp ∈ [0x01E, 0x01F, 0x035, 0x037] ∨ (0x030 ≤ bp ∧ bp ≤ 0x034) then 0x31
  else if bp ∈ [0x020, 0x053] then 0x25
  else if bp = 0x040 ∨ bp = 0x041 then 0x15
  else if bp = 0x042 then 0x14
  else if bp = 0x043 ∨ bp = 0x044 then 0x16
  else if 0x050 ≤ bp ∧ bp ≤ 0x052 then 0x20
  else if bp = 0x054 then 0x24
  else if bp = 0x055 ∨ bp = 0x056 then 0x40
  else if bp = 0x057 then 0x03
  else if 0x060 ≤ bp ∧ bp ≤ 0x062 then 0x50
  else if bp = 0x063 then 0x51
  else 0x60

/-- FULL is refused on these while the safe state is not in force (R564). -/
def fullBarred : List Nat := [0x012, 0x013, 0x018, 0x01A, 0x01B, 0x021, 0x023, 0x024, 0x025, 0x026, 0x035, 0x036, 0x060, 0x061]

/-- The state of a meaning that goes on. -/
def nextOr (s : State) : Out → State
  | .next t => t
  | _ => s

/-- The local reaction of a detector for unit `i` (R553), its own detection withheld: the injected condition
has gone by the time it takes effect, so a reaction that lasts only as long as its condition leaves nothing. `e`
is the energy a trip records. -/
def localReaction (bp i e : Nat) (s : State) : State :=
  let cur := chCur s i
  if bp = 0x001 then nextOr s (execShortTrip i e cur s)
  else if bp = 0x002 then nextOr s (execLimitTimerExpiry i e cur s)
  else if bp = 0x003 then nextOr s (execCliffLatchSet i e cur s)
  else if bp = 0x004 then nextOr s (execReverseTrip i e cur s)
  else if bp = 0x005 then stuckSeen i s
  else if bp = 0x006 then nextOr s (execSegmentFailure i (elemOr 0 (segsLive s i) 0) s)
  else if bp = 0x007 then nextOr s (execGroupFallVFull i (grpAt s i).v s)
  else if bp = 0x008 then nextOr s (execGroupRiseVOv i (grpAt s i).v s)
  else if bp = 0x00A then modWire i (fun w => { w with i2tBad := true }) s
  else if bp = 0x00B then nextOr s (execLidSensorMismatch s)
  else if bp = 0x00C then gateOff (64 + i) s
  else if bp = 0x00D then pinch i 0 s
  else if bp = 0x00F then bridgeStop i s
  else if bp = 0x010 then nextOr s (execAdcReferenceFailure i (adcAt s i).swapped (adcAt s i).err s)
  else if bp = 0x011 then nextOr s (execAdcCrossCheckFailure i s)
  else if bp = 0x012 ∨ bp = 0x013 ∨ bp = 0x036 then declareSilent s
  else if bp = 0x014 then nextOr s (execBudgetFail i s)
  else if bp ∈ [0x018, 0x01A, 0x021] then tpSet 2 s
  else if bp = 0x01B then nextOr s (execClockMon s)
  else if bp = 0x023 then modPwr (fun p => { p with cause := some (p.source, p.detail) }) (keeperDown s)
  else if bp = 0x024 then (if s.pwr.vcoreEn ∧ s.pwr.state < 2 then forcedEnd (forcedOff s) else s)
  else if bp = 0x026 then (if s.pwr.state < 2 then forcedEnd (forcedOff s) else s)
  else if bp = 0x035 then modFv (fun v => { v with fw := false }) s
  else if bp = 0x040 then nextOr s (execSilenceExpiry i s)
  else if bp = 0x041 then modBank i (fun x => if x.run.isNone then { x with run := some { cur := 255 } } else x) s
  else if bp = 0x044 then modSup i (fun x => { x with retries := (supAt s i).retries, latched := (supAt s i).latched }) (supOff i 1 id s)
  else if bp = 0x050 then condemn i s
  else if bp = 0x051 then nextOr s (execCanDominantTimeout i s)
  else if bp = 0x052 then modCanCh i (fun x => { x with counters := (canAt s i).counters }) (enterBusOff i s)
  else if bp = 0x054 then setLink i 0 s
  else if bp = 0x057 then servoHold i s
  else if bp = 0x060 then lightReset s
  else if bp = 0x061 then modLight (fun l => { l with state := 2 }) s
  else if bp = 0x062 then modLight (fun l => { l with freeze := true }) s
  else s

/-- A FULL run's reaction takes effect: events of the detector's class are withheld, and nothing is detected. -/
def fullReaction (r : BreachRun) (s : State) : State :=
  let (e, s) := takeFree s
  let s := modSaf (fun v => { v with mute := [detClass r.bp, 0x60] }) s
  modSaf (fun v => { v with mute := [] }) (localReaction r.bp ((detUnit r.bp r.inst).getD 0) e s)

def breachAt (s : State) (bp : Nat) : BreachRec := tget breach0 s.saf.breach bp
def modBreach (bp : Nat) (f : BreachRec → BreachRec) (s : State) : State :=
  modSaf (fun v => { v with breach := tmod breach0 bp f v.breach }) s

/-- A run is recorded (R565). -/
def breachRecord (bp inst : Nat) (full latent pass : Bool) (ns : Nat) (s : State) : State :=
  modBreach bp (fun b => { b with
    mode := full, detected := pass, latent := latent, inst := inst, reaction := ns % 2 ^ 32, cycle := s.cyc.number
    runs := sat 16 (b.runs + 1), fails := if pass then b.fails else sat 32 (b.fails + 1) }) s

/-- The reaction time of a run: open when nothing was detected. -/
def reactionOf (t : Option Nat) (s : State) : Nat × State :=
  match t with | some n => (n, s) | none => takeFree s

/-- BREACH_RESULT (R565, R573). -/
def breachResult (bp : Nat) (pass : Bool) (s : State) : State :=
  emit 0x6101 bp s (cause := bp) (flags := b2n pass) (value := ((breachAt s bp).reaction : Int))

/-! ### Class BREACH -/

/-- Breach point record. -/
def breachRec (bp : Nat) : Rec :=
  { len := 20
    flds := lift (breachAt · bp) (modBreach bp) [
      roB 0 0 (·.mode), roB 0 1 (·.detected), roB 0 2 (·.latent), roF 2 0 16 (·.inst), roF 4 0 32 (·.reaction),
      roF 8 0 48 (·.cycle), roF 14 0 16 (·.runs), roF 16 0 32 (·.fails)] }

/-- A run of the breach point waits for its boundary or its result. -/
def runPending (s : State) (bp : Nat) : Bool :=
  s.saf.runs.any (fun r => decide (r.bp = bp)) ||
  s.cyc.staged.any (fun x => decide (x.cls = 0x61) && (match x.op with | .act 1 a => decide (leAt a 0 1 = bp) | _ => false))

/-- Checks of RUN (R564). -/
def runCheck (s : State) (a : List Byte) : Status :=
  let bp := leAt a 0 1
  if escOf bp = none ∨ 1 < leAt a 1 1 then .eRange
  else if detUnit bp (leAt a 2 2) = none then .eHandle
  else if runPending s bp then .eBusy
  else if leAt a 1 1 = 1 ∧ bp ∈ fullBarred ∧ s.saf.inForce = false then .eState
  else .ok

/-- Class BREACH (R431, R439, R564). -/
def breachClass : ClassSpec :=
  { code := 0x61
    ranges := detectorTable.map (fun e => (e.1, 1))
    record := fun i part => if part = 0 ∧ i < 256 then some (breachRec i) else none
    verbs := [1, 2, 3, 4, 5, 6]
    events := 1
    acts := [{ code := 1, cyc := true, argOk := fun n => decide (n = 4)
               auth := fun _ p _ _ => decide (p = 0)
               check := fun s _ _ a => runCheck s a
               run := fun _ _ a s => modSaf (fun v => { v with runs := v.runs ++
                 [{ bp := leAt a 0 1, full := decide (leAt a 1 1 = 1), inst := leAt a 2 2, count := (detAt s (leAt a 0 1)).count }] }) s }] }

/-! ### Meanings -/

/-- BREACH_RUN (R564). -/
def execBreachRun (r : Req) (s : State) : Out := .next (cmdAct breachClass 1 r s)

/-- BREACH_RESULT_WINDOW_END (R563, R565, R572): `reaction` is the time from injection to the reaction stage when
the detection came in time. A genuine detection in a FULL run masks the run, which fails. -/
def execBreachResultWindowEnd (bp : Nat) (reaction : Option Nat) (s : State) : Out :=
  guardUnit (escOf bp).isSome (
    match s.saf.runs.find? (fun r => decide (r.bp = bp)) with
    | none => s
    | some r =>
      let s := modSaf (fun v => { v with runs := v.runs.erase r }) s
      let masked := r.full && decide ((detAt s bp).count ≠ r.count)
      let pass := reaction.isSome && !masked
      let (ns, s) := reactionOf reaction s
      let s := breachResult bp pass (breachRecord bp r.inst r.full false pass ns s)
      if r.full && pass then fullReaction r s else s)

/-- LATENT_TEST_RUN (R565): a PROBE run of one instance, and when it fails its repetition; `first` and `second`
are their reaction times. A point with a commanded run pending is skipped. -/
def execLatentTestRun (bp inst : Nat) (first second : Option Nat) (s : State) : Out :=
  guardUnit ((escOf bp).isSome && (detUnit bp inst).isSome) (
    if runPending s bp ∨ s.fv.fw = false then s
    else
      let (t1, s) := reactionOf first s
      let s := breachRecord bp inst false true first.isSome t1 s
      let done := fun (s : State) => modDet bp (fun d => { d with latentFail := false, latentCycle := s.cyc.number }) s
      if first.isSome then done s
      else
        let (t2, s) := reactionOf second s
        let s := breachRecord bp inst false true second.isSome t2 s
        if second.isSome then done s
        else
          let s := modDet bp (fun d => { d with
            latentFail := true, count := sat 32 (d.count + 1), latched := true, lastCycle := s.cyc.number }) s
          let s := modSaf (fun v => { v with latentFails := sat 32 (v.latentFails + 1) }) s
          let s := emit 0x6001 (0x100 + bp) s (cause := bp) (flags := 3) (value := s.tide.counter % 2 ^ 47)
          let s := faultFall (breachResult bp false s)
          if (detAt s bp).escalate && decide (bp ≠ 0x019) then safeRequest (causeBit bp) bp s else s)

end Sys2Proof.Machine
end

