-- ==== Sys2Proof/Machine/Catalogue.lean ====
section
/-! DEFINITION. The classes of the catalogue's own records and of the pounds: SYS (R422, R432), CYCLE (R59-R62,
R434) and POUND (R446-R462), with their commands. -/
namespace Sys2Proof.Machine

/-! ### SYS -/

/-- Version of the firmware that runs (R432). -/
def fwVersion (s : State) : Nat × Nat :=
  if s.sys.role = .barge then Config.bargeVersion
  else match s.img.running with
    | some b => ((bankHead s b).major, (bankHead s b).minor)
    | none => Config.romVersion

/-- Device record. -/
def deviceRec : Rec :=
  { len := 16
    flds := [
      liveF 0 0 2 (fun s => match s.sys.role with | .standalone => 0 | .tug => 1 | .barge => 2),
      liveF 1 0 6 (·.sys.tow),
      liveF 2 0 2 (fun s => if s.sys.role = .barge then (if s.tow.stranded then 2 else if s.tow.missed ≤ 1 then 1 else 0) else 0),
      liveF 3 0 8 (fun s => if s.sys.role = .tug then s.tow.found else 0),
      liveF 4 0 8 (fun s => (fwVersion s).1), liveF 5 0 8 (fun s => (fwVersion s).2),
      liveF 6 0 8 (fun s => if s.img.chartOn then s.img.chartVer.1 else 0),
      liveF 7 0 8 (fun s => if s.img.chartOn then s.img.chartVer.2 else 0),
      liveF 8 0 48 (·.cyc.number)] }

/-- Transport counters of a pound (R422). -/
def transportRec (p : Nat) : Rec :=
  { len := 40, flds := (List.range 10).map (fun k => liveF (4 * k) 0 32 (fun s => tget ctr0 (pqAt s p).counters k)) }

/-- Class SYS. The counters of a pound are open to that pound and to pound 0 only. -/
def sysClass : ClassSpec :=
  { code := 0x01
    ranges := [(0, 1), (0x200, 32)]
    record := fun i part => if part ≠ 0 then none else if i = 0 then some deviceRec
      else if 0x200 ≤ i ∧ i < 0x220 then some (transportRec (i - 0x200)) else none
    verbs := [1, 3, 4, 6]
    events := 4
    open0 := fun _ p verb i => (decide (verb = 1) && decide (i = 0)) || (decide (verb = 1 ∨ verb = 3) && decide (i = 0x200 + p))
    shut := fun _ p verb i => decide (verb = 1 ∧ 0x200 ≤ i ∧ p ≠ 0 ∧ i ≠ 0x200 + p)
    acts := [{ code := 1, cyc := false, insts := fun i => decide (0x200 ≤ i), argOk := fun n => decide (n = 0)
               auth := fun _ p i _ => decide (p = 0) || decide (i = 0x200 + p)
               check := fun _ _ _ _ => .ok
               run := fun _ i _ => modPq (i - 0x200) (fun q => { q with counters := [] }) }] }

/-- SYS_CLEAR_COUNTERS (R422). -/
def execSysClearCounters (r : Req) (s : State) : Out := .next (cmdAct sysClass 1 r s)

/-! ### CYCLE -/

/-- Period of a code (R434), ns. -/
def periodOf (c : Nat) : Nat := 125000 * 2 ^ c

/-- A period written other than by a command, that is by a chart (R59): while the cycle timer stands it is the period at
once; while it runs, a change waits for the first multiple of both periods at least two cycles ahead. -/
def writePeriod (p : Nat) (s : State) : State :=
  if !s.cyc.running then modCyc (fun c => { c with period := p, length := p }) s
  else if p = s.cyc.period then modCyc (fun c => { c with change := none }) s
  else
    let m := max s.cyc.period p
    let n := (workNs s + 2 * s.cyc.period + m - 1) / m * m
    modCyc (fun c => { c with change := some { period := p, bound := n, cycle := n / p % 2 ^ 48, req := none } }) s

/-- Cycle record. -/
def cycleRec : Rec :=
  { len := 16
    flds := [
      ⟨0, 3, true, rng 0 4, fun s => periodCode s.cyc.period, fun n s => writePeriod (periodOf n) s⟩,
      liveF 0 3 3 (fun s => match s.cyc.change with | some c => periodCode c.period | none => 7),
      liveF 1 0 2 (fun s => match s.cyc.timer with | .phased => 0 | .slewing => 1 | .rephase => 2),
      liveF 2 0 8 (fun s => sat 8 s.cyc.overruns), liveF 4 0 48 (·.cyc.number),
      liveF 10 0 48 (fun s => match s.cyc.change with | some c => c.cycle | none => 0)] }

/-- A Paddle that switches: its duty, its duty now, or a duty that waits (R60). -/
def padActive (s : State) (i : Nat) : Bool :=
  let mid := fun d => decide (0 < d ∧ d < 0xFFFF)
  mid (padAt s i).cfg.duty || mid (padAt s i).now || mid (padMerged s i).duty

/-- The state once the SETs that wait for their boundary have taken effect (R60, R61): classes PADDLE, BRIDGE, DIN, LIN,
BASIN and CORE. -/
def withWaiting (s : State) : State :=
  withStaged 0x31 coreRecord (withStaged 0x25 basinRecord (withStaged 0x21 linRecord (withStaged 0x14 dinRecord
    (withStaged 0x13 bridgeRecord (withStaged 0x12 padClass.record s)))))

/-- Everything that counts lock cycles is legal at period `p` (R60, R61, R181). The slot table a core has
before any is set breaks R467 at every period, and is left out. The Sluice's budget (R43) suffices by R43 for the largest
harness table that a chart may have, so its bullet of R61 refuses no period. -/
def legalAt (s : State) (p : Nat) : Bool :=
  (List.range 76).all (fun i => !padActive s i ||
    [(padAt s i).cfg, padMerged s i].all (fun c => padFreqOk i { c with duty := 1 } p &&
      (match bridgeOf s i with | some (b, _) => !(brAt s b).rippleEn || rippleOk c p | none => true))) &&
  (List.range 8).all (fun c => linSlotsOk s c p) &&
  (List.range 4).all (fun l => [(logicalAt s l).set, (logicalAt s l).live].all (fun t =>
    decide (t = {}) || slotTableOk s l t p)) &&
  gatesFit s p && wetOk s p &&
  (List.range 76).all (fun i => !(typeOf s i).valid || (coefOk s p i && stableOk s p i))

/-- Period `p` keeps everything legal, as it stands and with the SETs that wait (R60, R61). -/
def periodFits (s : State) (p : Nat) : Bool := legalAt s p && legalAt (withWaiting s) p

/-- The pending change takes effect at the coming boundary (R59): its nominal boundary is the nearest. -/
def changeNext (s : State) (c : PeriodChange) : Bool :=
  decide ((workNs s + toBoundary s + s.cyc.period / 2) / s.cyc.period * s.cyc.period = c.bound)

/-- Checks of a CYCLE SET (R59-R61). -/
def cycleCheck (s : State) (_p _i _part : Nat) (ws : List (Nat × Nat)) : Status :=
  if !named ws 0 then .ok
  else
    let p := periodOf (wouldBe ws 0 0)
    match s.cyc.change with
    | some c =>
      if p = c.period then .ok
      else if p ≠ s.cyc.period ∧ !periodFits s p then .eRange
      else if s.cyc.pastCutoff ∧ changeNext s c = true then .eState
      else .ok
    | none => if p = s.cyc.period ∨ periodFits s p = true then .ok else .eRange

/-- Barges a period change concerns (R62). -/
def runningBarges (s : State) : List Nat :=
  if s.sys.role = .tug then (List.range' 1 63).filter (fun a => decide ((bargeAt s a).state = 3)) else []

/-- The SET of a change that ends is answered (R59). -/
def endChange (st : Status) (s : State) : State :=
  match s.cyc.change with
  | none => s
  | some c =>
    let s := modCyc (fun y => { y with change := none }) s
    match c.req with
    | some r => answer 0x02 2 r st none (if st = .ok then encodeRec cycleRec s else []) s
    | none => s

/-- The tug's own SET of the period for barge `a`. -/
def periodReq (a code cycle : Nat) : Req :=
  { pound := 0, tow := a, payload := leBytes 8 0x1000000000 ++ leBytes 10 code ++ leBytes 6 cycle }

/-- The same SET leaves for every running barge (R62). It spans the record, and its `pending_cycle` names the first
cycle at the new period, so that every device changes at the same boundary (DESIGN CHOICE: the spec gives the tug's own
SET no form). -/
def relayPeriod (code cycle : Nat) (s : State) : State :=
  (runningBarges s).foldl (fun s a =>
    relaySend a 0x02 2 (periodReq a code cycle) true none s) s

/-- The boundary of a change to period `p` (R59): the first multiple of both periods at least two cycles ahead; on a
barge, the one its tug names (R62). -/
def changeBound (r : Req) (p : Nat) (s : State) : Nat :=
  if s.sys.role = .barge then leAt r.payload 18 6 * p
  else
    let m := max s.cyc.period p
    (workNs s + 2 * s.cyc.period + m - 1) / m * m

/-- A change of period begins to wait for its boundary (R59). A barge confirms at acceptance (R62). -/
def beginChange (r : Req) (p : Nat) (s : State) : State :=
  let n := changeBound r p s
  let k := n / p % 2 ^ 48
  let s := relayPeriod (periodCode p) k s
  let w : PeriodChange :=
    { period := p, bound := n, cycle := k, req := if s.sys.role = .barge then none else some r, confirm := runningBarges s }
  let s := modCyc (fun c => { c with change := some w }) s
  if s.sys.role = .barge then answer 0x02 2 r .ok (some k) (encodeRec cycleRec s) s else s

/-- A SET of `period` is answered without the effective-cycle prefix (R59). -/
def answerSame (r : Req) (s : State) : State := answer 0x02 2 r .ok none (encodeRec cycleRec s) s

/-- The pending change is dropped; the requests `reqs` that this answers (R59) are answered at once, or once every
barge has dropped it too (R62). -/
def dropChange (c : PeriodChange) (reqs : List Req) (s : State) : State :=
  let s := modCyc (fun y => { y with change := none }) s
  if runningBarges s = [] then reqs.foldl (fun s r => answerSame r s) s
  else modCyc (fun y => { y with ended := y.ended ++ [{ bound := c.bound, confirm := runningBarges s, reqs := reqs }] }) s

/-- A SET that names `period` (R59): it begins, cancels or replaces a change, or changes nothing. -/
def cycleHeld (r : Req) (_part : Nat) (ws : List (Nat × Nat)) (s : State) : Option State :=
  if !named ws 0 then none
  else
    let p := periodOf (wouldBe ws 0 0)
    some (match s.cyc.change with
    | none => if p = s.cyc.period then answerSame r s else beginChange r p s
    | some c =>
      if p = c.period then answerSame r s
      else if p = s.cyc.period then dropChange c (c.req.toList ++ [r]) (relayPeriod (periodCode p) 0 s)
      else beginChange r p (dropChange c c.req.toList s))

/-- Class CYCLE. -/
def cycleClass : ClassSpec :=
  { code := 0x02
    ranges := [(0, 1)]
    record := fun i part => if i = 0 ∧ part = 0 then some cycleRec else none
    verbs := [1, 2, 4]
    events := 4
    askAll := true
    setCheck := cycleCheck
    held := cycleHeld }

/-- CYCLE_SET (R59-R62, R434). -/
def execCycleSet (r : Req) (s : State) : Out := .next (cmdSet cycleClass r s)

/-! ### POUND -/

/-- Code of a pound's state. -/
def poundCode : PoundState → Nat
  | .absent => 0 | .stopped => 1 | .running => 2 | .resetting => 3 | .removed => 4

/-- Pound record (R454). -/
def poundRec0 (p : Nat) : Rec :=
  { len := 48
    flds := lift (poundAt · p) (modPound p) [
      rwF 0 0 3 (·.kind) (fun n x => { x with kind := n }) (rng 0 4),
      rwF 1 0 5 (·.func) (fun n x => { x with func := n }),
      roF 2 0 3 (fun x => poundCode x.state),
      chF 2 3 1 (fun x => b2n x.central) (fun n x => { x with central := decide (n = 1) }),
      rwB 2 4 (·.onReset) (fun v x => { x with onReset := v }),
      rwF 4 0 16 (·.cmdSlots) (fun n x => { x with cmdSlots := n }) (rng 1 64),
      rwF 6 0 16 (·.evtQueue) (fun n x => { x with evtQueue := n }) (rng 2 1024),
      rwF 8 0 16 (·.evtRate) (fun n x => { x with evtRate := n }) (rng 1 4096),
      rwF 10 0 8 (·.foldMax) (fun n x => { x with foldMax := n }) (rng 1 128),
      rwF 11 0 3 (fun x => x.keySlots / 256) (fun n x => { x with keySlots := n * 256 + x.keySlots % 256 }),
      rwF 12 0 16 (·.rxCells) (fun n x => { x with rxCells := n }) (rng 0 32768),
      rwF 14 0 16 (·.txCells) (fun n x => { x with txCells := n }) (rng 18 32768),
      rwF 16 0 8 (·.sramUnits) (fun n x => { x with sramUnits := n }) (rng 0 120),
      rwF 17 0 8 (fun x => x.keySlots % 256) (fun n x => { x with keySlots := x.keySlots / 256 * 256 + n }),
      rwF 18 0 16 (·.storeUnits) (fun n x => { x with storeUnits := n }) (rng 0 928),
      rwF 20 0 16 (·.ddrMib) (fun n x => { x with ddrMib := n }) (rng 0 4096),
      chF 24 0 32 (·.sramBase) (fun n x => { x with sramBase := n }),
      chF 28 0 32 (·.storeBase) (fun n x => { x with storeBase := n }),
      chF 32 0 48 (·.ddrBase) (fun n x => { x with ddrBase := n }),
      roF 40 0 48 (·.resetCycle), roF 46 0 8 (·.reason), roF 47 0 8 (·.resets)] }

/-- A field of entry `k` of an object list. -/
def objF (p k byte bit w : Nat) (get : ObjEntry → Nat) (set : Nat → ObjEntry → ObjEntry) : Fld :=
  ⟨8 * (8 * k + byte) + bit, w, true, fun _ => true, fun s => get (tget obj0 (poundAt s p).objs k),
    fun n => modPound p (fun x => { x with objs := tmod obj0 k (set n) x.objs })⟩

/-- Object list (R455). -/
def poundRec1 (p : Nat) : Rec :=
  { len := 512
    flds := (List.range 64).flatMap (fun k => [
      objF p k 0 0 32 (·.first) (fun n e => { e with first := n }),
      objF p k 4 0 16 (·.count) (fun n e => { e with count := n }),
      objF p k 6 0 1 (fun e => b2n e.own) (fun n e => { e with own := decide (n = 1) })]) }

def poundRecord (p part : Nat) : Option Rec :=
  if 32 ≤ p then none else if part = 0 then some (poundRec0 p) else if part = 1 then some (poundRec1 p) else none

/-- The classes with records a chart sets, all but POUND (R431). -/
def plainClasses : List ClassSpec :=
  [sysClass, cycleClass, timeClass, chanClass, wireClass, padClass, brClass, dinClass, foutClass, ainClass, tpClass,
   canClass, linClass, nmClass, routeClass, portClass, basinClass, streamClass, coreClass, towClass, lightClass, keyClass,
   safeClass, breachClass, pondClass, powerClass]

/-- The instance exists in the class (R455). -/
def objExists (cls inst : Nat) : Bool :=
  (decide (cls = 0x30) && decide (inst < 32)) || (decide (cls = 0x80) && decide (inst < 2)) || (decide (cls = 0x81) && decide (inst < 2)) ||
  plainClasses.any (fun k => decide (k.code = cls) && k.has inst)

/-- The object's own record carries its owner (R450): time domains, CAN schedule entries, LIN frame entries and
routes. -/
def ownerField (h : Nat) : Bool :=
  let c := handleCls h
  let i := h % 2 ^ 18
  (decide (c = 0x03) && rng 1 8 i) || (decide (c = 0x20) && rng 0x2000 0x22FF i) ||
  (decide (c = 0x21) && rng 0x2000 0x21FF i) || (decide (c = 0x23) && decide (i < 0x4000))

/-- Two entries would own one object. -/
def bothOwn (a b : ObjEntry) : Bool :=
  a.own && b.own && (List.range' (max a.first b.first) (min (a.first + a.count) (b.first + b.count) - max a.first b.first)).any
    (fun h => !ownerField h)

/-- Entries in use of an object list. -/
def entriesOf (s : State) (p : Nat) : List ObjEntry :=
  ((List.range 64).map (fun k => tget obj0 (poundAt s p).objs k)).filter (fun e => decide (e.count ≠ 0))

/-- Checks of an object list (R307, R455). -/
def listCheck (s : State) (p : Nat) (ws : List (Nat × Nat)) : Status :=
  let t := asSet 0x30 poundRecord p 1 ws s
  let es := entriesOf t p
  if es.any (fun e => decide (2 ^ 18 < e.first % 2 ^ 18 + e.count) ||
      (List.range' (e.first % 2 ^ 18) e.count).any (fun i => !objExists (handleCls e.first) i)) then .eHandle
  else if breaksRoutes s t then .eRange
  else if ((List.range 32).filter (fun q => decide (q ≠ p))).any (fun q =>
      (entriesOf t q).any (fun b => es.any (fun a => bothOwn a b))) then .eState
  else .ok

/-- The endpoint a binding names exists (R446). -/
def endpointOk (kind func : Nat) : Bool :=
  decide (kind = 0 ∨ ((kind = 1 ∨ kind = 4) ∧ func < 32) ∨ (kind = 2 ∧ func < 4) ∨ (kind = 3 ∧ func = 0))

/-- The endpoint is bound to another pound; without a chart pound 0 has the SPI slave too (R446, R447). -/
def bound (s : State) (p kind func : Nat) : Bool :=
  (List.range 32).any (fun q => decide (q ≠ p ∧ (poundAt s q).kind = kind ∧ (poundAt s q).func = func) && pThere s q) ||
  (decide (kind = 3 ∧ p ≠ 0) && s.fv.chipPound0)

/-- Sum of a quantity over the pounds. -/
def poundSum (s : State) (f : Pound → Nat) : Nat := (List.range 32).foldl (fun n q => n + f (poundAt s q)) 0

/-- Checks of a pound record (R451, R453, R454). -/
def poundCheck0 (s : State) (p : Nat) (ws : List (Nat × Nat)) : Status :=
  let t := writeFlds (poundRec0 p) ws s
  let x := poundAt t p
  let old := poundAt s p
  let mem := [128, 144, 160].any (named ws)
  let bind := named ws 0 || named ws 8
  let idle := decide (old.state = .removed ∨ old.state = .absent)
  if !endpointOk x.kind x.func || (decide (x.kind ≠ 4) && decide (x.sramUnits ≠ 0 ∨ x.storeUnits ≠ 0 ∨ x.ddrMib ≠ 0)) ||
      decide (1024 < x.keySlots) then .eRange
  else if mem && !(idle || decide (old.state = .stopped)) then .eState
  else if bind && (!idle || (decide (x.kind ≠ 0) && bound s p x.kind x.func)) then .eState
  else if 120 < poundSum t (·.sramUnits) ∨ 928 < poundSum t (·.storeUnits) ∨ 960 < poundSum t (·.keySlots) ∨
      (poundSum t (·.ddrMib) ≠ poundSum s (·.ddrMib) ∧ s.sys.ddrMib - s.sys.ovfMib < poundSum t (·.ddrMib)) then .eBusy
  else .ok

/-- A memory share of `new` units that changes gets a place of its own in its range of the map (R34, R38, R453): where
in the `total` units from `lo`, the spec leaves open. -/
def placeShare (old new lo unit total : Nat) (base : Nat) (s : State) : Nat × State :=
  if old = new then (base, s) else if new = 0 then (0, s)
  else let (f, s) := takeFree s
       (lo + f % (total - new + 1) * unit, s)

/-- POUND_SHARE for each queue or rate quantity that changed (R460). -/
def shareEvents (p : Nat) (old new : Pound) (s : State) : State :=
  ([(old.cmdSlots, new.cmdSlots), (old.evtQueue, new.evtQueue), (old.evtRate, new.evtRate), (old.foldMax, new.foldMax),
    (old.rxCells, new.rxCells), (old.txCells, new.txCells)].zipIdx).foldl (fun s e =>
      if e.1.1 = e.1.2 then s else emit 0x3002 p s (cause := e.2) (value := (e.1.2 : Int)) (dest := some 0)) s

/-- A binding takes effect (R454, R457 step 5). -/
def bindPound (p : Nat) (s : State) : State :=
  modPound p (fun x => { x with state :=
    if x.kind = 0 then .absent else if x.kind = 2 ∨ x.kind = 3 then .running else .stopped }) s

/-- What follows from a SET of the pound record. -/
def poundAfter (s0 : State) (p part : Nat) (ws : List (Nat × Nat)) (s : State) : State :=
  if part ≠ 0 then s
  else
    let old := poundAt s0 p
    let new := poundAt s p
    let (a, s) := placeShare old.sramUnits new.sramUnits 0x10000000 65536 128 new.sramBase s
    let (b, s) := placeShare old.storeUnits new.storeUnits 0x31400000 4096 928 new.storeBase s
    let (c, s) := placeShare old.ddrMib new.ddrMib 0x1000000000 1048576 (s.sys.ddrMib - s.sys.ovfMib) new.ddrBase s
    let s := modPound p (fun x => { x with sramBase := a, storeBase := b, ddrBase := c }) s
    let s := if named ws 0 || named ws 8 then bindPound p s else s
    shareEvents p old new s

/-- RESET and REMOVE name a pound that exists. -/
def poundLive (s : State) (p : Nat) : Status := if pThere s p then .ok else .eState

/-- Class POUND. A pound reads its own record and resets itself whatever its object list says (R454, R456). -/
def poundClass : ClassSpec :=
  { code := 0x30
    ranges := [(0, 32)]
    record := poundRecord
    verbs := [1, 2, 3, 4, 5, 6]
    events := 2
    setCheck := fun s _ p part ws => if part = 1 then listCheck s p ws else poundCheck0 s p ws
    setCyc := fun _ part => decide (part = 1)
    after := poundAfter
    open0 := fun _ p verb i => decide ((verb = 1 ∨ verb = 3) ∧ i = p)
    shut := fun _ p verb i => decide (verb = 1 ∧ p ≠ 0 ∧ i ≠ p)
    acts := [
      { code := 1, cyc := false, argOk := fun n => decide (n = 0)
        auth := fun _ p i _ => decide (p = 0) || decide (p = i)
        check := fun s _ i _ => poundLive s i
        run := fun p i _ => startReset i (if p = i then 1 else 2) },
      { code := 2, cyc := false, argOk := fun n => decide (n = 0)
        auth := fun _ p _ _ => decide (p = 0)
        check := fun s _ i _ => if i = 0 then .eState else poundLive s i
        run := fun _ i _ => startReset i 6 }] }

/-- POUND_SET (R451-R455, R460). -/
def execPoundSet (r : Req) (s : State) : Out := .next (cmdSet poundClass r s)
/-- POUND_RESET (R456, R457). -/
def execPoundReset (r : Req) (s : State) : Out := .next (cmdAct poundClass 1 r s)
/-- POUND_REMOVE (R458). -/
def execPoundRemove (r : Req) (s : State) : Out := .next (cmdAct poundClass 2 r s)

end Sys2Proof.Machine
end

