-- ==== Sys2Proof/Machine/Images.lean ====
section
/-! DEFINITION. Images and charts (R595-R612): headers and checks, key changes, activation, trials and the
Lock-through handover, chart commits, and the classes IMAGE and CHART. -/
namespace Sys2Proof.Machine

/-! ### Checks of an image or chart (R595, R596, R608) -/

/-- The `blocks` field. -/
def blockCount (s : State) (base : Nat) : Nat := leNat (memBytes s.mem (base + 16) 4)

/-- Block `k`. -/
def blockBytes (s : State) (base k : Nat) : List Byte := memBytes s.mem (base + 4096 * k) 4096

/-- SHA-384 (log entry 61). -/
def sha384 (b : List Byte) : Nat := Config.cipher 5 1 0 b

/-- What the signature covers: `n` blocks, the signature itself taken as zero. -/
def signedBytes (s : State) (base n : Nat) : List Byte :=
  memBytes s.mem base 4000 ++ List.replicate 96 0 ++ memBytes s.mem (base + 4096) (4096 * (n - 1))

/-- The signature holds under `key_sel`, whose slot must be ACTIVE (R596, R597). -/
def sigHolds (s : State) (base n : Nat) : Bool :=
  let sel := (headOf s base).keySel
  decide (sel = 3 ∨ sel = 4) && decide ((keyAt s sel).state = 1) &&
  sigOk (keyAt s sel) (memBytes s.mem (base + 4000) 96) (beBytes 48 (sha384 (signedBytes s base n)))

/-- `magic` and `format`. -/
def marked (s : State) (base magic : Nat) : Bool :=
  decide (leNat (memBytes s.mem base 4) = magic ∧ leNat (memBytes s.mem (base + 4) 1) = 1)

/-- First block and bytes of component `k`. -/
def compAt (s : State) (base k : Nat) : Nat × Nat :=
  (leNat (memBytes s.mem (base + 32 + 16 * k) 4), leNat (memBytes s.mem (base + 36 + 16 * k) 4))

/-- The bytes of component `k`. -/
def compBytes (s : State) (base k : Nat) : List Byte :=
  let c := compAt s base k
  memBytes s.mem (base + 4096 * c.1) c.2

/-- `inst_key`. -/
def instKey (s : State) (base : Nat) : List Byte := memBytes s.mem (base + 112) 96

/-- An `install` is refused (R597): a retired key, the signing key, or no entry left for the key it retires. -/
def installRefused (s : State) (base : Nat) : Bool :=
  decide (64 ≤ s.light.retired.length) || decide (sha384 (instKey s base) ∈ s.light.retired) ||
  decide (instKey s base = pointOf (keyAt s (headOf s base).keySel))

/-- The header of an image keeps R596. -/
def imageHeadOk (s : State) (base : Nat) : Bool :=
  let h := headOf s base
  let n := blockCount s base
  marked s base 0x4A5A3634 && decide (3 ≤ n ∧ n ≤ 2048) &&
  (List.range 5).all (fun k => let c := compAt s base k; decide (c.2 = 0 ∨ 4096 * c.1 + c.2 ≤ 4096 * n)) &&
  (!h.retire3 || decide (h.keySel = 4)) && (!h.retire4 || decide (h.keySel = 3)) &&
  !(h.install && (h.retire3 || h.retire4)) && !(h.install && installRefused s base)

/-- The first of the blocks `from` to `n - 1` whose CRC-32C differs from its table entry at `entry`. -/
def firstBad (s : State) (base : Nat) (entry : Nat → Nat) (start n : Nat) : Option Nat :=
  (List.range' start (n - start)).find? (fun k =>
    decide (crc32c (blockBytes s base k) ≠ leNat (memBytes s.mem (base + entry k) 4)))

/-- Checking every block and the signature of an image: none, the first failing block, or 0xFFFFFFFF for the
signature (R596, R599). -/
def verifyImage (s : State) (b : Nat) : Option Nat :=
  let base := bankBase b
  let n := blockCount s base
  if n < 3 ∨ 2048 < n then some 0xFFFFFFFF
  else match firstBad s base (fun k => 4096 + 4 * k) 3 n with
    | some k => some k
    | none => if imageHeadOk s base && sigHolds s base n then none else some 0xFFFFFFFF

/-- A chart's blocks and signature hold, or the Lighthouse's record vouches for a migrated one (R608, R610). -/
def chartSound (s : State) (k : Nat) : Bool :=
  let base := slotBase k
  let n := blockCount s base
  (slotImgAt s k).digest ||
  (marked s base 0x4A5A4348 && decide (2 ≤ n ∧ n ≤ 256) &&
   decide (leNat (memBytes s.mem (base + 6) 1) % 4 = 0) &&
   (firstBad s base (fun k => 1024 + 4 * (k - 1)) 1 n).isNone && sigHolds s base n)

/-- Firmware with header `h` takes a chart of the version directly (R608). -/
def takesChart (h : ImgHead) (v : Nat × Nat) : Bool := decide (v.1 = h.chMajor ∧ v.2 ≤ h.chMinor)

/-- It takes the chart after migration (R608, R610). -/
def migratesChart (h : ImgHead) (v : Nat × Nat) : Bool := decide (h.migrate ≤ v.1 ∧ v.1 < h.chMajor)

/-- The header of the firmware that runs. -/
def runHead (s : State) : ImgHead := match s.img.running with | some b => bankHead s b | none => {}

/-- Version of the chart in a slot. -/
def slotVer (s : State) (k : Nat) : Nat × Nat := ((slotImgAt s k).head.major, (slotImgAt s k).head.minor)

/-! ### What a chart holds (R13, R594, R608) -/

/-- The classes whose records a chart sets. -/
def chartClasses : List ClassSpec := plainClasses ++ [poundClass]

/-- The class of a code. -/
def chartClass (c : Nat) : Option ClassSpec := chartClasses.find? (fun k => decide (k.code = c))

/-- A parameter that stands in no record takes the chart's value. -/
def setParam (p : ChartParam) (i v : Nat) (s : State) : State :=
  let iface := fun (f : IpIface → IpIface) => modFv (fun x => { x with ifaces := tmod iface0 i f x.ifaces }) s
  let dest := fun (f : EthDest → EthDest) => modPq i (fun q => { q with
    dest := some (f (q.dest.getD { ip := 0, port := 0 })), destFixed := true }) s
  match p with
  | .ddrMib => modSys (fun x => { x with ddrDecl := v }) s
  | .xspiMib => modSys (fun x => { x with xspiDecl := v }) s
  | .overflowMib => modSys (fun x => { x with ovfDecl := v }) s
  | .ppsOn => modTide (fun x => { x with ppsOn := decide (v = 1) }) s
  | .priority1 => modTide (fun x => { x with priority1 := v }) s
  | .clockClass => modTide (fun x => { x with clockClass := v }) s
  | .externalPorts => modTide (fun x => { x with extPorts := decide (v = 1) }) s
  | .isolationTime => modTp (fun x => { x with isoTime := v }) s
  | .isolatedTowpath => modTp (fun x => { x with isoTowpath := decide (v = 1) }) s
  | .typeXl => modAq (fun x => { x with typeXl := v }) s
  | .typeStatus => modAq (fun x => { x with typeSt := v }) s
  | .nmGroup => modNmc i (fun x => { x with group := v }) s
  | .startLevel => modPwr (fun x => { x with startLevel := min 5 v }) s
  | .ifaceOn => iface (fun x => { x with en := decide (v = 1) })
  | .ifaceV6 => iface (fun x => { x with v6 := decide (v = 1) })
  | .ifaceAddr => iface (fun x => { x with addr := v })
  | .ifaceVid => iface (fun x => { x with vid := v })
  | .ifacePort => iface (fun x => { x with port := v })
  | .ethKey => modPq i (fun q => { q with ethKey := some v }) s
  | .destAddr => dest (fun d => { d with ip := v })
  | .destPort => dest (fun d => { d with port := v })
  | .bargeId => modBarge i (fun b => { b with expect := v }) s
  | .swapDrift => modPond (fun x => { x with swapDrift := v }) s
  | .budgetLimit => modBudget i (fun x => { x with limit := v }) s
  | .budgetPeak => modBudget i (fun x => { x with peak := v }) s
  | .budgetTau => modBudget i (fun x => { x with tau := v }) s
  | .budgetMargin => modBudget i (fun x => { x with margin := v }) s
  | .budgetRestore => modBudget i (fun x => { x with tRestore := v }) s
  | .fullCool => modSlu (fun x => { x with coolMin := v }) s
  | .startMargin => modSlu (fun x => { x with margin := v }) s
  | .clusterLimit => modCluster i (fun x => { x with limit := v }) s
  | .clusterHyst => modCluster i (fun x => { x with hyst := v }) s
  | .spiLines => modPq i (fun q => { q with spi := { q.spi with lines := v } }) s
  | .gptpRole => modGport i (fun x => { x with role := v }) s
  | .gptpTwoStep => modGport i (fun x => { x with twoStep := decide (v = 1) }) s
  | .gptpLogSync => modGport i (fun x => { x with logSync := toS 8 v }) s
  | .gptpLogPdelay => modGport i (fun x => { x with logPdelay := toS 8 v }) s
  | .gptpPdelay => modGport i (fun x => { x with pdelayOn := decide (v = 1) }) s
  | .gptpTimeout => modGport i (fun x => { x with rcptTimeout := v }) s
  | .gptpNrrManaged => modGport i (fun x => { x with nrrManaged := decide (v = 1) }) s
  | .gptpNrr => modGport i (fun x => { x with nrr := toS 48 v }) s
  | .gptpDelayManaged => modGport i (fun x => { x with delayManaged := decide (v = 1) }) s
  | .gptpDelay => modGport i (fun x => { x with delay := v }) s
  | .gptpThresh => modGport i (fun x => { x with thresh := v }) s

/-- The values a parameter takes (R34, R66, R74, R117, R138, R151, R221, R316, R410, R415, R566, R577); a chart with
another is refused. Where no range is stated any value passes. The dissipation budget's peak is fixed, and its
limit is in W; the lowest L is a quarter of the default, 10 W of dissipation. -/
def paramOk (p : ChartParam) (i v : Nat) : Bool :=
  match p with
  | .ddrMib | .overflowMib => rng 0 4096 v
  | .xspiMib => rng 0 512 v
  | .ppsOn | .externalPorts | .isolatedTowpath | .ifaceOn | .ifaceV6 | .gptpTwoStep | .gptpPdelay | .gptpNrrManaged => rng 0 1 v
  | .gptpDelayManaged => if 8 ≤ i then decide (v = 1) else rng 0 1 v
  | .priority1 | .clockClass => rng 0 255 v
  | .isolationTime => rng 50 60000 v
  | .typeXl | .typeStatus => rng 0x78 0x7F v
  | .startLevel => rng 0 5 v
  | .ifaceVid => rng 0 4094 v
  | .ifacePort | .destPort => rng 1 65535 v
  | .swapDrift => rng 500 5000 v
  | .budgetLimit => rng (if i = 0 then 50 else if i = 1 then 40 else if i = 2 then 90 else 10)
      (if i = 0 then 200 else if i = 1 then 160 else if i = 2 then 360 else 38) v
  | .budgetPeak => if i = 3 then decide (v = 125) else rng 100 150 v
  | .budgetTau => rng 100 10000 v
  | .budgetMargin => rng 2 30 v
  | .budgetRestore => rng 100 10000 v
  | .fullCool => rng 1 120 v
  | .startMargin => rng 0 60 v
  | .clusterLimit => rng 120 165 v
  | .clusterHyst => rng 2 30 v
  | .spiLines => decide (v = 1 ∨ v = 4)
  | .gptpRole => rng 0 3 v
  | .gptpLogSync => decide (-5 ≤ toS 8 v ∧ toS 8 v ≤ 0 ∧ v < 256)
  | .gptpLogPdelay => decide (-3 ≤ toS 8 v ∧ toS 8 v ≤ 3 ∧ v < 256)
  | .gptpTimeout => rng 2 10 v
  | .gptpThresh => rng 0 10000 v
  | .nmGroup | .ifaceAddr | .ethKey | .destAddr | .bargeId | .gptpNrr | .gptpDelay => true

/-- A parameter that the chart leaves out holds its default (R13). -/
def clearParam (p : ChartParam) (i : Nat) (s : State) : State :=
  let b0 := budget0 i
  let g0 : GPort := gport0 i
  match p with
  | .ddrMib | .xspiMib | .overflowMib | .ppsOn | .isolatedTowpath | .nmGroup | .startLevel | .ifaceOn | .ifaceV6 | .ifaceAddr
  | .ifaceVid | .bargeId | .gptpTwoStep | .gptpNrrManaged | .gptpNrr => setParam p i 0 s
  | .priority1 => setParam p i 255 s
  | .clockClass => setParam p i 248 s
  | .externalPorts => setParam p i 1 s
  | .isolationTime => setParam p i 500 s
  | .typeXl => setParam p i 0x7C s
  | .typeStatus => setParam p i 0x7D s
  | .ifacePort => setParam p i 47124 s
  | .ethKey => modPq i (fun q => { q with ethKey := none }) s
  | .destAddr | .destPort => modPq i (fun q => { q with dest := none, destFixed := false }) s
  | .swapDrift => setParam p i 2000 s
  | .budgetLimit => setParam p i b0.limit s
  | .budgetPeak => setParam p i b0.peak s
  | .budgetTau => setParam p i b0.tau s
  | .budgetMargin => setParam p i b0.margin s
  | .budgetRestore => setParam p i b0.tRestore s
  | .fullCool => setParam p i 30 s
  | .startMargin => setParam p i 20 s
  | .clusterLimit => setParam p i 160 s
  | .clusterHyst => setParam p i 10 s
  | .spiLines => setParam p i 4 s
  | .gptpRole => modGport i (fun x => { x with role := g0.role }) s
  | .gptpLogSync => modGport i (fun x => { x with logSync := g0.logSync }) s
  | .gptpLogPdelay => modGport i (fun x => { x with logPdelay := g0.logPdelay }) s
  | .gptpPdelay => modGport i (fun x => { x with pdelayOn := g0.pdelayOn }) s
  | .gptpTimeout => modGport i (fun x => { x with rcptTimeout := g0.rcptTimeout }) s
  | .gptpDelayManaged => modGport i (fun x => { x with delayManaged := g0.delayManaged }) s
  | .gptpDelay => modGport i (fun x => { x with delay := g0.delay }) s
  | .gptpThresh => modGport i (fun x => { x with thresh := g0.thresh }) s

/-- The parameters that a list of items sets. -/
def itemParams (l : List ChartItem) : List (ChartParam × Nat) :=
  l.filterMap (fun x => match x with | .param p i _ => some (p, i) | _ => none)

/-- Parameters of the old chart that the new one leaves out return to their defaults (R13). -/
def clearParams (old new : List ChartItem) (s : State) : State :=
  ((itemParams old).filter (fun x => !decide (x ∈ itemParams new))).foldl (fun s x => clearParam x.1 x.2 s) s

/-- Fields written as a SET's would take effect, whoever may set them. -/
def chartFields (c i part : Nat) (ws : List (Nat × Nat)) (s : State) : State :=
  match chartClass c with
  | some k => applySet k i part ws s
  | none => s

/-- One item of this device's chart takes effect; the Towpath table goes its own way (R227). -/
def loadItem (x : ChartItem) (s : State) : State :=
  match x with
  | .record c i part ws => chartFields c i part ws s
  | .param p i v => setParam p i v s
  | .towpath _ | .barge _ _ | .bargeTable _ _ => s

/-- Work that raises no event and detects nothing. -/
def quiet (f : State → State) (s : State) : State :=
  modSaf (fun v => { v with mute := s.saf.mute }) (f (modSaf (fun v => { v with mute := List.range 256 }) s))

/-- The Towpath table among a chart's items. -/
def itemTable (l : List ChartItem) : Option TpTable :=
  l.findSome? (fun x => match x with | .towpath t => some t | _ => none)

/-- Fields of a record that exist, with values they take. -/
def itemOk (c i part : Nat) (ws : List (Nat × Nat)) : Bool :=
  match chartClass c with
  | some k => k.has i && (match k.record i part with
    | some rc => ws.all (fun w => match rc.flds.find? (fun f => decide (f.pos = w.1)) with
        | some f => decide (w.2 < 2 ^ f.w) && f.ok w.2
        | none => false)
    | none => false)
  | none => false

/-- Handle of an instance of device `a` of the tow (R392). -/
def handleAt (a c i : Nat) : Nat := a * 2 ^ 26 + c * 2 ^ 18 + i

/-- The first item that a rule of another chapter refuses (R608, code 3), by the handle of its record: of this device,
or of the part that goes to a barge. -/
def badItem (s : State) (l : List ChartItem) : Option Nat :=
  l.findSome? (fun x => match x with
    | .record c i part ws => if itemOk c i part ws then none else some (handleOf s c i)
    | .towpath t => if tableChecked t then none else some (handleOf s 0x17 0)
    | .param p i v => if paramOk p i v then none else some 0
    | .barge a (.record c i part ws) => if itemOk c i part ws then none else some (handleAt a c i)
    | .barge a (.param p i v) => if paramOk p i v then none else some (handleAt a 0 0)
    | .bargeTable a t => if tableChecked t then none else some (handleAt a 0x17 0)
    | .barge _ _ => none)

/-- The device at reset with the items of a chart in force, for the rules that look at a whole chart. -/
def chartState (l : List ChartItem) : State := quiet (fun s => l.foldl (fun s x => loadItem x s) s) State.reset

/-- The classes whose own range rules hold for a chart as for a SET: BRIDGE, AIN, CAN, LIN, NM, ROUTE, PORT, BASIN,
STREAM and CORE. -/
def ruleClasses : List Nat := [0x13, 0x16, 0x20, 0x21, 0x22, 0x23, 0x24, 0x25, 0x26, 0x31]

/-- Two entries of the forwarding table that may not coexist (R363). -/
def fdbPair (t : State) : Option Nat :=
  (t.net.fdb.find? (fun e => t.net.fdb.any (fun f => decide (e.1 < f.1) && fdbClash e.2 f.2))).map (·.1)

/-- A route with a `POUND` destination that is neither a PCIE nor a PARTITION pound (R452). -/
def poundRoute (t : State) : Option Nat :=
  (t.aq.routes.find? (fun e => (e.2.dests.take e.2.ndest).any (fun d =>
    decide (d.kind = 4 ∧ (poundAt t d.target).kind ≠ 1 ∧ (poundAt t d.target).kind ≠ 4)))).map (·.1)

/-- The first record of a device's items that a rule over all of them refuses, by class and instance. -/
def ruleBad (l : List ChartItem) : Option (Nat × Nat) :=
  let t := chartState l
  match (List.range 76).find? (fun i => !wireFine t t.cyc.period i) with
  | some i => some (0x11, 0x200 + i)
  | none =>
    match l.findSome? (fun x => match x with
      | .record c i p ws => match chartClass c with
        | some k => if c ∈ ruleClasses ∧ k.setCheck t 0 i p ws = .eRange then some (c, i) else none
        | none => none
      | _ => none) with
    | some h => some h
    | none =>
      if !routesFine t then some (0x23, 0)
      else if !extFine t then some (0x23, 0x4000)
      else match fdbPair t, poundRoute t with
        | some e, _ => some (0x25, e)
        | none, some i => some (0x23, i)
        | none, none => if legalAt t t.cyc.period then none else some (0x02, 0)

/-- The items of a chart that go to barge `a`. -/
def partOf (l : List ChartItem) (a : Nat) : List ChartItem :=
  l.filterMap (fun x => match x with | .barge b i => if b = a then some i else none | _ => none)

/-- The first record that a rule over the whole chart refuses (R142, R307, R608, code 3), this device's or a barge's. -/
def badRule (s : State) (l : List ChartItem) : Option Nat :=
  match ruleBad l with
  | some h => some (handleOf s h.1 h.2)
  | none => (List.range 64).findSome? (fun a =>
      if (partOf l a).isEmpty then none else (ruleBad (partOf l a)).map (fun h => handleAt a h.1 h.2))

/-- The refusal code of R608 for the chart in slot `k` under firmware `h`, with the first offending handle;
`live` for a commit that takes effect without a start, `bad` what the compiler's rules find. -/
def chartCode (h : ImgHead) (k : Nat) (live : Bool) (bad : Option (Nat × Nat)) (s : State) : Option (Nat × Nat) :=
  let v := slotVer s k
  if !chartSound s k then some (1, 0)
  else if !(takesChart h v || (!live && migratesChart h v)) then some (2, 0)
  else match badItem s (slotImgAt s k).items with
    | some hd => some (3, hd)
    | none => match badRule s (slotImgAt s k).items with
      | some hd => some (3, hd)
      | none => bad

/-- A chart is refused (R608). -/
def chartRefused (k : Nat) (c : Nat × Nat) (s : State) : State :=
  emit 0x8102 k s (cause := k) (value := (c.1 + c.2 * 65536 : Nat))

/-! ### Differences between charts (R609) -/

/-- Fields a list of items sets in a record. -/
def itemFields (l : List ChartItem) (c i part : Nat) : List (Nat × Nat) :=
  l.flatMap (fun x => match x with
    | .record c' i' p' ws => if c' = c ∧ i' = i ∧ p' = part then ws else []
    | _ => [])

/-- The value a field has without a chart. -/
def fieldDefault (c i part pos : Nat) : Nat :=
  match chartClass c with
  | some k => match k.record i part with
    | some rc => match rc.flds.find? (fun f => decide (f.pos = pos)) with
      | some f => f.get State.reset % 2 ^ f.w
      | none => 0
    | none => 0
  | none => 0

/-- The records in which two charts differ: class, instance, part, and the fields with their new values. A
field the new chart leaves out returns to its default (R13). -/
def chartDiff (old new : List ChartItem) : List (Nat × Nat × Nat × List (Nat × Nat)) :=
  (new.filterMap (fun x => match x with
    | .record c i p ws => some (c, i, p, ws.filter (fun w => !(decide (w ∈ itemFields old c i p))))
    | _ => none) ++
   old.filterMap (fun x => match x with
    | .record c i p ws => some (c, i, p, (ws.filter (fun w =>
        !((itemFields new c i p).any (fun z => decide (z.1 = w.1))))).map (fun w => (w.1, fieldDefault c i p w.1)))
    | _ => none)).filter (fun d => decide (d.2.2.2 ≠ []))

/-- Items that are no record of this device. -/
def otherItems (l : List ChartItem) : List ChartItem :=
  l.filter (fun x => match x with | .record .. => false | .towpath _ => false | _ => true)

/-- A pound's binding or memory quantities, by bit position (R609). -/
def poundFixed (pos : Nat) : Bool := decide (pos ∈ [0, 8, 128, 144, 160, 192, 224, 256])

/-- A difference that no live commit may make (R609): what a SET could not change now, a pound's binding or
memory, the tow declaration, the period. -/
def liveBarred (s : State) (old new : List ChartItem) : Option Nat :=
  if otherItems old ≠ otherItems new then some 0
  else (chartDiff old new).findSome? (fun d =>
    let (c, i, p, ws) := d
    let ok : Bool := match chartClass c with
      | some k => match k.record i p with
        | some rc =>
          ws.all (fun w => rc.flds.any (fun f => decide (f.pos = w.1) && f.rw) && k.setAuth s 0 i p w.1) &&
          decide (k.setCheck s 0 i p ws = .ok)
        | none => false
      | none => false
    if !ok || decide (c = 0x02) || (decide (c = 0x30 ∧ p = 0) && ws.any (fun w => poundFixed w.1)) then
      some (handleOf s c i)
    else none)

/-! ### Key changes (R597) -/

/-- The key of a signing slot is retired: its hash is kept. -/
def rememberKey (k : Nat) (s : State) : State :=
  if (keyAt s k).state = 1 then
    modLight (fun l => { l with retired := (l.retired ++ [sha384 (pointOf (keyAt s k))]).take 64 }) s
  else s

/-- A signing slot has a new generation, which consumers observe (R537). -/
def signingGen (k : Nat) (s : State) : State :=
  revokeConsumers (emit 0x5102 k s (value := (keyAt s k).gen))

/-- `retire_3` or `retire_4` of a committed image. -/
def retireSlot (k : Nat) (s : State) : State :=
  signingGen k (modKey k (fun r => { r with state := 3, gen := (r.gen + 1) % 2 ^ 32, mat := 0, pub := [] }) (rememberKey k s))

/-- `install` of a committed image: a P-384 public key with `use` VERIFY. -/
def installSlot (k : Nat) (p : List Byte) (s : State) : State :=
  signingGen k (modKey k (fun r => { key0 k with
    gen := (r.gen + 1) % 2 ^ 32, mat := beNat p, pub := p, madeCycle := s.cyc.number, seq := r.seq + 1 }) (rememberKey k s))

/-- The key changes of a committed bank, and whether there were any. -/
def keyChange (b : Nat) (s : State) : Bool × State :=
  let h := bankHead s b
  if h.retire3 then (true, retireSlot 3 s)
  else if h.retire4 then (true, retireSlot 4 s)
  else if h.install then (true, installSlot (7 - h.keySel) (instKey s (bankBase b)) s)
  else (false, s)

/-! ### Trials (R602) -/

/-- A migrated chart is committed (R610): the old one is the rollback chart. -/
def commitMigrated (s : State) : State :=
  if !s.img.boot.chartTrial then s
  else
    let k := s.img.boot.chart
    let s := writeBoot (fun r => { r with chartTrial := false }) s
    emit 0x8103 k (setSlotState k 3 (setSlotState (other k) 2 s)) (cause := k)

/-- The trial's bank is committed (R602). -/
def commitTrial (s : State) : State :=
  let b := s.img.boot.active
  let s := writeBoot (fun r => { r with trial := false, trialS := 0, minSec := (bankHead s b).secVer }) s
  let (ch, s) := keyChange b s
  let s := commitMigrated s
  let s := if (bankImgAt s (other b)).state = 3 then setBankState (other b) 2 s else s
  let s := modImg (fun i => { i with rollback := true }) (setBankState b 3 s)
  emit 0x8001 b s (cause := b) (flags := 8 + flag 5 ch) (value := (s.img.first : Int))

/-- Bank `b` goes on trial for its trial seconds (R602). -/
def beginTrial (b secs : Nat) (s : State) : State :=
  modImg (fun i => { i with trialNs := 0 })
    (setBankState b 4 (writeBoot (fun r => { r with active := b, trial := true, trialS := secs }) s))

/-- A cycle of running time passes on a trial (R602). DESIGN CHOICE: `trial_s` counts down without a new copy of the
boot record. -/
def trialRuns (s : State) : State :=
  if s.img.boot.trial && s.fv.started then
    modImg (fun i =>
      let n := i.trialNs + s.cyc.length
      { i with trialNs := n % nsPerSec, boot := { i.boot with trialS := i.boot.trialS - n / nsPerSec } }) s
  else s

/-! ### Activation (R600-R607) -/

/-- The tug's own command to every running barge. -/
def tellBarges (verb act : Nat) (a : List Byte) (s : State) : State :=
  (runningBarges s).foldl (fun s b =>
    relaySend b 0x80 verb { pound := 0, tow := b, payload := leBytes 4 act ++ a } true none s) s

/-- The argument of ACTIVATE: bank, mode, trial seconds, high-water time in ns (R600). -/
def actMode (a : List Byte) : Nat := leAt a 1 1
def actTrial (a : List Byte) : Nat := if leAt a 2 2 = 0 then 60 else leAt a 2 2
def actTime (a : List Byte) : Nat := leAt a 4 6 * nsPerSec + leAt a 12 4

/-- The argument of ACTIVATE from its parts. -/
def actArg (bank mode trial time : Nat) : List Byte :=
  leBytes 1 bank ++ leBytes 1 mode ++ leBytes 2 trial ++ leBytes 6 (time / nsPerSec) ++ leBytes 2 0 ++
  leBytes 4 (time % nsPerSec)

/-- A high-water time out of range (R10, R606). -/
def timeBad (s : State) (a : List Byte) : Bool :=
  let t := actTime a
  let now := workNs s
  decide (leAt a 12 4 % 2000000 ≠ 0 ∨ nsPerSec ≤ leAt a 12 4 ∨ t < now + 100000000 ∨ now + 86400 * nsPerSec < t)

/-- An argument no activation takes. -/
def actBad (s : State) (a : List Byte) : Bool :=
  decide (1 < leAt a 0 1 ∨ 2 < actMode a ∨ (leAt a 2 2 ≠ 0 ∧ (leAt a 2 2 < 10 ∨ 3600 < leAt a 2 2)) ∨ leAt a 10 2 ≠ 0) ||
  (decide (actMode a = 2) && timeBad s a)

/-- The firmware in bank `b` can take over between two cycles (R603). -/
def lockFits (b : Nat) (s : State) : Bool :=
  let h := bankHead s b
  let r := runHead s
  let v := fwVersion s
  decide (h.ltMajor ≠ 0xFF) && decide (h.ltMajor < v.1 ∨ (h.ltMajor = v.1 ∧ h.ltMinor ≤ v.2)) &&
  decide (h.handoff = r.handoff ∧ h.sluice = r.sluice) && (!s.img.chartOn || takesChart h s.img.chartVer)

/-- R603's state of the device. -/
def lockState (s : State) : Bool :=
  !s.saf.inForce && !bitOf 0 s.tp.causes && !bitOf 2 s.tp.causes && decide (s.fv.devState = 1)

/-- Checks of an activation of bank `b` (R600, R603, R606). A barge takes its image from its tug. -/
def activateStatus (b : Nat) (a : List Byte) (s : State) : Status :=
  let h := bankHead s b
  if actBad s a then .eRange
  else if s.sys.role = .barge then (if s.img.act.isSome then .eBusy else .ok)
  else if s.img.act.isSome || s.img.boot.trial then .eBusy
  else if (bankImgAt s b).state ≠ 2 then .eState
  else if h.secVer < s.img.boot.minSec then .eVersion
  else if s.img.chartOn && !(takesChart h s.img.chartVer || migratesChart h s.img.chartVer) then .eVersion
  else if actMode a ≠ 0 ∧ lockFits b s = false then .eVersion
  else if actMode a = 1 ∧ lockState s = false then .eState
  else if (verifyImage s b).isSome then .eCheck
  else .ok

/-- The cycle that ends at the high-water time (R606). -/
def waterCycle (s : State) (t : Nat) : Nat := t / s.cyc.period - 1

/-- IMAGE_HIGH_WATER. -/
def emitWater (b t fl : Nat) (s : State) : State :=
  emit 0x8003 b s (cause := b) (flags := fl) (value := (waterCycle s t : Int))

/-- An activation begins: its command waits unless the device restarts, or is a barge, which confirms at once
(R600, R607). `revert` ends a trial. -/
def beginAct (r : Req) (verb b : Nat) (revert : Bool) (a : List Byte) (s : State) : State :=
  let mode := actMode a
  let now := decide (mode = 0) || decide (s.sys.role = .barge)
  let w : Activation :=
    { bank := b, mode := mode, trialS := actTrial a, time := if mode = 2 then actTime a else 0
      req := if now then none else some r, verb := verb, revert := revert
      confirm := if mode = 0 then [] else runningBarges s }
  let s := modImg (fun i => { i with act := some w }) s
  let s := if revert ∨ s.sys.role = .barge then s else setBankState b 6 s
  let s := if mode = 1 then setDevState 2 s else s
  let s := if mode = 0 then s else tellBarges 3 verb a s
  let s := if mode = 2 then emitWater b w.time 1 s else s
  if now then answer 0x80 3 r .ok none [] s else s

/-- The tug has every confirmation: it names the boundary (R607). -/
def nameWater (s : State) : State :=
  match s.img.act with
  | none => s
  | some a =>
    if a.mode ≠ 1 ∨ a.named = true ∨ a.confirm ≠ [] then s
    else
      let p := s.cyc.period
      let t := (workNs s + 2 * p + p - 1) / p * p
      tellBarges 3 3 (actArg a.bank 2 a.trialS t) (modImg (fun i => { i with act := some { a with time := t, named := true } }) s)

/-- The barge has confirmed (R607). -/
def confirmAct (b : Nat) (s : State) : State :=
  match s.img.act with
  | none => s
  | some a =>
    if b ∈ a.confirm then nameWater (modImg (fun i => { i with act := some { a with confirm := a.confirm.erase b } }) s) else s

/-- The activation is cancelled here and on every barge. -/
def cancelAll (st : Status) (s : State) : State :=
  match s.img.act with
  | none => s
  | some a =>
    let s := if a.mode = 0 then s else tellBarges 3 4 (leBytes 2 a.bank) s
    modImg (fun i => { i with shut := false }) (cancelAct st s)

/-- The cycle in progress is n of R604: preparation is complete and, for a high water, the cycle ends at T or
at the first boundary after it. -/
def actDue (s : State) (a : Activation) : Bool :=
  a.prepared && !a.handed &&
  (if a.mode = 1 ∧ a.named = false then decide (runningBarges s = [] ∧ a.confirm = [])
   else decide (a.time ≤ (workNs s + toBoundary s + s.cyc.period / 2) / s.cyc.period * s.cyc.period))

/-- The apply phase of a cycle: commands that waited are accepted again, and the cycle may be n (R604). -/
def applyAct (s : State) : State :=
  let s := modImg (fun i => { i with shut := false }) s
  match s.img.act with
  | some a => if a.mode ≠ 0 ∧ actDue s a = true then modImg (fun i => { i with act := some { a with due := true } }) s else s
  | none => s

/-- The cutoff of n: commands that arrive later wait (R604). -/
def cutoffAct (s : State) : State :=
  match s.img.act with
  | some a => if a.due then modImg (fun i => { i with shut := true }) s else s
  | none => s

/-- The hand-off block of n is written, or not (R604). -/
def sealAct (done : Bool) (s : State) : State :=
  match s.img.act with
  | some a => if a.due then modImg (fun i => { i with act := some { a with handoff := done } }) s else s
  | none => s

/-- Components 2 and 3 of the new bank differ from those that run (R603). -/
def laterParts (s : State) (b : Nat) : Bool :=
  match s.img.running with
  | some r => [2, 3].any (fun k => decide (compBytes s (bankBase b) k ≠ compBytes s (bankBase r) k))
  | none => false

/-- The boundary ending n (R604): the Lockkeeper is reset into the new chamber and the Sluice switches banks. An
overrun, or an unfinished hand-off block, moves the handover on, at most 8 times. -/
def handOverAct (overran : Bool) (s : State) : State :=
  match s.img.act with
  | none => s
  | some a =>
    if !a.due then s
    else if overran ∨ a.handoff = false then
      let s := modImg (fun i => { i with shut := false, act := some { a with due := false, handoff := false, moves := a.moves + 1 } }) s
      if 8 < a.moves + 1 then cancelAll .eTimeout s else s
    else
      let s := if a.mode = 2 ∨ a.named = true then
          emitWater a.bank a.time (flag 2 (decide ((servoAt s 0).state ≠ .locked))) s else s
      modImg (fun i => { i with
        act := some { a with due := false, handed := true }, first := (s.cyc.number + 1) % 2 ^ 48 }) s

/-- The boundary ending n + 1 (R604): the handover has ended. -/
def endHandover (s : State) : State :=
  match s.img.act with
  | none => s
  | some a =>
    if !a.handed then s
    else
      let fl := 4 + flag 1 a.revert + flag 4 (laterParts s a.bank)
      let s := setDevState 1 (modImg (fun i => { i with act := none }) s)
      let s := if s.sys.role = .barge then s
        else
          let b := a.bank
          let s := modImg (fun i => { i with running := some b }) s
          if a.revert then
            let s := writeBoot (fun r => { r with active := b, trial := false, trialS := 0 }) s
            setBankState b 3 (setBankState (other b) 2 s)
          else beginTrial b a.trialS s
      let s := emit 0x8001 a.bank s (cause := a.bank) (flags := fl) (value := (s.img.first : Int))
      let s := match a.req with | some r => answer 0x80 3 r .ok none [] s | none => s
      runDeferred s

/-- Consecutive failed starts of a bank. -/
def triesOf (s : State) (b : Nat) : Nat := if b = 0 then s.img.boot.triesA else s.img.boot.triesB

/-- A bank the boot ROM may start (R598). -/
def bankValid (s : State) (b : Nat) : Bool :=
  decide ((bankImgAt s b).state ∈ [2, 3, 4]) && decide (s.img.boot.minSec ≤ (bankHead s b).secVer)

/-- The boot ROM's choice (R598): a bank, the xSPI recovery image, or the ROM's own recovery. A barge runs nothing
of its own (R30). -/
def bootChoose (s : State) : State :=
  if s.sys.role = .barge then modImg (fun i => { i with running := none, recovery := false }) s
  else
    let back := s.img.boot.trial && decide (1 ≤ triesOf s s.img.boot.active)
    let s := if back then revertTrial s else s
    let a := s.img.boot.active
    let b := if !back ∧ 3 ≤ triesOf s a then other a else a
    if bankValid s b && decide (triesOf s b < 3) then modImg (fun i => { i with running := some b, recovery := false }) s
    else
      let x := (bankHead s 2).recovery && (verifyImage s 2).isNone
      modImg (fun i => { i with running := if x then some 2 else none, recovery := true }) s

/-- A restart that an activation or a rollback asked for begins at the boundary (R600, R602). -/
def restartAct (s : State) : State :=
  match s.img.act with
  | none => s
  | some a =>
    if a.mode ≠ 0 then s
    else
      let s := modImg (fun i => { i with act := none }) s
      let s := if a.revert then revertTrial s
        else beginTrial a.bank a.trialS s
      bootChoose (lkRestart s)

/-! ### Chart commits (R609) -/

/-- Status of a refusal code. -/
def codeStatus (c : Nat) : Status := if c = 1 then .eCheck else if c = 2 then .eVersion else if c = 5 then .eState else .eRange

/-- The items of the chart in force. -/
def forceItems (s : State) : List ChartItem := if s.img.chartOn then (slotImgAt s s.img.boot.chart).items else []

/-- The refusal code of a commit of slot `k` in a mode (R608, R609). -/
def commitCode (k mode : Nat) (bad : Option (Nat × Nat)) (s : State) : Option (Nat × Nat) :=
  match chartCode (runHead s) k (decide (mode ≠ 0)) bad s with
  | some c => some c
  | none => if mode = 0 then none else (liveBarred s (forceItems s) (slotImgAt s k).items).map (fun h => (5, h))

/-- A slot comes into force; the one before it is the rollback chart (R609). -/
def takeSlot (k : Nat) (s : State) : State :=
  let was := s.img.boot.chart
  let s := if was ≠ k ∧ (slotImgAt s was).state = 3 then setSlotState was 2 s else s
  let s := writeBoot (fun r => { r with chart := k, chartTrial := false }) s
  modImg (fun i => { i with chartOn := true, chartVer := slotVer s k }) (setSlotState k 3 s)

/-- The Towpath table of a chart is written when the chart is committed (R227). -/
def commitTable (l : List ChartItem) (s : State) : State :=
  match itemTable l with
  | some t => writeTable t s
  | none => s

/-- A live commit takes effect: every changed record together (R609). -/
def liveCommit (k : Nat) (s : State) : State :=
  let old := forceItems s
  let new := (slotImgAt s k).items
  let s := (chartDiff old new).foldl (fun s d => chartFields d.1 d.2.1 d.2.2.1 d.2.2.2 s) s
  let s := commitTable new s
  emit 0x8103 k (takeSlot k s) (cause := k)

/-- A commit that waits for a boundary reaches it (R609, R611); it is checked by the firmware that runs. -/
def commitNow (c : Commit) (s : State) : State :=
  let s := modImg (fun i => { i with commit := none }) s
  let reply := fun (st : Status) (s : State) => match c.req with
    | some r => answer 0x81 3 r st (if st = .ok then some s.cyc.number else none) [] s
    | none => s
  let code := if (slotImgAt s c.slot).state ≠ 6 then some (1, 0)
    else commitCode c.slot c.mode none s
  match code with
  | some e => reply (codeStatus e.1) (chartRefused c.slot e (if (slotImgAt s c.slot).state = 6 then setSlotState c.slot 2 s else s))
  | none => reply .ok (liveCommit c.slot s)

/-- Chart commits at a boundary; `img` says that an image hands over there (R611). -/
def commitBoundary (img : Bool) (s : State) : State :=
  match s.img.commit with
  | none => s
  | some c =>
    if c.mode = 0 then s
    else if c.mode = 1 ∧ c.cycles ≠ 0 then modImg (fun i => { i with commit := some { c with cycles := c.cycles - 1 } }) s
    else if c.mode = 2 ∧ (workNs s + s.cyc.period / 2) / s.cyc.period * s.cyc.period < c.time then s
    else if img then s
    else commitNow c s

/-- Checks of COMMIT and ROLLBACK of slot `k` (R609). -/
def commitStatus (k : Nat) (a : List Byte) (bad : Option (Nat × Nat)) (s : State) : Status :=
  let mode := actMode a
  if 1 < k ∨ 2 < mode ∨ (mode = 2 ∧ timeBad s a = true) then .eRange
  else if s.img.commit.isSome then .eBusy
  else match commitCode k mode bad s with
    | some c => codeStatus c.1
    | none => .ok

/-- The chart is refused at its command. -/
def refuseChart (k : Nat) (a : List Byte) (bad : Option (Nat × Nat)) (s : State) : State :=
  if 1 < k ∨ 2 < actMode a ∨ (actMode a = 2 ∧ timeBad s a = true) ∨ s.img.commit.isSome = true then s
  else match commitCode k (actMode a) bad s with
    | some c => chartRefused k c (if c.1 = 1 then setSlotState k 5 s else s)
    | none => s

/-- A commit is accepted: it waits for its instant, its command with it when that is a boundary. A migrated chart
on trial is committed at once (R610). -/
def beginCommit (r : Req) (k : Nat) (a : List Byte) (s : State) : State :=
  if k = s.img.boot.chart ∧ s.img.boot.chartTrial = true then answer 0x81 3 r .ok none [] (commitMigrated s)
  else
    let mode := actMode a
    let c : Commit := { slot := k, mode := mode, cycles := 2, time := actTime a, req := if mode = 0 then none else some r }
    let s := setSlotState k 6 (modImg (fun i => { i with commit := some c }) s)
    if mode = 0 then answer 0x81 3 r .ok none [] s else s

/-! ### Classes -/

/-- Image record (R599). -/
def imageRec (b : Nat) : Rec :=
  { len := 24
    flds := [
      liveF 0 0 3 (fun s => (bankImgAt s b).state), liveF 1 0 8 (fun s => (bankHead s b).keySel),
      liveF 2 0 8 (fun s => (bankHead s b).major), liveF 3 0 8 (fun s => (bankHead s b).minor),
      liveF 4 0 16 (fun s => (bankHead s b).patch), liveF 8 0 32 (fun s => (bankHead s b).secVer),
      liveF 12 0 32 (fun s => (bankImgAt s b).fail), liveF 16 0 48 (fun s => (bankImgAt s b).cycle)] }

/-- WRITE of 2 KiB at unit `off` of the blocks at `base`. -/
def writeUnit (base off : Nat) (d : List Byte) (s : State) : State := storeBytes (base + 2048 * off) d s

/-- Checks of WRITE: `last` is the last unit (R599). -/
def writeStatus (st last : Nat) (a : List Byte) : Status :=
  if 1 < leAt a 0 1 ∨ leAt a 1 3 ≠ 0 then .eRange
  else if st = 3 ∨ st = 4 then .eState
  else if last < leAt a 4 4 then .eOversize
  else .ok

/-- What ROLLBACK does now: 0 nothing, 1 cancels, 2 reverts a trial, 3 activates the other bank (R602). -/
def rollbackCase (s : State) : Nat :=
  match s.img.act with
  | some a => if a.handed then 0 else 1
  | none => if s.img.boot.trial then 2 else if s.img.rollback && decide (s.sys.role ≠ .barge) then 3 else 0

/-- The argument of ROLLBACK as that of ACTIVATE. -/
def rollArg (a : List Byte) : List Byte := a ++ List.replicate (16 - a.length) 0

/-- Checks of ROLLBACK. -/
def rollbackStatus (s : State) (a : List Byte) : Status :=
  let b := other s.img.boot.active
  if actBad s (rollArg a) then .eRange
  else match rollbackCase s with
    | 1 => .ok
    | 2 => if actMode a = 1 ∧ lockState s = false then .eState
           else if actMode a ≠ 0 ∧ lockFits b s = false then .eVersion
           else .ok
    | 3 => activateStatus b (rollArg a) s
    | _ => .eState

/-- ROLLBACK accepted. -/
def rollback (r : Req) (s : State) : State :=
  let a := rollArg (r.payload.drop 4)
  let b := other s.img.boot.active
  match rollbackCase s with
  | 1 => answer 0x80 3 r .ok none [] (cancelAll .eAborted s)
  | 2 => beginAct r 4 b true a s
  | _ => beginAct r 4 b false a s

/-- Class IMAGE (R439, R599-R606). -/
def imageClass : ClassSpec :=
  { code := 0x80
    ranges := [(0, 3)]
    record := fun i part => if part = 0 ∧ i < 3 then some (imageRec i) else none
    verbs := [1, 2, 3, 4, 5, 6]
    events := 3
    acts := [
      { code := 1, cyc := false, argOk := fun n => decide (n = 2056)
        auth := fun _ p _ _ => decide (p = 0)
        check := fun s _ _ a => writeStatus (bankImgAt s (leAt a 0 1)).state 4095 a
        run := fun _ _ a s => setBankState (leAt a 0 1) 1 (writeUnit (bankBase (leAt a 0 1)) (leAt a 4 4) (a.drop 8) s) },
      { code := 2, cyc := false, argOk := fun n => decide (n = 1)
        auth := fun _ p _ _ => decide (p = 0)
        check := fun s _ _ a =>
          if 1 < leAt a 0 1 then .eRange else if (verifyImage s (leAt a 0 1)).isSome then .eCheck else .ok
        run := fun _ _ a s =>
          let b := leAt a 0 1
          let s := modBankImg b (fun x => { x with fail := 0 }) s
          if (bankImgAt s b).state ∈ [3, 4, 6] then s else setBankState b 2 s
        refuse := fun st a s =>
          let b := leAt a 0 1
          if st ≠ .eCheck then s
          else
            let f := (verifyImage s b).getD 0
            emit 0x8002 b (setBankState b 5 (modBankImg b (fun x => { x with fail := f }) s)) (cause := b) (value := (f : Int)) },
      { code := 3, cyc := false, argOk := fun n => decide (n = 16)
        auth := fun _ p _ _ => decide (p = 0)
        check := fun s _ _ a => activateStatus (leAt a 0 1) a s
        run := fun _ _ _ s => s
        held := fun r s =>
          let a := r.payload.drop 4
          some (beginAct r 3 (leAt a 0 1) false a s) },
      { code := 4, cyc := false, argOk := fun n => decide (n = 2 ∨ n = 16)
        auth := fun _ p _ _ => decide (p = 0)
        check := fun s _ _ a => rollbackStatus s a
        run := fun _ _ _ s => s
        held := fun r s => some (rollback r s) }] }

/-- The bytes of a chart slot. -/
def slotBytes (s : State) (k : Nat) : List Byte := memBytes s.mem (slotBase k) (4096 * min 256 (blockCount s (slotBase k)))

/-- The slot's records are read from its blocks; a migrated chart's stand as they were written. -/
def readSlot (k : Nat) (s : State) : State :=
  if (slotImgAt s k).digest then s else modSlotImg k (fun x => { x with items := Config.chartItems (slotBytes s k) }) s

/-- What the compiler's rules refuse in a slot. -/
def slotBad (s : State) (k : Nat) : Option (Nat × Nat) :=
  if (slotImgAt s k).digest then none else Config.chartRefusal (slotBytes s k)

/-- Class CHART (R439, R609). -/
def chartSpec : ClassSpec :=
  { code := 0x81
    ranges := [(0, 2)]
    record := fun _ _ => none
    verbs := [1, 2, 3, 4, 5, 6]
    events := 3
    acts := [
      { code := 1, cyc := false, argOk := fun n => decide (n = 2056)
        auth := fun _ p _ _ => decide (p = 0)
        check := fun s _ _ a => writeStatus (slotImgAt s (leAt a 0 1)).state 511 a
        run := fun _ _ a s =>
          let k := leAt a 0 1
          let s := setSlotState k 1 (writeUnit (slotBase k) (leAt a 4 4) (a.drop 8) s)
          modSlotImg k (fun x => { x with head := headOf s (slotBase k), items := [], digest := false }) s },
      { code := 2, cyc := false, argOk := fun n => decide (n = 2 ∨ n = 16)
        auth := fun _ p _ _ => decide (p = 0)
        check := fun s _ _ a => let a := rollArg a; let k := leAt a 0 1; commitStatus k a (slotBad s k) (readSlot k s)
        run := fun _ _ _ s => s
        refuse := fun _ a s => let a := rollArg a; let k := leAt a 0 1; refuseChart k a (slotBad s k) (readSlot k s)
        held := fun r s =>
          let a := rollArg (r.payload.drop 4)
          some (beginCommit r (leAt a 0 1) a (readSlot (leAt a 0 1) s)) },
      { code := 3, cyc := false, argOk := fun n => decide (n = 2 ∨ n = 16)
        auth := fun _ p _ _ => decide (p = 0)
        check := fun s _ _ a =>
          let k := other s.img.boot.chart
          if leAt a 0 1 ≠ 0 then .eRange
          else if (slotImgAt s k).state ≠ 2 ∨ s.img.boot.chartTrial = true then .eState
          else commitStatus k (rollArg a) none s
        run := fun _ _ _ s => s
        held := fun r s => some (beginCommit r (other s.img.boot.chart) (rollArg (r.payload.drop 4)) s) }] }

/-! ### Meanings -/

/-- IMAGE_WRITE (R599). -/
def execImageWrite (r : Req) (s : State) : Out := .next (cmdAct imageClass 1 r s)
/-- IMAGE_VERIFY (R595, R596, R599). -/
def execImageVerify (r : Req) (s : State) : Out := .next (cmdAct imageClass 2 r s)
/-- IMAGE_ACTIVATE (R600, R601, R603, R606, R607). -/
def execImageActivate (r : Req) (s : State) : Out := .next (cmdAct imageClass 3 r s)
/-- IMAGE_ROLLBACK (R602, R611). -/
def execImageRollback (r : Req) (s : State) : Out := .next (cmdAct imageClass 4 r s)

/-- TRIAL_END (R597, R602, R610): the trial seconds have run out. -/
def execTrialEnd (s : State) : Out :=
  .next (if s.img.boot.trial && s.fv.started && decide (s.img.boot.trialS = 0) then commitTrial s else s)

/-- LOCK_THROUGH_PREPARED (R604): the new firmware and microcode are copied, every block checked. For a high water
`dev_state` reads 2 from here. -/
def execLockThroughPrepared (s : State) : Out :=
  .next (match s.img.act with
    | none => s
    | some a =>
      if a.mode = 0 ∨ a.prepared = true then s
      else if s.sys.role ≠ .barge ∧ (verifyImage s a.bank).isSome = true then cancelAll .eCheck s
      else setDevState 2 (modImg (fun i => { i with act := some { a with prepared := true } }) s))

/-- READY_FLAG_TIMEOUT (R605, R607): the Lockkeeper returns to its old chamber; commands wait for the apply phase of
n + 2. -/
def execReadyFlagTimeout (s : State) : Out :=
  .next (match s.img.act with
    | none => s
    | some a =>
      if !a.handed then s
      else
        let s := setDevState 1 (modImg (fun i => { i with act := none, shut := true }) s)
        let s := if (bankImgAt s a.bank).state = 6 then setBankState a.bank 2 s else s
        let s := tellBarges 3 4 (actArg a.bank a.mode 0 0) s
        let s := emit 0x8001 a.bank s (cause := a.bank) (flags := 6) (value := ((s.cyc.number + 1) % 2 ^ 48 : Nat))
        let s := match a.req with | some r => answer 0x80 3 r .eTimeout none [] s | none => s
        runDeferred s)

/-- HIGH_WATER_CANCEL (R606, R607): at T - 2 P preparation, or a barge's confirmation, is missing. -/
def execHighWaterCancel (s : State) : Out :=
  .next (match s.img.act with
    | none => s
    | some a =>
      if a.mode = 0 ∨ (a.mode = 1 ∧ a.named = false) ∨ a.handed = true ∨ (a.prepared = true ∧ a.confirm = []) ∨
          workNs s + 2 * s.cyc.period < a.time then s
      else cancelAll .eTimeout s)

/-- CHART_WRITE (R609). -/
def execChartWrite (r : Req) (s : State) : Out := .next (cmdAct chartSpec 1 r s)
/-- CHART_COMMIT (R608, R609). -/
def execChartCommit (r : Req) (s : State) : Out := .next (cmdAct chartSpec 2 r s)
/-- CHART_ROLLBACK (R609). -/
def execChartRollback (r : Req) (s : State) : Out := .next (cmdAct chartSpec 3 r s)

end Sys2Proof.Machine
end

