-- ==== Sys2Proof/Machine/Start.lean ====
section
/-! DEFINITION. Starts (R586, R590-R594, R598): what a start, its firmware and its completion do, failed starts and
their retries, and the Lockkeeper's restart. -/
namespace Sys2Proof.Machine

/-! ### The start -/

/-- The cores' roles by the wear log (R463). -/
def assignCores (s : State) : State :=
  let cond := fun (k : Nat) => s.saf.pond.log.any (fun e => decide (e.kind = 4 ∧ e.unit = k ∧ e.what = 3))
  let bad := fun (k : Nat) => cond k || s.saf.pond.log.any (fun e => decide (e.kind = 4 ∧ e.unit = k ∧ e.what = 4))
  let good := (List.range 5).filter (fun k => !bad k)
  let s := (List.range 5).foldl (fun s k => modCore k (fun c =>
    if bad k then { c with role := if cond k then 2 else 3, logical := 7 }
    else if good.idxOf k < 4 then { c with role := 0, logical := good.idxOf k }
    else { c with role := 1, logical := 7 }) s) s
  modPond (fun p => { p with coreSpare := if good.length = 5 then 0 else if p.coreSpare = 0 then 1 else p.coreSpare }) s

/-- Towline ports of a tug or barge train (R496). -/
def trainPorts (s : State) : State :=
  [0, 1].foldl (fun s x =>
    if (tpAt s x).en ∧ (tpAt s x).link = 0 then modTpt x (fun t => { t with link := 3 }) s else s) s

/-- The PLLs have locked: the Tide clock and the cycle timer start (R63). A barge's cycle timer waits for its
tug's time. -/
def clocksOn (s : State) : State :=
  let s := modTide (fun t => { t with on := true }) (modPwr (fun p => { p with pll := true }) s)
  if s.sys.role = .barge then s else startTimer s

/-- The keeper domain leaves reset (R586): role, Towpath cause START, with LIMP when RST_N is
released with LIMP_N low (R634: the one exception to R222, DEDUCED), wake record, image choice, clocks. -/
def startKeeper (src det : Nat) (tugSel ref : Bool) (s : State) : State :=
  let p := s.pwr
  let s := { s with
    sys := { s.sys with rstN := true, tugSelN := tugSel, role := if tugSel then .barge else .standalone }
    fio := { clsHold := s.fio.clsHold }
    lin := {}
    nm := { log := s.nm.log }
    tide := {}
    pwr := { pwrEn := true, keeper := true, source := src, detail := det, sleepPath := p.sleepPath
             sleepS := if p.slept then (p.age - p.sleptAt) / nsPerSec else p.sleepS
             starts := sat 32 (p.starts + 1), cause := none, lastWake := p.lastWake, rails := p.rails, lastArm := p.lastArm
             age := p.age, deafAt := if p.slept then p.age else p.deafAt, reasonAt := p.reasonAt } }
  let s := useCopies s
  let s := modTp (fun t => { t with causes := 1 + flag 1 (decide (src = 1) && !s.sys.limpN), stepAt := s.pwr.age }) s
  let s := emit 0x1701 0 (faultFall s) (cause := s.tp.causes)
  let s := emit 0x7003 0x20 s (cause := src) (value := det)
  let s := bootChoose (assignCores s)
  let s := if tugSel then trainPorts s else s
  if ref then clocksOn s else s

/-- The start that is due: its source and detail. A group back above `V_OFF` is a cause
of its own while a wake reason holds (R575, R586). -/
def startDue (s : State) : Option (Nat × Nat) :=
  let p := s.pwr
  if p.keeper || decide (0 ∈ p.rails) || decide (3 ∈ p.rails) ||
      decide ((grpAt s 0).band = .belowOff ∧ (grpAt s 1).band = .belowOff) then none
  else match p.cause with
    | some c => some c
    | none => if !p.slept && wakeReason s then some (2, 0) else none

/-! ### Failed starts (R592, R593) -/

/-- A start fails: the keeper domain is held in reset but for the Towpath and the field I/O block, and the boot
record says so; a trial ends by its revert (R602). -/
def failStart (cause : Nat) (s : State) : State :=
  let bank := if s.img.recovery then none else s.img.running
  let s := writeBoot (fun r => { r with
    triesA := if bank = some 0 then sat 8 (r.triesA + 1) else r.triesA
    triesB := if bank = some 1 then sat 8 (r.triesB + 1) else r.triesB
    backoff := sat 8 (r.backoff + 1), lastFail := cause, fails := sat 32 (r.fails + 1) }) s
  let s := revertTrial (modFv (fun v => { v with fw := false, started := false }) s)
  let t := keeperDown s
  let t := { t with
    tp := s.tp, fio := s.fio, pow := s.pow, mot := s.mot
    saf := { t.saf with dets := s.saf.dets, faultN := s.saf.faultN, faultAt := s.saf.faultAt }
    fv := { t.fv with latched := s.fv.latched }
    sys := { t.sys with role := s.sys.role }
    pwr := { t.pwr with keeper := true }
    img := { t.img with held := true, heldAt := s.pwr.age } }
  tpSet 0 t

/-- A start is under way. -/
def starting (s : State) : Bool :=
  s.pwr.keeper && !s.fv.started && !s.img.held && decide (s.fv.devState = 0)

/-! ### The chart at a start (R13, R594, R608, R610) -/

/-- The slot whose chart the start takes: the one in force, or one committed for the next start; refused, it gives
way to the other slot when that holds a chart that is taken (R608). -/
def pickChart (s : State) : Option Nat × State :=
  let h := runHead s
  let k := match s.img.commit with | some c => if c.mode = 0 then c.slot else s.img.boot.chart | none => s.img.boot.chart
  if (slotImgAt s k).state = 0 then (none, s)
  else match chartCode h k false none s with
    | none => (some k, s)
    | some c =>
      let s := chartRefused k c s
      let o := other k
      if (slotImgAt s o).state ∈ [2, 3, 4, 6] ∧ (chartCode h o false none s).isNone = true then (some o, s) else (none, s)

/-- Firmware that needs it writes a migrated chart into the other slot and runs it on trial (R610). The migrated
chart keeps the records; which minor version it has is open. -/
def migrateChart (k : Nat) (s : State) : Nat × State :=
  let h := runHead s
  if takesChart h (slotVer s k) then (k, s)
  else
    let o := other k
    let x := slotImgAt s k
    let (n, s) := takeFree s
    let s := setSlotState o 4 (modSlotImg o (fun y => { y with
      items := x.items, digest := true, head := { x.head with major := h.chMajor, minor := n % (h.chMinor + 1) } }) s)
    let s := writeBoot (fun r => { r with chart := o, chartTrial := true }) s
    (o, emit 0x8101 o s (cause := o))

/-- The chart in slot `k` is in force; one committed for this start also brings its Towpath table (R227, R609). -/
def enforce (k : Nat) (s : State) : State :=
  let com := match s.img.commit with | some c => decide (c.mode = 0 ∧ c.slot = k) | none => false
  let s := match s.img.commit with | some c => if c.mode = 0 then modImg (fun i => { i with commit := none }) s else s | none => s
  let s := if com then emit 0x8103 k (commitTable (slotImgAt s k).items (takeSlot k s)) (cause := k)
    else if s.img.boot.chart = k then s else takeSlot k s
  let (k, s) := migrateChart k s
  modImg (fun i => { i with chartOn := true, chartVer := slotVer s k }) s

/-- Every chart-held record is loaded: Paddle settings at once, and the wire models run (R142, R594). -/
def loadRecords (l : List ChartItem) (s : State) : State :=
  let s := quiet (fun s =>
    let s := l.foldl (fun s x => loadItem x s) s
    respread ((List.range 76).foldl (fun s i => modPad i (fun p =>
      match p.pend with | some d => { p with cfg := d.cfg, pend := none } | none => p) s) s)) s
  let s := (List.range 76).foldl (fun s i => modWire i (fun w => { w with fallback := (adcAt s (adcOf i)).failed }) s) s
  modFv (fun v => { v with chipPound0 := false }) (modNet (fun n => { n with loaded := true }) (modSlu (fun v => { v with modelOn := true }) s))

/-- One external memory as probed (R38): what is mapped, and SYS_MEMORY when that is less than declared. -/
def probe (unit decl found : Nat) (s : State) : Nat × State :=
  let m := min decl found
  (m, if m < decl then emit 0x0104 0 s (cause := unit) (flags := b2n (decide (found = 0))) (value := (m * 1048576 : Nat)) else s)

/-- External memories are mapped; the overflow area is cut to fit (R38, R39). -/
def mapMemories (ddr xspi : Nat) (s : State) : State :=
  let (d, s) := probe 0 s.sys.ddrDecl ddr s
  let (x, s) := probe 1 s.sys.xspiDecl xspi s
  modSys (fun v => { v with ddrMib := d, xspiMib := x, ovfMib := min v.ovfDecl d }) s

/-! ### Stored state at a start (R138, R183, R326, R413) -/

/-- Authentication contexts resume (R326). -/
def resumeCtxs (s : State) : State :=
  s.aq.ctxs.foldl (fun s e => modCtx e.1 (fun c =>
    if c.mode = 2 ∨ (c.mode = 1 ∧ c.resume = 0) then { c with fv := c.stored + c.gap }
    else if c.mode = 1 then { c with fv := c.stored } else c) s) s

/-- Transport freshness resumes 4,096 above what the Lighthouse stored (R413). -/
def resumeFresh (s : State) : State :=
  (List.range 32).foldl (fun s p => modPq p (fun q =>
    if q.ethKey.isNone then q
    else { q with fresh := q.freshStore + 4096, floor := q.freshStore + 4096, bitmap := 0, txFresh := q.txStore + 4096 }) s) s

/-- The measurements of R545. The Towpath table's is that of its whole copy (DESIGN CHOICE; without a table it is
free). The boot record is not held as bytes: its digest is free. Every start appends its digests to the measurement log (R551). -/
def measure (s : State) : State :=
  let f := fun (s : State) => takeFree s
  let comp := fun (k : Nat) (s : State) => match s.img.running with
    | some b => (sha384 (compBytes s (bankBase b) k), s)
    | none => f s
  let table := fun (s : State) =>
    if s.tp.noTable then f s else (sha384 (memBytes s.mem (tpBase s.tp.copy) 0x8000), s)
  let chart := fun (s : State) =>
    if s.img.chartOn && s.sys.role != .barge && !(slotImgAt s s.img.boot.chart).digest then
      (sha384 (memBytes s.mem (slotBase s.img.boot.chart) (4096 * blockCount s (slotBase s.img.boot.chart))), s)
    else f s
  let (d0, s) := comp 0 s
  let (d1, s) := comp 1 s
  let (d2, s) := comp 2 s
  let (d3, s) := comp 3 s
  let (d4, s) := comp 4 s
  let (d5, s) := chart s
  let (d6, s) := table s
  let (d7, s) := f s
  let ds := [d0, d1, d2, d3, d4, d5, d6, d7]
  modLight (fun l => { l with
    start := ds, again := [], mismatch := false, log := l.log ++ ds.zipIdx.map (fun e => (e.2, e.1)) }) s

/-! ### Firmware -/

/-- Conditions latched while the firmware did not run are reported (R640). -/
def readLatches (s : State) : State :=
  let l := s.fv.latched
  let s := modFv (fun v => { v with latched := [] }) s
  let s := l.foldl (fun s e => raiseEvt { e with cycle := if e.cycle = noCycle then s.cyc.number else e.cycle } none s) s
  if s.tp.noTable then emit 0x1703 0 s else s

/-- A barge has been loaded by its tug (R29, R30, R517): the whole image set, each block checked, and its part of the
chart. -/
def bargeLoaded (s : State) : Bool :=
  s.tow.loaded && decide (s.tow.setSize ≠ 0) && (List.range s.tow.setSize).all (fun k => decide (k ∈ s.tow.gotBlocks)) &&
  s.tow.badBlocks.isEmpty

/-- The blocks of the components a start loads pass their checks (R590, R592). -/
def loadable (s : State) : Bool :=
  match s.img.running with
  | none => s.sys.role != .barge || bargeLoaded s
  | some b =>
    let base := bankBase b
    [0, 1, 2, 3].all (fun k =>
      let c := compAt s base k
      let n := (c.2 + 4095) / 4096
      decide (c.2 = 0) || (firstBad s base (fun k => 4096 + 4 * k) c.1 (c.1 + n)).isNone)

/-- Everything is loaded anew (R594). -/
def loadAll (ddr xspi : Nat) (s : State) : State :=
  let s :=
    if s.sys.role = .barge then
      modImg (fun i => { i with chartOn := true }) (loadRecords (slotImgAt s 0).items s)
    else if s.img.recovery then s
    else match pickChart s with
      | (none, s) => s
      | (some k, s) =>
        let s := enforce k s
        loadRecords (slotImgAt s s.img.boot.chart).items s
  let s := if s.sys.role ≠ .barge ∧ s.tow.expected ≠ 0 then trainPorts (modSys (fun v => { v with role := .tug }) s) else s
  let s := mapMemories ddr xspi s
  let s := resumeFresh (resumeCtxs (startPositions (startNodes (fun _ => none) s.pwr.sleepS s)))
  let s := if s.sys.role = .barge then modPound 0 (fun r => { r with kind := 0, state := .running }) s
    else if s.fv.chipPound0 then modPound 0 (fun r => { r with state := .running }) s else s
  ovfGate (modPwr (fun p => { p with
    vcoreEn := true, vcoreBar := false, clk := 0, change := some { target := p.startLevel, restore := true } }) s)

/-- From the items of one chart to another's: records and parameters that differ are loaded, what the new chart leaves
out returns to its default (R13). -/
def loadChanges (old new : List ChartItem) (s : State) : State :=
  quiet (fun s => (otherItems new).foldl (fun s x => loadItem x s) (clearParams old new
    ((chartDiff old new).foldl (fun s d => chartFields d.1 d.2.1 d.2.2.1 d.2.2.2 s) s))) s

/-- At a Lockkeeper restart only what differs is loaded (R591): a chart committed for the next start, or one that
the new firmware must migrate. -/
def loadDiff (s : State) : State :=
  if s.sys.role = .barge ∨ s.img.recovery = true then s
  else
    let old := forceItems s
    match pickChart s with
    | (none, s) => modImg (fun i => { i with chartOn := false }) (loadChanges old [] s)
    | (some k, s) =>
      let s := enforce k s
      loadChanges old (slotImgAt s s.img.boot.chart).items s

/-- The bank, the chart and the keys pass (R590, R596). -/
def verified (s : State) : Bool :=
  match s.img.running with
  | some b => (verifyImage s b).isNone
  | none => true

/-- The start is complete (R590, R593, R598, R602). -/
def completeStart (s : State) : State :=
  let rec_ := s.img.recovery
  let s := writeBoot (fun r => { r with
    triesA := if s.img.running = some 0 then 0 else r.triesA
    triesB := if s.img.running = some 1 then 0 else r.triesB
    backoff := 0, starts := sat 32 (r.starts + 1) }) s
  let s := modImg (fun i => { i with lkReset := false }) s
  if rec_ then setDevState 3 s
  else
    let c := s.tp.causes
    let c := if bitOf 0 c then c - 1 else c
    let c := if bitOf 2 c then c - 4 else c
    -- the Lockkeeper sets what it finds (R222, R234)
    let c := c ||| flag 1 (!s.sys.limpN) ||| flag 3 s.slu.silent
    let s := setDevState 1 (setTpCauses c (modFv (fun v => { v with started := true }) s))
    if s.sys.role = .tug then enumBegin s else s

/-! ### Meanings -/

/-- START (R29, R586, R590): a cause is present and the supplies are there. `tugSel` is the level of TUGSEL_N, and
`ref` says that the 40 MHz reference is valid. -/
def execStart (tugSel ref : Bool) (s : State) : Out :=
  .next (match startDue s with
    | some (src, det) => startKeeper src det tugSel ref s
    | none => s)

/-- REFERENCE_TIMEOUT (R586): CLOCK_MON detects, and the start is retried as a failed one. -/
def execReferenceTimeout (s : State) : Out :=
  .next (if starting s && !s.pwr.pll then failStart 6 (tpSet 2 (detect 0x01B false s)) else s)

/-- FIRMWARE_RUN (R13, R38, R540, R590, R594, R640): `ddr` and `xspi` are the sizes found, MiB; `lost` and `bad` what
the scan of the key store finds. -/
def execFirmwareRun (ddr xspi : Nat) (lost bad : List Nat) (s : State) : Out :=
  .next (if !starting s || s.fv.fw || !s.pwr.pll || !loadable s then s
    else
      let s := modFv (fun v => { v with fw := true }) s
      let s := modImg (fun i => { i with first := if s.img.boot.trial then s.cyc.number else i.first }) s
      let s := readLatches s
      if s.img.lkReset then measure (mapMemories ddr xspi (loadDiff s))
      else
        let s := keyScan lost bad s
        let s := loadAll ddr xspi s
        let s := if s.pwr.sleepPath then emit 0x2205 0x200 s else s
        measure s)

/-- START_COMPLETE (R221, R590, R593). -/
def execStartComplete (s : State) : Out :=
  .next (if starting s && s.fv.fw && verified s && (s.img.recovery || (s.img.alive && s.img.clean)) then
    completeStart s else s)

/-- START_FAILURE (R553, R592, R602): 1 block check, 2 signature, 3 watch, 4 compare, 5 memory (LK_MEM_ECC, detected
here), 6 clock, 7 supply. -/
def execStartFailure (cause : Nat) (s : State) : Out :=
  guardUnit (decide (1 ≤ cause ∧ cause ≤ 7))
    (if !starting s then s
     else failStart cause (if cause = 5 then tpSet 2 (detect 0x021 false s) else s))

/-- The delay after the k-th failed start in a row: min(10 s, 50 ms × 2^(k − 1)) (R593). -/
def backoffNs (k : Nat) : Nat := if 9 ≤ k then 10 * nsPerSec else 50000000 * 2 ^ (k - 1)

/-- START_RETRY (R593): the back-off has ended. The attempt runs as a start, with the role that stands. -/
def execStartRetry (ref : Bool) (s : State) : Out :=
  .next (if s.img.held && decide (0 ∉ s.pwr.rails ∧ 3 ∉ s.pwr.rails) &&
      decide (s.img.heldAt + backoffNs s.img.boot.backoff ≤ s.pwr.age) then
    let s := modImg (fun i => { i with held := false }) s
    let s := bootChoose (assignCores s)
    let s := if s.sys.role = .barge then trainPorts s else modSys (fun v => { v with role := .standalone }) s
    if ref then clocksOn s else s
  else s)

/-- LOCKKEEPER_RESTART (R553, R591): `mem` says that LK_MEM_ECC caused it, which is detected here; `clock` that
CLOCK_MON did, when the PLLs are taken anew. -/
def execLockkeeperRestart (mem clock ref : Bool) (s : State) : Out :=
  .next (if s.pwr.keeper && s.fv.started then
    let s := if mem then tpSet 2 (detect 0x021 false s) else s
    let s := bootChoose (lkRestart s)
    if clock then modPwr (fun p => { p with pll := ref }) s else s
  else s)

end Sys2Proof.Machine
end

