-- ==== Sys2Proof/Machine/Intake.lean ====
section
/-! DEFINITION. Taking commands in: the verbs over every class (R423-R430), the checks of a received message
(R396-R398), and the transports' ways in (R404, R406, R410-R413, R415-R418). -/
namespace Sys2Proof.Machine

/-! ### Every class -/

/-- The classes (R431). -/
def classes : List ClassSpec := chartClasses ++ [imageClass, chartSpec]

/-- The class of a code; one that does not exist has no instance. -/
def classOf (c : Nat) : ClassSpec :=
  (classes.find? (fun k => decide (k.code = c))).getD
    { code := c, ranges := [], record := fun _ _ => none, verbs := [], events := 0 }

/-- GET on this device. -/
def getBody (k : ClassSpec) (r : Req) (s : State) : State := if k.code = 0x03 then timeGetBody r s else doGet k r s

/-- SUB on this device. -/
def subBody (k : ClassSpec) (r : Req) (s : State) : State := if k.code = 0x11 then wireSubBody r s else doSub k r s

/-- UNSUB (R429): an event or telemetry subscription, by its number; one for a barge's object ends there too. -/
def unsubBody (k : ClassSpec) (r : Req) (s : State) : State :=
  let id := leAt r.payload 0 2
  let mine := fun (p : Nat) => decide (p = r.pound ∨ r.pound = 0)
  if leAt r.payload 2 2 ≠ 0 then answer k.code 5 r .eRange none [] s
  else if late k 5 r s ≠ .ok then answer k.code 5 r (late k 5 r s) none [] s
  else match s.fv.subs.find? (fun b => decide (b.id = id) && mine b.pound) with
    | some b =>
      let s := accepted r.pound (modFv (fun v => { v with subs := v.subs.erase b }) s)
      let a := b.first / 2 ^ 26
      let s := match b.remote with
        | some n => if a = s.sys.tow then s
            else relaySend a k.code 5 { pound := 0, tow := a, inst := r.inst, payload := leBytes 4 n } true none s
        | none => s
      answer k.code 5 r .ok none [] s
    | none => match s.slu.subs.find? (fun b => decide (b.id = id) && mine b.pound) with
      | some b => answer k.code 5 r .ok none [] (accepted r.pound (modSlu (fun v => { v with subs := v.subs.erase b }) s))
      | none => answer k.code 5 r .eRange none [] s

/-- The verb on this device. -/
def verbBody (k : ClassSpec) (verb : Nat) (r : Req) : State → State :=
  match verb with
  | 1 => getBody k r
  | 2 => doSet k r
  | 3 => doAct k r
  | 4 => subBody k r
  | 5 => unsubBody k r
  | _ => doList k r

/-- A command of class `cls` and verb `verb` that passed steps 1 to 6 (R396). -/
def runFaval (cls verb : Nat) (r : Req) (s : State) : State := serve (classOf cls) verb r (verbBody (classOf cls) verb r) s

/-! ### A message received (R396-R398) -/

/-- The pound has one more unanswered command, whatever becomes of it. -/
def pend (p : Nat) (s : State) : State := modPq p (fun q => { q with unanswered := q.unanswered + 1 }) s

/-- The answer to a message whose header is not trusted (R398). -/
def distrust (p : Nat) (st : Status) (b : List Byte) (s : State) : State :=
  respondTo p { opcode := leAt b 2 2, tag := leAt b 4 2, handle := 0, pound := p, status := st.code, cyc := none, desync := true } s

/-- The answer to a message whose header is trusted and whose checks failed. -/
def reject (p : Nat) (st : Status) (b : List Byte) (s : State) : State :=
  respondTo p { opcode := leAt b 2 2, tag := leAt b 4 2, handle := leAt b 8 4, pound := leAt b 12 2, status := st.code, cyc := none } s

/-- The header checks out (R393). -/
def hcrcOk (b : List Byte) : Bool := decide (16 ≤ b.length ∧ crc8 (b.take 15) = leAt b 15 1)

/-- A delivery that ended early (R398, R406, R412, R418): counted in `trunc` and answered with `E_TRUNC`. -/
def truncated (p : Nat) (b : List Byte) (s : State) : State :=
  let s := bumpPq p 5 (pend p s)
  if hcrcOk b then reject p .eTrunc b s
  else if b.length < 16 then distrust p .eTrunc b s
  else distrust p .eCheck b (bumpPq p 2 s)

/-- What steps 2 to 5 find: status and the transport counter of the failure. -/
def headerCheck (b : List Byte) : Option (Status × Option Nat) :=
  let n := leAt b 6 2
  if leAt b 0 1 ≠ 2 then some (.eVersion, none)
  else if leAt b 1 1 ≠ 0 ∧ leAt b 1 1 ≠ 4 then some (.eRange, none)
  else if 4080 < n then some (.eLength, some 4)
  else if b.length ≠ 20 + n then some (.eLength, none)
  else if crc32c (b.take (16 + n)) ≠ leAt b (16 + n) 4 then some (.eCheck, some 3)
  else none

/-- Steps 1 to 6 of R396 for the bytes of a message from pound `p`, then the command itself. -/
def receive (p : Nat) (b : List Byte) (s : State) : State :=
  if b.length < 16 then truncated p b s
  else if !hcrcOk b then distrust p .eCheck b (bumpPq p 2 (pend p s))
  else match headerCheck b with
    | some (st, c) =>
      let s := received p s
      reject p st b (match c with | some k => bumpPq p k s | none => s)
    | none =>
      if leAt b 12 2 ≠ p then reject p .eAuthority b (received p s)
      else
        let h := leAt b 8 4
        let r : Req := { pound := p, tag := leAt b 4 2, posted := bitOf 2 (leAt b 1 1), tow := h / 2 ^ 26, inst := h % 2 ^ 18
                         payload := (b.drop 16).take (leAt b 6 2) }
        if leAt b 3 1 = handleCls h then runFaval (handleCls h) (leAt b 2 1) r s
        else
          let there := if r.tow = s.sys.tow then (classOf (handleCls h)).exists_ s r.inst
            else decide (s.sys.role = .tug ∧ (bargeAt s r.tow).state ≠ 0) && (classOf (handleCls h)).has r.inst
          reject p (if there then .eOpcode else .eHandle) b (received p s)

/-! ### Commands with a verb of every class -/

/-- FAVAL_GET (R424). -/
def execFavalGet (cls : Nat) (r : Req) (s : State) : Out := .next (runFaval cls 1 r s)
/-- FAVAL_SUB (R428). -/
def execFavalSub (cls : Nat) (r : Req) (s : State) : Out := .next (runFaval cls 4 r s)
/-- FAVAL_UNSUB (R429). -/
def execFavalUnsub (cls : Nat) (r : Req) (s : State) : Out := .next (runFaval cls 5 r s)
/-- FAVAL_LIST (R430). -/
def execFavalList (cls : Nat) (r : Req) (s : State) : Out := .next (runFaval cls 6 r s)

/-! ### Mailbox windows (R404, R406, R420) -/

/-- A command slot of window `e` may be read for pound `p` (R402, R404, R449, R591, R604). -/
def canFetch (s : State) (p e : Nat) : Bool :=
  let w := winAt s e
  let q := pqAt s p
  w.run && w.running && decide ((tget ring0 w.rings 0).head ≠ (tget ring0 w.rings 0).tail) && decide ((poundAt s p).state = .running) &&
  s.fv.fw && !s.img.shut && decide (ringUsed w 1 + q.reserved < ringSize w 1) && decide (q.unanswered < (poundAt s p).cmdSlots)

/-- A response slot is reserved and the head passes the slot. -/
def takeSlotAt (p e : Nat) (s : State) : State :=
  modWin e (modRing 0 (fun r => { r with head := (r.head + 1) % 65536 })) (modPq p (fun q => { q with reserved := q.reserved + 1 }) s)

/-- What a slot holds of a message: the header and exactly `len` + 4 bytes (R404). -/
def slotMessage (b : List Byte) : List Byte := if 4080 < leAt b 6 2 then b.take 16 else b.take (20 + leAt b 6 2)

/-- A window whose pound may fetch acts on the slot at the head of its command ring. -/
def fetch (e : Nat) (act : Nat → State → State) (s : State) : State :=
  match poundOfWin s e with
  | some p => if canFetch s p e then act p (takeSlotAt p e s) else s
  | none => s

/-- COMMAND_FETCH (R404): the device reads the slot at the head; a host's slot holds `b`, a partition's lies in the
device's memory. -/
def execCommandFetch (e : Nat) (b : List Byte) (s : State) : Out :=
  guardUnit (winOk e) (fetch e (fun p t =>
    let r := tget ring0 (winAt s e).rings 0
    let m := if 32 ≤ e then memBytes s.mem (r.base + r.head % ringSize (winAt s e) 0 * 4160) 4160 else b
    receive p (slotMessage m) t) s)

/-- DESYNC_RESPONSE (R398): a message with a failed `hcrc`, or shorter than a header, reaches pound `p`'s transport. -/
def execDesyncResponse (p : Nat) (b : List Byte) (s : State) : Out :=
  guardUnit (decide (p < 32))
    (if !s.fv.fw || s.img.shut || !decide ((poundAt s p).state = .running) || (hcrcOk b && decide (16 ≤ b.length)) then s else receive p b s)

/-- The device gives up the descriptor it was to read next from packet ring `k` (R406): the head passes its slot with
nothing written back. DESIGN CHOICE: a transmit frame in progress cannot be whole then, and its descriptors complete with
TRUNC as R345 has it of a partial frame. -/
def dropDesc (p k : Nat) (s : State) : State :=
  let r := k - 3
  let g := hringAt s (ringKey p r)
  if g.posted.isEmpty then s
  else
    let s := modHring (ringKey p r) (fun g => { g with posted := g.posted.drop 1, cur := [] }) s
    if r < 4 then writeBack p r [⟨[], [], 0⟩] s
    else
      let s := g.cur.foldl (fun s d => pushDone (ringKey p r) d.tag 1 (some 6) s) s
      let s := modHring (ringKey p r) (fun g => { g with
        done := g.done ++ [{ id := g.nextId, tag := 0, ndesc := 1, status := some 0, gone := true }], nextId := g.nextId + 1 }) s
      flushDone (ringKey p r) s

/-- DMA_READ_TIMEOUT (R406): no completion for 1 ms, for the command slot (`k` 0), whose first bytes `got` had
arrived, or a descriptor of packet ring `k`. -/
def execDmaReadTimeout (e k : Nat) (got : List Byte) (s : State) : Out :=
  guardUnit (decide (e < 64 ∧ k < 11)) (
    if k = 0 then fetch e (fun p s => truncated p got s) s
    else if k < 3 then s
    else match poundOfWin s e with | some p => dropDesc p k s | none => s)

/-- DMA_READ_ERROR (R406, R420): an error or poisoned completion; code 5 is recorded. -/
def execDmaReadError (e k : Nat) (got : List Byte) (s : State) : Out :=
  guardUnit (decide (e < 64 ∧ k < 11)) (
    if k = 0 then fetch e (fun p s =>
      let s := mbxError p 5 0 (pend p s)
      if hcrcOk got then reject p .eCheck got s else distrust p .eCheck got s) s
    else if k < 3 then s
    else match poundOfWin s e with | some p => mbxError p 5 k (dropDesc p k s) | none => s)

/-! ### Ethernet (R410-R414) -/

/-- A UDP datagram to one of the device's IP interfaces: the interface, its sender and its data (R410). -/
def datagramOf (s : State) (f : EthFrame) : Option (EthDest × List Byte) :=
  match parseIp f with
  | none => none
  | some i =>
    let b := f.payload
    let n := beAt b (i.l4 + 4) 2
    let (src, dst) := if i.v6 then (beAt b (i.at_ + 8) 16, beAt b (i.at_ + 24) 16) else (beAt b (i.at_ + 12) 4, beAt b (i.at_ + 16) 4)
    if i.frag || decide (i.proto ≠ 17 ∨ i.l4Len < 8 ∨ n < 8 ∨ i.l4Len < n) || decide (checkIp f = 2 ∨ checkL4 f = 2) ||
        (i.v6 && decide (beAt b (i.l4 + 6) 2 = 0)) then none
    else (List.range 4).findSome? (fun k =>
      let x := tget iface0 s.fv.ifaces k
      if x.en && decide (x.v6 = i.v6 ∧ x.addr = dst ∧ x.port = beAt b (i.l4 + 2) 2 ∧ x.vid = (if f.tagged then f.vid else 0)) then
        some ({ ip := src, port := beAt b i.l4 2, mac := f.src, iface := k }, (b.drop (i.l4 + 8)).take (n - 8))
      else none)

/-- The bits of the bitmap of R413 when `f` is accepted: bit k marks F − k. -/
def takeRx (p f : Nat) (s : State) : State :=
  modPq p (fun q =>
    if q.fresh < f then
      { q with fresh := f, bitmap := (q.bitmap * 2 ^ (min 64 (f - q.fresh)) + 1) % 2 ^ 64
               freshStore := if q.freshStore / 4096 < f / 4096 then f / 4096 * 4096 else q.freshStore }
    else { q with bitmap := q.bitmap ||| 2 ^ (q.fresh - f) }) s

/-- Freshness accepts a datagram (R413). -/
def freshOk (q : PoundQ) (f : Nat) : Bool :=
  decide (q.fresh < f) || (decide (q.fresh < f + 64) && !bitOf (q.fresh - f) q.bitmap)

/-- A whole message of an Ethernet pound: at most 64 commands stay unanswered (R414). -/
def ethMessage (p : Nat) (d : EthDest) (b : List Byte) (s : State) : State :=
  let q := pqAt s p
  let s := modPq p (fun q => { q with asked := q.asked ++ [(leAt b 4 2, d)] }) s
  if min 64 (poundAt s p).cmdSlots ≤ q.unanswered then
    let s := bumpPq p 6 (pend p s)
    if hcrcOk b then reject p .eBusy b s else distrust p .eCheck b s
  else
    let was := tget ctr0 q.counters 1
    let s := receive p b s
    if tget ctr0 (pqAt s p).counters 1 ≠ was ∧ q.destFixed = false then modPq p (fun q => { q with dest := some d }) s else s

/-- A verified, fresh segment (R412). -/
def segment (p : Nat) (d : EthDest) (seg segs f : Nat) (b : List Byte) (s : State) : State :=
  if seg = 0 then
    let s := modPq p (fun q => { q with reasm := none }) s
    if segs = 1 then ethMessage p d b s
    else modPq p (fun q => { q with reasm := some { segs := segs, nextSeg := 1, fresh := f, bytes := b, src := d } }) s
  else match (pqAt s p).reasm with
    | some a =>
      if a.nextSeg = seg ∧ a.segs = segs ∧ f = a.fresh + seg then
        if seg + 1 = segs then ethMessage p a.src (a.bytes ++ b) (modPq p (fun q => { q with reasm := none }) s)
        else modPq p (fun q => { q with reasm := some { a with nextSeg := seg + 1, bytes := a.bytes ++ b } }) s
      else bumpPq p 5 s
    | none => bumpPq p 5 s

/-- A datagram with the transport header of R410. -/
def datagram (d : EthDest) (u : List Byte) (s : State) : State :=
  let seg := leAt u 1 1 % 16
  let segs := leAt u 1 1 / 16
  let p := leAt u 2 2
  let f := leAt u 4 8
  let n := leAt u 12 2
  if u.length ≠ 32 + n ∨ n = 0 ∨ 1400 < n ∨ leAt u 0 1 ≠ 1 ∨ segs = 0 ∨ 3 < segs ∨ segs ≤ seg ∨ 1 < leAt u 14 2 then s
  else if 32 ≤ p then s
  else
    let q := pqAt s p
    let usable := !q.ethRevoked && (match q.ethKey with | some h => keyReady s h | none => false)
    if !usable ∨ leAt u 14 2 = 1 then bumpPq p 7 s else
    let s := keyUse (q.ethKey.getD 0) s
    if ethMac s p (u.take (16 + n)) ≠ u.drop (16 + n) then bumpPq p 7 s
    else if (poundAt s p).kind ≠ 2 ∨ (poundAt s p).state ≠ .running then s
    else
      let b := (u.drop 16).take n
      if f ≤ q.floor ∧ seg = 0 then
        let s := modPq p (fun q => { q with asked := q.asked ++ [(leAt b 4 2, d)] }) (bumpPq p 8 (pend p s))
        respondTo p { opcode := leAt b 2 2, tag := leAt b 4 2, handle := leAt b 8 4, pound := p, status := Status.eAuth.code
                      cyc := none, payload := leBytes 8 q.floor } s
      else if f ≤ q.floor ∨ freshOk q f = false then bumpPq p 8 s
      else segment p d seg segs f b (takeRx p f s)

/-- ETH_TRANSPORT_DATAGRAM (R410-R414): the Lockkeeper takes the oldest frame delivered to it. -/
def execEthTransportDatagram (s : State) : Out :=
  .next (if !s.fv.fw || s.img.shut then s
    else match s.net.keeperRx with
      | [] => s
      | x :: r =>
        let s := modNet (fun v => { v with keeperRx := r }) s
        match datagramOf s x.f with
        | some (d, u) => datagram d u s
        | none => s)

/-- SEGMENT_TIMEOUT (R412). -/
def execSegmentTimeout (p : Nat) (s : State) : Out :=
  guardUnit (decide (p < 32)) (match (pqAt s p).reasm with
    | some a =>
      truncated p a.bytes (modPq p (fun q => { q with reasm := none, asked := q.asked ++ [(leAt a.bytes 4 2, a.src)] }) s)
    | none => s)

/-! ### SPI (R415-R418) -/

/-- A WRITE of pound `p` that delivered the bytes `b` before it ended. -/
def spiWrite (p : Nat) (b : List Byte) (s : State) : State :=
  let whole := decide (16 ≤ b.length) && (decide (4080 < leAt b 6 2) || decide (20 + leAt b 6 2 ≤ b.length))
  if decide ((poundAt s p).state ≠ .running) || !s.fv.fw || s.img.shut then s
  else if hcrcOk b && !whole then spiErr p (truncated p b (modPq p (fun q => { q with reserved := q.reserved + 1 }) s))
  else if b.length < 16 then spiErr p (truncated p b (modPq p (fun q => { q with reserved := q.reserved + 1 }) s))
  else
    let ready := spiReady s p
    let s := modPq p (fun q => { q with reserved := q.reserved + 1 }) s
    let m := if hcrcOk b then slotMessage b else b
    if !hcrcOk b then spiErr p (receive p m s)
    else if !ready then reject p .eBusy m (bumpPq p 6 (pend p s))
    else
      let s := if (headerCheck m).isSome then spiErr p s else s
      receive p m s

/-- SPI_WRITE (R415, R416, R418): one transaction with the bytes after the instruction. -/
def execSpiWrite (b : List Byte) (s : State) : Out :=
  .next (match spiPound s with | some p => spiWrite p b s | none => s)

/-- SPI_BYTE_GAP (R418): a gap of more than 100 µs after the bytes `b`. -/
def execSpiByteGap (b : List Byte) (s : State) : Out :=
  .next (match spiPound s with | some p => spiWrite p b s | none => s)

end Sys2Proof.Machine
end

