-- ==== Sys2Proof/Machine/TowFaval.lean ====
section
/-! DEFINITION. What DATA, FAVAL, POST, NOTE and LATE frames of the towline bring (R499, R512-R514, R517), and
the resequencing and forwarding of tow-addressed frames (R506-R508). -/
namespace Sys2Proof.Machine

/-! ### Content for this device -/

/-- A frame is consumed: its cells at the port it came in on are owed to the peer (R501). -/
def consume (f : TowFrame) (s : State) : State :=
  match f.via with | some x => owe x f.vc (towCells f) s | none => s

/-- DATA, kind 0: into the Basin on port 14 or 15 with the ingress timestamp it carries; a BLOCKED port does not
accept it (R499). -/
def takeEth (x : Nat) (n : NetFrame) (s : State) : State :=
  if (tpAt s x).blocked then s
  else toBasin { f := n.f, ing := 14 + x, arr := n.arr, ipc := checkIp n.f, l4c := checkL4 n.f } s

/-- DATA, kind 1: an arrival at the Aqueduct with the remote route index it carries (R304). -/
def takeRecord (src route : Nat) (a : AqFrame) (s : State) : State :=
  modAq (fun v => { v with inq := v.inq ++ [{ a with kind := 3, tow := src, route := route }] }) s

/-- A relayed command at a barge, as a command of pound 0 (R512). The boot ROM takes none. -/
def takeCommand (cls verb : Nat) (r : Req) (s : State) : State :=
  if s.sys.role = .barge ∧ s.fv.fw = true then runFaval cls verb { r with pound := 0, tow := s.sys.tow } s else s

/-- Barge `a` has taken the last SET of the period that was relayed to it (R62): requests whose change every barge has
now dropped are answered. -/
def periodConfirmed (a : Nat) (s : State) : State :=
  if (bargeAt s a).out.any (fun q => q.own && decide (q.cls = 0x02)) then s
  else
    let s := modCyc (fun c => { c with
      change := c.change.map (fun k => { k with confirm := k.confirm.erase a })
      ended := c.ended.map (fun e => { e with confirm := e.confirm.erase a }) }) s
    let done := s.cyc.ended.filter (fun e => decide (e.confirm = []))
    (done.flatMap (·.reqs)).foldl (fun s r => answerSame r s)
      (modCyc (fun c => { c with ended := c.ended.filter (fun e => !decide (e.confirm = [])) }) s)

/-- The tug's own command has been answered by barge `a`: a confirmation of a period change or of an activation
(R62, R607). -/
def ownAnswered (a cls : Nat) (ok : Bool) (s : State) : State :=
  if !ok then s
  else if cls = 0x02 then periodConfirmed a s
  else if cls = 0x80 then confirmAct a s
  else s

/-- The tug's record of a barge subscription after the barge's answer (R514): the number it gave, or no record. -/
def subAnswered (id : Nat) (m : Msg) (s : State) : State :=
  modFv (fun v =>
    if m.status = 0 then
      { v with subs := v.subs.map (fun b => if b.id = id then { b with remote := some (leAt m.payload 0 2) } else b) }
    else { v with subs := v.subs.filter (fun b => decide (b.id ≠ id)) }) s

/-- A barge's response at the tug (R512, R513): the pound's own tag and number are restored; one that comes after
the timeout is discarded and counted. -/
def takeResponse (a : Nat) (m : Msg) (s : State) : State :=
  match (bargeAt s a).out.find? (fun q => decide (q.tag = m.tag)) with
  | none => modBarge a (fun b => { b with timeouts := (b.timeouts + 1) % 2 ^ 32 }) s
  | some q =>
    let s := modBarge a (fun b => { b with out := b.out.erase q }) s
    let pay := match q.sub with
      | some id => if m.status = 0 then leBytes 2 id ++ m.payload.drop 2 else m.payload
      | none => m.payload
    let s := match q.sub with | some id => subAnswered id m s | none => s
    if q.own then ownAnswered a q.cls (decide (m.status = 0)) s
    else if q.mute then s
    else respond { m with tag := q.req.tag, pound := q.req.pound, payload := pay } s

/-- A barge's event at the tug (R514): its rate limits have been applied, so it goes to its recipients at once. A
telemetry report goes to the pound that asked for it, under the number that pound knows. -/
def takeNote (a : Nat) (e : Evt) (s : State) : State :=
  if s.sys.role ≠ .tug ∨ s.fv.fw = false then s
  else if e.code = 0x1109 then
    match s.fv.subs.find? (fun b => decide (b.first / 2 ^ 26 = a ∧ b.remote = some (elemOr 0 e.ext 0 + 256 * elemOr 0 e.ext 1))) with
    | some b => place b.pound { e with ext := b.id % 256 :: b.id / 256 :: e.ext.drop 2 } s
    | none => s
  else (recipients s e none).foldl (fun s p => place p e s) s

/-- A posted command failed at barge `a` (R514). -/
def takeLate (a tag st : Nat) (s : State) : State :=
  let s := modBarge a (fun b => { b with late := (b.late + 1) % 2 ^ 32 }) s
  match (bargeAt s a).posted.find? (fun p => decide (p.tag = tag)) with
  | some p => postedFailed a st p (modBarge a (fun b => { b with posted := b.posted.erase p }) s)
  | none => s

/-- The check of 4 KiB block `k` failed at barge `a` (R517): both its frames are sent again, up to three times. -/
def takeBadBlock (a k : Nat) (s : State) : State :=
  let s := modBarge a (fun b => { b with late := (b.late + 1) % 2 ^ 32 }) s
  if (bargeAt s a).state ≠ 2 then s
  else if tget ctr0 (bargeAt s a).tries k < 3 then
    let s := modBarge a (fun b => { b with tries := tmod ctr0 k (· + 1) b.tries }) s
    (towSend 0 a (.block (2 * k + 1) (setBlocks s)) (towSend 0 a (.block (2 * k) (setBlocks s)) s).2).2
  else loadFailed a false s

/-- A frame of the image set at a barge (R517): one in its boot ROM stores it; `bad` says that the 4 KiB block it
completes fails its check, which a LATE names. -/
def takeBlock (k n : Nat) (bad : Bool) (s : State) : State :=
  if s.sys.role ≠ .barge ∨ s.fv.fw = true then s
  else
    let s := modTow (fun t => { t with
      setSize := n, gotBlocks := if k ∈ t.gotBlocks then t.gotBlocks else t.gotBlocks ++ [k]
      badBlocks :=
      if bad then (if k / 2 ∈ t.badBlocks then t.badBlocks else t.badBlocks ++ [k / 2]) else t.badBlocks.erase (k / 2) }) s
    if bad then (towSend 0 0 (.late (k / 2) 0 0 Status.eCheck.code s.cyc.number) s).2 else s

/-- A barge's part of the chart and its Towpath table (R227, R517). -/
def takeChart (l : List ChartItem) (t : TpTable) (s : State) : State :=
  if s.sys.role ≠ .barge ∨ s.fv.fw = true then s
  else
    let s := modTow (fun t => { t with loaded := true }) (modSlotImg 0 (fun x => { x with items := l }) s)
    if tableChecked t then writeTable t s else s

/-- What a frame holds takes effect on this device. -/
def takeBody (f : TowFrame) (s : State) : State :=
  match f.body with
  | .eth _ n => takeEth (f.via.getD 0) n s
  | .record route a => takeRecord f.src route a s
  | .cmd cls verb r => takeCommand cls verb r s
  | .rsp m => if s.sys.role = .tug then takeResponse f.src m s else s
  | .note e => takeNote f.src e s
  | .late tag op h st _ =>
    if s.sys.role ≠ .tug then s else if op = 0 ∧ h = 0 then takeBadBlock f.src tag s else takeLate f.src tag st s
  | .block k n => takeBlock k n f.bad s
  | .chart l t => takeChart l t s
  | .beat _ => s

/-- A frame is released to this device. -/
def release (f : TowFrame) (s : State) : State := takeBody f (consume f s)

/-! ### Resequencing (R508) -/

/-- The resequencer of a frame's source and virtual channel. -/
def reseqKey (f : TowFrame) : Nat := 4 * f.src + f.vc

/-- The device takes no command from the towline while a handover closes its transports (R604). -/
def towShut (s : State) : Bool := s.img.shut

/-- A frame counts in the port it came in on. -/
def countVia (f : TowFrame) (k n : Nat) (s : State) : State :=
  match f.via with | some x => countTow x k n s | none => s

/-- Held frames that are next in order leave. -/
def towRun (k : Nat) : Nat → State → State
  | 0, s => s
  | n + 1, s =>
    let q := towReseqAt s k
    match q.held.find? (fun f => decide (some f.seq = q.next)) with
    | none => s
    | some f =>
      towRun k n (release f (modTowReseq k (fun q => { next := some ((f.seq + 1) % 65536), held := q.held.erase f }) s))

/-- Held frames in ascending sequence order from `b`. -/
def towSorted (b : Nat) (l : List TowFrame) : List TowFrame :=
  l.foldl (fun acc f =>
    let before := acc.takeWhile (fun g => decide (seqAhead g.seq b ≤ seqAhead f.seq b))
    before ++ [f] ++ acc.drop before.length) []

/-- Every held frame leaves in ascending order; each number skipped is counted. -/
def towReleaseAll (k : Nat) (s : State) : State :=
  let q := towReseqAt s k
  let l := towSorted (q.next.getD 0) q.held
  let s := modTowReseq k (fun q => { q with held := [] }) s
  l.foldl (fun s f =>
    let skip := seqAhead f.seq ((towReseqAt s k).next.getD f.seq)
    let s := if skip = 0 then s else countVia f 12 skip s
    release f (modTowReseq k (fun q => { q with next := some ((f.seq + 1) % 65536) }) s)) s

/-- A frame of VC0 or VC1 for this device. -/
def towResequence (f : TowFrame) (s : State) : State :=
  let k := reseqKey f
  let q := towReseqAt s k
  let next := q.next.getD f.seq
  if 32768 ≤ seqAhead f.seq next then consume f (countVia f 11 1 s)
  else if f.seq = next ∧ towShut s = false then
    towRun k q.held.length (release f (modTowReseq k (fun q => { q with next := some ((f.seq + 1) % 65536) }) s))
  else
    let s := if 16 ≤ q.held.length then towReleaseAll k s else s
    let s := modTowReseq k (fun q => { next := some (q.next.getD f.seq), held := q.held ++ [f] }) s
    if towShut s then s else towRun k (towReseqAt s k).held.length s

/-- Frames held back by a handover are taken again (R604). -/
def towReopen (s : State) : State :=
  s.tow.reseqs.foldl (fun s e => towRun e.1 e.2.held.length s) s

/-! ### Where a frame goes (R506, R507) -/

/-- A frame not addressed to this device goes out on its other port, back on the other way when that is broken,
or is discarded. -/
def towForward (x : Nat) (f : TowFrame) (s : State) : State :=
  let y := otherPort x
  if f.dst ∈ reach s y then towPut y f s
  else if f.dst ∈ reach s x then towPut x { f with reroute := true } s
  else consume f s

/-- A frame that passed the checks of arrival. -/
def towTake (x : Nat) (f : TowFrame) (s : State) : State :=
  match f.body with
  | .eth .. => if f.dst = s.sys.tow ∧ f.vc < 2 then towResequence f s else release f s
  | _ =>
    if f.src = s.sys.tow then consume f s
    else if f.bcast then
      let y := otherPort x
      if (tpAt s y).link = 1 then towPut y f (takeBody f s) else release f s
    else if f.dst = s.sys.tow then (if f.vc < 2 then towResequence f s else release f s)
    else towForward x f s

/-- The meaning of a row: it acts on a frame of its type only. -/
def onTow (x chk : Nat) (bad : Bool) (ok : TowBody → Bool) (f : TowFrame) (s : State) : Out :=
  guardUnit (decide (x < 2)) (
    if !ok f.body then s
    else match towArrive x chk f s with
      | (some g, s) => bargeFlush (towTake x { g with bad := bad } s)
      | (none, s) => s)

/-! ### Meanings -/

/-- DATA_FRAME_RECEIVED (R499). -/
def execDataFrameReceived (x chk : Nat) (f : TowFrame) (s : State) : Out :=
  onTow x chk false (fun b => match b with | .eth .. => true | .record .. => true | _ => false) f s

/-- FAVAL_FRAME_RECEIVED (R512, R517): a command, a response, or a barge's part of the chart. -/
def execFavalFrameReceived (x chk : Nat) (f : TowFrame) (s : State) : Out :=
  onTow x chk false (fun b => match b with | .cmd _ _ r => !r.posted | .rsp _ => true | .chart .. => true | _ => false) f s

/-- POST_FRAME_RECEIVED (R512, R517): a posted command, or a frame of the image set; `bad` says that its 4 KiB block
fails its check. -/
def execPostFrameReceived (x chk : Nat) (f : TowFrame) (bad : Bool) (s : State) : Out :=
  onTow x chk bad (fun b => match b with | .cmd _ _ r => r.posted | .block _ _ => true | _ => false) f s

/-- NOTE_FRAME_RECEIVED (R514). -/
def execNoteFrameReceived (x chk : Nat) (f : TowFrame) (s : State) : Out :=
  onTow x chk false (fun b => match b with | .note _ => true | _ => false) f s

/-- LATE_FRAME_RECEIVED (R514, R517). -/
def execLateFrameReceived (x chk : Nat) (f : TowFrame) (s : State) : Out :=
  onTow x chk false (fun b => match b with | .late .. => true | _ => false) f s

/-- TOWLINE_RESEQ_TIMEOUT (R508): a frame of source `src` has been held 50 µs. -/
def execTowlineReseqTimeout (src v : Nat) (s : State) : Out :=
  guardUnit (decide (src < 64 ∧ v < 2))
    (if (towReseqAt s (4 * src + v)).held.isEmpty then s else bargeFlush (towReleaseAll (4 * src + v) s))

end Sys2Proof.Machine
end

