-- ==== Sys2Proof/Machine/Cycle.lean ====
section
/-! DEFINITION. The lock cycle (R40-R63): its phases, the overrun, the effective-cycle rule, the boundary with
everything that takes effect there, phase-locking and the change of period. -/
namespace Sys2Proof.Machine

/-! ### Phases before the boundary (R41-R43, R45, R48, R51) -/

/-- A phase of a running cycle. -/
def inPhase (act : State → State) (s : State) : Out := .next (if s.cyc.running then act s else s)

/-- FILL_PHASE (R41, R103, R131, R192, R207): the values `x` of the previous cycle are captured. -/
def execFillPhase (x : Samples) (s : State) : Out :=
  inPhase (fun s => fillPower x (fillFo x (fillIn x (modCyc (fun c => { c with phase := .fill }) s)))) s

/-- LEVEL_PHASE (R41, R152, R196, R213, R567): the Sluice works on the inputs' results of the cycle before. -/
def execLevelPhase (s : State) : Out :=
  inPhase (fun s =>
    levelField (segWear (levelSluice (ainTemp s) (foCurrent s) (modCyc (fun c => { c with phase := .level }) s)))) s

/-- LEVEL_COMPLETION_SIGNAL (R42, R554): of the Sluice (0), the field I/O filters (1) or the Aqueduct scheduler (2). -/
def execLevelCompletionSignal (k : Nat) (s : State) : Out :=
  guardUnit (decide (k < 3)) (
    if !s.cyc.running then s
    else if k = 0 then
      modSlu (fun v => { v with unalive := 0 }) (modImg (fun i => { i with alive := true }) (modCyc (fun c => { c with doneSluice := true }) s))
    else if k = 1 then modCyc (fun c => { c with doneFio := true }) s
    else modCyc (fun c => { c with doneAq := true }) s)

/-- An ENTER of SLEEP takes effect at the coming boundary (R582). -/
def sleepDue (s : State) : Bool :=
  s.cyc.staged.any (fun x => decide (x.due = 0 ∧ x.cls = 0x70) && (match x.op with | .act 1 a => decide (leAt a 0 1 = 3) | _ => false))

/-- The fold of a hand-back: an empty cause set was found at the cutoff of the cycle before (R233, step 2). -/
def foldHandBack (s : State) : State :=
  if s.fv.fw = true ∧ s.tp.handBack = .found ∧ s.tp.hbCycle ≠ s.cyc.number then modTp (fun t => { t with handBack := .folding }) s else s

/-- APPLY_PHASE (R43, R207, R233, R297, R582, R604). Acceptance has given each staged command its boundary already. -/
def execApplyPhase (s : State) : Out :=
  inPhase (fun s =>
    let s := foldHandBack (nmApply (autoLocate (modCyc (fun c => { c with phase := .apply }) s)))
    let s := if sleepDue s then armWake s else s
    towReopen (applyAct s)) s

/-- The cycle overruns with causes `m` (R48, R51): the third in a row is a request for the safe state at its boundary
(R52, R557). A cycle overruns whether or not the Lockkeeper's firmware runs; without it the event is latched (R640). -/
def overrun (m : Nat) (s : State) : State :=
  if s.cyc.overMask ≠ 0 then modCyc (fun c => { c with overMask := c.overMask ||| m }) s
  else
    let s := modCyc (fun c => { c with overMask := m }) s
    let s := detect 0x019 false (emit 0x0201 0 s (cause := m) (value := (s.cyc.overruns + 1 : Nat)))
    if s.cyc.overruns ≠ 2 then s
    else
      let s := if s.saf.causes = 0 ∧ s.saf.atBoundary = 0 ∧ s.saf.atStrobe = 0 then
          modSaf (fun v => { v with firstBp := 0x019, tD := s.tide.counter }) s else s
      modSaf (fun v => { v with atBoundary := v.atBoundary ||| 1, relPend := false }) s

/-- Level-phase work that is not complete (R51). -/
def lateMask (s : State) : Nat :=
  flag 0 (!s.cyc.doneSluice) + flag 1 (!s.cyc.doneFio) + flag 2 (!s.cyc.doneAq)

/-- CUTOFF (R45, R48, R224, R233, R604). -/
def execCutoff (s : State) : Out :=
  inPhase (fun s =>
    let s := modCyc (fun c => { c with phase := .sealing, pastCutoff := true }) s
    let s := if lateMask s = 0 then s else overrun (lateMask s) s
    cutoffAct (tpCutoff s)) s

/-- Every field output's timer is refreshed (R210). -/
def refreshAll (s : State) : State := (List.range 16).foldl (fun s k => foRefresh k s) s

/-- SEALING_WINDOW (R41, R210, R222, R604): sealing is finished; `handoff` says that a hand-off block that was to be
written is written too. -/
def execSealingWindow (handoff : Bool) (s : State) : Out :=
  inPhase (fun s =>
    if !s.fv.fw then s
    else
      let s := modTp (fun t => { t with unkicked := 0 }) (modCyc (fun c => { c with sealed := true }) s)
      sealAct handoff (if s.cyc.overMask = 0 then refreshAll s else s)) s

/-- SEALING_DEADLINE (R48, R51). -/
def execSealingDeadline (s : State) : Out := inPhase (fun s => if s.cyc.sealed then s else overrun 8 s) s

/-- STRETCH_REFRESH (R210): in a stretched cycle that does not overrun. -/
def execStretchRefresh (s : State) : Out :=
  inPhase (fun s =>
    if s.fv.fw ∧ s.cyc.timer = .rephase ∧ s.cyc.overMask = 0 then refreshAll s else s) s

/-! ### Staged commands at their boundary (R46, R47, R49, R95, R455) -/

/-- Classes whose commands wait while the safe state is in force (R95, R558). -/
def outputCls (c : Nat) : Bool := decide (c ∈ [0x10, 0x12, 0x13, 0x15])

/-- A staged command whose effect has come, to be answered when everything has taken effect. -/
structure Answer where
  x  : Staged
  st : Status

/-- A staged command takes effect; the answer it gets. None: its response comes later or never. -/
def takeStaged (x : Staged) (s : State) : Option Answer × State :=
  let k := classOf x.cls
  let r := x.req
  let reply := fun (st : Status) => if x.reply then some { x := x, st := st : Answer } else none
  match x.op with
  | .set part ws =>
    match k.bound s r.inst part ws with
    | .ok =>
      let s := applySet k r.inst part ws s
      if x.cls = 0x12 ∧ r.inst < 76 ∧ (padAt s r.inst).pend.isSome = true then
        (none, if x.reply then modPad r.inst (fun p => { p with pend := p.pend.map (fun d => { d with reqs := d.reqs ++ [r] }) }) s else s)
      else (reply .ok, s)
    | st => (reply st, s)
  | .act code a =>
    match k.acts.find? (fun c => decide (c.code = code) && c.insts r.inst) with
    | none => (none, s)
    | some c =>
      match (if x.reply then c.held r s else none) with
      | some s => (none, s)
      | none => (reply .ok, c.run r.pound r.inst a s)

/-- Staged commands take effect in order of acceptance. -/
def takeAll (l : List Staged) (s : State) : List Answer × State :=
  l.foldl (fun p x =>
    let (a, s) := takeStaged x p.2
    (p.1 ++ a.toList, s)) ([], s)

/-- The response of a command that took effect at the boundary (R46, R426). -/
def giveAnswer (a : Answer) (s : State) : State :=
  let k := classOf a.x.cls
  let r := a.x.req
  match a.x.op with
  | .set .. => if a.st = .ok then answer k.code 2 r .ok (some s.cyc.number) (part0 k r.inst s) s else answer k.code 2 r a.st none [] s
  | .act code arg =>
    let pl := match k.acts.find? (fun c => decide (c.code = code) && c.insts r.inst) with
      | some c => c.result r.inst arg s
      | none => []
    if a.st = .ok then answer k.code 3 r .ok (some s.cyc.number) pl s else answer k.code 3 r a.st none [] s

/-- The staged commands `p` selects leave the shadow state. -/
def pickStaged (p : Staged → Bool) (s : State) : List Staged × State :=
  (s.cyc.staged.filter p, modCyc (fun c => { c with staged := c.staged.filter (fun x => !p x) }) s)

/-- The command's object has left its pound's share (R455, R462). -/
def shareLost (s : State) (x : Staged) : Bool :=
  let verb := match x.op with | .set .. => 2 | .act .. => 3
  x.reply && decide (x.req.tow = s.sys.tow) && !(holds s x.req.pound (handleOf s x.cls x.req.inst)) &&
  !((classOf x.cls).open0 s x.req.pound verb x.req.inst)

/-- After a change of an object list, commands of a later boundary whose object has left the share are answered
with `E_SHARE` (R462). -/
def dropLost (s : State) : State :=
  let (l, s) := pickStaged (shareLost s) s
  l.foldl (fun s x => giveAnswer { x := x, st := .eShare } s) s

/-- Outputs a reset pound owns take their chart safe state as staged state (R457). -/
def poundSafe (p : Nat) (s : State) : State :=
  let own := fun (s : State) (cls i : Nat) => decide (ownerOf s (handleOf s cls i) = p)
  let entry := fun (s : State) (t : Nat) => tget safeEntry0 s.saf.entries t
  let duty := fun (i d : Nat) (s : State) =>
    let s := modPad i (fun x => { x with cfg := { x.cfg with duty := d }, pend := x.pend.map (fun e => { e with cfg := { e.cfg with duty := d } }) }) s
    if (padAt s i).cfg.spread = 0 then s else modMot (fun m => { m with spreadDue := true }) s
  let s := (List.range 76).foldl (fun s i =>
    let paired_ := match bridgeOf s i with | some (b, _) => paired s b | none => false
    if paired_ || !own s 0x10 i then s
    else match (entry s i).action with
      | 0 => modChan i (fun c => { c with demand := 0 }) s
      | 1 => duty i 0xFFFF (modChan i (fun c => { c with demand := 1 }) s)
      | 3 => duty i ((entry s i).duty * 257) (modChan i (fun c => { c with demand := 1 }) s)
      | _ => s) s
  let s := (List.range 16).foldl (fun s k =>
    if !own s 0x15 k then s
    else match (entry s (0x50 + k)).action with
      | 0 => modFo k (fun f => { f with demand := 0 }) s
      | 1 => modFo k (fun f => { f with demand := 1 }) s
      | _ => s) s
  (List.range 6).foldl (fun s b =>
    if !own s 0x13 b then s
    else brAfter s b 0 [(8, 0)] (modBr b (fun x => { x with drive := if (entry s (0x60 + b)).action = 1 then 3 else 0 }) s)) s

/-- The safe states of resets take effect over the pounds' own staging (R457, R462). -/
def poundsSafe (s : State) : State :=
  (List.range 32).foldl (fun s p => if (pqAt s p).safeDue then poundSafe p (modPq p (fun q => { q with safeDue := false }) s) else s) s

/-- Causes of the safe state whose boundary has come (R557). -/
def safeBoundary (s : State) : State :=
  let m := s.saf.atBoundary ||| s.saf.atStrobe
  if s.saf.atBoundary = 0 then s else modSaf (fun v => { v with atBoundary := 0, atStrobe := 0 }) (enterSafe m false s)

/-- A hand-back that a release has just begun takes in the state staged for the boundary (R233, R559). -/
def refreshWaiting (was : Bool) (s : State) : State :=
  if !was && s.saf.releasing && decide (s.tp.handBack = .switching) then modTp (fun t => { t with waiting := handBackList s }) s else s

/-! ### Outputs (R41, R49, R164-R178, R210, R223) -/

/-- Outputs at a boundary that is not overrun; `c` is the number of the cycle that begins. While the device enters
SLEEP they stay off (R582). -/
def outputsBoundary (s0 : State) (c : Nat) (s : State) : State :=
  if s.pwr.state = 3 then s
  else
    let s := (List.range 6).foldl (fun s b => bridgeBoundary b (chopBoundary c b s)) s
    let s := padBegin s
    let s := if s.saf.inForce then s else padsCommit c s
    let s := chansBoundary s
    let s := (List.range 76).foldl (fun s i => if padDrives s0 i then padStep c i s else s) s
    fosBoundary s

/-- At an overrun boundary only what the Towpath governs moves (R49, R223); an off-phase of regulation ends with its period
(R179). -/
def outputsOverrun (c : Nat) (s : State) : State :=
  if s.pwr.state = 3 then s
  else tpOutputs c ((List.range 6).foldl (fun s b => chopBoundary c b s) s)

/-- The running inrush windows have lost the cycle that ended, of length `len`, as whole periods (R104). -/
def windowsRun (len : Nat) (s : State) : State :=
  (List.range 76).foldl (fun s i => modChan i (fun c =>
    if c.edgeWait then c else { c with window := c.window - (len + s.cyc.period / 2) / s.cyc.period * s.cyc.period }) s) s

/-- The first instant in the present cycle at which a list of edges leaves the output on, which is `lvl` before them. -/
def firstOn : Bool → List Nat → Option Nat
  | true, _ => some 0
  | false, [] => none
  | false, e :: _ => some e

/-- A waiting inrush window starts in the cycle that begins, at the Paddle's first on-edge; it then ends at the first boundary
at or after that instant plus the window (R104). -/
def windowStart (s : State) (i : Nat) : State :=
  if !(chanAt s i).edgeWait then s else
  let j := padIdx s i
  let per := s.cyc.period
  match firstOn (padAt s j).level (padEdges s j per) with
  | none => s
  | some o => modChan i (fun x => { x with edgeWait := false, window := x.window + (o + per - 1) / per * per }) s

/-- The inrush windows that start in the cycle that begins. -/
def windowsStart (s : State) : State := (List.range 76).foldl windowStart s

/-! ### The cycle that begins (R54-R59, R511) -/

/-- The pending period change has come to its boundary (R59). -/
def changeDue (s : State) : Option PeriodChange :=
  match s.cyc.change with
  | some c => if c.bound ≤ (workNs s + s.cyc.period / 2) / s.cyc.period * s.cyc.period then some c else none
  | none => none

/-- A period change at its boundary (R59, R62): one that a barge has not confirmed is cancelled on every device.
Answers the request to be answered with the first cycle at the new period. -/
def periodBoundary (s : State) : Option Req × Bool × State :=
  match changeDue s with
  | none => (none, false, s)
  | some c =>
    if c.confirm ≠ [] then (none, false, endChange .eTimeout (relayPeriod (periodCode s.cyc.period) 0 s))
    else (c.req, true, modCyc (fun y => { y with period := c.period, change := none }) s)

/-- A cancellation or replacement that a barge has not confirmed before the boundary of the change it ends (R62): every
device's change is cancelled, and the requests are answered E_TIMEOUT. -/
def endedBoundary (s : State) : State :=
  let now := (workNs s + s.cyc.period / 2) / s.cyc.period * s.cyc.period
  let late := s.cyc.ended.filter (fun e => decide (e.bound ≤ now))
  if late = [] then s
  else
    let s := modCyc (fun c => { c with ended := c.ended.filter (fun e => !decide (e.bound ≤ now)) }) s
    let s := endChange .eTimeout (relayPeriod (periodCode s.cyc.period) 0 s)
    (late.flatMap (·.reqs)).foldl (fun s r => answer 0x02 2 r .eTimeout none [] s) s

/-- Number of the cycle that begins (R54); a barge that adopts its tug's numbering takes the tug's (R511). -/
def nextNumber (s : State) : Nat :=
  match s.tow.adopt with
  | some n => (n + 1) % 2 ^ 48
  | none => cycleNumberAt (workNs s) s.cyc.period

/-- Phase error of a boundary at working time `t` (R55): from the nearest nominal boundary, the later at a tie. -/
def phaseError (t p : Nat) : Int := if 2 * (t % p) < p then ((t % p : Nat) : Int) else ((t % p : Nat) : Int) - p

/-- The cycle that begins at working time `t`: the timer's state and its length (R55). -/
def nextCycle (t p : Nat) : TimerState × Nat :=
  let e := phaseError t p
  if e.natAbs ≤ 100 then (.phased, ((p : Int) - e).toNat)
  else if 8 * e.natAbs ≤ p then (.slewing, ((p : Int) - clampI (-((p / 64 : Nat) : Int)) ((p / 64 : Nat) : Int) e).toNat)
  else (.rephase, (t + p + p - 1) / p * p - t)

/-- CYCLE_RENUMBERED (R57, R59, R444): the number that begins does not follow the last. -/
def tellNumber (n : Nat) (renumber : Bool) (s : State) : State :=
  if n ≠ (s.cyc.number + 1) % 2 ^ 48 ∨ renumber = true then emit 0x0203 0 s (value := n) (ext := [s.cyc.number]) else s

/-- The cycle timer's record at the beginning of cycle `n` (R54, R60): staged commands come one boundary closer. -/
def newCycle (n : Nat) (ts : TimerState) (len : Nat) (s : State) : State :=
  modCyc (fun c => { c with
    number := n, inCycle := 0, length := len, timer := ts, phase := .fill, pastCutoff := false
    doneSluice := false, doneFio := false, doneAq := false, sealed := false, overMask := 0
    staged := c.staged.map (fun x => if x.due = 0 then { x with outside := true } else { x with due := x.due - 1 }) }) s

/-- CYCLE_REPHASE (R55, R444): the cycle that begins is lengthened to meet the phase. -/
def tellRephase (ts : TimerState) (len : Nat) (s : State) : State :=
  if ts = .rephase then emit 0x0204 0 s (value := ((len - s.cyc.period : Nat) : Int)) else s

/-- Cycle `n` begins with the timer's state and length `w`. -/
def openCycle (n : Nat) (w : TimerState × Nat) (renumber : Bool) (s : State) : State :=
  tellRephase w.1 w.2 (newCycle n w.1 w.2 (tellNumber n renumber (modTow (fun t => { t with adopt := none }) s)))

/-- A cycle without an overrun has ended with the firmware running (R590). -/
def markClean (overran : Bool) (s : State) : State :=
  if s.fv.fw && !overran then modImg (fun i => { i with clean := true }) s else s

/-- The next cycle begins (R54-R57): `renumber` says that its period is new. -/
def beginCycle (overran renumber : Bool) (s : State) : State :=
  boundaryTouts (nextNumber s) (boundaryField (markClean overran
    (openCycle (nextNumber s) (nextCycle (workNs s) s.cyc.period) renumber s)))

/-- Windows of limit C close at the boundary that ends their cycle (R442). -/
def closeCycleWins (s : State) : State :=
  (s.fv.rateWins.filter (fun w => decide (evtLimit w.code = .cycle))).foldl (fun s w => closeWin w s) s

/-! ### The boundary -/

/-- Sealed state takes effect at a boundary that is not overrun; `c` is the number of the cycle that begins. -/
def sealedBoundary (c : Nat) (s : State) : State :=
  let s0 := s
  let s := swapBoundary s
  -- the safe state first: it prevails over what was sealed
  let (l, s) := pickStaged (fun x => decide (x.due = 0 ∧ x.cls = 0x60) && (match x.op with | .act .. => true | .set .. => false)) s
  let (a1, s) := takeAll l s
  let s := safeBoundary s
  let s := tpStep s
  let (l, s) := pickStaged (fun x => decide (x.due = 0) && !(s.saf.inForce && outputCls x.cls)) s
  let (a2, s) := takeAll l s
  let s := if l.any (fun x => decide (x.cls = 0x30)) then dropLost s else s
  let s := commitBoundary (match s.img.act with | some a => a.due | none => false) (poundsSafe s)
  let s := refreshWaiting s0.saf.releasing (handOver s)
  let s := segBoundary (outputsBoundary s0 c s)
  (a1 ++ a2).foldl (fun s a => giveAnswer a s) s

/-- A chart commit whose cycles count down at an overrun boundary (R49, R609). -/
def commitCount (s : State) : State :=
  modImg (fun i => { i with commit := i.commit.map (fun c => if c.mode = 1 then { c with cycles := c.cycles - 1 } else c) }) s

/-- A boundary that ends an overrun cycle (R49, R50, R52): nothing sealed takes effect. -/
def overrunBoundary (c : Nat) (s : State) : State :=
  let s := commitCount (tpStep (safeBoundary s))
  outputsOverrun c s

/-- Overruns in a row; the third raises CYCLE_SAFE (R52). -/
def countOverrun (overran : Bool) (s : State) : State :=
  if !overran then modCyc (fun c => { c with overruns := 0 }) s
  else
    let s := modCyc (fun c => { c with overruns := c.overruns + 1 }) s
    if s.cyc.overruns = 3 then emit 0x0202 0 s else s

/-- What runs on every boundary in the cycle that begins: batches, schedules, gate lists, network management,
slot tables, the tow. -/
def startWork (overran : Bool) (eff : Nat) (s : State) : State :=
  let s := if overran then s else presentOffers s
  let s := if overran then schedOverrun s else schedBoundary s
  let s := gateBoundary eff overran s
  let s := if overran then s else linBoundary s
  let s := coreBoundary (nmBoundary s)
  quietBoundary (beatWatch (beatBoundary (bargeFlush s)))

/-- The overrun is counted, a handover ends, talkers flush, and the inrush windows lose the cycle that ended. -/
def endCycle (overran : Bool) (s : State) : State :=
  let s := modSlu (fun v => { v with unalive := sat 8 (v.unalive + 1) }) (modTp (fun t => { t with unkicked := sat 8 (t.unkicked + 1) }) s)
  windowsRun s.cyc.length (flushTalkers overran (endHandover (trialRuns (countOverrun overran s))))

/-- What takes effect at the boundary. -/
def takeEffect (overran : Bool) (s : State) : State :=
  let c := nextNumber s
  let s := if overran then overrunBoundary c s else sealedBoundary c s
  closeCycleWins (handOverAct overran (boundarySluice s))

/-- A request for the new period is answered with the first cycle that has it (R59). -/
def answerPeriod (req : Option Req) (s : State) : State :=
  match req with
  | some r => answer 0x02 2 r .ok (some s.cyc.number) (encodeRec cycleRec s) s
  | none => s

/-- The boundary (R41, R46, R49, R50, R52, R54-R59, R62). -/
def boundary (s : State) : State :=
  let overran := decide (s.cyc.overMask ≠ 0)
  let p := periodBoundary (endedBoundary (endCycle overran (padsLatch s s.cyc.length s)))
  let t := answerPeriod p.1 (beginCycle overran p.2.1 (takeEffect overran p.2.2))
  let t := windowsStart (settleWaves s t)
  restartAct (faultRise (settleRelease (startWork overran s.cyc.number t)))

/-- BOUNDARY (R41); `interval` says that the interval since the last one passes the check against the RC
oscillator (R553, CYCLE_TIMER), whose failure sets cause WATCH. -/
def execBoundary (interval : Bool) (s : State) : Out :=
  inPhase (fun s =>
    let s := if interval then s else tpSet 2 (detect 0x01A false s)
    boundary s) s

end Sys2Proof.Machine
end

