-- ==== Sys2Proof/Machine/Dispatch.lean ====
section
/-! DEFINITION. One arm per command, each one call of its meaning. -/
namespace Sys2Proof.Machine

/-- The effect of a command on everything but the queue. -/
def exec (i : Instr) (s : State) : Host.Outcome State Fault Refusal :=
  match i with
  | .fillPhase x => Sys2Proof.Machine.execFillPhase x s
  | .levelPhase => Sys2Proof.Machine.execLevelPhase s
  | .levelCompletionSignal k => Sys2Proof.Machine.execLevelCompletionSignal k s
  | .applyPhase => Sys2Proof.Machine.execApplyPhase s
  | .cutoff => Sys2Proof.Machine.execCutoff s
  | .sealingWindow handoff => Sys2Proof.Machine.execSealingWindow handoff s
  | .sealingDeadline => Sys2Proof.Machine.execSealingDeadline s
  | .stretchRefresh => Sys2Proof.Machine.execStretchRefresh s
  | .boundary interval => Sys2Proof.Machine.execBoundary interval s
  | .cycleSet r => Sys2Proof.Machine.execCycleSet r s
  | .timeSet r => Sys2Proof.Machine.execTimeSet r s
  | .tideInRead r => Sys2Proof.Machine.execTideInRead r s
  | .clearTsDrop r => Sys2Proof.Machine.execClearTsDrop r s
  | .tsnapTake p bit => Sys2Proof.Machine.execTsnapTake p bit s
  | .syncReceived u e tau nrr => Sys2Proof.Machine.execSyncReceived u e tau nrr s
  | .syncReceiptTimeout u => Sys2Proof.Machine.execSyncReceiptTimeout u s
  | .holdoverLimit u => Sys2Proof.Machine.execHoldoverLimit u s
  | .gptpSyncTransmit p d => Sys2Proof.Machine.execGptpSyncTransmit p d s
  | .pdelayReqTransmit p => Sys2Proof.Machine.execPdelayReqTransmit p s
  | .pdelayMessageReceived p isReq seq t1 t2 t3 t4 => Sys2Proof.Machine.execPdelayMessageReceived p isReq seq t1 t2 t3 t4 s
  | .followUp p => Sys2Proof.Machine.execFollowUp p s
  | .tideOutEdge u => Sys2Proof.Machine.execTideOutEdge u s
  | .tideOutPulseEnd u => Sys2Proof.Machine.execTideOutPulseEnd u s
  | .tideInCapture u rising width => Sys2Proof.Machine.execTideInCapture u rising width s
  | .groupFallVOff g v => Sys2Proof.Machine.execGroupFallVOff g v s
  | .groupRiseVOff g v => Sys2Proof.Machine.execGroupRiseVOff g v s
  | .groupFallVFull g v => Sys2Proof.Machine.execGroupFallVFull g v s
  | .groupRiseVFull g v => Sys2Proof.Machine.execGroupRiseVFull g v s
  | .groupRiseVOv g v => Sys2Proof.Machine.execGroupRiseVOv g v s
  | .groupFallVOv g v => Sys2Proof.Machine.execGroupFallVOv g v s
  | .segmentFailure u g => Sys2Proof.Machine.execSegmentFailure u g s
  | .stuckTestEnd u v g => Sys2Proof.Machine.execStuckTestEnd u v g s
  | .inrushWindowEnd u => Sys2Proof.Machine.execInrushWindowEnd u s
  | .chargeComplete u => Sys2Proof.Machine.execChargeComplete u s
  | .chargeTimeLimit u e => Sys2Proof.Machine.execChargeTimeLimit u e s
  | .chargeEnergyLimit u e => Sys2Proof.Machine.execChargeEnergyLimit u e s
  | .shortTrip u e cur => Sys2Proof.Machine.execShortTrip u e cur s
  | .currentLimitOnset u cur => Sys2Proof.Machine.execCurrentLimitOnset u cur s
  | .limitTimerExpiry u e cur => Sys2Proof.Machine.execLimitTimerExpiry u e cur s
  | .limitTimerClear u => Sys2Proof.Machine.execLimitTimerClear u s
  | .cliffLatchSet u e cur => Sys2Proof.Machine.execCliffLatchSet u e cur s
  | .cliffLatchRearm u => Sys2Proof.Machine.execCliffLatchRearm u s
  | .reverseTrip u e cur => Sys2Proof.Machine.execReverseTrip u e cur s
  | .reverseFlag u => Sys2Proof.Machine.execReverseFlag u s
  | .openLoadOn u => Sys2Proof.Machine.execOpenLoadOn u s
  | .offDiagStart u => Sys2Proof.Machine.execOffDiagStart u s
  | .offDiagEnd u vPull vFree => Sys2Proof.Machine.execOffDiagEnd u vPull vFree s
  | .retryDelayEnd u => Sys2Proof.Machine.execRetryDelayEnd u s
  | .cleanTimeElapsed u => Sys2Proof.Machine.execCleanTimeElapsed u s
  | .patienceElapsed u => Sys2Proof.Machine.execPatienceElapsed u s
  | .chanSet r => Sys2Proof.Machine.execChanSet r s
  | .chanRestart r => Sys2Proof.Machine.execChanRestart r s
  | .chanClearFlags r => Sys2Proof.Machine.execChanClearFlags r s
  | .chanOffDiag r => Sys2Proof.Machine.execChanOffDiag r s
  | .adcReferenceFailure g spare err => Sys2Proof.Machine.execAdcReferenceFailure g spare err s
  | .adcCrossCheckFailure u => Sys2Proof.Machine.execAdcCrossCheckFailure u s
  | .modelStateStore => Sys2Proof.Machine.execModelStateStore s
  | .lidSensorMismatch => Sys2Proof.Machine.execLidSensorMismatch s
  | .hostAmbientStale b => Sys2Proof.Machine.execHostAmbientStale b s
  | .wireSet r => Sys2Proof.Machine.execWireSet r s
  | .wireSub r => Sys2Proof.Machine.execWireSub r s
  | .fallbackTrip u e cur => Sys2Proof.Machine.execFallbackTrip u e cur s
  | .sluiceResume => Sys2Proof.Machine.execSluiceResume s
  | .budgetRestore b => Sys2Proof.Machine.execBudgetRestore b s
  | .budgetFail b => Sys2Proof.Machine.execBudgetFail b s
  | .paddleSet r => Sys2Proof.Machine.execPaddleSet r s
  | .bridgeSet r => Sys2Proof.Machine.execBridgeSet r s
  | .reversalBrakeEnd b => Sys2Proof.Machine.execReversalBrakeEnd b s
  | .regulationChop b => Sys2Proof.Machine.execRegulationChop b s
  | .rippleCrossing b iv cur exc mean => Sys2Proof.Machine.execRippleCrossing b iv cur exc mean s
  | .rippleInsertion b cur => Sys2Proof.Machine.execRippleInsertion b cur s
  | .backEmfStop b => Sys2Proof.Machine.execBackEmfStop b s
  | .stall b cur => Sys2Proof.Machine.execStall b cur s
  | .pinchBrakeEnd b => Sys2Proof.Machine.execPinchBrakeEnd b s
  | .brakeHoldEnd b cur => Sys2Proof.Machine.execBrakeHoldEnd b cur s
  | .bridgeSetPos r => Sys2Proof.Machine.execBridgeSetPos r s
  | .bridgeClear r => Sys2Proof.Machine.execBridgeClear r s
  | .dinSet r => Sys2Proof.Machine.execDinSet r s
  | .diWakePoll v => Sys2Proof.Machine.execDiWakePoll v s
  | .clsHoldEnter => Sys2Proof.Machine.execClsHoldEnter s
  | .clsHoldExit => Sys2Proof.Machine.execClsHoldExit s
  | .foutSet r => Sys2Proof.Machine.execFoutSet r s
  | .foutLocate r => Sys2Proof.Machine.execFoutLocate r s
  | .foutClear r => Sys2Proof.Machine.execFoutClear r s
  | .foThermalShutdown k => Sys2Proof.Machine.execFoThermalShutdown k s
  | .foThermalRestart k => Sys2Proof.Machine.execFoThermalRestart k s
  | .foLimitHeld k => Sys2Proof.Machine.execFoLimitHeld k s
  | .silenceExpiry k => Sys2Proof.Machine.execSilenceExpiry k s
  | .ainSet r => Sys2Proof.Machine.execAinSet r s
  | .supLimit j => Sys2Proof.Machine.execSupLimit j s
  | .supShortBat j => Sys2Proof.Machine.execSupShortBat j s
  | .supThermal j => Sys2Proof.Machine.execSupThermal j s
  | .supRetry j => Sys2Proof.Machine.execSupRetry j s
  | .supClean j => Sys2Proof.Machine.execSupClean j s
  | .limpSet => Sys2Proof.Machine.execLimpSet s
  | .limpClear => Sys2Proof.Machine.execLimpClear s
  | .watchExpiry => Sys2Proof.Machine.execWatchExpiry s
  | .isolationTimeout => Sys2Proof.Machine.execIsolationTimeout s
  | .towpathEngage r => Sys2Proof.Machine.execTowpathEngage r s
  | .towpathRelease r => Sys2Proof.Machine.execTowpathRelease r s
  | .towpathRcStep x => Sys2Proof.Machine.execTowpathRcStep x s
  | .towpathTableRead => Sys2Proof.Machine.execTowpathTableRead s
  | .towpathTableCheck badA badB => Sys2Proof.Machine.execTowpathTableCheck badA badB s
  | .canFrameReceived c f sec ns spare => Sys2Proof.Machine.execCanFrameReceived c f sec ns spare s
  | .canTransmitOpportunity c fromIdle loopDelay => Sys2Proof.Machine.execCanTransmitOpportunity c fromIdle loopDelay s
  | .canTxSuccess c sec ns => Sys2Proof.Machine.execCanTxSuccess c sec ns s
  | .canArbitrationLost c => Sys2Proof.Machine.execCanArbitrationLost c s
  | .canError c e => Sys2Proof.Machine.execCanError c e s
  | .canTxDeadline c => Sys2Proof.Machine.execCanTxDeadline c s
  | .canSend r => Sys2Proof.Machine.execCanSend r s
  | .canRecover r => Sys2Proof.Machine.execCanRecover r s
  | .canClearCounters r => Sys2Proof.Machine.execCanClearCounters r s
  | .canSwap r => Sys2Proof.Machine.execCanSwap r s
  | .canSet r => Sys2Proof.Machine.execCanSet r s
  | .canModeChange c => Sys2Proof.Machine.execCanModeChange c s
  | .busIntegration c => Sys2Proof.Machine.execBusIntegration c s
  | .recoveryRequest c => Sys2Proof.Machine.execRecoveryRequest c s
  | .recoveryComplete c => Sys2Proof.Machine.execRecoveryComplete c s
  | .recoveryWaitReport c => Sys2Proof.Machine.execRecoveryWaitReport c s
  | .boffRunReset c => Sys2Proof.Machine.execBoffRunReset c s
  | .spareShadowPeriodEnd => Sys2Proof.Machine.execSpareShadowPeriodEnd s
  | .spareSelfTest pass => Sys2Proof.Machine.execSpareSelfTest pass s
  | .controllerSwap c => Sys2Proof.Machine.execControllerSwap c s
  | .canDominantTimeout c => Sys2Proof.Machine.execCanDominantTimeout c s
  | .canWake c x => Sys2Proof.Machine.execCanWake c x s
  | .linWake c dom => Sys2Proof.Machine.execLinWake c dom s
  | .heartbeat => Sys2Proof.Machine.execHeartbeat s
  | .heartbeatTimeout => Sys2Proof.Machine.execHeartbeatTimeout s
  | .sleepPath => Sys2Proof.Machine.execSleepPath s
  | .linSlotStart c => Sys2Proof.Machine.execLinSlotStart c s
  | .linResponseReceived c err data chk sec ns => Sys2Proof.Machine.execLinResponseReceived c err data chk sec ns s
  | .linNoResponse c => Sys2Proof.Machine.execLinNoResponse c s
  | .linSwitch r => Sys2Proof.Machine.execLinSwitch r s
  | .linSet r => Sys2Proof.Machine.execLinSet r s
  | .linGoToSleepReceived c => Sys2Proof.Machine.execLinGoToSleepReceived c s
  | .linBusIdle c => Sys2Proof.Machine.execLinBusIdle c s
  | .linWakeRetry c => Sys2Proof.Machine.execLinWakeRetry c s
  | .linScheduleResume c => Sys2Proof.Machine.execLinScheduleResume c s
  | .nmRequest r => Sys2Proof.Machine.execNmRequest r s
  | .nmRelease r => Sys2Proof.Machine.execNmRelease r s
  | .nmRepeat r => Sys2Proof.Machine.execNmRepeat r s
  | .nmLinkSleep r => Sys2Proof.Machine.execNmLinkSleep r s
  | .nmSet r => Sys2Proof.Machine.execNmSet r s
  | .nmPduReceived k id ide b => Sys2Proof.Machine.execNmPduReceived k id ide b s
  | .repeatTimeEnd k => Sys2Proof.Machine.execRepeatTimeEnd k s
  | .nmTimeout k => Sys2Proof.Machine.execNmTimeout k s
  | .waitTimeEnd k => Sys2Proof.Machine.execWaitTimeEnd k s
  | .keepWatch k => Sys2Proof.Machine.execKeepWatch k s
  | .isolatedHoldEnd => Sys2Proof.Machine.execIsolatedHoldEnd s
  | .tc10SleepAck k => Sys2Proof.Machine.execTc10SleepAck k s
  | .tc10AckTimeout k => Sys2Proof.Machine.execTc10AckTimeout k s
  | .tc10PeerSleepRequest k => Sys2Proof.Machine.execTc10PeerSleepRequest k s
  | .tc10Wake k => Sys2Proof.Machine.execTc10Wake k s
  | .aqueductArrival => Sys2Proof.Machine.execAqueductArrival s
  | .routeSet r => Sys2Proof.Machine.execRouteSet r s
  | .routeClearCounters r => Sys2Proof.Machine.execRouteClearCounters r s
  | .tunnelAvtpduReceived => Sys2Proof.Machine.execTunnelAvtpduReceived s
  | .cmacCompletion => Sys2Proof.Machine.execCmacCompletion s
  | .portLinkChange p up sqi speed => Sys2Proof.Machine.execPortLinkChange p up sqi speed s
  | .ethFrameReceived p f len fcsOk tag => Sys2Proof.Machine.execEthFrameReceived p f len fcsOk tag s
  | .plcaBeaconTimeout p => Sys2Proof.Machine.execPlcaBeaconTimeout p s
  | .plcaBeaconReceived p => Sys2Proof.Machine.execPlcaBeaconReceived p s
  | .ethFrameTransmit p collisions ecc => Sys2Proof.Machine.execEthFrameTransmit p collisions ecc s
  | .hostPortDelivery => Sys2Proof.Machine.execHostPortDelivery s
  | .txFrameFetch p r => Sys2Proof.Machine.execTxFrameFetch p r s
  | .eopTimeout p r => Sys2Proof.Machine.execEopTimeout p r s
  | .ts2Timeout p r id => Sys2Proof.Machine.execTs2Timeout p r id s
  | .portSet r => Sys2Proof.Machine.execPortSet r s
  | .portClearCounters r => Sys2Proof.Machine.execPortClearCounters r s
  | .basinIngress full => Sys2Proof.Machine.execBasinIngress full s
  | .transmissionSelection p => Sys2Proof.Machine.execTransmissionSelection p s
  | .gateIntervalEnd p => Sys2Proof.Machine.execGateIntervalEnd p s
  | .overflowFetchBack q => Sys2Proof.Machine.execOverflowFetchBack q s
  | .streamRecoveryReset u => Sys2Proof.Machine.execStreamRecoveryReset u s
  | .resequencerTimeout u => Sys2Proof.Machine.execResequencerTimeout u s
  | .basinSet r => Sys2Proof.Machine.execBasinSet r s
  | .basinClearCounters r => Sys2Proof.Machine.execBasinClearCounters r s
  | .streamSet r => Sys2Proof.Machine.execStreamSet r s
  | .streamUnblock r => Sys2Proof.Machine.execStreamUnblock r s
  | .streamClearCounters r => Sys2Proof.Machine.execStreamClearCounters r s
  | .streamResetSeq r => Sys2Proof.Machine.execStreamResetSeq r s
  | .desyncResponse p b => Sys2Proof.Machine.execDesyncResponse p b s
  | .runSet e => Sys2Proof.Machine.execRunSet e s
  | .runClear e => Sys2Proof.Machine.execRunClear e s
  | .commandDoorbell e tail => Sys2Proof.Machine.execCommandDoorbell e tail s
  | .commandFetch e b => Sys2Proof.Machine.execCommandFetch e b s
  | .responseHeadWrite e head => Sys2Proof.Machine.execResponseHeadWrite e head s
  | .eventHeadWrite e head => Sys2Proof.Machine.execEventHeadWrite e head s
  | .receiveRingPost e r tail l => Sys2Proof.Machine.execReceiveRingPost e r tail l s
  | .transmitRingDoorbell e r tail l => Sys2Proof.Machine.execTransmitRingDoorbell e r tail l s
  | .causeClear e mask same => Sys2Proof.Machine.execCauseClear e mask same s
  | .registerWrite e off val word => Sys2Proof.Machine.execRegisterWrite e off val word s
  | .outboundDoorbell p => Sys2Proof.Machine.execOutboundDoorbell p s
  | .interruptModerationEnd e v => Sys2Proof.Machine.execInterruptModerationEnd e v s
  | .dmaReadTimeout e k got => Sys2Proof.Machine.execDmaReadTimeout e k got s
  | .dmaReadError e k got => Sys2Proof.Machine.execDmaReadError e k got s
  | .dmaWriteFailure e ring => Sys2Proof.Machine.execDmaWriteFailure e ring s
  | .functionLevelReset f => Sys2Proof.Machine.execFunctionLevelReset f s
  | .ethTransportDatagram => Sys2Proof.Machine.execEthTransportDatagram s
  | .segmentTimeout p => Sys2Proof.Machine.execSegmentTimeout p s
  | .spiWrite b => Sys2Proof.Machine.execSpiWrite b s
  | .spiStatus => Sys2Proof.Machine.execSpiStatus s
  | .spiRead n => Sys2Proof.Machine.execSpiRead n s
  | .spiUnknownInstruction => Sys2Proof.Machine.execSpiUnknownInstruction s
  | .spiByteGap b => Sys2Proof.Machine.execSpiByteGap b s
  | .favalGet cls r => Sys2Proof.Machine.execFavalGet cls r s
  | .favalSub cls r => Sys2Proof.Machine.execFavalSub cls r s
  | .favalUnsub cls r => Sys2Proof.Machine.execFavalUnsub cls r s
  | .favalList cls r => Sys2Proof.Machine.execFavalList cls r s
  | .sysClearCounters r => Sys2Proof.Machine.execSysClearCounters r s
  | .suppressionWindowClose p code handle => Sys2Proof.Machine.execSuppressionWindowClose p code handle s
  | .eventRateWindow => Sys2Proof.Machine.execEventRateWindow s
  | .poundSet r => Sys2Proof.Machine.execPoundSet r s
  | .poundReset r => Sys2Proof.Machine.execPoundReset r s
  | .poundRemove r => Sys2Proof.Machine.execPoundRemove r s
  | .poundResetComplete p => Sys2Proof.Machine.execPoundResetComplete p s
  | .ownershipTransfer p => Sys2Proof.Machine.execOwnershipTransfer p s
  | .coreSet r => Sys2Proof.Machine.execCoreSet r s
  | .coreSwap r => Sys2Proof.Machine.execCoreSwap r s
  | .spareTakeover => Sys2Proof.Machine.execSpareTakeover s
  | .slotStart k j => Sys2Proof.Machine.execSlotStart k j s
  | .coreMismatch k second mon injected => Sys2Proof.Machine.execCoreMismatch k second mon injected s
  | .lbistComplete k pass => Sys2Proof.Machine.execLbistComplete k pass s
  | .spareLbist pass => Sys2Proof.Machine.execSpareLbist pass s
  | .scrubPass corrected l2 l1 stuck uncorr => Sys2Proof.Machine.execScrubPass corrected l2 l1 stuck uncorr s
  | .sramUncorrectable addr p mon place recurs => Sys2Proof.Machine.execSramUncorrectable addr p mon place recurs s
  | .accessFault p addr kind => Sys2Proof.Machine.execAccessFault p addr kind s
  | .towlineLinkUp x => Sys2Proof.Machine.execTowlineLinkUp x s
  | .towlineLinkDown x => Sys2Proof.Machine.execTowlineLinkDown x s
  | .towlineFrameGap x noise cmd => Sys2Proof.Machine.execTowlineFrameGap x noise cmd s
  | .dataFrameReceived x chk f => Sys2Proof.Machine.execDataFrameReceived x chk f s
  | .favalFrameReceived x chk f => Sys2Proof.Machine.execFavalFrameReceived x chk f s
  | .postFrameReceived x chk f bad => Sys2Proof.Machine.execPostFrameReceived x chk f bad s
  | .noteFrameReceived x chk f => Sys2Proof.Machine.execNoteFrameReceived x chk f s
  | .lateFrameReceived x chk f => Sys2Proof.Machine.execLateFrameReceived x chk f s
  | .beatReceived x chk f locked => Sys2Proof.Machine.execBeatReceived x chk f locked s
  | .enumReceived x chk f peer quiet => Sys2Proof.Machine.execEnumReceived x chk f peer quiet s
  | .enumAckReceived x chk f => Sys2Proof.Machine.execEnumAckReceived x chk f s
  | .assignReceived x chk f => Sys2Proof.Machine.execAssignReceived x chk f s
  | .topoReceived x chk f => Sys2Proof.Machine.execTopoReceived x chk f s
  | .creditReceived x chk f => Sys2Proof.Machine.execCreditReceived x chk f s
  | .towEnumerate r => Sys2Proof.Machine.execTowEnumerate r s
  | .enumTbDelay => Sys2Proof.Machine.execEnumTbDelay s
  | .enumRepeat => Sys2Proof.Machine.execEnumRepeat s
  | .bargeStranded => Sys2Proof.Machine.execBargeStranded s
  | .tugStrandDeclare a => Sys2Proof.Machine.execTugStrandDeclare a s
  | .strandHoldEnd => Sys2Proof.Machine.execStrandHoldEnd s
  | .relayTimeout a tag => Sys2Proof.Machine.execRelayTimeout a tag s
  | .towResync r => Sys2Proof.Machine.execTowResync r s
  | .resyncTimeout a => Sys2Proof.Machine.execResyncTimeout a s
  | .resyncExit a dropped => Sys2Proof.Machine.execResyncExit a dropped s
  | .towPortRelease r => Sys2Proof.Machine.execTowPortRelease r s
  | .towReload r => Sys2Proof.Machine.execTowReload r s
  | .towSet r => Sys2Proof.Machine.execTowSet r s
  | .revertHoldEnd x => Sys2Proof.Machine.execRevertHoldEnd x s
  | .towlineReseqTimeout src v => Sys2Proof.Machine.execTowlineReseqTimeout src v s
  | .bargeLoadRetry a => Sys2Proof.Machine.execBargeLoadRetry a s
  | .lhEncrypt p r => Sys2Proof.Machine.execLhEncrypt p r s
  | .lhDecrypt p r => Sys2Proof.Machine.execLhDecrypt p r s
  | .lhMacGen p r => Sys2Proof.Machine.execLhMacGen p r s
  | .lhMacVerify p r => Sys2Proof.Machine.execLhMacVerify p r s
  | .lhHash p r => Sys2Proof.Machine.execLhHash p r s
  | .lhSign p r => Sys2Proof.Machine.execLhSign p r s
  | .lhVerify p r => Sys2Proof.Machine.execLhVerify p r s
  | .lhAgree p r => Sys2Proof.Machine.execLhAgree p r s
  | .lhRandom p r => Sys2Proof.Machine.execLhRandom p r s
  | .lhClear p => Sys2Proof.Machine.execLhClear p s
  | .lhRequestComplete p got trunc => Sys2Proof.Machine.execLhRequestComplete p got trunc s
  | .lhWatchdogExpiry => Sys2Proof.Machine.execLhWatchdogExpiry s
  | .lhRestartComplete kat lost bad again => Sys2Proof.Machine.execLhRestartComplete kat lost bad again s
  | .blockHandover b claims => Sys2Proof.Machine.execBlockHandover b claims s
  | .blockReturn b => Sys2Proof.Machine.execBlockReturn b s
  | .claimDeferralTimeout => Sys2Proof.Machine.execClaimDeferralTimeout s
  | .keyGenerate r => Sys2Proof.Machine.execKeyGenerate r s
  | .keyImport r => Sys2Proof.Machine.execKeyImport r s
  | .keyDerive r => Sys2Proof.Machine.execKeyDerive r s
  | .keyUpdate r => Sys2Proof.Machine.execKeyUpdate r s
  | .keyInvalidate r => Sys2Proof.Machine.execKeyInvalidate r s
  | .lightAttest r => Sys2Proof.Machine.execLightAttest r s
  | .lightDebugChallenge r tap => Sys2Proof.Machine.execLightDebugChallenge r tap s
  | .lightDebugResponse r tap => Sys2Proof.Machine.execLightDebugResponse r tap s
  | .challengeExpiry => Sys2Proof.Machine.execChallengeExpiry s
  | .debugAuthExpiry => Sys2Proof.Machine.execDebugAuthExpiry s
  | .safeEnter r => Sys2Proof.Machine.execSafeEnter r s
  | .safeRelease r => Sys2Proof.Machine.execSafeRelease r s
  | .safeSet r => Sys2Proof.Machine.execSafeSet r s
  | .safeStrobe => Sys2Proof.Machine.execSafeStrobe s
  | .breachRun r => Sys2Proof.Machine.execBreachRun r s
  | .breachResultWindowEnd bp reaction => Sys2Proof.Machine.execBreachResultWindowEnd bp reaction s
  | .latentTestRun bp inst first second => Sys2Proof.Machine.execLatentTestRun bp inst first second s
  | .pondBringIn r => Sys2Proof.Machine.execPondBringIn r s
  | .sramBankCopyComplete => Sys2Proof.Machine.execSramBankCopyComplete s
  | .thermalEmergency => Sys2Proof.Machine.execThermalEmergency s
  | .vkeepMon => Sys2Proof.Machine.execVkeepMon s
  | .vcoreMon => Sys2Proof.Machine.execVcoreMon s
  | .vioMon rail low => Sys2Proof.Machine.execVioMon rail low s
  | .clockMon => Sys2Proof.Machine.execClockMon s
  | .busTimeout => Sys2Proof.Machine.execBusTimeout s
  | .emramEcc kind off => Sys2Proof.Machine.execEmramEcc kind off s
  | .tableEcc kind u reload => Sys2Proof.Machine.execTableEcc kind u reload s
  | .faultNReadback => Sys2Proof.Machine.execFaultNReadback s
  | .sluiceSilent => Sys2Proof.Machine.execSluiceSilent s
  | .sluiceCode => Sys2Proof.Machine.execSluiceCode s
  | .trngHealth pass => Sys2Proof.Machine.execTrngHealth pass s
  | .powerSet r => Sys2Proof.Machine.execPowerSet r s
  | .powerEnter r => Sys2Proof.Machine.execPowerEnter r s
  | .avsAcknowledge mv => Sys2Proof.Machine.execAvsAcknowledge mv s
  | .avsAttemptTimeout => Sys2Proof.Machine.execAvsAttemptTimeout s
  | .transitionComplete => Sys2Proof.Machine.execTransitionComplete s
  | .sleepEntry => Sys2Proof.Machine.execSleepEntry s
  | .autoSleep => Sys2Proof.Machine.execAutoSleep s
  | .awakeThreshold u v above => Sys2Proof.Machine.execAwakeThreshold u v above s
  | .wakeTimer => Sys2Proof.Machine.execWakeTimer s
  | .limpWake => Sys2Proof.Machine.execLimpWake s
  | .boardnetLoss => Sys2Proof.Machine.execBoardnetLoss s
  | .wakeDomainReset => Sys2Proof.Machine.execWakeDomainReset s
  | .resetAssert => Sys2Proof.Machine.execResetAssert s
  | .start tugSel ref => Sys2Proof.Machine.execStart tugSel ref s
  | .referenceTimeout => Sys2Proof.Machine.execReferenceTimeout s
  | .firmwareRun ddr xspi lost bad => Sys2Proof.Machine.execFirmwareRun ddr xspi lost bad s
  | .startComplete => Sys2Proof.Machine.execStartComplete s
  | .startFailure cause => Sys2Proof.Machine.execStartFailure cause s
  | .startRetry ref => Sys2Proof.Machine.execStartRetry ref s
  | .lockkeeperRestart mem clock ref => Sys2Proof.Machine.execLockkeeperRestart mem clock ref s
  | .imageWrite r => Sys2Proof.Machine.execImageWrite r s
  | .imageVerify r => Sys2Proof.Machine.execImageVerify r s
  | .imageActivate r => Sys2Proof.Machine.execImageActivate r s
  | .imageRollback r => Sys2Proof.Machine.execImageRollback r s
  | .trialEnd => Sys2Proof.Machine.execTrialEnd s
  | .lockThroughPrepared => Sys2Proof.Machine.execLockThroughPrepared s
  | .readyFlagTimeout => Sys2Proof.Machine.execReadyFlagTimeout s
  | .highWaterCancel => Sys2Proof.Machine.execHighWaterCancel s
  | .chartWrite r => Sys2Proof.Machine.execChartWrite r s
  | .chartCommit r => Sys2Proof.Machine.execChartCommit r s
  | .chartRollback r => Sys2Proof.Machine.execChartRollback r s
  | .gptpAnnounceReceived u p gm vec => Sys2Proof.Machine.execGptpAnnounceReceived u p gm vec s
  | .linHeaderReceived c pid rate => Sys2Proof.Machine.execLinHeaderReceived c pid rate s
  | .thermalEmergencyClear => Sys2Proof.Machine.execThermalEmergencyClear s
  | .supplyRailRecovery rail => Sys2Proof.Machine.execSupplyRailRecovery rail s
  | .creditWaitExpiry x => Sys2Proof.Machine.execCreditWaitExpiry x s
  | .addressResolutionRequest u mac ip => Sys2Proof.Machine.execAddressResolutionRequest u mac ip s
  | .debugHalt k => Sys2Proof.Machine.execDebugHalt k s
  | .debugResume k => Sys2Proof.Machine.execDebugResume k s
  | .boundaryScanInstruction code => Sys2Proof.Machine.execBoundaryScanInstruction code s
  | .shaperCreditRecovery p c => Sys2Proof.Machine.execShaperCreditRecovery p c s

end Sys2Proof.Machine
end

