-- ==== Sys2Proof/WellFormed.lean ====
section
/-! DEFINITION. Which commands the outside can send: a unit the device has, a request whose fields fit the header
of R391, a towline frame whose fields fit the header of R497. -/
namespace Sys2Proof

open Machine

/-- The fields of a request fit the header (R391), and its payload is at most 4080 bytes (R393). -/
def Req.wellFormed (r : Req) : Bool :=
  decide (r.pound < 32 ∧ r.tow < 64 ∧ r.inst < 2 ^ 18 ∧ r.tag < 2 ^ 16 ∧ r.payload.length ≤ 4080)

/-- The fields of a frame fit the towline header (R497). -/
def TowFrameOk (f : TowFrame) : Bool :=
  decide (f.vc < 4 ∧ f.src < 64 ∧ f.dst < 64 ∧ f.seq < 2 ^ 16)

/-- The request a command carries. -/
def Instr.request : Instr → Option Req
  | .fillPhase _ => none
  | .levelPhase => none
  | .levelCompletionSignal _ => none
  | .applyPhase => none
  | .cutoff => none
  | .sealingWindow _ => none
  | .sealingDeadline => none
  | .stretchRefresh => none
  | .boundary _ => none
  | .cycleSet r => some r
  | .timeSet r => some r
  | .tideInRead r => some r
  | .clearTsDrop r => some r
  | .tsnapTake _ _ => none
  | .syncReceived _ _ _ _ => none
  | .syncReceiptTimeout _ => none
  | .holdoverLimit _ => none
  | .gptpSyncTransmit _ _ => none
  | .pdelayReqTransmit _ => none
  | .pdelayMessageReceived _ _ _ _ _ _ _ => none
  | .followUp _ => none
  | .tideOutEdge _ => none
  | .tideOutPulseEnd _ => none
  | .tideInCapture _ _ _ => none
  | .groupFallVOff _ _ => none
  | .groupRiseVOff _ _ => none
  | .groupFallVFull _ _ => none
  | .groupRiseVFull _ _ => none
  | .groupRiseVOv _ _ => none
  | .groupFallVOv _ _ => none
  | .segmentFailure _ _ => none
  | .stuckTestEnd _ _ _ => none
  | .inrushWindowEnd _ => none
  | .chargeComplete _ => none
  | .chargeTimeLimit _ _ => none
  | .chargeEnergyLimit _ _ => none
  | .shortTrip _ _ _ => none
  | .currentLimitOnset _ _ => none
  | .limitTimerExpiry _ _ _ => none
  | .limitTimerClear _ => none
  | .cliffLatchSet _ _ _ => none
  | .cliffLatchRearm _ => none
  | .reverseTrip _ _ _ => none
  | .reverseFlag _ => none
  | .openLoadOn _ => none
  | .offDiagStart _ => none
  | .offDiagEnd _ _ _ => none
  | .retryDelayEnd _ => none
  | .cleanTimeElapsed _ => none
  | .patienceElapsed _ => none
  | .chanSet r => some r
  | .chanRestart r => some r
  | .chanClearFlags r => some r
  | .chanOffDiag r => some r
  | .adcReferenceFailure _ _ _ => none
  | .adcCrossCheckFailure _ => none
  | .modelStateStore => none
  | .lidSensorMismatch => none
  | .hostAmbientStale _ => none
  | .wireSet r => some r
  | .wireSub r => some r
  | .fallbackTrip _ _ _ => none
  | .sluiceResume => none
  | .budgetRestore _ => none
  | .budgetFail _ => none
  | .paddleSet r => some r
  | .bridgeSet r => some r
  | .reversalBrakeEnd _ => none
  | .regulationChop _ => none
  | .rippleCrossing _ _ _ _ _ => none
  | .rippleInsertion _ _ => none
  | .backEmfStop _ => none
  | .stall _ _ => none
  | .pinchBrakeEnd _ => none
  | .brakeHoldEnd _ _ => none
  | .bridgeSetPos r => some r
  | .bridgeClear r => some r
  | .dinSet r => some r
  | .diWakePoll _ => none
  | .clsHoldEnter => none
  | .clsHoldExit => none
  | .foutSet r => some r
  | .foutLocate r => some r
  | .foutClear r => some r
  | .foThermalShutdown _ => none
  | .foThermalRestart _ => none
  | .foLimitHeld _ => none
  | .silenceExpiry _ => none
  | .ainSet r => some r
  | .supLimit _ => none
  | .supShortBat _ => none
  | .supThermal _ => none
  | .supRetry _ => none
  | .supClean _ => none
  | .limpSet => none
  | .limpClear => none
  | .watchExpiry => none
  | .isolationTimeout => none
  | .towpathEngage r => some r
  | .towpathRelease r => some r
  | .towpathRcStep _ => none
  | .towpathTableRead => none
  | .towpathTableCheck _ _ => none
  | .canFrameReceived _ _ _ _ _ => none
  | .canTransmitOpportunity _ _ _ => none
  | .canTxSuccess _ _ _ => none
  | .canArbitrationLost _ => none
  | .canError _ _ => none
  | .canTxDeadline _ => none
  | .canSend r => some r
  | .canRecover r => some r
  | .canClearCounters r => some r
  | .canSwap r => some r
  | .canSet r => some r
  | .canModeChange _ => none
  | .busIntegration _ => none
  | .recoveryRequest _ => none
  | .recoveryComplete _ => none
  | .recoveryWaitReport _ => none
  | .boffRunReset _ => none
  | .spareShadowPeriodEnd => none
  | .spareSelfTest _ => none
  | .controllerSwap _ => none
  | .canDominantTimeout _ => none
  | .canWake _ _ => none
  | .linWake _ _ => none
  | .heartbeat => none
  | .heartbeatTimeout => none
  | .sleepPath => none
  | .linSlotStart _ => none
  | .linResponseReceived _ _ _ _ _ _ => none
  | .linNoResponse _ => none
  | .linSwitch r => some r
  | .linSet r => some r
  | .linGoToSleepReceived _ => none
  | .linBusIdle _ => none
  | .linWakeRetry _ => none
  | .linScheduleResume _ => none
  | .nmRequest r => some r
  | .nmRelease r => some r
  | .nmRepeat r => some r
  | .nmLinkSleep r => some r
  | .nmSet r => some r
  | .nmPduReceived _ _ _ _ => none
  | .repeatTimeEnd _ => none
  | .nmTimeout _ => none
  | .waitTimeEnd _ => none
  | .keepWatch _ => none
  | .isolatedHoldEnd => none
  | .tc10SleepAck _ => none
  | .tc10AckTimeout _ => none
  | .tc10PeerSleepRequest _ => none
  | .tc10Wake _ => none
  | .aqueductArrival => none
  | .routeSet r => some r
  | .routeClearCounters r => some r
  | .tunnelAvtpduReceived => none
  | .cmacCompletion => none
  | .portLinkChange _ _ _ _ => none
  | .ethFrameReceived _ _ _ _ _ => none
  | .plcaBeaconTimeout _ => none
  | .plcaBeaconReceived _ => none
  | .ethFrameTransmit _ _ _ => none
  | .hostPortDelivery => none
  | .txFrameFetch _ _ => none
  | .eopTimeout _ _ => none
  | .ts2Timeout _ _ _ => none
  | .portSet r => some r
  | .portClearCounters r => some r
  | .basinIngress _ => none
  | .transmissionSelection _ => none
  | .gateIntervalEnd _ => none
  | .overflowFetchBack _ => none
  | .streamRecoveryReset _ => none
  | .resequencerTimeout _ => none
  | .basinSet r => some r
  | .basinClearCounters r => some r
  | .streamSet r => some r
  | .streamUnblock r => some r
  | .streamClearCounters r => some r
  | .streamResetSeq r => some r
  | .desyncResponse _ _ => none
  | .runSet _ => none
  | .runClear _ => none
  | .commandDoorbell _ _ => none
  | .commandFetch _ _ => none
  | .responseHeadWrite _ _ => none
  | .eventHeadWrite _ _ => none
  | .receiveRingPost _ _ _ _ => none
  | .transmitRingDoorbell _ _ _ _ => none
  | .causeClear _ _ _ => none
  | .registerWrite _ _ _ _ => none
  | .outboundDoorbell _ => none
  | .interruptModerationEnd _ _ => none
  | .dmaReadTimeout _ _ _ => none
  | .dmaReadError _ _ _ => none
  | .dmaWriteFailure _ _ => none
  | .functionLevelReset _ => none
  | .ethTransportDatagram => none
  | .segmentTimeout _ => none
  | .spiWrite _ => none
  | .spiStatus => none
  | .spiRead _ => none
  | .spiUnknownInstruction => none
  | .spiByteGap _ => none
  | .favalGet _ r => some r
  | .favalSub _ r => some r
  | .favalUnsub _ r => some r
  | .favalList _ r => some r
  | .sysClearCounters r => some r
  | .suppressionWindowClose _ _ _ => none
  | .eventRateWindow => none
  | .poundSet r => some r
  | .poundReset r => some r
  | .poundRemove r => some r
  | .poundResetComplete _ => none
  | .ownershipTransfer _ => none
  | .coreSet r => some r
  | .coreSwap r => some r
  | .spareTakeover => none
  | .slotStart _ _ => none
  | .coreMismatch _ _ _ _ => none
  | .lbistComplete _ _ => none
  | .spareLbist _ => none
  | .scrubPass _ _ _ _ _ => none
  | .sramUncorrectable _ _ _ _ _ => none
  | .accessFault _ _ _ => none
  | .towlineLinkUp _ => none
  | .towlineLinkDown _ => none
  | .towlineFrameGap _ _ _ => none
  | .dataFrameReceived _ _ _ => none
  | .favalFrameReceived _ _ _ => none
  | .postFrameReceived _ _ _ _ => none
  | .noteFrameReceived _ _ _ => none
  | .lateFrameReceived _ _ _ => none
  | .beatReceived _ _ _ _ => none
  | .enumReceived _ _ _ _ _ => none
  | .enumAckReceived _ _ _ => none
  | .assignReceived _ _ _ => none
  | .topoReceived _ _ _ => none
  | .creditReceived _ _ _ => none
  | .towEnumerate r => some r
  | .enumTbDelay => none
  | .enumRepeat => none
  | .bargeStranded => none
  | .tugStrandDeclare _ => none
  | .strandHoldEnd => none
  | .relayTimeout _ _ => none
  | .towResync r => some r
  | .resyncTimeout _ => none
  | .resyncExit _ _ => none
  | .towPortRelease r => some r
  | .towReload r => some r
  | .towSet r => some r
  | .revertHoldEnd _ => none
  | .towlineReseqTimeout _ _ => none
  | .bargeLoadRetry _ => none
  | .lhEncrypt _ _ => none
  | .lhDecrypt _ _ => none
  | .lhMacGen _ _ => none
  | .lhMacVerify _ _ => none
  | .lhHash _ _ => none
  | .lhSign _ _ => none
  | .lhVerify _ _ => none
  | .lhAgree _ _ => none
  | .lhRandom _ _ => none
  | .lhClear _ => none
  | .lhRequestComplete _ _ _ => none
  | .lhWatchdogExpiry => none
  | .lhRestartComplete _ _ _ _ => none
  | .blockHandover _ _ => none
  | .blockReturn _ => none
  | .claimDeferralTimeout => none
  | .keyGenerate r => some r
  | .keyImport r => some r
  | .keyDerive r => some r
  | .keyUpdate r => some r
  | .keyInvalidate r => some r
  | .lightAttest r => some r
  | .lightDebugChallenge r _ => some r
  | .lightDebugResponse r _ => some r
  | .challengeExpiry => none
  | .debugAuthExpiry => none
  | .safeEnter r => some r
  | .safeRelease r => some r
  | .safeSet r => some r
  | .safeStrobe => none
  | .breachRun r => some r
  | .breachResultWindowEnd _ _ => none
  | .latentTestRun _ _ _ _ => none
  | .pondBringIn r => some r
  | .sramBankCopyComplete => none
  | .thermalEmergency => none
  | .vkeepMon => none
  | .vcoreMon => none
  | .vioMon _ _ => none
  | .clockMon => none
  | .busTimeout => none
  | .emramEcc _ _ => none
  | .tableEcc _ _ _ => none
  | .faultNReadback => none
  | .sluiceSilent => none
  | .sluiceCode => none
  | .trngHealth _ => none
  | .powerSet r => some r
  | .powerEnter r => some r
  | .avsAcknowledge _ => none
  | .avsAttemptTimeout => none
  | .transitionComplete => none
  | .sleepEntry => none
  | .autoSleep => none
  | .awakeThreshold _ _ _ => none
  | .wakeTimer => none
  | .limpWake => none
  | .boardnetLoss => none
  | .wakeDomainReset => none
  | .resetAssert => none
  | .start _ _ => none
  | .referenceTimeout => none
  | .firmwareRun _ _ _ _ => none
  | .startComplete => none
  | .startFailure _ => none
  | .startRetry _ => none
  | .lockkeeperRestart _ _ _ => none
  | .imageWrite r => some r
  | .imageVerify r => some r
  | .imageActivate r => some r
  | .imageRollback r => some r
  | .trialEnd => none
  | .lockThroughPrepared => none
  | .readyFlagTimeout => none
  | .highWaterCancel => none
  | .chartWrite r => some r
  | .chartCommit r => some r
  | .chartRollback r => some r
  | .gptpAnnounceReceived _ _ _ _ => none
  | .linHeaderReceived _ _ _ => none
  | .thermalEmergencyClear => none
  | .supplyRailRecovery _ => none
  | .creditWaitExpiry _ => none
  | .addressResolutionRequest _ _ _ => none
  | .debugHalt _ => none
  | .debugResume _ => none
  | .boundaryScanInstruction _ => none
  | .shaperCreditRecovery _ _ => none

/-- The towline frame a command carries. -/
def Instr.towFrame : Instr → Option TowFrame
  | .fillPhase _ => none
  | .levelPhase => none
  | .levelCompletionSignal _ => none
  | .applyPhase => none
  | .cutoff => none
  | .sealingWindow _ => none
  | .sealingDeadline => none
  | .stretchRefresh => none
  | .boundary _ => none
  | .cycleSet _ => none
  | .timeSet _ => none
  | .tideInRead _ => none
  | .clearTsDrop _ => none
  | .tsnapTake _ _ => none
  | .syncReceived _ _ _ _ => none
  | .syncReceiptTimeout _ => none
  | .holdoverLimit _ => none
  | .gptpSyncTransmit _ _ => none
  | .pdelayReqTransmit _ => none
  | .pdelayMessageReceived _ _ _ _ _ _ _ => none
  | .followUp _ => none
  | .tideOutEdge _ => none
  | .tideOutPulseEnd _ => none
  | .tideInCapture _ _ _ => none
  | .groupFallVOff _ _ => none
  | .groupRiseVOff _ _ => none
  | .groupFallVFull _ _ => none
  | .groupRiseVFull _ _ => none
  | .groupRiseVOv _ _ => none
  | .groupFallVOv _ _ => none
  | .segmentFailure _ _ => none
  | .stuckTestEnd _ _ _ => none
  | .inrushWindowEnd _ => none
  | .chargeComplete _ => none
  | .chargeTimeLimit _ _ => none
  | .chargeEnergyLimit _ _ => none
  | .shortTrip _ _ _ => none
  | .currentLimitOnset _ _ => none
  | .limitTimerExpiry _ _ _ => none
  | .limitTimerClear _ => none
  | .cliffLatchSet _ _ _ => none
  | .cliffLatchRearm _ => none
  | .reverseTrip _ _ _ => none
  | .reverseFlag _ => none
  | .openLoadOn _ => none
  | .offDiagStart _ => none
  | .offDiagEnd _ _ _ => none
  | .retryDelayEnd _ => none
  | .cleanTimeElapsed _ => none
  | .patienceElapsed _ => none
  | .chanSet _ => none
  | .chanRestart _ => none
  | .chanClearFlags _ => none
  | .chanOffDiag _ => none
  | .adcReferenceFailure _ _ _ => none
  | .adcCrossCheckFailure _ => none
  | .modelStateStore => none
  | .lidSensorMismatch => none
  | .hostAmbientStale _ => none
  | .wireSet _ => none
  | .wireSub _ => none
  | .fallbackTrip _ _ _ => none
  | .sluiceResume => none
  | .budgetRestore _ => none
  | .budgetFail _ => none
  | .paddleSet _ => none
  | .bridgeSet _ => none
  | .reversalBrakeEnd _ => none
  | .regulationChop _ => none
  | .rippleCrossing _ _ _ _ _ => none
  | .rippleInsertion _ _ => none
  | .backEmfStop _ => none
  | .stall _ _ => none
  | .pinchBrakeEnd _ => none
  | .brakeHoldEnd _ _ => none
  | .bridgeSetPos _ => none
  | .bridgeClear _ => none
  | .dinSet _ => none
  | .diWakePoll _ => none
  | .clsHoldEnter => none
  | .clsHoldExit => none
  | .foutSet _ => none
  | .foutLocate _ => none
  | .foutClear _ => none
  | .foThermalShutdown _ => none
  | .foThermalRestart _ => none
  | .foLimitHeld _ => none
  | .silenceExpiry _ => none
  | .ainSet _ => none
  | .supLimit _ => none
  | .supShortBat _ => none
  | .supThermal _ => none
  | .supRetry _ => none
  | .supClean _ => none
  | .limpSet => none
  | .limpClear => none
  | .watchExpiry => none
  | .isolationTimeout => none
  | .towpathEngage _ => none
  | .towpathRelease _ => none
  | .towpathRcStep _ => none
  | .towpathTableRead => none
  | .towpathTableCheck _ _ => none
  | .canFrameReceived _ _ _ _ _ => none
  | .canTransmitOpportunity _ _ _ => none
  | .canTxSuccess _ _ _ => none
  | .canArbitrationLost _ => none
  | .canError _ _ => none
  | .canTxDeadline _ => none
  | .canSend _ => none
  | .canRecover _ => none
  | .canClearCounters _ => none
  | .canSwap _ => none
  | .canSet _ => none
  | .canModeChange _ => none
  | .busIntegration _ => none
  | .recoveryRequest _ => none
  | .recoveryComplete _ => none
  | .recoveryWaitReport _ => none
  | .boffRunReset _ => none
  | .spareShadowPeriodEnd => none
  | .spareSelfTest _ => none
  | .controllerSwap _ => none
  | .canDominantTimeout _ => none
  | .canWake _ _ => none
  | .linWake _ _ => none
  | .heartbeat => none
  | .heartbeatTimeout => none
  | .sleepPath => none
  | .linSlotStart _ => none
  | .linResponseReceived _ _ _ _ _ _ => none
  | .linNoResponse _ => none
  | .linSwitch _ => none
  | .linSet _ => none
  | .linGoToSleepReceived _ => none
  | .linBusIdle _ => none
  | .linWakeRetry _ => none
  | .linScheduleResume _ => none
  | .nmRequest _ => none
  | .nmRelease _ => none
  | .nmRepeat _ => none
  | .nmLinkSleep _ => none
  | .nmSet _ => none
  | .nmPduReceived _ _ _ _ => none
  | .repeatTimeEnd _ => none
  | .nmTimeout _ => none
  | .waitTimeEnd _ => none
  | .keepWatch _ => none
  | .isolatedHoldEnd => none
  | .tc10SleepAck _ => none
  | .tc10AckTimeout _ => none
  | .tc10PeerSleepRequest _ => none
  | .tc10Wake _ => none
  | .aqueductArrival => none
  | .routeSet _ => none
  | .routeClearCounters _ => none
  | .tunnelAvtpduReceived => none
  | .cmacCompletion => none
  | .portLinkChange _ _ _ _ => none
  | .ethFrameReceived _ _ _ _ _ => none
  | .plcaBeaconTimeout _ => none
  | .plcaBeaconReceived _ => none
  | .ethFrameTransmit _ _ _ => none
  | .hostPortDelivery => none
  | .txFrameFetch _ _ => none
  | .eopTimeout _ _ => none
  | .ts2Timeout _ _ _ => none
  | .portSet _ => none
  | .portClearCounters _ => none
  | .basinIngress _ => none
  | .transmissionSelection _ => none
  | .gateIntervalEnd _ => none
  | .overflowFetchBack _ => none
  | .streamRecoveryReset _ => none
  | .resequencerTimeout _ => none
  | .basinSet _ => none
  | .basinClearCounters _ => none
  | .streamSet _ => none
  | .streamUnblock _ => none
  | .streamClearCounters _ => none
  | .streamResetSeq _ => none
  | .desyncResponse _ _ => none
  | .runSet _ => none
  | .runClear _ => none
  | .commandDoorbell _ _ => none
  | .commandFetch _ _ => none
  | .responseHeadWrite _ _ => none
  | .eventHeadWrite _ _ => none
  | .receiveRingPost _ _ _ _ => none
  | .transmitRingDoorbell _ _ _ _ => none
  | .causeClear _ _ _ => none
  | .registerWrite _ _ _ _ => none
  | .outboundDoorbell _ => none
  | .interruptModerationEnd _ _ => none
  | .dmaReadTimeout _ _ _ => none
  | .dmaReadError _ _ _ => none
  | .dmaWriteFailure _ _ => none
  | .functionLevelReset _ => none
  | .ethTransportDatagram => none
  | .segmentTimeout _ => none
  | .spiWrite _ => none
  | .spiStatus => none
  | .spiRead _ => none
  | .spiUnknownInstruction => none
  | .spiByteGap _ => none
  | .favalGet _ _ => none
  | .favalSub _ _ => none
  | .favalUnsub _ _ => none
  | .favalList _ _ => none
  | .sysClearCounters _ => none
  | .suppressionWindowClose _ _ _ => none
  | .eventRateWindow => none
  | .poundSet _ => none
  | .poundReset _ => none
  | .poundRemove _ => none
  | .poundResetComplete _ => none
  | .ownershipTransfer _ => none
  | .coreSet _ => none
  | .coreSwap _ => none
  | .spareTakeover => none
  | .slotStart _ _ => none
  | .coreMismatch _ _ _ _ => none
  | .lbistComplete _ _ => none
  | .spareLbist _ => none
  | .scrubPass _ _ _ _ _ => none
  | .sramUncorrectable _ _ _ _ _ => none
  | .accessFault _ _ _ => none
  | .towlineLinkUp _ => none
  | .towlineLinkDown _ => none
  | .towlineFrameGap _ _ _ => none
  | .dataFrameReceived _ _ f => some f
  | .favalFrameReceived _ _ f => some f
  | .postFrameReceived _ _ f _ => some f
  | .noteFrameReceived _ _ f => some f
  | .lateFrameReceived _ _ f => some f
  | .beatReceived _ _ f _ => some f
  | .enumReceived _ _ f _ _ => some f
  | .enumAckReceived _ _ f => some f
  | .assignReceived _ _ f => some f
  | .topoReceived _ _ f => some f
  | .creditReceived _ _ f => some f
  | .towEnumerate _ => none
  | .enumTbDelay => none
  | .enumRepeat => none
  | .bargeStranded => none
  | .tugStrandDeclare _ => none
  | .strandHoldEnd => none
  | .relayTimeout _ _ => none
  | .towResync _ => none
  | .resyncTimeout _ => none
  | .resyncExit _ _ => none
  | .towPortRelease _ => none
  | .towReload _ => none
  | .towSet _ => none
  | .revertHoldEnd _ => none
  | .towlineReseqTimeout _ _ => none
  | .bargeLoadRetry _ => none
  | .lhEncrypt _ _ => none
  | .lhDecrypt _ _ => none
  | .lhMacGen _ _ => none
  | .lhMacVerify _ _ => none
  | .lhHash _ _ => none
  | .lhSign _ _ => none
  | .lhVerify _ _ => none
  | .lhAgree _ _ => none
  | .lhRandom _ _ => none
  | .lhClear _ => none
  | .lhRequestComplete _ _ _ => none
  | .lhWatchdogExpiry => none
  | .lhRestartComplete _ _ _ _ => none
  | .blockHandover _ _ => none
  | .blockReturn _ => none
  | .claimDeferralTimeout => none
  | .keyGenerate _ => none
  | .keyImport _ => none
  | .keyDerive _ => none
  | .keyUpdate _ => none
  | .keyInvalidate _ => none
  | .lightAttest _ => none
  | .lightDebugChallenge _ _ => none
  | .lightDebugResponse _ _ => none
  | .challengeExpiry => none
  | .debugAuthExpiry => none
  | .safeEnter _ => none
  | .safeRelease _ => none
  | .safeSet _ => none
  | .safeStrobe => none
  | .breachRun _ => none
  | .breachResultWindowEnd _ _ => none
  | .latentTestRun _ _ _ _ => none
  | .pondBringIn _ => none
  | .sramBankCopyComplete => none
  | .thermalEmergency => none
  | .vkeepMon => none
  | .vcoreMon => none
  | .vioMon _ _ => none
  | .clockMon => none
  | .busTimeout => none
  | .emramEcc _ _ => none
  | .tableEcc _ _ _ => none
  | .faultNReadback => none
  | .sluiceSilent => none
  | .sluiceCode => none
  | .trngHealth _ => none
  | .powerSet _ => none
  | .powerEnter _ => none
  | .avsAcknowledge _ => none
  | .avsAttemptTimeout => none
  | .transitionComplete => none
  | .sleepEntry => none
  | .autoSleep => none
  | .awakeThreshold _ _ _ => none
  | .wakeTimer => none
  | .limpWake => none
  | .boardnetLoss => none
  | .wakeDomainReset => none
  | .resetAssert => none
  | .start _ _ => none
  | .referenceTimeout => none
  | .firmwareRun _ _ _ _ => none
  | .startComplete => none
  | .startFailure _ => none
  | .startRetry _ => none
  | .lockkeeperRestart _ _ _ => none
  | .imageWrite _ => none
  | .imageVerify _ => none
  | .imageActivate _ => none
  | .imageRollback _ => none
  | .trialEnd => none
  | .lockThroughPrepared => none
  | .readyFlagTimeout => none
  | .highWaterCancel => none
  | .chartWrite _ => none
  | .chartCommit _ => none
  | .chartRollback _ => none
  | .gptpAnnounceReceived _ _ _ _ => none
  | .linHeaderReceived _ _ _ => none
  | .thermalEmergencyClear => none
  | .supplyRailRecovery _ => none
  | .creditWaitExpiry _ => none
  | .addressResolutionRequest _ _ _ => none
  | .debugHalt _ => none
  | .debugResume _ => none
  | .boundaryScanInstruction _ => none
  | .shaperCreditRecovery _ _ => none

/-- The unit a command names is one the device has. -/
def Instr.unitOk : Instr → Bool
  | .fillPhase _ => true
  | .levelPhase => true
  | .levelCompletionSignal k => decide (k < 3)
  | .applyPhase => true
  | .cutoff => true
  | .sealingWindow _ => true
  | .sealingDeadline => true
  | .stretchRefresh => true
  | .boundary _ => true
  | .cycleSet _ => true
  | .timeSet _ => true
  | .tideInRead _ => true
  | .clearTsDrop _ => true
  | .tsnapTake p _ => decide (p < 32)
  | .syncReceived i _ _ _ => decide (i ≤ 8)
  | .syncReceiptTimeout i => decide (i ≤ 8)
  | .holdoverLimit i => decide (i ≤ 8)
  | .gptpSyncTransmit p d => decide (p < 16 ∧ d ≤ 8)
  | .pdelayReqTransmit p => decide (p < 16)
  | .pdelayMessageReceived p _ _ _ _ _ _ => decide (p < 16)
  | .followUp p => decide (p < 16)
  | .tideOutEdge i => decide (i < 4)
  | .tideOutPulseEnd i => decide (i < 4)
  | .tideInCapture i _ _ => decide (i < 2)
  | .groupFallVOff g _ => decide (g < 2)
  | .groupRiseVOff g _ => decide (g < 2)
  | .groupFallVFull g _ => decide (g < 2)
  | .groupRiseVFull g _ => decide (g < 2)
  | .groupRiseVOv g _ => decide (g < 2)
  | .groupFallVOv g _ => decide (g < 2)
  | .segmentFailure i g => decide (i < 32 ∧ g ≤ chNominal i)
  | .stuckTestEnd i _ g => decide (i < 32 ∧ g ≤ chNominal i)
  | .inrushWindowEnd i => decide (i < 76)
  | .chargeComplete i => decide (i < 76)
  | .chargeTimeLimit i _ => decide (i < 32)
  | .chargeEnergyLimit i _ => decide (i < 32)
  | .shortTrip i _ _ => decide (i < 76)
  | .currentLimitOnset i _ => decide (i < 76)
  | .limitTimerExpiry i _ _ => decide (i < 76)
  | .limitTimerClear i => decide (i < 76)
  | .cliffLatchSet i _ _ => decide (i < 76)
  | .cliffLatchRearm i => decide (i < 76)
  | .reverseTrip i _ _ => decide (i < 32)
  | .reverseFlag i => decide (i < 76)
  | .openLoadOn i => decide (i < 76)
  | .offDiagStart i => decide (i < 76)
  | .offDiagEnd i _ _ => decide (i < 76)
  | .retryDelayEnd i => decide (i < 76)
  | .cleanTimeElapsed i => decide (i < 76)
  | .patienceElapsed i => decide (i < 76)
  | .chanSet _ => true
  | .chanRestart _ => true
  | .chanClearFlags _ => true
  | .chanOffDiag _ => true
  | .adcReferenceFailure g _ _ => decide (g < 5)
  | .adcCrossCheckFailure i => decide (i < 76)
  | .modelStateStore => true
  | .lidSensorMismatch => true
  | .hostAmbientStale b => decide (b < 32)
  | .wireSet _ => true
  | .wireSub _ => true
  | .fallbackTrip i _ _ => decide (i < 76)
  | .sluiceResume => true
  | .budgetRestore b => decide (b < 4)
  | .budgetFail b => decide (b < 4)
  | .paddleSet _ => true
  | .bridgeSet _ => true
  | .reversalBrakeEnd b => decide (b < 6)
  | .regulationChop b => decide (b < 6)
  | .rippleCrossing b _ _ _ _ => decide (b < 6)
  | .rippleInsertion b _ => decide (b < 6)
  | .backEmfStop b => decide (b < 6)
  | .stall b _ => decide (b < 6)
  | .pinchBrakeEnd b => decide (b < 6)
  | .brakeHoldEnd b _ => decide (b < 6)
  | .bridgeSetPos _ => true
  | .bridgeClear _ => true
  | .dinSet _ => true
  | .diWakePoll _ => true
  | .clsHoldEnter => true
  | .clsHoldExit => true
  | .foutSet _ => true
  | .foutLocate _ => true
  | .foutClear _ => true
  | .foThermalShutdown k => decide (k < 16)
  | .foThermalRestart k => decide (k < 16)
  | .foLimitHeld k => decide (k < 16)
  | .silenceExpiry k => decide (k < 16)
  | .ainSet _ => true
  | .supLimit j => decide (j < 4)
  | .supShortBat j => decide (j < 4)
  | .supThermal j => decide (j < 4)
  | .supRetry j => decide (j < 4)
  | .supClean j => decide (j < 4)
  | .limpSet => true
  | .limpClear => true
  | .watchExpiry => true
  | .isolationTimeout => true
  | .towpathEngage _ => true
  | .towpathRelease _ => true
  | .towpathRcStep _ => true
  | .towpathTableRead => true
  | .towpathTableCheck _ _ => true
  | .canFrameReceived c _ _ _ _ => decide (c < 12)
  | .canTransmitOpportunity c _ _ => decide (c < 12)
  | .canTxSuccess c _ _ => decide (c < 12)
  | .canArbitrationLost c => decide (c < 12)
  | .canError c _ => decide (c < 12)
  | .canTxDeadline c => decide (c < 12)
  | .canSend _ => true
  | .canRecover _ => true
  | .canClearCounters _ => true
  | .canSwap _ => true
  | .canSet _ => true
  | .canModeChange c => decide (c < 12)
  | .busIntegration c => decide (c < 12)
  | .recoveryRequest c => decide (c < 12)
  | .recoveryComplete c => decide (c < 12)
  | .recoveryWaitReport c => decide (c < 12)
  | .boffRunReset c => decide (c < 12)
  | .spareShadowPeriodEnd => true
  | .spareSelfTest _ => true
  | .controllerSwap c => decide (c < 12)
  | .canDominantTimeout c => decide (c < 12)
  | .canWake c _ => decide (c < 12)
  | .linWake c _ => decide (c < 8)
  | .heartbeat => true
  | .heartbeatTimeout => true
  | .sleepPath => true
  | .linSlotStart c => decide (c < 8)
  | .linResponseReceived c _ _ _ _ _ => decide (c < 8)
  | .linNoResponse c => decide (c < 8)
  | .linSwitch _ => true
  | .linSet _ => true
  | .linGoToSleepReceived c => decide (c < 8)
  | .linBusIdle c => decide (c < 8)
  | .linWakeRetry c => decide (c < 8)
  | .linScheduleResume c => decide (c < 8)
  | .nmRequest _ => true
  | .nmRelease _ => true
  | .nmRepeat _ => true
  | .nmLinkSleep _ => true
  | .nmSet _ => true
  | .nmPduReceived k _ _ _ => decide (k < 32)
  | .repeatTimeEnd k => decide (k < 32)
  | .nmTimeout k => decide (k < 32)
  | .waitTimeEnd k => decide (k < 32)
  | .keepWatch k => decide (k < 32)
  | .isolatedHoldEnd => true
  | .tc10SleepAck k => decide (k < 8)
  | .tc10AckTimeout k => decide (k < 8)
  | .tc10PeerSleepRequest k => decide (k < 8)
  | .tc10Wake k => decide (k < 8)
  | .aqueductArrival => true
  | .routeSet _ => true
  | .routeClearCounters _ => true
  | .tunnelAvtpduReceived => true
  | .cmacCompletion => true
  | .portLinkChange p _ _ _ => decide (p < 12)
  | .ethFrameReceived p _ _ _ _ => decide (p < 12)
  | .plcaBeaconTimeout p => decide (8 ≤ p ∧ p < 12)
  | .plcaBeaconReceived p => decide (8 ≤ p ∧ p < 12)
  | .ethFrameTransmit p _ _ => decide (p < 16)
  | .hostPortDelivery => true
  | .txFrameFetch p r => decide (p < 32 ∧ 4 ≤ r ∧ r < 8)
  | .eopTimeout p r => decide (p < 32 ∧ 4 ≤ r ∧ r < 8)
  | .ts2Timeout p r _ => decide (p < 32 ∧ 4 ≤ r ∧ r < 8)
  | .portSet _ => true
  | .portClearCounters _ => true
  | .basinIngress _ => true
  | .transmissionSelection p => decide (p < 16)
  | .gateIntervalEnd p => decide (p < 16)
  | .overflowFetchBack q => decide (q < 128)
  | .streamRecoveryReset i => decide (i < 256)
  | .resequencerTimeout i => decide (i < 256)
  | .basinSet _ => true
  | .basinClearCounters _ => true
  | .streamSet _ => true
  | .streamUnblock _ => true
  | .streamClearCounters _ => true
  | .streamResetSeq _ => true
  | .desyncResponse p _ => decide (p < 32)
  | .runSet e => decide (e < 64)
  | .runClear e => decide (e < 64)
  | .commandDoorbell e _ => decide (e < 64)
  | .commandFetch e _ => decide (e < 64)
  | .responseHeadWrite e _ => decide (e < 64)
  | .eventHeadWrite e _ => decide (e < 64)
  | .receiveRingPost e r _ _ => decide (e < 64 ∧ r < 4)
  | .transmitRingDoorbell e r _ _ => decide (e < 64 ∧ 4 ≤ r ∧ r < 8)
  | .causeClear e _ _ => decide (e < 64)
  | .registerWrite e _ _ _ => decide (e < 64)
  | .outboundDoorbell p => decide (p < 32)
  | .interruptModerationEnd e v => decide (e < 64 ∧ v < 4)
  | .dmaReadTimeout e k _ => decide (e < 64 ∧ k < 11)
  | .dmaReadError e k _ => decide (e < 64 ∧ k < 11)
  | .dmaWriteFailure e ring => decide (e < 64 ∧ ring < 11)
  | .functionLevelReset f => decide (f < 32)
  | .ethTransportDatagram => true
  | .segmentTimeout p => decide (p < 32)
  | .spiWrite _ => true
  | .spiStatus => true
  | .spiRead _ => true
  | .spiUnknownInstruction => true
  | .spiByteGap _ => true
  | .favalGet _ _ => true
  | .favalSub _ _ => true
  | .favalUnsub _ _ => true
  | .favalList _ _ => true
  | .sysClearCounters _ => true
  | .suppressionWindowClose p _ _ => decide (p < 32)
  | .eventRateWindow => true
  | .poundSet _ => true
  | .poundReset _ => true
  | .poundRemove _ => true
  | .poundResetComplete p => decide (p < 32)
  | .ownershipTransfer p => decide (p < 32)
  | .coreSet _ => true
  | .coreSwap _ => true
  | .spareTakeover => true
  | .slotStart k j => decide (k < 5 ∧ j < 16)
  | .coreMismatch k _ _ _ => decide (k < 7)
  | .lbistComplete k _ => decide (k < 5)
  | .spareLbist _ => true
  | .scrubPass _ _ _ _ _ => true
  | .sramUncorrectable _ _ _ place _ => decide (place < 3)
  | .accessFault p _ kind => decide (p < 32 ∧ kind < 3)
  | .towlineLinkUp x => decide (x < 2)
  | .towlineLinkDown x => decide (x < 2)
  | .towlineFrameGap x _ _ => decide (x < 2)
  | .dataFrameReceived x _ _ => decide (x < 2)
  | .favalFrameReceived x _ _ => decide (x < 2)
  | .postFrameReceived x _ _ _ => decide (x < 2)
  | .noteFrameReceived x _ _ => decide (x < 2)
  | .lateFrameReceived x _ _ => decide (x < 2)
  | .beatReceived x _ _ _ => decide (x < 2)
  | .enumReceived x _ _ _ _ => decide (x < 2)
  | .enumAckReceived x _ _ => decide (x < 2)
  | .assignReceived x _ _ => decide (x < 2)
  | .topoReceived x _ _ => decide (x < 2)
  | .creditReceived x _ _ => decide (x < 2)
  | .towEnumerate _ => true
  | .enumTbDelay => true
  | .enumRepeat => true
  | .bargeStranded => true
  | .tugStrandDeclare a => rng 1 63 a
  | .strandHoldEnd => true
  | .relayTimeout a _ => rng 1 63 a
  | .towResync _ => true
  | .resyncTimeout a => rng 1 63 a
  | .resyncExit a _ => rng 1 63 a
  | .towPortRelease _ => true
  | .towReload _ => true
  | .towSet _ => true
  | .revertHoldEnd x => decide (x < 2)
  | .towlineReseqTimeout src v => decide (src < 64 ∧ v < 2)
  | .bargeLoadRetry a => rng 1 63 a
  | .lhEncrypt p _ => decide (p < 32)
  | .lhDecrypt p _ => decide (p < 32)
  | .lhMacGen p _ => decide (p < 32)
  | .lhMacVerify p _ => decide (p < 32)
  | .lhHash p _ => decide (p < 32)
  | .lhSign p _ => decide (p < 32)
  | .lhVerify p _ => decide (p < 32)
  | .lhAgree p _ => decide (p < 32)
  | .lhRandom p _ => decide (p < 32)
  | .lhClear p => decide (p < 32)
  | .lhRequestComplete p _ _ => decide (p < 32)
  | .lhWatchdogExpiry => true
  | .lhRestartComplete _ _ _ _ => true
  | .blockHandover b _ => decide (b < 3)
  | .blockReturn b => decide (b < 3)
  | .claimDeferralTimeout => true
  | .keyGenerate _ => true
  | .keyImport _ => true
  | .keyDerive _ => true
  | .keyUpdate _ => true
  | .keyInvalidate _ => true
  | .lightAttest _ => true
  | .lightDebugChallenge _ _ => true
  | .lightDebugResponse _ _ => true
  | .challengeExpiry => true
  | .debugAuthExpiry => true
  | .safeEnter _ => true
  | .safeRelease _ => true
  | .safeSet _ => true
  | .safeStrobe => true
  | .breachRun _ => true
  | .breachResultWindowEnd bp _ => (escOf bp).isSome
  | .latentTestRun bp inst _ _ => (escOf bp).isSome && (detUnit bp inst).isSome
  | .pondBringIn _ => true
  | .sramBankCopyComplete => true
  | .thermalEmergency => true
  | .vkeepMon => true
  | .vcoreMon => true
  | .vioMon rail _ => decide (2 ≤ rail ∧ rail < 5)
  | .clockMon => true
  | .busTimeout => true
  | .emramEcc _ _ => true
  | .tableEcc kind i _ => decide ((kind = 0 ∧ i < 4096) ∨ (kind = 1 ∧ i < 0x4000) ∨ (kind = 2 ∧ i < 0x2000) ∨ (kind = 3 ∧ 1 ≤ i ∧ i < 4095))
  | .faultNReadback => true
  | .sluiceSilent => true
  | .sluiceCode => true
  | .trngHealth _ => true
  | .powerSet _ => true
  | .powerEnter _ => true
  | .avsAcknowledge _ => true
  | .avsAttemptTimeout => true
  | .transitionComplete => true
  | .sleepEntry => true
  | .autoSleep => true
  | .awakeThreshold i _ _ => decide (i < 2)
  | .wakeTimer => true
  | .limpWake => true
  | .boardnetLoss => true
  | .wakeDomainReset => true
  | .resetAssert => true
  | .start _ _ => true
  | .referenceTimeout => true
  | .firmwareRun _ _ _ _ => true
  | .startComplete => true
  | .startFailure cause => decide (1 ≤ cause ∧ cause ≤ 7)
  | .startRetry _ => true
  | .lockkeeperRestart _ _ _ => true
  | .imageWrite _ => true
  | .imageVerify _ => true
  | .imageActivate _ => true
  | .imageRollback _ => true
  | .trialEnd => true
  | .lockThroughPrepared => true
  | .readyFlagTimeout => true
  | .highWaterCancel => true
  | .chartWrite _ => true
  | .chartCommit _ => true
  | .chartRollback _ => true
  | .gptpAnnounceReceived i p _ _ => decide (i ≤ 8 ∧ p < 16)
  | .linHeaderReceived c _ _ => decide (c < 8)
  | .thermalEmergencyClear => true
  | .supplyRailRecovery rail => decide (rail < 5)
  | .creditWaitExpiry x => decide (x < 2)
  | .addressResolutionRequest i _ _ => decide (i < 4)
  | .debugHalt k => decide (k < 5)
  | .debugResume k => decide (k < 5)
  | .boundaryScanInstruction _ => true
  | .shaperCreditRecovery p c => decide (p < 16 ∧ c < 8)

/-- A command the outside can send. -/
def Instr.wellFormed (i : Instr) : Bool :=
  i.unitOk && i.request.all Req.wellFormed && i.towFrame.all TowFrameOk

end Sys2Proof
end

