-- ==== Sys2Proof/Safety.lean ====
section
/-! DEFINITION. What a safe run is, and the terms the statements use: the regions of the state and what a command
may change, the invariant of every step, and when a request is taken and passes its checks (R396). -/
namespace Sys2Proof.Machine

/-! ### Regions -/

/-- The regions of the state. `wire` is what delivering an event or a response moves: the queues and counters of
the pounds' transports, the windows, the rate windows, latched events and a barge's outgoing messages; `fv` is the
rest of Faval. `staged` is the shadow state; `cyc` the rest of the cycle timer. `safe` is the safe state as it is in force, and
its entries; `detect` the detectors, FAULT_N and the causes that are collected; `breach` the breach runs and records;
`pond` the side ponds. -/
inductive Region
  | sys | cyc | staged | tide | fv | wire | safe | detect | breach | pond | tp | pow | slu | mot | fio | can | lin | nm
  | aq | net | tow | light | aps | pwr | img | mem | free | pending
  deriving DecidableEq, Repr

/-- Faval without what delivery moves. -/
def Fv.core (v : Fv) : Fv :=
  { v with qs := [], wins := [], rateWins := [], latched := [], bargeRsp := [], bargeEvt := [] }

/-- What delivery moves. -/
def Fv.wire (v : Fv) : Fv :=
  { qs := v.qs, wins := v.wins, rateWins := v.rateWins, latched := v.latched, bargeRsp := v.bargeRsp, bargeEvt := v.bargeEvt }

/-- The safe state as it is in force. -/
def Saf.safe (v : Saf) : Saf :=
  { strobed := v.strobed, releasing := v.releasing, inForce := v.inForce, entryCycle := v.entryCycle
    relCycle := v.relCycle, reaction := v.reaction, entries := v.entries, hold := v.hold }

/-- The detectors, FAULT_N and the causes that are collected. -/
def Saf.detect (v : Saf) : Saf :=
  { causes := v.causes, faultN := v.faultN, faultAt := v.faultAt, firstBp := v.firstBp, atBoundary := v.atBoundary
    atStrobe := v.atStrobe, tD := v.tD, relPend := v.relPend, dets := v.dets }

/-- Breach runs and records. -/
def Saf.breaches (v : Saf) : Saf := { latentFails := v.latentFails, mute := v.mute, runs := v.runs, breach := v.breach }

/-- The region holds the same in both states. Memory is compared byte by byte. -/
def Region.same (r : Region) (s t : State) : Prop :=
  match r with
  | .sys => t.sys = s.sys
  | .cyc => { t.cyc with staged := [] } = { s.cyc with staged := [] }
  | .staged => t.cyc.staged = s.cyc.staged
  | .tide => t.tide = s.tide
  | .fv => t.fv.core = s.fv.core
  | .wire => t.fv.wire = s.fv.wire
  | .safe => t.saf.safe = s.saf.safe
  | .detect => t.saf.detect = s.saf.detect
  | .breach => t.saf.breaches = s.saf.breaches
  | .pond => t.saf.pond = s.saf.pond
  | .tp => t.tp = s.tp
  | .pow => t.pow = s.pow
  | .slu => t.slu = s.slu
  | .mot => t.mot = s.mot
  | .fio => t.fio = s.fio
  | .can => t.can = s.can
  | .lin => t.lin = s.lin
  | .nm => t.nm = s.nm
  | .aq => t.aq = s.aq
  | .net => t.net = s.net
  | .tow => t.tow = s.tow
  | .light => t.light = s.light
  | .aps => t.aps = s.aps
  | .pwr => t.pwr = s.pwr
  | .img => t.img = s.img
  | .mem => ∀ a, memRead t.mem a = memRead s.mem a
  | .free => t.free = s.free
  | .pending => t.pending = s.pending

/-- Every region outside `l` holds what it held. -/
def changesOnly (l : List Region) (s t : State) : Prop := ∀ r, r ∉ l → r.same s t

/-! ### What a command may change -/

/-- Every region but those of `l`. -/
def offList (l : List Region) : List Region :=
  [.sys, .cyc, .staged, .tide, .fv, .wire, .safe, .detect, .breach, .pond, .tp, .pow, .slu, .mot, .fio, .can, .lin, .nm, .aq, .net, .tow, .light, .aps, .pwr, .img, .mem, .free, .pending].filter (fun r => decide (r ∉ l))

/-- The regions a command may change; every other region it leaves alone. A request can reach the regions of its
class, the transports, and what the acceptance of a message or its way to a barge moves. -/
def touches (i : Instr) : List Region :=
  match i with
  | .fillPhase _ => [.cyc, .wire, .detect, .pow, .slu, .mot, .fio]
  | .levelPhase => [.cyc, .wire, .detect, .pond, .pow, .slu, .fio, .pwr]
  | .levelCompletionSignal _ => [.cyc, .slu, .img]
  | .applyPhase => offList [.pending]
  | .cutoff => [.cyc, .wire, .detect, .tp, .img]
  | .sealingWindow _ => [.cyc, .tp, .fio, .img]
  | .sealingDeadline => [.cyc, .wire, .detect]
  | .stretchRefresh => [.fio]
  | .boundary _ => offList [.pending]
  | .cycleSet _ => [.cyc, .staged, .fv, .wire, .detect, .tp, .nm, .tow]
  | .timeSet _ => [.staged, .tide, .fv, .wire, .detect, .tp, .nm, .tow]
  | .tideInRead _ => [.tide, .fv, .wire, .detect, .tp, .nm, .tow]
  | .clearTsDrop _ => [.staged, .tide, .fv, .wire, .detect, .tp, .nm, .tow]
  | .tsnapTake _ _ => [.tide]
  | .syncReceived _ _ _ _ => [.tide, .wire]
  | .syncReceiptTimeout _ => [.tide, .wire, .detect]
  | .holdoverLimit _ => [.tide, .wire]
  | .gptpSyncTransmit _ _ => [.tide, .net]
  | .pdelayReqTransmit _ => [.tide, .net]
  | .pdelayMessageReceived _ _ _ _ _ _ _ => [.tide, .net]
  | .followUp _ => [.tide, .net]
  | .tideOutEdge _ => [.tide]
  | .tideOutPulseEnd _ => [.tide]
  | .tideInCapture _ _ _ => [.tide, .wire]
  | .groupFallVOff _ _ => [.wire, .detect, .pow, .fio]
  | .groupRiseVOff _ _ => [.wire, .pow]
  | .groupFallVFull _ _ => [.wire, .detect, .pow]
  | .groupRiseVFull _ _ => [.wire, .detect, .pow]
  | .groupRiseVOv _ _ => [.wire, .detect, .pow]
  | .groupFallVOv _ _ => [.wire, .detect, .pow]
  | .segmentFailure _ _ => [.wire, .detect, .pond, .pow]
  | .stuckTestEnd _ _ _ => [.wire, .detect, .pond, .pow]
  | .inrushWindowEnd _ => [.pow]
  | .chargeComplete _ => [.pow]
  | .chargeTimeLimit _ _ => [.wire, .detect, .pow, .mot]
  | .chargeEnergyLimit _ _ => [.wire, .detect, .pow, .mot]
  | .shortTrip _ _ _ => [.wire, .detect, .pow, .mot]
  | .currentLimitOnset _ _ => [.pow]
  | .limitTimerExpiry _ _ _ => [.wire, .detect, .pow, .mot]
  | .limitTimerClear _ => [.pow]
  | .cliffLatchSet _ _ _ => [.wire, .detect, .pow, .mot]
  | .cliffLatchRearm _ => [.wire, .detect, .pow]
  | .reverseTrip _ _ _ => [.wire, .detect, .pow, .mot]
  | .reverseFlag _ => [.wire, .pow]
  | .openLoadOn _ => [.wire, .pow]
  | .offDiagStart _ => [.pow]
  | .offDiagEnd _ _ _ => [.wire, .pow]
  | .retryDelayEnd _ => [.pow]
  | .cleanTimeElapsed _ => [.pow]
  | .patienceElapsed _ => [.pow]
  | .chanSet _ => [.staged, .fv, .wire, .detect, .tp, .pow, .nm, .tow]
  | .chanRestart _ => [.staged, .fv, .wire, .detect, .tp, .pow, .nm, .tow]
  | .chanClearFlags _ => [.staged, .fv, .wire, .detect, .tp, .pow, .nm, .tow]
  | .chanOffDiag _ => [.staged, .fv, .wire, .detect, .tp, .pow, .nm, .tow]
  | .adcReferenceFailure _ _ _ => [.wire, .detect, .pond, .pow, .slu, .mot]
  | .adcCrossCheckFailure _ => [.wire, .detect, .slu]
  | .modelStateStore => [.slu]
  | .lidSensorMismatch => [.wire, .detect, .slu]
  | .hostAmbientStale _ => [.wire, .slu]
  | .wireSet _ => [.staged, .fv, .wire, .detect, .tp, .slu, .nm, .tow]
  | .wireSub _ => [.fv, .wire, .detect, .tp, .slu, .nm, .tow]
  | .fallbackTrip _ _ _ => [.wire, .detect, .pow, .mot]
  | .sluiceResume => [.wire, .detect, .tp, .pow, .slu]
  | .budgetRestore _ => [.wire, .pow, .slu]
  | .budgetFail _ => [.wire, .detect, .slu]
  | .paddleSet _ => [.staged, .fv, .wire, .detect, .tp, .mot, .nm, .tow]
  | .bridgeSet _ => [.staged, .fv, .wire, .detect, .tp, .pow, .mot, .nm, .tow]
  | .reversalBrakeEnd _ => [.mot]
  | .regulationChop _ => [.mot]
  | .rippleCrossing _ _ _ _ _ => [.wire, .detect, .tp, .pow, .mot]
  | .rippleInsertion _ _ => [.wire, .detect, .tp, .pow, .mot]
  | .backEmfStop _ => [.mot]
  | .stall _ _ => [.wire, .detect, .tp, .pow, .mot]
  | .pinchBrakeEnd _ => [.pow, .mot]
  | .brakeHoldEnd _ _ => [.wire, .pow, .mot]
  | .bridgeSetPos _ => [.staged, .fv, .wire, .detect, .tp, .pow, .mot, .nm, .tow]
  | .bridgeClear _ => [.staged, .fv, .wire, .detect, .tp, .pow, .mot, .nm, .tow]
  | .dinSet _ => [.staged, .fv, .wire, .detect, .tp, .fio, .nm, .tow]
  | .diWakePoll _ => [.wire, .tp, .fio, .net, .pwr]
  | .clsHoldEnter => [.fio]
  | .clsHoldExit => [.fio]
  | .foutSet _ => [.staged, .fv, .wire, .detect, .tp, .fio, .nm, .tow]
  | .foutLocate _ => [.staged, .fv, .wire, .detect, .tp, .fio, .nm, .tow]
  | .foutClear _ => [.staged, .fv, .wire, .detect, .tp, .fio, .nm, .tow]
  | .foThermalShutdown _ => [.fio]
  | .foThermalRestart _ => [.fio]
  | .foLimitHeld _ => [.fio]
  | .silenceExpiry _ => [.wire, .detect, .fio]
  | .ainSet _ => [.staged, .fv, .wire, .detect, .tp, .fio, .nm, .tow]
  | .supLimit _ => [.wire, .detect, .fio]
  | .supShortBat _ => [.wire, .detect, .fio]
  | .supThermal _ => [.wire, .detect, .fio]
  | .supRetry _ => [.fio]
  | .supClean _ => [.fio]
  | .limpSet => [.sys, .wire, .detect, .tp]
  | .limpClear => [.sys, .wire, .detect, .tp, .pwr]
  | .watchExpiry => [.wire, .detect, .tp, .img]
  | .isolationTimeout => [.wire, .detect, .tp, .nm]
  | .towpathEngage _ => [.staged, .fv, .wire, .detect, .tp, .nm, .tow]
  | .towpathRelease _ => [.staged, .fv, .wire, .detect, .tp, .nm, .tow]
  | .towpathRcStep _ => [.wire, .detect, .tp, .pow, .slu, .mot, .fio, .pwr]
  | .towpathTableRead => [.wire, .tp]
  | .towpathTableCheck _ _ => [.sys, .wire, .detect, .tp, .mem]
  | .canFrameReceived _ _ _ _ _ => [.wire, .detect, .pond, .can, .aq, .free]
  | .canTransmitOpportunity _ _ _ => [.wire, .detect, .can]
  | .canTxSuccess _ _ _ => [.wire, .detect, .can, .aq]
  | .canArbitrationLost _ => [.wire, .can]
  | .canError _ _ => [.wire, .detect, .can, .aq]
  | .canTxDeadline _ => [.wire, .can]
  | .canSend _ => [.staged, .fv, .wire, .detect, .tp, .can, .nm, .aq, .tow]
  | .canRecover _ => [.staged, .fv, .wire, .detect, .tp, .can, .nm, .aq, .tow]
  | .canClearCounters _ => [.staged, .fv, .wire, .detect, .tp, .can, .nm, .aq, .tow]
  | .canSwap _ => [.staged, .fv, .wire, .detect, .tp, .can, .nm, .aq, .tow]
  | .canSet _ => [.staged, .fv, .wire, .detect, .tp, .can, .nm, .aq, .tow]
  | .canModeChange _ => [.wire, .can, .nm, .aq]
  | .busIntegration _ => [.can]
  | .recoveryRequest _ => [.wire, .can, .aq]
  | .recoveryComplete _ => [.wire, .detect, .can, .aq]
  | .recoveryWaitReport _ => [.wire, .can, .aq]
  | .boffRunReset _ => [.can]
  | .spareShadowPeriodEnd => [.can]
  | .spareSelfTest _ => [.wire, .pond, .can]
  | .controllerSwap _ => [.wire, .pond, .can]
  | .canDominantTimeout _ => [.wire, .detect, .can]
  | .canWake _ _ => [.wire, .tp, .nm, .net, .pwr]
  | .linWake _ _ => [.wire, .tp, .lin, .nm, .net, .pwr]
  | .heartbeat => [.pwr]
  | .heartbeatTimeout => [.wire, .detect, .pwr]
  | .sleepPath => offList [.free, .pending]
  | .linSlotStart _ => [.lin]
  | .linResponseReceived _ _ _ _ _ _ => [.wire, .lin, .aq]
  | .linNoResponse _ => [.wire, .lin, .aq]
  | .linSwitch _ => [.staged, .fv, .wire, .detect, .tp, .lin, .nm, .tow]
  | .linSet _ => [.staged, .fv, .wire, .detect, .tp, .lin, .nm, .tow]
  | .linGoToSleepReceived _ => [.wire, .nm, .aq]
  | .linBusIdle _ => [.wire, .nm, .aq]
  | .linWakeRetry _ => [.wire, .lin]
  | .linScheduleResume _ => [.lin]
  | .nmRequest _ => [.staged, .fv, .wire, .detect, .tp, .nm, .tow]
  | .nmRelease _ => [.staged, .fv, .wire, .detect, .tp, .nm, .tow]
  | .nmRepeat _ => [.staged, .fv, .wire, .detect, .tp, .nm, .tow]
  | .nmLinkSleep _ => [.staged, .fv, .wire, .detect, .tp, .nm, .tow]
  | .nmSet _ => [.staged, .fv, .wire, .detect, .tp, .nm, .tow]
  | .nmPduReceived _ _ _ _ => [.nm]
  | .repeatTimeEnd _ => [.nm]
  | .nmTimeout _ => [.nm]
  | .waitTimeEnd _ => [.lin, .nm]
  | .keepWatch _ => [.wire, .nm]
  | .isolatedHoldEnd => [.nm]
  | .tc10SleepAck _ => [.wire, .nm, .net]
  | .tc10AckTimeout _ => [.wire, .nm]
  | .tc10PeerSleepRequest _ => [.wire, .nm, .net]
  | .tc10Wake _ => [.wire, .tp, .nm, .net, .pwr]
  | .aqueductArrival => [.sys, .staged, .wire, .can, .aq, .net, .tow, .mem]
  | .routeSet _ => [.staged, .fv, .wire, .detect, .tp, .nm, .aq, .tow]
  | .routeClearCounters _ => [.staged, .fv, .wire, .detect, .tp, .nm, .aq, .tow]
  | .tunnelAvtpduReceived => [.wire, .aq]
  | .cmacCompletion => [.sys, .staged, .wire, .can, .aq, .net, .tow, .light, .mem]
  | .portLinkChange _ _ _ _ => [.wire, .detect, .net]
  | .ethFrameReceived _ _ _ _ _ => [.sys, .tide, .wire, .net, .mem]
  | .plcaBeaconTimeout _ => [.wire, .net]
  | .plcaBeaconReceived _ => [.wire, .net]
  | .ethFrameTransmit _ _ _ => [.sys, .tide, .wire, .detect, .aq, .net, .tow, .mem]
  | .hostPortDelivery => [.sys, .wire, .net, .mem]
  | .txFrameFetch _ _ => [.sys, .wire, .net, .mem]
  | .eopTimeout _ _ => [.sys, .wire, .net, .mem]
  | .ts2Timeout _ _ _ => [.sys, .wire, .net, .mem]
  | .portSet _ => [.staged, .fv, .wire, .detect, .tp, .nm, .net, .tow]
  | .portClearCounters _ => [.staged, .fv, .wire, .detect, .tp, .nm, .net, .tow]
  | .basinIngress _ => [.sys, .wire, .net, .mem]
  | .transmissionSelection _ => [.wire, .net]
  | .gateIntervalEnd _ => [.net]
  | .overflowFetchBack _ => [.wire, .net]
  | .streamRecoveryReset _ => [.wire, .net]
  | .resequencerTimeout _ => [.sys, .wire, .net, .mem]
  | .basinSet _ => [.staged, .fv, .wire, .detect, .tp, .nm, .net, .tow]
  | .basinClearCounters _ => [.staged, .fv, .wire, .detect, .tp, .nm, .net, .tow]
  | .streamSet _ => [.sys, .staged, .fv, .wire, .detect, .tp, .nm, .net, .tow, .mem]
  | .streamUnblock _ => [.sys, .staged, .fv, .wire, .detect, .tp, .nm, .net, .tow, .mem]
  | .streamClearCounters _ => [.sys, .staged, .fv, .wire, .detect, .tp, .nm, .net, .tow, .mem]
  | .streamResetSeq _ => [.sys, .staged, .fv, .wire, .detect, .tp, .nm, .net, .tow, .mem]
  | .desyncResponse _ _ => offList [.pending]
  | .runSet _ => [.tide, .fv, .wire]
  | .runClear _ => [.wire]
  | .commandDoorbell _ _ => [.wire]
  | .commandFetch _ _ => offList [.pending]
  | .responseHeadWrite _ _ => [.wire]
  | .eventHeadWrite _ _ => [.wire]
  | .receiveRingPost _ _ _ _ => [.sys, .wire, .aq, .net, .mem]
  | .transmitRingDoorbell _ _ _ _ => [.wire, .net]
  | .causeClear _ _ _ => [.wire]
  | .registerWrite _ _ _ _ => [.wire]
  | .outboundDoorbell _ => [.sys, .wire, .net, .light, .mem]
  | .interruptModerationEnd _ _ => [.wire]
  | .dmaReadTimeout _ _ _ => [.sys, .wire, .net, .mem]
  | .dmaReadError _ _ _ => [.sys, .wire, .net, .mem]
  | .dmaWriteFailure _ _ => [.cyc, .staged, .fv, .wire, .mot, .tow, .aps, .pwr, .img]
  | .functionLevelReset _ => [.cyc, .staged, .fv, .wire, .mot, .tow, .aps, .pwr, .img]
  | .ethTransportDatagram => offList [.pending]
  | .segmentTimeout _ => [.wire]
  | .spiWrite _ => offList [.pending]
  | .spiStatus => [.wire]
  | .spiRead _ => [.wire]
  | .spiUnknownInstruction => [.wire]
  | .spiByteGap _ => offList [.pending]
  | .favalGet _ _ => offList [.pending]
  | .favalSub _ _ => offList [.pending]
  | .favalUnsub _ _ => offList [.pending]
  | .favalList _ _ => offList [.pending]
  | .sysClearCounters _ => [.staged, .fv, .wire, .detect, .tp, .nm, .tow]
  | .suppressionWindowClose _ _ _ => [.wire]
  | .eventRateWindow => [.wire]
  | .poundSet _ => [.cyc, .staged, .fv, .wire, .detect, .tp, .mot, .nm, .tow, .aps, .pwr, .img, .free]
  | .poundReset _ => [.cyc, .staged, .fv, .wire, .detect, .tp, .mot, .nm, .tow, .aps, .pwr, .img, .free]
  | .poundRemove _ => [.cyc, .staged, .fv, .wire, .detect, .tp, .mot, .nm, .tow, .aps, .pwr, .img, .free]
  | .poundResetComplete _ => [.sys, .tide, .fv, .wire, .slu, .can, .nm, .net, .light, .mem, .free]
  | .ownershipTransfer _ => [.fv, .wire]
  | .coreSet _ => [.staged, .fv, .wire, .detect, .tp, .nm, .tow, .aps]
  | .coreSwap _ => [.staged, .fv, .wire, .detect, .tp, .nm, .tow, .aps]
  | .spareTakeover => [.wire, .pond, .aps]
  | .slotStart _ _ => [.tide, .fv, .aps, .free]
  | .coreMismatch _ _ _ _ => [.cyc, .staged, .fv, .wire, .detect, .pond, .tp, .pow, .slu, .mot, .tow, .aps, .pwr, .img]
  | .lbistComplete _ _ => [.cyc, .staged, .fv, .wire, .detect, .pond, .mot, .tow, .aps, .pwr, .img]
  | .spareLbist _ => [.cyc, .staged, .fv, .wire, .detect, .pond, .mot, .tow, .aps, .pwr, .img]
  | .scrubPass _ _ _ _ _ => [.sys, .wire, .detect, .pond, .aps]
  | .sramUncorrectable _ _ _ _ _ => [.sys, .cyc, .staged, .fv, .wire, .detect, .pond, .mot, .tow, .aps, .pwr, .img]
  | .accessFault _ _ _ => [.sys, .aps]
  | .towlineLinkUp _ => [.wire, .tow]
  | .towlineLinkDown _ => [.wire, .tow]
  | .towlineFrameGap _ _ _ => [.wire, .tow]
  | .dataFrameReceived _ _ _ => offList [.pending]
  | .favalFrameReceived _ _ _ => offList [.pending]
  | .postFrameReceived _ _ _ _ => offList [.pending]
  | .noteFrameReceived _ _ _ => offList [.pending]
  | .lateFrameReceived _ _ _ => offList [.pending]
  | .beatReceived _ _ _ _ => [.cyc, .tide, .wire, .detect, .fio, .tow]
  | .enumReceived _ _ _ _ _ => [.wire, .detect, .tow]
  | .enumAckReceived _ _ _ => [.wire, .detect, .tow]
  | .assignReceived _ _ _ => [.sys, .wire, .detect, .tow]
  | .topoReceived _ _ _ => [.wire, .detect, .tow]
  | .creditReceived _ _ _ => [.wire, .detect, .tow]
  | .towEnumerate _ => [.staged, .fv, .wire, .detect, .tp, .nm, .tow]
  | .enumTbDelay => [.wire, .tow]
  | .enumRepeat => [.wire, .tow]
  | .bargeStranded => [.wire, .detect, .tow]
  | .tugStrandDeclare _ => [.wire, .detect, .tow]
  | .strandHoldEnd => [.wire, .detect, .tp, .tow]
  | .relayTimeout _ _ => [.fv, .wire, .tow]
  | .towResync _ => [.staged, .fv, .wire, .detect, .tp, .nm, .tow]
  | .resyncTimeout _ => [.wire, .tow]
  | .resyncExit _ _ => [.wire, .detect, .tp, .tow]
  | .towPortRelease _ => [.staged, .fv, .wire, .detect, .tp, .nm, .tow]
  | .towReload _ => [.staged, .fv, .wire, .detect, .tp, .nm, .tow]
  | .towSet _ => [.staged, .fv, .wire, .detect, .tp, .nm, .tow]
  | .revertHoldEnd _ => [.tow]
  | .towlineReseqTimeout _ _ => offList [.pending]
  | .bargeLoadRetry _ => [.wire, .tow]
  | .lhEncrypt _ _ => [.light]
  | .lhDecrypt _ _ => [.light]
  | .lhMacGen _ _ => [.light]
  | .lhMacVerify _ _ => [.light]
  | .lhHash _ _ => [.light]
  | .lhSign _ _ => [.light]
  | .lhVerify _ _ => [.light]
  | .lhAgree _ _ => [.light]
  | .lhRandom _ _ => [.light]
  | .lhClear _ => [.light]
  | .lhRequestComplete _ _ _ => [.sys, .light, .mem, .free]
  | .lhWatchdogExpiry => [.sys, .wire, .detect, .light, .aps, .mem, .free]
  | .lhRestartComplete _ _ _ _ => [.wire, .detect, .net, .light]
  | .blockHandover _ _ => [.light]
  | .blockReturn _ => [.light]
  | .claimDeferralTimeout => [.sys, .wire, .light, .pwr, .mem, .free]
  | .keyGenerate _ => [.staged, .fv, .wire, .detect, .tp, .nm, .net, .tow, .light, .free]
  | .keyImport _ => [.staged, .fv, .wire, .detect, .tp, .nm, .net, .tow, .light, .free]
  | .keyDerive _ => [.staged, .fv, .wire, .detect, .tp, .nm, .net, .tow, .light, .free]
  | .keyUpdate _ => [.staged, .fv, .wire, .detect, .tp, .nm, .net, .tow, .light, .free]
  | .keyInvalidate _ => [.staged, .fv, .wire, .detect, .tp, .nm, .net, .tow, .light, .free]
  | .lightAttest _ => [.sys, .staged, .fv, .wire, .detect, .tp, .nm, .tow, .light, .aps, .free]
  | .lightDebugChallenge _ _ => [.sys, .staged, .fv, .wire, .detect, .tp, .nm, .tow, .light, .aps, .free]
  | .lightDebugResponse _ _ => [.sys, .staged, .fv, .wire, .detect, .tp, .nm, .tow, .light, .aps, .free]
  | .challengeExpiry => [.light]
  | .debugAuthExpiry => [.sys, .light, .aps]
  | .safeEnter _ => offList [.sys, .cyc, .tide, .can, .lin, .aq, .net, .light, .aps, .pwr, .mem, .free, .pending]
  | .safeRelease _ => offList [.sys, .cyc, .tide, .can, .lin, .aq, .net, .light, .aps, .pwr, .mem, .free, .pending]
  | .safeSet _ => offList [.sys, .cyc, .tide, .can, .lin, .aq, .net, .light, .aps, .pwr, .mem, .free, .pending]
  | .safeStrobe => [.fv, .wire, .safe, .detect, .tp, .pow, .slu, .mot, .fio, .img]
  | .breachRun _ => [.staged, .fv, .wire, .detect, .breach, .tp, .nm, .tow]
  | .breachResultWindowEnd _ _ => offList [.pending]
  | .latentTestRun _ _ _ _ => [.wire, .detect, .breach, .free]
  | .pondBringIn _ => [.staged, .fv, .wire, .detect, .pond, .tp, .pow, .slu, .can, .nm, .tow, .aps]
  | .sramBankCopyComplete => [.wire, .pond]
  | .thermalEmergency => [.sys, .fv, .wire, .detect, .slu, .fio, .net, .light, .aps, .pwr, .mem, .free]
  | .vkeepMon => offList [.free, .pending]
  | .vcoreMon => [.sys, .fv, .wire, .detect, .slu, .fio, .net, .light, .aps, .pwr, .mem, .free]
  | .vioMon _ _ => offList [.free, .pending]
  | .clockMon => [.wire, .detect, .tp, .pwr]
  | .busTimeout => [.wire, .detect]
  | .emramEcc _ _ => [.wire, .detect, .pond, .tp, .slu, .free]
  | .tableEcc _ _ _ => [.wire, .detect, .can, .aq, .net]
  | .faultNReadback => [.wire, .detect]
  | .sluiceSilent => [.wire, .detect, .tp, .pow, .slu, .mot, .img]
  | .sluiceCode => [.wire, .detect, .tp, .pow, .slu, .mot, .img]
  | .trngHealth _ => [.wire, .detect, .light]
  | .powerSet _ => offList [.sys, .cyc, .tide, .safe, .breach, .pond, .can, .aq, .light, .img, .mem, .free, .pending]
  | .powerEnter _ => offList [.sys, .cyc, .tide, .safe, .breach, .pond, .can, .aq, .light, .img, .mem, .free, .pending]
  | .avsAcknowledge _ => [.wire, .pwr]
  | .avsAttemptTimeout => [.wire, .pwr]
  | .transitionComplete => [.wire, .slu, .fio, .net, .pwr]
  | .sleepEntry => offList [.free, .pending]
  | .autoSleep => [.staged]
  | .awakeThreshold _ _ _ => [.wire, .tp, .net, .pwr]
  | .wakeTimer => [.wire, .tp, .net, .pwr]
  | .limpWake => [.sys, .wire, .tp, .net, .pwr]
  | .boardnetLoss => offList [.free, .pending]
  | .wakeDomainReset => offList [.free, .pending]
  | .resetAssert => offList [.free, .pending]
  | .start _ _ => [.sys, .cyc, .tide, .wire, .detect, .pond, .tp, .fio, .lin, .nm, .tow, .aps, .pwr, .img]
  | .referenceTimeout => offList [.free, .pending]
  | .firmwareRun _ _ _ _ => offList [.pending]
  | .startComplete => [.fv, .wire, .detect, .tp, .tow, .img]
  | .startFailure _ => offList [.free, .pending]
  | .startRetry _ => [.sys, .cyc, .tide, .wire, .pond, .fio, .tow, .aps, .pwr, .img]
  | .lockkeeperRestart _ _ _ => [.cyc, .staged, .fv, .wire, .detect, .tp, .slu, .mot, .fio, .tow, .pwr, .img]
  | .imageWrite _ => [.sys, .staged, .fv, .wire, .detect, .tp, .nm, .tow, .img, .mem]
  | .imageVerify _ => [.sys, .staged, .fv, .wire, .detect, .tp, .nm, .tow, .img, .mem]
  | .imageActivate _ => [.sys, .staged, .fv, .wire, .detect, .tp, .nm, .tow, .img, .mem]
  | .imageRollback _ => [.sys, .staged, .fv, .wire, .detect, .tp, .nm, .tow, .img, .mem]
  | .trialEnd => [.wire, .net, .light, .img]
  | .lockThroughPrepared => [.fv, .wire, .tow, .img]
  | .readyFlagTimeout => [.cyc, .staged, .fv, .wire, .mot, .tow, .aps, .pwr, .img]
  | .highWaterCancel => [.fv, .wire, .tow, .img]
  | .chartWrite _ => [.sys, .staged, .fv, .wire, .detect, .tp, .nm, .tow, .img, .mem]
  | .chartCommit _ => [.sys, .staged, .fv, .wire, .detect, .tp, .nm, .tow, .img, .mem]
  | .chartRollback _ => [.sys, .staged, .fv, .wire, .detect, .tp, .nm, .tow, .img, .mem]
  | .gptpAnnounceReceived _ _ _ _ => [.tide, .wire]
  | .linHeaderReceived _ _ _ => [.wire, .lin, .nm, .aq]
  | .thermalEmergencyClear => [.wire, .detect, .pwr]
  | .supplyRailRecovery _ => [.wire, .detect, .can, .lin, .nm, .pwr]
  | .creditWaitExpiry _ => [.wire, .tow]
  | .addressResolutionRequest _ _ _ => [.net]
  | .debugHalt _ => [.aps]
  | .debugResume _ => [.aps]
  | .boundaryScanInstruction _ => [.sys]
  | .shaperCreditRecovery _ _ => [.wire, .net]

/-! ### The invariant -/

/-- What every step keeps: memory in its canonical form, and a queue of commands the outside can send. -/
structure Inv (s : State) : Prop where
  mem   : Memory.wf s.mem = true
  queue : ∀ c ∈ s.pending, Sys2Proof.Instr.wellFormed c = true

/-- A step is safe: it answers a next state. -/
def SafeStep (s : State) : Prop := ∃ t, step s = .next t

/-! ### Words of the statements -/

/-- Every unit but `i` holds what it held. -/
def others {α : Type} (get : State → Nat → α) (i : Nat) (s t : State) : Prop := ∀ j, j ≠ i → get t j = get s j

/-- What Faval holds after a command is what raising the events `f` in the state it leads to makes of what Faval held
before: those events and no other reached the pounds. -/
def reports (f : State → State) (s t : State) : Prop := t.fv = (f { t with fv := s.fv }).fv

/-- Detector `bp` holds one detection more (R552); while a FULL breach run withholds its class it holds what it held
(R563). -/
def detected (bp : Nat) (live : Bool) (s t : State) : Prop :=
  detAt t bp = if s.saf.mute = [] then
    { detAt s bp with count := sat 32 ((detAt s bp).count + 1), latched := true, active := live, lastCycle := s.cyc.number }
  else detAt s bp

/-- A pinch or reversal sequence (R186) of the bridge that drives channel `i` runs. -/
def sequenced (s : State) (i : Nat) : Bool :=
  match bridgeOf s i with
  | some (b, _) => paired s b && decide ((brDynAt s b).seq = .pinchBrake ∨ (brDynAt s b).seq = .reversing ∨ (brDynAt s b).seq = .revHold)
  | none => false

/-- Channel `i` as an analogue protection leaves it: off at once, its terminal off with it, the trip latched until it is
recorded (R106); a sequence it cuts short leaves the bridge's demand off (R190). -/
def tripped (i cause energy : Nat) (cur : Int) (s : State) : Chan :=
  { chanAt s i with
    gate := false, hb := 0, limiting := false, offAt := s.tide.counter
    demand := if sequenced s i = true then 0 else (chanAt s i).demand
    trip := some { cause := cause, energy := energy, current := cur, breach := decide (s.saf.mute ≠ []) } }

/-- What a LIN channel drives after the header of `id`: the data and checksum of the frame it publishes (R289). -/
def linDrives (c id : Nat) (s : State) : List Byte :=
  let f := linFrameAt s (linEntry c id)
  let d := (f.data.take f.len).map (BitVec.ofNat 8)
  if f.dir = 1 then d ++ leBytes 1 (linChecksum f.enhanced id d) else (linAt s c).out

/-- A request of `verb` reaches its object (R396 steps 1 to 9): the firmware takes messages, the pound runs, the object
is of this device. -/
structure Heard (k : ClassSpec) (verb : Nat) (r : Req) (s : State) : Prop where
  fw   : s.fv.fw = true
  shut : s.img.shut = false
  runs : (poundAt s r.pound).state = .running
  here : r.tow = s.sys.tow
  gate : gate k verb r s = .ok

/-- A SET passes every check of R396. -/
structure SetPasses (k : ClassSpec) (r : Req) (s : State) : Prop where
  heard  : Heard k 2 r s
  passes : orLate k 2 r (received r.pound s) (setStatus k r (askSet k r (received r.pound s)) (received r.pound s)) = .ok

/-- An ACT whose row names the action passes every check of R396. -/
structure ActPasses (k : ClassSpec) (code : Nat) (r : Req) (s : State) : Prop where
  heard  : Heard k 3 (actReq code r) s
  passes : ∃ a, actOf k (actReq code r) = some a ∧
    orLate k 3 (actReq code r) (received r.pound s) (actStatus a (actReq code r) (received r.pound s)) = .ok

/-- The state in which an accepted request takes effect: it is counted, and counted as accepted. -/
def taken (r : Req) (s : State) : State := accepted r.pound (received r.pound s)

/-- The fields a SET names, as the record stands when it is received (R425). -/
def asked (k : ClassSpec) (r : Req) (s : State) : SetAsk := askSet k r (received r.pound s)

/-- An accepted command of class `cls` waits in the shadow state behind every other, for the boundary that the cutoff
and the fold capacity leave it (R43-R45). Beside the shadow state only what the acceptance of a message moves. -/
def waits (cls : Nat) (r : Req) (op : StagedOp) (s t : State) : Prop :=
  t.cyc = { s.cyc with staged := s.cyc.staged ++ [{ due := dueNow s r.pound, cls := cls, req := r, op := op }] } ∧
  changesOnly [.staged, .wire, .detect, .tp, .nm] s t

/-- A key record without its use count. -/
def Key.unused (k : Key) : Key := { k with uses := 0 }

/-- The state in which the fields of an accepted SET have been written (R425). -/
def applied (k : ClassSpec) (r : Req) (s : State) : State :=
  applySet k r.inst (asked k r s).part (asked k r s).writes (taken r s)

/-- The response OK to a request, with its payload (R394). -/
def okTo (k : ClassSpec) (verb : Nat) (r : Req) (pl : List Byte) (s : State) : State := answer k.code verb r .ok none pl s

end Sys2Proof.Machine
end

