-- ==== Sys2Proof/Certificates/Slice0/Obligations.lean ====
section
/-! DEFINITION. The statements about the model. -/
open Sys2Proof Sys2Proof.Machine

/-- O1. With command c at the front of the queue, a step is exec of c on the state whose queue is the rest. -/
def Obligations.StepRunsTheFrontCommand : Prop :=
  ∀ (c : Instr) (rest : List Instr) (s : State), s.pending = c :: rest → step s = exec c { s with pending := rest }

/-- O2. On an empty queue a step answers the state in which the counter of the Tide clock has advanced by 2 ns
modulo 2^64 while the keeper domain is powered and stands otherwise, and nothing but the Tide clock, the time
inside the cycle and the age of the wake domain has changed. That a tick is what an empty queue does is the
model's choice (log entry 1). -/
def Obligations.EmptyQueueTicks : Prop :=
  ∀ s : State, s.pending = [] → ∃ t, step s = .next t ∧ t.tide.counter = (if s.pwr.keeper then (s.tide.counter + 2) % 2 ^ 64 else s.tide.counter) ∧
    t.cyc.inCycle = (if s.cyc.running then s.cyc.inCycle + 2 else s.cyc.inCycle) ∧ t.pwr = { s.pwr with age := s.pwr.age + 2 } ∧ changesOnly [.tide, .cyc, .pwr] s t

/-- O3. State.reset satisfies the invariant Inv: memory in canonical form, every waiting command well formed. -/
def Obligations.ResetHoldsInvariant : Prop :=
  Inv State.reset

/-- O4. For every state whose memory is in canonical form and whose waiting commands are well formed, a step answers
a next state, whose memory is in canonical form and whose waiting commands are well formed. -/
def Obligations.EveryStepKeepsInvariant : Prop :=
  ∀ s : State, Inv s → ∃ t, step s = .next t ∧ Inv t

/-- O5. For every command i and state s: when exec answers a next state t, every region of the state that touches i
does not list holds in t what it held in s: registers field by field, memory byte by byte, the shadow state, the
queues of the transports, the safe state, the detectors, the side ponds and the queue of waiting commands each
as a region of its own. -/
def Obligations.EveryCommandFrame : Prop :=
  ∀ (i : Instr) (s t : State), exec i s = .next t → changesOnly (touches i) s t

/-- O6. For every command i and state s: exec answers the fault noSuchUnit exactly when unitOk i is false (the
operand names a unit the device does not have); it answers no other fault and refuses nothing. -/
def Obligations.StopsOnlyOnAbsentUnits : Prop :=
  ∀ (i : Instr) (s : State), (i.unitOk = false → exec i s = .fault .noSuchUnit) ∧ (i.unitOk = true → ∃ t, exec i s = .next t)

/-- O7. For a channel i that the device has, each of these commands answers a next state in which the channel holds
what is said and every other channel holds what it held: CURRENT_LIMIT_ONSET of a current at the limit in force,
with the gate on, sets limiting; LIMIT_TIMER_CLEAR clears it; INRUSH_WINDOW_END of a channel in INRUSH whose
window ends in this cycle and waits for no edge gives ON, with no window left and the cycle number;
CHARGE_COMPLETE of a conducting channel in CHARGING gives ON, its Paddle to start at the next boundary;
OFF_DIAG_START of a channel long off whose diagnosis is enabled or asked for and does not run starts it;
RETRY_DELAY_END in RETRY_WAIT with the delay running ends the delay; CLEAN_TIME_ELAPSED in ON records that the
clean time is up, which clears the retry count at the boundary; PATIENCE_ELAPSED with the cliff latch set, the
patience running and no safe state in force records it. Where its condition fails a command leaves the channel
as it is. -/
def Obligations.ChannelTimersAndLatches : Prop :=
  (∀ (i cur : Nat) (s : State), i < 76 → ∃ t, exec (.currentLimitOnset i cur) s = .next t ∧
      others chanAt i s t ∧ chanAt t i = if ((chanAt s i).gate && decide (limitUa s i ≤ cur)) = true then { chanAt s i with limiting := true } else chanAt s i) ∧
  (∀ (i : Nat) (s : State), i < 76 → ∃ t, exec (.limitTimerClear i) s = .next t ∧
      others chanAt i s t ∧ chanAt t i = { chanAt s i with limiting := false }) ∧
  (∀ (i : Nat) (s : State), i < 76 → ∃ t, exec (.inrushWindowEnd i) s = .next t ∧
      others chanAt i s t ∧ chanAt t i = if (chanAt s i).state = .inrush ∧ (chanAt s i).edgeWait = false ∧ windowLast s i = true then
        { chanAt s i with state := .on, window := 0, changed := s.cyc.number } else chanAt s i) ∧
  (∀ (i : Nat) (s : State), i < 76 → ∃ t, exec (.chargeComplete i) s = .next t ∧
      others chanAt i s t ∧ chanAt t i = if (chanAt s i).state = .charging ∧ (chanAt s i).gate = true then
        { chanAt s i with state := .on, padDue := true, changed := s.cyc.number } else chanAt s i) ∧
  (∀ (i : Nat) (s : State), i < 76 → ∃ t, exec (.offDiagStart i) s = .next t ∧
      others chanAt i s t ∧ chanAt t i = if (offLong s i && ((chanAt s i).cfg.offDiagEn || (chanAt s i).diagReq) && decide ((chanAt s i).diag = 0)) = true then
        { chanAt s i with diag := 1 } else chanAt s i) ∧
  (∀ (i : Nat) (s : State), i < 76 → ∃ t, exec (.retryDelayEnd i) s = .next t ∧
      others chanAt i s t ∧ chanAt t i = if (chanAt s i).state = .retryWait ∧ (chanAt s i).delayRun = true then
        { chanAt s i with delayRun := false, delayEnd := true } else chanAt s i) ∧
  (∀ (i : Nat) (s : State), i < 76 → ∃ t, exec (.cleanTimeElapsed i) s = .next t ∧
      others chanAt i s t ∧ chanAt t i = if (chanAt s i).state = .on then { chanAt s i with cleanUp := true } else chanAt s i) ∧
  (∀ (i : Nat) (s : State), i < 76 → ∃ t, exec (.patienceElapsed i) s = .next t ∧
      others chanAt i s t ∧ chanAt t i = if (chanAt s i).cliff = true ∧ (chanAt s i).patience = true ∧ s.saf.inForce = false then
        { chanAt s i with patience := false, patienceUp := true } else chanAt s i)

/-- O8. For a channel that conducts, SHORT_TRIP, LIMIT_TIMER_EXPIRY outside the inrush window, and CHARGE_TIME_LIMIT
and CHARGE_ENERGY_LIMIT in CHARGING answer a next state in which the gate and the half-bridge terminal are off,
the off time is the counter, regulation has ended, a demand that an end-stop or pinch sequence held is off and
the trip is latched with its cause (1 SHORT, 2 LIMIT, 5 CHARGE_FAIL), energy and current, its restart state
unchanged; SHORT_TRIP and LIMIT_TIMER_EXPIRY are counted by detectors 0x001 and 0x002 when they turn the channel
off. A channel without current through it holds what it held. REVERSE_TRIP of a conducting Feeder or Main
channel turns it off with cause 6 and sets the sticky flag REVERSE. -/
def Obligations.AnalogueTripsTurnOffAtOnce : Prop :=
  (∀ (i e : Nat) (cur : Int) (s : State), i < 76 → ∃ t, exec (.shortTrip i e cur) s = .next t ∧
      chanAt t i = (if (chanAt s i).gate then tripped i 1 e (cur) s else chanAt s i) ∧ ((chanAt s i).gate = true → detected 0x001 false s t)) ∧
  (∀ (i e : Nat) (cur : Int) (s : State), i < 76 → ∃ t, exec (.limitTimerExpiry i e cur) s = .next t ∧
      ((chanAt s i).state = .inrush → t = s) ∧ ((chanAt s i).state ≠ .inrush → chanAt t i = (if (chanAt s i).gate then tripped i 2 e (cur) s else chanAt s i) ∧
      ((chanAt s i).gate = true → detected 0x002 false s t))) ∧
  (∀ (i e : Nat) (s : State), i < 32 → ∃ t, exec (.chargeTimeLimit i e) s = .next t ∧
      ((chanAt s i).state ≠ .charging → t = s) ∧ ((chanAt s i).state = .charging →
      chanAt t i = (if (chanAt s i).gate then tripped i 5 e (chCur s i) s else chanAt s i))) ∧
  (∀ (i e : Nat) (s : State), i < 32 → ∃ t, exec (.chargeEnergyLimit i e) s = .next t ∧
      ((chanAt s i).state ≠ .charging → t = s) ∧ ((chanAt s i).state = .charging →
      chanAt t i = (if (chanAt s i).gate then tripped i 5 e (chCur s i) s else chanAt s i))) ∧
  (∀ (i e : Nat) (cur : Int) (s : State), i < 32 → ∃ t, exec (.reverseTrip i e cur) s = .next t ∧
      (if (chanAt s i).gate then
        chanAt t i = { tripped i 6 e cur s with reverse := true } ∧ detected 0x004 false s t
      else t = s))

/-- O9. For a group g (0 or 1) and a voltage v each command answers a next state in which the group holds v and its
band, every channel of the other group holds what it held, and: below V_OFF every channel of the group that is
not LATCHED_OFF is in UV_OFF with the gate off, its demand and settings kept and of its trip only one not yet
recorded, a channel in LATCHED_OFF holds what it held, and for VBAT_B every field output is off; rising through
V_OFF a channel in UV_OFF whose governing demand is off is in OFF, one whose demand is on is deferred for the
voltage, and every other holds what it held; falling below V_FULL or rising above V_OV changes no channel;
rising through V_FULL a channel in UV_OFF or deferred for it is marked for its restore, and falling below V_OV a
channel deferred for that, every other channel as it was. Falling below V_OFF or V_FULL is a detection of 0x007,
rising above V_OV one of 0x008. -/
def Obligations.GroupVoltageBands : Prop :=
  (∀ (g v : Nat) (s : State), g < 2 → ∃ t, exec (.groupFallVOff g v) s = .next t ∧
      grpAt t g = { band := .belowOff, v := v } ∧ (∀ i, ¬(i < 76 ∧ chGroup i = g) → chanAt t i = chanAt s i) ∧
      (∀ i, i < 76 → chGroup i = g → if (chanAt s i).state = .latchedOff then chanAt t i = chanAt s i
        else (chanAt t i).state = .uvOff ∧ (chanAt t i).gate = false ∧ (chanAt t i).trip = keepTrip (chanAt s i) ∧ (chanAt t i).demand = (chanAt s i).demand ∧
          (chanAt t i).cfg = (chanAt s i).cfg) ∧
      (g = 1 → ∀ k, k < 16 → (foAt t k).out = false) ∧ detected 0x007 true s t) ∧
  (∀ (g v : Nat) (s : State), g < 2 → ∃ t, exec (.groupRiseVOff g v) s = .next t ∧
      grpAt t g = { band := .hold, v := v } ∧ (∀ i, ¬(i < 76 ∧ chGroup i = g) → chanAt t i = chanAt s i) ∧
      (∀ i, i < 76 → chGroup i = g → if (chanAt s i).state = .uvOff then
          (if (govern s i).on = 0 then (chanAt t i).state = .off ∧ (chanAt t i).gate = false ∧ (chanAt t i).demand = (chanAt s i).demand
           else chanAt t i = { chanAt s i with defUv := true, defOv := false })
        else chanAt t i = chanAt s i)) ∧
  (∀ (g v : Nat) (s : State), g < 2 → ∃ t, exec (.groupFallVFull g v) s = .next t ∧
      grpAt t g = { band := .hold, v := v } ∧ (∀ i, chanAt t i = chanAt s i) ∧ detected 0x007 true s t) ∧
  (∀ (g v : Nat) (s : State), g < 2 → ∃ t, exec (.groupRiseVFull g v) s = .next t ∧
      grpAt t g = { band := .full, v := v } ∧ (∀ i, ¬(i < 76 ∧ chGroup i = g) → chanAt t i = chanAt s i) ∧
      (∀ i, i < 76 → chGroup i = g → chanAt t i = if (chanAt s i).state = .uvOff ∨ (chanAt s i).defUv = true then { chanAt s i with restoreUv := true } else chanAt s i)) ∧
  (∀ (g v : Nat) (s : State), g < 2 → ∃ t, exec (.groupRiseVOv g v) s = .next t ∧
      grpAt t g = { band := .above, v := v } ∧ (∀ i, chanAt t i = chanAt s i) ∧ detected 0x008 true s t) ∧
  (∀ (g v : Nat) (s : State), g < 2 → ∃ t, exec (.groupFallVOv g v) s = .next t ∧
      grpAt t g = { band := .full, v := v } ∧ (∀ i, ¬(i < 76 ∧ chGroup i = g) → chanAt t i = chanAt s i) ∧
      (∀ i, i < 76 → chGroup i = g → chanAt t i = if (chanAt s i).defOv = true then { chanAt s i with restoreUv := true } else chanAt s i))

/-- O10. SEGMENT_FAILURE of segment g of a Feeder or Main channel: with a spare left and not promised the swap is
due at the next boundary, the channel holding what it held, and the segment is marked in the wear record; with
none the channel has one active segment fewer and is derated, and below its fewest it is LATCHED_OFF, barred
from RESTART, its gate and demand off; the detection is 0x006. STUCK_TEST_END ends the test: a terminal below a
tenth of the group's voltage sets STUCK_ON, any other SHORT_BAT_OFF; the detection is 0x005; without a test
running nothing changes. OFF_DIAG_END ends a diagnosis and the request for it; a pulled-up terminal above 2 V
sets OPEN_LOAD_OFF, and a terminal that stays above half the group's voltage starts the stuck test of a Feeder
or Main channel and sets SHORT_BAT_OFF of any other. OPEN_LOAD_ON in ON sets its flag and reports CHAN_OPEN_LOAD
with cause 1, and REVERSE_FLAG sets REVERSE and reports CHAN_REVERSE; no event but that one is raised. With the
keeper domain off the failure and the reverse flag change nothing. -/
def Obligations.SegmentsAndDiagnosis : Prop :=
  (∀ (i g : Nat) (s : State), i < 32 ∧ g ≤ chNominal i → ∃ t, exec (.segmentFailure i g) s = .next t ∧
      (s.pwr.keeper = false → t = s) ∧ (s.pwr.keeper = true → (if ((chanAt s i).spareOk && !sparePromised s i) = true then chanAt t i = chanAt s i ∧ (segAt t i).swapDue = some g
      else (chanAt t i).active = (chanAt s i).active - 1 ∧ (chanAt t i).derated = true ∧
        (chanAt t i).state = (if (chanAt s i).active - 1 < chFewest i then .latchedOff else (chanAt s i).state) ∧
        ((chanAt s i).active - 1 < chFewest i → (chanAt t i).barred = true ∧ (chanAt t i).gate = false ∧ (chanAt t i).demand = 0)) ∧
      bitOf g (segAt t i).failed = true ∧ detected 0x006 false s t)) ∧
  (∀ (i v g : Nat) (s : State), i < 32 ∧ g ≤ chNominal i → ∃ t, exec (.stuckTestEnd i v g) s = .next t ∧
      (if (chanAt s i).stuckTest then
        (chanAt t i).stuckTest = false ∧ (10 * v < (grpAt s (chGroup i)).v → (chanAt t i).stuckOn = true ∧ (chanAt t i).shortBat = (chanAt s i).shortBat) ∧
        (¬ 10 * v < (grpAt s (chGroup i)).v → (chanAt t i).shortBat = true ∧ (chanAt t i).stuckOn = (chanAt s i).stuckOn)
      else t = s)) ∧
  (∀ (i vPull vFree : Nat) (s : State), i < 76 → ∃ t, exec (.offDiagEnd i vPull vFree) s = .next t ∧
      (if (chanAt s i).diag = 0 then t = s else
        (chanAt t i).diag = 0 ∧ (chanAt t i).diagReq = false ∧ (chanAt t i).olOff = ((chanAt s i).olOff || decide (2000000 < vPull)) ∧
        (chanAt t i).stuckTest = ((chanAt s i).stuckTest || decide (i < 32 ∧ (grpAt s (chGroup i)).v < 2 * vFree)) ∧
        (chanAt t i).shortBat = ((chanAt s i).shortBat || decide (32 ≤ i ∧ (grpAt s (chGroup i)).v < 2 * vFree)))) ∧
  (∀ (i : Nat) (s : State), i < 76 → ∃ t, exec (.openLoadOn i) s = .next t ∧
      chanAt t i = (if (chanAt s i).state = .on then { chanAt s i with olOn := true } else chanAt s i) ∧ others chanAt i s t ∧
      reports (fun u => if (chanAt s i).state = .on then emit 0x1004 i u 1 0 (chCur s i) else u) s t) ∧
  (∀ (i : Nat) (s : State), i < 76 → ∃ t, exec (.reverseFlag i) s = .next t ∧
      (s.pwr.keeper = false → t = s) ∧ (s.pwr.keeper = true → chanAt t i = { chanAt s i with reverse := true } ∧ others chanAt i s t ∧ reports (fun u => emit 0x1006 i u 0 0 (chCur s i)) s t))

/-- O11. With the keeper domain powered CLIFF_LATCH_SET sets the latch, starts T_PATIENCE, turns a conducting
channel off at once with cause 3 and is a detection of 0x003; CLIFF_LATCH_REARM clears the latch and the
patience; every other channel keeps its latch, its restart state and its settings. -/
def Obligations.CliffLatch : Prop :=
  (∀ (i e : Nat) (cur : Int) (s : State), i < 76 → ∃ t, exec (.cliffLatchSet i e cur) s = .next t ∧
      (s.pwr.keeper = false → t = s) ∧ (s.pwr.keeper = true → (chanAt t i).cliff = true ∧ (chanAt t i).patience = true ∧ (chanAt t i).patienceUp = false ∧ (chanAt t i).gate = false ∧
      ((chanAt s i).gate = true → (chanAt t i).trip = some { cause := 3, energy := e, current := cur, breach := decide (s.saf.mute ≠ []) }) ∧
      detected 0x003 true s t ∧ (∀ j, j ≠ i → (chanAt t j).cliff = (chanAt s j).cliff ∧ (chanAt t j).state = (chanAt s j).state ∧ (chanAt t j).cfg = (chanAt s j).cfg))) ∧
  (∀ (i : Nat) (s : State), i < 76 → ∃ t, exec (.cliffLatchRearm i) s = .next t ∧
      chanAt t i = { chanAt s i with cliff := false, patience := false, patienceUp := false } ∧ others chanAt i s t)

/-- O12. While the cycle timer runs: FILL_PHASE opens the fill phase and captures the inputs' samples and the supply
voltages of the cycle before; LEVEL_PHASE opens the level phase, and with the Sluice silent leaves models,
telemetry and budgets as they are; a LEVEL_COMPLETION_SIGNAL sets the flag of its block; CUTOFF closes
acceptance for the next boundary, opens sealing, and with level work missing adds its mask to the overrun
causes; SEALING_WINDOW records the sealing when the firmware runs; SEALING_DEADLINE adds cause 8 when nothing is
sealed. Nothing else of the cycle timer's record changes, and no staged command. -/
def Obligations.PhasesOfTheLockCycle : Prop :=
  (∀ (x : Samples) (s : State), s.cyc.running = true → ∃ t, exec (.fillPhase x) s = .next t ∧
      t.cyc = { s.cyc with phase := .fill } ∧ t.fio.di = x.di ∧ t.fio.ai = x.ai ∧
      (∀ g, g < 2 → (grpAt t g).v = elemOr (grpAt s g).v x.group g)) ∧
  (∀ (s : State), s.cyc.running = true → ∃ t, exec (.levelPhase) s = .next t ∧
      t.cyc = { s.cyc with phase := .level } ∧ (s.slu.silent = true → t.slu = s.slu ∧ t.pow = s.pow)) ∧
  (∀ (k : Nat) (s : State), s.cyc.running = true → k < 3 → ∃ t, exec (.levelCompletionSignal k) s = .next t ∧
      t.cyc.doneSluice = (s.cyc.doneSluice || decide (k = 0)) ∧ t.cyc.doneFio = (s.cyc.doneFio || decide (k = 1)) ∧
      t.cyc.doneAq = (s.cyc.doneAq || decide (k = 2)) ∧ t.img.alive = (s.img.alive || decide (k = 0)) ∧ t.cyc.staged = s.cyc.staged) ∧
  (∀ (s : State), s.cyc.running = true → ∃ t, exec (.cutoff) s = .next t ∧
      t.cyc = { s.cyc with
        phase := .sealing, pastCutoff := true, overMask := s.cyc.overMask ||| lateMask s }) ∧
  (∀ (handoff : Bool) (s : State), s.cyc.running = true → ∃ t, exec (.sealingWindow handoff) s = .next t ∧
      t.cyc = { s.cyc with sealed := s.cyc.sealed || s.fv.fw }) ∧
  (∀ (s : State), s.cyc.running = true → ∃ t, exec (.sealingDeadline) s = .next t ∧
      t.cyc = (if s.cyc.sealed = false then { s.cyc with overMask := s.cyc.overMask ||| 8 } else s.cyc))

/-- O13. In a lock cycle stretched by a rephase that has not overrun, STRETCH_REFRESH arms and refreshes the silence
timer of each of the 16 field outputs with the number of the cycle, everything else of the output kept; with the
firmware stopped, in any other state of the timer or in an overrun cycle the state stays as it is. -/
def Obligations.SilenceTimersRefreshed : Prop :=
  (∀ (s : State), s.cyc.running = true → ∃ t, exec (.stretchRefresh) s = .next t ∧
      (if s.fv.fw = true ∧ s.cyc.timer = .rephase ∧ s.cyc.overMask = 0 then
        ∀ k, k < 16 → foAt t k = { foAt s k with armed := true, fresh := true, last := s.cyc.number }
      else t = s))

/-- O14. While the cycle timer runs and no towline frame is held back, APPLY_PHASE opens the apply phase; the staged
commands keep their boundaries; a hand-back found at the cutoff of an earlier cycle is folding when the firmware
runs, any other state of it stays; and the transports that a handover had closed are open. -/
def Obligations.ApplyPhase : Prop :=
  (∀ (s : State), s.cyc.running = true → s.tow.reseqs = [] → ∃ t, exec (.applyPhase) s = .next t ∧
      t.cyc = { s.cyc with phase := .apply } ∧ t.img.shut = false ∧
      t.tp = (if s.fv.fw = true ∧ s.tp.handBack = .found ∧ s.tp.hbCycle ≠ s.cyc.number then { s.tp with handBack := .folding } else s.tp))

/-- O15. With the cycle timer not running each phase event of the lock cycle answers the state itself. -/
def Obligations.StoppedTimerHasNoPhases : Prop :=
  (∀ (x : Samples) (b i : Bool) (s : State), s.cyc.running = false → exec (.fillPhase x) s = .next s ∧ exec .levelPhase s = .next s ∧ exec .applyPhase s = .next s ∧ exec .cutoff s = .next s ∧
      exec (.sealingWindow b) s = .next s ∧ exec .sealingDeadline s = .next s ∧ exec .stretchRefresh s = .next s ∧ exec (.boundary i) s = .next s)

/-- O16. While the cycle timer runs, BOUNDARY answers a next state at the very start of a cycle: no time in it, the
fill phase, acceptance open for its own boundary, nothing sealed, no completion signal, no overrun cause; once
what was sealed has taken effect the cycle has the number that the working time (or a number adopted from the
towline) gives it, and the state and length that its phase error gives. When the cycle that ended had overrun,
the count of overruns in a row is one more, and these regions hold what they held: the device's own record,
memory byte by byte, the Lighthouse, the side ponds, the breach runs and records, the free values and the
waiting commands. -/
def Obligations.BoundaryBeginsTheNextCycle : Prop :=
  (∀ (interval : Bool) (s : State), s.cyc.running = true → ∃ t, exec (.boundary interval) s = .next t ∧
      t.cyc.inCycle = 0 ∧ t.cyc.phase = .fill ∧ t.cyc.pastCutoff = false ∧ t.cyc.sealed = false ∧ t.cyc.overMask = 0 ∧
      t.cyc.doneSluice = false ∧ t.cyc.doneFio = false ∧ t.cyc.doneAq = false ∧
      (∃ u v, u = (if interval = true then s else tpSet 2 (detect 0x01A false s)) ∧
        v = takeEffect (decide (u.cyc.overMask ≠ 0)) (periodBoundary (endedBoundary (endCycle (decide (u.cyc.overMask ≠ 0)) (padsLatch u u.cyc.length u)))).2.2 ∧
        t.cyc.number = nextNumber v ∧ (t.cyc.timer, t.cyc.length) = nextCycle (workNs v) v.cyc.period) ∧
      (s.cyc.overMask ≠ 0 → t.cyc.overruns = s.cyc.overruns + 1 ∧ changesOnly (offList [.sys, .mem, .light, .pond, .breach, .free, .pending]) s t))

/-- O17. TSNAP_TAKE with 1 from a powered pound gives it a valid copy of the counter, the working clock, the cycle
number, the time in the cycle and the eight domain values of one instant, with 0 nothing; no other pound's copy
changes. TIDE_OUT_EDGE of an output with a scheduled edge starts the pulse while VIO33 is in range, with its
end, else sets ONCE to OFF, and schedules the next edge one period later in PERIODIC and none otherwise.
TIDE_OUT_PULSE_END of a pulse without a waiting SET ends it and sets ONCE to OFF. TIDE_IN_CAPTURE of a chosen
edge of a pulse not shorter than the glitch filter, 100 ns or more after the last, puts clock, counter and edge
into a FIFO with room; a full FIFO keeps its content and counts an overflow; an edge that is not chosen, or of a
shorter pulse, changes nothing. -/
def Obligations.SnapshotsAndTimePins : Prop :=
  (∀ (p : Nat) (bit : Bool) (s : State), p < 32 → ∃ t, exec (.tsnapTake p bit) s = .next t ∧
      ((!s.pwr.keeper || (decide ((poundAt s p).kind = 4) && !s.pwr.vcoreEn)) = true ∨ bit = false → t = s) ∧
      (∀ q, q ≠ p → tget snap0 t.tide.snaps q = tget snap0 s.tide.snaps q) ∧
      ((!s.pwr.keeper || (decide ((poundAt s p).kind = 4) && !s.pwr.vcoreEn)) = false → bit = true → tget snap0 t.tide.snaps p =
        { valid := true, servo := servoCode (servoAt s 0).state, phase := match s.cyc.timer with | .phased => 0 | .slewing => 1 | .rephase => 2
          ctr := s.tide.counter, sec := s.tide.sec, ns := s.tide.ns, inCyc := s.cyc.inCycle, cycle := s.cyc.number
          dom := (List.range 8).map (fun d => domValue s (d + 1)) })) ∧
  (∀ (i : Nat) (s : State), i < 4 → ∃ t, exec (.tideOutEdge i) s = .next t ∧
      others toutAt i s t ∧ ((toutAt s i).next = none → t = s) ∧ (∀ n nx, (toutAt s i).next = some n → nx = (if (toutAt s i).cfg.mode = 2 then some (n + (toutAt s i).cfg.period) else none) →
        toutAt t i = if railOk s 3 = true then { toutAt s i with pulse := true, endAt := s.tide.counter + (toutAt s i).cfg.width, next := nx }
          else { toutAt s i with next := nx, cfg := if (toutAt s i).cfg.mode = 1 then { (toutAt s i).cfg with mode := 0 } else (toutAt s i).cfg })) ∧
  (∀ (i : Nat) (s : State), i < 4 → (toutAt s i).waiting = none → ∃ t, exec (.tideOutPulseEnd i) s = .next t ∧
      others toutAt i s t ∧ toutAt t i = (if (toutAt s i).pulse then
        { toutAt s i with pulse := false, cfg := if (toutAt s i).cfg.mode = 1 then { (toutAt s i).cfg with mode := 0 } else (toutAt s i).cfg }
      else toutAt s i)) ∧
  (∀ (i width : Nat) (rising : Bool) (s : State), i < 2 → s.pwr.keeper = true → railOk s 3 = true → (∀ n, (tinAt s i).lastCtr = some n → n + 100 ≤ s.tide.counter) → ∃ t, exec (.tideInCapture i rising width) s = .next t ∧
      others tinAt i s t ∧
      (((tinAt s i).edge = 2 ∨ (tinAt s i).edge = if rising then 0 else 1) ∧ (tinAt s i).glitch ≤ width →
        (tinAt t i).lastCtr = some s.tide.counter ∧
        (tinAt t i).fifo = (if (tinAt s i).fifo.length < 16 then
          (tinAt s i).fifo ++ [{ sec := s.tide.sec, ns := s.tide.ns, edge := if rising then 1 else 2, ctr := s.tide.counter }]
        else (tinAt s i).fifo) ∧
        (tinAt t i).overflow = (if 16 ≤ (tinAt s i).fifo.length then ((tinAt s i).overflow + 1) % 2 ^ 32 else (tinAt s i).overflow)) ∧
      (¬ (((tinAt s i).edge = 2 ∨ (tinAt s i).edge = if rising then 0 else 1) ∧ (tinAt s i).glitch ≤ width) → t = s))

/-- O18. A Sync for a servo that takes no gPTP samples changes nothing. In LOCKED an offset above four times the
unlock threshold, as one of the first two in a row, counts as a spike and leaves the rate; an offset within the
unlock threshold updates the integral part, gives the clock the rate of R77 clamped to 200 ppm, clears the
counts of spikes and of bad samples and stays LOCKED. SYNC_RECEIPT_TIMEOUT in LOCKED or ACQUIRING gives HOLDOVER
at the rate base less the integral part, a detection of 0x057, and in any other state nothing; HOLDOVER_LIMIT
gives FREE_RUN in HOLDOVER and keeps the rate; an Announce taken from a slave port with a changed grandmaster
sends a servo that gPTP disciplines and that is not in FREE_RUN to HOLDOVER. -/
def Obligations.ClockServo : Prop :=
  (∀ (i : Nat) (e : Int) (tau : Nat) (nrr : Int) (s : State), i ≤ 8 → ∃ t, exec (.syncReceived i e tau nrr) s = .next t ∧
      (servoTakes s i 0 = false → t = s) ∧
      (servoTakes s i 0 = true → (servoAt s i).state = .locked →
        (4 * s.tide.unlockThr < e.natAbs → (servoAt s i).spikes < 2 →
          servoAt t i = { servoAt s i with lastE := e, lastAt := s.tide.counter, spikes := (servoAt s i).spikes + 1 } ∧
          t.tide.rate = s.tide.rate ∧ (∀ d, domAt t d = domAt s d)) ∧
        (e.natAbs ≤ s.tide.unlockThr →
          servoAt t i = { servoAt s i with lastE := e, lastAt := s.tide.counter, spikes := 0, bad := 0, integ := ((servoAt s i).integ + (s.tide.ki : Int) * e * ((2 ^ 32 : Nat) : Int) / (tau : Int)) } ∧
          (if i = 0 then t.tide.rate else (domAt t i).rate) = clampI (-ppm200) ppm200 ((servoAt s i).rBase - ((s.tide.kp : Int) * e * ((2 ^ 32 : Nat) : Int) / (tau : Int) + ((servoAt s i).integ + (s.tide.ki : Int) * e * ((2 ^ 32 : Nat) : Int) / (tau : Int))))))) ∧
  (∀ (i : Nat) (s : State), i ≤ 8 → ∃ t, exec (.syncReceiptTimeout i) s = .next t ∧
      (if (servoAt s i).state = .locked ∨ (servoAt s i).state = .acquiring then
        (servoAt t i).state = .holdover ∧ (if i = 0 then t.tide.rate else (domAt t i).rate) = (if i = 0 then clampI (-ppm200) ppm200 ((servoAt s i).rBase - (servoAt s i).integ) else clampI (-ppm1000) ppm1000 ((servoAt s i).rBase - (servoAt s i).integ)) ∧ detected 0x057 false s t
      else t = s)) ∧
  (∀ (i : Nat) (s : State), i ≤ 8 → ∃ t, exec (.holdoverLimit i) s = .next t ∧
      (if (servoAt s i).state = .holdover then (servoAt t i).state = .freeRun ∧ t.tide.rate = s.tide.rate ∧ (∀ d, domAt t d = domAt s d) else t = s)) ∧
  (∀ (i p gm : Nat) (vec : List Nat) (s : State), i ≤ 8 ∧ p < 16 → s.tide.extPorts = true → (gportAt s p).role = 2 → ∃ t, exec (.gptpAnnounceReceived i p gm vec) s = .next t ∧
      (servoAt t i).gm = gm ∧ (servoAt t i).gmPort = p ∧
      (servoAt t i).state = (if (servoAt s i).gm ≠ gm ∧ (servoAt s i).gm ≠ 0 ∧ servoTakes s i 0 = true ∧ (servoAt s i).state ≠ .freeRun then .holdover
        else (servoAt s i).state))

/-- O19. GPTP_SYNC_TRANSMIT of a domain that carries gPTP, of a master port that sends Syncs, while no port is a
slave and the device may be grandmaster, hands the Basin a Sync with the port's sequence number, preceded by an
Announce in the first of each second, and advances the number; PDELAY_REQ_TRANSMIT of a port other than S0-S3
with it enabled hands over a Pdelay_Req, advances the sequence and opens the exchange; a received Pdelay_Req is
answered with its time of arrival; a received Pdelay_Resp that belongs to the open request closes the exchange,
keeps the responder's and its own time, and gives the mean link delay, half the time not spent at the responder,
and with it the port's capability; FOLLOW_UP takes the oldest gPTP entry from the port's queue and sends its
time when it is of a Sync or a Pdelay_Resp. Otherwise nothing changes. -/
def Obligations.GptpMessages : Prop :=
  (∀ (p d : Nat) (s : State), p < 16 ∧ d ≤ 8 → ∃ t, exec (.gptpSyncTransmit p d) s = .next t ∧
      (∀ dom, gptpDomain s d = some dom → (gportAt s p).role = 1 → s.tide.priority1 ≠ 255 → (gportAt s p).logSync ≤ 0 → (List.range 12).all (fun q => decide ((gportAt s q).role ≠ 2)) = true →
        gportAt t p = { gportAt s p with syncSeq := ((gportAt s p).syncSeq + 1) % 2 ^ 16 } ∧ others gportAt p s t ∧
        ((gportAt s p).syncSeq % 2 ^ (gportAt s p).logSync.natAbs ≠ 0 → t.net = { s.net with toBasin := s.net.toBasin ++ [{ f := { gptpFrame 0 (gportAt s p).syncSeq dom 0 0 (gportAt s p).logSync with src := (portAt s p).station }, ing := 12, arr := workNs s, direct := some p, fid := s.net.nextFid }], nextFid := s.net.nextFid + 1 }) ∧
        ((gportAt s p).syncSeq % 2 ^ (gportAt s p).logSync.natAbs = 0 → t.net.nextFid = s.net.nextFid + 2 ∧ ∃ x y, t.net.toBasin = s.net.toBasin ++ [x, y] ∧
          x.f = { announceFrame s p dom with src := (portAt s p).station } ∧ y.f = { gptpFrame 0 (gportAt s p).syncSeq dom 0 0 (gportAt s p).logSync with src := (portAt s p).station } ∧ x.direct = some p ∧ y.direct = some p)) ∧
      (gptpDomain s d = none ∨ (gportAt s p).role ≠ 1 ∨ s.tide.priority1 = 255 ∨ 0 < (gportAt s p).logSync ∨ (List.range 12).any (fun q => decide ((gportAt s q).role = 2)) = true → t = s)) ∧
  (∀ (p : Nat) (s : State), p < 16 → ∃ t, exec (.pdelayReqTransmit p) s = .next t ∧
      (if s.pwr.keeper = true ∧ (gportAt s p).pdelayOn = true ∧ (gportAt s p).logPdelay ≤ 3 ∧ ¬ (8 ≤ p ∧ p ≤ 11) then
        t.net = { s.net with toBasin := s.net.toBasin ++ [{ f := { gptpFrame 2 (gportAt s p).pdelaySeq 0 0 0 (gportAt s p).logPdelay with src := (portAt s p).station }, ing := 12, arr := workNs s, direct := some p, fid := s.net.nextFid }], nextFid := s.net.nextFid + 1 } ∧
        gportAt t p = { gportAt s p with pdelaySeq := ((gportAt s p).pdelaySeq + 1) % 2 ^ 16, pdelayOpen := true } ∧ others gportAt p s t
      else t = s)) ∧
  (∀ (p : Nat) (isReq : Bool) (seq t1 t2 t3 t4 : Nat) (s : State), p < 16 → s.pwr.keeper = true → ∃ t, exec (.pdelayMessageReceived p isReq seq t1 t2 t3 t4) s = .next t ∧
      (isReq = true → t.net = { s.net with toBasin := s.net.toBasin ++ [{ f := { gptpFrame 3 seq 0 0 t2 with src := (portAt s p).station }, ing := 12, arr := workNs s, direct := some p, fid := s.net.nextFid }], nextFid := s.net.nextFid + 1 } ∧ t.tide = s.tide) ∧
      (isReq = false → ((gportAt s p).pdelayOpen = true ∧ (seq + 1) % 2 ^ 16 = (gportAt s p).pdelaySeq) →
        (gportAt t p).pdelayOpen = false ∧ (gportAt t p).lastT3 = t3 ∧ (gportAt t p).lastT4 = t4 ∧
        ((gportAt s p).delayManaged = false → (gportAt t p).delay = ((((t4 : Int) - (t1 : Int)) - ((t3 : Int) - (t2 : Int))) / 2).toNat) ∧
        (gportAt t p).asCapable = decide ((gportAt t p).delay ≤ (gportAt s p).thresh) ∧ others gportAt p s t) ∧
      (isReq = false → ¬ ((gportAt s p).pdelayOpen = true ∧ (seq + 1) % 2 ^ 16 = (gportAt s p).pdelaySeq) → t = s)) ∧
  (∀ (p : Nat) (s : State), p < 16 → ∃ t, exec (.followUp p) s = .next t ∧
      (∀ e, (tsqAt s p).queue.find? (fun e => decide (e.owner = 0xFFFF)) = some e →
        tsqAt t p = { tsqAt s p with queue := (tsqAt s p).queue.erase e } ∧ others tsqAt p s t ∧ (e.msgType ≠ 0 → e.msgType ≠ 3 → t.net = s.net) ∧
        (e.msgType = 0 ∨ e.msgType = 3 → t.net = { s.net with toBasin := s.net.toBasin ++ [{ f := { gptpFrame (if e.msgType = 0 then 8 else 10) e.seqId e.domain 0 (e.sec * nsPerSec + e.ns) (if e.msgType = 0 then (gportAt s p).logSync else 127) with src := (portAt s p).station }, ing := 12, arr := workNs s, direct := some p, fid := s.net.nextFid }], nextFid := s.net.nextFid + 1 })) ∧
      ((∀ e ∈ (tsqAt s p).queue, e.owner ≠ 0xFFFF) → t = s))

/-- O20. While the keeper domain is powered: ADC_REFERENCE_FAILURE of a converter of group g whose reference was out
of limits in two cycles keeps the error; the converter in service is replaced by the spare when the spare is
good and unused and else the group is failed; a failing spare that is not in service is marked bad.
ADC_CROSS_CHECK_FAILURE of the channel whose readings disagreed while the check runs makes channel i use the
substitute and is a detection of 0x011. MODEL_STATE_STORE writes the node temperatures to the next of eight
copies when a store is due and else changes nothing. LID_SENSOR_MISMATCH after eight cycles of disagreement is
reported once, a detection of 0x00B. HOST_AMBIENT_STALE marks the bundle, and no other bundle changes.
FALLBACK_TRIP turns the gate of a channel under fallback whose integrator has reached K off with cause 7 and of
no other. -/
def Obligations.DigitisersAndSensors : Prop :=
  (∀ (g err : Nat) (spare : Bool) (s : State), g < 5 → s.pwr.keeper = true → ∃ t, exec (.adcReferenceFailure g spare err) s = .next t ∧
      ((if spare then (adcAt s g).refBadS else (adcAt s g).refBad) < 2 → t = s) ∧ (2 ≤ (if spare then (adcAt s g).refBadS else (adcAt s g).refBad) → (adcAt t g).err = err ∧
      (adcAt t g).swapped = ((adcAt s g).swapped || (!spare && !(adcAt s g).spareBad)) ∧
      (adcAt t g).failed = ((adcAt s g).failed || (decide (spare = (adcAt s g).swapped) && ((adcAt s g).swapped || (adcAt s g).spareBad))) ∧
      (adcAt t g).spareBad = ((adcAt s g).spareBad || (spare && !(adcAt s g).swapped)) ∧ detected 0x010 false s t)) ∧
  (∀ (i : Nat) (s : State), i < 76 → s.pwr.keeper = true → ∃ t, exec (.adcCrossCheckFailure i) s = .next t ∧
      (if (adcAt s (adcOf i)).xcheck = true ∧ (wireAt s i).subst = false ∧ (adcAt s (adcOf i)).conf = some i then
        wireAt t i = { wireAt s i with subst := true } ∧ others wireAt i s t ∧ adcAt t (adcOf i) = { adcAt s (adcOf i) with conf := none } ∧ detected 0x011 false s t
      else t = s)) ∧
  (∀ (s : State), s.pwr.keeper = true → ∃ t, exec (.modelStateStore) s = .next t ∧
      (s.slu.storeDue = false → t = s) ∧
      (s.slu.storeDue = true → t.slu.storeDue = false ∧ t.slu.copySeq = s.slu.copySeq + 1 ∧
        (tget nodeCopy0 t.slu.copies ((s.slu.copySeq + 1) % 8)).seq = s.slu.copySeq + 1 ∧
        (tget nodeCopy0 t.slu.copies ((s.slu.copySeq + 1) % 8)).tc = (List.range 76).map (fun i => (wireAt s i).tc) ∧
        (tget nodeCopy0 t.slu.copies ((s.slu.copySeq + 1) % 8)).ti = (List.range 76).map (fun i => (wireAt s i).ti) ∧
        (tget nodeCopy0 t.slu.copies ((s.slu.copySeq + 1) % 8)).tb = (List.range 76).map (fun i => (wireAt s i).tb) ∧
        (tget nodeCopy0 t.slu.copies ((s.slu.copySeq + 1) % 8)).tbs = (List.range 32).map (fun b => (bundleAt s b).tb))) ∧
  (∀ (s : State), s.pwr.keeper = true → ∃ t, exec (.lidSensorMismatch) s = .next t ∧
      (s.slu.lidRep = true ∨ s.slu.lidBad < 8 → t = s) ∧ (s.slu.lidRep = false → 8 ≤ s.slu.lidBad → t.slu = { s.slu with lidRep := true } ∧ detected 0x00B true s t)) ∧
  (∀ (b : Nat) (s : State), b < 32 → s.pwr.keeper = true → ∃ t, exec (.hostAmbientStale b) s = .next t ∧
      bundleAt t b = { bundleAt s b with stale := true } ∧ others bundleAt b s t) ∧
  (∀ (i e : Nat) (cur : Int) (s : State), i < 76 → s.pwr.keeper = true → ∃ t, exec (.fallbackTrip i e cur) s = .next t ∧
      chanAt t i = (if underFallback s i = true ∧ fbKu i ≤ (wireAt s i).integ ∧ (chanAt s i).gate = true then tripped i 7 e cur s else chanAt s i) ∧ t.slu = s.slu)

/-- O21. SLUICE_RESUME ends a silence and otherwise changes nothing. BUDGET_RESTORE in a silence, or with a sum
above the margin or a channel of the budget already offered, offers no channel; else the shed channel of the
budget that is ready and comes first by priority is offered when the sum with its current stays within the
margin; BUDGET_FAIL in a silence, or while a candidate is left or the filtered sum is within L, changes nothing;
else it marks the budget reported and is, when it was not, a detection of 0x014. -/
def Obligations.SilenceAndBudgets : Prop :=
  (∀ (s : State), ∃ t, exec (.sluiceResume) s = .next t ∧
      t.slu.silent = false ∧ (s.slu.silent = false → t = s)) ∧
  (∀ (b : Nat) (s : State), b < 4 → ∃ t, exec (.budgetRestore b) s = .next t ∧
      (s.slu.silent = true ∨ s.pwr.keeper = false → t = s) ∧
      (s.slu.silent = false → s.pwr.keeper = true →
       (budgetL s b (100 - (budgetAt s b).margin) < (budgetAt s b).sum ∨ budgetL s b (100 - (budgetAt s b).margin) < (budgetAt s b).filt →
        budgetAt t b = { budgetAt s b with holdDone := false } ∧ t.pow = s.pow) ∧
       (((List.range 76).filter (shedHeld s b)).any (fun i => (chanAt s i).offer) = true → t.pow = s.pow) ∧
       (∀ i r, (budgetAt s b).sum ≤ budgetL s b (100 - (budgetAt s b).margin) → (budgetAt s b).filt ≤ budgetL s b (100 - (budgetAt s b).margin) →
        ((List.range 76).filter (shedHeld s b)).any (fun i => (chanAt s i).offer) = false →
        sortBy (prioDown s) (((List.range 76).filter (shedHeld s b)).filter (ready s)) = i :: r →
        (budgetAt s b).sum + ((chanAt s i).shedCur : Int) ≤ budgetL s b (100 - (budgetAt s b).margin) →
        chanAt t i = (if (chanAt s i).state = .shed then { chanAt s i with offer := true } else { chanAt s i with shedBy := 0 }) ∧ others chanAt i s t))) ∧
  (∀ (b : Nat) (s : State), b < 4 → ∃ t, exec (.budgetFail b) s = .next t ∧
      (if (budgetAt s b).allShed = true ∧ budgetL s b 100 < (budgetAt s b).filt ∧ s.slu.silent = false then
        budgetAt t b = { budgetAt s b with reported := true } ∧ ((budgetAt s b).reported = false → detected 0x014 true s t)
      else t = s))

/-- O22. For a bridge b below 6 each command answers a next state: REVERSAL_BRAKE_END makes a brake between two
directions ready for the new one and leaves any other sequence; REGULATION_CHOP opens an off-phase (its shortest
and its full end) only of a paired bridge that regulates while it drives and whose blanking is over;
RIPPLE_CROSSING and RIPPLE_INSERTION change nothing of a bridge that does not count or, for the crossing, of an
excursion or interval that is refused, and else count one ripple; BACK_EMF_STOP, while the motor coasts, stops
the counting, forgets the intervals and sets the speed to 0; STALL with the conditions of R184 met sets STALLED
and is a detection of 0x00F, and else changes nothing; PINCH_BRAKE_END outside a pinch brake and BRAKE_HOLD_END
outside a hold change nothing, inside one they go on to the reversal and to COAST. No other bridge's motion
state changes. -/
def Obligations.MotionOfABridge : Prop :=
  (∀ (b : Nat) (s : State), b < 6 → ∃ t, exec (.reversalBrakeEnd b) s = .next t ∧
      (∀ n, (brDynAt s b).seq = .dirBrake n → (brDynAt t b).seq = .dirReady n) ∧ ((∀ n, (brDynAt s b).seq ≠ .dirBrake n) → (brDynAt t b).seq = (brDynAt s b).seq) ∧ others brDynAt b s t ∧ t.pow = s.pow) ∧
  (∀ (b : Nat) (s : State), b < 6 → ∃ t, exec (.regulationChop b) s = .next t ∧
      (if (brAt s b).iReg ≠ 0 ∧ paired s b = true ∧ (effDrive s b = 1 ∨ effDrive s b = 2) ∧ blanked s b = true then
        brDynAt t b = { brDynAt s b with chopMin := s.tide.counter + padMin s (64 + (brAt s b).hbA), chopEnd := max (s.tide.counter + padMin s (64 + (brAt s b).hbA)) (s.tide.counter + toPeriod s (64 + (brAt s b).hbA)) } ∧ brAt t b = { brAt s b with regAct := true } ∧ others brDynAt b s t ∧ others brAt b s t
      else t = s)) ∧
  (∀ (b iv exc mean : Nat) (cur : Int) (s : State), b < 6 → ∃ t, exec (.rippleCrossing b iv cur exc mean) s = .next t ∧
      (((brAt s b).rippleEn && paired s b && (brDynAt s b).counting) = false ∨ excursionOk s b exc mean = false ∨ gateOk (brParAt s b) (brDynAt s b) iv = false → t = s)) ∧
  (∀ (b iv exc mean : Nat) (cur : Int) (s : State), b < 6 → (brAt s b).rippleEn = true ∧ paired s b = true ∧ (brDynAt s b).counting = true → excursionOk s b exc mean = true → gateOk (brParAt s b) (brDynAt s b) iv = true → (brAt s b).pinchEn = false → (brDynAt s b).seq = .none → ∃ t, exec (.rippleCrossing b iv cur exc mean) s = .next t ∧
      (brDynAt t b).ivals = (iv :: (brDynAt s b).ivals).take 4 ∧ (brDynAt t b).accepted = min 4 ((brDynAt s b).accepted + 1) ∧ (brAt t b).inserted = 0 ∧
        (brAt t b).pos = toS 32 (ofS 32 ((brAt s b).pos + motion s b)) ∧ others brDynAt b s t ∧ others brAt b s t) ∧
  (∀ (b : Nat) (cur : Int) (s : State), b < 6 → ∃ t, exec (.rippleInsertion b cur) s = .next t ∧
      (((brAt s b).rippleEn && paired s b && (brDynAt s b).counting) = false ∨ (brDynAt s b).accepted < 4 → t = s)) ∧
  (∀ (b : Nat) (cur : Int) (s : State), b < 6 → (brAt s b).rippleEn = true ∧ paired s b = true ∧ (brDynAt s b).counting = true → 4 ≤ (brDynAt s b).accepted → (brAt s b).inserted < 3 → (brAt s b).pinchEn = false → (brDynAt s b).seq = .none → ∃ t, exec (.rippleInsertion b cur) s = .next t ∧
      (brAt t b).inserted = (brAt s b).inserted + 1 ∧ (brAt t b).pos = toS 32 (ofS 32 ((brAt s b).pos + motion s b)) ∧ (brDynAt t b).ivals = (brDynAt s b).ivals ∧ (brDynAt t b).accepted = (brDynAt s b).accepted ∧ others brDynAt b s t ∧ others brAt b s t) ∧
  (∀ (b : Nat) (s : State), b < 6 → ((brAt s b).rippleEn && paired s b) = true → effDrive s b = 0 ∨ ((effDrive s b = 1 ∨ effDrive s b = 2) ∧ decayOf s b = 2) → ∃ t, exec (.backEmfStop b) s = .next t ∧
      brDynAt t b = { brDynAt s b with counting := false, accepted := 0, ivals := [] } ∧ brAt t b = { brAt s b with speed := 0 } ∧ others brDynAt b s t ∧ others brAt b s t) ∧
  (∀ (b : Nat) (s : State), b < 6 → ((brAt s b).rippleEn && paired s b) = false ∨ (effDrive s b ≠ 0 ∧ ((effDrive s b ≠ 1 ∧ effDrive s b ≠ 2) ∨ decayOf s b ≠ 2)) → ∃ t, exec (.backEmfStop b) s = .next t ∧
      t = s) ∧
  (∀ (b : Nat) (cur : Int) (s : State), b < 6 → ∃ t, exec (.stall b cur) s = .next t ∧
      (if (effDrive s b = 1 ∨ effDrive s b = 2) ∧ (brAt s b).rippleEn = true ∧ (brAt s b).speed.natAbs < 16 * (brParAt s b).stallSp ∧
          (if (brAt s b).iReg = 0 then 2000000 else ((brAt s b).iReg : Int) * 125000) < cur then
        (brAt t b).stalled = true ∧ detected 0x00F false s t
      else t = s)) ∧
  (∀ (b : Nat) (s : State), b < 6 → ∃ t, exec (.pinchBrakeEnd b) s = .next t ∧
      ((brDynAt s b).seq ≠ .pinchBrake → t = s) ∧ ((brDynAt s b).seq = .pinchBrake → (brDynAt t b).seq = .reversing ∧ others brDynAt b s t)) ∧
  (∀ (b : Nat) (cur : Int) (s : State), b < 6 → ∃ t, exec (.brakeHoldEnd b cur) s = .next t ∧
      ((brDynAt s b).seq ≠ .stallHold ∧ (brDynAt s b).seq ≠ .revHold → t = s) ∧ ((brDynAt s b).seq = .stallHold ∨ (brDynAt s b).seq = .revHold → (brDynAt t b).seq = .none ∧ ((brDynAt s b).seq = .revHold → (brAt t b).drive = 0)))

/-- O23. CLS_HOLD_ENTER holds the classification and discards the pending candidates; CLS_HOLD_EXIT ends the hold
from now on. With the keeper domain supplied FO_THERMAL_SHUTDOWN turns an output off and marks it;
FO_THERMAL_RESTART ends that and the output follows what it should drive; FO_LIMIT_HELD holds the condition of
the bank bit. SILENCE_EXPIRY of an armed output that is not silent makes it silent, drives it to its safe value
and is a detection of 0x040, and of any other changes nothing. SUP_LIMIT, SUP_SHORT_BAT and SUP_THERMAL turn off
a supply that is on, count the retry, latch it off at the sixth and are a detection of 0x044; a supply that is
off stays as it was. SUP_RETRY ends the wait and turns a waiting supply that is enabled and has not latched on
again; SUP_CLEAN clears the retries of a supply that is on. No other unit changes. -/
def Obligations.FieldOutputsAndSupplies : Prop :=
  (∀ (s : State), ∃ t, exec (.clsHoldEnter) s = .next t ∧
      t.fio.clsHold = true ∧ (∀ i, i < 32 → diAt t i = { diAt s i with cand := 7, candN := 0 }) ∧ t.fio.ai = s.fio.ai) ∧
  (∀ (s : State), ∃ t, exec (.clsHoldExit) s = .next t ∧
      t.fio = { s.fio with clsHold := false, clsFrom := s.tide.counter }) ∧
  (∀ (k : Nat) (s : State), k < 16 → s.pwr.keeper = true → ∃ t, exec (.foThermalShutdown k) s = .next t ∧
      (foAt t k).out = false ∧ (foAt t k).thermal = true ∧ (foAt t k).cond = true ∧ others foAt k s t) ∧
  (∀ (k : Nat) (s : State), k < 16 → ∃ t, exec (.foThermalRestart k) s = .next t ∧
      (foAt t k).thermal = false ∧ (foAt t k).cond = false ∧ others foAt k s t ∧ ((foAt s k).silent = false → (foAt s k).faultOff = true → (foAt t k).out = false)) ∧
  (∀ (k : Nat) (s : State), k < 16 → s.pwr.keeper = true → ∃ t, exec (.foLimitHeld k) s = .next t ∧
      foAt t k = { foAt s k with cond := true } ∧ others foAt k s t) ∧
  (∀ (k : Nat) (s : State), k < 16 → ∃ t, exec (.silenceExpiry k) s = .next t ∧
      (if (foAt s k).armed = true ∧ (foAt s k).silent = false then
        (foAt t k).silent = true ∧ others foAt k s t ∧ detected 0x040 false s t ∧ ((foAt s k).safe = 0 → (foAt t k).out = false) else t = s)) ∧
  (∀ (j : Nat) (s : State), j < 4 → ∃ t, exec (.supLimit j) s = .next t ∧
      (if (supAt s j).on = true then (supAt t j).on = false ∧ (supAt t j).limit = true ∧ (supAt t j).retries = sat 8 ((supAt s j).retries + 1) ∧
        (supAt t j).latched = ((supAt s j).latched || decide (6 ≤ (supAt s j).retries + 1)) ∧ others supAt j s t ∧ detected 0x044 false s t else t = s)) ∧
  (∀ (j : Nat) (s : State), j < 4 → ∃ t, exec (.supShortBat j) s = .next t ∧
      (if (supAt s j).on = true then (supAt t j).on = false ∧ (supAt t j).short = true ∧ (supAt t j).retries = sat 8 ((supAt s j).retries + 1) ∧
        (supAt t j).latched = ((supAt s j).latched || decide (6 ≤ (supAt s j).retries + 1)) ∧ others supAt j s t ∧ detected 0x044 false s t else t = s)) ∧
  (∀ (j : Nat) (s : State), j < 4 → ∃ t, exec (.supThermal j) s = .next t ∧
      (if (supAt s j).on = true then (supAt t j).on = false ∧ (supAt t j).thermal = true ∧ (supAt t j).retries = sat 8 ((supAt s j).retries + 1) ∧
        (supAt t j).latched = ((supAt s j).latched || decide (6 ≤ (supAt s j).retries + 1)) ∧ others supAt j s t ∧ detected 0x044 false s t else t = s)) ∧
  (∀ (j : Nat) (s : State), j < 4 → ∃ t, exec (.supRetry j) s = .next t ∧
      supAt t j = { supAt s j with wait := false, on := (supAt s j).on || ((supAt s j).wait && supAllowed s (supAt s j)) } ∧ others supAt j s t) ∧
  (∀ (j : Nat) (s : State), j < 4 → ∃ t, exec (.supClean j) s = .next t ∧
      (if (supAt s j).on then supAt t j = { supAt s j with retries := 0 } ∧ others supAt j s t else t = s))

/-- O24. LIMP_SET makes LIMP_N low and, with the keeper domain supplied and the firmware running, sets cause 1 of
the Towpath; LIMP_CLEAR makes it high and clears that cause. TOWPATH_RC_STEP while the cycle timer runs or the
keeper domain is off changes nothing; else, while a cause is set, the Towpath governs from then on and has taken
one step more. TOWPATH_TABLE_READ takes the newer valid copy, or, without one, sets NO_TABLE with an empty
table. TOWPATH_TABLE_CHECK with no failing copy or no valid one before changes no byte of memory; a failing copy
is written over with the bytes of the valid one and is a detection of 0x045, and when both fail NO_TABLE is set. -/
def Obligations.TowpathCausesAndTable : Prop :=
  (∀ (s : State), ∃ t, exec (.limpSet) s = .next t ∧
      t.sys.limpN = false ∧ t.tp.causes = (if s.pwr.keeper && s.fv.fw then s.tp.causes ||| 2 else s.tp.causes)) ∧
  (∀ (s : State), ∃ t, exec (.limpClear) s = .next t ∧
      t.sys.limpN = true ∧ t.tp.causes = (if s.pwr.keeper ∧ bitOf 1 s.tp.causes then s.tp.causes - 2 else s.tp.causes)) ∧
  (∀ (x : Samples) (s : State), ∃ t, exec (.towpathRcStep x) s = .next t ∧
      (s.pwr.keeper = false ∨ s.cyc.running = true → t = s) ∧ (s.pwr.keeper = true → s.cyc.running = false → s.tp.causes ≠ 0 →
        t.tp.governs = true ∧ t.tp.rcSteps = s.tp.rcSteps + 1 ∧ t.tp.causes = s.tp.causes ∧ t.cyc = s.cyc)) ∧
  (∀ (s : State), s.pwr.keeper = true → ∃ t, exec (.towpathTableRead) s = .next t ∧
      (newerCopy s = none → t.tp = { s.tp with noTable := true, table := {}, adopt := false }) ∧
      (∀ k, newerCopy s = some k → t.tp = { s.tp with copy := k, noTable := false, table := copyTable s k, adopt := false })) ∧
  (∀ (badA badB : Bool) (s : State), ∃ t, exec (.towpathTableCheck badA badB) s = .next t ∧
      (badA = false → badB = false → t.tp = s.tp ∧ t.mem = s.mem ∧ t.saf = s.saf) ∧ (newerCopy s = none → t.mem = s.mem ∧ t.saf = s.saf) ∧
      (newerCopy s ≠ none → badA = true → badB = true → t.tp.noTable = true ∧ t.tp.table = {} ∧ t.mem = s.mem ∧ detected 0x045 false s t) ∧
      (badA = true → badB = false → copyOk s 1 = true → t.mem = memWriteBytes (tpBase 0) (memBytes s.mem (tpBase 1) 0x8000) s.mem ∧ t.tp.badA = false ∧ detected 0x045 false s t) ∧
      (badA = false → badB = true → copyOk s 0 = true → t.mem = memWriteBytes (tpBase 1) (memBytes s.mem (tpBase 0) 0x8000) s.mem ∧ t.tp.badB = false ∧ detected 0x045 false s t))

/-- O25. A frame that the channel cannot receive (its mode, its error state, its format, no 5 V rail) changes
nothing; in NORMAL with clean counters and room left a frame that an accepting filter element matches first
enters the Aqueduct once, at the end, with the element's route and the channel's sequence number, which
advances. A chance to send changes nothing of a channel that may not send or is sending; a frame alone in slot 0
goes on the bus. A sent frame leaves the bus and takes one from TEC; a lost arbitration leaves the bus; an error
in OFF or bus-off changes nothing, and one of a transmitter that counts adds 8 to TEC, held at 256. At its
deadline no late frame stays in the queue. -/
def Obligations.CanTrafficOfAChannel : Prop :=
  (∀ (c sec ns : Nat) (f : CanFrame) (spare : Option (CanFrame × Int)) (s : State), c < 12 → ∃ t, exec (.canFrameReceived c f sec ns spare) s = .next t ∧
      (¬((canAt s c).live = 1 ∨ (canAt s c).live = 2 ∨ (canAt s c).live = 3) ∨ 2 ≤ (canAt s c).err ∨ fmtEnabled (canAt s c).cfg f = false ∨ s.can.rail5 = false → t = s) ∧
      (spare.any (spareDiffers (canAt s c).cfg f) = false → ((canAt s c).live = 1 ∧ (canAt s c).err = 0 ∧ (canAt s c).recv = 0 ∧ (canAt s c).tec < 128) → fmtEnabled (canAt s c).cfg f = true → s.can.rail5 = true →
        rxCellsUsed s c + cellsOf f.data.length ≤ (canAt s c).cfg.rxCells → ∀ i, firstMatch s (canAt s c) f = some i → (filterAt s i).reject = false →
        t.aq.inq = s.aq.inq ++ [{ frame := f, chan := c, kind := 0, tow := s.sys.tow, route := (filterAt s i).route, filter := i, sec := sec, ns := ns, seq := (canAt s c).seq }] ∧
        (canAt t c).seq = ((canAt s c).seq + 1) % 2 ^ 16)) ∧
  (∀ (c loopDelay : Nat) (fromIdle : Bool) (s : State), c < 12 → ∃ t, exec (.canTransmitOpportunity c fromIdle loopDelay) s = .next t ∧
      (((canAt s c).live ≠ 4 ∧ ¬((canAt s c).live = 1 ∧ (canAt s c).integ = true ∧ s.can.rail5 = true)) ∨ 2 ≤ (canAt s c).err ∨ (canAt s c).onBus ≠ none → t = s) ∧
      ((canAt s c).live = 4 → (canAt s c).err < 2 → (canAt s c).onBus = none → (canAt s c).stuck = false → (∃ f, (canAt s c).slot0 = some f) → (canAt s c).slot1 = none → (canAt s c).slot2 = none → (canAt s c).queue = [] →
        (canAt t c).onBus = some 0)) ∧
  (∀ (c sec ns : Nat) (s : State), c < 12 → ∃ t, exec (.canTxSuccess c sec ns) s = .next t ∧
      ((canAt s c).onBus = none → t = s) ∧
      (∀ k f, (canAt s c).onBus = some k → slotAt (canAt s c) k = some f → (canAt t c).onBus = none ∧ (canAt t c).tec = (canAt s c).tec - 1)) ∧
  (∀ (c : Nat) (s : State), c < 12 → ∃ t, exec (.canArbitrationLost c) s = .next t ∧
      ((canAt s c).onBus = none → t = s) ∧ ((canAt s c).onBus ≠ none → (canAt t c).onBus = none ∧ (canAt t c).tec = (canAt s c).tec)) ∧
  (∀ (c : Nat) (e : CanErr) (s : State), c < 12 → ∃ t, exec (.canError c e) s = .next t ∧
      ((canAt s c).live = 0 ∨ 2 ≤ (canAt s c).err → t = s) ∧
      ((canAt s c).live ≠ 0 → (canAt s c).live ≠ 2 → (canAt s c).err < 2 → e.tx = true → e.exempt = false → ¬(e.kind = 5 ∧ (canAt s c).cfg.pexEn = true) → ¬((canAt s c).cfg.sigOff = true ∧ e.xlData = true) →
        (canAt t c).tec = min 256 ((canAt s c).tec + 8))) ∧
  (∀ (c : Nat) (s : State), c < 12 → ∃ t, exec (.canTxDeadline c) s = .next t ∧
      ((canAt s c).cfg.txDeadline = 0 → t = s) ∧
      ((canAt s c).cfg.txDeadline ≠ 0 → ∀ f ∈ (canAt t c).queue, s.tide.counter < f.enq + (canAt s c).cfg.txDeadline * 1000000))

/-- O26. CAN_MODE_CHANGE of a channel that runs in its target mode or is sending changes nothing, else the channel
runs in its target mode. BUS_INTEGRATION marks a channel that runs in NORMAL, RESTRICTED or MONITOR and no
other. RECOVERY_REQUEST starts the recovery of a bus-off channel with automatic recovery that does not need a
command; RECOVERY_COMPLETE makes a recovering channel error-active with both counters 0 and integrated;
RECOVERY_WAIT_REPORT reports once; BOFF_RUN_RESET clears the run of an error-active channel. With the keeper
domain supplied the shadow period moves the spare on, or keeps it once after a mismatch; a self-test records its
result; CONTROLLER_SWAP moves a channel that waits for it to C12; CAN_DOMINANT_TIMEOUT releases the transmitter
and is a detection of 0x051. -/
def Obligations.CanControllerState : Prop :=
  (∀ (k : Nat) (s : State), k < 12 → ∃ t, exec (.canModeChange k) s = .next t ∧
      (if (canAt s k).live = canTarget s k ∨ (canAt s k).onBus ≠ none then t = s else (canAt t k).live = canTarget s k)) ∧
  (∀ (k : Nat) (s : State), k < 12 → ∃ t, exec (.busIntegration k) s = .next t ∧
      (if (canAt s k).live = 0 ∨ (canAt s k).live = 4 then t = s else canAt t k = { canAt s k with integ := true } ∧ others canAt k s t)) ∧
  (∀ (k : Nat) (s : State), k < 12 → ∃ t, exec (.recoveryRequest k) s = .next t ∧
      (if (canAt s k).err = 2 ∧ (canAt s k).cfg.boffAuto = true ∧ (canAt s k).boffManual = false then (canAt t k).err = 3 ∧ (canAt t k).boffRun = min 255 ((canAt s k).boffRun + 1) else t = s)) ∧
  (∀ (k : Nat) (s : State), k < 12 → ∃ t, exec (.recoveryComplete k) s = .next t ∧
      (if (canAt s k).err = 3 ∧ (canAt s k).live ≠ 0 then (canAt t k).err = 0 ∧ (canAt t k).tec = 0 ∧ (canAt t k).recv = 0 ∧ (canAt t k).integ = true else t = s)) ∧
  (∀ (k : Nat) (s : State), k < 12 → ∃ t, exec (.recoveryWaitReport k) s = .next t ∧
      (if (canAt s k).err = 3 ∧ (canAt s k).waitRep = false then canAt t k = { canAt s k with waitRep := true } ∧ others canAt k s t else t = s)) ∧
  (∀ (k : Nat) (s : State), k < 12 → ∃ t, exec (.boffRunReset k) s = .next t ∧
      (if (canAt s k).err = 0 then canAt t k = { canAt s k with boffRun := 0 } ∧ others canAt k s t else t = s)) ∧
  (∀ (s : State), ∃ t, exec (.spareShadowPeriodEnd) s = .next t ∧
      (if s.pwr.keeper = false ∨ s.saf.pond.canSpare ≠ 0 then t = s
        else if s.can.mism ≠ 0 ∧ s.can.again = false then t.can = { s.can with again := true }
        else t.can = { s.can with shadow := (s.can.shadow + 1) % 12, mism := 0, again := false })) ∧
  (∀ (pass : Bool) (s : State), s.pwr.keeper = true → ∃ t, exec (.spareSelfTest pass) s = .next t ∧
      (s.saf.pond.canSpare ≠ 0 → t = s) ∧
      (s.saf.pond.canSpare = 0 → pass = true → t.can = { s.can with passed := true, testCycle := s.cyc.number } ∧ t.saf = s.saf)) ∧
  (∀ (k : Nat) (s : State), k < 12 → ∃ t, exec (.controllerSwap k) s = .next t ∧
      (if (canAt s k).swap = 2 ∧ (canAt s k).onBus = none then canAt t k = { canAt s k with ctrl := 12, swap := 0 } ∧ others canAt k s t ∧ t.saf.pond.canSpare = 1 else t = s)) ∧
  (∀ (k : Nat) (s : State), k < 12 → s.pwr.keeper = true → ∃ t, exec (.canDominantTimeout k) s = .next t ∧
      canAt t k = { canAt s k with stuck := true } ∧ others canAt k s t ∧ detected 0x051 true s t)

/-- O27. LIN_SLOT_START without the transceivers only ends the pending slot; on a commander with a due slot whose
table entry is unconditional it sends that entry's identifier and drives the data and checksum of a frame it
publishes, and on any other channel changes nothing. LIN_RESPONSE_RECEIVED with no header open changes nothing;
a response to a subscribed frame with no error and the right checksum closes the header and enters the Aqueduct,
once, at the end. LIN_NO_RESPONSE closes the header and counts for a subscribed frame. LIN_HEADER_RECEIVED on a
responder that is awake takes a header at an admitted rate with good parity and makes it operational.
LIN_GO_TO_SLEEP_RECEIVED and LIN_BUS_IDLE mark every cluster of a responder's channel; LIN_WAKE_RETRY counts the
signals of a claimed channel that is waking; LIN_SCHEDULE_RESUME starts the table of a waking commander.
Otherwise nothing changes. -/
def Obligations.LinSlotsAndSleep : Prop :=
  (∀ (c : Nat) (s : State), c < 8 → ∃ t, exec (.linSlotStart c) s = .next t ∧
      (s.can.rail5 = false → linAt t c = { linAt s c with due := false } ∧ others linAt c s t) ∧
      (s.can.rail5 = true → (linAt s c).due = false ∨ (linAt s c).role ≠ 1 ∨ (linAt s c).state ≠ 1 → t = s) ∧
      (s.can.rail5 = true → (linAt s c).due = true → (linAt s c).role = 1 → (linAt s c).state = 1 → ∀ k, (linTable s c (linAt s c).table)[(linAt s c).entry]? = some k → (linSlotAt s (256 * c + k)).kind = 0 →
        linAt t c = { linAt s c with due := false, header := some (linSlotAt s (256 * c + k)).pid, event := false, out := linDrives c (linSlotAt s (256 * c + k)).pid s })) ∧
  (∀ (c err chk sec ns : Nat) (data : List Byte) (s : State), c < 8 → ∃ t, exec (.linResponseReceived c err data chk sec ns) s = .next t ∧
      (s.can.rail5 = true → (linAt s c).header = none → t = s) ∧
      (s.can.rail5 = true → ∀ id, (linAt s c).header = some id → (linAt s c).goSleep = false → err = 0 → (linFrameAt s (linEntry c id)).dir = 2 → chk = linChecksum (linFrameAt s (linEntry c id)).enhanced id (data.take (linFrameAt s (linEntry c id)).len) →
        (linAt t c).header = none ∧ (linAt t c).seq = ((linAt s c).seq + 1) % 2 ^ 16 ∧ (linFrameAt t (linEntry c id)).cycle = s.cyc.number ∧
        t.aq.inq = s.aq.inq ++ [{ frame := { id := id, dlc := (data.take (linFrameAt s (linEntry c id)).len).length, data := data.take (linFrameAt s (linEntry c id)).len }, chan := 0x40 + c, kind := 1, tow := s.sys.tow, route := (linFrameAt s (linEntry c id)).route, sec := sec, ns := ns, seq := (linAt s c).seq }])) ∧
  (∀ (c : Nat) (s : State), c < 8 → ∃ t, exec (.linNoResponse c) s = .next t ∧
      ((linAt s c).header = none → t = s) ∧ (∀ id, (linAt s c).header = some id → (linAt t c).header = none ∧
        (linFrameAt t (linEntry c id)).noResp = (if (linFrameAt s (linEntry c id)).dir = 2 then sat 16 ((linFrameAt s (linEntry c id)).noResp + 1) else (linFrameAt s (linEntry c id)).noResp))) ∧
  (∀ (c pid rate : Nat) (s : State), c < 8 → ∃ t, exec (.linHeaderReceived c pid rate) s = .next t ∧
      ((linAt s c).role ≠ 2 ∨ (linAt s c).state = 2 ∨ (linAt s c).state = 0 ∨ s.can.rail5 = false ∨ 115 * (linAt s c).rate < 100 * rate ∨ 100 * rate < 85 * (linAt s c).rate → t = s) ∧
      ((linAt s c).role = 2 → ((linAt s c).state = 1 ∨ (linAt s c).state = 3) → s.can.rail5 = true → 100 * rate ≤ 115 * (linAt s c).rate → 85 * (linAt s c).rate ≤ 100 * rate →
        (pidOk pid = false → linAt t c = linAt s c) ∧
        (pidOk pid = true → (linAt t c).state = 1 ∧ (linAt t c).rateSeen = rate ∧ ∀ k ∈ linClusters s c, (nmcAt t k).evPdu = true))) ∧
  (∀ (c : Nat) (s : State), c < 8 → ∃ t, exec (.linGoToSleepReceived c) s = .next t ∧
      ((linAt s c).role ≠ 2 ∨ (linAt s c).state = 2 ∨ s.can.rail5 = false → t = s) ∧
      ((linAt s c).role = 2 → (linAt s c).state ≠ 2 → s.can.rail5 = true → t.lin = s.lin ∧ ∀ k ∈ linClusters s c, (nmcAt t k).evSleep = true)) ∧
  (∀ (c : Nat) (s : State), c < 8 → ∃ t, exec (.linBusIdle c) s = .next t ∧
      ((linAt s c).role ≠ 2 ∨ (linAt s c).state = 2 → t = s) ∧
      ((linAt s c).role = 2 → (linAt s c).state ≠ 2 → t.lin = s.lin ∧ ∀ k ∈ linClusters s c, (nmcAt t k).evIdle = true)) ∧
  (∀ (c : Nat) (s : State), c < 8 → ∃ t, exec (.linWakeRetry c) s = .next t ∧
      (if (linAt s c).role = 2 ∧ (linAt s c).state = 3 ∧ linClaimed s c = true then
        (linAt t c).signals = (if (linAt s c).signals < 3 then (linAt s c).signals + 1 else 1) ∧ (linAt t c).wakeFail = ((linAt s c).wakeFail || decide (3 ≤ (linAt s c).signals)) ∧ others linAt c s t
      else t = s)) ∧
  (∀ (c : Nat) (s : State), c < 8 → ∃ t, exec (.linScheduleResume c) s = .next t ∧
      (if (linAt s c).role = 1 ∧ (linAt s c).state = 3 then (linAt t c).state = 1 ∧ (linAt t c).left = 0 ∧ others linAt c s t else t = s))

/-- O28. A wake detector that is not armed sees nothing; an armed pattern detector that sees its pattern, and an
armed LIN detector that sees the bus dominant for its filter time, are off afterwards and mark the wake for
every enabled cluster of the bus and for no other. NM_PDU_RECEIVED marks a PDU for an enabled cluster that is
not Moored and listens to the frame when the PDU has the format of R294, and else changes nothing;
REPEAT_TIME_END, NM_TIMEOUT and WAIT_TIME_END mark their end in Casting off, Underway and Mooring and nowhere
else; KEEP_WATCH writes a report of an Underway cluster that is not claimed and starts counting anew.
ISOLATION_TIMEOUT of a started zone with a running central pound isolates, once, and sets cause 5 of the Towpath
where configured; ISOLATED_HOLD_END ends the hold. The TC10 events answer an open request, a peer's request and
a wake-up; a timeout counts a rejection. -/
def Obligations.NetworkManagementEvents : Prop :=
  (∀ (k : Nat) (a b d e : Nat) (s : State), k < 12 → ∃ t, exec (.canWake k (.wup a b d e)) s = .next t ∧
      ((canWakeAt s k).armed = false → t = s) ∧
      ((canWakeAt s k).armed = true → (canWakeAt s k).live.kind = 0 → 250 * (canWakeAt s k).live.tFilter ≤ a → 250 * (canWakeAt s k).live.tFilter ≤ b → 250 * (canWakeAt s k).live.tFilter ≤ d → e ≤ 1000000 * (canWakeAt s k).live.tWup →
        ∀ j, j < 32 → nmcAt t j = (if (nmcAt s j).en = true ∧ (nmcAt s j).kind = 0 ∧ (nmcAt s j).bus = k then { nmcAt s j with evWake := true } else nmcAt s j))) ∧
  (∀ (k dom : Nat) (s : State), k < 8 → ∃ t, exec (.linWake k dom) s = .next t ∧
      (if (linAt s k).armed = true ∧ 10 * (linAt s k).wakeFilter ≤ dom then
        linAt t k = { linAt s k with armed := false } ∧ others linAt k s t ∧
        ∀ j, j < 32 → nmcAt t j = (if (nmcAt s j).en = true ∧ (nmcAt s j).kind = 1 ∧ (nmcAt s j).bus = k then { nmcAt s j with evWake := true } else nmcAt s j)
      else t = s)) ∧
  (∀ (k id : Nat) (ide : Bool) (b : List Byte) (s : State), k < 32 → ∃ t, exec (.nmPduReceived k id ide b) s = .next t ∧
      (if (nmcAt s k).en = true ∧ nmListens (nmcAt s k) id ide = true ∧ (nmcAt s k).state ≠ .moored ∧ b.length = 8 ∧ leAt b 0 1 = 1 ∧ leAt b 2 1 < 16 then
        nmcAt t k = { nmcAt s k with evPdu := (nmcAt s k).evPdu || !bitOf 1 (leAt b 2 1), evRepeatPdu := (nmcAt s k).evRepeatPdu || bitOf 1 (leAt b 2 1), seen := addSeen (leAt b 1 1) (leAt b 3 1) (nmcAt s k).seen } ∧ others nmcAt k s t
      else t = s)) ∧
  (∀ (k : Nat) (s : State), k < 32 → ∃ t, exec (.repeatTimeEnd k) s = .next t ∧
      (if (nmcAt s k).state = .castingOff then nmcAt t k = { nmcAt s k with evRepeatEnd := true } ∧ others nmcAt k s t else t = s)) ∧
  (∀ (k : Nat) (s : State), k < 32 → ∃ t, exec (.nmTimeout k) s = .next t ∧
      (if (nmcAt s k).state = .underway then nmcAt t k = { nmcAt s k with evTimeout := true } ∧ others nmcAt k s t else t = s)) ∧
  (∀ (k : Nat) (s : State), k < 32 → ∃ t, exec (.waitTimeEnd k) s = .next t ∧
      (if (nmcAt s k).state = .mooring then nmcAt t k = { nmcAt s k with evWait := true } ∧ others nmcAt k s t else t = s)) ∧
  (∀ (k : Nat) (s : State), k < 32 → ∃ t, exec (.keepWatch k) s = .next t ∧
      (if (nmcAt s k).state = .underway ∧ (nmcAt s k).kind ≠ 1 ∧ nmClaimed s k = false then
        nmcAt t k = { nmcAt s k with seen := [], repeaters := 0 } ∧ others nmcAt k s t ∧ t.nm.report.cluster = k ∧ t.nm.report.pounds = (nmcAt s k).repeaters ∧ t.nm.log = s.nm.log ++ [t.nm.report]
      else t = s)) ∧
  (∀ (s : State), ∃ t, exec (.isolationTimeout) s = .next t ∧
      (s.fv.started = false ∨ s.tp.isolated = true → t = s) ∧
      (s.fv.started = true → s.tp.isolated = false → (List.range 32).any (fun p => (poundAt s p).central && pThere s p) = true →
        t.tp.isolated = true ∧ t.nm.holdOn = decide (s.nm.isoHold ≠ 0) ∧ t.tp.causes = (if s.tp.isoTowpath then s.tp.causes ||| 32 else s.tp.causes))) ∧
  (∀ (s : State), ∃ t, exec (.isolatedHoldEnd) s = .next t ∧
      t.nm = { s.nm with holdOn := false }) ∧
  (∀ (k : Nat) (s : State), k < 8 → ∃ t, exec (.tc10SleepAck k) s = .next t ∧
      (if (t1At s k).asking = true then (t1At t k).asking = false ∧ (portAt t k).link = 2 else t = s)) ∧
  (∀ (k : Nat) (s : State), k < 8 → ∃ t, exec (.tc10AckTimeout k) s = .next t ∧
      (if (t1At s k).asking = true then t1At t k = { t1At s k with asking := false, rej := sat 16 ((t1At s k).rej + 1) } ∧ others t1At k s t ∧ t.net = s.net else t = s)) ∧
  (∀ (k : Nat) (s : State), k < 8 → ∃ t, exec (.tc10PeerSleepRequest k) s = .next t ∧
      ((t1At s k).en = false ∨ (t1At s k).accept = false ∨ (portAt s k).link ≠ 1 → t = s) ∧
      ((t1At s k).en = true → (t1At s k).accept = true → (portAt s k).link = 1 → (∀ j, j < 32 → (nmcAt s j).en = true → (nmcAt s j).kind = 2 → (nmcAt s j).bus = k → (nmcAt s j).state = .moored ∨ (nmcAt s j).state = .mooring) →
        (t1At t k).asking = false ∧ (portAt t k).link = 2)) ∧
  (∀ (k : Nat) (s : State), k < 8 → ∃ t, exec (.tc10Wake k) s = .next t ∧
      (if (t1At s k).en = true ∧ (portAt s k).link = 2 ∧ (s.pwr.slept = false ∨ bitOf 2 s.pwr.wakeMask = true) then
        ∀ j, j < 32 → nmcAt t j = (if (nmcAt s j).en = true ∧ (nmcAt s j).kind = 2 ∧ (nmcAt s j).bus = k then { nmcAt s j with evWake := true } else nmcAt s j)
      else t = s))

/-- O29. AVS_ACKNOWLEDGE without a change in progress changes nothing; else it keeps the voltage read, and only one
within 2 % of the target completes the change, which gives the level and the clock their new value.
AVS_ATTEMPT_TIMEOUT counts an attempt, and after the fourth ends the change as failed. TRANSITION_COMPLETE
without a transition, or of one to SLEEP, or while a change of level is in progress, changes nothing; else, when
nothing holds it back, the power state is the target's and to STANDBY VCORE goes off. SLEEP_ENTRY in the
transition to SLEEP, no claim holding it back, puts the device to sleep with the keeper domain off, and else
changes nothing. AUTO_SLEEP in ACTIVE, IDLE or STANDBY with it enabled, no wake reason and every cluster Moored
and unclaimed, for the hold time, stages POWER_ENTER of SLEEP; without auto_sleep nothing changes. -/
def Obligations.LevelsAndPowerStates : Prop :=
  (∀ (mv : Nat) (s : State), ∃ t, exec (.avsAcknowledge mv) s = .next t ∧
      (s.pwr.change = none → t = s) ∧ (∀ c, s.pwr.change = some c → t.pwr.vcoreMv = mv % 2 ^ 16 ∧
        (avsGood c mv = false → t.pwr = { s.pwr with vcoreMv := mv % 2 ^ 16 }) ∧
        (avsGood c mv = true → c.restore = false → t.pwr.change = none ∧ t.pwr.level = c.target ∧ t.pwr.clk = c.target))) ∧
  (∀ (s : State), ∃ t, exec (.avsAttemptTimeout) s = .next t ∧
      (s.pwr.change = none → t = s) ∧ (∀ c, s.pwr.change = some c →
        (c.attempts < 4 → t.pwr = { s.pwr with change := some { c with attempts := c.attempts + 1 } }) ∧
        (4 ≤ c.attempts → t.pwr.change = none ∧ t.pwr.avsFails = sat 32 (s.pwr.avsFails + 1)))) ∧
  (∀ (s : State), ∃ t, exec (.transitionComplete) s = .next t ∧
      (s.pwr.trans = none → t = s) ∧ (∀ r, s.pwr.trans = some r →
        (r.target = 3 ∨ s.pwr.change ≠ none → t = s) ∧
        (r.target < 3 → s.pwr.change = none → cutWaits s r = false → s.pwr.forced = false → t.pwr.trans = none ∧ t.pwr.state = r.target ∧ (r.target = 2 → t.pwr.vcoreEn = false)))) ∧
  (∀ (s : State), ∃ t, exec (.sleepEntry) s = .next t ∧
      (∀ r, s.pwr.trans = some r → r.target = 3 → cutWaits s r = false → s.pwr.state = 3 → t.pwr.slept = true ∧ t.pwr.pwrEn = false ∧ t.pwr.keeper = false ∧ t.pwr.sleptAt = s.pwr.age) ∧
      (s.pwr.trans = none ∨ s.pwr.state ≠ 3 → t = s)) ∧
  (∀ (s : State), ∃ t, exec (.autoSleep) s = .next t ∧
      (s.pwr.auto = false ∨ s.fv.started = false ∨ 3 ≤ s.pwr.state ∨ wakeReason s = true ∨ s.pwr.quietAt = none → t = s) ∧
      (∀ q, s.pwr.auto = true → s.fv.started = true → s.pwr.state < 3 → wakeReason s = false → (∀ k, k < 32 → (nmcAt s k).en = true → (nmcAt s k).state = .moored ∧ (nmcAt s k).claims = 0) →
        s.pwr.quietAt = some q → q + s.pwr.hold * 1000000 ≤ s.tide.counter →
        t.cyc.staged = s.cyc.staged ++ [{ due := if s.cyc.pastCutoff then 1 else 0, cls := 0x70, req := { pound := 0 }, op := .act 1 [3, 1], outside := true, reply := false }]))

/-- O30. In SLEEP an armed AWAKE input that rises above its threshold, the wake timer and LIMP_N each give the cause
of the next start, unless one is already there; within 200 us of the entry into SLEEP the source reads 10. Out
of SLEEP an AWAKE input keeps its voltage. DI_WAKE_POLL out of SLEEP or with the poll not enabled changes
nothing, and in SLEEP with no input armed changes nothing. HEARTBEAT of a started Lockkeeper is kept with its
time; HEARTBEAT_TIMEOUT with the keeper domain supplied and a second past marks it unresponsive and is a
detection of 0x01C. SLEEP_PATH, when due, puts an unresponsive device without a wake reason to sleep.
BOARDNET_LOSS with both groups below V_OFF, WAKE_DOMAIN_RESET and RESET_ASSERT take the keeper domain down: its
cycle timer, bridges and towline are at their reset values, and after the first and the third the marks of the
Towpath copies and, after the first, the node states stay. -/
def Obligations.WakeSourcesAndTheBoardnet : Prop :=
  (∀ (i v : Nat) (above : Bool) (s : State), i < 2 → ∃ t, exec (.awakeThreshold i v above) s = .next t ∧
      (above = true → v < awakeRise (awakeAt s i) → t = s) ∧ (above = false → awakeFall (awakeAt s i) < v → t = s) ∧
      ((above = true → awakeRise (awakeAt s i) ≤ v) → (above = false → v ≤ awakeFall (awakeAt s i)) →
        (awakeAt t i).above = above ∧ (s.pwr.slept = false → (awakeAt t i).vIn = v) ∧
        (s.pwr.slept = true → above = true → bitOf 4 s.pwr.wakeMask = true → (awakeAt s i).arm = true → t.pwr.cause = (if s.pwr.cause.isSome then s.pwr.cause else some (if s.pwr.age < s.pwr.sleptAt + 200000 then 10 else 7, i))))) ∧
  (∀ (s : State), ∃ t, exec (.wakeTimer) s = .next t ∧
      (s.pwr.slept = false ∨ bitOf 5 s.pwr.wakeMask = false ∨ s.pwr.timer = 0 ∨ s.pwr.age < s.pwr.sleptAt + s.pwr.timer * nsPerSec → t = s) ∧
      (s.pwr.slept = true → bitOf 5 s.pwr.wakeMask = true → s.pwr.timer ≠ 0 → s.pwr.sleptAt + s.pwr.timer * nsPerSec ≤ s.pwr.age → t.pwr.cause = (if s.pwr.cause.isSome then s.pwr.cause else some (if s.pwr.age < s.pwr.sleptAt + 200000 then 10 else 8, 0)))) ∧
  (∀ (s : State), ∃ t, exec (.limpWake) s = .next t ∧
      t.sys.limpN = false ∧ (s.pwr.slept = false → s.pwr.state ≠ 3 → t.pwr = s.pwr) ∧ (s.pwr.slept = true → t.pwr.cause = (if s.pwr.cause.isSome then s.pwr.cause else some (if s.pwr.age < s.pwr.sleptAt + 200000 then 10 else 9, 0)))) ∧
  (∀ (v : List Nat) (s : State), ∃ t, exec (.diWakePoll v) s = .next t ∧
      (s.pwr.slept = false ∨ bitOf 3 s.pwr.wakeMask = false → t = s) ∧ ((∀ k, k < 32 → (diAt s k).wakeEn = false) → t = s)) ∧
  (∀ (v : List Nat) (s : State), s.pwr.slept = true → bitOf 3 s.pwr.wakeMask = true → s.fio.wakeConf = 1 → s.pwr.cause = none → (diAt s 0).wakeEn = true → (diCompare (diAt s 0) (elemOr 0 v 0) != (diAt s 0).invert) ≠ (diAt s 0).wakeRef → (diAt s 0).wakeN = 0 → ∃ t, exec (.diWakePoll v) s = .next t ∧
      t.pwr.cause = some (if s.pwr.age < s.pwr.sleptAt + 200000 then 10 else 6, 0)) ∧
  (∀ (s : State), ∃ t, exec (.heartbeat) s = .next t ∧
      (if s.fv.started then t.pwr = { s.pwr with beat := true, beatAt := s.pwr.age } else t = s)) ∧
  (∀ (s : State), ∃ t, exec (.heartbeatTimeout) s = .next t ∧
      (if s.pwr.keeper = true ∧ (if s.pwr.beat then s.pwr.beatAt else s.pwr.deafAt) + nsPerSec ≤ s.pwr.age then t.pwr.beat = false ∧ detected 0x01C false s t else t = s)) ∧
  (∀ (s : State), ∃ t, exec (.sleepPath) s = .next t ∧
      (s.pwr.beat = true ∨ s.pwr.slept = true ∨ wakeReason s = true → t = s) ∧ (sleepPathDue s = true → t.pwr.slept = true ∧ t.pwr.pwrEn = false ∧ t.pwr.keeper = false ∧ t.pwr.sleepPath = true ∧ t.pwr.armed = true)) ∧
  (∀ (s : State), ∃ t, exec (.boardnetLoss) s = .next t ∧
      (¬((grpAt s 0).band = .belowOff ∧ (grpAt s 1).band = .belowOff) → t = s) ∧ ((grpAt s 0).band = .belowOff → (grpAt s 1).band = .belowOff →
        t.pwr.keeper = false ∧ t.pwr.pwrEn = false ∧ t.cyc = {} ∧ t.mot = {} ∧ t.tow = {} ∧ t.tp = { badA := s.tp.badA, badB := s.tp.badB } ∧ t.slu.copies = s.slu.copies)) ∧
  (∀ (s : State), ∃ t, exec (.wakeDomainReset) s = .next t ∧
      t.pwr = { startLevel := s.pwr.startLevel } ∧ t.fio = { clsHold := s.fio.clsHold } ∧ t.lin = {} ∧ t.nm = { log := s.nm.log } ∧ t.cyc = {} ∧ t.img.boot.triesA = 0 ∧ t.img.boot.triesB = 0) ∧
  (∀ (s : State), ∃ t, exec (.resetAssert) s = .next t ∧
      t.sys.rstN = false ∧ t.pwr.cause = some (1, 0) ∧ t.pwr.slept = false ∧ t.pwr.keeper = false ∧ t.cyc = {} ∧ t.mot = {} ∧ t.tow = {} ∧ t.tp = { badA := s.tp.badA, badB := s.tp.badB })

/-- O31. SAFE_STROBE with no cause that asks for the strobe, or before 700 us of the cycle, changes nothing, and
else the safe state is in force. SRAM_BANK_COPY_COMPLETE points the map at the spare and starts the bank that
waits first. THERMAL_EMERGENCY is a detection of 0x026 that removes VCORE, once; its clearing ends the
condition. VKEEP_MON takes the keeper domain down with 0x023 latched and active; VCORE_MON with VCORE on removes
it, a detection of 0x024; VIO_MON marks the rail, and V5 takes the transceivers' rail down; a recovery takes the
rail off the list, and V5 gives it back. Without the keeper domain, or of a rail not lost, nothing changes. -/
def Obligations.SuppliesTemperatureAndRails : Prop :=
  (∀ (s : State), ∃ t, exec (.safeStrobe) s = .next t ∧
      (s.saf.atStrobe = 0 ∨ s.tide.counter < s.saf.tD + 700000 → t = s) ∧ (s.saf.atStrobe ≠ 0 → s.saf.tD + 700000 ≤ s.tide.counter → t.saf.inForce = true ∧ t.saf.relPend = false ∧ (s.saf.inForce = false → t.saf.strobed = true ∧ t.saf.entryCycle = s.cyc.number ∧ t.saf.causes = s.saf.atStrobe ||| s.saf.atBoundary ∧ t.saf.atStrobe = 0))) ∧
  (∀ (s : State), ∃ t, exec (.sramBankCopyComplete) s = .next t ∧
      (s.saf.pond.sramCopy = none → t = s) ∧ (∀ b, s.saf.pond.sramCopy = some b → t.saf.pond.sramIn = b :: s.saf.pond.sramIn ∧ t.saf.pond.sramCopy = s.saf.pond.sramWait.head? ∧ t.saf.pond.sramWait = s.saf.pond.sramWait.tail)) ∧
  (∀ (s : State), ∃ t, exec (.thermalEmergency) s = .next t ∧
      (if s.pwr.keeper = true ∧ (detAt s 0x026).active = false then detected 0x026 true s t ∧ t.pwr.forced = true ∧ t.pwr.vcoreEn = false else t = s)) ∧
  (∀ (s : State), ∃ t, exec (.thermalEmergencyClear) s = .next t ∧
      ((detAt s 0x026).active = false → t = s) ∧ (detAt t 0x026).active = false) ∧
  (∀ (s : State), ∃ t, exec (.vkeepMon) s = .next t ∧
      (s.pwr.keeper = false → t = s) ∧ (s.pwr.keeper = true → t.pwr.keeper = false ∧ 0 ∈ t.pwr.rails ∧ (detAt t 0x023).latched = true ∧ (detAt t 0x023).active = true ∧ t.cyc = {})) ∧
  (∀ (s : State), ∃ t, exec (.vcoreMon) s = .next t ∧
      (s.pwr.vcoreEn = false → t = s) ∧ (s.pwr.vcoreEn = true → detected 0x024 true s t ∧ t.pwr.vmonAt = some s.pwr.age ∧ (vcoreAgain s = true → t.pwr.vcoreEn = false ∧ t.pwr.vcoreBar = true))) ∧
  (∀ (rail : Nat) (low : Bool) (s : State), 2 ≤ rail ∧ rail < 5 → ∃ t, exec (.vioMon rail low) s = .next t ∧
      (s.pwr.keeper = false → t = s) ∧ (s.pwr.keeper = true → rail ∈ t.pwr.rails ∧ (rail = 4 → t.can.rail5 = false) ∧ (rail = 3 → low = true → t.pwr.keeper = false) ∧ (rail ≠ 3 ∨ low = false → detected 0x025 true s t))) ∧
  (∀ (rail : Nat) (s : State), rail < 5 → ∃ t, exec (.supplyRailRecovery rail) s = .next t ∧
      (rail ∉ s.pwr.rails → t = s) ∧ (rail ∈ s.pwr.rails → t.pwr.rails = s.pwr.rails.erase rail ∧ (rail = 4 → t.can.rail5 = true)))

/-- O32. With the keeper domain supplied: CLOCK_MON takes the PLL from the keeper logic, sets cause 2 of the Towpath
and is a detection of 0x01B; BUS_TIMEOUT is one of 0x022, FAULT_N_READBACK of 0x027, SLUICE_SILENT, once and
only when no alive-word came for four cycles, and SLUICE_CODE of 0x012 and 0x013 with the Sluice silent from
then on, and WATCH_EXPIRY, when two windows passed unkicked or the cycle timer stands, of 0x018 with cause 2
set. EMRAM_ECC of an uncorrectable read is a detection of 0x01D; a condemned row not yet remapped is remapped
while spare rows are left, and one remapped already changes nothing. TABLE_ECC marks the entry of the named
table bad and is a detection of 0x053, a reload clears the mark; no other entry changes. TRNG_HEALTH withholds
the output, a detection of 0x062, until the tests pass. -/
def Obligations.MemoriesClocksAndTheSluice : Prop :=
  (∀ (s : State), ∃ t, exec (.clockMon) s = .next t ∧
      (if s.pwr.keeper then t.pwr.pll = false ∧ t.tp.causes = s.tp.causes ||| 4 ∧ detected 0x01B false s t else t = s)) ∧
  (∀ (s : State), ∃ t, exec (.busTimeout) s = .next t ∧
      (if s.pwr.keeper then detected 0x022 false s t ∧ t.pwr = s.pwr else t = s)) ∧
  (∀ (kind off : Nat) (s : State), ∃ t, exec (.emramEcc kind off) s = .next t ∧
      (kind = 0 → detected 0x01D false s t) ∧ (kind ≠ 0 → off / 512 ∈ s.saf.pond.rowIn → t = s) ∧
      (kind ≠ 0 → off / 512 ∉ s.saf.pond.rowIn → s.saf.pond.rows < 512 → t.saf.pond.rows = s.saf.pond.rows + 1 ∧ t.saf.pond.rowIn = off / 512 :: s.saf.pond.rowIn)) ∧
  (∀ (kind i : Nat) (reload : Bool) (s : State), (kind = 0 ∧ i < 4096) ∨ (kind = 1 ∧ i < 0x4000) ∨ (kind = 2 ∧ i < 0x2000) ∨ (kind = 3 ∧ 1 ≤ i ∧ i < 4095) → ∃ t, exec (.tableEcc kind i reload) s = .next t ∧
      (kind = 0 → filterAt t i = { filterAt s i with bad := !reload } ∧ others filterAt i s t) ∧
      (kind = 1 → routeAt t i = { routeAt s i with bad := !reload } ∧ others routeAt i s t) ∧ (kind = 2 → fdbAt t i = { fdbAt s i with bad := !reload } ∧ others fdbAt i s t) ∧
      (kind = 3 → vlanAt t i = { vlanAt s i with bad := !reload } ∧ others vlanAt i s t) ∧ (reload = false → detected 0x053 false s t)) ∧
  (∀ (s : State), ∃ t, exec (.faultNReadback) s = .next t ∧
      (if s.pwr.keeper then detected 0x027 false s t ∧ t.pwr = s.pwr else t = s)) ∧
  (∀ (s : State), ∃ t, exec (.sluiceSilent) s = .next t ∧
      (if (s.slu.silent || !s.pwr.keeper || (s.cyc.running && decide (s.slu.unalive < 4))) = true then t = s else t.slu.silent = true ∧ detected 0x012 false s t)) ∧
  (∀ (s : State), ∃ t, exec (.sluiceCode) s = .next t ∧
      (if s.pwr.keeper = true then t.slu.silent = true ∧ detected 0x013 false s t else t = s)) ∧
  (∀ (pass : Bool) (s : State), s.pwr.keeper = true → ∃ t, exec (.trngHealth pass) s = .next t ∧
      t.light = { s.light with freeze := !pass } ∧ (pass = false → detected 0x062 false s t)) ∧
  (∀ (s : State), ∃ t, exec (.watchExpiry) s = .next t ∧
      (if (s.pwr.keeper && (!s.cyc.running || decide (2 ≤ s.tp.unkicked))) = true then t.tp.causes = s.tp.causes ||| 4 ∧ detected 0x018 false s t else t = s))

/-- O33. For every request r that passes the checks of R396 (SetPasses): a SET of class CHAN, WIRE, PADDLE, BRIDGE,
DIN, FOUT, AIN, CAN, LIN, NM, ROUTE, BASIN or CORE, of part 1 of a POUND (its object list), of a talker or
listener of class PORT and of an entry of class SAFE answers a next state in which the fields it names wait in
the shadow state behind every other command, for the boundary that the cutoff and the fold capacity leave them;
beside the shadow state only the transports, the detectors, the Towpath's causes and the network management
change, which the acceptance of a message moves. Which SETs are immediate is the spec's; that a SET to a PORT's
talkers is cycle-bound is read from its chapter. -/
def Obligations.CycleBoundSettingsWaitInTheShadow : Prop :=
  (∀ (r : Req) (s : State), SetPasses chanClass r s → ∃ t, exec (.chanSet r) s = .next t ∧
      waits 0x10 r (.set (asked chanClass r s).part (asked chanClass r s).writes) s t) ∧
  (∀ (r : Req) (s : State), SetPasses padClass r s → ∃ t, exec (.paddleSet r) s = .next t ∧
      waits 0x12 r (.set (asked padClass r s).part (asked padClass r s).writes) s t) ∧
  (∀ (r : Req) (s : State), SetPasses brClass r s → ∃ t, exec (.bridgeSet r) s = .next t ∧
      waits 0x13 r (.set (asked brClass r s).part (asked brClass r s).writes) s t) ∧
  (∀ (r : Req) (s : State), SetPasses dinClass r s → ∃ t, exec (.dinSet r) s = .next t ∧
      waits 0x14 r (.set (asked dinClass r s).part (asked dinClass r s).writes) s t) ∧
  (∀ (r : Req) (s : State), SetPasses foutClass r s → ∃ t, exec (.foutSet r) s = .next t ∧
      waits 0x15 r (.set (asked foutClass r s).part (asked foutClass r s).writes) s t) ∧
  (∀ (r : Req) (s : State), SetPasses ainClass r s → ∃ t, exec (.ainSet r) s = .next t ∧
      waits 0x16 r (.set (asked ainClass r s).part (asked ainClass r s).writes) s t) ∧
  (∀ (r : Req) (s : State), SetPasses canClass r s → ∃ t, exec (.canSet r) s = .next t ∧
      waits 0x20 r (.set (asked canClass r s).part (asked canClass r s).writes) s t) ∧
  (∀ (r : Req) (s : State), SetPasses linClass r s → ∃ t, exec (.linSet r) s = .next t ∧
      waits 0x21 r (.set (asked linClass r s).part (asked linClass r s).writes) s t) ∧
  (∀ (r : Req) (s : State), SetPasses nmClass r s → ∃ t, exec (.nmSet r) s = .next t ∧
      waits 0x22 r (.set (asked nmClass r s).part (asked nmClass r s).writes) s t) ∧
  (∀ (r : Req) (s : State), SetPasses routeClass r s → ∃ t, exec (.routeSet r) s = .next t ∧
      waits 0x23 r (.set (asked routeClass r s).part (asked routeClass r s).writes) s t) ∧
  (∀ (r : Req) (s : State), SetPasses basinClass r s → ∃ t, exec (.basinSet r) s = .next t ∧
      waits 0x25 r (.set (asked basinClass r s).part (asked basinClass r s).writes) s t) ∧
  (∀ (r : Req) (s : State), SetPasses coreClass r s → ∃ t, exec (.coreSet r) s = .next t ∧
      waits 0x31 r (.set (asked coreClass r s).part (asked coreClass r s).writes) s t) ∧
  (∀ (r : Req) (s : State), SetPasses portClass r s → 0x200 ≤ r.inst ∧ r.inst < 0x280 → ∃ t, exec (.portSet r) s = .next t ∧
      waits 0x24 r (.set (asked portClass r s).part (asked portClass r s).writes) s t) ∧
  (∀ (r : Req) (s : State), SetPasses poundClass r s → (asked poundClass r s).part = 1 → ∃ t, exec (.poundSet r) s = .next t ∧
      waits 0x30 r (.set (asked poundClass r s).part (asked poundClass r s).writes) s t) ∧
  (∀ (r : Req) (s : State), SetPasses safeClass r s → 0x1000 ≤ r.inst → ∃ t, exec (.safeSet r) s = .next t ∧
      waits 0x60 r (.set (asked safeClass r s).part (asked safeClass r s).writes) s t)

/-- O34. For every request r that passes the checks of R396 (ActPasses): CHAN_RESTART, CHAN_OFF_DIAG, CAN_RECOVER,
CAN_SWAP, LIN_SWITCH, NM_REQUEST, NM_RELEASE, NM_REPEAT, NM_LINK_SLEEP, CORE_SWAP, BREACH_RUN, POND_BRING_IN and
POWER_ENTER answer a next state in which the action waits in the shadow state behind every other command, for
the boundary that the cutoff and the fold capacity leave it; beside the shadow state only what the acceptance of
a message moves has changed. TOW_RESYNC waits likewise. SAFE_ENTER and SAFE_RELEASE wait too: a release marks
itself pending at once, and an entry with no cause collected starts the reaction time with no detector named. -/
def Obligations.CycleBoundActionsWaitInTheShadow : Prop :=
  (∀ (r : Req) (s : State), ActPasses chanClass 1 r s → ∃ t, exec (.chanRestart r) s = .next t ∧
      waits 0x10 (actReq 1 r) (.act 1 r.payload) s t) ∧
  (∀ (r : Req) (s : State), ActPasses chanClass 3 r s → ∃ t, exec (.chanOffDiag r) s = .next t ∧
      waits 0x10 (actReq 3 r) (.act 3 r.payload) s t) ∧
  (∀ (r : Req) (s : State), ActPasses canClass 2 r s → ∃ t, exec (.canRecover r) s = .next t ∧
      waits 0x20 (actReq 2 r) (.act 2 r.payload) s t) ∧
  (∀ (r : Req) (s : State), ActPasses canClass 4 r s → ∃ t, exec (.canSwap r) s = .next t ∧
      waits 0x20 (actReq 4 r) (.act 4 r.payload) s t) ∧
  (∀ (r : Req) (s : State), ActPasses linClass 1 r s → ∃ t, exec (.linSwitch r) s = .next t ∧
      waits 0x21 (actReq 1 r) (.act 1 r.payload) s t) ∧
  (∀ (r : Req) (s : State), ActPasses nmClass 1 r s → ∃ t, exec (.nmRequest r) s = .next t ∧
      waits 0x22 (actReq 1 r) (.act 1 r.payload) s t) ∧
  (∀ (r : Req) (s : State), ActPasses nmClass 2 r s → ∃ t, exec (.nmRelease r) s = .next t ∧
      waits 0x22 (actReq 2 r) (.act 2 r.payload) s t) ∧
  (∀ (r : Req) (s : State), ActPasses nmClass 3 r s → ∃ t, exec (.nmRepeat r) s = .next t ∧
      waits 0x22 (actReq 3 r) (.act 3 r.payload) s t) ∧
  (∀ (r : Req) (s : State), ActPasses nmClass 4 r s → ∃ t, exec (.nmLinkSleep r) s = .next t ∧
      waits 0x22 (actReq 4 r) (.act 4 r.payload) s t) ∧
  (∀ (r : Req) (s : State), ActPasses coreClass 1 r s → ∃ t, exec (.coreSwap r) s = .next t ∧
      waits 0x31 (actReq 1 r) (.act 1 r.payload) s t) ∧
  (∀ (r : Req) (s : State), ActPasses breachClass 1 r s → ∃ t, exec (.breachRun r) s = .next t ∧
      waits 0x61 (actReq 1 r) (.act 1 r.payload) s t) ∧
  (∀ (r : Req) (s : State), ActPasses pondClass 1 r s → ∃ t, exec (.pondBringIn r) s = .next t ∧
      waits 0x62 (actReq 1 r) (.act 1 r.payload) s t) ∧
  (∀ (r : Req) (s : State), ActPasses powerClass 1 r s → ∃ t, exec (.powerEnter r) s = .next t ∧
      waits 0x70 (actReq 1 r) (.act 1 r.payload) s t) ∧
  (∀ (r : Req) (s : State), ActPasses towClass 2 r s → ∃ t, exec (.towResync r) s = .next t ∧
      waits 0x40 (actReq 2 r) (.act 2 r.payload) s t) ∧
  (∀ (r : Req) (s : State), ActPasses safeClass 1 r s → ∃ t, exec (.safeRelease r) s = .next t ∧
      waits 0x60 (actReq 1 r) (.act 1 r.payload) s t ∧ t.saf.relPend = true) ∧
  (∀ (r : Req) (s : State), ActPasses safeClass 2 r s → ∃ t, exec (.safeEnter r) s = .next t ∧
      waits 0x60 (actReq 2 r) (.act 2 r.payload) s t ∧ ((taken r s).saf.causes = 0 → (taken r s).saf.atBoundary = 0 → (taken r s).saf.atStrobe = 0 → t.saf.firstBp = 0 ∧ t.saf.tD = s.tide.counter))

/-- O35. For every request r that passes the checks of R396 (SetPasses): a SET of class TIME, WIRE, STREAM or TOW,
of a PORT outside its talkers and listeners, of a POUND outside its object list, of a detector of class SAFE,
and of POWER or CYCLE when it starts no change of level or period, answers the next state in which exactly the
fields it names have been written over the accepted request (applied), with what follows from them, and the
response OK carries part 0 of the object as it then stands (okTo). A POWER SET that changes the level, and a
CYCLE SET that changes the period, keep their request: the change begins, and the response waits for it; a CYCLE
SET of the period in force or of the pending one answers at once, and one with another change pending ends that
change first. -/
def Obligations.ImmediateSettingsAreWrittenAndAnswered : Prop :=
  (∀ (r : Req) (s : State), SetPasses timeClass r s → ∃ t, exec (.timeSet r) s = .next t ∧
      t = okTo timeClass 2 r (part0 timeClass r.inst (applied timeClass r s)) (applied timeClass r s)) ∧
  (∀ (r : Req) (s : State), SetPasses wireClass r s → ∃ t, exec (.wireSet r) s = .next t ∧
      t = okTo wireClass 2 r (part0 wireClass r.inst (applied wireClass r s)) (applied wireClass r s)) ∧
  (∀ (r : Req) (s : State), SetPasses streamClass r s → ∃ t, exec (.streamSet r) s = .next t ∧
      t = okTo streamClass 2 r (part0 streamClass r.inst (applied streamClass r s)) (applied streamClass r s)) ∧
  (∀ (r : Req) (s : State), SetPasses towClass r s → ∃ t, exec (.towSet r) s = .next t ∧
      t = okTo towClass 2 r (part0 towClass r.inst (applied towClass r s)) (applied towClass r s)) ∧
  (∀ (r : Req) (s : State), SetPasses portClass r s → r.inst < 0x200 ∨ 0x280 ≤ r.inst → ∃ t, exec (.portSet r) s = .next t ∧
      t = okTo portClass 2 r (part0 portClass r.inst (applied portClass r s)) (applied portClass r s)) ∧
  (∀ (r : Req) (s : State), SetPasses poundClass r s → (asked poundClass r s).part ≠ 1 → ∃ t, exec (.poundSet r) s = .next t ∧
      t = okTo poundClass 2 r (part0 poundClass r.inst (applied poundClass r s)) (applied poundClass r s)) ∧
  (∀ (r : Req) (s : State), SetPasses safeClass r s → r.inst < 0x1000 → ∃ t, exec (.safeSet r) s = .next t ∧
      t = okTo safeClass 2 r (part0 safeClass r.inst (applied safeClass r s)) (applied safeClass r s)) ∧
  (∀ (r : Req) (s : State), SetPasses powerClass r s → levelHeld r (asked powerClass r s).part (asked powerClass r s).writes (taken r s) = none → ∃ t, exec (.powerSet r) s = .next t ∧
      t = okTo powerClass 2 r (part0 powerClass r.inst (applied powerClass r s)) (applied powerClass r s)) ∧
  (∀ (r : Req) (s : State), SetPasses cycleClass r s → named (asked cycleClass r s).writes 0 = false → ∃ t, exec (.cycleSet r) s = .next t ∧
      t = okTo cycleClass 2 r (part0 cycleClass r.inst (applied cycleClass r s)) (applied cycleClass r s)) ∧
  (∀ (r : Req) (s : State), SetPasses cycleClass r s → named (asked cycleClass r s).writes 0 = true → s.cyc.change = none → periodOf (wouldBe (asked cycleClass r s).writes 0 0) = s.cyc.period → ∃ t, exec (.cycleSet r) s = .next t ∧
      t = answerSame r (taken r s)) ∧
  (∀ (r : Req) (c : PeriodChange) (s : State), SetPasses cycleClass r s → named (asked cycleClass r s).writes 0 = true → s.cyc.change = some c → ∃ t, exec (.cycleSet r) s = .next t ∧
      t = (let p := periodOf (wouldBe (asked cycleClass r s).writes 0 0)
        if p = c.period then answerSame r (taken r s)
        else if p = s.cyc.period then dropChange c (c.req.toList ++ [r]) (relayPeriod (periodCode p) 0 (taken r s))
        else beginChange r p (dropChange c c.req.toList (taken r s)))) ∧
  (∀ (r : Req) (s : State), SetPasses cycleClass r s → named (asked cycleClass r s).writes 0 = true → s.cyc.change = none → periodOf (wouldBe (asked cycleClass r s).writes 0 0) ≠ s.cyc.period → ∃ t, exec (.cycleSet r) s = .next t ∧
      t = beginChange r (periodOf (wouldBe (asked cycleClass r s).writes 0 0)) (taken r s)) ∧
  (∀ (r : Req) (s : State), SetPasses powerClass r s → r.inst = 0 → named (asked powerClass r s).writes 8 = true → s.pwr.vcoreEn = true → s.pwr.state < 2 → ∃ t, exec (.powerSet r) s = .next t ∧
      t = startChange (wouldBe (asked powerClass r s).writes 8 0) (some r)
        (writeFlds powerRec ((asked powerClass r s).writes.filter (fun w => decide (w.1 ≠ 8))) (taken r s)))

/-- O36. For every request r that passes the checks of R396 (ActPasses), the action answers OK (okTo) in a state
where: CLEAR_TS_DROP has cleared the drop count of its queue; CHAN_CLEAR_FLAGS the flags of its channel that the
mask names, and the response carries the record; FOUT_LOCATE has begun a location run of the bank from the value
named; FOUT_CLEAR has cleared what an earlier location found on each output the mask names; BRIDGE_SET_POS has
set a valid position, signed 32 bits; BRIDGE_CLEAR the flags named; CAN_SEND has put its frame, parsed from the
argument, in the channel's queue with its confirmation and one-shot bits; CAN_CLEAR_COUNTERS has cleared the
channel's counters; TOWPATH_ENGAGE has set cause 6 and TOWPATH_RELEASE cleared it. No other unit of the kind
changes. -/
def Obligations.ImmediateActionsOfTheInputsAndOutputs : Prop :=
  (∀ (r : Req) (s : State), ActPasses timeClass 1 r s → ∃ t, exec (.clearTsDrop r) s = .next t ∧
      ∃ u, t = okTo timeClass 3 (actReq 1 r) [] u ∧ tsqAt u (r.inst - 0x40) = { tsqAt s (r.inst - 0x40) with drops := 0 } ∧ others tsqAt (r.inst - 0x40) s u) ∧
  (∀ (r : Req) (s : State), ActPasses chanClass 2 r s → ∃ t, exec (.chanClearFlags r) s = .next t ∧
      ∃ u, t = okTo chanClass 3 (actReq 2 r) (encodeRec (chanRec r.inst) u) u ∧ chanAt u r.inst = clearChanFlags (leAt r.payload 0 2) (chanAt s r.inst) ∧ others chanAt r.inst s u) ∧
  (∀ (r : Req) (s : State), ActPasses foutClass 1 r s → ∃ t, exec (.foutLocate r) s = .next t ∧
      ∃ u, t = okTo foutClass 3 (actReq 1 r) [] u ∧ bankAt u (r.inst - 0x100) = { bankAt s (r.inst - 0x100) with run := some { cur := leAt r.payload 0 1 } } ∧ others bankAt (r.inst - 0x100) s u) ∧
  (∀ (r : Req) (s : State), ActPasses foutClass 2 r s → ∃ t, exec (.foutClear r) s = .next t ∧
      ∃ u, t = okTo foutClass 3 (actReq 2 r) [] u ∧ (∀ j, j ∈ elems (leAt r.payload 0 1) → (foAt u (8 * (r.inst - 0x100) + j)).located = false ∧ (foAt u (8 * (r.inst - 0x100) + j)).faultOff = false) ∧ u.fio.banks = s.fio.banks) ∧
  (∀ (r : Req) (s : State), ActPasses brClass 1 r s → ∃ t, exec (.bridgeSetPos r) s = .next t ∧
      ∃ u, t = okTo brClass 3 (actReq 1 r) [] u ∧ brAt u r.inst = { brAt s r.inst with pos := toS 32 (leAt r.payload 0 4), posValid := true } ∧ others brAt r.inst s u) ∧
  (∀ (r : Req) (s : State), ActPasses brClass 2 r s → ∃ t, exec (.bridgeClear r) s = .next t ∧
      ∃ u, t = okTo brClass 3 (actReq 2 r) [] u ∧ (brAt u r.inst).stalled = ((brAt s r.inst).stalled && !bitOf 1 (leAt r.payload 0 1)) ∧ (brAt u r.inst).pinched = ((brAt s r.inst).pinched && !bitOf 2 (leAt r.payload 0 1)) ∧
      (brAt u r.inst).ripLost = ((brAt s r.inst).ripLost && !bitOf 5 (leAt r.payload 0 1)) ∧ (brAt u r.inst).posRest = ((brAt s r.inst).posRest && !bitOf 6 (leAt r.payload 0 1)) ∧ others brAt r.inst s u) ∧
  (∀ (r : Req) (s : State), ActPasses canClass 1 r s → ∃ t, exec (.canSend r) s = .next t ∧
      ∃ u, t = okTo canClass 3 (actReq 1 r) [] u ∧ canAt u r.inst = fillSlots { canAt s r.inst with queue := queued (canAt s r.inst) { frame := parseFrame r.payload, src := .pound r.pound (leAt r.payload 30 2), oneShot := bitOf 0 (leAt r.payload 11 1), confirm := bitOf 1 (leAt r.payload 11 1), enq := s.tide.counter } } ∧ others canAt r.inst s u) ∧
  (∀ (r : Req) (s : State), ActPasses canClass 3 r s → ∃ t, exec (.canClearCounters r) s = .next t ∧
      ∃ u, t = okTo canClass 3 (actReq 3 r) [] u ∧ canAt u r.inst = { canAt s r.inst with counters := [], nobufRead := true } ∧ others canAt r.inst s u) ∧
  (∀ (r : Req) (s : State), ActPasses tpClass 1 r s → ∃ t, exec (.towpathEngage r) s = .next t ∧
      ∃ u, t = okTo tpClass 3 (actReq 1 r) [] u ∧ u.tp.causes = (taken r s).tp.causes ||| 2 ^ 6) ∧
  (∀ (r : Req) (s : State), ActPasses tpClass 2 r s → ∃ t, exec (.towpathRelease r) s = .next t ∧
      ∃ u, t = okTo tpClass 3 (actReq 2 r) [] u ∧ u.tp.causes = if bitOf 6 (taken r s).tp.causes then (taken r s).tp.causes - 2 ^ 6 else (taken r s).tp.causes)

/-- O37. For every request r that passes the checks of R396 (ActPasses), the action answers OK (okTo) in a state
where: ROUTE_CLEAR_COUNTERS has cleared the hits and drops of a route, and the counters of its other instances;
PORT_CLEAR_COUNTERS every counter of the port and no other; BASIN_CLEAR_COUNTERS those of a queue, or the
device's; STREAM_UNBLOCK the block and the red latch, STREAM_CLEAR_COUNTERS the counters of a stream, and
STREAM_RESET_SEQ the expected number of its resequencer, the next frame taken as it is; SYS_CLEAR_COUNTERS those
of the pound's transport; POUND_RESET begins a reset for reason 1 of the sender itself and 2 of another, and
POUND_REMOVE for reason 6, unless a handover defers it; TOW_ENUMERATE has begun an enumeration on TA with no
answer yet; TOW_PORT_RELEASE has an enabled port down but enabled, another off; TOW_RELOAD starts the barge's
load. -/
def Obligations.ImmediateActionsOfTheNetworks : Prop :=
  (∀ (r : Req) (s : State), ActPasses routeClass 1 r s → ∃ t, exec (.routeClearCounters r) s = .next t ∧
      ∃ u, t = okTo routeClass 3 (actReq 1 r) [] u ∧ u = clearRoute r.inst (taken r s) ∧ (r.inst < 0x4000 → routeAt u r.inst = { routeAt s r.inst with hits := 0, drops := 0, rateRep := false } ∧ others routeAt r.inst s u)) ∧
  (∀ (r : Req) (s : State), ActPasses portClass 1 r s → ∃ t, exec (.portClearCounters r) s = .next t ∧
      ∃ u, t = okTo portClass 3 (actReq 1 r) [] u ∧ u.net.counters = s.net.counters.filter (fun e => decide (e.1 / 32 ≠ r.inst - 0x100))) ∧
  (∀ (r : Req) (s : State), ActPasses basinClass 1 r s → ∃ t, exec (.basinClearCounters r) s = .next t ∧
      ∃ u, t = okTo basinClass 3 (actReq 1 r) [] u ∧ (r.inst = 0x4000 → u.net = { s.net with globals := [] }) ∧ (r.inst ≠ 0x4000 → queueAt u (r.inst - 0x2100) = { queueAt s (r.inst - 0x2100) with counters := [], dropRep := false, agedRep := false } ∧ others queueAt (r.inst - 0x2100) s u)) ∧
  (∀ (r : Req) (s : State), ActPasses streamClass 1 r s → ∃ t, exec (.streamUnblock r) s = .next t ∧
      ∃ u, t = okTo streamClass 3 (actReq 1 r) [] u ∧ streamAt u r.inst = { streamAt s r.inst with blocked := false, redLatched := false } ∧ others streamAt r.inst s u) ∧
  (∀ (r : Req) (s : State), ActPasses streamClass 2 r s → ∃ t, exec (.streamClearCounters r) s = .next t ∧
      ∃ u, t = okTo streamClass 3 (actReq 2 r) [] u ∧ streamAt u r.inst = { streamAt s r.inst with counters := [], redRep := false, rogueRep := false } ∧ others streamAt r.inst s u) ∧
  (∀ (r : Req) (s : State), ActPasses streamClass 3 r s → ∃ t, exec (.streamResetSeq r) s = .next t ∧
      ∃ u, t = okTo streamClass 3 (actReq 3 r) [] u ∧ (streamAt u r.inst).next = none ∧ (streamAt u r.inst).takeAny = true) ∧
  (∀ (r : Req) (s : State), ActPasses sysClass 1 r s → ∃ t, exec (.sysClearCounters r) s = .next t ∧
      ∃ u, t = okTo sysClass 3 (actReq 1 r) [] u ∧ (pqAt u (r.inst - 0x200)).counters = [] ∧ others pqAt (r.inst - 0x200) (taken r s) u) ∧
  (∀ (r : Req) (s : State), ActPasses poundClass 1 r s → ∃ t, exec (.poundReset r) s = .next t ∧
      ∃ u, t = okTo poundClass 3 (actReq 1 r) [] u ∧ u = startReset r.inst (if r.pound = r.inst then 1 else 2) (taken r s) ∧ (inHandover s = false → (poundAt s r.inst).state = .running → (poundAt u r.inst).state = .resetting ∧ (poundAt u r.inst).reason = if r.pound = r.inst then 1 else 2)) ∧
  (∀ (r : Req) (s : State), ActPasses poundClass 2 r s → ∃ t, exec (.poundRemove r) s = .next t ∧
      ∃ u, t = okTo poundClass 3 (actReq 2 r) [] u ∧ u = startReset r.inst 6 (taken r s) ∧ (inHandover s = false → (poundAt s r.inst).state = .running → (poundAt u r.inst).state = .resetting ∧ (poundAt u r.inst).reason = 6)) ∧
  (∀ (r : Req) (s : State), ActPasses towClass 1 r s → ∃ t, exec (.towEnumerate r) s = .next t ∧
      ∃ u, t = okTo towClass 3 (actReq 1 r) [] u ∧ u.tow.enumerating = true ∧ u.tow.acks = [] ∧ u.tow.ringHops = 0 ∧ u.tow.tbSent = false) ∧
  (∀ (r : Req) (s : State), ActPasses towClass 3 r s → ∃ t, exec (.towPortRelease r) s = .next t ∧
      ∃ u, t = okTo towClass 3 (actReq 3 r) [] u ∧ tpAt u (leAt r.payload 0 1) = { tpAt s (leAt r.payload 0 1) with link := if (tpAt s (leAt r.payload 0 1)).en then 3 else 0 } ∧ others tpAt (leAt r.payload 0 1) s u) ∧
  (∀ (r : Req) (s : State), ActPasses towClass 4 r s → ∃ t, exec (.towReload r) s = .next t ∧
      ∃ u, t = okTo towClass 3 (actReq 4 r) [] u ∧ u = startLoad (leAt r.payload 0 1) (taken r s) ∧ (bargeAt u (leAt r.payload 0 1)).state = 2)

/-- O38. For every request r that passes the checks of R396 (ActPasses) the action answers OK with the record of the
target slot. KEY_GENERATE commits there a root key with the attributes of the argument and material of the TRNG,
a free value (log entry 4); KEY_IMPORT a root with the material the argument brings, unwrapped under the named
key; KEY_DERIVE a child of the parent slot, one deeper, tied to the parent's generation; KEY_UPDATE a key of the
next generation, generated, imported or derived again; KEY_INVALIDATE leaves the slot INVALID, its material
cleared and its generation one higher. The record of every other slot is unchanged but for its use count. -/
def Obligations.KeySlotsAndTheirActions : Prop :=
  (∀ (r : Req) (s : State), ActPasses keyClass 1 r s → ∃ t, exec (.keyGenerate r) s = .next t ∧
      ∃ u, t = okTo keyClass 3 (actReq 1 r) (encodeRec (keyRec (argSlot r.payload)) u) u ∧ keyAt u (argSlot r.payload) = generated s r.payload ∧ (∀ j, j ≠ argSlot r.payload → Key.unused (keyAt u j) = Key.unused (keyAt s j))) ∧
  (∀ (r : Req) (s : State), ActPasses keyClass 2 r s → ∃ t, exec (.keyImport r) s = .next t ∧
      ∃ u, t = okTo keyClass 3 (actReq 2 r) (encodeRec (keyRec (argSlot r.payload)) u) u ∧ keyAt u (argSlot r.payload) = imported s r.payload (r.payload.drop 16) ∧ (∀ j, j ≠ argSlot r.payload → Key.unused (keyAt u j) = Key.unused (keyAt s j))) ∧
  (∀ (r : Req) (s : State), ActPasses keyClass 3 r s → ∃ t, exec (.keyDerive r) s = .next t ∧
      ∃ u, t = okTo keyClass 3 (actReq 3 r) (encodeRec (keyRec (argSlot r.payload)) u) u ∧ keyAt u (argSlot r.payload) = derived s r.payload (r.payload.drop 16) (leAt r.payload 16 2) (deriveLabel (r.payload.drop 16)) ∧ (∀ j, j ≠ argSlot r.payload → Key.unused (keyAt u j) = Key.unused (keyAt s j))) ∧
  (∀ (r : Req) (s : State), ActPasses keyClass 4 r s → ∃ t, exec (.keyUpdate r) s = .next t ∧
      ∃ u, t = okTo keyClass 3 (actReq 4 r) (encodeRec (keyRec (argSlot r.payload)) u) u ∧ keyAt u (argSlot r.payload) = { (if leAt r.payload 16 1 = 0 then generated s r.payload else if leAt r.payload 16 1 = 1 then imported s r.payload (r.payload.drop 18)
        else derived s r.payload (r.payload.drop 18) (keyAt s (argSlot r.payload)).parent (deriveLabel (r.payload.drop 18)))
        with gen := ((keyAt s (argSlot r.payload)).gen + 1) % 2 ^ 32 } ∧ (∀ j, j ≠ argSlot r.payload → Key.unused (keyAt u j) = Key.unused (keyAt s j))) ∧
  (∀ (r : Req) (s : State), ActPasses keyClass 5 r s → ∃ t, exec (.keyInvalidate r) s = .next t ∧
      ∃ u, t = okTo keyClass 3 (actReq 5 r) (encodeRec (keyRec (argSlot r.payload)) u) u ∧ keyAt u (argSlot r.payload) = { keyAt s (argSlot r.payload) with state := 3, gen := ((keyAt s (argSlot r.payload)).gen + 1) % 2 ^ 32, mat := 0, pub := [], madeCycle := s.cyc.number, seq := (keyAt s (argSlot r.payload)).seq + b2n (keyAt s (argSlot r.payload)).persist } ∧ (∀ j, j ≠ argSlot r.payload → Key.unused (keyAt u j) = Key.unused (keyAt s j)))

/-- O39. For a partition p below 32: each of the nine services of LH_GO does nothing for a pound that is no
partition, or with VCORE off; a mailbox that is busy answers E_BUSY and keeps its request; a free one takes the
registers as written, its result and counter cleared, and is busy when nothing of R527's table stops the request
(lhStatus), else done with that status. The end of a request in progress leaves the mailbox not busy and done,
with E_TRUNC for a source read without completion, E_REVOKED for a key that was lost, else the status of the
service; with none in progress, or while the Lighthouse is away, nothing changes. No other mailbox changes, and
of memory no byte outside the destination of the request. LH_CLEAR zeroises LH_IV and LH_RESULT. -/
def Obligations.LighthouseMailboxes : Prop :=
  (∀ (p : Nat) (r : LhRegs) (s : State), p < 32 → ∃ t, exec (.lhEncrypt p r) s = .next t ∧
      ((poundAt s p).kind ≠ 4 ∨ s.pwr.vcoreEn = false → t = s) ∧
      ((poundAt s p).kind = 4 ∧ s.pwr.vcoreEn = true → (boxAt s p).busy = true → boxAt t p = { boxAt s p with stat := Status.eBusy.code }) ∧
      ((poundAt s p).kind = 4 ∧ s.pwr.vcoreEn = true → (boxAt s p).busy = false → boxAt t p =
        if lhStatus s p 1 r = .ok then { op := 1, regs := r, busy := true } else { op := 1, regs := r, done := true, stat := (lhStatus s p 1 r).code }) ∧ others boxAt p s t) ∧
  (∀ (p : Nat) (r : LhRegs) (s : State), p < 32 → ∃ t, exec (.lhDecrypt p r) s = .next t ∧
      ((poundAt s p).kind ≠ 4 ∨ s.pwr.vcoreEn = false → t = s) ∧
      ((poundAt s p).kind = 4 ∧ s.pwr.vcoreEn = true → (boxAt s p).busy = true → boxAt t p = { boxAt s p with stat := Status.eBusy.code }) ∧
      ((poundAt s p).kind = 4 ∧ s.pwr.vcoreEn = true → (boxAt s p).busy = false → boxAt t p =
        if lhStatus s p 2 r = .ok then { op := 2, regs := r, busy := true } else { op := 2, regs := r, done := true, stat := (lhStatus s p 2 r).code }) ∧ others boxAt p s t) ∧
  (∀ (p : Nat) (r : LhRegs) (s : State), p < 32 → ∃ t, exec (.lhMacGen p r) s = .next t ∧
      ((poundAt s p).kind ≠ 4 ∨ s.pwr.vcoreEn = false → t = s) ∧
      ((poundAt s p).kind = 4 ∧ s.pwr.vcoreEn = true → (boxAt s p).busy = true → boxAt t p = { boxAt s p with stat := Status.eBusy.code }) ∧
      ((poundAt s p).kind = 4 ∧ s.pwr.vcoreEn = true → (boxAt s p).busy = false → boxAt t p =
        if lhStatus s p 3 r = .ok then { op := 3, regs := r, busy := true } else { op := 3, regs := r, done := true, stat := (lhStatus s p 3 r).code }) ∧ others boxAt p s t) ∧
  (∀ (p : Nat) (r : LhRegs) (s : State), p < 32 → ∃ t, exec (.lhMacVerify p r) s = .next t ∧
      ((poundAt s p).kind ≠ 4 ∨ s.pwr.vcoreEn = false → t = s) ∧
      ((poundAt s p).kind = 4 ∧ s.pwr.vcoreEn = true → (boxAt s p).busy = true → boxAt t p = { boxAt s p with stat := Status.eBusy.code }) ∧
      ((poundAt s p).kind = 4 ∧ s.pwr.vcoreEn = true → (boxAt s p).busy = false → boxAt t p =
        if lhStatus s p 4 r = .ok then { op := 4, regs := r, busy := true } else { op := 4, regs := r, done := true, stat := (lhStatus s p 4 r).code }) ∧ others boxAt p s t) ∧
  (∀ (p : Nat) (r : LhRegs) (s : State), p < 32 → ∃ t, exec (.lhHash p r) s = .next t ∧
      ((poundAt s p).kind ≠ 4 ∨ s.pwr.vcoreEn = false → t = s) ∧
      ((poundAt s p).kind = 4 ∧ s.pwr.vcoreEn = true → (boxAt s p).busy = true → boxAt t p = { boxAt s p with stat := Status.eBusy.code }) ∧
      ((poundAt s p).kind = 4 ∧ s.pwr.vcoreEn = true → (boxAt s p).busy = false → boxAt t p =
        if lhStatus s p 5 r = .ok then { op := 5, regs := r, busy := true } else { op := 5, regs := r, done := true, stat := (lhStatus s p 5 r).code }) ∧ others boxAt p s t) ∧
  (∀ (p : Nat) (r : LhRegs) (s : State), p < 32 → ∃ t, exec (.lhSign p r) s = .next t ∧
      ((poundAt s p).kind ≠ 4 ∨ s.pwr.vcoreEn = false → t = s) ∧
      ((poundAt s p).kind = 4 ∧ s.pwr.vcoreEn = true → (boxAt s p).busy = true → boxAt t p = { boxAt s p with stat := Status.eBusy.code }) ∧
      ((poundAt s p).kind = 4 ∧ s.pwr.vcoreEn = true → (boxAt s p).busy = false → boxAt t p =
        if lhStatus s p 6 r = .ok then { op := 6, regs := r, busy := true } else { op := 6, regs := r, done := true, stat := (lhStatus s p 6 r).code }) ∧ others boxAt p s t) ∧
  (∀ (p : Nat) (r : LhRegs) (s : State), p < 32 → ∃ t, exec (.lhVerify p r) s = .next t ∧
      ((poundAt s p).kind ≠ 4 ∨ s.pwr.vcoreEn = false → t = s) ∧
      ((poundAt s p).kind = 4 ∧ s.pwr.vcoreEn = true → (boxAt s p).busy = true → boxAt t p = { boxAt s p with stat := Status.eBusy.code }) ∧
      ((poundAt s p).kind = 4 ∧ s.pwr.vcoreEn = true → (boxAt s p).busy = false → boxAt t p =
        if lhStatus s p 7 r = .ok then { op := 7, regs := r, busy := true } else { op := 7, regs := r, done := true, stat := (lhStatus s p 7 r).code }) ∧ others boxAt p s t) ∧
  (∀ (p : Nat) (r : LhRegs) (s : State), p < 32 → ∃ t, exec (.lhAgree p r) s = .next t ∧
      ((poundAt s p).kind ≠ 4 ∨ s.pwr.vcoreEn = false → t = s) ∧
      ((poundAt s p).kind = 4 ∧ s.pwr.vcoreEn = true → (boxAt s p).busy = true → boxAt t p = { boxAt s p with stat := Status.eBusy.code }) ∧
      ((poundAt s p).kind = 4 ∧ s.pwr.vcoreEn = true → (boxAt s p).busy = false → boxAt t p =
        if lhStatus s p 8 r = .ok then { op := 8, regs := r, busy := true } else { op := 8, regs := r, done := true, stat := (lhStatus s p 8 r).code }) ∧ others boxAt p s t) ∧
  (∀ (p : Nat) (r : LhRegs) (s : State), p < 32 → ∃ t, exec (.lhRandom p r) s = .next t ∧
      ((poundAt s p).kind ≠ 4 ∨ s.pwr.vcoreEn = false → t = s) ∧
      ((poundAt s p).kind = 4 ∧ s.pwr.vcoreEn = true → (boxAt s p).busy = true → boxAt t p = { boxAt s p with stat := Status.eBusy.code }) ∧
      ((poundAt s p).kind = 4 ∧ s.pwr.vcoreEn = true → (boxAt s p).busy = false → boxAt t p =
        if lhStatus s p 9 r = .ok then { op := 9, regs := r, busy := true } else { op := 9, regs := r, done := true, stat := (lhStatus s p 9 r).code }) ∧ others boxAt p s t) ∧
  (∀ (p : Nat) (s : State), p < 32 → ∃ t, exec (.lhClear p) s = .next t ∧
      boxAt t p = { boxAt s p with iv := 0, result := [] } ∧ others boxAt p s t) ∧
  (∀ (p got : Nat) (trunc : Bool) (s : State), p < 32 → ∃ t, exec (.lhRequestComplete p got trunc) s = .next t ∧
      ((boxAt s p).busy = false ∨ s.light.state ≠ 0 → t = s) ∧
      ((boxAt s p).busy = true → s.light.state = 0 → (boxAt t p).busy = false ∧ (boxAt t p).done = true ∧
        (boxAt t p).stat = (if trunc = true then Status.eTrunc else if lhBroken s (boxAt s p) = true then Status.eRevoked else (lhResult s (boxAt s p)).1).code) ∧ others boxAt p s t ∧
      (∀ a, a < (boxAt s p).regs.dst ∨ (boxAt s p).regs.dst + lhDstLen (boxAt s p) ≤ a → memRead t.mem a = memRead s.mem a))

/-- O40. LH_WATCHDOG_EXPIRY with the keeper domain supplied, unless the Lighthouse is held in reset, is a detection
of 0x060, after which it serves no more until a restart, with no claim, no challenge, no authorisation and no
request in progress. LH_RESTART_COMPLETE of a restart: a failed known-answer test, a detection of 0x061, holds
it in reset; else it serves again, one restart more. BLOCK_HANDOVER gives a block with its claims, but not
DEBUG, not while it does not serve, and no core block without VCORE; BLOCK_RETURN takes one back.
CLAIM_DEFERRAL_TIMEOUT lets the cut proceed. CHALLENGE_EXPIRY drops a challenge that is 60 s old;
DEBUG_AUTH_EXPIRY, at its time, ends the authorisation in force and every halted core resumes. A request that
passes R396: LIGHT_ATTEST answers the report and its signature; LIGHT_DEBUG_CHALLENGE opens a challenge with a
nonce of the TRNG (a free value, log entry 4); LIGHT_DEBUG_RESPONSE with its reserved fields clear puts its
scope in force, its challenge used up. Through the TAP both do the same, or nothing when refused; a failed
response counts, and one with a reserved field set is E_RANGE and counts nothing. -/
def Obligations.LighthouseRestartClaimsAndDebug : Prop :=
  (∀ (s : State), ∃ t, exec (.lhWatchdogExpiry) s = .next t ∧
      (s.pwr.keeper = false ∨ s.light.state = 2 → t = s) ∧ (s.pwr.keeper = true → s.light.state ≠ 2 → detected 0x060 false s t ∧ t.light.state ≠ 0 ∧ t.light.claims = 0 ∧ t.light.challenge = none ∧ t.light.scope = 0 ∧ ∀ p, p < 32 → (boxAt t p).busy = false)) ∧
  (∀ (kat : Bool) (lost bad : List Nat) (again : List (Nat × Nat)) (s : State), ∃ t, exec (.lhRestartComplete kat lost bad again) s = .next t ∧
      (s.light.state ≠ 1 → t = s) ∧ (s.light.state = 1 → kat = false → t.light = { s.light with state := 2 } ∧ detected 0x061 false s t) ∧
      (s.light.state = 1 → kat = true → t.light.state = 0 ∧ t.light.restarts = sat 8 (s.light.restarts + 1) ∧ t.light.mismatch = (s.light.mismatch || !again.isEmpty))) ∧
  (∀ (b claims : Nat) (s : State), b < 3 → ∃ t, exec (.blockHandover b claims) s = .next t ∧
      t.light = if s.light.state ≠ 0 ∨ b = 2 ∨ (b = 0 ∧ s.pwr.vcoreEn = false) then s.light else { s.light with held := s.light.held ||| 2 ^ b, claims := s.light.claims ||| (claims % 32) }) ∧
  (∀ (b : Nat) (s : State), b < 3 → ∃ t, exec (.blockReturn b) s = .next t ∧
      if b = 2 ∨ bitOf b s.light.held = false then t = s else
      t.light = { s.light with held := s.light.held - 2 ^ b, claims := if (s.light.held - 2 ^ b) % 4 = 0 then 0 else s.light.claims }) ∧
  (∀ (s : State), ∃ t, exec (.claimDeferralTimeout) s = .next t ∧
      (∀ c, s.pwr.trans = some c → c.claimed = true → t.pwr = { s.pwr with trans := some { c with claimed := false } }) ∧ ((∀ c, s.pwr.trans = some c → c.claimed = false) → t = s)) ∧
  (∀ (s : State), ∃ t, exec (.challengeExpiry) s = .next t ∧
      (∀ c, s.light.challenge = some c → s.tide.counter < c.at_ + 60 * nsPerSec → t = s) ∧ ((∀ c, s.light.challenge = some c → c.at_ + 60 * nsPerSec ≤ s.tide.counter) → t.light = { s.light with challenge := none })) ∧
  (∀ (s : State), ∃ t, exec (.debugAuthExpiry) s = .next t ∧
      (s.tide.sec < s.light.notAfter ∨ s.light.scope = 0 → t = s) ∧ (s.light.notAfter ≤ s.tide.sec → s.light.scope ≠ 0 →
        t.light = { s.light with scope := 0, notAfter := 0, held := s.light.held ||| 4 } ∧ ∀ k, k < 5 → (coreAt t k).halted = false)) ∧
  (∀ (r : Req) (s : State), ActPasses lightClass 1 r s → ∃ t, exec (.lightAttest r) s = .next t ∧
      ∃ u, t = okTo lightClass 3 (actReq 1 r) (reportBytes u r.payload ++ signWith (keyAt u 1) (reportBytes u r.payload) u.free) u ∧ u.free = s.free + 1 ∧ u.light.boxes = s.light.boxes) ∧
  (∀ (r : Req) (s : State), ActPasses lightClass 2 r s → ∃ t, exec (.lightDebugChallenge r false) s = .next t ∧
      ∃ u c, t = okTo lightClass 3 (actReq 2 r) (challengeBytes c) u ∧ u.light.challenge = some c ∧
      c = { scope := leAt r.payload 0 2, nonce := Config.freeValue s.free, cycle := s.cyc.number, at_ := s.tide.counter } ∧ (c.scope = 0 → u.light.scope = 0)) ∧
  (∀ (r : Req) (s : State), ∃ t, exec (.lightDebugChallenge r true) s = .next t ∧
      if s.light.state ≠ 0 ∨ debugClosed s = true ∨ 128 ≤ leAt r.payload 0 2 then t = s else
      ∃ c, t.light.challenge = some c ∧ t.light.tap = challengeBytes c ∧ c = { scope := leAt r.payload 0 2, nonce := Config.freeValue s.free, cycle := s.cyc.number, at_ := s.tide.counter }) ∧
  (∀ (r : Req) (s : State), Heard lightClass 3 (actReq 3 r) s → r.pound = 0 → r.payload.length = 108 → responseFields r.payload = true → s.light.state = 0 → s.fv.started = true → ∃ t, exec (.lightDebugResponse r false) s = .next t ∧
      if debugClosed s = false ∧ responseOk s r.payload = true then
        (∃ u, t = okTo lightClass 3 (actReq 3 r) [] u ∧ u.light.scope = leAt r.payload 0 2 ∧ u.light.notAfter = leAt r.payload 4 6 ∧ u.light.challenge = none ∧ u.light.dbgSince = true)
      else ∃ u, t = answer 0x50 3 (actReq 3 r) .eAuth none [] u ∧ u.light.dbgFail = sat 8 (s.light.dbgFail + 1) ∧ u.light.challenge = none ∧ u.light.scope = s.light.scope) ∧
  (∀ (r : Req) (s : State), Heard lightClass 3 (actReq 3 r) s → r.pound = 0 → r.payload.length = 108 → responseFields r.payload = false → s.light.state = 0 → s.fv.started = true → ∃ t, exec (.lightDebugResponse r false) s = .next t ∧
      t = answer 0x50 3 (actReq 3 r) .eRange none [] (received r.pound s)) ∧
  (∀ (r : Req) (s : State), ∃ t, exec (.lightDebugResponse r true) s = .next t ∧
      (s.light.state ≠ 0 → t = s) ∧ (s.light.state = 0 → if debugClosed s = false ∧ r.payload.length = 108 ∧ responseFields r.payload = true ∧ responseOk s r.payload = true
        then t.light.scope = leAt r.payload 0 2 ∧ t.light.challenge = none else t.light.dbgFail = sat 8 (s.light.dbgFail + 1) ∧ t.light.challenge = none ∧ t.light.scope = s.light.scope))

/-- O41. For every request r that passes R396 (ActPasses): IMAGE_WRITE and CHART_WRITE put the bytes of the argument
at the unit's place in the bank or slot, no other byte changes, the bank or slot is being written, and a slot's
header is read anew; IMAGE_ACTIVATE and IMAGE_ROLLBACK with one in progress begin or cancel: the activation in
progress holds bank, mode, trial time, instant, and the request unless it is answered at once; CHART_COMMIT and
CHART_ROLLBACK leave a commit of the slot named, or of the other slot, that waits for its instant. TRIAL_END of
a started device, its time over, ends the trial: the bank is active and the minimum security version its own.
LOCK_THROUGH_PREPARED marks a live activation prepared, or cancels it where the bank does not verify.
READY_FLAG_TIMEOUT of a handover ends the activation with commands shut; HIGH_WATER_CANCEL, two cycles before
the instant, cancels one not prepared or not confirmed. Else nothing changes. -/
def Obligations.ImagesAndCharts : Prop :=
  (∀ (r : Req) (s : State), ActPasses imageClass 1 r s → ∃ t, exec (.imageWrite r) s = .next t ∧
      ∃ u, t = okTo imageClass 3 (actReq 1 r) [] u ∧ (bankImgAt u (leAt r.payload 0 1)).state = 1 ∧ memBytes u.mem (bankBase (leAt r.payload 0 1) + 2048 * leAt r.payload 4 4) (r.payload.drop 8).length = r.payload.drop 8 ∧
      ∀ a, a < bankBase (leAt r.payload 0 1) + 2048 * leAt r.payload 4 4 ∨ bankBase (leAt r.payload 0 1) + 2048 * leAt r.payload 4 4 + (r.payload.drop 8).length ≤ a → memRead u.mem a = memRead s.mem a) ∧
  (∀ (r : Req) (s : State), Heard imageClass 3 (actReq 2 r) s → r.pound = 0 → r.payload.length = 1 → leAt r.payload 0 1 < 2 → ∃ t, exec (.imageVerify r) s = .next t ∧
      (verifyImage s (leAt r.payload 0 1) = none → ∃ u, t = okTo imageClass 3 (actReq 2 r) [] u ∧ (bankImgAt u (leAt r.payload 0 1)).fail = 0) ∧
      (∀ f, verifyImage s (leAt r.payload 0 1) = some f → ∃ u, t = answer 0x80 3 (actReq 2 r) .eCheck none [] u ∧ (bankImgAt u (leAt r.payload 0 1)).fail = f ∧ (bankImgAt u (leAt r.payload 0 1)).state = 5)) ∧
  (∀ (r : Req) (s : State), ActPasses imageClass 3 r s → ∃ t, exec (.imageActivate r) s = .next t ∧
      t = beginAct (actReq 3 r) 3 (leAt r.payload 0 1) false r.payload (taken r s) ∧ t.img.act = some { bank := leAt r.payload 0 1, mode := actMode r.payload, trialS := actTrial r.payload, time := if actMode r.payload = 2 then actTime r.payload else 0, req := if decide (actMode r.payload = 0) || decide (s.sys.role = .barge) then none else some (actReq 3 r), verb := 3, revert := false, confirm := if actMode r.payload = 0 then [] else runningBarges (taken r s) }) ∧
  (∀ (r : Req) (s : State), ActPasses imageClass 4 r s → ∃ t, exec (.imageRollback r) s = .next t ∧
      t = rollback (actReq 4 r) (taken r s) ∧ (rollbackCase s = 1 → t.img.act = none) ∧
      (rollbackCase s = 2 → ∃ a, t.img.act = some a ∧ a.bank = other s.img.boot.active ∧ a.revert = true ∧ a.mode = actMode (rollArg r.payload)) ∧
      (rollbackCase s = 3 → ∃ a, t.img.act = some a ∧ a.bank = other s.img.boot.active ∧ a.revert = false ∧ a.mode = actMode (rollArg r.payload))) ∧
  (∀ (r : Req) (s : State), ActPasses chartSpec 1 r s → ∃ t, exec (.chartWrite r) s = .next t ∧
      ∃ u, t = okTo chartSpec 3 (actReq 1 r) [] u ∧ (slotImgAt u (leAt r.payload 0 1)).state = 1 ∧ (slotImgAt u (leAt r.payload 0 1)).items = [] ∧ (slotImgAt u (leAt r.payload 0 1)).digest = false ∧ (slotImgAt u (leAt r.payload 0 1)).head = headOf u (slotBase (leAt r.payload 0 1)) ∧
      memBytes u.mem (slotBase (leAt r.payload 0 1) + 2048 * leAt r.payload 4 4) (r.payload.drop 8).length = r.payload.drop 8 ∧
      ∀ a, a < slotBase (leAt r.payload 0 1) + 2048 * leAt r.payload 4 4 ∨ slotBase (leAt r.payload 0 1) + 2048 * leAt r.payload 4 4 + (r.payload.drop 8).length ≤ a → memRead u.mem a = memRead s.mem a) ∧
  (∀ (r : Req) (s : State), ActPasses chartSpec 2 r s → ∃ t, exec (.chartCommit r) s = .next t ∧
      t = beginCommit (actReq 2 r) (leAt (rollArg r.payload) 0 1) (rollArg r.payload) (readSlot (leAt (rollArg r.payload) 0 1) (taken r s)) ∧ (¬ (leAt (rollArg r.payload) 0 1 = s.img.boot.chart ∧ s.img.boot.chartTrial = true) →
        t.img.commit = some { slot := leAt (rollArg r.payload) 0 1, mode := actMode (rollArg r.payload), cycles := 2, time := actTime (rollArg r.payload), req := if actMode (rollArg r.payload) = 0 then none else some (actReq 2 r) } ∧
        (slotImgAt t (leAt (rollArg r.payload) 0 1)).state = 6)) ∧
  (∀ (r : Req) (s : State), ActPasses chartSpec 3 r s → ∃ t, exec (.chartRollback r) s = .next t ∧
      t = beginCommit (actReq 3 r) (other s.img.boot.chart) (rollArg r.payload) (taken r s) ∧ (other s.img.boot.chart ≠ s.img.boot.chart →
        t.img.commit = some { slot := other s.img.boot.chart, mode := actMode (rollArg r.payload), cycles := 2, time := actTime (rollArg r.payload), req := if actMode (rollArg r.payload) = 0 then none else some (actReq 3 r) } ∧
        (slotImgAt t (other s.img.boot.chart)).state = 6)) ∧
  (∀ (s : State), ∃ t, exec (.trialEnd) s = .next t ∧
      (s.img.boot.trial = false ∨ s.fv.started = false ∨ s.img.boot.trialS ≠ 0 → t = s) ∧ (s.img.boot.trial = true → s.fv.started = true → s.img.boot.trialS = 0 →
      t.img.boot.trial = false ∧ t.img.boot.minSec = (bankHead s s.img.boot.active).secVer ∧ t.img.rollback = true ∧ (bankImgAt t s.img.boot.active).state = 3)) ∧
  (∀ (s : State), ∃ t, exec (.lockThroughPrepared) s = .next t ∧
      (s.img.act = none → t = s) ∧ (∀ a, s.img.act = some a →
      if a.mode = 0 ∨ a.prepared = true then t = s
      else if s.sys.role ≠ .barge ∧ (verifyImage s a.bank).isSome = true then t = cancelAll .eCheck s ∧ t.img.act = none
      else t.img.act = some { a with prepared := true } ∧ t.fv.devState = 2)) ∧
  (∀ (s : State), ∃ t, exec (.readyFlagTimeout) s = .next t ∧
      ((∀ a, s.img.act = some a → a.handed = false) → t = s) ∧ (∀ a, s.img.act = some a → a.handed = true → t.img.act = none ∧ t.img.shut = true)) ∧
  (∀ (s : State), ∃ t, exec (.highWaterCancel) s = .next t ∧
      (s.img.act = none → t = s) ∧ (∀ a, s.img.act = some a →
      if a.mode = 0 ∨ (a.mode = 1 ∧ a.named = false) ∨ a.handed = true ∨ (a.prepared = true ∧ a.confirm = []) ∨ workNs s + 2 * s.cyc.period < a.time then t = s else t.img.act = none ∧ t.img.shut = false))

/-- O42. START with no cause due changes nothing; with one, the keeper domain runs with its source and detail, one
start more, the PLLs locked where the reference is valid, the role TUGSEL_N gives, and Towpath cause START, with
LIMP beside it when RST_N was released with LIMP_N low (R634). FIRMWARE_RUN outside a start, with the firmware
running, without the clock or with a bad block changes nothing; else, but for a restart of the Lockkeeper, VCORE
goes on at the level of the lowest clock and eight measurements stand; a restart of the Lockkeeper leaves eight
measurements of its own, on a barge with the power unit as it was. START_COMPLETE of a start whose firmware runs
and whose image verifies brings NORMAL, clears the causes START and WATCH, and ends the back-off; in recovery it
is RECOVERY. REFERENCE_TIMEOUT and START_FAILURE hold the keeper domain back: the boot record keeps the cause
and one failure more, a trial ends, and START is a cause. START_RETRY ends the hold once the back-off of the
failures in a row is over and the rails are good. LOCKKEEPER_RESTART of a started device forgets the staged
commands and dev_state reads 0. -/
def Obligations.StartsAndRestarts : Prop :=
  (∀ (tugSel ref : Bool) (s : State), ∃ t, exec (.start tugSel ref) s = .next t ∧
      (startDue s = none → t = s) ∧ (∀ src det, startDue s = some (src, det) →
        t.pwr.keeper = true ∧ t.pwr.pwrEn = true ∧ t.pwr.source = src ∧ t.pwr.detail = det ∧ t.pwr.starts = sat 32 (s.pwr.starts + 1) ∧ t.pwr.pll = ref ∧
        t.sys.role = (if tugSel then .barge else .standalone) ∧ t.tp.causes = 1 + flag 1 (decide (src = 1) && !s.sys.limpN))) ∧
  (∀ (ddr xspi : Nat) (lost bad : List Nat) (s : State), ∃ t, exec (.firmwareRun ddr xspi lost bad) s = .next t ∧
      (starting s = false ∨ s.fv.fw = true ∨ s.pwr.pll = false ∨ loadable s = false → t = s) ∧ (starting s = true → s.fv.fw = false → s.pwr.pll = true → loadable s = true →
        (s.img.lkReset = false → t.pwr.vcoreEn = true ∧ t.pwr.clk = 0 ∧ t.light.start.length = 8) ∧ (s.img.lkReset = true → t.light.start.length = 8 ∧ (s.sys.role = .barge → t.fv.fw = true ∧ t.pwr = s.pwr)))) ∧
  (∀ (s : State), ∃ t, exec (.startComplete) s = .next t ∧
      ((starting s = false ∨ s.fv.fw = false ∨ verified s = false ∨ (s.img.recovery = false ∧ (s.img.alive = false ∨ s.img.clean = false))) → t = s) ∧
      (starting s = true → s.fv.fw = true → verified s = true → (s.img.recovery = true ∨ (s.img.alive = true ∧ s.img.clean = true)) →
        t.img.boot.backoff = 0 ∧ t.img.lkReset = false ∧ (s.img.recovery = true → t.fv.devState = 3) ∧ (s.img.recovery = false → t.fv.devState = 1 ∧ t.fv.started = true ∧ t.tp.causes.testBit 0 = false ∧ t.tp.causes.testBit 2 = false))) ∧
  (∀ (s : State), ∃ t, exec (.referenceTimeout) s = .next t ∧
      (starting s = false ∨ s.pwr.pll = true → t = s) ∧ (starting s = true → s.pwr.pll = false → t.img.held = true ∧ t.fv.fw = false ∧ t.fv.started = false ∧ t.img.running = none ∧ t.img.boot.lastFail = 6 ∧ t.img.boot.fails = sat 32 (s.img.boot.fails + 1) ∧ t.img.boot.trial = false ∧ t.tp.causes % 2 = 1)) ∧
  (∀ (cause : Nat) (s : State), 1 ≤ cause → cause ≤ 7 → ∃ t, exec (.startFailure cause) s = .next t ∧
      (starting s = false → t = s) ∧ (starting s = true → t.img.held = true ∧ t.fv.fw = false ∧ t.fv.started = false ∧ t.img.running = none ∧ t.img.boot.lastFail = cause ∧ t.img.boot.fails = sat 32 (s.img.boot.fails + 1) ∧ t.img.boot.trial = false ∧ t.tp.causes % 2 = 1)) ∧
  (∀ (ref : Bool) (s : State), ∃ t, exec (.startRetry ref) s = .next t ∧
      (s.img.held = false ∨ 0 ∈ s.pwr.rails ∨ 3 ∈ s.pwr.rails ∨ s.pwr.age < s.img.heldAt + backoffNs s.img.boot.backoff → t = s) ∧ (s.img.held = true → 0 ∉ s.pwr.rails → 3 ∉ s.pwr.rails → s.img.heldAt + backoffNs s.img.boot.backoff ≤ s.pwr.age → t.img.held = false ∧ t.pwr.pll = (ref || s.pwr.pll) ∧ (s.sys.role ≠ .barge → t.sys.role = .standalone))) ∧
  (∀ (mem clock ref : Bool) (s : State), ∃ t, exec (.lockkeeperRestart mem clock ref) s = .next t ∧
      (s.pwr.keeper = false ∨ s.fv.started = false → t = s) ∧ (s.pwr.keeper = true → s.fv.started = true →
        t.fv.fw = false ∧ t.fv.started = false ∧ t.fv.devState = 0 ∧ t.cyc.staged = [] ∧ t.img.lkReset = true ∧ t.tp.causes % 2 = 1 ∧ t.pwr.pll = (if clock then ref else s.pwr.pll)))

/-- O43. R31 over all commands: in every state whose role is barge, whatever the command (a frame of the towline
among them), a next state has the role barge, a START whose sampled TUGSEL_N does not strap the device as a
barge apart (R29). -/
def Obligations.ABargeStaysABarge : Prop :=
  (∀ (i : Instr) (s : State), ((∀ ref, i ≠ .start false ref)) → s.sys.role = .barge → ∀ t, exec i s = .next t → t.sys.role = .barge)

/-- O44. While the cycle timer and the firmware run: the completion signal of block k, 0 the Sluice, 1 the field I/O
filters, 2 the Aqueduct scheduler, is recorded for that block and for no other; and a CUTOFF in a cycle with no
overrun so far finds the level phase complete, and makes no overrun of it, when and only when all three blocks
have signalled. -/
def Obligations.LevelPhaseIsCompleteWhenAllThreeSignal : Prop :=
  (∀ (k : Nat) (s : State), s.cyc.running = true → s.fv.fw = true → k < 3 → ∃ t, exec (.levelCompletionSignal k) s = .next t ∧
      t.cyc = { s.cyc with doneSluice := s.cyc.doneSluice || decide (k = 0), doneFio := s.cyc.doneFio || decide (k = 1), doneAq := s.cyc.doneAq || decide (k = 2) }) ∧
  (∀ (s : State), s.cyc.running = true → s.fv.fw = true → s.cyc.overMask = 0 → ∃ t, exec (.cutoff) s = .next t ∧
      (t.cyc.overMask = 0 ↔ s.cyc.doneSluice = true ∧ s.cyc.doneFio = true ∧ s.cyc.doneAq = true))

/-- O45. With p the pound of the SPI slave and a message at its head, and the keeper domain, which the slave is in,
supplied: a READ of n bytes clocks out the first n bytes of the message, and zeros when none waits; when n falls
short of its length both queues stay as they are, so that the next READ, of m bytes, clocks out its first m
bytes again; when n reaches its length the message leaves its queue, a response before an event. SPI_STATUS
gives the status word, ends the error flag and leaves both queues as they are. -/
def Obligations.SpiReadTakesAWholeMessage : Prop :=
  (∀ (n p : Nat) (s : State), spiPound s = some p → s.pwr.keeper = true → ∃ t, exec (.spiRead n) s = .next t ∧
      (pqAt t p).spi.out = (if (spiHead s p).isEmpty = true then List.replicate 16 0 else spiHead s p).take n ∧
      ((spiHead s p).isEmpty = true ∨ n < (spiHead s p).length → (pqAt t p).rsp = (pqAt s p).rsp ∧ (pqAt t p).evt = (pqAt s p).evt ∧ spiHead t p = spiHead s p ∧
        ∀ m, ∃ u, exec (.spiRead m) t = .next u ∧ (pqAt u p).spi.out = (if (spiHead s p).isEmpty = true then List.replicate 16 0 else spiHead s p).take m) ∧
      ((spiHead s p).isEmpty = false → (spiHead s p).length ≤ n → if (pqAt s p).rsp = [] then (pqAt t p).rsp = [] ∧ (pqAt t p).evt = (pqAt s p).evt.drop 1 else (pqAt t p).rsp = (pqAt s p).rsp.drop 1 ∧ (pqAt t p).evt = (pqAt s p).evt)) ∧
  (∀ (p : Nat) (s : State), spiPound s = some p → ∃ t, exec (.spiStatus) s = .next t ∧
      (pqAt t p).rsp = (pqAt s p).rsp ∧ (pqAt t p).evt = (pqAt s p).evt ∧ (pqAt t p).spi.word = spiWord s p ∧ (pqAt t p).spi.err = false)

/-- O46. SPARE_TAKEOVER without a swap whose time has come or without a healthy spare changes nothing; else the
spare serves the logical core of the one that leaves, which becomes spare or condemned. SLOT_START of a core
that serves no logical core, past the table, or that is halted, tested, stopped or out of ACTIVE changes
nothing; else it enters a STOPPED partition that may enter, with its entry point and pound number, and runs the
pound of the entry while it is a RUNNING partition. CORE_MISMATCH of an unpowered core changes nothing; an
injected one whose retry compares equal counts as injected only; else, of a core that compares, it counts as a
transient or a permanent one. Of the Lockkeeper, when the retry mismatched too or the transients exceed its
limit, it stops the firmware, of the Sluice it makes it silent. LBIST_COMPLETE and SPARE_LBIST record the
result; a spare that fails is out. DEBUG_HALT halts an authorised core of a powered domain only, DEBUG_RESUME
releases it. -/
def Obligations.CoresSpareAndSelfTests : Prop :=
  (∀ (s : State), ∃ t, exec (.spareTakeover) s = .next t ∧
      (s.aps.swap = none ∨ spareCore s = none → t = s) ∧ (∀ w k, s.aps.swap = some w → spareCore s = some k → (w.left ≠ 0 → t = s) ∧ (w.left = 0 → w.out ≠ k →
        (coreAt t k).role = 0 ∧ (coreAt t k).logical = (coreAt s w.out).logical ∧ (coreAt t w.out).role = (if w.cmd then 1 else 2) ∧ (coreAt t w.out).logical = 7 ∧ t.aps.swap = none))) ∧
  (∀ (k j : Nat) (s : State), k < 5 → j < 16 → ∃ t, exec (.slotStart k j) s = .next t ∧
      ((coreAt s k).role ≠ 0 ∨ 4 ≤ (coreAt s k).logical ∨ (logicalAt s (coreAt s k).logical).live.slots ≤ j ∨ ((coreAt s k).halted || (coreAt s k).testing || (coreAt s k).stopped || !coresRun s) = true → t = s) ∧
      (¬((coreAt s k).role ≠ 0 ∨ 4 ≤ (coreAt s k).logical ∨ (logicalAt s (coreAt s k).logical).live.slots ≤ j ∨ ((coreAt s k).halted || (coreAt s k).testing || (coreAt s k).stopped || !coresRun s) = true) →
        ∀ e, e = tget slotEntry0 (logicalAt s (coreAt s k).logical).live.entries j →
          (e.idle = true → (coreAt t k).running = none ∧ t.fv = s.fv) ∧
          (e.idle = false → mayEnter s e.pound = true → (partAt s e.pound).core = (coreAt s k).logical → (poundAt t e.pound).state = .running ∧ (partAt t e.pound).startPc = (partAt s e.pound).entry ∧ (partAt t e.pound).startA0 = e.pound ∧
            ((poundAt s e.pound).kind = 4 → (coreAt t k).running = some e.pound)) ∧
          (e.idle = false → mayEnter s e.pound = false → t.fv = s.fv ∧ (coreAt t k).running = if (poundAt s e.pound).kind = 4 ∧ (poundAt s e.pound).state = .running then some e.pound else none))) ∧
  (∀ (k : Nat) (second mon injected : Bool) (s : State), k < 7 → ∃ t, exec (.coreMismatch k second mon injected) s = .next t ∧
      (s.pwr.keeper = false ∨ k < 5 ∧ s.pwr.vcoreEn = false → t = s) ∧
     (s.pwr.keeper = true → (k < 5 → s.pwr.vcoreEn = true) →
      (injected = true → second = false → if k < 5 then (coreAt t k).mmI = sat 32 ((coreAt s k).mmI + 1) ∧ (coreAt t k).mmCycle = s.cyc.number ∧ (coreAt t k).mmT = (coreAt s k).mmT ∧ (coreAt t k).mmP = (coreAt s k).mmP ∧
        tget ctr0 (coreAt t k).hpm 9 = (tget ctr0 (coreAt s k).hpm 9 + 1) % 2 ^ 64 ∧ others coreAt k s t ∧ t.fv = s.fv else t = s) ∧
      (injected = false ∨ second = true → k < 5 → if compares s k mon = true then (coreAt t k).mmCycle = s.cyc.number ∧ (coreAt t k).mmI = (coreAt s k).mmI ∧
        (second = true → (coreAt t k).mmT = (coreAt s k).mmT ∧ (coreAt t k).mmP = sat 32 ((coreAt s k).mmP + 1)) ∧ (second = false → (coreAt t k).mmT = sat 32 ((coreAt s k).mmT + 1)) else t = s) ∧
      (injected = false ∨ second = true → 5 ≤ k → if second = true ∨ (coreAt s k).transMax < (transients k second s).length then (if k = 5 then t.fv.fw = false else t.slu.silent = true) else t.fv = s.fv ∧ t.slu = s.slu))) ∧
  (∀ (k : Nat) (pass : Bool) (s : State), k < 5 → ∃ t, exec (.lbistComplete k pass) s = .next t ∧
      ((coreAt s k).testing = false ∨ s.pwr.vcoreEn = false → t = s) ∧ ((coreAt s k).testing = true → s.pwr.vcoreEn = true → (coreAt t k).lbist = (if pass then 1 else 2) ∧ (coreAt t k).testing = false ∧
        ((coreAt s k).role = 1 → if pass then t.saf.pond.coreSpare = 0 ∧ (coreAt t k).role = 1 else t.saf.pond.coreSpare = 2 ∧ ((∀ w, s.aps.swap = some w → w.out ≠ k) → (coreAt t k).role = 3)))) ∧
  (∀ (pass : Bool) (s : State), ∃ t, exec (.spareLbist pass) s = .next t ∧
      (spareCore s = none ∨ s.pwr.vcoreEn = false → t = s) ∧ (∀ k, spareCore s = some k → s.pwr.vcoreEn = true → (coreAt t k).lbist = (if pass then 1 else 2) ∧
        (if pass then (coreAt t k).role = (coreAt s k).role else t.saf.pond.coreSpare = 2 ∧ ((∀ w, s.aps.swap = some w → w.out ≠ k) → (coreAt t k).role = 3)))) ∧
  (∀ (k : Nat) (s : State), k < 5 → ∃ t, exec (.debugHalt k) s = .next t ∧
      coreAt t k = { coreAt s k with halted := (coreAt s k).halted || (s.pwr.vcoreEn && bitOf (k + 1) s.light.scope) } ∧ others coreAt k s t) ∧
  (∀ (k : Nat) (s : State), k < 5 → ∃ t, exec (.debugResume k) s = .next t ∧
      coreAt t k = { coreAt s k with halted := false } ∧ others coreAt k s t)

/-- O47. SCRUB_PASS outside the keeper domain changes nothing; else it adds to the counters of corrected words and
keeps the cycle, and without uncorrectable words their count stands. SRAM_UNCORRECTABLE of an unpowered memory
changes nothing; else it counts the word where it lay, leaves an SRAM word poisoned, and for a partition on
whose behalf the monitor does not run counts a memory fault and an access fault. ACCESS_FAULT of an address the
pound may reach that way changes nothing unless a read meets a poisoned word, else it is counted for the pound,
memory unchanged. BREACH_RESULT_WINDOW_END without a run of the point changes nothing; the end of a PROBE run
ends it and records whether a detection came. LATENT_TEST_RUN with a run of the point pending or without
firmware changes nothing; passed at the first or the second attempt it clears the latent failure, else sets it,
as one detection more. A boundary-scan instruction takes effect when it is BYPASS or IDCODE, or authorised and
SAMPLE, or authorised with both groups below V_OFF; else it is BYPASS. -/
def Obligations.MemoryErrorsBreachResultsAndScan : Prop :=
  (∀ (cor l2 l1 : Nat) (stuck uncorr : List Nat) (s : State), ∃ t, exec (.scrubPass cor l2 l1 stuck uncorr) s = .next t ∧
      (s.pwr.keeper = false → t = s) ∧ (s.pwr.keeper = true → t.aps.sramCorr = sat 32 (s.aps.sramCorr + cor) ∧ t.aps.l2Corr = (if s.pwr.vcoreEn then sat 32 (s.aps.l2Corr + l2) else s.aps.l2Corr) ∧ t.aps.l1Err = (if s.pwr.vcoreEn then sat 32 (s.aps.l1Err + l1) else s.aps.l1Err) ∧
        t.aps.scrubCycle = s.cyc.number ∧ (uncorr = [] → t.aps.sramUncorr = s.aps.sramUncorr ∧ t.sys = s.sys) ∧ (∀ a, memRead t.mem a = memRead s.mem a))) ∧
  (∀ (addr : Nat) (p : Option Nat) (mon recurs : Bool) (place : Nat) (s : State), place < 3 → ∃ t, exec (.sramUncorrectable addr p mon place recurs) s = .next t ∧
      ((!s.pwr.keeper || ((decide (place ≠ 0) || p.isSome) && !s.pwr.vcoreEn)) = true → t = s) ∧ ((!s.pwr.keeper || ((decide (place ≠ 0) || p.isSome) && !s.pwr.vcoreEn)) = false →
      (place = 0 → t.aps.sramUncorr = sat 32 (s.aps.sramUncorr + 1) ∧ addr / 8 * 8 ∈ t.sys.poison) ∧ (place = 1 → t.aps.l2Uncorr = sat 32 (s.aps.l2Uncorr + 1)) ∧ (place = 2 → t.aps.l1Err = sat 32 (s.aps.l1Err + 1)) ∧
      (∀ q, p = some q → mon = false → (partAt t q).memFaults = sat 32 ((partAt s q).memFaults + 1) ∧ tget ctr0 t.sys.faults q = sat 32 (tget ctr0 s.sys.faults q + 1)))) ∧
  (∀ (p addr kind : Nat) (s : State), p < 32 → kind < 3 → ∃ t, exec (.accessFault p addr kind) s = .next t ∧
      (s.pwr.vcoreEn = false → t = s) ∧ (s.pwr.vcoreEn = true → (mapped s p addr kind = false ∨ (isWrite kind = false ∧ addr / 8 * 8 ∈ s.sys.poison) →
        tget ctr0 t.sys.faults p = sat 32 (tget ctr0 s.sys.faults p + 1)) ∧ (mapped s p addr kind = true → isWrite kind = true ∨ addr / 8 * 8 ∉ s.sys.poison → t = s)) ∧ t.mem = s.mem ∧ (∀ q, q ≠ p → tget ctr0 t.sys.faults q = tget ctr0 s.sys.faults q)) ∧
  (∀ (bp : Nat) (reaction : Option Nat) (s : State), (escOf bp).isSome = true → ∃ t, exec (.breachResultWindowEnd bp reaction) s = .next t ∧
      (s.saf.runs.find? (fun r => decide (r.bp = bp)) = none → t = s) ∧ (∀ r, s.saf.runs.find? (fun r => decide (r.bp = bp)) = some r → r.full = false →
        t.saf.runs = s.saf.runs.erase r ∧ (breachAt t bp).mode = false ∧ (breachAt t bp).latent = false ∧ (breachAt t bp).detected = reaction.isSome ∧ (breachAt t bp).inst = r.inst ∧ (breachAt t bp).cycle = s.cyc.number ∧
        (breachAt t bp).runs = sat 16 ((breachAt s bp).runs + 1) ∧ (breachAt t bp).fails = (if reaction.isSome then (breachAt s bp).fails else sat 32 ((breachAt s bp).fails + 1)))) ∧
  (∀ (bp inst : Nat) (first second : Option Nat) (s : State), (escOf bp).isSome = true → (detUnit bp inst).isSome = true → ∃ t, exec (.latentTestRun bp inst first second) s = .next t ∧
      (runPending s bp = true ∨ s.fv.fw = false → t = s) ∧ (runPending s bp = false → s.fv.fw = true →
        (first.isSome = true ∨ second.isSome = true → detAt t bp = { detAt s bp with latentFail := false, latentCycle := s.cyc.number } ∧ t.saf.latentFails = s.saf.latentFails) ∧
        (first = none → second = none → detAt t bp = { detAt s bp with latentFail := true, count := sat 32 ((detAt s bp).count + 1), latched := true, lastCycle := s.cyc.number } ∧ t.saf.latentFails = sat 32 (s.saf.latentFails + 1)))) ∧
  (∀ (code : Nat) (s : State), ∃ t, exec (.boundaryScanInstruction code) s = .next t ∧
      t = modSys (fun v => { v with tapReg := if code ≤ 1 then code else if bitOf 0 s.light.scope = true ∧ (code = 2 ∨ ((grpAt s 0).band = .belowOff ∧ (grpAt s 1).band = .belowOff)) then code else 0 }) s)

/-- O48. AQUEDUCT_ARRIVAL with nothing waiting changes nothing; else the oldest arrival leaves the queue and the
counters of frames and bytes advance; at an entry that is not enabled, a continuation or disabled by an error,
it is counted as no match and as a drop of the entry, and no bus, port, pound or tunnel receives it; of an
event, or at an entry without rate limit and authentication, it counts as a hit of the entry and, unless an
older frame of its source waits, is offered to every destination of the entry. CMAC_COMPLETION serves the oldest
waiting frame and then those that waited for their turn only; when the key of its context is not ready the
context is marked REVOKED and the frame counts as a drop; a protected frame with a ready key counts as a hit.
TUNNEL_AVTPDU_RECEIVED takes the oldest frame the Basin delivered, and only AVTP frames have an effect beyond
that: those of an enabled listener advance its counters and its sequence number, and those of none are counted. -/
def Obligations.WorkOfTheAqueduct : Prop :=
  (∀ (s : State), ∃ t, exec (.aqueductArrival) s = .next t ∧
      (s.aq.inq = [] → t = s) ∧ (∀ a r, s.aq.inq = a :: r → t.aq.inq = r ∧ t.aq.fromBasin = s.aq.fromBasin ∧
        tget ctr0 t.aq.counters 0 = (addHalf 32 1 (tget ctr0 s.aq.counters 0)).1 ∧ tget ctr0 t.aq.counters 1 = (addHalf 48 a.frame.data.length (tget ctr0 s.aq.counters 1)).1 ∧
        ((routeAt s a.route).en = false ∨ (routeAt s a.route).cont = true ∨ (routeAt s a.route).bad = true → tget ctr0 t.aq.counters 2 = (addHalf 32 1 (tget ctr0 s.aq.counters 2)).1 ∧
          routeAt t a.route = { routeAt s a.route with drops := (addHalf 32 1 (routeAt s a.route).drops).1 } ∧ t.can = s.can ∧ t.lin = s.lin ∧ t.net = s.net ∧ t.tow = s.tow ∧ t.aq.rx = s.aq.rx ∧ t.cyc = s.cyc) ∧
        ((routeAt s a.route).en = true → (routeAt s a.route).cont = false → (routeAt s a.route).bad = false → a.ev.isSome = true ∨ ((routeAt s a.route).rateEn = false ∧ (routeAt s a.route).auth = false) → heldBack s a = false →
          routeAt t a.route = { routeAt s a.route with hits := (addHalf 32 1 (routeAt s a.route).hits).1 } ∧ t.aq.cmac = s.aq.cmac ∧
          ((routeAt s a.route).chain = false → t = ((routeAt s a.route).dests.take (routeAt s a.route).ndest).foldl (fun u d => offer a.route d a u)
            (countRoute a.route 0 (countA 1 a.frame.data.length (countA 0 1 (modAq (fun v => { v with inq := r }) s)))))))) ∧
  (∀ (s : State), ∃ t, exec (.cmacCompletion) s = .next t ∧
      (s.aq.cmac = [] → t = s) ∧ (∀ q r, s.aq.cmac = q :: r →
        t.aq.cmac = r.foldl (fun k q => if q.act = 0 ∨ k.any (fun x => oneSource x.frame q.frame) = true then k ++ [q] else k) [] ∧ t.aq.inq = s.aq.inq ∧ t.aq.fromBasin = s.aq.fromBasin ∧
        (q.act = 0 → r = [] → keyReady s (ctxAt s (routeAt s q.frame.route).ctx).key = false → (ctxAt t (routeAt s q.frame.route).ctx).revoked = true ∧
          routeAt t q.frame.route = { routeAt s q.frame.route with drops := (addHalf 32 1 (routeAt s q.frame.route).drops).1 } ∧
          t.can = s.can ∧ t.lin = s.lin ∧ t.net = s.net ∧ t.tow = s.tow ∧ t.aq.rx = s.aq.rx) ∧
        (q.act = 0 → r = [] → keyReady s (ctxAt s (routeAt s q.frame.route).ctx).key = true → (ctxAt s (routeAt s q.frame.route).ctx).mode = 2 →
          (routeAt t q.frame.route).hits = (addHalf 32 1 (routeAt s q.frame.route).hits).1 ∧ (routeAt t q.frame.route).drops = (routeAt s q.frame.route).drops))) ∧
  (∀ (s : State), ∃ t, exec (.tunnelAvtpduReceived) s = .next t ∧
      (s.aq.fromBasin = [] → t = s) ∧ (∀ f r, s.aq.fromBasin = f :: r → t.aq.fromBasin = r ∧ t.aq.cmac = s.aq.cmac ∧ (f.etype ≠ 0x22F0 → t.aq = { s.aq with fromBasin := r } ∧ t.fv = s.fv) ∧ t.can = s.can ∧ t.net = s.net ∧ t.tow = s.tow ∧
        (∀ l, f.etype = 0x22F0 → beAt f.payload 0 1 = 5 ∨ beAt f.payload 0 1 = 0x82 → beAt f.payload 1 1 / 16 = 8 →
          (List.range 64).find? (fun i => (listenerAt s i).en && decide ((listenerAt s i).stream = beAt f.payload 4 8)) = some l →
          (listenerAt t l).pdus = (addHalf 32 1 (listenerAt s l).pdus).1 ∧ (listenerAt t l).octets = (addHalf 48 f.payload.length (listenerAt s l).octets).1 ∧
          (listenerAt t l).last = if beAt f.payload 0 1 = 5 then beAt f.payload 2 1 else beAt f.payload 3 1)))

/-- O49. PORT_LINK_CHANGE of a port not enabled, or of a moored 10BASE-T1S port, changes nothing; up gives the link,
its speed and signal quality, down takes a link away and is a detection of 0x054. ETH_FRAME_RECEIVED off a link
changes nothing; a frame too short, too long, damaged or a pause frame counts once and goes no further; a good
frame without MACsec is counted and goes to the keeper logic or, once, at the end, to the Basin. The loss of the
PLCA beacon and its return change the state of a node that is not the coordinator. A transmission ends with the
port free; one to a port without link, or too long, counts as not sent; one with an uncorrectable error is a
detection of 0x020, and an unprotected frame leaves on the wire as its tags say. HOST_PORT_DELIVERY takes the
head of the queue whose turn it is. TX_FRAME_FETCH changes nothing of a ring that is off; a malformed chain is
completed as such; a whole frame leaves the ring for the Basin. EOP_TIMEOUT completes an unfinished chain;
TS2_TIMEOUT changes nothing unless a departure time is awaited. An address request to an interface that is off
changes nothing, and else its reply goes to the Basin from the host port. -/
def Obligations.PortsAndTheirFrames : Prop :=
  (∀ (p sqi speed : Nat) (up : Bool) (s : State), p < 12 → ∃ t, exec (.portLinkChange p up sqi speed) s = .next t ∧
      ((portAt s p).en = false ∨ (8 ≤ p ∧ portMoored s p = true) → t = s) ∧
      ((portAt s p).en = true → (8 ≤ p → portMoored s p = false) → up = true → (portAt t p).link = 1 ∧ (portAt t p).sqi = sqi % 8 ∧ (portAt t p).speedNow = speed % 8 ∧ (portAt t p).plcaUp = plcaStart p (portAt s p) ∧ others portAt p s t) ∧
      ((portAt s p).en = true → (8 ≤ p → portMoored s p = false) → up = false → (portAt s p).link ≠ 0 → (portAt s p).link ≠ 2 → (portAt t p).link = 0 ∧ (portAt t p).sqi = 0 ∧ (portAt t p).plcaUp = false ∧ others portAt p s t ∧ detected 0x054 true s t)) ∧
  (∀ (p len : Nat) (f : EthFrame) (fcsOk : Bool) (tag : Option SecTag) (s : State), p < 12 → ∃ t, exec (.ethFrameReceived p f len fcsOk tag) s = .next t ∧
      ((portAt s p).en = false ∨ (portAt s p).link ≠ 1 → t = s) ∧ ((portAt s p).en = true → (portAt s p).link = 1 →
        (len < 64 → t = countPort p (if fcsOk then 5 else 6) 1 s) ∧ (64 ≤ len → portLimit s p < len → t = countPort p 7 1 s) ∧
        (64 ≤ len → len ≤ portLimit s p → fcsOk = false → t = countPort p 4 1 s) ∧ (64 ≤ len → len ≤ portLimit s p → fcsOk = true → f.etype = 0x8808 → t = countPort p 9 1 s) ∧
        (64 ≤ len → len ≤ portLimit s p → fcsOk = true → f.etype ≠ 0x8808 → (portAt s p).macsec = false → tag = none →
          (isGptp f = false → isEapol f = false → t.net.toBasin = s.net.toBasin ++ [{ f := f, ing := p, arr := workNs s, fid := s.net.nextFid, ipc := checkIp f, l4c := checkL4 f }]) ∧
          (isGptp f = true ∨ isEapol f = true → t = toKeeper p { f := f, ing := p, arr := workNs s, ipc := checkIp f, l4c := checkL4 f } (countRx p f len s))) ∧
        (64 ≤ len → len ≤ portLimit s p → fcsOk = true → f.etype ≠ 0x8808 → (portAt s p).macsec = true → (macsecRx p f tag (countRx p f len s)).1 = none → t = (macsecRx p f tag (countRx p f len s)).2))) ∧
  (∀ (p : Nat) (s : State), 8 ≤ p ∧ p < 12 → ∃ t, exec (.plcaBeaconTimeout p) s = .next t ∧
      (if plcaOn (portAt s p) = true ∧ (portAt s p).plcaId ≠ 0 ∧ (portAt s p).plcaUp = true then portAt t p = { portAt s p with plcaUp := false } ∧ others portAt p s t else t = s)) ∧
  (∀ (p : Nat) (s : State), 8 ≤ p ∧ p < 12 → ∃ t, exec (.plcaBeaconReceived p) s = .next t ∧
      (plcaOn (portAt s p) = false → t = s) ∧ (plcaOn (portAt s p) = true → (portAt s p).plcaId = 0 → t = emit 0x2402 p (countPort p 17 1 s) (cause := 3)) ∧
      (plcaOn (portAt s p) = true → (portAt s p).plcaId ≠ 0 → if (portAt s p).plcaUp = true then t = s else portAt t p = { portAt s p with plcaUp := true } ∧ others portAt p s t)) ∧
  (∀ (p collisions : Nat) (ecc : Bool) (s : State), p < 16 → ∃ t, exec (.ethFrameTransmit p collisions ecc) s = .next t ∧
      ((portAt s p).sending = none → t = s) ∧ (∀ c x u, (portAt s p).sending = some (c, x) → u = modPort p (fun v => { v with sending := none }) (settle p s) →
        (ecc = true → (portAt t p).sending = none ∧ detected 0x020 false s t) ∧
        (ecc = false → p < 12 → (portAt s p).link ≠ 1 ∨ (portAt s p).en = false → t = countPort p 15 1 u) ∧
        (ecc = false → (p < 12 → (portAt s p).link = 1 ∧ (portAt s p).en = true) → portLimit u p < frameLen (egressBytes u p x) → t = countPort p 14 1 u) ∧
        (ecc = false → p < 12 → (portAt s p).link = 1 → (portAt s p).en = true → frameLen (egressBytes u p x) ≤ portLimit u p → (portAt s p).macsec = false → (portAt t p).wire = some { f := egressBytes u p x }))) ∧
  (∀ (s : State), ∃ t, exec (.hostPortDelivery) s = .next t ∧
      (nextHost s = none → t = s) ∧ (∀ p u c r, nextHost s = some (p, u) → hostqAt u p = c :: r → u.net.hostMaxRes ≠ 0 → u.net.hostMaxRes * 1000 < workNs u - c.fr.arr → hostqAt t p = r) ∧
      (∀ p u c r, nextHost s = some (p, u) → hostqAt u p = c :: r → u.net.hostMaxRes = 0 → c.fr.mark.ring = none → ∀ v, v = modNet (fun v => { v with deficit := tput ctr0 p (if r.isEmpty then 0 else tget ctr0 v.deficit p - frameLen c.fr.f) v.deficit }) (modHostq p (fun _ => r) u) →
        t = deliverRing p c.ring c.filter { c.fr with f := egressBytes v 12 c } v)) ∧
  (∀ (p r : Nat) (s : State), p < 32 ∧ 4 ≤ r ∧ r < 8 → ∃ t, exec (.txFrameFetch p r) s = .next t ∧
      (ringOn s p r = false → t = s) ∧ (ringOn s p r = true → let g := hringAt s (ringKey p r)
        (txNext (g.cur ++ g.posted) = .idle → t = s) ∧
        (txNext (g.cur ++ g.posted) = .part → hringAt t (ringKey p r) = { hringAt s (ringKey p r) with cur := g.cur ++ g.posted, posted := [] } ∧ others hringAt (ringKey p r) s t) ∧
        (∀ n, txNext (g.cur ++ g.posted) = .refuse n → t = pushDone (ringKey p r) (elemOr {} (g.cur ++ g.posted) 0).tag n (some 5) (modHring (ringKey p r) (fun h => { h with cur := [], posted := (g.cur ++ g.posted).drop n }) s)) ∧
        (∀ l, txNext (g.cur ++ g.posted) = .frame l → (poundAt s p).txCells < txCellsHeld s p + 18 → t = s) ∧
        (∀ l, txNext (g.cur ++ g.posted) = .frame l → txCellsHeld s p + 18 ≤ (poundAt s p).txCells → (∀ d ∈ l, bufOk s p d = true) →
          ∃ y, t.net.toBasin = s.net.toBasin ++ [y] ∧ y.pound = p ∧ y.ing = 12 ∧ y.fid = s.net.nextFid ∧ y.mark.ring = some (ringKey p r) ∧ y.mark.id = g.nextId ∧ y.mark.tag = (elemOr {} l 0).tag))) ∧
  (∀ (p r : Nat) (s : State), p < 32 ∧ 4 ≤ r ∧ r < 8 → ∃ t, exec (.eopTimeout p r) s = .next t ∧
      ((hringAt s (ringKey p r)).cur = [] → t = s) ∧ ((hringAt s (ringKey p r)).cur ≠ [] → (hringAt t (ringKey p r)).cur = [] ∧ (hringAt t (ringKey p r)).posted = (hringAt s (ringKey p r)).posted ∧ t.net.toBasin = s.net.toBasin)) ∧
  (∀ (p r id : Nat) (s : State), p < 32 ∧ 4 ≤ r ∧ r < 8 → ∃ t, exec (.ts2Timeout p r id) s = .next t ∧
      (if (hringAt s (ringKey p r)).done.any (fun x => decide (x.id = id) && x.status.isNone) then t = complete (ringKey p r) id 3 0 0 s ∧ (∀ j, portAt t j = portAt s j) ∧ (∀ j, hostqAt t j = hostqAt s j) else t = s)) ∧
  (∀ (i mac ip : Nat) (s : State), i < 4 → ∃ t, exec (.addressResolutionRequest i mac ip) s = .next t ∧
      ((tget iface0 s.fv.ifaces i).en = false ∨ s.fv.fw = false → t = s) ∧ ((tget iface0 s.fv.ifaces i).en = true → s.fv.fw = true →
        ∃ y, t.net.toBasin = s.net.toBasin ++ [y] ∧ y.ing = 12 ∧ y.direct = none ∧ y.fid = s.net.nextFid ∧
          y.f = (let x := tget iface0 s.fv.ifaces i; let g := if x.v6 then neighbourReply (portAt s 12).station x.addr mac ip else arpReply (portAt s 12).station x.addr mac ip
            { g with tagged := decide (x.vid ≠ 0), vid := x.vid })))

/-- O50. BASIN_INGRESS with nothing waiting changes nothing; else the frame at the front leaves the input: a frame
the keeper logic sends to a port joins the queue of its class where the queue has room within its own cells, a
frame before the tables are loaded ends, one from outside its VLAN at a strict port is counted and ends, and any
other goes where the filtering database sends it, through its stream where it has one. TRANSMISSION_SELECTION
changes nothing of the host port or of a port that is sending; else it takes the first frame of the highest
eligible queue and no frame of another. A gate interval's end advances an enabled gate list by one, round to its
start. OVERFLOW_FETCH_BACK keeps every frame of the queue in its order. STREAM_RECOVERY_RESET lets a recovering
stream take any sequence number; RESEQUENCER_TIMEOUT releases what a stream holds; SHAPER_CREDIT_RECOVERY brings
the credit of the port's queues up to now, and a shaped queue with no negative credit is looked at again. -/
def Obligations.WorkOfTheBasin : Prop :=
  (∀ (full : Bool) (s : State), ∃ t, exec (.basinIngress full) s = .next t ∧
      (s.net.toBasin = [] → t = s) ∧ (∀ x rest u, s.net.toBasin = x :: rest → u = modNet (fun v => { v with toBasin := rest }) s →
        (∀ p q, x.direct = some p → q = 8 * p + fieldOf (3 * (swAt u 12).defPcp) 3 (swAt u p).pcpTc → descUsed u < 16384 → qOvf (queueAt u q) = 0 → qCells (queueAt u q) + copyCells { fr := x } ≤ (queueAt u q).qMin →
          (queueAt t q).copies = (queueAt s q).copies ++ [{ fr := x }] ∧ t.net.toBasin = rest) ∧
        (x.direct = none → s.net.loaded = false → t = ingressDone x [] false u) ∧
        (∀ vid pcp, x.direct = none → s.net.loaded = true → ingressTag u x.f x.ing = (vid, pcp) →
          ((swAt u x.ing).strict = true → bitOf x.ing (members16 u vid) = false → t = ingressDone x [] false (countG 1 u)) ∧
          ((swAt u x.ing).strict = false ∨ bitOf x.ing (members16 u vid) = true →
            (fdbFind u 3 x.f.src vid x.ing = none → fdbFind u 2 x.f.dst vid x.ing = none → t = admitAll (routeFrame u x vid pcp none) full u) ∧
            (∀ e, fdbFind u 3 x.f.src vid x.ing = some e ∨ (fdbFind u 3 x.f.src vid x.ing = none ∧ fdbFind u 2 x.f.dst vid x.ing = some e) → t = streamFrame e.stream (routeFrame u x vid pcp (some e)) full u))))) ∧
  (∀ (p : Nat) (s : State), p < 16 → ∃ t, exec (.transmissionSelection p) s = .next t ∧
      (p = 12 ∨ (portAt s p).sending.isSome = true → t = s) ∧ (∀ u, p ≠ 12 → (portAt s p).sending = none →
        u = (List.range 8).foldl (fun s c => ageQueue (8 * p + c) (queueAt s (8 * p + c)).copies.length s) (settle p s) →
        ((List.range 8).reverse.find? (fun c => eligible u p c) = none → t = u) ∧
        (∀ c x r, (List.range 8).reverse.find? (fun c => eligible u p c) = some c → (queueAt u (8 * p + c)).copies = x :: r →
          (portAt t p).sending = some (c, x) ∧ (queueAt t (8 * p + c)).copies = r ∧ others queueAt (8 * p + c) u t ∧ others portAt p u t))) ∧
  (∀ (p : Nat) (s : State), p < 16 → ∃ t, exec (.gateIntervalEnd p) s = .next t ∧
      (if (gateAt s p).live.en = true then gateAt t p = { gateAt s p with idx := if (gateAt s p).idx + 1 < (gateAt s p).live.count then (gateAt s p).idx + 1 else 0, since := (s.tide.counter : Int) } ∧ others gateAt p s t else t = s)) ∧
  (∀ (q : Nat) (s : State), q < 128 → ∃ t, exec (.overflowFetchBack q) s = .next t ∧
      (ovfReady s = false → t = s) ∧ (ovfReady s = true → t = ovfReport (fetchBack q (queueAt s q).copies.length s) ∧ (queueAt t q).copies.map (·.fr) = (queueAt s q).copies.map (·.fr) ∧ others queueAt q s t)) ∧
  (∀ (i : Nat) (s : State), i < 256 → ∃ t, exec (.streamRecoveryReset i) s = .next t ∧
      (if (streamAt s i).en = true ∧ (streamAt s i).recover = true then (streamAt t i).takeAny = true ∧ (streamAt t i).next = none ∧ (streamAt t i).held = (streamAt s i).held ∧ others streamAt i s t else t = s)) ∧
  (∀ (i : Nat) (s : State), i < 256 → ∃ t, exec (.resequencerTimeout i) s = .next t ∧
      ((streamAt s i).held = [] → t = s) ∧ ((streamAt s i).held ≠ [] → t = releaseAll i false s)) ∧
  (∀ (p k : Nat) (s : State), p < 16 ∧ k < 8 → ∃ t, exec (.shaperCreditRecovery p k) s = .next t ∧
      (p = 12 → t = s) ∧ (p ≠ 12 → t = if (queueAt (settle p s) (8 * p + k)).cbs = true ∧ 0 ≤ (queueAt (settle p s) (8 * p + k)).credit then selectTx p (settle p s) else settle p s))

/-- O51. A write to a window that is not powered changes nothing. RUN set on a window of a pound that is resetting
or running only sets RUN; with a ring set up wrong it sets CFG_ERR, records the error and sends SYS_TRANSPORT;
else the window runs, the heads and tails of its three rings are 0 and its error count is 0, and a stopped PCIe
pound runs. RUN cleared clears RUN and CFG_ERR, and the window stops once no answer is owed. A doorbell or head
write moves that tail or head alone, or records error 1 where it names more than the ring holds. Clearing causes
clears the masked bits but those that were set in the same cycle. A register write of the wrong size or
alignment is error 7; CAUSE_EN, VEC, MOD, and the base and size of a ring that does not run take the value. The
end of interrupt moderation sends the deferred interrupt. A read or write of host memory that fails does not
hang the window: a command slot is answered, a descriptor is dropped, and a write failure resets the pound with
reason 4; a function-level reset resets it with reason 3. OUTBOUND_DOORBELL sends what waits through the pound's
transport. -/
def Obligations.WindowsAndTheirInterrupts : Prop :=
  (∀ (e : Nat) (s : State), winOk e = true → ∃ t, exec (.runSet e) s = .next t ∧
      (winLive s e = false ∨ poundOfWin s e = none → t = s) ∧ (∀ p, winLive s e = true → poundOfWin s e = some p →
        ((poundAt s p).state = .resetting ∨ (winAt s e).running = true → t = modWin e (fun w => { w with run := true }) s) ∧
        ((poundAt s p).state ≠ .resetting → (winAt s e).running = false →
          (∀ code k, runFault s e = some (code, k) → t = emitTransport p 0x10 (mbxError p code k (modWin e (fun w => { w with cfgErr := true, run := true }) s))) ∧
          (runFault s e = none → (winAt t e).run = true ∧ (winAt t e).running = true ∧ (winAt t e).cfgErr = false ∧ (winAt t e).errCount = 0 ∧
            (∀ k, k < 3 → tget ring0 (winAt t e).rings k = { tget ring0 (winAt s e).rings k with head := 0, tail := 0 }) ∧ others winAt e s t ∧
            poundAt t p = { poundAt s p with state := if (poundAt s p).kind = 1 ∧ (poundAt s p).state = .stopped then .running else (poundAt s p).state } ∧ others poundAt p s t)))) ∧
  (∀ (e : Nat) (s : State), winOk e = true → ∃ t, exec (.runClear e) s = .next t ∧
      (winLive s e = false → t = s) ∧ (winLive s e = true → (winAt t e).run = false ∧ (winAt t e).cfgErr = false ∧ (winAt t e).rings = (winAt s e).rings ∧ others winAt e s t ∧
        (poundOfWin s e = none → (winAt t e).running = false) ∧
        (∀ p, poundOfWin s e = some p → (winAt t e).running = ((winAt s e).running && !(decide ((pqAt s p).unanswered = 0) && (pqAt s p).rsp.isEmpty))))) ∧
  (∀ (e tail : Nat) (s : State), winOk e = true → ∃ t, exec (.commandDoorbell e tail) s = .next t ∧
      (winLive s e = false → t = s) ∧ (winLive s e = true → if ringSize (winAt s e) 0 < (tail % 65536 + 65536 - (tget ring0 (winAt s e).rings 0).head) % 65536 then t = winError e 1 0 s
        else t = modWin e (modRing 0 (fun r => { r with tail := tail % 65536 })) s ∧ tget ring0 (winAt t e).rings 0 = { tget ring0 (winAt s e).rings 0 with tail := tail % 65536 } ∧ others winAt e s t)) ∧
  (∀ (e head : Nat) (s : State), winOk e = true → ∃ t, exec (.responseHeadWrite e head) s = .next t ∧
      (winLive s e = false → t = s) ∧ (winLive s e = true → if used (tget ring0 (winAt s e).rings 1) < (head % 65536 + 65536 - (tget ring0 (winAt s e).rings 1).head) % 65536 then t = winError e 1 1 s
        else t = modWin e (modRing 1 (fun r => { r with head := head % 65536 })) s ∧ tget ring0 (winAt t e).rings 1 = { tget ring0 (winAt s e).rings 1 with head := head % 65536 } ∧ others winAt e s t)) ∧
  (∀ (e head : Nat) (s : State), winOk e = true → ∃ t, exec (.eventHeadWrite e head) s = .next t ∧
      (winLive s e = false → t = s) ∧ (winLive s e = true → if used (tget ring0 (winAt s e).rings 2) < (head % 65536 + 65536 - (tget ring0 (winAt s e).rings 2).head) % 65536 then t = winError e 1 2 s
        else t = modWin e (modRing 2 (fun r => { r with head := head % 65536 })) s ∧ tget ring0 (winAt t e).rings 2 = { tget ring0 (winAt s e).rings 2 with head := head % 65536 } ∧ others winAt e s t)) ∧
  (∀ (e mask same : Nat) (s : State), winOk e = true → ∃ t, exec (.causeClear e mask same) s = .next t ∧
      (winLive s e = false → t = s) ∧ (winLive s e = true → (winAt t e).cause = (winAt s e).cause - ((winAt s e).cause &&& (mask - (mask &&& same))) ∧
        (winAt t e).causeEn = (winAt s e).causeEn ∧ (winAt t e).running = (winAt s e).running ∧ (winAt t e).rings = (winAt s e).rings ∧ others winAt e s t)) ∧
  (∀ (e off val : Nat) (word : Bool) (s : State), winOk e = true → ∃ t, exec (.registerWrite e off val word) s = .next t ∧
      (winLive s e = false → t = s) ∧ (winLive s e = true →
        (word = false ∨ off % 4 ≠ 0 → t = winError e 7 0 s) ∧ (word = true → off % 4 = 0 →
          (off = 0x010 → winAt t e = { winAt s e with causeEn := val % 64 } ∧ others winAt e s t) ∧ (off = 0x014 → winAt t e = { winAt s e with vec := val % 4096 } ∧ others winAt e s t) ∧
          (off = 0x018 → winAt t e = { winAt s e with mod := val % 65536 } ∧ others winAt e s t) ∧
          (∀ k, k < 3 → off = 0x100 + 32 * k ∨ off = 0x104 + 32 * k ∨ off = 0x108 + 32 * k → if (winAt s e).running = true then t = winError e 4 k s else
            others winAt e s t ∧ tget ring0 (winAt t e).rings k = (if off = 0x108 + 32 * k then { tget ring0 (winAt s e).rings k with log2 := val % 16 } else { tget ring0 (winAt s e).rings k with
              base := if off = 0x100 + 32 * k then (tget ring0 (winAt s e).rings k).base / 2 ^ 32 * 2 ^ 32 + val % 2 ^ 32 else (tget ring0 (winAt s e).rings k).base % 2 ^ 32 + val % 2 ^ 32 * 2 ^ 32 }))))) ∧
  (∀ (e v : Nat) (s : State), e < 64 ∧ v < 4 → ∃ t, exec (.interruptModerationEnd e v) s = .next t ∧
      (others winAt e s t ∧ winAt t e = if (tget vec0 (winAt s e).vecs v).deferred then { winAt s e with
        vecs := tput vec0 v { last := some s.tide.counter, deferred := false, sent := ((tget vec0 (winAt s e).vecs v).sent + 1) % 2 ^ 32 } (winAt s e).vecs } else winAt s e)) ∧
  (∀ (e k : Nat) (got : List Byte) (s : State), e < 64 ∧ k < 11 → ∃ t, exec (.dmaReadTimeout e k got) s = .next t ∧
      ((poundOfWin s e = none ∨ k = 1 ∨ k = 2 → t = s) ∧ (∀ p, poundOfWin s e = some p → (k = 0 → t = if canFetch s p e then truncated p got (takeSlotAt p e s) else s) ∧
        (3 ≤ k → t = dropDesc p k s ∧ (hringAt t (ringKey p (k - 3))).posted = (hringAt s (ringKey p (k - 3))).posted.drop 1)))) ∧
  (∀ (e k : Nat) (got : List Byte) (s : State), e < 64 ∧ k < 11 → ∃ t, exec (.dmaReadError e k got) s = .next t ∧
      ((poundOfWin s e = none ∨ k = 1 ∨ k = 2 → t = s) ∧ (∀ p, poundOfWin s e = some p →
        (k = 0 → (canFetch s p e = false → t = s) ∧ (∀ u, canFetch s p e = true → u = mbxError p 5 0 (pend p (takeSlotAt p e s)) → t = if hcrcOk got = true then reject p .eCheck got u else distrust p .eCheck got u)) ∧
        (3 ≤ k → t = mbxError p 5 k (dropDesc p k s) ∧ (hringAt t (ringKey p (k - 3))).posted = (hringAt s (ringKey p (k - 3))).posted.drop 1)))) ∧
  (∀ (e ring : Nat) (s : State), e < 64 ∧ ring < 11 → ∃ t, exec (.dmaWriteFailure e ring) s = .next t ∧
      ((poundOfWin s e = none → t = s) ∧ (∀ p, poundOfWin s e = some p → t = startReset p 4 (emitTransport p 0x11 (mbxError p 6 ring (modWin e (fun w => { w with dmaFault := true }) s))) ∧
        (inHandover s = false → (poundAt s p).state = .running → (poundAt t p).state = .resetting ∧ (poundAt t p).reason = 4)))) ∧
  (∀ (f : Nat) (s : State), f < 32 → ∃ t, exec (.functionLevelReset f) s = .next t ∧
      ((poundOfWin s f = none → t = s) ∧ (∀ p, poundOfWin s f = some p → t = startReset p 3 s ∧ (inHandover s = false → (poundAt s p).state = .running → (poundAt t p).state = .resetting ∧ (poundAt t p).reason = 3)))) ∧
  (∀ (p : Nat) (s : State), p < 32 → ∃ t, exec (.outboundDoorbell p) s = .next t ∧
      ((pThere s p = false → t = s) ∧ (pThere s p = true → (∀ e, winOf s p = some e → t = sendWindow p e s) ∧ (winOf s p = none → t = if (poundAt s p).kind = 2 then sendEth p s else s))))

/-- O52. COMMAND_FETCH gives the message of the slot at the head of the command ring to its pound, where the pound
may fetch. A tail write of a receive or transmit ring of a host pound moves the tail, records error 1 where it
names more than the ring holds, and, where the ring is on, adds the new descriptors behind those posted (or
takes back those retracted); a receive ring then takes what waits. A message that the transport delivers and
whose header does not check is received, and answered, as such. ETH_TRANSPORT_DATAGRAM takes the frame at the
front of the keeper's input and gives a datagram of an enabled interface to the Ethernet transport;
SEGMENT_TIMEOUT gives up the message being put together and answers it as truncated. A write on the SPI bus is
cut to its message: a short one and one whose header does not check set the SPI error and are received as such,
one with no slot free is answered E_BUSY, and any other is received; a byte gap ends the same way, and an
unknown instruction sets the SPI error and counts. -/
def Obligations.CommandsComeInOverEveryTransport : Prop :=
  (∀ (e : Nat) (b : List Byte) (s : State), winOk e = true → ∃ t, exec (.commandFetch e b) s = .next t ∧
      (poundOfWin s e = none → t = s) ∧ (∀ p, poundOfWin s e = some p → (canFetch s p e = false → t = s) ∧
        (canFetch s p e = true → (e < 32 → t = receive p (slotMessage b) (takeSlotAt p e s)) ∧
          (32 ≤ e → t = receive p (slotMessage (memBytes s.mem ((tget ring0 (winAt s e).rings 0).base + (tget ring0 (winAt s e).rings 0).head % ringSize (winAt s e) 0 * 4160) 4160)) (takeSlotAt p e s))))) ∧
  (∀ (e r tail : Nat) (l : List Desc) (s : State), e < 64 ∧ r < 4 → ∃ t, exec (.receiveRingPost e r tail l) s = .next t ∧
      (winLive s e = false → t = s) ∧ (winLive s e = true →
        (ringSize (winAt s e) (3 + r) < (tail % 65536 + 65536 - (tget ring0 (winAt s e).rings (3 + r)).head) % 65536 → t = winError e 1 (3 + r) s) ∧
        (∀ n b u, (tail % 65536 + 65536 - (tget ring0 (winAt s e).rings (3 + r)).head) % 65536 ≤ ringSize (winAt s e) (3 + r) →
          n = (tail % 65536 + 65536 - (tget ring0 (winAt s e).rings (3 + r)).head) % 65536 - used (tget ring0 (winAt s e).rings (3 + r)) →
          b = used (tget ring0 (winAt s e).rings (3 + r)) - (tail % 65536 + 65536 - (tget ring0 (winAt s e).rings (3 + r)).head) % 65536 →
          u = modWin e (modRing (3 + r) (fun g => { g with tail := tail % 65536 })) s →
          (poundOfWin s e = none → t = u) ∧ (∀ p, poundOfWin s e = some p → (ringOn s p r = false → t = u) ∧ (ringOn s p r = true → t = drainQueue p r (modHring (ringKey p r) (fun g => { g with posted := g.posted.take (g.posted.length - b) ++ l.take n }) u)))))) ∧
  (∀ (e r tail : Nat) (l : List Desc) (s : State), e < 64 ∧ 4 ≤ r ∧ r < 8 → ∃ t, exec (.transmitRingDoorbell e r tail l) s = .next t ∧
      (winLive s e = false → t = s) ∧ (winLive s e = true →
        (ringSize (winAt s e) (3 + r) < (tail % 65536 + 65536 - (tget ring0 (winAt s e).rings (3 + r)).head) % 65536 → t = winError e 1 (3 + r) s) ∧
        (∀ n b u, (tail % 65536 + 65536 - (tget ring0 (winAt s e).rings (3 + r)).head) % 65536 ≤ ringSize (winAt s e) (3 + r) →
          n = (tail % 65536 + 65536 - (tget ring0 (winAt s e).rings (3 + r)).head) % 65536 - used (tget ring0 (winAt s e).rings (3 + r)) →
          b = used (tget ring0 (winAt s e).rings (3 + r)) - (tail % 65536 + 65536 - (tget ring0 (winAt s e).rings (3 + r)).head) % 65536 →
          u = modWin e (modRing (3 + r) (fun g => { g with tail := tail % 65536 })) s →
          (poundOfWin s e = none → t = u) ∧ (∀ p, poundOfWin s e = some p → (ringOn s p r = false → t = u) ∧ (ringOn s p r = true → t = modHring (ringKey p r) (fun g => { g with posted := g.posted.take (g.posted.length - b) ++ l.take n }) u ∧
            (hringAt t (ringKey p r)).posted = (hringAt s (ringKey p r)).posted.take ((hringAt s (ringKey p r)).posted.length - b) ++ l.take n ∧ others hringAt (ringKey p r) s t))))) ∧
  (∀ (p : Nat) (b : List Byte) (s : State), p < 32 → ∃ t, exec (.desyncResponse p b) s = .next t ∧
      (s.fv.fw = false ∨ s.img.shut = true ∨ (poundAt s p).state ≠ .running ∨ (hcrcOk b = true ∧ 16 ≤ b.length) → t = s) ∧
        (s.fv.fw = true → s.img.shut = false → (poundAt s p).state = .running → hcrcOk b = false ∨ b.length < 16 → t = receive p b s)) ∧
  (∀ (s : State), ∃ t, exec (.ethTransportDatagram) s = .next t ∧
      (s.fv.fw = false ∨ s.img.shut = true ∨ s.net.keeperRx = [] → t = s) ∧ (∀ x r u, s.fv.fw = true → s.img.shut = false → s.net.keeperRx = x :: r → u = modNet (fun v => { v with keeperRx := r }) s →
        (datagramOf u x.f = none → t = u) ∧ (∀ d b, datagramOf u x.f = some (d, b) → t = datagram d b u))) ∧
  (∀ (p : Nat) (s : State), p < 32 → ∃ t, exec (.segmentTimeout p) s = .next t ∧
      ((pqAt s p).reasm = none → t = s) ∧ (∀ a, (pqAt s p).reasm = some a → t = truncated p a.bytes (modPq p (fun q => { q with reasm := none, asked := q.asked ++ [(leAt a.bytes 4 2, a.src)] }) s))) ∧
  (∀ (b : List Byte) (s : State), ∃ t, exec (.spiWrite b) s = .next t ∧
      (spiPound s = none → t = s) ∧ (∀ p, spiPound s = some p → ((poundAt s p).state ≠ .running ∨ s.fv.fw = false ∨ s.img.shut = true → t = s) ∧
        (∀ u, (poundAt s p).state = .running → s.fv.fw = true → s.img.shut = false → u = modPq p (fun q => { q with reserved := q.reserved + 1 }) s →
          (b.length < 16 → t = spiErr p (truncated p b u)) ∧ (16 ≤ b.length → hcrcOk b = false → t = spiErr p (receive p b u)) ∧
          (16 ≤ b.length → hcrcOk b = true → leAt b 6 2 ≤ 4080 → b.length < 20 + leAt b 6 2 → t = spiErr p (truncated p b u)) ∧
          (16 ≤ b.length → hcrcOk b = true → 4080 < leAt b 6 2 ∨ 20 + leAt b 6 2 ≤ b.length →
            t = if spiReady s p = false then reject p .eBusy (slotMessage b) (bumpPq p 6 (pend p u)) else receive p (slotMessage b) (if (headerCheck (slotMessage b)).isSome then spiErr p u else u))))) ∧
  (∀ (b : List Byte) (s : State), ∃ t, exec (.spiByteGap b) s = .next t ∧
      (spiPound s = none → t = s) ∧ (∀ p, spiPound s = some p → ((poundAt s p).state ≠ .running ∨ s.fv.fw = false ∨ s.img.shut = true → t = s) ∧
        (∀ u, (poundAt s p).state = .running → s.fv.fw = true → s.img.shut = false → u = modPq p (fun q => { q with reserved := q.reserved + 1 }) s →
          (b.length < 16 → t = spiErr p (truncated p b u)) ∧ (16 ≤ b.length → hcrcOk b = false → t = spiErr p (receive p b u)) ∧
          (16 ≤ b.length → hcrcOk b = true → leAt b 6 2 ≤ 4080 → b.length < 20 + leAt b 6 2 → t = spiErr p (truncated p b u)) ∧
          (16 ≤ b.length → hcrcOk b = true → 4080 < leAt b 6 2 ∨ 20 + leAt b 6 2 ≤ b.length →
            t = if spiReady s p = false then reject p .eBusy (slotMessage b) (bumpPq p 6 (pend p u)) else receive p (slotMessage b) (if (headerCheck (slotMessage b)).isSome then spiErr p u else u))))) ∧
  (∀ (s : State), ∃ t, exec (.spiUnknownInstruction) s = .next t ∧
      (s.pwr.keeper = false ∨ spiPound s = none → t = s) ∧ (∀ p, s.pwr.keeper = true → spiPound s = some p → t = spiErr p (bumpPq p 5 s) ∧ (pqAt t p).spi.err = true))

/-- O53. For a request that reaches its object (Heard: R396 steps 1 to 9): a GET answers the bytes of the record
asked for, with what reading them does, or the refusal; reading a pulse input empties its FIFO. A SUB that
passes answers its number and adds exactly its subscription, else it answers the refusal and adds none; a SUB to
the wire telemetry adds at most its own. An UNSUB takes out the subscription of that number that the pound may
name, or answers E_RANGE. A LIST answers the first of the objects from the number asked that exist and the pound
may use. A suppression window that closes with no event withheld ends; with one withheld its last event is
placed and a new window opens. The 10 ms window's end sets every pound's event count to 0. A pound's reset
completes: an Ethernet or SPI pound may run, any other stops, its subscriptions end and its frames leave. A
removed pound's ownership passes. -/
def Obligations.RequestsThatReadAndSubscribe : Prop :=
  (∀ (r : Req) (s : State), Heard timeClass 1 r s → ∃ t, exec (.tideInRead r) s = .next t ∧
      (rng 0x20 0x21 r.inst = true → (∀ bs, getBytes timeClass r (received r.pound s) = .ok bs →
          t = answer 0x03 1 r .ok none bs (modTin (r.inst - 0x20) (fun x => if leAt r.payload 0 1 = 0 then { x with fifo := [], reported := false } else x) (accepted r.pound (received r.pound s))) ∧
          tinAt t (r.inst - 0x20) = if leAt r.payload 0 1 = 0 then { tinAt s (r.inst - 0x20) with fifo := [], reported := false } else tinAt s (r.inst - 0x20)) ∧
        (∀ st, getBytes timeClass r (received r.pound s) = .error st → t = answer 0x03 1 r st none [] (received r.pound s))) ∧
      (rng 0x20 0x21 r.inst = false → t = doGet timeClass r (received r.pound s))) ∧
  (∀ (cls : Nat) (r : Req) (s : State), Heard (classOf cls) 1 r s → ∃ t, exec (.favalGet cls r) s = .next t ∧
      ((classOf cls).code ≠ 0x03 → (∀ bs, getBytes (classOf cls) r (received r.pound s) = .ok bs → t = ((classOf cls)).onRead r.inst (leAt r.payload 0 1) (leAt r.payload 2 2) bs.length (answer ((classOf cls)).code 1 r .ok none bs (accepted r.pound (received r.pound s)))) ∧
        (∀ st, getBytes (classOf cls) r (received r.pound s) = .error st → t = answer ((classOf cls)).code 1 r st none [] (received r.pound s))) ∧
      ((classOf cls).code = 0x03 → t = timeGetBody r (received r.pound s))) ∧
  (∀ (cls : Nat) (r : Req) (s : State), Heard (classOf cls) 4 r s → ∃ t, exec (.favalSub cls r) s = .next t ∧
      ((classOf cls).code ≠ 0x11 → (orLate (classOf cls) 4 r (received r.pound s) (subStatus (classOf cls) r (received r.pound s)) = .ok →
          t = answer ((classOf cls)).code 4 r .ok none (leBytes 2 (newSub (received r.pound s))) (accepted r.pound (addSub (classOf cls) r (received r.pound s)).2) ∧
          t.fv.subs = s.fv.subs ++ [{ id := newSub (received r.pound s), pound := r.pound, first := r.tow * 2 ^ 26 + ((classOf cls)).code * 2 ^ 18 + r.inst, count := (subAsked (classOf cls) r).1, mask := (subAsked (classOf cls) r).2 }]) ∧
        (∀ st, orLate (classOf cls) 4 r (received r.pound s) (subStatus (classOf cls) r (received r.pound s)) = st → st ≠ .ok → t = answer ((classOf cls)).code 4 r st none [] (received r.pound s) ∧ t.fv.subs = s.fv.subs)) ∧
      ((classOf cls).code = 0x11 → t = wireSubBody r (received r.pound s))) ∧
  (∀ (r : Req) (s : State), Heard wireClass 4 r s → ∃ t, exec (.wireSub r) s = .next t ∧
      (r.inst ≠ 0x300 → (orLate wireClass 4 r (received r.pound s) (subStatus wireClass r (received r.pound s)) = .ok →
          t = answer (wireClass).code 4 r .ok none (leBytes 2 (newSub (received r.pound s))) (accepted r.pound (addSub wireClass r (received r.pound s)).2) ∧
          t.fv.subs = s.fv.subs ++ [{ id := newSub (received r.pound s), pound := r.pound, first := r.tow * 2 ^ 26 + (wireClass).code * 2 ^ 18 + r.inst, count := (subAsked wireClass r).1, mask := (subAsked wireClass r).2 }]) ∧
        (∀ st, orLate wireClass 4 r (received r.pound s) (subStatus wireClass r (received r.pound s)) = st → st ≠ .ok → t = answer (wireClass).code 4 r st none [] (received r.pound s) ∧ t.fv.subs = s.fv.subs)) ∧
      (r.inst = 0x300 → t = teleSub r (received r.pound s) ∧ (t.slu.subs = s.slu.subs ∨ ∃ x, t.slu.subs = s.slu.subs ++ [x] ∧ x.pound = r.pound ∧ x.kind = leAt r.payload 0 1 ∧ x.every = leAt r.payload 2 2 ∧ x.offset = leAt r.payload 4 2 ∧ x.mask = leAt r.payload 8 10))) ∧
  (∀ (cls : Nat) (r : Req) (s : State), Heard (classOf cls) 5 r s → ∃ t, exec (.favalUnsub cls r) s = .next t ∧
      (∀ u, u = received r.pound s → leAt r.payload 2 2 = 0 → late (classOf cls) 5 r u = .ok →
        (∀ b, u.fv.subs.find? (fun b => decide (b.id = leAt r.payload 0 2) && decide (b.pound = r.pound ∨ r.pound = 0)) = some b → b.remote = none →
          t = answer (classOf cls).code 5 r .ok none [] (accepted r.pound (modFv (fun v => { v with subs := v.subs.erase b }) u)) ∧ t.fv.subs = s.fv.subs.erase b) ∧
        (u.fv.subs.find? (fun b => decide (b.id = leAt r.payload 0 2) && decide (b.pound = r.pound ∨ r.pound = 0)) = none →
          (∀ b, u.slu.subs.find? (fun b => decide (b.id = leAt r.payload 0 2) && decide (b.pound = r.pound ∨ r.pound = 0)) = some b → t.fv.subs = s.fv.subs ∧ t.slu.subs = s.slu.subs.erase b) ∧
          (u.slu.subs.find? (fun b => decide (b.id = leAt r.payload 0 2) && decide (b.pound = r.pound ∨ r.pound = 0)) = none → t = answer (classOf cls).code 5 r .eRange none [] u)))) ∧
  (∀ (cls : Nat) (r : Req) (s : State), Heard (classOf cls) 6 r s → ∃ t, exec (.favalList cls r) s = .next t ∧
      (∀ u l first max, u = received r.pound s → first = leAt r.payload 0 4 → max = leAt r.payload 4 2 →
        l = (classOf cls).all.filter (fun i => decide (first ≤ i) && (classOf cls).there u i && holds u r.pound (r.tow * 2 ^ 26 + (classOf cls).code * 2 ^ 18 + i)) →
        (2 ^ 18 ≤ first ∨ max = 0 ∨ 1019 < max ∨ leAt r.payload 6 2 ≠ 0 → t = answer (classOf cls).code 6 r .eRange none [] u) ∧
        (first < 2 ^ 18 → 0 < max → max ≤ 1019 → leAt r.payload 6 2 = 0 → late (classOf cls) 6 r u = .ok → t = answer (classOf cls).code 6 r .ok none
          (leBytes 2 (l.take max).length ++ leBytes 2 (b2n (decide (max < l.length))) ++ (l.take max).flatMap (fun i => leBytes 4 (r.tow * 2 ^ 26 + (classOf cls).code * 2 ^ 18 + i))) (accepted r.pound u)))) ∧
  (∀ (p code handle : Nat) (s : State), p < 32 → ∃ t, exec (.suppressionWindowClose p code handle) s = .next t ∧
      (s.fv.rateWins.find? (fun w => decide (w.pound = p ∧ w.code = code ∧ w.handle = handle)) = none → t = s) ∧
      (∀ w l, s.fv.rateWins.find? (fun w => decide (w.pound = p ∧ w.code = code ∧ w.handle = handle)) = some w →
        l = s.fv.rateWins.filter (fun x => decide (¬(x.pound = w.pound ∧ x.code = w.code ∧ x.handle = w.handle))) →
        (w.last = none → t = modFv (fun v => { v with rateWins := l }) s) ∧
        (∀ e, w.last = some e → t = place w.pound { e with supp := sat 16 (w.withheld - 1) } (modFv (fun v => { v with rateWins := l ++ [{ pound := w.pound, code := w.code, handle := w.handle }] }) s)))) ∧
  (∀ (s : State), ∃ t, exec (.eventRateWindow) s = .next t ∧
      (∀ p, p < 32 → pqAt t p = { pqAt s p with rateCount := 0 }) ∧ (∀ p, 32 ≤ p → pqAt t p = pqAt s p)) ∧
  (∀ (p : Nat) (s : State), p < 32 → ∃ t, exec (.poundResetComplete p) s = .next t ∧
      ((poundAt s p).state ≠ .resetting → t = s) ∧ ((poundAt s p).state = .resetting → t = completeReset p s ∧ (poundAt t p).kind = (poundAt s p).kind ∧
        ((poundAt t p).state = .stopped ∨ ((poundAt t p).state = .running ∧ ((poundAt s p).kind = 2 ∨ (poundAt s p).kind = 3))) ∧ others poundAt p s t ∧
        t.fv.subs = s.fv.subs.filter (fun b => decide (b.pound ≠ p)) ∧ hostqAt t p = [])) ∧
  (∀ (p : Nat) (s : State), p < 32 → ∃ t, exec (.ownershipTransfer p) s = .next t ∧
      (if (pqAt s p).purgeDue = true then (poundAt t p).state = .removed ∧ (poundAt t p).objs = [] ∧ (poundAt t p).resets = (poundAt s p).resets ∧ others poundAt p s t ∧
        (pqAt t p).purgeDue = false ∧ (pqAt t p).removing = false ∧ others pqAt p s t else t = s))

/-- O54. TOWLINE_LINK_UP on an enabled port whose link is down or was lost takes the link up with full credit,
reports it, tells the other end a repaired break, and sends what waits; a standalone device, a disabled port,
and one that is up already change nothing. TOWLINE_LINK_DOWN takes a link that is up to down, breaks a whole
ring and touches no other link. A frame cut off on a link that is up counts once, and once more where noise cut
it; a barge answers the command in it E_TRUNC. The resequencer's wait releases every frame it holds; the end of
a credit's wait sends the owed credit in a BEAT; a barge whose load failed is loaded again. The second
enumeration goes out once; the repeat ends an enumeration that has heard both ends and begins the next round. A
link that healed reverts: its edge is gone, and a ring with no broken edge left is whole again, blocked at the
tug's second port. -/
def Obligations.TowlineLinksAndEnumeration : Prop :=
  (∀ (x : Nat) (s : State), x < 2 → ∃ t, exec (.towlineLinkUp x) s = .next t ∧
      (s.sys.role = .standalone ∨ (tpAt s x).link = 1 ∨ (tpAt s x).link = 2 ∨ (tpAt s x).en = false → t = s) ∧
      (∀ u, ¬(s.sys.role = .standalone ∨ (tpAt s x).link = 1 ∨ (tpAt s x).link = 2 ∨ (tpAt s x).en = false) →
        u = emit 0x4005 (0x40 + x) (modTpt x (fun t => { t with link := 1, linkCycle := s.cyc.number, credit := [(0, vcGrant 0), (1, vcGrant 1), (2, vcGrant 2)], owed := [], reserve := 0 }) s) (cause := x) (flags := 1) →
        (tpAt t x).link = 1 ∧ (∀ y, y ≠ x → (tpAt t y).link = (tpAt s y).link) ∧ t.tow.topology = s.tow.topology ∧
        ((tpAt s x).edge ≠ some s.sys.tow → t = pump x u) ∧
        ((tpAt s x).edge = some s.sys.tow → t = pump x (sendBeat (otherPort x) s.sys.tow 0 { op := 4, aux1 := 1, aux2 := s.sys.tow, aux3 := x } (modTpt x (fun t => { t with healed := true }) u))))) ∧
  (∀ (x : Nat) (s : State), x < 2 → ∃ t, exec (.towlineLinkDown x) s = .next t ∧
      ((tpAt s x).link ≠ 1 → t = s) ∧ ((tpAt s x).link = 1 → t = linkDown x 0 s ∧ (tpAt t x).link = 0 ∧ (∀ y, y ≠ x → (tpAt t y).link = (tpAt s y).link) ∧ t.tow.topology = if s.tow.topology = 2 then 3 else s.tow.topology)) ∧
  (∀ (x : Nat) (noise : Bool) (cmd : Option (Nat × Nat × Req)) (s : State), x < 2 → ∃ t, exec (.towlineFrameGap x noise cmd) s = .next t ∧
      (s.sys.role = .standalone ∨ (tpAt s x).link ≠ 1 → t = s) ∧ (∀ u, s.sys.role ≠ .standalone → (tpAt s x).link = 1 → u = (if noise then countTow x 7 1 (countTow x 6 1 s) else countTow x 6 1 s) →
        (cmd = none ∨ s.sys.role ≠ .barge ∨ s.fv.fw = false → t = u) ∧ (∀ cls verb r, cmd = some (cls, verb, r) → s.sys.role = .barge → s.fv.fw = true → t = answer cls verb { r with posted := false, payload := [] } .eTrunc none [] u) ∧ t.tow = u.tow)) ∧
  (∀ (src v : Nat) (s : State), src < 64 ∧ v < 2 → ∃ t, exec (.towlineReseqTimeout src v) s = .next t ∧
      ((towReseqAt s (4 * src + v)).held = [] → t = s) ∧ ((towReseqAt s (4 * src + v)).held ≠ [] → t = bargeFlush (towReleaseAll (4 * src + v) s))) ∧
  (∀ (x : Nat) (s : State), x < 2 → ∃ t, exec (.creditWaitExpiry x) s = .next t ∧
      (owedNext (tpAt s x) = none ∨ (tpAt s x).link ≠ 1 → t = s) ∧ (owedNext (tpAt s x) ≠ none → t = sendBeat x s.sys.tow 0 { op := 5 } s)) ∧
  (∀ (a : Nat) (s : State), rng 1 63 a = true → ∃ t, exec (.bargeLoadRetry a) s = .next t ∧
      (if s.sys.role = .tug ∧ (bargeAt s a).state = 6 ∧ (bargeAt s a).lost = false then t = startLoad a s ∧ (bargeAt t a).state = 2 else t = s)) ∧
  (∀ (s : State), ∃ t, exec (.enumTbDelay) s = .next t ∧
      (¬(s.sys.role = .tug ∧ s.tow.tbSent = false ∧ (s.tow.enumerating = true ∨ s.tow.topology ≠ 0)) → t = s) ∧ (s.sys.role = .tug → s.tow.tbSent = false → s.tow.enumerating = true ∨ s.tow.topology ≠ 0 →
        t = enumCheck (sendEnum 1 (modTow (fun t => { t with tbSent := true }) s)) ∧ (s.tow.enumerating = false → t.tow.tbSent = true ∧ t.tow.topology = s.tow.topology))) ∧
  (∀ (s : State), ∃ t, exec (.enumRepeat) s = .next t ∧
      (s.sys.role ≠ .tug ∨ s.fv.started = false ∨ (s.tow.enumerating = true ∧ s.tow.tbSent = false) → t = s) ∧ (∀ u, s.sys.role = .tug → s.fv.started = true → s.tow.enumerating = false ∨ s.tow.tbSent = true →
        u = (if s.tow.enumerating then enumFinish s else s) → (u.tow.enumerating = true → t = u) ∧ (u.tow.enumerating = false → t = sendEnum 0 (modTow (fun t => { t with tbSent := false }) u) ∧ t.tow.tbSent = false))) ∧
  (∀ (x : Nat) (s : State), x < 2 → ∃ t, exec (.revertHoldEnd x) s = .next t ∧
      ((tpAt s x).healed = false → t = s) ∧ ((tpAt s x).healed = true → (tpAt t x).edge = none ∧ (tpAt t x).healed = false ∧ (tpAt t x).link = (tpAt s x).link ∧ (tpAt t (otherPort x)).edge = (tpAt s (otherPort x)).edge ∧
        t.tow.topology = (if s.tow.topology = 3 ∧ (tpAt s (otherPort x)).edge = none then 2 else s.tow.topology) ∧
        (s.tow.topology = 3 → (tpAt s (otherPort x)).edge = none → s.sys.role = .tug → (tpAt t 1).blocked = true)))

/-- O55. On a port whose link is down and on a standalone device nothing arrives. A DATA, FAVAL, POST, NOTE or LATE
frame with a wrong trailer only counts and owes its cells; one with a bad header or a body too long counts and
owes its cells; a good one counts, brings its credit and lets waiting frames go, is dropped after 63 hops, and
is otherwise taken or passed on with one hop more, after the upstream rule for a full VC0; what a barge then has
to answer leaves. A BEAT of one operation does what R503 to R511 say by role: the tug hears a barge's BEAT and a
barge relays or follows the tug's; ENUM is answered and passed on, or ends the tug's round of a ring, or finds a
peer; an ENUM_ACK is collected; an ASSIGN gives an answered barge its address, topology and counts; a TOPO marks
the broken or healed edge and breaks a ring; a CREDIT brings only its credit. -/
def Obligations.TowlineFramesThatArrive : Prop :=
  (∀ (x chk : Nat) (f : TowFrame) (s : State), x < 2 → ∃ t, exec (.dataFrameReceived x chk f) s = .next t ∧
      ((match f.body with | .eth .. => true | .record .. => true | _ => false) = false ∨ s.sys.role = .standalone ∨ (tpAt s x).link ≠ 1 → t = s) ∧
      ((match f.body with | .eth .. => true | .record .. => true | _ => false) = true → s.sys.role ≠ .standalone → (tpAt s x).link = 1 →
        (chk = 1 → t = owe x f.vc (towCells f) (badTrailer x s)) ∧ (chk ≠ 1 → chk ≠ 0 ∨ bodyMax f.body < bodyLen f.body → t = owe x f.vc (towCells f) (countTow x 5 1 s)) ∧
        (chk = 0 → bodyLen f.body ≤ bodyMax f.body → ∀ u, u = pump x (takeCredit x f.crVc f.crCells (countTow x 3 (towBytes f) (countTow x 2 1 s))) →
          (63 < f.hops + 1 → t = owe x f.vc (towCells f) (countTow x 8 1 u)) ∧
          (f.hops + 1 ≤ 63 → t = bargeFlush (towTake x { f with hops := f.hops + 1, via := some x, bad := false } (if f.vc = 0 ∧ (tpAt u x).backedOff = false ∧ upstream u x = false ∧ (tpAt u x).wait.any (fun g => decide (g.vc = 0)) = true then
            countTow x 9 1 (modTpt x (fun t => { t with backedOff := true }) u) else u)))))) ∧
  (∀ (x chk : Nat) (f : TowFrame) (s : State), x < 2 → ∃ t, exec (.favalFrameReceived x chk f) s = .next t ∧
      ((match f.body with | .cmd _ _ r => !r.posted | .rsp _ => true | .chart .. => true | _ => false) = false ∨ s.sys.role = .standalone ∨ (tpAt s x).link ≠ 1 → t = s) ∧
      ((match f.body with | .cmd _ _ r => !r.posted | .rsp _ => true | .chart .. => true | _ => false) = true → s.sys.role ≠ .standalone → (tpAt s x).link = 1 →
        (chk = 1 → t = owe x f.vc (towCells f) (badTrailer x s)) ∧ (chk ≠ 1 → chk ≠ 0 ∨ bodyMax f.body < bodyLen f.body → t = owe x f.vc (towCells f) (countTow x 5 1 s)) ∧
        (chk = 0 → bodyLen f.body ≤ bodyMax f.body → ∀ u, u = pump x (takeCredit x f.crVc f.crCells (countTow x 3 (towBytes f) (countTow x 2 1 s))) →
          (63 < f.hops + 1 → t = owe x f.vc (towCells f) (countTow x 8 1 u)) ∧
          (f.hops + 1 ≤ 63 → t = bargeFlush (towTake x { f with hops := f.hops + 1, via := some x, bad := false } (if f.vc = 0 ∧ (tpAt u x).backedOff = false ∧ upstream u x = false ∧ (tpAt u x).wait.any (fun g => decide (g.vc = 0)) = true then
            countTow x 9 1 (modTpt x (fun t => { t with backedOff := true }) u) else u)))))) ∧
  (∀ (x chk : Nat) (f : TowFrame) (bad : Bool) (s : State), x < 2 → ∃ t, exec (.postFrameReceived x chk f bad) s = .next t ∧
      ((match f.body with | .cmd _ _ r => r.posted | .block _ _ => true | _ => false) = false ∨ s.sys.role = .standalone ∨ (tpAt s x).link ≠ 1 → t = s) ∧
      ((match f.body with | .cmd _ _ r => r.posted | .block _ _ => true | _ => false) = true → s.sys.role ≠ .standalone → (tpAt s x).link = 1 →
        (chk = 1 → t = owe x f.vc (towCells f) (badTrailer x s)) ∧ (chk ≠ 1 → chk ≠ 0 ∨ bodyMax f.body < bodyLen f.body → t = owe x f.vc (towCells f) (countTow x 5 1 s)) ∧
        (chk = 0 → bodyLen f.body ≤ bodyMax f.body → ∀ u, u = pump x (takeCredit x f.crVc f.crCells (countTow x 3 (towBytes f) (countTow x 2 1 s))) →
          (63 < f.hops + 1 → t = owe x f.vc (towCells f) (countTow x 8 1 u)) ∧
          (f.hops + 1 ≤ 63 → t = bargeFlush (towTake x { f with hops := f.hops + 1, via := some x, bad := bad } (if f.vc = 0 ∧ (tpAt u x).backedOff = false ∧ upstream u x = false ∧ (tpAt u x).wait.any (fun g => decide (g.vc = 0)) = true then
            countTow x 9 1 (modTpt x (fun t => { t with backedOff := true }) u) else u)))))) ∧
  (∀ (x chk : Nat) (f : TowFrame) (s : State), x < 2 → ∃ t, exec (.noteFrameReceived x chk f) s = .next t ∧
      ((match f.body with | .note _ => true | _ => false) = false ∨ s.sys.role = .standalone ∨ (tpAt s x).link ≠ 1 → t = s) ∧
      ((match f.body with | .note _ => true | _ => false) = true → s.sys.role ≠ .standalone → (tpAt s x).link = 1 →
        (chk = 1 → t = owe x f.vc (towCells f) (badTrailer x s)) ∧ (chk ≠ 1 → chk ≠ 0 ∨ bodyMax f.body < bodyLen f.body → t = owe x f.vc (towCells f) (countTow x 5 1 s)) ∧
        (chk = 0 → bodyLen f.body ≤ bodyMax f.body → ∀ u, u = pump x (takeCredit x f.crVc f.crCells (countTow x 3 (towBytes f) (countTow x 2 1 s))) →
          (63 < f.hops + 1 → t = owe x f.vc (towCells f) (countTow x 8 1 u)) ∧
          (f.hops + 1 ≤ 63 → t = bargeFlush (towTake x { f with hops := f.hops + 1, via := some x, bad := false } (if f.vc = 0 ∧ (tpAt u x).backedOff = false ∧ upstream u x = false ∧ (tpAt u x).wait.any (fun g => decide (g.vc = 0)) = true then
            countTow x 9 1 (modTpt x (fun t => { t with backedOff := true }) u) else u)))))) ∧
  (∀ (x chk : Nat) (f : TowFrame) (s : State), x < 2 → ∃ t, exec (.lateFrameReceived x chk f) s = .next t ∧
      ((match f.body with | .late .. => true | _ => false) = false ∨ s.sys.role = .standalone ∨ (tpAt s x).link ≠ 1 → t = s) ∧
      ((match f.body with | .late .. => true | _ => false) = true → s.sys.role ≠ .standalone → (tpAt s x).link = 1 →
        (chk = 1 → t = owe x f.vc (towCells f) (badTrailer x s)) ∧ (chk ≠ 1 → chk ≠ 0 ∨ bodyMax f.body < bodyLen f.body → t = owe x f.vc (towCells f) (countTow x 5 1 s)) ∧
        (chk = 0 → bodyLen f.body ≤ bodyMax f.body → ∀ u, u = pump x (takeCredit x f.crVc f.crCells (countTow x 3 (towBytes f) (countTow x 2 1 s))) →
          (63 < f.hops + 1 → t = owe x f.vc (towCells f) (countTow x 8 1 u)) ∧
          (f.hops + 1 ≤ 63 → t = bargeFlush (towTake x { f with hops := f.hops + 1, via := some x, bad := false } (if f.vc = 0 ∧ (tpAt u x).backedOff = false ∧ upstream u x = false ∧ (tpAt u x).wait.any (fun g => decide (g.vc = 0)) = true then
            countTow x 9 1 (modTpt x (fun t => { t with backedOff := true }) u) else u)))))) ∧
  (∀ (x chk : Nat) (f : TowFrame) (locked : Bool) (s : State), x < 2 → ∃ t, exec (.beatReceived x chk f locked) s = .next t ∧
      ((∀ b, f.body = .beat b → b.op ≠ 0) ∨ s.sys.role = .standalone ∨ (tpAt s x).link ≠ 1 → t = s) ∧ (∀ b, f.body = .beat b → b.op = 0 →
        (∀ u, beatArrive x chk f s = (none, u) → t = u) ∧ (∀ g u, beatArrive x chk f s = (some (g, b), u) → (s.sys.role = u.sys.role → (s.sys.role = .tug → t = if b.up = true ∧ rng 1 63 g.src = true then bargeBeat g.src b locked u else u) ∧
          (s.sys.role = .barge → b.up = true → t = if x = tugPort u then u else sendBeat (otherPort x) g.src g.hops b u) ∧
          (s.sys.role = .barge → b.up = false → x ≠ tugPort u → t = u) ∧
          (∀ v, s.sys.role = .barge → b.up = false → x = tugPort u → v = (if u.fv.fw then tugBeat x b u else u) → t = sendBeat (otherPort x) g.src g.hops { b with corr := b.corr + 65536 * linkDelay (tpAt v x) } v))))) ∧
  (∀ (x chk : Nat) (f : TowFrame) (peer quiet : Bool) (s : State), x < 2 → ∃ t, exec (.enumReceived x chk f peer quiet) s = .next t ∧
      ((∀ b, f.body = .beat b → b.op ≠ 1) ∨ s.sys.role = .standalone ∨ (tpAt s x).link ≠ 1 → t = s) ∧ (∀ b, f.body = .beat b → b.op = 1 →
        (∀ u, beatArrive x chk f s = (none, u) → t = u) ∧ (∀ g u, beatArrive x chk f s = (some (g, b), u) → (u.sys.role = .tug → (peer = true → t = emit 0x4001 (0x40 + x) (linkDown x 2 u) (cause := x)) ∧
            (peer = false → x = 1 → b.aux1 = 0 → u.tow.enumerating = true → t = enumCheck (modTow (fun t => { t with ringHops := g.hops }) u)) ∧
            (peer = false → ¬(x = 1 ∧ b.aux1 = 0 ∧ u.tow.enumerating = true) → t = u)) ∧
          (∀ v, u.sys.role = .barge → ¬(u.tow.answered = true ∧ x ≠ u.tow.upPort ∧ (tpAt u u.tow.upPort).link = 1 ∧ (tpAt u u.tow.upPort).edge = none) →
            v = (if u.fv.started = true ∧ u.tow.answered = true then u else modTow (fun t => { t with answered := true, upPort := x, upHops := g.hops, upSide := decide (b.aux1 = 1) }) u) →
            t = sendBeat (otherPort x) g.src g.hops b (sendBeat x v.sys.tow 0 { op := 2, up := true, ready := towReady v, last := quiet && decide ((tpAt v (otherPort x)).link ≠ 1), aux2 := g.hops, identity := Config.identity } v)) ∧
          (u.sys.role = .barge → u.tow.answered = true ∧ x ≠ u.tow.upPort ∧ (tpAt u u.tow.upPort).link = 1 ∧ (tpAt u u.tow.upPort).edge = none → t = u)))) ∧
  (∀ (x chk : Nat) (f : TowFrame) (s : State), x < 2 → ∃ t, exec (.enumAckReceived x chk f) s = .next t ∧
      ((∀ b, f.body = .beat b → b.op ≠ 2) ∨ s.sys.role = .standalone ∨ (tpAt s x).link ≠ 1 → t = s) ∧ (∀ b, f.body = .beat b → b.op = 2 →
        (∀ u, beatArrive x chk f s = (none, u) → t = u) ∧ (∀ g u, beatArrive x chk f s = (some (g, b), u) → (u.sys.role = .barge → t = sendBeat (otherPort x) g.src g.hops b u) ∧ (u.sys.role = .tug →
            t = if u.tow.enumerating = true then enumCheck (modTow (fun t => { t with acks := t.acks ++ [(x, b.aux2, b.identity, b.last)] }) u) else ackRunning x b.aux2 b.identity b.ready u)))) ∧
  (∀ (x chk : Nat) (f : TowFrame) (s : State), x < 2 → ∃ t, exec (.assignReceived x chk f) s = .next t ∧
      ((∀ b, f.body = .beat b → b.op ≠ 3) ∨ s.sys.role = .standalone ∨ (tpAt s x).link ≠ 1 → t = s) ∧ (∀ b, f.body = .beat b → b.op = 3 →
        (∀ u, beatArrive x chk f s = (none, u) → t = u) ∧ (∀ g u, beatArrive x chk f s = (some (g, b), u) → (u.sys.role ≠ .barge → t = u) ∧ (u.sys.role = .barge → (u.tow.answered = false → t = sendBeat (otherPort x) g.src g.hops b u) ∧ (u.tow.answered = true → t.tow.topology = b.aux1 ∧ t.tow.taCount = b.aux2 ∧ t.tow.found = b.aux3 ∧
            t.sys = { u.sys with tow := if b.aux1 = 2 ∨ u.tow.upSide = false then u.tow.upHops else b.aux2 + u.tow.upHops }))))) ∧
  (∀ (x chk : Nat) (f : TowFrame) (s : State), x < 2 → ∃ t, exec (.topoReceived x chk f) s = .next t ∧
      ((∀ b, f.body = .beat b → b.op ≠ 4) ∨ s.sys.role = .standalone ∨ (tpAt s x).link ≠ 1 → t = s) ∧ (∀ b, f.body = .beat b → b.op = 4 →
        (∀ u, beatArrive x chk f s = (none, u) → t = u) ∧ (∀ g u, beatArrive x chk f s = (some (g, b), u) → (∀ v near, v = sendBeat (otherPort x) g.src g.hops b u → (∀ e, (tpAt v x).edge = some e → near = decide ((along v x).idxOf b.aux2 ≤ (along v x).idxOf e)) → ((tpAt v x).edge = none → near = true) →
            (b.aux1 = 0 → t = lostLoads (ringBroken (if near then modTpt x (fun t => { t with edge := some b.aux2, healed := false }) v else v)) ∧ t.tow.topology = if u.tow.topology = 2 then 3 else u.tow.topology) ∧
            (b.aux1 ≠ 0 → t = if (tpAt v x).edge = some b.aux2 then modTpt x (fun t => { t with healed := true }) v else v))))) ∧
  (∀ (x chk : Nat) (f : TowFrame) (s : State), x < 2 → ∃ t, exec (.creditReceived x chk f) s = .next t ∧
      ((∀ b, f.body = .beat b → b.op ≠ 5) ∨ s.sys.role = .standalone ∨ (tpAt s x).link ≠ 1 → t = s) ∧ (∀ b, f.body = .beat b → b.op = 5 →
        (∀ u, beatArrive x chk f s = (none, u) → t = u) ∧ (∀ g u, beatArrive x chk f s = (some (g, b), u) → t = u)))

/-- O56. A barge with firmware that has missed more than 8 beats and is not stranded yet is stranded, with its hold
running and 0x055 detected; in any other state the command changes nothing. The tug takes a running or rejoined
barge of more than 8 missed beats as stranded and gives up what was posted to it in the last 8 cycles. The end
of the hold sets the Towpath's cause STRAND. A relayed command that is not answered in time is forgotten and,
where a pound waits, answered E_TIMEOUT. A resynchronisation whose leaving cycle was not found in time is
answered E_TIMEOUT. At its end a barge is no longer stranded, clears its count of dropped events and sends what
waits; the tug, at the cycle set, takes the barge as running, adds the events it dropped and answers the
command. -/
def Obligations.StrandingAndItsEnd : Prop :=
  (∀ (s : State), ∃ t, exec (.bargeStranded) s = .next t ∧
      (if s.sys.role = .barge ∧ s.fv.fw = true ∧ s.tow.stranded = false ∧ 8 < s.tow.missed then t.tow = { s.tow with stranded := true, holdOn := true } ∧ t = detect 0x055 false (modTow (fun t => { t with stranded := true, holdOn := true }) s) else t = s)) ∧
  (∀ (a : Nat) (s : State), rng 1 63 a = true → ∃ t, exec (.tugStrandDeclare a) s = .next t ∧
      (if s.sys.role = .tug ∧ (bargeAt s a).state ∈ [3, 5] ∧ 8 < (bargeAt s a).missed then (bargeAt t a).state = 4 ∧ (bargeAt t a).beats = 0 ∧ (bargeAt t a).stateCycle = s.cyc.number ∧
        (bargeAt t a).posted = (bargeAt s a).posted.filter (fun p => !decide (s.cyc.number ≤ p.cycle + 8)) ∧ others bargeAt a s t else t = s)) ∧
  (∀ (s : State), ∃ t, exec (.strandHoldEnd) s = .next t ∧
      (if s.sys.role = .barge ∧ s.tow.holdOn = true then t.tow = { s.tow with holdOn := false } ∧ t = tpSet 4 (modTow (fun t => { t with holdOn := false }) s) else t = s)) ∧
  (∀ (a tag : Nat) (s : State), rng 1 63 a = true → ∃ t, exec (.relayTimeout a tag) s = .next t ∧
      ((bargeAt s a).out.find? (fun r => decide (r.tag = tag)) = none → t = s) ∧ (∀ q, (bargeAt s a).out.find? (fun r => decide (r.tag = tag)) = some q →
        bargeAt t a = { bargeAt s a with out := (bargeAt s a).out.erase q } ∧ others bargeAt a s t ∧
        (q.sub = none → t = if q.own = true ∨ q.mute = true then modBarge a (fun b => { b with out := b.out.erase q }) s else answer q.cls q.verb q.req .eTimeout none [] (modBarge a (fun b => { b with out := b.out.erase q }) s)) ∧
        (∀ id, q.sub = some id → t.fv.subs = s.fv.subs.filter (fun b => decide (b.id ≠ id))))) ∧
  (∀ (a : Nat) (s : State), rng 1 63 a = true → ∃ t, exec (.resyncTimeout a) s = .next t ∧
      ((bargeAt s a).leaveAt ≠ none ∨ (bargeAt s a).resync = none → t = s) ∧ ((bargeAt s a).leaveAt = none → t = resyncAnswer a .eTimeout s ∧ (bargeAt t a).resync = none)) ∧
  (∀ (a dropped : Nat) (s : State), rng 1 63 a = true → ∃ t, exec (.resyncExit a dropped) s = .next t ∧
      (s.sys.role = .standalone → t = s) ∧ (s.sys.role = .barge → (s.tow.stranded = false → t = s) ∧
        (s.tow.stranded = true → t = bargeFlush (tpClear 4 (modTow (fun t => { t with stranded := false, holdOn := false, evtDropped := 0 }) s)))) ∧
      (s.sys.role = .tug → ((bargeAt s a).leaveAt = none → t = s) ∧ (∀ n, (bargeAt s a).leaveAt = some n →
        (¬(n ≤ s.cyc.number ∧ (bargeAt s a).state ∈ [4, 5]) → t = s) ∧
        (n ≤ s.cyc.number → (bargeAt s a).state ∈ [4, 5] → t = resyncAnswer a .ok (bargeTo a 3 (modBarge a (fun b => { b with evtDropped := sat 16 (b.evtDropped + dropped) }) s)) ∧ (bargeAt t a).resync = none))))
end

