-- ==== Sys2Proof/Laws/Frame.lean ====
section
/-! SUPPORT. The state without some of its regions, the frame lemmas of the record operations, and what they say in
the words of `changesOnly`. -/
namespace Sys2Proof.Machine

/-- One part without the regions of `L`. -/
def blankFv (L : Region → Bool) (v : Fv) : Fv :=
  { fw := if L .fv then false else v.fw
    started := if L .fv then false else v.started
    devState := if L .fv then 0 else v.devState
    pounds := if L .fv then [] else v.pounds
    subs := if L .fv then [] else v.subs
    nextSub := if L .fv then 0 else v.nextSub
    ifaces := if L .fv then [] else v.ifaces
    deferred := if L .fv then [] else v.deferred
    chipPound0 := if L .fv then true else v.chipPound0
    qs := if L .wire then [] else v.qs
    wins := if L .wire then [] else v.wins
    rateWins := if L .wire then [] else v.rateWins
    latched := if L .wire then [] else v.latched
    bargeRsp := if L .wire then [] else v.bargeRsp
    bargeEvt := if L .wire then [] else v.bargeEvt }

/-- One part without the regions of `L`. -/
def blankSaf (L : Region → Bool) (v : Saf) : Saf :=
  { strobed := if L .safe then false else v.strobed
    releasing := if L .safe then false else v.releasing
    inForce := if L .safe then false else v.inForce
    entryCycle := if L .safe then 0 else v.entryCycle
    relCycle := if L .safe then 0 else v.relCycle
    reaction := if L .safe then 0 else v.reaction
    entries := if L .safe then [] else v.entries
    hold := if L .safe then [] else v.hold
    causes := if L .detect then 0 else v.causes
    faultN := if L .detect then true else v.faultN
    faultAt := if L .detect then 0 else v.faultAt
    firstBp := if L .detect then 0 else v.firstBp
    atBoundary := if L .detect then 0 else v.atBoundary
    atStrobe := if L .detect then 0 else v.atStrobe
    tD := if L .detect then 0 else v.tD
    relPend := if L .detect then false else v.relPend
    dets := if L .detect then [] else v.dets
    latentFails := if L .breach then 0 else v.latentFails
    mute := if L .breach then [] else v.mute
    runs := if L .breach then [] else v.runs
    breach := if L .breach then [] else v.breach
    pond := if L .pond then {} else v.pond }

/-- One part without the regions of `L`. -/
def blankCyc (L : Region → Bool) (v : Cyc) : Cyc :=
  { running := if L .cyc then false else v.running
    period := if L .cyc then 250000 else v.period
    number := if L .cyc then 0 else v.number
    inCycle := if L .cyc then 0 else v.inCycle
    length := if L .cyc then 250000 else v.length
    phase := if L .cyc then .fill else v.phase
    timer := if L .cyc then .phased else v.timer
    pastCutoff := if L .cyc then false else v.pastCutoff
    doneSluice := if L .cyc then false else v.doneSluice
    doneFio := if L .cyc then false else v.doneFio
    doneAq := if L .cyc then false else v.doneAq
    sealed := if L .cyc then false else v.sealed
    overMask := if L .cyc then 0 else v.overMask
    overruns := if L .cyc then 0 else v.overruns
    change := if L .cyc then none else v.change
    ended := if L .cyc then [] else v.ended
    staged := if L .staged then [] else v.staged }


/-- The state with the regions of `L` set aside. -/
def blank (L : Region → Bool) (s : State) : State :=
  { sys := if L .sys then {} else s.sys
    cyc := blankCyc L s.cyc
    tide := if L .tide then {} else s.tide
    fv := blankFv L s.fv
    saf := blankSaf L s.saf
    tp := if L .tp then {} else s.tp
    pow := if L .pow then {} else s.pow
    slu := if L .slu then {} else s.slu
    mot := if L .mot then {} else s.mot
    fio := if L .fio then {} else s.fio
    can := if L .can then {} else s.can
    lin := if L .lin then {} else s.lin
    nm := if L .nm then {} else s.nm
    aq := if L .aq then {} else s.aq
    net := if L .net then {} else s.net
    tow := if L .tow then {} else s.tow
    light := if L .light then {} else s.light
    aps := if L .aps then {} else s.aps
    pwr := if L .pwr then {} else s.pwr
    img := if L .img then {} else s.img
    mem := if L .mem then [] else s.mem
    free := if L .free then 0 else s.free
    pending := if L .pending then [] else s.pending }

/-- Writing the field leaves everything outside `L` alone. -/
def FldKeeps (L : Region → Bool) (f : Fld) : Prop := ∀ n s, blank L (f.set n s) = blank L s

/-- Writing any of the fields does. -/
def FldsKeep (L : Region → Bool) (l : List Fld) : Prop := ∀ f ∈ l, FldKeeps L f

theorem FldsKeep.nil {L : Region → Bool} : FldsKeep L [] := by
  intro f h
  cases h

theorem FldsKeep.cons {L : Region → Bool} {f : Fld} {l : List Fld} (hf : FldKeeps L f) (hl : FldsKeep L l) :
    FldsKeep L (f :: l) := by
  intro g h
  rcases List.mem_cons.mp h with rfl | h
  · exact hf
  · exact hl g h

theorem FldsKeep.append {L : Region → Bool} {a b : List Fld} (ha : FldsKeep L a) (hb : FldsKeep L b) :
    FldsKeep L (a ++ b) := fun f h => (List.mem_append.mp h).elim (ha f) (hb f)

theorem FldsKeep.flatMap {α : Type} {L : Region → Bool} {l : List α} {g : α → List Fld} (h : ∀ a, FldsKeep L (g a)) :
    FldsKeep L (l.flatMap g) := by
  intro f hf
  obtain ⟨a, -, ha⟩ := List.mem_flatMap.mp hf
  exact h a f ha

theorem FldsKeep.map {α : Type} {L : Region → Bool} {l : List α} {g : α → Fld} (h : ∀ a, FldKeeps L (g a)) :
    FldsKeep L (l.map g) := by
  intro f hf
  obtain ⟨a, -, rfl⟩ := List.mem_map.mp hf
  exact h a

theorem FldsKeep.lift {α : Type} {L : Region → Bool} {get : State → α} {mod : (α → α) → State → State}
    {l : List (UFld α)} (h : ∀ g s, blank L (mod g s) = blank L s) : FldsKeep L (lift get mod l) :=
  FldsKeep.map (fun _ _ s => h _ s)

/-- An action of a class leaves everything outside `L` alone, whatever becomes of it. -/
structure ActKeeps (L : Region → Bool) (a : ActSpec) : Prop where
  run    : ∀ p i b s, blank L (a.run p i b s) = blank L s
  taken  : ∀ s, blank L (a.taken s) = blank L s
  refuse : ∀ st b s, blank L (a.refuse st b s) = blank L s
  held   : ∀ {r s t}, a.held r s = some t → blank L t = blank L s

def ActsKeep (L : Region → Bool) (l : List ActSpec) : Prop := ∀ a ∈ l, ActKeeps L a

theorem ActsKeep.nil {L : Region → Bool} : ActsKeep L [] := by
  intro f h
  cases h

theorem ActsKeep.cons {L : Region → Bool} {a : ActSpec} {l : List ActSpec} (ha : ActKeeps L a) (hl : ActsKeep L l) :
    ActsKeep L (a :: l) := by
  intro g h
  rcases List.mem_cons.mp h with rfl | h
  · exact ha
  · exact hl g h

/-- The SETs, GETs and actions of a class leave everything outside `L` alone. -/
structure Keeps (L : Region → Bool) (k : ClassSpec) : Prop where
  record : ∀ {i p rc}, k.record i p = some rc → FldsKeep L rc.flds
  after  : ∀ s0 i p ws s, blank L (k.after s0 i p ws s) = blank L s
  onRead : ∀ i p o n s, blank L (k.onRead i p o n s) = blank L s
  held   : ∀ {r p ws s t}, k.held r p ws s = some t → blank L t = blank L s
  acts   : ActsKeep L k.acts

theorem guardUnit_next {ok : Bool} {s t : State} (h : guardUnit ok s = .next t) : ok = true ∧ s = t := by
  unfold guardUnit at h
  split at h
  · injection h with h
    exact ⟨by assumption, h⟩
  · cases h

theorem ite_frame {β : Type} (c : Prop) [Decidable c] {a b x : β} (ha : a = x) (hb : b = x) :
    (if c then a else b) = x := by
  split
  · exact ha
  · exact hb

theorem foldl_frame {α : Type} (L : Region → Bool) (g : State → α → State)
    (h : ∀ s a, blank L (g s a) = blank L s) (l : List α) (s : State) : blank L (l.foldl g s) = blank L s := by
  induction l generalizing s with
  | nil => rfl
  | cons a l ih => exact (ih (g s a)).trans (h s a)

theorem foldl_pair_frame {α β : Type} (L : Region → Bool) (g : β × State → α → β × State)
    (h : ∀ s a, blank L (g s a).2 = blank L s.2) (l : List α) (s : β × State) :
    blank L (l.foldl g s).2 = blank L s.2 := by
  induction l generalizing s with
  | nil => rfl
  | cons a l ih => exact (ih (g s a)).trans (h s a)

theorem takeFree_frame (L : Region → Bool) (hFree : L .free = true) (s : State) :
    blank L (takeFree s).2 = blank L s := by
  simp only [takeFree, blank, hFree, if_true]

theorem takeFree_frame_eq (L : Region → Bool) (hFree : L .free = true) {s t : State} {x : Nat} (h : takeFree s = (x, t)) :
    blank L t = blank L s := by
  rw [← takeFree_frame L hFree s, h]

theorem storeBytes_frame (L : Region → Bool) (hSys : L .sys = true) (hMem : L .mem = true) (i : Nat) (bs : List Byte)
    (s : State) : blank L (storeBytes i bs s) = blank L s := by
  simp only [storeBytes, blank, hSys, hMem, if_true]

end Sys2Proof.Machine
end

