-- ==== Sys2Proof/Laws/Changes.lean ====
section
/-! SUPPORT. What a frame lemma says in the words of `changesOnly`, and how statements of change compose. -/
namespace Sys2Proof.Machine

theorem blankFv_core {L : Region → Bool} {v w : Fv} (h : blankFv L v = blankFv L w) (hL : L .fv = false) : v.core = w.core := by
  have h1 := congrArg Fv.core h
  simpa only [blankFv, Fv.core, hL, Bool.false_eq_true, if_false] using h1

theorem blankFv_wire {L : Region → Bool} {v w : Fv} (h : blankFv L v = blankFv L w) (hL : L .wire = false) : v.wire = w.wire := by
  have h1 := congrArg Fv.wire h
  simpa only [blankFv, Fv.wire, hL, Bool.false_eq_true, if_false] using h1

theorem blankSaf_safe {L : Region → Bool} {v w : Saf} (h : blankSaf L v = blankSaf L w) (hL : L .safe = false) : v.safe = w.safe := by
  have h1 := congrArg Saf.safe h
  simpa only [blankSaf, Saf.safe, hL, Bool.false_eq_true, if_false] using h1

theorem blankSaf_detect {L : Region → Bool} {v w : Saf} (h : blankSaf L v = blankSaf L w) (hL : L .detect = false) :
    v.detect = w.detect := by
  have h1 := congrArg Saf.detect h
  simpa only [blankSaf, Saf.detect, hL, Bool.false_eq_true, if_false] using h1

theorem blankSaf_breaches {L : Region → Bool} {v w : Saf} (h : blankSaf L v = blankSaf L w) (hL : L .breach = false) :
    v.breaches = w.breaches := by
  have h1 := congrArg Saf.breaches h
  simpa only [blankSaf, Saf.breaches, hL, Bool.false_eq_true, if_false] using h1

theorem blankSaf_pond {L : Region → Bool} {v w : Saf} (h : blankSaf L v = blankSaf L w) (hL : L .pond = false) : v.pond = w.pond := by
  have h1 := congrArg Saf.pond h
  simpa only [blankSaf, hL, Bool.false_eq_true, if_false] using h1

theorem blankCyc_rest {L : Region → Bool} {v w : Cyc} (h : blankCyc L v = blankCyc L w) (hL : L .cyc = false) :
    { v with staged := [] } = { w with staged := [] } := by
  have h1 := congrArg (fun c : Cyc => { c with staged := [] }) h
  simpa only [blankCyc, hL, Bool.false_eq_true, if_false] using h1

theorem blankCyc_staged {L : Region → Bool} {v w : Cyc} (h : blankCyc L v = blankCyc L w) (hL : L .staged = false) :
    v.staged = w.staged := by
  have h1 := congrArg Cyc.staged h
  simpa only [blankCyc, hL, Bool.false_eq_true, if_false] using h1

/-- A region outside `L` holds the same when the rest does. -/
theorem same_of_blank {L : Region → Bool} {s t : State} (h : blank L t = blank L s) (r : Region) (hL : L r = false) :
    r.same s t := by
  cases r
  case sys =>
    have h1 := congrArg State.sys h
    simp only [blank, hL, Bool.false_eq_true, if_false] at h1
    exact h1
  case cyc =>
    exact blankCyc_rest (congrArg State.cyc h) hL
  case staged =>
    exact blankCyc_staged (congrArg State.cyc h) hL
  case tide =>
    have h1 := congrArg State.tide h
    simp only [blank, hL, Bool.false_eq_true, if_false] at h1
    exact h1
  case fv =>
    exact blankFv_core (congrArg State.fv h) hL
  case wire =>
    exact blankFv_wire (congrArg State.fv h) hL
  case safe =>
    exact blankSaf_safe (congrArg State.saf h) hL
  case detect =>
    exact blankSaf_detect (congrArg State.saf h) hL
  case breach =>
    exact blankSaf_breaches (congrArg State.saf h) hL
  case pond =>
    exact blankSaf_pond (congrArg State.saf h) hL
  case tp =>
    have h1 := congrArg State.tp h
    simp only [blank, hL, Bool.false_eq_true, if_false] at h1
    exact h1
  case pow =>
    have h1 := congrArg State.pow h
    simp only [blank, hL, Bool.false_eq_true, if_false] at h1
    exact h1
  case slu =>
    have h1 := congrArg State.slu h
    simp only [blank, hL, Bool.false_eq_true, if_false] at h1
    exact h1
  case mot =>
    have h1 := congrArg State.mot h
    simp only [blank, hL, Bool.false_eq_true, if_false] at h1
    exact h1
  case fio =>
    have h1 := congrArg State.fio h
    simp only [blank, hL, Bool.false_eq_true, if_false] at h1
    exact h1
  case can =>
    have h1 := congrArg State.can h
    simp only [blank, hL, Bool.false_eq_true, if_false] at h1
    exact h1
  case lin =>
    have h1 := congrArg State.lin h
    simp only [blank, hL, Bool.false_eq_true, if_false] at h1
    exact h1
  case nm =>
    have h1 := congrArg State.nm h
    simp only [blank, hL, Bool.false_eq_true, if_false] at h1
    exact h1
  case aq =>
    have h1 := congrArg State.aq h
    simp only [blank, hL, Bool.false_eq_true, if_false] at h1
    exact h1
  case net =>
    have h1 := congrArg State.net h
    simp only [blank, hL, Bool.false_eq_true, if_false] at h1
    exact h1
  case tow =>
    have h1 := congrArg State.tow h
    simp only [blank, hL, Bool.false_eq_true, if_false] at h1
    exact h1
  case light =>
    have h1 := congrArg State.light h
    simp only [blank, hL, Bool.false_eq_true, if_false] at h1
    exact h1
  case aps =>
    have h1 := congrArg State.aps h
    simp only [blank, hL, Bool.false_eq_true, if_false] at h1
    exact h1
  case pwr =>
    have h1 := congrArg State.pwr h
    simp only [blank, hL, Bool.false_eq_true, if_false] at h1
    exact h1
  case img =>
    have h1 := congrArg State.img h
    simp only [blank, hL, Bool.false_eq_true, if_false] at h1
    exact h1
  case mem =>
    have h1 := congrArg State.mem h
    simp only [blank, hL, Bool.false_eq_true, if_false] at h1
    intro a
    rw [h1]
  case free =>
    have h1 := congrArg State.free h
    simp only [blank, hL, Bool.false_eq_true, if_false] at h1
    exact h1
  case pending =>
    have h1 := congrArg State.pending h
    simp only [blank, hL, Bool.false_eq_true, if_false] at h1
    exact h1

theorem blank_all_fv {L : Region → Bool} {s t : State} (h : blank L t = blank L s) (h1 : L .fv = false) (h2 : L .wire = false) :
    t.fv = s.fv := by
  have h3 := congrArg State.fv h
  simpa only [blank, blankFv, h1, h2, Bool.false_eq_true, if_false] using h3

theorem blank_all_saf {L : Region → Bool} {s t : State} (h : blank L t = blank L s) (h1 : L .safe = false)
    (h2 : L .detect = false) (h3 : L .breach = false) (h4 : L .pond = false) : t.saf = s.saf := by
  have h5 := congrArg State.saf h
  simpa only [blank, blankSaf, h1, h2, h3, h4, Bool.false_eq_true, if_false] using h5

theorem blank_all_cyc {L : Region → Bool} {s t : State} (h : blank L t = blank L s) (h1 : L .cyc = false)
    (h2 : L .staged = false) : t.cyc = s.cyc := by
  have h3 := congrArg State.cyc h
  simpa only [blank, blankCyc, h1, h2, Bool.false_eq_true, if_false] using h3

theorem blank_mem {L : Region → Bool} {s t : State} (h : blank L t = blank L s) (h1 : L .mem = false) : t.mem = s.mem := by
  have h3 := congrArg State.mem h
  simpa only [blank, h1, Bool.false_eq_true, if_false] using h3

/-- What a frame lemma says of the state after. -/
theorem changesOnly_of_blank {l : List Region} {s t : State}
    (h : blank (fun r => decide (r ∈ l)) t = blank (fun r => decide (r ∈ l)) s) : changesOnly l s t :=
  fun r hr => same_of_blank h r (decide_eq_false hr)

theorem Region.same_refl (r : Region) (s : State) : r.same s s := by
  cases r <;> first | rfl | exact fun _ => rfl

theorem Region.same_trans {r : Region} {s t u : State} (h : r.same s t) (k : r.same t u) : r.same s u := by
  cases r <;> first | exact Eq.trans k h | exact fun a => Eq.trans (k a) (h a)

theorem changesOnly_refl (l : List Region) (s : State) : changesOnly l s s := fun r _ => r.same_refl s

theorem changesOnly_trans {l : List Region} {s t u : State} (h : changesOnly l s t) (k : changesOnly l t u) : changesOnly l s u :=
  fun r hr => Region.same_trans (h r hr) (k r hr)

theorem changesOnly_mono {l m : List Region} {s t : State} (h : changesOnly l s t) (hl : ∀ r ∈ l, r ∈ m) : changesOnly m s t :=
  fun r hr => h r (fun hm => hr (hl r hm))

end Sys2Proof.Machine
end

