-- ==== Sys2Proof/Laws/Fold.lean ====
section
/-! SUPPORT. What a unit holds after an operation has gone over a list of units, each step changing its own unit only. -/
namespace Sys2Proof.Machine

/-- A unit outside the list holds what it held. -/
theorem foldl_at_out {β : Type} {get : State → Nat → β} {h : State → Nat → State}
    (hd : ∀ s i j, j ≠ i → get (h s i) j = get s j) (l : List Nat) (j : Nat) (hj : j ∉ l) (s : State) :
    get (l.foldl h s) j = get s j := by
  induction l generalizing s with
  | nil => rfl
  | cons a l ih =>
    simp only [List.mem_cons, not_or] at hj
    exact (ih hj.2 (h s a)).trans (hd s a j hj.1)

/-- A unit of the list, which names each unit once, holds what its own step made of what it held. -/
theorem foldl_at {β : Type} {get : State → Nat → β} {h : State → Nat → State}
    (hd : ∀ s i j, j ≠ i → get (h s i) j = get s j) (l : List Nat) (hn : l.Nodup) (j : Nat) (hj : j ∈ l) (s : State) :
    ∃ u, get u j = get s j ∧ get (l.foldl h s) j = get (h u j) j := by
  induction l generalizing s with
  | nil => cases hj
  | cons a l ih =>
    rw [List.nodup_cons] at hn
    rcases List.mem_cons.mp hj with rfl | hm
    · exact ⟨s, rfl, foldl_at_out hd l j hn.1 (h s j)⟩
    · have ha : j ≠ a := fun e => hn.1 (e ▸ hm)
      obtain ⟨u, hu, ht⟩ := ih hn.2 hm (h s a)
      exact ⟨u, hu.trans (hd s a j ha), ht⟩

/-- The same with what no step of the list changes: the other parts of the state the step looks at. -/
theorem foldl_at_keep {β γ : Type} {get : State → Nat → β} {keep : State → γ} {h : State → Nat → State}
    (hd : ∀ s i j, j ≠ i → get (h s i) j = get s j) (hk : ∀ s i, keep (h s i) = keep s) (l : List Nat) (hn : l.Nodup)
    (j : Nat) (hj : j ∈ l) (s : State) :
    ∃ u, get u j = get s j ∧ keep u = keep s ∧ get (l.foldl h s) j = get (h u j) j := by
  induction l generalizing s with
  | nil => cases hj
  | cons a l ih =>
    rw [List.nodup_cons] at hn
    rcases List.mem_cons.mp hj with rfl | hm
    · exact ⟨s, rfl, rfl, foldl_at_out hd l j hn.1 (h s j)⟩
    · have ha : j ≠ a := fun e => hn.1 (e ▸ hm)
      obtain ⟨u, hu, hv, ht⟩ := ih hn.2 hm (h s a)
      exact ⟨u, hu.trans (hd s a j ha), hv.trans (hk s a), ht⟩

theorem foldl_keep {γ : Type} {keep : State → γ} {h : State → Nat → State} (hk : ∀ s i, keep (h s i) = keep s)
    (l : List Nat) (s : State) : keep (l.foldl h s) = keep s := by
  induction l generalizing s with
  | nil => rfl
  | cons a l ih => exact (ih (h s a)).trans (hk s a)

end Sys2Proof.Machine
end

