-- ==== Sys2Proof/Laws/FrameOps.lean ====
section
/-! SUPPORT. Frame lemmas of Machine/Ops.lean: what each operation leaves alone. -/
set_option linter.unusedSimpArgs false
set_option linter.unusedVariables false
namespace Sys2Proof.Machine

theorem guardUnit_frame (L : Region → Bool) {ok : Bool} {s t : State} (h : guardUnit ok s = .next t) :
    blank L t = blank L s := by
  rw [(guardUnit_next h).2]

theorem modSys_frame (L : Region → Bool) (hSys : L .sys = true) (f : Sys → Sys) (s : State) :
    blank L (modSys f s) = blank L s := by
  simp only [modSys, blank, hSys, if_true]

theorem modCyc_frame (L : Region → Bool) (hCyc : L .cyc = true) (hStaged : L .staged = true) (f : Cyc → Cyc) (s : State) :
    blank L (modCyc f s) = blank L s := by
  simp only [modCyc, blank, blankCyc, hCyc, hStaged, if_true]

theorem modCyc_part (L : Region → Bool) (f : Cyc → Cyc) (s : State) (h : ∀ v, blankCyc L (f v) = blankCyc L v) :
    blank L (modCyc f s) = blank L s := by
  simp only [modCyc, blank, h]

theorem modTide_frame (L : Region → Bool) (hTide : L .tide = true) (f : Tide → Tide) (s : State) :
    blank L (modTide f s) = blank L s := by
  simp only [modTide, blank, hTide, if_true]

theorem modFv_frame (L : Region → Bool) (hFv : L .fv = true) (hWire : L .wire = true) (f : Fv → Fv) (s : State) :
    blank L (modFv f s) = blank L s := by
  simp only [modFv, blank, blankFv, hFv, hWire, if_true]

theorem modFv_part (L : Region → Bool) (f : Fv → Fv) (s : State) (h : ∀ v, blankFv L (f v) = blankFv L v) :
    blank L (modFv f s) = blank L s := by
  simp only [modFv, blank, h]

theorem modSaf_frame (L : Region → Bool) (hSafe : L .safe = true) (hDetect : L .detect = true) (hBreach : L .breach = true) (hPond : L .pond = true) (f : Saf → Saf) (s : State) :
    blank L (modSaf f s) = blank L s := by
  simp only [modSaf, blank, blankSaf, hSafe, hDetect, hBreach, hPond, if_true]

theorem modSaf_part (L : Region → Bool) (f : Saf → Saf) (s : State) (h : ∀ v, blankSaf L (f v) = blankSaf L v) :
    blank L (modSaf f s) = blank L s := by
  simp only [modSaf, blank, h]

theorem modTp_frame (L : Region → Bool) (hTp : L .tp = true) (f : Tp → Tp) (s : State) :
    blank L (modTp f s) = blank L s := by
  simp only [modTp, blank, hTp, if_true]

theorem modPow_frame (L : Region → Bool) (hPow : L .pow = true) (f : Pow → Pow) (s : State) :
    blank L (modPow f s) = blank L s := by
  simp only [modPow, blank, hPow, if_true]

theorem modSlu_frame (L : Region → Bool) (hSlu : L .slu = true) (f : Slu → Slu) (s : State) :
    blank L (modSlu f s) = blank L s := by
  simp only [modSlu, blank, hSlu, if_true]

theorem modMot_frame (L : Region → Bool) (hMot : L .mot = true) (f : Mot → Mot) (s : State) :
    blank L (modMot f s) = blank L s := by
  simp only [modMot, blank, hMot, if_true]

theorem modFio_frame (L : Region → Bool) (hFio : L .fio = true) (f : Fio → Fio) (s : State) :
    blank L (modFio f s) = blank L s := by
  simp only [modFio, blank, hFio, if_true]

theorem modCan_frame (L : Region → Bool) (hCan : L .can = true) (f : Can → Can) (s : State) :
    blank L (modCan f s) = blank L s := by
  simp only [modCan, blank, hCan, if_true]

theorem modLin_frame (L : Region → Bool) (hLin : L .lin = true) (f : Lin → Lin) (s : State) :
    blank L (modLin f s) = blank L s := by
  simp only [modLin, blank, hLin, if_true]

theorem modNm_frame (L : Region → Bool) (hNm : L .nm = true) (f : Nm → Nm) (s : State) :
    blank L (modNm f s) = blank L s := by
  simp only [modNm, blank, hNm, if_true]

theorem modAq_frame (L : Region → Bool) (hAq : L .aq = true) (f : Aq → Aq) (s : State) :
    blank L (modAq f s) = blank L s := by
  simp only [modAq, blank, hAq, if_true]

theorem modPwr_frame (L : Region → Bool) (hPwr : L .pwr = true) (f : Pwr → Pwr) (s : State) :
    blank L (modPwr f s) = blank L s := by
  simp only [modPwr, blank, hPwr, if_true]

theorem modImg_frame (L : Region → Bool) (hImg : L .img = true) (f : Img → Img) (s : State) :
    blank L (modImg f s) = blank L s := by
  simp only [modImg, blank, hImg, if_true]

theorem modLight_frame (L : Region → Bool) (hLight : L .light = true) (f : Light → Light) (s : State) :
    blank L (modLight f s) = blank L s := by
  simp only [modLight, blank, hLight, if_true]

theorem modAps_frame (L : Region → Bool) (hAps : L .aps = true) (f : Aps → Aps) (s : State) :
    blank L (modAps f s) = blank L s := by
  simp only [modAps, blank, hAps, if_true]

theorem modTow_frame (L : Region → Bool) (hTow : L .tow = true) (f : Tow → Tow) (s : State) :
    blank L (modTow f s) = blank L s := by
  simp only [modTow, blank, hTow, if_true]

theorem modNet_frame (L : Region → Bool) (hNet : L .net = true) (f : Net → Net) (s : State) :
    blank L (modNet f s) = blank L s := by
  simp only [modNet, blank, hNet, if_true]

theorem modPound_frame (L : Region → Bool) (hFv : L .fv = true) (p : Nat) (f : Pound → Pound) (s : State) :
    blank L (modPound p f s) = blank L s := by
  unfold modPound
  repeat' (first | with_reducible rfl | ((with_reducible refine Eq.trans (modFv_part L _ _ ?_) ?_); (next => exact fun _ => by simp only [blankFv, hFv, if_true])) | (simp only [hFv, apply_ite (blank L), ite_self]) | (with_reducible refine ite_frame _ ?_ ?_) | split)

theorem modPq_frame (L : Region → Bool) (hWire : L .wire = true) (p : Nat) (f : PoundQ → PoundQ) (s : State) :
    blank L (modPq p f s) = blank L s := by
  unfold modPq
  repeat' (first | with_reducible rfl | ((with_reducible refine Eq.trans (modFv_part L _ _ ?_) ?_); (next => exact fun _ => by simp only [blankFv, hWire, if_true])) | (simp only [hWire, apply_ite (blank L), ite_self]) | (with_reducible refine ite_frame _ ?_ ?_) | split)

theorem modWin_frame (L : Region → Bool) (hWire : L .wire = true) (e : Nat) (f : Win → Win) (s : State) :
    blank L (modWin e f s) = blank L s := by
  unfold modWin
  repeat' (first | with_reducible rfl | ((with_reducible refine Eq.trans (modFv_part L _ _ ?_) ?_); (next => exact fun _ => by simp only [blankFv, hWire, if_true])) | (simp only [hWire, apply_ite (blank L), ite_self]) | (with_reducible refine ite_frame _ ?_ ?_) | split)

theorem modServo_frame (L : Region → Bool) (hTide : L .tide = true) (i : Nat) (f : Servo → Servo) (s : State) :
    blank L (modServo i f s) = blank L s := by
  simp only [modServo, modTide_frame, hTide]

theorem modDom_frame (L : Region → Bool) (hTide : L .tide = true) (d : Nat) (f : Dom → Dom) (s : State) :
    blank L (modDom d f s) = blank L s := by
  simp only [modDom, modTide_frame, hTide]

theorem clearSnap_frame (L : Region → Bool) (hTide : L .tide = true) (p : Nat) (s : State) :
    blank L (clearSnap p s) = blank L s := by
  simp only [clearSnap, modTide_frame, hTide]

theorem modTout_frame (L : Region → Bool) (hTide : L .tide = true) (i : Nat) (f : TOut → TOut) (s : State) :
    blank L (modTout i f s) = blank L s := by
  simp only [modTout, modTide_frame, hTide]

theorem modTin_frame (L : Region → Bool) (hTide : L .tide = true) (i : Nat) (f : TIn → TIn) (s : State) :
    blank L (modTin i f s) = blank L s := by
  simp only [modTin, modTide_frame, hTide]

theorem modGport_frame (L : Region → Bool) (hTide : L .tide = true) (p : Nat) (f : GPort → GPort) (s : State) :
    blank L (modGport p f s) = blank L s := by
  simp only [modGport, modTide_frame, hTide]

theorem modTsq_frame (L : Region → Bool) (hTide : L .tide = true) (p : Nat) (f : Tsq → Tsq) (s : State) :
    blank L (modTsq p f s) = blank L s := by
  simp only [modTsq, modTide_frame, hTide]

theorem modDet_frame (L : Region → Bool) (hDetect : L .detect = true) (bp : Nat) (f : Det → Det) (s : State) :
    blank L (modDet bp f s) = blank L s := by
  unfold modDet
  repeat' (first | with_reducible rfl | ((with_reducible refine Eq.trans (modSaf_part L _ _ ?_) ?_); (next => exact fun _ => by simp only [blankSaf, hDetect, if_true])) | (simp only [hDetect, apply_ite (blank L), ite_self]) | (with_reducible refine ite_frame _ ?_ ?_) | split)

theorem modSeg_frame (L : Region → Bool) (hPond : L .pond = true) (i : Nat) (f : SegWear → SegWear) (s : State) :
    blank L (modSeg i f s) = blank L s := by
  unfold modSeg
  repeat' (first | with_reducible rfl | ((with_reducible refine Eq.trans (modSaf_part L _ _ ?_) ?_); (next => exact fun _ => by simp only [blankSaf, hPond, if_true])) | (simp only [hPond, apply_ite (blank L), ite_self]) | (with_reducible refine ite_frame _ ?_ ?_) | split)

theorem modPond_frame (L : Region → Bool) (hPond : L .pond = true) (f : Pond → Pond) (s : State) :
    blank L (modPond f s) = blank L s := by
  unfold modPond
  repeat' (first | with_reducible rfl | ((with_reducible refine Eq.trans (modSaf_part L _ _ ?_) ?_); (next => exact fun _ => by simp only [blankSaf, hPond, if_true])) | (simp only [hPond, apply_ite (blank L), ite_self]) | (with_reducible refine ite_frame _ ?_ ?_) | split)

theorem modChan_frame (L : Region → Bool) (hPow : L .pow = true) (i : Nat) (f : Chan → Chan) (s : State) :
    blank L (modChan i f s) = blank L s := by
  simp only [modChan, modPow_frame, hPow]

theorem modGrp_frame (L : Region → Bool) (hPow : L .pow = true) (i : Nat) (f : Grp → Grp) (s : State) :
    blank L (modGrp i f s) = blank L s := by
  simp only [modGrp, modPow_frame, hPow]

theorem modCluster_frame (L : Region → Bool) (hPow : L .pow = true) (i : Nat) (f : Cluster → Cluster) (s : State) :
    blank L (modCluster i f s) = blank L s := by
  simp only [modCluster, modPow_frame, hPow]

theorem modWireType_frame (L : Region → Bool) (hSlu : L .slu = true) (i : Nat) (f : WireType → WireType) (s : State) :
    blank L (modWireType i f s) = blank L s := by
  simp only [modWireType, modSlu_frame, hSlu]

theorem modBundle_frame (L : Region → Bool) (hSlu : L .slu = true) (i : Nat) (f : Bundle → Bundle) (s : State) :
    blank L (modBundle i f s) = blank L s := by
  simp only [modBundle, modSlu_frame, hSlu]

theorem modWire_frame (L : Region → Bool) (hSlu : L .slu = true) (i : Nat) (f : WireCh → WireCh) (s : State) :
    blank L (modWire i f s) = blank L s := by
  simp only [modWire, modSlu_frame, hSlu]

theorem modAdc_frame (L : Region → Bool) (hSlu : L .slu = true) (i : Nat) (f : Adc → Adc) (s : State) :
    blank L (modAdc i f s) = blank L s := by
  simp only [modAdc, modSlu_frame, hSlu]

theorem modBudget_frame (L : Region → Bool) (hSlu : L .slu = true) (i : Nat) (f : Budget → Budget) (s : State) :
    blank L (modBudget i f s) = blank L s := by
  simp only [modBudget, modSlu_frame, hSlu]

theorem modPad_frame (L : Region → Bool) (hMot : L .mot = true) (i : Nat) (f : Pad → Pad) (s : State) :
    blank L (modPad i f s) = blank L s := by
  simp only [modPad, modMot_frame, hMot]

theorem modBr_frame (L : Region → Bool) (hMot : L .mot = true) (i : Nat) (f : Br → Br) (s : State) :
    blank L (modBr i f s) = blank L s := by
  simp only [modBr, modMot_frame, hMot]

theorem modBrPar_frame (L : Region → Bool) (hMot : L .mot = true) (i : Nat) (f : BrPar → BrPar) (s : State) :
    blank L (modBrPar i f s) = blank L s := by
  simp only [modBrPar, modMot_frame, hMot]

theorem modBrDyn_frame (L : Region → Bool) (hMot : L .mot = true) (i : Nat) (f : BrDyn → BrDyn) (s : State) :
    blank L (modBrDyn i f s) = blank L s := by
  simp only [modBrDyn, modMot_frame, hMot]

theorem modDi_frame (L : Region → Bool) (hFio : L .fio = true) (i : Nat) (f : Di → Di) (s : State) :
    blank L (modDi i f s) = blank L s := by
  simp only [modDi, modFio_frame, hFio]

theorem modFo_frame (L : Region → Bool) (hFio : L .fio = true) (i : Nat) (f : Fo → Fo) (s : State) :
    blank L (modFo i f s) = blank L s := by
  simp only [modFo, modFio_frame, hFio]

theorem modBank_frame (L : Region → Bool) (hFio : L .fio = true) (i : Nat) (f : FoBank → FoBank) (s : State) :
    blank L (modBank i f s) = blank L s := by
  simp only [modBank, modFio_frame, hFio]

theorem modAi_frame (L : Region → Bool) (hFio : L .fio = true) (i : Nat) (f : Ai → Ai) (s : State) :
    blank L (modAi i f s) = blank L s := by
  simp only [modAi, modFio_frame, hFio]

theorem modSup_frame (L : Region → Bool) (hFio : L .fio = true) (i : Nat) (f : Sup → Sup) (s : State) :
    blank L (modSup i f s) = blank L s := by
  simp only [modSup, modFio_frame, hFio]

theorem modTemp_frame (L : Region → Bool) (hFio : L .fio = true) (i : Nat) (f : List (Nat × Int) → List (Nat × Int)) (s : State) :
    blank L (modTemp i f s) = blank L s := by
  simp only [modTemp, modFio_frame, hFio]

theorem modCanCh_frame (L : Region → Bool) (hCan : L .can = true) (i : Nat) (f : CanCh → CanCh) (s : State) :
    blank L (modCanCh i f s) = blank L s := by
  simp only [modCanCh, modCan_frame, hCan]

theorem modFilter_frame (L : Region → Bool) (hCan : L .can = true) (i : Nat) (f : CanFilter → CanFilter) (s : State) :
    blank L (modFilter i f s) = blank L s := by
  simp only [modFilter, modCan_frame, hCan]

theorem modCsched_frame (L : Region → Bool) (hCan : L .can = true) (i : Nat) (f : CanSched → CanSched) (s : State) :
    blank L (modCsched i f s) = blank L s := by
  simp only [modCsched, modCan_frame, hCan]

theorem modLinCh_frame (L : Region → Bool) (hLin : L .lin = true) (i : Nat) (f : LinCh → LinCh) (s : State) :
    blank L (modLinCh i f s) = blank L s := by
  simp only [modLinCh, modLin_frame, hLin]

theorem modLinFrame_frame (L : Region → Bool) (hLin : L .lin = true) (i : Nat) (f : LinFrame → LinFrame) (s : State) :
    blank L (modLinFrame i f s) = blank L s := by
  simp only [modLinFrame, modLin_frame, hLin]

theorem modLinSlot_frame (L : Region → Bool) (hLin : L .lin = true) (i : Nat) (f : LinSlot → LinSlot) (s : State) :
    blank L (modLinSlot i f s) = blank L s := by
  simp only [modLinSlot, modLin_frame, hLin]

theorem modNmc_frame (L : Region → Bool) (hNm : L .nm = true) (i : Nat) (f : NmCluster → NmCluster) (s : State) :
    blank L (modNmc i f s) = blank L s := by
  simp only [modNmc, modNm_frame, hNm]

theorem modCanWake_frame (L : Region → Bool) (hNm : L .nm = true) (i : Nat) (f : CanWake → CanWake) (s : State) :
    blank L (modCanWake i f s) = blank L s := by
  simp only [modCanWake, modNm_frame, hNm]

theorem modT1_frame (L : Region → Bool) (hNm : L .nm = true) (i : Nat) (f : T1 → T1) (s : State) :
    blank L (modT1 i f s) = blank L s := by
  simp only [modT1, modNm_frame, hNm]

theorem modRoute_frame (L : Region → Bool) (hAq : L .aq = true) (i : Nat) (f : Route → Route) (s : State) :
    blank L (modRoute i f s) = blank L s := by
  simp only [modRoute, modAq_frame, hAq]

theorem modTalker_frame (L : Region → Bool) (hAq : L .aq = true) (i : Nat) (f : Talker → Talker) (s : State) :
    blank L (modTalker i f s) = blank L s := by
  simp only [modTalker, modAq_frame, hAq]

theorem modListener_frame (L : Region → Bool) (hAq : L .aq = true) (i : Nat) (f : Listener → Listener) (s : State) :
    blank L (modListener i f s) = blank L s := by
  simp only [modListener, modAq_frame, hAq]

theorem modBusSrc_frame (L : Region → Bool) (hAq : L .aq = true) (i : Nat) (f : BusSrc → BusSrc) (s : State) :
    blank L (modBusSrc i f s) = blank L s := by
  simp only [modBusSrc, modAq_frame, hAq]

theorem modCtx_frame (L : Region → Bool) (hAq : L .aq = true) (i : Nat) (f : Ctx → Ctx) (s : State) :
    blank L (modCtx i f s) = blank L s := by
  simp only [modCtx, modAq_frame, hAq]

theorem modAwake_frame (L : Region → Bool) (hPwr : L .pwr = true) (i : Nat) (f : Awake → Awake) (s : State) :
    blank L (modAwake i f s) = blank L s := by
  simp only [modAwake, modPwr_frame, hPwr]

theorem modBankImg_frame (L : Region → Bool) (hImg : L .img = true) (i : Nat) (f : Bank → Bank) (s : State) :
    blank L (modBankImg i f s) = blank L s := by
  simp only [modBankImg, modImg_frame, hImg]

theorem modSlotImg_frame (L : Region → Bool) (hImg : L .img = true) (i : Nat) (f : Slot → Slot) (s : State) :
    blank L (modSlotImg i f s) = blank L s := by
  simp only [modSlotImg, modImg_frame, hImg]

theorem modPort_frame (L : Region → Bool) (hNet : L .net = true) (i : Nat) (f : Port → Port) (s : State) :
    blank L (modPort i f s) = blank L s := by
  simp only [modPort, modNet_frame, hNet]

theorem modHf_frame (L : Region → Bool) (hNet : L .net = true) (i : Nat) (f : HostFilter → HostFilter) (s : State) :
    blank L (modHf i f s) = blank L s := by
  simp only [modHf, modNet_frame, hNet]

theorem modHring_frame (L : Region → Bool) (hNet : L .net = true) (i : Nat) (f : HostRing → HostRing) (s : State) :
    blank L (modHring i f s) = blank L s := by
  simp only [modHring, modNet_frame, hNet]

theorem modSa_frame (L : Region → Bool) (hNet : L .net = true) (i : Nat) (f : Sa → Sa) (s : State) :
    blank L (modSa i f s) = blank L s := by
  simp only [modSa, modNet_frame, hNet]

theorem modSecy_frame (L : Region → Bool) (hNet : L .net = true) (i : Nat) (f : SecY → SecY) (s : State) :
    blank L (modSecy i f s) = blank L s := by
  simp only [modSecy, modNet_frame, hNet]

theorem modSw_frame (L : Region → Bool) (hNet : L .net = true) (i : Nat) (f : SwPort → SwPort) (s : State) :
    blank L (modSw i f s) = blank L s := by
  simp only [modSw, modNet_frame, hNet]

theorem modVlan_frame (L : Region → Bool) (hNet : L .net = true) (i : Nat) (f : Vlan → Vlan) (s : State) :
    blank L (modVlan i f s) = blank L s := by
  simp only [modVlan, modNet_frame, hNet]

theorem modFdb_frame (L : Region → Bool) (hNet : L .net = true) (i : Nat) (f : Fdb → Fdb) (s : State) :
    blank L (modFdb i f s) = blank L s := by
  simp only [modFdb, modNet_frame, hNet]

theorem modQueue_frame (L : Region → Bool) (hNet : L .net = true) (i : Nat) (f : Queue → Queue) (s : State) :
    blank L (modQueue i f s) = blank L s := by
  simp only [modQueue, modNet_frame, hNet]

theorem modGate_frame (L : Region → Bool) (hNet : L .net = true) (i : Nat) (f : Gate → Gate) (s : State) :
    blank L (modGate i f s) = blank L s := by
  simp only [modGate, modNet_frame, hNet]

theorem modStream_frame (L : Region → Bool) (hNet : L .net = true) (i : Nat) (f : Stream → Stream) (s : State) :
    blank L (modStream i f s) = blank L s := by
  simp only [modStream, modNet_frame, hNet]

theorem modHostq_frame (L : Region → Bool) (hNet : L .net = true) (i : Nat) (f : (List Copy) → (List Copy)) (s : State) :
    blank L (modHostq i f s) = blank L s := by
  simp only [modHostq, modNet_frame, hNet]

theorem modKey_frame (L : Region → Bool) (hLight : L .light = true) (i : Nat) (f : Key → Key) (s : State) :
    blank L (modKey i f s) = blank L s := by
  simp only [modKey, modLight_frame, hLight]

theorem modBox_frame (L : Region → Bool) (hLight : L .light = true) (i : Nat) (f : LhBox → LhBox) (s : State) :
    blank L (modBox i f s) = blank L s := by
  simp only [modBox, modLight_frame, hLight]

theorem modCore_frame (L : Region → Bool) (hAps : L .aps = true) (i : Nat) (f : Core → Core) (s : State) :
    blank L (modCore i f s) = blank L s := by
  simp only [modCore, modAps_frame, hAps]

theorem modLogical_frame (L : Region → Bool) (hAps : L .aps = true) (i : Nat) (f : Logical → Logical) (s : State) :
    blank L (modLogical i f s) = blank L s := by
  simp only [modLogical, modAps_frame, hAps]

theorem modPart_frame (L : Region → Bool) (hAps : L .aps = true) (i : Nat) (f : Part → Part) (s : State) :
    blank L (modPart i f s) = blank L s := by
  simp only [modPart, modAps_frame, hAps]

theorem modTpt_frame (L : Region → Bool) (hTow : L .tow = true) (i : Nat) (f : TowPort → TowPort) (s : State) :
    blank L (modTpt i f s) = blank L s := by
  simp only [modTpt, modTow_frame, hTow]

theorem modBarge_frame (L : Region → Bool) (hTow : L .tow = true) (i : Nat) (f : Barge → Barge) (s : State) :
    blank L (modBarge i f s) = blank L s := by
  simp only [modBarge, modTow_frame, hTow]

theorem modTowReseq_frame (L : Region → Bool) (hTow : L .tow = true) (i : Nat) (f : TowReseq → TowReseq) (s : State) :
    blank L (modTowReseq i f s) = blank L s := by
  simp only [modTowReseq, modTow_frame, hTow]

theorem setWorkNs_frame (L : Region → Bool) (hTide : L .tide = true) (t : Nat) (s : State) :
    blank L (setWorkNs t s) = blank L s := by
  simp only [setWorkNs, modTide_frame, hTide]

theorem tick_frame (L : Region → Bool) (hCyc : L .cyc = true) (hTide : L .tide = true) (hPwr : L .pwr = true) (s : State) : blank L (tick s) = blank L s := by
  unfold tick
  refine Eq.trans (modCyc_part L _ _ (fun v => ?_)) ((modPwr_frame L hPwr _ _).trans (modTide_frame L hTide _ s))
  split
  · simp only [blankCyc, hCyc, if_true]
  · rfl

end Sys2Proof.Machine
end

