-- ==== Sys2Proof/Laws/FrameFlags.lean ====
section
/-! SUPPORT. Frame lemmas of Machine/Flags.lean: what each operation leaves alone. -/
set_option linter.unusedSimpArgs false
set_option linter.unusedVariables false
namespace Sys2Proof.Machine

theorem countPq_frame (L : Region → Bool) (hWire : L .wire = true) (p k : Nat) (s : State) :
    blank L (countPq p k s) = blank L s := by
  simp only [countPq, modPq_frame, hWire]

theorem place_frame (L : Region → Bool) (hWire : L .wire = true) (p : Nat) (e : Evt) (s : State) :
    blank L (place p e s) = blank L s := by
  unfold place
  repeat' (first | with_reducible rfl | ((with_reducible refine Eq.trans (modFv_part L _ _ ?_) ?_); (next => exact fun _ => by simp only [blankFv, hWire, if_true])) | (simp only [modPq_frame, modWin_frame, hWire, apply_ite (blank L), ite_self]) | (with_reducible refine ite_frame _ ?_ ?_) | split)

theorem deliver_frame (L : Region → Bool) (hWire : L .wire = true) (e : Evt) (p : Nat) (s : State) :
    blank L (deliver e p s) = blank L s := by
  unfold deliver
  repeat' (first | with_reducible rfl | ((with_reducible refine Eq.trans (modFv_part L _ _ ?_) ?_); (next => exact fun _ => by simp only [blankFv, hWire, if_true])) | (simp only [place_frame, hWire, apply_ite (blank L), ite_self]) | (with_reducible refine ite_frame _ ?_ ?_) | split)

theorem closeWin_frame (L : Region → Bool) (hWire : L .wire = true) (w : RateWin) (s : State) :
    blank L (closeWin w s) = blank L s := by
  unfold closeWin
  repeat' (first | with_reducible rfl | ((with_reducible refine Eq.trans (modFv_part L _ _ ?_) ?_); (next => exact fun _ => by simp only [blankFv, hWire, if_true])) | (simp only [place_frame, hWire, apply_ite (blank L), ite_self]) | (with_reducible refine ite_frame _ ?_ ?_) | split)

theorem raiseEvt_frame (L : Region → Bool) (hWire : L .wire = true) (e : Evt) (dest : Option Nat) (s : State) :
    blank L (raiseEvt e dest s) = blank L s := by
  unfold raiseEvt
  repeat' (first | with_reducible rfl | ((with_reducible refine Eq.trans (modFv_part L _ _ ?_) ?_); (next => exact fun _ => by simp only [blankFv, hWire, if_true])) | (simp only [deliver_frame, hWire, apply_ite (blank L), ite_self]) | (with_reducible refine (foldl_pair_frame L _ (fun _ _ => ?_) _ _).trans ?_) | (with_reducible refine (foldl_frame L _ (fun _ _ => ?_) _ _).trans ?_) | (with_reducible refine ite_frame _ ?_ ?_) | split)

theorem emit_frame (L : Region → Bool) (hWire : L .wire = true) (code inst : Nat) (s : State) (cause : Nat) (flags : Nat) (value : Int) (ext : List Nat) (dest : Option Nat) :
    blank L (emit code inst s cause flags value ext dest) = blank L s := by
  simp only [emit, raiseEvt_frame, hWire]

theorem bumpPq_frame (L : Region → Bool) (hWire : L .wire = true) (p k : Nat) (s : State) :
    blank L (bumpPq p k s) = blank L s := by
  unfold bumpPq
  repeat' (first | with_reducible rfl | (simp only [countPq_frame, emit_frame, hWire, apply_ite (blank L), ite_self]) | (with_reducible refine ite_frame _ ?_ ?_) | split)

theorem emitTransport_frame (L : Region → Bool) (hWire : L .wire = true) (p cause : Nat) (s : State) :
    blank L (emitTransport p cause s) = blank L s := by
  simp only [emitTransport, emit_frame, hWire]

theorem respondTo_frame (L : Region → Bool) (hWire : L .wire = true) (p : Nat) (m : Msg) (s : State) :
    blank L (respondTo p m s) = blank L s := by
  unfold respondTo
  repeat' (first | with_reducible rfl | ((with_reducible refine Eq.trans (modFv_part L _ _ ?_) ?_); (next => exact fun _ => by simp only [blankFv, hWire, if_true])) | (simp only [modPq_frame, hWire, apply_ite (blank L), ite_self]) | (with_reducible refine ite_frame _ ?_ ?_) | split)

theorem respond_frame (L : Region → Bool) (hWire : L .wire = true) (m : Msg) (s : State) :
    blank L (respond m s) = blank L s := by
  simp only [respond, respondTo_frame, hWire]

end Sys2Proof.Machine
end

