-- ==== Sys2Proof/Laws/FrameDetect.lean ====
section
/-! SUPPORT. Frame lemmas of Machine/Detect.lean: what each operation leaves alone. -/
set_option linter.unusedSimpArgs false
set_option linter.unusedVariables false
namespace Sys2Proof.Machine

theorem faultFall_frame (L : Region → Bool) (hDetect : L .detect = true) (s : State) :
    blank L (faultFall s) = blank L s := by
  unfold faultFall
  repeat' (first | with_reducible rfl | ((with_reducible refine Eq.trans (modSaf_part L _ _ ?_) ?_); (next => exact fun _ => by simp only [blankSaf, hDetect, if_true])) | (simp only [hDetect, apply_ite (blank L), ite_self]) | (with_reducible refine ite_frame _ ?_ ?_) | split)

theorem faultRise_frame (L : Region → Bool) (hDetect : L .detect = true) (s : State) :
    blank L (faultRise s) = blank L s := by
  unfold faultRise
  repeat' (first | with_reducible rfl | ((with_reducible refine Eq.trans (modSaf_part L _ _ ?_) ?_); (next => exact fun _ => by simp only [blankSaf, hDetect, if_true])) | (simp only [hDetect, apply_ite (blank L), ite_self]) | (with_reducible refine ite_frame _ ?_ ?_) | split)

theorem safeRequest_frame (L : Region → Bool) (hDetect : L .detect = true) (k bp : Nat) (s : State) :
    blank L (safeRequest k bp s) = blank L s := by
  unfold safeRequest
  repeat' (first | with_reducible rfl | ((with_reducible refine Eq.trans (modSaf_part L _ _ ?_) ?_); (next => exact fun _ => by simp only [blankSaf, hDetect, if_true])) | (simp only [hDetect, apply_ite (blank L), ite_self]) | (with_reducible refine ite_frame _ ?_ ?_) | split)

theorem detectLatch_frame (L : Region → Bool) (hWire : L .wire = true) (hDetect : L .detect = true) (bp : Nat) (live : Bool) (s : State) :
    blank L (detectLatch bp live s) = blank L s := by
  simp only [detectLatch, emit_frame, faultFall_frame, modDet_frame, hWire, hDetect]

theorem detect_frame (L : Region → Bool) (hWire : L .wire = true) (hDetect : L .detect = true) (bp : Nat) (live : Bool) (s : State) :
    blank L (detect bp live s) = blank L s := by
  unfold detect
  repeat' (first | with_reducible rfl | (simp only [detectLatch_frame, safeRequest_frame, hWire, hDetect, apply_ite (blank L), ite_self]) | (with_reducible refine ite_frame _ ?_ ?_) | split)

theorem detectEnd_frame (L : Region → Bool) (hWire : L .wire = true) (hDetect : L .detect = true) (bp : Nat) (s : State) :
    blank L (detectEnd bp s) = blank L s := by
  unfold detectEnd
  repeat' (first | with_reducible rfl | (simp only [emit_frame, modDet_frame, hWire, hDetect, apply_ite (blank L), ite_self]) | (with_reducible refine ite_frame _ ?_ ?_) | split)

theorem setTpCauses_frame (L : Region → Bool) (hWire : L .wire = true) (hDetect : L .detect = true) (hTp : L .tp = true) (new : Nat) (s : State) :
    blank L (setTpCauses new s) = blank L s := by
  unfold setTpCauses
  repeat' (first | with_reducible rfl | (simp only [emit_frame, faultFall_frame, modTp_frame, hWire, hDetect, hTp, apply_ite (blank L), ite_self]) | (with_reducible refine ite_frame _ ?_ ?_) | split)

theorem tpSet_frame (L : Region → Bool) (hWire : L .wire = true) (hDetect : L .detect = true) (hTp : L .tp = true) (k : Nat) (s : State) :
    blank L (tpSet k s) = blank L s := by
  simp only [tpSet, setTpCauses_frame, hWire, hDetect, hTp]

theorem tpClear_frame (L : Region → Bool) (hWire : L .wire = true) (hDetect : L .detect = true) (hTp : L .tp = true) (k : Nat) (s : State) :
    blank L (tpClear k s) = blank L s := by
  unfold tpClear
  repeat' (first | with_reducible rfl | (simp only [setTpCauses_frame, hWire, hDetect, hTp, apply_ite (blank L), ite_self]) | (with_reducible refine ite_frame _ ?_ ?_) | split)

theorem wearLog_frame (L : Region → Bool) (hPond : L .pond = true) (kind unit what : Nat) (s : State) :
    blank L (wearLog kind unit what s) = blank L s := by
  simp only [wearLog, modPond_frame, hPond]

theorem pondWear_frame (L : Region → Bool) (hWire : L .wire = true) (kind unit : Nat) (fig : Int) (empty : Bool) (s : State) :
    blank L (pondWear kind unit fig empty s) = blank L s := by
  simp only [pondWear, emit_frame, hWire]

theorem pondIn_frame (L : Region → Bool) (hWire : L .wire = true) (hPond : L .pond = true) (kind unit : Nat) (fig : Int) (s : State) :
    blank L (pondIn kind unit fig s) = blank L s := by
  unfold pondIn
  repeat' (first | with_reducible rfl | (simp only [emit_frame, pondWear_frame, wearLog_frame, hWire, hPond, apply_ite (blank L), ite_self]) | (with_reducible refine ite_frame _ ?_ ?_) | split)

end Sys2Proof.Machine
end

