-- ==== Sys2Proof/Laws/FrameFrames.lean ====
section
/-! SUPPORT. Frame lemmas of Machine/Frames.lean: what each operation leaves alone. -/
set_option linter.unusedSimpArgs false
set_option linter.unusedVariables false
namespace Sys2Proof.Machine

theorem toBasin_frame (L : Region → Bool) (hNet : L .net = true) (x : NetFrame) (s : State) :
    blank L (toBasin x s) = blank L s := by
  simp only [toBasin, modNet_frame, hNet]

theorem keeperSend_frame (L : Region → Bool) (hNet : L .net = true) (port : Option Nat) (f : EthFrame) (s : State) :
    blank L (keeperSend port f s) = blank L s := by
  unfold keeperSend
  repeat' (first | with_reducible rfl | (simp only [toBasin_frame, hNet, apply_ite (blank L), ite_self]) | (with_reducible refine ite_frame _ ?_ ?_) | split)

theorem countPort_frame (L : Region → Bool) (hWire : L .wire = true) (hNet : L .net = true) (p k n : Nat) (s : State) :
    blank L (countPort p k n s) = blank L s := by
  unfold countPort
  repeat' (first | with_reducible rfl | (simp only [emit_frame, modNet_frame, hWire, hNet, apply_ite (blank L), ite_self]) | (with_reducible refine ite_frame _ ?_ ?_) | split)

theorem setLink_frame (L : Region → Bool) (hWire : L .wire = true) (hNet : L .net = true) (p l : Nat) (s : State) :
    blank L (setLink p l s) = blank L s := by
  unfold setLink
  repeat' (first | with_reducible rfl | (simp only [countPort_frame, emit_frame, modPort_frame, hWire, hNet, apply_ite (blank L), ite_self]) | (with_reducible refine ite_frame _ ?_ ?_) | split)

end Sys2Proof.Machine
end

