-- ==== Sys2Proof/Laws/FrameTowLine.lean ====
section
/-! SUPPORT. Frame lemmas of Machine/TowLine.lean: what each operation leaves alone. -/
set_option linter.unusedSimpArgs false
set_option linter.unusedVariables false
namespace Sys2Proof.Machine

theorem sendLine_frame (L : Region → Bool) (hTow : L .tow = true) (x : Nat) (f : TowFrame) (s : State) :
    blank L (sendLine x f s) = blank L s := by
  unfold sendLine
  repeat' (first | with_reducible rfl | (simp only [modTpt_frame, hTow, apply_ite (blank L), ite_self]) | (with_reducible refine ite_frame _ ?_ ?_) | split)

end Sys2Proof.Machine
end

