-- ==== Sys2Proof/Laws/FrameTowLink.lean ====
section
/-! SUPPORT. Frame lemmas of Machine/TowLink.lean: what each operation leaves alone. -/
set_option linter.unusedSimpArgs false
set_option linter.unusedVariables false
namespace Sys2Proof.Machine

theorem countTow_frame (L : Region → Bool) (hWire : L .wire = true) (hTow : L .tow = true) (x k n : Nat) (s : State) :
    blank L (countTow x k n s) = blank L s := by
  unfold countTow
  repeat' (first | with_reducible rfl | (simp only [modTpt_frame, raiseEvt_frame, hWire, hTow, apply_ite (blank L), ite_self]) | (with_reducible refine ite_frame _ ?_ ?_) | split)

theorem owe_frame (L : Region → Bool) (hTow : L .tow = true) (x v n : Nat) (s : State) :
    blank L (owe x v n s) = blank L s := by
  unfold owe
  repeat' (first | with_reducible rfl | (simp only [modTpt_frame, hTow, apply_ite (blank L), ite_self]) | (with_reducible refine ite_frame _ ?_ ?_) | split)

theorem putOnLine_frame (L : Region → Bool) (hWire : L .wire = true) (hTow : L .tow = true) (x : Nat) (f : TowFrame) (s : State) :
    blank L (putOnLine x f s) = blank L s := by
  unfold putOnLine
  repeat' (first | with_reducible rfl | (simp only [countTow_frame, modTpt_frame, owe_frame, sendLine_frame, hWire, hTow, apply_ite (blank L), ite_self]) | (with_reducible refine ite_frame _ ?_ ?_) | split)

theorem pumpTow_frame (L : Region → Bool) (hWire : L .wire = true) (hTow : L .tow = true) (x n : Nat) (s : State) :
    blank L (pumpTow x n s) = blank L s := by
  induction n generalizing s with
  | zero => rfl
  | succ n ih =>
    unfold pumpTow
    repeat' (first | with_reducible rfl | (simp only [ih, modTpt_frame, putOnLine_frame, hWire, hTow, apply_ite (blank L), ite_self]) | (with_reducible refine ite_frame _ ?_ ?_) | split)

theorem pump_frame (L : Region → Bool) (hWire : L .wire = true) (hTow : L .tow = true) (x : Nat) (s : State) :
    blank L (pump x s) = blank L s := by
  unfold pump
  repeat' (first | with_reducible rfl | (simp only [pumpTow_frame, hWire, hTow, apply_ite (blank L), ite_self]) | (with_reducible refine ite_frame _ ?_ ?_) | split)

theorem towPut_frame (L : Region → Bool) (hWire : L .wire = true) (hTow : L .tow = true) (x : Nat) (f : TowFrame) (s : State) :
    blank L (towPut x f s) = blank L s := by
  unfold towPut
  repeat' (first | with_reducible rfl | (simp only [modTpt_frame, pump_frame, putOnLine_frame, hWire, hTow, apply_ite (blank L), ite_self]) | (with_reducible refine ite_frame _ ?_ ?_) | split)

theorem takeSeq_frame (L : Region → Bool) (hTow : L .tow = true) (d v : Nat) (s : State) :
    blank L (takeSeq d v s).2 = blank L s := by
  unfold takeSeq
  repeat' (first | with_reducible rfl | (simp only [modTow_frame, hTow, apply_ite (blank L), ite_self]) | (with_reducible refine ite_frame _ ?_ ?_) | split)

theorem takeSeq_frame_eq (L : Region → Bool) (hTow : L .tow = true) {d v : Nat} {s : State} {x9} {t9} (h : takeSeq d v s = (x9, t9)) :
    blank L t9 = blank L s := by
  rw [← takeSeq_frame L hTow d v s, h]

theorem towSend_frame (L : Region → Bool) (hWire : L .wire = true) (hTow : L .tow = true) (v d : Nat) (body : TowBody) (s : State) :
    blank L (towSend v d body s).2 = blank L s := by
  unfold towSend
  repeat' (first | with_reducible rfl | (with_reducible refine Eq.trans (takeSeq_frame_eq L hTow (by with_reducible assumption)) ?_) | (simp only [takeSeq_frame, towPut_frame, hWire, hTow, apply_ite (blank L), ite_self]) | (with_reducible refine ite_frame _ ?_ ?_) | split)

theorem towSend_frame_eq (L : Region → Bool) (hWire : L .wire = true) (hTow : L .tow = true) {v d : Nat} {body : TowBody} {s : State} {x9} {t9} (h : towSend v d body s = (x9, t9)) :
    blank L t9 = blank L s := by
  rw [← towSend_frame L hWire hTow v d body s, h]

theorem towEth_frame (L : Region → Bool) (hWire : L .wire = true) (hTow : L .tow = true) (x tc : Nat) (f : NetFrame) (s : State) :
    blank L (towEth x tc f s) = blank L s := by
  unfold towEth
  repeat' (first | with_reducible rfl | (with_reducible refine Eq.trans (takeSeq_frame_eq L hTow (by with_reducible assumption)) ?_) | (simp only [takeSeq_frame, towPut_frame, hWire, hTow, apply_ite (blank L), ite_self]) | (with_reducible refine ite_frame _ ?_ ?_) | split)

theorem towCast_frame (L : Region → Bool) (hWire : L .wire = true) (hTow : L .tow = true) (body : TowBody) (s : State) :
    blank L (towCast body s) = blank L s := by
  unfold towCast
  repeat' (first | with_reducible rfl | (simp only [towPut_frame, hWire, hTow, apply_ite (blank L), ite_self]) | (with_reducible refine (foldl_pair_frame L _ (fun _ _ => ?_) _ _).trans ?_) | (with_reducible refine (foldl_frame L _ (fun _ _ => ?_) _ _).trans ?_) | (with_reducible refine ite_frame _ ?_ ?_) | split)

theorem sendBeat_frame (L : Region → Bool) (hWire : L .wire = true) (hTow : L .tow = true) (x src hops : Nat) (b : Beat) (s : State) :
    blank L (sendBeat x src hops b s) = blank L s := by
  unfold sendBeat
  repeat' (first | with_reducible rfl | (simp only [putOnLine_frame, hWire, hTow, apply_ite (blank L), ite_self]) | (with_reducible refine ite_frame _ ?_ ?_) | split)

theorem relaySend_frame (L : Region → Bool) (hWire : L .wire = true) (hTow : L .tow = true) (b cls verb : Nat) (r : Req) (own : Bool) (sub : Option Nat) (s : State) :
    blank L (relaySend b cls verb r own sub s) = blank L s := by
  unfold relaySend
  repeat' (first | with_reducible rfl | (with_reducible refine Eq.trans (towSend_frame_eq L hWire hTow (by with_reducible assumption)) ?_) | (simp only [modBarge_frame, towSend_frame, hWire, hTow, apply_ite (blank L), ite_self]) | (with_reducible refine ite_frame _ ?_ ?_) | split)

theorem bargeFlush_frame (L : Region → Bool) (hWire : L .wire = true) (hTow : L .tow = true) (s : State) :
    blank L (bargeFlush s) = blank L s := by
  unfold bargeFlush
  repeat' (first | with_reducible rfl | (with_reducible refine Eq.trans (towSend_frame_eq L hWire hTow (by with_reducible assumption)) ?_) | ((with_reducible refine Eq.trans (modFv_part L _ _ ?_) ?_); (next => exact fun _ => by simp only [blankFv, hWire, if_true])) | (simp only [modTow_frame, towSend_frame, hWire, hTow, apply_ite (blank L), ite_self]) | (with_reducible refine (foldl_pair_frame L _ (fun _ _ => ?_) _ _).trans ?_) | (with_reducible refine (foldl_frame L _ (fun _ _ => ?_) _ _).trans ?_) | (with_reducible refine ite_frame _ ?_ ?_) | split)

end Sys2Proof.Machine
end

