-- ==== Sys2Proof/Laws/FrameOperands.lean ====
section
/-! SUPPORT. Frame lemmas of Machine/Operands.lean: what each operation leaves alone. -/
set_option linter.unusedSimpArgs false
set_option linter.unusedVariables false
namespace Sys2Proof.Machine

theorem writeFlds_frame (L : Region → Bool) {rc : Rec} (hf : FldsKeep L rc.flds) (ws : List (Nat × Nat)) (s : State) :
    blank L (writeFlds rc ws s) = blank L s := by
  unfold writeFlds
  refine foldl_frame L _ (fun s w => ?_) _ _
  split
  · rename_i f hw
    exact hf f (List.mem_of_find?_eq_some hw) _ _
  · rfl

theorem answer_frame (L : Region → Bool) (hWire : L .wire = true) (cls verb : Nat) (r : Req) (st : Status) (eff : Option Nat) (pl : List Byte) (s : State) :
    blank L (answer cls verb r st eff pl s) = blank L s := by
  unfold answer
  repeat' (first | with_reducible rfl | (simp only [modPq_frame, respond_frame, hWire, apply_ite (blank L), ite_self]) | (with_reducible refine ite_frame _ ?_ ?_) | split)

theorem centralHeard_frame (L : Region → Bool) (hWire : L .wire = true) (hDetect : L .detect = true) (hTp : L .tp = true) (hNm : L .nm = true) (p : Nat) (s : State) :
    blank L (centralHeard p s) = blank L s := by
  unfold centralHeard
  repeat' (first | with_reducible rfl | (simp only [emit_frame, modNm_frame, modTp_frame, tpClear_frame, hWire, hDetect, hTp, hNm, apply_ite (blank L), ite_self]) | (with_reducible refine ite_frame _ ?_ ?_) | split)

theorem accepted_frame (L : Region → Bool) (hWire : L .wire = true) (hDetect : L .detect = true) (hTp : L .tp = true) (hNm : L .nm = true) (p : Nat) (s : State) :
    blank L (accepted p s) = blank L s := by
  simp only [accepted, bumpPq_frame, centralHeard_frame, hWire, hDetect, hTp, hNm]

theorem stage_frame (L : Region → Bool) (hStaged : L .staged = true) (cls : Nat) (r : Req) (op : StagedOp) (s : State) :
    blank L (stage cls r op s) = blank L s := by
  unfold stage
  repeat' (first | with_reducible rfl | ((with_reducible refine Eq.trans (modCyc_part L _ _ ?_) ?_); (next => exact fun _ => by simp only [blankCyc, hStaged, if_true])) | (simp only [hStaged, apply_ite (blank L), ite_self]) | (with_reducible refine ite_frame _ ?_ ?_) | split)

theorem withStaged_frame (L : Region → Bool) (cls : Nat) {record : Nat → Nat → Option Rec}
    (hr : ∀ i p rc, record i p = some rc → FldsKeep L rc.flds) (s : State) : blank L (withStaged cls record s) = blank L s := by
  unfold withStaged
  refine foldl_frame L _ (fun s w => ?_) _ _
  split
  · split
    · split
      · rename_i rc h
        exact writeFlds_frame L (hr _ _ _ h) _ _
      · rfl
    · rfl
  · rfl

theorem applySet_frame (L : Region → Bool) {k : ClassSpec} (hk : Keeps L k) (i p : Nat) (ws : List (Nat × Nat)) (s : State) :
    blank L (applySet k i p ws s) = blank L s := by
  unfold applySet
  split
  · rename_i rc hr
    exact (hk.after _ _ _ _ _).trans (writeFlds_frame L (hk.record hr) ws s)
  · rfl

theorem doSet_frame (L : Region → Bool) (hStaged : L .staged = true) (hWire : L .wire = true) (hDetect : L .detect = true) (hTp : L .tp = true) (hNm : L .nm = true) {k : ClassSpec} (hk : Keeps L k) (r : Req) (s : State) :
    blank L (doSet k r s) = blank L s := by
  unfold doSet
  repeat' (first | with_reducible rfl | (refine Eq.trans (hk.held (by assumption)) ?_) | (simp only [answer_frame, accepted_frame, stage_frame, applySet_frame L hk, hStaged, hWire, hDetect, hTp, hNm, apply_ite (blank L), ite_self]) | (with_reducible refine ite_frame _ ?_ ?_) | split)

theorem doAct_frame (L : Region → Bool) (hStaged : L .staged = true) (hWire : L .wire = true) (hDetect : L .detect = true) (hTp : L .tp = true) (hNm : L .nm = true) {k : ClassSpec} (hk : Keeps L k) (r : Req) (s : State) :
    blank L (doAct k r s) = blank L s := by
  unfold doAct
  split
  · simp only [answer_frame, hStaged, hWire, hDetect, hTp, hNm]
  · rename_i a ha
    have h := hk.acts a (List.mem_of_find?_eq_some ha)
    repeat' (first | with_reducible rfl | (refine Eq.trans (h.held (by assumption)) ?_) | (simp only [answer_frame, accepted_frame, stage_frame, h.run, h.taken, h.refuse, hStaged, hWire, hDetect, hTp, hNm, apply_ite (blank L), ite_self]) | (with_reducible refine ite_frame _ ?_ ?_) | split)

theorem addSub_frame (L : Region → Bool) (hFv : L .fv = true) (k : ClassSpec) (r : Req) (s : State) :
    blank L (addSub k r s).2 = blank L s :=
  modFv_part L _ _ (fun _ => by simp only [blankFv, hFv, if_true])

theorem addSub_frame_eq (L : Region → Bool) (hFv : L .fv = true) {k : ClassSpec} {r : Req} {s : State} {x9 t9}
    (h : addSub k r s = (x9, t9)) : blank L t9 = blank L s := by
  rw [← addSub_frame L hFv k r s, h]

theorem doSub_frame (L : Region → Bool) (hFv : L .fv = true) (hWire : L .wire = true) (hDetect : L .detect = true) (hTp : L .tp = true) (hNm : L .nm = true) (k : ClassSpec) (r : Req) (s : State) :
    blank L (doSub k r s) = blank L s := by
  unfold doSub
  repeat' (first | with_reducible rfl | (with_reducible refine Eq.trans (addSub_frame_eq L hFv (by with_reducible assumption)) ?_) | (simp only [accepted_frame, addSub_frame, answer_frame, hFv, hWire, hDetect, hTp, hNm, apply_ite (blank L), ite_self]) | (with_reducible refine ite_frame _ ?_ ?_) | split)

theorem doList_frame (L : Region → Bool) (hWire : L .wire = true) (hDetect : L .detect = true) (hTp : L .tp = true) (hNm : L .nm = true) (k : ClassSpec) (r : Req) (s : State) :
    blank L (doList k r s) = blank L s := by
  unfold doList
  repeat' (first | with_reducible rfl | (simp only [accepted_frame, answer_frame, hWire, hDetect, hTp, hNm, apply_ite (blank L), ite_self]) | (with_reducible refine ite_frame _ ?_ ?_) | split)

theorem doGet_frame (L : Region → Bool) (hWire : L .wire = true) (hDetect : L .detect = true) (hTp : L .tp = true) (hNm : L .nm = true) {k : ClassSpec} (hk : Keeps L k) (r : Req) (s : State) :
    blank L (doGet k r s) = blank L s := by
  unfold doGet
  split
  · exact (hk.onRead _ _ _ _ _).trans (by simp only [answer_frame, accepted_frame, hWire, hDetect, hTp, hNm])
  · simp only [answer_frame, hWire, hDetect, hTp, hNm]

theorem relayTo_frame (L : Region → Bool) (hFv : L .fv = true) (hWire : L .wire = true) (hDetect : L .detect = true) (hTp : L .tp = true) (hNm : L .nm = true) (hTow : L .tow = true) (k : ClassSpec) (verb : Nat) (r : Req) (s : State) :
    blank L (relayTo k verb r s) = blank L s := by
  unfold relayTo
  repeat' (first | with_reducible rfl | (with_reducible refine Eq.trans (addSub_frame_eq L hFv (by with_reducible assumption)) ?_) | ((with_reducible refine Eq.trans (modFv_part L _ _ ?_) ?_); (next => exact fun _ => by simp only [blankFv, hFv, if_true])) | (simp only [accepted_frame, addSub_frame, answer_frame, modPq_frame, relaySend_frame, hFv, hWire, hDetect, hTp, hNm, hTow, apply_ite (blank L), ite_self]) | (with_reducible refine ite_frame _ ?_ ?_) | split)

theorem received_frame (L : Region → Bool) (hWire : L .wire = true) (p : Nat) (s : State) :
    blank L (received p s) = blank L s := by
  simp only [received, bumpPq_frame, modPq_frame, hWire]

theorem serve_frame (L : Region → Bool) (hFv : L .fv = true) (hWire : L .wire = true) (hDetect : L .detect = true) (hTp : L .tp = true) (hNm : L .nm = true) (hTow : L .tow = true) (k : ClassSpec) (verb : Nat) (r : Req) (body : State → State)
    (hb : ∀ s, blank L (body s) = blank L s) (s : State) : blank L (serve k verb r body s) = blank L s := by
  unfold serve
  repeat' (first | with_reducible rfl | (refine Eq.trans (hb _) ?_) | (simp only [answer_frame, received_frame, relayTo_frame, hFv, hWire, hDetect, hTp, hNm, hTow, apply_ite (blank L), ite_self]) | (with_reducible refine ite_frame _ ?_ ?_) | split)

theorem cmdSet_frame (L : Region → Bool) (hStaged : L .staged = true) (hFv : L .fv = true) (hWire : L .wire = true) (hDetect : L .detect = true) (hTp : L .tp = true) (hNm : L .nm = true) (hTow : L .tow = true) {k : ClassSpec} (hk : Keeps L k) (r : Req) (s : State) :
    blank L (cmdSet k r s) = blank L s :=
  serve_frame L hFv hWire hDetect hTp hNm hTow _ _ _ _ (fun s => doSet_frame L hStaged hWire hDetect hTp hNm hk r s) s

theorem cmdAct_frame (L : Region → Bool) (hStaged : L .staged = true) (hFv : L .fv = true) (hWire : L .wire = true) (hDetect : L .detect = true) (hTp : L .tp = true) (hNm : L .nm = true) (hTow : L .tow = true) {k : ClassSpec} (hk : Keeps L k) (code : Nat) (r : Req) (s : State) :
    blank L (cmdAct k code r s) = blank L s :=
  serve_frame L hFv hWire hDetect hTp hNm hTow _ _ _ _ (fun s => doAct_frame L hStaged hWire hDetect hTp hNm hk _ s) s

end Sys2Proof.Machine
end

