-- ==== Sys2Proof/Laws/FrameChannels.lean ====
section
/-! SUPPORT. Frame lemmas of Machine/Channels.lean: what each operation leaves alone. -/
set_option linter.unusedSimpArgs false
set_option linter.unusedVariables false
namespace Sys2Proof.Machine

theorem deadMark_frame (L : Region → Bool) (hPow : L .pow = true) (s0 : State) (i : Nat) (s : State) :
    blank L (deadMark s0 i s) = blank L s := by
  unfold deadMark
  repeat' (first | with_reducible rfl | (simp only [modChan_frame, hPow, apply_ite (blank L), ite_self]) | (with_reducible refine ite_frame _ ?_ ?_) | split)

theorem startPad_frame (L : Region → Bool) (hMot : L .mot = true) (i : Nat) (s : State) :
    blank L (startPad i s) = blank L s := by
  unfold startPad
  repeat' (first | with_reducible rfl | (simp only [modPad_frame, hMot, apply_ite (blank L), ite_self]) | (with_reducible refine ite_frame _ ?_ ?_) | split)

theorem switchOn_frame (L : Region → Bool) (hWire : L .wire = true) (hPow : L .pow = true) (hSlu : L .slu = true) (hMot : L .mot = true) (i : Nat) (count : Bool) (s : State) :
    blank L (switchOn i count s) = blank L s := by
  unfold switchOn
  repeat' (first | with_reducible rfl | (simp only [emit_frame, modChan_frame, modWire_frame, startPad_frame, hWire, hPow, hSlu, hMot, apply_ite (blank L), ite_self]) | (with_reducible refine ite_frame _ ?_ ?_) | split)

theorem switchOff_frame (L : Region → Bool) (hPow : L .pow = true) (i : Nat) (st : ChState) (s : State) :
    blank L (switchOff i st s) = blank L s := by
  unfold switchOff
  repeat' (first | with_reducible rfl | (simp only [modChan_frame, hPow, apply_ite (blank L), ite_self]) | (with_reducible refine ite_frame _ ?_ ?_) | split)

theorem gateOff_frame (L : Region → Bool) (hPow : L .pow = true) (i : Nat) (s : State) :
    blank L (gateOff i s) = blank L s := by
  unfold gateOff
  repeat' (first | with_reducible rfl | (simp only [modChan_frame, hPow, apply_ite (blank L), ite_self]) | (with_reducible refine ite_frame _ ?_ ?_) | split)

theorem setDemands_frame (L : Region → Bool) (hPow : L .pow = true) (b : Nat) (s : State) :
    blank L (setDemands b s) = blank L s := by
  unfold setDemands
  repeat' (first | with_reducible rfl | (simp only [modChan_frame, hPow, apply_ite (blank L), ite_self]) | (with_reducible refine (foldl_pair_frame L _ (fun _ _ => ?_) _ _).trans ?_) | (with_reducible refine (foldl_frame L _ (fun _ _ => ?_) _ _).trans ?_) | (with_reducible refine ite_frame _ ?_ ?_) | split)

theorem latchOff_frame (L : Region → Bool) (hWire : L .wire = true) (hPow : L .pow = true) (i : Nat) (s : State) :
    blank L (latchOff i s) = blank L s := by
  simp only [latchOff, emit_frame, modChan_frame, switchOff_frame, hWire, hPow]

theorem enterTrip_frame (L : Region → Bool) (hWire : L .wire = true) (hPow : L .pow = true) (i : Nat) (s : State) :
    blank L (enterTrip i s) = blank L s := by
  unfold enterTrip
  repeat' (first | with_reducible rfl | (simp only [latchOff_frame, modChan_frame, switchOff_frame, hWire, hPow, apply_ite (blank L), ite_self]) | (with_reducible refine ite_frame _ ?_ ?_) | split)

theorem switchOnPair_frame (L : Region → Bool) (hWire : L .wire = true) (hPow : L .pow = true) (hSlu : L .slu = true) (hMot : L .mot = true) (i : Nat) (count : Bool) (s : State) :
    blank L (switchOnPair i count s) = blank L s := by
  unfold switchOnPair
  repeat' (first | with_reducible rfl | (simp only [switchOn_frame, hWire, hPow, hSlu, hMot, apply_ite (blank L), ite_self]) | (with_reducible refine ite_frame _ ?_ ?_) | split)

theorem deferMark_frame (L : Region → Bool) (hPow : L .pow = true) (i : Nat) (s : State) :
    blank L (deferMark i s) = blank L s := by
  simp only [deferMark, modChan_frame, hPow]

theorem waitIn_frame (L : Region → Bool) (hPow : L .pow = true) (st : ChState) (i : Nat) (s : State) :
    blank L (waitIn st i s) = blank L s := by
  simp only [waitIn, modChan_frame, hPow]

theorem demandOn_frame (L : Region → Bool) (hWire : L .wire = true) (hPow : L .pow = true) (hSlu : L .slu = true) (hMot : L .mot = true) (i : Nat) (s : State) :
    blank L (demandOn i s) = blank L s := by
  unfold demandOn
  repeat' (first | with_reducible rfl | (simp only [deferMark_frame, modChan_frame, switchOnPair_frame, waitIn_frame, hWire, hPow, hSlu, hMot, apply_ite (blank L), ite_self]) | (with_reducible refine ite_frame _ ?_ ?_) | split)

theorem chanBoundary_frame (L : Region → Bool) (hWire : L .wire = true) (hPow : L .pow = true) (hSlu : L .slu = true) (hMot : L .mot = true) (go wait : List Nat) (i : Nat) (s : State) :
    blank L (chanBoundary go wait i s) = blank L s := by
  unfold chanBoundary
  repeat' (first | with_reducible rfl | (simp only [deferMark_frame, demandOn_frame, emit_frame, enterTrip_frame, latchOff_frame, modChan_frame, switchOff_frame, switchOnPair_frame, switchOn_frame, waitIn_frame, hWire, hPow, hSlu, hMot, apply_ite (blank L), ite_self]) | (with_reducible refine ite_frame _ ?_ ?_) | split)

theorem chansBoundary_frame (L : Region → Bool) (hWire : L .wire = true) (hTp : L .tp = true) (hPow : L .pow = true) (hSlu : L .slu = true) (hMot : L .mot = true) (s : State) :
    blank L (chansBoundary s) = blank L s := by
  unfold chansBoundary
  repeat' (first | with_reducible rfl | (simp only [chanBoundary_frame, modTp_frame, hWire, hTp, hPow, hSlu, hMot, apply_ite (blank L), ite_self]) | (with_reducible refine (foldl_pair_frame L _ (fun _ _ => ?_) _ _).trans ?_) | (with_reducible refine (foldl_frame L _ (fun _ _ => ?_) _ _).trans ?_) | (with_reducible refine ite_frame _ ?_ ?_) | split)

theorem partnerOff_frame (L : Region → Bool) (hPow : L .pow = true) (i : Nat) (s : State) :
    blank L (partnerOff i s) = blank L s := by
  unfold partnerOff
  repeat' (first | with_reducible rfl | (simp only [gateOff_frame, hPow, apply_ite (blank L), ite_self]) | (with_reducible refine ite_frame _ ?_ ?_) | split)

theorem reversalOff_frame (L : Region → Bool) (hPow : L .pow = true) (hMot : L .mot = true) (i : Nat) (s : State) :
    blank L (reversalOff i s) = blank L s := by
  unfold reversalOff
  repeat' (first | with_reducible rfl | (simp only [modBrDyn_frame, modBr_frame, setDemands_frame, hPow, hMot, apply_ite (blank L), ite_self]) | (with_reducible refine ite_frame _ ?_ ?_) | split)

theorem analogTrip_frame (L : Region → Bool) (hWire : L .wire = true) (hDetect : L .detect = true) (hPow : L .pow = true) (hMot : L .mot = true) (i cause energy : Nat) (cur : Int) (bp : Nat) (s : State) :
    blank L (analogTrip i cause energy cur bp s) = blank L s := by
  unfold analogTrip
  repeat' (first | with_reducible rfl | (simp only [detect_frame, gateOff_frame, modChan_frame, partnerOff_frame, reversalOff_frame, hWire, hDetect, hPow, hMot, apply_ite (blank L), ite_self]) | (with_reducible refine ite_frame _ ?_ ?_) | split)

theorem recordTrip_frame (L : Region → Bool) (hWire : L .wire = true) (hPow : L .pow = true) (i : Nat) (s : State) :
    blank L (recordTrip i s) = blank L s := by
  unfold recordTrip
  repeat' (first | with_reducible rfl | (simp only [emit_frame, modChan_frame, hWire, hPow, apply_ite (blank L), ite_self]) | (with_reducible refine ite_frame _ ?_ ?_) | split)

theorem loseSegment_frame (L : Region → Bool) (hWire : L .wire = true) (hPond : L .pond = true) (hPow : L .pow = true) (i : Nat) (s : State) :
    blank L (loseSegment i s) = blank L s := by
  unfold loseSegment
  repeat' (first | with_reducible rfl | (simp only [emit_frame, latchOff_frame, modChan_frame, wearLog_frame, hWire, hPond, hPow, apply_ite (blank L), ite_self]) | (with_reducible refine ite_frame _ ?_ ?_) | split)

theorem swapSegment_frame (L : Region → Bool) (hWire : L .wire = true) (hPond : L .pond = true) (hPow : L .pow = true) (i g : Nat) (s : State) :
    blank L (swapSegment i g s) = blank L s := by
  simp only [swapSegment, emit_frame, modChan_frame, modSeg_frame, pondIn_frame, hWire, hPond, hPow]

theorem failSegment_frame (L : Region → Bool) (hWire : L .wire = true) (hPond : L .pond = true) (hPow : L .pow = true) (i g : Nat) (s : State) :
    blank L (failSegment i g s) = blank L s := by
  unfold failSegment
  repeat' (first | with_reducible rfl | (simp only [loseSegment_frame, modChan_frame, modSeg_frame, hWire, hPond, hPow, apply_ite (blank L), ite_self]) | (with_reducible refine ite_frame _ ?_ ?_) | split)

theorem stuckSeen_frame (L : Region → Bool) (hWire : L .wire = true) (hPow : L .pow = true) (i : Nat) (s : State) :
    blank L (stuckSeen i s) = blank L s := by
  unfold stuckSeen
  repeat' (first | with_reducible rfl | (simp only [emit_frame, modChan_frame, hWire, hPow, apply_ite (blank L), ite_self]) | (with_reducible refine ite_frame _ ?_ ?_) | split)

theorem chanRec_keeps (L : Region → Bool) (hPow : L .pow = true) (i : Nat) : FldsKeep L (chanRec i).flds := by
  unfold chanRec
  repeat' (first | (refine FldsKeep.lift (fun _ _ => ?_)) | (refine FldsKeep.append ?_ ?_) | (refine FldsKeep.flatMap (fun _ => ?_)) | (refine FldsKeep.map (fun _ => ?_)) | (refine FldsKeep.cons ?_ ?_) | (exact FldsKeep.nil) | (exact fun _ _ => rfl) | (intro n9 s9) | (simp only [modChan_frame, hPow, apply_ite (blank L), ite_self]))

theorem chanCtl_keeps (L : Region → Bool) (hPow : L .pow = true) (i : Nat) : FldsKeep L (chanCtl i).flds := by
  unfold chanCtl
  repeat' (first | (refine FldsKeep.lift (fun _ _ => ?_)) | (refine FldsKeep.append ?_ ?_) | (refine FldsKeep.flatMap (fun _ => ?_)) | (refine FldsKeep.map (fun _ => ?_)) | (refine FldsKeep.cons ?_ ?_) | (exact FldsKeep.nil) | (exact fun _ _ => rfl) | (intro n9 s9) | (simp only [modChan_frame, hPow, apply_ite (blank L), ite_self]))

theorem chanRecord_keeps (L : Region → Bool) (hPow : L .pow = true) {i part : Nat} {rc : Rec} (h : chanRecord i part = some rc) : FldsKeep L rc.flds := by
  unfold chanRecord at h
  repeat' (split at h)
  all_goals first | (cases h; done) | (injection h with h; subst h; first | (exact FldsKeep.nil) | (with_reducible exact chanRec_keeps L hPow _) | (with_reducible exact chanCtl_keeps L hPow _))

theorem chanClass_keeps (L : Region → Bool) (hPow : L .pow = true)  : Keeps L (chanClass) where
  record h := by
    simp only [chanClass] at h
    repeat' (split at h)
    all_goals first | (cases h; done) | (with_reducible exact chanRecord_keeps L hPow h) | (injection h with h; subst h; first | (exact FldsKeep.nil) | (with_reducible exact chanRec_keeps L hPow _))
  after _ _ _ _ _ := by
    simp only [chanClass]
    repeat' (first | with_reducible rfl | (simp only [modChan_frame, hPow, apply_ite (blank L), ite_self]) | (with_reducible refine ite_frame _ ?_ ?_) | split)
  onRead _ _ _ _ _ := by
    simp only [chanClass]
    repeat' (first | with_reducible rfl | (simp only [modChan_frame, hPow, apply_ite (blank L), ite_self]) | (with_reducible refine ite_frame _ ?_ ?_) | split)
  held h := by
    first
    | (cases h; done)
    | (simp only [chanClass] at h; exact absurd h)
  acts := by
    simp only [chanClass]
    repeat' (first | (exact ActsKeep.nil) | (refine ActsKeep.cons ?_ ?_) | (refine ⟨fun _ _ _ _ => ?_, fun _ => ?_, fun _ _ _ => ?_, fun h9 => ?_⟩) | (cases h9; done) | (injection h9 with h9; subst h9) | with_reducible rfl | (simp only [modChan_frame, hPow, apply_ite (blank L), ite_self]) | (with_reducible refine ite_frame _ ?_ ?_) | split)

theorem execChanSet_frame (L : Region → Bool) (hStaged : L .staged = true) (hFv : L .fv = true) (hWire : L .wire = true) (hDetect : L .detect = true) (hTp : L .tp = true) (hPow : L .pow = true) (hNm : L .nm = true) (hTow : L .tow = true) {r : Req} {s : State} {t9} (h : execChanSet r s = .next t9) :
    blank L t9 = blank L s := by
  unfold execChanSet at h
  injection h with h
  subst h
  repeat' (first | with_reducible rfl | (refine Eq.trans (cmdSet_frame L hStaged hFv hWire hDetect hTp hNm hTow (chanClass_keeps L hPow) _ _) ?_) | (simp only [hStaged, hFv, hWire, hDetect, hTp, hPow, hNm, hTow, apply_ite (blank L), ite_self]) | (with_reducible refine ite_frame _ ?_ ?_) | split)

theorem execChanRestart_frame (L : Region → Bool) (hStaged : L .staged = true) (hFv : L .fv = true) (hWire : L .wire = true) (hDetect : L .detect = true) (hTp : L .tp = true) (hPow : L .pow = true) (hNm : L .nm = true) (hTow : L .tow = true) {r : Req} {s : State} {t9} (h : execChanRestart r s = .next t9) :
    blank L t9 = blank L s := by
  unfold execChanRestart at h
  injection h with h
  subst h
  repeat' (first | with_reducible rfl | (refine Eq.trans (cmdAct_frame L hStaged hFv hWire hDetect hTp hNm hTow (chanClass_keeps L hPow) _ _ _) ?_) | (simp only [hStaged, hFv, hWire, hDetect, hTp, hPow, hNm, hTow, apply_ite (blank L), ite_self]) | (with_reducible refine ite_frame _ ?_ ?_) | split)

theorem execChanClearFlags_frame (L : Region → Bool) (hStaged : L .staged = true) (hFv : L .fv = true) (hWire : L .wire = true) (hDetect : L .detect = true) (hTp : L .tp = true) (hPow : L .pow = true) (hNm : L .nm = true) (hTow : L .tow = true) {r : Req} {s : State} {t9} (h : execChanClearFlags r s = .next t9) :
    blank L t9 = blank L s := by
  unfold execChanClearFlags at h
  injection h with h
  subst h
  repeat' (first | with_reducible rfl | (refine Eq.trans (cmdAct_frame L hStaged hFv hWire hDetect hTp hNm hTow (chanClass_keeps L hPow) _ _ _) ?_) | (simp only [hStaged, hFv, hWire, hDetect, hTp, hPow, hNm, hTow, apply_ite (blank L), ite_self]) | (with_reducible refine ite_frame _ ?_ ?_) | split)

theorem execChanOffDiag_frame (L : Region → Bool) (hStaged : L .staged = true) (hFv : L .fv = true) (hWire : L .wire = true) (hDetect : L .detect = true) (hTp : L .tp = true) (hPow : L .pow = true) (hNm : L .nm = true) (hTow : L .tow = true) {r : Req} {s : State} {t9} (h : execChanOffDiag r s = .next t9) :
    blank L t9 = blank L s := by
  unfold execChanOffDiag at h
  injection h with h
  subst h
  repeat' (first | with_reducible rfl | (refine Eq.trans (cmdAct_frame L hStaged hFv hWire hDetect hTp hNm hTow (chanClass_keeps L hPow) _ _ _) ?_) | (simp only [hStaged, hFv, hWire, hDetect, hTp, hPow, hNm, hTow, apply_ite (blank L), ite_self]) | (with_reducible refine ite_frame _ ?_ ?_) | split)

theorem setBand_frame (L : Region → Bool) (hPow : L .pow = true) (g : Nat) (b : Band) (v : Nat) (s : State) :
    blank L (setBand g b v s) = blank L s := by
  simp only [setBand, modGrp_frame, hPow]

theorem groupEnd_frame (L : Region → Bool) (hWire : L .wire = true) (hDetect : L .detect = true) (bp : Nat) (s : State) :
    blank L (groupEnd bp s) = blank L s := by
  unfold groupEnd
  repeat' (first | with_reducible rfl | (simp only [detectEnd_frame, hWire, hDetect, apply_ite (blank L), ite_self]) | (with_reducible refine ite_frame _ ?_ ?_) | split)

theorem foSet_frame (L : Region → Bool) (hFio : L .fio = true) (k : Nat) (v : Bool) (s : State) :
    blank L (foSet k v s) = blank L s := by
  unfold foSet
  repeat' (first | with_reducible rfl | (simp only [modFo_frame, hFio, apply_ite (blank L), ite_self]) | (with_reducible refine ite_frame _ ?_ ?_) | split)

theorem clsHoldOn_frame (L : Region → Bool) (hFio : L .fio = true) (s : State) :
    blank L (clsHoldOn s) = blank L s := by
  unfold clsHoldOn
  repeat' (first | with_reducible rfl | (simp only [modDi_frame, modFio_frame, hFio, apply_ite (blank L), ite_self]) | (with_reducible refine (foldl_pair_frame L _ (fun _ _ => ?_) _ _).trans ?_) | (with_reducible refine (foldl_frame L _ (fun _ _ => ?_) _ _).trans ?_) | (with_reducible refine ite_frame _ ?_ ?_) | split)

theorem execGroupFallVOff_frame (L : Region → Bool) (hWire : L .wire = true) (hDetect : L .detect = true) (hPow : L .pow = true) (hFio : L .fio = true) {g v : Nat} {s : State} {t9} (h : execGroupFallVOff g v s = .next t9) :
    blank L t9 = blank L s := by
  obtain ⟨-, rfl⟩ := guardUnit_next h
  repeat' (first | with_reducible rfl | (simp only [clsHoldOn_frame, detect_frame, emit_frame, foSet_frame, modChan_frame, setBand_frame, switchOff_frame, hWire, hDetect, hPow, hFio, apply_ite (blank L), ite_self]) | (with_reducible refine (foldl_pair_frame L _ (fun _ _ => ?_) _ _).trans ?_) | (with_reducible refine (foldl_frame L _ (fun _ _ => ?_) _ _).trans ?_) | (with_reducible refine ite_frame _ ?_ ?_) | split)

theorem execGroupRiseVOff_frame (L : Region → Bool) (hWire : L .wire = true) (hPow : L .pow = true) {g v : Nat} {s : State} {t9} (h : execGroupRiseVOff g v s = .next t9) :
    blank L t9 = blank L s := by
  obtain ⟨-, rfl⟩ := guardUnit_next h
  repeat' (first | with_reducible rfl | (simp only [deferMark_frame, emit_frame, setBand_frame, switchOff_frame, hWire, hPow, apply_ite (blank L), ite_self]) | (with_reducible refine (foldl_pair_frame L _ (fun _ _ => ?_) _ _).trans ?_) | (with_reducible refine (foldl_frame L _ (fun _ _ => ?_) _ _).trans ?_) | (with_reducible refine ite_frame _ ?_ ?_) | split)

theorem execGroupFallVFull_frame (L : Region → Bool) (hWire : L .wire = true) (hDetect : L .detect = true) (hPow : L .pow = true) {g v : Nat} {s : State} {t9} (h : execGroupFallVFull g v s = .next t9) :
    blank L t9 = blank L s := by
  obtain ⟨-, rfl⟩ := guardUnit_next h
  repeat' (first | with_reducible rfl | (simp only [detect_frame, emit_frame, setBand_frame, hWire, hDetect, hPow, apply_ite (blank L), ite_self]) | (with_reducible refine ite_frame _ ?_ ?_) | split)

theorem execGroupRiseVFull_frame (L : Region → Bool) (hWire : L .wire = true) (hDetect : L .detect = true) (hPow : L .pow = true) {g v : Nat} {s : State} {t9} (h : execGroupRiseVFull g v s = .next t9) :
    blank L t9 = blank L s := by
  obtain ⟨-, rfl⟩ := guardUnit_next h
  repeat' (first | with_reducible rfl | (simp only [emit_frame, groupEnd_frame, modChan_frame, setBand_frame, hWire, hDetect, hPow, apply_ite (blank L), ite_self]) | (with_reducible refine (foldl_pair_frame L _ (fun _ _ => ?_) _ _).trans ?_) | (with_reducible refine (foldl_frame L _ (fun _ _ => ?_) _ _).trans ?_) | (with_reducible refine ite_frame _ ?_ ?_) | split)

theorem execGroupRiseVOv_frame (L : Region → Bool) (hWire : L .wire = true) (hDetect : L .detect = true) (hPow : L .pow = true) {g v : Nat} {s : State} {t9} (h : execGroupRiseVOv g v s = .next t9) :
    blank L t9 = blank L s := by
  obtain ⟨-, rfl⟩ := guardUnit_next h
  repeat' (first | with_reducible rfl | (simp only [detect_frame, emit_frame, setBand_frame, hWire, hDetect, hPow, apply_ite (blank L), ite_self]) | (with_reducible refine ite_frame _ ?_ ?_) | split)

theorem execGroupFallVOv_frame (L : Region → Bool) (hWire : L .wire = true) (hDetect : L .detect = true) (hPow : L .pow = true) {g v : Nat} {s : State} {t9} (h : execGroupFallVOv g v s = .next t9) :
    blank L t9 = blank L s := by
  obtain ⟨-, rfl⟩ := guardUnit_next h
  repeat' (first | with_reducible rfl | (simp only [emit_frame, groupEnd_frame, modChan_frame, setBand_frame, hWire, hDetect, hPow, apply_ite (blank L), ite_self]) | (with_reducible refine (foldl_pair_frame L _ (fun _ _ => ?_) _ _).trans ?_) | (with_reducible refine (foldl_frame L _ (fun _ _ => ?_) _ _).trans ?_) | (with_reducible refine ite_frame _ ?_ ?_) | split)

theorem execSegmentFailure_frame (L : Region → Bool) (hWire : L .wire = true) (hDetect : L .detect = true) (hPond : L .pond = true) (hPow : L .pow = true) {i g : Nat} {s : State} {t9} (h : execSegmentFailure i g s = .next t9) :
    blank L t9 = blank L s := by
  obtain ⟨-, rfl⟩ := guardUnit_next h
  repeat' (first | with_reducible rfl | (simp only [detect_frame, failSegment_frame, hWire, hDetect, hPond, hPow, apply_ite (blank L), ite_self]) | (with_reducible refine ite_frame _ ?_ ?_) | split)

theorem execStuckTestEnd_frame (L : Region → Bool) (hWire : L .wire = true) (hDetect : L .detect = true) (hPond : L .pond = true) (hPow : L .pow = true) {i v g : Nat} {s : State} {t9} (h : execStuckTestEnd i v g s = .next t9) :
    blank L t9 = blank L s := by
  obtain ⟨-, rfl⟩ := guardUnit_next h
  repeat' (first | with_reducible rfl | (simp only [detect_frame, emit_frame, failSegment_frame, modChan_frame, hWire, hDetect, hPond, hPow, apply_ite (blank L), ite_self]) | (with_reducible refine ite_frame _ ?_ ?_) | split)

theorem execOffDiagStart_frame (L : Region → Bool) (hPow : L .pow = true) {i : Nat} {s : State} {t9} (h : execOffDiagStart i s = .next t9) :
    blank L t9 = blank L s := by
  obtain ⟨-, rfl⟩ := guardUnit_next h
  repeat' (first | with_reducible rfl | (simp only [modChan_frame, hPow, apply_ite (blank L), ite_self]) | (with_reducible refine ite_frame _ ?_ ?_) | split)

theorem execOffDiagEnd_frame (L : Region → Bool) (hWire : L .wire = true) (hPow : L .pow = true) {i vPull vFree : Nat} {s : State} {t9} (h : execOffDiagEnd i vPull vFree s = .next t9) :
    blank L t9 = blank L s := by
  obtain ⟨-, rfl⟩ := guardUnit_next h
  repeat' (first | with_reducible rfl | (simp only [emit_frame, modChan_frame, stuckSeen_frame, hWire, hPow, apply_ite (blank L), ite_self]) | (with_reducible refine ite_frame _ ?_ ?_) | split)

theorem execInrushWindowEnd_frame (L : Region → Bool) (hPow : L .pow = true) {i : Nat} {s : State} {t9} (h : execInrushWindowEnd i s = .next t9) :
    blank L t9 = blank L s := by
  obtain ⟨-, rfl⟩ := guardUnit_next h
  repeat' (first | with_reducible rfl | (simp only [modChan_frame, hPow, apply_ite (blank L), ite_self]) | (with_reducible refine ite_frame _ ?_ ?_) | split)

theorem execChargeComplete_frame (L : Region → Bool) (hPow : L .pow = true) {i : Nat} {s : State} {t9} (h : execChargeComplete i s = .next t9) :
    blank L t9 = blank L s := by
  obtain ⟨-, rfl⟩ := guardUnit_next h
  repeat' (first | with_reducible rfl | (simp only [modChan_frame, hPow, apply_ite (blank L), ite_self]) | (with_reducible refine ite_frame _ ?_ ?_) | split)

theorem chargeFail_frame (L : Region → Bool) (hWire : L .wire = true) (hDetect : L .detect = true) (hPow : L .pow = true) (hMot : L .mot = true) (i e : Nat) (s : State) :
    blank L (chargeFail i e s) = blank L s := by
  unfold chargeFail
  repeat' (first | with_reducible rfl | (simp only [analogTrip_frame, hWire, hDetect, hPow, hMot, apply_ite (blank L), ite_self]) | (with_reducible refine ite_frame _ ?_ ?_) | split)

theorem execChargeTimeLimit_frame (L : Region → Bool) (hWire : L .wire = true) (hDetect : L .detect = true) (hPow : L .pow = true) (hMot : L .mot = true) {i e : Nat} {s : State} {t9} (h : execChargeTimeLimit i e s = .next t9) :
    blank L t9 = blank L s := by
  obtain ⟨-, rfl⟩ := guardUnit_next h
  repeat' (first | with_reducible rfl | (simp only [chargeFail_frame, hWire, hDetect, hPow, hMot, apply_ite (blank L), ite_self]) | (with_reducible refine ite_frame _ ?_ ?_) | split)

theorem execChargeEnergyLimit_frame (L : Region → Bool) (hWire : L .wire = true) (hDetect : L .detect = true) (hPow : L .pow = true) (hMot : L .mot = true) {i e : Nat} {s : State} {t9} (h : execChargeEnergyLimit i e s = .next t9) :
    blank L t9 = blank L s := by
  obtain ⟨-, rfl⟩ := guardUnit_next h
  repeat' (first | with_reducible rfl | (simp only [chargeFail_frame, hWire, hDetect, hPow, hMot, apply_ite (blank L), ite_self]) | (with_reducible refine ite_frame _ ?_ ?_) | split)

theorem execShortTrip_frame (L : Region → Bool) (hWire : L .wire = true) (hDetect : L .detect = true) (hPow : L .pow = true) (hMot : L .mot = true) {i e : Nat} {cur : Int} {s : State} {t9} (h : execShortTrip i e cur s = .next t9) :
    blank L t9 = blank L s := by
  obtain ⟨-, rfl⟩ := guardUnit_next h
  repeat' (first | with_reducible rfl | (simp only [analogTrip_frame, hWire, hDetect, hPow, hMot, apply_ite (blank L), ite_self]) | (with_reducible refine ite_frame _ ?_ ?_) | split)

theorem execCurrentLimitOnset_frame (L : Region → Bool) (hPow : L .pow = true) {i cur : Nat} {s : State} {t9} (h : execCurrentLimitOnset i cur s = .next t9) :
    blank L t9 = blank L s := by
  obtain ⟨-, rfl⟩ := guardUnit_next h
  repeat' (first | with_reducible rfl | (simp only [modChan_frame, hPow, apply_ite (blank L), ite_self]) | (with_reducible refine ite_frame _ ?_ ?_) | split)

theorem execLimitTimerExpiry_frame (L : Region → Bool) (hWire : L .wire = true) (hDetect : L .detect = true) (hPow : L .pow = true) (hMot : L .mot = true) {i e : Nat} {cur : Int} {s : State} {t9} (h : execLimitTimerExpiry i e cur s = .next t9) :
    blank L t9 = blank L s := by
  obtain ⟨-, rfl⟩ := guardUnit_next h
  repeat' (first | with_reducible rfl | (simp only [analogTrip_frame, hWire, hDetect, hPow, hMot, apply_ite (blank L), ite_self]) | (with_reducible refine ite_frame _ ?_ ?_) | split)

theorem execLimitTimerClear_frame (L : Region → Bool) (hPow : L .pow = true) {i : Nat} {s : State} {t9} (h : execLimitTimerClear i s = .next t9) :
    blank L t9 = blank L s := by
  obtain ⟨-, rfl⟩ := guardUnit_next h
  repeat' (first | with_reducible rfl | (simp only [modChan_frame, hPow, apply_ite (blank L), ite_self]) | (with_reducible refine ite_frame _ ?_ ?_) | split)

theorem execCliffLatchSet_frame (L : Region → Bool) (hWire : L .wire = true) (hDetect : L .detect = true) (hPow : L .pow = true) (hMot : L .mot = true) {i e : Nat} {cur : Int} {s : State} {t9} (h : execCliffLatchSet i e cur s = .next t9) :
    blank L t9 = blank L s := by
  obtain ⟨-, rfl⟩ := guardUnit_next h
  repeat' (first | with_reducible rfl | (simp only [analogTrip_frame, detect_frame, modChan_frame, hWire, hDetect, hPow, hMot, apply_ite (blank L), ite_self]) | (with_reducible refine ite_frame _ ?_ ?_) | split)

theorem execCliffLatchRearm_frame (L : Region → Bool) (hWire : L .wire = true) (hDetect : L .detect = true) (hPow : L .pow = true) {i : Nat} {s : State} {t9} (h : execCliffLatchRearm i s = .next t9) :
    blank L t9 = blank L s := by
  obtain ⟨-, rfl⟩ := guardUnit_next h
  repeat' (first | with_reducible rfl | (simp only [detectEnd_frame, modChan_frame, hWire, hDetect, hPow, apply_ite (blank L), ite_self]) | (with_reducible refine ite_frame _ ?_ ?_) | split)

theorem execReverseTrip_frame (L : Region → Bool) (hWire : L .wire = true) (hDetect : L .detect = true) (hPow : L .pow = true) (hMot : L .mot = true) {i e : Nat} {cur : Int} {s : State} {t9} (h : execReverseTrip i e cur s = .next t9) :
    blank L t9 = blank L s := by
  obtain ⟨-, rfl⟩ := guardUnit_next h
  repeat' (first | with_reducible rfl | (simp only [analogTrip_frame, emit_frame, modChan_frame, hWire, hDetect, hPow, hMot, apply_ite (blank L), ite_self]) | (with_reducible refine ite_frame _ ?_ ?_) | split)

theorem execReverseFlag_frame (L : Region → Bool) (hWire : L .wire = true) (hPow : L .pow = true) {i : Nat} {s : State} {t9} (h : execReverseFlag i s = .next t9) :
    blank L t9 = blank L s := by
  obtain ⟨-, rfl⟩ := guardUnit_next h
  repeat' (first | with_reducible rfl | (simp only [emit_frame, modChan_frame, hWire, hPow, apply_ite (blank L), ite_self]) | (with_reducible refine ite_frame _ ?_ ?_) | split)

theorem execOpenLoadOn_frame (L : Region → Bool) (hWire : L .wire = true) (hPow : L .pow = true) {i : Nat} {s : State} {t9} (h : execOpenLoadOn i s = .next t9) :
    blank L t9 = blank L s := by
  obtain ⟨-, rfl⟩ := guardUnit_next h
  repeat' (first | with_reducible rfl | (simp only [emit_frame, modChan_frame, hWire, hPow, apply_ite (blank L), ite_self]) | (with_reducible refine ite_frame _ ?_ ?_) | split)

theorem execRetryDelayEnd_frame (L : Region → Bool) (hPow : L .pow = true) {i : Nat} {s : State} {t9} (h : execRetryDelayEnd i s = .next t9) :
    blank L t9 = blank L s := by
  obtain ⟨-, rfl⟩ := guardUnit_next h
  repeat' (first | with_reducible rfl | (simp only [modChan_frame, hPow, apply_ite (blank L), ite_self]) | (with_reducible refine ite_frame _ ?_ ?_) | split)

theorem execCleanTimeElapsed_frame (L : Region → Bool) (hPow : L .pow = true) {i : Nat} {s : State} {t9} (h : execCleanTimeElapsed i s = .next t9) :
    blank L t9 = blank L s := by
  obtain ⟨-, rfl⟩ := guardUnit_next h
  repeat' (first | with_reducible rfl | (simp only [modChan_frame, hPow, apply_ite (blank L), ite_self]) | (with_reducible refine ite_frame _ ?_ ?_) | split)

theorem execPatienceElapsed_frame (L : Region → Bool) (hPow : L .pow = true) {i : Nat} {s : State} {t9} (h : execPatienceElapsed i s = .next t9) :
    blank L t9 = blank L s := by
  obtain ⟨-, rfl⟩ := guardUnit_next h
  repeat' (first | with_reducible rfl | (simp only [modChan_frame, hPow, apply_ite (blank L), ite_self]) | (with_reducible refine ite_frame _ ?_ ?_) | split)

end Sys2Proof.Machine
end

