-- ==== Sys2Proof/Laws/FrameSluice.lean ====
section
/-! SUPPORT. Frame lemmas of Machine/Sluice.lean: what each operation leaves alone. -/
set_option linter.unusedSimpArgs false
set_option linter.unusedVariables false
namespace Sys2Proof.Machine

theorem ambientEvents_frame (L : Region → Bool) (hWire : L .wire = true) (hSlu : L .slu = true) (ain : Nat → Option Int) (s : State) :
    blank L (ambientEvents ain s) = blank L s := by
  unfold ambientEvents
  repeat' (first | with_reducible rfl | (simp only [emit_frame, modBundle_frame, hWire, hSlu, apply_ite (blank L), ite_self]) | (with_reducible refine (foldl_pair_frame L _ (fun _ _ => ?_) _ _).trans ?_) | (with_reducible refine (foldl_frame L _ (fun _ _ => ?_) _ _).trans ?_) | (with_reducible refine ite_frame _ ?_ ?_) | split)

theorem wireModels_frame (L : Region → Bool) (hSlu : L .slu = true) (ain : Nat → Option Int) (n : Nat) (s0 : State) :
    blank L (wireModels ain n s0) = blank L s0 := by
  unfold wireModels
  repeat' (first | with_reducible rfl | (simp only [modBundle_frame, modWire_frame, hSlu, apply_ite (blank L), ite_self]) | (with_reducible refine (foldl_pair_frame L _ (fun _ _ => ?_) _ _).trans ?_) | (with_reducible refine (foldl_frame L _ (fun _ _ => ?_) _ _).trans ?_) | (with_reducible refine ite_frame _ ?_ ?_) | split)

theorem wireJudge_frame (L : Region → Bool) (hWire : L .wire = true) (hPow : L .pow = true) (hSlu : L .slu = true) (i : Nat) (s : State) :
    blank L (wireJudge i s) = blank L s := by
  unfold wireJudge
  repeat' (first | with_reducible rfl | (simp only [emit_frame, modChan_frame, modWire_frame, hWire, hPow, hSlu, apply_ite (blank L), ite_self]) | (with_reducible refine ite_frame _ ?_ ?_) | split)

theorem sensorCheck_frame (L : Region → Bool) (hWire : L .wire = true) (hDetect : L .detect = true) (hPow : L .pow = true) (k : Nat) (s : State) :
    blank L (sensorCheck k s) = blank L s := by
  unfold sensorCheck
  repeat' (first | with_reducible rfl | (simp only [detectEnd_frame, detect_frame, modCluster_frame, hWire, hDetect, hPow, apply_ite (blank L), ite_self]) | (with_reducible refine ite_frame _ ?_ ?_) | split)

theorem clusterStep_frame (L : Region → Bool) (hPow : L .pow = true) (k : Nat) (s : State) : blank L (clusterStep k s) = blank L s := by
  rw [clusterStep]
  exact modCluster_frame L hPow k _ s

theorem cutTo_frame (L : Region → Bool) (hWire : L .wire = true) (hPow : L .pow = true) (k t : Nat) (s : State) :
    blank L (cutTo k t s) = blank L s := by
  unfold cutTo
  repeat' (first | with_reducible rfl | (simp only [emit_frame, modChan_frame, hWire, hPow, apply_ite (blank L), ite_self]) | (with_reducible refine (foldl_pair_frame L _ (fun _ _ => ?_) _ _).trans ?_) | (with_reducible refine (foldl_frame L _ (fun _ _ => ?_) _ _).trans ?_) | (with_reducible refine ite_frame _ ?_ ?_) | split)

theorem cutWindows_frame (L : Region → Bool) (hWire : L .wire = true) (hPow : L .pow = true) (k : Nat) (s : State) :
    blank L (cutWindows k s) = blank L s := by
  unfold cutWindows
  repeat' (first | with_reducible rfl | (simp only [cutTo_frame, hWire, hPow, apply_ite (blank L), ite_self]) | (with_reducible refine (foldl_pair_frame L _ (fun _ _ => ?_) _ _).trans ?_) | (with_reducible refine (foldl_frame L _ (fun _ _ => ?_) _ _).trans ?_) | (with_reducible refine ite_frame _ ?_ ?_) | split)

theorem shedCluster_frame (L : Region → Bool) (hPow : L .pow = true) (k : Nat) (l : List Nat) (left : Int) (s : State) :
    blank L (shedCluster k l left s) = blank L s := by
  induction l generalizing left s with
  | nil => rfl
  | cons a r ih =>
    unfold shedCluster
    repeat' (first | with_reducible rfl | (simp only [ih, modChan_frame, hPow, apply_ite (blank L), ite_self]) | (with_reducible refine ite_frame _ ?_ ?_) | split)

theorem clusterJudge_frame (L : Region → Bool) (hWire : L .wire = true) (hPow : L .pow = true) (k : Nat) (s : State) :
    blank L (clusterJudge k s) = blank L s := by
  unfold clusterJudge
  repeat' (first | with_reducible rfl | (simp only [cutWindows_frame, modChan_frame, shedCluster_frame, hWire, hPow, apply_ite (blank L), ite_self]) | (with_reducible refine ite_frame _ ?_ ?_) | split)

theorem shedBudget_frame (L : Region → Bool) (hPow : L .pow = true) (b : Nat) (l : List Nat) (sum : Int) (out : List Nat) (s : State) :
    blank L (shedBudget b l sum out s).2.2 = blank L s := by
  induction l generalizing sum out s with
  | nil => rfl
  | cons a r ih =>
    unfold shedBudget
    repeat' (first | with_reducible rfl | (simp only [ih, modChan_frame, hPow, apply_ite (blank L), ite_self]) | (with_reducible refine ite_frame _ ?_ ?_) | split)

theorem shedBudget_frame_eq (L : Region → Bool) (hPow : L .pow = true) {b : Nat} {l : List Nat} {sum : Int} {out : List Nat} {s : State} {x9 y9 t9}
    (h : shedBudget b l sum out s = (x9, y9, t9)) : blank L t9 = blank L s := by
  rw [← shedBudget_frame L hPow b l sum out s, h]

theorem budgetFail_frame (L : Region → Bool) (hWire : L .wire = true) (hDetect : L .detect = true) (hSlu : L .slu = true) (b : Nat) (s : State) :
    blank L (budgetFail b s) = blank L s := by
  unfold budgetFail
  repeat' (first | with_reducible rfl | (simp only [detect_frame, emit_frame, modBudget_frame, hWire, hDetect, hSlu, apply_ite (blank L), ite_self]) | (with_reducible refine ite_frame _ ?_ ?_) | split)

theorem budgetStep_frame (L : Region → Bool) (hWire : L .wire = true) (hDetect : L .detect = true) (hPow : L .pow = true) (hSlu : L .slu = true) (fo : Int) (b : Nat) (s : State) :
    blank L (budgetStep fo b s) = blank L s := by
  unfold budgetStep
  repeat' (first | with_reducible rfl | (with_reducible refine Eq.trans (shedBudget_frame_eq L hPow (by with_reducible assumption)) ?_) | (simp only [budgetFail_frame, detectEnd_frame, emit_frame, modBudget_frame, shedBudget_frame, hWire, hDetect, hPow, hSlu, apply_ite (blank L), ite_self]) | (with_reducible refine ite_frame _ ?_ ?_) | split)

theorem budgetRestore_frame (L : Region → Bool) (hWire : L .wire = true) (hPow : L .pow = true) (hSlu : L .slu = true) (b : Nat) (s : State) :
    blank L (budgetRestore b s) = blank L s := by
  unfold budgetRestore
  repeat' (first | with_reducible rfl | (simp only [emit_frame, modBudget_frame, modChan_frame, hWire, hPow, hSlu, apply_ite (blank L), ite_self]) | (with_reducible refine ite_frame _ ?_ ?_) | split)

theorem budgetRec_keeps (L : Region → Bool)  (b : Nat) : FldsKeep L (budgetRec b).flds := by
  unfold budgetRec
  repeat' (first | (refine FldsKeep.lift (fun _ _ => ?_)) | (refine FldsKeep.append ?_ ?_) | (refine FldsKeep.flatMap (fun _ => ?_)) | (refine FldsKeep.map (fun _ => ?_)) | (refine FldsKeep.cons ?_ ?_) | (exact FldsKeep.nil) | (exact fun _ _ => rfl) | (intro n9 s9) | (simp only [apply_ite (blank L), ite_self]))

theorem teleReport_frame (L : Region → Bool) (hWire : L .wire = true) (hSlu : L .slu = true) (n : Nat) (u : TeleSub) (s : State) :
    blank L (teleReport n u s) = blank L s := by
  unfold teleReport
  repeat' (first | with_reducible rfl | ((with_reducible refine Eq.trans (modFv_part L _ _ ?_) ?_); (next => exact fun _ => by simp only [blankFv, hWire, if_true])) | (simp only [modSlu_frame, place_frame, hWire, hSlu, apply_ite (blank L), ite_self]) | (with_reducible refine (foldl_pair_frame L _ (fun _ _ => ?_) _ _).trans ?_) | (with_reducible refine (foldl_frame L _ (fun _ _ => ?_) _ _).trans ?_) | (with_reducible refine ite_frame _ ?_ ?_) | split)

theorem telemetry_frame (L : Region → Bool) (hWire : L .wire = true) (hSlu : L .slu = true) (n : Nat) (s : State) :
    blank L (telemetry n s) = blank L s := by
  unfold telemetry
  repeat' (first | with_reducible rfl | (simp only [teleReport_frame, hWire, hSlu, apply_ite (blank L), ite_self]) | (with_reducible refine (foldl_pair_frame L _ (fun _ _ => ?_) _ _).trans ?_) | (with_reducible refine (foldl_frame L _ (fun _ _ => ?_) _ _).trans ?_) | (with_reducible refine ite_frame _ ?_ ?_) | split)

theorem engage_frame (L : Region → Bool) (hWire : L .wire = true) (hDetect : L .detect = true) (hPow : L .pow = true) (hSlu : L .slu = true) (hMot : L .mot = true) (i : Nat) (s : State) :
    blank L (engage i s) = blank L s := by
  unfold engage
  repeat' (first | with_reducible rfl | (simp only [analogTrip_frame, modChan_frame, modWire_frame, switchOff_frame, hWire, hDetect, hPow, hSlu, hMot, apply_ite (blank L), ite_self]) | (with_reducible refine ite_frame _ ?_ ?_) | split)

theorem declareSilent_frame (L : Region → Bool) (hWire : L .wire = true) (hDetect : L .detect = true) (hTp : L .tp = true) (hPow : L .pow = true) (hSlu : L .slu = true) (hMot : L .mot = true) (s : State) :
    blank L (declareSilent s) = blank L s := by
  unfold declareSilent
  repeat' (first | with_reducible rfl | (simp only [emit_frame, engage_frame, modChan_frame, modSlu_frame, modWire_frame, tpSet_frame, hWire, hDetect, hTp, hPow, hSlu, hMot, apply_ite (blank L), ite_self]) | (with_reducible refine (foldl_pair_frame L _ (fun _ _ => ?_) _ _).trans ?_) | (with_reducible refine (foldl_frame L _ (fun _ _ => ?_) _ _).trans ?_) | (with_reducible refine ite_frame _ ?_ ?_) | split)

theorem setNodes_frame (L : Region → Bool) (hSlu : L .slu = true) (i : Nat) (tc ti tb : Int) (s : State) :
    blank L (setNodes i tc ti tb s) = blank L s := by
  simp only [setNodes, modWire_frame, hSlu]

theorem startNodes_frame (L : Region → Bool) (hSlu : L .slu = true) (ain : Nat → Option Int) (sleepS : Nat) (s : State) :
    blank L (startNodes ain sleepS s) = blank L s := by
  unfold startNodes
  repeat' (first | with_reducible rfl | (simp only [modBundle_frame, setNodes_frame, hSlu, apply_ite (blank L), ite_self]) | (with_reducible refine (foldl_pair_frame L _ (fun _ _ => ?_) _ _).trans ?_) | (with_reducible refine (foldl_frame L _ (fun _ _ => ?_) _ _).trans ?_) | (with_reducible refine ite_frame _ ?_ ?_) | split)

theorem storeNodes_frame (L : Region → Bool) (hSlu : L .slu = true) (sleep : Bool) (s : State) :
    blank L (storeNodes sleep s) = blank L s := by
  simp only [storeNodes, modSlu_frame, hSlu]

theorem resume_frame (L : Region → Bool) (hWire : L .wire = true) (hPow : L .pow = true) (hSlu : L .slu = true) (ain : Nat → Option Int) (s : State) :
    blank L (resume ain s) = blank L s := by
  unfold resume
  repeat' (first | with_reducible rfl | (simp only [emit_frame, modBudget_frame, modBundle_frame, modChan_frame, modSlu_frame, modWire_frame, setNodes_frame, hWire, hPow, hSlu, apply_ite (blank L), ite_self]) | (with_reducible refine (foldl_pair_frame L _ (fun _ _ => ?_) _ _).trans ?_) | (with_reducible refine (foldl_frame L _ (fun _ _ => ?_) _ _).trans ?_) | (with_reducible refine ite_frame _ ?_ ?_) | split)

theorem i2tCheck_frame (L : Region → Bool) (hWire : L .wire = true) (hDetect : L .detect = true) (hSlu : L .slu = true) (i : Nat) (s : State) :
    blank L (i2tCheck i s) = blank L s := by
  unfold i2tCheck
  repeat' (first | with_reducible rfl | (simp only [detect_frame, modWire_frame, hWire, hDetect, hSlu, apply_ite (blank L), ite_self]) | (with_reducible refine ite_frame _ ?_ ?_) | split)

theorem fallbackCheck_frame (L : Region → Bool) (hWire : L .wire = true) (hDetect : L .detect = true) (hPow : L .pow = true) (hMot : L .mot = true) (i : Nat) (s : State) :
    blank L (fallbackCheck i s) = blank L s := by
  unfold fallbackCheck
  repeat' (first | with_reducible rfl | (simp only [analogTrip_frame, hWire, hDetect, hPow, hMot, apply_ite (blank L), ite_self]) | (with_reducible refine ite_frame _ ?_ ?_) | split)

theorem stuckCheck_frame (L : Region → Bool) (hWire : L .wire = true) (hPow : L .pow = true) (i v : Nat) (s : State) :
    blank L (stuckCheck i v s) = blank L s := by
  unfold stuckCheck
  repeat' (first | with_reducible rfl | (simp only [modChan_frame, stuckSeen_frame, hWire, hPow, apply_ite (blank L), ite_self]) | (with_reducible refine ite_frame _ ?_ ?_) | split)

theorem fillChan_frame (L : Region → Bool) (hWire : L .wire = true) (hDetect : L .detect = true) (hPow : L .pow = true) (hSlu : L .slu = true) (hMot : L .mot = true) (x : Samples) (i : Nat) (s : State) :
    blank L (fillChan x i s) = blank L s := by
  unfold fillChan
  repeat' (first | with_reducible rfl | (simp only [fallbackCheck_frame, modChan_frame, modWire_frame, stuckCheck_frame, hWire, hDetect, hPow, hSlu, hMot, apply_ite (blank L), ite_self]) | (with_reducible refine (foldl_pair_frame L _ (fun _ _ => ?_) _ _).trans ?_) | (with_reducible refine (foldl_frame L _ (fun _ _ => ?_) _ _).trans ?_) | (with_reducible refine ite_frame _ ?_ ?_) | split)

theorem fillGroups_frame (L : Region → Bool) (hPow : L .pow = true) (x : Samples) (s : State) :
    blank L (fillGroups x s) = blank L s := by
  unfold fillGroups
  repeat' (first | with_reducible rfl | (simp only [modGrp_frame, hPow, apply_ite (blank L), ite_self]) | (with_reducible refine (foldl_pair_frame L _ (fun _ _ => ?_) _ _).trans ?_) | (with_reducible refine (foldl_frame L _ (fun _ _ => ?_) _ _).trans ?_) | (with_reducible refine ite_frame _ ?_ ?_) | split)

theorem fillClusters_frame (L : Region → Bool) (hPow : L .pow = true) (x : Samples) (s : State) :
    blank L (fillClusters x s) = blank L s := by
  unfold fillClusters
  repeat' (first | with_reducible rfl | (simp only [modCluster_frame, hPow, apply_ite (blank L), ite_self]) | (with_reducible refine (foldl_pair_frame L _ (fun _ _ => ?_) _ _).trans ?_) | (with_reducible refine (foldl_frame L _ (fun _ _ => ?_) _ _).trans ?_) | (with_reducible refine ite_frame _ ?_ ?_) | split)

theorem fillLid_frame (L : Region → Bool) (hWire : L .wire = true) (hDetect : L .detect = true) (hSlu : L .slu = true) (x : Samples) (s : State) :
    blank L (fillLid x s) = blank L s := by
  unfold fillLid
  repeat' (first | with_reducible rfl | (simp only [detectEnd_frame, modSlu_frame, hWire, hDetect, hSlu, apply_ite (blank L), ite_self]) | (with_reducible refine ite_frame _ ?_ ?_) | split)

theorem fillAdcs_frame (L : Region → Bool) (hSlu : L .slu = true) (x : Samples) (s : State) :
    blank L (fillAdcs x s) = blank L s := by
  unfold fillAdcs
  repeat' (first | with_reducible rfl | (simp only [modAdc_frame, hSlu, apply_ite (blank L), ite_self]) | (with_reducible refine (foldl_pair_frame L _ (fun _ _ => ?_) _ _).trans ?_) | (with_reducible refine (foldl_frame L _ (fun _ _ => ?_) _ _).trans ?_) | (with_reducible refine ite_frame _ ?_ ?_) | split)

theorem fillChans_frame (L : Region → Bool) (hWire : L .wire = true) (hDetect : L .detect = true) (hPow : L .pow = true) (hSlu : L .slu = true) (hMot : L .mot = true) (x : Samples) (s : State) :
    blank L (fillChans x s) = blank L s := by
  unfold fillChans
  repeat' (first | with_reducible rfl | (simp only [fillChan_frame, i2tCheck_frame, hWire, hDetect, hPow, hSlu, hMot, apply_ite (blank L), ite_self]) | (with_reducible refine (foldl_pair_frame L _ (fun _ _ => ?_) _ _).trans ?_) | (with_reducible refine (foldl_frame L _ (fun _ _ => ?_) _ _).trans ?_) | (with_reducible refine ite_frame _ ?_ ?_) | split)

theorem recordTrips_frame (L : Region → Bool) (hWire : L .wire = true) (hPow : L .pow = true) (s : State) :
    blank L (recordTrips s) = blank L s := by
  unfold recordTrips
  repeat' (first | with_reducible rfl | (simp only [recordTrip_frame, hWire, hPow, apply_ite (blank L), ite_self]) | (with_reducible refine (foldl_pair_frame L _ (fun _ _ => ?_) _ _).trans ?_) | (with_reducible refine (foldl_frame L _ (fun _ _ => ?_) _ _).trans ?_) | (with_reducible refine ite_frame _ ?_ ?_) | split)

theorem fillPower_frame (L : Region → Bool) (hWire : L .wire = true) (hDetect : L .detect = true) (hPow : L .pow = true) (hSlu : L .slu = true) (hMot : L .mot = true) (x : Samples) (s : State) :
    blank L (fillPower x s) = blank L s := by
  unfold fillPower
  repeat' (first | with_reducible rfl | (simp only [fillAdcs_frame, fillChans_frame, fillClusters_frame, fillGroups_frame, fillLid_frame, recordTrips_frame, hWire, hDetect, hPow, hSlu, hMot, apply_ite (blank L), ite_self]) | (with_reducible refine ite_frame _ ?_ ?_) | split)

theorem levelChans_frame (L : Region → Bool) (hPow : L .pow = true) (s : State) :
    blank L (levelChans s) = blank L s := by
  unfold levelChans
  repeat' (first | with_reducible rfl | (simp only [modChan_frame, hPow, apply_ite (blank L), ite_self]) | (with_reducible refine (foldl_pair_frame L _ (fun _ _ => ?_) _ _).trans ?_) | (with_reducible refine (foldl_frame L _ (fun _ _ => ?_) _ _).trans ?_) | (with_reducible refine ite_frame _ ?_ ?_) | split)

theorem levelSluice_frame (L : Region → Bool) (hWire : L .wire = true) (hDetect : L .detect = true) (hPow : L .pow = true) (hSlu : L .slu = true) (ain : Nat → Option Int) (fo : Int) (s : State) :
    blank L (levelSluice ain fo s) = blank L s := by
  unfold levelSluice
  repeat' (first | with_reducible rfl | (simp only [ambientEvents_frame, budgetRestore_frame, budgetStep_frame, clusterJudge_frame, clusterStep_frame, levelChans_frame, modChan_frame, recordTrips_frame, sensorCheck_frame, telemetry_frame, wireJudge_frame, wireModels_frame, hWire, hDetect, hPow, hSlu, apply_ite (blank L), ite_self]) | (with_reducible refine (foldl_pair_frame L _ (fun _ _ => ?_) _ _).trans ?_) | (with_reducible refine (foldl_frame L _ (fun _ _ => ?_) _ _).trans ?_) | (with_reducible refine ite_frame _ ?_ ?_) | split)

theorem boundaryOn_frame (L : Region → Bool) (hSlu : L .slu = true) (s : State) :
    blank L (boundaryOn s) = blank L s := by
  unfold boundaryOn
  repeat' (first | with_reducible rfl | (simp only [modWire_frame, hSlu, apply_ite (blank L), ite_self]) | (with_reducible refine (foldl_pair_frame L _ (fun _ _ => ?_) _ _).trans ?_) | (with_reducible refine (foldl_frame L _ (fun _ _ => ?_) _ _).trans ?_) | (with_reducible refine ite_frame _ ?_ ?_) | split)

theorem boundarySluice_frame (L : Region → Bool) (hSlu : L .slu = true) (s : State) :
    blank L (boundarySluice s) = blank L s := by
  unfold boundarySluice
  repeat' (first | with_reducible rfl | (simp only [boundaryOn_frame, modAdc_frame, modSlu_frame, hSlu, apply_ite (blank L), ite_self]) | (with_reducible refine (foldl_pair_frame L _ (fun _ _ => ?_) _ _).trans ?_) | (with_reducible refine (foldl_frame L _ (fun _ _ => ?_) _ _).trans ?_) | (with_reducible refine ite_frame _ ?_ ?_) | split)

theorem chT_keeps (L : Region → Bool) (hSlu : L .slu = true) (byte i : Nat) (get : State → Int) (set : Int → WireCh → WireCh) : FldKeeps L (chT byte i get set) := by
  intro n9 s9
  simp only [chT, modWire_frame, hSlu]

theorem wireTypeRec_keeps (L : Region → Bool) (hSlu : L .slu = true) (i : Nat) : FldsKeep L (wireTypeRec i).flds := by
  unfold wireTypeRec
  repeat' (first | (refine FldsKeep.lift (fun _ _ => ?_)) | (refine FldsKeep.append ?_ ?_) | (refine FldsKeep.flatMap (fun _ => ?_)) | (refine FldsKeep.map (fun _ => ?_)) | (refine FldsKeep.cons ?_ ?_) | (exact FldsKeep.nil) | (exact fun _ _ => rfl) | (intro n9 s9) | (simp only [modWireType_frame, hSlu, apply_ite (blank L), ite_self]))

theorem bundleRec_keeps (L : Region → Bool) (hSlu : L .slu = true) (i : Nat) : FldsKeep L (bundleRec i).flds := by
  unfold bundleRec
  repeat' (first | (refine FldsKeep.lift (fun _ _ => ?_)) | (refine FldsKeep.append ?_ ?_) | (refine FldsKeep.flatMap (fun _ => ?_)) | (refine FldsKeep.map (fun _ => ?_)) | (refine FldsKeep.cons ?_ ?_) | (exact FldsKeep.nil) | (exact fun _ _ => rfl) | (intro n9 s9) | (simp only [modBundle_frame, hSlu, apply_ite (blank L), ite_self]))

theorem wireChRec_keeps (L : Region → Bool) (hSlu : L .slu = true) (i : Nat) : FldsKeep L (wireChRec i).flds := by
  unfold wireChRec
  repeat' (first | (refine FldsKeep.lift (fun _ _ => ?_)) | (refine FldsKeep.append ?_ ?_) | (refine FldsKeep.flatMap (fun _ => ?_)) | (refine FldsKeep.map (fun _ => ?_)) | (refine FldsKeep.cons ?_ ?_) | (exact FldsKeep.nil) | (with_reducible exact chT_keeps L hSlu _ _ _ _) | (exact fun _ _ => rfl) | (intro n9 s9) | (simp only [modWire_frame, hSlu, apply_ite (blank L), ite_self]))

theorem wireAfter_frame (L : Region → Bool) (hWire : L .wire = true) (hSlu : L .slu = true) (x0 : State) (i x1 : Nat) (ws : List (Nat × Nat)) (s : State) :
    blank L (wireAfter x0 i x1 ws s) = blank L s := by
  unfold wireAfter
  repeat' (first | with_reducible rfl | (simp only [emit_frame, modBundle_frame, hWire, hSlu, apply_ite (blank L), ite_self]) | (with_reducible refine ite_frame _ ?_ ?_) | split)

theorem wireClass_keeps (L : Region → Bool) (hWire : L .wire = true) (hSlu : L .slu = true)  : Keeps L (wireClass) where
  record h := by
    simp only [wireClass] at h
    repeat' (split at h)
    all_goals first | (cases h; done) | (injection h with h; subst h; first | (exact FldsKeep.nil) | (with_reducible exact bundleRec_keeps L hSlu _) | (with_reducible exact budgetRec_keeps L  _) | (with_reducible exact wireChRec_keeps L hSlu _) | (with_reducible exact wireTypeRec_keeps L hSlu _))
  after _ _ _ _ _ := by
    simp only [wireClass]
    repeat' (first | with_reducible rfl | (simp only [wireAfter_frame, hWire, hSlu, apply_ite (blank L), ite_self]) | (with_reducible refine ite_frame _ ?_ ?_) | split)
  onRead _ _ _ _ _ := by
    simp only [wireClass]
    repeat' (first | with_reducible rfl | (simp only [wireAfter_frame, hWire, hSlu, apply_ite (blank L), ite_self]) | (with_reducible refine ite_frame _ ?_ ?_) | split)
  held h := by
    first
    | (cases h; done)
    | (simp only [wireClass] at h; exact absurd h)
  acts := by
    simp only [wireClass]
    repeat' (first | (exact ActsKeep.nil) | (refine ActsKeep.cons ?_ ?_) | (refine ⟨fun _ _ _ _ => ?_, fun _ => ?_, fun _ _ _ => ?_, fun h9 => ?_⟩) | (cases h9; done) | (injection h9 with h9; subst h9) | with_reducible rfl | (simp only [wireAfter_frame, hWire, hSlu, apply_ite (blank L), ite_self]) | (with_reducible refine ite_frame _ ?_ ?_) | split)

theorem teleSub_frame (L : Region → Bool) (hFv : L .fv = true) (hWire : L .wire = true) (hDetect : L .detect = true) (hTp : L .tp = true) (hSlu : L .slu = true) (hNm : L .nm = true) (r : Req) (s : State) :
    blank L (teleSub r s) = blank L s := by
  unfold teleSub
  repeat' (first | with_reducible rfl | ((with_reducible refine Eq.trans (modFv_part L _ _ ?_) ?_); (next => exact fun _ => by simp only [blankFv, hFv, if_true])) | (simp only [accepted_frame, answer_frame, modSlu_frame, hFv, hWire, hDetect, hTp, hSlu, hNm, apply_ite (blank L), ite_self]) | (with_reducible refine ite_frame _ ?_ ?_) | split)

theorem wireSubBody_frame (L : Region → Bool) (hFv : L .fv = true) (hWire : L .wire = true) (hDetect : L .detect = true) (hTp : L .tp = true) (hSlu : L .slu = true) (hNm : L .nm = true) (r : Req) (s : State) :
    blank L (wireSubBody r s) = blank L s := by
  unfold wireSubBody
  repeat' (first | with_reducible rfl | (simp only [doSub_frame, teleSub_frame, hFv, hWire, hDetect, hTp, hSlu, hNm, apply_ite (blank L), ite_self]) | (with_reducible refine ite_frame _ ?_ ?_) | split)

theorem execWireSet_frame (L : Region → Bool) (hStaged : L .staged = true) (hFv : L .fv = true) (hWire : L .wire = true) (hDetect : L .detect = true) (hTp : L .tp = true) (hSlu : L .slu = true) (hNm : L .nm = true) (hTow : L .tow = true) {r : Req} {s : State} {t9} (h : execWireSet r s = .next t9) :
    blank L t9 = blank L s := by
  unfold execWireSet at h
  injection h with h
  subst h
  repeat' (first | with_reducible rfl | (refine Eq.trans (cmdSet_frame L hStaged hFv hWire hDetect hTp hNm hTow (wireClass_keeps L hWire hSlu) _ _) ?_) | (simp only [hStaged, hFv, hWire, hDetect, hTp, hSlu, hNm, hTow, apply_ite (blank L), ite_self]) | (with_reducible refine ite_frame _ ?_ ?_) | split)

theorem execWireSub_frame (L : Region → Bool) (hFv : L .fv = true) (hWire : L .wire = true) (hDetect : L .detect = true) (hTp : L .tp = true) (hSlu : L .slu = true) (hNm : L .nm = true) (hTow : L .tow = true) {r : Req} {s : State} {t9} (h : execWireSub r s = .next t9) :
    blank L t9 = blank L s := by
  unfold execWireSub at h
  injection h with h
  subst h
  repeat' (first | with_reducible rfl | (refine Eq.trans (serve_frame L hFv hWire hDetect hTp hNm hTow _ _ _ _ (fun _ => ?_) _) ?_) | (simp only [wireSubBody_frame, hFv, hWire, hDetect, hTp, hSlu, hNm, hTow, apply_ite (blank L), ite_self]) | (with_reducible refine ite_frame _ ?_ ?_) | split)

theorem bringAdc_frame (L : Region → Bool) (hWire : L .wire = true) (hPond : L .pond = true) (hSlu : L .slu = true) (g err : Nat) (s : State) :
    blank L (bringAdc g err s) = blank L s := by
  simp only [bringAdc, emit_frame, modAdc_frame, modPond_frame, pondIn_frame, hWire, hPond, hSlu]

theorem execAdcReferenceFailure_frame (L : Region → Bool) (hWire : L .wire = true) (hDetect : L .detect = true) (hPond : L .pond = true) (hPow : L .pow = true) (hSlu : L .slu = true) (hMot : L .mot = true) {g : Nat} {spare : Bool} {err : Nat} {s : State} {t9} (h : execAdcReferenceFailure g spare err s = .next t9) :
    blank L t9 = blank L s := by
  obtain ⟨-, rfl⟩ := guardUnit_next h
  repeat' (first | with_reducible rfl | (simp only [bringAdc_frame, detect_frame, emit_frame, engage_frame, modAdc_frame, modChan_frame, pondWear_frame, wearLog_frame, hWire, hDetect, hPond, hPow, hSlu, hMot, apply_ite (blank L), ite_self]) | (with_reducible refine (foldl_pair_frame L _ (fun _ _ => ?_) _ _).trans ?_) | (with_reducible refine (foldl_frame L _ (fun _ _ => ?_) _ _).trans ?_) | (with_reducible refine ite_frame _ ?_ ?_) | split)

theorem execAdcCrossCheckFailure_frame (L : Region → Bool) (hWire : L .wire = true) (hDetect : L .detect = true) (hSlu : L .slu = true) {i : Nat} {s : State} {t9} (h : execAdcCrossCheckFailure i s = .next t9) :
    blank L t9 = blank L s := by
  obtain ⟨-, rfl⟩ := guardUnit_next h
  repeat' (first | with_reducible rfl | (simp only [detect_frame, emit_frame, modAdc_frame, modWire_frame, hWire, hDetect, hSlu, apply_ite (blank L), ite_self]) | (with_reducible refine ite_frame _ ?_ ?_) | split)

theorem execModelStateStore_frame (L : Region → Bool) (hSlu : L .slu = true) {s : State} {t9} (h : execModelStateStore s = .next t9) :
    blank L t9 = blank L s := by
  unfold execModelStateStore at h
  injection h with h
  subst h
  repeat' (first | with_reducible rfl | (simp only [modSlu_frame, storeNodes_frame, hSlu, apply_ite (blank L), ite_self]) | (with_reducible refine ite_frame _ ?_ ?_) | split)

theorem execLidSensorMismatch_frame (L : Region → Bool) (hWire : L .wire = true) (hDetect : L .detect = true) (hSlu : L .slu = true) {s : State} {t9} (h : execLidSensorMismatch s = .next t9) :
    blank L t9 = blank L s := by
  unfold execLidSensorMismatch at h
  injection h with h
  subst h
  repeat' (first | with_reducible rfl | (simp only [detect_frame, emit_frame, modSlu_frame, hWire, hDetect, hSlu, apply_ite (blank L), ite_self]) | (with_reducible refine ite_frame _ ?_ ?_) | split)

theorem execHostAmbientStale_frame (L : Region → Bool) (hWire : L .wire = true) (hSlu : L .slu = true) {b : Nat} {s : State} {t9} (h : execHostAmbientStale b s = .next t9) :
    blank L t9 = blank L s := by
  obtain ⟨-, rfl⟩ := guardUnit_next h
  repeat' (first | with_reducible rfl | (simp only [emit_frame, modBundle_frame, hWire, hSlu, apply_ite (blank L), ite_self]) | (with_reducible refine ite_frame _ ?_ ?_) | split)

theorem execFallbackTrip_frame (L : Region → Bool) (hWire : L .wire = true) (hDetect : L .detect = true) (hPow : L .pow = true) (hMot : L .mot = true) {i e : Nat} {cur : Int} {s : State} {t9} (h : execFallbackTrip i e cur s = .next t9) :
    blank L t9 = blank L s := by
  obtain ⟨-, rfl⟩ := guardUnit_next h
  repeat' (first | with_reducible rfl | (simp only [analogTrip_frame, hWire, hDetect, hPow, hMot, apply_ite (blank L), ite_self]) | (with_reducible refine ite_frame _ ?_ ?_) | split)

theorem execBudgetRestore_frame (L : Region → Bool) (hWire : L .wire = true) (hPow : L .pow = true) (hSlu : L .slu = true) {b : Nat} {s : State} {t9} (h : execBudgetRestore b s = .next t9) :
    blank L t9 = blank L s := by
  obtain ⟨-, rfl⟩ := guardUnit_next h
  repeat' (first | with_reducible rfl | (simp only [budgetRestore_frame, modBudget_frame, hWire, hPow, hSlu, apply_ite (blank L), ite_self]) | (with_reducible refine ite_frame _ ?_ ?_) | split)

theorem execBudgetFail_frame (L : Region → Bool) (hWire : L .wire = true) (hDetect : L .detect = true) (hSlu : L .slu = true) {b : Nat} {s : State} {t9} (h : execBudgetFail b s = .next t9) :
    blank L t9 = blank L s := by
  obtain ⟨-, rfl⟩ := guardUnit_next h
  repeat' (first | with_reducible rfl | (simp only [budgetFail_frame, hWire, hDetect, hSlu, apply_ite (blank L), ite_self]) | (with_reducible refine ite_frame _ ?_ ?_) | split)

end Sys2Proof.Machine
end

