-- ==== Sys2Proof/Laws/FramePaddles.lean ====
section
/-! SUPPORT. Frame lemmas of Machine/Paddles.lean: what each operation leaves alone. -/
set_option linter.unusedSimpArgs false
set_option linter.unusedVariables false
namespace Sys2Proof.Machine

theorem respread_frame (L : Region → Bool) (hMot : L .mot = true) (s : State) :
    blank L (respread s) = blank L s := by
  unfold respread
  repeat' (first | with_reducible rfl | (simp only [modMot_frame, modPad_frame, hMot, apply_ite (blank L), ite_self]) | (with_reducible refine (foldl_pair_frame L _ (fun _ _ => ?_) _ _).trans ?_) | (with_reducible refine (foldl_frame L _ (fun _ _ => ?_) _ _).trans ?_) | (with_reducible refine ite_frame _ ?_ ?_) | split)

theorem padRec_keeps (L : Region → Bool) (hMot : L .mot = true) (i : Nat) : FldsKeep L (padRec i).flds := by
  unfold padRec
  repeat' (first | (refine FldsKeep.lift (fun _ _ => ?_)) | (refine FldsKeep.append ?_ ?_) | (refine FldsKeep.flatMap (fun _ => ?_)) | (refine FldsKeep.map (fun _ => ?_)) | (refine FldsKeep.cons ?_ ?_) | (exact FldsKeep.nil) | (exact fun _ _ => rfl) | (intro n9 s9) | (simp only [modPad_frame, hMot, apply_ite (blank L), ite_self]))

theorem spreadRec_keeps (L : Region → Bool) (hMot : L .mot = true) (g : Nat) : FldsKeep L (spreadRec g).flds := by
  unfold spreadRec
  repeat' (first | (refine FldsKeep.lift (fun _ _ => ?_)) | (refine FldsKeep.append ?_ ?_) | (refine FldsKeep.flatMap (fun _ => ?_)) | (refine FldsKeep.map (fun _ => ?_)) | (refine FldsKeep.cons ?_ ?_) | (exact FldsKeep.nil) | (exact fun _ _ => rfl) | (intro n9 s9) | (simp only [modMot_frame, hMot, apply_ite (blank L), ite_self]))

theorem padClass_keeps (L : Region → Bool) (hMot : L .mot = true)  : Keeps L (padClass) where
  record h := by
    simp only [padClass] at h
    repeat' (split at h)
    all_goals first | (cases h; done) | (injection h with h; subst h; first | (exact FldsKeep.nil) | (with_reducible exact spreadRec_keeps L hMot _) | (with_reducible exact padRec_keeps L hMot _))
  after _ _ _ _ _ := by
    simp only [padClass]
    repeat' (first | with_reducible rfl | (simp only [hMot, apply_ite (blank L), ite_self]) | (with_reducible refine ite_frame _ ?_ ?_) | split)
  onRead _ _ _ _ _ := by
    simp only [padClass]
    repeat' (first | with_reducible rfl | (simp only [hMot, apply_ite (blank L), ite_self]) | (with_reducible refine ite_frame _ ?_ ?_) | split)
  held h := by
    first
    | (cases h; done)
    | (simp only [padClass] at h; exact absurd h)
  acts := by
    simp only [padClass]
    repeat' (first | (exact ActsKeep.nil) | (refine ActsKeep.cons ?_ ?_) | (refine ⟨fun _ _ _ _ => ?_, fun _ => ?_, fun _ _ _ => ?_, fun h9 => ?_⟩) | (cases h9; done) | (injection h9 with h9; subst h9) | with_reducible rfl | (simp only [hMot, apply_ite (blank L), ite_self]) | (with_reducible refine ite_frame _ ?_ ?_) | split)

theorem padCommit_frame (L : Region → Bool) (hWire : L .wire = true) (hMot : L .mot = true) (c i : Nat) (s : State) :
    blank L (padCommit c i s) = blank L s := by
  unfold padCommit
  repeat' (first | with_reducible rfl | (simp only [answer_frame, modMot_frame, modPad_frame, hWire, hMot, apply_ite (blank L), ite_self]) | (with_reducible refine (foldl_pair_frame L _ (fun _ _ => ?_) _ _).trans ?_) | (with_reducible refine (foldl_frame L _ (fun _ _ => ?_) _ _).trans ?_) | (with_reducible refine ite_frame _ ?_ ?_) | split)

theorem padsCommit_frame (L : Region → Bool) (hWire : L .wire = true) (hMot : L .mot = true) (c : Nat) (s : State) :
    blank L (padsCommit c s) = blank L s := by
  unfold padsCommit
  repeat' (first | with_reducible rfl | (simp only [modPad_frame, padCommit_frame, respread_frame, hWire, hMot, apply_ite (blank L), ite_self]) | (with_reducible refine (foldl_pair_frame L _ (fun _ _ => ?_) _ _).trans ?_) | (with_reducible refine (foldl_frame L _ (fun _ _ => ?_) _ _).trans ?_) | (with_reducible refine ite_frame _ ?_ ?_) | split)

theorem padStep_frame (L : Region → Bool) (hPow : L .pow = true) (hMot : L .mot = true) (c i : Nat) (s : State) :
    blank L (padStep c i s) = blank L s := by
  unfold padStep
  repeat' (first | with_reducible rfl | (simp only [modPad_frame, switchOff_frame, hPow, hMot, apply_ite (blank L), ite_self]) | (with_reducible refine ite_frame _ ?_ ?_) | split)

theorem padBegin_frame (L : Region → Bool) (hPow : L .pow = true) (hMot : L .mot = true) (s : State) :
    blank L (padBegin s) = blank L s := by
  unfold padBegin
  repeat' (first | with_reducible rfl | (simp only [modChan_frame, startPad_frame, hPow, hMot, apply_ite (blank L), ite_self]) | (with_reducible refine (foldl_pair_frame L _ (fun _ _ => ?_) _ _).trans ?_) | (with_reducible refine (foldl_frame L _ (fun _ _ => ?_) _ _).trans ?_) | (with_reducible refine ite_frame _ ?_ ?_) | split)

theorem padsLatch_frame (L : Region → Bool) (hMot : L .mot = true) (s0 : State) (len : Nat) (s : State) :
    blank L (padsLatch s0 len s) = blank L s := by
  unfold padsLatch
  repeat' (first | with_reducible rfl | (simp only [modPad_frame, hMot, apply_ite (blank L), ite_self]) | (with_reducible refine (foldl_pair_frame L _ (fun _ _ => ?_) _ _).trans ?_) | (with_reducible refine (foldl_frame L _ (fun _ _ => ?_) _ _).trans ?_) | (with_reducible refine ite_frame _ ?_ ?_) | split)

theorem padMark_frame (L : Region → Bool) (hWire : L .wire = true) (hMot : L .mot = true) (i : Nat) (s : State) :
    blank L (padMark i s) = blank L s := by
  unfold padMark
  repeat' (first | with_reducible rfl | (simp only [emit_frame, modPad_frame, hWire, hMot, apply_ite (blank L), ite_self]) | (with_reducible refine ite_frame _ ?_ ?_) | split)

theorem settleWaves_frame (L : Region → Bool) (hWire : L .wire = true) (hPow : L .pow = true) (hMot : L .mot = true) (s0 s : State) :
    blank L (settleWaves s0 s) = blank L s := by
  unfold settleWaves
  repeat' (first | with_reducible rfl | (simp only [deadMark_frame, padMark_frame, hWire, hPow, hMot, apply_ite (blank L), ite_self]) | (with_reducible refine (foldl_pair_frame L _ (fun _ _ => ?_) _ _).trans ?_) | (with_reducible refine (foldl_frame L _ (fun _ _ => ?_) _ _).trans ?_) | (with_reducible refine ite_frame _ ?_ ?_) | split)

theorem bridgeEvt_frame (L : Region → Bool) (hWire : L .wire = true) (code b : Nat) (cur : Int) (s : State) :
    blank L (bridgeEvt code b cur s) = blank L s := by
  simp only [bridgeEvt, emit_frame, hWire]

theorem driveNow_frame (L : Region → Bool) (hPow : L .pow = true) (s0 : State) (b : Nat) (s : State) :
    blank L (driveNow s0 b s) = blank L s := by
  unfold driveNow
  repeat' (first | with_reducible rfl | (simp only [deadMark_frame, modChan_frame, hPow, apply_ite (blank L), ite_self]) | (with_reducible refine (foldl_pair_frame L _ (fun _ _ => ?_) _ _).trans ?_) | (with_reducible refine (foldl_frame L _ (fun _ _ => ?_) _ _).trans ?_) | (with_reducible refine ite_frame _ ?_ ?_) | split)

theorem tpSpent_frame (L : Region → Bool) (hTp : L .tp = true) (b : Nat) (s : State) :
    blank L (tpSpent b s) = blank L s := by
  unfold tpSpent
  repeat' (first | with_reducible rfl | (simp only [modTp_frame, hTp, apply_ite (blank L), ite_self]) | (with_reducible refine ite_frame _ ?_ ?_) | split)

theorem bridgeStop_frame (L : Region → Bool) (hTp : L .tp = true) (hPow : L .pow = true) (hMot : L .mot = true) (b : Nat) (s : State) :
    blank L (bridgeStop b s) = blank L s := by
  simp only [bridgeStop, driveNow_frame, modBrDyn_frame, modBr_frame, setDemands_frame, tpSpent_frame, hTp, hPow, hMot]

theorem pinch_frame (L : Region → Bool) (hWire : L .wire = true) (hDetect : L .detect = true) (hTp : L .tp = true) (hPow : L .pow = true) (hMot : L .mot = true) (b : Nat) (cur : Int) (s0 : State) :
    blank L (pinch b cur s0) = blank L s0 := by
  simp only [pinch, bridgeEvt_frame, detect_frame, driveNow_frame, modBrDyn_frame, modBr_frame, setDemands_frame, tpSpent_frame, hWire, hDetect, hTp, hPow, hMot]

theorem pinchJudge_frame (L : Region → Bool) (hWire : L .wire = true) (hDetect : L .detect = true) (hTp : L .tp = true) (hPow : L .pow = true) (hMot : L .mot = true) (b iv : Nat) (cur : Int) (s : State) :
    blank L (pinchJudge b iv cur s) = blank L s := by
  unfold pinchJudge
  repeat' (first | with_reducible rfl | (simp only [modBrDyn_frame, pinch_frame, hWire, hDetect, hTp, hPow, hMot, apply_ite (blank L), ite_self]) | (with_reducible refine ite_frame _ ?_ ?_) | split)

theorem reversalMoved_frame (L : Region → Bool) (hPow : L .pow = true) (hMot : L .mot = true) (b : Nat) (s : State) :
    blank L (reversalMoved b s) = blank L s := by
  unfold reversalMoved
  repeat' (first | with_reducible rfl | (simp only [driveNow_frame, modBrDyn_frame, hPow, hMot, apply_ite (blank L), ite_self]) | (with_reducible refine ite_frame _ ?_ ?_) | split)

theorem countRipple_frame (L : Region → Bool) (hMot : L .mot = true) (b : Nat) (s : State) :
    blank L (countRipple b s) = blank L s := by
  simp only [countRipple, modBr_frame, hMot]

theorem brRec_keeps (L : Region → Bool) (hMot : L .mot = true) (b : Nat) : FldsKeep L (brRec b).flds := by
  unfold brRec
  repeat' (first | (refine FldsKeep.lift (fun _ _ => ?_)) | (refine FldsKeep.append ?_ ?_) | (refine FldsKeep.flatMap (fun _ => ?_)) | (refine FldsKeep.map (fun _ => ?_)) | (refine FldsKeep.cons ?_ ?_) | (exact FldsKeep.nil) | (exact fun _ _ => rfl) | (intro n9 s9) | (simp only [modBr_frame, hMot, apply_ite (blank L), ite_self]))

theorem brParRec_keeps (L : Region → Bool) (hMot : L .mot = true) (b : Nat) : FldsKeep L (brParRec b).flds := by
  unfold brParRec
  repeat' (first | (refine FldsKeep.lift (fun _ _ => ?_)) | (refine FldsKeep.append ?_ ?_) | (refine FldsKeep.flatMap (fun _ => ?_)) | (refine FldsKeep.map (fun _ => ?_)) | (refine FldsKeep.cons ?_ ?_) | (exact FldsKeep.nil) | (exact fun _ _ => rfl) | (intro n9 s9) | (simp only [modBrPar_frame, hMot, apply_ite (blank L), ite_self]))

theorem bridgeRecord_keeps (L : Region → Bool) (hMot : L .mot = true) {i part : Nat} {rc : Rec} (h : bridgeRecord i part = some rc) : FldsKeep L rc.flds := by
  unfold bridgeRecord at h
  repeat' (split at h)
  all_goals first | (cases h; done) | (injection h with h; subst h; first | (exact FldsKeep.nil) | (with_reducible exact brRec_keeps L hMot _) | (with_reducible exact brParRec_keeps L hMot _))

theorem brAfter_frame (L : Region → Bool) (hPow : L .pow = true) (hMot : L .mot = true) (s0 : State) (i x0 : Nat) (ws : List (Nat × Nat)) (s : State) :
    blank L (brAfter s0 i x0 ws s) = blank L s := by
  unfold brAfter
  repeat' (first | with_reducible rfl | (simp only [modBrDyn_frame, modBr_frame, setDemands_frame, hPow, hMot, apply_ite (blank L), ite_self]) | (with_reducible refine ite_frame _ ?_ ?_) | split)

theorem brClass_keeps (L : Region → Bool) (hPow : L .pow = true) (hMot : L .mot = true)  : Keeps L (brClass) where
  record h := by
    simp only [brClass] at h
    repeat' (split at h)
    all_goals first | (cases h; done) | (with_reducible exact bridgeRecord_keeps L hMot h) | (injection h with h; subst h; first | (exact FldsKeep.nil))
  after _ _ _ _ _ := by
    simp only [brClass]
    repeat' (first | with_reducible rfl | (simp only [brAfter_frame, modBr_frame, hPow, hMot, apply_ite (blank L), ite_self]) | (with_reducible refine ite_frame _ ?_ ?_) | split)
  onRead _ _ _ _ _ := by
    simp only [brClass]
    repeat' (first | with_reducible rfl | (simp only [brAfter_frame, modBr_frame, hPow, hMot, apply_ite (blank L), ite_self]) | (with_reducible refine ite_frame _ ?_ ?_) | split)
  held h := by
    first
    | (cases h; done)
    | (simp only [brClass] at h; exact absurd h)
  acts := by
    simp only [brClass]
    repeat' (first | (exact ActsKeep.nil) | (refine ActsKeep.cons ?_ ?_) | (refine ⟨fun _ _ _ _ => ?_, fun _ => ?_, fun _ _ _ => ?_, fun h9 => ?_⟩) | (cases h9; done) | (injection h9 with h9; subst h9) | with_reducible rfl | (simp only [brAfter_frame, modBr_frame, hPow, hMot, apply_ite (blank L), ite_self]) | (with_reducible refine ite_frame _ ?_ ?_) | split)

theorem bridgeTurn_frame (L : Region → Bool) (hMot : L .mot = true) (b : Nat) (s : State) :
    blank L (bridgeTurn b s) = blank L s := by
  unfold bridgeTurn
  repeat' (first | with_reducible rfl | (simp only [modBrDyn_frame, hMot, apply_ite (blank L), ite_self]) | (with_reducible refine ite_frame _ ?_ ?_) | split)

theorem chopBoundary_frame (L : Region → Bool) (hMot : L .mot = true) (c b : Nat) (s : State) :
    blank L (chopBoundary c b s) = blank L s := by
  unfold chopBoundary
  repeat' (first | with_reducible rfl | (simp only [modBrDyn_frame, modBr_frame, hMot, apply_ite (blank L), ite_self]) | (with_reducible refine ite_frame _ ?_ ?_) | split)

theorem bridgeBoundary_frame (L : Region → Bool) (hMot : L .mot = true) (b : Nat) (s : State) :
    blank L (bridgeBoundary b s) = blank L s := by
  unfold bridgeBoundary
  repeat' (first | with_reducible rfl | (simp only [bridgeTurn_frame, modBrDyn_frame, hMot, apply_ite (blank L), ite_self]) | (with_reducible refine ite_frame _ ?_ ?_) | split)

theorem startPositions_frame (L : Region → Bool) (hMot : L .mot = true) (s : State) :
    blank L (startPositions s) = blank L s := by
  unfold startPositions
  repeat' (first | with_reducible rfl | (simp only [modBr_frame, hMot, apply_ite (blank L), ite_self]) | (with_reducible refine (foldl_pair_frame L _ (fun _ _ => ?_) _ _).trans ?_) | (with_reducible refine (foldl_frame L _ (fun _ _ => ?_) _ _).trans ?_) | (with_reducible refine ite_frame _ ?_ ?_) | split)

theorem execPaddleSet_frame (L : Region → Bool) (hStaged : L .staged = true) (hFv : L .fv = true) (hWire : L .wire = true) (hDetect : L .detect = true) (hTp : L .tp = true) (hMot : L .mot = true) (hNm : L .nm = true) (hTow : L .tow = true) {r : Req} {s : State} {t9} (h : execPaddleSet r s = .next t9) :
    blank L t9 = blank L s := by
  unfold execPaddleSet at h
  injection h with h
  subst h
  repeat' (first | with_reducible rfl | (refine Eq.trans (cmdSet_frame L hStaged hFv hWire hDetect hTp hNm hTow (padClass_keeps L hMot) _ _) ?_) | (simp only [hStaged, hFv, hWire, hDetect, hTp, hMot, hNm, hTow, apply_ite (blank L), ite_self]) | (with_reducible refine ite_frame _ ?_ ?_) | split)

theorem execBridgeSet_frame (L : Region → Bool) (hStaged : L .staged = true) (hFv : L .fv = true) (hWire : L .wire = true) (hDetect : L .detect = true) (hTp : L .tp = true) (hPow : L .pow = true) (hMot : L .mot = true) (hNm : L .nm = true) (hTow : L .tow = true) {r : Req} {s : State} {t9} (h : execBridgeSet r s = .next t9) :
    blank L t9 = blank L s := by
  unfold execBridgeSet at h
  injection h with h
  subst h
  repeat' (first | with_reducible rfl | (refine Eq.trans (cmdSet_frame L hStaged hFv hWire hDetect hTp hNm hTow (brClass_keeps L hPow hMot) _ _) ?_) | (simp only [hStaged, hFv, hWire, hDetect, hTp, hPow, hMot, hNm, hTow, apply_ite (blank L), ite_self]) | (with_reducible refine ite_frame _ ?_ ?_) | split)

theorem execBridgeSetPos_frame (L : Region → Bool) (hStaged : L .staged = true) (hFv : L .fv = true) (hWire : L .wire = true) (hDetect : L .detect = true) (hTp : L .tp = true) (hPow : L .pow = true) (hMot : L .mot = true) (hNm : L .nm = true) (hTow : L .tow = true) {r : Req} {s : State} {t9} (h : execBridgeSetPos r s = .next t9) :
    blank L t9 = blank L s := by
  unfold execBridgeSetPos at h
  injection h with h
  subst h
  repeat' (first | with_reducible rfl | (refine Eq.trans (cmdAct_frame L hStaged hFv hWire hDetect hTp hNm hTow (brClass_keeps L hPow hMot) _ _ _) ?_) | (simp only [hStaged, hFv, hWire, hDetect, hTp, hPow, hMot, hNm, hTow, apply_ite (blank L), ite_self]) | (with_reducible refine ite_frame _ ?_ ?_) | split)

theorem execBridgeClear_frame (L : Region → Bool) (hStaged : L .staged = true) (hFv : L .fv = true) (hWire : L .wire = true) (hDetect : L .detect = true) (hTp : L .tp = true) (hPow : L .pow = true) (hMot : L .mot = true) (hNm : L .nm = true) (hTow : L .tow = true) {r : Req} {s : State} {t9} (h : execBridgeClear r s = .next t9) :
    blank L t9 = blank L s := by
  unfold execBridgeClear at h
  injection h with h
  subst h
  repeat' (first | with_reducible rfl | (refine Eq.trans (cmdAct_frame L hStaged hFv hWire hDetect hTp hNm hTow (brClass_keeps L hPow hMot) _ _ _) ?_) | (simp only [hStaged, hFv, hWire, hDetect, hTp, hPow, hMot, hNm, hTow, apply_ite (blank L), ite_self]) | (with_reducible refine ite_frame _ ?_ ?_) | split)

theorem execReversalBrakeEnd_frame (L : Region → Bool) (hMot : L .mot = true) {b : Nat} {s : State} {t9} (h : execReversalBrakeEnd b s = .next t9) :
    blank L t9 = blank L s := by
  obtain ⟨-, rfl⟩ := guardUnit_next h
  repeat' (first | with_reducible rfl | (simp only [modBrDyn_frame, hMot, apply_ite (blank L), ite_self]) | (with_reducible refine ite_frame _ ?_ ?_) | split)

theorem execRegulationChop_frame (L : Region → Bool) (hMot : L .mot = true) {b : Nat} {s : State} {t9} (h : execRegulationChop b s = .next t9) :
    blank L t9 = blank L s := by
  obtain ⟨-, rfl⟩ := guardUnit_next h
  repeat' (first | with_reducible rfl | (simp only [modBrDyn_frame, modBr_frame, hMot, apply_ite (blank L), ite_self]) | (with_reducible refine ite_frame _ ?_ ?_) | split)

theorem execRippleCrossing_frame (L : Region → Bool) (hWire : L .wire = true) (hDetect : L .detect = true) (hTp : L .tp = true) (hPow : L .pow = true) (hMot : L .mot = true) {b iv : Nat} {cur : Int} {exc mean : Nat} {s : State} {t9} (h : execRippleCrossing b iv cur exc mean s = .next t9) :
    blank L t9 = blank L s := by
  obtain ⟨-, rfl⟩ := guardUnit_next h
  repeat' (first | with_reducible rfl | (simp only [countRipple_frame, modBrDyn_frame, modBr_frame, pinchJudge_frame, reversalMoved_frame, hWire, hDetect, hTp, hPow, hMot, apply_ite (blank L), ite_self]) | (with_reducible refine ite_frame _ ?_ ?_) | split)

theorem execRippleInsertion_frame (L : Region → Bool) (hWire : L .wire = true) (hDetect : L .detect = true) (hTp : L .tp = true) (hPow : L .pow = true) (hMot : L .mot = true) {b : Nat} {cur : Int} {s : State} {t9} (h : execRippleInsertion b cur s = .next t9) :
    blank L t9 = blank L s := by
  obtain ⟨-, rfl⟩ := guardUnit_next h
  repeat' (first | with_reducible rfl | (simp only [bridgeEvt_frame, bridgeStop_frame, countRipple_frame, detect_frame, modBr_frame, pinchJudge_frame, reversalMoved_frame, hWire, hDetect, hTp, hPow, hMot, apply_ite (blank L), ite_self]) | (with_reducible refine ite_frame _ ?_ ?_) | split)

theorem execBackEmfStop_frame (L : Region → Bool) (hMot : L .mot = true) {b : Nat} {s : State} {t9} (h : execBackEmfStop b s = .next t9) :
    blank L t9 = blank L s := by
  obtain ⟨-, rfl⟩ := guardUnit_next h
  repeat' (first | with_reducible rfl | (simp only [modBrDyn_frame, modBr_frame, hMot, apply_ite (blank L), ite_self]) | (with_reducible refine ite_frame _ ?_ ?_) | split)

theorem execStall_frame (L : Region → Bool) (hWire : L .wire = true) (hDetect : L .detect = true) (hTp : L .tp = true) (hPow : L .pow = true) (hMot : L .mot = true) {b : Nat} {cur : Int} {s : State} {t9} (h : execStall b cur s = .next t9) :
    blank L t9 = blank L s := by
  obtain ⟨-, rfl⟩ := guardUnit_next h
  repeat' (first | with_reducible rfl | (simp only [bridgeEvt_frame, bridgeStop_frame, detect_frame, driveNow_frame, modBrDyn_frame, modBr_frame, hWire, hDetect, hTp, hPow, hMot, apply_ite (blank L), ite_self]) | (with_reducible refine ite_frame _ ?_ ?_) | split)

theorem execPinchBrakeEnd_frame (L : Region → Bool) (hPow : L .pow = true) (hMot : L .mot = true) {b : Nat} {s : State} {t9} (h : execPinchBrakeEnd b s = .next t9) :
    blank L t9 = blank L s := by
  obtain ⟨-, rfl⟩ := guardUnit_next h
  repeat' (first | with_reducible rfl | (simp only [driveNow_frame, modBrDyn_frame, modPad_frame, hPow, hMot, apply_ite (blank L), ite_self]) | (with_reducible refine ite_frame _ ?_ ?_) | split)

theorem execBrakeHoldEnd_frame (L : Region → Bool) (hWire : L .wire = true) (hPow : L .pow = true) (hMot : L .mot = true) {b : Nat} {cur : Int} {s : State} {t9} (h : execBrakeHoldEnd b cur s = .next t9) :
    blank L t9 = blank L s := by
  obtain ⟨-, rfl⟩ := guardUnit_next h
  repeat' (first | with_reducible rfl | (simp only [bridgeEvt_frame, driveNow_frame, modBrDyn_frame, modBr_frame, setDemands_frame, hWire, hPow, hMot, apply_ite (blank L), ite_self]) | (with_reducible refine ite_frame _ ?_ ?_) | split)

end Sys2Proof.Machine
end

