-- ==== Sys2Proof/Laws/FrameFieldIo.lean ====
section
/-! SUPPORT. Frame lemmas of Machine/FieldIo.lean: what each operation leaves alone. -/
set_option linter.unusedSimpArgs false
set_option linter.unusedVariables false
namespace Sys2Proof.Machine

theorem latchDi_frame (L : Region → Bool) (hPwr : L .pwr = true) (i : Nat) (s : State) :
    blank L (latchDi i s) = blank L s := by
  unfold latchDi
  repeat' (first | with_reducible rfl | (simp only [modPwr_frame, hPwr, apply_ite (blank L), ite_self]) | (with_reducible refine ite_frame _ ?_ ?_) | split)

theorem setQ_frame (L : Region → Bool) (hWire : L .wire = true) (hFio : L .fio = true) (hPwr : L .pwr = true) (i k : Nat) (v : Bool) (s : State) :
    blank L (setQ i k v s) = blank L s := by
  unfold setQ
  repeat' (first | with_reducible rfl | (simp only [emit_frame, latchDi_frame, modDi_frame, hWire, hFio, hPwr, apply_ite (blank L), ite_self]) | (with_reducible refine ite_frame _ ?_ ?_) | split)

theorem diBinary_frame (L : Region → Bool) (hWire : L .wire = true) (hFio : L .fio = true) (hPwr : L .pwr = true) (i k v : Nat) (s : State) :
    blank L (diBinary i k v s) = blank L s := by
  unfold diBinary
  repeat' (first | with_reducible rfl | (simp only [modDi_frame, setQ_frame, hWire, hFio, hPwr, apply_ite (blank L), ite_self]) | (with_reducible refine ite_frame _ ?_ ?_) | split)

theorem takeClass_frame (L : Region → Bool) (hWire : L .wire = true) (hDetect : L .detect = true) (hFio : L .fio = true) (hPwr : L .pwr = true) (i k c : Nat) (s : State) :
    blank L (takeClass i k c s) = blank L s := by
  unfold takeClass
  repeat' (first | with_reducible rfl | (simp only [detectEnd_frame, detect_frame, emit_frame, modDi_frame, setQ_frame, hWire, hDetect, hFio, hPwr, apply_ite (blank L), ite_self]) | (with_reducible refine ite_frame _ ?_ ?_) | split)

theorem diClassify_frame (L : Region → Bool) (hWire : L .wire = true) (hDetect : L .detect = true) (hFio : L .fio = true) (hPwr : L .pwr = true) (i k v : Nat) (s : State) :
    blank L (diClassify i k v s) = blank L s := by
  unfold diClassify
  repeat' (first | with_reducible rfl | (simp only [modDi_frame, takeClass_frame, hWire, hDetect, hFio, hPwr, apply_ite (blank L), ite_self]) | (with_reducible refine ite_frame _ ?_ ?_) | split)

theorem diSamples_frame (L : Region → Bool) (hWire : L .wire = true) (hDetect : L .detect = true) (hFio : L .fio = true) (hPwr : L .pwr = true) (i k : Nat) (l : List Nat) (s : State) :
    blank L (diSamples i k l s) = blank L s := by
  induction l generalizing k s with
  | nil => rfl
  | cons a r ih =>
    unfold diSamples
    repeat' (first | with_reducible rfl | (simp only [ih, diBinary_frame, diClassify_frame, hWire, hDetect, hFio, hPwr, apply_ite (blank L), ite_self]) | (with_reducible refine ite_frame _ ?_ ?_) | split)

theorem diRec_keeps (L : Region → Bool) (hFio : L .fio = true) (i : Nat) : FldsKeep L (diRec i).flds := by
  unfold diRec
  repeat' (first | (refine FldsKeep.lift (fun _ _ => ?_)) | (refine FldsKeep.append ?_ ?_) | (refine FldsKeep.flatMap (fun _ => ?_)) | (refine FldsKeep.map (fun _ => ?_)) | (refine FldsKeep.cons ?_ ?_) | (exact FldsKeep.nil) | (exact fun _ _ => rfl) | (intro n9 s9) | (simp only [modDi_frame, hFio, apply_ite (blank L), ite_self]))

theorem diWakeRec_keeps (L : Region → Bool) (hFio : L .fio = true)  : FldsKeep L (diWakeRec ).flds := by
  unfold diWakeRec
  repeat' (first | (refine FldsKeep.lift (fun _ _ => ?_)) | (refine FldsKeep.append ?_ ?_) | (refine FldsKeep.flatMap (fun _ => ?_)) | (refine FldsKeep.map (fun _ => ?_)) | (refine FldsKeep.cons ?_ ?_) | (exact FldsKeep.nil) | (exact fun _ _ => rfl) | (intro n9 s9) | (simp only [modFio_frame, hFio, apply_ite (blank L), ite_self]))

theorem dinRecord_keeps (L : Region → Bool) (hFio : L .fio = true) {i part : Nat} {rc : Rec} (h : dinRecord i part = some rc) : FldsKeep L rc.flds := by
  unfold dinRecord at h
  repeat' (split at h)
  all_goals first | (cases h; done) | (injection h with h; subst h; first | (exact FldsKeep.nil) | (with_reducible exact diWakeRec_keeps L hFio ) | (with_reducible exact diRec_keeps L hFio _))

theorem dinAfter_frame (L : Region → Bool) (hWire : L .wire = true) (hDetect : L .detect = true) (hFio : L .fio = true) (s0 : State) (i x0 : Nat) (x1 : List (Nat × Nat)) (s : State) :
    blank L (dinAfter s0 i x0 x1 s) = blank L s := by
  unfold dinAfter
  repeat' (first | with_reducible rfl | (simp only [detectEnd_frame, modDi_frame, hWire, hDetect, hFio, apply_ite (blank L), ite_self]) | (with_reducible refine ite_frame _ ?_ ?_) | split)

theorem dinClass_keeps (L : Region → Bool) (hWire : L .wire = true) (hDetect : L .detect = true) (hFio : L .fio = true)  : Keeps L (dinClass) where
  record h := by
    simp only [dinClass] at h
    repeat' (split at h)
    all_goals first | (cases h; done) | (with_reducible exact dinRecord_keeps L hFio h) | (injection h with h; subst h; first | (exact FldsKeep.nil))
  after _ _ _ _ _ := by
    simp only [dinClass]
    repeat' (first | with_reducible rfl | (simp only [dinAfter_frame, hWire, hDetect, hFio, apply_ite (blank L), ite_self]) | (with_reducible refine ite_frame _ ?_ ?_) | split)
  onRead _ _ _ _ _ := by
    simp only [dinClass]
    repeat' (first | with_reducible rfl | (simp only [dinAfter_frame, hWire, hDetect, hFio, apply_ite (blank L), ite_self]) | (with_reducible refine ite_frame _ ?_ ?_) | split)
  held h := by
    first
    | (cases h; done)
    | (simp only [dinClass] at h; exact absurd h)
  acts := by
    simp only [dinClass]
    repeat' (first | (exact ActsKeep.nil) | (refine ActsKeep.cons ?_ ?_) | (refine ⟨fun _ _ _ _ => ?_, fun _ => ?_, fun _ _ _ => ?_, fun h9 => ?_⟩) | (cases h9; done) | (injection h9 with h9; subst h9) | with_reducible rfl | (simp only [dinAfter_frame, hWire, hDetect, hFio, apply_ite (blank L), ite_self]) | (with_reducible refine ite_frame _ ?_ ?_) | split)

theorem foRefresh_frame (L : Region → Bool) (hFio : L .fio = true) (k : Nat) (s : State) :
    blank L (foRefresh k s) = blank L s := by
  simp only [foRefresh, modFo_frame, hFio]

theorem fosBoundary_frame (L : Region → Bool) (hWire : L .wire = true) (hFio : L .fio = true) (s : State) :
    blank L (fosBoundary s) = blank L s := by
  unfold fosBoundary
  repeat' (first | with_reducible rfl | (simp only [emit_frame, foSet_frame, modFo_frame, hWire, hFio, apply_ite (blank L), ite_self]) | (with_reducible refine (foldl_pair_frame L _ (fun _ _ => ?_) _ _).trans ?_) | (with_reducible refine (foldl_frame L _ (fun _ _ => ?_) _ _).trans ?_) | (with_reducible refine ite_frame _ ?_ ?_) | split)

theorem runEnd_frame (L : Region → Bool) (hWire : L .wire = true) (hDetect : L .detect = true) (hFio : L .fio = true) (b found : Nat) (s : State) :
    blank L (runEnd b found s) = blank L s := by
  unfold runEnd
  repeat' (first | with_reducible rfl | (simp only [detect_frame, emit_frame, modBank_frame, modFo_frame, hWire, hDetect, hFio, apply_ite (blank L), ite_self]) | (with_reducible refine (foldl_pair_frame L _ (fun _ _ => ?_) _ _).trans ?_) | (with_reducible refine (foldl_frame L _ (fun _ _ => ?_) _ _).trans ?_) | (with_reducible refine ite_frame _ ?_ ?_) | split)

theorem runRead_frame (L : Region → Bool) (hWire : L .wire = true) (hDetect : L .detect = true) (hFio : L .fio = true) (b : Nat) (bit : Bool) (s : State) :
    blank L (runRead b bit s) = blank L s := by
  unfold runRead
  repeat' (first | with_reducible rfl | (simp only [modBank_frame, runEnd_frame, hWire, hDetect, hFio, apply_ite (blank L), ite_self]) | (with_reducible refine ite_frame _ ?_ ?_) | split)

theorem fillBank_frame (L : Region → Bool) (hWire : L .wire = true) (hDetect : L .detect = true) (hFio : L .fio = true) (b : Nat) (s : State) :
    blank L (fillBank b s) = blank L s := by
  unfold fillBank
  repeat' (first | with_reducible rfl | (simp only [modBank_frame, runRead_frame, hWire, hDetect, hFio, apply_ite (blank L), ite_self]) | (with_reducible refine ite_frame _ ?_ ?_) | split)

theorem fillFo_frame (L : Region → Bool) (hWire : L .wire = true) (hDetect : L .detect = true) (hFio : L .fio = true) (x : Samples) (s : State) :
    blank L (fillFo x s) = blank L s := by
  unfold fillFo
  repeat' (first | with_reducible rfl | (simp only [fillBank_frame, modFo_frame, hWire, hDetect, hFio, apply_ite (blank L), ite_self]) | (with_reducible refine (foldl_pair_frame L _ (fun _ _ => ?_) _ _).trans ?_) | (with_reducible refine (foldl_frame L _ (fun _ _ => ?_) _ _).trans ?_) | (with_reducible refine ite_frame _ ?_ ?_) | split)

theorem autoLocate_frame (L : Region → Bool) (hFio : L .fio = true) (s : State) :
    blank L (autoLocate s) = blank L s := by
  unfold autoLocate
  repeat' (first | with_reducible rfl | (simp only [modBank_frame, hFio, apply_ite (blank L), ite_self]) | (with_reducible refine (foldl_pair_frame L _ (fun _ _ => ?_) _ _).trans ?_) | (with_reducible refine (foldl_frame L _ (fun _ _ => ?_) _ _).trans ?_) | (with_reducible refine ite_frame _ ?_ ?_) | split)

theorem foRec_keeps (L : Region → Bool) (hFio : L .fio = true) (k : Nat) : FldsKeep L (foRec k).flds := by
  unfold foRec
  repeat' (first | (refine FldsKeep.lift (fun _ _ => ?_)) | (refine FldsKeep.append ?_ ?_) | (refine FldsKeep.flatMap (fun _ => ?_)) | (refine FldsKeep.map (fun _ => ?_)) | (refine FldsKeep.cons ?_ ?_) | (exact FldsKeep.nil) | (exact fun _ _ => rfl) | (intro n9 s9) | (simp only [modFo_frame, hFio, apply_ite (blank L), ite_self]))

theorem bankRec_keeps (L : Region → Bool) (hFio : L .fio = true) (b : Nat) : FldsKeep L (bankRec b).flds := by
  unfold bankRec
  repeat' (first | (refine FldsKeep.lift (fun _ _ => ?_)) | (refine FldsKeep.append ?_ ?_) | (refine FldsKeep.flatMap (fun _ => ?_)) | (refine FldsKeep.map (fun _ => ?_)) | (refine FldsKeep.cons ?_ ?_) | (exact FldsKeep.nil) | (exact fun _ _ => rfl) | (intro n9 s9) | (simp only [modBank_frame, hFio, apply_ite (blank L), ite_self]))

theorem foutClass_keeps (L : Region → Bool) (hFio : L .fio = true)  : Keeps L (foutClass) where
  record h := by
    simp only [foutClass] at h
    repeat' (split at h)
    all_goals first | (cases h; done) | (injection h with h; subst h; first | (exact FldsKeep.nil) | (with_reducible exact bankRec_keeps L hFio _) | (with_reducible exact foRec_keeps L hFio _))
  after _ _ _ _ _ := by
    simp only [foutClass]
    repeat' (first | with_reducible rfl | (simp only [modBank_frame, modFo_frame, hFio, apply_ite (blank L), ite_self]) | (with_reducible refine (foldl_pair_frame L _ (fun _ _ => ?_) _ _).trans ?_) | (with_reducible refine (foldl_frame L _ (fun _ _ => ?_) _ _).trans ?_) | (with_reducible refine ite_frame _ ?_ ?_) | split)
  onRead _ _ _ _ _ := by
    simp only [foutClass]
    repeat' (first | with_reducible rfl | (simp only [modBank_frame, modFo_frame, hFio, apply_ite (blank L), ite_self]) | (with_reducible refine (foldl_pair_frame L _ (fun _ _ => ?_) _ _).trans ?_) | (with_reducible refine (foldl_frame L _ (fun _ _ => ?_) _ _).trans ?_) | (with_reducible refine ite_frame _ ?_ ?_) | split)
  held h := by
    first
    | (cases h; done)
    | (simp only [foutClass] at h; exact absurd h)
  acts := by
    simp only [foutClass]
    repeat' (first | (exact ActsKeep.nil) | (refine ActsKeep.cons ?_ ?_) | (refine ⟨fun _ _ _ _ => ?_, fun _ => ?_, fun _ _ _ => ?_, fun h9 => ?_⟩) | (cases h9; done) | (injection h9 with h9; subst h9) | with_reducible rfl | (simp only [modBank_frame, modFo_frame, hFio, apply_ite (blank L), ite_self]) | (with_reducible refine (foldl_pair_frame L _ (fun _ _ => ?_) _ _).trans ?_) | (with_reducible refine (foldl_frame L _ (fun _ _ => ?_) _ _).trans ?_) | (with_reducible refine ite_frame _ ?_ ?_) | split)

theorem ainFault_frame (L : Region → Bool) (hWire : L .wire = true) (hDetect : L .detect = true) (k cause : Nat) (was now : Bool) (s : State) :
    blank L (ainFault k cause was now s) = blank L s := by
  unfold ainFault
  repeat' (first | with_reducible rfl | (simp only [detectEnd_frame, detect_frame, emit_frame, hWire, hDetect, apply_ite (blank L), ite_self]) | (with_reducible refine ite_frame _ ?_ ?_) | split)

theorem aiStep_frame (L : Region → Bool) (hWire : L .wire = true) (hDetect : L .detect = true) (hFio : L .fio = true) (n k : Nat) (s : State) :
    blank L (aiStep n k s) = blank L s := by
  unfold aiStep
  repeat' (first | with_reducible rfl | (simp only [ainFault_frame, modAi_frame, hWire, hDetect, hFio, apply_ite (blank L), ite_self]) | (with_reducible refine ite_frame _ ?_ ?_) | split)

theorem fillIn_frame (L : Region → Bool) (hFio : L .fio = true) (x : Samples) (s : State) :
    blank L (fillIn x s) = blank L s := by
  unfold fillIn
  repeat' (first | with_reducible rfl | (simp only [modFio_frame, modSup_frame, hFio, apply_ite (blank L), ite_self]) | (with_reducible refine (foldl_pair_frame L _ (fun _ _ => ?_) _ _).trans ?_) | (with_reducible refine (foldl_frame L _ (fun _ _ => ?_) _ _).trans ?_) | (with_reducible refine ite_frame _ ?_ ?_) | split)

theorem levelField_frame (L : Region → Bool) (hWire : L .wire = true) (hDetect : L .detect = true) (hFio : L .fio = true) (hPwr : L .pwr = true) (s : State) :
    blank L (levelField s) = blank L s := by
  unfold levelField
  repeat' (first | with_reducible rfl | (simp only [aiStep_frame, diSamples_frame, hWire, hDetect, hFio, hPwr, apply_ite (blank L), ite_self]) | (with_reducible refine (foldl_pair_frame L _ (fun _ _ => ?_) _ _).trans ?_) | (with_reducible refine (foldl_frame L _ (fun _ _ => ?_) _ _).trans ?_) | (with_reducible refine ite_frame _ ?_ ?_) | split)

theorem boundaryField_frame (L : Region → Bool) (hFio : L .fio = true) (s : State) :
    blank L (boundaryField s) = blank L s := by
  simp only [boundaryField, modFio_frame, hFio]

theorem aiRec_keeps (L : Region → Bool) (hFio : L .fio = true) (k : Nat) : FldsKeep L (aiRec k).flds := by
  unfold aiRec
  repeat' (first | (refine FldsKeep.lift (fun _ _ => ?_)) | (refine FldsKeep.append ?_ ?_) | (refine FldsKeep.flatMap (fun _ => ?_)) | (refine FldsKeep.map (fun _ => ?_)) | (refine FldsKeep.cons ?_ ?_) | (exact FldsKeep.nil) | (exact fun _ _ => rfl) | (intro n9 s9) | (simp only [modAi_frame, hFio, apply_ite (blank L), ite_self]))

theorem supRec_keeps (L : Region → Bool) (hFio : L .fio = true) (j : Nat) : FldsKeep L (supRec j).flds := by
  unfold supRec
  repeat' (first | (refine FldsKeep.lift (fun _ _ => ?_)) | (refine FldsKeep.append ?_ ?_) | (refine FldsKeep.flatMap (fun _ => ?_)) | (refine FldsKeep.map (fun _ => ?_)) | (refine FldsKeep.cons ?_ ?_) | (exact FldsKeep.nil) | (exact fun _ _ => rfl) | (intro n9 s9) | (simp only [modSup_frame, hFio, apply_ite (blank L), ite_self]))

theorem tempRec_keeps (L : Region → Bool) (hFio : L .fio = true) (t : Nat) : FldsKeep L (tempRec t).flds := by
  unfold tempRec
  repeat' (first | (refine FldsKeep.lift (fun _ _ => ?_)) | (refine FldsKeep.append ?_ ?_) | (refine FldsKeep.flatMap (fun _ => ?_)) | (refine FldsKeep.map (fun _ => ?_)) | (refine FldsKeep.cons ?_ ?_) | (exact FldsKeep.nil) | (exact fun _ _ => rfl) | (intro n9 s9) | (simp only [modTemp_frame, hFio, apply_ite (blank L), ite_self]))

theorem ainRecord_keeps (L : Region → Bool) (hFio : L .fio = true) {i part : Nat} {rc : Rec} (h : ainRecord i part = some rc) : FldsKeep L rc.flds := by
  unfold ainRecord at h
  repeat' (split at h)
  all_goals first | (cases h; done) | (injection h with h; subst h; first | (exact FldsKeep.nil) | (with_reducible exact tempRec_keeps L hFio _) | (with_reducible exact supRec_keeps L hFio _) | (with_reducible exact aiRec_keeps L hFio _))

theorem ainAfter_frame (L : Region → Bool) (hFio : L .fio = true) (x0 : State) (i x1 : Nat) (x2 : List (Nat × Nat)) (s : State) :
    blank L (ainAfter x0 i x1 x2 s) = blank L s := by
  unfold ainAfter
  repeat' (first | with_reducible rfl | (simp only [modSup_frame, hFio, apply_ite (blank L), ite_self]) | (with_reducible refine ite_frame _ ?_ ?_) | split)

theorem ainClass_keeps (L : Region → Bool) (hFio : L .fio = true)  : Keeps L (ainClass) where
  record h := by
    simp only [ainClass] at h
    repeat' (split at h)
    all_goals first | (cases h; done) | (with_reducible exact ainRecord_keeps L hFio h) | (injection h with h; subst h; first | (exact FldsKeep.nil))
  after _ _ _ _ _ := by
    simp only [ainClass]
    repeat' (first | with_reducible rfl | (simp only [ainAfter_frame, hFio, apply_ite (blank L), ite_self]) | (with_reducible refine ite_frame _ ?_ ?_) | split)
  onRead _ _ _ _ _ := by
    simp only [ainClass]
    repeat' (first | with_reducible rfl | (simp only [ainAfter_frame, hFio, apply_ite (blank L), ite_self]) | (with_reducible refine ite_frame _ ?_ ?_) | split)
  held h := by
    first
    | (cases h; done)
    | (simp only [ainClass] at h; exact absurd h)
  acts := by
    simp only [ainClass]
    repeat' (first | (exact ActsKeep.nil) | (refine ActsKeep.cons ?_ ?_) | (refine ⟨fun _ _ _ _ => ?_, fun _ => ?_, fun _ _ _ => ?_, fun h9 => ?_⟩) | (cases h9; done) | (injection h9 with h9; subst h9) | with_reducible rfl | (simp only [ainAfter_frame, hFio, apply_ite (blank L), ite_self]) | (with_reducible refine ite_frame _ ?_ ?_) | split)

theorem supOff_frame (L : Region → Bool) (hWire : L .wire = true) (hDetect : L .detect = true) (hFio : L .fio = true) (j cause : Nat) (mark : Sup → Sup) (s : State) :
    blank L (supOff j cause mark s) = blank L s := by
  unfold supOff
  repeat' (first | with_reducible rfl | (simp only [detect_frame, emit_frame, modSup_frame, hWire, hDetect, hFio, apply_ite (blank L), ite_self]) | (with_reducible refine ite_frame _ ?_ ?_) | split)

theorem execDinSet_frame (L : Region → Bool) (hStaged : L .staged = true) (hFv : L .fv = true) (hWire : L .wire = true) (hDetect : L .detect = true) (hTp : L .tp = true) (hFio : L .fio = true) (hNm : L .nm = true) (hTow : L .tow = true) {r : Req} {s : State} {t9} (h : execDinSet r s = .next t9) :
    blank L t9 = blank L s := by
  unfold execDinSet at h
  injection h with h
  subst h
  repeat' (first | with_reducible rfl | (refine Eq.trans (cmdSet_frame L hStaged hFv hWire hDetect hTp hNm hTow (dinClass_keeps L hWire hDetect hFio) _ _) ?_) | (simp only [hStaged, hFv, hWire, hDetect, hTp, hFio, hNm, hTow, apply_ite (blank L), ite_self]) | (with_reducible refine ite_frame _ ?_ ?_) | split)

theorem execFoutSet_frame (L : Region → Bool) (hStaged : L .staged = true) (hFv : L .fv = true) (hWire : L .wire = true) (hDetect : L .detect = true) (hTp : L .tp = true) (hFio : L .fio = true) (hNm : L .nm = true) (hTow : L .tow = true) {r : Req} {s : State} {t9} (h : execFoutSet r s = .next t9) :
    blank L t9 = blank L s := by
  unfold execFoutSet at h
  injection h with h
  subst h
  repeat' (first | with_reducible rfl | (refine Eq.trans (cmdSet_frame L hStaged hFv hWire hDetect hTp hNm hTow (foutClass_keeps L hFio) _ _) ?_) | (simp only [hStaged, hFv, hWire, hDetect, hTp, hFio, hNm, hTow, apply_ite (blank L), ite_self]) | (with_reducible refine ite_frame _ ?_ ?_) | split)

theorem execFoutLocate_frame (L : Region → Bool) (hStaged : L .staged = true) (hFv : L .fv = true) (hWire : L .wire = true) (hDetect : L .detect = true) (hTp : L .tp = true) (hFio : L .fio = true) (hNm : L .nm = true) (hTow : L .tow = true) {r : Req} {s : State} {t9} (h : execFoutLocate r s = .next t9) :
    blank L t9 = blank L s := by
  unfold execFoutLocate at h
  injection h with h
  subst h
  repeat' (first | with_reducible rfl | (refine Eq.trans (cmdAct_frame L hStaged hFv hWire hDetect hTp hNm hTow (foutClass_keeps L hFio) _ _ _) ?_) | (simp only [hStaged, hFv, hWire, hDetect, hTp, hFio, hNm, hTow, apply_ite (blank L), ite_self]) | (with_reducible refine ite_frame _ ?_ ?_) | split)

theorem execFoutClear_frame (L : Region → Bool) (hStaged : L .staged = true) (hFv : L .fv = true) (hWire : L .wire = true) (hDetect : L .detect = true) (hTp : L .tp = true) (hFio : L .fio = true) (hNm : L .nm = true) (hTow : L .tow = true) {r : Req} {s : State} {t9} (h : execFoutClear r s = .next t9) :
    blank L t9 = blank L s := by
  unfold execFoutClear at h
  injection h with h
  subst h
  repeat' (first | with_reducible rfl | (refine Eq.trans (cmdAct_frame L hStaged hFv hWire hDetect hTp hNm hTow (foutClass_keeps L hFio) _ _ _) ?_) | (simp only [hStaged, hFv, hWire, hDetect, hTp, hFio, hNm, hTow, apply_ite (blank L), ite_self]) | (with_reducible refine ite_frame _ ?_ ?_) | split)

theorem execAinSet_frame (L : Region → Bool) (hStaged : L .staged = true) (hFv : L .fv = true) (hWire : L .wire = true) (hDetect : L .detect = true) (hTp : L .tp = true) (hFio : L .fio = true) (hNm : L .nm = true) (hTow : L .tow = true) {r : Req} {s : State} {t9} (h : execAinSet r s = .next t9) :
    blank L t9 = blank L s := by
  unfold execAinSet at h
  injection h with h
  subst h
  repeat' (first | with_reducible rfl | (refine Eq.trans (cmdSet_frame L hStaged hFv hWire hDetect hTp hNm hTow (ainClass_keeps L hFio) _ _) ?_) | (simp only [hStaged, hFv, hWire, hDetect, hTp, hFio, hNm, hTow, apply_ite (blank L), ite_self]) | (with_reducible refine ite_frame _ ?_ ?_) | split)

theorem execClsHoldEnter_frame (L : Region → Bool) (hFio : L .fio = true) {s : State} {t9} (h : execClsHoldEnter s = .next t9) :
    blank L t9 = blank L s := by
  unfold execClsHoldEnter at h
  injection h with h
  subst h
  repeat' (first | with_reducible rfl | (simp only [clsHoldOn_frame, hFio, apply_ite (blank L), ite_self]) | (with_reducible refine ite_frame _ ?_ ?_) | split)

theorem execClsHoldExit_frame (L : Region → Bool) (hFio : L .fio = true) {s : State} {t9} (h : execClsHoldExit s = .next t9) :
    blank L t9 = blank L s := by
  unfold execClsHoldExit at h
  injection h with h
  subst h
  repeat' (first | with_reducible rfl | (simp only [modFio_frame, hFio, apply_ite (blank L), ite_self]) | (with_reducible refine ite_frame _ ?_ ?_) | split)

theorem execFoThermalShutdown_frame (L : Region → Bool) (hFio : L .fio = true) {k : Nat} {s : State} {t9} (h : execFoThermalShutdown k s = .next t9) :
    blank L t9 = blank L s := by
  obtain ⟨-, rfl⟩ := guardUnit_next h
  repeat' (first | with_reducible rfl | (simp only [foSet_frame, modFo_frame, hFio, apply_ite (blank L), ite_self]) | (with_reducible refine ite_frame _ ?_ ?_) | split)

theorem execFoThermalRestart_frame (L : Region → Bool) (hFio : L .fio = true) {k : Nat} {s : State} {t9} (h : execFoThermalRestart k s = .next t9) :
    blank L t9 = blank L s := by
  obtain ⟨-, rfl⟩ := guardUnit_next h
  repeat' (first | with_reducible rfl | (simp only [foSet_frame, modFo_frame, hFio, apply_ite (blank L), ite_self]) | (with_reducible refine ite_frame _ ?_ ?_) | split)

theorem execFoLimitHeld_frame (L : Region → Bool) (hFio : L .fio = true) {k : Nat} {s : State} {t9} (h : execFoLimitHeld k s = .next t9) :
    blank L t9 = blank L s := by
  obtain ⟨-, rfl⟩ := guardUnit_next h
  repeat' (first | with_reducible rfl | (simp only [modFo_frame, hFio, apply_ite (blank L), ite_self]) | (with_reducible refine ite_frame _ ?_ ?_) | split)

theorem execSilenceExpiry_frame (L : Region → Bool) (hWire : L .wire = true) (hDetect : L .detect = true) (hFio : L .fio = true) {k : Nat} {s : State} {t9} (h : execSilenceExpiry k s = .next t9) :
    blank L t9 = blank L s := by
  obtain ⟨-, rfl⟩ := guardUnit_next h
  repeat' (first | with_reducible rfl | (simp only [detect_frame, foSet_frame, modFo_frame, hWire, hDetect, hFio, apply_ite (blank L), ite_self]) | (with_reducible refine ite_frame _ ?_ ?_) | split)

theorem execSupLimit_frame (L : Region → Bool) (hWire : L .wire = true) (hDetect : L .detect = true) (hFio : L .fio = true) {j : Nat} {s : State} {t9} (h : execSupLimit j s = .next t9) :
    blank L t9 = blank L s := by
  obtain ⟨-, rfl⟩ := guardUnit_next h
  repeat' (first | with_reducible rfl | (simp only [supOff_frame, hWire, hDetect, hFio, apply_ite (blank L), ite_self]) | (with_reducible refine ite_frame _ ?_ ?_) | split)

theorem execSupShortBat_frame (L : Region → Bool) (hWire : L .wire = true) (hDetect : L .detect = true) (hFio : L .fio = true) {j : Nat} {s : State} {t9} (h : execSupShortBat j s = .next t9) :
    blank L t9 = blank L s := by
  obtain ⟨-, rfl⟩ := guardUnit_next h
  repeat' (first | with_reducible rfl | (simp only [supOff_frame, hWire, hDetect, hFio, apply_ite (blank L), ite_self]) | (with_reducible refine ite_frame _ ?_ ?_) | split)

theorem execSupThermal_frame (L : Region → Bool) (hWire : L .wire = true) (hDetect : L .detect = true) (hFio : L .fio = true) {j : Nat} {s : State} {t9} (h : execSupThermal j s = .next t9) :
    blank L t9 = blank L s := by
  obtain ⟨-, rfl⟩ := guardUnit_next h
  repeat' (first | with_reducible rfl | (simp only [supOff_frame, hWire, hDetect, hFio, apply_ite (blank L), ite_self]) | (with_reducible refine ite_frame _ ?_ ?_) | split)

theorem execSupRetry_frame (L : Region → Bool) (hFio : L .fio = true) {j : Nat} {s : State} {t9} (h : execSupRetry j s = .next t9) :
    blank L t9 = blank L s := by
  obtain ⟨-, rfl⟩ := guardUnit_next h
  repeat' (first | with_reducible rfl | (simp only [modSup_frame, hFio, apply_ite (blank L), ite_self]) | (with_reducible refine ite_frame _ ?_ ?_) | split)

theorem execSupClean_frame (L : Region → Bool) (hFio : L .fio = true) {j : Nat} {s : State} {t9} (h : execSupClean j s = .next t9) :
    blank L t9 = blank L s := by
  obtain ⟨-, rfl⟩ := guardUnit_next h
  repeat' (first | with_reducible rfl | (simp only [modSup_frame, hFio, apply_ite (blank L), ite_self]) | (with_reducible refine ite_frame _ ?_ ?_) | split)

theorem execSluiceResume_frame (L : Region → Bool) (hWire : L .wire = true) (hDetect : L .detect = true) (hTp : L .tp = true) (hPow : L .pow = true) (hSlu : L .slu = true) {s : State} {t9} (h : execSluiceResume s = .next t9) :
    blank L t9 = blank L s := by
  unfold execSluiceResume at h
  injection h with h
  subst h
  repeat' (first | with_reducible rfl | (simp only [detectEnd_frame, modSlu_frame, resume_frame, tpClear_frame, hWire, hDetect, hTp, hPow, hSlu, apply_ite (blank L), ite_self]) | (with_reducible refine ite_frame _ ?_ ?_) | split)

end Sys2Proof.Machine
end

