-- ==== Sys2Proof/Laws/FrameCan.lean ====
section
/-! SUPPORT. Frame lemmas of Machine/Can.lean: what each operation leaves alone. -/
set_option linter.unusedSimpArgs false
set_option linter.unusedVariables false
namespace Sys2Proof.Machine

theorem countCan_frame (L : Region → Bool) (hWire : L .wire = true) (hCan : L .can = true) (c k n : Nat) (s : State) :
    blank L (countCan c k n s) = blank L s := by
  unfold countCan
  repeat' (first | with_reducible rfl | (simp only [emit_frame, modCanCh_frame, hWire, hCan, apply_ite (blank L), ite_self]) | (with_reducible refine ite_frame _ ?_ ?_) | split)

theorem busEvent_frame (L : Region → Bool) (hAq : L .aq = true) (src bit : Nat) (a : AqFrame) (s : State) :
    blank L (busEvent src bit a s) = blank L s := by
  unfold busEvent
  repeat' (first | with_reducible rfl | (simp only [modAq_frame, hAq, apply_ite (blank L), ite_self]) | (with_reducible refine ite_frame _ ?_ ?_) | split)

theorem canBusEvent_frame (L : Region → Bool) (hAq : L .aq = true) (c bit ev info : Nat) (s : State) :
    blank L (canBusEvent c bit ev info s) = blank L s := by
  simp only [canBusEvent, busEvent_frame, hAq]

theorem canState_frame (L : Region → Bool) (hWire : L .wire = true) (hAq : L .aq = true) (c : Nat) (waiting : Bool) (s : State) :
    blank L (canState c waiting s) = blank L s := by
  simp only [canState, canBusEvent_frame, emit_frame, hWire, hAq]

theorem setCanErr_frame (L : Region → Bool) (hWire : L .wire = true) (hCan : L .can = true) (hAq : L .aq = true) (c e : Nat) (s : State) :
    blank L (setCanErr c e s) = blank L s := by
  unfold setCanErr
  repeat' (first | with_reducible rfl | (simp only [canState_frame, modCanCh_frame, hWire, hCan, hAq, apply_ite (blank L), ite_self]) | (with_reducible refine ite_frame _ ?_ ?_) | split)

theorem enqueueCan_frame (L : Region → Bool) (hCan : L .can = true) (c : Nat) (t : CanTx) (s : State) :
    blank L (enqueueCan c t s) = blank L s := by
  simp only [enqueueCan, modCanCh_frame, hCan]

theorem txFail_frame (L : Region → Bool) (hWire : L .wire = true) (hCan : L .can = true) (c cause : Nat) (t : CanTx) (s : State) :
    blank L (txFail c cause t s) = blank L s := by
  unfold txFail
  repeat' (first | with_reducible rfl | (simp only [countCan_frame, emit_frame, hWire, hCan, apply_ite (blank L), ite_self]) | (with_reducible refine ite_frame _ ?_ ?_) | split)

theorem txFailAll_frame (L : Region → Bool) (hWire : L .wire = true) (hCan : L .can = true) (c cause : Nat) (l : List CanTx) (s : State) :
    blank L (txFailAll c cause l s) = blank L s := by
  unfold txFailAll
  repeat' (first | with_reducible rfl | (simp only [txFail_frame, hWire, hCan, apply_ite (blank L), ite_self]) | (with_reducible refine (foldl_pair_frame L _ (fun _ _ => ?_) _ _).trans ?_) | (with_reducible refine (foldl_frame L _ (fun _ _ => ?_) _ _).trans ?_) | (with_reducible refine ite_frame _ ?_ ?_) | split)

theorem deadlineCan_frame (L : Region → Bool) (hWire : L .wire = true) (hCan : L .can = true) (c : Nat) (s : State) :
    blank L (deadlineCan c s) = blank L s := by
  unfold deadlineCan
  repeat' (first | with_reducible rfl | (simp only [modCanCh_frame, txFailAll_frame, hWire, hCan, apply_ite (blank L), ite_self]) | (with_reducible refine ite_frame _ ?_ ?_) | split)

theorem receiveCan_frame (L : Region → Bool) (hWire : L .wire = true) (hCan : L .can = true) (hAq : L .aq = true) (c : Nat) (f : CanFrame) (sec ns : Nat) (s : State) :
    blank L (receiveCan c f sec ns s) = blank L s := by
  unfold receiveCan
  repeat' (first | with_reducible rfl | (simp only [canBusEvent_frame, countCan_frame, emit_frame, modAq_frame, modCanCh_frame, hWire, hCan, hAq, apply_ite (blank L), ite_self]) | (with_reducible refine ite_frame _ ?_ ?_) | split)

theorem enterBusOff_frame (L : Region → Bool) (hWire : L .wire = true) (hDetect : L .detect = true) (hCan : L .can = true) (hAq : L .aq = true) (c : Nat) (s : State) :
    blank L (enterBusOff c s) = blank L s := by
  unfold enterBusOff
  repeat' (first | with_reducible rfl | (simp only [canBusEvent_frame, countCan_frame, detect_frame, emit_frame, modCanCh_frame, setCanErr_frame, txFailAll_frame, hWire, hDetect, hCan, hAq, apply_ite (blank L), ite_self]) | (with_reducible refine ite_frame _ ?_ ?_) | split)

theorem applyCounters_frame (L : Region → Bool) (hWire : L .wire = true) (hDetect : L .detect = true) (hCan : L .can = true) (hAq : L .aq = true) (c : Nat) (s : State) :
    blank L (applyCounters c s) = blank L s := by
  unfold applyCounters
  repeat' (first | with_reducible rfl | (simp only [enterBusOff_frame, setCanErr_frame, hWire, hDetect, hCan, hAq, apply_ite (blank L), ite_self]) | (with_reducible refine ite_frame _ ?_ ?_) | split)

theorem endOnBus_frame (L : Region → Bool) (hWire : L .wire = true) (hCan : L .can = true) (c cause : Nat) (s : State) :
    blank L (endOnBus c cause s) = blank L s := by
  unfold endOnBus
  repeat' (first | with_reducible rfl | (simp only [modCanCh_frame, txFail_frame, hWire, hCan, apply_ite (blank L), ite_self]) | (with_reducible refine ite_frame _ ?_ ?_) | split)

theorem canError_frame (L : Region → Bool) (hWire : L .wire = true) (hDetect : L .detect = true) (hCan : L .can = true) (hAq : L .aq = true) (c : Nat) (e : CanErr) (s : State) :
    blank L (canError c e s) = blank L s := by
  unfold canError
  repeat' (first | with_reducible rfl | (simp only [applyCounters_frame, countCan_frame, endOnBus_frame, modCanCh_frame, hWire, hDetect, hCan, hAq, apply_ite (blank L), ite_self]) | (with_reducible refine ite_frame _ ?_ ?_) | split)

theorem armCan_frame (L : Region → Bool) (hNm : L .nm = true) (c : Nat) (s : State) :
    blank L (armCan c s) = blank L s := by
  simp only [armCan, modNm_frame, hNm]

theorem disarmCan_frame (L : Region → Bool) (hNm : L .nm = true) (c : Nat) (s : State) :
    blank L (disarmCan c s) = blank L s := by
  simp only [disarmCan, modCanWake_frame, hNm]

theorem discardCan_frame (L : Region → Bool) (hWire : L .wire = true) (hCan : L .can = true) (c : Nat) (s : State) :
    blank L (discardCan c s) = blank L s := by
  simp only [discardCan, modCanCh_frame, txFailAll_frame, hWire, hCan]

theorem condemnOff_frame (L : Region → Bool) (hWire : L .wire = true) (hCan : L .can = true) (c : Nat) (s : State) :
    blank L (condemnOff c s) = blank L s := by
  unfold condemnOff
  repeat' (first | with_reducible rfl | (simp only [discardCan_frame, emit_frame, modCanCh_frame, modCan_frame, hWire, hCan, apply_ite (blank L), ite_self]) | (with_reducible refine ite_frame _ ?_ ?_) | split)

theorem startSwap_frame (L : Region → Bool) (hCan : L .can = true) (c cause : Nat) (s : State) :
    blank L (startSwap c cause s) = blank L s := by
  unfold startSwap
  repeat' (first | with_reducible rfl | (simp only [modCanCh_frame, hCan, apply_ite (blank L), ite_self]) | (with_reducible refine ite_frame _ ?_ ?_) | split)

theorem condemn_frame (L : Region → Bool) (hWire : L .wire = true) (hDetect : L .detect = true) (hPond : L .pond = true) (hCan : L .can = true) (c : Nat) (s : State) :
    blank L (condemn c s) = blank L s := by
  unfold condemn
  repeat' (first | with_reducible rfl | (simp only [condemnOff_frame, detect_frame, startSwap_frame, wearLog_frame, hWire, hDetect, hPond, hCan, apply_ite (blank L), ite_self]) | (with_reducible refine ite_frame _ ?_ ?_) | split)

theorem spareMismatch_frame (L : Region → Bool) (hWire : L .wire = true) (hDetect : L .detect = true) (hPond : L .pond = true) (hCan : L .can = true) (c : Nat) (s : State) :
    blank L (spareMismatch c s) = blank L s := by
  unfold spareMismatch
  repeat' (first | with_reducible rfl | (simp only [condemn_frame, modCan_frame, pondWear_frame, hWire, hDetect, hPond, hCan, apply_ite (blank L), ite_self]) | (with_reducible refine ite_frame _ ?_ ?_) | split)

theorem schedDue_frame (L : Region → Bool) (hWire : L .wire = true) (hCan : L .can = true) (n : Nat) (e : Nat) (s : State) :
    blank L (schedDue n e s) = blank L s := by
  unfold schedDue
  repeat' (first | with_reducible rfl | (simp only [emit_frame, modCanCh_frame, modCsched_frame, hWire, hCan, apply_ite (blank L), ite_self]) | (with_reducible refine ite_frame _ ?_ ?_) | split)

theorem schedBoundary_frame (L : Region → Bool) (hWire : L .wire = true) (hCan : L .can = true) (s : State) :
    blank L (schedBoundary s) = blank L s := by
  unfold schedBoundary
  repeat' (first | with_reducible rfl | (simp only [modCan_frame, schedDue_frame, hWire, hCan, apply_ite (blank L), ite_self]) | (with_reducible refine (foldl_pair_frame L _ (fun _ _ => ?_) _ _).trans ?_) | (with_reducible refine (foldl_frame L _ (fun _ _ => ?_) _ _).trans ?_) | (with_reducible refine ite_frame _ ?_ ?_) | split)

theorem schedOverrun_frame (L : Region → Bool) (hCan : L .can = true) (s : State) :
    blank L (schedOverrun s) = blank L s := by
  simp only [schedOverrun, modCan_frame, hCan]

theorem swapBoundary_frame (L : Region → Bool) (hCan : L .can = true) (s : State) :
    blank L (swapBoundary s) = blank L s := by
  unfold swapBoundary
  repeat' (first | with_reducible rfl | (simp only [modCanCh_frame, hCan, apply_ite (blank L), ite_self]) | (with_reducible refine (foldl_pair_frame L _ (fun _ _ => ?_) _ _).trans ?_) | (with_reducible refine (foldl_frame L _ (fun _ _ => ?_) _ _).trans ?_) | (with_reducible refine ite_frame _ ?_ ?_) | split)

theorem canRec_keeps (L : Region → Bool) (hCan : L .can = true) (c : Nat) : FldsKeep L (canRec c).flds := by
  unfold canRec
  repeat' (first | (refine FldsKeep.lift (fun _ _ => ?_)) | (refine FldsKeep.append ?_ ?_) | (refine FldsKeep.flatMap (fun _ => ?_)) | (refine FldsKeep.map (fun _ => ?_)) | (refine FldsKeep.cons ?_ ?_) | (exact FldsKeep.nil) | (exact fun _ _ => rfl) | (intro n9 s9) | (simp only [modCanCh_frame, hCan, apply_ite (blank L), ite_self]))

theorem canCtrRec_keeps (L : Region → Bool)  (c : Nat) : FldsKeep L (canCtrRec c).flds := by
  unfold canCtrRec
  repeat' (first | (refine FldsKeep.lift (fun _ _ => ?_)) | (refine FldsKeep.append ?_ ?_) | (refine FldsKeep.flatMap (fun _ => ?_)) | (refine FldsKeep.map (fun _ => ?_)) | (refine FldsKeep.cons ?_ ?_) | (exact FldsKeep.nil) | (exact fun _ _ => rfl) | (intro n9 s9) | (simp only [apply_ite (blank L), ite_self]))

theorem ctrlRec_keeps (L : Region → Bool)  (k : Nat) : FldsKeep L (ctrlRec k).flds := by
  unfold ctrlRec
  repeat' (first | (refine FldsKeep.lift (fun _ _ => ?_)) | (refine FldsKeep.append ?_ ?_) | (refine FldsKeep.flatMap (fun _ => ?_)) | (refine FldsKeep.map (fun _ => ?_)) | (refine FldsKeep.cons ?_ ?_) | (exact FldsKeep.nil) | (exact fun _ _ => rfl) | (intro n9 s9) | (simp only [apply_ite (blank L), ite_self]))

theorem filterRec_keeps (L : Region → Bool) (hCan : L .can = true) (i : Nat) : FldsKeep L (filterRec i).flds := by
  unfold filterRec
  repeat' (first | (refine FldsKeep.lift (fun _ _ => ?_)) | (refine FldsKeep.append ?_ ?_) | (refine FldsKeep.flatMap (fun _ => ?_)) | (refine FldsKeep.map (fun _ => ?_)) | (refine FldsKeep.cons ?_ ?_) | (exact FldsKeep.nil) | (exact fun _ _ => rfl) | (intro n9 s9) | (simp only [modFilter_frame, hCan, apply_ite (blank L), ite_self]))

theorem schedRec_keeps (L : Region → Bool) (hCan : L .can = true) (e : Nat) : FldsKeep L (schedRec e).flds := by
  unfold schedRec
  repeat' (first | (refine FldsKeep.lift (fun _ _ => ?_)) | (refine FldsKeep.append ?_ ?_) | (refine FldsKeep.flatMap (fun _ => ?_)) | (refine FldsKeep.map (fun _ => ?_)) | (refine FldsKeep.cons ?_ ?_) | (exact FldsKeep.nil) | (exact fun _ _ => rfl) | (intro n9 s9) | (simp only [modCsched_frame, hCan, apply_ite (blank L), ite_self]))

theorem canRecord_keeps (L : Region → Bool) (hCan : L .can = true) {i part : Nat} {rc : Rec} (h : canRecord i part = some rc) : FldsKeep L rc.flds := by
  unfold canRecord at h
  repeat' (split at h)
  all_goals first | (cases h; done) | (injection h with h; subst h; first | (exact FldsKeep.nil) | (with_reducible exact canRec_keeps L hCan _) | (with_reducible exact canCtrRec_keeps L  _) | (with_reducible exact ctrlRec_keeps L  _) | (with_reducible exact schedRec_keeps L hCan _) | (with_reducible exact filterRec_keeps L hCan _))

theorem canAfter_frame (L : Region → Bool) (hCan : L .can = true) (x0 : State) (i x1 : Nat) (ws : List (Nat × Nat)) (s : State) :
    blank L (canAfter x0 i x1 ws s) = blank L s := by
  unfold canAfter
  repeat' (first | with_reducible rfl | (simp only [modCsched_frame, modFilter_frame, hCan, apply_ite (blank L), ite_self]) | (with_reducible refine ite_frame _ ?_ ?_) | split)

theorem sendRun_frame (L : Region → Bool) (hCan : L .can = true) (p c : Nat) (a : List Byte) (s : State) :
    blank L (sendRun p c a s) = blank L s := by
  simp only [sendRun, enqueueCan_frame, hCan]

theorem schedRouteWrite_frame (L : Region → Bool) (hCan : L .can = true) (i : Nat) (a : List Byte) (s : State) :
    blank L (schedRouteWrite i a s) = blank L s := by
  simp only [schedRouteWrite, modCsched_frame, hCan]

theorem startRecovery_frame (L : Region → Bool) (hWire : L .wire = true) (hCan : L .can = true) (hAq : L .aq = true) (c : Nat) (byCommand : Bool) (s : State) :
    blank L (startRecovery c byCommand s) = blank L s := by
  unfold startRecovery
  repeat' (first | with_reducible rfl | (simp only [modCanCh_frame, setCanErr_frame, hWire, hCan, hAq, apply_ite (blank L), ite_self]) | (with_reducible refine ite_frame _ ?_ ?_) | split)

theorem canClass_keeps (L : Region → Bool) (hWire : L .wire = true) (hCan : L .can = true) (hAq : L .aq = true)  : Keeps L (canClass) where
  record h := by
    simp only [canClass] at h
    repeat' (split at h)
    all_goals first | (cases h; done) | (with_reducible exact canRecord_keeps L hCan h) | (injection h with h; subst h; first | (exact FldsKeep.nil))
  after _ _ _ _ _ := by
    simp only [canClass]
    repeat' (first | with_reducible rfl | (simp only [canAfter_frame, modCanCh_frame, schedRouteWrite_frame, sendRun_frame, startRecovery_frame, startSwap_frame, hWire, hCan, hAq, apply_ite (blank L), ite_self]) | (with_reducible refine ite_frame _ ?_ ?_) | split)
  onRead _ _ _ _ _ := by
    simp only [canClass]
    repeat' (first | with_reducible rfl | (simp only [canAfter_frame, modCanCh_frame, schedRouteWrite_frame, sendRun_frame, startRecovery_frame, startSwap_frame, hWire, hCan, hAq, apply_ite (blank L), ite_self]) | (with_reducible refine ite_frame _ ?_ ?_) | split)
  held h := by
    first
    | (cases h; done)
    | (simp only [canClass] at h; exact absurd h)
  acts := by
    simp only [canClass]
    repeat' (first | (exact ActsKeep.nil) | (refine ActsKeep.cons ?_ ?_) | (refine ⟨fun _ _ _ _ => ?_, fun _ => ?_, fun _ _ _ => ?_, fun h9 => ?_⟩) | (cases h9; done) | (injection h9 with h9; subst h9) | with_reducible rfl | (simp only [canAfter_frame, modCanCh_frame, schedRouteWrite_frame, sendRun_frame, startRecovery_frame, startSwap_frame, hWire, hCan, hAq, apply_ite (blank L), ite_self]) | (with_reducible refine ite_frame _ ?_ ?_) | split)

theorem execCanSet_frame (L : Region → Bool) (hStaged : L .staged = true) (hFv : L .fv = true) (hWire : L .wire = true) (hDetect : L .detect = true) (hTp : L .tp = true) (hCan : L .can = true) (hNm : L .nm = true) (hAq : L .aq = true) (hTow : L .tow = true) {r : Req} {s : State} {t9} (h : execCanSet r s = .next t9) :
    blank L t9 = blank L s := by
  unfold execCanSet at h
  injection h with h
  subst h
  repeat' (first | with_reducible rfl | (refine Eq.trans (cmdSet_frame L hStaged hFv hWire hDetect hTp hNm hTow (canClass_keeps L hWire hCan hAq) _ _) ?_) | (simp only [hStaged, hFv, hWire, hDetect, hTp, hCan, hNm, hAq, hTow, apply_ite (blank L), ite_self]) | (with_reducible refine ite_frame _ ?_ ?_) | split)

theorem execCanSend_frame (L : Region → Bool) (hStaged : L .staged = true) (hFv : L .fv = true) (hWire : L .wire = true) (hDetect : L .detect = true) (hTp : L .tp = true) (hCan : L .can = true) (hNm : L .nm = true) (hAq : L .aq = true) (hTow : L .tow = true) {r : Req} {s : State} {t9} (h : execCanSend r s = .next t9) :
    blank L t9 = blank L s := by
  unfold execCanSend at h
  injection h with h
  subst h
  repeat' (first | with_reducible rfl | (refine Eq.trans (cmdAct_frame L hStaged hFv hWire hDetect hTp hNm hTow (canClass_keeps L hWire hCan hAq) _ _ _) ?_) | (simp only [hStaged, hFv, hWire, hDetect, hTp, hCan, hNm, hAq, hTow, apply_ite (blank L), ite_self]) | (with_reducible refine ite_frame _ ?_ ?_) | split)

theorem execCanRecover_frame (L : Region → Bool) (hStaged : L .staged = true) (hFv : L .fv = true) (hWire : L .wire = true) (hDetect : L .detect = true) (hTp : L .tp = true) (hCan : L .can = true) (hNm : L .nm = true) (hAq : L .aq = true) (hTow : L .tow = true) {r : Req} {s : State} {t9} (h : execCanRecover r s = .next t9) :
    blank L t9 = blank L s := by
  unfold execCanRecover at h
  injection h with h
  subst h
  repeat' (first | with_reducible rfl | (refine Eq.trans (cmdAct_frame L hStaged hFv hWire hDetect hTp hNm hTow (canClass_keeps L hWire hCan hAq) _ _ _) ?_) | (simp only [hStaged, hFv, hWire, hDetect, hTp, hCan, hNm, hAq, hTow, apply_ite (blank L), ite_self]) | (with_reducible refine ite_frame _ ?_ ?_) | split)

theorem execCanClearCounters_frame (L : Region → Bool) (hStaged : L .staged = true) (hFv : L .fv = true) (hWire : L .wire = true) (hDetect : L .detect = true) (hTp : L .tp = true) (hCan : L .can = true) (hNm : L .nm = true) (hAq : L .aq = true) (hTow : L .tow = true) {r : Req} {s : State} {t9} (h : execCanClearCounters r s = .next t9) :
    blank L t9 = blank L s := by
  unfold execCanClearCounters at h
  injection h with h
  subst h
  repeat' (first | with_reducible rfl | (refine Eq.trans (cmdAct_frame L hStaged hFv hWire hDetect hTp hNm hTow (canClass_keeps L hWire hCan hAq) _ _ _) ?_) | (simp only [hStaged, hFv, hWire, hDetect, hTp, hCan, hNm, hAq, hTow, apply_ite (blank L), ite_self]) | (with_reducible refine ite_frame _ ?_ ?_) | split)

theorem execCanSwap_frame (L : Region → Bool) (hStaged : L .staged = true) (hFv : L .fv = true) (hWire : L .wire = true) (hDetect : L .detect = true) (hTp : L .tp = true) (hCan : L .can = true) (hNm : L .nm = true) (hAq : L .aq = true) (hTow : L .tow = true) {r : Req} {s : State} {t9} (h : execCanSwap r s = .next t9) :
    blank L t9 = blank L s := by
  unfold execCanSwap at h
  injection h with h
  subst h
  repeat' (first | with_reducible rfl | (refine Eq.trans (cmdAct_frame L hStaged hFv hWire hDetect hTp hNm hTow (canClass_keeps L hWire hCan hAq) _ _ _) ?_) | (simp only [hStaged, hFv, hWire, hDetect, hTp, hCan, hNm, hAq, hTow, apply_ite (blank L), ite_self]) | (with_reducible refine ite_frame _ ?_ ?_) | split)

theorem execCanFrameReceived_frame (L : Region → Bool) (hWire : L .wire = true) (hDetect : L .detect = true) (hPond : L .pond = true) (hCan : L .can = true) (hAq : L .aq = true) (hFree : L .free = true) {c : Nat} {f : CanFrame} {sec ns : Nat} {spare : Option (CanFrame × Int)} {s : State} {t9} (h : execCanFrameReceived c f sec ns spare s = .next t9) :
    blank L t9 = blank L s := by
  obtain ⟨-, rfl⟩ := guardUnit_next h
  repeat' (first | with_reducible rfl | (with_reducible refine Eq.trans (takeFree_frame_eq L hFree (by with_reducible assumption)) ?_) | (simp only [applyCounters_frame, modCanCh_frame, receiveCan_frame, spareMismatch_frame, takeFree_frame, hWire, hDetect, hPond, hCan, hAq, hFree, apply_ite (blank L), ite_self]) | (with_reducible refine ite_frame _ ?_ ?_) | split)

theorem sendSlot_frame (L : Region → Bool) (hWire : L .wire = true) (hCan : L .can = true) (c k loopDelay : Nat) (s : State) :
    blank L (sendSlot c k loopDelay s) = blank L s := by
  unfold sendSlot
  repeat' (first | with_reducible rfl | (simp only [countCan_frame, modCanCh_frame, hWire, hCan, apply_ite (blank L), ite_self]) | (with_reducible refine ite_frame _ ?_ ?_) | split)

theorem execCanTransmitOpportunity_frame (L : Region → Bool) (hWire : L .wire = true) (hDetect : L .detect = true) (hCan : L .can = true) {c : Nat} {fromIdle : Bool} {loopDelay : Nat} {s : State} {t9} (h : execCanTransmitOpportunity c fromIdle loopDelay s = .next t9) :
    blank L t9 = blank L s := by
  obtain ⟨-, rfl⟩ := guardUnit_next h
  repeat' (first | with_reducible rfl | (simp only [detectEnd_frame, modCanCh_frame, sendSlot_frame, hWire, hDetect, hCan, apply_ite (blank L), ite_self]) | (with_reducible refine ite_frame _ ?_ ?_) | split)

theorem execCanTxSuccess_frame (L : Region → Bool) (hWire : L .wire = true) (hDetect : L .detect = true) (hCan : L .can = true) (hAq : L .aq = true) {c sec ns : Nat} {s : State} {t9} (h : execCanTxSuccess c sec ns s = .next t9) :
    blank L t9 = blank L s := by
  obtain ⟨-, rfl⟩ := guardUnit_next h
  repeat' (first | with_reducible rfl | (simp only [applyCounters_frame, countCan_frame, emit_frame, modCanCh_frame, receiveCan_frame, hWire, hDetect, hCan, hAq, apply_ite (blank L), ite_self]) | (with_reducible refine ite_frame _ ?_ ?_) | split)

theorem execCanArbitrationLost_frame (L : Region → Bool) (hWire : L .wire = true) (hCan : L .can = true) {c : Nat} {s : State} {t9} (h : execCanArbitrationLost c s = .next t9) :
    blank L t9 = blank L s := by
  obtain ⟨-, rfl⟩ := guardUnit_next h
  repeat' (first | with_reducible rfl | (simp only [countCan_frame, endOnBus_frame, hWire, hCan, apply_ite (blank L), ite_self]) | (with_reducible refine ite_frame _ ?_ ?_) | split)

theorem execCanError_frame (L : Region → Bool) (hWire : L .wire = true) (hDetect : L .detect = true) (hCan : L .can = true) (hAq : L .aq = true) {c : Nat} {e : CanErr} {s : State} {t9} (h : execCanError c e s = .next t9) :
    blank L t9 = blank L s := by
  obtain ⟨-, rfl⟩ := guardUnit_next h
  repeat' (first | with_reducible rfl | (simp only [canError_frame, hWire, hDetect, hCan, hAq, apply_ite (blank L), ite_self]) | (with_reducible refine ite_frame _ ?_ ?_) | split)

theorem execCanTxDeadline_frame (L : Region → Bool) (hWire : L .wire = true) (hCan : L .can = true) {c : Nat} {s : State} {t9} (h : execCanTxDeadline c s = .next t9) :
    blank L t9 = blank L s := by
  obtain ⟨-, rfl⟩ := guardUnit_next h
  repeat' (first | with_reducible rfl | (simp only [deadlineCan_frame, hWire, hCan, apply_ite (blank L), ite_self]) | (with_reducible refine ite_frame _ ?_ ?_) | split)

theorem execCanModeChange_frame (L : Region → Bool) (hWire : L .wire = true) (hCan : L .can = true) (hNm : L .nm = true) (hAq : L .aq = true) {c : Nat} {s : State} {t9} (h : execCanModeChange c s = .next t9) :
    blank L t9 = blank L s := by
  obtain ⟨-, rfl⟩ := guardUnit_next h
  repeat' (first | with_reducible rfl | (simp only [armCan_frame, disarmCan_frame, discardCan_frame, modCanCh_frame, setCanErr_frame, hWire, hCan, hNm, hAq, apply_ite (blank L), ite_self]) | (with_reducible refine ite_frame _ ?_ ?_) | split)

theorem execBusIntegration_frame (L : Region → Bool) (hCan : L .can = true) {c : Nat} {s : State} {t9} (h : execBusIntegration c s = .next t9) :
    blank L t9 = blank L s := by
  obtain ⟨-, rfl⟩ := guardUnit_next h
  repeat' (first | with_reducible rfl | (simp only [modCanCh_frame, hCan, apply_ite (blank L), ite_self]) | (with_reducible refine ite_frame _ ?_ ?_) | split)

theorem execRecoveryRequest_frame (L : Region → Bool) (hWire : L .wire = true) (hCan : L .can = true) (hAq : L .aq = true) {c : Nat} {s : State} {t9} (h : execRecoveryRequest c s = .next t9) :
    blank L t9 = blank L s := by
  obtain ⟨-, rfl⟩ := guardUnit_next h
  repeat' (first | with_reducible rfl | (simp only [startRecovery_frame, hWire, hCan, hAq, apply_ite (blank L), ite_self]) | (with_reducible refine ite_frame _ ?_ ?_) | split)

theorem execRecoveryComplete_frame (L : Region → Bool) (hWire : L .wire = true) (hDetect : L .detect = true) (hCan : L .can = true) (hAq : L .aq = true) {c : Nat} {s : State} {t9} (h : execRecoveryComplete c s = .next t9) :
    blank L t9 = blank L s := by
  obtain ⟨-, rfl⟩ := guardUnit_next h
  repeat' (first | with_reducible rfl | (simp only [canBusEvent_frame, deadlineCan_frame, detectEnd_frame, emit_frame, modCanCh_frame, setCanErr_frame, hWire, hDetect, hCan, hAq, apply_ite (blank L), ite_self]) | (with_reducible refine ite_frame _ ?_ ?_) | split)

theorem execRecoveryWaitReport_frame (L : Region → Bool) (hWire : L .wire = true) (hCan : L .can = true) (hAq : L .aq = true) {c : Nat} {s : State} {t9} (h : execRecoveryWaitReport c s = .next t9) :
    blank L t9 = blank L s := by
  obtain ⟨-, rfl⟩ := guardUnit_next h
  repeat' (first | with_reducible rfl | (simp only [canState_frame, modCanCh_frame, hWire, hCan, hAq, apply_ite (blank L), ite_self]) | (with_reducible refine ite_frame _ ?_ ?_) | split)

theorem execBoffRunReset_frame (L : Region → Bool) (hCan : L .can = true) {c : Nat} {s : State} {t9} (h : execBoffRunReset c s = .next t9) :
    blank L t9 = blank L s := by
  obtain ⟨-, rfl⟩ := guardUnit_next h
  repeat' (first | with_reducible rfl | (simp only [modCanCh_frame, hCan, apply_ite (blank L), ite_self]) | (with_reducible refine ite_frame _ ?_ ?_) | split)

theorem execSpareShadowPeriodEnd_frame (L : Region → Bool) (hCan : L .can = true) {s : State} {t9} (h : execSpareShadowPeriodEnd s = .next t9) :
    blank L t9 = blank L s := by
  unfold execSpareShadowPeriodEnd at h
  injection h with h
  subst h
  repeat' (first | with_reducible rfl | (simp only [modCan_frame, hCan, apply_ite (blank L), ite_self]) | (with_reducible refine ite_frame _ ?_ ?_) | split)

theorem execSpareSelfTest_frame (L : Region → Bool) (hWire : L .wire = true) (hPond : L .pond = true) (hCan : L .can = true) {pass : Bool} {s : State} {t9} (h : execSpareSelfTest pass s = .next t9) :
    blank L t9 = blank L s := by
  unfold execSpareSelfTest at h
  injection h with h
  subst h
  repeat' (first | with_reducible rfl | (simp only [condemnOff_frame, emit_frame, modCanCh_frame, modCan_frame, modPond_frame, pondWear_frame, wearLog_frame, hWire, hPond, hCan, apply_ite (blank L), ite_self]) | (with_reducible refine (foldl_pair_frame L _ (fun _ _ => ?_) _ _).trans ?_) | (with_reducible refine (foldl_frame L _ (fun _ _ => ?_) _ _).trans ?_) | (with_reducible refine ite_frame _ ?_ ?_) | split)

theorem execControllerSwap_frame (L : Region → Bool) (hWire : L .wire = true) (hPond : L .pond = true) (hCan : L .can = true) {c : Nat} {s : State} {t9} (h : execControllerSwap c s = .next t9) :
    blank L t9 = blank L s := by
  obtain ⟨-, rfl⟩ := guardUnit_next h
  repeat' (first | with_reducible rfl | (simp only [emit_frame, modCanCh_frame, modCan_frame, modPond_frame, pondIn_frame, hWire, hPond, hCan, apply_ite (blank L), ite_self]) | (with_reducible refine ite_frame _ ?_ ?_) | split)

theorem execCanDominantTimeout_frame (L : Region → Bool) (hWire : L .wire = true) (hDetect : L .detect = true) (hCan : L .can = true) {c : Nat} {s : State} {t9} (h : execCanDominantTimeout c s = .next t9) :
    blank L t9 = blank L s := by
  obtain ⟨-, rfl⟩ := guardUnit_next h
  repeat' (first | with_reducible rfl | (simp only [detect_frame, modCanCh_frame, hWire, hDetect, hCan, apply_ite (blank L), ite_self]) | (with_reducible refine ite_frame _ ?_ ?_) | split)

end Sys2Proof.Machine
end

