-- ==== Sys2Proof/Laws/FrameLin.lean ====
section
/-! SUPPORT. Frame lemmas of Machine/Lin.lean: what each operation leaves alone. -/
set_option linter.unusedSimpArgs false
set_option linter.unusedVariables false
namespace Sys2Proof.Machine

theorem setLinState_frame (L : Region → Bool) (hLin : L .lin = true) (c st : Nat) (s : State) :
    blank L (setLinState c st s) = blank L s := by
  unfold setLinState
  repeat' (first | with_reducible rfl | (simp only [modLinCh_frame, hLin, apply_ite (blank L), ite_self]) | (with_reducible refine ite_frame _ ?_ ?_) | split)

theorem linSync_frame (L : Region → Bool) (hLin : L .lin = true) (c : Nat) (s : State) :
    blank L (linSync c s) = blank L s := by
  unfold linSync
  repeat' (first | with_reducible rfl | (simp only [modLinCh_frame, setLinState_frame, hLin, apply_ite (blank L), ite_self]) | (with_reducible refine ite_frame _ ?_ ?_) | split)

theorem linBusEvent_frame (L : Region → Bool) (hAq : L .aq = true) (c bit ev info : Nat) (s : State) :
    blank L (linBusEvent c bit ev info s) = blank L s := by
  simp only [linBusEvent, busEvent_frame, hAq]

theorem linError_frame (L : Region → Bool) (hWire : L .wire = true) (hAq : L .aq = true) (c cause id : Nat) (s : State) :
    blank L (linError c cause id s) = blank L s := by
  simp only [linError, emit_frame, linBusEvent_frame, hWire, hAq]

theorem linSleep_frame (L : Region → Bool) (hWire : L .wire = true) (hAq : L .aq = true) (c cause : Nat) (s : State) :
    blank L (linSleep c cause s) = blank L s := by
  simp only [linSleep, emit_frame, linBusEvent_frame, hWire, hAq]

theorem linBegin_frame (L : Region → Bool) (hLin : L .lin = true) (c t p : Nat) (s : State) :
    blank L (linBegin c t p s) = blank L s := by
  unfold linBegin
  repeat' (first | with_reducible rfl | (simp only [modLinCh_frame, hLin, apply_ite (blank L), ite_self]) | (with_reducible refine ite_frame _ ?_ ?_) | split)

theorem linSlotBoundary_frame (L : Region → Bool) (hWire : L .wire = true) (hLin : L .lin = true) (c : Nat) (s : State) :
    blank L (linSlotBoundary c s) = blank L s := by
  unfold linSlotBoundary
  repeat' (first | with_reducible rfl | (simp only [emit_frame, linBegin_frame, modLinCh_frame, hWire, hLin, apply_ite (blank L), ite_self]) | (with_reducible refine ite_frame _ ?_ ?_) | split)

theorem linBoundary_frame (L : Region → Bool) (hWire : L .wire = true) (hLin : L .lin = true) (s : State) :
    blank L (linBoundary s) = blank L s := by
  unfold linBoundary
  repeat' (first | with_reducible rfl | (simp only [linSlotBoundary_frame, linSync_frame, modLinCh_frame, hWire, hLin, apply_ite (blank L), ite_self]) | (with_reducible refine (foldl_pair_frame L _ (fun _ _ => ?_) _ _).trans ?_) | (with_reducible refine (foldl_frame L _ (fun _ _ => ?_) _ _).trans ?_) | (with_reducible refine ite_frame _ ?_ ?_) | split)

theorem linSent_frame (L : Region → Bool) (hLin : L .lin = true) (c id : Nat) (s : State) :
    blank L (linSent c id s) = blank L s := by
  unfold linSent
  repeat' (first | with_reducible rfl | (simp only [modLinCh_frame, modLinFrame_frame, hLin, apply_ite (blank L), ite_self]) | (with_reducible refine ite_frame _ ?_ ?_) | split)

theorem linRec_keeps (L : Region → Bool) (hLin : L .lin = true) (c : Nat) : FldsKeep L (linRec c).flds := by
  unfold linRec
  repeat' (first | (refine FldsKeep.lift (fun _ _ => ?_)) | (refine FldsKeep.append ?_ ?_) | (refine FldsKeep.flatMap (fun _ => ?_)) | (refine FldsKeep.map (fun _ => ?_)) | (refine FldsKeep.cons ?_ ?_) | (exact FldsKeep.nil) | (exact fun _ _ => rfl) | (intro n9 s9) | (simp only [modLinCh_frame, hLin, apply_ite (blank L), ite_self]))

theorem linFrameRec_keeps (L : Region → Bool) (hLin : L .lin = true) (e : Nat) : FldsKeep L (linFrameRec e).flds := by
  unfold linFrameRec
  repeat' (first | (refine FldsKeep.lift (fun _ _ => ?_)) | (refine FldsKeep.append ?_ ?_) | (refine FldsKeep.flatMap (fun _ => ?_)) | (refine FldsKeep.map (fun _ => ?_)) | (refine FldsKeep.cons ?_ ?_) | (exact FldsKeep.nil) | (exact fun _ _ => rfl) | (intro n9 s9) | (simp only [modLinFrame_frame, hLin, apply_ite (blank L), ite_self]))

theorem linSlotRec_keeps (L : Region → Bool) (hLin : L .lin = true) (k : Nat) : FldsKeep L (linSlotRec k).flds := by
  unfold linSlotRec
  repeat' (first | (refine FldsKeep.lift (fun _ _ => ?_)) | (refine FldsKeep.append ?_ ?_) | (refine FldsKeep.flatMap (fun _ => ?_)) | (refine FldsKeep.map (fun _ => ?_)) | (refine FldsKeep.cons ?_ ?_) | (exact FldsKeep.nil) | (exact fun _ _ => rfl) | (intro n9 s9) | (simp only [modLinSlot_frame, hLin, apply_ite (blank L), ite_self]))

theorem linRecord_keeps (L : Region → Bool) (hLin : L .lin = true) {i part : Nat} {rc : Rec} (h : linRecord i part = some rc) : FldsKeep L rc.flds := by
  unfold linRecord at h
  repeat' (split at h)
  all_goals first | (cases h; done) | (injection h with h; subst h; first | (exact FldsKeep.nil) | (with_reducible exact linSlotRec_keeps L hLin _) | (with_reducible exact linFrameRec_keeps L hLin _) | (with_reducible exact linRec_keeps L hLin _))

theorem linAfter_frame (L : Region → Bool) (hLin : L .lin = true) (x0 : State) (i x1 : Nat) (ws : List (Nat × Nat)) (s : State) :
    blank L (linAfter x0 i x1 ws s) = blank L s := by
  unfold linAfter
  repeat' (first | with_reducible rfl | (simp only [modLinFrame_frame, hLin, apply_ite (blank L), ite_self]) | (with_reducible refine ite_frame _ ?_ ?_) | split)

theorem linRouteWrite_frame (L : Region → Bool) (hLin : L .lin = true) (i : Nat) (a : List Byte) (s : State) :
    blank L (linRouteWrite i a s) = blank L s := by
  simp only [linRouteWrite, modLinFrame_frame, hLin]

theorem linClass_keeps (L : Region → Bool) (hLin : L .lin = true)  : Keeps L (linClass) where
  record h := by
    simp only [linClass] at h
    repeat' (split at h)
    all_goals first | (cases h; done) | (with_reducible exact linRecord_keeps L hLin h) | (injection h with h; subst h; first | (exact FldsKeep.nil))
  after _ _ _ _ _ := by
    simp only [linClass]
    repeat' (first | with_reducible rfl | (simp only [linAfter_frame, linRouteWrite_frame, modLinCh_frame, hLin, apply_ite (blank L), ite_self]) | (with_reducible refine ite_frame _ ?_ ?_) | split)
  onRead _ _ _ _ _ := by
    simp only [linClass]
    repeat' (first | with_reducible rfl | (simp only [linAfter_frame, linRouteWrite_frame, modLinCh_frame, hLin, apply_ite (blank L), ite_self]) | (with_reducible refine ite_frame _ ?_ ?_) | split)
  held h := by
    first
    | (cases h; done)
    | (simp only [linClass] at h; exact absurd h)
  acts := by
    simp only [linClass]
    repeat' (first | (exact ActsKeep.nil) | (refine ActsKeep.cons ?_ ?_) | (refine ⟨fun _ _ _ _ => ?_, fun _ => ?_, fun _ _ _ => ?_, fun h9 => ?_⟩) | (cases h9; done) | (injection h9 with h9; subst h9) | with_reducible rfl | (simp only [linAfter_frame, linRouteWrite_frame, modLinCh_frame, hLin, apply_ite (blank L), ite_self]) | (with_reducible refine ite_frame _ ?_ ?_) | split)

theorem execLinSet_frame (L : Region → Bool) (hStaged : L .staged = true) (hFv : L .fv = true) (hWire : L .wire = true) (hDetect : L .detect = true) (hTp : L .tp = true) (hLin : L .lin = true) (hNm : L .nm = true) (hTow : L .tow = true) {r : Req} {s : State} {t9} (h : execLinSet r s = .next t9) :
    blank L t9 = blank L s := by
  unfold execLinSet at h
  injection h with h
  subst h
  repeat' (first | with_reducible rfl | (refine Eq.trans (cmdSet_frame L hStaged hFv hWire hDetect hTp hNm hTow (linClass_keeps L hLin) _ _) ?_) | (simp only [hStaged, hFv, hWire, hDetect, hTp, hLin, hNm, hTow, apply_ite (blank L), ite_self]) | (with_reducible refine ite_frame _ ?_ ?_) | split)

theorem execLinSwitch_frame (L : Region → Bool) (hStaged : L .staged = true) (hFv : L .fv = true) (hWire : L .wire = true) (hDetect : L .detect = true) (hTp : L .tp = true) (hLin : L .lin = true) (hNm : L .nm = true) (hTow : L .tow = true) {r : Req} {s : State} {t9} (h : execLinSwitch r s = .next t9) :
    blank L t9 = blank L s := by
  unfold execLinSwitch at h
  injection h with h
  subst h
  repeat' (first | with_reducible rfl | (refine Eq.trans (cmdAct_frame L hStaged hFv hWire hDetect hTp hNm hTow (linClass_keeps L hLin) _ _ _) ?_) | (simp only [hStaged, hFv, hWire, hDetect, hTp, hLin, hNm, hTow, apply_ite (blank L), ite_self]) | (with_reducible refine ite_frame _ ?_ ?_) | split)

theorem execLinSlotStart_frame (L : Region → Bool) (hLin : L .lin = true) {c : Nat} {s : State} {t9} (h : execLinSlotStart c s = .next t9) :
    blank L t9 = blank L s := by
  obtain ⟨-, rfl⟩ := guardUnit_next h
  repeat' (first | with_reducible rfl | (simp only [linSent_frame, modLinCh_frame, hLin, apply_ite (blank L), ite_self]) | (with_reducible refine ite_frame _ ?_ ?_) | split)

theorem linCollision_frame (L : Region → Bool) (hLin : L .lin = true) (c cause : Nat) (s : State) :
    blank L (linCollision c cause s) = blank L s := by
  unfold linCollision
  repeat' (first | with_reducible rfl | (simp only [modLinCh_frame, hLin, apply_ite (blank L), ite_self]) | (with_reducible refine ite_frame _ ?_ ?_) | split)

theorem execLinResponseReceived_frame (L : Region → Bool) (hWire : L .wire = true) (hLin : L .lin = true) (hAq : L .aq = true) {c err : Nat} {data : List Byte} {chk sec ns : Nat} {s : State} {t9} (h : execLinResponseReceived c err data chk sec ns s = .next t9) :
    blank L t9 = blank L s := by
  obtain ⟨-, rfl⟩ := guardUnit_next h
  repeat' (first | with_reducible rfl | (simp only [linCollision_frame, linError_frame, linSleep_frame, modAq_frame, modLinCh_frame, modLinFrame_frame, setLinState_frame, hWire, hLin, hAq, apply_ite (blank L), ite_self]) | (with_reducible refine ite_frame _ ?_ ?_) | split)

theorem execLinNoResponse_frame (L : Region → Bool) (hWire : L .wire = true) (hLin : L .lin = true) (hAq : L .aq = true) {c : Nat} {s : State} {t9} (h : execLinNoResponse c s = .next t9) :
    blank L t9 = blank L s := by
  obtain ⟨-, rfl⟩ := guardUnit_next h
  repeat' (first | with_reducible rfl | (simp only [linError_frame, modLinCh_frame, modLinFrame_frame, hWire, hLin, hAq, apply_ite (blank L), ite_self]) | (with_reducible refine ite_frame _ ?_ ?_) | split)

theorem execLinHeaderReceived_frame (L : Region → Bool) (hWire : L .wire = true) (hLin : L .lin = true) (hNm : L .nm = true) (hAq : L .aq = true) {c pid rate : Nat} {s : State} {t9} (h : execLinHeaderReceived c pid rate s = .next t9) :
    blank L t9 = blank L s := by
  obtain ⟨-, rfl⟩ := guardUnit_next h
  repeat' (first | with_reducible rfl | (simp only [linError_frame, linSent_frame, modLinCh_frame, modNmc_frame, setLinState_frame, hWire, hLin, hNm, hAq, apply_ite (blank L), ite_self]) | (with_reducible refine (foldl_pair_frame L _ (fun _ _ => ?_) _ _).trans ?_) | (with_reducible refine (foldl_frame L _ (fun _ _ => ?_) _ _).trans ?_) | (with_reducible refine ite_frame _ ?_ ?_) | split)

theorem execLinGoToSleepReceived_frame (L : Region → Bool) (hWire : L .wire = true) (hNm : L .nm = true) (hAq : L .aq = true) {c : Nat} {s : State} {t9} (h : execLinGoToSleepReceived c s = .next t9) :
    blank L t9 = blank L s := by
  obtain ⟨-, rfl⟩ := guardUnit_next h
  repeat' (first | with_reducible rfl | (simp only [linSleep_frame, modNmc_frame, hWire, hNm, hAq, apply_ite (blank L), ite_self]) | (with_reducible refine (foldl_pair_frame L _ (fun _ _ => ?_) _ _).trans ?_) | (with_reducible refine (foldl_frame L _ (fun _ _ => ?_) _ _).trans ?_) | (with_reducible refine ite_frame _ ?_ ?_) | split)

theorem execLinBusIdle_frame (L : Region → Bool) (hWire : L .wire = true) (hNm : L .nm = true) (hAq : L .aq = true) {c : Nat} {s : State} {t9} (h : execLinBusIdle c s = .next t9) :
    blank L t9 = blank L s := by
  obtain ⟨-, rfl⟩ := guardUnit_next h
  repeat' (first | with_reducible rfl | (simp only [linSleep_frame, modNmc_frame, hWire, hNm, hAq, apply_ite (blank L), ite_self]) | (with_reducible refine (foldl_pair_frame L _ (fun _ _ => ?_) _ _).trans ?_) | (with_reducible refine (foldl_frame L _ (fun _ _ => ?_) _ _).trans ?_) | (with_reducible refine ite_frame _ ?_ ?_) | split)

theorem execLinWakeRetry_frame (L : Region → Bool) (hWire : L .wire = true) (hLin : L .lin = true) {c : Nat} {s : State} {t9} (h : execLinWakeRetry c s = .next t9) :
    blank L t9 = blank L s := by
  obtain ⟨-, rfl⟩ := guardUnit_next h
  repeat' (first | with_reducible rfl | (simp only [emit_frame, modLinCh_frame, hWire, hLin, apply_ite (blank L), ite_self]) | (with_reducible refine ite_frame _ ?_ ?_) | split)

theorem execLinScheduleResume_frame (L : Region → Bool) (hLin : L .lin = true) {c : Nat} {s : State} {t9} (h : execLinScheduleResume c s = .next t9) :
    blank L t9 = blank L s := by
  obtain ⟨-, rfl⟩ := guardUnit_next h
  repeat' (first | with_reducible rfl | (simp only [modLinCh_frame, setLinState_frame, hLin, apply_ite (blank L), ite_self]) | (with_reducible refine ite_frame _ ?_ ?_) | split)

end Sys2Proof.Machine
end

