-- ==== Sys2Proof/Laws/FrameTowpath.lean ====
section
/-! SUPPORT. Frame lemmas of Machine/Towpath.lean: what each operation leaves alone. -/
set_option linter.unusedSimpArgs false
set_option linter.unusedVariables false
namespace Sys2Proof.Machine

theorem useCopies_frame (L : Region → Bool) (hWire : L .wire = true) (hTp : L .tp = true) (s : State) :
    blank L (useCopies s) = blank L s := by
  unfold useCopies
  repeat' (first | with_reducible rfl | (simp only [emit_frame, modTp_frame, hWire, hTp, apply_ite (blank L), ite_self]) | (with_reducible refine ite_frame _ ?_ ?_) | split)

theorem writeCopy_frame (L : Region → Bool) (hSys : L .sys = true) (hTp : L .tp = true) (hMem : L .mem = true) (c : Nat) (b : List Byte) (s : State) :
    blank L (writeCopy c b s) = blank L s := by
  unfold writeCopy
  repeat' (first | with_reducible rfl | (simp only [modTp_frame, storeBytes_frame, hSys, hTp, hMem, apply_ite (blank L), ite_self]) | (with_reducible refine ite_frame _ ?_ ?_) | split)

theorem writeTable_frame (L : Region → Bool) (hSys : L .sys = true) (hTp : L .tp = true) (hMem : L .mem = true) (n : TpTable) (s : State) :
    blank L (writeTable n s) = blank L s := by
  unfold writeTable
  repeat' (first | with_reducible rfl | (simp only [modTp_frame, writeCopy_frame, hSys, hTp, hMem, apply_ite (blank L), ite_self]) | (with_reducible refine ite_frame _ ?_ ?_) | split)

theorem tpEvaluate_frame (L : Region → Bool) (hTp : L .tp = true) (t : Nat) (s : State) :
    blank L (tpEvaluate t s) = blank L s := by
  unfold tpEvaluate
  repeat' (first | with_reducible rfl | (simp only [modTp_frame, hTp, apply_ite (blank L), ite_self]) | (with_reducible refine (foldl_pair_frame L _ (fun _ _ => ?_) _ _).trans ?_) | (with_reducible refine (foldl_frame L _ (fun _ _ => ?_) _ _).trans ?_) | (with_reducible refine ite_frame _ ?_ ?_) | split)

theorem tpCutoff_frame (L : Region → Bool) (hTp : L .tp = true) (s : State) :
    blank L (tpCutoff s) = blank L s := by
  unfold tpCutoff
  repeat' (first | with_reducible rfl | (simp only [modTp_frame, tpEvaluate_frame, hTp, apply_ite (blank L), ite_self]) | (with_reducible refine ite_frame _ ?_ ?_) | split)

theorem takeOver_frame (L : Region → Bool) (hTp : L .tp = true) (s : State) :
    blank L (takeOver s) = blank L s := by
  unfold takeOver
  repeat' (first | with_reducible rfl | (simp only [modTp_frame, hTp, apply_ite (blank L), ite_self]) | (with_reducible refine (foldl_pair_frame L _ (fun _ _ => ?_) _ _).trans ?_) | (with_reducible refine (foldl_frame L _ (fun _ _ => ?_) _ _).trans ?_) | (with_reducible refine ite_frame _ ?_ ?_) | split)

theorem tpStep_frame (L : Region → Bool) (hWire : L .wire = true) (hTp : L .tp = true) (hFio : L .fio = true) (s : State) :
    blank L (tpStep s) = blank L s := by
  unfold tpStep
  repeat' (first | with_reducible rfl | (simp only [foRefresh_frame, modTp_frame, takeOver_frame, useCopies_frame, hWire, hTp, hFio, apply_ite (blank L), ite_self]) | (with_reducible refine (foldl_pair_frame L _ (fun _ _ => ?_) _ _).trans ?_) | (with_reducible refine (foldl_frame L _ (fun _ _ => ?_) _ _).trans ?_) | (with_reducible refine ite_frame _ ?_ ?_) | split)

theorem tpOutputs_frame (L : Region → Bool) (hWire : L .wire = true) (hPow : L .pow = true) (hSlu : L .slu = true) (hMot : L .mot = true) (hFio : L .fio = true) (c : Nat) (s : State) :
    blank L (tpOutputs c s) = blank L s := by
  unfold tpOutputs
  repeat' (first | with_reducible rfl | (simp only [bridgeBoundary_frame, chanBoundary_frame, foSet_frame, padStep_frame, hWire, hPow, hSlu, hMot, hFio, apply_ite (blank L), ite_self]) | (with_reducible refine (foldl_pair_frame L _ (fun _ _ => ?_) _ _).trans ?_) | (with_reducible refine (foldl_frame L _ (fun _ _ => ?_) _ _).trans ?_) | (with_reducible refine ite_frame _ ?_ ?_) | split)

theorem handOver_frame (L : Region → Bool) (hWire : L .wire = true) (hTp : L .tp = true) (s : State) :
    blank L (handOver s) = blank L s := by
  unfold handOver
  repeat' (first | with_reducible rfl | (simp only [emit_frame, modTp_frame, hWire, hTp, apply_ite (blank L), ite_self]) | (with_reducible refine ite_frame _ ?_ ?_) | split)

theorem tpRec_keeps (L : Region → Bool)   : FldsKeep L (tpRec ).flds := by
  unfold tpRec
  repeat' (first | (refine FldsKeep.lift (fun _ _ => ?_)) | (refine FldsKeep.append ?_ ?_) | (refine FldsKeep.flatMap (fun _ => ?_)) | (refine FldsKeep.map (fun _ => ?_)) | (refine FldsKeep.cons ?_ ?_) | (exact FldsKeep.nil) | (exact fun _ _ => rfl) | (intro n9 s9) | (simp only [apply_ite (blank L), ite_self]))

theorem tpClass_keeps (L : Region → Bool) (hWire : L .wire = true) (hDetect : L .detect = true) (hTp : L .tp = true)  : Keeps L (tpClass) where
  record h := by
    simp only [tpClass] at h
    repeat' (split at h)
    all_goals first | (cases h; done) | (injection h with h; subst h; first | (exact FldsKeep.nil) | (with_reducible exact tpRec_keeps L  ))
  after _ _ _ _ _ := by
    simp only [tpClass]
    repeat' (first | with_reducible rfl | (simp only [tpClear_frame, tpSet_frame, hWire, hDetect, hTp, apply_ite (blank L), ite_self]) | (with_reducible refine ite_frame _ ?_ ?_) | split)
  onRead _ _ _ _ _ := by
    simp only [tpClass]
    repeat' (first | with_reducible rfl | (simp only [tpClear_frame, tpSet_frame, hWire, hDetect, hTp, apply_ite (blank L), ite_self]) | (with_reducible refine ite_frame _ ?_ ?_) | split)
  held h := by
    first
    | (cases h; done)
    | (simp only [tpClass] at h; exact absurd h)
  acts := by
    simp only [tpClass]
    repeat' (first | (exact ActsKeep.nil) | (refine ActsKeep.cons ?_ ?_) | (refine ⟨fun _ _ _ _ => ?_, fun _ => ?_, fun _ _ _ => ?_, fun h9 => ?_⟩) | (cases h9; done) | (injection h9 with h9; subst h9) | with_reducible rfl | (simp only [tpClear_frame, tpSet_frame, hWire, hDetect, hTp, apply_ite (blank L), ite_self]) | (with_reducible refine ite_frame _ ?_ ?_) | split)

theorem execTowpathEngage_frame (L : Region → Bool) (hStaged : L .staged = true) (hFv : L .fv = true) (hWire : L .wire = true) (hDetect : L .detect = true) (hTp : L .tp = true) (hNm : L .nm = true) (hTow : L .tow = true) {r : Req} {s : State} {t9} (h : execTowpathEngage r s = .next t9) :
    blank L t9 = blank L s := by
  unfold execTowpathEngage at h
  injection h with h
  subst h
  repeat' (first | with_reducible rfl | (refine Eq.trans (cmdAct_frame L hStaged hFv hWire hDetect hTp hNm hTow (tpClass_keeps L hWire hDetect hTp) _ _ _) ?_) | (simp only [hStaged, hFv, hWire, hDetect, hTp, hNm, hTow, apply_ite (blank L), ite_self]) | (with_reducible refine ite_frame _ ?_ ?_) | split)

theorem execTowpathRelease_frame (L : Region → Bool) (hStaged : L .staged = true) (hFv : L .fv = true) (hWire : L .wire = true) (hDetect : L .detect = true) (hTp : L .tp = true) (hNm : L .nm = true) (hTow : L .tow = true) {r : Req} {s : State} {t9} (h : execTowpathRelease r s = .next t9) :
    blank L t9 = blank L s := by
  unfold execTowpathRelease at h
  injection h with h
  subst h
  repeat' (first | with_reducible rfl | (refine Eq.trans (cmdAct_frame L hStaged hFv hWire hDetect hTp hNm hTow (tpClass_keeps L hWire hDetect hTp) _ _ _) ?_) | (simp only [hStaged, hFv, hWire, hDetect, hTp, hNm, hTow, apply_ite (blank L), ite_self]) | (with_reducible refine ite_frame _ ?_ ?_) | split)

theorem execLimpSet_frame (L : Region → Bool) (hSys : L .sys = true) (hWire : L .wire = true) (hDetect : L .detect = true) (hTp : L .tp = true) {s : State} {t9} (h : execLimpSet s = .next t9) :
    blank L t9 = blank L s := by
  unfold execLimpSet at h
  injection h with h
  subst h
  repeat' (first | with_reducible rfl | (simp only [modSys_frame, tpSet_frame, hSys, hWire, hDetect, hTp, apply_ite (blank L), ite_self]) | (with_reducible refine ite_frame _ ?_ ?_) | split)

theorem execLimpClear_frame (L : Region → Bool) (hSys : L .sys = true) (hWire : L .wire = true) (hDetect : L .detect = true) (hTp : L .tp = true) (hPwr : L .pwr = true) {s : State} {t9} (h : execLimpClear s = .next t9) :
    blank L t9 = blank L s := by
  unfold execLimpClear at h
  injection h with h
  subst h
  repeat' (first | with_reducible rfl | (simp only [modPwr_frame, modSys_frame, tpClear_frame, hSys, hWire, hDetect, hTp, hPwr, apply_ite (blank L), ite_self]) | (with_reducible refine ite_frame _ ?_ ?_) | split)

theorem execTowpathRcStep_frame (L : Region → Bool) (hWire : L .wire = true) (hDetect : L .detect = true) (hTp : L .tp = true) (hPow : L .pow = true) (hSlu : L .slu = true) (hMot : L .mot = true) (hFio : L .fio = true) (hPwr : L .pwr = true) {x : Samples} {s : State} {t9} (h : execTowpathRcStep x s = .next t9) :
    blank L t9 = blank L s := by
  unfold execTowpathRcStep at h
  injection h with h
  subst h
  repeat' (first | with_reducible rfl | (simp only [fillFo_frame, fillIn_frame, fosBoundary_frame, levelChans_frame, levelField_frame, modTp_frame, padsLatch_frame, recordTrips_frame, settleWaves_frame, tpEvaluate_frame, tpOutputs_frame, tpStep_frame, hWire, hDetect, hTp, hPow, hSlu, hMot, hFio, hPwr, apply_ite (blank L), ite_self]) | (with_reducible refine ite_frame _ ?_ ?_) | split)

theorem execTowpathTableRead_frame (L : Region → Bool) (hWire : L .wire = true) (hTp : L .tp = true) {s : State} {t9} (h : execTowpathTableRead s = .next t9) :
    blank L t9 = blank L s := by
  unfold execTowpathTableRead at h
  injection h with h
  subst h
  repeat' (first | with_reducible rfl | (simp only [useCopies_frame, hWire, hTp, apply_ite (blank L), ite_self]) | (with_reducible refine ite_frame _ ?_ ?_) | split)

theorem spoilCopies_frame (L : Region → Bool) (hTp : L .tp = true) (badA badB : Bool) (s : State) :
    blank L (spoilCopies badA badB s) = blank L s := by
  simp only [spoilCopies, modTp_frame, hTp]

theorem repairCopies_frame (L : Region → Bool) (hSys : L .sys = true) (hWire : L .wire = true) (hTp : L .tp = true) (hMem : L .mem = true) (s : State) :
    blank L (repairCopies s) = blank L s := by
  unfold repairCopies
  repeat' (first | with_reducible rfl | (simp only [useCopies_frame, writeCopy_frame, hSys, hWire, hTp, hMem, apply_ite (blank L), ite_self]) | (with_reducible refine ite_frame _ ?_ ?_) | split)

theorem execTowpathTableCheck_frame (L : Region → Bool) (hSys : L .sys = true) (hWire : L .wire = true) (hDetect : L .detect = true) (hTp : L .tp = true) (hMem : L .mem = true) {badA badB : Bool} {s : State} {t9} (h : execTowpathTableCheck badA badB s = .next t9) :
    blank L t9 = blank L s := by
  unfold execTowpathTableCheck at h
  injection h with h
  subst h
  repeat' (first | with_reducible rfl | (simp only [detect_frame, repairCopies_frame, spoilCopies_frame, hSys, hWire, hDetect, hTp, hMem, apply_ite (blank L), ite_self]) | (with_reducible refine ite_frame _ ?_ ?_) | split)

end Sys2Proof.Machine
end

