-- ==== Sys2Proof/Laws/FrameWake.lean ====
section
/-! SUPPORT. Frame lemmas of Machine/Wake.lean: what each operation leaves alone. -/
set_option linter.unusedSimpArgs false
set_option linter.unusedVariables false
namespace Sys2Proof.Machine

theorem quietBoundary_frame (L : Region → Bool) (hPwr : L .pwr = true) (s : State) :
    blank L (quietBoundary s) = blank L s := by
  unfold quietBoundary
  repeat' (first | with_reducible rfl | (simp only [modPwr_frame, hPwr, apply_ite (blank L), ite_self]) | (with_reducible refine ite_frame _ ?_ ?_) | split)

theorem forwardWake_frame (L : Region → Bool) (hWire : L .wire = true) (hNet : L .net = true) (s : State) :
    blank L (forwardWake s) = blank L s := by
  unfold forwardWake
  repeat' (first | with_reducible rfl | (simp only [setLink_frame, hWire, hNet, apply_ite (blank L), ite_self]) | (with_reducible refine (foldl_pair_frame L _ (fun _ _ => ?_) _ _).trans ?_) | (with_reducible refine (foldl_frame L _ (fun _ _ => ?_) _ _).trans ?_) | (with_reducible refine ite_frame _ ?_ ?_) | split)

theorem setPowerState_frame (L : Region → Bool) (hWire : L .wire = true) (hPwr : L .pwr = true) (n : Nat) (auto : Bool) (s : State) :
    blank L (setPowerState n auto s) = blank L s := by
  unfold setPowerState
  repeat' (first | with_reducible rfl | (simp only [emit_frame, modPwr_frame, hWire, hPwr, apply_ite (blank L), ite_self]) | (with_reducible refine ite_frame _ ?_ ?_) | split)

theorem wakeRecord_frame (L : Region → Bool) (hPwr : L .pwr = true) (src det : Nat) (s : State) :
    blank L (wakeRecord src det s) = blank L s := by
  simp only [wakeRecord, modPwr_frame, hPwr]

theorem vcoreReturn_frame (L : Region → Bool) (hPwr : L .pwr = true) (t : Nat) (s : State) :
    blank L (vcoreReturn t s) = blank L s := by
  simp only [vcoreReturn, modPwr_frame, hPwr]

theorem abortSleep_frame (L : Region → Bool) (hWire : L .wire = true) (hTp : L .tp = true) (hPwr : L .pwr = true) (src det : Nat) (s : State) :
    blank L (abortSleep src det s) = blank L s := by
  unfold abortSleep
  repeat' (first | with_reducible rfl | (simp only [emit_frame, modPwr_frame, modTp_frame, setPowerState_frame, vcoreReturn_frame, wakeRecord_frame, hWire, hTp, hPwr, apply_ite (blank L), ite_self]) | (with_reducible refine ite_frame _ ?_ ?_) | split)

theorem regWake_frame (L : Region → Bool) (hWire : L .wire = true) (hTp : L .tp = true) (hNet : L .net = true) (hPwr : L .pwr = true) (src det : Nat) (s : State) :
    blank L (regWake src det s) = blank L s := by
  unfold regWake
  repeat' (first | with_reducible rfl | (simp only [abortSleep_frame, forwardWake_frame, modPwr_frame, wakeRecord_frame, hWire, hTp, hNet, hPwr, apply_ite (blank L), ite_self]) | (with_reducible refine ite_frame _ ?_ ?_) | split)

end Sys2Proof.Machine
end

