-- ==== Sys2Proof/Laws/FrameNm.lean ====
section
/-! SUPPORT. Frame lemmas of Machine/Nm.lean: what each operation leaves alone. -/
set_option linter.unusedSimpArgs false
set_option linter.unusedVariables false
namespace Sys2Proof.Machine

theorem armBus_frame (L : Region → Bool) (hLin : L .lin = true) (hNm : L .nm = true) (kind bus : Nat) (s : State) :
    blank L (armBus kind bus s) = blank L s := by
  unfold armBus
  repeat' (first | with_reducible rfl | (simp only [armCan_frame, modLinCh_frame, hLin, hNm, apply_ite (blank L), ite_self]) | (with_reducible refine ite_frame _ ?_ ?_) | split)

theorem disarmBus_frame (L : Region → Bool) (hLin : L .lin = true) (hNm : L .nm = true) (kind bus : Nat) (s : State) :
    blank L (disarmBus kind bus s) = blank L s := by
  unfold disarmBus
  repeat' (first | with_reducible rfl | (simp only [disarmCan_frame, modLinCh_frame, hLin, hNm, apply_ite (blank L), ite_self]) | (with_reducible refine ite_frame _ ?_ ?_) | split)

theorem busWake_frame (L : Region → Bool) (hWire : L .wire = true) (hTp : L .tp = true) (hNm : L .nm = true) (hNet : L .net = true) (hPwr : L .pwr = true) (kind bus src : Nat) (selective : Bool) (s : State) :
    blank L (busWake kind bus src selective s) = blank L s := by
  unfold busWake
  repeat' (first | with_reducible rfl | (simp only [emit_frame, modNmc_frame, regWake_frame, hWire, hTp, hNm, hNet, hPwr, apply_ite (blank L), ite_self]) | (with_reducible refine (foldl_pair_frame L _ (fun _ _ => ?_) _ _).trans ?_) | (with_reducible refine (foldl_frame L _ (fun _ _ => ?_) _ _).trans ?_) | (with_reducible refine ite_frame _ ?_ ?_) | split)

theorem canWakes_frame (L : Region → Bool) (hWire : L .wire = true) (hTp : L .tp = true) (hNm : L .nm = true) (hNet : L .net = true) (hPwr : L .pwr = true) (c : Nat) (selective : Bool) (s : State) :
    blank L (canWakes c selective s) = blank L s := by
  simp only [canWakes, busWake_frame, modNm_frame, hWire, hTp, hNm, hNet, hPwr]

theorem wakeErr_frame (L : Region → Bool) (hWire : L .wire = true) (hTp : L .tp = true) (hNm : L .nm = true) (hNet : L .net = true) (hPwr : L .pwr = true) (c : Nat) (up : Bool) (s : State) :
    blank L (wakeErr c up s) = blank L s := by
  unfold wakeErr
  repeat' (first | with_reducible rfl | (simp only [canWakes_frame, modNm_frame, hWire, hTp, hNm, hNet, hPwr, apply_ite (blank L), ite_self]) | (with_reducible refine ite_frame _ ?_ ?_) | split)

theorem canStimulus_frame (L : Region → Bool) (hWire : L .wire = true) (hTp : L .tp = true) (hNm : L .nm = true) (hNet : L .net = true) (hPwr : L .pwr = true) (c : Nat) (x : CanStim) (s : State) :
    blank L (canStimulus c x s) = blank L s := by
  unfold canStimulus
  repeat' (first | with_reducible rfl | (simp only [canWakes_frame, wakeErr_frame, hWire, hTp, hNm, hNet, hPwr, apply_ite (blank L), ite_self]) | (with_reducible refine ite_frame _ ?_ ?_) | split)

theorem nmEnter_frame (L : Region → Bool) (hWire : L .wire = true) (hNm : L .nm = true) (k : Nat) (n : NmState) (cause : Nat) (s : State) :
    blank L (nmEnter k n cause s) = blank L s := by
  simp only [nmEnter, emit_frame, modNmc_frame, hWire, hNm]

theorem nmSend_frame (L : Region → Bool) (hCan : L .can = true) (hNm : L .nm = true) (hNet : L .net = true) (k : Nat) (s : State) :
    blank L (nmSend k s) = blank L s := by
  unfold nmSend
  repeat' (first | with_reducible rfl | (simp only [enqueueCan_frame, keeperSend_frame, modNmc_frame, hCan, hNm, hNet, apply_ite (blank L), ite_self]) | (with_reducible refine ite_frame _ ?_ ?_) | split)

theorem linCastOff_frame (L : Region → Bool) (hLin : L .lin = true) (c : Nat) (claimed : Bool) (s : State) :
    blank L (linCastOff c claimed s) = blank L s := by
  unfold linCastOff
  repeat' (first | with_reducible rfl | (simp only [modLinCh_frame, setLinState_frame, hLin, apply_ite (blank L), ite_self]) | (with_reducible refine ite_frame _ ?_ ?_) | split)

theorem nmCastOff_frame (L : Region → Bool) (hWire : L .wire = true) (hLin : L .lin = true) (hNm : L .nm = true) (hNet : L .net = true) (k cause : Nat) (next : Bool) (s : State) :
    blank L (nmCastOff k cause next s) = blank L s := by
  unfold nmCastOff
  repeat' (first | with_reducible rfl | (simp only [disarmBus_frame, forwardWake_frame, linCastOff_frame, modNmc_frame, nmEnter_frame, setLink_frame, hWire, hLin, hNm, hNet, apply_ite (blank L), ite_self]) | (with_reducible refine ite_frame _ ?_ ?_) | split)

theorem portSleep_frame (L : Region → Bool) (hNm : L .nm = true) (port : Nat) (s : State) :
    blank L (portSleep port s) = blank L s := by
  unfold portSleep
  repeat' (first | with_reducible rfl | (simp only [modT1_frame, hNm, apply_ite (blank L), ite_self]) | (with_reducible refine ite_frame _ ?_ ?_) | split)

theorem nmMoor_frame (L : Region → Bool) (hWire : L .wire = true) (hLin : L .lin = true) (hNm : L .nm = true) (hNet : L .net = true) (k : Nat) (s : State) :
    blank L (nmMoor k s) = blank L s := by
  unfold nmMoor
  repeat' (first | with_reducible rfl | (simp only [modLinCh_frame, modNmc_frame, nmEnter_frame, portSleep_frame, setLinState_frame, setLink_frame, hWire, hLin, hNm, hNet, apply_ite (blank L), ite_self]) | (with_reducible refine ite_frame _ ?_ ?_) | split)

theorem nmBack_frame (L : Region → Bool) (hWire : L .wire = true) (hLin : L .lin = true) (hNm : L .nm = true) (k cause : Nat) (s : State) :
    blank L (nmBack k cause s).2 = blank L s := by
  unfold nmBack
  repeat' (first | with_reducible rfl | (simp only [disarmBus_frame, modNmc_frame, nmEnter_frame, hWire, hLin, hNm, apply_ite (blank L), ite_self]) | (with_reducible refine ite_frame _ ?_ ?_) | split)

theorem nmBack_frame_eq (L : Region → Bool) (hWire : L .wire = true) (hLin : L .lin = true) (hNm : L .nm = true) {k cause : Nat} {s : State} {x9} {t9} (h : nmBack k cause s = (x9, t9)) :
    blank L t9 = blank L s := by
  rw [← nmBack_frame L hWire hLin hNm k cause s, h]

theorem nmMove_frame (L : Region → Bool) (hWire : L .wire = true) (hLin : L .lin = true) (hNm : L .nm = true) (hNet : L .net = true) (n : NmCluster) (k : Nat) (s : State) :
    blank L (nmMove n k s).2 = blank L s := by
  unfold nmMove
  repeat' (first | with_reducible rfl | (with_reducible refine Eq.trans (nmBack_frame_eq L hWire hLin hNm (by with_reducible assumption)) ?_) | (simp only [disarmBus_frame, modNmc_frame, nmBack_frame, nmCastOff_frame, nmEnter_frame, nmMoor_frame, hWire, hLin, hNm, hNet, apply_ite (blank L), ite_self]) | (with_reducible refine ite_frame _ ?_ ?_) | split)

theorem nmMove_frame_eq (L : Region → Bool) (hWire : L .wire = true) (hLin : L .lin = true) (hNm : L .nm = true) (hNet : L .net = true) {n : NmCluster} {k : Nat} {s : State} {x9} {t9} (h : nmMove n k s = (x9, t9)) :
    blank L t9 = blank L s := by
  rw [← nmMove_frame L hWire hLin hNm hNet n k s, h]

theorem nmStep_frame (L : Region → Bool) (hWire : L .wire = true) (hCan : L .can = true) (hLin : L .lin = true) (hNm : L .nm = true) (hNet : L .net = true) (k : Nat) (s : State) :
    blank L (nmStep k s) = blank L s := by
  unfold nmStep
  repeat' (first | with_reducible rfl | (with_reducible refine Eq.trans (nmMove_frame_eq L hWire hLin hNm hNet (by with_reducible assumption)) ?_) | (simp only [modNmc_frame, nmMove_frame, nmSend_frame, hWire, hCan, hLin, hNm, hNet, apply_ite (blank L), ite_self]) | (with_reducible refine ite_frame _ ?_ ?_) | split)

theorem nmBoundary_frame (L : Region → Bool) (hWire : L .wire = true) (hCan : L .can = true) (hLin : L .lin = true) (hNm : L .nm = true) (hNet : L .net = true) (s : State) :
    blank L (nmBoundary s) = blank L s := by
  unfold nmBoundary
  repeat' (first | with_reducible rfl | (simp only [nmStep_frame, hWire, hCan, hLin, hNm, hNet, apply_ite (blank L), ite_self]) | (with_reducible refine (foldl_pair_frame L _ (fun _ _ => ?_) _ _).trans ?_) | (with_reducible refine (foldl_frame L _ (fun _ _ => ?_) _ _).trans ?_) | (with_reducible refine ite_frame _ ?_ ?_) | split)

theorem nmApply_frame (L : Region → Bool) (hLin : L .lin = true) (hNm : L .nm = true) (s : State) :
    blank L (nmApply s) = blank L s := by
  unfold nmApply
  repeat' (first | with_reducible rfl | (simp only [armBus_frame, hLin, hNm, apply_ite (blank L), ite_self]) | (with_reducible refine (foldl_pair_frame L _ (fun _ _ => ?_) _ _).trans ?_) | (with_reducible refine (foldl_frame L _ (fun _ _ => ?_) _ _).trans ?_) | (with_reducible refine ite_frame _ ?_ ?_) | split)

theorem nmcRec_keeps (L : Region → Bool) (hNm : L .nm = true) (k : Nat) : FldsKeep L (nmcRec k).flds := by
  unfold nmcRec
  repeat' (first | (refine FldsKeep.lift (fun _ _ => ?_)) | (refine FldsKeep.append ?_ ?_) | (refine FldsKeep.flatMap (fun _ => ?_)) | (refine FldsKeep.map (fun _ => ?_)) | (refine FldsKeep.cons ?_ ?_) | (exact FldsKeep.nil) | (exact fun _ _ => rfl) | (intro n9 s9) | (simp only [modNmc_frame, hNm, apply_ite (blank L), ite_self]))

theorem modWake_frame (L : Region → Bool) (hNm : L .nm = true) (c : Nat) (f : CanWake → CanWake) (s : State) :
    blank L (modWake c f s) = blank L s := by
  simp only [modWake, modNm_frame, hNm]

theorem wakeRec_keeps (L : Region → Bool) (hNm : L .nm = true) (c : Nat) : FldsKeep L (wakeRec c).flds := by
  unfold wakeRec
  repeat' (first | (refine FldsKeep.lift (fun _ _ => ?_)) | (refine FldsKeep.append ?_ ?_) | (refine FldsKeep.flatMap (fun _ => ?_)) | (refine FldsKeep.map (fun _ => ?_)) | (refine FldsKeep.cons ?_ ?_) | (exact FldsKeep.nil) | (exact fun _ _ => rfl) | (intro n9 s9) | (simp only [modWake_frame, hNm, apply_ite (blank L), ite_self]))

theorem t1Rec_keeps (L : Region → Bool) (hNm : L .nm = true) (k : Nat) : FldsKeep L (t1Rec k).flds := by
  unfold t1Rec
  repeat' (first | (refine FldsKeep.lift (fun _ _ => ?_)) | (refine FldsKeep.append ?_ ?_) | (refine FldsKeep.flatMap (fun _ => ?_)) | (refine FldsKeep.map (fun _ => ?_)) | (refine FldsKeep.cons ?_ ?_) | (exact FldsKeep.nil) | (exact fun _ _ => rfl) | (intro n9 s9) | (simp only [modT1_frame, hNm, apply_ite (blank L), ite_self]))

theorem nmGlobalRec_keeps (L : Region → Bool) (hNm : L .nm = true)  : FldsKeep L (nmGlobalRec ).flds := by
  unfold nmGlobalRec
  repeat' (first | (refine FldsKeep.lift (fun _ _ => ?_)) | (refine FldsKeep.append ?_ ?_) | (refine FldsKeep.flatMap (fun _ => ?_)) | (refine FldsKeep.map (fun _ => ?_)) | (refine FldsKeep.cons ?_ ?_) | (exact FldsKeep.nil) | (exact fun _ _ => rfl) | (intro n9 s9) | (simp only [modNm_frame, hNm, apply_ite (blank L), ite_self]))

theorem nmRecord_keeps (L : Region → Bool) (hNm : L .nm = true) {i part : Nat} {rc : Rec} (h : nmRecord i part = some rc) : FldsKeep L rc.flds := by
  unfold nmRecord at h
  repeat' (split at h)
  all_goals first | (cases h; done) | (injection h with h; subst h; first | (exact FldsKeep.nil) | (with_reducible exact wakeRec_keeps L hNm _) | (with_reducible exact t1Rec_keeps L hNm _) | (with_reducible exact nmcRec_keeps L hNm _) | (with_reducible exact nmGlobalRec_keeps L hNm ))

theorem setClaim_frame (L : Region → Bool) (hNm : L .nm = true) (k p : Nat) (on : Bool) (s : State) :
    blank L (setClaim k p on s) = blank L s := by
  unfold setClaim
  repeat' (first | with_reducible rfl | (simp only [modNmc_frame, hNm, apply_ite (blank L), ite_self]) | (with_reducible refine ite_frame _ ?_ ?_) | split)

theorem nmClass_keeps (L : Region → Bool) (hNm : L .nm = true)  : Keeps L (nmClass) where
  record h := by
    simp only [nmClass] at h
    repeat' (split at h)
    all_goals first | (cases h; done) | (with_reducible exact nmRecord_keeps L hNm h) | (injection h with h; subst h; first | (exact FldsKeep.nil))
  after _ _ _ _ _ := by
    simp only [nmClass]
    repeat' (first | with_reducible rfl | (simp only [modNmc_frame, modT1_frame, setClaim_frame, hNm, apply_ite (blank L), ite_self]) | (with_reducible refine ite_frame _ ?_ ?_) | split)
  onRead _ _ _ _ _ := by
    simp only [nmClass]
    repeat' (first | with_reducible rfl | (simp only [modNmc_frame, modT1_frame, setClaim_frame, hNm, apply_ite (blank L), ite_self]) | (with_reducible refine ite_frame _ ?_ ?_) | split)
  held h := by
    first
    | (cases h; done)
    | (simp only [nmClass] at h; exact absurd h)
  acts := by
    simp only [nmClass]
    repeat' (first | (exact ActsKeep.nil) | (refine ActsKeep.cons ?_ ?_) | (refine ⟨fun _ _ _ _ => ?_, fun _ => ?_, fun _ _ _ => ?_, fun h9 => ?_⟩) | (cases h9; done) | (injection h9 with h9; subst h9) | with_reducible rfl | (simp only [modNmc_frame, modT1_frame, setClaim_frame, hNm, apply_ite (blank L), ite_self]) | (with_reducible refine ite_frame _ ?_ ?_) | split)

theorem execNmRequest_frame (L : Region → Bool) (hStaged : L .staged = true) (hFv : L .fv = true) (hWire : L .wire = true) (hDetect : L .detect = true) (hTp : L .tp = true) (hNm : L .nm = true) (hTow : L .tow = true) {r : Req} {s : State} {t9} (h : execNmRequest r s = .next t9) :
    blank L t9 = blank L s := by
  unfold execNmRequest at h
  injection h with h
  subst h
  repeat' (first | with_reducible rfl | (refine Eq.trans (cmdAct_frame L hStaged hFv hWire hDetect hTp hNm hTow (nmClass_keeps L hNm) _ _ _) ?_) | (simp only [hStaged, hFv, hWire, hDetect, hTp, hNm, hTow, apply_ite (blank L), ite_self]) | (with_reducible refine ite_frame _ ?_ ?_) | split)

theorem execNmRelease_frame (L : Region → Bool) (hStaged : L .staged = true) (hFv : L .fv = true) (hWire : L .wire = true) (hDetect : L .detect = true) (hTp : L .tp = true) (hNm : L .nm = true) (hTow : L .tow = true) {r : Req} {s : State} {t9} (h : execNmRelease r s = .next t9) :
    blank L t9 = blank L s := by
  unfold execNmRelease at h
  injection h with h
  subst h
  repeat' (first | with_reducible rfl | (refine Eq.trans (cmdAct_frame L hStaged hFv hWire hDetect hTp hNm hTow (nmClass_keeps L hNm) _ _ _) ?_) | (simp only [hStaged, hFv, hWire, hDetect, hTp, hNm, hTow, apply_ite (blank L), ite_self]) | (with_reducible refine ite_frame _ ?_ ?_) | split)

theorem execNmRepeat_frame (L : Region → Bool) (hStaged : L .staged = true) (hFv : L .fv = true) (hWire : L .wire = true) (hDetect : L .detect = true) (hTp : L .tp = true) (hNm : L .nm = true) (hTow : L .tow = true) {r : Req} {s : State} {t9} (h : execNmRepeat r s = .next t9) :
    blank L t9 = blank L s := by
  unfold execNmRepeat at h
  injection h with h
  subst h
  repeat' (first | with_reducible rfl | (refine Eq.trans (cmdAct_frame L hStaged hFv hWire hDetect hTp hNm hTow (nmClass_keeps L hNm) _ _ _) ?_) | (simp only [hStaged, hFv, hWire, hDetect, hTp, hNm, hTow, apply_ite (blank L), ite_self]) | (with_reducible refine ite_frame _ ?_ ?_) | split)

theorem execNmLinkSleep_frame (L : Region → Bool) (hStaged : L .staged = true) (hFv : L .fv = true) (hWire : L .wire = true) (hDetect : L .detect = true) (hTp : L .tp = true) (hNm : L .nm = true) (hTow : L .tow = true) {r : Req} {s : State} {t9} (h : execNmLinkSleep r s = .next t9) :
    blank L t9 = blank L s := by
  unfold execNmLinkSleep at h
  injection h with h
  subst h
  repeat' (first | with_reducible rfl | (refine Eq.trans (cmdAct_frame L hStaged hFv hWire hDetect hTp hNm hTow (nmClass_keeps L hNm) _ _ _) ?_) | (simp only [hStaged, hFv, hWire, hDetect, hTp, hNm, hTow, apply_ite (blank L), ite_self]) | (with_reducible refine ite_frame _ ?_ ?_) | split)

theorem execNmSet_frame (L : Region → Bool) (hStaged : L .staged = true) (hFv : L .fv = true) (hWire : L .wire = true) (hDetect : L .detect = true) (hTp : L .tp = true) (hNm : L .nm = true) (hTow : L .tow = true) {r : Req} {s : State} {t9} (h : execNmSet r s = .next t9) :
    blank L t9 = blank L s := by
  unfold execNmSet at h
  injection h with h
  subst h
  repeat' (first | with_reducible rfl | (refine Eq.trans (cmdSet_frame L hStaged hFv hWire hDetect hTp hNm hTow (nmClass_keeps L hNm) _ _) ?_) | (simp only [hStaged, hFv, hWire, hDetect, hTp, hNm, hTow, apply_ite (blank L), ite_self]) | (with_reducible refine ite_frame _ ?_ ?_) | split)

theorem execCanWake_frame (L : Region → Bool) (hWire : L .wire = true) (hTp : L .tp = true) (hNm : L .nm = true) (hNet : L .net = true) (hPwr : L .pwr = true) {c : Nat} {x : CanStim} {s : State} {t9} (h : execCanWake c x s = .next t9) :
    blank L t9 = blank L s := by
  obtain ⟨-, rfl⟩ := guardUnit_next h
  repeat' (first | with_reducible rfl | (simp only [canStimulus_frame, hWire, hTp, hNm, hNet, hPwr, apply_ite (blank L), ite_self]) | (with_reducible refine ite_frame _ ?_ ?_) | split)

theorem execLinWake_frame (L : Region → Bool) (hWire : L .wire = true) (hTp : L .tp = true) (hLin : L .lin = true) (hNm : L .nm = true) (hNet : L .net = true) (hPwr : L .pwr = true) {c dom : Nat} {s : State} {t9} (h : execLinWake c dom s = .next t9) :
    blank L t9 = blank L s := by
  obtain ⟨-, rfl⟩ := guardUnit_next h
  repeat' (first | with_reducible rfl | (simp only [busWake_frame, modLinCh_frame, hWire, hTp, hLin, hNm, hNet, hPwr, apply_ite (blank L), ite_self]) | (with_reducible refine ite_frame _ ?_ ?_) | split)

theorem execNmPduReceived_frame (L : Region → Bool) (hNm : L .nm = true) {k id : Nat} {ide : Bool} {b : List Byte} {s : State} {t9} (h : execNmPduReceived k id ide b s = .next t9) :
    blank L t9 = blank L s := by
  obtain ⟨-, rfl⟩ := guardUnit_next h
  repeat' (first | with_reducible rfl | (simp only [modNmc_frame, hNm, apply_ite (blank L), ite_self]) | (with_reducible refine ite_frame _ ?_ ?_) | split)

theorem execRepeatTimeEnd_frame (L : Region → Bool) (hNm : L .nm = true) {k : Nat} {s : State} {t9} (h : execRepeatTimeEnd k s = .next t9) :
    blank L t9 = blank L s := by
  obtain ⟨-, rfl⟩ := guardUnit_next h
  repeat' (first | with_reducible rfl | (simp only [modNmc_frame, hNm, apply_ite (blank L), ite_self]) | (with_reducible refine ite_frame _ ?_ ?_) | split)

theorem execNmTimeout_frame (L : Region → Bool) (hNm : L .nm = true) {k : Nat} {s : State} {t9} (h : execNmTimeout k s = .next t9) :
    blank L t9 = blank L s := by
  obtain ⟨-, rfl⟩ := guardUnit_next h
  repeat' (first | with_reducible rfl | (simp only [modNmc_frame, hNm, apply_ite (blank L), ite_self]) | (with_reducible refine ite_frame _ ?_ ?_) | split)

theorem execWaitTimeEnd_frame (L : Region → Bool) (hLin : L .lin = true) (hNm : L .nm = true) {k : Nat} {s : State} {t9} (h : execWaitTimeEnd k s = .next t9) :
    blank L t9 = blank L s := by
  obtain ⟨-, rfl⟩ := guardUnit_next h
  repeat' (first | with_reducible rfl | (simp only [armBus_frame, modNmc_frame, hLin, hNm, apply_ite (blank L), ite_self]) | (with_reducible refine ite_frame _ ?_ ?_) | split)

theorem execKeepWatch_frame (L : Region → Bool) (hWire : L .wire = true) (hNm : L .nm = true) {k : Nat} {s : State} {t9} (h : execKeepWatch k s = .next t9) :
    blank L t9 = blank L s := by
  obtain ⟨-, rfl⟩ := guardUnit_next h
  repeat' (first | with_reducible rfl | (simp only [emit_frame, modNm_frame, modNmc_frame, hWire, hNm, apply_ite (blank L), ite_self]) | (with_reducible refine ite_frame _ ?_ ?_) | split)

theorem execIsolationTimeout_frame (L : Region → Bool) (hWire : L .wire = true) (hDetect : L .detect = true) (hTp : L .tp = true) (hNm : L .nm = true) {s : State} {t9} (h : execIsolationTimeout s = .next t9) :
    blank L t9 = blank L s := by
  unfold execIsolationTimeout at h
  injection h with h
  subst h
  repeat' (first | with_reducible rfl | (simp only [emit_frame, modNm_frame, modTp_frame, tpSet_frame, hWire, hDetect, hTp, hNm, apply_ite (blank L), ite_self]) | (with_reducible refine ite_frame _ ?_ ?_) | split)

theorem execIsolatedHoldEnd_frame (L : Region → Bool) (hNm : L .nm = true) {s : State} {t9} (h : execIsolatedHoldEnd s = .next t9) :
    blank L t9 = blank L s := by
  unfold execIsolatedHoldEnd at h
  injection h with h
  subst h
  repeat' (first | with_reducible rfl | (simp only [modNm_frame, hNm, apply_ite (blank L), ite_self]) | (with_reducible refine ite_frame _ ?_ ?_) | split)

theorem tc10_frame (L : Region → Bool) (hWire : L .wire = true) (k cause : Nat) (s : State) :
    blank L (tc10 k cause s) = blank L s := by
  simp only [tc10, emit_frame, hWire]

theorem execTc10SleepAck_frame (L : Region → Bool) (hWire : L .wire = true) (hNm : L .nm = true) (hNet : L .net = true) {k : Nat} {s : State} {t9} (h : execTc10SleepAck k s = .next t9) :
    blank L t9 = blank L s := by
  obtain ⟨-, rfl⟩ := guardUnit_next h
  repeat' (first | with_reducible rfl | (simp only [modT1_frame, setLink_frame, tc10_frame, hWire, hNm, hNet, apply_ite (blank L), ite_self]) | (with_reducible refine ite_frame _ ?_ ?_) | split)

theorem execTc10AckTimeout_frame (L : Region → Bool) (hWire : L .wire = true) (hNm : L .nm = true) {k : Nat} {s : State} {t9} (h : execTc10AckTimeout k s = .next t9) :
    blank L t9 = blank L s := by
  obtain ⟨-, rfl⟩ := guardUnit_next h
  repeat' (first | with_reducible rfl | (simp only [modT1_frame, tc10_frame, hWire, hNm, apply_ite (blank L), ite_self]) | (with_reducible refine ite_frame _ ?_ ?_) | split)

theorem execTc10PeerSleepRequest_frame (L : Region → Bool) (hWire : L .wire = true) (hNm : L .nm = true) (hNet : L .net = true) {k : Nat} {s : State} {t9} (h : execTc10PeerSleepRequest k s = .next t9) :
    blank L t9 = blank L s := by
  obtain ⟨-, rfl⟩ := guardUnit_next h
  repeat' (first | with_reducible rfl | (simp only [modT1_frame, setLink_frame, tc10_frame, hWire, hNm, hNet, apply_ite (blank L), ite_self]) | (with_reducible refine ite_frame _ ?_ ?_) | split)

theorem execTc10Wake_frame (L : Region → Bool) (hWire : L .wire = true) (hTp : L .tp = true) (hNm : L .nm = true) (hNet : L .net = true) (hPwr : L .pwr = true) {k : Nat} {s : State} {t9} (h : execTc10Wake k s = .next t9) :
    blank L t9 = blank L s := by
  obtain ⟨-, rfl⟩ := guardUnit_next h
  repeat' (first | with_reducible rfl | (simp only [busWake_frame, setLink_frame, tc10_frame, hWire, hTp, hNm, hNet, hPwr, apply_ite (blank L), ite_self]) | (with_reducible refine ite_frame _ ?_ ?_) | split)

end Sys2Proof.Machine
end

