-- ==== Sys2Proof/Laws/FrameKeys.lean ====
section
/-! SUPPORT. Frame lemmas of Machine/Keys.lean: what each operation leaves alone. -/
set_option linter.unusedSimpArgs false
set_option linter.unusedVariables false
namespace Sys2Proof.Machine

theorem keyUse_frame (L : Region → Bool) (hLight : L .light = true) (h : Nat) (s : State) :
    blank L (keyUse h s) = blank L s := by
  unfold keyUse
  repeat' (first | with_reducible rfl | (simp only [modKey_frame, hLight, apply_ite (blank L), ite_self]) | (with_reducible refine ite_frame _ ?_ ?_) | split)

theorem revokeConsumers_frame (L : Region → Bool) (hWire : L .wire = true) (hNet : L .net = true) (s : State) :
    blank L (revokeConsumers s) = blank L s := by
  unfold revokeConsumers
  repeat' (first | with_reducible rfl | (simp only [emit_frame, modPq_frame, modSa_frame, hWire, hNet, apply_ite (blank L), ite_self]) | (with_reducible refine (foldl_pair_frame L _ (fun _ _ => ?_) _ _).trans ?_) | (with_reducible refine (foldl_frame L _ (fun _ _ => ?_) _ _).trans ?_) | (with_reducible refine ite_frame _ ?_ ?_) | split)

theorem lhScrub_frame (L : Region → Bool) (hSys : L .sys = true) (hMem : L .mem = true) (b : LhBox) (n : Nat) (s : State) :
    blank L (lhScrub b n s) = blank L s := by
  simp only [lhScrub, storeBytes_frame, hSys, hMem]

theorem lhScrubOpen_frame (L : Region → Bool) (hSys : L .sys = true) (hMem : L .mem = true) (hFree : L .free = true) (b : LhBox) (s : State) :
    blank L (lhScrubOpen b s) = blank L s := by
  unfold lhScrubOpen
  repeat' (first | with_reducible rfl | (with_reducible refine Eq.trans (takeFree_frame_eq L hFree (by with_reducible assumption)) ?_) | (simp only [lhScrub_frame, takeFree_frame, hSys, hMem, hFree, apply_ite (blank L), ite_self]) | (with_reducible refine ite_frame _ ?_ ?_) | split)

end Sys2Proof.Machine
end

