-- ==== Sys2Proof/Laws/FramePounds.lean ====
section
/-! SUPPORT. Frame lemmas of Machine/Pounds.lean: what each operation leaves alone. -/
set_option linter.unusedSimpArgs false
set_option linter.unusedVariables false
namespace Sys2Proof.Machine

theorem muteWaiting_frame (L : Region → Bool) (hCyc : L .cyc = true) (hStaged : L .staged = true) (hMot : L .mot = true) (hTow : L .tow = true) (hPwr : L .pwr = true) (hImg : L .img = true) (p : Nat) (s : State) :
    blank L (muteWaiting p s) = blank L s := by
  unfold muteWaiting
  repeat' (first | with_reducible rfl | (simp only [modBarge_frame, modCyc_frame, modImg_frame, modPad_frame, modPwr_frame, hCyc, hStaged, hMot, hTow, hPwr, hImg, apply_ite (blank L), ite_self]) | (with_reducible refine (foldl_pair_frame L _ (fun _ _ => ?_) _ _).trans ?_) | (with_reducible refine (foldl_frame L _ (fun _ _ => ?_) _ _).trans ?_) | (with_reducible refine ite_frame _ ?_ ?_) | split)

theorem startReset_frame (L : Region → Bool) (hCyc : L .cyc = true) (hStaged : L .staged = true) (hFv : L .fv = true) (hWire : L .wire = true) (hMot : L .mot = true) (hTow : L .tow = true) (hAps : L .aps = true) (hPwr : L .pwr = true) (hImg : L .img = true) (p reason : Nat) (s : State) :
    blank L (startReset p reason s) = blank L s := by
  unfold startReset
  repeat' (first | with_reducible rfl | ((with_reducible refine Eq.trans (modFv_part L _ _ ?_) ?_); (next => exact fun _ => by simp only [blankFv, hFv, if_true])) | (simp only [emit_frame, modCore_frame, modPound_frame, modPq_frame, modWin_frame, muteWaiting_frame, hCyc, hStaged, hFv, hWire, hMot, hTow, hAps, hPwr, hImg, apply_ite (blank L), ite_self]) | (with_reducible refine (foldl_pair_frame L _ (fun _ _ => ?_) _ _).trans ?_) | (with_reducible refine (foldl_frame L _ (fun _ _ => ?_) _ _).trans ?_) | (with_reducible refine ite_frame _ ?_ ?_) | split)

theorem dropSends_frame (L : Region → Bool) (hWire : L .wire = true) (hCan : L .can = true) (p c : Nat) (s : State) :
    blank L (dropSends p c s) = blank L s := by
  unfold dropSends
  repeat' (first | with_reducible rfl | (simp only [countCan_frame, modCanCh_frame, hWire, hCan, apply_ite (blank L), ite_self]) | (with_reducible refine (foldl_pair_frame L _ (fun _ _ => ?_) _ _).trans ?_) | (with_reducible refine (foldl_frame L _ (fun _ _ => ?_) _ _).trans ?_) | (with_reducible refine ite_frame _ ?_ ?_) | split)

theorem abandonLh_frame (L : Region → Bool) (hSys : L .sys = true) (hLight : L .light = true) (hMem : L .mem = true) (hFree : L .free = true) (p : Nat) (s : State) :
    blank L (abandonLh p s) = blank L s := by
  unfold abandonLh
  repeat' (first | with_reducible rfl | (simp only [lhScrubOpen_frame, modBox_frame, hSys, hLight, hMem, hFree, apply_ite (blank L), ite_self]) | (with_reducible refine ite_frame _ ?_ ?_) | split)

theorem completeReset_frame (L : Region → Bool) (hSys : L .sys = true) (hTide : L .tide = true) (hFv : L .fv = true) (hWire : L .wire = true) (hSlu : L .slu = true) (hCan : L .can = true) (hNm : L .nm = true) (hNet : L .net = true) (hLight : L .light = true) (hMem : L .mem = true) (hFree : L .free = true) (p : Nat) (s : State) :
    blank L (completeReset p s) = blank L s := by
  unfold completeReset
  repeat' (first | with_reducible rfl | (simp only [abandonLh_frame, clearSnap_frame, dropSends_frame, modFv_frame, modHostq_frame, modPound_frame, modPq_frame, modSlu_frame, modWin_frame, setClaim_frame, hSys, hTide, hFv, hWire, hSlu, hCan, hNm, hNet, hLight, hMem, hFree, apply_ite (blank L), ite_self]) | (with_reducible refine (foldl_pair_frame L _ (fun _ _ => ?_) _ _).trans ?_) | (with_reducible refine (foldl_frame L _ (fun _ _ => ?_) _ _).trans ?_) | (with_reducible refine ite_frame _ ?_ ?_) | split)

theorem purgePound_frame (L : Region → Bool) (hFv : L .fv = true) (hWire : L .wire = true) (p : Nat) (s : State) :
    blank L (purgePound p s) = blank L s := by
  simp only [purgePound, modPound_frame, modPq_frame, hFv, hWire]

theorem runDeferred_frame (L : Region → Bool) (hCyc : L .cyc = true) (hStaged : L .staged = true) (hFv : L .fv = true) (hWire : L .wire = true) (hMot : L .mot = true) (hTow : L .tow = true) (hAps : L .aps = true) (hPwr : L .pwr = true) (hImg : L .img = true) (s : State) :
    blank L (runDeferred s) = blank L s := by
  unfold runDeferred
  repeat' (first | with_reducible rfl | ((with_reducible refine Eq.trans (modFv_part L _ _ ?_) ?_); (next => exact fun _ => by simp only [blankFv, hFv, if_true])) | (simp only [startReset_frame, hCyc, hStaged, hFv, hWire, hMot, hTow, hAps, hPwr, hImg, apply_ite (blank L), ite_self]) | (with_reducible refine (foldl_pair_frame L _ (fun _ _ => ?_) _ _).trans ?_) | (with_reducible refine (foldl_frame L _ (fun _ _ => ?_) _ _).trans ?_) | (with_reducible refine ite_frame _ ?_ ?_) | split)

theorem execPoundResetComplete_frame (L : Region → Bool) (hSys : L .sys = true) (hTide : L .tide = true) (hFv : L .fv = true) (hWire : L .wire = true) (hSlu : L .slu = true) (hCan : L .can = true) (hNm : L .nm = true) (hNet : L .net = true) (hLight : L .light = true) (hMem : L .mem = true) (hFree : L .free = true) {p : Nat} {s : State} {t9} (h : execPoundResetComplete p s = .next t9) :
    blank L t9 = blank L s := by
  obtain ⟨-, rfl⟩ := guardUnit_next h
  repeat' (first | with_reducible rfl | (simp only [completeReset_frame, hSys, hTide, hFv, hWire, hSlu, hCan, hNm, hNet, hLight, hMem, hFree, apply_ite (blank L), ite_self]) | (with_reducible refine ite_frame _ ?_ ?_) | split)

theorem execOwnershipTransfer_frame (L : Region → Bool) (hFv : L .fv = true) (hWire : L .wire = true) {p : Nat} {s : State} {t9} (h : execOwnershipTransfer p s = .next t9) :
    blank L t9 = blank L s := by
  obtain ⟨-, rfl⟩ := guardUnit_next h
  repeat' (first | with_reducible rfl | (simp only [purgePound_frame, hFv, hWire, apply_ite (blank L), ite_self]) | (with_reducible refine ite_frame _ ?_ ?_) | split)

theorem execFunctionLevelReset_frame (L : Region → Bool) (hCyc : L .cyc = true) (hStaged : L .staged = true) (hFv : L .fv = true) (hWire : L .wire = true) (hMot : L .mot = true) (hTow : L .tow = true) (hAps : L .aps = true) (hPwr : L .pwr = true) (hImg : L .img = true) {f : Nat} {s : State} {t9} (h : execFunctionLevelReset f s = .next t9) :
    blank L t9 = blank L s := by
  obtain ⟨-, rfl⟩ := guardUnit_next h
  repeat' (first | with_reducible rfl | (simp only [startReset_frame, hCyc, hStaged, hFv, hWire, hMot, hTow, hAps, hPwr, hImg, apply_ite (blank L), ite_self]) | (with_reducible refine ite_frame _ ?_ ?_) | split)

theorem execEventRateWindow_frame (L : Region → Bool) (hWire : L .wire = true) {s : State} {t9} (h : execEventRateWindow s = .next t9) :
    blank L t9 = blank L s := by
  unfold execEventRateWindow at h
  injection h with h
  subst h
  repeat' (first | with_reducible rfl | (simp only [modPq_frame, hWire, apply_ite (blank L), ite_self]) | (with_reducible refine (foldl_pair_frame L _ (fun _ _ => ?_) _ _).trans ?_) | (with_reducible refine (foldl_frame L _ (fun _ _ => ?_) _ _).trans ?_) | (with_reducible refine ite_frame _ ?_ ?_) | split)

theorem execSuppressionWindowClose_frame (L : Region → Bool) (hWire : L .wire = true) {p code handle : Nat} {s : State} {t9} (h : execSuppressionWindowClose p code handle s = .next t9) :
    blank L t9 = blank L s := by
  obtain ⟨-, rfl⟩ := guardUnit_next h
  repeat' (first | with_reducible rfl | (simp only [closeWin_frame, hWire, apply_ite (blank L), ite_self]) | (with_reducible refine ite_frame _ ?_ ?_) | split)

end Sys2Proof.Machine
end

