-- ==== Sys2Proof/Laws/FramePorts.lean ====
section
/-! SUPPORT. Frame lemmas of Machine/Ports.lean: what each operation leaves alone. -/
set_option linter.unusedSimpArgs false
set_option linter.unusedVariables false
namespace Sys2Proof.Machine

theorem writeBack_frame (L : Region → Bool) (hSys : L .sys = true) (hWire : L .wire = true) (hNet : L .net = true) (hMem : L .mem = true) (p r : Nat) (l : List Written) (s : State) :
    blank L (writeBack p r l s) = blank L s := by
  unfold writeBack
  repeat' (first | with_reducible rfl | (simp only [modHring_frame, modWin_frame, storeBytes_frame, hSys, hWire, hNet, hMem, apply_ite (blank L), ite_self]) | (with_reducible refine (foldl_pair_frame L _ (fun _ _ => ?_) _ _).trans ?_) | (with_reducible refine (foldl_frame L _ (fun _ _ => ?_) _ _).trans ?_) | (with_reducible refine ite_frame _ ?_ ?_) | split)

theorem mbxError_frame (L : Region → Bool) (hWire : L .wire = true) (p code ring : Nat) (s : State) :
    blank L (mbxError p code ring s) = blank L s := by
  unfold mbxError
  repeat' (first | with_reducible rfl | (simp only [emitTransport_frame, modWin_frame, hWire, apply_ite (blank L), ite_self]) | (with_reducible refine ite_frame _ ?_ ?_) | split)

theorem discardRx_frame (L : Region → Bool) (hSys : L .sys = true) (hWire : L .wire = true) (hNet : L .net = true) (hMem : L .mem = true) (p r filter n : Nat) (x : NetFrame) (s : State) :
    blank L (discardRx p r filter n x s) = blank L s := by
  unfold discardRx
  repeat' (first | with_reducible rfl | (simp only [countPort_frame, emit_frame, modHring_frame, writeBack_frame, hSys, hWire, hNet, hMem, apply_ite (blank L), ite_self]) | (with_reducible refine ite_frame _ ?_ ?_) | split)

theorem deliverRing_frame (L : Region → Bool) (hSys : L .sys = true) (hWire : L .wire = true) (hNet : L .net = true) (hMem : L .mem = true) (p r filter : Nat) (x : NetFrame) (s : State) :
    blank L (deliverRing p r filter x s) = blank L s := by
  unfold deliverRing
  repeat' (first | with_reducible rfl | (simp only [countPort_frame, discardRx_frame, mbxError_frame, modHring_frame, writeBack_frame, hSys, hWire, hNet, hMem, apply_ite (blank L), ite_self]) | (with_reducible refine ite_frame _ ?_ ?_) | split)

theorem flushDone_frame (L : Region → Bool) (hSys : L .sys = true) (hWire : L .wire = true) (hNet : L .net = true) (hMem : L .mem = true) (k : Nat) (s : State) :
    blank L (flushDone k s) = blank L s := by
  unfold flushDone
  repeat' (first | with_reducible rfl | (simp only [modHring_frame, writeBack_frame, hSys, hWire, hNet, hMem, apply_ite (blank L), ite_self]) | (with_reducible refine ite_frame _ ?_ ?_) | split)

theorem complete_frame (L : Region → Bool) (hSys : L .sys = true) (hWire : L .wire = true) (hNet : L .net = true) (hMem : L .mem = true) (k id st sec ns : Nat) (s : State) :
    blank L (complete k id st sec ns s) = blank L s := by
  unfold complete
  repeat' (first | with_reducible rfl | (simp only [flushDone_frame, modHring_frame, hSys, hWire, hNet, hMem, apply_ite (blank L), ite_self]) | (with_reducible refine ite_frame _ ?_ ?_) | split)

theorem pushDone_frame (L : Region → Bool) (hSys : L .sys = true) (hWire : L .wire = true) (hNet : L .net = true) (hMem : L .mem = true) (k tag n : Nat) (st : Option Nat) (s : State) :
    blank L (pushDone k tag n st s) = blank L s := by
  simp only [pushDone, flushDone_frame, modHring_frame, hSys, hWire, hNet, hMem]

theorem macsecRx_frame (L : Region → Bool) (hWire : L .wire = true) (hNet : L .net = true) (p : Nat) (f : EthFrame) (tag : Option SecTag) (s : State) :
    blank L (macsecRx p f tag s).2 = blank L s := by
  unfold macsecRx
  repeat' (first | with_reducible rfl | (simp only [countPort_frame, modSa_frame, hWire, hNet, apply_ite (blank L), ite_self]) | (with_reducible refine ite_frame _ ?_ ?_) | split)

theorem macsecRx_frame_eq (L : Region → Bool) (hWire : L .wire = true) (hNet : L .net = true) {p : Nat} {f : EthFrame} {tag : Option SecTag} {s : State} {x9} {t9} (h : macsecRx p f tag s = (x9, t9)) :
    blank L t9 = blank L s := by
  rw [← macsecRx_frame L hWire hNet p f tag s, h]

theorem portRec_keeps (L : Region → Bool) (hNet : L .net = true) (p : Nat) : FldsKeep L (portRec p).flds := by
  unfold portRec
  repeat' (first | (refine FldsKeep.lift (fun _ _ => ?_)) | (refine FldsKeep.append ?_ ?_) | (refine FldsKeep.flatMap (fun _ => ?_)) | (refine FldsKeep.map (fun _ => ?_)) | (refine FldsKeep.cons ?_ ?_) | (exact FldsKeep.nil) | (exact fun _ _ => rfl) | (intro n9 s9) | (simp only [modPort_frame, hNet, apply_ite (blank L), ite_self]))

theorem portCtrRec_keeps (L : Region → Bool)  (p : Nat) : FldsKeep L (portCtrRec p).flds := by
  unfold portCtrRec
  repeat' (first | (refine FldsKeep.lift (fun _ _ => ?_)) | (refine FldsKeep.append ?_ ?_) | (refine FldsKeep.flatMap (fun _ => ?_)) | (refine FldsKeep.map (fun _ => ?_)) | (refine FldsKeep.cons ?_ ?_) | (exact FldsKeep.nil) | (exact fun _ _ => rfl) | (intro n9 s9) | (simp only [apply_ite (blank L), ite_self]))

theorem hostFilterRec_keeps (L : Region → Bool) (hNet : L .net = true) (i : Nat) : FldsKeep L (hostFilterRec i).flds := by
  unfold hostFilterRec
  repeat' (first | (refine FldsKeep.lift (fun _ _ => ?_)) | (refine FldsKeep.append ?_ ?_) | (refine FldsKeep.flatMap (fun _ => ?_)) | (refine FldsKeep.map (fun _ => ?_)) | (refine FldsKeep.cons ?_ ?_) | (exact FldsKeep.nil) | (exact fun _ _ => rfl) | (intro n9 s9) | (simp only [modHf_frame, hNet, apply_ite (blank L), ite_self]))

theorem hostRingRec_keeps (L : Region → Bool) (hNet : L .net = true) (i : Nat) : FldsKeep L (hostRingRec i).flds := by
  unfold hostRingRec
  repeat' (first | (refine FldsKeep.lift (fun _ _ => ?_)) | (refine FldsKeep.append ?_ ?_) | (refine FldsKeep.flatMap (fun _ => ?_)) | (refine FldsKeep.map (fun _ => ?_)) | (refine FldsKeep.cons ?_ ?_) | (exact FldsKeep.nil) | (exact fun _ _ => rfl) | (intro n9 s9) | (simp only [modHring_frame, hNet, apply_ite (blank L), ite_self]))

theorem saRec_keeps (L : Region → Bool) (hNet : L .net = true) (i : Nat) : FldsKeep L (saRec i).flds := by
  unfold saRec
  repeat' (first | (refine FldsKeep.lift (fun _ _ => ?_)) | (refine FldsKeep.append ?_ ?_) | (refine FldsKeep.flatMap (fun _ => ?_)) | (refine FldsKeep.map (fun _ => ?_)) | (refine FldsKeep.cons ?_ ?_) | (exact FldsKeep.nil) | (exact fun _ _ => rfl) | (intro n9 s9) | (simp only [modSa_frame, hNet, apply_ite (blank L), ite_self]))

theorem secyRec_keeps (L : Region → Bool) (hNet : L .net = true) (i : Nat) : FldsKeep L (secyRec i).flds := by
  unfold secyRec
  repeat' (first | (refine FldsKeep.lift (fun _ _ => ?_)) | (refine FldsKeep.append ?_ ?_) | (refine FldsKeep.flatMap (fun _ => ?_)) | (refine FldsKeep.map (fun _ => ?_)) | (refine FldsKeep.cons ?_ ?_) | (exact FldsKeep.nil) | (exact fun _ _ => rfl) | (intro n9 s9) | (simp only [modSecy_frame, hNet, apply_ite (blank L), ite_self]))

theorem portRecord_keeps (L : Region → Bool) (hNet : L .net = true) {i part : Nat} {rc : Rec} (h : portRecord i part = some rc) : FldsKeep L rc.flds := by
  unfold portRecord at h
  repeat' (split at h)
  all_goals first | (cases h; done) | (injection h with h; subst h; first | (exact FldsKeep.nil) | (with_reducible exact portRec_keeps L hNet _) | (with_reducible exact hostRingRec_keeps L hNet _) | (with_reducible exact secyRec_keeps L hNet _) | (with_reducible exact portCtrRec_keeps L  _) | (with_reducible exact hostFilterRec_keeps L hNet _) | (with_reducible exact saRec_keeps L hNet _))

theorem portAfter_frame (L : Region → Bool) (hWire : L .wire = true) (hNet : L .net = true) (s0 : State) (i x0 : Nat) (ws : List (Nat × Nat)) (s : State) :
    blank L (portAfter s0 i x0 ws s) = blank L s := by
  unfold portAfter
  repeat' (first | with_reducible rfl | (simp only [modHring_frame, modPort_frame, modSa_frame, modWin_frame, setLink_frame, hWire, hNet, apply_ite (blank L), ite_self]) | (with_reducible refine ite_frame _ ?_ ?_) | split)

theorem portClass_keeps (L : Region → Bool) (hWire : L .wire = true) (hNet : L .net = true)  : Keeps L (portClass) where
  record h := by
    simp only [portClass] at h
    repeat' (split at h)
    all_goals first | (cases h; done) | (with_reducible exact portRecord_keeps L hNet h) | (injection h with h; subst h; first | (exact FldsKeep.nil))
  after _ _ _ _ _ := by
    simp only [portClass]
    repeat' (first | with_reducible rfl | (simp only [modHring_frame, modNet_frame, portAfter_frame, hWire, hNet, apply_ite (blank L), ite_self]) | (with_reducible refine ite_frame _ ?_ ?_) | split)
  onRead _ _ _ _ _ := by
    simp only [portClass]
    repeat' (first | with_reducible rfl | (simp only [modHring_frame, modNet_frame, portAfter_frame, hWire, hNet, apply_ite (blank L), ite_self]) | (with_reducible refine ite_frame _ ?_ ?_) | split)
  held h := by
    first
    | (cases h; done)
    | (simp only [portClass] at h; exact absurd h)
  acts := by
    simp only [portClass]
    repeat' (first | (exact ActsKeep.nil) | (refine ActsKeep.cons ?_ ?_) | (refine ⟨fun _ _ _ _ => ?_, fun _ => ?_, fun _ _ _ => ?_, fun h9 => ?_⟩) | (cases h9; done) | (injection h9 with h9; subst h9) | with_reducible rfl | (simp only [modHring_frame, modNet_frame, portAfter_frame, hWire, hNet, apply_ite (blank L), ite_self]) | (with_reducible refine ite_frame _ ?_ ?_) | split)

theorem execPortSet_frame (L : Region → Bool) (hStaged : L .staged = true) (hFv : L .fv = true) (hWire : L .wire = true) (hDetect : L .detect = true) (hTp : L .tp = true) (hNm : L .nm = true) (hNet : L .net = true) (hTow : L .tow = true) {r : Req} {s : State} {t9} (h : execPortSet r s = .next t9) :
    blank L t9 = blank L s := by
  unfold execPortSet at h
  injection h with h
  subst h
  repeat' (first | with_reducible rfl | (refine Eq.trans (cmdSet_frame L hStaged hFv hWire hDetect hTp hNm hTow (portClass_keeps L hWire hNet) _ _) ?_) | (simp only [hStaged, hFv, hWire, hDetect, hTp, hNm, hNet, hTow, apply_ite (blank L), ite_self]) | (with_reducible refine ite_frame _ ?_ ?_) | split)

theorem execPortClearCounters_frame (L : Region → Bool) (hStaged : L .staged = true) (hFv : L .fv = true) (hWire : L .wire = true) (hDetect : L .detect = true) (hTp : L .tp = true) (hNm : L .nm = true) (hNet : L .net = true) (hTow : L .tow = true) {r : Req} {s : State} {t9} (h : execPortClearCounters r s = .next t9) :
    blank L t9 = blank L s := by
  unfold execPortClearCounters at h
  injection h with h
  subst h
  repeat' (first | with_reducible rfl | (refine Eq.trans (cmdAct_frame L hStaged hFv hWire hDetect hTp hNm hTow (portClass_keeps L hWire hNet) _ _ _) ?_) | (simp only [hStaged, hFv, hWire, hDetect, hTp, hNm, hNet, hTow, apply_ite (blank L), ite_self]) | (with_reducible refine ite_frame _ ?_ ?_) | split)

theorem execPortLinkChange_frame (L : Region → Bool) (hWire : L .wire = true) (hDetect : L .detect = true) (hNet : L .net = true) {p : Nat} {up : Bool} {sqi speed : Nat} {s : State} {t9} (h : execPortLinkChange p up sqi speed s = .next t9) :
    blank L t9 = blank L s := by
  obtain ⟨-, rfl⟩ := guardUnit_next h
  repeat' (first | with_reducible rfl | (simp only [detectEnd_frame, detect_frame, emit_frame, modPort_frame, setLink_frame, hWire, hDetect, hNet, apply_ite (blank L), ite_self]) | (with_reducible refine ite_frame _ ?_ ?_) | split)

theorem execPlcaBeaconTimeout_frame (L : Region → Bool) (hWire : L .wire = true) (hNet : L .net = true) {p : Nat} {s : State} {t9} (h : execPlcaBeaconTimeout p s = .next t9) :
    blank L t9 = blank L s := by
  obtain ⟨-, rfl⟩ := guardUnit_next h
  repeat' (first | with_reducible rfl | (simp only [emit_frame, modPort_frame, hWire, hNet, apply_ite (blank L), ite_self]) | (with_reducible refine ite_frame _ ?_ ?_) | split)

theorem execPlcaBeaconReceived_frame (L : Region → Bool) (hWire : L .wire = true) (hNet : L .net = true) {p : Nat} {s : State} {t9} (h : execPlcaBeaconReceived p s = .next t9) :
    blank L t9 = blank L s := by
  obtain ⟨-, rfl⟩ := guardUnit_next h
  repeat' (first | with_reducible rfl | (simp only [countPort_frame, emit_frame, modPort_frame, hWire, hNet, apply_ite (blank L), ite_self]) | (with_reducible refine ite_frame _ ?_ ?_) | split)

theorem countRx_frame (L : Region → Bool) (hWire : L .wire = true) (hNet : L .net = true) (p : Nat) (f : EthFrame) (len : Nat) (s : State) :
    blank L (countRx p f len s) = blank L s := by
  unfold countRx
  repeat' (first | with_reducible rfl | (simp only [countPort_frame, hWire, hNet, apply_ite (blank L), ite_self]) | (with_reducible refine ite_frame _ ?_ ?_) | split)

theorem relaySync_frame (L : Region → Bool) (hNet : L .net = true) (p : Nat) (f : EthFrame) (s : State) :
    blank L (relaySync p f s) = blank L s := by
  unfold relaySync
  repeat' (first | with_reducible rfl | (simp only [toBasin_frame, hNet, apply_ite (blank L), ite_self]) | (with_reducible refine (foldl_pair_frame L _ (fun _ _ => ?_) _ _).trans ?_) | (with_reducible refine (foldl_frame L _ (fun _ _ => ?_) _ _).trans ?_) | (with_reducible refine ite_frame _ ?_ ?_) | split)

theorem signalling_frame (L : Region → Bool) (hTide : L .tide = true) (p : Nat) (f : EthFrame) (s : State) :
    blank L (signalling p f s) = blank L s := by
  unfold signalling
  repeat' (first | with_reducible rfl | (simp only [modGport_frame, hTide, apply_ite (blank L), ite_self]) | (with_reducible refine ite_frame _ ?_ ?_) | split)

theorem toKeeper_frame (L : Region → Bool) (hSys : L .sys = true) (hTide : L .tide = true) (hWire : L .wire = true) (hNet : L .net = true) (hMem : L .mem = true) (p : Nat) (x : NetFrame) (s : State) :
    blank L (toKeeper p x s) = blank L s := by
  unfold toKeeper
  repeat' (first | with_reducible rfl | (simp only [deliverRing_frame, relaySync_frame, signalling_frame, hSys, hTide, hWire, hNet, hMem, apply_ite (blank L), ite_self]) | (with_reducible refine ite_frame _ ?_ ?_) | split)

theorem execEthFrameReceived_frame (L : Region → Bool) (hSys : L .sys = true) (hTide : L .tide = true) (hWire : L .wire = true) (hNet : L .net = true) (hMem : L .mem = true) {p : Nat} {f : EthFrame} {len : Nat} {fcsOk : Bool} {tag : Option SecTag} {s : State} {t9} (h : execEthFrameReceived p f len fcsOk tag s = .next t9) :
    blank L t9 = blank L s := by
  obtain ⟨-, rfl⟩ := guardUnit_next h
  repeat' (first | with_reducible rfl | (with_reducible refine Eq.trans (macsecRx_frame_eq L hWire hNet (by with_reducible assumption)) ?_) | (simp only [countPort_frame, countRx_frame, macsecRx_frame, toBasin_frame, toKeeper_frame, hSys, hTide, hWire, hNet, hMem, apply_ite (blank L), ite_self]) | (with_reducible refine ite_frame _ ?_ ?_) | split)

theorem execTxFrameFetch_frame (L : Region → Bool) (hSys : L .sys = true) (hWire : L .wire = true) (hNet : L .net = true) (hMem : L .mem = true) {p r : Nat} {s : State} {t9} (h : execTxFrameFetch p r s = .next t9) :
    blank L t9 = blank L s := by
  obtain ⟨-, rfl⟩ := guardUnit_next h
  repeat' (first | with_reducible rfl | (simp only [mbxError_frame, modHring_frame, pushDone_frame, toBasin_frame, hSys, hWire, hNet, hMem, apply_ite (blank L), ite_self]) | (with_reducible refine ite_frame _ ?_ ?_) | split)

theorem execEopTimeout_frame (L : Region → Bool) (hSys : L .sys = true) (hWire : L .wire = true) (hNet : L .net = true) (hMem : L .mem = true) {p r : Nat} {s : State} {t9} (h : execEopTimeout p r s = .next t9) :
    blank L t9 = blank L s := by
  obtain ⟨-, rfl⟩ := guardUnit_next h
  repeat' (first | with_reducible rfl | (simp only [modHring_frame, pushDone_frame, hSys, hWire, hNet, hMem, apply_ite (blank L), ite_self]) | (with_reducible refine (foldl_pair_frame L _ (fun _ _ => ?_) _ _).trans ?_) | (with_reducible refine (foldl_frame L _ (fun _ _ => ?_) _ _).trans ?_) | (with_reducible refine ite_frame _ ?_ ?_) | split)

theorem execTs2Timeout_frame (L : Region → Bool) (hSys : L .sys = true) (hWire : L .wire = true) (hNet : L .net = true) (hMem : L .mem = true) {p r id : Nat} {s : State} {t9} (h : execTs2Timeout p r id s = .next t9) :
    blank L t9 = blank L s := by
  obtain ⟨-, rfl⟩ := guardUnit_next h
  repeat' (first | with_reducible rfl | (simp only [complete_frame, hSys, hWire, hNet, hMem, apply_ite (blank L), ite_self]) | (with_reducible refine ite_frame _ ?_ ?_) | split)

end Sys2Proof.Machine
end

