-- ==== Sys2Proof/Laws/FrameBasin.lean ====
section
/-! SUPPORT. Frame lemmas of Machine/Basin.lean: what each operation leaves alone. -/
set_option linter.unusedSimpArgs false
set_option linter.unusedVariables false
namespace Sys2Proof.Machine

theorem countQ_frame (L : Region → Bool) (hWire : L .wire = true) (hNet : L .net = true) (q k n : Nat) (s : State) :
    blank L (countQ q k n s) = blank L s := by
  unfold countQ
  repeat' (first | with_reducible rfl | (simp only [emit_frame, modQueue_frame, hWire, hNet, apply_ite (blank L), ite_self]) | (with_reducible refine ite_frame _ ?_ ?_) | split)

theorem countG_frame (L : Region → Bool) (hWire : L .wire = true) (hNet : L .net = true) (k : Nat) (s : State) :
    blank L (countG k s) = blank L s := by
  unfold countG
  repeat' (first | with_reducible rfl | (simp only [emit_frame, modNet_frame, hWire, hNet, apply_ite (blank L), ite_self]) | (with_reducible refine ite_frame _ ?_ ?_) | split)

theorem countS_frame (L : Region → Bool) (hWire : L .wire = true) (hNet : L .net = true) (i k n : Nat) (s : State) :
    blank L (countS i k n s) = blank L s := by
  unfold countS
  repeat' (first | with_reducible rfl | (simp only [emit_frame, modStream_frame, hWire, hNet, apply_ite (blank L), ite_self]) | (with_reducible refine ite_frame _ ?_ ?_) | split)

theorem ovfReport_frame (L : Region → Bool) (hWire : L .wire = true) (hNet : L .net = true) (s : State) :
    blank L (ovfReport s) = blank L s := by
  unfold ovfReport
  repeat' (first | with_reducible rfl | (simp only [emit_frame, modNet_frame, hWire, hNet, apply_ite (blank L), ite_self]) | (with_reducible refine ite_frame _ ?_ ?_) | split)

theorem ovfGate_frame (L : Region → Bool) (hWire : L .wire = true) (hNet : L .net = true) (s : State) :
    blank L (ovfGate s) = blank L s := by
  unfold ovfGate
  repeat' (first | with_reducible rfl | (simp only [emit_frame, modNet_frame, hWire, hNet, apply_ite (blank L), ite_self]) | (with_reducible refine ite_frame _ ?_ ?_) | split)

theorem settle_frame (L : Region → Bool) (hNet : L .net = true) (p : Nat) (s : State) :
    blank L (settle p s) = blank L s := by
  unfold settle
  repeat' (first | with_reducible rfl | (simp only [modQueue_frame, hNet, apply_ite (blank L), ite_self]) | (with_reducible refine (foldl_pair_frame L _ (fun _ _ => ?_) _ _).trans ?_) | (with_reducible refine (foldl_frame L _ (fun _ _ => ?_) _ _).trans ?_) | (with_reducible refine ite_frame _ ?_ ?_) | split)

theorem dropCopy_frame (L : Region → Bool) (hWire : L .wire = true) (hNet : L .net = true) (q cause : Nat) (s : State) :
    blank L (dropCopy q cause s) = blank L s := by
  unfold dropCopy
  repeat' (first | with_reducible rfl | (simp only [countQ_frame, emit_frame, modQueue_frame, hWire, hNet, apply_ite (blank L), ite_self]) | (with_reducible refine ite_frame _ ?_ ?_) | split)

theorem linkCopy_frame (L : Region → Bool) (hWire : L .wire = true) (hNet : L .net = true) (q : Nat) (c : Copy) (s : State) :
    blank L (linkCopy q c s) = blank L s := by
  unfold linkCopy
  repeat' (first | with_reducible rfl | (simp only [countQ_frame, modQueue_frame, ovfReport_frame, settle_frame, hWire, hNet, apply_ite (blank L), ite_self]) | (with_reducible refine ite_frame _ ?_ ?_) | split)

theorem enqueueCopy_frame (L : Region → Bool) (hWire : L .wire = true) (hNet : L .net = true) (q : Nat) (c : Copy) (full : Bool) (s : State) :
    blank L (enqueueCopy q c full s).2 = blank L s := by
  unfold enqueueCopy
  repeat' (first | with_reducible rfl | (simp only [countG_frame, countQ_frame, dropCopy_frame, linkCopy_frame, hWire, hNet, apply_ite (blank L), ite_self]) | (with_reducible refine ite_frame _ ?_ ?_) | split)

theorem enqueueCopy_frame_eq (L : Region → Bool) (hWire : L .wire = true) (hNet : L .net = true) {q : Nat} {c : Copy} {full : Bool} {s : State} {x9} {t9} (h : enqueueCopy q c full s = (x9, t9)) :
    blank L t9 = blank L s := by
  rw [← enqueueCopy_frame L hWire hNet q c full s, h]

theorem admitHost_frame (L : Region → Bool) (hWire : L .wire = true) (hNet : L .net = true) (c : Copy) (s : State) :
    blank L (admitHost c s).2 = blank L s := by
  unfold admitHost
  repeat' (first | with_reducible rfl | (simp only [countG_frame, countPort_frame, modHostq_frame, modNet_frame, hWire, hNet, apply_ite (blank L), ite_self]) | (with_reducible refine (foldl_pair_frame L _ (fun _ _ => ?_) _ _).trans ?_) | (with_reducible refine (foldl_frame L _ (fun _ _ => ?_) _ _).trans ?_) | (with_reducible refine ite_frame _ ?_ ?_) | split)

theorem admitHost_frame_eq (L : Region → Bool) (hWire : L .wire = true) (hNet : L .net = true) {c : Copy} {s : State} {x9} {t9} (h : admitHost c s = (x9, t9)) :
    blank L t9 = blank L s := by
  rw [← admitHost_frame L hWire hNet c s, h]

theorem ingressDone_frame (L : Region → Bool) (hSys : L .sys = true) (hWire : L .wire = true) (hNet : L .net = true) (hMem : L .mem = true) (x : NetFrame) (ports : List Nat) (any : Bool) (s : State) (vid : Nat) :
    blank L (ingressDone x ports any s vid) = blank L s := by
  unfold ingressDone
  repeat' (first | with_reducible rfl | (simp only [complete_frame, hSys, hWire, hNet, hMem, apply_ite (blank L), ite_self]) | (with_reducible refine ite_frame _ ?_ ?_) | split)

theorem admitAll_frame (L : Region → Bool) (hSys : L .sys = true) (hWire : L .wire = true) (hNet : L .net = true) (hMem : L .mem = true) (r : Routed) (full : Bool) (s : State) :
    blank L (admitAll r full s) = blank L s := by
  unfold admitAll
  repeat' (first | with_reducible rfl | (with_reducible refine Eq.trans (admitHost_frame_eq L hWire hNet (by with_reducible assumption)) ?_) | (with_reducible refine Eq.trans (enqueueCopy_frame_eq L hWire hNet (by with_reducible assumption)) ?_) | (simp only [admitHost_frame, countG_frame, enqueueCopy_frame, ingressDone_frame, hSys, hWire, hNet, hMem, apply_ite (blank L), ite_self]) | (with_reducible refine (foldl_pair_frame L _ (fun _ _ => ?_) _ _).trans ?_) | (with_reducible refine (foldl_frame L _ (fun _ _ => ?_) _ _).trans ?_) | (with_reducible refine ite_frame _ ?_ ?_) | split)

theorem meterFrame_frame (L : Region → Bool) (hWire : L .wire = true) (hNet : L .net = true) (i len : Nat) (s : State) :
    blank L (meterFrame i len s).2 = blank L s := by
  unfold meterFrame
  repeat' (first | with_reducible rfl | (simp only [countS_frame, emit_frame, modStream_frame, hWire, hNet, apply_ite (blank L), ite_self]) | (with_reducible refine ite_frame _ ?_ ?_) | split)

theorem meterFrame_frame_eq (L : Region → Bool) (hWire : L .wire = true) (hNet : L .net = true) {i len : Nat} {s : State} {x9} {t9} (h : meterFrame i len s = (x9, t9)) :
    blank L t9 = blank L s := by
  rw [← meterFrame_frame L hWire hNet i len s, h]

theorem recoverSeq_frame (L : Region → Bool) (hWire : L .wire = true) (hNet : L .net = true) (i seq : Nat) (s : State) :
    blank L (recoverSeq i seq s).2 = blank L s := by
  unfold recoverSeq
  repeat' (first | with_reducible rfl | (simp only [countS_frame, emit_frame, modStream_frame, hWire, hNet, apply_ite (blank L), ite_self]) | (with_reducible refine ite_frame _ ?_ ?_) | split)

theorem recoverSeq_frame_eq (L : Region → Bool) (hWire : L .wire = true) (hNet : L .net = true) {i seq : Nat} {s : State} {x9} {t9} (h : recoverSeq i seq s = (x9, t9)) :
    blank L t9 = blank L s := by
  rw [← recoverSeq_frame L hWire hNet i seq s, h]

theorem releaseRun_frame (L : Region → Bool) (hSys : L .sys = true) (hWire : L .wire = true) (hNet : L .net = true) (hMem : L .mem = true) (i : Nat) (full : Bool) (n : Nat) (s : State) :
    blank L (releaseRun i full n s) = blank L s := by
  induction n generalizing s with
  | zero => rfl
  | succ n ih =>
    unfold releaseRun
    repeat' (first | with_reducible rfl | (simp only [ih, admitAll_frame, modStream_frame, hSys, hWire, hNet, hMem, apply_ite (blank L), ite_self]) | (with_reducible refine ite_frame _ ?_ ?_) | split)

theorem releaseAll_frame (L : Region → Bool) (hSys : L .sys = true) (hWire : L .wire = true) (hNet : L .net = true) (hMem : L .mem = true) (i : Nat) (full : Bool) (s : State) :
    blank L (releaseAll i full s) = blank L s := by
  unfold releaseAll
  repeat' (first | with_reducible rfl | (simp only [admitAll_frame, countS_frame, modStream_frame, hSys, hWire, hNet, hMem, apply_ite (blank L), ite_self]) | (with_reducible refine (foldl_pair_frame L _ (fun _ _ => ?_) _ _).trans ?_) | (with_reducible refine (foldl_frame L _ (fun _ _ => ?_) _ _).trans ?_) | (with_reducible refine ite_frame _ ?_ ?_) | split)

theorem resequence_frame (L : Region → Bool) (hSys : L .sys = true) (hWire : L .wire = true) (hNet : L .net = true) (hMem : L .mem = true) (i seq : Nat) (r : Routed) (full : Bool) (s : State) :
    blank L (resequence i seq r full s) = blank L s := by
  unfold resequence
  repeat' (first | with_reducible rfl | (simp only [admitAll_frame, countS_frame, modStream_frame, releaseAll_frame, releaseRun_frame, hSys, hWire, hNet, hMem, apply_ite (blank L), ite_self]) | (with_reducible refine ite_frame _ ?_ ?_) | split)

theorem streamFrame_frame (L : Region → Bool) (hSys : L .sys = true) (hWire : L .wire = true) (hNet : L .net = true) (hMem : L .mem = true) (i : Nat) (r : Routed) (full : Bool) (s : State) :
    blank L (streamFrame i r full s) = blank L s := by
  unfold streamFrame
  repeat' (first | with_reducible rfl | (with_reducible refine Eq.trans (meterFrame_frame_eq L hWire hNet (by with_reducible assumption)) ?_) | (with_reducible refine Eq.trans (recoverSeq_frame_eq L hWire hNet (by with_reducible assumption)) ?_) | (simp only [admitAll_frame, countS_frame, emit_frame, ingressDone_frame, meterFrame_frame, modStream_frame, recoverSeq_frame, resequence_frame, hSys, hWire, hNet, hMem, apply_ite (blank L), ite_self]) | (with_reducible refine ite_frame _ ?_ ?_) | split)

theorem fdbRec_keeps (L : Region → Bool) (hNet : L .net = true) (i : Nat) : FldsKeep L (fdbRec i).flds := by
  unfold fdbRec
  repeat' (first | (refine FldsKeep.lift (fun _ _ => ?_)) | (refine FldsKeep.append ?_ ?_) | (refine FldsKeep.flatMap (fun _ => ?_)) | (refine FldsKeep.map (fun _ => ?_)) | (refine FldsKeep.cons ?_ ?_) | (exact FldsKeep.nil) | (exact fun _ _ => rfl) | (intro n9 s9) | (simp only [modFdb_frame, hNet, apply_ite (blank L), ite_self]))

theorem swRec_keeps (L : Region → Bool) (hNet : L .net = true) (p : Nat) : FldsKeep L (swRec p).flds := by
  unfold swRec
  repeat' (first | (refine FldsKeep.lift (fun _ _ => ?_)) | (refine FldsKeep.append ?_ ?_) | (refine FldsKeep.flatMap (fun _ => ?_)) | (refine FldsKeep.map (fun _ => ?_)) | (refine FldsKeep.cons ?_ ?_) | (exact FldsKeep.nil) | (exact fun _ _ => rfl) | (intro n9 s9) | (simp only [modSw_frame, hNet, apply_ite (blank L), ite_self]))

theorem queueRec_keeps (L : Region → Bool) (hNet : L .net = true) (q : Nat) : FldsKeep L (queueRec q).flds := by
  unfold queueRec
  repeat' (first | (refine FldsKeep.lift (fun _ _ => ?_)) | (refine FldsKeep.append ?_ ?_) | (refine FldsKeep.flatMap (fun _ => ?_)) | (refine FldsKeep.map (fun _ => ?_)) | (refine FldsKeep.cons ?_ ?_) | (exact FldsKeep.nil) | (exact fun _ _ => rfl) | (intro n9 s9) | (simp only [modQueue_frame, settle_frame, hNet, apply_ite (blank L), ite_self]))

theorem gateRec_keeps (L : Region → Bool) (hNet : L .net = true) (p : Nat) : FldsKeep L (gateRec p).flds := by
  unfold gateRec
  repeat' (first | (refine FldsKeep.lift (fun _ _ => ?_)) | (refine FldsKeep.append ?_ ?_) | (refine FldsKeep.flatMap (fun _ => ?_)) | (refine FldsKeep.map (fun _ => ?_)) | (refine FldsKeep.cons ?_ ?_) | (exact FldsKeep.nil) | (exact fun _ _ => rfl) | (intro n9 s9) | (simp only [modGate_frame, hNet, apply_ite (blank L), ite_self]))

theorem vlanRec_keeps (L : Region → Bool) (hNet : L .net = true) (v : Nat) : FldsKeep L (vlanRec v).flds := by
  unfold vlanRec
  repeat' (first | (refine FldsKeep.lift (fun _ _ => ?_)) | (refine FldsKeep.append ?_ ?_) | (refine FldsKeep.flatMap (fun _ => ?_)) | (refine FldsKeep.map (fun _ => ?_)) | (refine FldsKeep.cons ?_ ?_) | (exact FldsKeep.nil) | (exact fun _ _ => rfl) | (intro n9 s9) | (simp only [modVlan_frame, hNet, apply_ite (blank L), ite_self]))

theorem basinGlobalRec_keeps (L : Region → Bool) (hNet : L .net = true)  : FldsKeep L (basinGlobalRec ).flds := by
  unfold basinGlobalRec
  repeat' (first | (refine FldsKeep.lift (fun _ _ => ?_)) | (refine FldsKeep.append ?_ ?_) | (refine FldsKeep.flatMap (fun _ => ?_)) | (refine FldsKeep.map (fun _ => ?_)) | (refine FldsKeep.cons ?_ ?_) | (exact FldsKeep.nil) | (exact fun _ _ => rfl) | (intro n9 s9) | (simp only [modNet_frame, hNet, apply_ite (blank L), ite_self]))

theorem basinRecord_keeps (L : Region → Bool) (hNet : L .net = true) {i part : Nat} {rc : Rec} (h : basinRecord i part = some rc) : FldsKeep L rc.flds := by
  unfold basinRecord at h
  repeat' (split at h)
  all_goals first | (cases h; done) | (injection h with h; subst h; first | (exact FldsKeep.nil) | (with_reducible exact fdbRec_keeps L hNet _) | (with_reducible exact gateRec_keeps L hNet _) | (with_reducible exact vlanRec_keeps L hNet _) | (with_reducible exact swRec_keeps L hNet _) | (with_reducible exact basinGlobalRec_keeps L hNet ) | (with_reducible exact queueRec_keeps L hNet _))

theorem basinAfter_frame (L : Region → Bool) (hNet : L .net = true) (s0 : State) (i x0 : Nat) (x1 : List (Nat × Nat)) (s : State) :
    blank L (basinAfter s0 i x0 x1 s) = blank L s := by
  unfold basinAfter
  repeat' (first | with_reducible rfl | (simp only [modFdb_frame, modQueue_frame, modVlan_frame, settle_frame, hNet, apply_ite (blank L), ite_self]) | (with_reducible refine ite_frame _ ?_ ?_) | split)

theorem basinClass_keeps (L : Region → Bool) (hNet : L .net = true)  : Keeps L (basinClass) where
  record h := by
    simp only [basinClass] at h
    repeat' (split at h)
    all_goals first | (cases h; done) | (with_reducible exact basinRecord_keeps L hNet h) | (injection h with h; subst h; first | (exact FldsKeep.nil))
  after _ _ _ _ _ := by
    simp only [basinClass]
    repeat' (first | with_reducible rfl | (simp only [basinAfter_frame, modNet_frame, modQueue_frame, hNet, apply_ite (blank L), ite_self]) | (with_reducible refine ite_frame _ ?_ ?_) | split)
  onRead _ _ _ _ _ := by
    simp only [basinClass]
    repeat' (first | with_reducible rfl | (simp only [basinAfter_frame, modNet_frame, modQueue_frame, hNet, apply_ite (blank L), ite_self]) | (with_reducible refine ite_frame _ ?_ ?_) | split)
  held h := by
    first
    | (cases h; done)
    | (simp only [basinClass] at h; exact absurd h)
  acts := by
    simp only [basinClass]
    repeat' (first | (exact ActsKeep.nil) | (refine ActsKeep.cons ?_ ?_) | (refine ⟨fun _ _ _ _ => ?_, fun _ => ?_, fun _ _ _ => ?_, fun h9 => ?_⟩) | (cases h9; done) | (injection h9 with h9; subst h9) | with_reducible rfl | (simp only [basinAfter_frame, modNet_frame, modQueue_frame, hNet, apply_ite (blank L), ite_self]) | (with_reducible refine ite_frame _ ?_ ?_) | split)

theorem streamRec_keeps (L : Region → Bool) (hNet : L .net = true) (i : Nat) : FldsKeep L (streamRec i).flds := by
  unfold streamRec
  repeat' (first | (refine FldsKeep.lift (fun _ _ => ?_)) | (refine FldsKeep.append ?_ ?_) | (refine FldsKeep.flatMap (fun _ => ?_)) | (refine FldsKeep.map (fun _ => ?_)) | (refine FldsKeep.cons ?_ ?_) | (exact FldsKeep.nil) | (exact fun _ _ => rfl) | (intro n9 s9) | (simp only [modStream_frame, hNet, apply_ite (blank L), ite_self]))

theorem streamRecord_keeps (L : Region → Bool) (hNet : L .net = true) {i part : Nat} {rc : Rec} (h : streamRecord i part = some rc) : FldsKeep L rc.flds := by
  unfold streamRecord at h
  repeat' (split at h)
  all_goals first | (cases h; done) | (injection h with h; subst h; first | (exact FldsKeep.nil) | (with_reducible exact streamRec_keeps L hNet _))

theorem streamClass_keeps (L : Region → Bool) (hSys : L .sys = true) (hWire : L .wire = true) (hNet : L .net = true) (hMem : L .mem = true)  : Keeps L (streamClass) where
  record h := by
    simp only [streamClass] at h
    repeat' (split at h)
    all_goals first | (cases h; done) | (with_reducible exact streamRecord_keeps L hNet h) | (injection h with h; subst h; first | (exact FldsKeep.nil))
  after _ _ _ _ _ := by
    simp only [streamClass]
    repeat' (first | with_reducible rfl | (simp only [countS_frame, emit_frame, modStream_frame, releaseAll_frame, hSys, hWire, hNet, hMem, apply_ite (blank L), ite_self]) | (with_reducible refine ite_frame _ ?_ ?_) | split)
  onRead _ _ _ _ _ := by
    simp only [streamClass]
    repeat' (first | with_reducible rfl | (simp only [countS_frame, emit_frame, modStream_frame, releaseAll_frame, hSys, hWire, hNet, hMem, apply_ite (blank L), ite_self]) | (with_reducible refine ite_frame _ ?_ ?_) | split)
  held h := by
    first
    | (cases h; done)
    | (simp only [streamClass] at h; exact absurd h)
  acts := by
    simp only [streamClass]
    repeat' (first | (exact ActsKeep.nil) | (refine ActsKeep.cons ?_ ?_) | (refine ⟨fun _ _ _ _ => ?_, fun _ => ?_, fun _ _ _ => ?_, fun h9 => ?_⟩) | (cases h9; done) | (injection h9 with h9; subst h9) | with_reducible rfl | (simp only [countS_frame, emit_frame, modStream_frame, releaseAll_frame, hSys, hWire, hNet, hMem, apply_ite (blank L), ite_self]) | (with_reducible refine ite_frame _ ?_ ?_) | split)

theorem gateBoundary_frame (L : Region → Bool) (hWire : L .wire = true) (hNet : L .net = true) (eff : Nat) (overran : Bool) (s : State) :
    blank L (gateBoundary eff overran s) = blank L s := by
  unfold gateBoundary
  repeat' (first | with_reducible rfl | (simp only [emit_frame, modGate_frame, settle_frame, hWire, hNet, apply_ite (blank L), ite_self]) | (with_reducible refine (foldl_pair_frame L _ (fun _ _ => ?_) _ _).trans ?_) | (with_reducible refine (foldl_frame L _ (fun _ _ => ?_) _ _).trans ?_) | (with_reducible refine ite_frame _ ?_ ?_) | split)

theorem ageQueue_frame (L : Region → Bool) (hWire : L .wire = true) (hNet : L .net = true) (q n : Nat) (s : State) :
    blank L (ageQueue q n s) = blank L s := by
  induction n generalizing s with
  | zero => rfl
  | succ n ih =>
    unfold ageQueue
    repeat' (first | with_reducible rfl | (simp only [ih, countQ_frame, emit_frame, modQueue_frame, hWire, hNet, apply_ite (blank L), ite_self]) | (with_reducible refine ite_frame _ ?_ ?_) | split)

theorem selectTx_frame (L : Region → Bool) (hWire : L .wire = true) (hNet : L .net = true) (p : Nat) (s : State) :
    blank L (selectTx p s) = blank L s := by
  unfold selectTx
  repeat' (first | with_reducible rfl | (simp only [ageQueue_frame, modPort_frame, modQueue_frame, settle_frame, hWire, hNet, apply_ite (blank L), ite_self]) | (with_reducible refine (foldl_pair_frame L _ (fun _ _ => ?_) _ _).trans ?_) | (with_reducible refine (foldl_frame L _ (fun _ _ => ?_) _ _).trans ?_) | (with_reducible refine ite_frame _ ?_ ?_) | split)

theorem sentCredit_frame (L : Region → Bool) (hNet : L .net = true) (p c ns : Nat) (s : State) :
    blank L (sentCredit p c ns s) = blank L s := by
  unfold sentCredit
  repeat' (first | with_reducible rfl | (simp only [modQueue_frame, hNet, apply_ite (blank L), ite_self]) | (with_reducible refine ite_frame _ ?_ ?_) | split)

theorem pushTs_frame (L : Region → Bool) (hTide : L .tide = true) (hWire : L .wire = true) (p : Nat) (e : TsEntry) (s : State) :
    blank L (pushTs p e s).2 = blank L s := by
  unfold pushTs
  repeat' (first | with_reducible rfl | (simp only [emit_frame, modTsq_frame, hTide, hWire, apply_ite (blank L), ite_self]) | (with_reducible refine ite_frame _ ?_ ?_) | split)

theorem pushTs_frame_eq (L : Region → Bool) (hTide : L .tide = true) (hWire : L .wire = true) {p : Nat} {e : TsEntry} {s : State} {x9} {t9} (h : pushTs p e s = (x9, t9)) :
    blank L t9 = blank L s := by
  rw [← pushTs_frame L hTide hWire p e s, h]

theorem departure_frame (L : Region → Bool) (hSys : L .sys = true) (hTide : L .tide = true) (hWire : L .wire = true) (hNet : L .net = true) (hMem : L .mem = true) (p : Nat) (x : NetFrame) (f : EthFrame) (s : State) :
    blank L (departure p x f s) = blank L s := by
  unfold departure
  repeat' (first | with_reducible rfl | (with_reducible refine Eq.trans (pushTs_frame_eq L hTide hWire (by with_reducible assumption)) ?_) | (simp only [complete_frame, pushTs_frame, hSys, hTide, hWire, hNet, hMem, apply_ite (blank L), ite_self]) | (with_reducible refine ite_frame _ ?_ ?_) | split)

theorem countTx_frame (L : Region → Bool) (hWire : L .wire = true) (hNet : L .net = true) (p q : Nat) (f : EthFrame) (s : State) :
    blank L (countTx p q f s) = blank L s := by
  unfold countTx
  repeat' (first | with_reducible rfl | (simp only [countPort_frame, countQ_frame, hWire, hNet, apply_ite (blank L), ite_self]) | (with_reducible refine ite_frame _ ?_ ?_) | split)

theorem macsecTx_frame (L : Region → Bool) (hWire : L .wire = true) (hNet : L .net = true) (p : Nat) (f : EthFrame) (s : State) :
    blank L (macsecTx p f s).2 = blank L s := by
  unfold macsecTx
  repeat' (first | with_reducible rfl | (simp only [countPort_frame, emit_frame, modSa_frame, hWire, hNet, apply_ite (blank L), ite_self]) | (with_reducible refine ite_frame _ ?_ ?_) | split)

theorem macsecTx_frame_eq (L : Region → Bool) (hWire : L .wire = true) (hNet : L .net = true) {p : Nat} {f : EthFrame} {s : State} {x9} {t9} (h : macsecTx p f s = (x9, t9)) :
    blank L t9 = blank L s := by
  rw [← macsecTx_frame L hWire hNet p f s, h]

theorem execBasinIngress_frame (L : Region → Bool) (hSys : L .sys = true) (hWire : L .wire = true) (hNet : L .net = true) (hMem : L .mem = true) {full : Bool} {s : State} {t9} (h : execBasinIngress full s = .next t9) :
    blank L t9 = blank L s := by
  unfold execBasinIngress at h
  injection h with h
  subst h
  repeat' (first | with_reducible rfl | (with_reducible refine Eq.trans (enqueueCopy_frame_eq L hWire hNet (by with_reducible assumption)) ?_) | (simp only [admitAll_frame, countG_frame, enqueueCopy_frame, ingressDone_frame, modNet_frame, streamFrame_frame, hSys, hWire, hNet, hMem, apply_ite (blank L), ite_self]) | (with_reducible refine ite_frame _ ?_ ?_) | split)

theorem execTransmissionSelection_frame (L : Region → Bool) (hWire : L .wire = true) (hNet : L .net = true) {p : Nat} {s : State} {t9} (h : execTransmissionSelection p s = .next t9) :
    blank L t9 = blank L s := by
  obtain ⟨-, rfl⟩ := guardUnit_next h
  repeat' (first | with_reducible rfl | (simp only [selectTx_frame, hWire, hNet, apply_ite (blank L), ite_self]) | (with_reducible refine ite_frame _ ?_ ?_) | split)

theorem execShaperCreditRecovery_frame (L : Region → Bool) (hWire : L .wire = true) (hNet : L .net = true) {p c : Nat} {s : State} {t9} (h : execShaperCreditRecovery p c s = .next t9) :
    blank L t9 = blank L s := by
  obtain ⟨-, rfl⟩ := guardUnit_next h
  repeat' (first | with_reducible rfl | (simp only [selectTx_frame, settle_frame, hWire, hNet, apply_ite (blank L), ite_self]) | (with_reducible refine ite_frame _ ?_ ?_) | split)

theorem execEthFrameTransmit_frame (L : Region → Bool) (hSys : L .sys = true) (hTide : L .tide = true) (hWire : L .wire = true) (hDetect : L .detect = true) (hAq : L .aq = true) (hNet : L .net = true) (hTow : L .tow = true) (hMem : L .mem = true) {p collisions : Nat} {ecc : Bool} {s : State} {t9} (h : execEthFrameTransmit p collisions ecc s = .next t9) :
    blank L t9 = blank L s := by
  obtain ⟨-, rfl⟩ := guardUnit_next h
  repeat' (first | with_reducible rfl | (with_reducible refine Eq.trans (macsecTx_frame_eq L hWire hNet (by with_reducible assumption)) ?_) | (simp only [countPort_frame, countQ_frame, countTx_frame, departure_frame, detect_frame, macsecTx_frame, modAq_frame, modPort_frame, sentCredit_frame, settle_frame, towEth_frame, hSys, hTide, hWire, hDetect, hAq, hNet, hTow, hMem, apply_ite (blank L), ite_self]) | (with_reducible refine ite_frame _ ?_ ?_) | split)

theorem execGateIntervalEnd_frame (L : Region → Bool) (hNet : L .net = true) {p : Nat} {s : State} {t9} (h : execGateIntervalEnd p s = .next t9) :
    blank L t9 = blank L s := by
  obtain ⟨-, rfl⟩ := guardUnit_next h
  repeat' (first | with_reducible rfl | (simp only [modGate_frame, settle_frame, hNet, apply_ite (blank L), ite_self]) | (with_reducible refine ite_frame _ ?_ ?_) | split)

theorem fetchBack_frame (L : Region → Bool) (hNet : L .net = true) (q n : Nat) (s : State) :
    blank L (fetchBack q n s) = blank L s := by
  induction n generalizing s with
  | zero => rfl
  | succ n ih =>
    unfold fetchBack
    repeat' (first | with_reducible rfl | (simp only [ih, modQueue_frame, hNet, apply_ite (blank L), ite_self]) | (with_reducible refine ite_frame _ ?_ ?_) | split)

theorem execOverflowFetchBack_frame (L : Region → Bool) (hWire : L .wire = true) (hNet : L .net = true) {q : Nat} {s : State} {t9} (h : execOverflowFetchBack q s = .next t9) :
    blank L t9 = blank L s := by
  obtain ⟨-, rfl⟩ := guardUnit_next h
  repeat' (first | with_reducible rfl | (simp only [fetchBack_frame, ovfReport_frame, hWire, hNet, apply_ite (blank L), ite_self]) | (with_reducible refine ite_frame _ ?_ ?_) | split)

theorem execStreamRecoveryReset_frame (L : Region → Bool) (hWire : L .wire = true) (hNet : L .net = true) {i : Nat} {s : State} {t9} (h : execStreamRecoveryReset i s = .next t9) :
    blank L t9 = blank L s := by
  obtain ⟨-, rfl⟩ := guardUnit_next h
  repeat' (first | with_reducible rfl | (simp only [countS_frame, emit_frame, modStream_frame, hWire, hNet, apply_ite (blank L), ite_self]) | (with_reducible refine ite_frame _ ?_ ?_) | split)

theorem execResequencerTimeout_frame (L : Region → Bool) (hSys : L .sys = true) (hWire : L .wire = true) (hNet : L .net = true) (hMem : L .mem = true) {i : Nat} {s : State} {t9} (h : execResequencerTimeout i s = .next t9) :
    blank L t9 = blank L s := by
  obtain ⟨-, rfl⟩ := guardUnit_next h
  repeat' (first | with_reducible rfl | (simp only [releaseAll_frame, hSys, hWire, hNet, hMem, apply_ite (blank L), ite_self]) | (with_reducible refine ite_frame _ ?_ ?_) | split)

theorem execBasinSet_frame (L : Region → Bool) (hStaged : L .staged = true) (hFv : L .fv = true) (hWire : L .wire = true) (hDetect : L .detect = true) (hTp : L .tp = true) (hNm : L .nm = true) (hNet : L .net = true) (hTow : L .tow = true) {r : Req} {s : State} {t9} (h : execBasinSet r s = .next t9) :
    blank L t9 = blank L s := by
  unfold execBasinSet at h
  injection h with h
  subst h
  repeat' (first | with_reducible rfl | (refine Eq.trans (cmdSet_frame L hStaged hFv hWire hDetect hTp hNm hTow (basinClass_keeps L hNet) _ _) ?_) | (simp only [hStaged, hFv, hWire, hDetect, hTp, hNm, hNet, hTow, apply_ite (blank L), ite_self]) | (with_reducible refine ite_frame _ ?_ ?_) | split)

theorem execBasinClearCounters_frame (L : Region → Bool) (hStaged : L .staged = true) (hFv : L .fv = true) (hWire : L .wire = true) (hDetect : L .detect = true) (hTp : L .tp = true) (hNm : L .nm = true) (hNet : L .net = true) (hTow : L .tow = true) {r : Req} {s : State} {t9} (h : execBasinClearCounters r s = .next t9) :
    blank L t9 = blank L s := by
  unfold execBasinClearCounters at h
  injection h with h
  subst h
  repeat' (first | with_reducible rfl | (refine Eq.trans (cmdAct_frame L hStaged hFv hWire hDetect hTp hNm hTow (basinClass_keeps L hNet) _ _ _) ?_) | (simp only [hStaged, hFv, hWire, hDetect, hTp, hNm, hNet, hTow, apply_ite (blank L), ite_self]) | (with_reducible refine ite_frame _ ?_ ?_) | split)

theorem execStreamSet_frame (L : Region → Bool) (hSys : L .sys = true) (hStaged : L .staged = true) (hFv : L .fv = true) (hWire : L .wire = true) (hDetect : L .detect = true) (hTp : L .tp = true) (hNm : L .nm = true) (hNet : L .net = true) (hTow : L .tow = true) (hMem : L .mem = true) {r : Req} {s : State} {t9} (h : execStreamSet r s = .next t9) :
    blank L t9 = blank L s := by
  unfold execStreamSet at h
  injection h with h
  subst h
  repeat' (first | with_reducible rfl | (refine Eq.trans (cmdSet_frame L hStaged hFv hWire hDetect hTp hNm hTow (streamClass_keeps L hSys hWire hNet hMem) _ _) ?_) | (simp only [hSys, hStaged, hFv, hWire, hDetect, hTp, hNm, hNet, hTow, hMem, apply_ite (blank L), ite_self]) | (with_reducible refine ite_frame _ ?_ ?_) | split)

theorem execStreamUnblock_frame (L : Region → Bool) (hSys : L .sys = true) (hStaged : L .staged = true) (hFv : L .fv = true) (hWire : L .wire = true) (hDetect : L .detect = true) (hTp : L .tp = true) (hNm : L .nm = true) (hNet : L .net = true) (hTow : L .tow = true) (hMem : L .mem = true) {r : Req} {s : State} {t9} (h : execStreamUnblock r s = .next t9) :
    blank L t9 = blank L s := by
  unfold execStreamUnblock at h
  injection h with h
  subst h
  repeat' (first | with_reducible rfl | (refine Eq.trans (cmdAct_frame L hStaged hFv hWire hDetect hTp hNm hTow (streamClass_keeps L hSys hWire hNet hMem) _ _ _) ?_) | (simp only [hSys, hStaged, hFv, hWire, hDetect, hTp, hNm, hNet, hTow, hMem, apply_ite (blank L), ite_self]) | (with_reducible refine ite_frame _ ?_ ?_) | split)

theorem execStreamClearCounters_frame (L : Region → Bool) (hSys : L .sys = true) (hStaged : L .staged = true) (hFv : L .fv = true) (hWire : L .wire = true) (hDetect : L .detect = true) (hTp : L .tp = true) (hNm : L .nm = true) (hNet : L .net = true) (hTow : L .tow = true) (hMem : L .mem = true) {r : Req} {s : State} {t9} (h : execStreamClearCounters r s = .next t9) :
    blank L t9 = blank L s := by
  unfold execStreamClearCounters at h
  injection h with h
  subst h
  repeat' (first | with_reducible rfl | (refine Eq.trans (cmdAct_frame L hStaged hFv hWire hDetect hTp hNm hTow (streamClass_keeps L hSys hWire hNet hMem) _ _ _) ?_) | (simp only [hSys, hStaged, hFv, hWire, hDetect, hTp, hNm, hNet, hTow, hMem, apply_ite (blank L), ite_self]) | (with_reducible refine ite_frame _ ?_ ?_) | split)

theorem execStreamResetSeq_frame (L : Region → Bool) (hSys : L .sys = true) (hStaged : L .staged = true) (hFv : L .fv = true) (hWire : L .wire = true) (hDetect : L .detect = true) (hTp : L .tp = true) (hNm : L .nm = true) (hNet : L .net = true) (hTow : L .tow = true) (hMem : L .mem = true) {r : Req} {s : State} {t9} (h : execStreamResetSeq r s = .next t9) :
    blank L t9 = blank L s := by
  unfold execStreamResetSeq at h
  injection h with h
  subst h
  repeat' (first | with_reducible rfl | (refine Eq.trans (cmdAct_frame L hStaged hFv hWire hDetect hTp hNm hTow (streamClass_keeps L hSys hWire hNet hMem) _ _ _) ?_) | (simp only [hSys, hStaged, hFv, hWire, hDetect, hTp, hNm, hNet, hTow, hMem, apply_ite (blank L), ite_self]) | (with_reducible refine ite_frame _ ?_ ?_) | split)

theorem nextHost_frame (L : Region → Bool) (hNet : L .net = true) {s : State} {x9 : Nat} {t9 : State} (h : nextHost s = some (x9, t9)) :
    blank L t9 = blank L s := by
  unfold nextHost at h
  dsimp only at h
  split at h
  · cases h
    rfl
  · split at h
    · cases h
    · cases h
      exact modNet_frame L hNet _ _

theorem execHostPortDelivery_frame (L : Region → Bool) (hSys : L .sys = true) (hWire : L .wire = true) (hNet : L .net = true) (hMem : L .mem = true) {s : State} {t9} (h : execHostPortDelivery s = .next t9) :
    blank L t9 = blank L s := by
  unfold execHostPortDelivery at h
  injection h with h
  subst h
  repeat' (first | with_reducible rfl | (with_reducible refine Eq.trans (nextHost_frame L hNet (by with_reducible assumption)) ?_) | (simp only [complete_frame, countG_frame, deliverRing_frame, modHostq_frame, modNet_frame, hSys, hWire, hNet, hMem, apply_ite (blank L), ite_self]) | (with_reducible refine ite_frame _ ?_ ?_) | split)

end Sys2Proof.Machine
end

