-- ==== Sys2Proof/Laws/FrameAqueduct.lean ====
section
/-! SUPPORT. Frame lemmas of Machine/Aqueduct.lean: what each operation leaves alone. -/
set_option linter.unusedSimpArgs false
set_option linter.unusedVariables false
namespace Sys2Proof.Machine

theorem routeHalf_frame (L : Region → Bool) (hWire : L .wire = true) (inst k : Nat) (half : Bool) (s : State) :
    blank L (routeHalf inst k half s) = blank L s := by
  unfold routeHalf
  repeat' (first | with_reducible rfl | (simp only [emit_frame, hWire, apply_ite (blank L), ite_self]) | (with_reducible refine ite_frame _ ?_ ?_) | split)

theorem countA_frame (L : Region → Bool) (hWire : L .wire = true) (hAq : L .aq = true) (k n : Nat) (s : State) :
    blank L (countA k n s) = blank L s := by
  unfold countA
  repeat' (first | with_reducible rfl | (simp only [modAq_frame, routeHalf_frame, hWire, hAq, apply_ite (blank L), ite_self]) | (with_reducible refine ite_frame _ ?_ ?_) | split)

theorem countTalker_frame (L : Region → Bool) (hWire : L .wire = true) (hAq : L .aq = true) (i k n : Nat) (s : State) :
    blank L (countTalker i k n s) = blank L s := by
  unfold countTalker
  repeat' (first | with_reducible rfl | (simp only [modTalker_frame, routeHalf_frame, hWire, hAq, apply_ite (blank L), ite_self]) | (with_reducible refine ite_frame _ ?_ ?_) | split)

theorem countListener_frame (L : Region → Bool) (hWire : L .wire = true) (hAq : L .aq = true) (i k n : Nat) (s : State) :
    blank L (countListener i k n s) = blank L s := by
  unfold countListener
  repeat' (first | with_reducible rfl | (simp only [modListener_frame, routeHalf_frame, hWire, hAq, apply_ite (blank L), ite_self]) | (with_reducible refine ite_frame _ ?_ ?_) | split)

theorem countCtx_frame (L : Region → Bool) (hWire : L .wire = true) (hAq : L .aq = true) (i k : Nat) (s : State) :
    blank L (countCtx i k s) = blank L s := by
  unfold countCtx
  repeat' (first | with_reducible rfl | (simp only [modCtx_frame, routeHalf_frame, hWire, hAq, apply_ite (blank L), ite_self]) | (with_reducible refine ite_frame _ ?_ ?_) | split)

theorem countRoute_frame (L : Region → Bool) (hWire : L .wire = true) (hAq : L .aq = true) (i k : Nat) (s : State) :
    blank L (countRoute i k s) = blank L s := by
  unfold countRoute
  repeat' (first | with_reducible rfl | (simp only [modRoute_frame, routeHalf_frame, hWire, hAq, apply_ite (blank L), ite_self]) | (with_reducible refine ite_frame _ ?_ ?_) | split)

theorem offerCan_frame (L : Region → Bool) (hWire : L .wire = true) (hCan : L .can = true) (hAq : L .aq = true) (idx : Nat) (d : Dest) (a : AqFrame) (s : State) :
    blank L (offerCan idx d a s) = blank L s := by
  unfold offerCan
  repeat' (first | with_reducible rfl | (simp only [countA_frame, enqueueCan_frame, modCanCh_frame, hWire, hCan, hAq, apply_ite (blank L), ite_self]) | (with_reducible refine ite_frame _ ?_ ?_) | split)

theorem stageWrite_frame (L : Region → Bool) (hStaged : L .staged = true) (cls inst : Nat) (b : List Byte) (s : State) :
    blank L (stageWrite cls inst b s) = blank L s := by
  unfold stageWrite
  repeat' (first | with_reducible rfl | ((with_reducible refine Eq.trans (modCyc_part L _ _ ?_) ?_); (next => exact fun _ => by simp only [blankCyc, hStaged, if_true])) | (simp only [hStaged, apply_ite (blank L), ite_self]) | (with_reducible refine ite_frame _ ?_ ?_) | split)

theorem offerSched_frame (L : Region → Bool) (hStaged : L .staged = true) (hWire : L .wire = true) (hAq : L .aq = true) (d : Dest) (a : AqFrame) (s : State) :
    blank L (offerSched d a s) = blank L s := by
  unfold offerSched
  repeat' (first | with_reducible rfl | (simp only [countA_frame, stageWrite_frame, hStaged, hWire, hAq, apply_ite (blank L), ite_self]) | (with_reducible refine ite_frame _ ?_ ?_) | split)

theorem offerLin_frame (L : Region → Bool) (hStaged : L .staged = true) (d : Dest) (a : AqFrame) (s : State) :
    blank L (offerLin d a s) = blank L s := by
  unfold offerLin
  repeat' (first | with_reducible rfl | (simp only [stageWrite_frame, hStaged, apply_ite (blank L), ite_self]) | (with_reducible refine ite_frame _ ?_ ?_) | split)

theorem poundDrop_frame (L : Region → Bool) (hWire : L .wire = true) (hAq : L .aq = true) (p : Nat) (full : Bool) (s : State) :
    blank L (poundDrop p full s) = blank L s := by
  unfold poundDrop
  repeat' (first | with_reducible rfl | (simp only [countA_frame, emit_frame, modAq_frame, hWire, hAq, apply_ite (blank L), ite_self]) | (with_reducible refine ite_frame _ ?_ ?_) | split)

theorem drainRx_frame (L : Region → Bool) (hSys : L .sys = true) (hWire : L .wire = true) (hAq : L .aq = true) (hNet : L .net = true) (hMem : L .mem = true) (p q n : Nat) (s : State) :
    blank L (drainRx p q n s) = blank L s := by
  induction n generalizing s with
  | zero => rfl
  | succ n ih =>
    unfold drainRx
    repeat' (first | with_reducible rfl | (simp only [ih, modAq_frame, modHring_frame, poundDrop_frame, writeBack_frame, hSys, hWire, hAq, hNet, hMem, apply_ite (blank L), ite_self]) | (with_reducible refine ite_frame _ ?_ ?_) | split)

theorem drainQueue_frame (L : Region → Bool) (hSys : L .sys = true) (hWire : L .wire = true) (hAq : L .aq = true) (hNet : L .net = true) (hMem : L .mem = true) (p q : Nat) (s : State) :
    blank L (drainQueue p q s) = blank L s := by
  unfold drainQueue
  repeat' (first | with_reducible rfl | (simp only [drainRx_frame, hSys, hWire, hAq, hNet, hMem, apply_ite (blank L), ite_self]) | (with_reducible refine ite_frame _ ?_ ?_) | split)

theorem offerPound_frame (L : Region → Bool) (hSys : L .sys = true) (hWire : L .wire = true) (hAq : L .aq = true) (hNet : L .net = true) (hMem : L .mem = true) (d : Dest) (a : AqFrame) (s : State) :
    blank L (offerPound d a s) = blank L s := by
  unfold offerPound
  repeat' (first | with_reducible rfl | (simp only [countA_frame, drainQueue_frame, modAq_frame, poundDrop_frame, hSys, hWire, hAq, hNet, hMem, apply_ite (blank L), ite_self]) | (with_reducible refine ite_frame _ ?_ ?_) | split)

theorem offerTunnel_frame (L : Region → Bool) (hWire : L .wire = true) (hAq : L .aq = true) (d : Dest) (a : AqFrame) (s : State) :
    blank L (offerTunnel d a s) = blank L s := by
  unfold offerTunnel
  repeat' (first | with_reducible rfl | (simp only [countTalker_frame, emit_frame, modTalker_frame, hWire, hAq, apply_ite (blank L), ite_self]) | (with_reducible refine ite_frame _ ?_ ?_) | split)

theorem sendAvtpdu_frame (L : Region → Bool) (hWire : L .wire = true) (hAq : L .aq = true) (hNet : L .net = true) (i : Nat) (acf : List Byte) (s : State) :
    blank L (sendAvtpdu i acf s) = blank L s := by
  unfold sendAvtpdu
  repeat' (first | with_reducible rfl | (simp only [countTalker_frame, modTalker_frame, toBasin_frame, hWire, hAq, hNet, apply_ite (blank L), ite_self]) | (with_reducible refine ite_frame _ ?_ ?_) | split)

theorem flushBatch_frame (L : Region → Bool) (hWire : L .wire = true) (hAq : L .aq = true) (hNet : L .net = true) (i : Nat) (l : List (List Byte)) (s : State) :
    blank L (flushBatch i l s) = blank L s := by
  unfold flushBatch
  repeat' (first | with_reducible rfl | (simp only [countTalker_frame, sendAvtpdu_frame, hWire, hAq, hNet, apply_ite (blank L), ite_self]) | (with_reducible refine (foldl_pair_frame L _ (fun _ _ => ?_) _ _).trans ?_) | (with_reducible refine (foldl_frame L _ (fun _ _ => ?_) _ _).trans ?_) | (with_reducible refine ite_frame _ ?_ ?_) | split)

theorem flushTalkers_frame (L : Region → Bool) (hWire : L .wire = true) (hAq : L .aq = true) (hNet : L .net = true) (overran : Bool) (s : State) :
    blank L (flushTalkers overran s) = blank L s := by
  unfold flushTalkers
  repeat' (first | with_reducible rfl | (simp only [flushBatch_frame, modTalker_frame, hWire, hAq, hNet, apply_ite (blank L), ite_self]) | (with_reducible refine (foldl_pair_frame L _ (fun _ _ => ?_) _ _).trans ?_) | (with_reducible refine (foldl_frame L _ (fun _ _ => ?_) _ _).trans ?_) | (with_reducible refine ite_frame _ ?_ ?_) | split)

theorem offerTow_frame (L : Region → Bool) (hWire : L .wire = true) (hAq : L .aq = true) (hTow : L .tow = true) (d : Dest) (a : AqFrame) (s : State) :
    blank L (offerTow d a s) = blank L s := by
  unfold offerTow
  repeat' (first | with_reducible rfl | (with_reducible refine Eq.trans (towSend_frame_eq L hWire hTow (by with_reducible assumption)) ?_) | (simp only [countA_frame, towSend_frame, hWire, hAq, hTow, apply_ite (blank L), ite_self]) | (with_reducible refine ite_frame _ ?_ ?_) | split)

theorem offerNow_frame (L : Region → Bool) (hSys : L .sys = true) (hStaged : L .staged = true) (hWire : L .wire = true) (hCan : L .can = true) (hAq : L .aq = true) (hNet : L .net = true) (hTow : L .tow = true) (hMem : L .mem = true) (idx : Nat) (d : Dest) (a : AqFrame) (s : State) :
    blank L (offerNow idx d a s) = blank L s := by
  unfold offerNow
  repeat' (first | with_reducible rfl | (simp only [offerCan_frame, offerLin_frame, offerPound_frame, offerSched_frame, offerTow_frame, offerTunnel_frame, hSys, hStaged, hWire, hCan, hAq, hNet, hTow, hMem, apply_ite (blank L), ite_self]) | (with_reducible refine ite_frame _ ?_ ?_) | split)

theorem offer_frame (L : Region → Bool) (hSys : L .sys = true) (hStaged : L .staged = true) (hWire : L .wire = true) (hCan : L .can = true) (hAq : L .aq = true) (hNet : L .net = true) (hTow : L .tow = true) (hMem : L .mem = true) (idx : Nat) (d : Dest) (a : AqFrame) (s : State) :
    blank L (offer idx d a s) = blank L s := by
  unfold offer
  repeat' (first | with_reducible rfl | (simp only [modAq_frame, offerNow_frame, hSys, hStaged, hWire, hCan, hAq, hNet, hTow, hMem, apply_ite (blank L), ite_self]) | (with_reducible refine ite_frame _ ?_ ?_) | split)

theorem presentOffers_frame (L : Region → Bool) (hSys : L .sys = true) (hStaged : L .staged = true) (hWire : L .wire = true) (hCan : L .can = true) (hAq : L .aq = true) (hNet : L .net = true) (hTow : L .tow = true) (hMem : L .mem = true) (s : State) :
    blank L (presentOffers s) = blank L s := by
  unfold presentOffers
  repeat' (first | with_reducible rfl | (simp only [modAq_frame, offerNow_frame, hSys, hStaged, hWire, hCan, hAq, hNet, hTow, hMem, apply_ite (blank L), ite_self]) | (with_reducible refine (foldl_pair_frame L _ (fun _ _ => ?_) _ _).trans ?_) | (with_reducible refine (foldl_frame L _ (fun _ _ => ?_) _ _).trans ?_) | (with_reducible refine ite_frame _ ?_ ?_) | split)

theorem followChain_frame (L : Region → Bool) (hSys : L .sys = true) (hStaged : L .staged = true) (hWire : L .wire = true) (hCan : L .can = true) (hAq : L .aq = true) (hNet : L .net = true) (hTow : L .tow = true) (hMem : L .mem = true) (idx : Nat) (only : Bool) (a : AqFrame) (n e : Nat) (s : State) :
    blank L (followChain idx only a n e s) = blank L s := by
  induction n generalizing e s with
  | zero => rfl
  | succ n ih =>
    unfold followChain
    repeat' (first | with_reducible rfl | (simp only [ih, countA_frame, emit_frame, offer_frame, hSys, hStaged, hWire, hCan, hAq, hNet, hTow, hMem, apply_ite (blank L), ite_self]) | (with_reducible refine (foldl_pair_frame L _ (fun _ _ => ?_) _ _).trans ?_) | (with_reducible refine (foldl_frame L _ (fun _ _ => ?_) _ _).trans ?_) | (with_reducible refine ite_frame _ ?_ ?_) | split)

theorem deliverRoute_frame (L : Region → Bool) (hSys : L .sys = true) (hStaged : L .staged = true) (hWire : L .wire = true) (hCan : L .can = true) (hAq : L .aq = true) (hNet : L .net = true) (hTow : L .tow = true) (hMem : L .mem = true) (idx : Nat) (a : AqFrame) (s : State) :
    blank L (deliverRoute idx a s) = blank L s := by
  unfold deliverRoute
  repeat' (first | with_reducible rfl | (simp only [countRoute_frame, followChain_frame, hSys, hStaged, hWire, hCan, hAq, hNet, hTow, hMem, apply_ite (blank L), ite_self]) | (with_reducible refine ite_frame _ ?_ ?_) | split)

theorem takeToken_frame (L : Region → Bool) (hWire : L .wire = true) (hAq : L .aq = true) (idx : Nat) (s : State) :
    blank L (takeToken idx s).2 = blank L s := by
  unfold takeToken
  repeat' (first | with_reducible rfl | (simp only [countA_frame, countRoute_frame, emit_frame, modRoute_frame, hWire, hAq, apply_ite (blank L), ite_self]) | (with_reducible refine ite_frame _ ?_ ?_) | split)

theorem takeToken_frame_eq (L : Region → Bool) (hWire : L .wire = true) (hAq : L .aq = true) {idx : Nat} {s : State} {x9} {t9} (h : takeToken idx s = (x9, t9)) :
    blank L t9 = blank L s := by
  rw [← takeToken_frame L hWire hAq idx s, h]

theorem authFailed_frame (L : Region → Bool) (hSys : L .sys = true) (hStaged : L .staged = true) (hWire : L .wire = true) (hCan : L .can = true) (hAq : L .aq = true) (hNet : L .net = true) (hTow : L .tow = true) (hMem : L .mem = true) (idx i : Nat) (a : AqFrame) (s : State) :
    blank L (authFailed idx i a s) = blank L s := by
  unfold authFailed
  repeat' (first | with_reducible rfl | (simp only [countCtx_frame, countRoute_frame, emit_frame, followChain_frame, hSys, hStaged, hWire, hCan, hAq, hNet, hTow, hMem, apply_ite (blank L), ite_self]) | (with_reducible refine ite_frame _ ?_ ?_) | split)

theorem setFv_frame (L : Region → Bool) (hAq : L .aq = true) (i v : Nat) (s : State) :
    blank L (setFv i v s) = blank L s := by
  unfold setFv
  repeat' (first | with_reducible rfl | (simp only [modCtx_frame, hAq, apply_ite (blank L), ite_self]) | (with_reducible refine ite_frame _ ?_ ?_) | split)

theorem pushCmac_frame (L : Region → Bool) (hAq : L .aq = true) (act : Nat) (a : AqFrame) (s : State) :
    blank L (pushCmac act a s) = blank L s := by
  simp only [pushCmac, modAq_frame, hAq]

theorem deliverTurn_frame (L : Region → Bool) (hSys : L .sys = true) (hStaged : L .staged = true) (hWire : L .wire = true) (hCan : L .can = true) (hAq : L .aq = true) (hNet : L .net = true) (hTow : L .tow = true) (hMem : L .mem = true) (idx : Nat) (a : AqFrame) (s : State) :
    blank L (deliverTurn idx a s) = blank L s := by
  unfold deliverTurn
  repeat' (first | with_reducible rfl | (simp only [deliverRoute_frame, pushCmac_frame, hSys, hStaged, hWire, hCan, hAq, hNet, hTow, hMem, apply_ite (blank L), ite_self]) | (with_reducible refine ite_frame _ ?_ ?_) | split)

theorem authStart_frame (L : Region → Bool) (hSys : L .sys = true) (hStaged : L .staged = true) (hWire : L .wire = true) (hCan : L .can = true) (hAq : L .aq = true) (hNet : L .net = true) (hTow : L .tow = true) (hMem : L .mem = true) (idx i : Nat) (a : AqFrame) (s : State) :
    blank L (authStart idx i a s) = blank L s := by
  unfold authStart
  repeat' (first | with_reducible rfl | (simp only [authFailed_frame, countA_frame, countRoute_frame, deliverTurn_frame, pushCmac_frame, hSys, hStaged, hWire, hCan, hAq, hNet, hTow, hMem, apply_ite (blank L), ite_self]) | (with_reducible refine ite_frame _ ?_ ?_) | split)

theorem authDone_frame (L : Region → Bool) (hSys : L .sys = true) (hStaged : L .staged = true) (hWire : L .wire = true) (hCan : L .can = true) (hAq : L .aq = true) (hNet : L .net = true) (hTow : L .tow = true) (hLight : L .light = true) (hMem : L .mem = true) (idx i : Nat) (a : AqFrame) (s : State) :
    blank L (authDone idx i a s) = blank L s := by
  unfold authDone
  repeat' (first | with_reducible rfl | (simp only [authFailed_frame, countCtx_frame, countRoute_frame, deliverRoute_frame, emit_frame, keyUse_frame, modCtx_frame, setFv_frame, hSys, hStaged, hWire, hCan, hAq, hNet, hTow, hLight, hMem, apply_ite (blank L), ite_self]) | (with_reducible refine ite_frame _ ?_ ?_) | split)

theorem arrive_frame (L : Region → Bool) (hSys : L .sys = true) (hStaged : L .staged = true) (hWire : L .wire = true) (hCan : L .can = true) (hAq : L .aq = true) (hNet : L .net = true) (hTow : L .tow = true) (hMem : L .mem = true) (a : AqFrame) (s : State) :
    blank L (arrive a s) = blank L s := by
  unfold arrive
  repeat' (first | with_reducible rfl | (with_reducible refine Eq.trans (takeToken_frame_eq L hWire hAq (by with_reducible assumption)) ?_) | (simp only [authStart_frame, countA_frame, countRoute_frame, deliverTurn_frame, takeToken_frame, hSys, hStaged, hWire, hCan, hAq, hNet, hTow, hMem, apply_ite (blank L), ite_self]) | (with_reducible refine ite_frame _ ?_ ?_) | split)

theorem takeTurn_frame (L : Region → Bool) (hSys : L .sys = true) (hStaged : L .staged = true) (hWire : L .wire = true) (hCan : L .can = true) (hAq : L .aq = true) (hNet : L .net = true) (hTow : L .tow = true) (hLight : L .light = true) (hMem : L .mem = true) (q : CmacReq) (s : State) :
    blank L (takeTurn q s) = blank L s := by
  unfold takeTurn
  repeat' (first | with_reducible rfl | (simp only [authDone_frame, authFailed_frame, deliverRoute_frame, hSys, hStaged, hWire, hCan, hAq, hNet, hTow, hLight, hMem, apply_ite (blank L), ite_self]) | (with_reducible refine ite_frame _ ?_ ?_) | split)

theorem settleTurns_frame (L : Region → Bool) (hSys : L .sys = true) (hStaged : L .staged = true) (hWire : L .wire = true) (hCan : L .can = true) (hAq : L .aq = true) (hNet : L .net = true) (hTow : L .tow = true) (hLight : L .light = true) (hMem : L .mem = true) (l : List CmacReq) (s : State) :
    blank L (settleTurns l s).2 = blank L s := by
  unfold settleTurns
  repeat' (first | with_reducible rfl | (simp only [takeTurn_frame, hSys, hStaged, hWire, hCan, hAq, hNet, hTow, hLight, hMem, apply_ite (blank L), ite_self]) | (with_reducible refine (foldl_pair_frame L _ (fun _ _ => ?_) _ _).trans ?_) | (with_reducible refine (foldl_frame L _ (fun _ _ => ?_) _ _).trans ?_) | (with_reducible refine ite_frame _ ?_ ?_) | split)

theorem settleTurns_frame_eq (L : Region → Bool) (hSys : L .sys = true) (hStaged : L .staged = true) (hWire : L .wire = true) (hCan : L .can = true) (hAq : L .aq = true) (hNet : L .net = true) (hTow : L .tow = true) (hLight : L .light = true) (hMem : L .mem = true) {l : List CmacReq} {s : State} {x9} {t9} (h : settleTurns l s = (x9, t9)) :
    blank L t9 = blank L s := by
  rw [← settleTurns_frame L hSys hStaged hWire hCan hAq hNet hTow hLight hMem l s, h]

theorem parseAcf_frame (L : Region → Bool) (hWire : L .wire = true) (hAq : L .aq = true) (l sec ns n : Nat) (b : List Byte) (s : State) :
    blank L (parseAcf l sec ns n b s) = blank L s := by
  induction n generalizing b s with
  | zero => rfl
  | succ n ih =>
    unfold parseAcf
    repeat' (first | with_reducible rfl | (simp only [ih, countListener_frame, modAq_frame, hWire, hAq, apply_ite (blank L), ite_self]) | (with_reducible refine ite_frame _ ?_ ?_) | split)

theorem avtpdu_frame (L : Region → Bool) (hWire : L .wire = true) (hAq : L .aq = true) (b : List Byte) (s : State) :
    blank L (avtpdu b s) = blank L s := by
  unfold avtpdu
  repeat' (first | with_reducible rfl | (simp only [countA_frame, countListener_frame, emit_frame, modListener_frame, parseAcf_frame, hWire, hAq, apply_ite (blank L), ite_self]) | (with_reducible refine ite_frame _ ?_ ?_) | split)

theorem routeRec_keeps (L : Region → Bool) (hAq : L .aq = true) (i : Nat) : FldsKeep L (routeRec i).flds := by
  unfold routeRec
  repeat' (first | (refine FldsKeep.lift (fun _ _ => ?_)) | (refine FldsKeep.append ?_ ?_) | (refine FldsKeep.flatMap (fun _ => ?_)) | (refine FldsKeep.map (fun _ => ?_)) | (refine FldsKeep.cons ?_ ?_) | (exact FldsKeep.nil) | (exact fun _ _ => rfl) | (intro n9 s9) | (simp only [modRoute_frame, hAq, apply_ite (blank L), ite_self]))

theorem talkerRec_keeps (L : Region → Bool) (hAq : L .aq = true) (i : Nat) : FldsKeep L (talkerRec i).flds := by
  unfold talkerRec
  repeat' (first | (refine FldsKeep.lift (fun _ _ => ?_)) | (refine FldsKeep.append ?_ ?_) | (refine FldsKeep.flatMap (fun _ => ?_)) | (refine FldsKeep.map (fun _ => ?_)) | (refine FldsKeep.cons ?_ ?_) | (exact FldsKeep.nil) | (exact fun _ _ => rfl) | (intro n9 s9) | (simp only [modTalker_frame, hAq, apply_ite (blank L), ite_self]))

theorem listenerRec_keeps (L : Region → Bool) (hAq : L .aq = true) (i : Nat) : FldsKeep L (listenerRec i).flds := by
  unfold listenerRec
  repeat' (first | (refine FldsKeep.lift (fun _ _ => ?_)) | (refine FldsKeep.append ?_ ?_) | (refine FldsKeep.flatMap (fun _ => ?_)) | (refine FldsKeep.map (fun _ => ?_)) | (refine FldsKeep.cons ?_ ?_) | (exact FldsKeep.nil) | (exact fun _ _ => rfl) | (intro n9 s9) | (simp only [modListener_frame, hAq, apply_ite (blank L), ite_self]))

theorem busSrcRec_keeps (L : Region → Bool) (hAq : L .aq = true) (i : Nat) : FldsKeep L (busSrcRec i).flds := by
  unfold busSrcRec
  repeat' (first | (refine FldsKeep.lift (fun _ _ => ?_)) | (refine FldsKeep.append ?_ ?_) | (refine FldsKeep.flatMap (fun _ => ?_)) | (refine FldsKeep.map (fun _ => ?_)) | (refine FldsKeep.cons ?_ ?_) | (exact FldsKeep.nil) | (exact fun _ _ => rfl) | (intro n9 s9) | (simp only [modBusSrc_frame, hAq, apply_ite (blank L), ite_self]))

theorem ctxRec_keeps (L : Region → Bool) (hAq : L .aq = true) (i : Nat) : FldsKeep L (ctxRec i).flds := by
  unfold ctxRec
  repeat' (first | (refine FldsKeep.lift (fun _ _ => ?_)) | (refine FldsKeep.append ?_ ?_) | (refine FldsKeep.flatMap (fun _ => ?_)) | (refine FldsKeep.map (fun _ => ?_)) | (refine FldsKeep.cons ?_ ?_) | (exact FldsKeep.nil) | (exact fun _ _ => rfl) | (intro n9 s9) | (simp only [modCtx_frame, hAq, apply_ite (blank L), ite_self]))

theorem aqCtrRec_keeps (L : Region → Bool)   : FldsKeep L (aqCtrRec ).flds := by
  unfold aqCtrRec
  repeat' (first | (refine FldsKeep.lift (fun _ _ => ?_)) | (refine FldsKeep.append ?_ ?_) | (refine FldsKeep.flatMap (fun _ => ?_)) | (refine FldsKeep.map (fun _ => ?_)) | (refine FldsKeep.cons ?_ ?_) | (exact FldsKeep.nil) | (exact fun _ _ => rfl) | (intro n9 s9) | (simp only [apply_ite (blank L), ite_self]))

theorem routeRecord_keeps (L : Region → Bool) (hAq : L .aq = true) {i part : Nat} {rc : Rec} (h : routeRecord i part = some rc) : FldsKeep L rc.flds := by
  unfold routeRecord at h
  repeat' (split at h)
  all_goals first | (cases h; done) | (injection h with h; subst h; first | (exact FldsKeep.nil) | (with_reducible exact aqCtrRec_keeps L  ) | (with_reducible exact talkerRec_keeps L hAq _) | (with_reducible exact ctxRec_keeps L hAq _) | (with_reducible exact listenerRec_keeps L hAq _) | (with_reducible exact routeRec_keeps L hAq _) | (with_reducible exact busSrcRec_keeps L hAq _))

theorem routeAfter_frame (L : Region → Bool) (hAq : L .aq = true) (x0 : State) (i x1 : Nat) (ws : List (Nat × Nat)) (s : State) :
    blank L (routeAfter x0 i x1 ws s) = blank L s := by
  unfold routeAfter
  repeat' (first | with_reducible rfl | (simp only [modCtx_frame, modRoute_frame, hAq, apply_ite (blank L), ite_self]) | (with_reducible refine ite_frame _ ?_ ?_) | split)

theorem clearRoute_frame (L : Region → Bool) (hAq : L .aq = true) (i : Nat) (s : State) :
    blank L (clearRoute i s) = blank L s := by
  unfold clearRoute
  repeat' (first | with_reducible rfl | (simp only [modAq_frame, modCtx_frame, modListener_frame, modRoute_frame, modTalker_frame, hAq, apply_ite (blank L), ite_self]) | (with_reducible refine ite_frame _ ?_ ?_) | split)

theorem routeClass_keeps (L : Region → Bool) (hAq : L .aq = true)  : Keeps L (routeClass) where
  record h := by
    simp only [routeClass] at h
    repeat' (split at h)
    all_goals first | (cases h; done) | (with_reducible exact routeRecord_keeps L hAq h) | (injection h with h; subst h; first | (exact FldsKeep.nil))
  after _ _ _ _ _ := by
    simp only [routeClass]
    repeat' (first | with_reducible rfl | (simp only [clearRoute_frame, routeAfter_frame, hAq, apply_ite (blank L), ite_self]) | (with_reducible refine ite_frame _ ?_ ?_) | split)
  onRead _ _ _ _ _ := by
    simp only [routeClass]
    repeat' (first | with_reducible rfl | (simp only [clearRoute_frame, routeAfter_frame, hAq, apply_ite (blank L), ite_self]) | (with_reducible refine ite_frame _ ?_ ?_) | split)
  held h := by
    first
    | (cases h; done)
    | (simp only [routeClass] at h; exact absurd h)
  acts := by
    simp only [routeClass]
    repeat' (first | (exact ActsKeep.nil) | (refine ActsKeep.cons ?_ ?_) | (refine ⟨fun _ _ _ _ => ?_, fun _ => ?_, fun _ _ _ => ?_, fun h9 => ?_⟩) | (cases h9; done) | (injection h9 with h9; subst h9) | with_reducible rfl | (simp only [clearRoute_frame, routeAfter_frame, hAq, apply_ite (blank L), ite_self]) | (with_reducible refine ite_frame _ ?_ ?_) | split)

theorem execRouteSet_frame (L : Region → Bool) (hStaged : L .staged = true) (hFv : L .fv = true) (hWire : L .wire = true) (hDetect : L .detect = true) (hTp : L .tp = true) (hNm : L .nm = true) (hAq : L .aq = true) (hTow : L .tow = true) {r : Req} {s : State} {t9} (h : execRouteSet r s = .next t9) :
    blank L t9 = blank L s := by
  unfold execRouteSet at h
  injection h with h
  subst h
  repeat' (first | with_reducible rfl | (refine Eq.trans (cmdSet_frame L hStaged hFv hWire hDetect hTp hNm hTow (routeClass_keeps L hAq) _ _) ?_) | (simp only [hStaged, hFv, hWire, hDetect, hTp, hNm, hAq, hTow, apply_ite (blank L), ite_self]) | (with_reducible refine ite_frame _ ?_ ?_) | split)

theorem execRouteClearCounters_frame (L : Region → Bool) (hStaged : L .staged = true) (hFv : L .fv = true) (hWire : L .wire = true) (hDetect : L .detect = true) (hTp : L .tp = true) (hNm : L .nm = true) (hAq : L .aq = true) (hTow : L .tow = true) {r : Req} {s : State} {t9} (h : execRouteClearCounters r s = .next t9) :
    blank L t9 = blank L s := by
  unfold execRouteClearCounters at h
  injection h with h
  subst h
  repeat' (first | with_reducible rfl | (refine Eq.trans (cmdAct_frame L hStaged hFv hWire hDetect hTp hNm hTow (routeClass_keeps L hAq) _ _ _) ?_) | (simp only [hStaged, hFv, hWire, hDetect, hTp, hNm, hAq, hTow, apply_ite (blank L), ite_self]) | (with_reducible refine ite_frame _ ?_ ?_) | split)

theorem execAqueductArrival_frame (L : Region → Bool) (hSys : L .sys = true) (hStaged : L .staged = true) (hWire : L .wire = true) (hCan : L .can = true) (hAq : L .aq = true) (hNet : L .net = true) (hTow : L .tow = true) (hMem : L .mem = true) {s : State} {t9} (h : execAqueductArrival s = .next t9) :
    blank L t9 = blank L s := by
  unfold execAqueductArrival at h
  injection h with h
  subst h
  repeat' (first | with_reducible rfl | (simp only [arrive_frame, modAq_frame, hSys, hStaged, hWire, hCan, hAq, hNet, hTow, hMem, apply_ite (blank L), ite_self]) | (with_reducible refine ite_frame _ ?_ ?_) | split)

theorem execCmacCompletion_frame (L : Region → Bool) (hSys : L .sys = true) (hStaged : L .staged = true) (hWire : L .wire = true) (hCan : L .can = true) (hAq : L .aq = true) (hNet : L .net = true) (hTow : L .tow = true) (hLight : L .light = true) (hMem : L .mem = true) {s : State} {t9} (h : execCmacCompletion s = .next t9) :
    blank L t9 = blank L s := by
  unfold execCmacCompletion at h
  injection h with h
  subst h
  repeat' (first | with_reducible rfl | (with_reducible refine Eq.trans (settleTurns_frame_eq L hSys hStaged hWire hCan hAq hNet hTow hLight hMem (by with_reducible assumption)) ?_) | (simp only [modAq_frame, settleTurns_frame, takeTurn_frame, hSys, hStaged, hWire, hCan, hAq, hNet, hTow, hLight, hMem, apply_ite (blank L), ite_self]) | (with_reducible refine ite_frame _ ?_ ?_) | split)

theorem execTunnelAvtpduReceived_frame (L : Region → Bool) (hWire : L .wire = true) (hAq : L .aq = true) {s : State} {t9} (h : execTunnelAvtpduReceived s = .next t9) :
    blank L t9 = blank L s := by
  unfold execTunnelAvtpduReceived at h
  injection h with h
  subst h
  repeat' (first | with_reducible rfl | (simp only [avtpdu_frame, modAq_frame, hWire, hAq, apply_ite (blank L), ite_self]) | (with_reducible refine ite_frame _ ?_ ?_) | split)

end Sys2Proof.Machine
end

