-- ==== Sys2Proof/Laws/FrameTransport.lean ====
section
/-! SUPPORT. Frame lemmas of Machine/Transport.lean: what each operation leaves alone. -/
set_option linter.unusedSimpArgs false
set_option linter.unusedVariables false
namespace Sys2Proof.Machine

theorem winError_frame (L : Region → Bool) (hWire : L .wire = true) (e code ring : Nat) (s : State) :
    blank L (winError e code ring s) = blank L s := by
  unfold winError
  repeat' (first | with_reducible rfl | (simp only [mbxError_frame, modWin_frame, hWire, apply_ite (blank L), ite_self]) | (with_reducible refine ite_frame _ ?_ ?_) | split)

theorem tailWrite_frame (L : Region → Bool) (hWire : L .wire = true) (e k tail : Nat) (s : State) :
    blank L (tailWrite e k tail s).2 = blank L s := by
  unfold tailWrite
  repeat' (first | with_reducible rfl | (simp only [modWin_frame, winError_frame, hWire, apply_ite (blank L), ite_self]) | (with_reducible refine ite_frame _ ?_ ?_) | split)

theorem tailWrite_frame_eq (L : Region → Bool) (hWire : L .wire = true) {e k tail : Nat} {s : State} {x9} {t9} (h : tailWrite e k tail s = (x9, t9)) :
    blank L t9 = blank L s := by
  rw [← tailWrite_frame L hWire e k tail s, h]

theorem headWrite_frame (L : Region → Bool) (hWire : L .wire = true) (e k head : Nat) (s : State) :
    blank L (headWrite e k head s) = blank L s := by
  unfold headWrite
  repeat' (first | with_reducible rfl | (simp only [modWin_frame, winError_frame, hWire, apply_ite (blank L), ite_self]) | (with_reducible refine ite_frame _ ?_ ?_) | split)

theorem stopIfDone_frame (L : Region → Bool) (hWire : L .wire = true) (p e : Nat) (s : State) :
    blank L (stopIfDone p e s) = blank L s := by
  unfold stopIfDone
  repeat' (first | with_reducible rfl | (simp only [modWin_frame, hWire, apply_ite (blank L), ite_self]) | (with_reducible refine ite_frame _ ?_ ?_) | split)

theorem writeSlot_frame (L : Region → Bool) (hSys : L .sys = true) (hWire : L .wire = true) (hMem : L .mem = true) (e k : Nat) (b : List Byte) (s : State) :
    blank L (writeSlot e k b s) = blank L s := by
  unfold writeSlot
  repeat' (first | with_reducible rfl | (simp only [modWin_frame, storeBytes_frame, hSys, hWire, hMem, apply_ite (blank L), ite_self]) | (with_reducible refine ite_frame _ ?_ ?_) | split)

theorem sendWindow_frame (L : Region → Bool) (hSys : L .sys = true) (hWire : L .wire = true) (hMem : L .mem = true) (p e : Nat) (s : State) :
    blank L (sendWindow p e s) = blank L s := by
  unfold sendWindow
  repeat' (first | with_reducible rfl | (simp only [modPq_frame, stopIfDone_frame, writeSlot_frame, hSys, hWire, hMem, apply_ite (blank L), ite_self]) | (with_reducible refine ite_frame _ ?_ ?_) | split)

theorem takeFresh_frame (L : Region → Bool) (hWire : L .wire = true) (p : Nat) (s : State) :
    blank L (takeFresh p s).2 = blank L s := by
  unfold takeFresh
  repeat' (first | with_reducible rfl | (simp only [modPq_frame, hWire, apply_ite (blank L), ite_self]) | (with_reducible refine ite_frame _ ?_ ?_) | split)

theorem takeFresh_frame_eq (L : Region → Bool) (hWire : L .wire = true) {p : Nat} {s : State} {x9} {t9} (h : takeFresh p s = (x9, t9)) :
    blank L t9 = blank L s := by
  rw [← takeFresh_frame L hWire p s, h]

theorem sendDatagram_frame (L : Region → Bool) (hWire : L .wire = true) (hNet : L .net = true) (hLight : L .light = true) (p : Nat) (d : EthDest) (seg segs : Nat) (b : List Byte) (s : State) :
    blank L (sendDatagram p d seg segs b s) = blank L s := by
  unfold sendDatagram
  repeat' (first | with_reducible rfl | (with_reducible refine Eq.trans (takeFresh_frame_eq L hWire (by with_reducible assumption)) ?_) | (simp only [keeperSend_frame, keyUse_frame, takeFresh_frame, hWire, hNet, hLight, apply_ite (blank L), ite_self]) | (with_reducible refine ite_frame _ ?_ ?_) | split)

theorem sendMessage_frame (L : Region → Bool) (hWire : L .wire = true) (hNet : L .net = true) (hLight : L .light = true) (p : Nat) (d : EthDest) (b : List Byte) (s : State) :
    blank L (sendMessage p d b s) = blank L s := by
  unfold sendMessage
  repeat' (first | with_reducible rfl | (simp only [sendDatagram_frame, hWire, hNet, hLight, apply_ite (blank L), ite_self]) | (with_reducible refine (foldl_pair_frame L _ (fun _ _ => ?_) _ _).trans ?_) | (with_reducible refine (foldl_frame L _ (fun _ _ => ?_) _ _).trans ?_) | (with_reducible refine ite_frame _ ?_ ?_) | split)

theorem sendEth_frame (L : Region → Bool) (hWire : L .wire = true) (hNet : L .net = true) (hLight : L .light = true) (p : Nat) (s : State) :
    blank L (sendEth p s) = blank L s := by
  unfold sendEth
  repeat' (first | with_reducible rfl | (simp only [modPq_frame, sendMessage_frame, hWire, hNet, hLight, apply_ite (blank L), ite_self]) | (with_reducible refine ite_frame _ ?_ ?_) | split)

theorem spiErr_frame (L : Region → Bool) (hWire : L .wire = true) (p : Nat) (s : State) :
    blank L (spiErr p s) = blank L s := by
  simp only [spiErr, modPq_frame, hWire]

theorem execRunSet_frame (L : Region → Bool) (hTide : L .tide = true) (hFv : L .fv = true) (hWire : L .wire = true) {e : Nat} {s : State} {t9} (h : execRunSet e s = .next t9) :
    blank L t9 = blank L s := by
  obtain ⟨-, rfl⟩ := guardUnit_next h
  repeat' (first | with_reducible rfl | (simp only [clearSnap_frame, emitTransport_frame, mbxError_frame, modPound_frame, modWin_frame, hTide, hFv, hWire, apply_ite (blank L), ite_self]) | (with_reducible refine (foldl_pair_frame L _ (fun _ _ => ?_) _ _).trans ?_) | (with_reducible refine (foldl_frame L _ (fun _ _ => ?_) _ _).trans ?_) | (with_reducible refine ite_frame _ ?_ ?_) | split)

theorem execRunClear_frame (L : Region → Bool) (hWire : L .wire = true) {e : Nat} {s : State} {t9} (h : execRunClear e s = .next t9) :
    blank L t9 = blank L s := by
  obtain ⟨-, rfl⟩ := guardUnit_next h
  repeat' (first | with_reducible rfl | (simp only [modWin_frame, stopIfDone_frame, hWire, apply_ite (blank L), ite_self]) | (with_reducible refine ite_frame _ ?_ ?_) | split)

theorem execCommandDoorbell_frame (L : Region → Bool) (hWire : L .wire = true) {e tail : Nat} {s : State} {t9} (h : execCommandDoorbell e tail s = .next t9) :
    blank L t9 = blank L s := by
  obtain ⟨-, rfl⟩ := guardUnit_next h
  repeat' (first | with_reducible rfl | (with_reducible refine Eq.trans (tailWrite_frame_eq L hWire (by with_reducible assumption)) ?_) | (simp only [tailWrite_frame, hWire, apply_ite (blank L), ite_self]) | (with_reducible refine ite_frame _ ?_ ?_) | split)

theorem execResponseHeadWrite_frame (L : Region → Bool) (hWire : L .wire = true) {e head : Nat} {s : State} {t9} (h : execResponseHeadWrite e head s = .next t9) :
    blank L t9 = blank L s := by
  obtain ⟨-, rfl⟩ := guardUnit_next h
  repeat' (first | with_reducible rfl | (simp only [headWrite_frame, hWire, apply_ite (blank L), ite_self]) | (with_reducible refine ite_frame _ ?_ ?_) | split)

theorem execEventHeadWrite_frame (L : Region → Bool) (hWire : L .wire = true) {e head : Nat} {s : State} {t9} (h : execEventHeadWrite e head s = .next t9) :
    blank L t9 = blank L s := by
  obtain ⟨-, rfl⟩ := guardUnit_next h
  repeat' (first | with_reducible rfl | (simp only [headWrite_frame, hWire, apply_ite (blank L), ite_self]) | (with_reducible refine ite_frame _ ?_ ?_) | split)

theorem execReceiveRingPost_frame (L : Region → Bool) (hSys : L .sys = true) (hWire : L .wire = true) (hAq : L .aq = true) (hNet : L .net = true) (hMem : L .mem = true) {e r tail : Nat} {l : List Desc} {s : State} {t9} (h : execReceiveRingPost e r tail l s = .next t9) :
    blank L t9 = blank L s := by
  obtain ⟨-, rfl⟩ := guardUnit_next h
  repeat' (first | with_reducible rfl | (with_reducible refine Eq.trans (tailWrite_frame_eq L hWire (by with_reducible assumption)) ?_) | (simp only [drainQueue_frame, modHring_frame, tailWrite_frame, hSys, hWire, hAq, hNet, hMem, apply_ite (blank L), ite_self]) | (with_reducible refine ite_frame _ ?_ ?_) | split)

theorem execTransmitRingDoorbell_frame (L : Region → Bool) (hWire : L .wire = true) (hNet : L .net = true) {e r tail : Nat} {l : List Desc} {s : State} {t9} (h : execTransmitRingDoorbell e r tail l s = .next t9) :
    blank L t9 = blank L s := by
  obtain ⟨-, rfl⟩ := guardUnit_next h
  repeat' (first | with_reducible rfl | (with_reducible refine Eq.trans (tailWrite_frame_eq L hWire (by with_reducible assumption)) ?_) | (simp only [modHring_frame, tailWrite_frame, hWire, hNet, apply_ite (blank L), ite_self]) | (with_reducible refine ite_frame _ ?_ ?_) | split)

theorem execCauseClear_frame (L : Region → Bool) (hWire : L .wire = true) {e mask same : Nat} {s : State} {t9} (h : execCauseClear e mask same s = .next t9) :
    blank L t9 = blank L s := by
  obtain ⟨-, rfl⟩ := guardUnit_next h
  repeat' (first | with_reducible rfl | (simp only [modWin_frame, hWire, apply_ite (blank L), ite_self]) | (with_reducible refine (foldl_pair_frame L _ (fun _ _ => ?_) _ _).trans ?_) | (with_reducible refine (foldl_frame L _ (fun _ _ => ?_) _ _).trans ?_) | (with_reducible refine ite_frame _ ?_ ?_) | split)

theorem ringRegister_frame (L : Region → Bool) (hWire : L .wire = true) (e k r val : Nat) (s : State) :
    blank L (ringRegister e k r val s) = blank L s := by
  unfold ringRegister
  repeat' (first | with_reducible rfl | (simp only [modWin_frame, winError_frame, hWire, apply_ite (blank L), ite_self]) | (with_reducible refine ite_frame _ ?_ ?_) | split)

theorem execRegisterWrite_frame (L : Region → Bool) (hWire : L .wire = true) {e off val : Nat} {word : Bool} {s : State} {t9} (h : execRegisterWrite e off val word s = .next t9) :
    blank L t9 = blank L s := by
  obtain ⟨-, rfl⟩ := guardUnit_next h
  repeat' (first | with_reducible rfl | (simp only [modWin_frame, ringRegister_frame, winError_frame, hWire, apply_ite (blank L), ite_self]) | (with_reducible refine ite_frame _ ?_ ?_) | split)

theorem execOutboundDoorbell_frame (L : Region → Bool) (hSys : L .sys = true) (hWire : L .wire = true) (hNet : L .net = true) (hLight : L .light = true) (hMem : L .mem = true) {p : Nat} {s : State} {t9} (h : execOutboundDoorbell p s = .next t9) :
    blank L t9 = blank L s := by
  obtain ⟨-, rfl⟩ := guardUnit_next h
  repeat' (first | with_reducible rfl | (simp only [sendEth_frame, sendWindow_frame, hSys, hWire, hNet, hLight, hMem, apply_ite (blank L), ite_self]) | (with_reducible refine ite_frame _ ?_ ?_) | split)

theorem execInterruptModerationEnd_frame (L : Region → Bool) (hWire : L .wire = true) {e v : Nat} {s : State} {t9} (h : execInterruptModerationEnd e v s = .next t9) :
    blank L t9 = blank L s := by
  obtain ⟨-, rfl⟩ := guardUnit_next h
  repeat' (first | with_reducible rfl | (simp only [modWin_frame, hWire, apply_ite (blank L), ite_self]) | (with_reducible refine ite_frame _ ?_ ?_) | split)

theorem execDmaWriteFailure_frame (L : Region → Bool) (hCyc : L .cyc = true) (hStaged : L .staged = true) (hFv : L .fv = true) (hWire : L .wire = true) (hMot : L .mot = true) (hTow : L .tow = true) (hAps : L .aps = true) (hPwr : L .pwr = true) (hImg : L .img = true) {e ring : Nat} {s : State} {t9} (h : execDmaWriteFailure e ring s = .next t9) :
    blank L t9 = blank L s := by
  obtain ⟨-, rfl⟩ := guardUnit_next h
  repeat' (first | with_reducible rfl | (simp only [emitTransport_frame, mbxError_frame, modWin_frame, startReset_frame, hCyc, hStaged, hFv, hWire, hMot, hTow, hAps, hPwr, hImg, apply_ite (blank L), ite_self]) | (with_reducible refine ite_frame _ ?_ ?_) | split)

theorem execSpiStatus_frame (L : Region → Bool) (hWire : L .wire = true) {s : State} {t9} (h : execSpiStatus s = .next t9) :
    blank L t9 = blank L s := by
  unfold execSpiStatus at h
  injection h with h
  subst h
  repeat' (first | with_reducible rfl | (simp only [modPq_frame, hWire, apply_ite (blank L), ite_self]) | (with_reducible refine ite_frame _ ?_ ?_) | split)

theorem execSpiRead_frame (L : Region → Bool) (hWire : L .wire = true) {n : Nat} {s : State} {t9} (h : execSpiRead n s = .next t9) :
    blank L t9 = blank L s := by
  unfold execSpiRead at h
  injection h with h
  subst h
  repeat' (first | with_reducible rfl | (simp only [modPq_frame, hWire, apply_ite (blank L), ite_self]) | (with_reducible refine ite_frame _ ?_ ?_) | split)

theorem execSpiUnknownInstruction_frame (L : Region → Bool) (hWire : L .wire = true) {s : State} {t9} (h : execSpiUnknownInstruction s = .next t9) :
    blank L t9 = blank L s := by
  unfold execSpiUnknownInstruction at h
  injection h with h
  subst h
  repeat' (first | with_reducible rfl | (simp only [bumpPq_frame, spiErr_frame, hWire, apply_ite (blank L), ite_self]) | (with_reducible refine ite_frame _ ?_ ?_) | split)

theorem execAddressResolutionRequest_frame (L : Region → Bool) (hNet : L .net = true) {i mac ip : Nat} {s : State} {t9} (h : execAddressResolutionRequest i mac ip s = .next t9) :
    blank L t9 = blank L s := by
  obtain ⟨-, rfl⟩ := guardUnit_next h
  repeat' (first | with_reducible rfl | (simp only [keeperSend_frame, hNet, apply_ite (blank L), ite_self]) | (with_reducible refine ite_frame _ ?_ ?_) | split)

end Sys2Proof.Machine
end

