-- ==== Sys2Proof/Laws/FrameLighthouse.lean ====
section
/-! SUPPORT. Frame lemmas of Machine/Lighthouse.lean: what each operation leaves alone. -/
set_option linter.unusedSimpArgs false
set_option linter.unusedVariables false
namespace Sys2Proof.Machine

theorem lhCount_frame (L : Region → Bool) (hLight : L .light = true) (st : Status) (s : State) :
    blank L (lhCount st s) = blank L s := by
  unfold lhCount
  repeat' (first | with_reducible rfl | (simp only [modLight_frame, hLight, apply_ite (blank L), ite_self]) | (with_reducible refine ite_frame _ ?_ ?_) | split)

theorem lhFail_frame (L : Region → Bool) (hLight : L .light = true) (p : Nat) (st : Status) (s : State) :
    blank L (lhFail p st s) = blank L s := by
  simp only [lhFail, lhCount_frame, modBox_frame, hLight]

theorem lhGo_frame (L : Region → Bool) (hLight : L .light = true) (op p : Nat) (r : LhRegs) (s : State) :
    blank L (lhGo op p r s) = blank L s := by
  unfold lhGo
  repeat' (first | with_reducible rfl | (simp only [keyUse_frame, lhFail_frame, modBox_frame, hLight, apply_ite (blank L), ite_self]) | (with_reducible refine ite_frame _ ?_ ?_) | split)

theorem lhEnd_frame (L : Region → Bool) (hSys : L .sys = true) (hLight : L .light = true) (hMem : L .mem = true) (hFree : L .free = true) (p got : Nat) (trunc : Bool) (s : State) :
    blank L (lhEnd p got trunc s) = blank L s := by
  unfold lhEnd
  repeat' (first | with_reducible rfl | (with_reducible refine Eq.trans (takeFree_frame_eq L hFree (by with_reducible assumption)) ?_) | (simp only [lhFail_frame, lhScrub_frame, modBox_frame, storeBytes_frame, takeFree_frame, hSys, hLight, hMem, hFree, apply_ite (blank L), ite_self]) | (with_reducible refine ite_frame _ ?_ ?_) | split)

theorem lhAbort_frame (L : Region → Bool) (hSys : L .sys = true) (hLight : L .light = true) (hMem : L .mem = true) (hFree : L .free = true) (p : Nat) (s : State) :
    blank L (lhAbort p s) = blank L s := by
  unfold lhAbort
  repeat' (first | with_reducible rfl | (simp only [lhFail_frame, lhScrubOpen_frame, hSys, hLight, hMem, hFree, apply_ite (blank L), ite_self]) | (with_reducible refine ite_frame _ ?_ ?_) | split)

theorem lhAbortAll_frame (L : Region → Bool) (hSys : L .sys = true) (hLight : L .light = true) (hMem : L .mem = true) (hFree : L .free = true) (s : State) :
    blank L (lhAbortAll s) = blank L s := by
  unfold lhAbortAll
  repeat' (first | with_reducible rfl | (simp only [lhAbort_frame, hSys, hLight, hMem, hFree, apply_ite (blank L), ite_self]) | (with_reducible refine (foldl_pair_frame L _ (fun _ _ => ?_) _ _).trans ?_) | (with_reducible refine (foldl_frame L _ (fun _ _ => ?_) _ _).trans ?_) | (with_reducible refine ite_frame _ ?_ ?_) | split)

theorem returnBlock_frame (L : Region → Bool) (hLight : L .light = true) (b : Nat) (s : State) :
    blank L (returnBlock b s) = blank L s := by
  unfold returnBlock
  repeat' (first | with_reducible rfl | (simp only [modLight_frame, hLight, apply_ite (blank L), ite_self]) | (with_reducible refine ite_frame _ ?_ ?_) | split)

theorem forceCut_frame (L : Region → Bool) (hSys : L .sys = true) (hWire : L .wire = true) (hLight : L .light = true) (hMem : L .mem = true) (hFree : L .free = true) (bits cause : Nat) (s : State) :
    blank L (forceCut bits cause s) = blank L s := by
  unfold forceCut
  repeat' (first | with_reducible rfl | (simp only [emit_frame, lhAbortAll_frame, lhCount_frame, returnBlock_frame, hSys, hWire, hLight, hMem, hFree, apply_ite (blank L), ite_self]) | (with_reducible refine ite_frame _ ?_ ?_) | split)

theorem endDebug_frame (L : Region → Bool) (hSys : L .sys = true) (hLight : L .light = true) (hAps : L .aps = true) (s : State) :
    blank L (endDebug s) = blank L s := by
  unfold endDebug
  repeat' (first | with_reducible rfl | (simp only [modCore_frame, modLight_frame, modSys_frame, hSys, hLight, hAps, apply_ite (blank L), ite_self]) | (with_reducible refine (foldl_pair_frame L _ (fun _ _ => ?_) _ _).trans ?_) | (with_reducible refine (foldl_frame L _ (fun _ _ => ?_) _ _).trans ?_) | (with_reducible refine ite_frame _ ?_ ?_) | split)

theorem openChallenge_frame (L : Region → Bool) (hSys : L .sys = true) (hLight : L .light = true) (hAps : L .aps = true) (hFree : L .free = true) (scope : Nat) (s : State) :
    blank L (openChallenge scope s) = blank L s := by
  unfold openChallenge
  repeat' (first | with_reducible rfl | (with_reducible refine Eq.trans (takeFree_frame_eq L hFree (by with_reducible assumption)) ?_) | (simp only [endDebug_frame, modLight_frame, takeFree_frame, hSys, hLight, hAps, hFree, apply_ite (blank L), ite_self]) | (with_reducible refine ite_frame _ ?_ ?_) | split)

theorem grantDebug_frame (L : Region → Bool) (hLight : L .light = true) (a : List Byte) (s : State) :
    blank L (grantDebug a s) = blank L s := by
  unfold grantDebug
  repeat' (first | with_reducible rfl | (simp only [modLight_frame, hLight, apply_ite (blank L), ite_self]) | (with_reducible refine ite_frame _ ?_ ?_) | split)

theorem failDebug_frame (L : Region → Bool) (hLight : L .light = true) (s : State) :
    blank L (failDebug s) = blank L s := by
  simp only [failDebug, modLight_frame, hLight]

theorem keyRec_keeps (L : Region → Bool) (hLight : L .light = true) (k : Nat) : FldsKeep L (keyRec k).flds := by
  unfold keyRec
  repeat' (first | (refine FldsKeep.lift (fun _ _ => ?_)) | (refine FldsKeep.append ?_ ?_) | (refine FldsKeep.flatMap (fun _ => ?_)) | (refine FldsKeep.map (fun _ => ?_)) | (refine FldsKeep.cons ?_ ?_) | (exact FldsKeep.nil) | (exact fun _ _ => rfl) | (intro n9 s9) | (simp only [modKey_frame, hLight, apply_ite (blank L), ite_self]))

theorem keyRecord_keeps (L : Region → Bool) (hLight : L .light = true) {k part : Nat} {rc : Rec} (h : keyRecord k part = some rc) : FldsKeep L rc.flds := by
  unfold keyRecord at h
  repeat' (split at h)
  all_goals first | (cases h; done) | (injection h with h; subst h; first | (exact FldsKeep.nil) | (with_reducible exact keyRec_keeps L hLight _))

theorem commitKey_frame (L : Region → Bool) (hLight : L .light = true) (a : List Byte) (k : Key) (s : State) :
    blank L (commitKey a k s) = blank L s := by
  simp only [commitKey, modKey_frame, hLight]

theorem broadcast_frame (L : Region → Bool) (hWire : L .wire = true) (hNet : L .net = true) (a : List Byte) (s : State) :
    blank L (broadcast a s) = blank L s := by
  simp only [broadcast, emit_frame, revokeConsumers_frame, hWire, hNet]

theorem updateKey_frame (L : Region → Bool) (hWire : L .wire = true) (hNet : L .net = true) (hLight : L .light = true) (hFree : L .free = true) (a : List Byte) (s : State) :
    blank L (updateKey a s) = blank L s := by
  unfold updateKey
  repeat' (first | with_reducible rfl | (with_reducible refine Eq.trans (takeFree_frame_eq L hFree (by with_reducible assumption)) ?_) | (simp only [broadcast_frame, commitKey_frame, keyUse_frame, takeFree_frame, hWire, hNet, hLight, hFree, apply_ite (blank L), ite_self]) | (with_reducible refine ite_frame _ ?_ ?_) | split)

theorem invalidateKey_frame (L : Region → Bool) (hWire : L .wire = true) (hNet : L .net = true) (hLight : L .light = true) (a : List Byte) (s : State) :
    blank L (invalidateKey a s) = blank L s := by
  simp only [invalidateKey, broadcast_frame, commitKey_frame, hWire, hNet, hLight]

theorem keyAct_keeps (L : Region → Bool) (hLight : L .light = true) (code : Nat) (argOk : Nat → Bool) (fit : List Byte → Bool) (auth : State → Nat → List Byte → Bool) (check : State → List Byte → Status) (run : List Byte → State → State) (h : ∀ a s, blank L (run a s) = blank L s) : ActKeeps L (keyAct code argOk fit auth check run) :=
  ⟨fun _ _ a s => h a s, fun _ => rfl, fun _ _ _ => rfl, fun h => by cases h⟩

theorem keyClass_keeps (L : Region → Bool) (hWire : L .wire = true) (hNet : L .net = true) (hLight : L .light = true) (hFree : L .free = true)  : Keeps L (keyClass) where
  record h := by
    simp only [keyClass] at h
    repeat' (split at h)
    all_goals first | (cases h; done) | (with_reducible exact keyRecord_keeps L hLight h) | (injection h with h; subst h; first | (exact FldsKeep.nil))
  after _ _ _ _ _ := by
    simp only [keyClass]
    repeat' (first | with_reducible rfl | (with_reducible refine Eq.trans (takeFree_frame_eq L hFree (by with_reducible assumption)) ?_) | (simp only [commitKey_frame, invalidateKey_frame, keyUse_frame, takeFree_frame, updateKey_frame, hWire, hNet, hLight, hFree, apply_ite (blank L), ite_self]) | (with_reducible refine ite_frame _ ?_ ?_) | split)
  onRead _ _ _ _ _ := by
    simp only [keyClass]
    repeat' (first | with_reducible rfl | (with_reducible refine Eq.trans (takeFree_frame_eq L hFree (by with_reducible assumption)) ?_) | (simp only [commitKey_frame, invalidateKey_frame, keyUse_frame, takeFree_frame, updateKey_frame, hWire, hNet, hLight, hFree, apply_ite (blank L), ite_self]) | (with_reducible refine ite_frame _ ?_ ?_) | split)
  held h := by
    first
    | (cases h; done)
    | (simp only [keyClass] at h; exact absurd h)
  acts := by
    simp only [keyClass]
    repeat' (first | (exact ActsKeep.nil) | (refine ActsKeep.cons ?_ ?_) | (refine keyAct_keeps L hLight _ _ _ _ _ _ (fun _ _ => ?_)) | (refine ⟨fun _ _ _ _ => ?_, fun _ => ?_, fun _ _ _ => ?_, fun h9 => ?_⟩) | (cases h9; done) | (injection h9 with h9; subst h9) | with_reducible rfl | (with_reducible refine Eq.trans (takeFree_frame_eq L hFree (by with_reducible assumption)) ?_) | (simp only [commitKey_frame, invalidateKey_frame, keyUse_frame, takeFree_frame, updateKey_frame, hWire, hNet, hLight, hFree, apply_ite (blank L), ite_self]) | (with_reducible refine ite_frame _ ?_ ?_) | split)

theorem lightRec_keeps (L : Region → Bool) (hLight : L .light = true)  : FldsKeep L (lightRec ).flds := by
  unfold lightRec
  repeat' (first | (refine FldsKeep.lift (fun _ _ => ?_)) | (refine FldsKeep.append ?_ ?_) | (refine FldsKeep.flatMap (fun _ => ?_)) | (refine FldsKeep.map (fun _ => ?_)) | (refine FldsKeep.cons ?_ ?_) | (exact FldsKeep.nil) | (exact fun _ _ => rfl) | (intro n9 s9) | (simp only [modLight_frame, hLight, apply_ite (blank L), ite_self]))

theorem lightClass_keeps (L : Region → Bool) (hSys : L .sys = true) (hLight : L .light = true) (hAps : L .aps = true) (hFree : L .free = true)  : Keeps L (lightClass) where
  record h := by
    simp only [lightClass] at h
    repeat' (split at h)
    all_goals first | (cases h; done) | (injection h with h; subst h; first | (exact FldsKeep.nil) | (with_reducible exact lightRec_keeps L hLight ))
  after _ _ _ _ _ := by
    simp only [lightClass]
    repeat' (first | with_reducible rfl | (with_reducible refine Eq.trans (takeFree_frame_eq L hFree (by with_reducible assumption)) ?_) | (simp only [failDebug_frame, grantDebug_frame, keyUse_frame, openChallenge_frame, takeFree_frame, hSys, hLight, hAps, hFree, apply_ite (blank L), ite_self]) | (with_reducible refine ite_frame _ ?_ ?_) | split)
  onRead _ _ _ _ _ := by
    simp only [lightClass]
    repeat' (first | with_reducible rfl | (with_reducible refine Eq.trans (takeFree_frame_eq L hFree (by with_reducible assumption)) ?_) | (simp only [failDebug_frame, grantDebug_frame, keyUse_frame, openChallenge_frame, takeFree_frame, hSys, hLight, hAps, hFree, apply_ite (blank L), ite_self]) | (with_reducible refine ite_frame _ ?_ ?_) | split)
  held h := by
    first
    | (cases h; done)
    | (simp only [lightClass] at h; exact absurd h)
  acts := by
    simp only [lightClass]
    repeat' (first | (exact ActsKeep.nil) | (refine ActsKeep.cons ?_ ?_) | (refine ⟨fun _ _ _ _ => ?_, fun _ => ?_, fun _ _ _ => ?_, fun h9 => ?_⟩) | (cases h9; done) | (injection h9 with h9; subst h9) | with_reducible rfl | (with_reducible refine Eq.trans (takeFree_frame_eq L hFree (by with_reducible assumption)) ?_) | (simp only [failDebug_frame, grantDebug_frame, keyUse_frame, openChallenge_frame, takeFree_frame, hSys, hLight, hAps, hFree, apply_ite (blank L), ite_self]) | (with_reducible refine ite_frame _ ?_ ?_) | split)

theorem lightReset_frame (L : Region → Bool) (hSys : L .sys = true) (hWire : L .wire = true) (hLight : L .light = true) (hAps : L .aps = true) (hMem : L .mem = true) (hFree : L .free = true) (s : State) :
    blank L (lightReset s) = blank L s := by
  unfold lightReset
  repeat' (first | with_reducible rfl | (simp only [emit_frame, endDebug_frame, lhAbortAll_frame, modLight_frame, returnBlock_frame, hSys, hWire, hLight, hAps, hMem, hFree, apply_ite (blank L), ite_self]) | (with_reducible refine ite_frame _ ?_ ?_) | split)

theorem keyScan_frame (L : Region → Bool) (hWire : L .wire = true) (hDetect : L .detect = true) (hLight : L .light = true) (lost bad : List Nat) (s : State) :
    blank L (keyScan lost bad s) = blank L s := by
  unfold keyScan
  repeat' (first | with_reducible rfl | (simp only [detect_frame, emit_frame, modKey_frame, hWire, hDetect, hLight, apply_ite (blank L), ite_self]) | (with_reducible refine (foldl_pair_frame L _ (fun _ _ => ?_) _ _).trans ?_) | (with_reducible refine (foldl_frame L _ (fun _ _ => ?_) _ _).trans ?_) | (with_reducible refine ite_frame _ ?_ ?_) | split)

theorem dropVolatile_frame (L : Region → Bool) (hLight : L .light = true) (s : State) :
    blank L (dropVolatile s) = blank L s := by
  unfold dropVolatile
  repeat' (first | with_reducible rfl | (simp only [modKey_frame, hLight, apply_ite (blank L), ite_self]) | (with_reducible refine (foldl_pair_frame L _ (fun _ _ => ?_) _ _).trans ?_) | (with_reducible refine (foldl_frame L _ (fun _ _ => ?_) _ _).trans ?_) | (with_reducible refine ite_frame _ ?_ ?_) | split)

theorem execLhEncrypt_frame (L : Region → Bool) (hLight : L .light = true) {p : Nat} {r : LhRegs} {s : State} {t9} (h : execLhEncrypt p r s = .next t9) :
    blank L t9 = blank L s := by
  obtain ⟨-, rfl⟩ := guardUnit_next h
  repeat' (first | with_reducible rfl | (simp only [lhGo_frame, hLight, apply_ite (blank L), ite_self]) | (with_reducible refine ite_frame _ ?_ ?_) | split)

theorem execLhDecrypt_frame (L : Region → Bool) (hLight : L .light = true) {p : Nat} {r : LhRegs} {s : State} {t9} (h : execLhDecrypt p r s = .next t9) :
    blank L t9 = blank L s := by
  obtain ⟨-, rfl⟩ := guardUnit_next h
  repeat' (first | with_reducible rfl | (simp only [lhGo_frame, hLight, apply_ite (blank L), ite_self]) | (with_reducible refine ite_frame _ ?_ ?_) | split)

theorem execLhMacGen_frame (L : Region → Bool) (hLight : L .light = true) {p : Nat} {r : LhRegs} {s : State} {t9} (h : execLhMacGen p r s = .next t9) :
    blank L t9 = blank L s := by
  obtain ⟨-, rfl⟩ := guardUnit_next h
  repeat' (first | with_reducible rfl | (simp only [lhGo_frame, hLight, apply_ite (blank L), ite_self]) | (with_reducible refine ite_frame _ ?_ ?_) | split)

theorem execLhMacVerify_frame (L : Region → Bool) (hLight : L .light = true) {p : Nat} {r : LhRegs} {s : State} {t9} (h : execLhMacVerify p r s = .next t9) :
    blank L t9 = blank L s := by
  obtain ⟨-, rfl⟩ := guardUnit_next h
  repeat' (first | with_reducible rfl | (simp only [lhGo_frame, hLight, apply_ite (blank L), ite_self]) | (with_reducible refine ite_frame _ ?_ ?_) | split)

theorem execLhHash_frame (L : Region → Bool) (hLight : L .light = true) {p : Nat} {r : LhRegs} {s : State} {t9} (h : execLhHash p r s = .next t9) :
    blank L t9 = blank L s := by
  obtain ⟨-, rfl⟩ := guardUnit_next h
  repeat' (first | with_reducible rfl | (simp only [lhGo_frame, hLight, apply_ite (blank L), ite_self]) | (with_reducible refine ite_frame _ ?_ ?_) | split)

theorem execLhSign_frame (L : Region → Bool) (hLight : L .light = true) {p : Nat} {r : LhRegs} {s : State} {t9} (h : execLhSign p r s = .next t9) :
    blank L t9 = blank L s := by
  obtain ⟨-, rfl⟩ := guardUnit_next h
  repeat' (first | with_reducible rfl | (simp only [lhGo_frame, hLight, apply_ite (blank L), ite_self]) | (with_reducible refine ite_frame _ ?_ ?_) | split)

theorem execLhVerify_frame (L : Region → Bool) (hLight : L .light = true) {p : Nat} {r : LhRegs} {s : State} {t9} (h : execLhVerify p r s = .next t9) :
    blank L t9 = blank L s := by
  obtain ⟨-, rfl⟩ := guardUnit_next h
  repeat' (first | with_reducible rfl | (simp only [lhGo_frame, hLight, apply_ite (blank L), ite_self]) | (with_reducible refine ite_frame _ ?_ ?_) | split)

theorem execLhAgree_frame (L : Region → Bool) (hLight : L .light = true) {p : Nat} {r : LhRegs} {s : State} {t9} (h : execLhAgree p r s = .next t9) :
    blank L t9 = blank L s := by
  obtain ⟨-, rfl⟩ := guardUnit_next h
  repeat' (first | with_reducible rfl | (simp only [lhGo_frame, hLight, apply_ite (blank L), ite_self]) | (with_reducible refine ite_frame _ ?_ ?_) | split)

theorem execLhRandom_frame (L : Region → Bool) (hLight : L .light = true) {p : Nat} {r : LhRegs} {s : State} {t9} (h : execLhRandom p r s = .next t9) :
    blank L t9 = blank L s := by
  obtain ⟨-, rfl⟩ := guardUnit_next h
  repeat' (first | with_reducible rfl | (simp only [lhGo_frame, hLight, apply_ite (blank L), ite_self]) | (with_reducible refine ite_frame _ ?_ ?_) | split)

theorem execLhClear_frame (L : Region → Bool) (hLight : L .light = true) {p : Nat} {s : State} {t9} (h : execLhClear p s = .next t9) :
    blank L t9 = blank L s := by
  obtain ⟨-, rfl⟩ := guardUnit_next h
  repeat' (first | with_reducible rfl | (simp only [modBox_frame, hLight, apply_ite (blank L), ite_self]) | (with_reducible refine ite_frame _ ?_ ?_) | split)

theorem execLhRequestComplete_frame (L : Region → Bool) (hSys : L .sys = true) (hLight : L .light = true) (hMem : L .mem = true) (hFree : L .free = true) {p got : Nat} {trunc : Bool} {s : State} {t9} (h : execLhRequestComplete p got trunc s = .next t9) :
    blank L t9 = blank L s := by
  obtain ⟨-, rfl⟩ := guardUnit_next h
  repeat' (first | with_reducible rfl | (simp only [lhEnd_frame, hSys, hLight, hMem, hFree, apply_ite (blank L), ite_self]) | (with_reducible refine ite_frame _ ?_ ?_) | split)

theorem execLhWatchdogExpiry_frame (L : Region → Bool) (hSys : L .sys = true) (hWire : L .wire = true) (hDetect : L .detect = true) (hLight : L .light = true) (hAps : L .aps = true) (hMem : L .mem = true) (hFree : L .free = true) {s : State} {t9} (h : execLhWatchdogExpiry s = .next t9) :
    blank L t9 = blank L s := by
  unfold execLhWatchdogExpiry at h
  injection h with h
  subst h
  repeat' (first | with_reducible rfl | (simp only [detect_frame, lightReset_frame, hSys, hWire, hDetect, hLight, hAps, hMem, hFree, apply_ite (blank L), ite_self]) | (with_reducible refine ite_frame _ ?_ ?_) | split)

theorem execLhRestartComplete_frame (L : Region → Bool) (hWire : L .wire = true) (hDetect : L .detect = true) (hNet : L .net = true) (hLight : L .light = true) {kat : Bool} {lost bad : List Nat} {again : List (Nat × Nat)} {s : State} {t9} (h : execLhRestartComplete kat lost bad again s = .next t9) :
    blank L t9 = blank L s := by
  unfold execLhRestartComplete at h
  injection h with h
  subst h
  repeat' (first | with_reducible rfl | (simp only [detect_frame, dropVolatile_frame, emit_frame, keyScan_frame, modLight_frame, revokeConsumers_frame, hWire, hDetect, hNet, hLight, apply_ite (blank L), ite_self]) | (with_reducible refine ite_frame _ ?_ ?_) | split)

theorem execBlockHandover_frame (L : Region → Bool) (hLight : L .light = true) {b claims : Nat} {s : State} {t9} (h : execBlockHandover b claims s = .next t9) :
    blank L t9 = blank L s := by
  obtain ⟨-, rfl⟩ := guardUnit_next h
  repeat' (first | with_reducible rfl | (simp only [modLight_frame, hLight, apply_ite (blank L), ite_self]) | (with_reducible refine ite_frame _ ?_ ?_) | split)

theorem execBlockReturn_frame (L : Region → Bool) (hLight : L .light = true) {b : Nat} {s : State} {t9} (h : execBlockReturn b s = .next t9) :
    blank L t9 = blank L s := by
  obtain ⟨-, rfl⟩ := guardUnit_next h
  repeat' (first | with_reducible rfl | (simp only [returnBlock_frame, hLight, apply_ite (blank L), ite_self]) | (with_reducible refine ite_frame _ ?_ ?_) | split)

theorem execClaimDeferralTimeout_frame (L : Region → Bool) (hSys : L .sys = true) (hWire : L .wire = true) (hLight : L .light = true) (hPwr : L .pwr = true) (hMem : L .mem = true) (hFree : L .free = true) {s : State} {t9} (h : execClaimDeferralTimeout s = .next t9) :
    blank L t9 = blank L s := by
  unfold execClaimDeferralTimeout at h
  injection h with h
  subst h
  repeat' (first | with_reducible rfl | (simp only [forceCut_frame, modPwr_frame, hSys, hWire, hLight, hPwr, hMem, hFree, apply_ite (blank L), ite_self]) | (with_reducible refine ite_frame _ ?_ ?_) | split)

theorem execKeyGenerate_frame (L : Region → Bool) (hStaged : L .staged = true) (hFv : L .fv = true) (hWire : L .wire = true) (hDetect : L .detect = true) (hTp : L .tp = true) (hNm : L .nm = true) (hNet : L .net = true) (hTow : L .tow = true) (hLight : L .light = true) (hFree : L .free = true) {r : Req} {s : State} {t9} (h : execKeyGenerate r s = .next t9) :
    blank L t9 = blank L s := by
  unfold execKeyGenerate at h
  injection h with h
  subst h
  repeat' (first | with_reducible rfl | (refine Eq.trans (cmdAct_frame L hStaged hFv hWire hDetect hTp hNm hTow (keyClass_keeps L hWire hNet hLight hFree) _ _ _) ?_) | (simp only [hStaged, hFv, hWire, hDetect, hTp, hNm, hNet, hTow, hLight, hFree, apply_ite (blank L), ite_self]) | (with_reducible refine ite_frame _ ?_ ?_) | split)

theorem execKeyImport_frame (L : Region → Bool) (hStaged : L .staged = true) (hFv : L .fv = true) (hWire : L .wire = true) (hDetect : L .detect = true) (hTp : L .tp = true) (hNm : L .nm = true) (hNet : L .net = true) (hTow : L .tow = true) (hLight : L .light = true) (hFree : L .free = true) {r : Req} {s : State} {t9} (h : execKeyImport r s = .next t9) :
    blank L t9 = blank L s := by
  unfold execKeyImport at h
  injection h with h
  subst h
  repeat' (first | with_reducible rfl | (refine Eq.trans (cmdAct_frame L hStaged hFv hWire hDetect hTp hNm hTow (keyClass_keeps L hWire hNet hLight hFree) _ _ _) ?_) | (simp only [hStaged, hFv, hWire, hDetect, hTp, hNm, hNet, hTow, hLight, hFree, apply_ite (blank L), ite_self]) | (with_reducible refine ite_frame _ ?_ ?_) | split)

theorem execKeyDerive_frame (L : Region → Bool) (hStaged : L .staged = true) (hFv : L .fv = true) (hWire : L .wire = true) (hDetect : L .detect = true) (hTp : L .tp = true) (hNm : L .nm = true) (hNet : L .net = true) (hTow : L .tow = true) (hLight : L .light = true) (hFree : L .free = true) {r : Req} {s : State} {t9} (h : execKeyDerive r s = .next t9) :
    blank L t9 = blank L s := by
  unfold execKeyDerive at h
  injection h with h
  subst h
  repeat' (first | with_reducible rfl | (refine Eq.trans (cmdAct_frame L hStaged hFv hWire hDetect hTp hNm hTow (keyClass_keeps L hWire hNet hLight hFree) _ _ _) ?_) | (simp only [hStaged, hFv, hWire, hDetect, hTp, hNm, hNet, hTow, hLight, hFree, apply_ite (blank L), ite_self]) | (with_reducible refine ite_frame _ ?_ ?_) | split)

theorem execKeyUpdate_frame (L : Region → Bool) (hStaged : L .staged = true) (hFv : L .fv = true) (hWire : L .wire = true) (hDetect : L .detect = true) (hTp : L .tp = true) (hNm : L .nm = true) (hNet : L .net = true) (hTow : L .tow = true) (hLight : L .light = true) (hFree : L .free = true) {r : Req} {s : State} {t9} (h : execKeyUpdate r s = .next t9) :
    blank L t9 = blank L s := by
  unfold execKeyUpdate at h
  injection h with h
  subst h
  repeat' (first | with_reducible rfl | (refine Eq.trans (cmdAct_frame L hStaged hFv hWire hDetect hTp hNm hTow (keyClass_keeps L hWire hNet hLight hFree) _ _ _) ?_) | (simp only [hStaged, hFv, hWire, hDetect, hTp, hNm, hNet, hTow, hLight, hFree, apply_ite (blank L), ite_self]) | (with_reducible refine ite_frame _ ?_ ?_) | split)

theorem execKeyInvalidate_frame (L : Region → Bool) (hStaged : L .staged = true) (hFv : L .fv = true) (hWire : L .wire = true) (hDetect : L .detect = true) (hTp : L .tp = true) (hNm : L .nm = true) (hNet : L .net = true) (hTow : L .tow = true) (hLight : L .light = true) (hFree : L .free = true) {r : Req} {s : State} {t9} (h : execKeyInvalidate r s = .next t9) :
    blank L t9 = blank L s := by
  unfold execKeyInvalidate at h
  injection h with h
  subst h
  repeat' (first | with_reducible rfl | (refine Eq.trans (cmdAct_frame L hStaged hFv hWire hDetect hTp hNm hTow (keyClass_keeps L hWire hNet hLight hFree) _ _ _) ?_) | (simp only [hStaged, hFv, hWire, hDetect, hTp, hNm, hNet, hTow, hLight, hFree, apply_ite (blank L), ite_self]) | (with_reducible refine ite_frame _ ?_ ?_) | split)

theorem execLightAttest_frame (L : Region → Bool) (hSys : L .sys = true) (hStaged : L .staged = true) (hFv : L .fv = true) (hWire : L .wire = true) (hDetect : L .detect = true) (hTp : L .tp = true) (hNm : L .nm = true) (hTow : L .tow = true) (hLight : L .light = true) (hAps : L .aps = true) (hFree : L .free = true) {r : Req} {s : State} {t9} (h : execLightAttest r s = .next t9) :
    blank L t9 = blank L s := by
  unfold execLightAttest at h
  injection h with h
  subst h
  repeat' (first | with_reducible rfl | (refine Eq.trans (cmdAct_frame L hStaged hFv hWire hDetect hTp hNm hTow (lightClass_keeps L hSys hLight hAps hFree) _ _ _) ?_) | (simp only [hSys, hStaged, hFv, hWire, hDetect, hTp, hNm, hTow, hLight, hAps, hFree, apply_ite (blank L), ite_self]) | (with_reducible refine ite_frame _ ?_ ?_) | split)

theorem execLightDebugChallenge_frame (L : Region → Bool) (hSys : L .sys = true) (hStaged : L .staged = true) (hFv : L .fv = true) (hWire : L .wire = true) (hDetect : L .detect = true) (hTp : L .tp = true) (hNm : L .nm = true) (hTow : L .tow = true) (hLight : L .light = true) (hAps : L .aps = true) (hFree : L .free = true) {r : Req} {tap : Bool} {s : State} {t9} (h : execLightDebugChallenge r tap s = .next t9) :
    blank L t9 = blank L s := by
  unfold execLightDebugChallenge at h
  injection h with h
  subst h
  repeat' (first | with_reducible rfl | (refine Eq.trans (cmdAct_frame L hStaged hFv hWire hDetect hTp hNm hTow (lightClass_keeps L hSys hLight hAps hFree) _ _ _) ?_) | (simp only [modLight_frame, openChallenge_frame, hSys, hStaged, hFv, hWire, hDetect, hTp, hNm, hTow, hLight, hAps, hFree, apply_ite (blank L), ite_self]) | (with_reducible refine ite_frame _ ?_ ?_) | split)

theorem execLightDebugResponse_frame (L : Region → Bool) (hSys : L .sys = true) (hStaged : L .staged = true) (hFv : L .fv = true) (hWire : L .wire = true) (hDetect : L .detect = true) (hTp : L .tp = true) (hNm : L .nm = true) (hTow : L .tow = true) (hLight : L .light = true) (hAps : L .aps = true) (hFree : L .free = true) {r : Req} {tap : Bool} {s : State} {t9} (h : execLightDebugResponse r tap s = .next t9) :
    blank L t9 = blank L s := by
  unfold execLightDebugResponse at h
  injection h with h
  subst h
  repeat' (first | with_reducible rfl | (refine Eq.trans (cmdAct_frame L hStaged hFv hWire hDetect hTp hNm hTow (lightClass_keeps L hSys hLight hAps hFree) _ _ _) ?_) | (simp only [failDebug_frame, grantDebug_frame, hSys, hStaged, hFv, hWire, hDetect, hTp, hNm, hTow, hLight, hAps, hFree, apply_ite (blank L), ite_self]) | (with_reducible refine ite_frame _ ?_ ?_) | split)

theorem execChallengeExpiry_frame (L : Region → Bool) (hLight : L .light = true) {s : State} {t9} (h : execChallengeExpiry s = .next t9) :
    blank L t9 = blank L s := by
  unfold execChallengeExpiry at h
  injection h with h
  subst h
  repeat' (first | with_reducible rfl | (simp only [modLight_frame, hLight, apply_ite (blank L), ite_self]) | (with_reducible refine ite_frame _ ?_ ?_) | split)

theorem execDebugAuthExpiry_frame (L : Region → Bool) (hSys : L .sys = true) (hLight : L .light = true) (hAps : L .aps = true) {s : State} {t9} (h : execDebugAuthExpiry s = .next t9) :
    blank L t9 = blank L s := by
  unfold execDebugAuthExpiry at h
  injection h with h
  subst h
  repeat' (first | with_reducible rfl | (simp only [endDebug_frame, hSys, hLight, hAps, apply_ite (blank L), ite_self]) | (with_reducible refine ite_frame _ ?_ ?_) | split)

theorem execBoundaryScanInstruction_frame (L : Region → Bool) (hSys : L .sys = true) {code : Nat} {s t9 : State}
    (h : execBoundaryScanInstruction code s = .next t9) : blank L t9 = blank L s := by
  unfold execBoundaryScanInstruction at h
  injection h with h
  subst h
  repeat' (first | with_reducible rfl | (simp only [modSys_frame, hSys, apply_ite (blank L), ite_self]) | (with_reducible refine ite_frame _ ?_ ?_) | split)

end Sys2Proof.Machine
end

