-- ==== Sys2Proof/Laws/FrameKeeper.lean ====
section
/-! SUPPORT. Frame lemmas of Machine/Keeper.lean: what each operation leaves alone. -/
set_option linter.unusedSimpArgs false
set_option linter.unusedVariables false
namespace Sys2Proof.Machine

theorem setDevState_frame (L : Region → Bool) (hFv : L .fv = true) (hWire : L .wire = true) (d : Nat) (s : State) :
    blank L (setDevState d s) = blank L s := by
  unfold setDevState
  repeat' (first | with_reducible rfl | ((with_reducible refine Eq.trans (modFv_part L _ _ ?_) ?_); (next => exact fun _ => by simp only [blankFv, hFv, if_true])) | (simp only [modWin_frame, hFv, hWire, apply_ite (blank L), ite_self]) | (with_reducible refine (foldl_pair_frame L _ (fun _ _ => ?_) _ _).trans ?_) | (with_reducible refine (foldl_frame L _ (fun _ _ => ?_) _ _).trans ?_) | (with_reducible refine ite_frame _ ?_ ?_) | split)

theorem stopPartitions_frame (L : Region → Bool) (hFv : L .fv = true) (hAps : L .aps = true) (warm : Bool) (s : State) :
    blank L (stopPartitions warm s) = blank L s := by
  unfold stopPartitions
  repeat' (first | with_reducible rfl | (simp only [modCore_frame, modPart_frame, modPound_frame, hFv, hAps, apply_ite (blank L), ite_self]) | (with_reducible refine (foldl_pair_frame L _ (fun _ _ => ?_) _ _).trans ?_) | (with_reducible refine (foldl_frame L _ (fun _ _ => ?_) _ _).trans ?_) | (with_reducible refine ite_frame _ ?_ ?_) | split)

theorem vcoreOff_frame (L : Region → Bool) (hWire : L .wire = true) (hNet : L .net = true) (hPwr : L .pwr = true) (s : State) :
    blank L (vcoreOff s) = blank L s := by
  simp only [vcoreOff, modPwr_frame, ovfGate_frame, hWire, hNet, hPwr]

theorem forgetRequests_frame (L : Region → Bool) (hWire : L .wire = true) (hMot : L .mot = true) (hTow : L .tow = true) (hPwr : L .pwr = true) (hImg : L .img = true) (s : State) :
    blank L (forgetRequests s) = blank L s := by
  unfold forgetRequests
  repeat' (first | with_reducible rfl | ((with_reducible refine Eq.trans (modFv_part L _ _ ?_) ?_); (next => exact fun _ => by simp only [blankFv, hWire, if_true])) | (simp only [modImg_frame, modMot_frame, modPwr_frame, modTow_frame, hWire, hMot, hTow, hPwr, hImg, apply_ite (blank L), ite_self]) | (with_reducible refine (foldl_pair_frame L _ (fun _ _ => ?_) _ _).trans ?_) | (with_reducible refine (foldl_frame L _ (fun _ _ => ?_) _ _).trans ?_) | (with_reducible refine ite_frame _ ?_ ?_) | split)

theorem lkRestart_frame (L : Region → Bool) (hCyc : L .cyc = true) (hStaged : L .staged = true) (hFv : L .fv = true) (hWire : L .wire = true) (hDetect : L .detect = true) (hTp : L .tp = true) (hSlu : L .slu = true) (hMot : L .mot = true) (hFio : L .fio = true) (hTow : L .tow = true) (hPwr : L .pwr = true) (hImg : L .img = true) (s : State) :
    blank L (lkRestart s) = blank L s := by
  unfold lkRestart
  repeat' (first | with_reducible rfl | (simp only [forgetRequests_frame, modCyc_frame, modFio_frame, modFv_frame, modImg_frame, modSlu_frame, modTow_frame, setDevState_frame, tpSet_frame, hCyc, hStaged, hFv, hWire, hDetect, hTp, hSlu, hMot, hFio, hTow, hPwr, hImg, apply_ite (blank L), ite_self]) | (with_reducible refine ite_frame _ ?_ ?_) | split)

theorem startTimer_frame (L : Region → Bool) (hCyc : L .cyc = true) (hWire : L .wire = true) (hFio : L .fio = true) (s : State) :
    blank L (startTimer s) = blank L s := by
  unfold startTimer
  repeat' (first | with_reducible rfl | ((with_reducible refine Eq.trans (modCyc_part L _ _ ?_) ?_); (next => exact fun _ => by simp only [blankCyc, hCyc, if_true])) | ((with_reducible refine Eq.trans (modFv_part L _ _ ?_) ?_); (next => exact fun _ => by simp only [blankFv, hWire, if_true])) | (simp only [modFio_frame, hCyc, hWire, hFio, apply_ite (blank L), ite_self]) | (with_reducible refine ite_frame _ ?_ ?_) | split)

theorem setBankState_frame (L : Region → Bool) (hImg : L .img = true) (b st : Nat) (s : State) :
    blank L (setBankState b st s) = blank L s := by
  unfold setBankState
  repeat' (first | with_reducible rfl | (simp only [modBankImg_frame, hImg, apply_ite (blank L), ite_self]) | (with_reducible refine ite_frame _ ?_ ?_) | split)

theorem setSlotState_frame (L : Region → Bool) (hImg : L .img = true) (k st : Nat) (s : State) :
    blank L (setSlotState k st s) = blank L s := by
  unfold setSlotState
  repeat' (first | with_reducible rfl | (simp only [modSlotImg_frame, hImg, apply_ite (blank L), ite_self]) | (with_reducible refine ite_frame _ ?_ ?_) | split)

theorem writeBoot_frame (L : Region → Bool) (hImg : L .img = true) (f : Boot → Boot) (s : State) :
    blank L (writeBoot f s) = blank L s := by
  simp only [writeBoot, modImg_frame, hImg]

theorem revertTrial_frame (L : Region → Bool) (hWire : L .wire = true) (hImg : L .img = true) (s : State) :
    blank L (revertTrial s) = blank L s := by
  unfold revertTrial
  repeat' (first | with_reducible rfl | (simp only [emit_frame, setBankState_frame, setSlotState_frame, writeBoot_frame, hWire, hImg, apply_ite (blank L), ite_self]) | (with_reducible refine ite_frame _ ?_ ?_) | split)

theorem cancelAct_frame (L : Region → Bool) (hFv : L .fv = true) (hWire : L .wire = true) (hImg : L .img = true) (st : Status) (s : State) :
    blank L (cancelAct st s) = blank L s := by
  unfold cancelAct
  repeat' (first | with_reducible rfl | (simp only [answer_frame, emit_frame, modImg_frame, setBankState_frame, setDevState_frame, hFv, hWire, hImg, apply_ite (blank L), ite_self]) | (with_reducible refine ite_frame _ ?_ ?_) | split)

theorem keeperDown_frame (L : Region → Bool) (hSys : L .sys = true) (hCyc : L .cyc = true) (hStaged : L .staged = true) (hTide : L .tide = true) (hFv : L .fv = true) (hWire : L .wire = true) (hSafe : L .safe = true) (hDetect : L .detect = true) (hBreach : L .breach = true) (hPond : L .pond = true) (hTp : L .tp = true) (hPow : L .pow = true) (hSlu : L .slu = true) (hMot : L .mot = true) (hFio : L .fio = true) (hCan : L .can = true) (hLin : L .lin = true) (hNm : L .nm = true) (hAq : L .aq = true) (hNet : L .net = true) (hTow : L .tow = true) (hLight : L .light = true) (hAps : L .aps = true) (hPwr : L .pwr = true) (hImg : L .img = true) (hMem : L .mem = true) (s : State) : blank L (keeperDown s) = blank L s := by
  simp only [keeperDown, blank, blankFv, blankSaf, blankCyc, hSys, hCyc, hStaged, hTide, hFv, hWire, hSafe, hDetect, hBreach, hPond, hTp, hPow, hSlu, hMot, hFio, hCan, hLin, hNm, hAq, hNet, hTow, hLight, hAps, hPwr, hImg, hMem, if_true]

theorem outputsOff_frame (L : Region → Bool) (hPow : L .pow = true) (hMot : L .mot = true) (hFio : L .fio = true) (s : State) :
    blank L (outputsOff s) = blank L s := by
  unfold outputsOff
  repeat' (first | with_reducible rfl | (simp only [foSet_frame, modBrDyn_frame, modSup_frame, switchOff_frame, hPow, hMot, hFio, apply_ite (blank L), ite_self]) | (with_reducible refine (foldl_pair_frame L _ (fun _ _ => ?_) _ _).trans ?_) | (with_reducible refine (foldl_frame L _ (fun _ _ => ?_) _ _).trans ?_) | (with_reducible refine ite_frame _ ?_ ?_) | split)

end Sys2Proof.Machine
end

