-- ==== Sys2Proof/Laws/FrameCores.lean ====
section
/-! SUPPORT. Frame lemmas of Machine/Cores.lean: what each operation leaves alone. -/
set_option linter.unusedSimpArgs false
set_option linter.unusedVariables false
namespace Sys2Proof.Machine

theorem coreBoundary_frame (L : Region → Bool) (hAps : L .aps = true) (s : State) :
    blank L (coreBoundary s) = blank L s := by
  unfold coreBoundary
  repeat' (first | with_reducible rfl | (simp only [modAps_frame, modLogical_frame, hAps, apply_ite (blank L), ite_self]) | (with_reducible refine (foldl_pair_frame L _ (fun _ _ => ?_) _ _).trans ?_) | (with_reducible refine (foldl_frame L _ (fun _ _ => ?_) _ _).trans ?_) | (with_reducible refine ite_frame _ ?_ ?_) | split)

theorem enterPart_frame (L : Region → Bool) (hTide : L .tide = true) (hFv : L .fv = true) (hAps : L .aps = true) (hFree : L .free = true) (p : Nat) (s : State) :
    blank L (enterPart p s) = blank L s := by
  unfold enterPart
  repeat' (first | with_reducible rfl | (with_reducible refine Eq.trans (takeFree_frame_eq L hFree (by with_reducible assumption)) ?_) | (simp only [clearSnap_frame, modPart_frame, modPound_frame, takeFree_frame, hTide, hFv, hAps, hFree, apply_ite (blank L), ite_self]) | (with_reducible refine ite_frame _ ?_ ?_) | split)

theorem fatalFault_frame (L : Region → Bool) (hCyc : L .cyc = true) (hStaged : L .staged = true) (hFv : L .fv = true) (hWire : L .wire = true) (hMot : L .mot = true) (hTow : L .tow = true) (hAps : L .aps = true) (hPwr : L .pwr = true) (hImg : L .img = true) (p : Nat) (s : State) :
    blank L (fatalFault p s) = blank L s := by
  unfold fatalFault
  repeat' (first | with_reducible rfl | (simp only [modPart_frame, startReset_frame, hCyc, hStaged, hFv, hWire, hMot, hTow, hAps, hPwr, hImg, apply_ite (blank L), ite_self]) | (with_reducible refine ite_frame _ ?_ ?_) | split)

theorem countHpm_frame (L : Region → Bool) (hAps : L .aps = true) (k n : Nat) (s : State) :
    blank L (countHpm k n s) = blank L s := by
  simp only [countHpm, modCore_frame, hAps]

theorem deliverIrqs_frame (L : Region → Bool) (hAps : L .aps = true) (p : Nat) (s : State) :
    blank L (deliverIrqs p s) = blank L s := by
  unfold deliverIrqs
  repeat' (first | with_reducible rfl | (simp only [modPart_frame, hAps, apply_ite (blank L), ite_self]) | (with_reducible refine (foldl_pair_frame L _ (fun _ _ => ?_) _ _).trans ?_) | (with_reducible refine (foldl_frame L _ (fun _ _ => ?_) _ _).trans ?_) | (with_reducible refine ite_frame _ ?_ ?_) | split)

theorem switchTo_frame (L : Region → Bool) (hAps : L .aps = true) (k : Nat) (nw : Option Nat) (s : State) :
    blank L (switchTo k nw s) = blank L s := by
  unfold switchTo
  repeat' (first | with_reducible rfl | (simp only [countHpm_frame, deliverIrqs_frame, modCore_frame, modPart_frame, hAps, apply_ite (blank L), ite_self]) | (with_reducible refine ite_frame _ ?_ ?_) | split)

theorem coreSpare_frame (L : Region → Bool) (hWire : L .wire = true) (k flags pound : Nat) (s : State) :
    blank L (coreSpare k flags pound s) = blank L s := by
  simp only [coreSpare, emit_frame, hWire]

theorem condemnCore_frame (L : Region → Bool) (hCyc : L .cyc = true) (hStaged : L .staged = true) (hFv : L .fv = true) (hWire : L .wire = true) (hPond : L .pond = true) (hMot : L .mot = true) (hTow : L .tow = true) (hAps : L .aps = true) (hPwr : L .pwr = true) (hImg : L .img = true) (k : Nat) (s : State) :
    blank L (condemnCore k s) = blank L s := by
  unfold condemnCore
  repeat' (first | with_reducible rfl | (simp only [coreSpare_frame, fatalFault_frame, modAps_frame, modCore_frame, modPart_frame, wearLog_frame, hCyc, hStaged, hFv, hWire, hPond, hMot, hTow, hAps, hPwr, hImg, apply_ite (blank L), ite_self]) | (with_reducible refine (foldl_pair_frame L _ (fun _ _ => ?_) _ _).trans ?_) | (with_reducible refine (foldl_frame L _ (fun _ _ => ?_) _ _).trans ?_) | (with_reducible refine ite_frame _ ?_ ?_) | split)

theorem takeOverCore_frame (L : Region → Bool) (hWire : L .wire = true) (hPond : L .pond = true) (hAps : L .aps = true) (w : SwapCore) (k : Nat) (s : State) :
    blank L (takeOverCore w k s) = blank L s := by
  unfold takeOverCore
  repeat' (first | with_reducible rfl | (simp only [coreSpare_frame, modAps_frame, modCore_frame, modPond_frame, pondIn_frame, switchTo_frame, hWire, hPond, hAps, apply_ite (blank L), ite_self]) | (with_reducible refine ite_frame _ ?_ ?_) | split)

theorem swapLost_frame (L : Region → Bool) (hCyc : L .cyc = true) (hStaged : L .staged = true) (hFv : L .fv = true) (hWire : L .wire = true) (hMot : L .mot = true) (hTow : L .tow = true) (hAps : L .aps = true) (hPwr : L .pwr = true) (hImg : L .img = true) (w : SwapCore) (s : State) :
    blank L (swapLost w s) = blank L s := by
  unfold swapLost
  repeat' (first | with_reducible rfl | (simp only [coreSpare_frame, fatalFault_frame, modAps_frame, modCore_frame, modPart_frame, hCyc, hStaged, hFv, hWire, hMot, hTow, hAps, hPwr, hImg, apply_ite (blank L), ite_self]) | (with_reducible refine (foldl_pair_frame L _ (fun _ _ => ?_) _ _).trans ?_) | (with_reducible refine (foldl_frame L _ (fun _ _ => ?_) _ _).trans ?_) | (with_reducible refine ite_frame _ ?_ ?_) | split)

theorem failSpare_frame (L : Region → Bool) (hCyc : L .cyc = true) (hStaged : L .staged = true) (hFv : L .fv = true) (hWire : L .wire = true) (hDetect : L .detect = true) (hPond : L .pond = true) (hMot : L .mot = true) (hTow : L .tow = true) (hAps : L .aps = true) (hPwr : L .pwr = true) (hImg : L .img = true) (k : Nat) (s : State) :
    blank L (failSpare k s) = blank L s := by
  unfold failSpare
  repeat' (first | with_reducible rfl | (simp only [coreSpare_frame, detect_frame, modCore_frame, modPond_frame, pondWear_frame, swapLost_frame, wearLog_frame, hCyc, hStaged, hFv, hWire, hDetect, hPond, hMot, hTow, hAps, hPwr, hImg, apply_ite (blank L), ite_self]) | (with_reducible refine ite_frame _ ?_ ?_) | split)

theorem coreMismatch_frame (L : Region → Bool) (hCyc : L .cyc = true) (hStaged : L .staged = true) (hFv : L .fv = true) (hWire : L .wire = true) (hDetect : L .detect = true) (hPond : L .pond = true) (hMot : L .mot = true) (hTow : L .tow = true) (hAps : L .aps = true) (hPwr : L .pwr = true) (hImg : L .img = true) (k : Nat) (second mon : Bool) (s : State) :
    blank L (coreMismatch k second mon s) = blank L s := by
  unfold coreMismatch
  repeat' (first | with_reducible rfl | (simp only [condemnCore_frame, countHpm_frame, detect_frame, emit_frame, fatalFault_frame, modCore_frame, modPart_frame, pondWear_frame, hCyc, hStaged, hFv, hWire, hDetect, hPond, hMot, hTow, hAps, hPwr, hImg, apply_ite (blank L), ite_self]) | (with_reducible refine (foldl_pair_frame L _ (fun _ _ => ?_) _ _).trans ?_) | (with_reducible refine (foldl_frame L _ (fun _ _ => ?_) _ _).trans ?_) | (with_reducible refine ite_frame _ ?_ ?_) | split)

theorem keeperMismatch_frame (L : Region → Bool) (hFv : L .fv = true) (hWire : L .wire = true) (hDetect : L .detect = true) (hTp : L .tp = true) (hPow : L .pow = true) (hSlu : L .slu = true) (hMot : L .mot = true) (hAps : L .aps = true) (hImg : L .img = true) (k : Nat) (second : Bool) (s : State) :
    blank L (keeperMismatch k second s) = blank L s := by
  unfold keeperMismatch
  repeat' (first | with_reducible rfl | ((with_reducible refine Eq.trans (modFv_part L _ _ ?_) ?_); (next => exact fun _ => by simp only [blankFv, hFv, if_true])) | (simp only [declareSilent_frame, detect_frame, modCore_frame, revertTrial_frame, hFv, hWire, hDetect, hTp, hPow, hSlu, hMot, hAps, hImg, apply_ite (blank L), ite_self]) | (with_reducible refine ite_frame _ ?_ ?_) | split)

theorem bringSram_frame (L : Region → Bool) (hPond : L .pond = true) (b : Nat) (s : State) :
    blank L (bringSram b s) = blank L s := by
  unfold bringSram
  repeat' (first | with_reducible rfl | (simp only [modPond_frame, hPond, apply_ite (blank L), ite_self]) | (with_reducible refine ite_frame _ ?_ ?_) | split)

theorem poisonWord_frame (L : Region → Bool) (hSys : L .sys = true) (addr : Nat) (s : State) :
    blank L (poisonWord addr s) = blank L s := by
  unfold poisonWord
  repeat' (first | with_reducible rfl | (simp only [modSys_frame, hSys, apply_ite (blank L), ite_self]) | (with_reducible refine ite_frame _ ?_ ?_) | split)

theorem sramUncorrectable_frame (L : Region → Bool) (hSys : L .sys = true) (hWire : L .wire = true) (hDetect : L .detect = true) (hAps : L .aps = true) (addr : Nat) (s : State) :
    blank L (sramUncorrectable addr s) = blank L s := by
  simp only [sramUncorrectable, detect_frame, modAps_frame, poisonWord_frame, hSys, hWire, hDetect, hAps]

theorem accessFault_frame (L : Region → Bool) (hSys : L .sys = true) (p : Nat) (s : State) :
    blank L (accessFault p s) = blank L s := by
  simp only [accessFault, modSys_frame, hSys]

theorem setTable_frame (L : Region → Bool) (hAps : L .aps = true) (k : Nat) (f : SlotTable → SlotTable) (s : State) :
    blank L (setTable k f s) = blank L s := by
  simp only [setTable, modLogical_frame, hAps]

theorem coreRec_keeps (L : Region → Bool) (hAps : L .aps = true) (k : Nat) : FldsKeep L (coreRec k).flds := by
  unfold coreRec
  repeat' (first | (refine FldsKeep.lift (fun _ _ => ?_)) | (refine FldsKeep.append ?_ ?_) | (refine FldsKeep.flatMap (fun _ => ?_)) | (refine FldsKeep.map (fun _ => ?_)) | (refine FldsKeep.cons ?_ ?_) | (exact FldsKeep.nil) | (exact fun _ _ => rfl) | (intro n9 s9) | (simp only [modCore_frame, setTable_frame, hAps, apply_ite (blank L), ite_self]))

theorem slotRec_keeps (L : Region → Bool) (hAps : L .aps = true) (k : Nat) : FldsKeep L (slotRec k).flds := by
  unfold slotRec
  repeat' (first | (refine FldsKeep.lift (fun _ _ => ?_)) | (refine FldsKeep.append ?_ ?_) | (refine FldsKeep.flatMap (fun _ => ?_)) | (refine FldsKeep.map (fun _ => ?_)) | (refine FldsKeep.cons ?_ ?_) | (exact FldsKeep.nil) | (exact fun _ _ => rfl) | (intro n9 s9) | (simp only [setTable_frame, hAps, apply_ite (blank L), ite_self]))

theorem partRec_keeps (L : Region → Bool) (hAps : L .aps = true) (p : Nat) : FldsKeep L (partRec p).flds := by
  unfold partRec
  repeat' (first | (refine FldsKeep.lift (fun _ _ => ?_)) | (refine FldsKeep.append ?_ ?_) | (refine FldsKeep.flatMap (fun _ => ?_)) | (refine FldsKeep.map (fun _ => ?_)) | (refine FldsKeep.cons ?_ ?_) | (exact FldsKeep.nil) | (exact fun _ _ => rfl) | (intro n9 s9) | (simp only [modPart_frame, hAps, apply_ite (blank L), ite_self]))

theorem memRec_keeps (L : Region → Bool) (hAps : L .aps = true)  : FldsKeep L (memRec ).flds := by
  unfold memRec
  repeat' (first | (refine FldsKeep.lift (fun _ _ => ?_)) | (refine FldsKeep.append ?_ ?_) | (refine FldsKeep.flatMap (fun _ => ?_)) | (refine FldsKeep.map (fun _ => ?_)) | (refine FldsKeep.cons ?_ ?_) | (exact FldsKeep.nil) | (exact fun _ _ => rfl) | (intro n9 s9) | (simp only [modAps_frame, hAps, apply_ite (blank L), ite_self]))

theorem coreRecord_keeps (L : Region → Bool) (hAps : L .aps = true) {i part : Nat} {rc : Rec} (h : coreRecord i part = some rc) : FldsKeep L rc.flds := by
  unfold coreRecord at h
  repeat' (split at h)
  all_goals first | (cases h; done) | (injection h with h; subst h; first | (exact FldsKeep.nil) | (with_reducible exact slotRec_keeps L hAps _) | (with_reducible exact memRec_keeps L hAps ) | (with_reducible exact coreRec_keeps L hAps _) | (with_reducible exact partRec_keeps L hAps _))

theorem startSwapCore_frame (L : Region → Bool) (hAps : L .aps = true) (k : Nat) (s : State) :
    blank L (startSwapCore k s) = blank L s := by
  unfold startSwapCore
  repeat' (first | with_reducible rfl | (simp only [modAps_frame, modCore_frame, hAps, apply_ite (blank L), ite_self]) | (with_reducible refine ite_frame _ ?_ ?_) | split)

theorem coreClass_keeps (L : Region → Bool) (hAps : L .aps = true)  : Keeps L (coreClass) where
  record h := by
    simp only [coreClass] at h
    repeat' (split at h)
    all_goals first | (cases h; done) | (with_reducible exact coreRecord_keeps L hAps h) | (injection h with h; subst h; first | (exact FldsKeep.nil))
  after _ _ _ _ _ := by
    simp only [coreClass]
    repeat' (first | with_reducible rfl | (simp only [modPart_frame, startSwapCore_frame, hAps, apply_ite (blank L), ite_self]) | (with_reducible refine ite_frame _ ?_ ?_) | split)
  onRead _ _ _ _ _ := by
    simp only [coreClass]
    repeat' (first | with_reducible rfl | (simp only [modPart_frame, startSwapCore_frame, hAps, apply_ite (blank L), ite_self]) | (with_reducible refine ite_frame _ ?_ ?_) | split)
  held h := by
    first
    | (cases h; done)
    | (simp only [coreClass] at h; exact absurd h)
  acts := by
    simp only [coreClass]
    repeat' (first | (exact ActsKeep.nil) | (refine ActsKeep.cons ?_ ?_) | (refine ⟨fun _ _ _ _ => ?_, fun _ => ?_, fun _ _ _ => ?_, fun h9 => ?_⟩) | (cases h9; done) | (injection h9 with h9; subst h9) | with_reducible rfl | (simp only [modPart_frame, startSwapCore_frame, hAps, apply_ite (blank L), ite_self]) | (with_reducible refine ite_frame _ ?_ ?_) | split)

theorem execCoreSet_frame (L : Region → Bool) (hStaged : L .staged = true) (hFv : L .fv = true) (hWire : L .wire = true) (hDetect : L .detect = true) (hTp : L .tp = true) (hNm : L .nm = true) (hTow : L .tow = true) (hAps : L .aps = true) {r : Req} {s : State} {t9} (h : execCoreSet r s = .next t9) :
    blank L t9 = blank L s := by
  unfold execCoreSet at h
  injection h with h
  subst h
  repeat' (first | with_reducible rfl | (refine Eq.trans (cmdSet_frame L hStaged hFv hWire hDetect hTp hNm hTow (coreClass_keeps L hAps) _ _) ?_) | (simp only [hStaged, hFv, hWire, hDetect, hTp, hNm, hTow, hAps, apply_ite (blank L), ite_self]) | (with_reducible refine ite_frame _ ?_ ?_) | split)

theorem execCoreSwap_frame (L : Region → Bool) (hStaged : L .staged = true) (hFv : L .fv = true) (hWire : L .wire = true) (hDetect : L .detect = true) (hTp : L .tp = true) (hNm : L .nm = true) (hTow : L .tow = true) (hAps : L .aps = true) {r : Req} {s : State} {t9} (h : execCoreSwap r s = .next t9) :
    blank L t9 = blank L s := by
  unfold execCoreSwap at h
  injection h with h
  subst h
  repeat' (first | with_reducible rfl | (refine Eq.trans (cmdAct_frame L hStaged hFv hWire hDetect hTp hNm hTow (coreClass_keeps L hAps) _ _ _) ?_) | (simp only [hStaged, hFv, hWire, hDetect, hTp, hNm, hTow, hAps, apply_ite (blank L), ite_self]) | (with_reducible refine ite_frame _ ?_ ?_) | split)

theorem execSpareTakeover_frame (L : Region → Bool) (hWire : L .wire = true) (hPond : L .pond = true) (hAps : L .aps = true) {s : State} {t9} (h : execSpareTakeover s = .next t9) :
    blank L t9 = blank L s := by
  unfold execSpareTakeover at h
  injection h with h
  subst h
  repeat' (first | with_reducible rfl | (simp only [takeOverCore_frame, hWire, hPond, hAps, apply_ite (blank L), ite_self]) | (with_reducible refine ite_frame _ ?_ ?_) | split)

theorem execSlotStart_frame (L : Region → Bool) (hTide : L .tide = true) (hFv : L .fv = true) (hAps : L .aps = true) (hFree : L .free = true) {k j : Nat} {s : State} {t9} (h : execSlotStart k j s = .next t9) :
    blank L t9 = blank L s := by
  obtain ⟨-, rfl⟩ := guardUnit_next h
  repeat' (first | with_reducible rfl | (simp only [enterPart_frame, switchTo_frame, hTide, hFv, hAps, hFree, apply_ite (blank L), ite_self]) | (with_reducible refine ite_frame _ ?_ ?_) | split)

theorem execCoreMismatch_frame (L : Region → Bool) (hCyc : L .cyc = true) (hStaged : L .staged = true) (hFv : L .fv = true) (hWire : L .wire = true) (hDetect : L .detect = true) (hPond : L .pond = true) (hTp : L .tp = true) (hPow : L .pow = true) (hSlu : L .slu = true) (hMot : L .mot = true) (hTow : L .tow = true) (hAps : L .aps = true) (hPwr : L .pwr = true) (hImg : L .img = true) {k : Nat} {second mon injected : Bool} {s : State} {t9} (h : execCoreMismatch k second mon injected s = .next t9) :
    blank L t9 = blank L s := by
  obtain ⟨-, rfl⟩ := guardUnit_next h
  repeat' (first | with_reducible rfl | (simp only [coreMismatch_frame, countHpm_frame, keeperMismatch_frame, modCore_frame, hCyc, hStaged, hFv, hWire, hDetect, hPond, hTp, hPow, hSlu, hMot, hTow, hAps, hPwr, hImg, apply_ite (blank L), ite_self]) | (with_reducible refine ite_frame _ ?_ ?_) | split)

theorem execLbistComplete_frame (L : Region → Bool) (hCyc : L .cyc = true) (hStaged : L .staged = true) (hFv : L .fv = true) (hWire : L .wire = true) (hDetect : L .detect = true) (hPond : L .pond = true) (hMot : L .mot = true) (hTow : L .tow = true) (hAps : L .aps = true) (hPwr : L .pwr = true) (hImg : L .img = true) {k : Nat} {pass : Bool} {s : State} {t9} (h : execLbistComplete k pass s = .next t9) :
    blank L t9 = blank L s := by
  obtain ⟨-, rfl⟩ := guardUnit_next h
  repeat' (first | with_reducible rfl | (simp only [condemnCore_frame, detect_frame, failSpare_frame, modCore_frame, modPond_frame, hCyc, hStaged, hFv, hWire, hDetect, hPond, hMot, hTow, hAps, hPwr, hImg, apply_ite (blank L), ite_self]) | (with_reducible refine ite_frame _ ?_ ?_) | split)

theorem execSpareLbist_frame (L : Region → Bool) (hCyc : L .cyc = true) (hStaged : L .staged = true) (hFv : L .fv = true) (hWire : L .wire = true) (hDetect : L .detect = true) (hPond : L .pond = true) (hMot : L .mot = true) (hTow : L .tow = true) (hAps : L .aps = true) (hPwr : L .pwr = true) (hImg : L .img = true) {pass : Bool} {s : State} {t9} (h : execSpareLbist pass s = .next t9) :
    blank L t9 = blank L s := by
  unfold execSpareLbist at h
  injection h with h
  subst h
  repeat' (first | with_reducible rfl | (simp only [failSpare_frame, modCore_frame, hCyc, hStaged, hFv, hWire, hDetect, hPond, hMot, hTow, hAps, hPwr, hImg, apply_ite (blank L), ite_self]) | (with_reducible refine ite_frame _ ?_ ?_) | split)

theorem stuckWord_frame (L : Region → Bool) (hWire : L .wire = true) (hPond : L .pond = true) (w : Nat) (s : State) :
    blank L (stuckWord w s) = blank L s := by
  unfold stuckWord
  repeat' (first | with_reducible rfl | (simp only [bringSram_frame, modPond_frame, pondWear_frame, hWire, hPond, apply_ite (blank L), ite_self]) | (with_reducible refine ite_frame _ ?_ ?_) | split)

theorem execScrubPass_frame (L : Region → Bool) (hSys : L .sys = true) (hWire : L .wire = true) (hDetect : L .detect = true) (hPond : L .pond = true) (hAps : L .aps = true) {corrected l2 l1 : Nat} {stuck uncorr : List Nat} {s : State} {t9} (h : execScrubPass corrected l2 l1 stuck uncorr s = .next t9) :
    blank L t9 = blank L s := by
  unfold execScrubPass at h
  injection h with h
  subst h
  repeat' (first | with_reducible rfl | (simp only [modAps_frame, sramUncorrectable_frame, stuckWord_frame, hSys, hWire, hDetect, hPond, hAps, apply_ite (blank L), ite_self]) | (with_reducible refine (foldl_pair_frame L _ (fun _ _ => ?_) _ _).trans ?_) | (with_reducible refine (foldl_frame L _ (fun _ _ => ?_) _ _).trans ?_) | (with_reducible refine ite_frame _ ?_ ?_) | split)

theorem execSramUncorrectable_frame (L : Region → Bool) (hSys : L .sys = true) (hCyc : L .cyc = true) (hStaged : L .staged = true) (hFv : L .fv = true) (hWire : L .wire = true) (hDetect : L .detect = true) (hPond : L .pond = true) (hMot : L .mot = true) (hTow : L .tow = true) (hAps : L .aps = true) (hPwr : L .pwr = true) (hImg : L .img = true) {addr : Nat} {p : Option Nat} {mon : Bool} {place : Nat} {recurs : Bool} {s : State} {t9} (h : execSramUncorrectable addr p mon place recurs s = .next t9) :
    blank L t9 = blank L s := by
  obtain ⟨-, rfl⟩ := guardUnit_next h
  repeat' (first | with_reducible rfl | (simp only [accessFault_frame, bringSram_frame, detect_frame, fatalFault_frame, modAps_frame, modPart_frame, place_frame, sramUncorrectable_frame, hSys, hCyc, hStaged, hFv, hWire, hDetect, hPond, hMot, hTow, hAps, hPwr, hImg, apply_ite (blank L), ite_self]) | (with_reducible refine ite_frame _ ?_ ?_) | split)

theorem execAccessFault_frame (L : Region → Bool) (hSys : L .sys = true) (hAps : L .aps = true) {p addr kind : Nat} {s : State} {t9} (h : execAccessFault p addr kind s = .next t9) :
    blank L t9 = blank L s := by
  obtain ⟨-, rfl⟩ := guardUnit_next h
  repeat' (first | with_reducible rfl | (simp only [accessFault_frame, modPart_frame, hSys, hAps, apply_ite (blank L), ite_self]) | (with_reducible refine ite_frame _ ?_ ?_) | split)

theorem execDebugHalt_frame (L : Region → Bool) (hAps : L .aps = true) {k : Nat} {s : State} {t9} (h : execDebugHalt k s = .next t9) :
    blank L t9 = blank L s := by
  obtain ⟨-, rfl⟩ := guardUnit_next h
  repeat' (first | with_reducible rfl | (simp only [modCore_frame, hAps, apply_ite (blank L), ite_self]) | (with_reducible refine ite_frame _ ?_ ?_) | split)

theorem execDebugResume_frame (L : Region → Bool) (hAps : L .aps = true) {k : Nat} {s : State} {t9} (h : execDebugResume k s = .next t9) :
    blank L t9 = blank L s := by
  obtain ⟨-, rfl⟩ := guardUnit_next h
  repeat' (first | with_reducible rfl | (simp only [modCore_frame, hAps, apply_ite (blank L), ite_self]) | (with_reducible refine ite_frame _ ?_ ?_) | split)

end Sys2Proof.Machine
end

