-- ==== Sys2Proof/Laws/FramePower.lean ====
section
/-! SUPPORT. Frame lemmas of Machine/Power.lean: what each operation leaves alone. -/
set_option linter.unusedSimpArgs false
set_option linter.unusedVariables false
namespace Sys2Proof.Machine

theorem startChange_frame (L : Region → Bool) (hPwr : L .pwr = true) (l : Nat) (req : Option Req) (s : State) :
    blank L (startChange l req s) = blank L s := by
  simp only [startChange, modPwr_frame, hPwr]

theorem powerRec_keeps (L : Region → Bool) (hPwr : L .pwr = true)  : FldsKeep L (powerRec ).flds := by
  unfold powerRec
  repeat' (first | (refine FldsKeep.lift (fun _ _ => ?_)) | (refine FldsKeep.append ?_ ?_) | (refine FldsKeep.flatMap (fun _ => ?_)) | (refine FldsKeep.map (fun _ => ?_)) | (refine FldsKeep.cons ?_ ?_) | (exact FldsKeep.nil) | (exact fun _ _ => rfl) | (intro n9 s9) | (simp only [modPwr_frame, hPwr, apply_ite (blank L), ite_self]))

theorem awakeRec_keeps (L : Region → Bool) (hPwr : L .pwr = true) (i : Nat) : FldsKeep L (awakeRec i).flds := by
  unfold awakeRec
  repeat' (first | (refine FldsKeep.lift (fun _ _ => ?_)) | (refine FldsKeep.append ?_ ?_) | (refine FldsKeep.flatMap (fun _ => ?_)) | (refine FldsKeep.map (fun _ => ?_)) | (refine FldsKeep.cons ?_ ?_) | (exact FldsKeep.nil) | (exact fun _ _ => rfl) | (intro n9 s9) | (simp only [modAwake_frame, hPwr, apply_ite (blank L), ite_self]))

theorem wakeRec0_keeps (L : Region → Bool) (hPwr : L .pwr = true)  : FldsKeep L (wakeRec0 ).flds := by
  unfold wakeRec0
  repeat' (first | (refine FldsKeep.lift (fun _ _ => ?_)) | (refine FldsKeep.append ?_ ?_) | (refine FldsKeep.flatMap (fun _ => ?_)) | (refine FldsKeep.map (fun _ => ?_)) | (refine FldsKeep.cons ?_ ?_) | (exact FldsKeep.nil) | (exact fun _ _ => rfl) | (intro n9 s9) | (simp only [modPwr_frame, hPwr, apply_ite (blank L), ite_self]))

theorem powerRecord_keeps (L : Region → Bool) (hPwr : L .pwr = true) {i part : Nat} {rc : Rec} (h : powerRecord i part = some rc) : FldsKeep L rc.flds := by
  unfold powerRecord at h
  repeat' (split at h)
  all_goals first | (cases h; done) | (injection h with h; subst h; first | (exact FldsKeep.nil) | (with_reducible exact awakeRec_keeps L hPwr _) | (with_reducible exact wakeRec0_keeps L hPwr ) | (with_reducible exact powerRec_keeps L hPwr ))

theorem levelHeld_frame (L : Region → Bool) (hPwr : L .pwr = true) {r : Req} {x0 : Nat} {ws : List (Nat × Nat)} {s : State} {t9} (h : levelHeld r x0 ws s = some t9) :
    blank L t9 = blank L s := by
  unfold levelHeld at h
  try dsimp only at h
  repeat' (split at h)
  all_goals first | (cases h; done) | (injection h with h; subst h; repeat' (first | with_reducible rfl | (refine Eq.trans (writeFlds_frame L (powerRec_keeps L hPwr) _ _) ?_) | (simp only [startChange_frame, hPwr, apply_ite (blank L), ite_self]) | (with_reducible refine ite_frame _ ?_ ?_) | split))

theorem armWake_frame (L : Region → Bool) (hFio : L .fio = true) (hLin : L .lin = true) (hNm : L .nm = true) (hPwr : L .pwr = true) (s : State) :
    blank L (armWake s) = blank L s := by
  unfold armWake
  repeat' (first | with_reducible rfl | (simp only [armCan_frame, disarmCan_frame, modDi_frame, modLinCh_frame, modPwr_frame, hFio, hLin, hNm, hPwr, apply_ite (blank L), ite_self]) | (with_reducible refine (foldl_pair_frame L _ (fun _ _ => ?_) _ _).trans ?_) | (with_reducible refine (foldl_frame L _ (fun _ _ => ?_) _ _).trans ?_) | (with_reducible refine ite_frame _ ?_ ?_) | split)

theorem armLast_frame (L : Region → Bool) (hFio : L .fio = true) (hLin : L .lin = true) (hNm : L .nm = true) (hPwr : L .pwr = true) (s : State) :
    blank L (armLast s) = blank L s := by
  unfold armLast
  repeat' (first | with_reducible rfl | (simp only [modAwake_frame, modDi_frame, modFio_frame, modLinCh_frame, modNm_frame, modPwr_frame, hFio, hLin, hNm, hPwr, apply_ite (blank L), ite_self]) | (with_reducible refine (foldl_pair_frame L _ (fun _ _ => ?_) _ _).trans ?_) | (with_reducible refine (foldl_frame L _ (fun _ _ => ?_) _ _).trans ?_) | (with_reducible refine ite_frame _ ?_ ?_) | split)

theorem supsStandby_frame (L : Region → Bool) (hFio : L .fio = true) (on : Bool) (s : State) :
    blank L (supsStandby on s) = blank L s := by
  unfold supsStandby
  repeat' (first | with_reducible rfl | (simp only [modSup_frame, hFio, apply_ite (blank L), ite_self]) | (with_reducible refine (foldl_pair_frame L _ (fun _ _ => ?_) _ _).trans ?_) | (with_reducible refine (foldl_frame L _ (fun _ _ => ?_) _ _).trans ?_) | (with_reducible refine ite_frame _ ?_ ?_) | split)

theorem sleepBegin_frame (L : Region → Bool) (hFv : L .fv = true) (hWire : L .wire = true) (hPow : L .pow = true) (hSlu : L .slu = true) (hMot : L .mot = true) (hFio : L .fio = true) (hLin : L .lin = true) (hNm : L .nm = true) (hNet : L .net = true) (hAps : L .aps = true) (hPwr : L .pwr = true) (auto : Bool) (s : State) :
    blank L (sleepBegin auto s) = blank L s := by
  unfold sleepBegin
  repeat' (first | with_reducible rfl | (simp only [armWake_frame, modPwr_frame, nmMoor_frame, outputsOff_frame, setPowerState_frame, stopPartitions_frame, storeNodes_frame, hFv, hWire, hPow, hSlu, hMot, hFio, hLin, hNm, hNet, hAps, hPwr, apply_ite (blank L), ite_self]) | (with_reducible refine (foldl_pair_frame L _ (fun _ _ => ?_) _ _).trans ?_) | (with_reducible refine (foldl_frame L _ (fun _ _ => ?_) _ _).trans ?_) | (with_reducible refine ite_frame _ ?_ ?_) | split)

theorem enterPower_frame (L : Region → Bool) (hFv : L .fv = true) (hWire : L .wire = true) (hTp : L .tp = true) (hPow : L .pow = true) (hSlu : L .slu = true) (hMot : L .mot = true) (hFio : L .fio = true) (hLin : L .lin = true) (hNm : L .nm = true) (hNet : L .net = true) (hAps : L .aps = true) (hPwr : L .pwr = true) (t : Nat) (auto : Bool) (s : State) :
    blank L (enterPower t auto s) = blank L s := by
  unfold enterPower
  repeat' (first | with_reducible rfl | (simp only [abortSleep_frame, modPwr_frame, sleepBegin_frame, stopPartitions_frame, vcoreReturn_frame, hFv, hWire, hTp, hPow, hSlu, hMot, hFio, hLin, hNm, hNet, hAps, hPwr, apply_ite (blank L), ite_self]) | (with_reducible refine ite_frame _ ?_ ?_) | split)

theorem powerClass_keeps (L : Region → Bool) (hFv : L .fv = true) (hWire : L .wire = true) (hTp : L .tp = true) (hPow : L .pow = true) (hSlu : L .slu = true) (hMot : L .mot = true) (hFio : L .fio = true) (hLin : L .lin = true) (hNm : L .nm = true) (hNet : L .net = true) (hAps : L .aps = true) (hPwr : L .pwr = true)  : Keeps L (powerClass) where
  record h := by
    simp only [powerClass] at h
    repeat' (split at h)
    all_goals first | (cases h; done) | (with_reducible exact powerRecord_keeps L hPwr h) | (injection h with h; subst h; first | (exact FldsKeep.nil))
  after _ _ _ _ _ := by
    simp only [powerClass]
    repeat' (first | with_reducible rfl | (with_reducible refine Eq.trans (levelHeld_frame L hPwr (by with_reducible assumption)) ?_) | (simp only [enterPower_frame, hFv, hWire, hTp, hPow, hSlu, hMot, hFio, hLin, hNm, hNet, hAps, hPwr, apply_ite (blank L), ite_self]) | (with_reducible refine ite_frame _ ?_ ?_) | split)
  onRead _ _ _ _ _ := by
    simp only [powerClass]
    repeat' (first | with_reducible rfl | (with_reducible refine Eq.trans (levelHeld_frame L hPwr (by with_reducible assumption)) ?_) | (simp only [enterPower_frame, hFv, hWire, hTp, hPow, hSlu, hMot, hFio, hLin, hNm, hNet, hAps, hPwr, apply_ite (blank L), ite_self]) | (with_reducible refine ite_frame _ ?_ ?_) | split)
  held h := by
    first
    | (cases h; done)
    | (simp only [powerClass] at h; exact levelHeld_frame L hPwr h)
  acts := by
    simp only [powerClass]
    repeat' (first | (exact ActsKeep.nil) | (refine ActsKeep.cons ?_ ?_) | (refine ⟨fun _ _ _ _ => ?_, fun _ => ?_, fun _ _ _ => ?_, fun h9 => ?_⟩) | (cases h9; done) | (injection h9 with h9; subst h9) | with_reducible rfl | (with_reducible refine Eq.trans (levelHeld_frame L hPwr (by with_reducible assumption)) ?_) | (simp only [enterPower_frame, hFv, hWire, hTp, hPow, hSlu, hMot, hFio, hLin, hNm, hNet, hAps, hPwr, apply_ite (blank L), ite_self]) | (with_reducible refine ite_frame _ ?_ ?_) | split)

theorem enterSleep_frame (L : Region → Bool) (hSys : L .sys = true) (hCyc : L .cyc = true) (hStaged : L .staged = true) (hTide : L .tide = true) (hFv : L .fv = true) (hWire : L .wire = true) (hSafe : L .safe = true) (hDetect : L .detect = true) (hBreach : L .breach = true) (hPond : L .pond = true) (hTp : L .tp = true) (hPow : L .pow = true) (hSlu : L .slu = true) (hMot : L .mot = true) (hFio : L .fio = true) (hCan : L .can = true) (hLin : L .lin = true) (hNm : L .nm = true) (hAq : L .aq = true) (hNet : L .net = true) (hTow : L .tow = true) (hLight : L .light = true) (hAps : L .aps = true) (hPwr : L .pwr = true) (hImg : L .img = true) (hMem : L .mem = true) (s : State) :
    blank L (enterSleep s) = blank L s := by
  unfold enterSleep
  repeat' (first | with_reducible rfl | (simp only [keeperDown_frame, modPwr_frame, hSys, hCyc, hStaged, hTide, hFv, hWire, hSafe, hDetect, hBreach, hPond, hTp, hPow, hSlu, hMot, hFio, hCan, hLin, hNm, hAq, hNet, hTow, hLight, hAps, hPwr, hImg, hMem, apply_ite (blank L), ite_self]) | (with_reducible refine ite_frame _ ?_ ?_) | split)

theorem execPowerSet_frame (L : Region → Bool) (hStaged : L .staged = true) (hFv : L .fv = true) (hWire : L .wire = true) (hDetect : L .detect = true) (hTp : L .tp = true) (hPow : L .pow = true) (hSlu : L .slu = true) (hMot : L .mot = true) (hFio : L .fio = true) (hLin : L .lin = true) (hNm : L .nm = true) (hNet : L .net = true) (hTow : L .tow = true) (hAps : L .aps = true) (hPwr : L .pwr = true) {r : Req} {s : State} {t9} (h : execPowerSet r s = .next t9) :
    blank L t9 = blank L s := by
  unfold execPowerSet at h
  injection h with h
  subst h
  repeat' (first | with_reducible rfl | (refine Eq.trans (cmdSet_frame L hStaged hFv hWire hDetect hTp hNm hTow (powerClass_keeps L hFv hWire hTp hPow hSlu hMot hFio hLin hNm hNet hAps hPwr) _ _) ?_) | (simp only [hStaged, hFv, hWire, hDetect, hTp, hPow, hSlu, hMot, hFio, hLin, hNm, hNet, hTow, hAps, hPwr, apply_ite (blank L), ite_self]) | (with_reducible refine ite_frame _ ?_ ?_) | split)

theorem execAvsAcknowledge_frame (L : Region → Bool) (hWire : L .wire = true) (hPwr : L .pwr = true) {mv : Nat} {s : State} {t9} (h : execAvsAcknowledge mv s = .next t9) :
    blank L t9 = blank L s := by
  unfold execAvsAcknowledge at h
  injection h with h
  subst h
  repeat' (first | with_reducible rfl | (simp only [answer_frame, modPwr_frame, hWire, hPwr, apply_ite (blank L), ite_self]) | (with_reducible refine ite_frame _ ?_ ?_) | split)

theorem execAvsAttemptTimeout_frame (L : Region → Bool) (hWire : L .wire = true) (hPwr : L .pwr = true) {s : State} {t9} (h : execAvsAttemptTimeout s = .next t9) :
    blank L t9 = blank L s := by
  unfold execAvsAttemptTimeout at h
  injection h with h
  subst h
  repeat' (first | with_reducible rfl | (simp only [answer_frame, emit_frame, modPwr_frame, hWire, hPwr, apply_ite (blank L), ite_self]) | (with_reducible refine ite_frame _ ?_ ?_) | split)

theorem execPowerEnter_frame (L : Region → Bool) (hStaged : L .staged = true) (hFv : L .fv = true) (hWire : L .wire = true) (hDetect : L .detect = true) (hTp : L .tp = true) (hPow : L .pow = true) (hSlu : L .slu = true) (hMot : L .mot = true) (hFio : L .fio = true) (hLin : L .lin = true) (hNm : L .nm = true) (hNet : L .net = true) (hTow : L .tow = true) (hAps : L .aps = true) (hPwr : L .pwr = true) {r : Req} {s : State} {t9} (h : execPowerEnter r s = .next t9) :
    blank L t9 = blank L s := by
  unfold execPowerEnter at h
  injection h with h
  subst h
  repeat' (first | with_reducible rfl | (refine Eq.trans (cmdAct_frame L hStaged hFv hWire hDetect hTp hNm hTow (powerClass_keeps L hFv hWire hTp hPow hSlu hMot hFio hLin hNm hNet hAps hPwr) _ _ _) ?_) | (simp only [hStaged, hFv, hWire, hDetect, hTp, hPow, hSlu, hMot, hFio, hLin, hNm, hNet, hTow, hAps, hPwr, apply_ite (blank L), ite_self]) | (with_reducible refine ite_frame _ ?_ ?_) | split)

theorem execTransitionComplete_frame (L : Region → Bool) (hWire : L .wire = true) (hSlu : L .slu = true) (hFio : L .fio = true) (hNet : L .net = true) (hPwr : L .pwr = true) {s : State} {t9} (h : execTransitionComplete s = .next t9) :
    blank L t9 = blank L s := by
  unfold execTransitionComplete at h
  injection h with h
  subst h
  repeat' (first | with_reducible rfl | (simp only [modPwr_frame, ovfGate_frame, setPowerState_frame, storeNodes_frame, supsStandby_frame, vcoreOff_frame, hWire, hSlu, hFio, hNet, hPwr, apply_ite (blank L), ite_self]) | (with_reducible refine ite_frame _ ?_ ?_) | split)

theorem execSleepEntry_frame (L : Region → Bool) (hSys : L .sys = true) (hCyc : L .cyc = true) (hStaged : L .staged = true) (hTide : L .tide = true) (hFv : L .fv = true) (hWire : L .wire = true) (hSafe : L .safe = true) (hDetect : L .detect = true) (hBreach : L .breach = true) (hPond : L .pond = true) (hTp : L .tp = true) (hPow : L .pow = true) (hSlu : L .slu = true) (hMot : L .mot = true) (hFio : L .fio = true) (hCan : L .can = true) (hLin : L .lin = true) (hNm : L .nm = true) (hAq : L .aq = true) (hNet : L .net = true) (hTow : L .tow = true) (hLight : L .light = true) (hAps : L .aps = true) (hPwr : L .pwr = true) (hImg : L .img = true) (hMem : L .mem = true) {s : State} {t9} (h : execSleepEntry s = .next t9) :
    blank L t9 = blank L s := by
  unfold execSleepEntry at h
  injection h with h
  subst h
  repeat' (first | with_reducible rfl | (simp only [enterSleep_frame, hSys, hCyc, hStaged, hTide, hFv, hWire, hSafe, hDetect, hBreach, hPond, hTp, hPow, hSlu, hMot, hFio, hCan, hLin, hNm, hAq, hNet, hTow, hLight, hAps, hPwr, hImg, hMem, apply_ite (blank L), ite_self]) | (with_reducible refine ite_frame _ ?_ ?_) | split)

theorem execAutoSleep_frame (L : Region → Bool) (hStaged : L .staged = true) {s : State} {t9} (h : execAutoSleep s = .next t9) :
    blank L t9 = blank L s := by
  unfold execAutoSleep at h
  injection h with h
  subst h
  repeat' (first | with_reducible rfl | ((with_reducible refine Eq.trans (modCyc_part L _ _ ?_) ?_); (next => exact fun _ => by simp only [blankCyc, hStaged, if_true])) | (simp only [hStaged, apply_ite (blank L), ite_self]) | (with_reducible refine ite_frame _ ?_ ?_) | split)

theorem execAwakeThreshold_frame (L : Region → Bool) (hWire : L .wire = true) (hTp : L .tp = true) (hNet : L .net = true) (hPwr : L .pwr = true) {i v : Nat} {above : Bool} {s : State} {t9} (h : execAwakeThreshold i v above s = .next t9) :
    blank L t9 = blank L s := by
  obtain ⟨-, rfl⟩ := guardUnit_next h
  repeat' (first | with_reducible rfl | (simp only [modAwake_frame, modPwr_frame, regWake_frame, hWire, hTp, hNet, hPwr, apply_ite (blank L), ite_self]) | (with_reducible refine ite_frame _ ?_ ?_) | split)

theorem execWakeTimer_frame (L : Region → Bool) (hWire : L .wire = true) (hTp : L .tp = true) (hNet : L .net = true) (hPwr : L .pwr = true) {s : State} {t9} (h : execWakeTimer s = .next t9) :
    blank L t9 = blank L s := by
  unfold execWakeTimer at h
  injection h with h
  subst h
  repeat' (first | with_reducible rfl | (simp only [regWake_frame, hWire, hTp, hNet, hPwr, apply_ite (blank L), ite_self]) | (with_reducible refine ite_frame _ ?_ ?_) | split)

theorem execLimpWake_frame (L : Region → Bool) (hSys : L .sys = true) (hWire : L .wire = true) (hTp : L .tp = true) (hNet : L .net = true) (hPwr : L .pwr = true) {s : State} {t9} (h : execLimpWake s = .next t9) :
    blank L t9 = blank L s := by
  unfold execLimpWake at h
  injection h with h
  subst h
  repeat' (first | with_reducible rfl | (simp only [modSys_frame, regWake_frame, hSys, hWire, hTp, hNet, hPwr, apply_ite (blank L), ite_self]) | (with_reducible refine ite_frame _ ?_ ?_) | split)

theorem pollInput_frame (L : Region → Bool) (hWire : L .wire = true) (hTp : L .tp = true) (hFio : L .fio = true) (hNet : L .net = true) (hPwr : L .pwr = true) (v : List Nat) (s : State) (k : Nat) :
    blank L (pollInput v s k) = blank L s := by
  unfold pollInput
  repeat' (first | with_reducible rfl | (simp only [modDi_frame, regWake_frame, hWire, hTp, hFio, hNet, hPwr, apply_ite (blank L), ite_self]) | (with_reducible refine ite_frame _ ?_ ?_) | split)

theorem execDiWakePoll_frame (L : Region → Bool) (hWire : L .wire = true) (hTp : L .tp = true) (hFio : L .fio = true) (hNet : L .net = true) (hPwr : L .pwr = true) {v : List Nat} {s : State} {t9} (h : execDiWakePoll v s = .next t9) :
    blank L t9 = blank L s := by
  unfold execDiWakePoll at h
  injection h with h
  subst h
  repeat' (first | with_reducible rfl | (simp only [pollInput_frame, hWire, hTp, hFio, hNet, hPwr, apply_ite (blank L), ite_self]) | (with_reducible refine (foldl_pair_frame L _ (fun _ _ => ?_) _ _).trans ?_) | (with_reducible refine (foldl_frame L _ (fun _ _ => ?_) _ _).trans ?_) | (with_reducible refine ite_frame _ ?_ ?_) | split)

theorem execHeartbeat_frame (L : Region → Bool) (hPwr : L .pwr = true) {s : State} {t9} (h : execHeartbeat s = .next t9) :
    blank L t9 = blank L s := by
  unfold execHeartbeat at h
  injection h with h
  subst h
  repeat' (first | with_reducible rfl | (simp only [modPwr_frame, hPwr, apply_ite (blank L), ite_self]) | (with_reducible refine ite_frame _ ?_ ?_) | split)

theorem execHeartbeatTimeout_frame (L : Region → Bool) (hWire : L .wire = true) (hDetect : L .detect = true) (hPwr : L .pwr = true) {s : State} {t9} (h : execHeartbeatTimeout s = .next t9) :
    blank L t9 = blank L s := by
  unfold execHeartbeatTimeout at h
  injection h with h
  subst h
  repeat' (first | with_reducible rfl | (simp only [detect_frame, modPwr_frame, hWire, hDetect, hPwr, apply_ite (blank L), ite_self]) | (with_reducible refine ite_frame _ ?_ ?_) | split)

theorem execSleepPath_frame (L : Region → Bool) (hSys : L .sys = true) (hCyc : L .cyc = true) (hStaged : L .staged = true) (hTide : L .tide = true) (hFv : L .fv = true) (hWire : L .wire = true) (hSafe : L .safe = true) (hDetect : L .detect = true) (hBreach : L .breach = true) (hPond : L .pond = true) (hTp : L .tp = true) (hPow : L .pow = true) (hSlu : L .slu = true) (hMot : L .mot = true) (hFio : L .fio = true) (hCan : L .can = true) (hLin : L .lin = true) (hNm : L .nm = true) (hAq : L .aq = true) (hNet : L .net = true) (hTow : L .tow = true) (hLight : L .light = true) (hAps : L .aps = true) (hPwr : L .pwr = true) (hImg : L .img = true) (hMem : L .mem = true) {s : State} {t9} (h : execSleepPath s = .next t9) :
    blank L t9 = blank L s := by
  unfold execSleepPath at h
  injection h with h
  subst h
  repeat' (first | with_reducible rfl | (simp only [armLast_frame, enterSleep_frame, modPwr_frame, outputsOff_frame, storeNodes_frame, hSys, hCyc, hStaged, hTide, hFv, hWire, hSafe, hDetect, hBreach, hPond, hTp, hPow, hSlu, hMot, hFio, hCan, hLin, hNm, hAq, hNet, hTow, hLight, hAps, hPwr, hImg, hMem, apply_ite (blank L), ite_self]) | (with_reducible refine ite_frame _ ?_ ?_) | split)

theorem execBoardnetLoss_frame (L : Region → Bool) (hSys : L .sys = true) (hCyc : L .cyc = true) (hStaged : L .staged = true) (hTide : L .tide = true) (hFv : L .fv = true) (hWire : L .wire = true) (hSafe : L .safe = true) (hDetect : L .detect = true) (hBreach : L .breach = true) (hPond : L .pond = true) (hTp : L .tp = true) (hPow : L .pow = true) (hSlu : L .slu = true) (hMot : L .mot = true) (hFio : L .fio = true) (hCan : L .can = true) (hLin : L .lin = true) (hNm : L .nm = true) (hAq : L .aq = true) (hNet : L .net = true) (hTow : L .tow = true) (hLight : L .light = true) (hAps : L .aps = true) (hPwr : L .pwr = true) (hImg : L .img = true) (hMem : L .mem = true) {s : State} {t9} (h : execBoardnetLoss s = .next t9) :
    blank L t9 = blank L s := by
  unfold execBoardnetLoss at h
  injection h with h
  subst h
  repeat' (first | with_reducible rfl | (simp only [keeperDown_frame, modPwr_frame, hSys, hCyc, hStaged, hTide, hFv, hWire, hSafe, hDetect, hBreach, hPond, hTp, hPow, hSlu, hMot, hFio, hCan, hLin, hNm, hAq, hNet, hTow, hLight, hAps, hPwr, hImg, hMem, apply_ite (blank L), ite_self]) | (with_reducible refine ite_frame _ ?_ ?_) | split)

theorem execWakeDomainReset_frame (L : Region → Bool) (hSys : L .sys = true) (hCyc : L .cyc = true) (hStaged : L .staged = true) (hTide : L .tide = true) (hFv : L .fv = true) (hWire : L .wire = true) (hSafe : L .safe = true) (hDetect : L .detect = true) (hBreach : L .breach = true) (hPond : L .pond = true) (hTp : L .tp = true) (hPow : L .pow = true) (hSlu : L .slu = true) (hMot : L .mot = true) (hFio : L .fio = true) (hCan : L .can = true) (hLin : L .lin = true) (hNm : L .nm = true) (hAq : L .aq = true) (hNet : L .net = true) (hTow : L .tow = true) (hLight : L .light = true) (hAps : L .aps = true) (hPwr : L .pwr = true) (hImg : L .img = true) (hMem : L .mem = true) {s t9 : State} (h : execWakeDomainReset s = .next t9) :
    blank L t9 = blank L s := by
  unfold execWakeDomainReset at h
  injection h with h
  subst h
  refine Eq.trans ?_ (keeperDown_frame L hSys hCyc hStaged hTide hFv hWire hSafe hDetect hBreach hPond hTp hPow hSlu hMot hFio hCan hLin hNm hAq hNet hTow hLight hAps hPwr hImg hMem s)
  simp only [modImg, blank, hPwr, hFio, hLin, hNm, hImg, if_true]

theorem execResetAssert_frame (L : Region → Bool) (hSys : L .sys = true) (hCyc : L .cyc = true) (hStaged : L .staged = true) (hTide : L .tide = true) (hFv : L .fv = true) (hWire : L .wire = true) (hSafe : L .safe = true) (hDetect : L .detect = true) (hBreach : L .breach = true) (hPond : L .pond = true) (hTp : L .tp = true) (hPow : L .pow = true) (hSlu : L .slu = true) (hMot : L .mot = true) (hFio : L .fio = true) (hCan : L .can = true) (hLin : L .lin = true) (hNm : L .nm = true) (hAq : L .aq = true) (hNet : L .net = true) (hTow : L .tow = true) (hLight : L .light = true) (hAps : L .aps = true) (hPwr : L .pwr = true) (hImg : L .img = true) (hMem : L .mem = true) {s : State} {t9} (h : execResetAssert s = .next t9) :
    blank L t9 = blank L s := by
  unfold execResetAssert at h
  injection h with h
  subst h
  repeat' (first | with_reducible rfl | (simp only [faultFall_frame, keeperDown_frame, modPwr_frame, modSys_frame, hSys, hCyc, hStaged, hTide, hFv, hWire, hSafe, hDetect, hBreach, hPond, hTp, hPow, hSlu, hMot, hFio, hCan, hLin, hNm, hAq, hNet, hTow, hLight, hAps, hPwr, hImg, hMem, apply_ite (blank L), ite_self]) | (with_reducible refine ite_frame _ ?_ ?_) | split)

end Sys2Proof.Machine
end

