-- ==== Sys2Proof/Laws/FrameSafe.lean ====
section
/-! SUPPORT. Frame lemmas of Machine/Safe.lean: what each operation leaves alone. -/
set_option linter.unusedSimpArgs false
set_option linter.unusedVariables false
namespace Sys2Proof.Machine

theorem safeOutputs_frame (L : Region → Bool) (hWire : L .wire = true) (hPow : L .pow = true) (hSlu : L .slu = true) (hMot : L .mot = true) (hFio : L .fio = true) (s : State) :
    blank L (safeOutputs s) = blank L s := by
  unfold safeOutputs
  repeat' (first | with_reducible rfl | (simp only [deadMark_frame, demandOn_frame, foSet_frame, modChan_frame, switchOff_frame, hWire, hPow, hSlu, hMot, hFio, apply_ite (blank L), ite_self]) | (with_reducible refine (foldl_pair_frame L _ (fun _ _ => ?_) _ _).trans ?_) | (with_reducible refine (foldl_frame L _ (fun _ _ => ?_) _ _).trans ?_) | (with_reducible refine ite_frame _ ?_ ?_) | split)

theorem endWaterWait_frame (L : Region → Bool) (hFv : L .fv = true) (hWire : L .wire = true) (hImg : L .img = true) (s : State) :
    blank L (endWaterWait s) = blank L s := by
  unfold endWaterWait
  repeat' (first | with_reducible rfl | (simp only [cancelAct_frame, hFv, hWire, hImg, apply_ite (blank L), ite_self]) | (with_reducible refine ite_frame _ ?_ ?_) | split)

theorem enterSafe_frame (L : Region → Bool) (hFv : L .fv = true) (hWire : L .wire = true) (hSafe : L .safe = true) (hDetect : L .detect = true) (hTp : L .tp = true) (hPow : L .pow = true) (hSlu : L .slu = true) (hMot : L .mot = true) (hFio : L .fio = true) (hImg : L .img = true) (bits : Nat) (strobe : Bool) (s : State) :
    blank L (enterSafe bits strobe s) = blank L s := by
  unfold enterSafe
  repeat' (first | with_reducible rfl | ((with_reducible refine Eq.trans (modSaf_part L _ _ ?_) ?_); (next => exact fun _ => by simp only [blankSaf, hDetect, hSafe, if_true])) | (simp only [emit_frame, endWaterWait_frame, faultFall_frame, modTp_frame, safeOutputs_frame, hFv, hWire, hSafe, hDetect, hTp, hPow, hSlu, hMot, hFio, hImg, apply_ite (blank L), ite_self]) | (with_reducible refine ite_frame _ ?_ ?_) | split)

theorem releaseSafe_frame (L : Region → Bool) (hWire : L .wire = true) (hSafe : L .safe = true) (hDetect : L .detect = true) (hTp : L .tp = true) (s : State) :
    blank L (releaseSafe s) = blank L s := by
  unfold releaseSafe
  repeat' (first | with_reducible rfl | ((with_reducible refine Eq.trans (modSaf_part L _ _ ?_) ?_); (next => exact fun _ => by simp only [blankSaf, hDetect, hSafe, if_true])) | (simp only [emit_frame, modTp_frame, hWire, hSafe, hDetect, hTp, apply_ite (blank L), ite_self]) | (with_reducible refine (foldl_pair_frame L _ (fun _ _ => ?_) _ _).trans ?_) | (with_reducible refine (foldl_frame L _ (fun _ _ => ?_) _ _).trans ?_) | (with_reducible refine ite_frame _ ?_ ?_) | split)

theorem settleRelease_frame (L : Region → Bool) (hSafe : L .safe = true) (s : State) :
    blank L (settleRelease s) = blank L s := by
  unfold settleRelease
  repeat' (first | with_reducible rfl | ((with_reducible refine Eq.trans (modSaf_part L _ _ ?_) ?_); (next => exact fun _ => by simp only [blankSaf, hSafe, if_true])) | (simp only [hSafe, apply_ite (blank L), ite_self]) | (with_reducible refine ite_frame _ ?_ ?_) | split)

theorem safeRec_keeps (L : Region → Bool) (hSafe : L .safe = true) (hDetect : L .detect = true) (hBreach : L .breach = true) (hPond : L .pond = true)  : FldsKeep L (safeRec ).flds := by
  unfold safeRec
  repeat' (first | (refine FldsKeep.lift (fun _ _ => ?_)) | (refine FldsKeep.append ?_ ?_) | (refine FldsKeep.flatMap (fun _ => ?_)) | (refine FldsKeep.map (fun _ => ?_)) | (refine FldsKeep.cons ?_ ?_) | (exact FldsKeep.nil) | ((with_reducible refine Eq.trans (modSaf_part L _ _ ?_) ?_); (next => exact fun _ => by simp only [blankSaf, hBreach, hDetect, hPond, hSafe, if_true])) | (exact fun _ _ => rfl) | (intro n9 s9) | (simp only [hSafe, hDetect, hBreach, hPond, apply_ite (blank L), ite_self]))

theorem detRec_keeps (L : Region → Bool) (hDetect : L .detect = true) (bp : Nat) : FldsKeep L (detRec bp).flds := by
  unfold detRec
  repeat' (first | (refine FldsKeep.lift (fun _ _ => ?_)) | (refine FldsKeep.append ?_ ?_) | (refine FldsKeep.flatMap (fun _ => ?_)) | (refine FldsKeep.map (fun _ => ?_)) | (refine FldsKeep.cons ?_ ?_) | (exact FldsKeep.nil) | (exact fun _ _ => rfl) | (intro n9 s9) | (simp only [modDet_frame, hDetect, apply_ite (blank L), ite_self]))

theorem safeEntryRec_keeps (L : Region → Bool) (hSafe : L .safe = true) (t : Nat) : FldsKeep L (safeEntryRec t).flds := by
  unfold safeEntryRec
  repeat' (first | (refine FldsKeep.lift (fun _ _ => ?_)) | (refine FldsKeep.append ?_ ?_) | (refine FldsKeep.flatMap (fun _ => ?_)) | (refine FldsKeep.map (fun _ => ?_)) | (refine FldsKeep.cons ?_ ?_) | (exact FldsKeep.nil) | ((with_reducible refine Eq.trans (modSaf_part L _ _ ?_) ?_); (next => exact fun _ => by simp only [blankSaf, hSafe, if_true])) | (exact fun _ _ => rfl) | (intro n9 s9) | (simp only [hSafe, apply_ite (blank L), ite_self]))

theorem safeRecord_keeps (L : Region → Bool) (hSafe : L .safe = true) (hDetect : L .detect = true) (hBreach : L .breach = true) (hPond : L .pond = true) {i part : Nat} {rc : Rec} (h : safeRecord i part = some rc) : FldsKeep L rc.flds := by
  unfold safeRecord at h
  repeat' (split at h)
  all_goals first | (cases h; done) | (injection h with h; subst h; first | (exact FldsKeep.nil) | (with_reducible exact detRec_keeps L hDetect _) | (with_reducible exact safeRec_keeps L hSafe hDetect hBreach hPond ) | (with_reducible exact safeEntryRec_keeps L hSafe _))

theorem safeClass_keeps (L : Region → Bool) (hFv : L .fv = true) (hWire : L .wire = true) (hSafe : L .safe = true) (hDetect : L .detect = true) (hBreach : L .breach = true) (hPond : L .pond = true) (hTp : L .tp = true) (hPow : L .pow = true) (hSlu : L .slu = true) (hMot : L .mot = true) (hFio : L .fio = true) (hImg : L .img = true)  : Keeps L (safeClass) where
  record h := by
    simp only [safeClass] at h
    repeat' (split at h)
    all_goals first | (cases h; done) | (with_reducible exact safeRecord_keeps L hSafe hDetect hBreach hPond h) | (injection h with h; subst h; first | (exact FldsKeep.nil))
  after _ _ _ _ _ := by
    simp only [safeClass]
    repeat' (first | with_reducible rfl | ((with_reducible refine Eq.trans (modSaf_part L _ _ ?_) ?_); (next => exact fun _ => by simp only [blankSaf, hDetect, if_true])) | (simp only [enterSafe_frame, releaseSafe_frame, hFv, hWire, hSafe, hDetect, hBreach, hPond, hTp, hPow, hSlu, hMot, hFio, hImg, apply_ite (blank L), ite_self]) | (with_reducible refine ite_frame _ ?_ ?_) | split)
  onRead _ _ _ _ _ := by
    simp only [safeClass]
    repeat' (first | with_reducible rfl | ((with_reducible refine Eq.trans (modSaf_part L _ _ ?_) ?_); (next => exact fun _ => by simp only [blankSaf, hDetect, if_true])) | (simp only [enterSafe_frame, releaseSafe_frame, hFv, hWire, hSafe, hDetect, hBreach, hPond, hTp, hPow, hSlu, hMot, hFio, hImg, apply_ite (blank L), ite_self]) | (with_reducible refine ite_frame _ ?_ ?_) | split)
  held h := by
    first
    | (cases h; done)
    | (simp only [safeClass] at h; exact absurd h)
  acts := by
    simp only [safeClass]
    repeat' (first | (exact ActsKeep.nil) | (refine ActsKeep.cons ?_ ?_) | (refine ⟨fun _ _ _ _ => ?_, fun _ => ?_, fun _ _ _ => ?_, fun h9 => ?_⟩) | (cases h9; done) | (injection h9 with h9; subst h9) | with_reducible rfl | ((with_reducible refine Eq.trans (modSaf_part L _ _ ?_) ?_); (next => exact fun _ => by simp only [blankSaf, hDetect, if_true])) | (simp only [enterSafe_frame, releaseSafe_frame, hFv, hWire, hSafe, hDetect, hBreach, hPond, hTp, hPow, hSlu, hMot, hFio, hImg, apply_ite (blank L), ite_self]) | (with_reducible refine ite_frame _ ?_ ?_) | split)

theorem refuseLevel_frame (L : Region → Bool) (hWire : L .wire = true) (s : State) :
    blank L (refuseLevel s) = blank L s := by
  unfold refuseLevel
  repeat' (first | with_reducible rfl | (simp only [answer_frame, hWire, apply_ite (blank L), ite_self]) | (with_reducible refine ite_frame _ ?_ ?_) | split)

theorem forcedOff_frame (L : Region → Bool) (hSys : L .sys = true) (hFv : L .fv = true) (hWire : L .wire = true) (hSlu : L .slu = true) (hFio : L .fio = true) (hNet : L .net = true) (hLight : L .light = true) (hAps : L .aps = true) (hPwr : L .pwr = true) (hMem : L .mem = true) (hFree : L .free = true) (s : State) :
    blank L (forcedOff s) = blank L s := by
  unfold forcedOff
  repeat' (first | with_reducible rfl | (simp only [forceCut_frame, modPwr_frame, refuseLevel_frame, setPowerState_frame, stopPartitions_frame, storeNodes_frame, supsStandby_frame, vcoreOff_frame, hSys, hFv, hWire, hSlu, hFio, hNet, hLight, hAps, hPwr, hMem, hFree, apply_ite (blank L), ite_self]) | (with_reducible refine ite_frame _ ?_ ?_) | split)

theorem forcedEnd_frame (L : Region → Bool) (hPwr : L .pwr = true) (s : State) :
    blank L (forcedEnd s) = blank L s := by
  unfold forcedEnd
  repeat' (first | with_reducible rfl | (simp only [modPwr_frame, vcoreReturn_frame, hPwr, apply_ite (blank L), ite_self]) | (with_reducible refine ite_frame _ ?_ ?_) | split)

theorem segJudge_frame (L : Region → Bool) (hWire : L .wire = true) (hDetect : L .detect = true) (hPond : L .pond = true) (hPow : L .pow = true) (i : Nat) (s : State) :
    blank L (segJudge i s) = blank L s := by
  unfold segJudge
  repeat' (first | with_reducible rfl | (simp only [detect_frame, failSegment_frame, modSeg_frame, pondWear_frame, hWire, hDetect, hPond, hPow, apply_ite (blank L), ite_self]) | (with_reducible refine (foldl_pair_frame L _ (fun _ _ => ?_) _ _).trans ?_) | (with_reducible refine (foldl_frame L _ (fun _ _ => ?_) _ _).trans ?_) | (with_reducible refine ite_frame _ ?_ ?_) | split)

theorem segWear_frame (L : Region → Bool) (hWire : L .wire = true) (hDetect : L .detect = true) (hPond : L .pond = true) (hPow : L .pow = true) (s : State) :
    blank L (segWear s) = blank L s := by
  unfold segWear
  repeat' (first | with_reducible rfl | (simp only [segJudge_frame, hWire, hDetect, hPond, hPow, apply_ite (blank L), ite_self]) | (with_reducible refine (foldl_pair_frame L _ (fun _ _ => ?_) _ _).trans ?_) | (with_reducible refine (foldl_frame L _ (fun _ _ => ?_) _ _).trans ?_) | (with_reducible refine ite_frame _ ?_ ?_) | split)

theorem segBoundary_frame (L : Region → Bool) (hWire : L .wire = true) (hPond : L .pond = true) (hPow : L .pow = true) (s : State) :
    blank L (segBoundary s) = blank L s := by
  unfold segBoundary
  repeat' (first | with_reducible rfl | (simp only [modSeg_frame, swapSegment_frame, hWire, hPond, hPow, apply_ite (blank L), ite_self]) | (with_reducible refine (foldl_pair_frame L _ (fun _ _ => ?_) _ _).trans ?_) | (with_reducible refine (foldl_frame L _ (fun _ _ => ?_) _ _).trans ?_) | (with_reducible refine ite_frame _ ?_ ?_) | split)

theorem segRec_keeps (L : Region → Bool) (hPond : L .pond = true) (i : Nat) : FldsKeep L (segRec i).flds := by
  unfold segRec
  repeat' (first | (refine FldsKeep.lift (fun _ _ => ?_)) | (refine FldsKeep.append ?_ ?_) | (refine FldsKeep.flatMap (fun _ => ?_)) | (refine FldsKeep.map (fun _ => ?_)) | (refine FldsKeep.cons ?_ ?_) | (exact FldsKeep.nil) | (exact fun _ _ => rfl) | (intro n9 s9) | (simp only [modSeg_frame, hPond, apply_ite (blank L), ite_self]))

theorem wearRec_keeps (L : Region → Bool) (hPond : L .pond = true)  : FldsKeep L (wearRec ).flds := by
  unfold wearRec
  repeat' (first | (refine FldsKeep.lift (fun _ _ => ?_)) | (refine FldsKeep.append ?_ ?_) | (refine FldsKeep.flatMap (fun _ => ?_)) | (refine FldsKeep.map (fun _ => ?_)) | (refine FldsKeep.cons ?_ ?_) | (exact FldsKeep.nil) | (exact fun _ _ => rfl) | (intro n9 s9) | (simp only [modPond_frame, hPond, apply_ite (blank L), ite_self]))

theorem remapRow_frame (L : Region → Bool) (hWire : L .wire = true) (hPond : L .pond = true) (row : Nat) (s : State) :
    blank L (remapRow row s) = blank L s := by
  unfold remapRow
  repeat' (first | with_reducible rfl | (simp only [modPond_frame, pondIn_frame, pondWear_frame, hWire, hPond, apply_ite (blank L), ite_self]) | (with_reducible refine ite_frame _ ?_ ?_) | split)

theorem bringIn_frame (L : Region → Bool) (hWire : L .wire = true) (hPond : L .pond = true) (hPow : L .pow = true) (hSlu : L .slu = true) (hCan : L .can = true) (hAps : L .aps = true) (kind unit : Nat) (s : State) :
    blank L (bringIn kind unit s) = blank L s := by
  unfold bringIn
  repeat' (first | with_reducible rfl | (simp only [bringAdc_frame, bringSram_frame, remapRow_frame, startSwapCore_frame, startSwap_frame, swapSegment_frame, hWire, hPond, hPow, hSlu, hCan, hAps, apply_ite (blank L), ite_self]) | (with_reducible refine ite_frame _ ?_ ?_) | split)

theorem pondClass_keeps (L : Region → Bool) (hWire : L .wire = true) (hPond : L .pond = true) (hPow : L .pow = true) (hSlu : L .slu = true) (hCan : L .can = true) (hAps : L .aps = true)  : Keeps L (pondClass) where
  record h := by
    simp only [pondClass] at h
    repeat' (split at h)
    all_goals first | (cases h; done) | (injection h with h; subst h; first | (exact FldsKeep.nil) | (with_reducible exact wearRec_keeps L hPond ) | (with_reducible exact segRec_keeps L hPond _))
  after _ _ _ _ _ := by
    simp only [pondClass]
    repeat' (first | with_reducible rfl | (simp only [bringIn_frame, hWire, hPond, hPow, hSlu, hCan, hAps, apply_ite (blank L), ite_self]) | (with_reducible refine ite_frame _ ?_ ?_) | split)
  onRead _ _ _ _ _ := by
    simp only [pondClass]
    repeat' (first | with_reducible rfl | (simp only [bringIn_frame, hWire, hPond, hPow, hSlu, hCan, hAps, apply_ite (blank L), ite_self]) | (with_reducible refine ite_frame _ ?_ ?_) | split)
  held h := by
    first
    | (cases h; done)
    | (simp only [pondClass] at h; exact absurd h)
  acts := by
    simp only [pondClass]
    repeat' (first | (exact ActsKeep.nil) | (refine ActsKeep.cons ?_ ?_) | (refine ⟨fun _ _ _ _ => ?_, fun _ => ?_, fun _ _ _ => ?_, fun h9 => ?_⟩) | (cases h9; done) | (injection h9 with h9; subst h9) | with_reducible rfl | (simp only [bringIn_frame, hWire, hPond, hPow, hSlu, hCan, hAps, apply_ite (blank L), ite_self]) | (with_reducible refine ite_frame _ ?_ ?_) | split)

theorem execSafeEnter_frame (L : Region → Bool) (hStaged : L .staged = true) (hFv : L .fv = true) (hWire : L .wire = true) (hSafe : L .safe = true) (hDetect : L .detect = true) (hBreach : L .breach = true) (hPond : L .pond = true) (hTp : L .tp = true) (hPow : L .pow = true) (hSlu : L .slu = true) (hMot : L .mot = true) (hFio : L .fio = true) (hNm : L .nm = true) (hTow : L .tow = true) (hImg : L .img = true) {r : Req} {s : State} {t9} (h : execSafeEnter r s = .next t9) :
    blank L t9 = blank L s := by
  unfold execSafeEnter at h
  injection h with h
  subst h
  repeat' (first | with_reducible rfl | (refine Eq.trans (cmdAct_frame L hStaged hFv hWire hDetect hTp hNm hTow (safeClass_keeps L hFv hWire hSafe hDetect hBreach hPond hTp hPow hSlu hMot hFio hImg) _ _ _) ?_) | (simp only [hStaged, hFv, hWire, hSafe, hDetect, hBreach, hPond, hTp, hPow, hSlu, hMot, hFio, hNm, hTow, hImg, apply_ite (blank L), ite_self]) | (with_reducible refine ite_frame _ ?_ ?_) | split)

theorem execSafeRelease_frame (L : Region → Bool) (hStaged : L .staged = true) (hFv : L .fv = true) (hWire : L .wire = true) (hSafe : L .safe = true) (hDetect : L .detect = true) (hBreach : L .breach = true) (hPond : L .pond = true) (hTp : L .tp = true) (hPow : L .pow = true) (hSlu : L .slu = true) (hMot : L .mot = true) (hFio : L .fio = true) (hNm : L .nm = true) (hTow : L .tow = true) (hImg : L .img = true) {r : Req} {s : State} {t9} (h : execSafeRelease r s = .next t9) :
    blank L t9 = blank L s := by
  unfold execSafeRelease at h
  injection h with h
  subst h
  repeat' (first | with_reducible rfl | (refine Eq.trans (cmdAct_frame L hStaged hFv hWire hDetect hTp hNm hTow (safeClass_keeps L hFv hWire hSafe hDetect hBreach hPond hTp hPow hSlu hMot hFio hImg) _ _ _) ?_) | (simp only [hStaged, hFv, hWire, hSafe, hDetect, hBreach, hPond, hTp, hPow, hSlu, hMot, hFio, hNm, hTow, hImg, apply_ite (blank L), ite_self]) | (with_reducible refine ite_frame _ ?_ ?_) | split)

theorem execSafeSet_frame (L : Region → Bool) (hStaged : L .staged = true) (hFv : L .fv = true) (hWire : L .wire = true) (hSafe : L .safe = true) (hDetect : L .detect = true) (hBreach : L .breach = true) (hPond : L .pond = true) (hTp : L .tp = true) (hPow : L .pow = true) (hSlu : L .slu = true) (hMot : L .mot = true) (hFio : L .fio = true) (hNm : L .nm = true) (hTow : L .tow = true) (hImg : L .img = true) {r : Req} {s : State} {t9} (h : execSafeSet r s = .next t9) :
    blank L t9 = blank L s := by
  unfold execSafeSet at h
  injection h with h
  subst h
  repeat' (first | with_reducible rfl | (refine Eq.trans (cmdSet_frame L hStaged hFv hWire hDetect hTp hNm hTow (safeClass_keeps L hFv hWire hSafe hDetect hBreach hPond hTp hPow hSlu hMot hFio hImg) _ _) ?_) | (simp only [hStaged, hFv, hWire, hSafe, hDetect, hBreach, hPond, hTp, hPow, hSlu, hMot, hFio, hNm, hTow, hImg, apply_ite (blank L), ite_self]) | (with_reducible refine ite_frame _ ?_ ?_) | split)

theorem execSafeStrobe_frame (L : Region → Bool) (hFv : L .fv = true) (hWire : L .wire = true) (hSafe : L .safe = true) (hDetect : L .detect = true) (hTp : L .tp = true) (hPow : L .pow = true) (hSlu : L .slu = true) (hMot : L .mot = true) (hFio : L .fio = true) (hImg : L .img = true) {s : State} {t9} (h : execSafeStrobe s = .next t9) :
    blank L t9 = blank L s := by
  unfold execSafeStrobe at h
  injection h with h
  subst h
  repeat' (first | with_reducible rfl | (simp only [enterSafe_frame, hFv, hWire, hSafe, hDetect, hTp, hPow, hSlu, hMot, hFio, hImg, apply_ite (blank L), ite_self]) | (with_reducible refine ite_frame _ ?_ ?_) | split)

theorem execPondBringIn_frame (L : Region → Bool) (hStaged : L .staged = true) (hFv : L .fv = true) (hWire : L .wire = true) (hDetect : L .detect = true) (hPond : L .pond = true) (hTp : L .tp = true) (hPow : L .pow = true) (hSlu : L .slu = true) (hCan : L .can = true) (hNm : L .nm = true) (hTow : L .tow = true) (hAps : L .aps = true) {r : Req} {s : State} {t9} (h : execPondBringIn r s = .next t9) :
    blank L t9 = blank L s := by
  unfold execPondBringIn at h
  injection h with h
  subst h
  repeat' (first | with_reducible rfl | (refine Eq.trans (cmdAct_frame L hStaged hFv hWire hDetect hTp hNm hTow (pondClass_keeps L hWire hPond hPow hSlu hCan hAps) _ _ _) ?_) | (simp only [hStaged, hFv, hWire, hDetect, hPond, hTp, hPow, hSlu, hCan, hNm, hTow, hAps, apply_ite (blank L), ite_self]) | (with_reducible refine ite_frame _ ?_ ?_) | split)

theorem execSramBankCopyComplete_frame (L : Region → Bool) (hWire : L .wire = true) (hPond : L .pond = true) {s : State} {t9} (h : execSramBankCopyComplete s = .next t9) :
    blank L t9 = blank L s := by
  unfold execSramBankCopyComplete at h
  injection h with h
  subst h
  repeat' (first | with_reducible rfl | (simp only [modPond_frame, pondIn_frame, hWire, hPond, apply_ite (blank L), ite_self]) | (with_reducible refine ite_frame _ ?_ ?_) | split)

theorem execThermalEmergency_frame (L : Region → Bool) (hSys : L .sys = true) (hFv : L .fv = true) (hWire : L .wire = true) (hDetect : L .detect = true) (hSlu : L .slu = true) (hFio : L .fio = true) (hNet : L .net = true) (hLight : L .light = true) (hAps : L .aps = true) (hPwr : L .pwr = true) (hMem : L .mem = true) (hFree : L .free = true) {s : State} {t9} (h : execThermalEmergency s = .next t9) :
    blank L t9 = blank L s := by
  unfold execThermalEmergency at h
  injection h with h
  subst h
  repeat' (first | with_reducible rfl | (simp only [detect_frame, forcedOff_frame, hSys, hFv, hWire, hDetect, hSlu, hFio, hNet, hLight, hAps, hPwr, hMem, hFree, apply_ite (blank L), ite_self]) | (with_reducible refine ite_frame _ ?_ ?_) | split)

theorem execThermalEmergencyClear_frame (L : Region → Bool) (hWire : L .wire = true) (hDetect : L .detect = true) (hPwr : L .pwr = true) {s : State} {t9} (h : execThermalEmergencyClear s = .next t9) :
    blank L t9 = blank L s := by
  unfold execThermalEmergencyClear at h
  injection h with h
  subst h
  repeat' (first | with_reducible rfl | (simp only [detectEnd_frame, forcedEnd_frame, hWire, hDetect, hPwr, apply_ite (blank L), ite_self]) | (with_reducible refine ite_frame _ ?_ ?_) | split)

theorem railOut_frame (L : Region → Bool) (hPwr : L .pwr = true) (r : Nat) (s : State) :
    blank L (railOut r s) = blank L s := by
  unfold railOut
  repeat' (first | with_reducible rfl | (simp only [modPwr_frame, hPwr, apply_ite (blank L), ite_self]) | (with_reducible refine ite_frame _ ?_ ?_) | split)

theorem busesStandby_frame (L : Region → Bool) (hLin : L .lin = true) (hNm : L .nm = true) (s : State) :
    blank L (busesStandby s) = blank L s := by
  unfold busesStandby
  repeat' (first | with_reducible rfl | (simp only [armCan_frame, modLinCh_frame, hLin, hNm, apply_ite (blank L), ite_self]) | (with_reducible refine (foldl_pair_frame L _ (fun _ _ => ?_) _ _).trans ?_) | (with_reducible refine (foldl_frame L _ (fun _ _ => ?_) _ _).trans ?_) | (with_reducible refine ite_frame _ ?_ ?_) | split)

theorem busesBack_frame (L : Region → Bool) (hLin : L .lin = true) (hNm : L .nm = true) (s : State) :
    blank L (busesBack s) = blank L s := by
  unfold busesBack
  repeat' (first | with_reducible rfl | (simp only [disarmCan_frame, modLinCh_frame, hLin, hNm, apply_ite (blank L), ite_self]) | (with_reducible refine (foldl_pair_frame L _ (fun _ _ => ?_) _ _).trans ?_) | (with_reducible refine (foldl_frame L _ (fun _ _ => ?_) _ _).trans ?_) | (with_reducible refine ite_frame _ ?_ ?_) | split)

theorem execVkeepMon_frame (L : Region → Bool) (hSys : L .sys = true) (hCyc : L .cyc = true) (hStaged : L .staged = true) (hTide : L .tide = true) (hFv : L .fv = true) (hWire : L .wire = true) (hSafe : L .safe = true) (hDetect : L .detect = true) (hBreach : L .breach = true) (hPond : L .pond = true) (hTp : L .tp = true) (hPow : L .pow = true) (hSlu : L .slu = true) (hMot : L .mot = true) (hFio : L .fio = true) (hCan : L .can = true) (hLin : L .lin = true) (hNm : L .nm = true) (hAq : L .aq = true) (hNet : L .net = true) (hTow : L .tow = true) (hLight : L .light = true) (hAps : L .aps = true) (hPwr : L .pwr = true) (hImg : L .img = true) (hMem : L .mem = true) {s : State} {t9} (h : execVkeepMon s = .next t9) :
    blank L t9 = blank L s := by
  unfold execVkeepMon at h
  injection h with h
  subst h
  repeat' (first | with_reducible rfl | (simp only [detectLatch_frame, keeperDown_frame, modPwr_frame, railOut_frame, hSys, hCyc, hStaged, hTide, hFv, hWire, hSafe, hDetect, hBreach, hPond, hTp, hPow, hSlu, hMot, hFio, hCan, hLin, hNm, hAq, hNet, hTow, hLight, hAps, hPwr, hImg, hMem, apply_ite (blank L), ite_self]) | (with_reducible refine ite_frame _ ?_ ?_) | split)

theorem vcoreLost_frame (L : Region → Bool) (hSys : L .sys = true) (hFv : L .fv = true) (hWire : L .wire = true) (hDetect : L .detect = true) (hSlu : L .slu = true) (hFio : L .fio = true) (hNet : L .net = true) (hLight : L .light = true) (hAps : L .aps = true) (hPwr : L .pwr = true) (hMem : L .mem = true) (hFree : L .free = true) (again : Bool) (s : State) :
    blank L (vcoreLost again s) = blank L s := by
  simp only [vcoreLost, detect_frame, forcedOff_frame, modPwr_frame, railOut_frame, hSys, hFv, hWire, hDetect, hSlu, hFio, hNet, hLight, hAps, hPwr, hMem, hFree]

theorem vcoreReturnUnless_frame (L : Region → Bool) (hPwr : L .pwr = true) (again : Bool) (s : State) :
    blank L (vcoreReturnUnless again s) = blank L s := by
  unfold vcoreReturnUnless
  repeat' (first | with_reducible rfl | (simp only [vcoreReturn_frame, hPwr, apply_ite (blank L), ite_self]) | (with_reducible refine ite_frame _ ?_ ?_) | split)

theorem execVcoreMon_frame (L : Region → Bool) (hSys : L .sys = true) (hFv : L .fv = true) (hWire : L .wire = true) (hDetect : L .detect = true) (hSlu : L .slu = true) (hFio : L .fio = true) (hNet : L .net = true) (hLight : L .light = true) (hAps : L .aps = true) (hPwr : L .pwr = true) (hMem : L .mem = true) (hFree : L .free = true) {s : State} {t9} (h : execVcoreMon s = .next t9) :
    blank L t9 = blank L s := by
  unfold execVcoreMon at h
  injection h with h
  subst h
  repeat' (first | with_reducible rfl | (simp only [vcoreLost_frame, vcoreReturnUnless_frame, hSys, hFv, hWire, hDetect, hSlu, hFio, hNet, hLight, hAps, hPwr, hMem, hFree, apply_ite (blank L), ite_self]) | (with_reducible refine ite_frame _ ?_ ?_) | split)

theorem execVioMon_frame (L : Region → Bool) (hSys : L .sys = true) (hCyc : L .cyc = true) (hStaged : L .staged = true) (hTide : L .tide = true) (hFv : L .fv = true) (hWire : L .wire = true) (hSafe : L .safe = true) (hDetect : L .detect = true) (hBreach : L .breach = true) (hPond : L .pond = true) (hTp : L .tp = true) (hPow : L .pow = true) (hSlu : L .slu = true) (hMot : L .mot = true) (hFio : L .fio = true) (hCan : L .can = true) (hLin : L .lin = true) (hNm : L .nm = true) (hAq : L .aq = true) (hNet : L .net = true) (hTow : L .tow = true) (hLight : L .light = true) (hAps : L .aps = true) (hPwr : L .pwr = true) (hImg : L .img = true) (hMem : L .mem = true) {rail : Nat} {low : Bool} {s : State} {t9} (h : execVioMon rail low s = .next t9) :
    blank L t9 = blank L s := by
  obtain ⟨-, rfl⟩ := guardUnit_next h
  repeat' (first | with_reducible rfl | (simp only [busesStandby_frame, detectLatch_frame, detect_frame, keeperDown_frame, modCan_frame, modPwr_frame, railOut_frame, hSys, hCyc, hStaged, hTide, hFv, hWire, hSafe, hDetect, hBreach, hPond, hTp, hPow, hSlu, hMot, hFio, hCan, hLin, hNm, hAq, hNet, hTow, hLight, hAps, hPwr, hImg, hMem, apply_ite (blank L), ite_self]) | (with_reducible refine ite_frame _ ?_ ?_) | split)

theorem execSupplyRailRecovery_frame (L : Region → Bool) (hWire : L .wire = true) (hDetect : L .detect = true) (hCan : L .can = true) (hLin : L .lin = true) (hNm : L .nm = true) (hPwr : L .pwr = true) {rail : Nat} {s : State} {t9} (h : execSupplyRailRecovery rail s = .next t9) :
    blank L t9 = blank L s := by
  obtain ⟨-, rfl⟩ := guardUnit_next h
  repeat' (first | with_reducible rfl | (simp only [busesBack_frame, detectEnd_frame, forcedEnd_frame, modCan_frame, modPwr_frame, hWire, hDetect, hCan, hLin, hNm, hPwr, apply_ite (blank L), ite_self]) | (with_reducible refine ite_frame _ ?_ ?_) | split)

theorem execClockMon_frame (L : Region → Bool) (hWire : L .wire = true) (hDetect : L .detect = true) (hTp : L .tp = true) (hPwr : L .pwr = true) {s : State} {t9} (h : execClockMon s = .next t9) :
    blank L t9 = blank L s := by
  unfold execClockMon at h
  injection h with h
  subst h
  repeat' (first | with_reducible rfl | (simp only [detect_frame, modPwr_frame, tpSet_frame, hWire, hDetect, hTp, hPwr, apply_ite (blank L), ite_self]) | (with_reducible refine ite_frame _ ?_ ?_) | split)

theorem execBusTimeout_frame (L : Region → Bool) (hWire : L .wire = true) (hDetect : L .detect = true) {s : State} {t9} (h : execBusTimeout s = .next t9) :
    blank L t9 = blank L s := by
  unfold execBusTimeout at h
  injection h with h
  subst h
  repeat' (first | with_reducible rfl | (simp only [detect_frame, hWire, hDetect, apply_ite (blank L), ite_self]) | (with_reducible refine ite_frame _ ?_ ?_) | split)

theorem nodeCopyLost_frame (L : Region → Bool) (hSlu : L .slu = true) (hFree : L .free = true) (s : State) :
    blank L (nodeCopyLost s) = blank L s := by
  unfold nodeCopyLost
  repeat' (first | with_reducible rfl | (with_reducible refine Eq.trans (takeFree_frame_eq L hFree (by with_reducible assumption)) ?_) | (simp only [modSlu_frame, takeFree_frame, hSlu, hFree, apply_ite (blank L), ite_self]) | (with_reducible refine ite_frame _ ?_ ?_) | split)

theorem execEmramEcc_frame (L : Region → Bool) (hWire : L .wire = true) (hDetect : L .detect = true) (hPond : L .pond = true) (hTp : L .tp = true) (hSlu : L .slu = true) (hFree : L .free = true) {kind off : Nat} {s : State} {t9} (h : execEmramEcc kind off s = .next t9) :
    blank L t9 = blank L s := by
  unfold execEmramEcc at h
  injection h with h
  subst h
  repeat' (first | with_reducible rfl | (simp only [detect_frame, nodeCopyLost_frame, remapRow_frame, spoilCopies_frame, useCopies_frame, hWire, hDetect, hPond, hTp, hSlu, hFree, apply_ite (blank L), ite_self]) | (with_reducible refine ite_frame _ ?_ ?_) | split)

theorem execTableEcc_frame (L : Region → Bool) (hWire : L .wire = true) (hDetect : L .detect = true) (hCan : L .can = true) (hAq : L .aq = true) (hNet : L .net = true) {kind i : Nat} {reload : Bool} {s : State} {t9} (h : execTableEcc kind i reload s = .next t9) :
    blank L t9 = blank L s := by
  obtain ⟨-, rfl⟩ := guardUnit_next h
  repeat' (first | with_reducible rfl | (simp only [detect_frame, modFdb_frame, modFilter_frame, modRoute_frame, modVlan_frame, hWire, hDetect, hCan, hAq, hNet, apply_ite (blank L), ite_self]) | (with_reducible refine ite_frame _ ?_ ?_) | split)

theorem execFaultNReadback_frame (L : Region → Bool) (hWire : L .wire = true) (hDetect : L .detect = true) {s : State} {t9} (h : execFaultNReadback s = .next t9) :
    blank L t9 = blank L s := by
  unfold execFaultNReadback at h
  injection h with h
  subst h
  repeat' (first | with_reducible rfl | (simp only [detect_frame, hWire, hDetect, apply_ite (blank L), ite_self]) | (with_reducible refine ite_frame _ ?_ ?_) | split)

theorem execSluiceSilent_frame (L : Region → Bool) (hWire : L .wire = true) (hDetect : L .detect = true) (hTp : L .tp = true) (hPow : L .pow = true) (hSlu : L .slu = true) (hMot : L .mot = true) (hImg : L .img = true) {s : State} {t9} (h : execSluiceSilent s = .next t9) :
    blank L t9 = blank L s := by
  unfold execSluiceSilent at h
  injection h with h
  subst h
  repeat' (first | with_reducible rfl | (simp only [declareSilent_frame, detect_frame, revertTrial_frame, hWire, hDetect, hTp, hPow, hSlu, hMot, hImg, apply_ite (blank L), ite_self]) | (with_reducible refine ite_frame _ ?_ ?_) | split)

theorem execSluiceCode_frame (L : Region → Bool) (hWire : L .wire = true) (hDetect : L .detect = true) (hTp : L .tp = true) (hPow : L .pow = true) (hSlu : L .slu = true) (hMot : L .mot = true) (hImg : L .img = true) {s : State} {t9} (h : execSluiceCode s = .next t9) :
    blank L t9 = blank L s := by
  unfold execSluiceCode at h
  injection h with h
  subst h
  repeat' (first | with_reducible rfl | (simp only [declareSilent_frame, detect_frame, revertTrial_frame, hWire, hDetect, hTp, hPow, hSlu, hMot, hImg, apply_ite (blank L), ite_self]) | (with_reducible refine ite_frame _ ?_ ?_) | split)

theorem execTrngHealth_frame (L : Region → Bool) (hWire : L .wire = true) (hDetect : L .detect = true) (hLight : L .light = true) {pass : Bool} {s : State} {t9} (h : execTrngHealth pass s = .next t9) :
    blank L t9 = blank L s := by
  unfold execTrngHealth at h
  injection h with h
  subst h
  repeat' (first | with_reducible rfl | (simp only [detect_frame, modLight_frame, hWire, hDetect, hLight, apply_ite (blank L), ite_self]) | (with_reducible refine ite_frame _ ?_ ?_) | split)

theorem execWatchExpiry_frame (L : Region → Bool) (hWire : L .wire = true) (hDetect : L .detect = true) (hTp : L .tp = true) (hImg : L .img = true) {s : State} {t9} (h : execWatchExpiry s = .next t9) :
    blank L t9 = blank L s := by
  unfold execWatchExpiry at h
  injection h with h
  subst h
  repeat' (first | with_reducible rfl | (simp only [detect_frame, revertTrial_frame, tpSet_frame, hWire, hDetect, hTp, hImg, apply_ite (blank L), ite_self]) | (with_reducible refine ite_frame _ ?_ ?_) | split)

end Sys2Proof.Machine
end

