-- ==== Sys2Proof/Laws/FrameTide.lean ====
section
/-! SUPPORT. Frame lemmas of Machine/Tide.lean: what each operation leaves alone. -/
set_option linter.unusedSimpArgs false
set_option linter.unusedVariables false
namespace Sys2Proof.Machine

theorem startPulse_frame (L : Region → Bool) (hTide : L .tide = true) (i : Nat) (nxt : Option Int) (s : State) :
    blank L (startPulse i nxt s) = blank L s := by
  unfold startPulse
  repeat' (first | with_reducible rfl | (simp only [modTout_frame, hTide, apply_ite (blank L), ite_self]) | (with_reducible refine ite_frame _ ?_ ?_) | split)

theorem settleTout_frame (L : Region → Bool) (hTide : L .tide = true) (i : Nat) (s : State) :
    blank L (settleTout i s) = blank L s := by
  unfold settleTout
  repeat' (first | with_reducible rfl | (simp only [modTout_frame, hTide, apply_ite (blank L), ite_self]) | (with_reducible refine ite_frame _ ?_ ?_) | split)

theorem stepTout_frame (L : Region → Bool) (hTide : L .tide = true) (hWire : L .wire = true) (scale : Nat) (old new : Int) (i : Nat) (s : State) :
    blank L (stepTout scale old new i s) = blank L s := by
  unfold stepTout
  repeat' (first | with_reducible rfl | (simp only [emit_frame, modTout_frame, startPulse_frame, hTide, hWire, apply_ite (blank L), ite_self]) | (with_reducible refine ite_frame _ ?_ ?_) | split)

theorem stepped_frame (L : Region → Bool) (hTide : L .tide = true) (hWire : L .wire = true) (scale : Nat) (old new : Int) (s : State) :
    blank L (stepped scale old new s) = blank L s := by
  unfold stepped
  repeat' (first | with_reducible rfl | (simp only [emit_frame, stepTout_frame, hTide, hWire, apply_ite (blank L), ite_self]) | (with_reducible refine (foldl_pair_frame L _ (fun _ _ => ?_) _ _).trans ?_) | (with_reducible refine (foldl_frame L _ (fun _ _ => ?_) _ _).trans ?_) | (with_reducible refine ite_frame _ ?_ ?_) | split)

theorem rateWindowEnd_frame (L : Region → Bool) (hWire : L .wire = true) (s : State) :
    blank L (rateWindowEnd s) = blank L s := by
  unfold rateWindowEnd
  repeat' (first | with_reducible rfl | ((with_reducible refine Eq.trans (modFv_part L _ _ ?_) ?_); (next => exact fun _ => by simp only [blankFv, hWire, if_true])) | (simp only [hWire, apply_ite (blank L), ite_self]) | (with_reducible refine ite_frame _ ?_ ?_) | split)

theorem stepWork_frame (L : Region → Bool) (hTide : L .tide = true) (hWire : L .wire = true) (e : Int) (s : State) :
    blank L (stepWork e s) = blank L s := by
  simp only [stepWork, rateWindowEnd_frame, setWorkNs_frame, stepped_frame, hTide, hWire]

theorem stepDom_frame (L : Region → Bool) (hTide : L .tide = true) (hWire : L .wire = true) (d : Nat) (e : Int) (s : State) :
    blank L (stepDom d e s) = blank L s := by
  simp only [stepDom, modDom_frame, stepped_frame, hTide, hWire]

theorem timeRec0_keeps (L : Region → Bool) (hTide : L .tide = true)  : FldsKeep L (timeRec0 ).flds := by
  unfold timeRec0
  repeat' (first | (refine FldsKeep.lift (fun _ _ => ?_)) | (refine FldsKeep.append ?_ ?_) | (refine FldsKeep.flatMap (fun _ => ?_)) | (refine FldsKeep.map (fun _ => ?_)) | (refine FldsKeep.cons ?_ ?_) | (exact FldsKeep.nil) | (exact fun _ _ => rfl) | (intro n9 s9) | (simp only [modTide_frame, hTide, apply_ite (blank L), ite_self]))

theorem timeRec0Set_keeps (L : Region → Bool) (hTide : L .tide = true)  : FldsKeep L (timeRec0Set ).flds := by
  unfold timeRec0Set
  repeat' (first | (refine FldsKeep.lift (fun _ _ => ?_)) | (refine FldsKeep.append ?_ ?_) | (refine FldsKeep.flatMap (fun _ => ?_)) | (refine FldsKeep.map (fun _ => ?_)) | (refine FldsKeep.cons ?_ ?_) | (exact FldsKeep.nil) | (exact fun _ _ => rfl) | (intro n9 s9) | (simp only [modTide_frame, hTide, apply_ite (blank L), ite_self]))

theorem timeRecDom_keeps (L : Region → Bool) (hTide : L .tide = true) (d : Nat) : FldsKeep L (timeRecDom d).flds := by
  unfold timeRecDom
  repeat' (first | (refine FldsKeep.lift (fun _ _ => ?_)) | (refine FldsKeep.append ?_ ?_) | (refine FldsKeep.flatMap (fun _ => ?_)) | (refine FldsKeep.map (fun _ => ?_)) | (refine FldsKeep.cons ?_ ?_) | (exact FldsKeep.nil) | (exact fun _ _ => rfl) | (intro n9 s9) | (simp only [modDom_frame, hTide, apply_ite (blank L), ite_self]))

theorem toutF_keeps (L : Region → Bool) (hTide : L .tide = true) (i byte bit w : Nat) (get : TOutCfg → Nat) (set : Nat → TOutCfg → TOutCfg) (ok : Nat → Bool) : FldKeeps L (toutF i byte bit w get set ok) := by
  intro n9 s9
  simp only [toutF, modTout_frame, hTide]

theorem timeRecTout_keeps (L : Region → Bool) (hTide : L .tide = true) (i : Nat) : FldsKeep L (timeRecTout i).flds := by
  unfold timeRecTout
  repeat' (first | (refine FldsKeep.lift (fun _ _ => ?_)) | (refine FldsKeep.append ?_ ?_) | (refine FldsKeep.flatMap (fun _ => ?_)) | (refine FldsKeep.map (fun _ => ?_)) | (refine FldsKeep.cons ?_ ?_) | (exact FldsKeep.nil) | (with_reducible exact toutF_keeps L hTide _ _ _ _ _ _ _) | (exact fun _ _ => rfl) | (intro n9 s9) | (simp only [hTide, apply_ite (blank L), ite_self]))

theorem timeRecTin_keeps (L : Region → Bool) (hTide : L .tide = true) (i : Nat) : FldsKeep L (timeRecTin i).flds := by
  unfold timeRecTin
  repeat' (first | (refine FldsKeep.lift (fun _ _ => ?_)) | (refine FldsKeep.append ?_ ?_) | (refine FldsKeep.flatMap (fun _ => ?_)) | (refine FldsKeep.map (fun _ => ?_)) | (refine FldsKeep.cons ?_ ?_) | (exact FldsKeep.nil) | (exact fun _ _ => rfl) | (intro n9 s9) | (simp only [modTin_frame, hTide, apply_ite (blank L), ite_self]))

theorem timeRecTsq_keeps (L : Region → Bool) (hTide : L .tide = true) (p : Nat) : FldsKeep L (timeRecTsq p).flds := by
  unfold timeRecTsq
  repeat' (first | (refine FldsKeep.lift (fun _ _ => ?_)) | (refine FldsKeep.append ?_ ?_) | (refine FldsKeep.flatMap (fun _ => ?_)) | (refine FldsKeep.map (fun _ => ?_)) | (refine FldsKeep.cons ?_ ?_) | (exact FldsKeep.nil) | (exact fun _ _ => rfl) | (intro n9 s9) | (simp only [modTsq_frame, hTide, apply_ite (blank L), ite_self]))

theorem setRate_frame (L : Region → Bool) (hTide : L .tide = true) (i : Nat) (r : Int) (s : State) :
    blank L (setRate i r s) = blank L s := by
  unfold setRate
  repeat' (first | with_reducible rfl | (simp only [modDom_frame, modTide_frame, hTide, apply_ite (blank L), ite_self]) | (with_reducible refine ite_frame _ ?_ ?_) | split)

theorem timeRecord_keeps (L : Region → Bool) (hTide : L .tide = true) {i part : Nat} {rc : Rec} (h : timeRecord i part = some rc) : FldsKeep L rc.flds := by
  unfold timeRecord at h
  repeat' (split at h)
  all_goals first | (cases h; done) | (injection h with h; subst h; first | (exact FldsKeep.nil) | (with_reducible exact timeRec0Set_keeps L hTide ) | (with_reducible exact timeRecTsq_keeps L hTide _) | (with_reducible exact timeRec0_keeps L hTide ) | (with_reducible exact timeRecTout_keeps L hTide _) | (with_reducible exact timeRecTin_keeps L hTide _) | (with_reducible exact timeRecDom_keeps L hTide _))

theorem timeAfter_frame (L : Region → Bool) (hTide : L .tide = true) (hWire : L .wire = true) (old : State) (i part : Nat) (ws : List (Nat × Nat)) (s : State) :
    blank L (timeAfter old i part ws s) = blank L s := by
  unfold timeAfter
  repeat' (first | with_reducible rfl | (simp only [emit_frame, modDom_frame, modServo_frame, modTout_frame, rateWindowEnd_frame, setRate_frame, settleTout_frame, stepped_frame, hTide, hWire, apply_ite (blank L), ite_self]) | (with_reducible refine ite_frame _ ?_ ?_) | split)

theorem timeClass_keeps (L : Region → Bool) (hTide : L .tide = true) (hWire : L .wire = true)  : Keeps L (timeClass) where
  record h := by
    simp only [timeClass] at h
    repeat' (split at h)
    all_goals first | (cases h; done) | (with_reducible exact timeRecord_keeps L hTide h) | (injection h with h; subst h; first | (exact FldsKeep.nil))
  after _ _ _ _ _ := by
    simp only [timeClass]
    repeat' (first | with_reducible rfl | (simp only [modTsq_frame, timeAfter_frame, hTide, hWire, apply_ite (blank L), ite_self]) | (with_reducible refine ite_frame _ ?_ ?_) | split)
  onRead _ _ _ _ _ := by
    simp only [timeClass]
    repeat' (first | with_reducible rfl | (simp only [modTsq_frame, timeAfter_frame, hTide, hWire, apply_ite (blank L), ite_self]) | (with_reducible refine ite_frame _ ?_ ?_) | split)
  held h := by
    first
    | (cases h; done)
    | (simp only [timeClass] at h; exact absurd h)
  acts := by
    simp only [timeClass]
    repeat' (first | (exact ActsKeep.nil) | (refine ActsKeep.cons ?_ ?_) | (refine ⟨fun _ _ _ _ => ?_, fun _ => ?_, fun _ _ _ => ?_, fun h9 => ?_⟩) | (cases h9; done) | (injection h9 with h9; subst h9) | with_reducible rfl | (simp only [modTsq_frame, timeAfter_frame, hTide, hWire, apply_ite (blank L), ite_self]) | (with_reducible refine ite_frame _ ?_ ?_) | split)

theorem tideInRead_frame (L : Region → Bool) (hTide : L .tide = true) (hWire : L .wire = true) (hDetect : L .detect = true) (hTp : L .tp = true) (hNm : L .nm = true) (r : Req) (s : State) :
    blank L (tideInRead r s) = blank L s := by
  unfold tideInRead
  repeat' (first | with_reducible rfl | (simp only [accepted_frame, answer_frame, modTin_frame, hTide, hWire, hDetect, hTp, hNm, apply_ite (blank L), ite_self]) | (with_reducible refine ite_frame _ ?_ ?_) | split)

theorem takeSnap_frame (L : Region → Bool) (hTide : L .tide = true) (p : Nat) (s : State) :
    blank L (takeSnap p s) = blank L s := by
  unfold takeSnap
  repeat' (first | with_reducible rfl | (simp only [modTide_frame, hTide, apply_ite (blank L), ite_self]) | (with_reducible refine ite_frame _ ?_ ?_) | split)

theorem servoTo_frame (L : Region → Bool) (hTide : L .tide = true) (hWire : L .wire = true) (i : Nat) (n : ServoState) (s : State) :
    blank L (servoTo i n s) = blank L s := by
  unfold servoTo
  repeat' (first | with_reducible rfl | (simp only [emit_frame, modServo_frame, hTide, hWire, apply_ite (blank L), ite_self]) | (with_reducible refine ite_frame _ ?_ ?_) | split)

theorem servoStep_frame (L : Region → Bool) (hTide : L .tide = true) (hWire : L .wire = true) (i : Nat) (e : Int) (s : State) :
    blank L (servoStep i e s) = blank L s := by
  unfold servoStep
  repeat' (first | with_reducible rfl | (simp only [stepDom_frame, stepWork_frame, hTide, hWire, apply_ite (blank L), ite_self]) | (with_reducible refine ite_frame _ ?_ ?_) | split)

theorem clampRate_frame (L : Region → Bool) (hTide : L .tide = true) (hWire : L .wire = true) (i : Nat) (r : Int) (s : State) :
    blank L (clampRate i r s) = blank L s := by
  unfold clampRate
  repeat' (first | with_reducible rfl | (simp only [emit_frame, setRate_frame, hTide, hWire, apply_ite (blank L), ite_self]) | (with_reducible refine ite_frame _ ?_ ?_) | split)

theorem servoPI_frame (L : Region → Bool) (hTide : L .tide = true) (hWire : L .wire = true) (i : Nat) (e : Int) (tau : Nat) (s : State) :
    blank L (servoPI i e tau s) = blank L s := by
  simp only [servoPI, clampRate_frame, modServo_frame, hTide, hWire]

theorem servoAcquire_frame (L : Region → Bool) (hTide : L .tide = true) (hWire : L .wire = true) (i : Nat) (e : Int) (tau : Nat) (nrr : Int) (s : State) :
    blank L (servoAcquire i e tau nrr s) = blank L s := by
  unfold servoAcquire
  repeat' (first | with_reducible rfl | (simp only [modServo_frame, servoPI_frame, servoStep_frame, setRate_frame, hTide, hWire, apply_ite (blank L), ite_self]) | (with_reducible refine ite_frame _ ?_ ?_) | split)

theorem servoCount_frame (L : Region → Bool) (hTide : L .tide = true) (hWire : L .wire = true) (i : Nat) (e : Int) (s : State) :
    blank L (servoCount i e s) = blank L s := by
  unfold servoCount
  repeat' (first | with_reducible rfl | (simp only [modServo_frame, servoTo_frame, hTide, hWire, apply_ite (blank L), ite_self]) | (with_reducible refine ite_frame _ ?_ ?_) | split)

theorem servoSample_frame (L : Region → Bool) (hTide : L .tide = true) (hWire : L .wire = true) (i : Nat) (e : Int) (tau : Nat) (nrr : Int) (s : State) :
    blank L (servoSample i e tau nrr s) = blank L s := by
  unfold servoSample
  repeat' (first | with_reducible rfl | (simp only [modServo_frame, servoAcquire_frame, servoCount_frame, servoPI_frame, servoTo_frame, hTide, hWire, apply_ite (blank L), ite_self]) | (with_reducible refine ite_frame _ ?_ ?_) | split)

theorem servoHold_frame (L : Region → Bool) (hTide : L .tide = true) (hWire : L .wire = true) (i : Nat) (s : State) :
    blank L (servoHold i s) = blank L s := by
  simp only [servoHold, servoTo_frame, setRate_frame, hTide, hWire]

theorem execTimeSet_frame (L : Region → Bool) (hStaged : L .staged = true) (hTide : L .tide = true) (hFv : L .fv = true) (hWire : L .wire = true) (hDetect : L .detect = true) (hTp : L .tp = true) (hNm : L .nm = true) (hTow : L .tow = true) {r : Req} {s : State} {t9} (h : execTimeSet r s = .next t9) :
    blank L t9 = blank L s := by
  unfold execTimeSet at h
  injection h with h
  subst h
  repeat' (first | with_reducible rfl | (refine Eq.trans (cmdSet_frame L hStaged hFv hWire hDetect hTp hNm hTow (timeClass_keeps L hTide hWire) _ _) ?_) | (simp only [hStaged, hTide, hFv, hWire, hDetect, hTp, hNm, hTow, apply_ite (blank L), ite_self]) | (with_reducible refine ite_frame _ ?_ ?_) | split)

theorem timeGetBody_frame (L : Region → Bool) (hTide : L .tide = true) (hWire : L .wire = true) (hDetect : L .detect = true) (hTp : L .tp = true) (hNm : L .nm = true) (r : Req) (s : State) :
    blank L (timeGetBody r s) = blank L s := by
  unfold timeGetBody
  repeat' (first | with_reducible rfl | (refine Eq.trans (doGet_frame L hWire hDetect hTp hNm (timeClass_keeps L hTide hWire) _ _) ?_) | (simp only [tideInRead_frame, hTide, hWire, hDetect, hTp, hNm, apply_ite (blank L), ite_self]) | (with_reducible refine ite_frame _ ?_ ?_) | split)

theorem execTideInRead_frame (L : Region → Bool) (hTide : L .tide = true) (hFv : L .fv = true) (hWire : L .wire = true) (hDetect : L .detect = true) (hTp : L .tp = true) (hNm : L .nm = true) (hTow : L .tow = true) {r : Req} {s : State} {t9} (h : execTideInRead r s = .next t9) :
    blank L t9 = blank L s := by
  unfold execTideInRead at h
  injection h with h
  subst h
  repeat' (first | with_reducible rfl | (refine Eq.trans (serve_frame L hFv hWire hDetect hTp hNm hTow _ _ _ _ (fun _ => ?_) _) ?_) | (simp only [timeGetBody_frame, hTide, hFv, hWire, hDetect, hTp, hNm, hTow, apply_ite (blank L), ite_self]) | (with_reducible refine ite_frame _ ?_ ?_) | split)

theorem execClearTsDrop_frame (L : Region → Bool) (hStaged : L .staged = true) (hTide : L .tide = true) (hFv : L .fv = true) (hWire : L .wire = true) (hDetect : L .detect = true) (hTp : L .tp = true) (hNm : L .nm = true) (hTow : L .tow = true) {r : Req} {s : State} {t9} (h : execClearTsDrop r s = .next t9) :
    blank L t9 = blank L s := by
  unfold execClearTsDrop at h
  injection h with h
  subst h
  repeat' (first | with_reducible rfl | (refine Eq.trans (cmdAct_frame L hStaged hFv hWire hDetect hTp hNm hTow (timeClass_keeps L hTide hWire) _ _ _) ?_) | (simp only [hStaged, hTide, hFv, hWire, hDetect, hTp, hNm, hTow, apply_ite (blank L), ite_self]) | (with_reducible refine ite_frame _ ?_ ?_) | split)

theorem execTsnapTake_frame (L : Region → Bool) (hTide : L .tide = true) {p : Nat} {bit : Bool} {s : State} {t9} (h : execTsnapTake p bit s = .next t9) :
    blank L t9 = blank L s := by
  obtain ⟨-, rfl⟩ := guardUnit_next h
  repeat' (first | with_reducible rfl | (simp only [takeSnap_frame, hTide, apply_ite (blank L), ite_self]) | (with_reducible refine ite_frame _ ?_ ?_) | split)

theorem execSyncReceived_frame (L : Region → Bool) (hTide : L .tide = true) (hWire : L .wire = true) {i : Nat} {e : Int} {tau : Nat} {nrr : Int} {s : State} {t9} (h : execSyncReceived i e tau nrr s = .next t9) :
    blank L t9 = blank L s := by
  obtain ⟨-, rfl⟩ := guardUnit_next h
  repeat' (first | with_reducible rfl | (simp only [servoSample_frame, hTide, hWire, apply_ite (blank L), ite_self]) | (with_reducible refine ite_frame _ ?_ ?_) | split)

theorem execSyncReceiptTimeout_frame (L : Region → Bool) (hTide : L .tide = true) (hWire : L .wire = true) (hDetect : L .detect = true) {i : Nat} {s : State} {t9} (h : execSyncReceiptTimeout i s = .next t9) :
    blank L t9 = blank L s := by
  obtain ⟨-, rfl⟩ := guardUnit_next h
  repeat' (first | with_reducible rfl | (simp only [detect_frame, servoHold_frame, hTide, hWire, hDetect, apply_ite (blank L), ite_self]) | (with_reducible refine ite_frame _ ?_ ?_) | split)

theorem execHoldoverLimit_frame (L : Region → Bool) (hTide : L .tide = true) (hWire : L .wire = true) {i : Nat} {s : State} {t9} (h : execHoldoverLimit i s = .next t9) :
    blank L t9 = blank L s := by
  obtain ⟨-, rfl⟩ := guardUnit_next h
  repeat' (first | with_reducible rfl | (simp only [servoTo_frame, hTide, hWire, apply_ite (blank L), ite_self]) | (with_reducible refine ite_frame _ ?_ ?_) | split)

theorem execGptpSyncTransmit_frame (L : Region → Bool) (hTide : L .tide = true) (hNet : L .net = true) {p d : Nat} {s : State} {t9} (h : execGptpSyncTransmit p d s = .next t9) :
    blank L t9 = blank L s := by
  obtain ⟨-, rfl⟩ := guardUnit_next h
  repeat' (first | with_reducible rfl | (simp only [keeperSend_frame, modGport_frame, hTide, hNet, apply_ite (blank L), ite_self]) | (with_reducible refine ite_frame _ ?_ ?_) | split)

theorem execPdelayReqTransmit_frame (L : Region → Bool) (hTide : L .tide = true) (hNet : L .net = true) {p : Nat} {s : State} {t9} (h : execPdelayReqTransmit p s = .next t9) :
    blank L t9 = blank L s := by
  obtain ⟨-, rfl⟩ := guardUnit_next h
  repeat' (first | with_reducible rfl | (simp only [keeperSend_frame, modGport_frame, hTide, hNet, apply_ite (blank L), ite_self]) | (with_reducible refine ite_frame _ ?_ ?_) | split)

theorem execPdelayMessageReceived_frame (L : Region → Bool) (hTide : L .tide = true) (hNet : L .net = true) {p : Nat} {isReq : Bool} {seq t1 t2 t3 t4 : Nat} {s : State} {t9} (h : execPdelayMessageReceived p isReq seq t1 t2 t3 t4 s = .next t9) :
    blank L t9 = blank L s := by
  obtain ⟨-, rfl⟩ := guardUnit_next h
  repeat' (first | with_reducible rfl | (simp only [keeperSend_frame, modGport_frame, hTide, hNet, apply_ite (blank L), ite_self]) | (with_reducible refine ite_frame _ ?_ ?_) | split)

theorem execFollowUp_frame (L : Region → Bool) (hTide : L .tide = true) (hNet : L .net = true) {p : Nat} {s : State} {t9} (h : execFollowUp p s = .next t9) :
    blank L t9 = blank L s := by
  obtain ⟨-, rfl⟩ := guardUnit_next h
  repeat' (first | with_reducible rfl | (simp only [keeperSend_frame, modTsq_frame, hTide, hNet, apply_ite (blank L), ite_self]) | (with_reducible refine ite_frame _ ?_ ?_) | split)

theorem execTideOutEdge_frame (L : Region → Bool) (hTide : L .tide = true) {i : Nat} {s : State} {t9} (h : execTideOutEdge i s = .next t9) :
    blank L t9 = blank L s := by
  obtain ⟨-, rfl⟩ := guardUnit_next h
  repeat' (first | with_reducible rfl | (simp only [startPulse_frame, hTide, apply_ite (blank L), ite_self]) | (with_reducible refine ite_frame _ ?_ ?_) | split)

theorem boundaryTouts_frame (L : Region → Bool) (hTide : L .tide = true) (n : Nat) (s : State) :
    blank L (boundaryTouts n s) = blank L s := by
  unfold boundaryTouts
  repeat' (first | with_reducible rfl | (simp only [startPulse_frame, hTide, apply_ite (blank L), ite_self]) | (with_reducible refine (foldl_pair_frame L _ (fun _ _ => ?_) _ _).trans ?_) | (with_reducible refine (foldl_frame L _ (fun _ _ => ?_) _ _).trans ?_) | (with_reducible refine ite_frame _ ?_ ?_) | split)

theorem execTideOutPulseEnd_frame (L : Region → Bool) (hTide : L .tide = true) {i : Nat} {s : State} {t9} (h : execTideOutPulseEnd i s = .next t9) :
    blank L t9 = blank L s := by
  obtain ⟨-, rfl⟩ := guardUnit_next h
  repeat' (first | with_reducible rfl | (simp only [modTout_frame, settleTout_frame, hTide, apply_ite (blank L), ite_self]) | (with_reducible refine ite_frame _ ?_ ?_) | split)

theorem execTideInCapture_frame (L : Region → Bool) (hTide : L .tide = true) (hWire : L .wire = true) {i : Nat} {rising : Bool} {width : Nat} {s : State} {t9} (h : execTideInCapture i rising width s = .next t9) :
    blank L t9 = blank L s := by
  obtain ⟨-, rfl⟩ := guardUnit_next h
  repeat' (first | with_reducible rfl | (simp only [emit_frame, modTin_frame, servoSample_frame, hTide, hWire, apply_ite (blank L), ite_self]) | (with_reducible refine ite_frame _ ?_ ?_) | split)

theorem execGptpAnnounceReceived_frame (L : Region → Bool) (hTide : L .tide = true) (hWire : L .wire = true) {i p gm : Nat} {vec : List Nat} {s : State} {t9} (h : execGptpAnnounceReceived i p gm vec s = .next t9) :
    blank L t9 = blank L s := by
  obtain ⟨-, rfl⟩ := guardUnit_next h
  repeat' (first | with_reducible rfl | (simp only [modGport_frame, modServo_frame, servoHold_frame, hTide, hWire, apply_ite (blank L), ite_self]) | (with_reducible refine ite_frame _ ?_ ?_) | split)

end Sys2Proof.Machine
end

