-- ==== Sys2Proof/Laws/FrameTow.lean ====
section
/-! SUPPORT. Frame lemmas of Machine/Tow.lean: what each operation leaves alone. -/
set_option linter.unusedSimpArgs false
set_option linter.unusedVariables false
namespace Sys2Proof.Machine

theorem bargeTo_frame (L : Region → Bool) (hTow : L .tow = true) (a st : Nat) (s : State) :
    blank L (bargeTo a st s) = blank L s := by
  unfold bargeTo
  repeat' (first | with_reducible rfl | (simp only [modBarge_frame, hTow, apply_ite (blank L), ite_self]) | (with_reducible refine ite_frame _ ?_ ?_) | split)

theorem loadBegin_frame (L : Region → Bool) (hWire : L .wire = true) (hTow : L .tow = true) (a : Nat) (s : State) :
    blank L (loadBegin a s) = blank L s := by
  simp only [loadBegin, bargeTo_frame, emit_frame, modBarge_frame, modTowReseq_frame, hWire, hTow]

theorem loadSend_frame (L : Region → Bool) (hWire : L .wire = true) (hTow : L .tow = true) (as_ : List Nat) (s : State) :
    blank L (loadSend as_ s) = blank L s := by
  unfold loadSend
  repeat' (first | with_reducible rfl | (with_reducible refine Eq.trans (towSend_frame_eq L hWire hTow (by with_reducible assumption)) ?_) | (simp only [towCast_frame, towSend_frame, hWire, hTow, apply_ite (blank L), ite_self]) | (with_reducible refine (foldl_pair_frame L _ (fun _ _ => ?_) _ _).trans ?_) | (with_reducible refine (foldl_frame L _ (fun _ _ => ?_) _ _).trans ?_) | (with_reducible refine ite_frame _ ?_ ?_) | split)

theorem startLoad_frame (L : Region → Bool) (hWire : L .wire = true) (hTow : L .tow = true) (a : Nat) (s : State) :
    blank L (startLoad a s) = blank L s := by
  simp only [startLoad, loadBegin_frame, loadSend_frame, hWire, hTow]

theorem loadFailed_frame (L : Region → Bool) (hWire : L .wire = true) (hTow : L .tow = true) (a : Nat) (lost : Bool) (s : State) :
    blank L (loadFailed a lost s) = blank L s := by
  simp only [loadFailed, bargeTo_frame, emit_frame, modBarge_frame, hWire, hTow]

theorem moveFrame_frame (L : Region → Bool) (hWire : L .wire = true) (hTow : L .tow = true) (y : Nat) (f : TowFrame) (s : State) :
    blank L (moveFrame y f s) = blank L s := by
  unfold moveFrame
  repeat' (first | with_reducible rfl | (simp only [owe_frame, towPut_frame, hWire, hTow, apply_ite (blank L), ite_self]) | (with_reducible refine ite_frame _ ?_ ?_) | split)

theorem ringBroken_frame (L : Region → Bool) (hTow : L .tow = true) (s : State) :
    blank L (ringBroken s) = blank L s := by
  unfold ringBroken
  repeat' (first | with_reducible rfl | (simp only [modTow_frame, modTpt_frame, hTow, apply_ite (blank L), ite_self]) | (with_reducible refine ite_frame _ ?_ ?_) | split)

theorem lostLoads_frame (L : Region → Bool) (hWire : L .wire = true) (hTow : L .tow = true) (s : State) :
    blank L (lostLoads s) = blank L s := by
  unfold lostLoads
  repeat' (first | with_reducible rfl | (simp only [loadFailed_frame, hWire, hTow, apply_ite (blank L), ite_self]) | (with_reducible refine (foldl_pair_frame L _ (fun _ _ => ?_) _ _).trans ?_) | (with_reducible refine (foldl_frame L _ (fun _ _ => ?_) _ _).trans ?_) | (with_reducible refine ite_frame _ ?_ ?_) | split)

theorem linkDown_frame (L : Region → Bool) (hWire : L .wire = true) (hTow : L .tow = true) (x v : Nat) (s : State) :
    blank L (linkDown x v s) = blank L s := by
  unfold linkDown
  repeat' (first | with_reducible rfl | (simp only [countTow_frame, emit_frame, lostLoads_frame, modTpt_frame, moveFrame_frame, ringBroken_frame, sendBeat_frame, hWire, hTow, apply_ite (blank L), ite_self]) | (with_reducible refine (foldl_pair_frame L _ (fun _ _ => ?_) _ _).trans ?_) | (with_reducible refine (foldl_frame L _ (fun _ _ => ?_) _ _).trans ?_) | (with_reducible refine ite_frame _ ?_ ?_) | split)

theorem execTowlineLinkUp_frame (L : Region → Bool) (hWire : L .wire = true) (hTow : L .tow = true) {x : Nat} {s : State} {t9} (h : execTowlineLinkUp x s = .next t9) :
    blank L t9 = blank L s := by
  obtain ⟨-, rfl⟩ := guardUnit_next h
  repeat' (first | with_reducible rfl | (simp only [emit_frame, modTpt_frame, pump_frame, sendBeat_frame, hWire, hTow, apply_ite (blank L), ite_self]) | (with_reducible refine ite_frame _ ?_ ?_) | split)

theorem execTowlineLinkDown_frame (L : Region → Bool) (hWire : L .wire = true) (hTow : L .tow = true) {x : Nat} {s : State} {t9} (h : execTowlineLinkDown x s = .next t9) :
    blank L t9 = blank L s := by
  obtain ⟨-, rfl⟩ := guardUnit_next h
  repeat' (first | with_reducible rfl | (simp only [linkDown_frame, hWire, hTow, apply_ite (blank L), ite_self]) | (with_reducible refine ite_frame _ ?_ ?_) | split)

theorem execRevertHoldEnd_frame (L : Region → Bool) (hTow : L .tow = true) {x : Nat} {s : State} {t9} (h : execRevertHoldEnd x s = .next t9) :
    blank L t9 = blank L s := by
  obtain ⟨-, rfl⟩ := guardUnit_next h
  repeat' (first | with_reducible rfl | (simp only [modTow_frame, modTpt_frame, hTow, apply_ite (blank L), ite_self]) | (with_reducible refine ite_frame _ ?_ ?_) | split)

theorem takeCredit_frame (L : Region → Bool) (hTow : L .tow = true) (x v n : Nat) (s : State) :
    blank L (takeCredit x v n s) = blank L s := by
  unfold takeCredit
  repeat' (first | with_reducible rfl | (simp only [modTpt_frame, hTow, apply_ite (blank L), ite_self]) | (with_reducible refine ite_frame _ ?_ ?_) | split)

theorem badTrailer_frame (L : Region → Bool) (hWire : L .wire = true) (hDetect : L .detect = true) (hTow : L .tow = true) (x : Nat) (s : State) :
    blank L (badTrailer x s) = blank L s := by
  unfold badTrailer
  repeat' (first | with_reducible rfl | (simp only [countTow_frame, detect_frame, modTpt_frame, hWire, hDetect, hTow, apply_ite (blank L), ite_self]) | (with_reducible refine ite_frame _ ?_ ?_) | split)

theorem towArrive_frame (L : Region → Bool) (hWire : L .wire = true) (hDetect : L .detect = true) (hTow : L .tow = true) (x chk : Nat) (f : TowFrame) (s : State) :
    blank L (towArrive x chk f s).2 = blank L s := by
  unfold towArrive
  repeat' (first | with_reducible rfl | (simp only [badTrailer_frame, countTow_frame, modTpt_frame, owe_frame, pump_frame, takeCredit_frame, hWire, hDetect, hTow, apply_ite (blank L), ite_self]) | (with_reducible refine ite_frame _ ?_ ?_) | split)

theorem towArrive_frame_eq (L : Region → Bool) (hWire : L .wire = true) (hDetect : L .detect = true) (hTow : L .tow = true) {x chk : Nat} {f : TowFrame} {s : State} {x9} {t9} (h : towArrive x chk f s = (x9, t9)) :
    blank L t9 = blank L s := by
  rw [← towArrive_frame L hWire hDetect hTow x chk f s, h]

theorem execTowlineFrameGap_frame (L : Region → Bool) (hWire : L .wire = true) (hTow : L .tow = true) {x : Nat} {noise : Bool} {cmd : Option (Nat × Nat × Req)} {s : State} {t9} (h : execTowlineFrameGap x noise cmd s = .next t9) :
    blank L t9 = blank L s := by
  obtain ⟨-, rfl⟩ := guardUnit_next h
  repeat' (first | with_reducible rfl | (simp only [answer_frame, countTow_frame, hWire, hTow, apply_ite (blank L), ite_self]) | (with_reducible refine ite_frame _ ?_ ?_) | split)

theorem beatTimes_frame (L : Region → Bool) (hTow : L .tow = true) (x : Nat) (b : Beat) (s : State) :
    blank L (beatTimes x b s) = blank L s := by
  unfold beatTimes
  repeat' (first | with_reducible rfl | (simp only [modTpt_frame, hTow, apply_ite (blank L), ite_self]) | (with_reducible refine ite_frame _ ?_ ?_) | split)

theorem beatArrive_frame (L : Region → Bool) (hWire : L .wire = true) (hDetect : L .detect = true) (hTow : L .tow = true) (x chk : Nat) (f : TowFrame) (s : State) :
    blank L (beatArrive x chk f s).2 = blank L s := by
  unfold beatArrive
  repeat' (first | with_reducible rfl | (with_reducible refine Eq.trans (towArrive_frame_eq L hWire hDetect hTow (by with_reducible assumption)) ?_) | (simp only [beatTimes_frame, towArrive_frame, hWire, hDetect, hTow, apply_ite (blank L), ite_self]) | (with_reducible refine ite_frame _ ?_ ?_) | split)

theorem beatArrive_frame_eq (L : Region → Bool) (hWire : L .wire = true) (hDetect : L .detect = true) (hTow : L .tow = true) {x chk : Nat} {f : TowFrame} {s : State} {x9} {t9} (h : beatArrive x chk f s = (x9, t9)) :
    blank L t9 = blank L s := by
  rw [← beatArrive_frame L hWire hDetect hTow x chk f s, h]

theorem onBeat_frame (L : Region → Bool) (hWire : L .wire = true) (hDetect : L .detect = true) (hTow : L .tow = true) {x chk op : Nat} {f : TowFrame} {s t : State}
    (act : TowFrame → Beat → State → State) (ha : ∀ g b s, blank L (act g b s) = blank L s)
    (h : onBeat x chk op f act s = .next t) : blank L t = blank L s := by
  obtain ⟨-, rfl⟩ := guardUnit_next h
  repeat' (first | with_reducible rfl | (refine Eq.trans (ha _ _ _) ?_) | (exact beatArrive_frame_eq L hWire hDetect hTow (by assumption)) | split)

theorem beatBoundary_frame (L : Region → Bool) (hWire : L .wire = true) (hTow : L .tow = true) (s : State) :
    blank L (beatBoundary s) = blank L s := by
  unfold beatBoundary
  repeat' (first | with_reducible rfl | (simp only [sendBeat_frame, hWire, hTow, apply_ite (blank L), ite_self]) | (with_reducible refine (foldl_pair_frame L _ (fun _ _ => ?_) _ _).trans ?_) | (with_reducible refine (foldl_frame L _ (fun _ _ => ?_) _ _).trans ?_) | (with_reducible refine ite_frame _ ?_ ?_) | split)

theorem beatWatch_frame (L : Region → Bool) (hTow : L .tow = true) (s : State) :
    blank L (beatWatch s) = blank L s := by
  unfold beatWatch
  repeat' (first | with_reducible rfl | (simp only [modBarge_frame, modTow_frame, hTow, apply_ite (blank L), ite_self]) | (with_reducible refine (foldl_pair_frame L _ (fun _ _ => ?_) _ _).trans ?_) | (with_reducible refine (foldl_frame L _ (fun _ _ => ?_) _ _).trans ?_) | (with_reducible refine ite_frame _ ?_ ?_) | split)

theorem resyncBegin_frame (L : Region → Bool) (hTow : L .tow = true) (a : Nat) (r : Option Req) (s : State) :
    blank L (resyncBegin a r s) = blank L s := by
  simp only [resyncBegin, modBarge_frame, hTow]

theorem bargeReady_frame (L : Region → Bool) (hWire : L .wire = true) (hTow : L .tow = true) (a : Nat) (s : State) :
    blank L (bargeReady a s) = blank L s := by
  unfold bargeReady
  repeat' (first | with_reducible rfl | (simp only [bargeTo_frame, emit_frame, hWire, hTow, apply_ite (blank L), ite_self]) | (with_reducible refine ite_frame _ ?_ ?_) | split)

theorem bargeBeat_frame (L : Region → Bool) (hWire : L .wire = true) (hTow : L .tow = true) (a : Nat) (b : Beat) (locked : Bool) (s : State) :
    blank L (bargeBeat a b locked s) = blank L s := by
  unfold bargeBeat
  repeat' (first | with_reducible rfl | (simp only [bargeReady_frame, bargeTo_frame, emit_frame, modBarge_frame, resyncBegin_frame, hWire, hTow, apply_ite (blank L), ite_self]) | (with_reducible refine ite_frame _ ?_ ?_) | split)

theorem tugBeat_frame (L : Region → Bool) (hCyc : L .cyc = true) (hTide : L .tide = true) (hWire : L .wire = true) (hFio : L .fio = true) (hTow : L .tow = true) (x : Nat) (b : Beat) (s : State) :
    blank L (tugBeat x b s) = blank L s := by
  unfold tugBeat
  repeat' (first | with_reducible rfl | (simp only [modTow_frame, servoSample_frame, startTimer_frame, hCyc, hTide, hWire, hFio, hTow, apply_ite (blank L), ite_self]) | (with_reducible refine ite_frame _ ?_ ?_) | split)

theorem execBeatReceived_frame (L : Region → Bool) (hCyc : L .cyc = true) (hTide : L .tide = true) (hWire : L .wire = true) (hDetect : L .detect = true) (hFio : L .fio = true) (hTow : L .tow = true) {x chk : Nat} {f : TowFrame} {locked : Bool} {s : State} {t9} (h : execBeatReceived x chk f locked s = .next t9) :
    blank L t9 = blank L s := by
  refine onBeat_frame L hWire hDetect hTow _ (fun _ _ _ => ?_) h
  repeat' (first | with_reducible rfl | (simp only [bargeBeat_frame, sendBeat_frame, tugBeat_frame, hCyc, hTide, hWire, hDetect, hFio, hTow, apply_ite (blank L), ite_self]) | (with_reducible refine ite_frame _ ?_ ?_) | split)

theorem execCreditReceived_frame (L : Region → Bool) (hWire : L .wire = true) (hDetect : L .detect = true) (hTow : L .tow = true) {x chk : Nat} {f : TowFrame} {s : State} {t9} (h : execCreditReceived x chk f s = .next t9) :
    blank L t9 = blank L s := by
  refine onBeat_frame L hWire hDetect hTow _ (fun _ _ _ => ?_) h
  repeat' (first | with_reducible rfl | (simp only [hWire, hDetect, hTow, apply_ite (blank L), ite_self]) | (with_reducible refine ite_frame _ ?_ ?_) | split)

theorem execCreditWaitExpiry_frame (L : Region → Bool) (hWire : L .wire = true) (hTow : L .tow = true) {x : Nat} {s : State} {t9} (h : execCreditWaitExpiry x s = .next t9) :
    blank L t9 = blank L s := by
  obtain ⟨-, rfl⟩ := guardUnit_next h
  repeat' (first | with_reducible rfl | (simp only [sendBeat_frame, hWire, hTow, apply_ite (blank L), ite_self]) | (with_reducible refine ite_frame _ ?_ ?_) | split)

theorem execTopoReceived_frame (L : Region → Bool) (hWire : L .wire = true) (hDetect : L .detect = true) (hTow : L .tow = true) {x chk : Nat} {f : TowFrame} {s : State} {t9} (h : execTopoReceived x chk f s = .next t9) :
    blank L t9 = blank L s := by
  refine onBeat_frame L hWire hDetect hTow _ (fun _ _ _ => ?_) h
  repeat' (first | with_reducible rfl | (simp only [lostLoads_frame, modTpt_frame, ringBroken_frame, sendBeat_frame, hWire, hDetect, hTow, apply_ite (blank L), ite_self]) | (with_reducible refine ite_frame _ ?_ ?_) | split)

theorem sendEnum_frame (L : Region → Bool) (hWire : L .wire = true) (hTow : L .tow = true) (x : Nat) (s : State) :
    blank L (sendEnum x s) = blank L s := by
  simp only [sendEnum, sendBeat_frame, hWire, hTow]

theorem enumBegin_frame (L : Region → Bool) (hWire : L .wire = true) (hTow : L .tow = true) (s : State) :
    blank L (enumBegin s) = blank L s := by
  simp only [enumBegin, modTow_frame, sendEnum_frame, hWire, hTow]

theorem enumOutcome_frame (L : Region → Bool) (hWire : L .wire = true) (hTow : L .tow = true) (a : Nat) (ack : Option (Nat × Nat × Nat × Bool)) (s : State) :
    blank L (enumOutcome a ack s).2 = blank L s := by
  unfold enumOutcome
  repeat' (first | with_reducible rfl | (simp only [bargeTo_frame, emit_frame, loadBegin_frame, modBarge_frame, hWire, hTow, apply_ite (blank L), ite_self]) | (with_reducible refine ite_frame _ ?_ ?_) | split)

theorem enumOutcome_frame_eq (L : Region → Bool) (hWire : L .wire = true) (hTow : L .tow = true) {a : Nat} {ack : Option (Nat × Nat × Nat × Bool)} {s : State} {x9} {t9} (h : enumOutcome a ack s = (x9, t9)) :
    blank L t9 = blank L s := by
  rw [← enumOutcome_frame L hWire hTow a ack s, h]

theorem enumFinish_frame (L : Region → Bool) (hWire : L .wire = true) (hTow : L .tow = true) (s : State) :
    blank L (enumFinish s) = blank L s := by
  unfold enumFinish
  repeat' (first | with_reducible rfl | (with_reducible refine Eq.trans (enumOutcome_frame_eq L hWire hTow (by with_reducible assumption)) ?_) | (simp only [enumOutcome_frame, loadSend_frame, modTow_frame, modTpt_frame, sendBeat_frame, hWire, hTow, apply_ite (blank L), ite_self]) | (with_reducible refine (foldl_pair_frame L _ (fun _ _ => ?_) _ _).trans ?_) | (with_reducible refine (foldl_frame L _ (fun _ _ => ?_) _ _).trans ?_) | (with_reducible refine ite_frame _ ?_ ?_) | split)

theorem enumCheck_frame (L : Region → Bool) (hWire : L .wire = true) (hTow : L .tow = true) (s : State) :
    blank L (enumCheck s) = blank L s := by
  unfold enumCheck
  repeat' (first | with_reducible rfl | (simp only [enumFinish_frame, hWire, hTow, apply_ite (blank L), ite_self]) | (with_reducible refine ite_frame _ ?_ ?_) | split)

theorem ackRunning_frame (L : Region → Bool) (hWire : L .wire = true) (hTow : L .tow = true) (x hops id : Nat) (ready : Bool) (s : State) :
    blank L (ackRunning x hops id ready s) = blank L s := by
  unfold ackRunning
  repeat' (first | with_reducible rfl | (simp only [emit_frame, startLoad_frame, hWire, hTow, apply_ite (blank L), ite_self]) | (with_reducible refine ite_frame _ ?_ ?_) | split)

theorem execEnumReceived_frame (L : Region → Bool) (hWire : L .wire = true) (hDetect : L .detect = true) (hTow : L .tow = true) {x chk : Nat} {f : TowFrame} {peer quiet : Bool} {s : State} {t9} (h : execEnumReceived x chk f peer quiet s = .next t9) :
    blank L t9 = blank L s := by
  refine onBeat_frame L hWire hDetect hTow _ (fun _ _ _ => ?_) h
  repeat' (first | with_reducible rfl | (simp only [emit_frame, enumCheck_frame, linkDown_frame, modTow_frame, sendBeat_frame, hWire, hDetect, hTow, apply_ite (blank L), ite_self]) | (with_reducible refine ite_frame _ ?_ ?_) | split)

theorem execEnumAckReceived_frame (L : Region → Bool) (hWire : L .wire = true) (hDetect : L .detect = true) (hTow : L .tow = true) {x chk : Nat} {f : TowFrame} {s : State} {t9} (h : execEnumAckReceived x chk f s = .next t9) :
    blank L t9 = blank L s := by
  refine onBeat_frame L hWire hDetect hTow _ (fun _ _ _ => ?_) h
  repeat' (first | with_reducible rfl | (simp only [ackRunning_frame, enumCheck_frame, modTow_frame, sendBeat_frame, hWire, hDetect, hTow, apply_ite (blank L), ite_self]) | (with_reducible refine ite_frame _ ?_ ?_) | split)

theorem execAssignReceived_frame (L : Region → Bool) (hSys : L .sys = true) (hWire : L .wire = true) (hDetect : L .detect = true) (hTow : L .tow = true) {x chk : Nat} {f : TowFrame} {s : State} {t9} (h : execAssignReceived x chk f s = .next t9) :
    blank L t9 = blank L s := by
  refine onBeat_frame L hWire hDetect hTow _ (fun _ _ _ => ?_) h
  repeat' (first | with_reducible rfl | (simp only [modSys_frame, modTow_frame, sendBeat_frame, hSys, hWire, hDetect, hTow, apply_ite (blank L), ite_self]) | (with_reducible refine ite_frame _ ?_ ?_) | split)

theorem execEnumTbDelay_frame (L : Region → Bool) (hWire : L .wire = true) (hTow : L .tow = true) {s : State} {t9} (h : execEnumTbDelay s = .next t9) :
    blank L t9 = blank L s := by
  unfold execEnumTbDelay at h
  injection h with h
  subst h
  repeat' (first | with_reducible rfl | (simp only [enumCheck_frame, modTow_frame, sendEnum_frame, hWire, hTow, apply_ite (blank L), ite_self]) | (with_reducible refine ite_frame _ ?_ ?_) | split)

theorem execEnumRepeat_frame (L : Region → Bool) (hWire : L .wire = true) (hTow : L .tow = true) {s : State} {t9} (h : execEnumRepeat s = .next t9) :
    blank L t9 = blank L s := by
  unfold execEnumRepeat at h
  injection h with h
  subst h
  repeat' (first | with_reducible rfl | (simp only [enumFinish_frame, modTow_frame, sendEnum_frame, hWire, hTow, apply_ite (blank L), ite_self]) | (with_reducible refine ite_frame _ ?_ ?_) | split)

theorem execBargeStranded_frame (L : Region → Bool) (hWire : L .wire = true) (hDetect : L .detect = true) (hTow : L .tow = true) {s : State} {t9} (h : execBargeStranded s = .next t9) :
    blank L t9 = blank L s := by
  unfold execBargeStranded at h
  injection h with h
  subst h
  repeat' (first | with_reducible rfl | (simp only [detect_frame, modTow_frame, hWire, hDetect, hTow, apply_ite (blank L), ite_self]) | (with_reducible refine ite_frame _ ?_ ?_) | split)

theorem postedFailed_frame (L : Region → Bool) (hWire : L .wire = true) (a st : Nat) (p : Posted) (s : State) :
    blank L (postedFailed a st p s) = blank L s := by
  simp only [postedFailed, emit_frame, hWire]

theorem execTugStrandDeclare_frame (L : Region → Bool) (hWire : L .wire = true) (hDetect : L .detect = true) (hTow : L .tow = true) {a : Nat} {s : State} {t9} (h : execTugStrandDeclare a s = .next t9) :
    blank L t9 = blank L s := by
  obtain ⟨-, rfl⟩ := guardUnit_next h
  repeat' (first | with_reducible rfl | (simp only [bargeTo_frame, detect_frame, emit_frame, modBarge_frame, postedFailed_frame, hWire, hDetect, hTow, apply_ite (blank L), ite_self]) | (with_reducible refine (foldl_pair_frame L _ (fun _ _ => ?_) _ _).trans ?_) | (with_reducible refine (foldl_frame L _ (fun _ _ => ?_) _ _).trans ?_) | (with_reducible refine ite_frame _ ?_ ?_) | split)

theorem execStrandHoldEnd_frame (L : Region → Bool) (hWire : L .wire = true) (hDetect : L .detect = true) (hTp : L .tp = true) (hTow : L .tow = true) {s : State} {t9} (h : execStrandHoldEnd s = .next t9) :
    blank L t9 = blank L s := by
  unfold execStrandHoldEnd at h
  injection h with h
  subst h
  repeat' (first | with_reducible rfl | (simp only [modTow_frame, tpSet_frame, hWire, hDetect, hTp, hTow, apply_ite (blank L), ite_self]) | (with_reducible refine ite_frame _ ?_ ?_) | split)

theorem resyncAnswer_frame (L : Region → Bool) (hWire : L .wire = true) (hTow : L .tow = true) (a : Nat) (st : Status) (s : State) :
    blank L (resyncAnswer a st s) = blank L s := by
  unfold resyncAnswer
  repeat' (first | with_reducible rfl | (simp only [answer_frame, modBarge_frame, hWire, hTow, apply_ite (blank L), ite_self]) | (with_reducible refine (foldl_pair_frame L _ (fun _ _ => ?_) _ _).trans ?_) | (with_reducible refine (foldl_frame L _ (fun _ _ => ?_) _ _).trans ?_) | (with_reducible refine ite_frame _ ?_ ?_) | split)

theorem execResyncTimeout_frame (L : Region → Bool) (hWire : L .wire = true) (hTow : L .tow = true) {a : Nat} {s : State} {t9} (h : execResyncTimeout a s = .next t9) :
    blank L t9 = blank L s := by
  obtain ⟨-, rfl⟩ := guardUnit_next h
  repeat' (first | with_reducible rfl | (simp only [resyncAnswer_frame, hWire, hTow, apply_ite (blank L), ite_self]) | (with_reducible refine ite_frame _ ?_ ?_) | split)

theorem execResyncExit_frame (L : Region → Bool) (hWire : L .wire = true) (hDetect : L .detect = true) (hTp : L .tp = true) (hTow : L .tow = true) {a dropped : Nat} {s : State} {t9} (h : execResyncExit a dropped s = .next t9) :
    blank L t9 = blank L s := by
  obtain ⟨-, rfl⟩ := guardUnit_next h
  repeat' (first | with_reducible rfl | (simp only [bargeFlush_frame, bargeTo_frame, modBarge_frame, modTow_frame, resyncAnswer_frame, tpClear_frame, hWire, hDetect, hTp, hTow, apply_ite (blank L), ite_self]) | (with_reducible refine ite_frame _ ?_ ?_) | split)

theorem execRelayTimeout_frame (L : Region → Bool) (hFv : L .fv = true) (hWire : L .wire = true) (hTow : L .tow = true) {a tag : Nat} {s : State} {t9} (h : execRelayTimeout a tag s = .next t9) :
    blank L t9 = blank L s := by
  obtain ⟨-, rfl⟩ := guardUnit_next h
  repeat' (first | with_reducible rfl | ((with_reducible refine Eq.trans (modFv_part L _ _ ?_) ?_); (next => exact fun _ => by simp only [blankFv, hFv, if_true])) | (simp only [answer_frame, modBarge_frame, hFv, hWire, hTow, apply_ite (blank L), ite_self]) | (with_reducible refine ite_frame _ ?_ ?_) | split)

theorem execBargeLoadRetry_frame (L : Region → Bool) (hWire : L .wire = true) (hTow : L .tow = true) {a : Nat} {s : State} {t9} (h : execBargeLoadRetry a s = .next t9) :
    blank L t9 = blank L s := by
  obtain ⟨-, rfl⟩ := guardUnit_next h
  repeat' (first | with_reducible rfl | (simp only [startLoad_frame, hWire, hTow, apply_ite (blank L), ite_self]) | (with_reducible refine ite_frame _ ?_ ?_) | split)

theorem towRec_keeps (L : Region → Bool) (hTow : L .tow = true)  : FldsKeep L (towRec ).flds := by
  unfold towRec
  repeat' (first | (refine FldsKeep.lift (fun _ _ => ?_)) | (refine FldsKeep.append ?_ ?_) | (refine FldsKeep.flatMap (fun _ => ?_)) | (refine FldsKeep.map (fun _ => ?_)) | (refine FldsKeep.cons ?_ ?_) | (exact FldsKeep.nil) | (exact fun _ _ => rfl) | (intro n9 s9) | (simp only [modTow_frame, hTow, apply_ite (blank L), ite_self]))

theorem bargeRec_keeps (L : Region → Bool) (hTow : L .tow = true) (a : Nat) : FldsKeep L (bargeRec a).flds := by
  unfold bargeRec
  repeat' (first | (refine FldsKeep.lift (fun _ _ => ?_)) | (refine FldsKeep.append ?_ ?_) | (refine FldsKeep.flatMap (fun _ => ?_)) | (refine FldsKeep.map (fun _ => ?_)) | (refine FldsKeep.cons ?_ ?_) | (exact FldsKeep.nil) | (exact fun _ _ => rfl) | (intro n9 s9) | (simp only [modBarge_frame, hTow, apply_ite (blank L), ite_self]))

theorem towPortRec_keeps (L : Region → Bool) (hTow : L .tow = true) (x : Nat) : FldsKeep L (towPortRec x).flds := by
  unfold towPortRec
  repeat' (first | (refine FldsKeep.lift (fun _ _ => ?_)) | (refine FldsKeep.append ?_ ?_) | (refine FldsKeep.flatMap (fun _ => ?_)) | (refine FldsKeep.map (fun _ => ?_)) | (refine FldsKeep.cons ?_ ?_) | (exact FldsKeep.nil) | (exact fun _ _ => rfl) | (intro n9 s9) | (simp only [modTpt_frame, hTow, apply_ite (blank L), ite_self]))

theorem towRecord_keeps (L : Region → Bool) (hTow : L .tow = true) {i part : Nat} {rc : Rec} (h : towRecord i part = some rc) : FldsKeep L rc.flds := by
  unfold towRecord at h
  repeat' (split at h)
  all_goals first | (cases h; done) | (injection h with h; subst h; first | (exact FldsKeep.nil) | (with_reducible exact towRec_keeps L hTow ) | (with_reducible exact towPortRec_keeps L hTow _) | (with_reducible exact bargeRec_keeps L hTow _))

theorem towAfter_frame (L : Region → Bool) (hWire : L .wire = true) (hTow : L .tow = true) (s0 : State) (i x0 : Nat) (x1 : List (Nat × Nat)) (s : State) :
    blank L (towAfter s0 i x0 x1 s) = blank L s := by
  unfold towAfter
  repeat' (first | with_reducible rfl | (simp only [linkDown_frame, modTpt_frame, hWire, hTow, apply_ite (blank L), ite_self]) | (with_reducible refine ite_frame _ ?_ ?_) | split)

theorem towClass_keeps (L : Region → Bool) (hWire : L .wire = true) (hTow : L .tow = true)  : Keeps L (towClass) where
  record h := by
    simp only [towClass] at h
    repeat' (split at h)
    all_goals first | (cases h; done) | (with_reducible exact towRecord_keeps L hTow h) | (injection h with h; subst h; first | (exact FldsKeep.nil))
  after _ _ _ _ _ := by
    simp only [towClass]
    repeat' (first | with_reducible rfl | (simp only [enumBegin_frame, modTpt_frame, resyncBegin_frame, startLoad_frame, towAfter_frame, hWire, hTow, apply_ite (blank L), ite_self]) | (with_reducible refine (foldl_pair_frame L _ (fun _ _ => ?_) _ _).trans ?_) | (with_reducible refine (foldl_frame L _ (fun _ _ => ?_) _ _).trans ?_) | (with_reducible refine ite_frame _ ?_ ?_) | split)
  onRead _ _ _ _ _ := by
    simp only [towClass]
    repeat' (first | with_reducible rfl | (simp only [enumBegin_frame, modTpt_frame, resyncBegin_frame, startLoad_frame, towAfter_frame, hWire, hTow, apply_ite (blank L), ite_self]) | (with_reducible refine (foldl_pair_frame L _ (fun _ _ => ?_) _ _).trans ?_) | (with_reducible refine (foldl_frame L _ (fun _ _ => ?_) _ _).trans ?_) | (with_reducible refine ite_frame _ ?_ ?_) | split)
  held h := by
    first
    | (cases h; done)
    | (simp only [towClass] at h; exact absurd h)
  acts := by
    simp only [towClass]
    repeat' (first | (exact ActsKeep.nil) | (refine ActsKeep.cons ?_ ?_) | (refine ⟨fun _ _ _ _ => ?_, fun _ => ?_, fun _ _ _ => ?_, fun h9 => ?_⟩) | (cases h9; done) | (injection h9 with h9; subst h9) | with_reducible rfl | (simp only [enumBegin_frame, modTpt_frame, resyncBegin_frame, startLoad_frame, towAfter_frame, hWire, hTow, apply_ite (blank L), ite_self]) | (with_reducible refine (foldl_pair_frame L _ (fun _ _ => ?_) _ _).trans ?_) | (with_reducible refine (foldl_frame L _ (fun _ _ => ?_) _ _).trans ?_) | (with_reducible refine ite_frame _ ?_ ?_) | split)

theorem execTowEnumerate_frame (L : Region → Bool) (hStaged : L .staged = true) (hFv : L .fv = true) (hWire : L .wire = true) (hDetect : L .detect = true) (hTp : L .tp = true) (hNm : L .nm = true) (hTow : L .tow = true) {r : Req} {s : State} {t9} (h : execTowEnumerate r s = .next t9) :
    blank L t9 = blank L s := by
  unfold execTowEnumerate at h
  injection h with h
  subst h
  repeat' (first | with_reducible rfl | (refine Eq.trans (cmdAct_frame L hStaged hFv hWire hDetect hTp hNm hTow (towClass_keeps L hWire hTow) _ _ _) ?_) | (simp only [hStaged, hFv, hWire, hDetect, hTp, hNm, hTow, apply_ite (blank L), ite_self]) | (with_reducible refine ite_frame _ ?_ ?_) | split)

theorem execTowResync_frame (L : Region → Bool) (hStaged : L .staged = true) (hFv : L .fv = true) (hWire : L .wire = true) (hDetect : L .detect = true) (hTp : L .tp = true) (hNm : L .nm = true) (hTow : L .tow = true) {r : Req} {s : State} {t9} (h : execTowResync r s = .next t9) :
    blank L t9 = blank L s := by
  unfold execTowResync at h
  injection h with h
  subst h
  repeat' (first | with_reducible rfl | (refine Eq.trans (cmdAct_frame L hStaged hFv hWire hDetect hTp hNm hTow (towClass_keeps L hWire hTow) _ _ _) ?_) | (simp only [hStaged, hFv, hWire, hDetect, hTp, hNm, hTow, apply_ite (blank L), ite_self]) | (with_reducible refine ite_frame _ ?_ ?_) | split)

theorem execTowPortRelease_frame (L : Region → Bool) (hStaged : L .staged = true) (hFv : L .fv = true) (hWire : L .wire = true) (hDetect : L .detect = true) (hTp : L .tp = true) (hNm : L .nm = true) (hTow : L .tow = true) {r : Req} {s : State} {t9} (h : execTowPortRelease r s = .next t9) :
    blank L t9 = blank L s := by
  unfold execTowPortRelease at h
  injection h with h
  subst h
  repeat' (first | with_reducible rfl | (refine Eq.trans (cmdAct_frame L hStaged hFv hWire hDetect hTp hNm hTow (towClass_keeps L hWire hTow) _ _ _) ?_) | (simp only [hStaged, hFv, hWire, hDetect, hTp, hNm, hTow, apply_ite (blank L), ite_self]) | (with_reducible refine ite_frame _ ?_ ?_) | split)

theorem execTowReload_frame (L : Region → Bool) (hStaged : L .staged = true) (hFv : L .fv = true) (hWire : L .wire = true) (hDetect : L .detect = true) (hTp : L .tp = true) (hNm : L .nm = true) (hTow : L .tow = true) {r : Req} {s : State} {t9} (h : execTowReload r s = .next t9) :
    blank L t9 = blank L s := by
  unfold execTowReload at h
  injection h with h
  subst h
  repeat' (first | with_reducible rfl | (refine Eq.trans (cmdAct_frame L hStaged hFv hWire hDetect hTp hNm hTow (towClass_keeps L hWire hTow) _ _ _) ?_) | (simp only [hStaged, hFv, hWire, hDetect, hTp, hNm, hTow, apply_ite (blank L), ite_self]) | (with_reducible refine ite_frame _ ?_ ?_) | split)

theorem execTowSet_frame (L : Region → Bool) (hStaged : L .staged = true) (hFv : L .fv = true) (hWire : L .wire = true) (hDetect : L .detect = true) (hTp : L .tp = true) (hNm : L .nm = true) (hTow : L .tow = true) {r : Req} {s : State} {t9} (h : execTowSet r s = .next t9) :
    blank L t9 = blank L s := by
  unfold execTowSet at h
  injection h with h
  subst h
  repeat' (first | with_reducible rfl | (refine Eq.trans (cmdSet_frame L hStaged hFv hWire hDetect hTp hNm hTow (towClass_keeps L hWire hTow) _ _) ?_) | (simp only [hStaged, hFv, hWire, hDetect, hTp, hNm, hTow, apply_ite (blank L), ite_self]) | (with_reducible refine ite_frame _ ?_ ?_) | split)

end Sys2Proof.Machine
end

