-- ==== Sys2Proof/Laws/FrameBreach.lean ====
section
/-! SUPPORT. Frame lemmas of Machine/Breach.lean: what each operation leaves alone. -/
set_option linter.unusedSimpArgs false
set_option linter.unusedVariables false
namespace Sys2Proof.Machine

theorem nextOr_frame (L : Region → Bool) (s : State) (o : Out) (h : ∀ t, o = .next t → blank L t = blank L s) :
    blank L (nextOr s o) = blank L s := by
  unfold nextOr
  split
  · exact h _ rfl
  · rfl

theorem localReaction_frame (L : Region → Bool) (hSys : L .sys = true) (hCyc : L .cyc = true) (hStaged : L .staged = true) (hTide : L .tide = true) (hFv : L .fv = true) (hWire : L .wire = true) (hSafe : L .safe = true) (hDetect : L .detect = true) (hBreach : L .breach = true) (hPond : L .pond = true) (hTp : L .tp = true) (hPow : L .pow = true) (hSlu : L .slu = true) (hMot : L .mot = true) (hFio : L .fio = true) (hCan : L .can = true) (hLin : L .lin = true) (hNm : L .nm = true) (hAq : L .aq = true) (hNet : L .net = true) (hTow : L .tow = true) (hLight : L .light = true) (hAps : L .aps = true) (hPwr : L .pwr = true) (hImg : L .img = true) (hMem : L .mem = true) (hFree : L .free = true) (bp i e : Nat) (s : State) :
    blank L (localReaction bp i e s) = blank L s := by
  unfold localReaction
  repeat' (first | with_reducible rfl | (with_reducible refine nextOr_frame L _ _ (fun _ h => execLidSensorMismatch_frame L hWire hDetect hSlu h)) | (with_reducible refine nextOr_frame L _ _ (fun _ h => execAdcCrossCheckFailure_frame L hWire hDetect hSlu h)) | (with_reducible refine nextOr_frame L _ _ (fun _ h => execReverseTrip_frame L hWire hDetect hPow hMot h)) | ((with_reducible refine Eq.trans (modFv_part L _ _ ?_) ?_); (next => exact fun _ => by simp only [blankFv, hFv, if_true])) | (with_reducible refine nextOr_frame L _ _ (fun _ h => execCanDominantTimeout_frame L hWire hDetect hCan h)) | (with_reducible refine nextOr_frame L _ _ (fun _ h => execAdcReferenceFailure_frame L hWire hDetect hPond hPow hSlu hMot h)) | (with_reducible refine nextOr_frame L _ _ (fun _ h => execCliffLatchSet_frame L hWire hDetect hPow hMot h)) | (with_reducible refine nextOr_frame L _ _ (fun _ h => execSegmentFailure_frame L hWire hDetect hPond hPow h)) | (with_reducible refine nextOr_frame L _ _ (fun _ h => execShortTrip_frame L hWire hDetect hPow hMot h)) | (with_reducible refine nextOr_frame L _ _ (fun _ h => execGroupRiseVOv_frame L hWire hDetect hPow h)) | (with_reducible refine nextOr_frame L _ _ (fun _ h => execClockMon_frame L hWire hDetect hTp hPwr h)) | (with_reducible refine nextOr_frame L _ _ (fun _ h => execSilenceExpiry_frame L hWire hDetect hFio h)) | (with_reducible refine nextOr_frame L _ _ (fun _ h => execGroupFallVFull_frame L hWire hDetect hPow h)) | (with_reducible refine nextOr_frame L _ _ (fun _ h => execLimitTimerExpiry_frame L hWire hDetect hPow hMot h)) | (with_reducible refine nextOr_frame L _ _ (fun _ h => execBudgetFail_frame L hWire hDetect hSlu h)) | (simp only [bridgeStop_frame, condemn_frame, declareSilent_frame, enterBusOff_frame, forcedEnd_frame, forcedOff_frame, gateOff_frame, keeperDown_frame, lightReset_frame, modBank_frame, modCanCh_frame, modLight_frame, modPwr_frame, modSup_frame, modWire_frame, pinch_frame, servoHold_frame, setLink_frame, stuckSeen_frame, supOff_frame, tpSet_frame, hSys, hCyc, hStaged, hTide, hFv, hWire, hSafe, hDetect, hBreach, hPond, hTp, hPow, hSlu, hMot, hFio, hCan, hLin, hNm, hAq, hNet, hTow, hLight, hAps, hPwr, hImg, hMem, hFree, apply_ite (blank L), ite_self]) | (with_reducible refine ite_frame _ ?_ ?_) | split)

theorem fullReaction_frame (L : Region → Bool) (hSys : L .sys = true) (hCyc : L .cyc = true) (hStaged : L .staged = true) (hTide : L .tide = true) (hFv : L .fv = true) (hWire : L .wire = true) (hSafe : L .safe = true) (hDetect : L .detect = true) (hBreach : L .breach = true) (hPond : L .pond = true) (hTp : L .tp = true) (hPow : L .pow = true) (hSlu : L .slu = true) (hMot : L .mot = true) (hFio : L .fio = true) (hCan : L .can = true) (hLin : L .lin = true) (hNm : L .nm = true) (hAq : L .aq = true) (hNet : L .net = true) (hTow : L .tow = true) (hLight : L .light = true) (hAps : L .aps = true) (hPwr : L .pwr = true) (hImg : L .img = true) (hMem : L .mem = true) (hFree : L .free = true) (r : BreachRun) (s : State) :
    blank L (fullReaction r s) = blank L s := by
  unfold fullReaction
  repeat' (first | with_reducible rfl | (with_reducible refine Eq.trans (takeFree_frame_eq L hFree (by with_reducible assumption)) ?_) | ((with_reducible refine Eq.trans (modSaf_part L _ _ ?_) ?_); (next => exact fun _ => by simp only [blankSaf, hBreach, if_true])) | (simp only [localReaction_frame, takeFree_frame, hSys, hCyc, hStaged, hTide, hFv, hWire, hSafe, hDetect, hBreach, hPond, hTp, hPow, hSlu, hMot, hFio, hCan, hLin, hNm, hAq, hNet, hTow, hLight, hAps, hPwr, hImg, hMem, hFree, apply_ite (blank L), ite_self]) | (with_reducible refine ite_frame _ ?_ ?_) | split)

theorem modBreach_frame (L : Region → Bool) (hBreach : L .breach = true) (bp : Nat) (f : BreachRec → BreachRec) (s : State) :
    blank L (modBreach bp f s) = blank L s := by
  unfold modBreach
  repeat' (first | with_reducible rfl | ((with_reducible refine Eq.trans (modSaf_part L _ _ ?_) ?_); (next => exact fun _ => by simp only [blankSaf, hBreach, if_true])) | (simp only [hBreach, apply_ite (blank L), ite_self]) | (with_reducible refine ite_frame _ ?_ ?_) | split)

theorem breachRecord_frame (L : Region → Bool) (hBreach : L .breach = true) (bp inst : Nat) (full latent pass : Bool) (ns : Nat) (s : State) :
    blank L (breachRecord bp inst full latent pass ns s) = blank L s := by
  unfold breachRecord
  repeat' (first | with_reducible rfl | (simp only [modBreach_frame, hBreach, apply_ite (blank L), ite_self]) | (with_reducible refine ite_frame _ ?_ ?_) | split)

theorem reactionOf_frame (L : Region → Bool) (hFree : L .free = true) (t : Option Nat) (s : State) :
    blank L (reactionOf t s).2 = blank L s := by
  unfold reactionOf
  repeat' (first | with_reducible rfl | (with_reducible refine Eq.trans (takeFree_frame_eq L hFree (by with_reducible assumption)) ?_) | (simp only [takeFree_frame, hFree, apply_ite (blank L), ite_self]) | (with_reducible refine ite_frame _ ?_ ?_) | split)

theorem reactionOf_frame_eq (L : Region → Bool) (hFree : L .free = true) {t : Option Nat} {s : State} {x9} {t9} (h : reactionOf t s = (x9, t9)) :
    blank L t9 = blank L s := by
  rw [← reactionOf_frame L hFree t s, h]

theorem breachResult_frame (L : Region → Bool) (hWire : L .wire = true) (bp : Nat) (pass : Bool) (s : State) :
    blank L (breachResult bp pass s) = blank L s := by
  simp only [breachResult, emit_frame, hWire]

theorem breachRec_keeps (L : Region → Bool) (hBreach : L .breach = true) (bp : Nat) : FldsKeep L (breachRec bp).flds := by
  unfold breachRec
  repeat' (first | (refine FldsKeep.lift (fun _ _ => ?_)) | (refine FldsKeep.append ?_ ?_) | (refine FldsKeep.flatMap (fun _ => ?_)) | (refine FldsKeep.map (fun _ => ?_)) | (refine FldsKeep.cons ?_ ?_) | (exact FldsKeep.nil) | (exact fun _ _ => rfl) | (intro n9 s9) | (simp only [modBreach_frame, hBreach, apply_ite (blank L), ite_self]))

theorem breachClass_keeps (L : Region → Bool) (hBreach : L .breach = true)  : Keeps L (breachClass) where
  record h := by
    simp only [breachClass] at h
    repeat' (split at h)
    all_goals first | (cases h; done) | (injection h with h; subst h; first | (exact FldsKeep.nil) | (with_reducible exact breachRec_keeps L hBreach _))
  after _ _ _ _ _ := by
    simp only [breachClass]
    repeat' (first | with_reducible rfl | ((with_reducible refine Eq.trans (modSaf_part L _ _ ?_) ?_); (next => exact fun _ => by simp only [blankSaf, hBreach, if_true])) | (simp only [hBreach, apply_ite (blank L), ite_self]) | (with_reducible refine ite_frame _ ?_ ?_) | split)
  onRead _ _ _ _ _ := by
    simp only [breachClass]
    repeat' (first | with_reducible rfl | ((with_reducible refine Eq.trans (modSaf_part L _ _ ?_) ?_); (next => exact fun _ => by simp only [blankSaf, hBreach, if_true])) | (simp only [hBreach, apply_ite (blank L), ite_self]) | (with_reducible refine ite_frame _ ?_ ?_) | split)
  held h := by
    first
    | (cases h; done)
    | (simp only [breachClass] at h; exact absurd h)
  acts := by
    simp only [breachClass]
    repeat' (first | (exact ActsKeep.nil) | (refine ActsKeep.cons ?_ ?_) | (refine ⟨fun _ _ _ _ => ?_, fun _ => ?_, fun _ _ _ => ?_, fun h9 => ?_⟩) | (cases h9; done) | (injection h9 with h9; subst h9) | with_reducible rfl | ((with_reducible refine Eq.trans (modSaf_part L _ _ ?_) ?_); (next => exact fun _ => by simp only [blankSaf, hBreach, if_true])) | (simp only [hBreach, apply_ite (blank L), ite_self]) | (with_reducible refine ite_frame _ ?_ ?_) | split)

theorem execBreachRun_frame (L : Region → Bool) (hStaged : L .staged = true) (hFv : L .fv = true) (hWire : L .wire = true) (hDetect : L .detect = true) (hBreach : L .breach = true) (hTp : L .tp = true) (hNm : L .nm = true) (hTow : L .tow = true) {r : Req} {s : State} {t9} (h : execBreachRun r s = .next t9) :
    blank L t9 = blank L s := by
  unfold execBreachRun at h
  injection h with h
  subst h
  repeat' (first | with_reducible rfl | (refine Eq.trans (cmdAct_frame L hStaged hFv hWire hDetect hTp hNm hTow (breachClass_keeps L hBreach) _ _ _) ?_) | (simp only [hStaged, hFv, hWire, hDetect, hBreach, hTp, hNm, hTow, apply_ite (blank L), ite_self]) | (with_reducible refine ite_frame _ ?_ ?_) | split)

theorem execBreachResultWindowEnd_frame (L : Region → Bool) (hSys : L .sys = true) (hCyc : L .cyc = true) (hStaged : L .staged = true) (hTide : L .tide = true) (hFv : L .fv = true) (hWire : L .wire = true) (hSafe : L .safe = true) (hDetect : L .detect = true) (hBreach : L .breach = true) (hPond : L .pond = true) (hTp : L .tp = true) (hPow : L .pow = true) (hSlu : L .slu = true) (hMot : L .mot = true) (hFio : L .fio = true) (hCan : L .can = true) (hLin : L .lin = true) (hNm : L .nm = true) (hAq : L .aq = true) (hNet : L .net = true) (hTow : L .tow = true) (hLight : L .light = true) (hAps : L .aps = true) (hPwr : L .pwr = true) (hImg : L .img = true) (hMem : L .mem = true) (hFree : L .free = true) {bp : Nat} {reaction : Option Nat} {s : State} {t9} (h : execBreachResultWindowEnd bp reaction s = .next t9) :
    blank L t9 = blank L s := by
  obtain ⟨-, rfl⟩ := guardUnit_next h
  repeat' (first | with_reducible rfl | (with_reducible refine Eq.trans (reactionOf_frame_eq L hFree (by with_reducible assumption)) ?_) | ((with_reducible refine Eq.trans (modSaf_part L _ _ ?_) ?_); (next => exact fun _ => by simp only [blankSaf, hBreach, if_true])) | (simp only [breachRecord_frame, breachResult_frame, fullReaction_frame, reactionOf_frame, hSys, hCyc, hStaged, hTide, hFv, hWire, hSafe, hDetect, hBreach, hPond, hTp, hPow, hSlu, hMot, hFio, hCan, hLin, hNm, hAq, hNet, hTow, hLight, hAps, hPwr, hImg, hMem, hFree, apply_ite (blank L), ite_self]) | (with_reducible refine ite_frame _ ?_ ?_) | split)

theorem execLatentTestRun_frame (L : Region → Bool) (hWire : L .wire = true) (hDetect : L .detect = true) (hBreach : L .breach = true) (hFree : L .free = true) {bp inst : Nat} {first second : Option Nat} {s : State} {t9} (h : execLatentTestRun bp inst first second s = .next t9) :
    blank L t9 = blank L s := by
  obtain ⟨-, rfl⟩ := guardUnit_next h
  repeat' (first | with_reducible rfl | (with_reducible refine Eq.trans (reactionOf_frame_eq L hFree (by with_reducible assumption)) ?_) | ((with_reducible refine Eq.trans (modSaf_part L _ _ ?_) ?_); (next => exact fun _ => by simp only [blankSaf, hBreach, if_true])) | (simp only [breachRecord_frame, breachResult_frame, emit_frame, faultFall_frame, modDet_frame, reactionOf_frame, safeRequest_frame, hWire, hDetect, hBreach, hFree, apply_ite (blank L), ite_self]) | (with_reducible refine ite_frame _ ?_ ?_) | split)

end Sys2Proof.Machine
end

