-- ==== Sys2Proof/Laws/FrameCatalogue.lean ====
section
/-! SUPPORT. Frame lemmas of Machine/Catalogue.lean: what each operation leaves alone. -/
set_option linter.unusedSimpArgs false
set_option linter.unusedVariables false
namespace Sys2Proof.Machine

theorem deviceRec_keeps (L : Region → Bool)   : FldsKeep L (deviceRec ).flds := by
  unfold deviceRec
  repeat' (first | (refine FldsKeep.lift (fun _ _ => ?_)) | (refine FldsKeep.append ?_ ?_) | (refine FldsKeep.flatMap (fun _ => ?_)) | (refine FldsKeep.map (fun _ => ?_)) | (refine FldsKeep.cons ?_ ?_) | (exact FldsKeep.nil) | (exact fun _ _ => rfl) | (intro n9 s9) | (simp only [apply_ite (blank L), ite_self]))

theorem transportRec_keeps (L : Region → Bool)  (p : Nat) : FldsKeep L (transportRec p).flds := by
  unfold transportRec
  repeat' (first | (refine FldsKeep.lift (fun _ _ => ?_)) | (refine FldsKeep.append ?_ ?_) | (refine FldsKeep.flatMap (fun _ => ?_)) | (refine FldsKeep.map (fun _ => ?_)) | (refine FldsKeep.cons ?_ ?_) | (exact FldsKeep.nil) | (exact fun _ _ => rfl) | (intro n9 s9) | (simp only [apply_ite (blank L), ite_self]))

theorem sysClass_keeps (L : Region → Bool) (hWire : L .wire = true)  : Keeps L (sysClass) where
  record h := by
    simp only [sysClass] at h
    repeat' (split at h)
    all_goals first | (cases h; done) | (injection h with h; subst h; first | (exact FldsKeep.nil) | (with_reducible exact deviceRec_keeps L  ) | (with_reducible exact transportRec_keeps L  _))
  after _ _ _ _ _ := by
    simp only [sysClass]
    repeat' (first | with_reducible rfl | (simp only [modPq_frame, hWire, apply_ite (blank L), ite_self]) | (with_reducible refine ite_frame _ ?_ ?_) | split)
  onRead _ _ _ _ _ := by
    simp only [sysClass]
    repeat' (first | with_reducible rfl | (simp only [modPq_frame, hWire, apply_ite (blank L), ite_self]) | (with_reducible refine ite_frame _ ?_ ?_) | split)
  held h := by
    first
    | (cases h; done)
    | (simp only [sysClass] at h; exact absurd h)
  acts := by
    simp only [sysClass]
    repeat' (first | (exact ActsKeep.nil) | (refine ActsKeep.cons ?_ ?_) | (refine ⟨fun _ _ _ _ => ?_, fun _ => ?_, fun _ _ _ => ?_, fun h9 => ?_⟩) | (cases h9; done) | (injection h9 with h9; subst h9) | with_reducible rfl | (simp only [modPq_frame, hWire, apply_ite (blank L), ite_self]) | (with_reducible refine ite_frame _ ?_ ?_) | split)

theorem execSysClearCounters_frame (L : Region → Bool) (hStaged : L .staged = true) (hFv : L .fv = true) (hWire : L .wire = true) (hDetect : L .detect = true) (hTp : L .tp = true) (hNm : L .nm = true) (hTow : L .tow = true) {r : Req} {s : State} {t9} (h : execSysClearCounters r s = .next t9) :
    blank L t9 = blank L s := by
  unfold execSysClearCounters at h
  injection h with h
  subst h
  repeat' (first | with_reducible rfl | (refine Eq.trans (cmdAct_frame L hStaged hFv hWire hDetect hTp hNm hTow (sysClass_keeps L hWire) _ _ _) ?_) | (simp only [hStaged, hFv, hWire, hDetect, hTp, hNm, hTow, apply_ite (blank L), ite_self]) | (with_reducible refine ite_frame _ ?_ ?_) | split)

theorem writePeriod_frame (L : Region → Bool) (hCyc : L .cyc = true) (p : Nat) (s : State) :
    blank L (writePeriod p s) = blank L s := by
  unfold writePeriod
  repeat' (first | with_reducible rfl | ((with_reducible refine Eq.trans (modCyc_part L _ _ ?_) ?_); (next => exact fun _ => by simp only [blankCyc, hCyc, if_true])) | (simp only [hCyc, apply_ite (blank L), ite_self]) | (with_reducible refine ite_frame _ ?_ ?_) | split)

theorem cycleRec_keeps (L : Region → Bool) (hCyc : L .cyc = true)  : FldsKeep L (cycleRec ).flds := by
  unfold cycleRec
  repeat' (first | (refine FldsKeep.lift (fun _ _ => ?_)) | (refine FldsKeep.append ?_ ?_) | (refine FldsKeep.flatMap (fun _ => ?_)) | (refine FldsKeep.map (fun _ => ?_)) | (refine FldsKeep.cons ?_ ?_) | (exact FldsKeep.nil) | (exact fun _ _ => rfl) | (intro n9 s9) | (simp only [writePeriod_frame, hCyc, apply_ite (blank L), ite_self]))

theorem withWaiting_frame (L : Region → Bool) (hMot : L .mot = true) (hFio : L .fio = true) (hLin : L .lin = true) (hNet : L .net = true) (hAps : L .aps = true) (s : State) : blank L (withWaiting s) = blank L s := by
  unfold withWaiting
  rw [withStaged_frame L _ (fun _ _ _ h => coreRecord_keeps L hAps h), withStaged_frame L _ (fun _ _ _ h => basinRecord_keeps L hNet h),
    withStaged_frame L _ (fun _ _ _ h => linRecord_keeps L hLin h), withStaged_frame L _ (fun _ _ _ h => dinRecord_keeps L hFio h),
    withStaged_frame L _ (fun _ _ _ h => bridgeRecord_keeps L hMot h), withStaged_frame L _ (fun _ _ _ h => (padClass_keeps L hMot).record h)]

theorem endChange_frame (L : Region → Bool) (hCyc : L .cyc = true) (hWire : L .wire = true) (st : Status) (s : State) :
    blank L (endChange st s) = blank L s := by
  unfold endChange
  repeat' (first | with_reducible rfl | ((with_reducible refine Eq.trans (modCyc_part L _ _ ?_) ?_); (next => exact fun _ => by simp only [blankCyc, hCyc, if_true])) | (simp only [answer_frame, hCyc, hWire, apply_ite (blank L), ite_self]) | (with_reducible refine ite_frame _ ?_ ?_) | split)

theorem relayPeriod_frame (L : Region → Bool) (hWire : L .wire = true) (hTow : L .tow = true) (code cycle : Nat) (s : State) :
    blank L (relayPeriod code cycle s) = blank L s := by
  unfold relayPeriod
  repeat' (first | with_reducible rfl | (simp only [relaySend_frame, hWire, hTow, apply_ite (blank L), ite_self]) | (with_reducible refine (foldl_pair_frame L _ (fun _ _ => ?_) _ _).trans ?_) | (with_reducible refine (foldl_frame L _ (fun _ _ => ?_) _ _).trans ?_) | (with_reducible refine ite_frame _ ?_ ?_) | split)

theorem beginChange_frame (L : Region → Bool) (hCyc : L .cyc = true) (hWire : L .wire = true) (hTow : L .tow = true) (r : Req) (p : Nat) (s : State) :
    blank L (beginChange r p s) = blank L s := by
  unfold beginChange
  repeat' (first | with_reducible rfl | ((with_reducible refine Eq.trans (modCyc_part L _ _ ?_) ?_); (next => exact fun _ => by simp only [blankCyc, hCyc, if_true])) | (simp only [answer_frame, relayPeriod_frame, hCyc, hWire, hTow, apply_ite (blank L), ite_self]) | (with_reducible refine ite_frame _ ?_ ?_) | split)

theorem answerSame_frame (L : Region → Bool) (hCyc : L .cyc = true) (hWire : L .wire = true) (r : Req) (s : State) :
    blank L (answerSame r s) = blank L s := by
  unfold answerSame
  repeat' (first | with_reducible rfl | (simp only [answer_frame, hCyc, hWire, apply_ite (blank L), ite_self]) | (with_reducible refine ite_frame _ ?_ ?_) | split)

theorem dropChange_frame (L : Region → Bool) (hCyc : L .cyc = true) (hWire : L .wire = true) (c : PeriodChange) (reqs : List Req) (s : State) :
    blank L (dropChange c reqs s) = blank L s := by
  unfold dropChange
  repeat' (first | with_reducible rfl | ((with_reducible refine Eq.trans (modCyc_part L _ _ ?_) ?_); (next => exact fun _ => by simp only [blankCyc, hCyc, if_true])) | (simp only [answerSame_frame, hCyc, hWire, apply_ite (blank L), ite_self]) | (with_reducible refine (foldl_pair_frame L _ (fun _ _ => ?_) _ _).trans ?_) | (with_reducible refine (foldl_frame L _ (fun _ _ => ?_) _ _).trans ?_) | (with_reducible refine ite_frame _ ?_ ?_) | split)

theorem cycleHeld_frame (L : Region → Bool) (hCyc : L .cyc = true) (hWire : L .wire = true) (hTow : L .tow = true) {r : Req} {x0 : Nat} {ws : List (Nat × Nat)} {s : State} {t9} (h : cycleHeld r x0 ws s = some t9) :
    blank L t9 = blank L s := by
  unfold cycleHeld at h
  try dsimp only at h
  repeat' (split at h)
  all_goals first | (cases h; done) | (injection h with h; subst h; repeat' (first | with_reducible rfl | (simp only [answerSame_frame, beginChange_frame, dropChange_frame, relayPeriod_frame, hCyc, hWire, hTow, apply_ite (blank L), ite_self]) | (with_reducible refine ite_frame _ ?_ ?_) | split))

theorem cycleClass_keeps (L : Region → Bool) (hCyc : L .cyc = true) (hWire : L .wire = true) (hTow : L .tow = true)  : Keeps L (cycleClass) where
  record h := by
    simp only [cycleClass] at h
    repeat' (split at h)
    all_goals first | (cases h; done) | (injection h with h; subst h; first | (exact FldsKeep.nil) | (with_reducible exact cycleRec_keeps L hCyc ))
  after _ _ _ _ _ := by
    simp only [cycleClass]
    repeat' (first | with_reducible rfl | (with_reducible refine Eq.trans (cycleHeld_frame L hCyc hWire hTow (by with_reducible assumption)) ?_) | (simp only [hCyc, hWire, hTow, apply_ite (blank L), ite_self]) | (with_reducible refine ite_frame _ ?_ ?_) | split)
  onRead _ _ _ _ _ := by
    simp only [cycleClass]
    repeat' (first | with_reducible rfl | (with_reducible refine Eq.trans (cycleHeld_frame L hCyc hWire hTow (by with_reducible assumption)) ?_) | (simp only [hCyc, hWire, hTow, apply_ite (blank L), ite_self]) | (with_reducible refine ite_frame _ ?_ ?_) | split)
  held h := by
    first
    | (cases h; done)
    | (simp only [cycleClass] at h; exact cycleHeld_frame L hCyc hWire hTow h)
  acts := by
    simp only [cycleClass]
    repeat' (first | (exact ActsKeep.nil) | (refine ActsKeep.cons ?_ ?_) | (refine ⟨fun _ _ _ _ => ?_, fun _ => ?_, fun _ _ _ => ?_, fun h9 => ?_⟩) | (cases h9; done) | (injection h9 with h9; subst h9) | with_reducible rfl | (with_reducible refine Eq.trans (cycleHeld_frame L hCyc hWire hTow (by with_reducible assumption)) ?_) | (simp only [hCyc, hWire, hTow, apply_ite (blank L), ite_self]) | (with_reducible refine ite_frame _ ?_ ?_) | split)

theorem execCycleSet_frame (L : Region → Bool) (hCyc : L .cyc = true) (hStaged : L .staged = true) (hFv : L .fv = true) (hWire : L .wire = true) (hDetect : L .detect = true) (hTp : L .tp = true) (hNm : L .nm = true) (hTow : L .tow = true) {r : Req} {s : State} {t9} (h : execCycleSet r s = .next t9) :
    blank L t9 = blank L s := by
  unfold execCycleSet at h
  injection h with h
  subst h
  repeat' (first | with_reducible rfl | (refine Eq.trans (cmdSet_frame L hStaged hFv hWire hDetect hTp hNm hTow (cycleClass_keeps L hCyc hWire hTow) _ _) ?_) | (simp only [hCyc, hStaged, hFv, hWire, hDetect, hTp, hNm, hTow, apply_ite (blank L), ite_self]) | (with_reducible refine ite_frame _ ?_ ?_) | split)

theorem poundRec0_keeps (L : Region → Bool) (hFv : L .fv = true) (p : Nat) : FldsKeep L (poundRec0 p).flds := by
  unfold poundRec0
  repeat' (first | (refine FldsKeep.lift (fun _ _ => ?_)) | (refine FldsKeep.append ?_ ?_) | (refine FldsKeep.flatMap (fun _ => ?_)) | (refine FldsKeep.map (fun _ => ?_)) | (refine FldsKeep.cons ?_ ?_) | (exact FldsKeep.nil) | (exact fun _ _ => rfl) | (intro n9 s9) | (simp only [modPound_frame, hFv, apply_ite (blank L), ite_self]))

theorem objF_keeps (L : Region → Bool) (hFv : L .fv = true) (p k byte bit w : Nat) (get : ObjEntry → Nat) (set : Nat → ObjEntry → ObjEntry) : FldKeeps L (objF p k byte bit w get set) := by
  intro n9 s9
  simp only [objF, modPound_frame, hFv]

theorem poundRec1_keeps (L : Region → Bool) (hFv : L .fv = true) (p : Nat) : FldsKeep L (poundRec1 p).flds := by
  unfold poundRec1
  repeat' (first | (refine FldsKeep.lift (fun _ _ => ?_)) | (refine FldsKeep.append ?_ ?_) | (refine FldsKeep.flatMap (fun _ => ?_)) | (refine FldsKeep.map (fun _ => ?_)) | (refine FldsKeep.cons ?_ ?_) | (exact FldsKeep.nil) | (with_reducible exact objF_keeps L hFv _ _ _ _ _ _ _) | (exact fun _ _ => rfl) | (intro n9 s9) | (simp only [hFv, apply_ite (blank L), ite_self]))

theorem poundRecord_keeps (L : Region → Bool) (hFv : L .fv = true) {p part : Nat} {rc : Rec} (h : poundRecord p part = some rc) : FldsKeep L rc.flds := by
  unfold poundRecord at h
  repeat' (split at h)
  all_goals first | (cases h; done) | (injection h with h; subst h; first | (exact FldsKeep.nil) | (with_reducible exact poundRec0_keeps L hFv _) | (with_reducible exact poundRec1_keeps L hFv _))

theorem plainClasses_keeps (L : Region → Bool) (hSys : L .sys = true) (hCyc : L .cyc = true) (hTide : L .tide = true) (hFv : L .fv = true) (hWire : L .wire = true) (hSafe : L .safe = true) (hDetect : L .detect = true) (hBreach : L .breach = true) (hPond : L .pond = true) (hTp : L .tp = true) (hPow : L .pow = true) (hSlu : L .slu = true) (hMot : L .mot = true) (hFio : L .fio = true) (hCan : L .can = true) (hLin : L .lin = true) (hNm : L .nm = true) (hAq : L .aq = true) (hNet : L .net = true) (hTow : L .tow = true) (hLight : L .light = true) (hAps : L .aps = true) (hPwr : L .pwr = true) (hImg : L .img = true) (hMem : L .mem = true) (hFree : L .free = true) {k : ClassSpec} (h : k ∈ plainClasses) : Keeps L k := by
  simp only [plainClasses, List.mem_cons, List.not_mem_nil, or_false] at h
  rcases h with rfl | rfl | rfl | rfl | rfl | rfl | rfl | rfl | rfl | rfl | rfl | rfl | rfl | rfl | rfl | rfl | rfl | rfl | rfl | rfl | rfl | rfl | rfl | rfl | rfl | rfl
  · exact sysClass_keeps L hWire
  · exact cycleClass_keeps L hCyc hWire hTow
  · exact timeClass_keeps L hTide hWire
  · exact chanClass_keeps L hPow
  · exact wireClass_keeps L hWire hSlu
  · exact padClass_keeps L hMot
  · exact brClass_keeps L hPow hMot
  · exact dinClass_keeps L hWire hDetect hFio
  · exact foutClass_keeps L hFio
  · exact ainClass_keeps L hFio
  · exact tpClass_keeps L hWire hDetect hTp
  · exact canClass_keeps L hWire hCan hAq
  · exact linClass_keeps L hLin
  · exact nmClass_keeps L hNm
  · exact routeClass_keeps L hAq
  · exact portClass_keeps L hWire hNet
  · exact basinClass_keeps L hNet
  · exact streamClass_keeps L hSys hWire hNet hMem
  · exact coreClass_keeps L hAps
  · exact towClass_keeps L hWire hTow
  · exact lightClass_keeps L hSys hLight hAps hFree
  · exact keyClass_keeps L hWire hNet hLight hFree
  · exact safeClass_keeps L hFv hWire hSafe hDetect hBreach hPond hTp hPow hSlu hMot hFio hImg
  · exact breachClass_keeps L hBreach
  · exact pondClass_keeps L hWire hPond hPow hSlu hCan hAps
  · exact powerClass_keeps L hFv hWire hTp hPow hSlu hMot hFio hLin hNm hNet hAps hPwr

theorem placeShare_frame (L : Region → Bool) (hFree : L .free = true) (old new lo unit total : Nat) (base : Nat) (s : State) :
    blank L (placeShare old new lo unit total base s).2 = blank L s := by
  unfold placeShare
  repeat' (first | with_reducible rfl | (with_reducible refine Eq.trans (takeFree_frame_eq L hFree (by with_reducible assumption)) ?_) | (simp only [takeFree_frame, hFree, apply_ite (blank L), ite_self]) | (with_reducible refine ite_frame _ ?_ ?_) | split)

theorem placeShare_frame_eq (L : Region → Bool) (hFree : L .free = true) {old new lo unit total : Nat} {base : Nat} {s : State} {x9} {t9} (h : placeShare old new lo unit total base s = (x9, t9)) :
    blank L t9 = blank L s := by
  rw [← placeShare_frame L hFree old new lo unit total base s, h]

theorem shareEvents_frame (L : Region → Bool) (hWire : L .wire = true) (p : Nat) (old new : Pound) (s : State) :
    blank L (shareEvents p old new s) = blank L s := by
  unfold shareEvents
  repeat' (first | with_reducible rfl | (simp only [emit_frame, hWire, apply_ite (blank L), ite_self]) | (with_reducible refine (foldl_pair_frame L _ (fun _ _ => ?_) _ _).trans ?_) | (with_reducible refine (foldl_frame L _ (fun _ _ => ?_) _ _).trans ?_) | (with_reducible refine ite_frame _ ?_ ?_) | split)

theorem bindPound_frame (L : Region → Bool) (hFv : L .fv = true) (p : Nat) (s : State) :
    blank L (bindPound p s) = blank L s := by
  unfold bindPound
  repeat' (first | with_reducible rfl | (simp only [modPound_frame, hFv, apply_ite (blank L), ite_self]) | (with_reducible refine ite_frame _ ?_ ?_) | split)

theorem poundAfter_frame (L : Region → Bool) (hFv : L .fv = true) (hWire : L .wire = true) (hFree : L .free = true) (s0 : State) (p part : Nat) (ws : List (Nat × Nat)) (s : State) :
    blank L (poundAfter s0 p part ws s) = blank L s := by
  unfold poundAfter
  repeat' (first | with_reducible rfl | (with_reducible refine Eq.trans (placeShare_frame_eq L hFree (by with_reducible assumption)) ?_) | (simp only [bindPound_frame, modPound_frame, placeShare_frame, shareEvents_frame, hFv, hWire, hFree, apply_ite (blank L), ite_self]) | (with_reducible refine ite_frame _ ?_ ?_) | split)

theorem poundClass_keeps (L : Region → Bool) (hCyc : L .cyc = true) (hStaged : L .staged = true) (hFv : L .fv = true) (hWire : L .wire = true) (hMot : L .mot = true) (hTow : L .tow = true) (hAps : L .aps = true) (hPwr : L .pwr = true) (hImg : L .img = true) (hFree : L .free = true)  : Keeps L (poundClass) where
  record h := by
    simp only [poundClass] at h
    repeat' (split at h)
    all_goals first | (cases h; done) | (with_reducible exact poundRecord_keeps L hFv h) | (injection h with h; subst h; first | (exact FldsKeep.nil))
  after _ _ _ _ _ := by
    simp only [poundClass]
    repeat' (first | with_reducible rfl | (simp only [poundAfter_frame, startReset_frame, hCyc, hStaged, hFv, hWire, hMot, hTow, hAps, hPwr, hImg, hFree, apply_ite (blank L), ite_self]) | (with_reducible refine ite_frame _ ?_ ?_) | split)
  onRead _ _ _ _ _ := by
    simp only [poundClass]
    repeat' (first | with_reducible rfl | (simp only [poundAfter_frame, startReset_frame, hCyc, hStaged, hFv, hWire, hMot, hTow, hAps, hPwr, hImg, hFree, apply_ite (blank L), ite_self]) | (with_reducible refine ite_frame _ ?_ ?_) | split)
  held h := by
    first
    | (cases h; done)
    | (simp only [poundClass] at h; exact absurd h)
  acts := by
    simp only [poundClass]
    repeat' (first | (exact ActsKeep.nil) | (refine ActsKeep.cons ?_ ?_) | (refine ⟨fun _ _ _ _ => ?_, fun _ => ?_, fun _ _ _ => ?_, fun h9 => ?_⟩) | (cases h9; done) | (injection h9 with h9; subst h9) | with_reducible rfl | (simp only [poundAfter_frame, startReset_frame, hCyc, hStaged, hFv, hWire, hMot, hTow, hAps, hPwr, hImg, hFree, apply_ite (blank L), ite_self]) | (with_reducible refine ite_frame _ ?_ ?_) | split)

theorem execPoundSet_frame (L : Region → Bool) (hCyc : L .cyc = true) (hStaged : L .staged = true) (hFv : L .fv = true) (hWire : L .wire = true) (hDetect : L .detect = true) (hTp : L .tp = true) (hMot : L .mot = true) (hNm : L .nm = true) (hTow : L .tow = true) (hAps : L .aps = true) (hPwr : L .pwr = true) (hImg : L .img = true) (hFree : L .free = true) {r : Req} {s : State} {t9} (h : execPoundSet r s = .next t9) :
    blank L t9 = blank L s := by
  unfold execPoundSet at h
  injection h with h
  subst h
  repeat' (first | with_reducible rfl | (refine Eq.trans (cmdSet_frame L hStaged hFv hWire hDetect hTp hNm hTow (poundClass_keeps L hCyc hStaged hFv hWire hMot hTow hAps hPwr hImg hFree) _ _) ?_) | (simp only [hCyc, hStaged, hFv, hWire, hDetect, hTp, hMot, hNm, hTow, hAps, hPwr, hImg, hFree, apply_ite (blank L), ite_self]) | (with_reducible refine ite_frame _ ?_ ?_) | split)

theorem execPoundReset_frame (L : Region → Bool) (hCyc : L .cyc = true) (hStaged : L .staged = true) (hFv : L .fv = true) (hWire : L .wire = true) (hDetect : L .detect = true) (hTp : L .tp = true) (hMot : L .mot = true) (hNm : L .nm = true) (hTow : L .tow = true) (hAps : L .aps = true) (hPwr : L .pwr = true) (hImg : L .img = true) (hFree : L .free = true) {r : Req} {s : State} {t9} (h : execPoundReset r s = .next t9) :
    blank L t9 = blank L s := by
  unfold execPoundReset at h
  injection h with h
  subst h
  repeat' (first | with_reducible rfl | (refine Eq.trans (cmdAct_frame L hStaged hFv hWire hDetect hTp hNm hTow (poundClass_keeps L hCyc hStaged hFv hWire hMot hTow hAps hPwr hImg hFree) _ _ _) ?_) | (simp only [hCyc, hStaged, hFv, hWire, hDetect, hTp, hMot, hNm, hTow, hAps, hPwr, hImg, hFree, apply_ite (blank L), ite_self]) | (with_reducible refine ite_frame _ ?_ ?_) | split)

theorem execPoundRemove_frame (L : Region → Bool) (hCyc : L .cyc = true) (hStaged : L .staged = true) (hFv : L .fv = true) (hWire : L .wire = true) (hDetect : L .detect = true) (hTp : L .tp = true) (hMot : L .mot = true) (hNm : L .nm = true) (hTow : L .tow = true) (hAps : L .aps = true) (hPwr : L .pwr = true) (hImg : L .img = true) (hFree : L .free = true) {r : Req} {s : State} {t9} (h : execPoundRemove r s = .next t9) :
    blank L t9 = blank L s := by
  unfold execPoundRemove at h
  injection h with h
  subst h
  repeat' (first | with_reducible rfl | (refine Eq.trans (cmdAct_frame L hStaged hFv hWire hDetect hTp hNm hTow (poundClass_keeps L hCyc hStaged hFv hWire hMot hTow hAps hPwr hImg hFree) _ _ _) ?_) | (simp only [hCyc, hStaged, hFv, hWire, hDetect, hTp, hMot, hNm, hTow, hAps, hPwr, hImg, hFree, apply_ite (blank L), ite_self]) | (with_reducible refine ite_frame _ ?_ ?_) | split)

end Sys2Proof.Machine
end

