-- ==== Sys2Proof/Laws/FrameImages.lean ====
section
/-! SUPPORT. Frame lemmas of Machine/Images.lean: what each operation leaves alone. -/
set_option linter.unusedSimpArgs false
set_option linter.unusedVariables false
namespace Sys2Proof.Machine

theorem chartClasses_keeps (L : Region → Bool) (hSys : L .sys = true) (hCyc : L .cyc = true) (hStaged : L .staged = true) (hTide : L .tide = true) (hFv : L .fv = true) (hWire : L .wire = true) (hSafe : L .safe = true) (hDetect : L .detect = true) (hBreach : L .breach = true) (hPond : L .pond = true) (hTp : L .tp = true) (hPow : L .pow = true) (hSlu : L .slu = true) (hMot : L .mot = true) (hFio : L .fio = true) (hCan : L .can = true) (hLin : L .lin = true) (hNm : L .nm = true) (hAq : L .aq = true) (hNet : L .net = true) (hTow : L .tow = true) (hLight : L .light = true) (hAps : L .aps = true) (hPwr : L .pwr = true) (hImg : L .img = true) (hMem : L .mem = true) (hFree : L .free = true) {k : ClassSpec} (h : k ∈ chartClasses) : Keeps L k := by
  rcases List.mem_append.mp h with h | h
  · exact plainClasses_keeps L hSys hCyc hTide hFv hWire hSafe hDetect hBreach hPond hTp hPow hSlu hMot hFio hCan hLin hNm hAq hNet hTow hLight hAps hPwr hImg hMem hFree h
  · rw [List.mem_singleton.mp h]
    exact poundClass_keeps L hCyc hStaged hFv hWire hMot hTow hAps hPwr hImg hFree

theorem chartClass_keeps (L : Region → Bool) (hSys : L .sys = true) (hCyc : L .cyc = true) (hStaged : L .staged = true) (hTide : L .tide = true) (hFv : L .fv = true) (hWire : L .wire = true) (hSafe : L .safe = true) (hDetect : L .detect = true) (hBreach : L .breach = true) (hPond : L .pond = true) (hTp : L .tp = true) (hPow : L .pow = true) (hSlu : L .slu = true) (hMot : L .mot = true) (hFio : L .fio = true) (hCan : L .can = true) (hLin : L .lin = true) (hNm : L .nm = true) (hAq : L .aq = true) (hNet : L .net = true) (hTow : L .tow = true) (hLight : L .light = true) (hAps : L .aps = true) (hPwr : L .pwr = true) (hImg : L .img = true) (hMem : L .mem = true) (hFree : L .free = true) {c : Nat} {k : ClassSpec} (h : chartClass c = some k) : Keeps L k :=
  chartClasses_keeps L hSys hCyc hStaged hTide hFv hWire hSafe hDetect hBreach hPond hTp hPow hSlu hMot hFio hCan hLin hNm hAq hNet hTow hLight hAps hPwr hImg hMem hFree (List.mem_of_find?_eq_some h)

theorem setParam_frame (L : Region → Bool) (hSys : L .sys = true) (hTide : L .tide = true) (hFv : L .fv = true) (hWire : L .wire = true) (hPond : L .pond = true) (hTp : L .tp = true) (hPow : L .pow = true) (hSlu : L .slu = true) (hNm : L .nm = true) (hAq : L .aq = true) (hTow : L .tow = true) (hPwr : L .pwr = true) (p : ChartParam) (i v : Nat) (s : State) :
    blank L (setParam p i v s) = blank L s := by
  unfold setParam
  repeat' (first | with_reducible rfl | ((with_reducible refine Eq.trans (modFv_part L _ _ ?_) ?_); (next => exact fun _ => by simp only [blankFv, hFv, if_true])) | (simp only [modAq_frame, modBarge_frame, modBudget_frame, modCluster_frame, modGport_frame, modNmc_frame, modPond_frame, modPq_frame, modPwr_frame, modSlu_frame, modSys_frame, modTide_frame, modTp_frame, hSys, hTide, hFv, hWire, hPond, hTp, hPow, hSlu, hNm, hAq, hTow, hPwr, apply_ite (blank L), ite_self]) | (with_reducible refine ite_frame _ ?_ ?_) | split)

theorem clearParam_frame (L : Region → Bool) (hSys : L .sys = true) (hTide : L .tide = true) (hFv : L .fv = true) (hWire : L .wire = true) (hPond : L .pond = true) (hTp : L .tp = true) (hPow : L .pow = true) (hSlu : L .slu = true) (hNm : L .nm = true) (hAq : L .aq = true) (hTow : L .tow = true) (hPwr : L .pwr = true) (p : ChartParam) (i : Nat) (s : State) :
    blank L (clearParam p i s) = blank L s := by
  unfold clearParam
  repeat' (first | with_reducible rfl | (simp only [modGport_frame, modPq_frame, setParam_frame, hSys, hTide, hFv, hWire, hPond, hTp, hPow, hSlu, hNm, hAq, hTow, hPwr, apply_ite (blank L), ite_self]) | (with_reducible refine ite_frame _ ?_ ?_) | split)

theorem clearParams_frame (L : Region → Bool) (hSys : L .sys = true) (hTide : L .tide = true) (hFv : L .fv = true) (hWire : L .wire = true) (hPond : L .pond = true) (hTp : L .tp = true) (hPow : L .pow = true) (hSlu : L .slu = true) (hNm : L .nm = true) (hAq : L .aq = true) (hTow : L .tow = true) (hPwr : L .pwr = true) (old new : List ChartItem) (s : State) :
    blank L (clearParams old new s) = blank L s := by
  unfold clearParams
  repeat' (first | with_reducible rfl | (simp only [clearParam_frame, hSys, hTide, hFv, hWire, hPond, hTp, hPow, hSlu, hNm, hAq, hTow, hPwr, apply_ite (blank L), ite_self]) | (with_reducible refine (foldl_pair_frame L _ (fun _ _ => ?_) _ _).trans ?_) | (with_reducible refine (foldl_frame L _ (fun _ _ => ?_) _ _).trans ?_) | (with_reducible refine ite_frame _ ?_ ?_) | split)

theorem chartFields_frame (L : Region → Bool) (hSys : L .sys = true) (hCyc : L .cyc = true) (hStaged : L .staged = true) (hTide : L .tide = true) (hFv : L .fv = true) (hWire : L .wire = true) (hSafe : L .safe = true) (hDetect : L .detect = true) (hBreach : L .breach = true) (hPond : L .pond = true) (hTp : L .tp = true) (hPow : L .pow = true) (hSlu : L .slu = true) (hMot : L .mot = true) (hFio : L .fio = true) (hCan : L .can = true) (hLin : L .lin = true) (hNm : L .nm = true) (hAq : L .aq = true) (hNet : L .net = true) (hTow : L .tow = true) (hLight : L .light = true) (hAps : L .aps = true) (hPwr : L .pwr = true) (hImg : L .img = true) (hMem : L .mem = true) (hFree : L .free = true) (c i part : Nat) (ws : List (Nat × Nat)) (s : State) :
    blank L (chartFields c i part ws s) = blank L s := by
  unfold chartFields
  split
  · rename_i k hk
    exact applySet_frame L (chartClass_keeps L hSys hCyc hStaged hTide hFv hWire hSafe hDetect hBreach hPond hTp hPow hSlu hMot hFio hCan hLin hNm hAq hNet hTow hLight hAps hPwr hImg hMem hFree hk) _ _ _ _
  · rfl

theorem loadItem_frame (L : Region → Bool) (hSys : L .sys = true) (hCyc : L .cyc = true) (hStaged : L .staged = true) (hTide : L .tide = true) (hFv : L .fv = true) (hWire : L .wire = true) (hSafe : L .safe = true) (hDetect : L .detect = true) (hBreach : L .breach = true) (hPond : L .pond = true) (hTp : L .tp = true) (hPow : L .pow = true) (hSlu : L .slu = true) (hMot : L .mot = true) (hFio : L .fio = true) (hCan : L .can = true) (hLin : L .lin = true) (hNm : L .nm = true) (hAq : L .aq = true) (hNet : L .net = true) (hTow : L .tow = true) (hLight : L .light = true) (hAps : L .aps = true) (hPwr : L .pwr = true) (hImg : L .img = true) (hMem : L .mem = true) (hFree : L .free = true) (x : ChartItem) (s : State) :
    blank L (loadItem x s) = blank L s := by
  unfold loadItem
  repeat' (first | with_reducible rfl | (simp only [chartFields_frame, setParam_frame, hSys, hCyc, hStaged, hTide, hFv, hWire, hSafe, hDetect, hBreach, hPond, hTp, hPow, hSlu, hMot, hFio, hCan, hLin, hNm, hAq, hNet, hTow, hLight, hAps, hPwr, hImg, hMem, hFree, apply_ite (blank L), ite_self]) | (with_reducible refine ite_frame _ ?_ ?_) | split)

theorem quiet_frame (L : Region → Bool) (hBreach : L .breach = true) (f : State → State)
    (hf : ∀ s, blank L (f s) = blank L s) (s : State) : blank L (quiet f s) = blank L s := by
  unfold quiet
  refine Eq.trans (modSaf_part L _ _ (fun _ => by simp only [blankSaf, hBreach, if_true])) ?_
  refine Eq.trans (hf _) ?_
  exact modSaf_part L _ _ (fun _ => by simp only [blankSaf, hBreach, if_true])

theorem chartRefused_frame (L : Region → Bool) (hWire : L .wire = true) (k : Nat) (c : Nat × Nat) (s : State) :
    blank L (chartRefused k c s) = blank L s := by
  simp only [chartRefused, emit_frame, hWire]

theorem rememberKey_frame (L : Region → Bool) (hLight : L .light = true) (k : Nat) (s : State) :
    blank L (rememberKey k s) = blank L s := by
  unfold rememberKey
  repeat' (first | with_reducible rfl | (simp only [modLight_frame, hLight, apply_ite (blank L), ite_self]) | (with_reducible refine ite_frame _ ?_ ?_) | split)

theorem signingGen_frame (L : Region → Bool) (hWire : L .wire = true) (hNet : L .net = true) (k : Nat) (s : State) :
    blank L (signingGen k s) = blank L s := by
  simp only [signingGen, emit_frame, revokeConsumers_frame, hWire, hNet]

theorem retireSlot_frame (L : Region → Bool) (hWire : L .wire = true) (hNet : L .net = true) (hLight : L .light = true) (k : Nat) (s : State) :
    blank L (retireSlot k s) = blank L s := by
  simp only [retireSlot, modKey_frame, rememberKey_frame, signingGen_frame, hWire, hNet, hLight]

theorem installSlot_frame (L : Region → Bool) (hWire : L .wire = true) (hNet : L .net = true) (hLight : L .light = true) (k : Nat) (p : List Byte) (s : State) :
    blank L (installSlot k p s) = blank L s := by
  simp only [installSlot, modKey_frame, rememberKey_frame, signingGen_frame, hWire, hNet, hLight]

theorem keyChange_frame (L : Region → Bool) (hWire : L .wire = true) (hNet : L .net = true) (hLight : L .light = true) (b : Nat) (s : State) :
    blank L (keyChange b s).2 = blank L s := by
  unfold keyChange
  repeat' (first | with_reducible rfl | (simp only [installSlot_frame, retireSlot_frame, hWire, hNet, hLight, apply_ite (blank L), ite_self]) | (with_reducible refine ite_frame _ ?_ ?_) | split)

theorem keyChange_frame_eq (L : Region → Bool) (hWire : L .wire = true) (hNet : L .net = true) (hLight : L .light = true) {b : Nat} {s : State} {x9} {t9} (h : keyChange b s = (x9, t9)) :
    blank L t9 = blank L s := by
  rw [← keyChange_frame L hWire hNet hLight b s, h]

theorem commitMigrated_frame (L : Region → Bool) (hWire : L .wire = true) (hImg : L .img = true) (s : State) :
    blank L (commitMigrated s) = blank L s := by
  unfold commitMigrated
  repeat' (first | with_reducible rfl | (simp only [emit_frame, setSlotState_frame, writeBoot_frame, hWire, hImg, apply_ite (blank L), ite_self]) | (with_reducible refine ite_frame _ ?_ ?_) | split)

theorem commitTrial_frame (L : Region → Bool) (hWire : L .wire = true) (hNet : L .net = true) (hLight : L .light = true) (hImg : L .img = true) (s : State) :
    blank L (commitTrial s) = blank L s := by
  unfold commitTrial
  repeat' (first | with_reducible rfl | (with_reducible refine Eq.trans (keyChange_frame_eq L hWire hNet hLight (by with_reducible assumption)) ?_) | (simp only [commitMigrated_frame, emit_frame, keyChange_frame, modImg_frame, setBankState_frame, writeBoot_frame, hWire, hNet, hLight, hImg, apply_ite (blank L), ite_self]) | (with_reducible refine ite_frame _ ?_ ?_) | split)

theorem beginTrial_frame (L : Region → Bool) (hImg : L .img = true) (b secs : Nat) (s : State) :
    blank L (beginTrial b secs s) = blank L s := by
  simp only [beginTrial, modImg_frame, setBankState_frame, writeBoot_frame, hImg]

theorem trialRuns_frame (L : Region → Bool) (hImg : L .img = true) (s : State) :
    blank L (trialRuns s) = blank L s := by
  unfold trialRuns
  repeat' (first | with_reducible rfl | (simp only [modImg_frame, hImg, apply_ite (blank L), ite_self]) | (with_reducible refine ite_frame _ ?_ ?_) | split)

theorem tellBarges_frame (L : Region → Bool) (hWire : L .wire = true) (hTow : L .tow = true) (verb act : Nat) (a : List Byte) (s : State) :
    blank L (tellBarges verb act a s) = blank L s := by
  unfold tellBarges
  repeat' (first | with_reducible rfl | (simp only [relaySend_frame, hWire, hTow, apply_ite (blank L), ite_self]) | (with_reducible refine (foldl_pair_frame L _ (fun _ _ => ?_) _ _).trans ?_) | (with_reducible refine (foldl_frame L _ (fun _ _ => ?_) _ _).trans ?_) | (with_reducible refine ite_frame _ ?_ ?_) | split)

theorem emitWater_frame (L : Region → Bool) (hWire : L .wire = true) (b t fl : Nat) (s : State) :
    blank L (emitWater b t fl s) = blank L s := by
  simp only [emitWater, emit_frame, hWire]

theorem beginAct_frame (L : Region → Bool) (hFv : L .fv = true) (hWire : L .wire = true) (hTow : L .tow = true) (hImg : L .img = true) (r : Req) (verb b : Nat) (revert : Bool) (a : List Byte) (s : State) :
    blank L (beginAct r verb b revert a s) = blank L s := by
  unfold beginAct
  repeat' (first | with_reducible rfl | (simp only [answer_frame, emitWater_frame, modImg_frame, setBankState_frame, setDevState_frame, tellBarges_frame, hFv, hWire, hTow, hImg, apply_ite (blank L), ite_self]) | (with_reducible refine ite_frame _ ?_ ?_) | split)

theorem nameWater_frame (L : Region → Bool) (hWire : L .wire = true) (hTow : L .tow = true) (hImg : L .img = true) (s : State) :
    blank L (nameWater s) = blank L s := by
  unfold nameWater
  repeat' (first | with_reducible rfl | (simp only [modImg_frame, tellBarges_frame, hWire, hTow, hImg, apply_ite (blank L), ite_self]) | (with_reducible refine ite_frame _ ?_ ?_) | split)

theorem confirmAct_frame (L : Region → Bool) (hWire : L .wire = true) (hTow : L .tow = true) (hImg : L .img = true) (b : Nat) (s : State) :
    blank L (confirmAct b s) = blank L s := by
  unfold confirmAct
  repeat' (first | with_reducible rfl | (simp only [modImg_frame, nameWater_frame, hWire, hTow, hImg, apply_ite (blank L), ite_self]) | (with_reducible refine ite_frame _ ?_ ?_) | split)

theorem cancelAll_frame (L : Region → Bool) (hFv : L .fv = true) (hWire : L .wire = true) (hTow : L .tow = true) (hImg : L .img = true) (st : Status) (s : State) :
    blank L (cancelAll st s) = blank L s := by
  unfold cancelAll
  repeat' (first | with_reducible rfl | (simp only [cancelAct_frame, modImg_frame, tellBarges_frame, hFv, hWire, hTow, hImg, apply_ite (blank L), ite_self]) | (with_reducible refine ite_frame _ ?_ ?_) | split)

theorem applyAct_frame (L : Region → Bool) (hImg : L .img = true) (s : State) :
    blank L (applyAct s) = blank L s := by
  unfold applyAct
  repeat' (first | with_reducible rfl | (simp only [modImg_frame, hImg, apply_ite (blank L), ite_self]) | (with_reducible refine ite_frame _ ?_ ?_) | split)

theorem cutoffAct_frame (L : Region → Bool) (hImg : L .img = true) (s : State) :
    blank L (cutoffAct s) = blank L s := by
  unfold cutoffAct
  repeat' (first | with_reducible rfl | (simp only [modImg_frame, hImg, apply_ite (blank L), ite_self]) | (with_reducible refine ite_frame _ ?_ ?_) | split)

theorem sealAct_frame (L : Region → Bool) (hImg : L .img = true) (done : Bool) (s : State) :
    blank L (sealAct done s) = blank L s := by
  unfold sealAct
  repeat' (first | with_reducible rfl | (simp only [modImg_frame, hImg, apply_ite (blank L), ite_self]) | (with_reducible refine ite_frame _ ?_ ?_) | split)

theorem handOverAct_frame (L : Region → Bool) (hFv : L .fv = true) (hWire : L .wire = true) (hTow : L .tow = true) (hImg : L .img = true) (overran : Bool) (s : State) :
    blank L (handOverAct overran s) = blank L s := by
  unfold handOverAct
  repeat' (first | with_reducible rfl | (simp only [cancelAll_frame, emitWater_frame, modImg_frame, hFv, hWire, hTow, hImg, apply_ite (blank L), ite_self]) | (with_reducible refine ite_frame _ ?_ ?_) | split)

theorem endHandover_frame (L : Region → Bool) (hCyc : L .cyc = true) (hStaged : L .staged = true) (hFv : L .fv = true) (hWire : L .wire = true) (hMot : L .mot = true) (hTow : L .tow = true) (hAps : L .aps = true) (hPwr : L .pwr = true) (hImg : L .img = true) (s : State) :
    blank L (endHandover s) = blank L s := by
  unfold endHandover
  repeat' (first | with_reducible rfl | (simp only [answer_frame, beginTrial_frame, emit_frame, modImg_frame, runDeferred_frame, setBankState_frame, setDevState_frame, writeBoot_frame, hCyc, hStaged, hFv, hWire, hMot, hTow, hAps, hPwr, hImg, apply_ite (blank L), ite_self]) | (with_reducible refine ite_frame _ ?_ ?_) | split)

theorem bootChoose_frame (L : Region → Bool) (hWire : L .wire = true) (hImg : L .img = true) (s : State) :
    blank L (bootChoose s) = blank L s := by
  unfold bootChoose
  repeat' (first | with_reducible rfl | (simp only [modImg_frame, revertTrial_frame, hWire, hImg, apply_ite (blank L), ite_self]) | (with_reducible refine ite_frame _ ?_ ?_) | split)

theorem restartAct_frame (L : Region → Bool) (hCyc : L .cyc = true) (hStaged : L .staged = true) (hFv : L .fv = true) (hWire : L .wire = true) (hDetect : L .detect = true) (hTp : L .tp = true) (hSlu : L .slu = true) (hMot : L .mot = true) (hFio : L .fio = true) (hTow : L .tow = true) (hPwr : L .pwr = true) (hImg : L .img = true) (s : State) :
    blank L (restartAct s) = blank L s := by
  unfold restartAct
  repeat' (first | with_reducible rfl | (simp only [beginTrial_frame, bootChoose_frame, lkRestart_frame, modImg_frame, revertTrial_frame, hCyc, hStaged, hFv, hWire, hDetect, hTp, hSlu, hMot, hFio, hTow, hPwr, hImg, apply_ite (blank L), ite_self]) | (with_reducible refine ite_frame _ ?_ ?_) | split)

theorem takeSlot_frame (L : Region → Bool) (hImg : L .img = true) (k : Nat) (s : State) :
    blank L (takeSlot k s) = blank L s := by
  unfold takeSlot
  repeat' (first | with_reducible rfl | (simp only [modImg_frame, setSlotState_frame, writeBoot_frame, hImg, apply_ite (blank L), ite_self]) | (with_reducible refine ite_frame _ ?_ ?_) | split)

theorem commitTable_frame (L : Region → Bool) (hSys : L .sys = true) (hTp : L .tp = true) (hMem : L .mem = true) (l : List ChartItem) (s : State) :
    blank L (commitTable l s) = blank L s := by
  unfold commitTable
  repeat' (first | with_reducible rfl | (simp only [writeTable_frame, hSys, hTp, hMem, apply_ite (blank L), ite_self]) | (with_reducible refine ite_frame _ ?_ ?_) | split)

theorem liveCommit_frame (L : Region → Bool) (hSys : L .sys = true) (hCyc : L .cyc = true) (hStaged : L .staged = true) (hTide : L .tide = true) (hFv : L .fv = true) (hWire : L .wire = true) (hSafe : L .safe = true) (hDetect : L .detect = true) (hBreach : L .breach = true) (hPond : L .pond = true) (hTp : L .tp = true) (hPow : L .pow = true) (hSlu : L .slu = true) (hMot : L .mot = true) (hFio : L .fio = true) (hCan : L .can = true) (hLin : L .lin = true) (hNm : L .nm = true) (hAq : L .aq = true) (hNet : L .net = true) (hTow : L .tow = true) (hLight : L .light = true) (hAps : L .aps = true) (hPwr : L .pwr = true) (hImg : L .img = true) (hMem : L .mem = true) (hFree : L .free = true) (k : Nat) (s : State) :
    blank L (liveCommit k s) = blank L s := by
  unfold liveCommit
  repeat' (first | with_reducible rfl | (simp only [chartFields_frame, commitTable_frame, emit_frame, takeSlot_frame, hSys, hCyc, hStaged, hTide, hFv, hWire, hSafe, hDetect, hBreach, hPond, hTp, hPow, hSlu, hMot, hFio, hCan, hLin, hNm, hAq, hNet, hTow, hLight, hAps, hPwr, hImg, hMem, hFree, apply_ite (blank L), ite_self]) | (with_reducible refine (foldl_pair_frame L _ (fun _ _ => ?_) _ _).trans ?_) | (with_reducible refine (foldl_frame L _ (fun _ _ => ?_) _ _).trans ?_) | (with_reducible refine ite_frame _ ?_ ?_) | split)

theorem commitNow_frame (L : Region → Bool) (hSys : L .sys = true) (hCyc : L .cyc = true) (hStaged : L .staged = true) (hTide : L .tide = true) (hFv : L .fv = true) (hWire : L .wire = true) (hSafe : L .safe = true) (hDetect : L .detect = true) (hBreach : L .breach = true) (hPond : L .pond = true) (hTp : L .tp = true) (hPow : L .pow = true) (hSlu : L .slu = true) (hMot : L .mot = true) (hFio : L .fio = true) (hCan : L .can = true) (hLin : L .lin = true) (hNm : L .nm = true) (hAq : L .aq = true) (hNet : L .net = true) (hTow : L .tow = true) (hLight : L .light = true) (hAps : L .aps = true) (hPwr : L .pwr = true) (hImg : L .img = true) (hMem : L .mem = true) (hFree : L .free = true) (c : Commit) (s : State) :
    blank L (commitNow c s) = blank L s := by
  unfold commitNow
  repeat' (first | with_reducible rfl | (simp only [answer_frame, chartRefused_frame, liveCommit_frame, modImg_frame, setSlotState_frame, hSys, hCyc, hStaged, hTide, hFv, hWire, hSafe, hDetect, hBreach, hPond, hTp, hPow, hSlu, hMot, hFio, hCan, hLin, hNm, hAq, hNet, hTow, hLight, hAps, hPwr, hImg, hMem, hFree, apply_ite (blank L), ite_self]) | (with_reducible refine ite_frame _ ?_ ?_) | split)

theorem commitBoundary_frame (L : Region → Bool) (hSys : L .sys = true) (hCyc : L .cyc = true) (hStaged : L .staged = true) (hTide : L .tide = true) (hFv : L .fv = true) (hWire : L .wire = true) (hSafe : L .safe = true) (hDetect : L .detect = true) (hBreach : L .breach = true) (hPond : L .pond = true) (hTp : L .tp = true) (hPow : L .pow = true) (hSlu : L .slu = true) (hMot : L .mot = true) (hFio : L .fio = true) (hCan : L .can = true) (hLin : L .lin = true) (hNm : L .nm = true) (hAq : L .aq = true) (hNet : L .net = true) (hTow : L .tow = true) (hLight : L .light = true) (hAps : L .aps = true) (hPwr : L .pwr = true) (hImg : L .img = true) (hMem : L .mem = true) (hFree : L .free = true) (img : Bool) (s : State) :
    blank L (commitBoundary img s) = blank L s := by
  unfold commitBoundary
  repeat' (first | with_reducible rfl | (simp only [commitNow_frame, modImg_frame, hSys, hCyc, hStaged, hTide, hFv, hWire, hSafe, hDetect, hBreach, hPond, hTp, hPow, hSlu, hMot, hFio, hCan, hLin, hNm, hAq, hNet, hTow, hLight, hAps, hPwr, hImg, hMem, hFree, apply_ite (blank L), ite_self]) | (with_reducible refine ite_frame _ ?_ ?_) | split)

theorem refuseChart_frame (L : Region → Bool) (hWire : L .wire = true) (hImg : L .img = true) (k : Nat) (a : List Byte) (bad : Option (Nat × Nat)) (s : State) :
    blank L (refuseChart k a bad s) = blank L s := by
  unfold refuseChart
  repeat' (first | with_reducible rfl | (simp only [chartRefused_frame, setSlotState_frame, hWire, hImg, apply_ite (blank L), ite_self]) | (with_reducible refine ite_frame _ ?_ ?_) | split)

theorem beginCommit_frame (L : Region → Bool) (hWire : L .wire = true) (hImg : L .img = true) (r : Req) (k : Nat) (a : List Byte) (s : State) :
    blank L (beginCommit r k a s) = blank L s := by
  unfold beginCommit
  repeat' (first | with_reducible rfl | (simp only [answer_frame, commitMigrated_frame, modImg_frame, setSlotState_frame, hWire, hImg, apply_ite (blank L), ite_self]) | (with_reducible refine ite_frame _ ?_ ?_) | split)

theorem imageRec_keeps (L : Region → Bool)  (b : Nat) : FldsKeep L (imageRec b).flds := by
  unfold imageRec
  repeat' (first | (refine FldsKeep.lift (fun _ _ => ?_)) | (refine FldsKeep.append ?_ ?_) | (refine FldsKeep.flatMap (fun _ => ?_)) | (refine FldsKeep.map (fun _ => ?_)) | (refine FldsKeep.cons ?_ ?_) | (exact FldsKeep.nil) | (exact fun _ _ => rfl) | (intro n9 s9) | (simp only [apply_ite (blank L), ite_self]))

theorem writeUnit_frame (L : Region → Bool) (hSys : L .sys = true) (hMem : L .mem = true) (base off : Nat) (d : List Byte) (s : State) :
    blank L (writeUnit base off d s) = blank L s := by
  simp only [writeUnit, storeBytes_frame, hSys, hMem]

theorem rollback_frame (L : Region → Bool) (hFv : L .fv = true) (hWire : L .wire = true) (hTow : L .tow = true) (hImg : L .img = true) (r : Req) (s : State) :
    blank L (rollback r s) = blank L s := by
  unfold rollback
  repeat' (first | with_reducible rfl | (simp only [answer_frame, beginAct_frame, cancelAll_frame, hFv, hWire, hTow, hImg, apply_ite (blank L), ite_self]) | (with_reducible refine ite_frame _ ?_ ?_) | split)

theorem imageClass_keeps (L : Region → Bool) (hSys : L .sys = true) (hFv : L .fv = true) (hWire : L .wire = true) (hTow : L .tow = true) (hImg : L .img = true) (hMem : L .mem = true)  : Keeps L (imageClass) where
  record h := by
    simp only [imageClass] at h
    repeat' (split at h)
    all_goals first | (cases h; done) | (injection h with h; subst h; first | (exact FldsKeep.nil) | (with_reducible exact imageRec_keeps L  _))
  after _ _ _ _ _ := by
    simp only [imageClass]
    repeat' (first | with_reducible rfl | (simp only [beginAct_frame, emit_frame, modBankImg_frame, rollback_frame, setBankState_frame, writeUnit_frame, hSys, hFv, hWire, hTow, hImg, hMem, apply_ite (blank L), ite_self]) | (with_reducible refine ite_frame _ ?_ ?_) | split)
  onRead _ _ _ _ _ := by
    simp only [imageClass]
    repeat' (first | with_reducible rfl | (simp only [beginAct_frame, emit_frame, modBankImg_frame, rollback_frame, setBankState_frame, writeUnit_frame, hSys, hFv, hWire, hTow, hImg, hMem, apply_ite (blank L), ite_self]) | (with_reducible refine ite_frame _ ?_ ?_) | split)
  held h := by
    first
    | (cases h; done)
    | (simp only [imageClass] at h; exact absurd h)
  acts := by
    simp only [imageClass]
    repeat' (first | (exact ActsKeep.nil) | (refine ActsKeep.cons ?_ ?_) | (refine ⟨fun _ _ _ _ => ?_, fun _ => ?_, fun _ _ _ => ?_, fun h9 => ?_⟩) | (cases h9; done) | (injection h9 with h9; subst h9) | with_reducible rfl | (simp only [beginAct_frame, emit_frame, modBankImg_frame, rollback_frame, setBankState_frame, writeUnit_frame, hSys, hFv, hWire, hTow, hImg, hMem, apply_ite (blank L), ite_self]) | (with_reducible refine ite_frame _ ?_ ?_) | split)

theorem readSlot_frame (L : Region → Bool) (hImg : L .img = true) (k : Nat) (s : State) :
    blank L (readSlot k s) = blank L s := by
  unfold readSlot
  repeat' (first | with_reducible rfl | (simp only [modSlotImg_frame, hImg, apply_ite (blank L), ite_self]) | (with_reducible refine ite_frame _ ?_ ?_) | split)

theorem chartSpec_keeps (L : Region → Bool) (hSys : L .sys = true) (hWire : L .wire = true) (hImg : L .img = true) (hMem : L .mem = true)  : Keeps L (chartSpec) where
  record h := by
    simp only [chartSpec] at h
    repeat' (split at h)
    all_goals first | (cases h; done) | (injection h with h; subst h; first | (exact FldsKeep.nil))
  after _ _ _ _ _ := by
    simp only [chartSpec]
    repeat' (first | with_reducible rfl | (simp only [beginCommit_frame, modSlotImg_frame, readSlot_frame, refuseChart_frame, setSlotState_frame, writeUnit_frame, hSys, hWire, hImg, hMem, apply_ite (blank L), ite_self]) | (with_reducible refine ite_frame _ ?_ ?_) | split)
  onRead _ _ _ _ _ := by
    simp only [chartSpec]
    repeat' (first | with_reducible rfl | (simp only [beginCommit_frame, modSlotImg_frame, readSlot_frame, refuseChart_frame, setSlotState_frame, writeUnit_frame, hSys, hWire, hImg, hMem, apply_ite (blank L), ite_self]) | (with_reducible refine ite_frame _ ?_ ?_) | split)
  held h := by
    first
    | (cases h; done)
    | (simp only [chartSpec] at h; exact absurd h)
  acts := by
    simp only [chartSpec]
    repeat' (first | (exact ActsKeep.nil) | (refine ActsKeep.cons ?_ ?_) | (refine ⟨fun _ _ _ _ => ?_, fun _ => ?_, fun _ _ _ => ?_, fun h9 => ?_⟩) | (cases h9; done) | (injection h9 with h9; subst h9) | with_reducible rfl | (simp only [beginCommit_frame, modSlotImg_frame, readSlot_frame, refuseChart_frame, setSlotState_frame, writeUnit_frame, hSys, hWire, hImg, hMem, apply_ite (blank L), ite_self]) | (with_reducible refine ite_frame _ ?_ ?_) | split)

theorem execImageWrite_frame (L : Region → Bool) (hSys : L .sys = true) (hStaged : L .staged = true) (hFv : L .fv = true) (hWire : L .wire = true) (hDetect : L .detect = true) (hTp : L .tp = true) (hNm : L .nm = true) (hTow : L .tow = true) (hImg : L .img = true) (hMem : L .mem = true) {r : Req} {s : State} {t9} (h : execImageWrite r s = .next t9) :
    blank L t9 = blank L s := by
  unfold execImageWrite at h
  injection h with h
  subst h
  repeat' (first | with_reducible rfl | (refine Eq.trans (cmdAct_frame L hStaged hFv hWire hDetect hTp hNm hTow (imageClass_keeps L hSys hFv hWire hTow hImg hMem) _ _ _) ?_) | (simp only [hSys, hStaged, hFv, hWire, hDetect, hTp, hNm, hTow, hImg, hMem, apply_ite (blank L), ite_self]) | (with_reducible refine ite_frame _ ?_ ?_) | split)

theorem execImageVerify_frame (L : Region → Bool) (hSys : L .sys = true) (hStaged : L .staged = true) (hFv : L .fv = true) (hWire : L .wire = true) (hDetect : L .detect = true) (hTp : L .tp = true) (hNm : L .nm = true) (hTow : L .tow = true) (hImg : L .img = true) (hMem : L .mem = true) {r : Req} {s : State} {t9} (h : execImageVerify r s = .next t9) :
    blank L t9 = blank L s := by
  unfold execImageVerify at h
  injection h with h
  subst h
  repeat' (first | with_reducible rfl | (refine Eq.trans (cmdAct_frame L hStaged hFv hWire hDetect hTp hNm hTow (imageClass_keeps L hSys hFv hWire hTow hImg hMem) _ _ _) ?_) | (simp only [hSys, hStaged, hFv, hWire, hDetect, hTp, hNm, hTow, hImg, hMem, apply_ite (blank L), ite_self]) | (with_reducible refine ite_frame _ ?_ ?_) | split)

theorem execImageActivate_frame (L : Region → Bool) (hSys : L .sys = true) (hStaged : L .staged = true) (hFv : L .fv = true) (hWire : L .wire = true) (hDetect : L .detect = true) (hTp : L .tp = true) (hNm : L .nm = true) (hTow : L .tow = true) (hImg : L .img = true) (hMem : L .mem = true) {r : Req} {s : State} {t9} (h : execImageActivate r s = .next t9) :
    blank L t9 = blank L s := by
  unfold execImageActivate at h
  injection h with h
  subst h
  repeat' (first | with_reducible rfl | (refine Eq.trans (cmdAct_frame L hStaged hFv hWire hDetect hTp hNm hTow (imageClass_keeps L hSys hFv hWire hTow hImg hMem) _ _ _) ?_) | (simp only [hSys, hStaged, hFv, hWire, hDetect, hTp, hNm, hTow, hImg, hMem, apply_ite (blank L), ite_self]) | (with_reducible refine ite_frame _ ?_ ?_) | split)

theorem execImageRollback_frame (L : Region → Bool) (hSys : L .sys = true) (hStaged : L .staged = true) (hFv : L .fv = true) (hWire : L .wire = true) (hDetect : L .detect = true) (hTp : L .tp = true) (hNm : L .nm = true) (hTow : L .tow = true) (hImg : L .img = true) (hMem : L .mem = true) {r : Req} {s : State} {t9} (h : execImageRollback r s = .next t9) :
    blank L t9 = blank L s := by
  unfold execImageRollback at h
  injection h with h
  subst h
  repeat' (first | with_reducible rfl | (refine Eq.trans (cmdAct_frame L hStaged hFv hWire hDetect hTp hNm hTow (imageClass_keeps L hSys hFv hWire hTow hImg hMem) _ _ _) ?_) | (simp only [hSys, hStaged, hFv, hWire, hDetect, hTp, hNm, hTow, hImg, hMem, apply_ite (blank L), ite_self]) | (with_reducible refine ite_frame _ ?_ ?_) | split)

theorem execTrialEnd_frame (L : Region → Bool) (hWire : L .wire = true) (hNet : L .net = true) (hLight : L .light = true) (hImg : L .img = true) {s : State} {t9} (h : execTrialEnd s = .next t9) :
    blank L t9 = blank L s := by
  unfold execTrialEnd at h
  injection h with h
  subst h
  repeat' (first | with_reducible rfl | (simp only [commitTrial_frame, hWire, hNet, hLight, hImg, apply_ite (blank L), ite_self]) | (with_reducible refine ite_frame _ ?_ ?_) | split)

theorem execLockThroughPrepared_frame (L : Region → Bool) (hFv : L .fv = true) (hWire : L .wire = true) (hTow : L .tow = true) (hImg : L .img = true) {s : State} {t9} (h : execLockThroughPrepared s = .next t9) :
    blank L t9 = blank L s := by
  unfold execLockThroughPrepared at h
  injection h with h
  subst h
  repeat' (first | with_reducible rfl | (simp only [cancelAll_frame, modImg_frame, setDevState_frame, hFv, hWire, hTow, hImg, apply_ite (blank L), ite_self]) | (with_reducible refine ite_frame _ ?_ ?_) | split)

theorem execReadyFlagTimeout_frame (L : Region → Bool) (hCyc : L .cyc = true) (hStaged : L .staged = true) (hFv : L .fv = true) (hWire : L .wire = true) (hMot : L .mot = true) (hTow : L .tow = true) (hAps : L .aps = true) (hPwr : L .pwr = true) (hImg : L .img = true) {s : State} {t9} (h : execReadyFlagTimeout s = .next t9) :
    blank L t9 = blank L s := by
  unfold execReadyFlagTimeout at h
  injection h with h
  subst h
  repeat' (first | with_reducible rfl | (simp only [answer_frame, emit_frame, modImg_frame, runDeferred_frame, setBankState_frame, setDevState_frame, tellBarges_frame, hCyc, hStaged, hFv, hWire, hMot, hTow, hAps, hPwr, hImg, apply_ite (blank L), ite_self]) | (with_reducible refine ite_frame _ ?_ ?_) | split)

theorem execHighWaterCancel_frame (L : Region → Bool) (hFv : L .fv = true) (hWire : L .wire = true) (hTow : L .tow = true) (hImg : L .img = true) {s : State} {t9} (h : execHighWaterCancel s = .next t9) :
    blank L t9 = blank L s := by
  unfold execHighWaterCancel at h
  injection h with h
  subst h
  repeat' (first | with_reducible rfl | (simp only [cancelAll_frame, hFv, hWire, hTow, hImg, apply_ite (blank L), ite_self]) | (with_reducible refine ite_frame _ ?_ ?_) | split)

theorem execChartWrite_frame (L : Region → Bool) (hSys : L .sys = true) (hStaged : L .staged = true) (hFv : L .fv = true) (hWire : L .wire = true) (hDetect : L .detect = true) (hTp : L .tp = true) (hNm : L .nm = true) (hTow : L .tow = true) (hImg : L .img = true) (hMem : L .mem = true) {r : Req} {s : State} {t9} (h : execChartWrite r s = .next t9) :
    blank L t9 = blank L s := by
  unfold execChartWrite at h
  injection h with h
  subst h
  repeat' (first | with_reducible rfl | (refine Eq.trans (cmdAct_frame L hStaged hFv hWire hDetect hTp hNm hTow (chartSpec_keeps L hSys hWire hImg hMem) _ _ _) ?_) | (simp only [hSys, hStaged, hFv, hWire, hDetect, hTp, hNm, hTow, hImg, hMem, apply_ite (blank L), ite_self]) | (with_reducible refine ite_frame _ ?_ ?_) | split)

theorem execChartCommit_frame (L : Region → Bool) (hSys : L .sys = true) (hStaged : L .staged = true) (hFv : L .fv = true) (hWire : L .wire = true) (hDetect : L .detect = true) (hTp : L .tp = true) (hNm : L .nm = true) (hTow : L .tow = true) (hImg : L .img = true) (hMem : L .mem = true) {r : Req} {s : State} {t9} (h : execChartCommit r s = .next t9) :
    blank L t9 = blank L s := by
  unfold execChartCommit at h
  injection h with h
  subst h
  repeat' (first | with_reducible rfl | (refine Eq.trans (cmdAct_frame L hStaged hFv hWire hDetect hTp hNm hTow (chartSpec_keeps L hSys hWire hImg hMem) _ _ _) ?_) | (simp only [hSys, hStaged, hFv, hWire, hDetect, hTp, hNm, hTow, hImg, hMem, apply_ite (blank L), ite_self]) | (with_reducible refine ite_frame _ ?_ ?_) | split)

theorem execChartRollback_frame (L : Region → Bool) (hSys : L .sys = true) (hStaged : L .staged = true) (hFv : L .fv = true) (hWire : L .wire = true) (hDetect : L .detect = true) (hTp : L .tp = true) (hNm : L .nm = true) (hTow : L .tow = true) (hImg : L .img = true) (hMem : L .mem = true) {r : Req} {s : State} {t9} (h : execChartRollback r s = .next t9) :
    blank L t9 = blank L s := by
  unfold execChartRollback at h
  injection h with h
  subst h
  repeat' (first | with_reducible rfl | (refine Eq.trans (cmdAct_frame L hStaged hFv hWire hDetect hTp hNm hTow (chartSpec_keeps L hSys hWire hImg hMem) _ _ _) ?_) | (simp only [hSys, hStaged, hFv, hWire, hDetect, hTp, hNm, hTow, hImg, hMem, apply_ite (blank L), ite_self]) | (with_reducible refine ite_frame _ ?_ ?_) | split)

end Sys2Proof.Machine
end

