-- ==== Sys2Proof/Laws/FrameStart.lean ====
section
/-! SUPPORT. Frame lemmas of Machine/Start.lean: what each operation leaves alone. -/
set_option linter.unusedSimpArgs false
set_option linter.unusedVariables false
namespace Sys2Proof.Machine

theorem assignCores_frame (L : Region → Bool) (hPond : L .pond = true) (hAps : L .aps = true) (s : State) :
    blank L (assignCores s) = blank L s := by
  unfold assignCores
  repeat' (first | with_reducible rfl | (simp only [modCore_frame, modPond_frame, hPond, hAps, apply_ite (blank L), ite_self]) | (with_reducible refine (foldl_pair_frame L _ (fun _ _ => ?_) _ _).trans ?_) | (with_reducible refine (foldl_frame L _ (fun _ _ => ?_) _ _).trans ?_) | (with_reducible refine ite_frame _ ?_ ?_) | split)

theorem trainPorts_frame (L : Region → Bool) (hTow : L .tow = true) (s : State) :
    blank L (trainPorts s) = blank L s := by
  unfold trainPorts
  repeat' (first | with_reducible rfl | (simp only [modTpt_frame, hTow, apply_ite (blank L), ite_self]) | (with_reducible refine (foldl_pair_frame L _ (fun _ _ => ?_) _ _).trans ?_) | (with_reducible refine (foldl_frame L _ (fun _ _ => ?_) _ _).trans ?_) | (with_reducible refine ite_frame _ ?_ ?_) | split)

theorem clocksOn_frame (L : Region → Bool) (hCyc : L .cyc = true) (hTide : L .tide = true) (hWire : L .wire = true) (hFio : L .fio = true) (hPwr : L .pwr = true) (s : State) :
    blank L (clocksOn s) = blank L s := by
  unfold clocksOn
  repeat' (first | with_reducible rfl | (simp only [modPwr_frame, modTide_frame, startTimer_frame, hCyc, hTide, hWire, hFio, hPwr, apply_ite (blank L), ite_self]) | (with_reducible refine ite_frame _ ?_ ?_) | split)

theorem startKeeper_frame (L : Region → Bool) (hSys : L .sys = true) (hCyc : L .cyc = true) (hTide : L .tide = true) (hWire : L .wire = true) (hDetect : L .detect = true) (hPond : L .pond = true) (hTp : L .tp = true) (hFio : L .fio = true) (hLin : L .lin = true) (hNm : L .nm = true) (hTow : L .tow = true) (hAps : L .aps = true) (hPwr : L .pwr = true) (hImg : L .img = true) (src det : Nat) (tugSel ref : Bool) (s : State) :
    blank L (startKeeper src det tugSel ref s) = blank L s := by
  unfold startKeeper
  repeat' (first | with_reducible rfl | (simp only [assignCores_frame, bootChoose_frame, clocksOn_frame, emit_frame, faultFall_frame, modTp_frame, trainPorts_frame, useCopies_frame, hSys, hCyc, hTide, hWire, hDetect, hPond, hTp, hFio, hLin, hNm, hTow, hAps, hPwr, hImg, apply_ite (blank L), ite_self]) | (with_reducible refine ite_frame _ ?_ ?_) | split)
  all_goals simp only [blank, hSys, hFio, hLin, hNm, hTide, hPwr, if_true]

theorem rest_frame (L : Region → Bool) (hSys : L .sys = true) (hCyc : L .cyc = true) (hStaged : L .staged = true) (hTide : L .tide = true) (hFv : L .fv = true) (hWire : L .wire = true) (hSafe : L .safe = true) (hDetect : L .detect = true) (hBreach : L .breach = true) (hPond : L .pond = true) (hTp : L .tp = true) (hPow : L .pow = true) (hSlu : L .slu = true) (hMot : L .mot = true) (hFio : L .fio = true) (hCan : L .can = true) (hLin : L .lin = true) (hNm : L .nm = true) (hAq : L .aq = true) (hNet : L .net = true) (hTow : L .tow = true) (hLight : L .light = true) (hAps : L .aps = true) (hPwr : L .pwr = true) (hImg : L .img = true) (hMem : L .mem = true) {u t : State} (hf : u.free = t.free) (hp : u.pending = t.pending) :
    blank L u = blank L t := by
  simp only [blank, blankFv, blankSaf, blankCyc, hSys, hCyc, hStaged, hTide, hFv, hWire, hSafe, hDetect, hBreach, hPond, hTp, hPow, hSlu, hMot, hFio, hCan, hLin, hNm, hAq, hNet, hTow, hLight, hAps, hPwr, hImg, hMem, hf, hp, if_true]

theorem failStart_frame (L : Region → Bool) (hSys : L .sys = true) (hCyc : L .cyc = true) (hStaged : L .staged = true) (hTide : L .tide = true) (hFv : L .fv = true) (hWire : L .wire = true) (hSafe : L .safe = true) (hDetect : L .detect = true) (hBreach : L .breach = true) (hPond : L .pond = true) (hTp : L .tp = true) (hPow : L .pow = true) (hSlu : L .slu = true) (hMot : L .mot = true) (hFio : L .fio = true) (hCan : L .can = true) (hLin : L .lin = true) (hNm : L .nm = true) (hAq : L .aq = true) (hNet : L .net = true) (hTow : L .tow = true) (hLight : L .light = true) (hAps : L .aps = true) (hPwr : L .pwr = true) (hImg : L .img = true) (hMem : L .mem = true) (cause : Nat) (s : State) : blank L (failStart cause s) = blank L s := by
  unfold failStart
  refine Eq.trans (tpSet_frame L hWire hDetect hTp _ _) ?_
  refine Eq.trans (rest_frame L hSys hCyc hStaged hTide hFv hWire hSafe hDetect hBreach hPond hTp hPow hSlu hMot hFio hCan hLin hNm hAq hNet hTow hLight hAps hPwr hImg hMem (t := keeperDown (revertTrial (modFv _ _))) rfl rfl) ?_
  simp only [keeperDown_frame, revertTrial_frame, modFv_frame, writeBoot_frame, hSys, hCyc, hStaged, hTide, hFv, hWire, hSafe, hDetect, hBreach, hPond, hTp, hPow, hSlu, hMot, hFio, hCan, hLin, hNm, hAq, hNet, hTow, hLight, hAps, hPwr, hImg, hMem]

theorem pickChart_frame (L : Region → Bool) (hWire : L .wire = true) (s : State) :
    blank L (pickChart s).2 = blank L s := by
  unfold pickChart
  repeat' (first | with_reducible rfl | (simp only [chartRefused_frame, hWire, apply_ite (blank L), ite_self]) | (with_reducible refine ite_frame _ ?_ ?_) | split)

theorem pickChart_frame_eq (L : Region → Bool) (hWire : L .wire = true) {s : State} {x9} {t9} (h : pickChart s = (x9, t9)) :
    blank L t9 = blank L s := by
  rw [← pickChart_frame L hWire s, h]

theorem migrateChart_frame (L : Region → Bool) (hWire : L .wire = true) (hImg : L .img = true) (hFree : L .free = true) (k : Nat) (s : State) :
    blank L (migrateChart k s).2 = blank L s := by
  unfold migrateChart
  repeat' (first | with_reducible rfl | (with_reducible refine Eq.trans (takeFree_frame_eq L hFree (by with_reducible assumption)) ?_) | (simp only [emit_frame, modSlotImg_frame, setSlotState_frame, takeFree_frame, writeBoot_frame, hWire, hImg, hFree, apply_ite (blank L), ite_self]) | (with_reducible refine ite_frame _ ?_ ?_) | split)

theorem migrateChart_frame_eq (L : Region → Bool) (hWire : L .wire = true) (hImg : L .img = true) (hFree : L .free = true) {k : Nat} {s : State} {x9} {t9} (h : migrateChart k s = (x9, t9)) :
    blank L t9 = blank L s := by
  rw [← migrateChart_frame L hWire hImg hFree k s, h]

theorem enforce_frame (L : Region → Bool) (hSys : L .sys = true) (hWire : L .wire = true) (hTp : L .tp = true) (hImg : L .img = true) (hMem : L .mem = true) (hFree : L .free = true) (k : Nat) (s : State) :
    blank L (enforce k s) = blank L s := by
  unfold enforce
  repeat' (first | with_reducible rfl | (with_reducible refine Eq.trans (migrateChart_frame_eq L hWire hImg hFree (by with_reducible assumption)) ?_) | (simp only [commitTable_frame, emit_frame, migrateChart_frame, modImg_frame, takeSlot_frame, hSys, hWire, hTp, hImg, hMem, hFree, apply_ite (blank L), ite_self]) | (with_reducible refine ite_frame _ ?_ ?_) | split)

theorem loadRecords_frame (L : Region → Bool) (hSys : L .sys = true) (hCyc : L .cyc = true) (hStaged : L .staged = true) (hTide : L .tide = true) (hFv : L .fv = true) (hWire : L .wire = true) (hSafe : L .safe = true) (hDetect : L .detect = true) (hBreach : L .breach = true) (hPond : L .pond = true) (hTp : L .tp = true) (hPow : L .pow = true) (hSlu : L .slu = true) (hMot : L .mot = true) (hFio : L .fio = true) (hCan : L .can = true) (hLin : L .lin = true) (hNm : L .nm = true) (hAq : L .aq = true) (hNet : L .net = true) (hTow : L .tow = true) (hLight : L .light = true) (hAps : L .aps = true) (hPwr : L .pwr = true) (hImg : L .img = true) (hMem : L .mem = true) (hFree : L .free = true) (l : List ChartItem) (s : State) :
    blank L (loadRecords l s) = blank L s := by
  unfold loadRecords
  repeat' (first | with_reducible rfl | (with_reducible refine Eq.trans (quiet_frame L hBreach _ (fun _ => ?_) _) ?_) | ((with_reducible refine Eq.trans (modFv_part L _ _ ?_) ?_); (next => exact fun _ => by simp only [blankFv, hFv, if_true])) | (simp only [loadItem_frame, modNet_frame, modPad_frame, modSlu_frame, modWire_frame, respread_frame, hSys, hCyc, hStaged, hTide, hFv, hWire, hSafe, hDetect, hBreach, hPond, hTp, hPow, hSlu, hMot, hFio, hCan, hLin, hNm, hAq, hNet, hTow, hLight, hAps, hPwr, hImg, hMem, hFree, apply_ite (blank L), ite_self]) | (with_reducible refine (foldl_pair_frame L _ (fun _ _ => ?_) _ _).trans ?_) | (with_reducible refine (foldl_frame L _ (fun _ _ => ?_) _ _).trans ?_) | (with_reducible refine ite_frame _ ?_ ?_) | split)

theorem probe_frame (L : Region → Bool) (hWire : L .wire = true) (unit decl found : Nat) (s : State) :
    blank L (probe unit decl found s).2 = blank L s := by
  unfold probe
  repeat' (first | with_reducible rfl | (simp only [emit_frame, hWire, apply_ite (blank L), ite_self]) | (with_reducible refine ite_frame _ ?_ ?_) | split)

theorem probe_frame_eq (L : Region → Bool) (hWire : L .wire = true) {unit decl found : Nat} {s : State} {x9} {t9} (h : probe unit decl found s = (x9, t9)) :
    blank L t9 = blank L s := by
  rw [← probe_frame L hWire unit decl found s, h]

theorem mapMemories_frame (L : Region → Bool) (hSys : L .sys = true) (hWire : L .wire = true) (ddr xspi : Nat) (s : State) :
    blank L (mapMemories ddr xspi s) = blank L s := by
  unfold mapMemories
  repeat' (first | with_reducible rfl | (with_reducible refine Eq.trans (probe_frame_eq L hWire (by with_reducible assumption)) ?_) | (simp only [modSys_frame, probe_frame, hSys, hWire, apply_ite (blank L), ite_self]) | (with_reducible refine ite_frame _ ?_ ?_) | split)

theorem resumeCtxs_frame (L : Region → Bool) (hAq : L .aq = true) (s : State) :
    blank L (resumeCtxs s) = blank L s := by
  unfold resumeCtxs
  repeat' (first | with_reducible rfl | (simp only [modCtx_frame, hAq, apply_ite (blank L), ite_self]) | (with_reducible refine (foldl_pair_frame L _ (fun _ _ => ?_) _ _).trans ?_) | (with_reducible refine (foldl_frame L _ (fun _ _ => ?_) _ _).trans ?_) | (with_reducible refine ite_frame _ ?_ ?_) | split)

theorem resumeFresh_frame (L : Region → Bool) (hWire : L .wire = true) (s : State) :
    blank L (resumeFresh s) = blank L s := by
  unfold resumeFresh
  repeat' (first | with_reducible rfl | (simp only [modPq_frame, hWire, apply_ite (blank L), ite_self]) | (with_reducible refine (foldl_pair_frame L _ (fun _ _ => ?_) _ _).trans ?_) | (with_reducible refine (foldl_frame L _ (fun _ _ => ?_) _ _).trans ?_) | (with_reducible refine ite_frame _ ?_ ?_) | split)

theorem measure_frame (L : Region → Bool) (hLight : L .light = true) (hFree : L .free = true) (s : State) :
    blank L (measure s) = blank L s := by
  unfold measure
  repeat' (first | with_reducible rfl | (with_reducible refine Eq.trans (takeFree_frame_eq L hFree (by with_reducible assumption)) ?_) | (simp only [modLight_frame, takeFree_frame, hLight, hFree, apply_ite (blank L), ite_self]) | (with_reducible refine ite_frame _ ?_ ?_) | split)

theorem readLatches_frame (L : Region → Bool) (hWire : L .wire = true) (s : State) :
    blank L (readLatches s) = blank L s := by
  unfold readLatches
  repeat' (first | with_reducible rfl | ((with_reducible refine Eq.trans (modFv_part L _ _ ?_) ?_); (next => exact fun _ => by simp only [blankFv, hWire, if_true])) | (simp only [emit_frame, raiseEvt_frame, hWire, apply_ite (blank L), ite_self]) | (with_reducible refine (foldl_pair_frame L _ (fun _ _ => ?_) _ _).trans ?_) | (with_reducible refine (foldl_frame L _ (fun _ _ => ?_) _ _).trans ?_) | (with_reducible refine ite_frame _ ?_ ?_) | split)

theorem loadAll_frame (L : Region → Bool) (hSys : L .sys = true) (hCyc : L .cyc = true) (hStaged : L .staged = true) (hTide : L .tide = true) (hFv : L .fv = true) (hWire : L .wire = true) (hSafe : L .safe = true) (hDetect : L .detect = true) (hBreach : L .breach = true) (hPond : L .pond = true) (hTp : L .tp = true) (hPow : L .pow = true) (hSlu : L .slu = true) (hMot : L .mot = true) (hFio : L .fio = true) (hCan : L .can = true) (hLin : L .lin = true) (hNm : L .nm = true) (hAq : L .aq = true) (hNet : L .net = true) (hTow : L .tow = true) (hLight : L .light = true) (hAps : L .aps = true) (hPwr : L .pwr = true) (hImg : L .img = true) (hMem : L .mem = true) (hFree : L .free = true) (ddr xspi : Nat) (s : State) :
    blank L (loadAll ddr xspi s) = blank L s := by
  unfold loadAll
  repeat' (first | with_reducible rfl | (with_reducible refine Eq.trans (pickChart_frame_eq L hWire (by with_reducible assumption)) ?_) | (simp only [enforce_frame, loadRecords_frame, mapMemories_frame, modImg_frame, modPound_frame, modPwr_frame, modSys_frame, ovfGate_frame, pickChart_frame, resumeCtxs_frame, resumeFresh_frame, startNodes_frame, startPositions_frame, trainPorts_frame, hSys, hCyc, hStaged, hTide, hFv, hWire, hSafe, hDetect, hBreach, hPond, hTp, hPow, hSlu, hMot, hFio, hCan, hLin, hNm, hAq, hNet, hTow, hLight, hAps, hPwr, hImg, hMem, hFree, apply_ite (blank L), ite_self]) | (with_reducible refine ite_frame _ ?_ ?_) | split)

theorem loadChanges_frame (L : Region → Bool) (hSys : L .sys = true) (hCyc : L .cyc = true) (hStaged : L .staged = true) (hTide : L .tide = true) (hFv : L .fv = true) (hWire : L .wire = true) (hSafe : L .safe = true) (hDetect : L .detect = true) (hBreach : L .breach = true) (hPond : L .pond = true) (hTp : L .tp = true) (hPow : L .pow = true) (hSlu : L .slu = true) (hMot : L .mot = true) (hFio : L .fio = true) (hCan : L .can = true) (hLin : L .lin = true) (hNm : L .nm = true) (hAq : L .aq = true) (hNet : L .net = true) (hTow : L .tow = true) (hLight : L .light = true) (hAps : L .aps = true) (hPwr : L .pwr = true) (hImg : L .img = true) (hMem : L .mem = true) (hFree : L .free = true) (old new : List ChartItem) (s : State) :
    blank L (loadChanges old new s) = blank L s := by
  unfold loadChanges
  repeat' (first | with_reducible rfl | (with_reducible refine Eq.trans (quiet_frame L hBreach _ (fun _ => ?_) _) ?_) | (simp only [chartFields_frame, clearParams_frame, loadItem_frame, hSys, hCyc, hStaged, hTide, hFv, hWire, hSafe, hDetect, hBreach, hPond, hTp, hPow, hSlu, hMot, hFio, hCan, hLin, hNm, hAq, hNet, hTow, hLight, hAps, hPwr, hImg, hMem, hFree, apply_ite (blank L), ite_self]) | (with_reducible refine (foldl_pair_frame L _ (fun _ _ => ?_) _ _).trans ?_) | (with_reducible refine (foldl_frame L _ (fun _ _ => ?_) _ _).trans ?_) | (with_reducible refine ite_frame _ ?_ ?_) | split)

theorem loadDiff_frame (L : Region → Bool) (hSys : L .sys = true) (hCyc : L .cyc = true) (hStaged : L .staged = true) (hTide : L .tide = true) (hFv : L .fv = true) (hWire : L .wire = true) (hSafe : L .safe = true) (hDetect : L .detect = true) (hBreach : L .breach = true) (hPond : L .pond = true) (hTp : L .tp = true) (hPow : L .pow = true) (hSlu : L .slu = true) (hMot : L .mot = true) (hFio : L .fio = true) (hCan : L .can = true) (hLin : L .lin = true) (hNm : L .nm = true) (hAq : L .aq = true) (hNet : L .net = true) (hTow : L .tow = true) (hLight : L .light = true) (hAps : L .aps = true) (hPwr : L .pwr = true) (hImg : L .img = true) (hMem : L .mem = true) (hFree : L .free = true) (s : State) :
    blank L (loadDiff s) = blank L s := by
  unfold loadDiff
  repeat' (first | with_reducible rfl | (with_reducible refine Eq.trans (pickChart_frame_eq L hWire (by with_reducible assumption)) ?_) | (simp only [enforce_frame, loadChanges_frame, modImg_frame, pickChart_frame, hSys, hCyc, hStaged, hTide, hFv, hWire, hSafe, hDetect, hBreach, hPond, hTp, hPow, hSlu, hMot, hFio, hCan, hLin, hNm, hAq, hNet, hTow, hLight, hAps, hPwr, hImg, hMem, hFree, apply_ite (blank L), ite_self]) | (with_reducible refine ite_frame _ ?_ ?_) | split)

theorem completeStart_frame (L : Region → Bool) (hFv : L .fv = true) (hWire : L .wire = true) (hDetect : L .detect = true) (hTp : L .tp = true) (hTow : L .tow = true) (hImg : L .img = true) (s : State) :
    blank L (completeStart s) = blank L s := by
  unfold completeStart
  repeat' (first | with_reducible rfl | ((with_reducible refine Eq.trans (modFv_part L _ _ ?_) ?_); (next => exact fun _ => by simp only [blankFv, hFv, if_true])) | (simp only [enumBegin_frame, modImg_frame, setDevState_frame, setTpCauses_frame, writeBoot_frame, hFv, hWire, hDetect, hTp, hTow, hImg, apply_ite (blank L), ite_self]) | (with_reducible refine ite_frame _ ?_ ?_) | split)

theorem execStart_frame (L : Region → Bool) (hSys : L .sys = true) (hCyc : L .cyc = true) (hTide : L .tide = true) (hWire : L .wire = true) (hDetect : L .detect = true) (hPond : L .pond = true) (hTp : L .tp = true) (hFio : L .fio = true) (hLin : L .lin = true) (hNm : L .nm = true) (hTow : L .tow = true) (hAps : L .aps = true) (hPwr : L .pwr = true) (hImg : L .img = true) {tugSel ref : Bool} {s : State} {t9} (h : execStart tugSel ref s = .next t9) :
    blank L t9 = blank L s := by
  unfold execStart at h
  injection h with h
  subst h
  repeat' (first | with_reducible rfl | (simp only [startKeeper_frame, hSys, hCyc, hTide, hWire, hDetect, hPond, hTp, hFio, hLin, hNm, hTow, hAps, hPwr, hImg, apply_ite (blank L), ite_self]) | (with_reducible refine ite_frame _ ?_ ?_) | split)

theorem execReferenceTimeout_frame (L : Region → Bool) (hSys : L .sys = true) (hCyc : L .cyc = true) (hStaged : L .staged = true) (hTide : L .tide = true) (hFv : L .fv = true) (hWire : L .wire = true) (hSafe : L .safe = true) (hDetect : L .detect = true) (hBreach : L .breach = true) (hPond : L .pond = true) (hTp : L .tp = true) (hPow : L .pow = true) (hSlu : L .slu = true) (hMot : L .mot = true) (hFio : L .fio = true) (hCan : L .can = true) (hLin : L .lin = true) (hNm : L .nm = true) (hAq : L .aq = true) (hNet : L .net = true) (hTow : L .tow = true) (hLight : L .light = true) (hAps : L .aps = true) (hPwr : L .pwr = true) (hImg : L .img = true) (hMem : L .mem = true) {s : State} {t9} (h : execReferenceTimeout s = .next t9) :
    blank L t9 = blank L s := by
  unfold execReferenceTimeout at h
  injection h with h
  subst h
  repeat' (first | with_reducible rfl | (simp only [detect_frame, failStart_frame, tpSet_frame, hSys, hCyc, hStaged, hTide, hFv, hWire, hSafe, hDetect, hBreach, hPond, hTp, hPow, hSlu, hMot, hFio, hCan, hLin, hNm, hAq, hNet, hTow, hLight, hAps, hPwr, hImg, hMem, apply_ite (blank L), ite_self]) | (with_reducible refine ite_frame _ ?_ ?_) | split)

theorem execFirmwareRun_frame (L : Region → Bool) (hSys : L .sys = true) (hCyc : L .cyc = true) (hStaged : L .staged = true) (hTide : L .tide = true) (hFv : L .fv = true) (hWire : L .wire = true) (hSafe : L .safe = true) (hDetect : L .detect = true) (hBreach : L .breach = true) (hPond : L .pond = true) (hTp : L .tp = true) (hPow : L .pow = true) (hSlu : L .slu = true) (hMot : L .mot = true) (hFio : L .fio = true) (hCan : L .can = true) (hLin : L .lin = true) (hNm : L .nm = true) (hAq : L .aq = true) (hNet : L .net = true) (hTow : L .tow = true) (hLight : L .light = true) (hAps : L .aps = true) (hPwr : L .pwr = true) (hImg : L .img = true) (hMem : L .mem = true) (hFree : L .free = true) {ddr xspi : Nat} {lost bad : List Nat} {s : State} {t9} (h : execFirmwareRun ddr xspi lost bad s = .next t9) :
    blank L t9 = blank L s := by
  unfold execFirmwareRun at h
  injection h with h
  subst h
  repeat' (first | with_reducible rfl | ((with_reducible refine Eq.trans (modFv_part L _ _ ?_) ?_); (next => exact fun _ => by simp only [blankFv, hFv, if_true])) | (simp only [emit_frame, keyScan_frame, loadAll_frame, loadDiff_frame, mapMemories_frame, measure_frame, modImg_frame, readLatches_frame, hSys, hCyc, hStaged, hTide, hFv, hWire, hSafe, hDetect, hBreach, hPond, hTp, hPow, hSlu, hMot, hFio, hCan, hLin, hNm, hAq, hNet, hTow, hLight, hAps, hPwr, hImg, hMem, hFree, apply_ite (blank L), ite_self]) | (with_reducible refine ite_frame _ ?_ ?_) | split)

theorem execStartComplete_frame (L : Region → Bool) (hFv : L .fv = true) (hWire : L .wire = true) (hDetect : L .detect = true) (hTp : L .tp = true) (hTow : L .tow = true) (hImg : L .img = true) {s : State} {t9} (h : execStartComplete s = .next t9) :
    blank L t9 = blank L s := by
  unfold execStartComplete at h
  injection h with h
  subst h
  repeat' (first | with_reducible rfl | (simp only [completeStart_frame, hFv, hWire, hDetect, hTp, hTow, hImg, apply_ite (blank L), ite_self]) | (with_reducible refine ite_frame _ ?_ ?_) | split)

theorem execStartFailure_frame (L : Region → Bool) (hSys : L .sys = true) (hCyc : L .cyc = true) (hStaged : L .staged = true) (hTide : L .tide = true) (hFv : L .fv = true) (hWire : L .wire = true) (hSafe : L .safe = true) (hDetect : L .detect = true) (hBreach : L .breach = true) (hPond : L .pond = true) (hTp : L .tp = true) (hPow : L .pow = true) (hSlu : L .slu = true) (hMot : L .mot = true) (hFio : L .fio = true) (hCan : L .can = true) (hLin : L .lin = true) (hNm : L .nm = true) (hAq : L .aq = true) (hNet : L .net = true) (hTow : L .tow = true) (hLight : L .light = true) (hAps : L .aps = true) (hPwr : L .pwr = true) (hImg : L .img = true) (hMem : L .mem = true) {cause : Nat} {s : State} {t9} (h : execStartFailure cause s = .next t9) :
    blank L t9 = blank L s := by
  obtain ⟨-, rfl⟩ := guardUnit_next h
  repeat' (first | with_reducible rfl | (simp only [detect_frame, failStart_frame, tpSet_frame, hSys, hCyc, hStaged, hTide, hFv, hWire, hSafe, hDetect, hBreach, hPond, hTp, hPow, hSlu, hMot, hFio, hCan, hLin, hNm, hAq, hNet, hTow, hLight, hAps, hPwr, hImg, hMem, apply_ite (blank L), ite_self]) | (with_reducible refine ite_frame _ ?_ ?_) | split)

theorem execStartRetry_frame (L : Region → Bool) (hSys : L .sys = true) (hCyc : L .cyc = true) (hTide : L .tide = true) (hWire : L .wire = true) (hPond : L .pond = true) (hFio : L .fio = true) (hTow : L .tow = true) (hAps : L .aps = true) (hPwr : L .pwr = true) (hImg : L .img = true) {ref : Bool} {s : State} {t9} (h : execStartRetry ref s = .next t9) :
    blank L t9 = blank L s := by
  unfold execStartRetry at h
  injection h with h
  subst h
  repeat' (first | with_reducible rfl | (simp only [assignCores_frame, bootChoose_frame, clocksOn_frame, modImg_frame, modSys_frame, trainPorts_frame, hSys, hCyc, hTide, hWire, hPond, hFio, hTow, hAps, hPwr, hImg, apply_ite (blank L), ite_self]) | (with_reducible refine ite_frame _ ?_ ?_) | split)

theorem execLockkeeperRestart_frame (L : Region → Bool) (hCyc : L .cyc = true) (hStaged : L .staged = true) (hFv : L .fv = true) (hWire : L .wire = true) (hDetect : L .detect = true) (hTp : L .tp = true) (hSlu : L .slu = true) (hMot : L .mot = true) (hFio : L .fio = true) (hTow : L .tow = true) (hPwr : L .pwr = true) (hImg : L .img = true) {mem clock ref : Bool} {s : State} {t9} (h : execLockkeeperRestart mem clock ref s = .next t9) :
    blank L t9 = blank L s := by
  unfold execLockkeeperRestart at h
  injection h with h
  subst h
  repeat' (first | with_reducible rfl | (simp only [bootChoose_frame, detect_frame, lkRestart_frame, modPwr_frame, tpSet_frame, hCyc, hStaged, hFv, hWire, hDetect, hTp, hSlu, hMot, hFio, hTow, hPwr, hImg, apply_ite (blank L), ite_self]) | (with_reducible refine ite_frame _ ?_ ?_) | split)

end Sys2Proof.Machine
end

