-- ==== Sys2Proof/Laws/FrameIntake.lean ====
section
/-! SUPPORT. Frame lemmas of Machine/Intake.lean: what each operation leaves alone. -/
set_option linter.unusedSimpArgs false
set_option linter.unusedVariables false
namespace Sys2Proof.Machine

theorem classes_keeps (L : Region → Bool) (hSys : L .sys = true) (hCyc : L .cyc = true) (hStaged : L .staged = true) (hTide : L .tide = true) (hFv : L .fv = true) (hWire : L .wire = true) (hSafe : L .safe = true) (hDetect : L .detect = true) (hBreach : L .breach = true) (hPond : L .pond = true) (hTp : L .tp = true) (hPow : L .pow = true) (hSlu : L .slu = true) (hMot : L .mot = true) (hFio : L .fio = true) (hCan : L .can = true) (hLin : L .lin = true) (hNm : L .nm = true) (hAq : L .aq = true) (hNet : L .net = true) (hTow : L .tow = true) (hLight : L .light = true) (hAps : L .aps = true) (hPwr : L .pwr = true) (hImg : L .img = true) (hMem : L .mem = true) (hFree : L .free = true) {k : ClassSpec} (h : k ∈ classes) : Keeps L k := by
  rcases List.mem_append.mp h with h | h
  · exact chartClasses_keeps L hSys hCyc hStaged hTide hFv hWire hSafe hDetect hBreach hPond hTp hPow hSlu hMot hFio hCan hLin hNm hAq hNet hTow hLight hAps hPwr hImg hMem hFree h
  · simp only [List.mem_cons, List.not_mem_nil, or_false] at h
    rcases h with rfl | rfl
    · exact imageClass_keeps L hSys hFv hWire hTow hImg hMem
    · exact chartSpec_keeps L hSys hWire hImg hMem

theorem noClass_keeps (L : Region → Bool) (c : Nat) :
    Keeps L { code := c, ranges := [], record := fun _ _ => none, verbs := [], events := 0 } :=
  { record := fun h => by cases h
    after := fun _ _ _ _ _ => rfl
    onRead := fun _ _ _ _ _ => rfl
    held := fun h => by cases h
    acts := ActsKeep.nil }

theorem classOf_keeps (L : Region → Bool) (hSys : L .sys = true) (hCyc : L .cyc = true) (hStaged : L .staged = true) (hTide : L .tide = true) (hFv : L .fv = true) (hWire : L .wire = true) (hSafe : L .safe = true) (hDetect : L .detect = true) (hBreach : L .breach = true) (hPond : L .pond = true) (hTp : L .tp = true) (hPow : L .pow = true) (hSlu : L .slu = true) (hMot : L .mot = true) (hFio : L .fio = true) (hCan : L .can = true) (hLin : L .lin = true) (hNm : L .nm = true) (hAq : L .aq = true) (hNet : L .net = true) (hTow : L .tow = true) (hLight : L .light = true) (hAps : L .aps = true) (hPwr : L .pwr = true) (hImg : L .img = true) (hMem : L .mem = true) (hFree : L .free = true) (c : Nat) : Keeps L (classOf c) := by
  unfold classOf
  cases h : classes.find? (fun k => decide (k.code = c)) with
  | none => exact noClass_keeps L c
  | some k => exact classes_keeps L hSys hCyc hStaged hTide hFv hWire hSafe hDetect hBreach hPond hTp hPow hSlu hMot hFio hCan hLin hNm hAq hNet hTow hLight hAps hPwr hImg hMem hFree (List.mem_of_find?_eq_some h)

theorem getBody_frame (L : Region → Bool) (hTide : L .tide = true) (hWire : L .wire = true) (hDetect : L .detect = true) (hTp : L .tp = true) (hNm : L .nm = true) {k : ClassSpec} (hk : Keeps L k) (r : Req) (s : State) :
    blank L (getBody k r s) = blank L s := by
  unfold getBody
  split
  · exact timeGetBody_frame L hTide hWire hDetect hTp hNm r s
  · exact doGet_frame L hWire hDetect hTp hNm hk r s

theorem subBody_frame (L : Region → Bool) (hFv : L .fv = true) (hWire : L .wire = true) (hDetect : L .detect = true) (hTp : L .tp = true) (hSlu : L .slu = true) (hNm : L .nm = true) {k : ClassSpec} (hk : Keeps L k) (r : Req) (s : State) :
    blank L (subBody k r s) = blank L s := by
  unfold subBody
  split
  · exact wireSubBody_frame L hFv hWire hDetect hTp hSlu hNm r s
  · exact doSub_frame L hFv hWire hDetect hTp hNm k r s

theorem unsubBody_frame (L : Region → Bool) (hFv : L .fv = true) (hWire : L .wire = true) (hDetect : L .detect = true) (hTp : L .tp = true) (hSlu : L .slu = true) (hNm : L .nm = true) (hTow : L .tow = true) (k : ClassSpec) (r : Req) (s : State) :
    blank L (unsubBody k r s) = blank L s := by
  unfold unsubBody
  repeat' (first | with_reducible rfl | ((with_reducible refine Eq.trans (modFv_part L _ _ ?_) ?_); (next => exact fun _ => by simp only [blankFv, hFv, if_true])) | (simp only [accepted_frame, answer_frame, modSlu_frame, relaySend_frame, hFv, hWire, hDetect, hTp, hSlu, hNm, hTow, apply_ite (blank L), ite_self]) | (with_reducible refine ite_frame _ ?_ ?_) | split)

theorem verbBody_frame (L : Region → Bool) (hStaged : L .staged = true) (hTide : L .tide = true) (hFv : L .fv = true) (hWire : L .wire = true) (hDetect : L .detect = true) (hTp : L .tp = true) (hSlu : L .slu = true) (hNm : L .nm = true) (hTow : L .tow = true) {k : ClassSpec} (hk : Keeps L k) (verb : Nat) (r : Req) (s : State) :
    blank L (verbBody k verb r s) = blank L s := by
  unfold verbBody
  split
  · exact getBody_frame L hTide hWire hDetect hTp hNm hk r s
  · exact doSet_frame L hStaged hWire hDetect hTp hNm hk r s
  · exact doAct_frame L hStaged hWire hDetect hTp hNm hk r s
  · exact subBody_frame L hFv hWire hDetect hTp hSlu hNm hk r s
  · exact unsubBody_frame L hFv hWire hDetect hTp hSlu hNm hTow k r s
  · exact doList_frame L hWire hDetect hTp hNm k r s

theorem runFaval_frame (L : Region → Bool) (hSys : L .sys = true) (hCyc : L .cyc = true) (hStaged : L .staged = true) (hTide : L .tide = true) (hFv : L .fv = true) (hWire : L .wire = true) (hSafe : L .safe = true) (hDetect : L .detect = true) (hBreach : L .breach = true) (hPond : L .pond = true) (hTp : L .tp = true) (hPow : L .pow = true) (hSlu : L .slu = true) (hMot : L .mot = true) (hFio : L .fio = true) (hCan : L .can = true) (hLin : L .lin = true) (hNm : L .nm = true) (hAq : L .aq = true) (hNet : L .net = true) (hTow : L .tow = true) (hLight : L .light = true) (hAps : L .aps = true) (hPwr : L .pwr = true) (hImg : L .img = true) (hMem : L .mem = true) (hFree : L .free = true) (cls verb : Nat) (r : Req) (s : State) :
    blank L (runFaval cls verb r s) = blank L s :=
  serve_frame L hFv hWire hDetect hTp hNm hTow _ _ _ _ (fun s => verbBody_frame L hStaged hTide hFv hWire hDetect hTp hSlu hNm hTow (classOf_keeps L hSys hCyc hStaged hTide hFv hWire hSafe hDetect hBreach hPond hTp hPow hSlu hMot hFio hCan hLin hNm hAq hNet hTow hLight hAps hPwr hImg hMem hFree cls) verb r s) s

theorem pend_frame (L : Region → Bool) (hWire : L .wire = true) (p : Nat) (s : State) :
    blank L (pend p s) = blank L s := by
  simp only [pend, modPq_frame, hWire]

theorem distrust_frame (L : Region → Bool) (hWire : L .wire = true) (p : Nat) (st : Status) (b : List Byte) (s : State) :
    blank L (distrust p st b s) = blank L s := by
  simp only [distrust, respondTo_frame, hWire]

theorem reject_frame (L : Region → Bool) (hWire : L .wire = true) (p : Nat) (st : Status) (b : List Byte) (s : State) :
    blank L (reject p st b s) = blank L s := by
  simp only [reject, respondTo_frame, hWire]

theorem truncated_frame (L : Region → Bool) (hWire : L .wire = true) (p : Nat) (b : List Byte) (s : State) :
    blank L (truncated p b s) = blank L s := by
  unfold truncated
  repeat' (first | with_reducible rfl | (simp only [bumpPq_frame, distrust_frame, pend_frame, reject_frame, hWire, apply_ite (blank L), ite_self]) | (with_reducible refine ite_frame _ ?_ ?_) | split)

theorem receive_frame (L : Region → Bool) (hSys : L .sys = true) (hCyc : L .cyc = true) (hStaged : L .staged = true) (hTide : L .tide = true) (hFv : L .fv = true) (hWire : L .wire = true) (hSafe : L .safe = true) (hDetect : L .detect = true) (hBreach : L .breach = true) (hPond : L .pond = true) (hTp : L .tp = true) (hPow : L .pow = true) (hSlu : L .slu = true) (hMot : L .mot = true) (hFio : L .fio = true) (hCan : L .can = true) (hLin : L .lin = true) (hNm : L .nm = true) (hAq : L .aq = true) (hNet : L .net = true) (hTow : L .tow = true) (hLight : L .light = true) (hAps : L .aps = true) (hPwr : L .pwr = true) (hImg : L .img = true) (hMem : L .mem = true) (hFree : L .free = true) (p : Nat) (b : List Byte) (s : State) :
    blank L (receive p b s) = blank L s := by
  unfold receive
  repeat' (first | with_reducible rfl | (simp only [bumpPq_frame, distrust_frame, pend_frame, received_frame, reject_frame, runFaval_frame, truncated_frame, hSys, hCyc, hStaged, hTide, hFv, hWire, hSafe, hDetect, hBreach, hPond, hTp, hPow, hSlu, hMot, hFio, hCan, hLin, hNm, hAq, hNet, hTow, hLight, hAps, hPwr, hImg, hMem, hFree, apply_ite (blank L), ite_self]) | (with_reducible refine ite_frame _ ?_ ?_) | split)

theorem execFavalGet_frame (L : Region → Bool) (hSys : L .sys = true) (hCyc : L .cyc = true) (hStaged : L .staged = true) (hTide : L .tide = true) (hFv : L .fv = true) (hWire : L .wire = true) (hSafe : L .safe = true) (hDetect : L .detect = true) (hBreach : L .breach = true) (hPond : L .pond = true) (hTp : L .tp = true) (hPow : L .pow = true) (hSlu : L .slu = true) (hMot : L .mot = true) (hFio : L .fio = true) (hCan : L .can = true) (hLin : L .lin = true) (hNm : L .nm = true) (hAq : L .aq = true) (hNet : L .net = true) (hTow : L .tow = true) (hLight : L .light = true) (hAps : L .aps = true) (hPwr : L .pwr = true) (hImg : L .img = true) (hMem : L .mem = true) (hFree : L .free = true) {cls : Nat} {r : Req} {s : State} {t9} (h : execFavalGet cls r s = .next t9) :
    blank L t9 = blank L s := by
  unfold execFavalGet at h
  injection h with h
  subst h
  repeat' (first | with_reducible rfl | (simp only [runFaval_frame, hSys, hCyc, hStaged, hTide, hFv, hWire, hSafe, hDetect, hBreach, hPond, hTp, hPow, hSlu, hMot, hFio, hCan, hLin, hNm, hAq, hNet, hTow, hLight, hAps, hPwr, hImg, hMem, hFree, apply_ite (blank L), ite_self]) | (with_reducible refine ite_frame _ ?_ ?_) | split)

theorem execFavalSub_frame (L : Region → Bool) (hSys : L .sys = true) (hCyc : L .cyc = true) (hStaged : L .staged = true) (hTide : L .tide = true) (hFv : L .fv = true) (hWire : L .wire = true) (hSafe : L .safe = true) (hDetect : L .detect = true) (hBreach : L .breach = true) (hPond : L .pond = true) (hTp : L .tp = true) (hPow : L .pow = true) (hSlu : L .slu = true) (hMot : L .mot = true) (hFio : L .fio = true) (hCan : L .can = true) (hLin : L .lin = true) (hNm : L .nm = true) (hAq : L .aq = true) (hNet : L .net = true) (hTow : L .tow = true) (hLight : L .light = true) (hAps : L .aps = true) (hPwr : L .pwr = true) (hImg : L .img = true) (hMem : L .mem = true) (hFree : L .free = true) {cls : Nat} {r : Req} {s : State} {t9} (h : execFavalSub cls r s = .next t9) :
    blank L t9 = blank L s := by
  unfold execFavalSub at h
  injection h with h
  subst h
  repeat' (first | with_reducible rfl | (simp only [runFaval_frame, hSys, hCyc, hStaged, hTide, hFv, hWire, hSafe, hDetect, hBreach, hPond, hTp, hPow, hSlu, hMot, hFio, hCan, hLin, hNm, hAq, hNet, hTow, hLight, hAps, hPwr, hImg, hMem, hFree, apply_ite (blank L), ite_self]) | (with_reducible refine ite_frame _ ?_ ?_) | split)

theorem execFavalUnsub_frame (L : Region → Bool) (hSys : L .sys = true) (hCyc : L .cyc = true) (hStaged : L .staged = true) (hTide : L .tide = true) (hFv : L .fv = true) (hWire : L .wire = true) (hSafe : L .safe = true) (hDetect : L .detect = true) (hBreach : L .breach = true) (hPond : L .pond = true) (hTp : L .tp = true) (hPow : L .pow = true) (hSlu : L .slu = true) (hMot : L .mot = true) (hFio : L .fio = true) (hCan : L .can = true) (hLin : L .lin = true) (hNm : L .nm = true) (hAq : L .aq = true) (hNet : L .net = true) (hTow : L .tow = true) (hLight : L .light = true) (hAps : L .aps = true) (hPwr : L .pwr = true) (hImg : L .img = true) (hMem : L .mem = true) (hFree : L .free = true) {cls : Nat} {r : Req} {s : State} {t9} (h : execFavalUnsub cls r s = .next t9) :
    blank L t9 = blank L s := by
  unfold execFavalUnsub at h
  injection h with h
  subst h
  repeat' (first | with_reducible rfl | (simp only [runFaval_frame, hSys, hCyc, hStaged, hTide, hFv, hWire, hSafe, hDetect, hBreach, hPond, hTp, hPow, hSlu, hMot, hFio, hCan, hLin, hNm, hAq, hNet, hTow, hLight, hAps, hPwr, hImg, hMem, hFree, apply_ite (blank L), ite_self]) | (with_reducible refine ite_frame _ ?_ ?_) | split)

theorem execFavalList_frame (L : Region → Bool) (hSys : L .sys = true) (hCyc : L .cyc = true) (hStaged : L .staged = true) (hTide : L .tide = true) (hFv : L .fv = true) (hWire : L .wire = true) (hSafe : L .safe = true) (hDetect : L .detect = true) (hBreach : L .breach = true) (hPond : L .pond = true) (hTp : L .tp = true) (hPow : L .pow = true) (hSlu : L .slu = true) (hMot : L .mot = true) (hFio : L .fio = true) (hCan : L .can = true) (hLin : L .lin = true) (hNm : L .nm = true) (hAq : L .aq = true) (hNet : L .net = true) (hTow : L .tow = true) (hLight : L .light = true) (hAps : L .aps = true) (hPwr : L .pwr = true) (hImg : L .img = true) (hMem : L .mem = true) (hFree : L .free = true) {cls : Nat} {r : Req} {s : State} {t9} (h : execFavalList cls r s = .next t9) :
    blank L t9 = blank L s := by
  unfold execFavalList at h
  injection h with h
  subst h
  repeat' (first | with_reducible rfl | (simp only [runFaval_frame, hSys, hCyc, hStaged, hTide, hFv, hWire, hSafe, hDetect, hBreach, hPond, hTp, hPow, hSlu, hMot, hFio, hCan, hLin, hNm, hAq, hNet, hTow, hLight, hAps, hPwr, hImg, hMem, hFree, apply_ite (blank L), ite_self]) | (with_reducible refine ite_frame _ ?_ ?_) | split)

theorem takeSlotAt_frame (L : Region → Bool) (hWire : L .wire = true) (p e : Nat) (s : State) :
    blank L (takeSlotAt p e s) = blank L s := by
  simp only [takeSlotAt, modPq_frame, modWin_frame, hWire]

theorem fetch_frame (L : Region → Bool) (hWire : L .wire = true) (e : Nat) (act : Nat → State → State)
    (ha : ∀ p s, blank L (act p s) = blank L s) (s : State) : blank L (fetch e act s) = blank L s := by
  unfold fetch
  repeat' (first | with_reducible rfl | (refine Eq.trans (ha _ _) ?_) | (simp only [takeSlotAt_frame, hWire]) | split)

theorem execCommandFetch_frame (L : Region → Bool) (hSys : L .sys = true) (hCyc : L .cyc = true) (hStaged : L .staged = true) (hTide : L .tide = true) (hFv : L .fv = true) (hWire : L .wire = true) (hSafe : L .safe = true) (hDetect : L .detect = true) (hBreach : L .breach = true) (hPond : L .pond = true) (hTp : L .tp = true) (hPow : L .pow = true) (hSlu : L .slu = true) (hMot : L .mot = true) (hFio : L .fio = true) (hCan : L .can = true) (hLin : L .lin = true) (hNm : L .nm = true) (hAq : L .aq = true) (hNet : L .net = true) (hTow : L .tow = true) (hLight : L .light = true) (hAps : L .aps = true) (hPwr : L .pwr = true) (hImg : L .img = true) (hMem : L .mem = true) (hFree : L .free = true) {e : Nat} {b : List Byte} {s : State} {t9} (h : execCommandFetch e b s = .next t9) :
    blank L t9 = blank L s := by
  obtain ⟨-, rfl⟩ := guardUnit_next h
  repeat' (first | with_reducible rfl | (refine fetch_frame L hWire _ _ (fun _ _ => ?_) _) | (simp only [receive_frame, hSys, hCyc, hStaged, hTide, hFv, hWire, hSafe, hDetect, hBreach, hPond, hTp, hPow, hSlu, hMot, hFio, hCan, hLin, hNm, hAq, hNet, hTow, hLight, hAps, hPwr, hImg, hMem, hFree, apply_ite (blank L), ite_self]) | (with_reducible refine ite_frame _ ?_ ?_) | split)

theorem execDesyncResponse_frame (L : Region → Bool) (hSys : L .sys = true) (hCyc : L .cyc = true) (hStaged : L .staged = true) (hTide : L .tide = true) (hFv : L .fv = true) (hWire : L .wire = true) (hSafe : L .safe = true) (hDetect : L .detect = true) (hBreach : L .breach = true) (hPond : L .pond = true) (hTp : L .tp = true) (hPow : L .pow = true) (hSlu : L .slu = true) (hMot : L .mot = true) (hFio : L .fio = true) (hCan : L .can = true) (hLin : L .lin = true) (hNm : L .nm = true) (hAq : L .aq = true) (hNet : L .net = true) (hTow : L .tow = true) (hLight : L .light = true) (hAps : L .aps = true) (hPwr : L .pwr = true) (hImg : L .img = true) (hMem : L .mem = true) (hFree : L .free = true) {p : Nat} {b : List Byte} {s : State} {t9} (h : execDesyncResponse p b s = .next t9) :
    blank L t9 = blank L s := by
  obtain ⟨-, rfl⟩ := guardUnit_next h
  repeat' (first | with_reducible rfl | (simp only [receive_frame, hSys, hCyc, hStaged, hTide, hFv, hWire, hSafe, hDetect, hBreach, hPond, hTp, hPow, hSlu, hMot, hFio, hCan, hLin, hNm, hAq, hNet, hTow, hLight, hAps, hPwr, hImg, hMem, hFree, apply_ite (blank L), ite_self]) | (with_reducible refine ite_frame _ ?_ ?_) | split)

theorem dropDesc_frame (L : Region → Bool) (hSys : L .sys = true) (hWire : L .wire = true) (hNet : L .net = true) (hMem : L .mem = true) (p k : Nat) (s : State) :
    blank L (dropDesc p k s) = blank L s := by
  unfold dropDesc
  repeat' (first | with_reducible rfl | (simp only [flushDone_frame, modHring_frame, pushDone_frame, writeBack_frame, hSys, hWire, hNet, hMem, apply_ite (blank L), ite_self]) | (with_reducible refine (foldl_pair_frame L _ (fun _ _ => ?_) _ _).trans ?_) | (with_reducible refine (foldl_frame L _ (fun _ _ => ?_) _ _).trans ?_) | (with_reducible refine ite_frame _ ?_ ?_) | split)

theorem execDmaReadTimeout_frame (L : Region → Bool) (hSys : L .sys = true) (hWire : L .wire = true) (hNet : L .net = true) (hMem : L .mem = true) {e k : Nat} {got : List Byte} {s : State} {t9} (h : execDmaReadTimeout e k got s = .next t9) :
    blank L t9 = blank L s := by
  obtain ⟨-, rfl⟩ := guardUnit_next h
  repeat' (first | with_reducible rfl | (refine fetch_frame L hWire _ _ (fun _ _ => ?_) _) | (simp only [dropDesc_frame, truncated_frame, hSys, hWire, hNet, hMem, apply_ite (blank L), ite_self]) | (with_reducible refine ite_frame _ ?_ ?_) | split)

theorem execDmaReadError_frame (L : Region → Bool) (hSys : L .sys = true) (hWire : L .wire = true) (hNet : L .net = true) (hMem : L .mem = true) {e k : Nat} {got : List Byte} {s : State} {t9} (h : execDmaReadError e k got s = .next t9) :
    blank L t9 = blank L s := by
  obtain ⟨-, rfl⟩ := guardUnit_next h
  repeat' (first | with_reducible rfl | (refine fetch_frame L hWire _ _ (fun _ _ => ?_) _) | (simp only [distrust_frame, dropDesc_frame, mbxError_frame, pend_frame, reject_frame, hSys, hWire, hNet, hMem, apply_ite (blank L), ite_self]) | (with_reducible refine ite_frame _ ?_ ?_) | split)

theorem takeRx_frame (L : Region → Bool) (hWire : L .wire = true) (p f : Nat) (s : State) :
    blank L (takeRx p f s) = blank L s := by
  unfold takeRx
  repeat' (first | with_reducible rfl | (simp only [modPq_frame, hWire, apply_ite (blank L), ite_self]) | (with_reducible refine ite_frame _ ?_ ?_) | split)

theorem ethMessage_frame (L : Region → Bool) (hSys : L .sys = true) (hCyc : L .cyc = true) (hStaged : L .staged = true) (hTide : L .tide = true) (hFv : L .fv = true) (hWire : L .wire = true) (hSafe : L .safe = true) (hDetect : L .detect = true) (hBreach : L .breach = true) (hPond : L .pond = true) (hTp : L .tp = true) (hPow : L .pow = true) (hSlu : L .slu = true) (hMot : L .mot = true) (hFio : L .fio = true) (hCan : L .can = true) (hLin : L .lin = true) (hNm : L .nm = true) (hAq : L .aq = true) (hNet : L .net = true) (hTow : L .tow = true) (hLight : L .light = true) (hAps : L .aps = true) (hPwr : L .pwr = true) (hImg : L .img = true) (hMem : L .mem = true) (hFree : L .free = true) (p : Nat) (d : EthDest) (b : List Byte) (s : State) :
    blank L (ethMessage p d b s) = blank L s := by
  unfold ethMessage
  repeat' (first | with_reducible rfl | (simp only [bumpPq_frame, distrust_frame, modPq_frame, pend_frame, receive_frame, reject_frame, hSys, hCyc, hStaged, hTide, hFv, hWire, hSafe, hDetect, hBreach, hPond, hTp, hPow, hSlu, hMot, hFio, hCan, hLin, hNm, hAq, hNet, hTow, hLight, hAps, hPwr, hImg, hMem, hFree, apply_ite (blank L), ite_self]) | (with_reducible refine ite_frame _ ?_ ?_) | split)

theorem segment_frame (L : Region → Bool) (hSys : L .sys = true) (hCyc : L .cyc = true) (hStaged : L .staged = true) (hTide : L .tide = true) (hFv : L .fv = true) (hWire : L .wire = true) (hSafe : L .safe = true) (hDetect : L .detect = true) (hBreach : L .breach = true) (hPond : L .pond = true) (hTp : L .tp = true) (hPow : L .pow = true) (hSlu : L .slu = true) (hMot : L .mot = true) (hFio : L .fio = true) (hCan : L .can = true) (hLin : L .lin = true) (hNm : L .nm = true) (hAq : L .aq = true) (hNet : L .net = true) (hTow : L .tow = true) (hLight : L .light = true) (hAps : L .aps = true) (hPwr : L .pwr = true) (hImg : L .img = true) (hMem : L .mem = true) (hFree : L .free = true) (p : Nat) (d : EthDest) (seg segs f : Nat) (b : List Byte) (s : State) :
    blank L (segment p d seg segs f b s) = blank L s := by
  unfold segment
  repeat' (first | with_reducible rfl | (simp only [bumpPq_frame, ethMessage_frame, modPq_frame, hSys, hCyc, hStaged, hTide, hFv, hWire, hSafe, hDetect, hBreach, hPond, hTp, hPow, hSlu, hMot, hFio, hCan, hLin, hNm, hAq, hNet, hTow, hLight, hAps, hPwr, hImg, hMem, hFree, apply_ite (blank L), ite_self]) | (with_reducible refine ite_frame _ ?_ ?_) | split)

theorem datagram_frame (L : Region → Bool) (hSys : L .sys = true) (hCyc : L .cyc = true) (hStaged : L .staged = true) (hTide : L .tide = true) (hFv : L .fv = true) (hWire : L .wire = true) (hSafe : L .safe = true) (hDetect : L .detect = true) (hBreach : L .breach = true) (hPond : L .pond = true) (hTp : L .tp = true) (hPow : L .pow = true) (hSlu : L .slu = true) (hMot : L .mot = true) (hFio : L .fio = true) (hCan : L .can = true) (hLin : L .lin = true) (hNm : L .nm = true) (hAq : L .aq = true) (hNet : L .net = true) (hTow : L .tow = true) (hLight : L .light = true) (hAps : L .aps = true) (hPwr : L .pwr = true) (hImg : L .img = true) (hMem : L .mem = true) (hFree : L .free = true) (d : EthDest) (u : List Byte) (s : State) :
    blank L (datagram d u s) = blank L s := by
  unfold datagram
  repeat' (first | with_reducible rfl | (simp only [bumpPq_frame, keyUse_frame, modPq_frame, pend_frame, respondTo_frame, segment_frame, takeRx_frame, hSys, hCyc, hStaged, hTide, hFv, hWire, hSafe, hDetect, hBreach, hPond, hTp, hPow, hSlu, hMot, hFio, hCan, hLin, hNm, hAq, hNet, hTow, hLight, hAps, hPwr, hImg, hMem, hFree, apply_ite (blank L), ite_self]) | (with_reducible refine ite_frame _ ?_ ?_) | split)

theorem execEthTransportDatagram_frame (L : Region → Bool) (hSys : L .sys = true) (hCyc : L .cyc = true) (hStaged : L .staged = true) (hTide : L .tide = true) (hFv : L .fv = true) (hWire : L .wire = true) (hSafe : L .safe = true) (hDetect : L .detect = true) (hBreach : L .breach = true) (hPond : L .pond = true) (hTp : L .tp = true) (hPow : L .pow = true) (hSlu : L .slu = true) (hMot : L .mot = true) (hFio : L .fio = true) (hCan : L .can = true) (hLin : L .lin = true) (hNm : L .nm = true) (hAq : L .aq = true) (hNet : L .net = true) (hTow : L .tow = true) (hLight : L .light = true) (hAps : L .aps = true) (hPwr : L .pwr = true) (hImg : L .img = true) (hMem : L .mem = true) (hFree : L .free = true) {s : State} {t9} (h : execEthTransportDatagram s = .next t9) :
    blank L t9 = blank L s := by
  unfold execEthTransportDatagram at h
  injection h with h
  subst h
  repeat' (first | with_reducible rfl | (simp only [datagram_frame, modNet_frame, hSys, hCyc, hStaged, hTide, hFv, hWire, hSafe, hDetect, hBreach, hPond, hTp, hPow, hSlu, hMot, hFio, hCan, hLin, hNm, hAq, hNet, hTow, hLight, hAps, hPwr, hImg, hMem, hFree, apply_ite (blank L), ite_self]) | (with_reducible refine ite_frame _ ?_ ?_) | split)

theorem execSegmentTimeout_frame (L : Region → Bool) (hWire : L .wire = true) {p : Nat} {s : State} {t9} (h : execSegmentTimeout p s = .next t9) :
    blank L t9 = blank L s := by
  obtain ⟨-, rfl⟩ := guardUnit_next h
  repeat' (first | with_reducible rfl | (simp only [modPq_frame, truncated_frame, hWire, apply_ite (blank L), ite_self]) | (with_reducible refine ite_frame _ ?_ ?_) | split)

theorem spiWrite_frame (L : Region → Bool) (hSys : L .sys = true) (hCyc : L .cyc = true) (hStaged : L .staged = true) (hTide : L .tide = true) (hFv : L .fv = true) (hWire : L .wire = true) (hSafe : L .safe = true) (hDetect : L .detect = true) (hBreach : L .breach = true) (hPond : L .pond = true) (hTp : L .tp = true) (hPow : L .pow = true) (hSlu : L .slu = true) (hMot : L .mot = true) (hFio : L .fio = true) (hCan : L .can = true) (hLin : L .lin = true) (hNm : L .nm = true) (hAq : L .aq = true) (hNet : L .net = true) (hTow : L .tow = true) (hLight : L .light = true) (hAps : L .aps = true) (hPwr : L .pwr = true) (hImg : L .img = true) (hMem : L .mem = true) (hFree : L .free = true) (p : Nat) (b : List Byte) (s : State) :
    blank L (spiWrite p b s) = blank L s := by
  unfold spiWrite
  repeat' (first | with_reducible rfl | (simp only [bumpPq_frame, modPq_frame, pend_frame, receive_frame, reject_frame, spiErr_frame, truncated_frame, hSys, hCyc, hStaged, hTide, hFv, hWire, hSafe, hDetect, hBreach, hPond, hTp, hPow, hSlu, hMot, hFio, hCan, hLin, hNm, hAq, hNet, hTow, hLight, hAps, hPwr, hImg, hMem, hFree, apply_ite (blank L), ite_self]) | (with_reducible refine ite_frame _ ?_ ?_) | split)

theorem execSpiWrite_frame (L : Region → Bool) (hSys : L .sys = true) (hCyc : L .cyc = true) (hStaged : L .staged = true) (hTide : L .tide = true) (hFv : L .fv = true) (hWire : L .wire = true) (hSafe : L .safe = true) (hDetect : L .detect = true) (hBreach : L .breach = true) (hPond : L .pond = true) (hTp : L .tp = true) (hPow : L .pow = true) (hSlu : L .slu = true) (hMot : L .mot = true) (hFio : L .fio = true) (hCan : L .can = true) (hLin : L .lin = true) (hNm : L .nm = true) (hAq : L .aq = true) (hNet : L .net = true) (hTow : L .tow = true) (hLight : L .light = true) (hAps : L .aps = true) (hPwr : L .pwr = true) (hImg : L .img = true) (hMem : L .mem = true) (hFree : L .free = true) {b : List Byte} {s : State} {t9} (h : execSpiWrite b s = .next t9) :
    blank L t9 = blank L s := by
  unfold execSpiWrite at h
  injection h with h
  subst h
  repeat' (first | with_reducible rfl | (simp only [spiWrite_frame, hSys, hCyc, hStaged, hTide, hFv, hWire, hSafe, hDetect, hBreach, hPond, hTp, hPow, hSlu, hMot, hFio, hCan, hLin, hNm, hAq, hNet, hTow, hLight, hAps, hPwr, hImg, hMem, hFree, apply_ite (blank L), ite_self]) | (with_reducible refine ite_frame _ ?_ ?_) | split)

theorem execSpiByteGap_frame (L : Region → Bool) (hSys : L .sys = true) (hCyc : L .cyc = true) (hStaged : L .staged = true) (hTide : L .tide = true) (hFv : L .fv = true) (hWire : L .wire = true) (hSafe : L .safe = true) (hDetect : L .detect = true) (hBreach : L .breach = true) (hPond : L .pond = true) (hTp : L .tp = true) (hPow : L .pow = true) (hSlu : L .slu = true) (hMot : L .mot = true) (hFio : L .fio = true) (hCan : L .can = true) (hLin : L .lin = true) (hNm : L .nm = true) (hAq : L .aq = true) (hNet : L .net = true) (hTow : L .tow = true) (hLight : L .light = true) (hAps : L .aps = true) (hPwr : L .pwr = true) (hImg : L .img = true) (hMem : L .mem = true) (hFree : L .free = true) {b : List Byte} {s : State} {t9} (h : execSpiByteGap b s = .next t9) :
    blank L t9 = blank L s := by
  unfold execSpiByteGap at h
  injection h with h
  subst h
  repeat' (first | with_reducible rfl | (simp only [spiWrite_frame, hSys, hCyc, hStaged, hTide, hFv, hWire, hSafe, hDetect, hBreach, hPond, hTp, hPow, hSlu, hMot, hFio, hCan, hLin, hNm, hAq, hNet, hTow, hLight, hAps, hPwr, hImg, hMem, hFree, apply_ite (blank L), ite_self]) | (with_reducible refine ite_frame _ ?_ ?_) | split)

end Sys2Proof.Machine
end

