-- ==== Sys2Proof/Laws/FrameTowFaval.lean ====
section
/-! SUPPORT. Frame lemmas of Machine/TowFaval.lean: what each operation leaves alone. -/
set_option linter.unusedSimpArgs false
set_option linter.unusedVariables false
namespace Sys2Proof.Machine

theorem consume_frame (L : Region → Bool) (hTow : L .tow = true) (f : TowFrame) (s : State) :
    blank L (consume f s) = blank L s := by
  unfold consume
  repeat' (first | with_reducible rfl | (simp only [owe_frame, hTow, apply_ite (blank L), ite_self]) | (with_reducible refine ite_frame _ ?_ ?_) | split)

theorem takeEth_frame (L : Region → Bool) (hNet : L .net = true) (x : Nat) (n : NetFrame) (s : State) :
    blank L (takeEth x n s) = blank L s := by
  unfold takeEth
  repeat' (first | with_reducible rfl | (simp only [toBasin_frame, hNet, apply_ite (blank L), ite_self]) | (with_reducible refine ite_frame _ ?_ ?_) | split)

theorem takeRecord_frame (L : Region → Bool) (hAq : L .aq = true) (src route : Nat) (a : AqFrame) (s : State) :
    blank L (takeRecord src route a s) = blank L s := by
  simp only [takeRecord, modAq_frame, hAq]

theorem takeCommand_frame (L : Region → Bool) (hSys : L .sys = true) (hCyc : L .cyc = true) (hStaged : L .staged = true) (hTide : L .tide = true) (hFv : L .fv = true) (hWire : L .wire = true) (hSafe : L .safe = true) (hDetect : L .detect = true) (hBreach : L .breach = true) (hPond : L .pond = true) (hTp : L .tp = true) (hPow : L .pow = true) (hSlu : L .slu = true) (hMot : L .mot = true) (hFio : L .fio = true) (hCan : L .can = true) (hLin : L .lin = true) (hNm : L .nm = true) (hAq : L .aq = true) (hNet : L .net = true) (hTow : L .tow = true) (hLight : L .light = true) (hAps : L .aps = true) (hPwr : L .pwr = true) (hImg : L .img = true) (hMem : L .mem = true) (hFree : L .free = true) (cls verb : Nat) (r : Req) (s : State) :
    blank L (takeCommand cls verb r s) = blank L s := by
  unfold takeCommand
  repeat' (first | with_reducible rfl | (simp only [runFaval_frame, hSys, hCyc, hStaged, hTide, hFv, hWire, hSafe, hDetect, hBreach, hPond, hTp, hPow, hSlu, hMot, hFio, hCan, hLin, hNm, hAq, hNet, hTow, hLight, hAps, hPwr, hImg, hMem, hFree, apply_ite (blank L), ite_self]) | (with_reducible refine ite_frame _ ?_ ?_) | split)

theorem periodConfirmed_frame (L : Region → Bool) (hCyc : L .cyc = true) (hWire : L .wire = true) (a : Nat) (s : State) :
    blank L (periodConfirmed a s) = blank L s := by
  unfold periodConfirmed
  repeat' (first | with_reducible rfl | ((with_reducible refine Eq.trans (modCyc_part L _ _ ?_) ?_); (next => exact fun _ => by simp only [blankCyc, hCyc, if_true])) | (simp only [answerSame_frame, hCyc, hWire, apply_ite (blank L), ite_self]) | (with_reducible refine (foldl_pair_frame L _ (fun _ _ => ?_) _ _).trans ?_) | (with_reducible refine (foldl_frame L _ (fun _ _ => ?_) _ _).trans ?_) | (with_reducible refine ite_frame _ ?_ ?_) | split)

theorem ownAnswered_frame (L : Region → Bool) (hCyc : L .cyc = true) (hWire : L .wire = true) (hTow : L .tow = true) (hImg : L .img = true) (a cls : Nat) (ok : Bool) (s : State) :
    blank L (ownAnswered a cls ok s) = blank L s := by
  unfold ownAnswered
  repeat' (first | with_reducible rfl | (simp only [confirmAct_frame, periodConfirmed_frame, hCyc, hWire, hTow, hImg, apply_ite (blank L), ite_self]) | (with_reducible refine ite_frame _ ?_ ?_) | split)

theorem subAnswered_frame (L : Region → Bool) (hFv : L .fv = true) (hWire : L .wire = true) (id : Nat) (m : Msg) (s : State) :
    blank L (subAnswered id m s) = blank L s := by
  unfold subAnswered
  repeat' (first | with_reducible rfl | (simp only [modFv_frame, hFv, hWire, apply_ite (blank L), ite_self]) | (with_reducible refine ite_frame _ ?_ ?_) | split)

theorem takeResponse_frame (L : Region → Bool) (hCyc : L .cyc = true) (hFv : L .fv = true) (hWire : L .wire = true) (hTow : L .tow = true) (hImg : L .img = true) (a : Nat) (m : Msg) (s : State) :
    blank L (takeResponse a m s) = blank L s := by
  unfold takeResponse
  repeat' (first | with_reducible rfl | (simp only [modBarge_frame, ownAnswered_frame, respond_frame, subAnswered_frame, hCyc, hFv, hWire, hTow, hImg, apply_ite (blank L), ite_self]) | (with_reducible refine ite_frame _ ?_ ?_) | split)

theorem takeNote_frame (L : Region → Bool) (hWire : L .wire = true) (a : Nat) (e : Evt) (s : State) :
    blank L (takeNote a e s) = blank L s := by
  unfold takeNote
  repeat' (first | with_reducible rfl | (simp only [place_frame, hWire, apply_ite (blank L), ite_self]) | (with_reducible refine (foldl_pair_frame L _ (fun _ _ => ?_) _ _).trans ?_) | (with_reducible refine (foldl_frame L _ (fun _ _ => ?_) _ _).trans ?_) | (with_reducible refine ite_frame _ ?_ ?_) | split)

theorem takeLate_frame (L : Region → Bool) (hWire : L .wire = true) (hTow : L .tow = true) (a tag st : Nat) (s : State) :
    blank L (takeLate a tag st s) = blank L s := by
  unfold takeLate
  repeat' (first | with_reducible rfl | (simp only [modBarge_frame, postedFailed_frame, hWire, hTow, apply_ite (blank L), ite_self]) | (with_reducible refine ite_frame _ ?_ ?_) | split)

theorem takeBadBlock_frame (L : Region → Bool) (hWire : L .wire = true) (hTow : L .tow = true) (a k : Nat) (s : State) :
    blank L (takeBadBlock a k s) = blank L s := by
  unfold takeBadBlock
  repeat' (first | with_reducible rfl | (with_reducible refine Eq.trans (towSend_frame_eq L hWire hTow (by with_reducible assumption)) ?_) | (simp only [loadFailed_frame, modBarge_frame, towSend_frame, hWire, hTow, apply_ite (blank L), ite_self]) | (with_reducible refine ite_frame _ ?_ ?_) | split)

theorem takeBlock_frame (L : Region → Bool) (hWire : L .wire = true) (hTow : L .tow = true) (k n : Nat) (bad : Bool) (s : State) :
    blank L (takeBlock k n bad s) = blank L s := by
  unfold takeBlock
  repeat' (first | with_reducible rfl | (with_reducible refine Eq.trans (towSend_frame_eq L hWire hTow (by with_reducible assumption)) ?_) | (simp only [modTow_frame, towSend_frame, hWire, hTow, apply_ite (blank L), ite_self]) | (with_reducible refine ite_frame _ ?_ ?_) | split)

theorem takeChart_frame (L : Region → Bool) (hSys : L .sys = true) (hTp : L .tp = true) (hTow : L .tow = true) (hImg : L .img = true) (hMem : L .mem = true) (l : List ChartItem) (t : TpTable) (s : State) :
    blank L (takeChart l t s) = blank L s := by
  unfold takeChart
  repeat' (first | with_reducible rfl | (simp only [modSlotImg_frame, modTow_frame, writeTable_frame, hSys, hTp, hTow, hImg, hMem, apply_ite (blank L), ite_self]) | (with_reducible refine ite_frame _ ?_ ?_) | split)

theorem takeBody_frame (L : Region → Bool) (hSys : L .sys = true) (hCyc : L .cyc = true) (hStaged : L .staged = true) (hTide : L .tide = true) (hFv : L .fv = true) (hWire : L .wire = true) (hSafe : L .safe = true) (hDetect : L .detect = true) (hBreach : L .breach = true) (hPond : L .pond = true) (hTp : L .tp = true) (hPow : L .pow = true) (hSlu : L .slu = true) (hMot : L .mot = true) (hFio : L .fio = true) (hCan : L .can = true) (hLin : L .lin = true) (hNm : L .nm = true) (hAq : L .aq = true) (hNet : L .net = true) (hTow : L .tow = true) (hLight : L .light = true) (hAps : L .aps = true) (hPwr : L .pwr = true) (hImg : L .img = true) (hMem : L .mem = true) (hFree : L .free = true) (f : TowFrame) (s : State) :
    blank L (takeBody f s) = blank L s := by
  unfold takeBody
  repeat' (first | with_reducible rfl | (simp only [takeBadBlock_frame, takeBlock_frame, takeChart_frame, takeCommand_frame, takeEth_frame, takeLate_frame, takeNote_frame, takeRecord_frame, takeResponse_frame, hSys, hCyc, hStaged, hTide, hFv, hWire, hSafe, hDetect, hBreach, hPond, hTp, hPow, hSlu, hMot, hFio, hCan, hLin, hNm, hAq, hNet, hTow, hLight, hAps, hPwr, hImg, hMem, hFree, apply_ite (blank L), ite_self]) | (with_reducible refine ite_frame _ ?_ ?_) | split)

theorem release_frame (L : Region → Bool) (hSys : L .sys = true) (hCyc : L .cyc = true) (hStaged : L .staged = true) (hTide : L .tide = true) (hFv : L .fv = true) (hWire : L .wire = true) (hSafe : L .safe = true) (hDetect : L .detect = true) (hBreach : L .breach = true) (hPond : L .pond = true) (hTp : L .tp = true) (hPow : L .pow = true) (hSlu : L .slu = true) (hMot : L .mot = true) (hFio : L .fio = true) (hCan : L .can = true) (hLin : L .lin = true) (hNm : L .nm = true) (hAq : L .aq = true) (hNet : L .net = true) (hTow : L .tow = true) (hLight : L .light = true) (hAps : L .aps = true) (hPwr : L .pwr = true) (hImg : L .img = true) (hMem : L .mem = true) (hFree : L .free = true) (f : TowFrame) (s : State) :
    blank L (release f s) = blank L s := by
  simp only [release, consume_frame, takeBody_frame, hSys, hCyc, hStaged, hTide, hFv, hWire, hSafe, hDetect, hBreach, hPond, hTp, hPow, hSlu, hMot, hFio, hCan, hLin, hNm, hAq, hNet, hTow, hLight, hAps, hPwr, hImg, hMem, hFree]

theorem countVia_frame (L : Region → Bool) (hWire : L .wire = true) (hTow : L .tow = true) (f : TowFrame) (k n : Nat) (s : State) :
    blank L (countVia f k n s) = blank L s := by
  unfold countVia
  repeat' (first | with_reducible rfl | (simp only [countTow_frame, hWire, hTow, apply_ite (blank L), ite_self]) | (with_reducible refine ite_frame _ ?_ ?_) | split)

theorem towRun_frame (L : Region → Bool) (hSys : L .sys = true) (hCyc : L .cyc = true) (hStaged : L .staged = true) (hTide : L .tide = true) (hFv : L .fv = true) (hWire : L .wire = true) (hSafe : L .safe = true) (hDetect : L .detect = true) (hBreach : L .breach = true) (hPond : L .pond = true) (hTp : L .tp = true) (hPow : L .pow = true) (hSlu : L .slu = true) (hMot : L .mot = true) (hFio : L .fio = true) (hCan : L .can = true) (hLin : L .lin = true) (hNm : L .nm = true) (hAq : L .aq = true) (hNet : L .net = true) (hTow : L .tow = true) (hLight : L .light = true) (hAps : L .aps = true) (hPwr : L .pwr = true) (hImg : L .img = true) (hMem : L .mem = true) (hFree : L .free = true) (k n : Nat) (s : State) :
    blank L (towRun k n s) = blank L s := by
  induction n generalizing s with
  | zero => rfl
  | succ n ih =>
    unfold towRun
    repeat' (first | with_reducible rfl | (simp only [ih, modTowReseq_frame, release_frame, hSys, hCyc, hStaged, hTide, hFv, hWire, hSafe, hDetect, hBreach, hPond, hTp, hPow, hSlu, hMot, hFio, hCan, hLin, hNm, hAq, hNet, hTow, hLight, hAps, hPwr, hImg, hMem, hFree, apply_ite (blank L), ite_self]) | (with_reducible refine ite_frame _ ?_ ?_) | split)

theorem towReleaseAll_frame (L : Region → Bool) (hSys : L .sys = true) (hCyc : L .cyc = true) (hStaged : L .staged = true) (hTide : L .tide = true) (hFv : L .fv = true) (hWire : L .wire = true) (hSafe : L .safe = true) (hDetect : L .detect = true) (hBreach : L .breach = true) (hPond : L .pond = true) (hTp : L .tp = true) (hPow : L .pow = true) (hSlu : L .slu = true) (hMot : L .mot = true) (hFio : L .fio = true) (hCan : L .can = true) (hLin : L .lin = true) (hNm : L .nm = true) (hAq : L .aq = true) (hNet : L .net = true) (hTow : L .tow = true) (hLight : L .light = true) (hAps : L .aps = true) (hPwr : L .pwr = true) (hImg : L .img = true) (hMem : L .mem = true) (hFree : L .free = true) (k : Nat) (s : State) :
    blank L (towReleaseAll k s) = blank L s := by
  unfold towReleaseAll
  repeat' (first | with_reducible rfl | (simp only [countVia_frame, modTowReseq_frame, release_frame, hSys, hCyc, hStaged, hTide, hFv, hWire, hSafe, hDetect, hBreach, hPond, hTp, hPow, hSlu, hMot, hFio, hCan, hLin, hNm, hAq, hNet, hTow, hLight, hAps, hPwr, hImg, hMem, hFree, apply_ite (blank L), ite_self]) | (with_reducible refine (foldl_pair_frame L _ (fun _ _ => ?_) _ _).trans ?_) | (with_reducible refine (foldl_frame L _ (fun _ _ => ?_) _ _).trans ?_) | (with_reducible refine ite_frame _ ?_ ?_) | split)

theorem towResequence_frame (L : Region → Bool) (hSys : L .sys = true) (hCyc : L .cyc = true) (hStaged : L .staged = true) (hTide : L .tide = true) (hFv : L .fv = true) (hWire : L .wire = true) (hSafe : L .safe = true) (hDetect : L .detect = true) (hBreach : L .breach = true) (hPond : L .pond = true) (hTp : L .tp = true) (hPow : L .pow = true) (hSlu : L .slu = true) (hMot : L .mot = true) (hFio : L .fio = true) (hCan : L .can = true) (hLin : L .lin = true) (hNm : L .nm = true) (hAq : L .aq = true) (hNet : L .net = true) (hTow : L .tow = true) (hLight : L .light = true) (hAps : L .aps = true) (hPwr : L .pwr = true) (hImg : L .img = true) (hMem : L .mem = true) (hFree : L .free = true) (f : TowFrame) (s : State) :
    blank L (towResequence f s) = blank L s := by
  unfold towResequence
  repeat' (first | with_reducible rfl | (simp only [consume_frame, countVia_frame, modTowReseq_frame, release_frame, towReleaseAll_frame, towRun_frame, hSys, hCyc, hStaged, hTide, hFv, hWire, hSafe, hDetect, hBreach, hPond, hTp, hPow, hSlu, hMot, hFio, hCan, hLin, hNm, hAq, hNet, hTow, hLight, hAps, hPwr, hImg, hMem, hFree, apply_ite (blank L), ite_self]) | (with_reducible refine ite_frame _ ?_ ?_) | split)

theorem towReopen_frame (L : Region → Bool) (hSys : L .sys = true) (hCyc : L .cyc = true) (hStaged : L .staged = true) (hTide : L .tide = true) (hFv : L .fv = true) (hWire : L .wire = true) (hSafe : L .safe = true) (hDetect : L .detect = true) (hBreach : L .breach = true) (hPond : L .pond = true) (hTp : L .tp = true) (hPow : L .pow = true) (hSlu : L .slu = true) (hMot : L .mot = true) (hFio : L .fio = true) (hCan : L .can = true) (hLin : L .lin = true) (hNm : L .nm = true) (hAq : L .aq = true) (hNet : L .net = true) (hTow : L .tow = true) (hLight : L .light = true) (hAps : L .aps = true) (hPwr : L .pwr = true) (hImg : L .img = true) (hMem : L .mem = true) (hFree : L .free = true) (s : State) :
    blank L (towReopen s) = blank L s := by
  unfold towReopen
  repeat' (first | with_reducible rfl | (simp only [towRun_frame, hSys, hCyc, hStaged, hTide, hFv, hWire, hSafe, hDetect, hBreach, hPond, hTp, hPow, hSlu, hMot, hFio, hCan, hLin, hNm, hAq, hNet, hTow, hLight, hAps, hPwr, hImg, hMem, hFree, apply_ite (blank L), ite_self]) | (with_reducible refine (foldl_pair_frame L _ (fun _ _ => ?_) _ _).trans ?_) | (with_reducible refine (foldl_frame L _ (fun _ _ => ?_) _ _).trans ?_) | (with_reducible refine ite_frame _ ?_ ?_) | split)

theorem towForward_frame (L : Region → Bool) (hWire : L .wire = true) (hTow : L .tow = true) (x : Nat) (f : TowFrame) (s : State) :
    blank L (towForward x f s) = blank L s := by
  unfold towForward
  repeat' (first | with_reducible rfl | (simp only [consume_frame, towPut_frame, hWire, hTow, apply_ite (blank L), ite_self]) | (with_reducible refine ite_frame _ ?_ ?_) | split)

theorem towTake_frame (L : Region → Bool) (hSys : L .sys = true) (hCyc : L .cyc = true) (hStaged : L .staged = true) (hTide : L .tide = true) (hFv : L .fv = true) (hWire : L .wire = true) (hSafe : L .safe = true) (hDetect : L .detect = true) (hBreach : L .breach = true) (hPond : L .pond = true) (hTp : L .tp = true) (hPow : L .pow = true) (hSlu : L .slu = true) (hMot : L .mot = true) (hFio : L .fio = true) (hCan : L .can = true) (hLin : L .lin = true) (hNm : L .nm = true) (hAq : L .aq = true) (hNet : L .net = true) (hTow : L .tow = true) (hLight : L .light = true) (hAps : L .aps = true) (hPwr : L .pwr = true) (hImg : L .img = true) (hMem : L .mem = true) (hFree : L .free = true) (x : Nat) (f : TowFrame) (s : State) :
    blank L (towTake x f s) = blank L s := by
  unfold towTake
  repeat' (first | with_reducible rfl | (simp only [consume_frame, release_frame, takeBody_frame, towForward_frame, towPut_frame, towResequence_frame, hSys, hCyc, hStaged, hTide, hFv, hWire, hSafe, hDetect, hBreach, hPond, hTp, hPow, hSlu, hMot, hFio, hCan, hLin, hNm, hAq, hNet, hTow, hLight, hAps, hPwr, hImg, hMem, hFree, apply_ite (blank L), ite_self]) | (with_reducible refine ite_frame _ ?_ ?_) | split)

theorem onTow_frame (L : Region → Bool) (hSys : L .sys = true) (hCyc : L .cyc = true) (hStaged : L .staged = true) (hTide : L .tide = true) (hFv : L .fv = true) (hWire : L .wire = true) (hSafe : L .safe = true) (hDetect : L .detect = true) (hBreach : L .breach = true) (hPond : L .pond = true) (hTp : L .tp = true) (hPow : L .pow = true) (hSlu : L .slu = true) (hMot : L .mot = true) (hFio : L .fio = true) (hCan : L .can = true) (hLin : L .lin = true) (hNm : L .nm = true) (hAq : L .aq = true) (hNet : L .net = true) (hTow : L .tow = true) (hLight : L .light = true) (hAps : L .aps = true) (hPwr : L .pwr = true) (hImg : L .img = true) (hMem : L .mem = true) (hFree : L .free = true) {x chk : Nat} {bad : Bool} {ok : TowBody → Bool} {f : TowFrame} {s t : State}
    (h : onTow x chk bad ok f s = .next t) : blank L t = blank L s := by
  obtain ⟨-, rfl⟩ := guardUnit_next h
  repeat' (first | with_reducible rfl | (with_reducible refine Eq.trans (towArrive_frame_eq L hWire hDetect hTow (by with_reducible assumption)) ?_) | (simp only [bargeFlush_frame, towArrive_frame, towTake_frame, hSys, hCyc, hStaged, hTide, hFv, hWire, hSafe, hDetect, hBreach, hPond, hTp, hPow, hSlu, hMot, hFio, hCan, hLin, hNm, hAq, hNet, hTow, hLight, hAps, hPwr, hImg, hMem, hFree, apply_ite (blank L), ite_self]) | (with_reducible refine ite_frame _ ?_ ?_) | split)

theorem execDataFrameReceived_frame (L : Region → Bool) (hSys : L .sys = true) (hCyc : L .cyc = true) (hStaged : L .staged = true) (hTide : L .tide = true) (hFv : L .fv = true) (hWire : L .wire = true) (hSafe : L .safe = true) (hDetect : L .detect = true) (hBreach : L .breach = true) (hPond : L .pond = true) (hTp : L .tp = true) (hPow : L .pow = true) (hSlu : L .slu = true) (hMot : L .mot = true) (hFio : L .fio = true) (hCan : L .can = true) (hLin : L .lin = true) (hNm : L .nm = true) (hAq : L .aq = true) (hNet : L .net = true) (hTow : L .tow = true) (hLight : L .light = true) (hAps : L .aps = true) (hPwr : L .pwr = true) (hImg : L .img = true) (hMem : L .mem = true) (hFree : L .free = true) {x chk : Nat} {f : TowFrame} {s : State} {t9} (h : execDataFrameReceived x chk f s = .next t9) :
    blank L t9 = blank L s := by
  exact onTow_frame L hSys hCyc hStaged hTide hFv hWire hSafe hDetect hBreach hPond hTp hPow hSlu hMot hFio hCan hLin hNm hAq hNet hTow hLight hAps hPwr hImg hMem hFree h

theorem execFavalFrameReceived_frame (L : Region → Bool) (hSys : L .sys = true) (hCyc : L .cyc = true) (hStaged : L .staged = true) (hTide : L .tide = true) (hFv : L .fv = true) (hWire : L .wire = true) (hSafe : L .safe = true) (hDetect : L .detect = true) (hBreach : L .breach = true) (hPond : L .pond = true) (hTp : L .tp = true) (hPow : L .pow = true) (hSlu : L .slu = true) (hMot : L .mot = true) (hFio : L .fio = true) (hCan : L .can = true) (hLin : L .lin = true) (hNm : L .nm = true) (hAq : L .aq = true) (hNet : L .net = true) (hTow : L .tow = true) (hLight : L .light = true) (hAps : L .aps = true) (hPwr : L .pwr = true) (hImg : L .img = true) (hMem : L .mem = true) (hFree : L .free = true) {x chk : Nat} {f : TowFrame} {s : State} {t9} (h : execFavalFrameReceived x chk f s = .next t9) :
    blank L t9 = blank L s := by
  exact onTow_frame L hSys hCyc hStaged hTide hFv hWire hSafe hDetect hBreach hPond hTp hPow hSlu hMot hFio hCan hLin hNm hAq hNet hTow hLight hAps hPwr hImg hMem hFree h

theorem execPostFrameReceived_frame (L : Region → Bool) (hSys : L .sys = true) (hCyc : L .cyc = true) (hStaged : L .staged = true) (hTide : L .tide = true) (hFv : L .fv = true) (hWire : L .wire = true) (hSafe : L .safe = true) (hDetect : L .detect = true) (hBreach : L .breach = true) (hPond : L .pond = true) (hTp : L .tp = true) (hPow : L .pow = true) (hSlu : L .slu = true) (hMot : L .mot = true) (hFio : L .fio = true) (hCan : L .can = true) (hLin : L .lin = true) (hNm : L .nm = true) (hAq : L .aq = true) (hNet : L .net = true) (hTow : L .tow = true) (hLight : L .light = true) (hAps : L .aps = true) (hPwr : L .pwr = true) (hImg : L .img = true) (hMem : L .mem = true) (hFree : L .free = true) {x chk : Nat} {f : TowFrame} {bad : Bool} {s : State} {t9} (h : execPostFrameReceived x chk f bad s = .next t9) :
    blank L t9 = blank L s := by
  exact onTow_frame L hSys hCyc hStaged hTide hFv hWire hSafe hDetect hBreach hPond hTp hPow hSlu hMot hFio hCan hLin hNm hAq hNet hTow hLight hAps hPwr hImg hMem hFree h

theorem execNoteFrameReceived_frame (L : Region → Bool) (hSys : L .sys = true) (hCyc : L .cyc = true) (hStaged : L .staged = true) (hTide : L .tide = true) (hFv : L .fv = true) (hWire : L .wire = true) (hSafe : L .safe = true) (hDetect : L .detect = true) (hBreach : L .breach = true) (hPond : L .pond = true) (hTp : L .tp = true) (hPow : L .pow = true) (hSlu : L .slu = true) (hMot : L .mot = true) (hFio : L .fio = true) (hCan : L .can = true) (hLin : L .lin = true) (hNm : L .nm = true) (hAq : L .aq = true) (hNet : L .net = true) (hTow : L .tow = true) (hLight : L .light = true) (hAps : L .aps = true) (hPwr : L .pwr = true) (hImg : L .img = true) (hMem : L .mem = true) (hFree : L .free = true) {x chk : Nat} {f : TowFrame} {s : State} {t9} (h : execNoteFrameReceived x chk f s = .next t9) :
    blank L t9 = blank L s := by
  exact onTow_frame L hSys hCyc hStaged hTide hFv hWire hSafe hDetect hBreach hPond hTp hPow hSlu hMot hFio hCan hLin hNm hAq hNet hTow hLight hAps hPwr hImg hMem hFree h

theorem execLateFrameReceived_frame (L : Region → Bool) (hSys : L .sys = true) (hCyc : L .cyc = true) (hStaged : L .staged = true) (hTide : L .tide = true) (hFv : L .fv = true) (hWire : L .wire = true) (hSafe : L .safe = true) (hDetect : L .detect = true) (hBreach : L .breach = true) (hPond : L .pond = true) (hTp : L .tp = true) (hPow : L .pow = true) (hSlu : L .slu = true) (hMot : L .mot = true) (hFio : L .fio = true) (hCan : L .can = true) (hLin : L .lin = true) (hNm : L .nm = true) (hAq : L .aq = true) (hNet : L .net = true) (hTow : L .tow = true) (hLight : L .light = true) (hAps : L .aps = true) (hPwr : L .pwr = true) (hImg : L .img = true) (hMem : L .mem = true) (hFree : L .free = true) {x chk : Nat} {f : TowFrame} {s : State} {t9} (h : execLateFrameReceived x chk f s = .next t9) :
    blank L t9 = blank L s := by
  exact onTow_frame L hSys hCyc hStaged hTide hFv hWire hSafe hDetect hBreach hPond hTp hPow hSlu hMot hFio hCan hLin hNm hAq hNet hTow hLight hAps hPwr hImg hMem hFree h

theorem execTowlineReseqTimeout_frame (L : Region → Bool) (hSys : L .sys = true) (hCyc : L .cyc = true) (hStaged : L .staged = true) (hTide : L .tide = true) (hFv : L .fv = true) (hWire : L .wire = true) (hSafe : L .safe = true) (hDetect : L .detect = true) (hBreach : L .breach = true) (hPond : L .pond = true) (hTp : L .tp = true) (hPow : L .pow = true) (hSlu : L .slu = true) (hMot : L .mot = true) (hFio : L .fio = true) (hCan : L .can = true) (hLin : L .lin = true) (hNm : L .nm = true) (hAq : L .aq = true) (hNet : L .net = true) (hTow : L .tow = true) (hLight : L .light = true) (hAps : L .aps = true) (hPwr : L .pwr = true) (hImg : L .img = true) (hMem : L .mem = true) (hFree : L .free = true) {src v : Nat} {s : State} {t9} (h : execTowlineReseqTimeout src v s = .next t9) :
    blank L t9 = blank L s := by
  obtain ⟨-, rfl⟩ := guardUnit_next h
  repeat' (first | with_reducible rfl | (simp only [bargeFlush_frame, towReleaseAll_frame, hSys, hCyc, hStaged, hTide, hFv, hWire, hSafe, hDetect, hBreach, hPond, hTp, hPow, hSlu, hMot, hFio, hCan, hLin, hNm, hAq, hNet, hTow, hLight, hAps, hPwr, hImg, hMem, hFree, apply_ite (blank L), ite_self]) | (with_reducible refine ite_frame _ ?_ ?_) | split)

end Sys2Proof.Machine
end

