-- ==== Sys2Proof/Laws/FrameCycle.lean ====
section
/-! SUPPORT. Frame lemmas of Machine/Cycle.lean: what each operation leaves alone. -/
set_option linter.unusedSimpArgs false
set_option linter.unusedVariables false
namespace Sys2Proof.Machine

theorem inPhase_frame (L : Region → Bool) {s t : State} (act : State → State)
    (ha : ∀ s, blank L (act s) = blank L s) (h : inPhase act s = .next t) : blank L t = blank L s := by
  unfold inPhase at h
  injection h with h
  subst h
  split
  · exact ha s
  · rfl

theorem execFillPhase_frame (L : Region → Bool) (hCyc : L .cyc = true) (hWire : L .wire = true) (hDetect : L .detect = true) (hPow : L .pow = true) (hSlu : L .slu = true) (hMot : L .mot = true) (hFio : L .fio = true) {x : Samples} {s : State} {t9} (h : execFillPhase x s = .next t9) :
    blank L t9 = blank L s := by
  refine inPhase_frame L _ (fun _ => ?_) h
  repeat' (first | with_reducible rfl | ((with_reducible refine Eq.trans (modCyc_part L _ _ ?_) ?_); (next => exact fun _ => by simp only [blankCyc, hCyc, if_true])) | (simp only [fillFo_frame, fillIn_frame, fillPower_frame, hCyc, hWire, hDetect, hPow, hSlu, hMot, hFio, apply_ite (blank L), ite_self]) | (with_reducible refine ite_frame _ ?_ ?_) | split)

theorem execLevelPhase_frame (L : Region → Bool) (hCyc : L .cyc = true) (hWire : L .wire = true) (hDetect : L .detect = true) (hPond : L .pond = true) (hPow : L .pow = true) (hSlu : L .slu = true) (hFio : L .fio = true) (hPwr : L .pwr = true) {s : State} {t9} (h : execLevelPhase s = .next t9) :
    blank L t9 = blank L s := by
  refine inPhase_frame L _ (fun _ => ?_) h
  repeat' (first | with_reducible rfl | ((with_reducible refine Eq.trans (modCyc_part L _ _ ?_) ?_); (next => exact fun _ => by simp only [blankCyc, hCyc, if_true])) | (simp only [levelField_frame, levelSluice_frame, segWear_frame, hCyc, hWire, hDetect, hPond, hPow, hSlu, hFio, hPwr, apply_ite (blank L), ite_self]) | (with_reducible refine ite_frame _ ?_ ?_) | split)

theorem execLevelCompletionSignal_frame (L : Region → Bool) (hCyc : L .cyc = true) (hSlu : L .slu = true) (hImg : L .img = true) {k : Nat} {s : State} {t9} (h : execLevelCompletionSignal k s = .next t9) :
    blank L t9 = blank L s := by
  obtain ⟨-, rfl⟩ := guardUnit_next h
  repeat' (first | with_reducible rfl | ((with_reducible refine Eq.trans (modCyc_part L _ _ ?_) ?_); (next => exact fun _ => by simp only [blankCyc, hCyc, if_true])) | (simp only [modImg_frame, modSlu_frame, hCyc, hSlu, hImg, apply_ite (blank L), ite_self]) | (with_reducible refine ite_frame _ ?_ ?_) | split)

theorem foldHandBack_frame (L : Region → Bool) (hTp : L .tp = true) (s : State) :
    blank L (foldHandBack s) = blank L s := by
  unfold foldHandBack
  repeat' (first | with_reducible rfl | (simp only [modTp_frame, hTp, apply_ite (blank L), ite_self]) | (with_reducible refine ite_frame _ ?_ ?_) | split)

theorem execApplyPhase_frame (L : Region → Bool) (hSys : L .sys = true) (hCyc : L .cyc = true) (hStaged : L .staged = true) (hTide : L .tide = true) (hFv : L .fv = true) (hWire : L .wire = true) (hSafe : L .safe = true) (hDetect : L .detect = true) (hBreach : L .breach = true) (hPond : L .pond = true) (hTp : L .tp = true) (hPow : L .pow = true) (hSlu : L .slu = true) (hMot : L .mot = true) (hFio : L .fio = true) (hCan : L .can = true) (hLin : L .lin = true) (hNm : L .nm = true) (hAq : L .aq = true) (hNet : L .net = true) (hTow : L .tow = true) (hLight : L .light = true) (hAps : L .aps = true) (hPwr : L .pwr = true) (hImg : L .img = true) (hMem : L .mem = true) (hFree : L .free = true) {s : State} {t9} (h : execApplyPhase s = .next t9) :
    blank L t9 = blank L s := by
  refine inPhase_frame L _ (fun _ => ?_) h
  repeat' (first | with_reducible rfl | ((with_reducible refine Eq.trans (modCyc_part L _ _ ?_) ?_); (next => exact fun _ => by simp only [blankCyc, hCyc, if_true])) | (simp only [applyAct_frame, armWake_frame, autoLocate_frame, foldHandBack_frame, nmApply_frame, towReopen_frame, hSys, hCyc, hStaged, hTide, hFv, hWire, hSafe, hDetect, hBreach, hPond, hTp, hPow, hSlu, hMot, hFio, hCan, hLin, hNm, hAq, hNet, hTow, hLight, hAps, hPwr, hImg, hMem, hFree, apply_ite (blank L), ite_self]) | (with_reducible refine ite_frame _ ?_ ?_) | split)

theorem overrun_frame (L : Region → Bool) (hCyc : L .cyc = true) (hWire : L .wire = true) (hDetect : L .detect = true) (m : Nat) (s : State) :
    blank L (overrun m s) = blank L s := by
  unfold overrun
  repeat' (first | with_reducible rfl | ((with_reducible refine Eq.trans (modSaf_part L _ _ ?_) ?_); (next => exact fun _ => by simp only [blankSaf, hDetect, if_true])) | ((with_reducible refine Eq.trans (modCyc_part L _ _ ?_) ?_); (next => exact fun _ => by simp only [blankCyc, hCyc, if_true])) | (simp only [detect_frame, emit_frame, hCyc, hWire, hDetect, apply_ite (blank L), ite_self]) | (with_reducible refine ite_frame _ ?_ ?_) | split)

theorem execCutoff_frame (L : Region → Bool) (hCyc : L .cyc = true) (hWire : L .wire = true) (hDetect : L .detect = true) (hTp : L .tp = true) (hImg : L .img = true) {s : State} {t9} (h : execCutoff s = .next t9) :
    blank L t9 = blank L s := by
  refine inPhase_frame L _ (fun _ => ?_) h
  repeat' (first | with_reducible rfl | ((with_reducible refine Eq.trans (modCyc_part L _ _ ?_) ?_); (next => exact fun _ => by simp only [blankCyc, hCyc, if_true])) | (simp only [cutoffAct_frame, overrun_frame, tpCutoff_frame, hCyc, hWire, hDetect, hTp, hImg, apply_ite (blank L), ite_self]) | (with_reducible refine ite_frame _ ?_ ?_) | split)

theorem refreshAll_frame (L : Region → Bool) (hFio : L .fio = true) (s : State) :
    blank L (refreshAll s) = blank L s := by
  unfold refreshAll
  repeat' (first | with_reducible rfl | (simp only [foRefresh_frame, hFio, apply_ite (blank L), ite_self]) | (with_reducible refine (foldl_pair_frame L _ (fun _ _ => ?_) _ _).trans ?_) | (with_reducible refine (foldl_frame L _ (fun _ _ => ?_) _ _).trans ?_) | (with_reducible refine ite_frame _ ?_ ?_) | split)

theorem execSealingWindow_frame (L : Region → Bool) (hCyc : L .cyc = true) (hTp : L .tp = true) (hFio : L .fio = true) (hImg : L .img = true) {handoff : Bool} {s : State} {t9} (h : execSealingWindow handoff s = .next t9) :
    blank L t9 = blank L s := by
  refine inPhase_frame L _ (fun _ => ?_) h
  repeat' (first | with_reducible rfl | ((with_reducible refine Eq.trans (modCyc_part L _ _ ?_) ?_); (next => exact fun _ => by simp only [blankCyc, hCyc, if_true])) | (simp only [modTp_frame, refreshAll_frame, sealAct_frame, hCyc, hTp, hFio, hImg, apply_ite (blank L), ite_self]) | (with_reducible refine ite_frame _ ?_ ?_) | split)

theorem execSealingDeadline_frame (L : Region → Bool) (hCyc : L .cyc = true) (hWire : L .wire = true) (hDetect : L .detect = true) {s : State} {t9} (h : execSealingDeadline s = .next t9) :
    blank L t9 = blank L s := by
  refine inPhase_frame L _ (fun _ => ?_) h
  repeat' (first | with_reducible rfl | (simp only [overrun_frame, hCyc, hWire, hDetect, apply_ite (blank L), ite_self]) | (with_reducible refine ite_frame _ ?_ ?_) | split)

theorem execStretchRefresh_frame (L : Region → Bool) (hFio : L .fio = true) {s : State} {t9} (h : execStretchRefresh s = .next t9) :
    blank L t9 = blank L s := by
  refine inPhase_frame L _ (fun _ => ?_) h
  repeat' (first | with_reducible rfl | (simp only [refreshAll_frame, hFio, apply_ite (blank L), ite_self]) | (with_reducible refine ite_frame _ ?_ ?_) | split)

theorem takeStaged_frame (L : Region → Bool) (hSys : L .sys = true) (hCyc : L .cyc = true) (hStaged : L .staged = true) (hTide : L .tide = true) (hFv : L .fv = true) (hWire : L .wire = true) (hSafe : L .safe = true) (hDetect : L .detect = true) (hBreach : L .breach = true) (hPond : L .pond = true) (hTp : L .tp = true) (hPow : L .pow = true) (hSlu : L .slu = true) (hMot : L .mot = true) (hFio : L .fio = true) (hCan : L .can = true) (hLin : L .lin = true) (hNm : L .nm = true) (hAq : L .aq = true) (hNet : L .net = true) (hTow : L .tow = true) (hLight : L .light = true) (hAps : L .aps = true) (hPwr : L .pwr = true) (hImg : L .img = true) (hMem : L .mem = true) (hFree : L .free = true) (x : Staged) (s : State) :
    blank L (takeStaged x s).2 = blank L s := by
  have hk := classOf_keeps L hSys hCyc hStaged hTide hFv hWire hSafe hDetect hBreach hPond hTp hPow hSlu hMot hFio hCan hLin hNm hAq hNet hTow hLight hAps hPwr hImg hMem hFree x.cls
  unfold takeStaged
  dsimp only
  cases hop : x.op
  · repeat' (first | with_reducible rfl | (simp only [applySet_frame L hk, modPad_frame, hSys, hCyc, hStaged, hTide, hFv, hWire, hSafe, hDetect, hBreach, hPond, hTp, hPow, hSlu, hMot, hFio, hCan, hLin, hNm, hAq, hNet, hTow, hLight, hAps, hPwr, hImg, hMem, hFree, apply_ite (blank L), ite_self]) | (with_reducible refine ite_frame _ ?_ ?_) | split)
  · simp only
    split
    · rfl
    · rename_i c hc
      have h := hk.acts c (List.mem_of_find?_eq_some hc)
      split
      · rename_i heq
        split at heq
        · exact h.held heq
        · cases heq
      · exact h.run _ _ _ _

theorem takeStaged_frame_eq (L : Region → Bool) (hSys : L .sys = true) (hCyc : L .cyc = true) (hStaged : L .staged = true) (hTide : L .tide = true) (hFv : L .fv = true) (hWire : L .wire = true) (hSafe : L .safe = true) (hDetect : L .detect = true) (hBreach : L .breach = true) (hPond : L .pond = true) (hTp : L .tp = true) (hPow : L .pow = true) (hSlu : L .slu = true) (hMot : L .mot = true) (hFio : L .fio = true) (hCan : L .can = true) (hLin : L .lin = true) (hNm : L .nm = true) (hAq : L .aq = true) (hNet : L .net = true) (hTow : L .tow = true) (hLight : L .light = true) (hAps : L .aps = true) (hPwr : L .pwr = true) (hImg : L .img = true) (hMem : L .mem = true) (hFree : L .free = true) {x : Staged} {s : State} {x9 t9} (h : takeStaged x s = (x9, t9)) :
    blank L t9 = blank L s := by
  rw [← takeStaged_frame L hSys hCyc hStaged hTide hFv hWire hSafe hDetect hBreach hPond hTp hPow hSlu hMot hFio hCan hLin hNm hAq hNet hTow hLight hAps hPwr hImg hMem hFree x s, h]

theorem takeAll_frame (L : Region → Bool) (hSys : L .sys = true) (hCyc : L .cyc = true) (hStaged : L .staged = true) (hTide : L .tide = true) (hFv : L .fv = true) (hWire : L .wire = true) (hSafe : L .safe = true) (hDetect : L .detect = true) (hBreach : L .breach = true) (hPond : L .pond = true) (hTp : L .tp = true) (hPow : L .pow = true) (hSlu : L .slu = true) (hMot : L .mot = true) (hFio : L .fio = true) (hCan : L .can = true) (hLin : L .lin = true) (hNm : L .nm = true) (hAq : L .aq = true) (hNet : L .net = true) (hTow : L .tow = true) (hLight : L .light = true) (hAps : L .aps = true) (hPwr : L .pwr = true) (hImg : L .img = true) (hMem : L .mem = true) (hFree : L .free = true) (l : List Staged) (s : State) :
    blank L (takeAll l s).2 = blank L s := by
  unfold takeAll
  repeat' (first | with_reducible rfl | (with_reducible refine Eq.trans (takeStaged_frame_eq L hSys hCyc hStaged hTide hFv hWire hSafe hDetect hBreach hPond hTp hPow hSlu hMot hFio hCan hLin hNm hAq hNet hTow hLight hAps hPwr hImg hMem hFree (by with_reducible assumption)) ?_) | (simp only [takeStaged_frame, hSys, hCyc, hStaged, hTide, hFv, hWire, hSafe, hDetect, hBreach, hPond, hTp, hPow, hSlu, hMot, hFio, hCan, hLin, hNm, hAq, hNet, hTow, hLight, hAps, hPwr, hImg, hMem, hFree, apply_ite (blank L), ite_self]) | (with_reducible refine (foldl_pair_frame L _ (fun _ _ => ?_) _ _).trans ?_) | (with_reducible refine (foldl_frame L _ (fun _ _ => ?_) _ _).trans ?_) | (with_reducible refine ite_frame _ ?_ ?_) | split)

theorem takeAll_frame_eq (L : Region → Bool) (hSys : L .sys = true) (hCyc : L .cyc = true) (hStaged : L .staged = true) (hTide : L .tide = true) (hFv : L .fv = true) (hWire : L .wire = true) (hSafe : L .safe = true) (hDetect : L .detect = true) (hBreach : L .breach = true) (hPond : L .pond = true) (hTp : L .tp = true) (hPow : L .pow = true) (hSlu : L .slu = true) (hMot : L .mot = true) (hFio : L .fio = true) (hCan : L .can = true) (hLin : L .lin = true) (hNm : L .nm = true) (hAq : L .aq = true) (hNet : L .net = true) (hTow : L .tow = true) (hLight : L .light = true) (hAps : L .aps = true) (hPwr : L .pwr = true) (hImg : L .img = true) (hMem : L .mem = true) (hFree : L .free = true) {l : List Staged} {s : State} {x9} {t9} (h : takeAll l s = (x9, t9)) :
    blank L t9 = blank L s := by
  rw [← takeAll_frame L hSys hCyc hStaged hTide hFv hWire hSafe hDetect hBreach hPond hTp hPow hSlu hMot hFio hCan hLin hNm hAq hNet hTow hLight hAps hPwr hImg hMem hFree l s, h]

theorem giveAnswer_frame (L : Region → Bool) (hSys : L .sys = true) (hCyc : L .cyc = true) (hStaged : L .staged = true) (hTide : L .tide = true) (hFv : L .fv = true) (hWire : L .wire = true) (hSafe : L .safe = true) (hDetect : L .detect = true) (hBreach : L .breach = true) (hPond : L .pond = true) (hTp : L .tp = true) (hPow : L .pow = true) (hSlu : L .slu = true) (hMot : L .mot = true) (hFio : L .fio = true) (hCan : L .can = true) (hLin : L .lin = true) (hNm : L .nm = true) (hAq : L .aq = true) (hNet : L .net = true) (hTow : L .tow = true) (hLight : L .light = true) (hAps : L .aps = true) (hPwr : L .pwr = true) (hImg : L .img = true) (hMem : L .mem = true) (hFree : L .free = true) (a : Answer) (s : State) :
    blank L (giveAnswer a s) = blank L s := by
  unfold giveAnswer
  repeat' (first | with_reducible rfl | (simp only [answer_frame, hSys, hCyc, hStaged, hTide, hFv, hWire, hSafe, hDetect, hBreach, hPond, hTp, hPow, hSlu, hMot, hFio, hCan, hLin, hNm, hAq, hNet, hTow, hLight, hAps, hPwr, hImg, hMem, hFree, apply_ite (blank L), ite_self]) | (with_reducible refine ite_frame _ ?_ ?_) | split)

theorem pickStaged_frame (L : Region → Bool) (hStaged : L .staged = true) (p : Staged → Bool) (s : State) :
    blank L (pickStaged p s).2 = blank L s := by
  unfold pickStaged
  repeat' (first | with_reducible rfl | ((with_reducible refine Eq.trans (modCyc_part L _ _ ?_) ?_); (next => exact fun _ => by simp only [blankCyc, hStaged, if_true])) | (simp only [hStaged, apply_ite (blank L), ite_self]) | (with_reducible refine ite_frame _ ?_ ?_) | split)

theorem pickStaged_frame_eq (L : Region → Bool) (hStaged : L .staged = true) {p : Staged → Bool} {s : State} {x9} {t9} (h : pickStaged p s = (x9, t9)) :
    blank L t9 = blank L s := by
  rw [← pickStaged_frame L hStaged p s, h]

theorem dropLost_frame (L : Region → Bool) (hSys : L .sys = true) (hCyc : L .cyc = true) (hStaged : L .staged = true) (hTide : L .tide = true) (hFv : L .fv = true) (hWire : L .wire = true) (hSafe : L .safe = true) (hDetect : L .detect = true) (hBreach : L .breach = true) (hPond : L .pond = true) (hTp : L .tp = true) (hPow : L .pow = true) (hSlu : L .slu = true) (hMot : L .mot = true) (hFio : L .fio = true) (hCan : L .can = true) (hLin : L .lin = true) (hNm : L .nm = true) (hAq : L .aq = true) (hNet : L .net = true) (hTow : L .tow = true) (hLight : L .light = true) (hAps : L .aps = true) (hPwr : L .pwr = true) (hImg : L .img = true) (hMem : L .mem = true) (hFree : L .free = true) (s : State) :
    blank L (dropLost s) = blank L s := by
  unfold dropLost
  repeat' (first | with_reducible rfl | (with_reducible refine Eq.trans (pickStaged_frame_eq L hStaged (by with_reducible assumption)) ?_) | (simp only [giveAnswer_frame, pickStaged_frame, hSys, hCyc, hStaged, hTide, hFv, hWire, hSafe, hDetect, hBreach, hPond, hTp, hPow, hSlu, hMot, hFio, hCan, hLin, hNm, hAq, hNet, hTow, hLight, hAps, hPwr, hImg, hMem, hFree, apply_ite (blank L), ite_self]) | (with_reducible refine (foldl_pair_frame L _ (fun _ _ => ?_) _ _).trans ?_) | (with_reducible refine (foldl_frame L _ (fun _ _ => ?_) _ _).trans ?_) | (with_reducible refine ite_frame _ ?_ ?_) | split)

theorem poundSafe_frame (L : Region → Bool) (hPow : L .pow = true) (hMot : L .mot = true) (hFio : L .fio = true) (p : Nat) (s : State) :
    blank L (poundSafe p s) = blank L s := by
  unfold poundSafe
  repeat' (first | with_reducible rfl | (simp only [brAfter_frame, modBr_frame, modChan_frame, modFo_frame, modMot_frame, modPad_frame, hPow, hMot, hFio, apply_ite (blank L), ite_self]) | (with_reducible refine (foldl_pair_frame L _ (fun _ _ => ?_) _ _).trans ?_) | (with_reducible refine (foldl_frame L _ (fun _ _ => ?_) _ _).trans ?_) | (with_reducible refine ite_frame _ ?_ ?_) | split)

theorem poundsSafe_frame (L : Region → Bool) (hWire : L .wire = true) (hPow : L .pow = true) (hMot : L .mot = true) (hFio : L .fio = true) (s : State) :
    blank L (poundsSafe s) = blank L s := by
  unfold poundsSafe
  repeat' (first | with_reducible rfl | (simp only [modPq_frame, poundSafe_frame, hWire, hPow, hMot, hFio, apply_ite (blank L), ite_self]) | (with_reducible refine (foldl_pair_frame L _ (fun _ _ => ?_) _ _).trans ?_) | (with_reducible refine (foldl_frame L _ (fun _ _ => ?_) _ _).trans ?_) | (with_reducible refine ite_frame _ ?_ ?_) | split)

theorem safeBoundary_frame (L : Region → Bool) (hFv : L .fv = true) (hWire : L .wire = true) (hSafe : L .safe = true) (hDetect : L .detect = true) (hTp : L .tp = true) (hPow : L .pow = true) (hSlu : L .slu = true) (hMot : L .mot = true) (hFio : L .fio = true) (hImg : L .img = true) (s : State) :
    blank L (safeBoundary s) = blank L s := by
  unfold safeBoundary
  repeat' (first | with_reducible rfl | ((with_reducible refine Eq.trans (modSaf_part L _ _ ?_) ?_); (next => exact fun _ => by simp only [blankSaf, hDetect, if_true])) | (simp only [enterSafe_frame, hFv, hWire, hSafe, hDetect, hTp, hPow, hSlu, hMot, hFio, hImg, apply_ite (blank L), ite_self]) | (with_reducible refine ite_frame _ ?_ ?_) | split)

theorem refreshWaiting_frame (L : Region → Bool) (hTp : L .tp = true) (was : Bool) (s : State) :
    blank L (refreshWaiting was s) = blank L s := by
  unfold refreshWaiting
  repeat' (first | with_reducible rfl | (simp only [modTp_frame, hTp, apply_ite (blank L), ite_self]) | (with_reducible refine ite_frame _ ?_ ?_) | split)

theorem outputsBoundary_frame (L : Region → Bool) (hWire : L .wire = true) (hTp : L .tp = true) (hPow : L .pow = true) (hSlu : L .slu = true) (hMot : L .mot = true) (hFio : L .fio = true) (s0 : State) (c : Nat) (s : State) :
    blank L (outputsBoundary s0 c s) = blank L s := by
  unfold outputsBoundary
  repeat' (first | with_reducible rfl | (simp only [bridgeBoundary_frame, chansBoundary_frame, chopBoundary_frame, fosBoundary_frame, padBegin_frame, padStep_frame, padsCommit_frame, hWire, hTp, hPow, hSlu, hMot, hFio, apply_ite (blank L), ite_self]) | (with_reducible refine (foldl_pair_frame L _ (fun _ _ => ?_) _ _).trans ?_) | (with_reducible refine (foldl_frame L _ (fun _ _ => ?_) _ _).trans ?_) | (with_reducible refine ite_frame _ ?_ ?_) | split)

theorem outputsOverrun_frame (L : Region → Bool) (hWire : L .wire = true) (hPow : L .pow = true) (hSlu : L .slu = true) (hMot : L .mot = true) (hFio : L .fio = true) (c : Nat) (s : State) :
    blank L (outputsOverrun c s) = blank L s := by
  unfold outputsOverrun
  repeat' (first | with_reducible rfl | (simp only [chopBoundary_frame, tpOutputs_frame, hWire, hPow, hSlu, hMot, hFio, apply_ite (blank L), ite_self]) | (with_reducible refine (foldl_pair_frame L _ (fun _ _ => ?_) _ _).trans ?_) | (with_reducible refine (foldl_frame L _ (fun _ _ => ?_) _ _).trans ?_) | (with_reducible refine ite_frame _ ?_ ?_) | split)

theorem windowsRun_frame (L : Region → Bool) (hPow : L .pow = true) (len : Nat) (s : State) :
    blank L (windowsRun len s) = blank L s := by
  unfold windowsRun
  repeat' (first | with_reducible rfl | (simp only [modChan_frame, hPow, apply_ite (blank L), ite_self]) | (with_reducible refine (foldl_pair_frame L _ (fun _ _ => ?_) _ _).trans ?_) | (with_reducible refine (foldl_frame L _ (fun _ _ => ?_) _ _).trans ?_) | (with_reducible refine ite_frame _ ?_ ?_) | split)

theorem windowStart_frame (L : Region → Bool) (hPow : L .pow = true) (s : State) (i : Nat) :
    blank L (windowStart s i) = blank L s := by
  unfold windowStart
  repeat' (first | with_reducible rfl | (simp only [modChan_frame, hPow, apply_ite (blank L), ite_self]) | (with_reducible refine ite_frame _ ?_ ?_) | split)

theorem windowsStart_frame (L : Region → Bool) (hPow : L .pow = true) (s : State) :
    blank L (windowsStart s) = blank L s := by
  unfold windowsStart
  repeat' (first | with_reducible rfl | (simp only [windowStart_frame, hPow, apply_ite (blank L), ite_self]) | (with_reducible refine (foldl_pair_frame L _ (fun _ _ => ?_) _ _).trans ?_) | (with_reducible refine (foldl_frame L _ (fun _ _ => ?_) _ _).trans ?_) | (with_reducible refine ite_frame _ ?_ ?_) | split)

theorem periodBoundary_frame (L : Region → Bool) (hCyc : L .cyc = true) (hWire : L .wire = true) (hTow : L .tow = true) (s : State) :
    blank L (periodBoundary s).2.2 = blank L s := by
  unfold periodBoundary
  repeat' (first | with_reducible rfl | ((with_reducible refine Eq.trans (modCyc_part L _ _ ?_) ?_); (next => exact fun _ => by simp only [blankCyc, hCyc, if_true])) | (simp only [endChange_frame, relayPeriod_frame, hCyc, hWire, hTow, apply_ite (blank L), ite_self]) | (with_reducible refine ite_frame _ ?_ ?_) | split)

theorem periodBoundary_frame_eq (L : Region → Bool) (hCyc : L .cyc = true) (hWire : L .wire = true) (hTow : L .tow = true) {s : State} {x9} {y9} {t9} (h : periodBoundary s = (x9, y9, t9)) :
    blank L t9 = blank L s := by
  rw [← periodBoundary_frame L hCyc hWire hTow s, h]

theorem endedBoundary_frame (L : Region → Bool) (hCyc : L .cyc = true) (hWire : L .wire = true) (hTow : L .tow = true) (s : State) :
    blank L (endedBoundary s) = blank L s := by
  unfold endedBoundary
  repeat' (first | with_reducible rfl | ((with_reducible refine Eq.trans (modCyc_part L _ _ ?_) ?_); (next => exact fun _ => by simp only [blankCyc, hCyc, if_true])) | (simp only [answer_frame, endChange_frame, relayPeriod_frame, hCyc, hWire, hTow, apply_ite (blank L), ite_self]) | (with_reducible refine (foldl_pair_frame L _ (fun _ _ => ?_) _ _).trans ?_) | (with_reducible refine (foldl_frame L _ (fun _ _ => ?_) _ _).trans ?_) | (with_reducible refine ite_frame _ ?_ ?_) | split)

theorem tellNumber_frame (L : Region → Bool) (hWire : L .wire = true) (n : Nat) (renumber : Bool) (s : State) :
    blank L (tellNumber n renumber s) = blank L s := by
  unfold tellNumber
  repeat' (first | with_reducible rfl | (simp only [emit_frame, hWire, apply_ite (blank L), ite_self]) | (with_reducible refine ite_frame _ ?_ ?_) | split)

theorem newCycle_frame (L : Region → Bool) (hCyc : L .cyc = true) (hStaged : L .staged = true) (n : Nat) (ts : TimerState) (len : Nat) (s : State) :
    blank L (newCycle n ts len s) = blank L s := by
  unfold newCycle
  repeat' (first | with_reducible rfl | (simp only [modCyc_frame, hCyc, hStaged, apply_ite (blank L), ite_self]) | (with_reducible refine ite_frame _ ?_ ?_) | split)

theorem tellRephase_frame (L : Region → Bool) (hWire : L .wire = true) (ts : TimerState) (len : Nat) (s : State) :
    blank L (tellRephase ts len s) = blank L s := by
  unfold tellRephase
  repeat' (first | with_reducible rfl | (simp only [emit_frame, hWire, apply_ite (blank L), ite_self]) | (with_reducible refine ite_frame _ ?_ ?_) | split)

theorem openCycle_frame (L : Region → Bool) (hCyc : L .cyc = true) (hStaged : L .staged = true) (hWire : L .wire = true) (hTow : L .tow = true) (n : Nat) (w : TimerState × Nat) (renumber : Bool) (s : State) :
    blank L (openCycle n w renumber s) = blank L s := by
  simp only [openCycle, modTow_frame, newCycle_frame, tellNumber_frame, tellRephase_frame, hCyc, hStaged, hWire, hTow]

theorem markClean_frame (L : Region → Bool) (hImg : L .img = true) (overran : Bool) (s : State) :
    blank L (markClean overran s) = blank L s := by
  unfold markClean
  repeat' (first | with_reducible rfl | (simp only [modImg_frame, hImg, apply_ite (blank L), ite_self]) | (with_reducible refine ite_frame _ ?_ ?_) | split)

theorem beginCycle_frame (L : Region → Bool) (hCyc : L .cyc = true) (hStaged : L .staged = true) (hTide : L .tide = true) (hWire : L .wire = true) (hFio : L .fio = true) (hTow : L .tow = true) (hImg : L .img = true) (overran renumber : Bool) (s : State) :
    blank L (beginCycle overran renumber s) = blank L s := by
  simp only [beginCycle, boundaryField_frame, boundaryTouts_frame, markClean_frame, openCycle_frame, hCyc, hStaged, hTide, hWire, hFio, hTow, hImg]

theorem closeCycleWins_frame (L : Region → Bool) (hWire : L .wire = true) (s : State) :
    blank L (closeCycleWins s) = blank L s := by
  unfold closeCycleWins
  repeat' (first | with_reducible rfl | (simp only [closeWin_frame, hWire, apply_ite (blank L), ite_self]) | (with_reducible refine (foldl_pair_frame L _ (fun _ _ => ?_) _ _).trans ?_) | (with_reducible refine (foldl_frame L _ (fun _ _ => ?_) _ _).trans ?_) | (with_reducible refine ite_frame _ ?_ ?_) | split)

theorem sealedBoundary_frame (L : Region → Bool) (hSys : L .sys = true) (hCyc : L .cyc = true) (hStaged : L .staged = true) (hTide : L .tide = true) (hFv : L .fv = true) (hWire : L .wire = true) (hSafe : L .safe = true) (hDetect : L .detect = true) (hBreach : L .breach = true) (hPond : L .pond = true) (hTp : L .tp = true) (hPow : L .pow = true) (hSlu : L .slu = true) (hMot : L .mot = true) (hFio : L .fio = true) (hCan : L .can = true) (hLin : L .lin = true) (hNm : L .nm = true) (hAq : L .aq = true) (hNet : L .net = true) (hTow : L .tow = true) (hLight : L .light = true) (hAps : L .aps = true) (hPwr : L .pwr = true) (hImg : L .img = true) (hMem : L .mem = true) (hFree : L .free = true) (c : Nat) (s : State) :
    blank L (sealedBoundary c s) = blank L s := by
  unfold sealedBoundary
  repeat' (first | with_reducible rfl | (with_reducible refine Eq.trans (takeAll_frame_eq L hSys hCyc hStaged hTide hFv hWire hSafe hDetect hBreach hPond hTp hPow hSlu hMot hFio hCan hLin hNm hAq hNet hTow hLight hAps hPwr hImg hMem hFree (by with_reducible assumption)) ?_) | (with_reducible refine Eq.trans (pickStaged_frame_eq L hStaged (by with_reducible assumption)) ?_) | (simp only [commitBoundary_frame, dropLost_frame, giveAnswer_frame, handOver_frame, outputsBoundary_frame, pickStaged_frame, poundsSafe_frame, refreshWaiting_frame, safeBoundary_frame, segBoundary_frame, swapBoundary_frame, takeAll_frame, tpStep_frame, hSys, hCyc, hStaged, hTide, hFv, hWire, hSafe, hDetect, hBreach, hPond, hTp, hPow, hSlu, hMot, hFio, hCan, hLin, hNm, hAq, hNet, hTow, hLight, hAps, hPwr, hImg, hMem, hFree, apply_ite (blank L), ite_self]) | (with_reducible refine (foldl_pair_frame L _ (fun _ _ => ?_) _ _).trans ?_) | (with_reducible refine (foldl_frame L _ (fun _ _ => ?_) _ _).trans ?_) | (with_reducible refine ite_frame _ ?_ ?_) | split)

theorem commitCount_frame (L : Region → Bool) (hImg : L .img = true) (s : State) :
    blank L (commitCount s) = blank L s := by
  unfold commitCount
  repeat' (first | with_reducible rfl | (simp only [modImg_frame, hImg, apply_ite (blank L), ite_self]) | (with_reducible refine ite_frame _ ?_ ?_) | split)

theorem overrunBoundary_frame (L : Region → Bool) (hFv : L .fv = true) (hWire : L .wire = true) (hSafe : L .safe = true) (hDetect : L .detect = true) (hTp : L .tp = true) (hPow : L .pow = true) (hSlu : L .slu = true) (hMot : L .mot = true) (hFio : L .fio = true) (hImg : L .img = true) (c : Nat) (s : State) :
    blank L (overrunBoundary c s) = blank L s := by
  simp only [overrunBoundary, commitCount_frame, outputsOverrun_frame, safeBoundary_frame, tpStep_frame, hFv, hWire, hSafe, hDetect, hTp, hPow, hSlu, hMot, hFio, hImg]

theorem countOverrun_frame (L : Region → Bool) (hCyc : L .cyc = true) (hWire : L .wire = true) (overran : Bool) (s : State) :
    blank L (countOverrun overran s) = blank L s := by
  unfold countOverrun
  repeat' (first | with_reducible rfl | ((with_reducible refine Eq.trans (modCyc_part L _ _ ?_) ?_); (next => exact fun _ => by simp only [blankCyc, hCyc, if_true])) | (simp only [emit_frame, hCyc, hWire, apply_ite (blank L), ite_self]) | (with_reducible refine ite_frame _ ?_ ?_) | split)

theorem startWork_frame (L : Region → Bool) (hSys : L .sys = true) (hStaged : L .staged = true) (hWire : L .wire = true) (hCan : L .can = true) (hLin : L .lin = true) (hNm : L .nm = true) (hAq : L .aq = true) (hNet : L .net = true) (hTow : L .tow = true) (hAps : L .aps = true) (hPwr : L .pwr = true) (hMem : L .mem = true) (overran : Bool) (eff : Nat) (s : State) :
    blank L (startWork overran eff s) = blank L s := by
  unfold startWork
  repeat' (first | with_reducible rfl | (simp only [bargeFlush_frame, beatBoundary_frame, beatWatch_frame, coreBoundary_frame, gateBoundary_frame, linBoundary_frame, nmBoundary_frame, presentOffers_frame, quietBoundary_frame, schedBoundary_frame, schedOverrun_frame, hSys, hStaged, hWire, hCan, hLin, hNm, hAq, hNet, hTow, hAps, hPwr, hMem, apply_ite (blank L), ite_self]) | (with_reducible refine ite_frame _ ?_ ?_) | split)

theorem endCycle_frame (L : Region → Bool) (hCyc : L .cyc = true) (hStaged : L .staged = true) (hFv : L .fv = true) (hWire : L .wire = true) (hTp : L .tp = true) (hPow : L .pow = true) (hSlu : L .slu = true) (hMot : L .mot = true) (hAq : L .aq = true) (hNet : L .net = true) (hTow : L .tow = true) (hAps : L .aps = true) (hPwr : L .pwr = true) (hImg : L .img = true) (overran : Bool) (s : State) :
    blank L (endCycle overran s) = blank L s := by
  simp only [endCycle, countOverrun_frame, endHandover_frame, flushTalkers_frame, modSlu_frame, modTp_frame, trialRuns_frame, windowsRun_frame, hCyc, hStaged, hFv, hWire, hTp, hPow, hSlu, hMot, hAq, hNet, hTow, hAps, hPwr, hImg]

theorem takeEffect_frame (L : Region → Bool) (hSys : L .sys = true) (hCyc : L .cyc = true) (hStaged : L .staged = true) (hTide : L .tide = true) (hFv : L .fv = true) (hWire : L .wire = true) (hSafe : L .safe = true) (hDetect : L .detect = true) (hBreach : L .breach = true) (hPond : L .pond = true) (hTp : L .tp = true) (hPow : L .pow = true) (hSlu : L .slu = true) (hMot : L .mot = true) (hFio : L .fio = true) (hCan : L .can = true) (hLin : L .lin = true) (hNm : L .nm = true) (hAq : L .aq = true) (hNet : L .net = true) (hTow : L .tow = true) (hLight : L .light = true) (hAps : L .aps = true) (hPwr : L .pwr = true) (hImg : L .img = true) (hMem : L .mem = true) (hFree : L .free = true) (overran : Bool) (s : State) :
    blank L (takeEffect overran s) = blank L s := by
  unfold takeEffect
  repeat' (first | with_reducible rfl | (simp only [boundarySluice_frame, closeCycleWins_frame, handOverAct_frame, overrunBoundary_frame, sealedBoundary_frame, hSys, hCyc, hStaged, hTide, hFv, hWire, hSafe, hDetect, hBreach, hPond, hTp, hPow, hSlu, hMot, hFio, hCan, hLin, hNm, hAq, hNet, hTow, hLight, hAps, hPwr, hImg, hMem, hFree, apply_ite (blank L), ite_self]) | (with_reducible refine ite_frame _ ?_ ?_) | split)

theorem answerPeriod_frame (L : Region → Bool) (hCyc : L .cyc = true) (hWire : L .wire = true) (req : Option Req) (s : State) :
    blank L (answerPeriod req s) = blank L s := by
  unfold answerPeriod
  repeat' (first | with_reducible rfl | (simp only [answer_frame, hCyc, hWire, apply_ite (blank L), ite_self]) | (with_reducible refine ite_frame _ ?_ ?_) | split)

theorem boundary_frame (L : Region → Bool) (hSys : L .sys = true) (hCyc : L .cyc = true) (hStaged : L .staged = true) (hTide : L .tide = true) (hFv : L .fv = true) (hWire : L .wire = true) (hSafe : L .safe = true) (hDetect : L .detect = true) (hBreach : L .breach = true) (hPond : L .pond = true) (hTp : L .tp = true) (hPow : L .pow = true) (hSlu : L .slu = true) (hMot : L .mot = true) (hFio : L .fio = true) (hCan : L .can = true) (hLin : L .lin = true) (hNm : L .nm = true) (hAq : L .aq = true) (hNet : L .net = true) (hTow : L .tow = true) (hLight : L .light = true) (hAps : L .aps = true) (hPwr : L .pwr = true) (hImg : L .img = true) (hMem : L .mem = true) (hFree : L .free = true) (s : State) :
    blank L (boundary s) = blank L s := by
  unfold boundary
  repeat' (first | with_reducible rfl | (with_reducible refine Eq.trans (periodBoundary_frame_eq L hCyc hWire hTow (by with_reducible assumption)) ?_) | (simp only [answerPeriod_frame, beginCycle_frame, endCycle_frame, endedBoundary_frame, faultRise_frame, padsLatch_frame, periodBoundary_frame, restartAct_frame, settleRelease_frame, settleWaves_frame, startWork_frame, takeEffect_frame, windowsStart_frame, hSys, hCyc, hStaged, hTide, hFv, hWire, hSafe, hDetect, hBreach, hPond, hTp, hPow, hSlu, hMot, hFio, hCan, hLin, hNm, hAq, hNet, hTow, hLight, hAps, hPwr, hImg, hMem, hFree, apply_ite (blank L), ite_self]) | (with_reducible refine ite_frame _ ?_ ?_) | split)

theorem execBoundary_frame (L : Region → Bool) (hSys : L .sys = true) (hCyc : L .cyc = true) (hStaged : L .staged = true) (hTide : L .tide = true) (hFv : L .fv = true) (hWire : L .wire = true) (hSafe : L .safe = true) (hDetect : L .detect = true) (hBreach : L .breach = true) (hPond : L .pond = true) (hTp : L .tp = true) (hPow : L .pow = true) (hSlu : L .slu = true) (hMot : L .mot = true) (hFio : L .fio = true) (hCan : L .can = true) (hLin : L .lin = true) (hNm : L .nm = true) (hAq : L .aq = true) (hNet : L .net = true) (hTow : L .tow = true) (hLight : L .light = true) (hAps : L .aps = true) (hPwr : L .pwr = true) (hImg : L .img = true) (hMem : L .mem = true) (hFree : L .free = true) {interval : Bool} {s : State} {t9} (h : execBoundary interval s = .next t9) :
    blank L t9 = blank L s := by
  refine inPhase_frame L _ (fun _ => ?_) h
  repeat' (first | with_reducible rfl | (simp only [boundary_frame, detect_frame, tpSet_frame, hSys, hCyc, hStaged, hTide, hFv, hWire, hSafe, hDetect, hBreach, hPond, hTp, hPow, hSlu, hMot, hFio, hCan, hLin, hNm, hAq, hNet, hTow, hLight, hAps, hPwr, hImg, hMem, hFree, apply_ite (blank L), ite_self]) | (with_reducible refine ite_frame _ ?_ ?_) | split)

end Sys2Proof.Machine
end

