-- ==== Sys2Proof/Laws/Tbl.lean ====
section
/-! SUPPORT. Reading a table after a change, and that every change keeps its canonical form. -/
namespace Sys2Proof.Machine

variable {α : Type} (d : Nat → α)

theorem tget_tdel_same (i : Nat) (t : Tbl α) : tget d (tdel i t) i = d i := by
  induction t with
  | nil => rfl
  | cons e t ih =>
    obtain ⟨k, v⟩ := e
    by_cases h : k = i
    · simpa [tdel, h] using ih
    · simpa [tdel, tget, h] using ih

theorem tget_tdel_ne (i j : Nat) (t : Tbl α) (h : i ≠ j) : tget d (tdel i t) j = tget d t j := by
  induction t with
  | nil => rfl
  | cons e t ih =>
    obtain ⟨k, v⟩ := e
    by_cases hk : k = i
    · subst hk
      simpa [tdel, tget, h] using ih
    · by_cases hj : k = j
      · subst hj
        simp [tdel, tget, hk]
      · simpa [tdel, tget, hk, hj] using ih

theorem mem_tdel_ne (i : Nat) (t : Tbl α) : ∀ e ∈ tdel i t, e.1 ≠ i := by
  intro e he
  simpa using (List.mem_filter.mp he).2

theorem tget_tins_same (i : Nat) (v : α) (t : Tbl α) (h : ∀ e ∈ t, e.1 ≠ i) : tget d (tins i v t) i = v := by
  induction t with
  | nil => simp [tins, tget]
  | cons e t ih =>
    obtain ⟨k, w⟩ := e
    have hk : k ≠ i := h (k, w) (by simp)
    have ht := ih (fun e he => h e (List.mem_cons_of_mem _ he))
    by_cases hl : i < k
    · simp [tins, tget, hl]
    · simp [tins, tget, hl, hk, ht]

theorem tget_tins_ne (i j : Nat) (v : α) (t : Tbl α) (h : i ≠ j) : tget d (tins i v t) j = tget d t j := by
  induction t with
  | nil => simp [tins, tget, h]
  | cons e t ih =>
    obtain ⟨k, w⟩ := e
    by_cases hl : i < k
    · simp [tins, tget, hl, h]
    · by_cases hj : k = j
      · subst hj
        simp [tins, tget, hl]
      · simp [tins, tget, hl, hj, ih]

theorem tget_tput_same [DecidableEq α] (i : Nat) (v : α) (t : Tbl α) : tget d (tput d i v t) i = v := by
  unfold tput
  split
  · rename_i h
    rw [tget_tdel_same, h]
  · exact tget_tins_same d i v _ (mem_tdel_ne i t)

theorem tget_tput_ne [DecidableEq α] (i j : Nat) (v : α) (t : Tbl α) (h : i ≠ j) :
    tget d (tput d i v t) j = tget d t j := by
  unfold tput
  split
  · exact tget_tdel_ne d i j t h
  · rw [tget_tins_ne d i j v _ h, tget_tdel_ne d i j t h]

theorem tget_tmod_same [DecidableEq α] (i : Nat) (f : α → α) (t : Tbl α) :
    tget d (tmod d i f t) i = f (tget d t i) := tget_tput_same d i _ t

theorem tget_tmod_ne [DecidableEq α] (i j : Nat) (f : α → α) (t : Tbl α) (h : i ≠ j) :
    tget d (tmod d i f t) j = tget d t j := tget_tput_ne d i j _ t h

/-! ### The canonical form -/

/-- A bound that the first key need not exceed can be dropped. -/
theorem risingFrom_none (b : Nat) (t : Tbl α) (h : risingFrom (some b) t = true) : risingFrom none t = true := by
  cases t with
  | nil => rfl
  | cons e t =>
    simp only [risingFrom, Bool.and_eq_true] at h
    exact h.2

/-- A lower bound may be lowered. -/
theorem risingFrom_lower (a b : Nat) (t : Tbl α) (hab : a ≤ b) (h : risingFrom (some b) t = true) :
    risingFrom (some a) t = true := by
  cases t with
  | nil => rfl
  | cons e t =>
    simp only [risingFrom, Bool.and_eq_true, decide_eq_true_eq] at h ⊢
    exact ⟨by omega, h.2⟩

theorem risingFrom_tdel (i : Nat) (t : Tbl α) :
    ∀ b, risingFrom (some b) t = true → risingFrom (some b) (tdel i t) = true := by
  induction t with
  | nil => intro b h; exact h
  | cons e t ih =>
    obtain ⟨k, v⟩ := e
    intro b h
    simp only [risingFrom, Bool.and_eq_true, decide_eq_true_eq] at h
    have hk := ih k h.2
    by_cases he : k = i
    · have : tdel i ((k, v) :: t) = tdel i t := by simp [tdel, he]
      rw [this]
      exact risingFrom_lower b k _ (by omega) hk
    · have : tdel i ((k, v) :: t) = (k, v) :: tdel i t := by simp [tdel, he]
      rw [this]
      simp only [risingFrom, Bool.and_eq_true, decide_eq_true_eq]
      exact ⟨h.1, hk⟩

theorem risingFrom_tins (i : Nat) (v : α) (t : Tbl α) :
    ∀ b, b < i → risingFrom (some b) t = true → (∀ e ∈ t, e.1 ≠ i) → risingFrom (some b) (tins i v t) = true := by
  induction t with
  | nil => intro b hb _ _; simp [tins, risingFrom, hb]
  | cons e t ih =>
    obtain ⟨k, w⟩ := e
    intro b hb h hne
    simp only [risingFrom, Bool.and_eq_true, decide_eq_true_eq] at h
    have hki : k ≠ i := hne (k, w) (by simp)
    by_cases hl : i < k
    · simp [tins, hl, risingFrom, hb, h.2]
    · have := ih k (by omega) h.2 (fun e he => hne e (List.mem_cons_of_mem _ he))
      simp [tins, hl, risingFrom, h.1, this]

theorem all_tins (p : Nat × α → Bool) (i : Nat) (v : α) (t : Tbl α) (hv : p (i, v) = true)
    (h : t.all p = true) : (tins i v t).all p = true := by
  induction t with
  | nil => simp [tins, hv]
  | cons e t ih =>
    obtain ⟨k, w⟩ := e
    simp only [List.all_cons, Bool.and_eq_true] at h
    by_cases hl : i < k
    · simp [tins, hl, hv, h.1, h.2]
    · simp [tins, hl, h.1, ih h.2]

theorem all_tdel (p : Nat × α → Bool) (i : Nat) (t : Tbl α) (h : t.all p = true) : (tdel i t).all p = true := by
  rw [List.all_eq_true] at h ⊢
  intro e he
  exact h e (List.mem_filter.mp he).1

/-- Rising without a bound is rising above some bound, or an empty table. -/
theorem risingFrom_cases (t : Tbl α) (h : risingFrom none t = true) :
    t = [] ∨ ∃ k v r, t = (k, v) :: r ∧ risingFrom (some k) r = true := by
  cases t with
  | nil => exact .inl rfl
  | cons e r => exact .inr ⟨e.1, e.2, r, rfl, h⟩

theorem risingFrom_none_tdel (i : Nat) (t : Tbl α) (h : risingFrom none t = true) :
    risingFrom none (tdel i t) = true := by
  rcases risingFrom_cases t h with rfl | ⟨k, v, r, rfl, hr⟩
  · rfl
  · have hk := risingFrom_tdel i r k hr
    by_cases he : k = i
    · have : tdel i ((k, v) :: r) = tdel i r := by simp [tdel, he]
      rw [this]
      exact risingFrom_none k _ hk
    · have : tdel i ((k, v) :: r) = (k, v) :: tdel i r := by simp [tdel, he]
      rw [this]
      exact hk

theorem risingFrom_none_tins (i : Nat) (v : α) (t : Tbl α) (h : risingFrom none t = true)
    (hne : ∀ e ∈ t, e.1 ≠ i) : risingFrom none (tins i v t) = true := by
  rcases risingFrom_cases t h with rfl | ⟨k, w, r, rfl, hr⟩
  · rfl
  · have hki : k ≠ i := hne (k, w) (by simp)
    by_cases hl : i < k
    · simp [tins, hl, risingFrom, hr]
    · have := risingFrom_tins i v r k (by omega) hr (fun e he => hne e (List.mem_cons_of_mem _ he))
      simp [tins, hl, risingFrom, this]

/-- Writing one record keeps a table in canonical form. -/
theorem twf_tput [DecidableEq α] (i : Nat) (v : α) (t : Tbl α) (h : twf d t = true) :
    twf d (tput d i v t) = true := by
  simp only [twf, Bool.and_eq_true] at h ⊢
  unfold tput
  split
  · exact ⟨risingFrom_none_tdel i t h.1, all_tdel _ i t h.2⟩
  · rename_i hv
    exact ⟨risingFrom_none_tins i v _ (risingFrom_none_tdel i t h.1) (mem_tdel_ne i t),
      all_tins _ i v _ (by simpa using hv) (all_tdel _ i t h.2)⟩

/-- Changing one record keeps a table in canonical form. -/
theorem twf_tmod [DecidableEq α] (i : Nat) (f : α → α) (t : Tbl α) (h : twf d t = true) :
    twf d (tmod d i f t) = true := twf_tput d i _ t h

end Sys2Proof.Machine
end

