-- ==== Sys2Proof/Laws/Memory.lean ====
section
/-! SUPPORT. Reading memory after a write, and that every memory operation keeps the canonical form. Memory is the
table of bytes whose reset record is the default byte, so its laws are those of tables. -/
namespace Sys2Proof.Machine

theorem memRead_eq_tget (m : List Host.Cell) (i : Nat) : memRead m i = tget (fun _ => memDefault) m i := by
  induction m with
  | nil => rfl
  | cons c m ih => simp [memRead, tget, ih]

theorem memIns_eq_tins (i : Nat) (b : Byte) (m : List Host.Cell) : memIns i b m = tins i b m := by
  induction m with
  | nil => rfl
  | cons c m ih => simp [memIns, tins, ih]

theorem memWrite_eq_tput (i : Nat) (b : Byte) (m : List Host.Cell) :
    memWrite i b m = tput (fun _ => memDefault) i b m := by
  simp [memWrite, tput, tdel, memIns_eq_tins]

theorem memRising_eq_risingFrom (l : Option Nat) (m : List Host.Cell) : memRising l m = risingFrom l m := by
  induction m generalizing l with
  | nil => cases l <;> rfl
  | cons c m ih => cases l <;> simp [memRising, risingFrom, ih]

theorem memory_wf_eq_twf (m : List Host.Cell) : Memory.wf m = twf (fun _ => memDefault) m := by
  simp [Memory.wf, twf, memRising_eq_risingFrom]

/-- A byte reads as it was written. -/
theorem memRead_memWrite_same (i : Nat) (b : Byte) (m : List Host.Cell) : memRead (memWrite i b m) i = b := by
  rw [memRead_eq_tget, memWrite_eq_tput]
  exact tget_tput_same _ i b m

/-- Every other byte reads as before the write. -/
theorem memRead_memWrite_ne (i j : Nat) (b : Byte) (m : List Host.Cell) (h : i ≠ j) :
    memRead (memWrite i b m) j = memRead m j := by
  rw [memRead_eq_tget, memWrite_eq_tput, tget_tput_ne _ i j b m h, memRead_eq_tget]

/-- A write keeps the canonical form. -/
theorem memory_wf_memWrite (i : Nat) (b : Byte) (m : List Host.Cell) (h : Memory.wf m = true) :
    Memory.wf (memWrite i b m) = true := by
  rw [memory_wf_eq_twf] at h ⊢
  rw [memWrite_eq_tput]
  exact twf_tput _ i b m h

/-- Writing consecutive bytes keeps the canonical form. -/
theorem memory_wf_memWriteBytes (bs : List Byte) (m : List Host.Cell) :
    ∀ i, Memory.wf m = true → Memory.wf (memWriteBytes i bs m) = true := by
  induction bs generalizing m with
  | nil => intro i h; exact h
  | cons b bs ih => intro i h; exact ih _ (i + 1) (memory_wf_memWrite i b m h)

/-- A store keeps the canonical form. -/
theorem memory_wf_storeBytes (i : Nat) (bs : List Byte) (s : State) (h : Memory.wf s.mem = true) :
    Memory.wf (storeBytes i bs s).mem = true := memory_wf_memWriteBytes bs s.mem i h

/-- Memory is in canonical form at reset. -/
theorem memory_wf_reset : Memory.wf State.reset.mem = true := rfl

/-- Bytes outside a store read as before. -/
theorem memRead_memWriteBytes_out (bs : List Byte) (m : List Host.Cell) :
    ∀ i a, a < i ∨ i + bs.length ≤ a → memRead (memWriteBytes i bs m) a = memRead m a := by
  induction bs generalizing m with
  | nil => intro i a _; rfl
  | cons b bs ih =>
    intro i a h
    have hn : i ≠ a := by simp only [List.length_cons] at h; omega
    rw [memWriteBytes, ih _ (i + 1) a (by simp only [List.length_cons] at h; omega), memRead_memWrite_ne i a b m hn]

end Sys2Proof.Machine
end

