-- ==== Sys2Proof/Laws/MemoryKept.lean ====
section
/-! SUPPORT. Every operation that can write memory keeps the canonical form of R34's byte list; what writes none
keeps it by its frame lemma. -/
set_option linter.unusedSimpArgs false
set_option linter.unusedVariables false
namespace Sys2Proof.Machine

/-- Memory has its canonical form. -/
def memOk (s : State) : Prop := Memory.wf s.mem = true

/-- Every region but memory. -/
def offMem (r : Region) : Bool := decide (r ≠ .mem)

theorem memOk_eq {s t : State} (h : blank offMem t = blank offMem s) : memOk t ↔ memOk s := by
  have h1 : (blank offMem t).mem = (blank offMem s).mem := congrArg State.mem h
  have h2 : t.mem = s.mem := h1
  unfold memOk
  rw [h2]

theorem ite_ok (c : Prop) [Decidable c] (a b : State) : memOk (if c then a else b) ↔ (if c then memOk a else memOk b) := by
  split <;> exact Iff.rfl

theorem foldl_pair_memOk {α β : Type} {g : β × State → α → β × State} (hg : ∀ p a, memOk p.2 → memOk (g p a).2) {l : List α} {p : β × State}
    (h : memOk p.2) : memOk (l.foldl g p).2 := by
  induction l generalizing p with
  | nil => exact h
  | cons a l ih => exact ih (hg p a h)

theorem foldl_memOk {α : Type} {g : State → α → State} (hg : ∀ s a, memOk s → memOk (g s a)) {l : List α} {s : State}
    (h : memOk s) : memOk (l.foldl g s) := by
  induction l generalizing s with
  | nil => exact h
  | cons a l ih => exact ih (hg s a h)

theorem nextOr_memOk {s : State} {o : Out} (ho : ∀ t, o = .next t → memOk t) (h : memOk s) : memOk (nextOr s o) := by
  unfold nextOr
  split
  · exact ho _ rfl
  · exact h

theorem inPhase_memOk {s t : State} {act : State → State} (ha : ∀ s, memOk s → memOk (act s)) (hs : memOk s)
    (h : inPhase act s = .next t) : memOk t := by
  unfold inPhase at h
  injection h with h
  subst h
  split
  · exact ha s hs
  · exact hs

/-- The SETs, GETs and actions of a class keep the canonical form. -/
structure MemKeeps (k : ClassSpec) : Prop where
  set    : ∀ {i p ws s}, memOk s → memOk (applySet k i p ws s)
  onRead : ∀ {i p o n s}, memOk s → memOk (k.onRead i p o n s)
  held   : ∀ {r p ws s t}, memOk s → k.held r p ws s = some t → memOk t
  run    : ∀ {a p i b s}, a ∈ k.acts → memOk s → memOk (a.run p i b s)
  taken  : ∀ {a s}, a ∈ k.acts → memOk s → memOk (a.taken s)
  refuse : ∀ {a st b s}, a ∈ k.acts → memOk s → memOk (a.refuse st b s)
  aheld  : ∀ {a r s t}, a ∈ k.acts → memOk s → a.held r s = some t → memOk t

theorem MemKeeps.of {k : ClassSpec} (h : Keeps offMem k) : MemKeeps k where
  set hs := (memOk_eq (applySet_frame offMem h _ _ _ _)).mpr hs
  onRead hs := (memOk_eq (h.onRead _ _ _ _ _)).mpr hs
  held hs e := (memOk_eq (h.held e)).mpr hs
  run ha hs := (memOk_eq ((h.acts _ ha).run _ _ _ _)).mpr hs
  taken ha hs := (memOk_eq ((h.acts _ ha).taken _)).mpr hs
  refuse ha hs := (memOk_eq ((h.acts _ ha).refuse _ _ _)).mpr hs
  aheld ha hs e := (memOk_eq ((h.acts _ ha).held e)).mpr hs

theorem serve_memOk {k : ClassSpec} {verb : Nat} {r : Req} {body : State → State} (hb : ∀ s, memOk s → memOk (body s)) {s : State}
    (hs : memOk s) : memOk (serve k verb r body s) := by
  have ha : ∀ (c v : Nat) (q : Req) (st : Status) (e : Option Nat) (b : List Byte) (u : State), memOk u → memOk (answer c v q st e b u) :=
    fun c v q st e b u h => (memOk_eq (answer_frame offMem rfl c v q st e b u)).mpr h
  have hr : ∀ (p : Nat) (u : State), memOk u → memOk (received p u) :=
    fun p u h => (memOk_eq (received_frame offMem rfl p u)).mpr h
  unfold serve
  repeat' split
  all_goals first
    | with_reducible exact hs
    | with_reducible exact ha _ _ _ _ _ _ _ (hr _ _ hs)
    | with_reducible exact (memOk_eq (relayTo_frame offMem rfl rfl rfl rfl rfl rfl _ _ _ _)).mpr (hr _ _ hs)
    | with_reducible exact hb _ (hr _ _ hs)

theorem doSet_memOk {k : ClassSpec} (hk : MemKeeps k) {r : Req} {s : State} (hs : memOk s) : memOk (doSet k r s) := by
  have ha : ∀ (c v : Nat) (q : Req) (st : Status) (e : Option Nat) (b : List Byte) (u : State), memOk u → memOk (answer c v q st e b u) :=
    fun c v q st e b u h => (memOk_eq (answer_frame offMem rfl c v q st e b u)).mpr h
  have hc : ∀ (p : Nat) (u : State), memOk u → memOk (accepted p u) :=
    fun p u h => (memOk_eq (accepted_frame offMem rfl rfl rfl rfl p u)).mpr h
  unfold doSet
  dsimp only
  split
  · split
    · exact (memOk_eq (stage_frame offMem rfl _ _ _ _)).mpr (hc _ _ hs)
    · split
      · exact hk.held (hc _ _ hs) (by assumption)
      · exact ha _ _ _ _ _ _ _ (hk.set (hc _ _ hs))
  · exact ha _ _ _ _ _ _ _ hs

theorem doAct_memOk {k : ClassSpec} (hk : MemKeeps k) {r : Req} {s : State} (hs : memOk s) : memOk (doAct k r s) := by
  have ha : ∀ (c v : Nat) (q : Req) (st : Status) (e : Option Nat) (b : List Byte) (u : State), memOk u → memOk (answer c v q st e b u) :=
    fun c v q st e b u h => (memOk_eq (answer_frame offMem rfl c v q st e b u)).mpr h
  have hc : ∀ (p : Nat) (u : State), memOk u → memOk (accepted p u) :=
    fun p u h => (memOk_eq (accepted_frame offMem rfl rfl rfl rfl p u)).mpr h
  unfold doAct
  split
  · exact ha _ _ _ _ _ _ _ hs
  · rename_i a hf
    have hm := List.mem_of_find?_eq_some hf
    split
    · dsimp only
      split
      · exact (memOk_eq (stage_frame offMem rfl _ _ _ _)).mpr (hk.taken hm (hc _ _ hs))
      · split
        · exact hk.aheld hm (hc _ _ hs) (by assumption)
        · exact ha _ _ _ _ _ _ _ (hk.run hm (hc _ _ hs))
    · exact ha _ _ _ _ _ _ _ (hk.refuse hm hs)

theorem doGet_memOk {k : ClassSpec} (hk : MemKeeps k) {r : Req} {s : State} (hs : memOk s) : memOk (doGet k r s) := by
  unfold doGet
  split
  · exact hk.onRead ((memOk_eq (answer_frame offMem rfl _ _ _ _ _ _ _)).mpr ((memOk_eq (accepted_frame offMem rfl rfl rfl rfl _ _)).mpr hs))
  · exact (memOk_eq (answer_frame offMem rfl _ _ _ _ _ _ _)).mpr hs

theorem cmdSet_memOk {k : ClassSpec} (hk : MemKeeps k) {r : Req} {s : State} (hs : memOk s) : memOk (cmdSet k r s) :=
  serve_memOk (fun _ h => doSet_memOk hk h) hs

theorem cmdAct_memOk {k : ClassSpec} (hk : MemKeeps k) {code : Nat} {r : Req} {s : State} (hs : memOk s) :
    memOk (cmdAct k code r s) :=
  serve_memOk (fun _ h => doAct_memOk hk h) hs

theorem memRising_weaken (m : List Host.Cell) : ∀ (a b : Nat), a ≤ b → memRising (some b) m = true → memRising (some a) m = true := by
  cases m with
  | nil => intros; rfl
  | cons c m =>
    intro a b hab h
    simp only [memRising, Bool.and_eq_true, decide_eq_true_eq] at h ⊢
    exact ⟨by omega, h.2⟩

theorem memRising_filter (p : Host.Cell → Bool) (m : List Host.Cell) :
    ∀ l, memRising l m = true → memRising l (m.filter p) = true := by
  induction m with
  | nil => intro l h; exact h
  | cons c m ih =>
    intro l h
    rw [List.filter_cons]
    cases l with
    | none =>
      split
      · exact ih _ h
      · have h1 : memRising (some c.1) (m.filter p) = true := ih _ h
        cases hm : m.filter p with
        | nil => rfl
        | cons d r =>
          rw [hm] at h1
          simp only [memRising, Bool.and_eq_true] at h1 ⊢
          exact h1.2
    | some a =>
      simp only [memRising, Bool.and_eq_true, decide_eq_true_eq] at h
      split
      · simp only [memRising, Bool.and_eq_true, decide_eq_true_eq]
        exact ⟨h.1, ih _ h.2⟩
      · exact memRising_weaken _ _ _ (Nat.le_of_lt h.1) (ih _ h.2)

/-- Losing listed bytes keeps the canonical form. -/
theorem memory_wf_filter (p : Host.Cell → Bool) (m : List Host.Cell) (h : Memory.wf m = true) :
    Memory.wf (m.filter p) = true := by
  simp only [Memory.wf, Bool.and_eq_true, List.all_eq_true] at h ⊢
  exact ⟨memRising_filter p m _ h.1, fun c hc => h.2 c (List.mem_filter.mp hc).1⟩

theorem fetch_memOk {e : Nat} {act : Nat → State → State} (ha : ∀ p s, memOk s → memOk (act p s)) {s : State} (hs : memOk s) :
    memOk (fetch e act s) := by
  unfold fetch
  split
  · split
    · exact ha _ _ ((memOk_eq (takeSlotAt_frame offMem rfl _ _ _)).mpr hs)
    · exact hs
  · exact hs

theorem quiet_memOk {f : State → State} (hf : ∀ s, memOk s → memOk (f s)) {s : State} (hs : memOk s) : memOk (quiet f s) :=
  hf _ hs

theorem iteP {c : Prop} [Decidable c] {P Q : Prop} (hp : P) (hq : Q) : if c then P else Q := by
  split
  · exact hp
  · exact hq

theorem storeBytes_memOk (i : Nat) (bs : List Byte) {s : State} (h : memOk s) : memOk (storeBytes i bs s) :=
  memory_wf_storeBytes i bs s h

theorem writeCopy_memOk (c : Nat) (b : List Byte) {s : State} (h : memOk s) : memOk (writeCopy c b s) := by
  unfold writeCopy
  repeat' (first | with_reducible assumption | (simp only [(fun a0 a1 => memOk_eq (modTp_frame offMem rfl a0 a1)), ite_ok, ite_self]) | (with_reducible refine storeBytes_memOk _ _ ?_) | (with_reducible refine iteP ?_ ?_) | split)

theorem writeTable_memOk (n : TpTable) {s : State} (h : memOk s) : memOk (writeTable n s) := by
  unfold writeTable
  repeat' (first | with_reducible assumption | (simp only [(fun a0 a1 => memOk_eq (modTp_frame offMem rfl a0 a1)), ite_ok, ite_self]) | (with_reducible refine writeCopy_memOk _ _ ?_) | (with_reducible refine iteP ?_ ?_) | split)

theorem repairCopies_memOk  {s : State} (h : memOk s) : memOk (repairCopies s) := by
  unfold repairCopies
  repeat' (first | with_reducible assumption | (simp only [(fun a0 => memOk_eq (useCopies_frame offMem rfl rfl a0)), ite_ok, ite_self]) | (with_reducible refine writeCopy_memOk _ _ ?_) | (with_reducible refine iteP ?_ ?_) | split)

theorem execTowpathTableCheck_memOk {badA badB : Bool} {s : State} {t9} (hs : memOk s) (h : execTowpathTableCheck badA badB s = .next t9) : memOk t9 := by
  unfold execTowpathTableCheck at h
  injection h with h
  subst h
  repeat' (first | with_reducible assumption | (simp only [(fun a0 a1 a2 => memOk_eq (detect_frame offMem rfl rfl a0 a1 a2)), (fun a0 a1 a2 => memOk_eq (spoilCopies_frame offMem rfl a0 a1 a2)), ite_ok, ite_self]) | (with_reducible refine repairCopies_memOk ?_) | (with_reducible refine iteP ?_ ?_) | split)

theorem lhScrub_memOk (b : LhBox) (n : Nat) {s : State} (h : memOk s) : memOk (lhScrub b n s) := by
  unfold lhScrub
  repeat' (first | with_reducible assumption | (simp only [ite_ok, ite_self]) | (with_reducible refine storeBytes_memOk _ _ ?_) | (with_reducible refine iteP ?_ ?_) | split)

theorem lhScrubOpen_memOk (b : LhBox) {s : State} (h : memOk s) : memOk (lhScrubOpen b s) := by
  unfold lhScrubOpen
  repeat' (first | with_reducible assumption | (with_reducible refine (memOk_eq (takeFree_frame_eq offMem rfl (by with_reducible assumption))).mpr ?_) | (simp only [(fun a0 => memOk_eq (takeFree_frame offMem rfl a0)), ite_ok, ite_self]) | (with_reducible refine lhScrub_memOk _ _ ?_) | (with_reducible refine iteP ?_ ?_) | split)

theorem abandonLh_memOk (p : Nat) {s : State} (h : memOk s) : memOk (abandonLh p s) := by
  unfold abandonLh
  repeat' (first | with_reducible assumption | (simp only [(fun a0 a1 a2 => memOk_eq (modBox_frame offMem rfl a0 a1 a2)), ite_ok, ite_self]) | (with_reducible refine lhScrubOpen_memOk _ ?_) | (with_reducible refine iteP ?_ ?_) | split)

theorem completeReset_memOk (p : Nat) {s : State} (h : memOk s) : memOk (completeReset p s) := by
  unfold completeReset
  repeat' (first | with_reducible assumption | (simp only [(fun a0 a1 => memOk_eq (clearSnap_frame offMem rfl a0 a1)), (fun a0 a1 => memOk_eq (modFv_frame offMem rfl rfl a0 a1)), (fun a0 a1 => memOk_eq (modSlu_frame offMem rfl a0 a1)), (fun a0 a1 a2 => memOk_eq (dropSends_frame offMem rfl rfl a0 a1 a2)), (fun a0 a1 a2 => memOk_eq (modHostq_frame offMem rfl a0 a1 a2)), (fun a0 a1 a2 => memOk_eq (modPound_frame offMem rfl a0 a1 a2)), (fun a0 a1 a2 => memOk_eq (modPq_frame offMem rfl a0 a1 a2)), (fun a0 a1 a2 => memOk_eq (modWin_frame offMem rfl a0 a1 a2)), (fun a0 a1 a2 a3 => memOk_eq (setClaim_frame offMem rfl a0 a1 a2 a3)), ite_ok, ite_self]) | (with_reducible refine abandonLh_memOk _ ?_) | (with_reducible refine foldl_memOk (fun _ _ _ => ?_) ?_) | (with_reducible refine foldl_pair_memOk (fun _ _ _ => ?_) ?_) | (with_reducible refine iteP ?_ ?_) | split)

theorem execPoundResetComplete_memOk {p : Nat} {s : State} {t9} (hs : memOk s) (h : execPoundResetComplete p s = .next t9) : memOk t9 := by
  obtain ⟨-, rfl⟩ := guardUnit_next h
  repeat' (first | with_reducible assumption | (simp only [ite_ok, ite_self]) | (with_reducible refine completeReset_memOk _ ?_) | (with_reducible refine iteP ?_ ?_) | split)

theorem writeBack_memOk (p r : Nat) (l : List Written) {s : State} (h : memOk s) : memOk (writeBack p r l s) := by
  unfold writeBack
  repeat' (first | with_reducible assumption | (simp only [(fun a0 a1 a2 => memOk_eq (modHring_frame offMem rfl a0 a1 a2)), (fun a0 a1 a2 => memOk_eq (modWin_frame offMem rfl a0 a1 a2)), ite_ok, ite_self]) | (with_reducible refine storeBytes_memOk _ _ ?_) | (with_reducible refine foldl_memOk (fun _ _ _ => ?_) ?_) | (with_reducible refine foldl_pair_memOk (fun _ _ _ => ?_) ?_) | (with_reducible refine iteP ?_ ?_) | split)

theorem discardRx_memOk (p r filter n : Nat) (x : NetFrame) {s : State} (h : memOk s) : memOk (discardRx p r filter n x s) := by
  unfold discardRx
  repeat' (first | with_reducible assumption | (simp only [(fun a0 a1 a2 => memOk_eq (modHring_frame offMem rfl a0 a1 a2)), (fun a0 a1 a2 a3 => memOk_eq (countPort_frame offMem rfl rfl a0 a1 a2 a3)), (fun a0 a1 a2 a3 a4 a5 a6 a7 => memOk_eq (emit_frame offMem rfl a0 a1 a2 a3 a4 a5 a6 a7)), ite_ok, ite_self]) | (with_reducible refine writeBack_memOk _ _ _ ?_) | (with_reducible refine iteP ?_ ?_) | split)

theorem deliverRing_memOk (p r filter : Nat) (x : NetFrame) {s : State} (h : memOk s) : memOk (deliverRing p r filter x s) := by
  unfold deliverRing
  repeat' (first | with_reducible assumption | (simp only [(fun a0 a1 a2 => memOk_eq (modHring_frame offMem rfl a0 a1 a2)), (fun a0 a1 a2 a3 => memOk_eq (countPort_frame offMem rfl rfl a0 a1 a2 a3)), (fun a0 a1 a2 a3 => memOk_eq (mbxError_frame offMem rfl a0 a1 a2 a3)), ite_ok, ite_self]) | (with_reducible refine discardRx_memOk _ _ _ _ _ ?_) | (with_reducible refine writeBack_memOk _ _ _ ?_) | (with_reducible refine iteP ?_ ?_) | split)

theorem flushDone_memOk (k : Nat) {s : State} (h : memOk s) : memOk (flushDone k s) := by
  unfold flushDone
  repeat' (first | with_reducible assumption | (simp only [(fun a0 a1 a2 => memOk_eq (modHring_frame offMem rfl a0 a1 a2)), ite_ok, ite_self]) | (with_reducible refine writeBack_memOk _ _ _ ?_) | (with_reducible refine iteP ?_ ?_) | split)

theorem complete_memOk (k id st sec ns : Nat) {s : State} (h : memOk s) : memOk (complete k id st sec ns s) := by
  unfold complete
  repeat' (first | with_reducible assumption | (simp only [(fun a0 a1 a2 => memOk_eq (modHring_frame offMem rfl a0 a1 a2)), ite_ok, ite_self]) | (with_reducible refine flushDone_memOk _ ?_) | (with_reducible refine iteP ?_ ?_) | split)

theorem pushDone_memOk (k tag n : Nat) (st : Option Nat) {s : State} (h : memOk s) : memOk (pushDone k tag n st s) := by
  unfold pushDone
  repeat' (first | with_reducible assumption | (simp only [(fun a0 a1 a2 => memOk_eq (modHring_frame offMem rfl a0 a1 a2)), ite_ok, ite_self]) | (with_reducible refine flushDone_memOk _ ?_) | (with_reducible refine iteP ?_ ?_) | split)

theorem toKeeper_memOk (p : Nat) (x : NetFrame) {s : State} (h : memOk s) : memOk (toKeeper p x s) := by
  unfold toKeeper
  repeat' (first | with_reducible assumption | (simp only [(fun a0 a1 a2 => memOk_eq (relaySync_frame offMem rfl a0 a1 a2)), (fun a0 a1 a2 => memOk_eq (signalling_frame offMem rfl a0 a1 a2)), ite_ok, ite_self]) | (with_reducible refine deliverRing_memOk _ _ _ _ ?_) | (with_reducible refine iteP ?_ ?_) | split)

theorem execEthFrameReceived_memOk {p : Nat} {f : EthFrame} {len : Nat} {fcsOk : Bool} {tag : Option SecTag} {s : State} {t9} (hs : memOk s) (h : execEthFrameReceived p f len fcsOk tag s = .next t9) : memOk t9 := by
  obtain ⟨-, rfl⟩ := guardUnit_next h
  repeat' (first | with_reducible assumption | (with_reducible refine (memOk_eq (macsecRx_frame_eq offMem rfl rfl (by with_reducible assumption))).mpr ?_) | (simp only [(fun a0 a1 => memOk_eq (toBasin_frame offMem rfl a0 a1)), (fun a0 a1 a2 a3 => memOk_eq (countPort_frame offMem rfl rfl a0 a1 a2 a3)), (fun a0 a1 a2 a3 => memOk_eq (countRx_frame offMem rfl rfl a0 a1 a2 a3)), (fun a0 a1 a2 a3 => memOk_eq (macsecRx_frame offMem rfl rfl a0 a1 a2 a3)), ite_ok, ite_self]) | (with_reducible refine toKeeper_memOk _ _ ?_) | (with_reducible refine iteP ?_ ?_) | split)

theorem execTxFrameFetch_memOk {p r : Nat} {s : State} {t9} (hs : memOk s) (h : execTxFrameFetch p r s = .next t9) : memOk t9 := by
  obtain ⟨-, rfl⟩ := guardUnit_next h
  repeat' (first | with_reducible assumption | (simp only [(fun a0 a1 => memOk_eq (toBasin_frame offMem rfl a0 a1)), (fun a0 a1 a2 => memOk_eq (modHring_frame offMem rfl a0 a1 a2)), (fun a0 a1 a2 a3 => memOk_eq (mbxError_frame offMem rfl a0 a1 a2 a3)), ite_ok, ite_self]) | (with_reducible refine pushDone_memOk _ _ _ _ ?_) | (with_reducible refine iteP ?_ ?_) | split)

theorem execEopTimeout_memOk {p r : Nat} {s : State} {t9} (hs : memOk s) (h : execEopTimeout p r s = .next t9) : memOk t9 := by
  obtain ⟨-, rfl⟩ := guardUnit_next h
  repeat' (first | with_reducible assumption | (simp only [(fun a0 a1 a2 => memOk_eq (modHring_frame offMem rfl a0 a1 a2)), ite_ok, ite_self]) | (with_reducible refine pushDone_memOk _ _ _ _ ?_) | (with_reducible refine foldl_memOk (fun _ _ _ => ?_) ?_) | (with_reducible refine foldl_pair_memOk (fun _ _ _ => ?_) ?_) | (with_reducible refine iteP ?_ ?_) | split)

theorem execTs2Timeout_memOk {p r id : Nat} {s : State} {t9} (hs : memOk s) (h : execTs2Timeout p r id s = .next t9) : memOk t9 := by
  obtain ⟨-, rfl⟩ := guardUnit_next h
  repeat' (first | with_reducible assumption | (simp only [ite_ok, ite_self]) | (with_reducible refine complete_memOk _ _ _ _ _ ?_) | (with_reducible refine iteP ?_ ?_) | split)

theorem ingressDone_memOk (x : NetFrame) (ports : List Nat) (any : Bool) (vid : Nat) {s : State} (h : memOk s) : memOk (ingressDone x ports any s vid) := by
  unfold ingressDone
  repeat' (first | with_reducible assumption | (simp only [ite_ok, ite_self]) | (with_reducible refine complete_memOk _ _ _ _ _ ?_) | (with_reducible refine iteP ?_ ?_) | split)

theorem admitAll_memOk (r : Routed) (full : Bool) {s : State} (h : memOk s) : memOk (admitAll r full s) := by
  unfold admitAll
  repeat' (first | with_reducible assumption | (with_reducible refine (memOk_eq (enqueueCopy_frame_eq offMem rfl rfl (by with_reducible assumption))).mpr ?_) | (with_reducible refine (memOk_eq (admitHost_frame_eq offMem rfl rfl (by with_reducible assumption))).mpr ?_) | (simp only [(fun a0 a1 => memOk_eq (admitHost_frame offMem rfl rfl a0 a1)), (fun a0 a1 => memOk_eq (countG_frame offMem rfl rfl a0 a1)), (fun a0 a1 a2 a3 => memOk_eq (enqueueCopy_frame offMem rfl rfl a0 a1 a2 a3)), ite_ok, ite_self]) | (with_reducible refine ingressDone_memOk _ _ _ _ ?_) | (with_reducible refine foldl_memOk (fun _ _ _ => ?_) ?_) | (with_reducible refine foldl_pair_memOk (fun _ _ _ => ?_) ?_) | (with_reducible refine iteP ?_ ?_) | split)

theorem releaseRun_memOk (i : Nat) {full : Bool} {n : Nat} {s : State} (h : memOk s) : memOk (releaseRun i full n s) := by
  induction n generalizing s with
  | zero => exact h
  | succ n ih =>
    rw [releaseRun]
    split
    · exact h
    · split
      · exact ih (admitAll_memOk _ _ ((memOk_eq (modStream_frame offMem rfl _ _ _)).mpr h))
      · exact h

theorem releaseAll_memOk (i : Nat) (full : Bool) {s : State} (h : memOk s) : memOk (releaseAll i full s) := by
  unfold releaseAll
  repeat' (first | with_reducible assumption | (simp only [(fun a0 a1 a2 => memOk_eq (modStream_frame offMem rfl a0 a1 a2)), (fun a0 a1 a2 a3 => memOk_eq (countS_frame offMem rfl rfl a0 a1 a2 a3)), ite_ok, ite_self]) | (with_reducible refine admitAll_memOk _ _ ?_) | (with_reducible refine foldl_memOk (fun _ _ _ => ?_) ?_) | (with_reducible refine foldl_pair_memOk (fun _ _ _ => ?_) ?_) | (with_reducible refine iteP ?_ ?_) | split)

theorem resequence_memOk (i seq : Nat) (r : Routed) (full : Bool) {s : State} (h : memOk s) : memOk (resequence i seq r full s) := by
  unfold resequence
  repeat' (first | with_reducible assumption | (simp only [(fun a0 a1 a2 => memOk_eq (modStream_frame offMem rfl a0 a1 a2)), (fun a0 a1 a2 a3 => memOk_eq (countS_frame offMem rfl rfl a0 a1 a2 a3)), ite_ok, ite_self]) | (with_reducible refine releaseRun_memOk _ ?_) | (with_reducible refine admitAll_memOk _ _ ?_) | (with_reducible refine releaseAll_memOk _ _ ?_) | (with_reducible refine iteP ?_ ?_) | split)

theorem streamFrame_memOk (i : Nat) (r : Routed) (full : Bool) {s : State} (h : memOk s) : memOk (streamFrame i r full s) := by
  unfold streamFrame
  repeat' (first | with_reducible assumption | (with_reducible refine (memOk_eq (meterFrame_frame_eq offMem rfl rfl (by with_reducible assumption))).mpr ?_) | (with_reducible refine (memOk_eq (recoverSeq_frame_eq offMem rfl rfl (by with_reducible assumption))).mpr ?_) | (simp only [(fun a0 a1 a2 => memOk_eq (meterFrame_frame offMem rfl rfl a0 a1 a2)), (fun a0 a1 a2 => memOk_eq (modStream_frame offMem rfl a0 a1 a2)), (fun a0 a1 a2 => memOk_eq (recoverSeq_frame offMem rfl rfl a0 a1 a2)), (fun a0 a1 a2 a3 => memOk_eq (countS_frame offMem rfl rfl a0 a1 a2 a3)), (fun a0 a1 a2 a3 a4 a5 a6 a7 => memOk_eq (emit_frame offMem rfl a0 a1 a2 a3 a4 a5 a6 a7)), ite_ok, ite_self]) | (with_reducible refine ingressDone_memOk _ _ _ _ ?_) | (with_reducible refine resequence_memOk _ _ _ _ ?_) | (with_reducible refine admitAll_memOk _ _ ?_) | (with_reducible refine iteP ?_ ?_) | split)

theorem streamClass_memKeeps : MemKeeps streamClass where
  set := by
    intro i p ws s h
    unfold applySet
    split
    · rename_i rc hr
      have h1 := (memOk_eq (writeFlds_frame offMem (streamRecord_keeps offMem rfl hr) ws s)).mpr h
      revert h1
      generalize writeFlds rc ws s = u
      intro h1
      simp only [streamClass]
      refine (memOk_eq (modStream_frame offMem rfl _ _ _)).mpr ?_
      split
      · exact h1
      · exact releaseAll_memOk _ _ h1
    · exact h
  onRead h := h
  held h e := by cases e
  run ha h := by
    simp only [streamClass, List.mem_cons, List.not_mem_nil, or_false] at ha
    rcases ha with rfl | rfl | rfl
    · exact (memOk_eq (modStream_frame offMem rfl _ _ _)).mpr h
    · exact (memOk_eq (modStream_frame offMem rfl _ _ _)).mpr h
    · dsimp only
      refine (memOk_eq (emit_frame offMem rfl _ _ _ _ _ _ _ _)).mpr ?_
      refine (memOk_eq (countS_frame offMem rfl rfl _ _ _ _)).mpr ?_
      refine (memOk_eq (modStream_frame offMem rfl _ _ _)).mpr ?_
      refine (memOk_eq (modStream_frame offMem rfl _ _ _)).mpr ?_
      exact releaseAll_memOk _ _ h
  taken ha h := by
    simp only [streamClass, List.mem_cons, List.not_mem_nil, or_false] at ha
    rcases ha with rfl | rfl | rfl
    all_goals exact h
  refuse ha h := by
    simp only [streamClass, List.mem_cons, List.not_mem_nil, or_false] at ha
    rcases ha with rfl | rfl | rfl
    all_goals exact h
  aheld ha h e := by
    simp only [streamClass, List.mem_cons, List.not_mem_nil, or_false] at ha
    rcases ha with rfl | rfl | rfl
    all_goals cases e

theorem departure_memOk (p : Nat) (x : NetFrame) (f : EthFrame) {s : State} (h : memOk s) : memOk (departure p x f s) := by
  unfold departure
  repeat' (first | with_reducible assumption | (with_reducible refine (memOk_eq (pushTs_frame_eq offMem rfl rfl (by with_reducible assumption))).mpr ?_) | (simp only [(fun a0 a1 a2 => memOk_eq (pushTs_frame offMem rfl rfl a0 a1 a2)), ite_ok, ite_self]) | (with_reducible refine complete_memOk _ _ _ _ _ ?_) | (with_reducible refine iteP ?_ ?_) | split)

theorem execBasinIngress_memOk {full : Bool} {s : State} {t9} (hs : memOk s) (h : execBasinIngress full s = .next t9) : memOk t9 := by
  unfold execBasinIngress at h
  injection h with h
  subst h
  repeat' (first | with_reducible assumption | (with_reducible refine (memOk_eq (enqueueCopy_frame_eq offMem rfl rfl (by with_reducible assumption))).mpr ?_) | (simp only [(fun a0 a1 => memOk_eq (countG_frame offMem rfl rfl a0 a1)), (fun a0 a1 => memOk_eq (modNet_frame offMem rfl a0 a1)), (fun a0 a1 a2 a3 => memOk_eq (enqueueCopy_frame offMem rfl rfl a0 a1 a2 a3)), ite_ok, ite_self]) | (with_reducible refine ingressDone_memOk _ _ _ _ ?_) | (with_reducible refine streamFrame_memOk _ _ _ ?_) | (with_reducible refine admitAll_memOk _ _ ?_) | (with_reducible refine iteP ?_ ?_) | split)

theorem execEthFrameTransmit_memOk {p collisions : Nat} {ecc : Bool} {s : State} {t9} (hs : memOk s) (h : execEthFrameTransmit p collisions ecc s = .next t9) : memOk t9 := by
  obtain ⟨-, rfl⟩ := guardUnit_next h
  repeat' (first | with_reducible assumption | (with_reducible refine (memOk_eq (macsecTx_frame_eq offMem rfl rfl (by with_reducible assumption))).mpr ?_) | (simp only [(fun a0 a1 => memOk_eq (modAq_frame offMem rfl a0 a1)), (fun a0 a1 => memOk_eq (settle_frame offMem rfl a0 a1)), (fun a0 a1 a2 => memOk_eq (detect_frame offMem rfl rfl a0 a1 a2)), (fun a0 a1 a2 => memOk_eq (macsecTx_frame offMem rfl rfl a0 a1 a2)), (fun a0 a1 a2 => memOk_eq (modPort_frame offMem rfl a0 a1 a2)), (fun a0 a1 a2 a3 => memOk_eq (countPort_frame offMem rfl rfl a0 a1 a2 a3)), (fun a0 a1 a2 a3 => memOk_eq (countQ_frame offMem rfl rfl a0 a1 a2 a3)), (fun a0 a1 a2 a3 => memOk_eq (countTx_frame offMem rfl rfl a0 a1 a2 a3)), (fun a0 a1 a2 a3 => memOk_eq (sentCredit_frame offMem rfl a0 a1 a2 a3)), (fun a0 a1 a2 a3 => memOk_eq (towEth_frame offMem rfl rfl a0 a1 a2 a3)), ite_ok, ite_self]) | (with_reducible refine departure_memOk _ _ _ ?_) | (with_reducible refine iteP ?_ ?_) | split)

theorem execResequencerTimeout_memOk {i : Nat} {s : State} {t9} (hs : memOk s) (h : execResequencerTimeout i s = .next t9) : memOk t9 := by
  obtain ⟨-, rfl⟩ := guardUnit_next h
  repeat' (first | with_reducible assumption | (simp only [ite_ok, ite_self]) | (with_reducible refine releaseAll_memOk _ _ ?_) | (with_reducible refine iteP ?_ ?_) | split)

theorem execStreamSet_memOk {r : Req} {s : State} {t9} (hs : memOk s) (h : execStreamSet r s = .next t9) : memOk t9 := by
  unfold execStreamSet at h
  injection h with h
  subst h
  repeat' (first | with_reducible assumption | (simp only [ite_ok, ite_self]) | (with_reducible refine cmdSet_memOk streamClass_memKeeps ?_) | (with_reducible refine iteP ?_ ?_) | split)

theorem execStreamUnblock_memOk {r : Req} {s : State} {t9} (hs : memOk s) (h : execStreamUnblock r s = .next t9) : memOk t9 := by
  unfold execStreamUnblock at h
  injection h with h
  subst h
  repeat' (first | with_reducible assumption | (simp only [ite_ok, ite_self]) | (with_reducible refine cmdAct_memOk imageClass_memKeeps ?_) | (with_reducible refine cmdAct_memOk chartSpec_memKeeps ?_) | (with_reducible refine cmdAct_memOk streamClass_memKeeps ?_) | (with_reducible refine iteP ?_ ?_) | split)

theorem execStreamClearCounters_memOk {r : Req} {s : State} {t9} (hs : memOk s) (h : execStreamClearCounters r s = .next t9) : memOk t9 := by
  unfold execStreamClearCounters at h
  injection h with h
  subst h
  repeat' (first | with_reducible assumption | (simp only [ite_ok, ite_self]) | (with_reducible refine cmdAct_memOk imageClass_memKeeps ?_) | (with_reducible refine cmdAct_memOk chartSpec_memKeeps ?_) | (with_reducible refine cmdAct_memOk streamClass_memKeeps ?_) | (with_reducible refine iteP ?_ ?_) | split)

theorem execStreamResetSeq_memOk {r : Req} {s : State} {t9} (hs : memOk s) (h : execStreamResetSeq r s = .next t9) : memOk t9 := by
  unfold execStreamResetSeq at h
  injection h with h
  subst h
  repeat' (first | with_reducible assumption | (simp only [ite_ok, ite_self]) | (with_reducible refine cmdAct_memOk imageClass_memKeeps ?_) | (with_reducible refine cmdAct_memOk chartSpec_memKeeps ?_) | (with_reducible refine cmdAct_memOk streamClass_memKeeps ?_) | (with_reducible refine iteP ?_ ?_) | split)

theorem execHostPortDelivery_memOk {s : State} {t9} (hs : memOk s) (h : execHostPortDelivery s = .next t9) : memOk t9 := by
  unfold execHostPortDelivery at h
  injection h with h
  subst h
  repeat' (first | with_reducible assumption | (with_reducible refine (memOk_eq (nextHost_frame offMem rfl (by with_reducible assumption))).mpr ?_) | (simp only [(fun a0 a1 => memOk_eq (countG_frame offMem rfl rfl a0 a1)), (fun a0 a1 => memOk_eq (modNet_frame offMem rfl a0 a1)), (fun a0 a1 a2 => memOk_eq (modHostq_frame offMem rfl a0 a1 a2)), ite_ok, ite_self]) | (with_reducible refine complete_memOk _ _ _ _ _ ?_) | (with_reducible refine deliverRing_memOk _ _ _ _ ?_) | (with_reducible refine iteP ?_ ?_) | split)

theorem drainRx_memOk (p : Nat) {q n : Nat} {s : State} (h : memOk s) : memOk (drainRx p q n s) := by
  induction n generalizing s with
  | zero => exact h
  | succ n ih =>
    have ht : ∀ (f : Aq → Aq), memOk (modAq f s) := fun f => h
    have hr : ∀ (k : Nat) (f : HostRing → HostRing) (u : State), memOk u → memOk (modHring k f u) := fun k f u h => (memOk_eq (modHring_frame offMem rfl k f u)).mpr h
    rw [drainRx]
    dsimp only
    repeat' (first | with_reducible assumption | (with_reducible refine ih ?_) | (with_reducible refine writeBack_memOk _ _ _ ?_) | (with_reducible refine hr _ _ _ ?_) | exact ht _ | (with_reducible refine (memOk_eq (poundDrop_frame offMem rfl rfl _ _ _)).mpr ?_) | split)

theorem drainQueue_memOk (p q : Nat) {s : State} (h : memOk s) : memOk (drainQueue p q s) := by
  unfold drainQueue
  repeat' (first | with_reducible assumption | (simp only [ite_ok, ite_self]) | (with_reducible refine drainRx_memOk _ ?_) | (with_reducible refine iteP ?_ ?_) | split)

theorem offerPound_memOk (d : Dest) (a : AqFrame) {s : State} (h : memOk s) : memOk (offerPound d a s) := by
  unfold offerPound
  repeat' (first | with_reducible assumption | (simp only [(fun a0 a1 => memOk_eq (modAq_frame offMem rfl a0 a1)), (fun a0 a1 a2 => memOk_eq (countA_frame offMem rfl rfl a0 a1 a2)), (fun a0 a1 a2 => memOk_eq (poundDrop_frame offMem rfl rfl a0 a1 a2)), ite_ok, ite_self]) | (with_reducible refine drainQueue_memOk _ _ ?_) | (with_reducible refine iteP ?_ ?_) | split)

theorem offerNow_memOk (idx : Nat) (d : Dest) (a : AqFrame) {s : State} (h : memOk s) : memOk (offerNow idx d a s) := by
  unfold offerNow
  repeat' (first | with_reducible assumption | (simp only [(fun a0 a1 a2 => memOk_eq (offerLin_frame offMem rfl a0 a1 a2)), (fun a0 a1 a2 => memOk_eq (offerSched_frame offMem rfl rfl rfl a0 a1 a2)), (fun a0 a1 a2 => memOk_eq (offerTow_frame offMem rfl rfl rfl a0 a1 a2)), (fun a0 a1 a2 => memOk_eq (offerTunnel_frame offMem rfl rfl a0 a1 a2)), (fun a0 a1 a2 a3 => memOk_eq (offerCan_frame offMem rfl rfl rfl a0 a1 a2 a3)), ite_ok, ite_self]) | (with_reducible refine offerPound_memOk _ _ ?_) | (with_reducible refine iteP ?_ ?_) | split)

theorem offer_memOk (idx : Nat) (d : Dest) (a : AqFrame) {s : State} (h : memOk s) : memOk (offer idx d a s) := by
  unfold offer
  repeat' (first | with_reducible assumption | (simp only [(fun a0 a1 => memOk_eq (modAq_frame offMem rfl a0 a1)), ite_ok, ite_self]) | (with_reducible refine offerNow_memOk _ _ _ ?_) | (with_reducible refine iteP ?_ ?_) | split)

theorem presentOffers_memOk  {s : State} (h : memOk s) : memOk (presentOffers s) := by
  unfold presentOffers
  repeat' (first | with_reducible assumption | (simp only [(fun a0 a1 => memOk_eq (modAq_frame offMem rfl a0 a1)), ite_ok, ite_self]) | (with_reducible refine offerNow_memOk _ _ _ ?_) | (with_reducible refine foldl_memOk (fun _ _ _ => ?_) ?_) | (with_reducible refine foldl_pair_memOk (fun _ _ _ => ?_) ?_) | (with_reducible refine iteP ?_ ?_) | split)

theorem followChain_memOk (idx : Nat) (only : Bool) {a : AqFrame} {n e : Nat} {s : State} (h : memOk s) : memOk (followChain idx only a n e s) := by
  induction n generalizing e s with
  | zero => exact h
  | succ n ih =>
    have hd : ∀ u, memOk u → memOk (((routeAt s e).dests.take (routeAt s e).ndest).foldl (fun s d => if only && decide (d.kind ≠ 4) then s else offer idx d a s) u) := by
      intro u hu
      refine foldl_memOk (fun v d hv => ?_) hu
      split
      · exact hv
      · exact offer_memOk _ _ _ hv
    have hs := hd s h
    rw [followChain]
    dsimp only
    split
    · exact hs
    · split
      · exact (memOk_eq (emit_frame offMem rfl _ _ _ _ _ _ _ _)).mpr ((memOk_eq (countA_frame offMem rfl rfl _ _ _)).mpr hs)
      · exact ih hs

theorem deliverRoute_memOk (idx : Nat) (a : AqFrame) {s : State} (h : memOk s) : memOk (deliverRoute idx a s) := by
  unfold deliverRoute
  repeat' (first | with_reducible assumption | (simp only [(fun a0 a1 a2 => memOk_eq (countRoute_frame offMem rfl rfl a0 a1 a2)), ite_ok, ite_self]) | (with_reducible refine followChain_memOk _ _ ?_) | (with_reducible refine iteP ?_ ?_) | split)

theorem authFailed_memOk (idx i : Nat) (a : AqFrame) {s : State} (h : memOk s) : memOk (authFailed idx i a s) := by
  unfold authFailed
  repeat' (first | with_reducible assumption | (simp only [(fun a0 a1 a2 => memOk_eq (countCtx_frame offMem rfl rfl a0 a1 a2)), (fun a0 a1 a2 => memOk_eq (countRoute_frame offMem rfl rfl a0 a1 a2)), (fun a0 a1 a2 a3 a4 a5 a6 a7 => memOk_eq (emit_frame offMem rfl a0 a1 a2 a3 a4 a5 a6 a7)), ite_ok, ite_self]) | (with_reducible refine followChain_memOk _ _ ?_) | (with_reducible refine iteP ?_ ?_) | split)

theorem deliverTurn_memOk (idx : Nat) (a : AqFrame) {s : State} (h : memOk s) : memOk (deliverTurn idx a s) := by
  unfold deliverTurn
  repeat' (first | with_reducible assumption | (simp only [(fun a0 a1 a2 => memOk_eq (pushCmac_frame offMem rfl a0 a1 a2)), ite_ok, ite_self]) | (with_reducible refine deliverRoute_memOk _ _ ?_) | (with_reducible refine iteP ?_ ?_) | split)

theorem authStart_memOk (idx i : Nat) (a : AqFrame) {s : State} (h : memOk s) : memOk (authStart idx i a s) := by
  unfold authStart
  repeat' (first | with_reducible assumption | (simp only [(fun a0 a1 a2 => memOk_eq (countA_frame offMem rfl rfl a0 a1 a2)), (fun a0 a1 a2 => memOk_eq (countRoute_frame offMem rfl rfl a0 a1 a2)), (fun a0 a1 a2 => memOk_eq (pushCmac_frame offMem rfl a0 a1 a2)), ite_ok, ite_self]) | (with_reducible refine authFailed_memOk _ _ _ ?_) | (with_reducible refine deliverTurn_memOk _ _ ?_) | (with_reducible refine iteP ?_ ?_) | split)

theorem authDone_memOk (idx i : Nat) (a : AqFrame) {s : State} (h : memOk s) : memOk (authDone idx i a s) := by
  unfold authDone
  repeat' (first | with_reducible assumption | (simp only [(fun a0 a1 => memOk_eq (keyUse_frame offMem rfl a0 a1)), (fun a0 a1 a2 => memOk_eq (countCtx_frame offMem rfl rfl a0 a1 a2)), (fun a0 a1 a2 => memOk_eq (countRoute_frame offMem rfl rfl a0 a1 a2)), (fun a0 a1 a2 => memOk_eq (modCtx_frame offMem rfl a0 a1 a2)), (fun a0 a1 a2 => memOk_eq (setFv_frame offMem rfl a0 a1 a2)), (fun a0 a1 a2 a3 a4 a5 a6 a7 => memOk_eq (emit_frame offMem rfl a0 a1 a2 a3 a4 a5 a6 a7)), ite_ok, ite_self]) | (with_reducible refine authFailed_memOk _ _ _ ?_) | (with_reducible refine deliverRoute_memOk _ _ ?_) | (with_reducible refine iteP ?_ ?_) | split)

theorem arrive_memOk (a : AqFrame) {s : State} (h : memOk s) : memOk (arrive a s) := by
  unfold arrive
  repeat' (first | with_reducible assumption | (with_reducible refine (memOk_eq (takeToken_frame_eq offMem rfl rfl (by with_reducible assumption))).mpr ?_) | (simp only [(fun a0 a1 => memOk_eq (takeToken_frame offMem rfl rfl a0 a1)), (fun a0 a1 a2 => memOk_eq (countA_frame offMem rfl rfl a0 a1 a2)), (fun a0 a1 a2 => memOk_eq (countRoute_frame offMem rfl rfl a0 a1 a2)), ite_ok, ite_self]) | (with_reducible refine deliverTurn_memOk _ _ ?_) | (with_reducible refine authStart_memOk _ _ _ ?_) | (with_reducible refine iteP ?_ ?_) | split)

theorem takeTurn_memOk (q : CmacReq) {s : State} (h : memOk s) : memOk (takeTurn q s) := by
  unfold takeTurn
  repeat' (first | with_reducible assumption | (simp only [ite_ok, ite_self]) | (with_reducible refine authDone_memOk _ _ _ ?_) | (with_reducible refine deliverRoute_memOk _ _ ?_) | (with_reducible refine authFailed_memOk _ _ _ ?_) | (with_reducible refine iteP ?_ ?_) | split)

theorem settleTurns_memOk (l : List CmacReq) {s : State} (h : memOk s) : memOk (settleTurns l s).2 := by
  unfold settleTurns
  repeat' (first | with_reducible assumption | (simp only [ite_ok, ite_self]) | (with_reducible refine takeTurn_memOk _ ?_) | (with_reducible refine foldl_memOk (fun _ _ _ => ?_) ?_) | (with_reducible refine foldl_pair_memOk (fun _ _ _ => ?_) ?_) | (with_reducible refine iteP ?_ ?_) | split)

theorem settleTurns_memOk_eq {l : List CmacReq} {s : State} {x9} {t9} (h : memOk s) (h9 : settleTurns l s = (x9, t9)) : memOk t9 := by
  have h8 := settleTurns_memOk l h
  rw [h9] at h8
  exact h8

theorem execAqueductArrival_memOk {s : State} {t9} (hs : memOk s) (h : execAqueductArrival s = .next t9) : memOk t9 := by
  unfold execAqueductArrival at h
  injection h with h
  subst h
  repeat' (first | with_reducible assumption | (simp only [(fun a0 a1 => memOk_eq (modAq_frame offMem rfl a0 a1)), ite_ok, ite_self]) | (with_reducible refine arrive_memOk _ ?_) | (with_reducible refine iteP ?_ ?_) | split)

theorem execCmacCompletion_memOk {s : State} {t9} (hs : memOk s) (h : execCmacCompletion s = .next t9) : memOk t9 := by
  unfold execCmacCompletion at h
  injection h with h
  subst h
  repeat' (first | with_reducible assumption | (simp only [(fun a0 a1 => memOk_eq (modAq_frame offMem rfl a0 a1)), ite_ok, ite_self]) | (with_reducible refine settleTurns_memOk_eq ?_ (by with_reducible assumption)) | (with_reducible refine settleTurns_memOk _ ?_) | (with_reducible refine takeTurn_memOk _ ?_) | (with_reducible refine iteP ?_ ?_) | split)

theorem writeSlot_memOk (e k : Nat) (b : List Byte) {s : State} (h : memOk s) : memOk (writeSlot e k b s) := by
  unfold writeSlot
  repeat' (first | with_reducible assumption | (simp only [(fun a0 a1 a2 => memOk_eq (modWin_frame offMem rfl a0 a1 a2)), ite_ok, ite_self]) | (with_reducible refine storeBytes_memOk _ _ ?_) | (with_reducible refine iteP ?_ ?_) | split)

theorem sendWindow_memOk (p e : Nat) {s : State} (h : memOk s) : memOk (sendWindow p e s) := by
  unfold sendWindow
  repeat' (first | with_reducible assumption | (simp only [(fun a0 a1 a2 => memOk_eq (modPq_frame offMem rfl a0 a1 a2)), (fun a0 a1 a2 => memOk_eq (stopIfDone_frame offMem rfl a0 a1 a2)), ite_ok, ite_self]) | (with_reducible refine writeSlot_memOk _ _ _ ?_) | (with_reducible refine iteP ?_ ?_) | split)

theorem execReceiveRingPost_memOk {e r tail : Nat} {l : List Desc} {s : State} {t9} (hs : memOk s) (h : execReceiveRingPost e r tail l s = .next t9) : memOk t9 := by
  obtain ⟨-, rfl⟩ := guardUnit_next h
  repeat' (first | with_reducible assumption | (with_reducible refine (memOk_eq (tailWrite_frame_eq offMem rfl (by with_reducible assumption))).mpr ?_) | (simp only [(fun a0 a1 a2 => memOk_eq (modHring_frame offMem rfl a0 a1 a2)), (fun a0 a1 a2 a3 => memOk_eq (tailWrite_frame offMem rfl a0 a1 a2 a3)), ite_ok, ite_self]) | (with_reducible refine drainQueue_memOk _ _ ?_) | (with_reducible refine iteP ?_ ?_) | split)

theorem execOutboundDoorbell_memOk {p : Nat} {s : State} {t9} (hs : memOk s) (h : execOutboundDoorbell p s = .next t9) : memOk t9 := by
  obtain ⟨-, rfl⟩ := guardUnit_next h
  repeat' (first | with_reducible assumption | (simp only [(fun a0 a1 => memOk_eq (sendEth_frame offMem rfl rfl rfl a0 a1)), ite_ok, ite_self]) | (with_reducible refine sendWindow_memOk _ _ ?_) | (with_reducible refine iteP ?_ ?_) | split)

theorem lhEnd_memOk (p got : Nat) (trunc : Bool) {s : State} (h : memOk s) : memOk (lhEnd p got trunc s) := by
  unfold lhEnd
  repeat' (first | with_reducible assumption | (with_reducible refine (memOk_eq (takeFree_frame_eq offMem rfl (by with_reducible assumption))).mpr ?_) | (simp only [(fun a0 => memOk_eq (takeFree_frame offMem rfl a0)), (fun a0 a1 a2 => memOk_eq (lhFail_frame offMem rfl a0 a1 a2)), (fun a0 a1 a2 => memOk_eq (modBox_frame offMem rfl a0 a1 a2)), ite_ok, ite_self]) | (with_reducible refine lhScrub_memOk _ _ ?_) | (with_reducible refine storeBytes_memOk _ _ ?_) | (with_reducible refine iteP ?_ ?_) | split)

theorem lhAbort_memOk (p : Nat) {s : State} (h : memOk s) : memOk (lhAbort p s) := by
  unfold lhAbort
  repeat' (first | with_reducible assumption | (simp only [(fun a0 a1 a2 => memOk_eq (lhFail_frame offMem rfl a0 a1 a2)), ite_ok, ite_self]) | (with_reducible refine lhScrubOpen_memOk _ ?_) | (with_reducible refine iteP ?_ ?_) | split)

theorem lhAbortAll_memOk  {s : State} (h : memOk s) : memOk (lhAbortAll s) := by
  unfold lhAbortAll
  repeat' (first | with_reducible assumption | (simp only [ite_ok, ite_self]) | (with_reducible refine lhAbort_memOk _ ?_) | (with_reducible refine foldl_memOk (fun _ _ _ => ?_) ?_) | (with_reducible refine foldl_pair_memOk (fun _ _ _ => ?_) ?_) | (with_reducible refine iteP ?_ ?_) | split)

theorem forceCut_memOk (bits cause : Nat) {s : State} (h : memOk s) : memOk (forceCut bits cause s) := by
  unfold forceCut
  repeat' (first | with_reducible assumption | (simp only [(fun a0 a1 => memOk_eq (lhCount_frame offMem rfl a0 a1)), (fun a0 a1 => memOk_eq (returnBlock_frame offMem rfl a0 a1)), (fun a0 a1 a2 a3 a4 a5 a6 a7 => memOk_eq (emit_frame offMem rfl a0 a1 a2 a3 a4 a5 a6 a7)), ite_ok, ite_self]) | (with_reducible refine lhAbortAll_memOk ?_) | (with_reducible refine iteP ?_ ?_) | split)

theorem lightReset_memOk  {s : State} (h : memOk s) : memOk (lightReset s) := by
  unfold lightReset
  repeat' (first | with_reducible assumption | (simp only [(fun a0 => memOk_eq (endDebug_frame offMem rfl rfl rfl a0)), (fun a0 a1 => memOk_eq (modLight_frame offMem rfl a0 a1)), (fun a0 a1 => memOk_eq (returnBlock_frame offMem rfl a0 a1)), (fun a0 a1 a2 a3 a4 a5 a6 a7 => memOk_eq (emit_frame offMem rfl a0 a1 a2 a3 a4 a5 a6 a7)), ite_ok, ite_self]) | (with_reducible refine lhAbortAll_memOk ?_) | (with_reducible refine iteP ?_ ?_) | split)

theorem execLhRequestComplete_memOk {p got : Nat} {trunc : Bool} {s : State} {t9} (hs : memOk s) (h : execLhRequestComplete p got trunc s = .next t9) : memOk t9 := by
  obtain ⟨-, rfl⟩ := guardUnit_next h
  repeat' (first | with_reducible assumption | (simp only [ite_ok, ite_self]) | (with_reducible refine lhEnd_memOk _ _ _ ?_) | (with_reducible refine iteP ?_ ?_) | split)

theorem execLhWatchdogExpiry_memOk {s : State} {t9} (hs : memOk s) (h : execLhWatchdogExpiry s = .next t9) : memOk t9 := by
  unfold execLhWatchdogExpiry at h
  injection h with h
  subst h
  repeat' (first | with_reducible assumption | (simp only [(fun a0 a1 a2 => memOk_eq (detect_frame offMem rfl rfl a0 a1 a2)), ite_ok, ite_self]) | (with_reducible refine lightReset_memOk ?_) | (with_reducible refine iteP ?_ ?_) | split)

theorem execClaimDeferralTimeout_memOk {s : State} {t9} (hs : memOk s) (h : execClaimDeferralTimeout s = .next t9) : memOk t9 := by
  unfold execClaimDeferralTimeout at h
  injection h with h
  subst h
  repeat' (first | with_reducible assumption | (simp only [(fun a0 a1 => memOk_eq (modPwr_frame offMem rfl a0 a1)), ite_ok, ite_self]) | (with_reducible refine forceCut_memOk _ _ ?_) | (with_reducible refine iteP ?_ ?_) | split)

theorem keeperDown_memOk {s : State} (h : memOk s) : memOk (keeperDown s) := memory_wf_filter _ _ h

theorem enterSleep_memOk  {s : State} (h : memOk s) : memOk (enterSleep s) := by
  unfold enterSleep
  repeat' (first | with_reducible assumption | (simp only [(fun a0 a1 => memOk_eq (modPwr_frame offMem rfl a0 a1)), ite_ok, ite_self]) | (with_reducible refine keeperDown_memOk ?_) | (with_reducible refine iteP ?_ ?_) | split)

theorem execSleepEntry_memOk {s : State} {t9} (hs : memOk s) (h : execSleepEntry s = .next t9) : memOk t9 := by
  unfold execSleepEntry at h
  injection h with h
  subst h
  repeat' (first | with_reducible assumption | (simp only [ite_ok, ite_self]) | (with_reducible refine enterSleep_memOk ?_) | (with_reducible refine iteP ?_ ?_) | split)

theorem execSleepPath_memOk {s : State} {t9} (hs : memOk s) (h : execSleepPath s = .next t9) : memOk t9 := by
  unfold execSleepPath at h
  injection h with h
  subst h
  repeat' (first | with_reducible assumption | (simp only [(fun a0 => memOk_eq (armLast_frame offMem rfl rfl rfl rfl a0)), (fun a0 => memOk_eq (outputsOff_frame offMem rfl rfl rfl a0)), (fun a0 a1 => memOk_eq (modPwr_frame offMem rfl a0 a1)), (fun a0 a1 => memOk_eq (storeNodes_frame offMem rfl a0 a1)), ite_ok, ite_self]) | (with_reducible refine enterSleep_memOk ?_) | (with_reducible refine iteP ?_ ?_) | split)

theorem execBoardnetLoss_memOk {s : State} {t9} (hs : memOk s) (h : execBoardnetLoss s = .next t9) : memOk t9 := by
  unfold execBoardnetLoss at h
  injection h with h
  subst h
  repeat' (first | with_reducible assumption | (simp only [(fun a0 a1 => memOk_eq (modPwr_frame offMem rfl a0 a1)), ite_ok, ite_self]) | (with_reducible refine keeperDown_memOk ?_) | (with_reducible refine iteP ?_ ?_) | split)

theorem execWakeDomainReset_memOk {s t : State} (hs : memOk s) (h : execWakeDomainReset s = .next t) : memOk t := by
  unfold execWakeDomainReset at h
  injection h with h
  subst h
  exact keeperDown_memOk hs

theorem execResetAssert_memOk {s : State} {t9} (hs : memOk s) (h : execResetAssert s = .next t9) : memOk t9 := by
  unfold execResetAssert at h
  injection h with h
  subst h
  repeat' (first | with_reducible assumption | (simp only [(fun a0 => memOk_eq (faultFall_frame offMem rfl a0)), (fun a0 a1 => memOk_eq (modPwr_frame offMem rfl a0 a1)), (fun a0 a1 => memOk_eq (modSys_frame offMem rfl a0 a1)), ite_ok, ite_self]) | (with_reducible refine keeperDown_memOk ?_) | (with_reducible refine iteP ?_ ?_) | split)

theorem forcedOff_memOk  {s : State} (h : memOk s) : memOk (forcedOff s) := by
  unfold forcedOff
  repeat' (first | with_reducible assumption | (simp only [(fun a0 => memOk_eq (refuseLevel_frame offMem rfl a0)), (fun a0 => memOk_eq (vcoreOff_frame offMem rfl rfl rfl a0)), (fun a0 a1 => memOk_eq (modPwr_frame offMem rfl a0 a1)), (fun a0 a1 => memOk_eq (stopPartitions_frame offMem rfl rfl a0 a1)), (fun a0 a1 => memOk_eq (storeNodes_frame offMem rfl a0 a1)), (fun a0 a1 => memOk_eq (supsStandby_frame offMem rfl a0 a1)), (fun a0 a1 a2 => memOk_eq (setPowerState_frame offMem rfl rfl a0 a1 a2)), ite_ok, ite_self]) | (with_reducible refine forceCut_memOk _ _ ?_) | (with_reducible refine iteP ?_ ?_) | split)

theorem execThermalEmergency_memOk {s : State} {t9} (hs : memOk s) (h : execThermalEmergency s = .next t9) : memOk t9 := by
  unfold execThermalEmergency at h
  injection h with h
  subst h
  repeat' (first | with_reducible assumption | (simp only [(fun a0 a1 a2 => memOk_eq (detect_frame offMem rfl rfl a0 a1 a2)), ite_ok, ite_self]) | (with_reducible refine forcedOff_memOk ?_) | (with_reducible refine iteP ?_ ?_) | split)

theorem execVkeepMon_memOk {s : State} {t9} (hs : memOk s) (h : execVkeepMon s = .next t9) : memOk t9 := by
  unfold execVkeepMon at h
  injection h with h
  subst h
  repeat' (first | with_reducible assumption | (simp only [(fun a0 a1 => memOk_eq (modPwr_frame offMem rfl a0 a1)), (fun a0 a1 => memOk_eq (railOut_frame offMem rfl a0 a1)), (fun a0 a1 a2 => memOk_eq (detectLatch_frame offMem rfl rfl a0 a1 a2)), ite_ok, ite_self]) | (with_reducible refine keeperDown_memOk ?_) | (with_reducible refine iteP ?_ ?_) | split)

theorem vcoreLost_memOk (again : Bool) {s : State} (h : memOk s) : memOk (vcoreLost again s) := by
  unfold vcoreLost
  repeat' (first | with_reducible assumption | (simp only [(fun a0 a1 => memOk_eq (modPwr_frame offMem rfl a0 a1)), (fun a0 a1 => memOk_eq (railOut_frame offMem rfl a0 a1)), (fun a0 a1 a2 => memOk_eq (detect_frame offMem rfl rfl a0 a1 a2)), ite_ok, ite_self]) | (with_reducible refine forcedOff_memOk ?_) | (with_reducible refine iteP ?_ ?_) | split)

theorem execVcoreMon_memOk {s : State} {t9} (hs : memOk s) (h : execVcoreMon s = .next t9) : memOk t9 := by
  unfold execVcoreMon at h
  injection h with h
  subst h
  repeat' (first | with_reducible assumption | (simp only [(fun a0 a1 => memOk_eq (vcoreReturnUnless_frame offMem rfl a0 a1)), ite_ok, ite_self]) | (with_reducible refine vcoreLost_memOk _ ?_) | (with_reducible refine iteP ?_ ?_) | split)

theorem execVioMon_memOk {rail : Nat} {low : Bool} {s : State} {t9} (hs : memOk s) (h : execVioMon rail low s = .next t9) : memOk t9 := by
  obtain ⟨-, rfl⟩ := guardUnit_next h
  repeat' (first | with_reducible assumption | (simp only [(fun a0 => memOk_eq (busesStandby_frame offMem rfl rfl a0)), (fun a0 a1 => memOk_eq (modCan_frame offMem rfl a0 a1)), (fun a0 a1 => memOk_eq (modPwr_frame offMem rfl a0 a1)), (fun a0 a1 => memOk_eq (railOut_frame offMem rfl a0 a1)), (fun a0 a1 a2 => memOk_eq (detectLatch_frame offMem rfl rfl a0 a1 a2)), (fun a0 a1 a2 => memOk_eq (detect_frame offMem rfl rfl a0 a1 a2)), ite_ok, ite_self]) | (with_reducible refine keeperDown_memOk ?_) | (with_reducible refine iteP ?_ ?_) | split)

theorem localReaction_memOk (bp i e : Nat) {s : State} (h : memOk s) : memOk (localReaction bp i e s) := by
  unfold localReaction
  repeat' (first | with_reducible assumption | (with_reducible refine nextOr_memOk (fun _ h => (memOk_eq (execLidSensorMismatch_frame offMem rfl rfl rfl h)).mpr ?_) ?_) | (with_reducible refine nextOr_memOk (fun _ h => (memOk_eq (execBudgetFail_frame offMem rfl rfl rfl h)).mpr ?_) ?_) | (with_reducible refine nextOr_memOk (fun _ h => (memOk_eq (execReverseTrip_frame offMem rfl rfl rfl rfl h)).mpr ?_) ?_) | (with_reducible refine nextOr_memOk (fun _ h => (memOk_eq (execAdcCrossCheckFailure_frame offMem rfl rfl rfl h)).mpr ?_) ?_) | (with_reducible refine nextOr_memOk (fun _ h => (memOk_eq (execCliffLatchSet_frame offMem rfl rfl rfl rfl h)).mpr ?_) ?_) | (with_reducible refine nextOr_memOk (fun _ h => (memOk_eq (execGroupRiseVOv_frame offMem rfl rfl rfl h)).mpr ?_) ?_) | (with_reducible refine nextOr_memOk (fun _ h => (memOk_eq (execCanDominantTimeout_frame offMem rfl rfl rfl h)).mpr ?_) ?_) | (with_reducible refine nextOr_memOk (fun _ h => (memOk_eq (execSegmentFailure_frame offMem rfl rfl rfl rfl h)).mpr ?_) ?_) | (with_reducible refine nextOr_memOk (fun _ h => (memOk_eq (execShortTrip_frame offMem rfl rfl rfl rfl h)).mpr ?_) ?_) | (with_reducible refine nextOr_memOk (fun _ h => (memOk_eq (execClockMon_frame offMem rfl rfl rfl rfl h)).mpr ?_) ?_) | (with_reducible refine nextOr_memOk (fun _ h => (memOk_eq (execSilenceExpiry_frame offMem rfl rfl rfl h)).mpr ?_) ?_) | (with_reducible refine nextOr_memOk (fun _ h => (memOk_eq (execAdcReferenceFailure_frame offMem rfl rfl rfl rfl rfl rfl h)).mpr ?_) ?_) | (with_reducible refine nextOr_memOk (fun _ h => (memOk_eq (execLimitTimerExpiry_frame offMem rfl rfl rfl rfl h)).mpr ?_) ?_) | (with_reducible refine nextOr_memOk (fun _ h => (memOk_eq (execGroupFallVFull_frame offMem rfl rfl rfl h)).mpr ?_) ?_) | (simp only [(fun a0 => memOk_eq (declareSilent_frame offMem rfl rfl rfl rfl rfl rfl a0)), (fun a0 => memOk_eq (forcedEnd_frame offMem rfl a0)), (fun a0 a1 => memOk_eq (bridgeStop_frame offMem rfl rfl rfl a0 a1)), (fun a0 a1 => memOk_eq (condemn_frame offMem rfl rfl rfl rfl a0 a1)), (fun a0 a1 => memOk_eq (enterBusOff_frame offMem rfl rfl rfl rfl a0 a1)), (fun a0 a1 => memOk_eq (gateOff_frame offMem rfl a0 a1)), (fun a0 a1 => memOk_eq (modFv_frame offMem rfl rfl a0 a1)), (fun a0 a1 => memOk_eq (modLight_frame offMem rfl a0 a1)), (fun a0 a1 => memOk_eq (modPwr_frame offMem rfl a0 a1)), (fun a0 a1 => memOk_eq (servoHold_frame offMem rfl rfl a0 a1)), (fun a0 a1 => memOk_eq (stuckSeen_frame offMem rfl rfl a0 a1)), (fun a0 a1 => memOk_eq (tpSet_frame offMem rfl rfl rfl a0 a1)), (fun a0 a1 a2 => memOk_eq (modBank_frame offMem rfl a0 a1 a2)), (fun a0 a1 a2 => memOk_eq (modCanCh_frame offMem rfl a0 a1 a2)), (fun a0 a1 a2 => memOk_eq (modSup_frame offMem rfl a0 a1 a2)), (fun a0 a1 a2 => memOk_eq (modWire_frame offMem rfl a0 a1 a2)), (fun a0 a1 a2 => memOk_eq (pinch_frame offMem rfl rfl rfl rfl rfl a0 a1 a2)), (fun a0 a1 a2 => memOk_eq (setLink_frame offMem rfl rfl a0 a1 a2)), (fun a0 a1 a2 a3 => memOk_eq (supOff_frame offMem rfl rfl rfl a0 a1 a2 a3)), ite_ok, ite_self]) | (with_reducible refine keeperDown_memOk ?_) | (with_reducible refine forcedOff_memOk ?_) | (with_reducible refine lightReset_memOk ?_) | (with_reducible refine iteP ?_ ?_) | split)

theorem fullReaction_memOk (r : BreachRun) {s : State} (h : memOk s) : memOk (fullReaction r s) := by
  unfold fullReaction
  repeat' (first | with_reducible assumption | (with_reducible refine (memOk_eq (takeFree_frame_eq offMem rfl (by with_reducible assumption))).mpr ?_) | (simp only [(fun a0 => memOk_eq (takeFree_frame offMem rfl a0)), (fun a0 a1 => memOk_eq (modSaf_frame offMem rfl rfl rfl rfl a0 a1)), ite_ok, ite_self]) | (with_reducible refine localReaction_memOk _ _ _ ?_) | (with_reducible refine iteP ?_ ?_) | split)

theorem execBreachResultWindowEnd_memOk {bp : Nat} {reaction : Option Nat} {s : State} {t9} (hs : memOk s) (h : execBreachResultWindowEnd bp reaction s = .next t9) : memOk t9 := by
  obtain ⟨-, rfl⟩ := guardUnit_next h
  repeat' (first | with_reducible assumption | (with_reducible refine (memOk_eq (reactionOf_frame_eq offMem rfl (by with_reducible assumption))).mpr ?_) | (simp only [(fun a0 a1 => memOk_eq (modSaf_frame offMem rfl rfl rfl rfl a0 a1)), (fun a0 a1 => memOk_eq (reactionOf_frame offMem rfl a0 a1)), (fun a0 a1 a2 => memOk_eq (breachResult_frame offMem rfl a0 a1 a2)), (fun a0 a1 a2 a3 a4 a5 a6 => memOk_eq (breachRecord_frame offMem rfl a0 a1 a2 a3 a4 a5 a6)), ite_ok, ite_self]) | (with_reducible refine fullReaction_memOk _ ?_) | (with_reducible refine iteP ?_ ?_) | split)

theorem plainClasses_memKeeps {k : ClassSpec} (h : k ∈ plainClasses) : MemKeeps k := by
  simp only [plainClasses, List.mem_cons, List.not_mem_nil, or_false] at h
  rcases h with rfl | rfl | rfl | rfl | rfl | rfl | rfl | rfl | rfl | rfl | rfl | rfl | rfl | rfl | rfl | rfl | rfl | rfl | rfl | rfl | rfl | rfl | rfl | rfl | rfl | rfl
  · exact MemKeeps.of (sysClass_keeps offMem rfl)
  · exact MemKeeps.of (cycleClass_keeps offMem rfl rfl rfl)
  · exact MemKeeps.of (timeClass_keeps offMem rfl rfl)
  · exact MemKeeps.of (chanClass_keeps offMem rfl)
  · exact MemKeeps.of (wireClass_keeps offMem rfl rfl)
  · exact MemKeeps.of (padClass_keeps offMem rfl)
  · exact MemKeeps.of (brClass_keeps offMem rfl rfl)
  · exact MemKeeps.of (dinClass_keeps offMem rfl rfl rfl)
  · exact MemKeeps.of (foutClass_keeps offMem rfl)
  · exact MemKeeps.of (ainClass_keeps offMem rfl)
  · exact MemKeeps.of (tpClass_keeps offMem rfl rfl rfl)
  · exact MemKeeps.of (canClass_keeps offMem rfl rfl rfl)
  · exact MemKeeps.of (linClass_keeps offMem rfl)
  · exact MemKeeps.of (nmClass_keeps offMem rfl)
  · exact MemKeeps.of (routeClass_keeps offMem rfl)
  · exact MemKeeps.of (portClass_keeps offMem rfl rfl)
  · exact MemKeeps.of (basinClass_keeps offMem rfl)
  · exact streamClass_memKeeps
  · exact MemKeeps.of (coreClass_keeps offMem rfl)
  · exact MemKeeps.of (towClass_keeps offMem rfl rfl)
  · exact MemKeeps.of (lightClass_keeps offMem rfl rfl rfl rfl)
  · exact MemKeeps.of (keyClass_keeps offMem rfl rfl rfl rfl)
  · exact MemKeeps.of (safeClass_keeps offMem rfl rfl rfl rfl rfl rfl rfl rfl rfl rfl rfl rfl)
  · exact MemKeeps.of (breachClass_keeps offMem rfl)
  · exact MemKeeps.of (pondClass_keeps offMem rfl rfl rfl rfl rfl rfl)
  · exact MemKeeps.of (powerClass_keeps offMem rfl rfl rfl rfl rfl rfl rfl rfl rfl rfl rfl rfl)

theorem chartClasses_memKeeps {k : ClassSpec} (h : k ∈ chartClasses) : MemKeeps k := by
  rcases List.mem_append.mp h with h | h
  · exact plainClasses_memKeeps h
  · rw [List.mem_singleton.mp h]
    exact MemKeeps.of (poundClass_keeps offMem rfl rfl rfl rfl rfl rfl rfl rfl rfl rfl)


theorem chartFields_memOk (c i part : Nat) (ws : List (Nat × Nat)) {s : State} (h : memOk s) : memOk (chartFields c i part ws s) := by
  unfold chartFields
  split
  · rename_i k hk
    exact (chartClasses_memKeeps (List.mem_of_find?_eq_some hk)).set h
  · exact h

theorem loadItem_memOk (x : ChartItem) {s : State} (h : memOk s) : memOk (loadItem x s) := by
  unfold loadItem
  repeat' (first | with_reducible assumption | (simp only [(fun a0 a1 a2 a3 => memOk_eq (setParam_frame offMem rfl rfl rfl rfl rfl rfl rfl rfl rfl rfl rfl rfl a0 a1 a2 a3)), ite_ok, ite_self]) | (with_reducible refine chartFields_memOk _ _ _ _ ?_) | (with_reducible refine iteP ?_ ?_) | split)

theorem commitTable_memOk (l : List ChartItem) {s : State} (h : memOk s) : memOk (commitTable l s) := by
  unfold commitTable
  repeat' (first | with_reducible assumption | (simp only [ite_ok, ite_self]) | (with_reducible refine writeTable_memOk _ ?_) | (with_reducible refine iteP ?_ ?_) | split)

theorem liveCommit_memOk (k : Nat) {s : State} (h : memOk s) : memOk (liveCommit k s) := by
  unfold liveCommit
  repeat' (first | with_reducible assumption | (simp only [(fun a0 a1 => memOk_eq (takeSlot_frame offMem rfl a0 a1)), (fun a0 a1 a2 a3 a4 a5 a6 a7 => memOk_eq (emit_frame offMem rfl a0 a1 a2 a3 a4 a5 a6 a7)), ite_ok, ite_self]) | (with_reducible refine commitTable_memOk _ ?_) | (with_reducible refine chartFields_memOk _ _ _ _ ?_) | (with_reducible refine foldl_memOk (fun _ _ _ => ?_) ?_) | (with_reducible refine foldl_pair_memOk (fun _ _ _ => ?_) ?_) | (with_reducible refine iteP ?_ ?_) | split)

theorem commitNow_memOk (c : Commit) {s : State} (h : memOk s) : memOk (commitNow c s) := by
  unfold commitNow
  repeat' (first | with_reducible assumption | (simp only [(fun a0 a1 => memOk_eq (modImg_frame offMem rfl a0 a1)), (fun a0 a1 a2 => memOk_eq (chartRefused_frame offMem rfl a0 a1 a2)), (fun a0 a1 a2 => memOk_eq (setSlotState_frame offMem rfl a0 a1 a2)), (fun a0 a1 a2 a3 a4 a5 a6 => memOk_eq (answer_frame offMem rfl a0 a1 a2 a3 a4 a5 a6)), ite_ok, ite_self]) | (with_reducible refine liveCommit_memOk _ ?_) | (with_reducible refine iteP ?_ ?_) | split)

theorem commitBoundary_memOk (img : Bool) {s : State} (h : memOk s) : memOk (commitBoundary img s) := by
  unfold commitBoundary
  repeat' (first | with_reducible assumption | (simp only [(fun a0 a1 => memOk_eq (modImg_frame offMem rfl a0 a1)), ite_ok, ite_self]) | (with_reducible refine commitNow_memOk _ ?_) | (with_reducible refine iteP ?_ ?_) | split)

theorem writeUnit_memOk (base off : Nat) (d : List Byte) {s : State} (h : memOk s) : memOk (writeUnit base off d s) := by
  unfold writeUnit
  repeat' (first | with_reducible assumption | (simp only [ite_ok, ite_self]) | (with_reducible refine storeBytes_memOk _ _ ?_) | (with_reducible refine iteP ?_ ?_) | split)

theorem imageClass_keepsRec {i p : Nat} {rc : Rec} (h : imageClass.record i p = some rc) : FldsKeep offMem rc.flds := by
  simp only [imageClass] at h
  split at h
  · injection h with h
    subst h
    exact imageRec_keeps offMem _
  · cases h

theorem imageClass_memKeeps : MemKeeps imageClass where
  set h := by
    unfold applySet
    split
    · rename_i rc hr
      exact (memOk_eq (writeFlds_frame offMem (imageClass_keepsRec hr) _ _)).mpr h
    · exact h
  onRead h := h
  held h e := by cases e
  run ha h := by
    simp only [imageClass, List.mem_cons, List.not_mem_nil, or_false] at ha
    rcases ha with rfl | rfl | rfl | rfl
    all_goals (dsimp only; repeat' (first | with_reducible assumption | (simp only [(fun a0 a1 => memOk_eq (rollback_frame offMem rfl rfl rfl rfl a0 a1)), (fun a0 a1 a2 => memOk_eq (modBankImg_frame offMem rfl a0 a1 a2)), (fun a0 a1 a2 => memOk_eq (setBankState_frame offMem rfl a0 a1 a2)), (fun a0 a1 a2 a3 a4 a5 => memOk_eq (beginAct_frame offMem rfl rfl rfl rfl a0 a1 a2 a3 a4 a5)), (fun a0 a1 a2 a3 a4 a5 a6 a7 => memOk_eq (emit_frame offMem rfl a0 a1 a2 a3 a4 a5 a6 a7)), ite_ok, ite_self]) | (with_reducible refine writeUnit_memOk _ _ _ ?_) | (with_reducible refine iteP ?_ ?_) | split))
  taken ha h := by
    simp only [imageClass, List.mem_cons, List.not_mem_nil, or_false] at ha
    rcases ha with rfl | rfl | rfl | rfl
    all_goals exact h
  refuse ha h := by
    simp only [imageClass, List.mem_cons, List.not_mem_nil, or_false] at ha
    rcases ha with rfl | rfl | rfl | rfl
    all_goals (dsimp only; repeat' (first | with_reducible assumption | (simp only [(fun a0 a1 => memOk_eq (rollback_frame offMem rfl rfl rfl rfl a0 a1)), (fun a0 a1 a2 => memOk_eq (modBankImg_frame offMem rfl a0 a1 a2)), (fun a0 a1 a2 => memOk_eq (setBankState_frame offMem rfl a0 a1 a2)), (fun a0 a1 a2 a3 a4 a5 => memOk_eq (beginAct_frame offMem rfl rfl rfl rfl a0 a1 a2 a3 a4 a5)), (fun a0 a1 a2 a3 a4 a5 a6 a7 => memOk_eq (emit_frame offMem rfl a0 a1 a2 a3 a4 a5 a6 a7)), ite_ok, ite_self]) | (with_reducible refine writeUnit_memOk _ _ _ ?_) | (with_reducible refine iteP ?_ ?_) | split))
  aheld ha h e := by
    simp only [imageClass, List.mem_cons, List.not_mem_nil, or_false] at ha
    rcases ha with rfl | rfl | rfl | rfl
    all_goals first | (cases e; done) | (dsimp only at e; injection e with e; subst e; repeat' (first | with_reducible assumption | (simp only [(fun a0 a1 => memOk_eq (rollback_frame offMem rfl rfl rfl rfl a0 a1)), (fun a0 a1 a2 => memOk_eq (modBankImg_frame offMem rfl a0 a1 a2)), (fun a0 a1 a2 => memOk_eq (setBankState_frame offMem rfl a0 a1 a2)), (fun a0 a1 a2 a3 a4 a5 => memOk_eq (beginAct_frame offMem rfl rfl rfl rfl a0 a1 a2 a3 a4 a5)), (fun a0 a1 a2 a3 a4 a5 a6 a7 => memOk_eq (emit_frame offMem rfl a0 a1 a2 a3 a4 a5 a6 a7)), ite_ok, ite_self]) | (with_reducible refine writeUnit_memOk _ _ _ ?_) | (with_reducible refine iteP ?_ ?_) | split))

theorem chartSpec_memKeeps : MemKeeps chartSpec where
  set h := by
    unfold applySet
    split
    · rename_i rc hr
      exact (memOk_eq (writeFlds_frame offMem (by cases hr) _ _)).mpr h
    · exact h
  onRead h := h
  held h e := by cases e
  run ha h := by
    simp only [chartSpec, List.mem_cons, List.not_mem_nil, or_false] at ha
    rcases ha with rfl | rfl | rfl
    all_goals (dsimp only; repeat' (first | with_reducible assumption | (simp only [(fun a0 a1 => memOk_eq (readSlot_frame offMem rfl a0 a1)), (fun a0 a1 a2 => memOk_eq (modSlotImg_frame offMem rfl a0 a1 a2)), (fun a0 a1 a2 => memOk_eq (setSlotState_frame offMem rfl a0 a1 a2)), (fun a0 a1 a2 a3 => memOk_eq (beginCommit_frame offMem rfl rfl a0 a1 a2 a3)), (fun a0 a1 a2 a3 => memOk_eq (refuseChart_frame offMem rfl rfl a0 a1 a2 a3)), ite_ok, ite_self]) | (with_reducible refine writeUnit_memOk _ _ _ ?_) | (with_reducible refine iteP ?_ ?_) | split))
  taken ha h := by
    simp only [chartSpec, List.mem_cons, List.not_mem_nil, or_false] at ha
    rcases ha with rfl | rfl | rfl
    all_goals exact h
  refuse ha h := by
    simp only [chartSpec, List.mem_cons, List.not_mem_nil, or_false] at ha
    rcases ha with rfl | rfl | rfl
    all_goals (dsimp only; repeat' (first | with_reducible assumption | (simp only [(fun a0 a1 => memOk_eq (readSlot_frame offMem rfl a0 a1)), (fun a0 a1 a2 => memOk_eq (modSlotImg_frame offMem rfl a0 a1 a2)), (fun a0 a1 a2 => memOk_eq (setSlotState_frame offMem rfl a0 a1 a2)), (fun a0 a1 a2 a3 => memOk_eq (beginCommit_frame offMem rfl rfl a0 a1 a2 a3)), (fun a0 a1 a2 a3 => memOk_eq (refuseChart_frame offMem rfl rfl a0 a1 a2 a3)), ite_ok, ite_self]) | (with_reducible refine writeUnit_memOk _ _ _ ?_) | (with_reducible refine iteP ?_ ?_) | split))
  aheld ha h e := by
    simp only [chartSpec, List.mem_cons, List.not_mem_nil, or_false] at ha
    rcases ha with rfl | rfl | rfl
    all_goals first | (cases e; done) | (dsimp only at e; injection e with e; subst e; repeat' (first | with_reducible assumption | (simp only [(fun a0 a1 => memOk_eq (readSlot_frame offMem rfl a0 a1)), (fun a0 a1 a2 => memOk_eq (modSlotImg_frame offMem rfl a0 a1 a2)), (fun a0 a1 a2 => memOk_eq (setSlotState_frame offMem rfl a0 a1 a2)), (fun a0 a1 a2 a3 => memOk_eq (beginCommit_frame offMem rfl rfl a0 a1 a2 a3)), (fun a0 a1 a2 a3 => memOk_eq (refuseChart_frame offMem rfl rfl a0 a1 a2 a3)), ite_ok, ite_self]) | (with_reducible refine writeUnit_memOk _ _ _ ?_) | (with_reducible refine iteP ?_ ?_) | split))

theorem execImageWrite_memOk {r : Req} {s : State} {t9} (hs : memOk s) (h : execImageWrite r s = .next t9) : memOk t9 := by
  unfold execImageWrite at h
  injection h with h
  subst h
  repeat' (first | with_reducible assumption | (simp only [ite_ok, ite_self]) | (with_reducible refine cmdAct_memOk imageClass_memKeeps ?_) | (with_reducible refine cmdAct_memOk chartSpec_memKeeps ?_) | (with_reducible refine cmdAct_memOk streamClass_memKeeps ?_) | (with_reducible refine iteP ?_ ?_) | split)

theorem execImageVerify_memOk {r : Req} {s : State} {t9} (hs : memOk s) (h : execImageVerify r s = .next t9) : memOk t9 := by
  unfold execImageVerify at h
  injection h with h
  subst h
  repeat' (first | with_reducible assumption | (simp only [ite_ok, ite_self]) | (with_reducible refine cmdAct_memOk imageClass_memKeeps ?_) | (with_reducible refine cmdAct_memOk chartSpec_memKeeps ?_) | (with_reducible refine cmdAct_memOk streamClass_memKeeps ?_) | (with_reducible refine iteP ?_ ?_) | split)

theorem execImageActivate_memOk {r : Req} {s : State} {t9} (hs : memOk s) (h : execImageActivate r s = .next t9) : memOk t9 := by
  unfold execImageActivate at h
  injection h with h
  subst h
  repeat' (first | with_reducible assumption | (simp only [ite_ok, ite_self]) | (with_reducible refine cmdAct_memOk imageClass_memKeeps ?_) | (with_reducible refine cmdAct_memOk chartSpec_memKeeps ?_) | (with_reducible refine cmdAct_memOk streamClass_memKeeps ?_) | (with_reducible refine iteP ?_ ?_) | split)

theorem execImageRollback_memOk {r : Req} {s : State} {t9} (hs : memOk s) (h : execImageRollback r s = .next t9) : memOk t9 := by
  unfold execImageRollback at h
  injection h with h
  subst h
  repeat' (first | with_reducible assumption | (simp only [ite_ok, ite_self]) | (with_reducible refine cmdAct_memOk imageClass_memKeeps ?_) | (with_reducible refine cmdAct_memOk chartSpec_memKeeps ?_) | (with_reducible refine cmdAct_memOk streamClass_memKeeps ?_) | (with_reducible refine iteP ?_ ?_) | split)

theorem execChartWrite_memOk {r : Req} {s : State} {t9} (hs : memOk s) (h : execChartWrite r s = .next t9) : memOk t9 := by
  unfold execChartWrite at h
  injection h with h
  subst h
  repeat' (first | with_reducible assumption | (simp only [ite_ok, ite_self]) | (with_reducible refine cmdAct_memOk imageClass_memKeeps ?_) | (with_reducible refine cmdAct_memOk chartSpec_memKeeps ?_) | (with_reducible refine cmdAct_memOk streamClass_memKeeps ?_) | (with_reducible refine iteP ?_ ?_) | split)

theorem execChartCommit_memOk {r : Req} {s : State} {t9} (hs : memOk s) (h : execChartCommit r s = .next t9) : memOk t9 := by
  unfold execChartCommit at h
  injection h with h
  subst h
  repeat' (first | with_reducible assumption | (simp only [ite_ok, ite_self]) | (with_reducible refine cmdAct_memOk imageClass_memKeeps ?_) | (with_reducible refine cmdAct_memOk chartSpec_memKeeps ?_) | (with_reducible refine cmdAct_memOk streamClass_memKeeps ?_) | (with_reducible refine iteP ?_ ?_) | split)

theorem execChartRollback_memOk {r : Req} {s : State} {t9} (hs : memOk s) (h : execChartRollback r s = .next t9) : memOk t9 := by
  unfold execChartRollback at h
  injection h with h
  subst h
  repeat' (first | with_reducible assumption | (simp only [ite_ok, ite_self]) | (with_reducible refine cmdAct_memOk imageClass_memKeeps ?_) | (with_reducible refine cmdAct_memOk chartSpec_memKeeps ?_) | (with_reducible refine cmdAct_memOk streamClass_memKeeps ?_) | (with_reducible refine iteP ?_ ?_) | split)

theorem failStart_memOk (cause : Nat) {s : State} (h : memOk s) : memOk (failStart cause s) := by
  unfold failStart
  refine (memOk_eq (tpSet_frame offMem rfl rfl rfl _ _)).mpr ?_
  have h1 : memOk (keeperDown (revertTrial (modFv (fun v => { v with fw := false, started := false }) (writeBoot (fun r => { r with
    triesA := if (if s.img.recovery then none else s.img.running) = some 0 then sat 8 (r.triesA + 1) else r.triesA
    triesB := if (if s.img.recovery then none else s.img.running) = some 1 then sat 8 (r.triesB + 1) else r.triesB
    backoff := sat 8 (r.backoff + 1), lastFail := cause, fails := sat 32 (r.fails + 1) }) s)))) :=
    keeperDown_memOk ((memOk_eq (revertTrial_frame offMem rfl rfl _)).mpr ((memOk_eq (modFv_frame offMem rfl rfl _ _)).mpr
      ((memOk_eq (writeBoot_frame offMem rfl _ _)).mpr h)))
  exact h1

theorem enforce_memOk (k : Nat) {s : State} (h : memOk s) : memOk (enforce k s) := by
  unfold enforce
  repeat' (first | with_reducible assumption | (with_reducible refine (memOk_eq (migrateChart_frame_eq offMem rfl rfl rfl (by with_reducible assumption))).mpr ?_) | (simp only [(fun a0 a1 => memOk_eq (migrateChart_frame offMem rfl rfl rfl a0 a1)), (fun a0 a1 => memOk_eq (modImg_frame offMem rfl a0 a1)), (fun a0 a1 => memOk_eq (takeSlot_frame offMem rfl a0 a1)), (fun a0 a1 a2 a3 a4 a5 a6 a7 => memOk_eq (emit_frame offMem rfl a0 a1 a2 a3 a4 a5 a6 a7)), ite_ok, ite_self]) | (with_reducible refine commitTable_memOk _ ?_) | (with_reducible refine iteP ?_ ?_) | split)

theorem loadRecords_memOk (l : List ChartItem) {s : State} (h : memOk s) : memOk (loadRecords l s) := by
  unfold loadRecords
  repeat' (first | with_reducible assumption | (simp only [(fun a0 => memOk_eq (respread_frame offMem rfl a0)), (fun a0 a1 => memOk_eq (modFv_frame offMem rfl rfl a0 a1)), (fun a0 a1 => memOk_eq (modNet_frame offMem rfl a0 a1)), (fun a0 a1 => memOk_eq (modSlu_frame offMem rfl a0 a1)), (fun a0 a1 a2 => memOk_eq (modPad_frame offMem rfl a0 a1 a2)), (fun a0 a1 a2 => memOk_eq (modWire_frame offMem rfl a0 a1 a2)), ite_ok, ite_self]) | (with_reducible refine loadItem_memOk _ ?_) | (with_reducible refine quiet_memOk (fun _ _ => ?_) ?_) | (with_reducible refine foldl_memOk (fun _ _ _ => ?_) ?_) | (with_reducible refine foldl_pair_memOk (fun _ _ _ => ?_) ?_) | (with_reducible refine iteP ?_ ?_) | split)

theorem loadAll_memOk (ddr xspi : Nat) {s : State} (h : memOk s) : memOk (loadAll ddr xspi s) := by
  unfold loadAll
  repeat' (first | with_reducible assumption | (with_reducible refine (memOk_eq (pickChart_frame_eq offMem rfl (by with_reducible assumption))).mpr ?_) | (simp only [(fun a0 => memOk_eq (ovfGate_frame offMem rfl rfl a0)), (fun a0 => memOk_eq (pickChart_frame offMem rfl a0)), (fun a0 => memOk_eq (resumeCtxs_frame offMem rfl a0)), (fun a0 => memOk_eq (resumeFresh_frame offMem rfl a0)), (fun a0 => memOk_eq (startPositions_frame offMem rfl a0)), (fun a0 => memOk_eq (trainPorts_frame offMem rfl a0)), (fun a0 a1 => memOk_eq (modImg_frame offMem rfl a0 a1)), (fun a0 a1 => memOk_eq (modPwr_frame offMem rfl a0 a1)), (fun a0 a1 => memOk_eq (modSys_frame offMem rfl a0 a1)), (fun a0 a1 a2 => memOk_eq (mapMemories_frame offMem rfl rfl a0 a1 a2)), (fun a0 a1 a2 => memOk_eq (modPound_frame offMem rfl a0 a1 a2)), (fun a0 a1 a2 => memOk_eq (startNodes_frame offMem rfl a0 a1 a2)), ite_ok, ite_self]) | (with_reducible refine enforce_memOk _ ?_) | (with_reducible refine loadRecords_memOk _ ?_) | (with_reducible refine iteP ?_ ?_) | split)

theorem loadChanges_memOk (old new : List ChartItem) {s : State} (h : memOk s) : memOk (loadChanges old new s) := by
  unfold loadChanges
  repeat' (first | with_reducible assumption | (simp only [(fun a0 a1 a2 => memOk_eq (clearParams_frame offMem rfl rfl rfl rfl rfl rfl rfl rfl rfl rfl rfl rfl a0 a1 a2)), ite_ok, ite_self]) | (with_reducible refine loadItem_memOk _ ?_) | (with_reducible refine quiet_memOk (fun _ _ => ?_) ?_) | (with_reducible refine chartFields_memOk _ _ _ _ ?_) | (with_reducible refine foldl_memOk (fun _ _ _ => ?_) ?_) | (with_reducible refine foldl_pair_memOk (fun _ _ _ => ?_) ?_) | (with_reducible refine iteP ?_ ?_) | split)

theorem loadDiff_memOk  {s : State} (h : memOk s) : memOk (loadDiff s) := by
  unfold loadDiff
  repeat' (first | with_reducible assumption | (with_reducible refine (memOk_eq (pickChart_frame_eq offMem rfl (by with_reducible assumption))).mpr ?_) | (simp only [(fun a0 => memOk_eq (pickChart_frame offMem rfl a0)), (fun a0 a1 => memOk_eq (modImg_frame offMem rfl a0 a1)), ite_ok, ite_self]) | (with_reducible refine enforce_memOk _ ?_) | (with_reducible refine loadChanges_memOk _ _ ?_) | (with_reducible refine iteP ?_ ?_) | split)

theorem execReferenceTimeout_memOk {s : State} {t9} (hs : memOk s) (h : execReferenceTimeout s = .next t9) : memOk t9 := by
  unfold execReferenceTimeout at h
  injection h with h
  subst h
  repeat' (first | with_reducible assumption | (simp only [(fun a0 a1 => memOk_eq (tpSet_frame offMem rfl rfl rfl a0 a1)), (fun a0 a1 a2 => memOk_eq (detect_frame offMem rfl rfl a0 a1 a2)), ite_ok, ite_self]) | (with_reducible refine failStart_memOk _ ?_) | (with_reducible refine iteP ?_ ?_) | split)

theorem execFirmwareRun_memOk {ddr xspi : Nat} {lost bad : List Nat} {s : State} {t9} (hs : memOk s) (h : execFirmwareRun ddr xspi lost bad s = .next t9) : memOk t9 := by
  unfold execFirmwareRun at h
  injection h with h
  subst h
  repeat' (first | with_reducible assumption | (simp only [(fun a0 => memOk_eq (measure_frame offMem rfl rfl a0)), (fun a0 => memOk_eq (readLatches_frame offMem rfl a0)), (fun a0 a1 => memOk_eq (modFv_frame offMem rfl rfl a0 a1)), (fun a0 a1 => memOk_eq (modImg_frame offMem rfl a0 a1)), (fun a0 a1 a2 => memOk_eq (keyScan_frame offMem rfl rfl rfl a0 a1 a2)), (fun a0 a1 a2 => memOk_eq (mapMemories_frame offMem rfl rfl a0 a1 a2)), (fun a0 a1 a2 a3 a4 a5 a6 a7 => memOk_eq (emit_frame offMem rfl a0 a1 a2 a3 a4 a5 a6 a7)), ite_ok, ite_self]) | (with_reducible refine loadAll_memOk _ _ ?_) | (with_reducible refine loadDiff_memOk ?_) | (with_reducible refine iteP ?_ ?_) | split)

theorem execStartFailure_memOk {cause : Nat} {s : State} {t9} (hs : memOk s) (h : execStartFailure cause s = .next t9) : memOk t9 := by
  obtain ⟨-, rfl⟩ := guardUnit_next h
  repeat' (first | with_reducible assumption | (simp only [(fun a0 a1 => memOk_eq (tpSet_frame offMem rfl rfl rfl a0 a1)), (fun a0 a1 a2 => memOk_eq (detect_frame offMem rfl rfl a0 a1 a2)), ite_ok, ite_self]) | (with_reducible refine failStart_memOk _ ?_) | (with_reducible refine iteP ?_ ?_) | split)


theorem classOf_memKeeps (c : Nat) : MemKeeps (classOf c) := by
  unfold classOf
  cases h : classes.find? (fun k => decide (k.code = c)) with
  | none => exact MemKeeps.of (noClass_keeps offMem c)
  | some k =>
    have hm := List.mem_of_find?_eq_some h
    rcases List.mem_append.mp hm with h | h
    · exact chartClasses_memKeeps h
    · simp only [List.mem_cons, List.not_mem_nil, or_false] at h
      rcases h with rfl | rfl
      · exact imageClass_memKeeps
      · exact chartSpec_memKeeps

theorem runFaval_memOk (cls verb : Nat) (r : Req) {s : State} (hs : memOk s) : memOk (runFaval cls verb r s) := by
  have hk := classOf_memKeeps cls
  refine serve_memOk (fun u h => ?_) hs
  unfold verbBody
  split
  · unfold getBody
    split
    · exact (memOk_eq (timeGetBody_frame offMem rfl rfl rfl rfl rfl r u)).mpr h
    · exact doGet_memOk hk h
  · exact doSet_memOk hk h
  · exact doAct_memOk hk h
  · unfold subBody
    split
    · exact (memOk_eq (wireSubBody_frame offMem rfl rfl rfl rfl rfl rfl r u)).mpr h
    · exact (memOk_eq (doSub_frame offMem rfl rfl rfl rfl rfl _ r u)).mpr h
  · exact (memOk_eq (unsubBody_frame offMem rfl rfl rfl rfl rfl rfl rfl _ r u)).mpr h
  · exact (memOk_eq (doList_frame offMem rfl rfl rfl rfl _ r u)).mpr h

theorem receive_memOk (p : Nat) (b : List Byte) {s : State} (h : memOk s) : memOk (receive p b s) := by
  unfold receive
  repeat' (first | with_reducible assumption | (simp only [(fun a0 a1 => memOk_eq (pend_frame offMem rfl a0 a1)), (fun a0 a1 => memOk_eq (received_frame offMem rfl a0 a1)), (fun a0 a1 a2 => memOk_eq (bumpPq_frame offMem rfl a0 a1 a2)), (fun a0 a1 a2 => memOk_eq (truncated_frame offMem rfl a0 a1 a2)), (fun a0 a1 a2 a3 => memOk_eq (distrust_frame offMem rfl a0 a1 a2 a3)), (fun a0 a1 a2 a3 => memOk_eq (reject_frame offMem rfl a0 a1 a2 a3)), ite_ok, ite_self]) | (with_reducible refine classOf_memOk ?_) | (with_reducible refine runFaval_memOk _ _ _ ?_) | (with_reducible refine iteP ?_ ?_) | split)

theorem execFavalGet_memOk {cls : Nat} {r : Req} {s : State} {t9} (hs : memOk s) (h : execFavalGet cls r s = .next t9) : memOk t9 := by
  unfold execFavalGet at h
  injection h with h
  subst h
  repeat' (first | with_reducible assumption | (simp only [ite_ok, ite_self]) | (with_reducible refine runFaval_memOk _ _ _ ?_) | (with_reducible refine iteP ?_ ?_) | split)

theorem execFavalSub_memOk {cls : Nat} {r : Req} {s : State} {t9} (hs : memOk s) (h : execFavalSub cls r s = .next t9) : memOk t9 := by
  unfold execFavalSub at h
  injection h with h
  subst h
  repeat' (first | with_reducible assumption | (simp only [ite_ok, ite_self]) | (with_reducible refine runFaval_memOk _ _ _ ?_) | (with_reducible refine iteP ?_ ?_) | split)

theorem execFavalUnsub_memOk {cls : Nat} {r : Req} {s : State} {t9} (hs : memOk s) (h : execFavalUnsub cls r s = .next t9) : memOk t9 := by
  unfold execFavalUnsub at h
  injection h with h
  subst h
  repeat' (first | with_reducible assumption | (simp only [ite_ok, ite_self]) | (with_reducible refine runFaval_memOk _ _ _ ?_) | (with_reducible refine iteP ?_ ?_) | split)

theorem execFavalList_memOk {cls : Nat} {r : Req} {s : State} {t9} (hs : memOk s) (h : execFavalList cls r s = .next t9) : memOk t9 := by
  unfold execFavalList at h
  injection h with h
  subst h
  repeat' (first | with_reducible assumption | (simp only [ite_ok, ite_self]) | (with_reducible refine runFaval_memOk _ _ _ ?_) | (with_reducible refine iteP ?_ ?_) | split)

theorem execCommandFetch_memOk {e : Nat} {b : List Byte} {s : State} {t9} (hs : memOk s) (h : execCommandFetch e b s = .next t9) : memOk t9 := by
  obtain ⟨-, rfl⟩ := guardUnit_next h
  repeat' (first | with_reducible assumption | (simp only [ite_ok, ite_self]) | (with_reducible refine fetch_memOk (fun _ _ _ => ?_) ?_) | (with_reducible refine receive_memOk _ _ ?_) | (with_reducible refine iteP ?_ ?_) | split)

theorem execDesyncResponse_memOk {p : Nat} {b : List Byte} {s : State} {t9} (hs : memOk s) (h : execDesyncResponse p b s = .next t9) : memOk t9 := by
  obtain ⟨-, rfl⟩ := guardUnit_next h
  repeat' (first | with_reducible assumption | (simp only [ite_ok, ite_self]) | (with_reducible refine receive_memOk _ _ ?_) | (with_reducible refine iteP ?_ ?_) | split)

theorem dropDesc_memOk (p k : Nat) {s : State} (h : memOk s) : memOk (dropDesc p k s) := by
  unfold dropDesc
  repeat' (first | with_reducible assumption | (simp only [(fun a0 a1 a2 => memOk_eq (modHring_frame offMem rfl a0 a1 a2)), ite_ok, ite_self]) | (with_reducible refine flushDone_memOk _ ?_) | (with_reducible refine writeBack_memOk _ _ _ ?_) | (with_reducible refine pushDone_memOk _ _ _ _ ?_) | (with_reducible refine foldl_memOk (fun _ _ _ => ?_) ?_) | (with_reducible refine foldl_pair_memOk (fun _ _ _ => ?_) ?_) | (with_reducible refine iteP ?_ ?_) | split)

theorem execDmaReadTimeout_memOk {e k : Nat} {got : List Byte} {s : State} {t9} (hs : memOk s) (h : execDmaReadTimeout e k got s = .next t9) : memOk t9 := by
  obtain ⟨-, rfl⟩ := guardUnit_next h
  repeat' (first | with_reducible assumption | (simp only [(fun a0 a1 a2 => memOk_eq (truncated_frame offMem rfl a0 a1 a2)), ite_ok, ite_self]) | (with_reducible refine fetch_memOk (fun _ _ _ => ?_) ?_) | (with_reducible refine dropDesc_memOk _ _ ?_) | (with_reducible refine iteP ?_ ?_) | split)

theorem execDmaReadError_memOk {e k : Nat} {got : List Byte} {s : State} {t9} (hs : memOk s) (h : execDmaReadError e k got s = .next t9) : memOk t9 := by
  obtain ⟨-, rfl⟩ := guardUnit_next h
  repeat' (first | with_reducible assumption | (simp only [(fun a0 a1 => memOk_eq (pend_frame offMem rfl a0 a1)), (fun a0 a1 a2 a3 => memOk_eq (distrust_frame offMem rfl a0 a1 a2 a3)), (fun a0 a1 a2 a3 => memOk_eq (mbxError_frame offMem rfl a0 a1 a2 a3)), (fun a0 a1 a2 a3 => memOk_eq (reject_frame offMem rfl a0 a1 a2 a3)), ite_ok, ite_self]) | (with_reducible refine fetch_memOk (fun _ _ _ => ?_) ?_) | (with_reducible refine dropDesc_memOk _ _ ?_) | (with_reducible refine iteP ?_ ?_) | split)

theorem ethMessage_memOk (p : Nat) (d : EthDest) (b : List Byte) {s : State} (h : memOk s) : memOk (ethMessage p d b s) := by
  unfold ethMessage
  repeat' (first | with_reducible assumption | (simp only [(fun a0 a1 => memOk_eq (pend_frame offMem rfl a0 a1)), (fun a0 a1 a2 => memOk_eq (bumpPq_frame offMem rfl a0 a1 a2)), (fun a0 a1 a2 => memOk_eq (modPq_frame offMem rfl a0 a1 a2)), (fun a0 a1 a2 a3 => memOk_eq (distrust_frame offMem rfl a0 a1 a2 a3)), (fun a0 a1 a2 a3 => memOk_eq (reject_frame offMem rfl a0 a1 a2 a3)), ite_ok, ite_self]) | (with_reducible refine receive_memOk _ _ ?_) | (with_reducible refine iteP ?_ ?_) | split)

theorem segment_memOk (p : Nat) (d : EthDest) (seg segs f : Nat) (b : List Byte) {s : State} (h : memOk s) : memOk (segment p d seg segs f b s) := by
  unfold segment
  repeat' (first | with_reducible assumption | (simp only [(fun a0 a1 a2 => memOk_eq (bumpPq_frame offMem rfl a0 a1 a2)), (fun a0 a1 a2 => memOk_eq (modPq_frame offMem rfl a0 a1 a2)), ite_ok, ite_self]) | (with_reducible refine ethMessage_memOk _ _ _ ?_) | (with_reducible refine iteP ?_ ?_) | split)

theorem datagram_memOk (d : EthDest) (u : List Byte) {s : State} (h : memOk s) : memOk (datagram d u s) := by
  unfold datagram
  repeat' (first | with_reducible assumption | (simp only [(fun a0 a1 => memOk_eq (keyUse_frame offMem rfl a0 a1)), (fun a0 a1 => memOk_eq (pend_frame offMem rfl a0 a1)), (fun a0 a1 a2 => memOk_eq (bumpPq_frame offMem rfl a0 a1 a2)), (fun a0 a1 a2 => memOk_eq (modPq_frame offMem rfl a0 a1 a2)), (fun a0 a1 a2 => memOk_eq (respondTo_frame offMem rfl a0 a1 a2)), (fun a0 a1 a2 => memOk_eq (takeRx_frame offMem rfl a0 a1 a2)), ite_ok, ite_self]) | (with_reducible refine segment_memOk _ _ _ _ _ _ ?_) | (with_reducible refine iteP ?_ ?_) | split)

theorem execEthTransportDatagram_memOk {s : State} {t9} (hs : memOk s) (h : execEthTransportDatagram s = .next t9) : memOk t9 := by
  unfold execEthTransportDatagram at h
  injection h with h
  subst h
  repeat' (first | with_reducible assumption | (simp only [(fun a0 a1 => memOk_eq (modNet_frame offMem rfl a0 a1)), ite_ok, ite_self]) | (with_reducible refine datagram_memOk _ _ ?_) | (with_reducible refine iteP ?_ ?_) | split)

theorem spiWrite_memOk (p : Nat) (b : List Byte) {s : State} (h : memOk s) : memOk (spiWrite p b s) := by
  unfold spiWrite
  repeat' (first | with_reducible assumption | (simp only [(fun a0 a1 => memOk_eq (pend_frame offMem rfl a0 a1)), (fun a0 a1 => memOk_eq (spiErr_frame offMem rfl a0 a1)), (fun a0 a1 a2 => memOk_eq (bumpPq_frame offMem rfl a0 a1 a2)), (fun a0 a1 a2 => memOk_eq (modPq_frame offMem rfl a0 a1 a2)), (fun a0 a1 a2 => memOk_eq (truncated_frame offMem rfl a0 a1 a2)), (fun a0 a1 a2 a3 => memOk_eq (reject_frame offMem rfl a0 a1 a2 a3)), ite_ok, ite_self]) | (with_reducible refine receive_memOk _ _ ?_) | (with_reducible refine iteP ?_ ?_) | split)

theorem execSpiWrite_memOk {b : List Byte} {s : State} {t9} (hs : memOk s) (h : execSpiWrite b s = .next t9) : memOk t9 := by
  unfold execSpiWrite at h
  injection h with h
  subst h
  repeat' (first | with_reducible assumption | (simp only [ite_ok, ite_self]) | (with_reducible refine spiWrite_memOk _ _ ?_) | (with_reducible refine iteP ?_ ?_) | split)

theorem execSpiByteGap_memOk {b : List Byte} {s : State} {t9} (hs : memOk s) (h : execSpiByteGap b s = .next t9) : memOk t9 := by
  unfold execSpiByteGap at h
  injection h with h
  subst h
  repeat' (first | with_reducible assumption | (simp only [ite_ok, ite_self]) | (with_reducible refine spiWrite_memOk _ _ ?_) | (with_reducible refine iteP ?_ ?_) | split)

theorem takeCommand_memOk (cls verb : Nat) (r : Req) {s : State} (h : memOk s) : memOk (takeCommand cls verb r s) := by
  unfold takeCommand
  repeat' (first | with_reducible assumption | (simp only [ite_ok, ite_self]) | (with_reducible refine runFaval_memOk _ _ _ ?_) | (with_reducible refine iteP ?_ ?_) | split)

theorem takeChart_memOk (l : List ChartItem) (t : TpTable) {s : State} (h : memOk s) : memOk (takeChart l t s) := by
  unfold takeChart
  repeat' (first | with_reducible assumption | (simp only [(fun a0 a1 => memOk_eq (modTow_frame offMem rfl a0 a1)), (fun a0 a1 a2 => memOk_eq (modSlotImg_frame offMem rfl a0 a1 a2)), ite_ok, ite_self]) | (with_reducible refine writeTable_memOk _ ?_) | (with_reducible refine iteP ?_ ?_) | split)

theorem takeBody_memOk (f : TowFrame) {s : State} (h : memOk s) : memOk (takeBody f s) := by
  unfold takeBody
  repeat' (first | with_reducible assumption | (simp only [(fun a0 a1 a2 => memOk_eq (takeBadBlock_frame offMem rfl rfl a0 a1 a2)), (fun a0 a1 a2 => memOk_eq (takeEth_frame offMem rfl a0 a1 a2)), (fun a0 a1 a2 => memOk_eq (takeNote_frame offMem rfl a0 a1 a2)), (fun a0 a1 a2 => memOk_eq (takeResponse_frame offMem rfl rfl rfl rfl rfl a0 a1 a2)), (fun a0 a1 a2 a3 => memOk_eq (takeBlock_frame offMem rfl rfl a0 a1 a2 a3)), (fun a0 a1 a2 a3 => memOk_eq (takeLate_frame offMem rfl rfl a0 a1 a2 a3)), (fun a0 a1 a2 a3 => memOk_eq (takeRecord_frame offMem rfl a0 a1 a2 a3)), ite_ok, ite_self]) | (with_reducible refine takeChart_memOk _ _ ?_) | (with_reducible refine takeCommand_memOk _ _ _ ?_) | (with_reducible refine iteP ?_ ?_) | split)

theorem release_memOk (f : TowFrame) {s : State} (h : memOk s) : memOk (release f s) := by
  unfold release
  repeat' (first | with_reducible assumption | (simp only [(fun a0 a1 => memOk_eq (consume_frame offMem rfl a0 a1)), ite_ok, ite_self]) | (with_reducible refine takeBody_memOk _ ?_) | (with_reducible refine iteP ?_ ?_) | split)

theorem towRun_memOk (k n : Nat) {s : State} (h : memOk s) : memOk (towRun k n s) := by
  induction n generalizing s with
  | zero => exact h
  | succ n ih =>
    unfold towRun
    dsimp only
    split
    · exact h
    · exact ih (release_memOk _ ((memOk_eq (modTowReseq_frame offMem rfl _ _ _)).mpr h))

theorem towReleaseAll_memOk (k : Nat) {s : State} (h : memOk s) : memOk (towReleaseAll k s) := by
  unfold towReleaseAll
  repeat' (first | with_reducible assumption | (simp only [(fun a0 a1 a2 => memOk_eq (modTowReseq_frame offMem rfl a0 a1 a2)), (fun a0 a1 a2 a3 => memOk_eq (countVia_frame offMem rfl rfl a0 a1 a2 a3)), ite_ok, ite_self]) | (with_reducible refine release_memOk _ ?_) | (with_reducible refine foldl_memOk (fun _ _ _ => ?_) ?_) | (with_reducible refine foldl_pair_memOk (fun _ _ _ => ?_) ?_) | (with_reducible refine iteP ?_ ?_) | split)

theorem towResequence_memOk (f : TowFrame) {s : State} (h : memOk s) : memOk (towResequence f s) := by
  unfold towResequence
  repeat' (first | with_reducible assumption | (simp only [(fun a0 a1 => memOk_eq (consume_frame offMem rfl a0 a1)), (fun a0 a1 a2 => memOk_eq (modTowReseq_frame offMem rfl a0 a1 a2)), (fun a0 a1 a2 a3 => memOk_eq (countVia_frame offMem rfl rfl a0 a1 a2 a3)), ite_ok, ite_self]) | (with_reducible refine towRun_memOk _ _ ?_) | (with_reducible refine release_memOk _ ?_) | (with_reducible refine towReleaseAll_memOk _ ?_) | (with_reducible refine iteP ?_ ?_) | split)

theorem towReopen_memOk  {s : State} (h : memOk s) : memOk (towReopen s) := by
  unfold towReopen
  repeat' (first | with_reducible assumption | (simp only [ite_ok, ite_self]) | (with_reducible refine towRun_memOk _ _ ?_) | (with_reducible refine foldl_memOk (fun _ _ _ => ?_) ?_) | (with_reducible refine foldl_pair_memOk (fun _ _ _ => ?_) ?_) | (with_reducible refine iteP ?_ ?_) | split)

theorem towTake_memOk (x : Nat) (f : TowFrame) {s : State} (h : memOk s) : memOk (towTake x f s) := by
  unfold towTake
  repeat' (first | with_reducible assumption | (simp only [(fun a0 a1 => memOk_eq (consume_frame offMem rfl a0 a1)), (fun a0 a1 a2 => memOk_eq (towForward_frame offMem rfl rfl a0 a1 a2)), (fun a0 a1 a2 => memOk_eq (towPut_frame offMem rfl rfl a0 a1 a2)), ite_ok, ite_self]) | (with_reducible refine takeBody_memOk _ ?_) | (with_reducible refine towResequence_memOk _ ?_) | (with_reducible refine release_memOk _ ?_) | (with_reducible refine iteP ?_ ?_) | split)

theorem onTow_memOk {x chk : Nat} {bad : Bool} {ok : TowBody → Bool} {f : TowFrame} {s t : State} (hs : memOk s)
    (h : onTow x chk bad ok f s = .next t) : memOk t := by
  obtain ⟨-, rfl⟩ := guardUnit_next h
  repeat' (first | with_reducible assumption | (with_reducible refine (memOk_eq (towArrive_frame_eq offMem rfl rfl rfl (by with_reducible assumption))).mpr ?_) | (simp only [(fun a0 => memOk_eq (bargeFlush_frame offMem rfl rfl a0)), (fun a0 a1 a2 a3 => memOk_eq (towArrive_frame offMem rfl rfl rfl a0 a1 a2 a3)), ite_ok, ite_self]) | (with_reducible refine towTake_memOk _ _ ?_) | (with_reducible refine iteP ?_ ?_) | split)

theorem execDataFrameReceived_memOk {x chk : Nat} {f : TowFrame} {s : State} {t9} (hs : memOk s) (h : execDataFrameReceived x chk f s = .next t9) : memOk t9 := by
  exact onTow_memOk hs h

theorem execFavalFrameReceived_memOk {x chk : Nat} {f : TowFrame} {s : State} {t9} (hs : memOk s) (h : execFavalFrameReceived x chk f s = .next t9) : memOk t9 := by
  exact onTow_memOk hs h

theorem execPostFrameReceived_memOk {x chk : Nat} {f : TowFrame} {bad : Bool} {s : State} {t9} (hs : memOk s) (h : execPostFrameReceived x chk f bad s = .next t9) : memOk t9 := by
  exact onTow_memOk hs h

theorem execNoteFrameReceived_memOk {x chk : Nat} {f : TowFrame} {s : State} {t9} (hs : memOk s) (h : execNoteFrameReceived x chk f s = .next t9) : memOk t9 := by
  exact onTow_memOk hs h

theorem execLateFrameReceived_memOk {x chk : Nat} {f : TowFrame} {s : State} {t9} (hs : memOk s) (h : execLateFrameReceived x chk f s = .next t9) : memOk t9 := by
  exact onTow_memOk hs h

theorem execTowlineReseqTimeout_memOk {src v : Nat} {s : State} {t9} (hs : memOk s) (h : execTowlineReseqTimeout src v s = .next t9) : memOk t9 := by
  obtain ⟨-, rfl⟩ := guardUnit_next h
  repeat' (first | with_reducible assumption | (simp only [(fun a0 => memOk_eq (bargeFlush_frame offMem rfl rfl a0)), ite_ok, ite_self]) | (with_reducible refine towReleaseAll_memOk _ ?_) | (with_reducible refine iteP ?_ ?_) | split)

theorem execApplyPhase_memOk {s : State} {t9} (hs : memOk s) (h : execApplyPhase s = .next t9) : memOk t9 := by
  refine inPhase_memOk (fun _ hs => ?_) hs h
  repeat' (first | with_reducible assumption | (simp only [(fun a0 => memOk_eq (applyAct_frame offMem rfl a0)), (fun a0 => memOk_eq (armWake_frame offMem rfl rfl rfl rfl a0)), (fun a0 => memOk_eq (autoLocate_frame offMem rfl a0)), (fun a0 => memOk_eq (foldHandBack_frame offMem rfl a0)), (fun a0 => memOk_eq (nmApply_frame offMem rfl rfl a0)), (fun a0 a1 => memOk_eq (modCyc_frame offMem rfl rfl a0 a1)), ite_ok, ite_self]) | (with_reducible refine towReopen_memOk ?_) | (with_reducible refine iteP ?_ ?_) | split)

theorem takeStaged_memOk (x : Staged) {s : State} (hs : memOk s) : memOk (takeStaged x s).2 := by
  have hk := classOf_memKeeps x.cls
  have hp : ∀ (i : Nat) (f : Pad → Pad) (u : State), memOk u → memOk (modPad i f u) :=
    fun i f u h => (memOk_eq (modPad_frame offMem rfl i f u)).mpr h
  unfold takeStaged
  dsimp only
  cases hop : x.op
  · simp only
    split
    · split
      · dsimp only
        split
        · exact hp _ _ _ (hk.set hs)
        · exact hk.set hs
      · exact hk.set hs
    · exact hs
  · simp only
    split
    · exact hs
    · rename_i c hc
      have hm := List.mem_of_find?_eq_some hc
      split
      · rename_i heq
        split at heq
        · exact hk.aheld hm hs heq
        · cases heq
      · exact hk.run hm hs

theorem takeStaged_memOk_eq {x : Staged} {s : State} {x9 t9} (hs : memOk s) (h : takeStaged x s = (x9, t9)) : memOk t9 := by
  have h8 := takeStaged_memOk x hs
  rw [h] at h8
  exact h8

theorem takeAll_memOk (l : List Staged) {s : State} (h : memOk s) : memOk (takeAll l s).2 := by
  have h1 : ∀ (l : List Staged) (p : List Answer × State), memOk p.2 →
      memOk (l.foldl (fun p x => (p.1 ++ (takeStaged x p.2).1.toList, (takeStaged x p.2).2)) p).2 := by
    intro l
    induction l with
    | nil => intro p hp; exact hp
    | cons a l ih => intro p hp; exact ih _ (takeStaged_memOk a hp)
  exact h1 l ([], s) h

theorem takeAll_memOk_eq {l : List Staged} {s : State} {x9 t9} (hs : memOk s) (h : takeAll l s = (x9, t9)) : memOk t9 := by
  have h8 := takeAll_memOk l hs
  rw [h] at h8
  exact h8

theorem giveAnswer_memOk (a : Answer) {s : State} (h : memOk s) : memOk (giveAnswer a s) := by
  unfold giveAnswer
  repeat' (first | with_reducible assumption | (simp only [(fun a0 a1 a2 a3 a4 a5 a6 => memOk_eq (answer_frame offMem rfl a0 a1 a2 a3 a4 a5 a6)), ite_ok, ite_self]) | (with_reducible refine classOf_memOk ?_) | (with_reducible refine iteP ?_ ?_) | split)

theorem dropLost_memOk  {s : State} (h : memOk s) : memOk (dropLost s) := by
  unfold dropLost
  repeat' (first | with_reducible assumption | (with_reducible refine (memOk_eq (pickStaged_frame_eq offMem rfl (by with_reducible assumption))).mpr ?_) | (simp only [(fun a0 a1 => memOk_eq (pickStaged_frame offMem rfl a0 a1)), ite_ok, ite_self]) | (with_reducible refine giveAnswer_memOk _ ?_) | (with_reducible refine foldl_memOk (fun _ _ _ => ?_) ?_) | (with_reducible refine foldl_pair_memOk (fun _ _ _ => ?_) ?_) | (with_reducible refine iteP ?_ ?_) | split)

theorem sealedBoundary_memOk (c : Nat) {s : State} (h : memOk s) : memOk (sealedBoundary c s) := by
  unfold sealedBoundary
  repeat' (first | with_reducible assumption | (with_reducible refine (memOk_eq (pickStaged_frame_eq offMem rfl (by with_reducible assumption))).mpr ?_) | (simp only [(fun a0 => memOk_eq (handOver_frame offMem rfl rfl a0)), (fun a0 => memOk_eq (poundsSafe_frame offMem rfl rfl rfl rfl a0)), (fun a0 => memOk_eq (safeBoundary_frame offMem rfl rfl rfl rfl rfl rfl rfl rfl rfl rfl a0)), (fun a0 => memOk_eq (segBoundary_frame offMem rfl rfl rfl a0)), (fun a0 => memOk_eq (swapBoundary_frame offMem rfl a0)), (fun a0 => memOk_eq (tpStep_frame offMem rfl rfl rfl a0)), (fun a0 a1 => memOk_eq (pickStaged_frame offMem rfl a0 a1)), (fun a0 a1 => memOk_eq (refreshWaiting_frame offMem rfl a0 a1)), (fun a0 a1 a2 => memOk_eq (outputsBoundary_frame offMem rfl rfl rfl rfl rfl rfl a0 a1 a2)), ite_ok, ite_self]) | (with_reducible refine takeAll_memOk_eq ?_ (by with_reducible assumption)) | (with_reducible refine takeAll_memOk _ ?_) | (with_reducible refine giveAnswer_memOk _ ?_) | (with_reducible refine commitBoundary_memOk _ ?_) | (with_reducible refine dropLost_memOk ?_) | (with_reducible refine foldl_memOk (fun _ _ _ => ?_) ?_) | (with_reducible refine foldl_pair_memOk (fun _ _ _ => ?_) ?_) | (with_reducible refine iteP ?_ ?_) | split)

theorem startWork_memOk (overran : Bool) (eff : Nat) {s : State} (h : memOk s) : memOk (startWork overran eff s) := by
  unfold startWork
  repeat' (first | with_reducible assumption | (simp only [(fun a0 => memOk_eq (bargeFlush_frame offMem rfl rfl a0)), (fun a0 => memOk_eq (beatBoundary_frame offMem rfl rfl a0)), (fun a0 => memOk_eq (beatWatch_frame offMem rfl a0)), (fun a0 => memOk_eq (coreBoundary_frame offMem rfl a0)), (fun a0 => memOk_eq (linBoundary_frame offMem rfl rfl a0)), (fun a0 => memOk_eq (nmBoundary_frame offMem rfl rfl rfl rfl rfl a0)), (fun a0 => memOk_eq (quietBoundary_frame offMem rfl a0)), (fun a0 => memOk_eq (schedBoundary_frame offMem rfl rfl a0)), (fun a0 => memOk_eq (schedOverrun_frame offMem rfl a0)), (fun a0 a1 a2 => memOk_eq (gateBoundary_frame offMem rfl rfl a0 a1 a2)), ite_ok, ite_self]) | (with_reducible refine presentOffers_memOk ?_) | (with_reducible refine iteP ?_ ?_) | split)

theorem takeEffect_memOk (overran : Bool) {s : State} (h : memOk s) : memOk (takeEffect overran s) := by
  unfold takeEffect
  repeat' (first | with_reducible assumption | (simp only [(fun a0 => memOk_eq (boundarySluice_frame offMem rfl a0)), (fun a0 => memOk_eq (closeCycleWins_frame offMem rfl a0)), (fun a0 a1 => memOk_eq (handOverAct_frame offMem rfl rfl rfl rfl a0 a1)), (fun a0 a1 => memOk_eq (overrunBoundary_frame offMem rfl rfl rfl rfl rfl rfl rfl rfl rfl rfl a0 a1)), ite_ok, ite_self]) | (with_reducible refine sealedBoundary_memOk _ ?_) | (with_reducible refine iteP ?_ ?_) | split)

theorem boundary_memOk  {s : State} (h : memOk s) : memOk (boundary s) := by
  unfold boundary
  repeat' (first | with_reducible assumption | (with_reducible refine (memOk_eq (periodBoundary_frame_eq offMem rfl rfl rfl (by with_reducible assumption))).mpr ?_) | (simp only [(fun a0 => memOk_eq (endedBoundary_frame offMem rfl rfl rfl a0)), (fun a0 => memOk_eq (faultRise_frame offMem rfl a0)), (fun a0 => memOk_eq (periodBoundary_frame offMem rfl rfl rfl a0)), (fun a0 => memOk_eq (restartAct_frame offMem rfl rfl rfl rfl rfl rfl rfl rfl rfl rfl rfl rfl a0)), (fun a0 => memOk_eq (settleRelease_frame offMem rfl a0)), (fun a0 => memOk_eq (windowsStart_frame offMem rfl a0)), (fun a0 a1 => memOk_eq (answerPeriod_frame offMem rfl rfl a0 a1)), (fun a0 a1 => memOk_eq (endCycle_frame offMem rfl rfl rfl rfl rfl rfl rfl rfl rfl rfl rfl rfl rfl rfl a0 a1)), (fun a0 a1 => memOk_eq (settleWaves_frame offMem rfl rfl rfl a0 a1)), (fun a0 a1 a2 => memOk_eq (beginCycle_frame offMem rfl rfl rfl rfl rfl rfl rfl a0 a1 a2)), (fun a0 a1 a2 => memOk_eq (padsLatch_frame offMem rfl a0 a1 a2)), ite_ok, ite_self]) | (with_reducible refine takeEffect_memOk _ ?_) | (with_reducible refine startWork_memOk _ _ ?_) | (with_reducible refine iteP ?_ ?_) | split)

theorem execBoundary_memOk {interval : Bool} {s : State} {t9} (hs : memOk s) (h : execBoundary interval s = .next t9) : memOk t9 := by
  refine inPhase_memOk (fun _ hs => ?_) hs h
  repeat' (first | with_reducible assumption | (simp only [(fun a0 a1 => memOk_eq (tpSet_frame offMem rfl rfl rfl a0 a1)), (fun a0 a1 a2 => memOk_eq (detect_frame offMem rfl rfl a0 a1 a2)), ite_ok, ite_self]) | (with_reducible refine boundary_memOk ?_) | (with_reducible refine iteP ?_ ?_) | split)

end Sys2Proof.Machine
end

