-- ==== Sys2Proof/Laws/Reports.lean ====
section
/-! SUPPORT. What raising an event, a detection, a Towpath cause, an answer or the acceptance of a command leaves
alone, field by field. -/
namespace Sys2Proof.Machine

/-- Only the regions of `l` set aside. -/
def only (l : List Region) (r : Region) : Bool := decide (r ∈ l)

@[simp] theorem countPq_sys (p k : Nat) (s : State) : (countPq p k s).sys = s.sys :=
  same_of_blank (countPq_frame (only [.wire]) rfl p k s) .sys rfl
@[simp] theorem countPq_cyc (p k : Nat) (s : State) : (countPq p k s).cyc = s.cyc :=
  blank_all_cyc (countPq_frame (only [.wire]) rfl p k s) rfl rfl
@[simp] theorem countPq_tide (p k : Nat) (s : State) : (countPq p k s).tide = s.tide :=
  same_of_blank (countPq_frame (only [.wire]) rfl p k s) .tide rfl
@[simp] theorem countPq_fv_fv (p k : Nat) (s : State) : (countPq p k s).fv.core = s.fv.core :=
  same_of_blank (countPq_frame (only [.wire]) rfl p k s) .fv rfl
@[simp] theorem countPq_saf (p k : Nat) (s : State) : (countPq p k s).saf = s.saf :=
  blank_all_saf (countPq_frame (only [.wire]) rfl p k s) rfl rfl rfl rfl
@[simp] theorem countPq_tp (p k : Nat) (s : State) : (countPq p k s).tp = s.tp :=
  same_of_blank (countPq_frame (only [.wire]) rfl p k s) .tp rfl
@[simp] theorem countPq_pow (p k : Nat) (s : State) : (countPq p k s).pow = s.pow :=
  same_of_blank (countPq_frame (only [.wire]) rfl p k s) .pow rfl
@[simp] theorem countPq_slu (p k : Nat) (s : State) : (countPq p k s).slu = s.slu :=
  same_of_blank (countPq_frame (only [.wire]) rfl p k s) .slu rfl
@[simp] theorem countPq_mot (p k : Nat) (s : State) : (countPq p k s).mot = s.mot :=
  same_of_blank (countPq_frame (only [.wire]) rfl p k s) .mot rfl
@[simp] theorem countPq_fio (p k : Nat) (s : State) : (countPq p k s).fio = s.fio :=
  same_of_blank (countPq_frame (only [.wire]) rfl p k s) .fio rfl
@[simp] theorem countPq_can (p k : Nat) (s : State) : (countPq p k s).can = s.can :=
  same_of_blank (countPq_frame (only [.wire]) rfl p k s) .can rfl
@[simp] theorem countPq_lin (p k : Nat) (s : State) : (countPq p k s).lin = s.lin :=
  same_of_blank (countPq_frame (only [.wire]) rfl p k s) .lin rfl
@[simp] theorem countPq_nm (p k : Nat) (s : State) : (countPq p k s).nm = s.nm :=
  same_of_blank (countPq_frame (only [.wire]) rfl p k s) .nm rfl
@[simp] theorem countPq_aq (p k : Nat) (s : State) : (countPq p k s).aq = s.aq :=
  same_of_blank (countPq_frame (only [.wire]) rfl p k s) .aq rfl
@[simp] theorem countPq_net (p k : Nat) (s : State) : (countPq p k s).net = s.net :=
  same_of_blank (countPq_frame (only [.wire]) rfl p k s) .net rfl
@[simp] theorem countPq_tow (p k : Nat) (s : State) : (countPq p k s).tow = s.tow :=
  same_of_blank (countPq_frame (only [.wire]) rfl p k s) .tow rfl
@[simp] theorem countPq_light (p k : Nat) (s : State) : (countPq p k s).light = s.light :=
  same_of_blank (countPq_frame (only [.wire]) rfl p k s) .light rfl
@[simp] theorem countPq_aps (p k : Nat) (s : State) : (countPq p k s).aps = s.aps :=
  same_of_blank (countPq_frame (only [.wire]) rfl p k s) .aps rfl
@[simp] theorem countPq_pwr (p k : Nat) (s : State) : (countPq p k s).pwr = s.pwr :=
  same_of_blank (countPq_frame (only [.wire]) rfl p k s) .pwr rfl
@[simp] theorem countPq_img (p k : Nat) (s : State) : (countPq p k s).img = s.img :=
  same_of_blank (countPq_frame (only [.wire]) rfl p k s) .img rfl
@[simp] theorem countPq_mem (p k : Nat) (s : State) : (countPq p k s).mem = s.mem :=
  blank_mem (countPq_frame (only [.wire]) rfl p k s) rfl
@[simp] theorem countPq_free (p k : Nat) (s : State) : (countPq p k s).free = s.free :=
  same_of_blank (countPq_frame (only [.wire]) rfl p k s) .free rfl
@[simp] theorem countPq_pending (p k : Nat) (s : State) : (countPq p k s).pending = s.pending :=
  same_of_blank (countPq_frame (only [.wire]) rfl p k s) .pending rfl

@[simp] theorem raiseEvt_sys (e : Evt) (dest : Option Nat) (s : State) : (raiseEvt e dest s).sys = s.sys :=
  same_of_blank (raiseEvt_frame (only [.wire]) rfl e dest s) .sys rfl
@[simp] theorem raiseEvt_cyc (e : Evt) (dest : Option Nat) (s : State) : (raiseEvt e dest s).cyc = s.cyc :=
  blank_all_cyc (raiseEvt_frame (only [.wire]) rfl e dest s) rfl rfl
@[simp] theorem raiseEvt_tide (e : Evt) (dest : Option Nat) (s : State) : (raiseEvt e dest s).tide = s.tide :=
  same_of_blank (raiseEvt_frame (only [.wire]) rfl e dest s) .tide rfl
@[simp] theorem raiseEvt_fv_fv (e : Evt) (dest : Option Nat) (s : State) : (raiseEvt e dest s).fv.core = s.fv.core :=
  same_of_blank (raiseEvt_frame (only [.wire]) rfl e dest s) .fv rfl
@[simp] theorem raiseEvt_saf (e : Evt) (dest : Option Nat) (s : State) : (raiseEvt e dest s).saf = s.saf :=
  blank_all_saf (raiseEvt_frame (only [.wire]) rfl e dest s) rfl rfl rfl rfl
@[simp] theorem raiseEvt_tp (e : Evt) (dest : Option Nat) (s : State) : (raiseEvt e dest s).tp = s.tp :=
  same_of_blank (raiseEvt_frame (only [.wire]) rfl e dest s) .tp rfl
@[simp] theorem raiseEvt_pow (e : Evt) (dest : Option Nat) (s : State) : (raiseEvt e dest s).pow = s.pow :=
  same_of_blank (raiseEvt_frame (only [.wire]) rfl e dest s) .pow rfl
@[simp] theorem raiseEvt_slu (e : Evt) (dest : Option Nat) (s : State) : (raiseEvt e dest s).slu = s.slu :=
  same_of_blank (raiseEvt_frame (only [.wire]) rfl e dest s) .slu rfl
@[simp] theorem raiseEvt_mot (e : Evt) (dest : Option Nat) (s : State) : (raiseEvt e dest s).mot = s.mot :=
  same_of_blank (raiseEvt_frame (only [.wire]) rfl e dest s) .mot rfl
@[simp] theorem raiseEvt_fio (e : Evt) (dest : Option Nat) (s : State) : (raiseEvt e dest s).fio = s.fio :=
  same_of_blank (raiseEvt_frame (only [.wire]) rfl e dest s) .fio rfl
@[simp] theorem raiseEvt_can (e : Evt) (dest : Option Nat) (s : State) : (raiseEvt e dest s).can = s.can :=
  same_of_blank (raiseEvt_frame (only [.wire]) rfl e dest s) .can rfl
@[simp] theorem raiseEvt_lin (e : Evt) (dest : Option Nat) (s : State) : (raiseEvt e dest s).lin = s.lin :=
  same_of_blank (raiseEvt_frame (only [.wire]) rfl e dest s) .lin rfl
@[simp] theorem raiseEvt_nm (e : Evt) (dest : Option Nat) (s : State) : (raiseEvt e dest s).nm = s.nm :=
  same_of_blank (raiseEvt_frame (only [.wire]) rfl e dest s) .nm rfl
@[simp] theorem raiseEvt_aq (e : Evt) (dest : Option Nat) (s : State) : (raiseEvt e dest s).aq = s.aq :=
  same_of_blank (raiseEvt_frame (only [.wire]) rfl e dest s) .aq rfl
@[simp] theorem raiseEvt_net (e : Evt) (dest : Option Nat) (s : State) : (raiseEvt e dest s).net = s.net :=
  same_of_blank (raiseEvt_frame (only [.wire]) rfl e dest s) .net rfl
@[simp] theorem raiseEvt_tow (e : Evt) (dest : Option Nat) (s : State) : (raiseEvt e dest s).tow = s.tow :=
  same_of_blank (raiseEvt_frame (only [.wire]) rfl e dest s) .tow rfl
@[simp] theorem raiseEvt_light (e : Evt) (dest : Option Nat) (s : State) : (raiseEvt e dest s).light = s.light :=
  same_of_blank (raiseEvt_frame (only [.wire]) rfl e dest s) .light rfl
@[simp] theorem raiseEvt_aps (e : Evt) (dest : Option Nat) (s : State) : (raiseEvt e dest s).aps = s.aps :=
  same_of_blank (raiseEvt_frame (only [.wire]) rfl e dest s) .aps rfl
@[simp] theorem raiseEvt_pwr (e : Evt) (dest : Option Nat) (s : State) : (raiseEvt e dest s).pwr = s.pwr :=
  same_of_blank (raiseEvt_frame (only [.wire]) rfl e dest s) .pwr rfl
@[simp] theorem raiseEvt_img (e : Evt) (dest : Option Nat) (s : State) : (raiseEvt e dest s).img = s.img :=
  same_of_blank (raiseEvt_frame (only [.wire]) rfl e dest s) .img rfl
@[simp] theorem raiseEvt_mem (e : Evt) (dest : Option Nat) (s : State) : (raiseEvt e dest s).mem = s.mem :=
  blank_mem (raiseEvt_frame (only [.wire]) rfl e dest s) rfl
@[simp] theorem raiseEvt_free (e : Evt) (dest : Option Nat) (s : State) : (raiseEvt e dest s).free = s.free :=
  same_of_blank (raiseEvt_frame (only [.wire]) rfl e dest s) .free rfl
@[simp] theorem raiseEvt_pending (e : Evt) (dest : Option Nat) (s : State) : (raiseEvt e dest s).pending = s.pending :=
  same_of_blank (raiseEvt_frame (only [.wire]) rfl e dest s) .pending rfl

@[simp] theorem emit_sys (code inst : Nat) (s : State) (cause : Nat) (flags : Nat) (value : Int) (ext : List Nat) (dest : Option Nat) : (emit code inst s cause flags value ext dest).sys = s.sys :=
  same_of_blank (emit_frame (only [.wire]) rfl code inst s cause flags value ext dest) .sys rfl
@[simp] theorem emit_cyc (code inst : Nat) (s : State) (cause : Nat) (flags : Nat) (value : Int) (ext : List Nat) (dest : Option Nat) : (emit code inst s cause flags value ext dest).cyc = s.cyc :=
  blank_all_cyc (emit_frame (only [.wire]) rfl code inst s cause flags value ext dest) rfl rfl
@[simp] theorem emit_tide (code inst : Nat) (s : State) (cause : Nat) (flags : Nat) (value : Int) (ext : List Nat) (dest : Option Nat) : (emit code inst s cause flags value ext dest).tide = s.tide :=
  same_of_blank (emit_frame (only [.wire]) rfl code inst s cause flags value ext dest) .tide rfl
@[simp] theorem emit_fv_fv (code inst : Nat) (s : State) (cause : Nat) (flags : Nat) (value : Int) (ext : List Nat) (dest : Option Nat) : (emit code inst s cause flags value ext dest).fv.core = s.fv.core :=
  same_of_blank (emit_frame (only [.wire]) rfl code inst s cause flags value ext dest) .fv rfl
@[simp] theorem emit_saf (code inst : Nat) (s : State) (cause : Nat) (flags : Nat) (value : Int) (ext : List Nat) (dest : Option Nat) : (emit code inst s cause flags value ext dest).saf = s.saf :=
  blank_all_saf (emit_frame (only [.wire]) rfl code inst s cause flags value ext dest) rfl rfl rfl rfl
@[simp] theorem emit_tp (code inst : Nat) (s : State) (cause : Nat) (flags : Nat) (value : Int) (ext : List Nat) (dest : Option Nat) : (emit code inst s cause flags value ext dest).tp = s.tp :=
  same_of_blank (emit_frame (only [.wire]) rfl code inst s cause flags value ext dest) .tp rfl
@[simp] theorem emit_pow (code inst : Nat) (s : State) (cause : Nat) (flags : Nat) (value : Int) (ext : List Nat) (dest : Option Nat) : (emit code inst s cause flags value ext dest).pow = s.pow :=
  same_of_blank (emit_frame (only [.wire]) rfl code inst s cause flags value ext dest) .pow rfl
@[simp] theorem emit_slu (code inst : Nat) (s : State) (cause : Nat) (flags : Nat) (value : Int) (ext : List Nat) (dest : Option Nat) : (emit code inst s cause flags value ext dest).slu = s.slu :=
  same_of_blank (emit_frame (only [.wire]) rfl code inst s cause flags value ext dest) .slu rfl
@[simp] theorem emit_mot (code inst : Nat) (s : State) (cause : Nat) (flags : Nat) (value : Int) (ext : List Nat) (dest : Option Nat) : (emit code inst s cause flags value ext dest).mot = s.mot :=
  same_of_blank (emit_frame (only [.wire]) rfl code inst s cause flags value ext dest) .mot rfl
@[simp] theorem emit_fio (code inst : Nat) (s : State) (cause : Nat) (flags : Nat) (value : Int) (ext : List Nat) (dest : Option Nat) : (emit code inst s cause flags value ext dest).fio = s.fio :=
  same_of_blank (emit_frame (only [.wire]) rfl code inst s cause flags value ext dest) .fio rfl
@[simp] theorem emit_can (code inst : Nat) (s : State) (cause : Nat) (flags : Nat) (value : Int) (ext : List Nat) (dest : Option Nat) : (emit code inst s cause flags value ext dest).can = s.can :=
  same_of_blank (emit_frame (only [.wire]) rfl code inst s cause flags value ext dest) .can rfl
@[simp] theorem emit_lin (code inst : Nat) (s : State) (cause : Nat) (flags : Nat) (value : Int) (ext : List Nat) (dest : Option Nat) : (emit code inst s cause flags value ext dest).lin = s.lin :=
  same_of_blank (emit_frame (only [.wire]) rfl code inst s cause flags value ext dest) .lin rfl
@[simp] theorem emit_nm (code inst : Nat) (s : State) (cause : Nat) (flags : Nat) (value : Int) (ext : List Nat) (dest : Option Nat) : (emit code inst s cause flags value ext dest).nm = s.nm :=
  same_of_blank (emit_frame (only [.wire]) rfl code inst s cause flags value ext dest) .nm rfl
@[simp] theorem emit_aq (code inst : Nat) (s : State) (cause : Nat) (flags : Nat) (value : Int) (ext : List Nat) (dest : Option Nat) : (emit code inst s cause flags value ext dest).aq = s.aq :=
  same_of_blank (emit_frame (only [.wire]) rfl code inst s cause flags value ext dest) .aq rfl
@[simp] theorem emit_net (code inst : Nat) (s : State) (cause : Nat) (flags : Nat) (value : Int) (ext : List Nat) (dest : Option Nat) : (emit code inst s cause flags value ext dest).net = s.net :=
  same_of_blank (emit_frame (only [.wire]) rfl code inst s cause flags value ext dest) .net rfl
@[simp] theorem emit_tow (code inst : Nat) (s : State) (cause : Nat) (flags : Nat) (value : Int) (ext : List Nat) (dest : Option Nat) : (emit code inst s cause flags value ext dest).tow = s.tow :=
  same_of_blank (emit_frame (only [.wire]) rfl code inst s cause flags value ext dest) .tow rfl
@[simp] theorem emit_light (code inst : Nat) (s : State) (cause : Nat) (flags : Nat) (value : Int) (ext : List Nat) (dest : Option Nat) : (emit code inst s cause flags value ext dest).light = s.light :=
  same_of_blank (emit_frame (only [.wire]) rfl code inst s cause flags value ext dest) .light rfl
@[simp] theorem emit_aps (code inst : Nat) (s : State) (cause : Nat) (flags : Nat) (value : Int) (ext : List Nat) (dest : Option Nat) : (emit code inst s cause flags value ext dest).aps = s.aps :=
  same_of_blank (emit_frame (only [.wire]) rfl code inst s cause flags value ext dest) .aps rfl
@[simp] theorem emit_pwr (code inst : Nat) (s : State) (cause : Nat) (flags : Nat) (value : Int) (ext : List Nat) (dest : Option Nat) : (emit code inst s cause flags value ext dest).pwr = s.pwr :=
  same_of_blank (emit_frame (only [.wire]) rfl code inst s cause flags value ext dest) .pwr rfl
@[simp] theorem emit_img (code inst : Nat) (s : State) (cause : Nat) (flags : Nat) (value : Int) (ext : List Nat) (dest : Option Nat) : (emit code inst s cause flags value ext dest).img = s.img :=
  same_of_blank (emit_frame (only [.wire]) rfl code inst s cause flags value ext dest) .img rfl
@[simp] theorem emit_mem (code inst : Nat) (s : State) (cause : Nat) (flags : Nat) (value : Int) (ext : List Nat) (dest : Option Nat) : (emit code inst s cause flags value ext dest).mem = s.mem :=
  blank_mem (emit_frame (only [.wire]) rfl code inst s cause flags value ext dest) rfl
@[simp] theorem emit_free (code inst : Nat) (s : State) (cause : Nat) (flags : Nat) (value : Int) (ext : List Nat) (dest : Option Nat) : (emit code inst s cause flags value ext dest).free = s.free :=
  same_of_blank (emit_frame (only [.wire]) rfl code inst s cause flags value ext dest) .free rfl
@[simp] theorem emit_pending (code inst : Nat) (s : State) (cause : Nat) (flags : Nat) (value : Int) (ext : List Nat) (dest : Option Nat) : (emit code inst s cause flags value ext dest).pending = s.pending :=
  same_of_blank (emit_frame (only [.wire]) rfl code inst s cause flags value ext dest) .pending rfl

@[simp] theorem bumpPq_sys (p k : Nat) (s : State) : (bumpPq p k s).sys = s.sys :=
  same_of_blank (bumpPq_frame (only [.wire]) rfl p k s) .sys rfl
@[simp] theorem bumpPq_cyc (p k : Nat) (s : State) : (bumpPq p k s).cyc = s.cyc :=
  blank_all_cyc (bumpPq_frame (only [.wire]) rfl p k s) rfl rfl
@[simp] theorem bumpPq_tide (p k : Nat) (s : State) : (bumpPq p k s).tide = s.tide :=
  same_of_blank (bumpPq_frame (only [.wire]) rfl p k s) .tide rfl
@[simp] theorem bumpPq_fv_fv (p k : Nat) (s : State) : (bumpPq p k s).fv.core = s.fv.core :=
  same_of_blank (bumpPq_frame (only [.wire]) rfl p k s) .fv rfl
@[simp] theorem bumpPq_saf (p k : Nat) (s : State) : (bumpPq p k s).saf = s.saf :=
  blank_all_saf (bumpPq_frame (only [.wire]) rfl p k s) rfl rfl rfl rfl
@[simp] theorem bumpPq_tp (p k : Nat) (s : State) : (bumpPq p k s).tp = s.tp :=
  same_of_blank (bumpPq_frame (only [.wire]) rfl p k s) .tp rfl
@[simp] theorem bumpPq_pow (p k : Nat) (s : State) : (bumpPq p k s).pow = s.pow :=
  same_of_blank (bumpPq_frame (only [.wire]) rfl p k s) .pow rfl
@[simp] theorem bumpPq_slu (p k : Nat) (s : State) : (bumpPq p k s).slu = s.slu :=
  same_of_blank (bumpPq_frame (only [.wire]) rfl p k s) .slu rfl
@[simp] theorem bumpPq_mot (p k : Nat) (s : State) : (bumpPq p k s).mot = s.mot :=
  same_of_blank (bumpPq_frame (only [.wire]) rfl p k s) .mot rfl
@[simp] theorem bumpPq_fio (p k : Nat) (s : State) : (bumpPq p k s).fio = s.fio :=
  same_of_blank (bumpPq_frame (only [.wire]) rfl p k s) .fio rfl
@[simp] theorem bumpPq_can (p k : Nat) (s : State) : (bumpPq p k s).can = s.can :=
  same_of_blank (bumpPq_frame (only [.wire]) rfl p k s) .can rfl
@[simp] theorem bumpPq_lin (p k : Nat) (s : State) : (bumpPq p k s).lin = s.lin :=
  same_of_blank (bumpPq_frame (only [.wire]) rfl p k s) .lin rfl
@[simp] theorem bumpPq_nm (p k : Nat) (s : State) : (bumpPq p k s).nm = s.nm :=
  same_of_blank (bumpPq_frame (only [.wire]) rfl p k s) .nm rfl
@[simp] theorem bumpPq_aq (p k : Nat) (s : State) : (bumpPq p k s).aq = s.aq :=
  same_of_blank (bumpPq_frame (only [.wire]) rfl p k s) .aq rfl
@[simp] theorem bumpPq_net (p k : Nat) (s : State) : (bumpPq p k s).net = s.net :=
  same_of_blank (bumpPq_frame (only [.wire]) rfl p k s) .net rfl
@[simp] theorem bumpPq_tow (p k : Nat) (s : State) : (bumpPq p k s).tow = s.tow :=
  same_of_blank (bumpPq_frame (only [.wire]) rfl p k s) .tow rfl
@[simp] theorem bumpPq_light (p k : Nat) (s : State) : (bumpPq p k s).light = s.light :=
  same_of_blank (bumpPq_frame (only [.wire]) rfl p k s) .light rfl
@[simp] theorem bumpPq_aps (p k : Nat) (s : State) : (bumpPq p k s).aps = s.aps :=
  same_of_blank (bumpPq_frame (only [.wire]) rfl p k s) .aps rfl
@[simp] theorem bumpPq_pwr (p k : Nat) (s : State) : (bumpPq p k s).pwr = s.pwr :=
  same_of_blank (bumpPq_frame (only [.wire]) rfl p k s) .pwr rfl
@[simp] theorem bumpPq_img (p k : Nat) (s : State) : (bumpPq p k s).img = s.img :=
  same_of_blank (bumpPq_frame (only [.wire]) rfl p k s) .img rfl
@[simp] theorem bumpPq_mem (p k : Nat) (s : State) : (bumpPq p k s).mem = s.mem :=
  blank_mem (bumpPq_frame (only [.wire]) rfl p k s) rfl
@[simp] theorem bumpPq_free (p k : Nat) (s : State) : (bumpPq p k s).free = s.free :=
  same_of_blank (bumpPq_frame (only [.wire]) rfl p k s) .free rfl
@[simp] theorem bumpPq_pending (p k : Nat) (s : State) : (bumpPq p k s).pending = s.pending :=
  same_of_blank (bumpPq_frame (only [.wire]) rfl p k s) .pending rfl

@[simp] theorem emitTransport_sys (p cause : Nat) (s : State) : (emitTransport p cause s).sys = s.sys :=
  same_of_blank (emitTransport_frame (only [.wire]) rfl p cause s) .sys rfl
@[simp] theorem emitTransport_cyc (p cause : Nat) (s : State) : (emitTransport p cause s).cyc = s.cyc :=
  blank_all_cyc (emitTransport_frame (only [.wire]) rfl p cause s) rfl rfl
@[simp] theorem emitTransport_tide (p cause : Nat) (s : State) : (emitTransport p cause s).tide = s.tide :=
  same_of_blank (emitTransport_frame (only [.wire]) rfl p cause s) .tide rfl
@[simp] theorem emitTransport_fv_fv (p cause : Nat) (s : State) : (emitTransport p cause s).fv.core = s.fv.core :=
  same_of_blank (emitTransport_frame (only [.wire]) rfl p cause s) .fv rfl
@[simp] theorem emitTransport_saf (p cause : Nat) (s : State) : (emitTransport p cause s).saf = s.saf :=
  blank_all_saf (emitTransport_frame (only [.wire]) rfl p cause s) rfl rfl rfl rfl
@[simp] theorem emitTransport_tp (p cause : Nat) (s : State) : (emitTransport p cause s).tp = s.tp :=
  same_of_blank (emitTransport_frame (only [.wire]) rfl p cause s) .tp rfl
@[simp] theorem emitTransport_pow (p cause : Nat) (s : State) : (emitTransport p cause s).pow = s.pow :=
  same_of_blank (emitTransport_frame (only [.wire]) rfl p cause s) .pow rfl
@[simp] theorem emitTransport_slu (p cause : Nat) (s : State) : (emitTransport p cause s).slu = s.slu :=
  same_of_blank (emitTransport_frame (only [.wire]) rfl p cause s) .slu rfl
@[simp] theorem emitTransport_mot (p cause : Nat) (s : State) : (emitTransport p cause s).mot = s.mot :=
  same_of_blank (emitTransport_frame (only [.wire]) rfl p cause s) .mot rfl
@[simp] theorem emitTransport_fio (p cause : Nat) (s : State) : (emitTransport p cause s).fio = s.fio :=
  same_of_blank (emitTransport_frame (only [.wire]) rfl p cause s) .fio rfl
@[simp] theorem emitTransport_can (p cause : Nat) (s : State) : (emitTransport p cause s).can = s.can :=
  same_of_blank (emitTransport_frame (only [.wire]) rfl p cause s) .can rfl
@[simp] theorem emitTransport_lin (p cause : Nat) (s : State) : (emitTransport p cause s).lin = s.lin :=
  same_of_blank (emitTransport_frame (only [.wire]) rfl p cause s) .lin rfl
@[simp] theorem emitTransport_nm (p cause : Nat) (s : State) : (emitTransport p cause s).nm = s.nm :=
  same_of_blank (emitTransport_frame (only [.wire]) rfl p cause s) .nm rfl
@[simp] theorem emitTransport_aq (p cause : Nat) (s : State) : (emitTransport p cause s).aq = s.aq :=
  same_of_blank (emitTransport_frame (only [.wire]) rfl p cause s) .aq rfl
@[simp] theorem emitTransport_net (p cause : Nat) (s : State) : (emitTransport p cause s).net = s.net :=
  same_of_blank (emitTransport_frame (only [.wire]) rfl p cause s) .net rfl
@[simp] theorem emitTransport_tow (p cause : Nat) (s : State) : (emitTransport p cause s).tow = s.tow :=
  same_of_blank (emitTransport_frame (only [.wire]) rfl p cause s) .tow rfl
@[simp] theorem emitTransport_light (p cause : Nat) (s : State) : (emitTransport p cause s).light = s.light :=
  same_of_blank (emitTransport_frame (only [.wire]) rfl p cause s) .light rfl
@[simp] theorem emitTransport_aps (p cause : Nat) (s : State) : (emitTransport p cause s).aps = s.aps :=
  same_of_blank (emitTransport_frame (only [.wire]) rfl p cause s) .aps rfl
@[simp] theorem emitTransport_pwr (p cause : Nat) (s : State) : (emitTransport p cause s).pwr = s.pwr :=
  same_of_blank (emitTransport_frame (only [.wire]) rfl p cause s) .pwr rfl
@[simp] theorem emitTransport_img (p cause : Nat) (s : State) : (emitTransport p cause s).img = s.img :=
  same_of_blank (emitTransport_frame (only [.wire]) rfl p cause s) .img rfl
@[simp] theorem emitTransport_mem (p cause : Nat) (s : State) : (emitTransport p cause s).mem = s.mem :=
  blank_mem (emitTransport_frame (only [.wire]) rfl p cause s) rfl
@[simp] theorem emitTransport_free (p cause : Nat) (s : State) : (emitTransport p cause s).free = s.free :=
  same_of_blank (emitTransport_frame (only [.wire]) rfl p cause s) .free rfl
@[simp] theorem emitTransport_pending (p cause : Nat) (s : State) : (emitTransport p cause s).pending = s.pending :=
  same_of_blank (emitTransport_frame (only [.wire]) rfl p cause s) .pending rfl

@[simp] theorem respondTo_sys (p : Nat) (m : Msg) (s : State) : (respondTo p m s).sys = s.sys :=
  same_of_blank (respondTo_frame (only [.wire]) rfl p m s) .sys rfl
@[simp] theorem respondTo_cyc (p : Nat) (m : Msg) (s : State) : (respondTo p m s).cyc = s.cyc :=
  blank_all_cyc (respondTo_frame (only [.wire]) rfl p m s) rfl rfl
@[simp] theorem respondTo_tide (p : Nat) (m : Msg) (s : State) : (respondTo p m s).tide = s.tide :=
  same_of_blank (respondTo_frame (only [.wire]) rfl p m s) .tide rfl
@[simp] theorem respondTo_fv_fv (p : Nat) (m : Msg) (s : State) : (respondTo p m s).fv.core = s.fv.core :=
  same_of_blank (respondTo_frame (only [.wire]) rfl p m s) .fv rfl
@[simp] theorem respondTo_saf (p : Nat) (m : Msg) (s : State) : (respondTo p m s).saf = s.saf :=
  blank_all_saf (respondTo_frame (only [.wire]) rfl p m s) rfl rfl rfl rfl
@[simp] theorem respondTo_tp (p : Nat) (m : Msg) (s : State) : (respondTo p m s).tp = s.tp :=
  same_of_blank (respondTo_frame (only [.wire]) rfl p m s) .tp rfl
@[simp] theorem respondTo_pow (p : Nat) (m : Msg) (s : State) : (respondTo p m s).pow = s.pow :=
  same_of_blank (respondTo_frame (only [.wire]) rfl p m s) .pow rfl
@[simp] theorem respondTo_slu (p : Nat) (m : Msg) (s : State) : (respondTo p m s).slu = s.slu :=
  same_of_blank (respondTo_frame (only [.wire]) rfl p m s) .slu rfl
@[simp] theorem respondTo_mot (p : Nat) (m : Msg) (s : State) : (respondTo p m s).mot = s.mot :=
  same_of_blank (respondTo_frame (only [.wire]) rfl p m s) .mot rfl
@[simp] theorem respondTo_fio (p : Nat) (m : Msg) (s : State) : (respondTo p m s).fio = s.fio :=
  same_of_blank (respondTo_frame (only [.wire]) rfl p m s) .fio rfl
@[simp] theorem respondTo_can (p : Nat) (m : Msg) (s : State) : (respondTo p m s).can = s.can :=
  same_of_blank (respondTo_frame (only [.wire]) rfl p m s) .can rfl
@[simp] theorem respondTo_lin (p : Nat) (m : Msg) (s : State) : (respondTo p m s).lin = s.lin :=
  same_of_blank (respondTo_frame (only [.wire]) rfl p m s) .lin rfl
@[simp] theorem respondTo_nm (p : Nat) (m : Msg) (s : State) : (respondTo p m s).nm = s.nm :=
  same_of_blank (respondTo_frame (only [.wire]) rfl p m s) .nm rfl
@[simp] theorem respondTo_aq (p : Nat) (m : Msg) (s : State) : (respondTo p m s).aq = s.aq :=
  same_of_blank (respondTo_frame (only [.wire]) rfl p m s) .aq rfl
@[simp] theorem respondTo_net (p : Nat) (m : Msg) (s : State) : (respondTo p m s).net = s.net :=
  same_of_blank (respondTo_frame (only [.wire]) rfl p m s) .net rfl
@[simp] theorem respondTo_tow (p : Nat) (m : Msg) (s : State) : (respondTo p m s).tow = s.tow :=
  same_of_blank (respondTo_frame (only [.wire]) rfl p m s) .tow rfl
@[simp] theorem respondTo_light (p : Nat) (m : Msg) (s : State) : (respondTo p m s).light = s.light :=
  same_of_blank (respondTo_frame (only [.wire]) rfl p m s) .light rfl
@[simp] theorem respondTo_aps (p : Nat) (m : Msg) (s : State) : (respondTo p m s).aps = s.aps :=
  same_of_blank (respondTo_frame (only [.wire]) rfl p m s) .aps rfl
@[simp] theorem respondTo_pwr (p : Nat) (m : Msg) (s : State) : (respondTo p m s).pwr = s.pwr :=
  same_of_blank (respondTo_frame (only [.wire]) rfl p m s) .pwr rfl
@[simp] theorem respondTo_img (p : Nat) (m : Msg) (s : State) : (respondTo p m s).img = s.img :=
  same_of_blank (respondTo_frame (only [.wire]) rfl p m s) .img rfl
@[simp] theorem respondTo_mem (p : Nat) (m : Msg) (s : State) : (respondTo p m s).mem = s.mem :=
  blank_mem (respondTo_frame (only [.wire]) rfl p m s) rfl
@[simp] theorem respondTo_free (p : Nat) (m : Msg) (s : State) : (respondTo p m s).free = s.free :=
  same_of_blank (respondTo_frame (only [.wire]) rfl p m s) .free rfl
@[simp] theorem respondTo_pending (p : Nat) (m : Msg) (s : State) : (respondTo p m s).pending = s.pending :=
  same_of_blank (respondTo_frame (only [.wire]) rfl p m s) .pending rfl

@[simp] theorem respond_sys (m : Msg) (s : State) : (respond m s).sys = s.sys :=
  same_of_blank (respond_frame (only [.wire]) rfl m s) .sys rfl
@[simp] theorem respond_cyc (m : Msg) (s : State) : (respond m s).cyc = s.cyc :=
  blank_all_cyc (respond_frame (only [.wire]) rfl m s) rfl rfl
@[simp] theorem respond_tide (m : Msg) (s : State) : (respond m s).tide = s.tide :=
  same_of_blank (respond_frame (only [.wire]) rfl m s) .tide rfl
@[simp] theorem respond_fv_fv (m : Msg) (s : State) : (respond m s).fv.core = s.fv.core :=
  same_of_blank (respond_frame (only [.wire]) rfl m s) .fv rfl
@[simp] theorem respond_saf (m : Msg) (s : State) : (respond m s).saf = s.saf :=
  blank_all_saf (respond_frame (only [.wire]) rfl m s) rfl rfl rfl rfl
@[simp] theorem respond_tp (m : Msg) (s : State) : (respond m s).tp = s.tp :=
  same_of_blank (respond_frame (only [.wire]) rfl m s) .tp rfl
@[simp] theorem respond_pow (m : Msg) (s : State) : (respond m s).pow = s.pow :=
  same_of_blank (respond_frame (only [.wire]) rfl m s) .pow rfl
@[simp] theorem respond_slu (m : Msg) (s : State) : (respond m s).slu = s.slu :=
  same_of_blank (respond_frame (only [.wire]) rfl m s) .slu rfl
@[simp] theorem respond_mot (m : Msg) (s : State) : (respond m s).mot = s.mot :=
  same_of_blank (respond_frame (only [.wire]) rfl m s) .mot rfl
@[simp] theorem respond_fio (m : Msg) (s : State) : (respond m s).fio = s.fio :=
  same_of_blank (respond_frame (only [.wire]) rfl m s) .fio rfl
@[simp] theorem respond_can (m : Msg) (s : State) : (respond m s).can = s.can :=
  same_of_blank (respond_frame (only [.wire]) rfl m s) .can rfl
@[simp] theorem respond_lin (m : Msg) (s : State) : (respond m s).lin = s.lin :=
  same_of_blank (respond_frame (only [.wire]) rfl m s) .lin rfl
@[simp] theorem respond_nm (m : Msg) (s : State) : (respond m s).nm = s.nm :=
  same_of_blank (respond_frame (only [.wire]) rfl m s) .nm rfl
@[simp] theorem respond_aq (m : Msg) (s : State) : (respond m s).aq = s.aq :=
  same_of_blank (respond_frame (only [.wire]) rfl m s) .aq rfl
@[simp] theorem respond_net (m : Msg) (s : State) : (respond m s).net = s.net :=
  same_of_blank (respond_frame (only [.wire]) rfl m s) .net rfl
@[simp] theorem respond_tow (m : Msg) (s : State) : (respond m s).tow = s.tow :=
  same_of_blank (respond_frame (only [.wire]) rfl m s) .tow rfl
@[simp] theorem respond_light (m : Msg) (s : State) : (respond m s).light = s.light :=
  same_of_blank (respond_frame (only [.wire]) rfl m s) .light rfl
@[simp] theorem respond_aps (m : Msg) (s : State) : (respond m s).aps = s.aps :=
  same_of_blank (respond_frame (only [.wire]) rfl m s) .aps rfl
@[simp] theorem respond_pwr (m : Msg) (s : State) : (respond m s).pwr = s.pwr :=
  same_of_blank (respond_frame (only [.wire]) rfl m s) .pwr rfl
@[simp] theorem respond_img (m : Msg) (s : State) : (respond m s).img = s.img :=
  same_of_blank (respond_frame (only [.wire]) rfl m s) .img rfl
@[simp] theorem respond_mem (m : Msg) (s : State) : (respond m s).mem = s.mem :=
  blank_mem (respond_frame (only [.wire]) rfl m s) rfl
@[simp] theorem respond_free (m : Msg) (s : State) : (respond m s).free = s.free :=
  same_of_blank (respond_frame (only [.wire]) rfl m s) .free rfl
@[simp] theorem respond_pending (m : Msg) (s : State) : (respond m s).pending = s.pending :=
  same_of_blank (respond_frame (only [.wire]) rfl m s) .pending rfl

@[simp] theorem faultFall_sys (s : State) : (faultFall s).sys = s.sys :=
  same_of_blank (faultFall_frame (only [.detect]) rfl s) .sys rfl
@[simp] theorem faultFall_cyc (s : State) : (faultFall s).cyc = s.cyc :=
  blank_all_cyc (faultFall_frame (only [.detect]) rfl s) rfl rfl
@[simp] theorem faultFall_tide (s : State) : (faultFall s).tide = s.tide :=
  same_of_blank (faultFall_frame (only [.detect]) rfl s) .tide rfl
@[simp] theorem faultFall_fv (s : State) : (faultFall s).fv = s.fv :=
  blank_all_fv (faultFall_frame (only [.detect]) rfl s) rfl rfl
@[simp] theorem faultFall_saf_safe (s : State) : (faultFall s).saf.safe = s.saf.safe :=
  same_of_blank (faultFall_frame (only [.detect]) rfl s) .safe rfl
@[simp] theorem faultFall_saf_breach (s : State) : (faultFall s).saf.breaches = s.saf.breaches :=
  same_of_blank (faultFall_frame (only [.detect]) rfl s) .breach rfl
@[simp] theorem faultFall_saf_pond (s : State) : (faultFall s).saf.pond = s.saf.pond :=
  same_of_blank (faultFall_frame (only [.detect]) rfl s) .pond rfl
@[simp] theorem faultFall_tp (s : State) : (faultFall s).tp = s.tp :=
  same_of_blank (faultFall_frame (only [.detect]) rfl s) .tp rfl
@[simp] theorem faultFall_pow (s : State) : (faultFall s).pow = s.pow :=
  same_of_blank (faultFall_frame (only [.detect]) rfl s) .pow rfl
@[simp] theorem faultFall_slu (s : State) : (faultFall s).slu = s.slu :=
  same_of_blank (faultFall_frame (only [.detect]) rfl s) .slu rfl
@[simp] theorem faultFall_mot (s : State) : (faultFall s).mot = s.mot :=
  same_of_blank (faultFall_frame (only [.detect]) rfl s) .mot rfl
@[simp] theorem faultFall_fio (s : State) : (faultFall s).fio = s.fio :=
  same_of_blank (faultFall_frame (only [.detect]) rfl s) .fio rfl
@[simp] theorem faultFall_can (s : State) : (faultFall s).can = s.can :=
  same_of_blank (faultFall_frame (only [.detect]) rfl s) .can rfl
@[simp] theorem faultFall_lin (s : State) : (faultFall s).lin = s.lin :=
  same_of_blank (faultFall_frame (only [.detect]) rfl s) .lin rfl
@[simp] theorem faultFall_nm (s : State) : (faultFall s).nm = s.nm :=
  same_of_blank (faultFall_frame (only [.detect]) rfl s) .nm rfl
@[simp] theorem faultFall_aq (s : State) : (faultFall s).aq = s.aq :=
  same_of_blank (faultFall_frame (only [.detect]) rfl s) .aq rfl
@[simp] theorem faultFall_net (s : State) : (faultFall s).net = s.net :=
  same_of_blank (faultFall_frame (only [.detect]) rfl s) .net rfl
@[simp] theorem faultFall_tow (s : State) : (faultFall s).tow = s.tow :=
  same_of_blank (faultFall_frame (only [.detect]) rfl s) .tow rfl
@[simp] theorem faultFall_light (s : State) : (faultFall s).light = s.light :=
  same_of_blank (faultFall_frame (only [.detect]) rfl s) .light rfl
@[simp] theorem faultFall_aps (s : State) : (faultFall s).aps = s.aps :=
  same_of_blank (faultFall_frame (only [.detect]) rfl s) .aps rfl
@[simp] theorem faultFall_pwr (s : State) : (faultFall s).pwr = s.pwr :=
  same_of_blank (faultFall_frame (only [.detect]) rfl s) .pwr rfl
@[simp] theorem faultFall_img (s : State) : (faultFall s).img = s.img :=
  same_of_blank (faultFall_frame (only [.detect]) rfl s) .img rfl
@[simp] theorem faultFall_mem (s : State) : (faultFall s).mem = s.mem :=
  blank_mem (faultFall_frame (only [.detect]) rfl s) rfl
@[simp] theorem faultFall_free (s : State) : (faultFall s).free = s.free :=
  same_of_blank (faultFall_frame (only [.detect]) rfl s) .free rfl
@[simp] theorem faultFall_pending (s : State) : (faultFall s).pending = s.pending :=
  same_of_blank (faultFall_frame (only [.detect]) rfl s) .pending rfl

@[simp] theorem faultRise_sys (s : State) : (faultRise s).sys = s.sys :=
  same_of_blank (faultRise_frame (only [.detect]) rfl s) .sys rfl
@[simp] theorem faultRise_cyc (s : State) : (faultRise s).cyc = s.cyc :=
  blank_all_cyc (faultRise_frame (only [.detect]) rfl s) rfl rfl
@[simp] theorem faultRise_tide (s : State) : (faultRise s).tide = s.tide :=
  same_of_blank (faultRise_frame (only [.detect]) rfl s) .tide rfl
@[simp] theorem faultRise_fv (s : State) : (faultRise s).fv = s.fv :=
  blank_all_fv (faultRise_frame (only [.detect]) rfl s) rfl rfl
@[simp] theorem faultRise_saf_safe (s : State) : (faultRise s).saf.safe = s.saf.safe :=
  same_of_blank (faultRise_frame (only [.detect]) rfl s) .safe rfl
@[simp] theorem faultRise_saf_breach (s : State) : (faultRise s).saf.breaches = s.saf.breaches :=
  same_of_blank (faultRise_frame (only [.detect]) rfl s) .breach rfl
@[simp] theorem faultRise_saf_pond (s : State) : (faultRise s).saf.pond = s.saf.pond :=
  same_of_blank (faultRise_frame (only [.detect]) rfl s) .pond rfl
@[simp] theorem faultRise_tp (s : State) : (faultRise s).tp = s.tp :=
  same_of_blank (faultRise_frame (only [.detect]) rfl s) .tp rfl
@[simp] theorem faultRise_pow (s : State) : (faultRise s).pow = s.pow :=
  same_of_blank (faultRise_frame (only [.detect]) rfl s) .pow rfl
@[simp] theorem faultRise_slu (s : State) : (faultRise s).slu = s.slu :=
  same_of_blank (faultRise_frame (only [.detect]) rfl s) .slu rfl
@[simp] theorem faultRise_mot (s : State) : (faultRise s).mot = s.mot :=
  same_of_blank (faultRise_frame (only [.detect]) rfl s) .mot rfl
@[simp] theorem faultRise_fio (s : State) : (faultRise s).fio = s.fio :=
  same_of_blank (faultRise_frame (only [.detect]) rfl s) .fio rfl
@[simp] theorem faultRise_can (s : State) : (faultRise s).can = s.can :=
  same_of_blank (faultRise_frame (only [.detect]) rfl s) .can rfl
@[simp] theorem faultRise_lin (s : State) : (faultRise s).lin = s.lin :=
  same_of_blank (faultRise_frame (only [.detect]) rfl s) .lin rfl
@[simp] theorem faultRise_nm (s : State) : (faultRise s).nm = s.nm :=
  same_of_blank (faultRise_frame (only [.detect]) rfl s) .nm rfl
@[simp] theorem faultRise_aq (s : State) : (faultRise s).aq = s.aq :=
  same_of_blank (faultRise_frame (only [.detect]) rfl s) .aq rfl
@[simp] theorem faultRise_net (s : State) : (faultRise s).net = s.net :=
  same_of_blank (faultRise_frame (only [.detect]) rfl s) .net rfl
@[simp] theorem faultRise_tow (s : State) : (faultRise s).tow = s.tow :=
  same_of_blank (faultRise_frame (only [.detect]) rfl s) .tow rfl
@[simp] theorem faultRise_light (s : State) : (faultRise s).light = s.light :=
  same_of_blank (faultRise_frame (only [.detect]) rfl s) .light rfl
@[simp] theorem faultRise_aps (s : State) : (faultRise s).aps = s.aps :=
  same_of_blank (faultRise_frame (only [.detect]) rfl s) .aps rfl
@[simp] theorem faultRise_pwr (s : State) : (faultRise s).pwr = s.pwr :=
  same_of_blank (faultRise_frame (only [.detect]) rfl s) .pwr rfl
@[simp] theorem faultRise_img (s : State) : (faultRise s).img = s.img :=
  same_of_blank (faultRise_frame (only [.detect]) rfl s) .img rfl
@[simp] theorem faultRise_mem (s : State) : (faultRise s).mem = s.mem :=
  blank_mem (faultRise_frame (only [.detect]) rfl s) rfl
@[simp] theorem faultRise_free (s : State) : (faultRise s).free = s.free :=
  same_of_blank (faultRise_frame (only [.detect]) rfl s) .free rfl
@[simp] theorem faultRise_pending (s : State) : (faultRise s).pending = s.pending :=
  same_of_blank (faultRise_frame (only [.detect]) rfl s) .pending rfl

@[simp] theorem safeRequest_sys (k bp : Nat) (s : State) : (safeRequest k bp s).sys = s.sys :=
  same_of_blank (safeRequest_frame (only [.detect]) rfl k bp s) .sys rfl
@[simp] theorem safeRequest_cyc (k bp : Nat) (s : State) : (safeRequest k bp s).cyc = s.cyc :=
  blank_all_cyc (safeRequest_frame (only [.detect]) rfl k bp s) rfl rfl
@[simp] theorem safeRequest_tide (k bp : Nat) (s : State) : (safeRequest k bp s).tide = s.tide :=
  same_of_blank (safeRequest_frame (only [.detect]) rfl k bp s) .tide rfl
@[simp] theorem safeRequest_fv (k bp : Nat) (s : State) : (safeRequest k bp s).fv = s.fv :=
  blank_all_fv (safeRequest_frame (only [.detect]) rfl k bp s) rfl rfl
@[simp] theorem safeRequest_saf_safe (k bp : Nat) (s : State) : (safeRequest k bp s).saf.safe = s.saf.safe :=
  same_of_blank (safeRequest_frame (only [.detect]) rfl k bp s) .safe rfl
@[simp] theorem safeRequest_saf_breach (k bp : Nat) (s : State) : (safeRequest k bp s).saf.breaches = s.saf.breaches :=
  same_of_blank (safeRequest_frame (only [.detect]) rfl k bp s) .breach rfl
@[simp] theorem safeRequest_saf_pond (k bp : Nat) (s : State) : (safeRequest k bp s).saf.pond = s.saf.pond :=
  same_of_blank (safeRequest_frame (only [.detect]) rfl k bp s) .pond rfl
@[simp] theorem safeRequest_tp (k bp : Nat) (s : State) : (safeRequest k bp s).tp = s.tp :=
  same_of_blank (safeRequest_frame (only [.detect]) rfl k bp s) .tp rfl
@[simp] theorem safeRequest_pow (k bp : Nat) (s : State) : (safeRequest k bp s).pow = s.pow :=
  same_of_blank (safeRequest_frame (only [.detect]) rfl k bp s) .pow rfl
@[simp] theorem safeRequest_slu (k bp : Nat) (s : State) : (safeRequest k bp s).slu = s.slu :=
  same_of_blank (safeRequest_frame (only [.detect]) rfl k bp s) .slu rfl
@[simp] theorem safeRequest_mot (k bp : Nat) (s : State) : (safeRequest k bp s).mot = s.mot :=
  same_of_blank (safeRequest_frame (only [.detect]) rfl k bp s) .mot rfl
@[simp] theorem safeRequest_fio (k bp : Nat) (s : State) : (safeRequest k bp s).fio = s.fio :=
  same_of_blank (safeRequest_frame (only [.detect]) rfl k bp s) .fio rfl
@[simp] theorem safeRequest_can (k bp : Nat) (s : State) : (safeRequest k bp s).can = s.can :=
  same_of_blank (safeRequest_frame (only [.detect]) rfl k bp s) .can rfl
@[simp] theorem safeRequest_lin (k bp : Nat) (s : State) : (safeRequest k bp s).lin = s.lin :=
  same_of_blank (safeRequest_frame (only [.detect]) rfl k bp s) .lin rfl
@[simp] theorem safeRequest_nm (k bp : Nat) (s : State) : (safeRequest k bp s).nm = s.nm :=
  same_of_blank (safeRequest_frame (only [.detect]) rfl k bp s) .nm rfl
@[simp] theorem safeRequest_aq (k bp : Nat) (s : State) : (safeRequest k bp s).aq = s.aq :=
  same_of_blank (safeRequest_frame (only [.detect]) rfl k bp s) .aq rfl
@[simp] theorem safeRequest_net (k bp : Nat) (s : State) : (safeRequest k bp s).net = s.net :=
  same_of_blank (safeRequest_frame (only [.detect]) rfl k bp s) .net rfl
@[simp] theorem safeRequest_tow (k bp : Nat) (s : State) : (safeRequest k bp s).tow = s.tow :=
  same_of_blank (safeRequest_frame (only [.detect]) rfl k bp s) .tow rfl
@[simp] theorem safeRequest_light (k bp : Nat) (s : State) : (safeRequest k bp s).light = s.light :=
  same_of_blank (safeRequest_frame (only [.detect]) rfl k bp s) .light rfl
@[simp] theorem safeRequest_aps (k bp : Nat) (s : State) : (safeRequest k bp s).aps = s.aps :=
  same_of_blank (safeRequest_frame (only [.detect]) rfl k bp s) .aps rfl
@[simp] theorem safeRequest_pwr (k bp : Nat) (s : State) : (safeRequest k bp s).pwr = s.pwr :=
  same_of_blank (safeRequest_frame (only [.detect]) rfl k bp s) .pwr rfl
@[simp] theorem safeRequest_img (k bp : Nat) (s : State) : (safeRequest k bp s).img = s.img :=
  same_of_blank (safeRequest_frame (only [.detect]) rfl k bp s) .img rfl
@[simp] theorem safeRequest_mem (k bp : Nat) (s : State) : (safeRequest k bp s).mem = s.mem :=
  blank_mem (safeRequest_frame (only [.detect]) rfl k bp s) rfl
@[simp] theorem safeRequest_free (k bp : Nat) (s : State) : (safeRequest k bp s).free = s.free :=
  same_of_blank (safeRequest_frame (only [.detect]) rfl k bp s) .free rfl
@[simp] theorem safeRequest_pending (k bp : Nat) (s : State) : (safeRequest k bp s).pending = s.pending :=
  same_of_blank (safeRequest_frame (only [.detect]) rfl k bp s) .pending rfl

@[simp] theorem detectLatch_sys (bp : Nat) (live : Bool) (s : State) : (detectLatch bp live s).sys = s.sys :=
  same_of_blank (detectLatch_frame (only [.wire, .detect]) rfl rfl bp live s) .sys rfl
@[simp] theorem detectLatch_cyc (bp : Nat) (live : Bool) (s : State) : (detectLatch bp live s).cyc = s.cyc :=
  blank_all_cyc (detectLatch_frame (only [.wire, .detect]) rfl rfl bp live s) rfl rfl
@[simp] theorem detectLatch_tide (bp : Nat) (live : Bool) (s : State) : (detectLatch bp live s).tide = s.tide :=
  same_of_blank (detectLatch_frame (only [.wire, .detect]) rfl rfl bp live s) .tide rfl
@[simp] theorem detectLatch_fv_fv (bp : Nat) (live : Bool) (s : State) : (detectLatch bp live s).fv.core = s.fv.core :=
  same_of_blank (detectLatch_frame (only [.wire, .detect]) rfl rfl bp live s) .fv rfl
@[simp] theorem detectLatch_saf_safe (bp : Nat) (live : Bool) (s : State) : (detectLatch bp live s).saf.safe = s.saf.safe :=
  same_of_blank (detectLatch_frame (only [.wire, .detect]) rfl rfl bp live s) .safe rfl
@[simp] theorem detectLatch_saf_breach (bp : Nat) (live : Bool) (s : State) : (detectLatch bp live s).saf.breaches = s.saf.breaches :=
  same_of_blank (detectLatch_frame (only [.wire, .detect]) rfl rfl bp live s) .breach rfl
@[simp] theorem detectLatch_saf_pond (bp : Nat) (live : Bool) (s : State) : (detectLatch bp live s).saf.pond = s.saf.pond :=
  same_of_blank (detectLatch_frame (only [.wire, .detect]) rfl rfl bp live s) .pond rfl
@[simp] theorem detectLatch_tp (bp : Nat) (live : Bool) (s : State) : (detectLatch bp live s).tp = s.tp :=
  same_of_blank (detectLatch_frame (only [.wire, .detect]) rfl rfl bp live s) .tp rfl
@[simp] theorem detectLatch_pow (bp : Nat) (live : Bool) (s : State) : (detectLatch bp live s).pow = s.pow :=
  same_of_blank (detectLatch_frame (only [.wire, .detect]) rfl rfl bp live s) .pow rfl
@[simp] theorem detectLatch_slu (bp : Nat) (live : Bool) (s : State) : (detectLatch bp live s).slu = s.slu :=
  same_of_blank (detectLatch_frame (only [.wire, .detect]) rfl rfl bp live s) .slu rfl
@[simp] theorem detectLatch_mot (bp : Nat) (live : Bool) (s : State) : (detectLatch bp live s).mot = s.mot :=
  same_of_blank (detectLatch_frame (only [.wire, .detect]) rfl rfl bp live s) .mot rfl
@[simp] theorem detectLatch_fio (bp : Nat) (live : Bool) (s : State) : (detectLatch bp live s).fio = s.fio :=
  same_of_blank (detectLatch_frame (only [.wire, .detect]) rfl rfl bp live s) .fio rfl
@[simp] theorem detectLatch_can (bp : Nat) (live : Bool) (s : State) : (detectLatch bp live s).can = s.can :=
  same_of_blank (detectLatch_frame (only [.wire, .detect]) rfl rfl bp live s) .can rfl
@[simp] theorem detectLatch_lin (bp : Nat) (live : Bool) (s : State) : (detectLatch bp live s).lin = s.lin :=
  same_of_blank (detectLatch_frame (only [.wire, .detect]) rfl rfl bp live s) .lin rfl
@[simp] theorem detectLatch_nm (bp : Nat) (live : Bool) (s : State) : (detectLatch bp live s).nm = s.nm :=
  same_of_blank (detectLatch_frame (only [.wire, .detect]) rfl rfl bp live s) .nm rfl
@[simp] theorem detectLatch_aq (bp : Nat) (live : Bool) (s : State) : (detectLatch bp live s).aq = s.aq :=
  same_of_blank (detectLatch_frame (only [.wire, .detect]) rfl rfl bp live s) .aq rfl
@[simp] theorem detectLatch_net (bp : Nat) (live : Bool) (s : State) : (detectLatch bp live s).net = s.net :=
  same_of_blank (detectLatch_frame (only [.wire, .detect]) rfl rfl bp live s) .net rfl
@[simp] theorem detectLatch_tow (bp : Nat) (live : Bool) (s : State) : (detectLatch bp live s).tow = s.tow :=
  same_of_blank (detectLatch_frame (only [.wire, .detect]) rfl rfl bp live s) .tow rfl
@[simp] theorem detectLatch_light (bp : Nat) (live : Bool) (s : State) : (detectLatch bp live s).light = s.light :=
  same_of_blank (detectLatch_frame (only [.wire, .detect]) rfl rfl bp live s) .light rfl
@[simp] theorem detectLatch_aps (bp : Nat) (live : Bool) (s : State) : (detectLatch bp live s).aps = s.aps :=
  same_of_blank (detectLatch_frame (only [.wire, .detect]) rfl rfl bp live s) .aps rfl
@[simp] theorem detectLatch_pwr (bp : Nat) (live : Bool) (s : State) : (detectLatch bp live s).pwr = s.pwr :=
  same_of_blank (detectLatch_frame (only [.wire, .detect]) rfl rfl bp live s) .pwr rfl
@[simp] theorem detectLatch_img (bp : Nat) (live : Bool) (s : State) : (detectLatch bp live s).img = s.img :=
  same_of_blank (detectLatch_frame (only [.wire, .detect]) rfl rfl bp live s) .img rfl
@[simp] theorem detectLatch_mem (bp : Nat) (live : Bool) (s : State) : (detectLatch bp live s).mem = s.mem :=
  blank_mem (detectLatch_frame (only [.wire, .detect]) rfl rfl bp live s) rfl
@[simp] theorem detectLatch_free (bp : Nat) (live : Bool) (s : State) : (detectLatch bp live s).free = s.free :=
  same_of_blank (detectLatch_frame (only [.wire, .detect]) rfl rfl bp live s) .free rfl
@[simp] theorem detectLatch_pending (bp : Nat) (live : Bool) (s : State) : (detectLatch bp live s).pending = s.pending :=
  same_of_blank (detectLatch_frame (only [.wire, .detect]) rfl rfl bp live s) .pending rfl

@[simp] theorem detect_sys (bp : Nat) (live : Bool) (s : State) : (detect bp live s).sys = s.sys :=
  same_of_blank (detect_frame (only [.wire, .detect]) rfl rfl bp live s) .sys rfl
@[simp] theorem detect_cyc (bp : Nat) (live : Bool) (s : State) : (detect bp live s).cyc = s.cyc :=
  blank_all_cyc (detect_frame (only [.wire, .detect]) rfl rfl bp live s) rfl rfl
@[simp] theorem detect_tide (bp : Nat) (live : Bool) (s : State) : (detect bp live s).tide = s.tide :=
  same_of_blank (detect_frame (only [.wire, .detect]) rfl rfl bp live s) .tide rfl
@[simp] theorem detect_fv_fv (bp : Nat) (live : Bool) (s : State) : (detect bp live s).fv.core = s.fv.core :=
  same_of_blank (detect_frame (only [.wire, .detect]) rfl rfl bp live s) .fv rfl
@[simp] theorem detect_saf_safe (bp : Nat) (live : Bool) (s : State) : (detect bp live s).saf.safe = s.saf.safe :=
  same_of_blank (detect_frame (only [.wire, .detect]) rfl rfl bp live s) .safe rfl
@[simp] theorem detect_saf_breach (bp : Nat) (live : Bool) (s : State) : (detect bp live s).saf.breaches = s.saf.breaches :=
  same_of_blank (detect_frame (only [.wire, .detect]) rfl rfl bp live s) .breach rfl
@[simp] theorem detect_saf_pond (bp : Nat) (live : Bool) (s : State) : (detect bp live s).saf.pond = s.saf.pond :=
  same_of_blank (detect_frame (only [.wire, .detect]) rfl rfl bp live s) .pond rfl
@[simp] theorem detect_tp (bp : Nat) (live : Bool) (s : State) : (detect bp live s).tp = s.tp :=
  same_of_blank (detect_frame (only [.wire, .detect]) rfl rfl bp live s) .tp rfl
@[simp] theorem detect_pow (bp : Nat) (live : Bool) (s : State) : (detect bp live s).pow = s.pow :=
  same_of_blank (detect_frame (only [.wire, .detect]) rfl rfl bp live s) .pow rfl
@[simp] theorem detect_slu (bp : Nat) (live : Bool) (s : State) : (detect bp live s).slu = s.slu :=
  same_of_blank (detect_frame (only [.wire, .detect]) rfl rfl bp live s) .slu rfl
@[simp] theorem detect_mot (bp : Nat) (live : Bool) (s : State) : (detect bp live s).mot = s.mot :=
  same_of_blank (detect_frame (only [.wire, .detect]) rfl rfl bp live s) .mot rfl
@[simp] theorem detect_fio (bp : Nat) (live : Bool) (s : State) : (detect bp live s).fio = s.fio :=
  same_of_blank (detect_frame (only [.wire, .detect]) rfl rfl bp live s) .fio rfl
@[simp] theorem detect_can (bp : Nat) (live : Bool) (s : State) : (detect bp live s).can = s.can :=
  same_of_blank (detect_frame (only [.wire, .detect]) rfl rfl bp live s) .can rfl
@[simp] theorem detect_lin (bp : Nat) (live : Bool) (s : State) : (detect bp live s).lin = s.lin :=
  same_of_blank (detect_frame (only [.wire, .detect]) rfl rfl bp live s) .lin rfl
@[simp] theorem detect_nm (bp : Nat) (live : Bool) (s : State) : (detect bp live s).nm = s.nm :=
  same_of_blank (detect_frame (only [.wire, .detect]) rfl rfl bp live s) .nm rfl
@[simp] theorem detect_aq (bp : Nat) (live : Bool) (s : State) : (detect bp live s).aq = s.aq :=
  same_of_blank (detect_frame (only [.wire, .detect]) rfl rfl bp live s) .aq rfl
@[simp] theorem detect_net (bp : Nat) (live : Bool) (s : State) : (detect bp live s).net = s.net :=
  same_of_blank (detect_frame (only [.wire, .detect]) rfl rfl bp live s) .net rfl
@[simp] theorem detect_tow (bp : Nat) (live : Bool) (s : State) : (detect bp live s).tow = s.tow :=
  same_of_blank (detect_frame (only [.wire, .detect]) rfl rfl bp live s) .tow rfl
@[simp] theorem detect_light (bp : Nat) (live : Bool) (s : State) : (detect bp live s).light = s.light :=
  same_of_blank (detect_frame (only [.wire, .detect]) rfl rfl bp live s) .light rfl
@[simp] theorem detect_aps (bp : Nat) (live : Bool) (s : State) : (detect bp live s).aps = s.aps :=
  same_of_blank (detect_frame (only [.wire, .detect]) rfl rfl bp live s) .aps rfl
@[simp] theorem detect_pwr (bp : Nat) (live : Bool) (s : State) : (detect bp live s).pwr = s.pwr :=
  same_of_blank (detect_frame (only [.wire, .detect]) rfl rfl bp live s) .pwr rfl
@[simp] theorem detect_img (bp : Nat) (live : Bool) (s : State) : (detect bp live s).img = s.img :=
  same_of_blank (detect_frame (only [.wire, .detect]) rfl rfl bp live s) .img rfl
@[simp] theorem detect_mem (bp : Nat) (live : Bool) (s : State) : (detect bp live s).mem = s.mem :=
  blank_mem (detect_frame (only [.wire, .detect]) rfl rfl bp live s) rfl
@[simp] theorem detect_free (bp : Nat) (live : Bool) (s : State) : (detect bp live s).free = s.free :=
  same_of_blank (detect_frame (only [.wire, .detect]) rfl rfl bp live s) .free rfl
@[simp] theorem detect_pending (bp : Nat) (live : Bool) (s : State) : (detect bp live s).pending = s.pending :=
  same_of_blank (detect_frame (only [.wire, .detect]) rfl rfl bp live s) .pending rfl

@[simp] theorem detectEnd_sys (bp : Nat) (s : State) : (detectEnd bp s).sys = s.sys :=
  same_of_blank (detectEnd_frame (only [.wire, .detect]) rfl rfl bp s) .sys rfl
@[simp] theorem detectEnd_cyc (bp : Nat) (s : State) : (detectEnd bp s).cyc = s.cyc :=
  blank_all_cyc (detectEnd_frame (only [.wire, .detect]) rfl rfl bp s) rfl rfl
@[simp] theorem detectEnd_tide (bp : Nat) (s : State) : (detectEnd bp s).tide = s.tide :=
  same_of_blank (detectEnd_frame (only [.wire, .detect]) rfl rfl bp s) .tide rfl
@[simp] theorem detectEnd_fv_fv (bp : Nat) (s : State) : (detectEnd bp s).fv.core = s.fv.core :=
  same_of_blank (detectEnd_frame (only [.wire, .detect]) rfl rfl bp s) .fv rfl
@[simp] theorem detectEnd_saf_safe (bp : Nat) (s : State) : (detectEnd bp s).saf.safe = s.saf.safe :=
  same_of_blank (detectEnd_frame (only [.wire, .detect]) rfl rfl bp s) .safe rfl
@[simp] theorem detectEnd_saf_breach (bp : Nat) (s : State) : (detectEnd bp s).saf.breaches = s.saf.breaches :=
  same_of_blank (detectEnd_frame (only [.wire, .detect]) rfl rfl bp s) .breach rfl
@[simp] theorem detectEnd_saf_pond (bp : Nat) (s : State) : (detectEnd bp s).saf.pond = s.saf.pond :=
  same_of_blank (detectEnd_frame (only [.wire, .detect]) rfl rfl bp s) .pond rfl
@[simp] theorem detectEnd_tp (bp : Nat) (s : State) : (detectEnd bp s).tp = s.tp :=
  same_of_blank (detectEnd_frame (only [.wire, .detect]) rfl rfl bp s) .tp rfl
@[simp] theorem detectEnd_pow (bp : Nat) (s : State) : (detectEnd bp s).pow = s.pow :=
  same_of_blank (detectEnd_frame (only [.wire, .detect]) rfl rfl bp s) .pow rfl
@[simp] theorem detectEnd_slu (bp : Nat) (s : State) : (detectEnd bp s).slu = s.slu :=
  same_of_blank (detectEnd_frame (only [.wire, .detect]) rfl rfl bp s) .slu rfl
@[simp] theorem detectEnd_mot (bp : Nat) (s : State) : (detectEnd bp s).mot = s.mot :=
  same_of_blank (detectEnd_frame (only [.wire, .detect]) rfl rfl bp s) .mot rfl
@[simp] theorem detectEnd_fio (bp : Nat) (s : State) : (detectEnd bp s).fio = s.fio :=
  same_of_blank (detectEnd_frame (only [.wire, .detect]) rfl rfl bp s) .fio rfl
@[simp] theorem detectEnd_can (bp : Nat) (s : State) : (detectEnd bp s).can = s.can :=
  same_of_blank (detectEnd_frame (only [.wire, .detect]) rfl rfl bp s) .can rfl
@[simp] theorem detectEnd_lin (bp : Nat) (s : State) : (detectEnd bp s).lin = s.lin :=
  same_of_blank (detectEnd_frame (only [.wire, .detect]) rfl rfl bp s) .lin rfl
@[simp] theorem detectEnd_nm (bp : Nat) (s : State) : (detectEnd bp s).nm = s.nm :=
  same_of_blank (detectEnd_frame (only [.wire, .detect]) rfl rfl bp s) .nm rfl
@[simp] theorem detectEnd_aq (bp : Nat) (s : State) : (detectEnd bp s).aq = s.aq :=
  same_of_blank (detectEnd_frame (only [.wire, .detect]) rfl rfl bp s) .aq rfl
@[simp] theorem detectEnd_net (bp : Nat) (s : State) : (detectEnd bp s).net = s.net :=
  same_of_blank (detectEnd_frame (only [.wire, .detect]) rfl rfl bp s) .net rfl
@[simp] theorem detectEnd_tow (bp : Nat) (s : State) : (detectEnd bp s).tow = s.tow :=
  same_of_blank (detectEnd_frame (only [.wire, .detect]) rfl rfl bp s) .tow rfl
@[simp] theorem detectEnd_light (bp : Nat) (s : State) : (detectEnd bp s).light = s.light :=
  same_of_blank (detectEnd_frame (only [.wire, .detect]) rfl rfl bp s) .light rfl
@[simp] theorem detectEnd_aps (bp : Nat) (s : State) : (detectEnd bp s).aps = s.aps :=
  same_of_blank (detectEnd_frame (only [.wire, .detect]) rfl rfl bp s) .aps rfl
@[simp] theorem detectEnd_pwr (bp : Nat) (s : State) : (detectEnd bp s).pwr = s.pwr :=
  same_of_blank (detectEnd_frame (only [.wire, .detect]) rfl rfl bp s) .pwr rfl
@[simp] theorem detectEnd_img (bp : Nat) (s : State) : (detectEnd bp s).img = s.img :=
  same_of_blank (detectEnd_frame (only [.wire, .detect]) rfl rfl bp s) .img rfl
@[simp] theorem detectEnd_mem (bp : Nat) (s : State) : (detectEnd bp s).mem = s.mem :=
  blank_mem (detectEnd_frame (only [.wire, .detect]) rfl rfl bp s) rfl
@[simp] theorem detectEnd_free (bp : Nat) (s : State) : (detectEnd bp s).free = s.free :=
  same_of_blank (detectEnd_frame (only [.wire, .detect]) rfl rfl bp s) .free rfl
@[simp] theorem detectEnd_pending (bp : Nat) (s : State) : (detectEnd bp s).pending = s.pending :=
  same_of_blank (detectEnd_frame (only [.wire, .detect]) rfl rfl bp s) .pending rfl

@[simp] theorem setTpCauses_sys (new : Nat) (s : State) : (setTpCauses new s).sys = s.sys :=
  same_of_blank (setTpCauses_frame (only [.wire, .detect, .tp]) rfl rfl rfl new s) .sys rfl
@[simp] theorem setTpCauses_cyc (new : Nat) (s : State) : (setTpCauses new s).cyc = s.cyc :=
  blank_all_cyc (setTpCauses_frame (only [.wire, .detect, .tp]) rfl rfl rfl new s) rfl rfl
@[simp] theorem setTpCauses_tide (new : Nat) (s : State) : (setTpCauses new s).tide = s.tide :=
  same_of_blank (setTpCauses_frame (only [.wire, .detect, .tp]) rfl rfl rfl new s) .tide rfl
@[simp] theorem setTpCauses_fv_fv (new : Nat) (s : State) : (setTpCauses new s).fv.core = s.fv.core :=
  same_of_blank (setTpCauses_frame (only [.wire, .detect, .tp]) rfl rfl rfl new s) .fv rfl
@[simp] theorem setTpCauses_saf_safe (new : Nat) (s : State) : (setTpCauses new s).saf.safe = s.saf.safe :=
  same_of_blank (setTpCauses_frame (only [.wire, .detect, .tp]) rfl rfl rfl new s) .safe rfl
@[simp] theorem setTpCauses_saf_breach (new : Nat) (s : State) : (setTpCauses new s).saf.breaches = s.saf.breaches :=
  same_of_blank (setTpCauses_frame (only [.wire, .detect, .tp]) rfl rfl rfl new s) .breach rfl
@[simp] theorem setTpCauses_saf_pond (new : Nat) (s : State) : (setTpCauses new s).saf.pond = s.saf.pond :=
  same_of_blank (setTpCauses_frame (only [.wire, .detect, .tp]) rfl rfl rfl new s) .pond rfl
@[simp] theorem setTpCauses_pow (new : Nat) (s : State) : (setTpCauses new s).pow = s.pow :=
  same_of_blank (setTpCauses_frame (only [.wire, .detect, .tp]) rfl rfl rfl new s) .pow rfl
@[simp] theorem setTpCauses_slu (new : Nat) (s : State) : (setTpCauses new s).slu = s.slu :=
  same_of_blank (setTpCauses_frame (only [.wire, .detect, .tp]) rfl rfl rfl new s) .slu rfl
@[simp] theorem setTpCauses_mot (new : Nat) (s : State) : (setTpCauses new s).mot = s.mot :=
  same_of_blank (setTpCauses_frame (only [.wire, .detect, .tp]) rfl rfl rfl new s) .mot rfl
@[simp] theorem setTpCauses_fio (new : Nat) (s : State) : (setTpCauses new s).fio = s.fio :=
  same_of_blank (setTpCauses_frame (only [.wire, .detect, .tp]) rfl rfl rfl new s) .fio rfl
@[simp] theorem setTpCauses_can (new : Nat) (s : State) : (setTpCauses new s).can = s.can :=
  same_of_blank (setTpCauses_frame (only [.wire, .detect, .tp]) rfl rfl rfl new s) .can rfl
@[simp] theorem setTpCauses_lin (new : Nat) (s : State) : (setTpCauses new s).lin = s.lin :=
  same_of_blank (setTpCauses_frame (only [.wire, .detect, .tp]) rfl rfl rfl new s) .lin rfl
@[simp] theorem setTpCauses_nm (new : Nat) (s : State) : (setTpCauses new s).nm = s.nm :=
  same_of_blank (setTpCauses_frame (only [.wire, .detect, .tp]) rfl rfl rfl new s) .nm rfl
@[simp] theorem setTpCauses_aq (new : Nat) (s : State) : (setTpCauses new s).aq = s.aq :=
  same_of_blank (setTpCauses_frame (only [.wire, .detect, .tp]) rfl rfl rfl new s) .aq rfl
@[simp] theorem setTpCauses_net (new : Nat) (s : State) : (setTpCauses new s).net = s.net :=
  same_of_blank (setTpCauses_frame (only [.wire, .detect, .tp]) rfl rfl rfl new s) .net rfl
@[simp] theorem setTpCauses_tow (new : Nat) (s : State) : (setTpCauses new s).tow = s.tow :=
  same_of_blank (setTpCauses_frame (only [.wire, .detect, .tp]) rfl rfl rfl new s) .tow rfl
@[simp] theorem setTpCauses_light (new : Nat) (s : State) : (setTpCauses new s).light = s.light :=
  same_of_blank (setTpCauses_frame (only [.wire, .detect, .tp]) rfl rfl rfl new s) .light rfl
@[simp] theorem setTpCauses_aps (new : Nat) (s : State) : (setTpCauses new s).aps = s.aps :=
  same_of_blank (setTpCauses_frame (only [.wire, .detect, .tp]) rfl rfl rfl new s) .aps rfl
@[simp] theorem setTpCauses_pwr (new : Nat) (s : State) : (setTpCauses new s).pwr = s.pwr :=
  same_of_blank (setTpCauses_frame (only [.wire, .detect, .tp]) rfl rfl rfl new s) .pwr rfl
@[simp] theorem setTpCauses_img (new : Nat) (s : State) : (setTpCauses new s).img = s.img :=
  same_of_blank (setTpCauses_frame (only [.wire, .detect, .tp]) rfl rfl rfl new s) .img rfl
@[simp] theorem setTpCauses_mem (new : Nat) (s : State) : (setTpCauses new s).mem = s.mem :=
  blank_mem (setTpCauses_frame (only [.wire, .detect, .tp]) rfl rfl rfl new s) rfl
@[simp] theorem setTpCauses_free (new : Nat) (s : State) : (setTpCauses new s).free = s.free :=
  same_of_blank (setTpCauses_frame (only [.wire, .detect, .tp]) rfl rfl rfl new s) .free rfl
@[simp] theorem setTpCauses_pending (new : Nat) (s : State) : (setTpCauses new s).pending = s.pending :=
  same_of_blank (setTpCauses_frame (only [.wire, .detect, .tp]) rfl rfl rfl new s) .pending rfl

@[simp] theorem tpSet_sys (k : Nat) (s : State) : (tpSet k s).sys = s.sys :=
  same_of_blank (tpSet_frame (only [.wire, .detect, .tp]) rfl rfl rfl k s) .sys rfl
@[simp] theorem tpSet_cyc (k : Nat) (s : State) : (tpSet k s).cyc = s.cyc :=
  blank_all_cyc (tpSet_frame (only [.wire, .detect, .tp]) rfl rfl rfl k s) rfl rfl
@[simp] theorem tpSet_tide (k : Nat) (s : State) : (tpSet k s).tide = s.tide :=
  same_of_blank (tpSet_frame (only [.wire, .detect, .tp]) rfl rfl rfl k s) .tide rfl
@[simp] theorem tpSet_fv_fv (k : Nat) (s : State) : (tpSet k s).fv.core = s.fv.core :=
  same_of_blank (tpSet_frame (only [.wire, .detect, .tp]) rfl rfl rfl k s) .fv rfl
@[simp] theorem tpSet_saf_safe (k : Nat) (s : State) : (tpSet k s).saf.safe = s.saf.safe :=
  same_of_blank (tpSet_frame (only [.wire, .detect, .tp]) rfl rfl rfl k s) .safe rfl
@[simp] theorem tpSet_saf_breach (k : Nat) (s : State) : (tpSet k s).saf.breaches = s.saf.breaches :=
  same_of_blank (tpSet_frame (only [.wire, .detect, .tp]) rfl rfl rfl k s) .breach rfl
@[simp] theorem tpSet_saf_pond (k : Nat) (s : State) : (tpSet k s).saf.pond = s.saf.pond :=
  same_of_blank (tpSet_frame (only [.wire, .detect, .tp]) rfl rfl rfl k s) .pond rfl
@[simp] theorem tpSet_pow (k : Nat) (s : State) : (tpSet k s).pow = s.pow :=
  same_of_blank (tpSet_frame (only [.wire, .detect, .tp]) rfl rfl rfl k s) .pow rfl
@[simp] theorem tpSet_slu (k : Nat) (s : State) : (tpSet k s).slu = s.slu :=
  same_of_blank (tpSet_frame (only [.wire, .detect, .tp]) rfl rfl rfl k s) .slu rfl
@[simp] theorem tpSet_mot (k : Nat) (s : State) : (tpSet k s).mot = s.mot :=
  same_of_blank (tpSet_frame (only [.wire, .detect, .tp]) rfl rfl rfl k s) .mot rfl
@[simp] theorem tpSet_fio (k : Nat) (s : State) : (tpSet k s).fio = s.fio :=
  same_of_blank (tpSet_frame (only [.wire, .detect, .tp]) rfl rfl rfl k s) .fio rfl
@[simp] theorem tpSet_can (k : Nat) (s : State) : (tpSet k s).can = s.can :=
  same_of_blank (tpSet_frame (only [.wire, .detect, .tp]) rfl rfl rfl k s) .can rfl
@[simp] theorem tpSet_lin (k : Nat) (s : State) : (tpSet k s).lin = s.lin :=
  same_of_blank (tpSet_frame (only [.wire, .detect, .tp]) rfl rfl rfl k s) .lin rfl
@[simp] theorem tpSet_nm (k : Nat) (s : State) : (tpSet k s).nm = s.nm :=
  same_of_blank (tpSet_frame (only [.wire, .detect, .tp]) rfl rfl rfl k s) .nm rfl
@[simp] theorem tpSet_aq (k : Nat) (s : State) : (tpSet k s).aq = s.aq :=
  same_of_blank (tpSet_frame (only [.wire, .detect, .tp]) rfl rfl rfl k s) .aq rfl
@[simp] theorem tpSet_net (k : Nat) (s : State) : (tpSet k s).net = s.net :=
  same_of_blank (tpSet_frame (only [.wire, .detect, .tp]) rfl rfl rfl k s) .net rfl
@[simp] theorem tpSet_tow (k : Nat) (s : State) : (tpSet k s).tow = s.tow :=
  same_of_blank (tpSet_frame (only [.wire, .detect, .tp]) rfl rfl rfl k s) .tow rfl
@[simp] theorem tpSet_light (k : Nat) (s : State) : (tpSet k s).light = s.light :=
  same_of_blank (tpSet_frame (only [.wire, .detect, .tp]) rfl rfl rfl k s) .light rfl
@[simp] theorem tpSet_aps (k : Nat) (s : State) : (tpSet k s).aps = s.aps :=
  same_of_blank (tpSet_frame (only [.wire, .detect, .tp]) rfl rfl rfl k s) .aps rfl
@[simp] theorem tpSet_pwr (k : Nat) (s : State) : (tpSet k s).pwr = s.pwr :=
  same_of_blank (tpSet_frame (only [.wire, .detect, .tp]) rfl rfl rfl k s) .pwr rfl
@[simp] theorem tpSet_img (k : Nat) (s : State) : (tpSet k s).img = s.img :=
  same_of_blank (tpSet_frame (only [.wire, .detect, .tp]) rfl rfl rfl k s) .img rfl
@[simp] theorem tpSet_mem (k : Nat) (s : State) : (tpSet k s).mem = s.mem :=
  blank_mem (tpSet_frame (only [.wire, .detect, .tp]) rfl rfl rfl k s) rfl
@[simp] theorem tpSet_free (k : Nat) (s : State) : (tpSet k s).free = s.free :=
  same_of_blank (tpSet_frame (only [.wire, .detect, .tp]) rfl rfl rfl k s) .free rfl
@[simp] theorem tpSet_pending (k : Nat) (s : State) : (tpSet k s).pending = s.pending :=
  same_of_blank (tpSet_frame (only [.wire, .detect, .tp]) rfl rfl rfl k s) .pending rfl

@[simp] theorem tpClear_sys (k : Nat) (s : State) : (tpClear k s).sys = s.sys :=
  same_of_blank (tpClear_frame (only [.wire, .detect, .tp]) rfl rfl rfl k s) .sys rfl
@[simp] theorem tpClear_cyc (k : Nat) (s : State) : (tpClear k s).cyc = s.cyc :=
  blank_all_cyc (tpClear_frame (only [.wire, .detect, .tp]) rfl rfl rfl k s) rfl rfl
@[simp] theorem tpClear_tide (k : Nat) (s : State) : (tpClear k s).tide = s.tide :=
  same_of_blank (tpClear_frame (only [.wire, .detect, .tp]) rfl rfl rfl k s) .tide rfl
@[simp] theorem tpClear_fv_fv (k : Nat) (s : State) : (tpClear k s).fv.core = s.fv.core :=
  same_of_blank (tpClear_frame (only [.wire, .detect, .tp]) rfl rfl rfl k s) .fv rfl
@[simp] theorem tpClear_saf_safe (k : Nat) (s : State) : (tpClear k s).saf.safe = s.saf.safe :=
  same_of_blank (tpClear_frame (only [.wire, .detect, .tp]) rfl rfl rfl k s) .safe rfl
@[simp] theorem tpClear_saf_breach (k : Nat) (s : State) : (tpClear k s).saf.breaches = s.saf.breaches :=
  same_of_blank (tpClear_frame (only [.wire, .detect, .tp]) rfl rfl rfl k s) .breach rfl
@[simp] theorem tpClear_saf_pond (k : Nat) (s : State) : (tpClear k s).saf.pond = s.saf.pond :=
  same_of_blank (tpClear_frame (only [.wire, .detect, .tp]) rfl rfl rfl k s) .pond rfl
@[simp] theorem tpClear_pow (k : Nat) (s : State) : (tpClear k s).pow = s.pow :=
  same_of_blank (tpClear_frame (only [.wire, .detect, .tp]) rfl rfl rfl k s) .pow rfl
@[simp] theorem tpClear_slu (k : Nat) (s : State) : (tpClear k s).slu = s.slu :=
  same_of_blank (tpClear_frame (only [.wire, .detect, .tp]) rfl rfl rfl k s) .slu rfl
@[simp] theorem tpClear_mot (k : Nat) (s : State) : (tpClear k s).mot = s.mot :=
  same_of_blank (tpClear_frame (only [.wire, .detect, .tp]) rfl rfl rfl k s) .mot rfl
@[simp] theorem tpClear_fio (k : Nat) (s : State) : (tpClear k s).fio = s.fio :=
  same_of_blank (tpClear_frame (only [.wire, .detect, .tp]) rfl rfl rfl k s) .fio rfl
@[simp] theorem tpClear_can (k : Nat) (s : State) : (tpClear k s).can = s.can :=
  same_of_blank (tpClear_frame (only [.wire, .detect, .tp]) rfl rfl rfl k s) .can rfl
@[simp] theorem tpClear_lin (k : Nat) (s : State) : (tpClear k s).lin = s.lin :=
  same_of_blank (tpClear_frame (only [.wire, .detect, .tp]) rfl rfl rfl k s) .lin rfl
@[simp] theorem tpClear_nm (k : Nat) (s : State) : (tpClear k s).nm = s.nm :=
  same_of_blank (tpClear_frame (only [.wire, .detect, .tp]) rfl rfl rfl k s) .nm rfl
@[simp] theorem tpClear_aq (k : Nat) (s : State) : (tpClear k s).aq = s.aq :=
  same_of_blank (tpClear_frame (only [.wire, .detect, .tp]) rfl rfl rfl k s) .aq rfl
@[simp] theorem tpClear_net (k : Nat) (s : State) : (tpClear k s).net = s.net :=
  same_of_blank (tpClear_frame (only [.wire, .detect, .tp]) rfl rfl rfl k s) .net rfl
@[simp] theorem tpClear_tow (k : Nat) (s : State) : (tpClear k s).tow = s.tow :=
  same_of_blank (tpClear_frame (only [.wire, .detect, .tp]) rfl rfl rfl k s) .tow rfl
@[simp] theorem tpClear_light (k : Nat) (s : State) : (tpClear k s).light = s.light :=
  same_of_blank (tpClear_frame (only [.wire, .detect, .tp]) rfl rfl rfl k s) .light rfl
@[simp] theorem tpClear_aps (k : Nat) (s : State) : (tpClear k s).aps = s.aps :=
  same_of_blank (tpClear_frame (only [.wire, .detect, .tp]) rfl rfl rfl k s) .aps rfl
@[simp] theorem tpClear_pwr (k : Nat) (s : State) : (tpClear k s).pwr = s.pwr :=
  same_of_blank (tpClear_frame (only [.wire, .detect, .tp]) rfl rfl rfl k s) .pwr rfl
@[simp] theorem tpClear_img (k : Nat) (s : State) : (tpClear k s).img = s.img :=
  same_of_blank (tpClear_frame (only [.wire, .detect, .tp]) rfl rfl rfl k s) .img rfl
@[simp] theorem tpClear_mem (k : Nat) (s : State) : (tpClear k s).mem = s.mem :=
  blank_mem (tpClear_frame (only [.wire, .detect, .tp]) rfl rfl rfl k s) rfl
@[simp] theorem tpClear_free (k : Nat) (s : State) : (tpClear k s).free = s.free :=
  same_of_blank (tpClear_frame (only [.wire, .detect, .tp]) rfl rfl rfl k s) .free rfl
@[simp] theorem tpClear_pending (k : Nat) (s : State) : (tpClear k s).pending = s.pending :=
  same_of_blank (tpClear_frame (only [.wire, .detect, .tp]) rfl rfl rfl k s) .pending rfl

@[simp] theorem wearLog_sys (kind unit what : Nat) (s : State) : (wearLog kind unit what s).sys = s.sys :=
  same_of_blank (wearLog_frame (only [.pond]) rfl kind unit what s) .sys rfl
@[simp] theorem wearLog_cyc (kind unit what : Nat) (s : State) : (wearLog kind unit what s).cyc = s.cyc :=
  blank_all_cyc (wearLog_frame (only [.pond]) rfl kind unit what s) rfl rfl
@[simp] theorem wearLog_tide (kind unit what : Nat) (s : State) : (wearLog kind unit what s).tide = s.tide :=
  same_of_blank (wearLog_frame (only [.pond]) rfl kind unit what s) .tide rfl
@[simp] theorem wearLog_fv (kind unit what : Nat) (s : State) : (wearLog kind unit what s).fv = s.fv :=
  blank_all_fv (wearLog_frame (only [.pond]) rfl kind unit what s) rfl rfl
@[simp] theorem wearLog_saf_safe (kind unit what : Nat) (s : State) : (wearLog kind unit what s).saf.safe = s.saf.safe :=
  same_of_blank (wearLog_frame (only [.pond]) rfl kind unit what s) .safe rfl
@[simp] theorem wearLog_saf_detect (kind unit what : Nat) (s : State) : (wearLog kind unit what s).saf.detect = s.saf.detect :=
  same_of_blank (wearLog_frame (only [.pond]) rfl kind unit what s) .detect rfl
@[simp] theorem wearLog_saf_breach (kind unit what : Nat) (s : State) : (wearLog kind unit what s).saf.breaches = s.saf.breaches :=
  same_of_blank (wearLog_frame (only [.pond]) rfl kind unit what s) .breach rfl
@[simp] theorem wearLog_tp (kind unit what : Nat) (s : State) : (wearLog kind unit what s).tp = s.tp :=
  same_of_blank (wearLog_frame (only [.pond]) rfl kind unit what s) .tp rfl
@[simp] theorem wearLog_pow (kind unit what : Nat) (s : State) : (wearLog kind unit what s).pow = s.pow :=
  same_of_blank (wearLog_frame (only [.pond]) rfl kind unit what s) .pow rfl
@[simp] theorem wearLog_slu (kind unit what : Nat) (s : State) : (wearLog kind unit what s).slu = s.slu :=
  same_of_blank (wearLog_frame (only [.pond]) rfl kind unit what s) .slu rfl
@[simp] theorem wearLog_mot (kind unit what : Nat) (s : State) : (wearLog kind unit what s).mot = s.mot :=
  same_of_blank (wearLog_frame (only [.pond]) rfl kind unit what s) .mot rfl
@[simp] theorem wearLog_fio (kind unit what : Nat) (s : State) : (wearLog kind unit what s).fio = s.fio :=
  same_of_blank (wearLog_frame (only [.pond]) rfl kind unit what s) .fio rfl
@[simp] theorem wearLog_can (kind unit what : Nat) (s : State) : (wearLog kind unit what s).can = s.can :=
  same_of_blank (wearLog_frame (only [.pond]) rfl kind unit what s) .can rfl
@[simp] theorem wearLog_lin (kind unit what : Nat) (s : State) : (wearLog kind unit what s).lin = s.lin :=
  same_of_blank (wearLog_frame (only [.pond]) rfl kind unit what s) .lin rfl
@[simp] theorem wearLog_nm (kind unit what : Nat) (s : State) : (wearLog kind unit what s).nm = s.nm :=
  same_of_blank (wearLog_frame (only [.pond]) rfl kind unit what s) .nm rfl
@[simp] theorem wearLog_aq (kind unit what : Nat) (s : State) : (wearLog kind unit what s).aq = s.aq :=
  same_of_blank (wearLog_frame (only [.pond]) rfl kind unit what s) .aq rfl
@[simp] theorem wearLog_net (kind unit what : Nat) (s : State) : (wearLog kind unit what s).net = s.net :=
  same_of_blank (wearLog_frame (only [.pond]) rfl kind unit what s) .net rfl
@[simp] theorem wearLog_tow (kind unit what : Nat) (s : State) : (wearLog kind unit what s).tow = s.tow :=
  same_of_blank (wearLog_frame (only [.pond]) rfl kind unit what s) .tow rfl
@[simp] theorem wearLog_light (kind unit what : Nat) (s : State) : (wearLog kind unit what s).light = s.light :=
  same_of_blank (wearLog_frame (only [.pond]) rfl kind unit what s) .light rfl
@[simp] theorem wearLog_aps (kind unit what : Nat) (s : State) : (wearLog kind unit what s).aps = s.aps :=
  same_of_blank (wearLog_frame (only [.pond]) rfl kind unit what s) .aps rfl
@[simp] theorem wearLog_pwr (kind unit what : Nat) (s : State) : (wearLog kind unit what s).pwr = s.pwr :=
  same_of_blank (wearLog_frame (only [.pond]) rfl kind unit what s) .pwr rfl
@[simp] theorem wearLog_img (kind unit what : Nat) (s : State) : (wearLog kind unit what s).img = s.img :=
  same_of_blank (wearLog_frame (only [.pond]) rfl kind unit what s) .img rfl
@[simp] theorem wearLog_mem (kind unit what : Nat) (s : State) : (wearLog kind unit what s).mem = s.mem :=
  blank_mem (wearLog_frame (only [.pond]) rfl kind unit what s) rfl
@[simp] theorem wearLog_free (kind unit what : Nat) (s : State) : (wearLog kind unit what s).free = s.free :=
  same_of_blank (wearLog_frame (only [.pond]) rfl kind unit what s) .free rfl
@[simp] theorem wearLog_pending (kind unit what : Nat) (s : State) : (wearLog kind unit what s).pending = s.pending :=
  same_of_blank (wearLog_frame (only [.pond]) rfl kind unit what s) .pending rfl

@[simp] theorem pondWear_sys (kind unit : Nat) (fig : Int) (empty : Bool) (s : State) : (pondWear kind unit fig empty s).sys = s.sys :=
  same_of_blank (pondWear_frame (only [.wire]) rfl kind unit fig empty s) .sys rfl
@[simp] theorem pondWear_cyc (kind unit : Nat) (fig : Int) (empty : Bool) (s : State) : (pondWear kind unit fig empty s).cyc = s.cyc :=
  blank_all_cyc (pondWear_frame (only [.wire]) rfl kind unit fig empty s) rfl rfl
@[simp] theorem pondWear_tide (kind unit : Nat) (fig : Int) (empty : Bool) (s : State) : (pondWear kind unit fig empty s).tide = s.tide :=
  same_of_blank (pondWear_frame (only [.wire]) rfl kind unit fig empty s) .tide rfl
@[simp] theorem pondWear_fv_fv (kind unit : Nat) (fig : Int) (empty : Bool) (s : State) : (pondWear kind unit fig empty s).fv.core = s.fv.core :=
  same_of_blank (pondWear_frame (only [.wire]) rfl kind unit fig empty s) .fv rfl
@[simp] theorem pondWear_saf (kind unit : Nat) (fig : Int) (empty : Bool) (s : State) : (pondWear kind unit fig empty s).saf = s.saf :=
  blank_all_saf (pondWear_frame (only [.wire]) rfl kind unit fig empty s) rfl rfl rfl rfl
@[simp] theorem pondWear_tp (kind unit : Nat) (fig : Int) (empty : Bool) (s : State) : (pondWear kind unit fig empty s).tp = s.tp :=
  same_of_blank (pondWear_frame (only [.wire]) rfl kind unit fig empty s) .tp rfl
@[simp] theorem pondWear_pow (kind unit : Nat) (fig : Int) (empty : Bool) (s : State) : (pondWear kind unit fig empty s).pow = s.pow :=
  same_of_blank (pondWear_frame (only [.wire]) rfl kind unit fig empty s) .pow rfl
@[simp] theorem pondWear_slu (kind unit : Nat) (fig : Int) (empty : Bool) (s : State) : (pondWear kind unit fig empty s).slu = s.slu :=
  same_of_blank (pondWear_frame (only [.wire]) rfl kind unit fig empty s) .slu rfl
@[simp] theorem pondWear_mot (kind unit : Nat) (fig : Int) (empty : Bool) (s : State) : (pondWear kind unit fig empty s).mot = s.mot :=
  same_of_blank (pondWear_frame (only [.wire]) rfl kind unit fig empty s) .mot rfl
@[simp] theorem pondWear_fio (kind unit : Nat) (fig : Int) (empty : Bool) (s : State) : (pondWear kind unit fig empty s).fio = s.fio :=
  same_of_blank (pondWear_frame (only [.wire]) rfl kind unit fig empty s) .fio rfl
@[simp] theorem pondWear_can (kind unit : Nat) (fig : Int) (empty : Bool) (s : State) : (pondWear kind unit fig empty s).can = s.can :=
  same_of_blank (pondWear_frame (only [.wire]) rfl kind unit fig empty s) .can rfl
@[simp] theorem pondWear_lin (kind unit : Nat) (fig : Int) (empty : Bool) (s : State) : (pondWear kind unit fig empty s).lin = s.lin :=
  same_of_blank (pondWear_frame (only [.wire]) rfl kind unit fig empty s) .lin rfl
@[simp] theorem pondWear_nm (kind unit : Nat) (fig : Int) (empty : Bool) (s : State) : (pondWear kind unit fig empty s).nm = s.nm :=
  same_of_blank (pondWear_frame (only [.wire]) rfl kind unit fig empty s) .nm rfl
@[simp] theorem pondWear_aq (kind unit : Nat) (fig : Int) (empty : Bool) (s : State) : (pondWear kind unit fig empty s).aq = s.aq :=
  same_of_blank (pondWear_frame (only [.wire]) rfl kind unit fig empty s) .aq rfl
@[simp] theorem pondWear_net (kind unit : Nat) (fig : Int) (empty : Bool) (s : State) : (pondWear kind unit fig empty s).net = s.net :=
  same_of_blank (pondWear_frame (only [.wire]) rfl kind unit fig empty s) .net rfl
@[simp] theorem pondWear_tow (kind unit : Nat) (fig : Int) (empty : Bool) (s : State) : (pondWear kind unit fig empty s).tow = s.tow :=
  same_of_blank (pondWear_frame (only [.wire]) rfl kind unit fig empty s) .tow rfl
@[simp] theorem pondWear_light (kind unit : Nat) (fig : Int) (empty : Bool) (s : State) : (pondWear kind unit fig empty s).light = s.light :=
  same_of_blank (pondWear_frame (only [.wire]) rfl kind unit fig empty s) .light rfl
@[simp] theorem pondWear_aps (kind unit : Nat) (fig : Int) (empty : Bool) (s : State) : (pondWear kind unit fig empty s).aps = s.aps :=
  same_of_blank (pondWear_frame (only [.wire]) rfl kind unit fig empty s) .aps rfl
@[simp] theorem pondWear_pwr (kind unit : Nat) (fig : Int) (empty : Bool) (s : State) : (pondWear kind unit fig empty s).pwr = s.pwr :=
  same_of_blank (pondWear_frame (only [.wire]) rfl kind unit fig empty s) .pwr rfl
@[simp] theorem pondWear_img (kind unit : Nat) (fig : Int) (empty : Bool) (s : State) : (pondWear kind unit fig empty s).img = s.img :=
  same_of_blank (pondWear_frame (only [.wire]) rfl kind unit fig empty s) .img rfl
@[simp] theorem pondWear_mem (kind unit : Nat) (fig : Int) (empty : Bool) (s : State) : (pondWear kind unit fig empty s).mem = s.mem :=
  blank_mem (pondWear_frame (only [.wire]) rfl kind unit fig empty s) rfl
@[simp] theorem pondWear_free (kind unit : Nat) (fig : Int) (empty : Bool) (s : State) : (pondWear kind unit fig empty s).free = s.free :=
  same_of_blank (pondWear_frame (only [.wire]) rfl kind unit fig empty s) .free rfl
@[simp] theorem pondWear_pending (kind unit : Nat) (fig : Int) (empty : Bool) (s : State) : (pondWear kind unit fig empty s).pending = s.pending :=
  same_of_blank (pondWear_frame (only [.wire]) rfl kind unit fig empty s) .pending rfl

@[simp] theorem pondIn_sys (kind unit : Nat) (fig : Int) (s : State) : (pondIn kind unit fig s).sys = s.sys :=
  same_of_blank (pondIn_frame (only [.wire, .pond]) rfl rfl kind unit fig s) .sys rfl
@[simp] theorem pondIn_cyc (kind unit : Nat) (fig : Int) (s : State) : (pondIn kind unit fig s).cyc = s.cyc :=
  blank_all_cyc (pondIn_frame (only [.wire, .pond]) rfl rfl kind unit fig s) rfl rfl
@[simp] theorem pondIn_tide (kind unit : Nat) (fig : Int) (s : State) : (pondIn kind unit fig s).tide = s.tide :=
  same_of_blank (pondIn_frame (only [.wire, .pond]) rfl rfl kind unit fig s) .tide rfl
@[simp] theorem pondIn_fv_fv (kind unit : Nat) (fig : Int) (s : State) : (pondIn kind unit fig s).fv.core = s.fv.core :=
  same_of_blank (pondIn_frame (only [.wire, .pond]) rfl rfl kind unit fig s) .fv rfl
@[simp] theorem pondIn_saf_safe (kind unit : Nat) (fig : Int) (s : State) : (pondIn kind unit fig s).saf.safe = s.saf.safe :=
  same_of_blank (pondIn_frame (only [.wire, .pond]) rfl rfl kind unit fig s) .safe rfl
@[simp] theorem pondIn_saf_detect (kind unit : Nat) (fig : Int) (s : State) : (pondIn kind unit fig s).saf.detect = s.saf.detect :=
  same_of_blank (pondIn_frame (only [.wire, .pond]) rfl rfl kind unit fig s) .detect rfl
@[simp] theorem pondIn_saf_breach (kind unit : Nat) (fig : Int) (s : State) : (pondIn kind unit fig s).saf.breaches = s.saf.breaches :=
  same_of_blank (pondIn_frame (only [.wire, .pond]) rfl rfl kind unit fig s) .breach rfl
@[simp] theorem pondIn_tp (kind unit : Nat) (fig : Int) (s : State) : (pondIn kind unit fig s).tp = s.tp :=
  same_of_blank (pondIn_frame (only [.wire, .pond]) rfl rfl kind unit fig s) .tp rfl
@[simp] theorem pondIn_pow (kind unit : Nat) (fig : Int) (s : State) : (pondIn kind unit fig s).pow = s.pow :=
  same_of_blank (pondIn_frame (only [.wire, .pond]) rfl rfl kind unit fig s) .pow rfl
@[simp] theorem pondIn_slu (kind unit : Nat) (fig : Int) (s : State) : (pondIn kind unit fig s).slu = s.slu :=
  same_of_blank (pondIn_frame (only [.wire, .pond]) rfl rfl kind unit fig s) .slu rfl
@[simp] theorem pondIn_mot (kind unit : Nat) (fig : Int) (s : State) : (pondIn kind unit fig s).mot = s.mot :=
  same_of_blank (pondIn_frame (only [.wire, .pond]) rfl rfl kind unit fig s) .mot rfl
@[simp] theorem pondIn_fio (kind unit : Nat) (fig : Int) (s : State) : (pondIn kind unit fig s).fio = s.fio :=
  same_of_blank (pondIn_frame (only [.wire, .pond]) rfl rfl kind unit fig s) .fio rfl
@[simp] theorem pondIn_can (kind unit : Nat) (fig : Int) (s : State) : (pondIn kind unit fig s).can = s.can :=
  same_of_blank (pondIn_frame (only [.wire, .pond]) rfl rfl kind unit fig s) .can rfl
@[simp] theorem pondIn_lin (kind unit : Nat) (fig : Int) (s : State) : (pondIn kind unit fig s).lin = s.lin :=
  same_of_blank (pondIn_frame (only [.wire, .pond]) rfl rfl kind unit fig s) .lin rfl
@[simp] theorem pondIn_nm (kind unit : Nat) (fig : Int) (s : State) : (pondIn kind unit fig s).nm = s.nm :=
  same_of_blank (pondIn_frame (only [.wire, .pond]) rfl rfl kind unit fig s) .nm rfl
@[simp] theorem pondIn_aq (kind unit : Nat) (fig : Int) (s : State) : (pondIn kind unit fig s).aq = s.aq :=
  same_of_blank (pondIn_frame (only [.wire, .pond]) rfl rfl kind unit fig s) .aq rfl
@[simp] theorem pondIn_net (kind unit : Nat) (fig : Int) (s : State) : (pondIn kind unit fig s).net = s.net :=
  same_of_blank (pondIn_frame (only [.wire, .pond]) rfl rfl kind unit fig s) .net rfl
@[simp] theorem pondIn_tow (kind unit : Nat) (fig : Int) (s : State) : (pondIn kind unit fig s).tow = s.tow :=
  same_of_blank (pondIn_frame (only [.wire, .pond]) rfl rfl kind unit fig s) .tow rfl
@[simp] theorem pondIn_light (kind unit : Nat) (fig : Int) (s : State) : (pondIn kind unit fig s).light = s.light :=
  same_of_blank (pondIn_frame (only [.wire, .pond]) rfl rfl kind unit fig s) .light rfl
@[simp] theorem pondIn_aps (kind unit : Nat) (fig : Int) (s : State) : (pondIn kind unit fig s).aps = s.aps :=
  same_of_blank (pondIn_frame (only [.wire, .pond]) rfl rfl kind unit fig s) .aps rfl
@[simp] theorem pondIn_pwr (kind unit : Nat) (fig : Int) (s : State) : (pondIn kind unit fig s).pwr = s.pwr :=
  same_of_blank (pondIn_frame (only [.wire, .pond]) rfl rfl kind unit fig s) .pwr rfl
@[simp] theorem pondIn_img (kind unit : Nat) (fig : Int) (s : State) : (pondIn kind unit fig s).img = s.img :=
  same_of_blank (pondIn_frame (only [.wire, .pond]) rfl rfl kind unit fig s) .img rfl
@[simp] theorem pondIn_mem (kind unit : Nat) (fig : Int) (s : State) : (pondIn kind unit fig s).mem = s.mem :=
  blank_mem (pondIn_frame (only [.wire, .pond]) rfl rfl kind unit fig s) rfl
@[simp] theorem pondIn_free (kind unit : Nat) (fig : Int) (s : State) : (pondIn kind unit fig s).free = s.free :=
  same_of_blank (pondIn_frame (only [.wire, .pond]) rfl rfl kind unit fig s) .free rfl
@[simp] theorem pondIn_pending (kind unit : Nat) (fig : Int) (s : State) : (pondIn kind unit fig s).pending = s.pending :=
  same_of_blank (pondIn_frame (only [.wire, .pond]) rfl rfl kind unit fig s) .pending rfl

@[simp] theorem keeperSend_sys (port : Option Nat) (f : EthFrame) (s : State) : (keeperSend port f s).sys = s.sys :=
  same_of_blank (keeperSend_frame (only [.net]) rfl port f s) .sys rfl
@[simp] theorem keeperSend_cyc (port : Option Nat) (f : EthFrame) (s : State) : (keeperSend port f s).cyc = s.cyc :=
  blank_all_cyc (keeperSend_frame (only [.net]) rfl port f s) rfl rfl
@[simp] theorem keeperSend_tide (port : Option Nat) (f : EthFrame) (s : State) : (keeperSend port f s).tide = s.tide :=
  same_of_blank (keeperSend_frame (only [.net]) rfl port f s) .tide rfl
@[simp] theorem keeperSend_fv (port : Option Nat) (f : EthFrame) (s : State) : (keeperSend port f s).fv = s.fv :=
  blank_all_fv (keeperSend_frame (only [.net]) rfl port f s) rfl rfl
@[simp] theorem keeperSend_saf (port : Option Nat) (f : EthFrame) (s : State) : (keeperSend port f s).saf = s.saf :=
  blank_all_saf (keeperSend_frame (only [.net]) rfl port f s) rfl rfl rfl rfl
@[simp] theorem keeperSend_tp (port : Option Nat) (f : EthFrame) (s : State) : (keeperSend port f s).tp = s.tp :=
  same_of_blank (keeperSend_frame (only [.net]) rfl port f s) .tp rfl
@[simp] theorem keeperSend_pow (port : Option Nat) (f : EthFrame) (s : State) : (keeperSend port f s).pow = s.pow :=
  same_of_blank (keeperSend_frame (only [.net]) rfl port f s) .pow rfl
@[simp] theorem keeperSend_slu (port : Option Nat) (f : EthFrame) (s : State) : (keeperSend port f s).slu = s.slu :=
  same_of_blank (keeperSend_frame (only [.net]) rfl port f s) .slu rfl
@[simp] theorem keeperSend_mot (port : Option Nat) (f : EthFrame) (s : State) : (keeperSend port f s).mot = s.mot :=
  same_of_blank (keeperSend_frame (only [.net]) rfl port f s) .mot rfl
@[simp] theorem keeperSend_fio (port : Option Nat) (f : EthFrame) (s : State) : (keeperSend port f s).fio = s.fio :=
  same_of_blank (keeperSend_frame (only [.net]) rfl port f s) .fio rfl
@[simp] theorem keeperSend_can (port : Option Nat) (f : EthFrame) (s : State) : (keeperSend port f s).can = s.can :=
  same_of_blank (keeperSend_frame (only [.net]) rfl port f s) .can rfl
@[simp] theorem keeperSend_lin (port : Option Nat) (f : EthFrame) (s : State) : (keeperSend port f s).lin = s.lin :=
  same_of_blank (keeperSend_frame (only [.net]) rfl port f s) .lin rfl
@[simp] theorem keeperSend_nm (port : Option Nat) (f : EthFrame) (s : State) : (keeperSend port f s).nm = s.nm :=
  same_of_blank (keeperSend_frame (only [.net]) rfl port f s) .nm rfl
@[simp] theorem keeperSend_aq (port : Option Nat) (f : EthFrame) (s : State) : (keeperSend port f s).aq = s.aq :=
  same_of_blank (keeperSend_frame (only [.net]) rfl port f s) .aq rfl
@[simp] theorem keeperSend_tow (port : Option Nat) (f : EthFrame) (s : State) : (keeperSend port f s).tow = s.tow :=
  same_of_blank (keeperSend_frame (only [.net]) rfl port f s) .tow rfl
@[simp] theorem keeperSend_light (port : Option Nat) (f : EthFrame) (s : State) : (keeperSend port f s).light = s.light :=
  same_of_blank (keeperSend_frame (only [.net]) rfl port f s) .light rfl
@[simp] theorem keeperSend_aps (port : Option Nat) (f : EthFrame) (s : State) : (keeperSend port f s).aps = s.aps :=
  same_of_blank (keeperSend_frame (only [.net]) rfl port f s) .aps rfl
@[simp] theorem keeperSend_pwr (port : Option Nat) (f : EthFrame) (s : State) : (keeperSend port f s).pwr = s.pwr :=
  same_of_blank (keeperSend_frame (only [.net]) rfl port f s) .pwr rfl
@[simp] theorem keeperSend_img (port : Option Nat) (f : EthFrame) (s : State) : (keeperSend port f s).img = s.img :=
  same_of_blank (keeperSend_frame (only [.net]) rfl port f s) .img rfl
@[simp] theorem keeperSend_mem (port : Option Nat) (f : EthFrame) (s : State) : (keeperSend port f s).mem = s.mem :=
  blank_mem (keeperSend_frame (only [.net]) rfl port f s) rfl
@[simp] theorem keeperSend_free (port : Option Nat) (f : EthFrame) (s : State) : (keeperSend port f s).free = s.free :=
  same_of_blank (keeperSend_frame (only [.net]) rfl port f s) .free rfl
@[simp] theorem keeperSend_pending (port : Option Nat) (f : EthFrame) (s : State) : (keeperSend port f s).pending = s.pending :=
  same_of_blank (keeperSend_frame (only [.net]) rfl port f s) .pending rfl

@[simp] theorem toBasin_sys (x : NetFrame) (s : State) : (toBasin x s).sys = s.sys :=
  same_of_blank (toBasin_frame (only [.net]) rfl x s) .sys rfl
@[simp] theorem toBasin_cyc (x : NetFrame) (s : State) : (toBasin x s).cyc = s.cyc :=
  blank_all_cyc (toBasin_frame (only [.net]) rfl x s) rfl rfl
@[simp] theorem toBasin_tide (x : NetFrame) (s : State) : (toBasin x s).tide = s.tide :=
  same_of_blank (toBasin_frame (only [.net]) rfl x s) .tide rfl
@[simp] theorem toBasin_fv (x : NetFrame) (s : State) : (toBasin x s).fv = s.fv :=
  blank_all_fv (toBasin_frame (only [.net]) rfl x s) rfl rfl
@[simp] theorem toBasin_saf (x : NetFrame) (s : State) : (toBasin x s).saf = s.saf :=
  blank_all_saf (toBasin_frame (only [.net]) rfl x s) rfl rfl rfl rfl
@[simp] theorem toBasin_tp (x : NetFrame) (s : State) : (toBasin x s).tp = s.tp :=
  same_of_blank (toBasin_frame (only [.net]) rfl x s) .tp rfl
@[simp] theorem toBasin_pow (x : NetFrame) (s : State) : (toBasin x s).pow = s.pow :=
  same_of_blank (toBasin_frame (only [.net]) rfl x s) .pow rfl
@[simp] theorem toBasin_slu (x : NetFrame) (s : State) : (toBasin x s).slu = s.slu :=
  same_of_blank (toBasin_frame (only [.net]) rfl x s) .slu rfl
@[simp] theorem toBasin_mot (x : NetFrame) (s : State) : (toBasin x s).mot = s.mot :=
  same_of_blank (toBasin_frame (only [.net]) rfl x s) .mot rfl
@[simp] theorem toBasin_fio (x : NetFrame) (s : State) : (toBasin x s).fio = s.fio :=
  same_of_blank (toBasin_frame (only [.net]) rfl x s) .fio rfl
@[simp] theorem toBasin_can (x : NetFrame) (s : State) : (toBasin x s).can = s.can :=
  same_of_blank (toBasin_frame (only [.net]) rfl x s) .can rfl
@[simp] theorem toBasin_lin (x : NetFrame) (s : State) : (toBasin x s).lin = s.lin :=
  same_of_blank (toBasin_frame (only [.net]) rfl x s) .lin rfl
@[simp] theorem toBasin_nm (x : NetFrame) (s : State) : (toBasin x s).nm = s.nm :=
  same_of_blank (toBasin_frame (only [.net]) rfl x s) .nm rfl
@[simp] theorem toBasin_aq (x : NetFrame) (s : State) : (toBasin x s).aq = s.aq :=
  same_of_blank (toBasin_frame (only [.net]) rfl x s) .aq rfl
@[simp] theorem toBasin_tow (x : NetFrame) (s : State) : (toBasin x s).tow = s.tow :=
  same_of_blank (toBasin_frame (only [.net]) rfl x s) .tow rfl
@[simp] theorem toBasin_light (x : NetFrame) (s : State) : (toBasin x s).light = s.light :=
  same_of_blank (toBasin_frame (only [.net]) rfl x s) .light rfl
@[simp] theorem toBasin_aps (x : NetFrame) (s : State) : (toBasin x s).aps = s.aps :=
  same_of_blank (toBasin_frame (only [.net]) rfl x s) .aps rfl
@[simp] theorem toBasin_pwr (x : NetFrame) (s : State) : (toBasin x s).pwr = s.pwr :=
  same_of_blank (toBasin_frame (only [.net]) rfl x s) .pwr rfl
@[simp] theorem toBasin_img (x : NetFrame) (s : State) : (toBasin x s).img = s.img :=
  same_of_blank (toBasin_frame (only [.net]) rfl x s) .img rfl
@[simp] theorem toBasin_mem (x : NetFrame) (s : State) : (toBasin x s).mem = s.mem :=
  blank_mem (toBasin_frame (only [.net]) rfl x s) rfl
@[simp] theorem toBasin_free (x : NetFrame) (s : State) : (toBasin x s).free = s.free :=
  same_of_blank (toBasin_frame (only [.net]) rfl x s) .free rfl
@[simp] theorem toBasin_pending (x : NetFrame) (s : State) : (toBasin x s).pending = s.pending :=
  same_of_blank (toBasin_frame (only [.net]) rfl x s) .pending rfl

@[simp] theorem countPort_sys (p k n : Nat) (s : State) : (countPort p k n s).sys = s.sys :=
  same_of_blank (countPort_frame (only [.wire, .net]) rfl rfl p k n s) .sys rfl
@[simp] theorem countPort_cyc (p k n : Nat) (s : State) : (countPort p k n s).cyc = s.cyc :=
  blank_all_cyc (countPort_frame (only [.wire, .net]) rfl rfl p k n s) rfl rfl
@[simp] theorem countPort_tide (p k n : Nat) (s : State) : (countPort p k n s).tide = s.tide :=
  same_of_blank (countPort_frame (only [.wire, .net]) rfl rfl p k n s) .tide rfl
@[simp] theorem countPort_fv_fv (p k n : Nat) (s : State) : (countPort p k n s).fv.core = s.fv.core :=
  same_of_blank (countPort_frame (only [.wire, .net]) rfl rfl p k n s) .fv rfl
@[simp] theorem countPort_saf (p k n : Nat) (s : State) : (countPort p k n s).saf = s.saf :=
  blank_all_saf (countPort_frame (only [.wire, .net]) rfl rfl p k n s) rfl rfl rfl rfl
@[simp] theorem countPort_tp (p k n : Nat) (s : State) : (countPort p k n s).tp = s.tp :=
  same_of_blank (countPort_frame (only [.wire, .net]) rfl rfl p k n s) .tp rfl
@[simp] theorem countPort_pow (p k n : Nat) (s : State) : (countPort p k n s).pow = s.pow :=
  same_of_blank (countPort_frame (only [.wire, .net]) rfl rfl p k n s) .pow rfl
@[simp] theorem countPort_slu (p k n : Nat) (s : State) : (countPort p k n s).slu = s.slu :=
  same_of_blank (countPort_frame (only [.wire, .net]) rfl rfl p k n s) .slu rfl
@[simp] theorem countPort_mot (p k n : Nat) (s : State) : (countPort p k n s).mot = s.mot :=
  same_of_blank (countPort_frame (only [.wire, .net]) rfl rfl p k n s) .mot rfl
@[simp] theorem countPort_fio (p k n : Nat) (s : State) : (countPort p k n s).fio = s.fio :=
  same_of_blank (countPort_frame (only [.wire, .net]) rfl rfl p k n s) .fio rfl
@[simp] theorem countPort_can (p k n : Nat) (s : State) : (countPort p k n s).can = s.can :=
  same_of_blank (countPort_frame (only [.wire, .net]) rfl rfl p k n s) .can rfl
@[simp] theorem countPort_lin (p k n : Nat) (s : State) : (countPort p k n s).lin = s.lin :=
  same_of_blank (countPort_frame (only [.wire, .net]) rfl rfl p k n s) .lin rfl
@[simp] theorem countPort_nm (p k n : Nat) (s : State) : (countPort p k n s).nm = s.nm :=
  same_of_blank (countPort_frame (only [.wire, .net]) rfl rfl p k n s) .nm rfl
@[simp] theorem countPort_aq (p k n : Nat) (s : State) : (countPort p k n s).aq = s.aq :=
  same_of_blank (countPort_frame (only [.wire, .net]) rfl rfl p k n s) .aq rfl
@[simp] theorem countPort_tow (p k n : Nat) (s : State) : (countPort p k n s).tow = s.tow :=
  same_of_blank (countPort_frame (only [.wire, .net]) rfl rfl p k n s) .tow rfl
@[simp] theorem countPort_light (p k n : Nat) (s : State) : (countPort p k n s).light = s.light :=
  same_of_blank (countPort_frame (only [.wire, .net]) rfl rfl p k n s) .light rfl
@[simp] theorem countPort_aps (p k n : Nat) (s : State) : (countPort p k n s).aps = s.aps :=
  same_of_blank (countPort_frame (only [.wire, .net]) rfl rfl p k n s) .aps rfl
@[simp] theorem countPort_pwr (p k n : Nat) (s : State) : (countPort p k n s).pwr = s.pwr :=
  same_of_blank (countPort_frame (only [.wire, .net]) rfl rfl p k n s) .pwr rfl
@[simp] theorem countPort_img (p k n : Nat) (s : State) : (countPort p k n s).img = s.img :=
  same_of_blank (countPort_frame (only [.wire, .net]) rfl rfl p k n s) .img rfl
@[simp] theorem countPort_mem (p k n : Nat) (s : State) : (countPort p k n s).mem = s.mem :=
  blank_mem (countPort_frame (only [.wire, .net]) rfl rfl p k n s) rfl
@[simp] theorem countPort_free (p k n : Nat) (s : State) : (countPort p k n s).free = s.free :=
  same_of_blank (countPort_frame (only [.wire, .net]) rfl rfl p k n s) .free rfl
@[simp] theorem countPort_pending (p k n : Nat) (s : State) : (countPort p k n s).pending = s.pending :=
  same_of_blank (countPort_frame (only [.wire, .net]) rfl rfl p k n s) .pending rfl

@[simp] theorem countTow_sys (x k n : Nat) (s : State) : (countTow x k n s).sys = s.sys :=
  same_of_blank (countTow_frame (only [.wire, .tow]) rfl rfl x k n s) .sys rfl
@[simp] theorem countTow_cyc (x k n : Nat) (s : State) : (countTow x k n s).cyc = s.cyc :=
  blank_all_cyc (countTow_frame (only [.wire, .tow]) rfl rfl x k n s) rfl rfl
@[simp] theorem countTow_tide (x k n : Nat) (s : State) : (countTow x k n s).tide = s.tide :=
  same_of_blank (countTow_frame (only [.wire, .tow]) rfl rfl x k n s) .tide rfl
@[simp] theorem countTow_fv_fv (x k n : Nat) (s : State) : (countTow x k n s).fv.core = s.fv.core :=
  same_of_blank (countTow_frame (only [.wire, .tow]) rfl rfl x k n s) .fv rfl
@[simp] theorem countTow_saf (x k n : Nat) (s : State) : (countTow x k n s).saf = s.saf :=
  blank_all_saf (countTow_frame (only [.wire, .tow]) rfl rfl x k n s) rfl rfl rfl rfl
@[simp] theorem countTow_tp (x k n : Nat) (s : State) : (countTow x k n s).tp = s.tp :=
  same_of_blank (countTow_frame (only [.wire, .tow]) rfl rfl x k n s) .tp rfl
@[simp] theorem countTow_pow (x k n : Nat) (s : State) : (countTow x k n s).pow = s.pow :=
  same_of_blank (countTow_frame (only [.wire, .tow]) rfl rfl x k n s) .pow rfl
@[simp] theorem countTow_slu (x k n : Nat) (s : State) : (countTow x k n s).slu = s.slu :=
  same_of_blank (countTow_frame (only [.wire, .tow]) rfl rfl x k n s) .slu rfl
@[simp] theorem countTow_mot (x k n : Nat) (s : State) : (countTow x k n s).mot = s.mot :=
  same_of_blank (countTow_frame (only [.wire, .tow]) rfl rfl x k n s) .mot rfl
@[simp] theorem countTow_fio (x k n : Nat) (s : State) : (countTow x k n s).fio = s.fio :=
  same_of_blank (countTow_frame (only [.wire, .tow]) rfl rfl x k n s) .fio rfl
@[simp] theorem countTow_can (x k n : Nat) (s : State) : (countTow x k n s).can = s.can :=
  same_of_blank (countTow_frame (only [.wire, .tow]) rfl rfl x k n s) .can rfl
@[simp] theorem countTow_lin (x k n : Nat) (s : State) : (countTow x k n s).lin = s.lin :=
  same_of_blank (countTow_frame (only [.wire, .tow]) rfl rfl x k n s) .lin rfl
@[simp] theorem countTow_nm (x k n : Nat) (s : State) : (countTow x k n s).nm = s.nm :=
  same_of_blank (countTow_frame (only [.wire, .tow]) rfl rfl x k n s) .nm rfl
@[simp] theorem countTow_aq (x k n : Nat) (s : State) : (countTow x k n s).aq = s.aq :=
  same_of_blank (countTow_frame (only [.wire, .tow]) rfl rfl x k n s) .aq rfl
@[simp] theorem countTow_net (x k n : Nat) (s : State) : (countTow x k n s).net = s.net :=
  same_of_blank (countTow_frame (only [.wire, .tow]) rfl rfl x k n s) .net rfl
@[simp] theorem countTow_light (x k n : Nat) (s : State) : (countTow x k n s).light = s.light :=
  same_of_blank (countTow_frame (only [.wire, .tow]) rfl rfl x k n s) .light rfl
@[simp] theorem countTow_aps (x k n : Nat) (s : State) : (countTow x k n s).aps = s.aps :=
  same_of_blank (countTow_frame (only [.wire, .tow]) rfl rfl x k n s) .aps rfl
@[simp] theorem countTow_pwr (x k n : Nat) (s : State) : (countTow x k n s).pwr = s.pwr :=
  same_of_blank (countTow_frame (only [.wire, .tow]) rfl rfl x k n s) .pwr rfl
@[simp] theorem countTow_img (x k n : Nat) (s : State) : (countTow x k n s).img = s.img :=
  same_of_blank (countTow_frame (only [.wire, .tow]) rfl rfl x k n s) .img rfl
@[simp] theorem countTow_mem (x k n : Nat) (s : State) : (countTow x k n s).mem = s.mem :=
  blank_mem (countTow_frame (only [.wire, .tow]) rfl rfl x k n s) rfl
@[simp] theorem countTow_free (x k n : Nat) (s : State) : (countTow x k n s).free = s.free :=
  same_of_blank (countTow_frame (only [.wire, .tow]) rfl rfl x k n s) .free rfl
@[simp] theorem countTow_pending (x k n : Nat) (s : State) : (countTow x k n s).pending = s.pending :=
  same_of_blank (countTow_frame (only [.wire, .tow]) rfl rfl x k n s) .pending rfl

@[simp] theorem winError_sys (e code ring : Nat) (s : State) : (winError e code ring s).sys = s.sys :=
  same_of_blank (winError_frame (only [.wire]) rfl e code ring s) .sys rfl
@[simp] theorem winError_cyc (e code ring : Nat) (s : State) : (winError e code ring s).cyc = s.cyc :=
  blank_all_cyc (winError_frame (only [.wire]) rfl e code ring s) rfl rfl
@[simp] theorem winError_tide (e code ring : Nat) (s : State) : (winError e code ring s).tide = s.tide :=
  same_of_blank (winError_frame (only [.wire]) rfl e code ring s) .tide rfl
@[simp] theorem winError_fv_fv (e code ring : Nat) (s : State) : (winError e code ring s).fv.core = s.fv.core :=
  same_of_blank (winError_frame (only [.wire]) rfl e code ring s) .fv rfl
@[simp] theorem winError_saf (e code ring : Nat) (s : State) : (winError e code ring s).saf = s.saf :=
  blank_all_saf (winError_frame (only [.wire]) rfl e code ring s) rfl rfl rfl rfl
@[simp] theorem winError_tp (e code ring : Nat) (s : State) : (winError e code ring s).tp = s.tp :=
  same_of_blank (winError_frame (only [.wire]) rfl e code ring s) .tp rfl
@[simp] theorem winError_pow (e code ring : Nat) (s : State) : (winError e code ring s).pow = s.pow :=
  same_of_blank (winError_frame (only [.wire]) rfl e code ring s) .pow rfl
@[simp] theorem winError_slu (e code ring : Nat) (s : State) : (winError e code ring s).slu = s.slu :=
  same_of_blank (winError_frame (only [.wire]) rfl e code ring s) .slu rfl
@[simp] theorem winError_mot (e code ring : Nat) (s : State) : (winError e code ring s).mot = s.mot :=
  same_of_blank (winError_frame (only [.wire]) rfl e code ring s) .mot rfl
@[simp] theorem winError_fio (e code ring : Nat) (s : State) : (winError e code ring s).fio = s.fio :=
  same_of_blank (winError_frame (only [.wire]) rfl e code ring s) .fio rfl
@[simp] theorem winError_can (e code ring : Nat) (s : State) : (winError e code ring s).can = s.can :=
  same_of_blank (winError_frame (only [.wire]) rfl e code ring s) .can rfl
@[simp] theorem winError_lin (e code ring : Nat) (s : State) : (winError e code ring s).lin = s.lin :=
  same_of_blank (winError_frame (only [.wire]) rfl e code ring s) .lin rfl
@[simp] theorem winError_nm (e code ring : Nat) (s : State) : (winError e code ring s).nm = s.nm :=
  same_of_blank (winError_frame (only [.wire]) rfl e code ring s) .nm rfl
@[simp] theorem winError_aq (e code ring : Nat) (s : State) : (winError e code ring s).aq = s.aq :=
  same_of_blank (winError_frame (only [.wire]) rfl e code ring s) .aq rfl
@[simp] theorem winError_net (e code ring : Nat) (s : State) : (winError e code ring s).net = s.net :=
  same_of_blank (winError_frame (only [.wire]) rfl e code ring s) .net rfl
@[simp] theorem winError_tow (e code ring : Nat) (s : State) : (winError e code ring s).tow = s.tow :=
  same_of_blank (winError_frame (only [.wire]) rfl e code ring s) .tow rfl
@[simp] theorem winError_light (e code ring : Nat) (s : State) : (winError e code ring s).light = s.light :=
  same_of_blank (winError_frame (only [.wire]) rfl e code ring s) .light rfl
@[simp] theorem winError_aps (e code ring : Nat) (s : State) : (winError e code ring s).aps = s.aps :=
  same_of_blank (winError_frame (only [.wire]) rfl e code ring s) .aps rfl
@[simp] theorem winError_pwr (e code ring : Nat) (s : State) : (winError e code ring s).pwr = s.pwr :=
  same_of_blank (winError_frame (only [.wire]) rfl e code ring s) .pwr rfl
@[simp] theorem winError_img (e code ring : Nat) (s : State) : (winError e code ring s).img = s.img :=
  same_of_blank (winError_frame (only [.wire]) rfl e code ring s) .img rfl
@[simp] theorem winError_mem (e code ring : Nat) (s : State) : (winError e code ring s).mem = s.mem :=
  blank_mem (winError_frame (only [.wire]) rfl e code ring s) rfl
@[simp] theorem winError_free (e code ring : Nat) (s : State) : (winError e code ring s).free = s.free :=
  same_of_blank (winError_frame (only [.wire]) rfl e code ring s) .free rfl
@[simp] theorem winError_pending (e code ring : Nat) (s : State) : (winError e code ring s).pending = s.pending :=
  same_of_blank (winError_frame (only [.wire]) rfl e code ring s) .pending rfl

@[simp] theorem mbxError_sys (p code ring : Nat) (s : State) : (mbxError p code ring s).sys = s.sys :=
  same_of_blank (mbxError_frame (only [.wire]) rfl p code ring s) .sys rfl
@[simp] theorem mbxError_cyc (p code ring : Nat) (s : State) : (mbxError p code ring s).cyc = s.cyc :=
  blank_all_cyc (mbxError_frame (only [.wire]) rfl p code ring s) rfl rfl
@[simp] theorem mbxError_tide (p code ring : Nat) (s : State) : (mbxError p code ring s).tide = s.tide :=
  same_of_blank (mbxError_frame (only [.wire]) rfl p code ring s) .tide rfl
@[simp] theorem mbxError_fv_fv (p code ring : Nat) (s : State) : (mbxError p code ring s).fv.core = s.fv.core :=
  same_of_blank (mbxError_frame (only [.wire]) rfl p code ring s) .fv rfl
@[simp] theorem mbxError_saf (p code ring : Nat) (s : State) : (mbxError p code ring s).saf = s.saf :=
  blank_all_saf (mbxError_frame (only [.wire]) rfl p code ring s) rfl rfl rfl rfl
@[simp] theorem mbxError_tp (p code ring : Nat) (s : State) : (mbxError p code ring s).tp = s.tp :=
  same_of_blank (mbxError_frame (only [.wire]) rfl p code ring s) .tp rfl
@[simp] theorem mbxError_pow (p code ring : Nat) (s : State) : (mbxError p code ring s).pow = s.pow :=
  same_of_blank (mbxError_frame (only [.wire]) rfl p code ring s) .pow rfl
@[simp] theorem mbxError_slu (p code ring : Nat) (s : State) : (mbxError p code ring s).slu = s.slu :=
  same_of_blank (mbxError_frame (only [.wire]) rfl p code ring s) .slu rfl
@[simp] theorem mbxError_mot (p code ring : Nat) (s : State) : (mbxError p code ring s).mot = s.mot :=
  same_of_blank (mbxError_frame (only [.wire]) rfl p code ring s) .mot rfl
@[simp] theorem mbxError_fio (p code ring : Nat) (s : State) : (mbxError p code ring s).fio = s.fio :=
  same_of_blank (mbxError_frame (only [.wire]) rfl p code ring s) .fio rfl
@[simp] theorem mbxError_can (p code ring : Nat) (s : State) : (mbxError p code ring s).can = s.can :=
  same_of_blank (mbxError_frame (only [.wire]) rfl p code ring s) .can rfl
@[simp] theorem mbxError_lin (p code ring : Nat) (s : State) : (mbxError p code ring s).lin = s.lin :=
  same_of_blank (mbxError_frame (only [.wire]) rfl p code ring s) .lin rfl
@[simp] theorem mbxError_nm (p code ring : Nat) (s : State) : (mbxError p code ring s).nm = s.nm :=
  same_of_blank (mbxError_frame (only [.wire]) rfl p code ring s) .nm rfl
@[simp] theorem mbxError_aq (p code ring : Nat) (s : State) : (mbxError p code ring s).aq = s.aq :=
  same_of_blank (mbxError_frame (only [.wire]) rfl p code ring s) .aq rfl
@[simp] theorem mbxError_net (p code ring : Nat) (s : State) : (mbxError p code ring s).net = s.net :=
  same_of_blank (mbxError_frame (only [.wire]) rfl p code ring s) .net rfl
@[simp] theorem mbxError_tow (p code ring : Nat) (s : State) : (mbxError p code ring s).tow = s.tow :=
  same_of_blank (mbxError_frame (only [.wire]) rfl p code ring s) .tow rfl
@[simp] theorem mbxError_light (p code ring : Nat) (s : State) : (mbxError p code ring s).light = s.light :=
  same_of_blank (mbxError_frame (only [.wire]) rfl p code ring s) .light rfl
@[simp] theorem mbxError_aps (p code ring : Nat) (s : State) : (mbxError p code ring s).aps = s.aps :=
  same_of_blank (mbxError_frame (only [.wire]) rfl p code ring s) .aps rfl
@[simp] theorem mbxError_pwr (p code ring : Nat) (s : State) : (mbxError p code ring s).pwr = s.pwr :=
  same_of_blank (mbxError_frame (only [.wire]) rfl p code ring s) .pwr rfl
@[simp] theorem mbxError_img (p code ring : Nat) (s : State) : (mbxError p code ring s).img = s.img :=
  same_of_blank (mbxError_frame (only [.wire]) rfl p code ring s) .img rfl
@[simp] theorem mbxError_mem (p code ring : Nat) (s : State) : (mbxError p code ring s).mem = s.mem :=
  blank_mem (mbxError_frame (only [.wire]) rfl p code ring s) rfl
@[simp] theorem mbxError_free (p code ring : Nat) (s : State) : (mbxError p code ring s).free = s.free :=
  same_of_blank (mbxError_frame (only [.wire]) rfl p code ring s) .free rfl
@[simp] theorem mbxError_pending (p code ring : Nat) (s : State) : (mbxError p code ring s).pending = s.pending :=
  same_of_blank (mbxError_frame (only [.wire]) rfl p code ring s) .pending rfl

@[simp] theorem answer_sys (cls verb : Nat) (r : Req) (st : Status) (eff : Option Nat) (pl : List Byte) (s : State) : (answer cls verb r st eff pl s).sys = s.sys :=
  same_of_blank (answer_frame (only [.wire]) rfl cls verb r st eff pl s) .sys rfl
@[simp] theorem answer_cyc (cls verb : Nat) (r : Req) (st : Status) (eff : Option Nat) (pl : List Byte) (s : State) : (answer cls verb r st eff pl s).cyc = s.cyc :=
  blank_all_cyc (answer_frame (only [.wire]) rfl cls verb r st eff pl s) rfl rfl
@[simp] theorem answer_tide (cls verb : Nat) (r : Req) (st : Status) (eff : Option Nat) (pl : List Byte) (s : State) : (answer cls verb r st eff pl s).tide = s.tide :=
  same_of_blank (answer_frame (only [.wire]) rfl cls verb r st eff pl s) .tide rfl
@[simp] theorem answer_fv_fv (cls verb : Nat) (r : Req) (st : Status) (eff : Option Nat) (pl : List Byte) (s : State) : (answer cls verb r st eff pl s).fv.core = s.fv.core :=
  same_of_blank (answer_frame (only [.wire]) rfl cls verb r st eff pl s) .fv rfl
@[simp] theorem answer_saf (cls verb : Nat) (r : Req) (st : Status) (eff : Option Nat) (pl : List Byte) (s : State) : (answer cls verb r st eff pl s).saf = s.saf :=
  blank_all_saf (answer_frame (only [.wire]) rfl cls verb r st eff pl s) rfl rfl rfl rfl
@[simp] theorem answer_tp (cls verb : Nat) (r : Req) (st : Status) (eff : Option Nat) (pl : List Byte) (s : State) : (answer cls verb r st eff pl s).tp = s.tp :=
  same_of_blank (answer_frame (only [.wire]) rfl cls verb r st eff pl s) .tp rfl
@[simp] theorem answer_pow (cls verb : Nat) (r : Req) (st : Status) (eff : Option Nat) (pl : List Byte) (s : State) : (answer cls verb r st eff pl s).pow = s.pow :=
  same_of_blank (answer_frame (only [.wire]) rfl cls verb r st eff pl s) .pow rfl
@[simp] theorem answer_slu (cls verb : Nat) (r : Req) (st : Status) (eff : Option Nat) (pl : List Byte) (s : State) : (answer cls verb r st eff pl s).slu = s.slu :=
  same_of_blank (answer_frame (only [.wire]) rfl cls verb r st eff pl s) .slu rfl
@[simp] theorem answer_mot (cls verb : Nat) (r : Req) (st : Status) (eff : Option Nat) (pl : List Byte) (s : State) : (answer cls verb r st eff pl s).mot = s.mot :=
  same_of_blank (answer_frame (only [.wire]) rfl cls verb r st eff pl s) .mot rfl
@[simp] theorem answer_fio (cls verb : Nat) (r : Req) (st : Status) (eff : Option Nat) (pl : List Byte) (s : State) : (answer cls verb r st eff pl s).fio = s.fio :=
  same_of_blank (answer_frame (only [.wire]) rfl cls verb r st eff pl s) .fio rfl
@[simp] theorem answer_can (cls verb : Nat) (r : Req) (st : Status) (eff : Option Nat) (pl : List Byte) (s : State) : (answer cls verb r st eff pl s).can = s.can :=
  same_of_blank (answer_frame (only [.wire]) rfl cls verb r st eff pl s) .can rfl
@[simp] theorem answer_lin (cls verb : Nat) (r : Req) (st : Status) (eff : Option Nat) (pl : List Byte) (s : State) : (answer cls verb r st eff pl s).lin = s.lin :=
  same_of_blank (answer_frame (only [.wire]) rfl cls verb r st eff pl s) .lin rfl
@[simp] theorem answer_nm (cls verb : Nat) (r : Req) (st : Status) (eff : Option Nat) (pl : List Byte) (s : State) : (answer cls verb r st eff pl s).nm = s.nm :=
  same_of_blank (answer_frame (only [.wire]) rfl cls verb r st eff pl s) .nm rfl
@[simp] theorem answer_aq (cls verb : Nat) (r : Req) (st : Status) (eff : Option Nat) (pl : List Byte) (s : State) : (answer cls verb r st eff pl s).aq = s.aq :=
  same_of_blank (answer_frame (only [.wire]) rfl cls verb r st eff pl s) .aq rfl
@[simp] theorem answer_net (cls verb : Nat) (r : Req) (st : Status) (eff : Option Nat) (pl : List Byte) (s : State) : (answer cls verb r st eff pl s).net = s.net :=
  same_of_blank (answer_frame (only [.wire]) rfl cls verb r st eff pl s) .net rfl
@[simp] theorem answer_tow (cls verb : Nat) (r : Req) (st : Status) (eff : Option Nat) (pl : List Byte) (s : State) : (answer cls verb r st eff pl s).tow = s.tow :=
  same_of_blank (answer_frame (only [.wire]) rfl cls verb r st eff pl s) .tow rfl
@[simp] theorem answer_light (cls verb : Nat) (r : Req) (st : Status) (eff : Option Nat) (pl : List Byte) (s : State) : (answer cls verb r st eff pl s).light = s.light :=
  same_of_blank (answer_frame (only [.wire]) rfl cls verb r st eff pl s) .light rfl
@[simp] theorem answer_aps (cls verb : Nat) (r : Req) (st : Status) (eff : Option Nat) (pl : List Byte) (s : State) : (answer cls verb r st eff pl s).aps = s.aps :=
  same_of_blank (answer_frame (only [.wire]) rfl cls verb r st eff pl s) .aps rfl
@[simp] theorem answer_pwr (cls verb : Nat) (r : Req) (st : Status) (eff : Option Nat) (pl : List Byte) (s : State) : (answer cls verb r st eff pl s).pwr = s.pwr :=
  same_of_blank (answer_frame (only [.wire]) rfl cls verb r st eff pl s) .pwr rfl
@[simp] theorem answer_img (cls verb : Nat) (r : Req) (st : Status) (eff : Option Nat) (pl : List Byte) (s : State) : (answer cls verb r st eff pl s).img = s.img :=
  same_of_blank (answer_frame (only [.wire]) rfl cls verb r st eff pl s) .img rfl
@[simp] theorem answer_mem (cls verb : Nat) (r : Req) (st : Status) (eff : Option Nat) (pl : List Byte) (s : State) : (answer cls verb r st eff pl s).mem = s.mem :=
  blank_mem (answer_frame (only [.wire]) rfl cls verb r st eff pl s) rfl
@[simp] theorem answer_free (cls verb : Nat) (r : Req) (st : Status) (eff : Option Nat) (pl : List Byte) (s : State) : (answer cls verb r st eff pl s).free = s.free :=
  same_of_blank (answer_frame (only [.wire]) rfl cls verb r st eff pl s) .free rfl
@[simp] theorem answer_pending (cls verb : Nat) (r : Req) (st : Status) (eff : Option Nat) (pl : List Byte) (s : State) : (answer cls verb r st eff pl s).pending = s.pending :=
  same_of_blank (answer_frame (only [.wire]) rfl cls verb r st eff pl s) .pending rfl

@[simp] theorem accepted_sys (p : Nat) (s : State) : (accepted p s).sys = s.sys :=
  same_of_blank (accepted_frame (only [.wire, .detect, .tp, .nm]) rfl rfl rfl rfl p s) .sys rfl
@[simp] theorem accepted_cyc (p : Nat) (s : State) : (accepted p s).cyc = s.cyc :=
  blank_all_cyc (accepted_frame (only [.wire, .detect, .tp, .nm]) rfl rfl rfl rfl p s) rfl rfl
@[simp] theorem accepted_tide (p : Nat) (s : State) : (accepted p s).tide = s.tide :=
  same_of_blank (accepted_frame (only [.wire, .detect, .tp, .nm]) rfl rfl rfl rfl p s) .tide rfl
@[simp] theorem accepted_fv_fv (p : Nat) (s : State) : (accepted p s).fv.core = s.fv.core :=
  same_of_blank (accepted_frame (only [.wire, .detect, .tp, .nm]) rfl rfl rfl rfl p s) .fv rfl
@[simp] theorem accepted_saf_safe (p : Nat) (s : State) : (accepted p s).saf.safe = s.saf.safe :=
  same_of_blank (accepted_frame (only [.wire, .detect, .tp, .nm]) rfl rfl rfl rfl p s) .safe rfl
@[simp] theorem accepted_saf_breach (p : Nat) (s : State) : (accepted p s).saf.breaches = s.saf.breaches :=
  same_of_blank (accepted_frame (only [.wire, .detect, .tp, .nm]) rfl rfl rfl rfl p s) .breach rfl
@[simp] theorem accepted_saf_pond (p : Nat) (s : State) : (accepted p s).saf.pond = s.saf.pond :=
  same_of_blank (accepted_frame (only [.wire, .detect, .tp, .nm]) rfl rfl rfl rfl p s) .pond rfl
@[simp] theorem accepted_pow (p : Nat) (s : State) : (accepted p s).pow = s.pow :=
  same_of_blank (accepted_frame (only [.wire, .detect, .tp, .nm]) rfl rfl rfl rfl p s) .pow rfl
@[simp] theorem accepted_slu (p : Nat) (s : State) : (accepted p s).slu = s.slu :=
  same_of_blank (accepted_frame (only [.wire, .detect, .tp, .nm]) rfl rfl rfl rfl p s) .slu rfl
@[simp] theorem accepted_mot (p : Nat) (s : State) : (accepted p s).mot = s.mot :=
  same_of_blank (accepted_frame (only [.wire, .detect, .tp, .nm]) rfl rfl rfl rfl p s) .mot rfl
@[simp] theorem accepted_fio (p : Nat) (s : State) : (accepted p s).fio = s.fio :=
  same_of_blank (accepted_frame (only [.wire, .detect, .tp, .nm]) rfl rfl rfl rfl p s) .fio rfl
@[simp] theorem accepted_can (p : Nat) (s : State) : (accepted p s).can = s.can :=
  same_of_blank (accepted_frame (only [.wire, .detect, .tp, .nm]) rfl rfl rfl rfl p s) .can rfl
@[simp] theorem accepted_lin (p : Nat) (s : State) : (accepted p s).lin = s.lin :=
  same_of_blank (accepted_frame (only [.wire, .detect, .tp, .nm]) rfl rfl rfl rfl p s) .lin rfl
@[simp] theorem accepted_aq (p : Nat) (s : State) : (accepted p s).aq = s.aq :=
  same_of_blank (accepted_frame (only [.wire, .detect, .tp, .nm]) rfl rfl rfl rfl p s) .aq rfl
@[simp] theorem accepted_net (p : Nat) (s : State) : (accepted p s).net = s.net :=
  same_of_blank (accepted_frame (only [.wire, .detect, .tp, .nm]) rfl rfl rfl rfl p s) .net rfl
@[simp] theorem accepted_tow (p : Nat) (s : State) : (accepted p s).tow = s.tow :=
  same_of_blank (accepted_frame (only [.wire, .detect, .tp, .nm]) rfl rfl rfl rfl p s) .tow rfl
@[simp] theorem accepted_light (p : Nat) (s : State) : (accepted p s).light = s.light :=
  same_of_blank (accepted_frame (only [.wire, .detect, .tp, .nm]) rfl rfl rfl rfl p s) .light rfl
@[simp] theorem accepted_aps (p : Nat) (s : State) : (accepted p s).aps = s.aps :=
  same_of_blank (accepted_frame (only [.wire, .detect, .tp, .nm]) rfl rfl rfl rfl p s) .aps rfl
@[simp] theorem accepted_pwr (p : Nat) (s : State) : (accepted p s).pwr = s.pwr :=
  same_of_blank (accepted_frame (only [.wire, .detect, .tp, .nm]) rfl rfl rfl rfl p s) .pwr rfl
@[simp] theorem accepted_img (p : Nat) (s : State) : (accepted p s).img = s.img :=
  same_of_blank (accepted_frame (only [.wire, .detect, .tp, .nm]) rfl rfl rfl rfl p s) .img rfl
@[simp] theorem accepted_mem (p : Nat) (s : State) : (accepted p s).mem = s.mem :=
  blank_mem (accepted_frame (only [.wire, .detect, .tp, .nm]) rfl rfl rfl rfl p s) rfl
@[simp] theorem accepted_free (p : Nat) (s : State) : (accepted p s).free = s.free :=
  same_of_blank (accepted_frame (only [.wire, .detect, .tp, .nm]) rfl rfl rfl rfl p s) .free rfl
@[simp] theorem accepted_pending (p : Nat) (s : State) : (accepted p s).pending = s.pending :=
  same_of_blank (accepted_frame (only [.wire, .detect, .tp, .nm]) rfl rfl rfl rfl p s) .pending rfl

@[simp] theorem received_sys (p : Nat) (s : State) : (received p s).sys = s.sys :=
  same_of_blank (received_frame (only [.wire]) rfl p s) .sys rfl
@[simp] theorem received_cyc (p : Nat) (s : State) : (received p s).cyc = s.cyc :=
  blank_all_cyc (received_frame (only [.wire]) rfl p s) rfl rfl
@[simp] theorem received_tide (p : Nat) (s : State) : (received p s).tide = s.tide :=
  same_of_blank (received_frame (only [.wire]) rfl p s) .tide rfl
@[simp] theorem received_fv_fv (p : Nat) (s : State) : (received p s).fv.core = s.fv.core :=
  same_of_blank (received_frame (only [.wire]) rfl p s) .fv rfl
@[simp] theorem received_saf (p : Nat) (s : State) : (received p s).saf = s.saf :=
  blank_all_saf (received_frame (only [.wire]) rfl p s) rfl rfl rfl rfl
@[simp] theorem received_tp (p : Nat) (s : State) : (received p s).tp = s.tp :=
  same_of_blank (received_frame (only [.wire]) rfl p s) .tp rfl
@[simp] theorem received_pow (p : Nat) (s : State) : (received p s).pow = s.pow :=
  same_of_blank (received_frame (only [.wire]) rfl p s) .pow rfl
@[simp] theorem received_slu (p : Nat) (s : State) : (received p s).slu = s.slu :=
  same_of_blank (received_frame (only [.wire]) rfl p s) .slu rfl
@[simp] theorem received_mot (p : Nat) (s : State) : (received p s).mot = s.mot :=
  same_of_blank (received_frame (only [.wire]) rfl p s) .mot rfl
@[simp] theorem received_fio (p : Nat) (s : State) : (received p s).fio = s.fio :=
  same_of_blank (received_frame (only [.wire]) rfl p s) .fio rfl
@[simp] theorem received_can (p : Nat) (s : State) : (received p s).can = s.can :=
  same_of_blank (received_frame (only [.wire]) rfl p s) .can rfl
@[simp] theorem received_lin (p : Nat) (s : State) : (received p s).lin = s.lin :=
  same_of_blank (received_frame (only [.wire]) rfl p s) .lin rfl
@[simp] theorem received_nm (p : Nat) (s : State) : (received p s).nm = s.nm :=
  same_of_blank (received_frame (only [.wire]) rfl p s) .nm rfl
@[simp] theorem received_aq (p : Nat) (s : State) : (received p s).aq = s.aq :=
  same_of_blank (received_frame (only [.wire]) rfl p s) .aq rfl
@[simp] theorem received_net (p : Nat) (s : State) : (received p s).net = s.net :=
  same_of_blank (received_frame (only [.wire]) rfl p s) .net rfl
@[simp] theorem received_tow (p : Nat) (s : State) : (received p s).tow = s.tow :=
  same_of_blank (received_frame (only [.wire]) rfl p s) .tow rfl
@[simp] theorem received_light (p : Nat) (s : State) : (received p s).light = s.light :=
  same_of_blank (received_frame (only [.wire]) rfl p s) .light rfl
@[simp] theorem received_aps (p : Nat) (s : State) : (received p s).aps = s.aps :=
  same_of_blank (received_frame (only [.wire]) rfl p s) .aps rfl
@[simp] theorem received_pwr (p : Nat) (s : State) : (received p s).pwr = s.pwr :=
  same_of_blank (received_frame (only [.wire]) rfl p s) .pwr rfl
@[simp] theorem received_img (p : Nat) (s : State) : (received p s).img = s.img :=
  same_of_blank (received_frame (only [.wire]) rfl p s) .img rfl
@[simp] theorem received_mem (p : Nat) (s : State) : (received p s).mem = s.mem :=
  blank_mem (received_frame (only [.wire]) rfl p s) rfl
@[simp] theorem received_free (p : Nat) (s : State) : (received p s).free = s.free :=
  same_of_blank (received_frame (only [.wire]) rfl p s) .free rfl
@[simp] theorem received_pending (p : Nat) (s : State) : (received p s).pending = s.pending :=
  same_of_blank (received_frame (only [.wire]) rfl p s) .pending rfl

@[simp] theorem stage_sys (cls : Nat) (r : Req) (op : StagedOp) (s : State) : (stage cls r op s).sys = s.sys :=
  same_of_blank (stage_frame (only [.staged]) rfl cls r op s) .sys rfl
@[simp] theorem stage_tide (cls : Nat) (r : Req) (op : StagedOp) (s : State) : (stage cls r op s).tide = s.tide :=
  same_of_blank (stage_frame (only [.staged]) rfl cls r op s) .tide rfl
@[simp] theorem stage_fv (cls : Nat) (r : Req) (op : StagedOp) (s : State) : (stage cls r op s).fv = s.fv :=
  blank_all_fv (stage_frame (only [.staged]) rfl cls r op s) rfl rfl
@[simp] theorem stage_saf (cls : Nat) (r : Req) (op : StagedOp) (s : State) : (stage cls r op s).saf = s.saf :=
  blank_all_saf (stage_frame (only [.staged]) rfl cls r op s) rfl rfl rfl rfl
@[simp] theorem stage_tp (cls : Nat) (r : Req) (op : StagedOp) (s : State) : (stage cls r op s).tp = s.tp :=
  same_of_blank (stage_frame (only [.staged]) rfl cls r op s) .tp rfl
@[simp] theorem stage_pow (cls : Nat) (r : Req) (op : StagedOp) (s : State) : (stage cls r op s).pow = s.pow :=
  same_of_blank (stage_frame (only [.staged]) rfl cls r op s) .pow rfl
@[simp] theorem stage_slu (cls : Nat) (r : Req) (op : StagedOp) (s : State) : (stage cls r op s).slu = s.slu :=
  same_of_blank (stage_frame (only [.staged]) rfl cls r op s) .slu rfl
@[simp] theorem stage_mot (cls : Nat) (r : Req) (op : StagedOp) (s : State) : (stage cls r op s).mot = s.mot :=
  same_of_blank (stage_frame (only [.staged]) rfl cls r op s) .mot rfl
@[simp] theorem stage_fio (cls : Nat) (r : Req) (op : StagedOp) (s : State) : (stage cls r op s).fio = s.fio :=
  same_of_blank (stage_frame (only [.staged]) rfl cls r op s) .fio rfl
@[simp] theorem stage_can (cls : Nat) (r : Req) (op : StagedOp) (s : State) : (stage cls r op s).can = s.can :=
  same_of_blank (stage_frame (only [.staged]) rfl cls r op s) .can rfl
@[simp] theorem stage_lin (cls : Nat) (r : Req) (op : StagedOp) (s : State) : (stage cls r op s).lin = s.lin :=
  same_of_blank (stage_frame (only [.staged]) rfl cls r op s) .lin rfl
@[simp] theorem stage_nm (cls : Nat) (r : Req) (op : StagedOp) (s : State) : (stage cls r op s).nm = s.nm :=
  same_of_blank (stage_frame (only [.staged]) rfl cls r op s) .nm rfl
@[simp] theorem stage_aq (cls : Nat) (r : Req) (op : StagedOp) (s : State) : (stage cls r op s).aq = s.aq :=
  same_of_blank (stage_frame (only [.staged]) rfl cls r op s) .aq rfl
@[simp] theorem stage_net (cls : Nat) (r : Req) (op : StagedOp) (s : State) : (stage cls r op s).net = s.net :=
  same_of_blank (stage_frame (only [.staged]) rfl cls r op s) .net rfl
@[simp] theorem stage_tow (cls : Nat) (r : Req) (op : StagedOp) (s : State) : (stage cls r op s).tow = s.tow :=
  same_of_blank (stage_frame (only [.staged]) rfl cls r op s) .tow rfl
@[simp] theorem stage_light (cls : Nat) (r : Req) (op : StagedOp) (s : State) : (stage cls r op s).light = s.light :=
  same_of_blank (stage_frame (only [.staged]) rfl cls r op s) .light rfl
@[simp] theorem stage_aps (cls : Nat) (r : Req) (op : StagedOp) (s : State) : (stage cls r op s).aps = s.aps :=
  same_of_blank (stage_frame (only [.staged]) rfl cls r op s) .aps rfl
@[simp] theorem stage_pwr (cls : Nat) (r : Req) (op : StagedOp) (s : State) : (stage cls r op s).pwr = s.pwr :=
  same_of_blank (stage_frame (only [.staged]) rfl cls r op s) .pwr rfl
@[simp] theorem stage_img (cls : Nat) (r : Req) (op : StagedOp) (s : State) : (stage cls r op s).img = s.img :=
  same_of_blank (stage_frame (only [.staged]) rfl cls r op s) .img rfl
@[simp] theorem stage_mem (cls : Nat) (r : Req) (op : StagedOp) (s : State) : (stage cls r op s).mem = s.mem :=
  blank_mem (stage_frame (only [.staged]) rfl cls r op s) rfl
@[simp] theorem stage_free (cls : Nat) (r : Req) (op : StagedOp) (s : State) : (stage cls r op s).free = s.free :=
  same_of_blank (stage_frame (only [.staged]) rfl cls r op s) .free rfl
@[simp] theorem stage_pending (cls : Nat) (r : Req) (op : StagedOp) (s : State) : (stage cls r op s).pending = s.pending :=
  same_of_blank (stage_frame (only [.staged]) rfl cls r op s) .pending rfl

@[simp] theorem centralHeard_sys (p : Nat) (s : State) : (centralHeard p s).sys = s.sys :=
  same_of_blank (centralHeard_frame (only [.wire, .detect, .tp, .nm]) rfl rfl rfl rfl p s) .sys rfl
@[simp] theorem centralHeard_cyc (p : Nat) (s : State) : (centralHeard p s).cyc = s.cyc :=
  blank_all_cyc (centralHeard_frame (only [.wire, .detect, .tp, .nm]) rfl rfl rfl rfl p s) rfl rfl
@[simp] theorem centralHeard_tide (p : Nat) (s : State) : (centralHeard p s).tide = s.tide :=
  same_of_blank (centralHeard_frame (only [.wire, .detect, .tp, .nm]) rfl rfl rfl rfl p s) .tide rfl
@[simp] theorem centralHeard_fv_fv (p : Nat) (s : State) : (centralHeard p s).fv.core = s.fv.core :=
  same_of_blank (centralHeard_frame (only [.wire, .detect, .tp, .nm]) rfl rfl rfl rfl p s) .fv rfl
@[simp] theorem centralHeard_saf_safe (p : Nat) (s : State) : (centralHeard p s).saf.safe = s.saf.safe :=
  same_of_blank (centralHeard_frame (only [.wire, .detect, .tp, .nm]) rfl rfl rfl rfl p s) .safe rfl
@[simp] theorem centralHeard_saf_breach (p : Nat) (s : State) : (centralHeard p s).saf.breaches = s.saf.breaches :=
  same_of_blank (centralHeard_frame (only [.wire, .detect, .tp, .nm]) rfl rfl rfl rfl p s) .breach rfl
@[simp] theorem centralHeard_saf_pond (p : Nat) (s : State) : (centralHeard p s).saf.pond = s.saf.pond :=
  same_of_blank (centralHeard_frame (only [.wire, .detect, .tp, .nm]) rfl rfl rfl rfl p s) .pond rfl
@[simp] theorem centralHeard_pow (p : Nat) (s : State) : (centralHeard p s).pow = s.pow :=
  same_of_blank (centralHeard_frame (only [.wire, .detect, .tp, .nm]) rfl rfl rfl rfl p s) .pow rfl
@[simp] theorem centralHeard_slu (p : Nat) (s : State) : (centralHeard p s).slu = s.slu :=
  same_of_blank (centralHeard_frame (only [.wire, .detect, .tp, .nm]) rfl rfl rfl rfl p s) .slu rfl
@[simp] theorem centralHeard_mot (p : Nat) (s : State) : (centralHeard p s).mot = s.mot :=
  same_of_blank (centralHeard_frame (only [.wire, .detect, .tp, .nm]) rfl rfl rfl rfl p s) .mot rfl
@[simp] theorem centralHeard_fio (p : Nat) (s : State) : (centralHeard p s).fio = s.fio :=
  same_of_blank (centralHeard_frame (only [.wire, .detect, .tp, .nm]) rfl rfl rfl rfl p s) .fio rfl
@[simp] theorem centralHeard_can (p : Nat) (s : State) : (centralHeard p s).can = s.can :=
  same_of_blank (centralHeard_frame (only [.wire, .detect, .tp, .nm]) rfl rfl rfl rfl p s) .can rfl
@[simp] theorem centralHeard_lin (p : Nat) (s : State) : (centralHeard p s).lin = s.lin :=
  same_of_blank (centralHeard_frame (only [.wire, .detect, .tp, .nm]) rfl rfl rfl rfl p s) .lin rfl
@[simp] theorem centralHeard_aq (p : Nat) (s : State) : (centralHeard p s).aq = s.aq :=
  same_of_blank (centralHeard_frame (only [.wire, .detect, .tp, .nm]) rfl rfl rfl rfl p s) .aq rfl
@[simp] theorem centralHeard_net (p : Nat) (s : State) : (centralHeard p s).net = s.net :=
  same_of_blank (centralHeard_frame (only [.wire, .detect, .tp, .nm]) rfl rfl rfl rfl p s) .net rfl
@[simp] theorem centralHeard_tow (p : Nat) (s : State) : (centralHeard p s).tow = s.tow :=
  same_of_blank (centralHeard_frame (only [.wire, .detect, .tp, .nm]) rfl rfl rfl rfl p s) .tow rfl
@[simp] theorem centralHeard_light (p : Nat) (s : State) : (centralHeard p s).light = s.light :=
  same_of_blank (centralHeard_frame (only [.wire, .detect, .tp, .nm]) rfl rfl rfl rfl p s) .light rfl
@[simp] theorem centralHeard_aps (p : Nat) (s : State) : (centralHeard p s).aps = s.aps :=
  same_of_blank (centralHeard_frame (only [.wire, .detect, .tp, .nm]) rfl rfl rfl rfl p s) .aps rfl
@[simp] theorem centralHeard_pwr (p : Nat) (s : State) : (centralHeard p s).pwr = s.pwr :=
  same_of_blank (centralHeard_frame (only [.wire, .detect, .tp, .nm]) rfl rfl rfl rfl p s) .pwr rfl
@[simp] theorem centralHeard_img (p : Nat) (s : State) : (centralHeard p s).img = s.img :=
  same_of_blank (centralHeard_frame (only [.wire, .detect, .tp, .nm]) rfl rfl rfl rfl p s) .img rfl
@[simp] theorem centralHeard_mem (p : Nat) (s : State) : (centralHeard p s).mem = s.mem :=
  blank_mem (centralHeard_frame (only [.wire, .detect, .tp, .nm]) rfl rfl rfl rfl p s) rfl
@[simp] theorem centralHeard_free (p : Nat) (s : State) : (centralHeard p s).free = s.free :=
  same_of_blank (centralHeard_frame (only [.wire, .detect, .tp, .nm]) rfl rfl rfl rfl p s) .free rfl
@[simp] theorem centralHeard_pending (p : Nat) (s : State) : (centralHeard p s).pending = s.pending :=
  same_of_blank (centralHeard_frame (only [.wire, .detect, .tp, .nm]) rfl rfl rfl rfl p s) .pending rfl

end Sys2Proof.Machine
end

