-- ==== Sys2Proof/Laws/State.lean ====
section
/-! SUPPORT. Reading each field of the state after each change of one part, so that no proof unfolds a record
update. -/
namespace Sys2Proof.Machine

@[simp] theorem modSys_sys (f : Sys → Sys) (s : State) : (modSys f s).sys = f s.sys := rfl
@[simp] theorem modSys_cyc (f : Sys → Sys) (s : State) : (modSys f s).cyc = s.cyc := rfl
@[simp] theorem modSys_tide (f : Sys → Sys) (s : State) : (modSys f s).tide = s.tide := rfl
@[simp] theorem modSys_fv (f : Sys → Sys) (s : State) : (modSys f s).fv = s.fv := rfl
@[simp] theorem modSys_saf (f : Sys → Sys) (s : State) : (modSys f s).saf = s.saf := rfl
@[simp] theorem modSys_tp (f : Sys → Sys) (s : State) : (modSys f s).tp = s.tp := rfl
@[simp] theorem modSys_pow (f : Sys → Sys) (s : State) : (modSys f s).pow = s.pow := rfl
@[simp] theorem modSys_slu (f : Sys → Sys) (s : State) : (modSys f s).slu = s.slu := rfl
@[simp] theorem modSys_mot (f : Sys → Sys) (s : State) : (modSys f s).mot = s.mot := rfl
@[simp] theorem modSys_fio (f : Sys → Sys) (s : State) : (modSys f s).fio = s.fio := rfl
@[simp] theorem modSys_can (f : Sys → Sys) (s : State) : (modSys f s).can = s.can := rfl
@[simp] theorem modSys_lin (f : Sys → Sys) (s : State) : (modSys f s).lin = s.lin := rfl
@[simp] theorem modSys_nm (f : Sys → Sys) (s : State) : (modSys f s).nm = s.nm := rfl
@[simp] theorem modSys_aq (f : Sys → Sys) (s : State) : (modSys f s).aq = s.aq := rfl
@[simp] theorem modSys_net (f : Sys → Sys) (s : State) : (modSys f s).net = s.net := rfl
@[simp] theorem modSys_tow (f : Sys → Sys) (s : State) : (modSys f s).tow = s.tow := rfl
@[simp] theorem modSys_light (f : Sys → Sys) (s : State) : (modSys f s).light = s.light := rfl
@[simp] theorem modSys_aps (f : Sys → Sys) (s : State) : (modSys f s).aps = s.aps := rfl
@[simp] theorem modSys_pwr (f : Sys → Sys) (s : State) : (modSys f s).pwr = s.pwr := rfl
@[simp] theorem modSys_img (f : Sys → Sys) (s : State) : (modSys f s).img = s.img := rfl
@[simp] theorem modSys_mem (f : Sys → Sys) (s : State) : (modSys f s).mem = s.mem := rfl
@[simp] theorem modSys_free (f : Sys → Sys) (s : State) : (modSys f s).free = s.free := rfl
@[simp] theorem modSys_pending (f : Sys → Sys) (s : State) : (modSys f s).pending = s.pending := rfl

@[simp] theorem modCyc_sys (f : Cyc → Cyc) (s : State) : (modCyc f s).sys = s.sys := rfl
@[simp] theorem modCyc_cyc (f : Cyc → Cyc) (s : State) : (modCyc f s).cyc = f s.cyc := rfl
@[simp] theorem modCyc_tide (f : Cyc → Cyc) (s : State) : (modCyc f s).tide = s.tide := rfl
@[simp] theorem modCyc_fv (f : Cyc → Cyc) (s : State) : (modCyc f s).fv = s.fv := rfl
@[simp] theorem modCyc_saf (f : Cyc → Cyc) (s : State) : (modCyc f s).saf = s.saf := rfl
@[simp] theorem modCyc_tp (f : Cyc → Cyc) (s : State) : (modCyc f s).tp = s.tp := rfl
@[simp] theorem modCyc_pow (f : Cyc → Cyc) (s : State) : (modCyc f s).pow = s.pow := rfl
@[simp] theorem modCyc_slu (f : Cyc → Cyc) (s : State) : (modCyc f s).slu = s.slu := rfl
@[simp] theorem modCyc_mot (f : Cyc → Cyc) (s : State) : (modCyc f s).mot = s.mot := rfl
@[simp] theorem modCyc_fio (f : Cyc → Cyc) (s : State) : (modCyc f s).fio = s.fio := rfl
@[simp] theorem modCyc_can (f : Cyc → Cyc) (s : State) : (modCyc f s).can = s.can := rfl
@[simp] theorem modCyc_lin (f : Cyc → Cyc) (s : State) : (modCyc f s).lin = s.lin := rfl
@[simp] theorem modCyc_nm (f : Cyc → Cyc) (s : State) : (modCyc f s).nm = s.nm := rfl
@[simp] theorem modCyc_aq (f : Cyc → Cyc) (s : State) : (modCyc f s).aq = s.aq := rfl
@[simp] theorem modCyc_net (f : Cyc → Cyc) (s : State) : (modCyc f s).net = s.net := rfl
@[simp] theorem modCyc_tow (f : Cyc → Cyc) (s : State) : (modCyc f s).tow = s.tow := rfl
@[simp] theorem modCyc_light (f : Cyc → Cyc) (s : State) : (modCyc f s).light = s.light := rfl
@[simp] theorem modCyc_aps (f : Cyc → Cyc) (s : State) : (modCyc f s).aps = s.aps := rfl
@[simp] theorem modCyc_pwr (f : Cyc → Cyc) (s : State) : (modCyc f s).pwr = s.pwr := rfl
@[simp] theorem modCyc_img (f : Cyc → Cyc) (s : State) : (modCyc f s).img = s.img := rfl
@[simp] theorem modCyc_mem (f : Cyc → Cyc) (s : State) : (modCyc f s).mem = s.mem := rfl
@[simp] theorem modCyc_free (f : Cyc → Cyc) (s : State) : (modCyc f s).free = s.free := rfl
@[simp] theorem modCyc_pending (f : Cyc → Cyc) (s : State) : (modCyc f s).pending = s.pending := rfl

@[simp] theorem modTide_sys (f : Tide → Tide) (s : State) : (modTide f s).sys = s.sys := rfl
@[simp] theorem modTide_cyc (f : Tide → Tide) (s : State) : (modTide f s).cyc = s.cyc := rfl
@[simp] theorem modTide_tide (f : Tide → Tide) (s : State) : (modTide f s).tide = f s.tide := rfl
@[simp] theorem modTide_fv (f : Tide → Tide) (s : State) : (modTide f s).fv = s.fv := rfl
@[simp] theorem modTide_saf (f : Tide → Tide) (s : State) : (modTide f s).saf = s.saf := rfl
@[simp] theorem modTide_tp (f : Tide → Tide) (s : State) : (modTide f s).tp = s.tp := rfl
@[simp] theorem modTide_pow (f : Tide → Tide) (s : State) : (modTide f s).pow = s.pow := rfl
@[simp] theorem modTide_slu (f : Tide → Tide) (s : State) : (modTide f s).slu = s.slu := rfl
@[simp] theorem modTide_mot (f : Tide → Tide) (s : State) : (modTide f s).mot = s.mot := rfl
@[simp] theorem modTide_fio (f : Tide → Tide) (s : State) : (modTide f s).fio = s.fio := rfl
@[simp] theorem modTide_can (f : Tide → Tide) (s : State) : (modTide f s).can = s.can := rfl
@[simp] theorem modTide_lin (f : Tide → Tide) (s : State) : (modTide f s).lin = s.lin := rfl
@[simp] theorem modTide_nm (f : Tide → Tide) (s : State) : (modTide f s).nm = s.nm := rfl
@[simp] theorem modTide_aq (f : Tide → Tide) (s : State) : (modTide f s).aq = s.aq := rfl
@[simp] theorem modTide_net (f : Tide → Tide) (s : State) : (modTide f s).net = s.net := rfl
@[simp] theorem modTide_tow (f : Tide → Tide) (s : State) : (modTide f s).tow = s.tow := rfl
@[simp] theorem modTide_light (f : Tide → Tide) (s : State) : (modTide f s).light = s.light := rfl
@[simp] theorem modTide_aps (f : Tide → Tide) (s : State) : (modTide f s).aps = s.aps := rfl
@[simp] theorem modTide_pwr (f : Tide → Tide) (s : State) : (modTide f s).pwr = s.pwr := rfl
@[simp] theorem modTide_img (f : Tide → Tide) (s : State) : (modTide f s).img = s.img := rfl
@[simp] theorem modTide_mem (f : Tide → Tide) (s : State) : (modTide f s).mem = s.mem := rfl
@[simp] theorem modTide_free (f : Tide → Tide) (s : State) : (modTide f s).free = s.free := rfl
@[simp] theorem modTide_pending (f : Tide → Tide) (s : State) : (modTide f s).pending = s.pending := rfl

@[simp] theorem modFv_sys (f : Fv → Fv) (s : State) : (modFv f s).sys = s.sys := rfl
@[simp] theorem modFv_cyc (f : Fv → Fv) (s : State) : (modFv f s).cyc = s.cyc := rfl
@[simp] theorem modFv_tide (f : Fv → Fv) (s : State) : (modFv f s).tide = s.tide := rfl
@[simp] theorem modFv_fv (f : Fv → Fv) (s : State) : (modFv f s).fv = f s.fv := rfl
@[simp] theorem modFv_saf (f : Fv → Fv) (s : State) : (modFv f s).saf = s.saf := rfl
@[simp] theorem modFv_tp (f : Fv → Fv) (s : State) : (modFv f s).tp = s.tp := rfl
@[simp] theorem modFv_pow (f : Fv → Fv) (s : State) : (modFv f s).pow = s.pow := rfl
@[simp] theorem modFv_slu (f : Fv → Fv) (s : State) : (modFv f s).slu = s.slu := rfl
@[simp] theorem modFv_mot (f : Fv → Fv) (s : State) : (modFv f s).mot = s.mot := rfl
@[simp] theorem modFv_fio (f : Fv → Fv) (s : State) : (modFv f s).fio = s.fio := rfl
@[simp] theorem modFv_can (f : Fv → Fv) (s : State) : (modFv f s).can = s.can := rfl
@[simp] theorem modFv_lin (f : Fv → Fv) (s : State) : (modFv f s).lin = s.lin := rfl
@[simp] theorem modFv_nm (f : Fv → Fv) (s : State) : (modFv f s).nm = s.nm := rfl
@[simp] theorem modFv_aq (f : Fv → Fv) (s : State) : (modFv f s).aq = s.aq := rfl
@[simp] theorem modFv_net (f : Fv → Fv) (s : State) : (modFv f s).net = s.net := rfl
@[simp] theorem modFv_tow (f : Fv → Fv) (s : State) : (modFv f s).tow = s.tow := rfl
@[simp] theorem modFv_light (f : Fv → Fv) (s : State) : (modFv f s).light = s.light := rfl
@[simp] theorem modFv_aps (f : Fv → Fv) (s : State) : (modFv f s).aps = s.aps := rfl
@[simp] theorem modFv_pwr (f : Fv → Fv) (s : State) : (modFv f s).pwr = s.pwr := rfl
@[simp] theorem modFv_img (f : Fv → Fv) (s : State) : (modFv f s).img = s.img := rfl
@[simp] theorem modFv_mem (f : Fv → Fv) (s : State) : (modFv f s).mem = s.mem := rfl
@[simp] theorem modFv_free (f : Fv → Fv) (s : State) : (modFv f s).free = s.free := rfl
@[simp] theorem modFv_pending (f : Fv → Fv) (s : State) : (modFv f s).pending = s.pending := rfl

@[simp] theorem modSaf_sys (f : Saf → Saf) (s : State) : (modSaf f s).sys = s.sys := rfl
@[simp] theorem modSaf_cyc (f : Saf → Saf) (s : State) : (modSaf f s).cyc = s.cyc := rfl
@[simp] theorem modSaf_tide (f : Saf → Saf) (s : State) : (modSaf f s).tide = s.tide := rfl
@[simp] theorem modSaf_fv (f : Saf → Saf) (s : State) : (modSaf f s).fv = s.fv := rfl
@[simp] theorem modSaf_saf (f : Saf → Saf) (s : State) : (modSaf f s).saf = f s.saf := rfl
@[simp] theorem modSaf_tp (f : Saf → Saf) (s : State) : (modSaf f s).tp = s.tp := rfl
@[simp] theorem modSaf_pow (f : Saf → Saf) (s : State) : (modSaf f s).pow = s.pow := rfl
@[simp] theorem modSaf_slu (f : Saf → Saf) (s : State) : (modSaf f s).slu = s.slu := rfl
@[simp] theorem modSaf_mot (f : Saf → Saf) (s : State) : (modSaf f s).mot = s.mot := rfl
@[simp] theorem modSaf_fio (f : Saf → Saf) (s : State) : (modSaf f s).fio = s.fio := rfl
@[simp] theorem modSaf_can (f : Saf → Saf) (s : State) : (modSaf f s).can = s.can := rfl
@[simp] theorem modSaf_lin (f : Saf → Saf) (s : State) : (modSaf f s).lin = s.lin := rfl
@[simp] theorem modSaf_nm (f : Saf → Saf) (s : State) : (modSaf f s).nm = s.nm := rfl
@[simp] theorem modSaf_aq (f : Saf → Saf) (s : State) : (modSaf f s).aq = s.aq := rfl
@[simp] theorem modSaf_net (f : Saf → Saf) (s : State) : (modSaf f s).net = s.net := rfl
@[simp] theorem modSaf_tow (f : Saf → Saf) (s : State) : (modSaf f s).tow = s.tow := rfl
@[simp] theorem modSaf_light (f : Saf → Saf) (s : State) : (modSaf f s).light = s.light := rfl
@[simp] theorem modSaf_aps (f : Saf → Saf) (s : State) : (modSaf f s).aps = s.aps := rfl
@[simp] theorem modSaf_pwr (f : Saf → Saf) (s : State) : (modSaf f s).pwr = s.pwr := rfl
@[simp] theorem modSaf_img (f : Saf → Saf) (s : State) : (modSaf f s).img = s.img := rfl
@[simp] theorem modSaf_mem (f : Saf → Saf) (s : State) : (modSaf f s).mem = s.mem := rfl
@[simp] theorem modSaf_free (f : Saf → Saf) (s : State) : (modSaf f s).free = s.free := rfl
@[simp] theorem modSaf_pending (f : Saf → Saf) (s : State) : (modSaf f s).pending = s.pending := rfl

@[simp] theorem modTp_sys (f : Tp → Tp) (s : State) : (modTp f s).sys = s.sys := rfl
@[simp] theorem modTp_cyc (f : Tp → Tp) (s : State) : (modTp f s).cyc = s.cyc := rfl
@[simp] theorem modTp_tide (f : Tp → Tp) (s : State) : (modTp f s).tide = s.tide := rfl
@[simp] theorem modTp_fv (f : Tp → Tp) (s : State) : (modTp f s).fv = s.fv := rfl
@[simp] theorem modTp_saf (f : Tp → Tp) (s : State) : (modTp f s).saf = s.saf := rfl
@[simp] theorem modTp_tp (f : Tp → Tp) (s : State) : (modTp f s).tp = f s.tp := rfl
@[simp] theorem modTp_pow (f : Tp → Tp) (s : State) : (modTp f s).pow = s.pow := rfl
@[simp] theorem modTp_slu (f : Tp → Tp) (s : State) : (modTp f s).slu = s.slu := rfl
@[simp] theorem modTp_mot (f : Tp → Tp) (s : State) : (modTp f s).mot = s.mot := rfl
@[simp] theorem modTp_fio (f : Tp → Tp) (s : State) : (modTp f s).fio = s.fio := rfl
@[simp] theorem modTp_can (f : Tp → Tp) (s : State) : (modTp f s).can = s.can := rfl
@[simp] theorem modTp_lin (f : Tp → Tp) (s : State) : (modTp f s).lin = s.lin := rfl
@[simp] theorem modTp_nm (f : Tp → Tp) (s : State) : (modTp f s).nm = s.nm := rfl
@[simp] theorem modTp_aq (f : Tp → Tp) (s : State) : (modTp f s).aq = s.aq := rfl
@[simp] theorem modTp_net (f : Tp → Tp) (s : State) : (modTp f s).net = s.net := rfl
@[simp] theorem modTp_tow (f : Tp → Tp) (s : State) : (modTp f s).tow = s.tow := rfl
@[simp] theorem modTp_light (f : Tp → Tp) (s : State) : (modTp f s).light = s.light := rfl
@[simp] theorem modTp_aps (f : Tp → Tp) (s : State) : (modTp f s).aps = s.aps := rfl
@[simp] theorem modTp_pwr (f : Tp → Tp) (s : State) : (modTp f s).pwr = s.pwr := rfl
@[simp] theorem modTp_img (f : Tp → Tp) (s : State) : (modTp f s).img = s.img := rfl
@[simp] theorem modTp_mem (f : Tp → Tp) (s : State) : (modTp f s).mem = s.mem := rfl
@[simp] theorem modTp_free (f : Tp → Tp) (s : State) : (modTp f s).free = s.free := rfl
@[simp] theorem modTp_pending (f : Tp → Tp) (s : State) : (modTp f s).pending = s.pending := rfl

@[simp] theorem modPow_sys (f : Pow → Pow) (s : State) : (modPow f s).sys = s.sys := rfl
@[simp] theorem modPow_cyc (f : Pow → Pow) (s : State) : (modPow f s).cyc = s.cyc := rfl
@[simp] theorem modPow_tide (f : Pow → Pow) (s : State) : (modPow f s).tide = s.tide := rfl
@[simp] theorem modPow_fv (f : Pow → Pow) (s : State) : (modPow f s).fv = s.fv := rfl
@[simp] theorem modPow_saf (f : Pow → Pow) (s : State) : (modPow f s).saf = s.saf := rfl
@[simp] theorem modPow_tp (f : Pow → Pow) (s : State) : (modPow f s).tp = s.tp := rfl
@[simp] theorem modPow_pow (f : Pow → Pow) (s : State) : (modPow f s).pow = f s.pow := rfl
@[simp] theorem modPow_slu (f : Pow → Pow) (s : State) : (modPow f s).slu = s.slu := rfl
@[simp] theorem modPow_mot (f : Pow → Pow) (s : State) : (modPow f s).mot = s.mot := rfl
@[simp] theorem modPow_fio (f : Pow → Pow) (s : State) : (modPow f s).fio = s.fio := rfl
@[simp] theorem modPow_can (f : Pow → Pow) (s : State) : (modPow f s).can = s.can := rfl
@[simp] theorem modPow_lin (f : Pow → Pow) (s : State) : (modPow f s).lin = s.lin := rfl
@[simp] theorem modPow_nm (f : Pow → Pow) (s : State) : (modPow f s).nm = s.nm := rfl
@[simp] theorem modPow_aq (f : Pow → Pow) (s : State) : (modPow f s).aq = s.aq := rfl
@[simp] theorem modPow_net (f : Pow → Pow) (s : State) : (modPow f s).net = s.net := rfl
@[simp] theorem modPow_tow (f : Pow → Pow) (s : State) : (modPow f s).tow = s.tow := rfl
@[simp] theorem modPow_light (f : Pow → Pow) (s : State) : (modPow f s).light = s.light := rfl
@[simp] theorem modPow_aps (f : Pow → Pow) (s : State) : (modPow f s).aps = s.aps := rfl
@[simp] theorem modPow_pwr (f : Pow → Pow) (s : State) : (modPow f s).pwr = s.pwr := rfl
@[simp] theorem modPow_img (f : Pow → Pow) (s : State) : (modPow f s).img = s.img := rfl
@[simp] theorem modPow_mem (f : Pow → Pow) (s : State) : (modPow f s).mem = s.mem := rfl
@[simp] theorem modPow_free (f : Pow → Pow) (s : State) : (modPow f s).free = s.free := rfl
@[simp] theorem modPow_pending (f : Pow → Pow) (s : State) : (modPow f s).pending = s.pending := rfl

@[simp] theorem modSlu_sys (f : Slu → Slu) (s : State) : (modSlu f s).sys = s.sys := rfl
@[simp] theorem modSlu_cyc (f : Slu → Slu) (s : State) : (modSlu f s).cyc = s.cyc := rfl
@[simp] theorem modSlu_tide (f : Slu → Slu) (s : State) : (modSlu f s).tide = s.tide := rfl
@[simp] theorem modSlu_fv (f : Slu → Slu) (s : State) : (modSlu f s).fv = s.fv := rfl
@[simp] theorem modSlu_saf (f : Slu → Slu) (s : State) : (modSlu f s).saf = s.saf := rfl
@[simp] theorem modSlu_tp (f : Slu → Slu) (s : State) : (modSlu f s).tp = s.tp := rfl
@[simp] theorem modSlu_pow (f : Slu → Slu) (s : State) : (modSlu f s).pow = s.pow := rfl
@[simp] theorem modSlu_slu (f : Slu → Slu) (s : State) : (modSlu f s).slu = f s.slu := rfl
@[simp] theorem modSlu_mot (f : Slu → Slu) (s : State) : (modSlu f s).mot = s.mot := rfl
@[simp] theorem modSlu_fio (f : Slu → Slu) (s : State) : (modSlu f s).fio = s.fio := rfl
@[simp] theorem modSlu_can (f : Slu → Slu) (s : State) : (modSlu f s).can = s.can := rfl
@[simp] theorem modSlu_lin (f : Slu → Slu) (s : State) : (modSlu f s).lin = s.lin := rfl
@[simp] theorem modSlu_nm (f : Slu → Slu) (s : State) : (modSlu f s).nm = s.nm := rfl
@[simp] theorem modSlu_aq (f : Slu → Slu) (s : State) : (modSlu f s).aq = s.aq := rfl
@[simp] theorem modSlu_net (f : Slu → Slu) (s : State) : (modSlu f s).net = s.net := rfl
@[simp] theorem modSlu_tow (f : Slu → Slu) (s : State) : (modSlu f s).tow = s.tow := rfl
@[simp] theorem modSlu_light (f : Slu → Slu) (s : State) : (modSlu f s).light = s.light := rfl
@[simp] theorem modSlu_aps (f : Slu → Slu) (s : State) : (modSlu f s).aps = s.aps := rfl
@[simp] theorem modSlu_pwr (f : Slu → Slu) (s : State) : (modSlu f s).pwr = s.pwr := rfl
@[simp] theorem modSlu_img (f : Slu → Slu) (s : State) : (modSlu f s).img = s.img := rfl
@[simp] theorem modSlu_mem (f : Slu → Slu) (s : State) : (modSlu f s).mem = s.mem := rfl
@[simp] theorem modSlu_free (f : Slu → Slu) (s : State) : (modSlu f s).free = s.free := rfl
@[simp] theorem modSlu_pending (f : Slu → Slu) (s : State) : (modSlu f s).pending = s.pending := rfl

@[simp] theorem modMot_sys (f : Mot → Mot) (s : State) : (modMot f s).sys = s.sys := rfl
@[simp] theorem modMot_cyc (f : Mot → Mot) (s : State) : (modMot f s).cyc = s.cyc := rfl
@[simp] theorem modMot_tide (f : Mot → Mot) (s : State) : (modMot f s).tide = s.tide := rfl
@[simp] theorem modMot_fv (f : Mot → Mot) (s : State) : (modMot f s).fv = s.fv := rfl
@[simp] theorem modMot_saf (f : Mot → Mot) (s : State) : (modMot f s).saf = s.saf := rfl
@[simp] theorem modMot_tp (f : Mot → Mot) (s : State) : (modMot f s).tp = s.tp := rfl
@[simp] theorem modMot_pow (f : Mot → Mot) (s : State) : (modMot f s).pow = s.pow := rfl
@[simp] theorem modMot_slu (f : Mot → Mot) (s : State) : (modMot f s).slu = s.slu := rfl
@[simp] theorem modMot_mot (f : Mot → Mot) (s : State) : (modMot f s).mot = f s.mot := rfl
@[simp] theorem modMot_fio (f : Mot → Mot) (s : State) : (modMot f s).fio = s.fio := rfl
@[simp] theorem modMot_can (f : Mot → Mot) (s : State) : (modMot f s).can = s.can := rfl
@[simp] theorem modMot_lin (f : Mot → Mot) (s : State) : (modMot f s).lin = s.lin := rfl
@[simp] theorem modMot_nm (f : Mot → Mot) (s : State) : (modMot f s).nm = s.nm := rfl
@[simp] theorem modMot_aq (f : Mot → Mot) (s : State) : (modMot f s).aq = s.aq := rfl
@[simp] theorem modMot_net (f : Mot → Mot) (s : State) : (modMot f s).net = s.net := rfl
@[simp] theorem modMot_tow (f : Mot → Mot) (s : State) : (modMot f s).tow = s.tow := rfl
@[simp] theorem modMot_light (f : Mot → Mot) (s : State) : (modMot f s).light = s.light := rfl
@[simp] theorem modMot_aps (f : Mot → Mot) (s : State) : (modMot f s).aps = s.aps := rfl
@[simp] theorem modMot_pwr (f : Mot → Mot) (s : State) : (modMot f s).pwr = s.pwr := rfl
@[simp] theorem modMot_img (f : Mot → Mot) (s : State) : (modMot f s).img = s.img := rfl
@[simp] theorem modMot_mem (f : Mot → Mot) (s : State) : (modMot f s).mem = s.mem := rfl
@[simp] theorem modMot_free (f : Mot → Mot) (s : State) : (modMot f s).free = s.free := rfl
@[simp] theorem modMot_pending (f : Mot → Mot) (s : State) : (modMot f s).pending = s.pending := rfl

@[simp] theorem modFio_sys (f : Fio → Fio) (s : State) : (modFio f s).sys = s.sys := rfl
@[simp] theorem modFio_cyc (f : Fio → Fio) (s : State) : (modFio f s).cyc = s.cyc := rfl
@[simp] theorem modFio_tide (f : Fio → Fio) (s : State) : (modFio f s).tide = s.tide := rfl
@[simp] theorem modFio_fv (f : Fio → Fio) (s : State) : (modFio f s).fv = s.fv := rfl
@[simp] theorem modFio_saf (f : Fio → Fio) (s : State) : (modFio f s).saf = s.saf := rfl
@[simp] theorem modFio_tp (f : Fio → Fio) (s : State) : (modFio f s).tp = s.tp := rfl
@[simp] theorem modFio_pow (f : Fio → Fio) (s : State) : (modFio f s).pow = s.pow := rfl
@[simp] theorem modFio_slu (f : Fio → Fio) (s : State) : (modFio f s).slu = s.slu := rfl
@[simp] theorem modFio_mot (f : Fio → Fio) (s : State) : (modFio f s).mot = s.mot := rfl
@[simp] theorem modFio_fio (f : Fio → Fio) (s : State) : (modFio f s).fio = f s.fio := rfl
@[simp] theorem modFio_can (f : Fio → Fio) (s : State) : (modFio f s).can = s.can := rfl
@[simp] theorem modFio_lin (f : Fio → Fio) (s : State) : (modFio f s).lin = s.lin := rfl
@[simp] theorem modFio_nm (f : Fio → Fio) (s : State) : (modFio f s).nm = s.nm := rfl
@[simp] theorem modFio_aq (f : Fio → Fio) (s : State) : (modFio f s).aq = s.aq := rfl
@[simp] theorem modFio_net (f : Fio → Fio) (s : State) : (modFio f s).net = s.net := rfl
@[simp] theorem modFio_tow (f : Fio → Fio) (s : State) : (modFio f s).tow = s.tow := rfl
@[simp] theorem modFio_light (f : Fio → Fio) (s : State) : (modFio f s).light = s.light := rfl
@[simp] theorem modFio_aps (f : Fio → Fio) (s : State) : (modFio f s).aps = s.aps := rfl
@[simp] theorem modFio_pwr (f : Fio → Fio) (s : State) : (modFio f s).pwr = s.pwr := rfl
@[simp] theorem modFio_img (f : Fio → Fio) (s : State) : (modFio f s).img = s.img := rfl
@[simp] theorem modFio_mem (f : Fio → Fio) (s : State) : (modFio f s).mem = s.mem := rfl
@[simp] theorem modFio_free (f : Fio → Fio) (s : State) : (modFio f s).free = s.free := rfl
@[simp] theorem modFio_pending (f : Fio → Fio) (s : State) : (modFio f s).pending = s.pending := rfl

@[simp] theorem modCan_sys (f : Can → Can) (s : State) : (modCan f s).sys = s.sys := rfl
@[simp] theorem modCan_cyc (f : Can → Can) (s : State) : (modCan f s).cyc = s.cyc := rfl
@[simp] theorem modCan_tide (f : Can → Can) (s : State) : (modCan f s).tide = s.tide := rfl
@[simp] theorem modCan_fv (f : Can → Can) (s : State) : (modCan f s).fv = s.fv := rfl
@[simp] theorem modCan_saf (f : Can → Can) (s : State) : (modCan f s).saf = s.saf := rfl
@[simp] theorem modCan_tp (f : Can → Can) (s : State) : (modCan f s).tp = s.tp := rfl
@[simp] theorem modCan_pow (f : Can → Can) (s : State) : (modCan f s).pow = s.pow := rfl
@[simp] theorem modCan_slu (f : Can → Can) (s : State) : (modCan f s).slu = s.slu := rfl
@[simp] theorem modCan_mot (f : Can → Can) (s : State) : (modCan f s).mot = s.mot := rfl
@[simp] theorem modCan_fio (f : Can → Can) (s : State) : (modCan f s).fio = s.fio := rfl
@[simp] theorem modCan_can (f : Can → Can) (s : State) : (modCan f s).can = f s.can := rfl
@[simp] theorem modCan_lin (f : Can → Can) (s : State) : (modCan f s).lin = s.lin := rfl
@[simp] theorem modCan_nm (f : Can → Can) (s : State) : (modCan f s).nm = s.nm := rfl
@[simp] theorem modCan_aq (f : Can → Can) (s : State) : (modCan f s).aq = s.aq := rfl
@[simp] theorem modCan_net (f : Can → Can) (s : State) : (modCan f s).net = s.net := rfl
@[simp] theorem modCan_tow (f : Can → Can) (s : State) : (modCan f s).tow = s.tow := rfl
@[simp] theorem modCan_light (f : Can → Can) (s : State) : (modCan f s).light = s.light := rfl
@[simp] theorem modCan_aps (f : Can → Can) (s : State) : (modCan f s).aps = s.aps := rfl
@[simp] theorem modCan_pwr (f : Can → Can) (s : State) : (modCan f s).pwr = s.pwr := rfl
@[simp] theorem modCan_img (f : Can → Can) (s : State) : (modCan f s).img = s.img := rfl
@[simp] theorem modCan_mem (f : Can → Can) (s : State) : (modCan f s).mem = s.mem := rfl
@[simp] theorem modCan_free (f : Can → Can) (s : State) : (modCan f s).free = s.free := rfl
@[simp] theorem modCan_pending (f : Can → Can) (s : State) : (modCan f s).pending = s.pending := rfl

@[simp] theorem modLin_sys (f : Lin → Lin) (s : State) : (modLin f s).sys = s.sys := rfl
@[simp] theorem modLin_cyc (f : Lin → Lin) (s : State) : (modLin f s).cyc = s.cyc := rfl
@[simp] theorem modLin_tide (f : Lin → Lin) (s : State) : (modLin f s).tide = s.tide := rfl
@[simp] theorem modLin_fv (f : Lin → Lin) (s : State) : (modLin f s).fv = s.fv := rfl
@[simp] theorem modLin_saf (f : Lin → Lin) (s : State) : (modLin f s).saf = s.saf := rfl
@[simp] theorem modLin_tp (f : Lin → Lin) (s : State) : (modLin f s).tp = s.tp := rfl
@[simp] theorem modLin_pow (f : Lin → Lin) (s : State) : (modLin f s).pow = s.pow := rfl
@[simp] theorem modLin_slu (f : Lin → Lin) (s : State) : (modLin f s).slu = s.slu := rfl
@[simp] theorem modLin_mot (f : Lin → Lin) (s : State) : (modLin f s).mot = s.mot := rfl
@[simp] theorem modLin_fio (f : Lin → Lin) (s : State) : (modLin f s).fio = s.fio := rfl
@[simp] theorem modLin_can (f : Lin → Lin) (s : State) : (modLin f s).can = s.can := rfl
@[simp] theorem modLin_lin (f : Lin → Lin) (s : State) : (modLin f s).lin = f s.lin := rfl
@[simp] theorem modLin_nm (f : Lin → Lin) (s : State) : (modLin f s).nm = s.nm := rfl
@[simp] theorem modLin_aq (f : Lin → Lin) (s : State) : (modLin f s).aq = s.aq := rfl
@[simp] theorem modLin_net (f : Lin → Lin) (s : State) : (modLin f s).net = s.net := rfl
@[simp] theorem modLin_tow (f : Lin → Lin) (s : State) : (modLin f s).tow = s.tow := rfl
@[simp] theorem modLin_light (f : Lin → Lin) (s : State) : (modLin f s).light = s.light := rfl
@[simp] theorem modLin_aps (f : Lin → Lin) (s : State) : (modLin f s).aps = s.aps := rfl
@[simp] theorem modLin_pwr (f : Lin → Lin) (s : State) : (modLin f s).pwr = s.pwr := rfl
@[simp] theorem modLin_img (f : Lin → Lin) (s : State) : (modLin f s).img = s.img := rfl
@[simp] theorem modLin_mem (f : Lin → Lin) (s : State) : (modLin f s).mem = s.mem := rfl
@[simp] theorem modLin_free (f : Lin → Lin) (s : State) : (modLin f s).free = s.free := rfl
@[simp] theorem modLin_pending (f : Lin → Lin) (s : State) : (modLin f s).pending = s.pending := rfl

@[simp] theorem modNm_sys (f : Nm → Nm) (s : State) : (modNm f s).sys = s.sys := rfl
@[simp] theorem modNm_cyc (f : Nm → Nm) (s : State) : (modNm f s).cyc = s.cyc := rfl
@[simp] theorem modNm_tide (f : Nm → Nm) (s : State) : (modNm f s).tide = s.tide := rfl
@[simp] theorem modNm_fv (f : Nm → Nm) (s : State) : (modNm f s).fv = s.fv := rfl
@[simp] theorem modNm_saf (f : Nm → Nm) (s : State) : (modNm f s).saf = s.saf := rfl
@[simp] theorem modNm_tp (f : Nm → Nm) (s : State) : (modNm f s).tp = s.tp := rfl
@[simp] theorem modNm_pow (f : Nm → Nm) (s : State) : (modNm f s).pow = s.pow := rfl
@[simp] theorem modNm_slu (f : Nm → Nm) (s : State) : (modNm f s).slu = s.slu := rfl
@[simp] theorem modNm_mot (f : Nm → Nm) (s : State) : (modNm f s).mot = s.mot := rfl
@[simp] theorem modNm_fio (f : Nm → Nm) (s : State) : (modNm f s).fio = s.fio := rfl
@[simp] theorem modNm_can (f : Nm → Nm) (s : State) : (modNm f s).can = s.can := rfl
@[simp] theorem modNm_lin (f : Nm → Nm) (s : State) : (modNm f s).lin = s.lin := rfl
@[simp] theorem modNm_nm (f : Nm → Nm) (s : State) : (modNm f s).nm = f s.nm := rfl
@[simp] theorem modNm_aq (f : Nm → Nm) (s : State) : (modNm f s).aq = s.aq := rfl
@[simp] theorem modNm_net (f : Nm → Nm) (s : State) : (modNm f s).net = s.net := rfl
@[simp] theorem modNm_tow (f : Nm → Nm) (s : State) : (modNm f s).tow = s.tow := rfl
@[simp] theorem modNm_light (f : Nm → Nm) (s : State) : (modNm f s).light = s.light := rfl
@[simp] theorem modNm_aps (f : Nm → Nm) (s : State) : (modNm f s).aps = s.aps := rfl
@[simp] theorem modNm_pwr (f : Nm → Nm) (s : State) : (modNm f s).pwr = s.pwr := rfl
@[simp] theorem modNm_img (f : Nm → Nm) (s : State) : (modNm f s).img = s.img := rfl
@[simp] theorem modNm_mem (f : Nm → Nm) (s : State) : (modNm f s).mem = s.mem := rfl
@[simp] theorem modNm_free (f : Nm → Nm) (s : State) : (modNm f s).free = s.free := rfl
@[simp] theorem modNm_pending (f : Nm → Nm) (s : State) : (modNm f s).pending = s.pending := rfl

@[simp] theorem modAq_sys (f : Aq → Aq) (s : State) : (modAq f s).sys = s.sys := rfl
@[simp] theorem modAq_cyc (f : Aq → Aq) (s : State) : (modAq f s).cyc = s.cyc := rfl
@[simp] theorem modAq_tide (f : Aq → Aq) (s : State) : (modAq f s).tide = s.tide := rfl
@[simp] theorem modAq_fv (f : Aq → Aq) (s : State) : (modAq f s).fv = s.fv := rfl
@[simp] theorem modAq_saf (f : Aq → Aq) (s : State) : (modAq f s).saf = s.saf := rfl
@[simp] theorem modAq_tp (f : Aq → Aq) (s : State) : (modAq f s).tp = s.tp := rfl
@[simp] theorem modAq_pow (f : Aq → Aq) (s : State) : (modAq f s).pow = s.pow := rfl
@[simp] theorem modAq_slu (f : Aq → Aq) (s : State) : (modAq f s).slu = s.slu := rfl
@[simp] theorem modAq_mot (f : Aq → Aq) (s : State) : (modAq f s).mot = s.mot := rfl
@[simp] theorem modAq_fio (f : Aq → Aq) (s : State) : (modAq f s).fio = s.fio := rfl
@[simp] theorem modAq_can (f : Aq → Aq) (s : State) : (modAq f s).can = s.can := rfl
@[simp] theorem modAq_lin (f : Aq → Aq) (s : State) : (modAq f s).lin = s.lin := rfl
@[simp] theorem modAq_nm (f : Aq → Aq) (s : State) : (modAq f s).nm = s.nm := rfl
@[simp] theorem modAq_aq (f : Aq → Aq) (s : State) : (modAq f s).aq = f s.aq := rfl
@[simp] theorem modAq_net (f : Aq → Aq) (s : State) : (modAq f s).net = s.net := rfl
@[simp] theorem modAq_tow (f : Aq → Aq) (s : State) : (modAq f s).tow = s.tow := rfl
@[simp] theorem modAq_light (f : Aq → Aq) (s : State) : (modAq f s).light = s.light := rfl
@[simp] theorem modAq_aps (f : Aq → Aq) (s : State) : (modAq f s).aps = s.aps := rfl
@[simp] theorem modAq_pwr (f : Aq → Aq) (s : State) : (modAq f s).pwr = s.pwr := rfl
@[simp] theorem modAq_img (f : Aq → Aq) (s : State) : (modAq f s).img = s.img := rfl
@[simp] theorem modAq_mem (f : Aq → Aq) (s : State) : (modAq f s).mem = s.mem := rfl
@[simp] theorem modAq_free (f : Aq → Aq) (s : State) : (modAq f s).free = s.free := rfl
@[simp] theorem modAq_pending (f : Aq → Aq) (s : State) : (modAq f s).pending = s.pending := rfl

@[simp] theorem modPwr_sys (f : Pwr → Pwr) (s : State) : (modPwr f s).sys = s.sys := rfl
@[simp] theorem modPwr_cyc (f : Pwr → Pwr) (s : State) : (modPwr f s).cyc = s.cyc := rfl
@[simp] theorem modPwr_tide (f : Pwr → Pwr) (s : State) : (modPwr f s).tide = s.tide := rfl
@[simp] theorem modPwr_fv (f : Pwr → Pwr) (s : State) : (modPwr f s).fv = s.fv := rfl
@[simp] theorem modPwr_saf (f : Pwr → Pwr) (s : State) : (modPwr f s).saf = s.saf := rfl
@[simp] theorem modPwr_tp (f : Pwr → Pwr) (s : State) : (modPwr f s).tp = s.tp := rfl
@[simp] theorem modPwr_pow (f : Pwr → Pwr) (s : State) : (modPwr f s).pow = s.pow := rfl
@[simp] theorem modPwr_slu (f : Pwr → Pwr) (s : State) : (modPwr f s).slu = s.slu := rfl
@[simp] theorem modPwr_mot (f : Pwr → Pwr) (s : State) : (modPwr f s).mot = s.mot := rfl
@[simp] theorem modPwr_fio (f : Pwr → Pwr) (s : State) : (modPwr f s).fio = s.fio := rfl
@[simp] theorem modPwr_can (f : Pwr → Pwr) (s : State) : (modPwr f s).can = s.can := rfl
@[simp] theorem modPwr_lin (f : Pwr → Pwr) (s : State) : (modPwr f s).lin = s.lin := rfl
@[simp] theorem modPwr_nm (f : Pwr → Pwr) (s : State) : (modPwr f s).nm = s.nm := rfl
@[simp] theorem modPwr_aq (f : Pwr → Pwr) (s : State) : (modPwr f s).aq = s.aq := rfl
@[simp] theorem modPwr_net (f : Pwr → Pwr) (s : State) : (modPwr f s).net = s.net := rfl
@[simp] theorem modPwr_tow (f : Pwr → Pwr) (s : State) : (modPwr f s).tow = s.tow := rfl
@[simp] theorem modPwr_light (f : Pwr → Pwr) (s : State) : (modPwr f s).light = s.light := rfl
@[simp] theorem modPwr_aps (f : Pwr → Pwr) (s : State) : (modPwr f s).aps = s.aps := rfl
@[simp] theorem modPwr_pwr (f : Pwr → Pwr) (s : State) : (modPwr f s).pwr = f s.pwr := rfl
@[simp] theorem modPwr_img (f : Pwr → Pwr) (s : State) : (modPwr f s).img = s.img := rfl
@[simp] theorem modPwr_mem (f : Pwr → Pwr) (s : State) : (modPwr f s).mem = s.mem := rfl
@[simp] theorem modPwr_free (f : Pwr → Pwr) (s : State) : (modPwr f s).free = s.free := rfl
@[simp] theorem modPwr_pending (f : Pwr → Pwr) (s : State) : (modPwr f s).pending = s.pending := rfl

@[simp] theorem modImg_sys (f : Img → Img) (s : State) : (modImg f s).sys = s.sys := rfl
@[simp] theorem modImg_cyc (f : Img → Img) (s : State) : (modImg f s).cyc = s.cyc := rfl
@[simp] theorem modImg_tide (f : Img → Img) (s : State) : (modImg f s).tide = s.tide := rfl
@[simp] theorem modImg_fv (f : Img → Img) (s : State) : (modImg f s).fv = s.fv := rfl
@[simp] theorem modImg_saf (f : Img → Img) (s : State) : (modImg f s).saf = s.saf := rfl
@[simp] theorem modImg_tp (f : Img → Img) (s : State) : (modImg f s).tp = s.tp := rfl
@[simp] theorem modImg_pow (f : Img → Img) (s : State) : (modImg f s).pow = s.pow := rfl
@[simp] theorem modImg_slu (f : Img → Img) (s : State) : (modImg f s).slu = s.slu := rfl
@[simp] theorem modImg_mot (f : Img → Img) (s : State) : (modImg f s).mot = s.mot := rfl
@[simp] theorem modImg_fio (f : Img → Img) (s : State) : (modImg f s).fio = s.fio := rfl
@[simp] theorem modImg_can (f : Img → Img) (s : State) : (modImg f s).can = s.can := rfl
@[simp] theorem modImg_lin (f : Img → Img) (s : State) : (modImg f s).lin = s.lin := rfl
@[simp] theorem modImg_nm (f : Img → Img) (s : State) : (modImg f s).nm = s.nm := rfl
@[simp] theorem modImg_aq (f : Img → Img) (s : State) : (modImg f s).aq = s.aq := rfl
@[simp] theorem modImg_net (f : Img → Img) (s : State) : (modImg f s).net = s.net := rfl
@[simp] theorem modImg_tow (f : Img → Img) (s : State) : (modImg f s).tow = s.tow := rfl
@[simp] theorem modImg_light (f : Img → Img) (s : State) : (modImg f s).light = s.light := rfl
@[simp] theorem modImg_aps (f : Img → Img) (s : State) : (modImg f s).aps = s.aps := rfl
@[simp] theorem modImg_pwr (f : Img → Img) (s : State) : (modImg f s).pwr = s.pwr := rfl
@[simp] theorem modImg_img (f : Img → Img) (s : State) : (modImg f s).img = f s.img := rfl
@[simp] theorem modImg_mem (f : Img → Img) (s : State) : (modImg f s).mem = s.mem := rfl
@[simp] theorem modImg_free (f : Img → Img) (s : State) : (modImg f s).free = s.free := rfl
@[simp] theorem modImg_pending (f : Img → Img) (s : State) : (modImg f s).pending = s.pending := rfl

@[simp] theorem modLight_sys (f : Light → Light) (s : State) : (modLight f s).sys = s.sys := rfl
@[simp] theorem modLight_cyc (f : Light → Light) (s : State) : (modLight f s).cyc = s.cyc := rfl
@[simp] theorem modLight_tide (f : Light → Light) (s : State) : (modLight f s).tide = s.tide := rfl
@[simp] theorem modLight_fv (f : Light → Light) (s : State) : (modLight f s).fv = s.fv := rfl
@[simp] theorem modLight_saf (f : Light → Light) (s : State) : (modLight f s).saf = s.saf := rfl
@[simp] theorem modLight_tp (f : Light → Light) (s : State) : (modLight f s).tp = s.tp := rfl
@[simp] theorem modLight_pow (f : Light → Light) (s : State) : (modLight f s).pow = s.pow := rfl
@[simp] theorem modLight_slu (f : Light → Light) (s : State) : (modLight f s).slu = s.slu := rfl
@[simp] theorem modLight_mot (f : Light → Light) (s : State) : (modLight f s).mot = s.mot := rfl
@[simp] theorem modLight_fio (f : Light → Light) (s : State) : (modLight f s).fio = s.fio := rfl
@[simp] theorem modLight_can (f : Light → Light) (s : State) : (modLight f s).can = s.can := rfl
@[simp] theorem modLight_lin (f : Light → Light) (s : State) : (modLight f s).lin = s.lin := rfl
@[simp] theorem modLight_nm (f : Light → Light) (s : State) : (modLight f s).nm = s.nm := rfl
@[simp] theorem modLight_aq (f : Light → Light) (s : State) : (modLight f s).aq = s.aq := rfl
@[simp] theorem modLight_net (f : Light → Light) (s : State) : (modLight f s).net = s.net := rfl
@[simp] theorem modLight_tow (f : Light → Light) (s : State) : (modLight f s).tow = s.tow := rfl
@[simp] theorem modLight_light (f : Light → Light) (s : State) : (modLight f s).light = f s.light := rfl
@[simp] theorem modLight_aps (f : Light → Light) (s : State) : (modLight f s).aps = s.aps := rfl
@[simp] theorem modLight_pwr (f : Light → Light) (s : State) : (modLight f s).pwr = s.pwr := rfl
@[simp] theorem modLight_img (f : Light → Light) (s : State) : (modLight f s).img = s.img := rfl
@[simp] theorem modLight_mem (f : Light → Light) (s : State) : (modLight f s).mem = s.mem := rfl
@[simp] theorem modLight_free (f : Light → Light) (s : State) : (modLight f s).free = s.free := rfl
@[simp] theorem modLight_pending (f : Light → Light) (s : State) : (modLight f s).pending = s.pending := rfl

@[simp] theorem modAps_sys (f : Aps → Aps) (s : State) : (modAps f s).sys = s.sys := rfl
@[simp] theorem modAps_cyc (f : Aps → Aps) (s : State) : (modAps f s).cyc = s.cyc := rfl
@[simp] theorem modAps_tide (f : Aps → Aps) (s : State) : (modAps f s).tide = s.tide := rfl
@[simp] theorem modAps_fv (f : Aps → Aps) (s : State) : (modAps f s).fv = s.fv := rfl
@[simp] theorem modAps_saf (f : Aps → Aps) (s : State) : (modAps f s).saf = s.saf := rfl
@[simp] theorem modAps_tp (f : Aps → Aps) (s : State) : (modAps f s).tp = s.tp := rfl
@[simp] theorem modAps_pow (f : Aps → Aps) (s : State) : (modAps f s).pow = s.pow := rfl
@[simp] theorem modAps_slu (f : Aps → Aps) (s : State) : (modAps f s).slu = s.slu := rfl
@[simp] theorem modAps_mot (f : Aps → Aps) (s : State) : (modAps f s).mot = s.mot := rfl
@[simp] theorem modAps_fio (f : Aps → Aps) (s : State) : (modAps f s).fio = s.fio := rfl
@[simp] theorem modAps_can (f : Aps → Aps) (s : State) : (modAps f s).can = s.can := rfl
@[simp] theorem modAps_lin (f : Aps → Aps) (s : State) : (modAps f s).lin = s.lin := rfl
@[simp] theorem modAps_nm (f : Aps → Aps) (s : State) : (modAps f s).nm = s.nm := rfl
@[simp] theorem modAps_aq (f : Aps → Aps) (s : State) : (modAps f s).aq = s.aq := rfl
@[simp] theorem modAps_net (f : Aps → Aps) (s : State) : (modAps f s).net = s.net := rfl
@[simp] theorem modAps_tow (f : Aps → Aps) (s : State) : (modAps f s).tow = s.tow := rfl
@[simp] theorem modAps_light (f : Aps → Aps) (s : State) : (modAps f s).light = s.light := rfl
@[simp] theorem modAps_aps (f : Aps → Aps) (s : State) : (modAps f s).aps = f s.aps := rfl
@[simp] theorem modAps_pwr (f : Aps → Aps) (s : State) : (modAps f s).pwr = s.pwr := rfl
@[simp] theorem modAps_img (f : Aps → Aps) (s : State) : (modAps f s).img = s.img := rfl
@[simp] theorem modAps_mem (f : Aps → Aps) (s : State) : (modAps f s).mem = s.mem := rfl
@[simp] theorem modAps_free (f : Aps → Aps) (s : State) : (modAps f s).free = s.free := rfl
@[simp] theorem modAps_pending (f : Aps → Aps) (s : State) : (modAps f s).pending = s.pending := rfl

@[simp] theorem modTow_sys (f : Tow → Tow) (s : State) : (modTow f s).sys = s.sys := rfl
@[simp] theorem modTow_cyc (f : Tow → Tow) (s : State) : (modTow f s).cyc = s.cyc := rfl
@[simp] theorem modTow_tide (f : Tow → Tow) (s : State) : (modTow f s).tide = s.tide := rfl
@[simp] theorem modTow_fv (f : Tow → Tow) (s : State) : (modTow f s).fv = s.fv := rfl
@[simp] theorem modTow_saf (f : Tow → Tow) (s : State) : (modTow f s).saf = s.saf := rfl
@[simp] theorem modTow_tp (f : Tow → Tow) (s : State) : (modTow f s).tp = s.tp := rfl
@[simp] theorem modTow_pow (f : Tow → Tow) (s : State) : (modTow f s).pow = s.pow := rfl
@[simp] theorem modTow_slu (f : Tow → Tow) (s : State) : (modTow f s).slu = s.slu := rfl
@[simp] theorem modTow_mot (f : Tow → Tow) (s : State) : (modTow f s).mot = s.mot := rfl
@[simp] theorem modTow_fio (f : Tow → Tow) (s : State) : (modTow f s).fio = s.fio := rfl
@[simp] theorem modTow_can (f : Tow → Tow) (s : State) : (modTow f s).can = s.can := rfl
@[simp] theorem modTow_lin (f : Tow → Tow) (s : State) : (modTow f s).lin = s.lin := rfl
@[simp] theorem modTow_nm (f : Tow → Tow) (s : State) : (modTow f s).nm = s.nm := rfl
@[simp] theorem modTow_aq (f : Tow → Tow) (s : State) : (modTow f s).aq = s.aq := rfl
@[simp] theorem modTow_net (f : Tow → Tow) (s : State) : (modTow f s).net = s.net := rfl
@[simp] theorem modTow_tow (f : Tow → Tow) (s : State) : (modTow f s).tow = f s.tow := rfl
@[simp] theorem modTow_light (f : Tow → Tow) (s : State) : (modTow f s).light = s.light := rfl
@[simp] theorem modTow_aps (f : Tow → Tow) (s : State) : (modTow f s).aps = s.aps := rfl
@[simp] theorem modTow_pwr (f : Tow → Tow) (s : State) : (modTow f s).pwr = s.pwr := rfl
@[simp] theorem modTow_img (f : Tow → Tow) (s : State) : (modTow f s).img = s.img := rfl
@[simp] theorem modTow_mem (f : Tow → Tow) (s : State) : (modTow f s).mem = s.mem := rfl
@[simp] theorem modTow_free (f : Tow → Tow) (s : State) : (modTow f s).free = s.free := rfl
@[simp] theorem modTow_pending (f : Tow → Tow) (s : State) : (modTow f s).pending = s.pending := rfl

@[simp] theorem modNet_sys (f : Net → Net) (s : State) : (modNet f s).sys = s.sys := rfl
@[simp] theorem modNet_cyc (f : Net → Net) (s : State) : (modNet f s).cyc = s.cyc := rfl
@[simp] theorem modNet_tide (f : Net → Net) (s : State) : (modNet f s).tide = s.tide := rfl
@[simp] theorem modNet_fv (f : Net → Net) (s : State) : (modNet f s).fv = s.fv := rfl
@[simp] theorem modNet_saf (f : Net → Net) (s : State) : (modNet f s).saf = s.saf := rfl
@[simp] theorem modNet_tp (f : Net → Net) (s : State) : (modNet f s).tp = s.tp := rfl
@[simp] theorem modNet_pow (f : Net → Net) (s : State) : (modNet f s).pow = s.pow := rfl
@[simp] theorem modNet_slu (f : Net → Net) (s : State) : (modNet f s).slu = s.slu := rfl
@[simp] theorem modNet_mot (f : Net → Net) (s : State) : (modNet f s).mot = s.mot := rfl
@[simp] theorem modNet_fio (f : Net → Net) (s : State) : (modNet f s).fio = s.fio := rfl
@[simp] theorem modNet_can (f : Net → Net) (s : State) : (modNet f s).can = s.can := rfl
@[simp] theorem modNet_lin (f : Net → Net) (s : State) : (modNet f s).lin = s.lin := rfl
@[simp] theorem modNet_nm (f : Net → Net) (s : State) : (modNet f s).nm = s.nm := rfl
@[simp] theorem modNet_aq (f : Net → Net) (s : State) : (modNet f s).aq = s.aq := rfl
@[simp] theorem modNet_net (f : Net → Net) (s : State) : (modNet f s).net = f s.net := rfl
@[simp] theorem modNet_tow (f : Net → Net) (s : State) : (modNet f s).tow = s.tow := rfl
@[simp] theorem modNet_light (f : Net → Net) (s : State) : (modNet f s).light = s.light := rfl
@[simp] theorem modNet_aps (f : Net → Net) (s : State) : (modNet f s).aps = s.aps := rfl
@[simp] theorem modNet_pwr (f : Net → Net) (s : State) : (modNet f s).pwr = s.pwr := rfl
@[simp] theorem modNet_img (f : Net → Net) (s : State) : (modNet f s).img = s.img := rfl
@[simp] theorem modNet_mem (f : Net → Net) (s : State) : (modNet f s).mem = s.mem := rfl
@[simp] theorem modNet_free (f : Net → Net) (s : State) : (modNet f s).free = s.free := rfl
@[simp] theorem modNet_pending (f : Net → Net) (s : State) : (modNet f s).pending = s.pending := rfl

@[simp] theorem storeBytes_cyc (i : Nat) (bs : List Byte) (s : State) : (storeBytes i bs s).cyc = s.cyc := rfl
@[simp] theorem storeBytes_tide (i : Nat) (bs : List Byte) (s : State) : (storeBytes i bs s).tide = s.tide := rfl
@[simp] theorem storeBytes_fv (i : Nat) (bs : List Byte) (s : State) : (storeBytes i bs s).fv = s.fv := rfl
@[simp] theorem storeBytes_saf (i : Nat) (bs : List Byte) (s : State) : (storeBytes i bs s).saf = s.saf := rfl
@[simp] theorem storeBytes_tp (i : Nat) (bs : List Byte) (s : State) : (storeBytes i bs s).tp = s.tp := rfl
@[simp] theorem storeBytes_pow (i : Nat) (bs : List Byte) (s : State) : (storeBytes i bs s).pow = s.pow := rfl
@[simp] theorem storeBytes_slu (i : Nat) (bs : List Byte) (s : State) : (storeBytes i bs s).slu = s.slu := rfl
@[simp] theorem storeBytes_mot (i : Nat) (bs : List Byte) (s : State) : (storeBytes i bs s).mot = s.mot := rfl
@[simp] theorem storeBytes_fio (i : Nat) (bs : List Byte) (s : State) : (storeBytes i bs s).fio = s.fio := rfl
@[simp] theorem storeBytes_can (i : Nat) (bs : List Byte) (s : State) : (storeBytes i bs s).can = s.can := rfl
@[simp] theorem storeBytes_lin (i : Nat) (bs : List Byte) (s : State) : (storeBytes i bs s).lin = s.lin := rfl
@[simp] theorem storeBytes_nm (i : Nat) (bs : List Byte) (s : State) : (storeBytes i bs s).nm = s.nm := rfl
@[simp] theorem storeBytes_aq (i : Nat) (bs : List Byte) (s : State) : (storeBytes i bs s).aq = s.aq := rfl
@[simp] theorem storeBytes_net (i : Nat) (bs : List Byte) (s : State) : (storeBytes i bs s).net = s.net := rfl
@[simp] theorem storeBytes_tow (i : Nat) (bs : List Byte) (s : State) : (storeBytes i bs s).tow = s.tow := rfl
@[simp] theorem storeBytes_light (i : Nat) (bs : List Byte) (s : State) : (storeBytes i bs s).light = s.light := rfl
@[simp] theorem storeBytes_aps (i : Nat) (bs : List Byte) (s : State) : (storeBytes i bs s).aps = s.aps := rfl
@[simp] theorem storeBytes_pwr (i : Nat) (bs : List Byte) (s : State) : (storeBytes i bs s).pwr = s.pwr := rfl
@[simp] theorem storeBytes_img (i : Nat) (bs : List Byte) (s : State) : (storeBytes i bs s).img = s.img := rfl
@[simp] theorem storeBytes_mem (i : Nat) (bs : List Byte) (s : State) : (storeBytes i bs s).mem = memWriteBytes i bs s.mem := rfl
@[simp] theorem storeBytes_free (i : Nat) (bs : List Byte) (s : State) : (storeBytes i bs s).free = s.free := rfl
@[simp] theorem storeBytes_pending (i : Nat) (bs : List Byte) (s : State) : (storeBytes i bs s).pending = s.pending := rfl

@[simp] theorem takeFree_sys (s : State) : (takeFree s).2.sys = s.sys := rfl
@[simp] theorem takeFree_cyc (s : State) : (takeFree s).2.cyc = s.cyc := rfl
@[simp] theorem takeFree_tide (s : State) : (takeFree s).2.tide = s.tide := rfl
@[simp] theorem takeFree_fv (s : State) : (takeFree s).2.fv = s.fv := rfl
@[simp] theorem takeFree_saf (s : State) : (takeFree s).2.saf = s.saf := rfl
@[simp] theorem takeFree_tp (s : State) : (takeFree s).2.tp = s.tp := rfl
@[simp] theorem takeFree_pow (s : State) : (takeFree s).2.pow = s.pow := rfl
@[simp] theorem takeFree_slu (s : State) : (takeFree s).2.slu = s.slu := rfl
@[simp] theorem takeFree_mot (s : State) : (takeFree s).2.mot = s.mot := rfl
@[simp] theorem takeFree_fio (s : State) : (takeFree s).2.fio = s.fio := rfl
@[simp] theorem takeFree_can (s : State) : (takeFree s).2.can = s.can := rfl
@[simp] theorem takeFree_lin (s : State) : (takeFree s).2.lin = s.lin := rfl
@[simp] theorem takeFree_nm (s : State) : (takeFree s).2.nm = s.nm := rfl
@[simp] theorem takeFree_aq (s : State) : (takeFree s).2.aq = s.aq := rfl
@[simp] theorem takeFree_net (s : State) : (takeFree s).2.net = s.net := rfl
@[simp] theorem takeFree_tow (s : State) : (takeFree s).2.tow = s.tow := rfl
@[simp] theorem takeFree_light (s : State) : (takeFree s).2.light = s.light := rfl
@[simp] theorem takeFree_aps (s : State) : (takeFree s).2.aps = s.aps := rfl
@[simp] theorem takeFree_pwr (s : State) : (takeFree s).2.pwr = s.pwr := rfl
@[simp] theorem takeFree_img (s : State) : (takeFree s).2.img = s.img := rfl
@[simp] theorem takeFree_mem (s : State) : (takeFree s).2.mem = s.mem := rfl
@[simp] theorem takeFree_free (s : State) : (takeFree s).2.free = s.free + 1 := rfl
@[simp] theorem takeFree_pending (s : State) : (takeFree s).2.pending = s.pending := rfl

end Sys2Proof.Machine
end

