-- ==== Sys2Proof/Laws/Units.lean ====
section
/-! SUPPORT. Reading the record of one unit after the record of a unit of the same kind has changed: the unit's
own record is the changed one, every other is as it was. -/
namespace Sys2Proof.Machine

@[simp] theorem poundAt_modPound_same (i : Nat) (f : Pound → Pound) (s : State) : poundAt (modPound i f s) i = f (poundAt s i) :=
  tget_tmod_same _ _ _ _
theorem poundAt_modPound_ne (i j : Nat) (f : Pound → Pound) (s : State) (h : i ≠ j) : poundAt (modPound i f s) j = poundAt s j :=
  tget_tmod_ne _ _ _ _ _ h
@[simp] theorem pqAt_modPq_same (i : Nat) (f : PoundQ → PoundQ) (s : State) : pqAt (modPq i f s) i = f (pqAt s i) :=
  tget_tmod_same _ _ _ _
theorem pqAt_modPq_ne (i j : Nat) (f : PoundQ → PoundQ) (s : State) (h : i ≠ j) : pqAt (modPq i f s) j = pqAt s j :=
  tget_tmod_ne _ _ _ _ _ h
@[simp] theorem winAt_modWin_same (i : Nat) (f : Win → Win) (s : State) : winAt (modWin i f s) i = f (winAt s i) :=
  tget_tmod_same _ _ _ _
theorem winAt_modWin_ne (i j : Nat) (f : Win → Win) (s : State) (h : i ≠ j) : winAt (modWin i f s) j = winAt s j :=
  tget_tmod_ne _ _ _ _ _ h
@[simp] theorem servoAt_modServo_same (i : Nat) (f : Servo → Servo) (s : State) : servoAt (modServo i f s) i = f (servoAt s i) :=
  tget_tmod_same _ _ _ _
theorem servoAt_modServo_ne (i j : Nat) (f : Servo → Servo) (s : State) (h : i ≠ j) : servoAt (modServo i f s) j = servoAt s j :=
  tget_tmod_ne _ _ _ _ _ h
@[simp] theorem domAt_modDom_same (i : Nat) (f : Dom → Dom) (s : State) : domAt (modDom i f s) i = f (domAt s i) :=
  tget_tmod_same _ _ _ _
theorem domAt_modDom_ne (i j : Nat) (f : Dom → Dom) (s : State) (h : i ≠ j) : domAt (modDom i f s) j = domAt s j :=
  tget_tmod_ne _ _ _ _ _ h
@[simp] theorem toutAt_modTout_same (i : Nat) (f : TOut → TOut) (s : State) : toutAt (modTout i f s) i = f (toutAt s i) :=
  tget_tmod_same _ _ _ _
theorem toutAt_modTout_ne (i j : Nat) (f : TOut → TOut) (s : State) (h : i ≠ j) : toutAt (modTout i f s) j = toutAt s j :=
  tget_tmod_ne _ _ _ _ _ h
@[simp] theorem tinAt_modTin_same (i : Nat) (f : TIn → TIn) (s : State) : tinAt (modTin i f s) i = f (tinAt s i) :=
  tget_tmod_same _ _ _ _
theorem tinAt_modTin_ne (i j : Nat) (f : TIn → TIn) (s : State) (h : i ≠ j) : tinAt (modTin i f s) j = tinAt s j :=
  tget_tmod_ne _ _ _ _ _ h
@[simp] theorem gportAt_modGport_same (i : Nat) (f : GPort → GPort) (s : State) : gportAt (modGport i f s) i = f (gportAt s i) :=
  tget_tmod_same _ _ _ _
theorem gportAt_modGport_ne (i j : Nat) (f : GPort → GPort) (s : State) (h : i ≠ j) : gportAt (modGport i f s) j = gportAt s j :=
  tget_tmod_ne _ _ _ _ _ h
@[simp] theorem tsqAt_modTsq_same (i : Nat) (f : Tsq → Tsq) (s : State) : tsqAt (modTsq i f s) i = f (tsqAt s i) :=
  tget_tmod_same _ _ _ _
theorem tsqAt_modTsq_ne (i j : Nat) (f : Tsq → Tsq) (s : State) (h : i ≠ j) : tsqAt (modTsq i f s) j = tsqAt s j :=
  tget_tmod_ne _ _ _ _ _ h
@[simp] theorem detAt_modDet_same (i : Nat) (f : Det → Det) (s : State) : detAt (modDet i f s) i = f (detAt s i) :=
  tget_tmod_same _ _ _ _
theorem detAt_modDet_ne (i j : Nat) (f : Det → Det) (s : State) (h : i ≠ j) : detAt (modDet i f s) j = detAt s j :=
  tget_tmod_ne _ _ _ _ _ h
@[simp] theorem segAt_modSeg_same (i : Nat) (f : SegWear → SegWear) (s : State) : segAt (modSeg i f s) i = f (segAt s i) :=
  tget_tmod_same _ _ _ _
theorem segAt_modSeg_ne (i j : Nat) (f : SegWear → SegWear) (s : State) (h : i ≠ j) : segAt (modSeg i f s) j = segAt s j :=
  tget_tmod_ne _ _ _ _ _ h
@[simp] theorem chanAt_modChan_same (i : Nat) (f : Chan → Chan) (s : State) : chanAt (modChan i f s) i = f (chanAt s i) :=
  tget_tmod_same _ _ _ _
theorem chanAt_modChan_ne (i j : Nat) (f : Chan → Chan) (s : State) (h : i ≠ j) : chanAt (modChan i f s) j = chanAt s j :=
  tget_tmod_ne _ _ _ _ _ h
@[simp] theorem grpAt_modGrp_same (i : Nat) (f : Grp → Grp) (s : State) : grpAt (modGrp i f s) i = f (grpAt s i) :=
  tget_tmod_same _ _ _ _
theorem grpAt_modGrp_ne (i j : Nat) (f : Grp → Grp) (s : State) (h : i ≠ j) : grpAt (modGrp i f s) j = grpAt s j :=
  tget_tmod_ne _ _ _ _ _ h
@[simp] theorem clusterAt_modCluster_same (i : Nat) (f : Cluster → Cluster) (s : State) : clusterAt (modCluster i f s) i = f (clusterAt s i) :=
  tget_tmod_same _ _ _ _
theorem clusterAt_modCluster_ne (i j : Nat) (f : Cluster → Cluster) (s : State) (h : i ≠ j) : clusterAt (modCluster i f s) j = clusterAt s j :=
  tget_tmod_ne _ _ _ _ _ h
@[simp] theorem wireTypeAt_modWireType_same (i : Nat) (f : WireType → WireType) (s : State) : wireTypeAt (modWireType i f s) i = f (wireTypeAt s i) :=
  tget_tmod_same _ _ _ _
theorem wireTypeAt_modWireType_ne (i j : Nat) (f : WireType → WireType) (s : State) (h : i ≠ j) : wireTypeAt (modWireType i f s) j = wireTypeAt s j :=
  tget_tmod_ne _ _ _ _ _ h
@[simp] theorem bundleAt_modBundle_same (i : Nat) (f : Bundle → Bundle) (s : State) : bundleAt (modBundle i f s) i = f (bundleAt s i) :=
  tget_tmod_same _ _ _ _
theorem bundleAt_modBundle_ne (i j : Nat) (f : Bundle → Bundle) (s : State) (h : i ≠ j) : bundleAt (modBundle i f s) j = bundleAt s j :=
  tget_tmod_ne _ _ _ _ _ h
@[simp] theorem wireAt_modWire_same (i : Nat) (f : WireCh → WireCh) (s : State) : wireAt (modWire i f s) i = f (wireAt s i) :=
  tget_tmod_same _ _ _ _
theorem wireAt_modWire_ne (i j : Nat) (f : WireCh → WireCh) (s : State) (h : i ≠ j) : wireAt (modWire i f s) j = wireAt s j :=
  tget_tmod_ne _ _ _ _ _ h
@[simp] theorem adcAt_modAdc_same (i : Nat) (f : Adc → Adc) (s : State) : adcAt (modAdc i f s) i = f (adcAt s i) :=
  tget_tmod_same _ _ _ _
theorem adcAt_modAdc_ne (i j : Nat) (f : Adc → Adc) (s : State) (h : i ≠ j) : adcAt (modAdc i f s) j = adcAt s j :=
  tget_tmod_ne _ _ _ _ _ h
@[simp] theorem budgetAt_modBudget_same (i : Nat) (f : Budget → Budget) (s : State) : budgetAt (modBudget i f s) i = f (budgetAt s i) :=
  tget_tmod_same _ _ _ _
theorem budgetAt_modBudget_ne (i j : Nat) (f : Budget → Budget) (s : State) (h : i ≠ j) : budgetAt (modBudget i f s) j = budgetAt s j :=
  tget_tmod_ne _ _ _ _ _ h
@[simp] theorem padAt_modPad_same (i : Nat) (f : Pad → Pad) (s : State) : padAt (modPad i f s) i = f (padAt s i) :=
  tget_tmod_same _ _ _ _
theorem padAt_modPad_ne (i j : Nat) (f : Pad → Pad) (s : State) (h : i ≠ j) : padAt (modPad i f s) j = padAt s j :=
  tget_tmod_ne _ _ _ _ _ h
@[simp] theorem brAt_modBr_same (i : Nat) (f : Br → Br) (s : State) : brAt (modBr i f s) i = f (brAt s i) :=
  tget_tmod_same _ _ _ _
theorem brAt_modBr_ne (i j : Nat) (f : Br → Br) (s : State) (h : i ≠ j) : brAt (modBr i f s) j = brAt s j :=
  tget_tmod_ne _ _ _ _ _ h
@[simp] theorem brParAt_modBrPar_same (i : Nat) (f : BrPar → BrPar) (s : State) : brParAt (modBrPar i f s) i = f (brParAt s i) :=
  tget_tmod_same _ _ _ _
theorem brParAt_modBrPar_ne (i j : Nat) (f : BrPar → BrPar) (s : State) (h : i ≠ j) : brParAt (modBrPar i f s) j = brParAt s j :=
  tget_tmod_ne _ _ _ _ _ h
@[simp] theorem brDynAt_modBrDyn_same (i : Nat) (f : BrDyn → BrDyn) (s : State) : brDynAt (modBrDyn i f s) i = f (brDynAt s i) :=
  tget_tmod_same _ _ _ _
theorem brDynAt_modBrDyn_ne (i j : Nat) (f : BrDyn → BrDyn) (s : State) (h : i ≠ j) : brDynAt (modBrDyn i f s) j = brDynAt s j :=
  tget_tmod_ne _ _ _ _ _ h
@[simp] theorem diAt_modDi_same (i : Nat) (f : Di → Di) (s : State) : diAt (modDi i f s) i = f (diAt s i) :=
  tget_tmod_same _ _ _ _
theorem diAt_modDi_ne (i j : Nat) (f : Di → Di) (s : State) (h : i ≠ j) : diAt (modDi i f s) j = diAt s j :=
  tget_tmod_ne _ _ _ _ _ h
@[simp] theorem foAt_modFo_same (i : Nat) (f : Fo → Fo) (s : State) : foAt (modFo i f s) i = f (foAt s i) :=
  tget_tmod_same _ _ _ _
theorem foAt_modFo_ne (i j : Nat) (f : Fo → Fo) (s : State) (h : i ≠ j) : foAt (modFo i f s) j = foAt s j :=
  tget_tmod_ne _ _ _ _ _ h
@[simp] theorem bankAt_modBank_same (i : Nat) (f : FoBank → FoBank) (s : State) : bankAt (modBank i f s) i = f (bankAt s i) :=
  tget_tmod_same _ _ _ _
theorem bankAt_modBank_ne (i j : Nat) (f : FoBank → FoBank) (s : State) (h : i ≠ j) : bankAt (modBank i f s) j = bankAt s j :=
  tget_tmod_ne _ _ _ _ _ h
@[simp] theorem aiAt_modAi_same (i : Nat) (f : Ai → Ai) (s : State) : aiAt (modAi i f s) i = f (aiAt s i) :=
  tget_tmod_same _ _ _ _
theorem aiAt_modAi_ne (i j : Nat) (f : Ai → Ai) (s : State) (h : i ≠ j) : aiAt (modAi i f s) j = aiAt s j :=
  tget_tmod_ne _ _ _ _ _ h
@[simp] theorem supAt_modSup_same (i : Nat) (f : Sup → Sup) (s : State) : supAt (modSup i f s) i = f (supAt s i) :=
  tget_tmod_same _ _ _ _
theorem supAt_modSup_ne (i j : Nat) (f : Sup → Sup) (s : State) (h : i ≠ j) : supAt (modSup i f s) j = supAt s j :=
  tget_tmod_ne _ _ _ _ _ h
@[simp] theorem tempAt_modTemp_same (i : Nat) (f : (List (Nat × Int)) → (List (Nat × Int))) (s : State) : tempAt (modTemp i f s) i = f (tempAt s i) :=
  tget_tmod_same _ _ _ _
theorem tempAt_modTemp_ne (i j : Nat) (f : (List (Nat × Int)) → (List (Nat × Int))) (s : State) (h : i ≠ j) : tempAt (modTemp i f s) j = tempAt s j :=
  tget_tmod_ne _ _ _ _ _ h
@[simp] theorem canAt_modCanCh_same (i : Nat) (f : CanCh → CanCh) (s : State) : canAt (modCanCh i f s) i = f (canAt s i) :=
  tget_tmod_same _ _ _ _
theorem canAt_modCanCh_ne (i j : Nat) (f : CanCh → CanCh) (s : State) (h : i ≠ j) : canAt (modCanCh i f s) j = canAt s j :=
  tget_tmod_ne _ _ _ _ _ h
@[simp] theorem filterAt_modFilter_same (i : Nat) (f : CanFilter → CanFilter) (s : State) : filterAt (modFilter i f s) i = f (filterAt s i) :=
  tget_tmod_same _ _ _ _
theorem filterAt_modFilter_ne (i j : Nat) (f : CanFilter → CanFilter) (s : State) (h : i ≠ j) : filterAt (modFilter i f s) j = filterAt s j :=
  tget_tmod_ne _ _ _ _ _ h
@[simp] theorem cschedAt_modCsched_same (i : Nat) (f : CanSched → CanSched) (s : State) : cschedAt (modCsched i f s) i = f (cschedAt s i) :=
  tget_tmod_same _ _ _ _
theorem cschedAt_modCsched_ne (i j : Nat) (f : CanSched → CanSched) (s : State) (h : i ≠ j) : cschedAt (modCsched i f s) j = cschedAt s j :=
  tget_tmod_ne _ _ _ _ _ h
@[simp] theorem linAt_modLinCh_same (i : Nat) (f : LinCh → LinCh) (s : State) : linAt (modLinCh i f s) i = f (linAt s i) :=
  tget_tmod_same _ _ _ _
theorem linAt_modLinCh_ne (i j : Nat) (f : LinCh → LinCh) (s : State) (h : i ≠ j) : linAt (modLinCh i f s) j = linAt s j :=
  tget_tmod_ne _ _ _ _ _ h
@[simp] theorem linFrameAt_modLinFrame_same (i : Nat) (f : LinFrame → LinFrame) (s : State) : linFrameAt (modLinFrame i f s) i = f (linFrameAt s i) :=
  tget_tmod_same _ _ _ _
theorem linFrameAt_modLinFrame_ne (i j : Nat) (f : LinFrame → LinFrame) (s : State) (h : i ≠ j) : linFrameAt (modLinFrame i f s) j = linFrameAt s j :=
  tget_tmod_ne _ _ _ _ _ h
@[simp] theorem linSlotAt_modLinSlot_same (i : Nat) (f : LinSlot → LinSlot) (s : State) : linSlotAt (modLinSlot i f s) i = f (linSlotAt s i) :=
  tget_tmod_same _ _ _ _
theorem linSlotAt_modLinSlot_ne (i j : Nat) (f : LinSlot → LinSlot) (s : State) (h : i ≠ j) : linSlotAt (modLinSlot i f s) j = linSlotAt s j :=
  tget_tmod_ne _ _ _ _ _ h
@[simp] theorem nmcAt_modNmc_same (i : Nat) (f : NmCluster → NmCluster) (s : State) : nmcAt (modNmc i f s) i = f (nmcAt s i) :=
  tget_tmod_same _ _ _ _
theorem nmcAt_modNmc_ne (i j : Nat) (f : NmCluster → NmCluster) (s : State) (h : i ≠ j) : nmcAt (modNmc i f s) j = nmcAt s j :=
  tget_tmod_ne _ _ _ _ _ h
@[simp] theorem canWakeAt_modCanWake_same (i : Nat) (f : CanWake → CanWake) (s : State) : canWakeAt (modCanWake i f s) i = f (canWakeAt s i) :=
  tget_tmod_same _ _ _ _
theorem canWakeAt_modCanWake_ne (i j : Nat) (f : CanWake → CanWake) (s : State) (h : i ≠ j) : canWakeAt (modCanWake i f s) j = canWakeAt s j :=
  tget_tmod_ne _ _ _ _ _ h
@[simp] theorem t1At_modT1_same (i : Nat) (f : T1 → T1) (s : State) : t1At (modT1 i f s) i = f (t1At s i) :=
  tget_tmod_same _ _ _ _
theorem t1At_modT1_ne (i j : Nat) (f : T1 → T1) (s : State) (h : i ≠ j) : t1At (modT1 i f s) j = t1At s j :=
  tget_tmod_ne _ _ _ _ _ h
@[simp] theorem routeAt_modRoute_same (i : Nat) (f : Route → Route) (s : State) : routeAt (modRoute i f s) i = f (routeAt s i) :=
  tget_tmod_same _ _ _ _
theorem routeAt_modRoute_ne (i j : Nat) (f : Route → Route) (s : State) (h : i ≠ j) : routeAt (modRoute i f s) j = routeAt s j :=
  tget_tmod_ne _ _ _ _ _ h
@[simp] theorem talkerAt_modTalker_same (i : Nat) (f : Talker → Talker) (s : State) : talkerAt (modTalker i f s) i = f (talkerAt s i) :=
  tget_tmod_same _ _ _ _
theorem talkerAt_modTalker_ne (i j : Nat) (f : Talker → Talker) (s : State) (h : i ≠ j) : talkerAt (modTalker i f s) j = talkerAt s j :=
  tget_tmod_ne _ _ _ _ _ h
@[simp] theorem listenerAt_modListener_same (i : Nat) (f : Listener → Listener) (s : State) : listenerAt (modListener i f s) i = f (listenerAt s i) :=
  tget_tmod_same _ _ _ _
theorem listenerAt_modListener_ne (i j : Nat) (f : Listener → Listener) (s : State) (h : i ≠ j) : listenerAt (modListener i f s) j = listenerAt s j :=
  tget_tmod_ne _ _ _ _ _ h
@[simp] theorem busSrcAt_modBusSrc_same (i : Nat) (f : BusSrc → BusSrc) (s : State) : busSrcAt (modBusSrc i f s) i = f (busSrcAt s i) :=
  tget_tmod_same _ _ _ _
theorem busSrcAt_modBusSrc_ne (i j : Nat) (f : BusSrc → BusSrc) (s : State) (h : i ≠ j) : busSrcAt (modBusSrc i f s) j = busSrcAt s j :=
  tget_tmod_ne _ _ _ _ _ h
@[simp] theorem ctxAt_modCtx_same (i : Nat) (f : Ctx → Ctx) (s : State) : ctxAt (modCtx i f s) i = f (ctxAt s i) :=
  tget_tmod_same _ _ _ _
theorem ctxAt_modCtx_ne (i j : Nat) (f : Ctx → Ctx) (s : State) (h : i ≠ j) : ctxAt (modCtx i f s) j = ctxAt s j :=
  tget_tmod_ne _ _ _ _ _ h
@[simp] theorem awakeAt_modAwake_same (i : Nat) (f : Awake → Awake) (s : State) : awakeAt (modAwake i f s) i = f (awakeAt s i) :=
  tget_tmod_same _ _ _ _
theorem awakeAt_modAwake_ne (i j : Nat) (f : Awake → Awake) (s : State) (h : i ≠ j) : awakeAt (modAwake i f s) j = awakeAt s j :=
  tget_tmod_ne _ _ _ _ _ h
@[simp] theorem bankImgAt_modBankImg_same (i : Nat) (f : Bank → Bank) (s : State) : bankImgAt (modBankImg i f s) i = f (bankImgAt s i) :=
  tget_tmod_same _ _ _ _
theorem bankImgAt_modBankImg_ne (i j : Nat) (f : Bank → Bank) (s : State) (h : i ≠ j) : bankImgAt (modBankImg i f s) j = bankImgAt s j :=
  tget_tmod_ne _ _ _ _ _ h
@[simp] theorem slotImgAt_modSlotImg_same (i : Nat) (f : Slot → Slot) (s : State) : slotImgAt (modSlotImg i f s) i = f (slotImgAt s i) :=
  tget_tmod_same _ _ _ _
theorem slotImgAt_modSlotImg_ne (i j : Nat) (f : Slot → Slot) (s : State) (h : i ≠ j) : slotImgAt (modSlotImg i f s) j = slotImgAt s j :=
  tget_tmod_ne _ _ _ _ _ h
@[simp] theorem portAt_modPort_same (i : Nat) (f : Port → Port) (s : State) : portAt (modPort i f s) i = f (portAt s i) :=
  tget_tmod_same _ _ _ _
theorem portAt_modPort_ne (i j : Nat) (f : Port → Port) (s : State) (h : i ≠ j) : portAt (modPort i f s) j = portAt s j :=
  tget_tmod_ne _ _ _ _ _ h
@[simp] theorem hfAt_modHf_same (i : Nat) (f : HostFilter → HostFilter) (s : State) : hfAt (modHf i f s) i = f (hfAt s i) :=
  tget_tmod_same _ _ _ _
theorem hfAt_modHf_ne (i j : Nat) (f : HostFilter → HostFilter) (s : State) (h : i ≠ j) : hfAt (modHf i f s) j = hfAt s j :=
  tget_tmod_ne _ _ _ _ _ h
@[simp] theorem hringAt_modHring_same (i : Nat) (f : HostRing → HostRing) (s : State) : hringAt (modHring i f s) i = f (hringAt s i) :=
  tget_tmod_same _ _ _ _
theorem hringAt_modHring_ne (i j : Nat) (f : HostRing → HostRing) (s : State) (h : i ≠ j) : hringAt (modHring i f s) j = hringAt s j :=
  tget_tmod_ne _ _ _ _ _ h
@[simp] theorem saAt_modSa_same (i : Nat) (f : Sa → Sa) (s : State) : saAt (modSa i f s) i = f (saAt s i) :=
  tget_tmod_same _ _ _ _
theorem saAt_modSa_ne (i j : Nat) (f : Sa → Sa) (s : State) (h : i ≠ j) : saAt (modSa i f s) j = saAt s j :=
  tget_tmod_ne _ _ _ _ _ h
@[simp] theorem secyAt_modSecy_same (i : Nat) (f : SecY → SecY) (s : State) : secyAt (modSecy i f s) i = f (secyAt s i) :=
  tget_tmod_same _ _ _ _
theorem secyAt_modSecy_ne (i j : Nat) (f : SecY → SecY) (s : State) (h : i ≠ j) : secyAt (modSecy i f s) j = secyAt s j :=
  tget_tmod_ne _ _ _ _ _ h
@[simp] theorem swAt_modSw_same (i : Nat) (f : SwPort → SwPort) (s : State) : swAt (modSw i f s) i = f (swAt s i) :=
  tget_tmod_same _ _ _ _
theorem swAt_modSw_ne (i j : Nat) (f : SwPort → SwPort) (s : State) (h : i ≠ j) : swAt (modSw i f s) j = swAt s j :=
  tget_tmod_ne _ _ _ _ _ h
@[simp] theorem vlanAt_modVlan_same (i : Nat) (f : Vlan → Vlan) (s : State) : vlanAt (modVlan i f s) i = f (vlanAt s i) :=
  tget_tmod_same _ _ _ _
theorem vlanAt_modVlan_ne (i j : Nat) (f : Vlan → Vlan) (s : State) (h : i ≠ j) : vlanAt (modVlan i f s) j = vlanAt s j :=
  tget_tmod_ne _ _ _ _ _ h
@[simp] theorem fdbAt_modFdb_same (i : Nat) (f : Fdb → Fdb) (s : State) : fdbAt (modFdb i f s) i = f (fdbAt s i) :=
  tget_tmod_same _ _ _ _
theorem fdbAt_modFdb_ne (i j : Nat) (f : Fdb → Fdb) (s : State) (h : i ≠ j) : fdbAt (modFdb i f s) j = fdbAt s j :=
  tget_tmod_ne _ _ _ _ _ h
@[simp] theorem queueAt_modQueue_same (i : Nat) (f : Queue → Queue) (s : State) : queueAt (modQueue i f s) i = f (queueAt s i) :=
  tget_tmod_same _ _ _ _
theorem queueAt_modQueue_ne (i j : Nat) (f : Queue → Queue) (s : State) (h : i ≠ j) : queueAt (modQueue i f s) j = queueAt s j :=
  tget_tmod_ne _ _ _ _ _ h
@[simp] theorem gateAt_modGate_same (i : Nat) (f : Gate → Gate) (s : State) : gateAt (modGate i f s) i = f (gateAt s i) :=
  tget_tmod_same _ _ _ _
theorem gateAt_modGate_ne (i j : Nat) (f : Gate → Gate) (s : State) (h : i ≠ j) : gateAt (modGate i f s) j = gateAt s j :=
  tget_tmod_ne _ _ _ _ _ h
@[simp] theorem streamAt_modStream_same (i : Nat) (f : Stream → Stream) (s : State) : streamAt (modStream i f s) i = f (streamAt s i) :=
  tget_tmod_same _ _ _ _
theorem streamAt_modStream_ne (i j : Nat) (f : Stream → Stream) (s : State) (h : i ≠ j) : streamAt (modStream i f s) j = streamAt s j :=
  tget_tmod_ne _ _ _ _ _ h
@[simp] theorem hostqAt_modHostq_same (i : Nat) (f : (List Copy) → (List Copy)) (s : State) : hostqAt (modHostq i f s) i = f (hostqAt s i) :=
  tget_tmod_same _ _ _ _
theorem hostqAt_modHostq_ne (i j : Nat) (f : (List Copy) → (List Copy)) (s : State) (h : i ≠ j) : hostqAt (modHostq i f s) j = hostqAt s j :=
  tget_tmod_ne _ _ _ _ _ h
@[simp] theorem keyAt_modKey_same (i : Nat) (f : Key → Key) (s : State) : keyAt (modKey i f s) i = f (keyAt s i) :=
  tget_tmod_same _ _ _ _
theorem keyAt_modKey_ne (i j : Nat) (f : Key → Key) (s : State) (h : i ≠ j) : keyAt (modKey i f s) j = keyAt s j :=
  tget_tmod_ne _ _ _ _ _ h
@[simp] theorem boxAt_modBox_same (i : Nat) (f : LhBox → LhBox) (s : State) : boxAt (modBox i f s) i = f (boxAt s i) :=
  tget_tmod_same _ _ _ _
theorem boxAt_modBox_ne (i j : Nat) (f : LhBox → LhBox) (s : State) (h : i ≠ j) : boxAt (modBox i f s) j = boxAt s j :=
  tget_tmod_ne _ _ _ _ _ h
@[simp] theorem coreAt_modCore_same (i : Nat) (f : Core → Core) (s : State) : coreAt (modCore i f s) i = f (coreAt s i) :=
  tget_tmod_same _ _ _ _
theorem coreAt_modCore_ne (i j : Nat) (f : Core → Core) (s : State) (h : i ≠ j) : coreAt (modCore i f s) j = coreAt s j :=
  tget_tmod_ne _ _ _ _ _ h
@[simp] theorem logicalAt_modLogical_same (i : Nat) (f : Logical → Logical) (s : State) : logicalAt (modLogical i f s) i = f (logicalAt s i) :=
  tget_tmod_same _ _ _ _
theorem logicalAt_modLogical_ne (i j : Nat) (f : Logical → Logical) (s : State) (h : i ≠ j) : logicalAt (modLogical i f s) j = logicalAt s j :=
  tget_tmod_ne _ _ _ _ _ h
@[simp] theorem partAt_modPart_same (i : Nat) (f : Part → Part) (s : State) : partAt (modPart i f s) i = f (partAt s i) :=
  tget_tmod_same _ _ _ _
theorem partAt_modPart_ne (i j : Nat) (f : Part → Part) (s : State) (h : i ≠ j) : partAt (modPart i f s) j = partAt s j :=
  tget_tmod_ne _ _ _ _ _ h
@[simp] theorem tpAt_modTpt_same (i : Nat) (f : TowPort → TowPort) (s : State) : tpAt (modTpt i f s) i = f (tpAt s i) :=
  tget_tmod_same _ _ _ _
theorem tpAt_modTpt_ne (i j : Nat) (f : TowPort → TowPort) (s : State) (h : i ≠ j) : tpAt (modTpt i f s) j = tpAt s j :=
  tget_tmod_ne _ _ _ _ _ h
@[simp] theorem bargeAt_modBarge_same (i : Nat) (f : Barge → Barge) (s : State) : bargeAt (modBarge i f s) i = f (bargeAt s i) :=
  tget_tmod_same _ _ _ _
theorem bargeAt_modBarge_ne (i j : Nat) (f : Barge → Barge) (s : State) (h : i ≠ j) : bargeAt (modBarge i f s) j = bargeAt s j :=
  tget_tmod_ne _ _ _ _ _ h
@[simp] theorem towReseqAt_modTowReseq_same (i : Nat) (f : TowReseq → TowReseq) (s : State) : towReseqAt (modTowReseq i f s) i = f (towReseqAt s i) :=
  tget_tmod_same _ _ _ _
theorem towReseqAt_modTowReseq_ne (i j : Nat) (f : TowReseq → TowReseq) (s : State) (h : i ≠ j) : towReseqAt (modTowReseq i f s) j = towReseqAt s j :=
  tget_tmod_ne _ _ _ _ _ h

end Sys2Proof.Machine
end

