-- ==== Sys2Proof/Laws/Words.lean ====
section
/-! SUPPORT. The words of the statements over the shared operations: what reports what, what is detected, what an accepted
request leads to. -/
namespace Sys2Proof.Machine

theorem with_fv_emit (code inst : Nat) (u : State) (cause flags : Nat) (value : Int) (ext : List Nat) (dest : Option Nat) (v : Fv) :
    { emit code inst u cause flags value ext dest with fv := v } = { u with fv := v } := by
  have h : ∀ a b : State, a.sys = b.sys → a.cyc = b.cyc → a.tide = b.tide → a.saf = b.saf → a.tp = b.tp → a.pow = b.pow →
      a.slu = b.slu → a.mot = b.mot → a.fio = b.fio → a.can = b.can → a.lin = b.lin → a.nm = b.nm → a.aq = b.aq → a.net = b.net →
      a.tow = b.tow → a.light = b.light → a.aps = b.aps → a.pwr = b.pwr → a.img = b.img → a.mem = b.mem → a.free = b.free →
      a.pending = b.pending → { a with fv := v } = { b with fv := v } := by
    intro a b; intros; cases a; cases b; simp_all
  apply h <;> simp

/-- One event raised last. -/
theorem reports_emit {s u : State} (h : u.fv = s.fv) (code inst cause flags : Nat) (value : Int) (ext : List Nat) (dest : Option Nat) :
    reports (fun v => emit code inst v cause flags value ext dest) s (emit code inst u cause flags value ext dest) := by
  unfold reports
  rw [with_fv_emit, ← h]

/-- Two events raised one after the other. -/
theorem reports_emit2 {s u : State} (h : u.fv = s.fv) (c i ca f : Nat) (v : Int) (x : List Nat) (d : Option Nat)
    (c' i' ca' f' : Nat) (v' : Int) (x' : List Nat) (d' : Option Nat) :
    reports (fun w => emit c' i' (emit c i w ca f v x d) ca' f' v' x' d') s
      (emit c' i' (emit c i u ca f v x d) ca' f' v' x' d') := by
  unfold reports
  rw [with_fv_emit, with_fv_emit, ← h]

theorem reports_none {s t : State} (h : t.fv = s.fv) : reports (fun v => v) s t := h

theorem faultFall_dets (s : State) : (faultFall s).saf.dets = s.saf.dets := by
  unfold faultFall modSaf; split <;> rfl

theorem safeRequest_dets (k bp : Nat) (s : State) : (safeRequest k bp s).saf.dets = s.saf.dets := by
  unfold safeRequest
  dsimp only
  split <;> split
  all_goals first | rfl | (split <;> rfl)

theorem detAt_detect (bp : Nat) (live : Bool) (s : State) : detected bp live s (detect bp live s) := by
  unfold detected detect
  by_cases hm : s.saf.mute = []
  · rw [if_pos hm, if_neg (by simp [hm])]
    have h : detAt (detectLatch bp live s) bp =
        { detAt s bp with count := sat 32 ((detAt s bp).count + 1), latched := true, active := live, lastCycle := s.cyc.number } := by
      unfold detectLatch
      simp only [detAt, faultFall_dets, emit_saf]
      simp [modDet, modSaf, tget_tmod_same]
    dsimp only
    split
    · simp only [detAt, safeRequest_dets]; exact h
    · exact h
  · rw [if_neg hm, if_pos hm]

/-- A detection last, the detectors and the breach runs before it as they were. -/
theorem detected_detect {s u : State} (h : u.saf = s.saf) (hc : u.cyc.number = s.cyc.number) (bp : Nat) (live : Bool) :
    detected bp live s (detect bp live u) := by
  have := detAt_detect bp live u
  simpa only [detected, detAt, h, hc] using this

theorem detected_detect' {s u : State} (h : u.saf.dets = s.saf.dets) (hm : u.saf.mute = s.saf.mute)
    (hc : u.cyc.number = s.cyc.number) (bp : Nat) (live : Bool) : detected bp live s (detect bp live u) := by
  have := detAt_detect bp live u
  simpa only [detected, detAt, h, hm, hc] using this

/-- An operation that leaves the detectors and the breach runs alone comes before a detection. -/
theorem detected_after {L : Region → Bool} {s u : State} (h : blank L u = blank L s) (hd : L .detect = false)
    (hb : L .breach = false) (hc : L .cyc = false) (bp : Nat) (live : Bool) : detected bp live s (detect bp live u) :=
  detected_detect' (congrArg (·.dets) (same_of_blank h .detect hd)) (congrArg (·.mute) (same_of_blank h .breach hb))
    (congrArg (·.number) (same_of_blank h .cyc hc)) bp live

theorem detected_of_saf {s t u : State} {bp : Nat} {live : Bool} (h : detected bp live s t) (e : u.saf = t.saf) : detected bp live s u := by
  simpa only [detected, detAt, e] using h

/-- A SET that passes is taken. -/
theorem cmdSet_passes {k : ClassSpec} {r : Req} {s : State} (h : SetPasses k r s) :
    cmdSet k r s = (if k.setCyc r.inst (askSet k r (received r.pound s)).part then
      stage k.code r (.set (askSet k r (received r.pound s)).part (askSet k r (received r.pound s)).writes) (taken r s)
    else match k.held r (askSet k r (received r.pound s)).part (askSet k r (received r.pound s)).writes (taken r s) with
      | some t => t
      | none => let t := applySet k r.inst (askSet k r (received r.pound s)).part (askSet k r (received r.pound s)).writes (taken r s)
        answer k.code 2 r .ok none (part0 k r.inst t) t) := by
  obtain ⟨⟨a, b, c, d, e⟩, p⟩ := h
  simp only [cmdSet, serve, a, b, c, d, e, doSet, p, taken]
  simp
  all_goals congr 1

/-- An ACT that passes is taken. -/
theorem cmdAct_passes {k : ClassSpec} {code : Nat} {r : Req} {s : State} (h : ActPasses k code r s) :
    ∃ a, actOf k (actReq code r) = some a ∧ cmdAct k code r s = (if a.cyc then
      stage k.code (actReq code r) (.act a.code ((actReq code r).payload.drop 4)) (a.taken (taken r s))
    else match a.held (actReq code r) (taken r s) with
      | some t => t
      | none => let t := a.run r.pound r.inst ((actReq code r).payload.drop 4) (taken r s)
        answer k.code 3 (actReq code r) .ok none (a.result r.inst ((actReq code r).payload.drop 4) t) t) := by
  obtain ⟨⟨h1, h2, h3, h4, h5⟩, a, ha, p⟩ := h
  refine ⟨a, ha, ?_⟩
  have e1 : (actReq code r).pound = r.pound := rfl
  have e2 : (actReq code r).tow = r.tow := rfl
  have e3 : (actReq code r).inst = r.inst := rfl
  rw [e1] at h3; rw [e2] at h4
  simp only [cmdAct, serve, h1, h2, h3, h4, h5, doAct, ha, e1, e2, p, taken, e3]
  simp
  all_goals congr 1

end Sys2Proof.Machine
end

