-- ==== Sys2Proof/Tests/Slice0.lean ====
section
/-! SUPPORT. Tests of single commands on small states, the refusals of `WellFormed`, and for every statement with
hypotheses a state and operands that meet them. -/
open Sys2Proof Sys2Proof.Machine

/-! ### Ill-formed commands: a unit the device does not have -/

theorem test_absent_units_0 : ([
  (.levelCompletionSignal 3),
  (.tsnapTake 32 false),
  (.syncReceived 9 0 0 0),
  (.syncReceiptTimeout 9),
  (.holdoverLimit 9),
  (.gptpSyncTransmit 16 0),
  (.gptpSyncTransmit 0 9),
  (.pdelayReqTransmit 16),
  (.pdelayMessageReceived 16 false 0 0 0 0 0),
  (.followUp 16),
  (.tideOutEdge 4),
  (.tideOutPulseEnd 4),
  (.tideInCapture 2 false 0),
  (.groupFallVOff 2 0),
  (.groupRiseVOff 2 0),
  (.groupFallVFull 2 0),
  (.groupRiseVFull 2 0),
  (.groupRiseVOv 2 0),
  (.groupFallVOv 2 0),
  (.segmentFailure 32 0),
  (.stuckTestEnd 32 0 0),
  (.inrushWindowEnd 76),
  (.chargeComplete 76),
  (.chargeTimeLimit 32 0)] : List Instr).all (fun i => !i.wellFormed) = true := by decide

theorem test_absent_units_1 : ([
  (.chargeEnergyLimit 32 0),
  (.shortTrip 76 0 0),
  (.currentLimitOnset 76 0),
  (.limitTimerExpiry 76 0 0),
  (.limitTimerClear 76),
  (.cliffLatchSet 76 0 0),
  (.cliffLatchRearm 76),
  (.reverseTrip 32 0 0),
  (.reverseFlag 76),
  (.openLoadOn 76),
  (.offDiagStart 76),
  (.offDiagEnd 76 0 0),
  (.retryDelayEnd 76),
  (.cleanTimeElapsed 76),
  (.patienceElapsed 76),
  (.adcReferenceFailure 5 false 0),
  (.adcCrossCheckFailure 76),
  (.hostAmbientStale 32),
  (.fallbackTrip 76 0 0),
  (.budgetRestore 4),
  (.budgetFail 4),
  (.reversalBrakeEnd 6),
  (.regulationChop 6),
  (.rippleCrossing 6 0 0 0 0)] : List Instr).all (fun i => !i.wellFormed) = true := by decide

theorem test_absent_units_2 : ([
  (.rippleInsertion 6 0),
  (.backEmfStop 6),
  (.stall 6 0),
  (.pinchBrakeEnd 6),
  (.brakeHoldEnd 6 0),
  (.foThermalShutdown 16),
  (.foThermalRestart 16),
  (.foLimitHeld 16),
  (.silenceExpiry 16),
  (.supLimit 4),
  (.supShortBat 4),
  (.supThermal 4),
  (.supRetry 4),
  (.supClean 4),
  (.canFrameReceived 12 {} 0 0 none),
  (.canTransmitOpportunity 12 false 0),
  (.canTxSuccess 12 0 0),
  (.canArbitrationLost 12),
  (.canError 12 { tx := false, kind := 0 }),
  (.canTxDeadline 12),
  (.canModeChange 12),
  (.busIntegration 12),
  (.recoveryRequest 12),
  (.recoveryComplete 12)] : List Instr).all (fun i => !i.wellFormed) = true := by decide

theorem test_absent_units_3 : ([
  (.recoveryWaitReport 12),
  (.boffRunReset 12),
  (.controllerSwap 12),
  (.canDominantTimeout 12),
  (.canWake 12 .badFrame),
  (.linWake 8 0),
  (.linSlotStart 8),
  (.linResponseReceived 8 0 [] 0 0 0),
  (.linNoResponse 8),
  (.linGoToSleepReceived 8),
  (.linBusIdle 8),
  (.linWakeRetry 8),
  (.linScheduleResume 8),
  (.nmPduReceived 32 0 false []),
  (.repeatTimeEnd 32),
  (.nmTimeout 32),
  (.waitTimeEnd 32),
  (.keepWatch 32),
  (.tc10SleepAck 8),
  (.tc10AckTimeout 8),
  (.tc10PeerSleepRequest 8),
  (.tc10Wake 8),
  (.portLinkChange 12 false 0 0),
  (.ethFrameReceived 12 {} 0 false none)] : List Instr).all (fun i => !i.wellFormed) = true := by decide

theorem test_absent_units_4 : ([
  (.plcaBeaconTimeout 12),
  (.plcaBeaconReceived 12),
  (.ethFrameTransmit 16 0 false),
  (.txFrameFetch 32 0),
  (.txFrameFetch 0 8),
  (.eopTimeout 32 0),
  (.eopTimeout 0 8),
  (.ts2Timeout 32 0 0),
  (.ts2Timeout 0 8 0),
  (.transmissionSelection 16),
  (.gateIntervalEnd 16),
  (.overflowFetchBack 128),
  (.streamRecoveryReset 256),
  (.resequencerTimeout 256),
  (.desyncResponse 32 []),
  (.runSet 64),
  (.runClear 64),
  (.commandDoorbell 64 0),
  (.commandFetch 64 []),
  (.responseHeadWrite 64 0),
  (.eventHeadWrite 64 0),
  (.receiveRingPost 64 0 0 []),
  (.receiveRingPost 0 4 0 []),
  (.transmitRingDoorbell 64 0 0 [])] : List Instr).all (fun i => !i.wellFormed) = true := by decide

theorem test_absent_units_5 : ([
  (.transmitRingDoorbell 0 8 0 []),
  (.causeClear 64 0 0),
  (.registerWrite 64 0 0 false),
  (.outboundDoorbell 32),
  (.interruptModerationEnd 64 0),
  (.interruptModerationEnd 0 4),
  (.dmaReadTimeout 64 0 []),
  (.dmaReadTimeout 0 11 []),
  (.dmaReadError 64 0 []),
  (.dmaReadError 0 11 []),
  (.dmaWriteFailure 64 0),
  (.dmaWriteFailure 0 11),
  (.functionLevelReset 32),
  (.segmentTimeout 32),
  (.suppressionWindowClose 32 0 0),
  (.poundResetComplete 32),
  (.ownershipTransfer 32),
  (.slotStart 5 0),
  (.slotStart 0 16),
  (.coreMismatch 7 false false false),
  (.lbistComplete 5 false),
  (.sramUncorrectable 0 none false 3 false),
  (.accessFault 32 0 0),
  (.accessFault 0 0 3)] : List Instr).all (fun i => !i.wellFormed) = true := by decide

theorem test_absent_units_6 : ([
  (.towlineLinkUp 2),
  (.towlineLinkDown 2),
  (.towlineFrameGap 2 false none),
  (.dataFrameReceived 2 0 { body := .block 0 1 }),
  (.favalFrameReceived 2 0 { body := .block 0 1 }),
  (.postFrameReceived 2 0 { body := .block 0 1 } false),
  (.noteFrameReceived 2 0 { body := .block 0 1 }),
  (.lateFrameReceived 2 0 { body := .block 0 1 }),
  (.beatReceived 2 0 { body := .block 0 1 } false),
  (.enumReceived 2 0 { body := .block 0 1 } false false),
  (.enumAckReceived 2 0 { body := .block 0 1 }),
  (.assignReceived 2 0 { body := .block 0 1 }),
  (.topoReceived 2 0 { body := .block 0 1 }),
  (.creditReceived 2 0 { body := .block 0 1 }),
  (.revertHoldEnd 2),
  (.towlineReseqTimeout 64 0),
  (.towlineReseqTimeout 0 2),
  (.lhEncrypt 32 {}),
  (.lhDecrypt 32 {}),
  (.lhMacGen 32 {}),
  (.lhMacVerify 32 {}),
  (.lhHash 32 {}),
  (.lhSign 32 {}),
  (.lhVerify 32 {})] : List Instr).all (fun i => !i.wellFormed) = true := by decide

theorem test_absent_units_7 : ([
  (.lhAgree 32 {}),
  (.lhRandom 32 {}),
  (.lhClear 32),
  (.lhRequestComplete 32 0 false),
  (.blockHandover 3 0),
  (.blockReturn 3),
  (.vioMon 5 false),
  (.awakeThreshold 2 0 false),
  (.startFailure 8),
  (.gptpAnnounceReceived 9 0 0 []),
  (.gptpAnnounceReceived 0 16 0 []),
  (.linHeaderReceived 8 0 0),
  (.supplyRailRecovery 5),
  (.creditWaitExpiry 2),
  (.addressResolutionRequest 4 0 0),
  (.debugHalt 5),
  (.debugResume 5),
  (.shaperCreditRecovery 16 0),
  (.shaperCreditRecovery 0 8)] : List Instr).all (fun i => !i.wellFormed) = true := by decide

/-! ### Ill-formed requests and towline frames (R391, R393, R497) -/

theorem test_pound_out_of_range : Instr.wellFormed (.cycleSet { pound := 32 }) = false := by decide
theorem test_tow_out_of_range : Instr.wellFormed (.timeSet { pound := 0, tow := 64 }) = false := by decide
theorem test_instance_out_of_range : Instr.wellFormed (.chanSet { pound := 0, inst := 0x40000 }) = false := by decide
theorem test_tag_out_of_range : Instr.wellFormed (.wireSet { pound := 0, tag := 0x10000 }) = false := by decide
theorem test_payload_too_long : Instr.wellFormed (.paddleSet { pound := 0, payload := List.replicate 4081 0 }) = false := by decide +kernel
theorem test_payload_at_its_limit : Instr.wellFormed (.paddleSet { pound := 0, payload := List.replicate 4080 0 }) = true := by decide +kernel
theorem test_frame_channel_out_of_range : Instr.wellFormed (.creditReceived 0 0 { vc := 4, body := .block 0 1 }) = false := by decide
theorem test_frame_source_out_of_range : Instr.wellFormed (.creditReceived 0 0 { src := 64, body := .block 0 1 }) = false := by decide
theorem test_frame_destination_out_of_range : Instr.wellFormed (.creditReceived 0 0 { dst := 64, body := .block 0 1 }) = false := by decide
theorem test_frame_sequence_out_of_range : Instr.wellFormed (.creditReceived 0 0 { seq := 0x10000, body := .block 0 1 }) = false := by decide
theorem test_frame_well_formed : Instr.wellFormed (.creditReceived 0 0 { vc := 3, src := 63, dst := 63, seq := 0xFFFF, body := .block 0 1 }) = true := by decide

/-! ### The table gives no row any bits -/

theorem test_no_word_spells_a_command : decodeTableWord 32 0 = none := rfl
theorem test_a_word_leaves_the_queue : (State.reset.withFetchWord 32 0).pending = [] := rfl

/-! ### The tables of TABLE_ECC (R553) -/

theorem test_table_entries_out_of_range : ([.tableEcc 0 4096 false, .tableEcc 1 0x4000 false, .tableEcc 2 0x2000 false,
  .tableEcc 3 0 false, .tableEcc 3 4095 false, .tableEcc 4 0 false] : List Instr).all (fun i => !i.wellFormed) = true := by decide

/-! ### States and requests the witnesses use -/

/-- A state in which the firmware runs, the start is complete and the host pound sends. -/
def live : State := { State.reset with
  fv := { State.reset.fv with fw := true, started := true, pounds := [(0, { kind := 1, state := .running })] } }

/-- A SET that names every field of a record and leaves each as it stands in `s`. -/
def asIs (k : ClassSpec) (s : State) (inst part : Nat) : Req :=
  let rc := (k.record inst part).getD { len := 0, flds := [] }
  { pound := 0, tow := s.sys.tow, inst := inst
    payload := leBytes 2 part ++ leBytes 2 0 ++ leBytes 2 rc.len ++ leBytes 2 0 ++ (encodeRec rc s).take rc.len }

/-- An ACT of the host pound with its argument. -/
def actWith (inst : Nat) (arg : List Byte) : Req := { pound := 0, inst := inst, payload := arg }

def heardB (k : ClassSpec) (verb : Nat) (r : Req) (s : State) : Bool :=
  s.fv.fw && !s.img.shut && decide ((poundAt s r.pound).state = .running) && decide (r.tow = s.sys.tow) &&
  decide (gate k verb r s = .ok)

theorem heard_of {k : ClassSpec} {verb : Nat} {r : Req} {s : State} (h : heardB k verb r s = true) : Heard k verb r s := by
  simp only [heardB, Bool.and_eq_true, decide_eq_true_eq, Bool.not_eq_true'] at h
  exact ⟨h.1.1.1.1, h.1.1.1.2, h.1.1.2, h.1.2, h.2⟩

theorem sets {k : ClassSpec} {r : Req} {s : State} (h : heardB k 2 r s = true)
    (p : orLate k 2 r (received r.pound s) (setStatus k r (askSet k r (received r.pound s)) (received r.pound s)) = .ok) :
    SetPasses k r s := ⟨heard_of h, p⟩

theorem acts {k : ClassSpec} {code : Nat} {r : Req} {s : State} (h : heardB k 3 (actReq code r) s = true)
    (p : (match actOf k (actReq code r) with
      | some a => decide (orLate k 3 (actReq code r) (received r.pound s) (actStatus a (actReq code r) (received r.pound s)) = .ok)
      | none => false) = true) : ActPasses k code r s := by
  refine ⟨heard_of h, ?_⟩
  split at p
  · rename_i a ha
    exact ⟨a, ha, of_decide_eq_true p⟩
  · cases p

/-- A chart that keeps every rule: wire type 0 valid with heat capacities, a bundle, and temperatures for every channel. -/
def goodChart : List ChartItem := ChartItem.record 0x11 0 0 [(0, 1), (112, 100000), (160, 100000)] ::
  ChartItem.record 0x11 0x100 0 [(64, 100000)] :: (List.range 76).map (fun i => ChartItem.record 0x11 (0x200 + i) 0 [(16, 90000), (64, 70000), (112, 60000)])


/-! ### Witnesses of the hypotheses -/

theorem witness_StepRunsTheFrontCommand :
    ({ State.reset with pending := [.heartbeat] } : State).pending = .heartbeat :: [] := by decide

theorem witness_EmptyQueueTicks : State.reset.pending = [] := by decide

theorem witness_EveryStepKeepsInvariant : ({ State.reset with pending := [.groupRiseVFull 0 12000000] } : State).pending.all
    (fun c => Sys2Proof.Instr.wellFormed c) = true ∧ Memory.wf State.reset.mem = true := by decide

theorem witness_EveryCommandFrame : (match exec (.currentLimitOnset 3 0) State.reset with | .next _ => true | _ => false) = true := by
  decide

theorem witness_StopsOnlyOnAbsentUnits : (Instr.currentLimitOnset 76 0).unitOk = false ∧ (Instr.currentLimitOnset 75 0).unitOk = true := by
  decide

theorem witness_ChannelTimersAndLatches :
    (75 < 76) := by
  decide

theorem witness_AnalogueTripsTurnOffAtOnce :
    (75 < 76) ∧
    (31 < 32) := by
  decide

theorem witness_GroupVoltageBands :
    (1 < 2) := by
  decide

theorem witness_SegmentsAndDiagnosis :
    (31 < 32 ∧ 4 ≤ chNominal 31) ∧
    (75 < 76) := by
  decide

theorem witness_CliffLatch :
    (75 < 76) := by
  decide

theorem witness_PhasesOfTheLockCycle :
    (({ State.reset with cyc := { State.reset.cyc with running := true } }).cyc.running = true) ∧
    (2 < 3) := by
  decide

theorem witness_SilenceTimersRefreshed :
    (({ State.reset with cyc := { State.reset.cyc with running := true } }).cyc.running = true) := by
  decide

theorem witness_ApplyPhase :
    (({ State.reset with cyc := { State.reset.cyc with running := true } }).cyc.running = true) ∧
    (({ State.reset with cyc := { State.reset.cyc with running := true } }).tow.reseqs = []) := by
  decide

theorem witness_StoppedTimerHasNoPhases :
    (State.reset.cyc.running = false) := by
  decide

theorem witness_BoundaryBeginsTheNextCycle :
    (({ State.reset with cyc := { State.reset.cyc with running := true } }).cyc.running = true) := by
  decide

theorem witness_SnapshotsAndTimePins :
    (31 < 32) ∧
    (3 < 4) ∧
    ((toutAt State.reset 3).waiting = none) ∧
    (1 < 2) ∧
    (({ State.reset with pwr := { State.reset.pwr with keeper := true } }).pwr.keeper = true) ∧
    (railOk ({ State.reset with pwr := { State.reset.pwr with keeper := true } }) 3 = true) ∧
    (∀ n, (tinAt ({ State.reset with pwr := { State.reset.pwr with keeper := true } }) 1).lastCtr = some n → n + 100 ≤ ({ State.reset with pwr := { State.reset.pwr with keeper := true } }).tide.counter) := by
  decide

theorem witness_ClockServo :
    (8 ≤ 8) ∧
    (8 ≤ 8 ∧ 3 < 16) ∧
    (((modGport 3 (fun g => { g with role := 2 }) State.reset)).tide.extPorts = true) ∧
    ((gportAt ((modGport 3 (fun g => { g with role := 2 }) State.reset)) 3).role = 2) := by
  decide

theorem witness_GptpMessages :
    (15 < 16 ∧ 8 ≤ 8) ∧
    (15 < 16) ∧
    (({ State.reset with pwr := { State.reset.pwr with keeper := true } }).pwr.keeper = true) := by
  decide

theorem witness_DigitisersAndSensors :
    (4 < 5) ∧
    (({ State.reset with pwr := { State.reset.pwr with keeper := true } }).pwr.keeper = true) ∧
    (75 < 76) ∧
    (31 < 32) := by
  decide

theorem witness_SilenceAndBudgets :
    (3 < 4) := by
  decide

theorem witness_MotionOfABridge :
    (5 < 6) ∧
    ((brAt ((modBrPar 5 (fun p => { p with fMin := 1, fMax := 1000 }) (modBrDyn 5 (fun d => { d with counting := true }) (modBr 5 (fun x => { x with rippleEn := true, hbA := 0, hbB := 1 }) State.reset)))) 5).rippleEn = true ∧ paired ((modBrPar 5 (fun p => { p with fMin := 1, fMax := 1000 }) (modBrDyn 5 (fun d => { d with counting := true }) (modBr 5 (fun x => { x with rippleEn := true, hbA := 0, hbB := 1 }) State.reset)))) 5 = true ∧ (brDynAt ((modBrPar 5 (fun p => { p with fMin := 1, fMax := 1000 }) (modBrDyn 5 (fun d => { d with counting := true }) (modBr 5 (fun x => { x with rippleEn := true, hbA := 0, hbB := 1 }) State.reset)))) 5).counting = true) ∧
    (excursionOk ((modBrPar 5 (fun p => { p with fMin := 1, fMax := 1000 }) (modBrDyn 5 (fun d => { d with counting := true }) (modBr 5 (fun x => { x with rippleEn := true, hbA := 0, hbB := 1 }) State.reset)))) 5 90000 3 = true) ∧
    (gateOk (brParAt ((modBrPar 5 (fun p => { p with fMin := 1, fMax := 1000 }) (modBrDyn 5 (fun d => { d with counting := true }) (modBr 5 (fun x => { x with rippleEn := true, hbA := 0, hbB := 1 }) State.reset)))) 5) (brDynAt ((modBrPar 5 (fun p => { p with fMin := 1, fMax := 1000 }) (modBrDyn 5 (fun d => { d with counting := true }) (modBr 5 (fun x => { x with rippleEn := true, hbA := 0, hbB := 1 }) State.reset)))) 5) 7000000 = true) ∧
    ((brAt ((modBrPar 5 (fun p => { p with fMin := 1, fMax := 1000 }) (modBrDyn 5 (fun d => { d with counting := true }) (modBr 5 (fun x => { x with rippleEn := true, hbA := 0, hbB := 1 }) State.reset)))) 5).pinchEn = false) ∧
    ((brDynAt ((modBrPar 5 (fun p => { p with fMin := 1, fMax := 1000 }) (modBrDyn 5 (fun d => { d with counting := true }) (modBr 5 (fun x => { x with rippleEn := true, hbA := 0, hbB := 1 }) State.reset)))) 5).seq = .none) ∧
    ((brAt ((modBrDyn 5 (fun d => { d with counting := true, accepted := 4, ivals := [7, 7, 7, 7] }) (modBr 5 (fun x => { x with rippleEn := true, hbA := 0, hbB := 1 }) State.reset))) 5).rippleEn = true ∧ paired ((modBrDyn 5 (fun d => { d with counting := true, accepted := 4, ivals := [7, 7, 7, 7] }) (modBr 5 (fun x => { x with rippleEn := true, hbA := 0, hbB := 1 }) State.reset))) 5 = true ∧ (brDynAt ((modBrDyn 5 (fun d => { d with counting := true, accepted := 4, ivals := [7, 7, 7, 7] }) (modBr 5 (fun x => { x with rippleEn := true, hbA := 0, hbB := 1 }) State.reset))) 5).counting = true) ∧
    (4 ≤ (brDynAt ((modBrDyn 5 (fun d => { d with counting := true, accepted := 4, ivals := [7, 7, 7, 7] }) (modBr 5 (fun x => { x with rippleEn := true, hbA := 0, hbB := 1 }) State.reset))) 5).accepted) ∧
    ((brAt ((modBrDyn 5 (fun d => { d with counting := true, accepted := 4, ivals := [7, 7, 7, 7] }) (modBr 5 (fun x => { x with rippleEn := true, hbA := 0, hbB := 1 }) State.reset))) 5).inserted < 3) ∧
    ((brAt ((modBrDyn 5 (fun d => { d with counting := true, accepted := 4, ivals := [7, 7, 7, 7] }) (modBr 5 (fun x => { x with rippleEn := true, hbA := 0, hbB := 1 }) State.reset))) 5).pinchEn = false) ∧
    ((brDynAt ((modBrDyn 5 (fun d => { d with counting := true, accepted := 4, ivals := [7, 7, 7, 7] }) (modBr 5 (fun x => { x with rippleEn := true, hbA := 0, hbB := 1 }) State.reset))) 5).seq = .none) ∧
    (((brAt ((modBr 5 (fun x => { x with rippleEn := true, hbA := 0, hbB := 1 }) State.reset)) 5).rippleEn && paired ((modBr 5 (fun x => { x with rippleEn := true, hbA := 0, hbB := 1 }) State.reset)) 5) = true) ∧
    (effDrive ((modBr 5 (fun x => { x with rippleEn := true, hbA := 0, hbB := 1 }) State.reset)) 5 = 0 ∨ ((effDrive ((modBr 5 (fun x => { x with rippleEn := true, hbA := 0, hbB := 1 }) State.reset)) 5 = 1 ∨ effDrive ((modBr 5 (fun x => { x with rippleEn := true, hbA := 0, hbB := 1 }) State.reset)) 5 = 2) ∧ decayOf ((modBr 5 (fun x => { x with rippleEn := true, hbA := 0, hbB := 1 }) State.reset)) 5 = 2)) ∧
    (((brAt State.reset 5).rippleEn && paired State.reset 5) = false ∨ (effDrive State.reset 5 ≠ 0 ∧ ((effDrive State.reset 5 ≠ 1 ∧ effDrive State.reset 5 ≠ 2) ∨ decayOf State.reset 5 ≠ 2))) := by
  decide

theorem witness_FieldOutputsAndSupplies :
    (15 < 16) ∧
    (({ State.reset with pwr := { State.reset.pwr with keeper := true } }).pwr.keeper = true) ∧
    (3 < 4) := by
  decide

theorem witness_TowpathCausesAndTable :
    (({ State.reset with pwr := { State.reset.pwr with keeper := true } }).pwr.keeper = true) := by
  decide

theorem witness_CanTrafficOfAChannel :
    (11 < 12) := by
  decide

theorem witness_CanControllerState :
    (11 < 12) ∧
    (({ State.reset with pwr := { State.reset.pwr with keeper := true } }).pwr.keeper = true) := by
  decide

theorem witness_LinSlotsAndSleep :
    (7 < 8) := by
  decide

theorem witness_NetworkManagementEvents :
    (11 < 12) ∧
    (7 < 8) ∧
    (31 < 32) := by
  decide

theorem witness_WakeSourcesAndTheBoardnet :
    (1 < 2) ∧
    (((modDi 0 (fun d => { d with wakeEn := true, wakeRef := !(diCompare (diAt State.reset 0) 12000000 != (diAt State.reset 0).invert) }) (modFio (fun f => { f with wakeConf := 1 }) (modPwr (fun p => { p with slept := true, wakeMask := 8, cause := none }) State.reset)))).pwr.slept = true) ∧
    (bitOf 3 ((modDi 0 (fun d => { d with wakeEn := true, wakeRef := !(diCompare (diAt State.reset 0) 12000000 != (diAt State.reset 0).invert) }) (modFio (fun f => { f with wakeConf := 1 }) (modPwr (fun p => { p with slept := true, wakeMask := 8, cause := none }) State.reset)))).pwr.wakeMask = true) ∧
    (((modDi 0 (fun d => { d with wakeEn := true, wakeRef := !(diCompare (diAt State.reset 0) 12000000 != (diAt State.reset 0).invert) }) (modFio (fun f => { f with wakeConf := 1 }) (modPwr (fun p => { p with slept := true, wakeMask := 8, cause := none }) State.reset)))).fio.wakeConf = 1) ∧
    (((modDi 0 (fun d => { d with wakeEn := true, wakeRef := !(diCompare (diAt State.reset 0) 12000000 != (diAt State.reset 0).invert) }) (modFio (fun f => { f with wakeConf := 1 }) (modPwr (fun p => { p with slept := true, wakeMask := 8, cause := none }) State.reset)))).pwr.cause = none) ∧
    ((diAt ((modDi 0 (fun d => { d with wakeEn := true, wakeRef := !(diCompare (diAt State.reset 0) 12000000 != (diAt State.reset 0).invert) }) (modFio (fun f => { f with wakeConf := 1 }) (modPwr (fun p => { p with slept := true, wakeMask := 8, cause := none }) State.reset)))) 0).wakeEn = true) ∧
    ((diCompare (diAt ((modDi 0 (fun d => { d with wakeEn := true, wakeRef := !(diCompare (diAt State.reset 0) 12000000 != (diAt State.reset 0).invert) }) (modFio (fun f => { f with wakeConf := 1 }) (modPwr (fun p => { p with slept := true, wakeMask := 8, cause := none }) State.reset)))) 0) (elemOr 0 [12000000] 0) != (diAt ((modDi 0 (fun d => { d with wakeEn := true, wakeRef := !(diCompare (diAt State.reset 0) 12000000 != (diAt State.reset 0).invert) }) (modFio (fun f => { f with wakeConf := 1 }) (modPwr (fun p => { p with slept := true, wakeMask := 8, cause := none }) State.reset)))) 0).invert) ≠ (diAt ((modDi 0 (fun d => { d with wakeEn := true, wakeRef := !(diCompare (diAt State.reset 0) 12000000 != (diAt State.reset 0).invert) }) (modFio (fun f => { f with wakeConf := 1 }) (modPwr (fun p => { p with slept := true, wakeMask := 8, cause := none }) State.reset)))) 0).wakeRef) ∧
    ((diAt ((modDi 0 (fun d => { d with wakeEn := true, wakeRef := !(diCompare (diAt State.reset 0) 12000000 != (diAt State.reset 0).invert) }) (modFio (fun f => { f with wakeConf := 1 }) (modPwr (fun p => { p with slept := true, wakeMask := 8, cause := none }) State.reset)))) 0).wakeN = 0) := by
  decide

theorem witness_SuppliesTemperatureAndRails :
    (2 ≤ 4 ∧ 4 < 5) ∧
    (4 < 5) := by
  decide

theorem witness_MemoriesClocksAndTheSluice :
    ((3 = 0 ∧ 4094 < 4096) ∨ (3 = 1 ∧ 4094 < 0x4000) ∨ (3 = 2 ∧ 4094 < 0x2000) ∨ (3 = 3 ∧ 1 ≤ 4094 ∧ 4094 < 4095)) ∧
    (({ State.reset with pwr := { State.reset.pwr with keeper := true } }).pwr.keeper = true) := by
  decide

theorem witness_CycleBoundSettingsWaitInTheShadow :
    SetPasses chanClass (asIs chanClass live 0 1) live ∧
    SetPasses padClass (asIs padClass live 0 0) live ∧
    SetPasses brClass (asIs brClass live 0 0) live ∧
    SetPasses dinClass (asIs dinClass live 0 0) live ∧
    SetPasses foutClass (asIs foutClass live 0 0) live ∧
    SetPasses ainClass (asIs ainClass live 0 0) live ∧
    SetPasses canClass (asIs canClass live 0 0) live ∧
    SetPasses linClass (asIs linClass live 0 0) live ∧
    SetPasses nmClass (asIs nmClass live 0 0) live ∧
    SetPasses routeClass (asIs routeClass live 0 0) live ∧
    SetPasses basinClass (asIs basinClass live 0 0) live ∧
    SetPasses coreClass (asIs coreClass live 0 0) live ∧
    (0x200 ≤ (asIs portClass live 639 0).inst ∧ (asIs portClass live 639 0).inst < 0x280) ∧
    SetPasses portClass (asIs portClass live 639 0) live ∧
    ((asked poundClass (asIs poundClass live 0 1) live).part = 1) ∧
    SetPasses poundClass (asIs poundClass live 0 1) live ∧
    (0x1000 ≤ (asIs safeClass live 4096 0).inst) ∧
    SetPasses safeClass (asIs safeClass live 4096 0) live :=
  ⟨sets (by decide +kernel) (by decide +kernel), sets (by decide +kernel) (by decide +kernel), sets (by decide +kernel) (by decide +kernel), sets (by decide +kernel) (by decide +kernel), sets (by decide +kernel) (by decide +kernel), sets (by decide +kernel) (by decide +kernel), sets (by decide +kernel) (by decide +kernel), sets (by decide +kernel) (by decide +kernel), sets (by decide +kernel) (by decide +kernel), sets (by decide +kernel) (by decide +kernel), sets (by decide +kernel) (by decide +kernel), sets (by decide +kernel) (by decide +kernel), by decide +kernel, sets (by decide +kernel) (by decide +kernel), by decide +kernel, sets (by decide +kernel) (by decide +kernel), by decide +kernel, sets (by decide +kernel) (by decide +kernel)⟩

theorem witness_CycleBoundActionsWaitInTheShadow :
    ActPasses chanClass 1 (actWith 75 []) (modChan 75 (fun c => { c with state := .latchedOff }) live) ∧
    ActPasses chanClass 3 (actWith 0 []) (modTide (fun v => { v with counter := 1000000 }) live) ∧
    ActPasses canClass 2 (actWith 11 []) (modCanCh 11 (fun x => { x with err := 2 }) live) ∧
    ActPasses canClass 4 (actWith 0 []) live ∧
    ActPasses linClass 1 (actWith 7 [7#8]) live ∧
    ActPasses nmClass 1 (actWith 31 []) live ∧
    ActPasses nmClass 2 (actWith 0 []) live ∧
    ActPasses nmClass 3 (actWith 0 []) live ∧
    ActPasses nmClass 4 (actWith 295 []) live ∧
    ActPasses coreClass 1 (actWith 0 [0#8]) live ∧
    ActPasses breachClass 1 (actWith 1 [1#8, 0#8, 75#8, 0#8]) live ∧
    ActPasses pondClass 1 (actWith 0 [1#8, 0#8, 0#8, 0#8]) live ∧
    ActPasses powerClass 1 (actWith 0 [0#8]) live ∧
    ActPasses towClass 2 (actWith 0 [63#8]) (modBarge 63 (fun b => { b with state := 4 }) live) ∧
    ActPasses safeClass 1 (actWith 0 []) (modDet 0x22 (fun d => { d with latched := true }) live) ∧
    ActPasses safeClass 2 (actWith 0 []) live :=
  ⟨acts (by decide +kernel) (by decide +kernel), acts (by decide +kernel) (by decide +kernel), acts (by decide +kernel) (by decide +kernel), acts (by decide +kernel) (by decide +kernel), acts (by decide +kernel) (by decide +kernel), acts (by decide +kernel) (by decide +kernel), acts (by decide +kernel) (by decide +kernel), acts (by decide +kernel) (by decide +kernel), acts (by decide +kernel) (by decide +kernel), acts (by decide +kernel) (by decide +kernel), acts (by decide +kernel) (by decide +kernel), acts (by decide +kernel) (by decide +kernel), acts (by decide +kernel) (by decide +kernel), acts (by decide +kernel) (by decide +kernel), acts (by decide +kernel) (by decide +kernel), acts (by decide +kernel) (by decide +kernel)⟩

theorem witness_ImmediateSettingsAreWrittenAndAnswered :
    SetPasses timeClass (asIs timeClass live 0 0) live ∧
    SetPasses wireClass (asIs wireClass live 256 0) live ∧
    SetPasses streamClass (asIs streamClass live 0 0) live ∧
    SetPasses towClass (asIs towClass live 0 0) live ∧
    ((asIs portClass live 1088 0).inst < 0x200 ∨ 0x280 ≤ (asIs portClass live 1088 0).inst) ∧
    SetPasses portClass (asIs portClass live 1088 0) live ∧
    ((asked poundClass (asIs poundClass live 0 0) live).part ≠ 1) ∧
    SetPasses poundClass (asIs poundClass live 0 0) live ∧
    ((asIs safeClass live 355 0).inst < 0x1000) ∧
    SetPasses safeClass (asIs safeClass live 355 0) live ∧
    (levelHeld (asIs powerClass live 0 0) (asked powerClass (asIs powerClass live 0 0) live).part (asked powerClass (asIs powerClass live 0 0) live).writes (taken (asIs powerClass live 0 0) live) = none) ∧
    SetPasses powerClass (asIs powerClass live 0 0) live ∧
    SetPasses cycleClass { pound := 0, payload := leBytes 2 0 ++ leBytes 2 4 ++ leBytes 4 6 ++ leBytes 6 0 } live ∧
    (named (asked cycleClass { pound := 0, payload := leBytes 2 0 ++ leBytes 2 4 ++ leBytes 4 6 ++ leBytes 6 0 } live).writes 0 = false) ∧
    (named (asked cycleClass (asIs cycleClass live 0 0) live).writes 0 = true ∧ live.cyc.change = none ∧ periodOf (wouldBe (asked cycleClass (asIs cycleClass live 0 0) live).writes 0 0) = live.cyc.period) ∧
    SetPasses cycleClass (asIs cycleClass live 0 0) live ∧
    SetPasses cycleClass { pound := 0, payload := leBytes 4 0 ++ leBytes 4 1 ++ [2#8] } (modCyc (fun v => { v with change := some { period := 500000, bound := 9, cycle := 9, req := none, confirm := [] } }) live) ∧
    (named (asked cycleClass { pound := 0, payload := leBytes 4 0 ++ leBytes 4 1 ++ [2#8] } (modCyc (fun v => { v with change := some { period := 500000, bound := 9, cycle := 9, req := none, confirm := [] } }) live)).writes 0 = true) ∧
    ((modCyc (fun v => { v with change := some { period := 500000, bound := 9, cycle := 9, req := none, confirm := [] } }) live).cyc.change = some { period := 500000, bound := 9, cycle := 9, req := none, confirm := [] }) ∧
    SetPasses cycleClass { pound := 0, payload := leBytes 4 0 ++ leBytes 4 1 ++ [2#8] } live ∧
    (named (asked cycleClass { pound := 0, payload := leBytes 4 0 ++ leBytes 4 1 ++ [2#8] } live).writes 0 = true) ∧
    (live.cyc.change = none) ∧
    (periodOf (wouldBe (asked cycleClass { pound := 0, payload := leBytes 4 0 ++ leBytes 4 1 ++ [2#8] } live).writes 0 0) ≠ live.cyc.period) ∧
    SetPasses powerClass { pound := 0, payload := leBytes 4 0 ++ leBytes 4 2 ++ [0#8, 2#8] } (modPwr (fun p => { p with vcoreEn := true }) live) ∧
    (({ pound := 0, payload := leBytes 4 0 ++ leBytes 4 2 ++ [0#8, 2#8] } : Req).inst = 0) ∧
    (named (asked powerClass { pound := 0, payload := leBytes 4 0 ++ leBytes 4 2 ++ [0#8, 2#8] } (modPwr (fun p => { p with vcoreEn := true }) live)).writes 8 = true) ∧
    ((modPwr (fun p => { p with vcoreEn := true }) live).pwr.vcoreEn = true) ∧
    ((modPwr (fun p => { p with vcoreEn := true }) live).pwr.state < 2) :=
  ⟨sets (by decide +kernel) (by decide +kernel), sets (by decide +kernel) (by decide +kernel), sets (by decide +kernel) (by decide +kernel), sets (by decide +kernel) (by decide +kernel), by decide +kernel, sets (by decide +kernel) (by decide +kernel), by decide +kernel, sets (by decide +kernel) (by decide +kernel), by decide +kernel, sets (by decide +kernel) (by decide +kernel), by decide +kernel, sets (by decide +kernel) (by decide +kernel), sets (by decide +kernel) (by decide +kernel), by decide +kernel, by decide +kernel, sets (by decide +kernel) (by decide +kernel), sets (by decide +kernel) (by decide +kernel), by decide +kernel, rfl, sets (by decide +kernel) (by decide +kernel), by decide +kernel, by decide +kernel, by decide +kernel, sets (by decide +kernel) (by decide +kernel), by decide +kernel, by decide +kernel, by decide +kernel, by decide +kernel⟩

theorem witness_ImmediateActionsOfTheInputsAndOutputs :
    ActPasses timeClass 1 (actWith 79 []) live ∧
    ActPasses chanClass 2 (actWith 75 [255#8, 7#8]) live ∧
    ActPasses foutClass 1 (actWith 257 [100#8]) live ∧
    ActPasses foutClass 2 (actWith 257 [255#8]) live ∧
    ActPasses brClass 1 (actWith 5 [0#8, 0#8, 0#8, 128#8]) live ∧
    ActPasses brClass 2 (actWith 5 [255#8]) live ∧
    ActPasses canClass 1 (actWith 0 (List.replicate 32 0#8)) (modCanCh 0 (fun x => { x with cfg := { x.cfg with mode := 2 } }) live) ∧
    ActPasses canClass 3 (actWith 11 []) live ∧
    ActPasses tpClass 1 (actWith 0 []) live ∧
    ActPasses tpClass 2 (actWith 0 []) (modTp (fun t => { t with causes := 64 }) live) :=
  ⟨acts (by decide +kernel) (by decide +kernel), acts (by decide +kernel) (by decide +kernel), acts (by decide +kernel) (by decide +kernel), acts (by decide +kernel) (by decide +kernel), acts (by decide +kernel) (by decide +kernel), acts (by decide +kernel) (by decide +kernel), acts (by decide +kernel) (by decide +kernel), acts (by decide +kernel) (by decide +kernel), acts (by decide +kernel) (by decide +kernel), acts (by decide +kernel) (by decide +kernel)⟩

theorem witness_ImmediateActionsOfTheNetworks :
    ActPasses routeClass 1 (actWith 16383 []) live ∧
    ActPasses portClass 1 (actWith 268 []) live ∧
    ActPasses basinClass 1 (actWith 16384 []) live ∧
    ActPasses streamClass 1 (actWith 255 []) live ∧
    ActPasses streamClass 2 (actWith 255 []) live ∧
    ActPasses streamClass 3 (actWith 0 []) live ∧
    ActPasses sysClass 1 (actWith 512 []) live ∧
    ActPasses poundClass 1 (actWith 0 []) live ∧
    ActPasses poundClass 2 (actWith 31 []) (modPound 31 (fun p => { p with kind := 4, state := .running }) live) ∧
    ActPasses towClass 1 (actWith 0 []) (modSys (fun v => { v with role := .tug }) live) ∧
    ActPasses towClass 3 (actWith 0 [1#8]) (modTpt 1 (fun t => { t with link := 2 }) live) ∧
    ActPasses towClass 4 (actWith 0 [63#8]) (modBarge 63 (fun b => { b with state := 4 }) live) :=
  ⟨acts (by decide +kernel) (by decide +kernel), acts (by decide +kernel) (by decide +kernel), acts (by decide +kernel) (by decide +kernel), acts (by decide +kernel) (by decide +kernel), acts (by decide +kernel) (by decide +kernel), acts (by decide +kernel) (by decide +kernel), acts (by decide +kernel) (by decide +kernel), acts (by decide +kernel) (by decide +kernel), acts (by decide +kernel) (by decide +kernel), acts (by decide +kernel) (by decide +kernel), acts (by decide +kernel) (by decide +kernel), acts (by decide +kernel) (by decide +kernel)⟩

theorem witness_KeySlotsAndTheirActions :
    ActPasses keyClass 1 (actWith 0 ([255#8, 3#8, 1#8] ++ List.replicate 13 0#8)) live ∧
    ActPasses keyClass 2 (actWith 0 ([64#8, 0#8, 6#8] ++ List.replicate 13 0#8 ++ [255#8, 255#8, 64#8, 0#8] ++ List.replicate 64 0#8)) live ∧
    ActPasses keyClass 3 (actWith 0 ([64#8, 0#8, 1#8] ++ List.replicate 13 0#8 ++ [65#8, 0#8, 0#8, 0#8])) (modKey 65 (fun k => { k with state := 1, type := 2, use := 64 }) live) ∧
    ActPasses keyClass 4 (actWith 0 ([64#8, 0#8, 1#8] ++ List.replicate 15 0#8)) (modKey 64 (fun k => { k with state := 1, type := 1 }) live) ∧
    ActPasses keyClass 5 (actWith 0 ([64#8] ++ List.replicate 15 0#8)) (modKey 64 (fun k => { k with state := 1 }) live) :=
  ⟨acts (by decide +kernel) (by decide +kernel), acts (by decide +kernel) (by decide +kernel), acts (by decide +kernel) (by decide +kernel), acts (by decide +kernel) (by decide +kernel), acts (by decide +kernel) (by decide +kernel)⟩

theorem witness_LighthouseMailboxes :
    (31 < 32) := by
  decide

theorem witness_LighthouseRestartClaimsAndDebug :
    (1 < 3) ∧
    ActPasses lightClass 1 (actWith 0 ([255#8] ++ List.replicate 35 0#8)) live ∧
    ActPasses lightClass 2 (actWith 0 [127#8, 0#8]) live ∧
    (Heard lightClass 3 (actReq 3 (actWith 0 (List.replicate 108 0#8))) live ∧ (actWith 0 (List.replicate 108 0#8)).payload.length = 108 ∧ responseFields (actWith 0 (List.replicate 108 0#8)).payload = true ∧ live.light.state = 0 ∧ live.fv.started = true) ∧
    (Heard lightClass 3 (actReq 3 (actWith 0 (List.replicate 108 1#8))) live ∧ (actWith 0 (List.replicate 108 1#8)).payload.length = 108 ∧ responseFields (actWith 0 (List.replicate 108 1#8)).payload = false ∧ live.light.state = 0 ∧ live.fv.started = true) :=
  ⟨by decide, acts (by decide +kernel) (by decide +kernel), acts (by decide +kernel) (by decide +kernel), ⟨heard_of (by decide +kernel), by decide, by decide +kernel, rfl, rfl⟩, ⟨heard_of (by decide +kernel), by decide, by decide +kernel, rfl, rfl⟩⟩

theorem witness_ImagesAndCharts :
    ActPasses imageClass 1 (actWith 0 ([1#8] ++ List.replicate 2055 0#8)) live ∧
    (Heard imageClass 3 (actReq 2 (actWith 0 [1#8])) live ∧ (actWith 0 [1#8]).payload.length = 1 ∧ leAt (actWith 0 [1#8]).payload 0 1 < 2) ∧
    ActPasses imageClass 3 (actWith 0 ([1#8, 0#8] ++ List.replicate 14 0#8)) (modSys (fun v => { v with role := .barge }) live) ∧
    ActPasses imageClass 4 (actWith 0 [0#8, 0#8]) (modImg (fun i => { i with act := some { bank := 1, mode := 1, trialS := 60, time := 0, req := none, verb := 3, revert := false, confirm := [] } }) live) ∧
    ActPasses chartSpec 1 (actWith 0 ([1#8] ++ List.replicate 2055 0#8)) live ∧
    ActPasses chartSpec 2 (actWith 0 [1#8, 0#8]) (modSlotImg 1 (fun x => { x with state := 2, digest := true, items := goodChart }) live) ∧
    ActPasses chartSpec 3 (actWith 0 [0#8, 0#8]) (modSlotImg 1 (fun x => { x with state := 2, digest := true, items := goodChart }) live) :=
  ⟨acts (by decide +kernel) (by decide +kernel), ⟨heard_of (by decide +kernel), rfl, by decide⟩, acts (by decide +kernel) (by decide +kernel), acts (by decide +kernel) (by decide +kernel), acts (by decide +kernel) (by decide +kernel), acts (by decide +kernel) (by decide +kernel), acts (by decide +kernel) (by decide +kernel)⟩

theorem witness_StartsAndRestarts :
    (1 ≤ 1) ∧
    (1 ≤ 7) := by
  decide

theorem witness_ABargeStaysABarge :
    ((∀ ref, Instr.limpSet ≠ .start false ref) ∧ ({ State.reset with sys := { State.reset.sys with role := .barge } } : State).sys.role = .barge) :=
  ⟨fun _ h => (by cases h), rfl⟩

theorem witness_LevelPhaseIsCompleteWhenAllThreeSignal :
    (({ State.reset with cyc := { State.reset.cyc with running := true }, fv := { State.reset.fv with fw := true } }).cyc.running = true) ∧
    (({ State.reset with cyc := { State.reset.cyc with running := true }, fv := { State.reset.fv with fw := true } }).fv.fw = true) ∧
    (2 < 3) ∧
    (({ State.reset with cyc := { State.reset.cyc with running := true }, fv := { State.reset.fv with fw := true } }).cyc.overMask = 0) := by
  decide

theorem witness_SpiReadTakesAWholeMessage :
    (spiPound ({ State.reset with pwr := { State.reset.pwr with keeper := true } }) = some 0) ∧
    (({ State.reset with pwr := { State.reset.pwr with keeper := true } }).pwr.keeper = true) ∧
    (spiPound State.reset = some 0) := by
  decide

theorem witness_CoresSpareAndSelfTests :
    (4 < 5) ∧
    (15 < 16) ∧
    (6 < 7) := by
  decide

theorem witness_MemoryErrorsBreachResultsAndScan :
    (2 < 3) ∧
    (31 < 32) ∧
    ((escOf 0x060).isSome = true) ∧
    ((detUnit 0x060 0).isSome = true) := by
  decide

theorem witness_PortsAndTheirFrames :
    (11 < 12) ∧
    (8 ≤ 11 ∧ 11 < 12) ∧
    (15 < 16) ∧
    (31 < 32 ∧ 4 ≤ 7 ∧ 7 < 8) ∧
    (3 < 4) := by
  decide

theorem witness_WorkOfTheBasin :
    (15 < 16) ∧
    (127 < 128) ∧
    (255 < 256) ∧
    (15 < 16 ∧ 7 < 8) := by
  decide

theorem witness_WindowsAndTheirInterrupts :
    (winOk 63 = true) ∧
    (63 < 64 ∧ 3 < 4) ∧
    (63 < 64 ∧ 10 < 11) ∧
    (31 < 32) := by
  decide

theorem witness_CommandsComeInOverEveryTransport :
    (winOk 63 = true) ∧
    (63 < 64 ∧ 3 < 4) ∧
    (63 < 64 ∧ 4 ≤ 7 ∧ 7 < 8) ∧
    (31 < 32) := by
  decide

theorem witness_RequestsThatReadAndSubscribe :
    Heard (timeClass) 1 { pound := 0, inst := 0x21, payload := leBytes 8 0 } live ∧
    rng 0x20 0x21 ({ pound := 0, inst := 0x21, payload := leBytes 8 0 } : Req).inst = true ∧
    Heard (classOf 0x10) 1 { pound := 0, inst := 75, payload := leBytes 8 0 } live ∧
    (classOf 0x10).code ≠ 0x03 ∧
    Heard (classOf 0x10) 4 { pound := 0, inst := 75, payload := leBytes 4 1 ++ leBytes 4 1 } live ∧
    (classOf 0x10).code ≠ 0x11 ∧
    Heard (wireClass) 4 { pound := 0, inst := 0x300, payload := leBytes 2 0 ++ leBytes 6 1 ++ leBytes 16 0 } live ∧
    ({ pound := 0, inst := 0x300, payload := leBytes 2 0 ++ leBytes 6 1 ++ leBytes 16 0 } : Req).inst = 0x300 ∧
    Heard (classOf 0x10) 5 { pound := 0, inst := 75, payload := leBytes 4 1 } live ∧
    late (classOf 0x10) 5 { pound := 0, inst := 75, payload := leBytes 4 1 } (received 0 live) = .ok ∧
    Heard (classOf 0x10) 6 { pound := 0, inst := 75, payload := leBytes 4 0 ++ leBytes 4 1019 } live ∧
    late (classOf 0x10) 6 { pound := 0, inst := 75, payload := leBytes 4 0 ++ leBytes 4 1019 } (received 0 live) = .ok ∧
    (31 < 32) :=
  ⟨heard_of (by decide +kernel), by decide +kernel, heard_of (by decide +kernel), by decide +kernel, heard_of (by decide +kernel), by decide +kernel, heard_of (by decide +kernel), by decide +kernel, heard_of (by decide +kernel), by decide +kernel, heard_of (by decide +kernel), by decide +kernel, by decide⟩

theorem witness_TowlineLinksAndEnumeration :
    (1 < 2) ∧
    (63 < 64 ∧ 1 < 2) ∧
    (rng 1 63 63 = true) := by
  decide

theorem witness_TowlineFramesThatArrive :
    (1 < 2) := by
  decide

theorem witness_StrandingAndItsEnd :
    (rng 1 63 63 = true) := by
  decide
end

section
/-! The frame of every command, that every command naming units of the device answers a next state, and the invariant
of every step (O3, O4, O5). -/
open Sys2Proof
namespace Sys2Proof.Machine

/-- The regions a command may change, as the set its frame lemma sets aside. -/
def touched (i : Instr) (r : Region) : Bool := decide (r ∈ touches i)

/-- Every command leaves alone what lies outside its list: the frame lemmas of the meanings, one per command, each
over the regions that `touches` lists for it. -/
theorem exec_frame {i : Instr} {s t : State} (h : exec i s = .next t) : blank (touched i) t = blank (touched i) s := by
  cases i with
  | fillPhase => apply execFillPhase_frame (h := h) <;> rfl
  | levelPhase => apply execLevelPhase_frame (h := h) <;> rfl
  | levelCompletionSignal => exact execLevelCompletionSignal_frame _ rfl rfl rfl h
  | applyPhase => apply execApplyPhase_frame (h := h) <;> rfl
  | cutoff => exact execCutoff_frame _ rfl rfl rfl rfl rfl h
  | sealingWindow => exact execSealingWindow_frame _ rfl rfl rfl rfl h
  | sealingDeadline => exact execSealingDeadline_frame _ rfl rfl rfl h
  | stretchRefresh => exact execStretchRefresh_frame _ rfl h
  | boundary => apply execBoundary_frame (h := h) <;> rfl
  | cycleSet => apply execCycleSet_frame (h := h) <;> rfl
  | timeSet => apply execTimeSet_frame (h := h) <;> rfl
  | tideInRead => apply execTideInRead_frame (h := h) <;> rfl
  | clearTsDrop => apply execClearTsDrop_frame (h := h) <;> rfl
  | tsnapTake => exact execTsnapTake_frame _ rfl h
  | syncReceived => exact execSyncReceived_frame _ rfl rfl h
  | syncReceiptTimeout => exact execSyncReceiptTimeout_frame _ rfl rfl rfl h
  | holdoverLimit => exact execHoldoverLimit_frame _ rfl rfl h
  | gptpSyncTransmit => exact execGptpSyncTransmit_frame _ rfl rfl h
  | pdelayReqTransmit => exact execPdelayReqTransmit_frame _ rfl rfl h
  | pdelayMessageReceived => exact execPdelayMessageReceived_frame _ rfl rfl h
  | followUp => exact execFollowUp_frame _ rfl rfl h
  | tideOutEdge => exact execTideOutEdge_frame _ rfl h
  | tideOutPulseEnd => exact execTideOutPulseEnd_frame _ rfl h
  | tideInCapture => exact execTideInCapture_frame _ rfl rfl h
  | groupFallVOff => exact execGroupFallVOff_frame _ rfl rfl rfl rfl h
  | groupRiseVOff => exact execGroupRiseVOff_frame _ rfl rfl h
  | groupFallVFull => exact execGroupFallVFull_frame _ rfl rfl rfl h
  | groupRiseVFull => exact execGroupRiseVFull_frame _ rfl rfl rfl h
  | groupRiseVOv => exact execGroupRiseVOv_frame _ rfl rfl rfl h
  | groupFallVOv => exact execGroupFallVOv_frame _ rfl rfl rfl h
  | segmentFailure => exact execSegmentFailure_frame _ rfl rfl rfl rfl h
  | stuckTestEnd => exact execStuckTestEnd_frame _ rfl rfl rfl rfl h
  | inrushWindowEnd => exact execInrushWindowEnd_frame _ rfl h
  | chargeComplete => exact execChargeComplete_frame _ rfl h
  | chargeTimeLimit => exact execChargeTimeLimit_frame _ rfl rfl rfl rfl h
  | chargeEnergyLimit => exact execChargeEnergyLimit_frame _ rfl rfl rfl rfl h
  | shortTrip => exact execShortTrip_frame _ rfl rfl rfl rfl h
  | currentLimitOnset => exact execCurrentLimitOnset_frame _ rfl h
  | limitTimerExpiry => exact execLimitTimerExpiry_frame _ rfl rfl rfl rfl h
  | limitTimerClear => exact execLimitTimerClear_frame _ rfl h
  | cliffLatchSet => exact execCliffLatchSet_frame _ rfl rfl rfl rfl h
  | cliffLatchRearm => exact execCliffLatchRearm_frame _ rfl rfl rfl h
  | reverseTrip => exact execReverseTrip_frame _ rfl rfl rfl rfl h
  | reverseFlag => exact execReverseFlag_frame _ rfl rfl h
  | openLoadOn => exact execOpenLoadOn_frame _ rfl rfl h
  | offDiagStart => exact execOffDiagStart_frame _ rfl h
  | offDiagEnd => exact execOffDiagEnd_frame _ rfl rfl h
  | retryDelayEnd => exact execRetryDelayEnd_frame _ rfl h
  | cleanTimeElapsed => exact execCleanTimeElapsed_frame _ rfl h
  | patienceElapsed => exact execPatienceElapsed_frame _ rfl h
  | chanSet => apply execChanSet_frame (h := h) <;> rfl
  | chanRestart => apply execChanRestart_frame (h := h) <;> rfl
  | chanClearFlags => apply execChanClearFlags_frame (h := h) <;> rfl
  | chanOffDiag => apply execChanOffDiag_frame (h := h) <;> rfl
  | adcReferenceFailure => exact execAdcReferenceFailure_frame _ rfl rfl rfl rfl rfl rfl h
  | adcCrossCheckFailure => exact execAdcCrossCheckFailure_frame _ rfl rfl rfl h
  | modelStateStore => exact execModelStateStore_frame _ rfl h
  | lidSensorMismatch => exact execLidSensorMismatch_frame _ rfl rfl rfl h
  | hostAmbientStale => exact execHostAmbientStale_frame _ rfl rfl h
  | wireSet => apply execWireSet_frame (h := h) <;> rfl
  | wireSub => apply execWireSub_frame (h := h) <;> rfl
  | fallbackTrip => exact execFallbackTrip_frame _ rfl rfl rfl rfl h
  | sluiceResume => exact execSluiceResume_frame _ rfl rfl rfl rfl rfl h
  | budgetRestore => exact execBudgetRestore_frame _ rfl rfl rfl h
  | budgetFail => exact execBudgetFail_frame _ rfl rfl rfl h
  | paddleSet => apply execPaddleSet_frame (h := h) <;> rfl
  | bridgeSet => apply execBridgeSet_frame (h := h) <;> rfl
  | reversalBrakeEnd => exact execReversalBrakeEnd_frame _ rfl h
  | regulationChop => exact execRegulationChop_frame _ rfl h
  | rippleCrossing => exact execRippleCrossing_frame _ rfl rfl rfl rfl rfl h
  | rippleInsertion => exact execRippleInsertion_frame _ rfl rfl rfl rfl rfl h
  | backEmfStop => exact execBackEmfStop_frame _ rfl h
  | stall => exact execStall_frame _ rfl rfl rfl rfl rfl h
  | pinchBrakeEnd => exact execPinchBrakeEnd_frame _ rfl rfl h
  | brakeHoldEnd => exact execBrakeHoldEnd_frame _ rfl rfl rfl h
  | bridgeSetPos => apply execBridgeSetPos_frame (h := h) <;> rfl
  | bridgeClear => apply execBridgeClear_frame (h := h) <;> rfl
  | dinSet => apply execDinSet_frame (h := h) <;> rfl
  | diWakePoll => exact execDiWakePoll_frame _ rfl rfl rfl rfl rfl h
  | clsHoldEnter => exact execClsHoldEnter_frame _ rfl h
  | clsHoldExit => exact execClsHoldExit_frame _ rfl h
  | foutSet => apply execFoutSet_frame (h := h) <;> rfl
  | foutLocate => apply execFoutLocate_frame (h := h) <;> rfl
  | foutClear => apply execFoutClear_frame (h := h) <;> rfl
  | foThermalShutdown => exact execFoThermalShutdown_frame _ rfl h
  | foThermalRestart => exact execFoThermalRestart_frame _ rfl h
  | foLimitHeld => exact execFoLimitHeld_frame _ rfl h
  | silenceExpiry => exact execSilenceExpiry_frame _ rfl rfl rfl h
  | ainSet => apply execAinSet_frame (h := h) <;> rfl
  | supLimit => exact execSupLimit_frame _ rfl rfl rfl h
  | supShortBat => exact execSupShortBat_frame _ rfl rfl rfl h
  | supThermal => exact execSupThermal_frame _ rfl rfl rfl h
  | supRetry => exact execSupRetry_frame _ rfl h
  | supClean => exact execSupClean_frame _ rfl h
  | limpSet => exact execLimpSet_frame _ rfl rfl rfl rfl h
  | limpClear => exact execLimpClear_frame _ rfl rfl rfl rfl rfl h
  | watchExpiry => exact execWatchExpiry_frame _ rfl rfl rfl rfl h
  | isolationTimeout => exact execIsolationTimeout_frame _ rfl rfl rfl rfl h
  | towpathEngage => apply execTowpathEngage_frame (h := h) <;> rfl
  | towpathRelease => apply execTowpathRelease_frame (h := h) <;> rfl
  | towpathRcStep => apply execTowpathRcStep_frame (h := h) <;> rfl
  | towpathTableRead => exact execTowpathTableRead_frame _ rfl rfl h
  | towpathTableCheck => exact execTowpathTableCheck_frame _ rfl rfl rfl rfl rfl h
  | canFrameReceived => exact execCanFrameReceived_frame _ rfl rfl rfl rfl rfl rfl h
  | canTransmitOpportunity => exact execCanTransmitOpportunity_frame _ rfl rfl rfl h
  | canTxSuccess => exact execCanTxSuccess_frame _ rfl rfl rfl rfl h
  | canArbitrationLost => exact execCanArbitrationLost_frame _ rfl rfl h
  | canError => exact execCanError_frame _ rfl rfl rfl rfl h
  | canTxDeadline => exact execCanTxDeadline_frame _ rfl rfl h
  | canSend => apply execCanSend_frame (h := h) <;> rfl
  | canRecover => apply execCanRecover_frame (h := h) <;> rfl
  | canClearCounters => apply execCanClearCounters_frame (h := h) <;> rfl
  | canSwap => apply execCanSwap_frame (h := h) <;> rfl
  | canSet => apply execCanSet_frame (h := h) <;> rfl
  | canModeChange => exact execCanModeChange_frame _ rfl rfl rfl rfl h
  | busIntegration => exact execBusIntegration_frame _ rfl h
  | recoveryRequest => exact execRecoveryRequest_frame _ rfl rfl rfl h
  | recoveryComplete => exact execRecoveryComplete_frame _ rfl rfl rfl rfl h
  | recoveryWaitReport => exact execRecoveryWaitReport_frame _ rfl rfl rfl h
  | boffRunReset => exact execBoffRunReset_frame _ rfl h
  | spareShadowPeriodEnd => exact execSpareShadowPeriodEnd_frame _ rfl h
  | spareSelfTest => exact execSpareSelfTest_frame _ rfl rfl rfl h
  | controllerSwap => exact execControllerSwap_frame _ rfl rfl rfl h
  | canDominantTimeout => exact execCanDominantTimeout_frame _ rfl rfl rfl h
  | canWake => exact execCanWake_frame _ rfl rfl rfl rfl rfl h
  | linWake => exact execLinWake_frame _ rfl rfl rfl rfl rfl rfl h
  | heartbeat => exact execHeartbeat_frame _ rfl h
  | heartbeatTimeout => exact execHeartbeatTimeout_frame _ rfl rfl rfl h
  | sleepPath => apply execSleepPath_frame (h := h) <;> rfl
  | linSlotStart => exact execLinSlotStart_frame _ rfl h
  | linResponseReceived => exact execLinResponseReceived_frame _ rfl rfl rfl h
  | linNoResponse => exact execLinNoResponse_frame _ rfl rfl rfl h
  | linSwitch => apply execLinSwitch_frame (h := h) <;> rfl
  | linSet => apply execLinSet_frame (h := h) <;> rfl
  | linGoToSleepReceived => exact execLinGoToSleepReceived_frame _ rfl rfl rfl h
  | linBusIdle => exact execLinBusIdle_frame _ rfl rfl rfl h
  | linWakeRetry => exact execLinWakeRetry_frame _ rfl rfl h
  | linScheduleResume => exact execLinScheduleResume_frame _ rfl h
  | nmRequest => apply execNmRequest_frame (h := h) <;> rfl
  | nmRelease => apply execNmRelease_frame (h := h) <;> rfl
  | nmRepeat => apply execNmRepeat_frame (h := h) <;> rfl
  | nmLinkSleep => apply execNmLinkSleep_frame (h := h) <;> rfl
  | nmSet => apply execNmSet_frame (h := h) <;> rfl
  | nmPduReceived => exact execNmPduReceived_frame _ rfl h
  | repeatTimeEnd => exact execRepeatTimeEnd_frame _ rfl h
  | nmTimeout => exact execNmTimeout_frame _ rfl h
  | waitTimeEnd => exact execWaitTimeEnd_frame _ rfl rfl h
  | keepWatch => exact execKeepWatch_frame _ rfl rfl h
  | isolatedHoldEnd => exact execIsolatedHoldEnd_frame _ rfl h
  | tc10SleepAck => exact execTc10SleepAck_frame _ rfl rfl rfl h
  | tc10AckTimeout => exact execTc10AckTimeout_frame _ rfl rfl h
  | tc10PeerSleepRequest => exact execTc10PeerSleepRequest_frame _ rfl rfl rfl h
  | tc10Wake => exact execTc10Wake_frame _ rfl rfl rfl rfl rfl h
  | aqueductArrival => apply execAqueductArrival_frame (h := h) <;> rfl
  | routeSet => apply execRouteSet_frame (h := h) <;> rfl
  | routeClearCounters => apply execRouteClearCounters_frame (h := h) <;> rfl
  | tunnelAvtpduReceived => exact execTunnelAvtpduReceived_frame _ rfl rfl h
  | cmacCompletion => apply execCmacCompletion_frame (h := h) <;> rfl
  | portLinkChange => exact execPortLinkChange_frame _ rfl rfl rfl h
  | ethFrameReceived => exact execEthFrameReceived_frame _ rfl rfl rfl rfl rfl h
  | plcaBeaconTimeout => exact execPlcaBeaconTimeout_frame _ rfl rfl h
  | plcaBeaconReceived => exact execPlcaBeaconReceived_frame _ rfl rfl h
  | ethFrameTransmit => apply execEthFrameTransmit_frame (h := h) <;> rfl
  | hostPortDelivery => exact execHostPortDelivery_frame _ rfl rfl rfl rfl h
  | txFrameFetch => exact execTxFrameFetch_frame _ rfl rfl rfl rfl h
  | eopTimeout => exact execEopTimeout_frame _ rfl rfl rfl rfl h
  | ts2Timeout => exact execTs2Timeout_frame _ rfl rfl rfl rfl h
  | portSet => apply execPortSet_frame (h := h) <;> rfl
  | portClearCounters => apply execPortClearCounters_frame (h := h) <;> rfl
  | basinIngress => exact execBasinIngress_frame _ rfl rfl rfl rfl h
  | transmissionSelection => exact execTransmissionSelection_frame _ rfl rfl h
  | gateIntervalEnd => exact execGateIntervalEnd_frame _ rfl h
  | overflowFetchBack => exact execOverflowFetchBack_frame _ rfl rfl h
  | streamRecoveryReset => exact execStreamRecoveryReset_frame _ rfl rfl h
  | resequencerTimeout => exact execResequencerTimeout_frame _ rfl rfl rfl rfl h
  | basinSet => apply execBasinSet_frame (h := h) <;> rfl
  | basinClearCounters => apply execBasinClearCounters_frame (h := h) <;> rfl
  | streamSet => apply execStreamSet_frame (h := h) <;> rfl
  | streamUnblock => apply execStreamUnblock_frame (h := h) <;> rfl
  | streamClearCounters => apply execStreamClearCounters_frame (h := h) <;> rfl
  | streamResetSeq => apply execStreamResetSeq_frame (h := h) <;> rfl
  | desyncResponse => apply execDesyncResponse_frame (h := h) <;> rfl
  | runSet => exact execRunSet_frame _ rfl rfl rfl h
  | runClear => exact execRunClear_frame _ rfl h
  | commandDoorbell => exact execCommandDoorbell_frame _ rfl h
  | commandFetch => apply execCommandFetch_frame (h := h) <;> rfl
  | responseHeadWrite => exact execResponseHeadWrite_frame _ rfl h
  | eventHeadWrite => exact execEventHeadWrite_frame _ rfl h
  | receiveRingPost => exact execReceiveRingPost_frame _ rfl rfl rfl rfl rfl h
  | transmitRingDoorbell => exact execTransmitRingDoorbell_frame _ rfl rfl h
  | causeClear => exact execCauseClear_frame _ rfl h
  | registerWrite => exact execRegisterWrite_frame _ rfl h
  | outboundDoorbell => exact execOutboundDoorbell_frame _ rfl rfl rfl rfl rfl h
  | interruptModerationEnd => exact execInterruptModerationEnd_frame _ rfl h
  | dmaReadTimeout => exact execDmaReadTimeout_frame _ rfl rfl rfl rfl h
  | dmaReadError => exact execDmaReadError_frame _ rfl rfl rfl rfl h
  | dmaWriteFailure => apply execDmaWriteFailure_frame (h := h) <;> rfl
  | functionLevelReset => apply execFunctionLevelReset_frame (h := h) <;> rfl
  | ethTransportDatagram => apply execEthTransportDatagram_frame (h := h) <;> rfl
  | segmentTimeout => exact execSegmentTimeout_frame _ rfl h
  | spiWrite => apply execSpiWrite_frame (h := h) <;> rfl
  | spiStatus => exact execSpiStatus_frame _ rfl h
  | spiRead => exact execSpiRead_frame _ rfl h
  | spiUnknownInstruction => exact execSpiUnknownInstruction_frame _ rfl h
  | spiByteGap => apply execSpiByteGap_frame (h := h) <;> rfl
  | favalGet => apply execFavalGet_frame (h := h) <;> rfl
  | favalSub => apply execFavalSub_frame (h := h) <;> rfl
  | favalUnsub => apply execFavalUnsub_frame (h := h) <;> rfl
  | favalList => apply execFavalList_frame (h := h) <;> rfl
  | sysClearCounters => apply execSysClearCounters_frame (h := h) <;> rfl
  | suppressionWindowClose => exact execSuppressionWindowClose_frame _ rfl h
  | eventRateWindow => exact execEventRateWindow_frame _ rfl h
  | poundSet => apply execPoundSet_frame (h := h) <;> rfl
  | poundReset => apply execPoundReset_frame (h := h) <;> rfl
  | poundRemove => apply execPoundRemove_frame (h := h) <;> rfl
  | poundResetComplete => apply execPoundResetComplete_frame (h := h) <;> rfl
  | ownershipTransfer => exact execOwnershipTransfer_frame _ rfl rfl h
  | coreSet => apply execCoreSet_frame (h := h) <;> rfl
  | coreSwap => apply execCoreSwap_frame (h := h) <;> rfl
  | spareTakeover => exact execSpareTakeover_frame _ rfl rfl rfl h
  | slotStart => exact execSlotStart_frame _ rfl rfl rfl rfl h
  | coreMismatch => apply execCoreMismatch_frame (h := h) <;> rfl
  | lbistComplete => apply execLbistComplete_frame (h := h) <;> rfl
  | spareLbist => apply execSpareLbist_frame (h := h) <;> rfl
  | scrubPass => exact execScrubPass_frame _ rfl rfl rfl rfl rfl h
  | sramUncorrectable => apply execSramUncorrectable_frame (h := h) <;> rfl
  | accessFault => exact execAccessFault_frame _ rfl rfl h
  | towlineLinkUp => exact execTowlineLinkUp_frame _ rfl rfl h
  | towlineLinkDown => exact execTowlineLinkDown_frame _ rfl rfl h
  | towlineFrameGap => exact execTowlineFrameGap_frame _ rfl rfl h
  | dataFrameReceived => apply execDataFrameReceived_frame (h := h) <;> rfl
  | favalFrameReceived => apply execFavalFrameReceived_frame (h := h) <;> rfl
  | postFrameReceived => apply execPostFrameReceived_frame (h := h) <;> rfl
  | noteFrameReceived => apply execNoteFrameReceived_frame (h := h) <;> rfl
  | lateFrameReceived => apply execLateFrameReceived_frame (h := h) <;> rfl
  | beatReceived => exact execBeatReceived_frame _ rfl rfl rfl rfl rfl rfl h
  | enumReceived => exact execEnumReceived_frame _ rfl rfl rfl h
  | enumAckReceived => exact execEnumAckReceived_frame _ rfl rfl rfl h
  | assignReceived => exact execAssignReceived_frame _ rfl rfl rfl rfl h
  | topoReceived => exact execTopoReceived_frame _ rfl rfl rfl h
  | creditReceived => exact execCreditReceived_frame _ rfl rfl rfl h
  | towEnumerate => apply execTowEnumerate_frame (h := h) <;> rfl
  | enumTbDelay => exact execEnumTbDelay_frame _ rfl rfl h
  | enumRepeat => exact execEnumRepeat_frame _ rfl rfl h
  | bargeStranded => exact execBargeStranded_frame _ rfl rfl rfl h
  | tugStrandDeclare => exact execTugStrandDeclare_frame _ rfl rfl rfl h
  | strandHoldEnd => exact execStrandHoldEnd_frame _ rfl rfl rfl rfl h
  | relayTimeout => exact execRelayTimeout_frame _ rfl rfl rfl h
  | towResync => apply execTowResync_frame (h := h) <;> rfl
  | resyncTimeout => exact execResyncTimeout_frame _ rfl rfl h
  | resyncExit => exact execResyncExit_frame _ rfl rfl rfl rfl h
  | towPortRelease => apply execTowPortRelease_frame (h := h) <;> rfl
  | towReload => apply execTowReload_frame (h := h) <;> rfl
  | towSet => apply execTowSet_frame (h := h) <;> rfl
  | revertHoldEnd => exact execRevertHoldEnd_frame _ rfl h
  | towlineReseqTimeout => apply execTowlineReseqTimeout_frame (h := h) <;> rfl
  | bargeLoadRetry => exact execBargeLoadRetry_frame _ rfl rfl h
  | lhEncrypt => exact execLhEncrypt_frame _ rfl h
  | lhDecrypt => exact execLhDecrypt_frame _ rfl h
  | lhMacGen => exact execLhMacGen_frame _ rfl h
  | lhMacVerify => exact execLhMacVerify_frame _ rfl h
  | lhHash => exact execLhHash_frame _ rfl h
  | lhSign => exact execLhSign_frame _ rfl h
  | lhVerify => exact execLhVerify_frame _ rfl h
  | lhAgree => exact execLhAgree_frame _ rfl h
  | lhRandom => exact execLhRandom_frame _ rfl h
  | lhClear => exact execLhClear_frame _ rfl h
  | lhRequestComplete => exact execLhRequestComplete_frame _ rfl rfl rfl rfl h
  | lhWatchdogExpiry => apply execLhWatchdogExpiry_frame (h := h) <;> rfl
  | lhRestartComplete => exact execLhRestartComplete_frame _ rfl rfl rfl rfl h
  | blockHandover => exact execBlockHandover_frame _ rfl h
  | blockReturn => exact execBlockReturn_frame _ rfl h
  | claimDeferralTimeout => exact execClaimDeferralTimeout_frame _ rfl rfl rfl rfl rfl rfl h
  | keyGenerate => apply execKeyGenerate_frame (h := h) <;> rfl
  | keyImport => apply execKeyImport_frame (h := h) <;> rfl
  | keyDerive => apply execKeyDerive_frame (h := h) <;> rfl
  | keyUpdate => apply execKeyUpdate_frame (h := h) <;> rfl
  | keyInvalidate => apply execKeyInvalidate_frame (h := h) <;> rfl
  | lightAttest => apply execLightAttest_frame (h := h) <;> rfl
  | lightDebugChallenge => apply execLightDebugChallenge_frame (h := h) <;> rfl
  | lightDebugResponse => apply execLightDebugResponse_frame (h := h) <;> rfl
  | challengeExpiry => exact execChallengeExpiry_frame _ rfl h
  | debugAuthExpiry => exact execDebugAuthExpiry_frame _ rfl rfl rfl h
  | safeEnter => apply execSafeEnter_frame (h := h) <;> rfl
  | safeRelease => apply execSafeRelease_frame (h := h) <;> rfl
  | safeSet => apply execSafeSet_frame (h := h) <;> rfl
  | safeStrobe => apply execSafeStrobe_frame (h := h) <;> rfl
  | breachRun => apply execBreachRun_frame (h := h) <;> rfl
  | breachResultWindowEnd => apply execBreachResultWindowEnd_frame (h := h) <;> rfl
  | latentTestRun => exact execLatentTestRun_frame _ rfl rfl rfl rfl h
  | pondBringIn => apply execPondBringIn_frame (h := h) <;> rfl
  | sramBankCopyComplete => exact execSramBankCopyComplete_frame _ rfl rfl h
  | thermalEmergency => apply execThermalEmergency_frame (h := h) <;> rfl
  | vkeepMon => apply execVkeepMon_frame (h := h) <;> rfl
  | vcoreMon => apply execVcoreMon_frame (h := h) <;> rfl
  | vioMon => apply execVioMon_frame (h := h) <;> rfl
  | clockMon => exact execClockMon_frame _ rfl rfl rfl rfl h
  | busTimeout => exact execBusTimeout_frame _ rfl rfl h
  | emramEcc => exact execEmramEcc_frame _ rfl rfl rfl rfl rfl rfl h
  | tableEcc => exact execTableEcc_frame _ rfl rfl rfl rfl rfl h
  | faultNReadback => exact execFaultNReadback_frame _ rfl rfl h
  | sluiceSilent => apply execSluiceSilent_frame (h := h) <;> rfl
  | sluiceCode => apply execSluiceCode_frame (h := h) <;> rfl
  | trngHealth => exact execTrngHealth_frame _ rfl rfl rfl h
  | powerSet => apply execPowerSet_frame (h := h) <;> rfl
  | powerEnter => apply execPowerEnter_frame (h := h) <;> rfl
  | avsAcknowledge => exact execAvsAcknowledge_frame _ rfl rfl h
  | avsAttemptTimeout => exact execAvsAttemptTimeout_frame _ rfl rfl h
  | transitionComplete => exact execTransitionComplete_frame _ rfl rfl rfl rfl rfl h
  | sleepEntry => apply execSleepEntry_frame (h := h) <;> rfl
  | autoSleep => exact execAutoSleep_frame _ rfl h
  | awakeThreshold => exact execAwakeThreshold_frame _ rfl rfl rfl rfl h
  | wakeTimer => exact execWakeTimer_frame _ rfl rfl rfl rfl h
  | limpWake => exact execLimpWake_frame _ rfl rfl rfl rfl rfl h
  | boardnetLoss => apply execBoardnetLoss_frame (h := h) <;> rfl
  | wakeDomainReset => apply execWakeDomainReset_frame (h := h) <;> rfl
  | resetAssert => apply execResetAssert_frame (h := h) <;> rfl
  | start => apply execStart_frame (h := h) <;> rfl
  | referenceTimeout => apply execReferenceTimeout_frame (h := h) <;> rfl
  | firmwareRun => apply execFirmwareRun_frame (h := h) <;> rfl
  | startComplete => exact execStartComplete_frame _ rfl rfl rfl rfl rfl rfl h
  | startFailure => apply execStartFailure_frame (h := h) <;> rfl
  | startRetry => apply execStartRetry_frame (h := h) <;> rfl
  | lockkeeperRestart => apply execLockkeeperRestart_frame (h := h) <;> rfl
  | imageWrite => apply execImageWrite_frame (h := h) <;> rfl
  | imageVerify => apply execImageVerify_frame (h := h) <;> rfl
  | imageActivate => apply execImageActivate_frame (h := h) <;> rfl
  | imageRollback => apply execImageRollback_frame (h := h) <;> rfl
  | trialEnd => exact execTrialEnd_frame _ rfl rfl rfl rfl h
  | lockThroughPrepared => exact execLockThroughPrepared_frame _ rfl rfl rfl rfl h
  | readyFlagTimeout => apply execReadyFlagTimeout_frame (h := h) <;> rfl
  | highWaterCancel => exact execHighWaterCancel_frame _ rfl rfl rfl rfl h
  | chartWrite => apply execChartWrite_frame (h := h) <;> rfl
  | chartCommit => apply execChartCommit_frame (h := h) <;> rfl
  | chartRollback => apply execChartRollback_frame (h := h) <;> rfl
  | gptpAnnounceReceived => exact execGptpAnnounceReceived_frame _ rfl rfl h
  | linHeaderReceived => exact execLinHeaderReceived_frame _ rfl rfl rfl rfl h
  | thermalEmergencyClear => exact execThermalEmergencyClear_frame _ rfl rfl rfl h
  | supplyRailRecovery => exact execSupplyRailRecovery_frame _ rfl rfl rfl rfl rfl rfl h
  | creditWaitExpiry => exact execCreditWaitExpiry_frame _ rfl rfl h
  | addressResolutionRequest => exact execAddressResolutionRequest_frame _ rfl h
  | debugHalt => exact execDebugHalt_frame _ rfl h
  | debugResume => exact execDebugResume_frame _ rfl h
  | boundaryScanInstruction => exact execBoundaryScanInstruction_frame _ rfl h
  | shaperCreditRecovery => exact execShaperCreditRecovery_frame _ rfl rfl h

/-- No command lists the queue of waiting commands. -/
theorem touched_pending (i : Instr) : touched i .pending = false := by
  cases i <;> rfl

theorem exec_pending {i : Instr} {s t : State} (h : exec i s = .next t) : t.pending = s.pending :=
  same_of_blank (exec_frame h) .pending (touched_pending i)

theorem guardUnit_of_ok {ok : Bool} (h : ok = true) (s : State) : guardUnit ok s = .next s := if_pos h

/-- Every command is guarded by the units it names, and by nothing else. -/
theorem exec_guarded (i : Instr) (s : State) : ∃ t, exec i s = guardUnit i.unitOk t := by
  cases i <;> exact ⟨_, rfl⟩

/-- A command whose operands name units the device has answers a next state. -/
theorem exec_next {i : Instr} (h : i.unitOk = true) (s : State) : ∃ t, exec i s = .next t := by
  obtain ⟨t, ht⟩ := exec_guarded i s
  exact ⟨t, ht.trans (guardUnit_of_ok h t)⟩

theorem unitOk_of_wellFormed {i : Instr} (h : i.wellFormed = true) : i.unitOk = true := by
  simp only [Instr.wellFormed, Bool.and_eq_true] at h
  exact h.1.1

/-- A command that does not list memory leaves it as it is held. -/
theorem exec_memOk_of_untouched {i : Instr} {s t : State} (hm : touched i .mem = false) (hs : memOk s)
    (h : exec i s = .next t) : memOk t := by
  have he : t.mem = s.mem := blank_mem (exec_frame h) hm
  rwa [memOk, he]

/-- Every command keeps memory in canonical form: those that list memory by the lemma of their meaning, the others
because they leave it alone. -/
theorem exec_memOk {i : Instr} {s t : State} (hs : memOk s) (h : exec i s = .next t) : memOk t := by
  cases i with
  | applyPhase => exact execApplyPhase_memOk hs h
  | boundary => exact execBoundary_memOk hs h
  | towpathTableCheck => exact execTowpathTableCheck_memOk hs h
  | sleepPath => exact execSleepPath_memOk hs h
  | aqueductArrival => exact execAqueductArrival_memOk hs h
  | cmacCompletion => exact execCmacCompletion_memOk hs h
  | ethFrameReceived => exact execEthFrameReceived_memOk hs h
  | ethFrameTransmit => exact execEthFrameTransmit_memOk hs h
  | hostPortDelivery => exact execHostPortDelivery_memOk hs h
  | txFrameFetch => exact execTxFrameFetch_memOk hs h
  | eopTimeout => exact execEopTimeout_memOk hs h
  | ts2Timeout => exact execTs2Timeout_memOk hs h
  | basinIngress => exact execBasinIngress_memOk hs h
  | resequencerTimeout => exact execResequencerTimeout_memOk hs h
  | streamSet => exact execStreamSet_memOk hs h
  | streamUnblock => exact execStreamUnblock_memOk hs h
  | streamClearCounters => exact execStreamClearCounters_memOk hs h
  | streamResetSeq => exact execStreamResetSeq_memOk hs h
  | desyncResponse => exact execDesyncResponse_memOk hs h
  | commandFetch => exact execCommandFetch_memOk hs h
  | receiveRingPost => exact execReceiveRingPost_memOk hs h
  | outboundDoorbell => exact execOutboundDoorbell_memOk hs h
  | dmaReadTimeout => exact execDmaReadTimeout_memOk hs h
  | dmaReadError => exact execDmaReadError_memOk hs h
  | ethTransportDatagram => exact execEthTransportDatagram_memOk hs h
  | spiWrite => exact execSpiWrite_memOk hs h
  | spiByteGap => exact execSpiByteGap_memOk hs h
  | favalGet => exact execFavalGet_memOk hs h
  | favalSub => exact execFavalSub_memOk hs h
  | favalUnsub => exact execFavalUnsub_memOk hs h
  | favalList => exact execFavalList_memOk hs h
  | poundResetComplete => exact execPoundResetComplete_memOk hs h
  | dataFrameReceived => exact execDataFrameReceived_memOk hs h
  | favalFrameReceived => exact execFavalFrameReceived_memOk hs h
  | postFrameReceived => exact execPostFrameReceived_memOk hs h
  | noteFrameReceived => exact execNoteFrameReceived_memOk hs h
  | lateFrameReceived => exact execLateFrameReceived_memOk hs h
  | towlineReseqTimeout => exact execTowlineReseqTimeout_memOk hs h
  | lhRequestComplete => exact execLhRequestComplete_memOk hs h
  | lhWatchdogExpiry => exact execLhWatchdogExpiry_memOk hs h
  | claimDeferralTimeout => exact execClaimDeferralTimeout_memOk hs h
  | breachResultWindowEnd => exact execBreachResultWindowEnd_memOk hs h
  | thermalEmergency => exact execThermalEmergency_memOk hs h
  | vkeepMon => exact execVkeepMon_memOk hs h
  | vcoreMon => exact execVcoreMon_memOk hs h
  | vioMon => exact execVioMon_memOk hs h
  | sleepEntry => exact execSleepEntry_memOk hs h
  | boardnetLoss => exact execBoardnetLoss_memOk hs h
  | wakeDomainReset => exact execWakeDomainReset_memOk hs h
  | resetAssert => exact execResetAssert_memOk hs h
  | referenceTimeout => exact execReferenceTimeout_memOk hs h
  | firmwareRun => exact execFirmwareRun_memOk hs h
  | startFailure => exact execStartFailure_memOk hs h
  | imageWrite => exact execImageWrite_memOk hs h
  | imageVerify => exact execImageVerify_memOk hs h
  | imageActivate => exact execImageActivate_memOk hs h
  | imageRollback => exact execImageRollback_memOk hs h
  | chartWrite => exact execChartWrite_memOk hs h
  | chartCommit => exact execChartCommit_memOk hs h
  | chartRollback => exact execChartRollback_memOk hs h
  | _ => exact exec_memOk_of_untouched rfl hs h

/-- The tick changes neither memory nor the queue. -/
theorem tick_inv {s : State} (h : Inv s) : Inv (tick s) := ⟨h.mem, h.queue⟩

/-- Settles O3: memory is empty at reset, and no command waits. -/
theorem resetHoldsInvariant : Obligations.ResetHoldsInvariant := by
  unfold Obligations.ResetHoldsInvariant
  refine ⟨memory_wf_reset, fun c hc => ?_⟩
  cases hc

/-- Settles O4: a waiting command is well formed, so it names units the device has and answers a next state; its meaning
keeps memory canonical and leaves the rest of the queue as it is. -/
theorem everyStepKeepsInvariant : Obligations.EveryStepKeepsInvariant := by
  unfold Obligations.EveryStepKeepsInvariant
  intro s hs
  cases hp : s.pending with
  | nil => exact ⟨tick s, by simp only [step, hp], tick_inv hs⟩
  | cons c rest =>
    have hstep : step s = exec c { s with pending := rest } := by simp only [step, hp]
    have hc : c.wellFormed = true := hs.queue c (by simp [hp])
    obtain ⟨t, ht⟩ := exec_next (unitOk_of_wellFormed hc) { s with pending := rest }
    have hmem : memOk { s with pending := rest } := hs.mem
    have hrest : t.pending = rest := exec_pending ht
    refine ⟨t, hstep.trans ht, exec_memOk hmem ht, fun d hd => hs.queue d ?_⟩
    rw [hp]
    exact List.mem_cons_of_mem c (hrest ▸ hd)

/-- Settles O5: the frame of every command, read region by region. -/
theorem everyCommandFrame : Obligations.EveryCommandFrame := by
  unfold Obligations.EveryCommandFrame
  intro i s t h
  exact changesOnly_of_blank (exec_frame h)

end Sys2Proof.Machine
end

section
/-! The role of the device: what each function that may write the system record does to it, and that no command but a
start with the other strap takes the role of barge away (O43). -/
open Sys2Proof
namespace Sys2Proof.Machine

/-- Every region but that of the system record. -/
@[simp] def offSys (r : Region) : Bool := decide (r ≠ .sys)

/-- The role is outside what `offSys` sets aside. -/
theorem role_of_blank {s t : State}
    (h : (blank offSys t).sys.role = (blank offSys s).sys.role) : t.sys.role = s.sys.role := h

@[simp] theorem ite_role (c : Prop) [Decidable c] (a b : State) :
    (blank offSys (if c then a else b)).sys.role = if c then (blank offSys a).sys.role else (blank offSys b).sys.role :=
  apply_ite (fun s => (blank offSys s).sys.role) c a b

@[simp] theorem foldl_role {α : Type} {g : State → α → State}
    (h : ∀ s a, (blank offSys (g s a)).sys.role = (blank offSys s).sys.role) (l : List α) (s : State) :
    (blank offSys (l.foldl g s)).sys.role = (blank offSys s).sys.role := by
  induction l generalizing s with
  | nil => rfl
  | cons a l ih => exact (ih (g s a)).trans (h s a)

@[simp] theorem foldl_pair_role {α β : Type} {g : β × State → α → β × State}
    (h : ∀ p a, (blank offSys (g p a).2).sys.role = (blank offSys p.2).sys.role) (l : List α) (p : β × State) :
    (blank offSys (l.foldl g p).2).sys.role = (blank offSys p.2).sys.role := by
  induction l generalizing p with
  | nil => rfl
  | cons a l ih => exact (ih (g p a)).trans (h p a)

@[simp] theorem storeBytes_role (i : Nat) (bs : List Byte) (s : State) :
    (blank offSys (storeBytes i bs s)).sys.role = (blank offSys s).sys.role := rfl

@[simp] theorem modSys_role (f : Sys → Sys) (s : State) :
    (blank offSys (modSys f s)).sys.role = (f (blank offSys s).sys).role := rfl

@[simp] theorem writeCopy_role (c : Nat) (b : List Byte) (s : State) :
    (blank offSys (writeCopy c b s)).sys.role = (blank offSys s).sys.role := by
  simp [writeCopy, modTp_frame]

@[simp] theorem writeTable_role (n : TpTable) (s : State) :
    (blank offSys (writeTable n s)).sys.role = (blank offSys s).sys.role := by
  simp [writeTable, modTp_frame]

@[simp] theorem repairCopies_role (s : State) :
    (blank offSys (repairCopies s)).sys.role = (blank offSys s).sys.role := by
  unfold repairCopies
  split <;> simp [useCopies_frame]

@[simp] theorem lhScrub_role (b : LhBox) (n : Nat) (s : State) :
    (blank offSys (lhScrub b n s)).sys.role = (blank offSys s).sys.role := by
  simp [lhScrub]

@[simp] theorem lhScrubOpen_role (b : LhBox) (s : State) :
    (blank offSys (lhScrubOpen b s)).sys.role = (blank offSys s).sys.role := by
  simp [lhScrubOpen, takeFree_frame]

@[simp] theorem abandonLh_role (p : Nat) (s : State) :
    (blank offSys (abandonLh p s)).sys.role = (blank offSys s).sys.role := by
  simp [abandonLh, modBox_frame]

@[simp] theorem completeReset_role (p : Nat) (s : State) :
    (blank offSys (completeReset p s)).sys.role = (blank offSys s).sys.role := by
  simp only [completeReset]
  split <;> simp [clearSnap_frame, dropSends_frame, modFv_frame, modHostq_frame, modPound_frame, modPq_frame,
      modSlu_frame, modWin_frame, setClaim_frame]

@[simp] theorem writeBack_role (p r : Nat) (l : List Written) (s : State) :
    (blank offSys (writeBack p r l s)).sys.role = (blank offSys s).sys.role := by
  unfold writeBack
  split <;> simp [modHring_frame, modWin_frame]

@[simp] theorem discardRx_role (p r filter n : Nat) (x : NetFrame) (s : State) :
    (blank offSys (discardRx p r filter n x s)).sys.role = (blank offSys s).sys.role := by
  simp [discardRx, countPort_frame, emit_frame, modHring_frame]

@[simp] theorem deliverRing_role (p r filter : Nat) (x : NetFrame) (s : State) :
    (blank offSys (deliverRing p r filter x s)).sys.role = (blank offSys s).sys.role := by
  simp only [deliverRing]
  repeat' split
  all_goals simp [countPort_frame, mbxError_frame, modHring_frame]

@[simp] theorem flushDone_role (k : Nat) (s : State) :
    (blank offSys (flushDone k s)).sys.role = (blank offSys s).sys.role := by
  simp [flushDone, modHring_frame]

@[simp] theorem complete_role (k id st sec ns : Nat) (s : State) :
    (blank offSys (complete k id st sec ns s)).sys.role = (blank offSys s).sys.role := by
  simp [complete, modHring_frame]

@[simp] theorem pushDone_role (k tag n : Nat) (st : Option Nat) (s : State) :
    (blank offSys (pushDone k tag n st s)).sys.role = (blank offSys s).sys.role := by
  simp [pushDone, modHring_frame]

@[simp] theorem toKeeper_role (p : Nat) (x : NetFrame) (s : State) :
    (blank offSys (toKeeper p x s)).sys.role = (blank offSys s).sys.role := by
  simp [toKeeper, relaySync_frame, signalling_frame]

@[simp] theorem ingressDone_role (x : NetFrame) (ports : List Nat) (any : Bool) (s : State) (vid : Nat) :
    (blank offSys (ingressDone x ports any s vid)).sys.role = (blank offSys s).sys.role := by
  unfold ingressDone
  split <;> simp

@[simp] theorem admitAll_role (r : Routed) (full : Bool) (s : State) :
    (blank offSys (admitAll r full s)).sys.role = (blank offSys s).sys.role := by
  unfold admitAll
  split
  · simp [countG_frame]
  · split
    · simp [countG_frame]
    · refine (ingressDone_role _ _ _ _ _).trans (foldl_pair_role (fun acc p => ?_) _ _)
      split <;> simp [admitHost_frame, enqueueCopy_frame]

@[simp] theorem releaseRun_role (i : Nat) (full : Bool) (n : Nat) (s : State) :
    (blank offSys (releaseRun i full n s)).sys.role = (blank offSys s).sys.role := by
  induction n generalizing s with
  | zero => rfl
  | succ n ih =>
    rw [releaseRun]
    repeat' split
    all_goals simp [ih, modStream_frame]

@[simp] theorem releaseAll_role (i : Nat) (full : Bool) (s : State) :
    (blank offSys (releaseAll i full s)).sys.role = (blank offSys s).sys.role := by
  simp [releaseAll, countS_frame, modStream_frame]

@[simp] theorem resequence_role (i seq : Nat) (r : Routed) (full : Bool) (s : State) :
    (blank offSys (resequence i seq r full s)).sys.role = (blank offSys s).sys.role := by
  simp [resequence, countS_frame, modStream_frame]

@[simp] theorem streamFrame_role (i : Nat) (r : Routed) (full : Bool) (s : State) :
    (blank offSys (streamFrame i r full s)).sys.role = (blank offSys s).sys.role := by
  simp [streamFrame, countS_frame, emit_frame, meterFrame_frame, modStream_frame]
  split <;> simp [countS_frame, meterFrame_frame, recoverSeq_frame]

/-! The classes of Faval: what a SET, a GET and the actions of a class do to the role. -/

/-- An action leaves the role as it is, whatever becomes of it. -/
structure ActKeepsRole (a : ActSpec) : Prop where
  run    : ∀ p i b s, (blank offSys (a.run p i b s)).sys.role = (blank offSys s).sys.role
  taken  : ∀ s, (blank offSys (a.taken s)).sys.role = (blank offSys s).sys.role
  refuse : ∀ st b s, (blank offSys (a.refuse st b s)).sys.role = (blank offSys s).sys.role
  held   : ∀ {r s t}, a.held r s = some t → (blank offSys t).sys.role = (blank offSys s).sys.role

/-- The SETs, GETs and actions of a class leave the role as it is. -/
structure KeepsRole (k : ClassSpec) : Prop where
  set    : ∀ i p ws s, (blank offSys (applySet k i p ws s)).sys.role = (blank offSys s).sys.role
  onRead : ∀ i p o n s, (blank offSys (k.onRead i p o n s)).sys.role = (blank offSys s).sys.role
  held   : ∀ {r p ws s t}, k.held r p ws s = some t → (blank offSys t).sys.role = (blank offSys s).sys.role
  acts   : ∀ a ∈ k.acts, ActKeepsRole a

/-- A class that leaves the system record alone. -/
theorem KeepsRole.of {k : ClassSpec} (h : Keeps offSys k) : KeepsRole k where
  set i p ws s := by rw [applySet_frame offSys h]
  onRead i p o n s := by rw [h.onRead]
  held e := by rw [h.held e]
  acts a ha :=
    { run := fun p i b s => by rw [(h.acts a ha).run]
      taken := fun s => by rw [(h.acts a ha).taken]
      refuse := fun st b s => by rw [(h.acts a ha).refuse]
      held := fun e => by rw [(h.acts a ha).held e] }

/-- A SET whose fields lie outside the system record leaves the role as it is when what follows from them does. -/
theorem applySet_role {k : ClassSpec} (hr : ∀ {i p rc}, k.record i p = some rc → FldsKeep offSys rc.flds)
    (ha : ∀ s0 i p ws s, (blank offSys (k.after s0 i p ws s)).sys.role = (blank offSys s).sys.role)
    (i p : Nat) (ws : List (Nat × Nat)) (s : State) :
    (blank offSys (applySet k i p ws s)).sys.role = (blank offSys s).sys.role := by
  unfold applySet
  split
  next rc h => rw [ha, writeFlds_frame offSys (hr h)]
  next => rfl

theorem serve_role (k : ClassSpec) (verb : Nat) (r : Req) {body : State → State}
    (hb : ∀ s, (blank offSys (body s)).sys.role = (blank offSys s).sys.role) (s : State) :
    (blank offSys (serve k verb r body s)).sys.role = (blank offSys s).sys.role := by
  unfold serve
  repeat' split
  all_goals simp [answer_frame, received_frame, relayTo_frame, hb]

theorem doSet_role {k : ClassSpec} (hk : KeepsRole k) (r : Req) (s : State) :
    (blank offSys (doSet k r s)).sys.role = (blank offSys s).sys.role := by
  unfold doSet
  dsimp only
  split
  · split
    · simp [stage_frame, accepted_frame]
    · split
      next u hu => simp [hk.held hu, accepted_frame]
      next => simp [answer_frame, hk.set, accepted_frame]
  · simp [answer_frame]

theorem doAct_role {k : ClassSpec} (hk : KeepsRole k) (r : Req) (s : State) :
    (blank offSys (doAct k r s)).sys.role = (blank offSys s).sys.role := by
  unfold doAct
  split
  next => simp [answer_frame]
  next a hf =>
    have ha := hk.acts a (List.mem_of_find?_eq_some hf)
    dsimp only
    split
    · split
      · simp [stage_frame, ha.taken, accepted_frame]
      · split
        next u hu => simp [ha.held hu, accepted_frame]
        next => simp [answer_frame, ha.run, accepted_frame]
    · simp [answer_frame, ha.refuse]

theorem doGet_role {k : ClassSpec} (hk : KeepsRole k) (r : Req) (s : State) :
    (blank offSys (doGet k r s)).sys.role = (blank offSys s).sys.role := by
  unfold doGet
  split <;> simp [hk.onRead, answer_frame, accepted_frame]

theorem cmdSet_role {k : ClassSpec} (hk : KeepsRole k) (r : Req) (s : State) : (cmdSet k r s).sys.role = s.sys.role :=
  serve_role k 2 r (doSet_role hk r) s

theorem cmdAct_role {k : ClassSpec} (hk : KeepsRole k) (code : Nat) (r : Req) (s : State) :
    (cmdAct k code r s).sys.role = s.sys.role :=
  serve_role k 3 (actReq code r) (doAct_role hk (actReq code r)) s

theorem streamClass_keepsRole : KeepsRole streamClass where
  set := applySet_role (fun h => streamRecord_keeps offSys rfl h) (fun s0 i p ws s => by
    simp [streamClass, modStream_frame])
  onRead _ _ _ _ _ := rfl
  held h := by cases h
  acts a ha := by
    simp only [streamClass, List.mem_cons, List.not_mem_nil, or_false] at ha
    rcases ha with rfl | rfl | rfl
    · exact ⟨fun _ _ _ _ => rfl, fun _ => rfl, fun _ _ _ => rfl, fun h => by cases h⟩
    · exact ⟨fun _ _ _ _ => rfl, fun _ => rfl, fun _ _ _ => rfl, fun h => by cases h⟩
    · exact ⟨fun _ _ _ _ => by simp [emit_frame, countS_frame, modStream_frame], fun _ => rfl, fun _ _ _ => rfl,
        fun h => by cases h⟩


@[simp] theorem departure_role (p : Nat) (x : NetFrame) (f : EthFrame) (s : State) :
    (blank offSys (departure p x f s)).sys.role = (blank offSys s).sys.role := by
  unfold departure
  repeat' split
  all_goals simp [pushTs_frame]

@[simp] theorem drainRx_role (p q n : Nat) (s : State) :
    (blank offSys (drainRx p q n s)).sys.role = (blank offSys s).sys.role := by
  induction n generalizing s with
  | zero => rfl
  | succ n ih =>
    rw [drainRx]
    dsimp only
    repeat' split
    all_goals simp [ih, modAq_frame, modHring_frame, poundDrop_frame]

@[simp] theorem drainQueue_role (p q : Nat) (s : State) :
    (blank offSys (drainQueue p q s)).sys.role = (blank offSys s).sys.role := by
  simp [drainQueue]

@[simp] theorem offerPound_role (d : Dest) (a : AqFrame) (s : State) :
    (blank offSys (offerPound d a s)).sys.role = (blank offSys s).sys.role := by
  simp [offerPound, countA_frame, modAq_frame, poundDrop_frame]

@[simp] theorem offerNow_role (idx : Nat) (d : Dest) (a : AqFrame) (s : State) :
    (blank offSys (offerNow idx d a s)).sys.role = (blank offSys s).sys.role := by
  unfold offerNow
  split <;> simp [offerCan_frame, offerLin_frame, offerSched_frame, offerTow_frame, offerTunnel_frame]

@[simp] theorem offer_role (idx : Nat) (d : Dest) (a : AqFrame) (s : State) :
    (blank offSys (offer idx d a s)).sys.role = (blank offSys s).sys.role := by
  simp [offer, modAq_frame]

@[simp] theorem presentOffers_role (s : State) :
    (blank offSys (presentOffers s)).sys.role = (blank offSys s).sys.role := by
  simp [presentOffers, modAq_frame]

@[simp] theorem followChain_role (idx : Nat) (only : Bool) (a : AqFrame) (n e : Nat) (s : State) :
    (blank offSys (followChain idx only a n e s)).sys.role = (blank offSys s).sys.role := by
  induction n generalizing e s with
  | zero => rfl
  | succ n ih =>
    unfold followChain
    simp [ih, countA_frame, emit_frame]

@[simp] theorem deliverRoute_role (idx : Nat) (a : AqFrame) (s : State) :
    (blank offSys (deliverRoute idx a s)).sys.role = (blank offSys s).sys.role := by
  simp [deliverRoute, countRoute_frame]

@[simp] theorem authFailed_role (idx i : Nat) (a : AqFrame) (s : State) :
    (blank offSys (authFailed idx i a s)).sys.role = (blank offSys s).sys.role := by
  simp [authFailed, countCtx_frame, countRoute_frame, emit_frame]

@[simp] theorem deliverTurn_role (idx : Nat) (a : AqFrame) (s : State) :
    (blank offSys (deliverTurn idx a s)).sys.role = (blank offSys s).sys.role := by
  simp [deliverTurn, pushCmac_frame]

@[simp] theorem authStart_role (idx i : Nat) (a : AqFrame) (s : State) :
    (blank offSys (authStart idx i a s)).sys.role = (blank offSys s).sys.role := by
  simp [authStart, countA_frame, countRoute_frame, pushCmac_frame]

@[simp] theorem authDone_role (idx i : Nat) (a : AqFrame) (s : State) :
    (blank offSys (authDone idx i a s)).sys.role = (blank offSys s).sys.role := by
  simp [authDone, countCtx_frame, countRoute_frame, emit_frame, keyUse_frame, modCtx_frame, setFv_frame]

@[simp] theorem arrive_role (a : AqFrame) (s : State) :
    (blank offSys (arrive a s)).sys.role = (blank offSys s).sys.role := by
  simp only [arrive]
  repeat' split
  all_goals simp [countA_frame, countRoute_frame, takeToken_frame]

@[simp] theorem takeTurn_role (q : CmacReq) (s : State) :
    (blank offSys (takeTurn q s)).sys.role = (blank offSys s).sys.role := by
  unfold takeTurn
  split <;> simp

@[simp] theorem settleTurns_role (l : List CmacReq) (s : State) :
    (blank offSys (settleTurns l s).2).sys.role = (blank offSys s).sys.role := by
  refine foldl_pair_role (fun acc q => ?_) l ([], s)
  split
  · rfl
  · exact takeTurn_role q acc.2

@[simp] theorem writeSlot_role (e k : Nat) (b : List Byte) (s : State) :
    (blank offSys (writeSlot e k b s)).sys.role = (blank offSys s).sys.role := by
  simp [writeSlot, modWin_frame]

@[simp] theorem sendWindow_role (p e : Nat) (s : State) :
    (blank offSys (sendWindow p e s)).sys.role = (blank offSys s).sys.role := by
  simp only [sendWindow]
  repeat' split
  all_goals simp [modPq_frame, stopIfDone_frame]

@[simp] theorem lhEnd_role (p got : Nat) (trunc : Bool) (s : State) :
    (blank offSys (lhEnd p got trunc s)).sys.role = (blank offSys s).sys.role := by
  simp only [lhEnd]
  repeat' split
  all_goals simp [lhFail_frame, modBox_frame, takeFree_frame]

@[simp] theorem lhAbort_role (p : Nat) (s : State) :
    (blank offSys (lhAbort p s)).sys.role = (blank offSys s).sys.role := by
  simp [lhAbort, lhFail_frame]

@[simp] theorem lhAbortAll_role (s : State) :
    (blank offSys (lhAbortAll s)).sys.role = (blank offSys s).sys.role := by
  simp [lhAbortAll]

@[simp] theorem forceCut_role (bits cause : Nat) (s : State) :
    (blank offSys (forceCut bits cause s)).sys.role = (blank offSys s).sys.role := by
  simp [forceCut, emit_frame, lhCount_frame, returnBlock_frame]

@[simp] theorem endDebug_role (s : State) :
    (blank offSys (endDebug s)).sys.role = (blank offSys s).sys.role := by
  simp only [endDebug]
  repeat' split
  all_goals simp [modCore_frame, modLight_frame]


@[simp] theorem openChallenge_role (scope : Nat) (s : State) :
    (blank offSys (openChallenge scope s)).sys.role = (blank offSys s).sys.role := by
  simp [openChallenge, modLight_frame, takeFree_frame]

theorem lightClass_keepsRole : KeepsRole lightClass where
  set := applySet_role
    (fun h => by
      simp only [lightClass] at h
      split at h
      · obtain rfl := Option.some.inj h
        exact lightRec_keeps offSys rfl
      · split at h
        · obtain rfl := Option.some.inj h
          exact FldsKeep.nil
        · cases h)
    (fun _ _ _ _ _ => rfl)
  onRead _ _ _ _ _ := rfl
  held h := by cases h
  acts a ha := by
    simp only [lightClass, List.mem_cons, List.not_mem_nil, or_false] at ha
    rcases ha with rfl | rfl | rfl
    · exact ⟨fun _ _ _ _ => by simp [takeFree_frame, keyUse_frame], fun _ => rfl, fun _ _ _ => rfl, fun h => by cases h⟩
    · exact ⟨fun _ _ _ _ => openChallenge_role _ _, fun _ => rfl, fun _ _ _ => rfl, fun h => by cases h⟩
    · exact ⟨fun _ _ _ _ => by simp [grantDebug_frame], fun _ => rfl, fun _ _ _ => by simp [failDebug_frame],
        fun h => by cases h⟩


@[simp] theorem lightReset_role (s : State) :
    (blank offSys (lightReset s)).sys.role = (blank offSys s).sys.role := by
  unfold lightReset
  split
  · rfl
  · dsimp only
    split
    · split <;> simp only [emit_frame, modLight_frame, returnBlock_frame, endDebug_role, lhAbortAll_role, offSys, ne_eq,
        reduceCtorEq, not_false_eq_true, decide_true]
    · simp [returnBlock_frame, modLight_frame]

@[simp] theorem keeperDown_role (s : State) :
    (blank offSys (keeperDown s)).sys.role = (blank offSys s).sys.role := rfl

@[simp] theorem poisonWord_role (addr : Nat) (s : State) :
    (blank offSys (poisonWord addr s)).sys.role = (blank offSys s).sys.role := by
  simp [poisonWord]

@[simp] theorem sramUncorrectable_role (addr : Nat) (s : State) :
    (blank offSys (sramUncorrectable addr s)).sys.role = (blank offSys s).sys.role := by
  simp [sramUncorrectable, detect_frame, modAps_frame]

@[simp] theorem accessFault_role (p : Nat) (s : State) :
    (blank offSys (accessFault p s)).sys.role = (blank offSys s).sys.role := by
  simp [accessFault]

@[simp] theorem enterSleep_role (s : State) :
    (blank offSys (enterSleep s)).sys.role = (blank offSys s).sys.role := by
  simp [enterSleep, modPwr_frame]

@[simp] theorem forcedOff_role (s : State) :
    (blank offSys (forcedOff s)).sys.role = (blank offSys s).sys.role := by
  simp [forcedOff, modPwr_frame, refuseLevel_frame, setPowerState_frame, stopPartitions_frame, storeNodes_frame,
      supsStandby_frame, vcoreOff_frame]

@[simp] theorem vcoreLost_role (again : Bool) (s : State) :
    (blank offSys (vcoreLost again s)).sys.role = (blank offSys s).sys.role := by
  simp [vcoreLost, detect_frame, modPwr_frame, railOut_frame]

theorem nextOr_role {s : State} {o : Out} (h : ∀ t, o = .next t → t.sys.role = s.sys.role) :
    (nextOr s o).sys.role = s.sys.role := by
  unfold nextOr
  split
  · exact h _ rfl
  · rfl

/-- A command that does not list the system record leaves the role as it is. -/
theorem exec_role_of_untouched (i : Instr) (hi : touched i .sys = false) {s t : State} (h : exec i s = .next t) :
    t.sys.role = s.sys.role :=
  congrArg Sys.role (same_of_blank (exec_frame h) .sys hi)

theorem nextOr_exec_role (i : Instr) (hi : touched i .sys = false) (s : State) :
    (nextOr s (exec i s)).sys.role = s.sys.role :=
  nextOr_role fun _ h => exec_role_of_untouched i hi h

theorem ite_role_of {c : Prop} [Decidable c] {a b s : State} (ha : a.sys.role = s.sys.role) (hb : b.sys.role =
  s.sys.role) :
    (if c then a else b).sys.role = s.sys.role := by
  split
  · exact ha
  · exact hb

@[simp] theorem localReaction_role (bp i e : Nat) (s : State) :
    (blank offSys (localReaction bp i e s)).sys.role = (blank offSys s).sys.role := by
  change (localReaction bp i e s).sys.role = s.sys.role
  refine ite_role_of (nextOr_exec_role (.shortTrip i e _) rfl s) ?_
  refine ite_role_of (nextOr_exec_role (.limitTimerExpiry i e _) rfl s) ?_
  refine ite_role_of (nextOr_exec_role (.cliffLatchSet i e _) rfl s) ?_
  refine ite_role_of (nextOr_exec_role (.reverseTrip i e _) rfl s) ?_
  refine ite_role_of (role_of_blank (by simp [stuckSeen_frame])) ?_
  refine ite_role_of (nextOr_exec_role (.segmentFailure i _) rfl s) ?_
  refine ite_role_of (nextOr_exec_role (.groupFallVFull i _) rfl s) ?_
  refine ite_role_of (nextOr_exec_role (.groupRiseVOv i _) rfl s) ?_
  refine ite_role_of rfl ?_
  refine ite_role_of (nextOr_exec_role .lidSensorMismatch rfl s) ?_
  refine ite_role_of (role_of_blank (by simp [gateOff_frame])) ?_
  refine ite_role_of (role_of_blank (by simp [pinch_frame])) ?_
  refine ite_role_of (role_of_blank (by simp [bridgeStop_frame])) ?_
  refine ite_role_of (nextOr_exec_role (.adcReferenceFailure i _ _) rfl s) ?_
  refine ite_role_of (nextOr_exec_role (.adcCrossCheckFailure i) rfl s) ?_
  refine ite_role_of (role_of_blank (by simp [declareSilent_frame])) ?_
  refine ite_role_of (nextOr_exec_role (.budgetFail i) rfl s) ?_
  refine ite_role_of (role_of_blank (by simp [tpSet_frame])) ?_
  refine ite_role_of (nextOr_exec_role .clockMon rfl s) ?_
  refine ite_role_of (role_of_blank (keeperDown_role s)) ?_
  refine ite_role_of (ite_role_of (role_of_blank (by simp [forcedEnd_frame])) rfl) ?_
  refine ite_role_of (ite_role_of (role_of_blank (by simp [forcedEnd_frame])) rfl) ?_
  refine ite_role_of rfl ?_
  refine ite_role_of (nextOr_exec_role (.silenceExpiry i) rfl s) ?_
  refine ite_role_of rfl ?_
  refine ite_role_of (role_of_blank (by simp [modSup_frame, supOff_frame])) ?_
  refine ite_role_of (role_of_blank (by simp [condemn_frame])) ?_
  refine ite_role_of (nextOr_exec_role (.canDominantTimeout i) rfl s) ?_
  refine ite_role_of (role_of_blank (by simp [modCanCh_frame, enterBusOff_frame])) ?_
  refine ite_role_of (role_of_blank (by simp [setLink_frame])) ?_
  refine ite_role_of (role_of_blank (by simp [servoHold_frame])) ?_
  refine ite_role_of (role_of_blank (lightReset_role s)) ?_
  exact ite_role_of rfl (ite_role_of rfl rfl)

@[simp] theorem fullReaction_role (r : BreachRun) (s : State) :
    (blank offSys (fullReaction r s)).sys.role = (blank offSys s).sys.role := by
  simp [fullReaction, modSaf_frame, takeFree_frame]

@[simp] theorem setParam_role (p : ChartParam) (i v : Nat) (s : State) :
    (blank offSys (setParam p i v s)).sys.role = (blank offSys s).sys.role := by
  cases p <;> simp [setParam, modAq_frame, modBarge_frame, modBudget_frame, modCluster_frame, modFv_frame,
      modGport_frame,
    modNmc_frame, modPond_frame, modPq_frame, modPwr_frame, modSlu_frame, modTide_frame, modTp_frame]

@[simp] theorem clearParam_role (p : ChartParam) (i : Nat) (s : State) :
    (blank offSys (clearParam p i s)).sys.role = (blank offSys s).sys.role := by
  unfold clearParam
  split <;> simp [modGport_frame, modPq_frame]

@[simp] theorem clearParams_role (old new : List ChartItem) (s : State) :
    (blank offSys (clearParams old new s)).sys.role = (blank offSys s).sys.role := by
  simp [clearParams]

theorem plainClasses_keepsRole {k : ClassSpec} (h : k ∈ plainClasses) : KeepsRole k := by
  simp only [plainClasses, List.mem_cons, List.not_mem_nil, or_false] at h
  rcases h with rfl | rfl | rfl | rfl | rfl | rfl | rfl | rfl | rfl | rfl | rfl | rfl | rfl | rfl | rfl | rfl | rfl |
      rfl | rfl | rfl | rfl | rfl | rfl | rfl | rfl | rfl
  · exact KeepsRole.of (sysClass_keeps offSys rfl)
  · exact KeepsRole.of (cycleClass_keeps offSys rfl rfl rfl)
  · exact KeepsRole.of (timeClass_keeps offSys rfl rfl)
  · exact KeepsRole.of (chanClass_keeps offSys rfl)
  · exact KeepsRole.of (wireClass_keeps offSys rfl rfl)
  · exact KeepsRole.of (padClass_keeps offSys rfl)
  · exact KeepsRole.of (brClass_keeps offSys rfl rfl)
  · exact KeepsRole.of (dinClass_keeps offSys rfl rfl rfl)
  · exact KeepsRole.of (foutClass_keeps offSys rfl)
  · exact KeepsRole.of (ainClass_keeps offSys rfl)
  · exact KeepsRole.of (tpClass_keeps offSys rfl rfl rfl)
  · exact KeepsRole.of (canClass_keeps offSys rfl rfl rfl)
  · exact KeepsRole.of (linClass_keeps offSys rfl)
  · exact KeepsRole.of (nmClass_keeps offSys rfl)
  · exact KeepsRole.of (routeClass_keeps offSys rfl)
  · exact KeepsRole.of (portClass_keeps offSys rfl rfl)
  · exact KeepsRole.of (basinClass_keeps offSys rfl)
  · exact streamClass_keepsRole
  · exact KeepsRole.of (coreClass_keeps offSys rfl)
  · exact KeepsRole.of (towClass_keeps offSys rfl rfl)
  · exact lightClass_keepsRole
  · exact KeepsRole.of (keyClass_keeps offSys rfl rfl rfl rfl)
  · exact KeepsRole.of (safeClass_keeps offSys rfl rfl rfl rfl rfl rfl rfl rfl rfl rfl rfl rfl)
  · exact KeepsRole.of (breachClass_keeps offSys rfl)
  · exact KeepsRole.of (pondClass_keeps offSys rfl rfl rfl rfl rfl rfl)
  · exact KeepsRole.of (powerClass_keeps offSys rfl rfl rfl rfl rfl rfl rfl rfl rfl rfl rfl rfl)

theorem chartClasses_keepsRole {k : ClassSpec} (h : k ∈ chartClasses) : KeepsRole k := by
  rcases List.mem_append.mp h with h | h
  · exact plainClasses_keepsRole h
  · rw [List.mem_singleton.mp h]
    exact KeepsRole.of (poundClass_keeps offSys rfl rfl rfl rfl rfl rfl rfl rfl rfl rfl)

@[simp] theorem chartFields_role (c i part : Nat) (ws : List (Nat × Nat)) (s : State) :
    (blank offSys (chartFields c i part ws s)).sys.role = (blank offSys s).sys.role := by
  unfold chartFields
  split
  next k h => exact (chartClasses_keepsRole (List.mem_of_find?_eq_some h)).set i part ws s
  next => rfl

@[simp] theorem loadItem_role (x : ChartItem) (s : State) :
    (blank offSys (loadItem x s)).sys.role = (blank offSys s).sys.role := by
  unfold loadItem
  split <;> simp

@[simp] theorem commitTable_role (l : List ChartItem) (s : State) :
    (blank offSys (commitTable l s)).sys.role = (blank offSys s).sys.role := by
  unfold commitTable
  split <;> simp

@[simp] theorem liveCommit_role (k : Nat) (s : State) :
    (blank offSys (liveCommit k s)).sys.role = (blank offSys s).sys.role := by
  simp [liveCommit, emit_frame, takeSlot_frame]

@[simp] theorem commitNow_role (c : Commit) (s : State) :
    (blank offSys (commitNow c s)).sys.role = (blank offSys s).sys.role := by
  simp only [commitNow]
  repeat' split
  all_goals simp [answer_frame, chartRefused_frame, modImg_frame, setSlotState_frame]

@[simp] theorem commitBoundary_role (img : Bool) (s : State) :
    (blank offSys (commitBoundary img s)).sys.role = (blank offSys s).sys.role := by
  unfold commitBoundary
  split <;> simp [modImg_frame]

@[simp] theorem writeUnit_role (base off : Nat) (d : List Byte) (s : State) :
    (blank offSys (writeUnit base off d s)).sys.role = (blank offSys s).sys.role := by
  simp [writeUnit]

theorem imageClass_keepsRole : KeepsRole imageClass where
  set := applySet_role
    (fun h => by
      simp only [imageClass] at h
      split at h
      · obtain rfl := Option.some.inj h
        exact imageRec_keeps offSys _
      · cases h)
    (fun _ _ _ _ _ => rfl)
  onRead _ _ _ _ _ := rfl
  held h := by cases h
  acts a ha := by
    simp only [imageClass, List.mem_cons, List.not_mem_nil, or_false] at ha
    rcases ha with rfl | rfl | rfl | rfl
    · exact ⟨fun _ _ _ _ => by simp [setBankState_frame], fun _ => rfl, fun _ _ _ => rfl, fun h => by cases h⟩
    · exact ⟨fun _ _ _ _ => by simp [setBankState_frame, modBankImg_frame], fun _ => rfl,
        fun _ _ _ => by simp [emit_frame, setBankState_frame, modBankImg_frame], fun h => by cases h⟩
    · exact ⟨fun _ _ _ _ => rfl, fun _ => rfl, fun _ _ _ => rfl, fun h => by
        obtain rfl := Option.some.inj h
        simp [beginAct_frame]⟩
    · exact ⟨fun _ _ _ _ => rfl, fun _ => rfl, fun _ _ _ => rfl, fun h => by
        obtain rfl := Option.some.inj h
        simp [rollback_frame]⟩

theorem chartSpec_keepsRole : KeepsRole chartSpec where
  set := applySet_role (fun h => by cases h) (fun _ _ _ _ _ => rfl)
  onRead _ _ _ _ _ := rfl
  held h := by cases h
  acts a ha := by
    simp only [chartSpec, List.mem_cons, List.not_mem_nil, or_false] at ha
    rcases ha with rfl | rfl | rfl
    · exact ⟨fun _ _ _ _ => by simp [setSlotState_frame, modSlotImg_frame], fun _ => rfl, fun _ _ _ => rfl,
        fun h => by cases h⟩
    · exact ⟨fun _ _ _ _ => rfl, fun _ => rfl, fun _ _ _ => by simp [refuseChart_frame, readSlot_frame], fun h => by
        obtain rfl := Option.some.inj h
        simp [beginCommit_frame, readSlot_frame]⟩
    · exact ⟨fun _ _ _ _ => rfl, fun _ => rfl, fun _ _ _ => rfl, fun h => by
        obtain rfl := Option.some.inj h
        simp [beginCommit_frame]⟩

theorem classOf_keepsRole (c : Nat) : KeepsRole (classOf c) := by
  unfold classOf
  cases h : classes.find? (fun k => decide (k.code = c)) with
  | none => exact KeepsRole.of (noClass_keeps offSys c)
  | some k =>
    rcases List.mem_append.mp (List.mem_of_find?_eq_some h) with hm | hm
    · exact chartClasses_keepsRole hm
    · simp only [List.mem_cons, List.not_mem_nil, or_false] at hm
      rcases hm with rfl | rfl
      · exact imageClass_keepsRole
      · exact chartSpec_keepsRole



@[simp] theorem failStart_role (cause : Nat) (s : State) :
    (blank offSys (failStart cause s)).sys.role = (blank offSys s).sys.role := by
  have h : (blank offSys (revertTrial (modFv (fun v => { v with fw := false, started := false })
      (writeBoot (fun r => { r with
      triesA := if (if s.img.recovery then none else s.img.running) = some 0 then sat 8 (r.triesA + 1) else r.triesA
      triesB := if (if s.img.recovery then none else s.img.running) = some 1 then sat 8 (r.triesB + 1) else r.triesB
      backoff := sat 8 (r.backoff + 1), lastFail := cause, fails := sat 32 (r.fails + 1) }) s)))).sys.role =
      (blank offSys s).sys.role := by
    simp [revertTrial_frame, modFv_frame, writeBoot_frame]
  unfold failStart
  rw [tpSet_frame offSys rfl rfl rfl]
  exact h

@[simp] theorem enforce_role (k : Nat) (s : State) :
    (blank offSys (enforce k s)).sys.role = (blank offSys s).sys.role := by
  unfold enforce
  split <;> simp [emit_frame, migrateChart_frame, modImg_frame, takeSlot_frame]

@[simp] theorem loadRecords_role (l : List ChartItem) (s : State) :
    (blank offSys (loadRecords l s)).sys.role = (blank offSys s).sys.role := by
  simp [loadRecords, quiet, modSaf_frame, modFv_frame, modNet_frame, modSlu_frame, modWire_frame, modPad_frame,
      respread_frame]

@[simp] theorem mapMemories_role (ddr xspi : Nat) (s : State) :
    (blank offSys (mapMemories ddr xspi s)).sys.role = (blank offSys s).sys.role := by
  simp [mapMemories, probe_frame]

/-- A start that loads everything leaves a barge a barge: only a device that is none takes the role of tug. -/
theorem loadAll_barge (ddr xspi : Nat) {s : State} (hs : s.sys.role = .barge) : (loadAll ddr xspi s).sys.role = .barge
  := by
  have h1 : (modImg (fun i => { i with chartOn := true }) (loadRecords (slotImgAt s 0).items s)).sys.role = .barge :=
    (loadRecords_role (slotImgAt s 0).items s).trans hs
  unfold loadAll
  simp only [hs, if_true, h1, ne_eq, not_true_eq_false, false_and, if_false]
  refine (role_of_blank ?_).trans h1
  simp [ovfGate_frame, modPwr_frame, modPound_frame, resumeFresh_frame, resumeCtxs_frame, startPositions_frame,
      startNodes_frame]

@[simp] theorem loadChanges_role (old new : List ChartItem) (s : State) :
    (blank offSys (loadChanges old new s)).sys.role = (blank offSys s).sys.role := by
  simp [loadChanges, quiet, modSaf_frame]

@[simp] theorem loadDiff_role (s : State) :
    (blank offSys (loadDiff s)).sys.role = (blank offSys s).sys.role := by
  unfold loadDiff
  split
  · rfl
  · dsimp only
    split <;> rename_i heq <;> simp [modImg_frame, pickChart_frame_eq offSys rfl heq]

@[simp] theorem runFaval_role (cls verb : Nat) (r : Req) (s : State) :
    (blank offSys (runFaval cls verb r s)).sys.role = (blank offSys s).sys.role := by
  have hk := classOf_keepsRole cls
  refine serve_role _ _ _ (fun u => ?_) s
  unfold verbBody
  split
  · unfold getBody
    split
    · simp [timeGetBody_frame]
    · exact doGet_role hk r u
  · exact doSet_role hk r u
  · exact doAct_role hk r u
  · unfold subBody
    split
    · simp [wireSubBody_frame]
    · simp [doSub_frame]
  · simp [unsubBody_frame]
  · simp [doList_frame]

@[simp] theorem receive_role (p : Nat) (b : List Byte) (s : State) :
    (blank offSys (receive p b s)).sys.role = (blank offSys s).sys.role := by
  unfold receive
  repeat' split
  all_goals simp [bumpPq_frame, distrust_frame, pend_frame, received_frame, reject_frame, truncated_frame]

@[simp] theorem dropDesc_role (p k : Nat) (s : State) :
    (blank offSys (dropDesc p k s)).sys.role = (blank offSys s).sys.role := by
  simp [dropDesc, modHring_frame]

@[simp] theorem ethMessage_role (p : Nat) (d : EthDest) (b : List Byte) (s : State) :
    (blank offSys (ethMessage p d b s)).sys.role = (blank offSys s).sys.role := by
  simp [ethMessage, bumpPq_frame, distrust_frame, modPq_frame, pend_frame, reject_frame]

@[simp] theorem segment_role (p : Nat) (d : EthDest) (seg segs f : Nat) (b : List Byte) (s : State) :
    (blank offSys (segment p d seg segs f b s)).sys.role = (blank offSys s).sys.role := by
  unfold segment
  repeat' split
  all_goals simp [bumpPq_frame, modPq_frame]

@[simp] theorem datagram_role (d : EthDest) (u : List Byte) (s : State) :
    (blank offSys (datagram d u s)).sys.role = (blank offSys s).sys.role := by
  simp [datagram, bumpPq_frame, keyUse_frame, modPq_frame, pend_frame, respondTo_frame, takeRx_frame]

@[simp] theorem spiWrite_role (p : Nat) (b : List Byte) (s : State) :
    (blank offSys (spiWrite p b s)).sys.role = (blank offSys s).sys.role := by
  simp [spiWrite, bumpPq_frame, modPq_frame, pend_frame, reject_frame, spiErr_frame, truncated_frame]

@[simp] theorem takeCommand_role (cls verb : Nat) (r : Req) (s : State) :
    (blank offSys (takeCommand cls verb r s)).sys.role = (blank offSys s).sys.role := by
  simp [takeCommand]

@[simp] theorem takeChart_role (l : List ChartItem) (t : TpTable) (s : State) :
    (blank offSys (takeChart l t s)).sys.role = (blank offSys s).sys.role := by
  simp [takeChart, modSlotImg_frame, modTow_frame]

@[simp] theorem takeBody_role (f : TowFrame) (s : State) :
    (blank offSys (takeBody f s)).sys.role = (blank offSys s).sys.role := by
  unfold takeBody
  split <;> simp [takeBadBlock_frame, takeBlock_frame, takeEth_frame, takeLate_frame, takeNote_frame,
      takeRecord_frame, takeResponse_frame]

@[simp] theorem release_role (f : TowFrame) (s : State) :
    (blank offSys (release f s)).sys.role = (blank offSys s).sys.role := by
  simp [release, consume_frame]

@[simp] theorem towRun_role (k n : Nat) (s : State) :
    (blank offSys (towRun k n s)).sys.role = (blank offSys s).sys.role := by
  induction n generalizing s with
  | zero => rfl
  | succ n ih =>
    rw [towRun]
    split <;> simp [ih, modTowReseq_frame]

@[simp] theorem towReleaseAll_role (k : Nat) (s : State) :
    (blank offSys (towReleaseAll k s)).sys.role = (blank offSys s).sys.role := by
  simp [towReleaseAll, countVia_frame, modTowReseq_frame]

@[simp] theorem towResequence_role (f : TowFrame) (s : State) :
    (blank offSys (towResequence f s)).sys.role = (blank offSys s).sys.role := by
  simp [towResequence, consume_frame, countVia_frame, modTowReseq_frame]

@[simp] theorem towReopen_role (s : State) :
    (blank offSys (towReopen s)).sys.role = (blank offSys s).sys.role := by
  simp [towReopen]

@[simp] theorem towTake_role (x : Nat) (f : TowFrame) (s : State) :
    (blank offSys (towTake x f s)).sys.role = (blank offSys s).sys.role := by
  unfold towTake
  split <;> simp [consume_frame, towForward_frame, towPut_frame]

theorem onTow_role {x chk : Nat} {bad : Bool} {ok : TowBody → Bool} {f : TowFrame} {s t : State}
    (h : onTow x chk bad ok f s = .next t) : t.sys.role = s.sys.role := by
  obtain ⟨-, rfl⟩ := guardUnit_next h
  refine role_of_blank ?_
  split
  · rfl
  · split <;> rename_i heq <;> simp [bargeFlush_frame, towArrive_frame_eq offSys rfl rfl rfl heq]

@[simp] theorem takeStaged_role (x : Staged) (s : State) :
    (blank offSys (takeStaged x s).2).sys.role = (blank offSys s).sys.role := by
  have hk := classOf_keepsRole x.cls
  unfold takeStaged
  dsimp only
  split
  · split
    · split <;> simp [hk.set, modPad_frame]
    · rfl
  · split
    next => rfl
    next c hc =>
      have ha := hk.acts c (List.mem_of_find?_eq_some hc)
      split
      next u hu =>
        split at hu
        · exact ha.held hu
        · cases hu
      next => exact ha.run _ _ _ _

@[simp] theorem takeAll_role (l : List Staged) (s : State) :
    (blank offSys (takeAll l s).2).sys.role = (blank offSys s).sys.role :=
  foldl_pair_role (g := fun p x => (p.1 ++ (takeStaged x p.2).1.toList, (takeStaged x p.2).2))
    (fun p x => takeStaged_role x p.2) l ([], s)

@[simp] theorem giveAnswer_role (a : Answer) (s : State) :
    (blank offSys (giveAnswer a s)).sys.role = (blank offSys s).sys.role := by
  unfold giveAnswer
  split <;> simp [answer_frame]

@[simp] theorem dropLost_role (s : State) :
    (blank offSys (dropLost s)).sys.role = (blank offSys s).sys.role := by
  simp [dropLost, pickStaged_frame]

@[simp] theorem sealedBoundary_role (c : Nat) (s : State) :
    (blank offSys (sealedBoundary c s)).sys.role = (blank offSys s).sys.role := by
  simp [sealedBoundary, handOver_frame, outputsBoundary_frame, pickStaged_frame, poundsSafe_frame,
      refreshWaiting_frame, safeBoundary_frame, segBoundary_frame, swapBoundary_frame, tpStep_frame]

@[simp] theorem startWork_role (overran : Bool) (eff : Nat) (s : State) :
    (blank offSys (startWork overran eff s)).sys.role = (blank offSys s).sys.role := by
  simp [startWork, bargeFlush_frame, beatBoundary_frame, beatWatch_frame, coreBoundary_frame, gateBoundary_frame,
      linBoundary_frame, nmBoundary_frame, quietBoundary_frame, schedBoundary_frame, schedOverrun_frame]

@[simp] theorem takeEffect_role (overran : Bool) (s : State) :
    (blank offSys (takeEffect overran s)).sys.role = (blank offSys s).sys.role := by
  simp [takeEffect, boundarySluice_frame, closeCycleWins_frame, handOverAct_frame, overrunBoundary_frame]

@[simp] theorem boundary_role (s : State) :
    (blank offSys (boundary s)).sys.role = (blank offSys s).sys.role := by
  simp [boundary, answerPeriod_frame, beginCycle_frame, endCycle_frame, endedBoundary_frame, faultRise_frame,
      padsLatch_frame, periodBoundary_frame, restartAct_frame, settleRelease_frame, settleWaves_frame,
      windowsStart_frame]

/-! The commands that may write the system record. -/

/-- A command answered without a condition keeps the role when its next state does. -/
theorem next_role {u s t : State}
    (h : (.next u : Out) = .next t) (hu : (blank offSys u).sys.role = (blank offSys s).sys.role) :
    t.sys.role = s.sys.role := by
  injection h with h
  exact h ▸ role_of_blank hu

/-- A command for one unit keeps the role when its next state does. -/
theorem guard_role {ok : Bool} {u s t : State} (h : guardUnit ok u = .next t)
    (hu : (blank offSys u).sys.role = (blank offSys s).sys.role) : t.sys.role = s.sys.role :=
  (guardUnit_next h).2 ▸ role_of_blank hu

/-- A command of the running cycle keeps the role when what it does there does. -/
theorem inPhase_role {act : State → State} {s t : State} (h : inPhase act s = .next t)
    (ha : (blank offSys (act s)).sys.role = (blank offSys s).sys.role) : t.sys.role = s.sys.role :=
  next_role h (by split <;> simp [ha])

@[simp] theorem modCyc_role (f : Cyc → Cyc) (s : State) :
    (blank offSys (modCyc f s)).sys.role = (blank offSys s).sys.role := rfl

@[simp] theorem modFv_role (f : Fv → Fv) (s : State) :
    (blank offSys (modFv f s)).sys.role = (blank offSys s).sys.role := rfl

@[simp] theorem modSaf_role (f : Saf → Saf) (s : State) :
    (blank offSys (modSaf f s)).sys.role = (blank offSys s).sys.role := rfl

theorem fetch_role {e : Nat} {act : Nat → State → State}
    (ha : ∀ p s, (blank offSys (act p s)).sys.role = (blank offSys s).sys.role) (s : State) :
    (blank offSys (fetch e act s)).sys.role = (blank offSys s).sys.role := by
  unfold fetch
  split
  · split <;> simp [ha, takeSlotAt_frame]
  · rfl

theorem execLimpSet_role {s t : State} (h : execLimpSet s = .next t) : t.sys.role = s.sys.role :=
  next_role h (by simp [tpSet_frame])

theorem execLimpClear_role {s t : State} (h : execLimpClear s = .next t) : t.sys.role = s.sys.role := by
  refine next_role h ?_
  dsimp only
  repeat' split
  all_goals simp [modPwr_frame, tpClear_frame]

theorem execTowpathTableCheck_role {badA badB : Bool} {s t : State}
    (h : execTowpathTableCheck badA badB s = .next t) : t.sys.role = s.sys.role :=
  next_role h (by simp [detect_frame, spoilCopies_frame])

theorem execPoundResetComplete_role {p : Nat} {s t : State}
    (h : execPoundResetComplete p s = .next t) : t.sys.role = s.sys.role :=
  guard_role h (by simp)

theorem execEthFrameReceived_role {p : Nat} {f : EthFrame} {len : Nat} {fcsOk : Bool} {tag : Option SecTag} {s t :
    State} (h : execEthFrameReceived p f len fcsOk tag s = .next t) : t.sys.role = s.sys.role := by
  refine guard_role h ?_
  dsimp only
  repeat' split
  all_goals simp [countPort_frame, countRx_frame, macsecRx_frame, toBasin_frame]

theorem execTxFrameFetch_role {p r : Nat} {s t : State}
    (h : execTxFrameFetch p r s = .next t) : t.sys.role = s.sys.role := by
  refine guard_role h ?_
  dsimp only
  repeat' split
  all_goals simp [mbxError_frame, modHring_frame, toBasin_frame]

theorem execEopTimeout_role {p r : Nat} {s t : State} (h : execEopTimeout p r s = .next t) : t.sys.role = s.sys.role :=
  guard_role h (by simp [modHring_frame])

theorem execTs2Timeout_role {p r id : Nat} {s t : State}
    (h : execTs2Timeout p r id s = .next t) : t.sys.role = s.sys.role :=
  guard_role h (by simp)

theorem execBasinIngress_role {full : Bool} {s t : State}
    (h : execBasinIngress full s = .next t) : t.sys.role = s.sys.role := by
  refine next_role h ?_
  dsimp only
  repeat' split
  all_goals simp [countG_frame, enqueueCopy_frame, modNet_frame]

theorem execEthFrameTransmit_role {p collisions : Nat} {ecc : Bool} {s t : State}
    (h : execEthFrameTransmit p collisions ecc s = .next t) : t.sys.role = s.sys.role := by
  refine guard_role h ?_
  dsimp only
  repeat' split
  all_goals simp [countPort_frame, countQ_frame, countTx_frame, detect_frame, macsecTx_frame, modAq_frame,
      modPort_frame, sentCredit_frame, settle_frame, towEth_frame]

theorem execResequencerTimeout_role {i : Nat} {s t : State}
    (h : execResequencerTimeout i s = .next t) : t.sys.role = s.sys.role :=
  guard_role h (by simp)

theorem execStreamSet_role {r : Req} {s t : State} (h : execStreamSet r s = .next t) : t.sys.role = s.sys.role :=
  next_role h (cmdSet_role streamClass_keepsRole r s)

theorem execStreamUnblock_role {r : Req} {s t : State}
    (h : execStreamUnblock r s = .next t) : t.sys.role = s.sys.role :=
  next_role h (cmdAct_role streamClass_keepsRole 1 r s)

theorem execStreamClearCounters_role {r : Req} {s t : State}
    (h : execStreamClearCounters r s = .next t) : t.sys.role = s.sys.role :=
  next_role h (cmdAct_role streamClass_keepsRole 2 r s)

theorem execStreamResetSeq_role {r : Req} {s t : State}
    (h : execStreamResetSeq r s = .next t) : t.sys.role = s.sys.role :=
  next_role h (cmdAct_role streamClass_keepsRole 3 r s)

theorem execHostPortDelivery_role {s t : State} (h : execHostPortDelivery s = .next t) : t.sys.role = s.sys.role := by
  refine next_role h ?_
  split
  · rfl
  · rename_i heq
    have hn := nextHost_frame offSys rfl heq
    split
    · simp [hn]
    · dsimp only
      repeat' split
      all_goals simp [hn, countG_frame, modHostq_frame, modNet_frame]

theorem execAqueductArrival_role {s t : State} (h : execAqueductArrival s = .next t) : t.sys.role = s.sys.role := by
  refine next_role h ?_
  split <;> simp [modAq_frame]

theorem execCmacCompletion_role {s t : State} (h : execCmacCompletion s = .next t) : t.sys.role = s.sys.role := by
  refine next_role h ?_
  split <;> simp [modAq_frame]

theorem execReceiveRingPost_role {e r tail : Nat} {l : List Desc} {s t : State}
    (h : execReceiveRingPost e r tail l s = .next t) : t.sys.role = s.sys.role := by
  refine guard_role h ?_
  split
  · rfl
  · split <;> rename_i heq <;> have hw := tailWrite_frame_eq offSys rfl heq
    · simp [hw]
    · repeat' split
      all_goals simp [hw, modHring_frame]

theorem execOutboundDoorbell_role {p : Nat} {s t : State}
    (h : execOutboundDoorbell p s = .next t) : t.sys.role = s.sys.role := by
  refine guard_role h ?_
  repeat' split
  all_goals simp [sendEth_frame]

theorem execLhRequestComplete_role {p got : Nat} {trunc : Bool} {s t : State}
    (h : execLhRequestComplete p got trunc s = .next t) : t.sys.role = s.sys.role :=
  guard_role h (by simp)

theorem execLhWatchdogExpiry_role {s t : State} (h : execLhWatchdogExpiry s = .next t) : t.sys.role = s.sys.role :=
  next_role h (by simp [detect_frame])

theorem execClaimDeferralTimeout_role {s t : State}
    (h : execClaimDeferralTimeout s = .next t) : t.sys.role = s.sys.role := by
  refine next_role h ?_
  split <;> simp [modPwr_frame]

theorem execLightAttest_role {r : Req} {s t : State} (h : execLightAttest r s = .next t) : t.sys.role = s.sys.role :=
  next_role h (cmdAct_role lightClass_keepsRole 1 r s)

theorem execLightDebugChallenge_role {r : Req} {tap : Bool} {s t : State}
    (h : execLightDebugChallenge r tap s = .next t) : t.sys.role = s.sys.role := by
  refine next_role h ?_
  split
  · exact cmdAct_role lightClass_keepsRole 2 r s
  · split <;> simp [modLight_frame]

theorem execLightDebugResponse_role {r : Req} {tap : Bool} {s t : State}
    (h : execLightDebugResponse r tap s = .next t) : t.sys.role = s.sys.role := by
  refine next_role h ?_
  split
  · exact cmdAct_role lightClass_keepsRole 3 r s
  · repeat' split
    all_goals simp [failDebug_frame, grantDebug_frame]

theorem execDebugAuthExpiry_role {s t : State} (h : execDebugAuthExpiry s = .next t) : t.sys.role = s.sys.role :=
  next_role h (by simp)

theorem execBoundaryScanInstruction_role {code : Nat} {s t : State}
    (h : execBoundaryScanInstruction code s = .next t) : t.sys.role = s.sys.role :=
  next_role h (by simp)

theorem execScrubPass_role {corrected l2 l1 : Nat} {stuck uncorr : List Nat} {s t : State}
    (h : execScrubPass corrected l2 l1 stuck uncorr s = .next t) : t.sys.role = s.sys.role :=
  next_role h (by simp [modAps_frame, stuckWord_frame])

theorem execSramUncorrectable_role {addr : Nat} {p : Option Nat} {mon : Bool} {place : Nat} {recurs : Bool} {s t :
    State} (h : execSramUncorrectable addr p mon place recurs s = .next t) : t.sys.role = s.sys.role := by
  refine guard_role h ?_
  repeat' split
  all_goals simp [bringSram_frame, detect_frame, fatalFault_frame, modAps_frame, modPart_frame]

theorem execAccessFault_role {p addr kind : Nat} {s t : State}
    (h : execAccessFault p addr kind s = .next t) : t.sys.role = s.sys.role :=
  guard_role h (by simp [modPart_frame])

theorem execSleepEntry_role {s t : State} (h : execSleepEntry s = .next t) : t.sys.role = s.sys.role := by
  refine next_role h ?_
  split <;> simp

theorem execLimpWake_role {s t : State} (h : execLimpWake s = .next t) : t.sys.role = s.sys.role := by
  refine next_role h ?_
  dsimp only
  repeat' split
  all_goals simp [regWake_frame]

theorem execSleepPath_role {s t : State} (h : execSleepPath s = .next t) : t.sys.role = s.sys.role :=
  next_role h (by simp [armLast_frame, modPwr_frame, outputsOff_frame, storeNodes_frame])

theorem execBoardnetLoss_role {s t : State} (h : execBoardnetLoss s = .next t) : t.sys.role = s.sys.role :=
  next_role h (by simp [modPwr_frame])

theorem execWakeDomainReset_role {s t : State} (h : execWakeDomainReset s = .next t) : t.sys.role = s.sys.role :=
  next_role h (keeperDown_role s)

theorem execResetAssert_role {s t : State} (h : execResetAssert s = .next t) : t.sys.role = s.sys.role :=
  next_role h (by simp [faultFall_frame, modPwr_frame])

theorem execThermalEmergency_role {s t : State} (h : execThermalEmergency s = .next t) : t.sys.role = s.sys.role :=
  next_role h (by simp [detect_frame])

theorem execVkeepMon_role {s t : State} (h : execVkeepMon s = .next t) : t.sys.role = s.sys.role :=
  next_role h (by simp [detectLatch_frame, modPwr_frame, railOut_frame])

theorem execVcoreMon_role {s t : State} (h : execVcoreMon s = .next t) : t.sys.role = s.sys.role :=
  next_role h (by simp [vcoreReturnUnless_frame])

theorem execVioMon_role {rail : Nat} {low : Bool} {s t : State}
    (h : execVioMon rail low s = .next t) : t.sys.role = s.sys.role :=
  guard_role h (by simp [busesStandby_frame, detectLatch_frame, detect_frame, modCan_frame, modPwr_frame,
      railOut_frame])

theorem execBreachResultWindowEnd_role {bp : Nat} {reaction : Option Nat} {s t : State}
    (h : execBreachResultWindowEnd bp reaction s = .next t) : t.sys.role = s.sys.role := by
  refine guard_role h ?_
  split
  · rfl
  · dsimp only
    split <;> simp [breachResult_frame, breachRecord_frame, reactionOf_frame]

theorem execImageWrite_role {r : Req} {s t : State} (h : execImageWrite r s = .next t) : t.sys.role = s.sys.role :=
  next_role h (cmdAct_role imageClass_keepsRole 1 r s)

theorem execImageVerify_role {r : Req} {s t : State} (h : execImageVerify r s = .next t) : t.sys.role = s.sys.role :=
  next_role h (cmdAct_role imageClass_keepsRole 2 r s)

theorem execImageActivate_role {r : Req} {s t : State}
    (h : execImageActivate r s = .next t) : t.sys.role = s.sys.role :=
  next_role h (cmdAct_role imageClass_keepsRole 3 r s)

theorem execImageRollback_role {r : Req} {s t : State}
    (h : execImageRollback r s = .next t) : t.sys.role = s.sys.role :=
  next_role h (cmdAct_role imageClass_keepsRole 4 r s)

theorem execChartWrite_role {r : Req} {s t : State} (h : execChartWrite r s = .next t) : t.sys.role = s.sys.role :=
  next_role h (cmdAct_role chartSpec_keepsRole 1 r s)

theorem execChartCommit_role {r : Req} {s t : State} (h : execChartCommit r s = .next t) : t.sys.role = s.sys.role :=
  next_role h (cmdAct_role chartSpec_keepsRole 2 r s)

theorem execChartRollback_role {r : Req} {s t : State}
    (h : execChartRollback r s = .next t) : t.sys.role = s.sys.role :=
  next_role h (cmdAct_role chartSpec_keepsRole 3 r s)

theorem execReferenceTimeout_role {s t : State} (h : execReferenceTimeout s = .next t) : t.sys.role = s.sys.role :=
  next_role h (by simp [detect_frame, tpSet_frame])

theorem execStartFailure_role {cause : Nat} {s t : State}
    (h : execStartFailure cause s = .next t) : t.sys.role = s.sys.role :=
  guard_role h (by simp [detect_frame, tpSet_frame])

theorem execFavalGet_role {cls : Nat} {r : Req} {s t : State}
    (h : execFavalGet cls r s = .next t) : t.sys.role = s.sys.role :=
  next_role h (by simp)

theorem execFavalSub_role {cls : Nat} {r : Req} {s t : State}
    (h : execFavalSub cls r s = .next t) : t.sys.role = s.sys.role :=
  next_role h (by simp)

theorem execFavalUnsub_role {cls : Nat} {r : Req} {s t : State}
    (h : execFavalUnsub cls r s = .next t) : t.sys.role = s.sys.role :=
  next_role h (by simp)

theorem execFavalList_role {cls : Nat} {r : Req} {s t : State}
    (h : execFavalList cls r s = .next t) : t.sys.role = s.sys.role :=
  next_role h (by simp)

theorem execDesyncResponse_role {p : Nat} {b : List Byte} {s t : State}
    (h : execDesyncResponse p b s = .next t) : t.sys.role = s.sys.role :=
  guard_role h (by simp)

theorem execEthTransportDatagram_role {s t : State}
    (h : execEthTransportDatagram s = .next t) : t.sys.role = s.sys.role := by
  refine next_role h ?_
  dsimp only
  repeat' split
  all_goals simp [modNet_frame]

theorem execSpiWrite_role {b : List Byte} {s t : State} (h : execSpiWrite b s = .next t) : t.sys.role = s.sys.role := by
  refine next_role h ?_
  split <;> simp

theorem execSpiByteGap_role {b : List Byte} {s t : State}
    (h : execSpiByteGap b s = .next t) : t.sys.role = s.sys.role := by
  refine next_role h ?_
  split <;> simp

theorem execDataFrameReceived_role {x chk : Nat} {f : TowFrame} {s t : State}
    (h : execDataFrameReceived x chk f s = .next t) : t.sys.role = s.sys.role :=
  onTow_role h

theorem execFavalFrameReceived_role {x chk : Nat} {f : TowFrame} {s t : State}
    (h : execFavalFrameReceived x chk f s = .next t) : t.sys.role = s.sys.role :=
  onTow_role h

theorem execPostFrameReceived_role {x chk : Nat} {f : TowFrame} {bad : Bool} {s t : State}
    (h : execPostFrameReceived x chk f bad s = .next t) : t.sys.role = s.sys.role :=
  onTow_role h

theorem execNoteFrameReceived_role {x chk : Nat} {f : TowFrame} {s t : State}
    (h : execNoteFrameReceived x chk f s = .next t) : t.sys.role = s.sys.role :=
  onTow_role h

theorem execLateFrameReceived_role {x chk : Nat} {f : TowFrame} {s t : State}
    (h : execLateFrameReceived x chk f s = .next t) : t.sys.role = s.sys.role :=
  onTow_role h

theorem execTowlineReseqTimeout_role {src v : Nat} {s t : State}
    (h : execTowlineReseqTimeout src v s = .next t) : t.sys.role = s.sys.role :=
  guard_role h (by simp [bargeFlush_frame])

theorem execCommandFetch_role {e : Nat} {b : List Byte} {s t : State}
    (h : execCommandFetch e b s = .next t) : t.sys.role = s.sys.role :=
  guard_role h (fetch_role (fun _ _ => by simp) s)

theorem execDmaReadError_role {e k : Nat} {got : List Byte} {s t : State}
    (h : execDmaReadError e k got s = .next t) : t.sys.role = s.sys.role := by
  refine guard_role h ?_
  split
  · exact fetch_role (fun _ _ => by simp [distrust_frame, mbxError_frame, pend_frame, reject_frame]) s
  · split
    · rfl
    · split <;> simp [mbxError_frame]

theorem execDmaReadTimeout_role {e k : Nat} {got : List Byte} {s t : State}
    (h : execDmaReadTimeout e k got s = .next t) : t.sys.role = s.sys.role := by
  refine guard_role h ?_
  split
  · exact fetch_role (fun _ _ => by simp [truncated_frame]) s
  · split
    · rfl
    · split <;> simp

theorem execAssignReceived_role {x chk : Nat} {f : TowFrame} {s t : State}
    (h : execAssignReceived x chk f s = .next t) : t.sys.role = s.sys.role := by
  refine guard_role h ?_
  split
  · split
    · rfl
    · split <;> rename_i heq <;> have ha := beatArrive_frame_eq offSys rfl rfl rfl heq
      · dsimp only
        repeat' split
        all_goals simp [ha, modTow_frame, sendBeat_frame]
      · simp [ha]
  · rfl

theorem execApplyPhase_role {s t : State} (h : execApplyPhase s = .next t) : t.sys.role = s.sys.role :=
  inPhase_role h (by simp [applyAct_frame, armWake_frame, autoLocate_frame, foldHandBack_frame, nmApply_frame])

theorem execBoundary_role {interval : Bool} {s t : State}
    (h : execBoundary interval s = .next t) : t.sys.role = s.sys.role :=
  inPhase_role h (by simp [detect_frame, tpSet_frame])

/-- A start of a device strapped as a barge gives it the role of barge. -/
theorem startKeeper_barge (src det : Nat) (ref : Bool) (s : State) : (startKeeper src det true ref s).sys.role =
  .barge := by
  refine (role_of_blank (s := { s with sys := { s.sys with role := .barge } }) ?_).trans rfl
  simp [startKeeper, assignCores_frame, bootChoose_frame, clocksOn_frame, emit_frame, faultFall_frame, modTp_frame,
    trainPorts_frame, useCopies_frame]
  rfl

theorem execStart_barge {ref : Bool} {s t : State} (h : execStart true ref s = .next t) (hs : s.sys.role = .barge) :
    t.sys.role = .barge := by
  injection h with h
  subst h
  split
  · exact startKeeper_barge _ _ _ _
  · exact hs

theorem ite_barge {c : Prop} [Decidable c] {a b : State} (ha : a.sys.role = .barge) (hb : b.sys.role = .barge) :
    (if c then a else b).sys.role = .barge := by
  split
  · exact ha
  · exact hb

/-- What leaves the system record alone leaves a barge a barge. -/
theorem barge_of_frame {t u : State} (hf : blank offSys t = blank offSys u) (hu : u.sys.role = .barge) : t.sys.role =
  .barge :=
  (role_of_blank (congrArg (·.sys.role) hf)).trans hu

/-- A barge that starts again trains its towline ports and takes no role. -/
theorem trainOrAlone_barge {u : State} (hu : u.sys.role = .barge) :
    (if u.sys.role = .barge then trainPorts u else modSys (fun v => { v with role := .standalone }) u).sys.role
      = .barge := by
  rw [if_pos hu]
  exact barge_of_frame (trainPorts_frame offSys rfl u) hu

/-- A start tried again leaves a barge a barge. -/
theorem execStartRetry_barge {ref : Bool} {s t : State}
    (h : execStartRetry ref s = .next t) (hs : s.sys.role = .barge) :
    t.sys.role = .barge := by
  injection h with h
  subst h
  refine ite_barge ?_ hs
  have hb : (bootChoose (assignCores (modImg (fun i => { i with held := false }) s))).sys.role = .barge :=
    (role_of_blank (by simp [bootChoose_frame, assignCores_frame, modImg_frame])).trans hs
  exact ite_barge (barge_of_frame (clocksOn_frame offSys rfl rfl rfl rfl rfl _) (trainOrAlone_barge hb))
      (trainOrAlone_barge hb)

/-- Firmware that begins to run leaves a barge a barge. -/
theorem execFirmwareRun_barge {ddr xspi : Nat} {lost bad : List Nat} {s t : State}
    (h : execFirmwareRun ddr xspi lost bad s = .next t) (hs : s.sys.role = .barge) : t.sys.role = .barge := by
  injection h with h
  subst h
  refine ite_barge hs ?_
  dsimp only
  refine ite_barge ?_ (barge_of_frame (measure_frame offSys rfl rfl _) ?_)
  · exact (role_of_blank (by simp [measure_frame, readLatches_frame, modImg_frame])).trans hs
  · have hl : ∀ u : State, u.sys.role = .barge → (loadAll ddr xspi (keyScan lost bad u)).sys.role = .barge :=
      fun u hu => loadAll_barge ddr xspi (barge_of_frame (keyScan_frame offSys rfl rfl rfl lost bad u) hu)
    refine (fun hr => ite_barge (barge_of_frame (emit_frame offSys rfl _ _ _ _ _ _ _ _) hr) hr) (hl _ ?_)
    exact (role_of_blank (by simp [readLatches_frame, modImg_frame])).trans hs

/-- Every command but a start with the other strap leaves a barge a barge: one that may write the system record at all
has its own lemma above. -/
theorem exec_barge {i : Instr} {s t : State} (hi : ∀ ref, i ≠ .start false ref) (hs : s.sys.role = .barge)
    (h : exec i s = .next t) : t.sys.role = .barge := by
  cases i with
  | start tugSel ref =>
    cases tugSel with
    | false => exact absurd rfl (hi ref)
    | true => exact execStart_barge h hs
  | startRetry => exact execStartRetry_barge h hs
  | firmwareRun => exact execFirmwareRun_barge h hs
  | accessFault => exact (execAccessFault_role h).trans hs
  | applyPhase => exact (execApplyPhase_role h).trans hs
  | aqueductArrival => exact (execAqueductArrival_role h).trans hs
  | assignReceived => exact (execAssignReceived_role h).trans hs
  | basinIngress => exact (execBasinIngress_role h).trans hs
  | boardnetLoss => exact (execBoardnetLoss_role h).trans hs
  | boundaryScanInstruction => exact (execBoundaryScanInstruction_role h).trans hs
  | boundary => exact (execBoundary_role h).trans hs
  | breachResultWindowEnd => exact (execBreachResultWindowEnd_role h).trans hs
  | chartCommit => exact (execChartCommit_role h).trans hs
  | chartRollback => exact (execChartRollback_role h).trans hs
  | chartWrite => exact (execChartWrite_role h).trans hs
  | claimDeferralTimeout => exact (execClaimDeferralTimeout_role h).trans hs
  | cmacCompletion => exact (execCmacCompletion_role h).trans hs
  | commandFetch => exact (execCommandFetch_role h).trans hs
  | dataFrameReceived => exact (execDataFrameReceived_role h).trans hs
  | debugAuthExpiry => exact (execDebugAuthExpiry_role h).trans hs
  | desyncResponse => exact (execDesyncResponse_role h).trans hs
  | dmaReadError => exact (execDmaReadError_role h).trans hs
  | dmaReadTimeout => exact (execDmaReadTimeout_role h).trans hs
  | eopTimeout => exact (execEopTimeout_role h).trans hs
  | ethFrameReceived => exact (execEthFrameReceived_role h).trans hs
  | ethFrameTransmit => exact (execEthFrameTransmit_role h).trans hs
  | ethTransportDatagram => exact (execEthTransportDatagram_role h).trans hs
  | favalFrameReceived => exact (execFavalFrameReceived_role h).trans hs
  | favalGet => exact (execFavalGet_role h).trans hs
  | favalList => exact (execFavalList_role h).trans hs
  | favalSub => exact (execFavalSub_role h).trans hs
  | favalUnsub => exact (execFavalUnsub_role h).trans hs
  | hostPortDelivery => exact (execHostPortDelivery_role h).trans hs
  | imageActivate => exact (execImageActivate_role h).trans hs
  | imageRollback => exact (execImageRollback_role h).trans hs
  | imageVerify => exact (execImageVerify_role h).trans hs
  | imageWrite => exact (execImageWrite_role h).trans hs
  | lateFrameReceived => exact (execLateFrameReceived_role h).trans hs
  | lhRequestComplete => exact (execLhRequestComplete_role h).trans hs
  | lhWatchdogExpiry => exact (execLhWatchdogExpiry_role h).trans hs
  | lightAttest => exact (execLightAttest_role h).trans hs
  | lightDebugChallenge => exact (execLightDebugChallenge_role h).trans hs
  | lightDebugResponse => exact (execLightDebugResponse_role h).trans hs
  | limpClear => exact (execLimpClear_role h).trans hs
  | limpSet => exact (execLimpSet_role h).trans hs
  | limpWake => exact (execLimpWake_role h).trans hs
  | noteFrameReceived => exact (execNoteFrameReceived_role h).trans hs
  | outboundDoorbell => exact (execOutboundDoorbell_role h).trans hs
  | postFrameReceived => exact (execPostFrameReceived_role h).trans hs
  | poundResetComplete => exact (execPoundResetComplete_role h).trans hs
  | receiveRingPost => exact (execReceiveRingPost_role h).trans hs
  | referenceTimeout => exact (execReferenceTimeout_role h).trans hs
  | resequencerTimeout => exact (execResequencerTimeout_role h).trans hs
  | resetAssert => exact (execResetAssert_role h).trans hs
  | scrubPass => exact (execScrubPass_role h).trans hs
  | sleepEntry => exact (execSleepEntry_role h).trans hs
  | sleepPath => exact (execSleepPath_role h).trans hs
  | spiByteGap => exact (execSpiByteGap_role h).trans hs
  | spiWrite => exact (execSpiWrite_role h).trans hs
  | sramUncorrectable => exact (execSramUncorrectable_role h).trans hs
  | startFailure => exact (execStartFailure_role h).trans hs
  | streamClearCounters => exact (execStreamClearCounters_role h).trans hs
  | streamResetSeq => exact (execStreamResetSeq_role h).trans hs
  | streamSet => exact (execStreamSet_role h).trans hs
  | streamUnblock => exact (execStreamUnblock_role h).trans hs
  | thermalEmergency => exact (execThermalEmergency_role h).trans hs
  | towlineReseqTimeout => exact (execTowlineReseqTimeout_role h).trans hs
  | towpathTableCheck => exact (execTowpathTableCheck_role h).trans hs
  | ts2Timeout => exact (execTs2Timeout_role h).trans hs
  | txFrameFetch => exact (execTxFrameFetch_role h).trans hs
  | vcoreMon => exact (execVcoreMon_role h).trans hs
  | vioMon => exact (execVioMon_role h).trans hs
  | vkeepMon => exact (execVkeepMon_role h).trans hs
  | wakeDomainReset => exact (execWakeDomainReset_role h).trans hs
  | _ => exact (exec_role_of_untouched _ rfl h).trans hs

/-- Settles O43: the role of barge is written by the sampling of the strap alone, and every other writer of the role
asks first whether the device is a barge. -/
theorem aBargeStaysABarge : Obligations.ABargeStaysABarge := by
  unfold Obligations.ABargeStaysABarge
  intro i s hi hs t h
  exact exec_barge hi hs h

end Sys2Proof.Machine
end

section
/-! Scrubbing, memory errors, access faults, results of breach runs, latent tests and boundary scan (O47). -/
open Sys2Proof
namespace Sys2Proof.Machine

/-! Scrubbing and memory errors. -/

/-- What the reporting of a worn pond and the bringing in of a spare leave alone: the application partition's record. -/
@[simp] theorem stuckWord_aps (w : Nat) (s : State) : (stuckWord w s).aps = s.aps :=
  same_of_blank (stuckWord_frame (fun r => decide (r ≠ .aps)) rfl rfl w s) .aps rfl

@[simp] theorem stuckWord_sys (w : Nat) (s : State) : (stuckWord w s).sys = s.sys :=
  same_of_blank (stuckWord_frame (fun r => decide (r ≠ .sys)) rfl rfl w s) .sys rfl

@[simp] theorem bringSram_aps (b : Nat) (s : State) : (bringSram b s).aps = s.aps :=
  same_of_blank (bringSram_frame (fun r => decide (r ≠ .aps)) rfl b s) .aps rfl

@[simp] theorem bringSram_sys (b : Nat) (s : State) : (bringSram b s).sys = s.sys :=
  same_of_blank (bringSram_frame (fun r => decide (r ≠ .sys)) rfl b s) .sys rfl

@[simp] theorem poisonWord_aps (addr : Nat) (s : State) : (poisonWord addr s).aps = s.aps := by
  unfold poisonWord
  dsimp only
  split <;> rfl

theorem mem_poison_poisonWord (addr : Nat) (s : State) : addr / 8 * 8 ∈ (poisonWord addr s).sys.poison := by
  unfold poisonWord
  dsimp only
  split
  · assumption
  · simp [modSys]

@[simp] theorem sramUncorrectable_aps (addr : Nat) (s : State) :
    (sramUncorrectable addr s).aps = { s.aps with sramUncorr := sat 32 (s.aps.sramUncorr + 1) } := by
  simp [sramUncorrectable]

theorem mem_poison_sramUncorrectable (addr : Nat) (s : State) : addr / 8 * 8 ∈ (sramUncorrectable addr s).sys.poison
  := by
  unfold sramUncorrectable
  rw [detect_sys]
  exact mem_poison_poisonWord addr _

/-- The record of the partitions with the count of uncorrectable SRAM words set aside. -/
def offSramUncorr (a : Aps) : Aps := { a with sramUncorr := 0 }

theorem sramUncorrectables_aps (l : List Nat) (s : State) :
    offSramUncorr (l.foldl (fun s w => sramUncorrectable w s) s).aps = offSramUncorr s.aps :=
  foldl_keep (keep := fun s => offSramUncorr s.aps) (fun s w => by simp [offSramUncorr]) l s

theorem stuckWords_aps (l : List Nat) (s : State) : (l.foldl (fun s w => stuckWord w s) s).aps = s.aps :=
  by
  induction l generalizing s with
  | nil => rfl
  | cons w l ih => rw [List.foldl_cons, ih, stuckWord_aps]

theorem stuckWords_sys (l : List Nat) (s : State) : (l.foldl (fun s w => stuckWord w s) s).sys = s.sys :=
  by
  induction l generalizing s with
  | nil => rfl
  | cons w l ih => rw [List.foldl_cons, ih, stuckWord_sys]

/-- What a scrub pass of a powered keeper domain adds to the counters. -/
def scrubCounts (cor l2 l1 : Nat) (s : State) (a : Aps) : Aps :=
  { a with
    sramCorr := sat 32 (a.sramCorr + cor)
    l2Corr := if s.pwr.vcoreEn then sat 32 (a.l2Corr + l2) else a.l2Corr
    l1Err := if s.pwr.vcoreEn then sat 32 (a.l1Err + l1) else a.l1Err
    scrubCycle := s.cyc.number }

theorem exec_scrubPass_on (cor l2 l1 : Nat) (stuck uncorr : List Nat) {s : State} (hk : s.pwr.keeper = true) :
    exec (.scrubPass cor l2 l1 stuck uncorr) s = .next (uncorr.foldl (fun s w => sramUncorrectable w s)
      (stuck.foldl (fun s w => stuckWord w s) (modAps (scrubCounts cor l2 l1 s) s))) := by
  simp [exec, execScrubPass, hk]
  rfl

theorem scrubPass_counts (cor l2 l1 : Nat) (stuck uncorr : List Nat) (s : State) :
    ∃ t, exec (.scrubPass cor l2 l1 stuck uncorr) s = .next t ∧ (s.pwr.keeper = false → t = s) ∧
      (s.pwr.keeper = true → offSramUncorr t.aps = offSramUncorr (scrubCounts cor l2 l1 s s.aps) ∧
        (uncorr = [] → t.aps.sramUncorr = s.aps.sramUncorr ∧ t.sys = s.sys) ∧
        ∀ a, memRead t.mem a = memRead s.mem a) := by
  cases hk : s.pwr.keeper with
  | false => exact ⟨s, by simp [exec, execScrubPass, hk], fun _ => rfl, fun h => (nomatch h)⟩
  | true =>
    have he := exec_scrubPass_on cor l2 l1 stuck uncorr hk
    refine ⟨_, he, fun h => (nomatch h), fun _ => ⟨?_, ?_, ?_⟩⟩
    · rw [sramUncorrectables_aps, stuckWords_aps]
      rfl
    · rintro rfl
      rw [List.foldl_nil, stuckWords_aps, stuckWords_sys]
      exact ⟨rfl, rfl⟩
    · rw [blank_mem (exec_frame he) rfl]
      exact fun _ => rfl

/-! Uncorrectable words and access faults. -/

theorem accessFault_faults_same (p : Nat) (s : State) :
    tget ctr0 (accessFault p s).sys.faults p = sat 32 (tget ctr0 s.sys.faults p + 1) :=
  tget_tmod_same ctr0 p (fun n => sat 32 (n + 1)) s.sys.faults

theorem accessFault_faults_ne {p q : Nat} (h : p ≠ q) (s : State) :
    tget ctr0 (accessFault p s).sys.faults q = tget ctr0 s.sys.faults q :=
  tget_tmod_ne ctr0 p q (fun n => sat 32 (n + 1)) s.sys.faults h

/-- The counters of uncorrectable words: of SRAM, of the second level cache and of the first level caches. -/
def uncorrCounts (a : Aps) : Nat × Nat × Nat := (a.sramUncorr, a.l2Uncorr, a.l1Err)

@[simp] theorem modCore_uncorrCounts (k : Nat) (f : Core → Core) (s : State) :
    uncorrCounts (modCore k f s).aps = uncorrCounts s.aps := rfl

@[simp] theorem modPart_uncorrCounts (k : Nat) (f : Part → Part) (s : State) :
    uncorrCounts (modPart k f s).aps = uncorrCounts s.aps := rfl

@[simp] theorem muteWaiting_aps (p : Nat) (s : State) : (muteWaiting p s).aps = s.aps :=
  same_of_blank (muteWaiting_frame (fun r => decide (r ≠ .aps)) rfl rfl rfl rfl rfl rfl p s) .aps rfl

theorem startReset_uncorrCounts (p reason : Nat) (s : State) :
    uncorrCounts (startReset p reason s).aps = uncorrCounts s.aps := by
  unfold startReset
  dsimp only
  split
  case h_4 =>
    split
    · rfl
    · rw [emit_aps, modPq, modFv_aps, foldl_keep (keep := fun s => uncorrCounts s.aps), muteWaiting_aps]
      · split <;> rfl
      · intro s k
        split <;> rfl
  all_goals rfl

theorem fatalFault_uncorrCounts (p : Nat) (s : State) : uncorrCounts (fatalFault p s).aps = uncorrCounts s.aps := by
  unfold fatalFault
  rw [startReset_uncorrCounts]
  split <;> rfl

theorem fatalFault_sys (p : Nat) (s : State) : (fatalFault p s).sys = s.sys :=
  same_of_blank (fatalFault_frame (fun r => decide (r ≠ .sys)) rfl rfl rfl rfl rfl rfl rfl rfl rfl p s) .sys rfl

@[simp] theorem poisonWord_faults (addr : Nat) (s : State) : (poisonWord addr s).sys.faults = s.sys.faults := by
  unfold poisonWord
  dsimp only
  split <;> rfl

@[simp] theorem sramUncorrectable_faults (addr : Nat) (s : State) : (sramUncorrectable addr s).sys.faults =
  s.sys.faults := by
  simp [sramUncorrectable]

/-- The counting of an uncorrectable word where it lay: 1 the second level cache, 2 a first level cache, else SRAM. -/
def countUncorr (addr place : Nat) (s : State) : State :=
  if place = 1 then detect 0x01F false (modAps (fun a => { a with l2Uncorr := sat 32 (a.l2Uncorr + 1) }) s)
  else if place = 2 then detect 0x01F false (modAps (fun a => { a with l1Err := sat 32 (a.l1Err + 1) }) s)
  else sramUncorrectable addr s

/-- The spare bank asked for when words of one SRAM bank turn out uncorrectable again and again. -/
def bringRecurring (addr place : Nat) (recurs : Bool) (s : State) : State :=
  if recurs && decide (place = 0) && decide (0x10000000 ≤ addr ∧ sramBank addr < 16) then
    bringSram (sramBank addr) s
  else s

/-- The fault of the pound on whose behalf the word was read: fatal when the monitor ran, else counted. -/
def faultReader (p : Option Nat) (mon : Bool) (s : State) : State :=
  match p with
  | none => s
  | some p =>
    if mon then fatalFault p s
    else modPart p (fun x => { x with memFaults := sat 32 (x.memFaults + 1) }) (accessFault p s)

/-- An uncorrectable word of a memory without power. -/
def unpowered (place : Nat) (p : Option Nat) (s : State) : Bool :=
  !s.pwr.keeper || ((decide (place ≠ 0) || p.isSome) && !s.pwr.vcoreEn)

theorem exec_sramUncorrectable (addr : Nat) (p : Option Nat) (mon recurs : Bool) (place : Nat) (s : State)
    (h : place < 3) :
    exec (.sramUncorrectable addr p mon place recurs) s = .next (if unpowered place p s then s
      else faultReader p mon (bringRecurring addr place recurs (countUncorr addr place s))) := by
  simp only [exec, execSramUncorrectable, guardUnit, h, decide_true, if_true]
  rfl

@[simp] theorem countUncorr_parts (addr place : Nat) (s : State) : (countUncorr addr place s).aps.parts = s.aps.parts
  := by
  unfold countUncorr
  split
  · simp
  · split <;> simp

@[simp] theorem countUncorr_faults (addr place : Nat) (s : State) : (countUncorr addr place s).sys.faults =
  s.sys.faults := by
  unfold countUncorr
  split
  · simp
  · split <;> simp

@[simp] theorem bringRecurring_aps (addr place : Nat) (recurs : Bool) (s : State) :
    (bringRecurring addr place recurs s).aps = s.aps := by
  unfold bringRecurring
  split <;> simp

@[simp] theorem bringRecurring_sys (addr place : Nat) (recurs : Bool) (s : State) :
    (bringRecurring addr place recurs s).sys = s.sys := by
  unfold bringRecurring
  split <;> simp

@[simp] theorem faultReader_uncorrCounts (p : Option Nat) (mon : Bool) (s : State) :
    uncorrCounts (faultReader p mon s).aps = uncorrCounts s.aps := by
  unfold faultReader
  split
  · rfl
  · split
    · exact fatalFault_uncorrCounts _ s
    · rfl

@[simp] theorem faultReader_poison (p : Option Nat) (mon : Bool) (s : State) :
    (faultReader p mon s).sys.poison = s.sys.poison := by
  unfold faultReader
  split
  · rfl
  · split
    · rw [fatalFault_sys]
    · rfl

theorem faultReader_counts (q : Nat) (s : State) :
    (partAt (faultReader (some q) false s) q).memFaults = sat 32 ((partAt s q).memFaults + 1) ∧
      tget ctr0 (faultReader (some q) false s).sys.faults q = sat 32 (tget ctr0 s.sys.faults q + 1) :=
  ⟨congrArg Part.memFaults (partAt_modPart_same q _ (accessFault q s)), accessFault_faults_same q s⟩

/-- What an uncorrectable word of a powered memory counts and leaves. -/
theorem uncorrectable_counts (addr : Nat) (p : Option Nat) (mon recurs : Bool) (place : Nat) {s t : State}
    (ht : t = faultReader p mon (bringRecurring addr place recurs (countUncorr addr place s))) :
    uncorrCounts t.aps = uncorrCounts (countUncorr addr place s).aps ∧
      t.sys.poison = (countUncorr addr place s).sys.poison ∧
      (∀ q, p = some q → mon = false → (partAt t q).memFaults = sat 32 ((partAt s q).memFaults + 1) ∧
        tget ctr0 t.sys.faults q = sat 32 (tget ctr0 s.sys.faults q + 1)) := by
  subst ht
  refine ⟨by simp, by simp, ?_⟩
  rintro q rfl rfl
  obtain ⟨hm, hf⟩ := faultReader_counts q (bringRecurring addr place recurs (countUncorr addr place s))
  rw [hm, hf]
  simp [partAt]

theorem sramUncorrectable_effect (addr : Nat) (p : Option Nat) (mon recurs : Bool) (place : Nat) (s : State)
    (h : place < 3) :
    ∃ t, exec (.sramUncorrectable addr p mon place recurs) s = .next t ∧ (unpowered place p s = true → t = s) ∧
      (unpowered place p s = false →
        (place = 0 → t.aps.sramUncorr = sat 32 (s.aps.sramUncorr + 1) ∧ addr / 8 * 8 ∈ t.sys.poison) ∧
        (place = 1 → t.aps.l2Uncorr = sat 32 (s.aps.l2Uncorr + 1)) ∧
        (place = 2 → t.aps.l1Err = sat 32 (s.aps.l1Err + 1)) ∧
        (∀ q, p = some q → mon = false → (partAt t q).memFaults = sat 32 ((partAt s q).memFaults + 1) ∧
          tget ctr0 t.sys.faults q = sat 32 (tget ctr0 s.sys.faults q + 1))) := by
  refine ⟨_, exec_sramUncorrectable addr p mon recurs place s h, fun hu => if_pos hu, fun hu => ?_⟩
  rw [hu, if_neg Bool.false_ne_true]
  obtain ⟨hc, hp, hq⟩ := uncorrectable_counts addr p mon recurs place (s := s) rfl
  simp only [uncorrCounts, Prod.mk.injEq] at hc
  obtain ⟨h0, h1, h2⟩ := hc
  refine ⟨?_, ?_, ?_, hq⟩
  · rintro rfl
    rw [h0, hp]
    exact ⟨by simp [countUncorr], mem_poison_sramUncorrectable addr s⟩
  · rintro rfl
    rw [h1]
    simp [countUncorr]
  · rintro rfl
    rw [h2]
    simp [countUncorr]

theorem accessFault_effect (p addr kind : Nat) (s : State) (hp : p < 32) (hk : kind < 3) :
    ∃ t, exec (.accessFault p addr kind) s = .next t ∧
      (s.pwr.vcoreEn = false → t = s) ∧ (s.pwr.vcoreEn = true →
        (mapped s p addr kind = false ∨ (isWrite kind = false ∧ addr / 8 * 8 ∈ s.sys.poison) →
          tget ctr0 t.sys.faults p = sat 32 (tget ctr0 s.sys.faults p + 1)) ∧
        (mapped s p addr kind = true → isWrite kind = true ∨ addr / 8 * 8 ∉ s.sys.poison → t = s)) ∧
      t.mem = s.mem ∧ (∀ q, q ≠ p → tget ctr0 t.sys.faults q = tget ctr0 s.sys.faults q) := by
  obtain ⟨t, ht⟩ := exec_next (i := .accessFault p addr kind) (by simp [Instr.unitOk, hp, hk]) s
  have hm : t.mem = s.mem := blank_mem (exec_frame ht) rfl
  refine ⟨t, ht, ?_⟩
  simp only [exec, execAccessFault, guardUnit, hp, hk, and_self, decide_true, if_true] at ht
  injection ht with ht
  subst ht
  refine ⟨fun hv => by rw [hv]; rfl, fun hv => ?_, hm, ?_⟩
  · rw [hv]
    refine ⟨?_, fun hmap hr => ?_⟩
    · rintro (hmap | ⟨hr, hpo⟩)
      · rw [hmap]
        exact accessFault_faults_same p s
      · rw [hr, if_pos (show (!false) = true ∧ _ from ⟨rfl, hpo⟩)]
        cases mapped s p addr kind <;> exact accessFault_faults_same p s
    · rw [hmap, if_neg (by simp), if_neg (by simp), if_neg (fun hw => hr.elim (fun h => by simp [h] at hw) (· hw.2))]
  · intro q hq
    have hn := accessFault_faults_ne hq.symm s
    split
    · rfl
    · split
      · exact hn
      · split
        · exact hn
        · rfl

/-! Results of breach runs and latent tests. -/

@[simp] theorem breachAt_modBreach_same (bp : Nat) (f : BreachRec → BreachRec) (s : State) :
    breachAt (modBreach bp f s) bp = f (breachAt s bp) :=
  tget_tmod_same breach0 bp f s.saf.breach

@[simp] theorem breachAt_breachResult (bp b : Nat) (pass : Bool) (s : State) :
    breachAt (breachResult bp pass s) b = breachAt s b := by
  simp [breachAt, breachResult]

@[simp] theorem breachResult_saf (bp : Nat) (pass : Bool) (s : State) : (breachResult bp pass s).saf = s.saf := by
  simp [breachResult]

@[simp] theorem reactionOf_saf (t : Option Nat) (s : State) : (reactionOf t s).2.saf = s.saf := by
  cases t <;> rfl

@[simp] theorem reactionOf_cyc (t : Option Nat) (s : State) : (reactionOf t s).2.cyc = s.cyc := by
  cases t <;> rfl

@[simp] theorem breachRecord_runs (bp inst : Nat) (full latent pass : Bool) (ns : Nat) (s : State) :
    (breachRecord bp inst full latent pass ns s).saf.runs = s.saf.runs := rfl

theorem breachAt_breachRecord (bp inst : Nat) (full latent pass : Bool) (ns : Nat) (s : State) :
    breachAt (breachRecord bp inst full latent pass ns s) bp =
      { breachAt s bp with
        mode := full, detected := pass, latent := latent, inst := inst, reaction := ns % 2 ^ 32, cycle := s.cyc.number
        runs := sat 16 ((breachAt s bp).runs + 1)
        fails := if pass then (breachAt s bp).fails else sat 32 ((breachAt s bp).fails + 1) } :=
  breachAt_modBreach_same bp _ s

/-- The end of a PROBE run: it leaves the list of runs, and its result is recorded and reported. -/
def endProbe (bp : Nat) (r : BreachRun) (reaction : Option Nat) (s : State) : State :=
  let e := reactionOf reaction (modSaf (fun v => { v with runs := v.runs.erase r }) s)
  breachResult bp reaction.isSome (breachRecord bp r.inst false false reaction.isSome e.1 e.2)

theorem exec_breachResultWindowEnd_probe {bp : Nat} (reaction : Option Nat) {s : State} (hb : (escOf bp).isSome = true)
    {r : BreachRun} (hr : s.saf.runs.find? (fun r => decide (r.bp = bp)) = some r) (hf : r.full = false) :
    exec (.breachResultWindowEnd bp reaction) s = .next (endProbe bp r reaction s) := by
  simp only [exec, execBreachResultWindowEnd, guardUnit, hb, if_true, hr, hf, Bool.false_and, Bool.not_false,
    Bool.and_true, Bool.false_eq_true, if_false]
  rfl

theorem breachAt_endProbe (bp : Nat) (r : BreachRun) (reaction : Option Nat) (s : State) :
    ∃ ns, breachAt (endProbe bp r reaction s) bp =
      { breachAt s bp with
        mode := false, detected := reaction.isSome, latent := false, inst := r.inst, reaction := ns
        cycle := s.cyc.number, runs := sat 16 ((breachAt s bp).runs + 1)
        fails := if reaction.isSome then (breachAt s bp).fails else sat 32 ((breachAt s bp).fails + 1) } := by
  refine ⟨(breachAt (endProbe bp r reaction s) bp).reaction, ?_⟩
  rw [endProbe, breachAt_breachResult, breachAt_breachRecord]
  simp [breachAt]

theorem endProbe_runs (bp : Nat) (r : BreachRun) (reaction : Option Nat) (s : State) :
    (endProbe bp r reaction s).saf.runs = s.saf.runs.erase r := by
  simp [endProbe]

theorem breachResultWindowEnd_effect (bp : Nat) (reaction : Option Nat) (s : State) (hb : (escOf bp).isSome = true) :
    ∃ t, exec (.breachResultWindowEnd bp reaction) s = .next t ∧
      (s.saf.runs.find? (fun r => decide (r.bp = bp)) = none → t = s) ∧
      (∀ r, s.saf.runs.find? (fun r => decide (r.bp = bp)) = some r → r.full = false →
        t = endProbe bp r reaction s) := by
  obtain ⟨t, ht⟩ := exec_next (i := .breachResultWindowEnd bp reaction) hb s
  refine ⟨t, ht, fun hn => ?_, fun r hr hf => ?_⟩
  · simp only [exec, execBreachResultWindowEnd, guardUnit, hb, if_true, hn] at ht
    exact (Host.Outcome.next.inj ht).symm
  · rw [exec_breachResultWindowEnd_probe reaction hb hr hf] at ht
    exact (Host.Outcome.next.inj ht).symm

@[simp] theorem detAt_reactionOf (t : Option Nat) (s : State) (bp : Nat) : detAt (reactionOf t s).2 bp = detAt s bp :=
  by
  simp [detAt]

@[simp] theorem detAt_breachRecord (bp inst : Nat) (full latent pass : Bool) (ns b : Nat) (s : State) :
    detAt (breachRecord bp inst full latent pass ns s) b = detAt s b := rfl

theorem latentFails_faultFall (s : State) : (faultFall s).saf.latentFails = s.saf.latentFails := by
  unfold faultFall
  split <;> rfl

theorem latentFails_safeRequest (k bp : Nat) (s : State) : (safeRequest k bp s).saf.latentFails = s.saf.latentFails :=
  by
  unfold safeRequest
  dsimp only
  split <;> split <;> (try split) <;> rfl

/-- One attempt of a latent test: its reaction is recorded as a run of the point. -/
def latentRecorded (bp inst : Nat) (reaction : Option Nat) (s : State) : State :=
  let e := reactionOf reaction s
  breachRecord bp inst false true reaction.isSome e.1 e.2

/-- A latent test that passed. -/
def latentPassed (bp : Nat) (s : State) : State :=
  modDet bp (fun d => { d with latentFail := false, latentCycle := s.cyc.number }) s

/-- A detection point whose latent test failed twice. -/
def failedLatent (cycle : Nat) (d : Det) : Det :=
  { d with latentFail := true, count := sat 32 (d.count + 1), latched := true, lastCycle := cycle }

/-- A latent test that failed twice, counted as a detection and as a latent failure. -/
def latentCounted (bp : Nat) (s : State) : State :=
  modSaf (fun v => { v with latentFails := sat 32 (v.latentFails + 1) }) (modDet bp (failedLatent s.cyc.number) s)

/-- What a counted latent failure reports, and the safe state it asks for. -/
def latentReported (bp : Nat) (s : State) : State :=
  let s := emit 0x6001 (0x100 + bp) s (cause := bp) (flags := 3) (value := s.tide.counter % 2 ^ 47)
  let s := faultFall (breachResult bp false s)
  if (detAt s bp).escalate && decide (bp ≠ 0x019) then safeRequest (causeBit bp) bp s else s

theorem exec_latentTestRun {bp inst : Nat} (first second : Option Nat) {s : State} (hb : (escOf bp).isSome = true)
    (hd : (detUnit bp inst).isSome = true) :
    exec (.latentTestRun bp inst first second) s = .next (if runPending s bp ∨ s.fv.fw = false then s
      else if first.isSome then latentPassed bp (latentRecorded bp inst first s)
      else if second.isSome then latentPassed bp (latentRecorded bp inst second (latentRecorded bp inst first s))
      else latentReported bp (latentCounted bp (latentRecorded bp inst second (latentRecorded bp inst first s)))) := by
  simp only [exec, execLatentTestRun, guardUnit, hb, hd, Bool.and_self, if_true]
  rfl

@[simp] theorem detAt_latentRecorded (bp inst : Nat) (reaction : Option Nat) (s : State) (b : Nat) :
    detAt (latentRecorded bp inst reaction s) b = detAt s b := by
  simp [latentRecorded]

@[simp] theorem latentRecorded_cyc (bp inst : Nat) (reaction : Option Nat) (s : State) :
    (latentRecorded bp inst reaction s).cyc = s.cyc := by
  simp [latentRecorded, breachRecord, modBreach]

@[simp] theorem latentRecorded_latentFails (bp inst : Nat) (reaction : Option Nat) (s : State) :
    (latentRecorded bp inst reaction s).saf.latentFails = s.saf.latentFails := by
  have h := congrArg Saf.latentFails (reactionOf_saf reaction s)
  exact h

theorem detAt_latentPassed (bp : Nat) (s : State) :
    detAt (latentPassed bp s) bp = { detAt s bp with latentFail := false, latentCycle := s.cyc.number } :=
  detAt_modDet_same bp _ s

theorem latentPassed_latentFails (bp : Nat) (s : State) : (latentPassed bp s).saf.latentFails = s.saf.latentFails := rfl

theorem detAt_latentCounted (bp : Nat) (s : State) :
    detAt (latentCounted bp s) bp = failedLatent s.cyc.number (detAt s bp) :=
  detAt_modDet_same bp (failedLatent s.cyc.number) s

theorem latentCounted_latentFails (bp : Nat) (s : State) :
    (latentCounted bp s).saf.latentFails = sat 32 (s.saf.latentFails + 1) := rfl

theorem latentReported_dets (bp : Nat) (s : State) : (latentReported bp s).saf.dets = s.saf.dets := by
  unfold latentReported
  dsimp only
  split
  · rw [safeRequest_dets, faultFall_dets, breachResult_saf, emit_saf]
  · rw [faultFall_dets, breachResult_saf, emit_saf]

theorem latentReported_latentFails (bp : Nat) (s : State) :
    (latentReported bp s).saf.latentFails = s.saf.latentFails := by
  unfold latentReported
  dsimp only
  split
  · rw [latentFails_safeRequest, latentFails_faultFall, breachResult_saf, emit_saf]
  · rw [latentFails_faultFall, breachResult_saf, emit_saf]

theorem latentTestRun_effect (bp inst : Nat) (first second : Option Nat) (s : State) (hb : (escOf bp).isSome = true)
    (hd : (detUnit bp inst).isSome = true) :
    ∃ t, exec (.latentTestRun bp inst first second) s = .next t ∧
      (runPending s bp = true ∨ s.fv.fw = false → t = s) ∧ (runPending s bp = false → s.fv.fw = true →
        (first.isSome = true ∨ second.isSome = true →
          detAt t bp = { detAt s bp with latentFail := false, latentCycle := s.cyc.number } ∧
            t.saf.latentFails = s.saf.latentFails) ∧
        (first = none → second = none →
          detAt t bp = { detAt s bp with
              latentFail := true, count := sat 32 ((detAt s bp).count + 1), latched := true
              lastCycle := s.cyc.number } ∧
            t.saf.latentFails = sat 32 (s.saf.latentFails + 1))) := by
  refine ⟨_, exec_latentTestRun first second hb hd, fun h => if_pos h, fun hr hf => ?_⟩
  rw [if_neg (by simp [hr, hf])]
  refine ⟨fun hp => ?_, ?_⟩
  · split
    · rw [detAt_latentPassed, latentPassed_latentFails]
      simp
    · rw [if_pos (hp.resolve_left ‹_›), detAt_latentPassed, latentPassed_latentFails]
      simp
  · rintro rfl rfl
    simp only [Option.isSome_none, Bool.false_eq_true, if_false]
    rw [latentReported_latentFails, latentCounted_latentFails, detAt, latentReported_dets, ← detAt, detAt_latentCounted]
    simp [failedLatent]

theorem boundaryScan_effect (code : Nat) (s : State) :
    ∃ t, exec (.boundaryScanInstruction code) s = .next t ∧ t = modSys (fun v => { v with
      tapReg := if code ≤ 1 then code
        else if bitOf 0 s.light.scope = true ∧
            (code = 2 ∨ ((grpAt s 0).band = .belowOff ∧ (grpAt s 1).band = .belowOff)) then code
        else 0 }) s := by
  refine ⟨_, rfl, ?_⟩
  simp only [Bool.and_eq_true, Bool.or_eq_true, decide_eq_true_eq]

/-- Settles O47: each command taken apart into what it counts, what it records and what it reports, with the fields
that the reports and the spare banks leave alone. -/
theorem memoryErrorsBreachResultsAndScan : Obligations.MemoryErrorsBreachResultsAndScan := by
  unfold Obligations.MemoryErrorsBreachResultsAndScan
  refine ⟨fun cor l2 l1 stuck uncorr s => ?_, fun addr p mon recurs place s h =>
    sramUncorrectable_effect addr p mon recurs place s h, accessFault_effect, fun bp reaction s hb => ?_,
    latentTestRun_effect, boundaryScan_effect⟩
  · obtain ⟨t, ht, hoff, hon⟩ := scrubPass_counts cor l2 l1 stuck uncorr s
    refine ⟨t, ht, hoff, fun hk => ?_⟩
    obtain ⟨ha, hu, hm⟩ := hon hk
    exact ⟨congrArg Aps.sramCorr ha, congrArg Aps.l2Corr ha, congrArg Aps.l1Err ha, congrArg Aps.scrubCycle ha, hu, hm⟩
  · obtain ⟨t, ht, hn, hp⟩ := breachResultWindowEnd_effect bp reaction s hb
    refine ⟨t, ht, hn, fun r hr hf => ?_⟩
    obtain ⟨ns, hrec⟩ := breachAt_endProbe bp r reaction s
    rw [hp r hr hf, hrec]
    exact ⟨endProbe_runs bp r reaction s, rfl, rfl, rfl, rfl, rfl, rfl, rfl⟩

end Sys2Proof.Machine
end

section
/-! The windows of the mailbox: writes to their registers, host memory that fails, resets and interrupts (O51). -/
open Sys2Proof
namespace Sys2Proof.Machine

/-! What the update of a window leaves alone: an interrupt changes the vectors, a cause the cause register besides. -/

theorem signalVec_eq (v now : Nat) (w : Win) : signalVec v now w = { w with vecs := (signalVec v now w).vecs } := by
  unfold signalVec
  dsimp only
  split
  · split <;> rfl
  · rfl

theorem setCause_eq (k now : Nat) (w : Win) :
    setCause k now w = { w with cause := w.cause ||| 2 ^ k, vecs := (setCause k now w).vecs } := by
  unfold setCause
  dsimp only
  split
  · rw [signalVec_eq]
  · rfl

theorem signalVecs_eq (l : List Nat) (now : Nat) (w : Win) : l.foldl (fun w v => signalVec v now w) w =
    { w with vecs := (l.foldl (fun w v => signalVec v now w) w).vecs } := by
  induction l generalizing w with
  | nil => rfl
  | cons v l ih =>
    rw [List.foldl_cons, ih, signalVec_eq]

theorem others_modWin (e : Nat) (f : Win → Win) (s : State) : others winAt e s (modWin e f s) :=
  fun j h => winAt_modWin_ne e j f s h.symm

theorem tget_modRing_same (k : Nat) (f : Ring → Ring) (w : Win) :
    tget ring0 (modRing k f w).rings k = f (tget ring0 w.rings k) :=
  tget_tmod_same ring0 k f w.rings

theorem tget_modRing_ne {j k : Nat} (f : Ring → Ring) (w : Win) (h : j ≠ k) :
    tget ring0 (modRing j f w).rings k = tget ring0 w.rings k :=
  tget_tmod_ne ring0 j k f w.rings h

theorem tget_rings_modWin (e k : Nat) (f : Ring → Ring) (s : State) :
    tget ring0 (winAt (modWin e (modRing k f) s) e).rings k = f (tget ring0 (winAt s e).rings k) := by
  rw [winAt_modWin_same, tget_modRing_same]

/-! RUN set and cleared. -/

/-- The ring at its beginning. -/
def emptied (r : Ring) : Ring := { r with head := 0, tail := 0 }

/-- A window as its start leaves it, but for the cause that tells of the start. -/
def restarted (w : Win) : Win :=
  [0, 1, 2].foldl (fun w k => modRing k emptied w)
    { w with run := true, running := true, cfgErr := false, errCount := 0 }

theorem tget_restarted {k : Nat} (h : k < 3) (w : Win) :
    tget ring0 (restarted w).rings k = emptied (tget ring0 w.rings k) := by
  simp only [restarted, List.foldl_cons, List.foldl_nil]
  obtain rfl | rfl | rfl : k = 0 ∨ k = 1 ∨ k = 2 := by omega
  · rw [tget_modRing_ne _ _ (by decide), tget_modRing_ne _ _ (by decide), tget_modRing_same]
  · rw [tget_modRing_ne _ _ (by decide), tget_modRing_same, tget_modRing_ne _ _ (by decide)]
  · rw [tget_modRing_same, tget_modRing_ne _ _ (by decide), tget_modRing_ne _ _ (by decide)]

/-- The start of a window of pound `p`. -/
def startWindow (p e : Nat) (s : State) : State :=
  let u := modWin e (fun w => setCause 5 s.tide.counter (restarted w)) s
  if (poundAt s p).kind = 1 ∧ (poundAt s p).state = .stopped then
    clearSnap p (modPound p (fun r => { r with state := .running }) u)
  else u

theorem winAt_startWindow (p e j : Nat) (s : State) :
    winAt (startWindow p e s) j = winAt (modWin e (fun w => setCause 5 s.tide.counter (restarted w)) s) j := by
  unfold startWindow
  dsimp only
  split <;> rfl

theorem winAt_startWindow_same (p e : Nat) (s : State) :
    winAt (startWindow p e s) e = setCause 5 s.tide.counter (restarted (winAt s e)) := by
  rw [winAt_startWindow, winAt_modWin_same]

theorem poundAt_startWindow_same (p e : Nat) (s : State) : poundAt (startWindow p e s) p = { poundAt s p with
    state := if (poundAt s p).kind = 1 ∧ (poundAt s p).state = .stopped then .running else (poundAt s p).state } := by
  unfold startWindow
  dsimp only
  split
  · exact poundAt_modPound_same p _ (modWin e (fun w => setCause 5 s.tide.counter (restarted w)) s)
  · rfl

theorem poundAt_startWindow_ne (p e : Nat) (s : State) : others poundAt p s (startWindow p e s) := by
  intro j h
  unfold startWindow
  dsimp only
  split
  · exact poundAt_modPound_ne p j _ (modWin e (fun w => setCause 5 s.tide.counter (restarted w)) s) h.symm
  · rfl

theorem exec_runSet {e : Nat} (s : State) (h : winOk e = true) :
    exec (.runSet e) s = .next (if !winLive s e then s else
      match poundOfWin s e with
      | none => s
      | some p =>
        if (poundAt s p).state = .resetting ∨ (winAt s e).running = true then
          modWin e (fun w => { w with run := true }) s
        else match runFault s e with
          | some (code, k) =>
            emitTransport p 0x10 (mbxError p code k (modWin e (fun w => { w with cfgErr := true, run := true }) s))
          | none => startWindow p e s) := by
  refine (guardUnit_of_ok h _).trans ?_
  rfl

theorem runSet_effect (e : Nat) (s : State) (h : winOk e = true) : ∃ t, exec (.runSet e) s = .next t ∧
    (winLive s e = false ∨ poundOfWin s e = none → t = s) ∧
    (∀ p, winLive s e = true → poundOfWin s e = some p →
      ((poundAt s p).state = .resetting ∨ (winAt s e).running = true →
        t = modWin e (fun w => { w with run := true }) s) ∧
      ((poundAt s p).state ≠ .resetting → (winAt s e).running = false →
        (∀ code k, runFault s e = some (code, k) → t =
          emitTransport p 0x10 (mbxError p code k (modWin e (fun w => { w with cfgErr := true, run := true }) s))) ∧
        (runFault s e = none → t = startWindow p e s))) := by
  refine ⟨_, exec_runSet s h, ?_, fun p hl hp => ?_⟩
  · rintro (hl | hp)
    · rw [hl]
      rfl
    · rw [hp]
      split <;> rfl
  · rw [hl, hp, if_neg (show ¬(!true) = true by decide)]
    refine ⟨fun hr => if_pos hr, fun hs hr => ?_⟩
    dsimp only
    rw [if_neg (by simp [hs, hr])]
    exact ⟨fun code k hf => by rw [hf], fun hf => by rw [hf]⟩

theorem startWindow_effect (p e : Nat) (s : State) :
    (winAt (startWindow p e s) e).run = true ∧ (winAt (startWindow p e s) e).running = true ∧
      (winAt (startWindow p e s) e).cfgErr = false ∧ (winAt (startWindow p e s) e).errCount = 0 ∧
      (∀ k, k < 3 → tget ring0 (winAt (startWindow p e s) e).rings k = emptied (tget ring0 (winAt s e).rings k)) ∧
      others winAt e s (startWindow p e s) := by
  rw [winAt_startWindow_same, setCause_eq]
  refine ⟨rfl, rfl, rfl, rfl, fun k hk => tget_restarted hk (winAt s e), fun j hj => ?_⟩
  rw [winAt_startWindow]
  exact winAt_modWin_ne e j _ s hj.symm

/-- The window of a write of RUN = 0. -/
def runCleared (e : Nat) (s : State) : State := modWin e (fun w => { w with run := false, cfgErr := false }) s

theorem exec_runClear {e : Nat} (s : State) (h : winOk e = true) :
    exec (.runClear e) s = .next (if !winLive s e then s else
      match poundOfWin s e with
      | some p => stopIfDone p e (runCleared e s)
      | none => modWin e (fun w => { w with running := false }) (runCleared e s)) := by
  refine (guardUnit_of_ok h _).trans ?_
  rfl

theorem winAt_runCleared (e : Nat) (s : State) : winAt (runCleared e s) e = { winAt s e with run := false, cfgErr :=
  false } :=
  winAt_modWin_same e _ s

theorem winAt_stopIfDone (p e : Nat) (s : State) : others winAt e s (stopIfDone p e s) ∧
    (winAt (stopIfDone p e s) e).run = (winAt s e).run ∧ (winAt (stopIfDone p e s) e).cfgErr = (winAt s e).cfgErr ∧
    (winAt (stopIfDone p e s) e).rings = (winAt s e).rings ∧
    (winAt (stopIfDone p e s) e).running = ((winAt s e).running &&
      !(!(winAt s e).run && decide ((pqAt s p).unanswered = 0) && (pqAt s p).rsp.isEmpty)) := by
  unfold stopIfDone
  dsimp only
  split
  case isTrue hc =>
    rw [winAt_modWin_same, setCause_eq]
    refine ⟨others_modWin e _ s, rfl, rfl, rfl, ?_⟩
    simp only [Bool.and_eq_true] at hc
    obtain ⟨⟨⟨-, hr⟩, hu⟩, hq⟩ := hc
    rw [hr, hu, hq]
    simp
  case isFalse hc =>
    refine ⟨fun _ _ => rfl, rfl, rfl, rfl, ?_⟩
    cases hr : (winAt s e).running
    · rfl
    · simp only [hr, Bool.true_and, Bool.not_eq_true] at hc
      rw [hc]
      rfl

theorem runClear_effect (e : Nat) (s : State) (h : winOk e = true) : ∃ t, exec (.runClear e) s = .next t ∧
    (winLive s e = false → t = s) ∧ (winLive s e = true →
      (winAt t e).run = false ∧ (winAt t e).cfgErr = false ∧ (winAt t e).rings = (winAt s e).rings ∧
      others winAt e s t ∧
      (poundOfWin s e = none → (winAt t e).running = false) ∧
      (∀ p, poundOfWin s e = some p → (winAt t e).running =
        ((winAt s e).running && !(decide ((pqAt s p).unanswered = 0) && (pqAt s p).rsp.isEmpty)))) := by
  refine ⟨_, exec_runClear s h, fun hl => by rw [hl]; rfl, fun hl => ?_⟩
  rw [hl, if_neg (show ¬(!true) = true by decide)]
  have ho : others winAt e s (runCleared e s) := others_modWin e _ s
  cases hp : poundOfWin s e with
  | none =>
    dsimp only
    rw [winAt_modWin_same, winAt_runCleared]
    exact ⟨rfl, rfl, rfl, fun j hj => (others_modWin e _ _ j hj).trans (ho j hj), fun _ => rfl, fun p h => nomatch h⟩
  | some p =>
    obtain ⟨hso, hrun, hcfg, hrings, hrunning⟩ := winAt_stopIfDone p e (runCleared e s)
    rw [winAt_runCleared] at hrun hcfg hrings hrunning
    refine ⟨hrun, hcfg, hrings, fun j hj => (hso j hj).trans (ho j hj), fun h => (nomatch h), ?_⟩
    rintro q ⟨⟩
    exact hrunning

/-! Doorbells and heads. -/

theorem exec_commandDoorbell {e : Nat} (tail : Nat) (s : State) (h : winOk e = true) :
    exec (.commandDoorbell e tail) s = .next (if !winLive s e then s else (tailWrite e 0 tail s).2) :=
  guardUnit_of_ok h _

theorem exec_responseHeadWrite {e : Nat} (head : Nat) (s : State) (h : winOk e = true) :
    exec (.responseHeadWrite e head) s = .next (if !winLive s e then s else headWrite e 1 head s) :=
  guardUnit_of_ok h _

theorem exec_eventHeadWrite {e : Nat} (head : Nat) (s : State) (h : winOk e = true) :
    exec (.eventHeadWrite e head) s = .next (if !winLive s e then s else headWrite e 2 head s) :=
  guardUnit_of_ok h _

theorem tailWrite_snd (e k tail : Nat) (s : State) : (tailWrite e k tail s).2 =
    if ringSize (winAt s e) k < (tail % 65536 + 65536 - (tget ring0 (winAt s e).rings k).head) % 65536 then
      winError e 1 k s
    else modWin e (modRing k (fun r => { r with tail := tail % 65536 })) s := by
  unfold tailWrite
  dsimp only
  split <;> rfl

/-- A write to a ring moves its index, or is an error: `c` says that it names more than the ring holds. -/
theorem ringWrite_effect {c : Prop} [Decidable c] (e k : Nat) (f : Ring → Ring) {s t : State}
    (ht : t = if c then winError e 1 k s else modWin e (modRing k f) s) :
    if c then t = winError e 1 k s
    else t = modWin e (modRing k f) s ∧ tget ring0 (winAt t e).rings k = f (tget ring0 (winAt s e).rings k) ∧
      others winAt e s t := by
  subst ht
  split
  · rfl
  · exact ⟨rfl, tget_rings_modWin e k f s, others_modWin e _ s⟩

theorem headWrite_effect (e k head : Nat) {s t : State} (ht : t = if !winLive s e then s else headWrite e k head s) :
    (winLive s e = false → t = s) ∧ (winLive s e = true →
      if used (tget ring0 (winAt s e).rings k) < (head % 65536 + 65536 - (tget ring0 (winAt s e).rings k).head) % 65536
      then t = winError e 1 k s
      else t = modWin e (modRing k (fun r => { r with head := head % 65536 })) s ∧
        tget ring0 (winAt t e).rings k = { tget ring0 (winAt s e).rings k with head := head % 65536 } ∧
        others winAt e s t) := by
  subst ht
  refine ⟨fun hl => by rw [hl]; rfl, fun hl => ?_⟩
  rw [hl, if_neg (show ¬(!true) = true by decide)]
  exact ringWrite_effect e k _ rfl

theorem commandDoorbell_effect (e tail : Nat) {s t : State}
    (ht : t = if !winLive s e then s else (tailWrite e 0 tail s).2) :
    (winLive s e = false → t = s) ∧ (winLive s e = true →
      if ringSize (winAt s e) 0 < (tail % 65536 + 65536 - (tget ring0 (winAt s e).rings 0).head) % 65536
      then t = winError e 1 0 s
      else t = modWin e (modRing 0 (fun r => { r with tail := tail % 65536 })) s ∧
        tget ring0 (winAt t e).rings 0 = { tget ring0 (winAt s e).rings 0 with tail := tail % 65536 } ∧
        others winAt e s t) := by
  subst ht
  refine ⟨fun hl => by rw [hl]; rfl, fun hl => ?_⟩
  rw [hl, if_neg (show ¬(!true) = true by decide)]
  exact ringWrite_effect e 0 _ (tailWrite_snd e 0 tail s)

/-! Causes, registers and vectors. -/

/-- The cause register with the masked bits cleared, but those that were set in the same cycle. -/
def causeLeft (mask same : Nat) (w : Win) : Nat := w.cause - (w.cause &&& (mask - (mask &&& same)))

/-- A window with causes cleared; the vectors of the causes that remain are signalled again. -/
def clearCauses (mask same now : Nat) (w : Win) : Win :=
  let w := { w with cause := causeLeft mask same w }
  ((List.range 4).filter (fun v => (List.range 6).any (fun k =>
    bitOf k w.cause && bitOf k w.causeEn && decide (fieldOf (2 * k) 2 w.vec = v)))).foldl
    (fun w v => signalVec v now w) w

theorem clearCauses_eq (mask same now : Nat) (w : Win) : clearCauses mask same now w =
    { w with cause := causeLeft mask same w, vecs := (clearCauses mask same now w).vecs } := by
  unfold clearCauses
  dsimp only
  rw [signalVecs_eq]

theorem exec_causeClear {e : Nat} (mask same : Nat) (s : State) (h : winOk e = true) :
    exec (.causeClear e mask same) s = .next (if !winLive s e then s else
      modWin e (clearCauses mask same s.tide.counter) s) :=
  guardUnit_of_ok h _

theorem causeClear_effect (e mask same : Nat) (s : State) (h : winOk e = true) :
    ∃ t, exec (.causeClear e mask same) s = .next t ∧ (winLive s e = false → t = s) ∧ (winLive s e = true →
      (winAt t e).cause = causeLeft mask same (winAt s e) ∧ (winAt t e).causeEn = (winAt s e).causeEn ∧
      (winAt t e).running = (winAt s e).running ∧ (winAt t e).rings = (winAt s e).rings ∧ others winAt e s t) := by
  refine ⟨_, exec_causeClear mask same s h, fun hl => by rw [hl]; rfl, fun hl => ?_⟩
  rw [hl, if_neg (show ¬(!true) = true by decide), winAt_modWin_same, clearCauses_eq]
  exact ⟨rfl, rfl, rfl, rfl, others_modWin e _ s⟩

theorem exec_registerWrite {e : Nat} (off val : Nat) (word : Bool) (s : State) (h : winOk e = true) :
    exec (.registerWrite e off val word) s = .next (if !winLive s e then s else
      if !word || decide (off % 4 ≠ 0) then winError e 7 0 s
      else if off = 0x010 then modWin e (fun w => { w with causeEn := val % 64 }) s
      else if off = 0x014 then modWin e (fun w => { w with vec := val % 4096 }) s
      else if off = 0x018 then modWin e (fun w => { w with mod := val % 65536 }) s
      else if 0x100 ≤ off ∧ off < 0x260 then ringRegister e ((off - 0x100) / 32) (off % 32) val s
      else s) :=
  guardUnit_of_ok h _

/-- What a write to a register of a ring makes of the ring: 0 and 4 are the halves of the base, 8 the size. -/
def ringField (r val : Nat) (g : Ring) : Ring :=
  if r = 8 then { g with log2 := val % 16 }
  else { g with base := if r = 0 then g.base / 2 ^ 32 * 2 ^ 32 + val % 2 ^ 32
                        else g.base % 2 ^ 32 + val % 2 ^ 32 * 2 ^ 32 }

/-- The registers of ring `k` as the window numbers them: the halves of the base, and the size. -/
theorem ringField_at {k off : Nat} (ho : off = 0x100 + 32 * k ∨ off = 0x104 + 32 * k ∨ off = 0x108 + 32 * k) (val : Nat)
    (g : Ring) : ringField (off - (0x100 + 32 * k)) val g = if off = 0x108 + 32 * k then { g with log2 := val % 16 }
      else { g with base := if off = 0x100 + 32 * k then g.base / 2 ^ 32 * 2 ^ 32 + val % 2 ^ 32
                            else g.base % 2 ^ 32 + val % 2 ^ 32 * 2 ^ 32 } := by
  have h8 : off - (0x100 + 32 * k) = 8 ↔ off = 0x108 + 32 * k := by omega
  have h0 : off - (0x100 + 32 * k) = 0 ↔ off = 0x100 + 32 * k := by omega
  simp only [ringField, h8, h0]

theorem ringRegister_eq {e k r : Nat} (hk : k < 3) (hr : r = 0 ∨ r = 4 ∨ r = 8) (val : Nat) (s : State) :
    ringRegister e k r val s =
      if (winAt s e).running = true then winError e 4 k s else modWin e (modRing k (ringField r val)) s := by
  unfold ringRegister
  dsimp only
  rw [if_pos hk]
  obtain rfl | rfl | rfl := hr <;> rfl

theorem ringRegister_effect {e k off : Nat} (hk : k < 3) (ho : off = 0x100 + 32 * k ∨ off = 0x104 + 32 * k ∨ off =
  0x108 + 32 * k)
    (val : Nat) {s t : State} (ht : t = ringRegister e ((off - 0x100) / 32) (off % 32) val s) :
    if (winAt s e).running = true then t = winError e 4 k s
    else others winAt e s t ∧ tget ring0 (winAt t e).rings k = ringField (off - (0x100 + 32 * k)) val (tget ring0
        (winAt s e).rings k) := by
  have hd : (off - 0x100) / 32 = k := by omega
  have hm : off % 32 = off - (0x100 + 32 * k) := by omega
  rw [hd, hm, ringRegister_eq hk (by omega)] at ht
  subst ht
  split
  · rfl
  · exact ⟨others_modWin e _ s, tget_rings_modWin e k _ s⟩

theorem exec_interruptModerationEnd {e v : Nat} (s : State) (h : e < 64 ∧ v < 4) :
    exec (.interruptModerationEnd e v) s = .next (modWin e (fun w => if (tget vec0 w.vecs v).deferred then
      { w with
        vecs := tput vec0 v
          { last := some s.tide.counter, deferred := false, sent := ((tget vec0 w.vecs v).sent + 1) % 2 ^ 32 } w.vecs }
      else w) s) :=
  guardUnit_of_ok (decide_eq_true h) _

theorem interruptModerationEnd_effect (e v : Nat) (s : State) (h : e < 64 ∧ v < 4) :
    ∃ t, exec (.interruptModerationEnd e v) s = .next t ∧ others winAt e s t ∧
      winAt t e = if (tget vec0 (winAt s e).vecs v).deferred then { winAt s e with
        vecs := tput vec0 v
          { last := some s.tide.counter, deferred := false, sent := ((tget vec0 (winAt s e).vecs v).sent + 1) % 2 ^ 32 }
          (winAt s e).vecs }
      else winAt s e :=
  ⟨_, exec_interruptModerationEnd s h, others_modWin e _ s, winAt_modWin_same e _ s⟩

/-! Host memory that fails. -/

theorem posted_modHring {f : HostRing → HostRing} (hf : ∀ g, (f g).posted = g.posted) (i j : Nat) (s : State) :
    (hringAt (modHring i f s) j).posted = (hringAt s j).posted := by
  by_cases h : i = j
  · rw [h, hringAt_modHring_same, hf]
  · rw [hringAt_modHring_ne i j f s h]

theorem posted_foldl {α : Type} {f : State → α → State} {j : Nat}
    (hf : ∀ s a, (hringAt (f s a) j).posted = (hringAt s j).posted) (l : List α) (s : State) :
    (hringAt (l.foldl f s) j).posted = (hringAt s j).posted := by
  induction l generalizing s with
  | nil => rfl
  | cons a l ih => rw [List.foldl_cons, ih, hf]

theorem hringAt_storeBytes (a j : Nat) (b : List Byte) (s : State) : hringAt (storeBytes a b s) j = hringAt s j := rfl

theorem hringAt_modWin (e j : Nat) (f : Win → Win) (s : State) : hringAt (modWin e f s) j = hringAt s j := rfl

theorem posted_writeBack (p r j : Nat) (l : List Written) (s : State) :
    (hringAt (writeBack p r l s) j).posted = (hringAt s j).posted := by
  unfold writeBack
  split
  · rfl
  · dsimp only
    rw [hringAt_modWin]
    split
    · rw [posted_foldl, posted_foldl]
      · refine fun s x => posted_modHring ?_ _ j s
        exact fun _ => rfl
      · intro s x
        rw [hringAt_storeBytes]
        split
        · rfl
        · rw [hringAt_storeBytes]
    · refine posted_foldl (fun s x => posted_modHring ?_ _ j s) _ s
      exact fun _ => rfl

theorem posted_flushDone (k j : Nat) (s : State) : (hringAt (flushDone k s) j).posted = (hringAt s j).posted := by
  unfold flushDone
  dsimp only
  split
  · rfl
  · rw [posted_writeBack, posted_modHring]
    exact fun _ => rfl

theorem posted_pushDone (k tag n j : Nat) (st : Option Nat) (s : State) :
    (hringAt (pushDone k tag n st s) j).posted = (hringAt s j).posted := by
  unfold pushDone
  rw [posted_flushDone, posted_modHring]
  exact fun _ => rfl

theorem posted_dropDesc (p k : Nat) (s : State) : (hringAt (dropDesc p k s) (ringKey p (k - 3))).posted =
    (hringAt s (ringKey p (k - 3))).posted.drop 1 := by
  unfold dropDesc
  dsimp only
  split
  case isTrue he =>
    rw [List.isEmpty_iff.mp he]
    rfl
  case isFalse =>
    split
    · rw [posted_writeBack, hringAt_modHring_same]
    · rw [posted_flushDone, posted_modHring, posted_foldl, hringAt_modHring_same]
      · exact fun s d => posted_pushDone _ _ _ _ _ s
      · exact fun _ => rfl

theorem exec_dmaReadTimeout {e k : Nat} (got : List Byte) (s : State) (h : e < 64 ∧ k < 11) :
    exec (.dmaReadTimeout e k got) s = .next (if k = 0 then fetch e (fun p s => truncated p got s) s
      else if k < 3 then s
      else match poundOfWin s e with | some p => dropDesc p k s | none => s) :=
  guardUnit_of_ok (decide_eq_true h) _

theorem exec_dmaReadError {e k : Nat} (got : List Byte) (s : State) (h : e < 64 ∧ k < 11) :
    exec (.dmaReadError e k got) s = .next (if k = 0 then fetch e (fun p s =>
        let s := mbxError p 5 0 (pend p s)
        if hcrcOk got then reject p .eCheck got s else distrust p .eCheck got s) s
      else if k < 3 then s
      else match poundOfWin s e with | some p => mbxError p 5 k (dropDesc p k s) | none => s) :=
  guardUnit_of_ok (decide_eq_true h) _

theorem fetch_none {e : Nat} {s : State}
    (h : poundOfWin s e = none) (act : Nat → State → State) : fetch e act s = s := by
  simp only [fetch, h]

theorem fetch_some {e p : Nat} {s : State} (h : poundOfWin s e = some p) (act : Nat → State → State) :
    fetch e act s = if canFetch s p e then act p (takeSlotAt p e s) else s := by
  simp only [fetch, h]

theorem dmaReadTimeout_effect (e k : Nat) (got : List Byte) (s : State) (h : e < 64 ∧ k < 11) :
    ∃ t, exec (.dmaReadTimeout e k got) s = .next t ∧ (poundOfWin s e = none ∨ k = 1 ∨ k = 2 → t = s) ∧
      (∀ p, poundOfWin s e = some p → (k = 0 → t = if canFetch s p e then truncated p got (takeSlotAt p e s) else s) ∧
        (3 ≤ k → t = dropDesc p k s ∧
          (hringAt t (ringKey p (k - 3))).posted = (hringAt s (ringKey p (k - 3))).posted.drop 1)) := by
  refine ⟨_, exec_dmaReadTimeout got s h, ?_, fun p hp => ⟨?_, fun hk => ?_⟩⟩
  · rintro (hn | hk)
    · rw [fetch_none hn, hn]
      simp
    · rw [if_neg (by omega), if_pos (by omega)]
  · rintro rfl
    exact fetch_some hp _
  · rw [if_neg (by omega), if_neg (by omega), hp]
    exact ⟨rfl, posted_dropDesc p k s⟩

theorem dmaReadError_effect (e k : Nat) (got : List Byte) (s : State) (h : e < 64 ∧ k < 11) :
    ∃ t, exec (.dmaReadError e k got) s = .next t ∧ (poundOfWin s e = none ∨ k = 1 ∨ k = 2 → t = s) ∧
      (∀ p, poundOfWin s e = some p →
        (k = 0 → (canFetch s p e = false → t = s) ∧
          (∀ u, canFetch s p e = true → u = mbxError p 5 0 (pend p (takeSlotAt p e s)) →
            t = if hcrcOk got = true then reject p .eCheck got u else distrust p .eCheck got u)) ∧
        (3 ≤ k → t = mbxError p 5 k (dropDesc p k s) ∧
          (hringAt t (ringKey p (k - 3))).posted = (hringAt s (ringKey p (k - 3))).posted.drop 1)) := by
  refine ⟨_, exec_dmaReadError got s h, ?_, fun p hp => ⟨?_, fun hk => ?_⟩⟩
  · rintro (hn | hk)
    · rw [fetch_none hn, hn]
      simp
    · rw [if_neg (by omega), if_pos (by omega)]
  · rintro rfl
    rw [if_pos rfl, fetch_some hp]
    refine ⟨fun hc => by rw [hc]; rfl, ?_⟩
    rintro u hc rfl
    rw [hc]
    rfl
  · rw [if_neg (by omega), if_neg (by omega), hp]
    refine ⟨rfl, ?_⟩
    dsimp only
    rw [hringAt, mbxError_net, ← hringAt, posted_dropDesc]

/-! Resets of a pound. -/

theorem poundAt_of_core {s t : State} (h : t.fv.core = s.fv.core) (p : Nat) : poundAt t p = poundAt s p := by
  have hp := congrArg Fv.pounds h
  exact congrArg (fun x => tget pound0 x p) hp

theorem inHandover_of_img {s t : State} (h : t.img = s.img) : inHandover t = inHandover s := by
  unfold inHandover
  rw [h]

theorem muteWaiting_core (p : Nat) (s : State) : (muteWaiting p s).fv.core = s.fv.core :=
  same_of_blank (muteWaiting_frame (fun r => decide (r ≠ .fv)) rfl rfl rfl rfl rfl rfl p s) .fv rfl

theorem poundAt_modPq (p j : Nat) (f : PoundQ → PoundQ) (s : State) : poundAt (modPq p f s) j = poundAt s j := rfl

theorem poundAt_modWin (e j : Nat) (f : Win → Win) (s : State) : poundAt (modWin e f s) j = poundAt s j := rfl

/-- A running pound that is reset outside a handover is in reset, for the reason of the reset. -/
theorem poundAt_startReset (p reason : Nat) {s : State} (hh : inHandover s = false) (hr : (poundAt s p).state =
  .running) :
    (poundAt (startReset p reason s) p).state = .resetting ∧ (poundAt (startReset p reason s) p).reason = reason := by
  unfold startReset
  dsimp only
  rw [hr, hh]
  simp only [Bool.false_eq_true, if_false]
  rw [poundAt_of_core (emit_fv_fv _ _ _ _ _ _ _ _), poundAt_modPq, foldl_keep (keep := fun s => poundAt s p),
    poundAt_of_core (muteWaiting_core _ _)]
  · split
    · rw [poundAt_modWin, poundAt_modPound_same]
      exact ⟨rfl, rfl⟩
    · rw [poundAt_modPound_same]
      exact ⟨rfl, rfl⟩
  · intro s k
    split <;> rfl

theorem exec_dmaWriteFailure {e ring : Nat} (s : State) (h : e < 64 ∧ ring < 11) :
    exec (.dmaWriteFailure e ring) s = .next (match poundOfWin s e with
      | none => s
      | some p =>
        startReset p 4 (emitTransport p 0x11 (mbxError p 6 ring (modWin e (fun w => { w with dmaFault := true }) s)))) :=
  guardUnit_of_ok (decide_eq_true h) _

theorem dmaWriteFailure_effect (e ring : Nat) (s : State) (h : e < 64 ∧ ring < 11) :
    ∃ t, exec (.dmaWriteFailure e ring) s = .next t ∧ (poundOfWin s e = none → t = s) ∧
      (∀ p, poundOfWin s e = some p →
        t = startReset p 4 (emitTransport p 0x11
          (mbxError p 6 ring (modWin e (fun w => { w with dmaFault := true }) s))) ∧
        (inHandover s = false → (poundAt s p).state = .running →
          (poundAt t p).state = .resetting ∧ (poundAt t p).reason = 4)) := by
  refine ⟨_, exec_dmaWriteFailure s h, fun hn => by rw [hn], fun p hp => ?_⟩
  rw [hp]
  refine ⟨rfl, fun hh hr => poundAt_startReset p 4 ?_ ?_⟩
  · rw [inHandover_of_img (emitTransport_img _ _ _), inHandover_of_img (mbxError_img _ _ _ _), ← hh]
    rfl
  · rw [poundAt_of_core (emitTransport_fv_fv _ _ _), poundAt_of_core (mbxError_fv_fv _ _ _ _), ← hr]
    rfl

theorem functionLevelReset_effect (f : Nat) (s : State) (h : f < 32) :
    ∃ t, exec (.functionLevelReset f) s = .next t ∧ (poundOfWin s f = none → t = s) ∧
      (∀ p, poundOfWin s f = some p → t = startReset p 3 s ∧ (inHandover s = false → (poundAt s p).state = .running →
        (poundAt t p).state = .resetting ∧ (poundAt t p).reason = 3)) := by
  refine ⟨_, guardUnit_of_ok (decide_eq_true h) _, fun hn => by rw [hn], fun p hp => ?_⟩
  rw [hp]
  exact ⟨rfl, fun hh hr => poundAt_startReset p 3 hh hr⟩

theorem outboundDoorbell_effect (p : Nat) (s : State) (h : p < 32) :
    ∃ t, exec (.outboundDoorbell p) s = .next t ∧ (pThere s p = false → t = s) ∧
      (pThere s p = true → (∀ e, winOf s p = some e → t = sendWindow p e s) ∧
        (winOf s p = none → t = if (poundAt s p).kind = 2 then sendEth p s else s)) := by
  refine ⟨_, guardUnit_of_ok (decide_eq_true h) _, fun ht => by rw [ht]; rfl, fun ht => ?_⟩
  rw [ht, if_neg (show ¬(!true) = true by decide)]
  exact ⟨fun e he => by rw [he], fun hn => by rw [hn]⟩

theorem registerWrite_effect (e off val : Nat) (word : Bool) (s : State) (h : winOk e = true) :
    ∃ t, exec (.registerWrite e off val word) s = .next t ∧ (winLive s e = false → t = s) ∧ (winLive s e = true →
      (word = false ∨ off % 4 ≠ 0 → t = winError e 7 0 s) ∧ (word = true → off % 4 = 0 →
        (off = 0x010 → winAt t e = { winAt s e with causeEn := val % 64 } ∧ others winAt e s t) ∧
        (off = 0x014 → winAt t e = { winAt s e with vec := val % 4096 } ∧ others winAt e s t) ∧
        (off = 0x018 → winAt t e = { winAt s e with mod := val % 65536 } ∧ others winAt e s t) ∧
        (∀ k, k < 3 → off = 0x100 + 32 * k ∨ off = 0x104 + 32 * k ∨ off = 0x108 + 32 * k →
          if (winAt s e).running = true then t = winError e 4 k s
          else others winAt e s t ∧ tget ring0 (winAt t e).rings k =
            ringField (off - (0x100 + 32 * k)) val (tget ring0 (winAt s e).rings k)))) := by
  refine ⟨_, exec_registerWrite off val word s h, fun hl => by rw [hl]; rfl, fun hl => ?_⟩
  rw [hl, if_neg (show ¬(!true) = true by decide)]
  refine ⟨fun hb => if_pos (by simpa using hb), ?_⟩
  rintro rfl ho
  rw [if_neg (by simp [ho])]
  refine ⟨?_, ?_, ?_, fun k hk hr => ?_⟩
  · rintro rfl
    exact ⟨winAt_modWin_same e _ s, others_modWin e _ s⟩
  · rintro rfl
    exact ⟨winAt_modWin_same e _ s, others_modWin e _ s⟩
  · rintro rfl
    exact ⟨winAt_modWin_same e _ s, others_modWin e _ s⟩
  · have hen : off ≠ 0x010 := by omega
    have hvec : off ≠ 0x014 := by omega
    have hmod : off ≠ 0x018 := by omega
    have hrings : 0x100 ≤ off ∧ off < 0x260 := by omega
    rw [if_neg hen, if_neg hvec, if_neg hmod, if_pos hrings]
    exact ringRegister_effect hk hr val rfl

/-- Settles O51: each command written out as the window operations it does, and what those operations leave alone. -/
theorem windowsAndTheirInterrupts : Obligations.WindowsAndTheirInterrupts := by
  unfold Obligations.WindowsAndTheirInterrupts
  refine ⟨fun e s h => ?_, runClear_effect,
    fun e tail s h => ⟨_, exec_commandDoorbell tail s h, commandDoorbell_effect e tail rfl⟩,
    fun e head s h => ⟨_, exec_responseHeadWrite head s h, headWrite_effect e 1 head rfl⟩,
    fun e head s h => ⟨_, exec_eventHeadWrite head s h, headWrite_effect e 2 head rfl⟩,
    causeClear_effect, fun e off val word s h => ?_, interruptModerationEnd_effect, dmaReadTimeout_effect,
    dmaReadError_effect, dmaWriteFailure_effect, functionLevelReset_effect, outboundDoorbell_effect⟩
  · obtain ⟨t, ht, hoff, hon⟩ := runSet_effect e s h
    refine ⟨t, ht, hoff, fun p hl hp => ?_⟩
    obtain ⟨hrun, hstart⟩ := hon p hl hp
    refine ⟨hrun, fun hs hr => ?_⟩
    obtain ⟨hbad, hgood⟩ := hstart hs hr
    refine ⟨hbad, fun hf => ?_⟩
    obtain ⟨h1, h2, h3, h4, h5, h6⟩ := startWindow_effect p e s
    rw [hgood hf]
    exact ⟨h1, h2, h3, h4, h5, h6, poundAt_startWindow_same p e s, poundAt_startWindow_ne p e s⟩
  · obtain ⟨t, ht, hoff, hon⟩ := registerWrite_effect e off val word s h
    refine ⟨t, ht, hoff, fun hl => ?_⟩
    obtain ⟨hbad, hgood⟩ := hon hl
    refine ⟨hbad, fun hw ho => ?_⟩
    obtain ⟨hen, hvec, hmod, hring⟩ := hgood hw ho
    refine ⟨hen, hvec, hmod, fun k hk hr => ?_⟩
    rw [← ringField_at (by omega)]
    exact hring k hk hr

end Sys2Proof.Machine
end

section
/-! The power channels: their timers and latches (O7), and the analogue protections and the cliff latch that turn them
off at once (O8, O11). -/
open Sys2Proof
namespace Sys2Proof.Machine

/-! What a channel holds after each operation on the state. -/

theorem chanAt_of_pow {s t : State} (h : t.pow = s.pow) (i : Nat) : chanAt t i = chanAt s i := by
  unfold chanAt
  rw [h]

theorem grpAt_of_pow {s t : State} (h : t.pow = s.pow) (g : Nat) : grpAt t g = grpAt s g := by
  unfold grpAt
  rw [h]

@[simp] theorem chanAt_emit (code inst : Nat) (s : State) (cause flags : Nat) (value : Int) (ext : List Nat)
    (dest : Option Nat) (i : Nat) : chanAt (emit code inst s cause flags value ext dest) i = chanAt s i :=
  chanAt_of_pow (emit_pow _ _ _ _ _ _ _ _) i

@[simp] theorem chanAt_detect (bp : Nat) (live : Bool) (s : State) (i : Nat) :
    chanAt (detect bp live s) i = chanAt s i :=
  chanAt_of_pow (detect_pow _ _ _) i

@[simp] theorem chanAt_detectEnd (bp : Nat) (s : State) (i : Nat) : chanAt (detectEnd bp s) i = chanAt s i :=
  chanAt_of_pow (detectEnd_pow _ _) i

@[simp] theorem chanAt_modBr (b : Nat) (f : Br → Br) (s : State) (i : Nat) :
    chanAt (modBr b f s) i = chanAt s i := rfl

@[simp] theorem chanAt_modBrDyn (b : Nat) (f : BrDyn → BrDyn) (s : State) (i : Nat) :
    chanAt (modBrDyn b f s) i = chanAt s i := rfl

theorem others_modChan (i : Nat) (f : Chan → Chan) (s : State) : others chanAt i s (modChan i f s) :=
  fun j h => chanAt_modChan_ne i j f s h.symm

theorem chanAt_modChan (i j : Nat) (f : Chan → Chan) (s : State) :
    chanAt (modChan i f s) j = if j = i then f (chanAt s j) else chanAt s j := by
  split
  case isTrue h => rw [h, chanAt_modChan_same]
  case isFalse h => exact others_modChan i f s j h

/-! Timers and latches (O7): each command changes its own channel, or nothing. -/

theorem modChan_if_effect (c : Prop) [Decidable c] (i : Nat) (f : Chan → Chan) (s : State) :
    others chanAt i s (if c then modChan i f s else s) ∧
      chanAt (if c then modChan i f s else s) i = if c then f (chanAt s i) else chanAt s i := by
  split
  · exact ⟨others_modChan i f s, chanAt_modChan_same i f s⟩
  · exact ⟨fun _ _ => rfl, rfl⟩

/-- Settles O7: each command is a change of its own channel, made when its condition holds. -/
theorem channelTimersAndLatches : Obligations.ChannelTimersAndLatches := by
  unfold Obligations.ChannelTimersAndLatches
  refine ⟨fun i cur s h => ?_, fun i s h => ?_, fun i s h => ?_, fun i s h => ?_, fun i s h => ?_, fun i s h => ?_,
    fun i s h => ?_, fun i s h => ?_⟩ <;>
    refine ⟨_, guardUnit_of_ok (decide_eq_true h) _, ?_⟩
  case refine_2 => exact ⟨others_modChan i _ s, chanAt_modChan_same i _ s⟩
  all_goals exact modChan_if_effect _ i _ s

/-! An analogue protection (R106) with what it takes with it: the partner of a half-bridge (R110) and a sequence of its
bridge (R190). -/

theorem chanAt_gateOff_same (i : Nat) (s : State) : chanAt (gateOff i s) i =
    { chanAt s i with
      gate := false, hb := 0, limiting := false
      offAt := if (chanAt s i).gate then s.tide.counter else (chanAt s i).offAt } :=
  chanAt_modChan_same i _ s

theorem mot_partnerOff (i : Nat) (s : State) : (partnerOff i s).mot = s.mot :=
  same_of_blank (partnerOff_frame (only [.pow]) rfl i s) .mot rfl

theorem bridgeOf_of_mot {s t : State} (h : t.mot = s.mot) (i : Nat) : bridgeOf t i = bridgeOf s i := by
  unfold bridgeOf brAt
  rw [h]

theorem sequenced_of_mot {s t : State} (h : t.mot = s.mot) (i : Nat) : sequenced t i = sequenced s i := by
  unfold sequenced
  rw [bridgeOf_of_mot h]
  unfold paired brAt brDynAt
  rw [h]

/-- A half-bridge that a bridge drives is one of its two terminals. -/
theorem bridgeOf_terminal {s : State} {i b : Nat} {a : Bool} (h : bridgeOf s i = some (b, a)) :
    i = 64 + (brAt s b).hbA ∨ i = 64 + (brAt s b).hbB := by
  unfold bridgeOf at h
  split at h
  case isTrue => cases h
  case isFalse hi =>
    split at h
    case h_1 k hk =>
      have hb := List.find?_some hk
      simp only [Option.some.injEq, Prod.mk.injEq] at h
      obtain ⟨rfl, -⟩ := h
      simp only [decide_eq_true_eq] at hb
      omega
    case h_2 => cases h

theorem cut_of_off {c : Chan} (hg : c.gate = false) (hh : c.hb = 0) (hl : c.limiting = false) :
    { c with gate := false, hb := 0, limiting := false } = c := by
  cases c
  cases hg
  cases hh
  cases hl
  rfl

/-- A channel whose gate and terminal are off already stays as it is when its partner is turned off, even if that is
itself. -/
theorem chanAt_partnerOff {i : Nat} {s : State} (hg : (chanAt s i).gate = false) (hh : (chanAt s i).hb = 0)
    (hl : (chanAt s i).limiting = false) : chanAt (partnerOff i s) i = chanAt s i := by
  unfold partnerOff
  split
  case h_2 => rfl
  case h_1 j hj =>
    by_cases h : i = j
    · rw [← h, chanAt_gateOff_same, hg]
      exact cut_of_off hg hh hl
    · exact chanAt_modChan_ne j i _ s (Ne.symm h)

theorem chanAt_setDemands (b j : Nat) (s : State) : chanAt (setDemands b s) j =
    if paired s b = true ∧ (j = 64 + (brAt s b).hbA ∨ j = 64 + (brAt s b).hbB) then
      { chanAt s j with demand := if (brAt s b).drive = 0 then 0 else 1 }
    else chanAt s j := by
  unfold setDemands
  by_cases hp : paired s b = true
  · have hm : ∀ k f, brAt (modChan k f s) b = brAt s b := fun _ _ => rfl
    simp only [hp, if_true, true_and, List.foldl_cons, List.foldl_nil, chanAt_modChan, hm]
    by_cases hA : j = 64 + (brAt s b).hbA
    · simp [hA]
    · simp [hA]
  · rw [if_neg hp, if_neg (fun h => hp h.1)]

/-- The bridge with its sequence cut short and its demand off (R190). -/
def cutSequence (b : Nat) (s : State) : State :=
  setDemands b (modBr b (fun x => { x with drive := 0 }) (modBrDyn b (fun d => { d with seq := .none }) s))

theorem reversalOff_none {i : Nat} {s : State} (h : bridgeOf s i = none) : reversalOff i s = s := by
  unfold reversalOff
  rw [h]

theorem reversalOff_some {i b : Nat} {a : Bool} {s : State} (h : bridgeOf s i = some (b, a)) : reversalOff i s =
    if (brDynAt s b).seq = .pinchBrake ∨ (brDynAt s b).seq = .reversing ∨ (brDynAt s b).seq = .revHold then
      cutSequence b s
    else s := by
  unfold reversalOff
  rw [h]
  dsimp only
  split
  case h_1 hq => rw [if_pos (.inl hq), cutSequence]
  case h_2 hq => rw [if_pos (.inr (.inl hq)), cutSequence]
  case h_3 hq => rw [if_pos (.inr (.inr hq)), cutSequence]
  case h_4 hp hr hh => rw [if_neg (fun h => h.elim hp (fun h => h.elim hr hh))]

theorem chanAt_cutSequence (b j : Nat) (s : State) : chanAt (cutSequence b s) j =
    if paired s b = true ∧ (j = 64 + (brAt s b).hbA ∨ j = 64 + (brAt s b).hbB) then { chanAt s j with demand := 0 }
    else chanAt s j := by
  have hb : brAt (modBr b (fun x => { x with drive := 0 }) (modBrDyn b (fun d => { d with seq := .none }) s)) b =
      { brAt s b with drive := 0 } := brAt_modBr_same b _ _
  unfold cutSequence
  rw [chanAt_setDemands]
  unfold paired
  rw [hb, chanAt_modBr, chanAt_modBrDyn]
  rfl

/-- A trip of half-bridge `i` leaves its own demand off when it cuts a sequence short (R190). -/
theorem chanAt_reversalOff (i : Nat) (s : State) : chanAt (reversalOff i s) i =
    { chanAt s i with demand := if sequenced s i = true then 0 else (chanAt s i).demand } := by
  unfold sequenced
  cases hb : bridgeOf s i with
  | none => rw [reversalOff_none hb]; rfl
  | some p =>
    obtain ⟨b, a⟩ := p
    have ht := bridgeOf_terminal hb
    rw [reversalOff_some hb]
    split
    case isTrue hq =>
      rw [chanAt_cutSequence]
      by_cases hp : paired s b = true
      · rw [if_pos ⟨hp, ht⟩]
        simp [hp, hq]
      · rw [if_neg (fun h => hp h.1)]
        simp [hp]
    case isFalse hq => simp [hq]

/-- The channel alone, its gate off and its trip latched. -/
def latchTrip (i cause energy : Nat) (cur : Int) (s : State) : State :=
  modChan i (fun c => { c with trip := some {
    cause := cause, energy := energy, current := cur, breach := decide (s.saf.mute ≠ []) } }) (gateOff i s)

theorem chanAt_latchTrip {i : Nat} {s : State} (h : (chanAt s i).gate = true) (cause energy : Nat) (cur : Int) :
    chanAt (latchTrip i cause energy cur s) i = { chanAt s i with
      gate := false, hb := 0, limiting := false, offAt := s.tide.counter
      trip := some { cause := cause, energy := energy, current := cur, breach := decide (s.saf.mute ≠ []) } } := by
  rw [latchTrip, chanAt_modChan_same, chanAt_gateOff_same, h]
  rfl

/-- Channel `i` and what goes with it, as an analogue protection leaves them before its detector counts. -/
def cutOff (i cause energy : Nat) (cur : Int) (s : State) : State :=
  reversalOff i (partnerOff i (latchTrip i cause energy cur s))

theorem analogTrip_of_off {i : Nat} {s : State} (h : (chanAt s i).gate = false) (cause energy : Nat) (cur : Int)
    (bp : Nat) : analogTrip i cause energy cur bp s = s := by
  unfold analogTrip
  rw [h]
  rfl

theorem analogTrip_of_on {i : Nat} {s : State} (h : (chanAt s i).gate = true) (cause energy : Nat) (cur : Int)
    (bp : Nat) : analogTrip i cause energy cur bp s =
      if bp = 0 then cutOff i cause energy cur s else detect bp false (cutOff i cause energy cur s) := by
  unfold analogTrip
  rw [h]
  rfl

theorem cutOff_frame (i cause energy : Nat) (cur : Int) (s : State) :
    blank (only [.pow, .mot]) (cutOff i cause energy cur s) = blank (only [.pow, .mot]) s := by
  rw [cutOff, reversalOff_frame _ rfl rfl, partnerOff_frame _ rfl, latchTrip, modChan_frame _ rfl,
    gateOff_frame _ rfl]

/-- The channel's own switching off makes of it what its trip does: turning the partner off changes it no more, and a
sequence cut short takes its demand. -/
theorem chanAt_cutOff (i cause energy : Nat) (cur : Int) {s : State} (h : (chanAt s i).gate = true) :
    chanAt (cutOff i cause energy cur s) i = tripped i cause energy cur s := by
  have hl := chanAt_latchTrip h cause energy cur
  have hp : chanAt (partnerOff i (latchTrip i cause energy cur s)) i = chanAt (latchTrip i cause energy cur s) i :=
    chanAt_partnerOff (by rw [hl]) (by rw [hl]) (by rw [hl])
  have hm : (partnerOff i (latchTrip i cause energy cur s)).mot = s.mot := mot_partnerOff i _
  rw [cutOff, chanAt_reversalOff, sequenced_of_mot hm, hp, hl]
  rfl

theorem chanAt_analogTrip_of_on {i : Nat} {s : State} (h : (chanAt s i).gate = true) (cause energy : Nat) (cur : Int)
    (bp : Nat) : chanAt (analogTrip i cause energy cur bp s) i = tripped i cause energy cur s := by
  rw [analogTrip_of_on h, apply_ite (fun t => chanAt t i), chanAt_detect, ite_self, chanAt_cutOff i cause energy cur h]

/-- What an analogue protection makes of its channel: tripped if it conducted, as it was if it did not. -/
theorem chanAt_analogTrip (i cause energy : Nat) (cur : Int) (bp : Nat) (s : State) :
    chanAt (analogTrip i cause energy cur bp s) i =
      if (chanAt s i).gate then tripped i cause energy cur s else chanAt s i := by
  split
  case isTrue h => exact chanAt_analogTrip_of_on h cause energy cur bp
  case isFalse h => rw [analogTrip_of_off (by simpa using h)]

theorem detected_analogTrip {i : Nat} {s : State} (h : (chanAt s i).gate = true) (cause energy : Nat) (cur : Int)
    {bp : Nat} (hbp : bp ≠ 0) : detected bp false s (analogTrip i cause energy cur bp s) := by
  rw [analogTrip_of_on h, if_neg hbp]
  exact detected_after (cutOff_frame i cause energy cur s) rfl rfl rfl bp false

/-- A trip of cause CHARGE_FAIL is one of a channel in CHARGING (R105). -/
theorem chargeFail_effect (i e : Nat) (s : State) :
    ((chanAt s i).state ≠ .charging → chargeFail i e s = s) ∧ ((chanAt s i).state = .charging →
      chanAt (chargeFail i e s) i = if (chanAt s i).gate then tripped i 5 e (chCur s i) s else chanAt s i) := by
  unfold chargeFail
  refine ⟨fun h => if_neg h, fun h => ?_⟩
  rw [if_pos h]
  exact chanAt_analogTrip i 5 e (chCur s i) 0 s

theorem reverseTrip_effect (i e : Nat) (cur : Int) (s : State) (h : i < 32) :
    ∃ t, exec (.reverseTrip i e cur) s = .next t ∧ (if (chanAt s i).gate then
      chanAt t i = { tripped i 6 e cur s with reverse := true } ∧ detected 0x004 false s t else t = s) := by
  refine ⟨_, guardUnit_of_ok (decide_eq_true h) _, ?_⟩
  split
  case isTrue hg =>
    refine ⟨?_, detected_of_saf (detected_analogTrip hg 6 e cur (by decide)) (emit_saf _ _ _ _ _ _ _ _)⟩
    rw [chanAt_emit, chanAt_modChan_same, chanAt_analogTrip_of_on hg]
  case isFalse => rfl

/-- Settles O8: the commands are the trip of their channel, under the condition and with the cause of each. That
CHARGE_FAIL latches the energy is log entry 106, that a cut sequence leaves the demand off R190 with log entry 142. -/
theorem analogueTripsTurnOffAtOnce : Obligations.AnalogueTripsTurnOffAtOnce := by
  unfold Obligations.AnalogueTripsTurnOffAtOnce
  refine ⟨fun i e cur s h => ?_, fun i e cur s h => ?_, fun i e s h => ?_, fun i e s h => ?_, reverseTrip_effect⟩
  · exact ⟨_, guardUnit_of_ok (decide_eq_true h) _, chanAt_analogTrip i 1 e cur 0x001 s,
      fun hg => detected_analogTrip hg 1 e cur (by decide)⟩
  · refine ⟨_, guardUnit_of_ok (decide_eq_true h) _, fun hi => if_pos hi, fun hi => ?_⟩
    rw [if_neg hi]
    exact ⟨chanAt_analogTrip i 2 e cur 0x002 s, fun hg => detected_analogTrip hg 2 e cur (by decide)⟩
  · exact ⟨_, guardUnit_of_ok (decide_eq_true h) _, chargeFail_effect i e s⟩
  · exact ⟨_, guardUnit_of_ok (decide_eq_true h) _, chargeFail_effect i e s⟩

/-! The cliff latch (O11). -/

/-- A channel with all that its own trip, its partner's or a cut sequence may change set aside. -/
def offTrip (c : Chan) : Chan :=
  { c with gate := false, hb := 0, limiting := false, offAt := 0, demand := 0, trip := none }

theorem offTrip_fields {c d : Chan} (h : offTrip c = offTrip d) : c.cliff = d.cliff ∧ c.patience = d.patience ∧
    c.patienceUp = d.patienceUp ∧ c.state = d.state ∧ c.cfg = d.cfg :=
  ⟨(congrArg Chan.cliff h :), (congrArg Chan.patience h :), (congrArg Chan.patienceUp h :), (congrArg Chan.state h :),
    (congrArg Chan.cfg h :)⟩

theorem offTrip_modChan {f : Chan → Chan} (hf : ∀ c, offTrip (f c) = offTrip c) (i j : Nat) (s : State) :
    offTrip (chanAt (modChan i f s) j) = offTrip (chanAt s j) := by
  rw [chanAt_modChan]
  split
  · exact hf _
  · rfl

theorem offTrip_gateOff (i j : Nat) (s : State) : offTrip (chanAt (gateOff i s) j) = offTrip (chanAt s j) := by
  refine offTrip_modChan ?_ i j s
  exact fun _ => rfl

theorem offTrip_partnerOff (i j : Nat) (s : State) : offTrip (chanAt (partnerOff i s) j) = offTrip (chanAt s j) := by
  unfold partnerOff
  split
  · exact offTrip_gateOff _ j s
  · rfl

theorem offTrip_cutSequence (b j : Nat) (s : State) : offTrip (chanAt (cutSequence b s) j) = offTrip (chanAt s j) := by
  rw [chanAt_cutSequence]
  split <;> rfl

theorem offTrip_reversalOff (i j : Nat) (s : State) : offTrip (chanAt (reversalOff i s) j) = offTrip (chanAt s j) := by
  cases hb : bridgeOf s i with
  | none => rw [reversalOff_none hb]
  | some p =>
    rw [reversalOff_some hb]
    split
    · exact offTrip_cutSequence p.1 j s
    · rfl

/-- Every channel keeps what a trip has no business with. -/
theorem offTrip_analogTrip (i cause energy : Nat) (cur : Int) (bp j : Nat) (s : State) :
    offTrip (chanAt (analogTrip i cause energy cur bp s) j) = offTrip (chanAt s j) := by
  cases h : (chanAt s i).gate with
  | false => rw [analogTrip_of_off h]
  | true =>
    rw [analogTrip_of_on h, apply_ite (fun t => chanAt t j), chanAt_detect, ite_self, cutOff, offTrip_reversalOff,
      offTrip_partnerOff, latchTrip]
    refine (offTrip_modChan ?_ i j _).trans (offTrip_gateOff i j s)
    exact fun _ => rfl

/-- The channel with its cliff latch just set. -/
def latchCliff (i : Nat) (s : State) : State :=
  modChan i (fun c => { c with cliff := true, patience := true, patienceUp := false }) s

theorem cliffLatchSet_effect (i e : Nat) (cur : Int) (s : State) :
    let t := detect 0x003 true (analogTrip i 3 e cur 0 (latchCliff i s))
    (chanAt t i).cliff = true ∧ (chanAt t i).patience = true ∧ (chanAt t i).patienceUp = false ∧
      (chanAt t i).gate = false ∧
      ((chanAt s i).gate = true → (chanAt t i).trip =
        some { cause := 3, energy := e, current := cur, breach := decide (s.saf.mute ≠ []) }) ∧
      detected 0x003 true s t ∧
      (∀ j, j ≠ i → (chanAt t j).cliff = (chanAt s j).cliff ∧ (chanAt t j).state = (chanAt s j).state ∧
        (chanAt t j).cfg = (chanAt s j).cfg) := by
  have hl : chanAt (latchCliff i s) i = { chanAt s i with cliff := true, patience := true, patienceUp := false } :=
    chanAt_modChan_same i _ s
  obtain ⟨hcliff, hpat, hup, -, -⟩ := offTrip_fields (offTrip_analogTrip i 3 e cur 0 i (latchCliff i s))
  have htrip := chanAt_analogTrip i 3 e cur 0 (latchCliff i s)
  rw [hl] at hcliff hpat hup htrip
  dsimp only
  simp only [chanAt_detect]
  refine ⟨hcliff, hpat, hup, ?_, fun hg => ?_, ?_, fun j hj => ?_⟩
  · rw [htrip]
    cases hg : (chanAt s i).gate
    · exact hg
    · rfl
  · rw [htrip, if_pos hg]
    rfl
  · refine detected_after (L := only [.pow, .mot]) ?_ rfl rfl rfl _ _
    cases hg : (chanAt (latchCliff i s) i).gate with
    | false => rw [analogTrip_of_off hg, latchCliff, modChan_frame _ rfl]
    | true => rw [analogTrip_of_on hg, if_pos rfl, cutOff_frame, latchCliff, modChan_frame _ rfl]
  · have hj' : chanAt (latchCliff i s) j = chanAt s j := others_modChan i _ s j hj
    obtain ⟨hc, -, -, hs, hf⟩ := offTrip_fields (offTrip_analogTrip i 3 e cur 0 j (latchCliff i s))
    rw [hj'] at hc hs hf
    exact ⟨hc, hs, hf⟩

/-- Settles O11: the latch and its patience, and the trip of cause 3 that leaves every other channel's latch, state and
settings alone. -/
theorem cliffLatch : Obligations.CliffLatch := by
  unfold Obligations.CliffLatch
  refine ⟨fun i e cur s h => ⟨_, guardUnit_of_ok (decide_eq_true h) _, fun hk => ?_, fun hk => ?_⟩,
    fun i s h => ⟨_, guardUnit_of_ok (decide_eq_true h) _, ?_⟩⟩
  · rw [hk]
    rfl
  · rw [hk, if_neg (by decide)]
    exact cliffLatchSet_effect i e cur s
  · dsimp only
    split
    · exact ⟨chanAt_modChan_same i _ s, others_modChan i _ s⟩
    · refine ⟨?_, fun j hj => ?_⟩
      · rw [chanAt_detectEnd, chanAt_modChan_same]
      · rw [chanAt_detectEnd]
        exact others_modChan i _ s j hj

end Sys2Proof.Machine
end

section
/-! The bands of the supply groups (O9). -/
open Sys2Proof
namespace Sys2Proof.Machine

/-! An operation on the channels of a group, one after the other. -/

/-- The state with the channels set aside. -/
def offChans (s : State) : State := { s with pow := { s.pow with chans := [] } }

theorem offChans_modChan (i : Nat) (f : Chan → Chan) (s : State) : offChans (modChan i f s) = offChans s := by
  unfold offChans
  rfl

theorem mem_groupChans {g i : Nat} : i ∈ groupChans g ↔ i < 76 ∧ chGroup i = g := by
  simp [groupChans]

theorem nodup_groupChans (g : Nat) : (groupChans g).Nodup := List.nodup_range.filter _

theorem grpAt_of_offChans {s t : State} (h : offChans t = offChans s) (g : Nat) : grpAt t g = grpAt s g :=
  (congrArg (fun u : State => tget grp0 u.pow.grps g) h :)

theorem govern_withPow {s : State} {i : Nat} {p : Pow} (h : chanAt { s with pow := p } i = chanAt s i) :
    govern { s with pow := p } i = govern s i := by
  have hp : govPound { s with pow := p } i = govPound s i := by
    unfold govPound
    rw [h]
  unfold govern
  rw [hp]
  rfl

/-- Of the channels, who governs an output depends on that output's own alone. -/
theorem govern_of_offChans {s t : State} {i : Nat} (h : offChans t = offChans s) (hd : chanAt t i = chanAt s i) :
    govern t i = govern s i := by
  have ht : t = { s with pow := t.pow } := (congrArg (fun u : State => { u with pow := t.pow }) h :)
  rw [ht] at hd ⊢
  exact govern_withPow hd

theorem chanAt_setBand (g : Nat) (b : Band) (v : Nat) (s : State) (i : Nat) :
    chanAt (setBand g b v s) i = chanAt s i := rfl

theorem grpAt_setBand (g : Nat) (b : Band) (v : Nat) (s : State) : grpAt (setBand g b v s) g = { band := b, v := v } :=
  grpAt_modGrp_same g _ s

theorem govern_setBand (g : Nat) (b : Band) (v : Nat) (s : State) (i : Nat) : govern (setBand g b v s) i = govern s i :=
  govern_withPow (chanAt_setBand g b v s i)

/-- A group that takes a band, each of its channels then changed by `step`, which sees of the state what the change of
band left. -/
theorem bandStep_effect {step : State → Nat → State} (hd : ∀ s i j, j ≠ i → chanAt (step s i) j = chanAt s j)
    (hk : ∀ s i, offChans (step s i) = offChans s) (g : Nat) (b : Band) (v : Nat) (s : State) :
    let u := (groupChans g).foldl step (setBand g b v s)
    grpAt u g = { band := b, v := v } ∧ (∀ i, ¬(i < 76 ∧ chGroup i = g) → chanAt u i = chanAt s i) ∧
      ∀ i, i < 76 → chGroup i = g → ∃ w, chanAt w i = chanAt s i ∧ offChans w = offChans (setBand g b v s) ∧
        chanAt u i = chanAt (step w i) i := by
  refine ⟨?_, fun i hi => ?_, fun i hi hg => ?_⟩
  · rw [grpAt_of_offChans (foldl_keep hk _ _), grpAt_setBand]
  · exact foldl_at_out hd _ i (fun hm => hi (mem_groupChans.mp hm)) (setBand g b v s)
  · exact foldl_at_keep hd hk _ (nodup_groupChans g) i (mem_groupChans.mpr ⟨hi, hg⟩) (setBand g b v s)

/-! Below V_OFF (R98, R205). -/

/-- A channel whose group falls below V_OFF. -/
def enterUv (s : State) (i : Nat) : State :=
  if (chanAt s i).state = .latchedOff then s
  else modChan i (fun c => { c with
    trip := keepTrip c, wireTrip := false, shedWait := none, delayRun := false, delayEnd := false, lvEnd := false,
    defUv := false, defOv := false, restoreUv := false }) (switchOff i .uvOff s)

theorem others_switchOff (i : Nat) (st : ChState) (s : State) : others chanAt i s (switchOff i st s) :=
  others_modChan i _ s

theorem others_enterUv (i : Nat) (s : State) : others chanAt i s (enterUv s i) := by
  intro j hj
  unfold enterUv
  split
  · rfl
  · rw [others_modChan i _ _ j hj, others_switchOff i _ s j hj]

theorem offChans_enterUv (s : State) (i : Nat) : offChans (enterUv s i) = offChans s := by
  unfold enterUv
  split
  · rfl
  · rw [offChans_modChan, switchOff, offChans_modChan]

theorem chanAt_enterUv_latched {s : State} {i : Nat} (h : (chanAt s i).state = .latchedOff) :
    chanAt (enterUv s i) i = chanAt s i := by
  rw [enterUv, if_pos h]

theorem chanAt_enterUv {s : State} {i : Nat} (h : (chanAt s i).state ≠ .latchedOff) :
    (chanAt (enterUv s i) i).state = .uvOff ∧ (chanAt (enterUv s i) i).gate = false ∧
      (chanAt (enterUv s i) i).trip = keepTrip (chanAt s i) ∧
      (chanAt (enterUv s i) i).demand = (chanAt s i).demand ∧ (chanAt (enterUv s i) i).cfg = (chanAt s i).cfg := by
  rw [enterUv, if_neg h, chanAt_modChan_same, switchOff, chanAt_modChan_same]
  exact ⟨rfl, rfl, rfl, rfl, rfl⟩

theorem foAt_foSet_ne (k j : Nat) (v : Bool) (s : State) (h : j ≠ k) : foAt (foSet k v s) j = foAt s j := by
  unfold foSet
  split
  · rfl
  · exact foAt_modFo_ne k j _ s h.symm

theorem foAt_foSet_out (k : Nat) (v : Bool) (s : State) : (foAt (foSet k v s) k).out = v := by
  unfold foSet
  split
  case isTrue h => exact h
  case isFalse => rw [foAt_modFo_same]

theorem foAt_clsHoldOn (k : Nat) (s : State) : foAt (clsHoldOn s) k = foAt s k := by
  unfold clsHoldOn
  refine (foldl_keep (keep := fun s => foAt s k) ?_ _ _).trans rfl
  exact fun _ _ => rfl

/-- The field outputs that VBAT_B feeds go off with it (R205). -/
def fieldOff (g : Nat) (s : State) : State :=
  if g = 1 then clsHoldOn ((List.range 16).foldl (fun s k => foSet k false s) s) else s

theorem foAt_fieldOff {k : Nat} (h : k < 16) (s : State) : (foAt (fieldOff 1 s) k).out = false := by
  obtain ⟨u, -, hu⟩ := foldl_at (get := foAt) (h := fun s k => foSet k false s)
    (fun s i j hj => foAt_foSet_ne i j false s hj) _ List.nodup_range k (List.mem_range.mpr h) s
  rw [fieldOff, if_pos rfl, foAt_clsHoldOn, hu, foAt_foSet_out]

theorem fieldOff_frame (L : Region → Bool) (hFio : L .fio = true) (g : Nat) (s : State) :
    blank L (fieldOff g s) = blank L s := by
  unfold fieldOff
  split
  · rw [clsHoldOn_frame L hFio, foldl_frame]
    exact fun s k => foSet_frame L hFio k false s
  · rfl

theorem fieldOff_pow (g : Nat) (s : State) : (fieldOff g s).pow = s.pow :=
  same_of_blank (fieldOff_frame (only [.fio]) rfl g s) .pow rfl

theorem enterUv_frame (L : Region → Bool) (hPow : L .pow = true) (s : State) (i : Nat) :
    blank L (enterUv s i) = blank L s := by
  unfold enterUv
  split
  · rfl
  · rw [modChan_frame L hPow, switchOff_frame L hPow]

theorem groupFallVOff_effect (g v : Nat) (s : State) (h : g < 2) : ∃ t, exec (.groupFallVOff g v) s = .next t ∧
    grpAt t g = { band := .belowOff, v := v } ∧ (∀ i, ¬(i < 76 ∧ chGroup i = g) → chanAt t i = chanAt s i) ∧
    (∀ i, i < 76 → chGroup i = g → if (chanAt s i).state = .latchedOff then chanAt t i = chanAt s i
      else (chanAt t i).state = .uvOff ∧ (chanAt t i).gate = false ∧ (chanAt t i).trip = keepTrip (chanAt s i) ∧
        (chanAt t i).demand = (chanAt s i).demand ∧ (chanAt t i).cfg = (chanAt s i).cfg) ∧
    (g = 1 → ∀ k, k < 16 → (foAt t k).out = false) ∧ detected 0x007 true s t := by
  let u := (groupChans g).foldl enterUv (setBand g .belowOff v s)
  obtain ⟨hband, hout, hin⟩ :=
    bandStep_effect (fun s i j hj => others_enterUv i s j hj) offChans_enterUv g .belowOff v s
  have he : exec (.groupFallVOff g v) s = .next (detect 0x007 true (emit 0x1008 (0x100 + g) (fieldOff g u) 1 1 v)) :=
    guardUnit_of_ok (decide_eq_true h) _
  have hp : (detect 0x007 true (emit 0x1008 (0x100 + g) (fieldOff g u) 1 1 v)).pow = u.pow := by
    rw [detect_pow, emit_pow, fieldOff_pow]
  refine ⟨_, he, (grpAt_of_pow hp g).trans hband, fun i hi => (chanAt_of_pow hp i).trans (hout i hi),
    fun i hi hg => ?_, ?_, ?_⟩
  · obtain ⟨w, hw, -, hu⟩ := hin i hi hg
    rw [chanAt_of_pow hp, hu, ← hw]
    split
    case isTrue hl => exact chanAt_enterUv_latched hl
    case isFalse hl => exact chanAt_enterUv hl
  · rintro rfl k hk
    unfold foAt
    rw [detect_fio, emit_fio]
    exact foAt_fieldOff hk u
  · refine detected_after (L := only [.wire, .pow, .fio]) ?_ rfl rfl rfl _ _
    rw [emit_frame _ rfl, fieldOff_frame _ rfl]
    exact (foldl_frame _ _ (fun s i => enterUv_frame _ rfl s i) _ _).trans (setBand_frame _ rfl g _ v s)

/-! Rising through V_OFF (R98, R114). -/

/-- A channel whose group rises through V_OFF. -/
def leaveUv (s : State) (i : Nat) : State :=
  if (chanAt s i).state ≠ .uvOff then s
  else if (govern s i).on = 0 then switchOff i .off s else deferMark i s

theorem others_leaveUv (i : Nat) (s : State) : others chanAt i s (leaveUv s i) := by
  intro j hj
  unfold leaveUv
  split
  · rfl
  · split
    · exact others_switchOff i _ s j hj
    · exact others_modChan i _ s j hj

theorem offChans_leaveUv (s : State) (i : Nat) : offChans (leaveUv s i) = offChans s := by
  unfold leaveUv
  split
  · rfl
  · split
    · exact offChans_modChan i _ s
    · exact offChans_modChan i _ s

theorem chanAt_leaveUv_stays {s : State} {i : Nat} (h : (chanAt s i).state ≠ .uvOff) :
    chanAt (leaveUv s i) i = chanAt s i := by
  rw [leaveUv, if_pos h]

theorem chanAt_leaveUv_off {s : State} {i : Nat} (h : (chanAt s i).state = .uvOff) (hg : (govern s i).on = 0) :
    (chanAt (leaveUv s i) i).state = .off ∧ (chanAt (leaveUv s i) i).gate = false ∧
      (chanAt (leaveUv s i) i).demand = (chanAt s i).demand := by
  rw [leaveUv, if_neg (by simp [h]), if_pos hg, switchOff, chanAt_modChan_same]
  exact ⟨rfl, rfl, rfl⟩

theorem chanAt_leaveUv_deferred {s : State} {i : Nat} (h : (chanAt s i).state = .uvOff) (hg : (govern s i).on ≠ 0)
    (hb : (grpAt s (chGroup i)).band = .hold) :
    chanAt (leaveUv s i) i = { chanAt s i with defUv := true, defOv := false } := by
  rw [leaveUv, if_neg (by simp [h]), if_neg hg, deferMark, chanAt_modChan_same, hb]
  rfl

theorem groupRiseVOff_effect (g v : Nat) (s : State) (h : g < 2) : ∃ t, exec (.groupRiseVOff g v) s = .next t ∧
    grpAt t g = { band := .hold, v := v } ∧ (∀ i, ¬(i < 76 ∧ chGroup i = g) → chanAt t i = chanAt s i) ∧
    (∀ i, i < 76 → chGroup i = g → if (chanAt s i).state = .uvOff then
        (if (govern s i).on = 0 then
          (chanAt t i).state = .off ∧ (chanAt t i).gate = false ∧ (chanAt t i).demand = (chanAt s i).demand
         else chanAt t i = { chanAt s i with defUv := true, defOv := false })
      else chanAt t i = chanAt s i) := by
  let u := (groupChans g).foldl leaveUv (setBand g .hold v s)
  obtain ⟨hband, hout, hin⟩ :=
    bandStep_effect (fun s i j hj => others_leaveUv i s j hj) offChans_leaveUv g .hold v s
  have he : exec (.groupRiseVOff g v) s = .next (emit 0x1008 (0x100 + g) u 1 0 v) :=
    guardUnit_of_ok (decide_eq_true h) _
  have hp : (emit 0x1008 (0x100 + g) u 1 0 v).pow = u.pow := emit_pow _ _ _ _ _ _ _ _
  refine ⟨_, he, (grpAt_of_pow hp g).trans hband, fun i hi => (chanAt_of_pow hp i).trans (hout i hi),
    fun i hi hg => ?_⟩
  obtain ⟨w, hw, hk, hu⟩ := hin i hi hg
  have hgov : govern w i = govern s i := (govern_of_offChans hk hw).trans (govern_setBand g _ v s i)
  rw [chanAt_of_pow hp, hu, ← hw, ← hgov]
  split
  case isTrue hs =>
    split
    case isTrue ho => exact chanAt_leaveUv_off hs ho
    case isFalse ho =>
      refine chanAt_leaveUv_deferred hs ho ?_
      rw [hg, grpAt_of_offChans hk, grpAt_setBand]
  case isFalse hs => exact chanAt_leaveUv_stays hs

/-! The crossings that change no channel, and those that mark the channels they restore (R98, R99). -/

theorem groupWarn_effect (bp code g v : Nat) (b : Band) (cause flags : Nat) (s : State) :
    let t := detect bp true (emit code (0x100 + g) (setBand g b v s) cause flags v)
    grpAt t g = { band := b, v := v } ∧ (∀ i, chanAt t i = chanAt s i) ∧ detected bp true s t := by
  have hp : (detect bp true (emit code (0x100 + g) (setBand g b v s) cause flags v)).pow = (setBand g b v s).pow := by
    rw [detect_pow, emit_pow]
  refine ⟨(grpAt_of_pow hp g).trans (grpAt_setBand g b v s), fun i => chanAt_of_pow hp i, ?_⟩
  refine detected_after (L := only [.wire, .pow]) ?_ rfl rfl rfl _ _
  rw [emit_frame _ rfl, setBand_frame _ rfl]

/-- A channel that `C` names is marked for its restore. -/
def markRestore (C : Chan → Prop) [DecidablePred C] (s : State) (i : Nat) : State :=
  if C (chanAt s i) then modChan i (fun c => { c with restoreUv := true }) s else s

theorem others_markRestore (C : Chan → Prop) [DecidablePred C] (i : Nat) (s : State) :
    others chanAt i s (markRestore C s i) := (modChan_if_effect _ i _ s).1

theorem offChans_markRestore (C : Chan → Prop) [DecidablePred C] (s : State) (i : Nat) :
    offChans (markRestore C s i) = offChans s := by
  unfold markRestore
  split
  · exact offChans_modChan i _ s
  · rfl

theorem chanAt_markRestore (C : Chan → Prop) [DecidablePred C] (s : State) (i : Nat) : chanAt (markRestore C s i) i =
    if C (chanAt s i) then { chanAt s i with restoreUv := true } else chanAt s i :=
  (modChan_if_effect _ i _ s).2

theorem groupEnd_pow (bp : Nat) (s : State) : (groupEnd bp s).pow = s.pow :=
  same_of_blank (groupEnd_frame (only [.wire, .detect]) rfl rfl bp s) .pow rfl

theorem groupFull_effect (C : Chan → Prop) [DecidablePred C] (bp code g v : Nat) (s : State) :
    let t := groupEnd bp (emit code (0x100 + g) ((groupChans g).foldl (markRestore C) (setBand g .full v s)) 0 0 v)
    grpAt t g = { band := .full, v := v } ∧ (∀ i, ¬(i < 76 ∧ chGroup i = g) → chanAt t i = chanAt s i) ∧
      (∀ i, i < 76 → chGroup i = g → chanAt t i =
        if C (chanAt s i) then { chanAt s i with restoreUv := true } else chanAt s i) := by
  let u := (groupChans g).foldl (markRestore C) (setBand g .full v s)
  obtain ⟨hband, hout, hin⟩ :=
    bandStep_effect (fun s i j hj => others_markRestore C i s j hj) (offChans_markRestore C) g .full v s
  have hp : (groupEnd bp (emit code (0x100 + g) u 0 0 v)).pow = u.pow := by rw [groupEnd_pow, emit_pow]
  refine ⟨(grpAt_of_pow hp g).trans hband, fun i hi => (chanAt_of_pow hp i).trans (hout i hi), fun i hi hg => ?_⟩
  obtain ⟨w, hw, -, hu⟩ := hin i hi hg
  exact (chanAt_of_pow hp i).trans (hu.trans (by rw [chanAt_markRestore, hw]))

/-- Settles O9: the band, then the group's channels one by one, each seeing only itself and what governs it. -/
theorem groupVoltageBands : Obligations.GroupVoltageBands := by
  unfold Obligations.GroupVoltageBands
  refine ⟨groupFallVOff_effect, groupRiseVOff_effect, fun g v s h => ?_, fun g v s h => ?_, fun g v s h => ?_,
    fun g v s h => ?_⟩
  · exact ⟨_, guardUnit_of_ok (decide_eq_true h) _, groupWarn_effect 0x007 0x1008 g v .hold 0 1 s⟩
  · exact ⟨_, guardUnit_of_ok (decide_eq_true h) _,
      groupFull_effect (fun c => c.state = .uvOff ∨ c.defUv = true) 0x007 0x1008 g v s⟩
  · exact ⟨_, guardUnit_of_ok (decide_eq_true h) _, groupWarn_effect 0x008 0x1009 g v .above 0 1 s⟩
  · exact ⟨_, guardUnit_of_ok (decide_eq_true h) _, groupFull_effect (fun c => c.defOv = true) 0x008 0x1009 g v s⟩

end Sys2Proof.Machine
end

section
/-! The segments of a channel and the diagnosis of its load (O10). -/
open Sys2Proof
namespace Sys2Proof.Machine

theorem bitOf_eq_testBit (k n : Nat) : bitOf k n = n.testBit k := by
  rw [Nat.testBit_eq_decide_div_mod_eq, ← Nat.shiftRight_eq_div_pow]
  rfl

theorem bitOf_or_two_pow (k n : Nat) : bitOf k (n ||| 2 ^ k) = true := by
  rw [bitOf_eq_testBit, Nat.testBit_or, Nat.testBit_two_pow_self, Bool.or_true]

/-! What a failed segment makes of its channel and of its wear record (R101, R102). -/

/-- What the diagnosis has found out about a channel's switch (R103). -/
def testFindings (c : Chan) : Bool × Bool × Bool := (c.stuckTest, c.stuckOn, c.shortBat)

theorem testFindings_eq {c : Chan} {test on bat : Bool} :
    testFindings c = (test, on, bat) ↔ c.stuckTest = test ∧ c.stuckOn = on ∧ c.shortBat = bat := by
  simp [testFindings]

/-- The entry to LATCHED_OFF turns the channel and its demand off; it keeps the segments and what a diagnosis found. -/
theorem latchOff_effect (i : Nat) (s : State) : let c := chanAt (latchOff i s) i
    c.state = .latchedOff ∧ c.gate = false ∧ c.demand = 0 ∧ c.active = (chanAt s i).active ∧
      c.derated = (chanAt s i).derated ∧ c.barred = (chanAt s i).barred ∧
      testFindings c = testFindings (chanAt s i) := by
  rw [latchOff, chanAt_emit, chanAt_modChan_same, switchOff, chanAt_modChan_same]
  exact ⟨rfl, rfl, rfl, rfl, rfl, rfl, rfl⟩

/-- One active segment fewer, with its report and its entry in the wear log. -/
def dropSegment (i : Nat) (s : State) : State :=
  let s := modChan i (fun c => { c with active := c.active - 1, derated := true }) s
  wearLog 1 i 2 (emit 0x100B i s (cause := 3) (flags := (chanAt s i).active) (value := chCur s i))

theorem chanAt_dropSegment (i : Nat) (s : State) : chanAt (dropSegment i s) i =
    { chanAt s i with active := (chanAt s i).active - 1, derated := true } := by
  rw [dropSegment, chanAt_of_pow (wearLog_pow _ _ _ _), chanAt_emit, chanAt_modChan_same]

theorem loseSegment_of_enough {i : Nat} {s : State} (h : ¬(chanAt s i).active - 1 < chFewest i) :
    loseSegment i s = dropSegment i s := by
  refine if_neg (?_ : ¬(chanAt (dropSegment i s) i).active < chFewest i)
  rwa [chanAt_dropSegment]

theorem chanAt_loseSegment_of_fewer {i : Nat} {s : State} (h : (chanAt s i).active - 1 < chFewest i) :
    chanAt (loseSegment i s) i =
      chanAt (latchOff i (modChan i (fun c => { c with barred := true }) (dropSegment i s))) i := by
  have hc : (chanAt (dropSegment i s) i).active < chFewest i := by rwa [chanAt_dropSegment]
  refine (congrArg (fun t => chanAt t i) (if_pos hc)).trans ?_
  exact chanAt_emit _ _ _ _ _ _ _ _ i

theorem loseSegment_effect (i : Nat) (s : State) : let c := chanAt (loseSegment i s) i
    c.active = (chanAt s i).active - 1 ∧ c.derated = true ∧
      c.state = (if (chanAt s i).active - 1 < chFewest i then .latchedOff else (chanAt s i).state) ∧
      ((chanAt s i).active - 1 < chFewest i → c.barred = true ∧ c.gate = false ∧ c.demand = 0) ∧
      testFindings c = testFindings (chanAt s i) := by
  by_cases h : (chanAt s i).active - 1 < chFewest i
  · obtain ⟨hs, hg, hd, ha, hr, hb, hf⟩ :=
      latchOff_effect i (modChan i (fun c => { c with barred := true }) (dropSegment i s))
    rw [← chanAt_loseSegment_of_fewer h] at hs hg hd ha hr hb hf
    rw [chanAt_modChan_same, chanAt_dropSegment] at ha hr hb hf
    exact ⟨ha, hr, hs.trans (if_pos h).symm, fun _ => ⟨hb, hg, hd⟩, hf⟩
  · rw [loseSegment_of_enough h, chanAt_dropSegment, if_neg h]
    exact ⟨rfl, rfl, rfl, fun h' => absurd h' h, rfl⟩

/-- A spare that failed is in use no more. -/
def freeSpare (i g : Nat) (s : State) : State :=
  if g = chNominal i then modChan i (fun c => { c with spareUsed := false }) s else s

theorem chanAt_freeSpare (i g : Nat) (s : State) : chanAt (freeSpare i g s) i =
    { chanAt s i with spareUsed := !decide (g = chNominal i) && (chanAt s i).spareUsed } := by
  unfold freeSpare
  split
  case isTrue h => rw [chanAt_modChan_same, decide_eq_true h]; rfl
  case isFalse h => rw [decide_eq_false h]; rfl

/-- The segment marked in the wear record. -/
def markFailed (i g : Nat) (s : State) : State := modSeg i (fun w => { w with failed := w.failed ||| 2 ^ g }) s

theorem failSegment_eq (i g : Nat) (s : State) : failSegment i g s =
    if ((chanAt s i).spareOk && !sparePromised s i) = true then
      modSeg i (fun w => { w with swapDue := some g }) (markFailed i g s)
    else loseSegment i (freeSpare i g (markFailed i g s)) := rfl

theorem segAt_emit (code inst : Nat) (s : State) (cause flags : Nat) (value : Int) (ext : List Nat)
    (dest : Option Nat) (i : Nat) : segAt (emit code inst s cause flags value ext dest) i = segAt s i := by
  unfold segAt
  rw [emit_saf]

theorem segAt_latchOff (i j : Nat) (s : State) : segAt (latchOff i s) j = segAt s j := by
  rw [latchOff, segAt_emit]
  rfl

theorem segAt_dropSegment (i j : Nat) (s : State) : segAt (dropSegment i s) j = segAt s j :=
  segAt_emit _ _ _ _ _ _ _ _ j

theorem segAt_loseSegment (i j : Nat) (s : State) : segAt (loseSegment i s) j = segAt s j := by
  by_cases h : (chanAt (dropSegment i s) i).active < chFewest i
  · refine (congrArg (fun t => segAt t j) (if_pos h)).trans ?_
    exact (segAt_emit _ _ _ _ _ _ _ _ j).trans ((segAt_latchOff i j _).trans (segAt_dropSegment i j s))
  · exact (congrArg (fun t => segAt t j) (if_neg h)).trans (segAt_dropSegment i j s)

theorem segAt_freeSpare (i g j : Nat) (s : State) : segAt (freeSpare i g s) j = segAt s j := by
  unfold freeSpare
  split <;> rfl

theorem failed_failSegment (i g : Nat) (s : State) : bitOf g (segAt (failSegment i g s) i).failed = true := by
  have hm : (segAt (markFailed i g s) i).failed = (segAt s i).failed ||| 2 ^ g := by rw [markFailed, segAt_modSeg_same]
  rw [failSegment_eq]
  split
  · rw [segAt_modSeg_same, hm, bitOf_or_two_pow]
  · rw [segAt_loseSegment, segAt_freeSpare, hm, bitOf_or_two_pow]

theorem testFindings_failSegment (i g : Nat) (s : State) :
    testFindings (chanAt (failSegment i g s) i) = testFindings (chanAt s i) := by
  rw [failSegment_eq]
  split
  · rfl
  · obtain ⟨-, -, -, -, hf⟩ := loseSegment_effect i (freeSpare i g (markFailed i g s))
    rw [hf, chanAt_freeSpare]
    rfl

theorem segAt_detect (bp : Nat) (live : Bool) (s : State) (i : Nat) : segAt (detect bp live s) i = segAt s i := by
  unfold segAt
  rw [detect_saf_pond]

theorem segmentFailure_effect (i g : Nat) (s : State) (h : i < 32 ∧ g ≤ chNominal i) :
    ∃ t, exec (.segmentFailure i g) s = .next t ∧ (s.pwr.keeper = false → t = s) ∧ (s.pwr.keeper = true →
      (if ((chanAt s i).spareOk && !sparePromised s i) = true then
        chanAt t i = chanAt s i ∧ (segAt t i).swapDue = some g
      else (chanAt t i).active = (chanAt s i).active - 1 ∧ (chanAt t i).derated = true ∧
        (chanAt t i).state = (if (chanAt s i).active - 1 < chFewest i then .latchedOff else (chanAt s i).state) ∧
        ((chanAt s i).active - 1 < chFewest i →
          (chanAt t i).barred = true ∧ (chanAt t i).gate = false ∧ (chanAt t i).demand = 0)) ∧
      bitOf g (segAt t i).failed = true ∧ detected 0x006 false s t) := by
  refine ⟨_, guardUnit_of_ok (decide_eq_true h) _, fun hk => by rw [hk]; rfl, fun hk => ?_⟩
  rw [hk, if_neg (show ¬(!true) = true by decide), chanAt_detect, segAt_detect]
  refine ⟨?_, failed_failSegment i g s,
    detected_after (failSegment_frame (only [.wire, .pond, .pow]) rfl rfl rfl i g s) rfl rfl rfl _ _⟩
  rw [failSegment_eq]
  split
  case isTrue => rw [segAt_modSeg_same]; exact ⟨rfl, rfl⟩
  case isFalse =>
    obtain ⟨ha, hd, hs, hb, -⟩ := loseSegment_effect i (freeSpare i g (markFailed i g s))
    rw [chanAt_freeSpare] at ha hs hb
    exact ⟨ha, hd, hs, hb⟩

/-! The stuck test and the off-state diagnosis (R103, R109). -/

/-- The stuck test judged by the voltage `v` at the terminal, before its detection. -/
def judgeStuck (i v g : Nat) (s : State) : State :=
  let s := modChan i (fun c => { c with stuckTest := false }) s
  if 10 * v < (grpAt s (chGroup i)).v then
    failSegment i g
      (emit 0x100C i (modChan i (fun c => { c with stuckOn := true }) s) (cause := g) (value := chCur s i))
  else emit 0x1005 i (modChan i (fun c => { c with shortBat := true }) s) (value := chCur s i)

theorem testFindings_judgeStuck_low {i v : Nat} {s : State} (h : 10 * v < (grpAt s (chGroup i)).v) (g : Nat) :
    testFindings (chanAt (judgeStuck i v g s) i) = (false, true, (chanAt s i).shortBat) := by
  refine (congrArg (fun t => testFindings (chanAt t i)) (if_pos h)).trans ?_
  rw [testFindings_failSegment, chanAt_emit, chanAt_modChan_same, chanAt_modChan_same]
  rfl

theorem testFindings_judgeStuck_high {i v : Nat} {s : State} (h : ¬ 10 * v < (grpAt s (chGroup i)).v) (g : Nat) :
    testFindings (chanAt (judgeStuck i v g s) i) = (false, (chanAt s i).stuckOn, true) := by
  refine (congrArg (fun t => testFindings (chanAt t i)) (if_neg h)).trans ?_
  rw [chanAt_emit, chanAt_modChan_same, chanAt_modChan_same]
  rfl

theorem exec_stuckTestEnd {i g : Nat} (v : Nat) (s : State) (h : i < 32 ∧ g ≤ chNominal i) :
    exec (.stuckTestEnd i v g) s =
      .next (if !(chanAt s i).stuckTest then s else detect 0x005 false (judgeStuck i v g s)) :=
  guardUnit_of_ok (decide_eq_true h) _

theorem stuckTestEnd_effect (i v g : Nat) (s : State) (h : i < 32 ∧ g ≤ chNominal i) :
    ∃ t, exec (.stuckTestEnd i v g) s = .next t ∧ (if (chanAt s i).stuckTest then
      (chanAt t i).stuckTest = false ∧ (10 * v < (grpAt s (chGroup i)).v →
        (chanAt t i).stuckOn = true ∧ (chanAt t i).shortBat = (chanAt s i).shortBat) ∧
      (¬ 10 * v < (grpAt s (chGroup i)).v →
        (chanAt t i).shortBat = true ∧ (chanAt t i).stuckOn = (chanAt s i).stuckOn)
    else t = s) := by
  refine ⟨_, exec_stuckTestEnd v s h, ?_⟩
  cases (chanAt s i).stuckTest with
  | false => rfl
  | true =>
    rw [if_pos rfl, if_neg (show ¬(!true) = true by decide), chanAt_detect]
    by_cases hv : 10 * v < (grpAt s (chGroup i)).v
    · obtain ⟨ht, ho, hb⟩ := testFindings_eq.mp (testFindings_judgeStuck_low hv g)
      exact ⟨ht, fun _ => ⟨ho, hb⟩, fun h => absurd hv h⟩
    · obtain ⟨ht, ho, hb⟩ := testFindings_eq.mp (testFindings_judgeStuck_high hv g)
      exact ⟨ht, fun h => absurd h hv, fun _ => ⟨hb, ho⟩⟩

/-- The first half of the diagnosis: what the pulled-up terminal shows. -/
def judgeOpen (i vPull : Nat) (s : State) : State :=
  let s := modChan i (fun c => { c with diag := 0, diagReq := false }) s
  if 2000000 < vPull then
    emit 0x1004 i (modChan i (fun c => { c with olOff := true }) s) (cause := 2) (value := chCur s i)
  else s

theorem chanAt_judgeOpen (i vPull : Nat) (s : State) : chanAt (judgeOpen i vPull s) i =
    { chanAt s i with diag := 0, diagReq := false, olOff := (chanAt s i).olOff || decide (2000000 < vPull) } := by
  unfold judgeOpen
  dsimp only
  split
  case isTrue h =>
    rw [chanAt_emit, chanAt_modChan_same, chanAt_modChan_same, decide_eq_true h, Bool.or_true]
  case isFalse h =>
    rw [chanAt_modChan_same, decide_eq_false h, Bool.or_false]

theorem judgeOpen_grps (i vPull : Nat) (s : State) : (judgeOpen i vPull s).pow.grps = s.pow.grps := by
  unfold judgeOpen
  dsimp only
  split
  · rw [emit_pow]
    rfl
  · rfl

/-- A terminal that stays up opens the blocking switches of a Feeder or Main channel, and tells of a short of any
other. -/
theorem chanAt_stuckSeen (i : Nat) (s : State) : chanAt (stuckSeen i s) i =
    { chanAt s i with
      stuckTest := (chanAt s i).stuckTest || decide (i < 32)
      shortBat := (chanAt s i).shortBat || decide (32 ≤ i) } := by
  unfold stuckSeen
  split
  case isTrue h =>
    rw [chanAt_modChan_same, decide_eq_true h, decide_eq_false (Nat.not_le.mpr h), Bool.or_true, Bool.or_false]
  case isFalse h =>
    rw [chanAt_emit, chanAt_modChan_same, decide_eq_false h, decide_eq_true (Nat.not_lt.mp h), Bool.or_true,
      Bool.or_false]

theorem exec_offDiagEnd {i : Nat} (vPull vFree : Nat) (s : State) (h : i < 76) :
    exec (.offDiagEnd i vPull vFree) s = .next (if (chanAt s i).diag = 0 then s
      else if (grpAt (judgeOpen i vPull s) (chGroup i)).v < 2 * vFree then stuckSeen i (judgeOpen i vPull s)
      else judgeOpen i vPull s) :=
  guardUnit_of_ok (decide_eq_true h) _

theorem offDiagEnd_effect (i vPull vFree : Nat) (s : State) (h : i < 76) :
    ∃ t, exec (.offDiagEnd i vPull vFree) s = .next t ∧ (if (chanAt s i).diag = 0 then t = s else
      (chanAt t i).diag = 0 ∧ (chanAt t i).diagReq = false ∧
      (chanAt t i).olOff = ((chanAt s i).olOff || decide (2000000 < vPull)) ∧
      (chanAt t i).stuckTest = ((chanAt s i).stuckTest || decide (i < 32 ∧ (grpAt s (chGroup i)).v < 2 * vFree)) ∧
      (chanAt t i).shortBat =
        ((chanAt s i).shortBat || decide (32 ≤ i ∧ (grpAt s (chGroup i)).v < 2 * vFree))) := by
  have hg : grpAt (judgeOpen i vPull s) (chGroup i) = grpAt s (chGroup i) :=
    congrArg (fun l => tget grp0 l (chGroup i)) (judgeOpen_grps i vPull s)
  refine ⟨_, exec_offDiagEnd vPull vFree s h, ?_⟩
  split
  case isTrue => rfl
  case isFalse =>
    rw [hg]
    split
    case isTrue hv => simp [chanAt_stuckSeen, chanAt_judgeOpen, hv]
    case isFalse hv => simp [chanAt_judgeOpen, hv]

/-! An open load in ON, and a reverse current that turns nothing off (R107, R108). -/

theorem openLoadOn_effect (i : Nat) (s : State) (h : i < 76) : ∃ t, exec (.openLoadOn i) s = .next t ∧
    chanAt t i = (if (chanAt s i).state = .on then { chanAt s i with olOn := true } else chanAt s i) ∧
    others chanAt i s t ∧
    reports (fun u => if (chanAt s i).state = .on then emit 0x1004 i u 1 0 (chCur s i) else u) s t := by
  refine ⟨_, guardUnit_of_ok (decide_eq_true h) _, ?_⟩
  by_cases ho : (chanAt s i).state = .on
  · simp only [if_pos ho]
    refine ⟨?_, fun j hj => ?_, reports_emit (modPow_fv _ _) _ _ _ _ _ _ _⟩
    · rw [chanAt_emit, chanAt_modChan_same]
    · rw [chanAt_emit, others_modChan i _ s j hj]
  · simp only [if_neg ho]
    exact ⟨trivial, fun _ _ => rfl, reports_none rfl⟩

theorem reverseFlag_effect (i : Nat) (s : State) (h : i < 76) : ∃ t, exec (.reverseFlag i) s = .next t ∧
    (s.pwr.keeper = false → t = s) ∧ (s.pwr.keeper = true → chanAt t i = { chanAt s i with reverse := true } ∧
      others chanAt i s t ∧ reports (fun u => emit 0x1006 i u 0 0 (chCur s i)) s t) := by
  refine ⟨_, guardUnit_of_ok (decide_eq_true h) _, fun hk => by rw [hk]; rfl, fun hk => ?_⟩
  rw [hk, if_neg (show ¬(!true) = true by decide)]
  refine ⟨?_, fun j hj => ?_, reports_emit (modPow_fv _ _) _ _ _ _ _ _ _⟩
  · rw [chanAt_emit, chanAt_modChan_same]
  · rw [chanAt_emit, others_modChan i _ s j hj]

/-- Settles O10: the segment lost or replaced, the tests that end, and the flags with the one event each raises. -/
theorem segmentsAndDiagnosis : Obligations.SegmentsAndDiagnosis :=
  ⟨segmentFailure_effect, stuckTestEnd_effect, offDiagEnd_effect, openLoadOn_effect, reverseFlag_effect⟩

end Sys2Proof.Machine
end

section
/-! The immediate actions of TIME, CHAN, FOUT, BRIDGE, CAN and TOWPATH (O36). -/
open Sys2Proof
namespace Sys2Proof.Machine

/-! An immediate action that passes its checks: its effect on the state in which the request is taken, and its
answer. -/

theorem actReq_code (code : Nat) (r : Req) : leAt (actReq code r).payload 0 1 = code % 256 := by
  simp [leAt, actReq, leBytes, leNat]

theorem actReq_argument (code : Nat) (r : Req) : (actReq code r).payload.drop 4 = r.payload := rfl

/-- The action that a request names is the one of its class that carries the code. -/
theorem actOf_eq {k : ClassSpec} {code : Nat} {r : Req} {a b : ActSpec} (hc : code < 256)
    (h : k.acts.filter (fun a => decide (a.code = code)) = [b]) (ha : actOf k (actReq code r) = some a) : a = b := by
  have hm : a ∈ k.acts := List.mem_of_find?_eq_some ha
  have hp := List.find?_some ha
  rw [actReq_code, Nat.mod_eq_of_lt hc, Bool.and_eq_true, decide_eq_true_eq] at hp
  have hf : a ∈ k.acts.filter (fun a => decide (a.code = code)) := List.mem_filter.mpr ⟨hm, decide_eq_true hp.1⟩
  rw [h] at hf
  exact List.mem_singleton.mp hf

theorem cmdAct_immediate {k : ClassSpec} {code : Nat} {r : Req} {s : State} (h : ActPasses k code r s) {a : ActSpec}
    (ha : k.acts.filter (fun a => decide (a.code = code)) = [a]) (hc : code < 256) (hi : a.cyc = false)
    (hh : a.held = fun _ _ => none) : let u := a.run r.pound r.inst r.payload (taken r s)
    cmdAct k code r s = okTo k 3 (actReq code r) (a.result r.inst r.payload u) u := by
  obtain ⟨b, hb, he⟩ := cmdAct_passes h
  obtain rfl := actOf_eq hc ha hb
  rw [he, hi, hh]
  rfl

/-! What the acceptance of a request leaves alone: the units that these actions change. -/

theorem tsqAt_taken (r : Req) (s : State) (i : Nat) : tsqAt (taken r s) i = tsqAt s i := by
  rw [tsqAt, taken, accepted_tide, received_tide, tsqAt]

theorem chanAt_taken (r : Req) (s : State) (i : Nat) : chanAt (taken r s) i = chanAt s i := by
  rw [chanAt, taken, accepted_pow, received_pow, chanAt]

theorem brAt_taken (r : Req) (s : State) (i : Nat) : brAt (taken r s) i = brAt s i := by
  rw [brAt, taken, accepted_mot, received_mot, brAt]

theorem canAt_taken (r : Req) (s : State) (i : Nat) : canAt (taken r s) i = canAt s i := by
  rw [canAt, taken, accepted_can, received_can, canAt]

theorem taken_fio (r : Req) (s : State) : (taken r s).fio = s.fio := by rw [taken, accepted_fio, received_fio]

theorem bankAt_taken (r : Req) (s : State) (i : Nat) : bankAt (taken r s) i = bankAt s i := by
  rw [bankAt, taken_fio, bankAt]

theorem taken_counter (r : Req) (s : State) : (taken r s).tide.counter = s.tide.counter := by
  rw [taken, accepted_tide, received_tide]

/-! The actions one by one. -/

theorem clearTsDrop_effect (r : Req) (s : State) (h : ActPasses timeClass 1 r s) :
    ∃ t, exec (.clearTsDrop r) s = .next t ∧ ∃ u, t = okTo timeClass 3 (actReq 1 r) [] u ∧
      tsqAt u (r.inst - 0x40) = { tsqAt s (r.inst - 0x40) with drops := 0 } ∧ others tsqAt (r.inst - 0x40) s u := by
  refine ⟨_, rfl, _, cmdAct_immediate h rfl (by decide) rfl rfl, ?_, fun j hj => ?_⟩
  · rw [tsqAt_modTsq_same, tsqAt_taken]
  · rw [tsqAt_modTsq_ne _ _ _ _ hj.symm, tsqAt_taken]

theorem chanClearFlags_effect (r : Req) (s : State) (h : ActPasses chanClass 2 r s) :
    ∃ t, exec (.chanClearFlags r) s = .next t ∧
      ∃ u, t = okTo chanClass 3 (actReq 2 r) (encodeRec (chanRec r.inst) u) u ∧
      chanAt u r.inst = clearChanFlags (leAt r.payload 0 2) (chanAt s r.inst) ∧ others chanAt r.inst s u := by
  refine ⟨_, rfl, _, cmdAct_immediate h rfl (by decide) rfl rfl, ?_, fun j hj => ?_⟩
  · rw [chanAt_modChan_same, chanAt_taken]
  · rw [others_modChan _ _ _ j hj, chanAt_taken]

theorem foutLocate_effect (r : Req) (s : State) (h : ActPasses foutClass 1 r s) :
    ∃ t, exec (.foutLocate r) s = .next t ∧ ∃ u, t = okTo foutClass 3 (actReq 1 r) [] u ∧
      bankAt u (r.inst - 0x100) = { bankAt s (r.inst - 0x100) with run := some { cur := leAt r.payload 0 1 } } ∧
      others bankAt (r.inst - 0x100) s u := by
  refine ⟨_, rfl, _, cmdAct_immediate h rfl (by decide) rfl rfl, ?_, fun j hj => ?_⟩
  · rw [bankAt_modBank_same, bankAt_taken]
  · rw [bankAt_modBank_ne _ _ _ _ hj.symm, bankAt_taken]

/-- An output without what an earlier location found on it (R208). -/
def unlocate (b : Nat) (s : State) (j : Nat) : State :=
  modFo (8 * b + j) (fun f => { f with located := false, faultOff := false }) s

theorem foAt_unlocate_ne {b i j : Nat} (s : State) (h : j ≠ i) :
    foAt (unlocate b s i) (8 * b + j) = foAt s (8 * b + j) :=
  foAt_modFo_ne _ _ _ s (by omega)

theorem foAt_unlocateAll {b j : Nat} {l : List Nat} (hn : l.Nodup) (hj : j ∈ l) (s : State) :
    (foAt (l.foldl (unlocate b) s) (8 * b + j)).located = false ∧
      (foAt (l.foldl (unlocate b) s) (8 * b + j)).faultOff = false := by
  obtain ⟨u, -, hu⟩ := foldl_at (get := fun s j => foAt s (8 * b + j)) (h := unlocate b)
    (fun s i j h => foAt_unlocate_ne s h) l hn j hj s
  rw [hu, unlocate, foAt_modFo_same]
  exact ⟨rfl, rfl⟩

theorem unlocateAll_banks (b : Nat) (l : List Nat) (s : State) :
    (l.foldl (unlocate b) s).fio.banks = s.fio.banks :=
  foldl_keep (keep := fun s => s.fio.banks) (h := unlocate b) (fun _ _ => rfl) l s

theorem nodup_elems (m : Nat) : (elems m).Nodup := List.nodup_range.filter _

theorem foutClear_effect (r : Req) (s : State) (h : ActPasses foutClass 2 r s) :
    ∃ t, exec (.foutClear r) s = .next t ∧ ∃ u, t = okTo foutClass 3 (actReq 2 r) [] u ∧
      (∀ j, j ∈ elems (leAt r.payload 0 1) → (foAt u (8 * (r.inst - 0x100) + j)).located = false ∧
        (foAt u (8 * (r.inst - 0x100) + j)).faultOff = false) ∧ u.fio.banks = s.fio.banks :=
  ⟨_, rfl, _, cmdAct_immediate h rfl (by decide) rfl rfl, fun _ hj => foAt_unlocateAll (nodup_elems _) hj _,
    (unlocateAll_banks _ _ _).trans (congrArg Fio.banks (taken_fio r s))⟩

theorem bridgeSetPos_effect (r : Req) (s : State) (h : ActPasses brClass 1 r s) :
    ∃ t, exec (.bridgeSetPos r) s = .next t ∧ ∃ u, t = okTo brClass 3 (actReq 1 r) [] u ∧
      brAt u r.inst = { brAt s r.inst with pos := toS 32 (leAt r.payload 0 4), posValid := true } ∧
      others brAt r.inst s u := by
  refine ⟨_, rfl, _, cmdAct_immediate h rfl (by decide) rfl rfl, ?_, fun j hj => ?_⟩
  · rw [brAt_modBr_same, brAt_taken]
  · rw [brAt_modBr_ne _ _ _ _ hj.symm, brAt_taken]

theorem bridgeClear_effect (r : Req) (s : State) (h : ActPasses brClass 2 r s) :
    ∃ t, exec (.bridgeClear r) s = .next t ∧ ∃ u, t = okTo brClass 3 (actReq 2 r) [] u ∧
      (brAt u r.inst).stalled = ((brAt s r.inst).stalled && !bitOf 1 (leAt r.payload 0 1)) ∧
      (brAt u r.inst).pinched = ((brAt s r.inst).pinched && !bitOf 2 (leAt r.payload 0 1)) ∧
      (brAt u r.inst).ripLost = ((brAt s r.inst).ripLost && !bitOf 5 (leAt r.payload 0 1)) ∧
      (brAt u r.inst).posRest = ((brAt s r.inst).posRest && !bitOf 6 (leAt r.payload 0 1)) ∧
      others brAt r.inst s u := by
  refine ⟨_, rfl, _, cmdAct_immediate h rfl (by decide) rfl rfl, ?_⟩
  rw [brAt_modBr_same, brAt_taken]
  refine ⟨rfl, rfl, rfl, rfl, fun j hj => ?_⟩
  rw [brAt_modBr_ne _ _ _ _ hj.symm, brAt_taken]

theorem canSend_effect (r : Req) (s : State) (h : ActPasses canClass 1 r s) :
    ∃ t, exec (.canSend r) s = .next t ∧ ∃ u, t = okTo canClass 3 (actReq 1 r) [] u ∧
      canAt u r.inst = fillSlots { canAt s r.inst with queue := queued (canAt s r.inst) {
        frame := parseFrame r.payload, src := .pound r.pound (leAt r.payload 30 2),
        oneShot := bitOf 0 (leAt r.payload 11 1), confirm := bitOf 1 (leAt r.payload 11 1),
        enq := s.tide.counter } } ∧
      others canAt r.inst s u := by
  refine ⟨_, rfl, _, cmdAct_immediate h rfl (by decide) rfl rfl, ?_, fun j hj => ?_⟩
  · refine (canAt_modCanCh_same _ _ _).trans ?_
    rw [canAt_taken, taken_counter]
  · exact (canAt_modCanCh_ne _ _ _ _ hj.symm).trans (canAt_taken r s j)

theorem canClearCounters_effect (r : Req) (s : State) (h : ActPasses canClass 3 r s) :
    ∃ t, exec (.canClearCounters r) s = .next t ∧ ∃ u, t = okTo canClass 3 (actReq 3 r) [] u ∧
      canAt u r.inst = { canAt s r.inst with counters := [], nobufRead := true } ∧ others canAt r.inst s u := by
  refine ⟨_, rfl, _, cmdAct_immediate h rfl (by decide) rfl rfl, ?_, fun j hj => ?_⟩
  · rw [canAt_modCanCh_same, canAt_taken]
  · rw [canAt_modCanCh_ne _ _ _ _ hj.symm, canAt_taken]

theorem setTpCauses_causes (new : Nat) (s : State) : (setTpCauses new s).tp.causes = new := by
  unfold setTpCauses
  dsimp only
  split
  case isTrue h => exact h.symm
  case isFalse =>
    rw [faultFall_tp]
    split
    · rw [emit_tp]
      rfl
    · rw [emit_tp]
      split <;> rfl

/-- Settles O36: each action is a change of its own unit on top of the acceptance of the request, which changes none of
these units; the first test of a location run has the mask of the request (log entry 59). -/
theorem immediateActionsOfTheInputsAndOutputs : Obligations.ImmediateActionsOfTheInputsAndOutputs := by
  unfold Obligations.ImmediateActionsOfTheInputsAndOutputs
  refine ⟨clearTsDrop_effect, chanClearFlags_effect, foutLocate_effect, foutClear_effect, bridgeSetPos_effect,
    bridgeClear_effect, canSend_effect, canClearCounters_effect, fun r s h => ?_, fun r s h => ?_⟩
  · exact ⟨_, rfl, _, cmdAct_immediate h rfl (by decide) rfl rfl, setTpCauses_causes _ (taken r s)⟩
  · exact ⟨_, rfl, _, cmdAct_immediate h rfl (by decide) rfl rfl, setTpCauses_causes _ (taken r s)⟩

end Sys2Proof.Machine
end

section
/-! The digitisers and the sensors of the Sluice (O20), its silences and its load budgets (O21). -/
open Sys2Proof
namespace Sys2Proof.Machine

/-- With the keeper domain powered, a meaning that asks for it goes on to its other conditions. -/
theorem ite_powered {α : Type} {s : State} (hk : s.pwr.keeper = true) (a b : α) :
    (if !s.pwr.keeper then a else b) = b := by
  rw [hk]
  rfl

/-! What a unit of the Sluice holds while the Sluice stays as it was. -/

theorem adcAt_of_slu {s t : State} (h : t.slu = s.slu) (g : Nat) : adcAt t g = adcAt s g := by
  unfold adcAt
  rw [h]

theorem wireAt_of_slu {s t : State} (h : t.slu = s.slu) (i : Nat) : wireAt t i = wireAt s i := by
  unfold wireAt
  rw [h]

theorem bundleAt_of_slu {s t : State} (h : t.slu = s.slu) (b : Nat) : bundleAt t b = bundleAt s b := by
  unfold bundleAt
  rw [h]

theorem budgetAt_of_slu {s t : State} (h : t.slu = s.slu) (b : Nat) : budgetAt t b = budgetAt s b := by
  unfold budgetAt
  rw [h]

/-- What follows a detection and leaves the detectors alone does not undo it. -/
theorem detected_before {L : Region → Bool} {s t u : State} {bp : Nat} {live : Bool} (h : detected bp live s t)
    (hu : blank L u = blank L t) (hd : L .detect = false) : detected bp live s u := by
  have e : u.saf.dets = t.saf.dets := congrArg (·.dets) (same_of_blank hu .detect hd)
  simpa only [detected, detAt, e] using h

/-! Fallback (R148): a channel that is engaged changes its own wire record, and beside that channels and bridges. -/

/-- A trip that no detector counts changes channels and bridges alone. -/
theorem analogTrip_uncounted_frame (L : Region → Bool) (hPow : L .pow = true) (hMot : L .mot = true)
    (i cause energy : Nat) (cur : Int) (s : State) : blank L (analogTrip i cause energy cur 0 s) = blank L s := by
  cases h : (chanAt s i).gate with
  | false => rw [analogTrip_of_off h]
  | true =>
    rw [analogTrip_of_on h, if_pos rfl, cutOff, reversalOff_frame L hPow hMot, partnerOff_frame L hPow, latchTrip,
      modChan_frame L hPow, gateOff_frame L hPow]

theorem engage_frame_of_wire (L : Region → Bool) (hPow : L .pow = true) (hMot : L .mot = true) (i : Nat) (s : State) :
    blank L (engage i s) = blank L (modWire i (fun w => { w with fallback := true, i2tBad := false }) s) := by
  unfold engage
  dsimp only
  split
  · rw [modChan_frame L hPow, switchOff_frame L hPow]
  · split
    · exact analogTrip_uncounted_frame L hPow hMot i 7 0 _ _
    · rfl

theorem engage_adcs (i : Nat) (s : State) : (engage i s).slu.adcs = s.slu.adcs := by
  have h := same_of_blank (engage_frame_of_wire (only [.pow, .mot]) rfl rfl i s) .slu rfl
  exact (congrArg Slu.adcs h :)

/-! A converter that fails its reference check (R132, R133). -/

/-- The regions in which the failure of a converter that has been detected takes its effect. -/
def adcRegions : Region → Bool := only [.wire, .pond, .pow, .slu, .mot]

/-- A channel of a group that has failed goes under fallback, with no delay running (R133, R148). -/
def engageFailed (s : State) (i : Nat) : State :=
  modChan i (fun c => { c with delayRun := false, delayEnd := false }) (if underFallback s i then s else engage i s)

theorem engageFailed_frame (s : State) (i : Nat) :
    blank adcRegions (engageFailed s i) = blank adcRegions s := by
  rw [engageFailed, modChan_frame _ rfl]
  split
  · rfl
  · rw [engage_frame_of_wire _ rfl rfl, modWire_frame _ rfl]

theorem engageFailed_adcs (s : State) (i : Nat) : (engageFailed s i).slu.adcs = s.slu.adcs := by
  have hm : (engageFailed s i).slu = (if underFallback s i then s else engage i s).slu := rfl
  rw [hm]
  split
  · rfl
  · exact engage_adcs i s

/-- Group `g` is left without a healthy converter. -/
def failAdc (g : Nat) (s : State) : State :=
  (adcChans g).foldl engageFailed (emit 0x1108 0x300
    (wearLog 2 g 3 (modAdc g (fun a => { a with failed := true, xcheck := false }) s)) (cause := g + 1) (flags := 1))

/-- The spare of group `g`, not in service, is marked bad. -/
def condemnSpareAdc (g err : Nat) (s : State) : State :=
  let s := modAdc g (fun a => { a with spareBad := true, xcheck := false }) (wearLog 2 g 3 s)
  emit 0x1103 0x300 (if kindEmpty s 2 then pondWear 2 g err true s else s) (cause := g) (flags := 1)

/-- What becomes of group `g`, whose record is `a`, when the spare or the other converter fails. -/
def settleAdc (g : Nat) (spare : Bool) (err : Nat) (a : Adc) (s : State) : State :=
  if spare = a.swapped then
    if !a.swapped && !a.spareBad then bringAdc g err s else if a.failed then s else failAdc g s
  else if spare && !a.spareBad then condemnSpareAdc g err s
  else s

/-- What becomes of the record of a group, `spare` when the spare converter is the one that fails (R133). -/
def settledAdc (spare : Bool) (a : Adc) : Adc :=
  if spare = a.swapped then
    if !a.swapped && !a.spareBad then { a with swapped := true, xcheck := false }
    else if a.failed then a else { a with failed := true, xcheck := false }
  else if spare && !a.spareBad then { a with spareBad := true, xcheck := false }
  else a

theorem adcAt_bringAdc (g err : Nat) (s : State) :
    adcAt (bringAdc g err s) g = { adcAt s g with swapped := true, xcheck := false } := by
  rw [bringAdc, adcAt_of_slu (pondIn_slu _ _ _ _), adcAt_of_slu (emit_slu _ _ _ _ _ _ _ _)]
  exact adcAt_modAdc_same g _ s

theorem failAdc_frame (g : Nat) (s : State) : blank adcRegions (failAdc g s) = blank adcRegions s := by
  rw [failAdc, foldl_frame _ _ engageFailed_frame, emit_frame _ rfl, wearLog_frame _ rfl, modAdc_frame _ rfl]

theorem adcAt_failAdc (g : Nat) (s : State) :
    adcAt (failAdc g s) g = { adcAt s g with failed := true, xcheck := false } := by
  rw [failAdc, adcAt, foldl_keep (keep := fun s => s.slu.adcs) engageFailed_adcs, emit_slu, wearLog_slu]
  exact adcAt_modAdc_same g _ s

theorem condemnSpareAdc_frame (g err : Nat) (s : State) :
    blank adcRegions (condemnSpareAdc g err s) = blank adcRegions s := by
  rw [condemnSpareAdc, emit_frame _ rfl]
  split
  · rw [pondWear_frame _ rfl, modAdc_frame _ rfl, wearLog_frame _ rfl]
  · rw [modAdc_frame _ rfl, wearLog_frame _ rfl]

theorem adcAt_condemnSpareAdc (g err : Nat) (s : State) :
    adcAt (condemnSpareAdc g err s) g = { adcAt s g with spareBad := true, xcheck := false } := by
  have hw : adcAt (wearLog 2 g 3 s) g = adcAt s g := adcAt_of_slu (wearLog_slu _ _ _ _) g
  rw [condemnSpareAdc, adcAt_of_slu (emit_slu _ _ _ _ _ _ _ _)]
  split
  · rw [adcAt_of_slu (pondWear_slu _ _ _ _ _), adcAt_modAdc_same, hw]
  · rw [adcAt_modAdc_same, hw]

theorem settleAdc_frame (g : Nat) (spare : Bool) (err : Nat) (a : Adc) (s : State) :
    blank adcRegions (settleAdc g spare err a s) = blank adcRegions s := by
  unfold settleAdc
  split
  · split
    · exact bringAdc_frame _ rfl rfl rfl g err s
    · split
      · rfl
      · exact failAdc_frame g s
  · split
    · exact condemnSpareAdc_frame g err s
    · rfl

/-- A record that differs from `a` in its reference error alone is settled as `a` is, and keeps that error. -/
theorem adcAt_settleAdc (g : Nat) (spare : Bool) (err e : Nat) (a : Adc) (s : State)
    (h : adcAt s g = { a with err := e }) :
    adcAt (settleAdc g spare err a s) g = { settledAdc spare a with err := e } := by
  unfold settleAdc settledAdc
  split
  · split
    · rw [adcAt_bringAdc, h]
    · split
      · exact h
      · rw [adcAt_failAdc, h]
  · split
    · rw [adcAt_condemnSpareAdc, h]
    · exact h

/-- The converter in service gives way to a spare that is good, else its group fails; a spare that waits is marked
bad. -/
theorem settledAdc_flags (spare : Bool) (a : Adc) :
    (settledAdc spare a).swapped = (a.swapped || (!spare && !a.spareBad)) ∧
    (settledAdc spare a).failed = (a.failed || (decide (spare = a.swapped) && (a.swapped || a.spareBad))) ∧
    (settledAdc spare a).spareBad = (a.spareBad || (spare && !a.swapped)) := by
  unfold settledAdc
  split
  case isTrue hs =>
    subst hs
    split
    case isTrue hb => simp_all
    case isFalse hb => split <;> grind
  case isFalse hs => split <;> grind

/-- A figure that has passed a further quarter of its threshold is reported (R566). -/
def warnAdc (g : Nat) (spare : Bool) (err : Nat) (a : Adc) (s : State) : State :=
  if spare = a.swapped ∧ quarters a.err 50 < quarters err 50 then pondWear 2 g err false s else s

theorem warnAdc_frame (g : Nat) (spare : Bool) (err : Nat) (a : Adc) (s : State) :
    blank adcRegions (warnAdc g spare err a s) = blank adcRegions s := by
  unfold warnAdc
  split
  · exact pondWear_frame _ rfl 2 g err false s
  · rfl

theorem warnAdc_slu (g : Nat) (spare : Bool) (err : Nat) (a : Adc) (s : State) :
    (warnAdc g spare err a s).slu = s.slu := by
  unfold warnAdc
  split
  · exact pondWear_slu 2 g err false s
  · rfl

/-- The failure is counted with its reference error. -/
def countAdcError (g err : Nat) (s : State) : State := detect 0x010 false (modAdc g (fun a => { a with err := err }) s)

theorem exec_adcReferenceFailure {g : Nat} {s : State} (h : g < 5) (hk : s.pwr.keeper = true) (err : Nat)
    (spare : Bool) : exec (.adcReferenceFailure g spare err) s = .next
      (if (if spare then (adcAt s g).refBadS else (adcAt s g).refBad) < 2 then s
      else settleAdc g spare err (adcAt s g) (warnAdc g spare err (adcAt s g) (countAdcError g err s))) := by
  refine (guardUnit_of_ok (decide_eq_true h) _).trans ?_
  rw [hk]
  rfl

theorem adcReferenceFailure_effect (g err : Nat) (spare : Bool) (s : State) (h : g < 5) (hk : s.pwr.keeper = true) :
    ∃ t, exec (.adcReferenceFailure g spare err) s = .next t ∧
      ((if spare then (adcAt s g).refBadS else (adcAt s g).refBad) < 2 → t = s) ∧
      (2 ≤ (if spare then (adcAt s g).refBadS else (adcAt s g).refBad) → (adcAt t g).err = err ∧
        (adcAt t g).swapped = ((adcAt s g).swapped || (!spare && !(adcAt s g).spareBad)) ∧
        (adcAt t g).failed = ((adcAt s g).failed ||
          (decide (spare = (adcAt s g).swapped) && ((adcAt s g).swapped || (adcAt s g).spareBad))) ∧
        (adcAt t g).spareBad = ((adcAt s g).spareBad || (spare && !(adcAt s g).swapped)) ∧
        detected 0x010 false s t) := by
  refine ⟨_, exec_adcReferenceFailure h hk err spare, fun hr => if_pos hr, fun hr => ?_⟩
  rw [if_neg (Nat.not_lt.mpr hr)]
  have hc : adcAt (warnAdc g spare err (adcAt s g) (countAdcError g err s)) g = { adcAt s g with err := err } := by
    rw [adcAt_of_slu (warnAdc_slu _ _ _ _ _), countAdcError, adcAt_of_slu (detect_slu _ _ _), adcAt_modAdc_same]
  have hd : detected 0x010 false s (countAdcError g err s) := detected_detect rfl rfl 0x010 false
  have hf := (settleAdc_frame g spare err (adcAt s g) _).trans
    (warnAdc_frame g spare err (adcAt s g) (countAdcError g err s))
  rw [adcAt_settleAdc g spare err err _ _ hc]
  obtain ⟨hs, hg, hb⟩ := settledAdc_flags spare (adcAt s g)
  exact ⟨rfl, hs, hg, hb, detected_before hd hf rfl⟩

/-! The other commands of the digitisers and the sensors, one by one. -/

theorem others_modWire (i : Nat) (f : WireCh → WireCh) (s : State) : others wireAt i s (modWire i f s) :=
  fun j h => wireAt_modWire_ne i j f s h.symm

theorem others_modBundle (b : Nat) (f : Bundle → Bundle) (s : State) : others bundleAt b s (modBundle b f s) :=
  fun j h => bundleAt_modBundle_ne b j f s h.symm

/-- The channel of a confirmed fault takes the substitute, and its group waits for a fault no more. -/
def senseSubstituted (i : Nat) (s : State) : State :=
  modWire i (fun w => { w with subst := true }) (modAdc (adcOf i) (fun a => { a with conf := none }) s)

theorem exec_adcCrossCheckFailure {i : Nat} {s : State} (h : i < 76) (hk : s.pwr.keeper = true) :
    exec (.adcCrossCheckFailure i) s = .next (if (adcAt s (adcOf i)).xcheck = true ∧ (wireAt s i).subst = false ∧
      (adcAt s (adcOf i)).conf = some i then
        detect 0x011 false (emit 0x1102 (0x200 + i) (senseSubstituted i s)
          (value := max (chCur (senseSubstituted i s) i) (iLimUa (senseSubstituted i s) i : Int)))
      else s) := by
  refine (guardUnit_of_ok (decide_eq_true h) _).trans ?_
  rw [ite_powered hk]
  split
  case isTrue hn => rw [if_neg (fun ⟨hx, hs, hc⟩ => by simp [hx, hs, hc] at hn)]
  case isFalse hn => rw [if_pos (by simpa [and_assoc] using hn)]; rfl

theorem adcCrossCheckFailure_effect (i : Nat) (s : State) (h : i < 76) (hk : s.pwr.keeper = true) :
    ∃ t, exec (.adcCrossCheckFailure i) s = .next t ∧
      (if (adcAt s (adcOf i)).xcheck = true ∧ (wireAt s i).subst = false ∧ (adcAt s (adcOf i)).conf = some i then
        wireAt t i = { wireAt s i with subst := true } ∧ others wireAt i s t ∧
          adcAt t (adcOf i) = { adcAt s (adcOf i) with conf := none } ∧ detected 0x011 false s t
      else t = s) := by
  refine ⟨_, exec_adcCrossCheckFailure h hk, ?_⟩
  split
  case isFalse => rfl
  case isTrue =>
    refine ⟨?_, fun j hj => ?_, ?_, ?_⟩
    · rw [wireAt_of_slu (detect_slu _ _ _), wireAt_of_slu (emit_slu _ _ _ _ _ _ _ _)]
      exact wireAt_modWire_same i _ _
    · rw [wireAt_of_slu (detect_slu _ _ _), wireAt_of_slu (emit_slu _ _ _ _ _ _ _ _)]
      exact others_modWire i _ _ j hj
    · rw [adcAt_of_slu (detect_slu _ _ _), adcAt_of_slu (emit_slu _ _ _ _ _ _ _ _)]
      exact adcAt_modAdc_same (adcOf i) (fun a => { a with conf := none }) s
    · exact detected_detect (emit_saf _ _ _ _ _ _ _ _) (congrArg Cyc.number (emit_cyc _ _ _ _ _ _ _ _)) 0x011 false

/-- The next of the eight copies of the node state holds the temperatures of this moment (R138). -/
theorem storeNodes_effect (sleep : Bool) (s : State) : let t := storeNodes sleep s
    let c := tget nodeCopy0 t.slu.copies ((s.slu.copySeq + 1) % 8)
    t.slu.copySeq = s.slu.copySeq + 1 ∧ c.seq = s.slu.copySeq + 1 ∧
      c.tc = (List.range 76).map (fun i => (wireAt s i).tc) ∧ c.ti = (List.range 76).map (fun i => (wireAt s i).ti) ∧
      c.tb = (List.range 76).map (fun i => (wireAt s i).tb) ∧
      c.tbs = (List.range 32).map (fun b => (bundleAt s b).tb) := by
  dsimp only
  unfold storeNodes
  dsimp only
  rw [modSlu_slu, tget_tput_same]
  exact ⟨rfl, rfl, rfl, rfl, rfl, rfl⟩

theorem modelStateStore_effect (s : State) (hk : s.pwr.keeper = true) : ∃ t, exec (.modelStateStore) s = .next t ∧
    (s.slu.storeDue = false → t = s) ∧
    (s.slu.storeDue = true → t.slu.storeDue = false ∧ t.slu.copySeq = s.slu.copySeq + 1 ∧
      (tget nodeCopy0 t.slu.copies ((s.slu.copySeq + 1) % 8)).seq = s.slu.copySeq + 1 ∧
      (tget nodeCopy0 t.slu.copies ((s.slu.copySeq + 1) % 8)).tc = (List.range 76).map (fun i => (wireAt s i).tc) ∧
      (tget nodeCopy0 t.slu.copies ((s.slu.copySeq + 1) % 8)).ti = (List.range 76).map (fun i => (wireAt s i).ti) ∧
      (tget nodeCopy0 t.slu.copies ((s.slu.copySeq + 1) % 8)).tb = (List.range 76).map (fun i => (wireAt s i).tb) ∧
      (tget nodeCopy0 t.slu.copies ((s.slu.copySeq + 1) % 8)).tbs =
        (List.range 32).map (fun b => (bundleAt s b).tb)) := by
  refine ⟨_, rfl, fun hd => ?_, fun hd => ?_⟩ <;> rw [ite_powered hk, hd]
  · rfl
  · exact ⟨rfl, storeNodes_effect false (modSlu (fun v => { v with storeDue := false }) s)⟩

theorem lidSensorMismatch_effect (s : State) (hk : s.pwr.keeper = true) : ∃ t, exec (.lidSensorMismatch) s = .next t ∧
    (s.slu.lidRep = true ∨ s.slu.lidBad < 8 → t = s) ∧
    (s.slu.lidRep = false → 8 ≤ s.slu.lidBad →
      t.slu = { s.slu with lidRep := true } ∧ detected 0x00B true s t) := by
  refine ⟨_, rfl, fun hq => ?_, fun hr hb => ?_⟩ <;> rw [ite_powered hk]
  · exact if_pos (by simpa using hq)
  · rw [if_neg (by simp [hr, hb])]
    exact ⟨(detect_slu _ _ _).trans (emit_slu _ _ _ _ _ _ _ _),
      detected_detect (emit_saf _ _ _ _ _ _ _ _) (congrArg Cyc.number (emit_cyc _ _ _ _ _ _ _ _)) 0x00B true⟩

theorem hostAmbientStale_effect (b : Nat) (s : State) (h : b < 32) (hk : s.pwr.keeper = true) :
    ∃ t, exec (.hostAmbientStale b) s = .next t ∧
      bundleAt t b = { bundleAt s b with stale := true } ∧ others bundleAt b s t := by
  refine ⟨_, guardUnit_of_ok (decide_eq_true h) _, ?_⟩
  rw [ite_powered hk]
  split
  case isTrue hs => exact ⟨by rw [← hs], fun _ _ => rfl⟩
  case isFalse =>
    dsimp only
    split
    · refine ⟨?_, fun j hj => ?_⟩ <;> rw [bundleAt_of_slu (emit_slu _ _ _ _ _ _ _ _)]
      · exact bundleAt_modBundle_same b _ s
      · exact others_modBundle b _ s j hj
    · exact ⟨bundleAt_modBundle_same b _ s, others_modBundle b _ s⟩

theorem fallbackTrip_effect (i e : Nat) (cur : Int) (s : State) (h : i < 76) (hk : s.pwr.keeper = true) :
    ∃ t, exec (.fallbackTrip i e cur) s = .next t ∧
      chanAt t i = (if underFallback s i = true ∧ fbKu i ≤ (wireAt s i).integ ∧ (chanAt s i).gate = true then
        tripped i 7 e cur s else chanAt s i) ∧ t.slu = s.slu := by
  refine ⟨_, guardUnit_of_ok (decide_eq_true h) _, ?_⟩
  rw [ite_powered hk]
  by_cases hf : underFallback s i = true ∧ fbKu i ≤ (wireAt s i).integ
  · rw [if_pos (by simp [hf]), chanAt_analogTrip]
    exact ⟨by simp [hf], same_of_blank (analogTrip_uncounted_frame (only [.pow, .mot]) rfl rfl i 7 e cur s) .slu rfl⟩
  · rw [if_neg (by simpa using hf), if_neg (fun h => hf ⟨h.1, h.2.1⟩)]
    exact ⟨rfl, rfl⟩

/-- Settles O20: the failure of a converter is settled after it is counted, in regions that hold no detector; the other
commands are a change of their own unit under their condition, or nothing. -/
theorem digitisersAndSensors : Obligations.DigitisersAndSensors :=
  ⟨adcReferenceFailure_effect, adcCrossCheckFailure_effect, modelStateStore_effect, lidSensorMismatch_effect,
    hostAmbientStale_effect, fallbackTrip_effect⟩

/-! The end of a silence (R150, R554). -/

theorem resume_silent (ain : Nat → Option Int) (s : State) : (resume ain s).slu.silent = false := by
  unfold resume
  dsimp only
  rw [emit_slu]
  rfl

theorem sluiceResume_effect (s : State) : ∃ t, exec (.sluiceResume) s = .next t ∧
    t.slu.silent = false ∧ (s.slu.silent = false → t = s) := by
  refine ⟨_, rfl, ?_, fun h => if_neg (by rw [h]; decide)⟩
  split
  case isTrue => rw [detectEnd_slu, detectEnd_slu, tpClear_slu, resume_silent]
  case isFalse h => exact eq_false_of_ne_true h

/-! The restore of a budget (R155). -/

/-- What both sums of budget `b` must keep to: L × (1 - m). -/
def budgetRoom (s : State) (b : Nat) : Int := budgetL s b (100 - (budgetAt s b).margin)

/-- The channels that budget `b` holds shed. -/
def budgetHeld (s : State) (b : Nat) : List Nat := (List.range 76).filter (shedHeld s b)

/-- A channel of the budget has its offer and has not yet taken it. -/
def budgetOffered (s : State) (b : Nat) : Bool := (budgetHeld s b).any (fun i => (chanAt s i).offer)

theorem budgetRestore_above {b : Nat} {s : State}
    (h : budgetRoom s b < (budgetAt s b).sum ∨ budgetRoom s b < (budgetAt s b).filt) :
    budgetRestore b s = modBudget b (fun x => { x with holdDone := false }) s := if_pos h

/-- Channel `i` is offered its restore, or freed of the shed where it is not in SHED (log entries 33 and 45). -/
def offerRestore (b i : Nat) (s : State) : State :=
  emit 0x1106 (0x301 + b)
    (modChan i (fun c => if c.state = .shed then { c with offer := true } else { c with shedBy := 0 }) s)
    (cause := b) (value := micro ((budgetAt s b).sum + ((chanAt s i).shedCur : Int))) (ext := [chanMask [i]])

theorem budgetRestore_offered {b : Nat} {s : State} (h : budgetOffered s b = true) :
    (budgetRestore b s).pow = s.pow := by
  by_cases ha : budgetRoom s b < (budgetAt s b).sum ∨ budgetRoom s b < (budgetAt s b).filt
  · rw [budgetRestore_above ha]
    rfl
  · refine congrArg State.pow ((if_neg ha).trans ?_)
    exact ite_frame _ rfl (if_pos h)

theorem budgetRestore_first {b i : Nat} {r : List Nat} {s : State} (hd : (budgetAt s b).holdDone = true)
    (hs : (budgetAt s b).sum ≤ budgetRoom s b) (hf : (budgetAt s b).filt ≤ budgetRoom s b)
    (ho : budgetOffered s b = false) (hi : sortBy (prioDown s) ((budgetHeld s b).filter (ready s)) = i :: r)
    (hr : (budgetAt s b).sum + ((chanAt s i).shedCur : Int) ≤ budgetRoom s b) :
    budgetRestore b s = offerRestore b i s := by
  have ha : ¬(budgetRoom s b < (budgetAt s b).sum ∨ budgetRoom s b < (budgetAt s b).filt) := by omega
  unfold budgetHeld at hi
  refine (if_neg ha).trans ((if_neg (by simp [hd])).trans ((if_neg (ne_true_of_eq_false ho)).trans ?_))
  rw [hi]
  exact if_neg (Int.not_lt.mpr hr)

theorem offerRestore_effect (b i : Nat) (s : State) : chanAt (offerRestore b i s) i =
    (if (chanAt s i).state = .shed then { chanAt s i with offer := true } else { chanAt s i with shedBy := 0 }) ∧
      others chanAt i s (offerRestore b i s) := by
  refine ⟨?_, fun j hj => ?_⟩ <;> rw [offerRestore, chanAt_emit]
  · exact chanAt_modChan_same i _ s
  · exact others_modChan i _ s j hj

/-- Budget `b` with its restore time at its end. -/
def holdEnded (b : Nat) (s : State) : State := modBudget b (fun x => { x with holdDone := true }) s

theorem budgetAt_holdEnded (b : Nat) (s : State) :
    budgetAt (holdEnded b s) b = { budgetAt s b with holdDone := true } := budgetAt_modBudget_same b _ s

theorem budgetRoom_holdEnded (b : Nat) (s : State) : budgetRoom (holdEnded b s) b = budgetRoom s b := by
  unfold budgetRoom budgetL
  rw [budgetAt_holdEnded]
  rfl

theorem exec_budgetRestore {b : Nat} (s : State) (h : b < 4) : exec (.budgetRestore b) s = .next
    (if !s.pwr.keeper then s else if s.slu.silent then s else budgetRestore b (holdEnded b s)) :=
  guardUnit_of_ok (decide_eq_true h) _

theorem budgetRestore_effect (b : Nat) (s : State) (h : b < 4) : ∃ t, exec (.budgetRestore b) s = .next t ∧
    (s.slu.silent = true ∨ s.pwr.keeper = false → t = s) ∧
    (s.slu.silent = false → s.pwr.keeper = true →
      (budgetRoom s b < (budgetAt s b).sum ∨ budgetRoom s b < (budgetAt s b).filt →
        budgetAt t b = { budgetAt s b with holdDone := false } ∧ t.pow = s.pow) ∧
      (budgetOffered s b = true → t.pow = s.pow) ∧
      (∀ i r, (budgetAt s b).sum ≤ budgetRoom s b → (budgetAt s b).filt ≤ budgetRoom s b → budgetOffered s b = false →
        sortBy (prioDown s) ((budgetHeld s b).filter (ready s)) = i :: r →
        (budgetAt s b).sum + ((chanAt s i).shedCur : Int) ≤ budgetRoom s b →
        chanAt t i = (if (chanAt s i).state = .shed then { chanAt s i with offer := true }
          else { chanAt s i with shedBy := 0 }) ∧ others chanAt i s t)) := by
  have hb := budgetAt_holdEnded b s
  have hl := budgetRoom_holdEnded b s
  refine ⟨_, exec_budgetRestore s h, fun hn => ?_, fun hq hk => ?_⟩
  · rcases hn with hn | hn <;> simp [hn]
  · rw [ite_powered hk, hq, if_neg Bool.false_ne_true]
    refine ⟨fun ha => ?_, fun ho => ?_, fun i r hs hf ho hi hr => ?_⟩
    · rw [budgetRestore_above (by rw [hl, hb]; exact ha), budgetAt_modBudget_same, hb]
      exact ⟨rfl, rfl⟩
    · exact budgetRestore_offered (s := holdEnded b s) ho
    · rw [budgetRestore_first (s := holdEnded b s) (by rw [hb]) (by rw [hl, hb]; exact hs) (by rw [hl, hb]; exact hf) ho
        hi (by rw [hl, hb]; exact hr)]
      exact offerRestore_effect b i (holdEnded b s)

/-! The failure of a budget (R156). -/

theorem budgetFail_effect (b : Nat) (s : State) :
    budgetAt (budgetFail b s) b = { budgetAt s b with reported := true } ∧
    ((budgetAt s b).reported = false → detected 0x014 true s (budgetFail b s)) := by
  unfold budgetFail
  split
  case isTrue h => exact ⟨by rw [← h], fun hn => absurd h (ne_true_of_eq_false hn)⟩
  case isFalse =>
    refine ⟨?_, fun _ => ?_⟩
    · rw [budgetAt_of_slu (detect_slu _ _ _), budgetAt_of_slu (emit_slu _ _ _ _ _ _ _ _)]
      exact budgetAt_modBudget_same b _ s
    · exact detected_detect (emit_saf _ _ _ _ _ _ _ _) (congrArg Cyc.number (emit_cyc _ _ _ _ _ _ _ _)) 0x014 true

theorem execBudgetFail_effect (b : Nat) (s : State) (h : b < 4) : ∃ t, exec (.budgetFail b) s = .next t ∧
    (if (budgetAt s b).allShed = true ∧ budgetL s b 100 < (budgetAt s b).filt ∧ s.slu.silent = false then
      budgetAt t b = { budgetAt s b with reported := true } ∧ ((budgetAt s b).reported = false → detected 0x014 true s t)
    else t = s) := by
  refine ⟨_, guardUnit_of_ok (decide_eq_true h) _, ?_⟩
  split
  case isTrue hc => rw [if_pos (by simp [hc])]; exact budgetFail_effect b s
  case isFalse hc => exact if_neg (by simpa [and_assoc] using hc)

/-- Settles O21: the silence ends, a budget offers the first channel that fits or none, and a failure is reported once.
That a channel not in SHED is freed of the shed in place of an offer is log entries 33 and 45. -/
theorem silenceAndBudgets : Obligations.SilenceAndBudgets :=
  ⟨sluiceResume_effect, budgetRestore_effect, execBudgetFail_effect⟩

end Sys2Proof.Machine
end

section
/-! The motion of a bridge (O22): its brake times, its regulation, its ripple counter and its stall. -/
open Sys2Proof
namespace Sys2Proof.Machine

/-! What a bridge holds while the Paddles and bridges stay as they were, or while another bridge changes. -/

theorem brAt_of_mot {s t : State} (h : t.mot = s.mot) (b : Nat) : brAt t b = brAt s b := by
  unfold brAt
  rw [h]

theorem brDynAt_of_mot {s t : State} (h : t.mot = s.mot) (b : Nat) : brDynAt t b = brDynAt s b := by
  unfold brDynAt
  rw [h]

theorem others_modBr (b : Nat) (f : Br → Br) (s : State) : others brAt b s (modBr b f s) :=
  fun j h => brAt_modBr_ne b j f s h.symm

theorem others_modBrDyn (b : Nat) (f : BrDyn → BrDyn) (s : State) : others brDynAt b s (modBrDyn b f s) :=
  fun j h => brDynAt_modBrDyn_ne b j f s h.symm

theorem brAt_modBrDyn (b i : Nat) (f : BrDyn → BrDyn) (s : State) : brAt (modBrDyn b f s) i = brAt s i := rfl

theorem brDynAt_modBr (b i : Nat) (f : Br → Br) (s : State) : brDynAt (modBr b f s) i = brDynAt s i := rfl

theorem modBrDyn_modBr_effect (b : Nat) (g : BrDyn → BrDyn) (f : Br → Br) (s : State) :
    let t := modBrDyn b g (modBr b f s)
    brDynAt t b = g (brDynAt s b) ∧ brAt t b = f (brAt s b) ∧ others brDynAt b s t ∧ others brAt b s t :=
  ⟨brDynAt_modBrDyn_same b g _, brAt_modBr_same b f s, others_modBrDyn b g _, others_modBr b f s⟩

theorem driveNow_mot (s0 : State) (b : Nat) (s : State) : (driveNow s0 b s).mot = s.mot :=
  same_of_blank (driveNow_frame (only [.pow]) rfl s0 b s) .mot rfl

theorem setDemands_mot (b : Nat) (s : State) : (setDemands b s).mot = s.mot :=
  same_of_blank (setDemands_frame (only [.pow]) rfl b s) .mot rfl

theorem tpSpent_mot (b : Nat) (s : State) : (tpSpent b s).mot = s.mot :=
  same_of_blank (tpSpent_frame (only [.tp]) rfl b s) .mot rfl

theorem bridgeEvt_mot (code b : Nat) (cur : Int) (s : State) : (bridgeEvt code b cur s).mot = s.mot :=
  emit_mot _ _ _ _ _ _ _ _

/-! The end of a reversal brake (R178) and the off-phase of the regulation (R179). -/

theorem reversalBrakeEnd_effect (b : Nat) (s : State) (h : b < 6) : ∃ t, exec (.reversalBrakeEnd b) s = .next t ∧
    (∀ n, (brDynAt s b).seq = .dirBrake n → (brDynAt t b).seq = .dirReady n) ∧
    ((∀ n, (brDynAt s b).seq ≠ .dirBrake n) → (brDynAt t b).seq = (brDynAt s b).seq) ∧
    others brDynAt b s t ∧ t.pow = s.pow := by
  refine ⟨_, guardUnit_of_ok (decide_eq_true h) _, fun n hn => ?_, fun hn => ?_, others_modBrDyn b _ s, rfl⟩ <;>
    rw [brDynAt_modBrDyn_same]
  · rw [hn]
  · split
    case h_1 n hq => exact absurd hq (hn n)
    case h_2 => rfl

theorem regulationChop_effect (b : Nat) (s : State) (h : b < 6) : ∃ t, exec (.regulationChop b) s = .next t ∧
    (if (brAt s b).iReg ≠ 0 ∧ paired s b = true ∧ (effDrive s b = 1 ∨ effDrive s b = 2) ∧ blanked s b = true then
      brDynAt t b = { brDynAt s b with
        chopMin := s.tide.counter + padMin s (64 + (brAt s b).hbA)
        chopEnd := max (s.tide.counter + padMin s (64 + (brAt s b).hbA))
          (s.tide.counter + toPeriod s (64 + (brAt s b).hbA)) } ∧
      brAt t b = { brAt s b with regAct := true } ∧ others brDynAt b s t ∧ others brAt b s t
    else t = s) := by
  refine ⟨_, guardUnit_of_ok (decide_eq_true h) _, ?_⟩
  dsimp only
  split
  case isTrue => exact modBrDyn_modBr_effect b _ _ s
  case isFalse => rfl

/-! The count of a ripple (R180): where no reversal runs and pinch detection is off, the judgement that follows it only
forgets the history of R185. -/

theorem armed_of_pinch_off {s : State} {b : Nat} (h : (brAt s b).pinchEn = false) : armed s b = false := by
  simp [armed, h]

theorem judge_of_pinch_off {s : State} {b : Nat} (hp : (brAt s b).pinchEn = false) (hq : (brDynAt s b).seq = .none)
    (iv : Nat) (cur : Int) :
    reversalMoved b (pinchJudge b iv cur s) = modBrDyn b (fun d => { d with hist := [] }) s := by
  have hj : pinchJudge b iv cur s = modBrDyn b (fun d => { d with hist := [] }) s :=
    if_pos (by rw [armed_of_pinch_off hp]; rfl)
  have hn : (brDynAt (modBrDyn b (fun d => { d with hist := [] }) s) b).seq ≠ .reversing := by
    rw [brDynAt_modBrDyn_same, hq]
    decide
  rw [hj]
  exact if_neg (fun hr => hn hr.1)

theorem motion_modBr {b : Nat} {f : Br → Br} {s : State} (h : (f (brAt s b)).drive = (brAt s b).drive) :
    motion (modBr b f s) b = motion s b := by
  unfold motion effDrive
  rw [brAt_modBr_same, h]
  rfl

theorem motion_modBrDyn {b : Nat} {g : BrDyn → BrDyn} {s : State} (hq : (g (brDynAt s b)).seq = (brDynAt s b).seq)
    (hl : (g (brDynAt s b)).lastDir = (brDynAt s b).lastDir) : motion (modBrDyn b g s) b = motion s b := by
  unfold motion effDrive
  rw [brDynAt_modBrDyn_same, hq, hl]
  rfl

theorem brAt_countRipple (b : Nat) (s : State) :
    brAt (countRipple b s) b = { brAt s b with pos := toS 32 (ofS 32 ((brAt s b).pos + motion s b)) } :=
  brAt_modBr_same b _ s

theorem others_countRipple (b : Nat) (s : State) : others brAt b s (countRipple b s) := others_modBr b _ s

/-- The interval `iv` is kept with the three before it. -/
def keepInterval (b iv : Nat) (s : State) : State :=
  modBrDyn b (fun d => { d with ivals := (iv :: d.ivals).take 4, accepted := min 4 (d.accepted + 1) }) s

/-- A ripple accepted at the interval `iv` is counted, with the speed `v` that it gives. -/
def acceptRipple (b iv : Nat) (v : Int) (s : State) : State :=
  countRipple b (modBr b (fun x => { x with inserted := 0, speed := v }) (keepInterval b iv s))

theorem brAt_acceptRipple (b iv : Nat) (v : Int) (s : State) : brAt (acceptRipple b iv v s) b = { brAt s b with
    inserted := 0, speed := v, pos := toS 32 (ofS 32 ((brAt s b).pos + motion s b)) } := by
  have hm : motion (keepInterval b iv s) b = motion s b := motion_modBrDyn rfl rfl
  rw [acceptRipple, brAt_countRipple, brAt_modBr_same, motion_modBr (by rfl), hm]
  rfl

theorem acceptRipple_dyns (b iv : Nat) (v : Int) (s : State) (i : Nat) :
    brDynAt (acceptRipple b iv v s) i = brDynAt (keepInterval b iv s) i := rfl

theorem brDynAt_acceptRipple (b iv : Nat) (v : Int) (s : State) : brDynAt (acceptRipple b iv v s) b =
    { brDynAt s b with ivals := (iv :: (brDynAt s b).ivals).take 4, accepted := min 4 ((brDynAt s b).accepted + 1) } := by
  rw [acceptRipple_dyns, keepInterval, brDynAt_modBrDyn_same]

theorem others_acceptRipple (b iv : Nat) (v : Int) (s : State) :
    others brDynAt b s (acceptRipple b iv v s) ∧ others brAt b s (acceptRipple b iv v s) := by
  refine ⟨fun j hj => ?_, fun j hj => ?_⟩
  · rw [acceptRipple_dyns]
    exact others_modBrDyn b _ s j hj
  · exact (others_countRipple b _ j hj).trans (others_modBr b _ (keepInterval b iv s) j hj)

theorem exec_rippleCrossing {b : Nat} (s : State) (h : b < 6) (iv exc mean : Nat) (cur : Int) :
    ∃ v, exec (.rippleCrossing b iv cur exc mean) s = .next
      (if !((brAt s b).rippleEn && paired s b && (brDynAt s b).counting) || !excursionOk s b exc mean ||
          !gateOk (brParAt s b) (brDynAt s b) iv then s
        else reversalMoved b (pinchJudge b iv cur (acceptRipple b iv v s))) :=
  ⟨_, guardUnit_of_ok (decide_eq_true h) _⟩

theorem rippleCrossing_refused (b iv exc mean : Nat) (cur : Int) (s : State) (h : b < 6) :
    ∃ t, exec (.rippleCrossing b iv cur exc mean) s = .next t ∧
      (((brAt s b).rippleEn && paired s b && (brDynAt s b).counting) = false ∨ excursionOk s b exc mean = false ∨
        gateOk (brParAt s b) (brDynAt s b) iv = false → t = s) := by
  obtain ⟨v, hv⟩ := exec_rippleCrossing s h iv exc mean cur
  refine ⟨_, hv, fun hr => if_pos ?_⟩
  rcases hr with hr | hr | hr <;> rw [hr] <;> simp

theorem rippleCrossing_counted (b iv exc mean : Nat) (cur : Int) (s : State) (h : b < 6)
    (hc : (brAt s b).rippleEn = true ∧ paired s b = true ∧ (brDynAt s b).counting = true)
    (he : excursionOk s b exc mean = true) (hg : gateOk (brParAt s b) (brDynAt s b) iv = true)
    (hp : (brAt s b).pinchEn = false) (hq : (brDynAt s b).seq = .none) :
    ∃ t, exec (.rippleCrossing b iv cur exc mean) s = .next t ∧
      (brDynAt t b).ivals = (iv :: (brDynAt s b).ivals).take 4 ∧
      (brDynAt t b).accepted = min 4 ((brDynAt s b).accepted + 1) ∧ (brAt t b).inserted = 0 ∧
      (brAt t b).pos = toS 32 (ofS 32 ((brAt s b).pos + motion s b)) ∧ others brDynAt b s t ∧ others brAt b s t := by
  obtain ⟨v, hv⟩ := exec_rippleCrossing s h iv exc mean cur
  obtain ⟨hr, hb, hn⟩ := hc
  have hx := brAt_acceptRipple b iv v s
  have hd := brDynAt_acceptRipple b iv v s
  obtain ⟨hod, hox⟩ := others_acceptRipple b iv v s
  rw [if_neg (by simp [hr, hb, hn, he, hg]), judge_of_pinch_off (by rw [hx]; exact hp) (by rw [hd]; exact hq)] at hv
  refine ⟨_, hv, ?_⟩
  rw [brDynAt_modBrDyn_same, hd, brAt_modBrDyn, hx]
  exact ⟨rfl, rfl, rfl, rfl, fun j hj => (others_modBrDyn b _ _ j hj).trans (hod j hj), hox⟩

/-! A ripple inserted where none came (R180), short of the fourth in a row. -/

/-- A ripple is counted that was not seen. -/
def insertRipple (b : Nat) (s : State) : State :=
  modBr b (fun x => { x with inserted := sat 8 (x.inserted + 1) }) (countRipple b s)

theorem brAt_insertRipple {b : Nat} {s : State} (h : (brAt s b).inserted < 3) :
    brAt (insertRipple b s) b = { brAt s b with
      inserted := (brAt s b).inserted + 1, pos := toS 32 (ofS 32 ((brAt s b).pos + motion s b)) } := by
  have hs : sat 8 ((brAt s b).inserted + 1) = (brAt s b).inserted + 1 := Nat.min_eq_left (by omega)
  rw [insertRipple, brAt_modBr_same, brAt_countRipple, hs]

theorem others_insertRipple (b : Nat) (s : State) : others brAt b s (insertRipple b s) :=
  fun j hj => (others_modBr b _ _ j hj).trans (others_countRipple b s j hj)

theorem brDynAt_insertRipple (b i : Nat) (s : State) : brDynAt (insertRipple b s) i = brDynAt s i := rfl

theorem rippleInsertion_refused (b : Nat) (cur : Int) (s : State) (h : b < 6) :
    ∃ t, exec (.rippleInsertion b cur) s = .next t ∧
      (((brAt s b).rippleEn && paired s b && (brDynAt s b).counting) = false ∨ (brDynAt s b).accepted < 4 → t = s) := by
  refine ⟨_, guardUnit_of_ok (decide_eq_true h) _, fun hr => if_pos ?_⟩
  rcases hr with hr | hr
  · rw [hr]; rfl
  · simp [hr]

/-- The interval that an inserted ripple stands for: `gate_hi` of the predicted one. -/
def insertedInterval (s : State) (b : Nat) : Nat :=
  (brParAt s b).gateHi * sumN (brDynAt s b).ivals / (100 * (brDynAt s b).ivals.length)

theorem exec_rippleInsertion {b : Nat} {s : State} (h : b < 6)
    (hc : (brAt s b).rippleEn = true ∧ paired s b = true ∧ (brDynAt s b).counting = true)
    (ha : 4 ≤ (brDynAt s b).accepted) (hi : (brAt s b).inserted < 3) (cur : Int) : exec (.rippleInsertion b cur) s =
      .next (reversalMoved b (pinchJudge b (insertedInterval s b) cur (insertRipple b s))) := by
  obtain ⟨hr, hb, hn⟩ := hc
  have h4 : (brAt (insertRipple b s) b).inserted ≠ 4 := by
    rw [brAt_insertRipple hi]
    dsimp only
    omega
  refine (guardUnit_of_ok (decide_eq_true h) _).trans (congrArg _ ((if_neg ?_).trans (if_neg h4)))
  simp [hr, hb, hn, ha]

theorem rippleInsertion_counted (b : Nat) (cur : Int) (s : State) (h : b < 6)
    (hc : (brAt s b).rippleEn = true ∧ paired s b = true ∧ (brDynAt s b).counting = true)
    (ha : 4 ≤ (brDynAt s b).accepted) (hi : (brAt s b).inserted < 3) (hp : (brAt s b).pinchEn = false)
    (hq : (brDynAt s b).seq = .none) : ∃ t, exec (.rippleInsertion b cur) s = .next t ∧
      (brAt t b).inserted = (brAt s b).inserted + 1 ∧
      (brAt t b).pos = toS 32 (ofS 32 ((brAt s b).pos + motion s b)) ∧ (brDynAt t b).ivals = (brDynAt s b).ivals ∧
      (brDynAt t b).accepted = (brDynAt s b).accepted ∧ others brDynAt b s t ∧ others brAt b s t := by
  have hv := exec_rippleInsertion h hc ha hi cur
  have hx := brAt_insertRipple hi
  rw [judge_of_pinch_off (by rw [hx]; exact hp) (by rw [brDynAt_insertRipple]; exact hq)] at hv
  refine ⟨_, hv, ?_⟩
  rw [brDynAt_modBrDyn_same, brDynAt_insertRipple, brAt_modBrDyn, hx]
  exact ⟨rfl, rfl, rfl, rfl, others_modBrDyn b _ _, others_insertRipple b s⟩

/-! The end of the back-EMF (R182). -/

theorem exec_backEmfStop {b : Nat} (s : State) (h : b < 6) : exec (.backEmfStop b) s = .next
    (if !((brAt s b).rippleEn && paired s b) || !(decide (effDrive s b = 0) ||
        (decide (effDrive s b = 1 ∨ effDrive s b = 2) && decide (decayOf s b = 2))) then s
      else modBrDyn b (fun d => { d with counting := false, accepted := 0, ivals := [] })
        (modBr b (fun x => { x with speed := 0 }) s)) :=
  guardUnit_of_ok (decide_eq_true h) _

theorem backEmfStop_stops (b : Nat) (s : State) (h : b < 6) (hr : ((brAt s b).rippleEn && paired s b) = true)
    (hd : effDrive s b = 0 ∨ ((effDrive s b = 1 ∨ effDrive s b = 2) ∧ decayOf s b = 2)) :
    ∃ t, exec (.backEmfStop b) s = .next t ∧
      brDynAt t b = { brDynAt s b with counting := false, accepted := 0, ivals := [] } ∧
      brAt t b = { brAt s b with speed := 0 } ∧ others brDynAt b s t ∧ others brAt b s t := by
  refine ⟨_, exec_backEmfStop s h, ?_⟩
  rw [if_neg (by rw [hr]; simpa [Decidable.or_iff_not_imp_left] using hd)]
  exact modBrDyn_modBr_effect b _ _ s

theorem backEmfStop_refused (b : Nat) (s : State) (h : b < 6)
    (hd : ((brAt s b).rippleEn && paired s b) = false ∨
      (effDrive s b ≠ 0 ∧ ((effDrive s b ≠ 1 ∧ effDrive s b ≠ 2) ∨ decayOf s b ≠ 2))) :
    ∃ t, exec (.backEmfStop b) s = .next t ∧ t = s := by
  refine ⟨_, exec_backEmfStop s h, if_pos ?_⟩
  rcases hd with hr | ⟨h0, h1 | h1⟩
  · rw [hr]; rfl
  · simp [h0, h1]
  · simp [h0, h1]

/-! A stall (R184): the flag is set before the bridge stops, the detection comes last. -/

theorem brAt_bridgeStop (b : Nat) (s : State) : brAt (bridgeStop b s) b = { brAt s b with drive := 0 } := by
  rw [bridgeStop, brAt_of_mot ((driveNow_mot _ _ _).trans ((setDemands_mot _ _).trans (tpSpent_mot _ _))),
    brAt_modBr_same, brAt_modBrDyn]

/-- A stall ends a reversal in its hold, and stops any other drive (R186, R190). -/
def stallStop (b : Nat) (s : State) : State :=
  if (brDynAt s b).seq = .reversing then driveNow s b (modBrDyn b (fun d => { d with seq := .revHold }) s)
  else bridgeStop b s

theorem stallStop_frame (L : Region → Bool) (hTp : L .tp = true) (hPow : L .pow = true) (hMot : L .mot = true) (b : Nat)
    (s : State) : blank L (stallStop b s) = blank L s := by
  unfold stallStop
  split
  case isTrue => exact (driveNow_frame L hPow _ _ _).trans (modBrDyn_frame L hMot _ _ _)
  case isFalse => exact bridgeStop_frame L hTp hPow hMot b s

theorem stalled_stallStop (b : Nat) (s : State) : (brAt (stallStop b s) b).stalled = (brAt s b).stalled := by
  unfold stallStop
  split
  case isTrue => rw [brAt_of_mot (driveNow_mot _ _ _), brAt_modBrDyn]
  case isFalse => rw [brAt_bridgeStop]

/-- The mean current above which a slow motor counts as stalled: half of `i_reg`, or 2 A. -/
def stallLoad (s : State) (b : Nat) : Int :=
  if (brAt s b).iReg = 0 then 2000000 else ((brAt s b).iReg : Int) * 125000

/-- The bridge as a stall leaves it, before the detection. -/
def stallBridge (b : Nat) (cur : Int) (s : State) : State :=
  bridgeEvt 0x1303 b cur (stallStop b (modBr b (fun x => { x with stalled := true }) s))

theorem stallBridge_frame (L : Region → Bool) (hWire : L .wire = true) (hTp : L .tp = true) (hPow : L .pow = true)
    (hMot : L .mot = true) (b : Nat) (cur : Int) (s : State) : blank L (stallBridge b cur s) = blank L s :=
  (bridgeEvt_frame L hWire _ _ _ _).trans ((stallStop_frame L hTp hPow hMot b _).trans (modBr_frame L hMot _ _ _))

theorem stallBridge_flag (b : Nat) (cur : Int) (s : State) : (brAt (stallBridge b cur s) b).stalled = true := by
  rw [stallBridge, brAt_of_mot (bridgeEvt_mot _ _ _ _), stalled_stallStop, brAt_modBr_same]

theorem stall_effect (b : Nat) (cur : Int) (s : State) (h : b < 6) : ∃ t, exec (.stall b cur) s = .next t ∧
    (if (effDrive s b = 1 ∨ effDrive s b = 2) ∧ (brAt s b).rippleEn = true ∧
        (brAt s b).speed.natAbs < 16 * (brParAt s b).stallSp ∧ stallLoad s b < cur then
      (brAt t b).stalled = true ∧ detected 0x00F false s t
    else t = s) := by
  have he : exec (.stall b cur) s = .next
      (if (effDrive s b = 1 ∨ effDrive s b = 2) ∧ (brAt s b).rippleEn = true ∧
          (brAt s b).speed.natAbs < 16 * (brParAt s b).stallSp ∧ stallLoad s b < cur then
        detect 0x00F false (stallBridge b cur s)
      else s) := guardUnit_of_ok (decide_eq_true h) _
  refine ⟨_, he, ?_⟩
  split
  case isTrue =>
    have hf := stallBridge_frame (only [.wire, .tp, .pow, .mot]) rfl rfl rfl rfl b cur s
    refine ⟨?_, detected_after hf rfl rfl rfl _ _⟩
    rw [brAt_of_mot (detect_mot _ _ _), stallBridge_flag]
  case isFalse => rfl

/-! The end of a pinch brake and of a hold (R184, R186). -/

/-- The bridge drives the opening direction (R186, step 2). -/
def driveOpening (b : Nat) (s : State) : State :=
  let s := driveNow s b (modBrDyn b (fun d => { d with seq := .reversing }) s)
  if paired s b then modPad (64 + (brAt s b).hbA) (fun p => { p with now := (brParAt s b).revDuty }) s else s

theorem brDynAt_driveOpening (b i : Nat) (s : State) :
    brDynAt (driveOpening b s) i = brDynAt (modBrDyn b (fun d => { d with seq := .reversing }) s) i := by
  refine Eq.trans ?_ (brDynAt_of_mot (driveNow_mot s b _) i)
  unfold driveOpening
  dsimp only
  split <;> rfl

theorem pinchBrakeEnd_effect (b : Nat) (s : State) (h : b < 6) : ∃ t, exec (.pinchBrakeEnd b) s = .next t ∧
    ((brDynAt s b).seq ≠ .pinchBrake → t = s) ∧
    ((brDynAt s b).seq = .pinchBrake → (brDynAt t b).seq = .reversing ∧ others brDynAt b s t) := by
  have he : exec (.pinchBrakeEnd b) s = .next (if (brDynAt s b).seq = .pinchBrake then driveOpening b s else s) :=
    guardUnit_of_ok (decide_eq_true h) _
  refine ⟨_, he, fun hq => if_neg hq, fun hq => ?_⟩
  rw [if_pos hq]
  refine ⟨?_, fun j hj => ?_⟩ <;> rw [brDynAt_driveOpening]
  · rw [brDynAt_modBrDyn_same]
  · exact others_modBrDyn b _ s j hj

/-- The hold after a stall ends. -/
def endStallHold (b : Nat) (s : State) : State := driveNow s b (modBrDyn b (fun d => { d with seq := .none }) s)

theorem seq_endStallHold (b : Nat) (s : State) : (brDynAt (endStallHold b s) b).seq = .none := by
  rw [endStallHold, brDynAt_of_mot (driveNow_mot _ _ _), brDynAt_modBrDyn_same]

/-- The hold after a reversal ends in COAST. -/
def endReversal (b : Nat) (cur : Int) (s : State) : State := bridgeEvt 0x1302 b cur (driveNow s b (cutSequence b s))

theorem endReversal_mot (b : Nat) (cur : Int) (s : State) : (endReversal b cur s).mot =
    (modBr b (fun x => { x with drive := 0 }) (modBrDyn b (fun d => { d with seq := .none }) s)).mot :=
  (bridgeEvt_mot _ _ _ _).trans ((driveNow_mot _ _ _).trans (setDemands_mot _ _))

theorem endReversal_effect (b : Nat) (cur : Int) (s : State) :
    (brDynAt (endReversal b cur s) b).seq = .none ∧ (brAt (endReversal b cur s) b).drive = 0 := by
  rw [brDynAt_of_mot (endReversal_mot b cur s), brAt_of_mot (endReversal_mot b cur s), brAt_modBr_same,
    brDynAt_modBr, brDynAt_modBrDyn_same]
  exact ⟨rfl, rfl⟩

theorem exec_brakeHoldEnd {b : Nat} (cur : Int) (s : State) (h : b < 6) : exec (.brakeHoldEnd b cur) s = .next
    (if (brDynAt s b).seq = .stallHold then endStallHold b s
      else if (brDynAt s b).seq = .revHold then endReversal b cur s else s) := by
  refine (guardUnit_of_ok (decide_eq_true h) _).trans (congrArg _ ?_)
  split
  case h_1 hq => rw [if_pos hq]; rfl
  case h_2 hq => rw [if_neg (by rw [hq]; decide), if_pos hq]; rfl
  case h_3 hs hr => rw [if_neg hs, if_neg hr]

theorem brakeHoldEnd_effect (b : Nat) (cur : Int) (s : State) (h : b < 6) :
    ∃ t, exec (.brakeHoldEnd b cur) s = .next t ∧
      ((brDynAt s b).seq ≠ .stallHold ∧ (brDynAt s b).seq ≠ .revHold → t = s) ∧
      ((brDynAt s b).seq = .stallHold ∨ (brDynAt s b).seq = .revHold →
        (brDynAt t b).seq = .none ∧ ((brDynAt s b).seq = .revHold → (brAt t b).drive = 0)) := by
  refine ⟨_, exec_brakeHoldEnd cur s h, fun ⟨hs, hr⟩ => ?_, fun hq => ?_⟩
  · rw [if_neg hs, if_neg hr]
  · rcases hq with hs | hr
    · rw [if_pos hs]
      exact ⟨seq_endStallHold b s, fun hr => absurd (hs.symm.trans hr) (by decide)⟩
    · obtain ⟨hn, hd⟩ := endReversal_effect b cur s
      rw [if_neg (by rw [hr]; decide), if_pos hr]
      exact ⟨hn, fun _ => hd⟩

/-- Settles O22: each command is a change of its own bridge's records made when its condition holds; the terminals, the
demands and the events that go with it are of other parts of the state. -/
theorem motionOfABridge : Obligations.MotionOfABridge :=
  ⟨reversalBrakeEnd_effect, regulationChop_effect, rippleCrossing_refused, rippleCrossing_counted,
    rippleInsertion_refused, rippleInsertion_counted, backEmfStop_stops, backEmfStop_refused, stall_effect,
    pinchBrakeEnd_effect, brakeHoldEnd_effect⟩

end Sys2Proof.Machine
end

section
/-! The silence timers of the field outputs (O13), the classification hold, the output drivers and the sensor supplies
(O23). -/
open Sys2Proof
namespace Sys2Proof.Machine

/-! What a unit of the field I/O block holds after each operation on the state. -/

theorem foAt_of_fio {s t : State} (h : t.fio = s.fio) (k : Nat) : foAt t k = foAt s k := by
  unfold foAt
  rw [h]

theorem supAt_of_fio {s t : State} (h : t.fio = s.fio) (j : Nat) : supAt t j = supAt s j := by
  unfold supAt
  rw [h]

theorem others_modFo (k : Nat) (f : Fo → Fo) (s : State) : others foAt k s (modFo k f s) :=
  fun j h => foAt_modFo_ne k j f s h.symm

theorem others_modSup (j : Nat) (f : Sup → Sup) (s : State) : others supAt j s (modSup j f s) :=
  fun i h => supAt_modSup_ne j i f s h.symm

theorem others_modDi (i : Nat) (f : Di → Di) (s : State) : others diAt i s (modDi i f s) :=
  fun j h => diAt_modDi_ne i j f s h.symm

/-- An output that takes a state keeps its settings, its marks and its silence timer. -/
theorem foAt_foSet (k : Nat) (v : Bool) (s : State) : ∃ c n,
    foAt (foSet k v s) k = { foAt s k with out := v, changed := c, offAt := n } := by
  unfold foSet
  split
  case isTrue h => exact ⟨(foAt s k).changed, (foAt s k).offAt, by rw [← h]⟩
  case isFalse => exact ⟨_, _, foAt_modFo_same k _ s⟩

theorem others_foSet_modFo (k : Nat) (v : Bool) (f : Fo → Fo) (s : State) :
    others foAt k s (foSet k v (modFo k f s)) :=
  fun j hj => (foAt_foSet_ne k j v _ hj).trans (others_modFo k f s j hj)

/-! The refresh of a stretched cycle (R210). -/

theorem foAt_refreshAll {k : Nat} (h : k < 16) (s : State) : foAt (refreshAll s) k =
    { foAt s k with armed := true, fresh := true, last := s.cyc.number } := by
  obtain ⟨u, hu, hn, ht⟩ := foldl_at_keep (get := foAt) (keep := fun s => s.cyc.number) (h := fun s k => foRefresh k s)
    (fun s i j hj => others_modFo i _ s j hj) (fun _ _ => rfl) (List.range 16) List.nodup_range k (List.mem_range.mpr h) s
  have hr : foAt (foRefresh k u) k = { foAt u k with armed := true, fresh := true, last := u.cyc.number } :=
    foAt_modFo_same k _ u
  rw [refreshAll, ht, hr, hu, hn]

theorem exec_stretchRefresh {s : State} (h : s.cyc.running = true) : exec .stretchRefresh s = .next
    (if s.fv.fw = true ∧ s.cyc.timer = .rephase ∧ s.cyc.overMask = 0 then refreshAll s else s) :=
  congrArg _ (if_pos h)

/-- Settles O13: the refresh goes over the outputs one by one and leaves the number of the cycle alone. -/
theorem silenceTimersRefreshed : Obligations.SilenceTimersRefreshed := by
  intro s h
  refine ⟨_, exec_stretchRefresh h, ?_⟩
  split
  · exact fun k hk => foAt_refreshAll hk s
  · rfl

/-! The classification hold (R200). -/

theorem clsHoldOn_keeps {γ : Type} {keep : State → γ} (hd : ∀ i f s, keep (modDi i f s) = keep s) (s : State) :
    keep (clsHoldOn s) = keep (modFio (fun f => { f with clsHold := true }) s) :=
  foldl_keep (keep := keep) (fun s i => hd i _ s) _ _

theorem diAt_clsHoldOn {i : Nat} (h : i < 32) (s : State) :
    diAt (clsHoldOn s) i = { diAt s i with cand := 7, candN := 0 } := by
  obtain ⟨u, hu, ht⟩ := foldl_at (get := diAt) (h := fun s i => modDi i (fun d => { d with cand := 7, candN := 0 }) s)
    (fun s i j hj => others_modDi i _ s j hj) (List.range 32) List.nodup_range i (List.mem_range.mpr h)
    (modFio (fun f => { f with clsHold := true }) s)
  rw [clsHoldOn, ht, diAt_modDi_same, hu]
  rfl

theorem clsHoldEnter_effect (s : State) : ∃ t, exec (.clsHoldEnter) s = .next t ∧
    t.fio.clsHold = true ∧ (∀ i, i < 32 → diAt t i = { diAt s i with cand := 7, candN := 0 }) ∧ t.fio.ai = s.fio.ai :=
  ⟨clsHoldOn s, rfl, clsHoldOn_keeps (keep := fun s => s.fio.clsHold) (fun _ _ _ => rfl) s,
    fun _ hi => diAt_clsHoldOn hi s, clsHoldOn_keeps (keep := fun s => s.fio.ai) (fun _ _ _ => rfl) s⟩

theorem clsHoldExit_effect (s : State) : ∃ t, exec (.clsHoldExit) s = .next t ∧
    t.fio = { s.fio with clsHold := false, clsFrom := s.tide.counter } := ⟨_, rfl, rfl⟩

/-! The drivers of the field outputs (R206). -/

theorem foThermalShutdown_effect (k : Nat) (s : State) (h : k < 16) (hk : s.pwr.keeper = true) :
    ∃ t, exec (.foThermalShutdown k) s = .next t ∧
      (foAt t k).out = false ∧ (foAt t k).thermal = true ∧ (foAt t k).cond = true ∧ others foAt k s t := by
  refine ⟨_, guardUnit_of_ok (decide_eq_true h) _, ?_⟩
  rw [ite_powered hk]
  obtain ⟨c, n, hf⟩ := foAt_foSet k false (modFo k (fun f => { f with thermal := true, cond := true }) s)
  rw [hf, foAt_modFo_same]
  exact ⟨rfl, rfl, rfl, others_foSet_modFo k _ _ s⟩

/-- An output off for a fault, and not silent, is to be off whatever governs it. -/
theorem foWant_of_faultOff {s : State} {k : Nat} (hs : (foAt s k).silent = false) (hf : (foAt s k).faultOff = true) :
    foWant s k = false := by
  simp [foWant, hs, hf]

/-- An output silenced to a safe value OFF is to be off. -/
theorem foWant_of_safe_off {s : State} {k : Nat} (hs : (foAt s k).silent = true) (h0 : (foAt s k).safe = 0) :
    foWant s k = false := by
  simp [foWant, hs, h0]

theorem foThermalRestart_effect (k : Nat) (s : State) (h : k < 16) : ∃ t, exec (.foThermalRestart k) s = .next t ∧
    (foAt t k).thermal = false ∧ (foAt t k).cond = false ∧ others foAt k s t ∧
      ((foAt s k).silent = false → (foAt s k).faultOff = true → (foAt t k).out = false) := by
  let u := modFo k (fun f => { f with thermal := false, cond := false }) s
  have hu : foAt u k = { foAt s k with thermal := false, cond := false } := foAt_modFo_same k _ s
  refine ⟨foSet k (foWant u k) u, guardUnit_of_ok (decide_eq_true h) _, ?_⟩
  obtain ⟨c, n, hf⟩ := foAt_foSet k (foWant u k) u
  rw [hf, hu]
  refine ⟨rfl, rfl, others_foSet_modFo k _ _ s, fun hs ho => ?_⟩
  exact foWant_of_faultOff (by rw [hu]; exact hs) (by rw [hu]; exact ho)

theorem foLimitHeld_effect (k : Nat) (s : State) (h : k < 16) (hk : s.pwr.keeper = true) :
    ∃ t, exec (.foLimitHeld k) s = .next t ∧ foAt t k = { foAt s k with cond := true } ∧ others foAt k s t := by
  refine ⟨_, guardUnit_of_ok (decide_eq_true h) _, ?_⟩
  rw [ite_powered hk]
  exact ⟨foAt_modFo_same k _ s, others_modFo k _ s⟩

/-! The expiry of a silence timer (R209, R211). -/

/-- The output as its expired timer marks it, before it goes to its safe value. -/
def markSilent (k : Nat) (s : State) : State :=
  modFo k (fun f => { f with silent := true, fresh := false, expiry := f.last, held := f.out }) s

theorem foAt_markSilent (k : Nat) (s : State) : foAt (markSilent k s) k =
    { foAt s k with silent := true, fresh := false, expiry := (foAt s k).last, held := (foAt s k).out } :=
  foAt_modFo_same k _ s

/-- The output as SILENCE_EXPIRY leaves it, before the detection is counted. -/
def silence (k : Nat) (s : State) : State := foSet k (foWant (markSilent k s) k) (markSilent k s)

theorem silence_frame (L : Region → Bool) (hFio : L .fio = true) (k : Nat) (s : State) :
    blank L (silence k s) = blank L s := by
  rw [silence, foSet_frame L hFio, markSilent, modFo_frame L hFio]

theorem foAt_silence (k : Nat) (s : State) : (foAt (silence k s) k).silent = true ∧
    ((foAt s k).safe = 0 → (foAt (silence k s) k).out = false) := by
  obtain ⟨c, n, hf⟩ := foAt_foSet k (foWant (markSilent k s) k) (markSilent k s)
  rw [silence, hf]
  refine ⟨?_, fun h0 => foWant_of_safe_off ?_ ?_⟩ <;> rw [foAt_markSilent]
  exact h0

theorem exec_silenceExpiry {k : Nat} (s : State) (h : k < 16) : exec (.silenceExpiry k) s = .next
    (if (foAt s k).armed = true ∧ (foAt s k).silent = false then detect 0x040 false (silence k s) else s) := by
  refine (guardUnit_of_ok (decide_eq_true h) _).trans (congrArg _ ?_)
  cases (foAt s k).armed <;> cases (foAt s k).silent <;> rfl

theorem silenceExpiry_effect (k : Nat) (s : State) (h : k < 16) : ∃ t, exec (.silenceExpiry k) s = .next t ∧
    (if (foAt s k).armed = true ∧ (foAt s k).silent = false then
      (foAt t k).silent = true ∧ others foAt k s t ∧ detected 0x040 false s t ∧
        ((foAt s k).safe = 0 → (foAt t k).out = false)
    else t = s) := by
  refine ⟨_, exec_silenceExpiry s h, ?_⟩
  split
  · have hd : ∀ j, foAt (detect 0x040 false (silence k s)) j = foAt (silence k s) j := foAt_of_fio (detect_fio _ _ _)
    obtain ⟨hs, ho⟩ := foAt_silence k s
    rw [hd]
    exact ⟨hs, fun j hj => (hd j).trans (others_foSet_modFo k _ _ s j hj),
      detected_after (silence_frame (only [.fio]) rfl k s) rfl rfl rfl 0x040 false, ho⟩
  · rfl

/-! The sensor supplies (R217). -/

/-- A supply as a fault `mark` turns it off. -/
def supTripped (mark : Sup → Sup) (x : Sup) : Sup :=
  { mark x with on := false, wait := true, bad := true, retries := sat 8 (x.retries + 1), latched := x.latched || decide (6 ≤ x.retries + 1) }

theorem supOff_of_off {j : Nat} {s : State} (h : (supAt s j).on = false) (cause : Nat) (mark : Sup → Sup) :
    supOff j cause mark s = s := by
  simp [supOff, h]

/-- A supply that is on and turns off for a fault: its own record, and a detection. -/
theorem supOff_of_on {j : Nat} {s : State} (h : (supAt s j).on = true) (cause : Nat) (mark : Sup → Sup) :
    supAt (supOff j cause mark s) j = supTripped mark (supAt s j) ∧ others supAt j s (supOff j cause mark s) ∧
      detected 0x044 false s (supOff j cause mark s) := by
  let u := modSup j (supTripped mark) s
  have he : supOff j cause mark s = detect 0x044 false (emit 0x1602 (0x10 + j) u (cause := cause)
      (flags := flag 1 (supAt u j).latched) (value := ((supAt u j).i : Int))) := if_neg (by simp [h])
  have hu : ∀ i, supAt (supOff j cause mark s) i = supAt u i := by
    rw [he]
    exact supAt_of_fio ((detect_fio _ _ _).trans (emit_fio _ _ _ _ _ _ _ _))
  refine ⟨(hu j).trans (supAt_modSup_same j _ s), fun i hi => (hu i).trans (others_modSup j _ s i hi), ?_⟩
  rw [he]
  exact detected_detect ((emit_saf _ _ _ _ _ _ _ _).trans rfl) (congrArg Cyc.number (emit_cyc _ _ _ _ _ _ _ _)) 0x044 false

/-- The commands that turn a supply off differ in the mark `p` they leave. -/
theorem supOff_effect (j cause : Nat) {mark : Sup → Sup} {p : Sup → Prop} (hp : ∀ x, p (supTripped mark x)) (s : State) :
    if (supAt s j).on = true then
      (supAt (supOff j cause mark s) j).on = false ∧ p (supAt (supOff j cause mark s) j) ∧
        (supAt (supOff j cause mark s) j).retries = sat 8 ((supAt s j).retries + 1) ∧
        (supAt (supOff j cause mark s) j).latched = ((supAt s j).latched || decide (6 ≤ (supAt s j).retries + 1)) ∧
        others supAt j s (supOff j cause mark s) ∧ detected 0x044 false s (supOff j cause mark s)
    else supOff j cause mark s = s := by
  split
  case isTrue h =>
    obtain ⟨hx, ho, hd⟩ := supOff_of_on h cause mark
    rw [hx]
    exact ⟨rfl, hp _, rfl, rfl, ho, hd⟩
  case isFalse h => exact supOff_of_off (Bool.eq_false_iff.mpr h) cause mark

theorem supLimit_effect (j : Nat) (s : State) (h : j < 4) : ∃ t, exec (.supLimit j) s = .next t ∧
    (if (supAt s j).on = true then (supAt t j).on = false ∧ (supAt t j).limit = true ∧
        (supAt t j).retries = sat 8 ((supAt s j).retries + 1) ∧
        (supAt t j).latched = ((supAt s j).latched || decide (6 ≤ (supAt s j).retries + 1)) ∧
        others supAt j s t ∧ detected 0x044 false s t
      else t = s) :=
  ⟨_, guardUnit_of_ok (decide_eq_true h) _, supOff_effect j 1 (p := fun x => x.limit = true) (fun _ => rfl) s⟩

theorem supShortBat_effect (j : Nat) (s : State) (h : j < 4) : ∃ t, exec (.supShortBat j) s = .next t ∧
    (if (supAt s j).on = true then (supAt t j).on = false ∧ (supAt t j).short = true ∧
        (supAt t j).retries = sat 8 ((supAt s j).retries + 1) ∧
        (supAt t j).latched = ((supAt s j).latched || decide (6 ≤ (supAt s j).retries + 1)) ∧
        others supAt j s t ∧ detected 0x044 false s t
      else t = s) :=
  ⟨_, guardUnit_of_ok (decide_eq_true h) _, supOff_effect j 2 (p := fun x => x.short = true) (fun _ => rfl) s⟩

theorem supThermal_effect (j : Nat) (s : State) (h : j < 4) : ∃ t, exec (.supThermal j) s = .next t ∧
    (if (supAt s j).on = true then (supAt t j).on = false ∧ (supAt t j).thermal = true ∧
        (supAt t j).retries = sat 8 ((supAt s j).retries + 1) ∧
        (supAt t j).latched = ((supAt s j).latched || decide (6 ≤ (supAt s j).retries + 1)) ∧
        others supAt j s t ∧ detected 0x044 false s t
      else t = s) :=
  ⟨_, guardUnit_of_ok (decide_eq_true h) _, supOff_effect j 3 (p := fun x => x.thermal = true) (fun _ => rfl) s⟩

theorem supRetry_effect (j : Nat) (s : State) (h : j < 4) : ∃ t, exec (.supRetry j) s = .next t ∧
    supAt t j = { supAt s j with
      wait := false, on := (supAt s j).on || ((supAt s j).wait && supAllowed s (supAt s j)) } ∧ others supAt j s t :=
  ⟨_, guardUnit_of_ok (decide_eq_true h) _, supAt_modSup_same j _ s, others_modSup j _ s⟩

theorem supClean_effect (j : Nat) (s : State) (h : j < 4) : ∃ t, exec (.supClean j) s = .next t ∧
    (if (supAt s j).on then supAt t j = { supAt s j with retries := 0 } ∧ others supAt j s t else t = s) := by
  refine ⟨_, guardUnit_of_ok (decide_eq_true h) _, ?_⟩
  split
  · exact ⟨supAt_modSup_same j _ s, others_modSup j _ s⟩
  · rfl

/-- Settles O23: each command is a change of its own unit's record under its condition; an output that turns takes only
its state with it, and the detection comes last. -/
theorem fieldOutputsAndSupplies : Obligations.FieldOutputsAndSupplies :=
  ⟨clsHoldEnter_effect, clsHoldExit_effect, foThermalShutdown_effect, foThermalRestart_effect, foLimitHeld_effect,
    silenceExpiry_effect, supLimit_effect, supShortBat_effect, supThermal_effect, supRetry_effect, supClean_effect⟩

end Sys2Proof.Machine
end

section
/-! The wake sources, the heartbeat, the path to sleep, the loss of the boardnet and RST_N (O30). -/
open Sys2Proof
namespace Sys2Proof.Machine

/-! The registration of a wake (R286, R582). -/

theorem awakeAt_of_awakes {s t : State} (h : t.pwr.awakes = s.pwr.awakes) (i : Nat) : awakeAt t i = awakeAt s i := by
  unfold awakeAt
  rw [h]

/-- The cause of the next start once a wake of source `src` is registered in SLEEP: the first one stands, and its source
reads 10 within 200 us of the entry. -/
def startCause (src det : Nat) (s : State) : Option (Nat × Nat) :=
  if s.pwr.cause.isSome then s.pwr.cause else some (if s.pwr.age < s.pwr.sleptAt + 200000 then 10 else src, det)

theorem forwardWake_pwr (s : State) : (forwardWake s).pwr = s.pwr :=
  same_of_blank (forwardWake_frame (only [.wire, .net]) rfl rfl s) .pwr rfl

/-- In SLEEP a wake is kept as the cause of the next start. -/
theorem regWake_asleep {s : State} (h : s.pwr.slept = true) (src det : Nat) :
    (regWake src det s).pwr.slept = true ∧ (regWake src det s).pwr.cause = startCause src det s := by
  have hp := forwardWake_pwr (modPwr (fun p => { p with lastWake := some s.pwr.age }) s)
  unfold regWake startCause
  dsimp only
  generalize forwardWake _ = u at hp ⊢
  simp only [hp, modPwr_pwr, h, if_true]
  split
  · simp only [hp, modPwr_pwr, h, and_self]
  · simp only [wakeRecord, hp, modPwr_pwr, h, and_self]

theorem setPowerState_awakes (n : Nat) (auto : Bool) (s : State) : (setPowerState n auto s).pwr.awakes = s.pwr.awakes := by
  unfold setPowerState
  dsimp only
  split
  · rfl
  · rw [emit_pwr, modPwr_pwr]

theorem abortSleep_awakes (src det : Nat) (s : State) : (abortSleep src det s).pwr.awakes = s.pwr.awakes := by
  unfold abortSleep vcoreReturn wakeRecord
  dsimp only
  rw [emit_pwr, modTp_pwr]
  split
  · rw [setPowerState_awakes, modPwr_pwr, modPwr_pwr]
  · split
    · rw [setPowerState_awakes, modPwr_pwr, modPwr_pwr]
    · rw [modPwr_pwr, setPowerState_awakes, modPwr_pwr, modPwr_pwr]

/-- A wake leaves the AWAKE inputs alone, whatever becomes of it. -/
theorem regWake_awakes (src det : Nat) (s : State) : (regWake src det s).pwr.awakes = s.pwr.awakes := by
  have hp : (forwardWake (modPwr (fun p => { p with lastWake := some s.pwr.age }) s)).pwr.awakes = s.pwr.awakes := by
    rw [forwardWake_pwr, modPwr_pwr]
  unfold regWake
  dsimp only
  generalize forwardWake _ = u at hp ⊢
  split
  · split
    · exact hp
    · rw [wakeRecord, modPwr_pwr, modPwr_pwr]
      exact hp
  · split
    · rw [abortSleep_awakes]
      exact hp
    · split
      · rw [modPwr_pwr]
        exact hp
      · exact hp

/-! The AWAKE inputs (R585). -/

/-- A fall of input `i` ends the reason it was for staying awake. -/
def awakeReason (i : Nat) (above : Bool) (s : State) : State :=
  if !above && (awakeAt s i).above then modPwr (fun p => { p with reasonAt := p.age }) s else s

theorem awakeReason_keeps (i : Nat) (above : Bool) (s : State) :
    (awakeReason i above s).pwr.awakes = s.pwr.awakes ∧ (awakeReason i above s).pwr.slept = s.pwr.slept := by
  unfold awakeReason
  split <;> exact ⟨rfl, rfl⟩

/-- Input `i` past its threshold, before any wake is registered. -/
def awakePassed (i v : Nat) (above : Bool) (s : State) : State :=
  modAwake i (fun a => { a with above := above, vIn := if (awakeReason i above s).pwr.slept then a.vIn else v })
    (awakeReason i above s)

theorem awakeAt_awakePassed (i v : Nat) (above : Bool) (s : State) : awakeAt (awakePassed i v above s) i =
    { awakeAt s i with above := above, vIn := if s.pwr.slept then (awakeAt s i).vIn else v } := by
  obtain ⟨ha, hs⟩ := awakeReason_keeps i above s
  rw [awakePassed, awakeAt_modAwake_same, hs, awakeAt_of_awakes ha]

theorem startCause_awakePassed (src det i v : Nat) (s : State) :
    startCause src det (awakePassed i v true s) = startCause src det s := rfl

/-- Input `i` stands above its threshold: in SLEEP an armed input wakes, on the way there any does. -/
def awakeRisen (i : Nat) (s : State) : State :=
  if s.pwr.slept then (if bitOf 4 s.pwr.wakeMask && (awakeAt s i).arm then regWake 7 i s else s)
  else if s.pwr.state = 3 then regWake 7 i s else s

theorem awakeAt_awakeRisen (i j : Nat) (s : State) : awakeAt (awakeRisen i s) j = awakeAt s j := by
  refine awakeAt_of_awakes ?_ j
  unfold awakeRisen
  split
  · split
    · exact regWake_awakes 7 i s
    · rfl
  · split
    · exact regWake_awakes 7 i s
    · rfl

theorem awakeRisen_armed {i : Nat} {s : State} (hs : s.pwr.slept = true) (hb : bitOf 4 s.pwr.wakeMask = true)
    (ha : (awakeAt s i).arm = true) : awakeRisen i s = regWake 7 i s := by
  rw [awakeRisen, if_pos hs, hb, ha, Bool.and_self, if_pos rfl]

theorem exec_awakeThreshold_fall {i : Nat} (h : i < 2) (v : Nat) (s : State) : exec (.awakeThreshold i v false) s = .next
    (if awakeFall (awakeAt s i) < v then s else awakePassed i v false s) := by
  refine (guardUnit_of_ok (decide_eq_true h) _).trans (congrArg _ ?_)
  simp only [Bool.false_eq_true, if_false, decide_eq_true_eq]
  exact ite_congr rfl (fun _ => rfl) (fun _ => rfl)

theorem exec_awakeThreshold_rise {i : Nat} (h : i < 2) (v : Nat) (s : State) : exec (.awakeThreshold i v true) s = .next
    (if v < awakeRise (awakeAt s i) then s else awakeRisen i (awakePassed i v true s)) := by
  refine (guardUnit_of_ok (decide_eq_true h) _).trans (congrArg _ ?_)
  simp only [if_true, decide_eq_true_eq]
  exact ite_congr rfl (fun _ => rfl) (fun _ => rfl)

theorem awakeThreshold_effect (i v : Nat) (above : Bool) (s : State) (h : i < 2) :
    ∃ t, exec (.awakeThreshold i v above) s = .next t ∧
      (above = true → v < awakeRise (awakeAt s i) → t = s) ∧ (above = false → awakeFall (awakeAt s i) < v → t = s) ∧
      ((above = true → awakeRise (awakeAt s i) ≤ v) → (above = false → v ≤ awakeFall (awakeAt s i)) →
        (awakeAt t i).above = above ∧ (s.pwr.slept = false → (awakeAt t i).vIn = v) ∧
        (s.pwr.slept = true → above = true → bitOf 4 s.pwr.wakeMask = true → (awakeAt s i).arm = true →
          t.pwr.cause = startCause 7 i s)) := by
  cases above with
  | false =>
    refine ⟨_, exec_awakeThreshold_fall h v s, (nomatch ·), fun _ hv => if_pos hv, fun _ hv => ?_⟩
    rw [if_neg (Nat.not_lt.mpr (hv rfl)), awakeAt_awakePassed]
    exact ⟨rfl, fun hs => by rw [hs]; rfl, fun _ => (nomatch ·)⟩
  | true =>
    refine ⟨_, exec_awakeThreshold_rise h v s, fun _ hv => if_pos hv, (nomatch ·), fun hv _ => ?_⟩
    rw [if_neg (Nat.not_lt.mpr (hv rfl)), awakeAt_awakeRisen, awakeAt_awakePassed]
    refine ⟨rfl, fun hs => by rw [hs]; rfl, fun hs _ hb ha => ?_⟩
    have hp : (awakeAt (awakePassed i v true s) i).arm = true := by
      rw [awakeAt_awakePassed]
      exact ha
    rw [awakeRisen_armed (s := awakePassed i v true s) hs hb hp, (regWake_asleep (s := awakePassed i v true s) hs 7 i).2]
    exact startCause_awakePassed 7 i i v s

/-! The wake timer and LIMP_N (R585). -/

theorem exec_wakeTimer (s : State) : exec .wakeTimer s = .next
    (if s.pwr.slept = true ∧ bitOf 5 s.pwr.wakeMask = true ∧ s.pwr.timer ≠ 0 ∧
      s.pwr.sleptAt + s.pwr.timer * nsPerSec ≤ s.pwr.age then regWake 8 0 s else s) := by
  refine congrArg _ (ite_congr (propext ?_) (fun _ => rfl) (fun _ => rfl))
  rw [Bool.and_eq_true, Bool.and_eq_true, decide_eq_true_eq, and_assoc]

theorem wakeTimer_effect (s : State) : ∃ t, exec (.wakeTimer) s = .next t ∧
    (s.pwr.slept = false ∨ bitOf 5 s.pwr.wakeMask = false ∨ s.pwr.timer = 0 ∨
      s.pwr.age < s.pwr.sleptAt + s.pwr.timer * nsPerSec → t = s) ∧
    (s.pwr.slept = true → bitOf 5 s.pwr.wakeMask = true → s.pwr.timer ≠ 0 →
      s.pwr.sleptAt + s.pwr.timer * nsPerSec ≤ s.pwr.age → t.pwr.cause = startCause 8 0 s) := by
  refine ⟨_, exec_wakeTimer s, fun hn => if_neg ?_, fun hs hb ht ha => ?_⟩
  · rintro ⟨hs, hb, ht, ha⟩
    rcases hn with h | h | h | h
    · exact absurd (hs.symm.trans h) (by decide)
    · exact absurd (hb.symm.trans h) (by decide)
    · exact ht h
    · exact Nat.not_lt.mpr ha h
  · rw [if_pos ⟨hs, hb, ht, ha⟩]
    exact (regWake_asleep hs 8 0).2

theorem regWake_sys (src det : Nat) (s : State) : (regWake src det s).sys = s.sys :=
  same_of_blank (regWake_frame (only [.wire, .tp, .net, .pwr]) rfl rfl rfl rfl src det s) .sys rfl

theorem limpWake_effect (s : State) : ∃ t, exec (.limpWake) s = .next t ∧
    t.sys.limpN = false ∧ (s.pwr.slept = false → s.pwr.state ≠ 3 → t.pwr = s.pwr) ∧
      (s.pwr.slept = true → t.pwr.cause = startCause 9 0 s) := by
  let u := modSys (fun v => { v with limpN := false }) s
  have he : exec .limpWake s = .next (if u.pwr.slept = true ∨ u.pwr.state = 3 then regWake 9 0 u else u) := rfl
  refine ⟨_, he, ?_, fun hs h3 => ?_, fun hs => ?_⟩
  · split
    · rw [regWake_sys]
      rfl
    · rfl
  · rw [if_neg]
    · rfl
    · rintro (h | h)
      · exact absurd (hs.symm.trans h) (by decide)
      · exact h3 h
  · rw [if_pos (.inl hs)]
    exact (regWake_asleep (s := u) hs 9 0).2

/-! The poll of the inputs (R201). -/

/-- An operation that leaves the state as it is at every element of a list leaves it so over the list. -/
theorem foldl_unmoved {f : State → Nat → State} {s : State} {l : List Nat} (h : ∀ k ∈ l, f s k = s) : l.foldl f s = s := by
  induction l with
  | nil => rfl
  | cons k l ih =>
    rw [List.foldl_cons, h k List.mem_cons_self]
    exact ih fun j hj => h j (List.mem_cons_of_mem k hj)

theorem pollInput_unarmed {s : State} {k : Nat} (h : (diAt s k).wakeEn = false) (v : List Nat) : pollInput v s k = s := by
  unfold pollInput
  dsimp only
  rw [h]
  rfl

/-- The device is in SLEEP and the next start has the cause `c`. -/
def Woken (c : Nat × Nat) (s : State) : Prop := s.pwr.slept = true ∧ s.pwr.cause = some c

theorem startCause_of_cause {c : Nat × Nat} {s : State} (h : s.pwr.cause = some c) (src det : Nat) :
    startCause src det s = some c := by
  rw [startCause, h]
  rfl

theorem regWake_woken {c : Nat × Nat} {s : State} (h : Woken c s) (src det : Nat) : Woken c (regWake src det s) := by
  obtain ⟨hs, hc⟩ := h
  obtain ⟨hs', hc'⟩ := regWake_asleep hs src det
  exact ⟨hs', hc'.trans (startCause_of_cause hc src det)⟩

theorem woken_modDi {c : Nat × Nat} {s : State} (h : Woken c s) (k : Nat) (f : Di → Di) : Woken c (modDi k f s) := h

/-- A further input that differs from its reference does not change the cause. -/
theorem pollInput_woken {c : Nat × Nat} {s : State} (h : Woken c s) (v : List Nat) (k : Nat) :
    Woken c (pollInput v s k) := by
  unfold pollInput
  dsimp only
  split
  · exact h
  · split
    · exact woken_modDi (woken_modDi h k _) k _
    · split
      · exact regWake_woken (woken_modDi (woken_modDi h k _) k _) 6 k
      · exact woken_modDi (woken_modDi h k _) k _

/-- An armed input that differs from its reference, at the first poll where one is enough, wakes. -/
theorem pollInput_wakes {v : List Nat} {s : State} {k : Nat} (hs : s.pwr.slept = true) (hf : s.fio.wakeConf = 1)
    (hc : s.pwr.cause = none) (he : (diAt s k).wakeEn = true)
    (hq : (diCompare (diAt s k) (elemOr 0 v k) != (diAt s k).invert) ≠ (diAt s k).wakeRef) (hn : (diAt s k).wakeN = 0) :
    Woken (if s.pwr.age < s.pwr.sleptAt + 200000 then 10 else 6, k) (pollInput v s k) := by
  let u := modDi k (fun d => { d with wakeN := d.wakeN + 1 })
    (modDi k (fun d => { d with level := diCompare (diAt s k) (elemOr 0 v k) }) s)
  have hu : (diAt u k).wakeN = u.fio.wakeConf := by
    rw [diAt_modDi_same, diAt_modDi_same]
    exact (congrArg (· + 1) hn).trans hf.symm
  have hw : pollInput v s k = regWake 6 k u := by
    unfold pollInput
    dsimp only
    rw [he, if_neg (by decide), if_neg hq, if_pos hu]
  obtain ⟨hs', hc'⟩ := regWake_asleep (s := u) hs 6 k
  rw [hw]
  refine ⟨hs', hc'.trans ?_⟩
  have hn : u.pwr.cause = none := hc
  rw [startCause, hn]
  rfl

theorem diWakePoll_refused (v : List Nat) (s : State) : ∃ t, exec (.diWakePoll v) s = .next t ∧
    (s.pwr.slept = false ∨ bitOf 3 s.pwr.wakeMask = false → t = s) ∧
    ((∀ k, k < 32 → (diAt s k).wakeEn = false) → t = s) := by
  refine ⟨_, rfl, fun h => if_pos ?_, fun h => ?_⟩
  · rwa [Bool.not_eq_true']
  · split
    · rfl
    · exact foldl_unmoved fun k hk => pollInput_unarmed (h k (List.mem_range.mp hk)) v

theorem diWakePoll_wakes (v : List Nat) (s : State) (hs : s.pwr.slept = true) (hb : bitOf 3 s.pwr.wakeMask = true)
    (hf : s.fio.wakeConf = 1) (hc : s.pwr.cause = none) (he : (diAt s 0).wakeEn = true)
    (hq : (diCompare (diAt s 0) (elemOr 0 v 0) != (diAt s 0).invert) ≠ (diAt s 0).wakeRef) (hn : (diAt s 0).wakeN = 0) :
    ∃ t, exec (.diWakePoll v) s = .next t ∧
      t.pwr.cause = some (if s.pwr.age < s.pwr.sleptAt + 200000 then 10 else 6, 0) := by
  refine ⟨_, rfl, ?_⟩
  rw [if_neg (by simp [hs, hb]), List.range_succ_eq_map, List.foldl_cons]
  exact (List.foldlRecOn _ _ (pollInput_wakes hs hf hc he hq hn) fun _ h k _ => pollInput_woken h v k).2

/-! The heartbeat (R285). -/

theorem heartbeat_effect (s : State) : ∃ t, exec (.heartbeat) s = .next t ∧
    (if s.fv.started then t.pwr = { s.pwr with beat := true, beatAt := s.pwr.age } else t = s) := by
  refine ⟨_, rfl, ?_⟩
  split <;> rfl

/-- The firmware marked unresponsive, from now on or from when it was. -/
def deaf (s : State) : State :=
  modPwr (fun q => { q with beat := false, deafAt := if s.pwr.beat then s.pwr.age else s.pwr.deafAt }) s

theorem exec_heartbeatTimeout (s : State) : exec .heartbeatTimeout s = .next
    (if s.pwr.keeper = true ∧ (if s.pwr.beat then s.pwr.beatAt else s.pwr.deafAt) + nsPerSec ≤ s.pwr.age then
      detect 0x01C false (deaf s) else s) := by
  refine congrArg _ ((ite_congr (propext ?_) (fun _ => rfl) (fun _ => rfl)).trans (ite_not ..))
  rw [Bool.or_eq_true, Bool.not_eq_true', decide_eq_true_eq, Classical.not_and_iff_not_or_not, Bool.not_eq_true,
    Nat.not_le]

theorem heartbeatTimeout_effect (s : State) : ∃ t, exec (.heartbeatTimeout) s = .next t ∧
    (if s.pwr.keeper = true ∧ (if s.pwr.beat then s.pwr.beatAt else s.pwr.deafAt) + nsPerSec ≤ s.pwr.age then
      t.pwr.beat = false ∧ detected 0x01C false s t
    else t = s) := by
  refine ⟨_, exec_heartbeatTimeout s, ?_⟩
  by_cases h : s.pwr.keeper = true ∧ (if s.pwr.beat then s.pwr.beatAt else s.pwr.deafAt) + nsPerSec ≤ s.pwr.age
  · rw [if_pos h, if_pos h, detect_pwr]
    exact ⟨rfl, detected_detect rfl rfl 0x01C false⟩
  · rw [if_neg h, if_neg h]

/-! The path to sleep (R287). -/

/-- Firmware that answers, SLEEP, or a wake reason keeps the path to sleep from being due. -/
theorem sleepPathDue_eq_false {s : State} (h : s.pwr.beat = true ∨ s.pwr.slept = true ∨ wakeReason s = true) :
    sleepPathDue s = false := by
  rcases h with h | h | h <;> simp [sleepPathDue, h]

theorem armLast_sleepPath (s : State) : (armLast s).pwr.sleepPath = s.pwr.sleepPath := by
  unfold armLast
  dsimp only
  rw [modPwr_pwr]
  dsimp only
  refine (foldl_keep (keep := fun s => s.pwr.sleepPath) ?_ _ _).trans ?_
  · exact fun _ _ => rfl
  rw [modFio_pwr]
  refine (foldl_keep (keep := fun s => s.pwr.sleepPath) ?_ _ _).trans ?_
  · exact fun _ _ => rfl
  refine (foldl_keep (keep := fun s => s.pwr.sleepPath) ?_ _ _).trans ?_
  · exact fun _ _ => rfl
  rw [modNm_pwr]

theorem armLast_armed (s : State) : (armLast s).pwr.armed = true := by
  unfold armLast
  dsimp only
  rw [modPwr_pwr]

theorem storeNodes_pwr (sleep : Bool) (s : State) : (storeNodes sleep s).pwr = s.pwr :=
  same_of_blank (storeNodes_frame (only [.slu]) rfl sleep s) .pwr rfl

/-- SLEEP leaves the keeper domain off, and the detectors as they were armed. -/
theorem enterSleep_pwr (s : State) : (enterSleep s).pwr.slept = true ∧ (enterSleep s).pwr.pwrEn = false ∧
    (enterSleep s).pwr.keeper = false ∧ (enterSleep s).pwr.sleepPath = s.pwr.sleepPath ∧
    (enterSleep s).pwr.armed = s.pwr.armed := ⟨rfl, rfl, rfl, rfl, rfl⟩

theorem sleepPath_effect (s : State) : ∃ t, exec (.sleepPath) s = .next t ∧
    (s.pwr.beat = true ∨ s.pwr.slept = true ∨ wakeReason s = true → t = s) ∧
    (sleepPathDue s = true → t.pwr.slept = true ∧ t.pwr.pwrEn = false ∧ t.pwr.keeper = false ∧
      t.pwr.sleepPath = true ∧ t.pwr.armed = true) := by
  refine ⟨_, rfl, fun h => if_pos (by rw [sleepPathDue_eq_false h]; rfl), fun h => ?_⟩
  rw [h, if_neg (by decide)]
  obtain ⟨hs, hp, hk, hw, ha⟩ := enterSleep_pwr
    (storeNodes true (armLast (modPwr (fun p => { p with sleepPath := true }) (outputsOff s))))
  refine ⟨hs, hp, hk, hw.trans ?_, ha.trans ?_⟩ <;> rw [storeNodes_pwr]
  · rw [armLast_sleepPath, modPwr_pwr]
  · exact armLast_armed _

/-! The keeper domain taken down by the boardnet and by RST_N (R575, R631). -/

theorem boardnetLoss_effect (s : State) : ∃ t, exec (.boardnetLoss) s = .next t ∧
    (¬((grpAt s 0).band = .belowOff ∧ (grpAt s 1).band = .belowOff) → t = s) ∧
    ((grpAt s 0).band = .belowOff → (grpAt s 1).band = .belowOff →
      t.pwr.keeper = false ∧ t.pwr.pwrEn = false ∧ t.cyc = {} ∧ t.mot = {} ∧ t.tow = {} ∧
        t.tp = { badA := s.tp.badA, badB := s.tp.badB } ∧ t.slu.copies = s.slu.copies) := by
  refine ⟨_, rfl, fun h => if_neg h, fun h0 h1 => ?_⟩
  rw [if_pos ⟨h0, h1⟩]
  exact ⟨rfl, rfl, rfl, rfl, rfl, rfl, rfl⟩

theorem wakeDomainReset_effect (s : State) : ∃ t, exec (.wakeDomainReset) s = .next t ∧
    t.pwr = { startLevel := s.pwr.startLevel } ∧ t.fio = { clsHold := s.fio.clsHold } ∧ t.lin = {} ∧
      t.nm = { log := s.nm.log } ∧ t.cyc = {} ∧ t.img.boot.triesA = 0 ∧ t.img.boot.triesB = 0 :=
  ⟨_, rfl, rfl, rfl, rfl, rfl, rfl, rfl, rfl⟩

theorem resetAssert_effect (s : State) : ∃ t, exec (.resetAssert) s = .next t ∧
    t.sys.rstN = false ∧ t.pwr.cause = some (1, 0) ∧ t.pwr.slept = false ∧ t.pwr.keeper = false ∧ t.cyc = {} ∧
      t.mot = {} ∧ t.tow = {} ∧ t.tp = { badA := s.tp.badA, badB := s.tp.badB } := by
  refine ⟨_, rfl, ?_⟩
  rw [faultFall_sys, faultFall_pwr, faultFall_cyc, faultFall_mot, faultFall_tow, faultFall_tp]
  exact ⟨rfl, rfl, rfl, rfl, rfl, rfl, rfl, rfl⟩

/-- Settles O30: a wake registered in SLEEP is the cause of the next start unless one is there, whichever source it comes
from; the heartbeat and the path to sleep are changes of the power record; what takes the keeper domain down is the one
reset of that domain. -/
theorem wakeSourcesAndTheBoardnet : Obligations.WakeSourcesAndTheBoardnet :=
  ⟨awakeThreshold_effect, wakeTimer_effect, limpWake_effect, diWakePoll_refused, diWakePoll_wakes, heartbeat_effect,
    heartbeatTimeout_effect, sleepPath_effect, boardnetLoss_effect, wakeDomainReset_effect, resetAssert_effect⟩

end Sys2Proof.Machine
end

section
/-! The causes, the steps and the table copies of the Towpath (O24). -/
open Sys2Proof
namespace Sys2Proof.Machine

/-! Causes set and cleared by LIMP_N (R221, R222). -/

theorem limpSet_effect (s : State) : ∃ t, exec (.limpSet) s = .next t ∧ t.sys.limpN = false ∧
    t.tp.causes = (if s.pwr.keeper && s.fv.fw then s.tp.causes ||| 2 else s.tp.causes) := by
  let u := modSys (fun y => { y with limpN := false }) s
  have he : exec .limpSet s = .next (if s.pwr.keeper && s.fv.fw then tpSet 1 u else u) := rfl
  refine ⟨_, he, ?_⟩
  split
  · exact ⟨congrArg Sys.limpN (tpSet_sys 1 u), setTpCauses_causes _ u⟩
  · exact ⟨rfl, rfl⟩

theorem limpClear_effect (s : State) : ∃ t, exec (.limpClear) s = .next t ∧ t.sys.limpN = true ∧
    t.tp.causes = (if s.pwr.keeper ∧ bitOf 1 s.tp.causes then s.tp.causes - 2 else s.tp.causes) := by
  let u := modPwr (fun p => { p with reasonAt := if s.sys.limpN then p.reasonAt else p.age })
    (modSys (fun y => { y with limpN := true }) s)
  have he : exec .limpClear s = .next (if s.pwr.keeper then tpClear 1 u else u) := rfl
  refine ⟨_, he, ?_⟩
  by_cases hk : s.pwr.keeper = true
  · rw [if_pos hk]
    refine ⟨congrArg Sys.limpN (tpClear_sys 1 u), (setTpCauses_causes _ u).trans ?_⟩
    exact ite_congr (propext (and_iff_right hk).symm) (fun _ => rfl) (fun _ => rfl)
  · rw [if_neg hk, if_neg fun h => hk h.1]
    exact ⟨rfl, rfl⟩

/-! A step (R223): the results of an evaluation take effect. -/

/-- Whether the Towpath governs, the steps it has taken, and its causes. -/
def governing (s : State) : Bool × Nat × Nat := (s.tp.governs, s.tp.rcSteps, s.tp.causes)

theorem governing_of_tp {s t : State} (h : t.tp = s.tp) : governing t = governing s := by
  unfold governing
  rw [h]

/-- At a takeover the Towpath governs, whether it has just engaged or governed before. -/
theorem governing_takeOver (s : State) : governing (takeOver s) = (true, s.tp.rcSteps, s.tp.causes) := by
  unfold takeOver
  split
  case isTrue h => rw [governing, (Bool.and_eq_true_iff.mp h).1]
  case isFalse => rfl

/-- The evaluated results in effect: the first part of a step. -/
def applyResults (s : State) : State :=
  (List.range 6).foldl (fun u b =>
      if outValue (tget tpOut0 (takeOver s).tp.applied (0x60 + b)) = outValue (tget tpOut0 u.tp.applied (0x60 + b)) then u
      else modTp (fun t => { t with bridgeOut := tdel b t.bridgeOut }) u)
    (modTp (fun t => { t with applied := t.results, evaluated := false, rcSteps := t.rcSteps + 1 }) (takeOver s))

theorem governing_applyResults (s : State) : governing (applyResults s) = (true, s.tp.rcSteps + 1, s.tp.causes) := by
  have hb : ∀ (u : State) (b : Nat), governing (if outValue (tget tpOut0 (takeOver s).tp.applied (0x60 + b)) =
      outValue (tget tpOut0 u.tp.applied (0x60 + b)) then u
      else modTp (fun t => { t with bridgeOut := tdel b t.bridgeOut }) u) = governing u :=
    fun _ _ => (apply_ite governing ..).trans (ite_frame _ rfl rfl)
  obtain ⟨hg, hn, hc⟩ : (takeOver s).tp.governs = true ∧ (takeOver s).tp.rcSteps = s.tp.rcSteps ∧
      (takeOver s).tp.causes = s.tp.causes := by simpa [governing] using governing_takeOver s
  rw [applyResults, foldl_keep (keep := governing) hb]
  simp only [governing, modTp_tp, hg, hn, hc]

/-- The field outputs that entries name, refreshed while the Towpath governs: the second part of a step (R231). -/
def refreshNamed (s : State) : State :=
  if s.tp.governs then (List.range 16).foldl (fun s k => if tpNames s k then foRefresh k s else s) s else s

theorem refreshNamed_tp (s : State) : (refreshNamed s).tp = s.tp := by
  have hk : ∀ (u : State) (k : Nat), (if tpNames u k then foRefresh k u else u).tp = u.tp :=
    fun _ _ => (apply_ite State.tp ..).trans (ite_frame _ rfl rfl)
  unfold refreshNamed
  split
  · exact foldl_keep (keep := State.tp) hk _ s
  · rfl

theorem tpStep_of_evaluated {s : State} (h : s.tp.evaluated = true) : tpStep s =
    (let u := refreshNamed (applyResults s)
     if u.tp.adopt && decide (u.tp.causes = 0) then useCopies u else u) := by
  unfold tpStep
  rw [if_pos h]
  rfl

/-- The step after an evaluation, while a cause is set. -/
theorem governing_tpStep {s : State} (he : s.tp.evaluated = true) (hc : s.tp.causes ≠ 0) :
    governing (tpStep s) = (true, s.tp.rcSteps + 1, s.tp.causes) := by
  have hg : governing (refreshNamed (applyResults s)) = (true, s.tp.rcSteps + 1, s.tp.causes) :=
    (governing_of_tp (refreshNamed_tp _)).trans (governing_applyResults s)
  have h0 : (refreshNamed (applyResults s)).tp.causes ≠ 0 := by
    rwa [show (refreshNamed (applyResults s)).tp.causes = s.tp.causes from congrArg (·.2.2) hg]
  rw [tpStep_of_evaluated he]
  dsimp only
  rw [if_neg (by simp [h0]), hg]

/-! The step without the cycle timer: the field I/O block and the channels before it, the outputs after it. -/

/-- What a step without the cycle timer samples, levels and records before the Towpath evaluates. -/
def rcSampled (x : Samples) (s : State) : State :=
  levelChans (recordTrips (levelField (fillFo x (fillIn x (padsLatch s (s.pwr.age - s.tp.stepAt) s)))))

theorem rcSampled_tp (x : Samples) (s : State) : (rcSampled x s).tp = s.tp := by
  have h : blank (only [.wire, .detect, .pow, .mot, .fio, .pwr]) (rcSampled x s) =
      blank (only [.wire, .detect, .pow, .mot, .fio, .pwr]) s := by
    rw [rcSampled, levelChans_frame _ rfl, recordTrips_frame _ rfl rfl, levelField_frame _ rfl rfl rfl rfl,
      fillFo_frame _ rfl rfl rfl, fillIn_frame _ rfl, padsLatch_frame _ rfl]
  exact same_of_blank h .tp rfl

/-- The Towpath's evaluation for the step, while a cause is set. -/
def rcEvaluated (x : Samples) (s : State) : State :=
  if (rcSampled x s).tp.causes ≠ 0 then tpEvaluate ((rcSampled x s).tp.rcSteps * 250000) (rcSampled x s)
  else rcSampled x s

/-- With a cause set every target is evaluated, and what governs stays as it was until the step. -/
theorem rcEvaluated_of_cause {s : State} (hc : s.tp.causes ≠ 0) (x : Samples) :
    (rcEvaluated x s).tp.evaluated = true ∧ (rcEvaluated x s).tp.rcSteps = s.tp.rcSteps ∧
      (rcEvaluated x s).tp.causes = s.tp.causes := by
  have htp := rcSampled_tp x s
  rw [rcEvaluated, if_pos (by rwa [htp]), tpEvaluate, modTp_tp, htp]
  exact ⟨rfl, rfl, rfl⟩

/-- What follows the Towpath's step: its time, and the outputs of its targets. -/
def rcSettled (s0 s : State) (age : Nat) : State :=
  let u := modTp (fun t => { t with stepAt := age }) s
  settleWaves s0 (fosBoundary (tpOutputs u.tp.rcSteps u))

theorem governing_rcSettled (s0 s : State) (age : Nat) : governing (rcSettled s0 s age) = governing s := by
  let u := modTp (fun t => { t with stepAt := age }) s
  have h : blank (only [.wire, .pow, .slu, .mot, .fio]) (settleWaves s0 (fosBoundary (tpOutputs u.tp.rcSteps u))) =
      blank (only [.wire, .pow, .slu, .mot, .fio]) u := by
    rw [settleWaves_frame _ rfl rfl rfl, fosBoundary_frame _ rfl rfl, tpOutputs_frame _ rfl rfl rfl rfl rfl]
  exact (governing_of_tp (same_of_blank h .tp rfl)).trans rfl

theorem exec_towpathRcStep (x : Samples) (s : State) : exec (.towpathRcStep x) s = .next
    (if !s.pwr.keeper then s else if s.cyc.running then s
    else rcSettled s (tpStep (rcEvaluated x s)) (rcEvaluated x s).pwr.age) := by
  unfold rcSettled rcEvaluated rcSampled
  exact congrArg Host.Outcome.next rfl

theorem towpathRcStep_effect (x : Samples) (s : State) : ∃ t, exec (.towpathRcStep x) s = .next t ∧
    (s.pwr.keeper = false ∨ s.cyc.running = true → t = s) ∧
    (s.pwr.keeper = true → s.cyc.running = false → s.tp.causes ≠ 0 →
      t.tp.governs = true ∧ t.tp.rcSteps = s.tp.rcSteps + 1 ∧ t.tp.causes = s.tp.causes ∧ t.cyc = s.cyc) := by
  have he := exec_towpathRcStep x s
  have hcyc := blank_all_cyc (execTowpathRcStep_frame (only [.wire, .detect, .tp, .pow, .slu, .mot, .fio, .pwr])
    rfl rfl rfl rfl rfl rfl rfl rfl he) rfl rfl
  refine ⟨_, he, ?_, fun hk hr hc => ?_⟩
  · rintro (h | h)
    · exact if_pos (by rw [h]; rfl)
    · exact ite_frame _ rfl (if_pos h)
  · rw [ite_powered hk, if_neg (Bool.eq_false_iff.mp hr)] at hcyc ⊢
    obtain ⟨hev, hsteps, hcauses⟩ := rcEvaluated_of_cause hc x
    have hg := (governing_rcSettled s _ (rcEvaluated x s).pwr.age).trans (governing_tpStep hev (by rwa [hcauses]))
    rw [hsteps, hcauses] at hg
    exact ⟨congrArg (·.1) hg, congrArg (·.2.1) hg, congrArg (·.2.2) hg, hcyc⟩

/-! The copies of the table (R226). -/

theorem useCopies_none {s : State} (h : newerCopy s = none) :
    (useCopies s).tp = { s.tp with noTable := true, table := {}, adopt := false } := by
  unfold useCopies
  rw [h]
  exact (apply_ite State.tp ..).trans (ite_frame _ (emit_tp ..) rfl)

theorem useCopies_some {s : State} {k : Nat} (h : newerCopy s = some k) :
    (useCopies s).tp = { s.tp with copy := k, noTable := false, table := copyTable s k, adopt := false } := by
  unfold useCopies
  rw [h]
  rfl

/-- Which copies have failed is not a matter of the one in use. -/
theorem useCopies_bad (s : State) : (useCopies s).tp.badA = s.tp.badA ∧ (useCopies s).tp.badB = s.tp.badB := by
  cases h : newerCopy s with
  | none => rw [useCopies_none h]; exact ⟨rfl, rfl⟩
  | some k => rw [useCopies_some h]; exact ⟨rfl, rfl⟩

theorem useCopies_mem (s : State) : (useCopies s).mem = s.mem :=
  blank_mem (useCopies_frame (only [.wire, .tp]) rfl rfl s) rfl

theorem towpathTableRead_effect (s : State) (hk : s.pwr.keeper = true) : ∃ t, exec (.towpathTableRead) s = .next t ∧
    (newerCopy s = none → t.tp = { s.tp with noTable := true, table := {}, adopt := false }) ∧
    (∀ k, newerCopy s = some k →
      t.tp = { s.tp with copy := k, noTable := false, table := copyTable s k, adopt := false }) :=
  ⟨useCopies s, congrArg Host.Outcome.next (ite_powered hk s _), useCopies_none, fun _ => useCopies_some⟩

/-! The check of the copies (R553 0x045). -/

/-- The state in which the copies are judged again: those that fail are marked, the detection is counted. -/
def copiesFailed (badA badB : Bool) (s : State) : State := detect 0x045 false (spoilCopies badA badB s)

theorem copiesFailed_tp (badA badB : Bool) (s : State) : (copiesFailed badA badB s).tp =
    { s.tp with badA := s.tp.badA || badA, badB := s.tp.badB || badB } := detect_tp ..

theorem copiesFailed_mem (badA badB : Bool) (s : State) : (copiesFailed badA badB s).mem = s.mem := detect_mem ..

theorem copyOk_copiesFailed (badA badB : Bool) (s : State) (c : Nat) : copyOk (copiesFailed badA badB s) c =
    (!(if c = 0 then badA else badB) && copyOk s c) := by
  simp only [copyOk, copiesFailed_tp, copiesFailed_mem]
  split <;> simp only [Bool.not_or] <;> ac_rfl

/-- Copies are judged again only after a failure of one of them, and while one was valid before. -/
theorem exec_towpathTableCheck (badA badB : Bool) (s : State) : exec (.towpathTableCheck badA badB) s = .next
    (if !(badA || badB) || (newerCopy s).isNone then spoilCopies badA badB s
    else repairCopies (copiesFailed badA badB s)) := rfl

theorem copyOk_of_newerCopy_none {s : State} (h : newerCopy s = none) : copyOk s 0 = false ∧ copyOk s 1 = false := by
  unfold newerCopy at h
  split at h
  · split at h <;> cases h
  · cases h
  · cases h
  case h_4 h0 h1 => exact ⟨h0, h1⟩

/-- Copy `a` written over with what copy `b` holds, and the copies taken into use. -/
def mendCopy (a b : Nat) (s : State) : State := useCopies (writeCopy a (memBytes s.mem (tpBase b) 0x8000) s)

theorem writeCopy_tp (c : Nat) (b : List Byte) (s : State) : (writeCopy c b s).tp =
    if c = 0 then { s.tp with badA := false } else { s.tp with badB := false } := rfl

theorem mendCopy_mem (a b : Nat) (s : State) :
    (mendCopy a b s).mem = memWriteBytes (tpBase a) (memBytes s.mem (tpBase b) 0x8000) s.mem := by
  rw [mendCopy, useCopies_mem, writeCopy, storeBytes_mem, modTp_mem]

theorem mendCopy_badA (b : Nat) (s : State) : (mendCopy 0 b s).tp.badA = false := by
  rw [mendCopy, (useCopies_bad _).1, writeCopy_tp, if_pos rfl]

theorem mendCopy_badB (b : Nat) (s : State) : (mendCopy 1 b s).tp.badB = false := by
  rw [mendCopy, (useCopies_bad _).2, writeCopy_tp, if_neg Nat.one_ne_zero]

theorem repairCopies_of_ok {s : State} {a b : Nat} (hab : a = 0 ∧ b = 1 ∨ a = 1 ∧ b = 0) (ha : copyOk s a = false)
    (hb : copyOk s b = true) : repairCopies s = mendCopy a b s := by
  unfold repairCopies
  rcases hab with ⟨rfl, rfl⟩ | ⟨rfl, rfl⟩ <;> rw [ha, hb] <;> rfl

theorem repairCopies_of_none {s : State} (ha : copyOk s 0 = false) (hb : copyOk s 1 = false) :
    repairCopies s = useCopies s ∧ newerCopy s = none := by
  unfold repairCopies newerCopy
  rw [ha, hb]
  exact ⟨rfl, rfl⟩

theorem mendCopy_frame (L : Region → Bool) (hSys : L .sys = true) (hWire : L .wire = true) (hTp : L .tp = true)
    (hMem : L .mem = true) (a b : Nat) (s : State) : blank L (mendCopy a b s) = blank L s := by
  rw [mendCopy, useCopies_frame L hWire hTp, writeCopy_frame L hSys hTp hMem]

theorem detected_copiesFailed (badA badB : Bool) (s : State) : detected 0x045 false s (copiesFailed badA badB s) :=
  detected_after (spoilCopies_frame (only [.tp]) rfl badA badB s) rfl rfl rfl 0x045 false

/-- The detection counted before a copy is mended stands after it. -/
theorem detected_mendCopy (a b : Nat) (badA badB : Bool) (s : State) :
    detected 0x045 false s (mendCopy a b (copiesFailed badA badB s)) :=
  detected_before (detected_copiesFailed badA badB s)
    (mendCopy_frame (only [.sys, .wire, .tp, .mem]) rfl rfl rfl rfl a b _) rfl

/-- A single failing copy, written over with the other one. -/
theorem towpathTableCheck_mends {badA badB : Bool} {s : State} {a b : Nat} (hab : a = 0 ∧ b = 1 ∨ a = 1 ∧ b = 0)
    (ha : (if a = 0 then badA else badB) = true) (hb : (if b = 0 then badA else badB) = false) (ho : copyOk s b = true) :
    exec (.towpathTableCheck badA badB) s = .next (mendCopy a b (copiesFailed badA badB s)) := by
  have hn : newerCopy s ≠ none := by
    intro h
    obtain ⟨h0, h1⟩ := copyOk_of_newerCopy_none h
    rcases hab with ⟨-, rfl⟩ | ⟨-, rfl⟩
    · exact absurd (ho.symm.trans h1) (by decide)
    · exact absurd (ho.symm.trans h0) (by decide)
  have hbad : (badA || badB) = true := by
    rcases hab with ⟨rfl, -⟩ | ⟨rfl, -⟩
    · exact Bool.or_eq_true_iff.mpr (.inl ha)
    · exact Bool.or_eq_true_iff.mpr (.inr ha)
  rw [exec_towpathTableCheck, if_neg (by simpa [hbad, Option.isNone_iff_eq_none] using hn)]
  exact congrArg Host.Outcome.next (repairCopies_of_ok hab (by rw [copyOk_copiesFailed, ha]; rfl)
    (by rw [copyOk_copiesFailed, hb, ho]; rfl))

theorem towpathTableCheck_effect (badA badB : Bool) (s : State) : ∃ t, exec (.towpathTableCheck badA badB) s = .next t ∧
    (badA = false → badB = false → t.tp = s.tp ∧ t.mem = s.mem ∧ t.saf = s.saf) ∧
    (newerCopy s = none → t.mem = s.mem ∧ t.saf = s.saf) ∧
    (newerCopy s ≠ none → badA = true → badB = true →
      t.tp.noTable = true ∧ t.tp.table = {} ∧ t.mem = s.mem ∧ detected 0x045 false s t) ∧
    (badA = true → badB = false → copyOk s 1 = true →
      t.mem = memWriteBytes (tpBase 0) (memBytes s.mem (tpBase 1) 0x8000) s.mem ∧ t.tp.badA = false ∧
        detected 0x045 false s t) ∧
    (badA = false → badB = true → copyOk s 0 = true →
      t.mem = memWriteBytes (tpBase 1) (memBytes s.mem (tpBase 0) 0x8000) s.mem ∧ t.tp.badB = false ∧
        detected 0x045 false s t) := by
  refine ⟨_, exec_towpathTableCheck badA badB s, ?_, fun hn => ?_, ?_, ?_, ?_⟩
  · rintro rfl rfl
    refine ⟨?_, rfl, rfl⟩
    simp [spoilCopies]
  · rw [if_pos (by rw [hn]; exact Bool.or_true _)]
    exact ⟨rfl, rfl⟩
  · rintro hn rfl rfl
    rw [if_neg (by simpa using hn)]
    obtain ⟨hr, hc⟩ := repairCopies_of_none (s := copiesFailed true true s) (copyOk_copiesFailed ..) (copyOk_copiesFailed ..)
    refine ⟨?_, ?_, ?_, ?_⟩ <;> rw [hr]
    · rw [useCopies_none hc]
    · rw [useCopies_none hc]
    · rw [useCopies_mem, copiesFailed_mem]
    · exact detected_before (detected_copiesFailed true true s) (useCopies_frame (only [.wire, .tp]) rfl rfl _) rfl
  · rintro rfl rfl ho
    rw [Host.Outcome.next.inj ((exec_towpathTableCheck ..).symm.trans (towpathTableCheck_mends (.inl ⟨rfl, rfl⟩) rfl rfl ho))]
    exact ⟨by rw [mendCopy_mem, copiesFailed_mem], mendCopy_badA .., detected_mendCopy ..⟩
  · rintro rfl rfl ho
    rw [Host.Outcome.next.inj ((exec_towpathTableCheck ..).symm.trans (towpathTableCheck_mends (.inr ⟨rfl, rfl⟩) rfl rfl ho))]
    exact ⟨by rw [mendCopy_mem, copiesFailed_mem], mendCopy_badB .., detected_mendCopy ..⟩

/-- Settles O24: LIMP_N sets and clears its own cause; a step without the cycle timer takes over and applies what it has
evaluated, between samples and outputs that leave the Towpath alone; the copies of the table are read as they stand, and
one that fails takes the bytes of the other. -/
theorem towpathCausesAndTable : Obligations.TowpathCausesAndTable :=
  ⟨limpSet_effect, limpClear_effect, towpathRcStep_effect, towpathTableRead_effect, towpathTableCheck_effect⟩

end Sys2Proof.Machine
end

section
/-! A barge that loses the tug, the tug that loses a barge, and what follows (O56). -/
open Sys2Proof
namespace Sys2Proof.Machine

/-! What a barge's record holds after each operation on the state. -/

theorem bargeAt_of_tow {s t : State} (h : t.tow = s.tow) (a : Nat) : bargeAt t a = bargeAt s a := by
  unfold bargeAt
  rw [h]

theorem others_modBarge (a : Nat) (f : Barge → Barge) (s : State) : others bargeAt a s (modBarge a f s) :=
  fun j h => bargeAt_modBarge_ne a j f s h.symm

theorem bargeTo_of_ne {a st : Nat} {s : State} (h : (bargeAt s a).state ≠ st) :
    bargeTo a st s = modBarge a (fun b => { b with state := st, stateCycle := s.cyc.number }) s := if_neg h

/-! A barge without the tug's beats (R515), and the end of its hold (R515, R222). -/

theorem bargeStranded_effect (s : State) : ∃ t, exec (.bargeStranded) s = .next t ∧
    (if s.sys.role = .barge ∧ s.fv.fw = true ∧ s.tow.stranded = false ∧ 8 < s.tow.missed then
      t.tow = { s.tow with stranded := true, holdOn := true } ∧
        t = detect 0x055 false (modTow (fun t => { t with stranded := true, holdOn := true }) s)
    else t = s) := by
  refine ⟨_, rfl, ?_⟩
  split
  · exact ⟨detect_tow .., rfl⟩
  · rfl

theorem strandHoldEnd_effect (s : State) : ∃ t, exec (.strandHoldEnd) s = .next t ∧
    (if s.sys.role = .barge ∧ s.tow.holdOn = true then
      t.tow = { s.tow with holdOn := false } ∧ t = tpSet 4 (modTow (fun t => { t with holdOn := false }) s)
    else t = s) := by
  refine ⟨_, rfl, ?_⟩
  split
  · exact ⟨tpSet_tow .., rfl⟩
  · rfl

/-! The tug without a barge's beats (R514, R515). -/

/-- A command posted in the last 8 cycles before cycle `n`: the loss of its barge leaves its outcome unknown (R514). -/
def postedLately (n : Nat) (p : Posted) : Bool := decide (n ≤ p.cycle + 8)

/-- The barge taken as stranded, before the tug reports it. -/
def takeStranded (a : Nat) (s : State) : State := bargeTo a 4 (modBarge a (fun b => { b with beats := 0 }) s)

/-- The loss of a barge with its event and its detection. -/
def detectStranded (a : Nat) (s : State) : State := detect 0x055 false (emit 0x4003 a (takeStranded a s) (cause := a))

theorem detectStranded_frame (L : Region → Bool) (hWire : L .wire = true) (hDetect : L .detect = true) (a : Nat) (s : State) :
    blank L (detectStranded a s) = blank L (takeStranded a s) := by
  rw [detectStranded, detect_frame L hWire hDetect, emit_frame L hWire]

theorem detectStranded_cyc (a : Nat) (s : State) : (detectStranded a s).cyc = s.cyc := by
  have h : blank (only [.wire, .detect, .tow]) (detectStranded a s) = blank (only [.wire, .detect, .tow]) s := by
    rw [detectStranded_frame _ rfl rfl, takeStranded, bargeTo_frame _ rfl, modBarge_frame _ rfl]
  exact blank_all_cyc h rfl rfl

/-- The loss of a barge with the commands posted to it lately, which have failed: everything TUG_STRAND_DECLARE
reports. -/
def reportStranded (a : Nat) (s : State) : State :=
  ((bargeAt s a).posted.filter (postedLately s.cyc.number)).foldl
    (fun s p => postedFailed a Status.eTimeout.code p s) (detectStranded a s)

theorem reportStranded_tow (a : Nat) (s : State) : (reportStranded a s).tow = (takeStranded a s).tow := by
  have h : blank (only [.wire, .detect]) (reportStranded a s) = blank (only [.wire, .detect]) (takeStranded a s) := by
    rw [reportStranded, foldl_frame _ _ fun u p => postedFailed_frame _ rfl a _ p u, detectStranded_frame _ rfl rfl]
  exact same_of_blank h .tow rfl

theorem exec_tugStrandDeclare {a : Nat} (s : State) (h : rng 1 63 a = true) : exec (.tugStrandDeclare a) s = .next
    (if s.sys.role = .tug ∧ (bargeAt s a).state ∈ [3, 5] ∧ 8 < (bargeAt s a).missed then
      modBarge a (fun b => { b with posted := b.posted.filter (fun p => !postedLately s.cyc.number p) })
        (reportStranded a s)
    else s) := by
  refine (guardUnit_of_ok h _).trans (congrArg _ (ite_congr rfl (fun _ => ?_) (fun _ => rfl)))
  rw [reportStranded, ← detectStranded_cyc a s]
  rfl

theorem takeStranded_eq {a : Nat} {s : State} (h : (bargeAt s a).state ≠ 4) : takeStranded a s =
    modBarge a (fun b => { b with state := 4, stateCycle := s.cyc.number }) (modBarge a (fun b => { b with beats := 0 }) s) :=
  bargeTo_of_ne (by rwa [bargeAt_modBarge_same])

theorem tugStrandDeclare_effect (a : Nat) (s : State) (h : rng 1 63 a = true) : ∃ t, exec (.tugStrandDeclare a) s = .next t ∧
    (if s.sys.role = .tug ∧ (bargeAt s a).state ∈ [3, 5] ∧ 8 < (bargeAt s a).missed then
      (bargeAt t a).state = 4 ∧ (bargeAt t a).beats = 0 ∧ (bargeAt t a).stateCycle = s.cyc.number ∧
        (bargeAt t a).posted = (bargeAt s a).posted.filter (fun p => !decide (s.cyc.number ≤ p.cycle + 8)) ∧
          others bargeAt a s t
    else t = s) := by
  refine ⟨_, exec_tugStrandDeclare s h, ?_⟩
  split
  case isTrue hc =>
    have h4 : (bargeAt s a).state ≠ 4 := fun e => by simp [e] at hc
    have hr := bargeAt_of_tow (reportStranded_tow a s)
    rw [takeStranded_eq h4] at hr
    rw [bargeAt_modBarge_same, hr, bargeAt_modBarge_same, bargeAt_modBarge_same]
    refine ⟨rfl, rfl, rfl, rfl, fun j hj => ?_⟩
    rw [others_modBarge a _ _ j hj, hr, others_modBarge a _ _ j hj, others_modBarge a _ _ j hj]
  case isFalse => rfl

/-! A relayed command without its answer (R513). -/

/-- The tug forgets the command `q` relayed to barge `a`. -/
def forget (a : Nat) (q : Relay) (s : State) : State := modBarge a (fun b => { b with out := b.out.erase q }) s

theorem exec_relayTimeout_none {a tag : Nat} {s : State} (h : rng 1 63 a = true)
    (hq : (bargeAt s a).out.find? (fun r => decide (r.tag = tag)) = none) : exec (.relayTimeout a tag) s = .next s := by
  refine (guardUnit_of_ok h _).trans ?_
  rw [hq]

/-- The subscription that a command was to make is gone with it. -/
def dropSub (q : Relay) (s : State) : State :=
  match q.sub with
  | some id => modFv (fun v => { v with subs := v.subs.filter (fun b => decide (b.id ≠ id)) }) s
  | none => s

theorem dropSub_tow (q : Relay) (s : State) : (dropSub q s).tow = s.tow := by
  unfold dropSub
  split <;> rfl

/-- The command forgotten is answered where a pound waits for it. -/
theorem exec_relayTimeout_some {a tag : Nat} {s : State} {q : Relay} (h : rng 1 63 a = true)
    (hq : (bargeAt s a).out.find? (fun r => decide (r.tag = tag)) = some q) : exec (.relayTimeout a tag) s = .next
      (if q.own = true ∨ q.mute = true then dropSub q (forget a q s)
      else answer q.cls q.verb q.req .eTimeout none [] (dropSub q (forget a q s))) := by
  refine (guardUnit_of_ok h _).trans ?_
  rw [hq]
  exact congrArg Host.Outcome.next (ite_congr (propext (Bool.or_eq_true_iff ..)) (fun _ => rfl) (fun _ => rfl))

theorem subs_answer (cls verb : Nat) (r : Req) (st : Status) (eff : Option Nat) (pl : List Byte) (s : State) :
    (answer cls verb r st eff pl s).fv.subs = s.fv.subs :=
  (congrArg Fv.subs (answer_fv_fv cls verb r st eff pl s) :)

theorem relayTimeout_effect (a tag : Nat) (s : State) (h : rng 1 63 a = true) : ∃ t, exec (.relayTimeout a tag) s = .next t ∧
    ((bargeAt s a).out.find? (fun r => decide (r.tag = tag)) = none → t = s) ∧
    (∀ q, (bargeAt s a).out.find? (fun r => decide (r.tag = tag)) = some q →
      bargeAt t a = { bargeAt s a with out := (bargeAt s a).out.erase q } ∧ others bargeAt a s t ∧
      (q.sub = none → t = if q.own = true ∨ q.mute = true then forget a q s
        else answer q.cls q.verb q.req .eTimeout none [] (forget a q s)) ∧
      (∀ id, q.sub = some id → t.fv.subs = s.fv.subs.filter (fun b => decide (b.id ≠ id)))) := by
  cases hq : (bargeAt s a).out.find? (fun r => decide (r.tag = tag)) with
  | none => exact ⟨s, exec_relayTimeout_none h hq, fun _ => rfl, nofun⟩
  | some q =>
    refine ⟨_, exec_relayTimeout_some h hq, nofun, ?_⟩
    rintro _ ⟨⟩
    have hb := bargeAt_of_tow (s := forget a q s) (t := if q.own = true ∨ q.mute = true then dropSub q (forget a q s)
        else answer q.cls q.verb q.req .eTimeout none [] (dropSub q (forget a q s))) <| by
      split
      · exact dropSub_tow ..
      · exact (answer_tow ..).trans (dropSub_tow ..)
    refine ⟨(hb a).trans (bargeAt_modBarge_same ..), fun j hj => (hb j).trans (others_modBarge a _ s j hj), fun hs => ?_,
      fun id hs => ?_⟩
    · rw [show dropSub q (forget a q s) = forget a q s by rw [dropSub, hs]]
    · have hd : (dropSub q (forget a q s)).fv.subs = s.fv.subs.filter (fun b => decide (b.id ≠ id)) := by
        rw [dropSub, hs]
        rfl
      split
      · exact hd
      · exact (subs_answer ..).trans hd

/-! The answer to a RESYNC (R516). -/

theorem resyncAnswer_of_none {a : Nat} {s : State} (h : (bargeAt s a).resync = none) (st : Status) :
    resyncAnswer a st s = s := by
  unfold resyncAnswer
  rw [h]

/-- The answer takes the request away from the barge, whether it is given now or left to another barge. -/
theorem resyncAnswer_resync (a : Nat) (st : Status) (s : State) : (bargeAt (resyncAnswer a st s) a).resync = none := by
  unfold resyncAnswer
  split
  case h_1 h => exact h
  case h_2 q _ =>
    dsimp only
    have h0 : (bargeAt (modBarge a (fun b => { b with resync := none, leaveAt := none }) s) a).resync = none := by
      rw [bargeAt_modBarge_same]
    cases q with
    | none => exact h0
    | some r =>
      dsimp only
      split
      · exact h0
      · rw [bargeAt_of_tow (answer_tow ..), foldl_at_out (get := bargeAt) (fun s i j hj => others_modBarge i _ s j hj), h0]
        simp

theorem exec_resyncTimeout {a : Nat} (s : State) (h : rng 1 63 a = true) : exec (.resyncTimeout a) s = .next
    (if (bargeAt s a).leaveAt = none then resyncAnswer a .eTimeout s else s) :=
  (guardUnit_of_ok h _).trans (congrArg _ (ite_congr (propext Option.isNone_iff_eq_none) (fun _ => rfl) (fun _ => rfl)))

theorem resyncTimeout_effect (a : Nat) (s : State) (h : rng 1 63 a = true) : ∃ t, exec (.resyncTimeout a) s = .next t ∧
    ((bargeAt s a).leaveAt ≠ none ∨ (bargeAt s a).resync = none → t = s) ∧
    ((bargeAt s a).leaveAt = none → t = resyncAnswer a .eTimeout s ∧ (bargeAt t a).resync = none) := by
  refine ⟨_, exec_resyncTimeout s h, ?_, fun hl => ?_⟩
  · rintro (hl | hr)
    · exact if_neg hl
    · exact ite_frame _ (resyncAnswer_of_none hr _) rfl
  · rw [if_pos hl]
    exact ⟨rfl, resyncAnswer_resync a _ s⟩

/-! The end of a resynchronisation (R516, R521, R522). -/

/-- A barge that leaves STRANDED, before it sends what waits. -/
def leaveStranded (s : State) : State :=
  tpClear 4 (modTow (fun t => { t with stranded := false, holdOn := false, evtDropped := 0 }) s)

/-- The tug's record of a barge that is back: running, with the events it dropped. -/
def takeBack (a dropped : Nat) (s : State) : State :=
  bargeTo a 3 (modBarge a (fun b => { b with evtDropped := sat 16 (b.evtDropped + dropped) }) s)

theorem exec_resyncExit {a : Nat} (dropped : Nat) (s : State) (h : rng 1 63 a = true) : exec (.resyncExit a dropped) s = .next
    (match s.sys.role with
     | .standalone => s
     | .barge => if s.tow.stranded then bargeFlush (leaveStranded s) else s
     | .tug => match (bargeAt s a).leaveAt with
       | some n => if n ≤ s.cyc.number ∧ (bargeAt s a).state ∈ [4, 5] then resyncAnswer a .ok (takeBack a dropped s) else s
       | none => s) := guardUnit_of_ok h _

theorem resyncExit_effect (a dropped : Nat) (s : State) (h : rng 1 63 a = true) : ∃ t, exec (.resyncExit a dropped) s = .next t ∧
    (s.sys.role = .standalone → t = s) ∧
    (s.sys.role = .barge → (s.tow.stranded = false → t = s) ∧ (s.tow.stranded = true → t = bargeFlush (leaveStranded s))) ∧
    (s.sys.role = .tug → ((bargeAt s a).leaveAt = none → t = s) ∧ (∀ n, (bargeAt s a).leaveAt = some n →
      (¬(n ≤ s.cyc.number ∧ (bargeAt s a).state ∈ [4, 5]) → t = s) ∧
      (n ≤ s.cyc.number → (bargeAt s a).state ∈ [4, 5] →
        t = resyncAnswer a .ok (takeBack a dropped s) ∧ (bargeAt t a).resync = none))) := by
  refine ⟨_, exec_resyncExit dropped s h, fun hr => ?_, fun hr => ?_, fun hr => ?_⟩ <;> rw [hr]
  · exact ⟨fun hs => if_neg (by simp [hs]), fun hs => if_pos hs⟩
  · refine ⟨fun hl => by rw [hl], fun n hl => ?_⟩
    rw [hl]
    refine ⟨fun hn => if_neg hn, fun hn hb => ?_⟩
    dsimp only
    rw [if_pos ⟨hn, hb⟩]
    exact ⟨rfl, resyncAnswer_resync a _ _⟩

/-- Settles O56: stranding and the hold are changes of the barge's tow record; the tug's loss of a barge, a relayed command
and a resynchronisation change that barge's record, and what they report or answer changes none. -/
theorem strandingAndItsEnd : Obligations.StrandingAndItsEnd :=
  ⟨bargeStranded_effect, tugStrandDeclare_effect, strandHoldEnd_effect, relayTimeout_effect, resyncTimeout_effect,
    resyncExit_effect⟩

end Sys2Proof.Machine
end

section
/-! The traffic of a CAN channel: its frames, its errors and its deadline (O25). -/
open Sys2Proof
namespace Sys2Proof.Machine

/-! What a channel's record holds after each operation on the state. -/

theorem canAt_of_can {s t : State} (h : t.can = s.can) (c : Nat) : canAt t c = canAt s c := by
  unfold canAt
  rw [h]

theorem others_modCanCh (c : Nat) (f : CanCh → CanCh) (s : State) : others canAt c s (modCanCh c f s) :=
  fun j h => canAt_modCanCh_ne c j f s h.symm

theorem others_of_can {s t u : State} {c : Nat} (h : others canAt c s t) (e : u.can = t.can) : others canAt c s u :=
  fun j hj => (canAt_of_can e j).trans (h j hj)

@[simp] theorem canAt_emit (code inst : Nat) (s : State) (cause flags : Nat) (value : Int) (ext : List Nat)
    (dest : Option Nat) (c : Nat) : canAt (emit code inst s cause flags value ext dest) c = canAt s c :=
  canAt_of_can (emit_can _ _ _ _ _ _ _ _) c

theorem canBusEvent_can (c bit ev info : Nat) (s : State) : (canBusEvent c bit ev info s).can = s.can :=
  same_of_blank (canBusEvent_frame (only [.aq]) rfl c bit ev info s) .can rfl

@[simp] theorem canAt_canBusEvent (c bit ev info : Nat) (s : State) (i : Nat) :
    canAt (canBusEvent c bit ev info s) i = canAt s i :=
  canAt_of_can (canBusEvent_can c bit ev info s) i

theorem canState_can (c : Nat) (waiting : Bool) (s : State) : (canState c waiting s).can = s.can :=
  same_of_blank (canState_frame (only [.wire, .aq]) rfl rfl c waiting s) .can rfl

/-- A counter counts in the channel's record and nowhere else in it (R274). -/
@[simp] theorem canAt_countCan (c k n : Nat) (s : State) : canAt (countCan c k n s) c =
    { canAt s c with
      counters := tput ctr0 k (addHalf (if k = 1 ∨ k = 3 then 48 else 32) n (tget ctr0 (canAt s c).counters k)).1
          (canAt s c).counters } := by
  refine (apply_ite (fun t => canAt t c) _ _ _).trans ?_
  rw [canAt_emit, ite_self, canAt_modCanCh_same]

@[simp] theorem canAt_setCanErr (c e : Nat) (s : State) : canAt (setCanErr c e s) c =
    { canAt s c with err := e, stateCycle := if (canAt s c).err = e then (canAt s c).stateCycle else s.cyc.number } := by
  unfold setCanErr
  split
  case isTrue h => rw [← h]
  case isFalse => rw [canAt_of_can (canState_can _ _ _), canAt_modCanCh_same]

theorem setCanErr_of_same {c e : Nat} {s : State} (h : (canAt s c).err = e) : setCanErr c e s = s := if_pos h

/-- A failed frame of a route is counted; nothing else of the channel changes (R260). -/
theorem canAt_txFail (c cause : Nat) (t : CanTx) (s : State) :
    ∃ l, canAt (txFail c cause t s) c = { canAt s c with counters := l } := by
  unfold txFail
  split
  · exact ⟨_, canAt_emit _ _ _ _ _ _ _ _ c⟩
  · exact ⟨_, canAt_countCan c 9 1 s⟩
  · exact ⟨_, rfl⟩
  · exact ⟨_, rfl⟩

theorem canAt_txFailAll (c cause : Nat) (l : List CanTx) (s : State) :
    ∃ n, canAt (txFailAll c cause l s) c = { canAt s c with counters := n } := by
  induction l generalizing s with
  | nil => exact ⟨_, rfl⟩
  | cons t l ih =>
    obtain ⟨n, hn⟩ := canAt_txFail c cause t s
    obtain ⟨m, hm⟩ := ih (txFail c cause t s)
    exact ⟨m, hm.trans (by rw [hn])⟩

/-! The slots of a channel (R257, R264). -/

theorem fill0_eq (x : CanCh) : ∃ a l, fill0 x = { x with slot0 := a, line := l } := by
  unfold fill0
  split <;> exact ⟨_, _, rfl⟩

theorem fill1_eq (x : CanCh) : ∃ a q, q <:+ x.queue ∧ fill1 x = { x with slot1 := a, queue := q } := by
  unfold fill1
  split
  case h_1 _ _ _ _ hq => exact ⟨_, _, hq ▸ List.suffix_cons _ _, rfl⟩
  case h_2 => exact ⟨_, _, List.suffix_refl _, rfl⟩

theorem fill2_eq (x : CanCh) : ∃ a q, q <:+ x.queue ∧ fill2 x = { x with slot2 := a, queue := q } := by
  unfold fill2
  split
  case h_1 _ _ _ _ hq => exact ⟨_, _, hq ▸ List.suffix_cons _ _, rfl⟩
  case h_2 => exact ⟨_, _, List.suffix_refl _, rfl⟩

/-- Filling moves frames from the heads of the lines to the slots. -/
theorem fillSlots_eq (x : CanCh) : ∃ a b d l q, q <:+ x.queue ∧
    fillSlots x = { x with slot0 := a, slot1 := b, slot2 := d, line := l, queue := q } := by
  obtain ⟨a, l, h0⟩ := fill0_eq x
  obtain ⟨b, q, hq, h1⟩ := fill1_eq (fill0 x)
  obtain ⟨d, r, hr, h2⟩ := fill2_eq (fill1 (fill0 x))
  rw [h1] at hr
  rw [h0] at hq
  exact ⟨a, b, d, l, r, hr.trans hq, by rw [fillSlots, h2, h1, h0]⟩

theorem setSlot_eq (k : Nat) (v : Option CanTx) (x : CanCh) :
    ∃ a b d, setSlot k v x = { x with slot0 := a, slot1 := b, slot2 := d } := by
  unfold setSlot
  split
  · exact ⟨_, _, _, rfl⟩
  · split <;> exact ⟨_, _, _, rfl⟩

/-- A slot given a value and the slots filled: neither TEC nor the bus is concerned. -/
theorem fillSlots_setSlot (k : Nat) (v : Option CanTx) (x : CanCh) :
    (fillSlots (setSlot k v x)).tec = x.tec ∧ (fillSlots (setSlot k v x)).onBus = x.onBus := by
  obtain ⟨a, b, d, hs⟩ := setSlot_eq k v x
  obtain ⟨a', b', d', l, q, -, hf⟩ := fillSlots_eq (setSlot k v x)
  rw [hf, hs]
  exact ⟨rfl, rfl⟩

/-! What the ends of a transmission leave of the transmit error counter and of the bus. -/

theorem enterBusOff_effect (c : Nat) (s : State) :
    (canAt (enterBusOff c s) c).tec = (canAt s c).tec ∧ (canAt (enterBusOff c s) c).onBus = none := by
  unfold enterBusOff
  dsimp only
  rw [canAt_of_can (detect_can _ _ _), apply_ite (fun t => canAt t c), canAt_emit, ite_self, canAt_canBusEvent,
    canAt_emit]
  obtain ⟨n, hn⟩ := canAt_txFailAll c 6
    ((slotFrames (canAt s c) ++ (canAt s c).queue).filter (fun t => t.oneShot)) _
  rw [hn, canAt_setCanErr, canAt_countCan, canAt_modCanCh_same]
  exact ⟨rfl, rfl⟩

/-- The error state that the counters give moves TEC no further, and puts no frame on the bus (R267). -/
theorem applyCounters_effect (c : Nat) (s : State) :
    (canAt (applyCounters c s) c).tec = (canAt s c).tec ∧
      ((canAt s c).onBus = none → (canAt (applyCounters c s) c).onBus = none) := by
  unfold applyCounters
  dsimp only
  split
  · exact ⟨rfl, id⟩
  · split
    · obtain ⟨ht, ho⟩ := enterBusOff_effect c s
      exact ⟨ht, fun _ => ho⟩
    · rw [canAt_setCanErr]
      exact ⟨rfl, id⟩

theorem applyCounters_of_clean {c : Nat} {s : State} (he : (canAt s c).err = 0) (ht : (canAt s c).tec < 128)
    (hr : (canAt s c).recv < 128) : applyCounters c s = s := by
  unfold applyCounters
  dsimp only
  rw [if_neg (by omega), if_neg (by omega), if_neg (by omega), setCanErr_of_same he]

/-- However the frame on the bus ends, the bus is free afterwards and TEC as it was (R257, R261). -/
theorem endOnBus_effect (c cause : Nat) (s : State) :
    (canAt (endOnBus c cause s) c).tec = (canAt s c).tec ∧ (canAt (endOnBus c cause s) c).onBus = none := by
  unfold endOnBus
  dsimp only
  split
  case h_1 h => exact ⟨rfl, h⟩
  case h_2 k h =>
    split
    case h_1 t ht =>
      split
      · obtain ⟨l, hl⟩ := canAt_txFail c cause t (modCanCh c (fun x => fillSlots (setSlot k none x))
          (modCanCh c (fun x => { x with onBus := none, fastTx := none }) s))
        rw [hl, canAt_modCanCh_same, canAt_modCanCh_same]
        exact fillSlots_setSlot k none { canAt s c with onBus := none, fastTx := none }
      · rw [canAt_modCanCh_same]
        exact ⟨rfl, rfl⟩
    case h_2 =>
      rw [canAt_modCanCh_same]
      exact ⟨rfl, rfl⟩

/-! Reception (R249-R255). -/

/-- The two counters of a received frame. -/
def countReceived (c : Nat) (f : CanFrame) (s : State) : State := countCan c 1 f.data.length (countCan c 0 1 s)

theorem countReceived_frame (L : Region → Bool) (hWire : L .wire = true) (hCan : L .can = true) (c : Nat) (f : CanFrame)
    (s : State) : blank L (countReceived c f s) = blank L s := by
  rw [countReceived, countCan_frame L hWire hCan, countCan_frame L hWire hCan]

theorem countReceived_aq (c : Nat) (f : CanFrame) (s : State) : (countReceived c f s).aq = s.aq :=
  same_of_blank (countReceived_frame (only [.wire, .can]) rfl rfl c f s) .aq rfl

theorem countReceived_sys (c : Nat) (f : CanFrame) (s : State) : (countReceived c f s).sys = s.sys :=
  same_of_blank (countReceived_frame (only [.wire, .can]) rfl rfl c f s) .sys rfl

theorem countCan_filters (c k n : Nat) (s : State) : (countCan c k n s).can.filters = s.can.filters := by
  refine (apply_ite (fun t : State => t.can.filters) _ _ _).trans ?_
  rw [emit_can, ite_self]
  rfl

theorem countReceived_filters (c : Nat) (f : CanFrame) (s : State) : (countReceived c f s).can.filters = s.can.filters := by
  rw [countReceived, countCan_filters, countCan_filters]

theorem canAt_countReceived (c : Nat) (f : CanFrame) (s : State) :
    ∃ l, canAt (countReceived c f s) c = { canAt s c with counters := l } := by
  rw [countReceived, canAt_countCan, canAt_countCan]
  exact ⟨_, rfl⟩

theorem filterAt_of_filters {s t : State} (h : t.can.filters = s.can.filters) (i : Nat) : filterAt t i = filterAt s i := by
  unfold filterAt
  rw [h]

theorem firstMatch_congr {s t : State} {x y : CanCh} (h : t.can.filters = s.can.filters) (hc : y.cfg = x.cfg)
    (f : CanFrame) : firstMatch t y f = firstMatch s x f := by
  unfold firstMatch
  simp only [filterAt_of_filters h, hc]

theorem rxCellsUsed_of_aq {s t : State} (h : t.aq = s.aq) (c : Nat) : rxCellsUsed t c = rxCellsUsed s c := by
  unfold rxCellsUsed
  rw [h]

/-- A frame without room in its channel's cells is counted, and reported when the drops before it have been read
(R253). -/
def dropFrame (c : Nat) (s : State) : State :=
  let u := modCanCh c (fun x => { x with nobufRead := false }) (countCan c 6 1 s)
  let n := tget ctr0 (canAt u c).counters 6
  if (canAt s c).nobufRead || decide (tget ctr0 (canAt s c).counters 6 = 0) then
    canBusEvent c 3 0x2007 n (emit 0x2007 c u (value := n)) else u

theorem canAt_dropFrame (c : Nat) (s : State) :
    ∃ l, canAt (dropFrame c s) c = { canAt s c with counters := l, nobufRead := false } := by
  rw [dropFrame, apply_ite (fun t => canAt t c), canAt_canBusEvent, canAt_emit, ite_self, canAt_modCanCh_same,
    canAt_countCan]
  exact ⟨_, rfl⟩

/-- A received frame as the Aqueduct takes it, with the route of filter element `i` and the channel's sequence number
(R254). -/
def rxFrame (c : Nat) (f : CanFrame) (sec ns i : Nat) (s : State) : AqFrame :=
  { frame := f, chan := c, kind := 0, tow := s.sys.tow, route := (filterAt s i).route, filter := i
    sec := sec, ns := ns, seq := (canAt s c).seq }

/-- A frame that filter element `i` accepts enters the Aqueduct (R249, R254). -/
def admitFrame (c : Nat) (f : CanFrame) (sec ns i : Nat) (s : State) : State :=
  modCanCh c (fun x => { x with seq := (x.seq + 1) % 2 ^ 16 })
    (modAq (fun q => { q with inq := q.inq ++ [rxFrame c f sec ns i s] }) s)

theorem canAt_admitFrame (c : Nat) (f : CanFrame) (sec ns i : Nat) (s : State) :
    canAt (admitFrame c f sec ns i s) c = { canAt s c with seq := ((canAt s c).seq + 1) % 2 ^ 16 } :=
  canAt_modCanCh_same c _ _

/-- A counted frame at the filters of its channel (R249, R251). -/
def filterFrame (c : Nat) (f : CanFrame) (sec ns : Nat) (s : State) : State :=
  match firstMatch s (canAt s c) f with
  | none => countCan c 5 1 s
  | some i => if (filterAt s i).reject then countCan c 4 1 s else admitFrame c f sec ns i s

theorem filterFrame_of_accepted {c i : Nat} {f : CanFrame} {s : State}
    (hm : firstMatch s (canAt s c) f = some i) (hr : (filterAt s i).reject = false) (sec ns : Nat) :
    filterFrame c f sec ns s = admitFrame c f sec ns i s := by
  simp only [filterFrame, hm, hr, Bool.false_eq_true, if_false]

theorem canAt_filterFrame (c : Nat) (f : CanFrame) (sec ns : Nat) (s : State) : ∃ l n,
    canAt (filterFrame c f sec ns s) c = { canAt s c with counters := l, seq := n } := by
  unfold filterFrame
  split
  · exact ⟨_, _, canAt_countCan c 5 1 s⟩
  · split
    · exact ⟨_, _, canAt_countCan c 4 1 s⟩
    · exact ⟨_, _, canAt_admitFrame ..⟩

theorem receiveCan_eq (c : Nat) (f : CanFrame) (sec ns : Nat) (s : State) : receiveCan c f sec ns s =
    if (canAt (countReceived c f s) c).cfg.rxCells < rxCellsUsed (countReceived c f s) c + cellsOf f.data.length then
      dropFrame c (countReceived c f s)
    else filterFrame c f sec ns (countReceived c f s) := rfl

theorem canAt_receiveCan (c : Nat) (f : CanFrame) (sec ns : Nat) (s : State) : ∃ l b n,
    canAt (receiveCan c f sec ns s) c = { canAt s c with counters := l, nobufRead := b, seq := n } := by
  obtain ⟨l, hl⟩ := canAt_countReceived c f s
  rw [receiveCan_eq]
  split
  · obtain ⟨m, hm⟩ := canAt_dropFrame c (countReceived c f s)
    exact ⟨m, _, _, by rw [hm, hl]⟩
  · obtain ⟨m, n, hm⟩ := canAt_filterFrame c f sec ns (countReceived c f s)
    exact ⟨m, _, n, by rw [hm, hl]⟩

theorem receiveCan_of_accepted {c i : Nat} {f : CanFrame} {s : State}
    (hroom : rxCellsUsed s c + cellsOf f.data.length ≤ (canAt s c).cfg.rxCells)
    (hm : firstMatch s (canAt s c) f = some i) (hr : (filterAt s i).reject = false) (sec ns : Nat) :
    receiveCan c f sec ns s = admitFrame c f sec ns i (countReceived c f s) := by
  obtain ⟨l, hl⟩ := canAt_countReceived c f s
  have hcfg : (canAt (countReceived c f s) c).cfg = (canAt s c).cfg := by rw [hl]
  have hfilt := countReceived_filters c f s
  rw [receiveCan_eq, hcfg, rxCellsUsed_of_aq (countReceived_aq c f s), if_neg (Nat.not_lt.mpr hroom)]
  exact filterFrame_of_accepted ((firstMatch_congr hfilt hcfg f).trans hm) (by rw [filterAt_of_filters hfilt, hr]) sec ns

theorem receiveCan_effect {c i : Nat} {f : CanFrame} {s : State}
    (hroom : rxCellsUsed s c + cellsOf f.data.length ≤ (canAt s c).cfg.rxCells)
    (hm : firstMatch s (canAt s c) f = some i) (hr : (filterAt s i).reject = false) (sec ns : Nat) :
    (receiveCan c f sec ns s).aq.inq = s.aq.inq ++ [rxFrame c f sec ns i s] ∧
    (canAt (receiveCan c f sec ns s) c).seq = ((canAt s c).seq + 1) % 2 ^ 16 := by
  obtain ⟨l, hl⟩ := canAt_countReceived c f s
  rw [receiveCan_of_accepted hroom hm hr, canAt_admitFrame, hl]
  refine ⟨?_, rfl⟩
  rw [admitFrame, modCanCh, modCan_aq, modAq_aq, countReceived_aq, rxFrame, countReceived_sys, hl,
    filterAt_of_filters (countReceived_filters c f s), rxFrame]

theorem exec_canFrameReceived_deaf {c : Nat} {f : CanFrame} {s : State} (h : c < 12)
    (hd : ¬((canAt s c).live = 1 ∨ (canAt s c).live = 2 ∨ (canAt s c).live = 3) ∨ 2 ≤ (canAt s c).err ∨
      fmtEnabled (canAt s c).cfg f = false ∨ s.can.rail5 = false) (sec ns : Nat) (spare : Option (CanFrame × Int)) :
    exec (.canFrameReceived c f sec ns spare) s = .next s := by
  refine (guardUnit_of_ok (decide_eq_true h) _).trans (congrArg _ (if_pos ?_))
  simpa only [Bool.or_eq_true, Bool.not_eq_true', decide_eq_true_eq, decide_eq_false_iff_not, or_assoc] using hd

theorem exec_canFrameReceived_clean {c : Nat} {f : CanFrame} {s : State} {spare : Option (CanFrame × Int)} (h : c < 12)
    (hx : (canAt s c).live = 1 ∧ (canAt s c).err = 0 ∧ (canAt s c).recv = 0 ∧ (canAt s c).tec < 128)
    (hf : fmtEnabled (canAt s c).cfg f = true) (h5 : s.can.rail5 = true)
    (hs : spare.any (spareDiffers (canAt s c).cfg f) = false) (sec ns : Nat) :
    exec (.canFrameReceived c f sec ns spare) s = .next (receiveCan c f sec ns s) := by
  obtain ⟨hl, he, hr, ht⟩ := hx
  refine (guardUnit_of_ok (decide_eq_true h) _).trans (congrArg _ ?_)
  dsimp only
  rw [if_neg (by simp [hl, he, hf, h5]), hs, if_neg Bool.false_ne_true, if_pos (Or.inr hr),
    applyCounters_of_clean he ht (by omega)]

theorem canFrameReceived_effect (c sec ns : Nat) (f : CanFrame) (spare : Option (CanFrame × Int)) (s : State)
    (h : c < 12) : ∃ t, exec (.canFrameReceived c f sec ns spare) s = .next t ∧
      (¬((canAt s c).live = 1 ∨ (canAt s c).live = 2 ∨ (canAt s c).live = 3) ∨ 2 ≤ (canAt s c).err ∨
        fmtEnabled (canAt s c).cfg f = false ∨ s.can.rail5 = false → t = s) ∧
      (spare.any (spareDiffers (canAt s c).cfg f) = false →
        ((canAt s c).live = 1 ∧ (canAt s c).err = 0 ∧ (canAt s c).recv = 0 ∧ (canAt s c).tec < 128) →
        fmtEnabled (canAt s c).cfg f = true → s.can.rail5 = true →
        rxCellsUsed s c + cellsOf f.data.length ≤ (canAt s c).cfg.rxCells →
        ∀ i, firstMatch s (canAt s c) f = some i → (filterAt s i).reject = false →
          t.aq.inq = s.aq.inq ++ [rxFrame c f sec ns i s] ∧ (canAt t c).seq = ((canAt s c).seq + 1) % 2 ^ 16) := by
  obtain ⟨t, ht⟩ := exec_next (i := .canFrameReceived c f sec ns spare) (decide_eq_true h) s
  refine ⟨t, ht, fun hd => ?_, fun hs hx hf h5 hroom i hm hr => ?_⟩
  · exact Host.Outcome.next.inj (ht.symm.trans (exec_canFrameReceived_deaf h hd sec ns spare))
  · obtain rfl := Host.Outcome.next.inj (ht.symm.trans (exec_canFrameReceived_clean h hx hf h5 hs sec ns))
    exact receiveCan_effect hroom hm hr sec ns

/-! Transmission (R257, R258, R260-R262). -/

/-- The channel's mode lets it send: LOOPBACK, or NORMAL once it is integrated and the 5 V rail is there. -/
def mayTransmit (s : State) (c : Nat) : Bool :=
  decide ((canAt s c).live = 4) || (decide ((canAt s c).live = 1) && (canAt s c).integ && s.can.rail5)

theorem mayTransmit_iff {s : State} {c : Nat} : mayTransmit s c = true ↔
    (canAt s c).live = 4 ∨ ((canAt s c).live = 1 ∧ (canAt s c).integ = true ∧ s.can.rail5 = true) := by
  simp only [mayTransmit, Bool.or_eq_true, Bool.and_eq_true, decide_eq_true_eq, and_assoc]

theorem exec_canTransmitOpportunity_unable {c : Nat} {s : State} (hc : c < 12)
    (h : ((canAt s c).live ≠ 4 ∧ ¬((canAt s c).live = 1 ∧ (canAt s c).integ = true ∧ s.can.rail5 = true)) ∨
      2 ≤ (canAt s c).err ∨ (canAt s c).onBus ≠ none) (fromIdle : Bool) (loopDelay : Nat) :
    exec (.canTransmitOpportunity c fromIdle loopDelay) s = .next s := by
  refine (guardUnit_of_ok (decide_eq_true hc) _).trans (congrArg _ (if_pos ?_))
  change (!mayTransmit s c || decide (2 ≤ (canAt s c).err ∨ (canAt s c).onBus ≠ none)) = true
  rw [Bool.or_eq_true, Bool.not_eq_true', decide_eq_true_eq]
  exact h.imp_left (fun hn => Bool.eq_false_iff.mpr (fun hm => (mayTransmit_iff.mp hm).elim hn.1 hn.2))

theorem canAt_sendSlot (c k loopDelay : Nat) (s : State) : (canAt (sendSlot c k loopDelay s) c).onBus = some k := by
  refine (apply_ite (fun t => (canAt t c).onBus) _ _ _).trans ?_
  simp only [canAt_countCan, canAt_modCanCh_same, ite_self]

/-- The slots as a chance to send finds them: filled, and a frame of the queue in place of one with a higher key (R257,
R258). -/
def arrange (young : CanTx → Bool) (x : CanCh) : CanCh :=
  if (fillSlots x).cfg.txOrder = 0 then invert1 young (invert1 young (fillSlots x)) else fillSlots x

/-- A frame alone in slot 0. -/
def aloneInSlot0 (x : CanCh) : Prop := (∃ f, x.slot0 = some f) ∧ x.slot1 = none ∧ x.slot2 = none ∧ x.queue = []

theorem arrange_of_alone {x : CanCh} (h : aloneInSlot0 x) (young : CanTx → Bool) : arrange young x = x := by
  obtain ⟨⟨f, h0⟩, h1, h2, hq⟩ := h
  have hf : fillSlots x = x := by simp only [fillSlots, fill0, fill1, fill2, h0, h1, h2, hq]
  have hi : invert1 young x = x := by simp only [invert1, hq]
  rw [arrange, hf, hi, hi, ite_self]

theorem pickSlot_of_alone {x : CanCh} (h : aloneInSlot0 x) (fromIdle : Bool) (s : State) :
    pickSlot fromIdle s x = some 0 := by
  obtain ⟨⟨f, h0⟩, h1, h2, hq⟩ := h
  have hl : (List.range 3).filter (slotMay fromIdle s x) = [0] := by
    simp [List.range_succ, slotMay, slotAt, h0, h1, h2]
  simp only [pickSlot, hl, List.foldl_nil, ite_self]

theorem exec_canTransmitOpportunity_able {c : Nat} {s : State} (h : c < 12)
    (hl : (canAt s c).live = 4 ∨ ((canAt s c).live = 1 ∧ (canAt s c).integ = true ∧ s.can.rail5 = true))
    (he : (canAt s c).err < 2) (hb : (canAt s c).onBus = none) (hs : (canAt s c).stuck = false) (fromIdle : Bool)
    (loopDelay : Nat) : exec (.canTransmitOpportunity c fromIdle loopDelay) s = .next
      (let u := modCanCh c (arrange (tooYoung fromIdle s)) s
       match pickSlot fromIdle u (canAt u c) with
       | none => u
       | some k => sendSlot c k loopDelay u) := by
  have hfree : ¬(2 ≤ (canAt s c).err ∨ (canAt s c).onBus ≠ none) := fun hd => hd.elim (by omega) (fun hn => hn hb)
  have hgo : ¬(!mayTransmit s c || decide (2 ≤ (canAt s c).err ∨ (canAt s c).onBus ≠ none)) = true := by
    rw [mayTransmit_iff.mpr hl, decide_eq_false hfree]
    decide
  refine (guardUnit_of_ok (decide_eq_true h) _).trans (congrArg _ ((if_neg hgo).trans ?_))
  rw [hs, if_neg Bool.false_ne_true]
  rfl

theorem canTransmitOpportunity_effect (c loopDelay : Nat) (fromIdle : Bool) (s : State) (h : c < 12) :
    ∃ t, exec (.canTransmitOpportunity c fromIdle loopDelay) s = .next t ∧
      (((canAt s c).live ≠ 4 ∧ ¬((canAt s c).live = 1 ∧ (canAt s c).integ = true ∧ s.can.rail5 = true)) ∨
        2 ≤ (canAt s c).err ∨ (canAt s c).onBus ≠ none → t = s) ∧
      ((canAt s c).live = 4 → (canAt s c).err < 2 → (canAt s c).onBus = none → (canAt s c).stuck = false →
        (∃ f, (canAt s c).slot0 = some f) → (canAt s c).slot1 = none → (canAt s c).slot2 = none →
        (canAt s c).queue = [] → (canAt t c).onBus = some 0) := by
  obtain ⟨t, ht⟩ := exec_next (i := .canTransmitOpportunity c fromIdle loopDelay) (decide_eq_true h) s
  refine ⟨t, ht, fun hd => ?_, fun hl he hb hs h0 h1 h2 hq => ?_⟩
  · exact Host.Outcome.next.inj (ht.symm.trans (exec_canTransmitOpportunity_unable h hd fromIdle loopDelay))
  · obtain rfl := Host.Outcome.next.inj
      (ht.symm.trans (exec_canTransmitOpportunity_able h (.inl hl) he hb hs fromIdle loopDelay))
    have ha : aloneInSlot0 (canAt s c) := ⟨h0, h1, h2, hq⟩
    dsimp only
    rw [canAt_modCanCh_same, arrange_of_alone ha, pickSlot_of_alone ha]
    exact canAt_sendSlot c 0 loopDelay _

/-- The slot of a sent frame is free, the bus with it, and one is taken from TEC (R257, R267). -/
def freeSlot (k : Nat) (x : CanCh) : CanCh :=
  fillSlots (setSlot k none { x with onBus := none, fastTx := none, tec := x.tec - 1 })

theorem freeSlot_effect (k : Nat) (x : CanCh) : (freeSlot k x).tec = x.tec - 1 ∧ (freeSlot k x).onBus = none :=
  fillSlots_setSlot k none { x with onBus := none, fastTx := none, tec := x.tec - 1 }

/-- A sent frame is counted, and confirmed to the pound that asked for it (R260, R274). -/
def reportSent (c sec ns : Nat) (t : CanTx) (s : State) : State :=
  let s := countCan c 3 t.frame.data.length (countCan c 2 1 s)
  match t.src with
  | .pound p tag => if t.confirm then emit 0x2005 c s (ext := [tag, sec, ns]) (dest := some p) else s
  | .route _ => s
  | .nm => s
  | .sched _ => s

theorem canAt_reportSent (c sec ns : Nat) (t : CanTx) (s : State) :
    ∃ l, canAt (reportSent c sec ns t s) c = { canAt s c with counters := l } := by
  have hc : canAt (reportSent c sec ns t s) c = canAt (countCan c 3 t.frame.data.length (countCan c 2 1 s)) c := by
    unfold reportSent
    split
    · split
      · exact canAt_emit _ _ _ _ _ _ _ _ c
      · rfl
    all_goals rfl
  rw [hc, canAt_countCan, canAt_countCan]
  exact ⟨_, rfl⟩

theorem exec_canTxSuccess_idle {c : Nat} {s : State} (h : c < 12) (hb : (canAt s c).onBus = none) (sec ns : Nat) :
    exec (.canTxSuccess c sec ns) s = .next s := by
  refine (guardUnit_of_ok (decide_eq_true h) _).trans (congrArg _ ?_)
  simp only [hb]

theorem exec_canTxSuccess_sent {c k : Nat} {f : CanTx} {s : State} (h : c < 12) (hb : (canAt s c).onBus = some k)
    (hf : slotAt (canAt s c) k = some f) (sec ns : Nat) : exec (.canTxSuccess c sec ns) s = .next
      (let u := applyCounters c (reportSent c sec ns f (modCanCh c (freeSlot k) s))
       if (canAt s c).live = 4 then receiveCan c f.frame sec ns u else u) := by
  refine (guardUnit_of_ok (decide_eq_true h) _).trans (congrArg _ ?_)
  simp only [hb, hf]
  rfl

theorem canTxSuccess_effect (c sec ns : Nat) (s : State) (h : c < 12) : ∃ t, exec (.canTxSuccess c sec ns) s = .next t ∧
    ((canAt s c).onBus = none → t = s) ∧ (∀ k f, (canAt s c).onBus = some k → slotAt (canAt s c) k = some f →
      (canAt t c).onBus = none ∧ (canAt t c).tec = (canAt s c).tec - 1) := by
  obtain ⟨t, ht⟩ := exec_next (i := .canTxSuccess c sec ns) (decide_eq_true h) s
  refine ⟨t, ht, fun hb => ?_, fun k f hb hf => ?_⟩
  · exact Host.Outcome.next.inj (ht.symm.trans (exec_canTxSuccess_idle h hb sec ns))
  · obtain rfl := Host.Outcome.next.inj (ht.symm.trans (exec_canTxSuccess_sent h hb hf sec ns))
    obtain ⟨hft, hfb⟩ := freeSlot_effect k (canAt s c)
    obtain ⟨l, hl⟩ := canAt_reportSent c sec ns f (modCanCh c (freeSlot k) s)
    obtain ⟨hat, hab⟩ := applyCounters_effect c (reportSent c sec ns f (modCanCh c (freeSlot k) s))
    rw [hl, canAt_modCanCh_same] at hat hab
    dsimp only
    split
    · obtain ⟨m, b, n, hm⟩ := canAt_receiveCan c f.frame sec ns
        (applyCounters c (reportSent c sec ns f (modCanCh c (freeSlot k) s)))
      rw [hm]
      exact ⟨hab hfb, hat.trans hft⟩
    · exact ⟨hab hfb, hat.trans hft⟩

theorem canArbitrationLost_effect (c : Nat) (s : State) (h : c < 12) :
    ∃ t, exec (.canArbitrationLost c) s = .next t ∧ ((canAt s c).onBus = none → t = s) ∧
      ((canAt s c).onBus ≠ none → (canAt t c).onBus = none ∧ (canAt t c).tec = (canAt s c).tec) := by
  refine ⟨_, guardUnit_of_ok (decide_eq_true h) _, fun hb => if_pos hb, fun hb => ?_⟩
  rw [if_neg hb]
  obtain ⟨ht, ho⟩ := endOnBus_effect c 1 (countCan c 8 1 s)
  rw [canAt_countCan] at ht
  exact ⟨ho, ht⟩

/-! Errors (R245, R267). -/

/-- The counters of an error that counts, with the counting rule of the standard (R267, R274). -/
def countError (c : Nat) (e : CanErr) (s : State) : State :=
  let s := countCan c (errCounter (if e.kind = 5 then 2 else e.kind)) 1 s
  modCanCh c (errCount e) (if e.tx || e.again then s else countCan c 7 1 s)

theorem errCount_of_counted {e : CanErr} {x : CanCh} (ht : e.tx = true) (he : e.exempt = false) (hl : x.live ≠ 2) :
    (errCount e x).tec = min 256 (x.tec + 8) := by
  simp [errCount, ht, he, hl]

theorem tec_countError {c : Nat} {e : CanErr} {s : State} (ht : e.tx = true) (he : e.exempt = false)
    (hl : (canAt s c).live ≠ 2) : (canAt (countError c e s) c).tec = min 256 ((canAt s c).tec + 8) := by
  have hc : (canAt (countCan c (errCounter (if e.kind = 5 then 2 else e.kind)) 1 s) c).live ≠ 2 := by rwa [canAt_countCan]
  rw [countError, canAt_modCanCh_same, ht, Bool.true_or, if_pos rfl, errCount_of_counted ht he hc, canAt_countCan]

theorem canError_of_counted {c : Nat} {e : CanErr} {s : State} (hl : (canAt s c).live ≠ 0) (he : (canAt s c).err < 2)
    (hp : ¬(e.kind = 5 ∧ (canAt s c).cfg.pexEn = true)) (hx : ¬((canAt s c).cfg.sigOff = true ∧ e.xlData = true)) :
    canError c e s = applyCounters c
      (if decide (255 < (canAt (countError c e s) c).tec) || e.again || !e.tx then countError c e s
       else endOnBus c ((if e.kind = 5 then 2 else e.kind) + 2) (countError c e s)) := by
  unfold canError
  dsimp only
  rw [if_neg (by omega), if_neg (by rwa [Bool.and_eq_true, decide_eq_true_eq]),
    if_neg (by rwa [Bool.and_eq_true])]
  rfl

theorem canError_effect (c : Nat) (e : CanErr) (s : State) (h : c < 12) : ∃ t, exec (.canError c e) s = .next t ∧
    ((canAt s c).live = 0 ∨ 2 ≤ (canAt s c).err → t = s) ∧
    ((canAt s c).live ≠ 0 → (canAt s c).live ≠ 2 → (canAt s c).err < 2 → e.tx = true → e.exempt = false →
      ¬(e.kind = 5 ∧ (canAt s c).cfg.pexEn = true) → ¬((canAt s c).cfg.sigOff = true ∧ e.xlData = true) →
      (canAt t c).tec = min 256 ((canAt s c).tec + 8)) := by
  refine ⟨canError c e s, guardUnit_of_ok (decide_eq_true h) _, fun hd => if_pos hd, fun h0 h2 he ht hx hp hs => ?_⟩
  rw [canError_of_counted h0 he hp hs, (applyCounters_effect c _).1, apply_ite (fun t => (canAt t c).tec),
    (endOnBus_effect c _ _).1, ite_self, tec_countError ht hx h2]

/-! Deadlines (R262). -/

/-- The frame has waited for the channel's `tx_deadline`. -/
def pastDeadline (g : CanCfg) (now : Nat) (t : CanTx) : Bool := decide (t.enq + g.txDeadline * 1000000 ≤ now)

/-- The frame of slot `k` is past its deadline and not on the bus. -/
def slotLate (x : CanCh) (now k : Nat) : Bool :=
  match slotAt x k with
  | some t => pastDeadline x.cfg now t && decide (x.onBus ≠ some k)
  | none => false

/-- The frames of channel `x` that fail at its deadline. -/
def lateFrames (x : CanCh) (now : Nat) : List CanTx :=
  (if slotLate x now 1 then x.slot1.toList else []) ++ (if slotLate x now 2 then x.slot2.toList else []) ++
    x.queue.filter (pastDeadline x.cfg now)

/-- The record `y` without the frames that are late by the record `x`. -/
def dropLate (x : CanCh) (now : Nat) (y : CanCh) : CanCh :=
  { y with
    slot1 := if slotLate x now 1 then none else y.slot1
    slot2 := if slotLate x now 2 then none else y.slot2
    queue := y.queue.filter (fun t => !pastDeadline x.cfg now t) }

theorem deadlineCan_of_none {c : Nat} {s : State} (h : (canAt s c).cfg.txDeadline = 0) : deadlineCan c s = s := if_pos h

theorem deadlineCan_eq {c : Nat} {s : State} (h : (canAt s c).cfg.txDeadline ≠ 0) : deadlineCan c s =
    txFailAll c 7 (lateFrames (canAt s c) s.tide.counter)
      (modCanCh c (fun y => fillSlots (dropLate (canAt s c) s.tide.counter y)) s) := if_neg h

/-- At its deadline a channel loses late frames, and none stays in its queue. -/
theorem canAt_deadlineCan (c : Nat) (s : State) : ∃ a b d l q n,
    canAt (deadlineCan c s) c =
      { canAt s c with slot0 := a, slot1 := b, slot2 := d, line := l, queue := q, counters := n } ∧
    ((canAt s c).cfg.txDeadline ≠ 0 →
      ∀ t ∈ q, pastDeadline (canAt s c).cfg s.tide.counter t = false) := by
  by_cases h : (canAt s c).cfg.txDeadline = 0
  · exact ⟨_, _, _, _, _, _, by rw [deadlineCan_of_none h], fun h' => absurd h h'⟩
  · obtain ⟨n, hn⟩ := canAt_txFailAll c 7 (lateFrames (canAt s c) s.tide.counter)
      (modCanCh c (fun y => fillSlots (dropLate (canAt s c) s.tide.counter y)) s)
    obtain ⟨a, b, d, l, q, hq, hf⟩ := fillSlots_eq (dropLate (canAt s c) s.tide.counter (canAt s c))
    rw [deadlineCan_eq h, hn, canAt_modCanCh_same, hf]
    refine ⟨a, b, d, l, q, n, rfl, fun _ t ht => ?_⟩
    simpa only [Bool.not_eq_true'] using (List.mem_filter.mp (hq.subset ht)).2

theorem canTxDeadline_effect (c : Nat) (s : State) (h : c < 12) : ∃ t, exec (.canTxDeadline c) s = .next t ∧
    ((canAt s c).cfg.txDeadline = 0 → t = s) ∧ ((canAt s c).cfg.txDeadline ≠ 0 →
      ∀ f ∈ (canAt t c).queue, s.tide.counter < f.enq + (canAt s c).cfg.txDeadline * 1000000) := by
  refine ⟨deadlineCan c s, guardUnit_of_ok (decide_eq_true h) _, fun h0 => if_pos h0, fun h0 f hf => ?_⟩
  obtain ⟨a, b, d, l, q, n, ht, hq⟩ := canAt_deadlineCan c s
  rw [ht] at hf
  exact Nat.not_le.mp (of_decide_eq_false (hq h0 f hf))

/-- Settles O25: a command of a channel is the channel's record under its condition and what that record passes on;
counters and reports touch neither the bus nor TEC. -/
theorem canTrafficOfAChannel : Obligations.CanTrafficOfAChannel :=
  ⟨canFrameReceived_effect, canTransmitOpportunity_effect,
    canTxSuccess_effect, canArbitrationLost_effect, canError_effect, canTxDeadline_effect⟩

end Sys2Proof.Machine
end

section
/-! The modes of a CAN channel, its recovery from bus-off and the spare controller (O26). -/
open Sys2Proof
namespace Sys2Proof.Machine

/-! Mode changes and bus integration (R244). -/

/-- A channel that changes to OFF: its frames are discarded and its wake detector is armed (R244, R279). -/
def enterOff (c : Nat) (s : State) : State :=
  if (canWakeAt (discardCan c s) c).armed then discardCan c s else armCan c (discardCan c s)

theorem live_discardCan (c : Nat) (s : State) : (canAt (discardCan c s) c).live = 0 := by
  unfold discardCan
  dsimp only
  obtain ⟨n, hn⟩ := canAt_txFailAll c 8 (slotFrames (canAt s c) ++ (canAt s c).queue) _
  rw [hn, canAt_modCanCh_same]

theorem canAt_armCan (c i : Nat) (s : State) : canAt (armCan c s) i = canAt s i := rfl

theorem canAt_disarmCan (c i : Nat) (s : State) : canAt (disarmCan c s) i = canAt s i := rfl

theorem live_enterOff (c : Nat) (s : State) : (canAt (enterOff c s) c).live = 0 := by
  rw [enterOff, apply_ite (fun t => canAt t c), canAt_armCan, ite_self, live_discardCan]

/-- A channel that changes to mode `m`; one that was in bus-off starts anew in NORMAL (R244, R275). -/
def enterMode (c m : Nat) (s : State) : State :=
  let u := disarmCan c (modCanCh c (fun x => { x with live := m, integ := false }) s)
  if m = 1 ∧ 2 ≤ (canAt s c).err then
    setCanErr c 0 (modCanCh c (fun x => { x with tec := 0, recv := 0, byCommand := false, waitRep := false }) u)
  else u

theorem live_enterMode (c m : Nat) (s : State) : (canAt (enterMode c m s) c).live = m := by
  unfold enterMode
  dsimp only
  split
  · rw [canAt_setCanErr, canAt_modCanCh_same, canAt_disarmCan, canAt_modCanCh_same]
  · rw [canAt_disarmCan, canAt_modCanCh_same]

theorem exec_canModeChange {c : Nat} (s : State) (h : c < 12) : exec (.canModeChange c) s = .next
    (if (canAt s c).live = canTarget s c ∨ (canAt s c).onBus ≠ none then s
     else if canTarget s c = 0 then enterOff c s else enterMode c (canTarget s c) s) :=
  guardUnit_of_ok (decide_eq_true h) _

theorem canModeChange_effect (c : Nat) (s : State) (h : c < 12) : ∃ t, exec (.canModeChange c) s = .next t ∧
    (if (canAt s c).live = canTarget s c ∨ (canAt s c).onBus ≠ none then t = s
     else (canAt t c).live = canTarget s c) := by
  refine ⟨_, exec_canModeChange s h, ?_⟩
  split
  · rfl
  · split
    case isTrue h0 => rw [live_enterOff, h0]
    case isFalse => exact live_enterMode c _ s

theorem busIntegration_effect (c : Nat) (s : State) (h : c < 12) : ∃ t, exec (.busIntegration c) s = .next t ∧
    (if (canAt s c).live = 0 ∨ (canAt s c).live = 4 then t = s
     else canAt t c = { canAt s c with integ := true } ∧ others canAt c s t) := by
  refine ⟨_, guardUnit_of_ok (decide_eq_true h) _, ?_⟩
  split
  · rfl
  · exact ⟨canAt_modCanCh_same c _ s, others_modCanCh c _ s⟩

/-! Recovery (R269, R270). -/

theorem startRecovery_effect (c : Nat) (s : State) : (canAt (startRecovery c false s) c).err = 3 ∧
    (canAt (startRecovery c false s) c).boffRun = min 255 ((canAt s c).boffRun + 1) := by
  rw [startRecovery, canAt_setCanErr, canAt_modCanCh_same]
  exact ⟨rfl, rfl⟩

theorem exec_recoveryRequest {c : Nat} (s : State) (h : c < 12) : exec (.recoveryRequest c) s = .next
    (if (canAt s c).err = 2 ∧ (canAt s c).cfg.boffAuto = true ∧ (canAt s c).boffManual = false then
      startRecovery c false s else s) := by
  refine (guardUnit_of_ok (decide_eq_true h) _).trans
    (congrArg _ (ite_congr (propext ?_) (fun _ => rfl) (fun _ => rfl)))
  simp only [Bool.and_eq_true, decide_eq_true_eq, Bool.not_eq_true', and_assoc]

theorem recoveryRequest_effect (c : Nat) (s : State) (h : c < 12) : ∃ t, exec (.recoveryRequest c) s = .next t ∧
    (if (canAt s c).err = 2 ∧ (canAt s c).cfg.boffAuto = true ∧ (canAt s c).boffManual = false then
      (canAt t c).err = 3 ∧ (canAt t c).boffRun = min 255 ((canAt s c).boffRun + 1)
     else t = s) := by
  refine ⟨_, exec_recoveryRequest s h, ?_⟩
  split
  · exact startRecovery_effect c s
  · rfl

/-- The record of a channel whose recovery is complete, but for its error state. -/
def recovered (x : CanCh) : CanCh :=
  { x with
    tec := 0, recv := 0, integ := true, waitRep := false, byCommand := false
    boffManual := x.boffManual && !x.byCommand, boffRun := if x.byCommand then 0 else x.boffRun }

/-- The end of a recovery with its reports; the detection of bus-off ends with the last channel in it (R269). -/
def endRecovery (c : Nat) (s : State) : State :=
  let s := setCanErr c 0 (modCanCh c recovered s)
  let s := canBusEvent c 2 0x2003 0 (emit 0x2003 c s)
  if (List.range 12).any (fun k => decide (2 ≤ (canAt s k).err)) then s else detectEnd 0x052 s

theorem canAt_endRecovery (c : Nat) (s : State) :
    ∃ n, canAt (endRecovery c s) c = { recovered (canAt s c) with err := 0, stateCycle := n } := by
  rw [endRecovery, apply_ite (fun t => canAt t c), canAt_of_can (detectEnd_can _ _), ite_self, canAt_canBusEvent,
    canAt_emit, canAt_setCanErr, canAt_modCanCh_same]
  exact ⟨_, rfl⟩

theorem exec_recoveryComplete {c : Nat} (s : State) (h : c < 12) : exec (.recoveryComplete c) s = .next
    (if (canAt s c).err = 3 ∧ (canAt s c).live ≠ 0 then deadlineCan c (endRecovery c s) else s) := by
  refine (guardUnit_of_ok (decide_eq_true h) _).trans (congrArg _ ?_)
  by_cases hr : (canAt s c).err = 3 ∧ (canAt s c).live ≠ 0
  · rw [if_pos hr]
    exact if_neg (fun hd => hd.elim (fun he => he hr.1) hr.2)
  · rw [if_neg hr]
    exact if_pos (Decidable.not_and_iff_not_or_not.mp hr |>.imp_right Decidable.of_not_not)

theorem recoveryComplete_effect (c : Nat) (s : State) (h : c < 12) : ∃ t, exec (.recoveryComplete c) s = .next t ∧
    (if (canAt s c).err = 3 ∧ (canAt s c).live ≠ 0 then
      (canAt t c).err = 0 ∧ (canAt t c).tec = 0 ∧ (canAt t c).recv = 0 ∧ (canAt t c).integ = true
     else t = s) := by
  refine ⟨_, exec_recoveryComplete s h, ?_⟩
  split
  · obtain ⟨n, hn⟩ := canAt_endRecovery c s
    obtain ⟨a, b, d, l, q, m, hm, -⟩ := canAt_deadlineCan c (endRecovery c s)
    rw [hm, hn]
    exact ⟨rfl, rfl, rfl, rfl⟩
  · rfl

theorem exec_recoveryWaitReport {c : Nat} (s : State) (h : c < 12) : exec (.recoveryWaitReport c) s = .next
    (if (canAt s c).err = 3 ∧ (canAt s c).waitRep = false then
      canState c true (modCanCh c (fun x => { x with waitRep := true }) s) else s) := by
  refine (guardUnit_of_ok (decide_eq_true h) _).trans
    (congrArg _ (ite_congr (propext ?_) (fun _ => rfl) (fun _ => rfl)))
  simp only [Bool.and_eq_true, decide_eq_true_eq, Bool.not_eq_true']

theorem recoveryWaitReport_effect (c : Nat) (s : State) (h : c < 12) : ∃ t, exec (.recoveryWaitReport c) s = .next t ∧
    (if (canAt s c).err = 3 ∧ (canAt s c).waitRep = false then
      canAt t c = { canAt s c with waitRep := true } ∧ others canAt c s t
     else t = s) := by
  refine ⟨_, exec_recoveryWaitReport s h, ?_⟩
  split
  · exact ⟨(canAt_of_can (canState_can ..) c).trans (canAt_modCanCh_same c _ s),
      others_of_can (others_modCanCh c _ s) (canState_can ..)⟩
  · rfl

theorem boffRunReset_effect (c : Nat) (s : State) (h : c < 12) : ∃ t, exec (.boffRunReset c) s = .next t ∧
    (if (canAt s c).err = 0 then canAt t c = { canAt s c with boffRun := 0 } ∧ others canAt c s t else t = s) := by
  refine ⟨_, guardUnit_of_ok (decide_eq_true h) _, ?_⟩
  split
  · exact ⟨canAt_modCanCh_same c _ s, others_modCanCh c _ s⟩
  · rfl

/-! The spare controller (R271, R272) and the dominant timeout (R280). -/

/-- The spare at the end of a shadow period: a first mismatch keeps it for one more (R271). -/
def nextShadow (v : Can) : Can :=
  if v.mism ≠ 0 ∧ v.again = false then { v with again := true }
  else { v with shadow := (v.shadow + 1) % 12, mism := 0, again := false }

theorem exec_spareShadowPeriodEnd (s : State) : exec .spareShadowPeriodEnd s = .next
    (if s.pwr.keeper = false ∨ s.saf.pond.canSpare ≠ 0 then s else modCan nextShadow s) := by
  refine congrArg Host.Outcome.next ?_
  cases s.pwr.keeper with
  | false => rfl
  | true => simp only [Bool.not_true, Bool.true_eq_false, Bool.false_eq_true, false_or, if_false]; rfl

theorem spareShadowPeriodEnd_effect (s : State) : ∃ t, exec (.spareShadowPeriodEnd) s = .next t ∧
    (if s.pwr.keeper = false ∨ s.saf.pond.canSpare ≠ 0 then t = s
     else if s.can.mism ≠ 0 ∧ s.can.again = false then t.can = { s.can with again := true }
     else t.can = { s.can with shadow := (s.can.shadow + 1) % 12, mism := 0, again := false }) := by
  refine ⟨_, exec_spareShadowPeriodEnd s, ?_⟩
  split
  · rfl
  · split
    case isTrue hm => exact if_pos hm
    case isFalse hm => exact if_neg hm

theorem spareSelfTest_effect (pass : Bool) (s : State) (hk : s.pwr.keeper = true) :
    ∃ t, exec (.spareSelfTest pass) s = .next t ∧ (s.saf.pond.canSpare ≠ 0 → t = s) ∧
      (s.saf.pond.canSpare = 0 → pass = true →
        t.can = { s.can with passed := true, testCycle := s.cyc.number } ∧ t.saf = s.saf) := by
  refine ⟨_, rfl, fun hc => ?_, fun hc hp => ?_⟩
  · rw [ite_powered hk, if_pos hc]
  · subst hp
    rw [ite_powered hk, if_neg (not_not_intro hc)]
    exact ⟨rfl, rfl⟩

/-- The channel on C12, before POND_IN; a condemned controller joins the bad ones (R272, R273). -/
def swapped (c : Nat) (s : State) : State :=
  let u := modPond (fun p => { p with canSpare := 1 }) (modCanCh c (fun x => { x with ctrl := 12, swap := 0 }) s)
  if (canAt s c).swapCause = 1 then modCan (fun v => { v with bad := v.bad ++ [(canAt s c).ctrl] }) u else u

/-- CONTROLLER_SWAP where it acts. -/
def swapController (c : Nat) (s : State) : State :=
  pondIn 3 c (swapped c s).can.mism
    (emit 0x2008 c (swapped c s) (cause := (canAt s c).swapCause) (flags := (canAt s c).ctrl))

theorem canAt_swapController (c i : Nat) (s : State) :
    canAt (swapController c s) i = canAt (modCanCh c (fun x => { x with ctrl := 12, swap := 0 }) s) i := by
  rw [swapController, canAt_of_can (pondIn_can _ _ _ _), canAt_emit]
  exact (apply_ite (fun t => canAt t i) _ _ _).trans (ite_self _)

theorem canSpare_pondIn (kind unit : Nat) (fig : Int) (s : State) :
    (pondIn kind unit fig s).saf.pond.canSpare = s.saf.pond.canSpare := by
  refine (apply_ite (fun t : State => t.saf.pond.canSpare) _ _ _).trans ?_
  rw [pondWear_saf, ite_self, emit_saf]
  rfl

theorem canSpare_swapController (c : Nat) (s : State) : (swapController c s).saf.pond.canSpare = 1 := by
  rw [swapController, canSpare_pondIn, emit_saf]
  exact (apply_ite (fun t : State => t.saf.pond.canSpare) _ _ _).trans (ite_self _)

theorem exec_controllerSwap {c : Nat} (s : State) (h : c < 12) : exec (.controllerSwap c) s = .next
    (if (canAt s c).swap = 2 ∧ (canAt s c).onBus = none then swapController c s else s) := by
  refine (guardUnit_of_ok (decide_eq_true h) _).trans (congrArg _ ?_)
  by_cases hs : (canAt s c).swap = 2 ∧ (canAt s c).onBus = none
  · rw [if_pos hs]
    exact if_neg (fun hd => hd.elim (fun hw => hw hs.1) (fun hb => hb hs.2))
  · rw [if_neg hs]
    exact if_pos (Decidable.not_and_iff_not_or_not.mp hs)

theorem controllerSwap_effect (c : Nat) (s : State) (h : c < 12) : ∃ t, exec (.controllerSwap c) s = .next t ∧
    (if (canAt s c).swap = 2 ∧ (canAt s c).onBus = none then
      canAt t c = { canAt s c with ctrl := 12, swap := 0 } ∧ others canAt c s t ∧ t.saf.pond.canSpare = 1
     else t = s) := by
  refine ⟨_, exec_controllerSwap s h, ?_⟩
  split
  · refine ⟨?_, fun j hj => ?_, canSpare_swapController c s⟩
    · rw [canAt_swapController, canAt_modCanCh_same]
    · rw [canAt_swapController, others_modCanCh c _ s j hj]
  · rfl

theorem canDominantTimeout_effect (c : Nat) (s : State) (h : c < 12) (hk : s.pwr.keeper = true) :
    ∃ t, exec (.canDominantTimeout c) s = .next t ∧
      canAt t c = { canAt s c with stuck := true } ∧ others canAt c s t ∧ detected 0x051 true s t := by
  refine ⟨_, guardUnit_of_ok (decide_eq_true h) _, ?_⟩
  rw [ite_powered hk, canAt_of_can (detect_can _ _ _), canAt_modCanCh_same]
  exact ⟨rfl, others_of_can (others_modCanCh c _ s) (detect_can _ _ _), detected_detect rfl rfl 0x051 true⟩

/-- Settles O26: each command changes its channel's record under its condition, or the spare's, and what it reports or
detects changes neither. -/
theorem canControllerState : Obligations.CanControllerState :=
  ⟨canModeChange_effect, busIntegration_effect, recoveryRequest_effect, recoveryComplete_effect,
    recoveryWaitReport_effect, boffRunReset_effect, spareShadowPeriodEnd_effect, spareSelfTest_effect,
    controllerSwap_effect, canDominantTimeout_effect⟩

end Sys2Proof.Machine
end

section
/-! The slots, the frames, the sleep and the wake-up signals of a LIN channel (O27). -/
open Sys2Proof
namespace Sys2Proof.Machine

/-! What a channel, a frame entry and a cluster hold after each operation on the state. -/

theorem linAt_of_lin {s t : State} (h : t.lin = s.lin) (c : Nat) : linAt t c = linAt s c := by
  unfold linAt
  rw [h]

theorem linFrameAt_of_lin {s t : State} (h : t.lin = s.lin) (e : Nat) : linFrameAt t e = linFrameAt s e := by
  unfold linFrameAt
  rw [h]

theorem nmcAt_of_nm {s t : State} (h : t.nm = s.nm) (k : Nat) : nmcAt t k = nmcAt s k := by
  unfold nmcAt
  rw [h]

theorem others_modLinCh (c : Nat) (f : LinCh → LinCh) (s : State) : others linAt c s (modLinCh c f s) :=
  fun j h => linAt_modLinCh_ne c j f s h.symm

theorem linError_lin (c cause id : Nat) (s : State) : (linError c cause id s).lin = s.lin :=
  same_of_blank (linError_frame (only [.wire, .aq]) rfl rfl c cause id s) .lin rfl

theorem linSleep_lin (c cause : Nat) (s : State) : (linSleep c cause s).lin = s.lin :=
  same_of_blank (linSleep_frame (only [.wire, .aq]) rfl rfl c cause s) .lin rfl

theorem linSleep_nm (c cause : Nat) (s : State) : (linSleep c cause s).nm = s.nm :=
  same_of_blank (linSleep_frame (only [.wire, .aq]) rfl rfl c cause s) .nm rfl

theorem setLinState_nm (c st : Nat) (s : State) : (setLinState c st s).nm = s.nm :=
  same_of_blank (setLinState_frame (only [.lin]) rfl c st s) .nm rfl

theorem linSent_nm (c id : Nat) (s : State) : (linSent c id s).nm = s.nm :=
  same_of_blank (linSent_frame (only [.lin]) rfl c id s) .nm rfl

/-- `lin_state` takes its value, dated when it is a new one (R288). -/
@[simp] theorem linAt_setLinState_same (c st : Nat) (s : State) : linAt (setLinState c st s) c =
    { linAt s c with
      state := st, stateCycle := if (linAt s c).state = st then (linAt s c).stateCycle else s.cyc.number } := by
  unfold setLinState
  split
  case isTrue h => rw [← h]
  case isFalse => exact linAt_modLinCh_same c _ s

theorem others_setLinState (c st : Nat) (s : State) : others linAt c s (setLinState c st s) := by
  intro j hj
  unfold setLinState
  split
  · rfl
  · exact others_modLinCh c _ s j hj

/-- A header is followed by the response of the frame the channel publishes, and by nothing of its own else (R289). -/
@[simp] theorem linAt_linSent (c id : Nat) (s : State) :
    linAt (linSent c id s) c = { linAt s c with out := linDrives c id s } := by
  unfold linSent linDrives
  dsimp only
  split
  · exact linAt_modLinCh_same c _ _
  · rfl

theorem linDrives_modLinCh {c : Nat} {f : LinCh → LinCh} (hf : ∀ x, (f x).out = x.out) (id : Nat) (s : State) :
    linDrives c id (modLinCh c f s) = linDrives c id s := by
  have ho : (linAt (modLinCh c f s) c).out = (linAt s c).out := by rw [linAt_modLinCh_same, hf]
  unfold linDrives
  rw [ho]
  rfl

/-! The clusters of a channel, marked one after the other (R296). -/

theorem nodup_linClusters (s : State) (c : Nat) : (linClusters s c).Nodup := List.nodup_range.filter _

theorem linClusters_of_nm {s t : State} (h : t.nm = s.nm) (c : Nat) : linClusters t c = linClusters s c := by
  unfold linClusters
  simp only [nmcAt_of_nm h]

theorem nmcAt_foldl_modNmc (f : NmCluster → NmCluster) {l : List Nat} (hn : l.Nodup) {k : Nat} (hk : k ∈ l) (s : State) :
    nmcAt (l.foldl (fun s k => modNmc k f s) s) k = f (nmcAt s k) := by
  obtain ⟨u, hu, ht⟩ := foldl_at (get := nmcAt) (h := fun s k => modNmc k f s)
    (fun s i j hj => nmcAt_modNmc_ne i j f s hj.symm) l hn k hk s
  rw [ht, nmcAt_modNmc_same, hu]

theorem foldl_modNmc_lin (f : NmCluster → NmCluster) (l : List Nat) (s : State) :
    (l.foldl (fun s k => modNmc k f s) s).lin = s.lin :=
  foldl_keep (keep := State.lin) (h := fun s k => modNmc k f s) (fun _ _ => rfl) l s

/-- Every cluster of a channel is changed alike, the clusters being as they were in `s`. -/
theorem nmcAt_markClusters (f : NmCluster → NmCluster) {s t : State} (h : t.nm = s.nm) {c k : Nat}
    (hk : k ∈ linClusters s c) :
    nmcAt ((linClusters s c).foldl (fun s k => modNmc k f s) t) k = f (nmcAt s k) := by
  rw [nmcAt_foldl_modNmc f (nodup_linClusters s c) hk, nmcAt_of_nm h]

/-! The slots of a commander (R290). -/

/-- The slot that is due is begun with the header of `id`, which is no event's. -/
def openSlot (id : Nat) (x : LinCh) : LinCh := { x with due := false, header := some id, event := false }

/-- The header of an unconditional slot, and what the channel publishes after it. -/
def slotHeader (c id : Nat) (s : State) : State := linSent c id (modLinCh c (openSlot id) s)

theorem linAt_slotHeader (c id : Nat) (s : State) : linAt (slotHeader c id s) c =
    { linAt s c with due := false, header := some id, event := false, out := linDrives c id s } := by
  rw [slotHeader, linAt_linSent, linAt_modLinCh_same, linDrives_modLinCh (f := openSlot id) (fun _ => rfl)]
  rfl

theorem exec_linSlotStart_unpowered {c : Nat} {s : State} (h : c < 8) (h5 : s.can.rail5 = false) :
    exec (.linSlotStart c) s = .next (modLinCh c (fun x => { x with due := false }) s) := by
  refine (guardUnit_of_ok (decide_eq_true h) _).trans (congrArg _ (if_pos ?_))
  rw [linLive, h5]
  rfl

theorem exec_linSlotStart_idle {c : Nat} {s : State} (h : c < 8) (h5 : s.can.rail5 = true)
    (hi : (linAt s c).due = false ∨ (linAt s c).role ≠ 1 ∨ (linAt s c).state ≠ 1) :
    exec (.linSlotStart c) s = .next s := by
  refine (guardUnit_of_ok (decide_eq_true h) _).trans (congrArg _ ?_)
  dsimp only
  rw [linLive, h5, if_neg (by decide), if_pos]
  rwa [Bool.or_eq_true, Bool.not_eq_true', decide_eq_true_eq]

theorem exec_linSlotStart_unconditional {c k : Nat} {s : State} (h : c < 8) (h5 : s.can.rail5 = true)
    (hd : (linAt s c).due = true) (hr : (linAt s c).role = 1) (hs : (linAt s c).state = 1)
    (ht : (linTable s c (linAt s c).table)[(linAt s c).entry]? = some k) (hk : (linSlotAt s (256 * c + k)).kind = 0) :
    exec (.linSlotStart c) s = .next (slotHeader c (linSlotAt s (256 * c + k)).pid s) := by
  have hid : slotId s c (linSlotAt s (256 * c + k)) = some (linSlotAt s (256 * c + k)).pid := by
    simp only [slotId, hk]
  refine (guardUnit_of_ok (decide_eq_true h) _).trans (congrArg _ ?_)
  dsimp only
  rw [linLive, h5, if_neg (by decide), if_neg (by simp [hd, hr, hs]), ht]
  have hev : decide ((0 : Nat) = 1) = false := rfl
  have hdg : decide ((0 : Nat) = 3 ∧
      (some (linSlotAt s (256 * c + k)).pid).isSome = true) = false := rfl
  simp only [hid, hk, hev, hdg, Bool.or_false]
  rfl

theorem linSlotStart_effect (c : Nat) (s : State) (h : c < 8) : ∃ t, exec (.linSlotStart c) s = .next t ∧
    (s.can.rail5 = false → linAt t c = { linAt s c with due := false } ∧ others linAt c s t) ∧
    (s.can.rail5 = true → (linAt s c).due = false ∨ (linAt s c).role ≠ 1 ∨ (linAt s c).state ≠ 1 → t = s) ∧
    (s.can.rail5 = true → (linAt s c).due = true → (linAt s c).role = 1 → (linAt s c).state = 1 →
      ∀ k, (linTable s c (linAt s c).table)[(linAt s c).entry]? = some k → (linSlotAt s (256 * c + k)).kind = 0 →
        linAt t c = { linAt s c with
          due := false, header := some (linSlotAt s (256 * c + k)).pid, event := false
          out := linDrives c (linSlotAt s (256 * c + k)).pid s }) := by
  obtain ⟨t, ht⟩ := exec_next (i := .linSlotStart c) (decide_eq_true h) s
  refine ⟨t, ht, fun h5 => ?_, fun h5 hi => ?_, fun h5 hd hr hs k hk h0 => ?_⟩
  · obtain rfl := Host.Outcome.next.inj (ht.symm.trans (exec_linSlotStart_unpowered h h5))
    exact ⟨linAt_modLinCh_same c _ s, others_modLinCh c _ s⟩
  · exact Host.Outcome.next.inj (ht.symm.trans (exec_linSlotStart_idle h h5 hi))
  · obtain rfl := Host.Outcome.next.inj (ht.symm.trans (exec_linSlotStart_unconditional h h5 hd hr hs hk h0))
    exact linAt_slotHeader c _ s

/-! The response to a header, and its absence (R289, R292, R297). -/

/-- The header is closed. -/
def closeHeader (c : Nat) (s : State) : State :=
  modLinCh c (fun x => { x with header := none, event := false, goSleep := false }) s

/-- The data `d` of a subscribed frame is kept in the frame's entry (R289). -/
def keepResponse (c id : Nat) (d : List Byte) (s : State) : State :=
  modLinFrame (linEntry c id) (fun f =>
    { f with data := d.map (·.toNat) ++ f.data.drop (d.map (·.toNat)).length, cycle := s.cyc.number }) s

/-- A response as the Aqueduct takes it, with its frame's route and the channel's sequence number (R297). -/
def responseFrame (c id sec ns : Nat) (d : List Byte) (s : State) : AqFrame :=
  { frame := { id := id, dlc := d.length, data := d }, chan := 0x40 + c, kind := 1, tow := s.sys.tow
    route := (linFrameAt s (linEntry c id)).route, sec := sec, ns := ns, seq := (linAt s c).seq }

/-- A response without error to the header of `id`, a subscribed frame. -/
def acceptResponse (c id sec ns : Nat) (d : List Byte) (s : State) : State :=
  modAq (fun q => { q with inq := q.inq ++ [responseFrame c id sec ns d s] })
    (modLinCh c (fun y => { y with seq := (y.seq + 1) % 2 ^ 16, diag := y.diag && decide (id ≠ 0x3D) })
      (keepResponse c id d (closeHeader c s)))

theorem linAt_acceptResponse (c id sec ns : Nat) (d : List Byte) (s : State) :
    linAt (acceptResponse c id sec ns d s) c =
      { linAt s c with
        header := none, event := false, goSleep := false, seq := ((linAt s c).seq + 1) % 2 ^ 16
        diag := (linAt s c).diag && decide (id ≠ 0x3D) } := by
  have hk : linAt (keepResponse c id d (closeHeader c s)) c = linAt (closeHeader c s) c := rfl
  have ha : linAt (acceptResponse c id sec ns d s) c = linAt (modLinCh c _ (keepResponse c id d (closeHeader c s))) c := rfl
  rw [ha, linAt_modLinCh_same, hk, closeHeader, linAt_modLinCh_same]

theorem linFrameAt_acceptResponse (c id sec ns : Nat) (d : List Byte) (s : State) :
    (linFrameAt (acceptResponse c id sec ns d s) (linEntry c id)).cycle = s.cyc.number := by
  have ha : linFrameAt (acceptResponse c id sec ns d s) (linEntry c id) =
      linFrameAt (keepResponse c id d (closeHeader c s)) (linEntry c id) := rfl
  rw [ha, keepResponse, linFrameAt_modLinFrame_same]
  rfl

theorem exec_linResponseReceived_unasked {c : Nat} {s : State} (h : c < 8) (h5 : s.can.rail5 = true)
    (hh : (linAt s c).header = none) (err chk sec ns : Nat) (data : List Byte) :
    exec (.linResponseReceived c err data chk sec ns) s = .next s := by
  refine (guardUnit_of_ok (decide_eq_true h) _).trans (congrArg _ ?_)
  simp only [linLive, h5, hh, Bool.not_true, Bool.false_eq_true, if_false]

theorem exec_linResponseReceived_accepted {c id chk : Nat} {s : State} {data : List Byte} (h : c < 8)
    (h5 : s.can.rail5 = true) (hh : (linAt s c).header = some id) (hg : (linAt s c).goSleep = false)
    (hd : (linFrameAt s (linEntry c id)).dir = 2)
    (hc : chk = linChecksum (linFrameAt s (linEntry c id)).enhanced id (data.take (linFrameAt s (linEntry c id)).len))
    (sec ns : Nat) : exec (.linResponseReceived c 0 data chk sec ns) s = .next
      (acceptResponse c id sec ns (data.take (linFrameAt s (linEntry c id)).len) s) := by
  refine (guardUnit_of_ok (decide_eq_true h) _).trans (congrArg _ ?_)
  simp only [linLive, h5, hh, hg, hd, ← hc, Bool.not_true, Bool.false_eq_true, if_false, ne_eq, not_true_eq_false,
    and_false]
  rfl

theorem linResponseReceived_effect (c err chk sec ns : Nat) (data : List Byte) (s : State) (h : c < 8) :
    ∃ t, exec (.linResponseReceived c err data chk sec ns) s = .next t ∧
      (s.can.rail5 = true → (linAt s c).header = none → t = s) ∧
      (s.can.rail5 = true → ∀ id, (linAt s c).header = some id → (linAt s c).goSleep = false → err = 0 →
        (linFrameAt s (linEntry c id)).dir = 2 →
        chk = linChecksum (linFrameAt s (linEntry c id)).enhanced id (data.take (linFrameAt s (linEntry c id)).len) →
        (linAt t c).header = none ∧ (linAt t c).seq = ((linAt s c).seq + 1) % 2 ^ 16 ∧
          (linFrameAt t (linEntry c id)).cycle = s.cyc.number ∧
          t.aq.inq = s.aq.inq ++ [responseFrame c id sec ns (data.take (linFrameAt s (linEntry c id)).len) s]) := by
  obtain ⟨t, ht⟩ := exec_next (i := .linResponseReceived c err data chk sec ns) (decide_eq_true h) s
  refine ⟨t, ht, fun h5 hh => ?_, fun h5 id hh hg he hd hc => ?_⟩
  · exact Host.Outcome.next.inj (ht.symm.trans (exec_linResponseReceived_unasked h h5 hh err chk sec ns data))
  · subst he
    obtain rfl := Host.Outcome.next.inj (ht.symm.trans (exec_linResponseReceived_accepted h h5 hh hg hd hc sec ns))
    rw [linAt_acceptResponse]
    exact ⟨rfl, rfl, linFrameAt_acceptResponse .., rfl⟩

/-- The header is given up. -/
def dropHeader (c : Nat) (s : State) : State := modLinCh c (fun x => { x with header := none, event := false }) s

/-- A header that nobody answers: counted and reported for a subscribed frame (R292). -/
def missResponse (c id : Nat) (s : State) : State :=
  let u := dropHeader c s
  if (linFrameAt s (linEntry c id)).dir = 2 then
    linError c 1 id (modLinFrame (linEntry c id) (fun f => { f with noResp := sat 16 (f.noResp + 1) }) u)
  else u

theorem missResponse_effect (c id : Nat) (s : State) : (linAt (missResponse c id s) c).header = none ∧
    (linFrameAt (missResponse c id s) (linEntry c id)).noResp =
      (if (linFrameAt s (linEntry c id)).dir = 2 then sat 16 ((linFrameAt s (linEntry c id)).noResp + 1)
       else (linFrameAt s (linEntry c id)).noResp) := by
  have hu : (linAt (dropHeader c s) c).header = none := by rw [dropHeader, linAt_modLinCh_same]
  unfold missResponse
  dsimp only
  split
  · rw [linAt_of_lin (linError_lin ..), linFrameAt_of_lin (linError_lin ..), linFrameAt_modLinFrame_same]
    exact ⟨hu, rfl⟩
  · exact ⟨hu, rfl⟩

theorem exec_linNoResponse {c : Nat} (s : State) (h : c < 8) : exec (.linNoResponse c) s = .next
    (match (linAt s c).header with
     | none => s
     | some id => missResponse c id s) :=
  guardUnit_of_ok (decide_eq_true h) _

theorem linNoResponse_effect (c : Nat) (s : State) (h : c < 8) : ∃ t, exec (.linNoResponse c) s = .next t ∧
    ((linAt s c).header = none → t = s) ∧ (∀ id, (linAt s c).header = some id → (linAt t c).header = none ∧
      (linFrameAt t (linEntry c id)).noResp =
        (if (linFrameAt s (linEntry c id)).dir = 2 then sat 16 ((linFrameAt s (linEntry c id)).noResp + 1)
         else (linFrameAt s (linEntry c id)).noResp)) := by
  refine ⟨_, exec_linNoResponse s h, fun hh => ?_, fun id hh => ?_⟩
  · rw [hh]
  · rw [hh]
    exact missResponse_effect c id s

/-! A header at a responder (R288, R296, R298). -/

/-- The channel that takes the header of `id`: operational, its wake-up answered. -/
def headerTaken (c id rate : Nat) (s : State) : State :=
  setLinState c 1 (modLinCh c (fun x => { x with
    rateSeen := rate, header := some id, event := false, signals := 0, wakeFail := false }) s)

theorem headerTaken_nm (c id rate : Nat) (s : State) : (headerTaken c id rate s).nm = s.nm :=
  setLinState_nm c 1 _

theorem linAt_headerTaken (c id rate : Nat) (s : State) :
    (linAt (headerTaken c id rate s) c).state = 1 ∧ (linAt (headerTaken c id rate s) c).rateSeen = rate := by
  rw [headerTaken, linAt_setLinState_same, linAt_modLinCh_same]
  exact ⟨rfl, rfl⟩

/-- A header with good parity: it counts as a PDU of the channel's clusters, and the frame it names is published. -/
def takeHeader (c id rate : Nat) (s : State) : State :=
  linSent c id ((linClusters s c).foldl (fun s k => modNmc k (fun n => { n with evPdu := true }) s)
    (headerTaken c id rate s))

theorem takeHeader_effect (c id rate : Nat) (s : State) : (linAt (takeHeader c id rate s) c).state = 1 ∧
    (linAt (takeHeader c id rate s) c).rateSeen = rate ∧
    ∀ k ∈ linClusters s c, (nmcAt (takeHeader c id rate s) k).evPdu = true := by
  obtain ⟨hs, hr⟩ := linAt_headerTaken c id rate s
  rw [takeHeader, linAt_linSent, linAt_of_lin (foldl_modNmc_lin ..)]
  refine ⟨hs, hr, fun k hk => ?_⟩
  rw [nmcAt_of_nm (linSent_nm ..), nmcAt_markClusters _ (headerTaken_nm c id rate s) hk]

/-- A header does not reach a channel that is no awake responder, or one at a rate that is not admitted (R288). -/
def missesHeader (c rate : Nat) (s : State) : Prop :=
  (linAt s c).role ≠ 2 ∨ (linAt s c).state = 2 ∨ (linAt s c).state = 0 ∨ s.can.rail5 = false ∨
    115 * (linAt s c).rate < 100 * rate ∨ 100 * rate < 85 * (linAt s c).rate

theorem exec_linHeaderReceived_missed {c rate : Nat} {s : State} (h : c < 8) (hm : missesHeader c rate s) (pid : Nat) :
    exec (.linHeaderReceived c pid rate) s = .next s := by
  refine (guardUnit_of_ok (decide_eq_true h) _).trans (congrArg _ ?_)
  dsimp only
  split
  · rfl
  case isFalse ha =>
    obtain ⟨hr, h2, h0, h5⟩ := not_or.mp ha |>.imp_right (fun h => not_or.mp h |>.imp_right not_or.mp)
    exact if_pos ((((hm.resolve_left hr).resolve_left h2).resolve_left h0).resolve_left h5)

theorem exec_linHeaderReceived_heard {c rate : Nat} {s : State} (h : c < 8) (hm : ¬missesHeader c rate s) (pid : Nat) :
    exec (.linHeaderReceived c pid rate) s = .next
      (if pidOk pid then takeHeader c (pid % 64) rate s else linError c 5 (pid % 64) s) := by
  simp only [missesHeader, not_or] at hm
  obtain ⟨hr, h2, h0, h5, hhi, hlo⟩ := hm
  refine (guardUnit_of_ok (decide_eq_true h) _).trans (congrArg _ ?_)
  dsimp only
  rw [if_neg (by simp [hr, h2, h0, h5, linLive]), if_neg (not_or.mpr ⟨hhi, hlo⟩)]
  cases hp : pidOk pid with
  | false => rfl
  | true =>
    simp only [Bool.not_true, Bool.false_eq_true, if_false, if_true]
    exact congrArg (fun l => linSent c _ (List.foldl _ _ l)) (linClusters_of_nm (headerTaken_nm ..) c)

theorem linHeaderReceived_effect (c pid rate : Nat) (s : State) (h : c < 8) :
    ∃ t, exec (.linHeaderReceived c pid rate) s = .next t ∧
      ((linAt s c).role ≠ 2 ∨ (linAt s c).state = 2 ∨ (linAt s c).state = 0 ∨ s.can.rail5 = false ∨
        115 * (linAt s c).rate < 100 * rate ∨ 100 * rate < 85 * (linAt s c).rate → t = s) ∧
      ((linAt s c).role = 2 → ((linAt s c).state = 1 ∨ (linAt s c).state = 3) → s.can.rail5 = true →
        100 * rate ≤ 115 * (linAt s c).rate → 85 * (linAt s c).rate ≤ 100 * rate →
        (pidOk pid = false → linAt t c = linAt s c) ∧
        (pidOk pid = true → (linAt t c).state = 1 ∧ (linAt t c).rateSeen = rate ∧
          ∀ k ∈ linClusters s c, (nmcAt t k).evPdu = true)) := by
  obtain ⟨t, ht⟩ := exec_next (i := .linHeaderReceived c pid rate) (decide_eq_true h) s
  refine ⟨t, ht, fun hm => ?_, fun hr hs h5 hhi hlo => ?_⟩
  · exact Host.Outcome.next.inj (ht.symm.trans (exec_linHeaderReceived_missed h hm pid))
  · have hm : ¬missesHeader c rate s := by
      simp only [missesHeader, hr, h5, ne_eq, not_true_eq_false, Bool.true_eq_false, false_or]
      omega
    obtain rfl := Host.Outcome.next.inj (ht.symm.trans (exec_linHeaderReceived_heard h hm pid))
    refine ⟨fun hp => ?_, fun hp => ?_⟩
    · rw [hp]
      exact linAt_of_lin (linError_lin ..) c
    · rw [hp]
      exact takeHeader_effect c (pid % 64) rate s

/-! Go-to-sleep and bus idle (R296, R303). -/

/-- A reason for sleep of cause `cause` marks every cluster of the channel. -/
def markSleep (c cause : Nat) (f : NmCluster → NmCluster) (s : State) : State :=
  (linClusters s c).foldl (fun s k => modNmc k f s) (linSleep c cause s)

theorem markSleep_lin (c cause : Nat) (f : NmCluster → NmCluster) (s : State) : (markSleep c cause f s).lin = s.lin :=
  (foldl_modNmc_lin ..).trans (linSleep_lin ..)

theorem nmcAt_markSleep {c k : Nat} {s : State} (hk : k ∈ linClusters s c) (cause : Nat) (f : NmCluster → NmCluster) :
    nmcAt (markSleep c cause f s) k = f (nmcAt s k) :=
  nmcAt_markClusters f (linSleep_nm c cause s) hk

theorem linGoToSleepReceived_effect (c : Nat) (s : State) (h : c < 8) :
    ∃ t, exec (.linGoToSleepReceived c) s = .next t ∧
      ((linAt s c).role ≠ 2 ∨ (linAt s c).state = 2 ∨ s.can.rail5 = false → t = s) ∧
      ((linAt s c).role = 2 → (linAt s c).state ≠ 2 → s.can.rail5 = true →
        t.lin = s.lin ∧ ∀ k ∈ linClusters s c, (nmcAt t k).evSleep = true) := by
  have he : exec (.linGoToSleepReceived c) s = .next
      (if (linAt s c).role ≠ 2 ∨ (linAt s c).state = 2 ∨ s.can.rail5 = false then s
       else markSleep c 1 (fun n => { n with evSleep := true }) s) :=
    guardUnit_of_ok (decide_eq_true h) _
  refine ⟨_, he, fun hd => if_pos hd, fun hr hs h5 => ?_⟩
  rw [if_neg (by simp [hr, hs, h5])]
  exact ⟨markSleep_lin .., fun k hk => by rw [nmcAt_markSleep hk]⟩

theorem linBusIdle_effect (c : Nat) (s : State) (h : c < 8) : ∃ t, exec (.linBusIdle c) s = .next t ∧
    ((linAt s c).role ≠ 2 ∨ (linAt s c).state = 2 → t = s) ∧
    ((linAt s c).role = 2 → (linAt s c).state ≠ 2 →
      t.lin = s.lin ∧ ∀ k ∈ linClusters s c, (nmcAt t k).evIdle = true) := by
  have he : exec (.linBusIdle c) s = .next
      (if (linAt s c).role ≠ 2 ∨ (linAt s c).state = 2 then s
       else markSleep c 2 (fun n => { n with evIdle := true }) s) :=
    guardUnit_of_ok (decide_eq_true h) _
  refine ⟨_, he, fun hd => if_pos hd, fun hr hs => ?_⟩
  rw [if_neg (by simp [hr, hs])]
  exact ⟨markSleep_lin .., fun k hk => by rw [nmcAt_markSleep hk]⟩

/-! Wake-up signals (R298). -/

/-- One more wake-up signal; the first of a new block reports, once, that the block before it was not answered. -/
def signalAgain (c : Nat) (s : State) : State :=
  if (linAt s c).signals < 3 then modLinCh c (fun x => { x with signals := x.signals + 1 }) s
  else
    let u := modLinCh c (fun x => { x with signals := 1, wakeFail := true }) s
    if (linAt s c).wakeFail then u else emit 0x2104 c u

theorem signalAgain_effect (c : Nat) (s : State) :
    (linAt (signalAgain c s) c).signals = (if (linAt s c).signals < 3 then (linAt s c).signals + 1 else 1) ∧
    (linAt (signalAgain c s) c).wakeFail = ((linAt s c).wakeFail || decide (3 ≤ (linAt s c).signals)) ∧
    others linAt c s (signalAgain c s) := by
  unfold signalAgain
  dsimp only
  by_cases h3 : (linAt s c).signals < 3
  · rw [if_pos h3, if_pos h3, linAt_modLinCh_same, decide_eq_false (Nat.not_le.mpr h3), Bool.or_false]
    exact ⟨rfl, rfl, others_modLinCh c _ s⟩
  · have hl : ∀ u : State, (if (linAt s c).wakeFail then u else emit 0x2104 c u).lin = u.lin := fun u => by
      rw [apply_ite State.lin, emit_lin, ite_self]
    rw [if_neg h3, if_neg h3, linAt_of_lin (hl _), linAt_modLinCh_same, decide_eq_true (Nat.not_lt.mp h3), Bool.or_true]
    exact ⟨rfl, rfl, fun j hj => (linAt_of_lin (hl _) j).trans (others_modLinCh c _ s j hj)⟩

theorem exec_linWakeRetry {c : Nat} (s : State) (h : c < 8) : exec (.linWakeRetry c) s = .next
    (if (linAt s c).role = 2 ∧ (linAt s c).state = 3 ∧ linClaimed s c = true then signalAgain c s else s) := by
  refine (guardUnit_of_ok (decide_eq_true h) _).trans (congrArg _ ?_)
  by_cases hw : (linAt s c).role = 2 ∧ (linAt s c).state = 3 ∧ linClaimed s c = true
  · obtain ⟨hr, hs, hc⟩ := id hw
    rw [if_pos hw]
    exact if_neg (by simp [hr, hs, hc])
  · rw [if_neg hw]
    exact if_pos (by simpa only [Decidable.not_and_iff_not_or_not, Bool.not_eq_true] using hw)

theorem linWakeRetry_effect (c : Nat) (s : State) (h : c < 8) : ∃ t, exec (.linWakeRetry c) s = .next t ∧
    (if (linAt s c).role = 2 ∧ (linAt s c).state = 3 ∧ linClaimed s c = true then
      (linAt t c).signals = (if (linAt s c).signals < 3 then (linAt s c).signals + 1 else 1) ∧
        (linAt t c).wakeFail = ((linAt s c).wakeFail || decide (3 ≤ (linAt s c).signals)) ∧ others linAt c s t
     else t = s) := by
  refine ⟨_, exec_linWakeRetry s h, ?_⟩
  split
  · exact signalAgain_effect c s
  · rfl

/-- The table of a waking commander runs, its first slot at the next boundary. -/
def startTable (c : Nat) (s : State) : State :=
  setLinState c 1 (modLinCh c (fun x => { x with running := true, left := 0 }) s)

theorem startTable_effect (c : Nat) (s : State) : (linAt (startTable c s) c).state = 1 ∧
    (linAt (startTable c s) c).left = 0 ∧ others linAt c s (startTable c s) := by
  rw [startTable, linAt_setLinState_same, linAt_modLinCh_same]
  exact ⟨rfl, rfl, fun j hj => (others_setLinState c 1 _ j hj).trans (others_modLinCh c _ s j hj)⟩

theorem exec_linScheduleResume {c : Nat} (s : State) (h : c < 8) : exec (.linScheduleResume c) s = .next
    (if (linAt s c).role = 1 ∧ (linAt s c).state = 3 then startTable c s else s) := by
  refine (guardUnit_of_ok (decide_eq_true h) _).trans (congrArg _ ?_)
  by_cases hw : (linAt s c).role = 1 ∧ (linAt s c).state = 3
  · rw [if_pos hw]
    exact if_neg (fun hd => hd.elim (fun hr => hr hw.1) (fun hs => hs hw.2))
  · rw [if_neg hw]
    exact if_pos (Decidable.not_and_iff_not_or_not.mp hw)

theorem linScheduleResume_effect (c : Nat) (s : State) (h : c < 8) : ∃ t, exec (.linScheduleResume c) s = .next t ∧
    (if (linAt s c).role = 1 ∧ (linAt s c).state = 3 then
      (linAt t c).state = 1 ∧ (linAt t c).left = 0 ∧ others linAt c s t
     else t = s) := by
  refine ⟨_, exec_linScheduleResume s h, ?_⟩
  split
  · exact startTable_effect c s
  · rfl

/-- Settles O27: a command of a channel changes that channel's record and frame entries under its condition; what it
reports changes neither, and what it means for sleep goes to the channel's clusters, each marked once. -/
theorem linSlotsAndSleep : Obligations.LinSlotsAndSleep :=
  ⟨linSlotStart_effect, linResponseReceived_effect, linNoResponse_effect, linHeaderReceived_effect,
    linGoToSleepReceived_effect, linBusIdle_effect, linWakeRetry_effect, linScheduleResume_effect⟩

end Sys2Proof.Machine
end

section
/-! The network-management clusters: their wake detectors, PDUs and timers, isolation and TC10 (O28). -/
open Sys2Proof
namespace Sys2Proof.Machine

/-! What a cluster, a T1 port and a port hold after each operation on the state. -/

theorem t1At_of_nm {s t : State} (h : t.nm = s.nm) (k : Nat) : t1At t k = t1At s k := by
  unfold t1At
  rw [h]

theorem portAt_of_net {s t : State} (h : t.net = s.net) (k : Nat) : portAt t k = portAt s k := by
  unfold portAt
  rw [h]

theorem others_modNmc (k : Nat) (f : NmCluster → NmCluster) (s : State) : others nmcAt k s (modNmc k f s) :=
  fun j h => nmcAt_modNmc_ne k j f s h.symm

theorem others_modT1 (k : Nat) (f : T1 → T1) (s : State) : others t1At k s (modT1 k f s) :=
  fun j h => t1At_modT1_ne k j f s h.symm

theorem regWake_nm (src det : Nat) (s : State) : (regWake src det s).nm = s.nm :=
  same_of_blank (regWake_frame (only [.wire, .tp, .net, .pwr]) rfl rfl rfl rfl src det s) .nm rfl

theorem busWake_lin (kind bus src : Nat) (selective : Bool) (s : State) : (busWake kind bus src selective s).lin = s.lin :=
  same_of_blank (busWake_frame (only [.wire, .tp, .nm, .net, .pwr]) rfl rfl rfl rfl rfl kind bus src selective s) .lin rfl

theorem setLink_nm (p l : Nat) (s : State) : (setLink p l s).nm = s.nm :=
  same_of_blank (setLink_frame (only [.wire, .net]) rfl rfl p l s) .nm rfl

theorem tc10_nm (k cause : Nat) (s : State) : (tc10 k cause s).nm = s.nm := emit_nm _ _ _ _ _ _ _ _

theorem tc10_net (k cause : Nat) (s : State) : (tc10 k cause s).net = s.net := emit_net _ _ _ _ _ _ _ _

/-- Arming a detector concerns the bus, not its clusters. -/
theorem nmcAt_armBus (kind bus : Nat) (s : State) (k : Nat) : nmcAt (armBus kind bus s) k = nmcAt s k := by
  unfold armBus
  split
  · rfl
  · split <;> rfl

theorem portAt_countPort (p k n : Nat) (s : State) (i : Nat) : portAt (countPort p k n s) i = portAt s i := by
  refine (apply_ite (fun t => portAt t i) _ _ _).trans ?_
  rw [portAt_of_net (emit_net ..), ite_self]
  rfl

/-- The link of a port takes its value, whatever becomes of the frame on the wire (R331). -/
theorem link_setLink (p l : Nat) (s : State) : (portAt (setLink p l s) p).link = l := by
  have hd : ∀ u : State, portAt (if l = 0 then countPort p 18 1 u else u) p = portAt u p := fun u => by
    rw [apply_ite (fun t => portAt t p), portAt_countPort, ite_self]
  unfold setLink
  split
  case isTrue h => exact h
  case isFalse =>
    dsimp only
    rw [portAt_of_net (emit_net ..)]
    split
    · split
      · rw [hd, portAt_modPort_same]
      · rw [portAt_countPort, portAt_modPort_same, hd, portAt_modPort_same]
    · rw [hd, portAt_modPort_same]

/-! A wake of a bus marks the enabled clusters of the bus (R282, R302). -/

/-- The record of a cluster after a wake of a bus. -/
def wokenBy (kind bus : Nat) (n : NmCluster) : NmCluster :=
  if n.en = true ∧ n.kind = kind ∧ n.bus = bus then { n with evWake := true } else n

/-- A wake of a bus at one cluster. -/
def markWake (kind bus : Nat) (s : State) (k : Nat) : State :=
  if (nmcAt s k).en && decide ((nmcAt s k).kind = kind ∧ (nmcAt s k).bus = bus) then
    modNmc k (fun n => { n with evWake := true }) s
  else s

theorem nmcAt_markWake_same (kind bus : Nat) (s : State) (k : Nat) :
    nmcAt (markWake kind bus s k) k = wokenBy kind bus (nmcAt s k) := by
  unfold markWake wokenBy
  rw [apply_ite (fun t => nmcAt t k), nmcAt_modNmc_same]
  simp only [Bool.and_eq_true, decide_eq_true_eq]

theorem nmcAt_markWake_ne (kind bus : Nat) (s : State) (k j : Nat) (h : j ≠ k) :
    nmcAt (markWake kind bus s k) j = nmcAt s j := by
  unfold markWake
  rw [apply_ite (fun t => nmcAt t j), nmcAt_modNmc_ne k j _ s h.symm, ite_self]

theorem nmcAt_busWake {j : Nat} (h : j < 32) (kind bus src : Nat) (selective : Bool) (s : State) :
    nmcAt (busWake kind bus src selective s) j = wokenBy kind bus (nmcAt s j) := by
  obtain ⟨u, hu, ht⟩ := foldl_at (nmcAt_markWake_ne kind bus) (List.range 32) List.nodup_range j (List.mem_range.mpr h) s
  rw [busWake, nmcAt_of_nm ((regWake_nm ..).trans (emit_nm ..)), ← hu, ← nmcAt_markWake_same, ← ht]
  rfl

/-! The wake detectors (R282, R284). -/

theorem nmcAt_canWakes {j : Nat} (h : j < 32) (c : Nat) (selective : Bool) (s : State) :
    nmcAt (canWakes c selective s) j = wokenBy 0 c (nmcAt s j) :=
  nmcAt_busWake h 0 c 3 selective _

theorem exec_canWake_wup {k : Nat} (s : State) (h : k < 12) (a b d e : Nat) : exec (.canWake k (.wup a b d e)) s = .next
    (if (canWakeAt s k).armed then canStimulus k (.wup a b d e) s else s) :=
  guardUnit_of_ok (decide_eq_true h) _

theorem canWake_effect (k a b d e : Nat) (s : State) (h : k < 12) :
    ∃ t, exec (.canWake k (.wup a b d e)) s = .next t ∧ ((canWakeAt s k).armed = false → t = s) ∧
      ((canWakeAt s k).armed = true → (canWakeAt s k).live.kind = 0 → 250 * (canWakeAt s k).live.tFilter ≤ a →
        250 * (canWakeAt s k).live.tFilter ≤ b → 250 * (canWakeAt s k).live.tFilter ≤ d →
        e ≤ 1000000 * (canWakeAt s k).live.tWup → ∀ j, j < 32 → nmcAt t j = wokenBy 0 k (nmcAt s j)) := by
  refine ⟨_, exec_canWake_wup s h a b d e, fun ha => ?_, fun ha hk h1 h2 h3 h4 j hj => ?_⟩
  · rw [ha, if_neg Bool.false_ne_true]
  · have hw : canStimulus k (.wup a b d e) s = canWakes k false s := if_pos ⟨hk, h1, h2, h3, h4⟩
    rw [if_pos ha, hw, nmcAt_canWakes hj]

/-- The detector of a LIN channel wakes the bus, and is off (R282). -/
def linWakes (c : Nat) (s : State) : State :=
  busWake 1 c 4 false (modLinCh c (fun x => { x with armed := false }) s)

theorem linWakes_effect (c : Nat) (s : State) : linAt (linWakes c s) c = { linAt s c with armed := false } ∧
    others linAt c s (linWakes c s) ∧ ∀ j, j < 32 → nmcAt (linWakes c s) j = wokenBy 1 c (nmcAt s j) := by
  refine ⟨?_, fun j hj => ?_, fun j hj => nmcAt_busWake hj 1 c 4 false _⟩
  · rw [linWakes, linAt_of_lin (busWake_lin ..), linAt_modLinCh_same]
  · rw [linWakes, linAt_of_lin (busWake_lin ..), others_modLinCh c _ s j hj]

theorem linWake_effect (k dom : Nat) (s : State) (h : k < 8) : ∃ t, exec (.linWake k dom) s = .next t ∧
    (if (linAt s k).armed = true ∧ 10 * (linAt s k).wakeFilter ≤ dom then
      linAt t k = { linAt s k with armed := false } ∧ others linAt k s t ∧
        ∀ j, j < 32 → nmcAt t j = wokenBy 1 k (nmcAt s j)
     else t = s) := by
  have he : exec (.linWake k dom) s = .next
      (if (linAt s k).armed && decide (10 * (linAt s k).wakeFilter ≤ dom) then linWakes k s else s) :=
    guardUnit_of_ok (decide_eq_true h) _
  refine ⟨_, he, ?_⟩
  simp only [Bool.and_eq_true, decide_eq_true_eq]
  split
  · exact linWakes_effect k s
  · rfl

/-! PDUs and timers of a cluster (R294-R297). -/

/-- The record of a cluster that takes the PDU `b` (R294, R301). -/
def tookPdu (b : List Byte) (n : NmCluster) : NmCluster :=
  { n with
    evPdu := n.evPdu || !bitOf 1 (leAt b 2 1), evRepeatPdu := n.evRepeatPdu || bitOf 1 (leAt b 2 1)
    seen := addSeen (leAt b 1 1) (leAt b 3 1) n.seen }

/-- The cluster listens, and the PDU has the format of R294. -/
def hearsPdu (n : NmCluster) (id : Nat) (ide : Bool) (b : List Byte) : Prop :=
  n.en = true ∧ nmListens n id ide = true ∧ n.state ≠ .moored ∧ b.length = 8 ∧ leAt b 0 1 = 1 ∧ leAt b 2 1 < 16

theorem hearsPdu_iff {n : NmCluster} {id : Nat} {ide : Bool} {b : List Byte} : hearsPdu n id ide b ↔
    ¬(!n.en || !nmListens n id ide ||
      decide (n.state = .moored ∨ b.length ≠ 8 ∨ leAt b 0 1 ≠ 1 ∨ 16 ≤ leAt b 2 1)) = true := by
  simp only [hearsPdu, Bool.or_eq_true, Bool.not_eq_true', decide_eq_true_eq, not_or, Bool.not_eq_false, Decidable.not_not,
    Nat.not_le, and_assoc, ne_eq]

theorem exec_nmPduReceived_deaf {k id : Nat} {ide : Bool} {b : List Byte} {s : State} (h : k < 32)
    (hp : ¬hearsPdu (nmcAt s k) id ide b) : exec (.nmPduReceived k id ide b) s = .next s :=
  (guardUnit_of_ok (decide_eq_true h) _).trans (congrArg _ (if_pos (Decidable.not_not.mp (mt hearsPdu_iff.mpr hp))))

theorem exec_nmPduReceived_heard {k id : Nat} {ide : Bool} {b : List Byte} {s : State} (h : k < 32)
    (hp : hearsPdu (nmcAt s k) id ide b) : exec (.nmPduReceived k id ide b) s = .next (modNmc k (tookPdu b) s) :=
  (guardUnit_of_ok (decide_eq_true h) _).trans (congrArg _ (if_neg (hearsPdu_iff.mp hp)))

theorem nmPduReceived_effect (k id : Nat) (ide : Bool) (b : List Byte) (s : State) (h : k < 32) :
    ∃ t, exec (.nmPduReceived k id ide b) s = .next t ∧
      (if (nmcAt s k).en = true ∧ nmListens (nmcAt s k) id ide = true ∧ (nmcAt s k).state ≠ .moored ∧ b.length = 8 ∧
          leAt b 0 1 = 1 ∧ leAt b 2 1 < 16 then
        nmcAt t k = tookPdu b (nmcAt s k) ∧ others nmcAt k s t
       else t = s) := by
  split
  case isTrue hp => exact ⟨_, exec_nmPduReceived_heard h hp, nmcAt_modNmc_same k _ s, others_modNmc k _ s⟩
  case isFalse hp => exact ⟨s, exec_nmPduReceived_deaf h hp, rfl⟩

/-- A mark on one cluster under a condition changes that cluster, and else nothing. -/
theorem modNmc_if_effect (p : Prop) [Decidable p] (k : Nat) (f : NmCluster → NmCluster) (s : State) :
    let t := if p then modNmc k f s else s
    if p then nmcAt t k = f (nmcAt s k) ∧ others nmcAt k s t else t = s := by
  dsimp only
  split
  · exact ⟨nmcAt_modNmc_same k f s, others_modNmc k f s⟩
  · rfl

theorem repeatTimeEnd_effect (k : Nat) (s : State) (h : k < 32) : ∃ t, exec (.repeatTimeEnd k) s = .next t ∧
    (if (nmcAt s k).state = .castingOff then
      nmcAt t k = { nmcAt s k with evRepeatEnd := true } ∧ others nmcAt k s t
     else t = s) :=
  ⟨_, guardUnit_of_ok (decide_eq_true h) _, modNmc_if_effect _ k _ s⟩

theorem nmTimeout_effect (k : Nat) (s : State) (h : k < 32) : ∃ t, exec (.nmTimeout k) s = .next t ∧
    (if (nmcAt s k).state = .underway then
      nmcAt t k = { nmcAt s k with evTimeout := true } ∧ others nmcAt k s t
     else t = s) :=
  ⟨_, guardUnit_of_ok (decide_eq_true h) _, modNmc_if_effect _ k _ s⟩

/-- The end of `t_wait`; past the apply phase the detector of the bus is armed at once (R297). -/
def waitEnded (k : Nat) (s : State) : State :=
  let u := modNmc k (fun n => { n with evWait := true }) s
  if s.cyc.phase = .apply ∨ s.cyc.phase = .sealing then armBus (nmcAt s k).kind (nmcAt s k).bus u else u

theorem nmcAt_waitEnded (k j : Nat) (s : State) :
    nmcAt (waitEnded k s) j = nmcAt (modNmc k (fun n => { n with evWait := true }) s) j := by
  unfold waitEnded
  rw [apply_ite (fun t => nmcAt t j), nmcAt_armBus, ite_self]

theorem waitTimeEnd_effect (k : Nat) (s : State) (h : k < 32) : ∃ t, exec (.waitTimeEnd k) s = .next t ∧
    (if (nmcAt s k).state = .mooring then nmcAt t k = { nmcAt s k with evWait := true } ∧ others nmcAt k s t
     else t = s) := by
  have he : exec (.waitTimeEnd k) s = .next (if (nmcAt s k).state ≠ .mooring then s else waitEnded k s) :=
    guardUnit_of_ok (decide_eq_true h) _
  refine ⟨_, he, ?_⟩
  rw [ite_not]
  split
  · exact ⟨(nmcAt_waitEnded k k s).trans (nmcAt_modNmc_same k _ s),
      fun j hj => (nmcAt_waitEnded k j s).trans (others_modNmc k _ s j hj)⟩
  · rfl

/-! The keep-awake report (R301). -/

/-- The report of a cluster: who has kept it awake since the last one. -/
def watchReport (k : Nat) (s : State) : KaReport :=
  { cluster := k, pounds := (nmcAt s k).repeaters, cycle := s.cyc.number
    nodes := ((nmcAt s k).seen.foldr insSeen []).take 8 }

/-- The report is written, and the counting starts anew. -/
def writeReport (k : Nat) (s : State) : State :=
  emit 0x2203 k (modNm (fun v => { v with report := watchReport k s, log := v.log ++ [watchReport k s] })
    (modNmc k (fun n => { n with seen := [], repeaters := 0 }) s)) (value := (watchReport k s).nodes.length)

theorem writeReport_nm (k : Nat) (s : State) : (writeReport k s).nm =
    { (modNmc k (fun n => { n with seen := [], repeaters := 0 }) s).nm with
      report := watchReport k s, log := s.nm.log ++ [watchReport k s] } :=
  emit_nm _ _ _ _ _ _ _ _

theorem nmcAt_writeReport (k j : Nat) (s : State) :
    nmcAt (writeReport k s) j = nmcAt (modNmc k (fun n => { n with seen := [], repeaters := 0 }) s) j := by
  unfold nmcAt
  rw [writeReport_nm]

theorem writeReport_effect (k : Nat) (s : State) :
    nmcAt (writeReport k s) k = { nmcAt s k with seen := [], repeaters := 0 } ∧ others nmcAt k s (writeReport k s) ∧
      (writeReport k s).nm.report.cluster = k ∧ (writeReport k s).nm.report.pounds = (nmcAt s k).repeaters ∧
      (writeReport k s).nm.log = s.nm.log ++ [(writeReport k s).nm.report] := by
  rw [writeReport_nm]
  exact ⟨(nmcAt_writeReport k k s).trans (nmcAt_modNmc_same k _ s),
    fun j hj => (nmcAt_writeReport k j s).trans (others_modNmc k _ s j hj), rfl, rfl, rfl⟩

theorem exec_keepWatch {k : Nat} (s : State) (h : k < 32) : exec (.keepWatch k) s = .next
    (if (nmcAt s k).state = .underway ∧ (nmcAt s k).kind ≠ 1 ∧ nmClaimed s k = false then writeReport k s else s) := by
  refine (guardUnit_of_ok (decide_eq_true h) _).trans (congrArg _ ?_)
  by_cases hw : (nmcAt s k).state = .underway ∧ (nmcAt s k).kind ≠ 1 ∧ nmClaimed s k = false
  · obtain ⟨hs, hk, hc⟩ := id hw
    rw [if_pos hw]
    exact if_neg (by simp [hs, hk, hc])
  · rw [if_neg hw]
    exact if_pos (by simpa only [Decidable.not_and_iff_not_or_not, ne_eq, Decidable.not_not, Bool.not_eq_false] using hw)

theorem keepWatch_effect (k : Nat) (s : State) (h : k < 32) : ∃ t, exec (.keepWatch k) s = .next t ∧
    (if (nmcAt s k).state = .underway ∧ (nmcAt s k).kind ≠ 1 ∧ nmClaimed s k = false then
      nmcAt t k = { nmcAt s k with seen := [], repeaters := 0 } ∧ others nmcAt k s t ∧ t.nm.report.cluster = k ∧
        t.nm.report.pounds = (nmcAt s k).repeaters ∧ t.nm.log = s.nm.log ++ [t.nm.report]
     else t = s) := by
  refine ⟨_, exec_keepWatch s h, ?_⟩
  split
  · exact writeReport_effect k s
  · rfl

/-! Isolation (R221, R300). -/

theorem setTpCauses_isolated (new : Nat) (s : State) : (setTpCauses new s).tp.isolated = s.tp.isolated := by
  unfold setTpCauses
  dsimp only
  split
  · rfl
  · rw [faultFall_tp]
    split
    · rw [emit_tp]
      rfl
    · rw [emit_tp]
      split <;> rfl

/-- A central pound of the zone runs. -/
def centralRuns (s : State) : Bool := (List.range 32).any (fun p => (poundAt s p).central && pThere s p)

/-- The zone is isolated: its hold runs where one is configured, and the isolation is reported. -/
def isolated (s : State) : State :=
  emit 0x2204 0x200 (modNm (fun v => { v with holdOn := decide (v.isoHold ≠ 0) })
    (modTp (fun t => { t with isolated := true }) s)) (flags := 1)

/-- The same with the cause of the Towpath that it is configured to set. -/
def isolate (s : State) : State := if (isolated s).tp.isoTowpath then tpSet 5 (isolated s) else isolated s

theorem isolated_tp (s : State) : (isolated s).tp = { s.tp with isolated := true } := emit_tp _ _ _ _ _ _ _ _

theorem isolated_nm (s : State) : (isolated s).nm = { s.nm with holdOn := decide (s.nm.isoHold ≠ 0) } :=
  emit_nm _ _ _ _ _ _ _ _

theorem isolate_nm (s : State) : (isolate s).nm = (isolated s).nm := by
  rw [isolate, apply_ite State.nm, tpSet_nm, ite_self]

theorem isolate_effect (s : State) : (isolate s).tp.isolated = true ∧
    (isolate s).nm.holdOn = decide (s.nm.isoHold ≠ 0) ∧
    (isolate s).tp.causes = (if s.tp.isoTowpath then s.tp.causes ||| 32 else s.tp.causes) := by
  rw [isolate_nm, isolated_nm]
  unfold isolate
  have hi : (isolated s).tp.isoTowpath = s.tp.isoTowpath := by rw [isolated_tp]
  rw [hi]
  split
  · rw [tpSet, setTpCauses_isolated, setTpCauses_causes, isolated_tp]
    exact ⟨rfl, rfl, rfl⟩
  · rw [isolated_tp]
    exact ⟨rfl, rfl, rfl⟩

theorem exec_isolationTimeout (s : State) : exec .isolationTimeout s = .next
    (if !s.fv.started || s.tp.isolated || !centralRuns s then s else isolate s) := rfl

theorem isolationTimeout_effect (s : State) : ∃ t, exec (.isolationTimeout) s = .next t ∧
    (s.fv.started = false ∨ s.tp.isolated = true → t = s) ∧
    (s.fv.started = true → s.tp.isolated = false → centralRuns s = true →
      t.tp.isolated = true ∧ t.nm.holdOn = decide (s.nm.isoHold ≠ 0) ∧
        t.tp.causes = (if s.tp.isoTowpath then s.tp.causes ||| 32 else s.tp.causes)) := by
  refine ⟨_, exec_isolationTimeout s, fun hd => if_pos ?_, fun hs hi hc => ?_⟩
  · rw [Bool.or_eq_true, Bool.or_eq_true, Bool.not_eq_true']
    exact .inl hd
  · rw [hs, hi, hc]
    exact isolate_effect s

/-! TC10 at a T1 port (R302). -/

/-- The port is asleep: no request of its own stays open. -/
def sleepPort (k : Nat) (s : State) : State :=
  tc10 k 2 (setLink k 2 (modT1 k (fun t => { t with asking := false }) s))

theorem sleepPort_effect (k : Nat) (s : State) :
    (t1At (sleepPort k s) k).asking = false ∧ (portAt (sleepPort k s) k).link = 2 := by
  rw [sleepPort, t1At_of_nm ((tc10_nm ..).trans (setLink_nm ..)), t1At_modT1_same, portAt_of_net (tc10_net ..),
    link_setLink]
  exact ⟨rfl, rfl⟩

theorem tc10SleepAck_effect (k : Nat) (s : State) (h : k < 8) : ∃ t, exec (.tc10SleepAck k) s = .next t ∧
    (if (t1At s k).asking = true then (t1At t k).asking = false ∧ (portAt t k).link = 2 else t = s) := by
  have he : exec (.tc10SleepAck k) s = .next (if (t1At s k).asking then sleepPort k s else s) :=
    guardUnit_of_ok (decide_eq_true h) _
  refine ⟨_, he, ?_⟩
  split
  · exact sleepPort_effect k s
  · rfl

theorem tc10AckTimeout_effect (k : Nat) (s : State) (h : k < 8) : ∃ t, exec (.tc10AckTimeout k) s = .next t ∧
    (if (t1At s k).asking = true then
      t1At t k = { t1At s k with asking := false, rej := sat 16 ((t1At s k).rej + 1) } ∧ others t1At k s t ∧
        t.net = s.net
     else t = s) := by
  refine ⟨_, guardUnit_of_ok (decide_eq_true h) _, ?_⟩
  split
  · exact ⟨(t1At_of_nm (tc10_nm ..) k).trans (t1At_modT1_same k _ s),
      fun j hj => (t1At_of_nm (tc10_nm ..) j).trans (others_modT1 k _ s j hj), tc10_net ..⟩
  · rfl

/-- An enabled cluster of the port is Casting off or Underway. -/
def portBusy (s : State) (k : Nat) : Bool :=
  (List.range 32).any (fun j => (nmcAt s j).en && decide ((nmcAt s j).kind = 2 ∧ (nmcAt s j).bus = k) &&
    decide ((nmcAt s j).state = .castingOff ∨ (nmcAt s j).state = .underway))

theorem portBusy_of_quiet {s : State} {k : Nat} (h : ∀ j, j < 32 → (nmcAt s j).en = true → (nmcAt s j).kind = 2 →
    (nmcAt s j).bus = k → (nmcAt s j).state = .moored ∨ (nmcAt s j).state = .mooring) : portBusy s k = false := by
  refine List.any_eq_false.mpr fun j hj hb => ?_
  simp only [Bool.and_eq_true, decide_eq_true_eq] at hb
  obtain ⟨⟨hen, hkind, hbus⟩, hs⟩ := hb
  rcases h j (List.mem_range.mp hj) hen hkind hbus with hm | hm <;> simp [hm] at hs

theorem exec_tc10PeerSleepRequest {k : Nat} (s : State) (h : k < 8) : exec (.tc10PeerSleepRequest k) s = .next
    (if (t1At s k).en && (t1At s k).accept && decide ((portAt s k).link = 1) && !portBusy s k then sleepPort k s
     else s) :=
  guardUnit_of_ok (decide_eq_true h) _

theorem tc10PeerSleepRequest_effect (k : Nat) (s : State) (h : k < 8) :
    ∃ t, exec (.tc10PeerSleepRequest k) s = .next t ∧
      ((t1At s k).en = false ∨ (t1At s k).accept = false ∨ (portAt s k).link ≠ 1 → t = s) ∧
      ((t1At s k).en = true → (t1At s k).accept = true → (portAt s k).link = 1 →
        (∀ j, j < 32 → (nmcAt s j).en = true → (nmcAt s j).kind = 2 → (nmcAt s j).bus = k →
          (nmcAt s j).state = .moored ∨ (nmcAt s j).state = .mooring) →
        (t1At t k).asking = false ∧ (portAt t k).link = 2) := by
  refine ⟨_, exec_tc10PeerSleepRequest s h, fun hd => if_neg ?_, fun hen ha hl hq => ?_⟩
  · intro hc
    simp only [Bool.and_eq_true, decide_eq_true_eq] at hc
    obtain ⟨⟨⟨hen, ha⟩, hl⟩, -⟩ := hc
    simp [hen, ha, hl] at hd
  · rw [hen, ha, decide_eq_true hl, portBusy_of_quiet hq]
    exact sleepPort_effect k s

/-- A wake-up on the line of a sleeping port. -/
def wakePort (k : Nat) (s : State) : State := busWake 2 k 5 false (tc10 k 3 (setLink k 3 s))

theorem nmcAt_wakePort {j : Nat} (h : j < 32) (k : Nat) (s : State) :
    nmcAt (wakePort k s) j = wokenBy 2 k (nmcAt s j) := by
  rw [wakePort, nmcAt_busWake h, nmcAt_of_nm ((tc10_nm ..).trans (setLink_nm ..))]

theorem tc10Wake_effect (k : Nat) (s : State) (h : k < 8) : ∃ t, exec (.tc10Wake k) s = .next t ∧
    (if (t1At s k).en = true ∧ (portAt s k).link = 2 ∧ (s.pwr.slept = false ∨ bitOf 2 s.pwr.wakeMask = true) then
      ∀ j, j < 32 → nmcAt t j = wokenBy 2 k (nmcAt s j)
     else t = s) := by
  have he : exec (.tc10Wake k) s = .next
      (if (t1At s k).en && decide ((portAt s k).link = 2) && (!s.pwr.slept || bitOf 2 s.pwr.wakeMask) then wakePort k s
       else s) :=
    guardUnit_of_ok (decide_eq_true h) _
  refine ⟨_, he, ?_⟩
  simp only [Bool.and_eq_true, Bool.or_eq_true, Bool.not_eq_true', decide_eq_true_eq, and_assoc]
  split
  · exact fun j hj => nmcAt_wakePort hj k s
  · rfl

/-- Settles O28: a detector that wakes marks the enabled clusters of its bus one by one; every other command changes the
record of its own cluster or port, and what it reports, arms or registers changes no cluster. -/
theorem networkManagementEvents : Obligations.NetworkManagementEvents :=
  ⟨canWake_effect, linWake_effect, nmPduReceived_effect, repeatTimeEnd_effect, nmTimeout_effect, waitTimeEnd_effect,
    keepWatch_effect, isolationTimeout_effect, fun _ => ⟨_, rfl, rfl⟩, tc10SleepAck_effect, tc10AckTimeout_effect,
    tc10PeerSleepRequest_effect, tc10Wake_effect⟩

end Sys2Proof.Machine
end

section
/-! The immediate actions of ROUTE, PORT, BASIN, STREAM, SYS, POUND and TOW (O37). -/
open Sys2Proof
namespace Sys2Proof.Machine

/-! What the acceptance of a request leaves alone. -/

theorem taken_net (r : Req) (s : State) : (taken r s).net = s.net := by rw [taken, accepted_net, received_net]

theorem taken_tow (r : Req) (s : State) : (taken r s).tow = s.tow := by rw [taken, accepted_tow, received_tow]

theorem routeAt_taken (r : Req) (s : State) (i : Nat) : routeAt (taken r s) i = routeAt s i := by
  rw [routeAt, taken, accepted_aq, received_aq, routeAt]

theorem queueAt_taken (r : Req) (s : State) (i : Nat) : queueAt (taken r s) i = queueAt s i := by
  rw [queueAt, taken_net, queueAt]

theorem streamAt_taken (r : Req) (s : State) (i : Nat) : streamAt (taken r s) i = streamAt s i := by
  rw [streamAt, taken_net, streamAt]

theorem tpAt_taken (r : Req) (s : State) (i : Nat) : tpAt (taken r s) i = tpAt s i := by
  rw [tpAt, taken_tow, tpAt]

theorem poundAt_taken (r : Req) (s : State) (i : Nat) : poundAt (taken r s) i = poundAt s i :=
  poundAt_of_core ((accepted_fv_fv _ _).trans (received_fv_fv _ _)) i

theorem inHandover_taken (r : Req) (s : State) : inHandover (taken r s) = inHandover s :=
  inHandover_of_img ((accepted_img _ _).trans (received_img _ _))

/-! Routes, ports, queues and streams. -/

theorem routeAt_clearRoute {i : Nat} (h : i < 0x4000) (s : State) :
    routeAt (clearRoute i s) i = { routeAt s i with hits := 0, drops := 0, rateRep := false } ∧
      others routeAt i s (clearRoute i s) := by
  rw [clearRoute, if_pos h]
  exact ⟨routeAt_modRoute_same .., fun j hj => routeAt_modRoute_ne _ _ _ _ hj.symm⟩

theorem routeClearCounters_effect (r : Req) (s : State) (h : ActPasses routeClass 1 r s) :
    ∃ t, exec (.routeClearCounters r) s = .next t ∧ ∃ u, t = okTo routeClass 3 (actReq 1 r) [] u ∧
      u = clearRoute r.inst (taken r s) ∧ (r.inst < 0x4000 →
        routeAt u r.inst = { routeAt s r.inst with hits := 0, drops := 0, rateRep := false } ∧
        others routeAt r.inst s u) := by
  have he := cmdAct_immediate h rfl (by decide) rfl rfl
  refine ⟨_, rfl, _, he, rfl, fun hi => ?_⟩
  obtain ⟨hc, ho⟩ := routeAt_clearRoute hi (taken r s)
  rw [routeAt_taken] at hc
  exact ⟨hc, fun j hj => (ho j hj).trans (routeAt_taken r s j)⟩

theorem portClearCounters_effect (r : Req) (s : State) (h : ActPasses portClass 1 r s) :
    ∃ t, exec (.portClearCounters r) s = .next t ∧ ∃ u, t = okTo portClass 3 (actReq 1 r) [] u ∧
      u.net.counters = s.net.counters.filter (fun e => decide (e.1 / 32 ≠ r.inst - 0x100)) := by
  have he := cmdAct_immediate h rfl (by decide) rfl rfl
  refine ⟨_, rfl, _, he, ?_⟩
  dsimp only
  rw [modNet_net, taken_net]

/-- The counters of the device, or of a queue, from 0 (R389). -/
def clearBasin (i : Nat) (s : State) : State :=
  if i = 0x4000 then modNet (fun v => { v with globals := [] }) s
  else modQueue (i - 0x2100) (fun q => { q with counters := [], dropRep := false, agedRep := false }) s

theorem basinClearCounters_effect (r : Req) (s : State) (h : ActPasses basinClass 1 r s) :
    ∃ t, exec (.basinClearCounters r) s = .next t ∧ ∃ u, t = okTo basinClass 3 (actReq 1 r) [] u ∧
      (r.inst = 0x4000 → u.net = { s.net with globals := [] }) ∧
      (r.inst ≠ 0x4000 → queueAt u (r.inst - 0x2100) =
          { queueAt s (r.inst - 0x2100) with counters := [], dropRep := false, agedRep := false } ∧
        others queueAt (r.inst - 0x2100) s u) := by
  refine ⟨_, rfl, clearBasin r.inst (taken r s), cmdAct_immediate h rfl (by decide) rfl rfl, fun hi => ?_, fun hi => ?_⟩
  · rw [clearBasin, if_pos hi, modNet_net, taken_net]
  · rw [clearBasin, if_neg hi, queueAt_modQueue_same, queueAt_taken]
    exact ⟨rfl, fun j hj => (queueAt_modQueue_ne _ _ _ _ hj.symm).trans (queueAt_taken r s j)⟩

theorem streamUnblock_effect (r : Req) (s : State) (h : ActPasses streamClass 1 r s) :
    ∃ t, exec (.streamUnblock r) s = .next t ∧ ∃ u, t = okTo streamClass 3 (actReq 1 r) [] u ∧
      streamAt u r.inst = { streamAt s r.inst with blocked := false, redLatched := false } ∧
      others streamAt r.inst s u := by
  refine ⟨_, rfl, _, cmdAct_immediate h rfl (by decide) rfl rfl, ?_, fun j hj => ?_⟩
  · rw [streamAt_modStream_same, streamAt_taken]
  · rw [streamAt_modStream_ne _ _ _ _ hj.symm, streamAt_taken]

theorem streamClearCounters_effect (r : Req) (s : State) (h : ActPasses streamClass 2 r s) :
    ∃ t, exec (.streamClearCounters r) s = .next t ∧ ∃ u, t = okTo streamClass 3 (actReq 2 r) [] u ∧
      streamAt u r.inst = { streamAt s r.inst with counters := [], redRep := false, rogueRep := false } ∧
      others streamAt r.inst s u := by
  refine ⟨_, rfl, _, cmdAct_immediate h rfl (by decide) rfl rfl, ?_, fun j hj => ?_⟩
  · rw [streamAt_modStream_same, streamAt_taken]
  · rw [streamAt_modStream_ne _ _ _ _ hj.symm, streamAt_taken]

/-! The counters of a stream. -/

theorem streamAt_of_net {s t : State} (h : t.net = s.net) (i : Nat) : streamAt t i = streamAt s i := by
  rw [streamAt, h, streamAt]

/-- A stream counter (R390), without the event of its half-way mark. -/
def bumpS (k n : Nat) (x : Stream) : Stream :=
  { x with counters := tput ctr0 k ((tget ctr0 x.counters k + n) % 2 ^ (if k = 1 then 48 else 32)) x.counters }

theorem countS_net (i k n : Nat) (s : State) : (countS i k n s).net = (modStream i (bumpS k n) s).net := by
  unfold countS
  dsimp only
  rw [apply_ite State.net, emit_net, ite_self]
  rfl

theorem streamAt_countS_same (i k n : Nat) (s : State) : streamAt (countS i k n s) i = bumpS k n (streamAt s i) :=
  (streamAt_of_net (countS_net i k n s) i).trans (streamAt_modStream_same ..)

theorem streamAt_countS_ne {i j : Nat} (k n : Nat) (s : State) (h : j ≠ i) :
    streamAt (countS i k n s) j = streamAt s j :=
  (streamAt_of_net (countS_net i k n s) j).trans (streamAt_modStream_ne _ _ _ _ h.symm)

theorem streamResetSeq_effect (r : Req) (s : State) (h : ActPasses streamClass 3 r s) :
    ∃ t, exec (.streamResetSeq r) s = .next t ∧ ∃ u, t = okTo streamClass 3 (actReq 3 r) [] u ∧
      (streamAt u r.inst).next = none ∧ (streamAt u r.inst).takeAny = true := by
  refine ⟨_, rfl, _, cmdAct_immediate h rfl (by decide) rfl rfl, ?_⟩
  rw [streamAt_of_net (emit_net ..), streamAt_countS_same, streamAt_modStream_same, streamAt_modStream_same]
  exact ⟨rfl, rfl⟩

/-! Transports and pounds. -/

theorem sysClearCounters_effect (r : Req) (s : State) (h : ActPasses sysClass 1 r s) :
    ∃ t, exec (.sysClearCounters r) s = .next t ∧ ∃ u, t = okTo sysClass 3 (actReq 1 r) [] u ∧
      (pqAt u (r.inst - 0x200)).counters = [] ∧ others pqAt (r.inst - 0x200) (taken r s) u := by
  refine ⟨_, rfl, _, cmdAct_immediate h rfl (by decide) rfl rfl, ?_, fun j hj => pqAt_modPq_ne _ _ _ _ hj.symm⟩
  rw [pqAt_modPq_same]

/-- A reset that an accepted request begins. -/
theorem startReset_taken (p reason : Nat) (r : Req) (s : State) (hh : inHandover s = false)
    (hr : (poundAt s p).state = .running) : (poundAt (startReset p reason (taken r s)) p).state = .resetting ∧
      (poundAt (startReset p reason (taken r s)) p).reason = reason :=
  poundAt_startReset p reason ((inHandover_taken r s).trans hh) ((congrArg Pound.state (poundAt_taken r s p)).trans hr)

theorem poundReset_effect (r : Req) (s : State) (h : ActPasses poundClass 1 r s) :
    ∃ t, exec (.poundReset r) s = .next t ∧ ∃ u, t = okTo poundClass 3 (actReq 1 r) [] u ∧
      u = startReset r.inst (if r.pound = r.inst then 1 else 2) (taken r s) ∧
      (inHandover s = false → (poundAt s r.inst).state = .running → (poundAt u r.inst).state = .resetting ∧
        (poundAt u r.inst).reason = if r.pound = r.inst then 1 else 2) := by
  have he := cmdAct_immediate h rfl (by decide) rfl rfl
  refine ⟨_, rfl, _, he, ?_⟩
  dsimp only
  exact ⟨rfl, startReset_taken r.inst _ r s⟩

theorem poundRemove_effect (r : Req) (s : State) (h : ActPasses poundClass 2 r s) :
    ∃ t, exec (.poundRemove r) s = .next t ∧ ∃ u, t = okTo poundClass 3 (actReq 2 r) [] u ∧
      u = startReset r.inst 6 (taken r s) ∧
      (inHandover s = false → (poundAt s r.inst).state = .running → (poundAt u r.inst).state = .resetting ∧
        (poundAt u r.inst).reason = 6) := by
  have he := cmdAct_immediate h rfl (by decide) rfl rfl
  refine ⟨_, rfl, _, he, ?_⟩
  dsimp only
  exact ⟨rfl, startReset_taken r.inst _ r s⟩

/-! The tow: what leaves by a port changes the ports and the sequence numbers of the flows only. -/

/-- The tow's record without what a frame that leaves changes. -/
def offLines (t : Tow) : Tow := { t with ports := [], seqs := [] }

theorem offLines_modTpt (x : Nat) (f : TowPort → TowPort) (s : State) :
    offLines (modTpt x f s).tow = offLines s.tow := rfl

theorem offLines_countTow (x k n : Nat) (s : State) : offLines (countTow x k n s).tow = offLines s.tow := by
  unfold countTow
  dsimp only
  rw [apply_ite State.tow, raiseEvt_tow, ite_self]
  rfl

theorem offLines_owe (x v n : Nat) (s : State) : offLines (owe x v n s).tow = offLines s.tow := by
  unfold owe
  split <;> rfl

theorem offLines_sendLine (x : Nat) (f : TowFrame) (s : State) :
    offLines (sendLine x f s).tow = offLines s.tow := rfl

theorem offLines_putOnLine (x : Nat) (f : TowFrame) (s : State) :
    offLines (putOnLine x f s).tow = offLines s.tow := by
  have hc : ∀ (c : Prop) [Decidable c] k n u, offLines (if c then countTow x k n u else u).tow = offLines u.tow := by
    intro c _ k n u
    split
    · exact offLines_countTow x k n u
    · rfl
  unfold putOnLine
  extract_lets t need have_ g s₁ s₂ s₃ s₄
  have h₄ : offLines s₄.tow = offLines s₃.tow := by
    dsimp only [s₄]
    split
    · exact offLines_owe ..
    · rfl
  rw [offLines_countTow, offLines_countTow, h₄, hc, offLines_sendLine, offLines_modTpt]

theorem offLines_pumpTow (x n : Nat) (s : State) : offLines (pumpTow x n s).tow = offLines s.tow := by
  induction n generalizing s with
  | zero => rfl
  | succ n ih =>
    unfold pumpTow
    dsimp only
    split
    · rfl
    · split
      · rfl
      · rw [ih, offLines_putOnLine, offLines_modTpt]

theorem offLines_towPut (x : Nat) (f : TowFrame) (s : State) : offLines (towPut x f s).tow = offLines s.tow := by
  unfold towPut
  split
  · split
    · exact offLines_putOnLine x f s
    · rfl
  · exact offLines_pumpTow x _ _

theorem offLines_towSend (v d : Nat) (body : TowBody) (s : State) :
    offLines (towSend v d body s).2.tow = offLines s.tow := by
  unfold towSend
  split
  · rfl
  · exact offLines_towPut _ _ _

theorem offLines_foldl {α : Type} {f : State → α → State} (hf : ∀ s a, offLines (f s a).tow = offLines s.tow)
    (l : List α) (s : State) : offLines (l.foldl f s).tow = offLines s.tow := by
  induction l generalizing s with
  | nil => rfl
  | cons a l ih => exact (ih (f s a)).trans (hf s a)

theorem offLines_towCast (body : TowBody) (s : State) : offLines (towCast body s).tow = offLines s.tow := by
  refine offLines_foldl (fun s x => ?_) _ s
  split
  · exact offLines_towPut _ _ _
  · rfl

theorem offLines_sendBeat (x src hops : Nat) (b : Beat) (s : State) :
    offLines (sendBeat x src hops b s).tow = offLines s.tow := by
  unfold sendBeat
  dsimp only
  split
  · rfl
  · exact offLines_putOnLine _ _ _

theorem offLines_loadSend (l : List Nat) (s : State) : offLines (loadSend l s).tow = offLines s.tow := by
  unfold loadSend
  split
  · rfl
  · exact (offLines_foldl (fun s a => offLines_towSend _ _ _ s) _ _).trans
      (offLines_foldl (fun s k => offLines_towCast _ s) _ _)

theorem bargeAt_of_offLines {s t : State} (h : offLines t.tow = offLines s.tow) (a : Nat) :
    bargeAt t a = bargeAt s a := by
  have hb := congrArg Tow.barges h
  exact congrArg (fun v => tget barge0 v a) hb

theorem state_bargeTo (a st : Nat) (s : State) : (bargeAt (bargeTo a st s) a).state = st := by
  by_cases h : (bargeAt s a).state = st
  · rw [bargeTo, if_pos h, h]
  · rw [bargeTo_of_ne h, bargeAt_modBarge_same]

/-- A barge whose load starts is being loaded. -/
theorem state_startLoad (a : Nat) (s : State) : (bargeAt (startLoad a s) a).state = 2 := by
  rw [startLoad, bargeAt_of_offLines (offLines_loadSend _ _), loadBegin, bargeAt_of_tow (emit_tow ..), state_bargeTo]

theorem offLines_enumBegin (s : State) : offLines (enumBegin s).tow =
    offLines { s.tow with enumerating := true, acks := [], ringHops := 0, tbSent := false } :=
  offLines_sendBeat ..

theorem towEnumerate_effect (r : Req) (s : State) (h : ActPasses towClass 1 r s) :
    ∃ t, exec (.towEnumerate r) s = .next t ∧ ∃ u, t = okTo towClass 3 (actReq 1 r) [] u ∧
      u.tow.enumerating = true ∧ u.tow.acks = [] ∧ u.tow.ringHops = 0 ∧ u.tow.tbSent = false := by
  have he := cmdAct_immediate h rfl (by decide) rfl rfl
  refine ⟨_, rfl, _, he, ?_⟩
  dsimp only
  have hu := offLines_enumBegin (taken r s)
  have h₁ := congrArg Tow.enumerating hu
  have h₂ := congrArg Tow.acks hu
  have h₃ := congrArg Tow.ringHops hu
  have h₄ := congrArg Tow.tbSent hu
  dsimp only [offLines] at h₁ h₂ h₃ h₄
  exact ⟨h₁, h₂, h₃, h₄⟩

theorem towPortRelease_effect (r : Req) (s : State) (h : ActPasses towClass 3 r s) :
    ∃ t, exec (.towPortRelease r) s = .next t ∧ ∃ u, t = okTo towClass 3 (actReq 3 r) [] u ∧
      tpAt u (leAt r.payload 0 1) = { tpAt s (leAt r.payload 0 1) with
        link := if (tpAt s (leAt r.payload 0 1)).en then 3 else 0 } ∧
      others tpAt (leAt r.payload 0 1) s u := by
  refine ⟨_, rfl, _, cmdAct_immediate h rfl (by decide) rfl rfl, ?_, fun j hj => ?_⟩
  · rw [tpAt_modTpt_same, tpAt_taken]
  · rw [tpAt_modTpt_ne _ _ _ _ hj.symm, tpAt_taken]

theorem towReload_effect (r : Req) (s : State) (h : ActPasses towClass 4 r s) :
    ∃ t, exec (.towReload r) s = .next t ∧ ∃ u, t = okTo towClass 3 (actReq 4 r) [] u ∧
      u = startLoad (leAt r.payload 0 1) (taken r s) ∧ (bargeAt u (leAt r.payload 0 1)).state = 2 := by
  have he := cmdAct_immediate h rfl (by decide) rfl rfl
  refine ⟨_, rfl, _, he, ?_⟩
  dsimp only
  exact ⟨rfl, state_startLoad _ _⟩

/-- Settles O37: each action is a change of its own unit on top of the acceptance of the request; a frame that the tow
sends with it moves ports and sequence numbers only. The link of a released port that is enabled is log entry 184. -/
theorem immediateActionsOfTheNetworks : Obligations.ImmediateActionsOfTheNetworks :=
  ⟨routeClearCounters_effect, portClearCounters_effect, basinClearCounters_effect, streamUnblock_effect,
    streamClearCounters_effect, streamResetSeq_effect, sysClearCounters_effect, poundReset_effect, poundRemove_effect,
    towEnumerate_effect, towPortRelease_effect, towReload_effect⟩

end Sys2Proof.Machine
end

section
/-! Arrivals, CMACs and AVTPDUs of the Aqueduct (O48). -/
open Sys2Proof
namespace Sys2Proof.Machine

/-! What the Aqueduct's record holds after each operation on the state. -/

theorem routeAt_of_aq {s t : State} (h : t.aq = s.aq) (i : Nat) : routeAt t i = routeAt s i := by
  rw [routeAt, h, routeAt]

theorem ctxAt_of_aq {s t : State} (h : t.aq = s.aq) (i : Nat) : ctxAt t i = ctxAt s i := by
  rw [ctxAt, h, ctxAt]

theorem listenerAt_of_aq {s t : State} (h : t.aq = s.aq) (i : Nat) : listenerAt t i = listenerAt s i := by
  rw [listenerAt, h, listenerAt]

theorem routeHalf_aq (inst k : Nat) (half : Bool) (s : State) : (routeHalf inst k half s).aq = s.aq := by
  unfold routeHalf
  split
  · exact emit_aq ..
  · rfl

/-- Global counter `k` plus `n` in the Aqueduct's record (R328). -/
def bumpA (k n : Nat) (v : Aq) : Aq :=
  { v with counters := tput ctr0 k (addHalf (if k = 1 then 48 else 32) n (tget ctr0 v.counters k)).1 v.counters }

theorem countA_aq (k n : Nat) (s : State) : (countA k n s).aq = bumpA k n s.aq := routeHalf_aq ..

/-- Route counter `k` plus one in the route's record. -/
def bumpRoute (k : Nat) (e : Route) : Route :=
  if k = 0 then { e with hits := (addHalf 32 1 e.hits).1 } else { e with drops := (addHalf 32 1 e.drops).1 }

theorem countRoute_aq (i k : Nat) (s : State) : (countRoute i k s).aq = (modRoute i (bumpRoute k) s).aq := by
  refine (routeHalf_aq ..).trans ?_
  simp only [modRoute, modAq_aq, tmod, bumpRoute, routeAt]
  split <;> rfl

theorem routeAt_countRoute (i k : Nat) (s : State) : routeAt (countRoute i k s) i = bumpRoute k (routeAt s i) :=
  (routeAt_of_aq (countRoute_aq i k s) i).trans (routeAt_modRoute_same ..)

/-! What an offer leaves alone (R309-R318): the routes, the contexts, the listeners, the queues of frames that arrived
and of CMACs, and the counters of arrivals. -/

/-- The Aqueduct's record without what an offer changes; of the global counters those of arrivals stay. -/
def offOffers (v : Aq) : Aq :=
  { v with
    talkers := [], offers := [], rx := [], poundRep := []
    counters := [(0, tget ctr0 v.counters 0), (1, tget ctr0 v.counters 1)] }

theorem offOffers_of_aq {s t : State} (h : t.aq = s.aq) : offOffers t.aq = offOffers s.aq := by rw [h]

theorem offOffers_countA {k : Nat} (h : 2 ≤ k) (n : Nat) (s : State) : offOffers (countA k n s).aq = offOffers s.aq := by
  rw [countA_aq, offOffers, bumpA]
  dsimp only
  rw [tget_tput_ne ctr0 k 0 _ _ (by omega), tget_tput_ne ctr0 k 1 _ _ (by omega)]
  rfl

theorem offOffers_countTalker (i k n : Nat) (s : State) : offOffers (countTalker i k n s).aq = offOffers s.aq := by
  unfold countTalker
  dsimp only
  rw [routeHalf_aq]
  rfl

theorem offOffers_offerCan (idx : Nat) (d : Dest) (a : AqFrame) (s : State) :
    offOffers (offerCan idx d a s).aq = offOffers s.aq := by
  unfold offerCan
  dsimp only
  split
  · rfl
  · split
    · exact offOffers_countA (by decide) 1 s
    · split
      · exact offOffers_countA (by decide) 1 s
      · split
        · exact offOffers_countA (by decide) 1 s
        · split
          · rfl
          · split
            · exact offOffers_countA (by decide) 1 s
            · exact offOffers_of_aq (same_of_blank (enqueueCan_frame (only [.can]) rfl _ _ s) .aq rfl)

theorem offOffers_offerSched (d : Dest) (a : AqFrame) (s : State) :
    offOffers (offerSched d a s).aq = offOffers s.aq := by
  unfold offerSched
  split
  · rfl
  · split
    · exact offOffers_countA (by decide) 1 s
    · split
      · exact offOffers_countA (by decide) 1 s
      · rfl

theorem offOffers_offerLin (d : Dest) (a : AqFrame) (s : State) : offOffers (offerLin d a s).aq = offOffers s.aq := by
  unfold offerLin
  split <;> rfl

theorem offOffers_poundDrop (p : Nat) (full : Bool) (s : State) :
    offOffers (poundDrop p full s).aq = offOffers s.aq := by
  unfold poundDrop
  dsimp only
  split
  · exact offOffers_countA (by decide) 1 s
  · refine (offOffers_of_aq (emit_aq ..)).trans ?_
    exact offOffers_countA (by decide) 1 s

theorem writeBack_aq (p r : Nat) (l : List Written) (s : State) : (writeBack p r l s).aq = s.aq :=
  same_of_blank (writeBack_frame (only [.sys, .wire, .net, .mem]) rfl rfl rfl rfl p r l s) .aq rfl

theorem offOffers_drainRx (p q n : Nat) (s : State) : offOffers (drainRx p q n s).aq = offOffers s.aq := by
  induction n generalizing s with
  | zero => rfl
  | succ n ih =>
    unfold drainRx
    dsimp only
    split
    · rfl
    · split
      · split
        · split
          · rfl
          · rw [ih, writeBack_aq]; rfl
        · split
          · rw [ih, writeBack_aq]; rfl
          · split
            · rw [ih, writeBack_aq]; rfl
            · rw [ih, offOffers_poundDrop]; rfl
      · rfl

theorem offOffers_offerPound (d : Dest) (a : AqFrame) (s : State) :
    offOffers (offerPound d a s).aq = offOffers s.aq := by
  unfold offerPound
  dsimp only
  split
  · exact offOffers_countA (by decide) 1 s
  · split
    · exact offOffers_poundDrop _ _ s
    · exact offOffers_drainRx _ _ _ _

theorem offOffers_offerTunnel (d : Dest) (a : AqFrame) (s : State) :
    offOffers (offerTunnel d a s).aq = offOffers s.aq := by
  have hc : ∀ k, offOffers (countTalker d.target k 1 s).aq = offOffers s.aq := fun k => offOffers_countTalker _ k 1 s
  unfold offerTunnel
  dsimp only
  split
  · rfl
  · split
    · split
      · exact hc 3
      · exact (offOffers_of_aq (emit_aq ..)).trans (hc 3)
    · split
      · split
        · exact hc 4
        · exact (offOffers_of_aq (emit_aq ..)).trans (hc 4)
      · rfl

theorem offOffers_offerTow (d : Dest) (a : AqFrame) (s : State) : offOffers (offerTow d a s).aq = offOffers s.aq := by
  unfold offerTow
  dsimp only
  generalize (if a.ev.isSome then some a.frame else convert d a.frame) = conv
  split
  · exact offOffers_countA (by decide) 1 s
  · split
    · exact offOffers_of_aq (same_of_blank (towSend_frame (only [.wire, .tow]) rfl rfl _ _ _ s) .aq rfl)
    · exact offOffers_countA (by decide) 1 s

theorem offOffers_offerNow (idx : Nat) (d : Dest) (a : AqFrame) (s : State) :
    offOffers (offerNow idx d a s).aq = offOffers s.aq := by
  unfold offerNow
  split
  · exact offOffers_offerCan idx d a s
  · exact offOffers_offerSched d a s
  · exact offOffers_offerLin d a s
  · exact offOffers_offerPound d a s
  · exact offOffers_offerTunnel d a s
  · exact offOffers_offerTow d a s
  · rfl

theorem offOffers_offer (idx : Nat) (d : Dest) (a : AqFrame) (s : State) :
    offOffers (offer idx d a s).aq = offOffers s.aq := by
  unfold offer
  split
  · rfl
  · exact offOffers_offerNow idx d a s

theorem offOffers_foldl {α : Type} {f : State → α → State} (hf : ∀ s a, offOffers (f s a).aq = offOffers s.aq)
    (l : List α) (s : State) : offOffers (l.foldl f s).aq = offOffers s.aq := by
  induction l generalizing s with
  | nil => rfl
  | cons a l ih => exact (ih (f s a)).trans (hf s a)

theorem offOffers_followChain (idx : Nat) (only : Bool) (a : AqFrame) (n e : Nat) (s : State) :
    offOffers (followChain idx only a n e s).aq = offOffers s.aq := by
  induction n generalizing e s with
  | zero => rfl
  | succ n ih =>
    unfold followChain
    extract_lets r s₁ x
    have h₁ : offOffers s₁.aq = offOffers s.aq := by
      refine offOffers_foldl (fun s d => ?_) _ s
      split
      · rfl
      · exact offOffers_offer idx d a s
    split
    · exact h₁
    · split
      · exact (offOffers_of_aq (emit_aq ..)).trans ((offOffers_countA (by decide) 1 s₁).trans h₁)
      · exact (ih _ s₁).trans h₁

theorem routeAt_of_offOffers {s t : State} (h : offOffers t.aq = offOffers s.aq) (i : Nat) :
    routeAt t i = routeAt s i := by
  have hr := congrArg Aq.routes h
  exact congrArg (tget route0 · i) hr

/-- A frame of a route without a chain is offered to the route's destinations. -/
theorem followChain_alone {e : Nat} {s : State} (h : (routeAt s e).chain = false) (idx n : Nat) (a : AqFrame) :
    followChain idx false a (n + 1) e s =
      ((routeAt s e).dests.take (routeAt s e).ndest).foldl (fun u d => offer idx d a u) s := by
  unfold followChain
  simp only [h, Bool.not_false, if_true, Bool.false_and, Bool.false_eq_true, if_false]

/-! A route that a frame passes counts a hit. -/

theorem deliverRoute_aq (idx : Nat) (a : AqFrame) (s : State) :
    offOffers (deliverRoute idx a s).aq = offOffers (countRoute idx 0 s).aq := offOffers_followChain ..

theorem routeAt_deliverRoute (idx : Nat) (a : AqFrame) (s : State) :
    routeAt (deliverRoute idx a s) idx = { routeAt s idx with hits := (addHalf 32 1 (routeAt s idx).hits).1 } :=
  (routeAt_of_offOffers (deliverRoute_aq idx a s) idx).trans (routeAt_countRoute idx 0 s)

/-! What follows an arrival or a CMAC leaves alone: the queues of frames that came in, and the counters of arrivals. -/

/-- The frames that came in and the counters of arrivals. -/
def arrivals (v : Aq) : List AqFrame × List EthFrame × Nat × Nat :=
  (v.inq, v.fromBasin, tget ctr0 v.counters 0, tget ctr0 v.counters 1)

theorem arrivals_of_offOffers {v w : Aq} (h : offOffers v = offOffers w) : arrivals v = arrivals w := by
  have ha := congrArg arrivals h
  exact ha

theorem arrivals_of_aq {s t : State} (h : t.aq = s.aq) : arrivals t.aq = arrivals s.aq := by rw [h]

theorem arrivals_countA {k : Nat} (h : 2 ≤ k) (n : Nat) (s : State) : arrivals (countA k n s).aq = arrivals s.aq :=
  arrivals_of_offOffers (offOffers_countA h n s)

theorem arrivals_modRoute (i : Nat) (f : Route → Route) (s : State) :
    arrivals (modRoute i f s).aq = arrivals s.aq := rfl

theorem arrivals_countRoute (i k : Nat) (s : State) : arrivals (countRoute i k s).aq = arrivals s.aq := by
  rw [countRoute_aq]
  rfl

theorem arrivals_countCtx (i k : Nat) (s : State) : arrivals (countCtx i k s).aq = arrivals s.aq := by
  unfold countCtx
  dsimp only
  rw [routeHalf_aq]
  rfl

theorem arrivals_followChain (idx : Nat) (only : Bool) (a : AqFrame) (n e : Nat) (s : State) :
    arrivals (followChain idx only a n e s).aq = arrivals s.aq :=
  arrivals_of_offOffers (offOffers_followChain ..)

theorem arrivals_deliverRoute (idx : Nat) (a : AqFrame) (s : State) :
    arrivals (deliverRoute idx a s).aq = arrivals s.aq :=
  (arrivals_followChain ..).trans (arrivals_countRoute idx 0 s)

theorem arrivals_takeToken (idx : Nat) (s : State) : arrivals (takeToken idx s).2.aq = arrivals s.aq := by
  have hd : ∀ f, arrivals (countRoute idx 1 (countA 4 1 (modRoute idx f s))).aq = arrivals s.aq := fun f => by
    rw [arrivals_countRoute, arrivals_countA (by decide), arrivals_modRoute]
  unfold takeToken
  extract_lets e dt tok s₁
  split
  · exact arrivals_modRoute ..
  · dsimp only
    split
    · exact hd _
    · rw [emit_aq, arrivals_modRoute]
      exact hd _

theorem arrivals_authFailed (idx i : Nat) (a : AqFrame) (s : State) :
    arrivals (authFailed idx i a s).aq = arrivals s.aq := by
  unfold authFailed
  extract_lets s₁ s₂
  have h₂ : arrivals s₂.aq = arrivals s.aq :=
    (arrivals_of_aq (emit_aq ..)).trans ((arrivals_countRoute ..).trans (arrivals_countCtx i 1 s))
  split
  · exact (arrivals_followChain ..).trans h₂
  · exact h₂

theorem arrivals_deliverTurn (idx : Nat) (a : AqFrame) (s : State) :
    arrivals (deliverTurn idx a s).aq = arrivals s.aq := by
  unfold deliverTurn
  split
  · rfl
  · exact arrivals_deliverRoute idx a s

theorem arrivals_authStart (idx i : Nat) (a : AqFrame) (s : State) :
    arrivals (authStart idx i a s).aq = arrivals s.aq := by
  unfold authStart
  extract_lets c need
  split
  · exact arrivals_deliverTurn idx a s
  · split
    · split
      · rfl
      · exact arrivals_authFailed idx i a s
    · split
      · exact (arrivals_countRoute ..).trans (arrivals_countA (by decide) 1 s)
      · rfl

theorem keyUse_aq (h : Nat) (s : State) : (keyUse h s).aq = s.aq := by
  unfold keyUse
  split <;> rfl

/-- A context takes the freshness value of a frame and counts it as authentic. -/
theorem arrivals_freshened (i v : Nat) (s : State) : arrivals (countCtx i 0 (setFv i v s)).aq = arrivals s.aq :=
  arrivals_countCtx ..

theorem arrivals_authDone (idx i : Nat) (a : AqFrame) (s : State) :
    arrivals (authDone idx i a s).aq = arrivals s.aq := by
  unfold authDone
  extract_lets c s₁ data pay fv t₁ f₁ f₂ t₂ cand mac rest f₃
  have h₁ : arrivals s₁.aq = arrivals s.aq := arrivals_of_aq (keyUse_aq ..)
  split
  · rw [arrivals_countRoute, emit_aq]
    rfl
  · split
    · rw [arrivals_deliverRoute, arrivals_freshened, h₁]
    · split
      · rw [arrivals_deliverRoute, arrivals_freshened, h₁]
      · rw [arrivals_authFailed, h₁]

theorem arrivals_takeTurn (q : CmacReq) (s : State) : arrivals (takeTurn q s).aq = arrivals s.aq := by
  unfold takeTurn
  dsimp only
  split
  · exact arrivals_authDone ..
  · exact arrivals_deliverRoute ..
  · exact arrivals_authFailed ..

/-! Arrivals (R308). -/

/-- The state in which an arrival is counted. -/
def counted (a : AqFrame) (s : State) : State := countA 1 a.frame.data.length (countA 0 1 s)

theorem counted_aq (a : AqFrame) (s : State) : (counted a s).aq = bumpA 1 a.frame.data.length (bumpA 0 1 s.aq) := by
  rw [counted, countA_aq, countA_aq]

theorem arrivals_counted (a : AqFrame) (s : State) : arrivals (counted a s).aq = (s.aq.inq, s.aq.fromBasin,
    (addHalf 32 1 (tget ctr0 s.aq.counters 0)).1, (addHalf 48 a.frame.data.length (tget ctr0 s.aq.counters 1)).1) := by
  rw [counted_aq, arrivals, bumpA, bumpA]
  dsimp only
  rw [tget_tput_ne ctr0 1 0 _ _ (by decide), tget_tput_same, tget_tput_same, tget_tput_ne ctr0 0 1 _ _ (by decide)]
  rfl

theorem routeAt_counted (a : AqFrame) (s : State) (i : Nat) : routeAt (counted a s) i = routeAt s i := by
  rw [routeAt, counted_aq]
  rfl

theorem heldBack_counted (a b : AqFrame) (s : State) : heldBack (counted a s) b = heldBack s b := by
  rw [heldBack, counted_aq]
  rfl

/-- What comes of an arrival once it is counted. -/
def arriveCounted (a : AqFrame) (s : State) : State :=
  if !(routeAt s a.route).en || (routeAt s a.route).cont || (routeAt s a.route).bad then countRoute a.route 1 (countA 2 1 s)
  else if a.ev.isSome then deliverTurn a.route a s
  else
    let p := if (routeAt s a.route).rateEn then takeToken a.route s else (true, s)
    if !p.1 then p.2
    else if (routeAt s a.route).auth then authStart a.route (routeAt s a.route).ctx a p.2
    else deliverTurn a.route a p.2

theorem arrive_eq (a : AqFrame) (s : State) : arrive a s = arriveCounted a (counted a s) := by
  unfold arriveCounted
  rw [routeAt_counted]
  rfl

theorem arrivals_arriveCounted (a : AqFrame) (s : State) : arrivals (arriveCounted a s).aq = arrivals s.aq := by
  unfold arriveCounted
  extract_lets p
  have hp : arrivals p.2.aq = arrivals s.aq := by
    dsimp only [p]
    split
    · exact arrivals_takeToken a.route s
    · rfl
  split
  · exact (arrivals_countRoute ..).trans (arrivals_countA (by decide) 1 s)
  · split
    · exact arrivals_deliverTurn a.route a s
    · split
      · exact hp
      · split
        · exact (arrivals_authStart ..).trans hp
        · exact (arrivals_deliverTurn ..).trans hp

theorem routeAt_countA (k n : Nat) (s : State) (i : Nat) : routeAt (countA k n s) i = routeAt s i := by
  rw [routeAt, countA_aq]
  rfl

theorem countRoute_rx (i k : Nat) (s : State) : (countRoute i k s).aq.rx = s.aq.rx := by
  rw [countRoute_aq]
  rfl

/-- An arrival at an entry that is not enabled, a continuation or disabled by an error is a drop and no match (log
entry 107). -/
theorem arriveCounted_unmatched {a : AqFrame} {s : State}
    (h : (routeAt s a.route).en = false ∨ (routeAt s a.route).cont = true ∨ (routeAt s a.route).bad = true) :
    arriveCounted a s = countRoute a.route 1 (countA 2 1 s) :=
  if_pos (by rcases h with h | h | h <;> simp [h])

/-- An arrival that is neither limited in rate nor authenticated is delivered in its turn. -/
theorem arriveCounted_plain {a : AqFrame} {s : State} (hen : (routeAt s a.route).en = true)
    (hcont : (routeAt s a.route).cont = false) (hbad : (routeAt s a.route).bad = false)
    (h : a.ev.isSome = true ∨ (routeAt s a.route).rateEn = false ∧ (routeAt s a.route).auth = false) :
    arriveCounted a s = deliverTurn a.route a s := by
  unfold arriveCounted
  rw [if_neg (by simp [hen, hcont, hbad])]
  rcases h with hev | ⟨hr, ha⟩
  · exact if_pos hev
  · simp [hr, ha]

theorem unmatched_effect (a : AqFrame) (s : State) : ∀ u, u = countRoute a.route 1 (countA 2 1 (counted a s)) →
    tget ctr0 u.aq.counters 2 = (addHalf 32 1 (tget ctr0 s.aq.counters 2)).1 ∧
      routeAt u a.route = { routeAt s a.route with drops := (addHalf 32 1 (routeAt s a.route).drops).1 } ∧
      u.can = s.can ∧ u.lin = s.lin ∧ u.net = s.net ∧ u.tow = s.tow ∧ u.aq.rx = s.aq.rx ∧ u.cyc = s.cyc := by
  rintro u rfl
  have hb : blank (only [.wire, .aq]) (countRoute a.route 1 (countA 2 1 (counted a s))) = blank (only [.wire, .aq]) s := by
    rw [countRoute_frame _ rfl rfl, countA_frame _ rfl rfl, counted, countA_frame _ rfl rfl, countA_frame _ rfl rfl]
  have hc : tget ctr0 (counted a s).aq.counters 2 = tget ctr0 s.aq.counters 2 := by
    rw [counted_aq]
    exact (tget_tput_ne ctr0 1 2 _ _ (by decide)).trans (tget_tput_ne ctr0 0 2 _ _ (by decide))
  refine ⟨?_, ?_, same_of_blank hb .can rfl, same_of_blank hb .lin rfl, same_of_blank hb .net rfl,
    same_of_blank hb .tow rfl, ?_, blank_all_cyc hb rfl rfl⟩
  · rw [countRoute_aq, ← hc]
    exact (congrArg (fun v : Aq => tget ctr0 v.counters 2) (countA_aq 2 1 _)).trans (tget_tput_same ctr0 2 _ _)
  · rw [routeAt_countRoute, routeAt_countA, routeAt_counted]
    rfl
  · rw [countRoute_rx, countA_aq, counted_aq]
    rfl

theorem delivered_effect {a : AqFrame} {s : State} (hb : heldBack s a = false) :
    ∀ u, u = deliverTurn a.route a (counted a s) →
      routeAt u a.route = { routeAt s a.route with hits := (addHalf 32 1 (routeAt s a.route).hits).1 } ∧
      u.aq.cmac = s.aq.cmac ∧ ((routeAt s a.route).chain = false →
        u = ((routeAt s a.route).dests.take (routeAt s a.route).ndest).foldl (fun u d => offer a.route d a u)
          (countRoute a.route 0 (counted a s))) := by
  rintro u rfl
  have hd : deliverTurn a.route a (counted a s) = deliverRoute a.route a (counted a s) :=
    if_neg (by rw [heldBack_counted, hb]; decide)
  have hr : routeAt (countRoute a.route 0 (counted a s)) a.route =
      { routeAt s a.route with hits := (addHalf 32 1 (routeAt s a.route).hits).1 } := by
    rw [routeAt_countRoute, routeAt_counted]
    rfl
  rw [hd]
  refine ⟨by rw [routeAt_deliverRoute, routeAt_counted], ?_, fun hc => ?_⟩
  · have hm := congrArg Aq.cmac (deliverRoute_aq a.route a (counted a s))
    refine Eq.trans hm ?_
    rw [countRoute_aq]
    show (counted a s).aq.cmac = s.aq.cmac
    rw [counted_aq]
    rfl
  · refine (followChain_alone (by rw [hr]; exact hc) a.route 7 a).trans ?_
    rw [hr]

theorem aqueductArrival_effect (s : State) : ∃ t, exec (.aqueductArrival) s = .next t ∧
      (s.aq.inq = [] → t = s) ∧ (∀ a r, s.aq.inq = a :: r → t.aq.inq = r ∧ t.aq.fromBasin = s.aq.fromBasin ∧
        tget ctr0 t.aq.counters 0 = (addHalf 32 1 (tget ctr0 s.aq.counters 0)).1 ∧
        tget ctr0 t.aq.counters 1 = (addHalf 48 a.frame.data.length (tget ctr0 s.aq.counters 1)).1 ∧
        ((routeAt s a.route).en = false ∨ (routeAt s a.route).cont = true ∨ (routeAt s a.route).bad = true →
          tget ctr0 t.aq.counters 2 = (addHalf 32 1 (tget ctr0 s.aq.counters 2)).1 ∧
          routeAt t a.route = { routeAt s a.route with drops := (addHalf 32 1 (routeAt s a.route).drops).1 } ∧
          t.can = s.can ∧ t.lin = s.lin ∧ t.net = s.net ∧ t.tow = s.tow ∧ t.aq.rx = s.aq.rx ∧ t.cyc = s.cyc) ∧
        ((routeAt s a.route).en = true → (routeAt s a.route).cont = false → (routeAt s a.route).bad = false →
          a.ev.isSome = true ∨ ((routeAt s a.route).rateEn = false ∧ (routeAt s a.route).auth = false) →
          heldBack s a = false →
          routeAt t a.route = { routeAt s a.route with hits := (addHalf 32 1 (routeAt s a.route).hits).1 } ∧
          t.aq.cmac = s.aq.cmac ∧
          ((routeAt s a.route).chain = false →
            t = ((routeAt s a.route).dests.take (routeAt s a.route).ndest).foldl (fun u d => offer a.route d a u)
              (countRoute a.route 0 (countA 1 a.frame.data.length
                (countA 0 1 (modAq (fun v => { v with inq := r }) s))))))) := by
  refine ⟨_, rfl, fun hq => by rw [hq], fun a r hq => ?_⟩
  rw [hq]
  dsimp only
  rw [arrive_eq]
  have hk := (arrivals_arriveCounted a _).trans (arrivals_counted a (modAq (fun v => { v with inq := r }) s))
  simp only [arrivals, Prod.mk.injEq] at hk
  obtain ⟨hi, hf, h0, h1⟩ := hk
  refine ⟨hi, hf, h0, h1, fun hx => ?_, fun hen hcont hbad hp hh => ?_⟩
  · exact unmatched_effect a (modAq _ s) _ (arriveCounted_unmatched (by rw [routeAt_counted]; exact hx))
  · have hq' : heldBack (modAq (fun v => { v with inq := r }) s) a = false := hh
    exact delivered_effect hq' _ (arriveCounted_plain (by rw [routeAt_counted]; exact hen)
      (by rw [routeAt_counted]; exact hcont) (by rw [routeAt_counted]; exact hbad) (by rw [routeAt_counted]; exact hp))

/-! CMACs (R323-R325). -/

/-- The frames behind the queue that still wait when every frame that may take its turn has taken it. -/
def stillWaiting (l : List CmacReq) : List CmacReq :=
  l.foldl (fun k q => if q.act = 0 ∨ k.any (fun x => oneSource x.frame q.frame) = true then k ++ [q] else k) []

theorem settleTurns_fst (l : List CmacReq) (s : State) : (settleTurns l s).1 = stillWaiting l :=
  (List.foldl_hom Prod.fst (fun acc q => by split <;> rfl)).symm

theorem arrivals_settleTurns (l : List CmacReq) (s : State) : arrivals (settleTurns l s).2.aq = arrivals s.aq := by
  suffices h : ∀ acc : List CmacReq × State, arrivals (l.foldl (fun acc q =>
      if q.act = 0 ∨ acc.1.any (fun k => oneSource k.frame q.frame) = true then (acc.1 ++ [q], acc.2)
      else (acc.1, takeTurn q acc.2)) acc).2.aq = arrivals acc.2.aq from h ([], s)
  induction l with
  | nil => exact fun _ => rfl
  | cons q l ih =>
    intro acc
    rw [List.foldl_cons, ih]
    split
    · rfl
    · exact arrivals_takeTurn q acc.2

/-- The queue of CMACs after the oldest is returned. -/
def cmacReturned (q : CmacReq) (r : List CmacReq) (s : State) : State :=
  modAq (fun v => { v with cmac := stillWaiting r }) (settleTurns r (takeTurn q s)).2

theorem exec_cmacCompletion {q : CmacReq} {r : List CmacReq} {s : State} (h : s.aq.cmac = q :: r) :
    exec .cmacCompletion s = .next (cmacReturned q r s) := by
  unfold cmacReturned
  rw [← settleTurns_fst r (takeTurn q s)]
  show execCmacCompletion s = _
  unfold execCmacCompletion
  rw [h]

/-- A CMAC whose key is not ready (R325). -/
theorem authDone_revoked {i : Nat} {s : State} (h : keyReady s (ctxAt s i).key = false) (idx : Nat) (a : AqFrame) :
    authDone idx i a s =
      countRoute idx 1 (emit 0x2306 (0x4400 + i) (modCtx i (fun c => { c with revoked := true }) s)) :=
  if_pos (by rw [h]; rfl)

/-- The protected frame that leaves for a route (R323). -/
theorem authDone_protected {i : Nat} {s : State} (h : keyReady s (ctxAt s i).key = true) (hm : (ctxAt s i).mode = 2)
    (idx : Nat) (a : AqFrame) : ∃ b fv, authDone idx i a s =
      deliverRoute idx b (countCtx i 0 (setFv i fv (keyUse (ctxAt s i).key s))) := by
  unfold authDone
  extract_lets c s₁ data pay fv t₁ f₁ f₂
  rw [if_neg (by rw [h]; decide), if_pos hm]
  exact ⟨_, _, rfl⟩

theorem takeTurn_cmac {q : CmacReq} (h : q.act = 0) (s : State) :
    takeTurn q s = authDone q.frame.route (routeAt s q.frame.route).ctx q.frame s := by
  unfold takeTurn
  rw [h]
  rfl

theorem ctxAt_countRoute (j k : Nat) (s : State) (i : Nat) : ctxAt (countRoute j k s) i = ctxAt s i := by
  rw [ctxAt, countRoute_aq]
  rfl

theorem routeAt_countCtx (i k : Nat) (s : State) (j : Nat) : routeAt (countCtx i k s) j = routeAt s j :=
  (routeAt_of_aq (routeHalf_aq ..) j).trans rfl

/-- The frame of a revoked context drops; no bus, port, pound or tunnel receives it. -/
theorem revoked_effect (idx i : Nat) (s : State) : ∀ u,
    u = countRoute idx 1 (emit 0x2306 (0x4400 + i) (modCtx i (fun c => { c with revoked := true }) s)) →
    (ctxAt u i).revoked = true ∧
      routeAt u idx = { routeAt s idx with drops := (addHalf 32 1 (routeAt s idx).drops).1 } ∧
      u.can = s.can ∧ u.lin = s.lin ∧ u.net = s.net ∧ u.tow = s.tow ∧ u.aq.rx = s.aq.rx := by
  rintro u rfl
  refine ⟨?_, ?_, ?_⟩
  · rw [ctxAt_countRoute, ctxAt_of_aq (emit_aq ..), ctxAt_modCtx_same]
  · rw [routeAt_countRoute, routeAt_of_aq (emit_aq ..)]
    rfl
  · have hb : blank (only [.wire, .aq]) (countRoute idx 1 (emit 0x2306 (0x4400 + i)
        (modCtx i (fun c => { c with revoked := true }) s))) = blank (only [.wire, .aq]) s := by
      rw [countRoute_frame _ rfl rfl, emit_frame _ rfl, modCtx_frame _ rfl]
    refine ⟨same_of_blank hb .can rfl, same_of_blank hb .lin rfl, same_of_blank hb .net rfl,
      same_of_blank hb .tow rfl, ?_⟩
    rw [countRoute_rx, emit_aq]
    rfl

theorem protected_effect {i : Nat} {s : State} (h : keyReady s (ctxAt s i).key = true) (hm : (ctxAt s i).mode = 2)
    (idx : Nat) (a : AqFrame) :
    routeAt (authDone idx i a s) idx = { routeAt s idx with hits := (addHalf 32 1 (routeAt s idx).hits).1 } := by
  obtain ⟨b, fv, he⟩ := authDone_protected h hm idx a
  have hr : ∀ u, routeAt (setFv i fv u) idx = routeAt u idx := fun _ => rfl
  rw [he, routeAt_deliverRoute, routeAt_countCtx, hr, routeAt_of_aq (keyUse_aq ..)]

theorem cmacCompletion_effect (s : State) : ∃ t, exec (.cmacCompletion) s = .next t ∧
      (s.aq.cmac = [] → t = s) ∧ (∀ q r, s.aq.cmac = q :: r →
        t.aq.cmac = r.foldl (fun k q => if q.act = 0 ∨ k.any (fun x => oneSource x.frame q.frame) = true then k ++ [q] else k) [] ∧
        t.aq.inq = s.aq.inq ∧ t.aq.fromBasin = s.aq.fromBasin ∧
        (q.act = 0 → r = [] → keyReady s (ctxAt s (routeAt s q.frame.route).ctx).key = false →
          (ctxAt t (routeAt s q.frame.route).ctx).revoked = true ∧
          routeAt t q.frame.route =
            { routeAt s q.frame.route with drops := (addHalf 32 1 (routeAt s q.frame.route).drops).1 } ∧
          t.can = s.can ∧ t.lin = s.lin ∧ t.net = s.net ∧ t.tow = s.tow ∧ t.aq.rx = s.aq.rx) ∧
        (q.act = 0 → r = [] → keyReady s (ctxAt s (routeAt s q.frame.route).ctx).key = true →
          (ctxAt s (routeAt s q.frame.route).ctx).mode = 2 →
          (routeAt t q.frame.route).hits = (addHalf 32 1 (routeAt s q.frame.route).hits).1 ∧
          (routeAt t q.frame.route).drops = (routeAt s q.frame.route).drops)) := by
  cases hq : s.aq.cmac with
  | nil =>
    refine ⟨s, ?_, fun _ => rfl, fun q r h => (nomatch h)⟩
    show execCmacCompletion s = _
    unfold execCmacCompletion
    rw [hq]
  | cons q r =>
    refine ⟨_, exec_cmacCompletion hq, fun h => (nomatch h), fun q' r' h => ?_⟩
    obtain ⟨rfl, rfl⟩ := List.cons.inj h
    have hk := (arrivals_settleTurns r (takeTurn q s)).trans (arrivals_takeTurn q s)
    simp only [arrivals, Prod.mk.injEq] at hk
    obtain ⟨hi, hf, -, -⟩ := hk
    refine ⟨rfl, hi, hf, ?_, ?_⟩
    · rintro ha rfl hn
      have he := revoked_effect _ _ s _ ((takeTurn_cmac ha s).trans (authDone_revoked hn _ _))
      exact he
    · rintro ha rfl hy hm
      have hr : routeAt (cmacReturned q [] s) q.frame.route = routeAt (takeTurn q s) q.frame.route := rfl
      rw [hr, takeTurn_cmac ha, protected_effect hy hm]
      exact ⟨rfl, rfl⟩

/-! AVTPDUs (R317). -/

/-- What the reception of an AVTPDU leaves alone. -/
def offAvtp (v : Aq) : List EthFrame × List CmacReq := (v.fromBasin, v.cmac)

/-- Listener counter `k` plus `n` in the listener's record. -/
def bumpListener (k n : Nat) (x : Listener) : Listener :=
  match k with
  | 0 => { x with pdus := (addHalf 32 n x.pdus).1 }
  | 1 => { x with msgs := (addHalf 32 n x.msgs).1 }
  | 2 => { x with octets := (addHalf 48 n x.octets).1 }
  | 3 => { x with gap := (addHalf 32 n x.gap).1 }
  | 4 => { x with unsupported := (addHalf 32 n x.unsupported).1 }
  | _ => { x with malformed := (addHalf 32 n x.malformed).1 }

theorem countListener_aq (i k n : Nat) (s : State) :
    (countListener i k n s).aq = (modListener i (bumpListener k n) s).aq := by
  refine (routeHalf_aq ..).trans ?_
  simp only [modListener, modAq_aq, tmod, listenerAt]
  match k with
  | 0 | 1 | 2 | 3 | 4 | _ + 5 => rfl

theorem listenerAt_countListener (i k n : Nat) (s : State) :
    listenerAt (countListener i k n s) i = bumpListener k n (listenerAt s i) :=
  (listenerAt_of_aq (countListener_aq i k n s) i).trans (listenerAt_modListener_same ..)

theorem offAvtp_countListener (i k n : Nat) (s : State) : offAvtp (countListener i k n s).aq = offAvtp s.aq := by
  rw [countListener_aq]
  rfl

/-- What counts a listener's AVTPDUs, and the number of the last. -/
def heardOf (x : Listener) : Nat × Nat × Nat := (x.pdus, x.octets, x.last)

theorem heardOf_countListener {k : Nat} (h : k ≠ 0 ∧ k ≠ 2) (l n : Nat) (s : State) :
    heardOf (listenerAt (countListener l k n s) l) = heardOf (listenerAt s l) := by
  rw [listenerAt_countListener]
  match k, h with
  | 1, _ | 3, _ | 4, _ | _ + 5, _ => rfl

/-- The messages of an AVTPDU are counted and become arrivals; the AVTPDU is not counted again. -/
theorem parseAcf_keeps (l sec ns n : Nat) (b : List Byte) (s : State) :
    offAvtp (parseAcf l sec ns n b s).aq = offAvtp s.aq ∧
      heardOf (listenerAt (parseAcf l sec ns n b s) l) = heardOf (listenerAt s l) := by
  have hc : ∀ k, k ≠ 0 ∧ k ≠ 2 → ∀ u, offAvtp (countListener l k 1 u).aq = offAvtp u.aq ∧
      heardOf (listenerAt (countListener l k 1 u) l) = heardOf (listenerAt u l) := fun k h u =>
    ⟨offAvtp_countListener l k 1 u, heardOf_countListener h l 1 u⟩
  induction n generalizing b s with
  | zero => exact ⟨rfl, rfl⟩
  | succ n ih =>
    unfold parseAcf
    extract_lets q s₁
    have h₁ : offAvtp s₁.aq = offAvtp s.aq ∧ heardOf (listenerAt s₁ l) = heardOf (listenerAt s l) := by
      dsimp only [s₁]
      split
      · exact hc 4 (by decide) s
      · exact hc 5 (by decide) s
      · exact hc 1 (by decide) s
    split
    · exact ⟨rfl, rfl⟩
    · split
      · exact hc 5 (by decide) s
      · exact ⟨(ih _ s₁).1.trans h₁.1, (ih _ s₁).2.trans h₁.2⟩

/-- A gap in the sequence numbers is counted and reported once (R317). -/
def tellGap (l gap : Nat) (s : State) : State :=
  if gap = 0 then s
  else if (listenerAt (countListener l 3 gap s) l).gapRep then countListener l 3 gap s
  else emit 0x2308 (0x4100 + l) (modListener l (fun x => { x with gapRep := true }) (countListener l 3 gap s)) (value := gap)

theorem tellGap_keeps (l gap : Nat) (s : State) : offAvtp (tellGap l gap s).aq = offAvtp s.aq ∧
    heardOf (listenerAt (tellGap l gap s) l) = heardOf (listenerAt s l) := by
  have hc : offAvtp (countListener l 3 gap s).aq = offAvtp s.aq ∧
      heardOf (listenerAt (countListener l 3 gap s) l) = heardOf (listenerAt s l) :=
    ⟨offAvtp_countListener l 3 gap s, heardOf_countListener (by decide) l gap s⟩
  unfold tellGap
  split
  · exact ⟨rfl, rfl⟩
  · split
    · exact hc
    · rw [listenerAt_of_aq (emit_aq ..), emit_aq, listenerAt_modListener_same]
      exact hc

/-- An AVTPDU with number `seq` is counted by its listener. -/
def countAvtpdu (l seq len : Nat) (s : State) : State :=
  countListener l 2 len (countListener l 0 1 (modListener l (fun x => { x with last := seq }) s))

theorem countAvtpdu_effect (l seq len : Nat) (s : State) : offAvtp (countAvtpdu l seq len s).aq = offAvtp s.aq ∧
    heardOf (listenerAt (countAvtpdu l seq len s) l) =
      ((addHalf 32 1 (listenerAt s l).pdus).1, (addHalf 48 len (listenerAt s l).octets).1, seq) := by
  refine ⟨?_, ?_⟩
  · rw [countAvtpdu, offAvtp_countListener, offAvtp_countListener]
    rfl
  · rw [countAvtpdu, listenerAt_countListener, listenerAt_countListener, listenerAt_modListener_same]
    rfl

/-- An AVTPDU that an enabled listener takes, its number, its messages and the length it states. -/
def heardAvtpdu (l seq len : Nat) (b acf : List Byte) (s : State) : State :=
  let u := countAvtpdu l seq b.length (tellGap l ((seq + 511 - (listenerAt s l).last) % 256) s)
  let v := parseAcf l u.tide.sec u.tide.ns acf.length acf u
  if acf.length < len then countListener l 5 1 v else v

theorem heardAvtpdu_effect (l seq len : Nat) (b acf : List Byte) (s : State) :
    offAvtp (heardAvtpdu l seq len b acf s).aq = offAvtp s.aq ∧
      heardOf (listenerAt (heardAvtpdu l seq len b acf s) l) =
        ((addHalf 32 1 (listenerAt s l).pdus).1, (addHalf 48 b.length (listenerAt s l).octets).1, seq) := by
  unfold heardAvtpdu
  extract_lets u v
  obtain ⟨hg, hgl⟩ := tellGap_keeps l ((seq + 511 - (listenerAt s l).last) % 256) s
  obtain ⟨hu, hul⟩ := countAvtpdu_effect l seq b.length (tellGap l ((seq + 511 - (listenerAt s l).last) % 256) s)
  obtain ⟨hv, hvl⟩ := parseAcf_keeps l u.tide.sec u.tide.ns acf.length acf u
  simp only [heardOf, Prod.mk.injEq] at hgl
  obtain ⟨hp, ho, -⟩ := hgl
  rw [hp, ho] at hul
  have hw : offAvtp v.aq = offAvtp s.aq ∧ heardOf (listenerAt v l) =
      ((addHalf 32 1 (listenerAt s l).pdus).1, (addHalf 48 b.length (listenerAt s l).octets).1, seq) :=
    ⟨hv.trans (hu.trans hg), hvl.trans hul⟩
  split
  · rw [offAvtp_countListener, heardOf_countListener (by decide)]
    exact hw
  · exact hw

/-- The listener of an AVTPDU: the first that is enabled for its stream. -/
def listenerOf (s : State) (b : List Byte) : Option Nat :=
  (List.range 64).find? (fun i => (listenerAt s i).en && decide ((listenerAt s i).stream = beAt b 4 8))

/-- An AVTPDU is of no use, or its listener takes it. -/
theorem avtpdu_cases (b : List Byte) (s : State) : avtpdu b s = countA 11 1 s ∨
    ∃ l seq len acf, avtpdu b s = heardAvtpdu l seq len b acf s := by
  unfold avtpdu
  extract_lets sub b1 ts sid
  split
  · exact .inl rfl
  · split
    · exact .inl rfl
    · exact .inr ⟨_, _, _, _, rfl⟩

theorem avtpdu_heard {b : List Byte} {s : State} {l : Nat} (ht : beAt b 0 1 = 5 ∨ beAt b 0 1 = 0x82)
    (hv : beAt b 1 1 / 16 = 8) (hl : listenerOf s b = some l) : ∃ len acf, avtpdu b s =
      heardAvtpdu l (if beAt b 0 1 = 5 then beAt b 2 1 else beAt b 3 1) len b acf s := by
  unfold avtpdu
  extract_lets sub b1 ts sid
  rw [if_neg (by omega)]
  have hl' : (List.range 64).find? (fun i => (listenerAt s i).en && decide ((listenerAt s i).stream = sid)) = some l := hl
  rw [hl']
  have hs : (if ts = true then beAt b 2 1 else beAt b 3 1) = if beAt b 0 1 = 5 then beAt b 2 1 else beAt b 3 1 := by
    simp only [ts, sub, decide_eq_true_eq]
  rw [← hs]
  exact ⟨_, _, rfl⟩

theorem offAvtp_avtpdu (b : List Byte) (s : State) : offAvtp (avtpdu b s).aq = offAvtp s.aq := by
  rcases avtpdu_cases b s with h | ⟨l, seq, len, acf, h⟩
  · rw [h, countA_aq]
    rfl
  · rw [h]
    exact (heardAvtpdu_effect l seq len b acf s).1

theorem tunnelAvtpduReceived_effect (s : State) : ∃ t, exec (.tunnelAvtpduReceived) s = .next t ∧
      (s.aq.fromBasin = [] → t = s) ∧ (∀ f r, s.aq.fromBasin = f :: r → t.aq.fromBasin = r ∧ t.aq.cmac = s.aq.cmac ∧
        (f.etype ≠ 0x22F0 → t.aq = { s.aq with fromBasin := r } ∧ t.fv = s.fv) ∧
        t.can = s.can ∧ t.net = s.net ∧ t.tow = s.tow ∧
        (∀ l, f.etype = 0x22F0 → beAt f.payload 0 1 = 5 ∨ beAt f.payload 0 1 = 0x82 → beAt f.payload 1 1 / 16 = 8 →
          (List.range 64).find? (fun i => (listenerAt s i).en && decide ((listenerAt s i).stream = beAt f.payload 4 8)) =
            some l →
          (listenerAt t l).pdus = (addHalf 32 1 (listenerAt s l).pdus).1 ∧
          (listenerAt t l).octets = (addHalf 48 f.payload.length (listenerAt s l).octets).1 ∧
          (listenerAt t l).last = if beAt f.payload 0 1 = 5 then beAt f.payload 2 1 else beAt f.payload 3 1)) := by
  refine ⟨_, rfl, fun hq => by rw [hq], fun f r hq => ?_⟩
  rw [hq]
  dsimp only
  let u : State := modAq (fun v => { v with fromBasin := r }) s
  have hb : blank (only [.wire, .aq]) (avtpdu f.payload u) = blank (only [.wire, .aq]) s :=
    avtpdu_frame _ rfl rfl f.payload u
  have hk := offAvtp_avtpdu f.payload u
  simp only [offAvtp, Prod.mk.injEq] at hk
  split
  case isTrue he =>
    refine ⟨hk.1, hk.2, fun hn => absurd he hn, same_of_blank hb .can rfl, same_of_blank hb .net rfl,
      same_of_blank hb .tow rfl, fun l _ ht hv hl => ?_⟩
    obtain ⟨len, acf, ha⟩ := avtpdu_heard (s := u) ht hv hl
    have hh := (congrArg (fun w => heardOf (listenerAt w l)) ha).trans (heardAvtpdu_effect l _ len f.payload acf u).2
    simp only [heardOf, Prod.mk.injEq] at hh
    exact hh
  case isFalse he => exact ⟨rfl, rfl, fun _ => ⟨rfl, rfl⟩, rfl, rfl, rfl, fun _ h => absurd h he⟩

/-- Settles O48: an arrival is counted before anything else is done with it, and no offer moves a route, a context or a
queue of frames that came in; an entry that does not match counts the drop (log entry 107), and a frame behind an older
one of its source waits (log entry 105). -/
theorem workOfTheAqueduct : Obligations.WorkOfTheAqueduct :=
  ⟨aqueductArrival_effect, cmacCompletion_effect, tunnelAvtpduReceived_effect⟩

end Sys2Proof.Machine
end

section
/-! The Ethernet ports, the packet rings and address requests (O49). -/
open Sys2Proof
namespace Sys2Proof.Machine

/-! What counting, and bringing credits up to now, leaves alone in the network's record. -/

theorem hringAt_of_net {s t : State} (h : t.net = s.net) (i : Nat) : hringAt t i = hringAt s i := by
  rw [hringAt, h, hringAt]

theorem hostqAt_of_net {s t : State} (h : t.net = s.net) (i : Nat) : hostqAt t i = hostqAt s i := by
  rw [hostqAt, h, hostqAt]

theorem others_modPort (p : Nat) (f : Port → Port) (s : State) : others portAt p s (modPort p f s) :=
  fun j h => portAt_modPort_ne p j f s h.symm

/-- The network's record without the counters of the ports. -/
def offCounters (v : Net) : Net := { v with counters := [] }

theorem offCounters_countPort (p k n : Nat) (s : State) : offCounters (countPort p k n s).net = offCounters s.net := by
  unfold countPort
  extract_lets w old s₁
  rw [apply_ite State.net, emit_net, ite_self]
  rfl

theorem offCounters_countRx (p : Nat) (f : EthFrame) (len : Nat) (s : State) :
    offCounters (countRx p f len s).net = offCounters s.net := by
  unfold countRx
  extract_lets s₁
  have h₁ : offCounters s₁.net = offCounters s.net :=
    (offCounters_countPort ..).trans (offCounters_countPort ..)
  split
  · exact (offCounters_countPort ..).trans h₁
  · split
    · exact (offCounters_countPort ..).trans h₁
    · exact h₁

theorem portAt_of_offCounters {s t : State} (h : offCounters t.net = offCounters s.net) (i : Nat) :
    portAt t i = portAt s i := by
  have hp := congrArg Net.ports h
  exact congrArg (tget port0 · i) hp

theorem countRx_workNs (p : Nat) (f : EthFrame) (len : Nat) (s : State) :
    workNs (countRx p f len s) = workNs s := by
  have ht : (countRx p f len s).tide = s.tide :=
    same_of_blank (countRx_frame (only [.wire, .net]) rfl rfl p f len s) .tide rfl
  rw [workNs, ht, workNs]

/-- The network's record without the queues. -/
def offQueues (v : Net) : Net := { v with queues := [] }

theorem offQueues_settle (p : Nat) (s : State) : offQueues (settle p s).net = offQueues s.net := by
  refine foldl_keep (keep := fun s => offQueues s.net) (fun s c => ?_) _ s
  dsimp only
  split <;> rfl

theorem portAt_of_offQueues {s t : State} (h : offQueues t.net = offQueues s.net) (i : Nat) :
    portAt t i = portAt s i := by
  have hp := congrArg Net.ports h
  exact congrArg (tget port0 · i) hp

theorem portAt_settle (p : Nat) (s : State) (i : Nat) : portAt (settle p s) i = portAt s i :=
  portAt_of_offQueues (offQueues_settle p s) i

/-! Links (R331). -/

/-- A link that takes a value changes the link and its cycle, and ends the frame on the wire; no other port changes. -/
theorem portAt_setLink (p l : Nat) (s : State) :
    (∃ c x w, portAt (setLink p l s) p = { portAt s p with link := l, linkCycle := c, sending := x, wire := w }) ∧
      others portAt p s (setLink p l s) := by
  unfold setLink
  split
  case isTrue h => exact ⟨⟨_, _, _, by rw [← h]⟩, fun _ _ => rfl⟩
  case isFalse =>
    extract_lets s₁ s₂ s₃
    have h₂ : ∀ j, portAt s₂ j = portAt s₁ j := fun j => by
      dsimp only [s₂]
      split
      · exact portAt_countPort ..
      · rfl
    have h₃ : (∃ x w, portAt s₃ p = { portAt s₁ p with sending := x, wire := w }) ∧ others portAt p s₁ s₃ := by
      dsimp only [s₃]
      split
      · split
        · exact ⟨⟨_, _, h₂ p⟩, fun j _ => h₂ j⟩
        · refine ⟨⟨_, _, (portAt_countPort ..).trans ((portAt_modPort_same ..).trans (by rw [h₂]))⟩, fun j hj => ?_⟩
          rw [portAt_countPort, portAt_modPort_ne _ _ _ _ hj.symm, h₂]
      · exact ⟨⟨_, _, h₂ p⟩, fun j _ => h₂ j⟩
    obtain ⟨⟨x, w, hp⟩, ho⟩ := h₃
    refine ⟨⟨s.cyc.number, x, w, ?_⟩, fun j hj => ?_⟩
    · rw [portAt_of_net (emit_net ..), hp, portAt_modPort_same]
    · rw [portAt_of_net (emit_net ..), ho j hj, others_modPort p _ s j hj]

/-- A port that gains its link (R331, R333). -/
def portUp (p sqi speed : Nat) (s : State) : State :=
  let t := detectEnd 0x054 (setLink p 1 (modPort p (fun x =>
    { x with sqi := sqi % 8, speedNow := speed % 8, plcaUp := plcaStart p x }) s))
  if slopesFit t p then t else emit 0x2503 (0x2200 + p) t (cause := 2) (value := t.cyc.number)

/-- A port that loses its link. -/
def portDown (p : Nat) (s : State) : State :=
  detect 0x054 true (setLink p 0 (modPort p (fun x => { x with plcaUp := false, sqi := 0 }) s))

theorem exec_portLinkChange {p : Nat} (up : Bool) (sqi speed : Nat) (s : State) (h : p < 12) :
    exec (.portLinkChange p up sqi speed) s = .next
      (if !(portAt s p).en || (decide (8 ≤ p) && portMoored s p) then s
       else if up then portUp p sqi speed s
       else if (portAt s p).link = 0 ∨ (portAt s p).link = 2 then s
       else portDown p s) :=
  guardUnit_of_ok (decide_eq_true h) _

theorem portUp_effect (p sqi speed : Nat) (s : State) :
    (portAt (portUp p sqi speed s) p).link = 1 ∧ (portAt (portUp p sqi speed s) p).sqi = sqi % 8 ∧
      (portAt (portUp p sqi speed s) p).speedNow = speed % 8 ∧
      (portAt (portUp p sqi speed s) p).plcaUp = plcaStart p (portAt s p) ∧
      others portAt p s (portUp p sqi speed s) := by
  have hn : ∀ j, portAt (portUp p sqi speed s) j = portAt (setLink p 1 (modPort p (fun x =>
      { x with sqi := sqi % 8, speedNow := speed % 8, plcaUp := plcaStart p x }) s)) j := fun j => by
    unfold portUp
    extract_lets t
    rw [apply_ite (portAt · j), portAt_of_net (emit_net ..), ite_self]
    exact portAt_of_net (detectEnd_net ..) j
  obtain ⟨⟨c, x, w, hp⟩, ho⟩ := portAt_setLink p 1 (modPort p (fun x =>
    { x with sqi := sqi % 8, speedNow := speed % 8, plcaUp := plcaStart p x }) s)
  rw [hn, hp, portAt_modPort_same]
  exact ⟨rfl, rfl, rfl, rfl, fun j hj => (hn j).trans ((ho j hj).trans (others_modPort p _ s j hj))⟩

theorem portDown_effect (p : Nat) (s : State) :
    (portAt (portDown p s) p).link = 0 ∧ (portAt (portDown p s) p).sqi = 0 ∧ (portAt (portDown p s) p).plcaUp = false ∧
      others portAt p s (portDown p s) ∧ detected 0x054 true s (portDown p s) := by
  have hn : ∀ j, portAt (portDown p s) j =
      portAt (setLink p 0 (modPort p (fun x => { x with plcaUp := false, sqi := 0 }) s)) j :=
    portAt_of_net (detect_net ..)
  obtain ⟨⟨c, x, w, hp⟩, ho⟩ := portAt_setLink p 0 (modPort p (fun x => { x with plcaUp := false, sqi := 0 }) s)
  rw [hn, hp, portAt_modPort_same]
  refine ⟨rfl, rfl, rfl, fun j hj => (hn j).trans ((ho j hj).trans (others_modPort p _ s j hj)), ?_⟩
  refine detected_after (L := only [.wire, .net]) ?_ rfl rfl rfl 0x054 true
  rw [setLink_frame _ rfl rfl, modPort_frame _ rfl]

theorem portLinkChange_effect (p sqi speed : Nat) (up : Bool) (s : State) (h : p < 12) :
    ∃ t, exec (.portLinkChange p up sqi speed) s = .next t ∧
      ((portAt s p).en = false ∨ (8 ≤ p ∧ portMoored s p = true) → t = s) ∧
      ((portAt s p).en = true → (8 ≤ p → portMoored s p = false) → up = true → (portAt t p).link = 1 ∧
        (portAt t p).sqi = sqi % 8 ∧ (portAt t p).speedNow = speed % 8 ∧
        (portAt t p).plcaUp = plcaStart p (portAt s p) ∧ others portAt p s t) ∧
      ((portAt s p).en = true → (8 ≤ p → portMoored s p = false) → up = false → (portAt s p).link ≠ 0 →
        (portAt s p).link ≠ 2 → (portAt t p).link = 0 ∧ (portAt t p).sqi = 0 ∧ (portAt t p).plcaUp = false ∧
        others portAt p s t ∧ detected 0x054 true s t) := by
  have hc : (portAt s p).en = true → (8 ≤ p → portMoored s p = false) →
      ¬ (!(portAt s p).en || (decide (8 ≤ p) && portMoored s p)) = true := by
    intro hen hm hx
    rw [hen] at hx
    simp only [Bool.not_true, Bool.false_or, Bool.and_eq_true, decide_eq_true_eq] at hx
    rw [hm hx.1] at hx
    exact absurd hx.2 (by decide)
  refine ⟨_, exec_portLinkChange up sqi speed s h, fun hd => if_pos ?_, fun hen hm hup => ?_, fun hen hm hup h0 h2 => ?_⟩
  · rcases hd with hd | ⟨h8, hm⟩
    · simp [hd]
    · simp [h8, hm]
  · rw [if_neg (hc hen hm), if_pos hup]
    exact portUp_effect p sqi speed s
  · rw [if_neg (hc hen hm), if_neg (by simp [hup]), if_neg (by simp [h0, h2])]
    exact portDown_effect p s

/-! Received frames (R334-R336, R352). -/

/-- A received frame as the Basin and the Lockkeeper hold it. -/
def rxNet (p : Nat) (g : EthFrame) (sec : Bool) (s : State) : NetFrame :=
  { f := g, ing := p, arr := workNs s, secured := sec, ipc := checkIp g, l4c := checkL4 g }

/-- A frame that passed MACsec goes to the Lockkeeper or to the Basin. -/
def passUp (p : Nat) (res : Option (EthFrame × Bool)) (s : State) : State :=
  match res with
  | none => s
  | some (g, sec) => if isGptp g || isEapol g then toKeeper p (rxNet p g sec s) s else toBasin (rxNet p g sec s) s

/-- What becomes of a good frame once it is counted. -/
def goodFrame (p : Nat) (f : EthFrame) (tag : Option SecTag) (s : State) : State :=
  if (portAt s p).macsec then passUp p (macsecRx p f tag s).1 (macsecRx p f tag s).2
  else passUp p (some (match tag with | some t => t.raw | none => f, false)) s

theorem exec_ethFrameReceived {p : Nat} (f : EthFrame) (len : Nat) (fcsOk : Bool) (tag : Option SecTag) (s : State)
    (h : p < 12) : exec (.ethFrameReceived p f len fcsOk tag) s = .next
      (if !(portAt s p).en || decide ((portAt s p).link ≠ 1) then s
       else if len < 64 then countPort p (if fcsOk then 5 else 6) 1 s
       else if portLimit s p < len then countPort p 7 1 s
       else if !fcsOk then countPort p 4 1 s
       else if f.etype = 0x8808 then countPort p 9 1 s
       else goodFrame p f tag (countRx p f len s)) := by
  refine (guardUnit_of_ok (decide_eq_true h) _).trans ?_
  congr 6
  unfold goodFrame
  extract_lets s₁
  cases (portAt s₁ p).macsec <;> rfl

theorem macsec_countRx (p : Nat) (f : EthFrame) (len : Nat) (s : State) :
    (portAt (countRx p f len s) p).macsec = (portAt s p).macsec := by
  rw [portAt_of_offCounters (offCounters_countRx ..)]

theorem toBasin_countRx (p : Nat) (f : EthFrame) (len : Nat) (x : NetFrame) (s : State) :
    (toBasin x (countRx p f len s)).net.toBasin = s.net.toBasin ++ [{ x with fid := s.net.nextFid }] := by
  have hbasin := congrArg Net.toBasin (offCounters_countRx p f len s)
  have hfid := congrArg Net.nextFid (offCounters_countRx p f len s)
  dsimp only [offCounters] at hbasin hfid
  change (countRx p f len s).net.toBasin ++ [{ x with fid := (countRx p f len s).net.nextFid }] = _
  rw [hbasin, hfid]

theorem goodFrame_untagged {p : Nat} {f : EthFrame} {s : State} (h : (portAt s p).macsec = false) :
    goodFrame p f none s =
      if isGptp f || isEapol f then toKeeper p (rxNet p f false s) s else toBasin (rxNet p f false s) s :=
  if_neg (by rw [h]; decide)

theorem goodFrame_refused {p : Nat} {f : EthFrame} {tag : Option SecTag} {s : State}
    (h : (portAt s p).macsec = true) (hr : (macsecRx p f tag s).1 = none) :
    goodFrame p f tag s = (macsecRx p f tag s).2 := by
  refine (if_pos h).trans ?_
  rw [hr]
  rfl

theorem ethFrameReceived_effect (p len : Nat) (f : EthFrame) (fcsOk : Bool) (tag : Option SecTag) (s : State)
    (h : p < 12) : ∃ t, exec (.ethFrameReceived p f len fcsOk tag) s = .next t ∧
      ((portAt s p).en = false ∨ (portAt s p).link ≠ 1 → t = s) ∧ ((portAt s p).en = true → (portAt s p).link = 1 →
        (len < 64 → t = countPort p (if fcsOk then 5 else 6) 1 s) ∧
        (64 ≤ len → portLimit s p < len → t = countPort p 7 1 s) ∧
        (64 ≤ len → len ≤ portLimit s p → fcsOk = false → t = countPort p 4 1 s) ∧
        (64 ≤ len → len ≤ portLimit s p → fcsOk = true → f.etype = 0x8808 → t = countPort p 9 1 s) ∧
        (64 ≤ len → len ≤ portLimit s p → fcsOk = true → f.etype ≠ 0x8808 → (portAt s p).macsec = false → tag = none →
          (isGptp f = false → isEapol f = false → t.net.toBasin = s.net.toBasin ++ [{ f := f, ing := p, arr := workNs s, fid := s.net.nextFid, ipc := checkIp f, l4c := checkL4 f }]) ∧
          (isGptp f = true ∨ isEapol f = true → t = toKeeper p { f := f, ing := p, arr := workNs s, ipc := checkIp f, l4c := checkL4 f } (countRx p f len s))) ∧
        (64 ≤ len → len ≤ portLimit s p → fcsOk = true → f.etype ≠ 0x8808 → (portAt s p).macsec = true →
          (macsecRx p f tag (countRx p f len s)).1 = none → t = (macsecRx p f tag (countRx p f len s)).2)) := by
  refine ⟨_, exec_ethFrameReceived f len fcsOk tag s h, fun hd => if_pos ?_, fun hen hl => ?_⟩
  · rcases hd with hd | hd <;> simp [hd]
  rw [if_neg (by simp [hen, hl])]
  refine ⟨fun h64 => if_pos h64, fun h64 hm => ?_, fun h64 hm hf => ?_, fun h64 hm hf he => ?_,
    fun h64 hm hf he hs ht => ?_, fun h64 hm hf he hs hr => ?_⟩
  · rw [if_neg (by omega), if_pos hm]
  · rw [if_neg (by omega), if_neg (by omega), if_pos (by simp [hf])]
  · rw [if_neg (by omega), if_neg (by omega), if_neg (by simp [hf]), if_pos he]
  · subst ht
    rw [if_neg (by omega), if_neg (by omega), if_neg (by simp [hf]), if_neg he,
      goodFrame_untagged ((macsec_countRx p f len s).trans hs), rxNet, countRx_workNs]
    refine ⟨fun hg hk => ?_, fun hk => if_pos ?_⟩
    · rw [if_neg (by simp [hg, hk]), toBasin_countRx]
    · rcases hk with hk | hk <;> simp [hk]
  · rw [if_neg (by omega), if_neg (by omega), if_neg (by simp [hf]), if_neg he,
      goodFrame_refused ((macsec_countRx p f len s).trans hs) hr]

/-! PLCA beacons (R333). -/

theorem plcaBeaconTimeout_effect (p : Nat) (s : State) (h : 8 ≤ p ∧ p < 12) :
    ∃ t, exec (.plcaBeaconTimeout p) s = .next t ∧
      (if plcaOn (portAt s p) = true ∧ (portAt s p).plcaId ≠ 0 ∧ (portAt s p).plcaUp = true then
        portAt t p = { portAt s p with plcaUp := false } ∧ others portAt p s t else t = s) := by
  refine ⟨_, guardUnit_of_ok (decide_eq_true h) _, ?_⟩
  simp only [Bool.and_eq_true, decide_eq_true_eq, and_assoc]
  split
  · exact ⟨(portAt_of_net (emit_net ..) p).trans (portAt_modPort_same ..),
      fun j hj => (portAt_of_net (emit_net ..) j).trans (others_modPort p _ s j hj)⟩
  · rfl

theorem plcaBeaconReceived_effect (p : Nat) (s : State) (h : 8 ≤ p ∧ p < 12) :
    ∃ t, exec (.plcaBeaconReceived p) s = .next t ∧ (plcaOn (portAt s p) = false → t = s) ∧
      (plcaOn (portAt s p) = true → (portAt s p).plcaId = 0 → t = emit 0x2402 p (countPort p 17 1 s) (cause := 3)) ∧
      (plcaOn (portAt s p) = true → (portAt s p).plcaId ≠ 0 → if (portAt s p).plcaUp = true then t = s
        else portAt t p = { portAt s p with plcaUp := true } ∧ others portAt p s t) := by
  have hs : plcaOn (portAt s p) = true → ¬ (!plcaOn (portAt s p)) = true := fun hp => by simp [hp]
  refine ⟨_, guardUnit_of_ok (decide_eq_true h) _, fun hp => if_pos (by simp [hp]), fun hp hi => ?_, fun hp hi => ?_⟩
  · dsimp only
    rw [if_neg (hs hp), if_pos hi]
  · dsimp only
    rw [if_neg (hs hp), if_neg hi]
    by_cases hu : (portAt s p).plcaUp = true
    · rw [if_pos hu, if_pos hu]
    · rw [if_neg hu, if_neg hu]
      exact ⟨(portAt_of_net (emit_net ..) p).trans (portAt_modPort_same ..),
        fun j hj => (portAt_of_net (emit_net ..) j).trans (others_modPort p _ s j hj)⟩

/-! Sending (R337, R338, R350). -/

theorem protects_of_plain {s : State} {p : Nat} {f : EthFrame} (h : (portAt s p).macsec = false) :
    protects s p f = false := by
  simp [protects, h]

theorem portAt_sentCredit (p c ns : Nat) (s : State) (i : Nat) : portAt (sentCredit p c ns s) i = portAt s i := rfl

theorem ethFrameTransmit_effect (p collisions : Nat) (ecc : Bool) (s : State) (h : p < 16) :
    ∃ t, exec (.ethFrameTransmit p collisions ecc) s = .next t ∧
      ((portAt s p).sending = none → t = s) ∧
      (∀ c x u, (portAt s p).sending = some (c, x) → u = modPort p (fun v => { v with sending := none }) (settle p s) →
        (ecc = true → (portAt t p).sending = none ∧ detected 0x020 false s t) ∧
        (ecc = false → p < 12 → (portAt s p).link ≠ 1 ∨ (portAt s p).en = false → t = countPort p 15 1 u) ∧
        (ecc = false → (p < 12 → (portAt s p).link = 1 ∧ (portAt s p).en = true) →
          portLimit u p < frameLen (egressBytes u p x) → t = countPort p 14 1 u) ∧
        (ecc = false → p < 12 → (portAt s p).link = 1 → (portAt s p).en = true →
          frameLen (egressBytes u p x) ≤ portLimit u p → (portAt s p).macsec = false →
          (portAt t p).wire = some { f := egressBytes u p x })) := by
  refine ⟨_, guardUnit_of_ok (decide_eq_true h) _, fun hs => by rw [hs], fun c x u hs hu => ?_⟩
  have hp : portAt u p = { portAt s p with sending := none } := by
    rw [hu, portAt_modPort_same, portAt_settle]
  have hl : (portAt u p).link = (portAt s p).link := by rw [hp]
  have hen : (portAt u p).en = (portAt s p).en := by rw [hp]
  have hmac : (portAt u p).macsec = (portAt s p).macsec := by rw [hp]
  simp only [hs, ← hu, hl, hen]
  refine ⟨fun he => ?_, fun he h12 hd => ?_, fun he hup hlen => ?_, fun he h12 hl1 hen1 hlen hm => ?_⟩
  · rw [if_pos he]
    refine ⟨?_, detected_after (L := only [.net]) ?_ rfl rfl rfl 0x020 false⟩
    · rw [portAt_of_net (detect_net ..), hp]
    · rw [hu, modPort_frame _ rfl, settle_frame _ rfl]
  · rw [if_neg (by simp [he]), if_pos ⟨h12, hd⟩]
  · have hn : ¬ (p < 12 ∧ ((portAt s p).link ≠ 1 ∨ (portAt s p).en = false)) := fun hx => by
      obtain ⟨h1, h2⟩ := hup hx.1
      simp [h1, h2] at hx
    rw [if_neg (by simp [he]), if_neg hn, if_pos hlen]
  · have hn : ¬ (p < 12 ∧ ((portAt s p).link ≠ 1 ∨ (portAt s p).en = false)) := by simp [hl1, hen1]
    rw [if_neg (by simp [he]), if_neg hn, if_neg (by omega)]
    generalize hv : sentCredit p c (txTime u p x) _ = v
    have hplain : (portAt v p).macsec = false := by
      rw [← hv, portAt_sentCredit, apply_ite (portAt · p), portAt_countPort, ite_self, hmac, hm]
    rw [protects_of_plain hplain, if_neg Bool.false_ne_true, if_neg (by omega), if_neg (by omega), portAt_modPort_same]

/-! The host port (R340-R344, R386). -/

theorem hostqAt_countG (k : Nat) (s : State) (i : Nat) : hostqAt (countG k s) i = hostqAt s i := by
  unfold countG
  split
  next n half _ =>
    extract_lets s₁
    rw [apply_ite (hostqAt · i), hostqAt_of_net (emit_net ..), ite_self]
    rfl

theorem hostPortDelivery_effect (s : State) :
    ∃ t, exec (.hostPortDelivery) s = .next t ∧ (nextHost s = none → t = s) ∧
      (∀ p u c r, nextHost s = some (p, u) → hostqAt u p = c :: r → u.net.hostMaxRes ≠ 0 →
        u.net.hostMaxRes * 1000 < workNs u - c.fr.arr → hostqAt t p = r) ∧
      (∀ p u c r, nextHost s = some (p, u) → hostqAt u p = c :: r → u.net.hostMaxRes = 0 → c.fr.mark.ring = none →
        ∀ v, v = modNet (fun v => { v with
            deficit := tput ctr0 p (if r.isEmpty then 0 else tget ctr0 v.deficit p - frameLen c.fr.f) v.deficit })
          (modHostq p (fun _ => r) u) →
        t = deliverRing p c.ring c.filter { c.fr with f := egressBytes v 12 c } v) := by
  refine ⟨_, rfl, fun hn => by rw [hn], fun p u c r hn hq hm hlate => ?_, fun p u c r hn hq hm hr v hv => ?_⟩
  · simp only [hn, hq]
    refine (congrArg (hostqAt · p) (if_pos ⟨hm, hlate⟩)).trans ((hostqAt_countG ..).trans ?_)
    exact hostqAt_modHostq_same p (fun _ => r) u
  · simp only [hn, hq, hr, ← hv]
    have h0 : ¬ (v.net.hostMaxRes ≠ 0 ∧ v.net.hostMaxRes * 1000 < workNs v - c.fr.arr) := fun hx => by
      rw [hv] at hx
      exact hx.1 hm
    exact if_neg h0

/-! Completions (R345, R346): what stays as it is while they are written back. -/

/-- The network's record without the packet rings. -/
def offRings (v : Net) : Net := { v with rings := [] }

/-- A packet ring without its completions and what is written back of it. -/
def offDone (g : HostRing) : HostRing := { g with done := [], nextId := 0, back := [], bufs := [] }

/-- What completions leave as it is: the network but its rings, and of ring `j` all but its completions. -/
def besidesDone (j : Nat) (s : State) : Net × HostRing := (offRings s.net, offDone (hringAt s j))

theorem besidesDone_modHring {f : HostRing → HostRing} (hf : ∀ g, offDone (f g) = offDone g) (k j : Nat) (s : State) :
    besidesDone j (modHring k f s) = besidesDone j s := by
  refine Prod.ext rfl ?_
  change offDone (hringAt (modHring k f s) j) = offDone (hringAt s j)
  by_cases h : k = j
  · rw [h, hringAt_modHring_same, hf]
  · rw [hringAt_modHring_ne k j f s h]

theorem besidesDone_foldl {α : Type} {f : State → α → State} {j : Nat}
    (hf : ∀ s a, besidesDone j (f s a) = besidesDone j s) (l : List α) (s : State) :
    besidesDone j (l.foldl f s) = besidesDone j s := by
  induction l generalizing s with
  | nil => rfl
  | cons a l ih => rw [List.foldl_cons, ih, hf]

theorem besidesDone_writeBack (p r j : Nat) (l : List Written) (s : State) :
    besidesDone j (writeBack p r l s) = besidesDone j s := by
  unfold writeBack
  split
  · rfl
  next e _ =>
    extract_lets h base n s₁ s₂
    have h₁ : besidesDone j s₁ = besidesDone j s := besidesDone_foldl (fun s x => besidesDone_modHring (fun _ => by rfl) _ j s) _ s
    have h₂ : besidesDone j s₂ = besidesDone j s₁ := by
      dsimp only [s₂]
      split
      · refine besidesDone_foldl (fun s x => ?_) _ s₁
        split <;> rfl
      · rfl
    exact h₂.trans h₁

theorem besidesDone_flushDone (k j : Nat) (s : State) : besidesDone j (flushDone k s) = besidesDone j s := by
  unfold flushDone
  extract_lets l parts
  split
  · rfl
  · rw [besidesDone_writeBack, besidesDone_modHring (fun _ => by rfl)]

theorem besidesDone_complete (k id st sec ns j : Nat) (s : State) :
    besidesDone j (complete k id st sec ns s) = besidesDone j s := by
  rw [complete, besidesDone_flushDone, besidesDone_modHring (fun _ => by rfl)]

theorem besidesDone_pushDone (k tag n j : Nat) (st : Option Nat) (s : State) :
    besidesDone j (pushDone k tag n st s) = besidesDone j s := by
  rw [pushDone, besidesDone_flushDone, besidesDone_modHring (fun _ => by rfl)]

theorem offRings_of_besidesDone {j : Nat} {s t : State} (h : besidesDone j t = besidesDone j s) :
    offRings t.net = offRings s.net :=
  congrArg Prod.fst h

theorem toBasin_of_offRings {s t : State} (h : offRings t.net = offRings s.net) : t.net.toBasin = s.net.toBasin := by
  have hb := congrArg Net.toBasin h
  exact hb

theorem nextFid_of_offRings {s t : State} (h : offRings t.net = offRings s.net) : t.net.nextFid = s.net.nextFid := by
  have hf := congrArg Net.nextFid h
  exact hf

/-! Transmit rings (R345, R346). -/

theorem others_modHring (i : Nat) (f : HostRing → HostRing) (s : State) : others hringAt i s (modHring i f s) :=
  fun j h => hringAt_modHring_ne i j f s h.symm

theorem txFrameFetch_effect (p r : Nat) (s : State) (h : p < 32 ∧ 4 ≤ r ∧ r < 8) :
    ∃ t, exec (.txFrameFetch p r) s = .next t ∧
      (ringOn s p r = false → t = s) ∧ (ringOn s p r = true → let g := hringAt s (ringKey p r)
        (txNext (g.cur ++ g.posted) = .idle → t = s) ∧
        (txNext (g.cur ++ g.posted) = .part →
          hringAt t (ringKey p r) = { hringAt s (ringKey p r) with cur := g.cur ++ g.posted, posted := [] } ∧
            others hringAt (ringKey p r) s t) ∧
        (∀ n, txNext (g.cur ++ g.posted) = .refuse n →
          t = pushDone (ringKey p r) (elemOr {} (g.cur ++ g.posted) 0).tag n (some 5)
            (modHring (ringKey p r) (fun h => { h with cur := [], posted := (g.cur ++ g.posted).drop n }) s)) ∧
        (∀ l, txNext (g.cur ++ g.posted) = .frame l → (poundAt s p).txCells < txCellsHeld s p + 18 → t = s) ∧
        (∀ l, txNext (g.cur ++ g.posted) = .frame l → txCellsHeld s p + 18 ≤ (poundAt s p).txCells →
          (∀ d ∈ l, bufOk s p d = true) →
          ∃ y, t.net.toBasin = s.net.toBasin ++ [y] ∧ y.pound = p ∧ y.ing = 12 ∧ y.fid = s.net.nextFid ∧
            y.mark.ring = some (ringKey p r) ∧ y.mark.id = g.nextId ∧ y.mark.tag = (elemOr {} l 0).tag)) := by
  refine ⟨_, guardUnit_of_ok (decide_eq_true h) _, fun hoff => if_pos (by simp [hoff]), fun hon => ?_⟩
  have hn : ¬ (!ringOn s p r) = true := by simp [hon]
  dsimp only
  rw [if_neg hn]
  refine ⟨fun hx => ?_, fun hx => ?_, fun n hx => ?_, fun l hx hc => ?_, fun l hx hc hb => ?_⟩
  · rw [hx]
  · rw [hx]
    exact ⟨hringAt_modHring_same .., others_modHring _ _ s⟩
  · rw [hx]
  · rw [hx]
    exact if_pos hc
  · simp only [hx, if_neg (Nat.not_lt.mpr hc)]
    generalize hu : modHring (ringKey p r) _ s = u
    have hbuf : ∀ d, bufOk u p d = bufOk s p d := fun d => by
      rw [← hu]
      rfl
    have hall : ¬ (l.any fun d => !bufOk u p d) = true := by
      simpa [hbuf] using hb
    have hk : offRings (pushDone (ringKey p r) (elemOr {} l 0).tag l.length none u).net = offRings s.net := by
      rw [offRings_of_besidesDone (besidesDone_pushDone _ _ _ 0 _ u), ← hu]
      rfl
    rw [if_neg hall]
    exact ⟨_, by rw [← toBasin_of_offRings hk]; rfl, rfl, rfl, nextFid_of_offRings hk, rfl, rfl, rfl⟩

theorem eopTimeout_effect (p r : Nat) (s : State) (h : p < 32 ∧ 4 ≤ r ∧ r < 8) :
    ∃ t, exec (.eopTimeout p r) s = .next t ∧ ((hringAt s (ringKey p r)).cur = [] → t = s) ∧
      ((hringAt s (ringKey p r)).cur ≠ [] → (hringAt t (ringKey p r)).cur = [] ∧
        (hringAt t (ringKey p r)).posted = (hringAt s (ringKey p r)).posted ∧ t.net.toBasin = s.net.toBasin) := by
  refine ⟨_, guardUnit_of_ok (decide_eq_true h) _, fun he => if_pos (by simp [he]), fun he => ?_⟩
  dsimp only
  rw [if_neg (by simp [he])]
  have hk := besidesDone_foldl (j := ringKey p r) (fun s (d : Desc) => besidesDone_pushDone (ringKey p r) d.tag 1 (ringKey p r) (some 6) s)
    (hringAt s (ringKey p r)).cur (modHring (ringKey p r) (fun g => { g with cur := [] }) s)
  have hring := congrArg Prod.snd hk
  dsimp only [besidesDone] at hring
  rw [hringAt_modHring_same] at hring
  have hcur := congrArg HostRing.cur hring
  have hposted := congrArg HostRing.posted hring
  have hbasin := toBasin_of_offRings (offRings_of_besidesDone hk)
  exact ⟨hcur, hposted, hbasin⟩

theorem ts2Timeout_effect (p r id : Nat) (s : State) (h : p < 32 ∧ 4 ≤ r ∧ r < 8) :
    ∃ t, exec (.ts2Timeout p r id) s = .next t ∧
      (if (hringAt s (ringKey p r)).done.any (fun x => decide (x.id = id) && x.status.isNone) then
        t = complete (ringKey p r) id 3 0 0 s ∧ (∀ j, portAt t j = portAt s j) ∧ (∀ j, hostqAt t j = hostqAt s j)
      else t = s) := by
  refine ⟨_, guardUnit_of_ok (decide_eq_true h) _, ?_⟩
  have hk := offRings_of_besidesDone (besidesDone_complete (ringKey p r) id 3 0 0 0 s)
  have hp := congrArg Net.ports hk
  have hq := congrArg Net.hostq hk
  split
  · exact ⟨rfl, fun j => congrArg (tget port0 · j) hp, fun j => congrArg (tget hostq0 · j) hq⟩
  · rfl

/-! Address requests (R410). -/

theorem addressResolutionRequest_effect (i mac ip : Nat) (s : State) (h : i < 4) :
    ∃ t, exec (.addressResolutionRequest i mac ip) s = .next t ∧
      ((tget iface0 s.fv.ifaces i).en = false ∨ s.fv.fw = false → t = s) ∧
      ((tget iface0 s.fv.ifaces i).en = true → s.fv.fw = true →
        ∃ y, t.net.toBasin = s.net.toBasin ++ [y] ∧ y.ing = 12 ∧ y.direct = none ∧ y.fid = s.net.nextFid ∧
          y.f = (let x := tget iface0 s.fv.ifaces i
            let g := if x.v6 then neighbourReply (portAt s 12).station x.addr mac ip
              else arpReply (portAt s 12).station x.addr mac ip
            { g with tagged := decide (x.vid ≠ 0), vid := x.vid })) := by
  refine ⟨_, guardUnit_of_ok (decide_eq_true h) _, fun hd => if_pos ?_, fun hen hfw => ?_⟩
  · rcases hd with hd | hd <;> simp [hd]
  · dsimp only
    rw [if_neg (by simp [hen, hfw])]
    exact ⟨_, rfl, rfl, rfl, rfl, rfl⟩

/-- Settles O49: each operation of the Ethernet ports, their rings and the host port by its own effect. -/
theorem portsAndTheirFrames : Obligations.PortsAndTheirFrames :=
  ⟨portLinkChange_effect, ethFrameReceived_effect, plcaBeaconTimeout_effect, plcaBeaconReceived_effect,
    ethFrameTransmit_effect, hostPortDelivery_effect, txFrameFetch_effect, eopTimeout_effect, ts2Timeout_effect,
    addressResolutionRequest_effect⟩

end Sys2Proof.Machine
end

section
/-! The Basin (O50). -/
open Sys2Proof
namespace Sys2Proof.Machine

/-! What joins a queue, and what a queue that changes otherwise keeps (R366-R368, R390). -/

theorem others_modQueue (q : Nat) (f : Queue → Queue) (s : State) : others queueAt q s (modQueue q f s) :=
  fun j h => queueAt_modQueue_ne q j f s h.symm

theorem queueAt_of_net {s t : State} (h : t.net = s.net) (q : Nat) : queueAt t q = queueAt s q := by
  rw [queueAt, h, queueAt]

theorem copies_modQueue {f : Queue → Queue} (hf : ∀ x, (f x).copies = x.copies) (i q : Nat) (s : State) :
    (queueAt (modQueue i f s) q).copies = (queueAt s q).copies := by
  by_cases h : i = q
  · rw [h, queueAt_modQueue_same, hf]
  · rw [queueAt_modQueue_ne i q f s h]

theorem copies_countQ (i k n q : Nat) (s : State) : (queueAt (countQ i k n s) q).copies = (queueAt s q).copies := by
  unfold countQ
  extract_lets w old s₁
  rw [apply_ite (queueAt · q), queueAt_of_net (emit_net ..), ite_self]
  exact copies_modQueue (fun _ => by rfl) i q s

theorem copies_settle (p q : Nat) (s : State) : (queueAt (settle p s) q).copies = (queueAt s q).copies := by
  refine foldl_keep (keep := fun s => (queueAt s q).copies) (fun s c => ?_) _ s
  dsimp only
  split
  · rfl
  · exact copies_modQueue (fun _ => by rfl) _ q s

theorem offQueues_modQueue (i : Nat) (f : Queue → Queue) (s : State) :
    offQueues (modQueue i f s).net = offQueues s.net := rfl

theorem offQueues_countQ (i k n : Nat) (s : State) : offQueues (countQ i k n s).net = offQueues s.net := by
  unfold countQ
  extract_lets w old s₁
  rw [apply_ite State.net, emit_net, ite_self]
  rfl

theorem toBasin_of_offQueues {s t : State} (h : offQueues t.net = offQueues s.net) : t.net.toBasin = s.net.toBasin := by
  have hb := congrArg Net.toBasin h
  exact hb

/-- A copy within the packet memory and without a congestion mark joins the end of its queue. -/
theorem linkCopy_effect {q : Nat} {c : Copy} (s : State) (ho : c.ovf = false) (hc : c.ce = false) :
    (queueAt (linkCopy q c s) q).copies = (queueAt s q).copies ++ [c] ∧ (linkCopy q c s).net.toBasin = s.net.toBasin := by
  have hl : linkCopy q c s = countQ q 1 (frameLen c.fr.f) (countQ q 0 1
      (modQueue q (fun x => { x with copies := x.copies ++ [c] }) (settle (q / 8) s))) := by
    simp only [linkCopy, ho, hc, Bool.false_eq_true, if_false]
  rw [hl]
  constructor
  · rw [copies_countQ, copies_countQ, queueAt_modQueue_same, copies_settle]
  · apply toBasin_of_offQueues
    rw [offQueues_countQ, offQueues_countQ, offQueues_modQueue, offQueues_settle]

/-- A copy whose queue has room within its own cells is linked (R368). -/
theorem enqueueCopy_within {q : Nat} {c : Copy} {s : State} (full : Bool) (hd : descUsed s < 16384)
    (ho : qOvf (queueAt s q) = 0) (hm : qCells (queueAt s q) + copyCells c ≤ (queueAt s q).qMin) :
    (enqueueCopy q c full s).2 = linkCopy q c s := by
  unfold enqueueCopy
  rw [if_neg (Nat.not_le.mpr hd)]
  extract_lets x need n ect spilled
  rw [if_neg (by simp [x, ho]), if_pos hm]

/-! Frames that come in (R360-R368). -/

/-- What becomes of a frame of the ports that leaves the Basin's input. -/
def classified (x : NetFrame) (full : Bool) (vid pcp : Nat) (s : State) : State :=
  if (swAt s x.ing).strict && !bitOf x.ing (members16 s vid) then ingressDone x [] false (countG 1 s)
  else
    let st := match fdbFind s 3 x.f.src vid x.ing with
      | some e => some e
      | none => fdbFind s 2 x.f.dst vid x.ing
    match st with
    | some e => streamFrame e.stream (routeFrame s x vid pcp st) full s
    | none => admitAll (routeFrame s x vid pcp st) full s

/-- What becomes of the frame at the front of the Basin's input. -/
def frameIn (x : NetFrame) (full : Bool) (s : State) : State :=
  match x.direct with
  | some p => (enqueueCopy (8 * p + fieldOf (3 * (swAt s 12).defPcp) 3 (swAt s p).pcpTc) { fr := x } full s).2
  | none =>
    if !s.net.loaded then ingressDone x [] false s
    else classified x full (ingressTag s x.f x.ing).1 (ingressTag s x.f x.ing).2 s

theorem exec_basinIngress_cons {x : NetFrame} {rest : List NetFrame} {s : State} (full : Bool)
    (h : s.net.toBasin = x :: rest) :
    exec (.basinIngress full) s = .next (frameIn x full (modNet (fun v => { v with toBasin := rest }) s)) := by
  change execBasinIngress full s = _
  unfold execBasinIngress frameIn classified
  rewrite [h]
  dsimp only <;> cases x.direct <;> rfl

/-- The effect of BASIN_INGRESS where a frame waits, case by case. -/
theorem frameIn_effect (x : NetFrame) (full : Bool) (u : State) :
    (∀ p q, x.direct = some p → q = 8 * p + fieldOf (3 * (swAt u 12).defPcp) 3 (swAt u p).pcpTc → descUsed u < 16384 →
      qOvf (queueAt u q) = 0 → qCells (queueAt u q) + copyCells { fr := x } ≤ (queueAt u q).qMin →
      (queueAt (frameIn x full u) q).copies = (queueAt u q).copies ++ [{ fr := x }] ∧
        (frameIn x full u).net.toBasin = u.net.toBasin) ∧
    (x.direct = none → u.net.loaded = false → frameIn x full u = ingressDone x [] false u) ∧
    (∀ vid pcp, x.direct = none → u.net.loaded = true → ingressTag u x.f x.ing = (vid, pcp) →
      frameIn x full u = classified x full vid pcp u) := by
  unfold frameIn
  refine ⟨fun p q hd hq hu ho hm => ?_, fun hd hl => ?_, fun vid pcp hd hl ht => ?_⟩
  · rw [hd]
    dsimp only
    rw [← hq, enqueueCopy_within full hu ho hm]
    exact linkCopy_effect u rfl rfl
  · rw [hd]
    exact if_pos (by simp [hl])
  · rw [hd]
    dsimp only
    rw [if_neg (by simp [hl]), ht]

theorem classified_effect (x : NetFrame) (full : Bool) (vid pcp : Nat) (u : State) :
    ((swAt u x.ing).strict = true → bitOf x.ing (members16 u vid) = false →
      classified x full vid pcp u = ingressDone x [] false (countG 1 u)) ∧
    ((swAt u x.ing).strict = false ∨ bitOf x.ing (members16 u vid) = true →
      (fdbFind u 3 x.f.src vid x.ing = none → fdbFind u 2 x.f.dst vid x.ing = none →
        classified x full vid pcp u = admitAll (routeFrame u x vid pcp none) full u) ∧
      (∀ e, fdbFind u 3 x.f.src vid x.ing = some e ∨
          (fdbFind u 3 x.f.src vid x.ing = none ∧ fdbFind u 2 x.f.dst vid x.ing = some e) →
        classified x full vid pcp u = streamFrame e.stream (routeFrame u x vid pcp (some e)) full u)) := by
  unfold classified
  refine ⟨fun hs hb => if_pos (by simp [hs, hb]), fun hd => ?_⟩
  have hn : ¬ ((swAt u x.ing).strict && !bitOf x.ing (members16 u vid)) = true := by
    rcases hd with hd | hd <;> simp [hd]
  rw [if_neg hn]
  refine ⟨fun h3 h2 => ?_, fun e he => ?_⟩
  · rw [h3, h2]
  · rcases he with h3 | ⟨h3, h2⟩
    · rw [h3]
    · rw [h3, h2]

theorem basinIngress_effect (full : Bool) (s : State) :
    ∃ t, exec (.basinIngress full) s = .next t ∧ (s.net.toBasin = [] → t = s) ∧
      (∀ x rest u, s.net.toBasin = x :: rest → u = modNet (fun v => { v with toBasin := rest }) s →
        (∀ p q, x.direct = some p → q = 8 * p + fieldOf (3 * (swAt u 12).defPcp) 3 (swAt u p).pcpTc →
          descUsed u < 16384 → qOvf (queueAt u q) = 0 →
          qCells (queueAt u q) + copyCells { fr := x } ≤ (queueAt u q).qMin →
          (queueAt t q).copies = (queueAt s q).copies ++ [{ fr := x }] ∧ t.net.toBasin = rest) ∧
        (x.direct = none → s.net.loaded = false → t = ingressDone x [] false u) ∧
        (∀ vid pcp, x.direct = none → s.net.loaded = true → ingressTag u x.f x.ing = (vid, pcp) →
          ((swAt u x.ing).strict = true → bitOf x.ing (members16 u vid) = false →
            t = ingressDone x [] false (countG 1 u)) ∧
          ((swAt u x.ing).strict = false ∨ bitOf x.ing (members16 u vid) = true →
            (fdbFind u 3 x.f.src vid x.ing = none → fdbFind u 2 x.f.dst vid x.ing = none →
              t = admitAll (routeFrame u x vid pcp none) full u) ∧
            (∀ e, fdbFind u 3 x.f.src vid x.ing = some e ∨
                (fdbFind u 3 x.f.src vid x.ing = none ∧ fdbFind u 2 x.f.dst vid x.ing = some e) →
              t = streamFrame e.stream (routeFrame u x vid pcp (some e)) full u)))) := by
  cases hb : s.net.toBasin with
  | nil =>
    refine ⟨s, ?_, fun _ => rfl, fun _ _ _ hx => absurd hx (List.cons_ne_nil _ _).symm⟩
    change execBasinIngress full s = _
    rw [execBasinIngress, hb]
  | cons y l =>
    refine ⟨_, exec_basinIngress_cons full hb, fun hx => absurd hx (List.cons_ne_nil _ _), fun x rest u hx hu => ?_⟩
    obtain ⟨rfl, rfl⟩ := List.cons.inj hx
    obtain ⟨hdirect, hunloaded, hport⟩ := frameIn_effect y full u
    rw [← hu]
    have hq : ∀ q, queueAt s q = queueAt u q := fun q => by rw [hu]; rfl
    have hrest : u.net.toBasin = l := by rw [hu]; rfl
    have hload : u.net.loaded = s.net.loaded := by rw [hu]; rfl
    refine ⟨fun p q => ?_, fun hd hl => hunloaded hd (hload.trans hl), fun vid pcp hd hl ht => ?_⟩
    · rw [hq q, ← hrest]
      exact hdirect p q
    · rw [hport vid pcp hd (hload.trans hl) ht]
      exact classified_effect y full vid pcp u

/-! Selection, gates and credit (R373-R377). -/

theorem transmissionSelection_effect (p : Nat) (s : State) (h : p < 16) :
    ∃ t, exec (.transmissionSelection p) s = .next t ∧ (p = 12 ∨ (portAt s p).sending.isSome = true → t = s) ∧
      (∀ u, p ≠ 12 → (portAt s p).sending = none →
        u = (List.range 8).foldl (fun s c => ageQueue (8 * p + c) (queueAt s (8 * p + c)).copies.length s) (settle p s) →
        ((List.range 8).reverse.find? (fun c => eligible u p c) = none → t = u) ∧
        (∀ c x r, (List.range 8).reverse.find? (fun c => eligible u p c) = some c →
          (queueAt u (8 * p + c)).copies = x :: r →
          (portAt t p).sending = some (c, x) ∧ (queueAt t (8 * p + c)).copies = r ∧
            others queueAt (8 * p + c) u t ∧ others portAt p u t)) := by
  refine ⟨_, guardUnit_of_ok (decide_eq_true h) _, fun hd => ?_, fun u h12 hs hu => ?_⟩
  · by_cases h12 : p = 12
    · exact if_pos h12
    · rw [if_neg h12]
      exact if_pos (hd.resolve_left h12)
  · rw [if_neg h12, selectTx, if_neg (by simp [hs]), ← hu]
    dsimp only
    refine ⟨fun hn => by rw [hn], fun c x r hc hx => ?_⟩
    simp only [hc, hx]
    refine ⟨?_, ?_, fun j hj => ?_, fun j hj => ?_⟩
    · rw [portAt_modPort_same]
    · exact congrArg Queue.copies (queueAt_modQueue_same (8 * p + c) (fun q => { q with copies := r }) u)
    · exact others_modQueue (8 * p + c) (fun q => { q with copies := r }) u j hj
    · exact others_modPort p _ (modQueue (8 * p + c) (fun q => { q with copies := r }) u) j hj

theorem gateAt_of_offQueues {s t : State} (h : offQueues t.net = offQueues s.net) (j : Nat) :
    gateAt t j = gateAt s j := by
  have hg := congrArg Net.gatesT h
  exact congrArg (tget gate0 · j) hg

theorem gateAt_settle (p j : Nat) (s : State) : gateAt (settle p s) j = gateAt s j :=
  gateAt_of_offQueues (offQueues_settle p s) j

theorem gateIntervalEnd_effect (p : Nat) (s : State) (h : p < 16) :
    ∃ t, exec (.gateIntervalEnd p) s = .next t ∧
      (if (gateAt s p).live.en = true then
        gateAt t p = { gateAt s p with
          idx := if (gateAt s p).idx + 1 < (gateAt s p).live.count then (gateAt s p).idx + 1 else 0,
          since := (s.tide.counter : Int) } ∧ others gateAt p s t
      else t = s) := by
  refine ⟨_, guardUnit_of_ok (decide_eq_true h) _, ?_⟩
  split
  · refine ⟨?_, fun j hj => ?_⟩
    · rw [gateAt_modGate_same, gateAt_settle]
    · rw [gateAt_modGate_ne _ _ _ _ hj.symm, gateAt_settle]
  · rfl

theorem shaperCreditRecovery_effect (p k : Nat) (s : State) (h : p < 16 ∧ k < 8) :
    ∃ t, exec (.shaperCreditRecovery p k) s = .next t ∧ (p = 12 → t = s) ∧
      (p ≠ 12 → t = if (queueAt (settle p s) (8 * p + k)).cbs = true ∧ 0 ≤ (queueAt (settle p s) (8 * p + k)).credit
        then selectTx p (settle p s) else settle p s) := by
  refine ⟨_, guardUnit_of_ok (decide_eq_true h) _, fun h12 => if_pos h12, fun h12 => ?_⟩
  rw [if_neg h12]
  simp only [Bool.and_eq_true, decide_eq_true_eq]

/-! The overflow area (R371, R372). -/

theorem map_fr_fetched {l : List Copy} {i : Nat} (h : i < l.length) :
    (l.set i { elemOr {} l i with ovf := false }).map (·.fr) = l.map (·.fr) := by
  have hs := List.set_getElem_self (as := l.map (·.fr)) (i := i) (by simpa using h)
  simpa [List.map_set, elemOr, h] using hs

theorem fetchBack_effect (q n : Nat) (s : State) :
    (queueAt (fetchBack q n s) q).copies.map (·.fr) = (queueAt s q).copies.map (·.fr) ∧
      others queueAt q s (fetchBack q n s) := by
  induction n generalizing s with
  | zero => exact ⟨rfl, fun _ _ => rfl⟩
  | succ n ih =>
    unfold fetchBack
    extract_lets x
    split
    · exact ⟨rfl, fun _ _ => rfl⟩
    next i hi =>
      extract_lets c
      split
      · obtain ⟨hc, ho⟩ := ih (modQueue q (fun x => { x with copies := x.copies.set i { c with ovf := false } }) s)
        obtain ⟨hlt, -⟩ := List.findIdx?_eq_some_iff_getElem.mp hi
        refine ⟨hc.trans ?_, fun j hj => (ho j hj).trans (others_modQueue q _ s j hj)⟩
        rw [queueAt_modQueue_same]
        exact map_fr_fetched hlt
      · exact ⟨rfl, fun _ _ => rfl⟩

theorem queueAt_ovfReport (s : State) (q : Nat) : queueAt (ovfReport s) q = queueAt s q := by
  unfold ovfReport
  extract_lets n
  split
  · exact queueAt_of_net (emit_net ..) q
  · split
    · exact queueAt_of_net (emit_net ..) q
    · rfl

theorem overflowFetchBack_effect (q : Nat) (s : State) (h : q < 128) :
    ∃ t, exec (.overflowFetchBack q) s = .next t ∧ (ovfReady s = false → t = s) ∧
      (ovfReady s = true → t = ovfReport (fetchBack q (queueAt s q).copies.length s) ∧
        (queueAt t q).copies.map (·.fr) = (queueAt s q).copies.map (·.fr) ∧ others queueAt q s t) := by
  refine ⟨_, guardUnit_of_ok (decide_eq_true h) _, fun hr => if_neg (by simp [hr]), fun hr => ?_⟩
  obtain ⟨hc, ho⟩ := fetchBack_effect q (queueAt s q).copies.length s
  rw [if_pos hr]
  refine ⟨rfl, ?_, fun j hj => ?_⟩
  · rw [queueAt_ovfReport, hc]
  · rw [queueAt_ovfReport, ho j hj]

/-! Streams (R383-R385). -/

theorem streamRecoveryReset_effect (i : Nat) (s : State) (h : i < 256) :
    ∃ t, exec (.streamRecoveryReset i) s = .next t ∧
      (if (streamAt s i).en = true ∧ (streamAt s i).recover = true then (streamAt t i).takeAny = true ∧
        (streamAt t i).next = none ∧ (streamAt t i).held = (streamAt s i).held ∧ others streamAt i s t
      else t = s) := by
  refine ⟨_, guardUnit_of_ok (decide_eq_true h) _, ?_⟩
  simp only [Bool.and_eq_true]
  split
  · rw [streamAt_of_net (emit_net ..), streamAt_countS_same, streamAt_modStream_same]
    refine ⟨rfl, rfl, rfl, fun j hj => ?_⟩
    rw [streamAt_of_net (emit_net ..), streamAt_countS_ne _ _ _ hj, streamAt_modStream_ne _ _ _ _ hj.symm]
  · rfl

theorem resequencerTimeout_effect (i : Nat) (s : State) (h : i < 256) :
    ∃ t, exec (.resequencerTimeout i) s = .next t ∧ ((streamAt s i).held = [] → t = s) ∧
      ((streamAt s i).held ≠ [] → t = releaseAll i false s) :=
  ⟨_, guardUnit_of_ok (decide_eq_true h) _, fun he => if_pos (by simp [he]), fun he => if_neg (by simp [he])⟩

/-- Settles O50: each operation of the Basin by its own effect. -/
theorem workOfTheBasin : Obligations.WorkOfTheBasin :=
  ⟨basinIngress_effect, transmissionSelection_effect, gateIntervalEnd_effect, overflowFetchBack_effect,
    streamRecoveryReset_effect, resequencerTimeout_effect, shaperCreditRecovery_effect⟩

end Sys2Proof.Machine
end

section
/-! Stops on absent units (O6), and reads of the SPI bus (O45). -/
open Sys2Proof
namespace Sys2Proof.Machine

/-! A guard is the only stop of a command (O6). -/

theorem guardUnit_of_not_ok {ok : Bool} (h : ok = false) (s : State) : guardUnit ok s = .fault .noSuchUnit :=
  if_neg (by simp [h])

/-- A command that names a unit the device does not have stops with the fault (log entry 15). -/
theorem exec_fault {i : Instr} (h : i.unitOk = false) (s : State) : exec i s = .fault .noSuchUnit := by
  obtain ⟨t, ht⟩ := exec_guarded i s
  exact ht.trans (guardUnit_of_not_ok h t)

/-- Settles O6: every command is guarded by the units it names, and by nothing else. -/
theorem stopsOnlyOnAbsentUnits : Obligations.StopsOnlyOnAbsentUnits := by
  unfold Obligations.StopsOnlyOnAbsentUnits
  exact fun i s => ⟨fun h => exec_fault h s, fun h => exec_next h s⟩

/-! A READ clocks bytes out, and takes the message out of its queue when it has clocked out the last (R415, R417). -/

/-- What a READ of `n` bytes clocks out while `b` is the message at the head. -/
def clocked (n : Nat) (b : List Byte) : List Byte := (if b.isEmpty = true then List.replicate 16 0 else b).take n

/-- The state in which a READ of `n` bytes has clocked them out. -/
def clockOut (n p : Nat) (s : State) : State :=
  modPq p (fun q => { q with spi := { q.spi with out := clocked n (spiHead s p) } }) s

/-- The state in which the message at the head has left its queue. -/
def dropHead (p : Nat) (s : State) : State :=
  modPq p (fun q => if q.rsp.isEmpty then { q with evt := q.evt.drop 1 }
    else { q with rsp := q.rsp.drop 1, reserved := q.reserved - 1 }) s

theorem exec_spiRead (n : Nat) {p : Nat} {s : State} (hp : spiPound s = some p) (hk : s.pwr.keeper = true) :
    exec (.spiRead n) s = .next (if (spiHead s p).isEmpty = true ∨ n < (spiHead s p).length then clockOut n p s
      else dropHead p (clockOut n p s)) := by
  change execSpiRead n s = _
  rw [execSpiRead, hk, hp]
  rfl

theorem exec_spiStatus {p : Nat} {s : State} (hp : spiPound s = some p) : exec .spiStatus s =
    .next (modPq p (fun q => { q with spi := { q.spi with word := spiWord s p, err := false } }) s) := by
  change execSpiStatus s = _
  rw [execSpiStatus, hp]

theorem pqAt_clockOut (n p : Nat) (s : State) : pqAt (clockOut n p s) p =
    { pqAt s p with spi := { (pqAt s p).spi with out := clocked n (spiHead s p) } } :=
  pqAt_modPq_same ..

/-- Clocking bytes out moves no message. -/
theorem spiHead_clockOut (n p : Nat) (s : State) : spiHead (clockOut n p s) p = spiHead s p := by
  unfold spiHead
  rw [pqAt_clockOut]

theorem pqAt_dropHead_event {p : Nat} {s : State} (h : (pqAt s p).rsp = []) :
    pqAt (dropHead p s) p = { pqAt s p with evt := (pqAt s p).evt.drop 1 } := by
  rw [dropHead, pqAt_modPq_same, if_pos (by simp [h])]

theorem pqAt_dropHead_response {p : Nat} {s : State} (h : (pqAt s p).rsp ≠ []) : pqAt (dropHead p s) p =
    { pqAt s p with rsp := (pqAt s p).rsp.drop 1, reserved := (pqAt s p).reserved - 1 } := by
  rw [dropHead, pqAt_modPq_same, if_neg (by simp [h])]

/-- A message taken out of its queue has been clocked out as it stood. -/
theorem spi_dropHead (p : Nat) (s : State) : (pqAt (dropHead p s) p).spi = (pqAt s p).spi := by
  by_cases h : (pqAt s p).rsp = []
  · rw [pqAt_dropHead_event h]
  · rw [pqAt_dropHead_response h]

/-- Whether or not the message leaves its queue, the bytes clocked out are those of the message at the head. -/
theorem spiRead_out (n : Nat) {p : Nat} {s t : State} (hp : spiPound s = some p) (hk : s.pwr.keeper = true)
    (ht : exec (.spiRead n) s = .next t) : (pqAt t p).spi.out = clocked n (spiHead s p) := by
  rw [exec_spiRead n hp hk] at ht
  injection ht with ht
  subst ht
  split
  · rw [pqAt_clockOut]
  · rw [spi_dropHead, pqAt_clockOut]

theorem spiRead_effect (n p : Nat) (s : State) (hp : spiPound s = some p) (hk : s.pwr.keeper = true) :
    ∃ t, exec (.spiRead n) s = .next t ∧ (pqAt t p).spi.out = clocked n (spiHead s p) ∧
      ((spiHead s p).isEmpty = true ∨ n < (spiHead s p).length →
        (pqAt t p).rsp = (pqAt s p).rsp ∧ (pqAt t p).evt = (pqAt s p).evt ∧ spiHead t p = spiHead s p ∧
        ∀ m, ∃ u, exec (.spiRead m) t = .next u ∧ (pqAt u p).spi.out = clocked m (spiHead s p)) ∧
      ((spiHead s p).isEmpty = false → (spiHead s p).length ≤ n → if (pqAt s p).rsp = []
        then (pqAt t p).rsp = [] ∧ (pqAt t p).evt = (pqAt s p).evt.drop 1
        else (pqAt t p).rsp = (pqAt s p).rsp.drop 1 ∧ (pqAt t p).evt = (pqAt s p).evt) := by
  have ht := exec_spiRead n hp hk
  refine ⟨_, ht, spiRead_out n hp hk ht, fun hshort => ?_, fun hmsg hfull => ?_⟩
  · rw [if_pos hshort, pqAt_clockOut]
    refine ⟨rfl, rfl, spiHead_clockOut n p s, fun m => ?_⟩
    have hp' : spiPound (clockOut n p s) = some p := hp
    have hu := exec_spiRead m hp' hk
    refine ⟨_, hu, ?_⟩
    rw [spiRead_out m hp' hk hu, spiHead_clockOut]
  · have hwhole : ¬((spiHead s p).isEmpty = true ∨ n < (spiHead s p).length) := by
      simp [hmsg, hfull]
    have hrsp : (pqAt (clockOut n p s) p).rsp = (pqAt s p).rsp := by rw [pqAt_clockOut]
    rw [if_neg hwhole]
    split
    case isTrue he =>
      rw [pqAt_dropHead_event (hrsp.trans he), pqAt_clockOut]
      exact ⟨he, rfl⟩
    case isFalse hne =>
      rw [pqAt_dropHead_response (fun h => hne (hrsp.symm.trans h)), pqAt_clockOut]
      exact ⟨rfl, rfl⟩

/-- Settles O45: a READ short of the last byte moves neither queue, so the next one finds the same message
at the head. -/
theorem spiReadTakesAWholeMessage : Obligations.SpiReadTakesAWholeMessage := by
  unfold Obligations.SpiReadTakesAWholeMessage
  refine ⟨spiRead_effect, fun p s hp => ⟨_, exec_spiStatus hp, ?_⟩⟩
  rw [pqAt_modPq_same]
  exact ⟨rfl, rfl, rfl, rfl⟩

end Sys2Proof.Machine
end

section
/-! Commands come in over the rings, Ethernet and SPI (O52). -/
open Sys2Proof
namespace Sys2Proof.Machine

/-! The command ring (R404). -/

theorem exec_commandFetch {e : Nat} (b : List Byte) (s : State) (h : winOk e = true) :
    exec (.commandFetch e b) s = .next (fetch e (fun p t => receive p (slotMessage (if 32 ≤ e
      then memBytes s.mem ((tget ring0 (winAt s e).rings 0).base +
        (tget ring0 (winAt s e).rings 0).head % ringSize (winAt s e) 0 * 4160) 4160
      else b)) t) s) :=
  guardUnit_of_ok h _

theorem commandFetch_effect (e : Nat) (b : List Byte) (s : State) (h : winOk e = true) :
    ∃ t, exec (.commandFetch e b) s = .next t ∧ (poundOfWin s e = none → t = s) ∧
      (∀ p, poundOfWin s e = some p → (canFetch s p e = false → t = s) ∧ (canFetch s p e = true →
        (e < 32 → t = receive p (slotMessage b) (takeSlotAt p e s)) ∧
        (32 ≤ e → t = receive p (slotMessage (memBytes s.mem ((tget ring0 (winAt s e).rings 0).base +
          (tget ring0 (winAt s e).rings 0).head % ringSize (winAt s e) 0 * 4160) 4160)) (takeSlotAt p e s)))) := by
  refine ⟨_, exec_commandFetch b s h, fun hn => fetch_none hn _, fun p hp => ?_⟩
  rw [fetch_some hp]
  refine ⟨fun hc => if_neg (by simp [hc]), fun hc => ?_⟩
  rw [if_pos hc]
  exact ⟨fun he => by rw [if_neg (by omega)], fun he => by rw [if_pos he]⟩

/-! The tail of a descriptor ring (R342, R345, R403). -/

/-- Distance of a new tail from the head of ring `k`: the descriptors the ring would hold. -/
def ahead (s : State) (e k tail : Nat) : Nat := (tail % 65536 + 65536 - (tget ring0 (winAt s e).rings k).head) % 65536

/-- The state in which the tail of ring `k` stands at `tail`. -/
def tailAt (e k tail : Nat) (s : State) : State := modWin e (modRing k (fun g => { g with tail := tail % 65536 })) s

/-- The last `b` descriptors posted taken back, then the first `n` of `l` posted. -/
def repost (n b : Nat) (l : List Desc) (g : HostRing) : HostRing :=
  { g with posted := g.posted.take (g.posted.length - b) ++ l.take n }

/-- A write to the tail of packet ring `r`: `work` is what the ring does with the descriptors it then has. -/
def postTail (e r tail : Nat) (l : List Desc) (work : Nat → State → State) (s : State) : State :=
  if !winLive s e then s else
  match tailWrite e (blockOf r) tail s with
  | (none, s) => s
  | (some (n, b), s) => match poundOfWin s e with
    | none => s
    | some p => if ringOn s p r then work p (modHring (ringKey p r) (repost n b l) s) else s

theorem exec_receiveRingPost {e r : Nat} (tail : Nat) (l : List Desc) (s : State) (h : e < 64 ∧ r < 4) :
    exec (.receiveRingPost e r tail l) s = .next (postTail e r tail l (fun p => drainQueue p r) s) :=
  guardUnit_of_ok (decide_eq_true h) _

theorem exec_transmitRingDoorbell {e r : Nat} (tail : Nat) (l : List Desc) (s : State) (h : e < 64 ∧ 4 ≤ r ∧ r < 8) :
    exec (.transmitRingDoorbell e r tail l) s = .next (postTail e r tail l (fun _ u => u) s) :=
  guardUnit_of_ok (decide_eq_true h) _

theorem tailWrite_refused {e k tail : Nat} {s : State} (h : ringSize (winAt s e) k < ahead s e k tail) :
    tailWrite e k tail s = (none, winError e 1 k s) :=
  if_pos h

theorem tailWrite_taken {e k tail : Nat} {s : State} (h : ahead s e k tail ≤ ringSize (winAt s e) k) :
    tailWrite e k tail s = (some (ahead s e k tail - used (tget ring0 (winAt s e).rings k),
      used (tget ring0 (winAt s e).rings k) - ahead s e k tail), tailAt e k tail s) :=
  if_neg (Nat.not_lt.mpr h)

theorem postTail_dead {e : Nat} {s : State} (h : winLive s e = false) (r tail : Nat) (l : List Desc)
    (work : Nat → State → State) : postTail e r tail l work s = s :=
  if_pos (by simp [h])

theorem postTail_refused {e r tail : Nat} {s : State} (hl : winLive s e = true)
    (h : ringSize (winAt s e) (3 + r) < ahead s e (3 + r) tail) (l : List Desc) (work : Nat → State → State) :
    postTail e r tail l work s = winError e 1 (3 + r) s := by
  rw [postTail, if_neg (by simp [hl]), blockOf, tailWrite_refused h]

/-- A tail that the ring can hold is taken, and the descriptors pass to the ring where it is on. -/
theorem postTail_taken {e r tail : Nat} {s : State} (hl : winLive s e = true)
    (h : ahead s e (3 + r) tail ≤ ringSize (winAt s e) (3 + r)) (l : List Desc) (work : Nat → State → State) :
    postTail e r tail l work s = match poundOfWin s e with
      | none => tailAt e (3 + r) tail s
      | some p => if ringOn s p r then work p (modHring (ringKey p r)
          (repost (ahead s e (3 + r) tail - used (tget ring0 (winAt s e).rings (3 + r)))
            (used (tget ring0 (winAt s e).rings (3 + r)) - ahead s e (3 + r) tail) l) (tailAt e (3 + r) tail s))
        else tailAt e (3 + r) tail s := by
  rw [postTail, if_neg (by simp [hl]), blockOf, tailWrite_taken h]
  rfl

theorem postTail_effect (e r tail : Nat) (l : List Desc) (work : Nat → State → State) {s t : State}
    (ht : t = postTail e r tail l work s) :
    (winLive s e = false → t = s) ∧ (winLive s e = true →
      (ringSize (winAt s e) (3 + r) < ahead s e (3 + r) tail → t = winError e 1 (3 + r) s) ∧
      (∀ n b u, ahead s e (3 + r) tail ≤ ringSize (winAt s e) (3 + r) →
        n = ahead s e (3 + r) tail - used (tget ring0 (winAt s e).rings (3 + r)) →
        b = used (tget ring0 (winAt s e).rings (3 + r)) - ahead s e (3 + r) tail → u = tailAt e (3 + r) tail s →
        (poundOfWin s e = none → t = u) ∧ (∀ p, poundOfWin s e = some p → (ringOn s p r = false → t = u) ∧
          (ringOn s p r = true → t = work p (modHring (ringKey p r) (repost n b l) u))))) := by
  subst ht
  refine ⟨fun hl => postTail_dead hl r tail l work, fun hl => ⟨fun h => postTail_refused hl h l work, ?_⟩⟩
  rintro n b u h rfl rfl rfl
  rw [postTail_taken hl h]
  refine ⟨fun hn => by rw [hn], fun p hp => ?_⟩
  rw [hp]
  exact ⟨fun hr => if_neg (by simp [hr]), fun hr => if_pos hr⟩

/-- A ring that only holds its descriptors: what is posted, and no other ring changes. -/
theorem repost_effect (i n b : Nat) (l : List Desc) {s u t : State} (hu : u.net = s.net)
    (ht : t = modHring i (repost n b l) u) :
    (hringAt t i).posted = (hringAt s i).posted.take ((hringAt s i).posted.length - b) ++ l.take n ∧
      others hringAt i s t := by
  have hs : ∀ j, hringAt u j = hringAt s j := fun j => congrArg (fun v : Net => tget hostRing0 v.rings j) hu
  subst ht
  rw [hringAt_modHring_same, hs]
  exact ⟨rfl, fun j hj => (others_modHring i _ u j hj).trans (hs j)⟩

/-! A message whose header does not check (R398). -/

theorem desyncResponse_effect (p : Nat) (b : List Byte) (s : State) (h : p < 32) :
    ∃ t, exec (.desyncResponse p b) s = .next t ∧
      (s.fv.fw = false ∨ s.img.shut = true ∨ (poundAt s p).state ≠ .running ∨ (hcrcOk b = true ∧ 16 ≤ b.length) →
        t = s) ∧
      (s.fv.fw = true → s.img.shut = false → (poundAt s p).state = .running → hcrcOk b = false ∨ b.length < 16 →
        t = receive p b s) := by
  refine ⟨_, guardUnit_of_ok (decide_eq_true h) _, fun hno => if_pos ?_, fun hfw hshut hrun hbad => if_neg ?_⟩
  · rcases hno with hfw | hshut | hrun | ⟨hcrc, hlen⟩
    · simp [hfw]
    · simp [hshut]
    · simp [hrun]
    · simp [hcrc, hlen]
  · rcases hbad with hcrc | hlen
    · simp [hfw, hshut, hrun, hcrc]
    · simp [hfw, hshut, hrun, hlen]

/-! Ethernet (R410, R412). -/

theorem ethTransportDatagram_effect (s : State) : ∃ t, exec .ethTransportDatagram s = .next t ∧
    (s.fv.fw = false ∨ s.img.shut = true ∨ s.net.keeperRx = [] → t = s) ∧
    (∀ x r u, s.fv.fw = true → s.img.shut = false → s.net.keeperRx = x :: r →
      u = modNet (fun v => { v with keeperRx := r }) s →
      (datagramOf u x.f = none → t = u) ∧ (∀ d b, datagramOf u x.f = some (d, b) → t = datagram d b u)) := by
  refine ⟨_, rfl, ?_, ?_⟩
  · rintro (hfw | hshut | hrx)
    · exact if_pos (by simp [hfw])
    · exact if_pos (by simp [hshut])
    · simp only [hrx, ite_self]
  · rintro x r u hfw hshut hrx rfl
    rw [if_neg (by simp [hfw, hshut]), hrx]
    exact ⟨fun hd => by simp only [hd], fun d b hd => by simp only [hd]⟩

theorem segmentTimeout_effect (p : Nat) (s : State) (h : p < 32) : ∃ t, exec (.segmentTimeout p) s = .next t ∧
    ((pqAt s p).reasm = none → t = s) ∧ (∀ a, (pqAt s p).reasm = some a → t = truncated p a.bytes
      (modPq p (fun q => { q with reasm := none, asked := q.asked ++ [(leAt a.bytes 4 2, a.src)] }) s)) :=
  ⟨_, guardUnit_of_ok (decide_eq_true h) _, fun hn => by rw [hn], fun a ha => by rw [ha]⟩

/-! A WRITE on the SPI bus (R415, R416, R418). -/

/-- A WRITE holds one of the slots that are answered. -/
def slotTaken (p : Nat) (s : State) : State := modPq p (fun q => { q with reserved := q.reserved + 1 }) s

theorem hcrcOk_of_short {b : List Byte} (h : b.length < 16) : hcrcOk b = false := by
  simp [hcrcOk, h]

theorem spiWrite_closed (p : Nat) (b : List Byte) {s : State}
    (h : (poundAt s p).state ≠ .running ∨ s.fv.fw = false ∨ s.img.shut = true) : spiWrite p b s = s := by
  refine if_pos ?_
  rcases h with h | h | h <;> simp [h]

section
variable {p : Nat} {s : State} (hrun : (poundAt s p).state = .running) (hfw : s.fv.fw = true)
  (hshut : s.img.shut = false)
include hrun hfw hshut

theorem spiWrite_headerShort {b : List Byte} (h : b.length < 16) :
    spiWrite p b s = spiErr p (truncated p b (slotTaken p s)) := by
  unfold spiWrite
  dsimp only
  rw [if_neg (by simp [hrun, hfw, hshut]), hcrcOk_of_short h, if_neg (by simp), if_pos h]
  rfl

theorem spiWrite_distrusted {b : List Byte} (h : 16 ≤ b.length) (hc : hcrcOk b = false) :
    spiWrite p b s = spiErr p (receive p b (slotTaken p s)) := by
  unfold spiWrite
  dsimp only
  rw [if_neg (by simp [hrun, hfw, hshut]), hc, if_neg (by simp), if_neg (by omega)]
  rfl

theorem spiWrite_bodyShort {b : List Byte} (hc : hcrcOk b = true) (hn : leAt b 6 2 ≤ 4080)
    (hb : b.length < 20 + leAt b 6 2) : spiWrite p b s = spiErr p (truncated p b (slotTaken p s)) := by
  unfold spiWrite
  dsimp only
  rw [if_neg (by simp [hrun, hfw, hshut]), if_pos (by simp [hc, hn, hb])]
  rfl

theorem spiWrite_whole {b : List Byte} (h : 16 ≤ b.length) (hc : hcrcOk b = true)
    (hw : 4080 < leAt b 6 2 ∨ 20 + leAt b 6 2 ≤ b.length) : spiWrite p b s =
      if spiReady s p = false then reject p .eBusy (slotMessage b) (bumpPq p 6 (pend p (slotTaken p s)))
      else receive p (slotMessage b)
        (if (headerCheck (slotMessage b)).isSome then spiErr p (slotTaken p s) else slotTaken p s) := by
  have hwhole : (decide (4080 < leAt b 6 2) || decide (20 + leAt b 6 2 ≤ b.length)) = true := by simpa using hw
  unfold spiWrite
  dsimp only
  rw [if_neg (by simp [hrun, hfw, hshut]), hwhole, hc, if_neg (by simp [h]), if_neg (by omega), if_neg (by simp)]
  cases spiReady s p <;> rfl

end

theorem spiWrite_effect (b : List Byte) {s t : State}
    (ht : t = match spiPound s with | some p => spiWrite p b s | none => s) :
    (spiPound s = none → t = s) ∧ (∀ p, spiPound s = some p →
      ((poundAt s p).state ≠ .running ∨ s.fv.fw = false ∨ s.img.shut = true → t = s) ∧
      (∀ u, (poundAt s p).state = .running → s.fv.fw = true → s.img.shut = false → u = slotTaken p s →
        (b.length < 16 → t = spiErr p (truncated p b u)) ∧
        (16 ≤ b.length → hcrcOk b = false → t = spiErr p (receive p b u)) ∧
        (16 ≤ b.length → hcrcOk b = true → leAt b 6 2 ≤ 4080 → b.length < 20 + leAt b 6 2 →
          t = spiErr p (truncated p b u)) ∧
        (16 ≤ b.length → hcrcOk b = true → 4080 < leAt b 6 2 ∨ 20 + leAt b 6 2 ≤ b.length →
          t = if spiReady s p = false then reject p .eBusy (slotMessage b) (bumpPq p 6 (pend p u))
            else receive p (slotMessage b) (if (headerCheck (slotMessage b)).isSome then spiErr p u else u)))) := by
  subst ht
  refine ⟨fun hn => by rw [hn], fun p hp => ?_⟩
  rw [hp]
  refine ⟨spiWrite_closed p b, ?_⟩
  rintro u hrun hfw hshut rfl
  exact ⟨spiWrite_headerShort hrun hfw hshut, spiWrite_distrusted hrun hfw hshut,
    fun _ hc hn hb => spiWrite_bodyShort hrun hfw hshut hc hn hb, spiWrite_whole hrun hfw hshut⟩

theorem spiUnknownInstruction_effect (s : State) : ∃ t, exec .spiUnknownInstruction s = .next t ∧
    (s.pwr.keeper = false ∨ spiPound s = none → t = s) ∧ (∀ p, s.pwr.keeper = true → spiPound s = some p →
      t = spiErr p (bumpPq p 5 s) ∧ (pqAt t p).spi.err = true) := by
  refine ⟨_, rfl, ?_, fun p hk hp => ?_⟩
  · rintro (hk | hp)
    · rw [hk]
      rfl
    · rw [hp, ite_self]
  · rw [hk, hp]
    exact ⟨rfl, congrArg (·.spi.err) (pqAt_modPq_same p _ (bumpPq p 5 s))⟩

/-- Settles O52: the ways in by what each makes of the bytes that came, and the tails of the two kinds of packet ring by
the one write they share. -/
theorem commandsComeInOverEveryTransport : Obligations.CommandsComeInOverEveryTransport := by
  unfold Obligations.CommandsComeInOverEveryTransport
  refine ⟨commandFetch_effect,
    fun e r tail l s h => ⟨_, exec_receiveRingPost tail l s h, postTail_effect e r tail l _ rfl⟩,
    fun e r tail l s h => ⟨_, exec_transmitRingDoorbell tail l s h, ?_⟩, desyncResponse_effect,
    ethTransportDatagram_effect, segmentTimeout_effect, fun b s => ⟨_, rfl, spiWrite_effect b rfl⟩,
    fun b s => ⟨_, rfl, spiWrite_effect b rfl⟩, spiUnknownInstruction_effect⟩
  obtain ⟨hdead, hlive⟩ := postTail_effect e r tail l (fun _ u => u) (s := s) rfl
  refine ⟨hdead, fun hl => ?_⟩
  obtain ⟨hrefused, htaken⟩ := hlive hl
  refine ⟨hrefused, fun n b u hroom hn hb hu => ?_⟩
  obtain ⟨hnone, hsome⟩ := htaken n b u hroom hn hb hu
  refine ⟨hnone, fun p hp => ?_⟩
  obtain ⟨hoff, hon⟩ := hsome p hp
  refine ⟨hoff, fun hr => ⟨hon hr, repost_effect (ringKey p r) n b l ?_ (hon hr)⟩⟩
  rw [hu]
  rfl

end Sys2Proof.Machine
end

section
/-! Requests that read, subscribe and list, the windows of the events, and the ends of a pound's reset and removal
(O53). -/
open Sys2Proof
namespace Sys2Proof.Machine

/-- A request that reaches its object is counted and given to its verb. -/
theorem serve_heard {k : ClassSpec} {verb : Nat} {r : Req} {s : State} (h : Heard k verb r s) (body : State → State) :
    serve k verb r body s = body (received r.pound s) := by
  obtain ⟨hfw, hshut, hruns, hhere, hgate⟩ := h
  rw [serve, if_neg (by simp [hfw, hshut]), hruns, hgate]
  exact if_neg (by simp [hhere])

theorem runFaval_heard {cls verb : Nat} {r : Req} {s : State} (h : Heard (classOf cls) verb r s) :
    runFaval cls verb r s = verbBody (classOf cls) verb r (received r.pound s) :=
  serve_heard h _

/-! What the reception, the acceptance and the answer leave alone. -/

theorem subs_of_core {s t : State} (h : t.fv.core = s.fv.core) : t.fv.subs = s.fv.subs :=
  (congrArg Fv.subs h :)

theorem subs_received (p : Nat) (s : State) : (received p s).fv.subs = s.fv.subs := subs_of_core (received_fv_fv p s)

theorem subs_accepted (p : Nat) (s : State) : (accepted p s).fv.subs = s.fv.subs := subs_of_core (accepted_fv_fv p s)

theorem tinAt_of_tide {s t : State} (h : t.tide = s.tide) (i : Nat) : tinAt t i = tinAt s i := by
  rw [tinAt, h, tinAt]

theorem tinAt_taken (r : Req) (s : State) (i : Nat) : tinAt (taken r s) i = tinAt s i :=
  tinAt_of_tide ((accepted_tide _ _).trans (received_tide _ _)) i

/-! GET (R424), and the pulse inputs (R92). -/

theorem doGet_bytes {k : ClassSpec} {r : Req} {s : State} {bs : List Byte} (h : getBytes k r s = .ok bs) :
    doGet k r s = k.onRead r.inst (leAt r.payload 0 1) (leAt r.payload 2 2) bs.length
      (answer k.code 1 r .ok none bs (accepted r.pound s)) := by
  rw [doGet, h]

theorem doGet_refused {k : ClassSpec} {r : Req} {s : State} {st : Status} (h : getBytes k r s = .error st) :
    doGet k r s = answer k.code 1 r st none [] s := by
  rw [doGet, h]

/-- A pulse input after a GET of its part `part`: reading part 0 empties its FIFO. -/
def tinRead (part : Nat) (x : TIn) : TIn := if part = 0 then { x with fifo := [], reported := false } else x

theorem tideInRead_bytes {r : Req} {s : State} {bs : List Byte} (h : getBytes timeClass r s = .ok bs) :
    tideInRead r s = answer 0x03 1 r .ok none bs
      (modTin (r.inst - 0x20) (tinRead (leAt r.payload 0 1)) (accepted r.pound s)) := by
  rw [tideInRead, h]
  rfl

theorem tideInRead_refused {r : Req} {s : State} {st : Status} (h : getBytes timeClass r s = .error st) :
    tideInRead r s = answer 0x03 1 r st none [] s := by
  rw [tideInRead, h]

theorem tideInRead_effect (r : Req) (s : State) (h : Heard timeClass 1 r s) : ∃ t, exec (.tideInRead r) s = .next t ∧
    (rng 0x20 0x21 r.inst = true →
      (∀ bs, getBytes timeClass r (received r.pound s) = .ok bs →
        t = answer 0x03 1 r .ok none bs
          (modTin (r.inst - 0x20) (tinRead (leAt r.payload 0 1)) (accepted r.pound (received r.pound s))) ∧
        tinAt t (r.inst - 0x20) = tinRead (leAt r.payload 0 1) (tinAt s (r.inst - 0x20))) ∧
      (∀ st, getBytes timeClass r (received r.pound s) = .error st →
        t = answer 0x03 1 r st none [] (received r.pound s))) ∧
    (rng 0x20 0x21 r.inst = false → t = doGet timeClass r (received r.pound s)) := by
  refine ⟨_, rfl, fun hin => ?_, fun hout => ?_⟩
  · rw [serve_heard h, timeGetBody, if_pos hin]
    refine ⟨fun bs hbs => ⟨tideInRead_bytes hbs, ?_⟩, fun st hst => tideInRead_refused hst⟩
    rw [tideInRead_bytes hbs, tinAt_of_tide (answer_tide ..), tinAt_modTin_same, ← taken, tinAt_taken]
  · rw [serve_heard h, timeGetBody, if_neg (by simp [hout])]

theorem favalGet_effect (cls : Nat) (r : Req) (s : State) (h : Heard (classOf cls) 1 r s) :
    ∃ t, exec (.favalGet cls r) s = .next t ∧
      ((classOf cls).code ≠ 0x03 →
        (∀ bs, getBytes (classOf cls) r (received r.pound s) = .ok bs →
          t = (classOf cls).onRead r.inst (leAt r.payload 0 1) (leAt r.payload 2 2) bs.length
            (answer (classOf cls).code 1 r .ok none bs (accepted r.pound (received r.pound s)))) ∧
        (∀ st, getBytes (classOf cls) r (received r.pound s) = .error st →
          t = answer (classOf cls).code 1 r st none [] (received r.pound s))) ∧
      ((classOf cls).code = 0x03 → t = timeGetBody r (received r.pound s)) := by
  refine ⟨_, rfl, fun hc => ?_, fun hc => ?_⟩
  · have hget : runFaval cls 1 r s = doGet (classOf cls) r (received r.pound s) := (runFaval_heard h).trans (if_neg hc)
    rw [hget]
    exact ⟨fun bs hbs => doGet_bytes hbs, fun st hst => doGet_refused hst⟩
  · exact (runFaval_heard h).trans (if_pos hc)

/-! SUB to events and to telemetry (R157, R428). -/

/-- The subscription that a SUB adds. -/
def asksFor (k : ClassSpec) (r : Req) (s : State) : Sub :=
  { id := newSub s, pound := r.pound, first := r.tow * 2 ^ 26 + k.code * 2 ^ 18 + r.inst
    count := (subAsked k r).1, mask := (subAsked k r).2 }

theorem subs_addSub (k : ClassSpec) (r : Req) (s : State) :
    (addSub k r s).2.fv.subs = s.fv.subs ++ [asksFor k r s] := rfl

theorem doSub_effect {k : ClassSpec} {r : Req} {s t : State} (ht : t = doSub k r (received r.pound s)) :
    (orLate k 4 r (received r.pound s) (subStatus k r (received r.pound s)) = .ok →
      t = answer k.code 4 r .ok none (leBytes 2 (newSub (received r.pound s)))
        (accepted r.pound (addSub k r (received r.pound s)).2) ∧
      t.fv.subs = s.fv.subs ++ [asksFor k r (received r.pound s)]) ∧
    (∀ st, orLate k 4 r (received r.pound s) (subStatus k r (received r.pound s)) = st → st ≠ .ok →
      t = answer k.code 4 r st none [] (received r.pound s) ∧ t.fv.subs = s.fv.subs) := by
  subst ht
  refine ⟨fun hok => ?_, fun st hst hne => ?_⟩
  · have hd : doSub k r (received r.pound s) = answer k.code 4 r .ok none (leBytes 2 (newSub (received r.pound s)))
        (accepted r.pound (addSub k r (received r.pound s)).2) := by
      rw [doSub, hok]
      rfl
    rw [hd, subs_answer, subs_accepted, subs_addSub, subs_received]
    exact ⟨rfl, rfl⟩
  · have hd : doSub k r (received r.pound s) = answer k.code 4 r st none [] (received r.pound s) := by
      rw [doSub, hst]
      cases st
      case ok => exact absurd rfl hne
      all_goals rfl
    rw [hd, subs_answer, subs_received]
    exact ⟨rfl, rfl⟩

theorem favalSub_effect (cls : Nat) (r : Req) (s : State) (h : Heard (classOf cls) 4 r s) :
    ∃ t, exec (.favalSub cls r) s = .next t ∧
      ((classOf cls).code ≠ 0x11 → t = doSub (classOf cls) r (received r.pound s)) ∧
      ((classOf cls).code = 0x11 → t = wireSubBody r (received r.pound s)) :=
  ⟨_, rfl, fun hc => (runFaval_heard h).trans (if_neg hc), fun hc => (runFaval_heard h).trans (if_pos hc)⟩

/-- The telemetry that a SUB asks for. -/
def teleAsked (r : Req) (s : State) : TeleSub :=
  { id := newSub s, pound := r.pound, kind := leAt r.payload 0 1, mask := leAt r.payload 8 10
    every := leAt r.payload 2 2, offset := leAt r.payload 4 2 }

/-- A telemetry SUB adds what it asks for, or nothing. -/
theorem teleSub_subs (r : Req) (s : State) :
    (teleSub r s).slu.subs = s.slu.subs ∨ (teleSub r s).slu.subs = s.slu.subs ++ [teleAsked r s] := by
  unfold teleSub
  dsimp only
  split
  · right
    rw [answer_slu, accepted_slu]
    rfl
  · left
    rw [answer_slu]

theorem wireSub_effect (r : Req) (s : State) (h : Heard wireClass 4 r s) : ∃ t, exec (.wireSub r) s = .next t ∧
    (r.inst ≠ 0x300 → t = doSub wireClass r (received r.pound s)) ∧
    (r.inst = 0x300 → t = teleSub r (received r.pound s) ∧ (t.slu.subs = s.slu.subs ∨
      ∃ x, t.slu.subs = s.slu.subs ++ [x] ∧ x.pound = r.pound ∧ x.kind = leAt r.payload 0 1 ∧
        x.every = leAt r.payload 2 2 ∧ x.offset = leAt r.payload 4 2 ∧ x.mask = leAt r.payload 8 10)) := by
  refine ⟨_, rfl, fun hi => (serve_heard h _).trans (if_neg hi), fun hi => ?_⟩
  have ht : serve wireClass 4 r (wireSubBody r) s = teleSub r (received r.pound s) :=
    (serve_heard h _).trans (if_pos hi)
  have hsubs := teleSub_subs r (received r.pound s)
  rw [received_slu] at hsubs
  rw [ht]
  exact ⟨rfl, hsubs.imp id fun he => ⟨teleAsked r (received r.pound s), he, rfl, rfl, rfl, rfl, rfl⟩⟩

/-! UNSUB (R429). -/

/-- The request names subscription number `id`, and may end it as one of pound `p`. -/
def endsSub (r : Req) (id p : Nat) : Bool := decide (id = leAt r.payload 0 2) && decide (p = r.pound ∨ r.pound = 0)

section
variable {k : ClassSpec} {r : Req} {s : State} (hz : leAt r.payload 2 2 = 0) (hl : late k 5 r s = .ok)
include hz hl

theorem unsubBody_event {b : Sub} (hb : s.fv.subs.find? (fun b => endsSub r b.id b.pound) = some b)
    (hr : b.remote = none) : unsubBody k r s = answer k.code 5 r .ok none []
      (accepted r.pound (modFv (fun v => { v with subs := v.subs.erase b }) s)) := by
  unfold endsSub at hb
  unfold unsubBody
  dsimp only
  rw [if_neg (by simp [hz]), if_neg (by simp [hl]), hb]
  dsimp only
  rw [hr]

theorem unsubBody_noEvent (hb : s.fv.subs.find? (fun b => endsSub r b.id b.pound) = none) :
    unsubBody k r s = match s.slu.subs.find? (fun b => endsSub r b.id b.pound) with
      | some b =>
        answer k.code 5 r .ok none [] (accepted r.pound (modSlu (fun v => { v with subs := v.subs.erase b }) s))
      | none => answer k.code 5 r .eRange none [] s := by
  unfold endsSub at hb
  unfold unsubBody
  dsimp only
  rw [if_neg (by simp [hz]), if_neg (by simp [hl]), hb]
  rfl

end

theorem favalUnsub_effect (cls : Nat) (r : Req) (s : State) (h : Heard (classOf cls) 5 r s) :
    ∃ t, exec (.favalUnsub cls r) s = .next t ∧
      (∀ u, u = received r.pound s → leAt r.payload 2 2 = 0 → late (classOf cls) 5 r u = .ok →
        (∀ b, u.fv.subs.find? (fun b => endsSub r b.id b.pound) = some b → b.remote = none →
          t = answer (classOf cls).code 5 r .ok none []
            (accepted r.pound (modFv (fun v => { v with subs := v.subs.erase b }) u)) ∧
          t.fv.subs = s.fv.subs.erase b) ∧
        (u.fv.subs.find? (fun b => endsSub r b.id b.pound) = none →
          (∀ b, u.slu.subs.find? (fun b => endsSub r b.id b.pound) = some b →
            t.fv.subs = s.fv.subs ∧ t.slu.subs = s.slu.subs.erase b) ∧
          (u.slu.subs.find? (fun b => endsSub r b.id b.pound) = none →
            t = answer (classOf cls).code 5 r .eRange none [] u))) := by
  have he : exec (.favalUnsub cls r) s = .next (unsubBody (classOf cls) r (received r.pound s)) :=
    congrArg Host.Outcome.next (runFaval_heard h)
  refine ⟨_, he, ?_⟩
  rintro u rfl hz hl
  refine ⟨fun b hb hr => ?_, fun hnone => ?_⟩
  · rw [unsubBody_event hz hl hb hr]
    refine ⟨rfl, ?_⟩
    rw [subs_answer, subs_accepted, modFv, subs_received]
  · rw [unsubBody_noEvent hz hl hnone]
    refine ⟨fun b hb => ?_, fun hn => ?_⟩
    · rw [hb]
      dsimp only
      rw [subs_answer, subs_accepted, answer_slu, accepted_slu, modSlu, subs_received, received_slu]
      exact ⟨rfl, rfl⟩
    · rw [hn]

/-! LIST (R430). -/

/-- The objects of a class from `first` on that exist and that the pound may use. -/
def listed (k : ClassSpec) (r : Req) (first : Nat) (s : State) : List Nat :=
  k.all.filter (fun i => decide (first ≤ i) && k.there s i && holds s r.pound (r.tow * 2 ^ 26 + k.code * 2 ^ 18 + i))

/-- The answer to a LIST of at most `max` of the objects `l`. -/
def listBytes (k : ClassSpec) (r : Req) (max : Nat) (l : List Nat) : List Byte :=
  leBytes 2 (l.take max).length ++ leBytes 2 (b2n (decide (max < l.length))) ++
    (l.take max).flatMap (fun i => leBytes 4 (r.tow * 2 ^ 26 + k.code * 2 ^ 18 + i))

theorem doList_refused {k : ClassSpec} {r : Req} (h : 2 ^ 18 ≤ leAt r.payload 0 4 ∨ leAt r.payload 4 2 = 0 ∨
    1019 < leAt r.payload 4 2 ∨ leAt r.payload 6 2 ≠ 0) (s : State) :
    doList k r s = answer k.code 6 r .eRange none [] s :=
  if_pos h

theorem doList_listed {k : ClassSpec} {r : Req} {s : State} (h : ¬(2 ^ 18 ≤ leAt r.payload 0 4 ∨
    leAt r.payload 4 2 = 0 ∨ 1019 < leAt r.payload 4 2 ∨ leAt r.payload 6 2 ≠ 0)) (hl : late k 6 r s = .ok) : doList k r s =
      answer k.code 6 r .ok none (listBytes k r (leAt r.payload 4 2) (listed k r (leAt r.payload 0 4) s))
        (accepted r.pound s) := by
  have hlate : ¬ late k 6 r s ≠ .ok := not_not_intro hl
  exact (if_neg h).trans (if_neg hlate)

theorem favalList_effect (cls : Nat) (r : Req) (s : State) (h : Heard (classOf cls) 6 r s) :
    ∃ t, exec (.favalList cls r) s = .next t ∧
      (∀ u l first max, u = received r.pound s → first = leAt r.payload 0 4 → max = leAt r.payload 4 2 →
        l = listed (classOf cls) r first u →
        (2 ^ 18 ≤ first ∨ max = 0 ∨ 1019 < max ∨ leAt r.payload 6 2 ≠ 0 →
          t = answer (classOf cls).code 6 r .eRange none [] u) ∧
        (first < 2 ^ 18 → 0 < max → max ≤ 1019 → leAt r.payload 6 2 = 0 → late (classOf cls) 6 r u = .ok →
          t = answer (classOf cls).code 6 r .ok none (listBytes (classOf cls) r max l) (accepted r.pound u))) := by
  have he : exec (.favalList cls r) s = .next (doList (classOf cls) r (received r.pound s)) :=
    congrArg Host.Outcome.next (runFaval_heard h)
  refine ⟨_, he, ?_⟩
  rintro u l first max rfl rfl rfl rfl
  exact ⟨fun hbad => doList_refused hbad _, fun hf h0 hm hz hl => doList_listed (by omega) hl⟩

/-! The windows of the events (R442, R452). -/

theorem suppressionWindowClose_effect (p code handle : Nat) (s : State) (h : p < 32) :
    ∃ t, exec (.suppressionWindowClose p code handle) s = .next t ∧
      (s.fv.rateWins.find? (fun w => decide (w.pound = p ∧ w.code = code ∧ w.handle = handle)) = none → t = s) ∧
      (∀ w l, s.fv.rateWins.find? (fun w => decide (w.pound = p ∧ w.code = code ∧ w.handle = handle)) = some w →
        l = s.fv.rateWins.filter (fun x => decide (¬(x.pound = w.pound ∧ x.code = w.code ∧ x.handle = w.handle))) →
        (w.last = none → t = modFv (fun v => { v with rateWins := l }) s) ∧
        (∀ e, w.last = some e → t = place w.pound { e with supp := sat 16 (w.withheld - 1) }
          (modFv (fun v => { v with rateWins := l ++ [{ pound := w.pound, code := w.code, handle := w.handle }] }) s))) := by
  refine ⟨_, guardUnit_of_ok (decide_eq_true h) _, fun hn => by rw [hn], ?_⟩
  rintro w l hw rfl
  rw [hw]
  dsimp only [closeWin]
  exact ⟨fun hn => by rw [hn], fun e he => by rw [he]⟩

/-- The count of a pound's events begins anew. -/
def resetRate (s : State) (p : Nat) : State := modPq p (fun q => { q with rateCount := 0 }) s

theorem pqAt_resetRate_ne (s : State) (p j : Nat) (h : j ≠ p) : pqAt (resetRate s p) j = pqAt s j :=
  pqAt_modPq_ne p j _ s h.symm

theorem eventRateWindow_effect (s : State) : ∃ t, exec .eventRateWindow s = .next t ∧
    (∀ p, p < 32 → pqAt t p = { pqAt s p with rateCount := 0 }) ∧ (∀ p, 32 ≤ p → pqAt t p = pqAt s p) := by
  have he : exec .eventRateWindow s = .next ((List.range 32).foldl resetRate s) := rfl
  refine ⟨_, he, fun p hp => ?_, fun p hp => foldl_at_out pqAt_resetRate_ne _ p (by simpa using hp) s⟩
  obtain ⟨u, hu, ht⟩ := foldl_at pqAt_resetRate_ne (List.range 32) List.nodup_range p (List.mem_range.mpr hp) s
  rw [ht, resetRate, pqAt_modPq_same, hu]

/-! The end of a pound's reset (R457) and of its removal (R458). -/

/-- The state in which a completed reset leaves pound `p`. -/
def stateAfterReset (p : Nat) (s : State) : PoundState :=
  if (pqAt s p).removing then .stopped
  else if (poundAt s p).kind = 2 ∨ (poundAt s p).kind = 3 then .running else .stopped

/-- What a reset makes of pound `p` once its queues, subscriptions, claims and frames are gone. -/
def afterReset (p : Nat) (s : State) : State :=
  let u := modPound p (fun r => { r with state := stateAfterReset p s }) s
  if (pqAt u p).removing then modPq p (fun q => { q with purgeDue := true }) u else u

theorem dropSends_core (p c : Nat) (s : State) : (dropSends p c s).fv.core = s.fv.core :=
  same_of_blank (dropSends_frame (fun r => decide (r ≠ .fv)) rfl rfl p c s) .fv rfl

theorem abandonLh_core (p : Nat) (s : State) : (abandonLh p s).fv.core = s.fv.core :=
  same_of_blank (abandonLh_frame (fun r => decide (r ≠ .fv)) rfl rfl rfl rfl p s) .fv rfl

/-- Before the pound's state changes, a reset that completes has ended the pound's subscriptions and emptied its queue
at the host port; of the rest of Faval it has moved only what delivery moves. -/
theorem completeReset_eq (p : Nat) (s : State) : ∃ u, completeReset p s = afterReset p u ∧
    u.fv.core = { s.fv.core with subs := s.fv.subs.filter (fun b => decide (b.pound ≠ p)) } ∧ hostqAt u p = [] := by
  refine ⟨_, rfl, ?_, hostqAt_modHostq_same ..⟩
  rw [modHostq, modNet_fv, clearSnap, modTide_fv, abandonLh_core,
    foldl_keep (keep := fun s => s.fv.core) (fun u c => dropSends_core p c u),
    foldl_keep (keep := fun s => s.fv.core)]
  · split <;> rfl
  · intro u k
    split <;> rfl

theorem hostqAt_afterReset (p j : Nat) (s : State) : hostqAt (afterReset p s) j = hostqAt s j := by
  unfold afterReset
  dsimp only
  split <;> rfl

theorem subs_afterReset (p : Nat) (s : State) : (afterReset p s).fv.subs = s.fv.subs := by
  unfold afterReset
  dsimp only
  split <;> rfl

/-- The record of the pound is the only one that changes, and its state the only field. -/
theorem pounds_afterReset (p : Nat) (s : State) :
    (afterReset p s).fv.pounds = (modPound p (fun r => { r with state := stateAfterReset p s }) s).fv.pounds := by
  unfold afterReset
  dsimp only
  split <;> rfl

theorem poundAt_of_pounds {s t : State} (h : t.fv.pounds = s.fv.pounds) (j : Nat) : poundAt t j = poundAt s j := by
  rw [poundAt, h, poundAt]

theorem poundAt_afterReset_same (p : Nat) (s : State) :
    poundAt (afterReset p s) p = { poundAt s p with state := stateAfterReset p s } :=
  (poundAt_of_pounds (pounds_afterReset p s) p).trans (poundAt_modPound_same ..)

theorem poundAt_afterReset_ne {p j : Nat} (h : j ≠ p) (s : State) : poundAt (afterReset p s) j = poundAt s j :=
  (poundAt_of_pounds (pounds_afterReset p s) j).trans (poundAt_modPound_ne _ _ _ _ h.symm)

/-- A pound stops, or runs at once where it needs no window. -/
theorem stateAfterReset_cases (p : Nat) (s : State) : stateAfterReset p s = .stopped ∨
    (stateAfterReset p s = .running ∧ ((poundAt s p).kind = 2 ∨ (poundAt s p).kind = 3)) := by
  unfold stateAfterReset
  split
  · exact Or.inl rfl
  · split
    case isTrue hk => exact Or.inr ⟨rfl, hk⟩
    case isFalse => exact Or.inl rfl

theorem completeReset_effect (p : Nat) {s t : State} (ht : t = completeReset p s) :
    (poundAt t p).kind = (poundAt s p).kind ∧
      ((poundAt t p).state = .stopped ∨
        ((poundAt t p).state = .running ∧ ((poundAt s p).kind = 2 ∨ (poundAt s p).kind = 3))) ∧
      others poundAt p s t ∧ t.fv.subs = s.fv.subs.filter (fun b => decide (b.pound ≠ p)) ∧ hostqAt t p = [] := by
  obtain ⟨u, hu, hcore, hq⟩ := completeReset_eq p s
  have hp : ∀ j, poundAt u j = poundAt s j := poundAt_of_pounds (congrArg Fv.pounds hcore :)
  have hsubs := congrArg Fv.subs hcore
  have hstate := stateAfterReset_cases p u
  rw [hp] at hstate
  rw [ht, hu, poundAt_afterReset_same, hp]
  exact ⟨rfl, hstate, fun j hj => (poundAt_afterReset_ne hj u).trans (hp j), (subs_afterReset p u).trans hsubs,
    (hostqAt_afterReset p p u).trans hq⟩

theorem poundResetComplete_effect (p : Nat) (s : State) (h : p < 32) : ∃ t, exec (.poundResetComplete p) s = .next t ∧
    ((poundAt s p).state ≠ .resetting → t = s) ∧ ((poundAt s p).state = .resetting → t = completeReset p s ∧
      (poundAt t p).kind = (poundAt s p).kind ∧
      ((poundAt t p).state = .stopped ∨
        ((poundAt t p).state = .running ∧ ((poundAt s p).kind = 2 ∨ (poundAt s p).kind = 3))) ∧
      others poundAt p s t ∧ t.fv.subs = s.fv.subs.filter (fun b => decide (b.pound ≠ p)) ∧ hostqAt t p = []) := by
  refine ⟨_, guardUnit_of_ok (decide_eq_true h) _, fun hs => if_neg hs, fun hs => ?_⟩
  rw [if_pos hs]
  exact ⟨rfl, completeReset_effect p rfl⟩

theorem poundAt_purgePound_same (p : Nat) (s : State) : poundAt (purgePound p s) p = { pound0 32 with
    state := .removed, resetCycle := (poundAt s p).resetCycle, reason := (poundAt s p).reason
    resets := (poundAt s p).resets, central := (poundAt s p).central, onReset := (poundAt s p).onReset
    cmdSlots := 0, evtQueue := 0, evtRate := 0, foldMax := 0, rxCells := 0, txCells := 0 } :=
  (poundAt_modPq ..).trans (poundAt_modPound_same ..)

theorem others_poundAt_purgePound (p : Nat) (s : State) : others poundAt p s (purgePound p s) :=
  fun j hj => (poundAt_modPq ..).trans (poundAt_modPound_ne p j _ s hj.symm)

theorem pqAt_purgePound_same (p : Nat) (s : State) :
    pqAt (purgePound p s) p = { pqAt s p with purgeDue := false, removing := false } :=
  pqAt_modPq_same p _ _

theorem others_pqAt_purgePound (p : Nat) (s : State) : others pqAt p s (purgePound p s) :=
  fun j hj => pqAt_modPq_ne p j _ _ hj.symm

theorem ownershipTransfer_effect (p : Nat) (s : State) (h : p < 32) : ∃ t, exec (.ownershipTransfer p) s = .next t ∧
    (if (pqAt s p).purgeDue = true then (poundAt t p).state = .removed ∧ (poundAt t p).objs = [] ∧
      (poundAt t p).resets = (poundAt s p).resets ∧ others poundAt p s t ∧
      (pqAt t p).purgeDue = false ∧ (pqAt t p).removing = false ∧ others pqAt p s t else t = s) := by
  refine ⟨_, guardUnit_of_ok (decide_eq_true h) _, ?_⟩
  split
  · rw [poundAt_purgePound_same, pqAt_purgePound_same]
    exact ⟨rfl, rfl, rfl, others_poundAt_purgePound p s, rfl, rfl, others_pqAt_purgePound p s⟩
  · rfl

/-- Settles O53: a request that is heard is its verb's work on the state that has counted it; the windows and the ends
of a reset and of a removal by what they change of the pound and of its queues. -/
theorem requestsThatReadAndSubscribe : Obligations.RequestsThatReadAndSubscribe := by
  unfold Obligations.RequestsThatReadAndSubscribe
  refine ⟨tideInRead_effect, favalGet_effect, fun cls r s h => ?_, fun r s h => ?_, favalUnsub_effect, favalList_effect,
    suppressionWindowClose_effect, eventRateWindow_effect, poundResetComplete_effect, ownershipTransfer_effect⟩
  · obtain ⟨t, ht, hsub, hwire⟩ := favalSub_effect cls r s h
    exact ⟨t, ht, fun hc => doSub_effect (hsub hc), hwire⟩
  · obtain ⟨t, ht, hsub, htele⟩ := wireSub_effect r s h
    exact ⟨t, ht, fun hi => doSub_effect (hsub hi), htele⟩

end Sys2Proof.Machine
end

section
/-! A step with a command waiting (O1). -/
open Sys2Proof
namespace Sys2Proof.Machine

theorem step_of_cons {c : Instr} {rest : List Instr} {s : State} (h : s.pending = c :: rest) :
    step s = exec c { s with pending := rest } := by
  unfold step
  rw [h]

/-- Settles O1: the queue is looked at first, and its front is what runs. -/
theorem stepRunsTheFrontCommand : Obligations.StepRunsTheFrontCommand :=
  fun _ _ _ => step_of_cons

end Sys2Proof.Machine
end

section
/-! The strobe, a completed bank copy, the thermal emergency and the supply monitors (O31). -/
open Sys2Proof
namespace Sys2Proof.Machine

/-! The strobe (R557). -/

/-- Of the safety record FAULT_N alone can fall. -/
theorem faultFall_saf (s : State) : ∃ n a, (faultFall s).saf = { s.saf with faultN := n, faultAt := a } := by
  unfold faultFall
  split
  · exact ⟨_, _, rfl⟩
  · exact ⟨_, _, rfl⟩

theorem safeOutputs_saf (s : State) : (safeOutputs s).saf = s.saf :=
  blank_all_saf (safeOutputs_frame (only [.wire, .pow, .slu, .mot, .fio]) rfl rfl rfl rfl rfl s) rfl rfl rfl rfl

theorem endWaterWait_saf (s : State) : (endWaterWait s).saf = s.saf :=
  blank_all_saf (endWaterWait_frame (only [.fv, .wire, .img]) rfl rfl rfl s) rfl rfl rfl rfl

/-- What the safety record holds when the safe state is entered from outside it, FAULT_N apart. -/
def entered (bits : Nat) (strobe : Bool) (s : State) : Saf :=
  { s.saf with
    inForce := true, releasing := false, strobed := strobe, causes := bits, relPend := false
    entryCycle := s.cyc.number, reaction := sat 32 (s.tide.counter - s.saf.tD), hold := holdTable s
    atBoundary := 0, atStrobe := 0 }

theorem enterSafe_saf {s : State} (h : s.saf.inForce = false) (bits : Nat) (strobe : Bool) :
    ∃ n a, (enterSafe bits strobe s).saf = { entered bits strobe s with faultN := n, faultAt := a } := by
  unfold enterSafe
  rw [h, if_neg (by decide)]
  dsimp only
  obtain ⟨n, a, hf⟩ := faultFall_saf (emit 0x6002 0 _ _ _ _)
  refine ⟨n, a, hf.trans ?_⟩
  rw [emit_saf, endWaterWait_saf, safeOutputs_saf, apply_ite State.saf, modTp_saf, ite_self]
  rfl

theorem enterSafe_again {s : State} (h : s.saf.inForce = true) (bits : Nat) (strobe : Bool) :
    (enterSafe bits strobe s).saf = { s.saf with causes := s.saf.causes ||| bits, relPend := false } := by
  unfold enterSafe
  rw [h, if_pos rfl]
  rfl

theorem safeStrobe_effect (s : State) : ∃ t, exec (.safeStrobe) s = .next t ∧
    (s.saf.atStrobe = 0 ∨ s.tide.counter < s.saf.tD + 700000 → t = s) ∧
    (s.saf.atStrobe ≠ 0 → s.saf.tD + 700000 ≤ s.tide.counter → t.saf.inForce = true ∧ t.saf.relPend = false ∧
      (s.saf.inForce = false → t.saf.strobed = true ∧ t.saf.entryCycle = s.cyc.number ∧
        t.saf.causes = s.saf.atStrobe ||| s.saf.atBoundary ∧ t.saf.atStrobe = 0)) := by
  refine ⟨_, rfl, fun h => if_pos h, fun h0 hd => ?_⟩
  rw [if_neg (fun h => h.elim h0 (Nat.not_lt.mpr hd))]
  cases hf : s.saf.inForce with
  | true =>
    rw [enterSafe_again hf]
    exact ⟨hf, rfl, (nomatch ·)⟩
  | false =>
    obtain ⟨n, a, he⟩ := enterSafe_saf hf (s.saf.atStrobe ||| s.saf.atBoundary) true
    rw [he]
    exact ⟨rfl, rfl, fun _ => ⟨rfl, rfl, rfl, rfl⟩⟩

/-! The copy of an SRAM bank (R568). -/

/-- A unit that is brought in reaches the log of the side ponds alone. -/
theorem pondIn_pond (kind unit : Nat) (fig : Int) (s : State) :
    (pondIn kind unit fig s).saf.pond = (wearLog kind unit 1 s).saf.pond := by
  refine (apply_ite (fun t : State => t.saf.pond) _ _ _).trans ?_
  rw [pondWear_saf, ite_self, emit_saf]

theorem sramBankCopyComplete_effect (s : State) : ∃ t, exec (.sramBankCopyComplete) s = .next t ∧
    (s.saf.pond.sramCopy = none → t = s) ∧ (∀ b, s.saf.pond.sramCopy = some b →
      t.saf.pond.sramIn = b :: s.saf.pond.sramIn ∧ t.saf.pond.sramCopy = s.saf.pond.sramWait.head? ∧
        t.saf.pond.sramWait = s.saf.pond.sramWait.tail) := by
  refine ⟨_, rfl, fun h => by rw [h], fun b h => ?_⟩
  rw [h]
  dsimp only
  have hp := pondIn_pond 5 b (4 : Nat)
    (modPond (fun p => { p with sramCopy := none, sramIn := b :: p.sramIn, stuck := tdel b p.stuck }) s)
  generalize pondIn 5 b _ _ = u at hp ⊢
  have hw : u.saf.pond.sramWait = s.saf.pond.sramWait := (congrArg Pond.sramWait hp).trans rfl
  have hi : u.saf.pond.sramIn = b :: s.saf.pond.sramIn := (congrArg Pond.sramIn hp).trans rfl
  cases hl : s.saf.pond.sramWait with
  | nil =>
    rw [hl] at hw
    rw [hw]
    exact ⟨hi, congrArg Pond.sramCopy hp, hw⟩
  | cons w r =>
    rw [hl] at hw
    rw [hw]
    exact ⟨hi, rfl, rfl⟩

/-! VCORE taken by force (R555, R583). -/

/-- Entering a power state changes the state alone in the power record. -/
theorem setPowerState_pwr (n : Nat) (auto : Bool) (s : State) :
    (setPowerState n auto s).pwr = { s.pwr with state := n } := by
  unfold setPowerState
  split
  case isTrue h => rw [← h]
  case isFalse => exact emit_pwr ..

theorem supsStandby_pwr (on : Bool) (s : State) : (supsStandby on s).pwr = s.pwr :=
  same_of_blank (supsStandby_frame (only [.fio]) rfl on s) .pwr rfl

theorem ovfGate_pwr (s : State) : (ovfGate s).pwr = s.pwr :=
  same_of_blank (ovfGate_frame (only [.wire, .net]) rfl rfl s) .pwr rfl

theorem vcoreOff_pwr (s : State) : (vcoreOff s).pwr = { s.pwr with vcoreEn := false, vcoreMv := 0 } := ovfGate_pwr _

theorem forcedOff_pwr (s : State) : (forcedOff s).pwr.forced = true ∧ (forcedOff s).pwr.vcoreEn = false := by
  unfold forcedOff
  dsimp only
  split
  · rw [vcoreOff_pwr]
    exact ⟨rfl, rfl⟩
  · rw [supsStandby_pwr, setPowerState_pwr, storeNodes_pwr, vcoreOff_pwr]
    exact ⟨rfl, rfl⟩

/-- The regions a forced cut of VCORE reaches. -/
def forcedRegions : List Region := [.sys, .fv, .wire, .slu, .fio, .net, .light, .aps, .pwr, .mem, .free]

theorem detected_forcedOff {bp : Nat} {live : Bool} {s u : State} (h : detected bp live s u) :
    detected bp live s (forcedOff u) :=
  detected_before h (forcedOff_frame (only forcedRegions) rfl rfl rfl rfl rfl rfl rfl rfl rfl rfl rfl u) rfl

theorem thermalEmergency_effect (s : State) : ∃ t, exec (.thermalEmergency) s = .next t ∧
    (if s.pwr.keeper = true ∧ (detAt s 0x026).active = false then
      detected 0x026 true s t ∧ t.pwr.forced = true ∧ t.pwr.vcoreEn = false
    else t = s) := by
  refine ⟨_, rfl, ?_⟩
  split
  case isTrue h =>
    rw [if_neg (by simp [h])]
    exact ⟨detected_forcedOff (detAt_detect 0x026 true s), forcedOff_pwr _⟩
  case isFalse h =>
    refine if_pos ?_
    cases hk : s.pwr.keeper with
    | false => exact .inl rfl
    | true => exact .inr (Bool.not_eq_false _ ▸ fun ha => h ⟨hk, ha⟩)

theorem detAt_of_frame {L : Region → Bool} {s t : State} (h : blank L t = blank L s) (hd : L .detect = false) (bp : Nat) :
    detAt t bp = detAt s bp := by
  have e : t.saf.dets = s.saf.dets := congrArg (·.dets) (same_of_blank h .detect hd)
  rw [detAt, e, ← detAt]

theorem detAt_emit (code inst : Nat) (s : State) (cause flags : Nat) (value : Int) (ext : List Nat) (dest : Option Nat)
    (bp : Nat) : detAt (emit code inst s cause flags value ext dest) bp = detAt s bp :=
  detAt_of_frame (emit_frame (only [.wire]) rfl code inst s cause flags value ext dest) rfl bp

theorem detectEnd_active (bp : Nat) (s : State) : (detAt (detectEnd bp s) bp).active = false := by
  unfold detectEnd
  split
  · rw [detAt_emit, detAt_modDet_same]
  case isFalse h => exact Bool.not_eq_true _ ▸ h

theorem thermalEmergencyClear_effect (s : State) : ∃ t, exec (.thermalEmergencyClear) s = .next t ∧
    ((detAt s 0x026).active = false → t = s) ∧ (detAt t 0x026).active = false := by
  refine ⟨_, rfl, fun h => by rw [h, if_neg (by decide)], ?_⟩
  split
  · rw [detAt_of_frame (forcedEnd_frame (only [.pwr]) rfl _) rfl]
    exact detectEnd_active 0x026 s
  case isFalse h => exact Bool.not_eq_true _ ▸ h

/-! The supply monitors (R555). -/

theorem mem_rails_railOut (r : Nat) (s : State) : r ∈ (railOut r s).pwr.rails := by
  unfold railOut
  split
  case isTrue h => exact h
  case isFalse => exact List.mem_cons_self

theorem railOut_frame_pwr (r : Nat) (s : State) : blank (only [.pwr]) (railOut r s) = blank (only [.pwr]) s :=
  railOut_frame (only [.pwr]) rfl r s

/-- A detection without its consequences latches the detector. -/
theorem detAt_detectLatch (bp : Nat) (live : Bool) (s : State) :
    (detAt (detectLatch bp live s) bp).latched = true ∧ (detAt (detectLatch bp live s) bp).active = live := by
  have h : (detectLatch bp live s).saf.dets = (modDet bp (fun d => { d with
      count := sat 32 (d.count + 1), latched := true, active := live, lastCycle := s.cyc.number }) s).saf.dets := by
    unfold detectLatch
    dsimp only
    rw [faultFall_dets, emit_saf]
  rw [detAt, h, ← detAt, detAt_modDet_same]
  exact ⟨rfl, rfl⟩

theorem vkeepMon_effect (s : State) : ∃ t, exec (.vkeepMon) s = .next t ∧
    (s.pwr.keeper = false → t = s) ∧ (s.pwr.keeper = true → t.pwr.keeper = false ∧ 0 ∈ t.pwr.rails ∧
      (detAt t 0x023).latched = true ∧ (detAt t 0x023).active = true ∧ t.cyc = {}) := by
  refine ⟨_, rfl, fun h => by rw [h]; rfl, fun h => ?_⟩
  rw [h, if_neg (by decide)]
  dsimp only
  generalize hu : modPwr _ (keeperDown s) = u
  have hk : u.pwr.keeper = false := by rw [← hu]; rfl
  have hc : u.cyc = {} := by rw [← hu]; rfl
  have hr := railOut_frame_pwr 0 (detectLatch 0x023 true u)
  rw [detAt_of_frame hr rfl, blank_all_cyc hr rfl rfl, detectLatch_cyc]
  obtain ⟨hl, ha⟩ := detAt_detectLatch 0x023 true u
  refine ⟨?_, mem_rails_railOut 0 _, hl, ha, hc⟩
  rw [railOut, apply_ite State.pwr, modPwr_pwr, detectLatch_pwr]
  exact (apply_ite Pwr.keeper _ _ _).trans ((ite_self _).trans hk)

theorem vcoreReturnUnless_frame_pwr (again : Bool) (s : State) :
    blank (only [.pwr]) (vcoreReturnUnless again s) = blank (only [.pwr]) s :=
  vcoreReturnUnless_frame (only [.pwr]) rfl again s

theorem vcoreReturnUnless_vmonAt (again : Bool) (s : State) : (vcoreReturnUnless again s).pwr.vmonAt = s.pwr.vmonAt := by
  unfold vcoreReturnUnless
  split
  · rfl
  · split
    · rfl
    · split <;> rfl

theorem vcoreLost_pwr (again : Bool) (s : State) : (vcoreLost again s).pwr.vmonAt = some s.pwr.age ∧
    (vcoreLost again s).pwr.vcoreEn = false ∧ (again = true → (vcoreLost again s).pwr.vcoreBar = true) := by
  rw [vcoreLost, modPwr_pwr]
  dsimp only
  exact ⟨rfl, (forcedOff_pwr _).2, fun h => by rw [h]; exact Bool.or_true _⟩

theorem detected_vcoreLost (again : Bool) (s : State) : detected 0x024 true s (vcoreLost again s) := by
  have h := detected_forcedOff (detected_before (detAt_detect 0x024 true s) (railOut_frame_pwr 1 _) rfl)
  exact detected_before h (modPwr_frame (only [.pwr]) rfl _ _) rfl

theorem vcoreMon_effect (s : State) : ∃ t, exec (.vcoreMon) s = .next t ∧
    (s.pwr.vcoreEn = false → t = s) ∧ (s.pwr.vcoreEn = true → detected 0x024 true s t ∧
      t.pwr.vmonAt = some s.pwr.age ∧ (vcoreAgain s = true → t.pwr.vcoreEn = false ∧ t.pwr.vcoreBar = true)) := by
  refine ⟨_, rfl, fun h => by rw [h]; rfl, fun h => ?_⟩
  rw [h, if_neg (by decide)]
  obtain ⟨hm, he, hb⟩ := vcoreLost_pwr (vcoreAgain s) s
  refine ⟨detected_before (detected_vcoreLost _ s) (vcoreReturnUnless_frame_pwr _ _) rfl,
    (vcoreReturnUnless_vmonAt _ _).trans hm, fun ha => ?_⟩
  rw [vcoreReturnUnless, if_pos ha]
  exact ⟨he, hb ha⟩

/-- The detection of a rail of VIO_MON; below its range VIO33 takes the keeper domain down. -/
def vioLost (rail : Nat) (low : Bool) (s : State) : State :=
  if rail = 3 ∧ low = true then
    detectLatch 0x025 true (modPwr (fun p => { p with cause := some (p.source, p.detail) }) (keeperDown s))
  else detect 0x025 true s

/-- The 5 V rail takes the rail of the transceivers with it. -/
def busesLost (rail : Nat) (s : State) : State :=
  if rail = 4 then busesStandby (modCan (fun c => { c with rail5 := false }) s) else s

theorem exec_vioMon {rail : Nat} (h : 2 ≤ rail ∧ rail < 5) (low : Bool) {s : State} (hk : s.pwr.keeper = true) :
    exec (.vioMon rail low) s = .next (railOut rail (busesLost rail (vioLost rail low s))) := by
  refine (guardUnit_of_ok (decide_eq_true h) _).trans (congrArg _ ?_)
  rw [hk]
  rfl

theorem busesLost_frame (rail : Nat) (s : State) :
    blank (only [.can, .lin, .nm]) (busesLost rail s) = blank (only [.can, .lin, .nm]) s := by
  unfold busesLost
  split
  · rw [busesStandby_frame _ rfl rfl, modCan_frame _ rfl]
  · rfl

theorem busesStandby_can (s : State) : (busesStandby s).can = s.can :=
  same_of_blank (busesStandby_frame (only [.lin, .nm]) rfl rfl s) .can rfl

theorem railOut_keeper (r : Nat) (s : State) : (railOut r s).pwr.keeper = s.pwr.keeper := by
  unfold railOut
  split <;> rfl

theorem vioMon_effect (rail : Nat) (low : Bool) (s : State) (h : 2 ≤ rail ∧ rail < 5) :
    ∃ t, exec (.vioMon rail low) s = .next t ∧
      (s.pwr.keeper = false → t = s) ∧ (s.pwr.keeper = true → rail ∈ t.pwr.rails ∧ (rail = 4 → t.can.rail5 = false) ∧
        (rail = 3 → low = true → t.pwr.keeper = false) ∧ (rail ≠ 3 ∨ low = false → detected 0x025 true s t)) := by
  cases hk : s.pwr.keeper with
  | false =>
    refine ⟨s, (guardUnit_of_ok (decide_eq_true h) _).trans (congrArg _ ?_), fun _ => rfl, (nomatch ·)⟩
    rw [hk]
    rfl
  | true =>
    refine ⟨_, exec_vioMon h low hk, (nomatch ·), fun _ => ⟨mem_rails_railOut rail _, fun h4 => ?_, fun h3 hl => ?_, fun hn => ?_⟩⟩
    · rw [show (railOut rail _).can = _ from same_of_blank (railOut_frame_pwr rail _) .can rfl, busesLost, if_pos h4,
        busesStandby_can]
      rfl
    · rw [railOut_keeper, show (busesLost rail _).pwr = _ from same_of_blank (busesLost_frame rail _) .pwr rfl, vioLost,
        if_pos ⟨h3, hl⟩, detectLatch_pwr]
      rfl
    · have hd : vioLost rail low s = detect 0x025 true s :=
        if_neg fun hb => hn.elim (fun h3 => h3 hb.1) (fun hl => by rw [hl] at hb; exact nomatch hb.2)
      refine detected_before (detected_before ?_ (busesLost_frame rail _) rfl) (railOut_frame_pwr rail _) rfl
      rw [hd]
      exact detAt_detect 0x025 true s

/-- The rail is off the list, and with the 5 V rail that of the transceivers is back. -/
def railBack (rail : Nat) (s : State) : State :=
  let s := modPwr (fun p => { p with rails := p.rails.erase rail }) s
  if rail = 4 then busesBack (modCan (fun c => { c with rail5 := true }) s) else s

theorem busesBack_frame_buses (s : State) : blank (only [.lin, .nm]) (busesBack s) = blank (only [.lin, .nm]) s :=
  busesBack_frame (only [.lin, .nm]) rfl rfl s

theorem railBack_effect (rail : Nat) (s : State) : (railBack rail s).pwr.rails = s.pwr.rails.erase rail ∧
    (rail = 4 → (railBack rail s).can.rail5 = true) := by
  unfold railBack
  dsimp only
  split
  · rw [show (busesBack _).pwr = _ from same_of_blank (busesBack_frame_buses _) .pwr rfl,
      show (busesBack _).can = _ from same_of_blank (busesBack_frame_buses _) .can rfl]
    exact ⟨rfl, fun _ => rfl⟩
  case isFalse h => exact ⟨rfl, fun h4 => absurd h4 h⟩

/-- The conditions that a rail back within its limits ends. -/
def railConditions (rail : Nat) (s : State) : State :=
  if rail = 0 then detectEnd 0x023 s
  else if rail = 1 then (if s.pwr.vcoreBar then s else forcedEnd (detectEnd 0x024 s))
  else if railOk s 2 && railOk s 3 && railOk s 4 then detectEnd 0x025 s else s

theorem forcedEnd_rails (s : State) : (forcedEnd s).pwr.rails = s.pwr.rails := by
  unfold forcedEnd
  split
  · rfl
  · dsimp only
    split <;> rfl

theorem railConditions_keeps (rail : Nat) (s : State) : (railConditions rail s).pwr.rails = s.pwr.rails ∧
    (railConditions rail s).can = s.can := by
  unfold railConditions
  split
  · rw [detectEnd_pwr, detectEnd_can]
    exact ⟨rfl, rfl⟩
  · split
    · split
      · exact ⟨rfl, rfl⟩
      · rw [forcedEnd_rails, detectEnd_pwr,
          show (forcedEnd _).can = _ from same_of_blank (forcedEnd_frame (only [.pwr]) rfl _) .can rfl, detectEnd_can]
        exact ⟨rfl, rfl⟩
    · split
      · rw [detectEnd_pwr, detectEnd_can]
        exact ⟨rfl, rfl⟩
      · exact ⟨rfl, rfl⟩

theorem supplyRailRecovery_effect (rail : Nat) (s : State) (h : rail < 5) :
    ∃ t, exec (.supplyRailRecovery rail) s = .next t ∧ (rail ∉ s.pwr.rails → t = s) ∧
      (rail ∈ s.pwr.rails → t.pwr.rails = s.pwr.rails.erase rail ∧ (rail = 4 → t.can.rail5 = true)) := by
  have he : exec (.supplyRailRecovery rail) s = .next
      (if !(decide (rail ∈ s.pwr.rails)) then s else railConditions rail (railBack rail s)) :=
    guardUnit_of_ok (decide_eq_true h) _
  refine ⟨_, he, fun hr => if_pos (by simp [hr]), fun hr => ?_⟩
  rw [if_neg (by simp [hr])]
  obtain ⟨hrails, hcan⟩ := railConditions_keeps rail (railBack rail s)
  obtain ⟨hb, h5⟩ := railBack_effect rail s
  rw [hrails, hcan]
  exact ⟨hb, h5⟩

/-- Settles O31: the safe state is entered, the map points at the spare, and a monitor's detection is counted before what
it takes away, which reaches no detector. -/
theorem suppliesTemperatureAndRails : Obligations.SuppliesTemperatureAndRails :=
  ⟨safeStrobe_effect, sramBankCopyComplete_effect, thermalEmergency_effect, thermalEmergencyClear_effect, vkeepMon_effect,
    vcoreMon_effect, vioMon_effect, supplyRailRecovery_effect⟩

end Sys2Proof.Machine
end

section
/-! The clock monitor, the bus timeout, ECC, the readback, the Sluice, the TRNG monitors and the watch (O32). -/
open Sys2Proof
namespace Sys2Proof.Machine

/-! A cause of the Towpath and the revert of a trial leave the detectors alone. -/

theorem setTpCauses_dets (new : Nat) (s : State) : (setTpCauses new s).saf.dets = s.saf.dets := by
  unfold setTpCauses
  dsimp only
  split
  · rfl
  · rw [faultFall_dets]
    split
    · rw [emit_saf]
      rfl
    · rw [emit_saf]
      split <;> rfl

theorem detected_of_dets {s t u : State} {bp : Nat} {live : Bool} (h : detected bp live s t)
    (e : u.saf.dets = t.saf.dets) : detected bp live s u := by
  simpa only [detected, detAt, e] using h

theorem tpSet_causes (k : Nat) (s : State) : (tpSet k s).tp.causes = s.tp.causes ||| 2 ^ k := setTpCauses_causes _ s

theorem tpSet_dets (k : Nat) (s : State) : (tpSet k s).saf.dets = s.saf.dets := setTpCauses_dets _ s

theorem revertTrial_saf (s : State) : (revertTrial s).saf = s.saf :=
  blank_all_saf (revertTrial_frame (only [.wire, .img]) rfl rfl s) rfl rfl rfl rfl

theorem detected_revertTrial {s u : State} {bp : Nat} {live : Bool} (h : detected bp live s u) :
    detected bp live s (revertTrial u) :=
  detected_of_saf h (revertTrial_saf u)

/-- The model names the unsupplied keeper domain first. -/
theorem ite_keeper (s a : State) : (if s.pwr.keeper = true then a else s) = if !s.pwr.keeper then s else a := by
  cases s.pwr.keeper <;> rfl

/-! Clocks and buses (R553). -/

/-- The keeper logic runs on the RC oscillator. -/
def pllLost (s : State) : State := modPwr (fun p => { p with pll := false }) s

theorem exec_clockMon (s : State) : exec .clockMon s = .next
    (if s.pwr.keeper then tpSet 2 (detect 0x01B false (pllLost s)) else s) :=
  congrArg _ (ite_keeper s (tpSet 2 (detect 0x01B false (pllLost s)))).symm

theorem detected_pllLost (s : State) : detected 0x01B false s (detect 0x01B false (pllLost s)) :=
  detected_detect rfl rfl 0x01B false

theorem clockMon_effect (s : State) : ∃ t, exec (.clockMon) s = .next t ∧
    (if s.pwr.keeper then t.pwr.pll = false ∧ t.tp.causes = s.tp.causes ||| 4 ∧ detected 0x01B false s t else t = s) := by
  refine ⟨_, exec_clockMon s, ?_⟩
  split
  · rw [tpSet_pwr, tpSet_causes, detect_tp, detect_pwr]
    exact ⟨rfl, rfl, detected_of_dets (detected_pllLost s) (tpSet_dets 2 _)⟩
  · rfl

/-- A detection that follows the supply of the keeper domain and nothing else. -/
theorem detect_powered_effect (bp : Nat) (s t : State) (h : t = if s.pwr.keeper then detect bp false s else s) :
    if s.pwr.keeper then detected bp false s t ∧ t.pwr = s.pwr else t = s := by
  subst h
  split
  · exact ⟨detAt_detect bp false s, detect_pwr ..⟩
  · rfl

theorem busTimeout_effect (s : State) : ∃ t, exec (.busTimeout) s = .next t ∧
    (if s.pwr.keeper then detected 0x022 false s t ∧ t.pwr = s.pwr else t = s) :=
  ⟨_, rfl, detect_powered_effect 0x022 s _ rfl⟩

theorem faultNReadback_effect (s : State) : ∃ t, exec (.faultNReadback) s = .next t ∧
    (if s.pwr.keeper then detected 0x027 false s t ∧ t.pwr = s.pwr else t = s) :=
  ⟨_, rfl, detect_powered_effect 0x027 s _ rfl⟩

/-! The memories (R553, R569). -/

/-- What an uncorrectable read of the eMRAM spoils where it lies: a copy of the Towpath table, or a copy of the nodes. -/
def emramSpoilt (off : Nat) (s : State) : State :=
  match (if 0x17B0000 ≤ off ∧ off < 0x17B8000 then some 0
    else if 0x17B8000 ≤ off ∧ off < 0x17C0000 then some 1 else none : Option Nat) with
  | some c =>
    let s := spoilCopies (decide (c = 0)) (decide (c = 1)) s
    if s.tp.copy = c ∧ s.tp.noTable = false then useCopies s else s
  | none => if 0x1200000 ≤ off ∧ off < 0x1400000 then nodeCopyLost s else s

theorem emramSpoilt_frame (off : Nat) (s : State) :
    blank (only [.wire, .tp, .slu, .free]) (emramSpoilt off s) = blank (only [.wire, .tp, .slu, .free]) s := by
  unfold emramSpoilt
  split
  · dsimp only
    split
    · rw [useCopies_frame _ rfl rfl, spoilCopies_frame _ rfl]
    · exact spoilCopies_frame _ rfl ..
  · split
    · exact nodeCopyLost_frame _ rfl rfl s
    · rfl

/-- A write or a read that condemns the row at `off`. -/
def emramRow (kind off : Nat) (s : State) : State :=
  if off / 512 ∈ s.saf.pond.rowIn then s
  else if 512 ≤ s.saf.pond.rows then (if kind = 1 then detect 0x01D false s else s)
  else remapRow (off / 512) s

theorem exec_emramEcc (kind off : Nat) (s : State) : exec (.emramEcc kind off) s = .next
    (if kind = 0 then emramSpoilt off (detect 0x01D false s) else emramRow kind off s) := rfl

theorem pondWear_rows_saf (c : Prop) [Decidable c] (kind unit : Nat) (fig : Int) (empty : Bool) (s : State) :
    (if c then pondWear kind unit fig empty s else s).saf = s.saf := by
  rw [apply_ite State.saf, pondWear_saf, ite_self]

theorem remapRow_rows (row : Nat) (s : State) : (remapRow row s).saf.pond.rows = s.saf.pond.rows + 1 ∧
    (remapRow row s).saf.pond.rowIn = row :: s.saf.pond.rowIn := by
  unfold remapRow
  dsimp only
  rw [pondIn_pond]
  have h := pondWear_rows_saf
    ((modPond (fun p => { p with rows := p.rows + 1, rowIn := row :: p.rowIn }) s).saf.pond.rows % 128 = 0 ∧
      (modPond (fun p => { p with rows := p.rows + 1, rowIn := row :: p.rowIn }) s).saf.pond.rows < 512)
    6 row (modPond (fun p => { p with rows := p.rows + 1, rowIn := row :: p.rowIn }) s).saf.pond.rows false
    (modPond (fun p => { p with rows := p.rows + 1, rowIn := row :: p.rowIn }) s)
  exact ⟨congrArg (fun v : Saf => v.pond.rows) h, congrArg (fun v : Saf => v.pond.rowIn) h⟩

theorem emramEcc_effect (kind off : Nat) (s : State) : ∃ t, exec (.emramEcc kind off) s = .next t ∧
    (kind = 0 → detected 0x01D false s t) ∧ (kind ≠ 0 → off / 512 ∈ s.saf.pond.rowIn → t = s) ∧
    (kind ≠ 0 → off / 512 ∉ s.saf.pond.rowIn → s.saf.pond.rows < 512 →
      t.saf.pond.rows = s.saf.pond.rows + 1 ∧ t.saf.pond.rowIn = off / 512 :: s.saf.pond.rowIn) := by
  refine ⟨_, exec_emramEcc kind off s, fun h => ?_, fun h hr => ?_, fun h hr hn => ?_⟩
  · rw [if_pos h]
    exact detected_before (detAt_detect 0x01D false s) (emramSpoilt_frame off _) rfl
  · rw [if_neg h, emramRow, if_pos hr]
  · rw [if_neg h, emramRow, if_neg hr, if_neg (Nat.not_le.mpr hn)]
    exact remapRow_rows (off / 512) s

/-- An entry that fails is a detection, one that is loaded again is not. -/
def tableRead (reload : Bool) (s : State) : State := if reload then s else detect 0x053 false s

theorem tableRead_keeps (reload : Bool) (s : State) : (tableRead reload s).can = s.can ∧ (tableRead reload s).aq = s.aq ∧
    (tableRead reload s).net = s.net := by
  cases reload with
  | true => exact ⟨rfl, rfl, rfl⟩
  | false => exact ⟨detect_can .., detect_aq .., detect_net ..⟩

theorem detected_tableRead {reload : Bool} {s t : State} (ht : t.saf = (tableRead reload s).saf) :
    reload = false → detected 0x053 false s t := by
  rintro rfl
  exact detected_of_saf (detAt_detect 0x053 false s) ht

/-- The entry `i` of table `kind` is marked bad, or good again. -/
def markEntry (kind i : Nat) (bad : Bool) (s : State) : State :=
  match kind with
  | 0 => modFilter i (fun e => { e with bad := bad }) s
  | 1 => modRoute i (fun e => { e with bad := bad }) s
  | 2 => modFdb i (fun e => { e with bad := bad }) s
  | _ => modVlan i (fun e => { e with bad := bad }) s

theorem markEntry_saf (kind i : Nat) (bad : Bool) (s : State) : (markEntry kind i bad s).saf = s.saf := by
  unfold markEntry
  split <;> rfl

theorem fdbAt_of_net {s t : State} (h : t.net = s.net) (i : Nat) : fdbAt t i = fdbAt s i := by
  unfold fdbAt
  rw [h]

theorem vlanAt_of_net {s t : State} (h : t.net = s.net) (i : Nat) : vlanAt t i = vlanAt s i := by
  unfold vlanAt
  rw [h]

theorem tableEcc_effect (kind i : Nat) (reload : Bool) (s : State)
    (h : (kind = 0 ∧ i < 4096) ∨ (kind = 1 ∧ i < 0x4000) ∨ (kind = 2 ∧ i < 0x2000) ∨ (kind = 3 ∧ 1 ≤ i ∧ i < 4095)) :
    ∃ t, exec (.tableEcc kind i reload) s = .next t ∧
      (kind = 0 → filterAt t i = { filterAt s i with bad := !reload } ∧ others filterAt i s t) ∧
      (kind = 1 → routeAt t i = { routeAt s i with bad := !reload } ∧ others routeAt i s t) ∧
      (kind = 2 → fdbAt t i = { fdbAt s i with bad := !reload } ∧ others fdbAt i s t) ∧
      (kind = 3 → vlanAt t i = { vlanAt s i with bad := !reload } ∧ others vlanAt i s t) ∧
      (reload = false → detected 0x053 false s t) := by
  have he : exec (.tableEcc kind i reload) s = .next (markEntry kind i (!reload) (tableRead reload s)) :=
    guardUnit_of_ok (decide_eq_true h) _
  obtain ⟨hc, ha, hn⟩ := tableRead_keeps reload s
  refine ⟨_, he, ?_, ?_, ?_, ?_, detected_tableRead (markEntry_saf ..)⟩ <;> rintro rfl
  · have hf := filterAt_of_filters (congrArg Can.filters hc)
    exact ⟨(filterAt_modFilter_same ..).trans (by rw [hf]), fun j hj => (filterAt_modFilter_ne _ _ _ _ hj.symm).trans (hf j)⟩
  · have hr := routeAt_of_aq ha
    exact ⟨(routeAt_modRoute_same ..).trans (by rw [hr]), fun j hj => (routeAt_modRoute_ne _ _ _ _ hj.symm).trans (hr j)⟩
  · have hd := fdbAt_of_net hn
    exact ⟨(fdbAt_modFdb_same ..).trans (by rw [hd]), fun j hj => (fdbAt_modFdb_ne _ _ _ _ hj.symm).trans (hd j)⟩
  · have hv := vlanAt_of_net hn
    exact ⟨(vlanAt_modVlan_same ..).trans (by rw [hv]), fun j hj => (vlanAt_modVlan_ne _ _ _ _ hj.symm).trans (hv j)⟩

/-! The Sluice declared silent (R554). -/

/-- A channel goes under fallback, its delays stopped, and keeps whether it was on. -/
def silenceChannel (s : State) (i : Nat) : State :=
  modWire i (fun w => { w with onInSilence := isOn (chanAt s i).state }) (engage i
    (modChan i (fun c => { c with
      delayRun := false, delayEnd := false, lvEnd := false, lvCliff := false, lvPat := false, lvClean := false }) s))

/-- Beside channels and bridges, fallback changes its own wire record. -/
theorem engage_silent (i : Nat) (s : State) : (engage i s).slu.silent = s.slu.silent := by
  have h := same_of_blank (engage_frame_of_wire (only [.pow, .mot]) rfl rfl i s) .slu rfl
  exact (congrArg Slu.silent h :)

theorem silenceChannel_silent (s : State) (i : Nat) : (silenceChannel s i).slu.silent = s.slu.silent :=
  (engage_silent i _ :)

theorem silenceChannel_saf (s : State) (i : Nat) : (silenceChannel s i).saf = s.saf := by
  have h := engage_frame_of_wire (only [.pow, .mot]) rfl rfl i (modChan i (fun c => { c with
      delayRun := false, delayEnd := false, lvEnd := false, lvCliff := false, lvPat := false, lvClean := false }) s)
  exact (blank_all_saf h rfl rfl rfl rfl :)

/-- Every channel under fallback, and the event of it. -/
def silenced (s : State) : State :=
  emit 0x1108 0x300 ((List.range 76).foldl silenceChannel (modSlu (fun v => { v with silent := true }) s))
    (cause := 0) (flags := 1)

theorem declareSilent_eq {s : State} (h : s.slu.silent = false) :
    declareSilent s = if (silenced s).fv.fw then tpSet 3 (silenced s) else silenced s := by
  have hn : ¬ s.slu.silent = true := by rw [h]; decide
  unfold declareSilent silenced silenceChannel
  rw [if_neg hn]

theorem silenced_keeps (s : State) : (silenced s).slu.silent = true ∧ (silenced s).saf = s.saf := by
  rw [silenced, emit_slu, emit_saf]
  exact ⟨(foldl_keep (keep := fun s => s.slu.silent) silenceChannel_silent _ _),
    (foldl_keep (keep := fun s => s.saf) silenceChannel_saf _ _)⟩

theorem declareSilent_effect (s : State) : (declareSilent s).slu.silent = true ∧
    (declareSilent s).saf.dets = s.saf.dets := by
  cases h : s.slu.silent with
  | true =>
    have e : declareSilent s = s := if_pos h
    rw [e]
    exact ⟨h, rfl⟩
  | false =>
    obtain ⟨hs, hf⟩ := silenced_keeps s
    rw [declareSilent_eq h]
    split
    · rw [tpSet_slu, tpSet_dets]
      exact ⟨hs, congrArg Saf.dets hf⟩
    · exact ⟨hs, congrArg Saf.dets hf⟩

theorem revertTrial_slu (s : State) : (revertTrial s).slu = s.slu :=
  same_of_blank (revertTrial_frame (only [.wire, .img]) rfl rfl s) .slu rfl

/-- A detection that takes the Sluice out, a trial reverted with it. -/
theorem sluiceLost_effect (bp : Nat) (s : State) :
    (revertTrial (declareSilent (detect bp false s))).slu.silent = true ∧
      detected bp false s (revertTrial (declareSilent (detect bp false s))) := by
  obtain ⟨hs, hd⟩ := declareSilent_effect (detect bp false s)
  rw [revertTrial_slu]
  exact ⟨hs, detected_revertTrial (detected_of_dets (detAt_detect bp false s) hd)⟩

theorem sluiceSilent_effect (s : State) : ∃ t, exec (.sluiceSilent) s = .next t ∧
    (if (s.slu.silent || !s.pwr.keeper || (s.cyc.running && decide (s.slu.unalive < 4))) = true then t = s
     else t.slu.silent = true ∧ detected 0x012 false s t) := by
  refine ⟨_, rfl, ?_⟩
  split
  · rfl
  · exact sluiceLost_effect 0x012 s

theorem sluiceCode_effect (s : State) : ∃ t, exec (.sluiceCode) s = .next t ∧
    (if s.pwr.keeper = true then t.slu.silent = true ∧ detected 0x013 false s t else t = s) := by
  refine ⟨_, rfl, ?_⟩
  split
  · exact sluiceLost_effect 0x013 s
  · rfl

/-! The TRNG monitors and the watch (R222, R553). -/

theorem trngHealth_effect (pass : Bool) (s : State) (hk : s.pwr.keeper = true) : ∃ t, exec (.trngHealth pass) s = .next t ∧
    t.light = { s.light with freeze := !pass } ∧ (pass = false → detected 0x062 false s t) := by
  refine ⟨_, rfl, ?_⟩
  rw [ite_powered hk]
  cases pass with
  | true => exact ⟨rfl, (nomatch ·)⟩
  | false => exact ⟨detect_light .., fun _ => detected_detect rfl rfl 0x062 false⟩

theorem revertTrial_tp (s : State) : (revertTrial s).tp = s.tp :=
  same_of_blank (revertTrial_frame (only [.wire, .img]) rfl rfl s) .tp rfl

/-- A cause of the Towpath set before a detection does not show in it. -/
theorem detected_detect_tpSet (bp : Nat) (live : Bool) (k : Nat) (s : State) :
    detected bp live s (detect bp live (tpSet k s)) :=
  detected_detect' (tpSet_dets k s) (congrArg (·.mute) (tpSet_saf_breach k s)) (congrArg (·.number) (tpSet_cyc k s)) bp live

theorem watchExpiry_effect (s : State) : ∃ t, exec (.watchExpiry) s = .next t ∧
    (if (s.pwr.keeper && (!s.cyc.running || decide (2 ≤ s.tp.unkicked))) = true then
      t.tp.causes = s.tp.causes ||| 4 ∧ detected 0x018 false s t
     else t = s) := by
  refine ⟨_, rfl, ?_⟩
  split
  · rw [revertTrial_tp, detect_tp, tpSet_causes]
    exact ⟨rfl, detected_revertTrial (detected_detect_tpSet 0x018 false 2 s)⟩
  · rfl

/-- Settles O32: a detection is counted first or last, and what comes with it - a cause of the Towpath, the silence of the
Sluice, the revert of a trial, a table entry - changes no detector. -/
theorem memoriesClocksAndTheSluice : Obligations.MemoriesClocksAndTheSluice :=
  ⟨clockMon_effect, busTimeout_effect, emramEcc_effect, tableEcc_effect, faultNReadback_effect, sluiceSilent_effect,
    sluiceCode_effect, trngHealth_effect, watchExpiry_effect⟩

end Sys2Proof.Machine
end

section
/-! AVSBus, the ends of transitions, the entry into SLEEP and the automatic sleep (O29). -/
open Sys2Proof
namespace Sys2Proof.Machine

/-! AVSBus (R576, R577). -/

/-- The level a completed change gives, and the command that waited for it answered. -/
def levelReached (c : Avs) (s : State) : State :=
  let s := modPwr (fun p => { p with change := none, level := c.target, clk := c.target }) s
  match c.req with
  | some r => answer 0x70 2 r .ok none (encodeRec powerRec s) s
  | none => s

/-- PL0 reached on a return of VCORE: the level is restored from there. -/
def restoreNext (c : Avs) (s : State) : State :=
  modPwr (fun p => { p with
    change := if c.target = 0 then none else some { target := c.target, low := true, req := c.req } }) s

/-- The voltage that AVSBus has read. -/
def voltageRead (mv : Nat) (s : State) : State := modPwr (fun p => { p with vcoreMv := mv % 2 ^ 16 }) s

theorem exec_avsAcknowledge {c : Avs} {s : State} (h : s.pwr.change = some c) (mv : Nat) :
    exec (.avsAcknowledge mv) s = .next (if !avsGood c mv then voltageRead mv s
      else if c.restore then restoreNext c (voltageRead mv s) else levelReached c (voltageRead mv s)) := by
  refine congrArg Host.Outcome.next ?_
  rw [h]
  rfl

theorem levelReached_pwr (c : Avs) (s : State) :
    (levelReached c s).pwr = { s.pwr with change := none, level := c.target, clk := c.target } := by
  unfold levelReached
  dsimp only
  split
  · exact answer_pwr ..
  · rfl

theorem avsAcknowledge_effect (mv : Nat) (s : State) : ∃ t, exec (.avsAcknowledge mv) s = .next t ∧
    (s.pwr.change = none → t = s) ∧ (∀ c, s.pwr.change = some c → t.pwr.vcoreMv = mv % 2 ^ 16 ∧
      (avsGood c mv = false → t.pwr = { s.pwr with vcoreMv := mv % 2 ^ 16 }) ∧
      (avsGood c mv = true → c.restore = false →
        t.pwr.change = none ∧ t.pwr.level = c.target ∧ t.pwr.clk = c.target)) := by
  cases h : s.pwr.change with
  | none =>
    refine ⟨s, congrArg Host.Outcome.next ?_, fun _ => rfl, fun c => (nomatch ·)⟩
    rw [h]
  | some c =>
    refine ⟨_, exec_avsAcknowledge h mv, (nomatch ·), fun c' hc => ?_⟩
    obtain rfl : c = c' := Option.some.inj hc
    cases hg : avsGood c mv with
    | false => exact ⟨rfl, fun _ => rfl, (nomatch ·)⟩
    | true =>
      refine ⟨?_, (nomatch ·), fun _ hr => ?_⟩
      · rw [if_neg (by decide)]
        split
        · rfl
        · rw [levelReached_pwr]
          rfl
      · rw [if_neg (by decide), hr, if_neg (by decide), levelReached_pwr]
        exact ⟨rfl, rfl, rfl⟩

/-- The last attempt has failed: the change ends, the level stays where it was or at PL0, the command is answered. -/
def changeFailed (c : Avs) (s : State) : State :=
  let s := modPwr (fun p => { p with
    change := none, avsFails := sat 32 (p.avsFails + 1), level := if c.restore || c.low then 0 else p.level }) s
  let s := emit 0x7001 0 s (cause := avsTarget c)
  match c.req with
  | some r => answer 0x70 2 r .eTimeout none [] s
  | none => s

theorem changeFailed_pwr (c : Avs) (s : State) : (changeFailed c s).pwr = { s.pwr with
    change := none, avsFails := sat 32 (s.pwr.avsFails + 1), level := if c.restore || c.low then 0 else s.pwr.level } := by
  unfold changeFailed
  dsimp only
  split
  · rw [answer_pwr, emit_pwr]
    rfl
  · rw [emit_pwr]
    rfl

theorem exec_avsAttemptTimeout {c : Avs} {s : State} (h : s.pwr.change = some c) :
    exec .avsAttemptTimeout s = .next (if c.attempts < 4 then
      modPwr (fun p => { p with change := some { c with attempts := c.attempts + 1 } }) s else changeFailed c s) := by
  refine congrArg Host.Outcome.next ?_
  rw [h]
  rfl

theorem avsAttemptTimeout_effect (s : State) : ∃ t, exec (.avsAttemptTimeout) s = .next t ∧
    (s.pwr.change = none → t = s) ∧ (∀ c, s.pwr.change = some c →
      (c.attempts < 4 → t.pwr = { s.pwr with change := some { c with attempts := c.attempts + 1 } }) ∧
      (4 ≤ c.attempts → t.pwr.change = none ∧ t.pwr.avsFails = sat 32 (s.pwr.avsFails + 1))) := by
  cases h : s.pwr.change with
  | none =>
    refine ⟨s, congrArg Host.Outcome.next ?_, fun _ => rfl, fun c => (nomatch ·)⟩
    rw [h]
  | some c =>
    refine ⟨_, exec_avsAttemptTimeout h, (nomatch ·), fun c' hc => ?_⟩
    obtain rfl : c = c' := Option.some.inj hc
    refine ⟨fun hn => ?_, fun hn => ?_⟩
    · rw [if_pos hn]
      rfl
    · rw [if_neg (Nat.not_lt.mpr hn), changeFailed_pwr]
      exact ⟨rfl, rfl⟩

/-! Transitions (R581). -/

/-- The target of transition `r` is entered: to STANDBY VCORE goes off. -/
def transitionEnd (r : Trans) (s : State) : State :=
  let s := modPwr (fun p => { p with trans := none }) s
  if r.target = 2 then vcoreOff (supsStandby false (setPowerState 2 r.auto (storeNodes false s)))
  else ovfGate (supsStandby true (setPowerState r.target r.auto s))

theorem exec_transitionComplete {r : Trans} {s : State} (h : s.pwr.trans = some r) :
    exec .transitionComplete s = .next
      (if r.target = 3 ∨ s.pwr.change ≠ none ∨ cutWaits s r = true ∨ (r.target < 2 ∧ s.pwr.forced = true) then s
      else transitionEnd r s) := by
  refine congrArg Host.Outcome.next ?_
  rw [h]
  rfl

theorem transitionEnd_pwr (r : Trans) (s : State) : (transitionEnd r s).pwr.trans = none ∧
    (transitionEnd r s).pwr.state = r.target ∧ (r.target = 2 → (transitionEnd r s).pwr.vcoreEn = false) := by
  unfold transitionEnd
  dsimp only
  split
  case isTrue h =>
    rw [vcoreOff_pwr, supsStandby_pwr, setPowerState_pwr, storeNodes_pwr, h]
    exact ⟨rfl, rfl, fun _ => rfl⟩
  case isFalse h =>
    rw [ovfGate_pwr, supsStandby_pwr, setPowerState_pwr]
    exact ⟨rfl, rfl, fun h2 => absurd h2 h⟩

theorem transitionComplete_effect (s : State) : ∃ t, exec (.transitionComplete) s = .next t ∧
    (s.pwr.trans = none → t = s) ∧ (∀ r, s.pwr.trans = some r →
      (r.target = 3 ∨ s.pwr.change ≠ none → t = s) ∧
      (r.target < 3 → s.pwr.change = none → cutWaits s r = false → s.pwr.forced = false →
        t.pwr.trans = none ∧ t.pwr.state = r.target ∧ (r.target = 2 → t.pwr.vcoreEn = false))) := by
  cases h : s.pwr.trans with
  | none =>
    refine ⟨s, congrArg Host.Outcome.next ?_, fun _ => rfl, fun c => (nomatch ·)⟩
    rw [h]
  | some r =>
    refine ⟨_, exec_transitionComplete h, (nomatch ·), fun r' hr => ?_⟩
    obtain rfl : r = r' := Option.some.inj hr
    refine ⟨fun hw => if_pos (hw.imp_right .inl), fun ht hc hw hf => ?_⟩
    rw [if_neg]
    · exact transitionEnd_pwr r s
    · rintro (h3 | hn | hw' | ⟨-, hf'⟩)
      · exact Nat.ne_of_lt ht h3
      · exact hn hc
      · exact absurd (hw.symm.trans hw') (by decide)
      · exact absurd (hf.symm.trans hf') (by decide)

/-! SLEEP (R582, R583). -/

theorem exec_sleepEntry {r : Trans} {s : State} (h : s.pwr.trans = some r) : exec .sleepEntry s = .next
    (if r.target = 3 ∧ s.pwr.state = 3 ∧ cutWaits s r = false then enterSleep s else s) := by
  refine congrArg Host.Outcome.next ?_
  rw [h]

theorem enterSleep_sleptAt (s : State) : (enterSleep s).pwr.sleptAt = s.pwr.age := rfl

theorem sleepEntry_effect (s : State) : ∃ t, exec (.sleepEntry) s = .next t ∧
    (∀ r, s.pwr.trans = some r → r.target = 3 → cutWaits s r = false → s.pwr.state = 3 →
      t.pwr.slept = true ∧ t.pwr.pwrEn = false ∧ t.pwr.keeper = false ∧ t.pwr.sleptAt = s.pwr.age) ∧
    (s.pwr.trans = none ∨ s.pwr.state ≠ 3 → t = s) := by
  cases h : s.pwr.trans with
  | none =>
    refine ⟨s, congrArg Host.Outcome.next ?_, fun r => (nomatch ·), fun _ => rfl⟩
    rw [h]
  | some r =>
    refine ⟨_, exec_sleepEntry h, fun r' hr ht hw hs => ?_, fun hn => if_neg fun hc => ?_⟩
    · obtain rfl : r = r' := Option.some.inj hr
      rw [if_pos ⟨ht, hs, hw⟩]
      obtain ⟨hsl, hp, hk, -, -⟩ := enterSleep_pwr s
      exact ⟨hsl, hp, hk, enterSleep_sleptAt s⟩
    · exact hn.elim (nomatch ·) fun h3 => h3 hc.2.1

/-- The conditions of the automatic sleep have held for `auto_sleep_hold`. -/
def quietLong (s : State) : Bool :=
  match s.pwr.quietAt with
  | some t => decide (t + s.pwr.hold * 1000000 ≤ s.tide.counter)
  | none => false

/-- POWER_ENTER of SLEEP staged by the device itself. -/
def stageSleep (s : State) : State :=
  modCyc (fun c => { c with staged := c.staged ++
    [{ due := if c.pastCutoff then 1 else 0, cls := 0x70, req := { pound := 0 }, op := .act 1 [3, 1], outside := true, reply := false }] }) s

theorem exec_autoSleep (s : State) : exec .autoSleep s = .next (if autoQuiet s && quietLong s then stageSleep s else s) :=
  rfl

theorem autoQuiet_eq_false {s : State} (h : s.pwr.auto = false ∨ s.fv.started = false ∨ 3 ≤ s.pwr.state ∨ wakeReason s = true) :
    autoQuiet s = false := by
  rcases h with h | h | h | h
  · simp [autoQuiet, h]
  · simp [autoQuiet, h]
  · simp [autoQuiet, Nat.not_lt.mpr h]
  · simp [autoQuiet, h]

theorem autoQuiet_eq_true {s : State} (ha : s.pwr.auto = true) (hs : s.fv.started = true) (h3 : s.pwr.state < 3)
    (hw : wakeReason s = false)
    (hk : ∀ k, k < 32 → (nmcAt s k).en = true → (nmcAt s k).state = .moored ∧ (nmcAt s k).claims = 0) :
    autoQuiet s = true := by
  have hall : (List.range 32).all
      (fun k => let n := nmcAt s k; !n.en || (decide (n.state = .moored) && decide (n.claims = 0))) = true := by
    rw [List.all_eq_true]
    intro k hm
    cases he : (nmcAt s k).en with
    | false => simp [he]
    | true => simp [hk k (List.mem_range.mp hm) he]
  simp only [autoQuiet, ha, hs, h3, hw, hall, decide_true, Bool.not_false, Bool.and_self]

theorem quietLong_of_some {s : State} {q : Nat} (h : s.pwr.quietAt = some q) :
    quietLong s = decide (q + s.pwr.hold * 1000000 ≤ s.tide.counter) := by
  rw [quietLong, h]

theorem autoSleep_effect (s : State) : ∃ t, exec (.autoSleep) s = .next t ∧
    (s.pwr.auto = false ∨ s.fv.started = false ∨ 3 ≤ s.pwr.state ∨ wakeReason s = true ∨ s.pwr.quietAt = none → t = s) ∧
    (∀ q, s.pwr.auto = true → s.fv.started = true → s.pwr.state < 3 → wakeReason s = false →
      (∀ k, k < 32 → (nmcAt s k).en = true → (nmcAt s k).state = .moored ∧ (nmcAt s k).claims = 0) →
      s.pwr.quietAt = some q → q + s.pwr.hold * 1000000 ≤ s.tide.counter →
      t.cyc.staged = s.cyc.staged ++ [{ due := if s.cyc.pastCutoff then 1 else 0, cls := 0x70, req := { pound := 0 }, op := .act 1 [3, 1], outside := true, reply := false }]) := by
  refine ⟨_, exec_autoSleep s, fun h => if_neg ?_, fun q ha hs h3 hw hk hq ht => ?_⟩
  · rcases h with h | h | h | h | h
    · simp [autoQuiet_eq_false (.inl h)]
    · simp [autoQuiet_eq_false (.inr (.inl h))]
    · simp [autoQuiet_eq_false (.inr (.inr (.inl h)))]
    · simp [autoQuiet_eq_false (.inr (.inr (.inr h)))]
    · simp [quietLong, h]
  · rw [autoQuiet_eq_true ha hs h3 hw hk, quietLong_of_some hq, decide_eq_true ht, if_pos (by decide)]
    rfl

/-- Settles O29: each command is taken apart along the change or the transition in progress; the power record is what
every branch leaves of it. -/
theorem levelsAndPowerStates : Obligations.LevelsAndPowerStates :=
  ⟨avsAcknowledge_effect, avsAttemptTimeout_effect, transitionComplete_effect, sleepEntry_effect, autoSleep_effect⟩

end Sys2Proof.Machine
end

section
/-! Starts, their firmware and their completion, failed starts, and the restart of the Lockkeeper (O42). -/
open Sys2Proof
namespace Sys2Proof.Machine

/-! What the shared operations of a start leave alone. -/

theorem bootChoose_same (r : Region) (hr : only [.wire, .img] r = false) (s : State) : r.same s (bootChoose s) :=
  same_of_blank (bootChoose_frame (only [.wire, .img]) rfl rfl s) r hr

theorem assignCores_same (r : Region) (hr : only [.pond, .aps] r = false) (s : State) : r.same s (assignCores s) :=
  same_of_blank (assignCores_frame (only [.pond, .aps]) rfl rfl s) r hr

theorem trainPorts_same (r : Region) (hr : only [.tow] r = false) (s : State) : r.same s (trainPorts s) :=
  same_of_blank (trainPorts_frame (only [.tow]) rfl s) r hr

theorem startTimer_same (r : Region) (hr : only [.cyc, .wire, .fio] r = false) (s : State) : r.same s (startTimer s) :=
  same_of_blank (startTimer_frame (only [.cyc, .wire, .fio]) rfl rfl rfl s) r hr

theorem readLatches_same (r : Region) (hr : only [.wire] r = false) (s : State) : r.same s (readLatches s) :=
  same_of_blank (readLatches_frame (only [.wire]) rfl s) r hr

theorem mapMemories_same (r : Region) (hr : only [.sys, .wire] r = false) (ddr xspi : Nat) (s : State) :
    r.same s (mapMemories ddr xspi s) :=
  same_of_blank (mapMemories_frame (only [.sys, .wire]) rfl rfl ddr xspi s) r hr

theorem measure_same (r : Region) (hr : only [.light, .free] r = false) (s : State) : r.same s (measure s) :=
  same_of_blank (measure_frame (only [.light, .free]) rfl rfl s) r hr

theorem setDevState_same (r : Region) (hr : only [.fv, .wire] r = false) (d : Nat) (s : State) : r.same s (setDevState d s) :=
  same_of_blank (setDevState_frame (only [.fv, .wire]) rfl rfl d s) r hr

theorem enumBegin_same (r : Region) (hr : only [.wire, .tow] r = false) (s : State) : r.same s (enumBegin s) :=
  same_of_blank (enumBegin_frame (only [.wire, .tow]) rfl rfl s) r hr

/-- Where the PLLs lock, the power record notes it. -/
theorem clocksOn_pwr (s : State) : (clocksOn s).pwr = { s.pwr with pll := true } := by
  unfold clocksOn
  dsimp only
  split
  · rfl
  · exact startTimer_same .pwr rfl _

theorem clocksOn_same (r : Region) (hr : only [.cyc, .tide, .wire, .fio, .pwr] r = false) (s : State) :
    r.same s (clocksOn s) :=
  same_of_blank (clocksOn_frame (only [.cyc, .tide, .wire, .fio, .pwr]) rfl rfl rfl rfl rfl s) r hr

theorem fw_of_core {s t : State} (h : Region.fv.same s t) : t.fv.fw = s.fv.fw := congrArg (·.fw) h

theorem started_of_core {s t : State} (h : Region.fv.same s t) : t.fv.started = s.fv.started := congrArg (·.started) h

theorem devState_of_core {s t : State} (h : Region.fv.same s t) : t.fv.devState = s.fv.devState := congrArg (·.devState) h

/-- `dev_state` takes its value; of Faval only the windows change beside it. -/
theorem setDevState_core (d : Nat) (s : State) : (setDevState d s).fv.core = { s.fv.core with devState := d } := by
  unfold setDevState
  split
  case isTrue h => rw [← h]; rfl
  case isFalse =>
    refine (foldl_keep (keep := fun s => s.fv.core) (fun u p => ?_) _ _).trans rfl
    split <;> rfl

/-! The image record (R598-R602). -/

/-- Beside banks, slots and the boot record the image record stands, and the boot record keeps its failures. -/
def BootKept (s t : State) : Prop :=
  t.img.held = s.img.held ∧ t.img.lkReset = s.img.lkReset ∧ t.img.boot.lastFail = s.img.boot.lastFail ∧
    t.img.boot.fails = s.img.boot.fails

theorem BootKept.trans {s t u : State} (h : BootKept s t) (k : BootKept t u) : BootKept s u := by
  obtain ⟨h1, h2, h3, h4⟩ := h
  obtain ⟨k1, k2, k3, k4⟩ := k
  exact ⟨k1.trans h1, k2.trans h2, k3.trans h3, k4.trans h4⟩

theorem BootKept.ite {c : Prop} [Decidable c] {s a b : State} (ha : BootKept s a) (hb : BootKept s b) :
    BootKept s (if c then a else b) := by
  split
  · exact ha
  · exact hb

theorem setBankState_boot (b st : Nat) (s : State) : (setBankState b st s).img.boot = s.img.boot := by
  unfold setBankState
  split <;> rfl

theorem setBankState_bootKept (b st : Nat) (s : State) : BootKept s (setBankState b st s) := by
  unfold setBankState
  split <;> exact ⟨rfl, rfl, rfl, rfl⟩

theorem setSlotState_bootKept (k st : Nat) (s : State) : BootKept s (setSlotState k st s) := by
  unfold setSlotState
  split <;> exact ⟨rfl, rfl, rfl, rfl⟩

/-- The chart that a trial brought in leaves with it. -/
def revertChart (s : State) : State :=
  if s.img.boot.chartTrial then
    setSlotState s.img.boot.chart 0 (writeBoot (fun r => { r with chart := other r.chart, chartTrial := false }) s)
  else s

/-- The trial's bank gives way to the other one. -/
def revertBank (b : Nat) (s : State) : State :=
  setBankState (other b) 3 (setBankState b 2 (writeBoot (fun r => { r with active := other b, trial := false, trialS := 0 }) s))

theorem revertTrial_eq {s : State} (h : s.img.boot.trial = true) : revertTrial s =
    emit 0x8001 (other s.img.boot.active) (revertBank s.img.boot.active (revertChart s)) (cause := other s.img.boot.active)
      (flags := 2) (value := ((revertBank s.img.boot.active (revertChart s)).cyc.number + 1) % 2 ^ 48) := by
  unfold revertTrial
  rw [h]
  rfl

theorem revertChart_bootKept (s : State) : BootKept s (revertChart s) := by
  unfold revertChart
  split
  · exact BootKept.trans (t := writeBoot (fun r => { r with chart := other r.chart, chartTrial := false }) s)
      ⟨rfl, rfl, rfl, rfl⟩ (setSlotState_bootKept _ _ _)
  · exact ⟨rfl, rfl, rfl, rfl⟩

theorem revertBank_effect (b : Nat) (s : State) : BootKept s (revertBank b s) ∧ (revertBank b s).img.boot.trial = false := by
  unfold revertBank
  refine ⟨?_, by rw [setBankState_boot, setBankState_boot]; rfl⟩
  exact BootKept.trans (t := writeBoot (fun r => { r with active := other b, trial := false, trialS := 0 }) s)
    ⟨rfl, rfl, rfl, rfl⟩ ((setBankState_bootKept _ _ _).trans (setBankState_bootKept _ _ _))

/-- After the revert no trial is left. -/
theorem revertTrial_effect (s : State) : BootKept s (revertTrial s) ∧ (revertTrial s).img.boot.trial = false := by
  cases h : s.img.boot.trial with
  | false =>
    have e : revertTrial s = s := if_pos (by rw [h]; rfl)
    rw [e]
    exact ⟨⟨rfl, rfl, rfl, rfl⟩, h⟩
  | true =>
    obtain ⟨hk, ht⟩ := revertBank_effect s.img.boot.active (revertChart s)
    rw [revertTrial_eq h, BootKept, emit_img]
    exact ⟨(revertChart_bootKept s).trans hk, ht⟩

/-- A trial whose bank has failed to start is over when the image is chosen. -/
theorem bootChoose_bootKept (s : State) : BootKept s (bootChoose s) := by
  have hs : BootKept s s := ⟨rfl, rfl, rfl, rfl⟩
  have hk : BootKept s (if (s.img.boot.trial && decide (1 ≤ triesOf s s.img.boot.active)) = true then revertTrial s else s) :=
    BootKept.ite (revertTrial_effect s).1 hs
  exact BootKept.ite hs (BootKept.ite hk hk)

/-! START (R586). -/

theorem flag_bit (k : Nat) (b : Bool) (j : Nat) : (flag k b).testBit j = (b && decide (k = j)) := by
  cases b with
  | false => simp [flag]
  | true => simp [flag, Nat.testBit_two_pow]

/-- The keeper domain as it leaves reset, before the copies of the Towpath table are read. -/
def keeperUp (src det : Nat) (tugSel : Bool) (s : State) : State :=
  { s with
    sys := { s.sys with rstN := true, tugSelN := tugSel, role := if tugSel then .barge else .standalone }
    fio := { clsHold := s.fio.clsHold }
    lin := {}
    nm := { log := s.nm.log }
    tide := {}
    pwr := { pwrEn := true, keeper := true, source := src, detail := det, sleepPath := s.pwr.sleepPath
             sleepS := if s.pwr.slept then (s.pwr.age - s.pwr.sleptAt) / nsPerSec else s.pwr.sleepS
             starts := sat 32 (s.pwr.starts + 1), cause := none, lastWake := s.pwr.lastWake, rails := s.pwr.rails
             lastArm := s.pwr.lastArm, age := s.pwr.age, deafAt := if s.pwr.slept then s.pwr.age else s.pwr.deafAt
             reasonAt := s.pwr.reasonAt } }

/-- The causes of the Towpath at a start. -/
def startCauses (src : Nat) (s : State) : State :=
  modTp (fun t => { t with causes := 1 + flag 1 (decide (src = 1) && !s.sys.limpN), stepAt := s.pwr.age }) s

/-- The start reported, the cores assigned and the image chosen. -/
def startChosen (src det : Nat) (s : State) : State :=
  bootChoose (assignCores (emit 0x7003 0x20 (emit 0x1701 0 (faultFall s) (cause := (faultFall s).tp.causes))
    (cause := src) (value := det)))

/-- A train's ports come up on a barge, the clocks where the reference is valid. -/
def startPorts (tugSel ref : Bool) (s : State) : State :=
  let s := if tugSel then trainPorts s else s
  if ref then clocksOn s else s

theorem startKeeper_eq (src det : Nat) (tugSel ref : Bool) (s : State) : startKeeper src det tugSel ref s =
    startPorts tugSel ref (startChosen src det (startCauses src (useCopies (keeperUp src det tugSel s)))) := by
  unfold startKeeper startChosen startCauses startPorts keeperUp
  dsimp only
  rw [faultFall_tp]

theorem startChosen_keeps (src det : Nat) (s : State) : (startChosen src det s).pwr = s.pwr ∧
    (startChosen src det s).sys = s.sys ∧ (startChosen src det s).tp = s.tp := by
  unfold startChosen
  rw [show (bootChoose _).pwr = _ from bootChoose_same .pwr rfl _, show (bootChoose _).sys = _ from bootChoose_same .sys rfl _,
    show (bootChoose _).tp = _ from bootChoose_same .tp rfl _, show (assignCores _).pwr = _ from assignCores_same .pwr rfl _,
    show (assignCores _).sys = _ from assignCores_same .sys rfl _, show (assignCores _).tp = _ from assignCores_same .tp rfl _]
  simp only [emit_pwr, emit_sys, emit_tp, faultFall_pwr, faultFall_sys, faultFall_tp, and_self]

theorem startPorts_keeps (tugSel ref : Bool) (s : State) : (startPorts tugSel ref s).pwr = { s.pwr with pll := ref || s.pwr.pll } ∧
    (startPorts tugSel ref s).sys = s.sys ∧ (startPorts tugSel ref s).tp = s.tp := by
  unfold startPorts
  dsimp only
  generalize hu : (if tugSel = true then trainPorts s else s) = u
  have hk : u.pwr = s.pwr ∧ u.sys = s.sys ∧ u.tp = s.tp := by
    rw [← hu]
    split
    · exact ⟨trainPorts_same .pwr rfl s, trainPorts_same .sys rfl s, trainPorts_same .tp rfl s⟩
    · exact ⟨rfl, rfl, rfl⟩
  obtain ⟨hp, hs, ht⟩ := hk
  cases ref with
  | false => exact ⟨hp, hs, ht⟩
  | true =>
    refine ⟨(clocksOn_pwr u).trans (by rw [hp]; rfl), ?_, ?_⟩
    · exact (clocksOn_same .sys rfl u).trans hs
    · exact (clocksOn_same .tp rfl u).trans ht

theorem useCopies_keeps (s : State) : (useCopies s).pwr = s.pwr ∧ (useCopies s).sys = s.sys :=
  ⟨same_of_blank (useCopies_frame (only [.wire, .tp]) rfl rfl s) .pwr rfl,
    same_of_blank (useCopies_frame (only [.wire, .tp]) rfl rfl s) .sys rfl⟩

theorem startKeeper_effect (src det : Nat) (tugSel ref : Bool) (s : State) :
    (startKeeper src det tugSel ref s).pwr = { (keeperUp src det tugSel s).pwr with pll := ref } ∧
    (startKeeper src det tugSel ref s).sys = (keeperUp src det tugSel s).sys ∧
    (startKeeper src det tugSel ref s).tp.causes = 1 + flag 1 (decide (src = 1) && !s.sys.limpN) := by
  rw [startKeeper_eq]
  obtain ⟨hu, hus⟩ := useCopies_keeps (keeperUp src det tugSel s)
  obtain ⟨hc, hcs, hct⟩ := startChosen_keeps src det (startCauses src (useCopies (keeperUp src det tugSel s)))
  obtain ⟨hp, hps, hpt⟩ :=
    startPorts_keeps tugSel ref (startChosen src det (startCauses src (useCopies (keeperUp src det tugSel s))))
  rw [hp, hps, hpt, hc, hcs, hct, startCauses, modTp_pwr, modTp_sys, modTp_tp, hu, hus]
  exact ⟨congrArg (fun b => { (keeperUp src det tugSel s).pwr with pll := b }) (Bool.or_false ref), rfl, rfl⟩

theorem start_effect (tugSel ref : Bool) (s : State) : ∃ t, exec (.start tugSel ref) s = .next t ∧
    (startDue s = none → t = s) ∧ (∀ src det, startDue s = some (src, det) →
      t.pwr.keeper = true ∧ t.pwr.pwrEn = true ∧ t.pwr.source = src ∧ t.pwr.detail = det ∧
      t.pwr.starts = sat 32 (s.pwr.starts + 1) ∧ t.pwr.pll = ref ∧
      t.sys.role = (if tugSel then .barge else .standalone) ∧
      t.tp.causes = 1 + flag 1 (decide (src = 1) && !s.sys.limpN)) := by
  cases h : startDue s with
  | none =>
    refine ⟨s, congrArg Host.Outcome.next ?_, fun _ => rfl, fun _ _ => (nomatch ·)⟩
    rw [h]
  | some c =>
    obtain ⟨src, det⟩ := c
    have he : exec (.start tugSel ref) s = .next (startKeeper src det tugSel ref s) := by
      refine congrArg Host.Outcome.next ?_
      rw [h]
    refine ⟨_, he, (nomatch ·), fun src' det' hc => ?_⟩
    cases hc
    obtain ⟨hp, hs, ht⟩ := startKeeper_effect src det tugSel ref s
    rw [hp, hs, ht]
    exact ⟨rfl, rfl, rfl, rfl, rfl, rfl, rfl, rfl⟩

/-! FIRMWARE_RUN (R590, R594). -/

theorem measure_start (s : State) : (measure s).light.start.length = 8 := rfl

/-- The firmware runs, its first cycle is noted while a trial runs, and the latches are read. -/
def firmwareUp (s : State) : State :=
  let s := modFv (fun v => { v with fw := true }) s
  readLatches (modImg (fun i => { i with first := if s.img.boot.trial then s.cyc.number else i.first }) s)

/-- Everything is loaded at a start that is no restart of the Lockkeeper. -/
def firmwareLoad (ddr xspi : Nat) (lost bad : List Nat) (s : State) : State :=
  let s := loadAll ddr xspi (keyScan lost bad s)
  if s.pwr.sleepPath then emit 0x2205 0x200 s else s

theorem firmwareUp_keeps (s : State) : (firmwareUp s).pwr = s.pwr ∧ (firmwareUp s).sys = s.sys ∧
    (firmwareUp s).img.lkReset = s.img.lkReset ∧ (firmwareUp s).fv.fw = true := by
  have hi : (firmwareUp s).img = _ := readLatches_same .img rfl _
  exact ⟨readLatches_same .pwr rfl _, readLatches_same .sys rfl _, (congrArg Img.lkReset hi).trans rfl, fw_of_core (readLatches_same .fv rfl _)⟩

theorem exec_firmwareRun (ddr xspi : Nat) (lost bad : List Nat) (s : State) : exec (.firmwareRun ddr xspi lost bad) s = .next
    (if !starting s || s.fv.fw || !s.pwr.pll || !loadable s then s
    else if (firmwareUp s).img.lkReset then measure (mapMemories ddr xspi (loadDiff (firmwareUp s)))
    else measure (firmwareLoad ddr xspi lost bad (firmwareUp s))) := by
  show execFirmwareRun ddr xspi lost bad s = _
  unfold execFirmwareRun firmwareLoad firmwareUp
  dsimp only

theorem loadAll_pwr (ddr xspi : Nat) (s : State) : (loadAll ddr xspi s).pwr.vcoreEn = true ∧ (loadAll ddr xspi s).pwr.clk = 0 := by
  unfold loadAll
  dsimp only
  rw [ovfGate_pwr, modPwr_pwr]
  exact ⟨rfl, rfl⟩

theorem firmwareLoad_pwr (ddr xspi : Nat) (lost bad : List Nat) (s : State) :
    (firmwareLoad ddr xspi lost bad s).pwr.vcoreEn = true ∧ (firmwareLoad ddr xspi lost bad s).pwr.clk = 0 := by
  unfold firmwareLoad
  dsimp only
  rw [apply_ite State.pwr, emit_pwr, ite_self]
  exact loadAll_pwr ddr xspi _

theorem loadDiff_of_barge {s : State} (h : s.sys.role = .barge) : loadDiff s = s := if_pos (.inl h)

theorem firmwareRun_effect (ddr xspi : Nat) (lost bad : List Nat) (s : State) :
    ∃ t, exec (.firmwareRun ddr xspi lost bad) s = .next t ∧
      (starting s = false ∨ s.fv.fw = true ∨ s.pwr.pll = false ∨ loadable s = false → t = s) ∧
      (starting s = true → s.fv.fw = false → s.pwr.pll = true → loadable s = true →
        (s.img.lkReset = false → t.pwr.vcoreEn = true ∧ t.pwr.clk = 0 ∧ t.light.start.length = 8) ∧
        (s.img.lkReset = true → t.light.start.length = 8 ∧ (s.sys.role = .barge → t.fv.fw = true ∧ t.pwr = s.pwr))) := by
  refine ⟨_, exec_firmwareRun ddr xspi lost bad s, fun h => if_pos ?_, fun hs hf hp hl => ?_⟩
  · rcases h with h | h | h | h <;> simp [h]
  rw [if_neg (by simp [hs, hf, hp, hl])]
  obtain ⟨hpw, hsy, hlk, hfw⟩ := firmwareUp_keeps s
  rw [hlk]
  refine ⟨fun hr => ?_, fun hr => ?_⟩ <;> rw [hr]
  · rw [if_neg (by decide), show (measure _).pwr = _ from measure_same .pwr rfl _]
    obtain ⟨hv, hc⟩ := firmwareLoad_pwr ddr xspi lost bad (firmwareUp s)
    exact ⟨hv, hc, measure_start _⟩
  · rw [if_pos rfl]
    refine ⟨measure_start _, fun hb => ?_⟩
    rw [loadDiff_of_barge (hsy ▸ hb), show (measure _).pwr = _ from measure_same .pwr rfl _,
      fw_of_core (measure_same .fv rfl _), fw_of_core (mapMemories_same .fv rfl _ _ _)]
    exact ⟨hfw, (mapMemories_same .pwr rfl ddr xspi _).trans hpw⟩

/-! START_COMPLETE (R590, R593). -/

/-- The causes that a completed start leaves: START and WATCH are cleared, LIMP and SLUICE set as the Lockkeeper finds
them. -/
def completeCauses (s : State) : Nat :=
  let c := if bitOf 0 s.tp.causes then s.tp.causes - 1 else s.tp.causes
  let c := if bitOf 2 c then c - 4 else c
  c ||| flag 1 (!s.sys.limpN) ||| flag 3 s.slu.silent

theorem testBit_zero_two_cleared (n : Nat) :
    let a := if bitOf 0 n then n - 1 else n
    let b := if bitOf 2 a then a - 4 else a
    b.testBit 0 = false ∧ b.testBit 2 = false := by
  have h0 (m : Nat) : bitOf 0 m = decide (m % 2 = 1) := by rw [bitOf_eq_testBit, Nat.testBit_zero]
  have h2 (m : Nat) : bitOf 2 m = decide (m / 4 % 2 = 1) := by
    rw [bitOf_eq_testBit, Nat.testBit_eq_decide_div_mod_eq]
  dsimp only
  rw [← bitOf_eq_testBit, ← bitOf_eq_testBit, h0, h0, h2, h2]
  simp only [decide_eq_true_eq, decide_eq_false_iff_not]
  split <;> split <;> omega

theorem completeCauses_bits (s : State) : (completeCauses s).testBit 0 = false ∧ (completeCauses s).testBit 2 = false := by
  obtain ⟨h0, h2⟩ := testBit_zero_two_cleared s.tp.causes
  unfold completeCauses
  dsimp only
  simp only [Nat.testBit_or, flag_bit, h0, h2, Bool.false_or]
  exact ⟨by simp, by simp⟩

/-- The boot record of a completed start. -/
def bootCompleted (s : State) : State :=
  modImg (fun i => { i with lkReset := false }) (writeBoot (fun r => { r with
    triesA := if s.img.running = some 0 then 0 else r.triesA
    triesB := if s.img.running = some 1 then 0 else r.triesB
    backoff := 0, starts := sat 32 (r.starts + 1) }) s)

/-- The Lockkeeper's start sequence is complete. -/
def startedUp (s : State) : State :=
  setDevState 1 (setTpCauses (completeCauses s) (modFv (fun v => { v with started := true }) s))

/-- A tug begins the enumeration of its train. -/
def tugEnum (s : State) : State := if s.sys.role = .tug then enumBegin s else s

theorem completeStart_eq (s : State) : completeStart s =
    if s.img.recovery then setDevState 3 (bootCompleted s) else tugEnum (startedUp (bootCompleted s)) := rfl

theorem tugEnum_same (r : Region) (hr : only [.wire, .tow] r = false) (s : State) : r.same s (tugEnum s) := by
  unfold tugEnum
  split
  · exact enumBegin_same r hr s
  · exact r.same_refl s

theorem startedUp_effect (s : State) : (startedUp s).img = s.img ∧ (startedUp s).tp.causes = completeCauses s ∧
    (startedUp s).fv.devState = 1 ∧ (startedUp s).fv.started = true := by
  have hc := setDevState_core 1 (setTpCauses (completeCauses s) (modFv (fun v => { v with started := true }) s))
  rw [setTpCauses_fv_fv] at hc
  have ht : (startedUp s).tp = (setTpCauses (completeCauses s) _).tp := setDevState_same .tp rfl 1 _
  have hi : (startedUp s).img = (setTpCauses (completeCauses s) _).img := setDevState_same .img rfl 1 _
  refine ⟨?_, ?_, ?_, ?_⟩
  · exact hi.trans (setTpCauses_img _ _)
  · exact (congrArg Tp.causes ht).trans (setTpCauses_causes _ _)
  · exact (congrArg Fv.devState hc :)
  · exact (congrArg Fv.started hc :)

theorem completeStart_effect (s : State) :
    (completeStart s).img.boot.backoff = 0 ∧ (completeStart s).img.lkReset = false ∧
    (s.img.recovery = true → (completeStart s).fv.devState = 3) ∧
    (s.img.recovery = false → (completeStart s).fv.devState = 1 ∧ (completeStart s).fv.started = true ∧
      (completeStart s).tp.causes.testBit 0 = false ∧ (completeStart s).tp.causes.testBit 2 = false) := by
  rw [completeStart_eq]
  cases s.img.recovery with
  | true =>
    rw [if_pos rfl, show (setDevState 3 _).img = _ from setDevState_same .img rfl 3 _]
    exact ⟨rfl, rfl, fun _ => (congrArg Fv.devState (setDevState_core 3 (bootCompleted s)) :), (nomatch ·)⟩
  | false =>
    obtain ⟨hi, ht, hd, hs⟩ := startedUp_effect (bootCompleted s)
    have h0 := completeCauses_bits (bootCompleted s)
    have hv := tugEnum_same .fv rfl (startedUp (bootCompleted s))
    rw [if_neg (by decide), show (tugEnum _).img = _ from tugEnum_same .img rfl _,
      show (tugEnum _).tp = _ from tugEnum_same .tp rfl _, devState_of_core hv, started_of_core hv, hi, ht, hd, hs]
    exact ⟨rfl, rfl, (nomatch ·), fun _ => ⟨rfl, rfl, h0⟩⟩

theorem startComplete_effect (s : State) : ∃ t, exec (.startComplete) s = .next t ∧
    ((starting s = false ∨ s.fv.fw = false ∨ verified s = false ∨
      (s.img.recovery = false ∧ (s.img.alive = false ∨ s.img.clean = false))) → t = s) ∧
    (starting s = true → s.fv.fw = true → verified s = true →
      (s.img.recovery = true ∨ (s.img.alive = true ∧ s.img.clean = true)) →
      t.img.boot.backoff = 0 ∧ t.img.lkReset = false ∧ (s.img.recovery = true → t.fv.devState = 3) ∧
      (s.img.recovery = false → t.fv.devState = 1 ∧ t.fv.started = true ∧ t.tp.causes.testBit 0 = false ∧
        t.tp.causes.testBit 2 = false)) := by
  refine ⟨_, rfl, fun h => if_neg ?_, fun hs hf hv hr => ?_⟩
  · rcases h with h | h | h | ⟨h, h' | h'⟩ <;> simp [h]
    · simp [h']
    · simp [h']
  · rw [if_pos]
    · exact completeStart_effect s
    · rcases hr with h | ⟨ha, hc⟩
      · simp [hs, hf, hv, h]
      · simp [hs, hf, hv, ha, hc]

/-! Failed starts (R592, R593). -/

/-- The boot record of a failed start. -/
def bootFailed (cause : Nat) (s : State) : State :=
  let bank := if s.img.recovery then none else s.img.running
  writeBoot (fun r => { r with
    triesA := if bank = some 0 then sat 8 (r.triesA + 1) else r.triesA
    triesB := if bank = some 1 then sat 8 (r.triesB + 1) else r.triesB
    backoff := sat 8 (r.backoff + 1), lastFail := cause, fails := sat 32 (r.fails + 1) }) s

/-- The firmware is out, and a trial with it. -/
def firmwareOut (s : State) : State := revertTrial (modFv (fun v => { v with fw := false, started := false }) s)

/-- The keeper domain held in reset but for the Towpath and the field I/O block. -/
def keeperHeld (s : State) : State :=
  let t := keeperDown s
  { t with
    tp := s.tp, fio := s.fio, pow := s.pow, mot := s.mot
    saf := { t.saf with dets := s.saf.dets, faultN := s.saf.faultN, faultAt := s.saf.faultAt }
    fv := { t.fv with latched := s.fv.latched }
    sys := { t.sys with role := s.sys.role }
    pwr := { t.pwr with keeper := true }
    img := { t.img with held := true, heldAt := s.pwr.age } }

theorem failStart_eq (cause : Nat) (s : State) : failStart cause s = tpSet 0 (keeperHeld (firmwareOut (bootFailed cause s))) := rfl

theorem tpSet_zero_odd (s : State) : (tpSet 0 s).tp.causes % 2 = 1 := by
  have h := bitOf_or_two_pow 0 s.tp.causes
  rw [bitOf_eq_testBit, Nat.testBit_zero, decide_eq_true_eq] at h
  rw [tpSet_causes]
  exact h

theorem failStart_effect (cause : Nat) (s : State) : (failStart cause s).img.held = true ∧ (failStart cause s).fv.fw = false ∧
    (failStart cause s).fv.started = false ∧ (failStart cause s).img.running = none ∧
    (failStart cause s).img.boot.lastFail = cause ∧ (failStart cause s).img.boot.fails = sat 32 (s.img.boot.fails + 1) ∧
    (failStart cause s).img.boot.trial = false ∧ (failStart cause s).tp.causes % 2 = 1 := by
  rw [failStart_eq, tpSet_img, fw_of_core (tpSet_fv_fv 0 _), started_of_core (tpSet_fv_fv 0 _)]
  obtain ⟨⟨-, -, hl, hf⟩, ht⟩ :=
    revertTrial_effect (modFv (fun v => { v with fw := false, started := false }) (bootFailed cause s))
  exact ⟨rfl, rfl, rfl, rfl, hl, hf, ht, tpSet_zero_odd _⟩

/-- A cause of the Towpath and a detection come before the start fails; neither reaches the boot record. -/
theorem img_tpSet_detect (k bp : Nat) (live : Bool) (s : State) : (tpSet k (detect bp live s)).img = s.img := by
  rw [tpSet_img, detect_img]

theorem referenceTimeout_effect (s : State) : ∃ t, exec (.referenceTimeout) s = .next t ∧
    (starting s = false ∨ s.pwr.pll = true → t = s) ∧ (starting s = true → s.pwr.pll = false → t.img.held = true ∧
      t.fv.fw = false ∧ t.fv.started = false ∧ t.img.running = none ∧ t.img.boot.lastFail = 6 ∧
      t.img.boot.fails = sat 32 (s.img.boot.fails + 1) ∧ t.img.boot.trial = false ∧ t.tp.causes % 2 = 1) := by
  refine ⟨_, rfl, fun h => if_neg ?_, fun hs hp => ?_⟩
  · rcases h with h | h <;> simp [h]
  · rw [if_pos (by simp [hs, hp])]
    have h := failStart_effect 6 (tpSet 2 (detect 0x01B false s))
    rw [img_tpSet_detect] at h
    exact h

/-- A failure of the Lockkeeper's memory is detected before the start fails. -/
def failureSeen (cause : Nat) (s : State) : State := if cause = 5 then tpSet 2 (detect 0x021 false s) else s

theorem startFailure_effect (cause : Nat) (s : State) (h1 : 1 ≤ cause) (h7 : cause ≤ 7) :
    ∃ t, exec (.startFailure cause) s = .next t ∧
      (starting s = false → t = s) ∧ (starting s = true → t.img.held = true ∧ t.fv.fw = false ∧ t.fv.started = false ∧
        t.img.running = none ∧ t.img.boot.lastFail = cause ∧ t.img.boot.fails = sat 32 (s.img.boot.fails + 1) ∧
        t.img.boot.trial = false ∧ t.tp.causes % 2 = 1) := by
  have he : exec (.startFailure cause) s = .next (if !starting s then s else failStart cause (failureSeen cause s)) :=
    guardUnit_of_ok (decide_eq_true ⟨h1, h7⟩) _
  refine ⟨_, he, fun h => if_pos (by rw [h]; rfl), fun h => ?_⟩
  have hi : (failureSeen cause s).img = s.img :=
    (apply_ite State.img _ _ _).trans (ite_frame _ (img_tpSet_detect 2 0x021 false s) rfl)
  rw [h, if_neg (by decide), ← hi]
  exact failStart_effect cause (failureSeen cause s)

/-- The image is chosen anew, and the cores are assigned, once the hold is over. -/
def retryChosen (s : State) : State := bootChoose (assignCores (modImg (fun i => { i with held := false }) s))

/-- The role that stands: a barge stays one. -/
def retryRole (s : State) : State :=
  if s.sys.role = .barge then trainPorts s else modSys (fun v => { v with role := .standalone }) s

theorem exec_startRetry (ref : Bool) (s : State) : exec (.startRetry ref) s = .next
    (if s.img.held && decide (0 ∉ s.pwr.rails ∧ 3 ∉ s.pwr.rails) &&
      decide (s.img.heldAt + backoffNs s.img.boot.backoff ≤ s.pwr.age) then
      if ref then clocksOn (retryRole (retryChosen s)) else retryRole (retryChosen s)
    else s) := rfl

theorem retryChosen_keeps (s : State) : (retryChosen s).img.held = false ∧ (retryChosen s).pwr = s.pwr ∧
    (retryChosen s).sys = s.sys := by
  obtain ⟨hh, -, -, -⟩ := bootChoose_bootKept (assignCores (modImg (fun i => { i with held := false }) s))
  have hi : (assignCores (modImg (fun i => { i with held := false }) s)).img = _ := assignCores_same .img rfl _
  rw [hi] at hh
  refine ⟨hh, (bootChoose_same .pwr rfl _).trans (assignCores_same .pwr rfl _), ?_⟩
  exact (bootChoose_same .sys rfl _).trans (assignCores_same .sys rfl _)

theorem retryRole_keeps (s : State) : (retryRole s).img = s.img ∧ (retryRole s).pwr = s.pwr ∧
    (s.sys.role ≠ .barge → (retryRole s).sys.role = .standalone) := by
  unfold retryRole
  split
  case isTrue h => exact ⟨trainPorts_same .img rfl s, trainPorts_same .pwr rfl s, fun hn => absurd h hn⟩
  case isFalse => exact ⟨rfl, rfl, fun _ => rfl⟩

theorem startRetry_effect (ref : Bool) (s : State) : ∃ t, exec (.startRetry ref) s = .next t ∧
    (s.img.held = false ∨ 0 ∈ s.pwr.rails ∨ 3 ∈ s.pwr.rails ∨ s.pwr.age < s.img.heldAt + backoffNs s.img.boot.backoff → t = s) ∧
    (s.img.held = true → 0 ∉ s.pwr.rails → 3 ∉ s.pwr.rails → s.img.heldAt + backoffNs s.img.boot.backoff ≤ s.pwr.age →
      t.img.held = false ∧ t.pwr.pll = (ref || s.pwr.pll) ∧ (s.sys.role ≠ .barge → t.sys.role = .standalone)) := by
  refine ⟨_, exec_startRetry ref s, fun h => if_neg ?_, fun hh h0 h3 ha => ?_⟩
  · rcases h with h | h | h | h
    · simp [h]
    · simp [h]
    · simp [h]
    · simp [Nat.not_le.mpr h]
  · rw [if_pos (by simp [hh, h0, h3, ha])]
    obtain ⟨hc, hcp, hcs⟩ := retryChosen_keeps s
    obtain ⟨hr, hrp, hrs⟩ := retryRole_keeps (retryChosen s)
    rw [hcs] at hrs
    cases ref with
    | false =>
      rw [if_neg (by decide), hr, hrp, hcp]
      exact ⟨hc, rfl, hrs⟩
    | true =>
      rw [if_pos rfl, show (clocksOn _).img = _ from clocksOn_same .img rfl _, clocksOn_pwr,
        show (clocksOn _).sys = _ from clocksOn_same .sys rfl _, hr]
      exact ⟨hc, rfl, hrs⟩

/-! The restart of the Lockkeeper (R591). -/

theorem lkRestart_core (s : State) : (lkRestart s).fv.fw = false ∧ (lkRestart s).fv.started = false ∧
    (lkRestart s).fv.devState = 0 := by
  unfold lkRestart
  dsimp only
  rw [fw_of_core (tpSet_fv_fv 0 _), started_of_core (tpSet_fv_fv 0 _), devState_of_core (tpSet_fv_fv 0 _)]
  have h := setDevState_core 0
  exact ⟨(congrArg Fv.fw (h _) :), (congrArg Fv.started (h _) :), (congrArg Fv.devState (h _) :)⟩

theorem lkRestart_rest (s : State) : (lkRestart s).cyc.staged = [] ∧ (lkRestart s).img.lkReset = true ∧
    (lkRestart s).tp.causes % 2 = 1 ∧ (lkRestart s).pwr.pll = s.pwr.pll := by
  unfold lkRestart
  dsimp only
  rw [tpSet_cyc, tpSet_img, tpSet_pwr, show (setDevState 0 _).cyc.staged = _ from setDevState_same .staged rfl 0 _,
    show (setDevState 0 _).img = _ from setDevState_same .img rfl 0 _,
    show (setDevState 0 _).pwr = _ from setDevState_same .pwr rfl 0 _]
  exact ⟨rfl, rfl, tpSet_zero_odd _, rfl⟩

/-- A failure of the Lockkeeper's memory is detected before its restart. -/
def restartSeen (mem : Bool) (s : State) : State := if mem then tpSet 2 (detect 0x021 false s) else s

theorem restartSeen_pwr (mem : Bool) (s : State) : (restartSeen mem s).pwr = s.pwr := by
  unfold restartSeen
  split
  · rw [tpSet_pwr, detect_pwr]
  · rfl

/-- The PLLs are taken anew where the clock monitor asked for the restart. -/
def pllAnew (clock ref : Bool) (s : State) : State := if clock then modPwr (fun p => { p with pll := ref }) s else s

theorem exec_lockkeeperRestart (mem clock ref : Bool) (s : State) : exec (.lockkeeperRestart mem clock ref) s = .next
    (if s.pwr.keeper && s.fv.started then pllAnew clock ref (bootChoose (lkRestart (restartSeen mem s))) else s) := rfl

theorem lockkeeperRestart_effect (mem clock ref : Bool) (s : State) :
    ∃ t, exec (.lockkeeperRestart mem clock ref) s = .next t ∧
      (s.pwr.keeper = false ∨ s.fv.started = false → t = s) ∧ (s.pwr.keeper = true → s.fv.started = true →
        t.fv.fw = false ∧ t.fv.started = false ∧ t.fv.devState = 0 ∧ t.cyc.staged = [] ∧ t.img.lkReset = true ∧
        t.tp.causes % 2 = 1 ∧ t.pwr.pll = (if clock then ref else s.pwr.pll)) := by
  refine ⟨_, exec_lockkeeperRestart mem clock ref s, fun h => if_neg ?_, fun hk hs => ?_⟩
  · rcases h with h | h <;> simp [h]
  rw [hk, hs, Bool.and_self, if_pos rfl]
  let u := lkRestart (restartSeen mem s)
  obtain ⟨hf, hst, hd⟩ := lkRestart_core (restartSeen mem s)
  obtain ⟨hc, hl, ht, hp⟩ := lkRestart_rest (restartSeen mem s)
  obtain ⟨-, hb, -, -⟩ := bootChoose_bootKept u
  have hv := bootChoose_same .fv rfl u
  have hbp : (bootChoose u).pwr = u.pwr := bootChoose_same .pwr rfl u
  have hbc : (bootChoose u).cyc.staged = u.cyc.staged := bootChoose_same .staged rfl u
  have hbt : (bootChoose u).tp = u.tp := bootChoose_same .tp rfl u
  have hpll : (bootChoose u).pwr.pll = s.pwr.pll := by rw [hbp, hp, restartSeen_pwr]
  have key : (bootChoose u).fv.fw = false ∧ (bootChoose u).fv.started = false ∧ (bootChoose u).fv.devState = 0 ∧
      (bootChoose u).cyc.staged = [] ∧ (bootChoose u).img.lkReset = true ∧ (bootChoose u).tp.causes % 2 = 1 := by
    rw [fw_of_core hv, started_of_core hv, devState_of_core hv, hbc, hb, hbt]
    exact ⟨hf, hst, hd, hc, hl, ht⟩
  obtain ⟨k1, k2, k3, k4, k5, k6⟩ := key
  cases clock with
  | false => exact ⟨k1, k2, k3, k4, k5, k6, hpll⟩
  | true => exact ⟨k1, k2, k3, k4, k5, k6, rfl⟩

/-- Settles O42: each command as the chain of the operations a start is made of, and what every link leaves of the power,
image, Towpath and Faval records. -/
theorem startsAndRestarts : Obligations.StartsAndRestarts :=
  ⟨start_effect, firmwareRun_effect, startComplete_effect, referenceTimeout_effect, startFailure_effect,
    startRetry_effect, lockkeeperRestart_effect⟩

end Sys2Proof.Machine
end

section
/-! The spare core, the slots, mismatches, self-tests and debug halts of the application cores (O46). -/
open Sys2Proof
namespace Sys2Proof.Machine

/-! The reset of a pound takes it off its cores and changes nothing else of them (R457). -/

/-- A core apart from what runs on it. -/
def unrun (c : Core) : Core := { c with running := none }

/-- The cores apart from what runs on them, and the swap in progress. -/
def coresUnrun (a : Aps) : (Nat → Core) × Option SwapCore := (fun j => unrun (tget core0 a.cores j), a.swap)

theorem modCore_coresUnrun {f : Core → Core} (hf : ∀ c, unrun (f c) = unrun c) (k : Nat) (s : State) :
    coresUnrun (modCore k f s).aps = coresUnrun s.aps := by
  refine Prod.ext (funext fun j => ?_) rfl
  by_cases h : k = j
  · subst h
    exact (congrArg unrun (coreAt_modCore_same k f s)).trans (hf _)
  · exact congrArg unrun (coreAt_modCore_ne k j f s h)

theorem startReset_coresUnrun (p reason : Nat) (s : State) :
    coresUnrun (startReset p reason s).aps = coresUnrun s.aps := by
  unfold startReset
  dsimp only
  split
  case h_4 =>
    split
    · rfl
    · rw [emit_aps, modPq, modFv_aps, foldl_keep (keep := fun s => coresUnrun s.aps), muteWaiting_aps]
      · split <;> rfl
      · intro s k
        split
        · exact modCore_coresUnrun (by exact fun _ => rfl) k s
        · rfl
  all_goals rfl

theorem fatalFault_coresUnrun (p : Nat) (s : State) : coresUnrun (fatalFault p s).aps = coresUnrun s.aps := by
  unfold fatalFault
  rw [startReset_coresUnrun]
  split <;> rfl

theorem fatalFaults_coresUnrun (l : List Nat) (s : State) :
    coresUnrun (l.foldl (fun s p => fatalFault p s) s).aps = coresUnrun s.aps :=
  foldl_keep (keep := fun s => coresUnrun s.aps) (fun s p => fatalFault_coresUnrun p s) l s

/-- The pounds of a list lose their core and are reset. -/
def loseHome (l : List Nat) (s : State) : State :=
  l.foldl (fun s p => fatalFault p (modPart p (fun x => { x with homeless := true }) s)) s

theorem loseHome_coresUnrun (l : List Nat) (s : State) : coresUnrun (loseHome l s).aps = coresUnrun s.aps :=
  foldl_keep (keep := fun s => coresUnrun s.aps)
    (fun s p => (fatalFault_coresUnrun p (modPart p (fun x => { x with homeless := true }) s)).trans rfl) l s

theorem unrun_of_coresUnrun {s t : State} (h : coresUnrun t.aps = coresUnrun s.aps) (j : Nat) :
    unrun (coreAt t j) = unrun (coreAt s j) := congrFun (congrArg Prod.fst h) j

theorem coreAt_of_aps {s t : State} (h : t.aps = s.aps) (j : Nat) : coreAt t j = coreAt s j := by
  unfold coreAt
  rw [h]

theorem fatalFault_pond (p : Nat) (s : State) : (fatalFault p s).saf.pond = s.saf.pond :=
  same_of_blank (fatalFault_frame (fun r => decide (r ≠ .pond)) rfl rfl rfl rfl rfl rfl rfl rfl rfl p s) .pond rfl

theorem loseHome_pond (l : List Nat) (s : State) : (loseHome l s).saf.pond = s.saf.pond :=
  foldl_keep (keep := fun s => s.saf.pond)
    (fun s p => fatalFault_pond p (modPart p (fun x => { x with homeless := true }) s)) l s

/-! The switch of a core to a partition (R468). -/

/-- What a switch does after the core has its partition leaves alone: what the core runs and serves, the other cores, and
where each partition starts. -/
structure SlotKept (k : Nat) (s t : State) : Prop where
  running : (coreAt t k).running = (coreAt s k).running
  role : (coreAt t k).role = (coreAt s k).role
  logical : (coreAt t k).logical = (coreAt s k).logical
  cores : others coreAt k s t
  starts : ∀ p, (partAt t p).startPc = (partAt s p).startPc ∧ (partAt t p).startA0 = (partAt s p).startA0

theorem SlotKept.refl (k : Nat) (s : State) : SlotKept k s s := ⟨rfl, rfl, rfl, fun _ _ => rfl, fun _ => ⟨rfl, rfl⟩⟩

theorem SlotKept.trans {k : Nat} {s t u : State} (h : SlotKept k s t) (g : SlotKept k t u) : SlotKept k s u :=
  ⟨g.running.trans h.running, g.role.trans h.role, g.logical.trans h.logical,
    fun j hj => (g.cores j hj).trans (h.cores j hj),
    fun p => ⟨(g.starts p).1.trans (h.starts p).1, (g.starts p).2.trans (h.starts p).2⟩⟩

theorem others_modCore (k : Nat) (f : Core → Core) (s : State) : others coreAt k s (modCore k f s) :=
  fun j hj => coreAt_modCore_ne k j f s hj.symm

theorem slotKept_modCore {f : Core → Core}
    (hf : ∀ c, (f c).running = c.running ∧ (f c).role = c.role ∧ (f c).logical = c.logical) (k : Nat) (s : State) :
    SlotKept k s (modCore k f s) := by
  obtain ⟨hr, ho, hl⟩ := hf (coreAt s k)
  rw [← coreAt_modCore_same k f s] at hr ho hl
  exact ⟨hr, ho, hl, others_modCore k f s, fun _ => ⟨rfl, rfl⟩⟩

theorem starts_modPart {f : Part → Part} (hf : ∀ x, (f x).startPc = x.startPc ∧ (f x).startA0 = x.startA0) (p q : Nat)
    (s : State) : (partAt (modPart p f s) q).startPc = (partAt s q).startPc ∧
      (partAt (modPart p f s) q).startA0 = (partAt s q).startA0 := by
  by_cases h : p = q
  · subst h
    rw [partAt_modPart_same]
    exact hf _
  · rw [partAt_modPart_ne _ _ _ _ h]
    exact ⟨rfl, rfl⟩

theorem slotKept_modPart {f : Part → Part} (hf : ∀ x, (f x).startPc = x.startPc ∧ (f x).startA0 = x.startA0) (k p : Nat)
    (s : State) : SlotKept k s (modPart p f s) :=
  ⟨rfl, rfl, rfl, fun _ _ => rfl, fun q => starts_modPart hf p q s⟩

theorem slotKept_deliverIrqs (k p : Nat) (s : State) : SlotKept k s (deliverIrqs p s) :=
  slotKept_modPart (by exact fun _ => ⟨rfl, rfl⟩) k p s

/-- The core has its partition, in its checking mode. -/
def coreLoaded (k : Nat) (nw : Option Nat) (s : State) : State :=
  let checked := match nw with | some p => (partAt s p).checked | none => true
  modCore k (fun c => { c with
    running := nw, checked := checked
    pchk := match nw with | some p => b2n checked + 256 * p | none => 1 }) s

/-- The partition that comes in is given its interrupts. -/
def irqsIn (nw : Option Nat) (s : State) : State := match nw with | some p => deliverIrqs p s | none => s

/-- The context of the partition that goes out is saved. -/
def contextOut (out : Option Nat) (s : State) : State :=
  match out with
  | some p => deliverIrqs p (modPart p (fun x => { x with ctxCycle := some s.cyc.number }) s)
  | none => s

/-- The partition that comes in has its ways and its PMP entries. -/
def contextIn (k : Nat) (nw : Option Nat) (s : State) : State :=
  match nw with
  | some p => modCore k (fun c => { c with ways := (partAt s p).l2Ways, pmp := shareRanges s p }) s
  | none => s

theorem switchTo_eq (k : Nat) (nw : Option Nat) (s : State) : switchTo k nw s =
    if (coreAt s k).running = nw then irqsIn nw (coreLoaded k nw s)
    else countHpm k 10 (contextIn k nw (modCore k (fun c => { c with mcounteren := 0x7FF, scounteren := 0x7FF })
      (contextOut (coreAt s k).running (irqsIn nw (coreLoaded k nw s))))) := rfl

theorem slotKept_irqsIn (k : Nat) (nw : Option Nat) (s : State) : SlotKept k s (irqsIn nw s) := by
  cases nw with
  | none => exact .refl k s
  | some p => exact slotKept_deliverIrqs k p s

theorem slotKept_contextOut (k : Nat) (out : Option Nat) (s : State) : SlotKept k s (contextOut out s) := by
  cases out with
  | none => exact .refl k s
  | some p => exact (slotKept_modPart (by exact fun _ => ⟨rfl, rfl⟩) k p s).trans (slotKept_deliverIrqs k p _)

theorem slotKept_contextIn (k : Nat) (nw : Option Nat) (s : State) : SlotKept k s (contextIn k nw s) := by
  cases nw with
  | none => exact .refl k s
  | some p => exact slotKept_modCore (by exact fun _ => ⟨rfl, rfl, rfl⟩) k s

theorem switchTo_kept (k : Nat) (nw : Option Nat) (s : State) : SlotKept k (coreLoaded k nw s) (switchTo k nw s) := by
  rw [switchTo_eq]
  have hi := slotKept_irqsIn k nw (coreLoaded k nw s)
  split
  · exact hi
  · exact hi.trans ((slotKept_contextOut k _ _).trans ((slotKept_modCore (by exact fun _ => ⟨rfl, rfl, rfl⟩) k _).trans
      ((slotKept_contextIn k nw _).trans (slotKept_modCore (by exact fun _ => ⟨rfl, rfl, rfl⟩) k _))))

/-- After a switch the core runs what it was switched to, and serves what it served. -/
theorem switchTo_effect (k : Nat) (nw : Option Nat) (s : State) : (coreAt (switchTo k nw s) k).running = nw ∧
    (coreAt (switchTo k nw s) k).role = (coreAt s k).role ∧
    (coreAt (switchTo k nw s) k).logical = (coreAt s k).logical ∧ others coreAt k s (switchTo k nw s) ∧
    ∀ p, (partAt (switchTo k nw s) p).startPc = (partAt s p).startPc ∧
      (partAt (switchTo k nw s) p).startA0 = (partAt s p).startA0 := by
  obtain ⟨hr, ho, hl, hc, hs⟩ := switchTo_kept k nw s
  have hk : coreAt (coreLoaded k nw s) k = _ := coreAt_modCore_same k _ s
  rw [hk] at hr ho hl
  exact ⟨hr, ho, hl, fun j hj => (hc j hj).trans (others_modCore k _ s j hj), hs⟩

theorem switchTo_fv (k : Nat) (nw : Option Nat) (s : State) : (switchTo k nw s).fv = s.fv :=
  blank_all_fv (switchTo_frame (only [.aps]) rfl k nw s) rfl rfl

/-! The takeover by the spare (R485). -/

/-- The spare serves the logical core and enters the slot in force. -/
def spareServes (w : SwapCore) (k : Nat) (s : State) : State :=
  let s := modCore k (fun c => { c with role := 0, logical := (coreAt s w.out).logical, stopped := false, running := none }) s
  if coresRun s then switchTo k (slotPound s (slotInForce s (logicalAt s (coreAt s k).logical).live)) s else s

/-- The core that leaves is the spare, or condemned. -/
def coreGone (w : SwapCore) (s : State) : State :=
  modCore w.out (fun c => { c with
    role := if w.cmd then 1 else 2, logical := 7, stopped := false, running := none, testing := w.cmd }) s

/-- The swap ends with the core that leaves. -/
def coreLeaves (w : SwapCore) (s : State) : State := modAps (fun a => { a with swap := none }) (coreGone w s)

theorem takeOverCore_aps (w : SwapCore) (k : Nat) (s : State) :
    (takeOverCore w k s).aps = (coreLeaves w (spareServes w k s)).aps := by
  unfold takeOverCore coreSpare
  dsimp only
  rw [pondIn_aps, emit_aps]
  unfold coreLeaves coreGone spareServes
  dsimp only
  rw [coreAt_modCore_same]
  rfl

theorem spareServes_effect (w : SwapCore) (k : Nat) (s : State) : (coreAt (spareServes w k s) k).role = 0 ∧
    (coreAt (spareServes w k s) k).logical = (coreAt s w.out).logical := by
  unfold spareServes
  dsimp only
  split
  · obtain ⟨-, hr, hl, -, -⟩ := switchTo_effect k (slotPound (modCore k (fun c => { c with
      role := 0, logical := (coreAt s w.out).logical, stopped := false, running := none }) s) (slotInForce _ _))
      (modCore k (fun c => { c with
        role := 0, logical := (coreAt s w.out).logical, stopped := false, running := none }) s)
    rw [hr, hl, coreAt_modCore_same]
    exact ⟨rfl, rfl⟩
  · rw [coreAt_modCore_same]
    exact ⟨rfl, rfl⟩

theorem coreLeaves_effect {w : SwapCore} {k : Nat} (h : w.out ≠ k) (s : State) :
    coreAt (coreLeaves w s) k = coreAt s k ∧ coreAt (coreLeaves w s) w.out = { coreAt s w.out with
      role := if w.cmd then 1 else 2, logical := 7, stopped := false, running := none, testing := w.cmd } :=
  ⟨(show coreAt (coreGone w s) k = _ from coreAt_modCore_ne w.out k _ s h),
    show coreAt (coreGone w s) w.out = _ from coreAt_modCore_same w.out _ s⟩

theorem takeOverCore_effect {w : SwapCore} {k : Nat} (h : w.out ≠ k) (s : State) :
    (coreAt (takeOverCore w k s) k).role = 0 ∧ (coreAt (takeOverCore w k s) k).logical = (coreAt s w.out).logical ∧
    (coreAt (takeOverCore w k s) w.out).role = (if w.cmd then 1 else 2) ∧ (coreAt (takeOverCore w k s) w.out).logical = 7 ∧
    (takeOverCore w k s).aps.swap = none := by
  have ha := takeOverCore_aps w k s
  obtain ⟨hr, hl⟩ := spareServes_effect w k s
  obtain ⟨hk, ho⟩ := coreLeaves_effect h (spareServes w k s)
  rw [coreAt_of_aps ha, coreAt_of_aps ha, hk, ho, ha]
  exact ⟨hr, hl, rfl, rfl, rfl⟩

theorem exec_spareTakeover {w : SwapCore} {k : Nat} {s : State} (hw : s.aps.swap = some w) (hk : spareCore s = some k) :
    exec .spareTakeover s = .next (if w.left = 0 then takeOverCore w k s else s) := by
  refine congrArg Host.Outcome.next ?_
  rw [hw, hk]

theorem exec_spareTakeover_idle {s : State} (h : s.aps.swap = none ∨ spareCore s = none) : exec .spareTakeover s = .next s := by
  refine congrArg Host.Outcome.next ?_
  rcases h with h | h
  · rw [h]
  · rw [h]
    cases s.aps.swap <;> rfl

theorem spareTakeover_effect (s : State) : ∃ t, exec (.spareTakeover) s = .next t ∧
    (s.aps.swap = none ∨ spareCore s = none → t = s) ∧
    (∀ w k, s.aps.swap = some w → spareCore s = some k → (w.left ≠ 0 → t = s) ∧ (w.left = 0 → w.out ≠ k →
      (coreAt t k).role = 0 ∧ (coreAt t k).logical = (coreAt s w.out).logical ∧
      (coreAt t w.out).role = (if w.cmd then 1 else 2) ∧ (coreAt t w.out).logical = 7 ∧ t.aps.swap = none)) := by
  cases hw : s.aps.swap with
  | none => exact ⟨s, exec_spareTakeover_idle (.inl hw), fun _ => rfl, fun _ _ => (nomatch ·)⟩
  | some w =>
    cases hk : spareCore s with
    | none => exact ⟨s, exec_spareTakeover_idle (.inr hk), fun _ => rfl, fun _ _ _ => (nomatch ·)⟩
    | some k =>
      refine ⟨_, exec_spareTakeover hw hk, (·.elim (nomatch ·) (nomatch ·)), fun w' k' hw' hk' => ?_⟩
      cases hw'
      cases hk'
      refine ⟨fun h => if_neg h, fun h ho => ?_⟩
      rw [if_pos h]
      exact takeOverCore_effect ho s

/-! The start of a slot (R468-R470). -/

/-- The slot's partition enters when it may. -/
def slotEntered (l : Nat) (e : SlotEntry) (s : State) : State :=
  if !e.idle && mayEnter s e.pound && decide ((partAt s e.pound).core = l) then enterPart e.pound s else s

theorem exec_slotStart {k j : Nat} (hk : k < 5) (hj : j < 16) (s : State) : exec (.slotStart k j) s = .next
    (if (coreAt s k).role ≠ 0 ∨ 4 ≤ (coreAt s k).logical ∨ (logicalAt s (coreAt s k).logical).live.slots ≤ j ∨
        ((coreAt s k).halted || (coreAt s k).testing || (coreAt s k).stopped || !coresRun s) = true then s
    else
      let e := tget slotEntry0 (logicalAt s (coreAt s k).logical).live.entries j
      switchTo k (slotPound (slotEntered (coreAt s k).logical e s) e) (slotEntered (coreAt s k).logical e s)) :=
  guardUnit_of_ok (decide_eq_true ⟨hk, hj⟩) _

/-- A partition that enters runs from its entry point, its number in the first argument. -/
theorem enterPart_effect (p : Nat) (s : State) : poundAt (enterPart p s) p = { poundAt s p with state := .running } ∧
    (partAt (enterPart p s) p).startPc = (partAt s p).entry ∧ (partAt (enterPart p s) p).startA0 = p := by
  have hp : partAt (enterPart p s) p = { partAt (modPart p (fun x => { x with
      warm := (partAt s p).warmNext, warmNext := false, runCycle := s.cyc.number, restarts := sat 16 (x.restarts + 1)
      startPc := x.entry, startA0 := p, startA1 := 0x10000000 + (takeFree s).1 % 0x7FF001 }) (takeFree s).2) p with
      info := infoBlock (modPart p (fun x => { x with
        warm := (partAt s p).warmNext, warmNext := false, runCycle := s.cyc.number, restarts := sat 16 (x.restarts + 1)
        startPc := x.entry, startA0 := p, startA1 := 0x10000000 + (takeFree s).1 % 0x7FF001 }) (takeFree s).2) p
        (partAt s p).warmNext } := partAt_modPart_same p _ _
  rw [partAt_modPart_same] at hp
  exact ⟨poundAt_modPound_same p _ _, congrArg Part.startPc hp, congrArg Part.startA0 hp⟩

theorem slotEntered_of_not {s : State} {l : Nat} {e : SlotEntry}
    (h : (!e.idle && mayEnter s e.pound && decide ((partAt s e.pound).core = l)) = false) : slotEntered l e s = s := by
  rw [slotEntered, h, if_neg (by decide)]

theorem poundAt_of_fv {s t : State} (h : t.fv = s.fv) (p : Nat) : poundAt t p = poundAt s p := by
  unfold poundAt
  rw [h]

/-- The core of a slot whose partition does not enter. -/
theorem slotSwitch_same (k : Nat) (e : SlotEntry) (s : State) : (switchTo k (slotPound s e) s).fv = s.fv ∧
    (coreAt (switchTo k (slotPound s e) s) k).running = slotPound s e :=
  ⟨switchTo_fv k _ s, (switchTo_effect k (slotPound s e) s).1⟩

/-- The core of a slot whose partition enters. -/
theorem slotSwitch_entered (k : Nat) {e : SlotEntry} (hi : e.idle = false) (s : State) :
    let u := enterPart e.pound s
    let t := switchTo k (slotPound u e) u
    (poundAt t e.pound).state = .running ∧ (partAt t e.pound).startPc = (partAt s e.pound).entry ∧
      (partAt t e.pound).startA0 = e.pound ∧ ((poundAt s e.pound).kind = 4 → (coreAt t k).running = some e.pound) := by
  intro u t
  obtain ⟨hp, h0, h1⟩ := enterPart_effect e.pound s
  obtain ⟨hr, -, -, -, hs⟩ := switchTo_effect k (slotPound u e) u
  obtain ⟨hs0, hs1⟩ := hs e.pound
  have hpt : poundAt t e.pound = { poundAt s e.pound with state := .running } :=
    (poundAt_of_fv (switchTo_fv k (slotPound u e) u) e.pound).trans hp
  have hk : (poundAt u e.pound).kind = (poundAt s e.pound).kind := (congrArg Pound.kind hp :)
  have hst : (poundAt u e.pound).state = .running := (congrArg Pound.state hp :)
  refine ⟨by rw [hpt], hs0.trans h0, hs1.trans h1, fun h4 => hr.trans ?_⟩
  simp [slotPound, hi, hk, hst, h4]

/-- What a slot that starts leaves on its core, by its entry. -/
theorem slotSwitch_effect (k l : Nat) (e : SlotEntry) (s : State) :
    let t := switchTo k (slotPound (slotEntered l e s) e) (slotEntered l e s)
    (e.idle = true → (coreAt t k).running = none ∧ t.fv = s.fv) ∧
    (e.idle = false → mayEnter s e.pound = true → (partAt s e.pound).core = l →
      (poundAt t e.pound).state = .running ∧ (partAt t e.pound).startPc = (partAt s e.pound).entry ∧
      (partAt t e.pound).startA0 = e.pound ∧ ((poundAt s e.pound).kind = 4 → (coreAt t k).running = some e.pound)) ∧
    (e.idle = false → mayEnter s e.pound = false → t.fv = s.fv ∧ (coreAt t k).running =
      if (poundAt s e.pound).kind = 4 ∧ (poundAt s e.pound).state = .running then some e.pound else none) := by
  dsimp only
  obtain ⟨hf, hr⟩ := slotSwitch_same k e s
  refine ⟨fun hi => ?_, fun hi hm hc => ?_, fun hi hm => ?_⟩
  · rw [slotEntered_of_not (by rw [hi]; rfl)]
    exact ⟨hr.trans (by simp [slotPound, hi]), hf⟩
  · have he : slotEntered l e s = enterPart e.pound s := by rw [slotEntered, if_pos (by simp [hi, hm, hc])]
    rw [he]
    exact slotSwitch_entered k hi s
  · rw [slotEntered_of_not (by rw [hm, Bool.and_false, Bool.false_and])]
    exact ⟨hf, hr.trans (by simp [slotPound, hi])⟩

theorem slotStart_effect (k j : Nat) (s : State) (hk : k < 5) (hj : j < 16) : ∃ t, exec (.slotStart k j) s = .next t ∧
    ((coreAt s k).role ≠ 0 ∨ 4 ≤ (coreAt s k).logical ∨ (logicalAt s (coreAt s k).logical).live.slots ≤ j ∨
      ((coreAt s k).halted || (coreAt s k).testing || (coreAt s k).stopped || !coresRun s) = true → t = s) ∧
    (¬((coreAt s k).role ≠ 0 ∨ 4 ≤ (coreAt s k).logical ∨ (logicalAt s (coreAt s k).logical).live.slots ≤ j ∨
      ((coreAt s k).halted || (coreAt s k).testing || (coreAt s k).stopped || !coresRun s) = true) →
      ∀ e, e = tget slotEntry0 (logicalAt s (coreAt s k).logical).live.entries j →
        (e.idle = true → (coreAt t k).running = none ∧ t.fv = s.fv) ∧
        (e.idle = false → mayEnter s e.pound = true → (partAt s e.pound).core = (coreAt s k).logical →
          (poundAt t e.pound).state = .running ∧ (partAt t e.pound).startPc = (partAt s e.pound).entry ∧
          (partAt t e.pound).startA0 = e.pound ∧ ((poundAt s e.pound).kind = 4 → (coreAt t k).running = some e.pound)) ∧
        (e.idle = false → mayEnter s e.pound = false → t.fv = s.fv ∧ (coreAt t k).running =
          if (poundAt s e.pound).kind = 4 ∧ (poundAt s e.pound).state = .running then some e.pound else none)) := by
  refine ⟨_, exec_slotStart hk hj s, fun h => if_pos h, fun h e he => ?_⟩
  rw [if_neg h]
  dsimp only
  rw [← he]
  exact slotSwitch_effect k (coreAt s k).logical e s

/-! Mismatches (R479, R480, R487). -/

/-- A core apart from what it runs and serves and from its tests. -/
def tallies (c : Core) : Core :=
  { c with running := none, role := 0, logical := 0, stopped := false, testing := false }

theorem tallies_of_unrun {c d : Core} (h : unrun c = unrun d) : tallies c = tallies d :=
  (congrArg tallies h :)

theorem testing_of_unrun {c d : Core} (h : unrun c = unrun d) : c.testing = d.testing := (congrArg Core.testing h :)

theorem role_of_unrun {c d : Core} (h : unrun c = unrun d) : c.role = d.role := (congrArg Core.role h :)

/-- No spare takes over: the core is condemned, and its pounds are reset. -/
def condemned (k pound : Nat) (s : State) : State :=
  coreSpare k 4 pound (modCore k (fun c => { c with role := 2, logical := 7 }) (loseHome (poundsOn s (coreAt s k).logical) s))

theorem coreAt_coreSpare (k flags pound : Nat) (s : State) (j : Nat) : coreAt (coreSpare k flags pound s) j = coreAt s j :=
  coreAt_of_aps (emit_aps ..) j

theorem condemned_core (k pound : Nat) (s : State) : tallies (coreAt (condemned k pound s) k) = tallies (coreAt s k) ∧
    (coreAt (condemned k pound s) k).testing = (coreAt s k).testing := by
  have h := unrun_of_coresUnrun (loseHome_coresUnrun (poundsOn s (coreAt s k).logical) s) k
  rw [condemned, coreAt_coreSpare, coreAt_modCore_same]
  exact ⟨(tallies_of_unrun h :), (testing_of_unrun h :)⟩

/-- The core stops, and the log holds it. -/
def coreStopped (k : Nat) (s : State) : State :=
  wearLog 4 k 3 (modCore k (fun c => { c with testing := false, stopped := true, running := none }) s)

/-- No swap is in progress that another core is to leave by. -/
def swapFree (k : Nat) (s : State) : Bool := match s.aps.swap with | none => true | some w => decide (w.out = k)

theorem condemnCore_eq (k : Nat) (s : State) : condemnCore k s =
    match spareCore (coreStopped k s) with
    | some _ =>
      if swapFree k s then modAps (fun a => { a with swap := some {
        out := k, cmd := false, left := 2, pound := ((coreAt s k).running).getD 0 } }) (coreStopped k s)
      else condemned k (((coreAt s k).running).getD 0) (coreStopped k s)
    | none => condemned k (((coreAt s k).running).getD 0) (coreStopped k s) := rfl

theorem condemnCore_cases (k : Nat) (s : State) :
    (∃ w, condemnCore k s = modAps (fun a => { a with swap := some w }) (coreStopped k s)) ∨
    ∃ p, condemnCore k s = condemned k p (coreStopped k s) := by
  rw [condemnCore_eq]
  split
  · split
    · exact .inl ⟨_, rfl⟩
    · exact .inr ⟨_, rfl⟩
  · exact .inr ⟨_, rfl⟩

theorem coreStopped_core (k : Nat) (s : State) : tallies (coreAt (coreStopped k s) k) = tallies (coreAt s k) ∧
    (coreAt (coreStopped k s) k).testing = false := by
  rw [coreStopped, coreAt_of_aps (wearLog_aps ..), coreAt_modCore_same]
  exact ⟨rfl, rfl⟩

/-- A condemned core keeps its tallies and is tested no more. -/
theorem condemnCore_core (k : Nat) (s : State) : tallies (coreAt (condemnCore k s) k) = tallies (coreAt s k) ∧
    (coreAt (condemnCore k s) k).testing = false := by
  obtain ⟨ht, hs⟩ := coreStopped_core k s
  rcases condemnCore_cases k s with ⟨w, h⟩ | ⟨p, h⟩ <;> rw [h]
  · exact ⟨ht, hs⟩
  · obtain ⟨hc, hx⟩ := condemned_core k p (coreStopped k s)
    exact ⟨hc.trans ht, hx.trans hs⟩

/-- The mismatch counted on its core. -/
def mismatchCounted (k : Nat) (second : Bool) (s : State) : State :=
  let times := transients k second s
  countHpm k 9 (modCore k (fun c => { c with
    mmCycle := s.cyc.number, times := times
    mmT := if second then c.mmT else sat 32 (c.mmT + 1)
    mmP := if second || decide ((coreAt s k).transMax < times.length) then sat 32 (c.mmP + 1) else c.mmP }) s)

/-- The mismatch counted for its partition, detected and reported. -/
def mismatchReported (k : Nat) (second mon : Bool) (c : Core) (times : List Nat) (s : State) : State :=
  let s := match c.running with
    | some p => if mon then s else modPart p (fun x => { x with mmCount := sat 32 (x.mmCount + 1) }) s
    | none => s
  let s := detect (0x030 + k) false s
  let s := if quarters c.times.length (c.transMax + 1) < quarters times.length (c.transMax + 1) then
      pondWear 4 k times.length false s else s
  emit 0x3101 k s (cause := k)
    (flags := if !(second || decide (c.transMax < times.length)) then 0 else if mon then 3 else 1)
    (value := c.running.getD 0)

/-- What becomes of the core after a permanent mismatch. -/
def mismatchSettled (k : Nat) (perm mon : Bool) (c : Core) (s : State) : State :=
  if !perm then s
  else if mon then condemnCore k ((poundsOn s c.logical).foldl (fun s p => fatalFault p s) s)
  else
    let s := match c.running with | some p => fatalFault p s | none => s
    modCore k (fun c => { c with testing := true, running := none }) s

theorem coreMismatch_eq (k : Nat) (second mon : Bool) (s : State) : coreMismatch k second mon s =
    mismatchSettled k (second || decide ((coreAt s k).transMax < (transients k second s).length)) mon (coreAt s k)
      (mismatchReported k second mon (coreAt s k) (transients k second s) (mismatchCounted k second s)) := rfl

theorem coreAt_mismatchReported (k : Nat) (second mon : Bool) (c : Core) (times : List Nat) (s : State) (j : Nat) :
    coreAt (mismatchReported k second mon c times s) j = coreAt s j := by
  unfold mismatchReported
  dsimp only
  refine (coreAt_of_aps (emit_aps ..) j).trans ?_
  refine (coreAt_of_aps ((apply_ite State.aps _ _ _).trans (ite_frame _ (pondWear_aps ..) rfl)) j).trans ?_
  refine (coreAt_of_aps (detect_aps ..) j).trans ?_
  split
  · split <;> rfl
  · rfl

theorem tallies_mismatchSettled (k : Nat) (perm mon : Bool) (c : Core) (s : State) :
    tallies (coreAt (mismatchSettled k perm mon c s) k) = tallies (coreAt s k) := by
  unfold mismatchSettled
  split
  · rfl
  · split
    · exact (condemnCore_core k _).1.trans (tallies_of_unrun (unrun_of_coresUnrun (fatalFaults_coresUnrun _ s) k))
    · dsimp only
      rw [coreAt_modCore_same]
      split
      · exact (tallies_of_unrun (unrun_of_coresUnrun (fatalFault_coresUnrun _ s) k) :)
      · rfl

theorem coreAt_mismatchCounted (k : Nat) (second : Bool) (s : State) :
    (coreAt (mismatchCounted k second s) k).mmCycle = s.cyc.number ∧
    (coreAt (mismatchCounted k second s) k).mmI = (coreAt s k).mmI ∧
    (second = true → (coreAt (mismatchCounted k second s) k).mmT = (coreAt s k).mmT ∧
      (coreAt (mismatchCounted k second s) k).mmP = sat 32 ((coreAt s k).mmP + 1)) ∧
    (second = false → (coreAt (mismatchCounted k second s) k).mmT = sat 32 ((coreAt s k).mmT + 1)) := by
  rw [mismatchCounted, countHpm, coreAt_modCore_same, coreAt_modCore_same]
  refine ⟨rfl, rfl, ?_, ?_⟩ <;> rintro rfl
  · exact ⟨rfl, rfl⟩
  · rfl

theorem coreMismatch_effect (k : Nat) (second mon : Bool) (s : State) :
    (coreAt (coreMismatch k second mon s) k).mmCycle = s.cyc.number ∧
    (coreAt (coreMismatch k second mon s) k).mmI = (coreAt s k).mmI ∧
    (second = true → (coreAt (coreMismatch k second mon s) k).mmT = (coreAt s k).mmT ∧
      (coreAt (coreMismatch k second mon s) k).mmP = sat 32 ((coreAt s k).mmP + 1)) ∧
    (second = false → (coreAt (coreMismatch k second mon s) k).mmT = sat 32 ((coreAt s k).mmT + 1)) := by
  have h : tallies (coreAt (coreMismatch k second mon s) k) = tallies (coreAt (mismatchCounted k second s) k) := by
    rw [coreMismatch_eq, tallies_mismatchSettled, coreAt_mismatchReported]
  have hc : (coreAt (coreMismatch k second mon s) k).mmCycle = (coreAt (mismatchCounted k second s) k).mmCycle :=
    (congrArg Core.mmCycle h :)
  have hi : (coreAt (coreMismatch k second mon s) k).mmI = (coreAt (mismatchCounted k second s) k).mmI :=
    (congrArg Core.mmI h :)
  have ht : (coreAt (coreMismatch k second mon s) k).mmT = (coreAt (mismatchCounted k second s) k).mmT :=
    (congrArg Core.mmT h :)
  have hp : (coreAt (coreMismatch k second mon s) k).mmP = (coreAt (mismatchCounted k second s) k).mmP :=
    (congrArg Core.mmP h :)
  rw [hc, hi, ht, hp]
  exact coreAt_mismatchCounted k second s

/-- An injected mismatch whose retry compares equal. -/
def mismatchInjected (k : Nat) (s : State) : State :=
  countHpm k 9 (modCore k (fun c => { c with mmI := sat 32 (c.mmI + 1), mmCycle := s.cyc.number }) s)

theorem exec_coreMismatch {k : Nat} (h : k < 7) (second mon injected : Bool) (s : State) :
    exec (.coreMismatch k second mon injected) s = .next
      (if !s.pwr.keeper || (decide (k < 5) && !s.pwr.vcoreEn) then s
       else if injected && !second then (if k < 5 then mismatchInjected k s else s)
       else if 5 ≤ k then keeperMismatch k second s
       else if compares s k mon then coreMismatch k second mon s else s) :=
  guardUnit_of_ok (decide_eq_true h) _

theorem mismatchInjected_effect (k : Nat) (s : State) : (coreAt (mismatchInjected k s) k).mmI = sat 32 ((coreAt s k).mmI + 1) ∧
    (coreAt (mismatchInjected k s) k).mmCycle = s.cyc.number ∧ (coreAt (mismatchInjected k s) k).mmT = (coreAt s k).mmT ∧
    (coreAt (mismatchInjected k s) k).mmP = (coreAt s k).mmP ∧
    tget ctr0 (coreAt (mismatchInjected k s) k).hpm 9 = (tget ctr0 (coreAt s k).hpm 9 + 1) % 2 ^ 64 ∧
    others coreAt k s (mismatchInjected k s) ∧ (mismatchInjected k s).fv = s.fv := by
  refine ⟨?_, ?_, ?_, ?_, ?_, fun j hj => ?_, rfl⟩
  case refine_6 => exact (others_modCore k _ _ j hj).trans (others_modCore k _ s j hj)
  all_goals rw [mismatchInjected, countHpm, coreAt_modCore_same, coreAt_modCore_same]
  exact tget_tmod_same ctr0 9 (fun v => (v + 1) % 2 ^ 64) (coreAt s k).hpm

/-- The mismatch of the Lockkeeper or of the Sluice counted. -/
def keeperCounted (k : Nat) (second : Bool) (s : State) : State :=
  modCore k (fun c => { c with times := transients k second s, mmCycle := s.cyc.number }) s

theorem keeperMismatch_eq (k : Nat) (second : Bool) (s : State) : keeperMismatch k second s =
    if second = true ∨ (coreAt s k).transMax < (transients k second s).length then
      (if k = 5 then revertTrial (detect 0x035 false (modFv (fun v => { v with fw := false }) (keeperCounted k second s)))
      else declareSilent (detect 0x036 false (keeperCounted k second s)))
    else keeperCounted k second s := by
  have hm : (coreAt (keeperCounted k second s) k).transMax = (coreAt s k).transMax := by
    rw [keeperCounted, coreAt_modCore_same]
  unfold keeperMismatch
  dsimp only
  rw [show coreAt (modCore k _ s) k = coreAt (keeperCounted k second s) k from rfl, hm]
  refine (ite_congr (propext ?_) (fun _ => rfl) (fun _ => rfl)).trans (ite_not ..)
  rw [not_or, Bool.and_eq_true, Bool.not_eq_true', decide_eq_true_eq, Nat.not_lt, Bool.not_eq_true]

theorem keeperMismatch_effect (k : Nat) (second : Bool) (s : State) :
    if second = true ∨ (coreAt s k).transMax < (transients k second s).length then
      (if k = 5 then (keeperMismatch k second s).fv.fw = false else (keeperMismatch k second s).slu.silent = true)
    else (keeperMismatch k second s).fv = s.fv ∧ (keeperMismatch k second s).slu = s.slu := by
  rw [keeperMismatch_eq]
  split
  · split
    · rw [fw_of_core (same_of_blank (revertTrial_frame (only [.wire, .img]) rfl rfl _) .fv rfl),
        fw_of_core (detect_fv_fv ..)]
      rfl
    · exact (declareSilent_effect _).1
  · exact ⟨rfl, rfl⟩

theorem coreMismatch_command_effect (k : Nat) (second mon injected : Bool) (s : State) (h : k < 7) :
    ∃ t, exec (.coreMismatch k second mon injected) s = .next t ∧
      (s.pwr.keeper = false ∨ k < 5 ∧ s.pwr.vcoreEn = false → t = s) ∧
     (s.pwr.keeper = true → (k < 5 → s.pwr.vcoreEn = true) →
      (injected = true → second = false → if k < 5 then (coreAt t k).mmI = sat 32 ((coreAt s k).mmI + 1) ∧ (coreAt t k).mmCycle = s.cyc.number ∧ (coreAt t k).mmT = (coreAt s k).mmT ∧ (coreAt t k).mmP = (coreAt s k).mmP ∧
        tget ctr0 (coreAt t k).hpm 9 = (tget ctr0 (coreAt s k).hpm 9 + 1) % 2 ^ 64 ∧ others coreAt k s t ∧ t.fv = s.fv else t = s) ∧
      (injected = false ∨ second = true → k < 5 → if compares s k mon = true then (coreAt t k).mmCycle = s.cyc.number ∧ (coreAt t k).mmI = (coreAt s k).mmI ∧
        (second = true → (coreAt t k).mmT = (coreAt s k).mmT ∧ (coreAt t k).mmP = sat 32 ((coreAt s k).mmP + 1)) ∧ (second = false → (coreAt t k).mmT = sat 32 ((coreAt s k).mmT + 1)) else t = s) ∧
      (injected = false ∨ second = true → 5 ≤ k → if second = true ∨ (coreAt s k).transMax < (transients k second s).length then (if k = 5 then t.fv.fw = false else t.slu.silent = true) else t.fv = s.fv ∧ t.slu = s.slu)) := by
  refine ⟨_, exec_coreMismatch h second mon injected s, fun hn => if_pos ?_, fun hk hv => ?_⟩
  · rcases hn with hn | ⟨h5, hn⟩
    · simp [hn]
    · simp [h5, hn]
  have hp : ¬ (!s.pwr.keeper || (decide (k < 5) && !s.pwr.vcoreEn)) = true := by
    by_cases h5 : k < 5
    · simp [hk, hv h5]
    · simp [hk, h5]
  rw [if_neg hp]
  refine ⟨fun hi hs => ?_, fun hr h5 => ?_, fun hr h5 => ?_⟩
  · have hj : (injected && !second) = true := by rw [hi, hs]; rfl
    rw [if_pos hj]
    by_cases h5 : k < 5
    · rw [if_pos h5, if_pos h5]
      exact mismatchInjected_effect k s
    · rw [if_neg h5, if_neg h5]
  all_goals
    have hq : ¬ (injected && !second) = true := by rcases hr with hr | hr <;> simp [hr]
    rw [if_neg hq]
  · rw [if_neg (Nat.not_le.mpr h5)]
    split
    · exact coreMismatch_effect k second mon s
    · rfl
  · rw [if_pos h5]
    exact keeperMismatch_effect k second s

/-! Self-tests (R480, R485). -/

/-- The spare is marked failed, which is logged, detected and reported. -/
def spareFailed (k : Nat) (s : State) : State :=
  pondWear 4 k 0 true (coreSpare k 3 0 (wearLog 4 k 4 (detect 0x037 false
    (modPond (fun p => { p with coreSpare := 2 }) (modCore k (fun c => { c with role := 3, testing := false }) s)))))

/-- The swap that counted on the spare is lost with it. -/
def swapAfterFailure (s : State) : State :=
  match s.aps.swap with
  | some w => if (spareCore s).isNone then swapLost w s else s
  | none => s

theorem failSpare_eq (k : Nat) (s : State) : failSpare k s = swapAfterFailure (spareFailed k s) := rfl

theorem spareFailed_aps (k : Nat) (s : State) :
    (spareFailed k s).aps = (modCore k (fun c => { c with role := 3, testing := false }) s).aps := by
  rw [spareFailed, coreSpare, pondWear_aps, emit_aps, wearLog_aps, detect_aps]
  rfl

theorem spareFailed_coreSpare (k : Nat) (s : State) : (spareFailed k s).saf.pond.coreSpare = 2 := by
  rw [spareFailed, coreSpare, pondWear_saf, emit_saf]
  have h := detect_saf_pond 0x037 false
    (modPond (fun p => { p with coreSpare := 2 }) (modCore k (fun c => { c with role := 3, testing := false }) s))
  exact (congrArg Pond.coreSpare h :)

/-- A lost swap changes what the core that was to leave serves, and no test of any core. -/
theorem swapLost_effect (w : SwapCore) (s : State) : (swapLost w s).saf.pond = s.saf.pond ∧
    ∀ j, (coreAt (swapLost w s) j).lbist = (coreAt s j).lbist ∧ (coreAt (swapLost w s) j).testing = (coreAt s j).testing ∧
      (w.out ≠ j → (coreAt (swapLost w s) j).role = (coreAt s j).role) := by
  let s1 := modAps (fun a => { a with swap := none }) s
  have he : swapLost w s = if w.cmd then modCore w.out (fun c => { c with stopped := false }) s1 else
      coreSpare w.out 4 w.pound (modCore w.out (fun c => { c with role := 2, logical := 7 })
        (loseHome (poundsOn s1 (coreAt s1 w.out).logical) s1)) := rfl
  rw [he]
  split
  · refine ⟨rfl, fun j => ?_⟩
    by_cases hj : w.out = j
    · subst hj
      rw [coreAt_modCore_same]
      exact ⟨rfl, rfl, fun h => absurd rfl h⟩
    · rw [coreAt_modCore_ne _ _ _ _ hj]
      exact ⟨rfl, rfl, fun _ => rfl⟩
  · refine ⟨?_, fun j => ?_⟩
    · rw [coreSpare, emit_saf]
      exact loseHome_pond _ s1
    · have hu := unrun_of_coresUnrun (loseHome_coresUnrun (poundsOn s1 (coreAt s1 w.out).logical) s1) j
      rw [coreAt_coreSpare]
      by_cases hj : w.out = j
      · subst hj
        rw [coreAt_modCore_same]
        exact ⟨(congrArg Core.lbist hu :), (testing_of_unrun hu :), fun h => absurd rfl h⟩
      · rw [coreAt_modCore_ne _ _ _ _ hj]
        exact ⟨(congrArg Core.lbist hu :), (testing_of_unrun hu :), fun _ => (role_of_unrun hu :)⟩

theorem swapAfterFailure_effect (s : State) : (swapAfterFailure s).saf.pond = s.saf.pond ∧
    ∀ j, (coreAt (swapAfterFailure s) j).lbist = (coreAt s j).lbist ∧
      (coreAt (swapAfterFailure s) j).testing = (coreAt s j).testing ∧
      ((∀ w, s.aps.swap = some w → w.out ≠ j) → (coreAt (swapAfterFailure s) j).role = (coreAt s j).role) := by
  have hs : s.saf.pond = s.saf.pond ∧ ∀ j, (coreAt s j).lbist = (coreAt s j).lbist ∧
      (coreAt s j).testing = (coreAt s j).testing ∧
      ((∀ w, s.aps.swap = some w → w.out ≠ j) → (coreAt s j).role = (coreAt s j).role) :=
    ⟨rfl, fun _ => ⟨rfl, rfl, fun _ => rfl⟩⟩
  unfold swapAfterFailure
  split
  case h_1 w hw =>
    split
    · obtain ⟨hp, hc⟩ := swapLost_effect w s
      refine ⟨hp, fun j => ?_⟩
      obtain ⟨hl, ht, hr⟩ := hc j
      exact ⟨hl, ht, fun h => hr (h w hw)⟩
    · exact ⟨rfl, fun _ => ⟨rfl, rfl, fun _ => rfl⟩⟩
  case h_2 => exact ⟨rfl, fun _ => ⟨rfl, rfl, fun _ => rfl⟩⟩

/-- A spare that fails is out, its self-test over. -/
theorem failSpare_effect (k : Nat) (s : State) : (failSpare k s).saf.pond.coreSpare = 2 ∧
    (coreAt (failSpare k s) k).lbist = (coreAt s k).lbist ∧ (coreAt (failSpare k s) k).testing = false ∧
    ((∀ w, s.aps.swap = some w → w.out ≠ k) → (coreAt (failSpare k s) k).role = 3) := by
  obtain ⟨hp, hc⟩ := swapAfterFailure_effect (spareFailed k s)
  obtain ⟨hl, ht, hr⟩ := hc k
  have ha := spareFailed_aps k s
  have hk : coreAt (spareFailed k s) k = { coreAt s k with role := 3, testing := false } :=
    (coreAt_of_aps ha k).trans (coreAt_modCore_same ..)
  rw [hk] at hl ht hr
  rw [ha] at hr
  rw [failSpare_eq, hp]
  exact ⟨spareFailed_coreSpare k s, hl, ht, hr⟩

/-- The result of a self-test recorded. -/
def lbistRecorded (k : Nat) (pass : Bool) (s : State) : State :=
  modCore k (fun c => { c with lbist := if pass then 1 else 2 }) s

theorem coreAt_lbistRecorded (k : Nat) (pass : Bool) (s : State) :
    coreAt (lbistRecorded k pass s) k = { coreAt s k with lbist := if pass then 1 else 2 } := coreAt_modCore_same ..

theorem exec_lbistComplete {k : Nat} (h : k < 5) (pass : Bool) (s : State) : exec (.lbistComplete k pass) s = .next
    (if !(coreAt s k).testing || !s.pwr.vcoreEn then s
     else if (coreAt (lbistRecorded k pass s) k).role = 1 then
       (if pass then modPond (fun p => { p with coreSpare := 0 }) (modCore k (fun c => { c with testing := false }) (lbistRecorded k pass s))
        else failSpare k (lbistRecorded k pass s))
     else if pass then modCore k (fun c => { c with testing := false }) (lbistRecorded k pass s)
     else condemnCore k (detect 0x037 false (lbistRecorded k pass s))) :=
  guardUnit_of_ok (decide_eq_true h) _

theorem lbistComplete_effect (k : Nat) (pass : Bool) (s : State) (h : k < 5) :
    ∃ t, exec (.lbistComplete k pass) s = .next t ∧
      ((coreAt s k).testing = false ∨ s.pwr.vcoreEn = false → t = s) ∧
      ((coreAt s k).testing = true → s.pwr.vcoreEn = true →
        (coreAt t k).lbist = (if pass then 1 else 2) ∧ (coreAt t k).testing = false ∧
        ((coreAt s k).role = 1 → if pass then t.saf.pond.coreSpare = 0 ∧ (coreAt t k).role = 1
          else t.saf.pond.coreSpare = 2 ∧ ((∀ w, s.aps.swap = some w → w.out ≠ k) → (coreAt t k).role = 3))) := by
  refine ⟨_, exec_lbistComplete h pass s, fun hn => if_pos ?_, fun ht hv => ?_⟩
  · rcases hn with hn | hn <;> simp [hn]
  rw [if_neg (by simp [ht, hv])]
  have hc := coreAt_lbistRecorded k pass s
  rw [show (coreAt (lbistRecorded k pass s) k).role = (coreAt s k).role from (congrArg Core.role hc :)]
  by_cases h1 : (coreAt s k).role = 1
  · rw [if_pos h1]
    cases pass with
    | true =>
      have hk : coreAt (modPond (fun p => { p with coreSpare := 0 }) (modCore k (fun c => { c with testing := false })
          (lbistRecorded k true s))) k = { coreAt s k with lbist := 1, testing := false } :=
        (coreAt_modCore_same ..).trans (by rw [hc]; rfl)
      rw [if_pos rfl, hk]
      exact ⟨rfl, rfl, fun _ => ⟨rfl, h1⟩⟩
    | false =>
      obtain ⟨hp, hl, hx, hr⟩ := failSpare_effect k (lbistRecorded k false s)
      exact ⟨hl.trans (congrArg Core.lbist hc :), hx, fun _ => ⟨hp, hr⟩⟩
  · rw [if_neg h1]
    cases pass with
    | true =>
      rw [if_pos rfl, coreAt_modCore_same, hc]
      exact ⟨rfl, rfl, fun h => absurd h h1⟩
    | false =>
      obtain ⟨hl, hx⟩ := condemnCore_core k (detect 0x037 false (lbistRecorded k false s))
      rw [coreAt_of_aps (detect_aps ..), hc] at hl
      exact ⟨(congrArg Core.lbist hl :), hx, fun h => absurd h h1⟩

theorem exec_spareLbist {k : Nat} {s : State} (hv : s.pwr.vcoreEn = true) (hk : spareCore s = some k) (pass : Bool) :
    exec (.spareLbist pass) s = .next (if pass then lbistRecorded k pass s else failSpare k (lbistRecorded k pass s)) := by
  refine congrArg Host.Outcome.next ?_
  rw [hv, hk]
  rfl

theorem exec_spareLbist_idle {s : State} (h : spareCore s = none ∨ s.pwr.vcoreEn = false) (pass : Bool) :
    exec (.spareLbist pass) s = .next s := by
  refine congrArg Host.Outcome.next ?_
  cases hv : s.pwr.vcoreEn with
  | false => rfl
  | true =>
    rw [h.resolve_right (by rw [hv]; decide)]
    rfl

theorem spareLbist_effect (pass : Bool) (s : State) : ∃ t, exec (.spareLbist pass) s = .next t ∧
    (spareCore s = none ∨ s.pwr.vcoreEn = false → t = s) ∧ (∀ k, spareCore s = some k → s.pwr.vcoreEn = true →
      (coreAt t k).lbist = (if pass then 1 else 2) ∧
      (if pass then (coreAt t k).role = (coreAt s k).role
       else t.saf.pond.coreSpare = 2 ∧ ((∀ w, s.aps.swap = some w → w.out ≠ k) → (coreAt t k).role = 3))) := by
  by_cases hn : spareCore s = none ∨ s.pwr.vcoreEn = false
  · refine ⟨s, exec_spareLbist_idle hn pass, fun _ => rfl, fun k hk hv => ?_⟩
    rcases hn with h | h
    · exact absurd (h.symm.trans hk) nofun
    · exact absurd (h.symm.trans hv) (by decide)
  · obtain ⟨hs, hv⟩ := not_or.mp hn
    obtain ⟨k, hk⟩ := Option.ne_none_iff_exists'.mp hs
    refine ⟨_, exec_spareLbist (Bool.not_eq_false _ ▸ hv) hk pass, fun h => absurd h hn, fun k' hk' _ => ?_⟩
    obtain rfl : k = k' := Option.some.inj (hk.symm.trans hk')
    have hc := coreAt_lbistRecorded k pass s
    cases pass with
    | true =>
      rw [if_pos rfl, hc]
      exact ⟨rfl, rfl⟩
    | false =>
      obtain ⟨hp, hl, -, hr⟩ := failSpare_effect k (lbistRecorded k false s)
      exact ⟨hl.trans (congrArg Core.lbist hc :), hp, hr⟩

/-! Debug halts (R484). -/

theorem debugHalt_effect (k : Nat) (s : State) (h : k < 5) : ∃ t, exec (.debugHalt k) s = .next t ∧
    coreAt t k = { coreAt s k with halted := (coreAt s k).halted || (s.pwr.vcoreEn && bitOf (k + 1) s.light.scope) } ∧
    others coreAt k s t := by
  refine ⟨_, guardUnit_of_ok (decide_eq_true h) _, ?_⟩
  split
  case isTrue hc =>
    rw [coreAt_modCore_same, hc, Bool.or_true]
    exact ⟨rfl, others_modCore k _ s⟩
  case isFalse hc =>
    rw [Bool.eq_false_of_not_eq_true hc, Bool.or_false]
    exact ⟨rfl, fun _ _ => rfl⟩

theorem debugResume_effect (k : Nat) (s : State) (h : k < 5) : ∃ t, exec (.debugResume k) s = .next t ∧
    coreAt t k = { coreAt s k with halted := false } ∧ others coreAt k s t := by
  refine ⟨_, guardUnit_of_ok (decide_eq_true h) _, ?_⟩
  split
  · rw [coreAt_modCore_same]
    exact ⟨rfl, others_modCore k _ s⟩
  case isFalse hc =>
    rw [← Bool.eq_false_of_not_eq_true hc]
    exact ⟨rfl, fun _ _ => rfl⟩

/-- Settles O46: a core keeps its tallies through whatever resets, condemns or replaces it, because a reset of a pound
changes of a core only what runs on it, and a switch only how it runs it. -/
theorem coresSpareAndSelfTests : Obligations.CoresSpareAndSelfTests :=
  ⟨spareTakeover_effect, slotStart_effect, coreMismatch_command_effect, lbistComplete_effect, spareLbist_effect,
    debugHalt_effect, debugResume_effect⟩

end Sys2Proof.Machine
end


section
/-! Key slots and their actions (O38). -/
open Sys2Proof
namespace Sys2Proof.Machine

theorem taken_light (r : Req) (s : State) : (taken r s).light = s.light := by rw [taken, accepted_light, received_light]

theorem keyAt_taken (r : Req) (s : State) (k : Nat) : keyAt (taken r s) k = keyAt s k := by
  rw [keyAt, taken_light, keyAt]

theorem taken_cyc (r : Req) (s : State) : (taken r s).cyc = s.cyc := by rw [taken, accepted_cyc, received_cyc]

theorem taken_free (r : Req) (s : State) : (taken r s).free = s.free := by rw [taken, accepted_free, received_free]

theorem keyAt_of_light {s t : State} (h : t.light = s.light) (k : Nat) : keyAt t k = keyAt s k := by
  rw [keyAt, h, keyAt]

theorem keyAt_takeFree (s : State) (k : Nat) : keyAt (takeFree s).2 k = keyAt s k := rfl

theorem broadcast_light (a : List Byte) (s : State) : (broadcast a s).light = s.light :=
  same_of_blank (broadcast_frame (only [.wire, .net]) rfl rfl a s) .light rfl

/-- The key a handle names is counted as used, which its record shows in `uses` alone. -/
theorem unused_keyUse (h : Nat) (s : State) (j : Nat) : (keyAt (keyUse h s) j).unused = (keyAt s j).unused := by
  unfold keyUse
  split
  case h_1 k _ =>
    by_cases hk : k = j
    · subst hk
      rw [keyAt_modKey_same]
      rfl
    · rw [keyAt_modKey_ne _ _ _ _ hk]
  case h_2 => rfl

theorem keyAt_commitKey_same (a : List Byte) (k : Key) (s : State) : keyAt (commitKey a k s) (argSlot a) = k :=
  keyAt_modKey_same ..

theorem keyAt_commitKey_ne {a : List Byte} {j : Nat} (h : j ≠ argSlot a) (k : Key) (s : State) :
    keyAt (commitKey a k s) j = keyAt s j := keyAt_modKey_ne _ _ _ _ h.symm

/-! What a new key is made of stands in the key slots, the cycle and the next free value. -/

theorem freshKey_taken (r : Req) (s : State) (a : List Byte) : freshKey (taken r s) a = freshKey s a := by
  unfold freshKey
  rw [keyAt_taken, taken_cyc]

theorem generated_taken (r : Req) (s : State) (a : List Byte) : generated (taken r s) a = generated s a := by
  rw [generated, freshKey_taken, taken_free, generated]

theorem importMaterial_taken (r : Req) (s : State) (a b : List Byte) : importMaterial (taken r s) a b = importMaterial s a b := by
  unfold importMaterial
  rw [keyAt_taken]

theorem imported_taken (r : Req) (s : State) (a b : List Byte) : imported (taken r s) a b = imported s a b := by
  rw [imported, freshKey_taken, importMaterial_taken, imported]

theorem derived_taken (r : Req) (s : State) (a b : List Byte) (q : Nat) (label : List Byte) :
    derived (taken r s) a b q label = derived s a b q label := by
  rw [derived, freshKey_taken, keyAt_taken, derived]

/-! The actions one by one. -/

/-- A key action answers the record of the slot of its argument. -/
theorem keyAct_immediate {code : Nat} {argOk : Nat → Bool} {fit : List Byte → Bool} {auth : State → Nat → List Byte → Bool}
    {check : State → List Byte → Status} {run : List Byte → State → State} {r : Req} {s : State}
    (h : ActPasses keyClass code r s)
    (ha : keyClass.acts.filter (fun a => decide (a.code = code)) = [keyAct code argOk fit auth check run]) (hc : code < 256) :
    cmdAct keyClass code r s = okTo keyClass 3 (actReq code r)
      (encodeRec (keyRec (argSlot r.payload)) (run r.payload (taken r s))) (run r.payload (taken r s)) :=
  cmdAct_immediate h ha hc rfl rfl

theorem keyGenerate_effect (r : Req) (s : State) (h : ActPasses keyClass 1 r s) :
    ∃ t, exec (.keyGenerate r) s = .next t ∧
      ∃ u, t = okTo keyClass 3 (actReq 1 r) (encodeRec (keyRec (argSlot r.payload)) u) u ∧
      keyAt u (argSlot r.payload) = generated s r.payload ∧
      (∀ j, j ≠ argSlot r.payload → Key.unused (keyAt u j) = Key.unused (keyAt s j)) := by
  refine ⟨_, rfl, _, keyAct_immediate h rfl (by decide), ?_, fun j hj => ?_⟩
  · exact (keyAt_commitKey_same ..).trans (generated_taken r s _)
  · rw [keyAt_commitKey_ne hj, keyAt_takeFree, keyAt_taken]

theorem keyImport_effect (r : Req) (s : State) (h : ActPasses keyClass 2 r s) :
    ∃ t, exec (.keyImport r) s = .next t ∧
      ∃ u, t = okTo keyClass 3 (actReq 2 r) (encodeRec (keyRec (argSlot r.payload)) u) u ∧
      keyAt u (argSlot r.payload) = imported s r.payload (r.payload.drop 16) ∧
      (∀ j, j ≠ argSlot r.payload → Key.unused (keyAt u j) = Key.unused (keyAt s j)) := by
  refine ⟨_, rfl, _, keyAct_immediate h rfl (by decide), ?_, fun j hj => ?_⟩
  · exact (keyAt_commitKey_same ..).trans (imported_taken r s _ _)
  · exact (congrArg Key.unused (keyAt_commitKey_ne hj ..)).trans
      ((unused_keyUse _ _ j).trans (congrArg Key.unused (keyAt_taken r s j)))

theorem keyDerive_effect (r : Req) (s : State) (h : ActPasses keyClass 3 r s) :
    ∃ t, exec (.keyDerive r) s = .next t ∧
      ∃ u, t = okTo keyClass 3 (actReq 3 r) (encodeRec (keyRec (argSlot r.payload)) u) u ∧
      keyAt u (argSlot r.payload) = derived s r.payload (r.payload.drop 16) (leAt r.payload 16 2) (deriveLabel (r.payload.drop 16)) ∧
      (∀ j, j ≠ argSlot r.payload → Key.unused (keyAt u j) = Key.unused (keyAt s j)) := by
  refine ⟨_, rfl, _, keyAct_immediate h rfl (by decide), ?_, fun j hj => ?_⟩
  · exact (keyAt_commitKey_same ..).trans (derived_taken r s _ _ _ _)
  · exact (congrArg Key.unused (keyAt_commitKey_ne hj ..)).trans
      ((unused_keyUse _ _ j).trans (congrArg Key.unused (keyAt_taken r s j)))

/-- The key an UPDATE brings, by the source that byte 16 of the argument names. -/
def updated (s : State) (a : List Byte) : Key :=
  if leAt a 16 1 = 0 then generated s a else if leAt a 16 1 = 1 then imported s a (a.drop 18)
  else derived s a (a.drop 18) (keyAt s (argSlot a)).parent (deriveLabel (a.drop 18))

theorem updated_taken (r : Req) (s : State) (a : List Byte) : updated (taken r s) a = updated s a := by
  rw [updated, generated_taken, imported_taken, derived_taken, keyAt_taken, updated]

/-- The slot whose key an UPDATE uses. -/
def updateSource (s : State) (a : List Byte) : Nat :=
  if leAt a 16 1 = 0 then 0xFFFF else if leAt a 16 1 = 1 then leAt (a.drop 18) 0 2 else (keyAt s (argSlot a)).parent

theorem updateKey_eq (a : List Byte) (s : State) : updateKey a s =
    broadcast a (commitKey a { updated s a with gen := ((keyAt s (argSlot a)).gen + 1) % 2 ^ 32 }
      (keyUse (slotHandle s (updateSource s a)) (takeFree s).2)) := by
  unfold updateKey updated updateSource
  match leAt a 16 1 with
  | 0 => rfl
  | 1 => rfl
  | n + 2 => rfl

theorem keyUpdate_effect (r : Req) (s : State) (h : ActPasses keyClass 4 r s) :
    ∃ t, exec (.keyUpdate r) s = .next t ∧
      ∃ u, t = okTo keyClass 3 (actReq 4 r) (encodeRec (keyRec (argSlot r.payload)) u) u ∧
      keyAt u (argSlot r.payload) = { updated s r.payload with gen := ((keyAt s (argSlot r.payload)).gen + 1) % 2 ^ 32 } ∧
      (∀ j, j ≠ argSlot r.payload → Key.unused (keyAt u j) = Key.unused (keyAt s j)) := by
  refine ⟨_, rfl, _, keyAct_immediate h rfl (by decide), ?_, fun j hj => ?_⟩
  · rw [updateKey_eq, keyAt_of_light (broadcast_light ..), keyAt_commitKey_same, updated_taken, keyAt_taken]
  · rw [updateKey_eq, keyAt_of_light (broadcast_light ..), keyAt_commitKey_ne hj, unused_keyUse, keyAt_takeFree,
      keyAt_taken]

theorem keyInvalidate_effect (r : Req) (s : State) (h : ActPasses keyClass 5 r s) :
    ∃ t, exec (.keyInvalidate r) s = .next t ∧
      ∃ u, t = okTo keyClass 3 (actReq 5 r) (encodeRec (keyRec (argSlot r.payload)) u) u ∧
      keyAt u (argSlot r.payload) = { keyAt s (argSlot r.payload) with
        state := 3, gen := ((keyAt s (argSlot r.payload)).gen + 1) % 2 ^ 32, mat := 0, pub := []
        madeCycle := s.cyc.number
        seq := (keyAt s (argSlot r.payload)).seq + b2n (keyAt s (argSlot r.payload)).persist } ∧
      (∀ j, j ≠ argSlot r.payload → Key.unused (keyAt u j) = Key.unused (keyAt s j)) := by
  refine ⟨_, rfl, _, keyAct_immediate h rfl (by decide), ?_, fun j hj => ?_⟩
  · rw [invalidateKey, keyAt_of_light (broadcast_light ..), keyAt_commitKey_same, keyAt_taken, taken_cyc]
  · rw [invalidateKey, keyAt_of_light (broadcast_light ..), keyAt_commitKey_ne hj, keyAt_taken]

/-- Settles O38: the record of the target slot is committed whole, from what stands in the key slots, the cycle and the
next free value, none of which the acceptance of a request moves; a key used to make it counts one use. -/
theorem keySlotsAndTheirActions : Obligations.KeySlotsAndTheirActions :=
  ⟨keyGenerate_effect, keyImport_effect, keyDerive_effect, keyUpdate_effect, keyInvalidate_effect⟩

end Sys2Proof.Machine
end


section
/-! The partition mailboxes of the Lighthouse (O39). -/
open Sys2Proof
namespace Sys2Proof.Machine

theorem length_leBytes (k n : Nat) : (leBytes k n).length = k := by
  induction k generalizing n with
  | zero => rfl
  | succ k ih => simp [leBytes, ih]

theorem length_beBytes (k n : Nat) : (beBytes k n).length = k := by
  rw [beBytes, List.length_reverse, length_leBytes]

theorem others_modBox (p : Nat) (f : LhBox → LhBox) (s : State) : others boxAt p s (modBox p f s) :=
  fun j hj => boxAt_modBox_ne p j f s hj.symm

/-! What stops, ends and counts a request. -/

theorem boxAt_keyUse (h : Nat) (s : State) (j : Nat) : boxAt (keyUse h s) j = boxAt s j := by
  unfold keyUse
  split <;> rfl

theorem boxAt_lhCount (st : Status) (s : State) (j : Nat) : boxAt (lhCount st s) j = boxAt s j := by
  unfold lhCount
  split <;> rfl

theorem boxAt_lhFail_same (p : Nat) (st : Status) (s : State) : boxAt (lhFail p st s) p =
    { boxAt s p with busy := false, done := true, stat := st.code, out := 0, result := [] } := by
  rw [lhFail, boxAt_lhCount, boxAt_modBox_same]

theorem others_lhFail (p : Nat) (st : Status) (s : State) : others boxAt p s (lhFail p st s) :=
  fun j hj => (boxAt_lhCount ..).trans (others_modBox p _ s j hj)

theorem lhFail_mem (p : Nat) (st : Status) (s : State) : (lhFail p st s).mem = s.mem :=
  blank_mem (lhFail_frame (only [.light]) rfl p st s) rfl

/-! LH_GO. -/

/-- The mailbox of a request that has been written to its registers. -/
def lhWritten (op p : Nat) (r : LhRegs) (s : State) : State := modBox p (fun _ => { op := op, regs := r, busy := true }) s

theorem lhStatus_lhWritten (op p : Nat) (r : LhRegs) (s : State) : lhStatus (lhWritten op p r s) p op r = lhStatus s p op r := rfl

theorem lhGo_busy {op p : Nat} {r : LhRegs} {s : State} (hk : (poundAt s p).kind = 4 ∧ s.pwr.vcoreEn = true)
    (hb : (boxAt s p).busy = true) : lhGo op p r s = modBox p (fun b => { b with stat := Status.eBusy.code }) s := by
  rw [lhGo, if_neg (by simp [hk.1, hk.2]), if_pos hb]

theorem lhGo_starts {op p : Nat} {r : LhRegs} {s : State} (hk : (poundAt s p).kind = 4 ∧ s.pwr.vcoreEn = true)
    (hb : (boxAt s p).busy = false) (hs : lhStatus s p op r = .ok) :
    lhGo op p r s = if lhKeyed op then keyUse r.key (lhWritten op p r s) else lhWritten op p r s := by
  rw [lhGo, if_neg (by simp [hk.1, hk.2]), if_neg (by simp [hb])]
  change (match lhStatus s p op r with | .ok => _ | st => _) = _
  rw [hs]
  rfl

theorem lhGo_stopped {op p : Nat} {r : LhRegs} {s : State} (hk : (poundAt s p).kind = 4 ∧ s.pwr.vcoreEn = true)
    (hb : (boxAt s p).busy = false) (hs : lhStatus s p op r ≠ .ok) :
    lhGo op p r s = lhFail p (lhStatus s p op r) (lhWritten op p r s) := by
  rw [lhGo, if_neg (by simp [hk.1, hk.2]), if_neg (by simp [hb])]
  change (match lhStatus s p op r with | .ok => _ | st => _) = _
  split
  case h_1 h => exact absurd h hs
  case h_2 => rfl

theorem lhGo_idle {op p : Nat} {r : LhRegs} {s : State} (h : (poundAt s p).kind ≠ 4 ∨ s.pwr.vcoreEn = false) :
    lhGo op p r s = s := by
  rw [lhGo, if_pos]
  rcases h with h | h <;> simp [h]

/-- What LH_GO leaves in its mailbox, for each service. -/
theorem lhGo_effect (op p : Nat) (r : LhRegs) (s : State) :
    ((poundAt s p).kind ≠ 4 ∨ s.pwr.vcoreEn = false → lhGo op p r s = s) ∧
    ((poundAt s p).kind = 4 ∧ s.pwr.vcoreEn = true → (boxAt s p).busy = true →
      boxAt (lhGo op p r s) p = { boxAt s p with stat := Status.eBusy.code }) ∧
    ((poundAt s p).kind = 4 ∧ s.pwr.vcoreEn = true → (boxAt s p).busy = false → boxAt (lhGo op p r s) p =
      if lhStatus s p op r = .ok then { op := op, regs := r, busy := true }
      else { op := op, regs := r, done := true, stat := (lhStatus s p op r).code }) ∧
    others boxAt p s (lhGo op p r s) := by
  have hw : boxAt (lhWritten op p r s) p = { op := op, regs := r, busy := true } := boxAt_modBox_same ..
  have ho : others boxAt p s (lhWritten op p r s) := others_modBox p _ s
  refine ⟨lhGo_idle, fun hk hb => ?_, fun hk hb => ?_, fun j hj => ?_⟩
  · rw [lhGo_busy hk hb, boxAt_modBox_same]
  · split
    case isTrue hs =>
      rw [lhGo_starts hk hb hs]
      split
      · rw [boxAt_keyUse, hw]
      · exact hw
    case isFalse hs => rw [lhGo_stopped hk hb hs, boxAt_lhFail_same, hw]
  · by_cases hk : (poundAt s p).kind = 4 ∧ s.pwr.vcoreEn = true
    · cases hb : (boxAt s p).busy with
      | true =>
        rw [lhGo_busy hk hb]
        exact others_modBox p _ s j hj
      | false =>
        by_cases hs : lhStatus s p op r = .ok
        · rw [lhGo_starts hk hb hs]
          split
          · rw [boxAt_keyUse, ho j hj]
          · exact ho j hj
        · rw [lhGo_stopped hk hb hs, others_lhFail p _ _ j hj, ho j hj]
    · rw [lhGo_idle]
      rcases not_and_or.mp hk with h | h
      · exact .inl h
      · exact .inr (Bool.eq_false_of_not_eq_true h)

/-- A service is LH_GO with its code. -/
theorem lhService_effect {c : Instr} {op p : Nat} {r : LhRegs} {s : State} (he : exec c s = .next (lhGo op p r s)) :
    ∃ t, exec c s = .next t ∧ ((poundAt s p).kind ≠ 4 ∨ s.pwr.vcoreEn = false → t = s) ∧
      ((poundAt s p).kind = 4 ∧ s.pwr.vcoreEn = true → (boxAt s p).busy = true → boxAt t p = { boxAt s p with stat := Status.eBusy.code }) ∧
      ((poundAt s p).kind = 4 ∧ s.pwr.vcoreEn = true → (boxAt s p).busy = false → boxAt t p =
        if lhStatus s p op r = .ok then { op := op, regs := r, busy := true } else { op := op, regs := r, done := true, stat := (lhStatus s p op r).code }) ∧
      others boxAt p s t := ⟨_, he, lhGo_effect op p r s⟩

theorem lhClear_effect (p : Nat) (s : State) (h : p < 32) : ∃ t, exec (.lhClear p) s = .next t ∧
    boxAt t p = { boxAt s p with iv := 0, result := [] } ∧ others boxAt p s t :=
  ⟨_, guardUnit_of_ok (decide_eq_true h) _, boxAt_modBox_same .., others_modBox p _ s⟩

/-! The end of a request (R526, R527). -/

theorem boxAt_lhScrub (b : LhBox) (n : Nat) (s : State) (j : Nat) : boxAt (lhScrub b n s) j = boxAt s j := rfl

/-- Zeroising a destination writes nothing outside it. -/
theorem memRead_lhScrub (b : LhBox) (n : Nat) (s : State) {a : Nat}
    (h : a < b.regs.dst ∨ b.regs.dst + lhDstLen b ≤ a) : memRead (lhScrub b n s).mem a = memRead s.mem a := by
  refine memRead_memWriteBytes_out _ s.mem _ a ?_
  rw [List.length_replicate]
  omega

theorem lhDstLen_of_not_hasDst {b : LhBox} (h : lhHasDst b.op = false) : lhDstLen b = 0 := by
  rw [lhDstLen, h]
  rfl

theorem length_authenticated (c : Prop) [Decidable c] {n : Nat} {out : List Byte} (h : out.length ≤ n) :
    (if c then ((Status.eAuth, [], []) : Status × List Byte × List Byte) else (.ok, out, [])).2.1.length ≤ n := by
  split
  · exact Nat.zero_le _
  · exact h

/-- A service answers as many destination bytes as its destination has, or none. -/
theorem length_lhResult (s : State) (b : LhBox) : (lhResult s b).2.1.length ≤ lhDstLen b := by
  unfold lhResult
  dsimp only
  split
  case h_1 => exact (length_beBytes ..).le
  case h_2 => exact length_authenticated _ (length_beBytes ..).le
  case h_9 => exact (length_beBytes ..).le
  all_goals exact Nat.zero_le _

/-- The end of a request that neither lost its source nor its key. -/
def lhFinish (p : Nat) (s : State) : State :=
  let b := boxAt s p
  match lhResult s b with
  | (.ok, out, res) =>
    let s := (takeFree s).2
    let s := storeBytes b.regs.dst out s
    modBox p (fun x => { x with busy := false, done := true, stat := 0
                                out := if lhHasDst b.op then out.length else res.length, result := res }) s
  | (st, _, _) => lhFail p st (if lhZeroises b.op st then lhScrub b (lhDstLen b) s else s)

/-- What the end of a request does: the mailbox is done with status `st`, no other mailbox changes, and of memory only
the destination of the request. -/
structure LhEnds (p : Nat) (st : Status) (s t : State) : Prop where
  busy : (boxAt t p).busy = false
  done : (boxAt t p).done = true
  stat : (boxAt t p).stat = st.code
  rest : others boxAt p s t
  mem  : ∀ a, a < (boxAt s p).regs.dst ∨ (boxAt s p).regs.dst + lhDstLen (boxAt s p) ≤ a → memRead t.mem a = memRead s.mem a

theorem lhEnds_lhFail (p : Nat) (st : Status) {s u : State} (hb : ∀ j, boxAt u j = boxAt s j)
    (hm : ∀ a, a < (boxAt s p).regs.dst ∨ (boxAt s p).regs.dst + lhDstLen (boxAt s p) ≤ a → memRead u.mem a = memRead s.mem a) :
    LhEnds p st s (lhFail p st u) := by
  have he := boxAt_lhFail_same p st u
  exact {
    busy := congrArg LhBox.busy he
    done := congrArg LhBox.done he
    stat := congrArg LhBox.stat he
    rest := fun j hj => (others_lhFail p st u j hj).trans (hb j)
    mem := fun a ha => (congrArg (memRead · a) (lhFail_mem p st u)).trans (hm a ha) }

theorem lhEnds_lhFail_lhScrub (p n : Nat) (st : Status) (s : State) : LhEnds p st s (lhFail p st (lhScrub (boxAt s p) n s)) :=
  lhEnds_lhFail p st (boxAt_lhScrub _ n s) (fun _ ha => memRead_lhScrub _ n s ha)

theorem lhEnds_lhFinish (p : Nat) (s : State) : LhEnds p (lhResult s (boxAt s p)).1 s (lhFinish p s) := by
  have hl := length_lhResult s (boxAt s p)
  unfold lhFinish
  dsimp only
  split
  case h_1 out res h =>
    rw [h] at hl ⊢
    replace hl : out.length ≤ lhDstLen (boxAt s p) := hl
    let u := storeBytes (boxAt s p).regs.dst out (takeFree s).2
    let done := fun x : LhBox => { x with
      busy := false, done := true, stat := 0
      out := if lhHasDst (boxAt s p).op then out.length else res.length, result := res }
    have he : boxAt (modBox p done u) p = done (boxAt u p) := boxAt_modBox_same ..
    exact {
      busy := congrArg LhBox.busy he
      done := congrArg LhBox.done he
      stat := congrArg LhBox.stat he
      rest := fun j hj => others_modBox p _ u j hj
      mem := fun a ha => memRead_memWriteBytes_out out s.mem _ a (ha.imp_right (fun h => by omega)) }
  case h_2 st out res hne h =>
    rw [h]
    split
    · exact lhEnds_lhFail_lhScrub ..
    · exact lhEnds_lhFail p st (fun _ => rfl) (fun _ _ => rfl)

theorem lhEnd_eq (p got : Nat) (trunc : Bool) (s : State) : lhEnd p got trunc s =
    if !(boxAt s p).busy || decide (s.light.state ≠ 0) then s
    else if trunc then lhFail p .eTrunc (lhScrub (boxAt s p) got s)
    else if lhBroken s (boxAt s p) then lhFail p .eRevoked (lhScrub (boxAt s p) got s)
    else lhFinish p s := rfl

theorem lhEnd_idle {p got : Nat} {trunc : Bool} {s : State} (h : (boxAt s p).busy = false ∨ s.light.state ≠ 0) :
    lhEnd p got trunc s = s := by
  rw [lhEnd_eq, if_pos]
  rcases h with h | h <;> simp [h]

theorem lhEnds_lhEnd {p got : Nat} {trunc : Bool} {s : State} (hb : (boxAt s p).busy = true) (hl : s.light.state = 0) :
    LhEnds p (if trunc = true then .eTrunc else if lhBroken s (boxAt s p) = true then .eRevoked
      else (lhResult s (boxAt s p)).1) s (lhEnd p got trunc s) := by
  have hi : ¬ (!(boxAt s p).busy || decide (s.light.state ≠ 0)) = true := by simp [hb, hl]
  rw [lhEnd_eq, if_neg hi]
  split
  · exact lhEnds_lhFail_lhScrub ..
  · split
    · exact lhEnds_lhFail_lhScrub ..
    · exact lhEnds_lhFinish p s

theorem lhRequestComplete_effect (p got : Nat) (trunc : Bool) (s : State) (h : p < 32) :
    ∃ t, exec (.lhRequestComplete p got trunc) s = .next t ∧
      ((boxAt s p).busy = false ∨ s.light.state ≠ 0 → t = s) ∧
      ((boxAt s p).busy = true → s.light.state = 0 → (boxAt t p).busy = false ∧ (boxAt t p).done = true ∧
        (boxAt t p).stat = (if trunc = true then Status.eTrunc else if lhBroken s (boxAt s p) = true then Status.eRevoked else (lhResult s (boxAt s p)).1).code) ∧ others boxAt p s t ∧
      (∀ a, a < (boxAt s p).regs.dst ∨ (boxAt s p).regs.dst + lhDstLen (boxAt s p) ≤ a → memRead t.mem a = memRead s.mem a) := by
  refine ⟨lhEnd p got trunc s, guardUnit_of_ok (decide_eq_true h) _, lhEnd_idle, fun hb hl => ?_, ?_⟩
  · obtain ⟨hbusy, hdone, hstat, -, -⟩ := lhEnds_lhEnd (got := got) (trunc := trunc) hb hl
    exact ⟨hbusy, hdone, hstat⟩
  · by_cases hi : (boxAt s p).busy = false ∨ s.light.state ≠ 0
    · rw [lhEnd_idle hi]
      exact ⟨fun _ _ => rfl, fun _ _ => rfl⟩
    · obtain ⟨hb, hl⟩ := not_or.mp hi
      obtain ⟨-, -, -, hrest, hmem⟩ := lhEnds_lhEnd (got := got) (trunc := trunc) (Bool.eq_true_of_not_eq_false hb) (not_not.mp hl)
      exact ⟨hrest, hmem⟩

/-- Settles O39: LH_GO is one operation with the code of its service, and every end of a request, by whatever status,
leaves the mailbox done and writes at most the destination. -/
theorem lighthouseMailboxes : Obligations.LighthouseMailboxes := by
  refine ⟨?_, ?_, ?_, ?_, ?_, ?_, ?_, ?_, ?_, lhClear_effect, lhRequestComplete_effect⟩
  all_goals exact fun p r s h => lhService_effect (guardUnit_of_ok (decide_eq_true h) _)

end Sys2Proof.Machine
end


section
/-! The restart of the Lighthouse, its claims, attestation and debug authorisation (O40). -/
open Sys2Proof
namespace Sys2Proof.Machine

/-! Debug authorisation ends (R547). -/

/-- A halted core resumes. -/
def resumeCore (s : State) (k : Nat) : State :=
  if (coreAt s k).halted then modCore k (fun c => { c with halted := false }) s else s

/-- The scope ends and DEBUG is taken back. -/
def scopeEnded (s : State) : State := modLight (fun l => { l with scope := 0, notAfter := 0, held := l.held ||| 4 }) s

theorem endDebug_eq {s : State} (h : s.light.scope ≠ 0) : endDebug s = (List.range 5).foldl resumeCore
    (if 1 < (scopeEnded s).sys.tapReg then modSys (fun v => { v with tapReg := 0 }) (scopeEnded s) else scopeEnded s) := by
  rw [endDebug, if_neg h]
  rfl

theorem endDebug_none {s : State} (h : s.light.scope = 0) : endDebug s = s := by rw [endDebug, if_pos h]

theorem resumeCore_light (s : State) (k : Nat) : (resumeCore s k).light = s.light := by
  unfold resumeCore
  split <;> rfl

theorem coreAt_resumeCore_ne (s : State) (k j : Nat) (h : j ≠ k) : coreAt (resumeCore s k) j = coreAt s j := by
  unfold resumeCore
  split
  · exact others_modCore k _ s j h
  · rfl

theorem resumeCore_halted (s : State) (k : Nat) : (coreAt (resumeCore s k) k).halted = false := by
  unfold resumeCore
  split
  · rw [coreAt_modCore_same]
  case isFalse h => exact Bool.eq_false_of_not_eq_true h

theorem endDebug_light {s : State} (h : s.light.scope ≠ 0) :
    (endDebug s).light = { s.light with scope := 0, notAfter := 0, held := s.light.held ||| 4 } := by
  rw [endDebug_eq h]
  refine (foldl_keep (keep := fun s => s.light) resumeCore_light ..).trans ?_
  split <;> rfl

theorem endDebug_resumes {s : State} (h : s.light.scope ≠ 0) (k : Nat) (hk : k < 5) :
    (coreAt (endDebug s) k).halted = false := by
  rw [endDebug_eq h]
  obtain ⟨u, -, hu⟩ := foldl_at (get := coreAt) (h := resumeCore) coreAt_resumeCore_ne (List.range 5) List.nodup_range k
    (List.mem_range.mpr hk) (if 1 < (scopeEnded s).sys.tapReg then modSys (fun v => { v with tapReg := 0 }) (scopeEnded s) else scopeEnded s)
  rw [hu, resumeCore_halted]

/-- What the end of an authorisation leaves of the Lighthouse. -/
theorem endDebug_rest (s : State) : (endDebug s).light.scope = 0 ∧ (endDebug s).light.challenge = s.light.challenge ∧
    (endDebug s).light.boxes = s.light.boxes := by
  by_cases h : s.light.scope = 0
  · rw [endDebug_none h]
    exact ⟨h, rfl, rfl⟩
  · rw [endDebug_light h]
    exact ⟨rfl, rfl, rfl⟩

theorem debugAuthExpiry_effect (s : State) : ∃ t, exec .debugAuthExpiry s = .next t ∧
    (s.tide.sec < s.light.notAfter ∨ s.light.scope = 0 → t = s) ∧
    (s.light.notAfter ≤ s.tide.sec → s.light.scope ≠ 0 →
      t.light = { s.light with scope := 0, notAfter := 0, held := s.light.held ||| 4 } ∧
      ∀ k, k < 5 → (coreAt t k).halted = false) := by
  refine ⟨_, rfl, fun h => ?_, fun h hs => ?_⟩
  · split
    · rfl
    case isFalse hn => exact endDebug_none (h.resolve_left hn)
  · rw [if_neg (Nat.not_lt.mpr h)]
    exact ⟨endDebug_light hs, endDebug_resumes hs⟩

/-! The watchdog (R529, R530). -/

theorem boxAt_lhAbort_ne (s : State) (p j : Nat) (h : j ≠ p) : boxAt (lhAbort p s) j = boxAt s j := by
  unfold lhAbort
  split
  · exact others_lhFail p _ _ j h
  · rfl

theorem lhAbort_busy (s : State) (p : Nat) : (boxAt (lhAbort p s) p).busy = false := by
  unfold lhAbort
  split
  · rw [boxAt_lhFail_same]
  case isFalse h => exact Bool.eq_false_of_not_eq_true h

theorem lhAbortAll_busy (s : State) (p : Nat) (hp : p < 32) : (boxAt (lhAbortAll s) p).busy = false := by
  obtain ⟨u, -, hu⟩ := foldl_at (get := boxAt) (h := fun s p => lhAbort p s) boxAt_lhAbort_ne (List.range 32) List.nodup_range p
    (List.mem_range.mpr hp) s
  rw [lhAbortAll, hu, lhAbort_busy]

theorem boxAt_of_boxes {s t : State} (h : t.light.boxes = s.light.boxes) (p : Nat) : boxAt t p = boxAt s p := by
  rw [boxAt, h, boxAt]

/-- The Lighthouse serves nothing: no claim, no challenge, no authorisation and no request in progress. -/
structure Away (s : State) : Prop where
  state : s.light.state ≠ 0
  claims : s.light.claims = 0
  challenge : s.light.challenge = none
  scope : s.light.scope = 0
  boxes : ∀ p, p < 32 → (boxAt s p).busy = false

/-- The Lighthouse with its requests aborted, its blocks returned and the authorisation ended. -/
def lightCleared (s : State) : State := endDebug (returnBlock 1 (returnBlock 0 (lhAbortAll s)))

/-- The restart begins. -/
def lightDown (s : State) : State :=
  modLight (fun l => { l with
    state := 1, claims := 0, challenge := none, restarted := true, restartAt := s.tide.counter :: l.restartAt.take 2 }) s

/-- The third restart within 60 s holds the Lighthouse in reset. -/
def heldInReset (s : State) : State :=
  let s := modLight (fun l => { l with state := 2, restarts := sat 8 (l.restarts + 1) }) s
  emit 0x5001 0 s (cause := 2) (value := s.light.restarts)

/-- The restart counted within 60 s. -/
def restartJudged (s : State) : State :=
  match s.light.restartAt[2]? with
  | some t => if s.tide.counter ≤ t + 60 * nsPerSec then heldInReset s else s
  | none => s

theorem lightReset_eq {s : State} (h : s.light.state ≠ 2) : lightReset s = restartJudged (lightDown (lightCleared s)) := by
  rw [lightReset, if_neg h]
  unfold lightCleared
  generalize endDebug (returnBlock 1 (returnBlock 0 (lhAbortAll s))) = u
  rfl

theorem lightDown_light (s : State) : (lightDown s).light = { s.light with
    state := 1, claims := 0, challenge := none, restarted := true
    restartAt := s.tide.counter :: s.light.restartAt.take 2 } := rfl

theorem returnBlock_boxAt (b : Nat) (s : State) (p : Nat) : boxAt (returnBlock b s) p = boxAt s p := rfl

/-- A cleared Lighthouse has no authorisation and no request in progress. -/
theorem lightCleared_rest (s : State) : (lightCleared s).light.scope = 0 ∧
    ∀ p, p < 32 → (boxAt (lightCleared s) p).busy = false := by
  unfold lightCleared
  obtain ⟨hs, -, hb⟩ := endDebug_rest (returnBlock 1 (returnBlock 0 (lhAbortAll s)))
  refine ⟨hs, fun p hp => ?_⟩
  rw [boxAt_of_boxes hb, returnBlock_boxAt, returnBlock_boxAt, lhAbortAll_busy s p hp]

theorem away_lightDown (s : State) : Away (lightDown (lightCleared s)) := by
  obtain ⟨hs, hb⟩ := lightCleared_rest s
  generalize lightCleared s = u at hs hb
  have hl := lightDown_light u
  exact {
    state := by rw [hl]; exact one_ne_zero
    claims := by rw [hl]
    challenge := by rw [hl]
    scope := by rw [hl]; exact hs
    boxes := fun p hp => (congrArg LhBox.busy (boxAt_of_boxes (by rw [hl]) p)).trans (hb p hp) }

theorem away_heldInReset {s : State} (h : Away s) : Away (heldInReset s) := by
  obtain ⟨-, hc, hq, hs, hb⟩ := h
  have hl : (heldInReset s).light = { s.light with state := 2, restarts := sat 8 (s.light.restarts + 1) } := emit_light ..
  exact {
    state := by rw [hl]; exact two_ne_zero
    claims := by rw [hl]; exact hc
    challenge := by rw [hl]; exact hq
    scope := by rw [hl]; exact hs
    boxes := fun p hp => (congrArg LhBox.busy (boxAt_of_boxes (by rw [hl]) p)).trans (hb p hp) }

theorem away_restartJudged {s : State} (h : Away s) : Away (restartJudged s) := by
  unfold restartJudged
  split
  · split
    · exact away_heldInReset h
    · exact h
  · exact h

theorem lhWatchdogExpiry_effect (s : State) : ∃ t, exec .lhWatchdogExpiry s = .next t ∧
    (s.pwr.keeper = false ∨ s.light.state = 2 → t = s) ∧ (s.pwr.keeper = true → s.light.state ≠ 2 → detected 0x060 false s t ∧
      t.light.state ≠ 0 ∧ t.light.claims = 0 ∧ t.light.challenge = none ∧ t.light.scope = 0 ∧ ∀ p, p < 32 → (boxAt t p).busy = false) := by
  refine ⟨_, rfl, fun h => ?_, fun hk hs => ?_⟩
  · rcases h with h | h
    · exact if_pos (by rw [h]; rfl)
    · exact (ite_congr rfl (fun _ => rfl) (fun _ => if_pos h)).trans (ite_self _)
  · rw [if_neg (by rw [hk]; decide), if_neg hs]
    have hd : (detect 0x060 false s).light.state ≠ 2 := by rw [detect_light]; exact hs
    obtain ⟨hst, hc, hq, hsc, hb⟩ := lightReset_eq hd ▸ away_restartJudged (away_lightDown (detect 0x060 false s))
    exact ⟨detected_before (detAt_detect _ _ s) (lightReset_frame (only [.sys, .wire, .light, .aps, .mem, .free]) rfl rfl rfl rfl rfl rfl _) rfl,
      hst, hc, hq, hsc, hb⟩

/-! The end of a restart (R529, R530, R540). -/

/-- What a restart tells of the Lighthouse whatever becomes of its keys. -/
def restartNote (s : State) : Nat × Bool := (s.light.restarts, s.light.mismatch)

theorem keyScan_restartNote (lost bad : List Nat) (s : State) : restartNote (keyScan lost bad s) = restartNote s := by
  refine (foldl_keep (keep := restartNote) (fun s k => ?_) ..).trans (foldl_keep (keep := restartNote) (fun s k => ?_) ..)
  · split
    · rw [restartNote, detect_light, emit_light]
      rfl
    · rfl
  · split
    · rw [restartNote, emit_light]
      rfl
    · rfl

theorem dropVolatile_restartNote (s : State) : restartNote (dropVolatile s) = restartNote s := by
  refine foldl_keep (keep := restartNote) (fun s k => ?_) ..
  dsimp only
  split <;> rfl

/-- The Lighthouse serves again. -/
def lightBack (again : List (Nat × Nat)) (s : State) : State :=
  modLight (fun l => { l with
    state := 0, restarts := sat 8 (l.restarts + 1), mismatch := l.mismatch || !again.isEmpty
    again := l.again ++ again.filter (fun e => !l.again.contains e)
    log := l.log ++ remeasured s again }) s

/-- A restart reported with its cause. -/
def restartReported (cause : Nat) (s : State) : State := emit 0x5001 0 s (cause := cause) (value := s.light.restarts)

theorem exec_lhRestartComplete (kat : Bool) (lost bad : List Nat) (again : List (Nat × Nat)) (s : State) :
    exec (.lhRestartComplete kat lost bad again) s = .next (if s.light.state ≠ 1 then s
      else if !kat then restartReported 2 (detect 0x061 false (modLight (fun l => { l with state := 2 }) s))
      else revokeConsumers (restartReported 1 (lightBack again (keyScan lost bad (dropVolatile s))))) := rfl

theorem restartReported_light (c : Nat) (s : State) : (restartReported c s).light = s.light := emit_light ..

theorem restartReported_saf (c : Nat) (s : State) : (restartReported c s).saf = s.saf := emit_saf ..

theorem revokeConsumers_light (s : State) : (revokeConsumers s).light = s.light :=
  same_of_blank (revokeConsumers_frame (only [.wire, .net]) rfl rfl s) .light rfl

theorem lhRestartComplete_effect (kat : Bool) (lost bad : List Nat) (again : List (Nat × Nat)) (s : State) :
    ∃ t, exec (.lhRestartComplete kat lost bad again) s = .next t ∧
      (s.light.state ≠ 1 → t = s) ∧
      (s.light.state = 1 → kat = false → t.light = { s.light with state := 2 } ∧ detected 0x061 false s t) ∧
      (s.light.state = 1 → kat = true → t.light.state = 0 ∧ t.light.restarts = sat 8 (s.light.restarts + 1) ∧
        t.light.mismatch = (s.light.mismatch || !again.isEmpty)) := by
  refine ⟨_, exec_lhRestartComplete kat lost bad again s, fun h => if_pos h, fun h hk => ?_, fun h hk => ?_⟩
  all_goals rw [if_neg (not_not.mpr h), hk]
  · rw [if_pos (show (!false) = true from rfl), restartReported_light, detect_light]
    exact ⟨rfl, detected_of_saf (detected_detect (s := s) (u := modLight (fun l => { l with state := 2 }) s) rfl rfl 0x061 false) (restartReported_saf ..)⟩
  · rw [if_neg (show ¬ (!true) = true by decide), revokeConsumers_light, restartReported_light]
    have hn : restartNote (keyScan lost bad (dropVolatile s)) = restartNote s :=
      (keyScan_restartNote ..).trans (dropVolatile_restartNote s)
    obtain ⟨hr, hm⟩ := Prod.mk.inj hn
    exact ⟨rfl, congrArg (fun n => sat 8 (n + 1)) hr, congrArg (· || !again.isEmpty) hm⟩

/-! Blocks and claims (R532, R533). -/

theorem blockHandover_effect (b claims : Nat) (s : State) (h : b < 3) : ∃ t, exec (.blockHandover b claims) s = .next t ∧
    t.light = if s.light.state ≠ 0 ∨ b = 2 ∨ (b = 0 ∧ s.pwr.vcoreEn = false) then s.light
      else { s.light with held := s.light.held ||| 2 ^ b, claims := s.light.claims ||| (claims % 32) } := by
  refine ⟨_, guardUnit_of_ok (decide_eq_true h) _, ?_⟩
  split <;> rfl

theorem returnBlock_light {b : Nat} {s : State} (h : bitOf b s.light.held = true) : (returnBlock b s).light = { s.light with
    held := s.light.held - 2 ^ b, claims := if (s.light.held - 2 ^ b) % 4 = 0 then 0 else s.light.claims } := by
  rw [returnBlock, modLight]
  dsimp only
  rw [if_pos h]

theorem blockReturn_effect (b : Nat) (s : State) (h : b < 3) : ∃ t, exec (.blockReturn b) s = .next t ∧
    if b = 2 ∨ bitOf b s.light.held = false then t = s else
    t.light = { s.light with held := s.light.held - 2 ^ b, claims := if (s.light.held - 2 ^ b) % 4 = 0 then 0 else s.light.claims } := by
  refine ⟨_, guardUnit_of_ok (decide_eq_true h) _, ?_⟩
  by_cases hb : b = 2 ∨ bitOf b s.light.held = false
  · rw [if_pos hb, if_pos hb]
  · rw [if_neg hb, if_neg hb]
    exact returnBlock_light (Bool.eq_true_of_not_eq_false (not_or.mp hb).2)

theorem exec_claimDeferralTimeout {s : State} {c : Trans} (h : s.pwr.trans = some c) : exec .claimDeferralTimeout s = .next
    (if c.claimed then modPwr (fun p => { p with trans := some { c with claimed := false } }) (forceCut (cutBits c.target) 2 s) else s) := by
  refine congrArg Host.Outcome.next ?_
  rw [h]

theorem forceCut_pwr (bits cause : Nat) (s : State) : (forceCut bits cause s).pwr = s.pwr :=
  same_of_blank (forceCut_frame (only [.sys, .wire, .light, .mem, .free]) rfl rfl rfl rfl rfl bits cause s) .pwr rfl

theorem claimDeferralTimeout_effect (s : State) : ∃ t, exec .claimDeferralTimeout s = .next t ∧
    (∀ c, s.pwr.trans = some c → c.claimed = true → t.pwr = { s.pwr with trans := some { c with claimed := false } }) ∧
    ((∀ c, s.pwr.trans = some c → c.claimed = false) → t = s) := by
  cases h : s.pwr.trans with
  | none =>
    refine ⟨s, congrArg Host.Outcome.next ?_, fun _ => (nomatch ·), fun _ => rfl⟩
    rw [h]
  | some c =>
    refine ⟨_, exec_claimDeferralTimeout h, fun c' hc hm => ?_, fun hn => if_neg ?_⟩
    · cases hc
      rw [if_pos hm, modPwr_pwr, forceCut_pwr]
    · rw [hn c rfl]
      decide

/-! Attestation and the challenge (R544, R546). -/

theorem exec_challengeExpiry {s : State} {c : Challenge} (h : s.light.challenge = some c) : exec .challengeExpiry s = .next
    (if s.tide.counter < c.at_ + 60 * nsPerSec then s else modLight (fun l => { l with challenge := none }) s) := by
  refine congrArg Host.Outcome.next ?_
  rw [h]

theorem challengeExpiry_effect (s : State) : ∃ t, exec .challengeExpiry s = .next t ∧
    (∀ c, s.light.challenge = some c → s.tide.counter < c.at_ + 60 * nsPerSec → t = s) ∧
    ((∀ c, s.light.challenge = some c → c.at_ + 60 * nsPerSec ≤ s.tide.counter) → t.light = { s.light with challenge := none }) := by
  cases hc : s.light.challenge with
  | none =>
    refine ⟨s, congrArg Host.Outcome.next ?_, fun _ => (nomatch ·), fun _ => ?_⟩
    · rw [hc]
    · rw [← hc]
  | some c =>
    refine ⟨_, exec_challengeExpiry hc, fun c' hc' ht => ?_, fun h => ?_⟩
    · cases hc'
      exact if_pos ht
    · rw [if_neg (Nat.not_lt.mpr (h c rfl))]
      rfl

theorem keyUse_free (h : Nat) (s : State) : (keyUse h s).free = s.free :=
  same_of_blank (keyUse_frame (only [.light]) rfl h s) .free rfl

theorem keyUse_boxes (h : Nat) (s : State) : (keyUse h s).light.boxes = s.light.boxes := by
  unfold keyUse
  split <;> rfl

/-- The action that attests. -/
def lightAttestation : ActSpec :=
  { code := 1, cyc := false, argOk := fun n => decide (n = 36), auth := fun _ _ _ _ => true
    check := fun _ _ _ a => if leAt a 1 3 ≠ 0 then .eRange else .ok
    run := fun _ _ _ s => (takeFree (keyUse (slotHandle s 1) s)).2
    result := fun _ a s => reportBytes s a ++ signWith (keyAt s 1) (reportBytes s a) s.free }

theorem cmdAct_lightAttestation {r : Req} {s : State} (h : ActPasses lightClass 1 r s) :
    let u := (takeFree (keyUse (slotHandle (taken r s) 1) (taken r s))).2
    cmdAct lightClass 1 r s = okTo lightClass 3 (actReq 1 r)
      (reportBytes u r.payload ++ signWith (keyAt u 1) (reportBytes u r.payload) u.free) u :=
  cmdAct_immediate (a := lightAttestation) h rfl (by decide) rfl rfl

theorem lightAttest_effect (r : Req) (s : State) (h : ActPasses lightClass 1 r s) : ∃ t, exec (.lightAttest r) s = .next t ∧
    ∃ u, t = okTo lightClass 3 (actReq 1 r) (reportBytes u r.payload ++ signWith (keyAt u 1) (reportBytes u r.payload) u.free) u ∧
      u.free = s.free + 1 ∧ u.light.boxes = s.light.boxes := by
  refine ⟨_, congrArg Host.Outcome.next (cmdAct_lightAttestation h), _, rfl, ?_, ?_⟩
  · rw [takeFree_free, keyUse_free, taken_free]
  · rw [takeFree_light, keyUse_boxes, taken_light]

/-- The challenge that a scope opens. -/
def freshChallenge (scope : Nat) (s : State) : Challenge :=
  { scope := scope, nonce := Config.freeValue s.free, cycle := s.cyc.number, at_ := s.tide.counter }

theorem openChallenge_effect (scope : Nat) (s : State) :
    (openChallenge scope s).light.challenge = some (freshChallenge scope s) ∧
    (scope = 0 → (openChallenge scope s).light.scope = 0) := by
  let u := modLight (fun l => { l with challenge := some (freshChallenge scope s) }) (takeFree s).2
  have he : openChallenge scope s = if scope = 0 then endDebug u else u := rfl
  obtain ⟨hs, hc, -⟩ := endDebug_rest u
  rw [he]
  refine ⟨?_, fun h => ?_⟩
  · split
    · exact hc
    · rfl
  · rw [if_pos h]
    exact hs

theorem freshChallenge_taken (scope : Nat) (r : Req) (s : State) : freshChallenge scope (taken r s) = freshChallenge scope s := by
  rw [freshChallenge, taken_free, taken_cyc, taken_counter, freshChallenge]

/-- The bytes of the open challenge, none without one. -/
def openBytes (s : State) : List Byte := match s.light.challenge with | some c => challengeBytes c | none => []

theorem openBytes_of {s : State} {c : Challenge} (h : s.light.challenge = some c) : openBytes s = challengeBytes c := by
  rw [openBytes, h]

theorem lightDebugChallenge_effect (r : Req) (s : State) (h : ActPasses lightClass 2 r s) :
    ∃ t, exec (.lightDebugChallenge r false) s = .next t ∧
      ∃ u c, t = okTo lightClass 3 (actReq 2 r) (challengeBytes c) u ∧ u.light.challenge = some c ∧
      c = { scope := leAt r.payload 0 2, nonce := Config.freeValue s.free, cycle := s.cyc.number, at_ := s.tide.counter } ∧
      (c.scope = 0 → u.light.scope = 0) := by
  have he : cmdAct lightClass 2 r s = okTo lightClass 3 (actReq 2 r)
      (openBytes (openChallenge (leAt r.payload 0 2) (taken r s))) (openChallenge (leAt r.payload 0 2) (taken r s)) :=
    cmdAct_immediate h rfl (by decide) rfl rfl
  obtain ⟨hc, hs⟩ := openChallenge_effect (leAt r.payload 0 2) (taken r s)
  rw [freshChallenge_taken] at hc
  rw [openBytes_of hc] at he
  exact ⟨_, congrArg Host.Outcome.next he, _, _, rfl, hc, rfl, hs⟩

theorem lightDebugChallenge_tap_effect (r : Req) (s : State) : ∃ t, exec (.lightDebugChallenge r true) s = .next t ∧
    if s.light.state ≠ 0 ∨ debugClosed s = true ∨ 128 ≤ leAt r.payload 0 2 then t = s else
    ∃ c, t.light.challenge = some c ∧ t.light.tap = challengeBytes c ∧
      c = { scope := leAt r.payload 0 2, nonce := Config.freeValue s.free, cycle := s.cyc.number, at_ := s.tide.counter } := by
  have he : exec (.lightDebugChallenge r true) s = .next
      (if s.light.state ≠ 0 ∨ debugClosed s = true ∨ 128 ≤ leAt r.payload 0 2 then s
      else modLight (fun l => { l with tap := match l.challenge with | some c => challengeBytes c | none => [] })
        (openChallenge (leAt r.payload 0 2) s)) := rfl
  refine ⟨_, he, ?_⟩
  by_cases hr : s.light.state ≠ 0 ∨ debugClosed s = true ∨ 128 ≤ leAt r.payload 0 2
  · rw [if_pos hr, if_pos hr]
  · rw [if_neg hr, if_neg hr]
    obtain ⟨hc, -⟩ := openChallenge_effect (leAt r.payload 0 2) s
    exact ⟨_, hc, openBytes_of hc, rfl⟩

/-! The response (R546, R547). -/

/-- The action by which a debugger answers. -/
def lightResponse : ActSpec :=
  { code := 3, cyc := false, argOk := fun n => decide (n = 108), auth := fun _ p _ _ => decide (p = 0)
    check := fun s _ _ a => if !responseFields a then .eRange
      else if !debugClosed s && responseOk s a then .ok else .eAuth
    run := fun _ _ a => grantDebug a
    refuse := fun st _ s => if st = .eAuth then failDebug s else s }

theorem actOf_lightResponse (r : Req) : actOf lightClass (actReq 3 r) = some lightResponse := by
  rw [actOf, actReq_code]
  rfl

/-- The checks of an immediate action and what follows from them. -/
theorem doAct_immediate {k : ClassSpec} {a : ActSpec} {r : Req} (ha : actOf k r = some a) (hi : a.cyc = false)
    (hh : a.held = fun _ _ => none) (s : State) : doAct k r s =
    let st := orLate k 3 r s (actStatus a r s)
    let u := a.run r.pound r.inst (r.payload.drop 4) (accepted r.pound s)
    if st = .ok then okTo k 3 r (a.result r.inst (r.payload.drop 4) u) u
    else answer k.code 3 r st none [] (a.refuse st (r.payload.drop 4) s) := by
  rw [doAct, ha]
  dsimp only
  split
  case h_1 hst =>
    rw [if_pos hst, hi, hh]
    rfl
  case h_2 hne => rw [if_neg hne]

theorem doAct_lightResponse (r : Req) (s : State) : doAct lightClass (actReq 3 r) s =
    let st := orLate lightClass 3 (actReq 3 r) s (actStatus lightResponse (actReq 3 r) s)
    if st = .ok then okTo lightClass 3 (actReq 3 r) [] (grantDebug r.payload (accepted r.pound s))
    else answer 0x50 3 (actReq 3 r) st none [] (if st = .eAuth then failDebug s else s) :=
  doAct_immediate (actOf_lightResponse r) rfl rfl s

/-- A response that is heard reaches its checks. -/
theorem cmdAct_lightResponse {r : Req} {s : State} (h : Heard lightClass 3 (actReq 3 r) s) : cmdAct lightClass 3 r s =
    let st := orLate lightClass 3 (actReq 3 r) (received r.pound s) (actStatus lightResponse (actReq 3 r) (received r.pound s))
    if st = .ok then okTo lightClass 3 (actReq 3 r) [] (grantDebug r.payload (taken r s))
    else answer 0x50 3 (actReq 3 r) st none [] (if st = .eAuth then failDebug (received r.pound s) else received r.pound s) :=
  (serve_heard h _).trans (doAct_lightResponse r (received r.pound s))

theorem debugClosed_received (p : Nat) (s : State) : debugClosed (received p s) = debugClosed s := by
  rw [debugClosed, received_light, debugClosed]

theorem responseOk_received (p : Nat) (s : State) (a : List Byte) : responseOk (received p s) a = responseOk s a := by
  unfold responseOk keyAt
  rw [received_light, received_tide]

theorem actStatus_lightResponse {r : Req} (hp : r.pound = 0) (s : State) : actStatus lightResponse (actReq 3 r) s =
    if responseFields r.payload = false then .eRange
    else if debugClosed s = false ∧ responseOk s r.payload = true then .ok else .eAuth := by
  unfold actStatus lightResponse
  dsimp only
  rw [actReq_argument, show leAt (actReq 3 r).payload 1 3 = 0 by simp [leAt, actReq, leBytes, leNat],
    show (actReq 3 r).pound = 0 from hp]
  simp

theorem lightGate_received {s : State} (h : s.light.state = 0) (p : Nat) : lightGate lightClass.code (received p s) = .ok := by
  unfold lightGate
  rw [received_light, h]
  simp

/-- With the Lighthouse serving and the start complete, step 12 adds nothing. -/
theorem orLate_lightResponse {r : Req} {s : State} (hl : s.light.state = 0) (hs : s.fv.started = true) (st : Status) :
    orLate lightClass 3 (actReq 3 r) (received r.pound s) st = st := by
  unfold orLate late
  rw [lightGate_received hl, started_of_core (received_fv_fv ..), hs]
  split
  case isTrue h => simp [h]
  case isFalse h => simp

theorem grantDebug_light (a : List Byte) (s : State) : (grantDebug a s).light.scope = leAt a 0 2 ∧
    (grantDebug a s).light.notAfter = leAt a 4 6 ∧ (grantDebug a s).light.challenge = none ∧
    (grantDebug a s).light.dbgSince = true := ⟨rfl, rfl, rfl, rfl⟩

theorem lightDebugResponse_effect (r : Req) (s : State) (h : Heard lightClass 3 (actReq 3 r) s) (hp : r.pound = 0)
    (_ : r.payload.length = 108) (hf : responseFields r.payload = true) (hl : s.light.state = 0) (hs : s.fv.started = true) :
    ∃ t, exec (.lightDebugResponse r false) s = .next t ∧
      if debugClosed s = false ∧ responseOk s r.payload = true then
        (∃ u, t = okTo lightClass 3 (actReq 3 r) [] u ∧ u.light.scope = leAt r.payload 0 2 ∧ u.light.notAfter = leAt r.payload 4 6 ∧ u.light.challenge = none ∧ u.light.dbgSince = true)
      else ∃ u, t = answer 0x50 3 (actReq 3 r) .eAuth none [] u ∧ u.light.dbgFail = sat 8 (s.light.dbgFail + 1) ∧ u.light.challenge = none ∧ u.light.scope = s.light.scope := by
  have he := cmdAct_lightResponse h
  rw [orLate_lightResponse hl hs, actStatus_lightResponse hp, debugClosed_received, responseOk_received,
    if_neg (show ¬ responseFields r.payload = false by rw [hf]; decide)] at he
  refine ⟨_, congrArg Host.Outcome.next he, ?_⟩
  by_cases hok : debugClosed s = false ∧ responseOk s r.payload = true
  · rw [if_pos hok, if_pos hok, if_pos rfl]
    exact ⟨_, rfl, grantDebug_light r.payload (taken r s)⟩
  · rw [if_neg hok, if_neg hok, if_neg (by decide)]
    refine ⟨failDebug (received r.pound s), rfl, ?_⟩
    rw [failDebug, modLight]
    dsimp only
    rw [received_light]
    exact ⟨rfl, rfl, rfl⟩

theorem lightDebugResponse_range_effect (r : Req) (s : State) (h : Heard lightClass 3 (actReq 3 r) s) (hp : r.pound = 0)
    (_ : r.payload.length = 108) (hf : responseFields r.payload = false) (hl : s.light.state = 0) (hs : s.fv.started = true) :
    ∃ t, exec (.lightDebugResponse r false) s = .next t ∧ t = answer 0x50 3 (actReq 3 r) .eRange none [] (received r.pound s) := by
  have he := cmdAct_lightResponse h
  rw [orLate_lightResponse hl hs, actStatus_lightResponse hp, if_pos hf, if_neg (by decide), if_neg (by decide)] at he
  exact ⟨_, congrArg Host.Outcome.next he, rfl⟩

theorem lightDebugResponse_tap_effect (r : Req) (s : State) : ∃ t, exec (.lightDebugResponse r true) s = .next t ∧
    (s.light.state ≠ 0 → t = s) ∧
    (s.light.state = 0 → if debugClosed s = false ∧ r.payload.length = 108 ∧ responseFields r.payload = true ∧ responseOk s r.payload = true
      then t.light.scope = leAt r.payload 0 2 ∧ t.light.challenge = none
      else t.light.dbgFail = sat 8 (s.light.dbgFail + 1) ∧ t.light.challenge = none ∧ t.light.scope = s.light.scope) := by
  have he : exec (.lightDebugResponse r true) s = .next (if s.light.state ≠ 0 then s
      else if !debugClosed s && decide (r.payload.length = 108) && responseFields r.payload && responseOk s r.payload
      then grantDebug r.payload s else failDebug s) := rfl
  refine ⟨_, he, fun h => if_pos h, fun h => ?_⟩
  rw [if_neg (not_not.mpr h)]
  have hc : (!debugClosed s && decide (r.payload.length = 108) && responseFields r.payload && responseOk s r.payload) = true ↔
      (debugClosed s = false ∧ r.payload.length = 108 ∧ responseFields r.payload = true ∧ responseOk s r.payload = true) := by
    simp [and_assoc]
  by_cases hok : debugClosed s = false ∧ r.payload.length = 108 ∧ responseFields r.payload = true ∧ responseOk s r.payload = true
  · rw [if_pos hok, if_pos (hc.mpr hok)]
    exact ⟨rfl, rfl⟩
  · rw [if_neg hok, if_neg (fun h => hok (hc.mp h))]
    exact ⟨rfl, rfl, rfl⟩

/-- Settles O40: a reset of the Lighthouse aborts, returns and ends before it takes the claims and the challenge away, and
the two paths of the debugger differ in the answer alone. -/
theorem lighthouseRestartClaimsAndDebug : Obligations.LighthouseRestartClaimsAndDebug :=
  ⟨lhWatchdogExpiry_effect, lhRestartComplete_effect, blockHandover_effect, blockReturn_effect, claimDeferralTimeout_effect,
    challengeExpiry_effect, debugAuthExpiry_effect, lightAttest_effect, lightDebugChallenge_effect,
    lightDebugChallenge_tap_effect, lightDebugResponse_effect, lightDebugResponse_range_effect, lightDebugResponse_tap_effect⟩

end Sys2Proof.Machine
end


section
/-! Images and charts (O41). -/
open Sys2Proof
namespace Sys2Proof.Machine

/-! Bytes written read as they were written. -/

/-- The bytes of a store, read back. -/
theorem memBytes_memWriteBytes (bs : List Byte) (m : List Host.Cell) (i : Nat) :
    memBytes (memWriteBytes i bs m) i bs.length = bs := by
  induction bs generalizing m i with
  | nil => rfl
  | cons b bs ih =>
    have htail : (List.range bs.length).map (fun k => memRead (memWriteBytes (i + 1) bs (memWrite i b m)) (i + (k + 1))) = bs := by
      refine (List.map_congr_left fun k _ => ?_).trans (ih (memWrite i b m) (i + 1))
      rw [Nat.add_assoc i 1 k, Nat.add_comm 1 k]
    have hhead : memRead (memWriteBytes (i + 1) bs (memWrite i b m)) i = b := by
      rw [memRead_memWriteBytes_out bs _ (i + 1) i (.inl (Nat.lt_succ_self i)), memRead_memWrite_same]
    rw [memBytes, List.length_cons, List.range_succ_eq_map, List.map_cons, List.map_map, memWriteBytes, Nat.add_zero i, hhead]
    exact congrArg (b :: ·) htail

/-! What the operations on banks, slots and the boot record leave alone. -/

theorem taken_img (r : Req) (s : State) : (taken r s).img = s.img := by rw [taken, accepted_img, received_img]

theorem taken_sys (r : Req) (s : State) : (taken r s).sys = s.sys := by rw [taken, accepted_sys, received_sys]

theorem taken_mem (r : Req) (s : State) : (taken r s).mem = s.mem := by rw [taken, accepted_mem, received_mem]

/-- The image record beside its banks and slots. -/
def offBanks (i : Img) : Img := { i with banks := [], slots := [] }

theorem setBankState_offBanks (b st : Nat) (s : State) : offBanks (setBankState b st s).img = offBanks s.img := by
  unfold setBankState
  split <;> rfl

theorem setSlotState_offBanks (k st : Nat) (s : State) : offBanks (setSlotState k st s).img = offBanks s.img := by
  unfold setSlotState
  split <;> rfl

theorem act_of_offBanks {s t : State} (h : offBanks t.img = offBanks s.img) : t.img.act = s.img.act := (congrArg Img.act h :)

theorem shut_of_offBanks {s t : State} (h : offBanks t.img = offBanks s.img) : t.img.shut = s.img.shut := (congrArg Img.shut h :)

theorem boot_of_offBanks {s t : State} (h : offBanks t.img = offBanks s.img) : t.img.boot = s.img.boot := (congrArg Img.boot h :)

theorem commit_of_offBanks {s t : State} (h : offBanks t.img = offBanks s.img) : t.img.commit = s.img.commit :=
  (congrArg Img.commit h :)

theorem bankImgAt_of_img {s t : State} (h : t.img = s.img) (b : Nat) : bankImgAt t b = bankImgAt s b := by
  rw [bankImgAt, h, bankImgAt]

theorem slotImgAt_of_img {s t : State} (h : t.img = s.img) (k : Nat) : slotImgAt t k = slotImgAt s k := by
  rw [slotImgAt, h, slotImgAt]

/-- A bank takes its state and keeps the block that failed. -/
theorem bankImgAt_setBankState (b st : Nat) (s : State) :
    (bankImgAt (setBankState b st s) b).state = st ∧ (bankImgAt (setBankState b st s) b).fail = (bankImgAt s b).fail := by
  unfold setBankState
  split
  case isTrue h => exact ⟨h, rfl⟩
  case isFalse =>
    rw [bankImgAt_modBankImg_same]
    exact ⟨rfl, rfl⟩

theorem slotImgAt_setSlotState (k st : Nat) (s : State) : (slotImgAt (setSlotState k st s) k).state = st := by
  unfold setSlotState
  split
  case isTrue h => exact h
  case isFalse => rw [slotImgAt_modSlotImg_same]

theorem setBankState_same (r : Region) (hr : only [.img] r = false) (b st : Nat) (s : State) : r.same s (setBankState b st s) :=
  same_of_blank (setBankState_frame (only [.img]) rfl b st s) r hr

theorem setSlotState_same (r : Region) (hr : only [.img] r = false) (k st : Nat) (s : State) : r.same s (setSlotState k st s) :=
  same_of_blank (setSlotState_frame (only [.img]) rfl k st s) r hr

theorem setBankState_mem (b st : Nat) (s : State) : (setBankState b st s).mem = s.mem :=
  blank_mem (setBankState_frame (only [.img]) rfl b st s) rfl

theorem setSlotState_mem (k st : Nat) (s : State) : (setSlotState k st s).mem = s.mem :=
  blank_mem (setSlotState_frame (only [.img]) rfl k st s) rfl

theorem tellBarges_same (r : Region) (hr : only [.wire, .tow] r = false) (verb act : Nat) (a : List Byte) (s : State) :
    r.same s (tellBarges verb act a s) :=
  same_of_blank (tellBarges_frame (only [.wire, .tow]) rfl rfl verb act a s) r hr

/-- An immediate action without payload in its answer. -/
theorem cmdAct_plain {k : ClassSpec} {code : Nat} {r : Req} {s : State} (h : ActPasses k code r s) {a : ActSpec}
    (ha : k.acts.filter (fun a => decide (a.code = code)) = [a]) (hc : code < 256) (hi : a.cyc = false)
    (hh : a.held = fun _ _ => none) (hp : a.result = fun _ _ _ => []) {run : State → State}
    (hr : a.run r.pound r.inst r.payload = run) : cmdAct k code r s = okTo k 3 (actReq code r) [] (run (taken r s)) := by
  rw [cmdAct_immediate h ha hc hi hh, hp, hr]

/-! Writing blocks (R599, R609). -/

theorem writeUnit_reads (base off : Nat) (d : List Byte) (s : State) :
    memBytes (writeUnit base off d s).mem (base + 2048 * off) d.length = d ∧
    ∀ a, a < base + 2048 * off ∨ base + 2048 * off + d.length ≤ a → memRead (writeUnit base off d s).mem a = memRead s.mem a :=
  ⟨memBytes_memWriteBytes d s.mem _, fun a h => memRead_memWriteBytes_out d s.mem _ a h⟩

/-- A unit written to a bank. -/
def bankWritten (a : List Byte) (s : State) : State :=
  setBankState (leAt a 0 1) 1 (writeUnit (bankBase (leAt a 0 1)) (leAt a 4 4) (a.drop 8) s)

/-- The action that writes to a bank. -/
def imageWriting : ActSpec :=
  { code := 1, cyc := false, argOk := fun n => decide (n = 2056)
    auth := fun _ p _ _ => decide (p = 0)
    check := fun s _ _ a => writeStatus (bankImgAt s (leAt a 0 1)).state 4095 a
    run := fun _ _ a s => bankWritten a s }

theorem cmdAct_imageWriting {r : Req} {s : State} (h : ActPasses imageClass 1 r s) :
    cmdAct imageClass 1 r s = okTo imageClass 3 (actReq 1 r) [] (bankWritten r.payload (taken r s)) :=
  cmdAct_plain (a := imageWriting) h rfl (by decide) rfl rfl rfl rfl

theorem bankWritten_effect (a : List Byte) (s : State) : (bankImgAt (bankWritten a s) (leAt a 0 1)).state = 1 ∧
    memBytes (bankWritten a s).mem (bankBase (leAt a 0 1) + 2048 * leAt a 4 4) (a.drop 8).length = a.drop 8 ∧
    ∀ i, i < bankBase (leAt a 0 1) + 2048 * leAt a 4 4 ∨ bankBase (leAt a 0 1) + 2048 * leAt a 4 4 + (a.drop 8).length ≤ i →
      memRead (bankWritten a s).mem i = memRead s.mem i := by
  rw [bankWritten, setBankState_mem]
  exact ⟨(bankImgAt_setBankState ..).1, writeUnit_reads ..⟩

theorem imageWrite_effect (r : Req) (s : State) (h : ActPasses imageClass 1 r s) : ∃ t, exec (.imageWrite r) s = .next t ∧
    ∃ u, t = okTo imageClass 3 (actReq 1 r) [] u ∧ (bankImgAt u (leAt r.payload 0 1)).state = 1 ∧ memBytes u.mem (bankBase (leAt r.payload 0 1) + 2048 * leAt r.payload 4 4) (r.payload.drop 8).length = r.payload.drop 8 ∧
      ∀ a, a < bankBase (leAt r.payload 0 1) + 2048 * leAt r.payload 4 4 ∨ bankBase (leAt r.payload 0 1) + 2048 * leAt r.payload 4 4 + (r.payload.drop 8).length ≤ a → memRead u.mem a = memRead s.mem a := by
  have hw := bankWritten_effect r.payload (taken r s)
  rw [taken_mem] at hw
  exact ⟨_, congrArg Host.Outcome.next (cmdAct_imageWriting h), _, rfl, hw⟩

/-- A slot written to is read anew. -/
def slotRenewed (k : Nat) (s : State) : State :=
  modSlotImg k (fun x => { x with head := headOf s (slotBase k), items := [], digest := false }) s

theorem slotRenewed_effect (k : Nat) (s : State) : (slotImgAt (slotRenewed k s) k).state = (slotImgAt s k).state ∧
    (slotImgAt (slotRenewed k s) k).items = [] ∧ (slotImgAt (slotRenewed k s) k).digest = false ∧
    (slotImgAt (slotRenewed k s) k).head = headOf (slotRenewed k s) (slotBase k) := by
  have h : slotImgAt (slotRenewed k s) k = { slotImgAt s k with head := headOf s (slotBase k), items := [], digest := false } :=
    slotImgAt_modSlotImg_same ..
  rw [h]
  exact ⟨rfl, rfl, rfl, rfl⟩

/-- A unit written to a slot. -/
def slotWritten (a : List Byte) (s : State) : State :=
  slotRenewed (leAt a 0 1) (setSlotState (leAt a 0 1) 1 (writeUnit (slotBase (leAt a 0 1)) (leAt a 4 4) (a.drop 8) s))

/-- The action that writes to a slot. -/
def chartWriting : ActSpec :=
  { code := 1, cyc := false, argOk := fun n => decide (n = 2056)
    auth := fun _ p _ _ => decide (p = 0)
    check := fun s _ _ a => writeStatus (slotImgAt s (leAt a 0 1)).state 511 a
    run := fun _ _ a s => slotWritten a s }

theorem cmdAct_chartWriting {r : Req} {s : State} (h : ActPasses chartSpec 1 r s) :
    cmdAct chartSpec 1 r s = okTo chartSpec 3 (actReq 1 r) [] (slotWritten r.payload (taken r s)) :=
  cmdAct_plain (a := chartWriting) h rfl (by decide) rfl rfl rfl rfl

theorem slotWritten_mem (a : List Byte) (s : State) : (slotWritten a s).mem =
    (writeUnit (slotBase (leAt a 0 1)) (leAt a 4 4) (a.drop 8) s).mem := setSlotState_mem ..

theorem slotWritten_effect (a : List Byte) (s : State) : (slotImgAt (slotWritten a s) (leAt a 0 1)).state = 1 ∧
    (slotImgAt (slotWritten a s) (leAt a 0 1)).items = [] ∧ (slotImgAt (slotWritten a s) (leAt a 0 1)).digest = false ∧
    (slotImgAt (slotWritten a s) (leAt a 0 1)).head = headOf (slotWritten a s) (slotBase (leAt a 0 1)) ∧
    memBytes (slotWritten a s).mem (slotBase (leAt a 0 1) + 2048 * leAt a 4 4) (a.drop 8).length = a.drop 8 ∧
    ∀ i, i < slotBase (leAt a 0 1) + 2048 * leAt a 4 4 ∨ slotBase (leAt a 0 1) + 2048 * leAt a 4 4 + (a.drop 8).length ≤ i →
      memRead (slotWritten a s).mem i = memRead s.mem i := by
  obtain ⟨hs, hi, hd, hh⟩ := slotRenewed_effect (leAt a 0 1)
    (setSlotState (leAt a 0 1) 1 (writeUnit (slotBase (leAt a 0 1)) (leAt a 4 4) (a.drop 8) s))
  rw [slotWritten_mem]
  exact ⟨hs.trans (slotImgAt_setSlotState ..), hi, hd, hh, writeUnit_reads ..⟩

theorem chartWrite_effect (r : Req) (s : State) (h : ActPasses chartSpec 1 r s) : ∃ t, exec (.chartWrite r) s = .next t ∧
    ∃ u, t = okTo chartSpec 3 (actReq 1 r) [] u ∧ (slotImgAt u (leAt r.payload 0 1)).state = 1 ∧ (slotImgAt u (leAt r.payload 0 1)).items = [] ∧ (slotImgAt u (leAt r.payload 0 1)).digest = false ∧ (slotImgAt u (leAt r.payload 0 1)).head = headOf u (slotBase (leAt r.payload 0 1)) ∧
      memBytes u.mem (slotBase (leAt r.payload 0 1) + 2048 * leAt r.payload 4 4) (r.payload.drop 8).length = r.payload.drop 8 ∧
      ∀ a, a < slotBase (leAt r.payload 0 1) + 2048 * leAt r.payload 4 4 ∨ slotBase (leAt r.payload 0 1) + 2048 * leAt r.payload 4 4 + (r.payload.drop 8).length ≤ a → memRead u.mem a = memRead s.mem a := by
  have hw := slotWritten_effect r.payload (taken r s)
  rw [taken_mem] at hw
  exact ⟨_, congrArg Host.Outcome.next (cmdAct_chartWriting h), _, rfl, hw⟩

/-! Verification (R595, R596). -/

theorem verifyImage_congr {s t : State} (hm : t.mem = s.mem) (hl : t.light = s.light) (b : Nat) :
    verifyImage t b = verifyImage s b := by
  have h : ∀ u : State, verifyImage u b = verifyImage { State.reset with mem := u.mem, light := u.light } b := fun _ => rfl
  rw [h, hm, hl, ← h]

/-- The bank verified. -/
def bankSound (b : Nat) (s : State) : State :=
  let s := modBankImg b (fun x => { x with fail := 0 }) s
  if (bankImgAt s b).state ∈ [3, 4, 6] then s else setBankState b 2 s

/-- The bank that failed at block `f`. -/
def bankFailed (b f : Nat) (s : State) : State :=
  emit 0x8002 b (setBankState b 5 (modBankImg b (fun x => { x with fail := f }) s)) (cause := b) (value := (f : Int))

/-- The action that verifies a bank. -/
def imageVerification : ActSpec :=
  { code := 2, cyc := false, argOk := fun n => decide (n = 1)
    auth := fun _ p _ _ => decide (p = 0)
    check := fun s _ _ a =>
      if 1 < leAt a 0 1 then .eRange else if (verifyImage s (leAt a 0 1)).isSome then .eCheck else .ok
    run := fun _ _ a s => bankSound (leAt a 0 1) s
    refuse := fun st a s => if st ≠ .eCheck then s else bankFailed (leAt a 0 1) ((verifyImage s (leAt a 0 1)).getD 0) s }

theorem imageVerification_run : imageVerification.run = fun _ _ a s => bankSound (leAt a 0 1) s := rfl

theorem imageVerification_result : imageVerification.result = fun _ _ _ => [] := rfl

theorem imageVerification_refuse : imageVerification.refuse = fun st a s =>
    if st ≠ .eCheck then s else bankFailed (leAt a 0 1) ((verifyImage s (leAt a 0 1)).getD 0) s := rfl

theorem actOf_imageVerification (r : Req) : actOf imageClass (actReq 2 r) = some imageVerification := by
  rw [actOf, actReq_code]
  rfl

theorem leAt_actReq_reserved (code : Nat) (h : code < 256) (r : Req) : leAt (actReq code r).payload 1 3 = 0 := by
  have hc : code / 256 = 0 := Nat.div_eq_of_lt h
  simp [leAt, actReq, leBytes, leNat, hc]

theorem actStatus_imageVerification {r : Req} (hp : r.pound = 0) (hb : leAt r.payload 0 1 < 2) (s : State) :
    actStatus imageVerification (actReq 2 r) s = if (verifyImage s (leAt r.payload 0 1)).isSome then .eCheck else .ok := by
  unfold actStatus imageVerification
  dsimp only
  rw [actReq_argument, leAt_actReq_reserved 2 (by decide), show (actReq 2 r).pound = 0 from hp,
    if_neg (show ¬ 1 < leAt r.payload 0 1 by omega)]
  simp

/-- Step 12 passes a command of class IMAGE, which the device serves from the beginning. -/
theorem orLate_imageClass (r : Req) (s : State) (st : Status) : orLate imageClass 3 r s st = st := by
  unfold orLate late
  have hl : lightGate imageClass.code s = .ok := rfl
  have he : earlyClass imageClass.code 3 r.payload = true := rfl
  rw [hl, he]
  split
  case isTrue h => simp [h]
  case isFalse h => simp

theorem bankSound_fail (b : Nat) (s : State) : (bankImgAt (bankSound b s) b).fail = 0 := by
  unfold bankSound
  dsimp only
  split
  · rw [bankImgAt_modBankImg_same]
  · rw [(bankImgAt_setBankState ..).2, bankImgAt_modBankImg_same]

theorem bankFailed_effect (b f : Nat) (s : State) : (bankImgAt (bankFailed b f s) b).fail = f ∧
    (bankImgAt (bankFailed b f s) b).state = 5 := by
  rw [bankFailed, bankImgAt_of_img (emit_img ..), (bankImgAt_setBankState ..).1, (bankImgAt_setBankState ..).2,
    bankImgAt_modBankImg_same]
  exact ⟨rfl, rfl⟩

/-- A verification that reaches its check. -/
theorem doAct_imageVerification {r : Req} (hp : r.pound = 0) (hb : leAt r.payload 0 1 < 2) (s : State) :
    doAct imageClass (actReq 2 r) s = match verifyImage s (leAt r.payload 0 1) with
    | none => okTo imageClass 3 (actReq 2 r) [] (bankSound (leAt r.payload 0 1) (accepted r.pound s))
    | some f => answer 0x80 3 (actReq 2 r) .eCheck none [] (bankFailed (leAt r.payload 0 1) f s) := by
  have hd := doAct_immediate (actOf_imageVerification r) rfl rfl s
  rw [orLate_imageClass, actStatus_imageVerification hp hb, actReq_argument, imageVerification_run,
    imageVerification_result, imageVerification_refuse] at hd
  rw [hd]
  dsimp only
  cases hv : verifyImage s (leAt r.payload 0 1) with
  | none => exact if_pos rfl
  | some f =>
    dsimp only
    rw [if_pos (show (some f).isSome = true from rfl), if_neg (show ¬ Status.eCheck = .ok by decide),
      if_neg (show ¬ Status.eCheck ≠ .eCheck by decide)]
    rfl

theorem imageVerify_effect (r : Req) (s : State) (h : Heard imageClass 3 (actReq 2 r) s) (hp : r.pound = 0)
    (_ : r.payload.length = 1) (hb : leAt r.payload 0 1 < 2) : ∃ t, exec (.imageVerify r) s = .next t ∧
      (verifyImage s (leAt r.payload 0 1) = none → ∃ u, t = okTo imageClass 3 (actReq 2 r) [] u ∧ (bankImgAt u (leAt r.payload 0 1)).fail = 0) ∧
      (∀ f, verifyImage s (leAt r.payload 0 1) = some f → ∃ u, t = answer 0x80 3 (actReq 2 r) .eCheck none [] u ∧ (bankImgAt u (leAt r.payload 0 1)).fail = f ∧ (bankImgAt u (leAt r.payload 0 1)).state = 5) := by
  have he : cmdAct imageClass 2 r s = _ := (serve_heard h _).trans (doAct_imageVerification hp hb (received r.pound s))
  rw [verifyImage_congr (received_mem ..) (received_light ..)] at he
  refine ⟨_, congrArg Host.Outcome.next he, fun hn => ?_, fun f hf => ?_⟩
  · rw [hn]
    exact ⟨_, rfl, bankSound_fail ..⟩
  · rw [hf]
    exact ⟨_, rfl, bankFailed_effect ..⟩

/-! Activations (R600-R607). -/

/-- An action whose request waits for its response. -/
theorem cmdAct_held {k : ClassSpec} {code : Nat} {r : Req} {s t : State} (h : ActPasses k code r s) {a : ActSpec}
    (ha : k.acts.filter (fun a => decide (a.code = code)) = [a]) (hc : code < 256) (hi : a.cyc = false)
    (hh : a.held (actReq code r) (taken r s) = some t) : cmdAct k code r s = t := by
  obtain ⟨b, hb, he⟩ := cmdAct_passes h
  obtain rfl := actOf_eq hc ha hb
  rw [he, hi, hh]
  rfl

/-- A branch that keeps the activation. -/
theorem act_ite {c : Prop} [Decidable c] {a s : State} (h : a.img.act = s.img.act) :
    (if c then a else s).img.act = s.img.act := by
  split
  · exact h
  · rfl

theorem act_ite' {c : Prop} [Decidable c] {a s : State} (h : a.img.act = s.img.act) :
    (if c then s else a).img.act = s.img.act := by
  split
  · rfl
  · exact h

theorem setBankState_act (b st : Nat) (s : State) : (setBankState b st s).img.act = s.img.act :=
  act_of_offBanks (setBankState_offBanks ..)

/-- The activation that a command begins. -/
def begun (r : Req) (verb b : Nat) (revert : Bool) (a : List Byte) (s : State) : Activation :=
  { bank := b, mode := actMode a, trialS := actTrial a, time := if actMode a = 2 then actTime a else 0
    req := if decide (actMode a = 0) || decide (s.sys.role = .barge) then none else some r, verb := verb, revert := revert
    confirm := if actMode a = 0 then [] else runningBarges s }

theorem beginAct_act (r : Req) (verb b : Nat) (revert : Bool) (a : List Byte) (s : State) :
    (beginAct r verb b revert a s).img.act = some (begun r verb b revert a s) := by
  unfold beginAct
  dsimp only
  refine (act_ite (congrArg Img.act (answer_img ..))).trans ?_
  refine (act_ite (congrArg Img.act (emit_img ..))).trans ?_
  refine (act_ite' (congrArg Img.act (tellBarges_same .img rfl ..))).trans ?_
  refine (act_ite (congrArg Img.act (setDevState_same .img rfl ..))).trans ?_
  exact act_ite' (setBankState_act ..)

theorem begun_taken (r q : Req) (verb b : Nat) (revert : Bool) (a : List Byte) (s : State) :
    begun q verb b revert a (taken r s) = { begun q verb b revert a s with
      confirm := if actMode a = 0 then [] else runningBarges (taken r s) } := by
  rw [begun, taken_sys]
  rfl

theorem imageActivate_effect (r : Req) (s : State) (h : ActPasses imageClass 3 r s) :
    ∃ t, exec (.imageActivate r) s = .next t ∧ t = beginAct (actReq 3 r) 3 (leAt r.payload 0 1) false r.payload (taken r s) ∧
      t.img.act = some { bank := leAt r.payload 0 1, mode := actMode r.payload, trialS := actTrial r.payload, time := if actMode r.payload = 2 then actTime r.payload else 0, req := if decide (actMode r.payload = 0) || decide (s.sys.role = .barge) then none else some (actReq 3 r), verb := 3, revert := false, confirm := if actMode r.payload = 0 then [] else runningBarges (taken r s) } := by
  have he : cmdAct imageClass 3 r s = beginAct (actReq 3 r) 3 (leAt r.payload 0 1) false r.payload (taken r s) :=
    cmdAct_held h rfl (by decide) rfl rfl
  exact ⟨_, congrArg Host.Outcome.next he, rfl, (beginAct_act ..).trans (congrArg some (begun_taken ..))⟩

/-- A cancelled activation is gone. -/
theorem cancelAct_act (st : Status) (s : State) : (cancelAct st s).img.act = none := by
  unfold cancelAct
  split
  case h_1 h => exact h
  case h_2 a h =>
    have hn : ∀ u : State, u.img.act = none →
        (match a.req with | some r => answer 0x80 a.verb r st none [] u | none => u).img.act = none := by
      intro u hu
      cases a.req with
      | none => exact hu
      | some r => exact (congrArg Img.act (answer_img ..)).trans hu
    refine hn _ ?_
    refine (act_ite (congrArg Img.act (emit_img ..))).trans ?_
    refine (act_ite (congrArg Img.act (setDevState_same .img rfl ..))).trans ?_
    exact act_ite (setBankState_act ..)

theorem cancelAll_eq {s : State} {a : Activation} (h : s.img.act = some a) (st : Status) : cancelAll st s =
    modImg (fun i => { i with shut := false })
      (cancelAct st (if a.mode = 0 then s else tellBarges 3 4 (leBytes 2 a.bank) s)) := by
  rw [cancelAll, h]

theorem cancelAll_effect {s : State} {a : Activation} (h : s.img.act = some a) (st : Status) :
    (cancelAll st s).img.act = none ∧ (cancelAll st s).img.shut = false := by
  rw [cancelAll_eq h]
  exact ⟨cancelAct_act st _, rfl⟩

theorem rollbackCase_taken (r : Req) (s : State) : rollbackCase (taken r s) = rollbackCase s := by
  rw [rollbackCase, taken_img, taken_sys, rollbackCase]

theorem act_of_rollbackCase {s : State} (h : rollbackCase s = 1) : ∃ a, s.img.act = some a := by
  cases ha : s.img.act with
  | some a => exact ⟨a, rfl⟩
  | none =>
    unfold rollbackCase at h
    rw [ha] at h
    dsimp only at h
    split at h
    · contradiction
    · split at h <;> contradiction

theorem rollback_cancels {r : Req} {s : State} (h : rollbackCase s = 1) : (rollback r s).img.act = none := by
  obtain ⟨a, ha⟩ := act_of_rollbackCase h
  unfold rollback
  rw [h]
  exact (congrArg Img.act (answer_img ..)).trans (cancelAll_effect ha _).1

theorem rollback_reverts {r : Req} {s : State} (h : rollbackCase s = 2) : (rollback r s).img.act =
    some (begun r 4 (other s.img.boot.active) true (rollArg (r.payload.drop 4)) s) := by
  unfold rollback
  rw [h]
  exact beginAct_act ..

theorem rollback_activates {r : Req} {s : State} (h : rollbackCase s = 3) : (rollback r s).img.act =
    some (begun r 4 (other s.img.boot.active) false (rollArg (r.payload.drop 4)) s) := by
  unfold rollback
  rw [h]
  exact beginAct_act ..

theorem imageRollback_effect (r : Req) (s : State) (h : ActPasses imageClass 4 r s) : ∃ t, exec (.imageRollback r) s = .next t ∧
    t = rollback (actReq 4 r) (taken r s) ∧ (rollbackCase s = 1 → t.img.act = none) ∧
      (rollbackCase s = 2 → ∃ a, t.img.act = some a ∧ a.bank = other s.img.boot.active ∧ a.revert = true ∧ a.mode = actMode (rollArg r.payload)) ∧
      (rollbackCase s = 3 → ∃ a, t.img.act = some a ∧ a.bank = other s.img.boot.active ∧ a.revert = false ∧ a.mode = actMode (rollArg r.payload)) := by
  have he : cmdAct imageClass 4 r s = rollback (actReq 4 r) (taken r s) := cmdAct_held h rfl (by decide) rfl rfl
  have hb : other (taken r s).img.boot.active = other s.img.boot.active := by rw [taken_img]
  refine ⟨_, congrArg Host.Outcome.next he, rfl, fun hc => ?_, fun hc => ?_, fun hc => ?_⟩
  all_goals rw [← rollbackCase_taken r s] at hc
  · exact rollback_cancels hc
  · exact ⟨_, rollback_reverts hc, hb, rfl, rfl⟩
  · exact ⟨_, rollback_activates hc, hb, rfl, rfl⟩

/-! Chart commits (R609). -/

/-- The commit that a command leaves waiting. -/
def commitBegun (r : Req) (k : Nat) (a : List Byte) : Commit :=
  { slot := k, mode := actMode a, cycles := 2, time := actTime a, req := if actMode a = 0 then none else some r }

theorem beginCommit_eq {r : Req} {k : Nat} {a : List Byte} {s : State}
    (h : ¬ (k = s.img.boot.chart ∧ s.img.boot.chartTrial = true)) : beginCommit r k a s =
    if actMode a = 0 then
      answer 0x81 3 r .ok none [] (setSlotState k 6 (modImg (fun i => { i with commit := some (commitBegun r k a) }) s))
    else setSlotState k 6 (modImg (fun i => { i with commit := some (commitBegun r k a) }) s) := by
  rw [beginCommit, if_neg h]
  rfl

theorem beginCommit_effect {r : Req} {k : Nat} {a : List Byte} {s : State}
    (h : ¬ (k = s.img.boot.chart ∧ s.img.boot.chartTrial = true)) :
    (beginCommit r k a s).img.commit = some (commitBegun r k a) ∧ (slotImgAt (beginCommit r k a s) k).state = 6 := by
  have hi : (beginCommit r k a s).img =
      (setSlotState k 6 (modImg (fun i => { i with commit := some (commitBegun r k a) }) s)).img := by
    rw [beginCommit_eq h, apply_ite State.img, answer_img, ite_self]
  rw [slotImgAt_of_img hi, hi]
  exact ⟨commit_of_offBanks (setSlotState_offBanks ..), slotImgAt_setSlotState ..⟩

theorem readSlot_boot (k : Nat) (s : State) : (readSlot k s).img.boot = s.img.boot := by
  unfold readSlot
  split <;> rfl

theorem chartCommit_effect (r : Req) (s : State) (h : ActPasses chartSpec 2 r s) : ∃ t, exec (.chartCommit r) s = .next t ∧
    t = beginCommit (actReq 2 r) (leAt (rollArg r.payload) 0 1) (rollArg r.payload) (readSlot (leAt (rollArg r.payload) 0 1) (taken r s)) ∧ (¬ (leAt (rollArg r.payload) 0 1 = s.img.boot.chart ∧ s.img.boot.chartTrial = true) →
      t.img.commit = some { slot := leAt (rollArg r.payload) 0 1, mode := actMode (rollArg r.payload), cycles := 2, time := actTime (rollArg r.payload), req := if actMode (rollArg r.payload) = 0 then none else some (actReq 2 r) } ∧
      (slotImgAt t (leAt (rollArg r.payload) 0 1)).state = 6) := by
  have he : cmdAct chartSpec 2 r s = beginCommit (actReq 2 r) (leAt (rollArg r.payload) 0 1) (rollArg r.payload)
      (readSlot (leAt (rollArg r.payload) 0 1) (taken r s)) := cmdAct_held h rfl (by decide) rfl rfl
  refine ⟨_, congrArg Host.Outcome.next he, rfl, fun hn => beginCommit_effect ?_⟩
  rw [readSlot_boot, taken_img]
  exact hn

theorem chartRollback_effect (r : Req) (s : State) (h : ActPasses chartSpec 3 r s) : ∃ t, exec (.chartRollback r) s = .next t ∧
    t = beginCommit (actReq 3 r) (other s.img.boot.chart) (rollArg r.payload) (taken r s) ∧ (other s.img.boot.chart ≠ s.img.boot.chart →
      t.img.commit = some { slot := other s.img.boot.chart, mode := actMode (rollArg r.payload), cycles := 2, time := actTime (rollArg r.payload), req := if actMode (rollArg r.payload) = 0 then none else some (actReq 3 r) } ∧
      (slotImgAt t (other s.img.boot.chart)).state = 6) := by
  have he : cmdAct chartSpec 3 r s = beginCommit (actReq 3 r) (other (taken r s).img.boot.chart) (rollArg r.payload) (taken r s) :=
    cmdAct_held h rfl (by decide) rfl rfl
  rw [show (taken r s).img = s.img from taken_img r s] at he
  refine ⟨_, congrArg Host.Outcome.next he, rfl, fun hn => beginCommit_effect fun hc => hn ?_⟩
  rw [taken_img] at hc
  exact hc.1

/-! The end of a trial (R602). -/

theorem keyChange_img (b : Nat) (s : State) : (keyChange b s).2.img = s.img :=
  same_of_blank (keyChange_frame (only [.wire, .net, .light]) rfl rfl rfl b s) .img rfl

/-- What a boot record says of the trial. -/
def trialNote (b : Boot) : Bool × Nat := (b.trial, b.minSec)

theorem commitMigrated_trialNote (s : State) : trialNote (commitMigrated s).img.boot = trialNote s.img.boot := by
  unfold commitMigrated
  split
  · rfl
  · dsimp only
    rw [emit_img, boot_of_offBanks (setSlotState_offBanks ..), boot_of_offBanks (setSlotState_offBanks ..)]
    rfl

/-- The boot record of a trial that ends well. -/
def trialWritten (s : State) : State :=
  writeBoot (fun r => { r with trial := false, trialS := 0, minSec := (bankHead s s.img.boot.active).secVer }) s

/-- The keys and the chart follow the bank. -/
def trialFollowed (s : State) : State := commitMigrated (keyChange s.img.boot.active (trialWritten s)).2

/-- The other bank may come into use again. -/
def trialReleased (b : Nat) (s : State) : State :=
  if (bankImgAt s (other b)).state = 3 then setBankState (other b) 2 s else s

/-- The bank is active. -/
def trialActive (b : Nat) (s : State) : State := modImg (fun i => { i with rollback := true }) (setBankState b 3 s)

theorem commitTrial_eq (s : State) : commitTrial s =
    let u := trialActive s.img.boot.active (trialReleased s.img.boot.active (trialFollowed s))
    emit 0x8001 s.img.boot.active u (cause := s.img.boot.active)
      (flags := 8 + flag 5 (keyChange s.img.boot.active (trialWritten s)).1) (value := (u.img.first : Int)) := rfl

theorem trialReleased_boot (b : Nat) (s : State) : (trialReleased b s).img.boot = s.img.boot := by
  unfold trialReleased
  split
  · exact setBankState_boot ..
  · rfl

theorem trialActive_effect (b : Nat) (s : State) : (trialActive b (trialReleased b s)).img.boot = s.img.boot ∧
    (trialActive b (trialReleased b s)).img.rollback = true ∧ (bankImgAt (trialActive b (trialReleased b s)) b).state = 3 :=
  ⟨(setBankState_boot ..).trans (trialReleased_boot ..), rfl, (bankImgAt_setBankState b 3 (trialReleased b s)).1⟩

theorem trialFollowed_trialNote (s : State) :
    trialNote (trialFollowed s).img.boot = (false, (bankHead s s.img.boot.active).secVer) := by
  rw [trialFollowed, commitMigrated_trialNote, keyChange_img]
  rfl

theorem commitTrial_img (s : State) : (commitTrial s).img =
    (trialActive s.img.boot.active (trialReleased s.img.boot.active (trialFollowed s))).img := by
  rw [commitTrial_eq]
  exact emit_img ..

theorem commitTrial_effect (s : State) : (commitTrial s).img.boot.trial = false ∧
    (commitTrial s).img.boot.minSec = (bankHead s s.img.boot.active).secVer ∧ (commitTrial s).img.rollback = true ∧
    (bankImgAt (commitTrial s) s.img.boot.active).state = 3 := by
  obtain ⟨hb, hr, hs⟩ := trialActive_effect s.img.boot.active (trialFollowed s)
  obtain ⟨ht, hm⟩ := Prod.mk.inj (trialFollowed_trialNote s)
  rw [bankImgAt_of_img (commitTrial_img s), commitTrial_img, hb]
  exact ⟨ht, hm, hr, hs⟩

theorem trialEnd_effect (s : State) : ∃ t, exec .trialEnd s = .next t ∧
    (s.img.boot.trial = false ∨ s.fv.started = false ∨ s.img.boot.trialS ≠ 0 → t = s) ∧
    (s.img.boot.trial = true → s.fv.started = true → s.img.boot.trialS = 0 →
      t.img.boot.trial = false ∧ t.img.boot.minSec = (bankHead s s.img.boot.active).secVer ∧ t.img.rollback = true ∧
      (bankImgAt t s.img.boot.active).state = 3) := by
  refine ⟨_, rfl, fun h => if_neg ?_, fun ht hs h0 => ?_⟩
  · rcases h with h | h | h <;> simp [h]
  · rw [if_pos (by simp [ht, hs, h0])]
    exact commitTrial_effect s

/-! A handover prepared, timed out or cancelled (R604-R607). -/

theorem devState_setDevState (d : Nat) (s : State) : (setDevState d s).fv.devState = d :=
  (congrArg (·.devState) (setDevState_core d s) :)

theorem exec_lockThroughPrepared {s : State} {a : Activation} (h : s.img.act = some a) : exec .lockThroughPrepared s = .next
    (if a.mode = 0 ∨ a.prepared = true then s
     else if s.sys.role ≠ .barge ∧ (verifyImage s a.bank).isSome = true then cancelAll .eCheck s
     else setDevState 2 (modImg (fun i => { i with act := some { a with prepared := true } }) s)) := by
  refine congrArg Host.Outcome.next ?_
  rw [h]

theorem lockThroughPrepared_effect (s : State) : ∃ t, exec .lockThroughPrepared s = .next t ∧
    (s.img.act = none → t = s) ∧ (∀ a, s.img.act = some a →
      if a.mode = 0 ∨ a.prepared = true then t = s
      else if s.sys.role ≠ .barge ∧ (verifyImage s a.bank).isSome = true then t = cancelAll .eCheck s ∧ t.img.act = none
      else t.img.act = some { a with prepared := true } ∧ t.fv.devState = 2) := by
  cases h : s.img.act with
  | none =>
    refine ⟨s, congrArg Host.Outcome.next ?_, fun _ => rfl, fun _ => (nomatch ·)⟩
    rw [h]
  | some a =>
    refine ⟨_, exec_lockThroughPrepared h, (nomatch ·), fun a' ha => ?_⟩
    cases ha
    by_cases hp : a.mode = 0 ∨ a.prepared = true
    · rw [if_pos hp, if_pos hp]
    · rw [if_neg hp, if_neg hp]
      by_cases hv : s.sys.role ≠ .barge ∧ (verifyImage s a.bank).isSome = true
      · rw [if_pos hv, if_pos hv]
        exact ⟨rfl, (cancelAll_effect h _).1⟩
      · rw [if_neg hv, if_neg hv]
        exact ⟨congrArg Img.act (setDevState_same .img rfl ..), devState_setDevState ..⟩

/-- A command reaches no activation and no open transport any more. -/
def closed (i : Img) : Bool × Bool := (i.act.isNone, i.shut)

theorem foldl_img {α : Type} {g : State → α → State} (hg : ∀ s a, (g s a).img = s.img) (l : List α) (s : State) :
    (l.foldl g s).img = s.img := by
  induction l generalizing s with
  | nil => rfl
  | cons a l ih => exact (ih (g s a)).trans (hg s a)

theorem closed_map (f : Activation → Activation) (g : Commit → Commit) (s : State) :
    closed (modImg (fun i => { i with commit := i.commit.map g }) (modImg (fun i => { i with act := i.act.map f }) s)).img =
      closed s.img := by
  unfold closed modImg
  dsimp only
  rw [Option.isNone_map]

theorem muteWaiting_closed (p : Nat) (s : State) : closed (muteWaiting p s).img = closed s.img := by
  unfold muteWaiting
  dsimp only
  rw [closed_map, modPwr_img]
  refine congrArg closed ((foldl_img ?_ _ _).trans (foldl_img ?_ _ _))
  · exact fun _ _ => rfl
  · exact fun _ _ => rfl

theorem startReset_closed (p reason : Nat) (s : State) : closed (startReset p reason s).img = closed s.img := by
  unfold startReset
  dsimp only
  split
  any_goals rfl
  all_goals
    split
    · rfl
    · rw [emit_img, modPq, modFv_img]
      refine (congrArg closed (foldl_img (fun u k => ?_) _ _)).trans ((muteWaiting_closed ..).trans ?_)
      · split <;> rfl
      · split <;> rfl

theorem runDeferred_closed (s : State) : closed (runDeferred s).img = closed s.img := by
  unfold runDeferred
  generalize s.fv.deferred = l
  generalize hs : modFv (fun v => { v with deferred := [] }) s = u
  have hu : u.img = s.img := by rw [← hs]; rfl
  rw [← hu]
  clear hs hu
  induction l generalizing u with
  | nil => rfl
  | cons e l ih => exact (ih (startReset e.1 e.2 u)).trans (startReset_closed ..)

/-- The Lockkeeper is back in its old chamber. -/
def handoverOff (s : State) : State := setDevState 1 (modImg (fun i => { i with act := none, shut := true }) s)

/-- The bank may come into use again. -/
def bankReleased (b : Nat) (s : State) : State := if (bankImgAt s b).state = 6 then setBankState b 2 s else s

/-- The device and its barges are told. -/
def handoverTold (a : Activation) (s : State) : State :=
  let s := tellBarges 3 4 (actArg a.bank a.mode 0 0) s
  let s := emit 0x8001 a.bank s (cause := a.bank) (flags := 6) (value := ((s.cyc.number + 1) % 2 ^ 48 : Nat))
  match a.req with | some r => answer 0x80 3 r .eTimeout none [] s | none => s

theorem exec_readyFlagTimeout {s : State} {a : Activation} (h : s.img.act = some a) : exec .readyFlagTimeout s = .next
    (if !a.handed then s else runDeferred (handoverTold a (bankReleased a.bank (handoverOff s)))) := by
  refine congrArg Host.Outcome.next ?_
  rw [h]
  rfl

theorem handoverTold_img (a : Activation) (s : State) : (handoverTold a s).img = s.img := by
  unfold handoverTold
  dsimp only
  cases a.req with
  | none => exact (emit_img ..).trans (tellBarges_same .img rfl ..)
  | some r => exact (answer_img ..).trans ((emit_img ..).trans (tellBarges_same .img rfl ..))

theorem bankReleased_offBanks (b : Nat) (s : State) : offBanks (bankReleased b s).img = offBanks s.img := by
  unfold bankReleased
  split
  · exact setBankState_offBanks ..
  · rfl

theorem handover_closed (a : Activation) (s : State) :
    closed (runDeferred (handoverTold a (bankReleased a.bank (handoverOff s)))).img = (true, true) := by
  have hb := bankReleased_offBanks a.bank (handoverOff s)
  rw [runDeferred_closed, handoverTold_img, closed, act_of_offBanks hb, shut_of_offBanks hb, handoverOff,
    show (setDevState 1 _).img = _ from setDevState_same .img rfl ..]
  rfl

theorem readyFlagTimeout_effect (s : State) : ∃ t, exec .readyFlagTimeout s = .next t ∧
    ((∀ a, s.img.act = some a → a.handed = false) → t = s) ∧
    (∀ a, s.img.act = some a → a.handed = true → t.img.act = none ∧ t.img.shut = true) := by
  cases h : s.img.act with
  | none =>
    refine ⟨s, congrArg Host.Outcome.next ?_, fun _ => rfl, fun _ => (nomatch ·)⟩
    rw [h]
  | some a =>
    refine ⟨_, exec_readyFlagTimeout h, fun hn => if_pos ?_, fun a' ha hh => ?_⟩
    · rw [hn a rfl]
      rfl
    · cases ha
      rw [if_neg (by rw [hh]; decide)]
      obtain ⟨hact, hshut⟩ := Prod.mk.inj (handover_closed a s)
      exact ⟨Option.isNone_iff_eq_none.mp hact, hshut⟩

theorem exec_highWaterCancel {s : State} {a : Activation} (h : s.img.act = some a) : exec .highWaterCancel s = .next
    (if a.mode = 0 ∨ (a.mode = 1 ∧ a.named = false) ∨ a.handed = true ∨ (a.prepared = true ∧ a.confirm = []) ∨
        workNs s + 2 * s.cyc.period < a.time then s
     else cancelAll .eTimeout s) := by
  refine congrArg Host.Outcome.next ?_
  rw [h]

theorem highWaterCancel_effect (s : State) : ∃ t, exec .highWaterCancel s = .next t ∧
    (s.img.act = none → t = s) ∧ (∀ a, s.img.act = some a →
      if a.mode = 0 ∨ (a.mode = 1 ∧ a.named = false) ∨ a.handed = true ∨ (a.prepared = true ∧ a.confirm = []) ∨ workNs s + 2 * s.cyc.period < a.time then t = s else t.img.act = none ∧ t.img.shut = false) := by
  cases h : s.img.act with
  | none =>
    refine ⟨s, congrArg Host.Outcome.next ?_, fun _ => rfl, fun _ => (nomatch ·)⟩
    rw [h]
  | some a =>
    refine ⟨_, exec_highWaterCancel h, (nomatch ·), fun a' ha => ?_⟩
    cases ha
    split
    · rfl
    · exact cancelAll_effect h _

/-- Settles O41: a command on an image or a chart leaves its activation or commit in the image record, which what is then
told, reported and answered leaves alone; memory changes at the unit of a WRITE only. -/
theorem imagesAndCharts : Obligations.ImagesAndCharts :=
  ⟨imageWrite_effect, imageVerify_effect, imageActivate_effect, imageRollback_effect, chartWrite_effect, chartCommit_effect,
    chartRollback_effect, trialEnd_effect, lockThroughPrepared_effect, readyFlagTimeout_effect, highWaterCancel_effect⟩

end Sys2Proof.Machine
end


section
/-! Settings that take effect at once (O35). -/
open Sys2Proof
namespace Sys2Proof.Machine

/-- A SET that no boundary and no change holds back is written and answered. -/
theorem cmdSet_written {k : ClassSpec} {r : Req} {s : State} (h : SetPasses k r s)
    (hc : k.setCyc r.inst (asked k r s).part = false)
    (hh : k.held r (asked k r s).part (asked k r s).writes (taken r s) = none) :
    cmdSet k r s = okTo k 2 r (part0 k r.inst (applied k r s)) (applied k r s) := by
  refine (cmdSet_passes h).trans ?_
  rw [show k.setCyc r.inst (askSet k r (received r.pound s)).part = false from hc, if_neg (by decide),
    show k.held r (askSet k r (received r.pound s)).part (askSet k r (received r.pound s)).writes (taken r s) = none from hh]
  rfl

/-- A SET whose response waits leaves the state that keeps the request. -/
theorem cmdSet_held {k : ClassSpec} {r : Req} {s t : State} (h : SetPasses k r s)
    (hc : k.setCyc r.inst (asked k r s).part = false)
    (hh : k.held r (asked k r s).part (asked k r s).writes (taken r s) = some t) : cmdSet k r s = t := by
  refine (cmdSet_passes h).trans ?_
  rw [show k.setCyc r.inst (askSet k r (received r.pound s)).part = false from hc, if_neg (by decide),
    show k.held r (askSet k r (received r.pound s)).part (askSet k r (received r.pound s)).writes (taken r s) = some t from hh]

theorem set_written {k : ClassSpec} {c : Instr} {r : Req} {s : State} (he : exec c s = .next (cmdSet k r s))
    (h : SetPasses k r s) (hc : k.setCyc r.inst (asked k r s).part = false)
    (hh : k.held r (asked k r s).part (asked k r s).writes (taken r s) = none) : ∃ t, exec c s = .next t ∧
      t = okTo k 2 r (part0 k r.inst (applied k r s)) (applied k r s) := ⟨_, he, cmdSet_written h hc hh⟩

theorem taken_pwr (r : Req) (s : State) : (taken r s).pwr = s.pwr := by rw [taken, accepted_pwr, received_pwr]

/-! The period (R59). -/

theorem cycleHeld_unnamed {r : Req} {part : Nat} {ws : List (Nat × Nat)} {s : State} (h : named ws 0 = false) :
    cycleHeld r part ws s = none := by
  rw [cycleHeld, h]
  rfl

theorem cycleHeld_steady {r : Req} {part : Nat} {ws : List (Nat × Nat)} {s : State} (h : named ws 0 = true)
    (hc : s.cyc.change = none) : cycleHeld r part ws s = some (if periodOf (wouldBe ws 0 0) = s.cyc.period then answerSame r s
      else beginChange r (periodOf (wouldBe ws 0 0)) s) := by
  rw [cycleHeld, h, hc]
  rfl

theorem cycleHeld_changing {r : Req} {part : Nat} {ws : List (Nat × Nat)} {s : State} {c : PeriodChange}
    (h : named ws 0 = true) (hc : s.cyc.change = some c) : cycleHeld r part ws s = some (
      let p := periodOf (wouldBe ws 0 0)
      if p = c.period then answerSame r s
      else if p = s.cyc.period then dropChange c (c.req.toList ++ [r]) (relayPeriod (periodCode p) 0 s)
      else beginChange r p (dropChange c c.req.toList s)) := by
  rw [cycleHeld, h, hc]
  rfl

theorem cycleSet_steady {r : Req} {s : State} (h : SetPasses cycleClass r s) (hn : named (asked cycleClass r s).writes 0 = true)
    (hc : s.cyc.change = none) : cmdSet cycleClass r s =
      if periodOf (wouldBe (asked cycleClass r s).writes 0 0) = s.cyc.period then answerSame r (taken r s)
      else beginChange r (periodOf (wouldBe (asked cycleClass r s).writes 0 0)) (taken r s) := by
  have hh := cycleHeld_steady (r := r) (part := (asked cycleClass r s).part) (s := taken r s) hn (by rw [taken_cyc]; exact hc)
  rw [show (taken r s).cyc = s.cyc from taken_cyc r s] at hh
  exact cmdSet_held h rfl hh

theorem cycleSet_changing {r : Req} {c : PeriodChange} {s : State} (h : SetPasses cycleClass r s)
    (hn : named (asked cycleClass r s).writes 0 = true) (hc : s.cyc.change = some c) : cmdSet cycleClass r s =
      let p := periodOf (wouldBe (asked cycleClass r s).writes 0 0)
      if p = c.period then answerSame r (taken r s)
      else if p = s.cyc.period then dropChange c (c.req.toList ++ [r]) (relayPeriod (periodCode p) 0 (taken r s))
      else beginChange r p (dropChange c c.req.toList (taken r s)) := by
  have hh := cycleHeld_changing (r := r) (part := (asked cycleClass r s).part) (s := taken r s) hn (by rw [taken_cyc]; exact hc)
  rw [show (taken r s).cyc = s.cyc from taken_cyc r s] at hh
  exact cmdSet_held h rfl hh

/-! The level (R579). -/

theorem levelHeld_named {r : Req} {part : Nat} {ws : List (Nat × Nat)} {s : State} (hi : r.inst = 0) (hn : named ws 8 = true)
    (hv : s.pwr.vcoreEn = true) (hs : s.pwr.state < 2) : levelHeld r part ws s = some
      (startChange (wouldBe ws 8 0) (some r) (writeFlds powerRec (ws.filter (fun w => decide (w.1 ≠ 8))) s)) := by
  rw [levelHeld, if_pos (by simp [hi, hn, hv, hs])]

theorem powerSet_level {r : Req} {s : State} (h : SetPasses powerClass r s) (hi : r.inst = 0)
    (hn : named (asked powerClass r s).writes 8 = true) (hv : s.pwr.vcoreEn = true) (hs : s.pwr.state < 2) :
    cmdSet powerClass r s = startChange (wouldBe (asked powerClass r s).writes 8 0) (some r)
      (writeFlds powerRec ((asked powerClass r s).writes.filter (fun w => decide (w.1 ≠ 8))) (taken r s)) := by
  rw [← taken_pwr r s] at hv hs
  exact cmdSet_held h rfl (levelHeld_named (part := (asked powerClass r s).part) hi hn hv hs)

/-- Outside the address filters of the host port no PORT setting waits for a boundary. -/
theorem portSetCyc_of_outside {i part : Nat} (h : i < 0x200 ∨ 0x280 ≤ i) : portClass.setCyc i part = false :=
  decide_eq_false (by omega)

theorem cycleSet_written (r : Req) (s : State) (h : SetPasses cycleClass r s)
    (hn : named (asked cycleClass r s).writes 0 = false) : ∃ t, exec (.cycleSet r) s = .next t ∧
      t = okTo cycleClass 2 r (part0 cycleClass r.inst (applied cycleClass r s)) (applied cycleClass r s) := by
  have hh := cycleHeld_unnamed (r := r) (part := (asked cycleClass r s).part) (s := taken r s) hn
  exact set_written rfl h rfl hh

theorem portSet_written (r : Req) (s : State) (h : SetPasses portClass r s) (hi : r.inst < 0x200 ∨ 0x280 ≤ r.inst) :
    ∃ t, exec (.portSet r) s = .next t ∧
      t = okTo portClass 2 r (part0 portClass r.inst (applied portClass r s)) (applied portClass r s) :=
  set_written (k := portClass) (c := .portSet r) rfl h (portSetCyc_of_outside hi) rfl

/-- Settles O35: the fields of an accepted request are written and answered wherever neither the instance is cycle-bound nor
a change of level or period keeps the request. -/
theorem immediateSettingsAreWrittenAndAnswered : Obligations.ImmediateSettingsAreWrittenAndAnswered := by
  refine ⟨fun r s h => set_written rfl h rfl rfl, fun r s h => set_written rfl h rfl rfl, fun r s h => set_written rfl h rfl rfl,
    fun r s h => set_written rfl h rfl rfl, portSet_written,
    fun r s h hp => set_written rfl h (decide_eq_false hp) rfl,
    fun r s h hi => set_written rfl h (decide_eq_false (Nat.not_le.mpr hi)) rfl,
    fun r s h hn => set_written rfl h rfl hn, cycleSet_written,
    fun r s h hn hc hp => ⟨_, rfl, (cycleSet_steady h hn hc).trans (if_pos hp)⟩,
    fun r c s h hn hc => ⟨_, rfl, cycleSet_changing h hn hc⟩,
    fun r s h hn hc hp => ⟨_, rfl, (cycleSet_steady h hn hc).trans (if_neg hp)⟩,
    fun r s h hi hn hv hs => ⟨_, rfl, powerSet_level h hi hn hv hs⟩⟩

end Sys2Proof.Machine
end


section
/-! Towline links and enumeration (O54). -/
open Sys2Proof
namespace Sys2Proof.Machine

/-! What a frame that leaves does not change of any port: its link, its edge and what waits for a revert. -/

/-- The link of a port, its edge and its blocking. -/
def linkNote (t : TowPort) : Nat × Option Nat × Bool × Bool := (t.link, t.edge, t.healed, t.blocked)

/-- Every port keeps its link, its edge and its blocking. -/
structure Steady (s t : State) : Prop where
  note (j : Nat) : linkNote (tpAt t j) = linkNote (tpAt s j)

theorem Steady.refl (s : State) : Steady s s := ⟨fun _ => rfl⟩

theorem Steady.trans {s t u : State} (h : Steady s t) (g : Steady t u) : Steady s u :=
  ⟨fun j => (g.note j).trans (h.note j)⟩

theorem Steady.ite {c : Prop} [Decidable c] {s a b : State} (ha : Steady s a) (hb : Steady s b) :
    Steady s (if c then a else b) := by
  split
  · exact ha
  · exact hb

theorem Steady.link {s t : State} (h : Steady s t) (j : Nat) : (tpAt t j).link = (tpAt s j).link :=
  congrArg (·.1) (h.note j)

theorem Steady.edge {s t : State} (h : Steady s t) (j : Nat) : (tpAt t j).edge = (tpAt s j).edge :=
  congrArg (·.2.1) (h.note j)

theorem steady_of_ports {s t : State} (h : t.tow.ports = s.tow.ports) : Steady s t := by
  refine ⟨fun j => ?_⟩
  rw [tpAt, h, tpAt]

theorem steady_foldl {α : Type} {f : State → α → State} (hf : ∀ s a, Steady s (f s a)) (l : List α) (s : State) :
    Steady s (l.foldl f s) := by
  induction l generalizing s with
  | nil => exact .refl s
  | cons a l ih => exact (hf s a).trans (ih (f s a))

theorem others_modTpt (x : Nat) (f : TowPort → TowPort) (s : State) : others tpAt x s (modTpt x f s) :=
  fun j hj => tpAt_modTpt_ne x j f s hj.symm

theorem steady_modTpt {f : TowPort → TowPort} (hf : ∀ t, linkNote (f t) = linkNote t) (x : Nat) (s : State) :
    Steady s (modTpt x f s) := by
  refine ⟨fun j => ?_⟩
  by_cases h : j = x
  · subst h
    rw [tpAt_modTpt_same, hf]
  · rw [others_modTpt x f s j h]

theorem steady_countTow (x k n : Nat) (s : State) : Steady s (countTow x k n s) := by
  unfold countTow
  dsimp only
  refine .ite (.trans ?_ (steady_of_ports (congrArg Tow.ports (raiseEvt_tow ..)))) ?_
  all_goals exact steady_modTpt (by exact fun _ => rfl) x s

theorem steady_owe (x v n : Nat) (s : State) : Steady s (owe x v n s) :=
  .ite (steady_modTpt (by exact fun _ => rfl) x s) (.refl s)

theorem steady_sendLine (x : Nat) (f : TowFrame) (s : State) : Steady s (sendLine x f s) :=
  steady_modTpt (by exact fun _ => rfl) x s

theorem steady_putOnLine (x : Nat) (f : TowFrame) (s : State) : Steady s (putOnLine x f s) := by
  unfold putOnLine
  extract_lets t need have_ g s₁ s₂ s₃ s₄
  have h₁ : Steady s s₁ := steady_modTpt (by exact fun _ => rfl) x s
  have h₂ : Steady s s₂ := h₁.trans (steady_sendLine x g s₁)
  have h₃ : Steady s s₃ := .ite (h₂.trans (steady_countTow ..)) h₂
  have h₄ : Steady s s₄ := by
    dsimp only [s₄]
    split
    · exact h₃.trans (steady_owe ..)
    · exact h₃
  exact h₄.trans ((steady_countTow x 0 1 s₄).trans (steady_countTow ..))

theorem steady_pumpTow (x n : Nat) (s : State) : Steady s (pumpTow x n s) := by
  induction n generalizing s with
  | zero => exact .refl s
  | succ n ih =>
    unfold pumpTow
    dsimp only
    split
    · exact .refl s
    · split
      · exact .refl s
      · exact ((steady_modTpt (by exact fun _ => rfl) x s).trans (steady_putOnLine ..)).trans (ih _)

theorem steady_pump (x : Nat) (s : State) : Steady s (pump x s) := steady_pumpTow ..

theorem steady_towPut (x : Nat) (f : TowFrame) (s : State) : Steady s (towPut x f s) := by
  unfold towPut
  refine .ite (.ite (steady_putOnLine ..) (.refl s)) ?_
  exact (steady_modTpt (by exact fun _ => rfl) x s).trans (steady_pump ..)

theorem steady_sendBeat (x src hops : Nat) (b : Beat) (s : State) : Steady s (sendBeat x src hops b s) :=
  .ite (.refl s) (steady_putOnLine ..)

theorem offLines_pump (x : Nat) (s : State) : offLines (pump x s).tow = offLines s.tow := offLines_pumpTow ..

theorem topology_of_offLines {s t : State} (h : offLines t.tow = offLines s.tow) : t.tow.topology = s.tow.topology :=
  (congrArg Tow.topology h :)

theorem sendBeat_sys (x src hops : Nat) (b : Beat) (s : State) : (sendBeat x src hops b s).sys = s.sys :=
  same_of_blank (sendBeat_frame (only [.wire, .tow]) rfl rfl x src hops b s) .sys rfl

theorem tpAt_of_tow {s t : State} (h : t.tow = s.tow) (j : Nat) : tpAt t j = tpAt s j := by rw [tpAt, h, tpAt]

theorem otherPort_ne {x : Nat} (h : x < 2) : otherPort x ≠ x := by
  unfold otherPort
  omega

/-! Links that come up (R496, R501, R507). -/

/-- The link is up with full credit, and reported. -/
def linkUp (x : Nat) (s : State) : State :=
  emit 0x4005 (0x40 + x) (modTpt x (fun t => { t with
    link := 1, linkCycle := s.cyc.number, credit := [(0, vcGrant 0), (1, vcGrant 1), (2, vcGrant 2)]
    owed := [], reserve := 0 }) s) (cause := x) (flags := 1)

/-- A repaired link waits for its revert, and the other end is told. -/
def linkHealed (x tow : Nat) (s : State) : State :=
  sendBeat (otherPort x) tow 0 { op := 4, aux1 := 1, aux2 := tow, aux3 := x } (modTpt x (fun t => { t with healed := true }) s)

theorem exec_towlineLinkUp {x : Nat} (h : x < 2) (s : State) : exec (.towlineLinkUp x) s = .next
    (if s.sys.role = .standalone ∨ (tpAt s x).link = 1 ∨ (tpAt s x).link = 2 ∨ (tpAt s x).en = false then s
     else pump x (if (tpAt (linkUp x s) x).edge = some (linkUp x s).sys.tow then linkHealed x (linkUp x s).sys.tow (linkUp x s)
       else linkUp x s)) := guardUnit_of_ok (decide_eq_true h) _

theorem linkUp_tow (x : Nat) (s : State) : (linkUp x s).tow = (modTpt x (fun t => { t with
    link := 1, linkCycle := s.cyc.number, credit := [(0, vcGrant 0), (1, vcGrant 1), (2, vcGrant 2)]
    owed := [], reserve := 0 }) s).tow := emit_tow ..

theorem linkUp_effect (x : Nat) (s : State) : (linkUp x s).sys = s.sys ∧ (tpAt (linkUp x s) x).link = 1 ∧
    (tpAt (linkUp x s) x).edge = (tpAt s x).edge ∧ others tpAt x s (linkUp x s) ∧
    (linkUp x s).tow.topology = s.tow.topology := by
  have ht := linkUp_tow x s
  refine ⟨emit_sys .., ?_, ?_, fun j hj => ?_, ?_⟩
  · rw [tpAt_of_tow ht, tpAt_modTpt_same]
  · rw [tpAt_of_tow ht, tpAt_modTpt_same]
  · rw [tpAt_of_tow ht, others_modTpt _ _ _ j hj]
  · rw [ht]
    rfl

theorem linkHealed_effect (x tow : Nat) (s : State) : (∀ j, (tpAt (linkHealed x tow s) j).link = (tpAt s j).link) ∧
    (linkHealed x tow s).tow.topology = s.tow.topology := by
  refine ⟨fun j => ((steady_sendBeat ..).link j).trans ?_, (topology_of_offLines (offLines_sendBeat ..)).trans rfl⟩
  by_cases h : j = x
  · subst h
    rw [tpAt_modTpt_same]
  · rw [others_modTpt _ _ _ j h]

theorem towlineLinkUp_effect (x : Nat) (s : State) (h : x < 2) : ∃ t, exec (.towlineLinkUp x) s = .next t ∧
      (s.sys.role = .standalone ∨ (tpAt s x).link = 1 ∨ (tpAt s x).link = 2 ∨ (tpAt s x).en = false → t = s) ∧
      (∀ u, ¬(s.sys.role = .standalone ∨ (tpAt s x).link = 1 ∨ (tpAt s x).link = 2 ∨ (tpAt s x).en = false) →
        u = emit 0x4005 (0x40 + x) (modTpt x (fun t => { t with link := 1, linkCycle := s.cyc.number, credit := [(0, vcGrant 0), (1, vcGrant 1), (2, vcGrant 2)], owed := [], reserve := 0 }) s) (cause := x) (flags := 1) →
        (tpAt t x).link = 1 ∧ (∀ y, y ≠ x → (tpAt t y).link = (tpAt s y).link) ∧ t.tow.topology = s.tow.topology ∧
        ((tpAt s x).edge ≠ some s.sys.tow → t = pump x u) ∧
        ((tpAt s x).edge = some s.sys.tow → t = pump x (sendBeat (otherPort x) s.sys.tow 0 { op := 4, aux1 := 1, aux2 := s.sys.tow, aux3 := x } (modTpt x (fun t => { t with healed := true }) u)))) := by
  refine ⟨_, exec_towlineLinkUp h s, fun hn => if_pos hn, fun u hn hu => ?_⟩
  obtain rfl : u = linkUp x s := hu
  obtain ⟨hsys, hl, he, ho, htop⟩ := linkUp_effect x s
  obtain ⟨hlh, hth⟩ := linkHealed_effect x s.sys.tow (linkUp x s)
  rw [if_neg hn, he, hsys, (steady_pump ..).link, topology_of_offLines (offLines_pump ..)]
  by_cases hs : (tpAt s x).edge = some s.sys.tow
  · rw [if_pos hs, hlh, hth]
    refine ⟨hl, fun y hy => ?_, htop, fun hc => absurd hs hc, fun _ => rfl⟩
    rw [(steady_pump ..).link, hlh, ho y hy]
  · rw [if_neg hs]
    refine ⟨hl, fun y hy => ?_, htop, fun _ => rfl, fun hc => absurd hc hs⟩
    rw [(steady_pump ..).link, ho y hy]

/-! Links that go down (R496, R501, R507). -/

/-- The link has its new value, its credit void and its queue taken, and is reported. -/
def linkLost (x v : Nat) (s : State) : State :=
  emit 0x4005 (0x40 + x) (modTpt x (fun t => { t with
    link := v, linkCycle := s.cyc.number, credit := [], owed := [], reserve := 0, backedOff := false, wait := []
    samples := [], echoTx := 0, echoRx := 0 }) s) (cause := x) (flags := v)

/-- The break is at this end. -/
def linkEdge (x : Nat) (s : State) : State :=
  countTow x 13 1 (modTpt x (fun t => { t with edge := some s.sys.tow, healed := false }) s)

/-- The other end is told, and what waited moves. -/
def linkMoved (x : Nat) (w : List TowFrame) (s : State) : State :=
  w.foldl (fun s f => moveFrame (otherPort x) f s)
    (sendBeat (otherPort x) s.sys.tow 0 { op := 4, aux1 := 0, aux2 := s.sys.tow, aux3 := x } s)

theorem linkDown_eq (x v : Nat) (s : State) : linkDown x v s = if (tpAt s x).link ≠ 1 then linkLost x v s
    else lostLoads (linkMoved x (tpAt s x).wait (ringBroken (linkEdge x (linkLost x v s)))) := rfl

theorem steady_moveFrame (y : Nat) (f : TowFrame) (s : State) : Steady s (moveFrame y f s) := by
  unfold moveFrame
  dsimp only
  refine .ite (steady_towPut ..) ?_
  split
  · exact steady_owe ..
  · exact .refl s

theorem offLines_moveFrame (y : Nat) (f : TowFrame) (s : State) : offLines (moveFrame y f s).tow = offLines s.tow := by
  unfold moveFrame
  dsimp only
  generalize (!(match f.body with | .eth .. => true | _ => false) && !f.bcast && decide (f.dst ∈ reach s y)) = c
  cases c with
  | true => exact offLines_towPut ..
  | false =>
    cases f.via with
    | none => rfl
    | some z => exact offLines_owe ..

theorem linkMoved_effect (x : Nat) (w : List TowFrame) (s : State) : Steady s (linkMoved x w s) ∧
    offLines (linkMoved x w s).tow = offLines s.tow :=
  ⟨(steady_sendBeat ..).trans (steady_foldl (fun s f => steady_moveFrame _ f s) w _),
    (offLines_foldl (fun s f => offLines_moveFrame _ f s) w _).trans (offLines_sendBeat ..)⟩

/-- The ports and the topology of the tow. -/
def towShape (t : Tow) : Tbl TowPort × Nat := (t.ports, t.topology)

theorem bargeTo_towShape (a st : Nat) (s : State) : towShape (bargeTo a st s).tow = towShape s.tow := by
  unfold bargeTo
  split <;> rfl

theorem loadFailed_towShape (a : Nat) (lost : Bool) (s : State) : towShape (loadFailed a lost s).tow = towShape s.tow := by
  rw [loadFailed, emit_tow, bargeTo_towShape]
  rfl

/-- A load that fails touches no port. -/
theorem lostLoads_towShape (s : State) : towShape (lostLoads s).tow = towShape s.tow := by
  unfold lostLoads
  split
  · rfl
  · refine foldl_keep (keep := fun s => towShape s.tow) (fun s a => ?_) _ s
    split
    · exact loadFailed_towShape ..
    · rfl

theorem lostLoads_effect (s : State) : (lostLoads s).tow.ports = s.tow.ports ∧ (lostLoads s).tow.topology = s.tow.topology :=
  Prod.mk.inj (lostLoads_towShape s)

/-- A whole ring is broken; links stand. -/
theorem ringBroken_effect (s : State) : (∀ j, (tpAt (ringBroken s) j).link = (tpAt s j).link) ∧
    (ringBroken s).tow.topology = if s.tow.topology = 2 then 3 else s.tow.topology := by
  unfold ringBroken
  split
  · refine ⟨fun j => ?_, rfl⟩
    by_cases h : j = 1
    · subst h
      rw [tpAt_modTpt_same]
      rfl
    · rw [others_modTpt _ _ _ j h]
      rfl
  · exact ⟨fun _ => rfl, rfl⟩

theorem linkLost_effect (x v : Nat) (s : State) : (tpAt (linkLost x v s) x).link = v ∧ others tpAt x s (linkLost x v s) ∧
    (linkLost x v s).tow.topology = s.tow.topology := by
  have ht : (linkLost x v s).tow = (modTpt x (fun t => { t with
      link := v, linkCycle := s.cyc.number, credit := [], owed := [], reserve := 0, backedOff := false, wait := []
      samples := [], echoTx := 0, echoRx := 0 }) s).tow := emit_tow ..
  refine ⟨?_, fun j hj => ?_, ?_⟩
  · rw [tpAt_of_tow ht, tpAt_modTpt_same]
  · rw [tpAt_of_tow ht, others_modTpt _ _ _ j hj]
  · rw [ht]
    rfl

theorem linkEdge_effect (x : Nat) (s : State) : (∀ j, (tpAt (linkEdge x s) j).link = (tpAt s j).link) ∧
    (linkEdge x s).tow.topology = s.tow.topology := by
  refine ⟨fun j => ((steady_countTow ..).link j).trans ?_, (topology_of_offLines (offLines_countTow ..)).trans rfl⟩
  by_cases h : j = x
  · subst h
    rw [tpAt_modTpt_same]
  · rw [others_modTpt _ _ _ j h]

theorem linkDown_effect {x v : Nat} {s : State} (h : (tpAt s x).link = 1) : (tpAt (linkDown x v s) x).link = v ∧
    (∀ y, y ≠ x → (tpAt (linkDown x v s) y).link = (tpAt s y).link) ∧
    (linkDown x v s).tow.topology = if s.tow.topology = 2 then 3 else s.tow.topology := by
  rw [linkDown_eq, if_neg (not_not.mpr h)]
  obtain ⟨hlx, hlo, hlt⟩ := linkLost_effect x v s
  obtain ⟨hel, het⟩ := linkEdge_effect x (linkLost x v s)
  obtain ⟨hrl, hrt⟩ := ringBroken_effect (linkEdge x (linkLost x v s))
  obtain ⟨hms, hmo⟩ := linkMoved_effect x (tpAt s x).wait (ringBroken (linkEdge x (linkLost x v s)))
  obtain ⟨hlp, htop⟩ := lostLoads_effect (linkMoved x (tpAt s x).wait (ringBroken (linkEdge x (linkLost x v s))))
  have hl : ∀ j, (tpAt (lostLoads (linkMoved x (tpAt s x).wait (ringBroken (linkEdge x (linkLost x v s))))) j).link =
      (tpAt (linkLost x v s) j).link := fun j =>
    ((steady_of_ports hlp).link j).trans ((hms.link j).trans ((hrl j).trans (hel j)))
  refine ⟨(hl x).trans hlx, fun y hy => (hl y).trans (congrArg TowPort.link (hlo y hy)), ?_⟩
  rw [htop, topology_of_offLines hmo, hrt, het, hlt]

theorem towlineLinkDown_effect (x : Nat) (s : State) (h : x < 2) : ∃ t, exec (.towlineLinkDown x) s = .next t ∧
    ((tpAt s x).link ≠ 1 → t = s) ∧ ((tpAt s x).link = 1 → t = linkDown x 0 s ∧ (tpAt t x).link = 0 ∧ (∀ y, y ≠ x → (tpAt t y).link = (tpAt s y).link) ∧ t.tow.topology = if s.tow.topology = 2 then 3 else s.tow.topology) := by
  refine ⟨_, guardUnit_of_ok (decide_eq_true h) _, fun hn => if_neg hn, fun hl => ?_⟩
  rw [if_pos hl]
  exact ⟨rfl, linkDown_effect hl⟩

/-! Frames cut off, and waits that end (R497, R501, R508, R517). -/

/-- The counts of a frame cut off. -/
def gapCounted (x : Nat) (noise : Bool) (s : State) : State :=
  if noise then countTow x 7 1 (countTow x 6 1 s) else countTow x 6 1 s

theorem exec_towlineFrameGap {x : Nat} (h : x < 2) (noise : Bool) (cmd : Option (Nat × Nat × Req)) (s : State) :
    exec (.towlineFrameGap x noise cmd) s = .next (if s.sys.role = .standalone ∨ (tpAt s x).link ≠ 1 then s
      else match cmd with
        | some (cls, verb, r) =>
          if (gapCounted x noise s).sys.role = .barge ∧ (gapCounted x noise s).fv.fw = true then
            answer cls verb { r with posted := false, payload := [] } .eTrunc none [] (gapCounted x noise s)
          else gapCounted x noise s
        | none => gapCounted x noise s) := guardUnit_of_ok (decide_eq_true h) _

theorem countTow_fw (x k n : Nat) (s : State) : (countTow x k n s).fv.fw = s.fv.fw :=
  fw_of_core (same_of_blank (countTow_frame (only [.wire, .tow]) rfl rfl x k n s) .fv rfl)

theorem gapCounted_rest (x : Nat) (noise : Bool) (s : State) : (gapCounted x noise s).sys = s.sys ∧
    (gapCounted x noise s).fv.fw = s.fv.fw := by
  unfold gapCounted
  split
  · exact ⟨(countTow_sys ..).trans (countTow_sys ..), (countTow_fw ..).trans (countTow_fw ..)⟩
  · exact ⟨countTow_sys .., countTow_fw ..⟩

theorem towlineFrameGap_effect (x : Nat) (noise : Bool) (cmd : Option (Nat × Nat × Req)) (s : State) (h : x < 2) :
    ∃ t, exec (.towlineFrameGap x noise cmd) s = .next t ∧
      (s.sys.role = .standalone ∨ (tpAt s x).link ≠ 1 → t = s) ∧ (∀ u, s.sys.role ≠ .standalone → (tpAt s x).link = 1 → u = (if noise then countTow x 7 1 (countTow x 6 1 s) else countTow x 6 1 s) →
        (cmd = none ∨ s.sys.role ≠ .barge ∨ s.fv.fw = false → t = u) ∧ (∀ cls verb r, cmd = some (cls, verb, r) → s.sys.role = .barge → s.fv.fw = true → t = answer cls verb { r with posted := false, payload := [] } .eTrunc none [] u) ∧ t.tow = u.tow) := by
  refine ⟨_, exec_towlineFrameGap h noise cmd s, fun hn => if_pos hn, fun u hr hl hu => ?_⟩
  obtain rfl : u = gapCounted x noise s := hu
  obtain ⟨hsys, hfw⟩ := gapCounted_rest x noise s
  rw [if_neg (not_or.mpr ⟨hr, not_not.mpr hl⟩), hsys, hfw]
  cases cmd with
  | none => exact ⟨fun _ => rfl, fun _ _ _ => (nomatch ·), rfl⟩
  | some c =>
    obtain ⟨cls, verb, r⟩ := c
    dsimp only
    by_cases hb : s.sys.role = .barge ∧ s.fv.fw = true
    · rw [if_pos hb]
      refine ⟨fun hn => ?_, fun cls' verb' r' hc _ _ => by cases hc; rfl, answer_tow ..⟩
      rcases hn with hn | hn | hn
      · exact absurd hn nofun
      · exact absurd hb.1 hn
      · exact absurd (hn.symm.trans hb.2) (by decide)
    · rw [if_neg hb]
      exact ⟨fun _ => rfl, fun _ _ _ _ h1 h2 => absurd ⟨h1, h2⟩ hb, rfl⟩

theorem towlineReseqTimeout_effect (src v : Nat) (s : State) (h : src < 64 ∧ v < 2) :
    ∃ t, exec (.towlineReseqTimeout src v) s = .next t ∧
      ((towReseqAt s (4 * src + v)).held = [] → t = s) ∧
      ((towReseqAt s (4 * src + v)).held ≠ [] → t = bargeFlush (towReleaseAll (4 * src + v) s)) := by
  refine ⟨_, guardUnit_of_ok (decide_eq_true h) _, fun hn => if_pos ?_, fun hn => if_neg ?_⟩
  · rw [hn]
    rfl
  · rw [List.isEmpty_iff]
    exact hn

theorem creditWaitExpiry_effect (x : Nat) (s : State) (h : x < 2) : ∃ t, exec (.creditWaitExpiry x) s = .next t ∧
    (owedNext (tpAt s x) = none ∨ (tpAt s x).link ≠ 1 → t = s) ∧
    (owedNext (tpAt s x) ≠ none → t = sendBeat x s.sys.tow 0 { op := 5 } s) := by
  refine ⟨_, guardUnit_of_ok (decide_eq_true h) _, fun hn => ?_, fun hn => if_pos (Option.isSome_iff_ne_none.mpr hn)⟩
  rcases hn with hn | hn
  · exact if_neg (by rw [hn]; decide)
  · exact ite_frame _ (if_pos hn) rfl

theorem bargeLoadRetry_effect (a : Nat) (s : State) (h : rng 1 63 a = true) : ∃ t, exec (.bargeLoadRetry a) s = .next t ∧
    (if s.sys.role = .tug ∧ (bargeAt s a).state = 6 ∧ (bargeAt s a).lost = false then t = startLoad a s ∧ (bargeAt t a).state = 2 else t = s) := by
  refine ⟨_, guardUnit_of_ok h _, ?_⟩
  split
  · exact ⟨rfl, state_startLoad a s⟩
  · rfl

/-! Enumeration repeated (R504, R505). -/

theorem offLines_sendEnum (x : Nat) (s : State) : offLines (sendEnum x s).tow = offLines s.tow := offLines_sendBeat ..

theorem enumCheck_over {s : State} (h : s.tow.enumerating = false) : enumCheck s = s := by
  rw [enumCheck, h]
  rfl

theorem enumTbDelay_effect (s : State) : ∃ t, exec .enumTbDelay s = .next t ∧
    (¬(s.sys.role = .tug ∧ s.tow.tbSent = false ∧ (s.tow.enumerating = true ∨ s.tow.topology ≠ 0)) → t = s) ∧ (s.sys.role = .tug → s.tow.tbSent = false → s.tow.enumerating = true ∨ s.tow.topology ≠ 0 →
      t = enumCheck (sendEnum 1 (modTow (fun t => { t with tbSent := true }) s)) ∧ (s.tow.enumerating = false → t.tow.tbSent = true ∧ t.tow.topology = s.tow.topology)) := by
  refine ⟨_, rfl, fun hn => if_neg hn, fun hr hb he => ?_⟩
  rw [if_pos ⟨hr, hb, he⟩]
  refine ⟨rfl, fun hn => ?_⟩
  have ho := offLines_sendEnum 1 (modTow (fun t => { t with tbSent := true }) s)
  have hen : (sendEnum 1 (modTow (fun t => { t with tbSent := true }) s)).tow.enumerating = s.tow.enumerating :=
    (congrArg Tow.enumerating ho :)
  rw [enumCheck_over (hen.trans hn)]
  exact ⟨(congrArg Tow.tbSent ho :), (congrArg Tow.topology ho :)⟩

theorem exec_enumRepeat {s : State} (hr : s.sys.role = .tug) (hs : s.fv.started = true) : exec .enumRepeat s = .next
    (if (if s.tow.enumerating && s.tow.tbSent then enumFinish s else s).tow.enumerating then
       (if s.tow.enumerating && s.tow.tbSent then enumFinish s else s)
     else sendEnum 0 (modTow (fun t => { t with tbSent := false }) (if s.tow.enumerating && s.tow.tbSent then enumFinish s else s))) := by
  refine congrArg Host.Outcome.next (if_neg ?_)
  rw [hr, hs]
  decide

theorem enumRepeat_idle {s : State} (h : s.sys.role ≠ .tug ∨ s.fv.started = false ∨ (s.tow.enumerating = true ∧ s.tow.tbSent = false)) :
    exec .enumRepeat s = .next s := by
  by_cases hi : s.sys.role ≠ .tug ∨ s.fv.started = false
  · exact congrArg Host.Outcome.next (if_pos hi)
  · obtain ⟨hr, hs⟩ := not_or.mp hi
    obtain ⟨he, ht⟩ := (h.resolve_left hr).resolve_left hs
    rw [exec_enumRepeat (not_not.mp hr) (Bool.eq_true_of_not_eq_false hs), he, ht]
    exact congrArg Host.Outcome.next (if_pos he)

theorem enumRepeat_effect (s : State) : ∃ t, exec .enumRepeat s = .next t ∧
    (s.sys.role ≠ .tug ∨ s.fv.started = false ∨ (s.tow.enumerating = true ∧ s.tow.tbSent = false) → t = s) ∧ (∀ u, s.sys.role = .tug → s.fv.started = true → s.tow.enumerating = false ∨ s.tow.tbSent = true →
      u = (if s.tow.enumerating then enumFinish s else s) → (u.tow.enumerating = true → t = u) ∧ (u.tow.enumerating = false → t = sendEnum 0 (modTow (fun t => { t with tbSent := false }) u) ∧ t.tow.tbSent = false)) := by
  by_cases hi : s.sys.role ≠ .tug ∨ s.fv.started = false ∨ (s.tow.enumerating = true ∧ s.tow.tbSent = false)
  · refine ⟨s, enumRepeat_idle hi, fun _ => rfl, fun u hr hs hb => ?_⟩
    rcases hi with h | h | ⟨h1, h2⟩
    · exact absurd hr h
    · exact absurd (h.symm.trans hs) (by decide)
    · rw [h1, h2] at hb
      exact absurd hb (by decide)
  · obtain ⟨hr, hi⟩ := not_or.mp hi
    obtain ⟨hs, hi⟩ := not_or.mp hi
    refine ⟨_, exec_enumRepeat (not_not.mp hr) (Bool.eq_true_of_not_eq_false hs), fun h => ?_, fun u _ _ hb hu => ?_⟩
    · exact absurd ((h.resolve_left hr).resolve_left hs) hi
    · have hc : (s.tow.enumerating && s.tow.tbSent) = s.tow.enumerating := by
        rcases hb with h | h <;> simp [h]
      rw [hc, ← hu]
      refine ⟨fun he => if_pos he, fun he => ?_⟩
      rw [if_neg (by rw [he]; decide)]
      exact ⟨rfl, (congrArg Tow.tbSent (offLines_sendEnum 0 (modTow (fun t => { t with tbSent := false }) u)) :)⟩

/-! A repaired link reverts (R507). -/

/-- The edge of a port is gone. -/
def edgeGone (x : Nat) (s : State) : State := modTpt x (fun t => { t with edge := none, healed := false }) s

/-- A ring is whole again. -/
def ringWhole (s : State) : State :=
  let s := modTow (fun t => { t with topology := 2 }) s
  if s.sys.role = .tug then modTpt 1 (fun t => { t with blocked := true }) s else s

theorem exec_revertHoldEnd {x : Nat} (h : x < 2) (s : State) : exec (.revertHoldEnd x) s = .next
    (if !(tpAt s x).healed then s
     else if (edgeGone x s).tow.topology = 3 ∧ (tpAt (edgeGone x s) (otherPort x)).edge = none then ringWhole (edgeGone x s)
     else edgeGone x s) := guardUnit_of_ok (decide_eq_true h) _

theorem edgeGone_effect (x : Nat) (s : State) : tpAt (edgeGone x s) x = { tpAt s x with edge := none, healed := false } ∧
    others tpAt x s (edgeGone x s) := ⟨tpAt_modTpt_same .., others_modTpt x _ s⟩

/-- The edge, the mark of a repair and the link of a port. -/
def edgeNote (t : TowPort) : Option Nat × Bool × Nat := (t.edge, t.healed, t.link)

theorem ringWhole_edgeNote (s : State) (j : Nat) : edgeNote (tpAt (ringWhole s) j) = edgeNote (tpAt s j) := by
  unfold ringWhole
  dsimp only
  split
  · by_cases h : j = 1
    · subst h
      rw [tpAt_modTpt_same]
      rfl
    · rw [others_modTpt _ _ _ j h]
      rfl
  · rfl

theorem ringWhole_effect (s : State) : (ringWhole s).tow.topology = 2 ∧
    (s.sys.role = .tug → (tpAt (ringWhole s) 1).blocked = true) := by
  unfold ringWhole
  dsimp only
  split
  · refine ⟨rfl, fun _ => ?_⟩
    rw [tpAt_modTpt_same]
  case isFalse h => exact ⟨rfl, fun hr => absurd hr h⟩

theorem revertHoldEnd_effect (x : Nat) (s : State) (h : x < 2) : ∃ t, exec (.revertHoldEnd x) s = .next t ∧
    ((tpAt s x).healed = false → t = s) ∧ ((tpAt s x).healed = true → (tpAt t x).edge = none ∧ (tpAt t x).healed = false ∧ (tpAt t x).link = (tpAt s x).link ∧ (tpAt t (otherPort x)).edge = (tpAt s (otherPort x)).edge ∧
      t.tow.topology = (if s.tow.topology = 3 ∧ (tpAt s (otherPort x)).edge = none then 2 else s.tow.topology) ∧
      (s.tow.topology = 3 → (tpAt s (otherPort x)).edge = none → s.sys.role = .tug → (tpAt t 1).blocked = true)) := by
  refine ⟨_, exec_revertHoldEnd h s, fun hn => if_pos (by rw [hn]; rfl), fun hh => ?_⟩
  obtain ⟨hx, ho⟩ := edgeGone_effect x s
  have hy : tpAt (edgeGone x s) (otherPort x) = tpAt s (otherPort x) := ho _ (otherPort_ne h)
  rw [if_neg (by rw [hh]; decide), hy, show (edgeGone x s).tow.topology = s.tow.topology from rfl]
  by_cases hc : s.tow.topology = 3 ∧ (tpAt s (otherPort x)).edge = none
  · rw [if_pos hc, if_pos hc]
    have hn := ringWhole_edgeNote (edgeGone x s) x
    have hm := ringWhole_edgeNote (edgeGone x s) (otherPort x)
    rw [hx] at hn
    rw [hy] at hm
    obtain ⟨htop, hblk⟩ := ringWhole_effect (edgeGone x s)
    exact ⟨(congrArg (·.1) hn :), (congrArg (·.2.1) hn :), (congrArg (·.2.2) hn :), (congrArg (·.1) hm :), htop, fun _ _ => hblk⟩
  · rw [if_neg hc, if_neg hc, hx, hy]
    exact ⟨rfl, rfl, rfl, rfl, rfl, fun h1 h2 => absurd ⟨h1, h2⟩ hc⟩

/-- Settles O54: whatever leaves by a port keeps every link, edge and blocking, so a command changes those of its own
port and, where the ring breaks or heals, the blocking of the tug's second port. -/
theorem towlineLinksAndEnumeration : Obligations.TowlineLinksAndEnumeration :=
  ⟨towlineLinkUp_effect, towlineLinkDown_effect, towlineFrameGap_effect, towlineReseqTimeout_effect, creditWaitExpiry_effect,
    bargeLoadRetry_effect, enumTbDelay_effect, enumRepeat_effect, revertHoldEnd_effect⟩

end Sys2Proof.Machine
end


section
/-! Towline frames that arrive (O55). -/
open Sys2Proof
namespace Sys2Proof.Machine

/-! A frame of one type arrives (R498, R499). -/

/-- The frame has passed its checks: it counts, brings its credit, and waiting frames go. -/
def arrivedGood (x : Nat) (f : TowFrame) (s : State) : State :=
  pump x (takeCredit x f.crVc f.crCells (countTow x 3 (towBytes f) (countTow x 2 1 s)))

/-- The upstream rule: frames wait for VC0, and the port backs off once. -/
def backedOffFor (x : Nat) (f : TowFrame) (u : State) : State :=
  if f.vc = 0 ∧ (tpAt u x).backedOff = false ∧ upstream u x = false ∧ (tpAt u x).wait.any (fun g => decide (g.vc = 0)) = true then
    countTow x 9 1 (modTpt x (fun t => { t with backedOff := true }) u)
  else u

theorem towArrive_deaf {x : Nat} {s : State} (h : s.sys.role = .standalone ∨ (tpAt s x).link ≠ 1) (chk : Nat) (f : TowFrame) :
    towArrive x chk f s = (none, s) := if_pos h

section
variable {x chk : Nat} {f : TowFrame} {s : State} (hr : s.sys.role ≠ .standalone) (hl : (tpAt s x).link = 1)
include hr hl

theorem towArrive_badTrailer (h : chk = 1) : towArrive x chk f s = (none, owe x f.vc (towCells f) (badTrailer x s)) := by
  rw [towArrive, if_neg (not_or.mpr ⟨hr, not_not.mpr hl⟩), if_pos h]

theorem towArrive_badHeader (h : chk ≠ 1) (hb : chk ≠ 0 ∨ bodyMax f.body < bodyLen f.body) :
    towArrive x chk f s = (none, owe x f.vc (towCells f) (countTow x 5 1 s)) := by
  rw [towArrive, if_neg (not_or.mpr ⟨hr, not_not.mpr hl⟩), if_neg h, if_pos hb]

theorem towArrive_good (h : chk = 0) (hb : bodyLen f.body ≤ bodyMax f.body) : towArrive x chk f s =
    if 63 < f.hops + 1 then (none, owe x f.vc (towCells f) (countTow x 8 1 (arrivedGood x f s)))
    else (some { f with hops := f.hops + 1, via := some x }, backedOffFor x f (arrivedGood x f s)) := by
  subst h
  rw [towArrive, if_neg (not_or.mpr ⟨hr, not_not.mpr hl⟩), if_neg (by decide),
    if_neg (not_or.mpr ⟨not_not.mpr rfl, Nat.not_lt.mpr hb⟩)]
  rfl

end

/-- A frame that goes on is taken or forwarded, and what a barge has to answer leaves. -/
def frameDone (x : Nat) (bad : Bool) : Option TowFrame × State → State
  | (some g, s) => bargeFlush (towTake x { g with bad := bad } s)
  | (none, s) => s

theorem onTow_eq {x : Nat} (h : x < 2) (chk : Nat) (bad : Bool) (ok : TowBody → Bool) (f : TowFrame) (s : State) :
    onTow x chk bad ok f s = .next (if !ok f.body then s else frameDone x bad (towArrive x chk f s)) :=
  guardUnit_of_ok (decide_eq_true h) _

theorem onTow_effect {x chk : Nat} {f : TowFrame} {bad : Bool} {ok : TowBody → Bool} {s : State} (h : x < 2) :
    ∃ t, onTow x chk bad ok f s = .next t ∧
      (ok f.body = false ∨ s.sys.role = .standalone ∨ (tpAt s x).link ≠ 1 → t = s) ∧
      (ok f.body = true → s.sys.role ≠ .standalone → (tpAt s x).link = 1 →
        (chk = 1 → t = owe x f.vc (towCells f) (badTrailer x s)) ∧
        (chk ≠ 1 → chk ≠ 0 ∨ bodyMax f.body < bodyLen f.body → t = owe x f.vc (towCells f) (countTow x 5 1 s)) ∧
        (chk = 0 → bodyLen f.body ≤ bodyMax f.body → ∀ u, u = arrivedGood x f s →
          (63 < f.hops + 1 → t = owe x f.vc (towCells f) (countTow x 8 1 u)) ∧
          (f.hops + 1 ≤ 63 → t = bargeFlush (towTake x { f with hops := f.hops + 1, via := some x, bad := bad } (backedOffFor x f u))))) := by
  refine ⟨_, onTow_eq h .., fun hn => ?_, fun hok hr hl => ?_⟩
  · rcases hn with hn | hn
    · rw [hn]
      rfl
    · rw [towArrive_deaf hn]
      exact ite_self _
  · rw [hok, if_neg (by decide)]
    refine ⟨fun hc => ?_, fun hc hb => ?_, fun hc hb u hu => ?_⟩
    · rw [towArrive_badTrailer hr hl hc]
      rfl
    · rw [towArrive_badHeader hr hl hc hb]
      rfl
    · rw [towArrive_good hr hl hc hb, ← hu]
      refine ⟨fun hh => ?_, fun hh => ?_⟩
      · rw [if_pos hh]
        rfl
      · rw [if_neg (Nat.not_lt.mpr hh)]
        rfl

/-- A body of a DATA frame. -/
def dataBody (b : TowBody) : Bool := match b with | .eth .. => true | .record .. => true | _ => false

/-- A body of a FAVAL frame. -/
def favalBody (b : TowBody) : Bool := match b with | .cmd _ _ r => !r.posted | .rsp _ => true | .chart .. => true | _ => false

/-- A body of a POST frame. -/
def postBody (b : TowBody) : Bool := match b with | .cmd _ _ r => r.posted | .block _ _ => true | _ => false

/-- A body of a NOTE frame. -/
def noteBody (b : TowBody) : Bool := match b with | .note _ => true | _ => false

/-- A body of a LATE frame. -/
def lateBody (b : TowBody) : Bool := match b with | .late .. => true | _ => false

section
variable (x chk : Nat) (f : TowFrame) (s : State)

theorem exec_dataFrameReceived : exec (.dataFrameReceived x chk f) s = onTow x chk false dataBody f s := rfl
theorem exec_favalFrameReceived : exec (.favalFrameReceived x chk f) s = onTow x chk false favalBody f s := rfl
theorem exec_postFrameReceived (bad : Bool) : exec (.postFrameReceived x chk f bad) s = onTow x chk bad postBody f s := rfl
theorem exec_noteFrameReceived : exec (.noteFrameReceived x chk f) s = onTow x chk false noteBody f s := rfl
theorem exec_lateFrameReceived : exec (.lateFrameReceived x chk f) s = onTow x chk false lateBody f s := rfl

end

/-! A BEAT of one operation arrives (R503). -/

/-- A BEAT that has arrived has its effect `act`. -/
def beatDone (act : TowFrame → Beat → State → State) : Option (TowFrame × Beat) × State → State
  | (some (g, b), s) => act g b s
  | (none, s) => s

theorem onBeat_of_beat {x op : Nat} {f : TowFrame} {b : Beat} (h : x < 2) (hf : f.body = .beat b) (chk : Nat)
    (act : TowFrame → Beat → State → State) (s : State) :
    onBeat x chk op f act s = .next (if b.op ≠ op then s else beatDone act (beatArrive x chk f s)) := by
  rw [onBeat, hf]
  exact guardUnit_of_ok (decide_eq_true h) _

theorem onBeat_of_other {x : Nat} {f : TowFrame} (h : x < 2) (hf : ∀ b, f.body ≠ .beat b) (chk op : Nat)
    (act : TowFrame → Beat → State → State) (s : State) : onBeat x chk op f act s = .next s := by
  rw [onBeat, guardUnit_of_ok (decide_eq_true h)]
  cases hb : f.body with
  | beat b => exact absurd hb (hf b)
  | _ => rfl

theorem beatArrive_deaf {x : Nat} {s : State} (h : s.sys.role = .standalone ∨ (tpAt s x).link ≠ 1) {f : TowFrame} {b : Beat}
    (hf : f.body = .beat b) (chk : Nat) : beatArrive x chk f s = (none, s) := by
  rw [beatArrive, hf]
  dsimp only
  rw [towArrive_deaf h]

/-- What a BEAT of one operation does, when `P` says what its effect does to the state after the arrival. -/
theorem onBeat_effect {x chk op : Nat} {f : TowFrame} {act : TowFrame → Beat → State → State} {s : State}
    {P : TowFrame → Beat → State → State → Prop} (h : x < 2) (hP : ∀ g b u, P g b u (act g b u)) :
    ∃ t, onBeat x chk op f act s = .next t ∧
      ((∀ b, f.body = .beat b → b.op ≠ op) ∨ s.sys.role = .standalone ∨ (tpAt s x).link ≠ 1 → t = s) ∧
      (∀ b, f.body = .beat b → b.op = op → (∀ u, beatArrive x chk f s = (none, u) → t = u) ∧
        (∀ g u, beatArrive x chk f s = (some (g, b), u) → P g b u t)) := by
  by_cases hb : ∃ b, f.body = .beat b
  · obtain ⟨b, hf⟩ := hb
    refine ⟨_, onBeat_of_beat h hf chk act s, fun hn => ?_, fun b' hf' ho => ?_⟩
    · rcases hn with hn | hn
      · exact if_pos (hn b hf)
      · rw [beatArrive_deaf hn hf]
        exact ite_self _
    · obtain rfl : b = b' := TowBody.beat.inj (hf.symm.trans hf')
      rw [if_neg (not_not.mpr ho)]
      refine ⟨fun u hu => ?_, fun g u hu => ?_⟩
      · rw [hu]
        rfl
      · rw [hu]
        exact hP g b u
  · rw [not_exists] at hb
    exact ⟨s, onBeat_of_other h hb chk op act s, fun _ => rfl, fun b hf => absurd hf (hb b)⟩

theorem beatReceived_effect (x chk : Nat) (f : TowFrame) (locked : Bool) (s : State) (h : x < 2) : ∃ t, exec (.beatReceived x chk f locked) s = .next t ∧
      ((∀ b, f.body = .beat b → b.op ≠ 0) ∨ s.sys.role = .standalone ∨ (tpAt s x).link ≠ 1 → t = s) ∧ (∀ b, f.body = .beat b → b.op = 0 →
        (∀ u, beatArrive x chk f s = (none, u) → t = u) ∧ (∀ g u, beatArrive x chk f s = (some (g, b), u) → (s.sys.role = u.sys.role → (s.sys.role = .tug → t = if b.up = true ∧ rng 1 63 g.src = true then bargeBeat g.src b locked u else u) ∧
          (s.sys.role = .barge → b.up = true → t = if x = tugPort u then u else sendBeat (otherPort x) g.src g.hops b u) ∧
          (s.sys.role = .barge → b.up = false → x ≠ tugPort u → t = u) ∧
          (∀ v, s.sys.role = .barge → b.up = false → x = tugPort u → v = (if u.fv.fw then tugBeat x b u else u) → t = sendBeat (otherPort x) g.src g.hops { b with corr := b.corr + 65536 * linkDelay (tpAt v x) } v)))) := by
  refine onBeat_effect h fun g b u hs => ?_
  rw [hs]
  refine ⟨fun hr => ?_, fun hr hu => ?_, fun hr hu hx => ?_, fun v hr hu hx hv => ?_⟩
  · simp only [hr, Bool.and_eq_true]
  · simp only [hr, hu, if_true]
  · simp only [hr, hu, Bool.false_eq_true, if_false, if_pos hx]
  · simp only [hr, hu, Bool.false_eq_true, if_false, if_neg (not_not.mpr hx), hv]

theorem enumReceived_effect (x chk : Nat) (f : TowFrame) (peer quiet : Bool) (s : State) (h : x < 2) : ∃ t, exec (.enumReceived x chk f peer quiet) s = .next t ∧
      ((∀ b, f.body = .beat b → b.op ≠ 1) ∨ s.sys.role = .standalone ∨ (tpAt s x).link ≠ 1 → t = s) ∧ (∀ b, f.body = .beat b → b.op = 1 →
        (∀ u, beatArrive x chk f s = (none, u) → t = u) ∧ (∀ g u, beatArrive x chk f s = (some (g, b), u) → (u.sys.role = .tug → (peer = true → t = emit 0x4001 (0x40 + x) (linkDown x 2 u) (cause := x)) ∧
            (peer = false → x = 1 → b.aux1 = 0 → u.tow.enumerating = true → t = enumCheck (modTow (fun t => { t with ringHops := g.hops }) u)) ∧
            (peer = false → ¬(x = 1 ∧ b.aux1 = 0 ∧ u.tow.enumerating = true) → t = u)) ∧
          (∀ v, u.sys.role = .barge → ¬(u.tow.answered = true ∧ x ≠ u.tow.upPort ∧ (tpAt u u.tow.upPort).link = 1 ∧ (tpAt u u.tow.upPort).edge = none) →
            v = (if u.fv.started = true ∧ u.tow.answered = true then u else modTow (fun t => { t with answered := true, upPort := x, upHops := g.hops, upSide := decide (b.aux1 = 1) }) u) →
            t = sendBeat (otherPort x) g.src g.hops b (sendBeat x v.sys.tow 0 { op := 2, up := true, ready := towReady v, last := quiet && decide ((tpAt v (otherPort x)).link ≠ 1), aux2 := g.hops, identity := Config.identity } v)) ∧
          (u.sys.role = .barge → u.tow.answered = true ∧ x ≠ u.tow.upPort ∧ (tpAt u u.tow.upPort).link = 1 ∧ (tpAt u u.tow.upPort).edge = none → t = u))) := by
  refine onBeat_effect h fun g b u => ⟨fun hr => ⟨fun hp => ?_, fun hp h1 h2 h3 => ?_, fun hp hn => ?_⟩, fun v hr hn hv => ?_, fun hr hn => ?_⟩
  · simp only [hr, if_pos hp]
  · simp only [hr, hp, Bool.false_eq_true, if_false, if_pos (show x = 1 ∧ b.aux1 = 0 ∧ u.tow.enumerating = true from ⟨h1, h2, h3⟩)]
  · simp only [hr, hp, Bool.false_eq_true, if_false, if_neg hn]
  · simp only [hr, if_neg hn, hv]
  · simp only [hr, if_pos hn]

theorem enumAckReceived_effect (x chk : Nat) (f : TowFrame) (s : State) (h : x < 2) : ∃ t, exec (.enumAckReceived x chk f) s = .next t ∧
      ((∀ b, f.body = .beat b → b.op ≠ 2) ∨ s.sys.role = .standalone ∨ (tpAt s x).link ≠ 1 → t = s) ∧ (∀ b, f.body = .beat b → b.op = 2 →
        (∀ u, beatArrive x chk f s = (none, u) → t = u) ∧ (∀ g u, beatArrive x chk f s = (some (g, b), u) → (u.sys.role = .barge → t = sendBeat (otherPort x) g.src g.hops b u) ∧ (u.sys.role = .tug →
            t = if u.tow.enumerating = true then enumCheck (modTow (fun t => { t with acks := t.acks ++ [(x, b.aux2, b.identity, b.last)] }) u) else ackRunning x b.aux2 b.identity b.ready u))) := by
  refine onBeat_effect h fun g b u => ⟨fun hr => ?_, fun hr => ?_⟩
  · simp only [hr]
  · simp only [hr]

/-- A barge that has answered takes its address from its position (R504). -/
def assigned (b : Beat) (u : State) : State :=
  modTow (fun t => { t with topology := b.aux1, taCount := b.aux2, found := b.aux3 })
    (modSys (fun v => { v with tow := if b.aux1 = 2 ∨ u.tow.upSide = false then u.tow.upHops else b.aux2 + u.tow.upHops }) u)

theorem exec_assignReceived (x chk : Nat) (f : TowFrame) (s : State) : exec (.assignReceived x chk f) s =
    onBeat x chk 3 f (fun g b u => if u.sys.role ≠ .barge then u
      else sendBeat (otherPort x) g.src g.hops b (if u.tow.answered then assigned b u else u)) s := rfl

theorem assignReceived_effect (x chk : Nat) (f : TowFrame) (s : State) (h : x < 2) : ∃ t, exec (.assignReceived x chk f) s = .next t ∧
      ((∀ b, f.body = .beat b → b.op ≠ 3) ∨ s.sys.role = .standalone ∨ (tpAt s x).link ≠ 1 → t = s) ∧ (∀ b, f.body = .beat b → b.op = 3 →
        (∀ u, beatArrive x chk f s = (none, u) → t = u) ∧ (∀ g u, beatArrive x chk f s = (some (g, b), u) → (u.sys.role ≠ .barge → t = u) ∧ (u.sys.role = .barge → (u.tow.answered = false → t = sendBeat (otherPort x) g.src g.hops b u) ∧ (u.tow.answered = true → t.tow.topology = b.aux1 ∧ t.tow.taCount = b.aux2 ∧ t.tow.found = b.aux3 ∧
            t.sys = { u.sys with tow := if b.aux1 = 2 ∨ u.tow.upSide = false then u.tow.upHops else b.aux2 + u.tow.upHops })))) := by
  rw [exec_assignReceived]
  refine onBeat_effect h fun g b u => ⟨fun hr => if_pos hr, fun hr => ?_⟩
  rw [if_neg (not_not.mpr hr)]
  refine ⟨fun ha => ?_, fun ha => ?_⟩
  · rw [ha, if_neg (by decide)]
  · rw [if_pos ha]
    have ho := offLines_sendBeat (otherPort x) g.src g.hops b (assigned b u)
    exact ⟨(congrArg Tow.topology ho :), (congrArg Tow.taCount ho :), (congrArg Tow.found ho :), sendBeat_sys ..⟩

/-- The reporter `k` of a break is no further along port `x` than the break known there. -/
def breakNearer (x k : Nat) (v : State) : Bool :=
  match (tpAt v x).edge with
  | some e => decide ((along v x).idxOf k ≤ (along v x).idxOf e)
  | none => true

/-- The tow learns of a break (R507). -/
def breakHeard (x k : Nat) (near : Bool) (v : State) : State :=
  lostLoads (ringBroken (if near then modTpt x (fun t => { t with edge := some k, healed := false }) v else v))

theorem exec_topoReceived (x chk : Nat) (f : TowFrame) (s : State) : exec (.topoReceived x chk f) s =
    onBeat x chk 4 f (fun g b u =>
      if b.aux1 = 0 then breakHeard x b.aux2 (breakNearer x b.aux2 (sendBeat (otherPort x) g.src g.hops b u)) (sendBeat (otherPort x) g.src g.hops b u)
      else if (tpAt (sendBeat (otherPort x) g.src g.hops b u) x).edge = some b.aux2 then
        modTpt x (fun t => { t with healed := true }) (sendBeat (otherPort x) g.src g.hops b u)
      else sendBeat (otherPort x) g.src g.hops b u) s := rfl

theorem breakNearer_eq {x k : Nat} {v : State} {near : Bool}
    (hs : ∀ e, (tpAt v x).edge = some e → near = decide ((along v x).idxOf k ≤ (along v x).idxOf e))
    (hn : (tpAt v x).edge = none → near = true) : breakNearer x k v = near := by
  unfold breakNearer
  split
  case h_1 e he => exact (hs e he).symm
  case h_2 he => exact (hn he).symm

theorem breakHeard_topology (x k : Nat) (near : Bool) (v : State) :
    (breakHeard x k near v).tow.topology = if v.tow.topology = 2 then 3 else v.tow.topology := by
  rw [breakHeard, (lostLoads_effect _).2, (ringBroken_effect _).2]
  cases near <;> rfl

theorem topoReceived_effect (x chk : Nat) (f : TowFrame) (s : State) (h : x < 2) : ∃ t, exec (.topoReceived x chk f) s = .next t ∧
      ((∀ b, f.body = .beat b → b.op ≠ 4) ∨ s.sys.role = .standalone ∨ (tpAt s x).link ≠ 1 → t = s) ∧ (∀ b, f.body = .beat b → b.op = 4 →
        (∀ u, beatArrive x chk f s = (none, u) → t = u) ∧ (∀ g u, beatArrive x chk f s = (some (g, b), u) → (∀ v near, v = sendBeat (otherPort x) g.src g.hops b u → (∀ e, (tpAt v x).edge = some e → near = decide ((along v x).idxOf b.aux2 ≤ (along v x).idxOf e)) → ((tpAt v x).edge = none → near = true) →
            (b.aux1 = 0 → t = lostLoads (ringBroken (if near then modTpt x (fun t => { t with edge := some b.aux2, healed := false }) v else v)) ∧ t.tow.topology = if u.tow.topology = 2 then 3 else u.tow.topology) ∧
            (b.aux1 ≠ 0 → t = if (tpAt v x).edge = some b.aux2 then modTpt x (fun t => { t with healed := true }) v else v)))) := by
  rw [exec_topoReceived]
  refine onBeat_effect h fun g b u v near hv hs hn => ?_
  rw [← hv, breakNearer_eq hs hn]
  refine ⟨fun h0 => ?_, fun h0 => if_neg h0⟩
  rw [if_pos h0, breakHeard_topology, hv, topology_of_offLines (offLines_sendBeat ..)]
  exact ⟨rfl, rfl⟩

theorem creditReceived_effect (x chk : Nat) (f : TowFrame) (s : State) (h : x < 2) : ∃ t, exec (.creditReceived x chk f) s = .next t ∧
      ((∀ b, f.body = .beat b → b.op ≠ 5) ∨ s.sys.role = .standalone ∨ (tpAt s x).link ≠ 1 → t = s) ∧ (∀ b, f.body = .beat b → b.op = 5 →
        (∀ u, beatArrive x chk f s = (none, u) → t = u) ∧ (∀ g u, beatArrive x chk f s = (some (g, b), u) → t = u)) :=
  onBeat_effect h fun _ _ _ => rfl

/-- Settles O55: the five types of frame share `onTow_effect`, the six operations of a BEAT `onBeat_effect`. -/
theorem towlineFramesThatArrive : Obligations.TowlineFramesThatArrive := by
  refine ⟨fun x chk f s h => ?_, fun x chk f s h => ?_, fun x chk f bad s h => ?_, fun x chk f s h => ?_,
    fun x chk f s h => ?_, beatReceived_effect, enumReceived_effect, enumAckReceived_effect, assignReceived_effect,
    topoReceived_effect, creditReceived_effect⟩
  · rw [exec_dataFrameReceived]
    exact onTow_effect (ok := dataBody) h
  · rw [exec_favalFrameReceived]
    exact onTow_effect (ok := favalBody) h
  · rw [exec_postFrameReceived]
    exact onTow_effect (ok := postBody) h
  · rw [exec_noteFrameReceived]
    exact onTow_effect (ok := noteBody) h
  · rw [exec_lateFrameReceived]
    exact onTow_effect (ok := lateBody) h

end Sys2Proof.Machine
end
